-- ==== Sys2Proof/Word.lean ====
section
/-! DEFINITION. The word and byte of the parameter space (R7, R35) and their plainest arithmetic. -/

namespace Sys2Proof

/-- A parameter is a 32-bit word (R7). -/
abbrev Word := BitVec 32

/-- Packets and tables are made of bytes (R35). -/
abbrev Byte := BitVec 8

end Sys2Proof
end

