-- ==== Sys2Proof/Syntax.lean ====
section
/-! DEFINITION. The commands the block takes: one constructor per row of spec/opcode_table.json, with the operands
the rule of the row gives it. -/

namespace Sys2Proof

/-- Where a packet comes from and where its reply goes (R39, R59): the SPI port in packet mode, the packet tunnel of
legacy mode (R71), a CAN controller and request priority ID (R73), a UDP source address and port on one of the two
PHYs (0 is 100BASE-T1, R74), or a stored sequence (R64). -/
inductive Source where
  | spi
  | tunnel
  | canxl (ctrl : Fin 4) (prio : Nat)
  | udp (phy : Fin 2) (addr : Nat) (port : Nat)
  | sequence
  deriving DecidableEq, Repr

/-- A request packet of R35 with MAGIC, LENGTH and CRC right by construction; its opcode is that of its row. When
FLAGS.AUTH is set, the last 16 payload bytes are the tag of R38. -/
structure Packet where
  src : Source
  version : Byte
  flags : Byte
  seq : BitVec 16
  session : BitVec 16
  page : Byte
  inst : BitVec 16
  scope : Byte
  payload : List Byte
  deriving DecidableEq, Repr

/-- How a host write of one parameter reaches the block: the header of a WRITE packet (`tag` is its authentication
tag, empty when FLAGS.AUTH is clear), or a legacy frame (R70). -/
inductive Via where
  | packet (src : Source) (version flags : Byte) (seq session : BitVec 16) (tag : List Byte)
  | legacy
  deriving DecidableEq, Repr

/-- What a chip-select frame carried on MOSI (R44 steps 1 and 3, R68): bytes that do not begin with MAGIC, a packet
cut short by chip-select, or a complete request (which its own command executes). -/
inductive MosiKind where
  | noMagic
  | truncated
  | complete
  deriving DecidableEq, Repr

/-- A duplicated delay register of R112: the dead-time register of an interlock set, the tap codes of a block, the
blanking timer of a comparator cell. -/
inductive DelayReg where
  | deadTime (i : Fin 48)
  | tapCodes (b : Fin 9)
  | blanking (c : Fin 72)
  deriving DecidableEq, Repr

/-- What the sub-tests of R133 measure at one position, in codes at the gain-stage output: the level above which OUT_HI
and the level below which OUT_LO reads 1 with the thresholds under test, the same level of OUT_HI with the threshold at 64 and at 960
and at the gains ×1, ×4 and ×16, what OUT_HI reads with the inputs swapped at the two levels of the first sub-test, the levels at which
IN_TRIP rises and falls in the sweep, the response in ps, how far the ramp lowers the threshold within 1 µs in 1/256 code, and whether
a trip gate, filter or latch sees the known level. -/
structure CellTest where
  hiAt : Nat
  loAt : Nat
  span : Nat × Nat
  gains : Nat × Nat × Nat
  swapped : Bool × Bool
  rise : Nat
  fall : Nat
  response : Nat
  ramp : Nat
  seen : Bool
  deriving DecidableEq, Repr

/-- What the steps of R155 measure at one driver pair: the gate readback of slots H and L, the voltage in mV above which
the shunt comparator trips and below which the bootstrap comparator reads 0, and what both read once their inputs are restored. -/
structure PairTest where
  gateH : Bool
  gateL : Bool
  shuntAt : Nat
  bootAt : Nat
  shuntIdle : Bool
  bootIdle : Bool
  deriving DecidableEq, Repr

/-- What a commanded self-test measured: its test ID, for a comparator bank the nine positions, the spare last (R137), for a
driver group the 24 pairs (R155). -/
structure TestResult where
  test : Nat
  cells : List CellTest
  pairs : List PairTest
  deriving DecidableEq, Repr

/-- What a rotation slot measures (R132, R133): at the spare and at the relieved position. -/
structure SlotResult where
  spare : CellTest
  pos : CellTest
  deriving DecidableEq, Repr

/-- A CAN frame (R443): identifier with IDE (bit 29) and RTR (bit 30), TYPE 0 Classical, 1 FD, 2 XL, the flag bits
BRS, ESI, SEC of R443 (bits 0, 1 and 4), SDU type, virtual network ID, acceptance field, data. -/
structure CanFrame where
  id : Nat
  typ : Nat
  flags : Nat := 0
  sdt : Nat := 0
  vcid : Nat := 0
  af : Nat := 0
  data : List Byte
  deriving DecidableEq, Repr

/-- What a received Ethernet frame is (R456, R457): an ARP request for an address, an ARP reply, an ICMP echo request,
a UDP datagram (destination address, source and destination port), or a kind that is never answered. -/
inductive EthKind where
  | arpRequest (target : Nat)
  | arpReply
  | echo (dst : Nat) (data : List Byte)
  | udp (dst sport dport : Nat) (data : List Byte)
  | fragment
  | other
  deriving DecidableEq, Repr

/-- A received Ethernet frame: source and destination MAC address, source IPv4 address, content. -/
structure EthFrame where
  srcMac : Nat
  dstMac : Nat
  srcIp : Nat
  kind : EthKind
  deriving DecidableEq, Repr


/-- SA8's duplicate of a conversion under check (R168, R178): none is taken (the conversion began before the slot, or
SA8 runs table 0x58), the crossbar abandoned it, or it gave a code. -/
inductive Duplicate where
  | absent
  | abandoned
  | code (c : Nat)
  deriving DecidableEq, Repr

/-- What a conversion meets (R162, R168, R178): the voltages at the positive and negative input and the reference
voltage in µV, whether the crossbar delayed the acquisition, SA8's duplicate where SA8 checks this converter, and the
codes SA8 then reads from the entries of table 0x58 after a mismatch. -/
structure Conversion where
  vp : Int
  vn : Int
  vref : Nat
  delayed : Bool := false
  dup : Duplicate := .absent
  check : List Nat := []
  deriving DecidableEq, Repr



/-- What a write that arms a position compare unit covers (R273): PCMP_TGT, PCMP_CFG, or both words. -/
inductive PcmpWrite where
  | target (w : Word)
  | config (w : Word)
  | both (target config : Word)
  deriving DecidableEq, Repr

/-- One word of a serial encoder as the unit received it (R265, R266): whether the data line was high at step 1 and
low at step 6, and the bits, first bit first. -/
structure SsiWord where
  idle : Bool := true
  running : Bool := true
  bits : List Bool
  deriving DecidableEq, Repr



/-- The checks of a chopper conduction (R245). -/
inductive ChopCheck where
  | presence
  | continuity
  | short
  | offState
  deriving DecidableEq, Repr



/-- The leg a safe message travels on (R392): the CAN controller of SAF.MSG_CFG, or a datagram on a PHY from an IPv4
address and port. -/
inductive MsgLeg where
  | can
  | eth (phy : Fin 2) (addr port : Nat)
  deriving DecidableEq, Repr


/-- What the scrub finds on one page (R429, R432): the logical page, bit errors left after the inner code, words the
inner code corrected, and whether the other page of the record decodes. -/
structure PageFind where
  page : Nat
  outer : Nat
  inner : Nat := 0
  mirrorOk : Bool := false
  deriving DecidableEq, Repr


/-- What a boot meets (R462 to R464, R488): the levels of RESET_N and of HOSTMODE, whether the reference clock was counted in
order and every TEST ball is low, SRAM rows that fail the read-back of the wipe, whether every
mirrored record is readable, whether CD0 passes its lockstep test, whether the metrology image verifies. -/
structure BootIn where
  hostmode : Bool
  resetN : Bool := true
  refOk : Bool := true
  testLow : Bool := true
  sramFails : List Nat := []
  recordsOk : Bool := true
  cd0Ok : Bool := true
  mtrOk : Bool := true
  deriving DecidableEq, Repr

/-- The commands of the block: one constructor per row of spec/opcode_table.json, in its order. -/
inductive Instr where
  /-- NOP (R46). Host request that does nothing and is answered with a status block. -/
  | nop (p : Packet)
  /-- IDENTIFY (R46). Host request that returns part name, revisions, digests, unique ID, life-cycle state and host mode. -/
  | identify (p : Packet)
  /-- GET_STATUS (R46). Host request that returns device, life-cycle and group states, lasting-source count and queued events. -/
  | getStatus (p : Packet)
  /-- READ (R52). Host request that reads 1-1,024 parameter words after range and protection checks over the whole range. -/
  | read (p : Packet)
  /-- WRITE (R52). Host request that writes parameter words in ascending order after whole-range checks; any register without a row of its own is written through it. -/
  | write (p : Packet)
  /-- MODIFY (R52). Host request that applies MASK and VALUE to one parameter word and returns the previous word. -/
  | modify (p : Packet)
  /-- ENABLE (R58). Host request that runs the consistency check and force-line test, applies the off pattern and makes a group ARMED. -/
  | enable (p : Packet)
  /-- DISABLE (R80). Host request that turns a group's channels off, clears HELD, stops its loop owner and makes the group CONFIGURED. -/
  | disable (p : Packet)
  /-- COMMIT (R101). Host request that sends a COMMIT token for a host-owned group, moving its shadows to the reload stage. -/
  | commit (p : Packet)
  /-- TABLE_LOAD (R54). Host request that loads table entries, possibly segmented, applied whole with the final segment. -/
  | tableLoad (p : Packet)
  /-- TABLE_VERIFY (R46). Host request that returns the CRC-32C and entry count of a table. -/
  | tableVerify (p : Packet)
  /-- TABLE_SWAP (R226). Host request that makes a current-reference map bank active for its field engine. -/
  | tableSwap (p : Packet)
  /-- SETPOINT (R66). Fast-path host request that delivers up to 32 set-points to the shadow stages of their targets within 20 us. -/
  | setpoint (p : Packet)
  /-- SELFTEST (R137). Host request that starts a commanded comparator-bank or driver-pair self-test and replies ACCEPTED. -/
  | selftest (p : Packet)
  /-- SELFTEST_COMPLETION (R155). End of a commanded self-test: pass and fail masks are reported, failed positions are marked and CMD_TESTED is set. -/
  | selftestCompletion (r : TestResult)
  /-- LOG_READ (R53). Host request that reads entries of the fault, violation or change log. -/
  | logRead (p : Packet)
  /-- LOG_CLEAR (R53). Host request that empties the fault or violation log; for the change log it is refused. -/
  | logClear (p : Packet)
  /-- SESSION_OPEN (R60). Two-phase host request that issues a salt and nonce, checks the password proof and opens an authenticated session. -/
  | sessionOpen (p : Packet)
  /-- SESSION_PENDING_EXPIRY (R60). A phase-0 SESSION_ID with no phase 1 within 5 s stops being pending. -/
  | sessionPendingExpiry (id : Nat)
  /-- SESSION_IDLE_TIMEOUT (R59). A session with no packet for IDLE_TIMEOUT seconds closes. -/
  | sessionIdleTimeout (id : Nat)
  /-- SESSION_LOCK_END (R61). The 10-minute lockout ends, the SESSION event reports it and PASSWORD_FAIL clears its lasting bit. -/
  | sessionLockEnd
  /-- SESSION_CLOSE (R46). Host request that closes its own session. -/
  | sessionClose (p : Packet)
  /-- PASSWORD_CHANGE (R62). Authenticated host request that unmasks a new password, stores a fresh salt and hash, and logs the change. -/
  | passwordChange (p : Packet)
  /-- SEGMENT_TIMEOUT (R55). A segmented transfer with no segment for 100 ms is discarded and SEG_ABANDONED counts one. -/
  | segmentTimeout (id : Nat)
  /-- SPARE_SUBSTITUTE (R84). Host request that substitutes or releases a spare channel or SAR converter, at once or by hand-over. -/
  | spareSubstitute (p : Packet)
  /-- SPARE_STATUS (R46). Host request that returns one status record per spare. -/
  | spareStatus (p : Packet)
  /-- SEQUENCE_STORE (R63). Host request that stores a checked packet sequence with the storing authority in table 0x70. -/
  | sequenceStore (p : Packet)
  /-- SEQUENCE_RUN (R64). Host request that executes a stored sequence step by step and stops at the first step that does not end OK. -/
  | sequenceRun (p : Packet)
  /-- MEM_SCRUB (R435). Host request that starts a background MRAM scrub over a page range. -/
  | memScrub (p : Packet)
  /-- SCRUB_COMPLETE (R435). A scrub ends and COMPLETION carries its summary. -/
  | scrubComplete (finds : List PageFind)
  /-- MEM_RETIRE (R436). Host request that moves a logical MRAM page to a spare page and updates the retirement map. -/
  | memRetire (p : Packet)
  /-- CHORD_SPLIT (R419). Host request that hands a management Chord's work to the other Chord and runs its cores independently. -/
  | chordSplit (p : Packet)
  /-- CHORD_JOIN (R421). Host request that ends bulk work, lockstep-tests a split Chord and gives it its workload back. -/
  | chordJoin (p : Packet)
  /-- JOIN_GRACE_EXPIRY (R421). A bulk task still running 100 ms after a join request is abandoned with CHD_TASK_ABANDONED. -/
  | joinGraceExpiry (n : Fin 3)
  /-- LIFECYCLE_ADVANCE (R468). Host request that checks a life-cycle transition, wipes regions, commits the new state and completes. -/
  | lifecycleAdvance (p : Packet) (svcLow : Bool)
  /-- LIFECYCLE_RESET (R469). The device resets 1 ms after the COMPLETION of a life-cycle transition. -/
  | lifecycleReset
  /-- FW_UPDATE_BEGIN (R471). Host request that checks an image header and marks the target slot INCOMPLETE. -/
  | fwUpdateBegin (p : Packet)
  /-- FW_UPDATE_CHUNK (R471). Segmented host request that writes image data into the open slot. -/
  | fwUpdateChunk (p : Packet)
  /-- FW_UPDATE_END (R471). Host request that carries the signature and starts verification of the slot. -/
  | fwUpdateEnd (p : Packet)
  /-- FW_VERIFY_COMPLETE (R473). Digest and signature checks end and the slot becomes PENDING or FAILED. -/
  | fwVerifyComplete (k : Fin 2)
  /-- LIVE_UPDATE (R474). Management Chords are updated one after the other at their checkpoints and the slot becomes active. -/
  | liveUpdate
  /-- FW_UPDATE_TIMEOUT (R472). An open update with no packet for 10 s is abandoned and its slot stays INCOMPLETE. -/
  | fwUpdateTimeout (k : Fin 2)
  /-- METER_READ (R339). Host request that returns energy registers, the public key, the identity or a snapshot record. -/
  | meterRead (p : Packet)
  /-- METER_RECORD_READ (R338). Host request that returns held signed metering records from FIRST onward. -/
  | meterRecordRead (p : Packet)
  /-- METER_SEAL (R329). Authenticated request that writes the calibration table, increments SEAL_COUNT and writes a SEAL record. -/
  | meterSeal (p : Packet)
  /-- RESET (R27). Host request that resets one island or the whole device. -/
  | reset (p : Packet)
  /-- LEGACY_FRAME (R70). A 72-bit legacy register-word frame is executed as a read or write and returns the previous frame's result. -/
  | legacyFrame (frame : BitVec 72)
  /-- TUNNEL_GO (R71). Writing GO submits the packet held in TUNNEL_TX as if it had come on SPI in packet mode. -/
  | tunnelGo (len : BitVec 13)
  /-- TUNNEL_RX_ACK (R71). Writing RX_ACK releases TUNNEL_RX, and the next waiting packet is placed within 10 us. -/
  | tunnelRxAck
  /-- CLK_MON_DEVIATION (R15). An island clock deviates beyond 5 % in a monitor window or loses lock alone, and the island becomes absent. -/
  | clkMonDeviation (n : Fin 16) (pll : Bool)
  /-- REFERENCE_LOSS (R15). All PLLs lose lock at once, every group is forced and the device enters SAFE. -/
  | referenceLoss
  /-- ISLAND_PRESENT (R29). An island finishes initialisation after lock and a good monitor window, reports PRESENT and accepts traffic. -/
  | islandPresent (n : Fin 16) (regsOk : Bool)
  /-- DIE_LINK_LOST (R31). No valid inter-die frame for 1 us makes the output cells apply every group's safe pattern. -/
  | dieLinkLost
  /-- BROWNOUT (R461). A supply below its falling threshold for 2 us resets the device. -/
  | brownout (m : Fin 4)
  /-- RESET_N_LOW (R462). A low level of at least 1 us on RESET_N resets the device. -/
  | resetNLow
  /-- RESET_RELEASE (R462). Once supplies, RESET_N, reference clock and TEST balls allow it, HOSTMODE is sampled and the boot starts. -/
  | resetRelease (b : BootIn)
  /-- STANDBY_REACHED (R463). After the boot waits end, the device enters STANDBY, opens the host link and starts its self-checks. -/
  | standbyReached
  /-- BOOT_FALLBACK (R475). A boot slot that fails or does not reach STANDBY in 100 ms is marked FAILED and the device resets onto the other slot. -/
  | bootFallback
  /-- KEY_GENERATED (R340). At its first start in INTEGRATION the metrology island generates its key pair and writes a record. -/
  | keyGenerated
  /-- SERVICE_ENTER (R467). LCY.CMD command that moves the device from STANDBY to SERVICE. -/
  | serviceEnter (v : Via)
  /-- SERVICE_EXIT (R467). LCY.CMD command that returns the device from SERVICE to STANDBY. -/
  | serviceExit (v : Via)
  /-- DEVICE_STATE_EVALUATION (R466). On each management tick the device state is re-evaluated and changes are announced. -/
  | deviceStateEvaluation
  /-- THERMAL_DERATING (R477). On each tick the case temperature is estimated and the derating step is entered or left. -/
  | thermalDerating (tCase : Int) (hot : Bool)
  /-- TB_START (R89). A write of PLS.TB_START starts the selected timebases in one pulse clock. -/
  | tbStart (v : Via) (mask : BitVec 16)
  /-- TB_STOP (R89). Clearing PLS.TB_CFG.RUN stops a timebase at counter 0. -/
  | tbStop (v : Via) (t : Fin 16)
  /-- RESTART_CUT (R90). A RESTART follower is forced to 0 after the master reaches OFFSET, cutting its period short. -/
  | restartCut (t : Fin 16) (pos : Nat)
  /-- EDGE_COMPARE (R92). A channel's RISE or FALL compare matches the counter and its edge passes the interlock and reaches the ball. -/
  | edgeCompare (t : Fin 16) (pos : Nat)
  /-- RELOAD (R102). At the reload strobe the reload stage becomes active, groups commit into RUNNING and calibration codes take effect. -/
  | reload (t : Fin 16)
  /-- COMMIT_DEADLINE (R107). The commit deadline of a window is reached for a loop-owned group. -/
  | commitDeadline (t : Fin 16)
  /-- TRIGGER_COMPARE (R108). A trigger compare fires and its trigger crosses to the measurement island. -/
  | triggerCompare (t : Fin 16) (j : Fin 4)
  /-- DELAY_CALIBRATION (R96). Every 100 us the replica delay line is measured and a new tap-code set is formed when valid. -/
  | delayCalibration (b : Fin 9) (e : Nat)
  /-- DELAY_REG_MISMATCH (R112). Copies of a duplicated delay register disagree and each owning group takes its safe pattern. -/
  | delayRegMismatch (r : DelayReg)
  /-- SCB_MISMATCH (R147). Copies of SC_BLANK disagree and each owning group takes its safe pattern. -/
  | scbMismatch (p : Fin 24)
  /-- CELL_TRIP (R122). A TANGENT cell enters trip state and sets the trip gates and latches of its target groups. -/
  | cellTrip (c : Fin 72) (vp vn : Int)
  /-- FILTERED_TRIP (R123). L consecutive samples in trip state set the trip latch of the targets. -/
  | filteredTrip (c : Fin 72) (n : Nat)
  /-- CBC_EARLY_END (R124). A CBC cell in trip state ends its target channel's pulse and may advance the partner's on-edge. -/
  | cbcEarlyEnd (c : Fin 72) (at_ : Nat)
  /-- BLANK_WINDOW_END (R121). A blanking window closes and a cell still in trip state acts at once. -/
  | blankWindowEnd (c : Fin 72)
  /-- THRESHOLD_WRITE (R120). A write of TRP.THR sets new threshold codes in the serving position within 1 us. -/
  | thresholdWrite (v : Via) (c : Fin 72) (w : Word)
  /-- TRIP_LATCH_CLEAR (R130). Writing 1 to TRP.GRP_TRIP.LATCH clears the latch unless a trip source is still present. -/
  | tripLatchClear (v : Via) (g : Fin 32)
  /-- ROTATION_SLOT (R132). A rotation slot relieves one comparator position with the spare, tests it and returns it. -/
  | rotationSlot (b : Fin 8) (r : SlotResult)
  /-- CMP_MIRROR (R135). Trip states of cell and spare disagree for more than 200 ns and the spare is tested at once. -/
  | cmpMirror (b : Fin 8) (spare : CellTest)
  /-- BOOTSTRAP_REFRESH (R142). The starved-period count reaches REFRESH_INT and a refresh pulse is inserted in the next period. -/
  | bootstrapRefresh (p : Fin 24)
  /-- BST_UV (R144). BST_OK falls, or a slot H on-edge is suppressed, and the cell turns slot H off and recharges through slot L. -/
  | bstUv (p : Fin 24) (ok : Bool)
  /-- DRV_SHORT (R145). The low-side shunt comparator trips and sets the group's trip latch. -/
  | drvShort (p : Fin 24) (mv at_ : Nat)
  /-- EXT_DRV_FAULT (R150). A filtered low on FLTk sets the group's trip latch. -/
  | extDrvFault (k : Fin 48)
  /-- FLT_RELEASE (R150). FLTk high passes its filter and ACTIVE falls. -/
  | fltRelease (k : Fin 48)
  /-- DRV_NOT_READY (R152). A ready input deasserted for 1 us trips its ARMED or RUNNING group. -/
  | drvNotReady (r : Fin 8) (asserted : Bool)
  /-- VDRV_UV (R153). VDRV falls below 10.3 V, drivers sink and groups with driver channels trip. -/
  | vdrvUv
  /-- VDRV_RECOVER (R153). VDRV rises above 10.6 V and VDRV_OK returns to 1. -/
  | vdrvRecover
  /-- ILK_DIAG_FAIL (R149). The two interlock evaluators of a set disagree and the set enters fused dead-time fall-back. -/
  | ilkDiagFail (i : Fin 48)
  /-- SAR_TRIGGER (R165). A trigger reaches a logical converter and starts a run, or is dropped when the converter is busy. -/
  | sarTrigger (s : Fin 8) (m : Fin 8)
  /-- CONVERSION_RESULT (R172). A conversion ends, its result is tagged, written to its slot, window-compared and sent to its consumers. -/
  | conversionResult (s : Fin 8) (x : Conversion)
  /-- SAR_CHECK_SLOT (R178). SA8 starts a 10 ms self-check slot on the next converter. -/
  | sarCheckSlot (codes : List Nat)
  /-- REF_SETTLED (R170). A reference stays in its window for its settling time and SETTLED is set. -/
  | refSettled (r : Fin 3)
  /-- MEA_REF_FAULT (R171). A settled reference leaves its window, SETTLED clears and results carry REF_BAD. -/
  | meaRefFault (r : Fin 3)
  /-- MEA_WINDOW (R177). At each tick one event is sent for each slot that left its window. -/
  | meaWindow
  /-- SUBWINDOW_END (R186). A precision sub-window ends and its sums cross to the metrology island as one transfer. -/
  | subwindowEnd (sums : List Int)
  /-- MAINS_CROSSING (R184). A positive mains crossing is detected, the period is measured and lock is gained or lost. -/
  | mainsCrossing (low before after : Int) (n : Nat)
  /-- MAINS_TIMEOUT (R184). 40 ms without a crossing clears LOCKED. -/
  | mainsTimeout
  /-- RATE_GROUP_EVALUATION (R190). The first START_SLOT result of a window starts evaluation of a rate group's cells, templates and posting. -/
  | rateGroupEvaluation (n : Fin 8) (wait : Nat)
  /-- COMMIT_STROBE (R204). The commit strobe of a HOLD rate group crosses into the Lattice and its COMMIT token is sent. -/
  | commitStrobe (n : Fin 8)
  /-- LAT_REEVALUATION (R205). A new target after posting in HOLD mode causes re-evaluation and a new burst. -/
  | latReevaluation (n : Fin 8) (abandoned : Bool)
  /-- LAT_TARGET_WRITE (R201). A write of LAT.TARGET retargets the cell's ramp from its present value. -/
  | latTargetWrite (v : Via) (c : Fin 192) (w : Word)
  /-- FIELD_EVALUATION (R211). A field engine evaluates its machine from the window's currents and posts 48 edge words and a COMMIT. -/
  | fieldEvaluation (m : Fin 2) (ecc : Bool)
  /-- TQ_REQ_WRITE (R220). A write of FLD.TQ_REQ retargets the torque ramp. -/
  | tqReqWrite (v : Via) (m : Fin 2) (w : Word)
  /-- THERMAL_FACTOR_UPDATE (R221). On each tick K_TH is computed from the temperature slots. -/
  | thermalFactorUpdate
  /-- DCL_EVALUATION (R242). A link-voltage result reaches the supervisor, which sets chopper demand, regeneration clamp and L2 trips. -/
  | dclEvaluation
  /-- DCL_SENSE_LOST (R242). No usable link result within TIMEOUT clears SENSE_OK. -/
  | dclSenseLost
  /-- CHOPPER_CHECK (R245). A chopper conduction is judged against presence, continuity, short and off-state checks. -/
  | chopperCheck (x : ChopCheck)
  /-- CHOP_FAULTY_CLEAR (R246). Writing 1 to CHOP_FAULTY clears it while the chopper group is not active. -/
  | chopFaultyClear (v : Via)
  /-- CONT_OPEN (R252). A host write of CONT_OPEN trips the charging groups and flags LINK_OPEN. -/
  | contOpen (v : Via)
  /-- POSITION_LATCH (R260). A latch trigger latches position, speed and state and sends them to the field engines. -/
  | positionLatch (k : Fin 6) (b : Bool) (t : Nat)
  /-- RESOLVER_UPDATE (R263). The cos result arrives and the resolver tracking loop updates angle and speed. -/
  | resolverUpdate (j : Fin 2) (t c : Nat)
  /-- RES_EXC (R262). An excitation overcurrent or following error is an occurrence that can stop the excitation. -/
  | resExc (j : Fin 2)
  /-- SSI_WORD (R266). An SSI word completes and is accepted or discarded. -/
  | ssiWord (k : Fin 6) (x : SsiWord)
  /-- QUAD_TRANSITION (R267). A filtered A/B change steps POS or is flagged illegal. -/
  | quadTransition (k : Fin 6) (a b : Bool) (n t : Nat)
  /-- QUAD_INDEX (R268). A qualified index edge sets or checks POS. -/
  | quadIndex (k : Fin 6) (n t : Nat)
  /-- HALL_CHANGE (R269). A Hall state change sets POS to a boundary or is flagged illegal. -/
  | hallChange (k : Fin 6) (h : Fin 8) (n t : Nat)
  /-- ZERO_SPEED_TIMEOUT (R271). ZERO_TIME passes without a reference edge and the speed becomes 0. -/
  | zeroSpeedTimeout (k : Fin 6) (t : Nat)
  /-- PCMP_ARM (R273). A write of PCMP_TGT or PCMP_CFG arms a position compare unit and judges it at arming. -/
  | pcmpArm (v : Via) (k : Fin 6) (u : Fin 8) (x : PcmpWrite)
  /-- PU_FAULT_CLEAR (R259). Writing 1 to PU_STAT.FAULT restarts ACQUIRE. -/
  | puFaultClear (v : Via) (k : Fin 6)
  /-- PT_FAULT_CLEAR (R277). Clearing PT_FAULT restarts quadrature emulation at the present position. -/
  | ptFaultClear (v : Via) (k : Fin 6)
  /-- ACTUATOR_EVALUATION (R287). FE3 evaluates one actuator's outer and current loops and posts its edges. -/
  | actuatorEvaluation (a : Fin 4)
  /-- CPL_EVALUATION (R302). FE3 evaluates the charge-port lock drive once per TB08 window. -/
  | cplEvaluation
  /-- ACT_GO (R292). A GO command starts or retargets a move to TARGET. -/
  | actGo (v : Via) (a : Fin 4) (target : BitVec 24)
  /-- ACT_STOP (R292). A STOP command sets the references to zero and turns every leg off. -/
  | actStop (v : Via) (a : Fin 4)
  /-- ACT_MOVE_TIMEOUT (R293). A move not done within MOVE_TMAX is an occurrence of ACT_MOVE_FAIL. -/
  | actMoveTimeout (a : Fin 4)
  /-- PUMP_CATCH_RESTART (R301). After the wait following a pump lock loss or failed start, a catch begins again. -/
  | pumpCatchRestart
  /-- CPL_LOCK (R302). ACT.CPL_CMD LOCK drives the charge-port lock towards locked. -/
  | cplLock (v : Via)
  /-- CPL_UNLOCK (R303). ACT.CPL_CMD UNLOCK drives the lock towards unlocked unless INHIBIT is set. -/
  | cplUnlock (v : Via)
  /-- CPL_STOP (R303). ACT.CPL_CMD STOP turns all lock channels off and makes the lock IDLE. -/
  | cplStop (v : Via)
  /-- CPL_REVERSE_DELAY (R303). After 20 ms off, a reversed lock command drives the new direction. -/
  | cplReverseDelay
  /-- CPL_SW_CHANGE (R303). CPL_SW reaching the commanded state stops the drive, and an uncommanded change sets UNLOCKED. -/
  | cplSwChange (level : Bool)
  /-- CPL_TIMEOUT (R302). A lock drive still running after TMAX stops with STATE FAULT. -/
  | cplTimeout
  /-- AFE_TRACKING_EVALUATION (R305). FE2 runs its grid PLL once per window while the AFE group is CONFIGURED. -/
  | afeTrackingEvaluation
  /-- AFE_EVALUATION (R305). FE2 runs PLL, bus and current loops and posts the AFE edges. -/
  | afeEvaluation
  /-- PILOT_ACCEPT (R312). A control-pilot state or duty is accepted after 3 agreeing periods. -/
  | pilotAccept (high low : Int) (period duty n : Nat)
  /-- PROXIMITY_ACCEPT (R314). A proximity coding is accepted after 3 agreeing samples. -/
  | proximityAccept (mv n : Nat)
  /-- CHG_BUTTON_PRESS (R316). A press of CHG_BTN starts, stops or unlocks according to the session state. -/
  | chgButtonPress (ms : Nat)
  /-- CHG_START (R317). CHG.CMD START sets START_PEND. -/
  | chgStart (v : Via)
  /-- CHG_STOP (R317). CHG.CMD STOP starts a normal stop or clears START_PEND. -/
  | chgStop (v : Via)
  /-- CHG_UNLOCK (R317). CHG.CMD UNLOCK drives the charge-port lock to UNLOCK. -/
  | chgUnlock (v : Via)
  /-- CONNECTING_STEP (R318). The condition of a CONNECTING step is met or fails and the next step begins. -/
  | connectingStep (va vb vc vfe : Nat)
  /-- CHARGE_LIMIT_UPDATE (R319). On each tick the grid and link limits are computed and written. -/
  | chargeLimitUpdate
  /-- NORMAL_STOP_COMPLETE (R320). Grid current low for 10 ms, or 200 ms passed, disables the charger groups and releases the relays. -/
  | normalStopComplete
  /-- RELAY_RELEASE_CHECK (R320). Phase voltages are checked after RLY_REL_MS for a welded relay. -/
  | relayReleaseCheck (peak : Nat)
  /-- ENERGY_ACCUMULATE (R330). The metrology island accumulates a sub-window and moves energy into registers at cycle boundaries. -/
  | energyAccumulate
  /-- INTERVAL_RECORD (R335). An interval boundary is reached and a signed INTERVAL record is written. -/
  | intervalRecord
  /-- REGISTER_COMMIT (R333). Every second the energy registers are committed to MRAM. -/
  | registerCommit
  /-- RECORD_ACK (R338). A write of MTR.ACK acknowledges records up to an RSEQ. -/
  | recordAck (v : Via) (w : Word)
  /-- TIME_SET (R342). A write of MTR.TIME_HI sets UTC_MS and writes a TIME_SET record. -/
  | timeSet (v : Via) (w : Word)
  /-- THRESHOLD_UPDATE (R347). When a buck commit's reload crosses into the Lattice, the sequencer writes the phase thresholds. -/
  | thresholdUpdate
  /-- HICCUP_END (R353). After OFF_MS the buck cells restart and HICCUP clears. -/
  | hiccupEnd
  /-- VSET_WRITE (R354). A write of CNV.VSET issues a new voltage target and rate to VCELL. -/
  | vsetWrite (v : Via) (w : Word)
  /-- SOURCE_CLASSIFY (R357). On each tick the 48 V source is classified and the input limit is set. -/
  | sourceClassify
  /-- CHARGE_START (R359). LVP.CMD CHARGE_START starts charging in CC. -/
  | chargeStart (v : Via)
  /-- CHARGE_STOP (R359). LVP.CMD CHARGE_STOP returns CSTATE to OFF. -/
  | chargeStop (v : Via)
  /-- BSW_CLOSE (R356). LVP.CMD BSW_CLOSE closes the power-path switch when the voltages match. -/
  | bswClose (v : Via)
  /-- BSW_OPEN (R356). LVP.CMD BSW_OPEN opens the power-path switch. -/
  | bswOpen (v : Via)
  /-- SHIP (R364). LVP.CMD SHIP opens BSW, takes islands DOWN and enters device state SHIP. -/
  | ship (v : Via)
  /-- TIMER_RESET (R362). LVP.CMD TIMER_RESET clears the safety timer in SERVICE. -/
  | timerReset (v : Via)
  /-- CHARGER_REST (R361). Every PULSE_S seconds the charger rests at zero current. -/
  | chargerRest
  /-- REST_END (R361). After REST_MS the OCV decides the next charge state. -/
  | restEnd
  /-- CV_TERMINATION (R361). Battery current below I_TERM for 60 s in CV ends in DONE. -/
  | cvTermination
  /-- LVP_TIMER (R362). The safety timer reaches LIMIT and charging ends with TIMER_EXP set. -/
  | lvpTimer
  /-- SHIP_EXIT (R364). A button held for 1 s in SHIP closes BSW and resets the device. -/
  | shipExit (ms : Nat)
  /-- LONG_PRESS (R365). SVC_BTN held for LONG_S disables the converters and opens BSW, or is ignored. -/
  | longPress (ms : Nat)
  /-- LONG_PRESS_REOPEN (R365). After BSW_OFF_MS the switch closes and the device resets. -/
  | longPressReopen
  /-- INT_STAT_CLEAR (R366). A W1C write to LVP.INT_STAT clears bits and may release PWR_INT. -/
  | intStatClear (v : Via) (w : Word)
  /-- SAFE_INPUT_DEMAND (R385). A safe input low through its filter raises DEMAND and triggers its safety functions. -/
  | safeInputDemand (i : Fin 8) (us : Nat)
  /-- SAFE_INPUT_RELEASE (R382). A safe input returns high, and functions may be released or acknowledged. -/
  | safeInputRelease (i : Fin 8)
  /-- TEST_PULSE (R387). A sensor supply is pulsed off and its inputs are judged for wiring faults. -/
  | testPulse (k : Fin 4) (low short : BitVec 8) (t : Nat)
  /-- SAF_IN_DISC (R386). A pair's levels disagree for longer than DISC. -/
  | safInDisc (i : Fin 8) (ms : Nat)
  /-- SAF_SSUP_OC (R389). A sensor supply over 75 mA for 10 us is switched off. -/
  | safSsupOc (k : Fin 4)
  /-- SSUP_OC_CLEAR (R389). Writing 1 to OC switches the supply on again. -/
  | ssupOcClear (v : Via) (k : Fin 4)
  /-- SIN_FAULT_CLEAR (R388). Writing 1 to a safe input's FAULT restarts its checking. -/
  | sinFaultClear (v : Via) (i : Fin 8)
  /-- HEARTBEAT_LOST (R372). No heartbeat toggle for 5 us makes the output cells apply every safe pattern. -/
  | heartbeatLost
  /-- LOGIC_MISMATCH (R371). A complement mismatch of the safety-island logic is an occurrence of SAF_DIAG. -/
  | logicMismatch
  /-- SAFE_MESSAGE_COPY (R393). A safe message copy is checked and paired with the other leg for acceptance. -/
  | safeMessageCopy (leg : MsgLeg) (bytes : List Byte)
  /-- SKEW_EXPIRY (R394). A copy's partner not arriving within SKEW is discarded as a leg error. -/
  | skewExpiry (leg : Fin 2)
  /-- STATUS_MESSAGE_SEND (R392). Every 10 ms the device sends its safe status message on both legs. -/
  | statusMessageSend
  /-- SAF_MSG_TIMEOUT (R396). No accepted message within TIMEOUT triggers the loss function. -/
  | safMsgTimeout
  /-- HOST_REQ (R375). A write of SAF.HOST_REQ sets or withdraws the host triggers of STO, SS1 and SCS. -/
  | hostReq (v : Via) (w : Word)
  /-- SS1_TIMEOUT (R377). SS1_TMAX passes during an SS1 ramp and STO is applied. -/
  | ss1Timeout (g : Fin 32)
  /-- SAFE_PARK_RETRY (R380). Every 10 ms CD0 issues the park engage until it is accepted. -/
  | safeParkRetry
  /-- SAF_PARK_FAIL (R380). PARK_TMAX passes without park ENGAGED. -/
  | safParkFail
  /-- LASTING_CLEAR (R410). Writing 1 to a FLG.LASTING bit clears it and empties its history. -/
  | lastingClear (v : Via) (src : BitVec 8) (w : Word)
  /-- CHD_LOCKSTEP (R415). A lockstep disagreement halts a Chord pair and counts an occurrence. -/
  | chdLockstep (n : Fin 3) (test : Bool)
  /-- CHORD_RESTART (R417). A halted Chord reloads its checkpoint, replays its journal and runs again. -/
  | chordRestart (n : Fin 3) (ok : Bool) (t : Nat) (test : Bool)
  /-- CHECKPOINT (R416). A Chord pair takes a checkpoint and releases its held outputs. -/
  | checkpoint (n : Fin 3) (test : Bool)
  /-- SRAM_PATROL (R424). The patrol scrubber reads and corrects every SRAM word once per second. -/
  | sramPatrol (finds : List (Nat × Bool))
  /-- MERGE_WRITEBACK (R434). A merge-buffer slot is written back to MRAM on its timer. -/
  | mergeWriteback
  /-- CAN_FRAME_RECEIVED (R443). A received CAN frame is logged with its data, or dropped. -/
  | canFrameReceived (n : Fin 4) (f : CanFrame) (sof : Nat)
  /-- CAN_FRAME_TRANSMITTED (R448). The head frame of a transmit queue is sent and logged. -/
  | canFrameTransmitted (n : Fin 4) (sof : Nat)
  /-- BUS_STATE (R449). A controller changes error state and the change is reported. -/
  | busState (n : Fin 4) (passive : Bool) (tec rec : BitVec 8)
  /-- BUS_OFF (R450). TEC passes 255, the controller goes bus-off and its queue freezes. -/
  | busOff (n : Fin 4) (rec : BitVec 8)
  /-- BUS_OFF_RECOVERY (R450). 128 recessive sequences are counted and the controller returns to error-active. -/
  | busOffRecovery (n : Fin 4)
  /-- RECOVER (R450). Writing RECOVER starts bus-off recovery and clears REC_HELD. -/
  | recover (v : Via) (n : Fin 4)
  /-- RX_SELECT (R446). A write of BUS.RX_SEL refills the receive window in SELECT mode. -/
  | rxSelect (v : Via) (n : Fin 4) (w : Word)
  /-- CONTROLLER_ENABLE (R442). Setting or clearing BUS.CTRL.EN checks and enables or disables a controller. -/
  | controllerEnable (v : Via) (n : Fin 4) (w : Word)
  /-- NETWORK_TIME_SET (R452). A write of BUS.TIME_HI sets the network time. -/
  | networkTimeSet (v : Via) (w : Word)
  /-- REFERENCE_MESSAGE_SEND (R453). As master, a reference message is enqueued every PERIOD. -/
  | referenceMessageSend
  /-- REFERENCE_MESSAGE (R454). As follower, CD2 takes a reference message and steps or slews the network time. -/
  | referenceMessage (seq : Byte) (valid : Bool) (prev : BitVec 48) (time : Nat)
  /-- BUS_TIME_LOSS (R454). 3 periods without a usable reference clear SYNCED. -/
  | busTimeLoss
  /-- ETHERNET_FRAME (R456). A received Ethernet frame is answered, passed on or discarded. -/
  | ethernetFrame (p : Fin 2) (f : EthFrame)
  /-- NET_LINK (R455). An interface link goes up or down. -/
  | netLink (p : Fin 2) (up : Bool)
  /-- NET_PLCA (R455). The PLCA status falls and the PHY falls back to CSMA/CD. -/
  | netPlca (ok : Bool)
  /-- ARP_AGE (R456). An ARP entry older than 60 s is aged out. -/
  | arpAge (p : Fin 2) (ip : Nat)
  /-- ARP_RETRY (R457). While the event destination is unresolved, an ARP request is sent every second. -/
  | arpRetry
  /-- INTERFACE_ENABLE (R458). Setting NET.IF_CFG.EN checks and enables an Ethernet interface. -/
  | interfaceEnable (v : Via) (p : Fin 2) (w : Word)
  /-- CHIP_SELECT_FRAME (R68). A host SPI chip-select frame ends: the outbound packet clocked out completely leaves the queue, ATTN is released when the queue is empty, and a frame ended early or without MAGIC is discarded and counted before SPI resynchronises. -/
  | chipSelectFrame (mosi : MosiKind) (clocked : Nat)
  /-- UNKNOWN_OPCODE (R44). A received packet that fails an early check of R44 or carries an opcode outside the opcode table is discarded or refused, counted and, where required, entered in the violation log. -/
  | unknownOpcode (src : Source) (bytes : List Byte)
  /-- POWER_ON (R460). The supplies rise or return after a loss: monitors report OK, balls take their reset states, the power-interface die closes BSW_G, and the 1 ms count towards reset release starts. -/
  | powerOn
  /-- REGION_WIPE_COMPLETE (R469). The region wipes of a life-cycle transition end: the new state is committed or refused with MEM_WIPE_FAIL, the change-log entry is written and COMPLETION is sent. -/
  | regionWipeComplete (fail : Option (Fin 32768))
  /-- SSI_EMU_CLOCK (R276). An edge on POSk_PT1 from the external SSI master freezes the emulated word after idle, or shifts the next data bit onto PT0. -/
  | ssiEmuClock (k : Fin 6) (rising : Bool) (t : Nat)
  /-- QUAD_EMU_COUNT (R277). After EMU_MIN position clocks, the next waiting count of a QUAD_EMU pass-through is emitted on PT0 and PT1. -/
  | quadEmuCount (k : Fin 6) (t : Nat)
  /-- FOLDBACK (R362). The battery-temperature code rises above FOLD_ON or falls below FOLD_OFF, so FOLDBACK is set or cleared, ICELL's target is scaled and the safety timer changes rate. -/
  | foldback
  /-- WELD_INHIBIT_CLEAR (R320). After a welded relay, VA, VB and VC have read below 30 V for 1 s, and INHIBIT of the charge-port lock clears. -/
  | weldInhibitClear
  deriving DecidableEq, Repr

end Sys2Proof
end

