-- ==== Sys2Proof/Machine/Crypto.lean ====
section
/-! DEFINITION. The checks and digests the packets use: CRC-32C (R37), CRC-8 of legacy frames (R70), the CRC of safe
messages (R391), SHA-256, HMAC-SHA-256 and PBKDF2-HMAC-SHA-256 (R38, R60, R62). SHA-256 and what is built on it
are the standard functions of those names (PRESUMED, log entry 2: the spec names them and does not restate them). -/

namespace Sys2Proof.Machine

/-- The bytes of `v`, least significant first, `n` of them (R35: little-endian). -/
def leBytes : Nat → Nat → List Byte
  | 0, _ => []
  | n + 1, v => BitVec.ofNat 8 v :: leBytes n (v / 256)

/-- The number little-endian bytes spell (R35). -/
def ofLe : List Byte → Nat
  | [] => 0
  | b :: bs => b.toNat + 256 * ofLe bs

/-- Bytes `o` to `o + n` of a list as a little-endian number; bytes beyond its end read 0. -/
def leAt (l : List Byte) (o n : Nat) : Nat := ofLe ((List.range n).map fun i => l.getD (o + i) 0)

/-- One shift of a reflected CRC register with reflected polynomial `poly`. -/
def crcShift (poly : Nat) (c : Nat) : Nat := if c % 2 = 1 then (c / 2) ^^^ poly else c / 2

/-- One byte into a reflected CRC register. -/
def crcByte (poly : Nat) (c : Nat) (b : Byte) : Nat :=
  (crcShift poly ∘ crcShift poly ∘ crcShift poly ∘ crcShift poly ∘
    crcShift poly ∘ crcShift poly ∘ crcShift poly ∘ crcShift poly) (c ^^^ b.toNat)

/-- CRC-32C of R37: polynomial 0x1EDC_6F41 reflected, initial value and final XOR 0xFFFF_FFFF. -/
def crc32c (bs : List Byte) : Nat := bs.foldl (crcByte 0x82F63B78) 0xFFFFFFFF ^^^ 0xFFFFFFFF

/-- One shift of an 8-bit CRC register, most significant bit first. -/
def crc8Shift (c : Nat) : Nat := if 128 ≤ c then ((c * 2) % 256) ^^^ 0x1D else c * 2

/-- CRC-8 of R70: polynomial 0x1D, initial value 0xFF, no final XOR, over whole bytes, most significant bit first. -/
def crc8 (bs : List Byte) : Nat :=
  bs.foldl (fun c b => (crc8Shift ∘ crc8Shift ∘ crc8Shift ∘ crc8Shift ∘
    crc8Shift ∘ crc8Shift ∘ crc8Shift ∘ crc8Shift) (c ^^^ b.toNat)) 0xFF

/-! ## SHA-256 -/

/-- The largest `r` below 2^`i` above `r₀` whose `k`-th power is at most `n`, bit by bit from the top. -/
def rootFrom (k n : Nat) : Nat → Nat → Nat
  | 0, r => r
  | i + 1, r => rootFrom k n i (if (r + 2 ^ i) ^ k ≤ n then r + 2 ^ i else r)

/-- The first 32 bits of the fractional part of the `k`-th root of `p`. -/
def rootFraction (k p : Nat) : Word := BitVec.ofNat 32 (rootFrom k (p * 2 ^ (32 * k)) 36 0)

/-- The primes below 312: the first 64. -/
def shaPrimes : List Nat :=
  (List.range 312).filter fun n => decide (2 ≤ n) && (List.range 18).all fun d => decide (d < 2) || decide (n ≤ d) || n % d != 0

/-- The round constants: fractions of the cube roots of the first 64 primes. -/
def shaConstants : List Word := shaPrimes.map (rootFraction 3)

/-- The two chains of SHA-256, each with its last four words, newest first. -/
structure Chains where
  a1 : Word
  a2 : Word
  a3 : Word
  a4 : Word
  e1 : Word
  e2 : Word
  e3 : Word
  e4 : Word
  deriving DecidableEq, Repr

/-- The exclusive-or of three rotations of a word to the right. -/
def turn (i j k : Nat) (x : Word) : Word := x.rotateRight i ^^^ x.rotateRight j ^^^ x.rotateRight k

/-- One round on the sum of its constant and its word: each chain takes one word. -/
def Chains.step (s : Chains) (kw : Word) : Chains :=
  let x := kw + s.e4 + turn 6 11 25 s.e1 + (s.e3 ^^^ (s.e1 &&& (s.e2 ^^^ s.e3)))
  let y := turn 2 13 22 s.a1 + (s.a1 &&& (s.a2 ||| s.a3) ||| s.a2 &&& s.a3)
  ⟨y + x, s.a1, s.a2, s.a3, x + s.a4, s.e1, s.e2, s.e3⟩

/-- The window of sixteen schedule words, oldest first, moves on by one. -/
def slide (w : List Word) : List Word :=
  let y := w.getD 1 0
  let z := w.getD 14 0
  w.tail ++ [w.getD 9 0 + w.getD 0 0 + (y.rotateRight 7 ^^^ y.rotateRight 18 ^^^ y >>> 3) +
    (z.rotateRight 17 ^^^ z.rotateRight 19 ^^^ z >>> 10)]

/-- The rounds of a block: constants, window, chains. -/
def shaRounds : List Word → List Word → Chains → Chains
  | [], _, s => s
  | k :: ks, w, s => shaRounds ks (slide w) (s.step (k + w.headD 0))

/-- Word by word, the sum of two states of the chains. -/
def Chains.add (s t : Chains) : Chains :=
  ⟨s.a1 + t.a1, s.a2 + t.a2, s.a3 + t.a3, s.a4 + t.a4, s.e1 + t.e1, s.e2 + t.e2, s.e3 + t.e3, s.e4 + t.e4⟩

/-- The words of a chain, oldest last. -/
def Chains.words (s : Chains) : List Word := [s.a1, s.a2, s.a3, s.a4, s.e1, s.e2, s.e3, s.e4]

/-- The chains at the start: fractions of the square roots of the first eight primes. -/
def shaStart : Chains :=
  let w (i : Nat) : Word := rootFraction 2 (shaPrimes.getD i 0)
  ⟨w 0, w 1, w 2, w 3, w 4, w 5, w 6, w 7⟩

/-- A 32-bit word of a byte string, most significant byte first. -/
def wordAt (bs : List Byte) (i : Nat) : Word := BitVec.ofNat 32 (ofLe ((bs.drop (4 * i)).take 4).reverse)

/-- The message with its padding: a one bit, zeros to 56 modulo 64 bytes, the number of bits. -/
def shaPadded (bs : List Byte) : List Byte :=
  bs ++ 0x80 :: List.replicate ((119 - bs.length % 64) % 64) 0 ++ (leBytes 8 (8 * bs.length)).reverse

/-- The chains after `n` blocks of 64 bytes. -/
def shaBlocks : Nat → List Byte → Chains → Chains
  | 0, _, s => s
  | n + 1, bs, s => shaBlocks n (bs.drop 64) (s.add (shaRounds shaConstants ((List.range 16).map (wordAt bs)) s))

/-- SHA-256 of a byte string. -/
def sha256 (bs : List Byte) : List Byte :=
  let m := shaPadded bs
  (shaBlocks (m.length / 64) m shaStart).words.flatMap fun w => (leBytes 4 w.toNat).reverse

/-- HMAC-SHA-256 of `msg` under `key` (R38). -/
def hmac (key msg : List Byte) : List Byte :=
  let k0 := if 64 < key.length then sha256 key else key
  let k := k0 ++ List.replicate (64 - k0.length) 0
  sha256 (k.map (· ^^^ 0x5c) ++ sha256 (k.map (· ^^^ 0x36) ++ msg))

/-- Exclusive-or of two byte strings, position by position. -/
def xorBytes (a b : List Byte) : List Byte := (a.zip b).map fun p => p.1 ^^^ p.2

/-- The further rounds of PBKDF2: `u` is the last round's output, `acc` the exclusive-or so far. -/
def pbkdf2Rounds (pw : List Byte) : Nat → List Byte → List Byte → List Byte
  | 0, _, acc => acc
  | n + 1, u, acc => let u' := hmac pw u; pbkdf2Rounds pw n u' (xorBytes acc u')

/-- PBKDF2-HMAC-SHA-256 with a 32-byte result (R60): one block of the derivation. -/
def pbkdf2 (pw salt : List Byte) (iterations : Nat) : List Byte :=
  let u1 := hmac pw (salt ++ [0, 0, 0, 1])
  pbkdf2Rounds pw (iterations - 1) u1 u1

end Sys2Proof.Machine
end

