-- ==== Sys2Proof/Config.lean ====
section
/-! DEFINITION. What one implementation of the part fixes and the spec does not state: values without a body, so that
no proof can see them. Each is named in the assumption log. -/

namespace Sys2Proof.Config

/-- A fresh free value: the `n`-th value the spec leaves open (`n` counts in `Hidden.fresh`), as a natural number. -/
opaque freeNat : Nat → Nat

/-- A fresh free value that is no word: the `n`-th value the spec leaves open, as a rational number. -/
opaque freeRat : Nat → Rat

/-- The random bytes of fresh salts and nonces (R60, R62): byte `i` of the `n`-th draw. -/
opaque freeByte : Nat → Nat → Byte

/-- The salt of an authority whose password was never set (R60, R62), byte `i` of 16. -/
opaque factorySalt : Nat → Nat → Byte

/-- ITERATIONS of the password derivation (R60). -/
opaque iterations : Nat

/-- Silicon revision, management and metrology firmware version of IDENTIFY (R46): words 0, 1 and 2. -/
opaque revision : Nat → Word

/-- The metrology identity digest of IDENTIFY (R46, R341), byte `i`. -/
opaque identityDigest : Nat → Byte

/-- The device unique ID (R46), byte `i`. -/
opaque uniqueId : Nat → Byte

/-- The ECDSA signature (R335, R338): 64 bytes over a message digest under key number `k`, byte `i`. -/
opaque ecdsaSign : Nat → List Byte → Nat → Byte

/-- ECDSA verification of an image header under the fused key of its KIND (R473). -/
opaque ecdsaVerify : Nat → List Byte → List Byte → Bool

/-- The public key of the metrology key pair number `k` (R340), byte `i` of 64. -/
opaque publicKey : Nat → Nat → Byte

/-- Whether the engines round a sine (0), a cosine (1) or an arctangent (2) of these binary32 operands away from zero: R213 names
binary32 and leaves the rounding of these functions open. -/
opaque roundUp : Nat → Word → Word → Bool

/-- The angle of a vector (y, x) that has none: both 0, or infinite. -/
opaque atan2Edge : Word → Word → Word

/-- The target of the input cell in Q1.30 (R358): for the input current limit in 0.1 A (`false`) or the input voltage in
mV (`true`); the spec states no scale of that input. -/
opaque inputTarget : Bool → Nat → Word

/-- The 48 V bus in mV as the code on BUS48_SLOT tells it (R357): the spec states no scale of that input. -/
opaque bus48Mv : Nat → Nat

/-- What a current in 0.1 A (`false`) or a bus code (`true`) comes to where the gain or scale that converts it is 0. -/
opaque noGain : Bool → Nat → Word

end Sys2Proof.Config
end

