-- ==== Sys2Proof/Machine/RegMap.lean ====
section
/-! DEFINITION. The parameters of the spec: the address of every register, the place of every field, and, per
register, its index ranges, reset word and access masks, as the register tables of spec/00 to spec/20 give them
(R7, R8, R52). Made from those tables. -/

namespace Sys2Proof.Machine

/-- A field of one register: the register's 24-bit address and the field's highest and lowest bit. -/
structure FldAt where
  addr : Nat
  hi : Nat
  lo : Nat
  deriving DecidableEq, Repr

/-- The registers of the spec, `PAGE_NAME`. -/
inductive RegName where
  | SYS_STATUS | SYS_BOOT | SYS_ISLAND | SYS_XFER | SYS_LINK | CMD_STATUS
  | CMD_RX_ERR | CMD_STATS | CMD_SP_LAT | CMD_SESSION_CFG | CMD_EVENT_CFG | CMD_SEQ_AUTORUN
  | CMD_CANXL_CFG0 | CMD_CANXL_CFG1 | CMD_UDP_CFG | CMD_VIOLATION | CMD_LEGACY_ERR | CMD_LEGACY_ADDR
  | CMD_TUNNEL_CTL | CMD_TUNNEL_TX | CMD_TUNNEL_RX | MAP_STATUS | MAP_ILK_HITS | MAP_CHMAP
  | MAP_ILK | PLS_STATUS | PLS_COUNT0 | PLS_COUNT1 | PLS_DLY_ERR | PLS_TB_START
  | PLS_TB_CFG | PLS_TB_PERIOD | PLS_TB_SYNC | PLS_TB_COUNT | PLS_TRG_CFG | PLS_TRG_POS
  | PLS_GRP_CFG | PLS_GRP_STAT | PLS_DEADTIME | PLS_CAL | PLS_RISE | PLS_FALL
  | PLS_RISE_ACT | PLS_FALL_ACT | TRP_CELL_STAT | TRP_THR | TRP_GRP_TRIP | TRP_BANK_STAT
  | TRP_CELLCFG | GDR_STATUS | GDR_ILK_FB0 | GDR_ILK_FB1 | GDR_DRV_FAILED | GDR_DRV_CFG
  | GDR_BST_STAT | GDR_SC_STAT | GDR_FLT | GDR_RDY_CFG | MEA_STATUS | MEA_REF
  | MEA_FORMAT | MEA_WIN_CFG | MEA_SPARE | MEA_MAINS_CFG | MEA_MAINS | MEA_WIN_OUT
  | MEA_CONV_STAT | MEA_BIND | MEA_PC_CFG | MEA_PC_SUM | MEA_PC_LEN | MEA_RESULT
  | MEA_WIN | MEA_SEQ | LAT_STATUS | LAT_LOAD | LAT_RG_CFG | LAT_RG_STAT
  | LAT_MS_STAT | LAT_RAMP | LAT_TARGET | LAT_CELL_STAT | LAT_OUT | LAT_RAMPED
  | LAT_TPL_CTL | LAT_TPL_BASE | LAT_TPL_COEF | LAT_DESC | FLD_MAP_STAT | FLD_MCH_CFG
  | FLD_ANGLE | FLD_IN_SLOT0 | FLD_IN_SLOT1 | FLD_I_SCALE | FLD_V_SCALE | FLD_MOTOR0
  | FLD_MOTOR1 | FLD_KP | FLD_KI | FLD_KXY | FLD_MAP_PSI | FLD_FW
  | FLD_MOD | FLD_NP | FLD_RATING | FLD_TQ_LIM | FLD_P_LIM | FLD_DERATE
  | FLD_TQ_REQ | FLD_TQ_SLEW | FLD_THERM | FLD_FAULT_CFG | FLD_POSTFAULT | FLD_ASC_CFG
  | FLD_MCH_STAT | FLD_CNT0 | FLD_CNT1 | FLD_TQ_OUT | FLD_I_DQ_REF | FLD_I_DQ
  | FLD_V_DQ | FLD_PSI_STAT | FLD_NP_STAT | FLD_AFE_CFG | FLD_AFE_SLOT | FLD_AFE_ISLOT
  | FLD_AFE_SCALE | FLD_AFE_GAIN | FLD_AFE_VLOOP | FLD_AFE_LIM | FLD_AFE_WIN | FLD_AFE_STAT
  | FLD_ACT_GAIN | FLD_ACT_MOTOR | DCL_STATUS | DCL_COUNT | DCL_CTRL | DCL_VSRC
  | DCL_LEVELS | DCL_CHOP | DCL_UV | DCL_STOP_MASK | POS_PU_CFG | POS_MODULUS
  | POS_PU_STAT | POS_POSN | POS_SPEED | POS_SSI | POS_QUAD | POS_HALL
  | POS_PT_CFG | POS_PCMP_TGT | POS_PCMP_CFG | POS_PCMP_STAT | POS_RES_CFG | POS_RES_SLOT
  | POS_RES_TRK | POS_RES_LIM | POS_RES_STAT | POS_OBS_CFG | POS_OBS_GAIN | POS_OBS_MOTOR
  | POS_OBS_LIM | POS_OBS_CATCH | POS_OBS_CTRL | POS_OBS_STAT | POS_OBS_SPEED | ACT_STATUS
  | ACT_SPEEDS | ACT_PARK | ACT_PUMP | ACT_PUMP1 | ACT_GEAR | ACT_CFG
  | ACT_SLOTS | ACT_SCALE | ACT_LIMITS | ACT_LOOP | ACT_MOVE | ACT_CMD
  | ACT_STAT | ACT_CPL_CFG | ACT_CPL_CMD | ACT_CPL_STAT | ACT_TRAVEL | CHG_STATUS
  | CHG_PILOT | CHG_PP | CHG_CFG | CHG_CMD | CHG_REQ | CHG_LIMITS
  | CHG_TIMES | CHG_COUNT | MTR_STATUS | MTR_LOST | MTR_CFG | MTR_ACK
  | MTR_LAST | MTR_TIME_LO | MTR_TIME_HI | CNV_BUCK_CFG | CNV_BUCK_PK | CNV_BUCK_CELLS
  | CNV_BUCK_SLOT | CNV_HICCUP | CNV_VSET | CNV_VSCALE | CNV_BUCK_STAT | CNV_TRIMS
  | LVP_STATUS | LVP_CFG | LVP_SLOTS | LVP_SCALE | LVP_CHG | LVP_VLIM
  | LVP_VLIM1 | LVP_PULSE | LVP_TIMER | LVP_FOLD | LVP_TIMER_STAT | LVP_BL
  | LVP_VIN_REG | LVP_BTN | LVP_CMD | LVP_INT_STAT | LVP_INT_EN | LVP_SRC_LIM
  | SAF_STATUS | SAF_CFG_CRC | SAF_CFG_EXPECT | SAF_CHANGE | SAF_HOST_REQ | SAF_DIAG
  | SAF_MSG_CFG | SAF_MSG_CFG1 | SAF_MSG_STAT | SAF_MSG_ERR | SAF_STL | SAF_FUNC_CFG
  | SAF_FUNC_GRP | SAF_FUNC_STAT | SAF_GRP | SAF_SIN | SAF_SSUP | SAF_SLS
  | FLG_STATUS | FLG_STATUS1 | FLG_LASTING | FLG_OCCUR | FLG_ENTRY0 | FLG_ENTRY1
  | CHD_STATUS | CHD_CNT | CHD_CKPT | MEM_STATUS | MEM_SRAM | MEM_MRAM
  | MEM_MRAM1 | MEM_CFG | MEM_WEAR | MEM_WEAR_PAGE | MEM_WEAR_CFG | MEM_REGION
  | MEM_ERR0 | MEM_ERR1 | BUS_TIME_CFG | BUS_TIME_STAT | BUS_TIME_LO | BUS_TIME_HI
  | BUS_CTRL | BUS_NBT | BUS_DBT | BUS_XBT | BUS_STAT | BUS_RX_HEAD
  | BUS_RX_SEL | BUS_RX_STAT | BUS_TX_STAT | BUS_WIN | BUS_WINDATA | NET_EVT_DEST
  | NET_EVT_PORT | NET_IF_CFG | NET_IP | NET_STAT | NET_MAC_HI | NET_MAC_LO
  | NET_PLCA | LCY_STATE | LCY_CMD | LCY_FW_STAT | LCY_FW_VER | LCY_THERM
  | LCY_SUPPLY
  deriving DecidableEq, Repr

/-- One row of the register map: name, address of index 0, stride, first index and end of the first index, stride
and count of the second index, reset word, and the masks of its bits by access code: reserved, RW, RO, W1C, WO,
RWS, RWL (R7). `mirror` marks words whose value is read from a table or a buffer. -/
structure RegSpec where
  name : RegName
  base : Nat
  s1 : Nat
  i0 : Nat
  n1 : Nat
  s2 : Nat
  n2 : Nat
  reset : Word
  res : Word
  rw : Word
  ro : Word
  w1c : Word
  wo : Word
  rws : Word
  rwl : Word
  mirror : Bool
  deriving DecidableEq, Repr

/-- The address of word `i` of an array of registers. There is no word outside the array: such an index names a place of
the page that holds no parameter. -/
def arr (base stride first count i : Nat) : Nat :=
  if first ≤ i ∧ i < count then base + stride * i else base / 65536 * 65536 + 65532

/-- The address of word `j` of entry `i` of an array of registers with several words each. -/
def arr2 (base stride first count step words i j : Nat) : Nat :=
  if first ≤ i ∧ i < count ∧ j < words then base + stride * i + step * j else base / 65536 * 65536 + 65532

def SYS.STATUS : Nat := 0x000000
def SYS.BOOT : Nat := 0x000004
def SYS.ISLAND (n : Nat) : Nat := arr 0x000100 4 0 16 n
def SYS.XFER (n : Nat) : Nat := arr 0x000140 4 0 16 n
def SYS.LINK : Nat := 0x000180
def CMD.STATUS : Nat := 0x010000
def CMD.RX_ERR : Nat := 0x010004
def CMD.STATS : Nat := 0x010008
def CMD.SP_LAT : Nat := 0x01000C
def CMD.SESSION_CFG : Nat := 0x010010
def CMD.EVENT_CFG : Nat := 0x010014
def CMD.SEQ_AUTORUN : Nat := 0x010018
def CMD.CANXL_CFG0 : Nat := 0x010020
def CMD.CANXL_CFG1 : Nat := 0x010024
def CMD.UDP_CFG : Nat := 0x010028
def CMD.VIOLATION : Nat := 0x010030
def CMD.LEGACY_ERR : Nat := 0x010034
def CMD.LEGACY_ADDR : Nat := 0x010038
def CMD.TUNNEL_CTL : Nat := 0x01003C
def CMD.TUNNEL_TX (w : Nat) : Nat := arr 0x011000 4 0 1029 w
def CMD.TUNNEL_RX (w : Nat) : Nat := arr 0x012100 4 0 1029 w
def MAP.STATUS : Nat := 0x020000
def MAP.ILK_HITS (i : Nat) : Nat := arr 0x020100 4 0 48 i
def MAP.CHMAP (c w : Nat) : Nat := arr2 0x021000 8 0 144 4 2 c w
def MAP.ILK (i w : Nat) : Nat := arr2 0x022000 12 0 48 4 3 i w
def PLS.STATUS : Nat := 0x030000
def PLS.COUNT0 : Nat := 0x030004
def PLS.COUNT1 : Nat := 0x030008
def PLS.DLY_ERR : Nat := 0x03000C
def PLS.TB_START : Nat := 0x030010
def PLS.TB_CFG (t : Nat) : Nat := arr 0x030100 4 0 16 t
def PLS.TB_PERIOD (t : Nat) : Nat := arr 0x030140 4 0 16 t
def PLS.TB_SYNC (t : Nat) : Nat := arr 0x030180 4 0 16 t
def PLS.TB_COUNT (t : Nat) : Nat := arr 0x0301C0 4 0 16 t
def PLS.TRG_CFG (t j : Nat) : Nat := arr2 0x030400 16 0 16 4 4 t j
def PLS.TRG_POS (t j : Nat) : Nat := arr2 0x030500 16 0 16 4 4 t j
def PLS.GRP_CFG (g : Nat) : Nat := arr 0x030600 4 0 32 g
def PLS.GRP_STAT (g : Nat) : Nat := arr 0x030680 4 0 32 g
def PLS.DEADTIME (i : Nat) : Nat := arr 0x030700 4 0 48 i
def PLS.CAL (b : Nat) : Nat := arr 0x030800 4 0 9 b
def PLS.RISE (c : Nat) : Nat := arr 0x031000 8 0 144 c
def PLS.FALL (c : Nat) : Nat := arr 0x031004 8 0 144 c
def PLS.RISE_ACT (c : Nat) : Nat := arr 0x031800 8 0 144 c
def PLS.FALL_ACT (c : Nat) : Nat := arr 0x031804 8 0 144 c
def TRP.CELL_STAT (c : Nat) : Nat := arr 0x040100 4 0 72 c
def TRP.THR (c : Nat) : Nat := arr 0x040300 4 0 72 c
def TRP.GRP_TRIP (g : Nat) : Nat := arr 0x040500 4 0 32 g
def TRP.BANK_STAT (b : Nat) : Nat := arr 0x040580 4 0 8 b
def TRP.CELLCFG (c w : Nat) : Nat := arr2 0x041000 20 0 72 4 5 c w
def GDR.STATUS : Nat := 0x050000
def GDR.ILK_FB0 : Nat := 0x050004
def GDR.ILK_FB1 : Nat := 0x050008
def GDR.DRV_FAILED : Nat := 0x05000C
def GDR.DRV_CFG (p : Nat) : Nat := arr 0x050100 4 0 24 p
def GDR.BST_STAT (p : Nat) : Nat := arr 0x050200 4 0 24 p
def GDR.SC_STAT (p : Nat) : Nat := arr 0x050300 4 0 24 p
def GDR.FLT (k : Nat) : Nat := arr 0x050400 4 0 48 k
def GDR.RDY_CFG (r : Nat) : Nat := arr 0x050500 4 0 8 r
def MEA.STATUS : Nat := 0x060000
def MEA.REF : Nat := 0x060004
def MEA.FORMAT : Nat := 0x060008
def MEA.WIN_CFG : Nat := 0x06000C
def MEA.SPARE : Nat := 0x060010
def MEA.MAINS_CFG : Nat := 0x060020
def MEA.MAINS : Nat := 0x060024
def MEA.WIN_OUT (k : Nat) : Nat := arr 0x060040 4 0 8 k
def MEA.CONV_STAT (s : Nat) : Nat := arr 0x060100 4 0 9 s
def MEA.BIND (s m : Nat) : Nat := arr2 0x060200 32 0 8 4 8 s m
def MEA.PC_CFG (k : Nat) : Nat := arr 0x060300 4 0 16 k
def MEA.PC_SUM (k : Nat) : Nat := arr 0x060400 4 0 16 k
def MEA.PC_LEN : Nat := 0x060480
def MEA.RESULT (r : Nat) : Nat := arr 0x061000 4 0 256 r
def MEA.WIN (r : Nat) : Nat := arr 0x061400 4 0 256 r
def MEA.SEQ (x w : Nat) : Nat := arr2 0x062000 256 0 9 4 64 x w
def LAT.STATUS : Nat := 0x070000
def LAT.LOAD : Nat := 0x070004
def LAT.RG_CFG (n : Nat) : Nat := arr 0x070100 4 0 8 n
def LAT.RG_STAT (n : Nat) : Nat := arr 0x070140 4 0 8 n
def LAT.MS_STAT (m : Nat) : Nat := arr 0x070200 4 0 24 m
def LAT.RAMP (c : Nat) : Nat := arr 0x071000 8 0 192 c
def LAT.TARGET (c : Nat) : Nat := arr 0x071004 8 0 192 c
def LAT.CELL_STAT (c : Nat) : Nat := arr 0x071800 4 0 192 c
def LAT.OUT (c : Nat) : Nat := arr 0x071C00 4 0 192 c
def LAT.RAMPED (c : Nat) : Nat := arr 0x072000 4 0 192 c
def LAT.TPL_CTL (e : Nat) : Nat := arr 0x073000 12 0 256 e
def LAT.TPL_BASE (e : Nat) : Nat := arr 0x073004 12 0 256 e
def LAT.TPL_COEF (e : Nat) : Nat := arr 0x073008 12 0 256 e
def LAT.DESC (c w : Nat) : Nat := arr2 0x074000 64 0 192 4 16 c w
def FLD.MAP_STAT : Nat := 0x080000
def FLD.MCH_CFG (m : Nat) : Nat := arr 0x080100 256 0 2 m
def FLD.ANGLE (m : Nat) : Nat := arr 0x080104 256 0 2 m
def FLD.IN_SLOT0 (m : Nat) : Nat := arr 0x080108 256 0 2 m
def FLD.IN_SLOT1 (m : Nat) : Nat := arr 0x08010C 256 0 2 m
def FLD.I_SCALE (m : Nat) : Nat := arr 0x080110 256 0 2 m
def FLD.V_SCALE (m : Nat) : Nat := arr 0x080114 256 0 2 m
def FLD.MOTOR0 (m : Nat) : Nat := arr 0x080118 256 0 2 m
def FLD.MOTOR1 (m : Nat) : Nat := arr 0x08011C 256 0 2 m
def FLD.KP (m : Nat) : Nat := arr 0x080120 256 0 2 m
def FLD.KI (m : Nat) : Nat := arr 0x080124 256 0 2 m
def FLD.KXY (m : Nat) : Nat := arr 0x080128 256 0 2 m
def FLD.MAP_PSI (m : Nat) : Nat := arr 0x080130 256 0 2 m
def FLD.FW (m : Nat) : Nat := arr 0x080134 256 0 2 m
def FLD.MOD (m : Nat) : Nat := arr 0x080138 256 0 2 m
def FLD.NP (m : Nat) : Nat := arr 0x08013C 256 0 2 m
def FLD.RATING (m : Nat) : Nat := arr 0x080140 256 0 2 m
def FLD.TQ_LIM (m : Nat) : Nat := arr 0x080144 256 0 2 m
def FLD.P_LIM (m : Nat) : Nat := arr 0x080148 256 0 2 m
def FLD.DERATE (m : Nat) : Nat := arr 0x08014C 256 0 2 m
def FLD.TQ_REQ (m : Nat) : Nat := arr 0x080150 256 0 2 m
def FLD.TQ_SLEW (m : Nat) : Nat := arr 0x080154 256 0 2 m
def FLD.THERM (m j : Nat) : Nat := arr2 0x080158 256 0 2 4 2 m j
def FLD.FAULT_CFG (m : Nat) : Nat := arr 0x080160 256 0 2 m
def FLD.POSTFAULT (m : Nat) : Nat := arr 0x080164 256 0 2 m
def FLD.ASC_CFG (m : Nat) : Nat := arr 0x080168 256 0 2 m
def FLD.MCH_STAT (m : Nat) : Nat := arr 0x080180 256 0 2 m
def FLD.CNT0 (m : Nat) : Nat := arr 0x080184 256 0 2 m
def FLD.CNT1 (m : Nat) : Nat := arr 0x080188 256 0 2 m
def FLD.TQ_OUT (m : Nat) : Nat := arr 0x08018C 256 0 2 m
def FLD.I_DQ_REF (m : Nat) : Nat := arr 0x080190 256 0 2 m
def FLD.I_DQ (m : Nat) : Nat := arr 0x080194 256 0 2 m
def FLD.V_DQ (m : Nat) : Nat := arr 0x080198 256 0 2 m
def FLD.PSI_STAT (m : Nat) : Nat := arr 0x08019C 256 0 2 m
def FLD.NP_STAT (m : Nat) : Nat := arr 0x0801A0 256 0 2 m
def FLD.AFE_CFG : Nat := 0x080400
def FLD.AFE_SLOT : Nat := 0x080404
def FLD.AFE_ISLOT : Nat := 0x080408
def FLD.AFE_SCALE : Nat := 0x08040C
def FLD.AFE_GAIN : Nat := 0x080410
def FLD.AFE_VLOOP : Nat := 0x080414
def FLD.AFE_LIM : Nat := 0x080418
def FLD.AFE_WIN : Nat := 0x08041C
def FLD.AFE_STAT : Nat := 0x080480
def FLD.ACT_GAIN (a : Nat) : Nat := arr 0x080610 4 0 4 a
def FLD.ACT_MOTOR (a : Nat) : Nat := arr 0x080620 4 0 4 a
def DCL.STATUS : Nat := 0x090000
def DCL.COUNT : Nat := 0x090004
def DCL.CTRL : Nat := 0x090008
def DCL.VSRC : Nat := 0x09000C
def DCL.LEVELS : Nat := 0x090010
def DCL.CHOP : Nat := 0x090014
def DCL.UV : Nat := 0x090018
def DCL.STOP_MASK : Nat := 0x09001C
def POS.PU_CFG (k : Nat) : Nat := arr 0x0A0100 64 0 6 k
def POS.MODULUS (k : Nat) : Nat := arr 0x0A0104 64 0 6 k
def POS.PU_STAT (k : Nat) : Nat := arr 0x0A0108 64 0 6 k
def POS.POSN (k : Nat) : Nat := arr 0x0A010C 64 0 6 k
def POS.SPEED (k : Nat) : Nat := arr 0x0A0110 64 0 6 k
def POS.SSI (k : Nat) : Nat := arr 0x0A0114 64 0 6 k
def POS.QUAD (k : Nat) : Nat := arr 0x0A0118 64 0 6 k
def POS.HALL (k : Nat) : Nat := arr 0x0A011C 64 0 6 k
def POS.PT_CFG (k : Nat) : Nat := arr 0x0A0120 64 0 6 k
def POS.PCMP_TGT (k u : Nat) : Nat := arr2 0x0A0400 128 0 6 16 8 k u
def POS.PCMP_CFG (k u : Nat) : Nat := arr2 0x0A0404 128 0 6 16 8 k u
def POS.PCMP_STAT (k u : Nat) : Nat := arr2 0x0A0408 128 0 6 16 8 k u
def POS.RES_CFG (j : Nat) : Nat := arr 0x0A0800 32 0 2 j
def POS.RES_SLOT (j : Nat) : Nat := arr 0x0A0804 32 0 2 j
def POS.RES_TRK (j : Nat) : Nat := arr 0x0A0808 32 0 2 j
def POS.RES_LIM (j : Nat) : Nat := arr 0x0A080C 32 0 2 j
def POS.RES_STAT (j : Nat) : Nat := arr 0x0A0810 32 0 2 j
def POS.OBS_CFG (m : Nat) : Nat := arr 0x0A0900 32 0 2 m
def POS.OBS_GAIN (m : Nat) : Nat := arr 0x0A0904 32 0 2 m
def POS.OBS_MOTOR (m : Nat) : Nat := arr 0x0A0908 32 0 2 m
def POS.OBS_LIM (m : Nat) : Nat := arr 0x0A090C 32 0 2 m
def POS.OBS_CATCH (m : Nat) : Nat := arr 0x0A0910 32 0 2 m
def POS.OBS_CTRL (m : Nat) : Nat := arr 0x0A0914 32 0 2 m
def POS.OBS_STAT (m : Nat) : Nat := arr 0x0A0918 32 0 2 m
def POS.OBS_SPEED (m : Nat) : Nat := arr 0x0A091C 32 0 2 m
def ACT.STATUS : Nat := 0x0B0000
def ACT.SPEEDS : Nat := 0x0B0004
def ACT.PARK : Nat := 0x0B0008
def ACT.PUMP : Nat := 0x0B0010
def ACT.PUMP1 : Nat := 0x0B0014
def ACT.GEAR (i : Nat) : Nat := arr 0x0B0040 4 0 8 i
def ACT.CFG (a : Nat) : Nat := arr 0x0B0100 32 0 4 a
def ACT.SLOTS (a : Nat) : Nat := arr 0x0B0104 32 0 4 a
def ACT.SCALE (a : Nat) : Nat := arr 0x0B0108 32 0 4 a
def ACT.LIMITS (a : Nat) : Nat := arr 0x0B010C 32 0 4 a
def ACT.LOOP (a : Nat) : Nat := arr 0x0B0110 32 0 4 a
def ACT.MOVE (a : Nat) : Nat := arr 0x0B0114 32 0 4 a
def ACT.CMD (a : Nat) : Nat := arr 0x0B0118 32 0 4 a
def ACT.STAT (a : Nat) : Nat := arr 0x0B011C 32 0 4 a
def ACT.CPL_CFG : Nat := 0x0B0200
def ACT.CPL_CMD : Nat := 0x0B0204
def ACT.CPL_STAT : Nat := 0x0B0208
def ACT.TRAVEL (a : Nat) : Nat := arr 0x0B0300 4 0 4 a
def CHG.STATUS : Nat := 0x0C0000
def CHG.PILOT : Nat := 0x0C0004
def CHG.PP : Nat := 0x0C0008
def CHG.CFG : Nat := 0x0C000C
def CHG.CMD : Nat := 0x0C0010
def CHG.REQ : Nat := 0x0C0014
def CHG.LIMITS : Nat := 0x0C0018
def CHG.TIMES : Nat := 0x0C001C
def CHG.COUNT : Nat := 0x0C0020
def MTR.STATUS : Nat := 0x0D0000
def MTR.LOST : Nat := 0x0D0004
def MTR.CFG : Nat := 0x0D0008
def MTR.ACK : Nat := 0x0D000C
def MTR.LAST : Nat := 0x0D0010
def MTR.TIME_LO : Nat := 0x0D0014
def MTR.TIME_HI : Nat := 0x0D0018
def CNV.BUCK_CFG : Nat := 0x0E0000
def CNV.BUCK_PK : Nat := 0x0E0004
def CNV.BUCK_CELLS : Nat := 0x0E0008
def CNV.BUCK_SLOT : Nat := 0x0E000C
def CNV.HICCUP : Nat := 0x0E0010
def CNV.VSET : Nat := 0x0E0014
def CNV.VSCALE : Nat := 0x0E0018
def CNV.BUCK_STAT : Nat := 0x0E0080
def CNV.TRIMS : Nat := 0x0E0084
def LVP.STATUS : Nat := 0x0F0000
def LVP.CFG : Nat := 0x0F0004
def LVP.SLOTS : Nat := 0x0F0008
def LVP.SCALE : Nat := 0x0F000C
def LVP.CHG : Nat := 0x0F0010
def LVP.VLIM : Nat := 0x0F0014
def LVP.VLIM1 : Nat := 0x0F0018
def LVP.PULSE : Nat := 0x0F001C
def LVP.TIMER : Nat := 0x0F0020
def LVP.FOLD : Nat := 0x0F0024
def LVP.TIMER_STAT : Nat := 0x0F0028
def LVP.BL : Nat := 0x0F002C
def LVP.VIN_REG : Nat := 0x0F0030
def LVP.BTN : Nat := 0x0F0034
def LVP.CMD : Nat := 0x0F0038
def LVP.INT_STAT : Nat := 0x0F0040
def LVP.INT_EN : Nat := 0x0F0044
def LVP.SRC_LIM (t : Nat) : Nat := arr 0x0F0100 4 0 4 t
def SAF.STATUS : Nat := 0x100000
def SAF.CFG_CRC : Nat := 0x100004
def SAF.CFG_EXPECT : Nat := 0x100008
def SAF.CHANGE : Nat := 0x10000C
def SAF.HOST_REQ : Nat := 0x100010
def SAF.DIAG : Nat := 0x100014
def SAF.MSG_CFG : Nat := 0x100020
def SAF.MSG_CFG1 : Nat := 0x100024
def SAF.MSG_STAT : Nat := 0x100028
def SAF.MSG_ERR : Nat := 0x10002C
def SAF.STL : Nat := 0x100030
def SAF.FUNC_CFG (f : Nat) : Nat := arr 0x100100 8 1 8 f
def SAF.FUNC_GRP (f : Nat) : Nat := arr 0x100104 8 1 8 f
def SAF.FUNC_STAT (f : Nat) : Nat := arr 0x100180 4 1 8 f
def SAF.GRP (g : Nat) : Nat := arr 0x100200 4 0 32 g
def SAF.SIN (i : Nat) : Nat := arr 0x100300 4 0 8 i
def SAF.SSUP (k : Nat) : Nat := arr 0x100340 4 0 4 k
def SAF.SLS (a : Nat) : Nat := arr 0x100360 4 0 4 a
def FLG.STATUS : Nat := 0x110000
def FLG.STATUS1 : Nat := 0x110004
def FLG.LASTING (s : Nat) : Nat := arr 0x110400 4 0 256 s
def FLG.OCCUR (s : Nat) : Nat := arr 0x110800 4 0 256 s
def FLG.ENTRY0 (s : Nat) : Nat := arr 0x111000 8 0 256 s
def FLG.ENTRY1 (s : Nat) : Nat := arr 0x111004 8 0 256 s
def CHD.STATUS : Nat := 0x120000
def CHD.CNT (n : Nat) : Nat := arr 0x120010 4 0 3 n
def CHD.CKPT (n : Nat) : Nat := arr 0x120020 4 0 3 n
def MEM.STATUS : Nat := 0x130000
def MEM.SRAM : Nat := 0x130004
def MEM.MRAM : Nat := 0x130008
def MEM.MRAM1 : Nat := 0x13000C
def MEM.CFG : Nat := 0x130010
def MEM.WEAR : Nat := 0x130014
def MEM.WEAR_PAGE : Nat := 0x130018
def MEM.WEAR_CFG : Nat := 0x13001C
def MEM.REGION (r : Nat) : Nat := arr 0x130100 4 0 9 r
def MEM.ERR0 (e : Nat) : Nat := arr 0x130400 8 0 64 e
def MEM.ERR1 (e : Nat) : Nat := arr 0x130404 8 0 64 e
def BUS.TIME_CFG : Nat := 0x140000
def BUS.TIME_STAT : Nat := 0x140004
def BUS.TIME_LO : Nat := 0x140008
def BUS.TIME_HI : Nat := 0x14000C
def BUS.CTRL (n : Nat) : Nat := arr 0x140100 64 0 4 n
def BUS.NBT (n : Nat) : Nat := arr 0x140104 64 0 4 n
def BUS.DBT (n : Nat) : Nat := arr 0x140108 64 0 4 n
def BUS.XBT (n : Nat) : Nat := arr 0x14010C 64 0 4 n
def BUS.STAT (n : Nat) : Nat := arr 0x140110 64 0 4 n
def BUS.RX_HEAD (n : Nat) : Nat := arr 0x140114 64 0 4 n
def BUS.RX_SEL (n : Nat) : Nat := arr 0x140118 64 0 4 n
def BUS.RX_STAT (n : Nat) : Nat := arr 0x14011C 64 0 4 n
def BUS.TX_STAT (n : Nat) : Nat := arr 0x140120 64 0 4 n
def BUS.WIN (n : Nat) : Nat := arr 0x141000 4096 0 4 n
def BUS.WINDATA (n w : Nat) : Nat := arr2 0x141004 4096 0 4 4 521 n w
def NET.EVT_DEST : Nat := 0x150000
def NET.EVT_PORT : Nat := 0x150004
def NET.IF_CFG (p : Nat) : Nat := arr 0x150100 32 0 2 p
def NET.IP (p : Nat) : Nat := arr 0x150104 32 0 2 p
def NET.STAT (p : Nat) : Nat := arr 0x15010C 32 0 2 p
def NET.MAC_HI (p : Nat) : Nat := arr 0x150110 32 0 2 p
def NET.MAC_LO (p : Nat) : Nat := arr 0x150114 32 0 2 p
def NET.PLCA : Nat := 0x150128
def LCY.STATE : Nat := 0x160000
def LCY.CMD : Nat := 0x160004
def LCY.FW_STAT (k : Nat) : Nat := arr 0x160010 4 0 2 k
def LCY.FW_VER (k s : Nat) : Nat := arr2 0x160020 8 0 2 4 2 k s
def LCY.THERM : Nat := 0x160030
def LCY.SUPPLY : Nat := 0x160040

def SYS.STATUS.DEV_STATE : FldAt := ⟨SYS.STATUS, 31, 28⟩
def SYS.STATUS.LC_STATE : FldAt := ⟨SYS.STATUS, 27, 24⟩
def SYS.STATUS.HOSTMODE : FldAt := ⟨SYS.STATUS, 23, 23⟩
def SYS.STATUS.RECOVERY : FldAt := ⟨SYS.STATUS, 22, 22⟩
def SYS.STATUS.RESET_CAUSE : FldAt := ⟨SYS.STATUS, 15, 8⟩
def SYS.STATUS.DEG_CAUSE : FldAt := ⟨SYS.STATUS, 7, 0⟩
def SYS.BOOT.BOOTS : FldAt := ⟨SYS.BOOT, 31, 16⟩
def SYS.BOOT.BOOT_TIME : FldAt := ⟨SYS.BOOT, 15, 0⟩
def SYS.ISLAND.RESETS (n : Nat) : FldAt := ⟨SYS.ISLAND n, 31, 24⟩
def SYS.ISLAND.CLK_STEP (n : Nat) : FldAt := ⟨SYS.ISLAND n, 19, 16⟩
def SYS.ISLAND.STATE (n : Nat) : FldAt := ⟨SYS.ISLAND n, 11, 8⟩
def SYS.ISLAND.PLL_LOCK (n : Nat) : FldAt := ⟨SYS.ISLAND n, 7, 7⟩
def SYS.ISLAND.PLL_LOST (n : Nat) : FldAt := ⟨SYS.ISLAND n, 6, 6⟩
def SYS.ISLAND.CLK_MON_ERR (n : Nat) : FldAt := ⟨SYS.ISLAND n, 5, 5⟩
def SYS.XFER.ABSENT_REPLIES (n : Nat) : FldAt := ⟨SYS.XFER n, 31, 16⟩
def SYS.XFER.DROPPED_WRITES (n : Nat) : FldAt := ⟨SYS.XFER n, 15, 0⟩
def SYS.LINK.LOSS_COUNT : FldAt := ⟨SYS.LINK, 31, 16⟩
def SYS.LINK.SAFE_HELD : FldAt := ⟨SYS.LINK, 1, 1⟩
def SYS.LINK.LINK_LOST : FldAt := ⟨SYS.LINK, 0, 0⟩
def CMD.STATUS.SESSIONS_OPEN : FldAt := ⟨CMD.STATUS, 31, 28⟩
def CMD.STATUS.INTEGRATOR_OPEN : FldAt := ⟨CMD.STATUS, 27, 27⟩
def CMD.STATUS.METROLOGY_OPEN : FldAt := ⟨CMD.STATUS, 26, 26⟩
def CMD.STATUS.SEG_ACTIVE : FldAt := ⟨CMD.STATUS, 25, 25⟩
def CMD.STATUS.EXEC_BUSY : FldAt := ⟨CMD.STATUS, 24, 24⟩
def CMD.STATUS.LOCK_REMAIN : FldAt := ⟨CMD.STATUS, 15, 0⟩
def CMD.RX_ERR.BAD_MAGIC : FldAt := ⟨CMD.RX_ERR, 31, 24⟩
def CMD.RX_ERR.BAD_CRC : FldAt := ⟨CMD.RX_ERR, 23, 16⟩
def CMD.RX_ERR.OVERLENGTH : FldAt := ⟨CMD.RX_ERR, 15, 12⟩
def CMD.RX_ERR.TRUNCATED : FldAt := ⟨CMD.RX_ERR, 11, 8⟩
def CMD.RX_ERR.BAD_AUTH : FldAt := ⟨CMD.RX_ERR, 7, 0⟩
def CMD.STATS.REPLAYED : FldAt := ⟨CMD.STATS, 31, 16⟩
def CMD.STATS.SEG_ABANDONED : FldAt := ⟨CMD.STATS, 15, 0⟩
def CMD.SP_LAT.SP_COUNT : FldAt := ⟨CMD.SP_LAT, 31, 16⟩
def CMD.SP_LAT.SP_LAT_MAX : FldAt := ⟨CMD.SP_LAT, 15, 0⟩
def CMD.SESSION_CFG.IDLE_TIMEOUT : FldAt := ⟨CMD.SESSION_CFG, 31, 16⟩
def CMD.SESSION_CFG.AUTH_SPI : FldAt := ⟨CMD.SESSION_CFG, 0, 0⟩
def CMD.EVENT_CFG.LOST : FldAt := ⟨CMD.EVENT_CFG, 31, 16⟩
def CMD.EVENT_CFG.ROUTE_UDP : FldAt := ⟨CMD.EVENT_CFG, 3, 3⟩
def CMD.EVENT_CFG.ROUTE_CANXL : FldAt := ⟨CMD.EVENT_CFG, 2, 2⟩
def CMD.EVENT_CFG.ROUTE_SPI : FldAt := ⟨CMD.EVENT_CFG, 1, 1⟩
def CMD.SEQ_AUTORUN.INDEX : FldAt := ⟨CMD.SEQ_AUTORUN, 7, 0⟩
def CMD.CANXL_CFG0.EN : FldAt := ⟨CMD.CANXL_CFG0, 31, 31⟩
def CMD.CANXL_CFG0.CTRL : FldAt := ⟨CMD.CANXL_CFG0, 25, 24⟩
def CMD.CANXL_CFG0.SDT : FldAt := ⟨CMD.CANXL_CFG0, 23, 16⟩
def CMD.CANXL_CFG0.VCID : FldAt := ⟨CMD.CANXL_CFG0, 15, 8⟩
def CMD.CANXL_CFG1.RPL_ID : FldAt := ⟨CMD.CANXL_CFG1, 26, 16⟩
def CMD.CANXL_CFG1.REQ_ID : FldAt := ⟨CMD.CANXL_CFG1, 10, 0⟩
def CMD.UDP_CFG.EN : FldAt := ⟨CMD.UDP_CFG, 31, 31⟩
def CMD.UDP_CFG.PORT : FldAt := ⟨CMD.UDP_CFG, 15, 0⟩
def CMD.VIOLATION.OVERWRITTEN : FldAt := ⟨CMD.VIOLATION, 31, 16⟩
def CMD.VIOLATION.ENTRIES : FldAt := ⟨CMD.VIOLATION, 6, 0⟩
def CMD.LEGACY_ERR.REASON : FldAt := ⟨CMD.LEGACY_ERR, 31, 16⟩
def CMD.LEGACY_ERR.FRAMES_BAD : FldAt := ⟨CMD.LEGACY_ERR, 15, 0⟩
def CMD.LEGACY_ADDR.ADDRESS : FldAt := ⟨CMD.LEGACY_ADDR, 23, 0⟩
def CMD.TUNNEL_CTL.GO : FldAt := ⟨CMD.TUNNEL_CTL, 31, 31⟩
def CMD.TUNNEL_CTL.RX_ACK : FldAt := ⟨CMD.TUNNEL_CTL, 30, 30⟩
def CMD.TUNNEL_CTL.BUSY : FldAt := ⟨CMD.TUNNEL_CTL, 29, 29⟩
def CMD.TUNNEL_CTL.RX_VALID : FldAt := ⟨CMD.TUNNEL_CTL, 28, 28⟩
def CMD.TUNNEL_CTL.RX_LEN : FldAt := ⟨CMD.TUNNEL_CTL, 25, 13⟩
def CMD.TUNNEL_CTL.LEN : FldAt := ⟨CMD.TUNNEL_CTL, 12, 0⟩
def CMD.TUNNEL_TX.BYTES (w : Nat) : FldAt := ⟨CMD.TUNNEL_TX w, 31, 0⟩
def CMD.TUNNEL_RX.BYTES (w : Nat) : FldAt := ⟨CMD.TUNNEL_RX w, 31, 0⟩
def MAP.STATUS.MIRROR_FAIL : FldAt := ⟨MAP.STATUS, 15, 8⟩
def MAP.STATUS.HANDOVER : FldAt := ⟨MAP.STATUS, 7, 7⟩
def MAP.STATUS.DRV_FREE : FldAt := ⟨MAP.STATUS, 6, 4⟩
def MAP.STATUS.LOGIC_FREE : FldAt := ⟨MAP.STATUS, 2, 0⟩
def MAP.ILK_HITS.HITS (i : Nat) : FldAt := ⟨MAP.ILK_HITS i, 15, 0⟩
def PLS.STATUS.LATE_WRITE : FldAt := ⟨PLS.STATUS, 31, 16⟩
def PLS.STATUS.STALE_TRIG : FldAt := ⟨PLS.STATUS, 15, 0⟩
def PLS.COUNT0.LATE_COMMIT : FldAt := ⟨PLS.COUNT0, 31, 24⟩
def PLS.COUNT0.MIN_PULSE : FldAt := ⟨PLS.COUNT0, 23, 16⟩
def PLS.COUNT0.DT_STRETCH : FldAt := ⟨PLS.COUNT0, 15, 8⟩
def PLS.COUNT0.TRIG_CLAMPED : FldAt := ⟨PLS.COUNT0, 7, 0⟩
def PLS.COUNT1.OUT_OF_PERIOD : FldAt := ⟨PLS.COUNT1, 31, 16⟩
def PLS.COUNT1.POST_DROPPED : FldAt := ⟨PLS.COUNT1, 15, 0⟩
def PLS.DLY_ERR.MISMATCH : FldAt := ⟨PLS.DLY_ERR, 31, 31⟩
def PLS.DLY_ERR.KIND : FldAt := ⟨PLS.DLY_ERR, 17, 16⟩
def PLS.DLY_ERR.INDEX : FldAt := ⟨PLS.DLY_ERR, 15, 8⟩
def PLS.DLY_ERR.COUNT : FldAt := ⟨PLS.DLY_ERR, 7, 0⟩
def PLS.TB_START.START : FldAt := ⟨PLS.TB_START, 15, 0⟩
def PLS.TB_CFG.RUN (t : Nat) : FldAt := ⟨PLS.TB_CFG t, 31, 31⟩
def PLS.TB_CFG.DOUBLE (t : Nat) : FldAt := ⟨PLS.TB_CFG t, 30, 30⟩
def PLS.TB_CFG.RELOAD_DIV (t : Nat) : FldAt := ⟨PLS.TB_CFG t, 29, 22⟩
def PLS.TB_CFG.OWNER_GRP (t : Nat) : FldAt := ⟨PLS.TB_CFG t, 7, 0⟩
def PLS.TB_PERIOD.PERIOD (t : Nat) : FldAt := ⟨PLS.TB_PERIOD t, 23, 0⟩
def PLS.TB_SYNC.MODE (t : Nat) : FldAt := ⟨PLS.TB_SYNC t, 31, 30⟩
def PLS.TB_SYNC.MASTER (t : Nat) : FldAt := ⟨PLS.TB_SYNC t, 27, 24⟩
def PLS.TB_SYNC.OFFSET (t : Nat) : FldAt := ⟨PLS.TB_SYNC t, 23, 0⟩
def PLS.TB_COUNT.WINDOW (t : Nat) : FldAt := ⟨PLS.TB_COUNT t, 31, 31⟩
def PLS.TB_COUNT.CUTS (t : Nat) : FldAt := ⟨PLS.TB_COUNT t, 30, 24⟩
def PLS.TB_COUNT.COUNT (t : Nat) : FldAt := ⟨PLS.TB_COUNT t, 23, 0⟩
def PLS.TRG_CFG.EN (t j : Nat) : FldAt := ⟨PLS.TRG_CFG t j, 31, 31⟩
def PLS.TRG_CFG.MODE (t j : Nat) : FldAt := ⟨PLS.TRG_CFG t j, 30, 29⟩
def PLS.TRG_CFG.SRC (t j : Nat) : FldAt := ⟨PLS.TRG_CFG t j, 28, 28⟩
def PLS.TRG_CFG.REF_CH (t j : Nat) : FldAt := ⟨PLS.TRG_CFG t j, 23, 16⟩
def PLS.TRG_CFG.ADVANCE (t j : Nat) : FldAt := ⟨PLS.TRG_CFG t j, 11, 0⟩
def PLS.TRG_POS.POS (t j : Nat) : FldAt := ⟨PLS.TRG_POS t j, 23, 0⟩
def PLS.GRP_CFG.OWNER (g : Nat) : FldAt := ⟨PLS.GRP_CFG g, 31, 28⟩
def PLS.GRP_STAT.LATE_COMPUTE (g : Nat) : FldAt := ⟨PLS.GRP_STAT g, 31, 24⟩
def PLS.GRP_STAT.RELOAD_PEND (g : Nat) : FldAt := ⟨PLS.GRP_STAT g, 15, 15⟩
def PLS.GRP_STAT.PROVISIONAL (g : Nat) : FldAt := ⟨PLS.GRP_STAT g, 14, 14⟩
def PLS.GRP_STAT.WINDOWS (g : Nat) : FldAt := ⟨PLS.GRP_STAT g, 13, 0⟩
def PLS.DEADTIME.DT (i : Nat) : FldAt := ⟨PLS.DEADTIME i, 9, 0⟩
def PLS.CAL.CAL_VALID (b : Nat) : FldAt := ⟨PLS.CAL b, 31, 31⟩
def PLS.CAL.COARSE_ONLY (b : Nat) : FldAt := ⟨PLS.CAL b, 30, 30⟩
def PLS.CAL.ELEMENTS (b : Nat) : FldAt := ⟨PLS.CAL b, 23, 16⟩
def PLS.CAL.FAIL (b : Nat) : FldAt := ⟨PLS.CAL b, 15, 8⟩
def PLS.CAL.AGE (b : Nat) : FldAt := ⟨PLS.CAL b, 7, 0⟩
def PLS.RISE.COARSE (c : Nat) : FldAt := ⟨PLS.RISE c, 29, 6⟩
def PLS.RISE.FINE (c : Nat) : FldAt := ⟨PLS.RISE c, 5, 0⟩
def PLS.FALL.COARSE (c : Nat) : FldAt := ⟨PLS.FALL c, 29, 6⟩
def PLS.FALL.FINE (c : Nat) : FldAt := ⟨PLS.FALL c, 5, 0⟩
def PLS.RISE_ACT.COARSE (c : Nat) : FldAt := ⟨PLS.RISE_ACT c, 29, 6⟩
def PLS.RISE_ACT.FINE (c : Nat) : FldAt := ⟨PLS.RISE_ACT c, 5, 0⟩
def PLS.FALL_ACT.COARSE (c : Nat) : FldAt := ⟨PLS.FALL_ACT c, 29, 6⟩
def PLS.FALL_ACT.FINE (c : Nat) : FldAt := ⟨PLS.FALL_ACT c, 5, 0⟩
def TRP.CELL_STAT.OUT_HI (c : Nat) : FldAt := ⟨TRP.CELL_STAT c, 31, 31⟩
def TRP.CELL_STAT.OUT_LO (c : Nat) : FldAt := ⟨TRP.CELL_STAT c, 30, 30⟩
def TRP.CELL_STAT.IN_TRIP (c : Nat) : FldAt := ⟨TRP.CELL_STAT c, 29, 29⟩
def TRP.CELL_STAT.BLANKED (c : Nat) : FldAt := ⟨TRP.CELL_STAT c, 28, 28⟩
def TRP.CELL_STAT.PHYS (c : Nat) : FldAt := ⟨TRP.CELL_STAT c, 27, 24⟩
def TRP.CELL_STAT.TRIPS (c : Nat) : FldAt := ⟨TRP.CELL_STAT c, 23, 16⟩
def TRP.CELL_STAT.CBC_CYCLES (c : Nat) : FldAt := ⟨TRP.CELL_STAT c, 15, 0⟩
def TRP.THR.THR_HI (c : Nat) : FldAt := ⟨TRP.THR c, 25, 16⟩
def TRP.THR.THR_LO (c : Nat) : FldAt := ⟨TRP.THR c, 9, 0⟩
def TRP.GRP_TRIP.LATCH (g : Nat) : FldAt := ⟨TRP.GRP_TRIP g, 31, 31⟩
def TRP.GRP_TRIP.KIND (g : Nat) : FldAt := ⟨TRP.GRP_TRIP g, 30, 30⟩
def TRP.GRP_TRIP.ALL_OFF (g : Nat) : FldAt := ⟨TRP.GRP_TRIP g, 29, 29⟩
def TRP.GRP_TRIP.HELD (g : Nat) : FldAt := ⟨TRP.GRP_TRIP g, 28, 28⟩
def TRP.GRP_TRIP.FIRST_CELL (g : Nat) : FldAt := ⟨TRP.GRP_TRIP g, 23, 16⟩
def TRP.GRP_TRIP.COUNT (g : Nat) : FldAt := ⟨TRP.GRP_TRIP g, 15, 0⟩
def TRP.BANK_STAT.DEGRADED (b : Nat) : FldAt := ⟨TRP.BANK_STAT b, 31, 31⟩
def TRP.BANK_STAT.ROT_ACTIVE (b : Nat) : FldAt := ⟨TRP.BANK_STAT b, 30, 30⟩
def TRP.BANK_STAT.CMD_TESTED (b : Nat) : FldAt := ⟨TRP.BANK_STAT b, 29, 29⟩
def TRP.BANK_STAT.SLOT (b : Nat) : FldAt := ⟨TRP.BANK_STAT b, 28, 25⟩
def TRP.BANK_STAT.FAILED (b : Nat) : FldAt := ⟨TRP.BANK_STAT b, 24, 16⟩
def TRP.BANK_STAT.MIRROR (b : Nat) : FldAt := ⟨TRP.BANK_STAT b, 15, 8⟩
def TRP.BANK_STAT.ROTATIONS (b : Nat) : FldAt := ⟨TRP.BANK_STAT b, 7, 0⟩
def GDR.STATUS.VDRV_OK : FldAt := ⟨GDR.STATUS, 31, 31⟩
def GDR.STATUS.VDRV_UV : FldAt := ⟨GDR.STATUS, 30, 30⟩
def GDR.STATUS.SCB_MISMATCH : FldAt := ⟨GDR.STATUS, 29, 29⟩
def GDR.STATUS.SCB_PAIR : FldAt := ⟨GDR.STATUS, 28, 24⟩
def GDR.STATUS.VDRV_COUNT : FldAt := ⟨GDR.STATUS, 23, 16⟩
def GDR.ILK_FB0.SETS : FldAt := ⟨GDR.ILK_FB0, 31, 0⟩
def GDR.ILK_FB1.SETS : FldAt := ⟨GDR.ILK_FB1, 15, 0⟩
def GDR.DRV_FAILED.PAIRS : FldAt := ⟨GDR.DRV_FAILED, 23, 0⟩
def GDR.DRV_CFG.BOOT_EN (p : Nat) : FldAt := ⟨GDR.DRV_CFG p, 31, 31⟩
def GDR.DRV_CFG.SC_EN (p : Nat) : FldAt := ⟨GDR.DRV_CFG p, 30, 30⟩
def GDR.DRV_CFG.SC_ACTION (p : Nat) : FldAt := ⟨GDR.DRV_CFG p, 29, 29⟩
def GDR.DRV_CFG.SC_THR (p : Nat) : FldAt := ⟨GDR.DRV_CFG p, 28, 25⟩
def GDR.DRV_CFG.SC_BLANK (p : Nat) : FldAt := ⟨GDR.DRV_CFG p, 24, 17⟩
def GDR.DRV_CFG.REFRESH_INT (p : Nat) : FldAt := ⟨GDR.DRV_CFG p, 16, 10⟩
def GDR.DRV_CFG.REFRESH_W (p : Nat) : FldAt := ⟨GDR.DRV_CFG p, 9, 0⟩
def GDR.BST_STAT.BST_OK (p : Nat) : FldAt := ⟨GDR.BST_STAT p, 31, 31⟩
def GDR.BST_STAT.UV_LATCH (p : Nat) : FldAt := ⟨GDR.BST_STAT p, 30, 30⟩
def GDR.BST_STAT.UV_COUNT (p : Nat) : FldAt := ⟨GDR.BST_STAT p, 23, 16⟩
def GDR.BST_STAT.REFRESHES (p : Nat) : FldAt := ⟨GDR.BST_STAT p, 15, 0⟩
def GDR.SC_STAT.SC_ACTIVE (p : Nat) : FldAt := ⟨GDR.SC_STAT p, 31, 31⟩
def GDR.SC_STAT.COUNT (p : Nat) : FldAt := ⟨GDR.SC_STAT p, 7, 0⟩
def GDR.FLT.ACTIVE (k : Nat) : FldAt := ⟨GDR.FLT k, 31, 31⟩
def GDR.FLT.ACTION (k : Nat) : FldAt := ⟨GDR.FLT k, 30, 30⟩
def GDR.FLT.COUNT (k : Nat) : FldAt := ⟨GDR.FLT k, 7, 0⟩
def GDR.RDY_CFG.EN (r : Nat) : FldAt := ⟨GDR.RDY_CFG r, 31, 31⟩
def GDR.RDY_CFG.POL (r : Nat) : FldAt := ⟨GDR.RDY_CFG r, 30, 30⟩
def GDR.RDY_CFG.READY (r : Nat) : FldAt := ⟨GDR.RDY_CFG r, 29, 29⟩
def GDR.RDY_CFG.GROUP (r : Nat) : FldAt := ⟨GDR.RDY_CFG r, 28, 24⟩
def GDR.RDY_CFG.LOSSES (r : Nat) : FldAt := ⟨GDR.RDY_CFG r, 23, 16⟩
def MEA.STATUS.XBAR_WAIT : FldAt := ⟨MEA.STATUS, 31, 16⟩
def MEA.STATUS.CHECK_SKIPPED : FldAt := ⟨MEA.STATUS, 15, 0⟩
def MEA.REF.EXT_EN : FldAt := ⟨MEA.REF, 31, 31⟩
def MEA.REF.RATIO_EN : FldAt := ⟨MEA.REF, 30, 30⟩
def MEA.REF.INT_SETTLED : FldAt := ⟨MEA.REF, 26, 26⟩
def MEA.REF.EXT_SETTLED : FldAt := ⟨MEA.REF, 25, 25⟩
def MEA.REF.RATIO_SETTLED : FldAt := ⟨MEA.REF, 24, 24⟩
def MEA.REF.INT_FAULT : FldAt := ⟨MEA.REF, 23, 23⟩
def MEA.REF.EXT_FAULT : FldAt := ⟨MEA.REF, 22, 22⟩
def MEA.REF.RATIO_FAULT : FldAt := ⟨MEA.REF, 21, 21⟩
def MEA.REF.EXT_NOM : FldAt := ⟨MEA.REF, 11, 0⟩
def MEA.FORMAT.SIGNED : FldAt := ⟨MEA.FORMAT, 1, 1⟩
def MEA.FORMAT.LEFT : FldAt := ⟨MEA.FORMAT, 0, 0⟩
def MEA.WIN_CFG.HYST : FldAt := ⟨MEA.WIN_CFG, 7, 0⟩
def MEA.SPARE.SA8_FAILED : FldAt := ⟨MEA.SPARE, 31, 31⟩
def MEA.SPARE.IN_USE : FldAt := ⟨MEA.SPARE, 30, 30⟩
def MEA.SPARE.CHECK_SLOT : FldAt := ⟨MEA.SPARE, 27, 24⟩
def MEA.SPARE.SERVES : FldAt := ⟨MEA.SPARE, 23, 20⟩
def MEA.SPARE.MISMATCHES : FldAt := ⟨MEA.SPARE, 15, 8⟩
def MEA.SPARE.ROTATIONS : FldAt := ⟨MEA.SPARE, 7, 0⟩
def MEA.MAINS_CFG.EN : FldAt := ⟨MEA.MAINS_CFG, 31, 31⟩
def MEA.MAINS_CFG.NOMINAL : FldAt := ⟨MEA.MAINS_CFG, 30, 30⟩
def MEA.MAINS_CFG.SUBWIN : FldAt := ⟨MEA.MAINS_CFG, 29, 28⟩
def MEA.MAINS_CFG.REF_PC : FldAt := ⟨MEA.MAINS_CFG, 27, 24⟩
def MEA.MAINS.LOCKED : FldAt := ⟨MEA.MAINS, 31, 31⟩
def MEA.MAINS.LOCK_LOSSES : FldAt := ⟨MEA.MAINS, 30, 24⟩
def MEA.MAINS.PERIOD : FldAt := ⟨MEA.MAINS, 23, 0⟩
def MEA.WIN_OUT.OUT (k : Nat) : FldAt := ⟨MEA.WIN_OUT k, 31, 0⟩
def MEA.CONV_STAT.FAILED (s : Nat) : FldAt := ⟨MEA.CONV_STAT s, 31, 31⟩
def MEA.CONV_STAT.BUSY (s : Nat) : FldAt := ⟨MEA.CONV_STAT s, 30, 30⟩
def MEA.CONV_STAT.PHYS (s : Nat) : FldAt := ⟨MEA.CONV_STAT s, 27, 24⟩
def MEA.CONV_STAT.TRIG_OVERRUN (s : Nat) : FldAt := ⟨MEA.CONV_STAT s, 23, 16⟩
def MEA.CONV_STAT.RUNS (s : Nat) : FldAt := ⟨MEA.CONV_STAT s, 15, 0⟩
def MEA.BIND.EN (s m : Nat) : FldAt := ⟨MEA.BIND s m, 31, 31⟩
def MEA.BIND.TRIG_SRC (s m : Nat) : FldAt := ⟨MEA.BIND s m, 13, 8⟩
def MEA.BIND.START (s m : Nat) : FldAt := ⟨MEA.BIND s m, 4, 0⟩
def MEA.PC_CFG.EN (k : Nat) : FldAt := ⟨MEA.PC_CFG k, 31, 31⟩
def MEA.PC_CFG.REF (k : Nat) : FldAt := ⟨MEA.PC_CFG k, 30, 30⟩
def MEA.PC_SUM.SUB (k : Nat) : FldAt := ⟨MEA.PC_SUM k, 31, 24⟩
def MEA.PC_SUM.SUM (k : Nat) : FldAt := ⟨MEA.PC_SUM k, 23, 0⟩
def MEA.PC_LEN.UNLOCKED : FldAt := ⟨MEA.PC_LEN, 31, 31⟩
def MEA.PC_LEN.CYCLE : FldAt := ⟨MEA.PC_LEN, 30, 16⟩
def MEA.PC_LEN.N : FldAt := ⟨MEA.PC_LEN, 15, 0⟩
def MEA.WIN.HI (r : Nat) : FldAt := ⟨MEA.WIN r, 31, 16⟩
def MEA.WIN.LO (r : Nat) : FldAt := ⟨MEA.WIN r, 15, 0⟩
def LAT.STATUS.RAMP_SUPERSEDED : FldAt := ⟨LAT.STATUS, 31, 16⟩
def LAT.STATUS.REEVALS : FldAt := ⟨LAT.STATUS, 15, 0⟩
def LAT.LOAD.LOAD_PCT : FldAt := ⟨LAT.LOAD, 23, 16⟩
def LAT.LOAD.WAIT_MAX : FldAt := ⟨LAT.LOAD, 15, 0⟩
def LAT.RG_CFG.EN (n : Nat) : FldAt := ⟨LAT.RG_CFG n, 31, 31⟩
def LAT.RG_CFG.COMMIT (n : Nat) : FldAt := ⟨LAT.RG_CFG n, 30, 30⟩
def LAT.RG_CFG.GROUP (n : Nat) : FldAt := ⟨LAT.RG_CFG n, 23, 16⟩
def LAT.RG_CFG.START_SLOT (n : Nat) : FldAt := ⟨LAT.RG_CFG n, 15, 8⟩
def LAT.RG_CFG.COMMIT_LEAD (n : Nat) : FldAt := ⟨LAT.RG_CFG n, 7, 0⟩
def LAT.RG_STAT.EVALS (n : Nat) : FldAt := ⟨LAT.RG_STAT n, 31, 16⟩
def LAT.RG_STAT.REEVALS (n : Nat) : FldAt := ⟨LAT.RG_STAT n, 15, 8⟩
def LAT.RG_STAT.ABANDONED (n : Nat) : FldAt := ⟨LAT.RG_STAT n, 7, 0⟩
def LAT.MS_STAT.WINNER (m : Nat) : FldAt := ⟨LAT.MS_STAT m, 23, 16⟩
def LAT.MS_STAT.CHANGES (m : Nat) : FldAt := ⟨LAT.MS_STAT m, 15, 0⟩
def LAT.RAMP.RATE (c : Nat) : FldAt := ⟨LAT.RAMP c, 30, 0⟩
def LAT.TARGET.TARGET (c : Nat) : FldAt := ⟨LAT.TARGET c, 31, 0⟩
def LAT.CELL_STAT.RAMP_DONE (c : Nat) : FldAt := ⟨LAT.CELL_STAT c, 31, 31⟩
def LAT.CELL_STAT.RAMPING (c : Nat) : FldAt := ⟨LAT.CELL_STAT c, 30, 30⟩
def LAT.CELL_STAT.HOLD (c : Nat) : FldAt := ⟨LAT.CELL_STAT c, 29, 29⟩
def LAT.CELL_STAT.SAT_OUT (c : Nat) : FldAt := ⟨LAT.CELL_STAT c, 28, 28⟩
def LAT.CELL_STAT.LOSER (c : Nat) : FldAt := ⟨LAT.CELL_STAT c, 27, 27⟩
def LAT.CELL_STAT.HOLDS (c : Nat) : FldAt := ⟨LAT.CELL_STAT c, 23, 16⟩
def LAT.CELL_STAT.SAT_ARITH (c : Nat) : FldAt := ⟨LAT.CELL_STAT c, 15, 0⟩
def LAT.OUT.U (c : Nat) : FldAt := ⟨LAT.OUT c, 31, 0⟩
def LAT.RAMPED.RHO (c : Nat) : FldAt := ⟨LAT.RAMPED c, 31, 0⟩
def LAT.TPL_CTL.EN (e : Nat) : FldAt := ⟨LAT.TPL_CTL e, 31, 31⟩
def LAT.TPL_CTL.EDGE (e : Nat) : FldAt := ⟨LAT.TPL_CTL e, 30, 30⟩
def LAT.TPL_CTL.KIND (e : Nat) : FldAt := ⟨LAT.TPL_CTL e, 29, 29⟩
def LAT.TPL_CTL.CHANNEL (e : Nat) : FldAt := ⟨LAT.TPL_CTL e, 15, 8⟩
def LAT.TPL_BASE.BASE (e : Nat) : FldAt := ⟨LAT.TPL_BASE e, 31, 0⟩
def LAT.TPL_COEF.COEF (e : Nat) : FldAt := ⟨LAT.TPL_COEF e, 31, 0⟩
def FLD.MAP_STAT.SWAPS : FldAt := ⟨FLD.MAP_STAT, 31, 16⟩
def FLD.MAP_STAT.COMPLETE : FldAt := ⟨FLD.MAP_STAT, 3, 0⟩
def FLD.MCH_CFG.EN (m : Nat) : FldAt := ⟨FLD.MCH_CFG m, 31, 31⟩
def FLD.MCH_CFG.TQ_SRC (m : Nat) : FldAt := ⟨FLD.MCH_CFG m, 30, 30⟩
def FLD.MCH_CFG.ASC_LEVEL (m : Nat) : FldAt := ⟨FLD.MCH_CFG m, 29, 29⟩
def FLD.MCH_CFG.GROUP (m : Nat) : FldAt := ⟨FLD.MCH_CFG m, 28, 24⟩
def FLD.MCH_CFG.PU (m : Nat) : FldAt := ⟨FLD.MCH_CFG m, 23, 21⟩
def FLD.MCH_CFG.POLE_PAIRS (m : Nat) : FldAt := ⟨FLD.MCH_CFG m, 20, 17⟩
def FLD.MCH_CFG.EVAL_TIMEOUT (m : Nat) : FldAt := ⟨FLD.MCH_CFG m, 15, 8⟩
def FLD.ANGLE.ANGLE_OFFSET (m : Nat) : FldAt := ⟨FLD.ANGLE m, 31, 16⟩
def FLD.ANGLE.ADV (m : Nat) : FldAt := ⟨FLD.ANGLE m, 15, 8⟩
def FLD.IN_SLOT0.A1 (m : Nat) : FldAt := ⟨FLD.IN_SLOT0 m, 31, 24⟩
def FLD.IN_SLOT0.B1 (m : Nat) : FldAt := ⟨FLD.IN_SLOT0 m, 23, 16⟩
def FLD.IN_SLOT0.C1 (m : Nat) : FldAt := ⟨FLD.IN_SLOT0 m, 15, 8⟩
def FLD.IN_SLOT0.A2 (m : Nat) : FldAt := ⟨FLD.IN_SLOT0 m, 7, 0⟩
def FLD.IN_SLOT1.B2 (m : Nat) : FldAt := ⟨FLD.IN_SLOT1 m, 31, 24⟩
def FLD.IN_SLOT1.C2 (m : Nat) : FldAt := ⟨FLD.IN_SLOT1 m, 23, 16⟩
def FLD.IN_SLOT1.VUP (m : Nat) : FldAt := ⟨FLD.IN_SLOT1 m, 15, 8⟩
def FLD.IN_SLOT1.VLO (m : Nat) : FldAt := ⟨FLD.IN_SLOT1 m, 7, 0⟩
def FLD.I_SCALE.I_OFFSET (m : Nat) : FldAt := ⟨FLD.I_SCALE m, 31, 16⟩
def FLD.I_SCALE.I_GAIN (m : Nat) : FldAt := ⟨FLD.I_SCALE m, 15, 0⟩
def FLD.V_SCALE.V_OFFSET (m : Nat) : FldAt := ⟨FLD.V_SCALE m, 31, 16⟩
def FLD.V_SCALE.V_GAIN (m : Nat) : FldAt := ⟨FLD.V_SCALE m, 15, 0⟩
def FLD.MOTOR0.LD (m : Nat) : FldAt := ⟨FLD.MOTOR0 m, 31, 16⟩
def FLD.MOTOR0.LQ (m : Nat) : FldAt := ⟨FLD.MOTOR0 m, 15, 0⟩
def FLD.MOTOR1.PSI_PM (m : Nat) : FldAt := ⟨FLD.MOTOR1 m, 31, 16⟩
def FLD.MOTOR1.LXY (m : Nat) : FldAt := ⟨FLD.MOTOR1 m, 15, 0⟩
def FLD.KP.KP_D (m : Nat) : FldAt := ⟨FLD.KP m, 31, 16⟩
def FLD.KP.KP_Q (m : Nat) : FldAt := ⟨FLD.KP m, 15, 0⟩
def FLD.KI.KI_D (m : Nat) : FldAt := ⟨FLD.KI m, 31, 16⟩
def FLD.KI.KI_Q (m : Nat) : FldAt := ⟨FLD.KI m, 15, 0⟩
def FLD.KXY.KP_XY (m : Nat) : FldAt := ⟨FLD.KXY m, 31, 16⟩
def FLD.KXY.KI_XY (m : Nat) : FldAt := ⟨FLD.KXY m, 15, 0⟩
def FLD.MAP_PSI.PSI_MIN (m : Nat) : FldAt := ⟨FLD.MAP_PSI m, 31, 16⟩
def FLD.MAP_PSI.PSI_MAX (m : Nat) : FldAt := ⟨FLD.MAP_PSI m, 15, 0⟩
def FLD.FW.FW_K (m : Nat) : FldAt := ⟨FLD.FW m, 31, 22⟩
def FLD.FW.XY_VLIM (m : Nat) : FldAt := ⟨FLD.FW m, 21, 12⟩
def FLD.FW.FW_KI (m : Nat) : FldAt := ⟨FLD.FW m, 11, 0⟩
def FLD.MOD.MOD_MAX (m : Nat) : FldAt := ⟨FLD.MOD m, 31, 22⟩
def FLD.MOD.GAP (m : Nat) : FldAt := ⟨FLD.MOD m, 21, 12⟩
def FLD.MOD.MIN_PULSE (m : Nat) : FldAt := ⟨FLD.MOD m, 11, 4⟩
def FLD.NP.K_NP (m : Nat) : FldAt := ⟨FLD.NP m, 31, 16⟩
def FLD.NP.Z_NP_MAX (m : Nat) : FldAt := ⟨FLD.NP m, 15, 6⟩
def FLD.RATING.T_MAX (m : Nat) : FldAt := ⟨FLD.RATING m, 31, 16⟩
def FLD.RATING.I_SET_MAX (m : Nat) : FldAt := ⟨FLD.RATING m, 15, 0⟩
def FLD.TQ_LIM.T_LIM_MOT (m : Nat) : FldAt := ⟨FLD.TQ_LIM m, 31, 16⟩
def FLD.TQ_LIM.T_LIM_GEN (m : Nat) : FldAt := ⟨FLD.TQ_LIM m, 15, 0⟩
def FLD.P_LIM.P_LIM_MOT (m : Nat) : FldAt := ⟨FLD.P_LIM m, 31, 16⟩
def FLD.P_LIM.P_LIM_GEN (m : Nat) : FldAt := ⟨FLD.P_LIM m, 15, 0⟩
def FLD.DERATE.K_HOST (m : Nat) : FldAt := ⟨FLD.DERATE m, 31, 22⟩
def FLD.DERATE.K_TH (m : Nat) : FldAt := ⟨FLD.DERATE m, 21, 12⟩
def FLD.DERATE.K (m : Nat) : FldAt := ⟨FLD.DERATE m, 9, 0⟩
def FLD.TQ_REQ.TQ (m : Nat) : FldAt := ⟨FLD.TQ_REQ m, 31, 0⟩
def FLD.TQ_SLEW.SLEW (m : Nat) : FldAt := ⟨FLD.TQ_SLEW m, 31, 16⟩
def FLD.TQ_SLEW.SS1_SLEW (m : Nat) : FldAt := ⟨FLD.TQ_SLEW m, 15, 0⟩
def FLD.THERM.SLOT (m j : Nat) : FldAt := ⟨FLD.THERM m j, 31, 24⟩
def FLD.THERM.CODE_START (m j : Nat) : FldAt := ⟨FLD.THERM m j, 23, 12⟩
def FLD.THERM.CODE_END (m j : Nat) : FldAt := ⟨FLD.THERM m j, 11, 0⟩
def FLD.FAULT_CFG.OPEN_I (m : Nat) : FldAt := ⟨FLD.FAULT_CFG m, 31, 24⟩
def FLD.FAULT_CFG.OPEN_V (m : Nat) : FldAt := ⟨FLD.FAULT_CFG m, 23, 16⟩
def FLD.FAULT_CFG.SUM_THR (m : Nat) : FldAt := ⟨FLD.FAULT_CFG m, 15, 8⟩
def FLD.POSTFAULT.FIVE_FRAC (m : Nat) : FldAt := ⟨FLD.POSTFAULT m, 31, 22⟩
def FLD.POSTFAULT.ONE_FRAC (m : Nat) : FldAt := ⟨FLD.POSTFAULT m, 21, 12⟩
def FLD.POSTFAULT.N_1SET (m : Nat) : FldAt := ⟨FLD.POSTFAULT m, 11, 0⟩
def FLD.ASC_CFG.ON_RPM (m : Nat) : FldAt := ⟨FLD.ASC_CFG m, 31, 16⟩
def FLD.ASC_CFG.OFF_RPM (m : Nat) : FldAt := ⟨FLD.ASC_CFG m, 15, 0⟩
def FLD.MCH_STAT.MODE (m : Nat) : FldAt := ⟨FLD.MCH_STAT m, 31, 29⟩
def FLD.MCH_STAT.FAULT_PHASE (m : Nat) : FldAt := ⟨FLD.MCH_STAT m, 28, 26⟩
def FLD.MCH_STAT.DEAD_SET (m : Nat) : FldAt := ⟨FLD.MCH_STAT m, 25, 25⟩
def FLD.MCH_STAT.BANK (m : Nat) : FldAt := ⟨FLD.MCH_STAT m, 24, 24⟩
def FLD.MCH_STAT.PATTERN_ASC (m : Nat) : FldAt := ⟨FLD.MCH_STAT m, 23, 23⟩
def FLD.MCH_STAT.SAT_VOLT (m : Nat) : FldAt := ⟨FLD.MCH_STAT m, 22, 22⟩
def FLD.MCH_STAT.FW_LIMIT (m : Nat) : FldAt := ⟨FLD.MCH_STAT m, 21, 21⟩
def FLD.MCH_STAT.REGEN_CLAMP (m : Nat) : FldAt := ⟨FLD.MCH_STAT m, 20, 20⟩
def FLD.MCH_STAT.LIMIT (m : Nat) : FldAt := ⟨FLD.MCH_STAT m, 19, 16⟩
def FLD.MCH_STAT.SPEED (m : Nat) : FldAt := ⟨FLD.MCH_STAT m, 15, 0⟩
def FLD.CNT0.HOLDS (m : Nat) : FldAt := ⟨FLD.CNT0 m, 31, 16⟩
def FLD.CNT0.RECONSTRUCTED (m : Nat) : FldAt := ⟨FLD.CNT0 m, 15, 0⟩
def FLD.CNT1.SAT_EVALS (m : Nat) : FldAt := ⟨FLD.CNT1 m, 31, 16⟩
def FLD.CNT1.MAP_ECC (m : Nat) : FldAt := ⟨FLD.CNT1 m, 15, 8⟩
def FLD.CNT1.SIGN_DEFER (m : Nat) : FldAt := ⟨FLD.CNT1 m, 7, 0⟩
def FLD.TQ_OUT.TQ (m : Nat) : FldAt := ⟨FLD.TQ_OUT m, 31, 0⟩
def FLD.I_DQ_REF.ID_REF (m : Nat) : FldAt := ⟨FLD.I_DQ_REF m, 31, 16⟩
def FLD.I_DQ_REF.IQ_REF (m : Nat) : FldAt := ⟨FLD.I_DQ_REF m, 15, 0⟩
def FLD.I_DQ.ID (m : Nat) : FldAt := ⟨FLD.I_DQ m, 31, 16⟩
def FLD.I_DQ.IQ (m : Nat) : FldAt := ⟨FLD.I_DQ m, 15, 0⟩
def FLD.V_DQ.VD (m : Nat) : FldAt := ⟨FLD.V_DQ m, 31, 16⟩
def FLD.V_DQ.VQ (m : Nat) : FldAt := ⟨FLD.V_DQ m, 15, 0⟩
def FLD.PSI_STAT.PSI_CMD (m : Nat) : FldAt := ⟨FLD.PSI_STAT m, 31, 16⟩
def FLD.PSI_STAT.DPSI (m : Nat) : FldAt := ⟨FLD.PSI_STAT m, 15, 0⟩
def FLD.NP_STAT.DV (m : Nat) : FldAt := ⟨FLD.NP_STAT m, 31, 16⟩
def FLD.NP_STAT.ZNP (m : Nat) : FldAt := ⟨FLD.NP_STAT m, 15, 0⟩
def FLD.AFE_CFG.EN : FldAt := ⟨FLD.AFE_CFG, 31, 31⟩
def FLD.AFE_CFG.GROUP : FldAt := ⟨FLD.AFE_CFG, 30, 26⟩
def FLD.AFE_CFG.L_F : FldAt := ⟨FLD.AFE_CFG, 25, 16⟩
def FLD.AFE_CFG.VFE_REF : FldAt := ⟨FLD.AFE_CFG, 15, 0⟩
def FLD.AFE_SLOT.VA : FldAt := ⟨FLD.AFE_SLOT, 31, 24⟩
def FLD.AFE_SLOT.VB : FldAt := ⟨FLD.AFE_SLOT, 23, 16⟩
def FLD.AFE_SLOT.VC : FldAt := ⟨FLD.AFE_SLOT, 15, 8⟩
def FLD.AFE_SLOT.VFE : FldAt := ⟨FLD.AFE_SLOT, 7, 0⟩
def FLD.AFE_ISLOT.IA : FldAt := ⟨FLD.AFE_ISLOT, 31, 24⟩
def FLD.AFE_ISLOT.IB : FldAt := ⟨FLD.AFE_ISLOT, 23, 16⟩
def FLD.AFE_ISLOT.IC : FldAt := ⟨FLD.AFE_ISLOT, 15, 8⟩
def FLD.AFE_ISLOT.IN : FldAt := ⟨FLD.AFE_ISLOT, 7, 0⟩
def FLD.AFE_SCALE.I_GAIN : FldAt := ⟨FLD.AFE_SCALE, 31, 16⟩
def FLD.AFE_SCALE.V_GAIN : FldAt := ⟨FLD.AFE_SCALE, 15, 0⟩
def FLD.AFE_GAIN.KP_I : FldAt := ⟨FLD.AFE_GAIN, 31, 16⟩
def FLD.AFE_GAIN.KI_I : FldAt := ⟨FLD.AFE_GAIN, 15, 0⟩
def FLD.AFE_VLOOP.KP_V : FldAt := ⟨FLD.AFE_VLOOP, 31, 22⟩
def FLD.AFE_VLOOP.KI_V : FldAt := ⟨FLD.AFE_VLOOP, 21, 12⟩
def FLD.AFE_VLOOP.VFE_RATE : FldAt := ⟨FLD.AFE_VLOOP, 11, 0⟩
def FLD.AFE_LIM.I_GRID_MAX : FldAt := ⟨FLD.AFE_LIM, 31, 22⟩
def FLD.AFE_LIM.Q_SET : FldAt := ⟨FLD.AFE_LIM, 15, 0⟩
def FLD.AFE_WIN.V_MIN : FldAt := ⟨FLD.AFE_WIN, 31, 23⟩
def FLD.AFE_WIN.V_MAX : FldAt := ⟨FLD.AFE_WIN, 22, 14⟩
def FLD.AFE_WIN.F_DEV : FldAt := ⟨FLD.AFE_WIN, 13, 8⟩
def FLD.AFE_WIN.TRIP_MS : FldAt := ⟨FLD.AFE_WIN, 7, 0⟩
def FLD.AFE_STAT.LOCKED : FldAt := ⟨FLD.AFE_STAT, 31, 31⟩
def FLD.AFE_STAT.NPH : FldAt := ⟨FLD.AFE_STAT, 30, 29⟩
def FLD.AFE_STAT.SAT_I : FldAt := ⟨FLD.AFE_STAT, 28, 28⟩
def FLD.AFE_STAT.FREQ : FldAt := ⟨FLD.AFE_STAT, 27, 16⟩
def FLD.AFE_STAT.V_RMS : FldAt := ⟨FLD.AFE_STAT, 15, 8⟩
def FLD.AFE_STAT.HOLDS : FldAt := ⟨FLD.AFE_STAT, 7, 0⟩
def FLD.ACT_GAIN.KP (a : Nat) : FldAt := ⟨FLD.ACT_GAIN a, 31, 16⟩
def FLD.ACT_GAIN.KI (a : Nat) : FldAt := ⟨FLD.ACT_GAIN a, 15, 0⟩
def FLD.ACT_MOTOR.L (a : Nat) : FldAt := ⟨FLD.ACT_MOTOR a, 31, 16⟩
def FLD.ACT_MOTOR.PSI (a : Nat) : FldAt := ⟨FLD.ACT_MOTOR a, 15, 0⟩
def DCL.STATUS.LEVEL : FldAt := ⟨DCL.STATUS, 31, 30⟩
def DCL.STATUS.CHOP_FAULTY : FldAt := ⟨DCL.STATUS, 29, 29⟩
def DCL.STATUS.CHOP_KIND : FldAt := ⟨DCL.STATUS, 28, 27⟩
def DCL.STATUS.CHOP_DEMAND : FldAt := ⟨DCL.STATUS, 26, 26⟩
def DCL.STATUS.CHOP_AVAIL : FldAt := ⟨DCL.STATUS, 25, 25⟩
def DCL.STATUS.REGEN_CLAMP : FldAt := ⟨DCL.STATUS, 24, 24⟩
def DCL.STATUS.SENSE_OK : FldAt := ⟨DCL.STATUS, 23, 23⟩
def DCL.STATUS.LINK_OPEN : FldAt := ⟨DCL.STATUS, 22, 22⟩
def DCL.STATUS.UV : FldAt := ⟨DCL.STATUS, 21, 21⟩
def DCL.STATUS.VDC : FldAt := ⟨DCL.STATUS, 10, 0⟩
def DCL.COUNT.L1_EVENTS : FldAt := ⟨DCL.COUNT, 31, 24⟩
def DCL.COUNT.L2_EVENTS : FldAt := ⟨DCL.COUNT, 23, 16⟩
def DCL.COUNT.CHK_FAILS : FldAt := ⟨DCL.COUNT, 15, 8⟩
def DCL.COUNT.CLAMPS : FldAt := ⟨DCL.COUNT, 7, 0⟩
def DCL.CTRL.EN : FldAt := ⟨DCL.CTRL, 31, 31⟩
def DCL.CTRL.BATT_BLOCK : FldAt := ⟨DCL.CTRL, 30, 30⟩
def DCL.CTRL.CONT_OPEN : FldAt := ⟨DCL.CTRL, 29, 29⟩
def DCL.CTRL.BRK_GROUP : FldAt := ⟨DCL.CTRL, 28, 21⟩
def DCL.CTRL.L3_CELL : FldAt := ⟨DCL.CTRL, 20, 13⟩
def DCL.CTRL.CHG_CELL : FldAt := ⟨DCL.CTRL, 12, 5⟩
def DCL.VSRC.SLOT : FldAt := ⟨DCL.VSRC, 31, 24⟩
def DCL.VSRC.TIMEOUT : FldAt := ⟨DCL.VSRC, 23, 16⟩
def DCL.VSRC.V_GAIN : FldAt := ⟨DCL.VSRC, 15, 0⟩
def DCL.LEVELS.L1 : FldAt := ⟨DCL.LEVELS, 31, 21⟩
def DCL.LEVELS.L2 : FldAt := ⟨DCL.LEVELS, 20, 10⟩
def DCL.LEVELS.HYST : FldAt := ⟨DCL.LEVELS, 9, 0⟩
def DCL.CHOP.V_HOLD : FldAt := ⟨DCL.CHOP, 31, 21⟩
def DCL.CHOP.CHK_CELL : FldAt := ⟨DCL.CHOP, 20, 13⟩
def DCL.UV.UV_LIM : FldAt := ⟨DCL.UV, 31, 21⟩
def DCL.STOP_MASK.GROUPS : FldAt := ⟨DCL.STOP_MASK, 31, 0⟩
def POS.PU_CFG.MODE (k : Nat) : FldAt := ⟨POS.PU_CFG k, 30, 28⟩
def POS.PU_CFG.FILT (k : Nat) : FldAt := ⟨POS.PU_CFG k, 27, 25⟩
def POS.PU_CFG.SPD_EDGES (k : Nat) : FldAt := ⟨POS.PU_CFG k, 24, 19⟩
def POS.PU_CFG.ZERO_TIME (k : Nat) : FldAt := ⟨POS.PU_CFG k, 18, 14⟩
def POS.PU_CFG.LATCH_A_EN (k : Nat) : FldAt := ⟨POS.PU_CFG k, 13, 13⟩
def POS.PU_CFG.LATCH_B_EN (k : Nat) : FldAt := ⟨POS.PU_CFG k, 12, 12⟩
def POS.PU_CFG.SRC_A (k : Nat) : FldAt := ⟨POS.PU_CFG k, 11, 6⟩
def POS.PU_CFG.SRC_B (k : Nat) : FldAt := ⟨POS.PU_CFG k, 5, 0⟩
def POS.MODULUS.ROTARY (k : Nat) : FldAt := ⟨POS.MODULUS k, 31, 31⟩
def POS.MODULUS.ENG (k : Nat) : FldAt := ⟨POS.MODULUS k, 30, 28⟩
def POS.MODULUS.MOD (k : Nat) : FldAt := ⟨POS.MODULUS k, 23, 0⟩
def POS.PU_STAT.STATE (k : Nat) : FldAt := ⟨POS.PU_STAT k, 31, 30⟩
def POS.PU_STAT.SPD_VALID (k : Nat) : FldAt := ⟨POS.PU_STAT k, 29, 29⟩
def POS.PU_STAT.FAULT (k : Nat) : FldAt := ⟨POS.PU_STAT k, 28, 28⟩
def POS.PU_STAT.PT_FAULT (k : Nat) : FldAt := ⟨POS.PU_STAT k, 27, 27⟩
def POS.PU_STAT.ERRORS (k : Nat) : FldAt := ⟨POS.PU_STAT k, 23, 16⟩
def POS.PU_STAT.INDEX_ERR (k : Nat) : FldAt := ⟨POS.PU_STAT k, 15, 8⟩
def POS.PU_STAT.REQ_DROP (k : Nat) : FldAt := ⟨POS.PU_STAT k, 7, 0⟩
def POS.POSN.POSITION (k : Nat) : FldAt := ⟨POS.POSN k, 23, 0⟩
def POS.SPEED.SPEED (k : Nat) : FldAt := ⟨POS.SPEED k, 31, 0⟩
def POS.SSI.DIV (k : Nat) : FldAt := ⟨POS.SSI k, 31, 22⟩
def POS.SSI.NBITS (k : Nat) : FldAt := ⟨POS.SSI k, 21, 16⟩
def POS.SSI.NPOS (k : Nat) : FldAt := ⟨POS.SSI k, 15, 10⟩
def POS.SSI.GRAY (k : Nat) : FldAt := ⟨POS.SSI k, 9, 9⟩
def POS.SSI.PARITY (k : Nat) : FldAt := ⟨POS.SSI k, 8, 7⟩
def POS.SSI.STAT_ERR (k : Nat) : FldAt := ⟨POS.SSI k, 6, 6⟩
def POS.SSI.TM (k : Nat) : FldAt := ⟨POS.SSI k, 5, 0⟩
def POS.QUAD.INDEX_MODE (k : Nat) : FldAt := ⟨POS.QUAD k, 31, 30⟩
def POS.QUAD.INDEX_GATE (k : Nat) : FldAt := ⟨POS.QUAD k, 29, 28⟩
def POS.QUAD.INDEX_VAL (k : Nat) : FldAt := ⟨POS.QUAD k, 23, 0⟩
def POS.HALL.MAP (k : Nat) : FldAt := ⟨POS.HALL k, 31, 14⟩
def POS.HALL.PP (k : Nat) : FldAt := ⟨POS.HALL k, 13, 10⟩
def POS.HALL.OFFSET (k : Nat) : FldAt := ⟨POS.HALL k, 9, 0⟩
def POS.PT_CFG.MODE (k : Nat) : FldAt := ⟨POS.PT_CFG k, 31, 30⟩
def POS.PT_CFG.SRC (k : Nat) : FldAt := ⟨POS.PT_CFG k, 29, 27⟩
def POS.PT_CFG.EMU_LINES (k : Nat) : FldAt := ⟨POS.PT_CFG k, 23, 8⟩
def POS.PT_CFG.EMU_MIN (k : Nat) : FldAt := ⟨POS.PT_CFG k, 7, 0⟩
def POS.PCMP_TGT.TARGET (k u : Nat) : FldAt := ⟨POS.PCMP_TGT k u, 23, 0⟩
def POS.PCMP_CFG.ARM (k u : Nat) : FldAt := ⟨POS.PCMP_CFG k u, 31, 31⟩
def POS.PCMP_CFG.DIR (k u : Nat) : FldAt := ⟨POS.PCMP_CFG k u, 30, 29⟩
def POS.PCMP_CFG.LATE_ACTION (k u : Nat) : FldAt := ⟨POS.PCMP_CFG k u, 28, 28⟩
def POS.PCMP_CFG.REARM (k u : Nat) : FldAt := ⟨POS.PCMP_CFG k u, 27, 27⟩
def POS.PCMP_CFG.EVT (k u : Nat) : FldAt := ⟨POS.PCMP_CFG k u, 26, 26⟩
def POS.PCMP_CFG.STEP (k u : Nat) : FldAt := ⟨POS.PCMP_CFG k u, 23, 0⟩
def POS.PCMP_STAT.MATCH (k u : Nat) : FldAt := ⟨POS.PCMP_STAT k u, 31, 31⟩
def POS.PCMP_STAT.LATE (k u : Nat) : FldAt := ⟨POS.PCMP_STAT k u, 30, 30⟩
def POS.PCMP_STAT.ARMED (k u : Nat) : FldAt := ⟨POS.PCMP_STAT k u, 29, 29⟩
def POS.PCMP_STAT.COUNT (k u : Nat) : FldAt := ⟨POS.PCMP_STAT k u, 15, 0⟩
def POS.RES_CFG.EXC_MULT (j : Nat) : FldAt := ⟨POS.RES_CFG j, 30, 29⟩
def POS.RES_CFG.EXC_AMP (j : Nat) : FldAt := ⟨POS.RES_CFG j, 28, 25⟩
def POS.RES_CFG.RES_PP (j : Nat) : FldAt := ⟨POS.RES_CFG j, 24, 21⟩
def POS.RES_CFG.TB (j : Nat) : FldAt := ⟨POS.RES_CFG j, 20, 17⟩
def POS.RES_CFG.EXC_PHASE (j : Nat) : FldAt := ⟨POS.RES_CFG j, 15, 0⟩
def POS.RES_SLOT.SIN_SLOT (j : Nat) : FldAt := ⟨POS.RES_SLOT j, 31, 24⟩
def POS.RES_SLOT.COS_SLOT (j : Nat) : FldAt := ⟨POS.RES_SLOT j, 23, 16⟩
def POS.RES_SLOT.DELAY (j : Nat) : FldAt := ⟨POS.RES_SLOT j, 15, 8⟩
def POS.RES_TRK.KP_T (j : Nat) : FldAt := ⟨POS.RES_TRK j, 31, 16⟩
def POS.RES_TRK.KI_T (j : Nat) : FldAt := ⟨POS.RES_TRK j, 15, 0⟩
def POS.RES_LIM.AMP_LO (j : Nat) : FldAt := ⟨POS.RES_LIM j, 31, 20⟩
def POS.RES_LIM.AMP_HI (j : Nat) : FldAt := ⟨POS.RES_LIM j, 19, 8⟩
def POS.RES_LIM.TRK_THR (j : Nat) : FldAt := ⟨POS.RES_LIM j, 7, 0⟩
def POS.RES_STAT.AMP (j : Nat) : FldAt := ⟨POS.RES_STAT j, 31, 16⟩
def POS.RES_STAT.SKIPPED (j : Nat) : FldAt := ⟨POS.RES_STAT j, 15, 8⟩
def POS.OBS_CFG.EN (m : Nat) : FldAt := ⟨POS.OBS_CFG m, 31, 31⟩
def POS.OBS_CFG.KIND (m : Nat) : FldAt := ⟨POS.OBS_CFG m, 30, 30⟩
def POS.OBS_CFG.SRC_MODE (m : Nat) : FldAt := ⟨POS.OBS_CFG m, 29, 29⟩
def POS.OBS_CFG.LOSS_N (m : Nat) : FldAt := ⟨POS.OBS_CFG m, 23, 20⟩
def POS.OBS_CFG.LOCK_N (m : Nat) : FldAt := ⟨POS.OBS_CFG m, 19, 12⟩
def POS.OBS_CFG.LOCK_THR (m : Nat) : FldAt := ⟨POS.OBS_CFG m, 11, 4⟩
def POS.OBS_GAIN.KP_O (m : Nat) : FldAt := ⟨POS.OBS_GAIN m, 31, 16⟩
def POS.OBS_GAIN.KI_O (m : Nat) : FldAt := ⟨POS.OBS_GAIN m, 15, 0⟩
def POS.OBS_MOTOR.RS (m : Nat) : FldAt := ⟨POS.OBS_MOTOR m, 31, 16⟩
def POS.OBS_MOTOR.G_C (m : Nat) : FldAt := ⟨POS.OBS_MOTOR m, 15, 0⟩
def POS.OBS_LIM.MIN_RPM (m : Nat) : FldAt := ⟨POS.OBS_LIM m, 31, 22⟩
def POS.OBS_LIM.CATCH_RPM (m : Nat) : FldAt := ⟨POS.OBS_LIM m, 21, 12⟩
def POS.OBS_LIM.CATCH_WIN (m : Nat) : FldAt := ⟨POS.OBS_LIM m, 11, 4⟩
def POS.OBS_LIM.CATCH_VMIN (m : Nat) : FldAt := ⟨POS.OBS_LIM m, 3, 0⟩
def POS.OBS_CATCH.VAB_SLOT (m : Nat) : FldAt := ⟨POS.OBS_CATCH m, 31, 24⟩
def POS.OBS_CATCH.VBC_SLOT (m : Nat) : FldAt := ⟨POS.OBS_CATCH m, 23, 16⟩
def POS.OBS_CATCH.VL_GAIN (m : Nat) : FldAt := ⟨POS.OBS_CATCH m, 15, 0⟩
def POS.OBS_CTRL.EXT_RPM (m : Nat) : FldAt := ⟨POS.OBS_CTRL m, 31, 16⟩
def POS.OBS_CTRL.EXT_AGE (m : Nat) : FldAt := ⟨POS.OBS_CTRL m, 15, 8⟩
def POS.OBS_STAT.LOCKED (m : Nat) : FldAt := ⟨POS.OBS_STAT m, 31, 31⟩
def POS.OBS_STAT.ACTIVE (m : Nat) : FldAt := ⟨POS.OBS_STAT m, 30, 30⟩
def POS.OBS_STAT.CATCH (m : Nat) : FldAt := ⟨POS.OBS_STAT m, 29, 28⟩
def POS.OBS_STAT.LOSSES (m : Nat) : FldAt := ⟨POS.OBS_STAT m, 23, 16⟩
def POS.OBS_STAT.RESID (m : Nat) : FldAt := ⟨POS.OBS_STAT m, 15, 0⟩
def POS.OBS_SPEED.SPEED (m : Nat) : FldAt := ⟨POS.OBS_SPEED m, 31, 0⟩
def ACT.STATUS.REV_REFUSED : FldAt := ⟨ACT.STATUS, 31, 24⟩
def ACT.STATUS.REV_ABORTS : FldAt := ⟨ACT.STATUS, 23, 16⟩
def ACT.STATUS.PARK_REFUSED : FldAt := ⟨ACT.STATUS, 15, 8⟩
def ACT.SPEEDS.PARK_RPM : FldAt := ⟨ACT.SPEEDS, 31, 16⟩
def ACT.SPEEDS.REV_RPM : FldAt := ⟨ACT.SPEEDS, 15, 0⟩
def ACT.PARK.TRAVEL_MIN : FldAt := ⟨ACT.PARK, 31, 24⟩
def ACT.PARK.TRAVEL_MAX : FldAt := ⟨ACT.PARK, 23, 16⟩
def ACT.PARK.HOLD_FRAC : FldAt := ⟨ACT.PARK, 15, 6⟩
def ACT.PUMP.MIN_RPM : FldAt := ⟨ACT.PUMP, 31, 22⟩
def ACT.PUMP.IQ_START : FldAt := ⟨ACT.PUMP, 21, 12⟩
def ACT.PUMP.START_RATE : FldAt := ⟨ACT.PUMP, 11, 0⟩
def ACT.PUMP1.VAB_SLOT : FldAt := ⟨ACT.PUMP1, 31, 24⟩
def ACT.PUMP1.VBC_SLOT : FldAt := ⟨ACT.PUMP1, 23, 16⟩
def ACT.PUMP1.RS : FldAt := ⟨ACT.PUMP1, 15, 0⟩
def ACT.GEAR.EN (i : Nat) : FldAt := ⟨ACT.GEAR i, 31, 31⟩
def ACT.GEAR.REVERSE (i : Nat) : FldAt := ⟨ACT.GEAR i, 30, 30⟩
def ACT.GEAR.NEUTRAL (i : Nat) : FldAt := ⟨ACT.GEAR i, 29, 29⟩
def ACT.GEAR.EDGE (i : Nat) : FldAt := ⟨ACT.GEAR i, 23, 12⟩
def ACT.GEAR.POSITION (i : Nat) : FldAt := ⟨ACT.GEAR i, 11, 0⟩
def ACT.CFG.EN (a : Nat) : FldAt := ⟨ACT.CFG a, 31, 31⟩
def ACT.CFG.GROUP (a : Nat) : FldAt := ⟨ACT.CFG a, 30, 26⟩
def ACT.CFG.PU (a : Nat) : FldAt := ⟨ACT.CFG a, 25, 23⟩
def ACT.CFG.POLE_PAIRS (a : Nat) : FldAt := ⟨ACT.CFG a, 22, 19⟩
def ACT.CFG.HOLD (a : Nat) : FldAt := ⟨ACT.CFG a, 18, 18⟩
def ACT.CFG.VBUS_SLOT (a : Nat) : FldAt := ⟨ACT.CFG a, 15, 8⟩
def ACT.CFG.IU_SLOT (a : Nat) : FldAt := ⟨ACT.CFG a, 7, 0⟩
def ACT.SLOTS.IV_SLOT (a : Nat) : FldAt := ⟨ACT.SLOTS a, 31, 24⟩
def ACT.SLOTS.IW_SLOT (a : Nat) : FldAt := ⟨ACT.SLOTS a, 23, 16⟩
def ACT.SLOTS.I_GAIN (a : Nat) : FldAt := ⟨ACT.SLOTS a, 15, 0⟩
def ACT.SCALE.I_OFFSET (a : Nat) : FldAt := ⟨ACT.SCALE a, 31, 16⟩
def ACT.SCALE.V_GAIN (a : Nat) : FldAt := ⟨ACT.SCALE a, 15, 0⟩
def ACT.LIMITS.IQ_MAX (a : Nat) : FldAt := ⟨ACT.LIMITS a, 31, 22⟩
def ACT.LIMITS.SPD_MAX (a : Nat) : FldAt := ⟨ACT.LIMITS a, 21, 12⟩
def ACT.LIMITS.DUTY_MAX (a : Nat) : FldAt := ⟨ACT.LIMITS a, 11, 2⟩
def ACT.LOOP.KP_POS (a : Nat) : FldAt := ⟨ACT.LOOP a, 31, 16⟩
def ACT.LOOP.KP_SPD (a : Nat) : FldAt := ⟨ACT.LOOP a, 15, 8⟩
def ACT.LOOP.KI_SPD (a : Nat) : FldAt := ⟨ACT.LOOP a, 7, 0⟩
def ACT.MOVE.TOL (a : Nat) : FldAt := ⟨ACT.MOVE a, 31, 20⟩
def ACT.MOVE.MOVE_TMAX (a : Nat) : FldAt := ⟨ACT.MOVE a, 19, 8⟩
def ACT.MOVE.STALL_MS (a : Nat) : FldAt := ⟨ACT.MOVE a, 7, 0⟩
def ACT.CMD.CMD (a : Nat) : FldAt := ⟨ACT.CMD a, 31, 28⟩
def ACT.CMD.TARGET (a : Nat) : FldAt := ⟨ACT.CMD a, 23, 0⟩
def ACT.STAT.STATE (a : Nat) : FldAt := ⟨ACT.STAT a, 31, 30⟩
def ACT.STAT.SAT_VOLT (a : Nat) : FldAt := ⟨ACT.STAT a, 29, 29⟩
def ACT.STAT.PARK (a : Nat) : FldAt := ⟨ACT.STAT a, 28, 27⟩
def ACT.STAT.ARRIVING (a : Nat) : FldAt := ⟨ACT.STAT a, 26, 26⟩
def ACT.STAT.SUPERSEDED (a : Nat) : FldAt := ⟨ACT.STAT a, 23, 16⟩
def ACT.STAT.HOLDS (a : Nat) : FldAt := ⟨ACT.STAT a, 15, 8⟩
def ACT.STAT.SAT_EVALS (a : Nat) : FldAt := ⟨ACT.STAT a, 7, 0⟩
def ACT.CPL_CFG.EN : FldAt := ⟨ACT.CPL_CFG, 31, 31⟩
def ACT.CPL_CFG.GROUP : FldAt := ⟨ACT.CPL_CFG, 30, 26⟩
def ACT.CPL_CFG.DUTY : FldAt := ⟨ACT.CPL_CFG, 23, 14⟩
def ACT.CPL_CFG.TMAX : FldAt := ⟨ACT.CPL_CFG, 13, 4⟩
def ACT.CPL_CFG.SW_POL : FldAt := ⟨ACT.CPL_CFG, 3, 3⟩
def ACT.CPL_CMD.CMD : FldAt := ⟨ACT.CPL_CMD, 31, 30⟩
def ACT.CPL_STAT.STATE : FldAt := ⟨ACT.CPL_STAT, 31, 29⟩
def ACT.CPL_STAT.SW : FldAt := ⟨ACT.CPL_STAT, 28, 28⟩
def ACT.CPL_STAT.INHIBIT : FldAt := ⟨ACT.CPL_STAT, 27, 27⟩
def ACT.CPL_STAT.FAILS : FldAt := ⟨ACT.CPL_STAT, 15, 8⟩
def ACT.CPL_STAT.SW_LOSSES : FldAt := ⟨ACT.CPL_STAT, 7, 0⟩
def ACT.TRAVEL.TRAVEL (a : Nat) : FldAt := ⟨ACT.TRAVEL a, 31, 0⟩
def CHG.STATUS.STATE : FldAt := ⟨CHG.STATUS, 31, 28⟩
def CHG.STATUS.START_PEND : FldAt := ⟨CHG.STATUS, 27, 27⟩
def CHG.STATUS.CP_S2 : FldAt := ⟨CHG.STATUS, 26, 26⟩
def CHG.STATUS.RLY : FldAt := ⟨CHG.STATUS, 25, 22⟩
def CHG.PILOT.STATE : FldAt := ⟨CHG.PILOT, 31, 29⟩
def CHG.PILOT.PWM : FldAt := ⟨CHG.PILOT, 28, 28⟩
def CHG.PILOT.DUTY : FldAt := ⟨CHG.PILOT, 27, 18⟩
def CHG.PILOT.I_CP : FldAt := ⟨CHG.PILOT, 17, 8⟩
def CHG.PP.R : FldAt := ⟨CHG.PP, 31, 16⟩
def CHG.PP.I_PP : FldAt := ⟨CHG.PP, 15, 8⟩
def CHG.CFG.EN : FldAt := ⟨CHG.CFG, 31, 31⟩
def CHG.CFG.DIR : FldAt := ⟨CHG.CFG, 30, 30⟩
def CHG.CFG.V2G_EN : FldAt := ⟨CHG.CFG, 29, 29⟩
def CHG.CFG.BTN_REQ : FldAt := ⟨CHG.CFG, 28, 28⟩
def CHG.CFG.AFE_GROUP : FldAt := ⟨CHG.CFG, 27, 20⟩
def CHG.CFG.DAB_GROUP : FldAt := ⟨CHG.CFG, 19, 12⟩
def CHG.CFG.LED_I : FldAt := ⟨CHG.CFG, 11, 7⟩
def CHG.CMD.CMD : FldAt := ⟨CHG.CMD, 31, 28⟩
def CHG.REQ.I_REQ : FldAt := ⟨CHG.REQ, 31, 16⟩
def CHG.REQ.I_GRID_HOST : FldAt := ⟨CHG.REQ, 15, 0⟩
def CHG.LIMITS.EFF : FldAt := ⟨CHG.LIMITS, 31, 22⟩
def CHG.LIMITS.I_CELL : FldAt := ⟨CHG.LIMITS, 21, 14⟩
def CHG.LIMITS.I_SCALE : FldAt := ⟨CHG.LIMITS, 13, 0⟩
def CHG.TIMES.PRE_MS : FldAt := ⟨CHG.TIMES, 31, 22⟩
def CHG.TIMES.RLY_OP_MS : FldAt := ⟨CHG.TIMES, 21, 14⟩
def CHG.TIMES.RLY_REL_MS : FldAt := ⟨CHG.TIMES, 13, 6⟩
def CHG.COUNT.PRESSES : FldAt := ⟨CHG.COUNT, 31, 24⟩
def CHG.COUNT.SESSIONS : FldAt := ⟨CHG.COUNT, 23, 16⟩
def CHG.COUNT.EMERGENCY : FldAt := ⟨CHG.COUNT, 15, 8⟩
def CHG.COUNT.WELDS : FldAt := ⟨CHG.COUNT, 7, 0⟩
def MTR.STATUS.KEY_VALID : FldAt := ⟨MTR.STATUS, 31, 31⟩
def MTR.STATUS.SESSION_OPEN : FldAt := ⟨MTR.STATUS, 30, 30⟩
def MTR.STATUS.RING_WARN : FldAt := ⟨MTR.STATUS, 29, 29⟩
def MTR.STATUS.RING_FULL : FldAt := ⟨MTR.STATUS, 28, 28⟩
def MTR.STATUS.REG_FAULT : FldAt := ⟨MTR.STATUS, 27, 27⟩
def MTR.STATUS.WITHHELD : FldAt := ⟨MTR.STATUS, 15, 0⟩
def MTR.LOST.LOST_SUBWIN : FldAt := ⟨MTR.LOST, 31, 0⟩
def MTR.CFG.INTERVAL : FldAt := ⟨MTR.CFG, 31, 26⟩
def MTR.ACK.RSEQ : FldAt := ⟨MTR.ACK, 31, 0⟩
def MTR.LAST.RSEQ : FldAt := ⟨MTR.LAST, 31, 0⟩
def MTR.TIME_LO.UTC : FldAt := ⟨MTR.TIME_LO, 31, 0⟩
def MTR.TIME_HI.UTC : FldAt := ⟨MTR.TIME_HI, 31, 0⟩
def CNV.BUCK_CFG.EN : FldAt := ⟨CNV.BUCK_CFG, 31, 31⟩
def CNV.BUCK_CFG.MODE : FldAt := ⟨CNV.BUCK_CFG, 30, 30⟩
def CNV.BUCK_CFG.PHASES : FldAt := ⟨CNV.BUCK_CFG, 29, 27⟩
def CNV.BUCK_CFG.RG : FldAt := ⟨CNV.BUCK_CFG, 26, 24⟩
def CNV.BUCK_CFG.DCELL : FldAt := ⟨CNV.BUCK_CFG, 23, 16⟩
def CNV.BUCK_CFG.DMAX : FldAt := ⟨CNV.BUCK_CFG, 15, 6⟩
def CNV.BUCK_PK.ZERO_CODE : FldAt := ⟨CNV.BUCK_PK, 31, 22⟩
def CNV.BUCK_PK.ILIM_CODE : FldAt := ⟨CNV.BUCK_PK, 21, 12⟩
def CNV.BUCK_PK.DE_THR : FldAt := ⟨CNV.BUCK_PK, 11, 2⟩
def CNV.BUCK_CELLS.PK_FIRST : FldAt := ⟨CNV.BUCK_CELLS, 31, 24⟩
def CNV.BUCK_CELLS.ZCD_FIRST : FldAt := ⟨CNV.BUCK_CELLS, 23, 16⟩
def CNV.BUCK_CELLS.TRIM_BAND : FldAt := ⟨CNV.BUCK_CELLS, 15, 8⟩
def CNV.BUCK_CELLS.TRIM_MAX : FldAt := ⟨CNV.BUCK_CELLS, 7, 4⟩
def CNV.BUCK_SLOT.ISLOT_FIRST : FldAt := ⟨CNV.BUCK_SLOT, 31, 24⟩
def CNV.BUCK_SLOT.DE_ENTER : FldAt := ⟨CNV.BUCK_SLOT, 23, 16⟩
def CNV.BUCK_SLOT.DE_EXIT : FldAt := ⟨CNV.BUCK_SLOT, 15, 8⟩
def CNV.HICCUP.HICCUP_N : FldAt := ⟨CNV.HICCUP, 31, 20⟩
def CNV.HICCUP.OFF_MS : FldAt := ⟨CNV.HICCUP, 19, 8⟩
def CNV.VSET.VOUT : FldAt := ⟨CNV.VSET, 31, 16⟩
def CNV.VSET.RATE : FldAt := ⟨CNV.VSET, 15, 0⟩
def CNV.VSCALE.VCELL : FldAt := ⟨CNV.VSCALE, 31, 24⟩
def CNV.VSCALE.VSCALE : FldAt := ⟨CNV.VSCALE, 23, 0⟩
def CNV.BUCK_STAT.DE_ACTIVE : FldAt := ⟨CNV.BUCK_STAT, 31, 31⟩
def CNV.BUCK_STAT.HICCUP : FldAt := ⟨CNV.BUCK_STAT, 30, 30⟩
def CNV.BUCK_STAT.ROT : FldAt := ⟨CNV.BUCK_STAT, 29, 27⟩
def CNV.BUCK_STAT.HICCUPS : FldAt := ⟨CNV.BUCK_STAT, 23, 16⟩
def CNV.BUCK_STAT.LIMITED : FldAt := ⟨CNV.BUCK_STAT, 15, 0⟩
def CNV.TRIMS.TRIM : FldAt := ⟨CNV.TRIMS, 31, 0⟩
def LVP.STATUS.CSTATE : FldAt := ⟨LVP.STATUS, 31, 29⟩
def LVP.STATUS.SRC : FldAt := ⟨LVP.STATUS, 28, 27⟩
def LVP.STATUS.SRC_CLASS : FldAt := ⟨LVP.STATUS, 26, 25⟩
def LVP.STATUS.FOLDBACK : FldAt := ⟨LVP.STATUS, 24, 24⟩
def LVP.STATUS.BSW : FldAt := ⟨LVP.STATUS, 23, 23⟩
def LVP.STATUS.TIMER_EXP : FldAt := ⟨LVP.STATUS, 22, 22⟩
def LVP.STATUS.OCV : FldAt := ⟨LVP.STATUS, 15, 0⟩
def LVP.CFG.EN : FldAt := ⟨LVP.CFG, 31, 31⟩
def LVP.CFG.IN_MODE : FldAt := ⟨LVP.CFG, 30, 30⟩
def LVP.CFG.ICELL : FldAt := ⟨LVP.CFG, 29, 22⟩
def LVP.CFG.INCELL : FldAt := ⟨LVP.CFG, 21, 14⟩
def LVP.CFG.BUS48_SLOT : FldAt := ⟨LVP.CFG, 13, 6⟩
def LVP.SLOTS.VBATT_SLOT : FldAt := ⟨LVP.SLOTS, 31, 24⟩
def LVP.SLOTS.IBATT_SLOT : FldAt := ⟨LVP.SLOTS, 23, 16⟩
def LVP.SLOTS.TBATT_SLOT : FldAt := ⟨LVP.SLOTS, 15, 8⟩
def LVP.SLOTS.SRC_SLOT : FldAt := ⟨LVP.SLOTS, 7, 0⟩
def LVP.SCALE.V_GAIN : FldAt := ⟨LVP.SCALE, 31, 16⟩
def LVP.SCALE.I_GAIN : FldAt := ⟨LVP.SCALE, 15, 0⟩
def LVP.CHG.I_CHG : FldAt := ⟨LVP.CHG, 31, 20⟩
def LVP.CHG.I_TERM : FldAt := ⟨LVP.CHG, 19, 8⟩
def LVP.VLIM.V_CV : FldAt := ⟨LVP.VLIM, 31, 16⟩
def LVP.VLIM.V_FULL : FldAt := ⟨LVP.VLIM, 15, 0⟩
def LVP.VLIM1.V_RECHG : FldAt := ⟨LVP.VLIM1, 31, 16⟩
def LVP.VLIM1.V_BUS : FldAt := ⟨LVP.VLIM1, 15, 0⟩
def LVP.PULSE.PULSE_S : FldAt := ⟨LVP.PULSE, 31, 20⟩
def LVP.PULSE.REST_MS : FldAt := ⟨LVP.PULSE, 19, 8⟩
def LVP.TIMER.LIMIT : FldAt := ⟨LVP.TIMER, 31, 20⟩
def LVP.TIMER.FOLD_FRAC : FldAt := ⟨LVP.TIMER, 19, 10⟩
def LVP.FOLD.FOLD_ON : FldAt := ⟨LVP.FOLD, 31, 16⟩
def LVP.FOLD.FOLD_OFF : FldAt := ⟨LVP.FOLD, 15, 0⟩
def LVP.TIMER_STAT.ELAPSED : FldAt := ⟨LVP.TIMER_STAT, 31, 16⟩
def LVP.TIMER_STAT.EXPIRIES : FldAt := ⟨LVP.TIMER_STAT, 15, 8⟩
def LVP.BL.BL_STEP : FldAt := ⟨LVP.BL, 31, 16⟩
def LVP.BL.BL_I : FldAt := ⟨LVP.BL, 15, 0⟩
def LVP.VIN_REG.VIN_REG : FldAt := ⟨LVP.VIN_REG, 31, 16⟩
def LVP.BTN.LONG_S : FldAt := ⟨LVP.BTN, 31, 24⟩
def LVP.BTN.BSW_OFF_MS : FldAt := ⟨LVP.BTN, 23, 8⟩
def LVP.CMD.CMD : FldAt := ⟨LVP.CMD, 31, 28⟩
def LVP.INT_STAT.BATT_LOST : FldAt := ⟨LVP.INT_STAT, 7, 7⟩
def LVP.INT_STAT.TIMER : FldAt := ⟨LVP.INT_STAT, 6, 6⟩
def LVP.INT_STAT.SRC_CHANGE : FldAt := ⟨LVP.INT_STAT, 5, 5⟩
def LVP.INT_STAT.CHG_DONE : FldAt := ⟨LVP.INT_STAT, 4, 4⟩
def LVP.INT_STAT.HICCUP : FldAt := ⟨LVP.INT_STAT, 3, 3⟩
def LVP.INT_STAT.BSW_CHANGE : FldAt := ⟨LVP.INT_STAT, 2, 2⟩
def LVP.INT_STAT.LONG_PRESS : FldAt := ⟨LVP.INT_STAT, 1, 1⟩
def LVP.INT_EN.BATT_LOST : FldAt := ⟨LVP.INT_EN, 7, 7⟩
def LVP.INT_EN.TIMER : FldAt := ⟨LVP.INT_EN, 6, 6⟩
def LVP.INT_EN.SRC_CHANGE : FldAt := ⟨LVP.INT_EN, 5, 5⟩
def LVP.INT_EN.CHG_DONE : FldAt := ⟨LVP.INT_EN, 4, 4⟩
def LVP.INT_EN.HICCUP : FldAt := ⟨LVP.INT_EN, 3, 3⟩
def LVP.INT_EN.BSW_CHANGE : FldAt := ⟨LVP.INT_EN, 2, 2⟩
def LVP.INT_EN.LONG_PRESS : FldAt := ⟨LVP.INT_EN, 1, 1⟩
def LVP.SRC_LIM.CODE_LO (t : Nat) : FldAt := ⟨LVP.SRC_LIM t, 31, 24⟩
def LVP.SRC_LIM.CODE_HI (t : Nat) : FldAt := ⟨LVP.SRC_LIM t, 23, 16⟩
def LVP.SRC_LIM.I_IN_LIM (t : Nat) : FldAt := ⟨LVP.SRC_LIM t, 15, 0⟩
def SAF.STATUS.DIAG_OK : FldAt := ⟨SAF.STATUS, 31, 31⟩
def SAF.STATUS.DEGRADED : FldAt := ⟨SAF.STATUS, 30, 30⟩
def SAF.STATUS.MSG_OK : FldAt := ⟨SAF.STATUS, 29, 29⟩
def SAF.STATUS.ACTIVE : FldAt := ⟨SAF.STATUS, 23, 16⟩
def SAF.CFG_CRC.CRC : FldAt := ⟨SAF.CFG_CRC, 31, 0⟩
def SAF.CFG_EXPECT.CRC : FldAt := ⟨SAF.CFG_EXPECT, 31, 0⟩
def SAF.CHANGE.OVERWRITTEN : FldAt := ⟨SAF.CHANGE, 31, 16⟩
def SAF.CHANGE.ENTRIES : FldAt := ⟨SAF.CHANGE, 10, 0⟩
def SAF.HOST_REQ.STO : FldAt := ⟨SAF.HOST_REQ, 31, 31⟩
def SAF.HOST_REQ.SS1 : FldAt := ⟨SAF.HOST_REQ, 30, 30⟩
def SAF.HOST_REQ.SCS : FldAt := ⟨SAF.HOST_REQ, 29, 29⟩
def SAF.DIAG.LOGIC_MISMATCH : FldAt := ⟨SAF.DIAG, 31, 31⟩
def SAF.DIAG.HB_LOST : FldAt := ⟨SAF.DIAG, 30, 30⟩
def SAF.DIAG.FORCE_TEST_FAIL : FldAt := ⟨SAF.DIAG, 29, 29⟩
def SAF.DIAG.FT_GROUP : FldAt := ⟨SAF.DIAG, 28, 24⟩
def SAF.DIAG.HB_COUNT : FldAt := ⟨SAF.DIAG, 23, 16⟩
def SAF.MSG_CFG.EN : FldAt := ⟨SAF.MSG_CFG, 31, 31⟩
def SAF.MSG_CFG.LOSS : FldAt := ⟨SAF.MSG_CFG, 30, 30⟩
def SAF.MSG_CFG.CTRL : FldAt := ⟨SAF.MSG_CFG, 29, 28⟩
def SAF.MSG_CFG.CAN_ID : FldAt := ⟨SAF.MSG_CFG, 27, 17⟩
def SAF.MSG_CFG.TIMEOUT : FldAt := ⟨SAF.MSG_CFG, 15, 8⟩
def SAF.MSG_CFG.SKEW : FldAt := ⟨SAF.MSG_CFG, 7, 4⟩
def SAF.MSG_CFG.DELTA_MAX : FldAt := ⟨SAF.MSG_CFG, 3, 0⟩
def SAF.MSG_CFG1.DATA_ID : FldAt := ⟨SAF.MSG_CFG1, 31, 16⟩
def SAF.MSG_CFG1.UDP_PORT : FldAt := ⟨SAF.MSG_CFG1, 15, 0⟩
def SAF.MSG_STAT.CAN_LEG : FldAt := ⟨SAF.MSG_STAT, 31, 31⟩
def SAF.MSG_STAT.ETH_LEG : FldAt := ⟨SAF.MSG_STAT, 30, 30⟩
def SAF.MSG_STAT.COUNTER : FldAt := ⟨SAF.MSG_STAT, 15, 0⟩
def SAF.MSG_ERR.CRC_ERR : FldAt := ⟨SAF.MSG_ERR, 31, 24⟩
def SAF.MSG_ERR.SEQ_ERR : FldAt := ⟨SAF.MSG_ERR, 23, 16⟩
def SAF.MSG_ERR.MISMATCH : FldAt := ⟨SAF.MSG_ERR, 15, 8⟩
def SAF.MSG_ERR.TIMEOUTS : FldAt := ⟨SAF.MSG_ERR, 7, 0⟩
def SAF.STL.STL_CFG : FldAt := ⟨SAF.STL, 31, 16⟩
def SAF.STL.STL_MARGIN : FldAt := ⟨SAF.STL, 15, 0⟩
def SAF.FUNC_CFG.EN (f : Nat) : FldAt := ⟨SAF.FUNC_CFG f, 31, 31⟩
def SAF.FUNC_CFG.RESTART (f : Nat) : FldAt := ⟨SAF.FUNC_CFG f, 30, 30⟩
def SAF.FUNC_CFG.MSG (f : Nat) : FldAt := ⟨SAF.FUNC_CFG f, 29, 29⟩
def SAF.FUNC_CFG.SIN_MASK (f : Nat) : FldAt := ⟨SAF.FUNC_CFG f, 23, 16⟩
def SAF.FUNC_CFG.PARAM (f : Nat) : FldAt := ⟨SAF.FUNC_CFG f, 15, 0⟩
def SAF.FUNC_GRP.GROUPS (f : Nat) : FldAt := ⟨SAF.FUNC_GRP f, 31, 0⟩
def SAF.FUNC_STAT.ACTIVE (f : Nat) : FldAt := ⟨SAF.FUNC_STAT f, 31, 31⟩
def SAF.FUNC_STAT.ACK_WAIT (f : Nat) : FldAt := ⟨SAF.FUNC_STAT f, 30, 30⟩
def SAF.FUNC_STAT.SOURCES (f : Nat) : FldAt := ⟨SAF.FUNC_STAT f, 23, 16⟩
def SAF.FUNC_STAT.COUNT (f : Nat) : FldAt := ⟨SAF.FUNC_STAT f, 15, 0⟩
def SAF.GRP.FUNC (g : Nat) : FldAt := ⟨SAF.GRP g, 31, 28⟩
def SAF.GRP.HELD (g : Nat) : FldAt := ⟨SAF.GRP g, 27, 27⟩
def SAF.GRP.ASC (g : Nat) : FldAt := ⟨SAF.GRP g, 26, 26⟩
def SAF.SIN.EN (i : Nat) : FldAt := ⟨SAF.SIN i, 31, 31⟩
def SAF.SIN.PAIR (i : Nat) : FldAt := ⟨SAF.SIN i, 30, 30⟩
def SAF.SIN.SUP (i : Nat) : FldAt := ⟨SAF.SIN i, 29, 28⟩
def SAF.SIN.FILTER (i : Nat) : FldAt := ⟨SAF.SIN i, 27, 24⟩
def SAF.SIN.DISC (i : Nat) : FldAt := ⟨SAF.SIN i, 23, 15⟩
def SAF.SIN.DEMAND (i : Nat) : FldAt := ⟨SAF.SIN i, 14, 14⟩
def SAF.SIN.LEVEL (i : Nat) : FldAt := ⟨SAF.SIN i, 13, 13⟩
def SAF.SIN.FAULT (i : Nat) : FldAt := ⟨SAF.SIN i, 12, 12⟩
def SAF.SIN.COUNT (i : Nat) : FldAt := ⟨SAF.SIN i, 7, 0⟩
def SAF.SSUP.EN (k : Nat) : FldAt := ⟨SAF.SSUP k, 31, 31⟩
def SAF.SSUP.OC (k : Nat) : FldAt := ⟨SAF.SSUP k, 30, 30⟩
def SAF.SSUP.TP_PERIOD (k : Nat) : FldAt := ⟨SAF.SSUP k, 23, 16⟩
def SAF.SSUP.PULSES (k : Nat) : FldAt := ⟨SAF.SSUP k, 15, 0⟩
def SAF.SLS.SLS_RPM (a : Nat) : FldAt := ⟨SAF.SLS a, 31, 16⟩
def SAF.SLS.VIOL (a : Nat) : FldAt := ⟨SAF.SLS a, 15, 8⟩
def FLG.STATUS.OVERWRITTEN : FldAt := ⟨FLG.STATUS, 31, 16⟩
def FLG.STATUS.ENTRIES : FldAt := ⟨FLG.STATUS, 12, 0⟩
def FLG.STATUS1.LOG_LOST : FldAt := ⟨FLG.STATUS1, 31, 16⟩
def FLG.STATUS1.LASTING_SRC : FldAt := ⟨FLG.STATUS1, 8, 0⟩
def FLG.LASTING.INSTANCES (s : Nat) : FldAt := ⟨FLG.LASTING s, 31, 0⟩
def FLG.OCCUR.OCCURRENCES (s : Nat) : FldAt := ⟨FLG.OCCUR s, 31, 16⟩
def FLG.OCCUR.LASTINGS (s : Nat) : FldAt := ⟨FLG.OCCUR s, 15, 8⟩
def FLG.OCCUR.LAST_INSTANCE (s : Nat) : FldAt := ⟨FLG.OCCUR s, 7, 0⟩
def CHD.STATUS.CD0 : FldAt := ⟨CHD.STATUS, 30, 28⟩
def CHD.STATUS.CD1 : FldAt := ⟨CHD.STATUS, 26, 24⟩
def CHD.STATUS.CD2 : FldAt := ⟨CHD.STATUS, 22, 20⟩
def CHD.CNT.MISMATCHES (n : Nat) : FldAt := ⟨CHD.CNT n, 31, 16⟩
def CHD.CNT.RESTARTS (n : Nat) : FldAt := ⟨CHD.CNT n, 15, 8⟩
def CHD.CNT.SPLITS (n : Nat) : FldAt := ⟨CHD.CNT n, 7, 0⟩
def CHD.CKPT.RESTART_MAX (n : Nat) : FldAt := ⟨CHD.CKPT n, 31, 16⟩
def CHD.CKPT.CKPT_COUNT (n : Nat) : FldAt := ⟨CHD.CKPT n, 15, 0⟩
def MEM.STATUS.SCRUB_ACTIVE : FldAt := ⟨MEM.STATUS, 31, 31⟩
def MEM.STATUS.WIPE_PENDING : FldAt := ⟨MEM.STATUS, 30, 30⟩
def MEM.STATUS.SPARE_FREE : FldAt := ⟨MEM.STATUS, 29, 19⟩
def MEM.STATUS.RETIRED : FldAt := ⟨MEM.STATUS, 18, 8⟩
def MEM.STATUS.MERGE_USED : FldAt := ⟨MEM.STATUS, 7, 4⟩
def MEM.STATUS.WIPE_OK : FldAt := ⟨MEM.STATUS, 0, 0⟩
def MEM.SRAM.CORR : FldAt := ⟨MEM.SRAM, 31, 16⟩
def MEM.SRAM.UNCORR : FldAt := ⟨MEM.SRAM, 15, 9⟩
def MEM.SRAM.ROWS_FREE : FldAt := ⟨MEM.SRAM, 8, 0⟩
def MEM.MRAM.OUTER_PAGES : FldAt := ⟨MEM.MRAM, 31, 16⟩
def MEM.MRAM.REFRESHED : FldAt := ⟨MEM.MRAM, 15, 8⟩
def MEM.MRAM.UNCORR : FldAt := ⟨MEM.MRAM, 7, 0⟩
def MEM.MRAM1.INNER_CORR : FldAt := ⟨MEM.MRAM1, 31, 0⟩
def MEM.CFG.REWRITE_AT : FldAt := ⟨MEM.CFG, 31, 25⟩
def MEM.CFG.SPARE_WARN : FldAt := ⟨MEM.CFG, 24, 12⟩
def MEM.WEAR.MAX_WRITES : FldAt := ⟨MEM.WEAR, 31, 0⟩
def MEM.WEAR_PAGE.PAGE : FldAt := ⟨MEM.WEAR_PAGE, 31, 16⟩
def MEM.WEAR_CFG.WEAR_WARN : FldAt := ⟨MEM.WEAR_CFG, 31, 16⟩
def MEM.REGION.T (r : Nat) : FldAt := ⟨MEM.REGION r, 31, 26⟩
def MEM.REGION.MIRRORED (r : Nat) : FldAt := ⟨MEM.REGION r, 25, 25⟩
def MEM.REGION.FIRST_PAGE (r : Nat) : FldAt := ⟨MEM.REGION r, 15, 0⟩
def MEM.ERR0.PAGE (e : Nat) : FldAt := ⟨MEM.ERR0 e, 31, 16⟩
def MEM.ERR0.MAX_BITS (e : Nat) : FldAt := ⟨MEM.ERR0 e, 15, 8⟩
def MEM.ERR0.COUNT (e : Nat) : FldAt := ⟨MEM.ERR0 e, 7, 0⟩
def MEM.ERR1.UNCORR (e : Nat) : FldAt := ⟨MEM.ERR1 e, 31, 31⟩
def MEM.ERR1.RETIRED (e : Nat) : FldAt := ⟨MEM.ERR1 e, 30, 30⟩
def MEM.ERR1.TIME (e : Nat) : FldAt := ⟨MEM.ERR1 e, 29, 0⟩
def BUS.TIME_CFG.EN : FldAt := ⟨BUS.TIME_CFG, 31, 31⟩
def BUS.TIME_CFG.ROLE : FldAt := ⟨BUS.TIME_CFG, 30, 29⟩
def BUS.TIME_CFG.CTRL : FldAt := ⟨BUS.TIME_CFG, 28, 27⟩
def BUS.TIME_CFG.REF_ID : FldAt := ⟨BUS.TIME_CFG, 26, 16⟩
def BUS.TIME_CFG.PERIOD : FldAt := ⟨BUS.TIME_CFG, 15, 8⟩
def BUS.TIME_CFG.STEP_US : FldAt := ⟨BUS.TIME_CFG, 7, 0⟩
def BUS.TIME_STAT.SYNCED : FldAt := ⟨BUS.TIME_STAT, 31, 31⟩
def BUS.TIME_STAT.RATE : FldAt := ⟨BUS.TIME_STAT, 30, 16⟩
def BUS.TIME_STAT.STEPS : FldAt := ⟨BUS.TIME_STAT, 15, 8⟩
def BUS.TIME_STAT.LOSSES : FldAt := ⟨BUS.TIME_STAT, 7, 0⟩
def BUS.TIME_LO.TIME : FldAt := ⟨BUS.TIME_LO, 31, 0⟩
def BUS.TIME_HI.TIME : FldAt := ⟨BUS.TIME_HI, 31, 0⟩
def BUS.CTRL.EN (n : Nat) : FldAt := ⟨BUS.CTRL n, 31, 31⟩
def BUS.CTRL.MODE (n : Nat) : FldAt := ⟨BUS.CTRL n, 30, 29⟩
def BUS.CTRL.FD_EN (n : Nat) : FldAt := ⟨BUS.CTRL n, 28, 28⟩
def BUS.CTRL.XL_EN (n : Nat) : FldAt := ⟨BUS.CTRL n, 27, 27⟩
def BUS.CTRL.AUTO_REC (n : Nat) : FldAt := ⟨BUS.CTRL n, 26, 26⟩
def BUS.CTRL.RECOVER (n : Nat) : FldAt := ⟨BUS.CTRL n, 25, 25⟩
def BUS.CTRL.TMS (n : Nat) : FldAt := ⟨BUS.CTRL n, 24, 24⟩
def BUS.CTRL.HOST_HOLD (n : Nat) : FldAt := ⟨BUS.CTRL n, 23, 23⟩
def BUS.CTRL.WIN_MODE (n : Nat) : FldAt := ⟨BUS.CTRL n, 22, 22⟩
def BUS.CTRL.LIFE_MS (n : Nat) : FldAt := ⟨BUS.CTRL n, 15, 0⟩
def BUS.NBT.BRP (n : Nat) : FldAt := ⟨BUS.NBT n, 31, 27⟩
def BUS.NBT.TSEG1 (n : Nat) : FldAt := ⟨BUS.NBT n, 26, 19⟩
def BUS.NBT.TSEG2 (n : Nat) : FldAt := ⟨BUS.NBT n, 18, 12⟩
def BUS.NBT.SJW (n : Nat) : FldAt := ⟨BUS.NBT n, 11, 5⟩
def BUS.DBT.BRP (n : Nat) : FldAt := ⟨BUS.DBT n, 31, 27⟩
def BUS.DBT.TSEG1 (n : Nat) : FldAt := ⟨BUS.DBT n, 26, 21⟩
def BUS.DBT.TSEG2 (n : Nat) : FldAt := ⟨BUS.DBT n, 20, 16⟩
def BUS.DBT.SJW (n : Nat) : FldAt := ⟨BUS.DBT n, 15, 11⟩
def BUS.DBT.TDCO (n : Nat) : FldAt := ⟨BUS.DBT n, 10, 4⟩
def BUS.XBT.BRP (n : Nat) : FldAt := ⟨BUS.XBT n, 31, 27⟩
def BUS.XBT.TSEG1 (n : Nat) : FldAt := ⟨BUS.XBT n, 26, 21⟩
def BUS.XBT.TSEG2 (n : Nat) : FldAt := ⟨BUS.XBT n, 20, 16⟩
def BUS.XBT.SJW (n : Nat) : FldAt := ⟨BUS.XBT n, 15, 11⟩
def BUS.XBT.TDCO (n : Nat) : FldAt := ⟨BUS.XBT n, 10, 4⟩
def BUS.STAT.STATE (n : Nat) : FldAt := ⟨BUS.STAT n, 31, 30⟩
def BUS.STAT.REC_HELD (n : Nat) : FldAt := ⟨BUS.STAT n, 29, 29⟩
def BUS.STAT.REC (n : Nat) : FldAt := ⟨BUS.STAT n, 23, 16⟩
def BUS.STAT.TEC (n : Nat) : FldAt := ⟨BUS.STAT n, 15, 8⟩
def BUS.STAT.BUS_OFFS (n : Nat) : FldAt := ⟨BUS.STAT n, 7, 0⟩
def BUS.RX_HEAD.RXSEQ (n : Nat) : FldAt := ⟨BUS.RX_HEAD n, 31, 0⟩
def BUS.RX_SEL.RXSEQ (n : Nat) : FldAt := ⟨BUS.RX_SEL n, 31, 0⟩
def BUS.RX_STAT.LOST (n : Nat) : FldAt := ⟨BUS.RX_STAT n, 31, 16⟩
def BUS.RX_STAT.POOL_FREE (n : Nat) : FldAt := ⟨BUS.RX_STAT n, 12, 0⟩
def BUS.TX_STAT.QUEUED (n : Nat) : FldAt := ⟨BUS.TX_STAT n, 31, 26⟩
def BUS.TX_STAT.EXPIRED (n : Nat) : FldAt := ⟨BUS.TX_STAT n, 23, 16⟩
def BUS.TX_STAT.DISPLACED (n : Nat) : FldAt := ⟨BUS.TX_STAT n, 15, 8⟩
def BUS.TX_STAT.FULL (n : Nat) : FldAt := ⟨BUS.TX_STAT n, 7, 0⟩
def BUS.WIN.NEW (n : Nat) : FldAt := ⟨BUS.WIN n, 31, 31⟩
def BUS.WIN.VALID (n : Nat) : FldAt := ⟨BUS.WIN n, 30, 30⟩
def NET.EVT_DEST.IP : FldAt := ⟨NET.EVT_DEST, 31, 0⟩
def NET.EVT_PORT.IF : FldAt := ⟨NET.EVT_PORT, 31, 31⟩
def NET.EVT_PORT.PORT : FldAt := ⟨NET.EVT_PORT, 15, 0⟩
def NET.IF_CFG.EN (p : Nat) : FldAt := ⟨NET.IF_CFG p, 31, 31⟩
def NET.IF_CFG.ROLE (p : Nat) : FldAt := ⟨NET.IF_CFG p, 30, 30⟩
def NET.IF_CFG.PLCA_EN (p : Nat) : FldAt := ⟨NET.IF_CFG p, 29, 29⟩
def NET.IF_CFG.PREFIX (p : Nat) : FldAt := ⟨NET.IF_CFG p, 28, 24⟩
def NET.IP.ADDR (p : Nat) : FldAt := ⟨NET.IP p, 31, 0⟩
def NET.STAT.LINK (p : Nat) : FldAt := ⟨NET.STAT p, 31, 31⟩
def NET.STAT.PLCA_OK (p : Nat) : FldAt := ⟨NET.STAT p, 30, 30⟩
def NET.STAT.LINK_LOSSES (p : Nat) : FldAt := ⟨NET.STAT p, 23, 16⟩
def NET.STAT.RX_DROP (p : Nat) : FldAt := ⟨NET.STAT p, 15, 8⟩
def NET.STAT.BAD_FRAME (p : Nat) : FldAt := ⟨NET.STAT p, 7, 0⟩
def NET.MAC_HI.MAC (p : Nat) : FldAt := ⟨NET.MAC_HI p, 31, 0⟩
def NET.MAC_LO.MAC (p : Nat) : FldAt := ⟨NET.MAC_LO p, 31, 0⟩
def NET.PLCA.NODE_ID : FldAt := ⟨NET.PLCA, 31, 24⟩
def NET.PLCA.NODE_CNT : FldAt := ⟨NET.PLCA, 23, 16⟩
def NET.PLCA.TO_TIMER : FldAt := ⟨NET.PLCA, 15, 8⟩
def NET.PLCA.BURST_CNT : FldAt := ⟨NET.PLCA, 7, 0⟩
def LCY.STATE.STATE : FldAt := ⟨LCY.STATE, 31, 28⟩
def LCY.STATE.TRANSITIONS : FldAt := ⟨LCY.STATE, 15, 0⟩
def LCY.CMD.CMD : FldAt := ⟨LCY.CMD, 31, 28⟩
def LCY.FW_STAT.ACTIVE (k : Nat) : FldAt := ⟨LCY.FW_STAT k, 31, 31⟩
def LCY.FW_STAT.SLOT_A (k : Nat) : FldAt := ⟨LCY.FW_STAT k, 30, 28⟩
def LCY.FW_STAT.SLOT_B (k : Nat) : FldAt := ⟨LCY.FW_STAT k, 27, 25⟩
def LCY.FW_STAT.FALLBACK (k : Nat) : FldAt := ⟨LCY.FW_STAT k, 24, 24⟩
def LCY.FW_STAT.SVN_MIN (k : Nat) : FldAt := ⟨LCY.FW_STAT k, 23, 16⟩
def LCY.FW_VER.VERSION (k s : Nat) : FldAt := ⟨LCY.FW_VER k s, 31, 0⟩
def LCY.THERM.T_CASE : FldAt := ⟨LCY.THERM, 31, 20⟩
def LCY.THERM.STEP : FldAt := ⟨LCY.THERM, 19, 16⟩
def LCY.THERM.STEP_CHANGES : FldAt := ⟨LCY.THERM, 15, 8⟩
def LCY.SUPPLY.CORE_OK : FldAt := ⟨LCY.SUPPLY, 31, 31⟩
def LCY.SUPPLY.MEM_OK : FldAt := ⟨LCY.SUPPLY, 30, 30⟩
def LCY.SUPPLY.IO_OK : FldAt := ⟨LCY.SUPPLY, 29, 29⟩
def LCY.SUPPLY.A_OK : FldAt := ⟨LCY.SUPPLY, 28, 28⟩
def LCY.SUPPLY.BROWNOUTS : FldAt := ⟨LCY.SUPPLY, 15, 0⟩

/-- The register rows of page SYS (0x00). -/
def regsSYS : List RegSpec := [
  ⟨.SYS_STATUS, 0x000000, 4, 0, 1, 4, 1, 0x0, 0x3F0000, 0x0, 0xFFC0FFFF, 0x0, 0x0, 0x0, 0x0, false⟩,
  ⟨.SYS_BOOT, 0x000004, 4, 0, 1, 4, 1, 0x0, 0x0, 0x0, 0xFFFFFFFF, 0x0, 0x0, 0x0, 0x0, false⟩,
  ⟨.SYS_ISLAND, 0x000100, 4, 0, 16, 4, 1, 0x0, 0xF0F01F, 0x0, 0xFF0F0F80, 0x60, 0x0, 0x0, 0x0, false⟩,
  ⟨.SYS_XFER, 0x000140, 4, 0, 16, 4, 1, 0x0, 0x0, 0x0, 0xFFFFFFFF, 0x0, 0x0, 0x0, 0x0, false⟩,
  ⟨.SYS_LINK, 0x000180, 4, 0, 1, 4, 1, 0x0, 0xFFFC, 0x0, 0xFFFF0002, 0x1, 0x0, 0x0, 0x0, false⟩]

/-- The register rows of page CMD (0x01). -/
def regsCMD : List RegSpec := [
  ⟨.CMD_STATUS, 0x010000, 4, 0, 1, 4, 1, 0x0, 0xFF0000, 0x0, 0xFF00FFFF, 0x0, 0x0, 0x0, 0x0, false⟩,
  ⟨.CMD_RX_ERR, 0x010004, 4, 0, 1, 4, 1, 0x0, 0x0, 0x0, 0xFFFFFFFF, 0x0, 0x0, 0x0, 0x0, false⟩,
  ⟨.CMD_STATS, 0x010008, 4, 0, 1, 4, 1, 0x0, 0x0, 0x0, 0xFFFFFFFF, 0x0, 0x0, 0x0, 0x0, false⟩,
  ⟨.CMD_SP_LAT, 0x01000C, 4, 0, 1, 4, 1, 0x0, 0x0, 0x0, 0xFFFFFFFF, 0x0, 0x0, 0x0, 0x0, false⟩,
  ⟨.CMD_SESSION_CFG, 0x010010, 4, 0, 1, 4, 1, 0x12C0000, 0xFFFE, 0x0, 0x0, 0x0, 0x0, 0xFFFF0001, 0x0, false⟩,
  ⟨.CMD_EVENT_CFG, 0x010014, 4, 0, 1, 4, 1, 0x2, 0xFFF1, 0xE, 0xFFFF0000, 0x0, 0x0, 0x0, 0x0, false⟩,
  ⟨.CMD_SEQ_AUTORUN, 0x010018, 4, 0, 1, 4, 1, 0xFF, 0xFFFFFF00, 0x0, 0x0, 0x0, 0x0, 0xFF, 0x0, false⟩,
  ⟨.CMD_CANXL_CFG0, 0x010020, 4, 0, 1, 4, 1, 0x0, 0x7C0000FF, 0x0, 0x0, 0x0, 0x0, 0x83FFFF00, 0x0, false⟩,
  ⟨.CMD_CANXL_CFG1, 0x010024, 4, 0, 1, 4, 1, 0x7F107F0, 0xF800F800, 0x0, 0x0, 0x0, 0x0, 0x7FF07FF, 0x0, false⟩,
  ⟨.CMD_UDP_CFG, 0x010028, 4, 0, 1, 4, 1, 0xBB1C, 0x7FFF0000, 0x0, 0x0, 0x0, 0x0, 0x8000FFFF, 0x0, false⟩,
  ⟨.CMD_VIOLATION, 0x010030, 4, 0, 1, 4, 1, 0x0, 0xFF80, 0x0, 0xFFFF007F, 0x0, 0x0, 0x0, 0x0, false⟩,
  ⟨.CMD_LEGACY_ERR, 0x010034, 4, 0, 1, 4, 1, 0x0, 0x0, 0x0, 0xFFFFFFFF, 0x0, 0x0, 0x0, 0x0, false⟩,
  ⟨.CMD_LEGACY_ADDR, 0x010038, 4, 0, 1, 4, 1, 0x0, 0xFF000000, 0x0, 0xFFFFFF, 0x0, 0x0, 0x0, 0x0, false⟩,
  ⟨.CMD_TUNNEL_CTL, 0x01003C, 4, 0, 1, 4, 1, 0x0, 0xC000000, 0x0, 0x33FFE000, 0x0, 0xC0001FFF, 0x0, 0x0, false⟩,
  ⟨.CMD_TUNNEL_TX, 0x011000, 4, 0, 1029, 4, 1, 0x0, 0x0, 0x0, 0x0, 0x0, 0xFFFFFFFF, 0x0, 0x0, false⟩,
  ⟨.CMD_TUNNEL_RX, 0x012100, 4, 0, 1029, 4, 1, 0x0, 0x0, 0x0, 0xFFFFFFFF, 0x0, 0x0, 0x0, 0x0, false⟩]

/-- The register rows of page MAP (0x02). -/
def regsMAP : List RegSpec := [
  ⟨.MAP_STATUS, 0x020000, 4, 0, 1, 4, 1, 0x46, 0xFFFF0008, 0x0, 0xFFF7, 0x0, 0x0, 0x0, 0x0, false⟩,
  ⟨.MAP_ILK_HITS, 0x020100, 4, 0, 48, 4, 1, 0x0, 0xFFFF0000, 0x0, 0x0, 0xFFFF, 0x0, 0x0, 0x0, false⟩,
  ⟨.MAP_CHMAP, 0x021000, 8, 0, 144, 4, 2, 0x0, 0x0, 0x0, 0xFFFFFFFF, 0x0, 0x0, 0x0, 0x0, true⟩,
  ⟨.MAP_ILK, 0x022000, 12, 0, 48, 4, 3, 0x0, 0x0, 0x0, 0xFFFFFFFF, 0x0, 0x0, 0x0, 0x0, true⟩]

/-- The register rows of page PLS (0x03). -/
def regsPLS : List RegSpec := [
  ⟨.PLS_STATUS, 0x030000, 4, 0, 1, 4, 1, 0x0, 0x0, 0x0, 0xFFFFFFFF, 0x0, 0x0, 0x0, 0x0, false⟩,
  ⟨.PLS_COUNT0, 0x030004, 4, 0, 1, 4, 1, 0x0, 0x0, 0x0, 0xFFFFFFFF, 0x0, 0x0, 0x0, 0x0, false⟩,
  ⟨.PLS_COUNT1, 0x030008, 4, 0, 1, 4, 1, 0x0, 0x0, 0x0, 0xFFFFFFFF, 0x0, 0x0, 0x0, 0x0, false⟩,
  ⟨.PLS_DLY_ERR, 0x03000C, 4, 0, 1, 4, 1, 0x0, 0x7FFC0000, 0x0, 0x3FFFF, 0x80000000, 0x0, 0x0, 0x0, false⟩,
  ⟨.PLS_TB_START, 0x030010, 4, 0, 1, 4, 1, 0x0, 0xFFFF0000, 0x0, 0x0, 0x0, 0xFFFF, 0x0, 0x0, false⟩,
  ⟨.PLS_TB_CFG, 0x030100, 4, 0, 16, 4, 1, 0xFF, 0x3FFF00, 0xFFC000FF, 0x0, 0x0, 0x0, 0x0, 0x0, false⟩,
  ⟨.PLS_TB_PERIOD, 0x030140, 4, 0, 16, 4, 1, 0x4E1F, 0xFF000000, 0xFFFFFF, 0x0, 0x0, 0x0, 0x0, 0x0, false⟩,
  ⟨.PLS_TB_SYNC, 0x030180, 4, 0, 16, 4, 1, 0x0, 0x30000000, 0xCFFFFFFF, 0x0, 0x0, 0x0, 0x0, 0x0, false⟩,
  ⟨.PLS_TB_COUNT, 0x0301C0, 4, 0, 16, 4, 1, 0x0, 0x0, 0x0, 0xFFFFFFFF, 0x0, 0x0, 0x0, 0x0, false⟩,
  ⟨.PLS_TRG_CFG, 0x030400, 16, 0, 16, 4, 4, 0x0, 0xF00F000, 0xF0FF0FFF, 0x0, 0x0, 0x0, 0x0, 0x0, false⟩,
  ⟨.PLS_TRG_POS, 0x030500, 16, 0, 16, 4, 4, 0x0, 0xFF000000, 0xFFFFFF, 0x0, 0x0, 0x0, 0x0, 0x0, false⟩,
  ⟨.PLS_GRP_CFG, 0x030600, 4, 0, 32, 4, 1, 0x0, 0xFFFFFFF, 0xF0000000, 0x0, 0x0, 0x0, 0x0, 0x0, false⟩,
  ⟨.PLS_GRP_STAT, 0x030680, 4, 0, 32, 4, 1, 0x0, 0xFF0000, 0x0, 0xFF00FFFF, 0x0, 0x0, 0x0, 0x0, false⟩,
  ⟨.PLS_DEADTIME, 0x030700, 4, 0, 48, 4, 1, 0x0, 0xFFFFFC00, 0x3FF, 0x0, 0x0, 0x0, 0x0, 0x0, false⟩,
  ⟨.PLS_CAL, 0x030800, 4, 0, 9, 4, 1, 0x0, 0x3F000000, 0x0, 0xC0FFFFFF, 0x0, 0x0, 0x0, 0x0, false⟩,
  ⟨.PLS_RISE, 0x031000, 8, 0, 144, 4, 1, 0x3FFFFFFF, 0xC0000000, 0x3FFFFFFF, 0x0, 0x0, 0x0, 0x0, 0x0, false⟩,
  ⟨.PLS_FALL, 0x031004, 8, 0, 144, 4, 1, 0x0, 0xC0000000, 0x3FFFFFFF, 0x0, 0x0, 0x0, 0x0, 0x0, false⟩,
  ⟨.PLS_RISE_ACT, 0x031800, 8, 0, 144, 4, 1, 0x3FFFFFFF, 0xC0000000, 0x0, 0x3FFFFFFF, 0x0, 0x0, 0x0, 0x0, false⟩,
  ⟨.PLS_FALL_ACT, 0x031804, 8, 0, 144, 4, 1, 0x0, 0xC0000000, 0x0, 0x3FFFFFFF, 0x0, 0x0, 0x0, 0x0, false⟩]

/-- The register rows of page TRP (0x04). -/
def regsTRP : List RegSpec := [
  ⟨.TRP_CELL_STAT, 0x040100, 4, 0, 72, 4, 1, 0x0, 0x0, 0x0, 0xFFFFFFFF, 0x0, 0x0, 0x0, 0x0, false⟩,
  ⟨.TRP_THR, 0x040300, 4, 0, 72, 4, 1, 0x0, 0xFC00FC00, 0x3FF03FF, 0x0, 0x0, 0x0, 0x0, 0x0, false⟩,
  ⟨.TRP_GRP_TRIP, 0x040500, 4, 0, 32, 4, 1, 0xFF0000, 0xF000000, 0x0, 0x70FFFFFF, 0x80000000, 0x0, 0x0, 0x0, false⟩,
  ⟨.TRP_BANK_STAT, 0x040580, 4, 0, 8, 4, 1, 0x1E000000, 0x0, 0x0, 0xFFFFFFFF, 0x0, 0x0, 0x0, 0x0, false⟩,
  ⟨.TRP_CELLCFG, 0x041000, 20, 0, 72, 4, 5, 0x0, 0x0, 0x0, 0xFFFFFFFF, 0x0, 0x0, 0x0, 0x0, true⟩]

/-- The register rows of page GDR (0x05). -/
def regsGDR : List RegSpec := [
  ⟨.GDR_STATUS, 0x050000, 4, 0, 1, 4, 1, 0x0, 0xFFFF, 0x0, 0x9FFF0000, 0x60000000, 0x0, 0x0, 0x0, false⟩,
  ⟨.GDR_ILK_FB0, 0x050004, 4, 0, 1, 4, 1, 0x0, 0x0, 0x0, 0xFFFFFFFF, 0x0, 0x0, 0x0, 0x0, false⟩,
  ⟨.GDR_ILK_FB1, 0x050008, 4, 0, 1, 4, 1, 0x0, 0xFFFF0000, 0x0, 0xFFFF, 0x0, 0x0, 0x0, 0x0, false⟩,
  ⟨.GDR_DRV_FAILED, 0x05000C, 4, 0, 1, 4, 1, 0x0, 0xFF000000, 0x0, 0xFFFFFF, 0x0, 0x0, 0x0, 0x0, false⟩,
  ⟨.GDR_DRV_CFG, 0x050100, 4, 0, 24, 4, 1, 0x86A100A0, 0x0, 0xFFFFFFFF, 0x0, 0x0, 0x0, 0x0, 0x0, false⟩,
  ⟨.GDR_BST_STAT, 0x050200, 4, 0, 24, 4, 1, 0x0, 0x3F000000, 0x0, 0x80FFFFFF, 0x40000000, 0x0, 0x0, 0x0, false⟩,
  ⟨.GDR_SC_STAT, 0x050300, 4, 0, 24, 4, 1, 0x0, 0x7FFFFF00, 0x0, 0x800000FF, 0x0, 0x0, 0x0, 0x0, false⟩,
  ⟨.GDR_FLT, 0x050400, 4, 0, 48, 4, 1, 0x0, 0x3FFFFF00, 0x40000000, 0x800000FF, 0x0, 0x0, 0x0, 0x0, false⟩,
  ⟨.GDR_RDY_CFG, 0x050500, 4, 0, 8, 4, 1, 0x0, 0xFFFF, 0xDF000000, 0x20FF0000, 0x0, 0x0, 0x0, 0x0, false⟩]

/-- The register rows of page MEA (0x06). -/
def regsMEA : List RegSpec := [
  ⟨.MEA_STATUS, 0x060000, 4, 0, 1, 4, 1, 0x0, 0x0, 0x0, 0xFFFFFFFF, 0x0, 0x0, 0x0, 0x0, false⟩,
  ⟨.MEA_REF, 0x060004, 4, 0, 1, 4, 1, 0x9C4, 0x381FF000, 0xC0000000, 0x7000000, 0xE00000, 0x0, 0xFFF, 0x0, false⟩,
  ⟨.MEA_FORMAT, 0x060008, 4, 0, 1, 4, 1, 0x0, 0xFFFFFFFC, 0x3, 0x0, 0x0, 0x0, 0x0, 0x0, false⟩,
  ⟨.MEA_WIN_CFG, 0x06000C, 4, 0, 1, 4, 1, 0x10, 0xFFFFFF00, 0xFF, 0x0, 0x0, 0x0, 0x0, 0x0, false⟩,
  ⟨.MEA_SPARE, 0x060010, 4, 0, 1, 4, 1, 0xFF00000, 0x300F0000, 0x0, 0xCFF0FFFF, 0x0, 0x0, 0x0, 0x0, false⟩,
  ⟨.MEA_MAINS_CFG, 0x060020, 4, 0, 1, 4, 1, 0x0, 0xFFFFFF, 0x0, 0x0, 0x0, 0x0, 0x0, 0xFF000000, false⟩,
  ⟨.MEA_MAINS, 0x060024, 4, 0, 1, 4, 1, 0x0, 0x0, 0x0, 0xFFFFFFFF, 0x0, 0x0, 0x0, 0x0, false⟩,
  ⟨.MEA_WIN_OUT, 0x060040, 4, 0, 8, 4, 1, 0x0, 0x0, 0x0, 0xFFFFFFFF, 0x0, 0x0, 0x0, 0x0, false⟩,
  ⟨.MEA_CONV_STAT, 0x060100, 4, 0, 9, 4, 1, 0x0, 0x30000000, 0x0, 0xCFFFFFFF, 0x0, 0x0, 0x0, 0x0, false⟩,
  ⟨.MEA_BIND, 0x060200, 32, 0, 8, 4, 8, 0x0, 0x7FFFC0E0, 0x80003F1F, 0x0, 0x0, 0x0, 0x0, 0x0, false⟩,
  ⟨.MEA_PC_CFG, 0x060300, 4, 0, 16, 4, 1, 0x0, 0x3FFFFFFF, 0x0, 0x0, 0x0, 0x0, 0x0, 0xC0000000, false⟩,
  ⟨.MEA_PC_SUM, 0x060400, 4, 0, 16, 4, 1, 0x0, 0x0, 0x0, 0xFFFFFFFF, 0x0, 0x0, 0x0, 0x0, false⟩,
  ⟨.MEA_PC_LEN, 0x060480, 4, 0, 1, 4, 1, 0x0, 0x0, 0x0, 0xFFFFFFFF, 0x0, 0x0, 0x0, 0x0, false⟩,
  ⟨.MEA_RESULT, 0x061000, 4, 0, 256, 4, 1, 0x800000, 0x0, 0x0, 0xFFFFFFFF, 0x0, 0x0, 0x0, 0x0, false⟩,
  ⟨.MEA_WIN, 0x061400, 4, 0, 256, 4, 1, 0xFFFF0000, 0x0, 0xFFFFFFFF, 0x0, 0x0, 0x0, 0x0, 0x0, false⟩,
  ⟨.MEA_SEQ, 0x062000, 256, 0, 9, 4, 64, 0x0, 0x0, 0x0, 0xFFFFFFFF, 0x0, 0x0, 0x0, 0x0, true⟩]

/-- The register rows of page LAT (0x07). -/
def regsLAT : List RegSpec := [
  ⟨.LAT_STATUS, 0x070000, 4, 0, 1, 4, 1, 0x0, 0x0, 0x0, 0xFFFFFFFF, 0x0, 0x0, 0x0, 0x0, false⟩,
  ⟨.LAT_LOAD, 0x070004, 4, 0, 1, 4, 1, 0x0, 0xFF000000, 0x0, 0xFFFFFF, 0x0, 0x0, 0x0, 0x0, false⟩,
  ⟨.LAT_RG_CFG, 0x070100, 4, 0, 8, 4, 1, 0xFF0028, 0x3F000000, 0xC0FFFFFF, 0x0, 0x0, 0x0, 0x0, 0x0, false⟩,
  ⟨.LAT_RG_STAT, 0x070140, 4, 0, 8, 4, 1, 0x0, 0x0, 0x0, 0xFFFFFFFF, 0x0, 0x0, 0x0, 0x0, false⟩,
  ⟨.LAT_MS_STAT, 0x070200, 4, 0, 24, 4, 1, 0xFF0000, 0xFF000000, 0x0, 0xFFFFFF, 0x0, 0x0, 0x0, 0x0, false⟩,
  ⟨.LAT_RAMP, 0x071000, 8, 0, 192, 4, 1, 0x0, 0x80000000, 0x7FFFFFFF, 0x0, 0x0, 0x0, 0x0, 0x0, false⟩,
  ⟨.LAT_TARGET, 0x071004, 8, 0, 192, 4, 1, 0x0, 0x0, 0xFFFFFFFF, 0x0, 0x0, 0x0, 0x0, 0x0, false⟩,
  ⟨.LAT_CELL_STAT, 0x071800, 4, 0, 192, 4, 1, 0x0, 0x7000000, 0x0, 0xF8FFFFFF, 0x0, 0x0, 0x0, 0x0, false⟩,
  ⟨.LAT_OUT, 0x071C00, 4, 0, 192, 4, 1, 0x0, 0x0, 0x0, 0xFFFFFFFF, 0x0, 0x0, 0x0, 0x0, false⟩,
  ⟨.LAT_RAMPED, 0x072000, 4, 0, 192, 4, 1, 0x0, 0x0, 0x0, 0xFFFFFFFF, 0x0, 0x0, 0x0, 0x0, false⟩,
  ⟨.LAT_TPL_CTL, 0x073000, 12, 0, 256, 4, 1, 0x0, 0x1FFF00FF, 0xE000FF00, 0x0, 0x0, 0x0, 0x0, 0x0, false⟩,
  ⟨.LAT_TPL_BASE, 0x073004, 12, 0, 256, 4, 1, 0x0, 0x0, 0xFFFFFFFF, 0x0, 0x0, 0x0, 0x0, 0x0, false⟩,
  ⟨.LAT_TPL_COEF, 0x073008, 12, 0, 256, 4, 1, 0x0, 0x0, 0xFFFFFFFF, 0x0, 0x0, 0x0, 0x0, 0x0, false⟩,
  ⟨.LAT_DESC, 0x074000, 64, 0, 192, 4, 16, 0x0, 0x0, 0x0, 0xFFFFFFFF, 0x0, 0x0, 0x0, 0x0, true⟩]

/-- The register rows of page FLD (0x08). -/
def regsFLD : List RegSpec := [
  ⟨.FLD_MAP_STAT, 0x080000, 4, 0, 1, 4, 1, 0x0, 0xFFF0, 0x0, 0xFFFF000F, 0x0, 0x0, 0x0, 0x0, false⟩,
  ⟨.FLD_MCH_CFG, 0x080100, 256, 0, 2, 4, 1, 0x6400, 0x100FF, 0xFFFEFF00, 0x0, 0x0, 0x0, 0x0, 0x0, false⟩,
  ⟨.FLD_ANGLE, 0x080104, 256, 0, 2, 4, 1, 0x6000, 0xFF, 0xFFFFFF00, 0x0, 0x0, 0x0, 0x0, 0x0, false⟩,
  ⟨.FLD_IN_SLOT0, 0x080108, 256, 0, 2, 4, 1, 0x0, 0x0, 0xFFFFFFFF, 0x0, 0x0, 0x0, 0x0, 0x0, false⟩,
  ⟨.FLD_IN_SLOT1, 0x08010C, 256, 0, 2, 4, 1, 0x0, 0x0, 0xFFFFFFFF, 0x0, 0x0, 0x0, 0x0, 0x0, false⟩,
  ⟨.FLD_I_SCALE, 0x080110, 256, 0, 2, 4, 1, 0x80000000, 0x0, 0xFFFFFFFF, 0x0, 0x0, 0x0, 0x0, 0x0, false⟩,
  ⟨.FLD_V_SCALE, 0x080114, 256, 0, 2, 4, 1, 0x0, 0x0, 0xFFFFFFFF, 0x0, 0x0, 0x0, 0x0, 0x0, false⟩,
  ⟨.FLD_MOTOR0, 0x080118, 256, 0, 2, 4, 1, 0x0, 0x0, 0xFFFFFFFF, 0x0, 0x0, 0x0, 0x0, 0x0, false⟩,
  ⟨.FLD_MOTOR1, 0x08011C, 256, 0, 2, 4, 1, 0x0, 0x0, 0xFFFFFFFF, 0x0, 0x0, 0x0, 0x0, 0x0, false⟩,
  ⟨.FLD_KP, 0x080120, 256, 0, 2, 4, 1, 0x0, 0x0, 0xFFFFFFFF, 0x0, 0x0, 0x0, 0x0, 0x0, false⟩,
  ⟨.FLD_KI, 0x080124, 256, 0, 2, 4, 1, 0x0, 0x0, 0xFFFFFFFF, 0x0, 0x0, 0x0, 0x0, 0x0, false⟩,
  ⟨.FLD_KXY, 0x080128, 256, 0, 2, 4, 1, 0x0, 0x0, 0xFFFFFFFF, 0x0, 0x0, 0x0, 0x0, 0x0, false⟩,
  ⟨.FLD_MAP_PSI, 0x080130, 256, 0, 2, 4, 1, 0x0, 0x0, 0xFFFFFFFF, 0x0, 0x0, 0x0, 0x0, 0x0, false⟩,
  ⟨.FLD_FW, 0x080134, 256, 0, 2, 4, 1, 0xE1064064, 0x0, 0xFFFFFFFF, 0x0, 0x0, 0x0, 0x0, 0x0, false⟩,
  ⟨.FLD_MOD, 0x080138, 256, 0, 2, 4, 1, 0xF3CC8080, 0xF, 0xFFFFFFF0, 0x0, 0x0, 0x0, 0x0, 0x0, false⟩,
  ⟨.FLD_NP, 0x08013C, 256, 0, 2, 4, 1, 0x320C80, 0x3F, 0xFFFFFFC0, 0x0, 0x0, 0x0, 0x0, 0x0, false⟩,
  ⟨.FLD_RATING, 0x080140, 256, 0, 2, 4, 1, 0x0, 0x0, 0xFFFFFFFF, 0x0, 0x0, 0x0, 0x0, 0x0, false⟩,
  ⟨.FLD_TQ_LIM, 0x080144, 256, 0, 2, 4, 1, 0x0, 0x0, 0xFFFFFFFF, 0x0, 0x0, 0x0, 0x0, 0x0, false⟩,
  ⟨.FLD_P_LIM, 0x080148, 256, 0, 2, 4, 1, 0x0, 0x0, 0xFFFFFFFF, 0x0, 0x0, 0x0, 0x0, 0x0, false⟩,
  ⟨.FLD_DERATE, 0x08014C, 256, 0, 2, 4, 1, 0xFA3E83E8, 0xC00, 0xFFC00000, 0x3FF3FF, 0x0, 0x0, 0x0, 0x0, false⟩,
  ⟨.FLD_TQ_REQ, 0x080150, 256, 0, 2, 4, 1, 0x0, 0x0, 0xFFFFFFFF, 0x0, 0x0, 0x0, 0x0, 0x0, false⟩,
  ⟨.FLD_TQ_SLEW, 0x080154, 256, 0, 2, 4, 1, 0x64, 0x0, 0xFFFFFFFF, 0x0, 0x0, 0x0, 0x0, 0x0, false⟩,
  ⟨.FLD_THERM, 0x080158, 256, 0, 2, 4, 2, 0xFF000000, 0x0, 0xFFFFFFFF, 0x0, 0x0, 0x0, 0x0, 0x0, false⟩,
  ⟨.FLD_FAULT_CFG, 0x080160, 256, 0, 2, 4, 1, 0x50A0F00, 0xFF, 0xFFFFFF00, 0x0, 0x0, 0x0, 0x0, 0x0, false⟩,
  ⟨.FLD_POSTFAULT, 0x080164, 256, 0, 2, 4, 1, 0x899F42BC, 0x0, 0xFFFFFFFF, 0x0, 0x0, 0x0, 0x0, 0x0, false⟩,
  ⟨.FLD_ASC_CFG, 0x080168, 256, 0, 2, 4, 1, 0x13881194, 0x0, 0xFFFFFFFF, 0x0, 0x0, 0x0, 0x0, 0x0, false⟩,
  ⟨.FLD_MCH_STAT, 0x080180, 256, 0, 2, 4, 1, 0x1C000000, 0x0, 0x0, 0xFFFFFFFF, 0x0, 0x0, 0x0, 0x0, false⟩,
  ⟨.FLD_CNT0, 0x080184, 256, 0, 2, 4, 1, 0x0, 0x0, 0x0, 0xFFFFFFFF, 0x0, 0x0, 0x0, 0x0, false⟩,
  ⟨.FLD_CNT1, 0x080188, 256, 0, 2, 4, 1, 0x0, 0x0, 0x0, 0xFFFFFFFF, 0x0, 0x0, 0x0, 0x0, false⟩,
  ⟨.FLD_TQ_OUT, 0x08018C, 256, 0, 2, 4, 1, 0x0, 0x0, 0x0, 0xFFFFFFFF, 0x0, 0x0, 0x0, 0x0, false⟩,
  ⟨.FLD_I_DQ_REF, 0x080190, 256, 0, 2, 4, 1, 0x0, 0x0, 0x0, 0xFFFFFFFF, 0x0, 0x0, 0x0, 0x0, false⟩,
  ⟨.FLD_I_DQ, 0x080194, 256, 0, 2, 4, 1, 0x0, 0x0, 0x0, 0xFFFFFFFF, 0x0, 0x0, 0x0, 0x0, false⟩,
  ⟨.FLD_V_DQ, 0x080198, 256, 0, 2, 4, 1, 0x0, 0x0, 0x0, 0xFFFFFFFF, 0x0, 0x0, 0x0, 0x0, false⟩,
  ⟨.FLD_PSI_STAT, 0x08019C, 256, 0, 2, 4, 1, 0x0, 0x0, 0x0, 0xFFFFFFFF, 0x0, 0x0, 0x0, 0x0, false⟩,
  ⟨.FLD_NP_STAT, 0x0801A0, 256, 0, 2, 4, 1, 0x0, 0x0, 0x0, 0xFFFFFFFF, 0x0, 0x0, 0x0, 0x0, false⟩,
  ⟨.FLD_AFE_CFG, 0x080400, 4, 0, 1, 4, 1, 0x1D4C, 0x0, 0xFFFFFFFF, 0x0, 0x0, 0x0, 0x0, 0x0, false⟩,
  ⟨.FLD_AFE_SLOT, 0x080404, 4, 0, 1, 4, 1, 0x0, 0x0, 0xFFFFFFFF, 0x0, 0x0, 0x0, 0x0, 0x0, false⟩,
  ⟨.FLD_AFE_ISLOT, 0x080408, 4, 0, 1, 4, 1, 0x0, 0x0, 0xFFFFFFFF, 0x0, 0x0, 0x0, 0x0, 0x0, false⟩,
  ⟨.FLD_AFE_SCALE, 0x08040C, 4, 0, 1, 4, 1, 0x0, 0x0, 0xFFFFFFFF, 0x0, 0x0, 0x0, 0x0, 0x0, false⟩,
  ⟨.FLD_AFE_GAIN, 0x080410, 4, 0, 1, 4, 1, 0x0, 0x0, 0xFFFFFFFF, 0x0, 0x0, 0x0, 0x0, 0x0, false⟩,
  ⟨.FLD_AFE_VLOOP, 0x080414, 4, 0, 1, 4, 1, 0x32, 0x0, 0xFFFFFFFF, 0x0, 0x0, 0x0, 0x0, 0x0, false⟩,
  ⟨.FLD_AFE_LIM, 0x080418, 4, 0, 1, 4, 1, 0x0, 0x3F0000, 0xFFC0FFFF, 0x0, 0x0, 0x0, 0x0, 0x0, false⟩,
  ⟨.FLD_AFE_WIN, 0x08041C, 4, 0, 1, 4, 1, 0x623F5964, 0x0, 0xFFFFFFFF, 0x0, 0x0, 0x0, 0x0, 0x0, false⟩,
  ⟨.FLD_AFE_STAT, 0x080480, 4, 0, 1, 4, 1, 0x0, 0x0, 0x0, 0xFFFFFFFF, 0x0, 0x0, 0x0, 0x0, false⟩,
  ⟨.FLD_ACT_GAIN, 0x080610, 4, 0, 4, 4, 1, 0x0, 0x0, 0xFFFFFFFF, 0x0, 0x0, 0x0, 0x0, 0x0, false⟩,
  ⟨.FLD_ACT_MOTOR, 0x080620, 4, 0, 4, 4, 1, 0x0, 0x0, 0xFFFFFFFF, 0x0, 0x0, 0x0, 0x0, 0x0, false⟩]

/-- The register rows of page DCL (0x09). -/
def regsDCL : List RegSpec := [
  ⟨.DCL_STATUS, 0x090000, 4, 0, 1, 4, 1, 0x0, 0x1FF800, 0x0, 0xDFA007FF, 0x20400000, 0x0, 0x0, 0x0, false⟩,
  ⟨.DCL_COUNT, 0x090004, 4, 0, 1, 4, 1, 0x0, 0x0, 0x0, 0xFFFFFFFF, 0x0, 0x0, 0x0, 0x0, false⟩,
  ⟨.DCL_CTRL, 0x090008, 4, 0, 1, 4, 1, 0x1FFFFFE0, 0x1F, 0xFFFFFFE0, 0x0, 0x0, 0x0, 0x0, 0x0, false⟩,
  ⟨.DCL_VSRC, 0x09000C, 4, 0, 1, 4, 1, 0x320000, 0x0, 0xFFFFFFFF, 0x0, 0x0, 0x0, 0x0, 0x0, false⟩,
  ⟨.DCL_LEVELS, 0x090010, 4, 0, 1, 4, 1, 0x708ED814, 0x0, 0xFFFFFFFF, 0x0, 0x0, 0x0, 0x0, 0x0, false⟩,
  ⟨.DCL_CHOP, 0x090014, 4, 0, 1, 4, 1, 0x669FE000, 0x1FFF, 0xFFFFE000, 0x0, 0x0, 0x0, 0x0, 0x0, false⟩,
  ⟨.DCL_UV, 0x090018, 4, 0, 1, 4, 1, 0x3E800000, 0x1FFFFF, 0xFFE00000, 0x0, 0x0, 0x0, 0x0, 0x0, false⟩,
  ⟨.DCL_STOP_MASK, 0x09001C, 4, 0, 1, 4, 1, 0x0, 0x0, 0xFFFFFFFF, 0x0, 0x0, 0x0, 0x0, 0x0, false⟩]

/-- The register rows of page POS (0x0A). -/
def regsPOS : List RegSpec := [
  ⟨.POS_PU_CFG, 0x0A0100, 64, 0, 6, 4, 1, 0x2228000, 0x80000000, 0x7FFFFFFF, 0x0, 0x0, 0x0, 0x0, 0x0, false⟩,
  ⟨.POS_MODULUS, 0x0A0104, 64, 0, 6, 4, 1, 0x80000000, 0xF000000, 0xF0FFFFFF, 0x0, 0x0, 0x0, 0x0, 0x0, false⟩,
  ⟨.POS_PU_STAT, 0x0A0108, 64, 0, 6, 4, 1, 0x0, 0x7000000, 0x0, 0xE0FFFFFF, 0x18000000, 0x0, 0x0, 0x0, false⟩,
  ⟨.POS_POSN, 0x0A010C, 64, 0, 6, 4, 1, 0x0, 0xFF000000, 0x0, 0xFFFFFF, 0x0, 0x0, 0x0, 0x0, false⟩,
  ⟨.POS_SPEED, 0x0A0110, 64, 0, 6, 4, 1, 0x0, 0x0, 0x0, 0xFFFFFFFF, 0x0, 0x0, 0x0, 0x0, false⟩,
  ⟨.POS_SSI, 0x0A0114, 64, 0, 6, 4, 1, 0xC4E3014, 0x0, 0xFFFFFFFF, 0x0, 0x0, 0x0, 0x0, 0x0, false⟩,
  ⟨.POS_QUAD, 0x0A0118, 64, 0, 6, 4, 1, 0x0, 0xF000000, 0xF0FFFFFF, 0x0, 0x0, 0x0, 0x0, 0x0, false⟩,
  ⟨.POS_HALL, 0x0A011C, 64, 0, 6, 4, 1, 0x400, 0x0, 0xFFFFFFFF, 0x0, 0x0, 0x0, 0x0, 0x0, false⟩,
  ⟨.POS_PT_CFG, 0x0A0120, 64, 0, 6, 4, 1, 0x40004, 0x7000000, 0xF8FFFFFF, 0x0, 0x0, 0x0, 0x0, 0x0, false⟩,
  ⟨.POS_PCMP_TGT, 0x0A0400, 128, 0, 6, 16, 8, 0x0, 0xFF000000, 0xFFFFFF, 0x0, 0x0, 0x0, 0x0, 0x0, false⟩,
  ⟨.POS_PCMP_CFG, 0x0A0404, 128, 0, 6, 16, 8, 0x0, 0x3000000, 0xFCFFFFFF, 0x0, 0x0, 0x0, 0x0, 0x0, false⟩,
  ⟨.POS_PCMP_STAT, 0x0A0408, 128, 0, 6, 16, 8, 0x0, 0x1FFF0000, 0x0, 0x6000FFFF, 0x80000000, 0x0, 0x0, 0x0, false⟩,
  ⟨.POS_RES_CFG, 0x0A0800, 32, 0, 2, 4, 1, 0xA200000, 0x80010000, 0x7FFEFFFF, 0x0, 0x0, 0x0, 0x0, 0x0, false⟩,
  ⟨.POS_RES_SLOT, 0x0A0804, 32, 0, 2, 4, 1, 0x2F00, 0xFF, 0xFFFFFF00, 0x0, 0x0, 0x0, 0x0, 0x0, false⟩,
  ⟨.POS_RES_TRK, 0x0A0808, 32, 0, 2, 4, 1, 0x0, 0x0, 0xFFFFFFFF, 0x0, 0x0, 0x0, 0x0, 0x0, false⟩,
  ⟨.POS_RES_LIM, 0x0A080C, 32, 0, 2, 4, 1, 0xFFF32, 0x0, 0xFFFFFFFF, 0x0, 0x0, 0x0, 0x0, 0x0, false⟩,
  ⟨.POS_RES_STAT, 0x0A0810, 32, 0, 2, 4, 1, 0x0, 0xFF, 0x0, 0xFFFFFF00, 0x0, 0x0, 0x0, 0x0, false⟩,
  ⟨.POS_OBS_CFG, 0x0A0900, 32, 0, 2, 4, 1, 0x420640, 0x1F00000F, 0xE0FFFFF0, 0x0, 0x0, 0x0, 0x0, 0x0, false⟩,
  ⟨.POS_OBS_GAIN, 0x0A0904, 32, 0, 2, 4, 1, 0x20000200, 0x0, 0xFFFFFFFF, 0x0, 0x0, 0x0, 0x0, 0x0, false⟩,
  ⟨.POS_OBS_MOTOR, 0x0A0908, 32, 0, 2, 4, 1, 0x148, 0x0, 0xFFFFFFFF, 0x0, 0x0, 0x0, 0x0, 0x0, false⟩,
  ⟨.POS_OBS_LIM, 0x0A090C, 32, 0, 2, 4, 1, 0x19190C84, 0x0, 0xFFFFFFFF, 0x0, 0x0, 0x0, 0x0, 0x0, false⟩,
  ⟨.POS_OBS_CATCH, 0x0A0910, 32, 0, 2, 4, 1, 0x0, 0x0, 0xFFFFFFFF, 0x0, 0x0, 0x0, 0x0, 0x0, false⟩,
  ⟨.POS_OBS_CTRL, 0x0A0914, 32, 0, 2, 4, 1, 0xFF00, 0xFF, 0xFFFF0000, 0xFF00, 0x0, 0x0, 0x0, 0x0, false⟩,
  ⟨.POS_OBS_STAT, 0x0A0918, 32, 0, 2, 4, 1, 0x0, 0xF000000, 0x0, 0xF0FFFFFF, 0x0, 0x0, 0x0, 0x0, false⟩,
  ⟨.POS_OBS_SPEED, 0x0A091C, 32, 0, 2, 4, 1, 0x0, 0x0, 0x0, 0xFFFFFFFF, 0x0, 0x0, 0x0, 0x0, false⟩]

/-- The register rows of page ACT (0x0B). -/
def regsACT : List RegSpec := [
  ⟨.ACT_STATUS, 0x0B0000, 4, 0, 1, 4, 1, 0x0, 0xFF, 0x0, 0xFFFFFF00, 0x0, 0x0, 0x0, 0x0, false⟩,
  ⟨.ACT_SPEEDS, 0x0B0004, 4, 0, 1, 4, 1, 0x96012C, 0x0, 0xFFFFFFFF, 0x0, 0x0, 0x0, 0x0, 0x0, false⟩,
  ⟨.ACT_PARK, 0x0B0008, 4, 0, 1, 4, 1, 0x30480C80, 0x3F, 0xFFFFFFC0, 0x0, 0x0, 0x0, 0x0, 0x0, false⟩,
  ⟨.ACT_PUMP, 0x0B0010, 4, 0, 1, 4, 1, 0xC864064, 0x0, 0xFFFFFFFF, 0x0, 0x0, 0x0, 0x0, 0x0, false⟩,
  ⟨.ACT_PUMP1, 0x0B0014, 4, 0, 1, 4, 1, 0x0, 0x0, 0xFFFFFFFF, 0x0, 0x0, 0x0, 0x0, 0x0, false⟩,
  ⟨.ACT_GEAR, 0x0B0040, 4, 0, 8, 4, 1, 0x0, 0x1F000000, 0xE0FFFFFF, 0x0, 0x0, 0x0, 0x0, 0x0, false⟩,
  ⟨.ACT_CFG, 0x0B0100, 32, 0, 4, 4, 1, 0x0, 0x30000, 0xFFFCFFFF, 0x0, 0x0, 0x0, 0x0, 0x0, false⟩,
  ⟨.ACT_SLOTS, 0x0B0104, 32, 0, 4, 4, 1, 0x0, 0x0, 0xFFFFFFFF, 0x0, 0x0, 0x0, 0x0, 0x0, false⟩,
  ⟨.ACT_SCALE, 0x0B0108, 32, 0, 4, 4, 1, 0x80000000, 0x0, 0xFFFFFFFF, 0x0, 0x0, 0x0, 0x0, 0x0, false⟩,
  ⟨.ACT_LIMITS, 0x0B010C, 32, 0, 4, 4, 1, 0xBB8, 0x3, 0xFFFFFFFC, 0x0, 0x0, 0x0, 0x0, 0x0, false⟩,
  ⟨.ACT_LOOP, 0x0B0110, 32, 0, 4, 4, 1, 0x0, 0x0, 0xFFFFFFFF, 0x0, 0x0, 0x0, 0x0, 0x0, false⟩,
  ⟨.ACT_MOVE, 0x0B0114, 32, 0, 4, 4, 1, 0x101F414, 0x0, 0xFFFFFFFF, 0x0, 0x0, 0x0, 0x0, 0x0, false⟩,
  ⟨.ACT_CMD, 0x0B0118, 32, 0, 4, 4, 1, 0x0, 0xF000000, 0xF0FFFFFF, 0x0, 0x0, 0x0, 0x0, 0x0, false⟩,
  ⟨.ACT_STAT, 0x0B011C, 32, 0, 4, 4, 1, 0x0, 0x3000000, 0x0, 0xFCFFFFFF, 0x0, 0x0, 0x0, 0x0, false⟩,
  ⟨.ACT_CPL_CFG, 0x0B0200, 4, 0, 1, 4, 1, 0x9603C0, 0x3000007, 0xFCFFFFF8, 0x0, 0x0, 0x0, 0x0, 0x0, false⟩,
  ⟨.ACT_CPL_CMD, 0x0B0204, 4, 0, 1, 4, 1, 0x0, 0x3FFFFFFF, 0xC0000000, 0x0, 0x0, 0x0, 0x0, 0x0, false⟩,
  ⟨.ACT_CPL_STAT, 0x0B0208, 4, 0, 1, 4, 1, 0x0, 0x7FF0000, 0x0, 0xF800FFFF, 0x0, 0x0, 0x0, 0x0, false⟩,
  ⟨.ACT_TRAVEL, 0x0B0300, 4, 0, 4, 4, 1, 0x0, 0x0, 0x0, 0xFFFFFFFF, 0x0, 0x0, 0x0, 0x0, false⟩]

/-- The register rows of page CHG (0x0C). -/
def regsCHG : List RegSpec := [
  ⟨.CHG_STATUS, 0x0C0000, 4, 0, 1, 4, 1, 0x0, 0x3FFFFF, 0x0, 0xFFC00000, 0x0, 0x0, 0x0, 0x0, false⟩,
  ⟨.CHG_PILOT, 0x0C0004, 4, 0, 1, 4, 1, 0x0, 0xFF, 0x0, 0xFFFFFF00, 0x0, 0x0, 0x0, 0x0, false⟩,
  ⟨.CHG_PP, 0x0C0008, 4, 0, 1, 4, 1, 0xFFFF0000, 0xFF, 0x0, 0xFFFFFF00, 0x0, 0x0, 0x0, 0x0, false⟩,
  ⟨.CHG_CFG, 0x0C000C, 4, 0, 1, 4, 1, 0x1FFFF500, 0x7F, 0xDFFFFF80, 0x0, 0x0, 0x0, 0x20000000, 0x0, false⟩,
  ⟨.CHG_CMD, 0x0C0010, 4, 0, 1, 4, 1, 0x0, 0xFFFFFFF, 0x0, 0x0, 0x0, 0xF0000000, 0x0, 0x0, false⟩,
  ⟨.CHG_REQ, 0x0C0014, 4, 0, 1, 4, 1, 0x0, 0x0, 0xFFFFFFFF, 0x0, 0x0, 0x0, 0x0, 0x0, false⟩,
  ⟨.CHG_LIMITS, 0x0C0018, 4, 0, 1, 4, 1, 0xED8040C8, 0x0, 0xFFFFFFFF, 0x0, 0x0, 0x0, 0x0, 0x0, false⟩,
  ⟨.CHG_TIMES, 0x0C001C, 4, 0, 1, 4, 1, 0x7D050700, 0x3F, 0xFFFFFFC0, 0x0, 0x0, 0x0, 0x0, 0x0, false⟩,
  ⟨.CHG_COUNT, 0x0C0020, 4, 0, 1, 4, 1, 0x0, 0x0, 0x0, 0xFFFFFFFF, 0x0, 0x0, 0x0, 0x0, false⟩]

/-- The register rows of page MTR (0x0D). -/
def regsMTR : List RegSpec := [
  ⟨.MTR_STATUS, 0x0D0000, 4, 0, 1, 4, 1, 0x0, 0x7FF0000, 0x0, 0xF800FFFF, 0x0, 0x0, 0x0, 0x0, false⟩,
  ⟨.MTR_LOST, 0x0D0004, 4, 0, 1, 4, 1, 0x0, 0x0, 0x0, 0xFFFFFFFF, 0x0, 0x0, 0x0, 0x0, false⟩,
  ⟨.MTR_CFG, 0x0D0008, 4, 0, 1, 4, 1, 0x3C000000, 0x3FFFFFF, 0xFC000000, 0x0, 0x0, 0x0, 0x0, 0x0, false⟩,
  ⟨.MTR_ACK, 0x0D000C, 4, 0, 1, 4, 1, 0x0, 0x0, 0xFFFFFFFF, 0x0, 0x0, 0x0, 0x0, 0x0, false⟩,
  ⟨.MTR_LAST, 0x0D0010, 4, 0, 1, 4, 1, 0x0, 0x0, 0x0, 0xFFFFFFFF, 0x0, 0x0, 0x0, 0x0, false⟩,
  ⟨.MTR_TIME_LO, 0x0D0014, 4, 0, 1, 4, 1, 0x0, 0x0, 0xFFFFFFFF, 0x0, 0x0, 0x0, 0x0, 0x0, false⟩,
  ⟨.MTR_TIME_HI, 0x0D0018, 4, 0, 1, 4, 1, 0x0, 0x0, 0xFFFFFFFF, 0x0, 0x0, 0x0, 0x0, 0x0, false⟩]

/-- The register rows of page CNV (0x0E). -/
def regsCNV : List RegSpec := [
  ⟨.CNV_BUCK_CFG, 0x0E0000, 4, 0, 1, 4, 1, 0x3800E100, 0x3F, 0xFFFFFFC0, 0x0, 0x0, 0x0, 0x0, 0x0, false⟩,
  ⟨.CNV_BUCK_PK, 0x0E0004, 4, 0, 1, 4, 1, 0x802C87FC, 0x3, 0xFFFFFFFC, 0x0, 0x0, 0x0, 0x0, 0x0, false⟩,
  ⟨.CNV_BUCK_CELLS, 0x0E0008, 4, 0, 1, 4, 1, 0x242D4080, 0xF, 0xFFFFFFF0, 0x0, 0x0, 0x0, 0x0, 0x0, false⟩,
  ⟨.CNV_BUCK_SLOT, 0x0E000C, 4, 0, 1, 4, 1, 0xD1A00, 0xFF, 0xFFFFFF00, 0x0, 0x0, 0x0, 0x0, 0x0, false⟩,
  ⟨.CNV_HICCUP, 0x0E0010, 4, 0, 1, 4, 1, 0x4003200, 0xFF, 0xFFFFFF00, 0x0, 0x0, 0x0, 0x0, 0x0, false⟩,
  ⟨.CNV_VSET, 0x0E0014, 4, 0, 1, 4, 1, 0x9600000, 0x0, 0xFFFFFFFF, 0x0, 0x0, 0x0, 0x0, 0x0, false⟩,
  ⟨.CNV_VSCALE, 0x0E0018, 4, 0, 1, 4, 1, 0x0, 0x0, 0xFFFFFFFF, 0x0, 0x0, 0x0, 0x0, 0x0, false⟩,
  ⟨.CNV_BUCK_STAT, 0x0E0080, 4, 0, 1, 4, 1, 0x0, 0x7000000, 0x0, 0xF8FFFFFF, 0x0, 0x0, 0x0, 0x0, false⟩,
  ⟨.CNV_TRIMS, 0x0E0084, 4, 0, 1, 4, 1, 0x0, 0x0, 0x0, 0xFFFFFFFF, 0x0, 0x0, 0x0, 0x0, false⟩]

/-- The register rows of page LVP (0x0F). -/
def regsLVP : List RegSpec := [
  ⟨.LVP_STATUS, 0x0F0000, 4, 0, 1, 4, 1, 0x800000, 0x3F0000, 0x0, 0xFFC0FFFF, 0x0, 0x0, 0x0, 0x0, false⟩,
  ⟨.LVP_CFG, 0x0F0004, 4, 0, 1, 4, 1, 0x0, 0x3F, 0xFFFFFFC0, 0x0, 0x0, 0x0, 0x0, 0x0, false⟩,
  ⟨.LVP_SLOTS, 0x0F0008, 4, 0, 1, 4, 1, 0x0, 0x0, 0xFFFFFFFF, 0x0, 0x0, 0x0, 0x0, 0x0, false⟩,
  ⟨.LVP_SCALE, 0x0F000C, 4, 0, 1, 4, 1, 0x0, 0x0, 0xFFFFFFFF, 0x0, 0x0, 0x0, 0x0, 0x0, false⟩,
  ⟨.LVP_CHG, 0x0F0010, 4, 0, 1, 4, 1, 0xC801400, 0xFF, 0xFFFFFF00, 0x0, 0x0, 0x0, 0x0, 0x0, false⟩,
  ⟨.LVP_VLIM, 0x0F0014, 4, 0, 1, 4, 1, 0x6D606720, 0x0, 0xFFFFFFFF, 0x0, 0x0, 0x0, 0x0, 0x0, false⟩,
  ⟨.LVP_VLIM1, 0x0F0018, 4, 0, 1, 4, 1, 0x65906B6C, 0x0, 0xFFFFFFFF, 0x0, 0x0, 0x0, 0x0, 0x0, false⟩,
  ⟨.LVP_PULSE, 0x0F001C, 4, 0, 1, 4, 1, 0x3C0C800, 0xFF, 0xFFFFFF00, 0x0, 0x0, 0x0, 0x0, 0x0, false⟩,
  ⟨.LVP_TIMER, 0x0F0020, 4, 0, 1, 4, 1, 0x2587D000, 0x3FF, 0xFFFFFC00, 0x0, 0x0, 0x0, 0x0, 0x0, false⟩,
  ⟨.LVP_FOLD, 0x0F0024, 4, 0, 1, 4, 1, 0xFFFFFFFF, 0x0, 0xFFFFFFFF, 0x0, 0x0, 0x0, 0x0, 0x0, false⟩,
  ⟨.LVP_TIMER_STAT, 0x0F0028, 4, 0, 1, 4, 1, 0x0, 0xFF, 0x0, 0xFFFFFF00, 0x0, 0x0, 0x0, 0x0, false⟩,
  ⟨.LVP_BL, 0x0F002C, 4, 0, 1, 4, 1, 0x3E8000A, 0x0, 0xFFFFFFFF, 0x0, 0x0, 0x0, 0x0, 0x0, false⟩,
  ⟨.LVP_VIN_REG, 0x0F0030, 4, 0, 1, 4, 1, 0x9C400000, 0xFFFF, 0xFFFF0000, 0x0, 0x0, 0x0, 0x0, 0x0, false⟩,
  ⟨.LVP_BTN, 0x0F0034, 4, 0, 1, 4, 1, 0xA01F400, 0xFF, 0xFFFFFF00, 0x0, 0x0, 0x0, 0x0, 0x0, false⟩,
  ⟨.LVP_CMD, 0x0F0038, 4, 0, 1, 4, 1, 0x0, 0xFFFFFFF, 0x0, 0x0, 0x0, 0xF0000000, 0x0, 0x0, false⟩,
  ⟨.LVP_INT_STAT, 0x0F0040, 4, 0, 1, 4, 1, 0x0, 0xFFFFFF01, 0x0, 0x0, 0xFE, 0x0, 0x0, 0x0, false⟩,
  ⟨.LVP_INT_EN, 0x0F0044, 4, 0, 1, 4, 1, 0xC8, 0xFFFFFF01, 0xFE, 0x0, 0x0, 0x0, 0x0, 0x0, false⟩,
  ⟨.LVP_SRC_LIM, 0x0F0100, 4, 0, 4, 4, 1, 0x0, 0x0, 0xFFFFFFFF, 0x0, 0x0, 0x0, 0x0, 0x0, false⟩]

/-- The register rows of page SAF (0x10). -/
def regsSAF : List RegSpec := [
  ⟨.SAF_STATUS, 0x100000, 4, 0, 1, 4, 1, 0x0, 0x1F00FFFF, 0x0, 0xE0FF0000, 0x0, 0x0, 0x0, 0x0, false⟩,
  ⟨.SAF_CFG_CRC, 0x100004, 4, 0, 1, 4, 1, 0x0, 0x0, 0x0, 0xFFFFFFFF, 0x0, 0x0, 0x0, 0x0, false⟩,
  ⟨.SAF_CFG_EXPECT, 0x100008, 4, 0, 1, 4, 1, 0x0, 0x0, 0x0, 0x0, 0x0, 0x0, 0xFFFFFFFF, 0x0, false⟩,
  ⟨.SAF_CHANGE, 0x10000C, 4, 0, 1, 4, 1, 0x0, 0xF800, 0x0, 0xFFFF07FF, 0x0, 0x0, 0x0, 0x0, false⟩,
  ⟨.SAF_HOST_REQ, 0x100010, 4, 0, 1, 4, 1, 0x0, 0x1FFFFFFF, 0xE0000000, 0x0, 0x0, 0x0, 0x0, 0x0, false⟩,
  ⟨.SAF_DIAG, 0x100014, 4, 0, 1, 4, 1, 0x0, 0xFFFF, 0x0, 0x1FFF0000, 0xE0000000, 0x0, 0x0, 0x0, false⟩,
  ⟨.SAF_MSG_CFG, 0x100020, 4, 0, 1, 4, 1, 0x2001423, 0x10000, 0x0, 0x0, 0x0, 0x0, 0xFFFEFFFF, 0x0, false⟩,
  ⟨.SAF_MSG_CFG1, 0x100024, 4, 0, 1, 4, 1, 0xBB1D, 0x0, 0x0, 0x0, 0x0, 0x0, 0xFFFFFFFF, 0x0, false⟩,
  ⟨.SAF_MSG_STAT, 0x100028, 4, 0, 1, 4, 1, 0x0, 0x3FFF0000, 0x0, 0xC000FFFF, 0x0, 0x0, 0x0, 0x0, false⟩,
  ⟨.SAF_MSG_ERR, 0x10002C, 4, 0, 1, 4, 1, 0x0, 0x0, 0x0, 0xFFFFFFFF, 0x0, 0x0, 0x0, 0x0, false⟩,
  ⟨.SAF_STL, 0x100030, 4, 0, 1, 4, 1, 0xFFFF0064, 0x0, 0x0, 0x0, 0x0, 0x0, 0xFFFFFFFF, 0x0, false⟩,
  ⟨.SAF_FUNC_CFG, 0x100100, 8, 1, 8, 4, 1, 0x40000000, 0x1F000000, 0x0, 0x0, 0x0, 0x0, 0xE0FFFFFF, 0x0, false⟩,
  ⟨.SAF_FUNC_GRP, 0x100104, 8, 1, 8, 4, 1, 0x0, 0x0, 0x0, 0x0, 0x0, 0x0, 0xFFFFFFFF, 0x0, false⟩,
  ⟨.SAF_FUNC_STAT, 0x100180, 4, 1, 8, 4, 1, 0x0, 0x3F000000, 0x0, 0xC0FFFFFF, 0x0, 0x0, 0x0, 0x0, false⟩,
  ⟨.SAF_GRP, 0x100200, 4, 0, 32, 4, 1, 0x0, 0x3FFFFFF, 0x0, 0xFC000000, 0x0, 0x0, 0x0, 0x0, false⟩,
  ⟨.SAF_SIN, 0x100300, 4, 0, 8, 4, 1, 0x3324000, 0xF00, 0x0, 0x60FF, 0x1000, 0x0, 0xFFFF8000, 0x0, false⟩,
  ⟨.SAF_SSUP, 0x100340, 4, 0, 4, 4, 1, 0xA0000, 0x3F000000, 0x0, 0xFFFF, 0x40000000, 0x0, 0x80FF0000, 0x0, false⟩,
  ⟨.SAF_SLS, 0x100360, 4, 0, 4, 4, 1, 0x0, 0xFF, 0x0, 0xFF00, 0x0, 0x0, 0xFFFF0000, 0x0, false⟩]

/-- The register rows of page FLG (0x11). -/
def regsFLG : List RegSpec := [
  ⟨.FLG_STATUS, 0x110000, 4, 0, 1, 4, 1, 0x0, 0xE000, 0x0, 0xFFFF1FFF, 0x0, 0x0, 0x0, 0x0, false⟩,
  ⟨.FLG_STATUS1, 0x110004, 4, 0, 1, 4, 1, 0x0, 0xFE00, 0x0, 0xFFFF01FF, 0x0, 0x0, 0x0, 0x0, false⟩,
  ⟨.FLG_LASTING, 0x110400, 4, 0, 256, 4, 1, 0x0, 0x0, 0x0, 0x0, 0xFFFFFFFF, 0x0, 0x0, 0x0, false⟩,
  ⟨.FLG_OCCUR, 0x110800, 4, 0, 256, 4, 1, 0x0, 0x0, 0x0, 0xFFFFFFFF, 0x0, 0x0, 0x0, 0x0, false⟩,
  ⟨.FLG_ENTRY0, 0x111000, 8, 0, 256, 4, 1, 0x0, 0x0, 0x0, 0xFFFFFFFF, 0x0, 0x0, 0x0, 0x0, true⟩,
  ⟨.FLG_ENTRY1, 0x111004, 8, 0, 256, 4, 1, 0x0, 0x0, 0x0, 0xFFFFFFFF, 0x0, 0x0, 0x0, 0x0, true⟩]

/-- The register rows of page CHD (0x12). -/
def regsCHD : List RegSpec := [
  ⟨.CHD_STATUS, 0x120000, 4, 0, 1, 4, 1, 0x0, 0x888FFFFF, 0x0, 0x77700000, 0x0, 0x0, 0x0, 0x0, false⟩,
  ⟨.CHD_CNT, 0x120010, 4, 0, 3, 4, 1, 0x0, 0x0, 0x0, 0xFFFFFFFF, 0x0, 0x0, 0x0, 0x0, false⟩,
  ⟨.CHD_CKPT, 0x120020, 4, 0, 3, 4, 1, 0x0, 0x0, 0x0, 0xFFFFFFFF, 0x0, 0x0, 0x0, 0x0, false⟩]

/-- The register rows of page MEM (0x13). -/
def regsMEM : List RegSpec := [
  ⟨.MEM_STATUS, 0x130000, 4, 0, 1, 4, 1, 0x29000000, 0xE, 0x0, 0xFFFFFFF1, 0x0, 0x0, 0x0, 0x0, false⟩,
  ⟨.MEM_SRAM, 0x130004, 4, 0, 1, 4, 1, 0x100, 0x0, 0x0, 0xFFFFFFFF, 0x0, 0x0, 0x0, 0x0, false⟩,
  ⟨.MEM_MRAM, 0x130008, 4, 0, 1, 4, 1, 0x0, 0x0, 0x0, 0xFFFFFFFF, 0x0, 0x0, 0x0, 0x0, false⟩,
  ⟨.MEM_MRAM1, 0x13000C, 4, 0, 1, 4, 1, 0x0, 0x0, 0x0, 0xFFFFFFFF, 0x0, 0x0, 0x0, 0x0, false⟩,
  ⟨.MEM_CFG, 0x130010, 4, 0, 1, 4, 1, 0x64040000, 0xFFF, 0x0, 0x0, 0x0, 0x0, 0xFFFFF000, 0x0, false⟩,
  ⟨.MEM_WEAR, 0x130014, 4, 0, 1, 4, 1, 0x0, 0x0, 0x0, 0xFFFFFFFF, 0x0, 0x0, 0x0, 0x0, false⟩,
  ⟨.MEM_WEAR_PAGE, 0x130018, 4, 0, 1, 4, 1, 0x0, 0xFFFF, 0x0, 0xFFFF0000, 0x0, 0x0, 0x0, 0x0, false⟩,
  ⟨.MEM_WEAR_CFG, 0x13001C, 4, 0, 1, 4, 1, 0x1F40000, 0xFFFF, 0x0, 0x0, 0x0, 0x0, 0xFFFF0000, 0x0, false⟩,
  ⟨.MEM_REGION, 0x130100, 4, 0, 9, 4, 1, 0x0, 0x1FF0000, 0x0, 0x200FFFF, 0x0, 0x0, 0xFC000000, 0x0, false⟩,
  ⟨.MEM_ERR0, 0x130400, 8, 0, 64, 4, 1, 0xFFFF0000, 0x0, 0x0, 0xFFFFFFFF, 0x0, 0x0, 0x0, 0x0, false⟩,
  ⟨.MEM_ERR1, 0x130404, 8, 0, 64, 4, 1, 0x0, 0x0, 0x0, 0xFFFFFFFF, 0x0, 0x0, 0x0, 0x0, false⟩]

/-- The register rows of page BUS (0x14). -/
def regsBUS : List RegSpec := [
  ⟨.BUS_TIME_CFG, 0x140000, 4, 0, 1, 4, 1, 0x100A0A, 0x0, 0x0, 0x0, 0x0, 0x0, 0xFFFFFFFF, 0x0, false⟩,
  ⟨.BUS_TIME_STAT, 0x140004, 4, 0, 1, 4, 1, 0x0, 0x0, 0x0, 0xFFFFFFFF, 0x0, 0x0, 0x0, 0x0, false⟩,
  ⟨.BUS_TIME_LO, 0x140008, 4, 0, 1, 4, 1, 0x0, 0x0, 0xFFFFFFFF, 0x0, 0x0, 0x0, 0x0, 0x0, false⟩,
  ⟨.BUS_TIME_HI, 0x14000C, 4, 0, 1, 4, 1, 0x0, 0x0, 0xFFFFFFFF, 0x0, 0x0, 0x0, 0x0, 0x0, false⟩,
  ⟨.BUS_CTRL, 0x140100, 64, 0, 4, 4, 1, 0x4000064, 0x3F0000, 0x4C0FFFF, 0x0, 0x0, 0x2000000, 0xF9000000, 0x0, false⟩,
  ⟨.BUS_NBT, 0x140104, 64, 0, 4, 4, 1, 0x3F1F3E0, 0x1F, 0x0, 0x0, 0x0, 0x0, 0xFFFFFFE0, 0x0, false⟩,
  ⟨.BUS_DBT, 0x140108, 64, 0, 4, 4, 1, 0x3C73A00, 0xF, 0x0, 0x0, 0x0, 0x0, 0xFFFFFFF0, 0x0, false⟩,
  ⟨.BUS_XBT, 0x14010C, 64, 0, 4, 4, 1, 0x810860, 0xF, 0x0, 0x0, 0x0, 0x0, 0xFFFFFFF0, 0x0, false⟩,
  ⟨.BUS_STAT, 0x140110, 64, 0, 4, 4, 1, 0xC0000000, 0x1F000000, 0x0, 0xE0FFFFFF, 0x0, 0x0, 0x0, 0x0, false⟩,
  ⟨.BUS_RX_HEAD, 0x140114, 64, 0, 4, 4, 1, 0x0, 0x0, 0x0, 0xFFFFFFFF, 0x0, 0x0, 0x0, 0x0, false⟩,
  ⟨.BUS_RX_SEL, 0x140118, 64, 0, 4, 4, 1, 0x0, 0x0, 0xFFFFFFFF, 0x0, 0x0, 0x0, 0x0, 0x0, false⟩,
  ⟨.BUS_RX_STAT, 0x14011C, 64, 0, 4, 4, 1, 0x1000, 0xE000, 0x0, 0xFFFF1FFF, 0x0, 0x0, 0x0, 0x0, false⟩,
  ⟨.BUS_TX_STAT, 0x140120, 64, 0, 4, 4, 1, 0x0, 0x3000000, 0x0, 0xFCFFFFFF, 0x0, 0x0, 0x0, 0x0, false⟩,
  ⟨.BUS_WIN, 0x141000, 4096, 0, 4, 4, 1, 0x0, 0x3FFFFFFF, 0x0, 0x40000000, 0x80000000, 0x0, 0x0, 0x0, false⟩,
  ⟨.BUS_WINDATA, 0x141004, 4096, 0, 4, 4, 521, 0x0, 0x0, 0x0, 0xFFFFFFFF, 0x0, 0x0, 0x0, 0x0, true⟩]

/-- The register rows of page NET (0x15). -/
def regsNET : List RegSpec := [
  ⟨.NET_EVT_DEST, 0x150000, 4, 0, 1, 4, 1, 0x0, 0x0, 0x0, 0x0, 0x0, 0x0, 0xFFFFFFFF, 0x0, false⟩,
  ⟨.NET_EVT_PORT, 0x150004, 4, 0, 1, 4, 1, 0xBB1E, 0x7FFF0000, 0x0, 0x0, 0x0, 0x0, 0x8000FFFF, 0x0, false⟩,
  ⟨.NET_IF_CFG, 0x150100, 32, 0, 2, 4, 1, 0x18000000, 0xFFFFFF, 0x0, 0x0, 0x0, 0x0, 0xFF000000, 0x0, false⟩,
  ⟨.NET_IP, 0x150104, 32, 0, 2, 4, 1, 0x0, 0x0, 0x0, 0x0, 0x0, 0x0, 0xFFFFFFFF, 0x0, false⟩,
  ⟨.NET_STAT, 0x15010C, 32, 0, 2, 4, 1, 0x0, 0x3F000000, 0x0, 0xC0FFFFFF, 0x0, 0x0, 0x0, 0x0, false⟩,
  ⟨.NET_MAC_HI, 0x150110, 32, 0, 2, 4, 1, 0x0, 0x0, 0x0, 0xFFFFFFFF, 0x0, 0x0, 0x0, 0x0, false⟩,
  ⟨.NET_MAC_LO, 0x150114, 32, 0, 2, 4, 1, 0x0, 0x0, 0x0, 0xFFFFFFFF, 0x0, 0x0, 0x0, 0x0, false⟩,
  ⟨.NET_PLCA, 0x150128, 4, 0, 1, 4, 1, 0xFF082000, 0x0, 0x0, 0x0, 0x0, 0x0, 0xFFFFFFFF, 0x0, false⟩]

/-- The register rows of page LCY (0x16). -/
def regsLCY : List RegSpec := [
  ⟨.LCY_STATE, 0x160000, 4, 0, 1, 4, 1, 0x0, 0xFFF0000, 0x0, 0xF000FFFF, 0x0, 0x0, 0x0, 0x0, false⟩,
  ⟨.LCY_CMD, 0x160004, 4, 0, 1, 4, 1, 0x0, 0xFFFFFFF, 0x0, 0x0, 0x0, 0xF0000000, 0x0, 0x0, false⟩,
  ⟨.LCY_FW_STAT, 0x160010, 4, 0, 2, 4, 1, 0x0, 0xFFFF, 0x0, 0xFEFF0000, 0x1000000, 0x0, 0x0, 0x0, false⟩,
  ⟨.LCY_FW_VER, 0x160020, 8, 0, 2, 4, 2, 0x0, 0x0, 0x0, 0xFFFFFFFF, 0x0, 0x0, 0x0, 0x0, false⟩,
  ⟨.LCY_THERM, 0x160030, 4, 0, 1, 4, 1, 0x0, 0xFF, 0x0, 0xFFFFFF00, 0x0, 0x0, 0x0, 0x0, false⟩,
  ⟨.LCY_SUPPLY, 0x160040, 4, 0, 1, 4, 1, 0xF0000000, 0xFFF0000, 0x0, 0xF000FFFF, 0x0, 0x0, 0x0, 0x0, false⟩]

/-- The register rows of one page (R7); pages 0x17 and above have none (R8). -/
def regsOfPage : Nat → List RegSpec
  | 0 => regsSYS
  | 1 => regsCMD
  | 2 => regsMAP
  | 3 => regsPLS
  | 4 => regsTRP
  | 5 => regsGDR
  | 6 => regsMEA
  | 7 => regsLAT
  | 8 => regsFLD
  | 9 => regsDCL
  | 10 => regsPOS
  | 11 => regsACT
  | 12 => regsCHG
  | 13 => regsMTR
  | 14 => regsCNV
  | 15 => regsLVP
  | 16 => regsSAF
  | 17 => regsFLG
  | 18 => regsCHD
  | 19 => regsMEM
  | 20 => regsBUS
  | 21 => regsNET
  | 22 => regsLCY
  | _ => []

/-- The first index of address `a` in row `r`. -/
def RegSpec.ix1 (r : RegSpec) (a : Nat) : Nat := (a - r.base) / r.s1

/-- The second index of address `a` in row `r`. -/
def RegSpec.ix2 (r : RegSpec) (a : Nat) : Nat := (a - r.base) % r.s1 / r.s2

/-- Whether address `a` is one of the words of row `r`. -/
def RegSpec.covers (r : RegSpec) (a : Nat) : Bool :=
  decide (r.base ≤ a) && decide (r.i0 ≤ r.ix1 a) && decide (r.ix1 a < r.n1) && decide (r.ix2 a < r.n2) &&
    decide (a = r.base + r.s1 * r.ix1 a + r.s2 * r.ix2 a)

/-- The row of the register map that holds address `a`, if the address is mapped (R7, R8). -/
def regAt (a : Nat) : Option RegSpec := (regsOfPage (a / 65536)).find? (·.covers a)

end Sys2Proof.Machine
end

