-- ==== Sys2Proof/Machine/Bits.lean ====
section
/-! DEFINITION. Bit fields, sparse lists in canonical form, and lists with a default: the plain helpers of the model. -/

namespace Sys2Proof.Machine

/-- The bits `hi` to `lo` of a word, as a number (R7). -/
def bitsOf (w : Word) (hi lo : Nat) : Nat := (w.toNat / 2 ^ lo) % 2 ^ (hi + 1 - lo)

/-- A word with the bits `hi` to `lo` replaced by the number `v` (taken modulo the field's width). -/
def withBits (w : Word) (hi lo v : Nat) : Word :=
  let m := BitVec.ofNat 32 (2 ^ (hi + 1 - lo) - 1) <<< lo
  (w &&& ~~~m) ||| ((BitVec.ofNat 32 (v % 2 ^ (hi + 1 - lo))) <<< lo)

/-- Whether bit `i` of a number is set. -/
def bit (n i : Nat) : Bool := n / 2 ^ i % 2 == 1

/-- A number with bit `i` set. -/
def setBit (n i : Nat) : Nat := if bit n i then n else n + 2 ^ i

/-- A number with bit `i` cleared. -/
def clrBit (n i : Nat) : Nat := if bit n i then n - 2 ^ i else n

/-- The positions below `n` whose bits are set. -/
def bitsSet (n w : Nat) : List Nat := (List.range w).filter (bit n)

/-- A 16-bit number read as two's complement. -/
def sx16 (n : Nat) : Int := if n % 65536 < 32768 then n % 65536 else (n % 65536 : Int) - 65536

/-- A 32-bit number read as two's complement. -/
def sx32 (n : Nat) : Int := if n % 4294967296 < 2147483648 then n % 4294967296 else (n % 4294967296 : Int) - 4294967296

/-- A `w`-bit number read as two's complement. -/
def sxn (w n : Nat) : Int := if n % 2 ^ w < 2 ^ (w - 1) then n % 2 ^ w else (n % 2 ^ w : Int) - 2 ^ w

/-- The two's-complement code of an integer in `w` bits. -/
def codeOf (w : Nat) (x : Int) : Nat := (x % (2 ^ w : Int)).toNat

/-- An integer held within two bounds. -/
def clampI (lo hi x : Int) : Int := if x < lo then lo else if hi < x then hi else x

/-- A sparse list's entry for a key. -/
def sget? {α : Type} : List (Nat × α) → Nat → Option α
  | [], _ => none
  | (b, v) :: r, a => if a = b then some v else sget? r a

/-- A sparse list's value for a key, with the value an unlisted key reads as. -/
def sget {α : Type} (d : α) (l : List (Nat × α)) (a : Nat) : α := (sget? l a).getD d

/-- A sparse list without a key. -/
def serase {α : Type} : List (Nat × α) → Nat → List (Nat × α)
  | [], _ => []
  | (b, v) :: r, a => if a = b then serase r a else (b, v) :: serase r a

/-- A sparse list with a key set, kept in rising order of keys. -/
def sput {α : Type} : List (Nat × α) → Nat → α → List (Nat × α)
  | [], a, v => [(a, v)]
  | (b, w) :: r, a, v =>
    if a < b then (a, v) :: (b, w) :: r else if a = b then (a, v) :: r else (b, w) :: sput r a v

/-- A write into a canonical sparse list: the value an unlisted key reads as removes the entry. -/
def swrite {α : Type} [DecidableEq α] (d : Nat → α) (l : List (Nat × α)) (a : Nat) (v : α) : List (Nat × α) :=
  if v = d a then serase l a else sput l a v

/-- The keys rise strictly from `n` on, and no entry equals what an unlisted key reads as. -/
def canonFrom {α : Type} [DecidableEq α] (d : Nat → α) : Nat → List (Nat × α) → Bool
  | _, [] => true
  | n, (a, v) :: r => decide (n ≤ a) && decide (v ≠ d a) && canonFrom d (a + 1) r

/-- The canonical form of a sparse list: keys strictly rising, no entry equal to what an unlisted key reads as. -/
def canonical {α : Type} [DecidableEq α] (d : Nat → α) (l : List (Nat × α)) : Bool := canonFrom d 0 l

/-- The entry of a list of records by key, or the record of reset. -/
def mget {α : Type} (d : α) (l : List (Nat × α)) (k : Nat) : α := sget d l k

/-- Update one record of a list of records by key. -/
def mupd {α : Type} (d : α) (l : List (Nat × α)) (k : Nat) (f : α → α) : List (Nat × α) := sput l k (f (sget d l k))

/-- Put an element at the end of a ring that holds at most `cap`; a full ring drops its oldest element. -/
def ringPush {α : Type} (cap : Nat) (l : List α) (x : α) : List α :=
  if l.length < cap then l ++ [x] else l.drop (l.length + 1 - cap) ++ [x]

end Sys2Proof.Machine
end

