-- ==== Sys2Proof/Machine/Float.lean ====
section
/-! DEFINITION. IEEE 754 binary32 arithmetic, round to nearest even, as the field engines compute (R213): exact
results, rounded once per operation. -/

namespace Sys2Proof.Machine

/-- A binary32 value: not a number, an infinity, or `m` × 2^`e` with a sign, `m` below 2^24 and `e` at least -149. -/
inductive Fl where
  | nan
  | inf (neg : Bool)
  | fin (neg : Bool) (m : Nat) (e : Int)
  deriving DecidableEq, Repr

namespace Fl

/-- Zero. -/
def zero : Fl := .fin false 0 0

/-- Round `m` × 2^`e`, with a remainder below one unit of `m` when `sticky`, to binary32. -/
def round (neg : Bool) (m : Nat) (e : Int) (sticky : Bool) : Fl :=
  if m = 0 then .fin neg 0 0
  else
    let sh := max ((m.log2 : Int) + 1 - 24) (-149 - e)
    let (q, e') : Nat × Int :=
      if sh ≤ 0 then (m, e)
      else
        let s := sh.toNat
        let q := m / 2 ^ s
        let r := m % 2 ^ s
        let half := 2 ^ (s - 1)
        let up := decide (half < r) || (decide (r = half) && (sticky || q % 2 == 1))
        (if up then q + 1 else q, e + sh)
    let (q, e') := if q = 2 ^ 24 then (2 ^ 23, e' + 1) else (q, e')
    if q = 0 then .fin neg 0 0
    else if 128 ≤ (q.log2 : Int) + e' then .inf neg
    else .fin neg q e'

/-- The quotient of an integer and a positive natural number, rounded. -/
def ofRat (n : Int) (d : Nat) : Fl :=
  if d = 0 then .nan
  else
    let a := n.natAbs * 2 ^ 80
    round (decide (n < 0)) (a / d) (-80) (a % d != 0)

/-- An integer, rounded. -/
def ofInt (n : Int) : Fl := round (decide (n < 0)) n.natAbs 0 false

/-- The negative. -/
def neg : Fl → Fl
  | .nan => .nan
  | .inf s => .inf (!s)
  | .fin s m e => .fin (!s) m e

/-- The magnitude. -/
def abs : Fl → Fl
  | .nan => .nan
  | .inf _ => .inf false
  | .fin _ m e => .fin false m e

/-- The sum. -/
def add : Fl → Fl → Fl
  | .nan, _ => .nan
  | _, .nan => .nan
  | .inf s, .inf t => if s = t then .inf s else .nan
  | .inf s, _ => .inf s
  | _, .inf t => .inf t
  | .fin s m e, .fin t n f =>
    let k := min e f
    let a : Int := (m * 2 ^ (e - k).toNat : Nat)
    let b : Int := (n * 2 ^ (f - k).toNat : Nat)
    let x := (if s then -a else a) + (if t then -b else b)
    if x = 0 then .fin (s && t) 0 0 else round (decide (x < 0)) x.natAbs k false

/-- The difference. -/
def sub (a b : Fl) : Fl := add a (neg b)

/-- The product. -/
def mul : Fl → Fl → Fl
  | .nan, _ => .nan
  | _, .nan => .nan
  | .inf s, .inf t => .inf (s != t)
  | .inf s, .fin t n _ => if n = 0 then .nan else .inf (s != t)
  | .fin s m _, .inf t => if m = 0 then .nan else .inf (s != t)
  | .fin s m e, .fin t n f => round (s != t) (m * n) (e + f) false

/-- The quotient. -/
def div : Fl → Fl → Fl
  | .nan, _ => .nan
  | _, .nan => .nan
  | .inf _, .inf _ => .nan
  | .inf s, .fin t _ _ => .inf (s != t)
  | .fin s _ _, .inf t => .fin (s != t) 0 0
  | .fin s m e, .fin t n f =>
    if n = 0 then (if m = 0 then .nan else .inf (s != t))
    else round (s != t) (m * 2 ^ 60 / n) (e - f - 60) (m * 2 ^ 60 % n != 0)

/-- The integer square root by `fuel` halvings of the interval from `lo`. -/
def isqrt (n : Nat) : Nat → Nat → Nat
  | 0, r => r
  | k + 1, r => if (r + 2 ^ k) * (r + 2 ^ k) ≤ n then isqrt n k (r + 2 ^ k) else isqrt n k r

/-- The square root. -/
def sqrt : Fl → Fl
  | .nan => .nan
  | .inf s => if s then .nan else .inf false
  | .fin s m e =>
    if m = 0 then .fin s 0 0
    else if s then .nan
    else
      let odd : Bool := e % 2 != 0
      let a : Nat := if odd then m * 2 else m
      let f : Int := if odd then e - 1 else e
      let n := a * 2 ^ 60
      let r := isqrt n 45 0
      round false r (f / 2 - 30) (r * r != n)

/-- Whether one value lies below another; false where either is not a number. -/
def lt : Fl → Fl → Bool
  | .nan, _ => false
  | _, .nan => false
  | .inf s, .inf t => s && !t
  | .inf s, .fin .. => s
  | .fin .., .inf t => !t
  | .fin s m e, .fin t n f =>
    let k := min e f
    let a : Int := (m * 2 ^ (e - k).toNat : Nat)
    let b : Int := (n * 2 ^ (f - k).toNat : Nat)
    decide ((if s then -a else a) < (if t then -b else b))

/-- Whether one value lies at or below another. -/
def le (a b : Fl) : Bool := lt a b || (match a, b with
  | .fin s m e, .fin t n f =>
    let k := min e f
    m * 2 ^ (e - k).toNat == n * 2 ^ (f - k).toNat && (s == t || m == 0)
  | .inf s, .inf t => s == t
  | _, _ => false)

/-- Whether two values are equal. -/
def eq (a b : Fl) : Bool := le a b && le b a

/-- The smaller value. -/
def min (a b : Fl) : Fl := if lt b a then b else a

/-- The larger value. -/
def max (a b : Fl) : Fl := if lt a b then b else a

/-- A value held within two bounds. -/
def clamp (lo hi x : Fl) : Fl := min (max x lo) hi

/-- The largest integer at or below a value; 0 where it is not finite. -/
def floor : Fl → Int
  | .fin s m e =>
    let v : Int := if s then -(m : Int) else m
    if 0 ≤ e then v * 2 ^ e.toNat else v / 2 ^ (-e).toNat
  | _ => 0

/-- The nearest integer, halves upwards; 0 where it is not finite. -/
def nearest (a : Fl) : Int := match a with
  | .fin s m e =>
    let v : Int := if s then -(m : Int) else m
    if 0 ≤ e then v * 2 ^ e.toNat else (v * 2 + 2 ^ (-e).toNat) / 2 ^ ((-e).toNat + 1)
  | _ => 0

/-- Whether a value is negative (below 0). -/
def isNeg (a : Fl) : Bool := lt a zero

/-- Whether a value is 0. -/
def isZero : Fl → Bool
  | .fin _ m _ => m == 0
  | _ => false

/-- The sign as -1, 0 or 1. -/
def sign (a : Fl) : Fl := if lt a zero then ofInt (-1) else if lt zero a then ofInt 1 else zero

/-- The binary32 encoding. -/
def pack : Fl → BitVec 32
  | .nan => 0x7FC00000
  | .inf s => if s then 0xFF800000 else 0x7F800000
  | .fin s m e =>
    let sg := if s then 0x80000000 else 0
    if m = 0 then BitVec.ofNat 32 sg
    else
      -- bring m to 24 bits, as far as the exponent allows
      let up : Int := Min.min (23 - (m.log2 : Int)) (e + 149)
      let m' : Nat := m * 2 ^ up.toNat
      let e' : Int := e - up
      let ex : Nat := if 2 ^ 23 ≤ m' then (e' + 150).toNat else 0
      BitVec.ofNat 32 (sg + ex * 2 ^ 23 + m' % 2 ^ 23)

/-- The value of a binary32 encoding. -/
def unpack (w : BitVec 32) : Fl :=
  let n : Nat := w.toNat
  let s := n / 2 ^ 31 == 1
  let ex : Nat := n / 2 ^ 23 % 256
  let fr : Nat := n % 2 ^ 23
  if ex = 255 then (if fr = 0 then .inf s else .nan)
  else if ex = 0 then .fin s fr (if fr = 0 then 0 else -149)
  else .fin s (fr + 2 ^ 23) ((ex : Int) - 150)

/-! ## Sine, cosine, arctangent: the exact value to 200 binary places, and one of the two binary32 numbers beside it. Which one
R213 leaves open (DESIGN CHOICE, log entry 14). -/

/-- `m` × 2^-200 rounded to a neighbouring binary32 number, away from zero or towards it. -/
def beside (neg : Bool) (m : Nat) (up : Bool) : Fl :=
  if m = 0 then .fin neg 0 0
  else
    let sh := (Max.max ((m.log2 : Int) + 1 - 24) 51).toNat
    let q := m / 2 ^ sh
    let q := if m % 2 ^ sh ≠ 0 ∧ up then q + 1 else q
    if q = 0 then .fin neg 0 0
    else if q = 2 ^ 24 then .fin neg (2 ^ 23) ((sh : Int) - 199)
    else .fin neg q ((sh : Int) - 200)

/-- π × 2^200, rounded down. -/
def piFix : Nat := 5048344754617993871973410141242436836214643421488662971535368

/-- The terms of a Taylor series from the term `t` of order `k` on, in steps of two, with the square `a` of its argument; values
in units of 2^-200. -/
def series (a : Int) : Nat → Nat → Int → Int
  | 0, _, t => t
  | n + 1, k, t => t + series a n (k + 2) (-(t * a / 2 ^ 200 / ((k + 1) * (k + 2) : Nat)))

/-- Sine and cosine of `y` × 2^-200 quarter turns, up to half a quarter turn, in units of 2^-200. -/
def sinCosOctant (y : Nat) : Nat × Nat :=
  let a := y * piFix / 2 ^ 201
  let q : Int := (a * a / 2 ^ 200 : Nat)
  let c := (series q 24 0 (2 ^ 200)).toNat
  ((series q 24 1 a).toNat, if y = 0 then c else Min.min c (2 ^ 200 - 1))

/-- Sine and cosine of `y` × 2^-200 quarter turns, up to one quarter turn. -/
def sinCosQuarter (y : Nat) : Nat × Nat :=
  if y ≤ 2 ^ 199 then sinCosOctant y else (sinCosOctant (2 ^ 200 - y)).swap

/-- Sine and cosine of a number of turns in units of 2^-200: signs and magnitudes. -/
def sinCosTurn (x : Nat) : (Bool × Nat) × (Bool × Nat) :=
  let q := 4 * x / 2 ^ 200 % 4
  let v := sinCosQuarter (4 * x % 2 ^ 200)
  match q with
  | 0 => ((false, v.1), (false, v.2))
  | 1 => ((false, v.2), (true, v.1))
  | 2 => ((true, v.1), (true, v.2))
  | _ => ((true, v.2), (false, v.1))

/-- The sine of an angle in turns. -/
def sinT : Fl → Fl
  | .fin s m e =>
    let a := Fl.fin s m e
    let v := (sinCosTurn (m * 2 ^ (e + 200).toNat % 2 ^ 200)).1
    beside (s != v.1) v.2 (Config.roundUp 0 (pack a) 0)
  | _ => .nan

/-- The cosine of an angle in turns. -/
def cosT : Fl → Fl
  | .fin s m e =>
    let a := Fl.fin s m e
    let v := (sinCosTurn (m * 2 ^ (e + 200).toNat % 2 ^ 200)).2
    beside v.1 v.2 (Config.roundUp 1 (pack a) 0)
  | _ => .nan

/-- Euler's series of the arctangent from the term `t` of number `k` on, with `z` = r² / (1 + r²), in units of 2^-200. -/
def euler (z : Nat) : Nat → Nat → Nat → Nat
  | 0, _, t => t
  | n + 1, k, t => t + euler z n (k + 1) (t * z / 2 ^ 200 * (2 * (k + 1)) / (2 * k + 3))

/-- The arctangent of a ratio `n` / `d` up to √2 - 1, in units of 2^-200. -/
def atanSmall (n d : Nat) : Nat := euler (n * n * 2 ^ 200 / (n * n + d * d)) 90 0 (n * d * 2 ^ 200 / (n * n + d * d))

/-- The arctangent of a ratio `n` / `d` up to 1. -/
def atanRatio (n d : Nat) : Nat :=
  if n * 169 ≤ d * 70 then atanSmall n d else piFix / 4 - atanSmall (d - n) (d + n)

/-- The angle of a vector (x, y) with these magnitudes and sign of x, between 0 and π, in units of 2^-200. -/
def angleFix (y x : Nat) (xNeg : Bool) : Nat :=
  let a := if y ≤ x then atanRatio y x else piFix / 2 - atanRatio x y
  if xNeg then piFix - a else a

/-- The angle of the vector (x, y) in radians. -/
def atan2 (y x : Fl) : Fl :=
  match y, x with
  | .fin s m e, .fin t n f =>
    if m = 0 ∧ n = 0 then unpack (Config.atan2Edge (pack y) (pack x))
    else
      let k := Min.min e f
      beside s (angleFix (m * 2 ^ (e - k).toNat) (n * 2 ^ (f - k).toNat) t) (Config.roundUp 2 (pack y) (pack x))
  | .nan, _ => .nan
  | _, .nan => .nan
  | _, _ => unpack (Config.atan2Edge (pack y) (pack x))

/-- The fraction of a value within one turn. -/
def frac (a : Fl) : Fl := sub a (ofInt (floor a))

/-- The circle constant. -/
def pi : Fl := unpack 0x40490FDB

/-- The square root of 3. -/
def sqrt3 : Fl := unpack 0x3FDDB3D7

/-- A value in steps of 1/`k`, as a two's-complement field of `w` bits; out of range it takes the nearest limit. -/
def toField (a : Fl) (k w : Nat) : Nat :=
  let n := nearest (mul a (ofInt k))
  let lim : Int := 2 ^ (w - 1)
  let c : Int := if n < -lim then -lim else if lim ≤ n then lim - 1 else n
  (c % (2 ^ w : Int)).toNat

/-- A non-negative value in steps of 1/`k`, as an unsigned field of `w` bits. -/
def toUField (a : Fl) (k w : Nat) : Nat :=
  let n := nearest (mul a (ofInt k))
  if n < 0 then 0 else Min.min n.toNat (2 ^ w - 1)

end Fl

end Sys2Proof.Machine
end

