-- ==== Sys2Proof/Machine/State.lean ====
section
/-! DEFINITION. The state of the block, plain data: the parameters (`regs`), the tables (`tabs`), the state that is
no parameter (`hid`, one structure per chapter), the bounded queues and logs (`que`), and the queue of waiting
commands (`pending`). `State.reset` is the device right after reset. -/

namespace Sys2Proof.Machine

/-- A packet on its way out: a reply or an event (R39, R72); `first` marks the packet that begins a reply. -/
structure OutPkt where
  version : Nat := 2
  flags : Nat
  seq : Nat
  opcode : Nat
  session : Nat := 0
  page : Nat := 0
  inst : Nat := 0
  scope : Nat := 4
  payload : List Byte
  first : Bool := false
  deriving DecidableEq, Repr

/-- A reply kept for the replay rule R42: SEQ and CRC of its request, and the reply. -/
structure Kept where
  seq : Nat
  crc : Nat
  reply : OutPkt
  deriving DecidableEq, Repr

/-- An open segmented transfer (R54, R55): what its packets must repeat, what comes next, the staged bytes. `first`
is the START of the first segment, `next` the START the next segment must carry, `last` the time of the last one. -/
structure Seg where
  opcode : Nat
  page : Nat
  inst : Nat
  scope : Nat
  nextSeq : Nat
  first : Nat
  next : Nat
  data : List Byte
  last : Nat
  deriving DecidableEq, Repr

/-- A session, pending from phase 0 or open (R59, R60); `auth` is 1 OPERATOR, 2 INTEGRATOR, 3 METROLOGY; `at_` is
the time in µs of phase 0 or of its last packet; `segLost` marks a timed-out transfer whose next segment is refused. -/
structure Session where
  id : Nat
  src : Source
  auth : Nat
  opened : Bool
  key : List Byte
  nonce : List Byte
  at_ : Nat
  kept : List Kept := []
  seg : Option Seg := none
  segLost : Option Seg := none
  deriving DecidableEq, Repr

/-- A stored password: salt and H of an authority (R60, R62). -/
structure Pwd where
  auth : Nat
  salt : List Byte
  hash : List Byte
  deriving DecidableEq, Repr

/-- An entry of table 0x70 (R63): the authority of the storing session and the packets' bytes. -/
structure StoredSeq where
  auth : Nat
  bytes : List Byte
  deriving DecidableEq, Repr

/-- A request as the executor holds it: opcode and packet. -/
structure Req where
  op : Nat
  p : Packet
  deriving DecidableEq, Repr

/-- An operation that replied ACCEPTED and whose COMPLETION is due (R40): `kind` is its opcode, `unit` the unit it
works on, `byRun` whether a stored sequence awaits it (R64). -/
structure Due where
  kind : Nat
  unit : Nat
  p : Packet
  byRun : Bool
  deriving DecidableEq, Repr

/-- A stored sequence that runs (R64): the request that started it (none for R65), the authority in force, the index
of the step awaited, and the steps after it. -/
structure SeqRun where
  by_ : Option Packet
  auth : Nat
  index : Nat
  rest : List Req
  deriving DecidableEq, Repr

/-- The command protocol (chapter 2). Event SEQ counters and drops since the last delivery are per route: 0 SPI,
1 CAN XL, 2 UDP. `legacy` is the result the next legacy frame returns; `tunnelWait` the packets for the tunnel that
wait while RX_VALID is 1 (R71), `linkWait` the replies that wait for the host link (R30); `runResult` the status, reason and detail
of the step a stored sequence awaited; `lockEnd` the end of the lockout of R61 in µs; `go` the LEN of a GO that was
accepted and whose packet is not yet received (R71); `runSeg` an open segmented transfer of a stored sequence. -/
structure CmdSt where
  sessions : List Session := []
  pwds : List Pwd := []
  lockEnd : Option Nat := none
  evtSeq : List (Nat × Nat) := []
  evtLost : List (Nat × Nat) := []
  legacy : BitVec 72 := 0
  tunnelWait : List OutPkt := []
  linkWait : List (Source × OutPkt) := []
  seqs : List (Nat × StoredSeq) := []
  waiting : List Req := []
  run : Option SeqRun := none
  runResult : Option (Nat × Nat × Nat) := none
  due : List Due := []
  attn : Bool := false
  go : Option Nat := none
  runSeg : Option Seg := none
  deriving DecidableEq, Repr

/-- The states of a group (R79), in the order in which GET_STATUS codes them. -/
inductive GState where
  | off
  | configured
  | armed
  | running
  | tripped
  | safe
  deriving DecidableEq, Repr

/-- A safe stop 1 ramp in progress (R377): its start in ms and the torque magnitude of the previous evaluation. -/
structure Ss1 where
  since : Nat
  prev : Option Nat
  deriving DecidableEq, Repr

/-- One group (R79). `asc` is the latched safe pattern (true: active short circuit, R31, R237); `force` holds the
entries of R376 that force the group (5 ASC, 1 STO, 7 SCS, 8 lasting reaction); `heldAsc` the pattern left held,
`linkHeld` that a link loss holds the safe pattern (R32), `left` that the group left ARMED and RUNNING and the pulse island
drops its posts and COMMIT tokens (R106). -/
structure Grp where
  st : GState := .off
  asc : Bool := false
  force : List Nat := []
  heldAsc : Bool := false
  linkHeld : Bool := false
  ss1 : Option Ss1 := none
  left : Bool := false
  deriving DecidableEq, Repr

/-- One channel: the state of its output cell `on` and the level the pulse island commands `gen` (they part where the
cell ends, ignores or replaces edges), the reload stage, the times of the cell's last off-edge and on-edge and of the
last commanded off-edge (fine units of its timebase), an on-edge moved by R94 or R124, bootstrap suppression (R144),
the tap codes and COARSE_ONLY in force (R96, R98), the refresh edges of the present period (R142), the time of a committed
on-edge that R124 moved forward, what the output cell does by itself at a later time (R144, R149), and whether a loss of VDRV keeps its
driver sinking (R153). A channel that a spare replaces keeps its record: `on` is then the cell that serves it. -/
structure Chan where
  on : Bool := false
  gen : Bool := false
  rel : Option (Word × Word) := none
  offAt : Option Nat := none
  onAt : Nat := 0
  genOff : Option Nat := none
  moved : Option Nat := none
  bstOff : Bool := false
  taps : List Nat := []
  coarse : Bool := false
  refresh : List (Nat × Bool) := []
  skip : Option Nat := none
  due : List (Nat × Bool) := []
  sink : Bool := false
  deriving DecidableEq, Repr

/-- One timebase: active PERIOD, reload-stage PERIOD, position of the last event in the period, index of the period in the
window, whether the commit deadline of the present window has passed (R107), the number of the present window, how many results
had been delivered when it and up to four windows before it began, newest first (R190, R211), and the pulse clocks before the present period since the counter last began. -/
structure Tb where
  pAct : Nat := 0x4E1F
  pRel : Option Nat := none
  pos : Nat := 0
  per : Nat := 0
  late : Bool := false
  wins : Nat := 1
  marks : List Nat := [0]
  epoch : Nat := 0
  deriving DecidableEq, Repr

/-- Where an auto-centre trigger is placed for a window (R109, R110): nowhere, in a pulse clock of the window, some
pulse clocks before the window begins, or beyond its end. -/
inductive Place where
  | nowhere
  | inWindow (p : Nat)
  | ahead (n : Nat)
  | beyond
  deriving DecidableEq, Repr

/-- The trigger of one window (R110, R111): its place, whether it has fired, whether it is provisional, and whether
the duties it was placed from were cancelled. -/
structure Shot where
  place : Place := .nowhere
  fired : Bool := false
  prov : Bool := false
  stale : Bool := false
  deriving DecidableEq, Repr

/-- What the results of a firing carry (R174): valid, held until the trigger is resolved, or STALE. -/
inductive TrigTag where
  | valid
  | held
  | stale
  deriving DecidableEq, Repr

/-- One trigger compare: active and reload-stage position, the trigger of the present window, that of the next one once
it is placed, and what the results of its last firing carry. -/
structure Trg where
  posAct : Nat := 0
  posRel : Option Nat := none
  now : Shot := {}
  next : Option Shot := none
  last : TrigTag := .valid
  deriving DecidableEq, Repr

/-- The calibration of one block (R96 to R99): the previous valid E, the 64 tap codes formed from it, consecutive valid
calibrations, and the time of the last valid one in µs. -/
structure Cal where
  prev : Option Nat := none
  codes : List Nat := []
  good : Nat := 0
  at_ : Nat := 0
  deriving DecidableEq, Repr

/-- Pulse generation (chapters 3 and 4). `committed` lists the loop-owned groups whose token completed in the present
window, `forced` the groups whose edges the pulse island replaces by their safe pattern (R112), `coreHeld` the channels whose
output cells hold a latched pattern on since the core die lost VDD_CORE (R31), until they are armed again (R32), `coreLow` those of the channels held
then, on or off, whose ball is active low, `met` the timebases
and groups whose COMMIT met the reload strobe, which that reload leaves in the reload stage (R102), `pairs` the pair matrix
that the output cells of each interlock set latched at ENABLE (R148). -/
structure PlsSt where
  grps : List (Nat × Grp) := []
  chans : List (Nat × Chan) := []
  tbs : List (Nat × Tb) := []
  trgs : List (Nat × Trg) := []
  cals : List (Nat × Cal) := []
  committed : List Nat := []
  forced : List Nat := []
  coreHeld : List Nat := []
  coreLow : List Nat := []
  met : List (Nat × Nat) := []
  pairs : List (Nat × List (Nat × Nat)) := []
  deriving DecidableEq, Repr

/-- What a spare is: free, in use for a unit (channel and MODE, or converter), or failed (R34, R84). -/
inductive SpareSt where
  | free
  | inUse (unit : Nat) (ball : Bool)
  | failed
  deriving DecidableEq, Repr

/-- A channel hand-over (R85): unit, spare, mode, and the step reached (0 accepted, 1 mirror period). -/
structure HandOver where
  unit : Nat
  spare : Nat
  ball : Bool
  step : Nat
  deriving DecidableEq, Repr

/-- One comparator cell: the voltages at its inputs in µV, the states of its two comparisons with hysteresis (R118), the
consecutive samples in trip state (R123), whether the present trip state has acted, and when its blanking window closes, in
fine units of the timebase of BLANK_CH (R121). -/
structure Cell where
  vp : Int := 0
  vn : Int := 0
  hi : Bool := false
  lo : Bool := false
  count : Nat := 0
  acted : Bool := false
  blankEnd : Nat := 0
  deriving DecidableEq, Repr

/-- One bank of comparator cells: the position the rotation relieves next, the position its spare serves for good, and
whether a commanded test runs. -/
structure Bank where
  slot : Nat := 0
  serves : Option Nat := none
  testing : Bool := false
  deriving DecidableEq, Repr

/-- Comparator cells and gate drive (chapters 5 and 6): cells, banks, whether the rotation has begun in this boot (R132),
starved-period counts and the pairs with an adequate slot L on-time in the present period (R142), the pairs whose shunt comparator
is in trip (R145), what the spares are, the spare that drives each replaced channel, an open hand-over. -/
structure TrpSt where
  cells : List (Nat × Cell) := []
  banks : List (Nat × Bank) := []
  rotating : Bool := false
  starved : List (Nat × Nat) := []
  fed : List Nat := []
  short : List Nat := []
  spares : List (Nat × SpareSt) := []
  latest : List (Nat × Nat) := []
  conv : Option Nat := none
  hand : Option HandOver := none
  deriving DecidableEq, Repr

/-- The history of one source and instance (R402): the times of its occurrences in µs, newest first, and the number
since it became lasting. -/
structure Hist where
  times : List Nat := []
  since : Nat := 0
  deriving DecidableEq, Repr

/-- An entry of the fault log (R411). -/
structure FltEntry where
  time : Nat
  boot : Nat
  source : Nat
  inst : Nat
  kind : Nat
  cls : Nat
  count : Nat
  detail : Nat
  deriving DecidableEq, Repr

/-- An entry of the violation log (R53). -/
structure VioEntry where
  addr : Nat
  time : Nat
  opcode : Nat
  session : Nat
  transport : Nat
  reason : Nat
  source : Nat
  deriving DecidableEq, Repr

/-- An entry of the change log (R399). -/
structure ChgEntry where
  addr : Nat
  kind : Nat
  old : Nat
  new : Nat
  time : Nat
  session : Nat
  transport : Nat
  crc : Nat
  deriving DecidableEq, Repr

/-- One Chord beside its state in CHD.STATUS (R414 to R421): a split it waits for, a join it waits for, and whether
it was CARRIER before a restart. -/
structure Chord where
  toSplit : Bool := false
  joining : Bool := false
  joinAt : Nat := 0
  carrier : Bool := false
  deriving DecidableEq, Repr

/-- The fault ledger and the Chords (chapter 17): histories by 256 × source + instance, the transients of the present
tick by the same key, the Chords, the Chords marked FAILED in MRAM. -/
structure FlgSt where
  hist : List (Nat × Hist) := []
  tick : List (Nat × FltEntry) := []
  chords : List (Nat × Chord) := []
  chdFailed : List Nat := []
  deriving DecidableEq, Repr

/-- A frame in a transmit queue (R448): what produced it (0 command executor, 1 safe status, 2 time reference), when
it was enqueued and how long it lives, in µs. -/
structure TxFrame where
  frame : CanFrame
  kind : Nat
  born : Nat
  life : Nat
  deriving DecidableEq, Repr

/-- An entry of a receive log (R443): its number (RXSEQ shows it modulo 2^32), network time in ns, frame, FLAGS.TX,
LOST_N, byte offset in the payload pool. -/
structure LogEntry where
  rxseq : Nat
  time : Nat
  frame : CanFrame
  tx : Bool
  lostN : Nat
  pool : Nat
  deriving DecidableEq, Repr

/-- One CAN controller (R440 to R451): the log ring, oldest first, the number of the next entry, frames dropped since
the last entry, the next 64-byte unit of the pool, the numbers of the next entry CD0 and CD2 take, the transmit queue,
the shadow of the receive window, and whether recovery from bus-off was started. -/
structure CanSt where
  log : List LogEntry := []
  next : Nat := 1
  dropped : Nat := 0
  unit : Nat := 0
  cd0 : Nat := 1
  cd2 : Nat := 1
  tx : List TxFrame := []
  win : List Word := []
  recov : Bool := false
  deriving DecidableEq, Repr

/-- Network time (R452 to R454): nanoseconds at the time `at_` (µs), the slew that runs since `slewAt`, the latched
high word; the master's next SEQ and the start of its previous reference; the follower's last reference (SEQ and
logged time), the logged time before it, and corrections in a row without a step; when the master sent last and the
follower last had a usable reference, in µs. -/
structure TimeSt where
  ns : Nat := 0
  at_ : Nat := 0
  slew : Int := 0
  slewAt : Nat := 0
  hiLatch : Nat := 0
  refSeq : Nat := 0
  prevTime : Option Nat := none
  last : Option (Nat × Nat) := none
  before : Option Nat := none
  good : Nat := 0
  refAt : Option Nat := none
  usedAt : Nat := 0
  deriving DecidableEq, Repr

/-- One Ethernet frame on its way out: interface, destination MAC and address, ports, data. `kind` 0 is UDP, 1 an ARP
request, 2 an ARP reply, 3 an ICMP echo reply. -/
structure EthOut where
  phy : Nat
  mac : Nat
  ip : Nat
  sport : Nat
  dport : Nat
  data : List Byte
  kind : Nat := 0
  deriving DecidableEq, Repr

/-- An entry of the ARP cache (R456): interface, address, MAC, when it was learnt (µs). -/
structure Arp where
  phy : Nat
  ip : Nat
  mac : Nat
  at_ : Nat
  deriving DecidableEq, Repr

/-- CAN and Ethernet (chapter 19). `arp` lists the entries newest first; `out` holds what the MACs have sent in the
present tick, `peers` the MAC address a peer's last datagram came from, `rx` the frames that wait in the interfaces'
buffers while CD2 restarts, `arpAt` when the event destination was last asked for (µs). -/
structure BusSt where
  can : List (Nat × CanSt) := []
  time : TimeSt := {}
  arp : List Arp := []
  out : List EthOut := []
  peers : List (Nat × Nat) := []
  rx : List (Nat × EthFrame) := []
  arpAt : Option Nat := none
  deriving DecidableEq, Repr

/-- The charging session beside its registers (R315 to R320): the CONNECTING step and the time it began (ms),
whether a stop is an emergency, whether a press followed START, whether the lock opens after the
stop, whether the stop ends in FAULT, when the relays were released, whether a relay is welded, when state C was
accepted. -/
structure ChgSt where
  step : Nat := 0
  stepAt : Nat := 0
  emergency : Bool := false
  pressed : Bool := false
  unlockAfter : Bool := false
  toFault : Bool := false
  relAt : Option Nat := none
  welded : Bool := false
  stateC : Option Nat := none
  deriving DecidableEq, Repr

/-- A safety function's triggers (R375): bit 0 input, 1 message, 2 host, 3 internal; `by_` lists the internal
triggers (ledger source × 256 + instance, or a code above 2^16 for the loss function and the monitors), `grps` the
groups it acts on. -/
structure FuncSt where
  trig : Nat := 0
  by_ : List Nat := []
  grps : List Nat := []
  deriving DecidableEq, Repr

/-- One leg of the safe messages (R393 to R395): the counter of its last copy in sequence, that of a copy out of
sequence after it, copies paired in a row while out of service, the copies that wait for their partner, oldest
first, with the time they arrived in µs. -/
structure MsgPath where
  last : Option Nat := none
  cand : Option Nat := none
  paired : Nat := 0
  wait : List (List Byte × MsgLeg × Nat) := []
  deriving DecidableEq, Repr

/-- One safe input beside its register (R388): whether FAULT was written and its checking runs again, and the passes
in a row since. -/
structure SinSt where
  passes : Nat := 0
  checking : Bool := false
  deriving DecidableEq, Repr

/-- The safety functions beside their registers (chapter 16): function triggers, message legs (0 CAN, 1 Ethernet),
inputs, REQ and STL_LIM of the last accepted message, the counter of status messages, the source of the last accepted
Ethernet copy, whether the engage of safe park was accepted and since when PARK_TMAX runs, in ms
(R380), when a message was last accepted, in ms (R396), groups whose force lines fail their test (R373). -/
structure SafSt where
  funcs : List (Nat × FuncSt) := []
  legs : List (Nat × MsgPath) := []
  sins : List (Nat × SinSt) := []
  req : Nat := 0
  stlLim : Nat := 0xFFFF
  stat : Nat := 0
  ethPeer : Option MsgLeg := none
  parkOk : Bool := false
  parkAt : Option Nat := none
  msgAt : Nat := 0
  forceBad : List Nat := []
  deriving DecidableEq, Repr

/-- A run of a logical SAR converter (R165): its trigger source, the entry that converts next, whether its results are
delivered with SUSPECT (R180), and what its trigger makes of them (R174). -/
structure Run where
  trig : Nat
  entry : Nat
  suspect : Bool := false
  tag : TrigTag := .valid
  deriving DecidableEq, Repr

/-- A result on its way to its slot (R172), with the tags that need no window compare. -/
structure Sample where
  slot : Nat
  code : Nat
  run : Nat
  conv : Nat
  suspect : Bool
  refBad : Bool
  delayed : Bool
  diff : Bool
  deriving DecidableEq, Repr

/-- The leavings of a slot since the last management tick (R177). -/
structure Leaving where
  value : Nat
  below : Bool
  count : Nat
  deriving DecidableEq, Repr

/-- What one sub-window carries to the metrology island (R186). -/
structure SubWin where
  sums : List Int
  n : Nat
  cycle : Nat
  seq : Nat
  locked : Bool
  idx : Nat
  last : Bool
  deriving DecidableEq, Repr

/-- Measurement (chapter 7): runs in progress by converter, results held for a provisional trigger by its number
(R174), the number of results delivered so far, that number when each slot last took one, and when it last took one
without STALE, SUSPECT or REF_BAD with its code, leavings per slot, a converter SA8 takes at its next trigger with the
codes that told it (R180, R181), one that returns at its next trigger, the check list a load has replaced and that stays
in force to the next slot (R169); the mains detector: time of the last crossing in sixteenths of a modulator clock,
period before, good periods (R184); the cycle: where it began and where the sub-window in progress began, in modulator
clocks, its period, the modulator clock of a crossing that ends it, index, count, and the enables and MAINS_CFG in force
for it (R183, R185); the sub-windows the metrology island has not used. -/
structure MeaSt where
  runs : List (Nat × Run) := []
  held : List (Nat × Sample) := []
  total : Nat := 0
  stamp : List (Nat × Nat) := []
  usable : List (Nat × Nat × Nat) := []
  left : List (Nat × Leaving) := []
  subNext : Option Nat := none
  subCodes : Nat × Nat := (0, 0)
  relNext : Option Nat := none
  checkList : Option (List Byte) := none
  crossAt : Option Nat := none
  prevP : Option Nat := none
  lockN : Nat := 0
  cycAt : Nat := 0
  subAt : Nat := 0
  cycP : Nat := 1280000
  cut : Option Nat := none
  subIdx : Nat := 0
  cycle : Nat := 0
  seq : Nat := 0
  pcEn : Nat := 0
  mains : Word := 0
  xfer : List SubWin := []
  deriving DecidableEq, Repr


/-- One Lattice cell (R195 to R202): whether it has started since its group was armed, the ramped reference, the rate of
the target in force, integrator, derivative state and input, and output. -/
structure LCell where
  init : Bool := false
  rho : Int := 0
  rate : Nat := 0
  i : Int := 0
  dterm : Int := 0
  dPrev : Int := 0
  u : Int := 0
  deriving DecidableEq, Repr

/-- One rate group (R190, R204 to R206): the window it last evaluated in, the stamp of the latest result when that
evaluation began, the codes it used per cell, the cell states to return to while its token has not been taken, and
whether a new target reached one of its cells since it posted. -/
structure RateGrp where
  win : Nat := 0
  begun : Nat := 0
  inputs : List (Nat × Option Nat) := []
  saved : Option (List (Nat × LCell)) := none
  fresh : Bool := false
  deriving DecidableEq, Repr

/-- The Lattice (chapter 8). -/
structure LatSt where
  cells : List (Nat × LCell) := []
  rgs : List (Nat × RateGrp) := []
  deriving DecidableEq, Repr



/-- The pair a position unit latches for the engines (R260): POS, speed as in POS.SPEED, STATE and SPD_VALID. -/
structure Latched where
  pos : Nat := 0
  speed : Int := 0
  state : Nat := 0
  spdValid : Bool := false
  deriving DecidableEq, Repr

/-- One position unit (R258 to R277). `acc` is the position without wrapping, in units of 2^-40 of a count of POS, at
position clock `t`; `vel` its advance per position clock; `lim` the position an extrapolation is held at (R269).
`speed` is the speed of the last reference edge in units of POS.SPEED. `edges` are the reference edges since the
restart, newest first: time and position. `steps` counts the quadrature steps, `ix` the steps and direction at the
last index. `good` counts the consecutive good updates or words, `cosSeen` is the number of the last cos result.
`word` is the freeze time of an SSI word in progress, `ckHigh` the time from which CK may fall again. `late` lists
the compare units that fire in the next position clock. `hall` is the Hall state at the inputs, `spdOk` tells that a QUAD or HALL
unit has had its second reference edge or ZERO_TIME without one (R259), `edgeAt` when its last reference edge or restart was,
`excOff` that a lasting RES_EXC stopped the excitation (R262). -/
structure PosUnit where
  acc : Int := 0
  vel : Int := 0
  lim : Option Int := none
  t : Nat := 0
  speed : Int := 0
  edges : List (Nat × Int) := []
  dir : Int := 0
  level : Nat := 0
  sector : Option Nat := none
  steps : Int := 0
  ix : Option (Int × Int) := none
  good : Nat := 0
  cosSeen : Nat := 0
  word : Option Nat := none
  ckHigh : Nat := 0
  hasWord : Bool := false
  late : List Nat := []
  latched : Latched := {}
  hall : Nat := 0
  spdOk : Bool := false
  edgeAt : Nat := 0
  excOff : Bool := false
  deriving DecidableEq, Repr

/-- The pass-through of one unit (R276, R277): the emulated counts emitted, and for SSI_EMU the frozen word, the bits
sent, the time of the last clock edge, and the level of PT0; `since` is when the last count was emitted. -/
structure PassThru where
  emitted : Int := 0
  word : Nat := 0
  sent : Nat := 16
  edge : Nat := 0
  since : Nat := 0
  out : Bool := false
  deriving DecidableEq, Repr

/-- Position feedback (chapter 11): the position clock, units, pass-throughs, matches on their way to FE3 (unit and
compare unit, R275), and when EXT_RPM was last written, in ms (R283). -/
structure PosSt where
  clk : Nat := 0
  units : List (Nat × PosUnit) := []
  pts : List (Nat × PassThru) := []
  hits : List (Nat × Nat) := []
  ext : List (Nat × Nat) := []
  deriving DecidableEq, Repr



/-- The rotor observer of a traction engine (R278, R279): fluxes, previous currents, angle in rad and speed in rad/s,
consecutive high evaluations and evaluations that are not high, the speed in rpm. -/
structure Obs where
  psiA : Fl := Fl.zero
  psiB : Fl := Fl.zero
  ia : Fl := Fl.zero
  ib : Fl := Fl.zero
  theta : Fl := Fl.zero
  omega : Fl := Fl.zero
  high : Nat := 0
  low : Nat := 0
  n : Fl := Fl.zero
  deriving DecidableEq, Repr

/-- A traction field engine beside its registers (chapter 9 and R278 to R282). `win` is the window it last evaluated
in, `begun` the number of the latest result when its last evaluation began; the integrators, the
ramped and the applied torque, Δψ, |v_dq| before the limit and |v_xy| after it of the previous evaluation; the
references (d, q, x', y') of the previous evaluation; the voltage references committed last, newest first: the window they were
posted in, phase values, α and β; the legs with a sign in force, and whether it is positive; detection counts per phase and set, and what was detected
since ENABLE (phases 0 to 5, sets 6 and 7); the mode whose equations run (0 NORMAL, 1 FIVE_PHASE, 2 ONE_SET); the observer, evaluations of a catch and how many of the last ones saw standstill; the torque monitor
of R378. -/
structure FldEng where
  win : Nat := 0
  begun : Nat := 0
  intD : Fl := Fl.zero
  intQ : Fl := Fl.zero
  intX : Fl := Fl.zero
  intY : Fl := Fl.zero
  ramp : Fl := Fl.zero
  tq : Fl := Fl.zero
  dpsi : Fl := Fl.zero
  vReq : Fl := Fl.zero
  vXy : Fl := Fl.zero
  refs : List Fl := []
  volts : List (Nat × List Fl × Fl × Fl) := []
  pos : List (Nat × Bool) := []
  openN : List Nat := [0, 0, 0, 0, 0, 0]
  sumN : List Nat := [0, 0]
  found : List Nat := []
  base : Nat := 0
  obs : Obs := {}
  catchN : Nat := 0
  still : Nat := 0
  stlN : Nat := 0
  deriving DecidableEq, Repr

/-- The field engines (chapter 9): the records of FE0 and FE1, and a mask of the entries of each map bank written
since COMPLETE was last 0 (R227). -/
structure FldSt where
  eng : List (Nat × FldEng) := []
  written : List (Nat × Nat) := []
  deriving DecidableEq, Repr



/-- The DC-link supervisor (chapter 10): the number of the last result it evaluated, whether it has reported the loss
of its input, the level without the L3 cell, whether the L3 cell was in trip when last seen and whether a trip of it
waits to be announced at the tick (R249), the groups whose latch L2
set (R251), the link voltage in units of 2^-16 V. -/
structure DclSt where
  seen : Nat := 0
  lost : Bool := false
  level : Nat := 0
  l3 : Bool := false
  tell3 : Bool := false
  l2 : List Nat := []
  v : Nat := 0
  deriving DecidableEq, Repr



/-- What the oil pump does (R300, R301): legs off; catching; a current start; the speed loop; running down to a
reversal or to IDLE; waiting for a catch to begin again. -/
inductive PumpPhase where
  | off
  | catching
  | start
  | run
  | down
  | wait
  deriving DecidableEq, Repr

/-- One actuator of FE3 beside its registers (R287 to R301): the window it last evaluated in, number of the latest
result when its last evaluation began, integrators, the travel in units of POS and the last latched POS, the target,
the travel at which the move began, consecutive evaluations at the target and pulse clocks of a stall,
whether the clutch references and whether the legs hold the park lock, a command that waits,
whether the shift drum moves to a reverse gear, and for the pump: phase, observer, lock, frame speed (rpm) and angle (turns), counts
of a catch, the voltages committed last, newest first: the window they were posted in, α and β; consecutive overspeed pairs (R379). -/
structure ActEng where
  win : Nat := 0
  begun : Nat := 0
  intD : Fl := Fl.zero
  intQ : Fl := Fl.zero
  intN : Fl := Fl.zero
  travel : Int := 0
  prev : Option Nat := none
  target : Int := 0
  fromPos : Int := 0
  reach : Nat := 0
  stall : Nat := 0
  refing : Bool := false
  holding : Bool := false
  waits : Option Nat := none
  phase : PumpPhase := .off
  obs : Obs := {}
  locked : Bool := false
  frameN : Fl := Fl.zero
  frameA : Fl := Fl.zero
  evals : Nat := 0
  quiet : Nat := 0
  rev : Bool := false
  volts : List (Nat × Fl × Fl) := []
  slsN : Nat := 0
  deriving DecidableEq, Repr

/-- FE3 (chapter 12): the actuators; the charge-port lock: the window it last evaluated in, the command held off for
20 ms after a reversal, a command that waits for the group. -/
structure ActSt where
  eng : List (Nat × ActEng) := []
  cplWin : Nat := 0
  cplNext : Option Nat := none
  cplWaits : Option Nat := none
  deriving DecidableEq, Repr



/-- The active front end on FE2 (R305 to R309): the window it last evaluated in, the number of the latest result when
its last evaluation began, whether tracking has begun; angle (rad) and speed (rad/s) of its phase-locked loop,
consecutive evaluations inside and outside the limits; integrators of bus, current and neutral loops; the ramped bus
reference once the group is ARMED; pulse clocks outside the grid window; va and the leg current of past evaluations,
newest first, for single-phase operation. -/
structure AfeSt where
  win : Nat := 0
  begun : Nat := 0
  tracking : Bool := false
  theta : Fl := Fl.zero
  omega : Fl := Fl.zero
  inN : Nat := 0
  outN : Nat := 0
  intV : Fl := Fl.zero
  intD : Fl := Fl.zero
  intQ : Fl := Fl.zero
  intZ : Fl := Fl.zero
  vfe : Option Fl := none
  badT : Nat := 0
  va : List Fl := []
  ia : List Fl := []
  vPk : Fl := Fl.zero
  deriving DecidableEq, Repr



/-- What a metering span began with (R334, R335): TOTAL import and export, Q1 + Q2, Q3 + Q4, cycles with lost
sub-windows, cycles with unlocked ones, all counted since key generation. -/
structure Span where
  imp : Nat := 0
  exp : Nat := 0
  qpos : Nat := 0
  qneg : Nat := 0
  gap : Nat := 0
  unl : Nat := 0
  deriving DecidableEq, Repr

/-- The metrology island (chapter 14): the 24 energy registers in the order of METER_READ and their residues in
2^-32 units, both also as last committed with the MONO_S of that commit; active and reactive energy of the present
cycle per phase in mWh; corrected means of the previous sub-window, the phase voltages of the last 64, newest first;
the last sequence number and mains cycle and the sub-windows an update has told of already, whether the present cycle lost sub-windows or held an unlocked one, cycles of both kinds so
far; the open interval and session spans; the record ring, oldest first; key number, seals, session number, whether it
exports, a SESSION_START and a SESSION_END that wait for the island, the time in ms of the last interval boundary; MONO in µs, UTC in ms; the calibration
in force; the digest of an updated image and the first bytes of the one before; a POWER_UP record that is due; sub-windows missed during an update. -/
structure MtrSt where
  regs : List Nat := List.replicate 24 0
  resid : List Nat := List.replicate 24 0
  commit : List Nat := List.replicate 24 0
  commitRes : List Nat := List.replicate 24 0
  commitMono : Nat := 0
  e : List Rat := [0, 0, 0]
  q : List Rat := [0, 0, 0]
  prev : Option (List Rat) := none
  hist : List (List Rat) := []
  lastSeq : Option Nat := none
  lastCyc : Option Nat := none
  told : Nat := 0
  gapHere : Bool := false
  unlHere : Bool := false
  gaps : Nat := 0
  unl : Nat := 0
  ivl : Span := {}
  ses : Span := {}
  ring : List (List Byte) := []
  key : Option Nat := none
  seals : Nat := 0
  session : Nat := 0
  export_ : Bool := false
  startPend : Bool := false
  endPend : Bool := false
  boundary : Option Nat := none
  mono : Nat := 0
  utc : Option Nat := none
  cal : List Byte := []
  digest : Option (List Byte) := none
  prevTag : Nat := 0
  powerUp : Bool := false
  missed : Nat := 0
  deriving DecidableEq, Repr



/-- The buck sequencer (R346 to R353): CBC_CYCLES of the peak cells at the previous evaluation, limited windows in a
row, evaluations in a row below DE_ENTER, the number of the latest result when it last evaluated, the thresholds (cell
and code) of the burst posted last and of the burst whose reload has not yet crossed, and whether the burst posted last
is one of a hiccup, and when the hiccup began, in µs. -/
structure CnvSt where
  cyc : List Nat := []
  limited : Nat := 0
  deN : Nat := 0
  seen : Nat := 0
  posted : Option (List (Nat × Nat)) := none
  hiccup : Bool := false
  hiccupAt : Nat := 0
  crossing : List (Nat × Nat) := []
  deriving DecidableEq, Repr

/-- The power path (R356 to R365): the classification that waits for agreement and how often it was seen, half
milliseconds of the safety timer below one second, the state before the rest, the battery voltages of the rest (mV),
battery voltage (µV) and current (µA) of the last evaluations, newest first, since when a long press holds the
switch open, the ticks for which the 48 V bus has read below 36 V, when charging began or a rest last began or ended (all in
ms), the ticks for which the current of CV has stayed below I_TERM. -/
structure LvpSt where
  cand : Nat × Nat := (0, 0)
  candN : Nat := 0
  timer : Nat := 0
  restFrom : Nat := 0
  ocvs : List Nat := []
  batt : List (Int × Int) := []
  longOpen : Option Nat := none
  low48 : Nat := 0
  stageAt : Nat := 0
  term : Nat := 0
  deriving DecidableEq, Repr



/-- A scrub that runs (R435): first page, page count, when it was accepted (ms), the pages read so far, the split Chord it runs on. -/
structure Scrub where
  first : Nat
  count : Nat
  since : Nat
  read : Nat
  chord : Option Nat
  deriving DecidableEq, Repr

/-- A merge-buffer slot with unwritten changes (R433): page, times of the first and the last of them in µs,
what the page held before them. -/
structure MergeSlot where
  page : Nat
  first : Nat
  last : Nat
  old : List Byte
  deriving DecidableEq, Repr

/-- The memories beside their registers (chapter 18): a scrub that runs; the retirement map, logical to physical page,
and the spare pages used; the recorded strength of pages not at their region's default T; pages whose content was
found uncorrectable and pages marked POISON; writes per physical page beside region wipes, and those per region; pages
whose wear was reported; the merge buffer; SRAM words corrected in this boot; rows on the repair list; the spare
rows in use (8 × array + place) with the row each replaces. -/
structure MemSt where
  scrub : Option Scrub := none
  retired : List (Nat × Nat) := []
  used : Nat := 0
  str : List (Nat × Nat) := []
  bad : List Nat := []
  poison : List Nat := []
  writes : List (Nat × Nat) := []
  wipes : List (Nat × Nat) := []
  warned : List Nat := []
  merge : List MergeSlot := []
  words : List Nat := []
  repair : List Nat := []
  rowsUsed : List (Nat × Nat) := []
  deriving DecidableEq, Repr


/-- A firmware slot (R471): the header of its image and the bytes written into it. -/
structure FwSlot where
  header : List Byte := []
  data : List (Nat × Byte) := []
  deriving DecidableEq, Repr

/-- An open firmware update (R471 to R474): slot 0 or 1, header, time of its last packet (µs), the signature and
ACTIVATE of END, the split Chord that checks. -/
structure FwUpd where
  slot : Nat
  header : List Byte
  since : Nat
  sig : Option (List Byte) := none
  live : Bool := false
  chord : Option Nat := none
  deriving DecidableEq, Repr

/-- Power-up, life cycle and firmware (chapter 20): whether the supplies and RESET_N hold the device in reset, the
cause of the reset that lasts; the slots by 2 × kind + slot (kind 0 management, 1 metrology); open updates by kind; the
target of a life-cycle transition in progress, with session and transport of its request; whether its reset is due;
whether a RESET of the device was answered and begins with the next tick (R50); whether the boot fell back and has not
told so; a verified image that waits for its live activation; the time of reset release in µs; whether the 25 MHz
reference is lost (R15), and whether the core die lost VDD_CORE and cannot tell of it yet (R31, R32). -/
structure LcySt where
  held : Bool := true
  cause : Nat := 1
  slots : List (Nat × FwSlot) := []
  upd : List (Nat × FwUpd) := []
  trans : Option (Nat × Nat × Nat) := none
  resetDue : Bool := false
  resetSoon : Bool := false
  fellBack : Bool := false
  live : Option Nat := none
  relAt : Nat := 0
  refLost : Bool := false
  coreLost : Bool := false
  deriving DecidableEq, Repr

/-- The state that is no parameter and no table, by chapter. `now` is the time in µs since power-on, `resetAt` the
time of the last device reset, `fresh` counts the free values drawn (the model's own). -/
structure Hidden where
  now : Nat := 0
  resetAt : Nat := 0
  fresh : Nat := 0
  cmd : CmdSt := {}
  pls : PlsSt := {}
  trp : TrpSt := {}
  flg : FlgSt := {}
  bus : BusSt := {}
  chg : ChgSt := {}
  saf : SafSt := {}
  mea : MeaSt := {}
  lat : LatSt := {}
  pos : PosSt := {}
  fld : FldSt := {}
  dcl : DclSt := {}
  act : ActSt := {}
  afe : AfeSt := {}
  mtr : MtrSt := {}
  cnv : CnvSt := {}
  lvp : LvpSt := {}
  mem : MemSt := {}
  lcy : LcySt := {}
  deriving DecidableEq, Repr

/-- The bounded queues and logs: the outbound queue of the host SPI (R68, R69), the violation log (R53), the fault
log and the queue in front of it (R411, R412), the change log (R399). -/
structure Queues where
  spi : List OutPkt := []
  vio : List VioEntry := []
  flt : List FltEntry := []
  fltQ : List FltEntry := []
  chg : List ChgEntry := []
  deriving DecidableEq, Repr

/-- The state of the block: parameters by 24-bit address (R7), table bytes by table ID × 2^24 + offset, the rest of
the state, the queues, and the commands that wait, first in, first out. -/
structure State where
  regs : List (Nat × Word)
  tabs : List (Nat × Byte)
  hid : Hidden
  que : Queues
  pending : List Instr
  deriving DecidableEq, Repr

/-- Faults: the block never stops with one. `noFault` is raised by nothing (safe). -/
inductive Fault where
  | noFault
  deriving DecidableEq, Repr

/-- Refusals. `notModelled` is answered by an arm of exec without a meaning, and by nothing else (safe).
`illFormed` is answered where a command's operands name what no sender can send, as `Instr.wf` says (safe: no such
command exists on the hardware). -/
inductive Refusal where
  | notModelled (mnemonic : String)
  | illFormed
  deriving DecidableEq, Repr

/-- The device right after reset (R460, R462, R465): every parameter and table at its reset value, which the empty
lists read as; no command waits. -/
def State.reset : State := ⟨[], [], {}, {}, []⟩

end Sys2Proof.Machine
end

