-- ==== Sys2Proof/Machine/Ops.lean ====
section
/-! DEFINITION. The named operations over the state. A meaning is a program `M Unit` over a small set of actions;
`M.run` runs it. Nothing but the actions changes the state, so what holds of every action holds of every command. -/

namespace Sys2Proof.Machine

/-! ## Parameters and tables -/

/-- The word of MEM.REGION[r] at reset: T, MIRRORED and FIRST_PAGE of R428. -/
def regionReset : Nat → Word
  | 0 => 0xA2000000
  | 1 => 0xA2000080
  | 2 => 0xA20000F0
  | 3 => 0x40000100
  | 4 => 0x40000200
  | 5 => 0x40000A00
  | 6 => 0x60000C00
  | 7 => 0x40001800
  | 8 => 0x40002000
  | _ => 0

/-- The reset word of the parameter at address `a`, as its register table gives it; unmapped addresses read 0. LCY.FW_STAT has no
reset value in the spec: slot A holds the factory image, VALID (DESIGN CHOICE, log entry 3). -/
def resetWord (a : Nat) : Word :=
  match regAt a with
  | none => 0
  | some r =>
    match r.name with
    | .MEA_CONV_STAT => BitVec.ofNat 32 ((if r.ix1 a = 8 then 0xF else r.ix1 a) * 0x1000000)
    | .MEM_REGION => regionReset (r.ix1 a)
    | .LCY_FW_STAT => 0x20000000
    | _ => r.reset

/-- The bits of the parameter at `a` that exist: not reserved (R52). -/
def implMask (a : Nat) : Word :=
  match regAt a with
  | none => 0
  | some r => ~~~r.res

/-- The factory entry of a fault-ledger source (R404, R406): N, class, W in ms, FIXED; from the defaults tables of the
chapters (R505, R61, R82, R506, R135, R136, R158, R188, R209, R241, R256, R286, R299, R324, R369, R401, R423, R439,
R459, R479). -/
def ledgerFactory : Nat → Option (Nat × Nat × Nat × Bool)
  | 0 => some (1, 0, 1, true)
  | 1 => some (1, 2, 1, true)
  | 2 => some (1, 0, 1, true)
  | 10 => some (5, 0, 60000, false)
  | 20 => some (4, 2, 10, false)
  | 30 => some (3, 2, 1, false)
  | 31 => some (16, 0, 10, false)
  | 32 => some (1, 2, 1, true)
  | 40 => some (1, 0, 1, false)
  | 41 => some (4, 0, 1000, false)
  | 50 => some (8, 2, 10, false)
  | 51 => some (1, 0, 1, false)
  | 52 => some (1, 0, 1, false)
  | 53 => some (1, 0, 1, false)
  | 54 => some (1, 0, 1, false)
  | 55 => some (1, 0, 1, false)
  | 60 => some (3, 2, 1, false)
  | 61 => some (1, 0, 1, false)
  | 62 => some (1, 0, 1, false)
  | 63 => some (1, 2, 1, false)
  | 64 => some (1, 0, 1, false)
  | 70 => some (3, 2, 1, false)
  | 80 => some (3, 2, 1, false)
  | 81 => some (1, 0, 1, false)
  | 82 => some (1, 0, 1, false)
  | 83 => some (1, 0, 1, false)
  | 84 => some (1, 1, 1, false)
  | 85 => some (3, 2, 1, false)
  | 86 => some (1, 0, 1, false)
  | 87 => some (1, 0, 1, false)
  | 90 => some (1, 0, 1, false)
  | 91 => some (1, 0, 1, false)
  | 92 => some (1, 0, 1, false)
  | 93 => some (1, 0, 1, false)
  | 94 => some (3, 0, 10, false)
  | 100 => some (4, 0, 1, false)
  | 101 => some (4, 0, 1, false)
  | 102 => some (1, 0, 1, false)
  | 103 => some (3, 0, 10, false)
  | 104 => some (8, 0, 10, false)
  | 105 => some (2, 0, 100, false)
  | 106 => some (3, 0, 10, false)
  | 107 => some (1, 0, 1, false)
  | 108 => some (1, 0, 1, false)
  | 109 => some (1, 2, 1, false)
  | 110 => some (3, 2, 1, false)
  | 111 => some (1, 0, 1, false)
  | 112 => some (1, 0, 1, false)
  | 113 => some (1, 0, 1, false)
  | 114 => some (3, 2, 1000, false)
  | 115 => some (1, 0, 1, false)
  | 116 => some (1, 0, 1, false)
  | 120 => some (1, 0, 1, false)
  | 121 => some (1, 0, 1, false)
  | 122 => some (1, 0, 1, false)
  | 123 => some (1, 0, 1, false)
  | 124 => some (1, 0, 1, false)
  | 140 => some (8, 2, 10000, false)
  | 150 => some (1, 0, 1, false)
  | 151 => some (1, 0, 1, false)
  | 152 => some (3, 0, 10, false)
  | 160 => some (1, 3, 1, true)
  | 161 => some (1, 0, 1, false)
  | 162 => some (1, 0, 1, false)
  | 163 => some (1, 0, 1, false)
  | 164 => some (3, 0, 100, false)
  | 165 => some (2, 0, 100, false)
  | 166 => some (1, 0, 1, false)
  | 167 => some (1, 0, 1, false)
  | 168 => some (1, 0, 1, false)
  | 180 => some (3, 0, 1000, true)
  | 181 => some (1, 0, 1, true)
  | 182 => some (1, 0, 1, false)
  | 190 => some (1, 0, 1, false)
  | 191 => some (1, 0, 1, false)
  | 192 => some (1, 0, 1, false)
  | 193 => some (8, 0, 1000, false)
  | 194 => some (1, 0, 1, false)
  | 195 => some (1, 0, 1, false)
  | 196 => some (1, 0, 1, false)
  | 200 => some (3, 0, 1000, false)
  | 201 => some (3, 0, 1000, false)
  | 202 => some (3, 0, 1000, false)
  | 203 => some (3, 0, 1000, false)
  | 204 => some (16, 0, 100, false)
  | 205 => some (1, 0, 1, false)
  | 210 => some (1, 0, 1, false)
  | 211 => some (1, 0, 1, false)
  | 212 => some (3, 0, 1000, false)
  | 220 => some (1, 0, 1, false)
  | 221 => some (1, 0, 1, false)
  | _ => none

/-- Byte `o` of the factory entry of table 0x60 (R406): N, CLASS, W, FLAGS; unused entries read 0 throughout. -/
def ledgerByte (s o : Nat) : Byte :=
  match ledgerFactory s with
  | none => 0
  | some (n, c, w, fixed) =>
    match o with
    | 0 => BitVec.ofNat 8 n
    | 1 => BitVec.ofNat 8 c
    | 2 => BitVec.ofNat 8 w
    | 3 => BitVec.ofNat 8 (w / 256)
    | 4 => if fixed then 1 else 0
    | _ => 0

/-- Entry size and entry count of a table (R48, R77, R81, R116, R164, R193, R223, R328, R406); table 0x70 holds its
entries apart (R63). -/
def tableDim : Nat → Option (Nat × Nat)
  | 0x10 => some (8, 16384)
  | 0x11 => some (8, 16384)
  | 0x12 => some (8, 16384)
  | 0x13 => some (8, 16384)
  | 0x20 => some (64, 192)
  | 0x30 => some (8, 144)
  | 0x31 => some (12, 48)
  | 0x40 => some (20, 72)
  | 0x50 => some (8, 32)
  | 0x51 => some (8, 32)
  | 0x52 => some (8, 32)
  | 0x53 => some (8, 32)
  | 0x54 => some (8, 32)
  | 0x55 => some (8, 32)
  | 0x56 => some (8, 32)
  | 0x57 => some (8, 32)
  | 0x58 => some (8, 32)
  | 0x60 => some (8, 256)
  | 0x80 => some (12, 16)
  | _ => none

/-- The number of bytes a table holds (R48). -/
def tableBytes (id : Nat) : Nat :=
  match tableDim id with
  | some (size, count) => size * count
  | none => 0

/-- The key of byte `o` of table `id` in the table store. -/
def tkey (id o : Nat) : Nat := id * 16777216 + o

/-- Byte `o` of entry `e` of table 0x58 after reset (R164): the four factory entries, the last with LAST. -/
def sarCheckByte (e o : Nat) : Byte :=
  let entry : List Nat := match e with
    | 0 => [0x40, 0xFF, 0, 0, 0, 0, 32, 0]
    | 1 => [0x44, 0xFF, 0, 0, 0x5C, 0x3F, 0xA4, 0x40]
    | 2 => [0x41, 0xFF, 0, 0, 0x5C, 0x7F, 0xA4, 0x80]
    | 3 => [0x45, 0xFF, 0x80, 0, 0x5C, 0xBF, 0xA4, 0xC0]
    | _ => [0, 0xFF, 0, 0, 0, 0, 0, 0]
  BitVec.ofNat 8 (entry.getD o 0)

/-- What an unlisted table byte reads as: the table's reset contents (R77, R81, R116, R164, R193, R406). -/
def resetByte (k : Nat) : Byte :=
  let o := k % 16777216
  if 0x50 ≤ k / 16777216 ∧ k / 16777216 < 0x58 then (if o % 8 = 1 then 0xFF else 0) else
  match k / 16777216 with
  | 0x20 => if o % 64 = 0 ∨ o % 64 = 3 then 0xFF else 0
  | 0x30 => 0xFF
  | 0x31 => if o % 12 < 8 then 0xFF else 0
  | 0x58 => sarCheckByte (o / 8) (o % 8)
  | 0x60 => ledgerByte (o / 8) (o % 8)
  | _ => 0

/-- A table byte. -/
def State.tb (s : State) (id o : Nat) : Byte := sget (resetByte (tkey id o)) s.tabs (tkey id o)

/-- `n` table bytes from offset `o`. -/
def State.tbs (s : State) (id o n : Nat) : List Byte := (List.range n).map fun i => s.tb id (o + i)

/-- A little-endian table field of `n` bytes at offset `o`. -/
def State.tn (s : State) (id o n : Nat) : Nat := ofLe (s.tbs id o n)

/-- The word of a mirror at address `a` (R77, R81, R116, R164, R193, R406, R446). -/
def State.mirror (s : State) (r : RegSpec) (a : Nat) : Word :=
  let i := r.ix1 a
  let w := r.ix2 a
  match r.name with
  | .MAP_CHMAP => BitVec.ofNat 32 (s.tn 0x30 (8 * i + 4 * w) 4)
  | .MAP_ILK => BitVec.ofNat 32 (s.tn 0x31 (12 * i + 4 * w) 4)
  | .TRP_CELLCFG => BitVec.ofNat 32 (s.tn 0x40 (20 * i + 4 * w) 4)
  | .MEA_SEQ => BitVec.ofNat 32 (s.tn (0x50 + i) (4 * w) 4)
  | .LAT_DESC => BitVec.ofNat 32 (s.tn 0x20 (64 * i + 4 * w) 4)
  | .FLG_ENTRY0 => BitVec.ofNat 32 (s.tn 0x60 (8 * i) 4)
  | .FLG_ENTRY1 => BitVec.ofNat 32 (s.tn 0x60 (8 * i + 4) 4)
  | .BUS_WINDATA => (mget ({} : CanSt) s.hid.bus.can i).win.getD w 0
  | _ => 0

/-- The word the parameter at address `a` holds (R7). -/
def State.rd (s : State) (a : Nat) : Word := sget (resetWord a) s.regs a

/-- The number a field holds. -/
def State.f (s : State) (x : FldAt) : Nat := bitsOf (s.rd x.addr) x.hi x.lo

/-! ## Actions and programs -/

/-- The actions: the only ways a command changes the state. -/
inductive Act where
  /-- store a word in a mapped parameter; reserved bits stay 0 -/
  | reg (a : Nat) (w : Word)
  /-- store a byte of a table; there is none beyond its end -/
  | tab (k : Nat) (b : Byte)
  /-- change the state that is no parameter -/
  | hid (f : Hidden → Hidden)
  /-- put a reply, which is no event, into the outbound SPI queue -/
  | spiReply (p : OutPkt)
  /-- put an event into the outbound SPI queue, which holds 64 of them -/
  | spiEvent (p : OutPkt)
  /-- take the oldest packet out of the SPI queue -/
  | spiPop
  /-- empty the SPI queue -/
  | spiClear
  /-- enter the violation log -/
  | vio (e : VioEntry)
  | vioClear
  /-- queue an entry for the fault log; the flag says it is a lasting entry -/
  | fltQueue (e : FltEntry) (lasting : Bool)
  /-- the firmware takes the queued entries into the fault log -/
  | fltTake
  | fltClear
  /-- the queue in front of the fault log is lost -/
  | fltQDrop
  /-- enter the change log -/
  | chg (e : ChgEntry)
  | chgClear
  /-- return every parameter but the kept ones to its reset value -/
  | regsReset (keep : Nat → Bool)
  /-- return every table byte but the kept ones to its reset value -/
  | tabsReset (keep : Nat → Bool)

/-- The places of the queue in front of the fault log that an entry may take: the last 32 are for lasting ones (R412). -/
def fltLimit (lasting : Bool) : Nat := if lasting then 256 else 224

/-- Events among the packets of a queue. -/
def eventCount (l : List OutPkt) : Nat := (l.filter fun p => bit p.flags 1).length

/-- The effect of one action. -/
def Act.apply : Act → State → State
  | .reg a w, s =>
    if (regAt a).isSome then { s with regs := swrite resetWord s.regs a (w &&& implMask a) } else s
  | .tab k b, s =>
    if k % 16777216 < tableBytes (k / 16777216) then { s with tabs := swrite resetByte s.tabs k b } else s
  | .hid f, s => { s with hid := f s.hid }
  | .spiReply p, s => { s with que := { s.que with spi := s.que.spi ++ [{ p with flags := clrBit p.flags 1 }] } }
  | .spiEvent p, s =>
    if eventCount s.que.spi < 64 then { s with que := { s.que with spi := s.que.spi ++ [p] } } else s
  | .spiPop, s => { s with que := { s.que with spi := s.que.spi.tail } }
  | .spiClear, s => { s with que := { s.que with spi := [] } }
  | .vio e, s => { s with que := { s.que with vio := ringPush 64 s.que.vio e } }
  | .vioClear, s => { s with que := { s.que with vio := [] } }
  | .fltQueue e l, s =>
    if s.que.fltQ.length < fltLimit l then
      { s with que := { s.que with fltQ := s.que.fltQ ++ [e] } }
    else s
  | .fltTake, s =>
    { s with que := { s.que with flt := s.que.fltQ.foldl (ringPush 4096) s.que.flt, fltQ := [] } }
  | .fltClear, s => { s with que := { s.que with flt := [] } }
  | .fltQDrop, s => { s with que := { s.que with fltQ := [] } }
  | .chg e, s => { s with que := { s.que with chg := ringPush 1024 s.que.chg e } }
  | .chgClear, s => { s with que := { s.que with chg := [] } }
  | .regsReset keep, s => { s with regs := s.regs.filter fun c => keep c.1 }
  | .tabsReset keep, s => { s with tabs := s.tabs.filter fun c => keep c.1 }

/-- A program of actions that may read the state between them. -/
inductive Prog where
  | done
  | read (k : State → Prog)
  | act (a : Act) (k : Prog)

/-- Run a program. -/
def Prog.run : Prog → State → State
  | .done, s => s
  | .read k, s => (k s).run s
  | .act a k, s => k.run (a.apply s)

/-- A computation that reads the state and takes actions. -/
abbrev M := ContT Prog Id

/-- The state now. -/
def getS : M State := fun k => Prog.read k

/-- Take an action. -/
def act (a : Act) : M Unit := fun k => Prog.act a (k ())

/-- Run a computation on a state. -/
def M.run (m : M Unit) (s : State) : State := Prog.run (m fun _ => .done) s

/-- Run a computation and answer the next state. -/
def M.next (m : M Unit) (s : State) : Host.Outcome State Fault Refusal := .next (m.run s)

/-- Read a parameter. -/
def rd (a : Nat) : M Word := do return (← getS).rd a

/-- Write a parameter's word. -/
def wr (a : Nat) (w : Word) : M Unit := act (.reg a w)

/-- Read a field. -/
def rf (x : FldAt) : M Nat := do return (← getS).f x

/-- Write a field. -/
def wf (x : FldAt) (v : Nat) : M Unit := do wr x.addr (withBits (← rd x.addr) x.hi x.lo v)

/-- Add one to a counter field that saturates. -/
def inc (x : FldAt) : M Unit := do
  let v ← rf x
  if v + 1 < 2 ^ (x.hi + 1 - x.lo) then wf x (v + 1)

/-- Add `n` to a counter field that saturates. -/
def incBy (x : FldAt) (n : Nat) : M Unit := do
  let v ← rf x
  wf x (min (v + n) (2 ^ (x.hi + 1 - x.lo) - 1))

/-- Add one to a counter field that wraps. -/
def incWrap (x : FldAt) : M Unit := do wf x ((← rf x) + 1)

/-- Change the state that is no parameter. -/
def hid (f : Hidden → Hidden) : M Unit := act (.hid f)

/-- The state that is no parameter. -/
def hidden : M Hidden := do return (← getS).hid

/-- A Boolean as a field value. -/
def b2n (b : Bool) : Nat := if b then 1 else 0

/-- Store table bytes from offset `o`. -/
def wtab (id o : Nat) (bs : List Byte) : M Unit :=
  (bs.zip (List.range bs.length)).forM fun p => act (.tab (tkey id (o + p.2)) p.1)

/-- A fresh free value. -/
def fresh : M Nat := do
  let h ← hidden
  hid fun h => { h with fresh := h.fresh + 1 }
  return Config.freeNat h.fresh

/-- `n` fresh free values that are rational numbers. -/
def freshRats (n : Nat) : M (List Rat) := do
  let h ← hidden
  hid fun h => { h with fresh := h.fresh + n }
  return (List.range n).map fun i => Config.freeRat (h.fresh + i)

/-- `n` fresh random bytes. -/
def freshBytes (n : Nat) : M (List Byte) := do
  let h ← hidden
  hid fun h => { h with fresh := h.fresh + 1 }
  return (List.range n).map (Config.freeByte h.fresh)

/-- Milliseconds since the device reset (R53, R72). -/
def State.ms (s : State) : Nat := (s.hid.now - s.hid.resetAt) / 1000

/-! ## Events -/

/-- The bytes of an outgoing packet, with header and CRC (R35, R37). -/
def OutPkt.bytes (p : OutPkt) : List Byte :=
  let b := leBytes 2 0x5A3C ++ leBytes 1 p.version ++ leBytes 1 p.flags ++ leBytes 2 p.seq ++ leBytes 2 p.opcode ++
    leBytes 2 p.payload.length ++ leBytes 2 p.session ++ leBytes 1 p.page ++ leBytes 2 p.inst ++ leBytes 1 p.scope ++
    p.payload
  b ++ leBytes 4 (crc32c b)

/-- Insert a frame into a transmit queue ordered by identifier, after those of the same identifier (R448). -/
def txInsert (t : TxFrame) : List TxFrame → List TxFrame
  | [] => [t]
  | u :: r => if t.frame.id % 536870912 < u.frame.id % 536870912 then t :: u :: r else u :: txInsert t r

/-- Enqueue a frame for transmission on controller `n` (R448). The answer is the frame that was lost for it: the new
one when it is dropped, a displaced one, or none. -/
def canEnqueue (n : Nat) (t : TxFrame) : M (Option TxFrame) := do
  let c := mget ({} : CanSt) (← hidden).bus.can n
  let set (l : List TxFrame) : M Unit := do
    hid fun h => { h with bus := { h.bus with can := mupd {} h.bus.can n fun c => { c with tx := l } } }
    wf (BUS.TX_STAT.QUEUED n) l.length
  if c.tx.length < 32 then
    set (txInsert t c.tx)
    return none
  match c.tx.getLast? with
  | none => return none
  | some u =>
    if t.frame.id % 536870912 < u.frame.id % 536870912 then
      set (txInsert t c.tx.dropLast)
      inc (BUS.TX_STAT.DISPLACED n)
      return some u
    inc (BUS.TX_STAT.FULL n)
    return some t

/-- Whether the host link serves: not in BOOT unless a recovery boot opened the host SPI (R49, R476). -/
def State.linkOpen (s : State) : Bool := s.f SYS.STATUS.DEV_STATE != 0

/-- Whether the packet mode is in use (R9). -/
def State.packetMode (s : State) : Bool := s.f SYS.STATUS.HOSTMODE == 1

/-- A dropped event on a route (0 SPI, 1 CAN XL, 2 UDP) counts in CMD.EVENT_CFG.LOST and in the next delivered
event of the route (R72). -/
def eventLost (route : Nat) : M Unit := do
  inc CMD.EVENT_CFG.LOST
  hid fun h => { h with cmd := { h.cmd with evtLost := mupd 0 h.cmd.evtLost route (· + 1) } }

/-- The event packet of a route: SEQ counts per route, the payload begins with TIME, LOST and two reserved bytes. -/
def eventPacket (route op page inst scope : Nat) (body : List Byte) : M OutPkt := do
  let s ← getS
  return { flags := 2, seq := mget 0 s.hid.cmd.evtSeq route % 65536, opcode := op, page := page, inst := inst,
           scope := scope,
           payload := leBytes 4 s.ms ++ leBytes 2 (mget 0 s.hid.cmd.evtLost route) ++ leBytes 2 0 ++ body }

/-- The event was delivered on its route: the next SEQ, and the drops are told. -/
def eventDelivered (route : Nat) : M Unit :=
  hid fun h => { h with cmd := { h.cmd with
    evtSeq := mupd 0 h.cmd.evtSeq route (· + 1), evtLost := mupd 0 h.cmd.evtLost route fun _ => 0 } }

/-- ATTN follows the outbound queue in packet mode; in legacy mode it follows lasting sources and RX_VALID
(R69, R70, R410). -/
def setAttn : M Unit := do
  let s ← getS
  let on := if s.packetMode then !s.que.spi.isEmpty
            else decide (0 < s.f FLG.STATUS1.LASTING_SRC) || s.f CMD.TUNNEL_CTL.RX_VALID == 1
  hid fun h => { h with cmd := { h.cmd with attn := on } }

/-- Deliver an event packet on the SPI route (R68, R69, R71, R72). -/
def eventSpi (op page inst scope : Nat) (body : List Byte) : M Unit := do
  let s ← getS
  if s.packetMode && decide (eventCount s.que.spi < 64) then
    let p ← eventPacket 0 op page inst scope body
    act (.spiEvent p)
    eventDelivered 0
    setAttn
  else eventLost 0

/-- Put a packet into a CAN XL frame of controller CMD.CANXL_CFG0.CTRL (R73). The answer tells whether it entered. -/
def canxlSend (p : OutPkt) : M Bool := do
  let s ← getS
  let n := s.f CMD.CANXL_CFG0.CTRL
  let fr : CanFrame := { id := s.f CMD.CANXL_CFG1.RPL_ID, typ := 2, sdt := s.f CMD.CANXL_CFG0.SDT,
                         vcid := s.f CMD.CANXL_CFG0.VCID, data := p.bytes }
  let lost ← canEnqueue n ⟨fr, 0, s.hid.now, s.f (BUS.CTRL.LIFE_MS n) * 1000⟩
  match lost with
  | none => return true
  | some u =>
    if u.kind = 0 then inc CMD.EVENT_CFG.LOST
    return decide (u ≠ ⟨fr, 0, s.hid.now, s.f (BUS.CTRL.LIFE_MS n) * 1000⟩)

/-- Deliver an event on the CAN XL route (R72, R73). -/
def eventCanxl (op page inst scope : Nat) (body : List Byte) : M Unit := do
  if (← rf CMD.CANXL_CFG0.EN) = 1 then
    let p ← eventPacket 1 op page inst scope body
    if ← canxlSend p then eventDelivered 1
    else hid fun h => { h with cmd := { h.cmd with evtLost := mupd 0 h.cmd.evtLost 1 (· + 1) } }
  else eventLost 1

/-- The ARP entry of an address on an interface. -/
def State.arpOf (s : State) (phy ip : Nat) : Option Arp := s.hid.bus.arp.find? fun a => a.phy == phy && a.ip == ip

/-- Hand a datagram to the MAC of an interface. -/
def ethSend (o : EthOut) : M Unit := hid fun h => { h with bus := { h.bus with out := h.bus.out ++ [o] } }

/-- Deliver an event on the UDP route: to NET.EVT_DEST on interface EVT_PORT.IF, once ARP has resolved it (R457). -/
def eventUdp (op page inst scope : Nat) (body : List Byte) : M Unit := do
  let s ← getS
  let phy := s.f NET.EVT_PORT.IF
  match s.arpOf phy (s.f NET.EVT_DEST.IP) with
  | some a =>
    if s.f CMD.UDP_CFG.EN = 1 ∧ s.f (NET.IF_CFG.EN phy) = 1 then
      let p ← eventPacket 2 op page inst scope body
      ethSend ⟨phy, a.mac, a.ip, s.f CMD.UDP_CFG.PORT, s.f NET.EVT_PORT.PORT, p.bytes, 0⟩
      eventDelivered 2
    else eventLost 2
  | none => eventLost 2

/-- Send an event on every route that CMD.EVENT_CFG selects (R72); before the link opens nothing is sent (R49). -/
def event (op page inst scope : Nat) (body : List Byte) : M Unit := do
  let s ← getS
  if s.linkOpen then
    if s.f CMD.EVENT_CFG.ROUTE_SPI = 1 then eventSpi op page inst scope body
    if s.f CMD.EVENT_CFG.ROUTE_CANXL = 1 then eventCanxl op page inst scope body
    if s.f CMD.EVENT_CFG.ROUTE_UDP = 1 then eventUdp op page inst scope body

/-- An event whose TARGET names the device. -/
def eventDev (op : Nat) (body : List Byte) : M Unit := event op 0 0 4 body

/-- An event whose TARGET names a group. -/
def eventGrp (op g : Nat) (body : List Byte) : M Unit := event op 0 g 1 body

/-- Bytes of a list of single-byte values. -/
def by1 (l : List Nat) : List Byte := l.map (BitVec.ofNat 8)

end Sys2Proof.Machine
end

