-- ==== Sys2Proof/Machine/Results.lean ====
section
/-! DEFINITION. Results of conversions on their way to their slots: tags, the window compare, results held for a
provisional trigger (R110, R172 to R177). -/

namespace Sys2Proof.Machine

/-- Whether a slot is outside its window (R176). -/
def State.slotOut (s : State) (r : Nat) : Bool := bit (s.rd (MEA.WIN_OUT (r / 32))).toNat (r % 32)

/-- VALUE of the latest result of a slot. -/
def State.slotVal (s : State) (r : Nat) : Nat := (s.rd (MEA.RESULT r)).toNat % 65536

/-- Whether the latest result of a slot is tagged STALE or SUSPECT, which every consumer discards (R173). -/
def State.slotBad (s : State) (r : Nat) : Bool :=
  bit (s.rd (MEA.RESULT r)).toNat 23 || bit (s.rd (MEA.RESULT r)).toNat 22

/-- Whether the latest result of a slot carries REF_BAD. -/
def State.slotRefBad (s : State) (r : Nat) : Bool := bit (s.rd (MEA.RESULT r)).toNat 21

/-- The number of the latest result of a slot among all results; 0 for none. -/
def State.slotStamp (s : State) (r : Nat) : Nat := mget 0 s.hid.mea.stamp r

/-- The code of the latest result of a slot without STALE, SUSPECT and REF_BAD, if it came after the result numbered
`since` (R192). -/
def State.usable (s : State) (r since : Nat) : Option Nat :=
  match sget? s.hid.mea.usable r with
  | some (st, code) => if since < st then some code else none
  | none => none

/-- OUT of a slot after a code that enters the window compare (R176). -/
def outAfter (out : Bool) (code hi lo hyst : Nat) : Bool :=
  if out then !(decide (code + hyst ≤ hi) && decide (lo + hyst ≤ code)) else decide (hi < code) || decide (code < lo)

/-- The word of a result (R172). -/
def resultWord (x : Sample) (stale out : Bool) : Word :=
  BitVec.ofNat 32 (x.run % 16 * 2 ^ 28 + x.conv % 16 * 2 ^ 24 + b2n stale * 2 ^ 23 + b2n x.suspect * 2 ^ 22 +
    b2n x.refBad * 2 ^ 21 + b2n x.delayed * 2 ^ 20 + b2n out * 2 ^ 19 + b2n x.diff * 2 ^ 18 + x.code % 65536)

/-- The islands that consume the results of a slot: those of the DC-link supervision (0), the Lattice (1), the field
engines (2 to 5) and the position units (6). -/
def State.slotIslands (s : State) (r : Nat) : List Nat :=
  let cell (c : Nat) : Bool := bit (s.tb 0x20 (64 * c + 1)).toNat 7 && (s.tb 0x20 (64 * c + 2)).toNat == r
  let rg (n : Nat) : Bool := s.f (LAT.RG_CFG.EN n) == 1 && s.f (LAT.RG_CFG.START_SLOT n) == r
  let fe (m : Nat) : Bool := s.f (FLD.MCH_CFG.EN m) == 1 &&
    [s.f (FLD.IN_SLOT0.A1 m), s.f (FLD.IN_SLOT0.B1 m), s.f (FLD.IN_SLOT0.C1 m), s.f (FLD.IN_SLOT0.A2 m),
      s.f (FLD.IN_SLOT1.B2 m), s.f (FLD.IN_SLOT1.C2 m), s.f (FLD.IN_SLOT1.VUP m), s.f (FLD.IN_SLOT1.VLO m)].contains r
  let afe : Bool := s.f FLD.AFE_CFG.EN == 1 &&
    [s.f FLD.AFE_SLOT.VA, s.f FLD.AFE_SLOT.VB, s.f FLD.AFE_SLOT.VC, s.f FLD.AFE_SLOT.VFE, s.f FLD.AFE_ISLOT.IA,
      s.f FLD.AFE_ISLOT.IB, s.f FLD.AFE_ISLOT.IC, s.f FLD.AFE_ISLOT.IN].contains r
  let act (a : Nat) : Bool := s.f (ACT.CFG.EN a) == 1 &&
    [s.f (ACT.CFG.IU_SLOT a), s.f (ACT.SLOTS.IV_SLOT a), s.f (ACT.SLOTS.IW_SLOT a), s.f (ACT.CFG.VBUS_SLOT a)].contains r
  let pu (j : Nat) : Bool := s.f (POS.PU_CFG.MODE j) == 1 &&
    [s.f (POS.RES_SLOT.SIN_SLOT j), s.f (POS.RES_SLOT.COS_SLOT j)].contains r
  (if s.f DCL.CTRL.EN = 1 ∧ s.f DCL.VSRC.SLOT = r then [0] else []) ++
    (if (List.range 192).any cell || (List.range 8).any rg then [1] else []) ++
    (if fe 0 then [2] else []) ++ (if fe 1 then [3] else []) ++ (if afe then [4] else []) ++
    (if (List.range 4).any act then [5] else []) ++ (if pu 0 || pu 1 then [6] else [])

/-- Write a result to its slot and evaluate its window (R172, R173, R176); for each consumer out of service a write is
dropped and counted (R26). -/
def deliver (x : Sample) (stale : Bool) : M Unit := do
  let s ← getS
  let was := s.slotOut x.slot
  let out := if stale || x.suspect || x.refBad then was
             else outAfter was x.code (s.f (MEA.WIN.HI x.slot)) (s.f (MEA.WIN.LO x.slot)) (s.f MEA.WIN_CFG.HYST)
  let k := x.slot / 32
  let w := (s.rd (MEA.WIN_OUT k)).toNat
  wr (MEA.WIN_OUT k) (BitVec.ofNat 32 (if out then setBit w (x.slot % 32) else clrBit w (x.slot % 32)))
  wr (MEA.RESULT x.slot) (resultWord x stale out)
  ((s.slotIslands x.slot).filter fun n => s.f (SYS.ISLAND.STATE n) != 2).forM fun n => inc (SYS.XFER.DROPPED_WRITES n)
  let n := s.hid.mea.total + 1
  hid fun h => { h with mea := { h.mea with total := n, stamp := sput h.mea.stamp x.slot n } }
  if !(stale || x.suspect || x.refBad) then
    hid fun h => { h with mea := { h.mea with usable := sput h.mea.usable x.slot (n, x.code) } }
  if out && !was then
    let below := decide (x.code < s.f (MEA.WIN.LO x.slot))
    hid fun h => { h with mea := { h.mea with
      left := mupd ⟨0, false, 0⟩ h.mea.left x.slot fun l => ⟨x.code, below, l.count + 1⟩ } }

/-- The pulse island resolves a provisional trigger (R174): the results held for it are released, tagged STALE if its
duties were cancelled, and those of its runs still to come carry the same. -/
def resolveHeld (k : Nat) (stale : Bool) : M Unit := do
  let s ← getS
  let mine := s.hid.mea.held.filter fun h => h.1 == k
  let tag := if stale then TrigTag.stale else TrigTag.valid
  hid fun h => { h with mea := { h.mea with
    held := h.mea.held.filter fun x => x.1 != k
    runs := h.mea.runs.map fun x => if x.2.trig = k ∧ x.2.tag = .held then (x.1, { x.2 with tag := tag }) else x } }
  mine.forM fun h => deliver h.2 stale

end Sys2Proof.Machine
end

