-- ==== Sys2Proof/Machine/Groups.lean ====
section
/-! DEFINITION. Groups and channels: the channel map, who uses what, the states of a group, trips, forced states and
their patterns (R27, R31, R76 to R82, R105, R106, R127 to R130, R375, R376, R382). -/

namespace Sys2Proof.Machine

/-! ## The channel map -/

/-- The group a channel is bound to; 0xFF unbound (R77). -/
def State.chGroup (s : State) (c : Nat) : Nat := (s.tb 0x30 (8 * c)).toNat

/-- The timebase a channel is bound to. -/
def State.chTb (s : State) (c : Nat) : Nat := (s.tb 0x30 (8 * c + 1)).toNat

/-- The leg of a channel. -/
def State.chLeg (s : State) (c : Nat) : Nat := (s.tb 0x30 (8 * c + 2)).toNat

/-- The place of a channel in its leg. -/
def State.chSwitch (s : State) (c : Nat) : Nat := (s.tb 0x30 (8 * c + 3)).toNat

/-- The interlock set of a channel; 0xFF none. -/
def State.chSet (s : State) (c : Nat) : Nat := (s.tb 0x30 (8 * c + 4)).toNat

/-- The slot of a channel in its set. -/
def State.chSlot (s : State) (c : Nat) : Nat := (s.tb 0x30 (8 * c + 5)).toNat

/-- The flag byte of a channel: bit 0 ACTIVE_LOW, 1 ASC_ON, 2 FLT_USE, 3 SUBSTITUTED. -/
def State.chFlags (s : State) (c : Nat) : Nat := (s.tb 0x30 (8 * c + 6)).toNat

/-- The channels, lowest first. -/
def channels : List Nat := List.range 144

/-- The channels bound to a group. -/
def State.chans (s : State) (g : Nat) : List Nat := channels.filter fun c => s.chGroup c == g

/-- The channels bound to a group on a timebase. -/
def State.tbChans (s : State) (t : Nat) : List Nat :=
  channels.filter fun c => decide (s.chGroup c < 32) && s.chTb c == t

/-- The groups with a channel on a timebase. -/
def State.tbGroups (s : State) (t : Nat) : List Nat := ((s.tbChans t).map s.chGroup).dedup

/-- The timebases of a group. -/
def State.grpTbs (s : State) (g : Nat) : List Nat := ((s.chans g).map s.chTb).dedup

/-- The channel number in slot `j` of an interlock set; 0xFFFF empty (R81). -/
def State.ilkSlot (s : State) (i j : Nat) : Nat := s.tn 0x31 (12 * i + 2 * j) 2

/-- FORBID of an interlock set. -/
def State.ilkForbid (s : State) (i : Nat) : Nat := s.tn 0x31 (12 * i + 8) 2

/-- EN of an interlock set. -/
def State.ilkEn (s : State) (i : Nat) : Bool := bit (s.tb 0x31 (12 * i + 10)).toNat 0

/-- The channels of an interlock set's slots. -/
def State.ilkChans (s : State) (i : Nat) : List Nat :=
  ((List.range 4).map (s.ilkSlot i)).filter fun c => decide (c < 144)

/-- Whether a channel is an integrated driver (R75). -/
def isDriver (c : Nat) : Bool := decide (96 ≤ c)

/-- One channel's state. -/
def State.chan (s : State) (c : Nat) : Chan := mget {} s.hid.pls.chans c

/-- One group's state. -/
def State.grp (s : State) (g : Nat) : Grp := mget {} s.hid.pls.grps g

/-- The state of a group (R79). -/
def State.gst (s : State) (g : Nat) : GState := (s.grp g).st

/-- Whether a group is ARMED or RUNNING. -/
def State.active (s : State) (g : Nat) : Bool := s.gst g == .armed || s.gst g == .running

/-- Whether a group is ARMED, RUNNING or TRIPPED (R375, R408). -/
def State.forcible (s : State) (g : Nat) : Bool := s.active g || s.gst g == .tripped

/-- All group numbers. -/
def groups : List Nat := List.range 32

/-- OWNER of a group (R101): 0 host, 1 to 4 FE0 to FE3, 8 to 15 RG0 to RG7. -/
def State.owner (s : State) (g : Nat) : Nat := s.f (PLS.GRP_CFG.OWNER g)

/-- Whether a loop owns the group. -/
def State.loopOwned (s : State) (g : Nat) : Bool := s.owner g != 0

/-- Whether a group is a machine group: owned by FE0 or FE1 (R210, R377). -/
def State.machineOf (s : State) (g : Nat) : Option Nat :=
  if s.owner g = 1 then some 0 else if s.owner g = 2 then some 1 else none

/-- The spare whose generator drives a channel (R84, R85): the one put in use for it last. -/
def State.spareOf (s : State) (c : Nat) : Option Nat := sget? s.hid.trp.latest c

/-- The channel whose generator, delay line and lane drive a channel's output cell (R84). -/
def State.source (s : State) (c : Nat) : Nat := (s.spareOf c).getD c

/-- The channel whose output cell and ball serve a channel: the spare's in MODE BALL (R84). -/
def State.cellOf (s : State) (c : Nat) : Nat :=
  match s.spareOf c with
  | some x => if sget? s.hid.trp.spares x = some (.inUse c true) then x else c
  | none => c

/-- The channel that an output cell serves; none for the cell of a channel that a spare replaces in MODE BALL. -/
def State.ofCell (s : State) (x : Nat) : Option Nat := channels.find? fun c => s.cellOf c == x

/-- The spare that takes what is written, posted and committed for a channel (R85): the one in use for it, or that of
an open hand-over. -/
def State.follower (s : State) (c : Nat) : Option Nat :=
  match s.hid.trp.hand with
  | some h => if h.unit = c then some h.spare else s.spareOf c
  | none => s.spareOf c

/-- Update a group's record. -/
def updGrp (g : Nat) (f : Grp → Grp) : M Unit :=
  hid fun h => { h with pls := { h.pls with grps := mupd {} h.pls.grps g f } }

/-- Update a channel's record. -/
def updChan (c : Nat) (f : Chan → Chan) : M Unit :=
  hid fun h => { h with pls := { h.pls with chans := mupd {} h.pls.chans c f } }

/-- Update a timebase's record. -/
def updTb (t : Nat) (f : Tb → Tb) : M Unit :=
  hid fun h => { h with pls := { h.pls with tbs := mupd {} h.pls.tbs t f } }

/-- Update a trigger compare's record; its key is 4 t + j (R108). -/
def updTrg (k : Nat) (f : Trg → Trg) : M Unit :=
  hid fun h => { h with pls := { h.pls with trgs := mupd {} h.pls.trgs k f } }

/-- One timebase's record. -/
def State.tbase (s : State) (t : Nat) : Tb := mget {} s.hid.pls.tbs t

/-- One trigger compare's record. -/
def State.trg (s : State) (k : Nat) : Trg := mget {} s.hid.pls.trgs k

/-! ## Which groups use a unit -/

/-- The position units the engine of a group names (R259). -/
def State.grpUnits (s : State) (g : Nat) : List Nat :=
  (((List.range 2).filter fun m => s.f (FLD.MCH_CFG.EN m) == 1 && s.f (FLD.MCH_CFG.GROUP m) == g).map
      fun m => s.f (FLD.MCH_CFG.PU m)) ++
  (((List.range 4).filter fun a => s.f (ACT.CFG.EN a) == 1 && s.f (ACT.CFG.GROUP a) == g).map
      fun a => s.f (ACT.CFG.PU a))

/-- The timebases that carry an enabled binding of logical converter `k` (R165). -/
def State.convTbs (s : State) (k : Nat) : List Nat :=
  (((List.range 8).filter fun m => s.f (MEA.BIND.EN k m) == 1).map fun m => s.f (MEA.BIND.TRIG_SRC k m) / 4).dedup

/-- Whether a group is one of the groups of logical converter `k` (R165). -/
def State.convUses (s : State) (k g : Nat) : Bool := (s.grpTbs g).any fun t => (s.convTbs k).contains t

/-- Whether a group uses island `n` (R27); a group that is OFF uses none. -/
def State.usesIsland (s : State) (g n : Nat) : Bool :=
  s.gst g != .off &&
  match n with
  | 0 => !(s.chans g).isEmpty
  | 1 => decide (8 ≤ s.owner g)
  | 2 => s.owner g == 1
  | 3 => s.owner g == 2
  | 4 => s.owner g == 3
  | 5 => s.owner g == 4
  | 6 => !(s.grpUnits g).isEmpty
  | 7 => (List.range 8).any fun k => s.convUses k g
  | _ => false

/-- Whether an island is PRESENT (R29). -/
def State.present (s : State) (n : Nat) : Bool := s.f (SYS.ISLAND.STATE n) == 2

/-! ## Changes of state -/

/-- The code of a group state, in the order of R79 (GET_STATUS, GROUP_STATE). -/
def GState.code : GState → Nat
  | .off => 0
  | .configured => 1
  | .armed => 2
  | .running => 3
  | .tripped => 4
  | .safe => 5

/-- Whether the pulse island replaces the edges of the chopper group: by continuous on while the demand acts, by off
while the chopper is faulty (R243, R246). -/
def State.chopHeld (s : State) (g : Nat) : Bool :=
  s.f DCL.CTRL.BRK_GROUP == g &&
    (s.f DCL.STATUS.CHOP_FAULTY == 1 || (s.f DCL.STATUS.CHOP_DEMAND == 1 && s.f DCL.STATUS.CHOP_AVAIL == 1))

/-- CHOP_AVAIL follows the state of the chopper group and CHOP_FAULTY (R243). -/
def setAvail : M Unit := do
  let s ← getS
  let g := s.f DCL.CTRL.BRK_GROUP
  wf DCL.STATUS.CHOP_AVAIL (b2n (decide (g < 32) && s.active g && s.f DCL.STATUS.CHOP_FAULTY == 0))

/-- A group changes state: GROUP_STATE carries the group, the old and the new state and the cause (R79). -/
def setGState (g : Nat) (st : GState) (cause : Nat) : M Unit := do
  let old := (← getS).gst g
  if old ≠ st then
    updGrp g fun r => { r with st := st }
    setAvail
    eventGrp 0x803D g (by1 [g, old.code, st.code, 0] ++ leBytes 2 cause)

/-- Overwrite the shadows of one generator with the most recently committed values (R100). -/
def discardWords (c : Nat) : M Unit := do
  let s ← getS
  match (s.chan c).rel with
  | some (r, f) =>
    wr (PLS.RISE c) r
    wr (PLS.FALL c) f
  | none =>
    wr (PLS.RISE c) (s.rd (PLS.RISE_ACT c))
    wr (PLS.FALL c) (s.rd (PLS.FALL_ACT c))

/-- Overwrite the shadows of a channel, and of the spare that follows it (R85, R100). -/
def discardShadow (c : Nat) : M Unit := do
  discardWords c
  match (← getS).follower c with
  | some x => discardWords x
  | none => pure ()

/-- EN, MODE, SRC and REF_CH of the trigger compare with number `k` = 4 t + j. -/
def State.trgAuto (s : State) (k : Nat) : Bool :=
  s.f (PLS.TRG_CFG.EN (k / 4) (k % 4)) == 1 && s.f (PLS.TRG_CFG.MODE (k / 4) (k % 4)) != 0

/-- The reference channel of a trigger compare. -/
def State.trgRef (s : State) (k : Nat) : Nat := s.f (PLS.TRG_CFG.REF_CH (k / 4) (k % 4))

/-- The auto-centre trigger compares whose reference channel belongs to a group (R109). -/
def State.grpTrgs (s : State) (g : Nat) : List Nat :=
  (List.range 64).filter fun k => s.trgAuto k && s.chGroup (s.trgRef k) == g

/-- Whether a trigger compare has a trigger that is not resolved (R110). -/
def Trg.unresolved (r : Trg) : Bool := r.now.prov || r.next.any (·.prov)

/-- Set PROVISIONAL of a group from its unresolved triggers (R110). -/
def setProvisional (g : Nat) : M Unit := do
  let s ← getS
  wf (PLS.GRP_STAT.PROVISIONAL g) (b2n ((s.grpTrgs g).any fun k => (s.trg k).unresolved))

/-- A provisional trigger of one window is resolved. -/
def Shot.resolve (stale : Bool) (x : Shot) : Shot := if x.prov then { x with prov := false, stale := stale } else x

/-- Resolve the provisional trigger of a compare (R110, R111): its results are released. A trigger from cancelled duties
counts in STALE_TRIG, one that has fired now and another when it fires. `nextToo` tells whether the trigger of the next window is
resolved beside that of the present one. -/
def resolveTrg (k : Nat) (stale nextToo : Bool) : M Unit := do
  let r := (← getS).trg k
  if r.now.prov || (nextToo && r.unresolved) then
    let fired := b2n (r.now.prov && r.now.fired) + b2n (nextToo && r.next.any fun x => x.prov && x.fired)
    if stale then incBy PLS.STATUS.STALE_TRIG fired
    let tag := if stale then TrigTag.stale else TrigTag.valid
    updTrg k fun r => { r with
      now := r.now.resolve stale
      next := if nextToo then r.next.map (Shot.resolve stale) else r.next
      last := if r.last == .held then tag else r.last }
    resolveHeld k stale

/-- Cancel the provisional triggers of a group (R111). -/
def cancelTriggers (g : Nat) : M Unit := do
  let s ← getS
  (s.grpTrgs g).forM fun k => resolveTrg k true true
  setProvisional g

/-- Discard the shadows that a COMMIT of a group would carry (R100): RISE and FALL of its channels, PERIOD and TRG_POS of
the timebases it owns. -/
def discardShadows (g : Nat) : M Unit := do
  let s ← getS
  (s.chans g).forM discardShadow
  ((List.range 16).filter fun t => s.f (PLS.TB_CFG.OWNER_GRP t) == g).forM fun t => do
    wf (PLS.TB_PERIOD.PERIOD t) ((s.tbase t).pRel.getD (s.tbase t).pAct)
    (List.range 4).forM fun j => wf (PLS.TRG_POS.POS t j) ((s.trg (4 * t + j)).posRel.getD (s.trg (4 * t + j)).posAct)

/-- What the pulse island does with a group that becomes CONFIGURED by DISABLE, TRIPPED or SAFE (R106): shadows
discarded, provisional triggers cancelled, posts and COMMIT tokens dropped from then on. -/
def dropGroup (g : Nat) : M Unit := do
  discardShadows g
  cancelTriggers g
  updGrp g fun r => { r with left := true }

/-- The time at which the counter of a timebase stands at `pos` in its present period. -/
def State.tbTime (s : State) (t pos : Nat) : Nat := ((s.tbase t).epoch + pos) * 64

/-- The time of the last event of a channel's timebase, where a cell changes without an edge of its own. -/
def State.chNow (s : State) (c : Nat) : Nat := s.tbTime (s.chTb c) (s.tbase (s.chTb c)).pos

/-- The driver pair of which the output cell of a channel is slot L (R138). -/
def State.lowPair (s : State) (c : Nat) : Option Nat :=
  let x := s.cellOf c
  if 97 ≤ x ∧ x % 2 = 1 then some ((x - 97) / 2) else none

/-- The output cell of a channel goes off: the shunt comparator of its pair drops out (R145, R154), and a stretch of
slot L of REFRESH_W in the present period feeds the bootstrap supply (R142). -/
def cellOff (c time : Nat) : M Unit := do
  let s ← getS
  let r := s.chan c
  updChan c fun r => { r with on := false, offAt := if r.on then some time else r.offAt, due := [] }
  match s.lowPair c with
  | some p =>
    let start := max r.onAt ((s.tbase (s.chTb c)).epoch * 64)
    wf (GDR.SC_STAT.SC_ACTIVE p) 0
    hid fun h => { h with trp := { h.trp with
      short := h.trp.short.erase p
      fed := if r.on ∧ s.f (GDR.DRV_CFG.REFRESH_W p) * 64 ≤ time - start then p :: h.trp.fed.erase p else h.trp.fed } }
  | none => pure ()

/-- The output cell of a channel comes on; a driver that has to sink stays off (R153). The answer tells whether it did. -/
def cellOn (c time : Nat) : M Bool := do
  let r := (← getS).chan c
  if r.sink then return false
  if !r.on then updChan c fun r => { r with on := true, onAt := time }
  return true

/-- Turn the channels of a group to a pattern: off, or the active-short-circuit pattern of the ASC_ON flags
(R77, R122, R237). The 250 ns by which a channel waits for its partner (R122) lie within the step (DESIGN CHOICE, log entry 12). -/
def applyPattern (g : Nat) (asc : Bool) : M Unit := do
  let s ← getS
  (s.chans g).forM fun c => do
    if asc && bit (s.chFlags c) 1 then
      let _ ← cellOn c (s.chNow c)
      updChan c fun r => { r with due := [] }
    else cellOff c (s.chNow c)

/-- Stop the safe stop 1 ramp of a group. -/
def endSs1 (g : Nat) : M Unit := updGrp g fun r => { r with ss1 := none }

/-- A trip of a group (R127 to R129): kind 1 is PATTERN, `first` the cell or 0xFF. A PATTERN trip of a group without an
active-short-circuit pattern acts as OFF (R122); its KIND, which the spec does not state, is 1 (DESIGN CHOICE, log entry 12).
The answer tells whether it changed anything. -/
def tripGroup (g kind first : Nat) : M Bool := do
  let s ← getS
  if s.active g then
    let allOff := !(s.chans g).any fun c => (s.chan c).on
    wf (TRP.GRP_TRIP.LATCH g) 1
    wf (TRP.GRP_TRIP.KIND g) kind
    wf (TRP.GRP_TRIP.ALL_OFF g) (b2n allOff)
    wf (TRP.GRP_TRIP.HELD g) 1
    wf (TRP.GRP_TRIP.FIRST_CELL g) first
    inc (TRP.GRP_TRIP.COUNT g)
    applyPattern g (kind == 1 && (s.grp g).asc)
    dropGroup g
    endSs1 g
    setGState g .tripped 0x8020
    eventGrp 0x8020 g (by1 [g, kind, first, b2n allOff])
    return true
  if s.gst g = .tripped ∧ kind = 1 ∧ s.f (TRP.GRP_TRIP.KIND g) = 0 then
    wf (TRP.GRP_TRIP.KIND g) 1
    wf (TRP.GRP_TRIP.LATCH g) 1
    inc (TRP.GRP_TRIP.COUNT g)
    applyPattern g (s.grp g).asc
    eventGrp 0x8020 g (by1 [g, 1, s.f (TRP.GRP_TRIP.FIRST_CELL g), s.f (TRP.GRP_TRIP.ALL_OFF g)])
    return true
  return false

/-- The entry of R376 in force among those that force a group: ASC, STO, SCS, lasting reaction. -/
def topForce (l : List Nat) : Nat :=
  if l.contains 5 then 5 else if l.contains 1 then 1 else if l.contains 7 then 7 else if l.contains 8 then 8 else 0

/-- Whether the pattern of an entry in force is active short circuit, for a group whose latched pattern is `asc`. -/
def forceAsc (code : Nat) (asc : Bool) : Bool := code == 5 || ((code == 1 || code == 8) && asc)

/-- Show the entry in force in SAF.GRP and take its pattern (R375, R376). -/
def showForce (g : Nat) : M Unit := do
  let s ← getS
  let top := topForce (s.grp g).force
  wf (SAF.GRP.FUNC g) top
  if top ≠ 0 then
    let a := forceAsc top (s.grp g).asc
    wf (SAF.GRP.ASC g) (b2n a)
    updGrp g fun r => { r with heldAsc := a }
    applyPattern g a

/-- Force a group by an entry of R376; it acts on a group that is ARMED, RUNNING or TRIPPED, and a SAFE group stays
under the order of R376. -/
def forceGroup (g code cause : Nat) : M Unit := do
  let s ← getS
  if s.forcible g then
    dropGroup g
    endSs1 g
    updGrp g fun r => { r with force := code :: r.force.erase code }
    setGState g .safe cause
    showForce g
  else if s.gst g = .safe ∧ !(s.grp g).force.isEmpty then
    updGrp g fun r => { r with force := code :: r.force.erase code }
    showForce g

/-- Release an entry of R376 of a group (R382): the next one takes over; without one the pattern stays held. -/
def releaseForce (g code : Nat) : M Unit := do
  let s ← getS
  if (s.grp g).force.contains code then
    updGrp g fun r => { r with force := r.force.erase code }
    if topForce ((s.grp g).force.erase code) = 0 then
      wf (SAF.GRP.FUNC g) 0
      wf (SAF.GRP.HELD g) 1
    else showForce g

/-- SAFE_HELD tells whether a link loss, or the loss of VDD_CORE, holds any group in its safe pattern (R31, R32). -/
def showHeld : M Unit := do
  let s ← getS
  wf SYS.LINK.SAFE_HELD (b2n (groups.any (fun g => (s.grp g).linkHeld) || !s.hid.pls.coreHeld.isEmpty))

/-! ## Device state -/

/-- The device state changes: DEVICE_STATE carries the old and the new state and DEG_CAUSE (R466). -/
def setDev (new : Nat) : M Unit := do
  let old ← rf SYS.STATUS.DEV_STATE
  if old ≠ new then
    wf SYS.STATUS.DEV_STATE new
    eventDev 0x8000 (by1 [old, new, ← rf SYS.STATUS.DEG_CAUSE])

/-- The device enters SAFE from STANDBY, OPERATIONAL, DEGRADED or SERVICE (R15, R408, R466). -/
def deviceSafe : M Unit := do
  let d ← rf SYS.STATUS.DEV_STATE
  if d = 1 ∨ d = 2 ∨ d = 3 ∨ d = 5 then setDev 4

/-! ## Charging stops -/

/-- The session state of the charging interface changes (R315). -/
def setChg (new cause : Nat) : M Unit := do
  let old ← rf CHG.STATUS.STATE
  if old ≠ new then
    wf CHG.STATUS.STATE new
    eventDev 0x802F (by1 [old, new] ++ leBytes 2 cause)

/-- The relays lose their coil drive and CP_S2 opens (R320, R381). -/
def releaseRelays : M Unit := do
  let s ← getS
  wf CHG.STATUS.RLY 0
  wf CHG.STATUS.CP_S2 0
  hid fun h => { h with chg := { h.chg with relAt := some s.ms } }

/-- An emergency stop of the charging session (R320): both charger groups trip with KIND OFF, relays and CP_S2 are
released. It acts in CONNECTING, CHARGING and STOPPING; `toFault` says whether the stop ends in FAULT. -/
def emergencyStop (cause : Nat) (toFault : Bool) : M Unit := do
  let s ← getS
  let st := s.f CHG.STATUS.STATE
  if st = 3 ∨ st = 4 ∨ (st = 5 ∧ !s.hid.chg.emergency) then
    inc CHG.COUNT.EMERGENCY
    let _ ← tripGroup (s.f CHG.CFG.AFE_GROUP) 0 0xFF
    let _ ← tripGroup (s.f CHG.CFG.DAB_GROUP) 0 0xFF
    hid fun h => { h with chg := { h.chg with emergency := true, toFault := toFault || h.chg.toFault } }
    releaseRelays
    setChg 5 cause

/-- Whether a group is one of the charger groups while the charging interface is enabled (R311, R320). -/
def State.chargerGroup (s : State) (g : Nat) : Bool :=
  s.f CHG.CFG.EN == 1 && (s.f CHG.CFG.AFE_GROUP == g || s.f CHG.CFG.DAB_GROUP == g)

/-- A trip of a group with what follows from it: a trip of the AFE or DAB group is an emergency stop (R320), whose
cause is DCL_LINK_OPEN where the charging link cell tripped it (R321). -/
def tripAct (g kind first : Nat) : M Bool := do
  let r ← tripGroup g kind first
  let s ← getS
  if r && s.chargerGroup g then
    emergencyStop (if s.f DCL.CTRL.EN = 1 ∧ s.f DCL.CTRL.CHG_CELL = first then 93 else 0x8020) false
  return r

/-- Forcing a group with what follows from it: the SAFE state of the AFE or DAB group is an emergency stop whose
cause is the function's code (R381). -/
def forceAct (g code cause : Nat) : M Unit := do
  let s ← getS
  forceGroup g code cause
  if s.forcible g && s.chargerGroup g then emergencyStop code false

end Sys2Proof.Machine
end

