-- ==== Sys2Proof/Machine/Functions.lean ====
section
/-! DEFINITION. The safety functions: triggers, activation, effect on groups, release (R374 to R377, R380 to R382). -/

namespace Sys2Proof.Machine

/-- One safety function's record. -/
def State.func (s : State) (f : Nat) : FuncSt := mget {} s.hid.saf.funcs f

/-- Update a safety function's record. -/
def updFunc (f : Nat) (g : FuncSt → FuncSt) : M Unit :=
  hid fun h => { h with saf := { h.saf with funcs := mupd {} h.saf.funcs f g } }

/-- The groups SAF.FUNC_GRP names for a function. -/
def State.funcMask (s : State) (f : Nat) : List Nat := bitsSet (s.f (SAF.FUNC_GRP.GROUPS f)) 32

/-- Whether a function is active (R375). -/
def State.funcActive (s : State) (f : Nat) : Bool := s.f (SAF.FUNC_STAT.ACTIVE f) == 1

/-- Groups as a mask. -/
def maskOf (gs : List Nat) : Nat := gs.foldl (fun m g => setBit m g) 0

/-- SAF_FUNCTION (R375): f, the activity, SOURCES, the target group mask. -/
def funcEvent (f : Nat) (on : Bool) : M Unit := do
  let s ← getS
  eventDev 0x8035 (by1 [f, b2n on, s.f (SAF.FUNC_STAT.SOURCES f), 0] ++ leBytes 4 (maskOf (s.func f).grps))

/-- The effect of a function on one target group (R374, R376, R377): functions 3, 4 and 6 force nothing. -/
def funcEffect (f g cause : Nat) : M Unit := do
  let s ← getS
  match f with
  | 1 => forceAct g 1 cause
  | 2 =>
    if s.forcible g then
      if (s.machineOf g).isSome && s.active g then
        if (s.grp g).ss1.isNone then updGrp g fun r => { r with ss1 := some ⟨s.ms, none⟩ }
      else forceAct g 1 cause
  | 5 => forceAct g 5 cause
  | 7 => forceAct g 7 cause
  | _ => pure ()

/-- What a function does beside its groups when it becomes active: SCS releases relays and CP_S2 (R381), SP starts
(R380). -/
def funcStart (f : Nat) : M Unit := do
  if f = 7 then releaseRelays
  let s ← getS
  if f = 6 then hid fun h => { h with saf := { h.saf with parkOk := false, parkAt := some s.ms } }

/-- A trigger of a function becomes active (R375): bit 0 input, 1 message, 2 host, 3 internal with its `key`; the
function acts on `gs`. The first three act only while the function is in use. -/
def trigger (f src key : Nat) (gs : List Nat) (cause : Nat) : M Unit := do
  let s ← getS
  if src = 3 ∨ s.f (SAF.FUNC_CFG.EN f) = 1 then
    updFunc f fun r => { r with
      trig := setBit r.trig src
      by_ := if src = 3 then key :: r.by_.erase key else r.by_
      grps := (r.grps ++ gs).dedup }
    wf (SAF.FUNC_STAT.SOURCES f) (setBit (s.f (SAF.FUNC_STAT.SOURCES f)) src)
    wf (SAF.FUNC_STAT.ACK_WAIT f) 0
    if s.f (SAF.FUNC_STAT.ACTIVE f) = 0 then
      wf (SAF.FUNC_STAT.ACTIVE f) 1
      wf SAF.STATUS.ACTIVE (setBit (s.f SAF.STATUS.ACTIVE) f)
      inc (SAF.FUNC_STAT.COUNT f)
      funcEvent f true
      funcStart f
    gs.forM fun g => funcEffect f g cause

/-- The entry of R376 a function forces groups with. -/
def funcCode (f : Nat) : Nat := if f = 2 then 1 else f

/-- A function is released (R382): patterns stay held unless another function still forces the group. -/
def releaseFunc (f : Nat) : M Unit := do
  let s ← getS
  let gs := (s.func f).grps
  wf (SAF.FUNC_STAT.ACTIVE f) 0
  wf (SAF.FUNC_STAT.ACK_WAIT f) 0
  wf SAF.STATUS.ACTIVE (clrBit (s.f SAF.STATUS.ACTIVE) f)
  wf (SAF.FUNC_STAT.SOURCES f) 0
  funcEvent f false
  updFunc f fun r => { r with trig := 0, by_ := [], grps := [] }
  if f = 2 then gs.forM endSs1
  gs.forM fun g => do
    let s ← getS
    let other : Bool := (f == 1 && s.funcActive 2 && (s.func 2).grps.contains g) ||
      (f == 2 && s.funcActive 1 && (s.func 1).grps.contains g)
    if !other ∧ [1, 2, 5, 7].contains f then releaseForce g (funcCode f)

/-- A function none of whose triggers is active is released, at once or by the next acknowledgement (R382). -/
def settle (f : Nat) : M Unit := do
  let s ← getS
  if s.funcActive f ∧ (s.func f).trig = 0 then
    if s.f (SAF.FUNC_CFG.RESTART f) = 0 then releaseFunc f
    else wf (SAF.FUNC_STAT.ACK_WAIT f) 1

/-- A trigger of a function becomes inactive. -/
def withdraw (f src key : Nat) : M Unit := do
  let s ← getS
  let r := s.func f
  if bit r.trig src then
    let by_ := if src = 3 then r.by_.erase key else r.by_
    updFunc f fun r => { r with by_ := by_, trig := if src = 3 ∧ !by_.isEmpty then r.trig else clrBit r.trig src }
    settle f

/-- An acknowledgement (R382): every function that waits for one is released. -/
def acknowledge : M Unit :=
  (List.range 8).forM fun f => do
    if f ≠ 0 ∧ (← rf (SAF.FUNC_STAT.ACK_WAIT f)) = 1 then releaseFunc f

/-- An internal trigger that is over as soon as it has acted: STO by a monitor or at the end of SS1 (R374, R377 to
R380; DESIGN CHOICE, log entry 16). -/
def momentary (f key : Nat) (gs : List Nat) (cause : Nat) : M Unit := do
  trigger f 3 key gs cause
  withdraw f 3 key

/-- SS1 of one group from inside the device (R235, R377, R408): a machine group that is ARMED or RUNNING ramps, and
the trigger ends with the ramp; any other group takes STO at once. -/
def startSs1 (g cause : Nat) : M Unit := do
  let s ← getS
  if s.forcible g then
    trigger 2 3 (0x10000 + g) [g] cause
    if (← getS).gst g = .safe then withdraw 2 3 (0x10000 + g)

/-- A safe stop 1 ends in STO (R377); `cause` tells why. -/
def ss1Sto (g cause : Nat) : M Unit := do
  momentary 1 (0x20000 + g) [g] cause
  withdraw 2 3 (0x10000 + g)

end Sys2Proof.Machine
end

