-- ==== Sys2Proof/Machine/Ledger.lean ====
section
/-! DEFINITION. The fault ledger: counting occurrences, reactions, the fault log (R402 to R413). -/

namespace Sys2Proof.Machine

/-- N of a source's entry in table 0x60 (R406). -/
def State.ledN (s : State) (src : Nat) : Nat := s.tn 0x60 (8 * src) 1

/-- The reaction class of a source's entry. -/
def State.ledClass (s : State) (src : Nat) : Nat := s.tn 0x60 (8 * src + 1) 1 % 16

/-- W of a source's entry, ms. -/
def State.ledW (s : State) (src : Nat) : Nat := s.tn 0x60 (8 * src + 2) 2

/-- EVT_TRANSIENT of a source's entry. -/
def State.ledEvt (s : State) (src : Nat) : Bool := bit (s.tn 0x60 (8 * src + 4) 1) 1

/-- Whether a source is lasting for an instance (R410). -/
def State.lasting (s : State) (src inst : Nat) : Bool := bit (s.rd (FLG.LASTING src)).toNat inst

/-- The groups of comparator bank `b`: every group its enabled cells select, end pulses of, or blank from (R137). -/
def State.cellGroups (s : State) (c : Nat) : List Nat :=
  let o := 20 * c
  let cfg := (s.tb 0x40 (o + 2)).toNat
  let route := (s.tb 0x40 (o + 3)).toNat % 4
  let target := s.tn 0x40 (o + 8) 4
  let blank := (s.tb 0x40 (o + 13)).toNat
  let sel := if route = 3 then [s.chGroup (target % 256)]
             else if route = 0 then [] else bitsSet target 32
  let bl := if blank = 0xFF then [] else [s.chGroup blank]
  if bit cfg 7 then ((sel ++ bl).filter fun g => decide (g < 32)).dedup else []

/-- The groups of a comparator bank. -/
def State.bankGroups (s : State) (b : Nat) : List Nat :=
  ((List.range 9).flatMap fun k => s.cellGroups (9 * b + k)).dedup

/-- The groups of logical converter `k` (R165). -/
def State.convGroups (s : State) (k : Nat) : List Nat := groups.filter fun g => s.convUses k g

/-- Byte `o` of entry `e` of logical converter `k`'s sequence. -/
def State.seqByte (s : State) (k e o : Nat) : Nat := (s.tb (0x50 + k) (8 * e + o)).toNat

/-- The enabled bindings of a logical converter. -/
def State.bindings (s : State) (k : Nat) : List Nat := (List.range 8).filter fun m => s.f (MEA.BIND.EN k m) == 1

/-- The entries of a run from an entry on, and whether it reaches LAST before entry 31 is passed (R165, R187). -/
def State.runFrom (s : State) (k start : Nat) : List Nat × Bool :=
  let es := (List.range (32 - start)).map (start + ·)
  match es.find? fun e => bit (s.seqByte k e 2) 7 with
  | some l => (es.filter fun e => decide (e ≤ l), true)
  | none => (es, false)

/-- The entries of the run of a binding. -/
def State.runEntries (s : State) (k m : Nat) : List Nat := (s.runFrom k (s.f (MEA.BIND.START k m))).1

/-- Whether a sequence of logical converter `k` uses a reference (REF bits of its entries, R164). -/
def State.convRef (s : State) (k ref : Nat) : Bool :=
  (s.bindings k).any fun m => (s.runEntries k m).any fun e => s.seqByte k e 2 / 4 % 4 == ref

/-- The state of a Chord in CHD.STATUS: 0 JOINED, 1 RESTARTING, 2 SPLIT, 3 HANDOVER, 4 FAILED, 5 CARRIER. -/
def State.chd (s : State) (n : Nat) : Nat :=
  match n with
  | 0 => s.f CHD.STATUS.CD0
  | 1 => s.f CHD.STATUS.CD1
  | _ => s.f CHD.STATUS.CD2

/-- The Chord that carries the work of management Chord `n` (R414, R418, R420): itself, or the other one while it is FAILED, split or has
handed its work over. -/
def State.worker (s : State) (n : Nat) : Nat := if s.chd n = 4 ∨ s.chd n = 2 ∨ s.chd n = 3 then 3 - n else n

/-- The Chord that runs the command executor, sessions and logs (R414). -/
def State.executorChord (s : State) : Nat := s.worker 1

/-- Whether the Chord that carries CD1's work runs, its island in service. -/
def State.cd1Reads (s : State) : Bool := s.chd s.executorChord != 1 && s.present (12 + s.executorChord)

/-- Whether the Chord that carries CD2's work runs (charging, power path, thermal derating, network; R414). -/
def State.cd2Reads (s : State) : Bool := s.chd (s.worker 2) != 1 && s.present (12 + s.worker 2)

/-- The groups an instance of a source concerns (R403): the group itself, or every group that uses the unit. -/
def State.instGroups (s : State) (src inst : Nat) : List Nat :=
  let page := src / 10
  if src = 1 then groups.filter fun g => s.usesIsland g inst
  else if src = 31 then groups.filter fun g => (s.chans g).any fun c => c / 16 == inst
  else if src = 40 ∨ src = 41 then s.bankGroups inst
  else if src = 50 ∨ src = 51 then [s.chGroup (96 + 2 * inst), s.chGroup (97 + 2 * inst)].dedup
  else if src = 55 then groups.filter fun g => (s.chans g).any isDriver
  else if src = 63 then groups.filter fun g => (List.range 8).any fun k => s.convUses k g && s.convRef k inst
  else if page = 6 then s.convGroups inst
  else if page = 10 then groups.filter fun g => (s.grpUnits g).contains inst
  else if src = 167 ∨ [2, 3, 5, 7, 8, 9, 11, 12, 14].contains page then [inst]
  else []

/-- FLG.STATUS1.LASTING_SRC follows the LASTING words (R410). -/
def setLastingSrc : M Unit := do
  let s ← getS
  wf FLG.STATUS1.LASTING_SRC ((List.range 256).filter fun k => s.rd (FLG.LASTING k) ≠ 0).length
  setAttn

/-- The body of LEDGER (R413). -/
def ledgerEvent (e : FltEntry) : M Unit :=
  eventDev 0x8002 (by1 [e.source, e.inst, e.kind, e.cls] ++ leBytes 2 e.count)

/-- Queue an entry for the fault log; without a place it is dropped and counted (R412). -/
def queueEntry (e : FltEntry) (lasting : Bool) : M Unit := do
  let s ← getS
  if s.que.fltQ.length < fltLimit lasting then act (.fltQueue e lasting)
  else inc FLG.STATUS1.LOG_LOST

/-- The reaction of a class on the groups of an occurrence (R408). -/
def react (cls src inst : Nat) : M Unit := do
  let s ← getS
  if cls = 1 then (s.instGroups src inst).forM fun g => startSs1 g src
  else if cls = 2 then (s.instGroups src inst).forM fun g => forceAct g 8 src
  else if cls = 3 then
    groups.forM fun g => forceAct g 8 src
    deviceSafe

/-- One occurrence of a source for an instance (R402, R410): it is counted, judged transient or lasting, logged, and
a lasting one takes its class. The answer tells whether it made the pair lasting, for the source's own effect. -/
def occurrence (src inst detail : Nat) : M Bool := do
  let s ← getS
  let key := src * 256 + inst
  let n := s.ledN src
  let w := s.ledW src
  inc (FLG.OCCUR.OCCURRENCES src)
  wf (FLG.OCCUR.LAST_INSTANCE src) inst
  let h := mget ({} : Hist) s.hid.flg.hist key
  let times := (s.hid.now :: h.times).take 255
  let already := s.lasting src inst
  let full : Bool := match times[n - 1]? with
    | some t0 => decide (s.hid.now - t0 < w * 1000)
    | none => false
  let turns : Bool := !already && decide (0 < n) && (n == 1 || full)
  let since : Nat := if turns then 1 else if already then h.since + 1 else 0
  hid fun x => { x with flg := { x.flg with hist := sput x.flg.hist key ⟨times, since⟩ } }
  if turns then
    let cls := s.ledClass src
    wr (FLG.LASTING src) (BitVec.ofNat 32 (setBit (s.rd (FLG.LASTING src)).toNat inst))
    inc (FLG.OCCUR.LASTINGS src)
    setLastingSrc
    let e : FltEntry := ⟨s.ms, s.f SYS.BOOT.BOOTS, src, inst, 2, cls, 1, detail⟩
    queueEntry e true
    ledgerEvent e
    react cls src inst
    return true
  let e0 := mget (⟨s.ms, s.f SYS.BOOT.BOOTS, src, inst, 1, 0, 0, detail⟩ : FltEntry) s.hid.flg.tick key
  let e1 : FltEntry := { e0 with count := min (e0.count + 1) 0xFFFF }
  hid fun x => { x with flg := { x.flg with tick := sput x.flg.tick key e1 } }
  return false

/-- An occurrence whose source has no own effect. -/
def occur (src inst detail : Nat) : M Unit := do
  let _ ← occurrence src inst detail

/-- A lasting bit is cleared and its history emptied (R410): kind 3 by the host, 4 by the source's own end. -/
def clearLasting (src inst kind : Nat) : M Unit := do
  let s ← getS
  if s.lasting src inst then
    let key := src * 256 + inst
    let h := mget (⟨[], 0⟩ : Hist) s.hid.flg.hist key
    wr (FLG.LASTING src) (BitVec.ofNat 32 (clrBit (s.rd (FLG.LASTING src)).toNat inst))
    hid fun x => { x with flg := { x.flg with hist := serase x.flg.hist key } }
    setLastingSrc
    let e : FltEntry := ⟨s.ms, s.f SYS.BOOT.BOOTS, src, inst, kind, 0, min h.since 0xFFFF, 0⟩
    queueEntry e false
    ledgerEvent e

/-- At the end of a management tick the transients of each source and instance form one entry, and the firmware
takes the queued entries unless the Chord that carries its work restarts (R411 to R413). -/
def ledgerTick : M Unit := do
  let s ← getS
  (s.hid.flg.tick).forM fun p => do
    queueEntry p.2 false
    if s.ledEvt p.2.source then ledgerEvent p.2
  hid fun x => { x with flg := { x.flg with tick := [] } }
  let s ← getS
  if s.cd1Reads then
    let lost := s.que.flt.length + s.que.fltQ.length - 4096
    act .fltTake
    incBy FLG.STATUS.OVERWRITTEN lost
    wf FLG.STATUS.ENTRIES (min 4096 (s.que.flt.length + s.que.fltQ.length))

/-! ## The other logs -/

/-- The TRANSPORT code of a source (R53). -/
def srcCode : Source → Nat
  | .spi => 0x01
  | .tunnel => 0x02
  | .canxl c _ => 0x10 + c.val
  | .udp p _ _ => 0x20 + p.val
  | .sequence => 0x30

/-- The SOURCE of a log entry: CAN XL priority ID, UDP source port, or 0 (R53). -/
def srcId : Source → Nat
  | .canxl _ p => p
  | .udp _ _ port => port
  | _ => 0

/-- One entry of the violation log and the event VIOLATION (R53). -/
def violation (e : VioEntry) : M Unit := do
  let s ← getS
  if s.que.vio.length = 64 then inc CMD.VIOLATION.OVERWRITTEN
  act (.vio e)
  wf CMD.VIOLATION.ENTRIES (min 64 (s.que.vio.length + 1))
  eventDev 0x8003 (leBytes 4 e.addr ++ leBytes 4 e.time ++ leBytes 2 e.opcode ++ leBytes 2 e.session ++
    by1 [e.transport, e.reason] ++ leBytes 2 e.source)

/-- The configuration CRC (R398): CRC-32C over the RWS words of page SAF in ascending address order, followed by
table 0x60; CFG_EXPECT, which holds the validated value, is left out (DEDUCED, log entry 9). -/
def State.cfgCrc (s : State) : Nat :=
  let words := (List.range 256).flatMap fun i =>
    let a := 0x100000 + 4 * i
    match regAt a with
    | some r => if r.rws = 0 ∨ r.name = .SAF_CFG_EXPECT then [] else leBytes 4 (s.rd a &&& r.rws).toNat
    | none => []
  crc32c (words ++ s.tbs 0x60 0 2048)

/-- SAF.CFG_CRC is recomputed after a change (R398). -/
def setCfgCrc : M Unit := do
  let s ← getS
  wr SAF.CFG_CRC (BitVec.ofNat 32 s.cfgCrc)

/-- One entry of the change log (R399). -/
def change (kind addr old new session transport : Nat) : M Unit := do
  let s ← getS
  if s.que.chg.length = 1024 then inc SAF.CHANGE.OVERWRITTEN
  act (.chg ⟨addr, kind, old, new, s.ms, session, transport, (s.rd SAF.CFG_CRC).toNat⟩)
  wf SAF.CHANGE.ENTRIES (min 1024 (s.que.chg.length + 1))

end Sys2Proof.Machine
end

