-- ==== Sys2Proof/Machine/Replies.lean ====
section
/-! DEFINITION. Replies and completions on their way back to the transport and source of a request (R39 to R41, R68,
R69, R71, R73, R74). -/

namespace Sys2Proof.Machine

/-- The status codes of R39. -/
abbrev stOk : Nat := 0
abbrev stAccepted : Nat := 1
abbrev stRefused : Nat := 2
abbrev stFailed : Nat := 3
abbrev stPartial : Nat := 4

/-- The status block of R39. -/
def statusBlock (status reason detail : Nat) : List Byte :=
  leBytes 1 status ++ leBytes 1 0 ++ leBytes 2 reason ++ leBytes 4 detail

/-- The answer to a request: status block (R39), data, and the address the violation log names (R53). -/
structure Ans where
  status : Nat := 0
  reason : Nat := 0
  detail : Nat := 0
  data : List Byte := []
  va : Nat := 0
  deriving DecidableEq, Repr

/-- OK with data. -/
abbrev okWith (d : List Byte) : Ans := { data := d }

/-- REFUSED (R39). -/
abbrev refuse (reason detail : Nat) : Ans := { status := stRefused, reason := reason, detail := detail }

/-- REFUSED at an address, which the violation log names. -/
abbrev refuseAt (reason a : Nat) : Ans := { status := stRefused, reason := reason, detail := a, va := a }

/-- FAILED with `TARGET_ABSENT` (R25). -/
abbrev absentAt (a : Nat) : Ans := { status := stFailed, reason := 0x010B, detail := a }

/-- A request is completed for an absent island (R24). -/
def absentReply (n : Nat) : M Unit := inc (SYS.XFER.ABSENT_REPLIES n)

/-- The header bytes of a packet whose payload has `n` bytes (R35). -/
def OutPkt.header (p : OutPkt) (n : Nat) : List Byte :=
  leBytes 2 0x5A3C ++ leBytes 1 p.version ++ leBytes 1 p.flags ++ leBytes 2 p.seq ++ leBytes 2 p.opcode ++
    leBytes 2 n ++ leBytes 2 p.session ++ leBytes 1 p.page ++ leBytes 2 p.inst ++ leBytes 1 p.scope

/-- A packet with FLAGS.AUTH and its tag under a session key (R38). -/
def OutPkt.signed (p : OutPkt) (key : List Byte) : OutPkt :=
  let q : OutPkt := { p with flags := setBit p.flags 7 }
  { q with payload := p.payload ++ (hmac key (q.header (p.payload.length + 16) ++ p.payload)).take 16 }

/-- The words of a list of bytes, first byte in bits 7:0, the last word filled with 0. -/
def wordsOf : List Byte → List Word
  | [] => []
  | a :: b :: c :: d :: r => BitVec.ofNat 32 (ofLe [a, b, c, d]) :: wordsOf r
  | r => [BitVec.ofNat 32 (ofLe r)]

/-- Place a packet in CMD.TUNNEL_RX (R71). -/
def placeTunnel (p : OutPkt) : M Unit := do
  let ws := wordsOf p.bytes
  (ws.zip (List.range 1029)).forM fun x => wr (CMD.TUNNEL_RX x.2) x.1
  wf CMD.TUNNEL_CTL.RX_LEN p.bytes.length
  wf CMD.TUNNEL_CTL.RX_VALID 1
  if p.first then wf CMD.TUNNEL_CTL.BUSY 0
  setAttn

/-- The key of a peer's MAC address: interface and IPv4 address. -/
def peerKey (phy ip : Nat) : Nat := phy * 4294967296 + ip

/-- Hand a packet to the transport and source of its request (R39). The answer tells whether it entered; only a full
transmit queue of CAN XL keeps one out. -/
def handTo (src : Source) (p : OutPkt) : M Bool := do
  match src with
  | .spi =>
    act (.spiReply p)
    setAttn
    return true
  | .tunnel =>
    if (← rf CMD.TUNNEL_CTL.RX_VALID) = 1 then
      hid fun h => { h with cmd := { h.cmd with tunnelWait := h.cmd.tunnelWait ++ [p] } }
    else placeTunnel p
    return true
  | .canxl .. => canxlSend p
  | .udp phy a port =>
    let s ← getS
    match sget? s.hid.bus.peers (peerKey phy.val a) with
    | some mac => ethSend ⟨phy.val, mac, a, s.f CMD.UDP_CFG.PORT, port, p.bytes, 0⟩
    | none => ethSend ⟨phy.val, 0, a, s.f CMD.UDP_CFG.PORT, port, p.bytes, 0⟩
    return true
  | .sequence => return true

/-- Send a reply to where its request came from (R39). While the host link is out of service the reply waits for it
(R30). -/
def sendTo (src : Source) (p : OutPkt) : M Bool := do
  if (← getS).present 10 || src == .sequence then handTo src p
  else
    hid fun h => { h with cmd := { h.cmd with linkWait := h.cmd.linkWait ++ [(src, p)] } }
    return true

/-- The host link is PRESENT again: the replies that waited are issued (R30). -/
def linkReturns : M Unit := do
  let l := (← getS).hid.cmd.linkWait
  hid fun h => { h with cmd := { h.cmd with linkWait := [] } }
  l.forM fun x => do
    let _ ← handTo x.1 x.2

/-- The route number of a source (R72): 0 SPI, 1 CAN XL, 2 UDP; the tunnel counts with SPI. -/
def srcRoute : Source → Nat
  | .canxl .. => 1
  | .udp .. => 2
  | _ => 0

/-- Send COMPLETION of an operation that replied ACCEPTED (R40, R41): original SEQ, OPCODE and SESSION, the final
status block and the result data. An operation a stored sequence awaits reports to the sequence (R64). -/
def sendCompletion (d : Due) (status reason detail : Nat) (data : List Byte) : M Unit := do
  hid fun h => { h with cmd := { h.cmd with due := h.cmd.due.erase d } }
  if d.byRun then
    hid fun h => { h with cmd := { h.cmd with runResult := some (status, reason, detail) } }
  else if !(bit d.p.flags.toNat 2 && status == stOk) then
    let body := leBytes 2 d.p.seq.toNat ++ leBytes 2 d.kind ++ leBytes 2 d.p.session.toNat ++
      statusBlock status reason detail ++ data
    match d.p.src with
    | .spi =>
      let s ← getS
      if eventCount s.que.spi < 64 then
        act (.spiEvent (← eventPacket 0 0x8001 0 0 4 body))
        eventDelivered 0
        setAttn
      else eventLost 0
    | src =>
      let n := srcRoute src
      let pk ← eventPacket n 0x8001 0 0 4 body
      if ← sendTo src pk then eventDelivered n
      else hid fun h => { h with cmd := { h.cmd with evtLost := mupd 0 h.cmd.evtLost n (· + 1) } }

/-- An operation of an opcode on a unit becomes due (R40). -/
def addDue (kind unit : Nat) (p : Packet) (byRun : Bool) : M Unit :=
  hid fun h => { h with cmd := { h.cmd with due := h.cmd.due ++ [⟨kind, unit, p, byRun⟩] } }

/-- Find the operation of an opcode on a unit. -/
def State.findDue (s : State) (kind unit : Nat) : Option Due :=
  s.hid.cmd.due.find? fun d => d.kind == kind && d.unit == unit

/-- End the operation of an opcode on a unit, if one is due. -/
def complete (kind unit status reason detail : Nat) (data : List Byte) : M Unit := do
  match (← getS).findDue kind unit with
  | some d => sendCompletion d status reason detail data
  | none => pure ()

end Sys2Proof.Machine
end

