-- ==== Sys2Proof/Machine/Chords.lean ====
section
/-! DEFINITION. The Chords: lockstep, restart, checkpoint, migration, split and join (R414 to R422). The model executes
a firmware effect with the command that causes it, so a checkpoint releases no outputs of its own (DESIGN CHOICE, log entry 22). -/

namespace Sys2Proof.Machine

/-- One Chord's record. -/
def State.chord (s : State) (n : Nat) : Chord := mget {} s.hid.flg.chords n

/-- Update a Chord's record. -/
def updChord (n : Nat) (f : Chord → Chord) : M Unit :=
  hid fun h => { h with flg := { h.flg with chords := mupd {} h.flg.chords n f } }

/-- A Chord changes state without an event. -/
def putChd (n new : Nat) : M Unit :=
  match n with
  | 0 => wf CHD.STATUS.CD0 new
  | 1 => wf CHD.STATUS.CD1 new
  | _ => wf CHD.STATUS.CD2 new

/-- CHD_STATE (R417, R420): the Chord, the old state, the new state, the cause. -/
def chdEvent (n old new cause : Nat) : M Unit := eventDev 0x8038 (by1 [n, old, new, 0] ++ leBytes 2 cause)

/-- A Chord changes state and tells it. -/
def setChd (n new cause : Nat) : M Unit := do
  let old := (← getS).chd n
  if old ≠ new then
    putChd n new
    chdEvent n old new cause

/-- The other management Chord. -/
def otherChd (n : Nat) : Nat := 3 - n

/-- The management Chord that is split, if one is. -/
def State.splitChd (s : State) : Option Nat := [1, 2].find? fun n => s.chd n == 2

/-- Whether CD0 works now: it runs, and its island is in service; its firmware functions stand still meanwhile (R370, R417, R418). -/
def State.cd0Reads (s : State) : Bool := s.chd 0 != 1 && s.chd 0 != 4 && s.present 12

/-- Whether a bulk task runs on a split Chord (R419). -/
def State.bulkOn (s : State) (n : Nat) : Bool :=
  (match s.hid.mem.scrub with
    | some x => x.chord == some n
    | none => false) || s.hid.lcy.upd.any fun p => p.2.chord == some n

/-- The bulk tasks of a split Chord end with CHD_TASK_ABANDONED (R421). -/
def abandonTasks (n : Nat) : M Unit := do
  let s ← getS
  match s.hid.mem.scrub with
  | some x =>
    if x.chord = some n then
      hid fun h => { h with mem := { h.mem with scrub := none } }
      wf MEM.STATUS.SCRUB_ACTIVE 0
      complete 0xA0 0 stFailed 0x1204 0 []
  | none => pure ()
  s.hid.lcy.upd.forM fun p => do
    if p.2.chord = some n then
      hid fun h => { h with lcy := { h.lcy with upd := serase h.lcy.upd p.1 } }
      complete 0xD2 p.1 stFailed 0x1204 0 []

/-- The device enters SAFE with every group forced (class DEVICE_SAFE, R408, R418). -/
def allSafe (cause : Nat) : M Unit := do
  groups.forM fun g => forceAct g 8 cause
  deviceSafe

/-- A split that was accepted and cannot be completed ends (DESIGN CHOICE, log entry 22: the spec names no reason; the model answers what
a new CHORD_SPLIT would be refused with). -/
def dropSplit (n reason : Nat) : M Unit := do
  if ((← getS).chord n).toSplit then
    updChord n fun r => { r with toSplit := false }
    complete 0xB0 n stFailed reason CHD.STATUS []

/-- A Chord is marked FAILED, in MRAM too (R418, R421). -/
def markFailed (n cause : Nat) : M Unit := do
  dropSplit n 0x1203
  updChord n fun _ => {}
  hid fun h => { h with flg := { h.flg with chdFailed := (n :: h.flg.chdFailed.erase n) } }
  setChd n 4 cause

/-- A management Chord takes on the other's work (R418, R420): at once, or when its restart ends. -/
def carry (n cause : Nat) : M Unit := do
  if (← getS).chd n = 1 then updChord n fun r => { r with carrier := true } else setChd n 5 cause

/-- A carrier has only its own work again. -/
def giveBack (n cause : Nat) : M Unit := do
  updChord n fun r => { r with carrier := false }
  if (← getS).chd n = 5 then setChd n 0 cause

/-- A join ends (R421): `test` is the outcome of the start-up lockstep test. The Chord takes its workload back, or is
FAILED. -/
def endJoin (n : Nat) (test : Bool) : M Unit := do
  updChord n fun r => { r with joining := false, joinAt := 0 }
  if test then
    setChd n 0 0xB1
    giveBack (otherChd n) 0xB1
    complete 0xB1 n stOk 0 0 []
  else
    occur 182 n 0
    markFailed n 182
    complete 0xB1 n stFailed 0x1205 0 []

/-- A lasting CHD_LOCKSTEP or an occurrence of CHD_RESTART_FAIL (R418, R422); `test` is the outcome of the lockstep
test of a split Chord that must join at once. -/
def chordFailed (n cause : Nat) (test : Bool) : M Unit := do
  markFailed n cause
  if n = 0 then allSafe cause
  else
    let o := otherChd n
    let s ← getS
    if s.chd o = 2 then
      abandonTasks o
      endJoin o test
    if (← getS).chd o = 4 then allSafe cause
    else
      dropSplit o 0x1202
      carry o cause

/-- Whether a management Chord carries both workloads, restarting or not. -/
def State.carried (s : State) (n : Nat) : Bool := s.chd n == 5 || (s.chd n == 1 && (s.chord n).carrier)

/-- The state a restarted Chord returns to: a hand-over goes on where it was. -/
def State.chdResumed (s : State) (n : Nat) : Nat :=
  if (s.chord n).carrier then 5 else if (s.chord n).toSplit ∧ s.carried (otherChd n) then 3 else 0

/-- A lockstep disagreement of a pair (R415, R417, R418): a pair that is split, halted or FAILED compares nothing. -/
def lockstepMismatch (n : Nat) (test : Bool) : M Unit := do
  let s ← getS
  if s.chd n = 0 ∨ s.chd n = 3 ∨ s.chd n = 5 then
    inc (CHD.CNT.MISMATCHES n)
    updChord n fun r => { r with carrier := s.chd n == 5 }
    if ← occurrence 180 n 0 then chordFailed n 180 test
    else putChd n 1

/-- A halted pair restarts in `t` × 10 ns, its checkpoint and journal reading `ok` (R417, R418). -/
def restartPair (n : Nat) (ok : Bool) (t : Nat) (test : Bool) : M Unit := do
  let s ← getS
  if s.chd n = 1 then
    if !ok ∨ 3000 < t then
      occur 181 n 0
      chordFailed n 181 test
    else
      inc (CHD.CNT.RESTARTS n)
      wf (CHD.CKPT.RESTART_MAX n) (max t (s.f (CHD.CKPT.RESTART_MAX n)))
      setChd n (s.chdResumed n) 180

/-- A split that is handed over completes (R420 steps 2 and 3). -/
def finishSplit (n : Nat) : M Unit := do
  let s ← getS
  if s.chd n = 3 ∧ (s.chord n).toSplit then
    updChord n fun r => { r with toSplit := false }
    inc (CHD.CNT.SPLITS n)
    setChd n 2 0xB0
    complete 0xB0 n stOk 0 0 []

/-- A pair takes a checkpoint (R416): a split it waits for hands its workload over (R420 step 1), and a Chord that
joins takes its workload back from this carrier, `test` being its lockstep test (R421). -/
def takeCheckpoint (n : Nat) (test : Bool) : M Unit := do
  let s ← getS
  if s.chd n = 0 ∨ s.chd n = 3 ∨ s.chd n = 5 then
    incWrap (CHD.CKPT.CKPT_COUNT n)
    [1, 2].forM finishSplit
    let s ← getS
    if n ≠ 0 then
      let o := otherChd n
      if s.chd n = 0 ∧ (s.chord n).toSplit then
        if s.chd o = 0 then
          setChd n 3 0xB0
          carry o 0xB0
      else if s.chd o = 2 ∧ (s.chord o).joining ∧ !s.bulkOn o then endJoin o test

/-- Why CHORD_SPLIT is refused, in the order of R419; `some none` is an OK that changes nothing. -/
def State.splitAnswer (s : State) (n : Nat) : Option (Option Nat) :=
  if n = 0 then some (some 0x1201)
  else if s.chd n = 4 then some (some 0x1203)
  else
    let o := otherChd n
    if s.chd o = 4 ∨ s.chd o = 2 ∨ s.chd o = 3 ∨ (s.chord o).toSplit then some (some 0x1202)
    else if s.chd n = 3 ∨ (s.chord n).toSplit then some (some 0x0107)
    else if s.chd n = 2 then some none
    else none

/-- A join of a split Chord begins (R421). -/
def startJoin (n : Nat) : M Unit := do
  let t := (← getS).ms
  updChord n fun r => { r with joining := true, joinAt := t }

/-- 100 ms after the request a bulk task still running is abandoned (R421). -/
def joinGraceExpiry (n : Nat) : M Unit := do
  let s ← getS
  if s.chd n = 2 ∧ (s.chord n).joining ∧ (s.chord n).joinAt + 100 ≤ s.ms then abandonTasks n

end Sys2Proof.Machine
end

