-- ==== Sys2Proof/Machine/Cells.lean ====
section
/-! DEFINITION. The records of the Lattice: descriptors, cells, rate groups, and the return to a state made final
(R189, R193, R206). -/

namespace Sys2Proof.Machine

/-! ## Descriptors (R193) -/

/-- A byte of a cell's descriptor. -/
def State.dB (s : State) (c o : Nat) : Nat := (s.tb 0x20 (64 * c + o)).toNat

/-- A signed 32-bit field of a cell's descriptor. -/
def State.dW (s : State) (c o : Nat) : Int := sx32 (s.tn 0x20 (64 * c + o) 4)

/-- Whether a cell is enabled. -/
def State.lcEn (s : State) (c : Nat) : Bool := bit (s.dB c 1) 7

/-- The cells of a rate group, in ascending order. -/
def State.rgCells (s : State) (n : Nat) : List Nat := (List.range 192).filter fun c => s.lcEn c && s.dB c 0 == n

/-- The timebase of a group: that of its lowest channel. -/
def State.grpTb (s : State) (g : Nat) : Nat :=
  match s.chans g with
  | c :: _ => s.chTb c
  | [] => 0

/-- How many results had been delivered when the fourth window before the present one of a group's timebase began, or the first
window since its counter began: a link result no newer is too old (R211; DEDUCED, log entry 14). -/
def State.linkMark (s : State) (g : Nat) : Nat :=
  let l := (s.tbase (s.grpTb g)).marks
  l.getD 4 (l.getLastD 0)

/-- One cell's record. -/
def State.lc (s : State) (c : Nat) : LCell := mget {} s.hid.lat.cells c

/-- Update a cell's record. -/
def updLc (c : Nat) (f : LCell → LCell) : M Unit :=
  hid fun h => { h with lat := { h.lat with cells := mupd {} h.lat.cells c f } }

/-- One rate group's record. -/
def State.rg (s : State) (n : Nat) : RateGrp := mget {} s.hid.lat.rgs n

/-- Update a rate group's record. -/
def updRg (n : Nat) (f : RateGrp → RateGrp) : M Unit :=
  hid fun h => { h with lat := { h.lat with rgs := mupd {} h.lat.rgs n f } }

/-- The target of a cell. -/
def State.tau (s : State) (c : Nat) : Int := sx32 (s.rd (LAT.TARGET c)).toNat

/-- The cells of a rate group take the states `l`; the rates of targets that came since stay (R205, R206). -/
def putCells (l : List (Nat × LCell)) : M Unit := l.forM fun x => updLc x.1 fun c => { x.2 with rate := c.rate }

/-- Return the cells of a rate group to the last state made final (R205, R206). -/
def restoreCells (n : Nat) : M Unit := do
  match ((← getS).rg n).saved with
  | some l =>
    putCells l
    updRg n fun r => { r with saved := none, fresh := false }
  | none => pure ()

/-- The pulse island has cancelled the duties posted for a group: a rate group that owns it discards the state updates
of that evaluation (R206). -/
def discardEval (g : Nat) : M Unit := do
  let s ← getS
  if 8 ≤ s.owner g then restoreCells (s.owner g - 8)

end Sys2Proof.Machine
end

