-- ==== Sys2Proof/Machine/Pulse.lean ====
section
/-! DEFINITION. Pulse generation: timebases, edge compares, commit and reload, late compute, trigger compares, delay
calibration (R82, R85, R87 to R112, R141, R142, R144, R149). Times are in units of 1/64 pulse clock unless a comment
says pulse clocks. -/

namespace Sys2Proof.Machine

/-- The compare value that never fires (R92). -/
abbrev never : Word := 0x3FFFFFFF

/-! ## Timebases -/

/-- The sync mode in effect (R90): a follower whose master is itself or is not FREE runs as FREE. -/
def State.tbMode (s : State) (t : Nat) : Nat :=
  let m := s.f (PLS.TB_SYNC.MODE t)
  let u := s.f (PLS.TB_SYNC.MASTER t)
  if (m = 1 ∨ m = 2) ∧ u ≠ t ∧ s.f (PLS.TB_SYNC.MODE u) = 0 then m else 0

/-- P in force, in pulse clocks (R87, R90): a PHASE follower takes its master's. -/
def State.tbP (s : State) (t : Nat) : Nat :=
  if s.tbMode t = 1 then (s.tbase (s.f (PLS.TB_SYNC.MASTER t))).pAct + 1 else (s.tbase t).pAct + 1

/-- Whether a timebase runs and its counter advances (R89): RUN is set, and for a PHASE follower its master's too. -/
def State.tbRuns (s : State) (t : Nat) : Bool :=
  s.f (PLS.TB_CFG.RUN t) == 1 && (s.tbMode t != 1 || s.f (PLS.TB_CFG.RUN (s.f (PLS.TB_SYNC.MASTER t))) == 1)

/-- Whether a timebase reloads twice per period (R88). -/
def State.tbDouble (s : State) (t : Nat) : Bool := s.f (PLS.TB_CFG.DOUBLE t) == 1

/-- The position at which the present window ends in its last period, pulse clocks (R88). -/
def State.winEnd (s : State) (t : Nat) : Nat :=
  if s.tbDouble t && s.f (PLS.TB_COUNT.WINDOW t) == 0 then s.tbP t / 2 else s.tbP t

/-- The position at which the present window starts in its period, pulse clocks. -/
def State.winStart (s : State) (t : Nat) : Nat :=
  if s.tbDouble t && s.f (PLS.TB_COUNT.WINDOW t) == 1 then s.tbP t / 2 else 0

/-- Whether more periods of the present window follow the present one (R88). -/
def State.morePeriods (s : State) (t : Nat) : Bool :=
  !s.tbDouble t && decide ((s.tbase t).per < s.f (PLS.TB_CFG.RELOAD_DIV t))

/-- The window of a timebase in pulse clocks. -/
def State.winLen (s : State) (t : Nat) : Nat :=
  if s.tbDouble t then s.tbP t / 2 else s.tbP t * (s.f (PLS.TB_CFG.RELOAD_DIV t) + 1)

/-- Cell evaluations per second of a rate group (R207): a window lasts `winLen` pulse clocks of 2.5 ns. -/
def State.rgRate (s : State) (n : Nat) : Rat :=
  let g := s.f (LAT.RG_CFG.GROUP n)
  if s.f (LAT.RG_CFG.EN n) = 1 ∧ g < 32 then
    (((s.rgCells n).length * 400000000 : Nat) : Rat) / (s.winLen (s.grpTb g) : Rat) else 0

/-- The static load of the engine in evaluations per second (R207). -/
def State.latLoad (s : State) : Rat := ((List.range 8).map s.rgRate).sum

/-- LAT.LOAD.LOAD_PCT follows the configuration and the periods in force (R207). -/
def setLoad : M Unit := do
  let s ← getS
  wf LAT.LOAD.LOAD_PCT (min 255 (s.latLoad * 100 / 25000000).floor.toNat)

/-- Whether the counter of a timebase stands in the reload strobe, the last pulse clock of its window (R102). -/
def State.inStrobe (s : State) (t : Nat) : Bool :=
  s.tbRuns t && (s.tbase t).pos + 1 == s.winEnd t && !s.morePeriods t

/-- A transfer that changes shadows or carries a token for the timebases `ts` completes in a strobe pulse clock (R102). -/
def meetStrobe (ts : List Nat) : M Unit := do
  let s ← getS
  if ts.any s.inStrobe then inc PLS.STATUS.LATE_WRITE

/-- Move the shadows of a stopped timebase to its active stage (R89). -/
def passShadows (t : Nat) : M Unit := do
  let s ← getS
  updTb t fun r => { r with pAct := s.f (PLS.TB_PERIOD.PERIOD t), pRel := none }
  (List.range 4).forM fun j =>
    updTrg (4 * t + j) fun r => { r with posAct := s.f (PLS.TRG_POS.POS t j), posRel := none }
  setLoad

/-- The counter of a timebase begins at `pos`, in a window of its own; the times of what lies before it no longer
count. An output cell that would have gone off by itself goes off now. -/
def beginAt (t pos : Nat) : M Unit := do
  let s ← getS
  updTb t fun r => { r with pos := pos, per := 0, epoch := 0, late := false, wins := r.wins + 1,
                            marks := [s.hid.mea.total] }
  wf (PLS.TB_COUNT.WINDOW t) (b2n (s.tbDouble t && decide (s.tbP t / 2 ≤ pos)))
  wf (PLS.TB_COUNT.COUNT t) pos
  (s.tbChans t).forM fun c => do
    if (s.chan c).due.any fun x => !x.2 then cellOff c 0
    updChan c fun r => { r with genOff := none, offAt := none, onAt := 0, moved := none, refresh := [], skip := none,
                                due := [] }

/-- The counter of a PHASE follower (R90): OFFSET ahead of its master's, which stands at 0 while it is stopped. -/
def State.phasePos (s : State) (t : Nat) : Nat :=
  ((s.tbase (s.f (PLS.TB_SYNC.MASTER t))).pos + s.f (PLS.TB_SYNC.OFFSET t)) % s.tbP t

/-- The PHASE followers of a timebase that have RUN set. -/
def State.followers (s : State) (u : Nat) : List Nat :=
  (List.range 16).filter fun t => s.tbMode t == 1 && s.f (PLS.TB_SYNC.MASTER t) == u && s.f (PLS.TB_CFG.RUN t) == 1

/-- PHASE followers take their place behind their master (R89, R90). -/
def alignPhase (ts : List Nat) : M Unit := do
  let s ← getS
  ts.forM fun t => beginAt t (s.phasePos t)

/-- Start every timebase a mask selects in one pulse clock (R89): FREE and RESTART ones at 0, PHASE ones at their phase
position; followers that waited for one of them go with it. -/
def startMask (mask : Nat) : M Unit := do
  let s ← getS
  let ts := (bitsSet mask 16).filter fun t => s.f (PLS.TB_CFG.RUN t) == 0
  ts.forM fun t => wf (PLS.TB_CFG.RUN t) 1
  (ts.filter fun t => s.tbMode t != 1).forM fun t => beginAt t 0
  let s ← getS
  alignPhase ((List.range 16).filter fun t => s.tbMode t == 1 && s.f (PLS.TB_CFG.RUN t) == 1 &&
    (ts.contains t || ts.contains (s.f (PLS.TB_SYNC.MASTER t))))

/-- Stop a timebase at counter 0 (R89); its PHASE followers stand at their OFFSET. -/
def stopTb (t : Nat) : M Unit := do
  wf (PLS.TB_CFG.RUN t) 0
  beginAt t 0
  passShadows t
  alignPhase ((← getS).followers t)

/-- TB_SYNC of a timebase was written (R90): it and the followers it masters take their phase. -/
def syncWritten (t : Nat) : M Unit := do
  let s ← getS
  if s.tbMode t = 1 ∧ s.f (PLS.TB_CFG.RUN t) = 1 then alignPhase [t]
  alignPhase ((← getS).followers t)

/-! ## Drivers: bootstrap -/

/-- The pair of a channel whose output cell is slot H of a pair with a bootstrap supply (R138, R141). -/
def State.bootPair (s : State) (c : Nat) : Option Nat :=
  let x := s.cellOf c
  if 96 ≤ x ∧ x % 2 = 0 ∧ s.f (GDR.DRV_CFG.BOOT_EN ((x - 96) / 2)) = 1 then some ((x - 96) / 2) else none

/-- Recharge a bootstrap pair (R144): slot H goes off and ignores its on-edges until the next reload, slot L comes on
after DT for REFRESH_W; UV_COUNT, UV_LATCH and one occurrence of BST_UV. `h` is the channel that slot H serves. -/
def bootUv (p h time : Nat) : M Unit := do
  let s ← getS
  let start := time + s.f (PLS.DEADTIME.DT (s.chSet h)) * 64
  cellOff h time
  updChan h fun r => { r with bstOff := true }
  match s.ofCell (97 + 2 * p) with
  | some l => updChan l fun r => { r with due := [(start, true), (start + s.f (GDR.DRV_CFG.REFRESH_W p) * 64, false)] }
  | none => pure ()
  inc (GDR.BST_STAT.UV_COUNT p)
  wf (GDR.BST_STAT.UV_LATCH p) 1
  occur 50 p 0

/-! ## Blanking and CBC at an edge -/

/-- BLANK_LEN of a cell. -/
def State.blankLen (s : State) (k : Nat) : Nat := s.tn 0x40 (20 * k + 14) 2 % 1024

/-- The cells that blank from a channel's edge (R121): `onEdge` says which. -/
def State.blankers (s : State) (c : Nat) (onEdge : Bool) : List Nat :=
  (List.range 72).filter fun k =>
    let o := 20 * k
    let edge := (s.tb 0x40 (o + 15)).toNat / 16 % 4
    bit (s.tb 0x40 (o + 2)).toNat 7 && (s.tb 0x40 (o + 13)).toNat == c &&
      decide (0 < s.blankLen k) && (edge == 2 || edge == (if onEdge then 0 else 1))

/-- Open the blanking windows of a channel's edge at full length from its ball, 9 pulse clocks after its compare (R95,
R121). A suppressed trip state is no sample in trip state (R123). -/
def openBlank (e : Nat × Nat) (onEdge : Bool) : M Unit := do
  let s ← getS
  (s.blankers e.1 onEdge).forM fun k => do
    wf (TRP.CELL_STAT.BLANKED k) 1
    hid fun h => { h with trp := { h.trp with
      cells := mupd {} h.trp.cells k fun r => { r with count := 0, blankEnd := e.2 + 576 + s.blankLen k * 64 } } }

/-- The enabled CBC cells of a channel (R116, R124). -/
def State.cbcCells (s : State) (c : Nat) : List Nat :=
  (List.range 72).filter fun k =>
    let o := 20 * k
    bit (s.tb 0x40 (o + 2)).toNat 7 && (s.tb 0x40 (o + 3)).toNat % 4 == 3 && s.tn 0x40 (o + 8) 4 % 256 == c

/-- The CBC cells that end a pulse of channel `c` at its on-edge: in trip state with no blanking window open, and none
that this edge opens (R124). -/
def State.cbcAtEdge (s : State) (c : Nat) : List Nat :=
  (s.cbcCells c).filter fun k =>
    s.f (TRP.CELL_STAT.IN_TRIP k) == 1 && s.f (TRP.CELL_STAT.BLANKED k) == 0 && !(s.blankers c true).contains k

/-! ## Edges -/

/-- A commanded edge of one pulse clock: channel and time. -/
structure Edge where
  ch : Nat
  time : Nat
  deriving DecidableEq, Repr

/-- The COARSE part of a compare word. -/
def coarse (w : Word) : Nat := bitsOf w 29 6

/-- The fine part of a compare word as the delay line of a channel's generator takes it: 0 in a block in COARSE_ONLY (R98). -/
def State.fine (s : State) (c : Nat) (w : Word) : Nat := if (s.chan (s.source c)).coarse then 0 else bitsOf w 5 0

/-- The active RISE of a channel, from the generator that drives it. -/
def State.rise (s : State) (c : Nat) : Word := s.rd (PLS.RISE_ACT (s.source c))

/-- The active FALL of a channel, from the generator that drives it. -/
def State.fall (s : State) (c : Nat) : Word := s.rd (PLS.FALL_ACT (s.source c))

/-- The position of a compare in fine units within its period. -/
def State.edgePos (s : State) (c : Nat) (w : Word) : Nat := coarse w * 64 + s.fine c w

/-- The channels of a timebase whose edges the pulse island commands: in a group that is ARMED, RUNNING, TRIPPED or
SAFE (R106). -/
def State.genChans (s : State) (t : Nat) : List Nat :=
  (s.tbChans t).filter fun c => decide (2 ≤ (s.gst (s.chGroup c)).code)

/-- Whether the edges of a channel leave the pulse island: it does not replace them by the group's safe pattern or, for
the brake chopper, by on or off (R112, R243). -/
def State.placed (s : State) (c : Nat) : Bool :=
  !s.hid.pls.forced.contains (s.chGroup c) && !s.chopHeld (s.chGroup c)

/-- Whether the output cell of a channel follows its edges: they are placed, and its group is ARMED or RUNNING, so that
neither a trip latch nor a force line holds it (R106, R128). -/
def State.followed (s : State) (c : Nat) : Bool := s.active (s.chGroup c) && s.placed c

/-- The committed and inserted off-edges of a pulse clock that are events: the channel is commanded on (R92). -/
def State.offEdges (s : State) (t pos : Nat) : List Edge :=
  let b := s.tbTime t pos
  (s.genChans t).filterMap fun c =>
    let r := s.chan c
    let fall := s.fall c
    let ins := r.refresh.find? fun e => !e.2 && e.1 / 64 == b / 64
    if !r.gen then none
    else if fall ≠ never ∧ coarse fall = pos then some ⟨c, b + s.fine c fall⟩
    else match ins with
      | some e => some ⟨c, e.1⟩
      | none => none

/-- The on-edges of a pulse clock: committed ones that R94 or R124 has not moved, moved ones, inserted ones. -/
def State.onEdges (s : State) (t pos : Nat) : List Edge :=
  let b := s.tbTime t pos
  (s.genChans t).filterMap fun c =>
    let r := s.chan c
    let rise := s.rise c
    let ins := r.refresh.find? fun e => e.2 && e.1 / 64 == b / 64
    match r.moved with
    | some m => if m / 64 = b / 64 then some ⟨c, m⟩ else none
    | none =>
      if rise ≠ never ∧ coarse rise = pos ∧ r.skip ≠ some (b + s.fine c rise) then some ⟨c, b + s.fine c rise⟩
      else match ins with
        | some e => some ⟨c, e.1⟩
        | none => none

/-- The time of the last commanded off-edge of a channel at or before `time`, with the off-edges of this pulse
clock. -/
def State.lastOff (s : State) (offs : List Edge) (c time : Nat) : Option Nat :=
  match offs.find? fun e => e.ch == c && decide (e.time ≤ time) with
  | some e => some e.time
  | none => (s.chan c).genOff

/-- The next off-edge of a channel after `time` in the present window. -/
def State.nextOff (s : State) (t c time : Nat) : Option Nat :=
  let fall := s.fall c
  let at_ := (s.tbase t).epoch * 64 + s.edgePos c fall
  if fall = never then none
  else if time < at_ ∧ coarse fall < s.winEnd t then some at_
  else if s.morePeriods t ∧ coarse fall < s.tbP t then some (at_ + s.tbP t * 64)
  else none

/-- The interlock sets a channel sits in. -/
def State.setsOf (s : State) (c : Nat) : List Nat := (List.range 48).filter fun i => (s.ilkChans i).contains c

/-- The earliest time at which dead time lets a channel come on (R94), at or after `time`. -/
def State.deadEnd (s : State) (offs : List Edge) (c time : Nat) : Nat :=
  (s.setsOf c).foldl (fun m i =>
    let dt := s.f (PLS.DEADTIME.DT i) * 64
    (s.ilkChans i).foldl (fun m p =>
      if p = c then m else
        match s.lastOff offs p time with
        | some o => if time < o + dt then max m (o + dt) else m
        | none => m) m) time

/-- What becomes of an on-edge before the output cell: no event, suppressed, moved, or passed on. -/
inductive OnFate where
  | none
  | suppressed
  | stretchSuppressed
  | moved (time : Nat)
  | passed
  deriving DecidableEq, Repr

/-- R92 to R94 for one on-edge. -/
def State.onFate (s : State) (t : Nat) (offs : List Edge) (e : Edge) : OnFate :=
  let r := s.chan e.ch
  let own := offs.find? fun o => o.ch == e.ch
  if own.any fun o => o.time == e.time then .suppressed
  else if r.gen && !(own.any fun o => decide (o.time < e.time)) then
    -- no event in the pulse island; a cell that took the channel off takes the on-edge anew (R82, R124, R243)
    if s.followed e.ch && !r.on && !((s.nextOff t e.ch e.time).any fun o => decide (o < e.time + 256)) then .passed
    else .none
  else if (s.lastOff offs e.ch e.time).any fun o => decide (e.time < o + 256) then .suppressed
  else if !r.gen && s.edgePos e.ch (s.fall e.ch) + (s.tbase t).epoch * 64 == e.time &&
      s.fall e.ch != never then .suppressed
  else
    let next := s.nextOff t e.ch e.time
    let d := s.deadEnd offs e.ch e.time
    if d = e.time then
      if next.any fun o => decide (o < e.time + 256) then .suppressed else .passed
    else
      let wEnd := ((s.tbase t).epoch + s.winEnd t +
        (if s.morePeriods t then s.tbP t * (s.f (PLS.TB_CFG.RELOAD_DIV t) - (s.tbase t).per) else 0)) * 64
      if wEnd ≤ d ∨ next.any (fun o => decide (o < d + 256)) then .stretchSuppressed else .moved d

/-- Whether set `i` is in fall-back (R149). -/
def State.inFallback (s : State) (i : Nat) : Bool :=
  if i < 32 then bit (s.f GDR.ILK_FB0.SETS) i else bit (s.f GDR.ILK_FB1.SETS) (i - 32)

/-- FORBID of a set without the combinations that name an empty slot (R81). -/
def State.ilkMask (s : State) (i : Nat) : Nat :=
  (List.range 16).foldl (fun n m =>
    if bit (s.ilkForbid i) m && (List.range 4).all (fun j => !bit m j || decide (s.ilkSlot i j < 144)) then setBit n m
    else n) 0

/-- The combination index of a set for a list of channels that are on (R81). -/
def State.combo (s : State) (i : Nat) (on : List Nat) : Nat :=
  (List.range 4).foldl (fun n j => if on.contains (s.ilkSlot i j) then n + 2 ^ j else n) 0

/-- The slot pairs of a set that FORBID forbids (R148). -/
def State.pairMatrix (s : State) (i : Nat) : List (Nat × Nat) :=
  [(0, 1), (0, 2), (0, 3), (1, 2), (1, 3), (2, 3)].filter fun x => bit (s.ilkMask i) (2 ^ x.1 + 2 ^ x.2)

/-- Whether the pair matrix latched at ENABLE marks a slot pair of a set (R148). -/
def State.pairForbidden (s : State) (i j k : Nat) : Bool :=
  ((sget? s.hid.pls.pairs i).getD []).contains (min j k, max j k) && j != k

/-- The channels paired with a channel in a set's matrix. -/
def State.paired (s : State) (i c : Nat) : List Nat :=
  (List.range 4).filterMap fun k =>
    if (List.range 4).any (fun j => s.ilkSlot i j == c && s.pairForbidden i j k) && decide (s.ilkSlot i k < 144) then
      some (s.ilkSlot i k) else none

/-- The interlock rule of R82 for one set: the on-commands it ignores. -/
def State.ilkIgnored (s : State) (i : Nat) (offs ons : List Edge) : List Nat :=
  let cs := s.ilkChans i
  let mine := ons.filter fun e => cs.contains e.ch
  match mine with
  | [] => []
  | e :: r =>
    let first := r.foldl (fun m x => min m x.time) e.time
    let still := cs.filter fun c => (s.chan c).on && !(offs.any fun o => o.ch == c && decide (o.time ≤ first))
    if s.inFallback i then
      (mine.filter fun x => (s.paired i x.ch).any fun p => still.contains p || mine.any fun y => y.ch == p).map (·.ch)
    else if bit (s.ilkMask i) (s.combo i (still ++ mine.map (·.ch))) then mine.map (·.ch) else []

/-- The time of the last off-edge of a channel in its output cell. -/
def State.cellOffAt (s : State) (offs : List Edge) (c time : Nat) : Option Nat :=
  match offs.find? fun e => e.ch == c && decide (e.time ≤ time) with
  | some e => some e.time
  | none => if (s.chan c).on then none else (s.chan c).offAt

/-- In fall-back, the time until which a paired channel's fused dead time holds an on-command back (R149). -/
def State.fallbackHold (s : State) (offs : List Edge) (e : Edge) : Nat :=
  (s.setsOf e.ch).foldl (fun m i =>
    if s.ilkEn i && s.inFallback i then
      (s.paired i e.ch).foldl (fun m p =>
        match s.cellOffAt offs p e.time with
        | some o => if e.time < o + 6400 then max m (o + 6400) else m
        | none => m) m
    else m) e.time

/-- The partner of a channel in a two-slot interlock set may come on DT after an early end (R124). -/
def advancePartner (ch time : Nat) : M Unit := do
  updChan ch fun q => { q with genOff := some time }
  let s ← getS
  (s.setsOf ch).forM fun i => do
    match (s.ilkChans i).filter (· != ch) with
    | [p] =>
      let at_ := (s.tbase (s.chTb ch)).epoch * 64 + s.edgePos p (s.rise p)
      let m := time + s.f (PLS.DEADTIME.DT i) * 64
      if s.rise p ≠ never ∧ m < at_ ∧ !(s.chan p).gen then
        updChan p fun q => { q with moved := some m, skip := some at_ }
    | _ => pure ()

/-- CBC cells end the pulse of their channel (R124): each counts it, and with PARTNER_ADV the partner may come on
earlier. -/
def endPulse (ch time : Nat) (cells : List Nat) : M Unit := do
  let s ← getS
  cellOff ch time
  cells.forM fun k => incWrap (TRP.CELL_STAT.CBC_CYCLES k)
  if cells.any fun k => bit (s.tb 0x40 (20 * k + 3)).toNat 3 then advancePartner ch time

/-- An on-edge that passed the interlock reaches the output cell: a starved bootstrap supply or a CBC cell may still
hold it off (R124, R141, R144). -/
def takeOn (e : Edge) : M Unit := do
  let s ← getS
  if (s.chan e.ch).bstOff then return ()
  match (s.bootPair e.ch).filter fun p => s.f (GDR.BST_STAT.BST_OK p) == 0 with
  | some p => bootUv p e.ch e.time
  | none =>
    let cells := s.cbcAtEdge e.ch
    if !cells.isEmpty then endPulse e.ch e.time cells
    else if ← cellOn e.ch e.time then openBlank (e.ch, e.time) true

/-- An on-command that the interlock ignores (R82, R149). -/
def ilkHit (i c : Nat) : M Unit := do
  inc (MAP.ILK_HITS.HITS i)
  occur 20 ((← getS).chGroup c) (MAP.ILK_HITS i)

/-- What an output cell does by itself once its time has come: slot L recharges a bootstrap supply and returns to its
commanded level (R144); an on-command held back in fall-back comes on, unless a paired channel is on by then (R149). -/
def settleCell (c time : Nat) : M Unit := do
  let s ← getS
  let now := (s.chan c).due.filter fun x => decide (x.1 ≤ time)
  updChan c fun r => { r with due := r.due.filter fun x => decide (time < x.1) }
  now.forM fun x => do
    let s ← getS
    if x.2 then
      let rest := (s.chan c).due
      if rest.isEmpty ∧ !now.any (fun y => !y.2) then
        match (s.setsOf c).find? fun i => s.ilkEn i && s.inFallback i && (s.paired i c).any fun p => (s.chan p).on with
        | some i => ilkHit i c
        | none =>
          let hold := s.fallbackHold [] ⟨c, x.1⟩
          if x.1 < hold then updChan c fun r => { r with due := [(hold, true)] } else takeOn ⟨c, x.1⟩
      else
        let _ ← cellOn c x.1
    else if !((s.chan c).gen && s.followed c) then cellOff c x.1

/-- The output cells of a timebase's channels act up to a time. -/
def settleCells (t time : Nat) : M Unit := do
  let s ← getS
  (s.tbChans t).forM fun c => do
    if (s.chan c).due.any fun x => decide (x.1 ≤ time) then settleCell c time

/-- Whether a spare channel is neither in use nor failed (R34, R156). -/
def State.spareFree (s : State) (c : Nat) : Bool :=
  (match sget? s.hid.trp.spares c with
    | none => true
    | some x => x == .free) && !(isDriver c && bit (s.f GDR.DRV_FAILED.PAIRS) ((c - 96) / 2))

/-- MAP.STATUS counts the free spares (R75, R84). -/
def showSpares : M Unit := do
  let s ← getS
  wf MAP.STATUS.LOGIC_FREE ((List.range' 90 6).filter s.spareFree).length
  wf MAP.STATUS.DRV_FREE ((List.range' 140 4).filter s.spareFree).length

/-- Whether the edges of two generators differ in the pulse clock at `pos`. -/
def State.edgesDiffer (s : State) (a b pos : Nat) : Bool :=
  let differ (x y : Word) : Bool := x != y && ((x != never && coarse x == pos) || (y != never && coarse y == pos))
  differ (s.rd (PLS.RISE_ACT a)) (s.rd (PLS.RISE_ACT b)) || differ (s.rd (PLS.FALL_ACT a)) (s.rd (PLS.FALL_ACT b))

/-- The mirror comparison of an open hand-over (R85): in every pulse clock the spare's edges must equal the channel's. -/
def mirrorCheck (t pos : Nat) : M Unit := do
  let s ← getS
  match s.hid.trp.hand with
  | some h =>
    if h.step = 1 ∧ s.chTb h.unit = t ∧ s.edgesDiffer (s.source h.unit) h.spare pos then
      inc MAP.STATUS.MIRROR_FAIL
      wf MAP.STATUS.HANDOVER 0
      hid fun x => { x with trp := { x.trp with hand := none, spares := sput x.trp.spares h.spare .failed } }
      showSpares
      complete 0x0080 h.unit stFailed 0x020A 0 []
  | none => pure ()

/-! ## Periods -/

/-- The compares and fixed triggers of a timebase at or beyond P (R91). -/
def State.beyondP (s : State) (t : Nat) : Nat :=
  let p := s.tbP t
  let far (w : Word) : Nat := if w ≠ never ∧ p ≤ coarse w then 1 else 0
  (s.tbChans t).foldl (fun n c => n + far (s.rise c) + far (s.fall c)) 0 +
  ((List.range 4).filter fun j => s.f (PLS.TRG_CFG.EN t j) == 1 && s.f (PLS.TRG_CFG.MODE t j) == 0 &&
      decide (p ≤ (s.trg (4 * t + j)).posAct)).length

/-- Slot L of a pair was on for REFRESH_W in one stretch of the period that ends at `stop` (R142). -/
def State.lowLong (s : State) (p stop : Nat) : Bool :=
  s.hid.trp.fed.contains p ||
  match s.ofCell (97 + 2 * p) with
  | some l =>
    let r := s.chan l
    r.on && decide (s.f (GDR.DRV_CFG.REFRESH_W p) * 64 ≤ stop - max r.onAt ((s.tbase (s.chTb l)).epoch * 64))
  | none => false

/-- Count the starved periods of the bootstrap pairs of a timebase at the end of a period (R142). -/
def starve (t stop : Nat) : M Unit := do
  let s ← getS
  (List.range 24).forM fun p => do
    match s.ofCell (96 + 2 * p) with
    | some h =>
      if s.chTb h = t ∧ s.chGroup h < 32 then
        if s.f (GDR.DRV_CFG.BOOT_EN p) = 1 ∧ s.gst (s.chGroup h) = .running then
          let n := if s.lowLong p stop then 0 else mget 0 s.hid.trp.starved p + 1
          hid fun x => { x with trp := { x.trp with starved := sput x.trp.starved p n } }
        hid fun x => { x with trp := { x.trp with fed := x.trp.fed.erase p } }
    | none => pure ()

/-- A period of a timebase ends after `len` pulse clocks: OUT_OF_PERIOD, starved periods, and the next period begins
(R88, R91). FIXED triggers may fire again (R108). -/
def endPeriod (t len : Nat) : M Unit := do
  let stop := ((← getS).tbase t).epoch + len
  settleCells t (stop * 64)
  let s ← getS
  incBy PLS.COUNT1.OUT_OF_PERIOD (s.beyondP t)
  starve t (stop * 64)
  (s.tbChans t).forM fun c => updChan c fun r => { r with refresh := [] }
  updTb t fun r => { r with pos := 0, per := r.per + 1, epoch := stop }
  wf (PLS.TB_COUNT.COUNT t) 0
  (List.range 4).forM fun j => do
    if !s.trgAuto (4 * t + j) then updTrg (4 * t + j) fun r => { r with now := { r.now with fired := false } }
  if s.f (PLS.TB_CFG.OWNER_GRP t) = 0xFF then passShadows t

/-- The counter of a timebase stands at `pos`: when that lies before the last position, a new period of the same
window has begun (R88). -/
def advance (t pos : Nat) : M Unit := do
  let s ← getS
  if pos < (s.tbase t).pos ∧ s.morePeriods t then endPeriod t (s.tbP t)
  updTb t fun r => { r with pos := pos }
  wf (PLS.TB_COUNT.COUNT t) pos

/-- The counter of a timebase stands at `pos` in the period with index `per` of its window, unless it is past it. -/
def reach (t per pos : Nat) : M Unit := do
  (List.range per).forM fun _ => do
    let s ← getS
    if (s.tbase t).per < per ∧ s.morePeriods t then endPeriod t (s.tbP t)
  let r := (← getS).tbase t
  if r.per = per ∧ r.pos < pos then advance t pos

/-- One pulse clock of a timebase in which compares match (R82, R92 to R94, R121, R124, R141, R149). -/
def edgeCompare (t pos : Nat) : M Unit := do
  let s ← getS
  if s.tbRuns t && decide (s.winStart t ≤ pos) && decide (pos < s.winEnd t) then
    advance t pos
    mirrorCheck t pos
    settleCells t ((← getS).tbTime t pos)
    let s ← getS
    let offs := s.offEdges t pos
    let fates := (s.onEdges t pos).map fun e => (e, s.onFate t offs e)
    fates.forM fun x => do
      match x.2 with
      | .none => updChan x.1.ch fun r => { r with moved := none }
      | .suppressed =>
        inc PLS.COUNT0.MIN_PULSE
        updChan x.1.ch fun r => { r with moved := none }
      | .stretchSuppressed =>
        inc PLS.COUNT0.DT_STRETCH
        inc PLS.COUNT0.MIN_PULSE
        updChan x.1.ch fun r => { r with moved := none }
      | .moved d =>
        inc PLS.COUNT0.DT_STRETCH
        updChan x.1.ch fun r => { r with moved := some d }
      | .passed => updChan x.1.ch fun r => { r with moved := none }
    let ons := (fates.filter fun x => x.2 == .passed).map (·.1)
    offs.forM fun e => updChan e.ch fun r => { r with gen := false, genOff := some e.time }
    ons.forM fun e => updChan e.ch fun r => { r with gen := true }
    -- the output cells
    let cellOffs := offs.filter fun e => s.followed e.ch && (s.chan e.ch).on
    let ons := ons.filter fun e => s.placed e.ch
    let ignored := (List.range 48).flatMap fun i =>
      if s.ilkEn i then (s.ilkIgnored i cellOffs ons).map fun c => (i, c) else []
    offs.forM fun e => do
      if s.followed e.ch then cellOff e.ch e.time
      if s.placed e.ch && !((← getS).chan e.ch).on then openBlank (e.ch, e.time) false
    ignored.forM fun x => ilkHit x.1 x.2
    (ons.filter fun e => s.followed e.ch && !ignored.any fun x => x.2 == e.ch).forM fun e => do
      let hold := s.fallbackHold cellOffs e
      if e.time < hold then updChan e.ch fun r => { r with due := [(hold, true)] } else takeOn e

/-! ## Triggers -/

/-- Where an auto-centre trigger fires that is placed from the words of its reference channel (R109). -/
def State.trgPlace (s : State) (k : Nat) (rise fall : Word) : Place :=
  let t := k / 4
  let p := s.tbP t
  let r := coarse rise
  let f := coarse fall
  let c := if r ≤ f then (r + f) / 2 else (r + f + p) / 2 % p
  let c := if s.f (PLS.TRG_CFG.MODE t (k % 4)) = 2 then (c + p / 2) % p else c
  let adv := s.f (PLS.TRG_CFG.ADVANCE t (k % 4))
  if rise = never ∨ fall = never then .nowhere
  else if p ≤ r ∨ p ≤ f ∨ s.winLen t + adv ≤ c then .beyond
  else if c < adv then .ahead (adv - c)
  else .inWindow (c - adv)

/-- SRC of a trigger compare is SHADOW (R110). -/
def State.trgShadow (s : State) (k : Nat) : Bool := s.f (PLS.TRG_CFG.SRC (k / 4) (k % 4)) == 1

/-- Where a trigger placed from committed words fires: before its window only where SRC is SHADOW (R109, R110). -/
def State.committedPlace (s : State) (k : Nat) (rise fall : Word) : Place :=
  match s.trgPlace k rise fall with
  | .ahead n => if s.trgShadow k then .ahead n else .inWindow 0
  | x => x

/-- The trigger of a window in which the active values repeat (R104, R109). -/
def State.repeatShot (s : State) (k : Nat) : Shot :=
  { place := s.committedPlace k (s.rise (s.trgRef k)) (s.fall (s.trgRef k)) }

/-- The trigger of the next window. -/
def State.nextShot (s : State) (k : Nat) : Shot := (s.trg k).next.getD (s.repeatShot k)

/-- The auto-centre trigger compares that can fire: enabled and on a timebase without DOUBLE (R109). -/
def State.centreTrgs (s : State) : List Nat :=
  (List.range 64).filter fun k => s.trgAuto k && !s.tbDouble (k / 4)

/-- Place the trigger of the next window from uncommitted words (R110): it is provisional. A firing time that has passed
is moved to the next pulse clock. -/
def placeShadow (k : Nat) (rise fall : Word) : M Unit := do
  let s ← getS
  let t := k / 4
  let p := s.tbP t
  let pos := (s.tbase t).pos
  match s.trgPlace k rise fall with
  | .ahead n =>
    if s.tbRuns t ∧ !s.morePeriods t ∧ p < pos + n then
      inc PLS.COUNT0.TRIG_CLAMPED
      let place := if p ≤ pos + 1 then Place.inWindow 0 else .ahead (p - (pos + 1))
      updTrg k fun r => { r with next := some { place := place, prov := true } }
    else updTrg k fun r => { r with next := some { place := .ahead n, prov := true } }
  | .inWindow q => updTrg k fun r => { r with next := some { place := .inWindow q, prov := true } }
  | x => updTrg k fun r => { r with next := some { place := x } }

/-- A post of a channel's shadow places the run-ahead triggers that refer to it (R110, R111): one that has fired is
stale where it was provisional, and no second one is placed for that window. -/
def shadowPosted (c : Nat) : M Unit := do
  let s ← getS
  (s.centreTrgs.filter fun k => s.trgShadow k && s.trgRef k == c).forM fun k => do
    let r := s.trg k
    if r.now.prov then
      if r.now.fired then resolveTrg k true false
      else updTrg k fun r => { r with now := {} }
    let next := s.nextShot k
    if next.fired then resolveTrg k true true
    else placeShadow k (s.rd (PLS.RISE (s.source c))) (s.rd (PLS.FALL (s.source c)))
  let g := s.chGroup c
  if g < 32 then setProvisional g

/-- The commit that carries the duties confirms the run-ahead triggers of a group; the others are placed now
(R109, R110). -/
def commitTrgs (g : Nat) : M Unit := do
  let s ← getS
  (s.centreTrgs.filter fun k => s.chGroup (s.trgRef k) == g).forM fun k => do
    let x := s.source (s.trgRef k)
    let place := s.trgPlace k (s.rd (PLS.RISE x)) (s.rd (PLS.FALL x))
    if s.trgShadow k then
      resolveTrg k false true
      if (s.trg k).next.isNone then updTrg k fun r => { r with next := some { place := place } }
    else
      match place with
      | .ahead _ =>
        inc PLS.COUNT0.TRIG_CLAMPED
        updTrg k fun r => { r with next := some { place := .inWindow 0 } }
      | x => updTrg k fun r => { r with next := some { place := x } }
  setProvisional g

/-- The triggers of a timebase take the place of the window that begins (R109): the one placed for it, or that of the
active values, which stand again. A COMMIT that met the strobe keeps its own for the window after (R102). -/
def startShots (t : Nat) (met : List Nat) : M Unit := do
  let s ← getS
  (s.centreTrgs.filter fun k => k / 4 == t).forM fun k => do
    let kept := met.contains (s.chGroup (s.trgRef k))
    let x := if kept then s.repeatShot k else s.nextShot k
    let x := match x.place with
      | .inWindow p => if s.winLen t ≤ p then { x with place := .beyond } else x
      | _ => x
    if x.place = .beyond then inc PLS.COUNT1.OUT_OF_PERIOD
    updTrg k fun r => { r with now := x, next := if kept then r.next else none }

/-- One trigger fires: what its results carry, and a stale one counts (R110, R111). -/
def fire (k : Nat) (x : Shot) : M Unit := do
  if x.stale then inc PLS.STATUS.STALE_TRIG
  updTrg k fun r => { r with last := if x.stale then .stale else if x.prov then .held else .valid }

/-- A trigger compare fires (R108 to R111): the answer says whether a trigger leaves the pulse island. -/
def triggerFires (t j : Nat) : M Bool := do
  let s ← getS
  let k := 4 * t + j
  let r := s.trg k
  if !(s.tbRuns t && s.f (PLS.TRG_CFG.EN t j) == 1) then return false
  if !s.trgAuto k then
    if !(decide (s.winStart t ≤ r.posAct) && decide (r.posAct < s.winEnd t)) then return false
    if r.posAct < (s.tbase t).pos ∧ !s.morePeriods t then return false
    advance t r.posAct
    if ((← getS).trg k).now.fired then return false
    updTrg k fun r => { r with now := { r.now with fired := true }, last := .valid }
    return true
  if s.tbDouble t then return false
  match r.now.place, r.now.fired with
  | .inWindow p, false =>
    reach t (p / s.tbP t) (p % s.tbP t)
    updTrg k fun r => { r with now := { r.now with fired := true } }
    fire k r.now
    return true
  | _, _ =>
    let x := s.nextShot k
    match x.place, x.fired with
    | .ahead n, false =>
      reach t (s.f (PLS.TB_CFG.RELOAD_DIV t)) (s.tbP t - n)
      updTrg k fun r => { r with next := some { x with fired := true } }
      fire k x
      return true
    | _, _ => return false

/-- Whether an enabled latch trigger of a position unit is a trigger source (R260). -/
def State.latchesOn (s : State) (k : Nat) : Bool :=
  (List.range 6).any fun u =>
    (s.f (POS.PU_CFG.LATCH_A_EN u) == 1 && s.f (POS.PU_CFG.SRC_A u) == k) ||
      (s.f (POS.PU_CFG.LATCH_B_EN u) == 1 && s.f (POS.PU_CFG.SRC_B u) == k)

/-- TRIGGER_COMPARE: a trigger that an island out of service cannot take is dropped (R26): the measurement island, and the
position island where a unit latches on it. -/
def triggerCompare (t j : Nat) : M Unit := do
  if ← triggerFires t j then
    let s ← getS
    if !s.present 7 then inc (SYS.XFER.DROPPED_WRITES 7)
    if !s.present 6 ∧ s.latchesOn (4 * t + j) then inc (SYS.XFER.DROPPED_WRITES 6)

/-- TRG_CFG of a compare was written: what was placed under the old configuration is gone. -/
def trgWritten (k : Nat) : M Unit := do
  resolveTrg k true true
  updTrg k fun r => { r with now := {}, next := none, last := .valid }
  groups.forM setProvisional

/-! ## Commit and reload -/

/-- The timebases whose PERIOD and TRG_POS a group's COMMIT carries (R91). -/
def State.ownedTbs (s : State) (g : Nat) : List Nat :=
  (List.range 16).filter fun t => s.f (PLS.TB_CFG.OWNER_GRP t) == g

/-- One generator takes its shadows into the reload stage. -/
def commitWords (c : Nat) : M Unit := do
  let s ← getS
  updChan c fun r => { r with rel := some (s.rd (PLS.RISE c), s.rd (PLS.FALL c)) }

/-- A COMMIT token copies the shadows of a group into the reload stage (R85, R91, R100). One that meets the reload
strobe of a timebase counts and waits for the reload after (R102). -/
def commitShadows (g : Nat) : M Unit := do
  let s ← getS
  meetStrobe ((s.grpTbs g ++ s.ownedTbs g).dedup)
  let met := ((s.grpTbs g ++ s.ownedTbs g).dedup.filter s.inStrobe).map fun t => (t, g)
  hid fun h => { h with pls := { h.pls with met := met ++ h.pls.met } }
  (s.chans g).forM fun c => do
    commitWords c
    match s.follower c with
    | some x => commitWords x
    | none => pure ()
  (s.ownedTbs g).forM fun t => do
    updTb t fun r => { r with pRel := some (s.f (PLS.TB_PERIOD.PERIOD t)) }
    (List.range 4).forM fun j => updTrg (4 * t + j) fun r => { r with posRel := some (s.f (PLS.TRG_POS.POS t j)) }
  wf (PLS.GRP_STAT.RELOAD_PEND g) 1
  commitTrgs g

/-- A COMMIT token from the loop that owns a group (R103, R106, R107); the answer says whether it was taken. -/
def loopCommit (g : Nat) : M Bool := do
  let s ← getS
  let late := (s.grpTbs g).any fun t => (s.tbase t).late || s.inStrobe t
  if !s.active g then
    inc PLS.COUNT1.POST_DROPPED
    return false
  if s.gst g = .running ∧ late then
    meetStrobe (s.grpTbs g)
    discardShadows g
    cancelTriggers g
    inc PLS.COUNT0.LATE_COMMIT
    return false
  if s.hid.pls.committed.contains g then
    discardShadows g
    cancelTriggers g
    inc PLS.COUNT1.POST_DROPPED
    return false
  hid fun h => { h with pls := { h.pls with committed := g :: h.pls.committed } }
  commitShadows g
  return true

/-- One word of a channel's shadow is written or posted, with the spare that follows it (R85). -/
def writeShadow (c : Nat) (fall : Bool) (w : Word) : M Unit := do
  let s ← getS
  wr (if fall then PLS.FALL c else PLS.RISE c) w
  match s.follower c with
  | some x => wr (if fall then PLS.FALL x else PLS.RISE x) w
  | none => pure ()

/-- A loop posts words of a channel into its shadows as one transfer (R100, R102); a post for a group that left ARMED and
RUNNING is dropped and counts one (R106). What one post of both words counts is the model's choice (DESIGN CHOICE, log
entry 10). -/
def post (c : Nat) (rise fall : Option Word) : M Unit := do
  let s ← getS
  if s.active (s.chGroup c) then
    meetStrobe [s.chTb c]
    rise.forM (writeShadow c false)
    fall.forM (writeShadow c true)
    shadowPosted c
  else inc PLS.COUNT1.POST_DROPPED

/-- A loop posts RISE and FALL of a channel. -/
def postEdges (c : Nat) (rise fall : Word) : M Unit := post c (some rise) (some fall)

/-- The commit deadline of a window passes (R107). Whatever has not been committed by then resolves its triggers as
stale (R110): for a loop-owned group also those of the next window, for a host-owned one those of the present window
(DEDUCED, log entry 10). -/
def commitDeadline (t : Nat) : M Unit := do
  let s ← getS
  if s.tbRuns t then
    updTb t fun r => { r with late := true }
    (s.tbGroups t).forM fun g => do
      if s.gst g = .running ∧ s.loopOwned g ∧ !s.hid.pls.committed.contains g then
        discardShadows g
        cancelTriggers g
        discardEval g
        inc (PLS.GRP_STAT.LATE_COMPUTE g)
        occur 30 g (PLS.GRP_STAT g)
      else
        ((s.grpTrgs g).filter fun k => k / 4 == t).forM fun k => resolveTrg k true (s.loopOwned g)
        setProvisional g

/-- One block's calibration record. -/
def State.cal (s : State) (b : Nat) : Cal := mget {} s.hid.pls.cals b

/-- Tap code `k` for `e` elements per pulse clock (R96): round(k × E / 64), halves upwards. -/
def tapCode (e k : Nat) : Nat := (2 * k * e + 64) / 128

/-- The tap codes a generator takes at its reload (R96, R98). -/
def takeTaps (c : Nat) : M Unit := do
  let s ← getS
  let b := c / 16
  updChan c fun r => { r with taps := (s.cal b).codes, coarse := s.f (PLS.CAL.COARSE_ONLY b) == 1 }

/-- A hand-over whose group left ARMED or RUNNING ends (R85). -/
def handLeft : M Unit := do
  let s ← getS
  match s.hid.trp.hand with
  | some h =>
    if !s.active (s.chGroup h.unit) then
      wf MAP.STATUS.HANDOVER 0
      hid fun x => { x with trp := { x.trp with hand := none } }
      complete 0x0080 h.unit stFailed 0x0107 0 []
  | none => pure ()

/-- A spare's generator takes every stage of the generator that drives a channel (R84, R85). -/
def copyWords (a b : Nat) : M Unit := do
  let s ← getS
  wr (PLS.RISE b) (s.rd (PLS.RISE a))
  wr (PLS.FALL b) (s.rd (PLS.FALL a))
  wr (PLS.RISE_ACT b) (s.rd (PLS.RISE_ACT a))
  wr (PLS.FALL_ACT b) (s.rd (PLS.FALL_ACT a))
  updChan b fun r => { r with rel := (s.chan a).rel }

/-- A spare is in use for a channel: its generator drives the channel's cell, or its own in MODE BALL (R84, R85). -/
def useSpare (spare unit : Nat) (ball : Bool) : M Unit :=
  hid fun x => { x with trp := { x.trp with
    spares := sput x.trp.spares spare (.inUse unit ball), latest := sput x.trp.latest unit spare } }

/-- The hand-over of a spare channel at a reload at which a period begins (R85). -/
def handReload (t : Nat) : M Unit := do
  let s ← getS
  match s.hid.trp.hand with
  | some h =>
    if s.chTb h.unit = t then
      if !s.active (s.chGroup h.unit) then handLeft
      else if h.step = 0 then
        copyWords (s.source h.unit) h.spare
        takeTaps h.spare
        wf MAP.STATUS.HANDOVER 1
        hid fun x => { x with trp := { x.trp with hand := some { h with step := 1 } } }
      else
        wf MAP.STATUS.HANDOVER 0
        hid fun x => { x with trp := { x.trp with hand := none } }
        useSpare h.spare h.unit h.ball
        showSpares
        wtab 0x30 (8 * h.unit + 6) [BitVec.ofNat 8 (setBit (s.chFlags h.unit) 3)]
        complete 0x0080 h.unit stOk 0 0 []
  | none => pure ()

/-- One generator takes its reload stage and the tap codes of its block (R96, R102). -/
def reloadWords (c : Nat) (keep : Bool) : M Unit := do
  match ((← getS).chan c).rel with
  | some (r, f) =>
    if !keep then
      wr (PLS.RISE_ACT c) r
      wr (PLS.FALL_ACT c) f
      updChan c fun r => { r with rel := none }
  | none => pure ()
  takeTaps c

/-- The reload of a timebase whose next window is window B or not (R102 to R105): the reload stage becomes active, groups
that apply a commit begin to run. -/
def reloadTo (t : Nat) (toB : Bool) : M Unit := do
  let s ← getS
  let met := (s.hid.pls.met.filter fun x => x.1 == t).map (·.2)
  let keepTb := met.contains (s.f (PLS.TB_CFG.OWNER_GRP t))
  let keepP := toB || keepTb
  updTb t fun r => { r with pos := if toB then s.tbP t / 2 else 0, per := 0, late := false, wins := r.wins + 1,
                            marks := (s.hid.mea.total :: r.marks).take 5, pAct := if keepP then r.pAct else r.pRel.getD r.pAct,
                            pRel := if keepP then r.pRel else none }
  wf (PLS.TB_COUNT.WINDOW t) (b2n toB)
  wf (PLS.TB_COUNT.COUNT t) (if toB then s.tbP t / 2 else 0)
  setLoad
  if !keepTb then
    (List.range 4).forM fun j => updTrg (4 * t + j) fun r => { r with posAct := r.posRel.getD r.posAct, posRel := none }
  -- the channels take their new words and codes
  let gs := (s.tbGroups t).filter fun g =>
    !met.contains g && (s.chans g).any fun c => s.chTb c == t && (s.chan c).rel.isSome
  (s.tbChans t).forM fun c => do
    let keep := met.contains (s.chGroup c)
    reloadWords c keep
    match s.follower c with
    | some x => reloadWords x keep
    | none => pure ()
    updChan c fun r => { r with bstOff := false, moved := none, skip := none }
  -- groups that apply a commit become RUNNING; running groups count the window
  gs.forM fun g => do
    wf (PLS.GRP_STAT.RELOAD_PEND g) (b2n ((s.chans g).any fun c => s.chTb c != t && (s.chan c).rel.isSome))
    if s.gst g = .armed then
      wf (PLS.GRP_STAT.WINDOWS g) 0
      setGState g .running 0x0022
  ((← getS).tbGroups t).forM fun g => do
    if (← getS).gst g = .running then incWrap (PLS.GRP_STAT.WINDOWS g)
  startShots t met
  hid fun h => { h with pls := { h.pls with
    committed := h.pls.committed.filter fun g => !(s.tbGroups t).contains g
    met := h.pls.met.filter fun x => x.1 != t } }
  if !toB then handReload t

/-- The reload strobe of a timebase (R102): the periods of the window that are left end first (R88). -/
def reload (t : Nat) : M Unit := do
  let s0 ← getS
  if s0.tbRuns t then
    (List.range (s0.f (PLS.TB_CFG.RELOAD_DIV t))).forM fun _ => do
      let s ← getS
      if s.morePeriods t then endPeriod t (s.tbP t)
    let s ← getS
    let toB := s.tbDouble t && s.f (PLS.TB_COUNT.WINDOW t) == 0
    if !toB then endPeriod t (s.tbP t)
    reloadTo t toB

/-- The counter of a RESTART follower is forced to 0 after `pos` (R90): the period is as long as the cut left it. -/
def restartCut (t pos : Nat) : M Unit := do
  let s ← getS
  if s.tbRuns t ∧ s.tbMode t = 2 ∧ pos + 1 < s.tbP t then
    inc (PLS.TB_COUNT.CUTS t)
    let more := s.morePeriods t
    endPeriod t (pos + 1)
    if !more then reloadTo t false

/-! ## Calibration and duplicated registers -/

/-- A measurement of a block's replica delay line (R96, R98). -/
def delayCalibration (b e : Nat) : M Unit := do
  let s ← getS
  let r := s.cal b
  let near : Bool := match r.prev with
    | some q => decide (e ≤ q + 4) && decide (q ≤ e + 4)
    | none => true
  if 80 ≤ e ∧ e ≤ 150 ∧ near then
    let good := r.good + 1
    let r : Cal := ⟨some e, (List.range 64).map (tapCode e), good, s.hid.now⟩
    hid fun h => { h with pls := { h.pls with cals := sput h.pls.cals b r } }
    wf (PLS.CAL.CAL_VALID b) 1
    wf (PLS.CAL.ELEMENTS b) e
    wf (PLS.CAL.AGE b) 0
    if 100 ≤ good then wf (PLS.CAL.COARSE_ONLY b) 0
  else
    hid fun h => { h with pls := { h.pls with cals := sput h.pls.cals b { r with good := 0 } } }
    inc (PLS.CAL.FAIL b)
    inc (PLS.CAL.AGE b)
    if ← occurrence 31 b (PLS.CAL b) then wf (PLS.CAL.COARSE_ONLY b) 1

/-- The groups that own a duplicated delay register (R112, R121). -/
def State.delayOwners (s : State) : DelayReg → List Nat
  | .deadTime i => (((s.ilkChans i.val).map s.chGroup).filter fun g => decide (g < 32)).dedup
  | .tapCodes b => groups.filter fun g => (s.chans g).any fun c => c / 16 == b.val
  | .blanking c => [s.chGroup (s.tb 0x40 (20 * c.val + 13)).toNat].filter fun g => decide (g < 32)

/-- Each owning group of a mismatch takes its safe pattern in the pulse island and counts one occurrence of
DELAY_REG_MISMATCH (R112, R147). -/
def ownersSafe (gs : List Nat) (detail : Nat) : M Unit :=
  gs.forM fun g => do
    let s ← getS
    if s.active g then
      hid fun h => { h with pls := { h.pls with forced := g :: h.pls.forced.erase g } }
      applyPattern g (s.grp g).asc
    occur 32 g detail

/-- The copies of a duplicated delay register disagree (R112). -/
def delayRegMismatch (r : DelayReg) : M Unit := do
  let s ← getS
  let (kind, index) := match r with
    | .deadTime i => (0, i.val)
    | .blanking c => (1, c.val)
    | .tapCodes b => (2, b.val)
  wf PLS.DLY_ERR.MISMATCH 1
  wf PLS.DLY_ERR.KIND kind
  wf PLS.DLY_ERR.INDEX index
  inc PLS.DLY_ERR.COUNT
  ownersSafe (s.delayOwners r) PLS.DLY_ERR

end Sys2Proof.Machine
end

