-- ==== Sys2Proof/Machine/Trip.lean ====
section
/-! DEFINITION. Comparator cells, routes, trip latches, the rotation self-test (R115 to R137), and the sources of
trips of the gate drive (R138 to R157). -/

namespace Sys2Proof.Machine

/-! ## A cell's configuration (R116) -/

/-- The configuration byte of a cell. -/
def State.cellCfg (s : State) (c : Nat) : Nat := (s.tb 0x40 (20 * c + 2)).toNat

/-- EN of a cell. -/
def State.cellEn (s : State) (c : Nat) : Bool := bit (s.cellCfg c) 7

/-- MODE of a cell: 0 OVER, 1 UNDER, 2 OUTSIDE. -/
def State.cellMode (s : State) (c : Nat) : Nat := s.cellCfg c / 4 % 4

/-- The hysteresis of a cell in codes. -/
def State.cellHyst (s : State) (c : Nat) : Nat :=
  match s.cellCfg c / 16 % 4 with
  | 0 => 0
  | 1 => 2
  | 2 => 4
  | _ => 8

/-- ROUTE of a cell: 0 monitor, 1 TANGENT, 2 FILTERED, 3 CBC. -/
def State.cellRoute (s : State) (c : Nat) : Nat := (s.tb 0x40 (20 * c + 3)).toNat % 4

/-- ACTION of a cell: 1 PATTERN. -/
def State.cellAction (s : State) (c : Nat) : Nat := (s.tb 0x40 (20 * c + 3)).toNat / 4 % 2

/-- PARTNER_ADV of a cell. -/
def State.cellAdv (s : State) (c : Nat) : Bool := bit (s.tb 0x40 (20 * c + 3)).toNat 3

/-- The upper threshold code of a cell. -/
def State.cellHi (s : State) (c : Nat) : Nat := s.tn 0x40 (20 * c + 4) 2 % 1024

/-- The lower threshold code of a cell. -/
def State.cellLo (s : State) (c : Nat) : Nat := s.tn 0x40 (20 * c + 6) 2 % 1024

/-- TARGET of a cell. -/
def State.cellTarget (s : State) (c : Nat) : Nat := s.tn 0x40 (20 * c + 8) 4

/-- The groups a TANGENT or FILTERED cell selects. -/
def State.cellSel (s : State) (c : Nat) : List Nat :=
  if s.cellRoute c = 1 ∨ s.cellRoute c = 2 then bitsSet (s.cellTarget c) 32 else []

/-- RAMP_RATE of a cell. -/
def State.cellRamp (s : State) (c : Nat) : Nat := s.tn 0x40 (20 * c + 16) 2 % 4096

/-- The gain of a cell. -/
def State.cellGain (s : State) (c : Nat) : Int :=
  match s.cellCfg c % 4 with
  | 0 => 1
  | 1 => 4
  | _ => 16

/-- Whether a number is the ninth cell of a bank, its spare (R115). -/
def isSpareCell (c : Nat) : Bool := c % 9 == 8

/-- One cell's record. -/
def State.cell (s : State) (c : Nat) : Cell := mget {} s.hid.trp.cells c

/-- Update a cell's record. -/
def updCell (c : Nat) (f : Cell → Cell) : M Unit :=
  hid fun h => { h with trp := { h.trp with cells := mupd {} h.trp.cells c f } }

/-- The output of a cell's gain stage in µV (R117): G × V(AIN_P), or 2.048 V + G × (V(AIN_P) − V(AIN_N)) for a
differential cell, clamped to 0 to 4.092 V. -/
def State.cellOut (s : State) (c : Nat) : Nat :=
  let r := s.cell c
  let v := if (s.tb 0x40 (20 * c + 1)).toNat = 0xFF then s.cellGain c * r.vp else 2048000 + s.cellGain c * (r.vp - r.vn)
  (clampI 0 4092000 v).toNat

/-! ## Trip state -/

/-- The trip state of the upper comparison with hysteresis (R118): codes stand for 4 mV at the gain-stage output. -/
def hiTrip (was : Bool) (out thr h : Nat) : Bool :=
  if was then decide ((thr : Int) * 4000 - h * 4000 ≤ out) else decide (thr * 4000 < out)

/-- The trip state of the lower comparison with hysteresis. -/
def loTrip (was : Bool) (out thr h : Nat) : Bool :=
  if was then decide (out ≤ (thr + h) * 4000) else decide (out < thr * 4000)

/-- Trips of the groups a cell selects, by its ACTION (R122, R127). -/
def cellTrips (c : Nat) : M Unit := do
  let s ← getS
  (s.cellSel c).forM fun g => do
    let _ ← tripAct g (s.cellAction c) c

/-- A cell in trip state outside blanking enters its action (R121, R122): TRIPS counts, a TANGENT cell trips. -/
def cellActs (c : Nat) : M Unit := do
  let s ← getS
  inc (TRP.CELL_STAT.TRIPS c)
  updCell c fun r => { r with acted := true }
  if s.cellRoute c = 1 then cellTrips c

/-- Compare a cell's gain-stage output with its thresholds (R118). A disabled cell shows no comparison: the rule states that
only of IN_TRIP (DESIGN CHOICE, log entry 11). -/
def cellUpdate (c : Nat) : M Unit := do
  let s ← getS
  let out := s.cellOut c
  let r := s.cell c
  let en := s.cellEn c
  let hi := en && hiTrip r.hi out (s.cellHi c) (s.cellHyst c)
  let lo := en && loTrip r.lo out (s.cellLo c) (s.cellHyst c)
  let trip := match s.cellMode c with
    | 0 => hi
    | 1 => lo
    | _ => hi || lo
  let was := s.f (TRP.CELL_STAT.IN_TRIP c) == 1
  updCell c fun r => { r with hi := hi, lo := lo, acted := trip && r.acted }
  wf (TRP.CELL_STAT.OUT_HI c) (b2n (en && decide (s.cellHi c * 4000 < out)))
  wf (TRP.CELL_STAT.OUT_LO c) (b2n (en && decide (out < s.cellLo c * 4000)))
  wf (TRP.CELL_STAT.IN_TRIP c) (b2n trip)
  if trip && !was && s.f (TRP.CELL_STAT.BLANKED c) == 0 then cellActs c

/-- The voltages at the inputs of a logical cell change (R117, R118, R122). -/
def cellTrip (c : Nat) (vp vn : Int) : M Unit := do
  if !isSpareCell c then
    updCell c fun r => { r with vp := vp, vn := vn }
    cellUpdate c

/-- FILT_LEN of a cell. -/
def State.filtLen (s : State) (c : Nat) : Nat := (s.tb 0x40 (20 * c + 12)).toNat

/-- The pulse island takes `n` samples of a FILTERED cell's trip state as it stands (R123): outside trip state, or with it
suppressed by a blanking window (R121), the count restarts; L in a row trip. -/
def filteredTrip (c n : Nat) : M Unit := do
  let s ← getS
  if !isSpareCell c && s.cellEn c && s.cellRoute c == 2 && decide (0 < n) then
    let seen : Bool := s.f (TRP.CELL_STAT.IN_TRIP c) == 1 && s.f (TRP.CELL_STAT.BLANKED c) == 0
    let count := if seen then min 255 ((s.cell c).count + n) else 0
    updCell c fun r => { r with count := count }
    if seen && decide (s.filtLen c ≤ count) then cellTrips c

/-- The effective upper threshold of a CBC cell in 1/256 code at a time: lowered by RAMP_RATE per pulse clock since the
channel's on-edge reached its ball, 9 pulse clocks after its compare (R95, R125). -/
def State.rampThr (s : State) (c time : Nat) : Nat :=
  let ch := s.cellTarget c % 256
  s.cellHi c * 256 - s.cellRamp c * ((time - ((s.chan ch).onAt + 576)) / 64)

/-- A CBC cell ends the current pulse of its channel (R124, R125): the output lies above the effective threshold at that
time, or the cell is in trip state; the channel is on and follows its edges, which come after the trip latches and force lines in the
order of R128. A trip state that only the ramp brings about counts in TRIPS. -/
def cbcEarlyEnd (c time : Nat) : M Unit := do
  let s ← getS
  let ch := s.cellTarget c % 256
  let inTrip := s.f (TRP.CELL_STAT.IN_TRIP c) == 1
  if !isSpareCell c && s.cellEn c && s.cellRoute c == 3 && decide (ch < 144) && (s.chan ch).on &&
      s.active (s.chGroup ch) && !s.hid.pls.forced.contains (s.chGroup ch) && s.f (TRP.CELL_STAT.BLANKED c) == 0 &&
      (inTrip || decide (s.rampThr c time * 4000 < s.cellOut c * 256)) then
    if !inTrip then inc (TRP.CELL_STAT.TRIPS c)
    endPulse ch time [c]

/-- A blanking window closes: a cell still in trip state acts at once (R121), a CBC cell on its channel's pulse. The time of the
close is that of the timer where BLANK_CH and the channel share a timebase. -/
def blankWindowEnd (c : Nat) : M Unit := do
  let s ← getS
  if s.f (TRP.CELL_STAT.BLANKED c) = 1 then
    wf (TRP.CELL_STAT.BLANKED c) 0
    if s.f (TRP.CELL_STAT.IN_TRIP c) = 1 ∧ s.cellEn c ∧ !(s.cell c).acted then cellActs c
    let ch := s.cellTarget c % 256
    let same := s.chTb (s.tb 0x40 (20 * c + 13)).toNat == s.chTb ch
    cbcEarlyEnd c (if same then (s.cell c).blankEnd else s.chNow ch)

/-- New thresholds take effect in the position that serves a cell (R120). -/
def setThreshold (c : Nat) (hi lo : Nat) : M Unit := do
  wtab 0x40 (20 * c + 4) (leBytes 2 hi ++ leBytes 2 lo)
  wf (TRP.THR.THR_HI c) hi
  wf (TRP.THR.THR_LO c) lo
  cellUpdate c

/-! ## Trip latches -/

/-- The lowest TANGENT or FILTERED cell in trip state that selects a group (R130). -/
def State.tripCell (s : State) (g : Nat) : Option Nat :=
  (List.range 72).find? fun c =>
    s.cellEn c && (s.cellSel c).contains g && s.f (TRP.CELL_STAT.IN_TRIP c) == 1

/-- The driver pairs of a group (R155). -/
def State.grpPairs (s : State) (g : Nat) : List Nat :=
  (List.range 24).filter fun p => s.chGroup (96 + 2 * p) == g || s.chGroup (97 + 2 * p) == g

/-- The groups an FLT input acts on (R76, R150): those of its two channels, once FLT_USE of either enables it. Channels in
two groups are the spec's silence: the input acts on each (DESIGN CHOICE, log entry 12). -/
def State.fltGroups (s : State) (k : Nat) : List Nat :=
  let pair := [2 * k, 2 * k + 1].filter fun c => decide (s.chGroup c < 32)
  if pair.any fun c => bit (s.chFlags c) 2 then (pair.map s.chGroup).dedup else []

/-- The source still present for a group's latch, as the address R130 and R154 name. -/
def State.tripPresent (s : State) (g : Nat) : Option Nat :=
  match s.tripCell g with
  | some c => some (TRP.CELL_STAT c)
  | none =>
    match (List.range 48).find? fun k => (s.fltGroups k).contains g && s.f (GDR.FLT.ACTIVE k) == 1 with
    | some k => some (GDR.FLT k)
    | none =>
      match (List.range 8).find? fun r =>
          s.f (GDR.RDY_CFG.EN r) == 1 && s.f (GDR.RDY_CFG.GROUP r) == g && s.f (GDR.RDY_CFG.READY r) == 0 with
      | some r => some (GDR.RDY_CFG r)
      | none =>
        if s.f GDR.STATUS.VDRV_OK = 0 ∧ (s.chans g).any isDriver then some GDR.STATUS
        else match (List.range 24).find? fun p =>
            s.f (GDR.SC_STAT.SC_ACTIVE p) == 1 && (s.grpPairs g).contains p with
          | some p => some (GDR.SC_STAT p)
          | none => none

/-- A filtered driver fault acts on a group that is ARMED or RUNNING, or escalates its latch (R150). -/
def fltTrip (k g : Nat) : M Unit := do
  if ← tripAct g (← rf (GDR.FLT.ACTION k)) 0xFF then occur 52 g (GDR.FLT k)

/-- The levels that trip a group in the instant it becomes ARMED (R127, R150): each driver fault that is present counts and raises
EXT_DRV_FAULT, whichever set the latch. -/
def armLevels (g : Nat) : M Unit := do
  let s ← getS
  (List.range 72).forM fun c => do
    if s.cellEn c && (s.cellSel c).contains g && s.f (TRP.CELL_STAT.BLANKED c) == 0 &&
        (if s.cellRoute c = 1 then s.f (TRP.CELL_STAT.IN_TRIP c) == 1 else decide (s.filtLen c ≤ (s.cell c).count)) then
      let _ ← tripAct g (s.cellAction c) c
  (List.range 48).forM fun k => do
    if (s.fltGroups k).contains g ∧ s.f (GDR.FLT.ACTIVE k) = 1 then
      let _ ← tripAct g (s.f (GDR.FLT.ACTION k)) 0xFF
      inc (GDR.FLT.COUNT k)
      occur 52 g (GDR.FLT k)

/-! ## Rotation and commanded tests -/

/-- One bank's record. -/
def State.bank (s : State) (b : Nat) : Bank := mget {} s.hid.trp.banks b

/-- Update a bank's record. -/
def updBank (b : Nat) (f : Bank → Bank) : M Unit :=
  hid fun h => { h with trp := { h.trp with banks := mupd {} h.trp.banks b f } }

/-- PHYS of the cells of a bank (R115, R132): each cell's own position but for the one the spare serves, and the spare's. -/
def showBank (b : Nat) : M Unit := do
  let r := (← getS).bank b
  (List.range 8).forM fun k => wf (TRP.CELL_STAT.PHYS (9 * b + k)) (if r.serves = some k then 8 else k)
  wf (TRP.CELL_STAT.PHYS (9 * b + 8)) (r.serves.getD 0xF)

/-- Every bank that is not degraded runs its rotation from the first STANDBY on (R132). -/
def startRotation : M Unit := do
  let s ← getS
  hid fun h => { h with trp := { h.trp with rotating := true } }
  (List.range 8).forM fun b => do
    if s.f (TRP.BANK_STAT.DEGRADED b) = 0 then wf (TRP.BANK_STAT.ROT_ACTIVE b) 1

/-- A bank becomes DEGRADED and its rotation stops (R135, R136). -/
def degrade (b : Nat) : M Unit := do
  wf (TRP.BANK_STAT.DEGRADED b) 1
  wf (TRP.BANK_STAT.ROT_ACTIVE b) 0
  wf (TRP.BANK_STAT.SLOT b) 0xF
  showBank b

/-- A position of a bank failed a sub-test (R136): a cell's position is relieved for good by the spare while that is
free and sound; a spare that failed serves nothing. -/
def positionFailed (b k test : Nat) : M Unit := do
  let s ← getS
  let failed := s.f (TRP.BANK_STAT.FAILED b)
  wf (TRP.BANK_STAT.FAILED b) (setBit failed k)
  if k = 8 then updBank b fun r => { r with serves := none }
  else if !bit failed 8 && (s.bank b).serves.isNone then updBank b fun r => { r with serves := some k }
  degrade b
  occur 40 b (TRP.BANK_STAT b)
  eventDev 0x8021 (by1 [b, k, test])

/-- A threshold code as the sub-tests use it: 512 for an unused threshold, clamped to 16 to 1,007 (R133). -/
def testCode (used : Bool) (code : Nat) : Nat := if used then min 1007 (max 16 code) else 512

/-- The configuration a position is tested with (R133): threshold codes, hysteresis, RAMP_RATE. -/
structure TestCfg where
  hi : Nat := 512
  lo : Nat := 512
  hyst : Nat := 0
  ramp : Nat := 0
  deriving DecidableEq, Repr

/-- The configuration of a logical cell under test. -/
def State.testCfg (s : State) (c : Nat) : TestCfg :=
  { hi := testCode (s.cellMode c != 1) (s.cellHi c), lo := testCode (s.cellMode c != 0) (s.cellLo c)
    hyst := s.cellHyst c, ramp := s.cellRamp c }

/-- The sub-tests of R133 in the order of its table, each with whether the measurement meets its limits. -/
def TestCfg.checks (g : TestCfg) (x : CellTest) : List Bool :=
  let within (at_ code d : Nat) : Bool := decide (code ≤ at_ + d) && decide (at_ < code + d)
  let high (code : Nat) : Bool := decide (x.hiAt < code)
  [within x.hiAt g.hi 8,
   decide (x.loAt ≤ g.lo + 8) && decide (g.lo < x.loAt + 8),
   within x.span.1 64 8 && within x.span.2 960 8,
   within x.gains.1 g.hi 16 && within x.gains.2.1 g.hi 16 && within x.gains.2.2 g.hi 16,
   x.swapped.1 != high (g.hi - 8) && x.swapped.2 != high (g.hi + 8),
   decide (x.fall + g.hyst ≤ x.rise + 1) && decide (x.rise ≤ x.fall + g.hyst + 1),
   decide (x.response ≤ 2200),
   g.ramp == 0 || (decide (g.ramp * 400 * 95 ≤ x.ramp * 100) && decide (x.ramp * 100 ≤ g.ramp * 400 * 105)),
   !x.seen]

/-- The number of the first sub-test a measurement fails, as its place in the table of R133 (DESIGN CHOICE, log entry 11). -/
def TestCfg.fails (g : TestCfg) (x : CellTest) : Option Nat :=
  match (g.checks x).findIdx? (!·) with
  | some i => some i
  | none => none

/-- The rotation of a bank goes on with the next slot (R132). -/
def nextSlot (b : Nat) : M Unit := do
  let k := ((← getS).bank b).slot
  updBank b fun r => { r with slot := if k = 7 then 0 else k + 1 }
  if k = 7 then incWrap (TRP.BANK_STAT.ROTATIONS b)

/-- One rotation slot of a bank (R132, R133, R136): the spare tests itself without a cell's configuration, then the relieved
position; a position that passes serves again. -/
def rotationSlot (b : Nat) (r : SlotResult) : M Unit := do
  let s ← getS
  if s.f (TRP.BANK_STAT.ROT_ACTIVE b) = 1 ∧ !(s.bank b).testing then
    let k := (s.bank b).slot
    match ({} : TestCfg).fails r.spare, (s.testCfg (9 * b + k)).fails r.pos with
    | some t, _ => positionFailed b 8 t
    | none, some t => positionFailed b k t
    | none, none =>
      showBank b
      nextSlot b

/-- A mirror mismatch in a rotation slot (R135): the spare is tested at once, without a cell's configuration (DESIGN
CHOICE, log entry 11). A lasting one leaves every cell at its own position and stops the rotation. -/
def cmpMirror (b : Nat) (spare : CellTest) : M Unit := do
  let s ← getS
  if s.f (TRP.BANK_STAT.ROT_ACTIVE b) = 1 ∧ !(s.bank b).testing then
    inc (TRP.BANK_STAT.MIRROR b)
    let lasting ← occurrence 41 b (TRP.BANK_STAT b)
    if lasting then degrade b
    match ({} : TestCfg).fails spare with
    | some t => positionFailed b 8 t
    | none => if !lasting then nextSlot b

/-- A commanded test of a comparator bank ends (R137). The two masks are sent as two 16-bit words, passes first, by the
model's choice (DESIGN CHOICE, log entry 11). -/
def bankTestDone (b : Nat) (tests : List CellTest) : M Unit := do
  let s ← getS
  let before := s.f (TRP.BANK_STAT.FAILED b)
  let serves := (s.bank b).serves
  let tested := (List.range 9).filter fun k => !bit before k
  let cfg (k : Nat) : TestCfg := if k < 8 then s.testCfg (9 * b + k) else match serves with
    | some j => s.testCfg (9 * b + j)
    | none => {}
  let bad := tested.filterMap fun k => match tests[k]? with
    | some x => ((cfg k).fails x).map fun t => (k, t)
    | none => none
  let failMask := bad.foldl (fun m x => setBit m x.1) 0
  let passMask := (tested.filter fun k => !bit failMask k).foldl (fun m k => setBit m k) 0
  updBank b fun r => { r with testing := false, slot := 0 }
  bad.forM fun x => positionFailed b x.1 x.2
  let serving := ((List.range 8).filter fun k => !bit before k) ++ (if serves.isSome then [8] else [])
  if serving.all fun k => bit passMask k then wf (TRP.BANK_STAT.CMD_TESTED b) 1
  complete 0x0050 (0x0400 + b) stOk 0 0 (leBytes 2 passMask ++ leBytes 2 failMask)

/-- Whether a driver pair passes the off-state self-test (R155): both gates read low, the shunt comparator reads 0 at 0.8 and
1 at 1.2 of its threshold, the bootstrap comparator 1 at 8.5 V and 0 at 7.5 V, and both read their idle state after. -/
def State.pairPasses (s : State) (p : Nat) (x : PairTest) : Bool :=
  let thr := 50 * (s.f (GDR.DRV_CFG.SC_THR p) + 1)
  !x.gateH && !x.gateL && decide (thr * 8 ≤ x.shuntAt * 10) && decide (x.shuntAt * 10 < thr * 12) &&
    decide (x.bootAt ≤ 8500) && decide (7500 < x.bootAt) && !x.shuntIdle &&
    x.bootIdle == (s.f (GDR.BST_STAT.BST_OK p) == 1)

/-- A commanded test of a group's driver pairs ends (R155, R156). -/
def driverTestDone (g : Nat) (tests : List PairTest) : M Unit := do
  let s ← getS
  let pairs := s.grpPairs g
  let bad := pairs.filter fun p => match tests[p]? with
    | some x => !s.pairPasses p x
    | none => false
  let failMask := bad.foldl setBit 0
  let passMask := (pairs.filter fun p => !bad.contains p).foldl setBit 0
  bad.forM fun p => do wf GDR.DRV_FAILED.PAIRS (setBit (← rf GDR.DRV_FAILED.PAIRS) p)
  showSpares
  complete 0x0050 (0x0500 + g) stOk 0 0 (leBytes 4 passMask ++ leBytes 4 failMask)

/-- A commanded self-test ends (R137, R155); without one running nothing happens. -/
def selftestDone (r : TestResult) : M Unit := do
  if ((← getS).findDue 0x0050 r.test).isSome then
    if 0x0400 ≤ r.test ∧ r.test < 0x0408 then bankTestDone (r.test - 0x0400) r.cells
    else if 0x0500 ≤ r.test ∧ r.test < 0x0520 then driverTestDone (r.test - 0x0500) r.pairs

/-! ## Gate drive -/

/-- A copy of SC_BLANK disagrees (R147). -/
def scbMismatch (p : Nat) : M Unit := do
  let s ← getS
  wf GDR.STATUS.SCB_MISMATCH 1
  wf GDR.STATUS.SCB_PAIR p
  ownersSafe (([s.chGroup (96 + 2 * p), s.chGroup (97 + 2 * p)].filter fun g => decide (g < 32)).dedup) GDR.STATUS

/-- A refresh is inserted in the present period (R142), once the starved periods have reached REFRESH_INT. -/
def bootstrapRefresh (p : Nat) : M Unit := do
  let s ← getS
  match s.ofCell (96 + 2 * p) with
  | some h =>
    if s.f (GDR.DRV_CFG.BOOT_EN p) = 1 ∧ s.gst (s.chGroup h) = .running ∧
        s.f (GDR.DRV_CFG.REFRESH_INT p) ≤ mget 0 s.hid.trp.starved p then
      let b := (s.tbase (s.chTb h)).epoch
      let dt := s.f (PLS.DEADTIME.DT (s.chSet h))
      let w := s.f (GDR.DRV_CFG.REFRESH_W p)
      updChan h fun r => { r with refresh := [(b * 64, false), ((b + 2 * dt + w) * 64, true)] }
      match s.ofCell (97 + 2 * p) with
      | some l => updChan l fun r => { r with refresh := [((b + dt) * 64, true), ((b + dt + w) * 64, false)] }
      | none => pure ()
      hid fun x => { x with trp := { x.trp with starved := sput x.trp.starved p 0 } }
      incWrap (GDR.BST_STAT.REFRESHES p)
  | none => pure ()

/-- The bootstrap comparator of a pair changes (R141, R144): it rises, or falls with slot H on. -/
def bstComparator (p : Nat) (ok : Bool) : M Unit := do
  let s ← getS
  wf (GDR.BST_STAT.BST_OK p) (b2n ok)
  match s.ofCell (96 + 2 * p) with
  | some h =>
    if !ok ∧ s.f (GDR.DRV_CFG.BOOT_EN p) = 1 ∧ (s.chan h).on then bootUv p h (s.chNow h)
  | none => pure ()

/-- The voltage at the shunt-sense ball of a pair in mV at a time (R145): the comparator is active while slot L is on and SC_EN
is 1, from SC_BLANK after slot L's on-edge reached its driver, 9 pulse clocks after its compare (R95; DEDUCED, log entry 12). A trip
is latched before the ledger takes its occurrence. -/
def drvShort (p mv time : Nat) : M Unit := do
  let s ← getS
  match s.ofCell (97 + 2 * p) with
  | some l =>
    let r := s.chan l
    let trips := decide (50 * (s.f (GDR.DRV_CFG.SC_THR p) + 1) < mv)
    if s.f (GDR.DRV_CFG.SC_EN p) = 1 ∧ r.on ∧ r.onAt + (9 + s.f (GDR.DRV_CFG.SC_BLANK p)) * 64 ≤ time then
      if trips && !s.hid.trp.short.contains p then
        hid fun h => { h with trp := { h.trp with short := p :: h.trp.short } }
        inc (GDR.SC_STAT.COUNT p)
        if s.active (s.chGroup l) then
          wf (GDR.SC_STAT.SC_ACTIVE p) 1
          let _ ← tripAct (s.chGroup l) (s.f (GDR.DRV_CFG.SC_ACTION p)) 0xFF
          occur 51 p (GDR.SC_STAT p)
      if !trips then
        hid fun h => { h with trp := { h.trp with short := h.trp.short.erase p } }
        wf (GDR.SC_STAT.SC_ACTIVE p) 0
  | none => pure ()

/-- A low level on FLTk has passed its filter (R150). -/
def extDrvFault (k : Nat) : M Unit := do
  let s ← getS
  if s.f (GDR.FLT.ACTIVE k) = 0 then
    wf (GDR.FLT.ACTIVE k) 1
    if !(s.fltGroups k).isEmpty then inc (GDR.FLT.COUNT k)
    (s.fltGroups k).forM (fltTrip k)

/-- The high level on FLTk has passed its filter (R150). -/
def fltRelease (k : Nat) : M Unit := wf (GDR.FLT.ACTIVE k) 0

/-- The level of a ready input: asserted, or deasserted for 400 pulse clocks (R152). -/
def drvReady (r : Nat) (asserted : Bool) : M Unit := do
  let s ← getS
  wf (GDR.RDY_CFG.READY r) (b2n asserted)
  let g := s.f (GDR.RDY_CFG.GROUP r)
  if !asserted ∧ s.f (GDR.RDY_CFG.EN r) = 1 ∧ s.active g then
    let _ ← tripAct g 0 0xFF
    inc (GDR.RDY_CFG.LOSSES r)
    occur 53 g (GDR.RDY_CFG r)

/-- A forbidden combination of a set that contains no forbidden pair (R149). -/
def State.maskNoPair (s : State) (i : Nat) : Bool :=
  (List.range 16).any fun m =>
    bit (s.ilkMask i) m &&
      !((List.range 4).any fun j => (List.range 4).any fun k => bit m j && bit m k && s.pairForbidden i j k)

/-- The two evaluators of a set disagree (R149). -/
def ilkDiagFail (i : Nat) : M Unit := do
  let s ← getS
  if s.ilkEn i then
    if i < 32 then wf GDR.ILK_FB0.SETS (setBit (s.f GDR.ILK_FB0.SETS) i)
    else wf GDR.ILK_FB1.SETS (setBit (s.f GDR.ILK_FB1.SETS) (i - 32))
    let gs := (((s.ilkChans i).map s.chGroup).filter fun g => decide (g < 32)).dedup
    gs.forM fun g => do
      occur 54 g (MAP.ILK i 0)
      if s.maskNoPair i then forceAct g 8 54

/-- VDRV falls through 10.3 V (R153): every driver sinks until its group is enabled again. -/
def vdrvUv : M Unit := do
  let s ← getS
  if s.f GDR.STATUS.VDRV_OK = 1 then
    wf GDR.STATUS.VDRV_OK 0
    wf GDR.STATUS.VDRV_UV 1
    inc GDR.STATUS.VDRV_COUNT
    (groups.filter fun g => s.active g && (s.chans g).any isDriver).forM fun g => do
      let _ ← tripAct g 0 0xFF
    (channels.filter isDriver).forM fun c => do
      cellOff c (s.chNow c)
      updChan c fun r => { r with sink := true }
    occur 55 0 GDR.STATUS

/-- VDRV rises above 10.6 V (R153). -/
def vdrvRecover : M Unit := wf GDR.STATUS.VDRV_OK 1

end Sys2Proof.Machine
end

