-- ==== Sys2Proof/Machine/Measure.lean ====
section
/-! DEFINITION. Measurement: runs and conversions of the SAR bank, references, the spare converter, the mains cycle
and the sub-windows of the precision channels (R162 to R188). -/

namespace Sys2Proof.Machine

/-- The code of a conversion (R162): inputs and reference in µV, saturating. -/
def sarCode (vp vn : Int) (vref : Nat) (diff : Bool) : Nat :=
  let full : Int := 2 * vref
  if vref = 0 then 0
  else if diff then (clampI 0 0xFFFF (0x8000 + ((vp - vn) * 32768) / full)).toNat
  else (clampI 0 0xFFFF (vp * 65536 / full)).toNat

/-- Whether a reference is SETTLED (R170): 0 internal, 1 external, 2 ratiometric. -/
def State.refSettled (s : State) : Nat → Bool
  | 0 => s.f MEA.REF.INT_SETTLED == 1
  | 1 => s.f MEA.REF.EXT_SETTLED == 1
  | 2 => s.f MEA.REF.RATIO_SETTLED == 1
  | _ => false

/-- Update the measurement state. -/
def updMea (f : MeaSt → MeaSt) : M Unit := hid fun h => { h with mea := f h.mea }

/-- The event SAR_SPARE (R179): converter, kind (0 mismatch, 1 spare fail, 2 substitution), both codes. -/
def sarSpareEvent (k kind a b : Nat) : M Unit := eventDev 0x8022 (by1 [k, kind] ++ leBytes 2 a ++ leBytes 2 b)

/-- SA8 serves logical converter `k` (R180): shown in PHYS, SERVES and IN_USE. -/
def serveBySpare (k : Nat) : M Unit := do
  wf (MEA.CONV_STAT.PHYS k) 8
  wf (MEA.CONV_STAT.PHYS 8) k
  wf MEA.SPARE.SERVES k
  wf MEA.SPARE.IN_USE 1

/-- The substitution that MRAM holds is reapplied, at boot and when the island returns (R180, R181). -/
def restoreConv : M Unit := do
  match (← getS).hid.trp.conv with
  | some k => serveBySpare k
  | none => pure ()

/-- What takes effect at the next trigger of converter `k`: SA8 takes it (R180 steps 3 and 4), or it returns to its own
position and the self-check restarts with slot 0 (R181). -/
def changeServer (k : Nat) : M Unit := do
  let x := (← getS).hid.mea
  if x.subNext = some k then
    updMea fun x => { x with subNext := none }
    serveBySpare k
    sarSpareEvent k 2 x.subCodes.1 x.subCodes.2
    complete 0x0080 (0x0200 + k) stOk 0 0 []
  if x.relNext = some k then
    updMea fun x => { x with relNext := none }
    wf (MEA.CONV_STAT.PHYS k) k
    wf (MEA.CONV_STAT.PHYS 8) 0xF
    wf MEA.SPARE.SERVES 0xF
    wf MEA.SPARE.IN_USE 0
    wf MEA.SPARE.CHECK_SLOT 0xF

/-- The trigger of binding `m` reaches logical converter `k` (R165, R167): a run starts, or the trigger is dropped. A
failed position that SA8 does not serve runs nothing (R180; DEDUCED, log entry 28). -/
def sarTrigger (k m : Nat) : M Unit := do
  let s ← getS
  if s.f (MEA.BIND.EN k m) = 1 then
    if s.f (MEA.CONV_STAT.BUSY k) = 1 then
      inc (MEA.CONV_STAT.TRIG_OVERRUN k)
      occur 60 k (MEA.CONV_STAT k)
    else
      changeServer k
      let s ← getS
      if s.f (MEA.CONV_STAT.FAILED k) = 0 ∨ s.f (MEA.CONV_STAT.PHYS k) ≠ k then
        wf (MEA.CONV_STAT.BUSY k) 1
        incWrap (MEA.CONV_STAT.RUNS k)
        let trig := s.f (MEA.BIND.TRIG_SRC k m)
        let run : Run := { trig := trig, entry := s.f (MEA.BIND.START k m), tag := (s.trg trig).last }
        updMea fun x => { x with runs := sput x.runs k run }

/-- A byte of the check list in force: a load of table 0x58 takes effect with the next self-check slot (R169). -/
def State.checkByte (s : State) (o : Nat) : Nat :=
  match s.hid.mea.checkList with
  | some l => (l.getD o 0).toNat
  | none => (s.tb 0x58 o).toNat

/-- Whether the codes SA8 read from table 0x58, entry by entry up to LAST, lie within their limits (R164, R179). -/
def State.checkPasses (s : State) (codes : List Nat) : Bool :=
  let code (o : Nat) : Nat := s.checkByte o + 256 * s.checkByte (o + 1)
  let upto := match (List.range 32).find? fun e => bit (s.checkByte (8 * e + 2)) 7 with
    | some e => e + 1
    | none => 32
  (List.range upto).all fun e =>
    match codes[e]? with
    | some c => decide (code (8 * e + 4) ≤ c) && decide (c ≤ code (8 * e + 6))
    | none => true

/-- SA8 is at fault (R179): marked failed, the self-check stops for good. -/
def sa8Failed (k a b : Nat) : M Unit := do
  occur 62 8 MEA.SPARE
  wf MEA.SPARE.SA8_FAILED 1
  wf MEA.SPARE.CHECK_SLOT 0xF
  sarSpareEvent k 1 a b

/-- Whether SA8 is free (R34). -/
def State.sa8Free (s : State) : Bool :=
  s.f MEA.SPARE.SA8_FAILED == 0 && s.f MEA.SPARE.IN_USE == 0 && s.hid.mea.subNext.isNone

/-- SA8 replaces a converter from its next trigger (R180 steps 1 and 2, R181): the self-check stops, MRAM records the
substitution, the remaining results of a run in progress are SUSPECT. -/
def sa8Replace (k a b : Nat) : M Unit := do
  wf MEA.SPARE.CHECK_SLOT 0xF
  updMea fun x => { x with
    subNext := some k
    subCodes := (a, b)
    runs := x.runs.map fun r => if r.1 = k then (r.1, { r.2 with suspect := true }) else r }
  hid fun h => { h with trp := { h.trp with conv := some k } }

/-- A converter failed (R180): SA8 replaces it, or its groups go SAFE. -/
def converterFailed (k a b : Nat) : M Unit := do
  let s ← getS
  wf (MEA.CONV_STAT.FAILED k) 1
  if s.sa8Free then sa8Replace k a b
  else (s.convGroups k).forM fun g => forceAct g 8 61

/-- A conversion of logical converter `k` ends (R172 to R174, R178, R179). -/
def conversionResult (k : Nat) (x : Conversion) : M Unit := do
  let s ← getS
  if s.f (MEA.CONV_STAT.BUSY k) = 1 then
    let run := mget ⟨0, 0, false, .valid⟩ s.hid.mea.runs k
    let diff := s.seqByte k run.entry 1 != 0xFF
    let ctrl := s.seqByte k run.entry 2
    let code := sarCode x.vp x.vn x.vref diff
    let checking := s.f MEA.SPARE.CHECK_SLOT == k
    let dup : Option Nat := match x.dup with
      | .code d => if checking then some d else none
      | _ => none
    if x.delayed then inc MEA.STATUS.XBAR_WAIT
    if checking && x.dup == .abandoned then inc MEA.STATUS.CHECK_SKIPPED
    let mismatch := dup.any fun d => decide (code + 24 < d) || decide (d + 24 < code)
    let smp : Sample := { slot := s.seqByte k run.entry 3, code := code, run := s.f (MEA.CONV_STAT.RUNS k),
                          conv := s.f (MEA.CONV_STAT.PHYS k), suspect := run.suspect || mismatch,
                          refBad := !s.refSettled (ctrl / 4 % 4), delayed := x.delayed, diff := diff }
    -- the next entry, or the end of the run
    if bit ctrl 7 || run.entry == 31 then
      wf (MEA.CONV_STAT.BUSY k) 0
      updMea fun y => { y with runs := serase y.runs k }
    else updMea fun y => { y with runs := sput y.runs k { run with entry := run.entry + 1 } }
    if run.tag = .held then updMea fun y => { y with held := y.held ++ [(run.trig, smp)] }
    else deliver smp (run.tag == .stale)
    if mismatch then
      let d := dup.getD 0
      inc MEA.SPARE.MISMATCHES
      sarSpareEvent k 0 code d
      if !s.checkPasses x.check then sa8Failed k code d
      else if ← occurrence 61 k (MEA.CONV_STAT k) then converterFailed k code d

/-- A slot of SA8's self-check begins, from the first STANDBY on (R178, R179): the loaded check list takes effect, SA8
has run it, the next converter is under check. A failure here concerns no converter's conversion: the spec does not
state the body's converter and codes then (free values, log entry 28). -/
def sarCheckSlot (codes : List Nat) : M Unit := do
  let s ← getS
  if s.sa8Free ∧ s.hid.trp.rotating = true then
    updMea fun x => { x with checkList := none }
    let k := s.f MEA.SPARE.CHECK_SLOT
    if k = 7 then incWrap MEA.SPARE.ROTATIONS
    if (← getS).checkPasses codes then wf MEA.SPARE.CHECK_SLOT (if k < 7 then k + 1 else 0)
    else
      let c ← fresh
      let a ← fresh
      let b ← fresh
      sa8Failed (c % 256) (a % 65536) (b % 65536)

/-- A reference has agreed for its settling time (R170). -/
def refSettle (r : Nat) : M Unit := do
  let s ← getS
  if r = 0 then wf MEA.REF.INT_SETTLED 1
  else if r = 1 ∧ s.f MEA.REF.EXT_EN = 1 then wf MEA.REF.EXT_SETTLED 1
  else if r = 2 ∧ s.f MEA.REF.RATIO_EN = 1 then wf MEA.REF.RATIO_SETTLED 1

/-- A settled reference leaves its window (R171, R188). -/
def refFault (r : Nat) : M Unit := do
  let s ← getS
  if s.refSettled r then
    if r = 0 then
      wf MEA.REF.INT_SETTLED 0
      wf MEA.REF.INT_FAULT 1
    else if r = 1 then
      wf MEA.REF.EXT_SETTLED 0
      wf MEA.REF.EXT_FAULT 1
    else
      wf MEA.REF.RATIO_SETTLED 0
      wf MEA.REF.RATIO_FAULT 1
    if (← occurrence 63 r MEA.REF) && r == 0 then
      groups.forM fun g => forceAct g 8 63
      deviceSafe

/-- At a management tick, one MEA_WINDOW event for every slot with leavings (R177). -/
def windowEvents : M Unit := do
  let s ← getS
  updMea fun x => { x with left := [] }
  s.hid.mea.left.forM fun p =>
    eventDev 0x8023 (by1 [p.1] ++ leBytes 2 p.2.value ++ by1 [b2n p.2.below] ++ leBytes 2 (min p.2.count 0xFFFF))

/-! ## Mains and sub-windows -/

/-- Sub-windows per cycle of a MAINS_CFG word (R185). -/
def subCount (w : Word) : Nat :=
  match bitsOf w 29 28 with
  | 0 => 64
  | 1 => 128
  | _ => 256

/-- The NOMINAL period of a MAINS_CFG word, in sixteenths of a modulator clock (R185). -/
def nominalPeriod (w : Word) : Nat := if bitsOf w 30 30 = 0 then 1280000 else 1066667

/-- A period of the mains cycle lies within 45 to 65 Hz, in sixteenths of a modulator clock (R184). -/
def periodInBand (p : Nat) : Bool := decide (984640 ≤ p) && decide (p ≤ 1422208)

/-- The event MAINS_LOCK (R184). -/
def mainsEvent : M Unit := do
  eventDev 0x8024 (by1 [← rf MEA.MAINS.LOCKED] ++ leBytes 4 (← rf MEA.MAINS.PERIOD))

/-- Lock is lost (R184). -/
def mainsLoss : M Unit := do
  wf MEA.MAINS.LOCKED 0
  inc MEA.MAINS.LOCK_LOSSES
  updMea fun x => { x with lockN := 0 }
  mainsEvent
  occur 64 0 MEA.MAINS

/-- A period of the mains is measured: lock is gained or lost, and the cycle in progress ends at modulator clock `clk`
while locked (R184, R185). -/
def mainsPeriod (period clk : Nat) : M Unit := do
  let s ← getS
  let x := s.hid.mea
  let near := match x.prevP with
    | some q => decide (period * 100 ≤ q * 101) && decide (q * 99 ≤ period * 100)
    | none => false
  let good := periodInBand period && near
  wf MEA.MAINS.PERIOD (min period 0xFFFFFF)
  updMea fun x => { x with prevP := some period, lockN := if good then x.lockN + 1 else 0 }
  if s.f MEA.MAINS.LOCKED = 1 then
    updMea fun x => { x with cut := some clk }
    if !good then mainsLoss
  else if good && decide (3 ≤ x.lockN) then
    updMea fun x => { x with cut := some clk }
    wf MEA.MAINS.LOCKED 1
    mainsEvent

/-- The detector sees a positive-going crossing on REF_PC (R184), `n` modulator clocks after the sub-window in progress
began: since the last one the sum of 64 bits went down to `low`, it was `before` one clock ago and is `after` now. The
crossing is placed 32 clocks earlier, between the two sums by their line (log entry 28). Without the enable in force
for this cycle, or the reference channel's, nothing is measured (R183). -/
def mainsCrossing (low before after : Int) (n : Nat) : M Unit := do
  let s ← getS
  let x := s.hid.mea
  if bitsOf x.mains 31 31 = 1 ∧ bit x.pcEn (bitsOf x.mains 27 24) ∧ low ≤ -8 ∧ before < 0 ∧ 0 ≤ after then
    let clk := x.subAt + n
    let at_ := (16 * (clk : Int) - 512 - 16 * after / (after - before)).toNat
    updMea fun x => { x with crossAt := some at_ }
    match x.crossAt with
    | some t => mainsPeriod (at_ - t) clk
    | none => pure ()

/-- 40 ms pass without a crossing (R184); a cycle whose end waited for one ends then. -/
def mainsTimeout : M Unit := do
  let s ← getS
  let x := s.hid.mea
  updMea fun x => { x with crossAt := none, prevP := none, lockN := 0 }
  if s.f MEA.MAINS.LOCKED = 1 then
    updMea fun y => { y with cut := some (max x.subAt (x.cycAt + 160000)) }
    mainsLoss

/-- Where boundary `j` of the cycle in progress lies, in modulator clocks (R185). -/
def MeaSt.boundary (x : MeaSt) (j : Nat) : Nat :=
  let sub := subCount x.mains
  x.cycAt + (2 * j * x.cycP + 16 * sub) / (32 * sub)

/-- How the sub-window in progress ends (R185): its index, where, and whether the cycle ends with it; none where it waits
for the next crossing. -/
def State.subEnd (s : State) : Option (Nat × Nat × Bool) :=
  let x := s.hid.mea
  let sub := subCount x.mains
  let j := min (x.subIdx + 1) sub
  let b := max x.subAt (x.boundary j)
  match x.cut with
  | some c => if c ≤ b ∨ j = sub then some (sub - 1, max x.subAt c, true) else some (j - 1, b, false)
  | none => if j < sub then some (j - 1, b, false)
            else if s.f MEA.MAINS.LOCKED = 1 then none else some (sub - 1, b, true)

/-- A sub-window ends with the sums `sums` (R182, R183, R185, R186). -/
def subwindowEnd (sums : List Int) : M Unit := do
  let s ← getS
  let x := s.hid.mea
  match s.subEnd with
  | none => pure ()
  | some (idx, stop, last) =>
    let n := stop - x.subAt
    let locked := s.f MEA.MAINS.LOCKED == 1
    let used := (List.range 16).map fun k => if bit x.pcEn k then sums.getD k 0 else 0
    (List.range 16).forM fun k => do
      wf (MEA.PC_SUM.SUB k) idx
      wf (MEA.PC_SUM.SUM k) (codeOf 24 (used.getD k 0))
    wf MEA.PC_LEN.UNLOCKED (b2n !locked)
    wf MEA.PC_LEN.CYCLE x.cycle
    wf MEA.PC_LEN.N n
    let w : SubWin := ⟨used, n, x.cycle, x.seq, locked, idx, last⟩
    if s.present 8 then updMea fun x => { x with xfer := x.xfer ++ [w] }
    else
      inc (SYS.XFER.DROPPED_WRITES 8)
      if s.f (SYS.ISLAND.STATE 8) = 3 then hid fun h => { h with mtr := { h.mtr with missed := h.mtr.missed + 1 } }
    updMea fun x => { x with seq := (x.seq + 1) % 4294967296, subAt := stop, subIdx := idx + 1 }
    -- a new cycle: configuration writes take effect (R183), its period is the previous one's or the nominal one (R185)
    if last then
      let en := (List.range 16).foldl (fun m k => if s.f (MEA.PC_CFG.EN k) = 1 then setBit m k else m) 0
      let cfg := s.rd MEA.MAINS_CFG
      updMea fun x => { x with pcEn := en, mains := cfg, cut := none, cycAt := stop, subIdx := 0, cycle := x.cycle + 1,
                               cycP := if locked then s.f MEA.MAINS.PERIOD else nominalPeriod cfg }

end Sys2Proof.Machine
end

