-- ==== Sys2Proof/Machine/Lattice.lean ====
section
/-! DEFINITION. The Lattice: cells, min-select groups, ramps, templates, posting and commit (R189 to R207). Signals are
Q1.30 integers, gains Q8.23 integers (R194). -/

namespace Sys2Proof.Machine

/-! ## Arithmetic (R194): the state counts saturations -/

/-- A number held within Q1.30. -/
def qsat (x : Int) : StateM Nat Int := do
  if 2147483647 < x then
    modify (· + 1)
    return 2147483647
  if x < -2147483648 then
    modify (· + 1)
    return -2147483648
  return x

/-- An exact product rounded to Q1.30: half a least significant bit added, truncated towards minus infinity; beyond the
format it saturates (DESIGN CHOICE, log entry 13). -/
def qmul (a b : Int) (sh : Nat) : StateM Nat Int := qsat ((a * b + 2 ^ (sh - 1)) / 2 ^ sh)

/-- A sum, from left to right. -/
def qadd : List Int → StateM Nat Int
  | [] => return 0
  | [a] => return a
  | a :: b :: r => do
    let x ← qsat (a + b)
    qaddFrom x r
where
  /-- The rest of a sum. -/
  qaddFrom (x : Int) : List Int → StateM Nat Int
    | [] => return x
    | b :: r => do
      let y ← qsat (x + b)
      qaddFrom y r

/-- The members of a cell's min-select group within a rate group; the cell alone without one (R198). -/
def State.msMembers (s : State) (n c : Nat) : List Nat :=
  if s.dB c 3 = 0xFF then [c] else (s.rgCells n).filter fun x => s.dB x 3 == s.dB c 3

/-- The lowest-numbered member of a cell's group, which gives the group's destination. -/
def State.msHead (s : State) (n c : Nat) : Nat := (s.msMembers n c).headD c

/-- The cell whose output feeds a cell's reference (R202): the head of the feeding group. -/
def State.feeder (s : State) (n c : Nat) : Option Nat :=
  (s.rgCells n).find? fun x => s.msHead n x == x && s.dB x 48 == 2 && s.dB x 49 == c

/-- Whether some enabled cell feeds a cell (R202). -/
def State.cascaded (s : State) (c : Nat) : Bool :=
  (List.range 192).any fun x => s.lcEn x && s.dB x 48 == 2 && s.dB x 49 == c

/-- The group a rate group owns, if it may evaluate: EN 1, the OWNER agrees, the group ARMED or RUNNING (R189). -/
def State.rgGroup (s : State) (n : Nat) : Option Nat :=
  let g := s.f (LAT.RG_CFG.GROUP n)
  if s.f (LAT.RG_CFG.EN n) = 1 ∧ g < 32 ∧ s.owner g = 8 + n ∧ s.active g then some g else none

/-! ## One cell -/

/-- A step of a ramp (R200). -/
def rampStep (rho tau : Int) (rate : Nat) : Int :=
  if rate = 0 then tau
  else if rho < tau then min tau (rho + rate)
  else max tau (rho - rate)

/-- What a cell computed before its integrator (R195): error, proportional and derivative terms, v; none for a hold. -/
structure CellOut where
  cell : LCell
  e : Int
  p : Int
  dterm : Int
  v : Int
  held : Bool
  sats : Nat
  deriving DecidableEq, Repr

/-- The equations of R195, R197, R200 and R202 for one cell; `code` is its usable result, `feed` the output that feeds
its reference. -/
def State.cellEval (s : State) (c : Nat) (code : Option Nat) (feed : Option Int) : CellOut :=
  let r := s.lc c
  let umin := s.dW c 32
  let umax := s.dW c 36
  let bias := s.dW c 40
  let iInit := s.dW c 44
  match code with
  | none =>
    let rho := feed.getD (rampStep r.rho (s.tau c) r.rate)
    let (start, n) := qsat (iInit + bias) 0
    let u := if r.init then r.u else clampI umin umax start
    ⟨{ r with rho := rho, u := u }, 0, 0, r.dterm, 0, true, if r.init then 0 else n⟩
  | some x =>
    let ctrl := s.dB c 1
    let inv := bit ctrl 6
    let comp : StateM Nat CellOut := do
      let y ← qmul ((x : Int) - s.tn 0x20 (64 * c + 4) 2) (s.dW c 8) 16
      let rho := match feed with
        | some f => f
        | none => if r.init then rampStep r.rho (s.tau c) r.rate else y
      let e ← if inv then qsat (y - rho) else qsat (rho - y)
      let d ← if bit ctrl 5 then qsat (e + (if inv then rho else -rho)) else pure e
      let dPrev := if r.init then r.dPrev else d
      let i0 := if r.init then r.i else iInit
      let p ← qmul (s.dW c 12) e 23
      let a ← qmul (s.tn 0x20 (64 * c + 24) 2) (if r.init then r.dterm else 0) 16
      let dd ← qsat (d - dPrev)
      let k ← qmul (s.dW c 20) dd 23
      let dterm ← qsat (a + k)
      let v ← qadd [p, i0, dterm, bias]
      let u := clampI umin umax v
      return ⟨{ r with init := true, rho := rho, i := i0, dterm := dterm, dPrev := d, u := u }, e, p, dterm, v, false, 0⟩
    let (o, n) := comp 0
    { o with sats := n }

/-- The integrator of a cell that is not a loser (R196). -/
def State.integrate (s : State) (c : Nat) (o : CellOut) : Int × Nat :=
  let umin := s.dW c 32
  let umax := s.dW c 36
  let comp : StateM Nat Int := do
    let inc ← qmul (s.dW c 16) o.e 23
    if bit (s.dB c 1) 4 then
      let du ← qsat (o.cell.u - o.v)
      let b ← qmul (s.dW c 28) du 23
      qadd [o.cell.i, inc, b]
    else
      let inc := if (umax < o.v ∧ 0 < inc) ∨ (o.v < umin ∧ inc < 0) then 0 else inc
      qsat (o.cell.i + inc)
  let (i, n) := comp 0
  (clampI umin umax i, n)

/-- The integrator of a loser of a min-select group (R199). -/
def State.trackWinner (s : State) (c : Nat) (o : CellOut) (uWin : Int) : Int × Nat :=
  let comp : StateM Nat Int := qadd [uWin, -o.p, -o.dterm, -(s.dW c 40)]
  let (i, n) := comp 0
  (clampI (s.dW c 32) (s.dW c 36) i, n)

/-- The winner of a min-select group: the smallest output, ties to the lowest number (R198). -/
def winner : List (Nat × CellOut) → Option (Nat × Int)
  | [] => none
  | (c, o) :: r =>
    match winner r with
    | none => some (c, o.cell.u)
    | some (w, u) => if o.cell.u ≤ u then some (c, o.cell.u) else some (w, u)

/-! ## One evaluation -/

/-- Store what a cell computed and show it (R192, R195, R200). A target in force that rho reaches is told once, until a
new one comes (R201). -/
def storeCell (c : Nat) (o : CellOut) (i : Int) (sats : Nat) (loser fed : Bool) : M Unit := do
  let s ← getS
  let reached := !fed && decide (o.cell.rho = s.tau c)
  updLc c fun _ => { o.cell with i := i }
  wr (LAT.OUT c) (BitVec.ofInt 32 o.cell.u)
  wr (LAT.RAMPED c) (BitVec.ofInt 32 o.cell.rho)
  wf (LAT.CELL_STAT.HOLD c) (b2n o.held)
  wf (LAT.CELL_STAT.LOSER c) (b2n loser)
  wf (LAT.CELL_STAT.RAMPING c) (b2n (decide (o.cell.rho ≠ s.tau c)))
  incBy (LAT.CELL_STAT.SAT_ARITH c) (o.sats + sats)
  if o.held then inc (LAT.CELL_STAT.HOLDS c)
  else wf (LAT.CELL_STAT.SAT_OUT c) (b2n (decide (o.v < s.dW c 32) || decide (s.dW c 36 < o.v)))
  if reached && s.f (LAT.CELL_STAT.RAMP_DONE c) == 0 then
    wf (LAT.CELL_STAT.RAMP_DONE c) 1
    eventDev 0x8025 (by1 [c] ++ leBytes 4 (codeOf 32 (s.tau c)))

/-- Resolve the min-select group (or the single cell) whose last member has been computed (R198, R199); the answer is
the output for its destination. -/
def resolveGroup (n c : Nat) (outs : List (Nat × CellOut)) : M Int := do
  let s ← getS
  let mine := outs.filter fun x => (s.msMembers n c).contains x.1
  match winner mine with
  | none => return 0
  | some (w, u) =>
    mine.forM fun x => do
      let fed := (s.feeder n x.1).isSome
      if x.2.held then storeCell x.1 x.2 x.2.cell.i 0 false fed
      else if x.1 = w then
        let (i, k) := s.integrate x.1 x.2
        storeCell x.1 x.2 i k false fed
      else
        let (i, k) := s.trackWinner x.1 x.2 u
        storeCell x.1 x.2 i k true fed
    let m := s.dB c 3
    if m < 24 then
      if s.f (LAT.MS_STAT.WINNER m) ≠ w ∧ s.f (LAT.MS_STAT.WINNER m) ≠ 0xFF then incWrap (LAT.MS_STAT.CHANGES m)
      wf (LAT.MS_STAT.WINNER m) w
    return u

/-- Evaluate the cells of a rate group in ascending order with the input codes `inputs` (R191, R195 to R202). The answer
pairs each group's head with the group's output. -/
def evalCells (n : Nat) (inputs : List (Nat × Option Nat)) : M (List (Nat × Int)) := do
  let s ← getS
  let r ← (s.rgCells n).foldlM (fun (acc : List (Nat × CellOut) × List (Nat × Int)) c => do
    let s ← getS
    let feed := match s.feeder n c with
      | some f => (acc.2.find? fun x => x.1 == f).map (·.2)
      | none => none
    let code := match inputs.find? fun x => x.1 == c with
      | some x => x.2
      | none => none
    let outs := acc.1 ++ [(c, s.cellEval c code feed)]
    if (s.msMembers n c).getLast? = some c then
      let u ← resolveGroup n c outs
      return (outs, acc.2 ++ [(s.msHead n c, u)])
    else return (outs, acc.2)) ([], [])
  return r.2

/-- The input codes of a rate group's cells: the latest usable results after the previous evaluation began (R192). -/
def State.rgInputs (s : State) (n : Nat) : List (Nat × Option Nat) :=
  (s.rgCells n).map fun c => (c, s.usable (s.dB c 2) (s.rg n).begun)

/-! ## Templates and posting -/

/-- The enabled templates of a destination cell (R203). -/
def State.templates (s : State) (c : Nat) : List Nat :=
  if s.dB c 48 = 1 then
    (List.range (s.dB c 51)).filterMap fun k =>
      let e := s.dB c 50 + k
      if e < 256 ∧ s.f (LAT.TPL_CTL.EN e) = 1 then some e else none
  else []

/-- BASE + COEF × u of a template, in units of 2^-59 (BASE is unsigned Q0.32, COEF Q2.29). -/
def State.tplVal (s : State) (e : Nat) (u : Int) : Int :=
  (s.rd (LAT.TPL_BASE e)).toNat * 2 ^ 27 + sx32 (s.rd (LAT.TPL_COEF e)).toNat * u

/-- P of a PERIOD template (R203). -/
def State.tplPeriod (s : State) (e : Nat) (u : Int) : Nat := (clampI 200 16777216 (s.tplVal e u / 2 ^ 35)).toNat

/-- The compare word of an EDGE template for a period of `p` pulse clocks (R203). -/
def State.tplEdge (s : State) (e : Nat) (u : Int) (p : Nat) : Nat :=
  ((s.tplVal e u * (64 * p) / 2 ^ 59) % (64 * p)).toNat

/-- Post one compare word into a shadow (R100, R106). -/
def postEdge (c : Nat) (fall : Bool) (w : Nat) : M Unit :=
  if fall then post c none (some (BitVec.ofNat 32 w)) else post c (some (BitVec.ofNat 32 w)) none

/-- Post the templates of a rate group's destinations (R203). -/
def postTemplates (g : Nat) (outs : List (Nat × Int)) : M Unit := do
  let s ← getS
  let t := s.grpTb g
  let all := outs.flatMap fun x => (s.templates x.1).map fun e => (e, x.2)
  let periods := (all.filter fun x => s.f (LAT.TPL_CTL.KIND x.1) == 1).map fun x => s.tplPeriod x.1 x.2
  let p := periods.getLastD (s.tbP t)
  periods.forM fun q => do
    if s.active g then
      meetStrobe [t]
      wf (PLS.TB_PERIOD.PERIOD t) (q - 1)
    else inc PLS.COUNT1.POST_DROPPED
  (all.filter fun x => s.f (LAT.TPL_CTL.KIND x.1) == 0).forM fun x =>
    postEdge (s.f (LAT.TPL_CTL.CHANNEL x.1)) (s.f (LAT.TPL_CTL.EDGE x.1) == 1) (s.tplEdge x.1 x.2 p)

/-- Send the COMMIT token of a rate group; a token that is taken makes its cells' states final (R204, R206). -/
def sendToken (n g : Nat) : M Unit := do
  if ← loopCommit g then updRg n fun r => { r with saved := none, fresh := false }
  else restoreCells n

/-- Start an evaluation: the saved states, the input codes and the stamp (R190, R192, R206). Nothing happens unless the
rate group may evaluate, a result for START_SLOT came in this window, and it has not evaluated in it yet. The answer is
its group. -/
def beginEval (n : Nat) : M (Option Nat) := do
  let s ← getS
  match s.rgGroup n with
  | none => return none
  | some g =>
    let b := s.tbase (s.grpTb g)
    if (s.rg n).win = b.wins ∨ s.slotStamp (s.f (LAT.RG_CFG.START_SLOT n)) ≤ b.marks.headD 0 then return none
    restoreCells n
    let s ← getS
    let ins := s.rgInputs n
    updRg n fun r => { r with win := b.wins, begun := s.hid.mea.total, inputs := ins, fresh := false,
                              saved := some ((s.rgCells n).map fun c => (c, s.lc c)) }
    incWrap (LAT.RG_STAT.EVALS n)
    return some g

/-- After an evaluation: a holding cell is an occurrence of LAT_INPUT_HOLD (R192), IMMEDIATE sends the token (R204). -/
def endEval (n g : Nat) : M Unit := do
  let s ← getS
  if (s.rg n).inputs.any fun x => x.2.isNone then occur 70 g (LAT.RG_STAT n)
  if s.f (LAT.RG_CFG.COMMIT n) = 0 then sendToken n g

/-- The commit strobe of a window crosses into the Lattice (R204): in HOLD mode the token of an evaluation of that window
follows. -/
def commitStrobe (n : Nat) : M Unit := do
  let s ← getS
  match s.rgGroup n with
  | some g =>
    if s.f (LAT.RG_CFG.COMMIT n) = 1 ∧ (s.rg n).saved.isSome ∧ (s.rg n).win = (s.tbase (s.grpTb g)).wins then
      sendToken n g
  | none => restoreCells n

/-- Start a re-evaluation in HOLD mode for a target that came after the posting (R205): from the saved states and the
same results. The answer is its group. -/
def beginReeval (n : Nat) (abandoned : Bool) : M (Option Nat) := do
  let s ← getS
  match s.rgGroup n, (s.rg n).saved with
  | some g, some l =>
    if s.f (LAT.RG_CFG.COMMIT n) = 1 ∧ (s.rg n).fresh = true ∧ (s.rg n).win = (s.tbase (s.grpTb g)).wins then
      updRg n fun r => { r with fresh := false }
      if abandoned then
        inc (LAT.RG_STAT.ABANDONED n)
        return none
      putCells l
      inc (LAT.RG_STAT.REEVALS n)
      inc LAT.STATUS.REEVALS
      return some g
    return none
  | _, _ => return none

/-- The cells of a group's rate group start anew with the next ENABLE (R197, R206). -/
def latRestart (g : Nat) : M Unit := do
  let s ← getS
  if 8 ≤ s.owner g then
    let n := s.owner g - 8
    updRg n fun r => { r with saved := none, fresh := false }
    (s.rgCells n).forM fun c => updLc c fun r => { r with init := false }

/-! ## Targets -/

/-- A new target reaches a cell in place of `old` (R201): it runs at the RATE in force now. A rate group whose words wait
for the strobe may evaluate again for it (R205). -/
def newTarget (c : Nat) (old : Word) : M Unit := do
  let s ← getS
  let r := s.lc c
  if s.f (LAT.CELL_STAT.RAMP_DONE c) = 0 ∧ r.rho ≠ sx32 old.toNat then inc LAT.STATUS.RAMP_SUPERSEDED
  updLc c fun r => { r with rate := s.f (LAT.RAMP.RATE c) }
  wf (LAT.CELL_STAT.RAMP_DONE c) 0
  wf (LAT.CELL_STAT.RAMPING c) (b2n (decide (r.rho ≠ s.tau c)))
  let n := s.dB c 0
  if s.lcEn c ∧ (s.rg n).saved.isSome then updRg n fun r => { r with fresh := true }

end Sys2Proof.Machine
end

