-- ==== Sys2Proof/Machine/Position.lean ====
section
/-! DEFINITION. Position units: decoding, latching, speed, position compare, pass-through (R257 to R277). Times are
position clocks of 5 ns. Number formats and roundings the chapter does not state are in (DESIGN CHOICE) log entry 15. -/

namespace Sys2Proof.Machine

/-! ## Units -/

/-- One count of POS in units of a position. -/
abbrev cnt : Int := 2 ^ 40

/-- MODE of a unit (R258): 0 OFF, 1 RESOLVER, 2 SSI, 3 QUAD, 4 HALL, 5 OBSERVER. -/
def State.puMode (s : State) (k : Nat) : Nat := s.f (POS.PU_CFG.MODE k)

/-- STATE of a unit (R259): 0 OFF, 1 ACQUIRE, 2 VALID, 3 FAULT. -/
def State.puState (s : State) (k : Nat) : Nat := s.f (POS.PU_STAT.STATE k)

/-- The modulus of POS (R258); a QUAD unit with MOD 0 counts as a linear one (DESIGN CHOICE, log entry 15). -/
def State.puMod (s : State) (k : Nat) : Nat :=
  let m := s.f (POS.MODULUS.MOD k)
  match s.puMode k with
  | 2 => 2 ^ s.f (POS.SSI.NPOS k)
  | 3 => if s.f (POS.MODULUS.ROTARY k) = 1 ∧ m ≠ 0 then m else 2 ^ 24
  | _ => 2 ^ 24

/-- Whether a QUAD unit is linear (R270). -/
def State.puLinear (s : State) (k : Nat) : Bool := s.puMode k == 3 && s.f (POS.MODULUS.ROTARY k) == 0

/-- One unit's record. -/
def State.pu (s : State) (k : Nat) : PosUnit := mget {} s.hid.pos.units k

/-- Update a unit's record. -/
def updPu (k : Nat) (f : PosUnit → PosUnit) : M Unit :=
  hid fun h => { h with pos := { h.pos with units := mupd {} h.pos.units k f } }

/-- POS of a position. -/
def posOf (acc : Int) (modulus : Nat) : Nat := (acc / cnt % (modulus : Int)).toNat

/-- POS of a unit. -/
def State.posn (s : State) (k : Nat) : Nat := posOf (s.pu k).acc (s.puMod k)

/-- The signed modular difference of R272. -/
def modDiff (m : Nat) (x : Int) : Int := (x + m / 2) % m - m / 2

/-- A quotient rounded to the nearest integer; a free value where the divisor is 0. -/
def ratio (n d : Int) : M Int := do
  if d = 0 then return sx32 (← fresh)
  else return (2 * n + d) / (2 * d)

/-- Whether a unit in VALID shows a valid speed (R259). -/
def State.spdValid (s : State) (k : Nat) : Bool := !(s.puMode k == 3 || s.puMode k == 4) || (s.pu k).spdOk

/-- A unit changes state: POS_STATE carries the unit, the old and new state and the ledger source of a FAULT
(R259). FAULT reads 1 in that state, and SPD_VALID can be 1 in VALID alone. -/
def setPuState (k new src : Nat) : M Unit := do
  let s ← getS
  let old := s.puState k
  wf (POS.PU_STAT.SPD_VALID k) (b2n (new == 2 && s.spdValid k))
  wf (POS.PU_STAT.FAULT k) (b2n (new == 3))
  if old ≠ new then
    wf (POS.PU_STAT.STATE k) new
    eventDev 0x802A (by1 [k, old, new, src])

/-- An occurrence of a source of the unit: a lasting one puts the unit into FAULT (R259, R286), where it decodes
nothing and holds its position. -/
def puOccur (src k : Nat) : M Unit := do
  let b ← occurrence src k 0
  if b then
    updPu k fun u => { u with vel := 0, excOff := u.excOff || src == 102 }
    setPuState k 3 src

/-! ## Position compare -/

/-- A match (R275): MATCH, COUNT, LATE, the crossing to FE3, and POS_COMPARE. ARMED clears unless REARM. -/
def pcmpFire (k u : Nat) (late : Bool) : M Unit := do
  let s ← getS
  wf (POS.PCMP_STAT.MATCH k u) 1
  wf (POS.PCMP_STAT.LATE k u) (b2n late)
  incWrap (POS.PCMP_STAT.COUNT k u)
  hid fun h => { h with pos := { h.pos with hits := h.pos.hits ++ [(k, u)] } }
  if s.f (POS.PCMP_CFG.REARM k u) = 0 then wf (POS.PCMP_STAT.ARMED k u) 0
  if s.f (POS.PCMP_CFG.EVT k u) = 1 then
    eventDev 0x802B (by1 [k, u] ++ leBytes 4 (s.posn k) ++ by1 [b2n late])

/-- The judgement of a target (R273, R274): behind or at the target the unit fires in the next position
clock, LATE telling which, or waits for the next true crossing. -/
def pcmpLateJudge (k u : Nat) : M Unit := do
  let s ← getS
  if s.puState k = 2 then
    let d0 := modDiff (s.puMod k) ((s.f (POS.PCMP_TGT.TARGET k u) : Int) - s.posn k)
    let dir := s.f (POS.PCMP_CFG.DIR k u)
    let behind : Bool := (dir == 0 && decide (d0 < 0)) || (dir == 1 && decide (0 < d0))
    wf (POS.PCMP_STAT.LATE k u) (b2n behind)
    if d0 = 0 ∨ (behind ∧ s.f (POS.PCMP_CFG.LATE_ACTION k u) = 0) then
      updPu k fun r => { r with late := u :: r.late.erase u }

/-- Whether a compare unit of a VALID unit stands at its target. -/
def State.pcmpAt (s : State) (k u : Nat) : Bool :=
  s.puState k == 2 && decide (modDiff (s.puMod k) ((s.f (POS.PCMP_TGT.TARGET k u) : Int) - s.posn k) = 0)

/-- After a match with REARM, TARGET moves by STEP in the armed direction, or in that of the match (R274). -/
def pcmpStep (k u : Nat) (fwd : Bool) : M Unit := do
  let s ← getS
  let dir := s.f (POS.PCMP_CFG.DIR k u)
  let up : Bool := if dir = 0 then true else if dir = 1 then false else fwd
  let st : Int := s.f (POS.PCMP_CFG.STEP k u)
  let tgt : Int := s.f (POS.PCMP_TGT.TARGET k u)
  wf (POS.PCMP_TGT.TARGET k u) (((if up then tgt + st else tgt - st) % (s.puMod k : Int)).toNat)

/-- After a match with REARM the moved target is judged as at arming (R274): at it the unit fires at once. A step that leads back to
POS fires once in each position clock (DESIGN CHOICE, log entry 15). -/
def pcmpRearm (k u : Nat) (fwd : Bool) : M Unit := do
  if (← getS).f (POS.PCMP_CFG.REARM k u) = 1 then
    pcmpStep k u fwd
    if (← getS).pcmpAt k u then
      pcmpFire k u false
      pcmpStep k u fwd
    pcmpLateJudge k u

/-- The judgement at arming (R273): at the target the unit fires at once; otherwise as above. -/
def pcmpJudge (k u : Nat) : M Unit := do
  if (← getS).pcmpAt k u then
    pcmpFire k u false
    pcmpRearm k u true
  else pcmpLateJudge k u

/-- The compare units of a unit that are armed. -/
def State.pcmpArmed (s : State) (k : Nat) : List Nat :=
  (List.range 8).filter fun u => s.f (POS.PCMP_STAT.ARMED k u) == 1

/-- How far a unit has to move for compare unit `u` to fire, `fwd` telling the direction; 0 for never (R272). -/
def State.pcmpAhead (s : State) (k u : Nat) (p0 : Nat) (fwd : Bool) : Nat :=
  let dir := s.f (POS.PCMP_CFG.DIR k u)
  let m := s.puMod k
  let x : Int := s.f (POS.PCMP_TGT.TARGET k u)
  if (fwd ∧ (dir = 0 ∨ dir = 2)) ∨ (!fwd ∧ (dir = 1 ∨ dir = 2)) then
    let d := ((if fwd then x - p0 else p0 - x) % m).toNat
    if d = 0 then m else d
  else 0

/-- Fire the units whose firing was put off to this position clock. -/
def pcmpLate (k : Nat) : M Unit := do
  let l := ((← getS).pu k).late
  if !l.isEmpty then
    updPu k fun r => { r with late := [] }
    l.forM fun u => do
      let s ← getS
      if s.puState k = 2 ∧ s.f (POS.PCMP_STAT.ARMED k u) = 1 then
        pcmpFire k u (s.f (POS.PCMP_STAT.LATE k u) == 1)
        pcmpRearm k u true

/-- The unit moves to position `acc` within one position clock, and each armed compare unit is compared (R272). -/
def moveTo (k : Nat) (acc : Int) : M Unit := do
  let s ← getS
  let p0 := s.posn k
  let delta := modDiff (s.puMod k) ((posOf acc (s.puMod k) : Int) - p0)
  updPu k fun r => { r with acc := acc }
  wf (POS.POSN.POSITION k) (posOf acc (s.puMod k))
  if s.puState k = 2 ∧ delta ≠ 0 then
    let fwd := decide (0 < delta)
    (s.pcmpArmed k).forM fun u => do
      let d := s.pcmpAhead k u p0 fwd
      if 0 < d ∧ d ≤ delta.natAbs then
        pcmpFire k u false
        pcmpRearm k u fwd

/-- Each armed unit is judged again as at arming: after a jump of POS, or when the unit becomes VALID (R272, R274). -/
def rejudge (k : Nat) : M Unit := do (← getS).pcmpArmed k |>.forM fun u => pcmpJudge k u

/-- POS jumps (R274). -/
def jumpTo (k : Nat) (acc : Int) : M Unit := do
  let s ← getS
  let m := s.puMod k
  let d := modDiff m ((posOf acc m : Int) - s.posn k)
  if d ≠ 0 ∨ (acc - (s.pu k).acc) % cnt ≠ 0 then
    updPu k fun r => { r with acc := (r.acc / cnt + d) * cnt + acc % cnt }
    wf (POS.POSN.POSITION k) (posOf acc m)
    rejudge k

/-- The unit becomes VALID (R259). -/
def puValid (k : Nat) : M Unit := do
  if (← getS).puState k = 1 then
    setPuState k 2 0
    rejudge k

/-- The smallest number of position clocks after which a moving unit has passed `d` counts. -/
def clocksFor (acc vel : Int) (d : Nat) : Nat :=
  let need : Int := if 0 < vel then (acc / cnt + d) * cnt - acc else acc - ((acc / cnt - d + 1) * cnt - 1)
  let v := vel.natAbs
  if v = 0 then 0 else Nat.max 1 ((need.toNat + v - 1) / v)

/-- The position after `n` clocks, held at the limit of an extrapolation (R269). -/
def PosUnit.after (u : PosUnit) (n : Nat) : Int :=
  let a := u.acc + u.vel * n
  match u.lim with
  | some l => if 0 ≤ u.vel then min a (max l u.acc) else max a (min l u.acc)
  | none => a

/-- Advance a unit by `n` position clocks: to the next clock in which a compare unit fires, and on from there. -/
def advancePu (k : Nat) : Nat → Nat → M Unit
  | 0, _ => pure ()
  | fuel + 1, n => do
    if 0 < n then
      let s ← getS
      let u := s.pu k
      let fwd := decide (0 < u.vel)
      let next := ((s.pcmpArmed k).map fun c =>
        let d := s.pcmpAhead k c (s.posn k) fwd
        if d = 0 ∨ u.vel = 0 ∨ s.puState k ≠ 2 then n else clocksFor u.acc u.vel d).foldl Nat.min n
      let j := if u.late.isEmpty then Nat.max 1 next else 1
      if 1 < j then updPu k fun r => { r with acc := u.after (j - 1) }
      pcmpLate k
      moveTo k (u.after j)
      updPu k fun r => { r with t := u.t + j }
      advancePu k fuel (n - j)

/-! ## Pass-through -/

/-- The emulated count of a pass-through ball set (R276): POS of its source scaled to 4 × EMU_LINES per modulus. -/
def State.emuCount (s : State) (k : Nat) : Int :=
  let src := s.f (POS.PT_CFG.SRC k)
  (s.pu src).acc * (4 * s.f (POS.PT_CFG.EMU_LINES k) : Nat) / ((s.puMod src : Int) * cnt)

/-- One pass-through's record. -/
def State.pt (s : State) (k : Nat) : PassThru := mget {} s.hid.pos.pts k

/-- Update a pass-through's record. -/
def updPt (k : Nat) (f : PassThru → PassThru) : M Unit :=
  hid fun h => { h with pos := { h.pos with pts := mupd {} h.pos.pts k f } }

/-- Levels of PT0, PT1 and PT2 under QUAD_EMU (R276): A and B of the emitted count, index while it is 0. -/
def State.quadEmu (s : State) (k : Nat) : Bool × Bool × Bool :=
  let e := (s.pt k).emitted
  let q := e % 4
  (q == 1 || q == 2, q == 2 || q == 3, e % ((4 * s.f (POS.PT_CFG.EMU_LINES k) : Nat) : Int) == 0)

/-- Waiting counts beyond 4,096 hold the emulation (R277). -/
def emuCheck (k : Nat) : M Unit := do
  let s ← getS
  if s.f (POS.PT_CFG.MODE k) = 2 ∧ s.f (POS.PU_STAT.PT_FAULT k) = 0 ∧
      4096 < (s.emuCount k - (s.pt k).emitted).natAbs then
    wf (POS.PU_STAT.PT_FAULT k) 1
    occur 107 k 0

/-- The pass-throughs that follow a unit. -/
def emuFollow (src : Nat) : M Unit := do
  let s ← getS
  (List.range 6).forM fun k => do if s.f (POS.PT_CFG.SRC k) = src then emuCheck k

/-- QUAD_EMU_COUNT: the next waiting count is emitted, EMU_MIN position clocks or more after the one before (R276, R277). -/
def quadEmuCount (k t : Nat) : M Unit := do
  let s ← getS
  let p := s.pt k
  let w := s.emuCount k - p.emitted
  if s.f (POS.PT_CFG.MODE k) = 2 ∧ s.f (POS.PU_STAT.PT_FAULT k) = 0 ∧ w ≠ 0 ∧
      p.since + s.f (POS.PT_CFG.EMU_MIN k) ≤ t then
    updPt k fun r => { r with emitted := r.emitted + (if 0 < w then 1 else -1), since := t }

/-- The emulation starts at the present position (R277). -/
def emuRestart (k : Nat) : M Unit := do
  let s ← getS
  updPt k fun r => { r with emitted := s.emuCount k, sent := 16 }

/-- SSI_EMU_CLOCK: the first falling edge after 10 µs of idle freezes the word; each rising edge shifts a bit onto PT0
(R276). After the sixteenth bit PT0 keeps its level. -/
def ssiEmuClock (k : Nat) (rising : Bool) (t : Nat) : M Unit := do
  let s ← getS
  if s.f (POS.PT_CFG.MODE k) = 3 then
    let src := s.f (POS.PT_CFG.SRC k)
    let p := s.pt k
    if rising then
      updPt k fun r => { r with
        sent := if r.sent < 16 then r.sent + 1 else r.sent
        out := if r.sent < 16 then bit r.word (15 - r.sent) else r.out
        edge := t }
    else if p.edge + 2000 ≤ t then
      updPt k fun r => { r with word := s.posn src * 65536 / s.puMod src, sent := 0, edge := t }
    else updPt k fun r => { r with edge := t }

/-! ## Speed (R270, R271) -/

/-- Whether a unit measures its speed from reference edges (R270). -/
def State.edgeMode (s : State) (k : Nat) : Bool := s.puMode k == 2 || s.puMode k == 3 || s.puMode k == 4

/-- The last position clock in which a unit without a further reference edge reports a speed (R271). -/
def State.zeroAt (s : State) (k : Nat) : Nat := (s.pu k).edgeAt + s.f (POS.PU_CFG.ZERO_TIME k) * 200000

/-- The reported speed of a unit that measures edges, at position clock `t` (R271). -/
def State.speedAt (s : State) (k t : Nat) : M Int := do
  let u := s.pu k
  let mode := s.puMode k
  if s.edgeMode k then
    match u.edges with
    | (t1, _) :: rest =>
      if s.zeroAt k < t then return 0
      match rest with
      | (t0, _) :: _ =>
        if t1 - t0 < t - t1 ∧ mode ≠ 2 then
          let lim ← if s.puLinear k then ratio (4 * 200000000) (t - t1 : Nat)
            else if mode = 3 then ratio (256 * 60 * 800000000) ((s.f (POS.MODULUS.MOD k) * (t - t1) : Nat))
            else ratio (256 * 60 * 200000000) ((6 * s.f (POS.HALL.PP k) * (t - t1) : Nat))
          return if u.speed < 0 then max u.speed (-lim) else min u.speed lim
        else return u.speed
      | [] => return u.speed
    | [] => return u.speed
  else return u.speed

/-- Store a unit's speed. -/
def setSpeed (k : Nat) (x : Int) : M Unit := do
  updPu k fun r => { r with speed := x }
  wr (POS.SPEED k) (BitVec.ofInt 32 x)

/-- POS.SPEED shows the reported speed at position clock `t` (R271); the answer is that speed. -/
def reportSpeed (k t : Nat) : M Int := do
  let n ← (← getS).speedAt k t
  wr (POS.SPEED k) (BitVec.ofInt 32 n)
  return n

/-- The speed a unit with reference edges shows follows the time. -/
def showSpeed (k t : Nat) : M Unit := do
  if (← getS).edgeMode k then
    let _ ← reportSpeed k t

/-- ZERO_TIME has passed without a reference edge (R259, R271): the speed is 0, and known. -/
def standStill (k : Nat) : M Unit := do
  setSpeed k 0
  updPu k fun r => { r with vel := 0, spdOk := true }
  let s ← getS
  if s.puState k = 2 then wf (POS.PU_STAT.SPD_VALID k) 1

/-! ## Time -/

/-- A unit advances to position clock `t`. -/
def advanceTo (k t : Nat) : M Unit := do
  let n := t - ((← getS).pu k).t
  advancePu k n n

/-- Bring a unit to position clock `t`: it advances, standing still from ZERO_TIME without a reference edge on, and its speed and
its emulations follow. -/
def puTime (k t : Nat) : M Unit := do
  let s ← getS
  if s.puState k ≠ 0 then
    if s.edgeMode k ∧ s.puState k ≠ 3 ∧ s.zeroAt k < t then
      advanceTo k (s.zeroAt k)
      standStill k
    advanceTo k t
    showSpeed k t
    emuFollow k
  else updPu k fun r => { r with t := t }

/-- A command carries position clock `t`: the island's clock goes on to it, never back. The answer is the clock. -/
def posTime (k t : Nat) : M Nat := do
  let s ← getS
  let c := max t s.hid.pos.clk
  hid fun h => { h with pos := { h.pos with clk := c } }
  puTime k c
  return c

/-- The tick of 1 ms: every unit advances by 200,000 position clocks; EXT_AGE follows (R283). -/
def posTick : M Unit := do
  let s ← getS
  let c := s.hid.pos.clk + 200000
  hid fun h => { h with pos := { h.pos with clk := c } }
  (List.range 6).forM fun k => puTime k c
  s.hid.pos.ext.forM fun e => wf (POS.OBS_CTRL.EXT_AGE e.1) (min 255 (s.ms - e.2))

/-! ## Reference edges (R270, R271) -/

/-- A reference edge at `t` (R270, R271): the speed over the last k intervals. -/
def refEdge (k t : Nat) (dir : Int) : M Unit := do
  let s ← getS
  let u := s.pu k
  let edges := ((t, u.acc) :: u.edges).take 65
  updPu k fun r => { r with edges := edges, edgeAt := t, spdOk := r.spdOk || decide (2 ≤ edges.length) }
  let n := s.f (POS.PU_CFG.SPD_EDGES k)
  let j := min n (edges.length - 1)
  if n = 0 then setSpeed k (sx32 (← fresh))
  else if 0 < j then
    match edges[j]? with
    | some (t0, a0) =>
      let dt : Int := max 1 (t - t0)
      let x ← match s.puMode k with
        | 2 => ratio ((u.acc - a0) * (256 * 60 * 200000000)) (dt * s.puMod k * cnt)
        | 3 => if s.puLinear k then ratio (4 * j * 200000000) dt
               else ratio (256 * 60 * 800000000 * j) (s.f (POS.MODULUS.MOD k) * dt)
        | _ => ratio (256 * 60 * 200000000 * j) (6 * s.f (POS.HALL.PP k) * dt)
      setSpeed k (if s.puMode k = 2 then x else dir * x)
      if s.puMode k = 2 then updPu k fun r => { r with vel := (u.acc - a0) / dt }
      if s.puMode k = 4 then updPu k fun r => { r with vel := dir * (j * 2 ^ 64 / (6 * dt)) }
    | none => pure ()
  else
    setSpeed k 0
    updPu k fun r => { r with vel := 0 }
  let s ← getS
  if s.puState k = 2 then wf (POS.PU_STAT.SPD_VALID k) (b2n (s.spdValid k))

/-- Speed measurement restarts. -/
def restartSpeed (k : Nat) : M Unit := do
  updPu k fun r => { r with edges := [], vel := 0 }
  setSpeed k 0

/-- The direction of motion; a change of it restarts the speed (R271), the first direction after a restart does not. -/
def setDir (k : Nat) (dir : Int) : M Unit := do
  let old := ((← getS).pu k).dir
  if old ≠ dir then
    if old ≠ 0 then restartSpeed k
    updPu k fun r => { r with dir := dir }

/-- ZERO_SPEED_TIMEOUT: position clock `t` comes, which for a unit without a reference edge for ZERO_TIME means standstill (R259,
R271). -/
def zeroSpeed (k t : Nat) : M Unit := do
  let _ ← posTime k t

/-! ## Acquisition and latching -/

/-- The sector MAP assigns to a Hall state from 1 to 6 (R269). -/
def State.hallSector (s : State) (k h : Nat) : Nat := bitsOf (s.rd (POS.HALL k)) (34 - 3 * h) (32 - 3 * h)

/-- The angle of boundary `b`, as a position (R269). -/
def State.hallBound (s : State) (k : Nat) (b : Int) : Int := s.f (POS.HALL.OFFSET k) * 2 ^ 54 + b * 2 ^ 64 / 6

/-- A position with the angle `a`, unwrapped next to the position `near`. -/
def nearTo (near a : Int) : Int := near + modDiff (2 ^ 64) (a - near)

/-- A legal Hall state is adopted with POS at the centre of its sector, and speed measurement restarts (R259, R269). -/
def adoptSector (k new : Nat) : M Unit := do
  restartSpeed k
  updPu k fun r => { r with sector := some new, dir := 0, lim := none }
  let s ← getS
  jumpTo k (nearTo (s.pu k).acc (s.hallBound k new + 2 ^ 64 / 12))
  puValid k

/-- Whether a Hall state is legal (R269). -/
def State.hallLegal (s : State) (k h : Nat) : Bool := decide (0 < h) && decide (h < 7) && decide (s.hallSector k h < 6)

/-- ACQUIRE starts (R259): QUAD is VALID at once unless it waits for an index, HALL with a legal state at its inputs, OBSERVER with a
lock. -/
def acquire (k : Nat) : M Unit := do
  let now := (← hidden).pos.clk
  restartSpeed k
  updPu k fun r => { r with t := max r.t now, edgeAt := max r.t now }
  updPu k fun r => { r with lim := none, dir := 0, sector := none, ix := none, good := 0, word := none,
                            hasWord := false, late := [], spdOk := false, excOff := false }
  setPuState k 1 0
  let s ← getS
  let h := (s.pu k).hall
  let m := s.f (POS.MODULUS.ENG k)
  if s.puMode k = 3 ∧ s.f (POS.QUAD.INDEX_MODE k) < 2 then puValid k
  if s.puMode k = 4 ∧ s.hallLegal k h then adoptSector k (s.hallSector k h)
  if s.puMode k = 5 ∧ m < 2 ∧ s.f (POS.OBS_STAT.LOCKED m) = 1 then puValid k

/-- A write of PU_CFG writes a mode (R259). -/
def modeWritten (k : Nat) : M Unit := do
  let s ← getS
  if s.puMode k = 0 then
    restartSpeed k
    updPu k fun r => { r with lim := none, late := [], word := none }
    setPuState k 0 0
  else acquire k

/-- The freeze time of the next SSI word, or a dropped request (R265). -/
def ssiRequest (k t : Nat) : M Unit := do
  let s ← getS
  let u := s.pu k
  if u.word.isSome ∨ t < u.ckHigh then inc (POS.PU_STAT.REQ_DROP k)
  else
    let half := s.f (POS.SSI.DIV k) + 1
    let t0 := t + 1
    updPu k fun r => { r with word := some t0
                              ckHigh := t0 + s.f (POS.SSI.NBITS k) * 2 * half + half + s.f (POS.SSI.TM k) * 200 }

/-- POSITION_LATCH: trigger A or B of unit `k` latches POS, speed, STATE and SPD_VALID (R260); an SSI unit also
requests a word (R265). The answer tells a latch. -/
def positionLatch (k : Nat) (b : Bool) (t : Nat) : M Bool := do
  let s ← getS
  if s.f (if b then POS.PU_CFG.LATCH_B_EN k else POS.PU_CFG.LATCH_A_EN k) = 1 then
    let c ← posTime k t
    let n ← reportSpeed k c
    let s ← getS
    updPu k fun r => { r with latched := ⟨s.posn k, n, s.puState k, s.f (POS.PU_STAT.SPD_VALID k) == 1⟩ }
    if s.puMode k = 2 then ssiRequest k c
    return true
  else return false

/-! ## Resolvers -/

/-- Whether the excitation of interface `j` runs (R262): a lasting RES_EXC stops it until ACQUIRE starts again (DESIGN CHOICE, log
entry 15). -/
def State.excRuns (s : State) (j : Nat) : Bool :=
  s.puMode j == 1 && s.tbRuns (s.f (POS.RES_CFG.TB j)) && !(s.pu j).excOff && !s.lasting 102 j

/-- Whether the excitation is positive when its timebase's counter stands at `c` (R262): φ in the first half turn. -/
def State.excPositive (s : State) (j c : Nat) : Bool :=
  let p := s.tbP (s.f (POS.RES_CFG.TB j))
  let x := ((s.f (POS.RES_CFG.EXC_MULT j) + 1) * c * 65536 + s.f (POS.RES_CFG.EXC_PHASE j) * p) % (p * 65536)
  decide (0 < x) && decide (x < p * 32768)

/-- A position in turns of the electrical angle, as binary32. -/
def turnOf (acc : Int) : Fl := Fl.ofRat (acc % 2 ^ 64) (2 ^ 64)

/-- The error of the tracking loop (R264), in units of 2^-40: binary32 arithmetic, free where both signals are 0. -/
def resEps (sn cs : Int) (theta : Fl) : M Int := do
  if sn = 0 ∧ cs = 0 then return sx32 (← fresh)
  else
    let x := Fl.sub (Fl.mul (Fl.ofInt sn) (Fl.cosT theta)) (Fl.mul (Fl.ofInt cs) (Fl.sinT theta))
    let a := Fl.sqrt (Fl.ofInt (sn * sn + cs * cs))
    return Fl.nearest (Fl.mul (Fl.div x a) (Fl.ofInt (2 ^ 40)))

/-- RESOLVER_UPDATE: the cos result of interface `j` arrived at position clock `t`; the counter of TB stood at `c` at
the sampling instant (R263, R264). -/
def resolverUpdate (j t c : Nat) : M Unit := do
  let s ← getS
  if s.puMode j = 1 ∧ (s.puState j = 1 ∨ s.puState j = 2) then
    let _ ← posTime j t
    let s ← getS
    let u := s.pu j
    let a := s.f (POS.RES_SLOT.SIN_SLOT j)
    let b := s.f (POS.RES_SLOT.COS_SLOT j)
    let seen := u.cosSeen
    updPu j fun r => { r with cosSeen := s.slotStamp b }
    let tag (x : Nat) : Bool := s.slotBad x || s.slotRefBad x
    if tag a || tag b || decide (s.slotStamp a ≤ seen) then inc (POS.RES_STAT.SKIPPED j)
    else
      let sg : Int := if s.excPositive j c then 1 else -1
      let sn := sg * ((s.slotVal a : Int) - 0x8000)
      let cs := sg * ((s.slotVal b : Int) - 0x8000)
      let a2 := (sn * sn + cs * cs).toNat
      let amp := (Fl.nearest (Fl.sqrt (Fl.ofInt a2))).toNat
      wf (POS.RES_STAT.AMP j) amp
      if a2 < (8 * s.f (POS.RES_LIM.AMP_LO j)) ^ 2 ∨ (8 * s.f (POS.RES_LIM.AMP_HI j)) ^ 2 < a2 then
        inc (POS.RES_STAT.SKIPPED j)
        updPu j fun r => { r with good := 0 }
        puOccur 100 j
      else
        let theta := turnOf (u.acc - u.vel * s.f (POS.RES_SLOT.DELAY j))
        let eps ← resEps sn cs theta
        let kp : Int := s.f (POS.RES_TRK.KP_T j)
        let ki : Int := s.f (POS.RES_TRK.KI_T j)
        moveTo j (u.acc + kp * eps * 256)
        let vel := u.vel + ki * eps * 256000 / 200000000
        updPu j fun r => { r with vel := vel }
        setSpeed j (← ratio (vel * (256 * 60 * 200000000)) (2 ^ 64 * s.f (POS.RES_CFG.RES_PP j)))
        emuFollow j
        let thr := Fl.sinT (Fl.ofRat (s.f (POS.RES_LIM.TRK_THR j)) 3600)
        if Fl.lt thr (Fl.ofRat eps.natAbs (2 ^ 40)) then
          updPu j fun r => { r with good := 0 }
          puOccur 101 j
        else
          updPu j fun r => { r with good := min 64 (r.good + 1) }
          if 63 ≤ u.good then
            puValid j

/-- RES_EXC: an excitation overcurrent or following error (R262). -/
def resExc (j : Nat) : M Unit := do
  if (← getS).excRuns j then puOccur 102 j

/-! ## Serial encoders -/

/-- The number of a list of bits, first bit first. -/
def bitsNat (l : List Bool) : Nat := l.foldl (fun n b => 2 * n + b2n b) 0

/-- A Gray code decoded, first bit first. -/
def grayNat (l : List Bool) : Nat :=
  (l.foldl (fun (p : Nat × Bool) b => (2 * p.1 + b2n (p.2 != b), p.2 != b)) (0, false)).1

/-- The position of a word, or none where R266 discards it before the comparison with the extrapolation. -/
def State.ssiPos (s : State) (k : Nat) (x : SsiWord) : Option Nat :=
  let np := s.f (POS.SSI.NPOS k)
  let nb := s.f (POS.SSI.NBITS k)
  let bits := (List.range nb).map fun i => x.bits.getD i false
  let par := s.f (POS.SSI.PARITY k)
  let p := if par = 1 ∨ par = 2 then 1 else 0
  let status := (bits.drop np).take (nb - np - p)
  let ones := (bits.filter id).length
  let parBad : Bool := (par == 1 && ones % 2 != 0) || (par == 2 && ones % 2 != 1)
  let statBad : Bool := s.f (POS.SSI.STAT_ERR k) == 1 && status.any id
  if !x.idle || !x.running || parBad || statBad then none
  else some (if s.f (POS.SSI.GRAY k) = 1 then grayNat (bits.take np) else bitsNat (bits.take np))

/-- A discarded word (R266). -/
def ssiBad (k : Nat) : M Unit := do
  inc (POS.PU_STAT.ERRORS k)
  updPu k fun r => { r with good := 0 }
  puOccur 103 k

/-- A complete word with freeze time `t0` is judged, and a good one taken over (R266, R270). The direction of motion is that of the
change between words. -/
def ssiTaken (k t0 : Nat) (x : SsiWord) : M Unit := do
  let s ← getS
  let u := s.pu k
  let m := s.puMod k
  let ago : Int := (u.t - t0 : Nat)
  let near := (u.acc - u.vel * ago) / cnt
  match s.ssiPos k x with
  | some p =>
    if u.hasWord && decide (m < 16 * (modDiff m ((p : Int) - posOf (u.acc - u.vel * ago) m)).natAbs) then ssiBad k
    else
      -- the word's own position, unwrapped next to the extrapolation at its freeze time
      let p0 := (near + modDiff m ((p : Int) - near % m)) * cnt
      updPu k fun r => { r with acc := p0, hasWord := true, good := r.good + 1 }
      match u.edges with
      | (_, before) :: _ => if p0 ≠ before then setDir k (if before < p0 then 1 else -1)
      | [] => pure ()
      refEdge k t0 1
      let v := ((← getS).pu k).vel
      updPu k fun r => { r with acc := u.acc }
      moveTo k (p0 + v * ago)
      emuFollow k
      if 2 ≤ ((← getS).pu k).good then puValid k
  | none => ssiBad k

/-- SSI_WORD: the word in progress is complete (R265); a unit in FAULT takes none. -/
def ssiWord (k : Nat) (x : SsiWord) : M Unit := do
  let s ← getS
  match (s.pu k).word with
  | none => pure ()
  | some t0 =>
    let _ ← posTime k (t0 + (s.f (POS.SSI.NBITS k) + 1) * 2 * (s.f (POS.SSI.DIV k) + 1))
    updPu k fun r => { r with word := none }
    if s.puState k = 1 ∨ s.puState k = 2 then ssiTaken k t0 x

/-! ## Quadrature -/

/-- The place of a level pair in the forward sequence 00, 10, 11, 01 of A, B (R267). -/
def quadPlace (a b : Bool) : Nat := if a then (if b then 2 else 1) else (if b then 3 else 0)

/-- Whether the filter of a unit accepts a level seen in `n` consecutive samples (R261). -/
def State.filtered (s : State) (k n : Nat) : Bool := decide (s.f (POS.PU_CFG.FILT k) < n)

/-- QUAD_TRANSITION: new levels of A and B, first sampled in position clock `t` and standing for `n` samples (R261, R267). -/
def quadTransition (k : Nat) (a b : Bool) (n t : Nat) : M Unit := do
  let s ← getS
  let new := quadPlace a b
  if !s.filtered k n then pure ()
  else if s.puMode k = 3 ∧ (s.puState k = 1 ∨ s.puState k = 2) then
    let c ← posTime k t
    let s ← getS
    let u := s.pu k
    let d := (new + 4 - u.level) % 4
    updPu k fun r => { r with level := new }
    if d = 2 then
      inc (POS.PU_STAT.ERRORS k)
      puOccur 104 k
    else if d ≠ 0 then
      let dir : Int := if d = 1 then 1 else -1
      setDir k dir
      moveTo k (u.acc + dir * cnt)
      updPu k fun r => { r with steps := r.steps + dir }
      if a && !(u.level == 1 || u.level == 2) then refEdge k c dir
      emuFollow k
  else updPu k fun r => { r with level := new }

/-- QUAD_INDEX: a rising edge of IN2 in position clock `t`, its level standing for `n` samples (R261, R268). -/
def quadIndex (k n t : Nat) : M Unit := do
  let s ← getS
  if s.puMode k = 3 ∧ s.filtered k n ∧ (s.puState k = 1 ∨ s.puState k = 2) then
    let _ ← posTime k t
    let s ← getS
    let u := s.pu k
    let a : Bool := u.level == 1 || u.level == 2
    let b : Bool := u.level == 2 || u.level == 3
    let gate := s.f (POS.QUAD.INDEX_GATE k)
    let mode := s.f (POS.QUAD.INDEX_MODE k)
    let open_ : Bool := (!bit gate 0 || a) && (!bit gate 1 || b)
    if open_ ∧ mode ≠ 0 then
      let val : Int := s.f (POS.QUAD.INDEX_VAL k)
      updPu k fun r => { r with ix := some (u.steps, u.dir) }
      if mode = 3 ∨ (mode = 2 ∧ s.puState k = 1) then
        jumpTo k (val * cnt)
        puValid k
        emuFollow k
      else
        match u.ix with
        | some (n, dir) =>
          if s.f (POS.MODULUS.ROTARY k) = 1 ∧ dir = u.dir ∧ (u.steps - n).natAbs ≠ s.f (POS.MODULUS.MOD k) then
            inc (POS.PU_STAT.INDEX_ERR k)
            puOccur 105 k
        | none => pure ()

/-! ## Hall sensors -/

/-- An illegal Hall state or jump (R269). -/
def hallIllegal (k : Nat) : M Unit := do
  updPu k fun r => { r with sector := none, vel := 0, lim := none }
  inc (POS.PU_STAT.ERRORS k)
  puOccur 106 k

/-- A change of the Hall state of a unit that decodes it, at position clock `c` (R269). -/
def hallStep (k h c : Nat) : M Unit := do
  let s ← getS
  let u := s.pu k
  let new := s.hallSector k h
  if !s.hallLegal k h then hallIllegal k
  else
    match u.sector with
    | none => adoptSector k new
    | some old =>
      if new = old then pure ()
      else if new = (old + 1) % 6 ∨ old = (new + 1) % 6 then
        let fwd := decide (new = (old + 1) % 6)
        let dir : Int := if fwd then 1 else -1
        let b : Int := if fwd then new else old
        setDir k dir
        let a := nearTo u.acc (s.hallBound k b)
        moveTo k a
        updPu k fun r => { r with sector := some new }
        refEdge k c dir
        let ahead := nearTo (a + dir * (2 ^ 64 / 6)) (s.hallBound k (b + dir))
        updPu k fun r => { r with lim := some ahead }
      else hallIllegal k
  emuFollow k

/-- HALL_CHANGE: new levels of the Hall inputs, first sampled in position clock `t` and standing for `n` samples (R261, R269). -/
def hallChange (k h n t : Nat) : M Unit := do
  let s ← getS
  if s.filtered k n then
    if s.puMode k = 4 ∧ (s.puState k = 1 ∨ s.puState k = 2) then
      let c ← posTime k t
      updPu k fun r => { r with hall := h }
      hallStep k h c
    else updPu k fun r => { r with hall := h }

/-! ## Observers and writes -/

/-- The units that take their angle from the observer of engine `m` (R258, R259): its angle in turns, speed in units of
POS.SPEED, and lock. -/
def observerFeeds (m : Nat) (theta : Fl) (n : Int) (locked : Bool) : M Unit := do
  let s ← getS
  (List.range 6).forM fun k => do
    if s.puMode k = 5 ∧ s.f (POS.MODULUS.ENG k) = m ∧ (s.puState k = 1 ∨ s.puState k = 2) then
      if locked then
        puTime k s.hid.pos.clk
        let a : Int := Fl.floor (Fl.mul (Fl.frac theta) (Fl.ofInt (2 ^ 24)))
        moveTo k (((s.pu k).acc / cnt + modDiff (2 ^ 24) (a - s.posn k)) * cnt)
        setSpeed k n
        puValid k
        emuFollow k
      else if s.puState k = 2 then setPuState k 1 0

/-- A compare unit is armed (R273): in VALID it is judged now, in any other state when the unit becomes VALID. -/
def pcmpArm (k u : Nat) : M Unit := do
  updPu k fun r => { r with late := r.late.erase u }
  wf (POS.PCMP_STAT.ARMED k u) 1
  pcmpJudge k u

/-- Writing 1 to PU_STAT.FAULT restarts ACQUIRE (R259). -/
def puFaultClear (k : Nat) : M Unit := do
  if (← getS).puState k = 3 then acquire k

/-- Clearing PT_FAULT restarts the emulation at the present position (R277). -/
def ptFaultClear (k : Nat) : M Unit := do
  wf (POS.PU_STAT.PT_FAULT k) 0
  emuRestart k

end Sys2Proof.Machine
end

