-- ==== Sys2Proof/Machine/Field.lean ====
section
/-! DEFINITION. The traction field engines: inputs, observer and catch, torque, maps, current control, modulation,
post-fault reconfiguration, safe pattern (R210 to R238, R278 to R283, R377, R378). Arithmetic is binary32 in the order
in which the rules write it; sums run from left to right (DESIGN CHOICE, log entry 14). -/

namespace Sys2Proof.Machine

/-! ## Values -/

/-- A field as a binary32 number in units of `num` / `den`. -/
def State.fl (s : State) (x : FldAt) (num den : Nat) : Fl := Fl.ofRat (s.f x * num : Nat) den

/-- A 16-bit signed field as a binary32 number in units of 1 / `den`. -/
def State.fls (s : State) (x : FldAt) (den : Nat) : Fl := Fl.ofRat (sx16 (s.f x)) den

/-- Small constants. -/
def flN (n : Nat) : Fl := Fl.ofInt n

/-- 2π. -/
def twoPi : Fl := Fl.mul (flN 2) Fl.pi

/-- √3 / 2. -/
def root34 : Fl := Fl.div Fl.sqrt3 (flN 2)

/-- A value for a signed field in steps of 1/`k`; free where it is not a number. -/
def field (a : Fl) (k w : Nat) : M Nat := do
  if a = .nan then return (← fresh) % 2 ^ w else return a.toField k w

/-- A value for an unsigned field in steps of 1/`k`. -/
def ufield (a : Fl) (k w : Nat) : M Nat := do
  if a = .nan then return (← fresh) % 2 ^ w else return a.toUField k w

/-- The length of a vector. -/
def norm (a b : Fl) : Fl := ((a.mul a).add (b.mul b)).sqrt

/-- Map an angle in radians to −π to π. -/
def wrapPi (a : Fl) : Fl :=
  let t := (a.add Fl.pi).div twoPi
  a.sub ((Fl.ofInt t.floor).mul twoPi)

/-- The sum of a list, from the left. -/
def flSum : List Fl → Fl
  | [] => Fl.zero
  | a :: r => r.foldl Fl.add a

/-- Cosine and sine of an angle in turns. -/
def cs (t : Fl) : Fl × Fl := (t.cosT, t.sinT)

/-- Rotate a stationary vector into a frame at (cos, sin). -/
def rotIn (r : Fl × Fl) (a b : Fl) : Fl × Fl :=
  ((a.mul r.1).add (b.mul r.2), (b.mul r.1).sub (a.mul r.2))

/-- Rotate a vector of a frame at (cos, sin) back. -/
def rotOut (r : Fl × Fl) (d q : Fl) : Fl × Fl :=
  ((d.mul r.1).sub (q.mul r.2), (d.mul r.2).add (q.mul r.1))

/-- Column k of M (R215): α, β, x, y of phase k. -/
def mCol : Nat → List Fl
  | 0 => [flN 1, Fl.zero, flN 1, Fl.zero]
  | 1 => [Fl.ofRat (-1) 2, root34, Fl.ofRat (-1) 2, root34.neg]
  | 2 => [Fl.ofRat (-1) 2, root34.neg, Fl.ofRat (-1) 2, root34]
  | 3 => [root34, Fl.ofRat 1 2, root34.neg, Fl.ofRat 1 2]
  | 4 => [root34.neg, Fl.ofRat 1 2, root34, Fl.ofRat 1 2]
  | _ => [Fl.zero, flN 1 |>.neg, Fl.zero, (flN 1).neg]

/-- The products of two lists, summed from the left. -/
def dot (a b : List Fl) : Fl := flSum (List.zipWith Fl.mul a b)

/-- Row `r` of (1/3) × M × the phase values (R215). -/
def vsd (i : List Fl) (r : Nat) : Fl :=
  (dot ((List.range 6).map fun k => (mCol k).getD r Fl.zero) i).div (flN 3)

/-- The phase values M^T × (α, β, x, y). -/
def phases (a b x y : Fl) : List Fl := (List.range 6).map fun k => dot (mCol k) [a, b, x, y]

/-! ## Engine records and inputs -/

/-- One engine's record. -/
def State.eng (s : State) (m : Nat) : FldEng := mget {} s.hid.fld.eng m

/-- The voltage references that applied in the window before the one the engine last evaluated in, as committed two windows before
that one or earlier (R232, R278): phase values, α, β. -/
def FldEng.applied (e : FldEng) : List Fl × Fl × Fl :=
  match e.volts.find? fun x => decide (x.1 + 2 ≤ e.win) with
  | some x => x.2
  | none => ([], Fl.zero, Fl.zero)

/-- Update an engine's record. -/
def updEng (m : Nat) (f : FldEng → FldEng) : M Unit :=
  hid fun h => { h with fld := { h.fld with eng := mupd {} h.fld.eng m f } }

/-- The group of a traction engine that may evaluate: EN, OWNER, ARMED or RUNNING (R210). -/
def State.fldGroup (s : State) (m : Nat) : Option Nat :=
  let g := s.f (FLD.MCH_CFG.GROUP m)
  if s.f (FLD.MCH_CFG.EN m) = 1 ∧ s.owner g = 1 + m ∧ s.active g then some g else none

/-- The current slots, in the order a1, b1, c1, a2, b2, c2 (R211). -/
def State.fldSlots (s : State) (m : Nat) : List Nat :=
  [s.f (FLD.IN_SLOT0.A1 m), s.f (FLD.IN_SLOT0.B1 m), s.f (FLD.IN_SLOT0.C1 m), s.f (FLD.IN_SLOT0.A2 m),
   s.f (FLD.IN_SLOT1.B2 m), s.f (FLD.IN_SLOT1.C2 m)]

/-- The code of a slot's latest result, if it came after the result numbered `since` and carries no tag that makes it
unusable (R212). -/
def State.codeSince (s : State) (r since : Nat) : Option Nat :=
  if since < s.slotStamp r ∧ !s.slotBad r ∧ !s.slotRefBad r then some (s.slotVal r) else none

/-- The currents, none where unusable (R212, R213). -/
def State.fldCurrents (s : State) (m since : Nat) : List (Option Fl) :=
  (s.fldSlots m).map fun r => (s.codeSince r since).map fun c =>
    (Fl.ofInt ((c : Int) - s.f (FLD.I_SCALE.I_OFFSET m))).mul (s.fls (FLD.I_SCALE.I_GAIN m) 8192)

/-- Whether one of some slots has received a result after the one numbered `since` (R211). -/
def State.anySince (s : State) (slots : List Nat) (since : Nat) : Bool := slots.any fun r => decide (since < s.slotStamp r)

/-- A link voltage (R213) from the latest usable result after the result numbered `since`. -/
def State.fldVolt (s : State) (m r since : Nat) : Option Fl :=
  (s.usable r since).map fun c =>
    (Fl.ofInt ((c : Int) - s.f (FLD.V_SCALE.V_OFFSET m))).mul (s.fls (FLD.V_SCALE.V_GAIN m) 8192)

/-- The three currents of a set with one unusable one reconstructed, and how many were; none for two or more (R212). -/
def fillSet : List (Option Fl) → Option (List Fl × Nat)
  | [some a, some b, some c] => some ([a, b, c], 0)
  | [none, some b, some c] => some ([(b.add c).neg, b, c], 1)
  | [some a, none, some c] => some ([a, (a.add c).neg, c], 1)
  | [some a, some b, none] => some ([a, b, (a.add b).neg], 1)
  | _ => none

/-- The window length of a group's timebase in seconds (R214). -/
def State.winSec (s : State) (g : Nat) : Fl := Fl.ofRat (s.winLen (s.grpTb g)) 400000000

/-- The mechanical angle of a latched pair in turns (R258). -/
def State.mechTurn (s : State) (k : Nat) : Fl :=
  let pps := match s.puMode k with
    | 1 => s.f (POS.RES_CFG.RES_PP k)
    | 4 => s.f (POS.HALL.PP k)
    | _ => 1
  Fl.ofRat (s.pu k).latched.pos (s.puMod k * pps)

/-! ## Observer (R278, R279) -/

/-- The line voltages as α and β (R278). -/
def State.lineAb (s : State) (m : Nat) : Fl × Fl :=
  let v (r : Nat) : Fl :=
    (Fl.ofInt (((s.usable r 0).getD 0 : Int) - 0x8000)).mul (s.fls (POS.OBS_CATCH.VL_GAIN m) 8192)
  let ab := v (s.f (POS.OBS_CATCH.VAB_SLOT m))
  let bc := v (s.f (POS.OBS_CATCH.VBC_SLOT m))
  ((((flN 2).mul ab).add bc).div (flN 3), bc.div Fl.sqrt3)

/-- One step of the observer: voltages and currents in α, β; `induced` for the form a catch uses (R278, R282). The
answer is the new record and the residual. -/
def State.obsStep (s : State) (m : Nat) (o : Obs) (tw va vb ia ib : Fl) (induced : Bool) : Obs × Fl :=
  let rs := s.fl (POS.OBS_MOTOR.RS m) 1 100000
  let lq := s.fl (FLD.MOTOR0.LQ m) 1 100000000
  let ld := s.fl (FLD.MOTOR0.LD m) 1 100000000
  let pm := s.fl (FLD.MOTOR1.PSI_PM m) 1 100000
  let gc := s.fl (POS.OBS_MOTOR.G_C m) 1 65536
  let r := cs (o.theta.div twoPi)
  let dq := rotIn r ia ib
  let mab := rotOut r ((ld.mul dq.1).add pm) (lq.mul dq.2)
  let turns : Fl := if o.omega.isNeg then Fl.pi else Fl.zero
  let flux (p v i mo : Fl) : Fl :=
    let p1 := p.add (tw.mul (v.sub (rs.mul i)))
    p1.add (gc.mul (mo.sub p1))
  let pa := flux o.psiA va ia mab.1
  let pb := flux o.psiB vb ib mab.2
  let emf (v i p : Fl) : Fl := (v.sub (rs.mul i)).sub ((lq.mul (i.sub p)).div tw)
  let ea := if induced then va else emf va ia o.ia
  let eb := if induced then vb else emf vb ib o.ib
  let useFlux : Bool := !induced && s.f (POS.OBS_CFG.KIND m) == 0
  let raw : Fl :=
    if useFlux then Fl.atan2 (pb.sub (lq.mul ib)) (pa.sub (lq.mul ia))
    else (Fl.atan2 ea.neg eb).add turns
  let pred := o.theta.add (o.omega.mul tw)
  let err := wrapPi (raw.sub pred)
  let theta := wrapPi (pred.add ((s.fl (POS.OBS_GAIN.KP_O m) 1 65536).mul err))
  let omega := o.omega.add ((s.fl (POS.OBS_GAIN.KI_O m) 1 1).mul err)
  let n := ((flN 60).mul omega).div (twoPi.mul (s.fl (FLD.MCH_CFG.POLE_PAIRS m) 1 1))
  ({ o with psiA := if useFlux then pa else o.psiA, psiB := if useFlux then pb else o.psiB
            ia := ia, ib := ib, theta := theta, omega := omega, n := n }, err.abs)

/-- POS_SOURCE (R279, R280, R282): engine, kind (0 lock, 1 loss, 2 switch, 3 caught, 4 catch failed), how a catch
failed (1 standstill, 2 no lock, 3 overspeed), r and n_obs. -/
def sourceEvent (m kind how : Nat) : M Unit := do
  let s ← getS
  eventDev 0x802C (by1 [m, kind, how, 0] ++ leBytes 4 (s.f (POS.OBS_STAT.RESID m)) ++
    leBytes 4 (s.rd (POS.OBS_SPEED m)).toNat)

/-- Run the observer in an evaluation that is not held (R278, R279); the answer tells a lock loss. -/
def runObserver (m : Nat) (tw va vb ia ib : Fl) (induced : Bool) : M Bool := do
  let s ← getS
  let (o, r) := s.obsStep m (s.eng m).obs tw va vb ia ib induced
  let resid ← ufield (r.mul (Fl.ofRat 18000 1 |>.div Fl.pi)) 1 16
  wf (POS.OBS_STAT.RESID m) resid
  let nq ← field o.n 256 32
  wr (POS.OBS_SPEED m) (BitVec.ofNat 32 nq)
  let thr := (s.fl (POS.OBS_CFG.LOCK_THR m) 1 10).mul (Fl.pi.div (flN 180))
  let high : Bool := thr.lt r || o.n.abs.lt (s.fl (POS.OBS_LIM.MIN_RPM m) 10 1) || decide (r = .nan)
  let o := { o with high := if high then o.high + 1 else 0, low := if high then 0 else o.low + 1 }
  updEng m fun e => { e with obs := o }
  if s.f (POS.OBS_STAT.LOCKED m) = 0 ∧ !high ∧ s.f (POS.OBS_CFG.LOCK_N m) ≤ o.low then
    wf (POS.OBS_STAT.LOCKED m) 1
    sourceEvent m 0 0
  let lost : Bool := s.f (POS.OBS_STAT.LOCKED m) == 1 && high && decide (s.f (POS.OBS_CFG.LOSS_N m) ≤ o.high)
  if lost then
    wf (POS.OBS_STAT.LOCKED m) 0
    inc (POS.OBS_STAT.LOSSES m)
    occur 108 (s.f (FLD.MCH_CFG.PU m)) 0
    sourceEvent m 1 0
  let s ← getS
  observerFeeds m (o.theta.div twoPi) (sx32 nq) (s.f (POS.OBS_STAT.LOCKED m) == 1)
  return lost

/-! ## Torque (R219 to R222) -/

/-- The safe torque limit on a machine group, 0.1 N·m (R378, R380). -/
def State.stlOf (s : State) (g : Nat) : Option Nat :=
  if s.funcActive 6 ∧ (s.func 6).grps.contains g then some 0
  else if s.f (SAF.FUNC_CFG.EN 3) = 1 ∧ (s.funcMask 3).contains g then
    if s.hid.saf.stlLim ≠ 0xFFFF then some s.hid.saf.stlLim
    else if s.funcActive 3 ∧ s.f (SAF.STL.STL_CFG) ≠ 0xFFFF then some (s.f SAF.STL.STL_CFG) else none
  else none

/-- What the torque chain answers: the ramped torque, the torque applied, LIMIT. -/
structure TqOut where
  tq : Fl
  limit : Nat
  deriving DecidableEq, Repr

/-- Reduce a magnitude to a limit, noting which clamp did (R221). -/
def tqClamp (x : Fl × Nat) (lim : Fl) (code : Nat) : Fl × Nat := if lim.lt x.1 then (lim.max Fl.zero, code) else x

/-- The torque of an evaluation (R220, R221) with speed `n` in rpm, `base` the mode whose equations run. -/
def State.torque (s : State) (m g : Nat) (n : Fl) (base : Nat) : TqOut :=
  let e := s.eng m
  let req := Fl.ofRat (sx32 (s.rd (FLD.TQ_REQ m)).toNat) 256
  let slew := s.fl (FLD.TQ_SLEW.SLEW m) 1 10
  let ramp : Fl :=
    if s.f (FLD.TQ_SLEW.SLEW m) = 0 then req
    else if (e.ramp.add slew).lt req then e.ramp.add slew
    else if req.lt (e.ramp.sub slew) then e.ramp.sub slew else req
  let ten : Fl := flN 10
  let gen : Bool := ten.le n.abs && ((ramp.isNeg && Fl.zero.lt n) || (Fl.zero.lt ramp && n.isNeg))
  let f : Fl := if base = 1 then s.fl (FLD.POSTFAULT.FIVE_FRAC m) 1 1000
                else if base = 2 then s.fl (FLD.POSTFAULT.ONE_FRAC m) 1 1000 else flN 1
  let wm := (twoPi.mul n.abs).div (flN 60)
  let w := wm.max (Fl.ofRat 5236 100)
  let l1 := f.mul (s.fl (FLD.RATING.T_MAX m) 1 10)
  let l2 := if gen then s.fl (FLD.TQ_LIM.T_LIM_GEN m) 1 10 else s.fl (FLD.TQ_LIM.T_LIM_MOT m) 1 10
  let l3 := (if gen then s.fl (FLD.P_LIM.P_LIM_GEN m) 100 1 else s.fl (FLD.P_LIM.P_LIM_MOT m) 100 1).div w
  let k := s.fl (FLD.DERATE.K m) 1 1000
  let l4 := k.mul ((l1.min l2).min l3)
  let x := tqClamp (ramp.abs, 0) l1 1
  let x := tqClamp x l2 (if gen then 3 else 2)
  let x := tqClamp x l3 (if gen then 5 else 4)
  let x := tqClamp x l4 6
  let x := match s.stlOf g with
    | some l => tqClamp x (Fl.ofRat l 10) 7
    | none => x
  let x := if gen && s.f (FLD.MCH_STAT.REGEN_CLAMP m) == 1 then tqClamp x Fl.zero 8 else x
  let ss1 : Bool := (s.grp g).ss1.isSome || s.f (FLD.MCH_STAT.MODE m) == 3
  let x := if ss1 then tqClamp x ((e.tq.abs.sub (s.fl (FLD.TQ_SLEW.SS1_SLEW m) 1 10)).max Fl.zero) 9 else x
  ⟨if ramp.isNeg then x.1.neg else x.1, x.2⟩

/-! ## Maps and references (R223 to R225, R235) -/

/-- One value of a map entry, in A. -/
def State.mapVal (s : State) (tbl f t o : Nat) : Fl := Fl.ofRat (sx16 (s.tn tbl (8 * (128 * f + t) + 2 * o) 2)) 16

/-- A map index clamped to 0 to 127: its whole part and its fraction (R224). -/
def mapIndex (x : Fl) : Nat × Fl :=
  let c := Fl.clamp Fl.zero (flN 127) x
  let n := c.floor.toNat
  (n, if n = 127 then Fl.zero else c.sub (flN n))

/-- The four interpolated values ID1, IQ1, ID2, IQ2 (R224). -/
def State.mapRead (s : State) (m : Nat) (tq psi : Fl) : List Fl :=
  let tbl := 0x10 + 2 * m + s.f (FLD.MCH_STAT.BANK m)
  let lo := s.fl (FLD.MAP_PSI.PSI_MIN m) 1 100000
  let hi := s.fl (FLD.MAP_PSI.PSI_MAX m) 1 100000
  let (t0, a) := mapIndex ((tq.abs.mul (flN 127)).div (s.fl (FLD.RATING.T_MAX m) 1 10))
  let (f0, b) := mapIndex (((psi.sub lo).mul (flN 127)).div (hi.sub lo))
  let t1 := min 127 (t0 + 1)
  let f1 := min 127 (f0 + 1)
  let one := flN 1
  (List.range 4).map fun o =>
    flSum [((one.sub a).mul (one.sub b)).mul (s.mapVal tbl f0 t0 o), (a.mul (one.sub b)).mul (s.mapVal tbl f0 t1 o),
           ((one.sub a).mul b).mul (s.mapVal tbl f1 t0 o), (a.mul b).mul (s.mapVal tbl f1 t1 o)]

/-- Scale a vector back to a length. -/
def scaleTo (a b lim : Fl) : Fl × Fl × Bool :=
  let l := norm a b
  if lim.lt l then (a.mul (lim.div l), b.mul (lim.div l), true) else (a, b, false)

/-- The references d*, q*, x′*, y′* in the mode `base` (R224, R235). -/
def State.references (s : State) (m base : Nat) (r : Fl × Fl) (tq psi : Fl) : List Fl :=
  let v := s.mapRead m tq psi
  let g (o : Nat) : Fl := v.getD o Fl.zero
  let sg (x : Fl) : Fl := if tq.isNeg then x.neg else x
  let lim := s.fl (FLD.RATING.I_SET_MAX m) 1 16
  let two := flN 2
  if base = 2 then
    let c := scaleTo ((g 0).add (g 2)) (sg ((g 1).add (g 3))) lim
    let z := Fl.zero
    let (d1, q1, d2, q2) := if s.f (FLD.MCH_STAT.DEAD_SET m) = 0 then (z, z, c.1, c.2.1) else (c.1, c.2.1, z, z)
    [(d1.add d2).div two, (q1.add q2).div two, (d1.sub d2).div two, ((q1.sub q2).div two).neg]
  else
    let (d1, q1, _) := scaleTo (g 0) (sg (g 1)) lim
    let (d2, q2, _) := scaleTo (g 2) (sg (g 3)) lim
    let d := (d1.add d2).div two
    let q := (q1.add q2).div two
    if base = 1 then
      let c := mCol (s.f (FLD.MCH_STAT.FAULT_PHASE m))
      let ab := rotOut r d q
      let k := (((c.getD 0 Fl.zero).mul ab.1).add ((c.getD 1 Fl.zero).mul ab.2)).neg
      let x := k.mul (c.getD 2 Fl.zero)
      let y := k.mul (c.getD 3 Fl.zero)
      [d, q, (x.mul r.1).sub (y.mul r.2), (x.mul r.2).add (y.mul r.1)]
    else [d, q, (d1.sub d2).div two, ((q1.sub q2).div two).neg]

/-- Rotate the anti-synchronous pair back (R216). -/
def xyOut (r : Fl × Fl) (x y : Fl) : Fl × Fl := ((x.mul r.1).add (y.mul r.2), (y.mul r.1).sub (x.mul r.2))

/-! ## Detection (R232 to R234) -/

/-- What a detection does (R234): the new mode, or a safe stop, or the machine safe state. -/
inductive Reaction where
  | none
  | five (k : Nat)
  | oneSet (dead : Nat)
  | ss1
  | safe
  deriving DecidableEq, Repr

/-- The reaction of R234 to newly open phases and failed sets, `slow` telling whether the speed allows ONE_SET. -/
def reaction (mode base phase dead : Nat) (opens senses : List Nat) (slow : Bool) : Reaction :=
  let sets := (opens.map (· / 3) ++ senses).dedup
  if sets.isEmpty then .none
  else
    let one (d : Nat) : Reaction := if slow then .oneSet d else .ss1
    if mode = 3 then (if (senses.filter fun x => base != 2 || x != dead).isEmpty then .none else .safe)
    else if base = 2 then (if sets.any fun x => x != dead then .safe else .none)
    else if base = 1 then (if sets.any fun x => x != phase / 3 then .ss1 else one (phase / 3))
    else if senses.length = 2 then .safe
    else match opens, senses with
      | [k], [] => .five k
      | [], [d] => one d
      | [k], [d] => if k / 3 = d then one d else .ss1
      | _, _ => .ss1

/-- FLD_MODE (R234): engine, old mode, new mode, phase or set, cause (the ledger source). -/
def modeEvent (m old new what cause : Nat) : M Unit := eventDev 0x8026 (by1 [m, old, new, what, cause])

/-- Take a reaction (R234). -/
def takeReaction (m g : Nat) (r : Reaction) (opens senses : List Nat) : M Unit := do
  let s ← getS
  let old := s.f (FLD.MCH_STAT.MODE m)
  let what := opens.headD (senses.headD 7)
  let cause := if opens.isEmpty then 82 else 81
  match r with
  | .none => if !(opens.isEmpty && senses.isEmpty) then modeEvent m old old what cause
  | .five k =>
    updEng m fun e => { e with base := 1 }
    wf (FLD.MCH_STAT.MODE m) 1
    wf (FLD.MCH_STAT.FAULT_PHASE m) k
    modeEvent m old 1 k cause
  | .oneSet d =>
    updEng m fun e => { e with base := 2 }
    wf (FLD.MCH_STAT.MODE m) 2
    wf (FLD.MCH_STAT.DEAD_SET m) d
    modeEvent m old 2 d cause
  | .ss1 =>
    wf (FLD.MCH_STAT.MODE m) 3
    modeEvent m old 3 what cause
    occur 83 g 0
    startSs1 g cause
  | .safe =>
    modeEvent m old old what cause
    occur 83 g 0
    forceAct g 8 cause

/-- The detection counts of an evaluation and what they complete: newly open phases and failed sets (R232, R233). -/
def State.detect (s : State) (m : Nat) (cur : List Fl) (measured : List Bool) (refs : List Fl) :
    List Nat × List Nat × List Nat × List Nat :=
  let e := s.eng m
  let oi := s.fl (FLD.FAULT_CFG.OPEN_I m) 1 1
  let ov := s.fl (FLD.FAULT_CFG.OPEN_V m) 2 1
  let st := s.fl (FLD.FAULT_CFG.SUM_THR m) 2 1
  let dead (set : Nat) : Bool := e.base == 2 && s.f (FLD.MCH_STAT.DEAD_SET m) == set
  let vp := e.applied.1
  let z := Fl.zero
  let openN := (List.range 6).map fun k =>
    let n := e.openN.getD k 0
    if !measured.getD k false || dead (k / 3) then n
    else if (cur.getD k z).abs.le oi && ((flN 4).mul oi).le (refs.getD k z).abs && ov.le (vp.getD k z).abs then n + 1
    else 0
  let sumN := (List.range 2).map fun w =>
    let n := e.sumN.getD w 0
    if dead w || !((List.range 3).all fun j => measured.getD (3 * w + j) false) then n
    else if st.lt (flSum ((List.range 3).map fun j => cur.getD (3 * w + j) z)).abs then n + 1 else 0
  let opens := (List.range 6).filter fun k => decide (3 ≤ openN.getD k 0) && !e.found.contains k
  let senses := (List.range 2).filter fun w => decide (2 ≤ sumN.getD w 0) && !e.found.contains (6 + w)
  (openN, sumN, opens, senses)

/-! ## Modulation (R228 to R231) -/

/-- The largest and the smallest of a list. -/
def flMax (l : List Fl) : Fl := match l with
  | [] => Fl.zero
  | a :: r => r.foldl Fl.max a

def flMin (l : List Fl) : Fl := match l with
  | [] => Fl.zero
  | a :: r => r.foldl Fl.min a

/-- The modulation of one set: the final values, z_np, and whether one was clamped (R228, R229). -/
def State.modulate (s : State) (m : Nat) (v i : List Fl) (vdc dv : Fl) : List Fl × Fl × Bool :=
  let mm := v.map fun x => x.div (vdc.div (flN 2))
  let z1 := ((flMax mm).add (flMin mm)).neg.div (flN 2)
  let m1 := mm.map fun x => x.add z1
  let f := m1.map fun x => (x.add (flN 1)).frac
  let z2 := (Fl.ofRat 1 2).sub (((flMax f).add (flMin f)).div (flN 2))
  let m2 := m1.map fun x => x.add z2
  let mx := s.fl (FLD.MOD.MOD_MAX m) 1 1000
  let sum := flSum (List.zipWith (fun a b => a.sign.mul b) m2 i)
  let sg := if sum.abs.lt ((flN 2).mul (s.fl (FLD.FAULT_CFG.OPEN_I m) 1 1)) then Fl.zero else sum.sign
  let zm := s.fl (FLD.NP.Z_NP_MAX m) 1 1000
  let z := Fl.clamp zm.neg zm (((s.fl (FLD.NP.K_NP m) 1 10000).mul dv).mul sg)
  let room : Fl :=
    (flMin (m2.map fun x => if z.isNeg then mx.add x else mx.sub x)).max Fl.zero
  let z := if room.lt z.abs then (if z.isNeg then room.neg else room) else z
  let m3 := m2.map fun x => x.add z
  (m3.map fun x => Fl.clamp mx.neg mx x, z, m3.any fun x => mx.lt x.abs)

/-- The edges of the switches of a leg, T1 to T4 (R230): `h` fine units of half-length, positive pair or negative. -/
def legEdges (p gap h : Nat) (pos zeroPulse : Bool) : List (Nat × Nat) :=
  let nv := never.toNat
  let c : Int := 32 * p
  let n (x : Int) : Nat := x.toNat
  let pulse : Nat × Nat := if zeroPulse then (nv, n c) else (n (c - h), n (c + h))
  let comp : Nat × Nat := if zeroPulse then (n (c + 64 * gap), nv) else (n (c + h + 64 * gap), n (c - h - 64 * gap))
  if pos then [pulse, (0, nv), comp, (nv, n c)] else [(nv, n c), comp, (0, nv), pulse]

/-- The channel of a switch of a leg of a group. -/
def State.legChan (s : State) (g leg sw : Nat) : Option Nat :=
  (s.chans g).find? fun c => s.chLeg c == leg && s.chSwitch c == sw

/-- Post the edges of a leg. -/
def postLeg (g leg : Nat) (es : List (Nat × Nat)) : M Unit := do
  let s ← getS
  (es.zip (List.range 4)).forM fun x =>
    match s.legChan g leg x.2 with
    | some c => postEdges c (BitVec.ofNat 32 x.1.1) (BitVec.ofNat 32 x.1.2)
    | none => pure ()

/-- Post one leg with modulation `x` (R230, R231), held off or not; the answer is the sign of the pair it posts, as the leg and whether
the sign is positive. A leg without a sign in force takes any. -/
def modulateLeg (m g leg : Nat) (x : Fl) (off : Bool) : M (Option (Nat × Bool)) := do
  let s ← getS
  let t := s.grpTb g
  let p := s.tbP t
  let toB := s.tbDouble t && s.f (PLS.TB_COUNT.WINDOW t) == 0
  if off then
    postLeg g leg (List.replicate 4 (never.toNat, if toB then 32 * p else 0))
    return none
  else
    let want := !x.isNeg
    let was := (sget? (s.eng m).pos leg).getD want
    let h ← ufield ((x.abs.mul (flN 32)).mul (flN p)) 1 30
    let short := decide (h < 32 * s.f (FLD.MOD.MIN_PULSE m))
    let gap := s.f (FLD.MOD.GAP m)
    if toB ∧ want ≠ was then
      inc (FLD.CNT1.SIGN_DEFER m)
      postLeg g leg (legEdges p gap 0 was true)
      return some (leg, was)
    else
      postLeg g leg (legEdges p gap h want short)
      return some (leg, want)

/-- The COMMIT token of an evaluation that posted: taken, its voltages and signs are those of the window after (R231, R232). -/
def commitDuties (m g : Nat) (v : List Fl) (ab : Fl × Fl) (signs : List (Option (Nat × Bool))) : M Unit := do
  if ← loopCommit g then
    updEng m fun e => { e with volts := (e.win, v, ab) :: e.volts.take 2
                               pos := signs.reduceOption.foldl (fun l x => sput l x.1 x.2) e.pos }

/-! ## Monitors of CD0 (R377, R378) -/

/-- After each evaluation CD0 checks the safe-stop-1 ramp and the safe torque limit. -/
def torqueMonitors (m g : Nat) : M Unit := do
  let s ← getS
  let out := (sx32 (s.rd (FLD.TQ_OUT m)).toNat).natAbs
  let margin := s.f SAF.STL.STL_MARGIN
  match (s.grp g).ss1 with
  | some r =>
    let above : Bool := match r.prev with
      | some p => decide ((p * 10 + margin * 256) < out * 10)
      | none => false
    if above then
      ss1Sto g 167
      occur 167 g 0
    else if out = 0 then ss1Sto g 0x8035
    else updGrp g fun x => { x with ss1 := some { r with prev := some out } }
  | none => pure ()
  let s ← getS
  match s.stlOf g with
  | some l =>
    if (l + margin) * 256 < out * 10 then
      let n := (s.eng m).stlN + 1
      updEng m fun e => { e with stlN := n }
      if 2 ≤ n ∧ s.active g then
        momentary 1 (0x30000 + g) [g] 167
        occur 167 g 0
    else updEng m fun e => { e with stlN := 0 }
  | none => updEng m fun e => { e with stlN := 0 }

/-! ## Current control and the evaluation -/

/-- The latched safe pattern follows the speed (R237). -/
def updatePattern (m g : Nat) (n : Fl) (valid : Bool) : M Unit := do
  let s ← getS
  if valid then
    if (s.fl (FLD.ASC_CFG.ON_RPM m) 1 1).le n.abs then
      updGrp g fun r => { r with asc := true }
      wf (FLD.MCH_STAT.PATTERN_ASC m) 1
    else if n.abs.le (s.fl (FLD.ASC_CFG.OFF_RPM m) 1 1) then
      updGrp g fun r => { r with asc := false }
      wf (FLD.MCH_STAT.PATTERN_ASC m) 0

/-- A held evaluation (R212): the shadows are committed again, unless a catch posts nothing. -/
def heldEvaluation (m g : Nat) : M Unit := do
  let s ← getS
  inc (FLD.CNT0.HOLDS m)
  if s.f (POS.OBS_STAT.CATCH m) ≠ 1 ∧ s.f (POS.OBS_STAT.CATCH m) ≠ 3 then
    let _ ← loopCommit g
  occur 80 g (FLD.CNT0 m)

/-- One integrator after the voltage limit (R218): an increment on a scaled vector with the sign of its own axis
voltage is dropped. -/
def integrator (i k e v : Fl) (scaled : Bool) : Fl :=
  let d := k.mul e
  if scaled && d.sign == v.sign && !d.isZero then i else i.add d

/-- What the current control of an evaluation answers (R217, R218): currents and voltages in the rotor frame, whether a voltage
was limited, and the engine's record after it. -/
structure DqControl where
  d : Fl
  q : Fl
  vd : Fl
  vq : Fl
  vx : Fl
  vy : Fl
  limited : Bool
  next : FldEng

/-- The current control of an evaluation (R217, R218). -/
def State.dqControl (s : State) (m : Nat) (refs cur : List Fl) (theta we vdc : Fl) : DqControl :=
  let e := s.eng m
  let z := Fl.zero
  let r := cs theta
  let (d, q) := rotIn r (vsd cur 0) (vsd cur 1)
  let x := ((vsd cur 2).mul r.1).sub ((vsd cur 3).mul r.2)
  let y := ((vsd cur 2).mul r.2).add ((vsd cur 3).mul r.1)
  let kpd := s.fl (FLD.KP.KP_D m) 1 1000
  let kpq := s.fl (FLD.KP.KP_Q m) 1 1000
  let kpx := s.fl (FLD.KXY.KP_XY m) 1 1000
  let ld := s.fl (FLD.MOTOR0.LD m) 1 100000000
  let lq := s.fl (FLD.MOTOR0.LQ m) 1 100000000
  let lxy := s.fl (FLD.MOTOR1.LXY m) 1 100000000
  let pm := s.fl (FLD.MOTOR1.PSI_PM m) 1 100000
  let ed := (refs.getD 0 z).sub d
  let vd := ((kpd.mul ed).add e.intD).sub ((we.mul lq).mul q)
  let eq := (refs.getD 1 z).sub q
  let vq := ((kpq.mul eq).add e.intQ).add (we.mul ((ld.mul d).add pm))
  let ex := (refs.getD 2 z).sub x
  let vx := ((kpx.mul ex).add e.intX).add ((we.mul lxy).mul y)
  let ey := (refs.getD 3 z).sub y
  let vy := ((kpx.mul ey).add e.intY).sub ((we.mul lxy).mul x)
  let vlim := ((s.fl (FLD.MOD.MOD_MAX m) 1 1000).mul vdc).div Fl.sqrt3
  let (vx1, vy1, sxy) := scaleTo vx vy ((s.fl (FLD.FW.XY_VLIM m) 1 1000).mul vlim)
  let (vd1, vq1, sdq) := scaleTo vd vq (vlim.sub (norm vx1 vy1))
  let kid := s.fl (FLD.KI.KI_D m) 1 1000000
  let kiq := s.fl (FLD.KI.KI_Q m) 1 1000000
  let kix := s.fl (FLD.KXY.KI_XY m) 1 1000000
  { d := d, q := q, vd := vd1, vq := vq1, vx := vx1, vy := vy1, limited := sxy || sdq
    next := { e with
      intD := integrator e.intD kid ed vd sdq, intQ := integrator e.intQ kiq eq vq sdq
      intX := integrator e.intX kix ex vx sxy, intY := integrator e.intY kix ey vy sxy
      vReq := norm vd vq, vXy := norm vx1 vy1 } }

/-- The voltages go back to the phases with the modulation angle and are posted (R214, R216, R228 to R231). -/
def postVoltages (m g : Nat) (c : DqControl) (cur : List Fl) (theta we vdc dv : Fl) : M Unit := do
  let s ← getS
  let adv := s.fl (FLD.ANGLE.ADV m) 1 64
  let rm := cs ((theta.add (((we.mul adv).mul (s.winSec g)).div twoPi)).frac)
  let ab := rotOut rm c.vd c.vq
  let xy := xyOut rm c.vx c.vy
  let v := phases ab.1 ab.2 xy.1 xy.2
  let base := (s.eng m).base
  let dead (w : Nat) : Bool := base == 2 && s.f (FLD.MCH_STAT.DEAD_SET m) == w
  let (m1, z1, c1) := s.modulate m (v.take 3) (cur.take 3) vdc dv
  let (m2, _, c2) := s.modulate m (v.drop 3) (cur.drop 3) vdc dv
  wf (FLD.NP_STAT.DV m) (← field dv 16 16)
  if !dead 0 then wf (FLD.NP_STAT.ZNP m) (← field z1 10000 16)
  let sat := c.limited || (c1 && !dead 0) || (c2 && !dead 1)
  wf (FLD.MCH_STAT.SAT_VOLT m) (b2n sat)
  if sat then inc (FLD.CNT1.SAT_EVALS m)
  let off (k : Nat) : Bool := (base == 1 && s.f (FLD.MCH_STAT.FAULT_PHASE m) == k) || dead (k / 3)
  let signs ← ((m1 ++ m2).zip (List.range 6)).mapM fun p => modulateLeg m g p.2 p.1 (off p.2)
  commitDuties m g v ab signs

/-- Current control, modulation and posting (R217, R218, R228 to R231), from the references, the measured currents,
the angle in turns and the electrical speed. -/
def controlAndPost (m g : Nat) (refs cur : List Fl) (theta we vdc dv : Fl) : M Unit := do
  let c := (← getS).dqControl m refs cur theta we vdc
  updEng m fun _ => c.next
  wf (FLD.V_DQ.VD m) (← field c.vd 16 16)
  wf (FLD.V_DQ.VQ m) (← field c.vq 16 16)
  wf (FLD.I_DQ.ID m) (← field c.d 16 16)
  wf (FLD.I_DQ.IQ m) (← field c.q 16 16)
  wf (FLD.I_DQ_REF.ID_REF m) (← field (refs.getD 0 Fl.zero) 16 16)
  wf (FLD.I_DQ_REF.IQ_REF m) (← field (refs.getD 1 Fl.zero) 16 16)
  postVoltages m g c cur theta we vdc dv

/-- Flux command (R225): Δψ and ψ_cmd, with the limit V_LIM. -/
def fluxCommand (m : Nat) (vdc we : Fl) : M Fl := do
  let s ← getS
  let e := s.eng m
  let vlim := ((s.fl (FLD.MOD.MOD_MAX m) 1 1000).mul vdc).div Fl.sqrt3
  let lo := s.fl (FLD.MAP_PSI.PSI_MIN m) 1 100000
  let hi := s.fl (FLD.MAP_PSI.PSI_MAX m) 1 100000
  let ki := s.fl (FLD.FW.FW_KI m) 1 1000000000
  let dpsi := ((e.dpsi.add (ki.mul (e.vReq.sub (vlim.sub e.vXy)))).max Fl.zero).min (hi.sub lo)
  let raw := if we.isZero then hi
             else (((s.fl (FLD.FW.FW_K m) 1 1000).mul vdc).div (Fl.sqrt3.mul we.abs)).sub dpsi
  let psi := (raw.max lo).min hi
  updEng m fun f => { f with dpsi := dpsi }
  wf (FLD.MCH_STAT.FW_LIMIT m) (b2n (raw.lt lo))
  wf (FLD.PSI_STAT.PSI_CMD m) (← ufield psi 100000 16)
  wf (FLD.PSI_STAT.DPSI m) (← ufield dpsi 100000 16)
  return psi

/-- The torque is applied (R220, R221): FLD.TQ_OUT, LIMIT, and the ramp held within the limit in force. -/
def applyTorque (m : Nat) (t : TqOut) : M Unit := do
  updEng m fun e => { e with ramp := t.tq, tq := t.tq }
  wr (FLD.TQ_OUT m) (BitVec.ofNat 32 (← field t.tq 256 32))
  wf (FLD.MCH_STAT.LIMIT m) t.limit

/-- The evaluation from known speed and angle on: torque, references, detection, control (R219 to R235). -/
def evaluateMachine (m g : Nat) (cur : List Fl) (measured : List Bool) (theta n vup vlo : Fl) (ecc : Bool) :
    M Unit := do
  let s ← getS
  let vdc := vup.add vlo
  let dv := vup.sub vlo
  let we := (((s.fl (FLD.MCH_CFG.POLE_PAIRS m) 1 1).mul twoPi).mul n).div (flN 60)
  let k := min (s.f (FLD.DERATE.K_HOST m)) (s.f (FLD.DERATE.K_TH m))
  wf (FLD.DERATE.K m) k
  if ecc then
    inc (FLD.CNT1.MAP_ECC m)
    let b ← occurrence 84 g 0
    if b then wf (FLD.MCH_STAT.MODE m) 3
  let psi ← fluxCommand m vdc we
  let s ← getS
  let e := s.eng m
  let r := cs theta
  let t0 := s.torque m g n e.base
  let refs0 := if ecc then e.refs else s.references m e.base r t0.tq psi
  let z := Fl.zero
  let ab := rotOut r (refs0.getD 0 z) (refs0.getD 1 z)
  let xy := xyOut r (refs0.getD 2 z) (refs0.getD 3 z)
  let (openN, sumN, opens, senses) := s.detect m cur measured (phases ab.1 ab.2 xy.1 xy.2)
  updEng m fun f => { f with openN := openN, sumN := sumN, found := f.found ++ opens ++ senses.map (6 + ·) }
  opens.forM fun p => occur 81 g p
  senses.forM fun w => occur 82 g w
  let slow := n.abs.le (s.fl (FLD.POSTFAULT.N_1SET m) 10 1)
  let re := reaction (s.f (FLD.MCH_STAT.MODE m)) e.base (s.f (FLD.MCH_STAT.FAULT_PHASE m))
    (s.f (FLD.MCH_STAT.DEAD_SET m)) opens senses slow
  takeReaction m g re opens senses
  let s ← getS
  if s.active g then
    let base := (s.eng m).base
    let t := s.torque m g n base
    let refs := if ecc then e.refs else s.references m base r t.tq psi
    applyTorque m t
    updEng m fun f => { f with refs := refs }
    let cur := if base = 2 then
        (if s.f (FLD.MCH_STAT.DEAD_SET m) = 0 then [z, z, z] ++ cur.drop 3 else cur.take 3 ++ [z, z, z])
      else cur
    controlAndPost m g refs cur theta we vdc dv
    if (← getS).cd0Reads then torqueMonitors m g

/-- A catch evaluation (R282); the answer tells whether the engine posts from this evaluation on. -/
def catchStep (m g : Nat) : M Bool := do
  let s ← getS
  let ab := s.lineAb m
  let _ ← runObserver m (s.winSec g) ab.1 ab.2 Fl.zero Fl.zero true
  let s ← getS
  let e := s.eng m
  let vmin := s.fl (POS.OBS_LIM.CATCH_VMIN m) 5 1
  let still := if (norm ab.1 ab.2).lt vmin then e.still + 1 else 0
  updEng m fun f => { f with catchN := e.catchN + 1, still := still }
  let pu := s.f (FLD.MCH_CFG.PU m)
  if s.f (POS.OBS_STAT.LOCKED m) = 1 then
    if e.obs.n.abs.le (s.fl (POS.OBS_LIM.CATCH_RPM m) 10 1) then
      let dq := rotIn (cs (e.obs.theta.div twoPi)) ab.1 ab.2
      let we := (((s.fl (FLD.MCH_CFG.POLE_PAIRS m) 1 1).mul twoPi).mul e.obs.n).div (flN 60)
      updEng m fun f => { f with
        ramp := Fl.zero, tq := Fl.zero, intD := dq.1, intX := Fl.zero, intY := Fl.zero
        intQ := dq.2.sub (we.mul (s.fl (FLD.MOTOR1.PSI_PM m) 1 100000)) }
      wf (POS.OBS_STAT.CATCH m) 2
      sourceEvent m 3 0
      return true
    else
      updatePattern m g e.obs.n true
      wf (POS.OBS_STAT.CATCH m) 3
      sourceEvent m 4 3
      let _ ← tripAct g 1 0xFF
      occur 109 pu 0
      return false
  else
    if s.f (POS.OBS_LIM.CATCH_WIN m) ≤ e.catchN + 1 then
      wf (POS.OBS_STAT.CATCH m) 3
      sourceEvent m 4 (if s.f (POS.OBS_CFG.LOCK_N m) ≤ still then 1 else 2)
      occur 109 pu 0
    return false

/-- What a latched pair with STATE FAULT does while the unit is the source (R280): with AUTO and LOCKED the observer is
the source from the next evaluation; otherwise the group trips, and the answer is false. -/
def unitFault (m g : Nat) : M Bool := do
  let s ← getS
  if s.f (POS.OBS_STAT.ACTIVE m) = 0 ∧ (s.pu (s.f (FLD.MCH_CFG.PU m))).latched.state = 3 then
    if s.f (POS.OBS_CFG.SRC_MODE m) = 1 ∧ s.f (POS.OBS_STAT.LOCKED m) = 1 then
      wf (POS.OBS_STAT.ACTIVE m) 1
      sourceEvent m 2 0
      return true
    let _ ← tripAct g 1 0xFF
    return false
  return true

/-- The observer's part of an evaluation (R278, R282), `catching` being OBS_STAT.CATCH when it began: whether the engine posts, and
whether the observer lost its lock. After a failed catch the observer runs on and the engine keeps posting nothing. -/
def observeFirst (m g : Nat) (cur : List Fl) (catching : Nat) : M (Bool × Bool) := do
  if catching = 1 then return (← catchStep m g, false)
  else
    let s ← getS
    let lost ← if s.f (POS.OBS_CFG.EN m) = 1 then
        let ab := if s.gst g = .running then (s.eng m).applied.2 else s.lineAb m
        runObserver m (s.winSec g) ab.1 ab.2 (vsd cur 0) (vsd cur 1) false
      else pure false
    return (catching != 3, lost)

/-- FIELD_EVALUATION of engine `m` (R211): once per window of the group's timebase; `ecc` tells an uncorrectable map
read (R227). -/
def fieldEvaluation (m : Nat) (ecc : Bool) : M Unit := do
  let s ← getS
  match s.fldGroup m with
  | none => pure ()
  | some g =>
    let wins := (s.tbase (s.grpTb g)).wins
    let e := s.eng m
    let since := e.begun
    if s.present (2 + m) ∧ e.win ≠ wins ∧ s.anySince (s.fldSlots m) since then
      let oldest := s.linkMark g
      updEng m fun f => { f with win := wins, begun := s.hid.mea.total }
      let catching := s.f (POS.OBS_STAT.CATCH m)
      let raw := s.fldCurrents m since
      let dead (w : Nat) : Bool := e.base == 2 && s.f (FLD.MCH_STAT.DEAD_SET m) == w
      let z3 : List Fl := [Fl.zero, Fl.zero, Fl.zero]
      let set1 := if dead 0 then some (z3, 0) else fillSet (raw.take 3)
      let set2 := if dead 1 then some (z3, 0) else fillSet (raw.drop 3)
      let vup? := s.fldVolt m (s.f (FLD.IN_SLOT1.VUP m)) oldest
      let vlo? := s.fldVolt m (s.f (FLD.IN_SLOT1.VLO m)) oldest
      let fromObs := s.f (POS.OBS_STAT.ACTIVE m) = 1
      let go ← unitFault m g
      if go then
        match set1, set2, vup?, vlo? with
        | some (i1, r1), some (i2, r2), some vup, some vlo =>
          incBy (FLD.CNT0.RECONSTRUCTED m) (r1 + r2)
          let cur := i1 ++ i2
          let measured := raw.map Option.isSome
          let (post, lost) ← observeFirst m g cur catching
          let s ← getS
          if post ∨ catching = 3 then
            let pair := s.pu (s.f (FLD.MCH_CFG.PU m)) |>.latched
            let o := (s.eng m).obs
            let n := if fromObs then o.n else Fl.ofRat pair.speed 256
            let theta := if fromObs then (o.theta.div twoPi).frac
              else (((s.fl (FLD.MCH_CFG.POLE_PAIRS m) 1 1).mul (s.mechTurn (s.f (FLD.MCH_CFG.PU m)))).add
                (s.fl (FLD.ANGLE.ANGLE_OFFSET m) 1 65536)).frac
            wf (FLD.MCH_STAT.SPEED m) (← field n 1 16)
            updatePattern m g n (if fromObs then s.f (POS.OBS_STAT.LOCKED m) == 1 else pair.spdValid)
            if fromObs ∧ lost then
              -- the lock was lost while the observer is the source (R281)
              let _ ← tripAct g 1 0xFF
            else if post then evaluateMachine m g cur measured theta n vup vlo ecc
        | _, _, _, _ => heldEvaluation m g

/-! ## Enabling, swaps, thermal factor -/

/-- What ENABLE of a machine group does to its engine (R236, R280, R282): NORMAL, detection from zero, the source. -/
def fldEnable (m : Nat) : M Unit := do
  let s ← getS
  let valid : Bool := s.puState (s.f (FLD.MCH_CFG.PU m)) == 2
  updEng m fun e => { e with base := 0, found := [], openN := [0, 0, 0, 0, 0, 0], sumN := [0, 0], catchN := 0,
                             still := 0, stlN := 0, volts := [], pos := [] }
  wf (FLD.MCH_STAT.MODE m) 0
  wf (FLD.MCH_STAT.FAULT_PHASE m) 7
  wf (FLD.MCH_STAT.DEAD_SET m) 0
  wf (POS.OBS_STAT.ACTIVE m) (b2n !valid)
  wf (POS.OBS_STAT.CATCH m) (if valid then 0 else 1)
  if s.f (POS.OBS_STAT.ACTIVE m) ≠ b2n !valid then sourceEvent m 2 0

/-- A bank swap of engine `m` (R226): every evaluation from now on reads the new bank. -/
def swapBank (m bank : Nat) : M Unit := do
  let s ← getS
  if s.f (FLD.MCH_STAT.BANK m) ≠ bank then
    wf (FLD.MCH_STAT.BANK m) bank
    inc FLD.MAP_STAT.SWAPS
    eventDev 0x8027 (by1 [m, bank])

/-- A load of `n` entries from entry `e` of map table `id` (R227): COMPLETE once every entry was written. -/
def mapWritten (id e n : Nat) : M Unit := do
  let s ← getS
  let b := id - 0x10
  let w := mget 0 s.hid.fld.written b ||| ((2 ^ n - 1) * 2 ^ e)
  hid fun h => { h with fld := { h.fld with written := sput h.fld.written b w } }
  if w = 2 ^ 16384 - 1 then wf FLD.MAP_STAT.COMPLETE (setBit (s.f FLD.MAP_STAT.COMPLETE) b)

/-- The factor of one temperature slot in thousandths (R221). -/
def State.thermFactor (s : State) (m j : Nat) : Nat :=
  let slot := s.f (FLD.THERM.SLOT m j)
  match if slot = 0xFF then none else s.usable slot 0 with
  | none => 1000
  | some code =>
    let c : Int := code / 16
    let a : Int := s.f (FLD.THERM.CODE_START m j)
    let b : Int := s.f (FLD.THERM.CODE_END m j)
    if a ≤ b then
      (if c ≤ a then 1000 else if b ≤ c then 0 else ((b - c) * 1000 / (b - a)).toNat)
    else (if a ≤ c then 1000 else if c ≤ b then 0 else ((c - b) * 1000 / (a - b)).toNat)

/-- THERMAL_FACTOR_UPDATE (R221): K_TH of both engines; while the management Chord that computes it restarts or is out of service
it stays (R20, R414). -/
def thermalFactor : M Unit :=
  (List.range 2).forM fun m => do
    let s ← getS
    if s.cd2Reads then
      let k := min (s.thermFactor m 0) (s.thermFactor m 1)
      wf (FLD.DERATE.K_TH m) k
      wf (FLD.DERATE.K m) (min (s.f (FLD.DERATE.K_HOST m)) k)

end Sys2Proof.Machine
end

