-- ==== Sys2Proof/Machine/Actuators.lean ====
section
/-! DEFINITION. FE3: the gearbox actuators and the charge-port lock (R287 to R303, R379). Readings the chapter leaves
open are in (DESIGN CHOICE) log entry 17. -/

namespace Sys2Proof.Machine

/-! ## Records, states, commands -/

/-- One actuator's record. -/
def State.act (s : State) (a : Nat) : ActEng := mget {} s.hid.act.eng a

/-- Update an actuator's record. -/
def updAct (a : Nat) (f : ActEng → ActEng) : M Unit :=
  hid fun h => { h with act := { h.act with eng := mupd {} h.act.eng a f } }

/-- The group of an actuator that FE3 evaluates (R287). -/
def State.actGroup (s : State) (a : Nat) : Option Nat :=
  let g := s.f (ACT.CFG.GROUP a)
  if s.f (ACT.CFG.EN a) = 1 ∧ s.owner g = 4 ∧ s.active g then some g else none

/-- The voltage that applied in the window before the one the engine last evaluated in (R278, R300). -/
def ActEng.applied (e : ActEng) : Fl × Fl :=
  match e.volts.find? fun x => decide (x.1 + 2 ≤ e.win) with
  | some x => x.2
  | none => (Fl.zero, Fl.zero)

/-- ACT_STATE (R292, R297): actuator, old state, new state, cause. -/
def actEvent (a old new cause : Nat) : M Unit := eventDev 0x802D (by1 [a, old, new, 0] ++ leBytes 2 cause)

/-- STATE of an actuator changes. -/
def setAct (a new cause : Nat) : M Unit := do
  let old ← rf (ACT.STAT.STATE a)
  if old ≠ new then
    wf (ACT.STAT.STATE a) new
    actEvent a old new cause

/-- An occurrence of a source whose lasting reaction is actuator FAULT with the legs off (R304); otherwise the move
ends. A command that waits goes with it. -/
def actFail (a src : Nat) : M Unit := do
  let g ← rf (ACT.CFG.GROUP a)
  let b ← occurrence src g 0
  updAct a fun e => { e with phase := .off, holding := false, refing := false, waits := none }
  setAct a (if b then 3 else 0) src

/-- The travel in the units of ACT.TRAVEL: counts, or sectors for a HALL unit (R290). -/
def State.actTravel (s : State) (a : Nat) : Int :=
  let t := (s.act a).travel
  if s.puMode (s.f (ACT.CFG.PU a)) = 4 then (2 * t * 6 + 2 ^ 24) / 2 ^ 25 else t

/-- The first traction engine whose machine is too fast, or whose speed is not valid, as the address of its POS.SPEED
(R294, R297). -/
def State.speedBar (s : State) (rpm : Nat) : Option Nat :=
  ((List.range 2).filter fun m => s.f (FLD.MCH_CFG.EN m) == 1).findSome? fun m =>
    let k := s.f (FLD.MCH_CFG.PU m)
    if s.f (POS.PU_STAT.SPD_VALID k) = 0 ∨ rpm * 256 < (sx32 (s.rd (POS.SPEED k)).toNat).natAbs then some (POS.SPEED k)
    else none

/-- FE3 arms a compare unit of an actuator's position unit at a travel, in the direction of the move (R297, R298); with the position
island out of service the transfer is dropped and counted (R26). -/
def armCompare (a u : Nat) (at_ : Int) (fwd : Bool) : M Unit := do
  let s ← getS
  let k := s.f (ACT.CFG.PU a)
  if !s.present 6 then inc (SYS.XFER.DROPPED_WRITES 6)
  else if k < 6 then
    wf (POS.PCMP_TGT.TARGET k u) ((at_ % (s.puMod k : Int)).toNat)
    wf (POS.PCMP_CFG.ARM k u) 1
    wf (POS.PCMP_CFG.DIR k u) (if fwd then 0 else 1)
    pcmpArm k u

/-- The position a TARGET stands for in a position move: a gear's position, or the signed travel (R297, R299). -/
def State.actGoal (s : State) (a target : Nat) : Int :=
  if a = 1 then s.f (ACT.GEAR.POSITION (target % 8)) else sxn 24 target

/-- The pump takes a target (R300, R301): from IDLE it catches; running it keeps on, or runs down where the direction reverses or the
target is 0; with the legs off it catches on or ends; a start in the other direction begins again with a catch. -/
def pumpTarget (was goal : Int) : M Unit := do
  let e := (← getS).act 3
  let fresh : M Unit := do
    updAct 3 fun e => { e with phase := .catching, evals := 0, quiet := 0, obs := {}, locked := false }
    setAct 3 1 0
  let ends : M Unit := do
    updAct 3 fun e => { e with phase := .off }
    setAct 3 0 0
  match e.phase with
  | .off => if goal = 0 then ends else fresh
  | .run | .down =>
    let back : Bool := goal == 0 || e.obs.n.isNeg != decide (goal < 0)
    updAct 3 fun e => { e with phase := if back then .down else .run }
    setAct 3 1 0
  | .start => if goal = 0 then ends else if (was < 0) = (goal < 0) then setAct 3 1 0 else fresh
  | .catching | .wait => if goal = 0 then ends else setAct 3 1 0

/-- A move starts or is retargeted, its group being ARMED or RUNNING (R292, R297 to R301). -/
def startMove (a target : Nat) : M Unit := do
  let s ← getS
  let e := s.act a
  let k := s.f (ACT.CFG.PU a)
  if s.f (ACT.STAT.STATE a) = 1 then inc (ACT.STAT.SUPERSEDED a)
  let goal := if a = 0 then (target : Int) else s.actGoal a target
  let rev := a == 1 && s.f (ACT.GEAR.REVERSE (target % 8)) == 1
  updAct a fun e => { e with target := goal, fromPos := e.travel, reach := 0, stall := 0, holding := false, rev := rev }
  wf (ACT.STAT.ARRIVING a) 0
  if a = 3 then pumpTarget e.target goal
  else
    setAct a 1 0
    if a = 1 ∨ a = 2 then
      hid fun h => { h with pos := { h.pos with hits := h.pos.hits.filter fun x => x.1 != k } }
      let fwd := decide (s.actTravel a ≤ goal)
      let tol : Int := s.f (ACT.MOVE.TOL a)
      armCompare a 6 (if fwd then goal - tol else goal + tol) fwd
      if rev then armCompare a 7 (s.f (ACT.GEAR.EDGE (target % 8))) fwd

/-- CMD GO (R292): taken now, or held for the first evaluation; a GO while the clutch references waits (R299). -/
def actGo (a target : Nat) : M Unit := do
  let s ← getS
  if (s.actGroup a).isSome ∧ !(s.act a).refing then startMove a target
  else updAct a fun e => { e with waits := some (target + 1) }

/-- CMD STOP (R292): references zero, every leg off. -/
def actStop (a : Nat) : M Unit := do
  let s ← getS
  if (s.actGroup a).isSome then
    updAct a fun e => { e with phase := .off, holding := false, refing := false, waits := none }
    if s.f (ACT.STAT.STATE a) ≠ 3 then setAct a 0 0
  else updAct a fun e => { e with waits := some 0 }

/-! ## Posting -/

/-- All legs of an actuator or of the lock off (R230). -/
def legsOff (g legs : Nat) : M Unit := do
  let s ← getS
  let t := s.grpTb g
  let toB := s.tbDouble t && s.f (PLS.TB_COUNT.WINDOW t) == 0
  (List.range legs).forM fun l =>
    postLeg g l (List.replicate 2 (never.toNat, if toB then 32 * s.tbP t else 0))

/-- The edges of a half-bridge with a high-side pulse of `h` fine units half-length centred on P/2 (R288, R289). -/
def bridgeEdges (p h : Nat) : List (Nat × Nat) :=
  let nv := never.toNat
  if h = 0 then [(nv, 32 * p), (0, nv)]
  else if 32 * p ≤ h then [(0, nv), (nv, 32 * p)]
  else [(32 * p - h, 32 * p + h), (32 * p + h, 32 * p - h)]

/-- Post the three duties of an actuator. -/
def postDuties (g : Nat) (duties : List Fl) : M Unit := do
  let s ← getS
  let p := s.tbP (s.grpTb g)
  (duties.zip (List.range 3)).forM fun x => do
    let h ← ufield (((Fl.clamp Fl.zero (flN 1) x.1).mul (flN 32)).mul (flN p)) 1 30
    postLeg g x.2 (bridgeEdges p h)

/-- What the d-q current controller of one three-phase set answers (R289): its integrators, the voltage in the stator
frame, whether it was limited, and the duties. -/
structure ActControl where
  intD : Fl
  intQ : Fl
  ab : Fl × Fl
  sat : Bool
  duties : List Fl

/-- The d-q current controller of one three-phase set (R289), from the measured d and q, the angle in turns, ωe, the
bus voltage and the q reference. -/
def State.actVolts (s : State) (a : Nat) (idq : Fl × Fl) (theta we vbus iq : Fl) : ActControl :=
  let e := s.act a
  let kp := s.fl (FLD.ACT_GAIN.KP a) 1 1000
  let ki := s.fl (FLD.ACT_GAIN.KI a) 1 1000000
  let l := s.fl (FLD.ACT_MOTOR.L a) 1 100000000
  let psi := s.fl (FLD.ACT_MOTOR.PSI a) 1 100000
  let ed := idq.1.neg
  let eq := iq.sub idq.2
  let vd := ((kp.mul ed).add e.intD).sub ((we.mul l).mul idq.2)
  let vq := ((kp.mul eq).add e.intQ).add (we.mul ((l.mul idq.1).add psi))
  let dmax := s.fl (ACT.LIMITS.DUTY_MAX a) 1 1000
  let vlim := (dmax.mul vbus).div Fl.sqrt3
  let (vd1, vq1, sat) := scaleTo vd vq vlim
  let ab := rotOut (cs theta) vd1 vq1
  let half := Fl.ofRat (-1) 2
  let v := [ab.1, (half.mul ab.1).add (root34.mul ab.2), (half.mul ab.1).sub (root34.mul ab.2)]
  let z := ((flMax v).add (flMin v)).neg.div (flN 2)
  { intD := integrator e.intD ki ed vd sat, intQ := integrator e.intQ ki eq vq sat, ab := ab, sat := sat
    duties := v.map fun x => (dmax.div (flN 2)).add ((x.add z).div vbus) }

/-- The current controller acts: it posts the duties. The answer is the voltage. -/
def actControl (a g : Nat) (idq : Fl × Fl) (theta we vbus iq : Fl) : M (Fl × Fl) := do
  let c := (← getS).actVolts a idq theta we vbus iq
  updAct a fun f => { f with intD := c.intD, intQ := c.intQ }
  wf (ACT.STAT.SAT_VOLT a) (b2n c.sat)
  if c.sat then inc (ACT.STAT.SAT_EVALS a)
  postDuties g c.duties
  return c.ab

/-- No leg of an actuator conducts. -/
def actOff (a g : Nat) : M (Fl × Fl) := do
  wf (ACT.STAT.SAT_VOLT a) 0
  legsOff g 3
  return (Fl.zero, Fl.zero)

/-- The COMMIT token of an evaluation that posted `v`: taken, that voltage applies in the next window. -/
def commitVolts (a g : Nat) (v : Fl × Fl) : M Unit := do
  if ← loopCommit g then updAct a fun e => { e with volts := (e.win, v) :: e.volts.take 2 }

/-! ## Outer loops -/

/-- The speed loop (R290): the q reference and the new integrator. -/
def State.speedLoop (s : State) (a : Nat) (nref n : Fl) : Fl × Fl :=
  let e := s.act a
  let kp := s.fl (ACT.LOOP.KP_SPD a) 1 100
  let ki := s.fl (ACT.LOOP.KI_SPD a) 1 10000
  let im := s.fl (ACT.LIMITS.IQ_MAX a) 1 10
  let en := nref.sub n
  let iq := (((kp.mul en).add e.intN).max im.neg).min im
  let sat : Bool := s.f (ACT.STAT.SAT_VOLT a) == 1
  let hi : Bool := (iq.eq im || sat) && Fl.zero.lt en
  let lo : Bool := (iq.eq im.neg || sat) && en.isNeg
  (iq, if hi || lo then e.intN else e.intN.add (ki.mul en))

/-- The speed of SPD_MAX in rpm. -/
def State.spdMax (s : State) (a : Nat) : Fl := s.fl (ACT.LIMITS.SPD_MAX a) 10 1

/-- The reference speed of an actuator other than the pump, none with the legs off (R290, R295, R299). -/
def State.actRef (s : State) (a : Nat) : Option Fl :=
  let e := s.act a
  let st := s.f (ACT.STAT.STATE a)
  let sm := s.spdMax a
  if e.refing then some (sm.div (flN 4))
  else if a = 0 then
    if st = 1 then some (if e.target = 1 then sm else sm.neg) else none
  else if st = 1 ∨ st = 2 then
    some ((((s.fl (ACT.LOOP.KP_POS a) 1 256).mul (Fl.ofInt (e.target - s.actTravel a))).max sm.neg).min sm)
  else none

/-- The park lock's outcome (R295): a stall at the current limit judged by the stroke, or overtravel. -/
def parkOutcome (g : Nat) (n iq : Fl) : M Unit := do
  let s ← getS
  let e := s.act 0
  if s.f (ACT.STAT.STATE 0) = 1 then
    let im := s.fl (ACT.LIMITS.IQ_MAX 0) 1 10
    let still : Bool := n.abs.le ((s.spdMax 0).div (flN 20)) && iq.abs.eq im
    let clocks := if still then e.stall + s.winLen (s.grpTb g) else 0
    updAct 0 fun e => { e with stall := clocks }
    let stroke := ((2 * (e.travel - e.fromPos) * 6 + 2 ^ 24) / 2 ^ 25).natAbs
    let fail : M Unit := do
      wf (ACT.STAT.PARK 0) 0
      actFail 0 112
    if s.f ACT.PARK.TRAVEL_MAX < stroke then fail
    else if s.f (ACT.MOVE.STALL_MS 0) * 400000 ≤ clocks ∧ still then
      if stroke < s.f ACT.PARK.TRAVEL_MIN then fail
      else
        wf (ACT.STAT.PARK 0) (if e.target = 1 then 2 else 1)
        setAct 0 2 0
        if e.target = 1 ∧ s.f (ACT.CFG.HOLD 0) = 1 then updAct 0 fun e => { e with holding := true }

/-- The reach test of a position move (R293). -/
def reachTest (a : Nat) (n : Fl) : M Unit := do
  let s ← getS
  let e := s.act a
  if s.f (ACT.STAT.STATE a) = 1 then
    let near := decide ((e.target - s.actTravel a).natAbs ≤ s.f (ACT.MOVE.TOL a)) && n.abs.le ((s.spdMax a).div (flN 16))
    let k := if near then e.reach + 1 else 0
    updAct a fun e => { e with reach := k }
    if 8 ≤ k then setAct a 2 0

/-- The matches of PCMP6 and PCMP7 that have crossed to FE3 (R297, R298); PCMP7 concerns a move to a reverse gear. -/
def takeMatches (a : Nat) : M Unit := do
  let s ← getS
  let k := s.f (ACT.CFG.PU a)
  let mine := s.hid.pos.hits.filter fun h => h.1 == k
  hid fun h => { h with pos := { h.pos with hits := h.pos.hits.filter fun x => x.1 != k } }
  if s.f (ACT.STAT.STATE a) = 1 then
    if mine.any fun h => h.2 == 6 then wf (ACT.STAT.ARRIVING a) 1
    if (s.act a).rev ∧ (mine.any fun h => h.2 == 7) then
      match s.speedBar (s.f ACT.SPEEDS.REV_RPM) with
      | some _ =>
        match (List.range 8).find? fun i => s.f (ACT.GEAR.EN i) == 1 && s.f (ACT.GEAR.NEUTRAL i) == 1 with
        | some i => startMove 1 i
        | none => pure ()
        inc ACT.STATUS.REV_ABORTS
        actEvent 1 1 1 0x0B05
      | none => pure ()

/-- The travel follows the latched POS (R290); when the clutch's unit has become VALID its travel is INDEX_VAL (R299). -/
def followTravel (a : Nat) : M Unit := do
  let s ← getS
  let e := s.act a
  let k := s.f (ACT.CFG.PU a)
  let m := s.puMod k
  let p := (s.pu k).latched.pos
  let t := match e.prev with
    | none => modDiff m p
    | some q => e.travel + modDiff m ((p : Int) - q)
  updAct a fun e => { e with travel := t, prev := some p }
  if e.refing ∧ (s.pu k).latched.state = 2 then
    updAct a fun e => { e with refing := false, travel := s.f (POS.QUAD.INDEX_VAL k) }
  wr (ACT.TRAVEL a) (BitVec.ofInt 32 ((← getS).actTravel a))

/-- SLS of an actuator at a latched pair of its unit (R379). -/
def slsMonitor (a g : Nat) : M Unit := do
  let s ← getS
  let lim := s.f (SAF.SLS.SLS_RPM a)
  if 0 < lim ∧ s.f (SAF.FUNC_CFG.EN 4) = 1 ∧ (s.funcMask 4).contains g then
    let l := (s.pu (s.f (ACT.CFG.PU a))).latched
    let n := if lim * 256 < l.speed.natAbs then (s.act a).slsN + 1 else 0
    updAct a fun e => { e with slsN := n }
    if 3 ≤ n ∨ (!l.spdValid ∧ s.gst g = .running) then
      updAct a fun e => { e with slsN := 0 }
      inc (SAF.SLS.VIOL a)
      momentary 1 (0x30000 + g) [g] 167
      occur 167 g 0

/-- CD0 compares at each latched pair of a unit (R379). -/
def slsAt (k : Nat) : M Unit :=
  (List.range 4).forM fun a => do
    let s ← getS
    if s.cd0Reads ∧ s.f (ACT.CFG.EN a) = 1 ∧ s.f (ACT.CFG.PU a) = k then slsMonitor a (s.f (ACT.CFG.GROUP a))

/-! ## The oil pump (R300, R301) -/

/-- MIN_RPM of the pump. -/
def State.pumpMin (s : State) : Fl := s.fl ACT.PUMP.MIN_RPM 10 1

/-- The line voltages of the pump as α and β. -/
def State.pumpLine (s : State) : Fl × Fl :=
  let v (r : Nat) : Fl :=
    (Fl.ofInt (((s.usable r 0).getD 0 : Int) - 0x8000)).mul (s.fls (ACT.SCALE.V_GAIN 3) 8192)
  let ab := v (s.f ACT.PUMP1.VAB_SLOT)
  let bc := v (s.f ACT.PUMP1.VBC_SLOT)
  ((((flN 2).mul ab).add bc).div (flN 3), bc.div Fl.sqrt3)

/-- One step of the pump's observer: the BEMF form of R278, the lock rules of R279 with the reset values. -/
def pumpObserver (tw va vb ia ib : Fl) (induced : Bool) : M Unit := do
  let s ← getS
  let e := s.act 3
  let o := e.obs
  let rs := s.fl ACT.PUMP1.RS 1 100000
  let l := s.fl (FLD.ACT_MOTOR.L 3) 1 100000000
  let emf (v i p : Fl) : Fl := (v.sub (rs.mul i)).sub ((l.mul (i.sub p)).div tw)
  let ea := if induced then va else emf va ia o.ia
  let eb := if induced then vb else emf vb ib o.ib
  let turn : Fl := if o.omega.isNeg then Fl.pi else Fl.zero
  let raw := (Fl.atan2 ea.neg eb).add turn
  let pred := o.theta.add (o.omega.mul tw)
  let err := wrapPi (raw.sub pred)
  let theta := wrapPi (pred.add ((Fl.ofRat 1 8).mul err))
  let omega := o.omega.add ((flN 512).mul err)
  let n := ((flN 60).mul omega).div (twoPi.mul (s.fl (ACT.CFG.POLE_PAIRS 3) 1 1))
  let high : Bool := ((flN 10).mul (Fl.pi.div (flN 180))).lt err.abs || n.abs.lt s.pumpMin || decide (err = .nan)
  let hi := if high then o.high + 1 else 0
  let lo := if high then 0 else o.low + 1
  let locked := if e.locked then decide (hi < 4) else decide (32 ≤ lo)
  updAct 3 fun e => { e with locked := locked
                             obs := { o with ia := ia, ib := ib, theta := theta, omega := omega, n := n,
                                             high := hi, low := lo } }
  let nq ← field n 256 32
  observerFeeds 3 (theta.div twoPi) (sx32 nq) locked

/-- The electrical speed of the pump's observer. -/
def State.pumpWe (s : State) : Fl := (s.act 3).obs.omega

/-- A catch evaluation of the pump: the engine posts nothing but the legs off (R300). -/
def pumpCatch : M Unit := do
  let s ← getS
  let e := s.act 3
  let ab := s.pumpLine
  let quiet := if (norm ab.1 ab.2).lt (flN 20) then e.quiet + 1 else 0
  updAct 3 fun e => { e with evals := e.evals + 1, quiet := quiet }
  if e.locked ∧ s.pumpMin.le e.obs.n.abs ∧ e.obs.n.isNeg = decide (e.target < 0) then
    let dq := rotIn (cs (e.obs.theta.div twoPi)) ab.1 ab.2
    updAct 3 fun f => { f with phase := .run, intD := dq.1, intN := Fl.zero
                               intQ := dq.2.sub (s.pumpWe.mul (s.fl (FLD.ACT_MOTOR.PSI 3) 1 100000)) }
    setAct 3 2 0
  else if 200 ≤ e.evals + 1 then
    if !e.locked ∧ 32 ≤ quiet then
      updAct 3 fun f => { f with phase := .start, evals := 0, frameN := Fl.zero, frameA := e.obs.theta.div twoPi
                                 obs := {}, locked := false, intD := Fl.zero, intQ := Fl.zero }
    else updAct 3 fun f => { f with evals := 0 }

/-- A pump that lost its lock or failed to start: legs off, a catch begins again later (R300, R301). -/
def pumpLost (g : Nat) : M Unit := do
  updAct 3 fun e => { e with phase := .wait }
  setAct 3 1 114
  occur 114 g 0

/-- The observer takes over from the start of the pump: the voltage, and with it the current, stays (R300). -/
def pumpTakeOver (ia ib : Fl) : M Unit := do
  let s ← getS
  let e := s.act 3
  let r := cs (e.obs.theta.div twoPi).frac
  let dq := rotIn r ia ib
  let v := (e.volts.map (·.2)).headD (Fl.zero, Fl.zero)
  let vdq := rotIn r v.1 v.2
  let l := s.fl (FLD.ACT_MOTOR.L 3) 1 100000000
  let we := s.pumpWe
  updAct 3 fun f => { f with phase := .run, intN := dq.2
                             intD := vdq.1.add ((we.mul l).mul dq.2)
                             intQ := vdq.2.sub (we.mul ((l.mul dq.1).add (s.fl (FLD.ACT_MOTOR.PSI 3) 1 100000))) }
  setAct 3 2 0

/-- The phases of the pump's drive (R300, R301). -/
def pumpPhase (g : Nat) (ia ib tw : Fl) : M Unit := do
  let s ← getS
  let e := s.act 3
  match e.phase with
  | .catching => pumpCatch
  | .start =>
    if e.locked ∧ s.pumpMin.le e.obs.n.abs then
      pumpTakeOver ia ib
    else
      let top := (Fl.ofRat 5 4).mul s.pumpMin
      let nf := (e.frameN.add ((s.fl ACT.PUMP.START_RATE 10 1).mul tw)).min top
      let dir : Fl := if e.target < 0 then flN 1 |>.neg else flN 1
      let turn := (dir.mul ((nf.mul tw).div (flN 60))).mul (s.fl (ACT.CFG.POLE_PAIRS 3) 1 1)
      let k := if top.le nf then e.evals + 1 else 0
      updAct 3 fun f => { f with frameN := nf, frameA := (f.frameA.add turn).frac, evals := k }
      if 200 < k then pumpLost g
  | .run | .down =>
    if !e.locked then pumpLost g
    else if e.phase = .down ∧ e.obs.n.abs.le s.pumpMin then
      if e.target = 0 then
        updAct 3 fun f => { f with phase := .off }
        setAct 3 0 0
      else updAct 3 fun f => { f with phase := .catching, evals := 0, quiet := 0, obs := {}, locked := false }
    else if e.phase = .run then setAct 3 2 0
  | _ => pure ()

/-- What the legs of the pump do (R300, R301); the answer is the voltage. -/
def pumpLegs (g : Nat) (ia ib vbus : Fl) : M (Fl × Fl) := do
  let s ← getS
  let e := s.act 3
  match e.phase with
  | .run | .down =>
    let t : Fl := Fl.ofInt e.target
    let sgn : Fl := if e.obs.n.isNeg then flN 1 |>.neg else flN 1
    let nref := if e.phase = .down then sgn.mul s.pumpMin
      else if t.abs.lt s.pumpMin then (if e.target < 0 then s.pumpMin.neg else s.pumpMin) else t
    let (iq, intN) := s.speedLoop 3 nref e.obs.n
    updAct 3 fun f => { f with intN := intN }
    let th := (e.obs.theta.div twoPi).frac
    actControl 3 g (rotIn (cs th) ia ib) th s.pumpWe vbus iq
  | .start =>
    let sgn : Fl := if e.target < 0 then flN 1 |>.neg else flN 1
    let iq := sgn.mul (s.fl ACT.PUMP.IQ_START 1 10)
    let we := ((sgn.mul e.frameN).mul ((s.fl (ACT.CFG.POLE_PAIRS 3) 1 1).mul twoPi)).div (flN 60)
    actControl 3 g (rotIn (cs e.frameA) ia ib) e.frameA we vbus iq
  | _ => actOff 3 g

/-- One evaluation of the pump with its currents (R300, R301); the answer is the voltage. -/
def pumpEvaluation (g : Nat) (ia ib vbus tw : Fl) : M (Fl × Fl) := do
  let s ← getS
  let e := s.act 3
  let off : Bool := decide (e.phase = .off) || decide (e.phase = .catching) || decide (e.phase = .wait)
  if off then
    let ab := s.pumpLine
    pumpObserver tw ab.1 ab.2 Fl.zero Fl.zero true
  else
    let ab := e.applied
    pumpObserver tw ab.1 ab.2 ia ib false
  pumpPhase g ia ib tw
  pumpLegs g ia ib vbus

/-- PUMP_CATCH_RESTART: the wait after a lock loss or failed start is over (R300, R301). -/
def pumpRestart : M Unit := do
  let s ← getS
  if (s.act 3).phase = .wait then
    updAct 3 fun e => { e with phase := if e.target = 0 then .off else .catching, evals := 0, quiet := 0, obs := {},
                               locked := false }
    if (s.act 3).target = 0 then setAct 3 0 0

/-! ## The evaluation -/

/-- A held command is taken at the first evaluation (R292), a waiting GO when the clutch has referenced (R299). -/
def takeWaiting (a : Nat) : M Unit := do
  let e := (← getS).act a
  if !e.refing then
    match e.waits with
    | some 0 =>
      updAct a fun e => { e with waits := none }
      actStop a
    | some (t + 1) =>
      updAct a fun e => { e with waits := none }
      startMove a t
    | none => pure ()

/-- The drive of an actuator other than the pump in an evaluation with its currents (R289 to R299); the answer is the voltage. -/
def actDrive (a g : Nat) (ia ib vbus : Fl) : M (Fl × Fl) := do
  let s ← getS
  let k := s.f (ACT.CFG.PU a)
  let n := Fl.ofRat (s.pu k).latched.speed 256
  match s.actRef a with
  | some nref =>
    let (iq, intN) := s.speedLoop a nref n
    updAct a fun f => { f with intN := intN }
    let pp := s.fl (ACT.CFG.POLE_PAIRS a) 1 1
    let th := (pp.mul (s.mechTurn k)).frac
    let we := ((pp.mul twoPi).mul n).div (flN 60)
    let v ← actControl a g (rotIn (cs th) ia ib) th we vbus iq
    if a = 0 then parkOutcome g n iq
    else if !(s.act a).refing then reachTest a n
    return v
  | none => actOff a g

/-- HOLD of the park lock: the current is not sampled (R296). -/
def parkHold (g : Nat) : M Unit := do
  followTravel 0
  let s ← getS
  let low := (flN 1).sub (s.fl ACT.PARK.HOLD_FRAC 1 1000)
  postDuties g [flN 1, low, low]
  commitVolts 0 g (Fl.zero, Fl.zero)

/-- An evaluation with the currents `i` and the bus voltage. -/
def actStep (a g : Nat) (i : List Fl) (vbus : Fl) : M Unit := do
  followTravel a
  takeMatches a
  takeWaiting a
  let s ← getS
  if s.active g then
    let ia := i.getD 0 Fl.zero
    let ib := (ia.add ((flN 2).mul (i.getD 1 Fl.zero))).div Fl.sqrt3
    commitVolts a g (← if a = 3 then pumpEvaluation g ia ib vbus (s.winSec g) else actDrive a g ia ib vbus)

/-- ACTUATOR_EVALUATION (R287 to R301): it begins once a current slot has a result since the last one began. -/
def actuatorEvaluation (a : Nat) : M Unit := do
  let s ← getS
  match s.actGroup a with
  | none => pure ()
  | some g =>
    let wins := (s.tbase (s.grpTb g)).wins
    let e := s.act a
    let slots := [s.f (ACT.CFG.IU_SLOT a), s.f (ACT.SLOTS.IV_SLOT a), s.f (ACT.SLOTS.IW_SLOT a)]
    if s.present 5 ∧ e.win ≠ wins ∧ s.anySince slots e.begun then
      updAct a fun f => { f with win := wins, begun := s.hid.mea.total }
      let cur (r : Nat) : Option Fl := (s.codeSince r e.begun).map fun c =>
        (Fl.ofInt ((c : Int) - s.f (ACT.SCALE.I_OFFSET a))).mul (s.fls (ACT.SLOTS.I_GAIN a) 8192)
      let vbus? := (s.usable (s.f (ACT.CFG.VBUS_SLOT a)) (s.linkMark g)).map fun c =>
        (Fl.ofInt c).mul (s.fls (ACT.SCALE.V_GAIN a) 8192)
      if e.holding then parkHold g
      else
        match fillSet (slots.map cur), vbus? with
        | some (i, _), some vbus => actStep a g i vbus
        | _, _ =>
          inc (ACT.STAT.HOLDS a)
          let _ ← loopCommit g
          occur 110 g (ACT.STAT a)

/-- ACT_MOVE_TIMEOUT: MOVE_TMAX has passed since the move or the referencing began (R293, R295, R299, R300). -/
def moveTimeout (a : Nat) : M Unit := do
  let s ← getS
  let e := s.act a
  if (s.actGroup a).isSome then
    if e.refing then actFail a 113
    else if s.f (ACT.STAT.STATE a) = 1 then
      if a = 0 then
        wf (ACT.STAT.PARK 0) 0
        actFail 0 112
      else if a ≠ 3 ∨ e.phase = .catching then actFail a 111

/-- What ENABLE of an actuator group does (R290, R292, R299). -/
def actEnable (a : Nat) : M Unit := do
  let s ← getS
  updAct a fun e => { e with prev := none, holding := false, phase := .off, reach := 0, stall := 0, volts := [], rev := false
                             refing := a == 2 && s.puState (s.f (ACT.CFG.PU 2)) != 2, slsN := 0 }
  setAct a 0 0x20

/-! ## The charge-port lock (R302, R303) -/

/-- The group of the charge-port lock that FE3 evaluates. -/
def State.cplGroup (s : State) : Option Nat :=
  let g := s.f ACT.CPL_CFG.GROUP
  if s.f ACT.CPL_CFG.EN = 1 ∧ s.owner g = 4 ∧ s.active g then some g else none

/-- STATE of the lock changes; ACT_CPL carries LOCKED and UNLOCKED (R302, R303). -/
def setCpl (new : Nat) : M Unit := do
  let old ← rf ACT.CPL_STAT.STATE
  if old ≠ new then
    wf ACT.CPL_STAT.STATE new
    if new = 3 ∨ new = 4 then eventDev 0x802E (by1 [new])

/-- The refusal of a lock command (R303). -/
def State.cplRefusal (s : State) (cmd : Nat) : Option (Nat × Nat) :=
  if cmd = 2 ∧ s.f ACT.CPL_STAT.INHIBIT = 1 then some (ACT.CPL_STAT, 0x0B0A) else none

/-- Drive towards locked (1) or unlocked (2); a switch that already reads the commanded state ends the drive. -/
def cplDrive (cmd : Nat) : M Unit := do
  let s ← getS
  if s.f ACT.CPL_STAT.SW = (if cmd = 1 then 1 else 0) then setCpl (if cmd = 1 then 3 else 4)
  else setCpl cmd

/-- A command of the lock (R302, R303): 0 STOP, 1 LOCK, 2 UNLOCK. While INHIBIT is 1 the lock does not unlock. -/
def cplCommand (cmd : Nat) : M Unit := do
  let s ← getS
  if (s.cplRefusal cmd).isSome then pure ()
  else if s.cplGroup.isNone then hid fun h => { h with act := { h.act with cplWaits := some cmd } }
  else
    let st := s.f ACT.CPL_STAT.STATE
    if cmd = 0 then
      hid fun h => { h with act := { h.act with cplNext := none } }
      setCpl 0
    else if st = cmd then hid fun h => { h with act := { h.act with cplNext := none } }
    else if st = 1 ∨ st = 2 then
      -- the opposite direction: off for 20 ms first
      hid fun h => { h with act := { h.act with cplNext := some cmd } }
      setCpl 0
    else if s.hid.act.cplNext = none then cplDrive cmd
    else hid fun h => { h with act := { h.act with cplNext := some cmd } }

/-- CPL_REVERSE_DELAY: the 20 ms are over. -/
def cplReverse : M Unit := do
  let s ← getS
  match s.hid.act.cplNext with
  | some cmd =>
    hid fun h => { h with act := { h.act with cplNext := none } }
    if s.cplGroup.isSome then cplDrive cmd
  | none => pure ()

/-- CPL_EVALUATION: once per window the lock's edges are posted (R287, R302). -/
def cplEvaluation : M Unit := do
  let s ← getS
  match s.cplGroup with
  | none => pure ()
  | some g =>
    let wins := (s.tbase (s.grpTb g)).wins
    if s.present 5 ∧ s.hid.act.cplWin ≠ wins then
      hid fun h => { h with act := { h.act with cplWin := wins, cplWaits := none } }
      match s.hid.act.cplWaits with
      | some c => cplCommand c
      | none => pure ()
      let s ← getS
      let p := s.tbP (s.grpTb g)
      let st := s.f ACT.CPL_STAT.STATE
      if st = 1 ∨ st = 2 then
        let h := (2 * 32 * p * s.f ACT.CPL_CFG.DUTY + 1000) / 2000
        let (a, b) := if st = 1 then (0, 1) else (1, 0)
        postLeg g a (bridgeEdges p h)
        postLeg g b (bridgeEdges p 0)
      else legsOff g 2
      let _ ← loopCommit g

/-- CPL_SW_CHANGE: ball CPL_SW takes a level (R302, R303); a lock lost is an emergency stop of a charging session (R320). -/
def cplSwitch (level : Bool) : M Unit := do
  let s ← getS
  let sw := level != (s.f ACT.CPL_CFG.SW_POL == 1)
  let st := s.f ACT.CPL_STAT.STATE
  wf ACT.CPL_STAT.SW (b2n sw)
  if st = 1 ∧ sw then setCpl 3
  if st = 2 ∧ !sw then setCpl 4
  if st = 3 ∧ !sw then
    setCpl 4
    inc ACT.CPL_STAT.SW_LOSSES
    occur 116 (s.f ACT.CPL_CFG.GROUP) 0
    emergencyStop 116 false

/-- CPL_TIMEOUT: the drive still runs after TMAX (R302). -/
def cplTimeout : M Unit := do
  let s ← getS
  let st := s.f ACT.CPL_STAT.STATE
  if st = 1 ∨ st = 2 then
    inc ACT.CPL_STAT.FAILS
    setCpl 5
    occur 115 (s.f ACT.CPL_CFG.GROUP) 0

end Sys2Proof.Machine
end

