-- ==== Sys2Proof/Machine/DcLink.lean ====
section
/-! DEFINITION. The DC-link supervisor and the brake chopper (R242 to R253). -/

namespace Sys2Proof.Machine

/-- Update the supervisor's record. -/
def updDcl (f : DclSt → DclSt) : M Unit := hid fun h => { h with dcl := f h.dcl }

/-- A voltage threshold in V against a link voltage in units of 2^-16 V. -/
def vAtLeast (v volts : Nat) : Bool := decide (volts * 65536 ≤ v)

/-- Whether the L3 cell is in trip (R249). -/
def State.l3Trip (s : State) : Bool :=
  let c := s.f DCL.CTRL.L3_CELL
  decide (c < 72) && s.f (TRP.CELL_STAT.IN_TRIP c) == 1

/-- DCL_LEVEL (R248, R249): the level, V, CHOP_AVAIL. -/
def levelEvent (level : Nat) : M Unit := do
  let s ← getS
  eventDev 0x8028 (by1 [level, s.f DCL.STATUS.CHOP_AVAIL] ++ leBytes 2 (s.f DCL.STATUS.VDC))

/-- LEVEL shows 3 while the L3 cell is in trip, the supervisor's level otherwise; a trip that begins waits to be announced
(R249). -/
def showLevel : M Unit := do
  let s ← getS
  wf DCL.STATUS.LEVEL (if s.l3Trip then 3 else s.hid.dcl.level)
  updDcl fun d => { d with l3 := s.l3Trip, tell3 := d.tell3 || (s.l3Trip && !d.l3) }

/-- The management tick announces an L3 trip that began since the last one (R249). -/
def levelTick : M Unit := do
  if (← getS).hid.dcl.tell3 then
    updDcl fun d => { d with tell3 := false }
    levelEvent 3

/-- A field engine shows the regeneration clamp while it is set and the engine's EN is 1 (R222, R247). -/
def showClamp (m : Nat) : M Unit := do
  let s ← getS
  wf (FLD.MCH_STAT.REGEN_CLAMP m) (b2n (s.f DCL.STATUS.REGEN_CLAMP == 1 && s.f (FLD.MCH_CFG.EN m) == 1))

/-- The regeneration clamp of every enabled field engine is set or released (R247); a change for an engine out of service is
dropped and counted (R26). -/
def setClamp (on : Bool) : M Unit := do
  let s ← getS
  if s.f DCL.STATUS.REGEN_CLAMP ≠ b2n on then
    if on then inc DCL.COUNT.CLAMPS
    wf DCL.STATUS.REGEN_CLAMP (b2n on)
    (List.range 2).forM fun m => do
      if s.f (FLD.MCH_CFG.EN m) = 1 then
        if s.present (2 + m) then showClamp m else inc (SYS.XFER.DROPPED_WRITES (2 + m))

/-- The machine groups of the enabled field engines. -/
def State.machineGroups (s : State) : List Nat :=
  ((List.range 2).filter fun m => s.f (FLD.MCH_CFG.EN m) == 1 && s.owner (s.f (FLD.MCH_CFG.GROUP m)) == 1 + m).map
    fun m => s.f (FLD.MCH_CFG.GROUP m)

/-- L2 (R248, R250): machine groups to their safe pattern, the groups of STOP_MASK off. -/
def levelTwo (rising : Bool) : M Unit := do
  let s ← getS
  let brk := s.f DCL.CTRL.BRK_GROUP
  s.machineGroups.forM fun g => do
    if g ≠ brk then
      let b ← tripAct g 1 0xFF
      if b then updDcl fun d => { d with l2 := g :: d.l2.erase g }
  (bitsSet (s.f DCL.STOP_MASK.GROUPS) 32).forM fun g => do
    if g ≠ brk then
      let b ← tripAct g 0 0xFF
      if b then updDcl fun d => { d with l2 := g :: d.l2.erase g }
  if rising then
    inc DCL.COUNT.L2_EVENTS
    occur 92 0 (s.f DCL.STATUS.VDC)
    levelEvent 2

/-- Turn the channels of the chopper group on or off in place of their edges (R243, R246). To the output cell that is an
edge: a CBC cell in trip state, a starved bootstrap supply or a sinking driver keeps a channel off (R124, R128, R144, R153). -/
def chopSwitch (on : Bool) : M Unit := do
  let s ← getS
  let g := s.f DCL.CTRL.BRK_GROUP
  if g < 32 ∧ s.active g then
    (s.chans g).forM fun c => do
      if on then takeOn ⟨c, s.chNow c⟩ else cellOff c (s.chNow c)

/-- DCL_EVALUATION: the latest result of the link slot reaches the supervisor (R242, R243, R247, R248, R253). -/
def dclEvaluation : M Unit := do
  let s ← getS
  let slot := s.f DCL.VSRC.SLOT
  match s.codeSince slot s.hid.dcl.seen with
  | none => pure ()
  | some code =>
    if s.f DCL.CTRL.EN = 1 then
      let v := code * s.f DCL.VSRC.V_GAIN
      let hyst := s.f DCL.LEVELS.HYST
      let l1 := s.f DCL.LEVELS.L1
      let l2 := s.f DCL.LEVELS.L2
      let was := s.hid.dcl.level
      let level := if vAtLeast v l2 then 2 else if vAtLeast v l1 then 1 else 0
      updDcl fun d => { d with seen := s.slotStamp slot, lost := false, level := level, v := v }
      wf DCL.STATUS.VDC (min 2047 (v / 65536))
      wf DCL.STATUS.SENSE_OK 1
      -- chopper demand (R243)
      let on := if s.f DCL.CTRL.BATT_BLOCK = 1 then s.f DCL.CHOP.V_HOLD else l1
      if s.f DCL.STATUS.CHOP_DEMAND = 0 ∧ vAtLeast v on then
        wf DCL.STATUS.CHOP_DEMAND 1
        inc DCL.COUNT.L1_EVENTS
        if s.f DCL.STATUS.CHOP_AVAIL = 1 then chopSwitch true
      if s.f DCL.STATUS.CHOP_DEMAND = 1 ∧ !vAtLeast v (on - hyst) then
        wf DCL.STATUS.CHOP_DEMAND 0
        if s.f DCL.STATUS.CHOP_AVAIL = 1 then chopSwitch false
      -- regeneration clamp (R247)
      if vAtLeast v l1 ∧ s.f DCL.STATUS.CHOP_AVAIL = 0 then setClamp true
      if !vAtLeast v (l1 - hyst) then setClamp false
      if level = 2 then levelTwo (was ≠ 2)
      showLevel
      -- undervoltage (R253)
      let low := !vAtLeast v (s.f DCL.UV.UV_LIM) && s.machineGroups.any fun g => s.gst g == .running
      if low ∧ s.f DCL.STATUS.UV = 0 then occur 94 0 (v / 65536)
      wf DCL.STATUS.UV (b2n low)

/-- DCL_SENSE_LOST: no usable result within TIMEOUT (R242, R247). -/
def senseLost : M Unit := do
  let s ← getS
  if s.f DCL.CTRL.EN = 1 ∧ !s.hid.dcl.lost then
    updDcl fun d => { d with lost := true }
    wf DCL.STATUS.SENSE_OK 0
    occur 91 0 0
    setClamp true

/-- A write of DCL.CTRL: the supervisor starts with the clamp held while it has no result, and stops (R242, R247); a
CONT_OPEN that is set is the host's report (R252). -/
def ctrlWritten (old : Word) : M Unit := do
  let s ← getS
  setAvail
  if s.f DCL.CTRL.EN = 1 ∧ bitsOf old 31 31 = 0 then
    updDcl fun d => { d with lost := false, seen := s.slotStamp (s.f DCL.VSRC.SLOT) }
    if s.f DCL.STATUS.SENSE_OK = 0 then setClamp true
  if s.f DCL.CTRL.EN = 0 ∧ bitsOf old 31 31 = 1 then
    setClamp false
    if s.f DCL.STATUS.CHOP_DEMAND = 1 then
      wf DCL.STATUS.CHOP_DEMAND 0
      if s.f DCL.STATUS.CHOP_AVAIL = 1 then chopSwitch false
    wf DCL.STATUS.SENSE_OK 0
    updDcl fun d => { d with level := 0 }
  showLevel

/-- The charging stop by link opening (R252). -/
def linkOpen : M Unit := do
  wf DCL.STATUS.LINK_OPEN 1
  occur 93 0 0
  emergencyStop 93 false

/-- CONT_OPEN: the supervisor trips the running groups of CHG_CELL's TARGET (R252). -/
def contOpen : M Unit := do
  let s ← getS
  let c := s.f DCL.CTRL.CHG_CELL
  if s.f DCL.CTRL.EN = 1 ∧ s.f DCL.CTRL.CONT_OPEN = 1 ∧ c < 72 then
    let gs := (s.cellSel c).filter fun g => s.gst g == .running
    if !gs.isEmpty then
      gs.forM fun g => do
        let _ ← tripGroup g 0 0xFF
      linkOpen

/-- Do something in which comparator cells may trip; LEVEL follows the L3 cell (R249), and where the charging link cell tripped one of
its groups, the link opens (R252). -/
def watchCharge (m : M Unit) : M Unit := do
  let s ← getS
  m
  let t ← getS
  let c := s.f DCL.CTRL.CHG_CELL
  if s.f DCL.CTRL.EN = 1 ∧ c < 72 ∧ (s.cellSel c).any fun g =>
      s.gst g != .tripped && t.gst g == .tripped && t.f (TRP.GRP_TRIP.FIRST_CELL g) == c then
    linkOpen
  showLevel

/-- CHOPPER_CHECK (R245, R246): a check of a conduction against the live comparisons of CHK_CELL. -/
def chopperCheck (x : ChopCheck) : M Unit := do
  let s ← getS
  let g := s.f DCL.CTRL.BRK_GROUP
  let c := s.f DCL.CHOP.CHK_CELL
  if s.f DCL.CTRL.EN = 1 ∧ c < 72 ∧ g < 32 then
    let on := (s.chans g).any fun c => (s.chan c).on
    let hi := s.f (TRP.CELL_STAT.OUT_HI c) == 1
    let lo := s.f (TRP.CELL_STAT.OUT_LO c) == 1
    let (fails, kind) : Bool × Nat := match x with
      | .presence => (on && lo, 1)
      | .continuity => (on && lo, 1)
      | .short => (on && hi, 2)
      | .offState => (!on && !lo, 3)
    if fails then
      wf DCL.STATUS.CHOP_KIND kind
      inc DCL.COUNT.CHK_FAILS
      let b ← occurrence 90 g kind
      if b then
        wf DCL.STATUS.CHOP_FAULTY 1
        setAvail
        chopSwitch false
        eventDev 0x8029 (by1 [kind, 0] ++ leBytes 2 (s.f DCL.STATUS.VDC))

/-- Writing 1 to CHOP_FAULTY clears it (R246). -/
def chopFaultyClear : M Unit := do
  wf DCL.STATUS.CHOP_FAULTY 0
  setAvail

/-- Whether L2 keeps the latch of a group from being cleared (R251). -/
def State.l2Holds (s : State) (g : Nat) : Bool :=
  s.hid.dcl.l2.contains g && vAtLeast s.hid.dcl.v (s.f DCL.LEVELS.L2 - s.f DCL.LEVELS.HYST)

end Sys2Proof.Machine
end

