-- ==== Sys2Proof/Machine/FrontEnd.lean ====
section
/-! DEFINITION. The active front end on FE2 (R305 to R309), and what a lasting source of the charging interface does
(R324). What the chapter leaves open is in (DESIGN CHOICE) log entry 18. -/

namespace Sys2Proof.Machine

/-- Update the front end's record. -/
def updAfe (f : AfeSt → AfeSt) : M Unit := hid fun h => { h with afe := f h.afe }

/-- An occurrence of a source that stops a charging session (R320, R324): an emergency stop that ends in FAULT when the
source is lasting; outside a session a lasting source enters FAULT. -/
def chgOccur (src inst detail : Nat) : M Unit := do
  let b ← occurrence src inst detail
  let st ← rf CHG.STATUS.STATE
  if 3 ≤ st ∧ st ≤ 5 then emergencyStop src b
  else if b ∧ (← rf CHG.CFG.EN) = 1 then setChg 6 src

/-- The four voltages VA, VB, VC, VFE (R305): latest usable results. -/
def State.afeVolt (s : State) (r : Nat) : Fl :=
  (Fl.ofInt (((s.usable r 0).getD 0 : Int) - 0x8000)).mul (s.fls FLD.AFE_SCALE.V_GAIN 8192)

/-- The nominal grid frequency in Hz. -/
def State.nominalHz (s : State) : Nat := if s.f MEA.MAINS_CFG.NOMINAL = 1 then 60 else 50

/-- A quarter of the measured mains period in windows of the group (R306); the nominal one before a measurement. -/
def State.quarter (s : State) (g : Nat) : Nat :=
  let p := s.f MEA.MAINS.PERIOD
  let p := if p = 0 then (if s.nominalHz = 50 then 1280000 else 1066667) else p
  p * 100 / 64 / Nat.max 1 (s.winLen (s.grpTb g))

/-- Single-phase operation (R306). -/
def State.onePhase (s : State) : Bool := s.f FLD.AFE_STAT.NPH == 1

/-- One step of the phase-locked loop and the measurement (R306). -/
def pllStep (g : Nat) : M Unit := do
  let s ← getS
  let a := s.hid.afe
  let tw := s.winSec g
  let va := s.afeVolt (s.f FLD.AFE_SLOT.VA)
  let vb := s.afeVolt (s.f FLD.AFE_SLOT.VB)
  let vc := s.afeVolt (s.f FLD.AFE_SLOT.VC)
  let w0 := if a.tracking then a.omega else twoPi.mul (flN s.nominalHz)
  let th := if a.tracking then a.theta else Fl.zero
  let hist := (va :: a.va).take 4096
  let valph := if s.onePhase then va else ((((flN 2).mul va).sub vb).sub vc).div (flN 3)
  let vbeta := if s.onePhase then hist.getD (s.quarter g) Fl.zero else (vb.sub vc).div Fl.sqrt3
  let pk := norm valph vbeta
  let r := cs (th.div twoPi)
  let vq := (vbeta.mul r.1).sub (valph.mul r.2)
  -- without a voltage the rule states no error: a free one
  let open_ ← if pk.isZero then fresh else pure 0
  let e := if pk.isZero then Fl.ofRat (sx32 open_) 65536 else vq.div pk
  let wn := Fl.pi.mul (flN 60)
  let kp := ((flN 2).mul (Fl.ofRat 707 1000)).mul wn
  let ki := (wn.mul wn).mul tw
  let w := w0.add (ki.mul e)
  let th := wrapPi (th.add ((w.add (kp.mul e)).mul tw))
  let hz := w.div twoPi
  let dev := (hz.sub (flN s.nominalHz)).abs
  let inside : Bool := e.abs.lt (Fl.ofRat 5 100) && dev.le (s.fl FLD.AFE_WIN.F_DEV 1 10)
  let inN := if inside then a.inN + 1 else 0
  let outN := if inside then 0 else a.outN + 1
  updAfe fun x => { x with tracking := true, theta := th, omega := w, inN := inN, outN := outN, va := hist, vPk := pk }
  if 32 ≤ inN then wf FLD.AFE_STAT.LOCKED 1
  if 8 ≤ outN then wf FLD.AFE_STAT.LOCKED 0
  wf FLD.AFE_STAT.FREQ (← ufield hz 10 12)
  wf FLD.AFE_STAT.V_RMS (← ufield ((pk.div (flN 2).sqrt).div (flN 2)) 1 8)

/-- AFE_TRACKING_EVALUATION: while the AFE group is CONFIGURED FE2 tracks the grid and posts nothing (R305). -/
def trackingEvaluation : M Unit := do
  let s ← getS
  let g := s.f FLD.AFE_CFG.GROUP
  let wins := (s.tbase (s.grpTb g)).wins
  if s.present 4 ∧ s.f FLD.AFE_CFG.EN = 1 ∧ s.owner g = 3 ∧ s.gst g = .configured ∧ s.hid.afe.win ≠ wins ∧
      s.anySince [s.f FLD.AFE_SLOT.VA, s.f FLD.AFE_SLOT.VB, s.f FLD.AFE_SLOT.VC] s.hid.afe.begun then
    updAfe fun x => { x with win := wins, begun := s.hid.mea.total, vfe := none, badT := 0 }
    pllStep g

/-- The currents of the four legs, one unusable one reconstructed (R305). -/
def fillFour : List (Option Fl) → Option (List Fl)
  | [some a, some b, some c, some d] => some [a, b, c, d]
  | [none, some b, some c, some d] => some [(flSum [b, c, d]).neg, b, c, d]
  | [some a, none, some c, some d] => some [a, (flSum [a, c, d]).neg, c, d]
  | [some a, some b, none, some d] => some [a, b, (flSum [a, b, d]).neg, d]
  | [some a, some b, some c, none] => some [a, b, c, (flSum [a, b, c]).neg]
  | _ => none

/-- Whether the grid is outside its window (R309): RMS phase voltage or frequency. -/
def State.gridBad (s : State) : Bool :=
  let a := s.hid.afe
  let v := a.vPk.div (flN 2).sqrt
  let dev := ((a.omega.div twoPi).sub (flN s.nominalHz)).abs
  !((s.fl FLD.AFE_WIN.V_MIN 1 1).le v && v.le (s.fl FLD.AFE_WIN.V_MAX 1 1) && dev.le (s.fl FLD.AFE_WIN.F_DEV 1 10))

/-- What the bus loop and the current loop answer (R307): whether the current reference was limited, the α, β voltages
and the neutral's, and the engine's record. -/
structure AfeControl where
  sat : Bool
  va : Fl
  vb : Fl
  vn : Fl
  next : AfeSt

/-- The bus loop (R307): the ramped reference, which starts at the measured bus, and the limited current references. -/
def State.busLoop (s : State) (vfe : Fl) : Fl × Fl × Fl × Fl × Bool :=
  let a := s.hid.afe
  let ref := s.fl FLD.AFE_CFG.VFE_REF 1 10
  let rate := s.fl FLD.AFE_VLOOP.VFE_RATE 1 1000
  let old := a.vfe.getD vfe
  let ramped := if (old.add rate).lt ref then old.add rate else if ref.lt (old.sub rate) then old.sub rate else ref
  let ramped := if a.vfe.isNone then vfe else ramped
  let e := ramped.sub vfe
  let idr := ((s.fl FLD.AFE_VLOOP.KP_V 1 100).mul e).add a.intV
  let q := Fl.ofRat (10 * sx16 (s.f FLD.AFE_LIM.Q_SET)) 1
  let iqr := ((flN 2).mul q).neg.div ((flN 3).mul a.vPk)
  let lim := ((flN 2).sqrt).mul (s.fl FLD.AFE_LIM.I_GRID_MAX 1 10)
  let (id1, iq1, sat) := scaleTo idr iqr lim
  (ramped, integrator a.intV (s.fl FLD.AFE_VLOOP.KI_V 1 10000) e idr sat, id1, iq1, sat)

/-- The bus loop and the current loop (R307). -/
def State.afeVolts (s : State) (g : Nat) (i : List Fl) : AfeControl :=
  let a := s.hid.afe
  let z := Fl.zero
  let vfe := s.afeVolt (s.f FLD.AFE_SLOT.VFE)
  let (ramped, intV, id1, iq1, sat) := s.busLoop vfe
  let ia := i.getD 0 z
  let ib := i.getD 1 z
  let ic := i.getD 2 z
  let tot := flSum [ia, ib, ic]
  let hist := (tot :: a.ia).take 4096
  let ial := if s.onePhase then tot else ((((flN 2).mul ia).sub ib).sub ic).div (flN 3)
  let ibe := if s.onePhase then hist.getD (s.quarter g) z else (ib.sub ic).div Fl.sqrt3
  let r := cs (a.theta.div twoPi)
  let (d, qq) := rotIn r ial ibe
  let kp := s.fl FLD.AFE_GAIN.KP_I 1 1000
  let ki := s.fl FLD.AFE_GAIN.KI_I 1 1000000
  let l := s.fl FLD.AFE_CFG.L_F 1 1000000
  let ed := id1.sub d
  let vd := (((kp.mul ed).add a.intD).sub ((a.omega.mul l).mul qq)).add a.vPk
  let eq := iq1.sub qq
  let vq := ((kp.mul eq).add a.intQ).add (a.omega.mul (l.mul d))
  let vlim := ((Fl.ofRat 975 1000).mul vfe).div Fl.sqrt3
  let (vd1, vq1, sv) := scaleTo vd vq vlim
  let (va, vb) := rotOut r vd1 vq1
  let ez := tot.neg
  { sat := sat, va := va, vb := vb, vn := (kp.mul ez).add a.intZ
    next := { a with vfe := some ramped, intV := intV, ia := hist
                     intD := integrator a.intD ki ed vd sv, intQ := integrator a.intQ ki eq vq sv
                     intZ := if s.onePhase then a.intZ else a.intZ.add (ki.mul ez) } }

/-- The loops act; the answer is what they ask of the legs. -/
def afeLoops (g : Nat) (i : List Fl) : M AfeControl := do
  let c := (← getS).afeVolts g i
  wf FLD.AFE_STAT.SAT_I (b2n c.sat)
  updAfe fun _ => c.next
  return c

/-- The duties of the legs (R308). -/
def State.afeDuties (s : State) (c : AfeControl) : List Fl :=
  let vfe := s.afeVolt (s.f FLD.AFE_SLOT.VFE)
  let half := Fl.ofRat 1 2
  if s.onePhase then
    let x := c.va.div ((flN 2).mul vfe)
    [half.add x, half.add x, half.add x, half.sub x]
  else
    let h := half.neg
    let v := [c.va, (h.mul c.va).add (root34.mul c.vb), (h.mul c.va).sub (root34.mul c.vb)]
    (v.map fun x => half.add ((x.sub c.vn).div vfe)) ++ [half.add (c.vn.div vfe)]

/-- Post the sixteen channels (R308). -/
def afePost (g : Nat) (duties : List Fl) : M Unit := do
  let s ← getS
  let p := s.tbP (s.grpTb g)
  (duties.zip (List.range 4)).forM fun x => do
    let d := Fl.clamp (Fl.ofRat 2 100) (Fl.ofRat 98 100) x.1
    let h ← ufield ((d.mul (flN 32)).mul (flN p)) 1 30
    postLeg g x.2 [(32 * p - h, 32 * p + h), (32 * p + h, 32 * p - h), (64 * p - h, h), (h, 64 * p - h)]

/-- AFE_EVALUATION (R305 to R309). -/
def afeEvaluation : M Unit := do
  let s ← getS
  let g := s.f FLD.AFE_CFG.GROUP
  let wins := (s.tbase (s.grpTb g)).wins
  let since := s.hid.afe.begun
  let slots := [s.f FLD.AFE_ISLOT.IA, s.f FLD.AFE_ISLOT.IB, s.f FLD.AFE_ISLOT.IC, s.f FLD.AFE_ISLOT.IN]
  if s.present 4 ∧ s.f FLD.AFE_CFG.EN = 1 ∧ s.owner g = 3 ∧ s.active g ∧ s.hid.afe.win ≠ wins ∧ s.anySince slots since then
    let locked := s.f FLD.AFE_STAT.LOCKED
    updAfe fun x => { x with win := wins, begun := s.hid.mea.total }
    let cur (r : Nat) : Option Fl := (s.codeSince r since).map fun c =>
      (Fl.ofInt ((c : Int) - 0x8000)).mul (s.fls FLD.AFE_SCALE.I_GAIN 8192)
    match fillFour (slots.map cur) with
    | none =>
      inc FLD.AFE_STAT.HOLDS
      let _ ← loopCommit g
      occur 85 g FLD.AFE_STAT
    | some i =>
      pllStep g
      let s ← getS
      let t := if s.gridBad then s.hid.afe.badT + s.winLen (s.grpTb g) else 0
      updAfe fun x => { x with badT := t }
      let lost : Bool := s.gst g == .running && locked == 1 && s.f FLD.AFE_STAT.LOCKED == 0
      let gone : Bool := s.gst g == .running && decide (s.f FLD.AFE_WIN.TRIP_MS * 400000 ≤ t) && decide (0 < t)
      if lost ∨ gone then
        let _ ← tripGroup g 0 0xFF
        if lost then chgOccur 86 g 0
        if gone then chgOccur 87 g 0
      else
        let c ← afeLoops g i
        afePost g (s.afeDuties c)
        let _ ← loopCommit g

end Sys2Proof.Machine
end

