-- ==== Sys2Proof/Machine/Check.lean ====
section
/-! DEFINITION. The consistency check of R57: every condition of every chapter, each found failure as the address of
the offending parameter and the reason; the one reported has the lowest address. -/

namespace Sys2Proof.Machine

/-- Failures found: parameter address and reason code. -/
abbrev Fails := List (Nat × Nat)

/-- One condition. -/
def failIf (c : Bool) (a r : Nat) : Fails := if c then [(a, r)] else []

/-- The failure with the lowest page and, within it, the lowest address (R57). -/
def firstFail : Fails → Option (Nat × Nat)
  | [] => none
  | x :: r =>
    match firstFail r with
    | none => some x
    | some y => if y.1 < x.1 then some y else some x

/-! ## Channel map (R83) -/

/-- The interlock sets the channels of a group name. -/
def State.grpSets (s : State) (g : Nat) : List Nat := (((s.chans g).map s.chSet).filter fun i => decide (i < 48)).dedup

/-- The combinations of the occupied slots of a set. -/
def State.ilkCombos (s : State) (i : Nat) : List Nat :=
  (List.range 16).filter fun m => (List.range 4).all fun j => !bit m j || decide (s.ilkSlot i j < 144)

/-- Whether FORBID of a set is no sound mask (R83). -/
def State.ilkMaskBad (s : State) (i : Nat) : Bool :=
  let f := s.ilkForbid i
  (s.ilkCombos i).any fun m =>
    bit f m && ((bitsSet m 4).length ≤ 1 ||
      (s.ilkCombos i).any fun n => n != m && (bitsSet m 4).all (bit n) && !bit f n)

/-- Whether what serves a channel is reported failed by SPARE_STATUS (R83, R84, R156): its generator, or the driver of its
output cell. -/
def State.chanFailed (s : State) (c : Nat) : Bool :=
  let x := s.cellOf c
  sget? s.hid.trp.spares (s.source c) == some .failed ||
    (isDriver x && bit (s.f GDR.DRV_FAILED.PAIRS) ((x - 96) / 2))

/-- The channel-map conditions of R83. A channel listed in a set it does not name, or listed twice, conflicts also where no
channel of the group names that set (DESIGN CHOICE, log entry 12). -/
def State.checkMap (s : State) (g : Nat) : Fails :=
  match s.chans g with
  | [] => [(MAP.CHMAP 0 0, 0x0205)]
  | c0 :: rest =>
    let cs := c0 :: rest
    let sets := s.grpSets g
    let split (i : Nat) : Bool :=
      (s.ilkChans i).any fun c => (s.ilkChans i).any fun d => s.chGroup c != s.chGroup d || s.chTb c != s.chTb d
    let conflict (c : Nat) : Bool :=
      decide ((((List.range 48).flatMap fun i => s.ilkChans i).filter (· == c)).length > 1) ||
        (if s.chSet c = 0xFF then (List.range 48).any fun i => (s.ilkChans i).contains c
         else s.chSlot c ≥ 4 || s.ilkSlot (s.chSet c) (s.chSlot c) != c)
    ((cs.find? fun c => isDriver c != isDriver c0).toList.map fun c => (MAP.CHMAP c 0, 0x0201)) ++
    (((List.range 48).filter fun i => sets.contains i && split i).take 1).map (fun i => (MAP.ILK i 0, 0x0202)) ++
    ((cs.filter conflict).take 1).map (fun c => (MAP.CHMAP c 0, 0x0203)) ++
    (((List.range 48).filter fun i => sets.contains i && s.ilkMaskBad i).take 1).map (fun i => (MAP.ILK i 0, 0x0204)) ++
    ((cs.filter s.chanFailed).take 1).map (fun c => (MAP.CHMAP c 0, 0x0206))

/-! ## Pulse generation (R113) -/

/-- The timebase whose P is in force (R113). -/
def State.pTb (s : State) (t : Nat) : Nat := if s.tbMode t = 1 then s.f (PLS.TB_SYNC.MASTER t) else t

/-- Whether a trigger compare breaks R113. -/
def State.trgBad (s : State) (t j : Nat) : Bool :=
  let r := s.f (PLS.TRG_CFG.REF_CH t j)
  s.f (PLS.TRG_CFG.EN t j) == 1 && s.f (PLS.TRG_CFG.MODE t j) != 0 &&
    (s.tbDouble t || s.f (PLS.TRG_CFG.MODE t j) == 3 || s.tbP t ≤ s.f (PLS.TRG_CFG.ADVANCE t j) ||
      !(s.tbChans t).contains r)

/-- The conditions of R113 on one timebase. -/
def State.checkTb (s : State) (g t : Nat) : Fails :=
  let p := s.tbP t
  let m := s.f (PLS.TB_SYNC.MODE t)
  let u := s.f (PLS.TB_SYNC.MASTER t)
  failIf (p < 200 || 16777216 < p) (PLS.TB_PERIOD (s.pTb t)) 0x0301 ++
  failIf (s.tbDouble t && (p % 2 == 1 || s.f (PLS.TB_CFG.RELOAD_DIV t) != 0)) (PLS.TB_CFG t) 0x0302 ++
  failIf (m == 3 || (m != 0 && (u == t || s.f (PLS.TB_SYNC.MODE u) != 0 || s.tbP u ≤ s.f (PLS.TB_SYNC.OFFSET t))))
    (PLS.TB_SYNC t) 0x0303 ++
  failIf (!s.tbRuns t) (PLS.TB_CFG t) 0x0304 ++
  failIf (s.loopOwned g && s.winLen t < 2000) (PLS.TB_PERIOD (s.pTb t)) 0x0305 ++
  (List.range 4).flatMap fun j => failIf (s.trgBad t j) (PLS.TRG_CFG t j) 0x0306

/-- The conditions of R113. -/
def State.checkPls (s : State) (g : Nat) : Fails :=
  (s.grpTbs g).flatMap (s.checkTb g) ++
  (((s.chans g).map (· / 16)).dedup.flatMap fun b => failIf (s.f (PLS.CAL.CAL_VALID b) == 0) (PLS.CAL b) 0x0307)

/-! ## Comparator cells (R131) -/

/-- The logical cells: every cell but the spares. -/
def logicalCells : List Nat := (List.range 72).filter fun c => !isSpareCell c

/-- The inputs a cell selects. -/
def State.cellAins (s : State) (c : Nat) : List Nat :=
  ([(s.tb 0x40 (20 * c)).toNat, (s.tb 0x40 (20 * c + 1)).toNat].filter (· != 0xFF)).dedup

/-- BLANK_CH of a cell. -/
def State.cellBlank (s : State) (c : Nat) : Nat := (s.tb 0x40 (20 * c + 13)).toNat

/-- The channel of a CBC cell. -/
def State.cellChan (s : State) (c : Nat) : Nat := s.cellTarget c % 256

/-- The groups a cell acts on: selected by TARGET, or that of its CBC channel. -/
def State.cellActs (s : State) (c : Nat) : List Nat :=
  if s.cellRoute c = 3 then [s.chGroup (s.cellChan c)].filter fun g => decide (g < 32) else s.cellSel c

/-- Whether R131 considers a cell for a group. -/
def State.cellBears (s : State) (c g : Nat) : Bool :=
  s.cellEn c && ((s.cellActs c).contains g || (s.cellBlank c != 0xFF && s.chGroup (s.cellBlank c) == g))

/-- The conditions of R131 on one cell. -/
def State.checkCell (s : State) (c : Nat) : Fails :=
  let a := TRP.CELLCFG c 0
  let r := s.cellRoute c
  let b := c / 9
  let uses (x : Nat) : Nat := (logicalCells.filter fun d => s.cellEn d && (s.cellAins d).contains x).length
  let bg := s.chGroup (s.cellBlank c)
  failIf ((s.cellAins c).any fun x => decide (2 < uses x)) a 0x0401 ++
  failIf ((r == 3 && (s.cellMode c != 0 || decide (32 ≤ s.chGroup (s.cellChan c)))) ||
    (r == 2 && (s.tb 0x40 (20 * c + 12)).toNat == 0) || (s.cellRamp c != 0 && r != 3) ||
    ((r == 1 || r == 2) && s.cellTarget c == 0)) a 0x0402 ++
  failIf (s.cellMode c == 2 && s.cellHi c ≤ s.cellLo c) a 0x0404 ++
  failIf (s.cellBlank c != 0xFF && (decide (32 ≤ bg) || (r != 0 && !(s.cellActs c).contains bg))) a 0x0405 ++
  failIf (bit (s.f (TRP.BANK_STAT.FAILED b)) (c % 9) &&
    ((s.bank b).serves != some (c % 9) || bit (s.f (TRP.BANK_STAT.FAILED b)) 8)) a 0x0406 ++
  failIf (s.f (TRP.BANK_STAT.DEGRADED b) == 1 && s.f (TRP.BANK_STAT.CMD_TESTED b) == 0) (TRP.BANK_STAT b) 0x0407 ++
  failIf (s.bank b).testing (TRP.BANK_STAT b) 0x0107

/-- The conditions of R131. -/
def State.checkTrp (s : State) (g : Nat) : Fails := (logicalCells.filter fun c => s.cellBears c g).flatMap s.checkCell

/-! ## Gate drive (R157) -/

/-- The conditions of R157 on a pair whose slot H channel is in the group. -/
def State.checkPair (s : State) (g p : Nat) : Fails :=
  let h := 96 + 2 * p
  let l := h + 1
  let i := s.chSet h
  let dt := if i < 48 then s.f (PLS.DEADTIME.DT i) else 0
  let w := s.f (GDR.DRV_CFG.REFRESH_W p)
  let boot := s.f (GDR.DRV_CFG.BOOT_EN p) == 1
  if s.chGroup h ≠ g then [] else
  failIf (boot && (s.chGroup l != g || decide (48 ≤ i) || s.chSet l != i)) (GDR.DRV_CFG p) 0x0502 ++
  failIf (s.f (GDR.DRV_CFG.SC_EN p) == 1 && decide (32 ≤ s.chGroup l)) (GDR.DRV_CFG p) 0x0504 ++
  failIf (boot && (s.f (GDR.DRV_CFG.REFRESH_INT p) == 0 || w == 0 || dt == 0 || s.tbP (s.chTb h) ≤ 2 * dt + w))
    (GDR.DRV_CFG p) 0x0507

/-- The conditions of R157. -/
def State.checkGdr (s : State) (g : Nat) : Fails :=
  ((List.range 8).flatMap fun r =>
    failIf (s.f (GDR.RDY_CFG.EN r) == 1 && s.f (GDR.RDY_CFG.GROUP r) == g && s.f (GDR.RDY_CFG.READY r) == 0)
      (GDR.RDY_CFG r) 0x0501) ++
  ((s.grpSets g).flatMap fun i => failIf (s.inFallback i) (if i < 32 then GDR.ILK_FB0 else GDR.ILK_FB1) 0x0503) ++
  failIf (s.f GDR.STATUS.VDRV_OK == 0 && (s.chans g).any isDriver) GDR.STATUS 0x0505 ++
  (List.range 24).flatMap (s.checkPair g)

/-! ## Measurement (R187) -/

/-- The timebase of a binding. -/
def State.bindTb (s : State) (k m : Nat) : Nat := s.f (MEA.BIND.TRIG_SRC k m) / 4

/-- Clocks of an entry (R163). -/
def State.entryClocks (s : State) (k e : Nat) : Nat := 32 * 2 ^ (s.seqByte k e 2 / 16 % 4)

/-- The slots the runs of a logical converter write. -/
def State.convSlots (s : State) (k : Nat) : List Nat :=
  (s.bindings k).flatMap fun m => (s.runEntries k m).map fun e => s.seqByte k e 3

/-- The slots written by sequences of converters bound to a timebase. -/
def State.tbSlots (s : State) (t : Nat) : List Nat :=
  (List.range 8).flatMap fun k => if (s.convTbs k).contains t then s.convSlots k else []

/-- The slots any sequence writes. -/
def State.allSlots (s : State) : List Nat := (List.range 8).flatMap s.convSlots

/-- Whether an entry is no legal entry (R187). -/
def State.entryBad (s : State) (k e : Nat) : Bool :=
  let p := s.seqByte k e 0
  let n := s.seqByte k e 1
  let c := s.seqByte k e 2
  p == n || decide (0x48 ≤ p) || (decide (0x40 ≤ n) && n != 0xFF) || bit c 6 || bit c 1 || bit c 0 || c / 4 % 4 == 3

/-- The conditions of R187 on the run of one binding by itself. -/
def State.checkRun (s : State) (k m : Nat) : Fails :=
  let src := s.f (MEA.BIND.TRIG_SRC k m)
  let start := s.f (MEA.BIND.START k m)
  let (es, last) := s.runFrom k start
  failIf (!last) (MEA.SEQ k (2 * start)) 0x0601 ++
  failIf (decide (s.winLen (src / 4) * 2 < (es.map (s.entryClocks k)).sum * 5)) (MEA.BIND k m) 0x0602 ++
  es.flatMap fun e =>
    failIf (s.entryBad k e) (MEA.SEQ k (2 * e)) 0x0601 ++
    failIf (!s.entryBad k e && !s.refSettled (s.seqByte k e 2 / 4 % 4)) MEA.REF 0x0603

/-- The conditions of R187 on one binding of a converter that group `g` uses. -/
def State.checkBind (s : State) (g k m : Nat) : Fails :=
  let src := s.f (MEA.BIND.TRIG_SRC k m)
  let (es, _) := s.runFrom k (s.f (MEA.BIND.START k m))
  let dests := es.map fun e => s.seqByte k e 3
  let others := ((List.range 8).filter fun i => i != k && s.convUses i g).flatMap s.convSlots
  s.checkRun k m ++
  failIf (s.f (PLS.TRG_CFG.EN (src / 4) (src % 4)) == 0) (MEA.BIND k m) 0x0607 ++
  es.flatMap fun e =>
    failIf (others.contains (s.seqByte k e 3) || decide (1 < (dests.filter (· == s.seqByte k e 3)).length))
      (MEA.SEQ k (2 * e)) 0x0608

/-- The conditions of R187. -/
def State.checkMea (s : State) (g : Nat) : Fails :=
  failIf (s.rd MEA.FORMAT != 0) MEA.FORMAT 0x0604 ++
  ((List.range 8).filter fun k => s.convUses k g).flatMap fun k =>
    failIf (s.f (MEA.CONV_STAT.FAILED k) == 1 && s.f (MEA.CONV_STAT.PHYS k) == k) (MEA.CONV_STAT k) 0x0605 ++
    (s.bindings k).flatMap (s.checkBind g k)

/-! ## The Lattice (R208) -/

/-- The destinations of a rate group: its lowest members. -/
def State.rgHeads (s : State) (n : Nat) : List Nat := (s.rgCells n).filter fun c => s.msHead n c == c

/-- The enabled templates of a rate group, each with its cell. -/
def State.rgTpls (s : State) (n : Nat) : List (Nat × Nat) :=
  (s.rgHeads n).flatMap fun c => (s.templates c).map fun e => (c, e)

/-- Whether a template is a PERIOD template. -/
def State.tplIsPeriod (s : State) (e : Nat) : Bool := s.f (LAT.TPL_CTL.KIND e) == 1

/-- Whether the sequencer of the buck drives a rate group (R346). -/
def State.buckRg (s : State) (n : Nat) : Bool := s.f CNV.BUCK_CFG.EN == 1 && s.f CNV.BUCK_CFG.RG == n

/-- The templates the sequencer counts as in the budget (R346). -/
def State.seqTpls (s : State) (n : Nat) : Nat := if s.buckRg n then 4 * (s.f CNV.BUCK_CFG.PHASES + 1) else 0

/-- T_n of R207 in thirds of a nanosecond × 10^-3: picoseconds. -/
def State.rgTime (s : State) (n : Nat) : Nat :=
  let cells := s.rgCells n
  let ms := ((cells.map fun c => s.dB c 3).filter (· != 0xFF)).dedup.length
  let tpls := (s.rgTpls n).length + s.seqTpls n
  let words := ((s.rgTpls n).map fun x =>
    if s.tplIsPeriod x.2 then (1, 0, 0) else (0, s.f (LAT.TPL_CTL.CHANNEL x.2), s.f (LAT.TPL_CTL.EDGE x.2))).dedup.length
      + s.seqTpls n
  40000 * cells.length + 3333 * ms + 6667 * tpls + 1667 * (words + 1)

/-- Whether the budget of R207 fails for a rate group; the window is in pulse clocks of 2,500 ps. -/
def State.rgOver (s : State) (n : Nat) : Bool :=
  let g := s.f (LAT.RG_CFG.GROUP n)
  let lower := (List.range n).filter fun i => s.f (LAT.RG_CFG.EN i) == 1
  s.f (LAT.RG_CFG.EN n) == 1 && decide (g < 32) &&
    decide (s.winLen (s.grpTb g) * 1250 < s.rgTime n + (lower.map s.rgTime).sum + 40000)

/-- FALL or RISE of an EDGE template in fine units, not wrapped, at an output. -/
def State.tplRaw (s : State) (e : Nat) (u : Int) (p : Nat) : Int := s.tplVal e u * (64 * p) / 2 ^ 59

/-- P at one bound of the outputs `u` (R203, R208). -/
def State.boundP (s : State) (n p0 : Nat) (u : Nat → Int) : Nat :=
  match (s.rgTpls n).find? fun x => s.tplIsPeriod x.2 with
  | some x => s.tplPeriod x.2 (u x.1)
  | none => p0

/-- Whether the pulse from template `x` to template `y` leaves its range at UMIN or at UMAX (R208). It is unwrapped by
the turns it needs at UMIN, the same at UMAX, since the pulse length is affine in u. -/
def State.pulseBad (s : State) (n p0 : Nat) (x y : Nat × Nat) : Bool :=
  let lo (c : Nat) : Int := s.dW c 32
  let hi (c : Nat) : Int := s.dW c 36
  let full (u : Nat → Int) : Int := 64 * (s.boundP n p0 u : Int)
  let raw (u : Nat → Int) : Int :=
    s.tplRaw y.2 (u y.1) (s.boundP n p0 u) - s.tplRaw x.2 (u x.1) (s.boundP n p0 u)
  let turns := raw lo / full lo
  let bad (u : Nat → Int) : Bool :=
    let d := raw u - turns * full u
    decide (d < 640) || decide (full u - 640 < d)
  bad lo || bad hi

/-- The edge-range condition of R208. -/
def State.edgeRange (s : State) (n p0 : Nat) : Fails :=
  let ts := s.rgTpls n
  let perBad (x : Nat × Nat) (u : Int) : Bool :=
    let v := s.tplVal x.2 u / 2 ^ 35
    decide (v < 200) || decide (16777216 < v)
  let edges := ts.filter fun x => !s.tplIsPeriod x.2
  let rise := edges.filter fun x => s.f (LAT.TPL_CTL.EDGE x.2) == 0
  let fall := edges.filter fun x => s.f (LAT.TPL_CTL.EDGE x.2) == 1
  (ts.flatMap fun x =>
    failIf (s.tplIsPeriod x.2 && (perBad x (s.dW x.1 32) || perBad x (s.dW x.1 36))) (LAT.TPL_CTL x.2) 0x0706) ++
  rise.flatMap fun x =>
    match fall.find? fun y => s.f (LAT.TPL_CTL.CHANNEL y.2) == s.f (LAT.TPL_CTL.CHANNEL x.2) with
    | some y => failIf (s.pulseBad n p0 x y) (LAT.TPL_CTL x.2) 0x0706
    | none => []

/-- Whether a template names what it may not, or what another names already (R208). -/
def State.tplBad (s : State) (g : Nat) (before : List Nat) (e : Nat) : Bool :=
  let ch := s.f (LAT.TPL_CTL.CHANNEL e)
  if s.tplIsPeriod e then
    s.f (PLS.TB_CFG.OWNER_GRP (s.grpTb g)) != g
  else
    s.chGroup ch != g || before.any fun b => !s.tplIsPeriod b && s.f (LAT.TPL_CTL.CHANNEL b) == ch &&
      s.f (LAT.TPL_CTL.EDGE b) == s.f (LAT.TPL_CTL.EDGE e)

/-- The template conditions of R208, from the first template on. -/
def State.checkTpls (s : State) (g : Nat) (before : List Nat) : List Nat → Fails
  | [] => []
  | e :: r => failIf (s.tplBad g before e) (LAT.TPL_CTL e) 0x0705 ++ s.checkTpls g (e :: before) r

/-- The conditions of R208 on one cell. -/
def State.checkDesc (s : State) (slots : List Nat) (c : Nat) : Fails :=
  failIf (decide (s.dW c 36 ≤ s.dW c 32) || decide (s.dW c 44 < s.dW c 32) || decide (s.dW c 36 < s.dW c 44) ||
    !slots.contains (s.dB c 2) || decide (2 < s.dB c 48)) (LAT.DESC c 0) 0x0702

/-- The min-select conditions of R208. -/
def State.checkSelect (s : State) (n ms : Nat) : Fails :=
  let mem := (List.range 192).filter fun c => s.lcEn c && s.dB c 3 == ms
  match mem with
  | [] => []
  | c :: r =>
    failIf (decide (8 < mem.length) || mem.any (fun x => s.dB x 0 != n) || r.any fun x => s.dB x 48 != 0)
      (LAT.DESC c 0) 0x0703

/-- The cascade conditions of R208 on a destination. -/
def State.checkCascade (s : State) (n c : Nat) : Fails :=
  let tgt := s.dB c 49
  let sources := (List.range 192).filter fun x =>
    s.lcEn x && s.dB x 48 == 2 && s.dB x 49 == tgt && s.msHead (s.dB x 0) x == x
  failIf (s.dB c 48 == 2 && (decide (192 ≤ tgt) || s.dB tgt 0 != n ||
    (s.msMembers n c).any (fun x => decide (tgt ≤ x)) || decide (1 < sources.length))) (LAT.DESC c 0) 0x0704

/-- COMMIT_LEAD of a rate group (R208). -/
def State.checkLead (s : State) (n t : Nat) : Fails :=
  let lead := s.f (LAT.RG_CFG.COMMIT_LEAD n)
  failIf (s.f (LAT.RG_CFG.COMMIT n) == 1 && (decide (lead < 40) || decide (s.winLen t < lead + 240)))
    (LAT.RG_CFG n) 0x0708

/-- The conditions of R208. -/
def State.checkLat (s : State) (g : Nat) : Fails :=
  if s.owner g < 8 then [] else
  let n := s.owner g - 8
  let t := s.grpTb g
  let slots := s.tbSlots t
  let cells := s.rgCells n
  let bound := ((List.range 8).flatMap fun k => ((s.bindings k).filter fun m => s.bindTb k m == t).flatMap fun m =>
    (s.runEntries k m).map fun e => s.seqByte k e 3)
  failIf (s.f (LAT.RG_CFG.GROUP n) != g || s.f (LAT.RG_CFG.EN n) == 0 ||
    ((List.range 8).any fun i => i != n && s.f (LAT.RG_CFG.GROUP i) == g) ||
    !bound.contains (s.f (LAT.RG_CFG.START_SLOT n))) (LAT.RG_CFG n) 0x0701 ++
  cells.flatMap (s.checkDesc slots) ++
  (((cells.map fun c => s.dB c 3).filter (· != 0xFF)).dedup.flatMap (s.checkSelect n)) ++
  (s.rgHeads n).flatMap (s.checkCascade n) ++
  ((s.rgHeads n).flatMap fun c =>
    failIf (s.dB c 48 == 1 && decide (256 < s.dB c 50 + s.dB c 51)) (LAT.DESC c 0) 0x0705) ++
  s.checkTpls g [] ((s.rgTpls n).map (·.2)) ++
  s.edgeRange n (s.tbP t) ++
  (match (List.range 8).find? s.rgOver with
    | some i => [(LAT.RG_CFG i, 0x0707)]
    | none => failIf (decide (25000000 < s.latLoad)) LAT.LOAD 0x0707) ++
  s.checkLead n t

/-! ## Field engines (R239) -/

/-- The channels of a leg of a group, in the order of their switches. -/
def State.legChans (s : State) (g leg n : Nat) : List Nat := (List.range n).filterMap (s.legChan g leg)

/-- Whether a group is `legs` legs of `n` channels, each leg in one interlock set with FORBID `forbid`. -/
def State.legsAre (s : State) (g legs n forbid : Nat) : Bool :=
  (s.chans g).length == legs * n && (List.range legs).all fun l =>
    let cs := s.legChans g l n
    cs.length == n && cs.all fun c =>
      decide (s.chSet c < 48) && s.chSet c == s.chSet (cs.headD 0) && s.ilkForbid (s.chSet c) == forbid

/-- Whether ASC_ON marks exactly the switches of R237. -/
def State.ascMarked (s : State) (m g : Nat) : Bool :=
  let on := if s.f (FLD.MCH_CFG.ASC_LEVEL m) = 0 then [2, 3] else [1, 2]
  (s.chans g).all fun c => bit (s.chFlags c) 1 == on.contains (s.chSwitch c)

/-- The conditions of R239 on engine `m` and its group. -/
def State.checkEngine (s : State) (m g : Nat) : Fails :=
  let slots := s.tbSlots (s.grpTb g)
  let cur := s.fldSlots m
  let p := s.tbP (s.grpTb g)
  let gap := s.f (FLD.MOD.GAP m)
  let mp := s.f (FLD.MOD.MIN_PULSE m)
  let mm := s.f (FLD.MOD.MOD_MAX m)
  failIf (s.f (FLD.MCH_CFG.EN m) == 0 || s.f (FLD.MCH_CFG.GROUP m) != g || s.owner g != 1 + m ||
    !s.legsAre g 6 4 0xEEA0 || s.f (FLD.MCH_CFG.POLE_PAIRS m) == 0 || decide (5 < s.f (FLD.MCH_CFG.PU m)))
    (FLD.MCH_CFG m) 0x0801 ++
  failIf ((cur.take 4).any fun r => !slots.contains r || 1 < cur.count r) (FLD.IN_SLOT0 m) 0x0802 ++
  failIf ((cur.drop 4 ++ [s.f (FLD.IN_SLOT1.VUP m), s.f (FLD.IN_SLOT1.VLO m)]).any (fun r => !slots.contains r) ||
    (cur.drop 4).any fun r => 1 < cur.count r) (FLD.IN_SLOT1 m) 0x0802 ++
  failIf (s.f (FLD.RATING.T_MAX m) == 0) (FLD.RATING m) 0x0803 ++
  failIf (s.f (FLD.MAP_PSI.PSI_MAX m) ≤ s.f (FLD.MAP_PSI.PSI_MIN m)) (FLD.MAP_PSI m) 0x0803 ++
  failIf (!bit (s.f FLD.MAP_STAT.COMPLETE) (2 * m + s.f (FLD.MCH_STAT.BANK m))) FLD.MAP_STAT 0x0804 ++
  failIf (!s.ascMarked m g) (FLD.MCH_CFG m) 0x0805 ++
  failIf (s.f (FLD.ASC_CFG.ON_RPM m) < s.f (FLD.ASC_CFG.OFF_RPM m)) (FLD.ASC_CFG m) 0x0806 ++
  failIf (decide (1000 < s.f (FLD.DERATE.K_HOST m))) (FLD.DERATE m) 0x0806 ++
  failIf (decide (1000 < s.f (FLD.POSTFAULT.FIVE_FRAC m)) || decide (1000 < s.f (FLD.POSTFAULT.ONE_FRAC m)))
    (FLD.POSTFAULT m) 0x0806 ++
  failIf (decide (1000 < s.f (FLD.FW.XY_VLIM m))) (FLD.FW m) 0x0806 ++
  failIf (s.f (FLD.RATING.I_SET_MAX m) == 0) (FLD.RATING m) 0x0806 ++
  failIf (decide (1000 < mm) || decide ((1000 - mm) * p < (2 * gap + mp) * 1000) ||
    ((s.grpSets g).any fun i => decide (gap < s.f (PLS.DEADTIME.DT i))) || decide (mp < 4)) (FLD.MOD m) 0x0809

/-- The conditions of R239. -/
def State.checkFld (s : State) (g : Nat) : Fails :=
  (List.range 2).flatMap fun m =>
    if s.owner g = 1 + m ∨ (s.f (FLD.MCH_CFG.EN m) = 1 ∧ s.f (FLD.MCH_CFG.GROUP m) = g) then s.checkEngine m g else []

/-! ## DC link (R254) -/

/-- Whether a cell is not TANGENT with MODE OVER, or targets the chopper group. -/
def State.linkCellBad (s : State) (c : Nat) : Bool :=
  decide (72 ≤ c) || s.cellRoute c != 1 || s.cellMode c != 0 ||
    (s.cellSel c).contains (s.f DCL.CTRL.BRK_GROUP)

/-- The groups R254 concerns. -/
def State.dclGroups (s : State) : List Nat :=
  s.machineGroups ++ [s.f DCL.CTRL.BRK_GROUP] ++ bitsSet (s.f DCL.STOP_MASK.GROUPS) 32

/-- The conditions of R254 on the supervision itself. -/
def State.checkLink (s : State) : Fails :=
  let brk := s.f DCL.CTRL.BRK_GROUP
  let mask := bitsSet (s.f DCL.STOP_MASK.GROUPS) 32
  let l3 := s.f DCL.CTRL.L3_CELL
  let chg := s.f DCL.CTRL.CHG_CELL
  let chk := s.f DCL.CHOP.CHK_CELL
  failIf (decide (s.f DCL.LEVELS.L1 < s.f DCL.CHOP.V_HOLD + s.f DCL.LEVELS.HYST)) DCL.LEVELS 0x0901 ++
  failIf (s.f DCL.LEVELS.L2 ≤ s.f DCL.LEVELS.L1) DCL.LEVELS 0x0901 ++
  failIf (s.f DCL.VSRC.V_GAIN == 0) DCL.VSRC 0x0901 ++
  failIf (mask.contains brk) DCL.STOP_MASK 0x0901 ++
  failIf (s.linkCellBad l3 || s.cellAction l3 == 0 ||
    ((s.machineGroups ++ mask).any fun x => !(s.cellSel l3).contains x) || s.linkCellBad chg)
    DCL.CTRL 0x0902 ++
  failIf (decide (72 ≤ chk) || !s.cellEn chk) DCL.CHOP 0x0902

/-- The conditions of R254. -/
def State.checkDcl (s : State) (g : Nat) : Fails :=
  if s.f DCL.CTRL.EN = 0 ∨ !(s.dclGroups.contains g || (s.machineOf g).isSome) then [] else
  s.checkLink ++
  failIf (g == s.f DCL.CTRL.BRK_GROUP && s.f DCL.STATUS.CHOP_FAULTY == 1) DCL.STATUS 0x0903

/-! ## Position units and observers (R280, R283, R284) -/

/-- Whether the observer of an engine may serve as its source (R280). -/
def State.obsServes (s : State) (m : Nat) : Bool :=
  s.f (POS.OBS_CFG.EN m) == 1 && s.f (POS.OBS_CFG.SRC_MODE m) == 1

/-- Whether an enabled latch source of a unit is no enabled trigger compare. -/
def State.latchBad (s : State) (k : Nat) : Bool :=
  let off (x : Nat) : Bool := s.f (PLS.TRG_CFG.EN (x / 4) (x % 4)) == 0
  (s.f (POS.PU_CFG.LATCH_A_EN k) == 1 && off (s.f (POS.PU_CFG.SRC_A k))) ||
    (s.f (POS.PU_CFG.LATCH_B_EN k) == 1 && off (s.f (POS.PU_CFG.SRC_B k)))

/-- Whether some run converts two slots one directly after the other. -/
def State.consecutive (s : State) (a b : Nat) : Bool :=
  (List.range 8).any fun k => (s.bindings k).any fun m =>
    let ds := (s.runEntries k m).map fun e => s.seqByte k e 3
    (ds.zip ds.tail).contains (a, b)

/-- The resolver conditions of R284 on interface `j`. -/
def State.checkRes (s : State) (j : Nat) : Fails :=
  let t := s.f (POS.RES_CFG.TB j)
  let num := (s.f (POS.RES_CFG.EXC_MULT j) + 1) * 400000000
  failIf (decide (num < 5000 * s.tbP t) || decide (20000 * s.tbP t < num) || !s.tbRuns t ||
    s.f (POS.RES_CFG.RES_PP j) == 0) (POS.RES_CFG j) 0x0A02 ++
  failIf (!s.consecutive (s.f (POS.RES_SLOT.SIN_SLOT j)) (s.f (POS.RES_SLOT.COS_SLOT j))) (POS.RES_SLOT j) 0x0A02 ++
  failIf (s.f (POS.RES_LIM.AMP_HI j) ≤ s.f (POS.RES_LIM.AMP_LO j)) (POS.RES_LIM j) 0x0A02

/-- The conditions of R284 on one unit; `obs` tells that the observer of its engine may serve. -/
def State.checkUnit (s : State) (k : Nat) (traction obs : Bool) : Fails :=
  let m := s.puMode k
  let np := s.f (POS.SSI.NPOS k)
  let sectors := (List.range 6).map fun h => s.hallSector k (h + 1)
  failIf (m == 0 || (m == 1 && decide (2 ≤ k)) || (m == 5 && traction) || decide (6 ≤ m) || s.latchBad k)
    (POS.PU_CFG k) 0x0A01 ++
  (if m = 1 ∧ k < 2 then s.checkRes k else []) ++
  failIf (m == 2 && (np == 0 || decide (s.f (POS.SSI.NBITS k) < np + b2n (s.f (POS.SSI.PARITY k) != 0)) ||
    decide (s.f (POS.SSI.DIV k) < 9))) (POS.SSI k) 0x0A03 ++
  failIf (m == 3 && s.f (POS.MODULUS.ROTARY k) == 1 &&
    (decide (s.f (POS.MODULUS.MOD k) < 4) || s.f (POS.MODULUS.MOD k) % 4 != 0)) (POS.MODULUS k) 0x0A04 ++
  failIf (m == 4 && (!(sectors.all fun x => decide (x < 6)) || sectors.dedup.length != 6 || s.f (POS.HALL.PP k) == 0))
    (POS.HALL k) 0x0A04 ++
  failIf (s.puState k != 2 && m != 5 && !obs) (POS.PU_STAT k) 0x0A05

/-- The conditions of R284 on the observer of engine `m`. -/
def State.checkObsCfg (s : State) (m : Nat) : Fails :=
  let cat := s.f (POS.OBS_LIM.CATCH_RPM m)
  if s.f (POS.OBS_CFG.EN m) = 0 then [] else
    failIf (s.f (POS.OBS_CFG.LOCK_N m) == 0 || s.f (POS.OBS_CFG.LOSS_N m) == 0) (POS.OBS_CFG m) 0x0A06 ++
    failIf (cat ≤ s.f (POS.OBS_LIM.MIN_RPM m) || decide (s.f (FLD.ASC_CFG.OFF_RPM m) < 10 * cat)) (POS.OBS_LIM m) 0x0A06 ++
    failIf (s.f (POS.OBS_CFG.SRC_MODE m) == 1 &&
      [s.f (POS.OBS_CATCH.VAB_SLOT m), s.f (POS.OBS_CATCH.VBC_SLOT m)].any fun r => !s.allSlots.contains r)
      (POS.OBS_CATCH m) 0x0A06

/-- The observer conditions of R283 and R284 on engine `m`. -/
def State.checkObs (s : State) (m : Nat) : Fails :=
  let cat := 10 * s.f (POS.OBS_LIM.CATCH_RPM m)
  let ext := s.f (POS.OBS_CTRL.EXT_RPM m)
  let freshExt : Bool := match sget? s.hid.pos.ext m with
    | some t => decide (s.ms - t < 100)
    | none => false
  s.checkObsCfg m ++
  failIf (s.puState (s.f (FLD.MCH_CFG.PU m)) != 2 && s.obsServes m && s.f (FLD.MCH_STAT.PATTERN_ASC m) == 1 &&
    !(freshExt && decide (ext ≤ cat))) (POS.OBS_CTRL m) 0x0A07

/-- The conditions of R280, R283 and R284. -/
def State.checkPos (s : State) (g : Nat) : Fails :=
  ((List.range 2).flatMap fun m =>
    if s.f (FLD.MCH_CFG.EN m) = 1 ∧ s.f (FLD.MCH_CFG.GROUP m) = g then
      let k := s.f (FLD.MCH_CFG.PU m)
      (if k < 6 then s.checkUnit k true (s.obsServes m) else []) ++ s.checkObs m
    else []) ++
  (List.range 4).flatMap fun a =>
    if s.f (ACT.CFG.EN a) = 1 ∧ s.f (ACT.CFG.GROUP a) = g then
      let k := s.f (ACT.CFG.PU a)
      if k < 6 then s.checkUnit k false false else []
    else []

/-! ## Actuators (R304) -/

/-- The clocks from the trigger to the end of the last conversion that a current slot takes, over every run bound to
a timebase (R163, R166, R288). -/
def State.lastCurrent (s : State) (t : Nat) (cur : List Nat) : Nat :=
  ((List.range 8).flatMap fun k => ((s.bindings k).filter fun m => s.bindTb k m == t).map fun m =>
    let es := s.runEntries k m
    match (es.filter fun e => cur.contains (s.seqByte k e 3)).getLast? with
    | some l => ((es.filter fun e => decide (e ≤ l)).map (s.entryClocks k)).sum
    | none => 0).foldl max 0

/-- Whether the unit of an actuator has the mode R304 asks for. -/
def State.actUnitOk (s : State) (a : Nat) : Bool :=
  let k := s.f (ACT.CFG.PU a)
  decide (k < 6) && (match a with
    | 0 => s.puMode k == 4
    | 1 => s.puMode k == 2
    | 2 => s.puMode k == 3
    | _ => s.puMode k == 5 && s.f (POS.MODULUS.ENG k) == 3)

/-- Whether a REVERSE gear's EDGE lies between the neutral position and its own. -/
def State.edgeBetween (s : State) (i n : Nat) : Bool :=
  let e := s.f (ACT.GEAR.EDGE i)
  let p := s.f (ACT.GEAR.POSITION i)
  let q := s.f (ACT.GEAR.POSITION n)
  (decide (p < e) && decide (e < q)) || (decide (q < e) && decide (e < p))

/-- The shift drum's conditions of R304. -/
def State.checkDrum (s : State) : Fails :=
  let gears := (List.range 8).filter fun i => s.f (ACT.GEAR.EN i) == 1
  let neutral := gears.find? fun i => s.f (ACT.GEAR.NEUTRAL i) == 1
  failIf (decide (4096 < s.puMod (s.f (ACT.CFG.PU 1)))) (ACT.CFG 1) 0x0B06 ++
  match neutral with
  | none => [(ACT.GEAR 0, 0x0B06)]
  | some n => gears.flatMap fun i =>
    failIf (s.f (ACT.GEAR.REVERSE i) == 1 && !s.edgeBetween i n) (ACT.GEAR i) 0x0B06

/-- The conditions of R304 on actuator `a` and its group. -/
def State.checkActuator (s : State) (a g : Nat) : Fails :=
  let t := s.grpTb g
  let slots := s.tbSlots t
  let cur := [s.f (ACT.CFG.IU_SLOT a), s.f (ACT.SLOTS.IV_SLOT a), s.f (ACT.SLOTS.IW_SLOT a)]
  let line := if a = 3 then [s.f ACT.PUMP1.VAB_SLOT, s.f ACT.PUMP1.VBC_SLOT] else []
  let dt := ((s.grpSets g).map fun i => s.f (PLS.DEADTIME.DT i)).foldl max 0
  let on := (1000 - s.f (ACT.LIMITS.DUTY_MAX a)) * s.tbP t * 125
  let w := on - dt * 250000
  failIf (s.f (ACT.CFG.EN a) == 0 || s.owner g != 4 || !s.legsAre g 3 2 0x0008 || !(s.chans g).all isDriver ||
    (s.chans g).any (fun c => bit (s.chFlags c) 1) || !s.actUnitOk a || s.f (ACT.CFG.POLE_PAIRS a) == 0)
    (ACT.CFG a) 0x0B01 ++
  failIf ((cur ++ [s.f (ACT.CFG.VBUS_SLOT a)] ++ line).any (fun r => !slots.contains r) || cur.dedup.length != 3)
    (ACT.CFG a) 0x0B02 ++
  failIf (decide (w < 100000000) || decide (w < 1370000 + s.lastCurrent t cur * 625000)) (ACT.LIMITS a) 0x0B03 ++
  if a = 1 then s.checkDrum else []

/-- Whether a group is one full bridge: two legs whose four channels share a set with FORBID 0xF888. -/
def State.fullBridge (s : State) (g : Nat) : Bool :=
  let cs := s.chans g
  cs.length == 4 && [0, 1].all (fun l => (s.legChans g l 2).length == 2) && cs.all fun c =>
    decide (s.chSet c < 48) && s.chSet c == s.chSet (cs.headD 0) && s.ilkForbid (s.chSet c) == 0xF888

/-- The charge-port lock's conditions of R304. -/
def State.checkCpl (s : State) (g : Nat) : Fails :=
  failIf (s.owner g != 4 || !s.fullBridge g || decide (950 < s.f ACT.CPL_CFG.DUTY) || s.f ACT.CPL_CFG.TMAX == 0)
    ACT.CPL_CFG 0x0B09

/-- The conditions of R304. -/
def State.checkAct (s : State) (g : Nat) : Fails :=
  let mine := (List.range 4).filter fun a => s.f (ACT.CFG.EN a) == 1 && s.f (ACT.CFG.GROUP a) == g
  let cpl := s.f ACT.CPL_CFG.EN == 1 && s.f ACT.CPL_CFG.GROUP == g
  mine.flatMap (fun a => s.checkActuator a g) ++
  (if cpl then s.checkCpl g else []) ++
  failIf (s.owner g == 4 && mine.isEmpty && !cpl) (ACT.CFG 0) 0x0B01

/-! ## Charging (R323) -/

/-- The conditions of R323 on the AFE. -/
def State.checkAfe (s : State) (g : Nat) : Fails :=
  let slots := s.tbSlots 3
  let mine := [s.f FLD.AFE_SLOT.VA, s.f FLD.AFE_SLOT.VB, s.f FLD.AFE_SLOT.VC, s.f FLD.AFE_SLOT.VFE,
    s.f FLD.AFE_ISLOT.IA, s.f FLD.AFE_ISLOT.IB, s.f FLD.AFE_ISLOT.IC, s.f FLD.AFE_ISLOT.IN]
  let halves := (List.range 4).all fun l => [0, 2].all fun j =>
    match s.legChan g l j, s.legChan g l (j + 1) with
    | some c, some d => decide (s.chSet c < 48) && s.chSet c == s.chSet d && s.ilkForbid (s.chSet c) == 8
    | _, _ => false
  failIf (s.f FLD.AFE_CFG.EN == 0 || s.f FLD.AFE_CFG.GROUP != g || s.owner g != 3 || (s.chans g).length != 16 || !halves ||
    s.f FLD.AFE_CFG.L_F == 0) FLD.AFE_CFG 0x080A ++
  failIf (mine.any fun r => !slots.contains r) FLD.AFE_SLOT 0x080A

/-- The rate group of the DAB. -/
def State.dabRg (s : State) : Nat := s.owner (s.f CHG.CFG.DAB_GROUP) - 8

/-- The conditions of R323 on the charging interface. -/
def State.checkChg (s : State) : Fails :=
  let i := s.f CHG.LIMITS.I_CELL
  let coef := sx32 (s.rd (LAT.TPL_COEF (s.dB 0 50))).toNat
  failIf (decide (32 ≤ s.f CHG.CFG.AFE_GROUP) || decide (32 ≤ s.f CHG.CFG.DAB_GROUP)) CHG.CFG 0x0C01 ++
  failIf (decide (192 ≤ i) || !s.lcEn i || s.owner (s.f CHG.CFG.DAB_GROUP) < 8 || s.dB i 0 != s.dabRg)
    CHG.LIMITS 0x0C01 ++
  failIf (if s.f CHG.CFG.DIR = 0 then decide (coef < 0) else decide (0 < coef)) CHG.CFG 0x0C01 ++
  failIf (s.f DCL.CTRL.CHG_CELL == 0xFF) DCL.CTRL 0x0C01

/-! ## Converters and low-voltage power (R367) -/

/-- The group of the buck: that of its rate group (R346). -/
def State.buckGroup (s : State) : Nat := s.f (LAT.RG_CFG.GROUP (s.f CNV.BUCK_CFG.RG))

/-- The group of the LLC stage (chapter 15 names group 5). -/
abbrev llcGroup : Nat := 5

/-- The buck's phases: channels of the high and the low side. -/
def State.buckChan (s : State) (k side : Nat) : Option Nat := s.legChan s.buckGroup k side

/-- Whether a peak or zero-current cell of a phase breaks R367. -/
def State.phaseCellBad (s : State) (k : Nat) : Bool :=
  let pk := s.f CNV.BUCK_CELLS.PK_FIRST + k
  let zc := s.f CNV.BUCK_CELLS.ZCD_FIRST + k
  let boost := s.f CNV.BUCK_CFG.MODE
  let bad (c side : Nat) : Bool :=
    decide (72 ≤ c) || isSpareCell c || !s.cellEn c || s.cellRoute c != 3 || s.buckChan k side != some (s.cellChan c)
  bad pk boost || bad zc (1 - boost) || !s.cellAdv pk || (s.cellRamp pk == 0 && decide (500 < s.f CNV.BUCK_CFG.DMAX))

/-- The conditions of R367 on the buck. -/
def State.checkBuck (s : State) : Fails :=
  let g := s.buckGroup
  let n := s.f CNV.BUCK_CFG.PHASES + 1
  let rg := s.f CNV.BUCK_CFG.RG
  let t := s.grpTb g
  let named := (List.range 8).any fun r => (s.rgTpls r).any fun x =>
    !s.tplIsPeriod x.2 && s.chGroup (s.f (LAT.TPL_CTL.CHANNEL x.2)) == g
  failIf (s.owner g != 8 + rg || named ||
    ((List.range n).any fun k => (s.buckChan k 0).isNone || (s.buckChan k 1).isNone) ||
    decide (950 < s.f CNV.BUCK_CFG.DMAX) || decide (20000 < s.winLen t)) CNV.BUCK_CFG 0x0E01 ++
  failIf (s.f CNV.BUCK_PK.ILIM_CODE ≤ s.f CNV.BUCK_PK.ZERO_CODE) CNV.BUCK_PK 0x0E01 ++
  failIf ((List.range n).any s.phaseCellBad) CNV.BUCK_CELLS 0x0E02

/-- The conditions of R367 on the battery charger. -/
def State.checkLvp (s : State) : Fails :=
  let rg := s.f CNV.BUCK_CFG.RG
  let dc := s.f CNV.BUCK_CFG.DCELL
  let sel (c : Nat) : Bool := decide (192 ≤ c) || !s.lcEn c || s.dB c 3 == 0xFF || s.dB c 3 != s.dB dc 3 || s.dB c 0 != rg
  let inc := s.f LVP.CFG.INCELL
  let slots := [s.f LVP.CFG.BUS48_SLOT, s.f LVP.SLOTS.VBATT_SLOT, s.f LVP.SLOTS.IBATT_SLOT, s.f LVP.SLOTS.TBATT_SLOT,
    s.f LVP.SLOTS.SRC_SLOT]
  failIf (sel (s.f LVP.CFG.ICELL) || sel inc || sel (s.f CNV.VSCALE.VCELL) ||
    bit (s.dB inc 1) 6 != (s.f LVP.CFG.IN_MODE == 1)) LVP.CFG 0x0F01 ++
  failIf (slots.any fun r => !s.allSlots.contains r) LVP.SLOTS 0x0F01

/-- The conditions of R367. -/
def State.checkCnv (s : State) (g : Nat) : Fails :=
  (if s.f CNV.BUCK_CFG.EN = 1 ∧ g = s.buckGroup then
    s.checkBuck ++
    failIf (s.f CNV.BUCK_CFG.MODE == 1 && s.active llcGroup) CNV.BUCK_CFG 0x0E03 ++
    (if s.f LVP.CFG.EN = 1 then s.checkLvp else [])
  else []) ++
  failIf (g == llcGroup && s.f CNV.BUCK_CFG.EN == 1 && s.f CNV.BUCK_CFG.MODE == 1 && s.active s.buckGroup)
    CNV.BUCK_CFG 0x0E03

/-! ## Safety functions (R398, R400) -/

/-- The enabled functions that name a group. -/
def State.grpFuncs (s : State) (g : Nat) : List Nat :=
  (List.range 8).filter fun f => f != 0 && s.f (SAF.FUNC_CFG.EN f) == 1 && (s.funcMask f).contains g

/-- The conditions of R400 on one function. -/
def State.checkFunc (s : State) (f : Nat) : Fails :=
  let gs := s.funcMask f
  let actGrp (g : Nat) : Bool :=
    (List.range 4).any fun a => s.f (ACT.CFG.EN a) == 1 && s.f (ACT.CFG.GROUP a) == g
  failIf gs.isEmpty (SAF.FUNC_GRP f) 0x1001 ++
  failIf ((f == 2 || f == 6) && s.f (SAF.FUNC_CFG.PARAM f) == 0) (SAF.FUNC_CFG f) 0x1001 ++
  failIf (f == 4 && gs.any fun g => !actGrp g) (SAF.FUNC_GRP f) 0x1001 ++
  failIf (f == 5 && gs.any fun g => !(s.chans g).any fun c => bit (s.chFlags c) 1) (SAF.FUNC_GRP f) 0x1001

/-- The conditions of R400 on a safe input that a function binds. -/
def State.checkSin (s : State) (i : Nat) : Fails :=
  let j := if i % 2 = 0 then i + 1 else i - 1
  let pi := s.f (SAF.SIN.PAIR i)
  let pj := s.f (SAF.SIN.PAIR j)
  failIf (s.f (SAF.SIN.EN i) == 0 || ((pi == 1 || pj == 1) && (pi != pj || s.f (SAF.SIN.SUP i) == s.f (SAF.SIN.SUP j))) ||
    s.f (SAF.SSUP.EN (s.f (SAF.SIN.SUP i))) == 0) (SAF.SIN i) 0x1002

/-- Whether a forcing function acts on a group (R375, R382, R400). -/
def State.funcHolds (s : State) (g : Nat) : Bool :=
  [1, 2, 5, 7].any fun f => s.funcActive f && (s.func f).grps.contains g

/-- The conditions of R398 and R400. -/
def State.checkSaf (s : State) (g : Nat) : Fails :=
  let fs := s.grpFuncs g
  let tmo := s.f SAF.MSG_CFG.TIMEOUT
  let src := (List.range 2).any fun m => s.f (FLD.MCH_CFG.EN m) == 1 && s.f (FLD.MCH_CFG.GROUP m) == g &&
    s.f (FLD.MCH_CFG.TQ_SRC m) == 1
  ((List.range 8).flatMap fun f =>
    if f ≠ 0 ∧ s.f (SAF.FUNC_CFG.EN f) = 1 ∧ (fs.contains f ∨ s.funcMask f = []) then s.checkFunc f else []) ++
  (((fs.flatMap fun f => bitsSet (s.f (SAF.FUNC_CFG.SIN_MASK f)) 8).dedup).flatMap s.checkSin) ++
  failIf ((s.f SAF.MSG_CFG.EN == 0 && (src || fs.any fun f => s.f (SAF.FUNC_CFG.MSG f) == 1)) ||
    decide (tmo < 5) || decide (100 < tmo)) SAF.MSG_CFG 0x1004 ++
  failIf (s.rd SAF.CFG_CRC != s.rd SAF.CFG_EXPECT) SAF.CFG_EXPECT 0x1006 ++
  failIf (s.funcHolds g) (SAF.GRP g) 0x0107

/-! ## Controllers and interfaces (R442, R458) -/

/-- The conditions of R442 on one phase: prescaler, segments, SJW, limit of the rate in bit/s, least quanta; `nom`
is the nominal divider. -/
def phaseBad (brp t1 t2 sjw limit least : Nat) (nom : Option Nat) : Bool :=
  let div := (brp + 1) * (1 + (t1 + 1) + (t2 + 1))
  decide (limit * div < 80000000) || decide (t2 < sjw) || decide (1 + (t1 + 1) + (t2 + 1) < least) ||
    (match nom with
      | some d => decide (d < div)
      | none => false)

/-- The conditions of R442. -/
def State.checkCan (s : State) (n : Nat) : Fails :=
  let nb := s.f (BUS.NBT.BRP n)
  let n1 := s.f (BUS.NBT.TSEG1 n)
  let n2 := s.f (BUS.NBT.TSEG2 n)
  let nom := (nb + 1) * (1 + (n1 + 1) + (n2 + 1))
  failIf (phaseBad nb n1 n2 (s.f (BUS.NBT.SJW n)) 1000000 8 none) (BUS.NBT n) 0x1401 ++
  failIf (phaseBad (s.f (BUS.DBT.BRP n)) (s.f (BUS.DBT.TSEG1 n)) (s.f (BUS.DBT.TSEG2 n)) (s.f (BUS.DBT.SJW n))
    8000000 4 (some nom)) (BUS.DBT n) 0x1401 ++
  failIf (phaseBad (s.f (BUS.XBT.BRP n)) (s.f (BUS.XBT.TSEG1 n)) (s.f (BUS.XBT.TSEG2 n)) (s.f (BUS.XBT.SJW n))
    20000000 4 (some nom)) (BUS.XBT n) 0x1401 ++
  failIf (s.f BUS.TIME_CFG.EN == 1 && s.f BUS.TIME_CFG.CTRL == n && s.f BUS.TIME_CFG.ROLE == 1 &&
    (s.f (BUS.CTRL.MODE n) == 1 || s.f (BUS.CTRL.MODE n) == 2)) BUS.TIME_CFG 0x1404

/-- The conditions of R458; interface 1 is the 10BASE-T1S one, which has PLCA. -/
def State.checkNet (s : State) (p : Nat) : Fails :=
  let a := s.f (NET.IP.ADDR p)
  let pre := s.f (NET.IF_CFG.PREFIX p)
  let host := 2 ^ (32 - pre)
  let cnt := s.f NET.PLCA.NODE_CNT
  let plca := s.f (NET.IF_CFG.PLCA_EN p) == 1
  failIf (a == 0 || a == 0xFFFFFFFF || a % host == host - 1) (NET.IP p) 0x1501 ++
  failIf (decide (pre < 8) || decide (30 < pre)) (NET.IF_CFG p) 0x1501 ++
  failIf (plca && (decide (cnt < 2) || decide (32 < cnt) || decide (cnt ≤ s.f NET.PLCA.NODE_ID))) NET.PLCA 0x1501

/-! ## The check of a group -/

/-- Everything the check finds for a group (R57). -/
def State.checkAll (s : State) (g : Nat) : Fails :=
  if (s.chans g).isEmpty then s.checkMap g else
  s.checkMap g ++ s.checkPls g ++ s.checkTrp g ++ s.checkGdr g ++ s.checkMea g ++ s.checkLat g ++ s.checkFld g ++
    s.checkDcl g ++ s.checkPos g ++ s.checkAct g ++ s.checkCnv g ++ s.checkSaf g

/-- What the internal ENABLE of a charger group adds (R323). -/
def State.checkCharger (s : State) (g : Nat) : Fails :=
  if s.chargerGroup g then
    (if s.f CHG.CFG.AFE_GROUP = g then s.checkAfe g else []) ++ s.checkChg
  else []

/-- The outcome of the consistency check of a group: the address and reason reported. -/
def State.check (s : State) (g : Nat) : Option (Nat × Nat) := firstFail (s.checkAll g ++ s.checkCharger g)

end Sys2Proof.Machine
end

