-- ==== Sys2Proof/Machine/Enabling.lean ====
section
/-! DEFINITION. ENABLE and DISABLE of a group, as the host and the charging interface issue them (R58, R80, R105,
R130, R238, R311, R373, R375, R382). -/

namespace Sys2Proof.Machine

/-- Internal triggers of SS1 end with the ramp they started (R377; DESIGN CHOICE, log entry 16). -/
def sweepSs1 : M Unit := do
  let s ← getS
  groups.forM fun g => do
    if (s.func 2).by_.contains (0x10000 + g) ∧ (s.grp g).ss1.isNone then withdraw 2 3 (0x10000 + g)

/-- What keeps a TRIPPED or SAFE group from ENABLE (R58, R130, R375): the address of the holding latch. -/
def State.holdingLatch (s : State) (g : Nat) : Option Nat :=
  if s.gst g = .tripped ∨ s.gst g = .safe then
    if s.f (TRP.GRP_TRIP.LATCH g) = 1 then some (TRP.GRP_TRIP g)
    else if s.funcHolds g ∨ [1, 5, 7].contains (s.f (SAF.GRP.FUNC g)) then some (SAF.GRP g)
    else none
  else none

/-- Why ENABLE of a group is refused (R58, R311, R470): address and reason; `host` tells a host request from the charging interface's
own (R58, R311). A group that is ARMED or RUNNING is never refused but in SAFE. -/
def State.enableRefusal (s : State) (g : Nat) (host : Bool) : Option (Nat × Nat) :=
  if s.f SYS.STATUS.DEV_STATE = 4 then some (SYS.STATUS, 0x0107)
  else if host && s.chargerGroup g then some (CHG.CFG, 0x0C05)
  else if s.f LCY.STATE.STATE = 4 then some (LCY.STATE, 0x160C)
  else if s.active g then none
  else match s.holdingLatch g with
    | some a => some (a, 0x0107)
    | none =>
      match s.check g with
      | some x => some x
      | none => if s.hid.saf.forceBad.contains g then some (SAF.DIAG, 0x1005) else none

/-- The off pattern in every stage of one generator (R105). -/
def offWords (c : Nat) : M Unit := do
  wr (PLS.RISE c) never
  wr (PLS.FALL c) 0
  wr (PLS.RISE_ACT c) never
  wr (PLS.FALL_ACT c) 0
  updChan c fun r => { r with rel := none }

/-- The group becomes ARMED (R31, R105, R130, R382): off pattern in every stage, trip gates released, HELD cleared,
no force left, the latched safe pattern as its chapter has latched it, its loop owner at the start. -/
def arm (g : Nat) : M Unit := do
  let s ← getS
  (s.chans g).forM fun c => do
    offWords c
    match s.follower c with
    | some x => offWords x
    | none => pure ()
    cellOff c (s.chNow c)
    updChan c fun r => { r with gen := false, moved := none, bstOff := false, refresh := [], skip := none, sink := false }
  -- the output cells latch the pair matrix (R148)
  (s.grpSets g).forM fun i =>
    hid fun h => { h with pls := { h.pls with pairs := sput h.pls.pairs i (s.pairMatrix i) } }
  cancelTriggers g
  (s.grpTrgs g).forM fun k => updTrg k fun r => { r with now := {}, next := none }
  wf (TRP.GRP_TRIP.HELD g) 0
  wr (SAF.GRP g) 0
  wf (PLS.GRP_STAT.RELOAD_PEND g) 0
  wf (PLS.GRP_STAT.WINDOWS g) 0
  let asc : Bool := match s.machineOf g with
    | some m => s.f (FLD.MCH_STAT.PATTERN_ASC m) == 1
    | none => false
  updGrp g fun r => { r with asc := asc, force := [], heldAsc := false, linkHeld := false, ss1 := none, left := false }
  let others (l : List Nat) : List Nat := l.filter fun c => s.chGroup c != g
  hid fun h => { h with pls := { h.pls with coreHeld := others h.pls.coreHeld, coreLow := others h.pls.coreLow } }
  showHeld
  hid fun h => { h with pls := { h.pls with forced := h.pls.forced.erase g, committed := h.pls.committed.erase g } }
  hid fun h => { h with dcl := { h.dcl with l2 := h.dcl.l2.erase g } }
  sweepSs1
  (List.range 2).forM fun m => do
    if s.owner g = 1 + m then fldEnable m
  (List.range 4).forM fun a => do
    if s.f (ACT.CFG.EN a) = 1 ∧ s.f (ACT.CFG.GROUP a) = g then actEnable a
  if s.owner g = 3 then hid fun h => { h with afe := { h.afe with vfe := none, badT := 0 } }
  latRestart g
  if s.f CNV.BUCK_CFG.EN = 1 ∧ s.buckGroup = g then
    hid fun h => { h with cnv := { h.cnv with posted := none, limited := 0, deN := 0 } }
  setGState g .armed 0x0020
  if s.f DCL.CTRL.BRK_GROUP = g ∧ (← getS).chopHeld g then chopSwitch (s.f DCL.STATUS.CHOP_FAULTY == 0)
  watchCharge (armLevels g)

/-- ENABLE of a group (R57, R58, R373). The answer is the refusal. -/
def enableGroup (g : Nat) (host : Bool) : M (Option (Nat × Nat)) := do
  let s ← getS
  match s.enableRefusal g host with
  | some x =>
    if x.2 = 0x1005 then
      wf SAF.DIAG.FORCE_TEST_FAIL 1
      wf SAF.DIAG.FT_GROUP g
    return some x
  | none =>
    if !s.active g then arm g
    return none

/-- What keeps a TRIPPED or SAFE group from DISABLE (R80): the address of the holding latch. -/
def State.disableLatch (s : State) (g : Nat) : Option Nat :=
  if s.gst g = .tripped ∧ s.f (TRP.GRP_TRIP.LATCH g) = 1 then some (TRP.GRP_TRIP g)
  else if s.gst g = .safe ∧ s.f (SAF.GRP.FUNC g) ≠ 0 then some (SAF.GRP g)
  else none

/-- Why DISABLE of a group is refused (R80, R238, R311). -/
def State.disableRefusal (s : State) (g : Nat) (host : Bool) : Option (Nat × Nat) :=
  if s.gst g = .off ∨ s.gst g = .configured then none
  else if host && s.chargerGroup g then some (CHG.CFG, 0x0C05)
  else match s.disableLatch g with
    | some a => some (a, 0x0107)
    | none => match s.machineOf g with
      | some m =>
        if s.f (FLD.ASC_CFG.OFF_RPM m) < (sx16 (s.f (FLD.MCH_STAT.SPEED m))).natAbs then some (FLD.MCH_STAT m, 0x0808)
        else none
      | none => none

/-- DISABLE of a group (R80, R106). The answer is the refusal. -/
def disableGroup (g : Nat) (host : Bool) : M (Option (Nat × Nat)) := do
  let s ← getS
  match s.disableRefusal g host with
  | some x => return some x
  | none =>
    if !(s.gst g = .off ∨ s.gst g = .configured) then
      applyPattern g false
      dropGroup g
      endSs1 g
      wf (TRP.GRP_TRIP.HELD g) 0
      wr (SAF.GRP g) 0
      updGrp g fun r => { r with force := [], heldAsc := false }
      hid fun h => { h with pls := { h.pls with forced := h.pls.forced.erase g, committed := h.pls.committed.erase g } }
      if s.owner g = 3 then hid fun h => { h with afe := { h.afe with tracking := false } }
      setGState g .configured 0x0021
      handLeft
      sweepSs1
    return none

/-- The table 0x30 names other groups now (R78, R79): a channel that is bound no more holds its cell off, but for one that
a loss of VDD_CORE holds (R31); a group with its first channel becomes CONFIGURED, a CONFIGURED one without a channel
becomes OFF. -/
def rebindGroups : M Unit := do
  let s ← getS
  channels.forM fun c => do
    if 31 < s.chGroup c ∧ (s.chan c).on ∧ !s.hid.pls.coreHeld.contains c then
      cellOff c 0
      updChan c fun r => { r with gen := false, moved := none }
  groups.forM fun g => do
    if s.gst g = .off ∧ !(s.chans g).isEmpty then setGState g .configured 0x0030
    else if s.gst g = .configured ∧ (s.chans g).isEmpty then
      setGState g .off 0x0030
      updGrp g fun r => { r with linkHeld := false, left := false }
  showHeld

end Sys2Proof.Machine
end

