-- ==== Sys2Proof/Machine/Metering.lean ====
section
/-! DEFINITION. Grid energy metering: corrected means, energy registers, signed records, sessions, key, seal and time
(R325 to R343). -/

namespace Sys2Proof.Machine

/-- Change the metrology island's record. -/
def updMtr (f : MtrSt → MtrSt) : M Unit := hid fun h => { h with mtr := f h.mtr }

/-- The digest of the running metrology image (R341). -/
def State.digest (s : State) : List Byte := s.hid.mtr.digest.getD ((List.range 32).map Config.identityDigest)

/-- The version of the running management (0) or metrology (1) firmware (R46): of the active slot's image, or of the
factory image. -/
def State.fwVersion (s : State) (k : Nat) : Nat :=
  let h := (mget ({} : FwSlot) s.hid.lcy.slots (2 * k + s.f (LCY.FW_STAT.ACTIVE k))).header
  if h = [] then (Config.revision (1 + k)).toNat else ofLe ((h.drop 8).take 4)

/-- The device unique ID (R46). -/
def uniqueId : List Byte := (List.range 16).map Config.uniqueId

/-- Register `k` of set `set` (0 to 2 L1 to L3, 3 TOTAL): ACTIVE_IMP, ACTIVE_EXP, Q1 to Q4 (R331). -/
def MtrSt.reg (m : MtrSt) (set k : Nat) : Nat := m.regs.getD (6 * set + k) 0

/-- The running totals of a span (R334). -/
def MtrSt.now (m : MtrSt) : Span :=
  ⟨m.reg 3 0, m.reg 3 1, m.reg 3 2 + m.reg 3 3, m.reg 3 4 + m.reg 3 5, m.gaps, m.unl⟩

/-! ## Records (R334 to R337) -/

/-- Sixteen bits that saturate. -/
def sat16 (n : Nat) : Nat := min n 0xFFFF

/-- The signed record: the span gives D_IMP to UNLOCK_CYCLES; an EVENT puts its code in SESSION and its argument in
D_IMP. -/
def State.record (s : State) (rseq typ : Nat) (span : Span) (gapFlag : Bool) (event : Option (Nat × Nat)) : List Byte :=
  let m := s.hid.mtr
  let n := m.now
  let gap := n.gap - span.gap
  let unl := n.unl - span.unl
  let ses := s.f MTR.STATUS.SESSION_OPEN == 1
  let plain := event.isNone
  let flags := b2n (plain && decide (0 < unl)) + 2 * b2n (gapFlag || (plain && decide (0 < gap))) + 4 * b2n m.utc.isNone +
    8 * b2n ((typ == 2 || typ == 3) && m.export_)
  let head := leBytes 4 rseq ++ leBytes 1 typ ++ leBytes 1 flags ++ leBytes 2 m.seals ++ leBytes 8 (m.utc.getD 0) ++
    leBytes 4 (m.mono / 1000000)
  let body := match event with
    | some (code, arg) => leBytes 4 code ++ s.digest.take 4 ++ leBytes 8 n.imp ++ leBytes 8 n.exp ++ leBytes 4 arg ++
        leBytes 16 0
    | none => leBytes 4 (if ses || typ == 2 || typ == 3 then m.session else 0) ++ s.digest.take 4 ++ leBytes 8 n.imp ++ leBytes 8 n.exp ++
        leBytes 4 (n.imp - span.imp) ++ leBytes 4 (n.exp - span.exp) ++ leBytes 4 (n.qpos - span.qpos) ++
        leBytes 4 (n.qneg - span.qneg) ++ leBytes 2 (sat16 gap) ++ leBytes 2 (sat16 unl)
  let r := head ++ body
  let digest := sha256 ([0x49, 0x41, 0x4C, 0x4D] ++ uniqueId ++ r)
  r ++ (List.range 64).map (Config.ecdsaSign (m.key.getD 0) digest)

/-- METER_STATUS: the status word. -/
def meterStatus : M Unit := do eventDev 0x8032 (leBytes 4 (← rd MTR.STATUS).toNat)

/-- Commit the registers to MRAM (R333). -/
def registerCommit : M Unit :=
  updMtr fun m => { m with commit := m.regs, commitRes := m.resid, commitMono := m.mono / 1000000 }

/-- Whether the island counts and records (R341, R343). -/
def State.metering (s : State) : Bool := s.present 8 && s.hid.mtr.key.isSome && s.f MTR.STATUS.REG_FAULT == 0

/-- RING_WARN and RING_FULL follow the unacknowledged records (R337). -/
def ringState : M Unit := do
  let s ← getS
  let open_ := s.f MTR.LAST.RSEQ - s.f MTR.ACK.RSEQ
  if open_ < 15360 then wf MTR.STATUS.RING_WARN 0
  else if s.f MTR.STATUS.RING_WARN = 0 then
    wf MTR.STATUS.RING_WARN 1
    meterStatus
  if open_ < 16384 then wf MTR.STATUS.RING_FULL 0

/-- Write a record into the ring, unless it is withheld or the ring is full (R337). -/
def writeRecord (typ : Nat) (span : Span) (gapFlag : Bool) (event : Option (Nat × Nat)) : M Unit := do
  let s ← getS
  let last := s.f MTR.LAST.RSEQ
  let open_ := last - s.f MTR.ACK.RSEQ
  if s.metering then
    if 16384 ≤ open_ then
      if s.f MTR.STATUS.RING_FULL = 0 then
        wf MTR.STATUS.RING_FULL 1
        meterStatus
    else if typ = 1 ∧ 15360 ≤ open_ then inc MTR.STATUS.WITHHELD
    else
      updMtr fun m => { m with ring := ringPush 16384 m.ring (s.record (last + 1) typ span gapFlag event) }
      wf MTR.LAST.RSEQ (last + 1)
      registerCommit
      ringState
      eventDev 0x8031 (leBytes 4 (last + 1) ++ by1 [typ])

/-- An EVENT record with its code and argument (R335). -/
def eventRecord (code arg : Nat) : M Unit := do writeRecord 4 (← hidden).mtr.now false (some (code, arg))

/-- The clock whose multiples are interval boundaries, in ms (R335): UTC, or the seconds of operation while the time is
unset. -/
def MtrSt.clock (m : MtrSt) : Nat := m.utc.getD (m.mono / 1000)

/-- Whether the clock stands at an interval boundary that has no record yet (R335). -/
def State.atBoundary (s : State) : Bool :=
  let t := s.hid.mtr.clock
  t % (60000 * s.f MTR.CFG.INTERVAL) == 0 && s.hid.mtr.boundary != some t

/-- INTERVAL_RECORD: an interval boundary (R335). -/
def intervalRecord : M Unit := do
  let s ← getS
  if s.metering && s.atBoundary then
    writeRecord 1 s.hid.mtr.ivl false none
    updMtr fun m => { m with ivl := m.now, boundary := some m.clock }

/-- A metering session opens on entry to CONNECTING (R336). -/
def meterOpen (exporting : Bool) : M Unit := do
  let s ← getS
  wf MTR.STATUS.SESSION_OPEN 1
  updMtr fun m => { m with session := m.session + 1, export_ := exporting, ses := m.now, startPend := !s.present 8,
                           endPend := false }
  if s.present 8 then writeRecord 2 s.hid.mtr.now false none

/-- The metering session closes when STOPPING ends; `gapFlag` after a device reset (R336). While the island is absent its
SESSION_END waits for the return as SESSION_START does (DEDUCED, log entry 19). -/
def meterClose (gapFlag : Bool) : M Unit := do
  let s ← getS
  if s.f MTR.STATUS.SESSION_OPEN = 1 then
    writeRecord 3 s.hid.mtr.ses gapFlag none
    wf MTR.STATUS.SESSION_OPEN 0
    updMtr fun m => { m with endPend := !s.present 8 }

/-! ## Energy (R330 to R332) -/

/-- ROLE, PHASE, FS and OFFSET of channel `k` in the calibration in force (R328). -/
def MtrSt.role (m : MtrSt) (k : Nat) : Nat := (m.cal.getD (12 * k) 0).toNat

/-- A little-endian field of the calibration in force. -/
def MtrSt.calN (m : MtrSt) (k o n : Nat) : Nat := ofLe ((m.cal.drop (12 * k + o)).take n)

/-- The corrected mean of channel `k` in mV or mA before its delay. -/
def MtrSt.mean (m : MtrSt) (w : SubWin) (k : Nat) : Rat :=
  ((w.sums.getD k 0 : Rat) / (w.n : Rat) - (sx32 (m.calN k 8 4) : Rat) / 1073741824) * (sx32 (m.calN k 4 4) : Rat)

/-- A mean delayed by PHASE towards the preceding sub-window. -/
def MtrSt.delayed (m : MtrSt) (k : Nat) (x xPrev : Rat) : Rat := x - (sx16 (m.calN k 2 2) : Rat) / 65536 * (x - xPrev)

/-- The channel with a role. -/
def MtrSt.chanOf (m : MtrSt) (role : Nat) : Option Nat := (List.range 16).find? fun k => m.role k == role

/-- Move a positive energy in mWh into a register; what is below one unit stays as residue (R331). -/
def MtrSt.credit (m : MtrSt) (set k : Nat) (x : Rat) : MtrSt :=
  let i := 6 * set + k
  let units := (x * 4294967296).floor.toNat + m.resid.getD i 0
  { m with regs := m.regs.set i (m.regs.getD i 0 + units / 4294967296), resid := m.resid.set i (units % 4294967296) }

/-- Move the energy of one cycle of a set into its registers (R330). -/
def MtrSt.book (m : MtrSt) (set : Nat) (e q : Rat) : MtrSt :=
  let m := if 0 < e then m.credit set 0 e else if e < 0 then m.credit set 1 (-e) else m
  if 0 ≤ q then m.credit set (if 0 ≤ e then 2 else 3) q else m.credit set (if e < 0 then 4 else 5) (-q)

/-- The end of a mains cycle: energies go to the registers, a seal takes effect (R329, R330). -/
def MtrSt.endCycle (m : MtrSt) (cal : List Byte) : MtrSt :=
  let m := (List.range 3).foldl (fun m p => m.book p (m.e.getD p 0) (m.q.getD p 0)) m
  let m := m.book 3 m.e.sum m.q.sum
  { m with e := [0, 0, 0], q := [0, 0, 0], gaps := m.gaps + b2n m.gapHere, unl := m.unl + b2n m.unlHere,
           gapHere := false, unlHere := false, cal := cal }

/-- The mains cycle in progress ends. -/
def endCycle : M Unit := do
  let s ← getS
  updMtr fun m => m.endCycle (s.tbs 0x80 0 192)

/-- A sub-window's number beside the last one (R332): `lost` sub-windows are missing. They count in LOST_SUBWIN, a GAP
record tells those that an update has not told of (R335, R341), and what the later sums need of them is unknown. A cycle
that lost its last sub-window has ended; the gap counts in the cycle where it shows, or in the one it cut off where a new
cycle begins in order (DEDUCED, log entry 19). -/
def subwindowsLost (w : SubWin) (lost : Nat) : M Unit := do
  let m := (← getS).hid.mtr
  let cutOff := m.lastCyc.any (· != w.cycle)
  incBy MTR.LOST.LOST_SUBWIN lost
  updMtr fun m => { m with
    prev := if 0 < lost then none else m.prev, hist := (List.replicate (min lost 64) [] ++ m.hist).take 64, told := m.told - lost
    gapHere := m.gapHere || (decide (0 < lost) && (!cutOff || decide (w.idx = 0))) }
  if cutOff then
    endCycle
    updMtr fun m => { m with gapHere := decide (0 < lost) && decide (0 < w.idx) }
  if m.told < lost then eventRecord 4 (lost - m.told)

/-- ENERGY_ACCUMULATE: the oldest waiting sub-window is accumulated (R330, R332). What lies before the first sub-window, or
in a lost one, is a free value. -/
def energyAccumulate : M Unit := do
  let s ← getS
  match s.hid.mea.xfer with
  | [] => pure ()
  | w :: rest =>
    hid fun h => { h with mea := { h.mea with xfer := rest } }
    let last := s.hid.mtr.lastSeq
    updMtr fun m => { m with lastSeq := some w.seq }
    if s.metering ∧ 0 < w.n then
      subwindowsLost w ((last.map fun l => (w.seq + 4294967296 - l - 1) % 4294967296).getD 0)
      let m := (← getS).hid.mtr
      let means ← freshRats 16
      let volts ← freshRats 3
      let raw := (List.range 16).map (m.mean w)
      let xs := (List.range 16).map fun k => m.delayed k (raw.getD k 0) ((m.prev.getD means).getD k 0)
      let val (role : Nat) : Option Rat := (m.chanOf role).map fun k => xs.getD k 0
      let vs := (List.range 3).map fun p => (val (p + 1)).getD 0
      let old := m.hist.getD (subCount s.hid.mea.mains / 4 - 1) []
      let k : Rat := (w.n : Rat) / 14400000000000
      let energy (p : Nat) (v : Rat) : Rat := match val (p + 1), val (p + 0x11) with
        | some _, some i => v * i * k
        | _, _ => 0
      updMtr fun m => { m with
        e := (List.range 3).map fun p => m.e.getD p 0 + energy p (vs.getD p 0)
        q := (List.range 3).map fun p => m.q.getD p 0 + energy p (old.getD p (volts.getD p 0))
        prev := some raw, hist := (vs :: m.hist).take 64, lastCyc := if w.last then none else some w.cycle
        unlHere := m.unlHere || !w.locked }
      if w.last then endCycle

/-! ## Key, seal, time, acknowledgement -/

/-- KEY_GENERATED: the first start in INTEGRATION (R340, R343); a key is never generated again. -/
def keyGenerated : M Unit := do
  let s ← getS
  if s.present 8 ∧ s.hid.mtr.key.isNone ∧ s.f LCY.STATE.STATE = 1 then
    let n := s.hid.fresh
    let _ ← fresh
    updMtr fun m => { m with key := some n, mono := 0 }
    wf MTR.STATUS.KEY_VALID 1
    eventRecord 6 0

/-- Whether a calibration table breaks R329; the answer is the payload offset of the first bad field, past `base`. -/
def calBad (t : List Byte) : Option Nat :=
  let role (k : Nat) : Nat := (t.getD (12 * k) 0).toNat
  let legal (r : Nat) : Bool := [0, 1, 2, 3, 0x11, 0x12, 0x13, 0x14].contains r
  let fieldN (k o n : Nat) : Nat := ofLe ((t.drop (12 * k + o)).take n)
  (List.range 16).findSome? fun k =>
    let r := role k
    if !legal r then some (12 * k)
    else if r ≠ 0 ∧ (List.range k).any (fun i => role i == r) then some (12 * k)
    else if 0x11 ≤ r ∧ r ≤ 0x13 ∧ !(List.range 16).any (fun i => role i == r - 0x10) then some (12 * k)
    else if t.getD (12 * k + 1) 0 ≠ 0 then some (12 * k + 1)
    else if 32768 < (sx16 (fieldN k 2 2)).natAbs then some (12 * k + 2)
    else if r ≠ 0 ∧ fieldN k 4 4 = 0 then some (12 * k + 4)
    else none

/-- Outside the life-cycle states of R329 a seal is refused `WRONG_STATE`; DETAIL names LCY.STATE. -/
def State.sealState (s : State) : Option Nat :=
  if s.f LCY.STATE.STATE ≠ 1 ∧ s.f LCY.STATE.STATE ≠ 3 then some LCY.STATE else none

/-- The refusal of a seal (R329): reason and detail. -/
def State.sealRefusal (s : State) (table : List Byte) : Option (Nat × Nat) :=
  if s.f MTR.STATUS.SESSION_OPEN = 1 then some (0x0D02, MTR.STATUS)
  else match calBad table with
    | some o => some (0x0D04, 4 + o)
    | none => if s.hid.mtr.key.isNone then some (0x0D06, MTR.STATUS) else none

/-- A seal is made (R329, R341). -/
def sealTable (table : List Byte) : M Unit := do
  wtab 0x80 0 table
  wf MTR.STATUS.REG_FAULT 0
  updMtr fun m => { m with seals := (m.seals + 1) % 65536 }
  eventRecord 1 (← hidden).mtr.seals

/-- MTR.TIME_HI was written (R342). -/
def timeSet : M Unit := do
  let s ← getS
  let old := s.hid.mtr.utc.getD 0
  let t := (s.rd MTR.TIME_HI).toNat * 4294967296 + (s.rd MTR.TIME_LO).toNat
  eventRecord 3 (old / 1000 % 4294967296)
  updMtr fun m => { m with utc := some t }

/-- A tick of the metrology clock: MONO while the key exists, UTC once set (R334). -/
def meterTick : M Unit := do
  let s ← getS
  if s.hid.mtr.key.isSome ∧ s.present 8 then updMtr fun m => { m with mono := m.mono + 1000 }
  updMtr fun m => { m with utc := m.utc.map (· + 1) }

/-- The metrology island returns to service: what it owes is written, in the order of R335, but for FW_CHANGE before GAP
after an update (R333, R336, R341). `regsOk` tells that the registers pass their CRC. -/
def meterReturn (afterReset updated regsOk : Bool) : M Unit := do
  let s ← getS
  if updated && !regsOk then
    wf MTR.STATUS.REG_FAULT 1
    meterStatus
  if updated then eventRecord 2 s.hid.mtr.prevTag
  if 0 < s.hid.mtr.missed then
    eventRecord 4 s.hid.mtr.missed
    updMtr fun m => { m with told := m.told + m.missed, missed := 0 }
  if s.hid.mtr.startPend then
    writeRecord 2 s.hid.mtr.ses true none
    updMtr fun m => { m with startPend := false }
  if s.hid.mtr.endPend then
    writeRecord 3 s.hid.mtr.ses true none
    updMtr fun m => { m with endPend := false }
  if afterReset then meterClose true
  if s.hid.mtr.powerUp then
    eventRecord 5 s.hid.mtr.commitMono
    updMtr fun m => { m with powerUp := false }

/-! ## Reads (R338, R339) -/

/-- The reply data of METER_READ; none for an unknown selector. -/
def State.meterRead (s : State) (sel : Nat) : Option (List Byte) :=
  let m := s.hid.mtr
  if sel = 0 then some (m.regs.flatMap (leBytes 8))
  else if sel ≤ 4 then some (((m.regs.drop (6 * (sel - 1))).take 6).flatMap (leBytes 8))
  else if sel = 0x10 then some (4 :: (List.range 64).map (Config.publicKey (m.key.getD 0)) ++ uniqueId)
  else if sel = 0x11 then some (s.digest ++ leBytes 4 (s.fwVersion 1) ++ leBytes 2 m.seals ++ leBytes 2 0)
  else if sel = 0x20 then some (s.record (s.f MTR.LAST.RSEQ) 5 m.ivl false none)
  else none

/-- The held records from RSEQ `first` on, at most `count`; none where `first` is not held. -/
def State.heldRecords (s : State) (first count : Nat) : Option (List (List Byte)) :=
  let last := s.f MTR.LAST.RSEQ
  let n := s.hid.mtr.ring.length
  if last + 1 ≤ first + n ∧ first ≤ last ∧ 0 < n then some ((s.hid.mtr.ring.drop (first + n - last - 1)).take count) else none

end Sys2Proof.Machine
end

