-- ==== Sys2Proof/Machine/Charging.lean ====
section
/-! DEFINITION. The charging interface: pilots, session, connecting, limits, stops, lock (R311 to R322). It acts while
CHG.CFG.EN is 1. -/

namespace Sys2Proof.Machine

/-- Change the session's record. -/
def updChg (f : ChgSt → ChgSt) : M Unit := hid fun h => { h with chg := f h.chg }

/-- Whether the charging interface is in service. -/
def State.chgOn (s : State) : Bool := s.f CHG.CFG.EN == 1

/-- The session state (R315). -/
def State.chgState (s : State) : Nat := s.f CHG.STATUS.STATE

/-- What the light ring shows (R315): green, blue and red, and the blink rate in Hz, 0 for steady. -/
def State.lightRing (s : State) : Bool × Bool × Bool × Nat :=
  match s.chgState with
  | 1 => (true, false, false, 1)
  | 2 => (true, false, false, 0)
  | 3 => (false, true, false, 2)
  | 4 => (s.f CHG.CFG.DIR == 1, true, false, 0)
  | 5 => (false, true, false, 4)
  | 6 => (false, false, true, 0)
  | _ => (false, false, false, 0)

/-! ## Control pilot (R312, R313) -/

/-- The state of a high level in mV; 7 for D and levels outside every window. -/
def pilotState (high low : Int) (pwm : Bool) : Nat :=
  let isIn (a b : Int) : Bool := decide (a ≤ high) && decide (high ≤ b)
  if pwm ∧ !(decide (-13000 ≤ low) && decide (low ≤ -11000)) then 7
  else if isIn 11000 13000 then 0
  else if isIn 8000 10000 then 1
  else if isIn 5000 7000 then 2
  else if isIn (-1000) 1000 then 4
  else if isIn (-13000) (-11000) && !pwm then 5
  else 7

/-- The digital band of the duty, in 0.1 %. -/
def digitalDuty (d : Nat) : Bool := decide (30 ≤ d) && decide (d ≤ 70)

/-- The pilot current in 0.1 A of a duty in 0.1 %; none outside every band. -/
def pilotCurrent (d gridHost : Nat) : Option Nat :=
  if digitalDuty d then some gridHost
  else if 80 ≤ d ∧ d < 100 then some 60
  else if 100 ≤ d ∧ d ≤ 850 then some (d * 6 / 10)
  else if 850 < d ∧ d ≤ 960 then some ((d - 640) * 25 / 10)
  else if 960 < d ∧ d ≤ 970 then some 800
  else none

/-- I_CP in force, 0.1 A. -/
def State.iCp (s : State) : Nat :=
  if s.f CHG.PILOT.PWM = 1 then (pilotCurrent (s.f CHG.PILOT.DUTY) (s.f CHG.REQ.I_GRID_HOST)).getD 0 else 0

/-! ## Entering and leaving the session -/

/-- The target of I_CELL, in Q1.30; it is a new target only where it differs (DESIGN CHOICE, log entry 19). -/
def cellTarget (x : Int) : M Unit := do
  let s ← getS
  let c := s.f CHG.LIMITS.I_CELL
  let w := BitVec.ofNat 32 (codeOf 32 (clampI (-2147483648) 2147483647 x))
  if c < 192 ∧ s.rd (LAT.TARGET c) ≠ w then
    wr (LAT.TARGET c) w
    newTarget c (s.rd (LAT.TARGET c))

/-- LOCKED becomes CONNECTING once every condition of R317 holds. -/
def tryStart : M Unit := do
  let s ← getS
  if s.chgOn ∧ s.chgState = 2 ∧ s.f CHG.STATUS.START_PEND = 1 ∧ (s.f CHG.CFG.BTN_REQ = 0 ∨ s.hid.chg.pressed) ∧
      s.f CHG.PILOT.STATE = 1 ∧ s.f CHG.PILOT.PWM = 1 ∧ s.f CHG.PP.I_PP ≠ 0 then
    wf CHG.STATUS.START_PEND 0
    wf ACT.CPL_STAT.INHIBIT 1
    wf CHG.STATUS.CP_S2 1
    updChg fun c => { c with step := 1, stepAt := s.ms, emergency := false, pressed := false, unlockAfter := false,
                             toFault := false, relAt := none, stateC := none }
    setChg 3 0
    meterOpen (s.f CHG.CFG.DIR == 1)

/-- A normal stop begins (R320). -/
def normalStop (cause : Nat) : M Unit := do
  let s ← getS
  if s.chgState = 3 ∨ s.chgState = 4 then
    updChg fun c => { c with emergency := false, relAt := none }
    setChg 5 cause
    cellTarget 0

/-- The lock has reached a state the session waits for, or its drive failed (R315). -/
def followLock : M Unit := do
  let s ← getS
  if s.chgOn ∧ (s.chgState = 1 ∨ s.chgState = 2) then
    if s.f ACT.CPL_STAT.STATE = 5 then setChg 6 115
    else if s.chgState = 1 ∧ s.f ACT.CPL_STAT.STATE = 3 then
      setChg 2 0
      tryStart

/-- No cable any more, or a valid coding (R315, R320). -/
def followCable : M Unit := do
  let s ← getS
  let st := s.chgState
  let none1 := decide (10000 < s.f CHG.PP.R)
  if none1 then
    if st = 3 ∨ st = 4 ∨ (st = 5 ∧ !s.hid.chg.emergency) then emergencyStop 121 false
    else if st = 1 ∨ st = 2 ∨ st = 6 then
      wf CHG.STATUS.START_PEND 0
      setChg 0 0
  else if st = 0 ∧ s.f CHG.PP.I_PP ≠ 0 then
    setChg 1 0
    cplCommand 1
    followLock

/-- PILOT_ACCEPT (R312, R313): `n` consecutive periods, or ms of steady level without PWM, agree in the levels in mV, the period in
µs and the duty in 0.1 %. A state or a duty that differs from the one in force is accepted after 3. -/
def pilotAccept (high low : Int) (period duty n : Nat) : M Unit := do
  let s ← getS
  let pwm : Bool := decide (980 ≤ period) && decide (period ≤ 1020)
  let st := pilotState high low pwm
  let d := if pwm then min duty 1000 else 0
  let differs : Bool := st != s.f CHG.PILOT.STATE || b2n pwm != s.f CHG.PILOT.PWM ||
    decide (5 < ((d : Int) - s.f CHG.PILOT.DUTY).natAbs)
  if s.chgOn ∧ 3 ≤ n ∧ differs then
    let i := if pwm then pilotCurrent d (s.f CHG.REQ.I_GRID_HOST) else some 0
    wf CHG.PILOT.STATE st
    wf CHG.PILOT.PWM (b2n pwm)
    wf CHG.PILOT.DUTY d
    wf CHG.PILOT.I_CP (min 1023 (i.getD 0))
    eventDev 0x8030 (by1 [st] ++ leBytes 2 d ++ leBytes 2 (i.getD 0))
    if st = 2 ∧ s.hid.chg.stateC.isNone ∧ s.chgState = 3 then updChg fun c => { c with stateC := some s.ms }
    if st = 7 ∨ i.isNone then chgOccur 120 0 ((s.rd CHG.PILOT).toNat)
    let s ← getS
    let inC : Bool := s.chgState == 4 || (s.chgState == 3 && s.hid.chg.stateC.isSome)
    if (s.chgState = 3 ∨ s.chgState = 4) ∧ (!pwm ∨ s.iCp = 0 ∨ (inC ∧ st ≠ 2)) then normalStop 0
    tryStart

/-- The coding resistance of a PP_SENSE voltage in mV (R314), in Ω, saturating. -/
def ppResistance (v : Nat) : Nat := if 5000 ≤ v then 0xFFFF else min 0xFFFF (1000 * v / (5000 - v))

/-- The cable limit of a coding in A; none for an invalid one. -/
def ppLimit (r : Nat) : Option Nat :=
  if 75 ≤ r ∧ r ≤ 140 then some 63
  else if 164 ≤ r ∧ r ≤ 308 then some 32
  else if 400 ≤ r ∧ r ≤ 936 then some 20
  else if 1100 ≤ r ∧ r ≤ 2460 then some 13
  else if 10000 < r then some 0
  else none

/-- PROXIMITY_ACCEPT (R314): `n` samples agree in the voltage at PP_SENSE in mV; a new coding is accepted after 3. -/
def proximityAccept (v n : Nat) : M Unit := do
  let s ← getS
  let r := ppResistance v
  if s.chgOn ∧ 3 ≤ n ∧ r ≠ s.f CHG.PP.R then
    wf CHG.PP.R r
    wf CHG.PP.I_PP ((ppLimit r).getD 0)
    if (ppLimit r).isNone then chgOccur 121 0 r
    followCable
    tryStart

/-! ## Commands and the button (R316, R317) -/

/-- Whether the cause of FAULT is gone (R315): no source of the chapter is lasting and the lock drive has not failed
(DESIGN CHOICE, log entry 19). -/
def State.faultGone (s : State) : Bool :=
  [86, 87, 120, 121, 122, 123, 124].all (fun k => s.rd (FLG.LASTING k) == 0) && s.f ACT.CPL_STAT.STATE != 5

/-- CHG_BUTTON_PRESS (R316): a low level of `t` ms after the debounce, 50 ms to 2 s for a press. -/
def buttonPress (t : Nat) : M Unit := do
  let s ← getS
  if s.chgOn ∧ 50 ≤ t ∧ t ≤ 2000 then
    inc CHG.COUNT.PRESSES
    let st := s.chgState
    if st = 2 ∧ s.f CHG.STATUS.START_PEND = 1 then
      updChg fun c => { c with pressed := true }
      tryStart
    else if st = 2 ∨ st = 6 then cplCommand 2
    else if st = 3 ∨ st = 4 then
      updChg fun c => { c with unlockAfter := true }
      normalStop 0

/-- The refusal of a CHG.CMD (R317): address and reason. -/
def State.chgCmdRefusal (s : State) (cmd : Nat) : Option (Nat × Nat) :=
  let st := s.chgState
  if cmd = 1 ∧ st ≠ 1 ∧ st ≠ 2 then some (CHG.CMD, 0x0C02)
  else if cmd = 3 ∧ (st = 3 ∨ st = 4 ∨ st = 5) then some (CHG.CMD, 0x0C03)
  else if cmd = 3 ∧ (st = 2 ∨ st = 6) then s.cplRefusal 2
  else none

/-- An accepted CHG.CMD (R315, R317): 1 START, 2 STOP, 3 UNLOCK. -/
def chgCommand (cmd : Nat) : M Unit := do
  let s ← getS
  let st := s.chgState
  match cmd with
  | 1 =>
    wf CHG.STATUS.START_PEND 1
    updChg fun c => { c with pressed := false }
    tryStart
  | 2 =>
    if st = 3 ∨ st = 4 then normalStop 0
    else
      wf CHG.STATUS.START_PEND 0
      if st = 6 ∧ s.faultGone then setChg 2 0
  | 3 => if st = 2 ∨ st = 6 then cplCommand 2
  | _ => pure ()

/-! ## Limits (R319) -/

/-- The voltages and grid limit as R319 states them: the target of I_CELL in Q1.30. A quotient by zero is open:
`open_` stands for it. -/
def State.linkTarget (s : State) (iG : Nat) (open_ : Int) : Int :=
  let nph := if s.f FLD.AFE_STAT.NPH = 3 then 3 else if s.f FLD.AFE_STAT.NPH = 1 then 1 else 0
  let vrms := 2 * s.f FLD.AFE_STAT.V_RMS
  let vlink := s.f DCL.STATUS.VDC
  let req := sx16 (s.f CHG.REQ.I_REQ)
  let scale := s.f CHG.LIMITS.I_SCALE
  -- in 10^-4 A
  let iLink : Int := if vlink = 0 then open_ else ((nph * vrms * iG * s.f CHG.LIMITS.EFF / vlink : Nat) : Int)
  let mag := if (req.natAbs : Int) * 1000 < iLink then (req.natAbs : Int) * 1000 else iLink
  if scale = 0 then open_ else
    let x := mag * 1073741824 / (scale * 10000)
    if req < 0 then -x else x

/-- CHARGE_LIMIT_UPDATE: on each tick (R313, R319, R320); a pilot current of 0 stops the session. -/
def chargeLimits : M Unit := do
  let s ← getS
  if s.chgOn then
    followLock
    if s.iCp = 0 then normalStop 0
    let s ← getS
    let iG := min (min s.iCp (10 * s.f CHG.PP.I_PP)) (s.f CHG.REQ.I_GRID_HOST)
    wf CHG.PILOT.I_CP (min 1023 s.iCp)
    wf FLD.AFE_LIM.I_GRID_MAX (min 1023 iG)
    if s.chgState = 5 then cellTarget 0
    else
      let free ← if s.f DCL.STATUS.VDC = 0 ∨ s.f CHG.LIMITS.I_SCALE = 0 then fresh else pure 0
      cellTarget (s.linkTarget iG (sx32 free))

/-! ## Connecting (R318, R322) -/

/-- The next step begins. -/
def nextStep (n : Nat) : M Unit := do
  let s ← getS
  updChg fun c => { c with step := n, stepAt := s.ms }

/-- An internal ENABLE; its refusal ends in FAULT with the reason as cause (R315, R323). -/
def internalEnable (g : Nat) : M Unit := do
  match ← enableGroup g false with
  | some x =>
    emergencyStop x.2 true
  | none => pure ()

/-- What CONNECTING_STEP meets (R318): the voltages VA, VB, VC and VFE in mV, as peak values in steps 1 and 2 and as
RMS values of the phases in step 3. -/
def connectingStep (va vb vc vfe : Nat) : M Unit := do
  let s ← getS
  if s.chgOn ∧ s.chgState = 3 then
    let c := s.hid.chg
    let since := s.ms - c.stepAt
    let sinceC := s.ms - c.stateC.getD s.ms
    match c.step with
    | 1 =>
      if c.stateC.isSome then
        if 30000 < va ∨ 30000 < vb ∨ 30000 < vc then
          inc CHG.COUNT.WELDS
          updChg fun c => { c with welded := true }
          chgOccur 122 0 (max va (max vb vc))
        else if 100 ≤ sinceC then
          wf CHG.STATUS.RLY 8
          nextStep 2
    | 2 =>
      if 9 * va ≤ 10 * vfe ∧ since ≤ s.f CHG.TIMES.PRE_MS then
        wf CHG.STATUS.RLY 15
        nextStep 3
      else if s.f CHG.TIMES.PRE_MS ≤ since then chgOccur 123 0 vfe
    | 3 =>
      if s.f CHG.TIMES.RLY_OP_MS + 100 ≤ since then
        let on := [va, vb, vc].map fun v => decide (50000 < v)
        if on = [false, false, false] then
          if 3000 ≤ sinceC then
            let _ ← occurrence 124 0 sinceC
            emergencyStop 124 false
        else if on = [true, true, true] then
          wf FLD.AFE_STAT.NPH 3
          nextStep 4
        else if on = [true, false, false] then
          wf FLD.AFE_STAT.NPH 1
          nextStep 4
        else chgOccur 87 (s.f CHG.CFG.AFE_GROUP) 0
    | 4 =>
      if s.f FLD.AFE_STAT.LOCKED = 1 then
        nextStep 5
        internalEnable (s.f CHG.CFG.AFE_GROUP)
    | 5 =>
      if s.gst (s.f CHG.CFG.AFE_GROUP) = .running ∧ s.hid.afe.vfe = some (s.fl FLD.AFE_CFG.VFE_REF 1 10) then
        nextStep 6
        internalEnable (s.f CHG.CFG.DAB_GROUP)
    | 6 =>
      if s.gst (s.f CHG.CFG.DAB_GROUP) = .running ∧ s.gst (s.f CHG.CFG.AFE_GROUP) = .running then
        if s.f CHG.CFG.DIR = 1 ∧ !(s.f CHG.PILOT.PWM == 1 && digitalDuty (s.f CHG.PILOT.DUTY) && s.present 8 &&
            s.f MEA.MAINS.LOCKED == 1) then normalStop 0x0C04
        else
          inc CHG.COUNT.SESSIONS
          setChg 4 0
    | _ => pure ()

/-! ## The end of a stop (R320) -/

/-- NORMAL_STOP_COMPLETE: the grid current is low, or 200 ms have passed. -/
def normalStopComplete : M Unit := do
  let s ← getS
  if s.chgOn ∧ s.chgState = 5 ∧ !s.hid.chg.emergency ∧ s.hid.chg.relAt.isNone then
    let _ ← disableGroup (s.f CHG.CFG.AFE_GROUP) false
    let _ ← disableGroup (s.f CHG.CFG.DAB_GROUP) false
    releaseRelays

/-- STOPPING ends in LOCKED or FAULT; without a cable the session is IDLE then. -/
def endStopping (weldFault : Bool) : M Unit := do
  let s ← getS
  let c := s.hid.chg
  meterClose false
  if !c.welded then wf ACT.CPL_STAT.INHIBIT 0
  updChg fun x => { x with step := 0, relAt := none, emergency := false, toFault := false, unlockAfter := false,
                           stateC := none }
  setChg (if weldFault || c.toFault then 6 else 2) (if weldFault then 122 else 0)
  if c.unlockAfter then cplCommand 2
  followCable

/-- RELAY_RELEASE_CHECK: the highest peak of VA, VB and VC in mV from RLY_REL_MS on; without a weld the stop ends 20 ms after that. -/
def relayReleaseCheck (peak : Nat) : M Unit := do
  let s ← getS
  match s.hid.chg.relAt with
  | some t =>
    if s.chgState = 5 ∧ s.f CHG.TIMES.RLY_REL_MS ≤ s.ms - t then
      if 30000 ≤ peak then
        inc CHG.COUNT.WELDS
        if !s.hid.chg.emergency then inc CHG.COUNT.EMERGENCY
        updChg fun c => { c with welded := true, emergency := true }
        let b ← occurrence 122 0 peak
        endStopping b
      else if s.f CHG.TIMES.RLY_REL_MS + 20 ≤ s.ms - t then
        updChg fun c => { c with welded := false }
        endStopping false
  | none => pure ()

/-- WELD_INHIBIT_CLEAR: after a welded relay the voltages were low for 1 s. -/
def weldInhibitClear : M Unit := do
  let s ← getS
  if s.hid.chg.welded ∧ s.chgState ≠ 5 then
    updChg fun c => { c with welded := false }
    wf ACT.CPL_STAT.INHIBIT 0

end Sys2Proof.Machine
end

