-- ==== Sys2Proof/Machine/Converters.lean ====
section
/-! DEFINITION. DC converters and low-voltage power: the buck sequencer, evaluations of the Lattice with it, the
power-path switch, sources, the battery charger (R345 to R366). -/

namespace Sys2Proof.Machine

/-- Change the sequencer's record. -/
def updCnv (f : CnvSt → CnvSt) : M Unit := hid fun h => { h with cnv := f h.cnv }

/-- Change the power path's record. -/
def updLvp (f : LvpSt → LvpSt) : M Unit := hid fun h => { h with lvp := f h.lvp }

/-! ## Targets of cells -/

/-- A new target for a cell, in Q1.30 (R201); the power path's own repeats are none (DESIGN CHOICE, log entry 20). -/
def setTarget (c : Nat) (x : Int) : M Unit := do
  let s ← getS
  let w := BitVec.ofNat 32 (codeOf 32 (clampI (-2147483648) 2147483647 x))
  if c < 192 ∧ s.rd (LAT.TARGET c) ≠ w then
    wr (LAT.TARGET c) w
    newTarget c (s.rd (LAT.TARGET c))

/-- A voltage in mV as a target of VCELL (R354). -/
def State.voltTarget (s : State) (mv : Nat) : Int := mv * s.f CNV.VSCALE.VSCALE * 64 / 1000

/-- A battery current in 0.1 A as a target of ICELL: what the cell's own input reads at that current (DESIGN CHOICE, log entry 20);
without a gain it is open. -/
def State.currTarget (s : State) (i : Nat) : Int :=
  let c := s.f LVP.CFG.ICELL
  let gain := sx16 (s.f LVP.SCALE.I_GAIN)
  let code : Int := if gain = 0 then sx32 (Config.noGain false i).toNat else 0x8000 + (i * 100000 : Nat) / gain
  (code - s.tn 0x20 (64 * c + 4) 2) * s.dW c 8 / 65536

/-- The charge current in force: I_CHG, folded back while FOLDBACK is 1 (R362). -/
def State.chargeCurrent (s : State) : Int :=
  let i := s.currTarget (s.f LVP.CHG.I_CHG)
  if s.f LVP.STATUS.FOLDBACK = 1 then i * s.f LVP.TIMER.FOLD_FRAC / 1000 else i

/-- A result in mV of the battery side of the switch (R361). -/
def State.battMv (s : State) : Nat :=
  let r := s.f LVP.SLOTS.VBATT_SLOT
  (s.usable r 0).getD 0 * s.f LVP.SCALE.V_GAIN / 1000

/-- The low-voltage bus in mV, as VCELL reads it; without a scale it is open. -/
def State.busMv (s : State) : Int :=
  let c := s.f CNV.VSCALE.VCELL
  let r := s.dB c 2
  let y := (((s.usable r 0).getD 0 : Int) - s.tn 0x20 (64 * c + 4) 2) * s.dW c 8 / 65536
  if s.f CNV.VSCALE.VSCALE = 0 then sx32 (Config.noGain true ((s.usable r 0).getD 0)).toNat else y * 1000 / (s.f CNV.VSCALE.VSCALE * 64)

/-! ## The interrupt and the switch -/

/-- PWR_INT is asserted (low) while a bit is set in both INT_STAT and INT_EN (R366). -/
def State.pwrInt (s : State) : Bool := (s.rd LVP.INT_STAT &&& s.rd LVP.INT_EN) != 0

/-- The power-path switch opens or closes (R356). -/
def setBsw (on : Bool) : M Unit := do
  let s ← getS
  if s.f LVP.STATUS.BSW ≠ b2n on then
    wf LVP.STATUS.BSW (b2n on)
    wf LVP.INT_STAT.BSW_CHANGE 1
    updLvp fun l => { l with batt := [] }

/-- LVP_EVENT: a kind (0 source change, 1 long press) and its value (R357, R365). -/
def lvpEvent (kind val : Nat) : M Unit := eventDev 0x8034 (by1 [kind, val])

/-! ## The buck sequencer (R346 to R351) -/

/-- One in Q1.30. -/
abbrev one30 : Int := 1073741824

/-- The peak threshold of phase `k` (R347). -/
def State.peakThr (s : State) (u : Int) (trim : Int) : Nat :=
  let z : Int := s.f CNV.BUCK_PK.ZERO_CODE
  let l : Int := s.f CNV.BUCK_PK.ILIM_CODE
  (min (z + clampI 0 one30 u * (l - z) / one30 + trim) l).toNat

/-- The signed trim of phase `k` in force (R350). -/
def State.trim (s : State) (k : Nat) : Int :=
  if k < 4 then sxn 8 ((s.rd CNV.TRIMS).toNat / 2 ^ (8 * k) % 256) else 0

/-- Show the trims. -/
def setTrims (l : List Int) : M Unit :=
  wr CNV.TRIMS (BitVec.ofNat 32 (ofLe (l.map fun x => BitVec.ofNat 8 (codeOf 8 x))))

/-- The trims after an evaluation (R350). -/
def trimStep (n : Nat) : M Unit := do
  let s ← getS
  if n ≤ 4 then
    let codes := (List.range n).map fun k => s.usable (s.f CNV.BUCK_SLOT.ISLOT_FIRST + k) s.hid.cnv.seen
    if codes.all Option.isSome then
      let cs := codes.map fun c => ((c.getD 0 : Nat) : Int)
      let sum := cs.sum
      let band : Int := s.f CNV.BUCK_CELLS.TRIM_BAND
      let lim : Int := s.f CNV.BUCK_CELLS.TRIM_MAX
      setTrims ((List.range 4).map fun k =>
        if k < n then
          let c := cs.getD k 0
          let d : Int := if n * (c + band) < sum then 1 else if sum < n * (c - band) then -1 else 0
          clampI (-lim) lim (s.trim k + d)
        else s.trim k)
  else setTrims [0, 0, 0, 0]

/-- The edges of the active phases (R348, R349, R352). -/
def postPhases (n : Nat) : M Unit := do
  let s ← getS
  let p := s.tbP (s.grpTb s.buckGroup)
  let d := s.f CNV.BUCK_CFG.DMAX * p / 1000
  let w := s.f CNV.BUCK_STAT.ROT
  let boost := s.f CNV.BUCK_CFG.MODE
  let word (x : Nat) : Word := BitVec.ofNat 32 (x % p * 64)
  (List.range n).forM fun k => do
    let slot := if n ≤ 4 then k else (k + n - w % n) % n
    let q := slot * p / n
    match s.buckChan k boost, s.buckChan k (1 - boost) with
    | some c1, some c2 =>
      let dt := s.f (PLS.DEADTIME.DT (s.chSet c1))
      postEdges c1 (word q) (word (q + d))
      postEdges c2 (word (q + d)) (word (q + p - dt % p))
    | _, _ => pure ()

/-- The off pattern on the active phases (R353). -/
def postOff (n : Nat) : M Unit := do
  let s ← getS
  (List.range n).forM fun k => [0, 1].forM fun side =>
    match s.buckChan k side with
    | some c => postEdges c never 0
    | none => pure ()

/-- Enter a hiccup (R353). -/
def enterHiccup (g : Nat) (u : Int) : M Unit := do
  wf CNV.BUCK_STAT.HICCUP 1
  let now := (← hidden).now
  updCnv fun c => { c with hiccupAt := now }
  inc CNV.BUCK_STAT.HICCUPS
  wf LVP.INT_STAT.HICCUP 1
  eventDev 0x8033 (by1 [← rf CNV.BUCK_STAT.HICCUPS] ++ leBytes 4 (codeOf 32 u))
  occur 140 g (codeOf 32 u)

/-- Whether the buck is limited in this evaluation (R353). -/
def State.limitedNow (s : State) (n : Nat) (u : Int) (cyc : List Nat) : Bool :=
  decide (one30 ≤ u) && (List.range n).any fun k => cyc.getD k 0 != s.hid.cnv.cyc.getD k (cyc.getD k 0)

/-- Diode emulation after an evaluation (R351). -/
def diodeStep (u : Int) : M Unit := do
  let s ← getS
  let low := decide (u * 256 < s.f CNV.BUCK_SLOT.DE_ENTER * one30)
  let m := if low then s.hid.cnv.deN + 1 else 0
  updCnv fun c => { c with deN := m }
  if 8 ≤ m then wf CNV.BUCK_STAT.DE_ACTIVE 1
  if s.f CNV.BUCK_SLOT.DE_EXIT * one30 < u * 256 then wf CNV.BUCK_STAT.DE_ACTIVE 0

/-- CSTATE reads CV while VCELL wins, and CC otherwise (R359). -/
def chargeMode : M Unit := do
  let s ← getS
  let st := s.f LVP.STATUS.CSTATE
  if st = 1 ∨ st = 2 then
    let ms := s.dB (s.f CNV.BUCK_CFG.DCELL) 3
    let win : Bool := decide (ms < 24) && s.f (LAT.MS_STAT.WINNER ms) == s.f CNV.VSCALE.VCELL
    wf LVP.STATUS.CSTATE (if win then 2 else 1)

/-- Battery loss (R363). -/
def batteryLost : M Unit := do
  let s ← getS
  let ic := s.f LVP.CFG.ICELL
  setBsw false
  if ic < 192 then
    let umax := s.dW ic 36
    updLc ic fun c => { c with rho := umax }
    wr (LAT.RAMPED ic) (BitVec.ofNat 32 (codeOf 32 umax))
    setTarget ic umax
  setTarget (s.f CNV.VSCALE.VCELL) (s.voltTarget (s.f LVP.VLIM1.V_BUS))
  wf LVP.STATUS.CSTATE 6
  wf LVP.INT_STAT.BATT_LOST 1
  occur 151 s.buckGroup 0

/-- The battery watch of an evaluation (R363). -/
def batteryWatch : M Unit := do
  let s ← getS
  if s.gst s.buckGroup = .running ∧ s.f LVP.STATUS.BSW = 1 then
    let vr := s.f LVP.SLOTS.VBATT_SLOT
    let ir := s.f LVP.SLOTS.IBATT_SLOT
    match s.usable vr 0, s.usable ir 0 with
    | some vc, some ic =>
      let v : Int := vc * s.f LVP.SCALE.V_GAIN
      let i : Int := ((ic : Int) - 0x8000) * sx16 (s.f LVP.SCALE.I_GAIN)
      let h := ((v, i) :: s.hid.lvp.batt).take 11
      updLvp fun l => { l with batt := h }
      let before := ((h.drop 3).take 8).map (·.1)
      let step : Int := s.f LVP.BL.BL_STEP * 1000
      let lim : Int := s.f LVP.BL.BL_I * 100000
      if before.length = 8 ∧ (h.take 3).all fun x =>
          decide (8 * step ≤ (8 * x.1 - before.sum).natAbs) && decide ((x.2.natAbs : Int) ≤ lim) then batteryLost
    | _, _ => pure ()
  else updLvp fun l => { l with batt := [] }

/-- The sequencer's part of an evaluation of its rate group (R346 to R353); `again` tells a re-evaluation of the same
window, which moves no count. -/
def sequencer (g : Nat) (outs : List (Nat × Int)) (again : Bool) : M Unit := do
  let s ← getS
  let n := s.f CNV.BUCK_CFG.PHASES + 1
  let dc := s.f CNV.BUCK_CFG.DCELL
  let head := s.msHead (s.f CNV.BUCK_CFG.RG) dc
  let u := ((outs.find? fun x => x.1 == head).map (·.2)).getD (sx32 (s.rd (LAT.OUT dc)).toNat)
  let cyc := (List.range n).map fun k => s.f (TRP.CELL_STAT.CBC_CYCLES (s.f CNV.BUCK_CELLS.PK_FIRST + k))
  if !again then
    if s.f CNV.BUCK_STAT.HICCUP = 0 then
      let lim := s.limitedNow n u cyc
      let m := if lim then s.hid.cnv.limited + 1 else 0
      if lim then inc CNV.BUCK_STAT.LIMITED
      if lim ∧ s.f CNV.HICCUP.HICCUP_N ≤ m then
        enterHiccup g u
        updCnv fun c => { c with limited := 0 }
      else updCnv fun c => { c with limited := m }
      if (← rf CNV.BUCK_STAT.HICCUP) = 0 then trimStep n
      diodeStep u
    updCnv fun c => { c with cyc := cyc, seen := s.hid.mea.total }
    chargeMode
    batteryWatch
  let s ← getS
  if s.f CNV.BUCK_STAT.HICCUP = 1 then
    postOff n
    updCnv fun c => { c with posted := some [], hiccup := true }
  else
    let pk := s.f CNV.BUCK_CELLS.PK_FIRST
    let zc := s.f CNV.BUCK_CELLS.ZCD_FIRST
    let zthr := if s.f CNV.BUCK_STAT.DE_ACTIVE = 1 then s.f CNV.BUCK_PK.DE_THR else 1023
    postPhases n
    let l := (List.range n).flatMap fun k => [(pk + k, s.peakThr u (if n ≤ 4 then s.trim k else 0)), (zc + k, zthr)]
    updCnv fun c => { c with hiccup := false, posted := some l }

/-- A commit of the buck group that is not taken takes its thresholds with it (R347). -/
def dropPosted (n : Nat) : M Unit := do
  let s ← getS
  if s.buckRg n ∧ s.f (LAT.RG_CFG.COMMIT n) = 0 ∧ !(s.rgGroup n).any (fun g => s.hid.pls.committed.contains g) then
    updCnv fun c => { c with posted := none }

/-- RATE_GROUP_EVALUATION (R190 to R204, R346): it waited `wait` Lattice clocks for the engine (R191). -/
def rateGroupEvaluation (n wait : Nat) : M Unit := do
  match ← beginEval n with
  | none => pure ()
  | some g =>
    wf LAT.LOAD.WAIT_MAX (max (← rf LAT.LOAD.WAIT_MAX) (min wait 0xFFFF))
    let outs ← evalCells n ((← getS).rg n).inputs
    postTemplates g outs
    if (← getS).buckRg n then sequencer g outs false
    endEval n g
    dropPosted n

/-- LAT_REEVALUATION in HOLD mode (R205). -/
def latReevaluation (n : Nat) (abandoned : Bool) : M Unit := do
  match ← beginReeval n abandoned with
  | none => pure ()
  | some g =>
    let outs ← evalCells n ((← getS).rg n).inputs
    postTemplates g outs
    if (← getS).buckRg n then sequencer g outs true

/-- Whether the next reload of a timebase applies a commit of the buck group. -/
def State.buckPending (s : State) (t : Nat) : Bool :=
  s.f CNV.BUCK_CFG.EN == 1 && s.active s.buckGroup &&
    (s.chans s.buckGroup).any fun c => s.chTb c == t && (s.chan c).rel.isSome

/-- After a reload that applied a commit of the sequencer: its thresholds cross, the firing order advances (R347,
R349). -/
def buckReloaded : M Unit := do
  let s ← getS
  match s.hid.cnv.posted with
  | some l =>
    let n := s.f CNV.BUCK_CFG.PHASES + 1
    updCnv fun c => { c with posted := none, crossing := if s.hid.cnv.hiccup then c.crossing else l }
    if !s.hid.cnv.hiccup ∧ 5 ≤ n then wf CNV.BUCK_STAT.ROT ((s.f CNV.BUCK_STAT.ROT + 1) % n)
  | none => pure ()

/-- RELOAD with what follows for the buck (R102, R347). -/
def reloadAll (t : Nat) : M Unit := do
  let due := (← getS).buckPending t
  reload t
  if due then buckReloaded

/-- THRESHOLD_UPDATE (R347, R351). -/
def thresholdUpdate : M Unit := do
  let l := (← hidden).cnv.crossing
  updCnv fun c => { c with crossing := [] }
  l.forM fun x => do
    if x.1 < 72 then watchCharge (setThreshold x.1 x.2 (← rf (TRP.THR.THR_LO x.1)))

/-- HICCUP_END (R353): after OFF_MS the cells of the rate group restart. -/
def hiccupEnd : M Unit := do
  let s ← getS
  if s.f CNV.BUCK_STAT.HICCUP = 1 ∧ s.hid.cnv.hiccupAt + s.f CNV.HICCUP.OFF_MS * 1000 ≤ s.hid.now then
    latRestart s.buckGroup
    wf CNV.BUCK_STAT.HICCUP 0
    updCnv fun c => { c with limited := 0 }

/-- CNV.VSET was written (R354). -/
def vsetWritten : M Unit := do
  let s ← getS
  let c := s.f CNV.VSCALE.VCELL
  let k := s.f CNV.VSCALE.VSCALE
  if c < 192 then
    if s.f CNV.VSET.RATE ≠ 0 then
      let w := s.winLen (s.grpTb (s.f (LAT.RG_CFG.GROUP (s.dB c 0))))
      wf (LAT.RAMP.RATE c) (min 0x7FFFFFFF (s.f CNV.VSET.RATE * k * 64 * w / 40000000))
    wr (LAT.TARGET c) (BitVec.ofNat 32 (min 0x7FFFFFFF (s.f CNV.VSET.VOUT * k * 64 / 100)))
    newTarget c (s.rd (LAT.TARGET c))

/-! ## Sources (R357, R358) -/

/-- The class of an external source by its code. -/
def State.extClass (s : State) (code : Nat) : Option Nat :=
  [1, 2, 3].find? fun t =>
    decide (s.f (LVP.SRC_LIM.CODE_LO t) ≤ code / 256) && decide (code / 256 ≤ s.f (LVP.SRC_LIM.CODE_HI t))

/-- The timer's end: TIMER_EXP and ELAPSED clear (R362). -/
def clearTimer : M Unit := do
  wf LVP.STATUS.TIMER_EXP 0
  wf LVP.TIMER_STAT.ELAPSED 0
  updLvp fun l => { l with timer := 0 }

/-- The input cell's target (R358). -/
def inputLimit : M Unit := do
  let s ← getS
  if s.f LVP.CFG.EN = 1 then
    let c := s.f LVP.CFG.INCELL
    if s.f LVP.CFG.IN_MODE = 1 then setTarget c (sx32 (Config.inputTarget true (s.f LVP.VIN_REG.VIN_REG)).toNat)
    else if s.f LVP.STATUS.SRC = 0 then setTarget c 0
    else setTarget c (sx32 (Config.inputTarget false (s.f (LVP.SRC_LIM.I_IN_LIM (s.f LVP.STATUS.SRC_CLASS)))).toNat)

/-- SOURCE_CLASSIFY (R357), on each tick. -/
def sourceClassify : M Unit := do
  let s ← getS
  let low := decide (Config.bus48Mv ((s.usable (s.f LVP.CFG.BUS48_SLOT) 0).getD 0) < 36000)
  let ticks := if low then min 10 (s.hid.lvp.low48 + 1) else 0
  updLvp fun l => { l with low48 := ticks }
  let r := s.f LVP.SLOTS.SRC_SLOT
  let code := (s.usable r 0).getD 0
  let now : Option (Nat × Nat) :=
    if s.gst llcGroup = .running then some (1, 0) else if ticks = 10 then some (0, 0)
    else (s.extClass code).map fun t => (2, t)
  match now with
  | none =>
    updLvp fun l => { l with candN := 0 }
    occur 152 0 code
  | some x =>
    let n := if s.hid.lvp.cand = x then min 3 (s.hid.lvp.candN + 1) else 1
    updLvp fun l => { l with cand := x, candN := n }
    if 3 ≤ n ∧ (s.f LVP.STATUS.SRC ≠ x.1 ∨ s.f LVP.STATUS.SRC_CLASS ≠ x.2) then
      wf LVP.STATUS.SRC x.1
      wf LVP.STATUS.SRC_CLASS x.2
      wf LVP.INT_STAT.SRC_CHANGE 1
      clearTimer
      lvpEvent 0 x.1
  inputLimit

/-! ## The charger (R359 to R362) -/

/-- Whether the power path owns the targets of VCELL, ICELL and INCELL (R360). -/
def State.lvpOwns (s : State) (c : Nat) : Bool :=
  s.f LVP.STATUS.CSTATE != 0 &&
    (c == s.f CNV.VSCALE.VCELL || c == s.f LVP.CFG.ICELL || c == s.f LVP.CFG.INCELL)

/-- Charging at V_CV and the charge current in force. -/
def chargeTargets : M Unit := do
  let s ← getS
  setTarget (s.f CNV.VSCALE.VCELL) (s.voltTarget (s.f LVP.VLIM.V_CV))
  setTarget (s.f LVP.CFG.ICELL) s.chargeCurrent

/-- The charge is done (R361). -/
def chargeDone : M Unit := do
  let s ← getS
  setTarget (s.f CNV.VSCALE.VCELL) (s.voltTarget (s.f LVP.VLIM1.V_BUS))
  setTarget (s.f LVP.CFG.ICELL) s.chargeCurrent
  wf LVP.STATUS.CSTATE 4
  wf LVP.INT_STAT.CHG_DONE 1

/-- CHARGER_REST (R361): PULSE_S seconds after CHARGE_START or the last rest. -/
def chargerRest : M Unit := do
  let s ← getS
  let st := s.f LVP.STATUS.CSTATE
  if (st = 1 ∨ st = 2 ∨ st = 4) ∧ s.hid.lvp.stageAt + s.f LVP.PULSE.PULSE_S * 1000 ≤ s.ms then
    setTarget (s.f LVP.CFG.ICELL) 0
    updLvp fun l => { l with restFrom := st, ocvs := [], stageAt := s.ms }
    wf LVP.STATUS.CSTATE 3

/-- REST_END (R361): after REST_MS, in 10 ms, OCV decides. -/
def restEnd : M Unit := do
  let s ← getS
  if s.f LVP.STATUS.CSTATE = 3 ∧ s.hid.lvp.stageAt + s.f LVP.PULSE.REST_MS * 10 ≤ s.ms then
    let l := if s.hid.lvp.ocvs.isEmpty then [s.battMv] else s.hid.lvp.ocvs
    let ocv := l.sum / l.length
    wf LVP.STATUS.OCV (min ocv 0xFFFF)
    updLvp fun x => { x with ocvs := [], stageAt := s.ms }
    if s.hid.lvp.restFrom = 4 then
      if ocv < s.f LVP.VLIM1.V_RECHG then
        wf LVP.STATUS.CSTATE 1
        chargeTargets
      else
        wf LVP.STATUS.CSTATE 4
        setTarget (s.f LVP.CFG.ICELL) s.chargeCurrent
    else if s.f LVP.VLIM.V_FULL ≤ ocv then chargeDone
    else
      wf LVP.STATUS.CSTATE s.hid.lvp.restFrom
      chargeTargets

/-- CV_TERMINATION (R361): the current has stayed below I_TERM for 60 s. -/
def cvTermination : M Unit := do
  let s ← getS
  if s.f LVP.STATUS.CSTATE = 2 ∧ 60000 ≤ s.hid.lvp.term then chargeDone

/-- FOLDBACK (R362): the temperature code against FOLD_ON and FOLD_OFF. -/
def foldback : M Unit := do
  let s ← getS
  let r := s.f LVP.SLOTS.TBATT_SLOT
  let code := (s.usable r 0).getD 0
  if s.f LVP.FOLD.FOLD_ON < code then wf LVP.STATUS.FOLDBACK 1
  else if code < s.f LVP.FOLD.FOLD_OFF then wf LVP.STATUS.FOLDBACK 0
  let st := s.f LVP.STATUS.CSTATE
  if st = 1 ∨ st = 2 ∨ st = 4 then setTarget (s.f LVP.CFG.ICELL) (← getS).chargeCurrent

/-- LVP_TIMER (R362): the safety timer has reached LIMIT minutes, or the largest count it can show. -/
def timerExpired : M Unit := do
  let s ← getS
  let st := s.f LVP.STATUS.CSTATE
  if (st = 1 ∨ st = 2 ∨ st = 3) ∧ min 0xFFFF (s.f LVP.TIMER.LIMIT * 60) ≤ s.f LVP.TIMER_STAT.ELAPSED then
    setTarget (s.f LVP.CFG.ICELL) 0
    wf LVP.STATUS.CSTATE 5
    wf LVP.STATUS.TIMER_EXP 1
    inc LVP.TIMER_STAT.EXPIRIES
    wf LVP.INT_STAT.TIMER 1
    occur 150 0 0

/-- Whether the battery current lies below I_TERM (R361). -/
def State.currentLow (s : State) : Bool :=
  (s.usable (s.f LVP.SLOTS.IBATT_SLOT) 0).any fun c =>
    decide (((c : Int) - 0x8000) * sx16 (s.f LVP.SCALE.I_GAIN) < (s.f LVP.CHG.I_TERM * 100000 : Nat))

/-- What a management tick does for the power path: the safety timer counts, a rest samples the battery, a low current in
CV is timed (R361, R362). -/
def lvpTick : M Unit := do
  let s ← getS
  let st := s.f LVP.STATUS.CSTATE
  updLvp fun l => { l with term := if decide (st = 2) && s.currentLow then min 60000 (l.term + 1) else 0 }
  if st = 1 ∨ st = 2 ∨ st = 3 then
    let n := s.hid.lvp.timer + (if s.f LVP.STATUS.FOLDBACK = 1 then 1 else 2)
    updLvp fun l => { l with timer := n % 2000 }
    if 2000 ≤ n then inc LVP.TIMER_STAT.ELAPSED
  if st = 3 then updLvp fun l => { l with ocvs := (s.battMv :: l.ocvs).take 200 }
  inputLimit

/-! ## LVP.CMD (R356, R359, R362, R364) -/

/-- The refusal of an LVP.CMD: address and reason. -/
def State.lvpCmdRefusal (s : State) (cmd : Nat) : Option (Nat × Nat) :=
  match cmd with
  | 1 =>
    if s.f LVP.CFG.EN = 0 ∨ s.gst s.buckGroup ≠ .running ∨ s.f CNV.BUCK_CFG.MODE = 1 ∨ s.f LVP.STATUS.BSW = 0 ∨
        s.f LVP.STATUS.SRC = 0 then some (LVP.CMD, 0x0F02)
    else if s.f LVP.STATUS.TIMER_EXP = 1 then some (LVP.CMD, 0x0F03) else none
  | 3 => if 500 < (s.busMv - s.battMv).natAbs then some (LVP.CMD, 0x0F04) else none
  | 5 =>
    if groups.any s.active then some (LVP.CMD, 0x0F05)
    else if s.f SYS.STATUS.DEV_STATE ≠ 1 then some (SYS.STATUS, 0x0107) else none
  | 6 => if s.f SYS.STATUS.DEV_STATE ≠ 5 then some (SYS.STATUS, 0x0107) else none
  | _ => none

/-- CHARGE_START, accepted (R359). -/
def chargeStart : M Unit := do
  let s ← getS
  wf LVP.STATUS.CSTATE 1
  updLvp fun l => { l with stageAt := s.ms, term := 0 }
  chargeTargets

/-- CHARGE_STOP (R359). -/
def chargeStop : M Unit := do
  let s ← getS
  wf LVP.STATUS.CSTATE 0
  setTarget (s.f CNV.VSCALE.VCELL) (s.voltTarget (s.f LVP.VLIM1.V_BUS))

/-- LONG_PRESS (R365): SVC_BTN has been low for `ms` milliseconds without a break after its debounce. -/
def longPress (ms : Nat) : M Unit := do
  let s ← getS
  if s.f LVP.BTN.LONG_S * 1000 ≤ ms then
    let busy := groups.any fun g => s.active g && g != llcGroup && g != s.buckGroup
    wf LVP.INT_STAT.LONG_PRESS 1
    if !busy then
      let _ ← disableGroup llcGroup false
      let _ ← disableGroup s.buckGroup false
      setBsw false
      updLvp fun l => { l with longOpen := some s.ms }
    lvpEvent 1 (b2n !busy)

end Sys2Proof.Machine
end

