-- ==== Sys2Proof/Machine/Memory.lean ====
section
/-! DEFINITION. The memories: SRAM patrol and repair, MRAM pages with their codes, the merge buffer, scrub, retirement
and region wipes (R424 to R438). Pages whose place the spec does not give are not tracked (DESIGN CHOICE, log entry 21). -/

namespace Sys2Proof.Machine

/-! ## Pages and regions (R427 to R430) -/

/-- First logical page of the regions, and the end (R428). -/
def regionBounds : List Nat := [0, 128, 240, 256, 512, 2560, 3072, 6144, 8192, 32768]

/-- The region of a logical page. -/
def regionOf (p : Nat) : Nat := ((List.range 9).filter fun r => decide (regionBounds.getD r 0 ≤ p)).length - 1

/-- The number of pages of a region. -/
def regionSize (r : Nat) : Nat := regionBounds.getD (r + 1) 0 - regionBounds.getD r 0

/-- The strength a page is recorded with: its region's default, unless it was written with another (R430). -/
def State.pageT (s : State) (p : Nat) : Nat := sget (bitsOf (regionReset (regionOf p)) 31 26) s.hid.mem.str p

/-- The physical page of a logical page (R436). -/
def State.physPage (s : State) (p : Nat) : Nat := sget p s.hid.mem.retired p

/-- Writes of a physical page: its own, and the wipes of its region where no retirement took its place (R437). -/
def State.pageWrites (s : State) (q : Nat) : Nat :=
  sget 0 s.hid.mem.writes q +
    (if q < 32768 ∧ (sget? s.hid.mem.retired q).isNone then sget 0 s.hid.mem.wipes (regionOf q) else 0)

/-- DETAIL of an MRAM page (R432). -/
def pageDetail (p : Nat) : Nat := 0x80000000 + p * 1024

/-- Update the memories' record. -/
def updMem (f : MemSt → MemSt) : M Unit := hid fun h => { h with mem := f h.mem }

/-- Wear of a physical page (R437): the highest count is shown, and the warning counts once per page. -/
def wearCheck (q : Nat) : M Unit := do
  let s ← getS
  let n := s.pageWrites q
  if (s.rd MEM.WEAR).toNat < n then
    wr MEM.WEAR (BitVec.ofNat 32 (min n 0xFFFFFFFF))
    wf MEM.WEAR_PAGE.PAGE q
  if s.f MEM.WEAR_CFG.WEAR_WARN * 1000000 ≤ n ∧ !s.hid.mem.warned.contains q then
    updMem fun m => { m with warned := q :: m.warned }
    occur 195 0 (pageDetail q)

/-- A page is encoded with its region's T and programmed (R429, R430, R437). -/
def programPage (p : Nat) : M Unit := do
  let s ← getS
  let r := regionOf p
  let q := s.physPage p
  updMem fun m => { m with
    str := swrite (fun _ => bitsOf (regionReset r) 31 26) m.str p (s.f (MEM.REGION.T r))
    bad := m.bad.erase p
    poison := m.poison.erase p
    writes := mupd 0 m.writes q (· + 1) }
  wearCheck q

/-! ## The error table (R435) -/

/-- The rank of an entry: an uncorrectable page is above every corrected one, then MAX_BITS. -/
def State.errRank (s : State) (e : Nat) : Nat := s.f (MEM.ERR1.UNCORR e) * 256 + s.f (MEM.ERR0.MAX_BITS e)

/-- The entry of a page, else an empty one, else the lowest one if the page ranks higher. -/
def State.errEntry (s : State) (p rank : Nat) : Option Nat :=
  let es := List.range 64
  match es.find? fun e => s.f (MEM.ERR0.PAGE e) == p with
  | some e => some e
  | none =>
    match es.find? fun e => s.f (MEM.ERR0.PAGE e) == 0xFFFF with
    | some e => some e
    | none =>
      let low := es.foldl (fun b e => if s.errRank e < s.errRank b then e else b) 0
      if s.errRank low < rank then some low else none

/-- A page with corrections or found uncorrectable enters the error table. -/
def noteError (p bits : Nat) (uncorr : Bool) : M Unit := do
  let s ← getS
  match s.errEntry p (b2n uncorr * 256 + bits) with
  | none => pure ()
  | some e =>
    if s.f (MEM.ERR0.PAGE e) ≠ p then
      wr (MEM.ERR0 e) (BitVec.ofNat 32 (p * 65536))
      wr (MEM.ERR1 e) 0
    let s ← getS
    wf (MEM.ERR0.MAX_BITS e) (max bits (s.f (MEM.ERR0.MAX_BITS e)))
    if !uncorr then inc (MEM.ERR0.COUNT e)
    if uncorr then wf (MEM.ERR1.UNCORR e) 1
    wf (MEM.ERR1.TIME e) (min s.ms (2 ^ 30 - 1))

/-! ## Reads (R429, R431, R432) -/

/-- An uncorrectable page read (R432). In a mirrored region the page is rewritten from the other page of its record if
that decodes. -/
def uncorrectable (p : Nat) (mirrorOk : Bool) : M Unit := do
  let s ← getS
  inc MEM.MRAM.UNCORR
  occur 192 0 (pageDetail p)
  noteError p 0 true
  if s.f (MEM.REGION.MIRRORED (regionOf p)) = 1 ∧ mirrorOk then programPage p
  else updMem fun m => { m with bad := if m.bad.contains p then m.bad else p :: m.bad }

/-- What the read of one page adds to a scrub's summary. -/
structure ScrubSum where
  corrected : Nat := 0
  dirty : Nat := 0
  inner : Nat := 0
  maxPage : Nat := 0xFFFFFFFF
  maxBits : Nat := 0
  refreshed : Nat := 0
  uncorr : Nat := 0
  first : Nat := 0xFFFFFFFF
  reenc : Nat := 0
  deriving DecidableEq, Repr

/-- The scrub reads a page that has errors (R429, R431, R435). -/
def scrubPage (x : PageFind) (a : ScrubSum) : M ScrubSum := do
  let s ← getS
  let t := s.pageT x.page
  incBy MEM.MRAM1.INNER_CORR x.inner
  let a := { a with inner := a.inner + x.inner }
  if t < x.outer ∨ s.hid.mem.poison.contains x.page then
    uncorrectable x.page x.mirrorOk
    return { a with dirty := a.dirty + 1, uncorr := a.uncorr + 1, first := if a.uncorr = 0 then x.page else min a.first x.page }
  else if x.outer = 0 then
    return { a with dirty := a.dirty + (if x.inner = 0 then 0 else 1) }
  else
    inc MEM.MRAM.OUTER_PAGES
    noteError x.page x.outer false
    let a := { a with
      dirty := a.dirty + 1
      corrected := a.corrected + 1
      maxPage := if a.maxBits < x.outer then x.page else a.maxPage
      maxBits := max a.maxBits x.outer }
    if s.f MEM.CFG.REWRITE_AT * t ≤ x.outer * 100 then
      inc MEM.MRAM.REFRESHED
      occur 193 0 (pageDetail x.page)
      programPage x.page
      return { a with refreshed := a.refreshed + 1 }
    else return a

/-- Fold a list through an operation. -/
def foldM' {α β : Type} (f : α → β → M β) : List α → β → M β
  | [], b => return b
  | x :: xs, b => do foldM' f xs (← f x b)

/-- The pages of a range whose recorded strength differs from their region's T. -/
def State.otherT (s : State) (first count : Nat) : List Nat :=
  (List.range' first count).filter fun p => s.pageT p != s.f (MEM.REGION.T (regionOf p))

/-- The summary of a scrub (R435). -/
def ScrubSum.bytes (a : ScrubSum) (count elapsed : Nat) : List Byte :=
  leBytes 4 count ++ leBytes 4 (count - a.dirty) ++ leBytes 4 a.corrected ++ leBytes 4 a.inner ++ leBytes 4 a.maxPage ++
    by1 [min a.maxBits 255, 0] ++ leBytes 2 a.refreshed ++ leBytes 4 a.uncorr ++ leBytes 4 a.first ++
    leBytes 4 a.reenc ++ leBytes 4 elapsed

/-- The pages a scrub finds with errors, in the order read: those of `finds` in its range, each once, and those that read as
uncorrectable since they are marked POISON (R432). -/
def State.scrubFinds (s : State) (x : Scrub) (finds : List PageFind) : List PageFind :=
  let inRange (p : Nat) : Bool := decide (x.first ≤ p) && decide (p < x.first + x.count)
  let told := finds.foldr (fun f l => f :: l.filter fun y => y.page != f.page) []
  let marked := s.hid.mem.poison.filter fun p => told.all fun f => f.page != p
  let all : List PageFind := told ++ marked.map fun p => { page := p, inner := 0, outer := 0, mirrorOk := false }
  (all.filter fun f => inRange f.page).foldr (List.orderedInsert fun f g => f.page ≤ g.page) []

/-- A millisecond of a scrub: 64 pages, 32 while a management Chord is CARRIER (R435), half of that while the case is hot (R477). -/
def scrubTick : M Unit := do
  let s ← getS
  let full := if s.carried 1 || s.carried 2 then 32 else 64
  let n := if s.f LCY.THERM.STEP = 0 then full else full / 2
  updMem fun m => { m with scrub := m.scrub.map fun x => { x with read := min x.count (x.read + n) } }

/-- A scrub that has read every page ends (R435): `finds` are the pages of its range that showed errors. -/
def scrubEnd (finds : List PageFind) : M Unit := do
  let s ← getS
  match s.hid.mem.scrub.filter fun x => x.read == x.count with
  | none => pure ()
  | some x =>
    let other := s.otherT x.first x.count
    let a ← foldM' scrubPage (s.scrubFinds x finds) {}
    let s ← getS
    let redo := other.filter fun p => !s.hid.mem.bad.contains p && s.pageT p != s.f (MEM.REGION.T (regionOf p))
    redo.forM programPage
    let s ← getS
    updMem fun m => { m with scrub := none }
    wf MEM.STATUS.SCRUB_ACTIVE 0
    complete 0xA0 0 stOk 0 0 ({ a with reenc := redo.length }.bytes x.count (s.ms - x.since))

/-! ## Merge buffer (R433, R434) -/

/-- MERGE_USED follows the slots. -/
def showMerge : M Unit := do wf MEM.STATUS.MERGE_USED (← getS).hid.mem.merge.length

/-- Write a slot back. -/
def writeBack (p : Nat) : M Unit := do
  let s ← getS
  if s.hid.mem.merge.any fun m => m.page == p then
    updMem fun m => { m with merge := m.merge.filter fun x => x.page != p }
    showMerge
    programPage p

/-- The slot whose timer ends first (R434): 1 ms after its last write or 2 ms after its first unwritten change. -/
def State.mergeDue (s : State) : Option MergeSlot :=
  s.hid.mem.merge.foldl (fun b x => match b with
    | none => some x
    | some y => if min (x.last + 1000) (x.first + 2000) < min (y.last + 1000) (y.first + 2000) then some x else b) none

/-- The slot whose last write is oldest. -/
def State.mergeOldest (s : State) : Option MergeSlot :=
  s.hid.mem.merge.foldl (fun b x => match b with
    | none => some x
    | some y => if x.last < y.last then some x else b) none

/-- A slot is written back on its timer (R434). -/
def mergeWriteBack : M Unit := do
  let s ← getS
  match s.mergeDue with
  | some x => if min (x.last + 1000) (x.first + 2000) ≤ s.hid.now then writeBack x.page
  | none => pure ()

/-- A narrow write of a page that held `old` (R433); the answer is false where the read into the slot is uncorrectable. -/
def narrowWrite (p : Nat) (old : List Byte) : M Bool := do
  let s ← getS
  let now := s.hid.now
  if s.hid.mem.merge.any fun m => m.page == p then
    updMem fun m => { m with merge := m.merge.map fun x => if x.page = p then { x with last := now } else x }
    return true
  if s.hid.mem.bad.contains p ∨ s.hid.mem.poison.contains p then
    uncorrectable p false
    return false
  if 8 ≤ s.hid.mem.merge.length then
    match s.mergeOldest with
    | some x => writeBack x.page
    | none => pure ()
  updMem fun m => { m with merge := m.merge ++ [⟨p, now, now, old⟩] }
  showMerge
  return true

/-- Every slot is written back before a device reset (R434). -/
def flushMerge : M Unit := do
  (← getS).hid.mem.merge.forM fun x => writeBack x.page

/-- The MRAM pages of a map table's bytes `o` to `o + n` (R428): the tables 0x10 to 0x13 in order, 128 pages each. -/
def mapPages (id o n : Nat) : List Nat :=
  if n = 0 then [] else
  (List.range' (o / 1024) ((o + n - 1) / 1024 + 1 - o / 1024)).map fun i => 2560 + (id - 0x10) * 128 + i

/-- Whether bytes `o` to `o + n` cover page `i` of their table whole. -/
def coversPage (o n i : Nat) : Bool := decide (o ≤ i * 1024) && decide ((i + 1) * 1024 ≤ o + n)

/-- The first page of a map table's bytes that must be read for a narrow write and is uncorrectable (R433). -/
def State.badMapPage (s : State) (id o n : Nat) : Option Nat :=
  (mapPages id o n).find? fun p =>
    !coversPage o n ((p - 2560) % 128) && !(s.hid.mem.merge.any fun m => m.page == p) &&
      (s.hid.mem.bad.contains p || s.hid.mem.poison.contains p)

/-- The table and the byte offset in it that page `p` of region MAPS holds. -/
def mapPlace (p : Nat) : Nat × Nat := (0x10 + (p - 2560) / 128, 1024 * ((p - 2560) % 128))

/-- Bytes of a map table are written to MRAM (R428, R433); `s0` is the state before them. -/
def writeMapPages (s0 : State) (id o n : Nat) : M Unit :=
  (mapPages id o n).forM fun p => do
    if coversPage o n ((p - 2560) % 128) then
      updMem fun m => { m with merge := m.merge.filter fun x => x.page != p }
      showMerge
      programPage p
    else
      let _ ← narrowWrite p (s0.tbs (mapPlace p).1 (mapPlace p).2 1024)

/-- A loss of supply or a reset without notice loses what the slots hold (R434): their pages keep what was programmed last. -/
def loseMerge : M Unit := do
  (← getS).hid.mem.merge.forM fun x => wtab (mapPlace x.page).1 (mapPlace x.page).2 x.old

/-! ## SRAM (R424 to R426) -/

/-- DETAIL of an SRAM word (R432). -/
def wordDetail (a : Nat) : Nat := 0x40000000 + a

/-- A row enters the repair list (R425). -/
def listRow (row : Nat) : M Unit :=
  updMem fun m => { m with repair := if m.repair.contains row then m.repair else m.repair ++ [row] }

/-- One word with an error that the patrol finds: byte address, and whether the error is double (R424, R425, R439). -/
def patrolWord (a : Nat) (double : Bool) : M Unit := do
  if double then
    inc MEM.SRAM.UNCORR
    if ← occurrence 190 0 (wordDetail a) then listRow (a / 128)
  else
    inc MEM.SRAM.CORR
    let s ← getS
    if !s.hid.mem.words.contains (a / 8) then
      updMem fun m => { m with words := (a / 8) :: m.words }
      if s.hid.mem.words.any fun w => w / 16 == a / 128 then listRow (a / 128)

/-- A row is replaced by a spare row of its array; the answer is false without a free one (R425, R426). -/
def replaceRow (row : Nat) : M Bool := do
  let s ← getS
  let arr := row / 4096
  let n := (s.hid.mem.rowsUsed.filter fun x => x.1 / 8 == arr).length
  if n < 8 then
    updMem fun m => { m with rowsUsed := sput m.rowsUsed (8 * arr + n) row }
    let s ← getS
    wf MEM.SRAM.ROWS_FREE (256 - s.hid.mem.rowsUsed.length)
    return true
  return false

/-- The wipe of SRAM (R425, R426): the repair list is applied, then rows that fail the read-back are replaced. The
answer tells whether every row is in order. -/
def wipeSram (fails : List Nat) : M Bool := do
  let rows := (← getS).hid.mem.repair
  updMem fun m => { m with repair := [], words := [] }
  rows.forM fun r => do
    if !(← replaceRow r) then
      updMem fun m => { m with repair := m.repair ++ [r] }
      occur 191 0 (wordDetail (r * 128))
  let bad ← foldM' (fun r (b : Nat) => do
    if ← replaceRow r then return b
    occur 191 0 (wordDetail (r * 128))
    return b + 1) fails 0
  wf MEM.STATUS.WIPE_OK (b2n (bad == 0))
  return bad == 0

/-! ## Retirement (R436) -/

/-- Why MEM_RETIRE is refused. -/
def State.retireRefusal (s : State) (p : Nat) : Option Nat :=
  if 32767 < p ∨ p < 128 then some 0x1302
  else if s.f MEM.STATUS.SPARE_FREE = 0 then some 0x1303
  else match s.hid.mem.scrub with
    | some x => if x.first ≤ p ∧ p < x.first + x.count then some 0x1301 else none
    | none => none

/-- A page is retired; the answer tells whether its content was correctable. -/
def retirePage (p : Nat) : M Bool := do
  writeBack p
  let s ← getS
  let bad := s.hid.mem.bad.contains p || s.hid.mem.poison.contains p
  let old := s.physPage p
  let spare := 32768 + s.hid.mem.used
  updMem fun m => { m with
    writes := swrite (fun _ => 0) m.writes old (s.pageWrites old)
    retired := sput m.retired p spare
    used := m.used + 1 }
  if bad then
    inc MEM.MRAM.UNCORR
    occur 192 0 (pageDetail p)
    noteError p 0 true
  programPage p
  if bad then updMem fun m => { m with poison := p :: m.poison }
  wf MEM.STATUS.SPARE_FREE (s.f MEM.STATUS.SPARE_FREE - 1)
  inc MEM.STATUS.RETIRED
  match (List.range 64).find? fun e => s.f (MEM.ERR0.PAGE e) == p with
  | some e => wf (MEM.ERR1.RETIRED e) 1
  | none => pure ()
  let s ← getS
  if s.f MEM.STATUS.SPARE_FREE = s.f MEM.CFG.SPARE_WARN then occur 194 0 (pageDetail p)
  return !bad

/-! ## Region wipes (R438) -/

/-- A region is wiped: every page programmed with zero data and the region's T. -/
def wipeRegion (r : Nat) : M Unit := do
  let s ← getS
  let lo := regionBounds.getD r 0
  let hi := regionBounds.getD (r + 1) 0
  let inR (p : Nat) : Bool := decide (lo ≤ p) && decide (p < hi)
  let t := s.f (MEM.REGION.T r)
  let others := s.hid.mem.str.filter fun x => !inR x.1
  let dflt := bitsOf (regionReset r) 31 26
  let str := if t = dflt then others
    else (List.range' lo (hi - lo)).foldl (fun l p => sput l p t) others
  let moved := s.hid.mem.retired.filter fun x => inR x.1
  updMem fun m => { m with
    str := str
    bad := m.bad.filter fun p => !inR p
    poison := m.poison.filter fun p => !inR p
    merge := m.merge.filter fun x => !inR x.page
    wipes := mupd 0 m.wipes r (· + 1)
    writes := moved.foldl (fun l x => mupd 0 l x.2 (· + 1)) m.writes }
  showMerge
  let s ← getS
  let first := (List.range' lo (hi - lo)).find? fun p => (sget? s.hid.mem.retired p).isNone
  let listed := (s.hid.mem.writes.map Prod.fst).filter fun q => inR q || moved.any fun x => x.2 == q
  (first.toList ++ listed).forM wearCheck

end Sys2Proof.Machine
end

