-- ==== Sys2Proof/Machine/SafetyFn.lean ====
section
/-! DEFINITION. The safety controller (chapter 16): diagnostics, safe inputs and test pulses, safe messages, the
triggers of the safety functions, safe park (R370 to R396). DESIGN CHOICE and DEDUCED points: log entry 16. -/

namespace Sys2Proof.Machine

/-! ## Triggers from registers and messages (R374, R375, R378, R379, R394) -/

/-- The bit of REQ that asks for a function (R390). -/
def reqBit : Nat → Option Nat
  | 1 => some 0
  | 2 => some 1
  | 3 => some 2
  | 5 => some 3
  | 6 => some 4
  | 7 => some 5
  | _ => none

/-- Whether an input of SIN_MASK demands. -/
def State.inputAsks (s : State) (f : Nat) : Bool :=
  (bitsSet (s.f (SAF.FUNC_CFG.SIN_MASK f)) 8).any fun i => s.f (SAF.SIN.EN i) == 1 && s.f (SAF.SIN.DEMAND i) == 1

/-- Whether the last accepted message asks: by its REQ bit where MSG is set, and for STL by its limit. -/
def State.messageAsks (s : State) (f : Nat) : Bool :=
  (s.f (SAF.FUNC_CFG.MSG f) == 1 && (match reqBit f with
    | some b => bit s.hid.saf.req b
    | none => false)) || (f == 3 && s.hid.saf.stlLim != 0xFFFF)

/-- Whether the host asks. -/
def State.hostAsks (s : State) (f : Nat) : Bool :=
  match f with
  | 1 => s.f SAF.HOST_REQ.STO == 1
  | 2 => s.f SAF.HOST_REQ.SS1 == 1
  | 7 => s.f SAF.HOST_REQ.SCS == 1
  | _ => false

/-- One trigger of a function follows what asks for it; while it acts it covers every group FUNC_GRP names. -/
def followTrigger (f src : Nat) (asks : Bool) : M Unit := do
  let s ← getS
  if asks && s.f (SAF.FUNC_CFG.EN f) == 1 then
    if !bit (s.func f).trig src || (s.funcMask f).any fun g => !(s.func f).grps.contains g then
      trigger f src 0 (s.funcMask f) 0x8035
  else withdraw f src 0

/-- A function's input, message and host triggers follow what asks for them; SLS is active while it is enabled. -/
def syncFunc (f : Nat) : M Unit := do
  followTrigger f 0 ((← getS).inputAsks f)
  followTrigger f 1 ((← getS).messageAsks f)
  followTrigger f 2 ((← getS).hostAsks f)
  let s ← getS
  if f = 4 then
    if s.f (SAF.FUNC_CFG.EN 4) = 1 then
      if !(s.func 4).by_.contains 0x40000 then trigger 4 3 0x40000 (s.funcMask 4) 0x8035
    else if s.funcActive 4 then releaseFunc 4

/-- Every function follows what asks for it, the lowest first. -/
def syncFuncs : M Unit := [1, 2, 3, 4, 5, 6, 7].forM syncFunc

/-! ## Diagnostics (R371, R372) -/

/-- An occurrence of SAF_DIAG; while it is lasting DIAG_OK is 0. -/
def safDiag (detail : Nat) : M Unit := do
  if ← occurrence 160 0 detail then wf SAF.STATUS.DIAG_OK 0

/-- The output cells apply every group's latched safe pattern (R31, R32, R372); groups ARMED, RUNNING or TRIPPED
become SAFE. -/
def holdSafe (cause : Nat) : M Unit := groups.forM fun g => forceAct g 8 cause

/-- The output cells hold every group's latched pattern until it is armed anew (R31, R32). -/
def holdLink (cause : Nat) : M Unit := do
  let s ← getS
  groups.forM fun g => do
    if s.gst g ≠ .off then updGrp g fun r => { r with linkHeld := true }
  showHeld
  holdSafe cause

/-- No heartbeat toggle for 5 µs (R372): as after a link loss. -/
def heartbeatLost : M Unit := do
  wf SAF.DIAG.HB_LOST 1
  inc SAF.DIAG.HB_COUNT
  holdLink 160
  safDiag SAF.DIAG

/-- A complement mismatch of the safety-island logic (R371). -/
def logicMismatch : M Unit := do
  wf SAF.DIAG.LOGIC_MISMATCH 1
  safDiag SAF.DIAG

/-! ## Safe inputs (R382, R385 to R389) -/

/-- Whether an input by itself demands. -/
def State.ownDemand (s : State) (i : Nat) : Bool := s.f (SAF.SIN.LEVEL i) == 0 || s.f (SAF.SIN.FAULT i) == 1

/-- Whether DEMAND of an input is due: its own, or its partner's in a pair (R385, R386). -/
def State.demandDue (s : State) (i : Nat) : Bool :=
  s.ownDemand i || (s.f (SAF.SIN.PAIR i) == 1 && s.ownDemand (i ^^^ 1))

/-- DEMAND of an input follows; the answer tells whether it went from demand to healthy. -/
def setDemand (i cause : Nat) : M Bool := do
  let s ← getS
  let now := s.demandDue i
  let was := s.f (SAF.SIN.DEMAND i) == 1
  if now && !was then
    wf (SAF.SIN.DEMAND i) 1
    inc (SAF.SIN.COUNT i)
    eventDev 0x8036 (by1 [i, 1, s.f (SAF.SIN.FAULT i), 0] ++ leBytes 2 cause)
  if was && !now then wf (SAF.SIN.DEMAND i) 0
  return was && !now && s.f (SAF.SIN.EN i) == 1

/-- Whether a healthy input acknowledges (R382). -/
def State.inputAcks (s : State) (i : Nat) : Bool :=
  bit (s.f (SAF.FUNC_CFG.PARAM 1)) 15 && bit (s.f (SAF.FUNC_CFG.SIN_MASK 1)) i

/-- What follows a change at an input: DEMAND of it and its partner, the functions, an acknowledgement. -/
def inputChanged (i cause : Nat) : M Unit := do
  let j := i ^^^ 1
  let a ← setDemand i cause
  let b ← setDemand j cause
  syncFuncs
  let s ← getS
  if (a && s.inputAcks i) || (b && s.inputAcks j) then acknowledge

/-- The filtered level of an input changes (R385). -/
def setLevel (i : Nat) (high : Bool) : M Unit := do
  wf (SAF.SIN.LEVEL i) (b2n high)
  inputChanged i 0x8036

/-- SINi has been low in every sample for `us` microseconds: it is taken as low after FILTER + 1 (R385). -/
def inputLow (i us : Nat) : M Unit := do
  if (← rf (SAF.SIN.FILTER i)) + 1 ≤ us then setLevel i false

/-- SINi has been sampled high (R385), which it cannot be while its supply is switched off (R389). -/
def inputHigh (i : Nat) : M Unit := do
  if (← rf (SAF.SSUP.OC (← rf (SAF.SIN.SUP i)))) = 0 then setLevel i true

/-- A test pulse fails an input (R387, R388). -/
def failInput (i : Nat) : M Unit := do
  wf (SAF.SIN.FAULT i) 1
  hid fun h => { h with saf := { h.saf with sins := sput h.saf.sins i {} } }
  inputChanged i 161
  occur 161 0 (SAF.SIN i)

/-- A pulse of an input's own supply passes; the second in a row after FAULT was written clears FAULT (R388). -/
def passInput (i : Nat) : M Unit := do
  let s ← getS
  let r := mget ({} : SinSt) s.hid.saf.sins i
  if s.f (SAF.SIN.FAULT i) = 1 ∧ r.checking then
    if 1 ≤ r.passes then
      hid fun h => { h with saf := { h.saf with sins := sput h.saf.sins i {} } }
      wf (SAF.SIN.FAULT i) 0
      inputChanged i 161
    else hid fun h => { h with saf := { h.saf with sins := sput h.saf.sins i { r with passes := r.passes + 1 } } }

/-- Whether an input's checking runs: it is enabled, and FAULT is clear or was written (R388). -/
def State.checks (s : State) (i : Nat) : Bool :=
  s.f (SAF.SIN.EN i) == 1 && (s.f (SAF.SIN.FAULT i) == 0 || (mget ({} : SinSt) s.hid.saf.sins i).checking)

/-- Whether a test pulse of a supply is due at `t` µs: every TP_PERIOD ms, those of SSUPk k × TP_PERIOD / 4 after those of
SSUP0, which fall on multiples of the period (R387; DESIGN CHOICE, log entry 16). -/
def State.pulseDue (s : State) (k t : Nat) : Bool :=
  let p := s.f (SAF.SSUP.TP_PERIOD k) * 1000
  t % p == k * p / 4

/-- A test pulse of a supply begins at `t` µs (R387, R388): `low` are the inputs that read low in its last sample, `short` those that
fell during it and were high again within 1.5 µs of its start. -/
def testPulse (k low short t : Nat) : M Unit := do
  let s ← getS
  if s.f (SAF.SSUP.EN k) = 1 ∧ s.f (SAF.SSUP.OC k) = 0 ∧ s.pulseDue k t then
    incWrap (SAF.SSUP.PULSES k)
    (List.range 8).forM fun i => do
      if s.checks i then
        if s.f (SAF.SIN.SUP i) = k then
          if bit low i then passInput i else failInput i
        else if bit short i then failInput i

/-- The levels of a pair have disagreed for `ms` milliseconds, longer than DISC (R386); a lasting occurrence makes both
inputs FAULT (R401). -/
def inputDisc (i ms : Nat) : M Unit := do
  let s ← getS
  let j := i ^^^ 1
  if s.f (SAF.SIN.EN i) = 1 ∧ s.f (SAF.SIN.EN j) = 1 ∧ s.f (SAF.SIN.PAIR i) = 1 ∧ s.f (SAF.SIN.PAIR j) = 1 ∧
      s.f (SAF.SIN.LEVEL i) ≠ s.f (SAF.SIN.LEVEL j) ∧ s.f (SAF.SIN.DISC i) < ms then
    if ← occurrence 162 0 (SAF.SIN (min i j)) then
      wf (SAF.SIN.FAULT i) 1
      wf (SAF.SIN.FAULT j) 1
      hid fun h => { h with saf := { h.saf with sins := sput (sput h.saf.sins i {}) j {} } }
      inputChanged i 162

/-- A sensor supply above 75 mA for 10 µs is switched off, and its inputs read low (R389). -/
def supplyOc (k : Nat) : M Unit := do
  let s ← getS
  if s.f (SAF.SSUP.EN k) = 1 ∧ s.f (SAF.SSUP.OC k) = 0 then
    wf (SAF.SSUP.OC k) 1
    (List.range 8).forM fun i => do
      if s.f (SAF.SIN.SUP i) = k then setLevel i false
    occur 163 0 (SAF.SSUP k)

/-- What a write of SAF.SIN[i] or SAF.SSUP[k] leaves to do: FAULT written restarts the checking, and FAULT clears
only by passing pulses (R388). -/
def sinFaultClear (i : Nat) : M Unit := do
  if (← rf (SAF.SIN.FAULT i)) = 1 then
    hid fun h => { h with saf := { h.saf with sins := sput h.saf.sins i ⟨0, true⟩ } }

/-! ## Safe messages (R390 to R396) -/

/-- One shift of the CRC register of R391, most significant bit first. -/
def crcMsgShift (c : Nat) : Nat :=
  if 0x80000000 ≤ c then ((c * 2) % 0x100000000) ^^^ 0xF4ACFB13 else c * 2

/-- One byte into the CRC register of R391. -/
def crcMsgByte (c : Nat) (b : Byte) : Nat :=
  (List.range 8).foldl (fun c _ => crcMsgShift c) (c ^^^ (b.toNat * 0x1000000))

/-- The CRC of R391 over DATA_ID and bytes 0 to 27. -/
def msgCrc (dataId : Nat) (bs : List Byte) : Nat :=
  (leBytes 2 dataId ++ bs).foldl crcMsgByte 0xFFFFFFFF ^^^ 0xFFFFFFFF

/-- A little-endian field of a message. -/
def msgField (bs : List Byte) (o n : Nat) : Nat := ofLe ((bs.drop o).take n)

/-- The number of a leg (R403). -/
def legNum : MsgLeg → Nat
  | .can => 0
  | .eth .. => 1

/-- One leg's record. -/
def State.leg (s : State) (l : Nat) : MsgPath := mget {} s.hid.saf.legs l

/-- Update a leg's record. -/
def updLeg (l : Nat) (f : MsgPath → MsgPath) : M Unit :=
  hid fun h => { h with saf := { h.saf with legs := mupd {} h.saf.legs l f } }

/-- Whether a leg is in service (R395). -/
def State.legIn (s : State) (l : Nat) : Bool :=
  if l = 0 then s.f SAF.MSG_STAT.CAN_LEG == 1 else s.f SAF.MSG_STAT.ETH_LEG == 1

/-- A leg enters or leaves service (R395). -/
def setLegState (l : Nat) (up : Bool) (cause : Nat) : M Unit := do
  if (← getS).legIn l ≠ up then
    if l = 0 then wf SAF.MSG_STAT.CAN_LEG (b2n up) else wf SAF.MSG_STAT.ETH_LEG (b2n up)
    updLeg l fun r => { r with paired := 0 }
    let s ← getS
    wf SAF.STATUS.DEGRADED (b2n (s.f SAF.MSG_CFG.EN == 1 && (s.legIn 0 != s.legIn 1)))
    eventDev 0x8037 (by1 [l, b2n up] ++ leBytes 2 cause)

/-- An occurrence of SAF_LEG_ERR; a lasting one takes the leg out of service (R395, R401). -/
def legErr (l : Nat) : M Unit := do
  updLeg l fun r => { r with paired := 0 }
  if ← occurrence 164 l SAF.MSG_ERR then setLegState l false 164

/-- The loss function of SAF.MSG_CFG.LOSS. -/
def State.lossFunc (s : State) : Nat := if s.f SAF.MSG_CFG.LOSS = 1 then 1 else 2

/-- The loss function is triggered, until a message is accepted again (R396, R401). -/
def messageLoss (cause : Nat) : M Unit := do
  let s ← getS
  trigger s.lossFunc 3 0x1FFFF (s.funcMask s.lossFunc) cause

/-- A message is accepted (R394): torque requests, triggers, the safe torque limit, the acknowledgement. -/
def acceptMessage (bs : List Byte) (from_ : Option MsgLeg) : M Unit := do
  let s ← getS
  wf SAF.MSG_STAT.COUNTER (msgField bs 2 2)
  wf SAF.STATUS.MSG_OK 1
  (List.range 2).forM fun m => do
    if s.f (FLD.MCH_CFG.TQ_SRC m) = 1 then
      if s.present (2 + m) then wr (FLD.TQ_REQ m) (BitVec.ofNat 32 (msgField bs (4 + 4 * m) 4))
      else inc (SYS.XFER.DROPPED_WRITES (2 + m))
  hid fun h => { h with saf := { h.saf with
    msgAt := s.ms, req := msgField bs 14 1, stlLim := msgField bs 12 2, ethPeer := from_.or h.saf.ethPeer } }
  withdraw 1 3 0x1FFFF
  withdraw 2 3 0x1FFFF
  syncFuncs
  if bit (msgField bs 14 1) 7 then acknowledge

/-- Eight copies of a leg in a row that pair bring it back into service (R395). -/
def pairedCopy (l : Nat) : M Unit := do
  if !(← getS).legIn l then
    updLeg l fun r => { r with paired := r.paired + 1 }
    if 8 ≤ ((← getS).leg l).paired then setLegState l true 0

/-- The Ethernet source among two copies. -/
def ethOf (a b : MsgLeg) : Option MsgLeg :=
  match a, b with
  | .eth .., _ => some a
  | _, .eth .. => some b
  | _, _ => none

/-- A valid copy in sequence meets the other leg's copies (R394, R395). -/
def pairCopy (src : MsgLeg) (bs : List Byte) : M Unit := do
  let s ← getS
  let l := legNum src
  let o := 1 - l
  let both := s.legIn 0 && s.legIn 1
  let alone := s.legIn l && !s.legIn o
  if alone then acceptMessage bs (match src with
    | .eth .. => some src
    | .can => none)
  let inTime (t : Nat) : Bool := decide (s.hid.now ≤ t + s.f SAF.MSG_CFG.SKEW * 1000)
  match (s.leg o).wait.find? fun w => msgField w.1 2 2 == msgField bs 2 2 && inTime w.2.2 with
  | none => updLeg l fun r => { r with wait := r.wait ++ [(bs, src, s.hid.now)] }
  | some w =>
    updLeg o fun r => { r with wait := r.wait.erase w }
    if w.1.take 28 = bs.take 28 then
      if both then acceptMessage bs (ethOf src w.2.1)
      pairedCopy l
      pairedCopy o
    else
      updLeg l fun r => { r with paired := 0 }
      updLeg o fun r => { r with paired := 0 }
      if both then
        inc SAF.MSG_ERR.MISMATCH
        if ← occurrence 165 0 SAF.MSG_ERR then messageLoss 165

/-- Whether length, KIND and reserved fields of a copy are right (R390, R393). -/
def copyForm (bs : List Byte) : Bool :=
  bs.length == 32 && msgField bs 0 1 == 1 && decide (msgField bs 1 1 < 2) && !bit (msgField bs 14 1) 6 &&
    msgField bs 15 1 == 0 && msgField bs 20 4 == 0 && msgField bs 24 4 == 0

/-- Whether a counter is within 1 to DELTA_MAX ahead of another. -/
def State.ahead (s : State) (c last : Nat) : Bool :=
  let d := (c + 65536 - last) % 65536
  decide (1 ≤ d) && decide (d ≤ s.f SAF.MSG_CFG.DELTA_MAX)

/-- A copy of a safe message arrives on a leg (R393). -/
def safeCopy (src : MsgLeg) (bs : List Byte) : M Unit := do
  let s ← getS
  let l := legNum src
  if s.f SAF.MSG_CFG.EN = 1 then
    if !copyForm bs then legErr l
    else if msgField bs 28 4 ≠ msgCrc (s.f SAF.MSG_CFG1.DATA_ID) (bs.take 28) then
      inc SAF.MSG_ERR.CRC_ERR
      legErr l
    else
      let c := msgField bs 2 2
      let r := s.leg l
      let seen := r.cand.or r.last
      let inSeq : Bool := match r.last with
        | none => true
        | some x => s.ahead c x || (match r.cand with
          | some y => s.ahead c y
          | none => false)
      if seen ≠ some c then
        if inSeq then
          updLeg l fun r => { r with last := some c, cand := none }
          pairCopy src bs
        else
          updLeg l fun r => { r with cand := some c }
          inc SAF.MSG_ERR.SEQ_ERR
          legErr l

/-- The partner of a leg's oldest waiting copy did not arrive within SKEW (R394). -/
def skewExpiry (l : Nat) : M Unit := do
  let s ← getS
  match (s.leg l).wait with
  | [] => pure ()
  | w :: _ =>
    if w.2.2 + s.f SAF.MSG_CFG.SKEW * 1000 ≤ s.hid.now then
      updLeg l fun r => { r with wait := r.wait.tail }
      if s.legIn 0 && s.legIn 1 then legErr (1 - l)
      else updLeg (1 - l) fun r => { r with paired := 0 }

/-- The safe torque limit in force on any machine, 0.1 N·m; 0xFFFF none (R378, R380, R390). -/
def State.stlShown (s : State) : Nat :=
  if s.funcActive 6 then 0
  else if s.hid.saf.stlLim ≠ 0xFFFF then s.hid.saf.stlLim
  else if s.funcActive 3 then s.f SAF.STL.STL_CFG else 0xFFFF

/-- The status message (R390, R391). -/
def State.statusMessage (s : State) : List Byte :=
  let on (f b : Nat) : Nat := if s.funcActive f then 2 ^ b else 0
  let req := on 1 0 + on 2 1 + on 3 2 + on 5 3 + on 6 4 + on 7 5 + on 4 6
  let body := by1 [2, s.f SAF.STATUS.DEGRADED] ++ leBytes 2 s.hid.saf.stat ++ leBytes 4 (s.rd (FLD.TQ_OUT 0)).toNat ++
    leBytes 4 (s.rd (FLD.TQ_OUT 1)).toNat ++ leBytes 2 s.stlShown ++ by1 [req, 0] ++ leBytes 4 s.ms ++
    leBytes 4 (maskOf (groups.filter fun g => s.gst g == .safe)) ++ leBytes 4 0
  body ++ leBytes 4 (msgCrc (s.f SAF.MSG_CFG1.DATA_ID) body)

/-- The device sends its status message on both legs (R392). -/
def statusSend : M Unit := do
  let s ← getS
  if s.f SAF.MSG_CFG.EN = 1 then
    let bs := s.statusMessage
    hid fun h => { h with saf := { h.saf with stat := (h.saf.stat + 1) % 65536 } }
    let n := s.f SAF.MSG_CFG.CTRL
    if s.f (BUS.CTRL.EN n) = 1 ∧ s.f (BUS.STAT.STATE n) ≠ 2 then
      let fr : CanFrame := { id := (s.f SAF.MSG_CFG.CAN_ID + 1) % 2048, typ := 1, data := bs }
      let _ ← canEnqueue n ⟨fr, 1, s.hid.now, 10000⟩
    match s.hid.saf.ethPeer with
    | some (.eth phy a port) =>
      if s.f (NET.IF_CFG.EN phy.val) = 1 then
        ethSend ⟨phy.val, sget 0 s.hid.bus.peers (peerKey phy.val a), a, s.f SAF.MSG_CFG1.UDP_PORT, port, bs, 0⟩
    | _ => pure ()

/-- No accepted message within TIMEOUT (R396). -/
def messageTimeout : M Unit := do
  let s ← getS
  if s.f SAF.MSG_CFG.EN = 1 ∧ !(s.func s.lossFunc).by_.contains 0x1FFFF ∧ s.hid.saf.msgAt + s.f SAF.MSG_CFG.TIMEOUT < s.ms then
    messageLoss 166
    wf SAF.STATUS.MSG_OK 0
    inc SAF.MSG_ERR.TIMEOUTS
    occur 166 0 SAF.MSG_STAT
    eventDev 0x8037 (by1 [0xFF, 0] ++ leBytes 2 166)

/-- What a write of SAF.MSG_CFG leaves to do: setting EN puts both legs into service, clearing it ends them
(R395; DESIGN CHOICE, log entry 16). -/
def msgCfgWritten (old : Word) : M Unit := do
  let s ← getS
  let was := bit old.toNat 31
  let is := s.f SAF.MSG_CFG.EN == 1
  if was ≠ is then
    hid fun h => { h with saf := { h.saf with legs := [], req := 0, stlLim := 0xFFFF, msgAt := s.ms } }
    setLegState 0 is 0
    setLegState 1 is 0
    wf SAF.STATUS.DEGRADED 0
    if !is then
      wf SAF.STATUS.MSG_OK 0
      withdraw 1 3 0x1FFFF
      withdraw 2 3 0x1FFFF
    syncFuncs

/-! ## Safe stop and safe park (R377, R380) -/

/-- SS1_TMAX passes during a ramp (R377). -/
def ss1Timeout (g : Nat) : M Unit := do
  let s ← getS
  if (s.grp g).ss1.any fun r => decide (r.since + s.f (SAF.FUNC_CFG.PARAM 2) ≤ s.ms) then ss1Sto g 0x8035

/-- CD0 issues the park engage of R294 until it is accepted (R380). -/
def parkRetry : M Unit := do
  let s ← getS
  if s.funcActive 6 ∧ !s.hid.saf.parkOk then
    if (s.speedBar (s.f ACT.SPEEDS.PARK_RPM)).isSome then inc ACT.STATUS.PARK_REFUSED
    else if s.f (ACT.STAT.STATE 0) ≠ 3 ∧ s.present 5 then
      hid fun h => { h with saf := { h.saf with parkOk := true } }
      actGo 0 1

/-- PARK_TMAX passes without park ENGAGED (R380); a lasting occurrence applies STO to the target groups (R401). -/
def parkFail : M Unit := do
  let s ← getS
  if s.funcActive 6 ∧ s.f (ACT.STAT.PARK 0) ≠ 2 ∧
      s.hid.saf.parkAt.any (fun t => decide (t + s.f (SAF.FUNC_CFG.PARAM 6) ≤ s.ms)) then
    hid fun h => { h with saf := { h.saf with parkAt := none } }
    if ← occurrence 168 0 (SAF.FUNC_STAT 6) then momentary 1 (168 * 256) (s.func 6).grps 168

end Sys2Proof.Machine
end

