-- ==== Sys2Proof/Machine/Network.lean ====
section
/-! DEFINITION. CAN controllers, their logs, windows and queues, network time, and Ethernet up to the hand-over of
datagrams (R440 to R457). DESIGN CHOICE and DEDUCED points: log entry 23. -/

namespace Sys2Proof.Machine

/-! ## Controllers -/

/-- One controller's record. -/
def State.can (s : State) (n : Nat) : CanSt := mget {} s.hid.bus.can n

/-- Update a controller's record. -/
def updCan (n : Nat) (f : CanSt → CanSt) : M Unit :=
  hid fun h => { h with bus := { h.bus with can := mupd {} h.bus.can n f } }

/-- BUS_STATE (R449): the controller, the old and the new state, TEC and REC. -/
def busEvent (n old new : Nat) : M Unit := do
  let s ← getS
  eventDev 0x8039 (by1 [n, old, new, s.f (BUS.STAT.TEC n), s.f (BUS.STAT.REC n), 0])

/-- The error state of a controller changes (R449). -/
def setBusState (n new : Nat) : M Unit := do
  let old ← rf (BUS.STAT.STATE n)
  if old ≠ new then
    wf (BUS.STAT.STATE n) new
    busEvent n old new

/-! ## Network time (R452) -/

/-- The network time now, in ns: the rate correction of 0.01 ppm units, and the slew over the period it was given
(R452, R454). -/
def State.netTime (s : State) : Nat :=
  let t := s.hid.bus.time
  let dt : Int := ((s.hid.now - t.at_) * 1000 : Nat)
  let rate := sxn 15 (s.f BUS.TIME_STAT.RATE)
  let per : Int := max 1 (s.f BUS.TIME_CFG.PERIOD * 1000 : Nat)
  let el : Int := min per ((s.hid.now - t.slewAt : Nat) : Int)
  let done : Int := min per ((t.at_ - t.slewAt : Nat) : Int)
  ((t.ns : Int) + dt + dt * rate / 100000000 + t.slew * el / per - t.slew * done / per).toNat % 2 ^ 64

/-- Bring the time record up to now, so that rate and slew may change. -/
def settleTime : M Unit := do
  let s ← getS
  let n := s.netTime
  hid fun h => { h with bus := { h.bus with time := { h.bus.time with ns := n, at_ := h.now } } }

/-- SYNCED changes (R454). -/
def setSynced (on : Bool) : M Unit := do
  if b2n on ≠ (← rf BUS.TIME_STAT.SYNCED) then
    wf BUS.TIME_STAT.SYNCED (b2n on)
    eventDev 0x803B (by1 [b2n on, 0, 0, 0])

/-- BUS.TIME_HI was written (R452). -/
def netTimeSet : M Unit := do
  let s ← getS
  let n := (s.rd BUS.TIME_HI).toNat * 4294967296 + (s.rd BUS.TIME_LO).toNat
  hid fun h => { h with bus := { h.bus with time := { h.bus.time with ns := n, at_ := h.now, slew := 0 } } }
  inc BUS.TIME_STAT.STEPS

/-- The difference of two 48-bit times as a signed number. -/
def diff48 (a b : Nat) : Int := sxn 48 (a + 2 ^ 48 - b % 2 ^ 48)

/-- A follower takes a reference message that was logged at `time` (R454). -/
def takeReference (seq : Nat) (valid : Bool) (prev time : Nat) : M Unit := do
  let s ← getS
  if s.f BUS.TIME_CFG.EN = 1 ∧ s.f BUS.TIME_CFG.ROLE = 2 then
    let t := s.hid.bus.time
    match t.last with
    | some (q, l) =>
      if valid ∧ seq = (q + 1) % 256 then
        let o := diff48 prev l
        settleTime
        if s.f BUS.TIME_CFG.STEP_US * 1000 < o.natAbs then
          hid fun h => { h with bus := { h.bus with time := { h.bus.time with
            ns := (((h.bus.time.ns : Int) + o) % 2 ^ 64).toNat, slew := 0, good := 0 } } }
          inc BUS.TIME_STAT.STEPS
        else
          let rate := sxn 15 (s.f BUS.TIME_STAT.RATE)
          let more : Int := match t.before with
            | some b => if diff48 l b = 0 then 0 else o * 100000000 / diff48 l b
            | none => 0
          wf BUS.TIME_STAT.RATE (codeOf 15 (clampI (-10000) 10000 (rate + more)))
          hid fun h => { h with bus := { h.bus with time := { h.bus.time with slew := o, slewAt := h.now, good := h.bus.time.good + 1 } } }
          if 2 ≤ (← getS).hid.bus.time.good then setSynced true
        hid fun h => { h with bus := { h.bus with time := { h.bus.time with usedAt := h.now } } }
    | none => pure ()
    hid fun h => { h with bus := { h.bus with time := { h.bus.time with last := some (seq, time), before := h.bus.time.last.map Prod.snd } } }

/-- Three periods without a usable reference (R454). -/
def busTimeLoss : M Unit := do
  let s ← getS
  if s.f BUS.TIME_CFG.EN = 1 ∧ s.f BUS.TIME_CFG.ROLE = 2 ∧ s.f BUS.TIME_STAT.SYNCED = 1 ∧
      s.hid.bus.time.usedAt + 3000 * s.f BUS.TIME_CFG.PERIOD ≤ s.hid.now then
    hid fun h => { h with bus := { h.bus with time := { h.bus.time with good := 0 } } }
    inc BUS.TIME_STAT.LOSSES
    occur 205 0 BUS.TIME_STAT
    setSynced false

/-- Whether a master's PERIOD has passed since its last reference message (R453). -/
def State.refDue (s : State) : Bool :=
  match s.hid.bus.time.refAt with
  | some t => decide (t + 1000 * s.f BUS.TIME_CFG.PERIOD ≤ s.hid.now)
  | none => true

/-- As master, enqueue a reference message (R453). -/
def sendReference : M Unit := do
  let s ← getS
  if s.f BUS.TIME_CFG.EN = 1 ∧ s.f BUS.TIME_CFG.ROLE = 1 ∧ s.refDue then
    let t := s.hid.bus.time
    let n := s.f BUS.TIME_CFG.CTRL
    let data := by1 [t.refSeq, b2n t.prevTime.isSome] ++ leBytes 6 (t.prevTime.getD 0)
    let fr : CanFrame := { id := s.f BUS.TIME_CFG.REF_ID, typ := 0, data := data }
    hid fun h => { h with bus := { h.bus with time := { h.bus.time with refSeq := (t.refSeq + 1) % 256, prevTime := none, refAt := some h.now } } }
    let _ ← canEnqueue n ⟨fr, 2, s.hid.now, s.f BUS.TIME_CFG.PERIOD * 1000⟩

/-! ## Receive log (R443, R444) -/

/-- The 64-byte units an entry's data occupy. -/
def LogEntry.units (e : LogEntry) : Nat := (e.frame.data.length + 63) / 64

/-- Whether a holding reader has not yet passed an entry. -/
def State.logHeld (s : State) (n : Nat) (e : LogEntry) : Bool :=
  let c := s.can n
  decide (c.cd0 ≤ e.rxseq) || decide (c.cd2 ≤ e.rxseq) ||
    (s.f (BUS.CTRL.HOST_HOLD n) == 1 && decide ((e.rxseq + 2 ^ 32 - (s.rd (BUS.RX_SEL n)).toNat) % 2 ^ 32 < 2 ^ 31))

/-- Units that entries not yet released occupy. -/
def State.heldUnits (s : State) (n : Nat) : Nat :=
  (((s.can n).log.filter (s.logHeld n)).map LogEntry.units).sum

/-- POOL_FREE follows the readers. -/
def showPool (n : Nat) : M Unit := do
  let s ← getS
  wf (BUS.RX_STAT.POOL_FREE n) (4096 - s.heldUnits n)

/-- Drop released entries from the front of a log until `u` units and one entry are free. -/
def trimLog (u : Nat) : List LogEntry → List LogEntry
  | [] => []
  | e :: r => if 1024 ≤ (e :: r).length ∨ 4096 < ((e :: r).map LogEntry.units).sum + u then trimLog u r else e :: r

/-- The 32 bytes of an entry (R443). -/
def LogEntry.bytes (e : LogEntry) : List Byte :=
  let f := e.frame
  let xl := f.typ == 2
  let own := if f.typ = 0 then 0 else if xl then f.flags / 16 % 2 * 16 + f.flags % 4 else f.flags % 4
  let flags := setIf (setIf own 2 e.tx) 3 (decide (0 < e.lostN))
  leBytes 4 e.rxseq ++ leBytes 8 e.time ++ leBytes 4 (f.id % 2 ^ 31) ++ by1 [f.typ, flags] ++
    leBytes 2 f.data.length ++ by1 [if xl then f.sdt else 0, if xl then f.vcid else 0] ++
    leBytes 2 (min e.lostN 65535) ++ leBytes 4 (if xl then f.af else 0) ++
    leBytes 4 (if f.data.isEmpty then 0xFFFFFFFF else e.pool)
where
  /-- A number with a bit set on a condition. -/
  setIf (v b : Nat) (c : Bool) : Nat := if c then setBit v b else v

/-- Words 1 to 521 of the window for an entry (R446). -/
def LogEntry.window (e : LogEntry) : List Word :=
  let d := wordsOf e.frame.data
  wordsOf e.bytes ++ d ++ List.replicate (512 - d.length) 0 ++ [BitVec.ofNat 32 e.rxseq]

/-- Refill the shadow of the receive window (R446). -/
def refill (n : Nat) (e : Option LogEntry) : M Unit := do
  wf (BUS.WIN.NEW n) 1
  wf (BUS.WIN.VALID n) (b2n e.isSome)
  match e with
  | some x => updCan n fun c => { c with win := x.window }
  | none => pure ()

/-- A frame enters the log, or is dropped (R443, R444); the answer tells which. -/
def logFrame (n : Nat) (f : CanFrame) (tx : Bool) (time : Nat) : M Bool := do
  let s ← getS
  let c := s.can n
  let u := (f.data.length + 63) / 64
  let held := (c.log.filter (s.logHeld n)).length
  if 1024 ≤ held ∨ 4096 < s.heldUnits n + u then
    inc (BUS.RX_STAT.LOST n)
    updCan n fun c => { c with dropped := c.dropped + 1 }
    occur 204 0 (BUS.RX_STAT n)
    return false
  let e : LogEntry := ⟨c.next, time, f, tx, c.dropped, c.unit * 64⟩
  updCan n fun c => { c with
    log := trimLog u c.log ++ [e]
    next := c.next + 1
    dropped := 0
    unit := (c.unit + u) % 4096 }
  wr (BUS.RX_HEAD n) (BitVec.ofNat 32 e.rxseq)
  if s.f (BUS.CTRL.WIN_MODE n) = 0 then refill n (some e)
  showPool n
  return true

/-- Whether a controller takes a frame: enabled, not bus-off, and of a type it accepts (R440, R450). -/
def State.canTakes (s : State) (n : Nat) (f : CanFrame) : Bool :=
  s.f (BUS.CTRL.EN n) == 1 && s.f (BUS.STAT.STATE n) != 2 && s.f (BUS.STAT.STATE n) != 3 &&
    (f.typ == 0 || (f.typ == 1 && s.f (BUS.CTRL.FD_EN n) == 1) || (f.typ == 2 && s.f (BUS.CTRL.XL_EN n) == 1))

/-- What a write of BUS.RX_SEL leaves to do: the refill of SELECT mode and the host's hold point (R444, R446). -/
def rxSelected (n : Nat) : M Unit := do
  let s ← getS
  if s.f (BUS.CTRL.WIN_MODE n) = 1 then
    refill n ((s.can n).log.find? fun e => decide (BitVec.ofNat 32 e.rxseq = s.rd (BUS.RX_SEL n)))
  showPool n

/-! ## Transmission and bus-off (R448 to R451) -/

/-- Put a transmit queue in place of another. -/
def setQueue (n : Nat) (l : List TxFrame) : M Unit := do
  updCan n fun c => { c with tx := l }
  wf (BUS.TX_STAT.QUEUED n) l.length

/-- Frames whose lifetime ended leave a queue that is not frozen (R448). -/
def dropExpired (n : Nat) : M Unit := do
  let s ← getS
  let l := (s.can n).tx
  let keep := l.filter fun t => decide (s.hid.now < t.born + t.life)
  if keep.length ≠ l.length ∧ s.f (BUS.STAT.STATE n) ≠ 2 then setQueue n keep

/-- The head frame of a queue is sent and logged (R443, R448); its start of frame lies `sof` ns back. -/
def transmitHead (n sof : Nat) : M Unit := do
  dropExpired n
  let s ← getS
  if s.f (BUS.CTRL.EN n) = 1 ∧ s.f (BUS.CTRL.MODE n) = 0 ∧ s.f (BUS.STAT.STATE n) < 2 then
    match (s.can n).tx with
    | [] => pure ()
    | t :: r =>
      setQueue n r
      let time := s.netTime - sof
      let _ ← logFrame n t.frame true time

/-- A controller changes between error-active and error-passive (R449). -/
def busState (n : Nat) (passive : Bool) (tec rec : Nat) : M Unit := do
  let s ← getS
  if s.f (BUS.STAT.STATE n) < 2 then
    wf (BUS.STAT.TEC n) tec
    wf (BUS.STAT.REC n) rec
    setBusState n (b2n passive)

/-- A controller goes bus-off (R450, R451). -/
def busOff (n rec : Nat) : M Unit := do
  let s ← getS
  if s.f (BUS.STAT.STATE n) < 2 then
    wf (BUS.STAT.TEC n) 255
    wf (BUS.STAT.REC n) rec
    inc (BUS.STAT.BUS_OFFS n)
    updCan n fun c => { c with recov := false }
    setBusState n 2
    if ← occurrence (200 + n) 0 (BUS.STAT n) then wf (BUS.STAT.REC_HELD n) 1
    if s.f SAF.MSG_CFG.EN = 1 ∧ s.f SAF.MSG_CFG.CTRL = n then setLegState 0 false (200 + n)

/-- 128 recessive sequences are counted (R450): recovery must have started. -/
def busRecovered (n : Nat) : M Unit := do
  let s ← getS
  let auto : Bool := s.f (BUS.CTRL.AUTO_REC n) == 1 && s.f (BUS.STAT.REC_HELD n) == 0
  if s.f (BUS.STAT.STATE n) = 2 ∧ (auto ∨ (s.can n).recov) then
    wf (BUS.STAT.TEC n) 0
    wf (BUS.STAT.REC n) 0
    updCan n fun c => { c with recov := false }
    setBusState n 0
    let l := (s.can n).tx
    let keep := l.filter fun t => decide (s.hid.now < t.born + t.life)
    incBy (BUS.TX_STAT.EXPIRED n) (l.length - keep.length)
    setQueue n keep

/-- RECOVER was written (R450, R451). -/
def recoverWritten (n : Nat) : M Unit := do
  wf (BUS.STAT.REC_HELD n) 0
  updCan n fun c => { c with recov := true }

/-- What a write of BUS.CTRL leaves to do: enabling and disabling (R442), the readers' hold, the window. -/
def ctrlEnabled (n : Nat) (old : Word) : M Unit := do
  let s ← getS
  let was := bit old.toNat 31
  let is := s.f (BUS.CTRL.EN n) == 1
  if is && !was then
    wf (BUS.STAT.STATE n) 0
    wf (BUS.STAT.TEC n) 0
    wf (BUS.STAT.REC n) 0
  if was && !is then
    wf (BUS.STAT.STATE n) 3
    updCan n fun c => { c with recov := false }
  showPool n

/-! ## Ethernet (R455 to R457) -/

/-- The MAC address of an interface. -/
def State.macOf (s : State) (p : Nat) : Nat := (s.rd (NET.MAC_HI p)).toNat * 4294967296 + (s.rd (NET.MAC_LO p)).toNat

/-- A link goes up or down (R455). -/
def netLink (p : Nat) (up : Bool) : M Unit := do
  if b2n up ≠ (← rf (NET.STAT.LINK p)) then
    wf (NET.STAT.LINK p) (b2n up)
    if !up then
      inc (NET.STAT.LINK_LOSSES p)
      occur (210 + p) 0 (NET.STAT p)
    eventDev 0x803A (by1 [p, b2n up, 0, 0])

/-- The PLCA status rises or falls (R455). -/
def netPlca (ok : Bool) : M Unit := do
  let s ← getS
  if s.f (NET.IF_CFG.PLCA_EN 1) = 1 ∧ b2n ok ≠ s.f (NET.STAT.PLCA_OK 1) then
    wf (NET.STAT.PLCA_OK 1) (b2n ok)
    if !ok then occur 212 0 (NET.STAT 1)

/-- An ARP entry of 60 s is aged out (R456). -/
def arpAge (p ip : Nat) : M Unit :=
  hid fun h => { h with bus := { h.bus with
    arp := h.bus.arp.filter fun a => !(a.phy == p && a.ip == ip && decide (a.at_ + 60000000 ≤ h.now)) } }

/-- The resolver learns an address; of 8 entries the oldest gives way (R456). -/
def arpLearn (p ip mac : Nat) : M Unit := do
  hid fun h => { h with bus := { h.bus with
    arp := (⟨p, ip, mac, h.now⟩ :: h.bus.arp.filter fun a => !(a.phy == p && a.ip == ip)).take 8 } }

/-- An ARP request for the event destination, every second while it is unresolved (R457). -/
def arpRetry : M Unit := do
  let s ← getS
  let p := s.f NET.EVT_PORT.IF
  let ip := s.f NET.EVT_DEST.IP
  if s.f CMD.EVENT_CFG.ROUTE_UDP = 1 ∧ s.f (NET.IF_CFG.EN p) = 1 ∧ (s.arpOf p ip).isNone ∧
      (s.hid.bus.arpAt.all fun t => decide (t + 1000000 ≤ s.hid.now)) then
    hid fun h => { h with bus := { h.bus with arpAt := some h.now } }
    ethSend ⟨p, 0xFFFFFFFFFFFF, ip, 0, 0, [], 1⟩

/-- Whether an address is a broadcast or a multicast one for an interface (R456). -/
def State.castIp (s : State) (p ip : Nat) : Bool :=
  let host := 2 ^ (32 - s.f (NET.IF_CFG.PREFIX p))
  decide (0xE0000000 ≤ ip) && decide (ip < 0xF0000000) || ip == 0xFFFFFFFF ||
    (ip / host == s.f (NET.IP.ADDR p) / host && ip % host == host - 1)

/-- A frame above the MAC that is not for the command executor or the safety firmware (R456); the answer is the
datagram that is: source port, destination port, data. -/
def ethAnswer (p : Nat) (f : EthFrame) : M (Option (Nat × Nat × List Byte)) := do
  let s ← getS
  let own := f.dstMac == s.macOf p
  let many := bit f.dstMac 40
  let ip := s.f (NET.IP.ADDR p)
  match f.kind with
  | .arpRequest target =>
    if target = ip ∧ (own ∨ many) then ethSend ⟨p, f.srcMac, f.srcIp, 0, 0, [], 2⟩
    return none
  | .arpReply =>
    if own then arpLearn p f.srcIp f.srcMac
    return none
  | .echo dst data =>
    if own ∧ dst = ip then ethSend ⟨p, f.srcMac, f.srcIp, 0, 0, data, 3⟩
    return none
  | .udp dst sport dport data =>
    if own ∧ dst = ip then
      hid fun h => { h with bus := { h.bus with peers := sput h.bus.peers (peerKey p f.srcIp) f.srcMac } }
      return some (sport, dport, data)
    if many ∨ s.castIp p dst then inc (NET.STAT.BAD_FRAME p)
    return none
  | .fragment => return none
  | .other =>
    inc (NET.STAT.BAD_FRAME p)
    return none

end Sys2Proof.Machine
end

