-- ==== Sys2Proof/Machine/Sessions.lean ====
section
/-! DEFINITION. Sessions, passwords and the lockout (R59 to R62); the answers to requests (R39 to R42, R56). -/

namespace Sys2Proof.Machine

/-- Authority codes of R60; 0 is none. -/
abbrev authOperator : Nat := 1
abbrev authIntegrator : Nat := 2
abbrev authMetrology : Nat := 3

/-- A session by its number. -/
def State.session (s : State) (id : Nat) : Option Session := s.hid.cmd.sessions.find? fun x => x.id == id

/-- CMD.STATUS shows the open sessions and whether a segmented transfer is open. -/
def showSessions : M Unit := do
  let l := (← getS).hid.cmd.sessions
  let o := l.filter fun x => x.opened
  wf CMD.STATUS.SESSIONS_OPEN o.length
  wf CMD.STATUS.INTEGRATOR_OPEN (b2n (o.any fun x => x.auth == authIntegrator))
  wf CMD.STATUS.METROLOGY_OPEN (b2n (o.any fun x => x.auth == authMetrology))
  wf CMD.STATUS.SEG_ACTIVE (b2n (o.any fun x => x.seg.isSome))

/-- Put a list of sessions in place. -/
def putSessions (l : List Session) : M Unit := do
  hid fun h => { h with cmd := { h.cmd with sessions := l } }
  showSessions

/-- Update a session. -/
def updSession (id : Nat) (f : Session → Session) : M Unit := do
  putSessions ((← getS).hid.cmd.sessions.map fun x => if x.id = id then f x else x)

/-- A session, open or pending, ends. -/
def dropSession (id : Nat) : M Unit := do
  putSessions ((← getS).hid.cmd.sessions.filter fun x => x.id != id)

/-- The stored password of an authority; without one, the factory salt and the derivation of zero bytes (R62). -/
def State.pwd (s : State) (auth : Nat) : Pwd :=
  match s.hid.cmd.pwds.find? fun p => p.auth == auth with
  | some p => p
  | none =>
    let salt := (List.range 16).map (Config.factorySalt auth)
    ⟨auth, salt, pbkdf2 [] salt Config.iterations⟩

/-- Whether a password was set for an authority. -/
def State.pwdSet (s : State) (auth : Nat) : Bool := s.hid.cmd.pwds.any fun p => p.auth == auth

/-- Store a password's salt and derivation. -/
def storePwd (p : Pwd) : M Unit :=
  hid fun h => { h with cmd := { h.cmd with pwds := p :: h.cmd.pwds.filter fun q => q.auth != p.auth } }

/-- The lowest session number not in use. -/
def State.freeId (s : State) : Nat :=
  ((List.range 9).map (· + 1)).find? (fun i => (s.session i).isNone) |>.getD 9

/-- Whether no further session of an authority can open (R59); pending ones count. -/
def State.sessionLimit (s : State) (auth : Nat) : Bool :=
  decide (8 ≤ s.hid.cmd.sessions.length) ||
    ((auth == authIntegrator || auth == authMetrology) && s.hid.cmd.sessions.any fun x => x.auth == auth)

/-- Phase 0 (R60): a pending SESSION_ID with salt, nonce and iterations. -/
def openPhase0 (src : Source) (auth : Nat) : M (List Byte) := do
  let s ← getS
  let nonce ← freshBytes 16
  let id := s.freeId
  putSessions (s.hid.cmd.sessions ++ [⟨id, src, auth, false, [], nonce, s.hid.now, [], none, none⟩])
  return leBytes 2 id ++ leBytes 2 0 ++ (s.pwd auth).salt ++ nonce ++ leBytes 4 Config.iterations

/-- The event SESSION (R61): 1 at the start of the lock, 0 at its end. -/
def lockEvent (on : Bool) : M Unit := eventDev 0x8004 (by1 [b2n on, 0, 0, 0])

/-- A password did not match (R61); when PASSWORD_FAIL becomes lasting the lockout of 10 minutes starts. -/
def passwordFail : M Unit := do
  if ← occurrence 10 0 0 then
    hid fun h => { h with cmd := { h.cmd with lockEnd := some (h.now + 600000000) } }
    wf CMD.STATUS.LOCK_REMAIN 600
    lockEvent true

/-- Phase 1 (R60): the session opens, or the proof does not match; the answer tells which. -/
def openPhase1 (x : Session) (proof : List Byte) : M Bool := do
  let s ← getS
  let h := (s.pwd x.auth).hash
  if proof = hmac h (x.nonce ++ leBytes 2 x.id) then
    let key := hmac h (by1 [0x49, 0x41, 0x4C, 0x4B] ++ x.nonce)
    updSession x.id fun y => { y with opened := true, key := key, at_ := s.hid.now }
    return true
  dropSession x.id
  passwordFail
  return false

/-- The lockout ends (R61, R410). -/
def lockEnd : M Unit := do
  let s ← getS
  if s.hid.cmd.lockEnd.any fun e => decide (e ≤ s.hid.now) then
    hid fun h => { h with cmd := { h.cmd with lockEnd := none } }
    wf CMD.STATUS.LOCK_REMAIN 0
    clearLasting 10 0 4
    lockEvent false

/-- LOCK_REMAIN counts down on a tick. -/
def lockTick : M Unit := do
  let s ← getS
  match s.hid.cmd.lockEnd with
  | some e => wf CMD.STATUS.LOCK_REMAIN ((e - s.hid.now + 999999) / 1000000)
  | none => pure ()

/-- A pending SESSION_ID stops being pending 5 s after its phase 0 (R60). -/
def pendingExpiry (id : Nat) : M Unit := do
  let s ← getS
  match s.session id with
  | some x => if !x.opened ∧ x.at_ + 5000000 ≤ s.hid.now then dropSession id
  | none => pure ()

/-- A session without a packet for IDLE_TIMEOUT closes (R59). -/
def idleTimeout (id : Nat) : M Unit := do
  let s ← getS
  match s.session id with
  | some x => if x.opened ∧ x.at_ + 1000000 * s.f CMD.SESSION_CFG.IDLE_TIMEOUT ≤ s.hid.now then dropSession id
  | none => pure ()

/-- A segmented transfer without a segment for 100 ms is discarded (R55). -/
def segmentTimeout (id : Nat) : M Unit := do
  let s ← getS
  match s.session id with
  | some x =>
    match x.seg with
    | some g =>
      if g.last + 100000 ≤ s.hid.now then
        updSession id fun y => { y with seg := none, segLost := some g }
        inc CMD.STATS.SEG_ABANDONED
    | none => pure ()
  | none => pure ()

/-! ## Requests and their answers (R35, R37, R38) -/

/-- The header bytes of a request. -/
def packetHeader (op : Nat) (p : Packet) : List Byte :=
  leBytes 2 0x5A3C ++ [p.version, p.flags] ++ leBytes 2 p.seq.toNat ++ leBytes 2 op ++ leBytes 2 p.payload.length ++
    leBytes 2 p.session.toNat ++ [p.page] ++ leBytes 2 p.inst.toNat ++ [p.scope]

/-- The CRC of a request (R37). -/
def packetCrc (op : Nat) (p : Packet) : Nat := crc32c (packetHeader op p ++ p.payload)

/-- Whether FLAGS.AUTH is set. -/
def authSet (p : Packet) : Bool := bit p.flags.toNat 7

/-- The payload without the tag (R38). -/
def bodyOf (p : Packet) : List Byte := if authSet p then p.payload.take (p.payload.length - 16) else p.payload

/-- Whether the tag of a request is right under a key. -/
def tagOk (op : Nat) (p : Packet) (key : List Byte) : Bool :=
  decide (16 ≤ p.payload.length) &&
    p.payload.drop (p.payload.length - 16) == (hmac key (packetHeader op p ++ bodyOf p)).take 16

/-- Whether two sources are the same (R59): a UDP source is an address and a port. -/
def sameSource : Source → Source → Bool
  | .udp _ a p, .udp _ b q => a == b && p == q
  | x, y => x == y

/-- The open session of a packet, bound to its source. -/
def State.openSession (s : State) (p : Packet) : Option Session :=
  match s.session p.session.toNat with
  | some x => if x.opened && sameSource x.src p.src && p.session != 0 then some x else none
  | none => none

/-! ## Replies (R39, R41, R42, R56) -/

/-- The reply packet of an answer, before segmentation and tag. -/
def replyPkt (op : Nat) (p : Packet) (a : Ans) : OutPkt :=
  { version := p.version.toNat, flags := 1, seq := p.seq.toNat, opcode := op, session := p.session.toNat,
    page := p.page.toNat, inst := p.inst.toNat, scope := p.scope.toNat, first := true,
    payload := statusBlock a.status a.reason a.detail ++ a.data }

/-- The largest payload of a transport (R35, R73, R74). -/
def maxPayload : Source → Nat
  | .canxl .. => 2028
  | .udp .. => 1452
  | _ => 4096

/-- Send a reply, in segments where it is too long; NO_REPLY suppresses OK and ACCEPTED. A tunnel packet whose reply is
suppressed ends BUSY at once (DESIGN CHOICE, log entry 28: R71 names only the placing of the reply). -/
def sendReply (p : Packet) (key : Option (List Byte)) (r : OutPkt) : M Unit := do
  if bit p.flags.toNat 2 ∧ leAt r.payload 0 1 ≤ 1 then
    if p.src = .tunnel then wf CMD.TUNNEL_CTL.BUSY 0
  else
    let n := maxPayload p.src - (if key.isSome then 16 else 0)
    let k := max 1 ((r.payload.length + n - 1) / n)
    (List.range k).forM fun i => do
      let q : OutPkt := { r with
        flags := if i + 1 < k then 9 else 1, first := i == 0, payload := (r.payload.drop (n * i)).take n }
      let _ ← sendTo p.src (match key with
        | some x => q.signed x
        | none => q)

/-- The key a reply is signed with: that of the session, for a request that carried AUTH. -/
def State.replyKey (s : State) (p : Packet) : Option (List Byte) :=
  if authSet p then (s.openSession p).map fun x => x.key else none

/-- Answer a request that does not reach the executor. -/
def replyEarly (op : Nat) (p : Packet) (a : Ans) : M Unit := do
  let s ← getS
  sendReply p (s.replyKey p) (replyPkt op p a)

/-! ## The end of a stored sequence (R64, R65) -/

/-- A run is over: its request is completed, or the event of R65 is sent. That COMPLETION has no request: SEQ is 0, and
OPCODE 0x0091 and SESSION 0x0000 are the model's (DESIGN CHOICE, log entry 28). -/
def endRun (by_ : Option Packet) (a : Ans) : M Unit :=
  match by_ with
  | some _ => complete 0x91 0 a.status a.reason a.detail []
  | none => eventDev 0x8001 (leBytes 2 0 ++ leBytes 2 0x91 ++ leBytes 2 0 ++ statusBlock a.status a.reason a.detail)

end Sys2Proof.Machine
end

