-- ==== Sys2Proof/Machine/Islands.lean ====
section
/-! DEFINITION. Clock islands: absence and return, island RESET, loss of the reference and of the inter-die link
(R15, R24 to R32), and what a reset keeps (R29, R465). DESIGN CHOICE and DEDUCED points: log entry 24. -/

namespace Sys2Proof.Machine

/-! ## What an island holds -/

/-- The island that holds the parameter at an address (R19 to R29; DESIGN CHOICE, log entry 24). -/
def islandOf (a : Nat) : Option Nat :=
  match a / 65536 with
  | 0x01 => some 10
  | 0x02 => some 0
  | 0x03 => some 0
  | 0x04 => some 7
  | 0x05 => some 7
  | 0x06 => some 7
  | 0x07 => some 1
  | 0x08 =>
    let o := a % 65536
    if o < 0x100 then none else if o < 0x200 then some 2 else if o < 0x300 then some 3
    else if o < 0x600 then some 4 else some 5
  | 0x09 => some 0
  | 0x0A => some 6
  | 0x0B => some 5
  | 0x0D => some 8
  | 0x0E => some 1
  | 0x10 => some 15
  | 0x11 => some 15
  | 0x13 => some 11
  | 0x14 => some 9
  | 0x15 => some 9
  | _ => none

/-- The island that holds a table. -/
def tableIsland (id : Nat) : Option Nat :=
  if id = 0x20 then some 1 else if id = 0x30 ∨ id = 0x31 then some 0
  else if id = 0x40 ∨ (0x50 ≤ id ∧ id ≤ 0x58) then some 7
  else if id = 0x60 then some 15 else none

/-- The fields a device reset keeps or restores from MRAM or from the power-interface die (R465, and R86, R136, R156,
R180, R246, R295, R356, R362, R411, R435, R436, R461). -/
def keptFields : List FldAt :=
  (List.range 64).flatMap (fun e =>
    [⟨MEM.ERR0 e, 31, 0⟩, ⟨MEM.ERR1 e, 31, 0⟩]) ++
  [⟨MEM.WEAR, 31, 0⟩, ⟨MEM.WEAR_PAGE, 31, 0⟩, MEM.STATUS.SPARE_FREE, MEM.STATUS.RETIRED, MEM.SRAM.ROWS_FREE,
   ⟨LCY.STATE, 31, 0⟩, ⟨LCY.SUPPLY, 31, 0⟩, LCY.FW_STAT.ACTIVE 0, LCY.FW_STAT.ACTIVE 1,
   LCY.FW_STAT.SLOT_A 0, LCY.FW_STAT.SLOT_A 1, LCY.FW_STAT.SLOT_B 0, LCY.FW_STAT.SLOT_B 1,
   LCY.FW_STAT.SVN_MIN 0, LCY.FW_STAT.SVN_MIN 1,
   ⟨LCY.FW_VER 0 0, 31, 0⟩, ⟨LCY.FW_VER 0 1, 31, 0⟩, ⟨LCY.FW_VER 1 0, 31, 0⟩, ⟨LCY.FW_VER 1 1, 31, 0⟩,
   CMD.SEQ_AUTORUN.INDEX, ⟨CMD.VIOLATION, 31, 0⟩, ⟨FLG.STATUS, 31, 0⟩, ⟨SAF.CHANGE, 31, 0⟩,
   ⟨MTR.STATUS, 31, 0⟩, ⟨MTR.LOST, 31, 0⟩, ⟨MTR.ACK, 31, 0⟩, ⟨MTR.LAST, 31, 0⟩,
   ⟨NET.MAC_HI 0, 31, 0⟩, ⟨NET.MAC_LO 0, 31, 0⟩, ⟨NET.MAC_HI 1, 31, 0⟩, ⟨NET.MAC_LO 1, 31, 0⟩,
   SYS.LINK.LOSS_COUNT, SYS.BOOT.BOOTS, LVP.STATUS.BSW, LVP.STATUS.TIMER_EXP, LVP.TIMER_STAT.ELAPSED,
   DCL.STATUS.CHOP_FAULTY, ACT.STAT.PARK 0, GDR.DRV_FAILED.PAIRS, FLD.MAP_STAT.COMPLETE,
   MEA.SPARE.SA8_FAILED] ++ (List.range 9).map MEA.CONV_STAT.FAILED ++
  (List.range 8).flatMap (fun b => [TRP.BANK_STAT.DEGRADED b, TRP.BANK_STAT.FAILED b])

/-- The fields an island RESET keeps besides: latches of the output cells and fall-back, which are not held in an
island (R127, R149). -/
def keptLatches : List FldAt :=
  (List.range 32).map (fun g => (⟨TRP.GRP_TRIP g, 31, 0⟩ : FldAt)) ++ [GDR.ILK_FB0.SETS, GDR.ILK_FB1.SETS]

/-- The fields that show the level of a ball or a supply, which an island RESET does not change (R141, R150, R153). -/
def liveLevels : List FldAt :=
  GDR.STATUS.VDRV_OK :: (List.range 48).map GDR.FLT.ACTIVE ++ (List.range 24).map GDR.BST_STAT.BST_OK

/-- Return the parameters of a scope to their reset values, but for the kept fields. -/
def resetScope (scope : Nat → Bool) (kept : List FldAt) : M Unit := do
  let s ← getS
  let saved := (kept.filter fun x => scope x.addr).map fun x => (x, s.f x)
  act (.regsReset fun a => !scope a)
  saved.forM fun p => wf p.1 p.2

/-- The hidden state of islands 0 to 7 after their reset: groups keep their states and forces, outputs stay off. -/
def clearIsland (n : Nat) (h : Hidden) : Hidden :=
  match n with
  | 0 =>
    let cs := h.pls.chans.map fun p => (p.1, ({ on := p.2.on, sink := p.2.sink } : Chan))
    let pls := { h.pls with chans := cs, tbs := [], trgs := [], cals := [], committed := [], forced := [], met := [] }
    { h with pls := pls, trp := { h.trp with starved := [], fed := [], hand := none }, dcl := {} }
  | 1 => { h with lat := {}, cnv := {} }
  | 2 => { h with fld := { h.fld with eng := serase h.fld.eng 0 } }
  | 3 => { h with fld := { h.fld with eng := serase h.fld.eng 1 } }
  | 4 => { h with afe := {} }
  | 5 => { h with act := {} }
  | 6 => { h with pos := {} }
  | 7 =>
    let bs := h.trp.banks.map fun p => (p.1, ({ serves := p.2.serves } : Bank))
    { h with mea := {}, trp := { h.trp with cells := [], banks := bs } }
  | _ => h

/-- A data-plane island loses its parameters, tables and counters (R29). -/
def loseConfig (n : Nat) : M Unit := do
  if n = 0 then handLeft
  let s ← getS
  resetScope (fun a => islandOf a == some n) (keptFields ++ keptLatches ++ liveLevels)
  -- a ready input shows its level against the polarity (R152), whose reset value is 0
  if n = 7 then
    (List.range 8).forM fun r =>
      wf (GDR.RDY_CFG.READY r) (b2n (s.f (GDR.RDY_CFG.READY r) != s.f (GDR.RDY_CFG.POL r)))
  act (.tabsReset fun k => tableIsland (k / 16777216) != some n)
  hid (clearIsland n)
  if n = 0 then rebindGroups
  -- the numbers of the sub-windows begin again (DEDUCED, log entry 19)
  if n = 7 then updMtr fun m => { m with lastSeq := none, lastCyc := none, prev := none, hist := [] }

/-! ## States of an island -/

/-- The island an accepted operation works in: that of its comparator bank, drivers, channel or converter, the memories,
the Chord. -/
def Due.island (d : Due) : Option Nat :=
  match d.kind with
  | 0x50 => some 7
  | 0x80 => some (if d.unit < 0x0200 then 0 else 7)
  | 0xA0 => some 11
  | 0xB0 => some (12 + d.unit)
  | 0xB1 => some (12 + d.unit)
  | _ => none

/-- The parameter that tells of an accepted operation, for DETAIL of `TARGET_ABSENT` (R25). -/
def Due.addr (d : Due) : Nat :=
  match d.kind with
  | 0x50 => if d.unit < 0x0500 then TRP.BANK_STAT (d.unit - 0x0400) else PLS.GRP_STAT (d.unit - 0x0500)
  | 0x80 => if d.unit < 0x0200 then MAP.CHMAP d.unit 0 else MEA.CONV_STAT (d.unit - 0x0200)
  | 0xA0 => MEM.STATUS
  | _ => CHD.STATUS

/-- What an accepted operation leaves undone when its island leaves service. -/
def dropOperation (d : Due) : M Unit := do
  match d.kind with
  | 0x50 => if d.unit < 0x0500 then updBank (d.unit - 0x0400) fun r => { r with testing := false }
  | 0x80 =>
    if d.unit < 0x0200 then
      wf MAP.STATUS.HANDOVER 0
      hid fun x => { x with trp := { x.trp with hand := none } }
    else
      updMea fun x => { x with subNext := none }
      hid fun h => { h with trp := { h.trp with conv := none } }
  | 0xA0 =>
    hid fun h => { h with mem := { h.mem with scrub := none } }
    wf MEM.STATUS.SCRUB_ACTIVE 0
  | _ =>
    updChord d.unit fun r => { r with toSplit := false, joining := false }
    if (← getS).chd d.unit = 3 then
      setChd d.unit 0 0xB0
      giveBack (otherChd d.unit) 0xB0

/-- The operations accepted for an island that leaves service are completed with `TARGET_ABSENT` (R24). -/
def abandonOperations (n : Nat) : M Unit := do
  let s ← getS
  (s.hid.cmd.due.filter fun d => d.island == some n).forM fun d => do
    dropOperation d
    absentReply n
    sendCompletion d stFailed 0x010B d.addr []

/-- The island of the Chord that runs the executor leaves service: the stored sequence that runs and the requests that
wait end with `TARGET_ABSENT` (R24); no parameter governs them, so DETAIL names the island (DEDUCED, log entry 24). -/
def abandonRequests (n : Nat) : M Unit := do
  let s ← getS
  if n = 12 + s.executorChord then
    let a := absentAt (SYS.ISLAND n)
    match s.hid.cmd.run with
    | some r =>
      hid fun h => { h with cmd := { h.cmd with run := none, runResult := none, runSeg := none } }
      wf CMD.STATUS.EXEC_BUSY 0
      absentReply n
      endRun r.by_ a
    | none => pure ()
    hid fun h => { h with cmd := { h.cmd with waiting := [] } }
    s.hid.cmd.waiting.forM fun r => do
      absentReply n
      replyEarly r.op r.p a

/-- An island changes state: ISLAND_CHANGE carries n, the old and the new state (R29). What was accepted for one that
leaves service ends (R24). -/
def setIsland (n new : Nat) : M Unit := do
  let old ← rf (SYS.ISLAND.STATE n)
  if old ≠ new then
    wf (SYS.ISLAND.STATE n) new
    eventDev 0x8010 (by1 [n, old, new, 0])
    if old = 2 then
      abandonOperations n
      abandonRequests n

/-- What follows the absence of a data-plane island without a RESET (R28): groups that run through it take their safe
state. -/
def islandGone (n : Nat) : M Unit := do
  let s ← getS
  let using_ := groups.filter fun g => s.active g && s.usesIsland g n
  if n < 8 ∧ !using_.isEmpty then
    using_.forM fun g => forceAct g 8 1
    occur 1 n (SYS.ISLAND n)

/-- An island's clock deviates, or its PLL alone loses lock (R15). -/
def clockDeviation (n : Nat) (pll : Bool) : M Unit := do
  if pll then
    wf (SYS.ISLAND.PLL_LOST n) 1
    wf (SYS.ISLAND.PLL_LOCK n) 0
  else wf (SYS.ISLAND.CLK_MON_ERR n) 1
  let was ← rf (SYS.ISLAND.STATE n)
  setIsland n 0
  occur 0 n (SYS.ISLAND n)
  if was ≠ 0 then islandGone n

/-- The 25 MHz reference is lost (R15): islands keep their state, every group is forced, the device enters SAFE. -/
def referenceLoss : M Unit := do
  hid fun h => { h with lcy := { h.lcy with refLost := true } }
  (List.range 16).forM fun n => do
    wf (SYS.ISLAND.PLL_LOST n) 1
    wf (SYS.ISLAND.PLL_LOCK n) 0
  (List.range 16).forM fun n => occur 0 n (SYS.ISLAND n)
  allSafe 0

/-- An island reports PRESENT (R29, R333, R336, R341): its PLL is locked and its clock was right for a window, which no
island reaches without the reference (R15). One that was absent has lost its configuration.
`regsOk` is the CRC check of the metrology registers. -/
def islandPresent (n : Nat) (regsOk : Bool) : M Unit := do
  let s ← getS
  let st := s.f (SYS.ISLAND.STATE n)
  if (st = 0 ∨ st = 1 ∨ st = 3) ∧ !s.hid.lcy.refLost then
    wf (SYS.ISLAND.PLL_LOCK n) 1
    if st = 0 then
      if n < 8 then loseConfig n
      setIsland n 1
    setIsland n 2
    if n = 7 then
      (List.range 8).forM showBank
      restoreConv
      if s.hid.trp.rotating then startRotation
    if n = 10 then linkReturns
    if n = 8 then
      meterReturn false (st == 3) regsOk

/-- No valid inter-die frame for 1 µs (R31, R32). -/
def linkLost : M Unit := do
  wf SYS.LINK.LINK_LOST 1
  inc SYS.LINK.LOSS_COUNT
  holdLink 2
  occur 2 0 SYS.LINK

/-! ## RESET of an island (R27, R29, R30) -/

/-- Whether RESET of an island is accepted (R27); `mtr` tells a METROLOGY session. -/
def State.islandResetOk (s : State) (n : Nat) (mtr : Bool) : Bool :=
  if n = 0 then groups.all fun g => s.gst g == .off || s.gst g == .configured || s.gst g == .safe
  else if n < 8 then groups.all fun g => !(s.active g && s.usesIsland g n)
  else if n = 8 then mtr
  else n != 12 && n != 15

/-- A reset of the host-link island (R30): open segmented transfers of CAN XL and UDP, and packets on their way out by a
transmit queue, are discarded. -/
def resetLink : M Unit := do
  let s ← getS
  let wide (x : Source) : Bool := match x with
    | .canxl .. => true
    | .udp .. => true
    | _ => false
  putSessions (s.hid.cmd.sessions.map fun x => if wide x.src then { x with seg := none } else x)
  (List.range 4).forM fun n => do
    let l := (mget ({} : CanSt) s.hid.bus.can n).tx.filter fun t => t.kind != 0
    hid fun h => { h with bus := { h.bus with can := mupd {} h.bus.can n fun c => { c with tx := l } } }
    wf (BUS.TX_STAT.QUEUED n) l.length

/-- A RESET of an island (R29): while it is ABSENT it only counts. Locking again and the window of the clock monitor pass
within the command; without the reference the island cannot lock and is ABSENT (log entry 24). -/
def resetIsland (n : Nat) : M Unit := do
  let s ← getS
  inc (SYS.ISLAND.RESETS n)
  if s.f (SYS.ISLAND.STATE n) ≠ 0 then
    if n = 8 then registerCommit
    setIsland n (if s.hid.lcy.refLost then 0 else 1)
    if n < 8 then loseConfig n

end Sys2Proof.Machine
end

