-- ==== Sys2Proof/Machine/Lifecycle.lean ====
section
/-! DEFINITION. Power-up, reset and boot, device states, life cycle, firmware update and derating (R460 to R479), and
SHIP (R364). DESIGN CHOICE and DEDUCED points: log entry 25. -/

namespace Sys2Proof.Machine

/-- Change the life-cycle record. -/
def updLcy (f : LcySt → LcySt) : M Unit := hid fun h => { h with lcy := f h.lcy }

/-- The life-cycle state (R468): 0 BLANK, 1 INTEGRATION, 2 FIELD, 3 SERVICE, 4 RETIRED. -/
def State.lcState (s : State) : Nat := s.f LCY.STATE.STATE

/-- The device state (R466). -/
def State.dev (s : State) : Nat := s.f SYS.STATUS.DEV_STATE

/-- Whether the block runs: not held in reset, and not in SHIP (R364, R462). -/
def State.awake (s : State) : Bool := !s.hid.lcy.held && s.dev != 6

/-- Whether every group is OFF or CONFIGURED. -/
def State.allIdle (s : State) : Bool := groups.all fun g => s.gst g == .off || s.gst g == .configured

/-! ## Reset (R461, R462, R465) -/

/-- The metrology island after a reset: its MRAM region holds; what no commit reached is lost without notice (R333). -/
def resetMeter (m : MtrSt) (commanded : Bool) : MtrSt :=
  let regs := if commanded then m.regs else m.commit
  let resid := if commanded then m.resid else m.commitRes
  let mono := if commanded then m.mono else m.commitMono * 1000000
  { m with regs := regs, resid := resid, mono := mono, e := [0, 0, 0], q := [0, 0, 0], prev := none, hist := [],
           lastSeq := none, gapHere := false, unlHere := false, startPend := false, endPend := false,
           lastCyc := none, told := 0, powerUp := true, missed := 0 }

/-- The state that is no parameter after a device reset: what MRAM and the power-interface die hold (R465). -/
def resetHidden (commanded : Bool) (cause : Nat) (h : Hidden) : Hidden :=
  let trans := h.lcy.trans
  let banks := h.trp.banks.map fun p => (p.1, ({ serves := p.2.serves } : Bank))
  let lcy : LcySt := { held := true, cause := cause, slots := h.lcy.slots, trans := trans, fellBack := h.lcy.fellBack,
                       coreLost := h.lcy.coreLost }
  let cells := h.pls.coreHeld.map fun c => (c, ({ on := true } : Chan))
  { now := h.now, resetAt := h.now, fresh := h.fresh
    cmd := { pwds := h.cmd.pwds, seqs := h.cmd.seqs }
    pls := { chans := cells, coreHeld := h.pls.coreHeld, coreLow := h.pls.coreLow }
    trp := { spares := h.trp.spares, latest := h.trp.latest, banks := banks, conv := h.trp.conv }
    flg := { chdFailed := h.flg.chdFailed }
    saf := { forceBad := h.saf.forceBad }
    fld := { written := h.fld.written }
    mtr := resetMeter h.mtr commanded
    lvp := { timer := h.lvp.timer }
    mem := { h.mem with scrub := none, merge := [], words := [] }
    lcy := lcy }

/-- Tables kept across a device reset (R465). -/
def keptTable (k : Nat) : Bool :=
  let id := k / 16777216
  (decide (0x10 ≤ id) && decide (id ≤ 0x13)) || id == 0x60 || id == 0x80

/-- A device reset begins; `commanded` tells that the device prepares it (R50, R333, R434). -/
def deviceReset (cause : Nat) (commanded : Bool) : M Unit := do
  if commanded then
    flushMerge
    registerCommit
    let s ← getS
    act .fltTake
    wf FLG.STATUS.ENTRIES (min 4096 (s.que.flt.length + s.que.fltQ.length))
  else
    loseMerge
    act .fltQDrop
  resetScope (fun _ => true) keptFields
  act (.tabsReset keptTable)
  act .spiClear
  hid (resetHidden commanded cause)

/-- The OK bit of supply `m` (R461): 0 core, 1 memory, 2 I/O, 3 analogue. -/
def supplyOk (m : Nat) : FldAt :=
  match m with
  | 0 => LCY.SUPPLY.CORE_OK
  | 1 => LCY.SUPPLY.MEM_OK
  | 2 => LCY.SUPPLY.IO_OK
  | _ => LCY.SUPPLY.A_OK

/-- POWER_ON (R356, R460): the supplies are up. After a brown-out they only return. -/
def powerOn : M Unit := do
  let s ← getS
  let back := s.hid.lcy.held && s.hid.lcy.cause == 3 && (List.range 4).any fun m => s.f (supplyOk m) == 0
  if !back then
    hid fun h => { h with pls := { h.pls with coreHeld := [], coreLow := [] }, lcy := { h.lcy with coreLost := false } }
    deviceReset 1 false
    wf SYS.LINK.LOSS_COUNT 0
    wf LVP.STATUS.BSW 1
  (List.range 4).forM fun m => wf (supplyOk m) 1

/-- The core die loses VDD_CORE (R31): the output cells of every group that is armed, or forced since, take and hold its
latched pattern. `coreHeld` lists the channels that are on in it. -/
def coreLoss : M Unit := do
  let s ← getS
  let held (c : Nat) : Bool := decide (s.chGroup c < 32) && (s.forcible (s.chGroup c) || s.gst (s.chGroup c) == .safe)
  let on (c : Nat) : Bool := held c && (s.grp (s.chGroup c)).asc && bit (s.chFlags c) 1
  let low (c : Nat) : Bool := held c && bit (s.chFlags c) 0
  hid fun h => { h with pls := { h.pls with
    coreHeld := channels.filter fun c => s.hid.pls.coreHeld.contains c || on c
    coreLow := channels.filter fun c => s.hid.pls.coreLow.contains c || low c } }
  updLcy fun l => { l with coreLost := true }
  inc SYS.LINK.LOSS_COUNT

/-- BROWNOUT (R461): a supply that was in order falls below its threshold. -/
def brownout (m : Nat) : M Unit := do
  if (← rf (supplyOk m)) = 1 then
    if m = 0 then coreLoss
    deviceReset 3 false
    wf (supplyOk m) 0
    inc LCY.SUPPLY.BROWNOUTS

/-! ## Firmware slots (R471, R475) -/

/-- State of slot `s` of image `k`: 0 EMPTY, 1 INCOMPLETE, 2 VALID, 3 PENDING, 4 FAILED. -/
def slotField (k s : Nat) : FldAt := if s = 0 then LCY.FW_STAT.SLOT_A k else LCY.FW_STAT.SLOT_B k

/-- A slot's record. -/
def State.slot (st : State) (k s : Nat) : FwSlot := mget {} st.hid.lcy.slots (2 * k + s)

/-- The slot the device takes (R475): VALID or PENDING, with the higher VERSION; of two equal ones either. -/
def State.bootSlot (s : State) (k any : Nat) : Option Nat :=
  let ok (i : Nat) : Bool := s.f (slotField k i) == 2 || s.f (slotField k i) == 3
  let v (i : Nat) : Nat := s.f (LCY.FW_VER.VERSION k i)
  match ok 0, ok 1 with
  | true, true => if v 0 = v 1 then some (any % 2) else if v 0 < v 1 then some 1 else some 0
  | true, false => some 0
  | false, true => some 1
  | false, false => none

/-- SVN of the image in a slot (R471). -/
def State.svn (s : State) (k i : Nat) : Nat := ((s.slot k i).header.getD 5 0).toNat

/-! ## Boot (R462 to R464, R476) -/

/-- The FAILED management Chords of MRAM are reapplied (R418). -/
def restoreChords : M Unit := do
  let s ← getS
  s.hid.flg.chdFailed.forM fun n => putChd n 4
  [1, 2].forM fun n => do
    if s.hid.flg.chdFailed.contains n ∧ !s.hid.flg.chdFailed.contains (otherChd n) then putChd (otherChd n) 5

/-- The metrology island's start (R463 step 6). -/
def startMeter (ok : Bool) : M Unit := do
  let s ← getS
  let any ← fresh
  match s.bootSlot 1 any with
  | some i =>
    if ok then
      wf (LCY.FW_STAT.ACTIVE 1) i
      wf (SYS.ISLAND.STATE 8) 2
      meterReturn true false true
    else wf (SYS.ISLAND.STATE 8) 0
  | none => wf (SYS.ISLAND.STATE 8) 0

/-- RESET_RELEASE (R462, R463 steps 1 to 7): the boot up to its waits. -/
def resetRelease (b : BootIn) : M Unit := do
  let s ← getS
  if s.hid.lcy.held ∧ b.resetN ∧ b.refOk ∧ b.testLow ∧ (List.range 4).all fun m => s.f (supplyOk m) == 1 then
    updLcy fun l => { l with held := false, relAt := s.hid.now }
    wf SYS.STATUS.HOSTMODE (b2n b.hostmode)
    wf SYS.STATUS.RESET_CAUSE s.hid.lcy.cause
    wf SYS.STATUS.LC_STATE s.lcState
    incWrap SYS.BOOT.BOOTS
    (List.range 16).forM fun n => do
      wf (SYS.ISLAND.STATE n) 2
      wf (SYS.ISLAND.PLL_LOCK n) 1
    if s.hid.lcy.fellBack then wf (LCY.FW_STAT.FALLBACK 0) 1
    showHeld
    if s.hid.lcy.coreLost then
      wf SYS.LINK.LINK_LOST 1
      updLcy fun l => { l with coreLost := false }
      occur 2 0 SYS.LINK
    let sram ← wipeSram b.sramFails
    if s.hid.lcy.trans.isSome then wf MEM.STATUS.WIPE_PENDING 1
    let any ← fresh
    match (← getS).bootSlot 0 any with
    | none =>
      wf (SYS.ISLAND.STATE 8) 0
      wf SYS.STATUS.RECOVERY 1
      wf SYS.STATUS.HOSTMODE 1
      setDev 4
    | some i =>
      wf (LCY.FW_STAT.ACTIVE 0) i
      restoreChords
      wf SAF.STATUS.DIAG_OK (b2n b.cd0Ok)
      startMeter b.mtrOk
      showSpares
      (List.range 8).forM showBank
      restoreConv
      setAvail
      setCfgCrc
      let s ← getS
      if !sram ∨ !b.recordsOk ∨ !b.cd0Ok ∨ s.chd 0 = 4 ∨ (s.chd 1 = 4 ∧ s.chd 2 = 4) then setDev 4

/-- STANDBY_REACHED (R463 step 9, R464, R474, R475): the answer tells that the device is in STANDBY. -/
def standbyReached : M Bool := do
  let s ← getS
  if s.hid.lcy.held ∨ s.dev ≠ 0 ∨ s.f MEM.STATUS.WIPE_PENDING = 1 then return false
  if s.f MEA.REF.INT_SETTLED = 0 then
    occur 63 0 0
    setDev 4
    return false
  wf SYS.BOOT.BOOT_TIME (min 0xFFFF ((s.hid.now - s.hid.lcy.relAt) / 10))
  [0, 1].forM fun k => do
    if k = 0 ∨ s.present 8 then
      let i := s.f (LCY.FW_STAT.ACTIVE k)
      wf (slotField k i) 2
      wf (LCY.FW_STAT.SVN_MIN k) (max (s.svn k i) (s.f (LCY.FW_STAT.SVN_MIN k)))
  startRotation
  setDev 1
  if s.hid.lcy.fellBack then
    occur 221 0 0
    updLcy fun l => { l with fellBack := false }
  return true

/-- BOOT_FALLBACK (R475). -/
def bootFallback : M Unit := do
  let s ← getS
  if !s.hid.lcy.held ∧ s.dev = 0 then
    wf (slotField 0 (s.f (LCY.FW_STAT.ACTIVE 0))) 4
    updLcy fun l => { l with fellBack := true }
    deviceReset 8 true

/-! ## Device states (R466, R467) -/

/-- The causes of DEGRADED (SYS.STATUS.DEG_CAUSE). -/
def State.degCause (s : State) : Nat :=
  b2n (s.chd 1 == 4 || s.chd 2 == 4) +
  2 * b2n ((List.range 8).any fun b => s.f (TRP.BANK_STAT.DEGRADED b) == 1) +
  4 * b2n (s.f MEA.SPARE.SA8_FAILED == 1 || s.f MEA.SPARE.IN_USE == 1) +
  8 * b2n (s.rd GDR.ILK_FB0 != 0 || s.rd GDR.ILK_FB1 != 0) +
  16 * b2n ((List.range 9).any fun b => s.f (PLS.CAL.COARSE_ONLY b) == 1) +
  32 * b2n (s.f SAF.STATUS.DEGRADED == 1) +
  64 * b2n ((List.range 2).any fun m => s.f (FLD.MCH_CFG.EN m) == 1 && s.f (FLD.MCH_STAT.MODE m) != 0) +
  128 * b2n (decide (0 < s.f LCY.THERM.STEP))

/-- DEVICE_STATE_EVALUATION (R466): on each tick. -/
def deviceStateEvaluation : M Unit := do
  let s ← getS
  if s.awake ∧ s.dev ≠ 0 then
    wf SYS.STATUS.DEG_CAUSE s.degCause
    match s.dev with
    | 1 => if !s.allIdle then setDev 2
    | 2 => if s.allIdle then setDev 1 else if s.degCause ≠ 0 then setDev 3
    | 3 => if s.allIdle then setDev 1 else if s.degCause = 0 then setDev 2
    | _ => pure ()

/-- The refusal of an LCY.CMD (R467): address and reason; `integrator` tells an INTEGRATOR session. -/
def State.lcyCmdRefusal (s : State) (cmd : Nat) (integrator : Bool) : Option (Nat × Nat) :=
  if cmd = 1 then
    if s.dev = 1 ∧ integrator ∧ (s.lcState = 1 ∨ s.lcState = 3) then none else some (SYS.STATUS, 0x0107)
  else if s.dev ≠ 5 then some (SYS.STATUS, 0x0107)
  else if !s.allIdle then some (LCY.CMD, 0x1602)
  else none

/-- An accepted LCY.CMD. -/
def lcyCommand (cmd : Nat) : M Unit := setDev (if cmd = 1 then 5 else 1)

/-! ## Life cycle (R468 to R470) -/

/-- The permitted transitions. -/
def lcSuccessor (a b : Nat) : Bool :=
  [(0, 1), (1, 2), (2, 3), (3, 2), (2, 4), (3, 4)].contains (a, b)

/-- The refusal of LIFECYCLE_ADVANCE: reason and detail. `svcLow` tells the level of SVC_BTN. -/
def State.advanceRefusal (s : State) (target : Nat) (svcLow : Bool) : Option (Nat × Nat) :=
  if s.lcState = 4 then some (0x160C, 0)
  else if !lcSuccessor s.lcState target then some (0x1601, 0)
  else if !s.allIdle ∨ s.dev ≠ 1 then some (0x1602, 0)
  else if s.lcState = 1 ∧ (!s.pwdSet authOperator ∨ !s.pwdSet authIntegrator) then some (0x1603, 0)
  else if !s.hid.lcy.upd.isEmpty then some (0x1604, 0)
  else if s.lcState = 2 ∧ target = 3 ∧ !svcLow then some (0x1605, 0)
  else if target = 4 ∧ (s.f MTR.ACK.RSEQ ≠ s.f MTR.LAST.RSEQ ∨ s.f MTR.STATUS.SESSION_OPEN = 1) then
    some (0x0D03, MTR.ACK)
  else if s.hid.lcy.trans.isSome ∨ s.hid.lcy.resetDue then some (0x0107, LCY.STATE)
  else none

/-- The regions a transition wipes (R469). -/
def wipedRegions (old new : Nat) : List Nat :=
  if old = 0 ∧ new = 1 then [1, 3, 4, 5, 6] else if new = 4 then [1, 2, 3, 4, 5, 6] else []

/-- The fields region STATE holds that are no hardware record (R469). -/
def stateRecords : List FldAt :=
  [DCL.STATUS.CHOP_FAULTY, ACT.STAT.PARK 0, LVP.STATUS.TIMER_EXP, LVP.TIMER_STAT.ELAPSED]

/-- Return fields to their reset values. -/
def resetFields (l : List FldAt) : M Unit :=
  l.forM fun x => wf x (bitsOf (resetWord x.addr) x.hi x.lo)

/-- A wipe of region STATE (R469): the marks of failed hardware stay, substitutions go. -/
def wipeStateRegion : M Unit := do
  resetFields stateRecords
  hid fun h => { h with trp := { h.trp with spares := h.trp.spares.filter fun p => p.2 == .failed, latest := [] } }
  showSpares
  let s ← getS
  match s.hid.trp.conv with
  | none => pure ()
  | some k =>
    if s.f (MEA.CONV_STAT.FAILED k) = 0 then
      hid fun h => { h with trp := { h.trp with conv := none } }
      resetFields [MEA.SPARE.IN_USE, MEA.SPARE.SERVES, MEA.CONV_STAT.PHYS k]

/-- The contents of a wiped region go (R428, R469). -/
def wipeContents (r : Nat) : M Unit := do
  match r with
  | 1 => wipeStateRegion
  | 2 => hid fun h => { h with cmd := { h.cmd with pwds := h.cmd.pwds.filter fun p => p.auth == authMetrology } }
  | 3 =>
    act .vioClear
    act .fltClear
    act .chgClear
    resetFields [⟨CMD.VIOLATION, 31, 0⟩, FLG.STATUS.OVERWRITTEN, FLG.STATUS.ENTRIES, SAF.CHANGE.OVERWRITTEN,
      SAF.CHANGE.ENTRIES]
  | 4 =>
    act (.tabsReset fun k => k / 16777216 != 0x60)
    hid fun h => { h with cmd := { h.cmd with seqs := [] } }
    resetFields [CMD.SEQ_AUTORUN.INDEX]
    setCfgCrc
  | 5 =>
    act (.tabsReset fun k => k / 16777216 < 0x10 || 0x13 < k / 16777216)
    resetFields [FLD.MAP_STAT.COMPLETE]
    hid fun h => { h with fld := { h.fld with written := [] } }
  | 6 =>
    act (.tabsReset fun k => k / 16777216 != 0x80)
    resetFields [⟨MTR.STATUS, 31, 0⟩, ⟨MTR.LOST, 31, 0⟩, ⟨MTR.ACK, 31, 0⟩, ⟨MTR.LAST, 31, 0⟩]
    hid fun h => { h with mtr := { digest := h.mtr.digest },
                          cmd := { h.cmd with pwds := h.cmd.pwds.filter fun p => p.auth != authMetrology } }
  | _ => pure ()

/-- A change-log entry whose ADDRESS names no parameter and no table: the spec does not state those bits. -/
def changeFree (kind old new session transport : Nat) : M Unit := do
  change kind ((← fresh) % 16777216) old new session transport

/-- The new life-cycle state is committed (R469). Without a request to complete, after a wipe resumed at boot, no reset
follows. -/
def commitTransition (target session transport : Nat) : M Unit := do
  wf LCY.STATE.STATE target
  inc LCY.STATE.TRANSITIONS
  wf SYS.STATUS.LC_STATE target
  wf SYS.BOOT.BOOTS 0
  wf MEM.STATUS.WIPE_PENDING 0
  changeFree 5 0 target session transport
  let due := ((← getS).findDue 0xC0 0).isSome
  updLcy fun l => { l with trans := none, resetDue := due }
  complete 0xC0 0 stOk 0 0 []

/-- An accepted LIFECYCLE_ADVANCE (R469). -/
def lcAdvance (target session transport : Nat) : M Unit := do
  let s ← getS
  if (wipedRegions s.lcState target).isEmpty then commitTransition target session transport
  else
    updLcy fun l => { l with trans := some (target, session, transport) }
    wf MEM.STATUS.WIPE_PENDING 1

/-- REGION_WIPE_COMPLETE (R438, R469): every wipe was verified, or a page failed its read-back. -/
def regionWipeComplete (fail : Option Nat) : M Unit := do
  let s ← getS
  match s.hid.lcy.trans with
  | none => pure ()
  | some (target, session, transport) =>
    if s.f MEM.STATUS.WIPE_PENDING = 1 ∧ fail.all fun p => (wipedRegions s.lcState target).contains (regionOf p) then
      let rs := wipedRegions s.lcState target
      -- every region up to that of the failing page was programmed before the read-back (DEDUCED, log entry 25)
      (rs.filter fun r => fail.all fun p => decide (r ≤ regionOf p)).forM fun r => do
        wipeRegion r
        wipeContents r
      match fail with
      | some p =>
        wf MEM.STATUS.WIPE_PENDING 0
        updLcy fun l => { l with trans := none }
        occur 196 0 (pageDetail p)
        complete 0xC0 0 stFailed 0x1304 (pageDetail p) []
      | none => commitTransition target session transport

/-- LIFECYCLE_RESET (R469): 1 ms after COMPLETION. -/
def lifecycleReset : M Unit := do
  if (← getS).hid.lcy.resetDue then deviceReset 6 true

/-! ## Firmware update (R471 to R474, R476) -/

/-- A little-endian field of an image header. -/
def hdrN (h : List Byte) (o n : Nat) : Nat := ofLe ((h.drop o).take n)

/-- The image of a header's KIND: 0 management, 1 metrology. -/
def hdrKind (h : List Byte) : Option Nat :=
  match hdrN h 4 1 with
  | 1 => some 0
  | 2 => some 1
  | _ => none

/-- Bytes an image of kind `k` may have. -/
def fwMax (k : Nat) : Nat := if k = 0 then 2097152 else 524288

/-- Why a begin is refused (R470 to R472). -/
def State.fwBeginRefusal (s : State) (h : List Byte) : Option Nat :=
  if s.lcState = 4 then some 0x160C else
  match hdrKind h with
  | none => some 0x1606
  | some k =>
    if h.take 4 ≠ by1 [0x49, 0x41, 0x4C, 0x46] ∨ hdrN h 12 4 % 1024 ≠ 0 ∨ hdrN h 12 4 = 0 ∨ fwMax k < hdrN h 12 4 then
      some 0x1606
    else if hdrN h 5 1 < s.f (LCY.FW_STAT.SVN_MIN k) then some 0x1607
    else if (sget? s.hid.lcy.upd k).isSome then some 0x1604
    else if k = 1 ∧ s.f MTR.STATUS.SESSION_OPEN = 1 then some 0x0D02
    else none

/-- The slot an update writes: the one the device did not boot from; slot A in recovery (R471, R476). -/
def State.targetSlot (s : State) (k : Nat) : Nat :=
  if k = 0 ∧ s.f SYS.STATUS.RECOVERY = 1 then 0 else 1 - s.f (LCY.FW_STAT.ACTIVE k)

/-- An accepted begin (R471). -/
def fwBegin (h : List Byte) : M Unit := do
  let s ← getS
  let k := (hdrKind h).getD 0
  let i := s.targetSlot k
  wf (slotField k i) 1
  wf (LCY.FW_VER.VERSION k i) (hdrN h 8 4)
  updLcy fun l => { l with
    upd := sput l.upd k ⟨i, h, s.hid.now, none, false, s.splitChd⟩
    slots := mupd {} l.slots (2 * k + i) fun x => { x with header := h } }

/-- Why a chunk or END is refused (R470, R472): `range` is OFFSET and length of a chunk. -/
def State.fwNextRefusal (s : State) (k : Nat) (range : Option (Nat × Nat)) : Option Nat :=
  if s.lcState = 4 then some 0x160C else
  match sget? s.hid.lcy.upd k with
  | none => some 0x1604
  | some u =>
    if u.sig.isSome then some 0x1604 else
    match range with
    | some (o, n) => if hdrN u.header 12 4 < o + n then some 0x1608 else none
    | none => none

/-- A packet of an open update arrived. -/
def fwTouch (k : Nat) : M Unit :=
  hid fun h => { h with lcy := { h.lcy with upd := h.lcy.upd.map fun p =>
    if p.1 = k then (p.1, { p.2 with since := h.now }) else p } }

/-- A transfer's bytes are written into the slot (R471). -/
def fwWrite (k o : Nat) (bs : List Byte) : M Unit := do
  let s ← getS
  match sget? s.hid.lcy.upd k with
  | none => pure ()
  | some u =>
    updLcy fun l => { l with slots := mupd {} l.slots (2 * k + u.slot) fun x =>
      { x with data := (bs.zip (List.range bs.length)).foldl (fun d p => swrite (fun _ => 0) d (o + p.2) p.1) x.data } }

/-- END is accepted: the slot is verified (R473). -/
def fwEnd (k : Nat) (sig : List Byte) (live : Bool) : M Unit :=
  hid fun h => { h with lcy := { h.lcy with upd := h.lcy.upd.map fun p =>
    if p.1 = k then (p.1, { p.2 with sig := some sig, live := live }) else p } }

/-- The bytes of an image in its slot. -/
def FwSlot.image (x : FwSlot) (len : Nat) : List Byte := (List.range len).map fun i => sget 0 x.data i

/-- CD0_DIGEST of the running image (R471, R474); that of the factory image is the part's own. -/
def State.cd0Digest (s : State) : List Byte :=
  let h := (s.slot 0 (s.f (LCY.FW_STAT.ACTIVE 0))).header
  if h = [] then (List.range 32).map fun i => Config.identityDigest (64 + i) else (h.drop 48).take 32

/-- Whether a live update is denied (R474). -/
def State.liveDenied (s : State) (h : List Byte) : Bool :=
  s.f SYS.STATUS.RECOVERY == 1 || (h.drop 48).take 32 != s.cd0Digest ||
    [1, 2].any fun n => s.chd n == 4 || s.chd n == 2 || s.chd n == 3 || s.chd n == 5

/-- The end of a management update is logged (R399, R473). -/
def fwChange (d : Option Due) : M Unit := do
  let (ses, tr) : Nat × Nat := match d with
    | some x => (x.p.session.toNat, srcCode x.p.src)
    | none => (0, 0)
  changeFree 6 0 ((← fresh) % 4294967296) ses tr

/-- FW_VERIFY_COMPLETE (R473, R474). -/
def fwVerifyComplete (k : Nat) : M Unit := do
  let s ← getS
  match sget? s.hid.lcy.upd k with
  | none => pure ()
  | some u =>
    match u.sig with
    | none => pure ()
    | some sig =>
      let slot := slotField k u.slot
      let digest := (u.header.drop 16).take 32
      updLcy fun l => { l with upd := serase l.upd k }
      if sha256 ((s.slot k u.slot).image (hdrN u.header 12 4)) ≠ digest then
        wf slot 4
        complete 0xD2 k stFailed 0x1609 0 []
      else if !Config.ecdsaVerify k (sha256 u.header) sig then
        wf slot 4
        complete 0xD2 k stFailed 0x160A 0 []
      else if k = 0 then
        wf slot 3
        fwChange (s.findDue 0xD2 0)
        if !u.live then complete 0xD2 0 stOk 0 0 []
        else if s.liveDenied u.header then complete 0xD2 0 stFailed 0x160B 0 []
        else updLcy fun l => { l with live := some u.slot }
      else
        wf slot 2
        wf (LCY.FW_STAT.ACTIVE 1) u.slot
        complete 0xD2 1 stOk 0 0 []
        updMtr fun m => { m with prevTag := ofLe (s.digest.take 4), digest := some digest }
        setIsland 8 3

/-- A management Chord takes the new image at a checkpoint (R474): UPDATING, then PRESENT; what it runs goes on. -/
def updateChord (n : Nat) : M Unit := do
  wf (SYS.ISLAND.STATE n) 3
  eventDev 0x8010 (by1 [n, 2, 3, 0])
  wf (SYS.ISLAND.STATE n) 2
  eventDev 0x8010 (by1 [n, 3, 2, 0])

/-- LIVE_UPDATE (R474): CD2, then CD1, takes the new image at a checkpoint. -/
def liveUpdate : M Unit := do
  let s ← getS
  match s.hid.lcy.live with
  | none => pure ()
  | some i =>
    -- the update begins at a checkpoint, which a Chord that restarts has yet to reach
    if s.chd 1 = 1 ∨ s.chd 2 = 1 ∨ !s.present 13 ∨ !s.present 14 then return
    updLcy fun l => { l with live := none }
    if s.liveDenied (s.slot 0 i).header then complete 0xD2 0 stFailed 0x160B 0 []
    else
      updateChord 14
      updateChord 13
      wf (slotField 0 i) 2
      wf (LCY.FW_STAT.ACTIVE 0) i
      complete 0xD2 0 stOk 0 0 []

/-- FW_UPDATE_TIMEOUT (R472): no packet for 10 s. -/
def fwUpdateTimeout (k : Nat) : M Unit := do
  let s ← getS
  match sget? s.hid.lcy.upd k with
  | some u => if u.sig.isNone ∧ u.since + 10000000 ≤ s.hid.now then updLcy fun l => { l with upd := serase l.upd k }
  | none => pure ()

/-! ## Derating (R477, R478) -/

/-- The derating step at a case estimate in 0.1 °C, from the step in force. -/
def deratingStep (cur : Nat) (t : Int) : Nat :=
  if 1200 ≤ t ∨ (cur = 2 ∧ 1170 ≤ t) then 2
  else if 1150 ≤ t ∨ (1 ≤ cur ∧ 1120 ≤ t) then 1
  else 0

/-- THERMAL_DERATING: `hot` tells that a junction sensor reads 150 °C or more. -/
def thermalDerating (t : Int) (hot : Bool) : M Unit := do
  let s ← getS
  if s.awake ∧ s.dev ≠ 0 then
    wf LCY.THERM.T_CASE (codeOf 12 (clampI (-2048) 2047 t))
    let cur := s.f LCY.THERM.STEP
    let new := deratingStep cur t
    if new ≠ cur then
      wf LCY.THERM.STEP new
      inc LCY.THERM.STEP_CHANGES
      [11, 10, 8].forM fun n => wf (SYS.ISLAND.CLK_STEP n) new
      eventDev 0x803C (by1 [new, 0] ++ leBytes 2 (codeOf 16 t))
    if 1 ≤ new then
      match s.splitChd with
      | some n => if !(s.chord n).joining then startJoin n
      | none => pure ()
    if 1250 ≤ t ∨ hot then
      if ← occurrence 220 0 0 then
        (groups.filter fun g => (s.machineOf g).isSome || s.active g).forM fun g => startSs1 g 220

/-! ## SHIP (R364) and the long press (R365) -/

/-- SHIP, accepted. -/
def enterShip : M Unit := do
  setBsw false
  (List.range 16).forM fun n => do
    if n ≠ 10 ∧ n ≠ 15 then setIsland n 4
  putSessions []
  setDev 6

/-- SHIP_EXIT: a button held for 1 s. -/
def shipExit (ms : Nat) : M Unit := do
  if (← getS).dev = 6 ∧ 1000 ≤ ms then
    setBsw true
    deviceReset 7 true

/-- LONG_PRESS_REOPEN (R365): after BSW_OFF_MS. -/
def longPressReopen : M Unit := do
  let s ← getS
  if s.hid.lvp.longOpen.any fun t => decide (t + s.f LVP.BTN.BSW_OFF_MS ≤ s.ms) then
    setBsw true
    deviceReset 5 true

end Sys2Proof.Machine
end

