-- ==== Sys2Proof/Machine/Guards.lean ====
section
/-! DEFINITION. What a host WRITE or MODIFY of one parameter may do: protection (R47, R52, R397), the parameters a group
locks while it is ARMED or RUNNING (R19 and the last rules of the chapters), value ranges, and the refusals the
chapters give. DESIGN CHOICE and DEDUCED points: log entry 26. -/

namespace Sys2Proof.Machine

/-- The request a word belongs to: opcode, authority (0 none, 1 OPERATOR, 2 INTEGRATOR, 3 METROLOGY), SESSION, and
TRANSPORT and SOURCE of the logs. -/
structure Ctx where
  op : Nat
  auth : Nat
  session : Nat
  transport : Nat
  source : Nat
  deriving DecidableEq, Repr

/-! ## Access (R7, R52) -/

/-- The bits a write stores. -/
def RegSpec.stored (r : RegSpec) : Word := r.rw ||| r.rws ||| r.rwl

/-- The writable bits of a parameter; the thresholds of a spare cell and T of region 0 are read only (R120, R430). -/
def RegSpec.writable (r : RegSpec) (a : Nat) : Word :=
  if (r.name = .TRP_THR ∧ isSpareCell (r.ix1 a)) ∨ (r.name = .MEM_REGION ∧ r.ix1 a = 0) then 0
  else r.stored ||| r.wo ||| r.w1c

/-- Whether a parameter is protected against a write of an authority (R47, R52, R397). -/
def State.writeProtected (s : State) (auth : Nat) (r : RegSpec) (a : Nat) : Bool :=
  (r.rws != 0 && auth != authIntegrator) ||
    (r.rwl != 0 && s.lcState == 2) ||
    (r.rws != 0 && a / 65536 == 0x10 && s.lcState == 2) ||
    (a / 65536 == 0x0D && auth != authMetrology) ||
    r.writable a == 0

/-- Whether a parameter is protected against a read of session 0 (R47, R52). -/
def RegSpec.readProtected (r : RegSpec) (a : Nat) : Bool := r.rws != 0 || a / 65536 == 0x0D

/-- The word a write of `v` leaves: writable bits take `v`, a 1 in a W1C field clears it. SAF.SIN.FAULT clears only by
passing pulses (R388), and bit 0 of MAP.ILK_HITS clears the whole count. -/
def RegSpec.after (r : RegSpec) (v old : Word) : Word :=
  let w := (v &&& r.stored) ||| (old &&& ~~~r.stored)
  if r.name = .SAF_SIN then w
  else if r.name = .MAP_ILK_HITS then (if v &&& 1 = 0 then w else 0)
  else w &&& ~~~(v &&& r.w1c)

/-! ## Locks while a group runs (R19) -/

/-- The groups that use a position unit (R259). -/
def State.unitGroups (s : State) (k : Nat) : List Nat := groups.filter fun g => (s.grpUnits g).contains k

/-- The groups an engine owns (R79): OWNER 0x1 + m. -/
def State.engineGroups (s : State) (m : Nat) : List Nat := groups.filter fun g => s.owner g == 1 + m

/-- A group named by a word's bits, when its enable bit is set. -/
def groupIn (w : Word) (en hi lo : Nat) : List Nat := if bitsOf w en en = 1 then [bitsOf w hi lo] else []

/-- The group of an actuator. -/
def State.actuatorGroup (s : State) (a : Nat) : List Nat := groupIn (s.rd (ACT.CFG a)) 31 30 26

/-- The groups of the rate groups whose cells name a template, enabled or not (R203, R209). -/
def State.templateGroups (s : State) (e : Nat) : List Nat :=
  ((List.range 8).filter fun n => (s.rgHeads n).any fun c =>
    s.dB c 48 == 1 && decide (s.dB c 50 ≤ e) && decide (e < s.dB c 50 + s.dB c 51)).map fun n => s.f (LAT.RG_CFG.GROUP n)

/-- The target groups of the safety functions. -/
def State.functionGroups (s : State) : List Nat := ([1, 2, 3, 4, 5, 6, 7].flatMap s.funcMask).dedup

/-- The groups a parameter bears on, that must not be ARMED or RUNNING when its stored bits are written: `w` is the word
the write would leave (R90, R91, R114, R143, R157, R169, R171, R175, R209, R240, R255, R285, R304, R368, R400). -/
def State.bears (s : State) (r : RegSpec) (a : Nat) (w : Word) : List Nat :=
  let i := r.ix1 a
  let old := s.rd a
  match r.name with
  | .PLS_TB_CFG | .PLS_TB_SYNC | .PLS_TRG_CFG => s.tbGroups i
  | .PLS_TB_PERIOD | .PLS_TRG_POS => (s.tbGroups i).filter fun g => g != s.f (PLS.TB_CFG.OWNER_GRP i)
  | .PLS_GRP_CFG => [i]
  | .PLS_DEADTIME => (s.ilkChans i).map s.chGroup
  | .GDR_DRV_CFG =>
    [s.chGroup (96 + 2 * i), s.chGroup (97 + 2 * i)] ++ ([96 + 2 * i, 97 + 2 * i].filterMap s.ofCell).map s.chGroup
  | .GDR_FLT => s.fltGroups i
  | .GDR_RDY_CFG => groupIn old 31 28 24 ++ groupIn w 31 28 24
  | .MEA_REF =>
    (if bitsOf old 31 31 ≠ bitsOf w 31 31 ∨ bitsOf old 11 0 ≠ bitsOf w 11 0 then s.instGroups 63 1 else []) ++
      (if bitsOf old 30 30 ≠ bitsOf w 30 30 then s.instGroups 63 2 else [])
  | .MEA_FORMAT => groups
  | .MEA_BIND => s.convGroups i
  | .LAT_RG_CFG => [bitsOf old 23 16, bitsOf w 23 16]
  | .LAT_TPL_CTL | .LAT_TPL_BASE | .LAT_TPL_COEF => s.templateGroups i
  | .FLD_MCH_CFG | .FLD_ANGLE | .FLD_IN_SLOT0 | .FLD_IN_SLOT1 | .FLD_I_SCALE | .FLD_V_SCALE | .FLD_MOTOR0
  | .FLD_MOTOR1 | .FLD_KP | .FLD_KI | .FLD_KXY | .FLD_MAP_PSI | .FLD_FW | .FLD_MOD | .FLD_NP | .FLD_RATING
  | .FLD_THERM | .FLD_FAULT_CFG | .FLD_POSTFAULT | .FLD_ASC_CFG => s.engineGroups i
  | .FLD_AFE_CFG | .FLD_AFE_SLOT | .FLD_AFE_ISLOT | .FLD_AFE_SCALE | .FLD_AFE_GAIN | .FLD_AFE_VLOOP | .FLD_AFE_WIN => s.engineGroups 2
  | .FLD_ACT_GAIN | .FLD_ACT_MOTOR | .ACT_SLOTS | .ACT_SCALE | .ACT_LIMITS | .ACT_LOOP | .ACT_MOVE => s.actuatorGroup i
  | .ACT_CFG => s.actuatorGroup i ++ groupIn w 31 30 26
  | .ACT_SPEEDS => s.actuatorGroup 0 ++ s.actuatorGroup 1
  | .ACT_PARK => s.actuatorGroup 0
  | .ACT_GEAR => s.actuatorGroup 1
  | .ACT_PUMP | .ACT_PUMP1 => s.actuatorGroup 3
  | .ACT_CPL_CFG => groupIn old 31 30 26 ++ groupIn w 31 30 26
  | .DCL_CTRL => if (old ^^^ w) &&& 0x9FFFFFFF = 0 then [] else s.dclGroups
  | .DCL_VSRC | .DCL_LEVELS | .DCL_CHOP | .DCL_UV | .DCL_STOP_MASK => s.dclGroups
  | .POS_PU_CFG | .POS_MODULUS | .POS_SSI | .POS_QUAD | .POS_HALL | .POS_RES_CFG | .POS_RES_SLOT | .POS_RES_TRK
  | .POS_RES_LIM => s.unitGroups i
  | .POS_OBS_CFG | .POS_OBS_GAIN | .POS_OBS_MOTOR | .POS_OBS_LIM | .POS_OBS_CATCH => s.engineGroups i
  | .CHG_LIMITS | .CHG_TIMES => groups.filter s.chargerGroup
  | .CNV_BUCK_CFG =>
    let rg (x : Word) : List Nat := if bitsOf x 31 31 = 1 then [s.f (LAT.RG_CFG.GROUP (bitsOf x 26 24))] else []
    rg old ++ rg w
  | .CNV_BUCK_PK | .CNV_BUCK_CELLS | .CNV_BUCK_SLOT | .CNV_HICCUP | .CNV_VSCALE | .LVP_CFG | .LVP_SLOTS
  | .LVP_SCALE | .LVP_VLIM | .LVP_VLIM1 | .LVP_PULSE | .LVP_TIMER | .LVP_FOLD | .LVP_BL | .LVP_VIN_REG | .LVP_BTN
  | .LVP_SRC_LIM => if s.f CNV.BUCK_CFG.EN = 1 then [s.buckGroup] else []
  | .SAF_CFG_EXPECT | .SAF_MSG_CFG | .SAF_MSG_CFG1 | .SAF_STL | .SAF_FUNC_CFG | .SAF_SIN | .SAF_SSUP | .SAF_SLS =>
    s.functionGroups
  | .SAF_FUNC_GRP => s.functionGroups ++ bitsSet w.toNat 32
  | _ => []

/-- Whether a write is locked by a group that is ARMED or RUNNING; a write that leaves the stored bits of a parameter
with W1C fields as they are is a W1C write only. -/
def State.locked (s : State) (r : RegSpec) (a : Nat) (v : Word) : Bool :=
  let old := s.rd a
  let w := r.after v old
  !(r.w1c != 0 && (w &&& r.stored) == (old &&& r.stored)) && (s.bears r a w).any s.active

/-- What forbids a write by the state of the device or of a group (R44 step 13): DETAIL of `WRONG_STATE`. -/
def State.wrongState (s : State) (r : RegSpec) (a : Nat) (v : Word) : Option Nat :=
  let i := r.ix1 a
  if s.locked r a v then some a else
  match r.name with
  | .CMD_TUNNEL_CTL | .CMD_TUNNEL_TX | .CMD_TUNNEL_RX => if s.packetMode then some SYS.STATUS else none
  | .CNV_BUCK_CFG =>
    let st := s.gst s.buckGroup
    if bitsOf (r.after v (s.rd a)) 30 30 ≠ s.f CNV.BUCK_CFG.MODE ∧ s.f CNV.BUCK_CFG.EN = 1 ∧ st ≠ .off ∧ st ≠ .configured then some a
    else none
  | .DCL_STATUS =>
    if bitsOf v 29 29 = 1 ∧ s.active (s.f DCL.CTRL.BRK_GROUP) then some a else none
  | .POS_PU_STAT => if bitsOf v 28 28 = 1 ∧ (s.unitGroups i).any s.active then some a else none
  | .ACT_CMD => if bitsOf v 31 28 = 1 ∧ s.f (ACT.STAT.STATE i) = 3 then some (ACT.STAT i) else none
  | .BUS_CTRL => if bitsOf v 25 25 = 1 ∧ s.f (BUS.STAT.STATE i) ≠ 2 then some (BUS.STAT i) else none
  | .BUS_TIME_LO | .BUS_TIME_HI => if s.f BUS.TIME_CFG.ROLE = 2 then some BUS.TIME_CFG else none
  | _ => none

/-! ## Value ranges -/

/-- Whether a field outside its range is written, which no consistency check judges later (`BAD_FIELD`, R43). -/
def RegSpec.badValue (r : RegSpec) (a : Nat) (v w : Word) : Bool :=
  let i := r.ix1 a
  let b := bitsOf w
  let out (x lo hi : Nat) : Bool := decide (x < lo) || decide (hi < x)
  match r.name with
  | .CMD_SESSION_CFG => out (b 31 16) 10 3600
  | .PLS_TB_SYNC => b 31 30 == 3
  | .PLS_TRG_CFG => b 30 29 == 3
  | .PLS_GRP_CFG => !out (b 31 28) 5 7
  | .MEA_REF => out (b 11 0) 2048 3000
  | .MEA_MAINS_CFG => b 29 28 == 3
  | .POS_PU_CFG => b 24 19 == 0 || b 18 14 == 0
  | .POS_MODULUS => decide (3 < b 30 28)
  | .POS_SSI => decide (40 < b 21 16) || decide (32 < b 15 10) || b 8 7 == 3 || b 5 0 == 0
  | .POS_PT_CFG => decide (5 < b 29 27)
  | .POS_PCMP_CFG => b 30 29 == 3
  | .ACT_CMD => decide (1 < b 31 28) || (i == 0 && decide (1 < b 23 0))
  | .ACT_CPL_CMD => b 31 30 == 3
  | .CHG_CFG => !out (b 27 20) 0x20 0xFE || !out (b 19 12) 0x20 0xFE || out (b 11 7) 1 20
  | .CHG_CMD => out (bitsOf v 31 28) 1 3
  | .LVP_CMD => out (bitsOf v 31 28) 1 6
  | .LCY_CMD => out (bitsOf v 31 28) 1 2
  | .MTR_CFG => out (b 31 26) 1 60
  | .SAF_MSG_CFG => b 7 4 == 0 || b 3 0 == 0
  | .SAF_FUNC_CFG =>
    if i = 1 then b 14 0 != 0 else if i = 2 ∨ i = 6 then false else b 15 0 != 0
  | .SAF_SIN => b 27 24 == 0 || out (b 23 15) 1 500
  | .SAF_SSUP => b 23 16 == 0
  | .MEM_CFG => out (b 31 25) 1 100
  | .MEM_REGION => out (b 31 26) 4 40
  | .BUS_TIME_CFG => b 30 29 == 3 || b 15 8 == 0
  | .BUS_CTRL => b 30 29 == 3
  | _ => false

/-! ## Refusals of the chapters (R44 step 16) -/

/-- A GO to an actuator (R294, R297, R380): address and reason. -/
def State.goRefusal (s : State) (a target : Nat) : Option (Nat × Nat) :=
  if a = 0 then
    if target = 1 then (s.speedBar (s.f ACT.SPEEDS.PARK_RPM)).map fun x => (x, 0x0B04)
    else if s.funcActive 6 then some (SAF.FUNC_STAT 6, 0x1003) else none
  else if a = 1 then
    if 7 < target ∨ s.f (ACT.GEAR.EN (target % 8)) = 0 then some (ACT.GEAR (target % 8), 0x0B06)
    else if s.f (ACT.GEAR.REVERSE (target % 8)) = 1 then
      (s.speedBar (s.f ACT.SPEEDS.REV_RPM)).map fun x => (x, 0x0B05)
    else none
  else none

/-- Whether a write of PT_CFG is refused (R276). -/
def State.ptBad (s : State) (w : Word) : Bool :=
  let src := bitsOf w 29 27
  let m := s.puMode src
  (bitsOf w 31 30 == 1 && (m == 1 || m == 5)) || m == 0 || bitsOf w 23 8 == 0 || decide (bitsOf w 7 0 < 4)

/-- The refusal of a write of LAT.TARGET or of a Lattice set-point (R202, R311, R360). -/
def State.targetRefusal (s : State) (c : Nat) : Option (Nat × Nat) :=
  if s.cascaded c then some (LAT.TARGET c, 0x0709)
  else if s.f CHG.CFG.EN = 1 ∧ s.f CHG.LIMITS.I_CELL = c then some (CHG.CFG, 0x0C05)
  else if s.lvpOwns c then some (LVP.CFG, 0x0F06)
  else none

/-- The refusal of a write by the rules of its chapter: address and reason. -/
def State.writeRefusal (s : State) (auth : Nat) (r : RegSpec) (a : Nat) (v : Word) : Option (Nat × Nat) :=
  let i := r.ix1 a
  let old := s.rd a
  let w := r.after v old
  match r.name with
  | .CMD_TUNNEL_CTL =>
    if bitsOf v 31 31 = 1 then
      if bitsOf v 12 0 < 20 ∨ 4116 < bitsOf v 12 0 then some (a, 0x0103)
      else if s.f CMD.TUNNEL_CTL.BUSY = 1 then some (a, 0x010A) else none
    else none
  | .PLS_RISE | .PLS_FALL =>
    let g := s.chGroup i
    if g < 32 ∧ s.active g ∧ s.loopOwned g then some (a, 0x0308) else none
  | .TRP_GRP_TRIP =>
    if bitsOf v 31 31 = 1 then
      match s.tripPresent i with
      | some x => some (x, 0x0403)
      | none => if s.l2Holds i then some (DCL.STATUS, 0x0403) else none
    else none
  | .LAT_TARGET => s.targetRefusal i
  | .FLD_TQ_REQ => if s.f (FLD.MCH_CFG.TQ_SRC i) = 1 then some (a, 0x0807) else none
  | .FLD_AFE_LIM => if s.f CHG.CFG.EN = 1 then some (CHG.CFG, 0x0C05) else none
  | .POS_PT_CFG => if s.ptBad w then some (a, 0x0A08) else none
  | .POS_PCMP_TGT | .POS_PCMP_CFG =>
    let named := (List.range 4).any fun x => s.f (ACT.CFG.EN x) == 1 && s.f (ACT.CFG.PU x) == i
    if 6 ≤ r.ix2 a ∧ named then some (a, 0x0B08) else none
  | .ACT_CMD => if bitsOf v 31 28 = 1 then s.goRefusal i (bitsOf v 23 0) else none
  | .ACT_CPL_CMD => s.cplRefusal (bitsOf v 31 30)
  | .CHG_CFG =>
    let st := s.chgState
    if st = 3 ∨ st = 4 ∨ st = 5 then some (a, 0x0C03)
    else if bitsOf w 30 30 = 1 ∧ bitsOf w 29 29 = 0 then some (a, 0x0C04) else none
  | .CHG_CMD => s.chgCmdRefusal (bitsOf v 31 28)
  | .CHG_REQ =>
    let q := sx16 (bitsOf w 31 16)
    if (s.f CHG.CFG.DIR = 0 ∧ q < 0) ∨ (s.f CHG.CFG.DIR = 1 ∧ 0 < q) then some (a, 0x0C06) else none
  | .MTR_ACK =>
    if w.toNat < s.f MTR.ACK.RSEQ ∨ s.f MTR.LAST.RSEQ < w.toNat then some (a, 0x0D05) else none
  | .MTR_TIME_HI => if s.f MTR.STATUS.SESSION_OPEN = 1 then some (MTR.STATUS, 0x0D02) else none
  | .CNV_VSET => if s.lvpOwns (s.f CNV.VSCALE.VCELL) then some (LVP.CFG, 0x0F06) else none
  | .LVP_CMD => s.lvpCmdRefusal (bitsOf v 31 28)
  | .LCY_CMD => s.lcyCmdRefusal (bitsOf v 31 28) (auth == authIntegrator)
  | .BUS_NBT | .BUS_DBT | .BUS_XBT => if s.f (BUS.CTRL.EN i) = 1 then some (a, 0x1402) else none
  | .BUS_CTRL =>
    if s.f (BUS.CTRL.EN i) = 1 then
      if (old ^^^ w) &&& 0x79000000 ≠ 0 then some (a, 0x1402)
      else if bitsOf w 31 31 = 0 ∧ ((s.f SAF.MSG_CFG.EN = 1 ∧ s.f SAF.MSG_CFG.CTRL = i) ∨
          (s.f CMD.CANXL_CFG0.EN = 1 ∧ s.f CMD.CANXL_CFG0.CTRL = i)) then some (a, 0x1403)
      else none
    else none
  | .NET_IF_CFG =>
    if s.f (NET.IF_CFG.EN i) = 1 ∧ ¬(bitsOf w 31 31 = 0 ∧ (old ^^^ w) &&& 0x7FFFFFFF = 0) then some (a, 0x1502) else none
  | .NET_IP => if s.f (NET.IF_CFG.EN i) = 1 then some (a, 0x1502) else none
  | .NET_PLCA => if s.f (NET.IF_CFG.EN 1) = 1 then some (a, 0x1502) else none
  | _ => none

/-- What forbids the write of a word by state (R44 step 13): DETAIL of `WRONG_STATE`. -/
def State.wordState (s : State) (auth : Nat) (r : RegSpec) (a : Nat) (v : Word) : Option Nat :=
  match s.wrongState r a v with
  | some d => some d
  | none => match s.writeRefusal auth r a v with
    | some x => if x.2 = 0x0107 then some x.1 else none
    | none => none

/-- A refused GO counts (R294, R297). -/
def countRefusal (x : Nat × Nat) : M Unit := do
  if x.2 = 0x0B04 then inc ACT.STATUS.PARK_REFUSED
  if x.2 = 0x0B05 then inc ACT.STATUS.REV_REFUSED

/-- The conditions of the consistency check that setting an enable field runs on the state the write would produce
(R57): those of its own chapter on its unit. What ties units that one row of the bring-up order loads together is left
to ENABLE (DEDUCED, log entry 26). -/
def State.enableFails (s s' : State) (r : RegSpec) (a : Nat) : Fails :=
  let i := r.ix1 a
  let sets (x : FldAt) : Bool := s.f x == 0 && s'.f x == 1
  match r.name with
  | .MEA_BIND => if sets (MEA.BIND.EN i (r.ix2 a)) then s'.checkRun i (r.ix2 a) else []
  | .LAT_RG_CFG => if sets (LAT.RG_CFG.EN i) then s'.checkLead i (s'.grpTb (s'.f (LAT.RG_CFG.GROUP i))) else []
  | .FLD_MCH_CFG => if sets (FLD.MCH_CFG.EN i) then s'.checkEngine i (s'.f (FLD.MCH_CFG.GROUP i)) else []
  | .FLD_AFE_CFG => if sets FLD.AFE_CFG.EN then s'.checkAfe (s'.f FLD.AFE_CFG.GROUP) else []
  | .DCL_CTRL => if sets DCL.CTRL.EN then s'.checkLink else []
  | .POS_OBS_CFG => if sets (POS.OBS_CFG.EN i) then s'.checkObsCfg i else []
  | .ACT_CFG => if sets (ACT.CFG.EN i) then s'.checkActuator i (s'.f (ACT.CFG.GROUP i)) else []
  | .ACT_CPL_CFG => if sets ACT.CPL_CFG.EN then s'.checkCpl (s'.f ACT.CPL_CFG.GROUP) else []
  | .CNV_BUCK_CFG => if sets CNV.BUCK_CFG.EN then s'.checkBuck else []
  | .LVP_CFG => if sets LVP.CFG.EN then s'.checkLvp else []
  | .CHG_CFG => if sets CHG.CFG.EN then s'.checkChg else []
  | .BUS_CTRL => if sets (BUS.CTRL.EN i) then s'.checkCan i else []
  | .NET_IF_CFG => if sets (NET.IF_CFG.EN i) then s'.checkNet i else []
  | _ => []

/-! ## Reads (R52, R70, R175, R452) -/

/-- The layout of MEA.FORMAT for a host read of a result (R175). -/
def State.resultFormat (s : State) (w : Word) : Word :=
  let x := if s.f MEA.FORMAT.SIGNED = 1 ∧ bitsOf w 18 18 = 1 then w ^^^ 0x8000 else w
  if s.f MEA.FORMAT.LEFT = 1 then (x <<< 16) ||| (x >>> 16) else x

/-- The word a host read of a parameter returns: WO fields read 0 (R7), mirrors show their tables, the times their
clocks. -/
def State.hostRead (s : State) (r : RegSpec) (a : Nat) : Word :=
  if r.mirror then s.mirror r a
  else match r.name with
    | .MEA_RESULT => s.resultFormat (s.rd a)
    | .BUS_TIME_LO => BitVec.ofNat 32 s.netTime
    | .BUS_TIME_HI => BitVec.ofNat 32 s.hid.bus.time.hiLatch
    | .MTR_TIME_LO => match s.hid.mtr.utc with
      | some t => BitVec.ofNat 32 t
      | none => s.rd a
    | .MTR_TIME_HI => match s.hid.mtr.utc with
      | some t => BitVec.ofNat 32 (t / 4294967296)
      | none => s.rd a
    | _ => s.rd a &&& ~~~r.wo

/-- What a read leaves: a read of BUS.TIME_LO latches the high word (R452). -/
def readEffect (a : Nat) : M Unit := do
  let s ← getS
  if a = BUS.TIME_LO then
    let hi := s.netTime / 4294967296
    hid fun h => { h with bus := { h.bus with time := { h.bus.time with hiLatch := hi } } }

end Sys2Proof.Machine
end

