-- ==== Sys2Proof/Machine/Writes.lean ====
section
/-! DEFINITION. What a host write of a parameter does beside storing its word, and READ, WRITE and MODIFY (R51 to R53,
R57, R399). DESIGN CHOICE and DEDUCED points: log entry 26. -/

namespace Sys2Proof.Machine

/-! ## Effects -/

/-- Place the next packet that waits for the tunnel (R71). -/
def placeNext : M Unit := do
  let s ← getS
  match s.hid.cmd.tunnelWait with
  | [] => setAttn
  | p :: r =>
    hid fun h => { h with cmd := { h.cmd with tunnelWait := r } }
    placeTunnel p

/-- RX_ACK (R71). -/
def rxAck : M Unit := do
  wf CMD.TUNNEL_CTL.RX_VALID 0
  placeNext

/-- Whether a write covers two words of which this is the lower one. -/
def lowerOf (all : List Nat) (a : Nat) : Bool := all.contains (a + 4)

/-- A write of a compare unit arms it (R273): a TARGET write while ARM is 1, a CFG write with ARM 1, both words once. -/
def pcmpWritten (all : List Nat) (k u : Nat) (config : Bool) : M Unit := do
  let s ← getS
  if config then
    if s.f (POS.PCMP_CFG.ARM k u) = 1 then pcmpArm k u
    else
      updPu k fun r => { r with late := r.late.erase u }
      wf (POS.PCMP_STAT.ARMED k u) 0
  else if !lowerOf all (POS.PCMP_TGT k u) && s.f (POS.PCMP_CFG.ARM k u) == 1 then pcmpArm k u

/-- LVP.CMD (R356, R359, R362, R364). -/
def lvpCommand (cmd : Nat) : M Unit :=
  match cmd with
  | 1 => chargeStart
  | 2 => chargeStop
  | 3 => setBsw true
  | 4 => setBsw false
  | 5 => enterShip
  | _ => clearTimer

/-- The host clears lasting bits of a source (R410). -/
def lastingWritten (src : Nat) (v : Nat) : M Unit := do
  (bitsSet v 32).forM fun i => clearLasting src i 3
  let s ← getS
  if src = 160 ∧ !s.lasting 160 0 ∧ s.dev ≠ 0 then wf SAF.STATUS.DIAG_OK 1

/-- BUS.TIME_CFG was written: a change of EN or ROLE begins a new exchange of reference messages (R453, R454). -/
def timeCfgWritten (old : Word) : M Unit := do
  let s ← getS
  if bitsOf old 31 29 ≠ bitsOf (s.rd BUS.TIME_CFG) 31 29 then
    hid fun h => { h with bus := { h.bus with time := { h.bus.time with
      prevTime := none, refAt := none, last := none, before := none, good := 0 } } }
    setSynced false

/-- What a write of `v` to the parameter at `a` does beside storing it; `old` is the word before, `all` the addresses
the request writes. -/
def writeEffect (all : List Nat) (r : RegSpec) (a : Nat) (v old : Word) : M Unit := do
  let i := r.ix1 a
  let s ← getS
  match r.name with
  | .CMD_TUNNEL_CTL =>
    if bitsOf v 31 31 = 1 then
      wf CMD.TUNNEL_CTL.BUSY 1
      hid fun h => { h with cmd := { h.cmd with go := some (bitsOf v 12 0) } }
    if bitsOf v 30 30 = 1 then rxAck
  | .PLS_TB_START => startMask (bitsOf v 15 0)
  | .PLS_TB_CFG =>
    wf (PLS.TB_CFG.RUN i) (bitsOf old 31 31)
    if bitsOf v 31 31 = 1 ∧ bitsOf old 31 31 = 0 then startMask (2 ^ i)
    if bitsOf v 31 31 = 0 ∧ bitsOf old 31 31 = 1 then stopTb i
    setLoad
  | .PLS_TB_SYNC =>
    syncWritten i
    setLoad
  | .PLS_TRG_CFG => trgWritten (4 * i + r.ix2 a)
  | .PLS_TB_PERIOD | .PLS_TRG_POS =>
    if s.f (PLS.TB_CFG.RUN i) = 0 then passShadows i
    setLoad
  | .PLS_RISE =>
    writeShadow i false v
    if !lowerOf all a then shadowPosted i
  | .PLS_FALL =>
    writeShadow i true v
    shadowPosted i
  | .TRP_THR => watchCharge (setThreshold i (bitsOf v 25 16) (bitsOf v 9 0))
  | .GDR_RDY_CFG => if bitsOf v 30 30 ≠ bitsOf old 30 30 then wf (GDR.RDY_CFG.READY i) (1 - s.f (GDR.RDY_CFG.READY i))
  | .MEA_REF =>
    if bitsOf v 31 31 ≠ bitsOf old 31 31 ∨ bitsOf (s.rd MEA.REF) 11 0 ≠ bitsOf old 11 0 then wf MEA.REF.EXT_SETTLED 0
    if bitsOf v 30 30 ≠ bitsOf old 30 30 then wf MEA.REF.RATIO_SETTLED 0
  | .LAT_RG_CFG => setLoad
  | .LAT_TPL_CTL => setLoad
  | .LAT_TARGET => newTarget i old
  | .FLD_MCH_CFG => showClamp i
  | .FLD_AFE_CFG =>
    if bitsOf v 31 31 = 1 ∧ bitsOf old 31 31 = 0 then hid fun h => { h with afe := { h.afe with tracking := false } }
  | .DCL_CTRL =>
    ctrlWritten old
    if bitsOf v 29 29 = 1 then contOpen
  | .DCL_STATUS => if bitsOf v 29 29 = 1 then chopFaultyClear
  | .POS_PU_CFG => modeWritten i
  | .POS_PU_STAT =>
    if bitsOf v 28 28 = 1 then puFaultClear i
    if bitsOf v 27 27 = 1 ∧ bitsOf old 27 27 = 1 then ptFaultClear i
  | .POS_PT_CFG => emuRestart i
  | .POS_PCMP_TGT => pcmpWritten all i (r.ix2 a) false
  | .POS_PCMP_CFG => pcmpWritten all i (r.ix2 a) true
  | .POS_OBS_CTRL =>
    hid fun h => { h with pos := { h.pos with ext := sput h.pos.ext i s.ms } }
    wf (POS.OBS_CTRL.EXT_AGE i) 0
  | .ACT_CMD => if bitsOf v 31 28 = 1 then actGo i (bitsOf v 23 0) else actStop i
  | .ACT_CPL_CMD =>
    cplCommand (bitsOf v 31 30)
    followLock
  | .ACT_CPL_CFG => if bitsOf v 3 3 ≠ bitsOf old 3 3 then wf ACT.CPL_STAT.SW (1 - s.f ACT.CPL_STAT.SW)
  | .CHG_CFG => tryStart
  | .CHG_REQ => tryStart
  | .CHG_CMD => chgCommand (bitsOf v 31 28)
  | .MTR_ACK => ringState
  | .MTR_TIME_HI => timeSet
  | .CNV_VSET => vsetWritten
  | .CNV_BUCK_CFG => setLoad
  | .LVP_CHG =>
    if s.f LVP.STATUS.CSTATE = 1 ∨ s.f LVP.STATUS.CSTATE = 2 ∨ s.f LVP.STATUS.CSTATE = 4 then
      setTarget (s.f LVP.CFG.ICELL) s.chargeCurrent
  | .LVP_CMD => lvpCommand (bitsOf v 31 28)
  | .SAF_HOST_REQ => syncFuncs
  | .SAF_MSG_CFG => msgCfgWritten old
  | .SAF_FUNC_CFG => syncFuncs
  | .SAF_FUNC_GRP => syncFuncs
  | .SAF_SIN =>
    if bitsOf v 12 12 = 1 then sinFaultClear i
    inputChanged i 0x11
  | .FLG_LASTING => lastingWritten i v.toNat
  | .BUS_TIME_CFG => timeCfgWritten old
  | .BUS_TIME_HI => netTimeSet
  | .BUS_RX_SEL => rxSelected i
  | .BUS_CTRL =>
    if bitsOf v 25 25 = 1 then recoverWritten i
    ctrlEnabled i old
  | .LCY_CMD => lcyCommand (bitsOf v 31 28)
  | _ => pure ()

/-- The word a write stores: as `RegSpec.after` says; lasting bits are cleared by the ledger, and CMD.TUNNEL_TX holds
what is written though it reads 0. -/
def storedWord (r : RegSpec) (v old : Word) : Word :=
  match r.name with
  | .FLG_LASTING => old
  | .CMD_TUNNEL_TX => v
  | _ => r.after v old

/-- The timebase whose reload takes a shadow word. -/
def State.shadowTb (s : State) (a : Nat) : Option Nat :=
  match regAt a with
  | none => none
  | some r => match r.name with
    | .PLS_RISE | .PLS_FALL => some (s.chTb (r.ix1 a))
    | .PLS_TB_PERIOD | .PLS_TRG_POS => some (r.ix1 a)
    | _ => none

/-- A host write of one word: stored, its effect taken, a change of an RWS field logged (R399), CFG_CRC kept (R398). -/
def writeWord (c : Ctx) (all : List Nat) (a : Nat) (v : Word) : M Unit := do
  match regAt a with
  | none => pure ()
  | some r =>
    if r.name = .BUS_TIME_CFG then settleTime
    let old ← rd a
    wr a (storedWord r v old)
    writeEffect all r a v old
    let new ← rd a
    if (old ^^^ new) &&& r.rws ≠ 0 then
      if a / 65536 = 0x10 then setCfgCrc
      change 1 a old.toNat new.toNat c.session c.transport

/-! ## Absent islands -/

/-- Whether the island of a parameter is out of service. -/
def State.addrAbsent (s : State) (a : Nat) : Bool :=
  match islandOf a with
  | some n => !s.present n
  | none => false

/-- Count one completion for the absent island of a parameter. -/
def countAbsent (a : Nat) : M Unit :=
  match islandOf a with
  | some n => absentReply n
  | none => pure ()

/-! ## READ, WRITE, MODIFY -/

/-- The addresses of `n` words from byte offset `o` of page `p`. -/
def addrs (p o n : Nat) : List Nat := (List.range n).map fun i => p * 65536 + o + 4 * i

/-- Whether a parameter is one of the tunnel's, which packet mode closes (R71). -/
def State.tunnelClosed (s : State) (a : Nat) : Bool :=
  s.packetMode && match regAt a with
    | some r => r.name == .CMD_TUNNEL_CTL || r.name == .CMD_TUNNEL_TX || r.name == .CMD_TUNNEL_RX
    | none => false

/-- READ of a range (R51, R52), its words in the order of their addresses. -/
def readWords (c : Ctx) (as : List Nat) : M (Ans × List Word) := do
  let s ← getS
  if as.any s.tunnelClosed then return (refuse 0x0107 SYS.STATUS, [])
  let bad := as.findSome? fun a => match regAt a with
    | none => some (refuseAt 0x0109 a)
    | some r => if c.session = 0 ∧ c.auth = 0 ∧ r.readProtected a then some (refuseAt 0x0108 a) else none
  match bad with
  | some x => return (x, [])
  | none =>
    match as.find? s.addrAbsent with
    | some a =>
      countAbsent a
      return (absentAt a, [])
    | none =>
      let ws ← as.mapM fun a => do
        readEffect a
        let s ← getS
        return match regAt a with
          | some r => s.hostRead r a
          | none => 0
      return ({}, ws)

/-- The check of a range before any word is written (R44 steps 13 and 15, R52): WRONG_STATE anywhere in the range, then
the lowest address that is unmapped, protected, or given a reserved bit or a value outside its range. -/
def State.writeCheck (s : State) (c : Ctx) (ws : List (Nat × Word)) : Option Ans :=
  let state := ws.findSome? fun x => match regAt x.1 with
    | some r => (s.wordState c.auth r x.1 x.2).map fun d => refuse 0x0107 d
    | none => none
  match state with
  | some a => some a
  | none => ws.findSome? fun x => match regAt x.1 with
    | none => some (refuseAt 0x0109 x.1)
    | some r =>
      if s.writeProtected c.auth r x.1 then some (refuseAt 0x0108 x.1)
      else if x.2 &&& r.res ≠ 0 ∨ r.badValue x.1 x.2 (r.after x.2 (s.rd x.1)) then some (refuse 0x010E x.1)
      else none

/-- The state a request's words would leave in the parameters (R57). -/
def State.wouldBe (s : State) (ws : List (Nat × Word)) : State :=
  ws.foldl (fun t x => match regAt x.1 with
    | some r => (Act.reg x.1 (r.after x.2 (t.rd x.1))).apply t
    | none => t) s

/-- WRITE of words in ascending address order (R52, R57): nothing on a refusal; up to the first absent island
otherwise. -/
def writeWords (c : Ctx) (ws : List (Nat × Word)) : M Ans := do
  let s ← getS
  match s.writeCheck c ws with
  | some x => return x
  | none =>
    let here := ws.takeWhile fun x => !s.addrAbsent x.1
    match here, ws with
    | [], (a, _) :: _ =>
      countAbsent a
      return absentAt a
    | _, _ =>
      let refusal := here.findSome? fun x => match regAt x.1 with
        | some r => s.writeRefusal c.auth r x.1 x.2
        | none => none
      match refusal with
      | some x =>
        countRefusal x
        return refuse x.2 x.1
      | none =>
        let t := s.wouldBe here
        let fails := here.flatMap fun x => match regAt x.1 with
          | some r => s.enableFails t r x.1
          | none => []
        match firstFail fails with
        | some x => return refuse x.2 x.1
        | none =>
          meetStrobe (here.filterMap fun x => s.shadowTb x.1)
          here.forM fun x => writeWord c (here.map Prod.fst) x.1 x.2
          match ws.drop here.length with
          | [] => return {}
          | (a, _) :: _ =>
            countAbsent a
            return { status := stPartial, reason := 0x010B, detail := a }

/-- The word a MODIFY writes (R46, R52): bits under MASK take VALUE; W1C and WO bits outside MASK are written 0. -/
def State.modified (s : State) (r : RegSpec) (a : Nat) (mask value : Word) : Word :=
  (value &&& mask) ||| (s.rd a &&& ~~~mask &&& ~~~(r.w1c ||| r.wo))

/-- MODIFY of one word (R46, R52). -/
def modifyWord (c : Ctx) (a : Nat) (mask value : Word) : M Ans := do
  let s ← getS
  match regAt a with
  | none => return refuseAt 0x0109 a
  | some r =>
    let prev := s.hostRead r a
    let x ← writeWords c [(a, s.modified r a mask value)]
    return if x.status = stOk then okWith (leBytes 4 prev.toNat) else x

end Sys2Proof.Machine
end

