-- ==== Sys2Proof/Machine/Tables.lean ====
section
/-! DEFINITION. TABLE_LOAD, TABLE_VERIFY and TABLE_SWAP (R54, R55, R77, R78, R81, R116, R119, R164, R169, R193, R226,
R227, R328, R406, R407). DESIGN CHOICE and DEDUCED points: log entry 27. -/

namespace Sys2Proof.Machine

/-- The table IDs TABLE_LOAD and TABLE_VERIFY take (R48). -/
def tableIds : List Nat :=
  [0x10, 0x11, 0x12, 0x13, 0x20, 0x30, 0x31, 0x40, 0x50, 0x51, 0x52, 0x53, 0x54, 0x55, 0x56, 0x57, 0x58, 0x60, 0x70, 0x80]

/-- The mirror address of entry `e` of a table (R77, R81, R116, R164, R193, R406); 0 for a table without a mirror. -/
def mirrorAddr (id e : Nat) : Nat :=
  match id with
  | 0x20 => LAT.DESC e 0
  | 0x30 => MAP.CHMAP e 0
  | 0x31 => MAP.ILK e 0
  | 0x40 => TRP.CELLCFG e 0
  | 0x60 => FLG.ENTRY0 e
  | _ => if 0x50 ≤ id ∧ id ≤ 0x58 then MEA.SEQ (id - 0x50) (2 * e) else 0

/-! ## Fields of an entry (R44 step 15) -/

/-- Mask of the reserved bits of byte `o` of an entry. -/
def reservedMask (id o : Nat) : Nat :=
  match id with
  | 0x20 => if o = 1 then 0x0F else if o = 6 ∨ o = 7 ∨ o = 26 ∨ o = 27 ∨ 52 ≤ o then 0xFF else 0
  | 0x30 => if o = 6 then 0xF0 else if o = 7 then 0xFF else 0
  | 0x31 => if o = 10 then 0xFE else if o = 11 then 0xFF else 0
  | 0x40 => match o with
    | 2 => 0x40
    | 3 => 0xF0
    | 5 => 0xFC
    | 7 => 0xFC
    | 15 => 0xCC
    | 17 => 0xF0
    | 18 => 0xFF
    | 19 => 0xFF
    | _ => 0
  | 0x58 => if o = 2 then 0x43 else if o = 3 then 0xFF else 0
  | 0x60 => 0
  | _ => if 0x50 ≤ id ∧ id < 0x58 then (if o = 2 then 0x43 else if 4 ≤ o then 0xFF else 0) else 0

/-- The offset a refusal names for byte `o`: that of its field where a whole field is reserved (R164). -/
def fieldOffset (id o : Nat) : Nat := if 0x50 ≤ id ∧ id < 0x58 ∧ 4 ≤ o then o / 2 * 2 else o

/-- Whether the value at byte `o` of an entry is reserved or outside its range. -/
def valueBad (id : Nat) (e : List Byte) (o : Nat) : Bool :=
  let b := leAt e o 1
  match id, o with
  | 0x20, 0 => decide (7 < b) && b != 0xFF
  | 0x20, 3 => decide (23 < b) && b != 0xFF
  | 0x20, 51 => decide (32 < b)
  | 0x30, 0 => decide (31 < b) && b != 0xFF
  | 0x30, 1 => leAt e 0 1 != 0xFF && decide (15 < b)
  | 0x30, 2 => leAt e 0 1 != 0xFF && decide (23 < b)
  | 0x30, 3 => leAt e 0 1 != 0xFF && decide (3 < b)
  | 0x30, 4 => leAt e 0 1 != 0xFF && decide (47 < b) && b != 0xFF
  | 0x30, 5 => leAt e 0 1 != 0xFF && leAt e 4 1 != 0xFF && decide (3 < b)
  | 0x31, o => decide (o < 8) && o % 2 == 0 && decide (143 < leAt e o 2) && leAt e o 2 != 0xFFFF
  | 0x40, 0 => decide (63 < b)
  | 0x40, 1 => decide (63 < b) && b != 0xFF
  | 0x40, 2 => b / 4 % 4 == 3 || b % 4 == 3
  | 0x40, 14 => leAt e 15 1 / 16 % 4 == 3
  | 0x40, o => decide (9 ≤ o) && decide (o ≤ 11) && leAt e 3 1 % 4 == 3 && b != 0
  | _, _ => false

/-- The offset in an entry of its first field that a load may not carry. -/
def entryBad (id size : Nat) (e : List Byte) : Option Nat :=
  if id = 0x30 ∧ e.all (fun b => b == 0xFF) then none
  else ((List.range size).find? fun o =>
    decide (leAt e o 1 &&& reservedMask id o ≠ 0) || valueBad id e o).map (fieldOffset id)

/-- The entries of a payload's bytes. -/
def entriesOf (size : Nat) (l : List Byte) : List (List Byte) :=
  (List.range (l.length / size)).map fun k => (l.drop (size * k)).take size

/-- Why a ledger entry for source `src` is refused (R407). -/
def ledgerEntryBad (src : Nat) (e : List Byte) : Option Nat :=
  match ledgerFactory src with
  | none => if e.any fun b => b != 0 then some 0x1102 else none
  | some (n, c, w, fixed) =>
    let cls := leAt e 1 1
    if fixed ∧ (leAt e 0 1 ≠ n ∨ cls ≠ c ∨ leAt e 2 2 ≠ w) then some 0x1101
    else if leAt e 0 1 = 0 ∨ leAt e 2 2 = 0 ∨ 3 < cls ∨ leAt e 4 1 / 4 ≠ 0 ∨ leAt e 5 3 ≠ 0 then some 0x1102
    else if cls < c then some 0x1103
    else none

/-! ## State (R44 step 13) -/

/-- The groups that forbid a load of entry `e` while they are ARMED or RUNNING, before and after the load
(R78, R81, R119, R193). -/
def State.entryGroups (s : State) (id e : Nat) (new : List Byte) : List Nat :=
  match id with
  | 0x20 =>
    ([(s.tb 0x20 (64 * e)).toNat, leAt new 0 1].filter (· < 8)).map fun n => s.f (LAT.RG_CFG.GROUP n)
  | 0x30 => [(s.tb 0x30 (8 * e)).toNat, leAt new 0 1]
  | 0x31 => (List.range 4).flatMap fun j => [s.chGroup (s.tn 0x31 (12 * e + 2 * j) 2), s.chGroup (leAt new (2 * j) 2)]
  | 0x40 => [s.tbs 0x40 (20 * e) 20, new].flatMap fun b =>
      let route := leAt b 3 1 % 4
      (if route = 1 ∨ route = 2 then bitsSet (leAt b 8 4) 32 else []) ++
        (if route = 3 then [s.chGroup (leAt b 8 1)] else []) ++ [s.chGroup (leAt b 13 1)]
  | _ => []

/-- Whether a group number names a group that is ARMED or RUNNING. -/
def State.liveGroup (s : State) (g : Nat) : Bool := decide (g < 32) && s.active g

/-- What forbids the load of entries from `first` on by the state of groups or of the device: DETAIL of WRONG_STATE, or
ADDRESS_PROTECTED for table 0x60 in FIELD (R78, R81, R119, R169, R193, R226, R407). -/
def State.tableState (s : State) (id first : Nat) (es : List (List Byte)) : Option Ans :=
  if 0x10 ≤ id ∧ id ≤ 0x13 then
    let m := (id - 0x10) / 2
    if (s.engineGroups m).any s.active ∧ s.f (FLD.MCH_STAT.BANK m) = (id - 0x10) % 2 then
      some (refuse 0x0107 FLD.MAP_STAT) else none
  else if 0x50 ≤ id ∧ id < 0x58 then
    if (s.convGroups (id - 0x50)).any s.active then some (refuse 0x0107 (mirrorAddr id first)) else none
  else if id = 0x60 then
    match groups.find? s.active with
    | some g => some (refuse 0x0107 (PLS.GRP_STAT g))
    | none => if s.lcState = 2 then some (refuseAt 0x0108 (mirrorAddr id first)) else none
  else
    ((List.range es.length).find? fun k => (s.entryGroups id (first + k) (es.getD k [])).any s.liveGroup).map
      fun k => refuse 0x0107 (mirrorAddr id (first + k))

/-! ## Effects -/

/-- Whether a spare serves a channel (R84 to R86). -/
def State.substituted (s : State) (c : Nat) : Bool :=
  s.hid.trp.spares.any fun p => p.2 == .inUse c false || p.2 == .inUse c true

/-- The bytes a load stores: SUBSTITUTED of a bound entry of the channel map shows whether a spare serves the channel
(R77, R85); FIXED of a ledger entry keeps its factory value (R406). -/
def State.loadedEntry (s : State) (id e : Nat) (new : List Byte) : List Byte :=
  if id = 0x30 ∧ leAt new 0 1 ≠ 0xFF then
    new.set 6 (BitVec.ofNat 8 ((leAt new 6 1 &&& 0xF7) + 8 * b2n (s.substituted e)))
  else if id = 0x60 then new.set 4 (BitVec.ofNat 8 (leAt new 4 1 / 2 * 2 + (ledgerByte e 4).toNat % 2))
  else new

/-- CRC-32C of a table (R46). -/
def State.tableCrc (s : State) (id : Nat) : Nat :=
  match tableDim id with
  | some (size, count) => crc32c (s.tbs id 0 (size * count))
  | none => 0

/-- What a load changes beside the table's bytes; `s0` is the state before it. -/
def loaded (s0 : State) (id first : Nat) (es : List (List Byte)) : M Unit := do
  let n := es.length
  if 0x10 ≤ id ∧ id ≤ 0x13 then
    mapWritten id first n
    writeMapPages s0 id (8 * first) (8 * n)
  else if id = 0x30 then
    rebindGroups
    setLoad
  else if id = 0x20 then setLoad
  else if id = 0x40 then
    (List.range n).forM fun k => do
      let s ← getS
      watchCharge (setThreshold (first + k) (s.cellHi (first + k)) (s.cellLo (first + k)))
  else if id = 0x60 then setCfgCrc

/-- The accepted load of entries from `first` on, entered in the change log (R399). -/
def applyLoad (c : Ctx) (id first size : Nat) (es : List (List Byte)) : M Ans := do
  let s ← getS
  match if 0x10 ≤ id ∧ id ≤ 0x13 then s.badMapPage id (size * first) (size * es.length) else none with
  | some p =>
    uncorrectable p false
    return { status := stFailed, reason := 0x010D, detail := pageDetail p }
  | none =>
    let old := s.tableCrc id
    if id = 0x58 ∧ s.hid.mea.checkList.isNone then
      updMea fun x => { x with checkList := some ((List.range 256).map (s.tb 0x58)) }
    (es.zip (List.range es.length)).forM fun x => do
      let s ← getS
      wtab id (size * (first + x.2)) (s.loadedEntry id (first + x.2) x.1)
    loaded s id first es
    let s ← getS
    change 2 id old (s.tableCrc id) c.session c.transport
    return {}

/-! ## The requests -/

/-- START and COUNT of a TABLE_LOAD. -/
def loadStart (p : Packet) : Nat := leAt p.payload 0 2
def loadCount (p : Packet) : Nat := leAt p.payload 2 2

/-- R44 step 13 of the packet that ends a TABLE_LOAD, `staged` being the transfer it ends; `body` is its payload
without the tag. -/
def State.loadState (s : State) (p : Packet) (body : List Byte) (staged : Option Seg) : Option Ans :=
  let id := p.inst.toNat
  match tableDim id with
  | none => none
  | some (size, _) =>
    match staged with
    | some g => s.tableState id g.first (entriesOf size (g.data ++ body.drop 4))
    | none => s.tableState id (leAt body 0 2) (entriesOf size (body.drop 4))

/-- R44 step 14 of TABLE_LOAD: the payload size it must have. The entries of table 0x70 share the payload equally: the
spec gives that table no entry size (DESIGN CHOICE, log entry 27). -/
def loadSize (p : Packet) (body : List Byte) : Option Nat :=
  let n := leAt body 2 2
  if body.length < 4 then some 4
  else if p.inst.toNat = 0x70 then some (4 + n * ((body.length - 4) / n))
  else (tableDim p.inst.toNat).map fun d => 4 + d.1 * n

/-- TABLE_LOAD of a table other than 0x70 after the checks of TARGET (R44 steps 15 and 16): the answer, and the transfer left open. -/
def tableLoadBody (c : Ctx) (p : Packet) (body : List Byte) (staged : Option Seg) : M (Ans × Option Seg) := do
  let s ← getS
  let id := p.inst.toNat
  let start := leAt body 0 2
  let count := leAt body 2 2
  if id = 0x80 then return (refuse 0x0D01 0x8000000D, none)
  match tableDim id with
  | none => return (refuse 0x010E 0x8000000D, none)
  | some (size, n) =>
    let es := entriesOf size (body.drop 4)
    let off (k o : Nat) : Nat := 4 + size * k + o
    if staged.any fun g => g.next != start then return (refuse 0x0116 0, none)
    if n ≤ start then return (refuse 0x010C 0, none)
    if n < start + count then return (refuse 0x010C 2, none)
    let bad := (List.range es.length).findSome? fun k => (entryBad id size (es.getD k [])).map (off k)
    match bad with
    | some d => return (refuse 0x010E d, none)
    | none =>
      let spare := if id = 0x40 then (List.range es.length).find? fun k => isSpareCell (start + k) else none
      match spare with
      | some k => return (refuse 0x0408 (mirrorAddr id (start + k)), none)
      | none =>
        let led := if id = 0x60 then (List.range es.length).findSome? fun k =>
          (ledgerEntryBad (start + k) (es.getD k [])).map fun r => (r, off k 0) else none
        match led with
        | some x => return (refuse x.1 x.2, none)
        | none =>
          let first := match staged with
            | some g => g.first
            | none => start
          let data := (match staged with
            | some g => g.data
            | none => []) ++ body.drop 4
          if bit p.flags.toNat 3 then
            return ({}, some ⟨0x30, p.page.toNat, id, p.scope.toNat, (p.seq.toNat + 1) % 65536, first, start + count, data,
              s.hid.now⟩)
          match tableIsland id with
          | some k =>
            if !s.present k then
              absentReply k
              return (absentAt (mirrorAddr id first), none)
            return (← applyLoad c id first size (entriesOf size data), none)
          | none => return (← applyLoad c id first size (entriesOf size data), none)

/-- TABLE_VERIFY (R46): CRC-32C of the table and its entries. The layout of table 0x70 is not stated, so its CRC is a
free value. -/
def tableVerify (id : Nat) : M Ans := do
  let s ← getS
  match tableDim id with
  | none =>
    let crc ← fresh
    return okWith (leBytes 4 crc ++ leBytes 4 64)
  | some (_, n) =>
    match tableIsland id with
    | some k =>
      if !s.present k then
        absentReply k
        return absentAt (mirrorAddr id 0)
      return okWith (leBytes 4 (s.tableCrc id) ++ leBytes 4 n)
    | none => return okWith (leBytes 4 (s.tableCrc id) ++ leBytes 4 n)

/-- TABLE_SWAP (R226): the command crosses into the engine's island. -/
def tableSwap (id : Nat) : M Ans := do
  let s ← getS
  let m := (id - 0x10) / 2
  let b := (id - 0x10) % 2
  if !s.present (2 + m) then
    absentReply (2 + m)
    return absentAt FLD.MAP_STAT
  if s.f (FLD.MCH_STAT.BANK m) = b then return {}
  if !bit (s.f FLD.MAP_STAT.COMPLETE) (id - 0x10) then return refuse 0x0804 FLD.MAP_STAT
  swapBank m b
  return {}

end Sys2Proof.Machine
end

