-- ==== Sys2Proof/Machine/Requests.lean ====
section
/-! DEFINITION. The requests of the opcode table R46: authority (R46, R47), payload sizes and TARGETs (R44 steps 12 to
15, R48), and what each opcode does. DESIGN CHOICE and DEDUCED points: log entries 27 and 28. -/

namespace Sys2Proof.Machine

/-! ## Authority (R46, R47) -/

/-- The opcodes marked "none" in R46. -/
def noneOps : List Nat := [0x00, 0x01, 0x02, 0x10, 0x31, 0x60, 0x70, 0x81, 0xE0, 0xE1]

/-- The opcodes that need OPERATOR. -/
def operatorOps : List Nat := [0x11, 0x12, 0x20, 0x21, 0x22, 0x32, 0x40, 0x50, 0x71, 0x72, 0x91, 0xA0, 0xF0]

/-- The opcodes that need INTEGRATOR. -/
def integratorOps : List Nat := [0x30, 0x61, 0x80, 0x90, 0xA1, 0xB0, 0xB1, 0xC0, 0xD0, 0xD1, 0xD2]

/-- The opcodes of R46. -/
def knownOps : List Nat := noneOps ++ operatorOps ++ integratorOps ++ [0xE2]

/-- Whether an authority covers a request (R44 step 12). -/
def authOk (auth op scope inst : Nat) (body : List Byte) : Bool :=
  let log3 := op == 0x60 && leAt body 0 1 == 3
  if auth = authMetrology then
    if op = 0xF0 then scope == 3 && inst == 8
    else (noneOps.contains op && !log3) || [0x11, 0x12, 0x71, 0x72, 0xD0, 0xD1, 0xD2, 0xE2].contains op
  else
    let need :=
      if log3 then 2 else if noneOps.contains op then 0
      else if op = 0xF0 then (if scope = 4 then 2 else 1)
      else if operatorOps.contains op then 1 else if integratorOps.contains op then 2 else 3
    decide (need ≤ auth) && op != 0xE2

/-! ## Sizes and TARGETs (R44 steps 14 and 15, R48) -/

/-- The payload size of a request, none where any size fits; `staged` tells that the packet goes on with a transfer. -/
def wantSize (op : Nat) (p : Packet) (body : List Byte) (staged : Bool) : Option Nat :=
  match op with
  | 0x10 => some 4
  | 0x11 => some (if body.length < 4 then 4 else 4 + 4 * leAt body 2 2)
  | 0x12 => some 12
  | 0x30 => loadSize p body
  | 0x40 => some (if body.length < 4 then 4 else 4 + 8 * leAt body 0 1)
  | 0x50 => some 4
  | 0x60 => some 6
  | 0x61 => some 4
  | 0x70 => some (if leAt body 0 1 = 1 ∧ body ≠ [] then 36 else 4)
  | 0x72 => some 36
  | 0x80 => some 4
  | 0x90 => if staged ∨ 4 ≤ body.length then none else some 4
  | 0x91 => some 4
  | 0xA0 => some 8
  | 0xA1 => some 4
  | 0xB0 => some 4
  | 0xB1 => some 4
  | 0xC0 => some 4
  | 0xD0 => some 80
  | 0xD1 => if staged ∨ 4 ≤ body.length then none else some 4
  | 0xD2 => some 68
  | 0xE0 => some 4
  | 0xE1 => some 8
  | 0xE2 => some 196
  | _ => some 0

/-- R44 step 14. -/
def sizeBad (op : Nat) (p : Packet) (body : List Byte) (staged : Bool) : Option Ans :=
  match wantSize op p body staged with
  | some n => if body.length = n then none else some (refuse 0x0104 (min body.length n))
  | none => none

/-- The first header field that does not match R48. -/
def targetBad (op : Nat) (p : Packet) (body : List Byte) : Option Ans :=
  let page := p.page.toNat
  let inst := p.inst.toNat
  let scope := p.scope.toNat
  if op = 0x10 ∨ op = 0x11 ∨ op = 0x12 then
    if 0x16 < page then some (refuseAt 0x0109 (page * 65536 + leAt body 0 2))
    else if inst ≠ 0 then some (refuse 0x010E 0x8000000D)
    else if scope ≠ 0 then some (refuse 0x010E 0x8000000F) else none
  else if page ≠ 0 then some (refuse 0x010E 0x8000000C)
  else
    let want : Nat := if op = 0x20 ∨ op = 0x21 ∨ op = 0x22 then 1 else if op = 0x30 ∨ op = 0x31 ∨ op = 0x32 then 2 else 4
    let instOk : Bool :=
      if want = 1 then decide (inst < 32)
      else if op = 0x32 then decide (0x10 ≤ inst) && decide (inst ≤ 0x13)
      else if want = 2 then tableIds.contains inst
      else if op = 0xF0 then
        (match scope with
          | 1 => decide (inst < 32)
          | 3 => decide (inst < 16)
          | 4 => inst == 0
          | _ => true)
      else inst == 0
    if !instOk then some (refuse 0x010E 0x8000000D)
    else if (if op = 0xF0 then scope = 1 ∨ scope = 3 ∨ scope = 4 else scope = want) then none
    else some (refuse 0x010E 0x8000000F)

/-! ## Entries of SETPOINT, and spare channels (R66, R84, R219, R292) -/

/-- One entry of SETPOINT. -/
structure SpEntry where
  kind : Nat
  res : Nat
  index : Nat
  value : Word
  deriving DecidableEq, Repr

/-- The entries of a SETPOINT. -/
def spEntries (body : List Byte) : List SpEntry :=
  (List.range (leAt body 0 1)).map fun k =>
    let o := 4 + 8 * k
    ⟨leAt body o 1, leAt body (o + 1) 1, leAt body (o + 2) 2, BitVec.ofNat 32 (leAt body (o + 4) 4)⟩

/-- The parameter an entry writes; none for a KIND or INDEX outside its range. -/
def SpEntry.addr (e : SpEntry) : Option Nat :=
  let m := e.index / 256
  let i := e.index % 256
  if e.kind = 1 then (if e.index < 192 then some (LAT.TARGET e.index) else none)
  else if e.kind = 2 ∧ m < 2 then
    match i with
    | 0 => some (FLD.TQ_REQ m)
    | 1 => some (FLD.TQ_LIM m)
    | 2 => some (FLD.P_LIM m)
    | 3 => some (FLD.DERATE m)
    | _ => none
  else if e.kind = 2 ∧ m = 3 then
    if i < 4 then some (ACT.CMD i) else if i = 4 then some ACT.CPL_CMD else none
  else none

/-- The group an entry's target belongs to, and the parameter a refusal names where it belongs to none. -/
def State.spGroup (s : State) (e : SpEntry) : List Nat × Nat :=
  let m := e.index / 256
  let i := e.index % 256
  if e.kind = 1 then
    let n := (s.tb 0x20 (64 * e.index)).toNat
    (if n < 8 then [s.f (LAT.RG_CFG.GROUP n)] else [], LAT.DESC e.index 0)
  else if m < 2 then (s.engineGroups m, FLD.MCH_CFG m)
  else if i < 4 then (s.actuatorGroup i, ACT.CFG i)
  else (groupIn (s.rd ACT.CPL_CFG) 31 30 26, ACT.CPL_CFG)

/-- The kinds of spare and unit channels agree (R84). -/
def spareKindOk (unit spare : Nat) : Bool :=
  if isDriver unit then decide (140 ≤ spare) && decide (spare < 144) else decide (90 ≤ spare) && decide (spare < 96)

/-- Whether a channel is itself a spare. -/
def isSpareChannel (c : Nat) : Bool := (decide (90 ≤ c) && decide (c < 96)) || decide (140 ≤ c)

/-! ## State (R44 step 13) -/

/-- The opcodes of a recovery boot (R476). -/
def recoveryOps : List Nat := [0x00, 0x01, 0x02, 0x70, 0x71, 0xD0, 0xD1, 0xD2, 0xF0]

/-- The addresses of a range, as far as they lie in its page. -/
def rangeAddrs (page : Nat) (body : List Byte) (n : Nat) : List Nat :=
  let off := leAt body 0 2
  if off % 4 = 0 then (addrs page off (min n 1024)).filter fun a => a / 65536 == page else []

/-- A READ, WRITE or MODIFY that state forbids: the tunnel's parameters, and words that may not be written now. -/
def State.wordsState (s : State) (auth op page : Nat) (body : List Byte) : Option Nat :=
  if op = 0x10 then
    if (rangeAddrs page body (leAt body 2 2)).any s.tunnelClosed then some SYS.STATUS else none
  else
    let as := rangeAddrs page body (if op = 0x11 then leAt body 2 2 else 1)
    let words := wordsOf (body.drop 4)
    (as.zip words).findSome? fun x => match regAt x.1 with
      | some r => s.wordState auth r x.1
          (if op = 0x11 then x.2 else s.modified r x.1 (words.getD 0 0) (words.getD 1 0))
      | none => none

/-- A SETPOINT that state forbids: a target group that is not ARMED or RUNNING (R66), or a target that may not be
written now. -/
def State.setpointState (s : State) (auth : Nat) (body : List Byte) : Option Nat :=
  let es := spEntries body
  let idle := es.findSome? fun e =>
    let (gs, a) := s.spGroup e
    if gs.isEmpty then some a
    else gs.findSome? fun g => if s.liveGroup g then none else some (if g < 32 then PLS.GRP_STAT g else a)
  match idle with
  | some d => some d
  | none => es.findSome? fun e => e.addr.bind fun a => (regAt a).bind fun r => s.wordState auth r a e.value

/-- A SELFTEST that state forbids (R137, R155). -/
def State.selftestState (s : State) (t : Nat) : Option Nat :=
  let running := (s.findDue 0x50 t).isSome
  if 0x0400 ≤ t ∧ t < 0x0408 then
    if running ∨ (s.bankGroups (t - 0x0400)).any s.active then some (TRP.BANK_STAT (t - 0x0400)) else none
  else if 0x0500 ≤ t ∧ t < 0x0520 then
    if running ∨ s.active (t - 0x0500) then some (PLS.GRP_STAT (t - 0x0500)) else none
  else none

/-- A SPARE_SUBSTITUTE that state forbids (R84 to R86, R181). -/
def State.spareState (s : State) (unit field : Nat) : Option Nat :=
  let g := s.chGroup unit
  if 0x0200 ≤ unit then
    if field = 0x00FF ∧ (s.convGroups (unit - 0x0200)).any s.active then some MEA.SPARE else none
  else if field = 0x00FF then
    if g < 32 ∧ s.gst g ≠ .off ∧ s.gst g ≠ .configured then some (PLS.GRP_STAT g) else none
  else if g < 32 ∧ !isSpareChannel unit ∧ (s.gst g = .tripped ∨ s.gst g = .safe) then some (PLS.GRP_STAT g)
  else if s.hid.trp.hand.isSome then some MAP.STATUS
  else none

/-- A CHORD_SPLIT or CHORD_JOIN that state forbids (R419, R421, R477). -/
def State.chordState (s : State) (op n : Nat) : Option Nat :=
  if op = 0xB1 then (if (s.findDue 0xB1 n).isSome then some CHD.STATUS else none)
  else if n = 0 ∨ 2 < n then none
  else if s.chd n = 3 ∨ (s.chord n).toSplit then some CHD.STATUS
  else if (s.splitAnswer n).isNone ∧ 0 < s.f LCY.THERM.STEP then some LCY.THERM
  else none

/-- What forbids a request by the state of the device, of the life cycle or of a group: DETAIL of `WRONG_STATE`. -/
def State.wrongNow (s : State) (auth op : Nat) (p : Packet) (body : List Byte) : Option Nat :=
  let inst := p.inst.toNat
  if s.f SYS.STATUS.RECOVERY = 1 ∧ !recoveryOps.contains op then some SYS.STATUS
  else match op with
  | 0x10 | 0x11 | 0x12 => s.wordsState auth op p.page.toNat body
  | 0x20 => if s.dev = 4 then some SYS.STATUS else if s.active inst then none else s.holdingLatch inst
  | 0x21 => s.disableLatch inst
  | 0x40 => s.setpointState auth body
  | 0x50 => s.selftestState (leAt body 0 2)
  | 0x80 => s.spareState (leAt body 0 2) (leAt body 2 2)
  | 0xB0 | 0xB1 => s.chordState op (leAt body 0 1)
  | 0xC0 => if s.hid.lcy.trans.isSome ∨ s.hid.lcy.resetDue then some LCY.STATE else none
  | 0xE2 => s.sealState
  | 0xF0 =>
    if p.scope.toNat = 3 ∧ inst < 16 ∧ !s.islandResetOk inst (auth == authMetrology) then some (SYS.ISLAND inst) else none
  | _ => none

/-- The answer of R44 step 13, if it fails. The groups a TABLE_LOAD bears on are asked with its last packet, which alone
changes anything (R54). -/
def State.stateBad (s : State) (auth op : Nat) (p : Packet) (body : List Byte) (staged : Option Seg) : Option Ans :=
  match s.wrongNow auth op p body with
  | some d => some (refuse 0x0107 d)
  | none => if op = 0x30 ∧ !bit p.flags.toNat 3 then s.loadState p body staged else none

/-! ## Reserved bytes -/

/-- The first of some payload bytes that are reserved and not 0. -/
def reservedBad (body : List Byte) (os : List Nat) : Option Ans :=
  (os.find? fun o => leAt body o 1 != 0).map fun o => refuse 0x010E o

/-! ## Device information -/

/-- IDENTIFY (R46): "IAL9144", revision and versions, identity digest, unique ID, life-cycle state, host mode. -/
def State.identify (s : State) : List Byte :=
  by1 [0x49, 0x41, 0x4C, 0x39, 0x31, 0x34, 0x34, 0] ++ leBytes 4 (Config.revision 0).toNat ++
    leBytes 4 (s.fwVersion 0) ++ leBytes 4 (s.fwVersion 1) ++ s.digest ++ uniqueId ++
    by1 [s.lcState, s.f SYS.STATUS.HOSTMODE] ++ leBytes 2 0

/-- GET_STATUS (R46); in SHIP no lasting source and no queued event is told (R364). -/
def State.getStatus (s : State) : List Byte :=
  let awake := s.dev != 6
  by1 [s.dev, s.lcState] ++ leBytes 2 32 ++ by1 (groups.map fun g => (s.gst g).code) ++
    leBytes 2 (if awake then s.f FLG.STATUS1.LASTING_SRC else 0) ++
    leBytes 2 (if awake then eventCount s.que.spi else 0)

/-! ## READ, WRITE, MODIFY (R51, R52) -/

/-- The range checks of OFFSET (R51). -/
def rangeBad (page off n : Nat) : Option Ans :=
  let a := page * 65536 + off
  if off % 4 ≠ 0 then some (refuseAt 0x0109 a)
  else if 0x10000 < off + 4 * n then some { refuse 0x0109 0 with va := a }
  else none

/-- READ. -/
def opRead (c : Ctx) (page : Nat) (body : List Byte) : M Ans := do
  let off := leAt body 0 2
  let n := leAt body 2 2
  if n = 0 ∨ 1024 < n then return refuse 0x010F 2
  match rangeBad page off n with
  | some x => return x
  | none =>
    let (x, ws) ← readWords c (addrs page off n)
    return if x.status = stOk then okWith (ws.flatMap fun w => leBytes 4 w.toNat) else x

/-- WRITE. -/
def opWrite (c : Ctx) (page : Nat) (body : List Byte) : M Ans := do
  let off := leAt body 0 2
  let n := leAt body 2 2
  if n = 0 ∨ 1023 < n then return refuse 0x010F 2
  match rangeBad page off n with
  | some x => return x
  | none => writeWords c ((addrs page off n).zip (wordsOf (body.drop 4)))

/-- MODIFY. -/
def opModify (c : Ctx) (page : Nat) (body : List Byte) : M Ans := do
  let off := leAt body 0 2
  if leAt body 2 2 ≠ 0 then return refuse 0x010E 2
  match rangeBad page off 1 with
  | some x => return x
  | none => modifyWord c (page * 65536 + off) (BitVec.ofNat 32 (leAt body 4 4)) (BitVec.ofNat 32 (leAt body 8 4))

/-! ## Groups (R58, R80, R101, R103) -/

/-- An answer from a refusal given as address and reason. -/
def answer (x : Option (Nat × Nat)) : Ans :=
  match x with
  | some r => refuse r.2 r.1
  | none => {}

/-- ENABLE: in SAFE, and for a group that is ARMED or RUNNING, the pulse island is not asked. -/
def opEnable (g : Nat) : M Ans := do
  let s ← getS
  if !s.present 0 ∧ s.dev ≠ 4 ∧ !s.active g then
    absentReply 0
    return absentAt (PLS.GRP_STAT g)
  return answer (← enableGroup g true)

/-- DISABLE acts in the output cells, without the pulse island. -/
def opDisable (g : Nat) : M Ans := do return answer (← disableGroup g true)

/-- COMMIT. -/
def opCommit (g : Nat) : M Ans := do
  let s ← getS
  if !s.present 0 then
    absentReply 0
    return absentAt (PLS.GRP_STAT g)
  if s.loopOwned g ∧ s.active g then return refuse 0x0308 (PLS.GRP_CFG g)
  if (s.grp g).left then
    inc PLS.COUNT1.POST_DROPPED
    return {}
  if s.f (PLS.GRP_STAT.RELOAD_PEND g) = 1 then return refuse 0x0309 (PLS.GRP_STAT g)
  commitShadows g
  return {}

/-! ## SETPOINT (R66, R219, R292) -/

/-- SETPOINT. The latency seen lies within the 20 µs of R66 and is a free value. -/
def opSetpoint (c : Ctx) (body : List Byte) : M Ans := do
  let s ← getS
  let n := leAt body 0 1
  if n = 0 ∨ 32 < n then return refuse 0x010E 0
  match reservedBad body [1, 2, 3] with
  | some x => return x
  | none =>
    let es := spEntries body
    let bad := (List.range n).findSome? fun k =>
      let e := es.getD k ⟨0, 0, 0, 0⟩
      let o := 4 + 8 * k
      if e.kind ≠ 1 ∧ e.kind ≠ 2 then some o
      else if e.res ≠ 0 then some (o + 1)
      else match e.addr with
        | none => some (o + 2)
        | some a => match regAt a with
          | none => some (o + 2)
          | some r => if e.value &&& r.res ≠ 0 ∨ r.badValue a e.value (r.after e.value (s.rd a)) then some (o + 4) else none
    match bad with
    | some d => return refuse 0x010E d
    | none =>
      let ws := es.filterMap fun e => e.addr.map fun a => (a, e.value)
      let wrong := ws.findSome? fun x => (regAt x.1).bind fun r => s.writeRefusal c.auth r x.1 x.2
      match wrong with
      | some x =>
        countRefusal x
        return refuse x.2 x.1
      | none =>
        match ws.find? fun x => s.addrAbsent x.1 with
        | some x =>
          countAbsent x.1
          return absentAt x.1
        | none =>
          ws.forM fun x => writeWord c [] x.1 x.2
          inc CMD.SP_LAT.SP_COUNT
          let l ← fresh
          wf CMD.SP_LAT.SP_LAT_MAX (max (s.f CMD.SP_LAT.SP_LAT_MAX) (l % 2001))
          return {}

/-! ## SELFTEST (R137, R155) -/

/-- SELFTEST. DETAIL of `GDR_NOT_DRIVER`, which R155 does not state, is the group's PLS.GRP_STAT (DESIGN CHOICE, log
entry 28). -/
def opSelftest (p : Packet) (body : List Byte) (byRun : Bool) : M Ans := do
  let s ← getS
  let t := leAt body 0 2
  match reservedBad body [2, 3] with
  | some x => return x
  | none =>
    if 0x0400 ≤ t ∧ t < 0x0408 then
      let b := t - 0x0400
      if !s.present 7 then
        absentReply 7
        return absentAt (TRP.BANK_STAT b)
      updBank b fun r => { r with testing := true }
      addDue 0x50 t p byRun
      return { status := stAccepted }
    else if 0x0500 ≤ t ∧ t < 0x0520 then
      let g := t - 0x0500
      if (s.grpPairs g).isEmpty then return refuse 0x0506 (PLS.GRP_STAT g)
      if !s.present 7 then
        absentReply 7
        return absentAt (PLS.GRP_STAT g)
      addDue 0x50 t p byRun
      return { status := stAccepted }
    else return refuse 0x010E 0

/-! ## Logs (R53, R399, R411) -/

/-- The bytes of a fault-log entry. -/
def FltEntry.bytes (e : FltEntry) : List Byte :=
  leBytes 4 e.time ++ leBytes 2 e.boot ++ by1 [e.source, e.inst, e.kind, e.cls] ++ leBytes 2 e.count ++ leBytes 4 e.detail

/-- The bytes of a violation-log entry. -/
def VioEntry.bytes (e : VioEntry) : List Byte :=
  leBytes 4 e.addr ++ leBytes 4 e.time ++ leBytes 2 e.opcode ++ leBytes 2 e.session ++ by1 [e.transport, e.reason] ++
    leBytes 2 e.source

/-- The bytes of a change-log entry. -/
def ChgEntry.bytes (e : ChgEntry) : List Byte :=
  leBytes 3 e.addr ++ by1 [e.kind] ++ leBytes 4 e.old ++ leBytes 4 e.new ++ leBytes 4 e.time ++ leBytes 2 e.session ++
    by1 [e.transport, 0] ++ leBytes 4 e.crc

/-- The logs lie in MRAM behind the memory island: while that is out of service LOG_READ and LOG_CLEAR are
`TARGET_ABSENT`, DETAIL the parameter that counts the log (R24; DEDUCED, log entry 28). -/
def withLogs (id : Nat) (m : M Ans) : M Ans := do
  if (← getS).present 11 then m
  else
    absentReply 11
    return absentAt (match id with
      | 1 => FLG.STATUS
      | 2 => CMD.VIOLATION
      | _ => SAF.CHANGE)

/-- LOG_READ: the entries held from START on, oldest first, at most COUNT. -/
def opLogRead (body : List Byte) : M Ans := do
  let s ← getS
  let take (l : List (List Byte)) : Ans := okWith ((l.drop (leAt body 2 2)).take (leAt body 4 2)).flatten
  match reservedBad body [1] with
  | some x => return if leAt body 0 1 = 0 ∨ 3 < leAt body 0 1 then refuse 0x010E 0 else x
  | none =>
    match leAt body 0 1 with
    | 1 => withLogs 1 (pure (take (s.que.flt.map FltEntry.bytes)))
    | 2 => withLogs 2 (pure (take (s.que.vio.map VioEntry.bytes)))
    | 3 => withLogs 3 (pure (take (s.que.chg.map ChgEntry.bytes)))
    | _ => return refuse 0x010E 0

/-- LOG_CLEAR. -/
def opLogClear (c : Ctx) (body : List Byte) : M Ans := do
  let id := leAt body 0 1
  if id = 0 ∨ 3 < id then return refuse 0x010E 0
  match reservedBad body [1, 2, 3] with
  | some x => return x
  | none =>
    if id = 3 then return refuse 0x1007 SAF.CHANGE
    withLogs id do
      if id = 1 then
        act .fltClear
        wr FLG.STATUS 0
      else
        act .vioClear
        wr CMD.VIOLATION 0
      changeFree 7 0 0 c.session c.transport
      return {}

/-! ## Sessions and passwords (R59 to R62) -/

/-- SESSION_OPEN. A phase 1 refused for its reserved bytes or its payload size leaves the SESSION_ID of phase 0 pending:
R60 does not say (DESIGN CHOICE, log entry 28). -/
def opSessionOpen (p : Packet) (body : List Byte) : M Ans := do
  let s ← getS
  if leAt body 0 1 = 1 then
    match reservedBad body [1, 2, 3] with
    | some x => return x
    | none =>
      match s.session p.session.toNat with
      | none => return refuse 0x0114 0x8000000A
      | some x =>
        if s.hid.cmd.lockEnd.isSome then
          dropSession x.id
          return refuse 0x0110 0
        if ← openPhase1 x (body.drop 4) then return {}
        return refuse 0x0111 4
  else
    if leAt body 0 1 ≠ 0 then return refuse 0x010E 0
    let a := leAt body 1 1
    if a = 0 ∨ 3 < a then return refuse 0x010E 1
    match reservedBad body [2, 3] with
    | some x => return x
    | none =>
      if s.hid.cmd.lockEnd.isSome then return refuse 0x0110 0
      if s.sessionLimit a then return refuse 0x0115 1
      return okWith (← openPhase0 p.src a)

/-- PASSWORD_CHANGE (R62). -/
def opPassword (c : Ctx) (p : Packet) (body : List Byte) : M Ans := do
  let s ← getS
  let n := leAt body 0 1
  if n < 8 ∨ 32 < n then return refuse 0x010E 0
  match reservedBad body [1, 2, 3] with
  | some x => return x
  | none =>
    let key := ((s.session p.session.toNat).map fun x => x.key).getD []
    let pw := (xorBytes (body.drop 4) (hmac key (by1 [0x49, 0x41, 0x4C, 0x50] ++ leBytes 2 p.seq.toNat))).take n
    match (List.range n).find? fun i => leAt pw i 1 < 0x20 ∨ 0x7E < leAt pw i 1 with
    | some i => return refuse 0x010E (4 + i)
    | none =>
      let salt ← freshBytes 16
      storePwd ⟨c.auth, salt, pbkdf2 pw salt Config.iterations⟩
      changeFree 3 0 c.auth c.session c.transport
      return {}

/-! ## Spares (R34, R84 to R86, R156, R181) -/

/-- Set or clear SUBSTITUTED in a channel's entry (R85). -/
def setSubstituted (c : Nat) (on : Bool) : M Unit := do
  let fl := (← getS).chFlags c
  wtab 0x30 (8 * c + 6) [BitVec.ofNat 8 (if on then setBit fl 3 else clrBit fl 3)]

/-- SPARE_SUBSTITUTE of a SAR converter (R181). The spec states no codes for the event of a commanded substitution: free
values. A release before SA8 took over ends the request that waits (log entry 28). -/
def convSubstitute (c : Ctx) (p : Packet) (k spare : Nat) (byRun : Bool) : M Ans := do
  let s ← getS
  if 7 < k ∨ (spare ≠ 0x0208 ∧ spare ≠ 0x00FF) ∨ s.f (MEA.CONV_STAT.FAILED k) = 1 then return refuse 0x0609 0
  if !s.present 7 then
    absentReply 7
    return absentAt (MEA.CONV_STAT k)
  if spare = 0x0208 then
    if !s.sa8Free then return refuse 0x0606 MEA.SPARE
    let a ← fresh
    let b ← fresh
    sa8Replace k (a % 65536) (b % 65536)
    addDue 0x80 (0x0200 + k) p byRun
    changeFree 4 0 0 c.session c.transport
    return { status := stAccepted }
  else
    if s.hid.trp.conv ≠ some k then return refuse 0x0609 0
    hid fun h => { h with trp := { h.trp with conv := none } }
    if s.f MEA.SPARE.IN_USE = 1 then updMea fun x => { x with relNext := some k }
    else
      updMea fun x => { x with subNext := none }
      complete 0x80 (0x0200 + k) stFailed 0x0107 MEA.SPARE []
    changeFree 4 0 0 c.session c.transport
    return {}

/-- SPARE_SUBSTITUTE. -/
def opSubstitute (c : Ctx) (p : Packet) (body : List Byte) (byRun : Bool) : M Ans := do
  let s ← getS
  let unit := leAt body 0 2
  let field := leAt body 2 2
  if 0x0200 ≤ unit then convSubstitute c p (unit - 0x0200) field byRun
  else
    let spare := field % 256
    let ball : Bool := bit field 15
    let g := s.chGroup unit
    let unbound : Bool := decide (143 < unit) || decide (31 < g) || isSpareChannel unit
    if field = 0x00FF then
      if !s.substituted unit then return refuse 0x0209 0
      hid fun h => { h with trp := { h.trp with
        spares := h.trp.spares.filter fun x => x.2 != .inUse unit false && x.2 != .inUse unit true
        latest := serase h.trp.latest unit } }
      if g < 32 then setSubstituted unit false
      showSpares
      changeFree 4 0 0 c.session c.transport
      return {}
    else if field / 256 % 128 ≠ 0 then return refuse 0x010E 2
    else if !spareKindOk unit spare then return refuse 0x0207 2
    else if !s.spareFree spare then return refuse 0x0208 2
    else if unbound then return refuse 0x0209 0
    else if isDriver unit ∧ !ball ∧ bit (s.f GDR.DRV_FAILED.PAIRS) ((unit - 96) / 2) then return refuse 0x0508 0
    else if !s.present 0 then
      absentReply 0
      return absentAt (MAP.CHMAP unit 0)
    else
      changeFree 4 0 0 c.session c.transport
      if s.active g then
        hid fun h => { h with trp := { h.trp with hand := some ⟨unit, spare, ball, 0⟩ } }
        addDue 0x80 unit p byRun
        return { status := stAccepted }
      else
        copyWords (s.source unit) spare
        useSpare spare unit ball
        setSubstituted unit true
        showSpares
        return {}

/-- One record of SPARE_STATUS: kind (0 channel, 1 comparator cell, 2 SAR converter, 3 MRAM page, 4 SRAM row,
5 management Chord), state (0 free, 1 in use, 2 failed), two reserved bytes, number of the spare, unit it replaces. -/
def spareRecord (kind : Nat) (number : Nat) (inUse : Option Nat) (failed : Bool) : List Byte :=
  by1 [kind, if failed then 2 else if inUse.isSome then 1 else 0, 0, 0] ++ leBytes 2 number ++
    leBytes 2 (inUse.getD 0xFFFF)

/-- SPARE_STATUS (R34, R46): one record for each spare of R34, and one for each channel CH096 to CH139 that R156 reports
failed (DEDUCED, log entry 28). -/
def State.spareStatus (s : State) : List Byte :=
  let chan (c : Nat) : List Byte :=
    match sget? s.hid.trp.spares c with
    | some (.inUse u _) => spareRecord 0 c (some u) false
    | some .failed => spareRecord 0 c none true
    | _ => spareRecord 0 c none (!s.spareFree c)
  let cell (b : Nat) : List Byte :=
    spareRecord 1 (9 * b + 8) ((s.bank b).serves.map fun k => 9 * b + k) (bit (s.f (TRP.BANK_STAT.FAILED b)) 8)
  let page (i : Nat) : List Byte :=
    match s.hid.mem.retired.find? fun x => x.2 == 32768 + i with
    | some x => spareRecord 3 (32768 + i) (some x.1) false
    | none => spareRecord 3 (32768 + i) none (decide (i < s.hid.mem.used))
  let row (i : Nat) : List Byte := spareRecord 4 i (sget? s.hid.mem.rowsUsed i) false
  let chord := if s.chd 1 = 4 ∧ s.chd 2 = 4 then spareRecord 5 0 none true
    else match [1, 2].find? fun n => s.chd n == 5 with
      | some n => spareRecord 5 n (some (otherChd n)) false
      | none => spareRecord 5 0 none false
  let driver (c : Nat) : List Byte := if s.spareFree c then [] else spareRecord 0 c none true
  ((List.range' 90 6) ++ (List.range' 140 4)).flatMap chan ++ (List.range' 96 44).flatMap driver ++ (List.range 8).flatMap cell ++
    spareRecord 2 8 (if s.f MEA.SPARE.IN_USE = 1 then some (s.f MEA.SPARE.SERVES) else none) (s.f MEA.SPARE.SA8_FAILED == 1) ++
    (List.range 1312).flatMap page ++ (List.range 256).flatMap row ++ chord

/-! ## Memory (R435, R436) -/

/-- MEM_SCRUB. -/
def opScrub (p : Packet) (body : List Byte) (byRun : Bool) : M Ans := do
  let s ← getS
  let a := leAt body 0 4
  let n := leAt body 4 4
  if a % 1024 ≠ 0 ∨ 0x02000000 ≤ a then return refuse 0x010E 0
  if n = 0 ∨ 32768 < a / 1024 + n then return refuse 0x010F 4
  if s.hid.mem.scrub.isSome then return refuse 0x1301 MEM.STATUS
  if !s.present 11 then
    absentReply 11
    return absentAt MEM.STATUS
  updMem fun m => { m with scrub := some ⟨a / 1024, n, s.ms, 0, s.splitChd⟩ }
  wf MEM.STATUS.SCRUB_ACTIVE 1
  addDue 0xA0 0 p byRun
  return { status := stAccepted }

/-- MEM_RETIRE: while the memory island is out of service too, the request waits (R436). -/
def opRetire (body : List Byte) : M Ans := do
  let s ← getS
  let p := leAt body 0 4
  match s.retireRefusal p with
  | some r => return refuse r (if r = 0x1302 then 0 else MEM.STATUS)
  | none =>
    if ← retirePage p then return {}
    return { status := stPartial, reason := 0x010D, detail := pageDetail p }

/-! ## Chords, life cycle, firmware (R419 to R421, R468, R471) -/

/-- CHORD_SPLIT. -/
def opSplit (p : Packet) (body : List Byte) (byRun : Bool) : M Ans := do
  let s ← getS
  let n := leAt body 0 1
  if 2 < n then return refuse 0x010E 0
  match reservedBad body [1, 2, 3] with
  | some x => return x
  | none =>
    match s.splitAnswer n with
    | some (some r) => return refuse r CHD.STATUS
    | some none => return {}
    | none =>
      updChord n fun r => { r with toSplit := true }
      addDue 0xB0 n p byRun
      return { status := stAccepted }

/-- CHORD_JOIN. -/
def opJoin (p : Packet) (body : List Byte) (byRun : Bool) : M Ans := do
  let s ← getS
  let n := leAt body 0 1
  if 2 < n then return refuse 0x010E 0
  match reservedBad body [1, 2, 3] with
  | some x => return x
  | none =>
    if s.chd n = 4 then return refuse 0x1203 CHD.STATUS
    if s.chd n ≠ 2 then return {}
    startJoin n
    addDue 0xB1 n p byRun
    return { status := stAccepted }

/-- LIFECYCLE_ADVANCE; `svcLow` tells that SVC_BTN is held low, none where it is not known. -/
def opAdvance (c : Ctx) (p : Packet) (body : List Byte) (svcLow : Option Bool) : M Ans := do
  let s ← getS
  match reservedBad body [1, 2, 3] with
  | some x => return x
  | none =>
    let low ← match svcLow with
      | some b => pure b
      | none => (fun n => bit n 0) <$> fresh
    match s.advanceRefusal (leAt body 0 1) low with
    | some x => return refuse x.1 x.2
    | none =>
      addDue 0xC0 0 p false
      lcAdvance (leAt body 0 1) c.session c.transport
      return { status := stAccepted }

/-- The image an authority may update (R46): 0 management, 1 metrology. -/
def fwImage (auth : Nat) : Nat := if auth = authMetrology then 1 else 0

/-- FW_UPDATE begin. -/
def opFwBegin (c : Ctx) (body : List Byte) : M Ans := do
  let s ← getS
  match hdrKind body with
  | some k =>
    if k ≠ fwImage c.auth then return refuse 0x0106 0
    match reservedBad body [6, 7] with
    | some x => return x
    | none =>
      match s.fwBeginRefusal body with
      | some r => return refuse r (if r = 0x0D02 then MTR.STATUS else 0)
      | none =>
        fwBegin body
        return {}
  | none => return refuse ((s.fwBeginRefusal body).getD 0x1606) 0

/-- FW_UPDATE chunk: the answer, and the transfer left open. -/
def opFwChunk (c : Ctx) (p : Packet) (body : List Byte) (staged : Option Seg) : M (Ans × Option Seg) := do
  let s ← getS
  let k := fwImage c.auth
  let off := match staged with
    | some g => g.first
    | none => leAt body 0 4
  let data := match staged with
    | some g => g.data ++ body
    | none => body.drop 4
  match s.fwNextRefusal k (some (off, data.length)) with
  | some r => return (refuse r 0, none)
  | none =>
    fwTouch k
    if bit p.flags.toNat 3 then
      return ({}, some ⟨0xD1, p.page.toNat, p.inst.toNat, p.scope.toNat, (p.seq.toNat + 1) % 65536, off, off + data.length,
        data, s.hid.now⟩)
    fwWrite k off data
    return ({}, none)

/-- FW_UPDATE END. -/
def opFwEnd (c : Ctx) (p : Packet) (body : List Byte) : M Ans := do
  let s ← getS
  let k := fwImage c.auth
  if 1 < leAt body 64 1 then return refuse 0x010E 64
  match reservedBad body [65, 66, 67] with
  | some x => return x
  | none =>
    match s.fwNextRefusal k none with
    | some r => return refuse r 0
    | none =>
      addDue 0xD2 k p false
      fwEnd k (body.take 64) (leAt body 64 1 == 1)
      return { status := stAccepted }

/-! ## Metering (R329, R338, R339) -/

/-- METER_READ, METER_RECORD_READ and METER_SEAL need the metrology island. -/
def withMeter (m : M Ans) : M Ans := do
  if (← getS).present 8 then m
  else
    absentReply 8
    return absentAt MTR.STATUS

/-- METER_READ. -/
def opMeterRead (body : List Byte) : M Ans := do
  let s ← getS
  match s.meterRead (leAt body 0 1) with
  | none => return refuse 0x010E 0
  | some d =>
    match reservedBad body [1, 2, 3] with
    | some x => return x
    | none => withMeter (pure (okWith d))

/-- METER_RECORD_READ. -/
def opRecordRead (body : List Byte) : M Ans := do
  let s ← getS
  let n := leAt body 4 2
  if n = 0 ∨ 512 < n then return refuse 0x010E 4
  match reservedBad body [6, 7] with
  | some x => return x
  | none => withMeter (match s.heldRecords (leAt body 0 4) n with
    | none => pure (refuse 0x0D07 0)
    | some l => pure (okWith (leBytes 2 l.length ++ leBytes 2 0 ++ l.flatten)))

/-- METER_SEAL. -/
def opSeal (body : List Byte) : M Ans := do
  let s ← getS
  match reservedBad body [0, 1, 2, 3] with
  | some x => return x
  | none => withMeter (match s.sealRefusal (body.drop 4) with
    | some x => pure (refuse x.1 x.2)
    | none => do
      sealTable (body.drop 4)
      return {})

/-! ## RESET (R27, R50) -/

/-- RESET: the device with the next tick. A single island resets after the reply (`afterReply`); only the discarding of
packets by a reset of the host link comes before it (R30, R46). The spec states no effect for a group. -/
def opReset (p : Packet) : M Ans := do
  match p.scope.toNat with
  | 3 => if p.inst.toNat = 10 then resetLink
  | 4 => hid fun h => { h with lcy := { h.lcy with resetSoon := true } }
  | _ => pure ()
  return {}

/-- What a request does once its reply was sent: the reset of an island (R46). -/
def afterReply (op : Nat) (p : Packet) (a : Ans) : M Unit := do
  if op = 0xF0 ∧ a.status = stOk ∧ p.scope.toNat = 3 then resetIsland p.inst.toNat

end Sys2Proof.Machine
end

