-- ==== Sys2Proof/Machine/Serve.lean ====
section
/-! DEFINITION. How a request is served: the order of checks R44, segmented transfers (R54, R55), stored sequences
(R63 to R65), replies and their replay (R39 to R42, R56), the ship responder (R364), the packet tunnel and legacy frames
(R70, R71). DESIGN CHOICE and DEDUCED points: log entries 26 to 28. -/

namespace Sys2Proof.Machine

/-! ## Packets (R35, R38) -/

/-- OPCODE and packet of a complete packet's bytes. -/
def packetOf (src : Source) (b : List Byte) : Req :=
  ⟨leAt b 6 2, ⟨src, BitVec.ofNat 8 (leAt b 2 1), BitVec.ofNat 8 (leAt b 3 1), BitVec.ofNat 16 (leAt b 4 2),
    BitVec.ofNat 16 (leAt b 10 2), BitVec.ofNat 8 (leAt b 12 1), BitVec.ofNat 16 (leAt b 13 2), BitVec.ofNat 8 (leAt b 15 1),
    (b.drop 16).take (leAt b 8 2)⟩⟩

/-- R44 steps 5 and 6: VERSION and FLAGS. -/
def earlyBad (op : Nat) (p : Packet) : Option Ans :=
  if p.version ≠ 1 ∧ p.version ≠ 2 then some (refuse 0x0112 0x80000002)
  else if p.flags &&& 0x73 ≠ 0 ∨ (bit p.flags.toNat 3 ∧ op ≠ 0x30 ∧ op ≠ 0x90 ∧ op ≠ 0xD1) then
    some (refuse 0x010E 0x80000003)
  else none

/-- Whether a packet is phase 1 of SESSION_OPEN. -/
def phase1 (op : Nat) (p : Packet) : Bool := op == 0x70 && leAt p.payload 0 1 == 1 && p.payload != []

/-- R44 step 7. -/
def State.sessionOk (s : State) (op : Nat) (p : Packet) : Bool :=
  if phase1 op p then
    match s.session p.session.toNat with
    | some x => !x.opened && sameSource x.src p.src
    | none => false
  else p.session == 0 || (s.openSession p).isSome

/-- Whether a request must carry AUTH (R38, R62). -/
def State.needsAuth (s : State) (op : Nat) (p : Packet) : Bool :=
  op == 0x72 || (p.session != 0 && match p.src with
    | .canxl .. => true
    | .udp .. => true
    | _ => s.f CMD.SESSION_CFG.AUTH_SPI == 1)

/-- R44 step 8. -/
def State.tagBad (s : State) (op : Nat) (p : Packet) : Bool :=
  if phase1 op p then false
  else if authSet p then
    match s.openSession p with
    | some x => !tagOk op p x.key
    | none => true
  else s.needsAuth op p

/-! ## Violations (R53) -/

/-- A refusal enters the violation log (R53). -/
def logViolation (c : Ctx) (a : Ans) : M Unit := do
  if a.status = stRefused ∧ [0x0106, 0x0108, 0x0109, 0x0113, 0x0114].contains a.reason then
    violation ⟨a.va % 16777216, (← getS).ms % 4294967296, c.op, c.session, c.transport, a.reason % 256, c.source⟩

/-! ## Segmented transfers (R54, R55) -/

/-- The open transfer of a request's session, or of a stored sequence. -/
def State.segOf (s : State) (c : Ctx) : Option Seg :=
  if c.transport = 0x30 then s.hid.cmd.runSeg else (s.session c.session).bind fun x => x.seg

/-- Put a transfer in place of the open one. -/
def putSeg (c : Ctx) (g : Option Seg) : M Unit := do
  let s ← getS
  if s.segOf c ≠ g then
    if c.transport = 0x30 then hid fun h => { h with cmd := { h.cmd with runSeg := g } }
    else updSession c.session fun x => { x with seg := g }

/-- The TARGET byte in which a packet differs from a transfer, or SEQ, or OPCODE (R55). -/
def segHead (op : Nat) (p : Packet) (g : Seg) : Option Nat :=
  if op ≠ g.opcode then some 0x80000006
  else if p.page.toNat ≠ g.page then some 0x8000000C
  else if p.inst.toNat % 256 ≠ g.inst % 256 then some 0x8000000D
  else if p.inst.toNat / 256 ≠ g.inst / 256 then some 0x8000000E
  else if p.scope.toNat ≠ g.scope then some 0x8000000F
  else if p.seq.toNat ≠ g.nextSeq then some 0x80000004
  else none

/-- What breaks an open transfer, or goes on with one that timed out. -/
def State.segBreak (s : State) (c : Ctx) (p : Packet) : Option Ans :=
  let lost := if c.transport = 0x30 then none else (s.session c.session).bind fun x => x.segLost
  match lost.filter fun g => segHead c.op p g == none with
  | some _ => some (refuse 0x0116 0x80000004)
  | none => (s.segOf c).bind fun g => (segHead c.op p g).map fun d => refuse 0x0116 d

/-- The mark of a timed-out transfer goes with the next segment, or with a new transfer. -/
def clearLost (c : Ctx) : M Unit := do
  match (← getS).session c.session with
  | some x =>
    if x.segLost.any fun g => g.opcode == c.op then updSession c.session fun y => { y with segLost := none }
  | none => pure ()

/-! ## Stored sequences: storing (R63) -/

/-- Opcodes a stored sequence may not hold. -/
def unstorable (op scope : Nat) : Bool :=
  [0x70, 0x71, 0x72, 0x90, 0x91, 0xD0, 0xD1, 0xD2, 0xC0, 0xE2].contains op || (op == 0xF0 && scope == 4)

/-- Whether the bytes do not begin with a packet that may be stored: R44 steps 1 to 6 and 11, and its opcode. -/
def storeBad (b : List Byte) : Bool :=
  let n := leAt b 8 2
  let r := packetOf .sequence b
  decide (b.length < 20) || leAt b 0 2 != 0x5A3C || decide (4096 < n) || decide (b.length < 20 + n) ||
    leAt b (16 + n) 4 != crc32c (b.take (16 + n)) || (earlyBad r.op r.p).isSome || !knownOps.contains r.op ||
    unstorable r.op r.p.scope.toNat

/-- The packets of a sequence's bytes, or the offset of the first that may not be stored; `fuel` bounds their number. -/
def sequencePackets : Nat → Nat → List Byte → Except Nat (List Req)
  | _, _, [] => .ok []
  | 0, o, _ => .error o
  | f + 1, o, b =>
    if storeBad b then .error o
    else
      let n := 20 + leAt b 8 2
      match sequencePackets f (o + n) (b.drop n) with
      | .ok l => .ok (packetOf .sequence b :: l)
      | .error e => .error e

/-- SEQUENCE_STORE: the answer, and the transfer left open. -/
def opSequenceStore (c : Ctx) (p : Packet) (body : List Byte) (staged : Option Seg) : M (Ans × Option Seg) := do
  let s ← getS
  let idx := match staged with
    | some g => g.first
    | none => leAt body 0 1
  let data := match staged with
    | some g => g.data ++ body
    | none => body.drop 4
  if 63 < idx then return (refuse 0x010E 0, none)
  match if staged.isSome then none else reservedBad body [1, 2, 3] with
  | some x => return (x, none)
  | none =>
    if 4096 < data.length then return (refuse 0x0104 4100, none)
    if bit p.flags.toNat 3 then
      return ({}, some ⟨0x90, p.page.toNat, p.inst.toNat, p.scope.toNat, (p.seq.toNat + 1) % 65536, idx, 0, data, s.hid.now⟩)
    match sequencePackets data.length 4 data with
    | .error o => return (refuse 0x010E o, none)
    | .ok _ =>
      hid fun h => { h with cmd := { h.cmd with seqs := sput h.cmd.seqs idx ⟨c.auth, data⟩ } }
      return ({}, none)

/-- The entries staged by the segments of a load of table 0x70: each its length in two bytes, then its bytes. -/
def stagedSeqs : Nat → List Byte → List (List Byte)
  | 0, _ => []
  | _, [] => []
  | f + 1, b => (b.drop 2).take (leAt b 0 2) :: stagedSeqs f (b.drop (2 + leAt b 0 2))

/-- TABLE_LOAD of table 0x70 (R46, R48): every entry holds the bytes of a sequence, under the rules of R63. The spec gives
the entries of this table no size: those of one packet share its payload equally (DESIGN CHOICE, log entry 27); its
CRC-32C in the change log is a free value. -/
def loadSequences (c : Ctx) (p : Packet) (body : List Byte) (staged : Option Seg) : M (Ans × Option Seg) := do
  let s ← getS
  let start := leAt body 0 2
  let count := leAt body 2 2
  let size := (body.length - 4) / count
  let es := (List.range count).map fun k => ((body.drop 4).drop (size * k)).take size
  if staged.any fun g => g.next != start then return (refuse 0x0116 0, none)
  if 64 ≤ start then return (refuse 0x010C 0, none)
  if 64 < start + count then return (refuse 0x010C 2, none)
  let bad := (List.range count).findSome? fun k =>
    match sequencePackets size (4 + size * k) (es.getD k []) with
    | .error o => some o
    | .ok _ => none
  match bad with
  | some o => return (refuse 0x010E o, none)
  | none =>
    let first := match staged with
      | some g => g.first
      | none => start
    let data := (match staged with
      | some g => g.data
      | none => []) ++ es.flatMap fun e => leBytes 2 e.length ++ e
    if bit p.flags.toNat 3 then
      return ({}, some ⟨0x30, p.page.toNat, 0x70, p.scope.toNat, (p.seq.toNat + 1) % 65536, first, start + count, data,
        s.hid.now⟩)
    let all := stagedSeqs data.length data
    (all.zip (List.range all.length)).forM fun x =>
      hid fun h => { h with cmd := { h.cmd with seqs := sput h.cmd.seqs (first + x.2) ⟨c.auth, x.1⟩ } }
    change 2 0x70 ((← fresh) % 4294967296) ((← fresh) % 4294967296) c.session c.transport
    return ({}, none)

/-! ## Execution (R44 steps 11 to 16) -/

/-- What a request does once its checks have passed: the answer, and the transfer left open. -/
def handle (c : Ctx) (p : Packet) (body : List Byte) (staged : Option Seg) (svcLow : Option Bool) :
    M (Ans × Option Seg) := do
  let s ← getS
  let byRun : Bool := c.transport == 0x30
  let page := p.page.toNat
  let inst := p.inst.toNat
  let plain (m : M Ans) : M (Ans × Option Seg) := do return (← m, none)
  match c.op with
  | 0x00 => return ({}, none)
  | 0x01 => return (okWith s.identify, none)
  | 0x02 => return (okWith s.getStatus, none)
  | 0x10 => plain (opRead c page body)
  | 0x11 => plain (opWrite c page body)
  | 0x12 => plain (opModify c page body)
  | 0x20 => plain (opEnable inst)
  | 0x21 => plain (opDisable inst)
  | 0x22 => plain (opCommit inst)
  | 0x30 => if inst = 0x70 then loadSequences c p body staged else tableLoadBody c p body staged
  | 0x31 => plain (tableVerify inst)
  | 0x32 => plain (tableSwap inst)
  | 0x40 => plain (opSetpoint c body)
  | 0x50 => plain (opSelftest p body byRun)
  | 0x60 => plain (opLogRead body)
  | 0x61 => plain (opLogClear c body)
  | 0x70 => plain (opSessionOpen p body)
  | 0x71 => do
    dropSession c.session
    return ({}, none)
  | 0x72 => plain (opPassword c p body)
  | 0x80 => plain (opSubstitute c p body byRun)
  | 0x81 => return (okWith s.spareStatus, none)
  | 0x90 => opSequenceStore c p body staged
  | 0xA0 => plain (opScrub p body byRun)
  | 0xA1 => plain (opRetire body)
  | 0xB0 => plain (opSplit p body byRun)
  | 0xB1 => plain (opJoin p body byRun)
  | 0xC0 => plain (opAdvance c p body svcLow)
  | 0xD0 => plain (opFwBegin c body)
  | 0xD1 => opFwChunk c p body staged
  | 0xD2 => plain (opFwEnd c p body)
  | 0xE0 => plain (opMeterRead body)
  | 0xE1 => plain (opRecordRead body)
  | 0xE2 => plain (opSeal body)
  | 0xF0 => plain (opReset p)
  | _ => return ({}, none)

/-- The answer of R44 steps 11 and 12, if they fail. -/
def accessBad (c : Ctx) (p : Packet) (body : List Byte) : Option Ans :=
  if !knownOps.contains c.op then some (refuse 0x0105 0x80000006)
  else if !authOk c.auth c.op p.scope.toNat p.inst.toNat body then some (refuse 0x0106 0)
  else if c.auth = authMetrology ∧ (c.op = 0x11 ∨ c.op = 0x12) ∧ p.page ≠ 0x0D then
    some (refuseAt 0x0106 (p.page.toNat * 65536 + leAt body 0 2))
  else none

/-- The answer of R44 steps 13 to 15, if they fail, and of R470. -/
def State.checksBad (s : State) (c : Ctx) (p : Packet) (body : List Byte) (staged : Option Seg) : Option Ans :=
  match s.stateBad c.auth c.op p body staged with
  | some a => some a
  | none => match sizeBad c.op p body staged.isSome with
    | some a => some a
    | none => match targetBad c.op p body with
      | some a => some a
      | none => if c.op = 0x30 ∧ s.lcState = 4 then some (refuse 0x160C LCY.STATE) else none

/-- Run a request, other than SEQUENCE_RUN, through R44 from step 11 on. R55 gives its SEGMENT_ORDER check no place in that
order: it stands after step 12 and before step 13 (DESIGN CHOICE, log entry 28). A packet that an earlier step refuses
breaks an open transfer all the same. -/
def execute (c : Ctx) (p : Packet) (svcLow : Option Bool) : M Ans := do
  let s ← getS
  let body := bodyOf p
  match accessBad c p body with
  | some a =>
    if (s.segBreak c p).isSome then putSeg c none
    return a
  | none =>
    let staged := s.segOf c
    let broken := s.segBreak c p
    clearLost c
    match broken with
    | some a =>
      putSeg c none
      return a
    | none =>
      match s.checksBad c p body staged with
      | some a =>
        putSeg c none
        return a
      | none =>
        let (a, g) ← handle c p body staged svcLow
        putSeg c g
        return a

/-! ## Stored sequences: running (R64, R65) -/

/-- The answer of a run that ends with step `i`. -/
def stepEnd (i : Nat) (status reason detail : Nat) : Ans :=
  if i = 0 then { status := status, reason := reason, detail := detail }
  else { status := stPartial, reason := 0x0117, detail := i * 16777216 + detail % 16777216 }

/-- The steps of a run from step `i` on; no answer while one is awaited. -/
def runSteps (auth session : Nat) (by_ : Option Packet) : Nat → List Req → M (Option Ans)
  | _, [] => do
    hid fun h => { h with cmd := { h.cmd with runSeg := none } }
    return some {}
  | i, r :: rest => do
    let c : Ctx := ⟨r.op, auth, session, 0x30, 0⟩
    hid fun h => { h with cmd := { h.cmd with runResult := none } }
    let a ← execute c { r.p with session := BitVec.ofNat 16 session } none
    logViolation c a
    afterReply r.op r.p a
    let (status, reason, detail) := match a.status, (← getS).hid.cmd.runResult with
      | 1, some x => x
      | _, _ => (a.status, a.reason, a.detail)
    if status = stOk then runSteps auth session by_ (i + 1) rest
    else if status = stAccepted then
      hid fun h => { h with cmd := { h.cmd with run := some ⟨by_, auth, i, rest⟩ } }
      return none
    else
      hid fun h => { h with cmd := { h.cmd with runSeg := none } }
      return some (stepEnd i status reason detail)

/-- The steps of a stored sequence; an entry nothing was stored in has none. -/
def State.sequence (s : State) (idx : Nat) : Nat × List Req :=
  match sget? s.hid.cmd.seqs idx with
  | some q => match sequencePackets q.bytes.length 0 q.bytes with
    | .ok l => (q.auth, l)
    | .error _ => (q.auth, [])
  | none => (0, [])

/-- SEQUENCE_RUN: the status of the sequence, or ACCEPTED where a step is awaited (R40). -/
def opSequenceRun (c : Ctx) (p : Packet) (body : List Byte) : M Ans := do
  let s ← getS
  if 63 < leAt body 0 1 then return refuse 0x010E 0
  match reservedBad body [1, 2, 3] with
  | some x => return x
  | none =>
    let (auth, steps) := s.sequence (leAt body 0 1)
    match ← runSteps (min c.auth auth) c.session (some p) 0 steps with
    | some a => return a
    | none =>
      addDue 0x91 0 p false
      return { status := stAccepted }

/-- An awaited step has ended: the run goes on or is over. -/
def resumeRun : M Unit := do
  let s ← getS
  match s.hid.cmd.run, s.hid.cmd.runResult with
  | some r, some (status, reason, detail) =>
    hid fun h => { h with cmd := { h.cmd with run := none, runResult := none } }
    if status = stOk then
      let session := (r.by_.map fun p => p.session.toNat).getD 0
      match ← runSteps r.auth session r.by_ (r.index + 1) r.rest with
      | some a => endRun r.by_ a
      | none => pure ()
    else
      hid fun h => { h with cmd := { h.cmd with runSeg := none } }
      endRun r.by_ (stepEnd r.index status reason detail)
    wf CMD.STATUS.EXEC_BUSY (b2n (← getS).hid.cmd.run.isSome)
  | _, _ => pure ()

/-- SEQ_AUTORUN (R65): with its stored authority. -/
def autorun : M Unit := do
  let s ← getS
  let i := s.f CMD.SEQ_AUTORUN.INDEX
  if i < 64 then
    let (auth, steps) := s.sequence i
    match ← runSteps auth 0 none 0 steps with
    | some a => endRun none a
    | none => wf CMD.STATUS.EXEC_BUSY 1

/-! ## The executor (R44 steps 9 and 10, R45) -/

/-- Run a request through R44 from step 11 on, SEQUENCE_RUN among them. -/
def executeTop (c : Ctx) (p : Packet) (svcLow : Option Bool) : M Ans := do
  let s ← getS
  if c.op = 0x91 ∧ (accessBad c p (bodyOf p)).isNone then
    match s.segBreak c p with
    | some a =>
      putSeg c none
      return a
    | none =>
      match s.checksBad c p (bodyOf p) none with
      | some a => return a
      | none => opSequenceRun c p (bodyOf p)
  else execute c p svcLow

/-- Run one request and answer it; its reply is kept for R42. -/
def process (op : Nat) (p : Packet) (svcLow : Option Bool) : M Unit := do
  let s ← getS
  let key := s.replyKey p
  let auth := ((s.openSession p).map fun x => x.auth).getD 0
  let c : Ctx := ⟨op, auth, p.session.toNat, srcCode p.src, srcId p.src⟩
  if op ≠ 0x40 then wf CMD.STATUS.EXEC_BUSY 1
  let a ← executeTop c p svcLow
  logViolation c a
  let r := replyPkt op p a
  if p.session ≠ 0 then
    let k : Kept := ⟨p.seq.toNat, packetCrc op p, r⟩
    updSession p.session.toNat fun x =>
      if sameSource x.src p.src then { x with kept := (x.kept ++ [k]).drop (x.kept.length + 1 - 8) } else x
  wf CMD.STATUS.EXEC_BUSY (b2n (← getS).hid.cmd.run.isSome)
  sendReply p key r
  afterReply op p a

/-- Whether the executor takes no request: a stored sequence awaits a step, the Chord that runs the executor restarts, or
a device RESET was answered (R50, R64, R417). -/
def State.executorHeld (s : State) : Bool :=
  s.hid.cmd.run.isSome || s.chd s.executorChord == 1 || s.hid.lcy.resetSoon

/-- The waiting requests are executed, in order (R45). -/
def drain : M Unit :=
  (List.range 16).forM fun _ => do
    let s ← getS
    if !s.executorHeld then
      match s.hid.cmd.waiting with
      | [] => pure ()
      | r :: rest =>
        hid fun h => { h with cmd := { h.cmd with waiting := rest } }
        process r.op r.p none

/-- What waits goes on: a run whose step has ended, then the waiting requests. -/
def settleExecutor : M Unit := do
  resumeRun
  if !(← getS).hid.cmd.waiting.isEmpty then drain

/-- A request that passed R44 steps 1 to 6: steps 7 to 10, then the executor, or the fast path of R66. -/
def passOn (op : Nat) (p : Packet) (svcLow : Option Bool) : M Unit := do
  let s ← getS
  let c : Ctx := ⟨op, 0, p.session.toNat, srcCode p.src, srcId p.src⟩
  if !s.sessionOk op p then
    logViolation c (refuse 0x0114 0)
    replyEarly op p (refuse 0x0114 0x8000000A)
  else if s.tagBad op p then
    inc CMD.RX_ERR.BAD_AUTH
    logViolation c (refuse 0x0113 0)
    replyEarly op p (refuse 0x0113 0)
  else
    if p.session ≠ 0 then updSession p.session.toNat fun x => if x.opened then { x with at_ := s.hid.now } else x
    let crc := packetCrc op p
    match (s.openSession p).bind fun x => x.kept.find? fun k => k.seq == p.seq.toNat && k.crc == crc with
    | some k =>
      inc CMD.STATS.REPLAYED
      sendReply p (s.replyKey p) k.reply
    | none =>
      if 16 ≤ s.hid.cmd.waiting.length + s.hid.cmd.tunnelWait.length then replyEarly op p (refuse 0x010A 0)
      else if op ≠ 0x40 ∧ !s.present (12 + s.executorChord) then
        absentReply (12 + s.executorChord)
        replyEarly op p (absentAt (SYS.ISLAND (12 + s.executorChord)))
      else if op ≠ 0x40 ∧ s.executorHeld then
        hid fun h => { h with cmd := { h.cmd with waiting := h.cmd.waiting ++ [⟨op, p⟩] } }
      else process op p svcLow

/-- The ship responder (R364): R44 steps 1 to 6 and 11, then SESSION 0, then four opcodes. -/
def shipRespond (op : Nat) (p : Packet) : M Unit := do
  let s ← getS
  let a := if !knownOps.contains op then refuse 0x0105 0x80000006
    else if p.session ≠ 0 then refuse 0x0114 0x8000000A
    else if op = 0x00 then {}
    else if op = 0x01 then okWith s.identify
    else if op = 0x02 then okWith s.getStatus
    else if op = 0xF0 ∧ p.scope = 4 then {}
    else refuse 0x0107 SYS.STATUS
  logViolation ⟨op, 0, p.session.toNat, srcCode p.src, srcId p.src⟩ a
  if op = 0xF0 ∧ a.status = stOk then
    setBsw true
    hid fun h => { h with lcy := { h.lcy with resetSoon := true } }
  sendReply p none (replyPkt op p a)

/-! ## Reception (R9, R49, R73, R74) -/

/-- Whether the block listens to a source now. -/
def State.listens (s : State) (src : Source) : Bool :=
  !s.hid.lcy.held && !s.hid.lcy.resetSoon && s.linkOpen && s.present 10 &&
  match src with
  | .spi => s.packetMode
  | .tunnel => !s.packetMode && s.dev != 6
  | .canxl n prio =>
    s.dev != 6 && s.f SYS.STATUS.RECOVERY == 0 && s.present 9 && s.f CMD.CANXL_CFG0.EN == 1 &&
      s.f CMD.CANXL_CFG0.CTRL == n.val && s.f CMD.CANXL_CFG1.REQ_ID == prio && s.f (BUS.CTRL.EN n.val) == 1
  | .udp i _ _ =>
    s.dev != 6 && s.f SYS.STATUS.RECOVERY == 0 && s.present 9 && s.f CMD.UDP_CFG.EN == 1 && s.f (NET.IF_CFG.EN i.val) == 1
  | .sequence => false

/-- A packet whose MAGIC, LENGTH and CRC are right, LENGTH at most 4,096. -/
def receive (op : Nat) (p : Packet) (svcLow : Option Bool) : M Unit := do
  let s ← getS
  match earlyBad op p with
  | some a => replyEarly op p a
  | none => if s.dev = 6 then shipRespond op p else passOn op p svcLow

/-- The bytes of a frame, datagram or tunnel packet: R44 steps 1 to 4. A tunnel packet that gets no reply ends BUSY at once
(DESIGN CHOICE, log entry 28: R71 names only the placing of the reply). -/
def receiveBytes (src : Source) (b : List Byte) : M Unit := do
  let s ← getS
  if s.listens src then
    let n := leAt b 8 2
    let r := packetOf src b
    let serial : Bool := match src with
      | .spi => true
      | .tunnel => true
      | _ => false
    let lost : M Unit := if src = .tunnel then wf CMD.TUNNEL_CTL.BUSY 0 else pure ()
    if leAt b 0 2 ≠ 0x5A3C then
      inc CMD.RX_ERR.BAD_MAGIC
      lost
    else if 4096 < n ∧ 10 ≤ b.length then
      inc CMD.RX_ERR.OVERLENGTH
      replyEarly r.op r.p (refuse 0x0103 0x80000008)
    else if serial ∧ b.length < 20 + n then
      inc CMD.RX_ERR.TRUNCATED
      lost
    else if !serial ∧ b.length ≠ 20 + n then replyEarly r.op r.p (refuse 0x0104 0x80000008)
    else if leAt b (16 + n) 4 ≠ crc32c (b.take (16 + n)) then
      inc CMD.RX_ERR.BAD_CRC
      replyEarly r.op r.p (refuse 0x0102 0)
    else receive r.op r.p none

/-- A GO that was accepted: the packet in CMD.TUNNEL_TX is received (R71). -/
def takeGo : M Unit := do
  let s ← getS
  match s.hid.cmd.go with
  | some len =>
    hid fun h => { h with cmd := { h.cmd with go := none } }
    let ws := (List.range ((len + 3) / 4)).map fun w => s.rd (CMD.TUNNEL_TX w)
    receiveBytes .tunnel ((ws.flatMap fun w => leBytes 4 w.toNat).take len)
  | none => pure ()

/-- A request of a row: MAGIC, LENGTH and CRC are right by construction. A payload its transport cannot carry is not
received. -/
def serve (op : Nat) (p : Packet) (svcLow : Option Bool := none) : M Unit := do
  let s ← getS
  if s.listens p.src then
    if p.payload.length ≤ maxPayload p.src then
      receive op p svcLow
      takeGo
    else if maxPayload p.src = 4096 then
      inc CMD.RX_ERR.OVERLENGTH
      replyEarly op p (refuse 0x0103 0x80000008)

/-! ## Legacy frames (R70) -/

/-- A legacy frame from its bits 71:8: the CRC-8 in bits 7:0. -/
def legacyWord (hi : BitVec 64) : BitVec 72 :=
  let bytes := (List.range 8).map fun i => BitVec.ofNat 8 (hi.toNat / 2 ^ (56 - 8 * i))
  BitVec.ofNat 72 (hi.toNat * 256 + crc8 bytes)

/-- The frame that writes a parameter. -/
def legacyWrite (a : Nat) (w : Word) : BitVec 72 :=
  legacyWord (BitVec.ofNat 64 (2 ^ 63 + a % 16777216 * 2 ^ 32 + w.toNat))

/-- The result frame of a legacy frame: status, address, data. -/
def legacyResult (status a : Nat) (w : Word) : BitVec 72 :=
  legacyWord (BitVec.ofNat 64 (status * 2 ^ 56 + a % 16777216 * 2 ^ 32 + w.toNat))

/-- What a legacy frame reads or writes. -/
def legacyAccess (write : Bool) (a : Nat) (w : Word) : M (Ans × Word) := do
  let s ← getS
  let c : Ctx := ⟨if write then 0x11 else 0x10, authOperator, 0, 0x02, 0⟩
  if s.dev = 6 then
    return if !write ∧ a = SYS.STATUS then ({}, s.rd SYS.STATUS) else (refuse 0x0107 SYS.STATUS, 0)
  let x ← if write then (fun y => (y, ([] : List Word))) <$> writeWords c [(a, w)] else readWords c [a]
  logViolation c x.1
  return (x.1, x.2.headD 0)

/-- A legacy frame: executed when its CRC-8 is right; its result goes out with the next frame. -/
def legacyFrame (frame : BitVec 72) : M Unit := do
  let s ← getS
  if !s.hid.lcy.held ∧ !s.hid.lcy.resetSoon ∧ s.linkOpen ∧ s.present 10 ∧ !s.packetMode then
    let n := frame.toNat
    let a := n / 2 ^ 40 % 16777216
    let setResult (r : BitVec 72) : M Unit := hid fun h => { h with cmd := { h.cmd with legacy := r } }
    if legacyWord (BitVec.ofNat 64 (n / 256)) ≠ frame then
      inc CMD.LEGACY_ERR.FRAMES_BAD
      setResult (legacyResult 0 a 0)
    else
      let (x, w) ← if n / 2 ^ 64 % 128 ≠ 0 then pure (refuse 0x010E a, (0 : Word))
        else legacyAccess (bit n 71) a (BitVec.ofNat 32 (n / 256))
      if x.status ≠ stOk then
        wf CMD.LEGACY_ERR.REASON x.reason
        wf CMD.LEGACY_ADDR.ADDRESS a
      setResult (legacyResult (0x80 + (if x.status = stRefused then 0x40 else 0) + (if x.status = stFailed then 0x20 else 0))
        a w)
      takeGo

/-- The WRITE request of words that lie side by side; `tag` is its authentication tag, where FLAGS.AUTH is set. -/
def writePacket (src : Source) (version flags : Byte) (seq session : BitVec 16) (tag : List Byte)
    (ws : List (Nat × Word)) : Packet :=
  let a := (ws.headD (0, 0)).1
  ⟨src, version, flags, seq, session, BitVec.ofNat 8 (a / 65536), 0, 0,
    leBytes 2 (a % 65536) ++ leBytes 2 ws.length ++ (ws.flatMap fun x => leBytes 4 x.2.toNat) ++
      (if bit flags.toNat 7 then tag else [])⟩

/-- A host write of parameters by way of a WRITE packet or of legacy frames; the words lie side by side. -/
def hostWrite (v : Via) (ws : List (Nat × Word)) : M Unit :=
  match v with
  | .packet src version flags seq session tag => serve 0x11 (writePacket src version flags seq session tag ws)
  | .legacy => ws.forM fun x => legacyFrame (legacyWrite x.1 x.2)

end Sys2Proof.Machine
end

