-- ==== Sys2Proof/Machine/Receive.lean ====
section
/-! DEFINITION. What arrives from outside beside host requests: CAN frames and their readers (R443 to R445), Ethernet
frames (R456, R457), chip-select frames (R68); and the management tick. DESIGN CHOICE and DEDUCED points: log entries 1, 23 and 28. -/

namespace Sys2Proof.Machine

/-- Do something while the block runs: not held in reset and not in SHIP. -/
def whenAwake (m : M Unit) : M Unit := do
  if (← getS).awake then m

/-- Do something while the block runs and an island is PRESENT. -/
def onIsland (n : Nat) (m : M Unit) : M Unit := do
  let s ← getS
  if s.awake ∧ s.present n then m

/-- Do something while the block runs and CD0 works. -/
def onCd0 (m : M Unit) : M Unit := do
  let s ← getS
  if s.awake ∧ s.cd0Reads then m

/-! ## Readers of the CAN logs (R445) -/

/-- CD0 takes the safe copies among the entries of a log from `cd0` on (R392, R445). -/
def readSafe (n : Nat) : M Unit := do
  let s ← getS
  if s.cd0Reads then
    let c := s.can n
    updCan n fun c => { c with cd0 := c.next }
    (c.log.filter fun e => decide (c.cd0 ≤ e.rxseq) && !e.tx).forM fun e => do
      if e.frame.typ = 1 ∧ e.frame.data.length = 32 ∧ e.frame.id = s.f SAF.MSG_CFG.CAN_ID ∧ s.f SAF.MSG_CFG.CTRL = n then
        safeCopy .can e.frame.data
    showPool n

/-- What CD2 does with one entry of a log: a reference message of its own tells when it began (R453), one received is taken (R454), as
a command packet is (R73). -/
def readEntry (n : Fin 4) (e : LogEntry) : M Unit := do
  let s ← getS
  let f := e.frame
  if e.tx then
    if f.typ = 0 ∧ f.id = s.f BUS.TIME_CFG.REF_ID ∧ s.f BUS.TIME_CFG.CTRL = n.val ∧ s.f BUS.TIME_CFG.ROLE = 1 then
      hid fun h => { h with bus := { h.bus with time := { h.bus.time with prevTime := some (e.time % 2 ^ 48) } } }
    return
  if f.typ = 0 ∧ f.id = s.f BUS.TIME_CFG.REF_ID ∧ s.f BUS.TIME_CFG.CTRL = n.val ∧ f.data.length = 8 then
    takeReference (leAt f.data 0 1) (bit (leAt f.data 1 1) 0) (leAt f.data 2 6) (e.time % 2 ^ 48)
  if f.typ = 2 ∧ f.id = s.f CMD.CANXL_CFG1.REQ_ID ∧ f.sdt = s.f CMD.CANXL_CFG0.SDT ∧ f.vcid = s.f CMD.CANXL_CFG0.VCID then
    receiveBytes (.canxl n f.id) f.data
    takeGo

/-- CD2 takes what is for it among the entries of a log from `cd2` on (R445). -/
def readNet (n : Fin 4) : M Unit := do
  let s ← getS
  if s.cd2Reads then
    let c := s.can n
    updCan n fun c => { c with cd2 := c.next }
    (c.log.filter fun e => decide (c.cd2 ≤ e.rxseq)).forM (readEntry n)
    showPool n

/-- A controller receives a frame whose start of frame lies `sof` ns back (R443 to R445). -/
def canReceived (n : Fin 4) (f : CanFrame) (sof : Nat) : M Unit := do
  let s ← getS
  if s.awake ∧ s.present 9 ∧ s.canTakes n f then
    let _ ← logFrame n f false (s.netTime - sof)
    readSafe n
    readNet n

/-- The head frame of a queue is sent, and the readers pass its entry (R443, R448). -/
def canTransmitted (n : Fin 4) (sof : Nat) : M Unit := do
  transmitHead n sof
  readSafe n
  readNet n

/-! ## Ethernet (R456, R457) -/

/-- A received frame goes to its use: the block's own answers, a safe copy, a command packet. -/
def ethTaken (p : Fin 2) (f : EthFrame) : M Unit := do
  match ← ethAnswer p f with
  | none => pure ()
  | some (sport, dport, data) =>
    let s ← getS
    if dport = s.f SAF.MSG_CFG1.UDP_PORT then safeCopy (.eth p f.srcIp sport) data
    else if dport = s.f CMD.UDP_CFG.PORT ∧ data.length ≤ 1472 then
      receiveBytes (.udp p f.srcIp sport) data
      takeGo

/-- Whether a frame has to wait in its interface's buffer: for CD2, or for CD0 where it is a safe copy. -/
def State.ethWaits (s : State) (f : EthFrame) : Bool :=
  !s.cd2Reads || match f.kind with
    | .udp _ _ dport _ => dport == s.f SAF.MSG_CFG1.UDP_PORT && !s.cd0Reads
    | _ => false

/-- A frame that nobody takes yet waits in its interface's buffer of 32 (R456). -/
def bufferFrame (p : Fin 2) (f : EthFrame) : M Unit := do
  let s ← getS
  if (s.hid.bus.rx.filter fun x => x.1 == p.val).length < 32 then
    hid fun h => { h with bus := { h.bus with rx := h.bus.rx ++ [(p.val, f)] } }
  else inc (NET.STAT.RX_DROP p)

/-- An interface receives a frame. -/
def ethReceived (p : Fin 2) (f : EthFrame) : M Unit := do
  let s ← getS
  if s.awake ∧ s.present 9 ∧ s.f (NET.IF_CFG.EN p) = 1 then
    if s.ethWaits f then bufferFrame p f else ethTaken p f

/-- What waited for a Chord goes on: the readers of the logs, buffered frames, the executor (R417, R445). -/
def chordResumes : M Unit := do
  [(0 : Fin 4), 1, 2, 3].forM fun n => do
    readSafe n
    readNet n
  let s ← getS
  let go := s.hid.bus.rx.filter fun x => !s.ethWaits x.2
  hid fun h => { h with bus := { h.bus with rx := h.bus.rx.filter fun x => s.ethWaits x.2 } }
  go.forM fun x => ethTaken (Fin.ofNat 2 x.1) x.2
  settleExecutor

/-! ## Chip-select frames (R44, R68, R69) -/

/-- A chip-select frame ends: `clocked` bytes were clocked out. -/
def chipSelect (mosi : MosiKind) (clocked : Nat) : M Unit := do
  let s ← getS
  if !s.hid.lcy.held ∧ s.linkOpen ∧ s.present 10 ∧ s.packetMode then
    match s.que.spi with
    | [] => pure ()
    | p :: _ =>
      if p.bytes.length ≤ clocked then
        act .spiPop
        setAttn
    if !s.hid.lcy.resetSoon then
      match mosi with
      | .noMagic => inc CMD.RX_ERR.BAD_MAGIC
      | .truncated => inc CMD.RX_ERR.TRUNCATED
      | .complete => pure ()

/-! ## The tick -/

/-- What a management tick does while the block runs. -/
def management : M Unit := do
  ledgerTick
  onIsland 6 posTick
  levelTick
  windowEvents
  thermalFactor
  chargeLimits
  lvpTick
  meterTick
  lockTick
  finishSplit 1
  finishSplit 2
  onIsland 11 scrubTick
  (List.range 4).forM dropExpired
  hid fun h => { h with bus := { h.bus with out := [] } }
  sweepSs1
  handLeft
  deviceStateEvaluation
  settleExecutor

/-- One tick of 1 ms (DESIGN CHOICE, log entry 1): the time goes on; a RESET that was answered begins. -/
def tick : M Unit := do
  hid fun h => { h with now := h.now + 1000 }
  let s ← getS
  if !s.hid.lcy.held then
    if s.hid.lcy.resetSoon then deviceReset 4 true
    else if s.dev ≠ 6 then management

end Sys2Proof.Machine
end

