-- ==== Sys2Proof/WellFormed.lean ====
section
/-! DEFINITION. Well-formed commands: which operands a sender can send at all. Everything else of a command's operands
is bounded by its type. -/

namespace Sys2Proof

/-- A transport and its addresses (R59, R73, R74); a stored sequence is no sender of commands. -/
def Source.wf : Source → Bool
  | .spi => true
  | .tunnel => true
  | .canxl _ prio => decide (prio < 2048)
  | .udp _ addr port => decide (addr < 2 ^ 32) && decide (port < 65536)
  | .sequence => false

/-- A request: LENGTH is a 16-bit field (R35). -/
def Packet.wf (p : Packet) : Bool := p.src.wf && decide (p.payload.length < 65536)

/-- The header of a WRITE: FLAGS.AUTH and a tag of 16 bytes go together (R38). -/
def Via.wf : Via → Bool
  | .packet src _ flags _ _ tag => src.wf && tag.length == (if flags.getLsbD 7 then 16 else 0)
  | .legacy => true

/-- A CAN frame (R440, R443): identifier and data length of its type. -/
def CanFrame.wf (f : CanFrame) : Bool :=
  let n := f.data.length
  let ext := f.id / 2 ^ 29 % 2 == 1
  decide (f.id < 2 ^ 31) && (ext || decide (f.id % 2 ^ 29 < 2048)) &&
  match f.typ with
  | 0 => decide (n ≤ 8) && (f.id / 2 ^ 30 == 0 || n == 0)
  | 1 => f.id / 2 ^ 30 == 0 && (decide (n ≤ 8) || [12, 16, 20, 24, 32, 48, 64].contains n)
  | 2 => decide (f.id < 2048) && decide (1 ≤ n) && decide (n ≤ 2048) && decide (f.sdt < 256) && decide (f.vcid < 256) &&
    decide (f.af < 2 ^ 32)
  | _ => false

/-- What an Ethernet frame carries (R456, R457). -/
def EthKind.wf : EthKind → Bool
  | .arpRequest target => decide (target < 2 ^ 32)
  | .echo dst data => decide (dst < 2 ^ 32) && decide (data.length ≤ 1472)
  | .udp dst sport dport data =>
    decide (dst < 2 ^ 32) && decide (sport < 65536) && decide (dport < 65536) && decide (data.length ≤ 1472)
  | _ => true

/-- An Ethernet frame. -/
def EthFrame.wf (f : EthFrame) : Bool :=
  decide (f.srcMac < 2 ^ 48) && decide (f.dstMac < 2 ^ 48) && decide (f.srcIp < 2 ^ 32) && f.kind.wf

/-- A leg of the safe messages. -/
def MsgLeg.wf : MsgLeg → Bool
  | .can => true
  | .eth _ addr port => decide (addr < 2 ^ 32) && decide (port < 65536)

/-- A conversion: codes have 16 bits (R162), table 0x58 has 32 entries. -/
def Conversion.wf (x : Conversion) : Bool :=
  (match x.dup with
    | .code c => decide (c < 65536)
    | _ => true) && (x.check.all fun c => decide (c < 65536)) && decide (x.check.length ≤ 32)

/-- A commanded self-test (R137, R155): its test ID, and a measurement for every position or pair there is. -/
def TestResult.wf (r : TestResult) : Bool :=
  if 0x0400 ≤ r.test ∧ r.test < 0x0408 then r.cells.length == 9 && r.pairs.isEmpty
  else decide (0x0500 ≤ r.test) && decide (r.test < 0x0520) && r.cells.isEmpty && r.pairs.length == 24

/-- A finding of the scrub: one of 32,768 pages (R427). -/
def PageFind.wf (x : PageFind) : Bool := decide (x.page < 32768)

/-- A boot: rows of the 32 arrays of SRAM (R424). -/
def BootIn.wf (b : BootIn) : Bool := b.sramFails.all fun r => decide (r < 131072)

/-- A command whose operands a sender can send. -/
def Instr.wf : Instr → Bool
  | .nop p | .identify p | .getStatus p | .read p | .write p | .modify p | .enable p | .disable p | .commit p
  | .tableLoad p | .tableVerify p | .tableSwap p | .setpoint p | .selftest p | .logRead p | .logClear p | .sessionOpen p
  | .sessionClose p | .passwordChange p | .spareSubstitute p | .spareStatus p | .sequenceStore p | .sequenceRun p
  | .memScrub p | .memRetire p | .chordSplit p | .chordJoin p | .lifecycleAdvance p _ | .fwUpdateBegin p
  | .fwUpdateChunk p | .fwUpdateEnd p | .meterRead p | .meterRecordRead p | .meterSeal p | .reset p => p.wf
  | .serviceEnter v | .serviceExit v | .tbStart v _ | .tbStop v _ | .thresholdWrite v _ _ | .tripLatchClear v _
  | .latTargetWrite v _ _ | .tqReqWrite v _ _ | .chopFaultyClear v | .contOpen v | .pcmpArm v _ _ _ | .puFaultClear v _
  | .ptFaultClear v _ | .actGo v _ _ | .actStop v _ | .cplLock v | .cplUnlock v | .cplStop v | .chgStart v | .chgStop v
  | .chgUnlock v | .recordAck v _ | .timeSet v _ | .vsetWrite v _ | .chargeStart v | .chargeStop v | .bswClose v
  | .bswOpen v | .ship v | .timerReset v | .intStatClear v _ | .ssupOcClear v _ | .sinFaultClear v _ | .hostReq v _
  | .lastingClear v _ _ | .recover v _ | .rxSelect v _ _ | .controllerEnable v _ _ | .networkTimeSet v _
  | .interfaceEnable v _ _ => v.wf
  | .selftestCompletion r => r.wf
  | .scrubComplete finds => finds.all PageFind.wf
  | .unknownOpcode src _ => src.wf
  | .resetRelease b => b.wf
  | .restartCut _ pos | .edgeCompare _ pos => decide (pos < 16777216)
  | .conversionResult _ x => x.wf
  | .sarCheckSlot codes => decide (codes.length ≤ 32) && codes.all fun c => decide (c < 65536)
  | .subwindowEnd sums => sums.length == 16 && sums.all fun x => decide (x.natAbs < 8388608)
  | .resolverUpdate _ _ c => decide (c < 16777216)
  | .safeMessageCopy leg bytes => leg.wf && decide (bytes.length ≤ 1472)
  | .sramPatrol finds => finds.all fun x => decide (x.1 < 16777216)
  | .canFrameReceived _ f _ => f.wf
  | .ethernetFrame _ f => f.wf
  | .arpAge _ ip => decide (ip < 2 ^ 32)
  | _ => true

end Sys2Proof
end

