-- ==== Sys2Proof/Machine/Rows.lean ====
section
/-! DEFINITION. What the meanings of the commands share: the outcome, the check of well-formedness, and host writes of
single fields. -/

namespace Sys2Proof.Machine

/-- The outcome of a command. -/
abbrev Out := Host.Outcome State Fault Refusal

/-- The outcome of a command with operands that only some terms make well-formed. -/
def checked (ok : Bool) (m : M Unit) (s : State) : Out := if ok then m.next s else .refused .illFormed

/-- The word that, written, leaves a parameter as it is: its stored bits, with W1C and WO bits 0 (R7). -/
def State.keepWord (s : State) (a : Nat) : Word :=
  match regAt a with
  | some r => s.rd a &&& r.stored
  | none => 0

/-- A host write that gives one field a value and leaves the rest of its parameter. -/
def writeField (v : Via) (x : FldAt) (n : Nat) : M Unit := do
  hostWrite v [(x.addr, withBits ((← getS).keepWord x.addr) x.hi x.lo n)]

end Sys2Proof.Machine
end

