-- ==== Sys2Proof/Machine/HostRows.lean ====
section
/-! DEFINITION. The meanings of commands. Host requests (R46): each is served by the order of checks of R44. -/

namespace Sys2Proof.Machine

/-- NOP (R46). -/
def execNop (p : Packet) (s : State) : Out := checked p.wf (serve 0x00 p) s

/-- IDENTIFY (R46). -/
def execIdentify (p : Packet) (s : State) : Out := checked p.wf (serve 0x01 p) s

/-- GET_STATUS (R46). -/
def execGetStatus (p : Packet) (s : State) : Out := checked p.wf (serve 0x02 p) s

/-- READ (R52). -/
def execRead (p : Packet) (s : State) : Out := checked p.wf (serve 0x10 p) s

/-- WRITE (R52). -/
def execWrite (p : Packet) (s : State) : Out := checked p.wf (serve 0x11 p) s

/-- MODIFY (R52). -/
def execModify (p : Packet) (s : State) : Out := checked p.wf (serve 0x12 p) s

/-- ENABLE (R58). -/
def execEnable (p : Packet) (s : State) : Out := checked p.wf (serve 0x20 p) s

/-- DISABLE (R80). -/
def execDisable (p : Packet) (s : State) : Out := checked p.wf (serve 0x21 p) s

/-- COMMIT (R101). -/
def execCommit (p : Packet) (s : State) : Out := checked p.wf (serve 0x22 p) s

/-- TABLE_LOAD (R54). -/
def execTableLoad (p : Packet) (s : State) : Out := checked p.wf (serve 0x30 p) s

/-- TABLE_VERIFY (R46). -/
def execTableVerify (p : Packet) (s : State) : Out := checked p.wf (serve 0x31 p) s

/-- TABLE_SWAP (R226). -/
def execTableSwap (p : Packet) (s : State) : Out := checked p.wf (serve 0x32 p) s

/-- SETPOINT (R66). -/
def execSetpoint (p : Packet) (s : State) : Out := checked p.wf (serve 0x40 p) s

/-- SELFTEST (R137). -/
def execSelftest (p : Packet) (s : State) : Out := checked p.wf (serve 0x50 p) s

/-- LOG_READ (R53). -/
def execLogRead (p : Packet) (s : State) : Out := checked p.wf (serve 0x60 p) s

/-- LOG_CLEAR (R53). -/
def execLogClear (p : Packet) (s : State) : Out := checked p.wf (serve 0x61 p) s

/-- SESSION_OPEN (R60). -/
def execSessionOpen (p : Packet) (s : State) : Out := checked p.wf (serve 0x70 p) s

/-- SESSION_CLOSE (R46). -/
def execSessionClose (p : Packet) (s : State) : Out := checked p.wf (serve 0x71 p) s

/-- PASSWORD_CHANGE (R62). -/
def execPasswordChange (p : Packet) (s : State) : Out := checked p.wf (serve 0x72 p) s

/-- SPARE_SUBSTITUTE (R84). -/
def execSpareSubstitute (p : Packet) (s : State) : Out := checked p.wf (serve 0x80 p) s

/-- SPARE_STATUS (R46). -/
def execSpareStatus (p : Packet) (s : State) : Out := checked p.wf (serve 0x81 p) s

/-- SEQUENCE_STORE (R63). -/
def execSequenceStore (p : Packet) (s : State) : Out := checked p.wf (serve 0x90 p) s

/-- SEQUENCE_RUN (R64). -/
def execSequenceRun (p : Packet) (s : State) : Out := checked p.wf (serve 0x91 p) s

/-- MEM_SCRUB (R435). -/
def execMemScrub (p : Packet) (s : State) : Out := checked p.wf (serve 0xA0 p) s

/-- MEM_RETIRE (R436). -/
def execMemRetire (p : Packet) (s : State) : Out := checked p.wf (serve 0xA1 p) s

/-- CHORD_SPLIT (R419). -/
def execChordSplit (p : Packet) (s : State) : Out := checked p.wf (serve 0xB0 p) s

/-- CHORD_JOIN (R421). -/
def execChordJoin (p : Packet) (s : State) : Out := checked p.wf (serve 0xB1 p) s

/-- LIFECYCLE_ADVANCE (R468). -/
def execLifecycleAdvance (p : Packet) (svcLow : Bool) (s : State) : Out := checked p.wf (serve 0xC0 p (some svcLow)) s

/-- FW_UPDATE_BEGIN (R471). -/
def execFwUpdateBegin (p : Packet) (s : State) : Out := checked p.wf (serve 0xD0 p) s

/-- FW_UPDATE_CHUNK (R471). -/
def execFwUpdateChunk (p : Packet) (s : State) : Out := checked p.wf (serve 0xD1 p) s

/-- FW_UPDATE_END (R471). -/
def execFwUpdateEnd (p : Packet) (s : State) : Out := checked p.wf (serve 0xD2 p) s

/-- METER_READ (R339). -/
def execMeterRead (p : Packet) (s : State) : Out := checked p.wf (serve 0xE0 p) s

/-- METER_RECORD_READ (R338). -/
def execMeterRecordRead (p : Packet) (s : State) : Out := checked p.wf (serve 0xE1 p) s

/-- METER_SEAL (R329). -/
def execMeterSeal (p : Packet) (s : State) : Out := checked p.wf (serve 0xE2 p) s

/-- RESET (R27). -/
def execReset (p : Packet) (s : State) : Out := checked p.wf (serve 0xF0 p) s

end Sys2Proof.Machine
end

