-- ==== Sys2Proof/Machine/LinkRows.lean ====
section
/-! DEFINITION. The meanings of commands. The host link beside requests: legacy frames, the tunnel, chip-select frames, packets that fail an early check,
and the timers of sessions and transfers (R44, R55, R59 to R61, R68 to R71). -/

namespace Sys2Proof.Machine

/-- SESSION_PENDING_EXPIRY (R60). -/
def execSessionPendingExpiry (id : Nat) (s : State) : Out := M.next (whenAwake (pendingExpiry id)) s

/-- SESSION_IDLE_TIMEOUT (R59). -/
def execSessionIdleTimeout (id : Nat) (s : State) : Out := M.next (whenAwake (idleTimeout id)) s

/-- SESSION_LOCK_END (R61). -/
def execSessionLockEnd (s : State) : Out := M.next (whenAwake lockEnd) s

/-- SEGMENT_TIMEOUT (R55). -/
def execSegmentTimeout (id : Nat) (s : State) : Out := M.next (whenAwake (segmentTimeout id)) s

/-- LEGACY_FRAME (R70). -/
def execLegacyFrame (frame : BitVec 72) (s : State) : Out := M.next (legacyFrame frame) s

/-- TUNNEL_GO (R71). -/
def execTunnelGo (len : BitVec 13) (s : State) : Out :=
  M.next (legacyFrame (legacyWrite CMD.TUNNEL_CTL (BitVec.ofNat 32 (2 ^ 31 + len.toNat)))) s

/-- TUNNEL_RX_ACK (R71). -/
def execTunnelRxAck (s : State) : Out := M.next (legacyFrame (legacyWrite CMD.TUNNEL_CTL 0x40000000)) s

/-- CHIP_SELECT_FRAME (R68). -/
def execChipSelectFrame (mosi : MosiKind) (clocked : Nat) (s : State) : Out := M.next (chipSelect mosi clocked) s

/-- UNKNOWN_OPCODE (R44). -/
def execUnknownOpcode (src : Source) (bytes : List Byte) (s : State) : Out :=
  checked src.wf (do
    receiveBytes src bytes
    takeGo) s

end Sys2Proof.Machine
end

