-- ==== Sys2Proof/Machine/LoopRows.lean ====
section
/-! DEFINITION. The meanings of commands. Measurement, the Lattice, the field engines, the DC link, position and actuators (chapters 7 to 12, and the
front end of chapter 13). -/

namespace Sys2Proof.Machine

/-- SAR_TRIGGER (R165). -/
def execSarTrigger (s_ : Fin 8) (m : Fin 8) (s : State) : Out :=
  M.next (onIsland 7 do
    sarTrigger s_ m
    settleExecutor) s

/-- CONVERSION_RESULT (R172). -/
def execConversionResult (s_ : Fin 8) (x : Conversion) (s : State) : Out :=
  checked x.wf (onIsland 7 (conversionResult s_ x)) s

/-- SAR_CHECK_SLOT (R178). -/
def execSarCheckSlot (codes : List Nat) (s : State) : Out :=
  checked (decide (codes.length ≤ 32) && codes.all fun c => decide (c < 65536)) (onIsland 7 (sarCheckSlot codes)) s

/-- REF_SETTLED (R170). -/
def execRefSettled (r : Fin 3) (s : State) : Out := M.next (onIsland 7 (refSettle r)) s

/-- MEA_REF_FAULT (R171). -/
def execMeaRefFault (r : Fin 3) (s : State) : Out := M.next (onIsland 7 (refFault r)) s

/-- MEA_WINDOW (R177). -/
def execMeaWindow (s : State) : Out := M.next (whenAwake windowEvents) s

/-- SUBWINDOW_END (R186). -/
def execSubwindowEnd (sums : List Int) (s : State) : Out :=
  checked (sums.length == 16 && sums.all fun x => decide (x.natAbs < 8388608)) (onIsland 7 (subwindowEnd sums)) s

/-- MAINS_CROSSING (R184). -/
def execMainsCrossing (low before after : Int) (n : Nat) (s : State) : Out :=
  M.next (onIsland 7 (mainsCrossing low before after n)) s

/-- MAINS_TIMEOUT (R184). -/
def execMainsTimeout (s : State) : Out := M.next (onIsland 7 mainsTimeout) s

/-- RATE_GROUP_EVALUATION (R190). -/
def execRateGroupEvaluation (n : Fin 8) (wait : Nat) (s : State) : Out :=
  M.next (onIsland 1 (rateGroupEvaluation n wait)) s

/-- COMMIT_STROBE (R204). -/
def execCommitStrobe (n : Fin 8) (s : State) : Out := M.next (onIsland 1 (commitStrobe n)) s

/-- LAT_REEVALUATION (R205). -/
def execLatReevaluation (n : Fin 8) (abandoned : Bool) (s : State) : Out :=
  M.next (onIsland 1 (latReevaluation n abandoned)) s

/-- LAT_TARGET_WRITE (R201). -/
def execLatTargetWrite (v : Via) (c : Fin 192) (w : Word) (s : State) : Out :=
  checked v.wf (hostWrite v [(LAT.TARGET c, w)]) s

/-- FIELD_EVALUATION (R211). -/
def execFieldEvaluation (m : Fin 2) (ecc : Bool) (s : State) : Out :=
  M.next (onIsland (2 + m.val) (fieldEvaluation m ecc)) s

/-- TQ_REQ_WRITE (R220). -/
def execTqReqWrite (v : Via) (m : Fin 2) (w : Word) (s : State) : Out :=
  checked v.wf (hostWrite v [(FLD.TQ_REQ m, w)]) s

/-- THERMAL_FACTOR_UPDATE (R221). -/
def execThermalFactorUpdate (s : State) : Out := M.next (whenAwake thermalFactor) s

/-- DCL_EVALUATION (R242). -/
def execDclEvaluation (s : State) : Out := M.next (onIsland 0 dclEvaluation) s

/-- DCL_SENSE_LOST (R242). -/
def execDclSenseLost (s : State) : Out := M.next (onIsland 0 senseLost) s

/-- CHOPPER_CHECK (R245). -/
def execChopperCheck (x : ChopCheck) (s : State) : Out := M.next (onIsland 0 (chopperCheck x)) s

/-- CHOP_FAULTY_CLEAR (R246). -/
def execChopFaultyClear (v : Via) (s : State) : Out := checked v.wf (writeField v DCL.STATUS.CHOP_FAULTY 1) s

/-- CONT_OPEN (R252). -/
def execContOpen (v : Via) (s : State) : Out := checked v.wf (writeField v DCL.CTRL.CONT_OPEN 1) s

/-- POSITION_LATCH (R260). -/
def execPositionLatch (k : Fin 6) (b : Bool) (t : Nat) (s : State) : Out :=
  M.next (onIsland 6 do
    if ← positionLatch k b t then slsAt k) s

/-- RESOLVER_UPDATE (R263). -/
def execResolverUpdate (j : Fin 2) (t c : Nat) (s : State) : Out :=
  checked (decide (c < 16777216)) (onIsland 6 (resolverUpdate j t c)) s

/-- RES_EXC (R262). -/
def execResExc (j : Fin 2) (s : State) : Out := M.next (onIsland 6 (resExc j)) s

/-- SSI_WORD (R266). -/
def execSsiWord (k : Fin 6) (x : SsiWord) (s : State) : Out := M.next (onIsland 6 (ssiWord k x)) s

/-- QUAD_TRANSITION (R267). -/
def execQuadTransition (k : Fin 6) (a b : Bool) (n t : Nat) (s : State) : Out :=
  M.next (onIsland 6 (quadTransition k a b n t)) s

/-- QUAD_INDEX (R268). -/
def execQuadIndex (k : Fin 6) (n t : Nat) (s : State) : Out := M.next (onIsland 6 (quadIndex k n t)) s

/-- HALL_CHANGE (R269). -/
def execHallChange (k : Fin 6) (h : Fin 8) (n t : Nat) (s : State) : Out := M.next (onIsland 6 (hallChange k h n t)) s

/-- ZERO_SPEED_TIMEOUT (R271). -/
def execZeroSpeedTimeout (k : Fin 6) (t : Nat) (s : State) : Out := M.next (onIsland 6 (zeroSpeed k t)) s

/-- PCMP_ARM (R273). -/
def execPcmpArm (v : Via) (k : Fin 6) (u : Fin 8) (x : PcmpWrite) (s : State) : Out :=
  checked v.wf (hostWrite v (match x with
    | .target w => [(POS.PCMP_TGT k u, w)]
    | .config w => [(POS.PCMP_CFG k u, w)]
    | .both target config => [(POS.PCMP_TGT k u, target), (POS.PCMP_CFG k u, config)])) s

/-- PU_FAULT_CLEAR (R259). -/
def execPuFaultClear (v : Via) (k : Fin 6) (s : State) : Out := checked v.wf (writeField v (POS.PU_STAT.FAULT k) 1) s

/-- PT_FAULT_CLEAR (R277). -/
def execPtFaultClear (v : Via) (k : Fin 6) (s : State) : Out :=
  checked v.wf (writeField v (POS.PU_STAT.PT_FAULT k) 1) s

/-- ACTUATOR_EVALUATION (R287). -/
def execActuatorEvaluation (a : Fin 4) (s : State) : Out := M.next (onIsland 5 (actuatorEvaluation a)) s

/-- CPL_EVALUATION (R302). -/
def execCplEvaluation (s : State) : Out :=
  M.next (onIsland 5 do
    cplEvaluation
    followLock) s

/-- ACT_GO (R292). -/
def execActGo (v : Via) (a : Fin 4) (target : BitVec 24) (s : State) : Out :=
  checked v.wf (hostWrite v [(ACT.CMD a, 0x10000000 ||| target.setWidth 32)]) s

/-- ACT_STOP (R292). -/
def execActStop (v : Via) (a : Fin 4) (s : State) : Out := checked v.wf (writeField v (ACT.CMD.CMD a) 0) s

/-- ACT_MOVE_TIMEOUT (R293). -/
def execActMoveTimeout (a : Fin 4) (s : State) : Out := M.next (onIsland 5 (moveTimeout a)) s

/-- PUMP_CATCH_RESTART (R301). -/
def execPumpCatchRestart (s : State) : Out := M.next (onIsland 5 pumpRestart) s

/-- CPL_LOCK (R302). -/
def execCplLock (v : Via) (s : State) : Out := checked v.wf (writeField v ACT.CPL_CMD.CMD 1) s

/-- CPL_UNLOCK (R303). -/
def execCplUnlock (v : Via) (s : State) : Out := checked v.wf (writeField v ACT.CPL_CMD.CMD 2) s

/-- CPL_STOP (R303). -/
def execCplStop (v : Via) (s : State) : Out := checked v.wf (writeField v ACT.CPL_CMD.CMD 0) s

/-- CPL_REVERSE_DELAY (R303). -/
def execCplReverseDelay (s : State) : Out :=
  M.next (onIsland 5 do
    cplReverse
    followLock) s

/-- CPL_SW_CHANGE (R303). -/
def execCplSwChange (level : Bool) (s : State) : Out :=
  M.next (onIsland 5 do
    cplSwitch level
    followLock) s

/-- CPL_TIMEOUT (R302). -/
def execCplTimeout (s : State) : Out :=
  M.next (onIsland 5 do
    cplTimeout
    followLock) s

/-- AFE_TRACKING_EVALUATION (R305). -/
def execAfeTrackingEvaluation (s : State) : Out := M.next (onIsland 4 trackingEvaluation) s

/-- AFE_EVALUATION (R305). -/
def execAfeEvaluation (s : State) : Out := M.next (onIsland 4 afeEvaluation) s

/-- SSI_EMU_CLOCK (R276). -/
def execSsiEmuClock (k : Fin 6) (rising : Bool) (t : Nat) (s : State) : Out :=
  M.next (onIsland 6 do
    let _ ← posTime (← rf (POS.PT_CFG.SRC k)) t
    ssiEmuClock k rising t) s

/-- QUAD_EMU_COUNT (R277). -/
def execQuadEmuCount (k : Fin 6) (t : Nat) (s : State) : Out :=
  M.next (onIsland 6 do
    let _ ← posTime (← rf (POS.PT_CFG.SRC k)) t
    quadEmuCount k t) s

end Sys2Proof.Machine
end

