-- ==== Sys2Proof/Machine/NetworkRows.lean ====
section
/-! DEFINITION. The meanings of commands. CAN and Ethernet (chapter 19). -/

namespace Sys2Proof.Machine

/-- CAN_FRAME_RECEIVED (R443). -/
def execCanFrameReceived (n : Fin 4) (f : CanFrame) (sof : Nat) (s : State) : Out :=
  checked f.wf (canReceived n f sof) s

/-- CAN_FRAME_TRANSMITTED (R448). -/
def execCanFrameTransmitted (n : Fin 4) (sof : Nat) (s : State) : Out := M.next (onIsland 9 (canTransmitted n sof)) s

/-- BUS_STATE (R449). -/
def execBusState (n : Fin 4) (passive : Bool) (tec rec : BitVec 8) (s : State) : Out :=
  M.next (onIsland 9 (busState n passive tec.toNat rec.toNat)) s

/-- BUS_OFF (R450). -/
def execBusOff (n : Fin 4) (rec : BitVec 8) (s : State) : Out := M.next (onIsland 9 (busOff n rec.toNat)) s

/-- BUS_OFF_RECOVERY (R450). -/
def execBusOffRecovery (n : Fin 4) (s : State) : Out := M.next (onIsland 9 (busRecovered n)) s

/-- RECOVER (R450). -/
def execRecover (v : Via) (n : Fin 4) (s : State) : Out := checked v.wf (writeField v (BUS.CTRL.RECOVER n) 1) s

/-- RX_SELECT (R446). -/
def execRxSelect (v : Via) (n : Fin 4) (w : Word) (s : State) : Out :=
  checked v.wf (hostWrite v [(BUS.RX_SEL n, w)]) s

/-- CONTROLLER_ENABLE (R442). -/
def execControllerEnable (v : Via) (n : Fin 4) (w : Word) (s : State) : Out :=
  checked v.wf (hostWrite v [(BUS.CTRL n, w)]) s

/-- NETWORK_TIME_SET (R452). -/
def execNetworkTimeSet (v : Via) (w : Word) (s : State) : Out := checked v.wf (hostWrite v [(BUS.TIME_HI, w)]) s

/-- REFERENCE_MESSAGE_SEND (R453). -/
def execReferenceMessageSend (s : State) : Out := M.next (onIsland 9 sendReference) s

/-- REFERENCE_MESSAGE (R454). -/
def execReferenceMessage (seq : Byte) (valid : Bool) (prev : BitVec 48) (time : Nat) (s : State) : Out :=
  M.next (onIsland 9 do
    if (← getS).cd2Reads then takeReference seq.toNat valid prev.toNat time) s

/-- BUS_TIME_LOSS (R454). -/
def execBusTimeLoss (s : State) : Out := M.next (onIsland 9 busTimeLoss) s

/-- ETHERNET_FRAME (R456). -/
def execEthernetFrame (p : Fin 2) (f : EthFrame) (s : State) : Out := checked f.wf (ethReceived p f) s

/-- NET_LINK (R455). -/
def execNetLink (p : Fin 2) (up : Bool) (s : State) : Out := M.next (onIsland 9 (netLink p up)) s

/-- NET_PLCA (R455). -/
def execNetPlca (ok : Bool) (s : State) : Out := M.next (onIsland 9 (netPlca ok)) s

/-- ARP_AGE (R456). -/
def execArpAge (p : Fin 2) (ip : Nat) (s : State) : Out := checked (decide (ip < 2 ^ 32)) (onIsland 9 (arpAge p ip)) s

/-- ARP_RETRY (R457). -/
def execArpRetry (s : State) : Out := M.next (onIsland 9 arpRetry) s

/-- INTERFACE_ENABLE (R458). -/
def execInterfaceEnable (v : Via) (p : Fin 2) (w : Word) (s : State) : Out :=
  checked v.wf (hostWrite v [(NET.IF_CFG p, w)]) s

end Sys2Proof.Machine
end

