-- ==== Sys2Proof/Machine/PowerRows.lean ====
section
/-! DEFINITION. The meanings of commands. Charging, metering, converters and the power path (chapters 13 to 15). -/

namespace Sys2Proof.Machine

/-- PILOT_ACCEPT (R312). -/
def execPilotAccept (high low : Int) (period duty n : Nat) (s : State) : Out :=
  M.next (whenAwake (pilotAccept high low period duty n)) s

/-- PROXIMITY_ACCEPT (R314). -/
def execProximityAccept (mv n : Nat) (s : State) : Out := M.next (whenAwake (proximityAccept mv n)) s

/-- CHG_BUTTON_PRESS (R316). -/
def execChgButtonPress (ms : Nat) (s : State) : Out := M.next (whenAwake (buttonPress ms)) s

/-- CHG_START (R317). -/
def execChgStart (v : Via) (s : State) : Out := checked v.wf (writeField v CHG.CMD.CMD 1) s

/-- CHG_STOP (R317). -/
def execChgStop (v : Via) (s : State) : Out := checked v.wf (writeField v CHG.CMD.CMD 2) s

/-- CHG_UNLOCK (R317). -/
def execChgUnlock (v : Via) (s : State) : Out := checked v.wf (writeField v CHG.CMD.CMD 3) s

/-- CONNECTING_STEP (R318). -/
def execConnectingStep (va vb vc vfe : Nat) (s : State) : Out := M.next (whenAwake (connectingStep va vb vc vfe)) s

/-- CHARGE_LIMIT_UPDATE (R319). -/
def execChargeLimitUpdate (s : State) : Out := M.next (whenAwake chargeLimits) s

/-- NORMAL_STOP_COMPLETE (R320). -/
def execNormalStopComplete (s : State) : Out := M.next (whenAwake normalStopComplete) s

/-- RELAY_RELEASE_CHECK (R320). -/
def execRelayReleaseCheck (peak : Nat) (s : State) : Out := M.next (whenAwake (relayReleaseCheck peak)) s

/-- ENERGY_ACCUMULATE (R330). -/
def execEnergyAccumulate (s : State) : Out := M.next (onIsland 8 energyAccumulate) s

/-- INTERVAL_RECORD (R335). -/
def execIntervalRecord (s : State) : Out := M.next (onIsland 8 intervalRecord) s

/-- REGISTER_COMMIT (R333). -/
def execRegisterCommit (s : State) : Out := M.next (onIsland 8 registerCommit) s

/-- RECORD_ACK (R338). -/
def execRecordAck (v : Via) (w : Word) (s : State) : Out := checked v.wf (hostWrite v [(MTR.ACK, w)]) s

/-- TIME_SET (R342). -/
def execTimeSet (v : Via) (w : Word) (s : State) : Out := checked v.wf (hostWrite v [(MTR.TIME_HI, w)]) s

/-- THRESHOLD_UPDATE (R347). -/
def execThresholdUpdate (s : State) : Out := M.next (onIsland 1 thresholdUpdate) s

/-- HICCUP_END (R353). -/
def execHiccupEnd (s : State) : Out := M.next (onIsland 1 hiccupEnd) s

/-- VSET_WRITE (R354). -/
def execVsetWrite (v : Via) (w : Word) (s : State) : Out := checked v.wf (hostWrite v [(CNV.VSET, w)]) s

/-- SOURCE_CLASSIFY (R357). -/
def execSourceClassify (s : State) : Out := M.next (whenAwake sourceClassify) s

/-- CHARGE_START (R359). -/
def execChargeStart (v : Via) (s : State) : Out := checked v.wf (writeField v LVP.CMD.CMD 1) s

/-- CHARGE_STOP (R359). -/
def execChargeStop (v : Via) (s : State) : Out := checked v.wf (writeField v LVP.CMD.CMD 2) s

/-- BSW_CLOSE (R356). -/
def execBswClose (v : Via) (s : State) : Out := checked v.wf (writeField v LVP.CMD.CMD 3) s

/-- BSW_OPEN (R356). -/
def execBswOpen (v : Via) (s : State) : Out := checked v.wf (writeField v LVP.CMD.CMD 4) s

/-- SHIP (R364). -/
def execShip (v : Via) (s : State) : Out := checked v.wf (writeField v LVP.CMD.CMD 5) s

/-- TIMER_RESET (R362). -/
def execTimerReset (v : Via) (s : State) : Out := checked v.wf (writeField v LVP.CMD.CMD 6) s

/-- CHARGER_REST (R361). -/
def execChargerRest (s : State) : Out := M.next (whenAwake chargerRest) s

/-- REST_END (R361). -/
def execRestEnd (s : State) : Out := M.next (whenAwake restEnd) s

/-- CV_TERMINATION (R361). -/
def execCvTermination (s : State) : Out := M.next (whenAwake cvTermination) s

/-- LVP_TIMER (R362). -/
def execLvpTimer (s : State) : Out := M.next (whenAwake timerExpired) s

/-- SHIP_EXIT (R364). -/
def execShipExit (ms : Nat) (s : State) : Out := M.next (shipExit ms) s

/-- LONG_PRESS (R365). -/
def execLongPress (ms : Nat) (s : State) : Out := M.next (whenAwake (longPress ms)) s

/-- LONG_PRESS_REOPEN (R365). -/
def execLongPressReopen (s : State) : Out := M.next (whenAwake longPressReopen) s

/-- INT_STAT_CLEAR (R366). -/
def execIntStatClear (v : Via) (w : Word) (s : State) : Out := checked v.wf (hostWrite v [(LVP.INT_STAT, w)]) s

/-- FOLDBACK (R362). -/
def execFoldback (s : State) : Out := M.next (whenAwake foldback) s

/-- WELD_INHIBIT_CLEAR (R320). -/
def execWeldInhibitClear (s : State) : Out := M.next (whenAwake weldInhibitClear) s

end Sys2Proof.Machine
end

