-- ==== Sys2Proof/Machine/PulseRows.lean ====
section
/-! DEFINITION. The meanings of commands. Pulse generation, comparator cells and gate drive (chapters 3 to 6). -/

namespace Sys2Proof.Machine

/-- SELFTEST_COMPLETION (R155). -/
def execSelftestCompletion (r : TestResult) (s : State) : Out :=
  checked r.wf (whenAwake do
    selftestDone r
    settleExecutor) s

/-- TB_START (R89). -/
def execTbStart (v : Via) (mask : BitVec 16) (s : State) : Out :=
  checked v.wf (hostWrite v [(PLS.TB_START, mask.setWidth 32)]) s

/-- TB_STOP (R89). -/
def execTbStop (v : Via) (t : Fin 16) (s : State) : Out := checked v.wf (writeField v (PLS.TB_CFG.RUN t) 0) s

/-- RESTART_CUT (R90). -/
def execRestartCut (t : Fin 16) (pos : Nat) (s : State) : Out :=
  checked (decide (pos < 16777216)) (onIsland 0 (restartCut t pos)) s

/-- EDGE_COMPARE (R92). -/
def execEdgeCompare (t : Fin 16) (pos : Nat) (s : State) : Out :=
  checked (decide (pos < 16777216)) (onIsland 0 (edgeCompare t pos)) s

/-- RELOAD (R102). -/
def execReload (t : Fin 16) (s : State) : Out :=
  M.next (onIsland 0 do
    reloadAll t
    settleExecutor) s

/-- COMMIT_DEADLINE (R107). -/
def execCommitDeadline (t : Fin 16) (s : State) : Out := M.next (onIsland 0 (commitDeadline t)) s

/-- TRIGGER_COMPARE (R108). -/
def execTriggerCompare (t : Fin 16) (j : Fin 4) (s : State) : Out :=
  M.next (onIsland 0 do
    triggerCompare t j) s

/-- DELAY_CALIBRATION (R96). -/
def execDelayCalibration (b : Fin 9) (e : Nat) (s : State) : Out := M.next (onIsland 0 (delayCalibration b e)) s

/-- DELAY_REG_MISMATCH (R112). -/
def execDelayRegMismatch (r : DelayReg) (s : State) : Out := M.next (onIsland 0 (delayRegMismatch r)) s

/-- SCB_MISMATCH (R147). -/
def execScbMismatch (p : Fin 24) (s : State) : Out := M.next (whenAwake (scbMismatch p)) s

/-- CELL_TRIP (R122). -/
def execCellTrip (c : Fin 72) (vp vn : Int) (s : State) : Out :=
  M.next (whenAwake do
    watchCharge (cellTrip c vp vn)
    showLevel) s

/-- FILTERED_TRIP (R123). -/
def execFilteredTrip (c : Fin 72) (n : Nat) (s : State) : Out :=
  M.next (onIsland 0 (watchCharge (filteredTrip c n))) s

/-- CBC_EARLY_END (R124). -/
def execCbcEarlyEnd (c : Fin 72) (at_ : Nat) (s : State) : Out := M.next (whenAwake (cbcEarlyEnd c at_)) s

/-- BLANK_WINDOW_END (R121). -/
def execBlankWindowEnd (c : Fin 72) (s : State) : Out := M.next (whenAwake (watchCharge (blankWindowEnd c))) s

/-- THRESHOLD_WRITE (R120). -/
def execThresholdWrite (v : Via) (c : Fin 72) (w : Word) (s : State) : Out :=
  checked v.wf (hostWrite v [(TRP.THR c, w)]) s

/-- TRIP_LATCH_CLEAR (R130). -/
def execTripLatchClear (v : Via) (g : Fin 32) (s : State) : Out :=
  checked v.wf (writeField v (TRP.GRP_TRIP.LATCH g) 1) s

/-- ROTATION_SLOT (R132). -/
def execRotationSlot (b : Fin 8) (r : SlotResult) (s : State) : Out := M.next (onIsland 7 (rotationSlot b r)) s

/-- CMP_MIRROR (R135). -/
def execCmpMirror (b : Fin 8) (spare : CellTest) (s : State) : Out := M.next (onIsland 7 (cmpMirror b spare)) s

/-- BOOTSTRAP_REFRESH (R142). -/
def execBootstrapRefresh (p : Fin 24) (s : State) : Out := M.next (onIsland 0 (bootstrapRefresh p)) s

/-- BST_UV (R144). -/
def execBstUv (p : Fin 24) (ok : Bool) (s : State) : Out := M.next (whenAwake (bstComparator p ok)) s

/-- DRV_SHORT (R145). -/
def execDrvShort (p : Fin 24) (mv at_ : Nat) (s : State) : Out := M.next (whenAwake (drvShort p mv at_)) s

/-- EXT_DRV_FAULT (R150). -/
def execExtDrvFault (k : Fin 48) (s : State) : Out := M.next (whenAwake (extDrvFault k)) s

/-- FLT_RELEASE (R150). -/
def execFltRelease (k : Fin 48) (s : State) : Out := M.next (whenAwake (fltRelease k)) s

/-- DRV_NOT_READY (R152). -/
def execDrvNotReady (r : Fin 8) (asserted : Bool) (s : State) : Out := M.next (whenAwake (drvReady r asserted)) s

/-- VDRV_UV (R153). -/
def execVdrvUv (s : State) : Out := M.next (whenAwake vdrvUv) s

/-- VDRV_RECOVER (R153). -/
def execVdrvRecover (s : State) : Out := M.next (whenAwake vdrvRecover) s

/-- ILK_DIAG_FAIL (R149). -/
def execIlkDiagFail (i : Fin 48) (s : State) : Out := M.next (whenAwake (ilkDiagFail i)) s

end Sys2Proof.Machine
end

