-- ==== Sys2Proof/Machine/SafetyRows.lean ====
section
/-! DEFINITION. The meanings of commands. Safety functions (chapter 16). -/

namespace Sys2Proof.Machine

/-- SAFE_INPUT_DEMAND (R385). -/
def execSafeInputDemand (i : Fin 8) (us : Nat) (s : State) : Out := M.next (whenAwake (inputLow i us)) s

/-- SAFE_INPUT_RELEASE (R382). -/
def execSafeInputRelease (i : Fin 8) (s : State) : Out := M.next (whenAwake (inputHigh i)) s

/-- TEST_PULSE (R387). -/
def execTestPulse (k : Fin 4) (low short : BitVec 8) (t : Nat) (s : State) : Out :=
  M.next (whenAwake (testPulse k low.toNat short.toNat t)) s

/-- SAF_IN_DISC (R386). -/
def execSafInDisc (i : Fin 8) (ms : Nat) (s : State) : Out := M.next (whenAwake (inputDisc i ms)) s

/-- SAF_SSUP_OC (R389). -/
def execSafSsupOc (k : Fin 4) (s : State) : Out := M.next (whenAwake (supplyOc k)) s

/-- SSUP_OC_CLEAR (R389). -/
def execSsupOcClear (v : Via) (k : Fin 4) (s : State) : Out := checked v.wf (writeField v (SAF.SSUP.OC k) 1) s

/-- SIN_FAULT_CLEAR (R388). -/
def execSinFaultClear (v : Via) (i : Fin 8) (s : State) : Out := checked v.wf (writeField v (SAF.SIN.FAULT i) 1) s

/-- HEARTBEAT_LOST (R372). -/
def execHeartbeatLost (s : State) : Out := M.next (whenAwake heartbeatLost) s

/-- LOGIC_MISMATCH (R371). -/
def execLogicMismatch (s : State) : Out := M.next (whenAwake logicMismatch) s

/-- SAFE_MESSAGE_COPY (R393). -/
def execSafeMessageCopy (leg : MsgLeg) (bytes : List Byte) (s : State) : Out :=
  checked (leg.wf && decide (bytes.length ≤ 1472)) (whenAwake do
    if (← getS).cd0Reads then safeCopy leg bytes) s

/-- SKEW_EXPIRY (R394). -/
def execSkewExpiry (leg : Fin 2) (s : State) : Out := M.next (onCd0 (skewExpiry leg)) s

/-- STATUS_MESSAGE_SEND (R392). -/
def execStatusMessageSend (s : State) : Out := M.next (onCd0 statusSend) s

/-- SAF_MSG_TIMEOUT (R396). -/
def execSafMsgTimeout (s : State) : Out := M.next (onCd0 messageTimeout) s

/-- HOST_REQ (R375). -/
def execHostReq (v : Via) (w : Word) (s : State) : Out := checked v.wf (hostWrite v [(SAF.HOST_REQ, w)]) s

/-- SS1_TIMEOUT (R377). -/
def execSs1Timeout (g : Fin 32) (s : State) : Out := M.next (onCd0 (ss1Timeout g)) s

/-- SAFE_PARK_RETRY (R380). -/
def execSafeParkRetry (s : State) : Out := M.next (onCd0 parkRetry) s

/-- SAF_PARK_FAIL (R380). -/
def execSafParkFail (s : State) : Out := M.next (onCd0 parkFail) s

end Sys2Proof.Machine
end

