-- ==== Sys2Proof/Machine/SystemRows.lean ====
section
/-! DEFINITION. The meanings of commands. Islands, supplies, resets, boot, life cycle, firmware, memories and Chords (chapters 1, 17, 18 and 20). -/

namespace Sys2Proof.Machine

/-- SCRUB_COMPLETE (R435). -/
def execScrubComplete (finds : List PageFind) (s : State) : Out :=
  checked (finds.all PageFind.wf) (onIsland 11 do
    scrubEnd finds
    settleExecutor) s

/-- JOIN_GRACE_EXPIRY (R421). -/
def execJoinGraceExpiry (n : Fin 3) (s : State) : Out :=
  M.next (whenAwake do
    joinGraceExpiry n
    settleExecutor) s

/-- LIFECYCLE_RESET (R469). -/
def execLifecycleReset (s : State) : Out := M.next lifecycleReset s

/-- FW_VERIFY_COMPLETE (R473). -/
def execFwVerifyComplete (k : Fin 2) (s : State) : Out :=
  M.next (whenAwake do
    fwVerifyComplete k
    settleExecutor) s

/-- LIVE_UPDATE (R474). -/
def execLiveUpdate (s : State) : Out :=
  M.next (whenAwake do
    liveUpdate
    settleExecutor) s

/-- FW_UPDATE_TIMEOUT (R472). -/
def execFwUpdateTimeout (k : Fin 2) (s : State) : Out :=
  M.next (whenAwake do
    fwUpdateTimeout k
    settleExecutor) s

/-- CLK_MON_DEVIATION (R15). -/
def execClkMonDeviation (n : Fin 16) (pll : Bool) (s : State) : Out := M.next (whenAwake (clockDeviation n pll)) s

/-- REFERENCE_LOSS (R15). -/
def execReferenceLoss (s : State) : Out := M.next (whenAwake referenceLoss) s

/-- ISLAND_PRESENT (R29). -/
def execIslandPresent (n : Fin 16) (regsOk : Bool) (s : State) : Out :=
  M.next (whenAwake do
    islandPresent n regsOk
    chordResumes) s

/-- DIE_LINK_LOST (R31). -/
def execDieLinkLost (s : State) : Out := M.next (whenAwake linkLost) s

/-- BROWNOUT (R461). -/
def execBrownout (m : Fin 4) (s : State) : Out := M.next (brownout m) s

/-- RESET_N_LOW (R462). -/
def execResetNLow (s : State) : Out := M.next (deviceReset 2 false) s

/-- RESET_RELEASE (R462). -/
def execResetRelease (b : BootIn) (s : State) : Out :=
  checked b.wf (do
    if (← getS).hid.lcy.resetSoon then deviceReset 4 true
    resetRelease b) s

/-- STANDBY_REACHED (R463). -/
def execStandbyReached (s : State) : Out :=
  M.next (do
    if ← standbyReached then autorun) s

/-- BOOT_FALLBACK (R475). -/
def execBootFallback (s : State) : Out := M.next bootFallback s

/-- KEY_GENERATED (R340). -/
def execKeyGenerated (s : State) : Out := M.next (onIsland 8 keyGenerated) s

/-- SERVICE_ENTER (R467). -/
def execServiceEnter (v : Via) (s : State) : Out := checked v.wf (writeField v LCY.CMD.CMD 1) s

/-- SERVICE_EXIT (R467). -/
def execServiceExit (v : Via) (s : State) : Out := checked v.wf (writeField v LCY.CMD.CMD 2) s

/-- DEVICE_STATE_EVALUATION (R466). -/
def execDeviceStateEvaluation (s : State) : Out := M.next (whenAwake deviceStateEvaluation) s

/-- THERMAL_DERATING (R477). -/
def execThermalDerating (tCase : Int) (hot : Bool) (s : State) : Out :=
  M.next (whenAwake (thermalDerating tCase hot)) s

/-- LASTING_CLEAR (R410). -/
def execLastingClear (v : Via) (src : BitVec 8) (w : Word) (s : State) : Out :=
  checked v.wf (hostWrite v [(FLG.LASTING src.toNat, w)]) s

/-- CHD_LOCKSTEP (R415). -/
def execChdLockstep (n : Fin 3) (test : Bool) (s : State) : Out :=
  M.next (whenAwake do
    lockstepMismatch n test
    settleExecutor) s

/-- CHORD_RESTART (R417). -/
def execChordRestart (n : Fin 3) (ok : Bool) (t : Nat) (test : Bool) (s : State) : Out :=
  M.next (whenAwake do
    restartPair n ok t test
    chordResumes) s

/-- CHECKPOINT (R416). -/
def execCheckpoint (n : Fin 3) (test : Bool) (s : State) : Out :=
  M.next (whenAwake do
    takeCheckpoint n test
    settleExecutor) s

/-- SRAM_PATROL (R424). -/
def execSramPatrol (finds : List (Nat × Bool)) (s : State) : Out :=
  checked (finds.all fun x => decide (x.1 < 16777216)) (onIsland 11 (finds.forM fun x => patrolWord x.1 x.2)) s

/-- MERGE_WRITEBACK (R434). -/
def execMergeWriteback (s : State) : Out := M.next (onIsland 11 mergeWriteBack) s

/-- POWER_ON (R460). -/
def execPowerOn (s : State) : Out := M.next powerOn s

/-- REGION_WIPE_COMPLETE (R469). -/
def execRegionWipeComplete (fail : Option (Fin 32768)) (s : State) : Out :=
  M.next (whenAwake do
    regionWipeComplete (fail.map fun p => p.val)
    settleExecutor) s

end Sys2Proof.Machine
end

