-- ==== Sys2Proof/Machine/Dispatch.lean ====
section
/-! DEFINITION. Which meaning each command has. -/

namespace Sys2Proof.Machine

/-- The effect of a command: one call of its meaning. -/
def exec (i : Instr) (s : State) : Host.Outcome State Fault Refusal :=
  match i with
  | .nop p => Sys2Proof.Machine.execNop p s
  | .identify p => Sys2Proof.Machine.execIdentify p s
  | .getStatus p => Sys2Proof.Machine.execGetStatus p s
  | .read p => Sys2Proof.Machine.execRead p s
  | .write p => Sys2Proof.Machine.execWrite p s
  | .modify p => Sys2Proof.Machine.execModify p s
  | .enable p => Sys2Proof.Machine.execEnable p s
  | .disable p => Sys2Proof.Machine.execDisable p s
  | .commit p => Sys2Proof.Machine.execCommit p s
  | .tableLoad p => Sys2Proof.Machine.execTableLoad p s
  | .tableVerify p => Sys2Proof.Machine.execTableVerify p s
  | .tableSwap p => Sys2Proof.Machine.execTableSwap p s
  | .setpoint p => Sys2Proof.Machine.execSetpoint p s
  | .selftest p => Sys2Proof.Machine.execSelftest p s
  | .selftestCompletion r => Sys2Proof.Machine.execSelftestCompletion r s
  | .logRead p => Sys2Proof.Machine.execLogRead p s
  | .logClear p => Sys2Proof.Machine.execLogClear p s
  | .sessionOpen p => Sys2Proof.Machine.execSessionOpen p s
  | .sessionPendingExpiry id => Sys2Proof.Machine.execSessionPendingExpiry id s
  | .sessionIdleTimeout id => Sys2Proof.Machine.execSessionIdleTimeout id s
  | .sessionLockEnd => Sys2Proof.Machine.execSessionLockEnd s
  | .sessionClose p => Sys2Proof.Machine.execSessionClose p s
  | .passwordChange p => Sys2Proof.Machine.execPasswordChange p s
  | .segmentTimeout id => Sys2Proof.Machine.execSegmentTimeout id s
  | .spareSubstitute p => Sys2Proof.Machine.execSpareSubstitute p s
  | .spareStatus p => Sys2Proof.Machine.execSpareStatus p s
  | .sequenceStore p => Sys2Proof.Machine.execSequenceStore p s
  | .sequenceRun p => Sys2Proof.Machine.execSequenceRun p s
  | .memScrub p => Sys2Proof.Machine.execMemScrub p s
  | .scrubComplete finds => Sys2Proof.Machine.execScrubComplete finds s
  | .memRetire p => Sys2Proof.Machine.execMemRetire p s
  | .chordSplit p => Sys2Proof.Machine.execChordSplit p s
  | .chordJoin p => Sys2Proof.Machine.execChordJoin p s
  | .joinGraceExpiry n => Sys2Proof.Machine.execJoinGraceExpiry n s
  | .lifecycleAdvance p svcLow => Sys2Proof.Machine.execLifecycleAdvance p svcLow s
  | .lifecycleReset => Sys2Proof.Machine.execLifecycleReset s
  | .fwUpdateBegin p => Sys2Proof.Machine.execFwUpdateBegin p s
  | .fwUpdateChunk p => Sys2Proof.Machine.execFwUpdateChunk p s
  | .fwUpdateEnd p => Sys2Proof.Machine.execFwUpdateEnd p s
  | .fwVerifyComplete k => Sys2Proof.Machine.execFwVerifyComplete k s
  | .liveUpdate => Sys2Proof.Machine.execLiveUpdate s
  | .fwUpdateTimeout k => Sys2Proof.Machine.execFwUpdateTimeout k s
  | .meterRead p => Sys2Proof.Machine.execMeterRead p s
  | .meterRecordRead p => Sys2Proof.Machine.execMeterRecordRead p s
  | .meterSeal p => Sys2Proof.Machine.execMeterSeal p s
  | .reset p => Sys2Proof.Machine.execReset p s
  | .legacyFrame frame => Sys2Proof.Machine.execLegacyFrame frame s
  | .tunnelGo len => Sys2Proof.Machine.execTunnelGo len s
  | .tunnelRxAck => Sys2Proof.Machine.execTunnelRxAck s
  | .clkMonDeviation n pll => Sys2Proof.Machine.execClkMonDeviation n pll s
  | .referenceLoss => Sys2Proof.Machine.execReferenceLoss s
  | .islandPresent n regsOk => Sys2Proof.Machine.execIslandPresent n regsOk s
  | .dieLinkLost => Sys2Proof.Machine.execDieLinkLost s
  | .brownout m => Sys2Proof.Machine.execBrownout m s
  | .resetNLow => Sys2Proof.Machine.execResetNLow s
  | .resetRelease b => Sys2Proof.Machine.execResetRelease b s
  | .standbyReached => Sys2Proof.Machine.execStandbyReached s
  | .bootFallback => Sys2Proof.Machine.execBootFallback s
  | .keyGenerated => Sys2Proof.Machine.execKeyGenerated s
  | .serviceEnter v => Sys2Proof.Machine.execServiceEnter v s
  | .serviceExit v => Sys2Proof.Machine.execServiceExit v s
  | .deviceStateEvaluation => Sys2Proof.Machine.execDeviceStateEvaluation s
  | .thermalDerating tCase hot => Sys2Proof.Machine.execThermalDerating tCase hot s
  | .tbStart v mask => Sys2Proof.Machine.execTbStart v mask s
  | .tbStop v t => Sys2Proof.Machine.execTbStop v t s
  | .restartCut t pos => Sys2Proof.Machine.execRestartCut t pos s
  | .edgeCompare t pos => Sys2Proof.Machine.execEdgeCompare t pos s
  | .reload t => Sys2Proof.Machine.execReload t s
  | .commitDeadline t => Sys2Proof.Machine.execCommitDeadline t s
  | .triggerCompare t j => Sys2Proof.Machine.execTriggerCompare t j s
  | .delayCalibration b e => Sys2Proof.Machine.execDelayCalibration b e s
  | .delayRegMismatch r => Sys2Proof.Machine.execDelayRegMismatch r s
  | .scbMismatch p => Sys2Proof.Machine.execScbMismatch p s
  | .cellTrip c vp vn => Sys2Proof.Machine.execCellTrip c vp vn s
  | .filteredTrip c n => Sys2Proof.Machine.execFilteredTrip c n s
  | .cbcEarlyEnd c at_ => Sys2Proof.Machine.execCbcEarlyEnd c at_ s
  | .blankWindowEnd c => Sys2Proof.Machine.execBlankWindowEnd c s
  | .thresholdWrite v c w => Sys2Proof.Machine.execThresholdWrite v c w s
  | .tripLatchClear v g => Sys2Proof.Machine.execTripLatchClear v g s
  | .rotationSlot b r => Sys2Proof.Machine.execRotationSlot b r s
  | .cmpMirror b spare => Sys2Proof.Machine.execCmpMirror b spare s
  | .bootstrapRefresh p => Sys2Proof.Machine.execBootstrapRefresh p s
  | .bstUv p ok => Sys2Proof.Machine.execBstUv p ok s
  | .drvShort p mv at_ => Sys2Proof.Machine.execDrvShort p mv at_ s
  | .extDrvFault k => Sys2Proof.Machine.execExtDrvFault k s
  | .fltRelease k => Sys2Proof.Machine.execFltRelease k s
  | .drvNotReady r asserted => Sys2Proof.Machine.execDrvNotReady r asserted s
  | .vdrvUv => Sys2Proof.Machine.execVdrvUv s
  | .vdrvRecover => Sys2Proof.Machine.execVdrvRecover s
  | .ilkDiagFail k => Sys2Proof.Machine.execIlkDiagFail k s
  | .sarTrigger k m => Sys2Proof.Machine.execSarTrigger k m s
  | .conversionResult k x => Sys2Proof.Machine.execConversionResult k x s
  | .sarCheckSlot codes => Sys2Proof.Machine.execSarCheckSlot codes s
  | .refSettled r => Sys2Proof.Machine.execRefSettled r s
  | .meaRefFault r => Sys2Proof.Machine.execMeaRefFault r s
  | .meaWindow => Sys2Proof.Machine.execMeaWindow s
  | .subwindowEnd sums => Sys2Proof.Machine.execSubwindowEnd sums s
  | .mainsCrossing low before after n => Sys2Proof.Machine.execMainsCrossing low before after n s
  | .mainsTimeout => Sys2Proof.Machine.execMainsTimeout s
  | .rateGroupEvaluation n wait => Sys2Proof.Machine.execRateGroupEvaluation n wait s
  | .commitStrobe n => Sys2Proof.Machine.execCommitStrobe n s
  | .latReevaluation n abandoned => Sys2Proof.Machine.execLatReevaluation n abandoned s
  | .latTargetWrite v c w => Sys2Proof.Machine.execLatTargetWrite v c w s
  | .fieldEvaluation m ecc => Sys2Proof.Machine.execFieldEvaluation m ecc s
  | .tqReqWrite v m w => Sys2Proof.Machine.execTqReqWrite v m w s
  | .thermalFactorUpdate => Sys2Proof.Machine.execThermalFactorUpdate s
  | .dclEvaluation => Sys2Proof.Machine.execDclEvaluation s
  | .dclSenseLost => Sys2Proof.Machine.execDclSenseLost s
  | .chopperCheck x => Sys2Proof.Machine.execChopperCheck x s
  | .chopFaultyClear v => Sys2Proof.Machine.execChopFaultyClear v s
  | .contOpen v => Sys2Proof.Machine.execContOpen v s
  | .positionLatch k b t => Sys2Proof.Machine.execPositionLatch k b t s
  | .resolverUpdate j t c => Sys2Proof.Machine.execResolverUpdate j t c s
  | .resExc j => Sys2Proof.Machine.execResExc j s
  | .ssiWord k x => Sys2Proof.Machine.execSsiWord k x s
  | .quadTransition k a b n t => Sys2Proof.Machine.execQuadTransition k a b n t s
  | .quadIndex k n t => Sys2Proof.Machine.execQuadIndex k n t s
  | .hallChange k h n t => Sys2Proof.Machine.execHallChange k h n t s
  | .zeroSpeedTimeout k t => Sys2Proof.Machine.execZeroSpeedTimeout k t s
  | .pcmpArm v k u x => Sys2Proof.Machine.execPcmpArm v k u x s
  | .puFaultClear v k => Sys2Proof.Machine.execPuFaultClear v k s
  | .ptFaultClear v k => Sys2Proof.Machine.execPtFaultClear v k s
  | .actuatorEvaluation a => Sys2Proof.Machine.execActuatorEvaluation a s
  | .cplEvaluation => Sys2Proof.Machine.execCplEvaluation s
  | .actGo v a target => Sys2Proof.Machine.execActGo v a target s
  | .actStop v a => Sys2Proof.Machine.execActStop v a s
  | .actMoveTimeout a => Sys2Proof.Machine.execActMoveTimeout a s
  | .pumpCatchRestart => Sys2Proof.Machine.execPumpCatchRestart s
  | .cplLock v => Sys2Proof.Machine.execCplLock v s
  | .cplUnlock v => Sys2Proof.Machine.execCplUnlock v s
  | .cplStop v => Sys2Proof.Machine.execCplStop v s
  | .cplReverseDelay => Sys2Proof.Machine.execCplReverseDelay s
  | .cplSwChange level => Sys2Proof.Machine.execCplSwChange level s
  | .cplTimeout => Sys2Proof.Machine.execCplTimeout s
  | .afeTrackingEvaluation => Sys2Proof.Machine.execAfeTrackingEvaluation s
  | .afeEvaluation => Sys2Proof.Machine.execAfeEvaluation s
  | .pilotAccept high low period duty n => Sys2Proof.Machine.execPilotAccept high low period duty n s
  | .proximityAccept mv n => Sys2Proof.Machine.execProximityAccept mv n s
  | .chgButtonPress ms => Sys2Proof.Machine.execChgButtonPress ms s
  | .chgStart v => Sys2Proof.Machine.execChgStart v s
  | .chgStop v => Sys2Proof.Machine.execChgStop v s
  | .chgUnlock v => Sys2Proof.Machine.execChgUnlock v s
  | .connectingStep va vb vc vfe => Sys2Proof.Machine.execConnectingStep va vb vc vfe s
  | .chargeLimitUpdate => Sys2Proof.Machine.execChargeLimitUpdate s
  | .normalStopComplete => Sys2Proof.Machine.execNormalStopComplete s
  | .relayReleaseCheck peak => Sys2Proof.Machine.execRelayReleaseCheck peak s
  | .energyAccumulate => Sys2Proof.Machine.execEnergyAccumulate s
  | .intervalRecord => Sys2Proof.Machine.execIntervalRecord s
  | .registerCommit => Sys2Proof.Machine.execRegisterCommit s
  | .recordAck v w => Sys2Proof.Machine.execRecordAck v w s
  | .timeSet v w => Sys2Proof.Machine.execTimeSet v w s
  | .thresholdUpdate => Sys2Proof.Machine.execThresholdUpdate s
  | .hiccupEnd => Sys2Proof.Machine.execHiccupEnd s
  | .vsetWrite v w => Sys2Proof.Machine.execVsetWrite v w s
  | .sourceClassify => Sys2Proof.Machine.execSourceClassify s
  | .chargeStart v => Sys2Proof.Machine.execChargeStart v s
  | .chargeStop v => Sys2Proof.Machine.execChargeStop v s
  | .bswClose v => Sys2Proof.Machine.execBswClose v s
  | .bswOpen v => Sys2Proof.Machine.execBswOpen v s
  | .ship v => Sys2Proof.Machine.execShip v s
  | .timerReset v => Sys2Proof.Machine.execTimerReset v s
  | .chargerRest => Sys2Proof.Machine.execChargerRest s
  | .restEnd => Sys2Proof.Machine.execRestEnd s
  | .cvTermination => Sys2Proof.Machine.execCvTermination s
  | .lvpTimer => Sys2Proof.Machine.execLvpTimer s
  | .shipExit ms => Sys2Proof.Machine.execShipExit ms s
  | .longPress ms => Sys2Proof.Machine.execLongPress ms s
  | .longPressReopen => Sys2Proof.Machine.execLongPressReopen s
  | .intStatClear v w => Sys2Proof.Machine.execIntStatClear v w s
  | .safeInputDemand k us => Sys2Proof.Machine.execSafeInputDemand k us s
  | .safeInputRelease k => Sys2Proof.Machine.execSafeInputRelease k s
  | .testPulse k low short t => Sys2Proof.Machine.execTestPulse k low short t s
  | .safInDisc k ms => Sys2Proof.Machine.execSafInDisc k ms s
  | .safSsupOc k => Sys2Proof.Machine.execSafSsupOc k s
  | .ssupOcClear v k => Sys2Proof.Machine.execSsupOcClear v k s
  | .sinFaultClear v k => Sys2Proof.Machine.execSinFaultClear v k s
  | .heartbeatLost => Sys2Proof.Machine.execHeartbeatLost s
  | .logicMismatch => Sys2Proof.Machine.execLogicMismatch s
  | .safeMessageCopy leg bytes => Sys2Proof.Machine.execSafeMessageCopy leg bytes s
  | .skewExpiry leg => Sys2Proof.Machine.execSkewExpiry leg s
  | .statusMessageSend => Sys2Proof.Machine.execStatusMessageSend s
  | .safMsgTimeout => Sys2Proof.Machine.execSafMsgTimeout s
  | .hostReq v w => Sys2Proof.Machine.execHostReq v w s
  | .ss1Timeout g => Sys2Proof.Machine.execSs1Timeout g s
  | .safeParkRetry => Sys2Proof.Machine.execSafeParkRetry s
  | .safParkFail => Sys2Proof.Machine.execSafParkFail s
  | .lastingClear v src w => Sys2Proof.Machine.execLastingClear v src w s
  | .chdLockstep n test => Sys2Proof.Machine.execChdLockstep n test s
  | .chordRestart n ok t test => Sys2Proof.Machine.execChordRestart n ok t test s
  | .checkpoint n test => Sys2Proof.Machine.execCheckpoint n test s
  | .sramPatrol finds => Sys2Proof.Machine.execSramPatrol finds s
  | .mergeWriteback => Sys2Proof.Machine.execMergeWriteback s
  | .canFrameReceived n f sof => Sys2Proof.Machine.execCanFrameReceived n f sof s
  | .canFrameTransmitted n sof => Sys2Proof.Machine.execCanFrameTransmitted n sof s
  | .busState n passive tec rec => Sys2Proof.Machine.execBusState n passive tec rec s
  | .busOff n rec => Sys2Proof.Machine.execBusOff n rec s
  | .busOffRecovery n => Sys2Proof.Machine.execBusOffRecovery n s
  | .recover v n => Sys2Proof.Machine.execRecover v n s
  | .rxSelect v n w => Sys2Proof.Machine.execRxSelect v n w s
  | .controllerEnable v n w => Sys2Proof.Machine.execControllerEnable v n w s
  | .networkTimeSet v w => Sys2Proof.Machine.execNetworkTimeSet v w s
  | .referenceMessageSend => Sys2Proof.Machine.execReferenceMessageSend s
  | .referenceMessage seq valid prev time => Sys2Proof.Machine.execReferenceMessage seq valid prev time s
  | .busTimeLoss => Sys2Proof.Machine.execBusTimeLoss s
  | .ethernetFrame p f => Sys2Proof.Machine.execEthernetFrame p f s
  | .netLink p up => Sys2Proof.Machine.execNetLink p up s
  | .netPlca ok => Sys2Proof.Machine.execNetPlca ok s
  | .arpAge p ip => Sys2Proof.Machine.execArpAge p ip s
  | .arpRetry => Sys2Proof.Machine.execArpRetry s
  | .interfaceEnable v p w => Sys2Proof.Machine.execInterfaceEnable v p w s
  | .chipSelectFrame mosi clocked => Sys2Proof.Machine.execChipSelectFrame mosi clocked s
  | .unknownOpcode src bytes => Sys2Proof.Machine.execUnknownOpcode src bytes s
  | .powerOn => Sys2Proof.Machine.execPowerOn s
  | .regionWipeComplete fail => Sys2Proof.Machine.execRegionWipeComplete fail s
  | .ssiEmuClock k rising t => Sys2Proof.Machine.execSsiEmuClock k rising t s
  | .quadEmuCount k t => Sys2Proof.Machine.execQuadEmuCount k t s
  | .foldback => Sys2Proof.Machine.execFoldback s
  | .weldInhibitClear => Sys2Proof.Machine.execWeldInhibitClear s

end Sys2Proof.Machine
end

