-- ==== Sys2Proof/Machine/Step.lean ====
section
/-! DEFINITION. One step of the block: the command at the front of its queue, or a management tick (DESIGN CHOICE, log entry 1). -/

namespace Sys2Proof.Machine

/-- One step: the first waiting command acts on the state with the rest of the queue; with none waiting, a management
tick of 1 ms passes. -/
def step (s : State) : Host.Outcome State Fault Refusal :=
  match s.pending with
  | [] => M.next tick s
  | c :: r => exec c { s with pending := r }

/-- The state with the command a word spells put at the front of its queue; a word that spells none leaves it. -/
def State.withFetchWord (s : State) (nbits w : Nat) : State :=
  match decodeTableWord nbits w with
  | some c => { s with pending := c :: s.pending }
  | none => s

end Sys2Proof.Machine
end

