-- ==== Sys2Proof/Safety.lean ====
section
/-! DEFINITION. What counts as a safe run: the block goes on, and its state keeps the form the spec gives its parameters,
tables, queues and logs. -/

namespace Sys2Proof.Machine

/-- The tables, which are the block's addressed memory (R48): bytes that exist, in canonical form. -/
def Memory.wf (m : List (Nat × Byte)) : Bool :=
  canonical resetByte m && m.all fun c => decide (c.1 % 16777216 < tableBytes (c.1 / 16777216))

/-- The parameters: those the register map has, with reserved bits 0 (R7, R52), in canonical form. -/
def Params.wf (m : List (Nat × Word)) : Bool :=
  canonical resetWord m && m.all fun c => (regAt c.1).isSome && c.2 &&& ~~~implMask c.1 == 0

/-- The bounds of the queues and logs: 64 events in the outbound queue (R69), 64 entries of the violation log (R53),
4,096 of the fault log and 256 in front of it (R411, R412), 1,024 of the change log (R399). -/
def Queues.wf (q : Queues) : Bool :=
  decide (eventCount q.spi ≤ 64) && decide (q.vio.length ≤ 64) && decide (q.flt.length ≤ 4096) &&
    decide (q.fltQ.length ≤ 256) && decide (q.chg.length ≤ 1024)

/-- The form of a state that every step keeps. -/
def State.wf (s : State) : Bool := Params.wf s.regs && Memory.wf s.tabs && Queues.wf s.que

/-- A safe outcome: the block goes on, in a state of the right form. -/
def SafeOutcome : Host.Outcome State Fault Refusal → Prop
  | .next s => s.wf = true
  | _ => False

/-! ## What a command does -/

/-- The command is executed: `exec` answers a next state, of which `P` holds. -/
def Completes (i : Instr) (s : State) (P : State → Prop) : Prop := ∃ t, exec i s = .next t ∧ P t

/-- What a command leaves: every parameter but those at the addresses `regs` and those of the pages `pages`, every byte
of the tables, the violation log and the change log, and the queue of waiting commands. -/
structure Keeps (regs pages : List Nat) (s t : State) : Prop where
  rd : ∀ a, a ∉ regs → a / 65536 ∉ pages → t.rd a = s.rd a
  tabs : t.tabs = s.tabs
  vio : t.que.vio = s.que.vio
  chg : t.que.chg = s.que.chg
  pending : t.pending = s.pending

/-- What the write of a configuration parameter leaves (R397, R399): as `Keeps`, but the change log and SAF.CHANGE may
take an entry. -/
structure KeepsConfig (regs pages : List Nat) (s t : State) : Prop where
  rd : ∀ a, a ∉ SAF.CHANGE :: regs → a / 65536 ∉ pages → t.rd a = s.rd a
  tabs : t.tabs = s.tabs
  vio : t.que.vio = s.que.vio
  pending : t.pending = s.pending

/-- The pages an event may reach: the counters of the host link (R72) and the transmit queues (R448). -/
def eventPages : List Nat := [0x01, 0x14]

/-- The pages the reaction to an occurrence may reach (R402 to R413): device state, groups and their channels, the DC
link's chopper, the charging interface, the safety functions, the ledger, and what an event reaches. -/
def ledgerPages : List Nat := [0x00, 0x01, 0x03, 0x04, 0x05, 0x06, 0x09, 0x0C, 0x10, 0x11, 0x14]

/-- A counter that saturates went up by one. -/
def Bumped (x : FldAt) (s t : State) : Prop := t.f x = min (s.f x + 1) (2 ^ (x.hi + 1 - x.lo) - 1)

/-- One occurrence of a source was counted, for an instance (R402, R407). -/
def Counted (src inst : Nat) (s t : State) : Prop :=
  Bumped (FLG.OCCUR.OCCURRENCES src) s t ∧ t.f (FLG.OCCUR.LAST_INSTANCE src) = inst

/-- A group has tripped out of ARMED or RUNNING (R127 to R129): its latch, the kind, the held outputs, the first cell and
the count tell of it. -/
def Tripped (g kind first : Nat) (s t : State) : Prop :=
  t.gst g = .tripped ∧ t.f (TRP.GRP_TRIP.LATCH g) = 1 ∧ t.f (TRP.GRP_TRIP.KIND g) = kind ∧
    t.f (TRP.GRP_TRIP.HELD g) = 1 ∧ t.f (TRP.GRP_TRIP.FIRST_CELL g) = first ∧ Bumped (TRP.GRP_TRIP.COUNT g) s t

/-- A group takes part no more: it is TRIPPED or SAFE. -/
def State.stopped (s : State) (g : Nat) : Bool := s.gst g == .tripped || s.gst g == .safe

/-- No charging session runs and the DC-link supervisor is off, so that a trip has no further effect (R252, R320). -/
def State.tripsAlone (s : State) : Bool := s.f CHG.STATUS.STATE == 0 && s.f DCL.CTRL.EN == 0

/-- No level stops a group in the instant it becomes ARMED (R127, R150): no comparison of a cell that selects it, and no
driver fault input, tells a fault. -/
def State.levelsQuiet (s : State) (g : Nat) : Bool :=
  ((List.range 72).all fun c => !s.cellEn c || !(s.cellSel c).contains g || s.f (TRP.CELL_STAT.BLANKED c) != 0 ||
    (if s.cellRoute c = 1 then s.f (TRP.CELL_STAT.IN_TRIP c) != 1 else decide ((s.cell c).count < s.filtLen c))) &&
  (List.range 48).all fun k => !(s.fltGroups k).contains g || s.f (GDR.FLT.ACTIVE k) != 1

/-- Nothing waits inside the block: no request for the executor, no awaited step of a sequence, no entry of a receive
log for its readers, no frame in an interface's buffer, no GO. -/
def State.quiet (s : State) : Bool :=
  s.hid.cmd.waiting.isEmpty && s.hid.cmd.run.isNone && s.hid.cmd.go.isNone && s.hid.bus.rx.isEmpty &&
    (List.range 4).all fun n => (s.can n).log.all fun e => decide (e.rxseq < (s.can n).cd0) && decide (e.rxseq < (s.can n).cd2)

/-- The device has entered reset (R462, R465): it is held, the cause is kept for SYS.STATUS, sessions and the outbound
queue are gone, and every parameter none of whose fields is kept holds its reset value. -/
def ResetBegun (cause : Nat) (t : State) : Prop :=
  t.hid.lcy.held = true ∧ t.hid.lcy.cause = cause ∧ t.hid.cmd.sessions = [] ∧ t.que.spi = [] ∧
    ∀ a, (keptFields.all fun x => x.addr != a) = true → t.rd a = resetWord a

/-! ## Requests that pass every check -/

/-- What the executor knows of a request. -/
def State.ctxOf (s : State) (op : Nat) (p : Packet) : Ctx :=
  ⟨op, ((s.openSession p).map fun x => x.auth).getD 0, p.session.toNat, srcCode p.src, srcId p.src⟩

/-- The state in which R44 goes on from step 11: the session is touched, EXEC_BUSY shows a request other than SETPOINT. -/
def State.begun (s : State) (op : Nat) (p : Packet) : State :=
  M.run (do
    if p.session ≠ 0 then updSession p.session.toNat fun x => if x.opened then { x with at_ := s.hid.now } else x
    if op ≠ 0x40 then Machine.wf CMD.STATUS.EXEC_BUSY 1) s

/-- The state in which the effect of a request begins. -/
def State.serving (s : State) (op : Nat) (p : Packet) : State := M.run (clearLost (s.ctxOf op p)) (s.begun op p)

/-- Whether a request passes steps 1 to 10 of R44 and is no replay (R42): it is received, and executed at once. -/
def State.takes (s : State) (op : Nat) (p : Packet) : Bool :=
  s.listens p.src && decide (p.payload.length ≤ maxPayload p.src) && (earlyBad op p).isNone && s.dev != 6 &&
    s.sessionOk op p && !s.tagBad op p &&
    (((s.openSession p).bind fun x => x.kept.find? fun k => k.seq == p.seq.toNat && k.crc == packetCrc op p).isNone) &&
    decide (s.hid.cmd.waiting.length + s.hid.cmd.tunnelWait.length < 16) &&
    (op == 0x40 || (!s.executorHeld && s.present (12 + s.executorChord))) && s.hid.cmd.go.isNone

/-- Whether a request passes every check of R44 before its effect. -/
def State.serves (s : State) (op : Nat) (p : Packet) : Bool :=
  let c := s.ctxOf op p
  let u := s.begun op p
  p.wf && s.takes op p && (accessBad c p (bodyOf p)).isNone && (u.segBreak c p).isNone &&
    (u.checksBad c p (bodyOf p) (u.segOf c)).isNone

/-- Whether the words of a host write pass the checks of R52 and R57, each in an island that is PRESENT. -/
def State.writable (u : State) (c : Ctx) (ws : List (Nat × Word)) : Bool :=
  (u.writeCheck c ws).isNone && (ws.all fun x => !u.addrAbsent x.1) &&
    ((ws.findSome? fun x => match regAt x.1 with
      | some r => u.writeRefusal c.auth r x.1 x.2
      | none => none).isNone) &&
    (firstFail (ws.flatMap fun x => match regAt x.1 with
      | some r => u.enableFails (u.wouldBe ws) r x.1
      | none => [])).isNone

/-- Whether a legacy frame is taken now (R9, R70). -/
def State.legacyOpen (s : State) : Bool :=
  !s.hid.lcy.held && !s.hid.lcy.resetSoon && s.linkOpen && s.present 10 && !s.packetMode && s.dev != 6 && s.hid.cmd.go.isNone

/-- Whether a host write is carried out: its request, or its legacy frame, passes every check. -/
def State.accepts (s : State) (v : Via) (ws : List (Nat × Word)) : Bool :=
  match v with
  | .packet src version flags seq session tag =>
    let p := writePacket src version flags seq session tag ws
    v.wf && s.serves 0x11 p && (s.serving 0x11 p).writable (s.ctxOf 0x11 p) ws
  | .legacy =>
    ws.length == 1 && s.legacyOpen && s.writable ⟨0x11, authOperator, 0, 0x02, 0⟩ ws

/-- The bytes of a packet: MAGIC, LENGTH and CRC are right, and they spell a request (R35, R37). -/
def framed (src : Source) (b : List Byte) (op : Nat) (p : Packet) : Bool :=
  leAt b 0 2 == 0x5A3C && decide (leAt b 8 2 ≤ 4096) && decide (20 + leAt b 8 2 ≤ b.length) &&
    leAt b (16 + leAt b 8 2) 4 == crc32c (b.take (16 + leAt b 8 2)) && decide (packetOf src b = ⟨op, p⟩)

/-- The first `len` bytes in CMD.TUNNEL_TX (R71). -/
def State.tunnelBytes (s : State) (len : Nat) : List Byte :=
  (((List.range ((len + 3) / 4)).map fun k => s.rd (CMD.TUNNEL_TX k)).flatMap fun w => leBytes 4 w.toNat).take len

/-- The reply to a request, as it leaves the block: signed where the request carried AUTH (R38, R39). -/
def State.replyOf (s : State) (op : Nat) (p : Packet) (a : Ans) : OutPkt :=
  match s.replyKey p with
  | some key => (replyPkt op p a).signed key
  | none => replyPkt op p a

/-- The reply to a request from the SPI port without NO_REPLY enters the outbound queue (R39, R69). -/
def Answered (op : Nat) (p : Packet) (a : Ans) (s t : State) : Prop :=
  p.src = .spi → bit p.flags.toNat 2 = false → a.data.length ≤ 4072 → t.que.spi = s.que.spi ++ [s.replyOf op p a]

/-- The reply is the last packet that enters the outbound queue, after the events the request caused. -/
def AnsweredLast (op : Nat) (p : Packet) (a : Ans) (s t : State) : Prop :=
  p.src = .spi → bit p.flags.toNat 2 = false → a.data.length ≤ 4072 → t.que.spi.getLast? = some (s.replyOf op p a)

/-- Whether a parameter is read by any session (R51), as it stands: outside the tunnel (R71), in an island that is
PRESENT, without the latch of BUS.TIME (R453). -/
def State.readable (s : State) (a : Nat) : Bool :=
  match regAt a with
  | some r => r.name != .CMD_TUNNEL_CTL && r.name != .CMD_TUNNEL_TX && r.name != .CMD_TUNNEL_RX && !r.readProtected a &&
      a != BUS.TIME_LO && !s.addrAbsent a
  | none => false

/-- The bytes a READ answers for a parameter. -/
def State.readBytes (s : State) (a : Nat) : List Byte :=
  match regAt a with
  | some r => leBytes 4 (s.hostRead r a).toNat
  | none => []

/-- The word a host write of `v` leaves in a parameter. -/
def State.afterWrite (s : State) (a : Nat) (v : Word) : Word :=
  match regAt a with
  | some r => r.after v (s.rd a)
  | none => s.rd a

/-- The parameters whose write does more than store the word. -/
def actingRegs : List RegName :=
  [.CMD_TUNNEL_CTL, .CMD_TUNNEL_TX, .PLS_TB_START, .PLS_TB_CFG, .PLS_TB_SYNC, .PLS_TB_PERIOD, .PLS_TRG_POS, .PLS_RISE,
   .PLS_FALL, .TRP_THR, .GDR_RDY_CFG, .MEA_REF, .LAT_RG_CFG, .LAT_TPL_CTL, .LAT_TARGET, .FLD_AFE_CFG, .DCL_CTRL,
   .DCL_STATUS, .POS_PU_CFG, .POS_PU_STAT, .POS_PT_CFG, .POS_PCMP_TGT, .POS_PCMP_CFG, .POS_OBS_CTRL, .ACT_CMD,
   .ACT_CPL_CMD, .ACT_CPL_CFG, .FLD_MCH_CFG, .PLS_TRG_CFG, .CHG_CFG, .CHG_REQ, .CHG_CMD, .MTR_ACK, .MTR_TIME_HI,
   .CNV_VSET, .CNV_BUCK_CFG, .LVP_CHG, .LVP_CMD,
   .SAF_HOST_REQ, .SAF_MSG_CFG, .SAF_FUNC_CFG, .SAF_FUNC_GRP, .SAF_SIN, .FLG_LASTING, .BUS_TIME_CFG, .BUS_TIME_HI,
   .BUS_RX_SEL, .BUS_CTRL, .LCY_CMD]

/-- Whether the write of a parameter only stores its word. -/
def storesOnly (a : Nat) : Bool :=
  match regAt a with
  | none => false
  | some r => !actingRegs.contains r.name

/-- Whether the entry of a SETPOINT passes every check of R66, `a` being the parameter it writes. -/
def State.settable (s : State) (auth : Nat) (e : SpEntry) (a : Nat) : Bool :=
  (e.kind == 1 || e.kind == 2) && e.res == 0 && e.addr == some a &&
    !(s.spGroup e).1.isEmpty && (s.spGroup e).1.all s.liveGroup &&
    match regAt a with
    | some r => e.value &&& r.res == 0 && !r.badValue a e.value (r.after e.value (s.rd a)) &&
        (s.wrongState r a e.value).isNone && (s.writeRefusal auth r a e.value).isNone && !s.addrAbsent a
    | none => false

/-- Whether the entries of a TABLE_LOAD fit the table and pass the checks of their fields (R48, R54 and the tables'
rules), and its island and pages answer. -/
def State.loadable (s : State) (id size n start : Nat) (es : List (List Byte)) : Bool :=
  decide (start < n) && decide (start + es.length ≤ n) &&
    ((List.range es.length).all fun k => (Machine.entryBad id size (es.getD k [])).isNone &&
      !(id == 0x40 && isSpareCell (start + k)) && !(id == 0x60 && (ledgerEntryBad (start + k) (es.getD k [])).isSome)) &&
    (tableIsland id).all s.present &&
    (if 0x10 ≤ id ∧ id ≤ 0x13 then (s.badMapPage id (size * start) (size * es.length)).isNone else true)

/-- Whether a step of a stored sequence is a NOP in the form R46 and R48 give it. -/
def nopStep (r : Req) : Bool :=
  r.op == 0 && (bodyOf r.p).isEmpty && r.p.page == 0 && r.p.inst == 0 && r.p.scope == 4

/-- The command that a request of an opcode of R46 is; `low` is the level of SVC_BTN of LIFECYCLE_ADVANCE. -/
def requestOf (op : Nat) (p : Packet) (low : Bool) : Option Instr :=
  match op with
  | 0x00 => some (.nop p)
  | 0x01 => some (.identify p)
  | 0x02 => some (.getStatus p)
  | 0x10 => some (.read p)
  | 0x11 => some (.write p)
  | 0x12 => some (.modify p)
  | 0x20 => some (.enable p)
  | 0x21 => some (.disable p)
  | 0x22 => some (.commit p)
  | 0x30 => some (.tableLoad p)
  | 0x31 => some (.tableVerify p)
  | 0x32 => some (.tableSwap p)
  | 0x40 => some (.setpoint p)
  | 0x50 => some (.selftest p)
  | 0x60 => some (.logRead p)
  | 0x61 => some (.logClear p)
  | 0x70 => some (.sessionOpen p)
  | 0x71 => some (.sessionClose p)
  | 0x72 => some (.passwordChange p)
  | 0x80 => some (.spareSubstitute p)
  | 0x81 => some (.spareStatus p)
  | 0x90 => some (.sequenceStore p)
  | 0x91 => some (.sequenceRun p)
  | 0xA0 => some (.memScrub p)
  | 0xA1 => some (.memRetire p)
  | 0xB0 => some (.chordSplit p)
  | 0xB1 => some (.chordJoin p)
  | 0xC0 => some (.lifecycleAdvance p low)
  | 0xD0 => some (.fwUpdateBegin p)
  | 0xD1 => some (.fwUpdateChunk p)
  | 0xD2 => some (.fwUpdateEnd p)
  | 0xE0 => some (.meterRead p)
  | 0xE1 => some (.meterRecordRead p)
  | 0xE2 => some (.meterSeal p)
  | 0xF0 => some (.reset p)
  | _ => none

/-- Whether a request reaches the checks of its header: it is received, in a state other than SHIP (R44 steps 1 to 4). -/
def State.reaches (s : State) (p : Packet) : Bool :=
  p.wf && s.listens p.src && decide (p.payload.length ≤ maxPayload p.src) && s.dev != 6 && s.hid.cmd.go.isNone

/-- The kept reply of a request that is a replay (R42). -/
def State.keptReply (s : State) (op : Nat) (p : Packet) : Option Kept :=
  (s.openSession p).bind fun x => x.kept.find? fun k => k.seq == p.seq.toNat && k.crc == packetCrc op p

/-- A request was refused for a reason the violation log takes (R53), and nothing else changed but what the host link
counts: `a` is the address the log names. -/
structure Logged (op : Nat) (p : Packet) (reason a : Nat) (s t : State) : Prop where
  vio : t.que.vio = ringPush 64 s.que.vio
    ⟨a, s.ms % 4294967296, op, p.session.toNat, srcCode p.src, reason % 256, srcId p.src⟩
  rd : ∀ x, x / 65536 ∉ eventPages → t.rd x = s.rd x
  tabs : t.tabs = s.tabs
  chg : t.que.chg = s.que.chg
  pls : t.hid.pls = s.hid.pls

end Sys2Proof.Machine
end

