-- ==== Sys2Proof/Certificates/Slice0/Obligations.lean ====
section
/-! DEFINITION. The statements for the provers. -/

open Sys2Proof Sys2Proof.Machine

/-- The state after reset has the form that every step keeps: parameters the register map has, with reserved bits 0,
in canonical form (R7, R52), table bytes that exist, in canonical form, and queues and logs within their sizes (R53,
R69, R399, R411, R412). -/
def Obligations.Reset_has_form : Prop :=
  State.reset.wf = true

/-- Every step keeps the form: reserved bits 0 and canonical parameters (R7, R52), canonical tables of the sizes R48
gives, at most 64 events in the outbound queue (R69), 64 entries in the violation log (R53), 4,096 in the fault log
and 256 in front of it (R411, R412), 1,024 in the change log (R399). The canonical form is the model's own. -/
def Obligations.Every_step_keeps_form : Prop :=
  ∀ s t : State, s.wf = true → step s = .next t → t.wf = true

/-- A step of a state with waiting commands is exec of the first of them on the state with the others (log entry 1).
-/
def Obligations.Step_runs_the_front_command : Prop :=
  ∀ (c : Instr) (r : List Instr) (s : State), s.pending = c :: r → step s = exec c { s with pending := r }

/-- An idle block takes a management tick of 1 ms: the model's choice (log entry 1). -/
def Obligations.Idle_step_is_a_tick : Prop :=
  ∀ s : State, s.pending = [] → ∃ t, step s = .next t ∧ t.pending = [] ∧ t.hid.now = s.hid.now + 1000

/-- A command's effect is on everything but the queue of waiting commands (the model's form of a block). -/
def Obligations.Exec_leaves_the_queue : Prop :=
  ∀ (i : Instr) (s t : State), exec i s = .next t → t.pending = s.pending

/-- Every command that a sender can send is executed; a term that spells none is refused. Well-formedness is the
model's. -/
def Obligations.Commands_complete : Prop :=
  ∀ (i : Instr) (s : State),
    (i.wf = true → ∃ t, exec i s = .next t) ∧ (i.wf = false → exec i s = .refused .illFormed)

/-- The state right after power-on: the reset values of the parameter tables (R7) and the table defaults; the device
is held until its supplies are good (R462). Reset values the spec does not give are the model's (log entry 5). -/
def Obligations.Reset_values : Prop :=
  (∀ a, State.reset.rd a = resetWord a) ∧ (∀ j o, State.reset.tb j o = resetByte (tkey j o)) ∧
    State.reset.pending = [] ∧ State.reset.que = {} ∧ State.reset.hid.cmd.sessions = [] ∧
    State.reset.hid.lcy.held = true ∧ State.reset.f CMD.SESSION_CFG.IDLE_TIMEOUT = 0x012C ∧
    State.reset.f CMD.SEQ_AUTORUN.INDEX = 0xFF ∧ State.reset.f CMD.UDP_CFG.PORT = 0xBB1C ∧
    (∀ t < 16, State.reset.f (PLS.TB_PERIOD.PERIOD t) = 0x4E1F) ∧ State.reset.f DCL.LEVELS.L2 = 0x3B6 ∧
    State.reset.f MEM.STATUS.SPARE_FREE = 0x520 ∧ State.reset.f MEM.WEAR_CFG.WEAR_WARN = 0x01F4

/-- R37: the CRC as a shift register over the bits of each byte, least significant first (reflected input), its
register read in reverse order (reflected output), and the trailer of a packet. -/
def Obligations.Crc_is_crc32c : Prop :=
  (∀ b : List Byte, crc32c b =
    (((b.flatMap fun x => (List.range 8).map fun i => x.getLsbD i).foldl
      (fun (c : BitVec 32) x => if c.msb = x then c <<< 1 else (c <<< 1) ^^^ 0x1EDC6F41#32) 0xFFFFFFFF#32).reverse
      ^^^ 0xFFFFFFFF#32).toNat) ∧
  (∀ q : OutPkt, q.bytes.drop (16 + q.payload.length) = leBytes 4 (crc32c (q.bytes.take (16 + q.payload.length)))) ∧
  (∀ (src : Source) (b : List Byte) (op : Nat) (p : Packet), framed src b op p = true →
    leAt b (16 + p.payload.length) 4 = crc32c (b.take (16 + p.payload.length))) ∧
  crc32c (by1 [0x31, 0x32, 0x33, 0x34, 0x35, 0x36, 0x37, 0x38, 0x39]) = 0xE3069283

/-- R10. -/
def Obligations.Both_versions_serve : Prop :=
  (∀ (op : Nat) (p : Packet), earlyBad op { p with version := 1 } = earlyBad op { p with version := 2 }) ∧
  (∀ (s : State) (op : Nat) (p : Packet) (a : Ans), (s.replyOf op p a).version = p.version.toNat) ∧
  (∀ (s : State) (p : Packet), s.serves 0x00 p = true → p.version = 1 ∨ p.version = 2) ∧
  (∀ (s : State) (p : Packet), s.serves 0x00 p = true → p.src = .spi → bit p.flags.toNat 2 = false →
    Completes (.nop p) s fun t => t.que.spi = s.que.spi ++ [s.replyOf 0x00 p {}])

/-- R51. A reply longer than one packet leaves in segments (R56), of which the answer here is the content. -/
def Obligations.Read_counts : Prop :=
  (∀ (s : State) (p : Packet) (off n : Nat),
     s.serves 0x10 p = true → bodyOf p = leBytes 2 off ++ leBytes 2 n ∧ n < 65536 → (n = 0 ∨ 1024 < n) →
     Completes (.read p) s fun t =>
       Answered 0x10 p (refuse 0x010F 2) s t ∧ Keeps [] eventPages s t) ∧
  (∀ (s : State) (p : Packet) (off n : Nat),
     s.serves 0x10 p = true → bodyOf p = leBytes 2 off ++ leBytes 2 n ∧ off % 4 = 0 ∧ off + 4 * n ≤ 65536 →
     1 ≤ n ∧ n ≤ 1024 ∧ (addrs p.page.toNat off n).all s.readable = true →
     Completes (.read p) s fun t =>
       (p.src = .spi → bit p.flags.toNat 2 = false → authSet p = false → (t.que.spi.drop s.que.spi.length).flatMap
         (fun q => q.payload) = statusBlock 0 0 0 ++ (addrs p.page.toNat off n).flatMap (s.serving 0x10 p).readBytes)
         ∧ Keeps [] eventPages s t)

/-- R42. The second part is stated for the requests of R46 that end in the executor and leave their session open. -/
def Obligations.Replays_are_sent_again : Prop :=
  (∀ (s : State) (op : Nat) (p : Packet) (low : Bool) (i : Instr) (k : Kept),
    requestOf op p low = some i → s.reaches p = true → earlyBad op p = none → s.sessionOk op p = true →
    s.tagBad op p = false → s.keptReply op p = some k →
    Completes i s fun t =>
      Bumped CMD.STATS.REPLAYED s t ∧ Keeps [] eventPages s t ∧ t.hid.pls = s.hid.pls ∧ t.hid.cmd.due = s.hid.cmd.due ∧
      (p.src = .spi → bit p.flags.toNat 2 = false → k.reply.payload.length ≤ 4080 →
        t.que.spi = s.que.spi ++ [match s.replyKey p with
          | some key => ({ k.reply with flags := 1 } : OutPkt).signed key
          | none => { k.reply with flags := 1 }])) ∧
  (∀ (s : State) (p : Packet) (x : Session), s.serves 0x00 p = true → s.openSession p = some x →
    Completes (.nop p) s fun t =>
      t.f CMD.STATS.REPLAYED = s.f CMD.STATS.REPLAYED ∧ (t.session p.session.toNat).map (fun y => y.kept) =
        some ((x.kept ++ [(⟨p.seq.toNat, packetCrc 0x00 p, replyPkt 0x00 p {}⟩ : Kept)]).drop (x.kept.length + 1 - 8)))

/-- R44 steps 5 to 8 and 12, with the authorities of R46 and R47 and the violation log of R53. The DETAILs are log
entry 28. -/
def Obligations.Header_checks_refuse : Prop :=
  (∀ (s : State) (op : Nat) (p : Packet) (low : Bool) (i : Instr) (a : Ans),
    requestOf op p low = some i → s.reaches p = true → earlyBad op p = some a →
    Completes i s fun t => Answered op p a s t ∧ Keeps [] eventPages s t) ∧
  (∀ (s : State) (op : Nat) (p : Packet) (low : Bool) (i : Instr),
    requestOf op p low = some i → s.reaches p = true → earlyBad op p = none → s.sessionOk op p = false →
    Completes i s fun t => AnsweredLast op p (refuse 0x0114 0x8000000A) s t ∧ Logged op p 0x0114 0 s t) ∧
  (∀ (s : State) (op : Nat) (p : Packet) (low : Bool) (i : Instr),
    requestOf op p low = some i → s.reaches p = true → earlyBad op p = none → s.sessionOk op p = true →
    s.tagBad op p = true →
    Completes i s fun t => AnsweredLast op p (refuse 0x0113 0) s t ∧ Logged op p 0x0113 0 s t ∧
      Bumped CMD.RX_ERR.BAD_AUTH s t) ∧
  (∀ (s : State) (op : Nat) (p : Packet) (low : Bool) (i : Instr),
    requestOf op p low = some i → p.wf = true → s.takes op p = true →
    authOk (s.ctxOf op p).auth op p.scope.toNat p.inst.toNat (bodyOf p) = false →
    Completes i s fun t => AnsweredLast op p (refuse 0x0106 0) s t ∧ Logged op p 0x0106 0 s t)

/-- The host link before STANDBY (R49) and in SHIP (R49, R364). -/
def Obligations.Deaf_and_ship_states : Prop :=
  (∀ (s : State) (op : Nat) (p : Packet) (low : Bool) (i : Instr),
    requestOf op p low = some i → p.wf = true → s.listens p.src = false → exec i s = .next s) ∧
  (∀ (s : State) (op : Nat) (p : Packet) (low : Bool) (i : Instr),
    requestOf op p low = some i → p.wf = true → s.dev = 6 → s.hid.cmd.go = none → s.listens p.src = true →
    p.payload.length ≤ maxPayload p.src → earlyBad op p = none → p.session = 0 → op ≠ 0xF0 →
    Completes i s fun t =>
      Keeps [] eventPages s t ∧
      (authSet p = false → Answered op p (if op = 0x00 then {} else if op = 0x01 then okWith s.identify
        else if op = 0x02 then okWith s.getStatus else refuse 0x0107 SYS.STATUS) s t)) ∧
  (∀ (s : State) (p : Packet),
    p.wf = true → s.dev = 6 → s.hid.cmd.go = none → s.listens p.src = true →
    p.payload.length ≤ maxPayload p.src → earlyBad 0xF0 p = none → p.session = 0 → p.scope = 4 →
    Completes (.reset p) s fun t => t.hid.lcy.resetSoon = true)

/-- R470: no transition leaves RETIRED. That no transition runs is the premise that rules out states no run reaches.
-/
def Obligations.Retired_stays_retired : Prop :=
  ∀ s t : State, s.lcState = 4 → s.hid.lcy.trans = none → step s = .next t → t.lcState = 4 ∧ t.hid.lcy.trans = none

/-- The rule of R402 with the histories of R410, over the model's operation for an occurrence; the reaction of R408 is
stated in the obligations of the rows. -/
def Obligations.Ledger_judges_occurrences : Prop :=
  ∀ (s : State) (src inst detail : Nat), src < 256 → inst < 32 →
    Counted src inst s ((occur src inst detail).run s) ∧
    ((occur src inst detail).run s).lasting src inst = (s.lasting src inst || (decide (0 < s.ledN src) &&
      (s.ledN src == 1 || match (s.hid.now :: (mget ({} : Hist) s.hid.flg.hist (src * 256 + inst)).times)[s.ledN src - 1]? with
        | some t0 => decide (s.hid.now - t0 < s.ledW src * 1000)
        | none => false))) ∧
    (((occur src inst detail).run s).lasting src inst = s.lasting src inst →
      ∀ a, a ≠ FLG.OCCUR src → ((occur src inst detail).run s).rd a = s.rd a)

/-- R410, by a packet or by a legacy frame. -/
def Obligations.Lasting_bits_clear : Prop :=
  ∀ (s : State) (v : Via) (src : BitVec 8) (w : Word) (i : Fin 32),
    s.accepts v [(FLG.LASTING src.toNat, w)] = true →
    Completes (.lastingClear v src w) s fun t =>
      t.lasting src.toNat i = (s.lasting src.toNat i && !bit w.toNat i) ∧
      (s.lasting src.toNat i = true → bit w.toNat i = true → sget? t.hid.flg.hist (src.toNat * 256 + i.val) = none) ∧
      Keeps [FLG.LASTING src.toNat, FLG.STATUS, FLG.STATUS1, SAF.STATUS] eventPages s t

/-- R470. The DETAILs are log entry 28. -/
def Obligations.Retired_refuses : Prop :=
  (∀ (s : State) (p : Packet),
     s.serves 0x20 p = true ∧ s.lcState = 4 → s.present 0 = true ∧ s.dev ≠ 4 ∧ s.chargerGroup p.inst.toNat = false →
     Completes (.enable p) s fun t =>
       Answered 0x20 p (refuse 0x160C LCY.STATE) s t ∧ Keeps [] eventPages s t) ∧
  (∀ (s : State) (p : Packet) (low : Bool),
     s.serves 0xC0 p = true ∧ s.lcState = 4 → (bodyOf p).drop 1 = [0, 0, 0] →
     Completes (.lifecycleAdvance p low) s fun t =>
       Answered 0xC0 p (refuse 0x160C 0) s t ∧ Keeps [] eventPages s t) ∧
  (∀ (s : State) (p : Packet),
     s.serves 0xD0 p = true ∧ s.lcState = 4 → hdrKind (bodyOf p) = some (fwImage (s.ctxOf 0xD0 p).auth) →
     Completes (.fwUpdateBegin p) s fun t =>
       Answered 0xD0 p (refuse 0x160C 0) s t ∧ Keeps [] eventPages s t) ∧
  (∀ (s : State) (p : Packet),
     s.serves 0xD1 p = true ∧ s.lcState = 4 →
     Completes (.fwUpdateChunk p) s fun t =>
       Answered 0xD1 p (refuse 0x160C 0) s t ∧ Keeps [] eventPages s t) ∧
  (∀ (s : State) (p : Packet),
     s.serves 0xD2 p = true ∧ s.lcState = 4 → (bodyOf p).drop 64 = [0, 0, 0, 0] →
     Completes (.fwUpdateEnd p) s fun t =>
       Answered 0xD2 p (refuse 0x160C 0) s t ∧ Keeps [] eventPages s t) ∧
  (∀ (s : State) (p : Packet),
     s.takes 0x30 p = true ∧ p.wf = true ∧ s.lcState = 4 →
     accessBad (s.ctxOf 0x30 p) p (bodyOf p) = none ∧ s.segOf (s.ctxOf 0x30 p) = none ∧ s.segBreak (s.ctxOf 0x30 p) p
       = none →
     (s.stateBad (s.ctxOf 0x30 p).auth 0x30 p (bodyOf p) none).isNone = true ∧ (sizeBad 0x30 p (bodyOf p)
       false).isNone = true ∧ (targetBad 0x30 p (bodyOf p)).isNone = true →
     Completes (.tableLoad p) s fun t =>
       Answered 0x30 p (refuse 0x160C LCY.STATE) s t ∧ Keeps [] eventPages s t)

/-- R8, at its place in the order of R44. -/
def Obligations.Unmapped_pages_refuse : Prop :=
  (∀ (s : State) (op : Nat) (p : Packet) (i : Instr), op = 0x10 ∨ op = 0x11 ∨ op = 0x12 →
    requestOf op p false = some i → p.wf = true → s.takes op p = true → 0x16 < p.page.toNat →
    accessBad (s.ctxOf op p) p (bodyOf p) = none → (s.begun op p).segBreak (s.ctxOf op p) p = none →
    (s.begun op p).stateBad (s.ctxOf op p).auth op p (bodyOf p) ((s.begun op p).segOf (s.ctxOf op p)) = none →
    sizeBad op p (bodyOf p) ((s.begun op p).segOf (s.ctxOf op p)).isSome = none →
    Completes i s fun t =>
      AnsweredLast op p (refuse 0x0109 (p.page.toNat * 65536 + leAt (bodyOf p) 0 2)) s t ∧
      t.que.vio = ringPush 64 s.que.vio ⟨p.page.toNat * 65536 + leAt (bodyOf p) 0 2, s.ms % 4294967296, op,
        p.session.toNat, srcCode p.src, 0x09, srcId p.src⟩ ∧
      (∀ a, a / 65536 ∉ eventPages → t.rd a = s.rd a) ∧ t.tabs = s.tabs ∧ t.que.chg = s.que.chg) ∧
  (∀ (s : State) (write : Bool) (a : Nat) (w : Word), s.legacyOpen = true → 0x170000 ≤ a → a < 2 ^ 24 →
    Completes (.legacyFrame (legacyWord (BitVec.ofNat 64 (b2n write * 2 ^ 63 + a * 2 ^ 32 + w.toNat)))) s fun t =>
      t.hid.cmd.legacy = legacyResult 0xC0 a 0 ∧ t.f CMD.LEGACY_ERR.REASON = 0x0109 ∧
      t.que.vio = ringPush 64 s.que.vio ⟨a, s.ms % 4294967296, if write then 0x11 else 0x10, 0, 0x02, 0x09, 0⟩ ∧
      (∀ a, a / 65536 ∉ eventPages → t.rd a = s.rd a) ∧ t.tabs = s.tabs ∧ t.que.chg = s.que.chg)

/-- R41, over the operations that send replies and completions, for the SPI port. -/
def Obligations.No_reply_suppresses : Prop :=
  (∀ (s : State) (p : Packet) (key : Option (List Byte)) (r : OutPkt), p.src = .spi →
    ((bit p.flags.toNat 2 = true ∧ leAt r.payload 0 1 ≤ 1 → ((sendReply p key r).run s).que.spi = s.que.spi) ∧
     (1 < leAt r.payload 0 1 → ∃ q l, ((sendReply p key r).run s).que.spi = s.que.spi ++ q :: l))) ∧
  (∀ (s : State) (d : Due) (status reason detail : Nat) (data : List Byte), d.p.src = .spi → d.byRun = false →
    ((bit d.p.flags.toNat 2 = true ∧ status = stOk →
        ((sendCompletion d status reason detail data).run s).que.spi = s.que.spi) ∧
     (status ≠ stOk → eventCount s.que.spi < 64 →
        ∃ q, ((sendCompletion d status reason detail data).run s).que.spi = s.que.spi ++ [q]))) ∧
  (∀ (s : State) (p : Packet), s.serves 0x00 p = true → p.src = .spi → bit p.flags.toNat 2 = true →
    Completes (.nop p) s fun t => t.que.spi = s.que.spi)

/-- Requests that read (R46, R51, R53, R338, R339), answered as R39 says; the records of SPARE_STATUS are the model's
choice (log entry 28). -/
def Obligations.Information_requests_answer : Prop :=
  (∀ (s : State) (p : Packet),
     s.serves 0x00 p = true →
     Completes (.nop p) s fun t =>
       Answered 0x00 p {} s t ∧ Keeps [] eventPages s t) ∧
  (∀ (s : State) (p : Packet),
     s.serves 0x01 p = true →
     Completes (.identify p) s fun t =>
       Answered 0x01 p (okWith s.identify) s t ∧ Keeps [] eventPages s t) ∧
  (∀ (s : State) (p : Packet),
     s.serves 0x02 p = true →
     Completes (.getStatus p) s fun t =>
       Answered 0x02 p (okWith s.getStatus) s t ∧ Keeps [] eventPages s t) ∧
  (∀ (s : State) (p : Packet) (off n : Nat),
     s.serves 0x10 p = true → bodyOf p = leBytes 2 off ++ leBytes 2 n →
     off % 4 = 0 ∧ off + 4 * n ≤ 65536 ∧ 0 < n ∧ n ≤ 1024 → ((addrs p.page.toNat off n).all s.readable) = true →
     Completes (.read p) s fun t =>
       Answered 0x10 p (okWith ((addrs p.page.toNat off n).flatMap (s.serving 0x10 p).readBytes)) s t ∧
       Keeps [] eventPages s t) ∧
  (∀ (s : State) (p : Packet) (size n : Nat),
     s.serves 0x31 p = true → tableDim p.inst.toNat = some (size, n) ∧ (tableIsland p.inst.toNat).all s.present = true →
     Completes (.tableVerify p) s fun t =>
       Answered 0x31 p (okWith (leBytes 4 (s.tableCrc p.inst.toNat) ++ leBytes 4 n)) s t ∧ Keeps [] eventPages s t) ∧
  (∀ (s : State) (p : Packet),
     s.serves 0x31 p = true → tableDim p.inst.toNat = none →
     Completes (.tableVerify p) s fun t =>
       Keeps [] eventPages s t) ∧
  (∀ (s : State) (p : Packet),
     s.serves 0x60 p = true → leAt (bodyOf p) 0 1 = 1 ∧ leAt (bodyOf p) 1 1 = 0 →
     Completes (.logRead p) s fun t =>
       Answered 0x60 p (okWith (((s.que.flt.map FltEntry.bytes).drop (leAt (bodyOf p) 2 2)).take (leAt (bodyOf p) 4
         2)).flatten) s t ∧ Keeps [] eventPages s t) ∧
  (∀ (s : State) (p : Packet),
     s.serves 0x60 p = true → leAt (bodyOf p) 0 1 = 2 ∧ leAt (bodyOf p) 1 1 = 0 →
     Completes (.logRead p) s fun t =>
       Answered 0x60 p (okWith (((s.que.vio.map VioEntry.bytes).drop (leAt (bodyOf p) 2 2)).take (leAt (bodyOf p) 4
         2)).flatten) s t ∧ Keeps [] eventPages s t) ∧
  (∀ (s : State) (p : Packet),
     s.serves 0x60 p = true → leAt (bodyOf p) 0 1 = 3 ∧ leAt (bodyOf p) 1 1 = 0 →
     Completes (.logRead p) s fun t =>
       Answered 0x60 p (okWith (((s.que.chg.map ChgEntry.bytes).drop (leAt (bodyOf p) 2 2)).take (leAt (bodyOf p) 4
         2)).flatten) s t ∧ Keeps [] eventPages s t) ∧
  (∀ (s : State) (p : Packet),
     s.serves 0x81 p = true →
     Completes (.spareStatus p) s fun t =>
       (p.src = .spi → authSet p = false → bit p.flags.toNat 2 = false → t.que.spi = s.que.spi ++ (List.range 4).map
         fun i =>
         { replyPkt 0x81 p {} with flags := if i < 3 then 9 else 1, first := i == 0, payload := ((replyPkt 0x81 p (okWith s.spareStatus)).payload.drop (4096 * i)).take 4096 })
         ∧ Keeps [] eventPages s t) ∧
  (∀ (s : State) (p : Packet) (d : List Byte),
     s.serves 0xE0 p = true →
     s.meterRead (leAt (bodyOf p) 0 1) = some d ∧ (bodyOf p).drop 1 = [0, 0, 0] ∧ s.present 8 = true →
     Completes (.meterRead p) s fun t =>
       Answered 0xE0 p (okWith d) s t ∧ Keeps [] eventPages s t) ∧
  (∀ (s : State) (p : Packet) (l : List (List Byte)),
     s.serves 0xE1 p = true →
     0 < leAt (bodyOf p) 4 2 ∧ leAt (bodyOf p) 4 2 ≤ 512 ∧ leAt (bodyOf p) 6 2 = 0 ∧ s.present 8 = true →
     s.heldRecords (leAt (bodyOf p) 0 4) (leAt (bodyOf p) 4 2) = some l →
     Completes (.meterRecordRead p) s fun t =>
       Answered 0xE1 p (okWith (leBytes 2 l.length ++ leBytes 2 0 ++ l.flatten)) s t ∧ Keeps [] eventPages s t)

/-- Writes (R52), SETPOINT (R66), tables (R48, R54, R226), logs (R53, R399). The value of SP_LAT_MAX is free within
the bound of R66 (log entry 28); the checks of table entries' fields are log entry 27. -/
def Obligations.Writes_and_tables : Prop :=
  (∀ (s : State) (p : Packet) (off : Nat) (vs : List Word),
     s.serves 0x11 p = true →
     (bodyOf p = leBytes 2 off ++ leBytes 2 vs.length ++ vs.flatMap (fun v => leBytes 4 v.toNat)) →
     off % 4 = 0 ∧ off + 4 * vs.length ≤ 65536 ∧ vs ≠ [] ∧ vs.length ≤ 1023 →
     (s.serving 0x11 p).writable (s.ctxOf 0x11 p) ((addrs p.page.toNat off vs.length).zip vs) = true →
     ((addrs p.page.toNat off vs.length).all storesOnly) = true →
     Completes (.write p) s fun t =>
       (∀ k < vs.length, t.rd (p.page.toNat * 65536 + off + 4 * k) = s.afterWrite (p.page.toNat * 65536 + off + 4 * k)
         (vs.getD k 0)) ∧ Answered 0x11 p {} s t ∧
       KeepsConfig (SAF.CFG_CRC :: addrs p.page.toNat off vs.length) eventPages s t) ∧
  (∀ (s : State) (p : Packet) (off : Nat) (mask value : Word) (r : RegSpec),
     s.serves 0x12 p = true →
     bodyOf p = leBytes 2 off ++ leBytes 2 0 ++ leBytes 4 mask.toNat ++ leBytes 4 value.toNat →
     off % 4 = 0 ∧ off < 65536 ∧ regAt (p.page.toNat * 65536 + off) = some r ∧ r.w1c = 0 ∧ r.wo = 0 →
     storesOnly (p.page.toNat * 65536 + off) = true →
     (s.serving 0x12 p).writable (s.ctxOf 0x12 p) [(p.page.toNat * 65536 + off, (value &&& mask) ||| (s.rd
       (p.page.toNat * 65536 + off) &&& ~~~mask))] = true →
     Completes (.modify p) s fun t =>
       t.rd (p.page.toNat * 65536 + off) = s.afterWrite (p.page.toNat * 65536 + off) ((value &&& mask) ||| (s.rd
         (p.page.toNat * 65536 + off) &&& ~~~mask)) ∧
       Answered 0x12 p (okWith (leBytes 4 ((s.serving 0x12 p).hostRead r (p.page.toNat * 65536 + off)).toNat)) s t ∧
       KeepsConfig [SAF.CFG_CRC, p.page.toNat * 65536 + off] eventPages s t) ∧
  (∀ (s : State) (p : Packet) (e : SpEntry) (a : Nat),
     s.serves 0x40 p = true → spEntries (bodyOf p) = [e] ∧ leAt (bodyOf p) 1 3 = 0 →
     s.settable (s.ctxOf 0x40 p).auth e a = true →
     Completes (.setpoint p) s fun t =>
       (e.kind = 1 → t.rd a = s.afterWrite a e.value) ∧ Bumped CMD.SP_LAT.SP_COUNT s t ∧
       t.f CMD.SP_LAT.SP_LAT_MAX ≤ max (s.f CMD.SP_LAT.SP_LAT_MAX) 2000 ∧
       (e.kind = 1 → ∀ y, y / 65536 ∉ [0x01, 0x07, 0x14] → t.rd y = s.rd y) ∧
       (e.kind = 2 → ∀ y, y ≠ a → y / 65536 ∉ 0x08 :: 0x0A :: 0x0B :: ledgerPages → t.rd y = s.rd y) ∧ t.tabs = s.tabs) ∧
  (∀ (s : State) (p : Packet) (e : SpEntry) (a : Nat),
     s.serves 0x40 p = true → spEntries (bodyOf p) = [e] ∧ leAt (bodyOf p) 1 3 = 0 ∧ e.kind = 2 ∧ e.index < 512 →
     s.settable (s.ctxOf 0x40 p).auth e a = true →
     Completes (.setpoint p) s fun t =>
       t.rd a = s.afterWrite a e.value ∧ Bumped CMD.SP_LAT.SP_COUNT s t ∧ Answered 0x40 p {} s t ∧
       KeepsConfig [a] eventPages s t) ∧
  (∀ (s : State) (p : Packet) (size n j o : Nat),
     s.serves 0x30 p = true → tableDim p.inst.toNat = some (size, n) ∧ p.inst ≠ 0x80 →
     bit p.flags.toNat 3 = false ∧ s.segOf (s.ctxOf 0x30 p) = none →
     s.loadable p.inst.toNat size n (leAt (bodyOf p) 0 2) (entriesOf size ((bodyOf p).drop 4)) = true →
     Completes (.tableLoad p) s fun t =>
       (∀ k < leAt (bodyOf p) 2 2, t.tbs p.inst.toNat (size * (leAt (bodyOf p) 0 2 + k)) size = s.loadedEntry
         p.inst.toNat (leAt (bodyOf p) 0 2 + k) ((entriesOf size ((bodyOf p).drop 4)).getD k [])) ∧
       (o < 16777216 → ¬ (j = p.inst.toNat ∧ size * leAt (bodyOf p) 0 2 ≤ o ∧ o < size * (leAt (bodyOf p) 0 2 + leAt
         (bodyOf p) 2 2)) → t.tb j o = s.tb j o) ∧ (p.inst = 0x31 → Answered 0x30 p {} s t) ∧
       (p.inst = 0x31 → ∀ y, y ≠ SAF.CHANGE → y / 65536 ∉ eventPages → t.rd y = s.rd y)) ∧
  (∀ (s : State) (p : Packet) (size n : Nat),
     s.serves 0x30 p = true → tableDim p.inst.toNat = some (size, n) ∧ p.inst ≠ 0x80 →
     bit p.flags.toNat 3 = true ∧ s.segOf (s.ctxOf 0x30 p) = none →
     leAt (bodyOf p) 0 2 < n ∧ leAt (bodyOf p) 0 2 + leAt (bodyOf p) 2 2 ≤ n →
     s.loadable p.inst.toNat size n (leAt (bodyOf p) 0 2) (entriesOf size ((bodyOf p).drop 4)) = true →
     Completes (.tableLoad p) s fun t =>
       (((t.session p.session.toNat).bind fun x => x.seg).map (fun g => (g.first, g.next, g.nextSeq, g.data)) = some
         (leAt (bodyOf p) 0 2, leAt (bodyOf p) 0 2 + leAt (bodyOf p) 2 2, (p.seq.toNat + 1) % 65536, (bodyOf p).drop
         4)) ∧ Answered 0x30 p {} s t ∧ Keeps [] eventPages s t) ∧
  (∀ (s : State) (p : Packet) (m : Fin 2) (k : Fin 2),
     s.serves 0x32 p = true → s.present (2 + m.val) = true →
     p.inst.toNat = 0x10 + 2 * m.val + k.val ∧ s.f (FLD.MCH_STAT.BANK m) ≠ k ∧ bit (s.f FLD.MAP_STAT.COMPLETE) (2 *
       m.val + k.val) = true →
     Completes (.tableSwap p) s fun t =>
       t.f (FLD.MCH_STAT.BANK m) = k ∧ Bumped FLD.MAP_STAT.SWAPS s t ∧ AnsweredLast 0x32 p {} s t ∧
       Keeps [FLD.MCH_STAT m, FLD.MAP_STAT] eventPages s t) ∧
  (∀ (s : State) (p : Packet) (m : Fin 2) (k : Fin 2),
     s.serves 0x32 p = true → s.present (2 + m.val) = true →
     p.inst.toNat = 0x10 + 2 * m.val + k.val ∧ s.f (FLD.MCH_STAT.BANK m) = k →
     Completes (.tableSwap p) s fun t =>
       Answered 0x32 p {} s t ∧ Keeps [] eventPages s t) ∧
  (∀ (s : State) (p : Packet),
     s.serves 0x61 p = true → bodyOf p = [1, 0, 0, 0] →
     Completes (.logClear p) s fun t =>
       t.que.flt = [] ∧ t.rd FLG.STATUS = 0 ∧ Answered 0x61 p {} s t ∧ KeepsConfig [FLG.STATUS] eventPages s t) ∧
  (∀ (s : State) (p : Packet),
     s.serves 0x61 p = true → bodyOf p = [2, 0, 0, 0] →
     Completes (.logClear p) s fun t =>
       t.que.vio = [] ∧ t.rd CMD.VIOLATION = 0 ∧ t.que.flt = s.que.flt ∧ Answered 0x61 p {} s t ∧
       (∀ y, y ≠ SAF.CHANGE → y / 65536 ∉ eventPages → t.rd y = s.rd y) ∧ t.tabs = s.tabs)

/-- ENABLE (R58, R105, R130), DISABLE (R80), COMMIT (R101). -/
def Obligations.Group_requests : Prop :=
  (∀ (s : State) (p : Packet),
     s.serves 0x20 p = true ∧ s.present 0 = true →
     s.active p.inst.toNat = false ∧ (s.serving 0x20 p).enableRefusal p.inst.toNat true = none →
     s.levelsQuiet p.inst.toNat = true →
     Completes (.enable p) s fun t =>
       t.gst p.inst.toNat = .armed ∧ t.f (TRP.GRP_TRIP.HELD p.inst.toNat) = 0 ∧ t.rd (SAF.GRP p.inst.toNat) = 0 ∧
       t.f (PLS.GRP_STAT.RELOAD_PEND p.inst.toNat) = 0 ∧
       (∀ c ∈ s.chans p.inst.toNat, t.rd (PLS.RISE c) = never ∧ t.rd (PLS.FALL c) = 0 ∧ t.rd (PLS.RISE_ACT c) = never
         ∧ t.rd (PLS.FALL_ACT c) = 0) ∧
       (s.f DCL.CTRL.BRK_GROUP ≠ p.inst.toNat ∨ s.f DCL.STATUS.CHOP_DEMAND = 0 → ∀ c ∈ s.chans p.inst.toNat, (t.chan
         c).on = false) ∧ AnsweredLast 0x20 p {} s t ∧ Keeps [] [0x00, 0x01, 0x03, 0x04, 0x09, 0x10, 0x14] s t) ∧
  (∀ (s : State) (p : Packet),
     s.serves 0x20 p = true → s.active p.inst.toNat = true ∧ (s.serving 0x20 p).enableRefusal p.inst.toNat true = none →
     Completes (.enable p) s fun t =>
       Answered 0x20 p {} s t ∧ Keeps [] eventPages s t) ∧
  (∀ (s : State) (p : Packet),
     s.serves 0x21 p = true →
     s.gst p.inst.toNat ≠ .off ∧ s.gst p.inst.toNat ≠ .configured ∧ s.disableRefusal p.inst.toNat true = none →
     Completes (.disable p) s fun t =>
       t.gst p.inst.toNat = .configured ∧ t.f (TRP.GRP_TRIP.HELD p.inst.toNat) = 0 ∧ t.rd (SAF.GRP p.inst.toNat) = 0 ∧
       (∀ c ∈ s.chans p.inst.toNat, (t.chan c).on = false) ∧ AnsweredLast 0x21 p {} s t ∧
       Keeps [] [0x00, 0x01, 0x03, 0x04, 0x09, 0x10, 0x14] s t) ∧
  (∀ (s : State) (p : Packet),
     s.serves 0x21 p = true → (s.gst p.inst.toNat = .off ∨ s.gst p.inst.toNat = .configured) →
     Completes (.disable p) s fun t =>
       Answered 0x21 p {} s t ∧ Keeps [] eventPages s t) ∧
  (∀ (s : State) (p : Packet),
     s.serves 0x22 p = true ∧ s.present 0 = true →
     (s.loopOwned p.inst.toNat && s.active p.inst.toNat) = false ∧ (s.grp p.inst.toNat).left = false ∧ s.f
       (PLS.GRP_STAT.RELOAD_PEND p.inst.toNat) = 0 →
     Completes (.commit p) s fun t =>
       t.f (PLS.GRP_STAT.RELOAD_PEND p.inst.toNat) = 1 ∧
       (∀ c ∈ s.chans p.inst.toNat, (t.chan c).rel = some (s.rd (PLS.RISE c), s.rd (PLS.FALL c))) ∧
       Answered 0x22 p {} s t ∧ Keeps [PLS.GRP_STAT p.inst.toNat] eventPages s t)

/-- Commanded self-tests (R137, R155); that a group that is ARMED or RUNNING, or a test that runs, refuses it belongs
to the checks of R44. -/
def Obligations.Selftests_begin : Prop :=
  (∀ (s : State) (p : Packet) (k : Fin 8),
     s.serves 0x50 p = true ∧ s.present 7 = true → bodyOf p = leBytes 2 (0x400 + k.val) ++ [0, 0] →
     Completes (.selftest p) s fun t =>
       (t.bank k).testing = true ∧ t.findDue 0x50 (0x400 + k.val) = some ⟨0x50, 0x400 + k.val, p, false⟩ ∧
       Answered 0x50 p { status := stAccepted } s t ∧ Keeps [] eventPages s t) ∧
  (∀ (s : State) (p : Packet) (g : Fin 32),
     s.serves 0x50 p = true ∧ s.present 7 = true → bodyOf p = leBytes 2 (0x500 + g.val) ++ [0, 0] ∧ s.grpPairs g ≠ [] →
     Completes (.selftest p) s fun t =>
       t.findDue 0x50 (0x500 + g.val) = some ⟨0x50, 0x500 + g.val, p, false⟩ ∧
       Answered 0x50 p { status := stAccepted } s t ∧ Keeps [] eventPages s t)

/-- Sessions (R59, R60), SESSION_CLOSE (R46), passwords (R62). Nonces and salts are free values; the lowest unused
number is the model's choice of SESSION_ID (log entry 28). -/
def Obligations.Session_and_password_requests : Prop :=
  (∀ (s : State) (p : Packet) (a : Nat),
     s.serves 0x70 p = true →
     bodyOf p = by1 [0, a, 0, 0] ∧ 1 ≤ a ∧ a ≤ 3 ∧ s.hid.cmd.lockEnd = none ∧ s.sessionLimit a = false →
     Completes (.sessionOpen p) s fun t =>
       ((t.hid.cmd.sessions.map fun x => (x.id, x.src, x.auth, x.opened)) = (s.hid.cmd.sessions.map fun x => (x.id,
         x.src, x.auth, x.opened)) ++ [(s.freeId, p.src, a, false)]) ∧ Keeps [] eventPages s t) ∧
  (∀ (s : State) (p : Packet) (x : Session),
     s.serves 0x70 p = true → s.session p.session.toNat = some x ∧ s.hid.cmd.lockEnd = none →
     bodyOf p = [1, 0, 0, 0] ++ hmac (s.pwd x.auth).hash (x.nonce ++ leBytes 2 x.id) →
     Completes (.sessionOpen p) s fun t =>
       ((t.session p.session.toNat).map (fun y => (y.opened, y.auth, y.src, y.key, y.at_)) = some (true, x.auth,
         x.src, hmac (s.pwd x.auth).hash (by1 [0x49, 0x41, 0x4C, 0x4B] ++ x.nonce), s.hid.now)) ∧
       (t.f CMD.STATUS.SESSIONS_OPEN = (t.hid.cmd.sessions.filter fun y => y.opened).length % 16) ∧
       Answered 0x70 p {} s t ∧ Keeps [] eventPages s t) ∧
  (∀ (s : State) (p : Packet),
     s.serves 0x71 p = true →
     Completes (.sessionClose p) s fun t =>
       t.session p.session.toNat = none ∧
       (t.f CMD.STATUS.SESSIONS_OPEN = (t.hid.cmd.sessions.filter fun y => y.opened).length % 16) ∧
       Answered 0x71 p {} s t ∧ Keeps [] eventPages s t) ∧
  (∀ (s : State) (p : Packet) (pw key : List Byte),
     s.serves 0x72 p = true →
     ((s.session p.session.toNat).map (fun x => x.key) = some key ∧ 8 ≤ pw.length ∧ pw.length ≤ 32) →
     ((pw.all fun b => decide (0x20 ≤ b.toNat ∧ b.toNat ≤ 0x7E)) = true) →
     bodyOf p = by1 [pw.length, 0, 0, 0] ++ xorBytes (pw ++ List.replicate (32 - pw.length) 0) (hmac key (by1 [0x49,
       0x41, 0x4C, 0x50] ++ leBytes 2 p.seq.toNat)) →
     Completes (.passwordChange p) s fun t =>
       t.pwdSet (s.ctxOf 0x72 p).auth = true ∧
       t.pwd (s.ctxOf 0x72 p).auth = ⟨(s.ctxOf 0x72 p).auth, (t.pwd (s.ctxOf 0x72 p).auth).salt, pbkdf2 pw (t.pwd
         (s.ctxOf 0x72 p).auth).salt Config.iterations⟩ ∧ Answered 0x72 p {} s t ∧ KeepsConfig [] eventPages s t)

/-- Stored sequences (R63, R64) and the status of a run (R40). -/
def Obligations.Sequence_requests : Prop :=
  (∀ (s : State) (p : Packet) (i : Fin 64) (data : List Byte),
     s.serves 0x90 p = true →
     bodyOf p = by1 [i.val, 0, 0, 0] ++ data ∧ data.length ≤ 4096 ∧ bit p.flags.toNat 3 = false ∧ s.segOf (s.ctxOf
       0x90 p) = none → (sequencePackets data.length 4 data).toBool = true →
     Completes (.sequenceStore p) s fun t =>
       t.hid.cmd.seqs = sput s.hid.cmd.seqs i.val ⟨(s.ctxOf 0x90 p).auth, data⟩ ∧ Answered 0x90 p {} s t ∧
       Keeps [] eventPages s t) ∧
  (∀ (s : State) (p : Packet) (i : Fin 64) (a : Nat) (l : List Req),
     s.serves 0x91 p = true → bodyOf p = by1 [i.val, 0, 0, 0] →
     s.sequence i = (a, l) ∧ l.all nopStep = true ∧ s.hid.cmd.runSeg = none →
     Completes (.sequenceRun p) s fun t =>
       Answered 0x91 p {} s t ∧ t.hid.cmd.run = none ∧ t.hid.cmd.runSeg = none ∧ Keeps [] eventPages s t) ∧
  (∀ (s : State) (p : Packet) (i : Fin 64) (a : Nat) (l l2 : List Req) (r : Req) (x : Ans),
     s.serves 0x91 p = true → bodyOf p = by1 [i.val, 0, 0, 0] →
     s.sequence i = (a, l ++ r :: l2) ∧ l.all nopStep = true ∧ s.hid.cmd.runSeg = none →
     accessBad ⟨r.op, min (s.ctxOf 0x91 p).auth a, p.session.toNat, 0x30, 0⟩ { r.p with session := p.session } (bodyOf
       r.p) = some x →
     Completes (.sequenceRun p) s fun t =>
       AnsweredLast 0x91 p (stepEnd l.length x.status x.reason x.detail) s t ∧
       t.hid.cmd.run = none ∧ t.hid.cmd.runSeg = none ∧ t.tabs = s.tabs ∧ t.que.chg = s.que.chg ∧
       (∀ y, y / 65536 ∉ eventPages → t.rd y = s.rd y))

/-- Spares (R84, R85), the memory (R435, R436), Chords (R419, R421). -/
def Obligations.Spare_and_memory_requests : Prop :=
  (∀ (s : State) (p : Packet) (unit spare : Nat) (ball : Bool),
     s.serves 0x80 p = true →
     bodyOf p = leBytes 2 unit ++ leBytes 2 (spare + 32768 * b2n ball) ∧ unit < 144 ∧ s.chGroup unit < 32 ∧
       isSpareChannel unit = false →
     spareKindOk unit spare = true ∧ s.spareFree spare = true ∧ (isDriver unit && !ball && bit (s.f
       GDR.DRV_FAILED.PAIRS) ((unit - 96) / 2)) = false →
     ((s.gst (s.chGroup unit) = .off ∨ s.gst (s.chGroup unit) = .configured) ∧ s.hid.trp.hand = none ∧ s.present 0 =
       true) →
     Completes (.spareSubstitute p) s fun t =>
       sget? t.hid.trp.spares spare = some (.inUse unit ball) ∧ bit (t.chFlags unit) 3 = true ∧
       Answered 0x80 p {} s t ∧ (∀ y, y ≠ SAF.CHANGE → y ≠ MAP.STATUS → y / 65536 ∉ ledgerPages → t.rd y = s.rd y) ∧
       (∀ j o, j ≠ 0x30 ∨ o ≠ 8 * unit + 6 → t.tb j o = s.tb j o)) ∧
  (∀ (s : State) (p : Packet) (unit spare : Nat) (ball : Bool),
     s.serves 0x80 p = true →
     bodyOf p = leBytes 2 unit ++ leBytes 2 (spare + 32768 * b2n ball) ∧ unit < 144 ∧ s.chGroup unit < 32 ∧
       isSpareChannel unit = false →
     spareKindOk unit spare = true ∧ s.spareFree spare = true ∧ (isDriver unit && !ball && bit (s.f
       GDR.DRV_FAILED.PAIRS) ((unit - 96) / 2)) = false →
     s.active (s.chGroup unit) = true ∧ s.hid.trp.hand = none ∧ s.present 0 = true →
     Completes (.spareSubstitute p) s fun t =>
       t.hid.trp.hand = some ⟨unit, spare, ball, 0⟩ ∧
       t.findDue 0x80 unit = (s.findDue 0x80 unit).or (some ⟨0x80, unit, p, false⟩) ∧
       Answered 0x80 p { status := stAccepted } s t ∧ KeepsConfig [] eventPages s t) ∧
  (∀ (s : State) (p : Packet) (unit spare : Nat) (ball : Bool),
     s.serves 0x80 p = true → bodyOf p = leBytes 2 unit ++ [0xFF, 0] ∧ unit < 144 →
     s.hid.trp.spares = [(spare, .inUse unit ball)] →
     (s.chGroup unit < 32 ∧ (s.gst (s.chGroup unit) = .off ∨ s.gst (s.chGroup unit) = .configured)) →
     Completes (.spareSubstitute p) s fun t =>
       t.hid.trp.spares = [] ∧ bit (t.chFlags unit) 3 = false ∧ Answered 0x80 p {} s t ∧
       (∀ y, y ≠ SAF.CHANGE → y ≠ MAP.STATUS → y / 65536 ∉ ledgerPages → t.rd y = s.rd y) ∧
       (∀ j o, j ≠ 0x30 ∨ o ≠ 8 * unit + 6 → t.tb j o = s.tb j o)) ∧
  (∀ (s : State) (p : Packet) (a n : Nat),
     s.serves 0xA0 p = true →
     bodyOf p = leBytes 4 a ++ leBytes 4 n ∧ a % 1024 = 0 ∧ a < 0x02000000 ∧ 0 < n ∧ a / 1024 + n ≤ 32768 →
     s.hid.mem.scrub = none ∧ s.present 11 = true →
     Completes (.memScrub p) s fun t =>
       t.hid.mem.scrub = some ⟨a / 1024, n, s.ms, 0, s.splitChd⟩ ∧ t.f MEM.STATUS.SCRUB_ACTIVE = 1 ∧
       Answered 0xA0 p { status := stAccepted } s t ∧ Keeps [MEM.STATUS] eventPages s t) ∧
  (∀ (s : State) (p : Packet) (q : Nat),
     s.serves 0xA1 p = true →
     bodyOf p = leBytes 4 q ∧ s.retireRefusal q = none ∧ s.hid.mem.bad.contains q = false ∧ s.hid.mem.poison.contains
       q = false → s.hid.mem.merge = [] →
     Completes (.memRetire p) s fun t =>
       sget? t.hid.mem.retired q = some (32768 + s.hid.mem.used) ∧
       t.f MEM.STATUS.SPARE_FREE = s.f MEM.STATUS.SPARE_FREE - 1 ∧ Keeps [] (0x13 :: ledgerPages) s t) ∧
  (∀ (s : State) (p : Packet) (n : Nat),
     s.serves 0xB0 p = true → bodyOf p = by1 [n, 0, 0, 0] ∧ n ≤ 2 ∧ s.splitAnswer n = none ∧ s.f LCY.THERM.STEP = 0 →
     Completes (.chordSplit p) s fun t =>
       (t.chord n).toSplit = true ∧ t.findDue 0xB0 n = (s.findDue 0xB0 n).or (some ⟨0xB0, n, p, false⟩) ∧
       Answered 0xB0 p { status := stAccepted } s t ∧ Keeps [] eventPages s t) ∧
  (∀ (s : State) (p : Packet) (n : Nat),
     s.serves 0xB1 p = true → bodyOf p = by1 [n, 0, 0, 0] ∧ n ≤ 2 ∧ s.chd n = 2 ∧ s.findDue 0xB1 n = none →
     Completes (.chordJoin p) s fun t =>
       (t.chord n).joining = true ∧ t.findDue 0xB1 n = some ⟨0xB1, n, p, false⟩ ∧
       Answered 0xB1 p { status := stAccepted } s t ∧ Keeps [] eventPages s t)

/-- The life cycle (R468, R469), firmware (R471, R472), sealing (R329), RESET (R27, R29); that a device reset begins
with the next tick is the model's choice (log entry 28). -/
def Obligations.Lifecycle_and_meter_requests : Prop :=
  (∀ (s : State) (p : Packet) (low : Bool) (n : Nat),
     s.serves 0xC0 p = true →
     bodyOf p = by1 [n, 0, 0, 0] ∧ n < 256 ∧ s.advanceRefusal n low = none ∧ wipedRegions s.lcState n = [] →
     Completes (.lifecycleAdvance p low) s fun t =>
       t.lcState = n ∧ t.f SYS.STATUS.LC_STATE = n ∧ t.f SYS.BOOT.BOOTS = 0 ∧ Bumped LCY.STATE.TRANSITIONS s t ∧
       AnsweredLast 0xC0 p { status := stAccepted } s t ∧
       (∀ y, y / 65536 ∉ 0x13 :: 0x16 :: ledgerPages → t.rd y = s.rd y) ∧ t.tabs = s.tabs ∧ t.que.vio = s.que.vio) ∧
  (∀ (s : State) (p : Packet) (low : Bool) (n : Nat),
     s.serves 0xC0 p = true →
     bodyOf p = by1 [n, 0, 0, 0] ∧ n < 256 ∧ s.advanceRefusal n low = none ∧ wipedRegions s.lcState n ≠ [] →
     Completes (.lifecycleAdvance p low) s fun t =>
       t.hid.lcy.trans = some (n, p.session.toNat, srcCode p.src) ∧ t.f MEM.STATUS.WIPE_PENDING = 1 ∧
       Answered 0xC0 p { status := stAccepted } s t ∧ Keeps [MEM.STATUS] eventPages s t) ∧
  (∀ (s : State) (p : Packet) (k : Nat),
     s.serves 0xD0 p = true →
     hdrKind (bodyOf p) = some k ∧ k = fwImage (s.ctxOf 0xD0 p).auth ∧ s.fwBeginRefusal (bodyOf p) = none →
     Completes (.fwUpdateBegin p) s fun t =>
       sget? t.hid.lcy.upd k = some ⟨s.targetSlot k, bodyOf p, s.hid.now, none, false, s.splitChd⟩ ∧
       t.f (slotField k (s.targetSlot k)) = 1 ∧ t.f (LCY.FW_VER.VERSION k (s.targetSlot k)) = hdrN (bodyOf p) 8 4 ∧
       Answered 0xD0 p {} s t ∧ Keeps [LCY.FW_STAT k, LCY.FW_VER k (s.targetSlot k)] eventPages s t) ∧
  (∀ (s : State) (p : Packet) (u : FwUpd) (o i : Nat) (data : List Byte),
     s.serves 0xD1 p = true →
     bodyOf p = leBytes 4 o ++ data ∧ bit p.flags.toNat 3 = false ∧ s.segOf (s.ctxOf 0xD1 p) = none ∧ o + data.length
       ≤ hdrN u.header 12 4 →
     sget? s.hid.lcy.upd (fwImage (s.ctxOf 0xD1 p).auth) = some u ∧ u.sig = none ∧ s.lcState ≠ 4 →
     Completes (.fwUpdateChunk p) s fun t =>
       (i < data.length → sget 0 (t.slot (fwImage (s.ctxOf 0xD1 p).auth) u.slot).data (o + i) = data.getD i 0) ∧
       Answered 0xD1 p {} s t ∧ Keeps [] eventPages s t) ∧
  (∀ (s : State) (p : Packet) (u : FwUpd) (sig : List Byte) (live : Bool),
     s.serves 0xD2 p = true → bodyOf p = sig ++ by1 [b2n live, 0, 0, 0] ∧ sig.length = 64 →
     sget? s.hid.lcy.upd (fwImage (s.ctxOf 0xD2 p).auth) = some u ∧ u.sig = none ∧ s.lcState ≠ 4 →
     Completes (.fwUpdateEnd p) s fun t =>
       sget? t.hid.lcy.upd (fwImage (s.ctxOf 0xD2 p).auth) = some { u with sig := some sig, live := live } ∧
       Answered 0xD2 p { status := stAccepted } s t ∧ Keeps [] eventPages s t) ∧
  (∀ (s : State) (p : Packet) (table : List Byte),
     s.serves 0xE2 p = true ∧ s.present 8 = true → bodyOf p = [0, 0, 0, 0] ++ table ∧ s.sealRefusal table = none →
     Completes (.meterSeal p) s fun t =>
       t.tbs 0x80 0 192 = table ∧ t.f MTR.STATUS.REG_FAULT = 0 ∧ t.hid.mtr.seals = (s.hid.mtr.seals + 1) % 65536 ∧
       (∀ y, y ≠ SAF.CHANGE → y / 65536 ∉ 0x0D :: ledgerPages → t.rd y = s.rd y) ∧
       (∀ j o, j ≠ 0x80 → t.tb j o = s.tb j o)) ∧
  (∀ (s : State) (p : Packet),
     s.serves 0xF0 p = true → p.scope = 4 →
     Completes (.reset p) s fun t =>
       t.hid.lcy.resetSoon = true ∧ Answered 0xF0 p {} s t ∧ Keeps [] eventPages s t) ∧
  (∀ (s : State) (p : Packet),
     s.serves 0xF0 p = true → s.hid.lcy.refLost = false →
     p.scope = 3 ∧ s.f (SYS.ISLAND.STATE p.inst.toNat) ≠ 0 ∧ p.inst ≠ 8 →
     Completes (.reset p) s fun t =>
       t.f (SYS.ISLAND.STATE p.inst.toNat) = 1 ∧ Bumped (SYS.ISLAND.RESETS p.inst.toNat) s t ∧
       (∀ m < 16, m ≠ p.inst.toNat → t.f (SYS.ISLAND.STATE m) = s.f (SYS.ISLAND.STATE m))) ∧
  (∀ (s : State) (p : Packet),
     s.serves 0xF0 p = true → p.scope = 1 →
     Completes (.reset p) s fun t =>
       Answered 0xF0 p {} s t ∧ Keeps [] eventPages s t)

/-- Device resets (R364, R365, R460 to R462, R465, R469, R475), and the battery switch at power-on (R356). -/
def Obligations.Resets_begin : Prop :=
  (∀ (s : State),
     Completes (.resetNLow) s fun t =>
       ResetBegun 2 t ∧ t.rd LCY.STATE = s.rd LCY.STATE ∧ (∀ o < 2048, t.tb 0x60 o = s.tb 0x60 o)) ∧
  (∀ (s : State),
     (¬ (s.hid.lcy.held = true ∧ s.hid.lcy.cause = 3 ∧ ∃ m < 4, s.f (supplyOk m) = 0)) →
     Completes (.powerOn) s fun t =>
       ResetBegun 1 t ∧ t.f LVP.STATUS.BSW = 1 ∧ (∀ m < 4, t.f (supplyOk m) = 1)) ∧
  (∀ (s : State),
     s.hid.lcy.held = true → s.hid.lcy.cause = 3 → (∃ m < 4, s.f (supplyOk m) = 0) →
     Completes (.powerOn) s fun t =>
       t.hid = s.hid ∧ (∀ m < 4, t.f (supplyOk m) = 1) ∧ Keeps [LCY.SUPPLY] [] s t) ∧
  (∀ (s : State) (m : Fin 4),
     s.f (supplyOk m) = 1 →
     Completes (.brownout m) s fun t =>
       ResetBegun 3 t ∧ t.f (supplyOk m) = 0 ∧ t.f LCY.SUPPLY.BROWNOUTS = min (s.f LCY.SUPPLY.BROWNOUTS + 1) 65535) ∧
  (∀ (s : State),
     s.hid.lcy.held = false → s.dev = 0 →
     Completes (.bootFallback) s fun t =>
       ResetBegun 8 t ∧ t.f (slotField 0 (s.f (LCY.FW_STAT.ACTIVE 0))) = 4 ∧ t.hid.lcy.fellBack = true) ∧
  (∀ (s : State),
     s.hid.lcy.resetDue = true →
     Completes (.lifecycleReset) s fun t =>
       ResetBegun 6 t) ∧
  (∀ (s : State) (ms : Nat),
     s.dev = 6 ∧ 1000 ≤ ms →
     Completes (.shipExit ms) s fun t =>
       ResetBegun 7 t ∧ t.f LVP.STATUS.BSW = 1) ∧
  (∀ (s : State) (at_ : Nat),
     s.awake = true → s.hid.lvp.longOpen = some at_ ∧ at_ + s.f LVP.BTN.BSW_OFF_MS ≤ s.ms →
     Completes (.longPressReopen) s fun t =>
       ResetBegun 5 t ∧ t.f LVP.STATUS.BSW = 1)

/-- The boot (R462 to R464, R475): what RESET_RELEASE shows, and where STANDBY_REACHED ends. -/
def Obligations.Boot_reaches_standby : Prop :=
  (∀ (s : State) (b : BootIn),
     b.wf = true → b.resetN = true ∧ b.refOk = true ∧ b.testLow = true → s.hid.lcy.held = true →
     s.hid.lcy.resetSoon = false → (∀ m < 4, s.f (supplyOk m) = 1) → s.f SYS.STATUS.DEV_STATE = 0 →
     Completes (.resetRelease b) s fun t =>
       t.hid.lcy.held = false ∧ t.f SYS.STATUS.RESET_CAUSE = s.hid.lcy.cause % 256 ∧
       t.f SYS.STATUS.LC_STATE = s.lcState ∧ t.f SYS.BOOT.BOOTS = (s.f SYS.BOOT.BOOTS + 1) % 65536 ∧
       (∀ n < 16, n ≠ 8 → t.present n = true) ∧
       (∀ a, a / 65536 ∉ 0x02 :: 0x0D :: 0x12 :: 0x13 :: 0x16 :: ledgerPages → t.rd a = s.rd a)) ∧
  (∀ (s : State) (b : BootIn),
     b.sramFails = [] ∧ b.recordsOk = true ∧ b.cd0Ok = true →
     b.resetN = true ∧ b.refOk = true ∧ b.testLow = true ∧ s.hid.lcy.coreLost = false → s.hid.lcy.held = true →
     s.hid.lcy.resetSoon = false → (∀ m < 4, s.f (supplyOk m) = 1) → s.f SYS.STATUS.DEV_STATE = 0 →
     s.f (LCY.FW_STAT.SLOT_A 0) = 2 → s.f (LCY.FW_STAT.SLOT_B 0) = 0 → s.hid.mem.repair = [] →
     s.hid.flg.chdFailed = [] → s.rd CHD.STATUS = 0 →
     Completes (.resetRelease b) s fun t =>
       t.dev = 0 ∧ t.f SYS.STATUS.HOSTMODE = b2n b.hostmode ∧ t.f (LCY.FW_STAT.ACTIVE 0) = 0 ∧
       t.f MEM.STATUS.WIPE_OK = 1 ∧ t.f SAF.STATUS.DIAG_OK = 1 ∧
       (∀ a, a / 65536 ∉ 0x02 :: 0x0D :: 0x12 :: 0x13 :: 0x16 :: ledgerPages → t.rd a = s.rd a)) ∧
  (∀ (s : State),
     s.hid.lcy.held = false → s.dev = 0 → s.f MEM.STATUS.WIPE_PENDING = 0 → s.f MEA.REF.INT_SETTLED = 1 →
     64 ≤ s.f CMD.SEQ_AUTORUN.INDEX → s.hid.lcy.fellBack = false →
     Completes (.standbyReached) s fun t =>
       t.dev = 1 ∧ t.f (slotField 0 (s.f (LCY.FW_STAT.ACTIVE 0))) = 2 ∧
       (∀ b < 8, s.f (TRP.BANK_STAT.DEGRADED b) = 0 → t.f (TRP.BANK_STAT.ROT_ACTIVE b) = 1) ∧
       Keeps [] [0x00, 0x01, 0x04, 0x14, 0x16] s t) ∧
  (∀ (s : State),
     s.hid.lcy.held = false → s.dev = 0 → s.f MEM.STATUS.WIPE_PENDING = 0 → s.f MEA.REF.INT_SETTLED = 0 →
     Completes (.standbyReached) s fun t =>
       t.dev = 4 ∧ Counted 63 0 s t ∧ Keeps [] ledgerPages s t)

/-- Islands (R15, R28, R29), the reference (R15) and the inter-die link (R31, R32). -/
def Obligations.Clock_and_link_faults : Prop :=
  (∀ (s : State) (n : Fin 16) (pll : Bool),
     s.awake = true →
     Completes (.clkMonDeviation n pll) s fun t =>
       t.f (SYS.ISLAND.STATE n) = 0 ∧
       (if pll then t.f (SYS.ISLAND.PLL_LOST n) = 1 ∧ t.f (SYS.ISLAND.PLL_LOCK n) = 0 else t.f (SYS.ISLAND.CLK_MON_ERR
         n) = 1) ∧ Counted 0 n s t ∧ Keeps [] ledgerPages s t) ∧
  (∀ (s : State),
     s.awake = true →
     Completes (.referenceLoss) s fun t =>
       (∀ n < 16, t.f (SYS.ISLAND.PLL_LOST n) = 1 ∧ t.f (SYS.ISLAND.PLL_LOCK n) = 0 ∧ t.f (SYS.ISLAND.STATE n) = s.f
         (SYS.ISLAND.STATE n)) ∧ (∀ g < 32, s.forcible g = true → t.gst g = .safe) ∧
       (s.dev = 1 ∨ s.dev = 2 ∨ s.dev = 3 ∨ s.dev = 5 → t.dev = 4) ∧ Keeps [] ledgerPages s t) ∧
  (∀ (s : State),
     s.awake = true →
     Completes (.dieLinkLost) s fun t =>
       t.f SYS.LINK.LINK_LOST = 1 ∧ Bumped SYS.LINK.LOSS_COUNT s t ∧ Counted 2 0 s t ∧
       (∀ g < 32, s.forcible g = true → t.gst g = .safe) ∧ Keeps [] ledgerPages s t) ∧
  (∀ (s : State) (n : Fin 16) (regsOk : Bool),
     s.awake = true → s.quiet = true → s.f (SYS.ISLAND.STATE n) = 1 ∧ s.hid.lcy.refLost = false →
     Completes (.islandPresent n regsOk) s fun t =>
       t.f (SYS.ISLAND.STATE n) = 2 ∧ t.f (SYS.ISLAND.PLL_LOCK n) = 1 ∧ Keeps [SYS.ISLAND n] eventPages s t)

/-- Device states (R466, R467) and derating (R477). -/
def Obligations.Device_states_follow_groups : Prop :=
  (∀ (s : State),
     s.awake = true → s.dev ≠ 0 →
     Completes (.deviceStateEvaluation) s fun t =>
       t.f SYS.STATUS.DEG_CAUSE = s.degCause ∧
       (t.dev = (if s.dev = 1 then (if s.allIdle then 1 else 2) else if s.dev = 2 then (if s.allIdle then 1 else if
         s.degCause = 0 then 2 else 3) else if s.dev = 3 then (if s.allIdle then 1 else if s.degCause = 0 then 2 else
         3) else s.dev)) ∧ Keeps [SYS.STATUS] eventPages s t) ∧
  (∀ (s : State) (v : Via),
     s.accepts v [(LCY.CMD, withBits (s.keepWord LCY.CMD) 31 28 1)] = true →
     Completes (.serviceEnter v) s fun t =>
       t.dev = 5 ∧ Keeps [SYS.STATUS, LCY.CMD] [0x01, 0x14] s t) ∧
  (∀ (s : State) (v : Via),
     s.accepts v [(LCY.CMD, withBits (s.keepWord LCY.CMD) 31 28 2)] = true →
     Completes (.serviceExit v) s fun t =>
       t.dev = 1 ∧ Keeps [SYS.STATUS, LCY.CMD] [0x01, 0x14] s t) ∧
  (∀ (s : State) (tCase : Int) (hot : Bool),
     s.awake = true → s.dev ≠ 0 →
     Completes (.thermalDerating tCase hot) s fun t =>
       t.f LCY.THERM.T_CASE = codeOf 12 (clampI (-2048) 2047 tCase) ∧ (1200 ≤ tCase → t.f LCY.THERM.STEP = 2) ∧
       (1170 ≤ tCase → tCase < 1200 → t.f LCY.THERM.STEP = (if s.f LCY.THERM.STEP = 2 then 2 else 1)) ∧
       (1150 ≤ tCase → tCase < 1170 → t.f LCY.THERM.STEP = 1) ∧
       (1120 ≤ tCase → tCase < 1150 → t.f LCY.THERM.STEP = (if s.f LCY.THERM.STEP = 0 then 0 else 1)) ∧
       (tCase < 1120 → t.f LCY.THERM.STEP = 0) ∧ ((1250 ≤ tCase ∨ hot = true) → Counted 220 0 s t) ∧
       Keeps [] [0x16, 0x00, 0x01, 0x03, 0x04, 0x05, 0x06, 0x09, 0x0C, 0x10, 0x11, 0x14] s t)

/-- Chords (R415 to R421) and memories (R424, R434, R435). -/
def Obligations.Chords_and_memory : Prop :=
  (∀ (s : State) (n : Fin 3) (test : Bool),
     s.awake = true → s.quiet = true → (s.chd n = 0 ∨ s.chd n = 5) → s.chd 0 = 0 ∧ s.chd 1 ≠ 2 ∧ s.chd 2 ≠ 2 →
     Completes (.chdLockstep n test) s fun t =>
       Bumped (CHD.CNT.MISMATCHES n) s t ∧ Counted 180 n s t ∧
       (t.chd n = (if t.lasting 180 n && !s.lasting 180 n then 4 else 1)) ∧ Keeps [] (0x12 :: ledgerPages) s t) ∧
  (∀ (s : State) (n : Fin 3) (ok : Bool) (time : Nat) (test : Bool),
     s.awake = true → s.quiet = true → s.chd n = 1 → ok = true ∧ time ≤ 3000 →
     Completes (.chordRestart n ok time test) s fun t =>
       t.chd n = s.chdResumed n ∧ Bumped (CHD.CNT.RESTARTS n) s t ∧
       t.f (CHD.CKPT.RESTART_MAX n) = max time (s.f (CHD.CKPT.RESTART_MAX n)) ∧
       Keeps [CHD.STATUS, CHD.CNT n, CHD.CKPT n] [0x01, 0x14] s t) ∧
  (∀ (s : State) (n : Fin 3) (ok : Bool) (time : Nat) (test : Bool),
     s.awake = true → s.quiet = true → s.chd n = 1 → (ok = false ∨ 3000 < time) → (∀ m < 3, s.chd m ≠ 2) →
     Completes (.chordRestart n ok time test) s fun t =>
       t.chd n = 4 ∧ Counted 181 n s t ∧ Keeps [] (0x12 :: ledgerPages) s t) ∧
  (∀ (s : State) (n : Fin 3) (test : Bool),
     s.awake = true → s.quiet = true → (s.chd n = 0 ∨ s.chd n = 5) →
     s.chd 1 ≠ 2 ∧ s.chd 2 ≠ 2 ∧ s.chd 1 ≠ 3 ∧ s.chd 2 ≠ 3 →
     Completes (.checkpoint n test) s fun t =>
       t.f (CHD.CKPT.CKPT_COUNT n) = (s.f (CHD.CKPT.CKPT_COUNT n) + 1) % 65536 ∧
       (n ≠ 0 → s.chd n = 0 → (s.chord n).toSplit = true → s.chd (otherChd n) = 0 → t.chd n = 3 ∧ t.chd (otherChd n) =
         5) ∧ Keeps [CHD.STATUS, CHD.CKPT n] eventPages s t) ∧
  (∀ (s : State) (n : Fin 3),
     s.awake = true → s.quiet = true → s.chd n = 2 → (s.chord n).joining = true ∧ (s.chord n).joinAt + 100 ≤ s.ms →
     (s.hid.mem.scrub.map (fun x => x.chord) = some (some n.val)) →
     Completes (.joinGraceExpiry n) s fun t =>
       t.hid.mem.scrub = none ∧ t.f MEM.STATUS.SCRUB_ACTIVE = 0 ∧ t.chd n = 2 ∧ Keeps [MEM.STATUS] eventPages s t) ∧
  (∀ (s : State) (a : Fin 16777216),
     s.awake = true → s.present 11 = true →
     Completes (.sramPatrol [(a, true)]) s fun t =>
       Bumped MEM.SRAM.UNCORR s t ∧ Counted 190 0 s t ∧ Keeps [] (0x13 :: ledgerPages) s t) ∧
  (∀ (s : State) (a : Fin 16777216),
     s.awake = true → s.present 11 = true →
     Completes (.sramPatrol [(a, false)]) s fun t =>
       Bumped MEM.SRAM.CORR s t ∧ (a.val / 8) ∈ t.hid.mem.words ∧ Keeps [MEM.SRAM] [] s t) ∧
  (∀ (s : State) (x : MergeSlot),
     s.awake = true → s.present 11 = true → s.mergeDue = some x ∧ min (x.last + 1000) (x.first + 2000) ≤ s.hid.now →
     s.hid.mem.merge.length ≤ 8 →
     Completes (.mergeWriteback) s fun t =>
       (x ∈ s.hid.mem.merge ∧ t.hid.mem.merge = s.hid.mem.merge.filter fun y => y.page != x.page) ∧
       t.f MEM.STATUS.MERGE_USED = t.hid.mem.merge.length ∧
       Keeps [] [0x13, 0x00, 0x01, 0x03, 0x04, 0x05, 0x06, 0x09, 0x0C, 0x10, 0x11, 0x14] s t) ∧
  (∀ (s : State) (finds : List PageFind),
     finds.all PageFind.wf = true → s.awake = true → s.present 11 = true → s.quiet = true →
     ((s.hid.mem.scrub.any fun x => x.read == x.count) = true) →
     Completes (.scrubComplete finds) s fun t =>
       t.hid.mem.scrub = none ∧ t.f MEM.STATUS.SCRUB_ACTIVE = 0 ∧ Keeps [] (0x13 :: ledgerPages) s t)

/-- Firmware slots (R471 to R474), life-cycle transitions (R438, R469), the metrology key (R340). Whether a signature
verifies is a free value. -/
def Obligations.Firmware_and_life_cycle_end : Prop :=
  (∀ (s : State) (k : Fin 2) (u : FwUpd) (sig : List Byte),
     s.awake = true → s.quiet = true → sget? s.hid.lcy.upd k = some u → u.sig = some sig → u.slot < 2 →
     sha256 ((s.slot k u.slot).image (hdrN u.header 12 4)) ≠ (u.header.drop 16).take 32 →
     Completes (.fwVerifyComplete k) s fun t =>
       t.f (slotField k u.slot) = 4 ∧ sget? t.hid.lcy.upd k = none ∧ Keeps [LCY.FW_STAT k] eventPages s t) ∧
  (∀ (s : State) (k : Fin 2) (u : FwUpd) (sig : List Byte),
     s.awake = true → s.quiet = true → sget? s.hid.lcy.upd k = some u → u.sig = some sig → u.slot < 2 →
     u.live = false → sha256 ((s.slot k u.slot).image (hdrN u.header 12 4)) = (u.header.drop 16).take 32 →
     Completes (.fwVerifyComplete k) s fun t =>
       (t.f (slotField k u.slot) = (if Config.ecdsaVerify k (sha256 u.header) sig then (if k = 0 then 3 else 2) else
         4)) ∧ sget? t.hid.lcy.upd k = none ∧
       (k = 1 → Config.ecdsaVerify k (sha256 u.header) sig = true → t.f (LCY.FW_STAT.ACTIVE k) = u.slot) ∧
       Keeps [] (0x16 :: eventPages) s t) ∧
  (∀ (s : State) (i : Nat),
     s.awake = true → s.quiet = true → s.hid.lcy.live = some i → i < 2 → s.liveDenied (s.slot 0 i).header = false →
     s.chd 1 ≠ 1 ∧ s.chd 2 ≠ 1 ∧ s.present 13 = true ∧ s.present 14 = true →
     Completes (.liveUpdate) s fun t =>
       t.f (LCY.FW_STAT.ACTIVE 0) = i ∧ t.f (slotField 0 i) = 2 ∧ t.hid.lcy.live = none ∧
       t.present 13 = true ∧ t.present 14 = true ∧ Keeps [] (0x12 :: 0x16 :: ledgerPages) s t) ∧
  (∀ (s : State) (k : Fin 2) (u : FwUpd),
     s.awake = true → s.quiet = true → sget? s.hid.lcy.upd k = some u → u.sig = none ∧ u.since + 10000000 ≤ s.hid.now →
     Completes (.fwUpdateTimeout k) s fun t =>
       sget? t.hid.lcy.upd k = none ∧ t.que = s.que ∧ Keeps [] [] s t) ∧
  (∀ (s : State) (target session transport : Nat),
     s.awake = true → s.quiet = true → s.hid.lcy.trans = some (target, session, transport) →
     s.f MEM.STATUS.WIPE_PENDING = 1 → target < 5 →
     Completes (.regionWipeComplete none) s fun t =>
       t.lcState = target ∧ t.f LCY.STATE.TRANSITIONS = min (s.f LCY.STATE.TRANSITIONS + 1) 65535 ∧
       t.f SYS.STATUS.LC_STATE = target ∧ t.f SYS.BOOT.BOOTS = 0 ∧ t.f MEM.STATUS.WIPE_PENDING = 0 ∧
       t.hid.lcy.trans = none ∧
       (∀ a, a / 65536 ∉ 0x02 :: 0x08 :: 0x0B :: 0x0D :: 0x0F :: 0x13 :: 0x16 :: ledgerPages → t.rd a = s.rd a)) ∧
  (∀ (s : State) (page : Fin 32768) (x : Nat × Nat × Nat),
     s.awake = true → s.quiet = true → s.hid.lcy.trans = some x →
     s.f MEM.STATUS.WIPE_PENDING = 1 ∧ (wipedRegions s.lcState x.1).contains (regionOf page) = true →
     Completes (.regionWipeComplete (some page)) s fun t =>
       t.lcState = s.lcState ∧ t.f MEM.STATUS.WIPE_PENDING = 0 ∧ t.hid.lcy.trans = none ∧ Counted 196 0 s t ∧
       (∀ a, a / 65536 ∉ 0x02 :: 0x08 :: 0x0B :: 0x0D :: 0x0F :: 0x13 :: 0x16 :: ledgerPages → t.rd a = s.rd a)) ∧
  (∀ (s : State),
     s.awake = true → s.present 8 = true → s.hid.mtr.key = none → s.lcState = 1 → s.f MTR.STATUS.REG_FAULT = 0 →
     s.f MTR.LAST.RSEQ - s.f MTR.ACK.RSEQ < 16384 →
     Completes (.keyGenerated) s fun t =>
       t.hid.mtr.key = some s.hid.fresh ∧ t.f MTR.STATUS.KEY_VALID = 1 ∧
       t.f MTR.LAST.RSEQ = (s.f MTR.LAST.RSEQ + 1) % 4294967296 ∧
       t.hid.mtr.ring.length = min 16384 (s.hid.mtr.ring.length + 1) ∧ Keeps [] [0x01, 0x0D, 0x14] s t)

/-- Timebases (R88 to R90), reload (R102, R105), the commit deadline (R107) and trigger compares (R108, R110). -/
def Obligations.Timebases : Prop :=
  (∀ (s : State) (v : Via) (mask : BitVec 16),
     s.accepts v [(PLS.TB_START, mask.setWidth 32)] = true →
     Completes (.tbStart v mask) s fun t =>
       (∀ k < 16, bit mask.toNat k = true → t.f (PLS.TB_CFG.RUN k) = 1) ∧
       (∀ k < 16, bit mask.toNat k = true → s.f (PLS.TB_CFG.RUN k) = 0 → s.tbMode k = 0 → t.f (PLS.TB_COUNT.COUNT k) =
         0 ∧ t.f (PLS.TB_COUNT.WINDOW k) = 0) ∧
       (∀ k < 16, bit mask.toNat k = false → t.rd (PLS.TB_CFG k) = s.rd (PLS.TB_CFG k)) ∧
       Keeps [] [0x01, 0x03, 0x14] s t) ∧
  (∀ (s : State) (v : Via) (k : Fin 16),
     s.accepts v [(PLS.TB_CFG k, withBits (s.keepWord (PLS.TB_CFG k)) 31 31 0)] = true → s.f (PLS.TB_CFG.RUN k) = 1 →
     Completes (.tbStop v k) s fun t =>
       t.f (PLS.TB_CFG.RUN k) = 0 ∧ t.f (PLS.TB_COUNT.COUNT k) = 0 ∧ t.f (PLS.TB_COUNT.WINDOW k) = 0 ∧
       Keeps [PLS.TB_CFG k, PLS.TB_COUNT k, LAT.LOAD] [0x01, 0x14] s t) ∧
  (∀ (s : State) (k : Fin 16) (pos : Fin 16777216),
     s.awake = true → s.present 0 = true → s.tbRuns k = true → s.tbMode k = 2 ∧ pos.val + 1 < s.tbP k →
     Completes (.restartCut k pos) s fun t =>
       t.f (PLS.TB_COUNT.CUTS k) = min (s.f (PLS.TB_COUNT.CUTS k) + 1) 127 ∧ t.f (PLS.TB_COUNT.COUNT k) = 0 ∧
       Keeps [LAT.LOAD] [0x03] s t) ∧
  (∀ (s : State) (k : Fin 16),
     s.awake = true → s.present 0 = true → s.quiet = true → s.tbRuns k = true → s.f (PLS.TB_CFG.RELOAD_DIV k) = 0 →
     s.f (PLS.TB_CFG.DOUBLE k) = 0 → s.hid.trp.hand = none →
     Completes (.reload k) s fun t =>
       t.f (PLS.TB_COUNT.COUNT k) = 0 ∧ t.f (PLS.TB_COUNT.WINDOW k) = 0 ∧
       (∀ c < 144, s.chGroup c < 32 → s.chTb c = k → ((s.chan c).rel.all fun x => t.rd (PLS.RISE_ACT c) == x.1 &&&
         0x3FFFFFFF && t.rd (PLS.FALL_ACT c) == x.2 &&& 0x3FFFFFFF) = true) ∧
       (∀ g < 32, s.gst g = .armed → (∃ c < 144, s.chGroup c = g ∧ s.chTb c = k ∧ (s.chan c).rel.isSome = true) →
         t.gst g = .running) ∧ Keeps [] (0x07 :: ledgerPages) s t) ∧
  (∀ (s : State) (k : Fin 16),
     s.awake = true → s.present 0 = true → s.tbRuns k = true →
     Completes (.commitDeadline k) s fun t =>
       (t.tbase k).late = true ∧
       (∀ g ∈ s.tbGroups k, s.gst g = .running → s.loopOwned g = true → g ∉ s.hid.pls.committed → Bumped
         (PLS.GRP_STAT.LATE_COMPUTE g) s t) ∧ Keeps [] ledgerPages s t) ∧
  (∀ (s : State) (k : Fin 16) (j : Fin 4),
     s.awake = true → s.present 0 = true → s.tbRuns k = true → s.f (PLS.TRG_CFG.EN k j) = 1 →
     s.f (PLS.TRG_CFG.MODE k j) = 0 →
     (s.tbase k).pos ≤ (s.trg (4 * k + j)).posAct ∧ s.winStart k ≤ (s.trg (4 * k + j)).posAct ∧ (s.trg (4 * k +
       j)).posAct < s.winEnd k → (s.trg (4 * k + j)).now.fired = false →
     Completes (.triggerCompare k j) s fun t =>
       t.f (PLS.TB_COUNT.COUNT k) = (s.trg (4 * k + j)).posAct % 16777216 ∧
       (t.tbase k).pos = (s.trg (4 * k + j)).posAct ∧
       (t.trg (4 * k + j)).now.fired = true ∧ (t.trg (4 * k + j)).last = .valid ∧
       Keeps [PLS.TB_COUNT k, SYS.XFER 7] [] s t) ∧
  (∀ (s : State) (k : Fin 16) (j : Fin 4) (n : Nat),
     s.awake = true → s.present 0 = true → s.tbRuns k = true → s.f (PLS.TRG_CFG.EN k j) = 1 →
     s.f (PLS.TRG_CFG.MODE k j) ≠ 0 → s.f (PLS.TB_CFG.DOUBLE k) = 0 → (s.trg (4 * k + j)).now.place = .inWindow n →
     (s.trg (4 * k + j)).now.fired = false →
     Completes (.triggerCompare k j) s fun t =>
       (t.trg (4 * k + j)).now.fired = true ∧ t.f (PLS.TB_COUNT.WINDOW k) = s.f (PLS.TB_COUNT.WINDOW k) ∧
       Keeps [PLS.TB_COUNT k] [] s t)

/-- Edges (R92), cycle-by-cycle cells (R124), bootstrap supplies (R141, R142, R144). -/
def Obligations.Edges_and_pulses : Prop :=
  (∀ (s : State) (k : Fin 16) (pos : Fin 16777216) (c : Fin 96),
     s.awake = true → s.present 0 = true → s.tbRuns k = true → s.winStart k ≤ pos ∧ pos < s.winEnd k →
     (s.tbase k).pos ≤ pos → s.hid.trp.hand = none → s.chGroup c < 32 ∧ s.chTb c = k → s.followed c = true →
     (s.chan c).gen = false ∧ (s.chan c).bstOff = false ∧ (s.chan c).moved = none ∧ (s.chan c).genOff = none →
     (s.chan c).refresh = [] ∧ (s.chan c).due = [] ∧ (s.chan c).sink = false → (s.chan c).skip = none →
     s.rd (PLS.RISE_ACT c) ≠ never ∧ coarse (s.rd (PLS.RISE_ACT c)) = pos → s.rd (PLS.FALL_ACT c) = never →
     s.setsOf c = [] → s.cbcCells c = [] →
     Completes (.edgeCompare k pos) s fun t =>
       (t.chan c).on = true ∧ (t.chan c).gen = true ∧ t.f (PLS.TB_COUNT.COUNT k) = pos ∧
       Keeps [PLS.TB_COUNT k] [0x04] s t) ∧
  (∀ (s : State) (k : Fin 16) (pos : Fin 16777216) (c : Fin 96),
     s.awake = true → s.present 0 = true → s.tbRuns k = true → s.winStart k ≤ pos ∧ pos < s.winEnd k →
     (s.tbase k).pos ≤ pos → s.hid.trp.hand = none → s.chGroup c < 32 ∧ s.chTb c = k → s.followed c = true →
     (s.chan c).gen = true ∧ (s.chan c).on = true ∧ (s.chan c).moved = none →
     s.rd (PLS.FALL_ACT c) ≠ never ∧ coarse (s.rd (PLS.FALL_ACT c)) = pos → s.rd (PLS.RISE_ACT c) = never →
     (s.chan c).refresh = [] ∧ (s.chan c).due = [] →
     Completes (.edgeCompare k pos) s fun t =>
       (t.chan c).on = false ∧ (t.chan c).gen = false ∧ t.f (PLS.TB_COUNT.COUNT k) = pos ∧
       Keeps [PLS.TB_COUNT k] [0x04] s t) ∧
  (∀ (s : State) (c : Fin 72) (at_ : Nat),
     s.awake = true → c.val % 9 ≠ 8 → s.cellEn c = true → s.cellRoute c = 3 → s.cellTarget c % 256 < 144 →
     (s.chan (s.cellTarget c % 256)).on = true → s.active (s.chGroup (s.cellTarget c % 256)) = true →
     s.hid.pls.forced.contains (s.chGroup (s.cellTarget c % 256)) = false → s.f (TRP.CELL_STAT.BLANKED c) = 0 →
     s.rampThr c at_ * 4000 < s.cellOut c * 256 →
     Completes (.cbcEarlyEnd c at_) s fun t =>
       (t.chan (s.cellTarget c % 256)).on = false ∧
       t.f (TRP.CELL_STAT.CBC_CYCLES c) = (s.f (TRP.CELL_STAT.CBC_CYCLES c) + 1) % 65536 ∧
       Keeps [TRP.CELL_STAT c] [] s t) ∧
  (∀ (s : State) (p : Fin 24) (c : Nat),
     s.awake = true → s.present 0 = true → s.f (GDR.DRV_CFG.BOOT_EN p) = 1 →
     s.ofCell (96 + 2 * p) = some c ∧ s.gst (s.chGroup c) = .running →
     s.f (GDR.DRV_CFG.REFRESH_INT p) ≤ mget 0 s.hid.trp.starved p →
     Completes (.bootstrapRefresh p) s fun t =>
       t.f (GDR.BST_STAT.REFRESHES p) = (s.f (GDR.BST_STAT.REFRESHES p) + 1) % 2 ^ ((GDR.BST_STAT.REFRESHES p).hi + 1
         - (GDR.BST_STAT.REFRESHES p).lo) ∧ mget 0 t.hid.trp.starved p.val = 0 ∧ Keeps [GDR.BST_STAT p] [] s t) ∧
  (∀ (s : State) (p : Fin 24) (ok : Bool) (c : Nat),
     s.awake = true → s.ofCell (96 + 2 * p) = some c →
     Completes (.bstUv p ok) s fun t =>
       t.f (GDR.BST_STAT.BST_OK p) = b2n ok ∧
       (ok = false → s.f (GDR.DRV_CFG.BOOT_EN p) = 1 → (s.chan c).on = true → t.stopped (s.chGroup c) = false →
         (t.chan c).on = false) ∧
       (ok = false → s.f (GDR.DRV_CFG.BOOT_EN p) = 1 → (s.chan c).on = true → (t.chan c).bstOff = true ∧ t.f
         (GDR.BST_STAT.UV_LATCH p) = 1 ∧ Bumped (GDR.BST_STAT.UV_COUNT p) s t ∧ Counted 50 p s t) ∧
       Keeps [] ledgerPages s t)

/-- Delay lines (R96, R98) and duplicated registers (R112, R121, R147). -/
def Obligations.Delay_lines_and_duplicates : Prop :=
  (∀ (s : State) (b : Fin 9) (e : Nat),
     s.awake = true → s.present 0 = true → 80 ≤ e ∧ e ≤ 150 →
     (((s.cal b).prev.all fun q => decide (e ≤ q + 4) && decide (q ≤ e + 4)) = true) →
     Completes (.delayCalibration b e) s fun t =>
       t.f (PLS.CAL.CAL_VALID b) = 1 ∧ t.f (PLS.CAL.ELEMENTS b) = e ∧ t.f (PLS.CAL.AGE b) = 0 ∧
       (100 ≤ (s.cal b).good + 1 → t.f (PLS.CAL.COARSE_ONLY b) = 0) ∧ Keeps [PLS.CAL b] [] s t) ∧
  (∀ (s : State) (b : Fin 9) (e : Nat),
     s.awake = true → s.present 0 = true → (e < 80 ∨ 150 < e) →
     Completes (.delayCalibration b e) s fun t =>
       t.f (PLS.CAL.ELEMENTS b) = s.f (PLS.CAL.ELEMENTS b) ∧ Bumped (PLS.CAL.FAIL b) s t ∧
       Bumped (PLS.CAL.AGE b) s t ∧ Counted 31 b s t ∧ Keeps [] ledgerPages s t) ∧
  (∀ (s : State) (i : Fin 48) (g : Fin 32),
     s.awake = true → s.present 0 = true → s.delayOwners (.deadTime i) = [g.val] → s.active g = true →
     Completes (.delayRegMismatch (.deadTime i)) s fun t =>
       t.f PLS.DLY_ERR.MISMATCH = 1 ∧ t.f PLS.DLY_ERR.KIND = 0 ∧ t.f PLS.DLY_ERR.INDEX = i ∧
       Bumped PLS.DLY_ERR.COUNT s t ∧ g.val ∈ t.hid.pls.forced ∧ Counted 32 g s t ∧ Keeps [] ledgerPages s t) ∧
  (∀ (s : State) (c : Fin 72),
     s.awake = true → s.present 0 = true →
     Completes (.delayRegMismatch (.blanking c)) s fun t =>
       t.f PLS.DLY_ERR.MISMATCH = 1 ∧ t.f PLS.DLY_ERR.KIND = 1 ∧ t.f PLS.DLY_ERR.INDEX = c ∧
       Bumped PLS.DLY_ERR.COUNT s t ∧ Keeps [] ledgerPages s t) ∧
  (∀ (s : State) (b : Fin 9),
     s.awake = true → s.present 0 = true →
     Completes (.delayRegMismatch (.tapCodes b)) s fun t =>
       t.f PLS.DLY_ERR.MISMATCH = 1 ∧ t.f PLS.DLY_ERR.KIND = 2 ∧ t.f PLS.DLY_ERR.INDEX = b ∧
       Bumped PLS.DLY_ERR.COUNT s t ∧ Keeps [] ledgerPages s t) ∧
  (∀ (s : State) (p : Fin 24),
     s.awake = true →
     Completes (.scbMismatch p) s fun t =>
       t.f GDR.STATUS.SCB_MISMATCH = 1 ∧ t.f GDR.STATUS.SCB_PAIR = p ∧ Keeps [] ledgerPages s t)

/-- Comparator cells (R117 to R123), trips (R127 to R129), thresholds (R120) and latches (R130). -/
def Obligations.Comparator_cells_trip : Prop :=
  (∀ (s : State) (c : Fin 72) (vp vn : Int) (out : Int),
     s.awake = true → c.val % 9 ≠ 8 → s.cellEn c = true → s.cellMode c = 0 →
     (out = clampI 0 4092000 (if (s.tb 0x40 (20 * c + 1)).toNat = 0xFF then s.cellGain c * vp else 2048000 +
       s.cellGain c * (vp - vn))) →
     Completes (.cellTrip c vp vn) s fun t =>
       ((s.cellHi c : Int) * 4000 < out → t.f (TRP.CELL_STAT.IN_TRIP c) = 1 ∧ t.f (TRP.CELL_STAT.OUT_HI c) = 1) ∧
       (out + s.cellHyst c * 4000 < (s.cellHi c : Int) * 4000 → t.f (TRP.CELL_STAT.IN_TRIP c) = 0 ∧ t.f
         (TRP.CELL_STAT.OUT_HI c) = 0) ∧ (t.cell c).vp = vp ∧ (t.cell c).vn = vn ∧ Keeps [] ledgerPages s t) ∧
  (∀ (s : State) (c : Fin 72) (vp vn : Int) (g : Fin 32),
     s.awake = true → c.val % 9 ≠ 8 → s.cellEn c = true → s.cellMode c = 0 →
     ((s.cellHi c : Int) * 4000 < clampI 0 4092000 (if (s.tb 0x40 (20 * c + 1)).toNat = 0xFF then s.cellGain c * vp
       else 2048000 + s.cellGain c * (vp - vn))) → s.f (TRP.CELL_STAT.IN_TRIP c) = 0 →
     s.f (TRP.CELL_STAT.BLANKED c) = 0 → s.cellRoute c = 1 → g.val ∈ s.cellSel c → s.active g = true →
     Completes (.cellTrip c vp vn) s fun t =>
       Bumped (TRP.CELL_STAT.TRIPS c) s t ∧ t.stopped g = true ∧
       (s.tripsAlone = true → Tripped g (s.cellAction c) c s t) ∧ Keeps [] ledgerPages s t) ∧
  (∀ (s : State) (c : Fin 72) (n : Nat) (g : Fin 32),
     s.awake = true → s.present 0 = true → c.val % 9 ≠ 8 → s.cellEn c = true → s.cellRoute c = 2 →
     s.f (TRP.CELL_STAT.IN_TRIP c) = 1 → s.f (TRP.CELL_STAT.BLANKED c) = 0 →
     0 < n ∧ s.filtLen c ≤ (s.cell c).count + n → g.val ∈ s.cellSel c → s.active g = true →
     Completes (.filteredTrip c n) s fun t =>
       t.stopped g = true ∧ (s.tripsAlone = true → Tripped g (s.cellAction c) c s t) ∧ Keeps [] ledgerPages s t) ∧
  (∀ (s : State) (c : Fin 72) (g : Fin 32),
     s.awake = true → s.f (TRP.CELL_STAT.BLANKED c) = 1 → s.f (TRP.CELL_STAT.IN_TRIP c) = 1 → s.cellEn c = true →
     (s.cell c).acted = false → s.cellRoute c = 1 → g.val ∈ s.cellSel c → s.active g = true →
     Completes (.blankWindowEnd c) s fun t =>
       t.f (TRP.CELL_STAT.BLANKED c) = 0 ∧ Bumped (TRP.CELL_STAT.TRIPS c) s t ∧ t.stopped g = true ∧
       (s.tripsAlone = true → Tripped g (s.cellAction c) c s t) ∧ Keeps [] ledgerPages s t) ∧
  (∀ (s : State) (v : Via) (c : Fin 72) (w : Word),
     s.accepts v [(TRP.THR c, w)] = true →
     Completes (.thresholdWrite v c w) s fun t =>
       t.rd (TRP.THR c) = w ∧ t.cellHi c = bitsOf w 25 16 ∧ t.cellLo c = bitsOf w 9 0 ∧
       (∀ a, a ≠ SAF.CHANGE → a ≠ SAF.CFG_CRC → a ≠ TRP.THR c → a ≠ TRP.CELL_STAT c → a / 65536 ∉ ledgerPages → t.rd a
         = s.rd a)) ∧
  (∀ (s : State) (v : Via) (g : Fin 32),
     s.accepts v [(TRP.GRP_TRIP g, withBits (s.keepWord (TRP.GRP_TRIP g)) 31 31 1)] = true →
     Completes (.tripLatchClear v g) s fun t =>
       t.f (TRP.GRP_TRIP.LATCH g) = 0 ∧ t.rd (TRP.GRP_TRIP g) = s.rd (TRP.GRP_TRIP g) &&& 0x7FFFFFFF ∧
       Keeps [TRP.GRP_TRIP g] [0x01, 0x14] s t)

/-- The rotation self-test (R132 to R136) and commanded self-tests (R137, R155, R156), over the model's comparison of
a measurement with the limits of R133 and R155. -/
def Obligations.Rotation_and_self_tests : Prop :=
  (∀ (s : State) (b : Fin 8) (r : SlotResult),
     s.awake = true → s.present 7 = true → s.f (TRP.BANK_STAT.ROT_ACTIVE b) = 1 → (s.bank b).testing = false →
     ({} : TestCfg).fails r.spare = none ∧ (s.testCfg (9 * b.val + (s.bank b).slot)).fails r.pos = none →
     Completes (.rotationSlot b r) s fun t =>
       ((t.bank b).slot = (if (s.bank b).slot = 7 then 0 else (s.bank b).slot + 1)) ∧
       (t.f (TRP.BANK_STAT.ROTATIONS b) = (if (s.bank b).slot = 7 then (s.f (TRP.BANK_STAT.ROTATIONS b) + 1) % 256
         else s.f (TRP.BANK_STAT.ROTATIONS b))) ∧
       (Keeps (TRP.BANK_STAT b :: (List.range 9).map fun k => TRP.CELL_STAT (9 * b + k)) [] s t)) ∧
  (∀ (s : State) (b : Fin 8) (r : SlotResult),
     (({} : TestCfg).fails r.spare ≠ none ∨ (s.testCfg (9 * b.val + (s.bank b).slot)).fails r.pos ≠ none) →
     s.awake = true → s.present 7 = true → s.f (TRP.BANK_STAT.ROT_ACTIVE b) = 1 → (s.bank b).testing = false →
     (s.bank b).slot < 8 →
     Completes (.rotationSlot b r) s fun t =>
       (t.f (TRP.BANK_STAT.FAILED b) = setBit (s.f (TRP.BANK_STAT.FAILED b)) (if (({} : TestCfg).fails r.spare).isSome
         then 8 else (s.bank b).slot)) ∧ t.f (TRP.BANK_STAT.DEGRADED b) = 1 ∧ t.f (TRP.BANK_STAT.ROT_ACTIVE b) = 0 ∧
       Counted 40 b s t ∧ Keeps [] ledgerPages s t) ∧
  (∀ (s : State) (b : Fin 8) (x : CellTest),
     s.awake = true → s.present 7 = true → s.f (TRP.BANK_STAT.ROT_ACTIVE b) = 1 → (s.bank b).testing = false →
     Completes (.cmpMirror b x) s fun t =>
       Bumped (TRP.BANK_STAT.MIRROR b) s t ∧ Counted 41 b s t ∧
       (t.lasting 41 b = true → s.lasting 41 b = false → t.f (TRP.BANK_STAT.DEGRADED b) = 1) ∧
       Keeps [] ledgerPages s t) ∧
  (∀ (s : State) (r : TestResult) (b : Fin 8),
     r.wf = true ∧ r.test = 0x0400 + b.val → s.awake = true → s.quiet = true → s.findDue 0x50 (0x0400 + b) ≠ none →
     s.f (TRP.BANK_STAT.FAILED b) = 0 ∧ (s.bank b).serves = none →
     (((List.range 9).all fun k => (r.cells[k]?).all fun x => ((if k < 8 then s.testCfg (9 * b.val + k) else {}).fails
       x).isNone) = true) →
     Completes (.selftestCompletion r) s fun t =>
       t.f (TRP.BANK_STAT.CMD_TESTED b) = 1 ∧ t.f (TRP.BANK_STAT.FAILED b) = 0 ∧ (t.bank b).testing = false ∧
       Keeps [TRP.BANK_STAT b] eventPages s t) ∧
  (∀ (s : State) (r : TestResult) (g : Fin 32),
     r.wf = true ∧ r.test = 0x0500 + g.val → s.awake = true → s.quiet = true → s.findDue 0x50 (0x0500 + g) ≠ none →
     Completes (.selftestCompletion r) s fun t =>
       (∀ p < 24, bit (t.f GDR.DRV_FAILED.PAIRS) p = (bit (s.f GDR.DRV_FAILED.PAIRS) p || (s.grpPairs g).contains p &&
         (r.pairs[p]?).any fun x => !s.pairPasses p x)) ∧ Keeps [GDR.DRV_FAILED, MAP.STATUS] ledgerPages s t)

/-- Gate drive (R145, R149, R150, R152, R153). -/
def Obligations.Gate_drive_faults : Prop :=
  (∀ (s : State) (p : Fin 24) (mv at_ c : Nat),
     s.awake = true → s.f (GDR.DRV_CFG.SC_EN p) = 1 ∧ 50 * (s.f (GDR.DRV_CFG.SC_THR p) + 1) < mv →
     s.ofCell (97 + 2 * p) = some c ∧ (s.chan c).on = true ∧ (s.chan c).onAt + (9 + s.f (GDR.DRV_CFG.SC_BLANK p)) * 64
       ≤ at_ → s.hid.trp.short.contains p = false → s.active (s.chGroup c) = true →
     Completes (.drvShort p mv at_) s fun t =>
       Bumped (GDR.SC_STAT.COUNT p) s t ∧ t.stopped (s.chGroup c) = true ∧ Counted 51 p s t ∧ Keeps [] ledgerPages s t) ∧
  (∀ (s : State) (k : Fin 48) (g : Fin 32),
     s.awake = true → s.f (GDR.FLT.ACTIVE k) = 0 → g.val ∈ s.fltGroups k → s.active g = true →
     Completes (.extDrvFault k) s fun t =>
       t.f (GDR.FLT.ACTIVE k) = 1 ∧ Bumped (GDR.FLT.COUNT k) s t ∧ (s.fltGroups k = [g.val] → Counted 52 g s t) ∧
       t.stopped g = true ∧ Keeps [] ledgerPages s t) ∧
  (∀ (s : State) (k : Fin 48),
     s.awake = true → s.f (GDR.FLT.ACTIVE k) = 0 → s.fltGroups k = [] →
     Completes (.extDrvFault k) s fun t =>
       t.f (GDR.FLT.ACTIVE k) = 1 ∧ Keeps [GDR.FLT k] [] s t) ∧
  (∀ (s : State) (k : Fin 48),
     s.awake = true →
     Completes (.fltRelease k) s fun t =>
       t.f (GDR.FLT.ACTIVE k) = 0 ∧ Keeps [GDR.FLT k] [] s t) ∧
  (∀ (s : State) (r : Fin 8) (asserted : Bool),
     s.awake = true →
     Completes (.drvNotReady r asserted) s fun t =>
       t.f (GDR.RDY_CFG.READY r) = b2n asserted ∧
       (asserted = false → s.f (GDR.RDY_CFG.EN r) = 1 → s.active (s.f (GDR.RDY_CFG.GROUP r)) = true → Bumped
         (GDR.RDY_CFG.LOSSES r) s t ∧ Counted 53 (s.f (GDR.RDY_CFG.GROUP r)) s t ∧ t.stopped (s.f (GDR.RDY_CFG.GROUP
         r)) = true) ∧ Keeps [] ledgerPages s t) ∧
  (∀ (s : State),
     s.awake = true → s.f GDR.STATUS.VDRV_OK = 1 →
     Completes (.vdrvUv) s fun t =>
       t.f GDR.STATUS.VDRV_OK = 0 ∧ t.f GDR.STATUS.VDRV_UV = 1 ∧ Bumped GDR.STATUS.VDRV_COUNT s t ∧
       (∀ g < 32, s.active g = true → (∃ c ∈ s.chans g, 96 ≤ c) → t.stopped g = true) ∧ Counted 55 0 s t ∧
       Keeps [] ledgerPages s t) ∧
  (∀ (s : State),
     s.awake = true →
     Completes (.vdrvRecover) s fun t =>
       t.f GDR.STATUS.VDRV_OK = 1 ∧ Keeps [GDR.STATUS] [] s t) ∧
  (∀ (s : State) (i : Fin 48),
     s.awake = true → s.ilkEn i = true →
     Completes (.ilkDiagFail i) s fun t =>
       t.inFallback i = true ∧ (∀ j < 48, j ≠ i → t.inFallback j = s.inFallback j) ∧ Keeps [] ledgerPages s t)

/-- Runs (R165 to R167), conversions and codes (R162, R172), references (R170, R171), window events (R177), SA8's
self-check (R178, R179). -/
def Obligations.Conversions_and_references : Prop :=
  (∀ (s : State) (k : Fin 8) (m : Fin 8),
     s.awake = true → s.present 7 = true → s.quiet = true → s.f (MEA.BIND.EN k m) = 1 →
     s.f (MEA.CONV_STAT.BUSY k) = 0 → s.f (MEA.CONV_STAT.FAILED k) = 0 →
     s.hid.mea.subNext ≠ some k.val ∧ s.hid.mea.relNext ≠ some k.val →
     Completes (.sarTrigger k m) s fun t =>
       t.f (MEA.CONV_STAT.BUSY k) = 1 ∧ t.f (MEA.CONV_STAT.RUNS k) = (s.f (MEA.CONV_STAT.RUNS k) + 1) % 65536 ∧
       sget? t.hid.mea.runs k = some ⟨s.f (MEA.BIND.TRIG_SRC k m), s.f (MEA.BIND.START k m), false, (s.trg (s.f
         (MEA.BIND.TRIG_SRC k m))).last⟩ ∧
       t.f (MEA.CONV_STAT.PHYS k) = s.f (MEA.CONV_STAT.PHYS k) ∧ t.f (MEA.CONV_STAT.FAILED k) = 0 ∧ t.f
         (MEA.CONV_STAT.TRIG_OVERRUN k) = s.f (MEA.CONV_STAT.TRIG_OVERRUN k) ∧ Keeps [MEA.CONV_STAT k] [] s t) ∧
  (∀ (s : State) (k : Fin 8) (m : Fin 8),
     s.awake = true → s.present 7 = true → s.quiet = true → s.f (MEA.BIND.EN k m) = 1 → s.f (MEA.CONV_STAT.BUSY k) = 1 →
     Completes (.sarTrigger k m) s fun t =>
       t.f (MEA.CONV_STAT.BUSY k) = 1 ∧ t.f (MEA.CONV_STAT.RUNS k) = s.f (MEA.CONV_STAT.RUNS k) ∧
       Bumped (MEA.CONV_STAT.TRIG_OVERRUN k) s t ∧ t.hid.mea.runs = s.hid.mea.runs ∧ Counted 60 k s t ∧
       Keeps [MEA.CONV_STAT k] ledgerPages s t) ∧
  (∀ (s : State) (k : Fin 8) (vp vn : Int) (vref : Nat) (delayed : Bool) (check : List Nat) (e : Fin 32) (trig : Nat) (suspect : Bool),
     (⟨vp, vn, vref, delayed, .absent, check⟩ : Conversion).wf = true → s.awake = true → s.present 7 = true →
     s.f (MEA.CONV_STAT.BUSY k) = 1 → sget? s.hid.mea.runs k = some ⟨trig, e, suspect, .valid⟩ →
     bit (s.seqByte k e 2) 7 = true → s.seqByte k e 1 = 0xFF → 0 < vref ∧ 0 ≤ vp ∧ vp < 2 * vref →
     Completes (.conversionResult k ⟨vp, vn, vref, delayed, .absent, check⟩) s fun t =>
       t.f (MEA.CONV_STAT.BUSY k) = 0 ∧ t.slotVal (s.seqByte k e 3) = (vp * 65536 / (2 * vref)).toNat ∧
       sget? t.hid.mea.runs k = none ∧ t.f (MEA.CONV_STAT.RUNS k) = s.f (MEA.CONV_STAT.RUNS k) ∧
       t.hid.mea.total = s.hid.mea.total + 1 ∧ t.slotStamp (s.seqByte k e 3) = s.hid.mea.total + 1 ∧
       Keeps ([MEA.CONV_STAT k, MEA.STATUS, MEA.RESULT (s.seqByte k e 3), MEA.WIN_OUT (s.seqByte k e 3 / 32)] ++
         (List.range 7).map SYS.XFER) [] s t) ∧
  (∀ (s : State) (codes : List Nat),
     (codes.length ≤ 32 ∧ (codes.all fun c => decide (c < 65536)) = true) → s.awake = true → s.present 7 = true →
     s.sa8Free = true → s.hid.trp.rotating = true → s.hid.mea.checkList = none → s.checkPasses codes = true →
     Completes (.sarCheckSlot codes) s fun t =>
       (t.f MEA.SPARE.CHECK_SLOT = if s.f MEA.SPARE.CHECK_SLOT < 7 then s.f MEA.SPARE.CHECK_SLOT + 1 else 0) ∧
       (t.f MEA.SPARE.ROTATIONS = if s.f MEA.SPARE.CHECK_SLOT = 7 then (s.f MEA.SPARE.ROTATIONS + 1) % 256 else s.f
         MEA.SPARE.ROTATIONS) ∧
       t.f MEA.SPARE.SA8_FAILED = 0 ∧ t.f MEA.SPARE.IN_USE = 0 ∧ t.f MEA.SPARE.MISMATCHES = s.f MEA.SPARE.MISMATCHES ∧
       Keeps [MEA.SPARE] [] s t) ∧
  (∀ (s : State) (r : Fin 3),
     s.awake = true → s.present 7 = true →
     (r.val = 0 ∨ (r.val = 1 ∧ s.f MEA.REF.EXT_EN = 1) ∨ (r.val = 2 ∧ s.f MEA.REF.RATIO_EN = 1)) →
     Completes (.refSettled r) s fun t =>
       t.refSettled r = true ∧ (∀ q < 3, q ≠ r.val → t.refSettled q = s.refSettled q) ∧ Keeps [MEA.REF] [] s t) ∧
  (∀ (s : State) (r : Fin 3),
     s.awake = true → s.present 7 = true → s.refSettled r = true →
     Completes (.meaRefFault r) s fun t =>
       t.refSettled r = false ∧
       ((r.val = 0 → t.f MEA.REF.INT_FAULT = 1) ∧ (r.val = 1 → t.f MEA.REF.EXT_FAULT = 1) ∧ (r.val = 2 → t.f
         MEA.REF.RATIO_FAULT = 1)) ∧ (∀ q < 3, q ≠ r.val → t.refSettled q = s.refSettled q) ∧ Counted 63 r s t ∧
       Keeps [MEA.REF] ledgerPages s t) ∧
  (∀ (s : State),
     s.awake = true →
     Completes (.meaWindow) s fun t =>
       t.hid.mea.left = [] ∧ Keeps [] eventPages s t)

/-- Sub-windows (R182, R183, R185, R186) and the mains cycle (R184). Where a crossing is placed between two sums is
log entry 28. -/
def Obligations.Mains_and_subwindows : Prop :=
  (∀ (s : State) (sums : List Int),
     (sums.length = 16 ∧ (sums.all fun x => decide (x.natAbs < 8388608)) = true) → s.awake = true →
     s.present 7 = true → s.present 8 = true → s.hid.mea.cut = none → s.hid.mea.subIdx + 1 < subCount s.hid.mea.mains →
     Completes (.subwindowEnd sums) s fun t =>
       (∀ k < 16, t.f (MEA.PC_SUM.SUM k) = if bit s.hid.mea.pcEn k then codeOf 24 (sums.getD k 0) else 0) ∧
       (∀ k < 16, t.f (MEA.PC_SUM.SUB k) = s.hid.mea.subIdx) ∧
       t.f MEA.PC_LEN.N = (s.hid.mea.boundary (s.hid.mea.subIdx + 1) - s.hid.mea.subAt) % 65536 ∧
       t.f MEA.PC_LEN.UNLOCKED = 1 - s.f MEA.MAINS.LOCKED ∧ t.f MEA.PC_LEN.CYCLE = s.hid.mea.cycle % 32768 ∧
       t.hid.mea.xfer.length = s.hid.mea.xfer.length + 1 ∧
       t.hid.mea.subIdx = s.hid.mea.subIdx + 1 ∧ t.hid.mea.cycle = s.hid.mea.cycle ∧
       Keeps (MEA.PC_LEN :: (List.range 16).map MEA.PC_SUM) [] s t) ∧
  (∀ (s : State) (sums : List Int),
     (sums.length = 16 ∧ (sums.all fun x => decide (x.natAbs < 8388608)) = true) → s.awake = true →
     s.present 7 = true → s.present 8 = true → s.hid.mea.cut = none → s.f MEA.MAINS.LOCKED = 0 →
     subCount s.hid.mea.mains ≤ s.hid.mea.subIdx + 1 →
     Completes (.subwindowEnd sums) s fun t =>
       (∀ k < 16, t.f (MEA.PC_SUM.SUB k) = subCount s.hid.mea.mains - 1) ∧
       t.hid.mea.xfer.length = s.hid.mea.xfer.length + 1 ∧
       t.hid.mea.subIdx = 0 ∧ t.hid.mea.cycle = s.hid.mea.cycle + 1 ∧
       t.hid.mea.mains = s.rd MEA.MAINS_CFG ∧ t.hid.mea.cycP = nominalPeriod (s.rd MEA.MAINS_CFG) ∧
       (∀ k < 16, bit t.hid.mea.pcEn k = decide (s.f (MEA.PC_CFG.EN k) = 1)) ∧
       Keeps (MEA.PC_LEN :: (List.range 16).map MEA.PC_SUM) [] s t) ∧
  (∀ (s : State) (low before after : Int) (n prev t0 q : Nat),
     s.awake = true → s.present 7 = true →
     bitsOf s.hid.mea.mains 31 31 = 1 ∧ bit s.hid.mea.pcEn (bitsOf s.hid.mea.mains 27 24) = true →
     low ≤ -8 ∧ before < 0 ∧ 0 ≤ after → s.f MEA.MAINS.LOCKED = 0 → s.hid.mea.crossAt = some t0 →
     q = (16 * ((s.hid.mea.subAt + n : Nat) : Int) - 512 - 16 * after / (after - before)).toNat - t0 →
     984640 ≤ q ∧ q ≤ 1422208 → s.hid.mea.prevP = some prev ∧ q * 100 ≤ prev * 101 ∧ prev * 99 ≤ q * 100 →
     3 ≤ s.hid.mea.lockN →
     Completes (.mainsCrossing low before after n) s fun t =>
       t.f MEA.MAINS.LOCKED = 1 ∧ t.f MEA.MAINS.PERIOD = q ∧ t.f MEA.MAINS.LOCK_LOSSES = s.f MEA.MAINS.LOCK_LOSSES ∧
       Keeps [MEA.MAINS] eventPages s t) ∧
  (∀ (s : State) (low before after : Int) (n t0 q : Nat),
     s.awake = true → s.present 7 = true →
     bitsOf s.hid.mea.mains 31 31 = 1 ∧ bit s.hid.mea.pcEn (bitsOf s.hid.mea.mains 27 24) = true →
     low ≤ -8 ∧ before < 0 ∧ 0 ≤ after → s.f MEA.MAINS.LOCKED = 1 → s.hid.mea.crossAt = some t0 →
     q = (16 * ((s.hid.mea.subAt + n : Nat) : Int) - 512 - 16 * after / (after - before)).toNat - t0 →
     (q < 984640 ∨ 1422208 < q) →
     Completes (.mainsCrossing low before after n) s fun t =>
       t.f MEA.MAINS.LOCKED = 0 ∧ t.f MEA.MAINS.PERIOD = min q 16777215 ∧ Bumped MEA.MAINS.LOCK_LOSSES s t ∧
       Counted 64 0 s t ∧ Keeps [MEA.MAINS] ledgerPages s t) ∧
  (∀ (s : State),
     s.awake = true → s.present 7 = true → s.f MEA.MAINS.LOCKED = 1 →
     Completes (.mainsTimeout) s fun t =>
       t.f MEA.MAINS.LOCKED = 0 ∧ t.f MEA.MAINS.PERIOD = s.f MEA.MAINS.PERIOD ∧ Bumped MEA.MAINS.LOCK_LOSSES s t ∧
       Counted 64 0 s t ∧ Keeps [MEA.MAINS] ledgerPages s t)

/-- Evaluations (R190, R192, R195, R197), ramps and targets (R200, R201), tokens (R204) and re-evaluations (R205). -/
def Obligations.Lattice_evaluates_and_commits : Prop :=
  (∀ (s : State) (n : Fin 8) (wait : Nat) (c : Fin 192) (g : Fin 32),
     s.awake = true → s.present 1 = true → s.rgGroup n = some g.val → (s.rg n).win ≠ (s.tbase (s.grpTb g)).wins →
     (s.tbase (s.grpTb g)).marks.headD 0 < s.slotStamp (s.f (LAT.RG_CFG.START_SLOT n)) → (s.rg n).saved = none →
     s.buckRg n = false → s.rgCells n = [c.val] → s.dB c 3 = 0xFF → s.feeder n c = none →
     s.usable (s.dB c 2) (s.rg n).begun = none → (s.lc c).init = false →
     Completes (.rateGroupEvaluation n wait) s fun t =>
       t.rd (LAT.OUT c) = BitVec.ofInt 32 (clampI (s.dW c 32) (s.dW c 36) (clampI (-2147483648) 2147483647 (s.dW c 44
         + s.dW c 40))) ∧ t.f (LAT.CELL_STAT.HOLD c) = 1 ∧ Bumped (LAT.CELL_STAT.HOLDS c) s t ∧
       t.f (LAT.RG_STAT.EVALS n) = (s.f (LAT.RG_STAT.EVALS n) + 1) % 65536 ∧ Counted 70 g s t ∧
       Keeps [LAT.OUT c, LAT.RAMPED c, LAT.CELL_STAT c, LAT.RG_STAT n, LAT.LOAD] ledgerPages s t) ∧
  (∀ (s : State) (n : Fin 8) (wait : Nat) (c : Fin 192) (g : Fin 32) (x : Nat),
     s.awake = true → s.present 1 = true → s.rgGroup n = some g.val → (s.rg n).win ≠ (s.tbase (s.grpTb g)).wins →
     (s.tbase (s.grpTb g)).marks.headD 0 < s.slotStamp (s.f (LAT.RG_CFG.START_SLOT n)) → (s.rg n).saved = none →
     s.buckRg n = false → s.rgCells n = [c.val] → s.dB c 3 = 0xFF → s.feeder n c = none →
     s.usable (s.dB c 2) (s.rg n).begun = some x →
     Completes (.rateGroupEvaluation n wait) s fun t =>
       t.rd (LAT.OUT c) = BitVec.ofInt 32 (s.cellEval c (some x) none).cell.u ∧
       t.rd (LAT.RAMPED c) = BitVec.ofInt 32 (s.cellEval c (some x) none).cell.rho ∧ t.f (LAT.CELL_STAT.HOLD c) = 0 ∧
       t.f (LAT.CELL_STAT.HOLDS c) = s.f (LAT.CELL_STAT.HOLDS c) ∧
       t.f (LAT.RG_STAT.EVALS n) = (s.f (LAT.RG_STAT.EVALS n) + 1) % 65536 ∧
       (t.rg n).begun = s.hid.mea.total ∧ (t.rg n).win = (s.tbase (s.grpTb g)).wins ∧
       Keeps [LAT.OUT c, LAT.RAMPED c, LAT.CELL_STAT c, LAT.RG_STAT n, LAT.LOAD] [0x01, 0x03, 0x14] s t) ∧
  (∀ (s : State) (n : Fin 8) (g : Fin 32),
     s.awake = true → s.present 1 = true → s.rgGroup n = some g.val → s.f (LAT.RG_CFG.COMMIT n) = 1 →
     (s.rg n).saved.isSome = true ∧ (s.rg n).win = (s.tbase (s.grpTb g)).wins →
     ((s.grpTbs g).all (fun k => !(s.tbase k).late) = true) → g.val ∉ s.hid.pls.committed →
     Completes (.commitStrobe n) s fun t =>
       (∀ c < 144, s.chGroup c = g → (t.chan c).rel = some (s.rd (PLS.RISE c), s.rd (PLS.FALL c))) ∧
       t.f (PLS.GRP_STAT.RELOAD_PEND g) = 1 ∧ (t.rg n).saved = none ∧ g.val ∈ t.hid.pls.committed ∧
       Keeps [PLS.GRP_STAT g] [] s t) ∧
  (∀ (s : State) (n : Fin 8) (g : Fin 32) (abandoned : Bool),
     s.awake = true → s.present 1 = true → s.rgGroup n = some g.val → s.f (LAT.RG_CFG.COMMIT n) = 1 →
     (s.rg n).saved.isSome = true ∧ (s.rg n).win = (s.tbase (s.grpTb g)).wins → (s.rg n).fresh = true →
     abandoned = true →
     Completes (.latReevaluation n abandoned) s fun t =>
       Bumped (LAT.RG_STAT.ABANDONED n) s t ∧ t.f (LAT.RG_STAT.REEVALS n) = s.f (LAT.RG_STAT.REEVALS n) ∧
       t.f (LAT.RG_STAT.EVALS n) = s.f (LAT.RG_STAT.EVALS n) ∧ Keeps [LAT.RG_STAT n] [] s t) ∧
  (∀ (s : State) (n : Fin 8) (g : Fin 32) (abandoned : Bool),
     s.awake = true → s.present 1 = true → s.rgGroup n = some g.val → s.f (LAT.RG_CFG.COMMIT n) = 1 →
     (s.rg n).saved.isSome = true ∧ (s.rg n).win = (s.tbase (s.grpTb g)).wins → (s.rg n).fresh = true →
     s.buckRg n = false → abandoned = false →
     Completes (.latReevaluation n abandoned) s fun t =>
       Bumped (LAT.RG_STAT.REEVALS n) s t ∧ Bumped LAT.STATUS.REEVALS s t ∧
       t.f (LAT.RG_STAT.EVALS n) = s.f (LAT.RG_STAT.EVALS n) ∧
       t.f (LAT.RG_STAT.ABANDONED n) = s.f (LAT.RG_STAT.ABANDONED n) ∧
       (∀ c < 192, c ∉ s.rgCells n → t.rd (LAT.OUT c) = s.rd (LAT.OUT c) ∧ t.rd (LAT.CELL_STAT c) = s.rd
         (LAT.CELL_STAT c)) ∧ Keeps [] [0x01, 0x03, 0x07, 0x14] s t) ∧
  (∀ (s : State) (v : Via) (c : Fin 192) (x : Word),
     s.accepts v [(LAT.TARGET c, x)] = true →
     Completes (.latTargetWrite v c x) s fun t =>
       t.rd (LAT.TARGET c) = x ∧ (t.lc c).rate = s.f (LAT.RAMP.RATE c) ∧ t.f (LAT.CELL_STAT.RAMP_DONE c) = 0 ∧
       (t.f (LAT.CELL_STAT.RAMPING c) = 1 ↔ (s.lc c).rho ≠ sx32 x.toNat) ∧
       (s.f (LAT.CELL_STAT.RAMP_DONE c) = 0 → (s.lc c).rho ≠ s.tau c → Bumped LAT.STATUS.RAMP_SUPERSEDED s t) ∧
       Keeps [LAT.TARGET c, LAT.CELL_STAT c, LAT.STATUS] [0x01, 0x14] s t)

/-- Evaluations (R211 to R213), torque requests (R220) and derating (R20, R221). -/
def Obligations.Field_engines_and_derating : Prop :=
  (∀ (s : State) (m : Fin 2) (ecc : Bool) (g : Fin 32),
     s.awake = true → s.present (2 + m.val) = true → s.fldGroup m = some g.val →
     (s.eng m).win ≠ (s.tbase (s.grpTb g)).wins → s.anySince (s.fldSlots m) (s.eng m).begun = true →
     (s.f (POS.OBS_STAT.ACTIVE m) ≠ 0 ∨ (s.pu (s.f (FLD.MCH_CFG.PU m))).latched.state ≠ 3) → (s.eng m).base ≠ 2 →
     fillSet ((s.fldCurrents m (s.eng m).begun).take 3) = none →
     Completes (.fieldEvaluation m ecc) s fun t =>
       Bumped (FLD.CNT0.HOLDS m) s t ∧ (t.eng m).win = (s.tbase (s.grpTb g)).wins ∧
       t.rd (FLD.TQ_OUT m) = s.rd (FLD.TQ_OUT m) ∧ t.f (FLD.MCH_STAT.MODE m) = s.f (FLD.MCH_STAT.MODE m) ∧
       Counted 80 g s t ∧ Keeps [FLD.CNT0 m] ledgerPages s t) ∧
  (∀ (s : State) (m : Fin 2) (ecc : Bool) (g : Fin 32) (i1 i2 : List Fl) (r1 r2 : Nat) (up_ lo : Fl),
     s.awake = true → s.present (2 + m.val) = true → s.fldGroup m = some g.val →
     (s.eng m).win ≠ (s.tbase (s.grpTb g)).wins → s.anySince (s.fldSlots m) (s.eng m).begun = true →
     s.f (POS.OBS_STAT.ACTIVE m) = 0 ∧ (s.pu (s.f (FLD.MCH_CFG.PU m))).latched.state ≠ 3 →
     s.f (POS.OBS_STAT.CATCH m) = 0 ∧ s.f (POS.OBS_CFG.EN m) = 0 → (s.eng m).base ≠ 2 →
     fillSet ((s.fldCurrents m (s.eng m).begun).take 3) = some (i1, r1) →
     fillSet ((s.fldCurrents m (s.eng m).begun).drop 3) = some (i2, r2) →
     s.fldVolt m (s.f (FLD.IN_SLOT1.VUP m)) (s.linkMark g) = some up_ →
     s.fldVolt m (s.f (FLD.IN_SLOT1.VLO m)) (s.linkMark g) = some lo →
     Completes (.fieldEvaluation m ecc) s fun t =>
       t.f (FLD.CNT0.RECONSTRUCTED m) = min (s.f (FLD.CNT0.RECONSTRUCTED m) + r1 + r2) 65535 ∧
       t.f (FLD.CNT0.HOLDS m) = s.f (FLD.CNT0.HOLDS m) ∧
       t.f (FLD.DERATE.K m) = min (s.f (FLD.DERATE.K_HOST m)) (s.f (FLD.DERATE.K_TH m)) ∧
       t.f (FLD.DERATE.K_HOST m) = s.f (FLD.DERATE.K_HOST m) ∧ t.f (FLD.DERATE.K_TH m) = s.f (FLD.DERATE.K_TH m) ∧
       (t.eng m).win = (s.tbase (s.grpTb g)).wins ∧ t.rd (FLD.TQ_REQ m) = s.rd (FLD.TQ_REQ m) ∧
       Keeps [] (0x08 :: 0x0A :: ledgerPages) s t) ∧
  (∀ (s : State) (v : Via) (m : Fin 2) (x : Word),
     s.accepts v [(FLD.TQ_REQ m, x)] = true →
     Completes (.tqReqWrite v m x) s fun t =>
       t.rd (FLD.TQ_REQ m) = x ∧ Keeps [FLD.TQ_REQ m] [0x01, 0x14] s t) ∧
  (∀ (s : State),
     s.awake = true → s.cd2Reads = true →
     Completes (.thermalFactorUpdate) s fun t =>
       (∀ m < 2, t.f (FLD.DERATE.K_TH m) = min (s.thermFactor m 0) (s.thermFactor m 1)) ∧
       (∀ m < 2, t.f (FLD.DERATE.K m) = min (s.f (FLD.DERATE.K_HOST m)) (min (s.thermFactor m 0) (s.thermFactor m 1)))
         ∧ (∀ m < 2, t.f (FLD.DERATE.K_HOST m) = s.f (FLD.DERATE.K_HOST m)) ∧
       Keeps [FLD.DERATE 0, FLD.DERATE 1] [] s t)

/-- The DC-link supervisor (R242, R243, R247, R248), the chopper's checks (R245, R246) and the contactor (R252). -/
def Obligations.Dc_link_supervision : Prop :=
  (∀ (s : State) (code : Nat),
     s.awake = true → s.present 0 = true → s.f DCL.CTRL.EN = 1 →
     s.codeSince (s.f DCL.VSRC.SLOT) s.hid.dcl.seen = some code →
     Completes (.dclEvaluation) s fun t =>
       t.f DCL.STATUS.VDC = min 2047 (code * s.f DCL.VSRC.V_GAIN / 65536) ∧ t.f DCL.STATUS.SENSE_OK = 1 ∧
       (s.f DCL.CTRL.BATT_BLOCK = 0 → s.f DCL.LEVELS.L1 * 65536 ≤ code * s.f DCL.VSRC.V_GAIN → t.f
         DCL.STATUS.CHOP_DEMAND = 1) ∧
       (s.f DCL.CTRL.BATT_BLOCK = 0 → code * s.f DCL.VSRC.V_GAIN < (s.f DCL.LEVELS.L1 - s.f DCL.LEVELS.HYST) * 65536 →
         t.f DCL.STATUS.CHOP_DEMAND = 0 ∧ t.f DCL.STATUS.REGEN_CLAMP = 0) ∧
       t.f DCL.STATUS.CHOP_FAULTY = s.f DCL.STATUS.CHOP_FAULTY ∧
       Keeps (SYS.XFER 2 :: SYS.XFER 3 :: FLD.MCH_STAT 0 :: FLD.MCH_STAT 1 :: []) ledgerPages s t) ∧
  (∀ (s : State),
     s.awake = true → s.present 0 = true → s.f DCL.CTRL.EN = 1 → s.hid.dcl.lost = false →
     Completes (.dclSenseLost) s fun t =>
       t.f DCL.STATUS.SENSE_OK = 0 ∧ t.f DCL.STATUS.REGEN_CLAMP = 1 ∧
       (s.f DCL.STATUS.REGEN_CLAMP = 0 → ∀ m < 2, s.f (FLD.MCH_CFG.EN m) = 1 → s.present (2 + m) = true → t.f
         (FLD.MCH_STAT.REGEN_CLAMP m) = 1) ∧ Counted 91 0 s t ∧ Keeps [FLD.MCH_STAT 0, FLD.MCH_STAT 1] ledgerPages s t) ∧
  (∀ (s : State) (x : ChopCheck),
     s.awake = true → s.present 0 = true → s.f DCL.CTRL.EN = 1 →
     s.f DCL.CHOP.CHK_CELL < 72 ∧ s.f DCL.CTRL.BRK_GROUP < 32 →
     (((s.chans (s.f DCL.CTRL.BRK_GROUP)).any fun c => (s.chan c).on) = false) → x = .offState →
     s.f (TRP.CELL_STAT.OUT_LO (s.f DCL.CHOP.CHK_CELL)) = 0 →
     Completes (.chopperCheck x) s fun t =>
       t.f DCL.STATUS.CHOP_KIND = 3 ∧ Bumped DCL.COUNT.CHK_FAILS s t ∧ Counted 90 (s.f DCL.CTRL.BRK_GROUP) s t ∧
       Keeps [] ledgerPages s t) ∧
  (∀ (s : State) (v : Via),
     s.accepts v [(DCL.STATUS, withBits (s.keepWord DCL.STATUS) 29 29 1)] = true →
     Completes (.chopFaultyClear v) s fun t =>
       t.f DCL.STATUS.CHOP_FAULTY = 0 ∧ t.f DCL.STATUS.CHOP_KIND = s.f DCL.STATUS.CHOP_KIND ∧
       Keeps [DCL.STATUS] [0x01, 0x14] s t) ∧
  (∀ (s : State) (v : Via),
     s.accepts v [(DCL.CTRL, withBits (s.keepWord DCL.CTRL) 29 29 1)] = true → s.f DCL.CTRL.EN = 1 →
     s.f DCL.CTRL.CHG_CELL < 72 → (((s.cellSel (s.f DCL.CTRL.CHG_CELL)).any fun g => s.gst g == .running) = true) →
     Completes (.contOpen v) s fun t =>
       t.f DCL.CTRL.CONT_OPEN = 1 ∧
       (∀ g ∈ s.cellSel (s.f DCL.CTRL.CHG_CELL), s.gst g = .running → t.stopped g = true) ∧
       t.f DCL.STATUS.LINK_OPEN = 1 ∧ Counted 93 0 s t ∧ Keeps [] ledgerPages s t)

/-- Latching (R260), filters (R261), resolvers (R262, R263), serial encoders (R265, R266), quadrature (R267, R268),
Hall sensors (R269), speed (R271), states (R259). -/
def Obligations.Position_units_decode : Prop :=
  (∀ (s : State) (k : Fin 6) (b : Bool) (at_ : Nat),
     s.awake = true → s.present 6 = true →
     ((if b then s.f (POS.PU_CFG.LATCH_B_EN k) else s.f (POS.PU_CFG.LATCH_A_EN k)) = 1) →
     Completes (.positionLatch k b at_) s fun t =>
       (t.pu k).latched.pos = t.posn k ∧ (t.pu k).latched.state = s.puState k ∧
       t.rd (POS.SPEED k) = BitVec.ofInt 32 (t.pu k).latched.speed ∧ t.puState k = s.puState k ∧
       (s.puMode k = 2 → (s.pu k).word = none → (s.pu k).ckHigh ≤ max at_ s.hid.pos.clk → (t.pu k).word = some (max
         at_ s.hid.pos.clk + 1)) ∧ (∀ j < 6, j ≠ k.val → t.posn j = s.posn j ∧ t.puState j = s.puState j) ∧
       Keeps [] (0x0A :: ledgerPages) s t) ∧
  (∀ (s : State) (j : Fin 2) (at_ c : Nat) (sn cs : Int),
     c < 16777216 → s.awake = true → s.present 6 = true → (s.puMode j = 1 ∧ (s.puState j = 1 ∨ s.puState j = 2)) →
     (([s.f (POS.RES_SLOT.SIN_SLOT j), s.f (POS.RES_SLOT.COS_SLOT j)].any fun x => s.slotBad x || s.slotRefBad x) =
       false) → (s.pu j).cosSeen < s.slotStamp (s.f (POS.RES_SLOT.SIN_SLOT j)) →
     sn = (s.slotVal (s.f (POS.RES_SLOT.SIN_SLOT j)) : Int) - 0x8000 ∧ cs = (s.slotVal (s.f (POS.RES_SLOT.COS_SLOT j))
       : Int) - 0x8000 →
     (8 * s.f (POS.RES_LIM.AMP_LO j)) ^ 2 ≤ (sn * sn + cs * cs).toNat ∧ (sn * sn + cs * cs).toNat ≤ (8 * s.f
       (POS.RES_LIM.AMP_HI j)) ^ 2 →
     Completes (.resolverUpdate j at_ c) s fun t =>
       t.f (POS.RES_STAT.AMP j) = (Fl.nearest (Fl.sqrt (Fl.ofInt (sn * sn + cs * cs)))).toNat % 65536 ∧
       t.f (POS.RES_STAT.SKIPPED j) = s.f (POS.RES_STAT.SKIPPED j) ∧
       (t.pu j).cosSeen = s.slotStamp (s.f (POS.RES_SLOT.COS_SLOT j)) ∧
       (∀ i < 6, i ≠ j.val → t.posn i = s.posn i ∧ t.puState i = s.puState i) ∧ Keeps [] (0x0A :: ledgerPages) s t) ∧
  (∀ (s : State) (j : Fin 2) (at_ c : Nat),
     c < 16777216 → s.awake = true → s.present 6 = true → (s.puMode j = 1 ∧ (s.puState j = 1 ∨ s.puState j = 2)) →
     (([s.f (POS.RES_SLOT.SIN_SLOT j), s.f (POS.RES_SLOT.COS_SLOT j)].any fun x => s.slotBad x || s.slotRefBad x) =
       true) →
     Completes (.resolverUpdate j at_ c) s fun t =>
       Bumped (POS.RES_STAT.SKIPPED j) s t ∧ t.f (POS.RES_STAT.AMP j) = s.f (POS.RES_STAT.AMP j) ∧
       t.puState j = s.puState j ∧ Keeps [] (0x0A :: ledgerPages) s t) ∧
  (∀ (s : State) (j : Fin 2),
     s.awake = true → s.present 6 = true → s.excRuns j = true →
     Completes (.resExc j) s fun t =>
       Counted 102 j s t ∧ (t.lasting 102 j = true → t.puState j = 3 ∧ t.f (POS.PU_STAT.SPD_VALID j) = 0) ∧
       (t.lasting 102 j = false → t.puState j = s.puState j) ∧ Keeps [POS.PU_STAT j] ledgerPages s t) ∧
  (∀ (s : State) (k : Fin 6) (x : SsiWord) (p : Nat),
     s.awake = true → s.present 6 = true → (s.pu k).word.isSome = true → s.puMode k = 2 ∧ s.ssiPos k x = some p →
     (s.puState k = 1 ∨ s.puState k = 2) →
     (s.pu k).hasWord = false ∧ (s.pu k).edges = [] ∧ s.f (POS.PU_CFG.SPD_EDGES k) ≠ 0 →
     Completes (.ssiWord k x) s fun t =>
       t.posn k = p % s.puMod k ∧ (t.pu k).word = none ∧ (t.pu k).good = (s.pu k).good + 1 ∧
       t.f (POS.PU_STAT.ERRORS k) = s.f (POS.PU_STAT.ERRORS k) ∧
       (∀ j < 6, j ≠ k.val → t.posn j = s.posn j ∧ t.puState j = s.puState j) ∧ Keeps [] (0x0A :: ledgerPages) s t) ∧
  (∀ (s : State) (k : Fin 6) (x : SsiWord),
     s.awake = true → s.present 6 = true → (s.pu k).word.isSome = true → (s.puState k = 1 ∨ s.puState k = 2) →
     s.ssiPos k x = none →
     Completes (.ssiWord k x) s fun t =>
       Bumped (POS.PU_STAT.ERRORS k) s t ∧ (t.pu k).word = none ∧ (t.pu k).good = 0 ∧ Counted 103 k s t ∧
       Keeps [] (0x0A :: ledgerPages) s t) ∧
  (∀ (s : State) (k : Fin 6) (a b : Bool) (n at_ : Nat) (dir : Int),
     s.awake = true → s.present 6 = true → (s.puMode k = 3 ∧ (s.puState k = 1 ∨ s.puState k = 2)) →
     s.f (POS.PU_CFG.FILT k) + 1 ≤ n → (s.pu k).vel = 0 ∧ (s.pu k).late = [] →
     ((dir = 1 ∧ (quadPlace a b + 4 - (s.pu k).level) % 4 = 1) ∨ (dir = -1 ∧ (quadPlace a b + 4 - (s.pu k).level) % 4
       = 3)) →
     Completes (.quadTransition k a b n at_) s fun t =>
       (t.pu k).acc = (s.pu k).acc + dir * cnt ∧
       t.f (POS.POSN.POSITION k) = posOf ((s.pu k).acc + dir * cnt) (s.puMod k) ∧
       (t.pu k).steps = (s.pu k).steps + dir ∧ (t.pu k).level = quadPlace a b ∧
       t.f (POS.PU_STAT.ERRORS k) = s.f (POS.PU_STAT.ERRORS k) ∧
       (∀ j < 6, j ≠ k.val → t.posn j = s.posn j ∧ t.puState j = s.puState j) ∧ Keeps [] (0x0A :: ledgerPages) s t) ∧
  (∀ (s : State) (k : Fin 6) (a b : Bool) (n at_ : Nat),
     s.awake = true → s.present 6 = true → (s.puMode k = 3 ∧ (s.puState k = 1 ∨ s.puState k = 2)) →
     s.f (POS.PU_CFG.FILT k) + 1 ≤ n → (s.pu k).vel = 0 ∧ (s.pu k).late = [] →
     (quadPlace a b + 4 - (s.pu k).level) % 4 = 2 →
     Completes (.quadTransition k a b n at_) s fun t =>
       (t.pu k).acc = (s.pu k).acc ∧ (t.pu k).level = quadPlace a b ∧ Bumped (POS.PU_STAT.ERRORS k) s t ∧
       Counted 104 k s t ∧ Keeps [] (0x0A :: ledgerPages) s t) ∧
  (∀ (s : State) (k : Fin 6) (n at_ : Nat),
     s.awake = true → s.present 6 = true → (s.puMode k = 3 ∧ (s.puState k = 1 ∨ s.puState k = 2)) →
     s.f (POS.PU_CFG.FILT k) + 1 ≤ n → s.f (POS.QUAD.INDEX_GATE k) = 0 →
     (s.f (POS.QUAD.INDEX_MODE k) = 3 ∨ (s.f (POS.QUAD.INDEX_MODE k) = 2 ∧ s.puState k = 1)) →
     Completes (.quadIndex k n at_) s fun t =>
       t.posn k = s.f (POS.QUAD.INDEX_VAL k) % s.puMod k ∧ t.puState k = 2 ∧
       t.f (POS.PU_STAT.ERRORS k) = s.f (POS.PU_STAT.ERRORS k) ∧
       (∀ j < 6, j ≠ k.val → t.posn j = s.posn j ∧ t.puState j = s.puState j) ∧ Keeps [] (0x0A :: ledgerPages) s t) ∧
  (∀ (s : State) (k : Fin 6) (h_ : Fin 8) (n at_ : Nat),
     s.awake = true → s.present 6 = true → (s.puMode k = 4 ∧ (s.puState k = 1 ∨ s.puState k = 2)) →
     s.f (POS.PU_CFG.FILT k) + 1 ≤ n → h_.val ≠ 0 ∧ h_.val ≠ 7 ∧ s.hallSector k h_ < 6 → (s.pu k).sector = none →
     Completes (.hallChange k h_ n at_) s fun t =>
       (t.pu k).sector = some (s.hallSector k h_) ∧ t.puState k = 2 ∧
       t.f (POS.PU_STAT.ERRORS k) = s.f (POS.PU_STAT.ERRORS k) ∧
       (∀ j < 6, j ≠ k.val → t.posn j = s.posn j ∧ t.puState j = s.puState j) ∧ Keeps [] (0x0A :: ledgerPages) s t) ∧
  (∀ (s : State) (k : Fin 6) (h_ : Fin 8) (n at_ : Nat),
     s.awake = true → s.present 6 = true → (s.puMode k = 4 ∧ (s.puState k = 1 ∨ s.puState k = 2)) →
     s.f (POS.PU_CFG.FILT k) + 1 ≤ n → (h_.val = 0 ∨ h_.val = 7) →
     Completes (.hallChange k h_ n at_) s fun t =>
       (t.pu k).sector = none ∧ (t.pu k).vel = 0 ∧ Bumped (POS.PU_STAT.ERRORS k) s t ∧ Counted 106 k s t ∧
       Keeps [] (0x0A :: ledgerPages) s t) ∧
  (∀ (s : State) (k : Fin 6) (at_ : Nat),
     s.awake = true → s.present 6 = true → s.edgeMode k = true → (s.puState k = 1 ∨ s.puState k = 2) →
     s.zeroAt k < at_ →
     Completes (.zeroSpeedTimeout k at_) s fun t =>
       t.rd (POS.SPEED k) = 0 ∧ (t.pu k).vel = 0 ∧ t.puState k = s.puState k ∧
       (s.puState k = 2 → t.f (POS.PU_STAT.SPD_VALID k) = 1) ∧
       (∀ j < 6, j ≠ k.val → t.posn j = s.posn j ∧ t.puState j = s.puState j) ∧ Keeps [] (0x0A :: ledgerPages) s t)

/-- Compare (R273), fault clears (R259, R277) and emulations (R276, R277). -/
def Obligations.Position_outputs_and_restarts : Prop :=
  (∀ (s : State) (v : Via) (k : Fin 6) (u : Fin 8) (x : Word),
     s.accepts v [(POS.PCMP_CFG k u, x)] = true → bit x.toNat 31 = true → s.puState k ≠ 2 →
     Completes (.pcmpArm v k u (.config x)) s fun t =>
       t.f (POS.PCMP_STAT.ARMED k u) = 1 ∧ t.f (POS.PCMP_CFG.DIR k u) = bitsOf x 30 29 ∧
       t.f (POS.PCMP_CFG.STEP k u) = bitsOf x 23 0 ∧ Keeps [POS.PCMP_CFG k u, POS.PCMP_STAT k u] [0x01, 0x14] s t) ∧
  (∀ (s : State) (v : Via) (k : Fin 6) (u : Fin 8) (x : Word),
     s.accepts v [(POS.PCMP_TGT k u, x)] = true → s.f (POS.PCMP_CFG.ARM k u) = 0 →
     Completes (.pcmpArm v k u (.target x)) s fun t =>
       t.f (POS.PCMP_TGT.TARGET k u) = bitsOf x 23 0 ∧ t.f (POS.PCMP_STAT.COUNT k u) = s.f (POS.PCMP_STAT.COUNT k u) ∧
       Keeps [POS.PCMP_TGT k u, POS.PCMP_STAT k u] [0x01, 0x14] s t) ∧
  (∀ (s : State) (v : Via) (k : Fin 6),
     s.accepts v [(POS.PU_STAT k, withBits (s.keepWord (POS.PU_STAT k)) 28 28 1)] = true → s.puState k = 3 →
     (s.puMode k = 1 ∨ s.puMode k = 2 ∨ (s.puMode k = 4 ∧ s.hallLegal k (s.pu k).hall = false)) →
     Completes (.puFaultClear v k) s fun t =>
       t.puState k = 1 ∧ t.f (POS.PU_STAT.FAULT k) = 0 ∧ t.f (POS.PU_STAT.SPD_VALID k) = 0 ∧ t.rd (POS.SPEED k) = 0 ∧
       t.f (POS.PU_STAT.ERRORS k) = s.f (POS.PU_STAT.ERRORS k) ∧ Keeps [POS.PU_STAT k, POS.SPEED k] [0x01, 0x14] s t) ∧
  (∀ (s : State) (v : Via) (k : Fin 6),
     s.accepts v [(POS.PU_STAT k, withBits (s.keepWord (POS.PU_STAT k)) 27 27 1)] = true →
     Completes (.ptFaultClear v k) s fun t =>
       t.f (POS.PU_STAT.PT_FAULT k) = 0 ∧ t.puState k = s.puState k ∧ (t.pt k).emitted = s.emuCount k ∧
       Keeps [POS.PU_STAT k] [0x01, 0x14] s t) ∧
  (∀ (s : State) (k : Fin 6) (rising : Bool) (at_ : Nat),
     s.awake = true → s.present 6 = true → s.f (POS.PT_CFG.MODE k) = 3 →
     Completes (.ssiEmuClock k rising at_) s fun t =>
       (rising = false → (s.pt k).edge + 2000 ≤ at_ → (t.pt k).word = t.posn (s.f (POS.PT_CFG.SRC k)) * 65536 /
         s.puMod (s.f (POS.PT_CFG.SRC k)) ∧ (t.pt k).sent = 0) ∧
       (rising = true → (s.pt k).sent < 16 → (t.pt k).out = bit (s.pt k).word (15 - (s.pt k).sent) ∧ (t.pt k).sent =
         (s.pt k).sent + 1) ∧ (t.pt k).edge = at_ ∧ Keeps [] (0x0A :: ledgerPages) s t) ∧
  (∀ (s : State) (k : Fin 6) (at_ : Nat),
     s.awake = true → s.present 6 = true → s.f (POS.PT_CFG.MODE k) = 2 → s.f (POS.PU_STAT.PT_FAULT k) = 0 →
     s.puState (s.f (POS.PT_CFG.SRC k)) ≠ 3 →
     (s.pu (s.f (POS.PT_CFG.SRC k))).vel = 0 ∧ (s.pu (s.f (POS.PT_CFG.SRC k))).late = [] →
     (s.pt k).since + s.f (POS.PT_CFG.EMU_MIN k) ≤ at_ →
     0 < s.emuCount k - (s.pt k).emitted ∧ s.emuCount k - (s.pt k).emitted ≤ 4096 →
     Completes (.quadEmuCount k at_) s fun t =>
       (t.pt k).emitted = (s.pt k).emitted + 1 ∧ (t.pt k).since = at_ ∧ t.f (POS.PU_STAT.PT_FAULT k) = 0 ∧
       Keeps [] (0x0A :: ledgerPages) s t)

/-- Actuators (R287, R290, R292, R293, R299, R301) and the charge-port lock (R302, R303). -/
def Obligations.Actuators_and_lock_move : Prop :=
  (∀ (s : State) (v : Via) (a : Fin 4) (target : BitVec 24),
     s.accepts v [(ACT.CMD a, 0x10000000 ||| target.setWidth 32)] = true → (s.actGroup a).isSome = true →
     (s.act a).refing = false → a.val ≠ 3 →
     Completes (.actGo v a target) s fun t =>
       t.f (ACT.STAT.STATE a) = 1 ∧
       ((t.act a).target = if a.val = 0 then (target.toNat : Int) else s.actGoal a target.toNat) ∧
       (t.act a).fromPos = (s.act a).travel ∧ t.f (ACT.STAT.ARRIVING a) = 0 ∧
       (s.f (ACT.STAT.STATE a) = 1 → Bumped (ACT.STAT.SUPERSEDED a) s t) ∧
       Keeps [ACT.CMD a, ACT.STAT a, SYS.XFER 6] [0x01, 0x0A, 0x14] s t) ∧
  (∀ (s : State) (v : Via) (a : Fin 4) (target : BitVec 24),
     s.accepts v [(ACT.CMD a, 0x10000000 ||| target.setWidth 32)] = true → a.val = 3 → (s.actGroup a).isSome = true →
     (s.act 3).phase = .off ∧ (s.act 3).refing = false → s.actGoal 3 target.toNat ≠ 0 →
     Completes (.actGo v a target) s fun t =>
       t.f (ACT.STAT.STATE 3) = 1 ∧ (t.act 3).phase = .catching ∧ (t.act 3).evals = 0 ∧ (t.act 3).locked = false ∧
       (t.act 3).target = s.actGoal 3 target.toNat ∧ Keeps [ACT.CMD 3, ACT.STAT 3] [0x01, 0x14] s t) ∧
  (∀ (s : State) (v : Via) (a : Fin 4) (target : BitVec 24),
     s.accepts v [(ACT.CMD a, 0x10000000 ||| target.setWidth 32)] = true → (s.actGroup a).isSome = false →
     Completes (.actGo v a target) s fun t =>
       (t.act a).waits = some (target.toNat + 1) ∧ Keeps [ACT.CMD a] [0x01, 0x14] s t) ∧
  (∀ (s : State) (v : Via) (a : Fin 4),
     s.accepts v [(ACT.CMD a, withBits (s.keepWord (ACT.CMD a)) 31 28 0)] = true → (s.actGroup a).isSome = true →
     s.f (ACT.STAT.STATE a) ≠ 3 →
     Completes (.actStop v a) s fun t =>
       t.f (ACT.STAT.STATE a) = 0 ∧ (t.act a).waits = none ∧ (t.act a).holding = false ∧
       Keeps [ACT.CMD a, ACT.STAT a] [0x01, 0x14] s t) ∧
  (∀ (s : State) (v : Via) (a : Fin 4),
     s.accepts v [(ACT.CMD a, withBits (s.keepWord (ACT.CMD a)) 31 28 0)] = true → (s.actGroup a).isSome = false →
     Completes (.actStop v a) s fun t =>
       (t.act a).waits = some 0 ∧ Keeps [ACT.CMD a] [0x01, 0x14] s t) ∧
  (∀ (s : State) (a : Fin 4),
     s.awake = true → s.present 5 = true → (s.actGroup a).isSome = true → s.f (ACT.STAT.STATE a) = 1 →
     (s.act a).refing = false → (a.val = 1 ∨ a.val = 2) →
     Completes (.actMoveTimeout a) s fun t =>
       (t.f (ACT.STAT.STATE a) = 0 ∨ t.f (ACT.STAT.STATE a) = 3) ∧ (t.act a).holding = false ∧
       Counted 111 (s.f (ACT.CFG.GROUP a)) s t ∧ Keeps [ACT.STAT a] ledgerPages s t) ∧
  (∀ (s : State) (a : Fin 4),
     s.awake = true → s.present 5 = true → (s.actGroup a).isSome = true → s.f (ACT.STAT.STATE a) = 1 →
     (s.act a).refing = false → a.val = 0 →
     Completes (.actMoveTimeout a) s fun t =>
       (t.f (ACT.STAT.STATE 0) = 0 ∨ t.f (ACT.STAT.STATE 0) = 3) ∧ t.f (ACT.STAT.PARK 0) = 0 ∧
       Counted 112 (s.f (ACT.CFG.GROUP 0)) s t ∧ Keeps [ACT.STAT 0] ledgerPages s t) ∧
  (∀ (s : State) (a : Fin 4) (g : Fin 32),
     s.awake = true → s.present 5 = true → s.actGroup a = some g.val → (s.act a).win ≠ (s.tbase (s.grpTb g)).wins →
     s.anySince [s.f (ACT.CFG.IU_SLOT a), s.f (ACT.SLOTS.IV_SLOT a), s.f (ACT.SLOTS.IW_SLOT a)] (s.act a).begun = true
       → (s.act a).holding = false → s.usable (s.f (ACT.CFG.VBUS_SLOT a)) (s.linkMark g) = none →
     Completes (.actuatorEvaluation a) s fun t =>
       Bumped (ACT.STAT.HOLDS a) s t ∧ (t.act a).win = (s.tbase (s.grpTb g)).wins ∧
       t.f (ACT.STAT.STATE a) = s.f (ACT.STAT.STATE a) ∧ Counted 110 g s t ∧ Keeps [ACT.STAT a] ledgerPages s t) ∧
  (∀ (s : State) (a : Fin 4) (g : Fin 32),
     s.awake = true → s.present 5 = true → s.actGroup a = some g.val → (s.act a).win ≠ (s.tbase (s.grpTb g)).wins →
     (s.act a).holding = false ∧ (s.act a).refing = false ∧ (s.act a).waits = none ∧ (s.act a).prev = none →
     (s.usable (s.f (ACT.CFG.VBUS_SLOT a)) (s.linkMark g)).isSome = true →
     (([s.f (ACT.CFG.IU_SLOT a), s.f (ACT.SLOTS.IV_SLOT a), s.f (ACT.SLOTS.IW_SLOT a)].all fun r => (s.codeSince r
       (s.act a).begun).isSome) = true) → s.f (ACT.STAT.STATE a) = 0 ∧ a.val ≠ 3 →
     Completes (.actuatorEvaluation a) s fun t =>
       (t.act a).win = (s.tbase (s.grpTb g)).wins ∧
       (t.act a).travel = modDiff (s.puMod (s.f (ACT.CFG.PU a))) (s.pu (s.f (ACT.CFG.PU a))).latched.pos ∧
       t.f (ACT.STAT.SAT_VOLT a) = 0 ∧ t.f (ACT.STAT.HOLDS a) = s.f (ACT.STAT.HOLDS a) ∧ t.f (ACT.STAT.STATE a) = 0 ∧
       Keeps [ACT.STAT a, ACT.TRAVEL a] [0x01, 0x03, 0x14] s t) ∧
  (∀ (s : State),
     s.awake = true → s.present 5 = true → (s.act 3).phase = .wait →
     Completes (.pumpCatchRestart) s fun t =>
       ((t.act 3).phase = if (s.act 3).target = 0 then .off else .catching) ∧
       (t.act 3).evals = 0 ∧ (t.act 3).locked = false ∧ ((s.act 3).target = 0 → t.f (ACT.STAT.STATE 3) = 0) ∧
       Keeps [ACT.STAT 3] eventPages s t) ∧
  (∀ (s : State) (g : Fin 32),
     s.awake = true → s.present 5 = true → s.cplGroup = some g.val → s.hid.act.cplWin ≠ (s.tbase (s.grpTb g)).wins →
     s.hid.act.cplWaits = none → ((s.grpTbs g).all (fun k => !(s.tbase k).late) = true) → g.val ∉ s.hid.pls.committed →
     Completes (.cplEvaluation) s fun t =>
       t.hid.act.cplWin = (s.tbase (s.grpTb g)).wins ∧ g.val ∈ t.hid.pls.committed ∧
       t.f (PLS.GRP_STAT.RELOAD_PEND g) = 1 ∧ t.f ACT.CPL_STAT.STATE = s.f ACT.CPL_STAT.STATE ∧
       Keeps [] [0x03, 0x0C, 0x01, 0x14] s t) ∧
  (∀ (s : State) (v : Via),
     s.accepts v [(ACT.CPL_CMD, withBits (s.keepWord ACT.CPL_CMD) 31 30 1)] = true → s.cplGroup.isSome = true →
     s.f ACT.CPL_STAT.STATE ≠ 1 ∧ s.f ACT.CPL_STAT.STATE ≠ 2 → s.hid.act.cplNext = none →
     Completes (.cplLock v) s fun t =>
       (t.f ACT.CPL_STAT.STATE = if s.f ACT.CPL_STAT.SW = 1 then 3 else 1) ∧
       t.f ACT.CPL_STAT.SW = s.f ACT.CPL_STAT.SW ∧ Keeps [ACT.CPL_CMD, ACT.CPL_STAT] [0x01, 0x0C, 0x14] s t) ∧
  (∀ (s : State) (v : Via),
     s.accepts v [(ACT.CPL_CMD, withBits (s.keepWord ACT.CPL_CMD) 31 30 2)] = true → s.cplGroup.isSome = true →
     s.f ACT.CPL_STAT.STATE ≠ 1 ∧ s.f ACT.CPL_STAT.STATE ≠ 2 → s.hid.act.cplNext = none →
     Completes (.cplUnlock v) s fun t =>
       (t.f ACT.CPL_STAT.STATE = if s.f ACT.CPL_STAT.SW = 0 then 4 else 2) ∧
       t.f ACT.CPL_STAT.SW = s.f ACT.CPL_STAT.SW ∧ Keeps [ACT.CPL_CMD, ACT.CPL_STAT] [0x01, 0x0C, 0x14] s t) ∧
  (∀ (s : State) (v : Via),
     s.accepts v [(ACT.CPL_CMD, withBits (s.keepWord ACT.CPL_CMD) 31 30 0)] = true → s.cplGroup.isSome = true →
     Completes (.cplStop v) s fun t =>
       t.f ACT.CPL_STAT.STATE = 0 ∧ t.hid.act.cplNext = none ∧ t.f ACT.CPL_STAT.FAILS = s.f ACT.CPL_STAT.FAILS ∧
       Keeps [ACT.CPL_CMD, ACT.CPL_STAT] [0x01, 0x0C, 0x14] s t) ∧
  (∀ (s : State) (cmd : Nat),
     s.awake = true → s.present 5 = true → s.cplGroup.isSome = true → s.hid.act.cplNext = some cmd →
     (cmd = 1 ∨ cmd = 2) →
     Completes (.cplReverseDelay) s fun t =>
       t.hid.act.cplNext = none ∧ (t.f ACT.CPL_STAT.STATE = if s.f ACT.CPL_STAT.SW = 2 - cmd then cmd + 2 else cmd) ∧
       Keeps [ACT.CPL_STAT] [0x01, 0x0C, 0x14] s t) ∧
  (∀ (s : State) (level : Bool) (sw : Bool),
     s.awake = true → s.present 5 = true → sw = (level != (s.f ACT.CPL_CFG.SW_POL == 1)) →
     Completes (.cplSwChange level) s fun t =>
       t.f ACT.CPL_STAT.SW = b2n sw ∧ (s.f ACT.CPL_STAT.STATE = 1 → t.f ACT.CPL_STAT.STATE = if sw then 3 else 1) ∧
       (s.f ACT.CPL_STAT.STATE = 2 → t.f ACT.CPL_STAT.STATE = if sw then 2 else 4) ∧
       (s.f ACT.CPL_STAT.STATE = 3 → sw = false → t.f ACT.CPL_STAT.STATE = 4 ∧ Bumped ACT.CPL_STAT.SW_LOSSES s t ∧
         Counted 116 (s.f ACT.CPL_CFG.GROUP) s t) ∧ Keeps [ACT.CPL_STAT] ledgerPages s t) ∧
  (∀ (s : State),
     s.awake = true → s.present 5 = true → (s.f ACT.CPL_STAT.STATE = 1 ∨ s.f ACT.CPL_STAT.STATE = 2) →
     Completes (.cplTimeout) s fun t =>
       t.f ACT.CPL_STAT.STATE = 5 ∧ Bumped ACT.CPL_STAT.FAILS s t ∧ Counted 115 (s.f ACT.CPL_CFG.GROUP) s t ∧
       Keeps [ACT.CPL_STAT] ledgerPages s t)

/-- The front end (R305 to R308). -/
def Obligations.Front_end_tracks_and_evaluates : Prop :=
  (∀ (s : State),
     s.awake = true → s.present 4 = true → s.f FLD.AFE_CFG.EN = 1 → s.owner (s.f FLD.AFE_CFG.GROUP) = 3 →
     s.gst (s.f FLD.AFE_CFG.GROUP) = .configured → s.hid.afe.win ≠ (s.tbase (s.grpTb (s.f FLD.AFE_CFG.GROUP))).wins →
     s.anySince [s.f FLD.AFE_SLOT.VA, s.f FLD.AFE_SLOT.VB, s.f FLD.AFE_SLOT.VC] s.hid.afe.begun = true →
     Completes (.afeTrackingEvaluation) s fun t =>
       t.hid.afe.win = (s.tbase (s.grpTb (s.f FLD.AFE_CFG.GROUP))).wins ∧ t.hid.afe.tracking = true ∧
       (t.hid.afe.inN = 0 ∨ t.hid.afe.inN = s.hid.afe.inN + 1) ∧ (32 ≤ t.hid.afe.inN → t.f FLD.AFE_STAT.LOCKED = 1) ∧
       t.f FLD.AFE_STAT.HOLDS = s.f FLD.AFE_STAT.HOLDS ∧ Keeps [FLD.AFE_STAT] [] s t) ∧
  (∀ (s : State) (g : Fin 32),
     s.awake = true → s.present 4 = true → s.f FLD.AFE_CFG.EN = 1 →
     s.f FLD.AFE_CFG.GROUP = g ∧ s.owner g = 3 ∧ s.active g = true → s.hid.afe.win ≠ (s.tbase (s.grpTb g)).wins →
     s.anySince [s.f FLD.AFE_ISLOT.IA, s.f FLD.AFE_ISLOT.IB, s.f FLD.AFE_ISLOT.IC, s.f FLD.AFE_ISLOT.IN]
       s.hid.afe.begun = true → s.codeSince (s.f FLD.AFE_ISLOT.IA) s.hid.afe.begun = none →
     s.codeSince (s.f FLD.AFE_ISLOT.IB) s.hid.afe.begun = none →
     Completes (.afeEvaluation) s fun t =>
       Bumped FLD.AFE_STAT.HOLDS s t ∧ t.hid.afe.win = (s.tbase (s.grpTb g)).wins ∧ Counted 85 g s t ∧
       Keeps [FLD.AFE_STAT] ledgerPages s t) ∧
  (∀ (s : State) (g : Fin 32),
     s.awake = true → s.present 4 = true → s.f FLD.AFE_CFG.EN = 1 →
     s.f FLD.AFE_CFG.GROUP = g ∧ s.owner g = 3 ∧ s.gst g = .armed → s.hid.afe.win ≠ (s.tbase (s.grpTb g)).wins →
     (([s.f FLD.AFE_ISLOT.IA, s.f FLD.AFE_ISLOT.IB, s.f FLD.AFE_ISLOT.IC, s.f FLD.AFE_ISLOT.IN].all fun r =>
       (s.codeSince r s.hid.afe.begun).isSome) = true) → ((s.grpTbs g).all (fun k => !(s.tbase k).late) = true) →
     g.val ∉ s.hid.pls.committed →
     Completes (.afeEvaluation) s fun t =>
       g.val ∈ t.hid.pls.committed ∧ t.f (PLS.GRP_STAT.RELOAD_PEND g) = 1 ∧
       t.f FLD.AFE_STAT.HOLDS = s.f FLD.AFE_STAT.HOLDS ∧ t.hid.afe.win = (s.tbase (s.grpTb g)).wins ∧
       t.gst g = .armed ∧ Keeps [FLD.AFE_STAT] [0x01, 0x03, 0x14] s t)

/-- Pilots (R312, R314), session states and commands (R315 to R317), connecting (R318), limits (R319), stops (R320),
metering sessions (R336). -/
def Obligations.Charging_session_steps : Prop :=
  (∀ (s : State) (high low : Int) (period duty n : Nat),
     s.awake = true → s.f CHG.CFG.EN = 1 → 8000 ≤ high ∧ high ≤ 10000 ∧ -13000 ≤ low ∧ low ≤ -11000 →
     980 ≤ period ∧ period ≤ 1020 ∧ 3 ≤ n → 100 ≤ duty ∧ duty ≤ 850 →
     (s.f CHG.PILOT.STATE ≠ 1 ∨ s.f CHG.PILOT.PWM ≠ 1 ∨ 5 < ((duty : Int) - s.f CHG.PILOT.DUTY).natAbs) →
     Completes (.pilotAccept high low period duty n) s fun t =>
       t.f CHG.PILOT.STATE = 1 ∧ t.f CHG.PILOT.PWM = 1 ∧ t.f CHG.PILOT.DUTY = duty ∧
       t.f CHG.PILOT.I_CP = duty * 6 / 10 ∧ Keeps [] ([0x07, 0x0B, 0x0D] ++ ledgerPages) s t) ∧
  (∀ (s : State) (mv n : Nat),
     s.awake = true → s.f CHG.CFG.EN = 1 → mv < 5000 ∧ 3 ≤ n → min 65535 (1000 * mv / (5000 - mv)) ≠ s.f CHG.PP.R →
     Completes (.proximityAccept mv n) s fun t =>
       t.f CHG.PP.R = min 65535 (1000 * mv / (5000 - mv)) ∧
       (75 ≤ 1000 * mv / (5000 - mv) → 1000 * mv / (5000 - mv) ≤ 140 → t.f CHG.PP.I_PP = 63) ∧
       (164 ≤ 1000 * mv / (5000 - mv) → 1000 * mv / (5000 - mv) ≤ 308 → t.f CHG.PP.I_PP = 32) ∧
       (140 < 1000 * mv / (5000 - mv) → 1000 * mv / (5000 - mv) < 164 → t.f CHG.PP.I_PP = 0 ∧ Counted 121 0 s t) ∧
       Keeps [] ([0x07, 0x0B, 0x0D] ++ ledgerPages) s t) ∧
  (∀ (s : State) (ms : Nat),
     s.awake = true → s.f CHG.CFG.EN = 1 → 50 ≤ ms ∧ ms ≤ 2000 →
     Completes (.chgButtonPress ms) s fun t =>
       Bumped CHG.COUNT.PRESSES s t ∧ (s.chgState = 3 ∨ s.chgState = 4 → t.chgState = 5) ∧
       Keeps [] ([0x07, 0x0B, 0x0D] ++ ledgerPages) s t) ∧
  (∀ (s : State) (v : Via),
     s.accepts v [(CHG.CMD, withBits (s.keepWord CHG.CMD) 31 28 1)] = true → s.f CHG.CFG.EN = 1 ∧ s.chgState = 2 →
     s.f CHG.CFG.BTN_REQ = 0 → s.f CHG.PILOT.STATE = 1 ∧ s.f CHG.PILOT.PWM = 1 ∧ s.f CHG.PP.I_PP ≠ 0 →
     Completes (.chgStart v) s fun t =>
       t.chgState = 3 ∧ t.f CHG.STATUS.START_PEND = 0 ∧ t.f CHG.STATUS.CP_S2 = 1 ∧ t.f ACT.CPL_STAT.INHIBIT = 1 ∧
       t.f MTR.STATUS.SESSION_OPEN = 1 ∧ t.f CHG.COUNT.SESSIONS = s.f CHG.COUNT.SESSIONS ∧
       t.hid.chg.step = 1 ∧ t.hid.chg.stepAt = s.ms ∧ Keeps [CHG.CMD, CHG.STATUS, ACT.CPL_STAT] [0x01, 0x0D, 0x14] s t) ∧
  (∀ (s : State) (v : Via),
     s.accepts v [(CHG.CMD, withBits (s.keepWord CHG.CMD) 31 28 1)] = true → s.chgState = 1 →
     Completes (.chgStart v) s fun t =>
       t.chgState = 1 ∧ t.f CHG.STATUS.START_PEND = 1 ∧ Keeps [CHG.CMD, CHG.STATUS] [0x01, 0x14] s t) ∧
  (∀ (s : State) (v : Via),
     s.accepts v [(CHG.CMD, withBits (s.keepWord CHG.CMD) 31 28 2)] = true → (s.chgState = 3 ∨ s.chgState = 4) →
     Completes (.chgStop v) s fun t =>
       t.chgState = 5 ∧ t.hid.chg.emergency = false ∧
       (s.f CHG.LIMITS.I_CELL < 192 → t.rd (LAT.TARGET (s.f CHG.LIMITS.I_CELL)) = 0) ∧
       Keeps [CHG.CMD, CHG.STATUS, LAT.TARGET (s.f CHG.LIMITS.I_CELL), LAT.CELL_STAT (s.f CHG.LIMITS.I_CELL),
         LAT.STATUS] [0x01, 0x14] s t) ∧
  (∀ (s : State) (v : Via),
     s.accepts v [(CHG.CMD, withBits (s.keepWord CHG.CMD) 31 28 3)] = true → (s.chgState = 2 ∨ s.chgState = 6) →
     Completes (.chgUnlock v) s fun t =>
       (s.cplGroup.isNone = true → t.hid.act.cplWaits = some 2) ∧
       (s.cplGroup.isSome = true → s.f ACT.CPL_STAT.STATE = 3 → s.hid.act.cplNext = none → t.f ACT.CPL_STAT.STATE = if
         s.f ACT.CPL_STAT.SW = 0 then 4 else 2) ∧ t.chgState = s.chgState ∧
       Keeps [CHG.CMD, ACT.CPL_STAT] [0x01, 0x14] s t) ∧
  (∀ (s : State) (va vb vc vfe : Nat) (at_ : Nat),
     s.awake = true → s.f CHG.CFG.EN = 1 ∧ s.chgState = 3 → s.hid.chg.step = 1 ∧ s.hid.chg.stateC = some at_ →
     Completes (.connectingStep va vb vc vfe) s fun t =>
       (va ≤ 30000 → vb ≤ 30000 → vc ≤ 30000 → 100 ≤ s.ms - at_ → t.f CHG.STATUS.RLY = 8 ∧ t.hid.chg.step = 2 ∧
         t.hid.chg.stepAt = s.ms) ∧
       (30000 < va ∨ 30000 < vb ∨ 30000 < vc → Bumped CHG.COUNT.WELDS s t ∧ t.hid.chg.welded = true ∧ Counted 122 0 s
         t) ∧ Keeps [] ([0x07, 0x0B, 0x0D] ++ ledgerPages) s t) ∧
  (∀ (s : State) (va vb vc vfe : Nat),
     s.awake = true → s.f CHG.CFG.EN = 1 ∧ s.chgState = 3 → s.hid.chg.step = 2 →
     9 * va ≤ 10 * vfe ∧ s.ms - s.hid.chg.stepAt ≤ s.f CHG.TIMES.PRE_MS →
     Completes (.connectingStep va vb vc vfe) s fun t =>
       t.f CHG.STATUS.RLY = 15 ∧ t.hid.chg.step = 3 ∧ t.hid.chg.stepAt = s.ms ∧ t.chgState = 3 ∧
       Keeps [CHG.STATUS] [] s t) ∧
  (∀ (s : State),
     s.awake = true → s.f CHG.CFG.EN = 1 →
     Completes (.chargeLimitUpdate) s fun t =>
       t.f FLD.AFE_LIM.I_GRID_MAX = min 1023 (min (min s.iCp (10 * s.f CHG.PP.I_PP)) (s.f CHG.REQ.I_GRID_HOST)) ∧
       t.f CHG.PILOT.I_CP = min 1023 s.iCp ∧
       (s.chgState = 5 → s.f CHG.LIMITS.I_CELL < 192 → t.rd (LAT.TARGET (s.f CHG.LIMITS.I_CELL)) = 0) ∧
       (s.chgState = 3 ∨ s.chgState = 4 → s.iCp = 0 → t.chgState = 5) ∧
       Keeps [FLD.AFE_LIM] [0x01, 0x07, 0x0B, 0x0C, 0x0D, 0x14] s t) ∧
  (∀ (s : State),
     s.awake = true → s.f CHG.CFG.EN = 1 ∧ s.chgState = 5 → s.hid.chg.emergency = false ∧ s.hid.chg.relAt = none →
     Completes (.normalStopComplete) s fun t =>
       t.f CHG.STATUS.RLY = 0 ∧ t.f CHG.STATUS.CP_S2 = 0 ∧ t.hid.chg.relAt = some s.ms ∧ t.chgState = 5 ∧
       Keeps [] ledgerPages s t) ∧
  (∀ (s : State) (peak at_ : Nat),
     s.awake = true → s.chgState = 5 → s.hid.chg.relAt = some at_ ∧ s.f CHG.TIMES.RLY_REL_MS + 20 ≤ s.ms - at_ →
     peak < 30000 → s.f CHG.PP.R ≤ 10000 →
     Completes (.relayReleaseCheck peak) s fun t =>
       (t.chgState = if s.hid.chg.toFault then 6 else 2) ∧
       t.f ACT.CPL_STAT.INHIBIT = 0 ∧ t.f MTR.STATUS.SESSION_OPEN = 0 ∧
       t.hid.chg.step = 0 ∧ t.hid.chg.relAt = none ∧ t.hid.chg.welded = false ∧
       t.f CHG.COUNT.WELDS = s.f CHG.COUNT.WELDS ∧ Keeps [CHG.STATUS, ACT.CPL_STAT] [0x01, 0x0D, 0x14] s t) ∧
  (∀ (s : State),
     s.awake = true → s.hid.chg.welded = true → s.chgState ≠ 5 →
     Completes (.weldInhibitClear) s fun t =>
       t.f ACT.CPL_STAT.INHIBIT = 0 ∧ t.hid.chg.welded = false ∧ Keeps [ACT.CPL_STAT] [] s t)

/-- Energy (R330, R332), commits (R333), records (R334, R335, R337), acknowledgements (R338), time (R342). -/
def Obligations.Metering_counts_and_records : Prop :=
  (∀ (s : State) (x : SubWin),
     s.awake = true → s.present 8 = true → s.hid.mea.xfer.head? = some x → s.metering = true ∧ 0 < x.n →
     s.hid.mtr.lastSeq = some ((x.seq + 4294967295) % 4294967296) ∧ x.seq < 4294967296 →
     (s.hid.mtr.lastCyc = none ∨ s.hid.mtr.lastCyc = some x.cycle) → x.last = false →
     Completes (.energyAccumulate) s fun t =>
       t.hid.mea.xfer = s.hid.mea.xfer.tail ∧ t.hid.mtr.lastSeq = some x.seq ∧
       t.hid.mtr.regs = s.hid.mtr.regs ∧ t.hid.mtr.resid = s.hid.mtr.resid ∧
       t.hid.mtr.unlHere = (s.hid.mtr.unlHere || !x.locked) ∧ Keeps [] [] s t) ∧
  (∀ (s : State),
     s.awake = true → s.present 8 = true → s.metering = true → s.atBoundary = true →
     s.f MTR.LAST.RSEQ - s.f MTR.ACK.RSEQ < 15360 →
     Completes (.intervalRecord) s fun t =>
       t.f MTR.LAST.RSEQ = (s.f MTR.LAST.RSEQ + 1) % 4294967296 ∧
       t.hid.mtr.ring = ringPush 16384 s.hid.mtr.ring (s.record (s.f MTR.LAST.RSEQ + 1) 1 s.hid.mtr.ivl false none) ∧
       t.hid.mtr.ivl = s.hid.mtr.now ∧ t.hid.mtr.commit = s.hid.mtr.regs ∧ Keeps [MTR.LAST, MTR.STATUS] eventPages s t) ∧
  (∀ (s : State),
     s.awake = true → s.present 8 = true →
     Completes (.registerCommit) s fun t =>
       t.hid.mtr.commit = s.hid.mtr.regs ∧ t.hid.mtr.commitRes = s.hid.mtr.resid ∧ t.hid.mtr.regs = s.hid.mtr.regs ∧
       Keeps [] [] s t) ∧
  (∀ (s : State) (v : Via) (x : Word),
     s.accepts v [(MTR.ACK, x)] = true →
     Completes (.recordAck v x) s fun t =>
       t.f MTR.ACK.RSEQ = x.toNat ∧ (s.f MTR.LAST.RSEQ - x.toNat < 16384 → t.f MTR.STATUS.RING_FULL = 0) ∧
       Keeps [MTR.ACK, MTR.STATUS] [0x01, 0x14] s t) ∧
  (∀ (s : State) (v : Via) (x : Word),
     s.accepts v [(MTR.TIME_HI, x)] = true →
     Completes (.timeSet v x) s fun t =>
       t.hid.mtr.utc = some (x.toNat * 4294967296 + (s.rd MTR.TIME_LO).toNat) ∧
       (s.metering = true → s.f MTR.LAST.RSEQ - s.f MTR.ACK.RSEQ < 15360 → t.f MTR.LAST.RSEQ = (s.f MTR.LAST.RSEQ + 1)
         % 4294967296) ∧ Keeps [MTR.TIME_HI, MTR.LAST, MTR.STATUS] [0x01, 0x14] s t)

/-- Converters (R347, R353, R354) and the power path (R356, R357, R359, R361, R362, R364 to R366). -/
def Obligations.Converters_and_power_path : Prop :=
  (∀ (s : State) (c : Fin 72) (hi : Nat),
     s.awake = true → s.present 1 = true → s.hid.cnv.crossing = [(c.val, hi)] →
     Completes (.thresholdUpdate) s fun t =>
       t.f (TRP.THR.THR_HI c) = hi % 65536 ∧ t.f (TRP.THR.THR_LO c) = s.f (TRP.THR.THR_LO c) ∧
       t.hid.cnv.crossing = [] ∧ (∀ a, a ≠ TRP.THR c → a / 65536 ∉ ledgerPages → t.rd a = s.rd a) ∧
       (∀ j o, j ≠ 0x40 ∨ o / 20 ≠ c.val → t.tb j o = s.tb j o)) ∧
  (∀ (s : State),
     s.awake = true → s.present 1 = true → s.f CNV.BUCK_STAT.HICCUP = 1 →
     s.hid.cnv.hiccupAt + s.f CNV.HICCUP.OFF_MS * 1000 ≤ s.hid.now →
     Completes (.hiccupEnd) s fun t =>
       t.f CNV.BUCK_STAT.HICCUP = 0 ∧ t.hid.cnv.limited = 0 ∧ t.f CNV.BUCK_STAT.HICCUPS = s.f CNV.BUCK_STAT.HICCUPS ∧
       Keeps [CNV.BUCK_STAT] [] s t) ∧
  (∀ (s : State) (v : Via) (x : Word),
     s.accepts v [(CNV.VSET, x)] = true → s.f CNV.VSCALE.VCELL < 192 →
     Completes (.vsetWrite v x) s fun t =>
       t.rd CNV.VSET = x ∧
       t.rd (LAT.TARGET (s.f CNV.VSCALE.VCELL)) = BitVec.ofNat 32 (min 0x7FFFFFFF (bitsOf x 31 16 * s.f
         CNV.VSCALE.VSCALE * 64 / 100)) ∧
       (bitsOf x 15 0 = 0 → t.rd (LAT.RAMP (s.f CNV.VSCALE.VCELL)) = s.rd (LAT.RAMP (s.f CNV.VSCALE.VCELL))) ∧
       Keeps [CNV.VSET, LAT.TARGET (s.f CNV.VSCALE.VCELL), LAT.RAMP (s.f CNV.VSCALE.VCELL), LAT.CELL_STAT (s.f
         CNV.VSCALE.VCELL), LAT.STATUS] [0x01, 0x14] s t) ∧
  (∀ (s : State),
     s.awake = true → s.gst llcGroup = .running → s.hid.lvp.cand = (1, 0) ∧ 2 ≤ s.hid.lvp.candN →
     s.f LVP.STATUS.SRC ≠ 1 →
     Completes (.sourceClassify) s fun t =>
       t.f LVP.STATUS.SRC = 1 ∧ t.f LVP.STATUS.SRC_CLASS = 0 ∧ t.f LVP.INT_STAT.SRC_CHANGE = 1 ∧
       t.f LVP.STATUS.TIMER_EXP = 0 ∧ t.f LVP.TIMER_STAT.ELAPSED = 0 ∧ t.f LVP.STATUS.CSTATE = s.f LVP.STATUS.CSTATE ∧
       Keeps [LVP.STATUS, LVP.INT_STAT, LVP.TIMER_STAT, LAT.TARGET (s.f LVP.CFG.INCELL), LAT.CELL_STAT (s.f
         LVP.CFG.INCELL), LAT.STATUS] eventPages s t) ∧
  (∀ (s : State) (v : Via),
     s.accepts v [(LVP.CMD, withBits (s.keepWord LVP.CMD) 31 28 1)] = true →
     Completes (.chargeStart v) s fun t =>
       t.f LVP.STATUS.CSTATE = 1 ∧ t.f LVP.STATUS.BSW = s.f LVP.STATUS.BSW ∧ t.f LVP.STATUS.SRC = s.f LVP.STATUS.SRC ∧
       t.hid.lvp.stageAt = s.ms ∧ Keeps [LVP.CMD, LVP.STATUS] [0x01, 0x07, 0x14] s t) ∧
  (∀ (s : State) (v : Via),
     s.accepts v [(LVP.CMD, withBits (s.keepWord LVP.CMD) 31 28 2)] = true →
     Completes (.chargeStop v) s fun t =>
       t.f LVP.STATUS.CSTATE = 0 ∧ t.f LVP.STATUS.BSW = s.f LVP.STATUS.BSW ∧ t.f LVP.STATUS.SRC = s.f LVP.STATUS.SRC ∧
       Keeps [LVP.CMD, LVP.STATUS] [0x01, 0x07, 0x14] s t) ∧
  (∀ (s : State) (v : Via),
     s.accepts v [(LVP.CMD, withBits (s.keepWord LVP.CMD) 31 28 3)] = true →
     Completes (.bswClose v) s fun t =>
       t.f LVP.STATUS.BSW = 1 ∧ (s.f LVP.STATUS.BSW = 0 → t.f LVP.INT_STAT.BSW_CHANGE = 1) ∧
       Keeps [LVP.CMD, LVP.STATUS, LVP.INT_STAT] [0x01, 0x14] s t) ∧
  (∀ (s : State) (v : Via),
     s.accepts v [(LVP.CMD, withBits (s.keepWord LVP.CMD) 31 28 4)] = true →
     Completes (.bswOpen v) s fun t =>
       t.f LVP.STATUS.BSW = 0 ∧ (s.f LVP.STATUS.BSW = 1 → t.f LVP.INT_STAT.BSW_CHANGE = 1) ∧
       Keeps [LVP.CMD, LVP.STATUS, LVP.INT_STAT] [0x01, 0x14] s t) ∧
  (∀ (s : State) (v : Via),
     s.accepts v [(LVP.CMD, withBits (s.keepWord LVP.CMD) 31 28 5)] = true →
     Completes (.ship v) s fun t =>
       t.dev = 6 ∧ t.f LVP.STATUS.BSW = 0 ∧ t.hid.cmd.sessions = [] ∧
       (∀ n < 16, n ≠ 10 → n ≠ 15 → t.f (SYS.ISLAND.STATE n) = 4) ∧ Keeps [] [0x00, 0x01, 0x0F, 0x14] s t) ∧
  (∀ (s : State) (v : Via),
     s.accepts v [(LVP.CMD, withBits (s.keepWord LVP.CMD) 31 28 6)] = true →
     Completes (.timerReset v) s fun t =>
       t.f LVP.STATUS.TIMER_EXP = 0 ∧ t.f LVP.TIMER_STAT.ELAPSED = 0 ∧
       t.f LVP.TIMER_STAT.EXPIRIES = s.f LVP.TIMER_STAT.EXPIRIES ∧
       Keeps [LVP.CMD, LVP.STATUS, LVP.TIMER_STAT] [0x01, 0x14] s t) ∧
  (∀ (s : State),
     s.awake = true → (s.f LVP.STATUS.CSTATE = 1 ∨ s.f LVP.STATUS.CSTATE = 2 ∨ s.f LVP.STATUS.CSTATE = 4) →
     s.hid.lvp.stageAt + s.f LVP.PULSE.PULSE_S * 1000 ≤ s.ms →
     Completes (.chargerRest) s fun t =>
       t.f LVP.STATUS.CSTATE = 3 ∧ t.hid.lvp.restFrom = s.f LVP.STATUS.CSTATE ∧
       (s.f LVP.CFG.ICELL < 192 → t.rd (LAT.TARGET (s.f LVP.CFG.ICELL)) = 0) ∧
       Keeps [LVP.STATUS, LAT.TARGET (s.f LVP.CFG.ICELL), LAT.CELL_STAT (s.f LVP.CFG.ICELL), LAT.STATUS] [] s t) ∧
  (∀ (s : State) (ocv : Nat),
     s.awake = true → s.f LVP.STATUS.CSTATE = 3 → s.hid.lvp.stageAt + s.f LVP.PULSE.REST_MS * 10 ≤ s.ms →
     s.hid.lvp.restFrom ≠ 4 ∧ s.hid.lvp.ocvs ≠ [] → ocv = s.hid.lvp.ocvs.sum / s.hid.lvp.ocvs.length →
     s.f LVP.VLIM.V_FULL ≤ ocv →
     Completes (.restEnd) s fun t =>
       t.f LVP.STATUS.CSTATE = 4 ∧ t.f LVP.STATUS.OCV = min ocv 65535 ∧ t.f LVP.INT_STAT.CHG_DONE = 1 ∧
       t.hid.lvp.ocvs = [] ∧ Keeps [LVP.STATUS, LVP.INT_STAT] [0x07] s t) ∧
  (∀ (s : State),
     s.awake = true → s.f LVP.STATUS.CSTATE = 2 → 60000 ≤ s.hid.lvp.term →
     Completes (.cvTermination) s fun t =>
       t.f LVP.STATUS.CSTATE = 4 ∧ t.f LVP.INT_STAT.CHG_DONE = 1 ∧ Keeps [LVP.STATUS, LVP.INT_STAT] [0x07] s t) ∧
  (∀ (s : State),
     s.awake = true → (s.f LVP.STATUS.CSTATE = 1 ∨ s.f LVP.STATUS.CSTATE = 2 ∨ s.f LVP.STATUS.CSTATE = 3) →
     min 0xFFFF (s.f LVP.TIMER.LIMIT * 60) ≤ s.f LVP.TIMER_STAT.ELAPSED →
     Completes (.lvpTimer) s fun t =>
       t.f LVP.STATUS.CSTATE = 5 ∧ t.f LVP.STATUS.TIMER_EXP = 1 ∧ t.f LVP.INT_STAT.TIMER = 1 ∧
       Bumped LVP.TIMER_STAT.EXPIRIES s t ∧ (s.f LVP.CFG.ICELL < 192 → t.rd (LAT.TARGET (s.f LVP.CFG.ICELL)) = 0) ∧
       Counted 150 0 s t ∧ Keeps [LVP.STATUS, LVP.INT_STAT, LVP.TIMER_STAT] (0x07 :: ledgerPages) s t) ∧
  (∀ (s : State) (ms : Nat),
     s.awake = true → s.f LVP.BTN.LONG_S * 1000 ≤ ms →
     ((groups.any fun g => s.active g && g != llcGroup && g != s.buckGroup) = false) →
     Completes (.longPress ms) s fun t =>
       t.f LVP.INT_STAT.LONG_PRESS = 1 ∧ t.f LVP.STATUS.BSW = 0 ∧ t.hid.lvp.longOpen = some s.ms ∧
       Keeps [LVP.STATUS, LVP.INT_STAT] eventPages s t) ∧
  (∀ (s : State) (v : Via) (x : Word),
     s.accepts v [(LVP.INT_STAT, x)] = true →
     Completes (.intStatClear v x) s fun t =>
       (∀ n < 8, bit x.toNat n = true → bit (t.rd LVP.INT_STAT).toNat n = false) ∧
       (∀ n < 8, bit x.toNat n = false → bit (t.rd LVP.INT_STAT).toNat n = bit (s.rd LVP.INT_STAT).toNat n) ∧
       Keeps [LVP.INT_STAT] [0x01, 0x14] s t) ∧
  (∀ (s : State) (code : Nat),
     s.awake = true → code = (s.usable (s.f LVP.SLOTS.TBATT_SLOT) 0).getD 0 →
     Completes (.foldback) s fun t =>
       (s.f LVP.FOLD.FOLD_ON < code → t.f LVP.STATUS.FOLDBACK = 1) ∧
       (code ≤ s.f LVP.FOLD.FOLD_ON → code < s.f LVP.FOLD.FOLD_OFF → t.f LVP.STATUS.FOLDBACK = 0) ∧
       (code ≤ s.f LVP.FOLD.FOLD_ON → s.f LVP.FOLD.FOLD_OFF ≤ code → t.f LVP.STATUS.FOLDBACK = s.f
         LVP.STATUS.FOLDBACK) ∧ t.f LVP.STATUS.CSTATE = s.f LVP.STATUS.CSTATE ∧
       Keeps [LVP.STATUS, LAT.TARGET (s.f LVP.CFG.ICELL), LAT.CELL_STAT (s.f LVP.CFG.ICELL), LAT.STATUS] [] s t)

/-- Safe inputs (R382, R385, R386), test pulses (R387, R388), sensor supplies (R389). The grid of the test pulses is
log entry 16. -/
def Obligations.Safe_inputs_and_supplies : Prop :=
  (∀ (s : State) (i f : Fin 8) (us : Nat),
     s.awake = true → s.f (SAF.SIN.FILTER i) + 1 ≤ us → f.val ∈ [1, 2, 3, 5, 6, 7] →
     s.f (SAF.FUNC_CFG.EN f) = 1 ∧ bit (s.f (SAF.FUNC_CFG.SIN_MASK f)) i = true → s.f (SAF.SIN.EN i) = 1 →
     ((s.func f).trig = 0) →
     Completes (.safeInputDemand i us) s fun t =>
       t.f (SAF.SIN.LEVEL i) = 0 ∧ t.f (SAF.SIN.DEMAND i) = 1 ∧
       (s.f (SAF.SIN.DEMAND i) = 0 → Bumped (SAF.SIN.COUNT i) s t) ∧ (t.funcActive f = true) ∧
       t.f (SAF.SIN.FAULT i) = s.f (SAF.SIN.FAULT i) ∧
       (∀ j < 8, j ≠ i.val → t.f (SAF.SIN.LEVEL j) = s.f (SAF.SIN.LEVEL j) ∧ t.f (SAF.SIN.FAULT j) = s.f
         (SAF.SIN.FAULT j)) ∧ Keeps [] ([0x0A, 0x0B] ++ ledgerPages) s t) ∧
  (∀ (s : State) (i : Fin 8),
     s.awake = true → s.f (SAF.SIN.FAULT i) = 0 ∧ s.f (SAF.SIN.PAIR i) = 0 →
     s.f (SAF.SSUP.OC (s.f (SAF.SIN.SUP i))) = 0 →
     Completes (.safeInputRelease i) s fun t =>
       t.f (SAF.SIN.LEVEL i) = 1 ∧ t.f (SAF.SIN.DEMAND i) = 0 ∧ t.f (SAF.SIN.COUNT i) = s.f (SAF.SIN.COUNT i) ∧
       (∀ j < 8, j ≠ i.val → t.f (SAF.SIN.LEVEL j) = s.f (SAF.SIN.LEVEL j) ∧ t.f (SAF.SIN.FAULT j) = s.f
         (SAF.SIN.FAULT j)) ∧ Keeps [] ([0x0A, 0x0B] ++ ledgerPages) s t) ∧
  (∀ (s : State) (k : Fin 4) (low short : BitVec 8) (at_ : Nat),
     s.awake = true → s.f (SAF.SSUP.EN k) = 1 ∧ s.f (SAF.SSUP.OC k) = 0 → s.pulseDue k at_ = true →
     Completes (.testPulse k low short at_) s fun t =>
       t.f (SAF.SSUP.PULSES k) = (s.f (SAF.SSUP.PULSES k) + 1) % 65536 ∧
       (∀ i < 8, s.checks i = true → s.f (SAF.SIN.SUP i) = k → bit low.toNat i = false → t.f (SAF.SIN.FAULT i) = 1) ∧
       (∀ i < 8, s.checks i = true → s.f (SAF.SIN.SUP i) ≠ k → bit short.toNat i = true → t.f (SAF.SIN.FAULT i) = 1) ∧
       (∀ i < 8, s.f (SAF.SIN.FAULT i) = 0 → (s.checks i = true → s.f (SAF.SIN.SUP i) = k → bit low.toNat i = true) →
         (s.checks i = true → s.f (SAF.SIN.SUP i) ≠ k → bit short.toNat i = false) → t.f (SAF.SIN.FAULT i) = 0) ∧
       Keeps [] ([0x0A, 0x0B] ++ ledgerPages) s t) ∧
  (∀ (s : State) (i : Fin 8) (ms : Nat),
     s.awake = true → s.f (SAF.SIN.EN i) = 1 ∧ s.f (SAF.SIN.EN (i.val ^^^ 1)) = 1 →
     s.f (SAF.SIN.PAIR i) = 1 ∧ s.f (SAF.SIN.PAIR (i.val ^^^ 1)) = 1 →
     s.f (SAF.SIN.LEVEL i) ≠ s.f (SAF.SIN.LEVEL (i.val ^^^ 1)) → s.f (SAF.SIN.DISC i) < ms →
     Completes (.safInDisc i ms) s fun t =>
       Counted 162 0 s t ∧
       (s.lasting 162 0 = false → t.lasting 162 0 = true → t.f (SAF.SIN.FAULT i) = 1 ∧ t.f (SAF.SIN.FAULT (i.val ^^^
         1)) = 1) ∧ t.f (SAF.SIN.LEVEL i) = s.f (SAF.SIN.LEVEL i) ∧ Keeps [] ([0x0A, 0x0B] ++ ledgerPages) s t) ∧
  (∀ (s : State) (k : Fin 4),
     s.awake = true → s.f (SAF.SSUP.EN k) = 1 ∧ s.f (SAF.SSUP.OC k) = 0 →
     Completes (.safSsupOc k) s fun t =>
       t.f (SAF.SSUP.OC k) = 1 ∧ Counted 163 0 s t ∧ (∀ i < 8, s.f (SAF.SIN.SUP i) = k → t.f (SAF.SIN.LEVEL i) = 0) ∧
       (∀ i < 8, s.f (SAF.SIN.SUP i) ≠ k → t.f (SAF.SIN.LEVEL i) = s.f (SAF.SIN.LEVEL i)) ∧
       Keeps [] ([0x0A, 0x0B] ++ ledgerPages) s t) ∧
  (∀ (s : State) (v : Via) (k : Fin 4),
     s.accepts v [(SAF.SSUP k, withBits (s.keepWord (SAF.SSUP k)) 30 30 1)] = true →
     Completes (.ssupOcClear v k) s fun t =>
       t.f (SAF.SSUP.OC k) = 0 ∧ t.f (SAF.SSUP.EN k) = s.f (SAF.SSUP.EN k) ∧ Keeps [SAF.SSUP k] [0x01, 0x14] s t) ∧
  (∀ (s : State) (v : Via) (i : Fin 8),
     s.accepts v [(SAF.SIN i, withBits (s.keepWord (SAF.SIN i)) 12 12 1)] = true → s.f (SAF.SIN.FAULT i) = 1 →
     Completes (.sinFaultClear v i) s fun t =>
       (mget ({} : SinSt) t.hid.saf.sins i) = ⟨0, true⟩ ∧ t.f (SAF.SIN.FAULT i) = 1 ∧
       t.f (SAF.SIN.LEVEL i) = s.f (SAF.SIN.LEVEL i) ∧ Keeps [] ledgerPages s t)

/-- Diagnostics (R371, R372), triggers (R375), safe stop (R377), safe park (R380), safe messages (R392 to R394, R396).
-/
def Obligations.Safety_controller_reacts : Prop :=
  (∀ (s : State),
     s.awake = true →
     Completes (.heartbeatLost) s fun t =>
       t.f SAF.DIAG.HB_LOST = 1 ∧ Bumped SAF.DIAG.HB_COUNT s t ∧
       (∀ g < 32, s.gst g = .armed ∨ s.gst g = .running ∨ s.gst g = .tripped → t.gst g = .safe) ∧ Counted 160 0 s t ∧
       Keeps [] ledgerPages s t) ∧
  (∀ (s : State),
     s.awake = true →
     Completes (.logicMismatch) s fun t =>
       t.f SAF.DIAG.LOGIC_MISMATCH = 1 ∧ t.f SAF.DIAG.HB_COUNT = s.f SAF.DIAG.HB_COUNT ∧ Counted 160 0 s t ∧
       Keeps [] ledgerPages s t) ∧
  (∀ (s : State) (bytes : List Byte),
     bytes.length ≤ 1472 → s.awake = true → s.cd0Reads = true → s.f SAF.MSG_CFG.EN = 1 →
     s.legIn 0 = true ∧ s.legIn 1 = false → copyForm bytes = true →
     msgField bytes 28 4 = msgCrc (s.f SAF.MSG_CFG1.DATA_ID) (bytes.take 28) →
     (s.leg 0).last = none ∧ (s.leg 0).cand = none →
     Completes (.safeMessageCopy .can bytes) s fun t =>
       t.f SAF.STATUS.MSG_OK = 1 ∧ t.f SAF.MSG_STAT.COUNTER = msgField bytes 2 2 ∧
       (t.leg 0).last = some (msgField bytes 2 2) ∧
       (∀ m < 2, s.f (FLD.MCH_CFG.TQ_SRC m) = 1 → s.present (2 + m) = true → t.rd (FLD.TQ_REQ m) = BitVec.ofNat 32
         (msgField bytes (4 + 4 * m) 4)) ∧ Keeps [FLD.TQ_REQ 0, FLD.TQ_REQ 1] ([0x0A, 0x0B] ++ ledgerPages) s t) ∧
  (∀ (s : State) (bytes : List Byte),
     bytes.length ≤ 1472 → s.awake = true → s.cd0Reads = true → s.f SAF.MSG_CFG.EN = 1 → copyForm bytes = true →
     msgField bytes 28 4 ≠ msgCrc (s.f SAF.MSG_CFG1.DATA_ID) (bytes.take 28) →
     Completes (.safeMessageCopy .can bytes) s fun t =>
       Bumped SAF.MSG_ERR.CRC_ERR s t ∧ t.f SAF.MSG_STAT.COUNTER = s.f SAF.MSG_STAT.COUNTER ∧
       (t.leg 0).last = (s.leg 0).last ∧ Counted 164 0 s t ∧ Keeps [] ledgerPages s t) ∧
  (∀ (s : State) (leg : Fin 2) (x : List Byte × MsgLeg × Nat),
     s.awake = true → s.cd0Reads = true →
     (s.leg leg).wait.head? = some x ∧ x.2.2 + s.f SAF.MSG_CFG.SKEW * 1000 ≤ s.hid.now →
     s.legIn 0 = true ∧ s.legIn 1 = true →
     Completes (.skewExpiry leg) s fun t =>
       (t.leg leg).wait = (s.leg leg).wait.tail ∧ (t.leg (1 - leg.val)).paired = 0 ∧ Counted 164 (1 - leg.val) s t ∧
       Keeps [] ledgerPages s t) ∧
  (∀ (s : State),
     s.awake = true → s.cd0Reads = true → s.f SAF.MSG_CFG.EN = 1 →
     Completes (.statusMessageSend) s fun t =>
       t.hid.saf.stat = (s.hid.saf.stat + 1) % 65536 ∧ t.f SAF.MSG_STAT.COUNTER = s.f SAF.MSG_STAT.COUNTER ∧
       Keeps [] [0x14] s t) ∧
  (∀ (s : State),
     s.awake = true → s.cd0Reads = true → s.f SAF.MSG_CFG.EN = 1 →
     ((s.func s.lossFunc).by_.contains 0x1FFFF = false) → s.hid.saf.msgAt + s.f SAF.MSG_CFG.TIMEOUT < s.ms →
     Completes (.safMsgTimeout) s fun t =>
       t.f SAF.STATUS.MSG_OK = 0 ∧ Bumped SAF.MSG_ERR.TIMEOUTS s t ∧ (t.funcActive s.lossFunc = true) ∧
       Counted 166 0 s t ∧ Keeps [] ([0x0A, 0x0B] ++ ledgerPages) s t) ∧
  (∀ (s : State) (v : Via) (x : Word),
     s.accepts v [(SAF.HOST_REQ, x)] = true → ((s.func 1).trig = 0) → s.f (SAF.FUNC_CFG.EN 1) = 1 →
     Completes (.hostReq v x) s fun t =>
       t.f SAF.HOST_REQ.STO = bitsOf x 31 31 ∧ (bitsOf x 31 31 = 1 → t.funcActive 1 = true) ∧
       (bitsOf x 31 31 = 1 → ∀ g ∈ s.funcMask 1, s.active g = true → t.gst g = .safe) ∧
       Keeps [] ([0x0A, 0x0B] ++ ledgerPages) s t) ∧
  (∀ (s : State) (g : Fin 32) (r : Ss1),
     s.awake = true → s.cd0Reads = true → (s.grp g).ss1 = some r ∧ r.since + s.f (SAF.FUNC_CFG.PARAM 2) ≤ s.ms →
     s.active g = true →
     Completes (.ss1Timeout g) s fun t =>
       t.gst g = .safe ∧ (t.grp g).ss1 = none ∧ (∀ h < 32, h ≠ g.val → t.gst h = s.gst h) ∧ Keeps [] ledgerPages s t) ∧
  (∀ (s : State),
     s.awake = true → s.cd0Reads = true → (s.funcActive 6 = true) → s.hid.saf.parkOk = false →
     s.f (ACT.STAT.STATE 0) ≠ 3 ∧ s.present 5 = true →
     Completes (.safeParkRetry) s fun t =>
       ((s.speedBar (s.f ACT.SPEEDS.PARK_RPM)).isSome = true → Bumped ACT.STATUS.PARK_REFUSED s t ∧ t.hid.saf.parkOk =
         false) ∧
       ((s.speedBar (s.f ACT.SPEEDS.PARK_RPM)).isSome = false → t.hid.saf.parkOk = true ∧ t.f ACT.STATUS.PARK_REFUSED
         = s.f ACT.STATUS.PARK_REFUSED) ∧ Keeps [ACT.STATUS, ACT.STAT 0] eventPages s t) ∧
  (∀ (s : State) (at_ : Nat),
     s.awake = true → s.cd0Reads = true → (s.funcActive 6 = true) → s.f (ACT.STAT.PARK 0) ≠ 2 →
     s.hid.saf.parkAt = some at_ ∧ at_ + s.f (SAF.FUNC_CFG.PARAM 6) ≤ s.ms →
     Completes (.safParkFail) s fun t =>
       Counted 168 0 s t ∧ t.f (ACT.STAT.PARK 0) = s.f (ACT.STAT.PARK 0) ∧ t.hid.saf.parkAt = none ∧
       Keeps [] ([0x0A, 0x0B] ++ ledgerPages) s t)

/-- Reception and log (R440, R443, R444, R446), transmission (R448), error states (R449 to R451), enabling (R442). -/
def Obligations.Can_controllers_log_and_send : Prop :=
  (∀ (s : State) (n : Fin 4) (f : CanFrame) (sof : Nat),
     f.wf = true → s.awake = true → s.present 9 = true → s.canTakes n f = true →
     (f.typ ≠ 2 ∨ f.id ≠ s.f CMD.CANXL_CFG1.REQ_ID) →
     ((s.can n).log.filter (s.logHeld n)).length < 1024 ∧ s.heldUnits n + (f.data.length + 63) / 64 ≤ 4096 →
     Completes (.canFrameReceived n f sof) s fun t =>
       (t.can n).next = (s.can n).next + 1 ∧
       (t.can n).log.getLast? = some ⟨(s.can n).next, s.netTime - sof, f, false, (s.can n).dropped, (s.can n).unit *
         64⟩ ∧ (t.can n).dropped = 0 ∧ t.f (BUS.RX_HEAD.RXSEQ n) = (s.can n).next % 4294967296 ∧
       t.f (BUS.RX_STAT.LOST n) = s.f (BUS.RX_STAT.LOST n)) ∧
  (∀ (s : State) (n : Fin 4) (f : CanFrame) (sof : Nat),
     f.wf = true → s.awake = true → s.present 9 = true → s.canTakes n f = true →
     ((f.typ = 0 ∧ f.id ≠ s.f BUS.TIME_CFG.REF_ID) ∨ (f.typ = 1 ∧ f.id ≠ s.f SAF.MSG_CFG.CAN_ID) ∨ (f.typ = 2 ∧ f.id ≠
       s.f CMD.CANXL_CFG1.REQ_ID)) →
     ((s.can n).log.filter (s.logHeld n)).length < 1024 ∧ s.heldUnits n + (f.data.length + 63) / 64 ≤ 4096 →
     (((s.can n).log.all fun e => decide (e.rxseq < (s.can n).cd0) && decide (e.rxseq < (s.can n).cd2)) = true) →
     Completes (.canFrameReceived n f sof) s fun t =>
       (t.can n).tx = (s.can n).tx ∧ (s.cd2Reads = true → (t.can n).cd2 = (s.can n).next + 1) ∧
       Keeps [BUS.RX_HEAD n, BUS.RX_STAT n, BUS.WIN n] [] s t) ∧
  (∀ (s : State) (n : Fin 4) (f : CanFrame) (sof : Nat),
     f.wf = true → s.awake = true → s.present 9 = true → s.canTakes n f = true →
     s.cd0Reads = false ∧ s.cd2Reads = false →
     (1024 ≤ ((s.can n).log.filter (s.logHeld n)).length ∨ 4096 < s.heldUnits n + (f.data.length + 63) / 64) →
     Completes (.canFrameReceived n f sof) s fun t =>
       (t.can n).next = (s.can n).next ∧ (t.can n).dropped = (s.can n).dropped + 1 ∧ Bumped (BUS.RX_STAT.LOST n) s t ∧
       Counted 204 0 s t ∧ (t.can n).log = (s.can n).log ∧ Keeps [BUS.RX_STAT n] ledgerPages s t) ∧
  (∀ (s : State) (n : Fin 4) (sof : Nat) (u : TxFrame),
     s.awake = true → s.present 9 = true →
     s.f (BUS.CTRL.EN n) = 1 ∧ s.f (BUS.CTRL.MODE n) = 0 ∧ s.f (BUS.STAT.STATE n) < 2 →
     (((s.can n).tx.all fun x => decide (s.hid.now < x.born + x.life)) = true) → (s.can n).tx.head? = some u →
     (((s.can n).log.all fun e => decide (e.rxseq < (s.can n).cd0) && decide (e.rxseq < (s.can n).cd2)) = true) →
     ((s.can n).log.filter (s.logHeld n)).length < 1024 ∧ s.heldUnits n + (u.frame.data.length + 63) / 64 ≤ 4096 →
     Completes (.canFrameTransmitted n sof) s fun t =>
       (t.can n).tx = (s.can n).tx.tail ∧ t.f (BUS.TX_STAT.QUEUED n) = (s.can n).tx.tail.length % 64 ∧
       (t.can n).log.getLast? = some ⟨(s.can n).next, s.netTime - sof, u.frame, true, (s.can n).dropped, (s.can
         n).unit * 64⟩ ∧ (s.cd0Reads = true → (t.can n).cd0 = (t.can n).next) ∧
       Keeps [BUS.TX_STAT n, BUS.RX_HEAD n, BUS.RX_STAT n, BUS.WIN n] [] s t) ∧
  (∀ (s : State) (n : Fin 4) (passive : Bool) (tec re : BitVec 8),
     s.awake = true → s.present 9 = true → s.f (BUS.STAT.STATE n) < 2 →
     Completes (.busState n passive tec re) s fun t =>
       t.f (BUS.STAT.STATE n) = b2n passive ∧ t.f (BUS.STAT.TEC n) = tec.toNat ∧ t.f (BUS.STAT.REC n) = re.toNat ∧
       t.f (BUS.STAT.BUS_OFFS n) = s.f (BUS.STAT.BUS_OFFS n) ∧ Keeps [] eventPages s t) ∧
  (∀ (s : State) (n : Fin 4) (re : BitVec 8),
     s.awake = true → s.present 9 = true → s.f (BUS.STAT.STATE n) < 2 →
     Completes (.busOff n re) s fun t =>
       t.f (BUS.STAT.STATE n) = 2 ∧ t.f (BUS.STAT.TEC n) = 255 ∧ t.f (BUS.STAT.REC n) = re.toNat ∧
       Bumped (BUS.STAT.BUS_OFFS n) s t ∧ (t.can n).recov = false ∧
       (s.f CMD.EVENT_CFG.ROUTE_CANXL = 0 → (t.can n).tx = (s.can n).tx) ∧ Counted (200 + n) 0 s t ∧
       Keeps [] ledgerPages s t) ∧
  (∀ (s : State) (n : Fin 4),
     s.awake = true → s.present 9 = true → s.f (BUS.STAT.STATE n) = 2 →
     ((s.f (BUS.CTRL.AUTO_REC n) = 1 ∧ s.f (BUS.STAT.REC_HELD n) = 0) ∨ (s.can n).recov = true) →
     Completes (.busOffRecovery n) s fun t =>
       t.f (BUS.STAT.STATE n) = 0 ∧ t.f (BUS.STAT.TEC n) = 0 ∧ t.f (BUS.STAT.REC n) = 0 ∧
       (s.f CMD.EVENT_CFG.ROUTE_CANXL = 0 → (t.can n).tx = (s.can n).tx.filter fun x => decide (s.hid.now < x.born +
         x.life)) ∧ (t.can n).recov = false ∧ Keeps [] eventPages s t) ∧
  (∀ (s : State) (v : Via) (n : Fin 4),
     s.accepts v [(BUS.CTRL n, withBits (s.keepWord (BUS.CTRL n)) 25 25 1)] = true →
     Completes (.recover v n) s fun t =>
       t.f (BUS.STAT.REC_HELD n) = 0 ∧ (t.can n).recov = true ∧ t.f (BUS.STAT.STATE n) = s.f (BUS.STAT.STATE n) ∧
       Keeps [BUS.CTRL n, BUS.STAT n, BUS.RX_STAT n] [0x01, 0x14] s t) ∧
  (∀ (s : State) (v : Via) (n : Fin 4) (x : Word),
     s.accepts v [(BUS.RX_SEL n, x)] = true →
     Completes (.rxSelect v n x) s fun t =>
       t.rd (BUS.RX_SEL n) = x ∧
       (s.f (BUS.CTRL.WIN_MODE n) = 1 → t.f (BUS.WIN.NEW n) = 1 ∧ t.f (BUS.WIN.VALID n) = b2n ((s.can n).log.any fun e
         => decide (BitVec.ofNat 32 e.rxseq = x))) ∧ (t.can n).log = (s.can n).log ∧
       Keeps [BUS.RX_SEL n, BUS.WIN n, BUS.RX_STAT n] [0x01, 0x14] s t) ∧
  (∀ (s : State) (v : Via) (n : Fin 4) (x : Word),
     s.accepts v [(BUS.CTRL n, x)] = true → s.f (BUS.CTRL.EN n) = 0 ∧ bitsOf x 31 31 = 1 →
     Completes (.controllerEnable v n x) s fun t =>
       t.f (BUS.CTRL.EN n) = 1 ∧ t.f (BUS.STAT.STATE n) = 0 ∧ t.f (BUS.STAT.TEC n) = 0 ∧ t.f (BUS.STAT.REC n) = 0 ∧
       KeepsConfig [BUS.CTRL n, BUS.STAT n, BUS.RX_STAT n] [0x01, 0x14] s t)

/-- Network time (R452 to R454), Ethernet (R455 to R458). -/
def Obligations.Network_time_and_ethernet : Prop :=
  (∀ (s : State) (v : Via) (x : Word),
     s.accepts v [(BUS.TIME_HI, x)] = true →
     Completes (.networkTimeSet v x) s fun t =>
       t.hid.bus.time.ns = x.toNat * 4294967296 + (s.rd BUS.TIME_LO).toNat ∧ t.hid.bus.time.slew = 0 ∧
       Bumped BUS.TIME_STAT.STEPS s t ∧ Keeps [BUS.TIME_HI, BUS.TIME_STAT] [0x01, 0x14] s t) ∧
  (∀ (s : State),
     s.awake = true → s.present 9 = true → s.f BUS.TIME_CFG.EN = 1 ∧ s.f BUS.TIME_CFG.ROLE = 1 → s.refDue = true →
     (s.can (s.f BUS.TIME_CFG.CTRL)).tx.length < 32 →
     Completes (.referenceMessageSend) s fun t =>
       t.hid.bus.time.refSeq = (s.hid.bus.time.refSeq + 1) % 256 ∧
       t.hid.bus.time.prevTime = none ∧ t.hid.bus.time.refAt = some s.hid.now ∧
       (t.can (s.f BUS.TIME_CFG.CTRL)).tx.length = (s.can (s.f BUS.TIME_CFG.CTRL)).tx.length + 1 ∧
       Keeps [BUS.TX_STAT (s.f BUS.TIME_CFG.CTRL)] [] s t) ∧
  (∀ (s : State) (seq : Byte) (valid : Bool) (prev : BitVec 48) (time : Nat),
     s.awake = true → s.present 9 = true → s.cd2Reads = true → s.f BUS.TIME_CFG.EN = 1 ∧ s.f BUS.TIME_CFG.ROLE = 2 →
     Completes (.referenceMessage seq valid prev time) s fun t =>
       t.hid.bus.time.last = some (seq.toNat, time) ∧ t.hid.bus.time.before = s.hid.bus.time.last.map Prod.snd ∧
       (∀ x ∈ s.hid.bus.time.last.toList, valid = true → seq.toNat = (x.1 + 1) % 256 → s.f BUS.TIME_CFG.STEP_US * 1000
         < (diff48 prev.toNat x.2).natAbs → Bumped BUS.TIME_STAT.STEPS s t) ∧ Keeps [BUS.TIME_STAT] eventPages s t) ∧
  (∀ (s : State),
     s.awake = true → s.present 9 = true →
     s.f BUS.TIME_CFG.EN = 1 ∧ s.f BUS.TIME_CFG.ROLE = 2 ∧ s.f BUS.TIME_STAT.SYNCED = 1 →
     s.hid.bus.time.usedAt + 3000 * s.f BUS.TIME_CFG.PERIOD ≤ s.hid.now →
     Completes (.busTimeLoss) s fun t =>
       t.f BUS.TIME_STAT.SYNCED = 0 ∧ Bumped BUS.TIME_STAT.LOSSES s t ∧ Counted 205 0 s t ∧
       Keeps [BUS.TIME_STAT] ledgerPages s t) ∧
  (∀ (s : State) (p : Fin 2) (srcMac dstMac srcIp : Nat),
     (⟨srcMac, dstMac, srcIp, .arpReply⟩ : EthFrame).wf = true → s.awake = true → s.present 9 = true →
     s.f (NET.IF_CFG.EN p) = 1 → s.cd2Reads = true → dstMac = s.macOf p →
     Completes (.ethernetFrame p ⟨srcMac, dstMac, srcIp, .arpReply⟩) s fun t =>
       t.arpOf p srcIp = some ⟨p, srcIp, srcMac, s.hid.now⟩ ∧ Keeps [] [] s t) ∧
  (∀ (s : State) (p : Fin 2) (srcMac dstMac srcIp : Nat),
     (⟨srcMac, dstMac, srcIp, .other⟩ : EthFrame).wf = true → s.awake = true → s.present 9 = true →
     s.f (NET.IF_CFG.EN p) = 1 → s.cd2Reads = true →
     Completes (.ethernetFrame p ⟨srcMac, dstMac, srcIp, .other⟩) s fun t =>
       Bumped (NET.STAT.BAD_FRAME p) s t ∧ t.hid.bus.arp = s.hid.bus.arp ∧ Keeps [NET.STAT p] [] s t) ∧
  (∀ (s : State) (p : Fin 2) (level : Bool),
     s.awake = true → s.present 9 = true →
     Completes (.netLink p level) s fun t =>
       t.f (NET.STAT.LINK p) = b2n level ∧
       (s.f (NET.STAT.LINK p) = 1 → level = false → Bumped (NET.STAT.LINK_LOSSES p) s t ∧ Counted (210 + p) 0 s t) ∧
       (s.f (NET.STAT.LINK p) = b2n level → t = s) ∧ Keeps [NET.STAT p] ledgerPages s t) ∧
  (∀ (s : State) (ok : Bool),
     s.awake = true → s.present 9 = true → s.f (NET.IF_CFG.PLCA_EN 1) = 1 →
     Completes (.netPlca ok) s fun t =>
       t.f (NET.STAT.PLCA_OK 1) = b2n ok ∧ (s.f (NET.STAT.PLCA_OK 1) = 1 → ok = false → Counted 212 0 s t) ∧
       Keeps [NET.STAT 1] ledgerPages s t) ∧
  (∀ (s : State) (p : Fin 2) (ip : Nat),
     ip < 4294967296 → s.awake = true → s.present 9 = true →
     Completes (.arpAge p ip) s fun t =>
       (∀ x, x ∈ t.hid.bus.arp ↔ x ∈ s.hid.bus.arp ∧ ¬(x.phy = p ∧ x.ip = ip ∧ x.at_ + 60000000 ≤ s.hid.now)) ∧
       Keeps [] [] s t) ∧
  (∀ (s : State),
     s.awake = true → s.present 9 = true →
     s.f CMD.EVENT_CFG.ROUTE_UDP = 1 ∧ s.f (NET.IF_CFG.EN (s.f NET.EVT_PORT.IF)) = 1 →
     s.arpOf (s.f NET.EVT_PORT.IF) (s.f NET.EVT_DEST.IP) = none →
     ((s.hid.bus.arpAt.all fun x => decide (x + 1000000 ≤ s.hid.now)) = true) →
     Completes (.arpRetry) s fun t =>
       t.hid.bus.arpAt = some s.hid.now ∧
       t.hid.bus.out = s.hid.bus.out ++ [⟨s.f NET.EVT_PORT.IF, 0xFFFFFFFFFFFF, s.f NET.EVT_DEST.IP, 0, 0, [], 1⟩] ∧
       Keeps [] [] s t) ∧
  (∀ (s : State) (v : Via) (p : Fin 2) (x : Word),
     s.accepts v [(NET.IF_CFG p, x)] = true →
     Completes (.interfaceEnable v p x) s fun t =>
       t.f (NET.IF_CFG.EN p) = bitsOf x 31 31 ∧ t.f (NET.IF_CFG.ROLE p) = bitsOf x 30 30 ∧ t.f (NET.IF_CFG.PREFIX p) =
         bitsOf x 28 24 ∧ KeepsConfig [NET.IF_CFG p] [0x01, 0x14] s t)

/-- Transfers (R55), sessions (R59 to R61), the lock's end (R410), the outbound queue (R68, R69), legacy frames (R70).
-/
def Obligations.Sessions_and_frames_end : Prop :=
  (∀ (s : State) (id : Nat) (x : Session),
     s.awake = true → s.session id = some x ∧ x.opened = false ∧ x.at_ + 5000000 ≤ s.hid.now →
     Completes (.sessionPendingExpiry id) s fun t =>
       (t.hid.cmd.sessions = s.hid.cmd.sessions.filter fun y => y.id != id) ∧
       (t.f CMD.STATUS.SESSIONS_OPEN = (t.hid.cmd.sessions.filter fun y => y.opened).length % 16) ∧
       Keeps [CMD.STATUS] [] s t) ∧
  (∀ (s : State) (id : Nat) (x : Session),
     s.awake = true →
     s.session id = some x ∧ x.opened = true ∧ x.at_ + 1000000 * s.f CMD.SESSION_CFG.IDLE_TIMEOUT ≤ s.hid.now →
     Completes (.sessionIdleTimeout id) s fun t =>
       (t.hid.cmd.sessions = s.hid.cmd.sessions.filter fun y => y.id != id) ∧
       (t.f CMD.STATUS.SESSIONS_OPEN = (t.hid.cmd.sessions.filter fun y => y.opened).length % 16) ∧
       (t.f CMD.STATUS.INTEGRATOR_OPEN = b2n (t.hid.cmd.sessions.any fun y => y.opened && y.auth == authIntegrator)) ∧
       Keeps [CMD.STATUS] [] s t) ∧
  (∀ (s : State),
     s.awake = true → ((s.hid.cmd.lockEnd.any fun e => decide (e ≤ s.hid.now)) = true) →
     Completes (.sessionLockEnd) s fun t =>
       t.hid.cmd.lockEnd = none ∧ t.f CMD.STATUS.LOCK_REMAIN = 0 ∧ t.lasting 10 0 = false ∧
       Keeps [CMD.STATUS] (0x11 :: eventPages) s t) ∧
  (∀ (s : State) (id : Nat) (x : Session) (g : Seg),
     s.awake = true → s.session id = some x ∧ x.seg = some g ∧ g.last + 100000 ≤ s.hid.now →
     Completes (.segmentTimeout id) s fun t =>
       t.session id = some { x with seg := none, segLost := some g } ∧ Bumped CMD.STATS.SEG_ABANDONED s t ∧
       Keeps [CMD.STATUS, CMD.STATS] [] s t) ∧
  (∀ (s : State) (a : Nat) (r : RegSpec),
     s.legacyOpen = true → a < 2 ^ 24 ∧ regAt a = some r ∧ a ≠ BUS.TIME_LO → s.addrAbsent a = false →
     Completes (.legacyFrame (legacyWord (BitVec.ofNat 64 (a * 2 ^ 32)))) s fun t =>
       t.hid.cmd.legacy = legacyResult 0x80 a (s.hostRead r a) ∧ Keeps [] [] s t) ∧
  (∀ (s : State) (frame : BitVec 72),
     s.legacyOpen = true → legacyWord (BitVec.ofNat 64 (frame.toNat / 256)) ≠ frame →
     Completes (.legacyFrame frame) s fun t =>
       Bumped CMD.LEGACY_ERR.FRAMES_BAD s t ∧ t.hid.cmd.legacy = legacyResult 0 (frame.toNat / 2 ^ 40 % 16777216) 0 ∧
       Keeps [CMD.LEGACY_ERR] [] s t) ∧
  (∀ (s : State) (mosi : MosiKind) (clocked : Nat) (q : OutPkt),
     s.hid.lcy.held = false ∧ s.hid.lcy.resetSoon = false →
     s.linkOpen = true ∧ s.present 10 = true ∧ s.packetMode = true → s.que.spi.head? = some q →
     Completes (.chipSelectFrame mosi clocked) s fun t =>
       (t.que.spi = if q.bytes.length ≤ clocked then s.que.spi.tail else s.que.spi) ∧
       ((mosi = .noMagic → Bumped CMD.RX_ERR.BAD_MAGIC s t) ∧ (mosi = .truncated → Bumped CMD.RX_ERR.TRUNCATED s t)) ∧
       (t.hid.cmd.attn = if q.bytes.length ≤ clocked then !s.que.spi.tail.isEmpty else s.hid.cmd.attn) ∧
       Keeps [CMD.RX_ERR] [] s t)

/-- Packets (R35, R37), the order of the checks (R44), the tunnel (R71). -/
def Obligations.Tunnel_and_unknown_opcodes : Prop :=
  (∀ (s : State) (len : BitVec 13) (p : Packet),
     s.accepts .legacy [(CMD.TUNNEL_CTL, BitVec.ofNat 32 (2 ^ 31 + len.toNat))] = true →
     framed .tunnel (s.tunnelBytes len.toNat) 0 p = true → s.serves 0 p = true → p.flags = 0 →
     s.f CMD.TUNNEL_CTL.RX_VALID = 0 →
     Completes (.tunnelGo len) s fun t =>
       t.f CMD.TUNNEL_CTL.RX_VALID = 1 ∧ t.f CMD.TUNNEL_CTL.RX_LEN = 28 ∧ t.f CMD.TUNNEL_CTL.BUSY = 0 ∧
       t.hid.cmd.go = none ∧
       (∀ n < 7, t.rd (CMD.TUNNEL_RX n) = BitVec.ofNat 32 (leAt (replyPkt 0 p {}).bytes (4 * n) 4)) ∧
       Keeps [] [0x01] s t) ∧
  (∀ (s : State),
     s.accepts .legacy [(CMD.TUNNEL_CTL, 0x40000000)] = true → s.hid.cmd.tunnelWait = [] →
     Completes (.tunnelRxAck) s fun t =>
       t.f CMD.TUNNEL_CTL.RX_VALID = 0 ∧ t.hid.cmd.go = none ∧ Keeps [CMD.TUNNEL_CTL] [] s t) ∧
  (∀ (s : State) (q : OutPkt) (rest : List OutPkt),
     s.accepts .legacy [(CMD.TUNNEL_CTL, 0x40000000)] = true → s.hid.cmd.tunnelWait = q :: rest →
     Completes (.tunnelRxAck) s fun t =>
       t.f CMD.TUNNEL_CTL.RX_VALID = 1 ∧ t.f CMD.TUNNEL_CTL.RX_LEN = q.bytes.length % 8192 ∧
       t.hid.cmd.tunnelWait = rest ∧ Keeps [] [0x01] s t) ∧
  (∀ (s : State) (bytes : List Byte) (op : Nat) (p : Packet),
     framed .spi bytes op p = true → s.takes op p = true → op ∉ knownOps →
     Completes (.unknownOpcode .spi bytes) s fun t =>
       Answered op p (refuse 0x0105 0x80000006) s t ∧ Keeps [] [0x01] s t)
end

