-- ==== Sys2Proof/Laws/Store.lean ====
section
/-! SUPPORT. Sparse lists: what a write changes, and that it keeps the canonical form. -/

namespace Sys2Proof.Machine

theorem sget?_sput_same {α : Type} (l : List (Nat × α)) (a : Nat) (v : α) : sget? (sput l a v) a = some v := by
  induction l with
  | nil => simp [sput, sget?]
  | cons x r ih =>
    obtain ⟨b, w⟩ := x
    unfold sput
    split
    · simp [sget?]
    · split
      · simp [sget?]
      · rename_i h1 h2
        simp [sget?, h2, ih]

theorem sget?_sput_other {α : Type} (l : List (Nat × α)) (a b : Nat) (v : α) (h : b ≠ a) :
    sget? (sput l a v) b = sget? l b := by
  induction l with
  | nil => simp [sput, sget?, h]
  | cons x r ih =>
    obtain ⟨c, w⟩ := x
    unfold sput
    split
    · simp [sget?, h]
    · split
      · rename_i h1 h2
        subst h2
        simp [sget?, h]
      · simp [sget?, ih]

theorem sget?_serase_same {α : Type} (l : List (Nat × α)) (a : Nat) : sget? (serase l a) a = none := by
  induction l with
  | nil => simp [serase, sget?]
  | cons x r ih =>
    obtain ⟨b, w⟩ := x
    unfold serase
    split
    · exact ih
    · rename_i h
      simp [sget?, h, ih]

theorem sget?_serase_other {α : Type} (l : List (Nat × α)) (a b : Nat) (h : b ≠ a) :
    sget? (serase l a) b = sget? l b := by
  induction l with
  | nil => simp [serase]
  | cons x r ih =>
    obtain ⟨c, w⟩ := x
    unfold serase
    split
    · rename_i hc
      subst hc
      simp [sget?, h, ih]
    · simp [sget?, ih]

/-- The value read after a write to the same key. -/
theorem sget_swrite_same {α : Type} [DecidableEq α] (d : Nat → α) (l : List (Nat × α)) (a : Nat) (v : α) :
    sget (d a) (swrite d l a v) a = v := by
  unfold swrite
  split
  · rename_i h
    simp [sget, sget?_serase_same, h]
  · simp [sget, sget?_sput_same]

/-- The value read after a write to another key. -/
theorem sget_swrite_other {α : Type} [DecidableEq α] (d : Nat → α) (l : List (Nat × α)) (a b : Nat) (v x : α)
    (h : b ≠ a) : sget x (swrite d l a v) b = sget x l b := by
  unfold swrite
  split
  · simp [sget, sget?_serase_other _ _ _ h]
  · simp [sget, sget?_sput_other _ _ _ _ h]

theorem mget_mupd_same {α : Type} (d : α) (l : List (Nat × α)) (k : Nat) (f : α → α) :
    mget d (mupd d l k f) k = f (mget d l k) := by
  simp [mget, mupd, sget, sget?_sput_same]

theorem mget_mupd_other {α : Type} (d : α) (l : List (Nat × α)) (j k : Nat) (f : α → α) (h : j ≠ k) :
    mget d (mupd d l k f) j = mget d l j := by
  simp [mget, mupd, sget, sget?_sput_other _ _ _ _ h]

theorem canonFrom_mono {α : Type} [DecidableEq α] (d : Nat → α) (l : List (Nat × α)) {m n : Nat} (h : m ≤ n)
    (hc : canonFrom d n l = true) : canonFrom d m l = true := by
  cases l with
  | nil => rfl
  | cons x r =>
    simp only [canonFrom, Bool.and_eq_true, decide_eq_true_eq] at hc ⊢
    exact ⟨⟨by omega, hc.1.2⟩, hc.2⟩

theorem canonFrom_serase {α : Type} [DecidableEq α] (d : Nat → α) (l : List (Nat × α)) (a n : Nat)
    (hc : canonFrom d n l = true) : canonFrom d n (serase l a) = true := by
  induction l generalizing n with
  | nil => rfl
  | cons x r ih =>
    obtain ⟨b, w⟩ := x
    simp only [canonFrom, Bool.and_eq_true, decide_eq_true_eq] at hc
    unfold serase
    split
    · exact canonFrom_mono d _ (by omega) (ih _ hc.2)
    · simp only [canonFrom, Bool.and_eq_true, decide_eq_true_eq]
      exact ⟨hc.1, ih _ hc.2⟩

theorem canonFrom_sput {α : Type} [DecidableEq α] (d : Nat → α) (l : List (Nat × α)) (a n : Nat) (v : α)
    (hn : n ≤ a) (hv : v ≠ d a) (hc : canonFrom d n l = true) : canonFrom d n (sput l a v) = true := by
  induction l generalizing n with
  | nil => simp [sput, canonFrom, hn, hv]
  | cons x r ih =>
    obtain ⟨b, w⟩ := x
    simp only [canonFrom, Bool.and_eq_true, decide_eq_true_eq] at hc
    unfold sput
    split
    · rename_i h
      simp only [canonFrom, Bool.and_eq_true, decide_eq_true_eq]
      exact ⟨⟨hn, hv⟩, ⟨by omega, hc.1.2⟩, hc.2⟩
    · split
      · rename_i h1 h2
        subst h2
        simp only [canonFrom, Bool.and_eq_true, decide_eq_true_eq]
        exact ⟨⟨hn, hv⟩, hc.2⟩
      · rename_i h1 h2
        simp only [canonFrom, Bool.and_eq_true, decide_eq_true_eq]
        exact ⟨hc.1, ih _ (by omega) hc.2⟩

/-- A write keeps the canonical form. -/
theorem canonical_swrite {α : Type} [DecidableEq α] (d : Nat → α) (l : List (Nat × α)) (a : Nat) (v : α)
    (hc : canonical d l = true) : canonical d (swrite d l a v) = true := by
  unfold swrite
  split
  · exact canonFrom_serase d l a 0 hc
  · rename_i h
    exact canonFrom_sput d l a 0 v (Nat.zero_le a) h hc

theorem canonFrom_filter {α : Type} [DecidableEq α] (d : Nat → α) (f : Nat × α → Bool) (l : List (Nat × α)) (n : Nat)
    (hc : canonFrom d n l = true) : canonFrom d n (l.filter f) = true := by
  induction l generalizing n with
  | nil => rfl
  | cons x r ih =>
    obtain ⟨b, w⟩ := x
    simp only [canonFrom, Bool.and_eq_true, decide_eq_true_eq] at hc
    simp only [List.filter_cons]
    split
    · simp only [canonFrom, Bool.and_eq_true, decide_eq_true_eq]
      exact ⟨hc.1, ih _ hc.2⟩
    · exact canonFrom_mono d _ (by omega) (ih _ hc.2)

theorem mem_sput {α : Type} (l : List (Nat × α)) (a : Nat) (v : α) (x : Nat × α) (h : x ∈ sput l a v) :
    x = (a, v) ∨ x ∈ l := by
  induction l with
  | nil => simpa [sput] using h
  | cons y r ih =>
    obtain ⟨b, w⟩ := y
    unfold sput at h
    split at h
    · simpa using h
    · split at h
      · simp only [List.mem_cons] at h ⊢
        rcases h with h | h
        · exact .inl h
        · exact .inr (.inr h)
      · simp only [List.mem_cons] at h ⊢
        rcases h with h | h
        · exact .inr (.inl h)
        · rcases ih h with h | h
          · exact .inl h
          · exact .inr (.inr h)

theorem mem_serase {α : Type} (l : List (Nat × α)) (a : Nat) (x : Nat × α) (h : x ∈ serase l a) : x ∈ l := by
  induction l with
  | nil => simp [serase] at h
  | cons y r ih =>
    obtain ⟨b, w⟩ := y
    unfold serase at h
    split at h
    · exact List.mem_cons_of_mem _ (ih h)
    · simp only [List.mem_cons] at h ⊢
      rcases h with h | h
      · exact .inl h
      · exact .inr (ih h)

/-- What holds of every entry and of the written one holds after a write. -/
theorem all_swrite {α : Type} [DecidableEq α] (d : Nat → α) (l : List (Nat × α)) (a : Nat) (v : α)
    (p : Nat × α → Bool) (hl : l.all p = true) (hv : p (a, v) = true) : (swrite d l a v).all p = true := by
  simp only [List.all_eq_true] at hl ⊢
  intro x hx
  unfold swrite at hx
  split at hx
  · exact hl x (mem_serase l a x hx)
  · rcases mem_sput l a v x hx with h | h
    · exact h ▸ hv
    · exact hl x h

theorem length_ringPush {α : Type} (cap : Nat) (l : List α) (x : α) (h0 : 0 < cap) (h : l.length ≤ cap) :
    (ringPush cap l x).length ≤ cap := by
  unfold ringPush
  split <;> simp <;> omega

end Sys2Proof.Machine
end

