-- ==== Sys2Proof/Laws/State.lean ====
section
/-! SUPPORT. What each action changes and leaves, and how programs run. -/

namespace Sys2Proof.Machine

/-! ## What an action leaves alone -/

@[simp] theorem apply_pending (a : Act) (s : State) : (a.apply s).pending = s.pending := by
  cases a <;> simp only [Act.apply] <;> (try split) <;> rfl

@[simp] theorem apply_reg_hid (a : Nat) (w : Word) (s : State) : ((Act.reg a w).apply s).hid = s.hid := by
  simp only [Act.apply]; split <;> rfl
@[simp] theorem apply_reg_que (a : Nat) (w : Word) (s : State) : ((Act.reg a w).apply s).que = s.que := by
  simp only [Act.apply]; split <;> rfl
@[simp] theorem apply_reg_tabs (a : Nat) (w : Word) (s : State) : ((Act.reg a w).apply s).tabs = s.tabs := by
  simp only [Act.apply]; split <;> rfl
@[simp] theorem apply_tab_regs (k : Nat) (b : Byte) (s : State) : ((Act.tab k b).apply s).regs = s.regs := by
  simp only [Act.apply]; split <;> rfl
@[simp] theorem apply_tab_hid (k : Nat) (b : Byte) (s : State) : ((Act.tab k b).apply s).hid = s.hid := by
  simp only [Act.apply]; split <;> rfl
@[simp] theorem apply_tab_que (k : Nat) (b : Byte) (s : State) : ((Act.tab k b).apply s).que = s.que := by
  simp only [Act.apply]; split <;> rfl
@[simp] theorem apply_hid_regs (f : Hidden → Hidden) (s : State) : ((Act.hid f).apply s).regs = s.regs := rfl
@[simp] theorem apply_hid_tabs (f : Hidden → Hidden) (s : State) : ((Act.hid f).apply s).tabs = s.tabs := rfl
@[simp] theorem apply_hid_que (f : Hidden → Hidden) (s : State) : ((Act.hid f).apply s).que = s.que := rfl
@[simp] theorem apply_hid_hid (f : Hidden → Hidden) (s : State) : ((Act.hid f).apply s).hid = f s.hid := rfl
@[simp] theorem apply_spiReply_regs (p : OutPkt) (s : State) : ((Act.spiReply p).apply s).regs = s.regs := rfl
@[simp] theorem apply_spiReply_hid (p : OutPkt) (s : State) : ((Act.spiReply p).apply s).hid = s.hid := rfl
@[simp] theorem apply_spiReply_tabs (p : OutPkt) (s : State) : ((Act.spiReply p).apply s).tabs = s.tabs := rfl
@[simp] theorem apply_spiEvent_regs (p : OutPkt) (s : State) : ((Act.spiEvent p).apply s).regs = s.regs := by
  simp only [Act.apply]; split <;> rfl
@[simp] theorem apply_spiEvent_hid (p : OutPkt) (s : State) : ((Act.spiEvent p).apply s).hid = s.hid := by
  simp only [Act.apply]; split <;> rfl
@[simp] theorem apply_spiEvent_tabs (p : OutPkt) (s : State) : ((Act.spiEvent p).apply s).tabs = s.tabs := by
  simp only [Act.apply]; split <;> rfl
@[simp] theorem apply_spiPop_regs (s : State) : (Act.spiPop.apply s).regs = s.regs := rfl
@[simp] theorem apply_spiPop_hid (s : State) : (Act.spiPop.apply s).hid = s.hid := rfl
@[simp] theorem apply_spiPop_tabs (s : State) : (Act.spiPop.apply s).tabs = s.tabs := rfl
@[simp] theorem apply_spiPop_spi (s : State) : (Act.spiPop.apply s).que.spi = s.que.spi.tail := rfl
@[simp] theorem apply_vio_regs (e : VioEntry) (s : State) : ((Act.vio e).apply s).regs = s.regs := rfl
@[simp] theorem apply_vio_hid (e : VioEntry) (s : State) : ((Act.vio e).apply s).hid = s.hid := rfl
@[simp] theorem apply_vio_tabs (e : VioEntry) (s : State) : ((Act.vio e).apply s).tabs = s.tabs := rfl
@[simp] theorem apply_chg_regs (e : ChgEntry) (s : State) : ((Act.chg e).apply s).regs = s.regs := rfl
@[simp] theorem apply_chg_hid (e : ChgEntry) (s : State) : ((Act.chg e).apply s).hid = s.hid := rfl
@[simp] theorem apply_chg_tabs (e : ChgEntry) (s : State) : ((Act.chg e).apply s).tabs = s.tabs := rfl
@[simp] theorem apply_fltQueue_regs (e : FltEntry) (l : Bool) (s : State) :
    ((Act.fltQueue e l).apply s).regs = s.regs := by
  simp only [Act.apply]; split <;> rfl
@[simp] theorem apply_fltQueue_hid (e : FltEntry) (l : Bool) (s : State) :
    ((Act.fltQueue e l).apply s).hid = s.hid := by
  simp only [Act.apply]; split <;> rfl
@[simp] theorem apply_fltQueue_tabs (e : FltEntry) (l : Bool) (s : State) :
    ((Act.fltQueue e l).apply s).tabs = s.tabs := by
  simp only [Act.apply]; split <;> rfl

/-! ## Reading after a store -/

/-- A stored parameter reads as the stored word without its reserved bits. -/
theorem rd_apply_reg_same (a : Nat) (w : Word) (s : State) (h : (regAt a).isSome = true) :
    ((Act.reg a w).apply s).rd a = w &&& implMask a := by
  simp only [Act.apply, h, if_true, State.rd]
  exact sget_swrite_same resetWord s.regs a (w &&& implMask a)

/-- A store leaves every other parameter alone. -/
theorem rd_apply_reg_other (a b : Nat) (w : Word) (s : State) (h : b ≠ a) :
    ((Act.reg a w).apply s).rd b = s.rd b := by
  simp only [Act.apply]
  split
  · exact sget_swrite_other resetWord s.regs a b (w &&& implMask a) (resetWord b) h
  · rfl

/-- A parameter reads the same after an action that leaves the parameters alone. -/
theorem rd_of_regs_eq {s t : State} (h : t.regs = s.regs) (a : Nat) : t.rd a = s.rd a := by
  simp only [State.rd, h]

/-- A field reads the same where its parameter does. -/
theorem f_of_rd_eq {s t : State} (x : FldAt) (h : t.rd x.addr = s.rd x.addr) : t.f x = s.f x := by
  simp only [State.f, h]

/-! ## Programs -/

@[simp] theorem run_done (s : State) : Prog.done.run s = s := rfl
@[simp] theorem run_read (k : State → Prog) (s : State) : (Prog.read k).run s = (k s).run s := rfl
@[simp] theorem run_act (a : Act) (k : Prog) (s : State) : (Prog.act a k).run s = k.run (a.apply s) := rfl

/-- What every action keeps, every program keeps. -/
theorem Prog.run_keeps (P : State → Prop) (h : ∀ (a : Act) (s : State), P s → P (a.apply s)) :
    ∀ (p : Prog) (s : State), P s → P (p.run s)
  | .done, _, hs => hs
  | .read k, s, hs => Prog.run_keeps P h (k s) s hs
  | .act a k, s, hs => Prog.run_keeps P h k (a.apply s) (h a s hs)

/-- No program changes the queue of waiting commands. -/
theorem M.run_pending (m : M Unit) (s : State) : (m.run s).pending = s.pending :=
  Prog.run_keeps (fun t => t.pending = s.pending) (fun a t h => by simpa using h) _ s rfl

/-- What a computation does: it answers `a` in a state `t` that it reaches from `s`, whatever follows. -/
def M.Does {α : Type} (m : M α) (s : State) (a : α) (t : State) : Prop :=
  ∀ k : α → Prog, Prog.run (m k) s = Prog.run (k a) t

theorem M.Does.run {m : M Unit} {s t : State} (h : M.Does m s () t) : m.run s = t := h _

theorem M.does_pure {α : Type} (a : α) (s : State) : M.Does (pure a : M α) s a s := fun _ => rfl

theorem M.does_getS (s : State) : M.Does getS s s s := fun _ => rfl

theorem M.does_act (a : Act) (s : State) : M.Does (act a) s () (a.apply s) := fun _ => rfl

theorem M.Does.bind {α β : Type} {m : M α} {f : α → M β} {s t u : State} {a : α} {b : β}
    (h : M.Does m s a t) (h' : M.Does (f a) t b u) : M.Does (m >>= f) s b u := by
  intro k
  show Prog.run (m fun a => f a k) s = Prog.run (k b) u
  rw [h, h']

theorem M.does_rd (a : Nat) (s : State) : M.Does (Machine.rd a) s (s.rd a) s := fun _ => rfl

theorem M.does_wr (a : Nat) (w : Word) (s : State) : M.Does (wr a w) s () ((Act.reg a w).apply s) := fun _ => rfl

theorem M.does_rf (x : FldAt) (s : State) : M.Does (rf x) s (s.f x) s := fun _ => rfl

theorem M.does_wf (x : FldAt) (v : Nat) (s : State) :
    M.Does (Machine.wf x v) s () ((Act.reg x.addr (withBits (s.rd x.addr) x.hi x.lo v)).apply s) := fun _ => rfl

theorem M.does_hid (f : Hidden → Hidden) (s : State) : M.Does (hid f) s () ((Act.hid f).apply s) := fun _ => rfl

end Sys2Proof.Machine
end

