-- ==== Sys2Proof/Laws/Frame.lean ====
section
/-! SUPPORT. Footprints: which places of the state a computation may change. A place is a page of parameters (0 to 22), the
tables (32), the host SPI queue (33), the violation log (34), the fault log (35), the change log (36), or one part of the
state that is no parameter (40 to 61); 99 stands for all of them. -/

namespace Sys2Proof.Machine

/-- What it means that a part of the state that is no parameter stays as it was. -/
def SameHid (k : Nat) (x y : Hidden) : Prop :=
  match k with
  | 40 => y.now = x.now
  | 41 => y.resetAt = x.resetAt
  | 42 => y.fresh = x.fresh
  | 43 => y.cmd = x.cmd
  | 44 => y.pls = x.pls
  | 45 => y.trp = x.trp
  | 46 => y.flg = x.flg
  | 47 => y.bus = x.bus
  | 48 => y.chg = x.chg
  | 49 => y.saf = x.saf
  | 50 => y.mea = x.mea
  | 51 => y.lat = x.lat
  | 52 => y.pos = x.pos
  | 53 => y.fld = x.fld
  | 54 => y.dcl = x.dcl
  | 55 => y.act = x.act
  | 56 => y.afe = x.afe
  | 57 => y.mtr = x.mtr
  | 58 => y.cnv = x.cnv
  | 59 => y.lvp = x.lvp
  | 60 => y.mem = x.mem
  | 61 => y.lcy = x.lcy
  | _ => True

/-- What it means that one of the queues stays as it was. -/
def SameQue (k : Nat) (x y : Queues) : Prop :=
  match k with
  | 33 => y.spi = x.spi
  | 34 => y.vio = x.vio
  | 35 => y.flt = x.flt ∧ y.fltQ = x.fltQ
  | 36 => y.chg = x.chg
  | _ => True

/-- The state `t` differs from `s` at most in the places of `P`. -/
structure Same (P : List Nat) (s t : State) : Prop where
  rd : 99 ∉ P → ∀ a, a / 65536 ∉ P → t.rd a = s.rd a
  tabs : 99 ∉ P → 32 ∉ P → t.tabs = s.tabs
  que : 99 ∉ P → ∀ k, k ∉ P → SameQue k s.que t.que
  hid : 99 ∉ P → ∀ k, k ∉ P → SameHid k s.hid t.hid
  pending : t.pending = s.pending

theorem SameHid.refl (k : Nat) (x : Hidden) : SameHid k x x := by
  unfold SameHid
  split <;> trivial

theorem SameHid.trans {k : Nat} {x y z : Hidden} (h : SameHid k x y) (h' : SameHid k y z) : SameHid k x z := by
  unfold SameHid at *
  split <;> simp_all

theorem SameQue.refl (k : Nat) (x : Queues) : SameQue k x x := by
  unfold SameQue
  split <;> simp

theorem SameQue.trans {k : Nat} {x y z : Queues} (h : SameQue k x y) (h' : SameQue k y z) : SameQue k x z := by
  unfold SameQue at *
  split <;> simp_all

theorem Same.refl (P : List Nat) (s : State) : Same P s s :=
  ⟨fun _ _ _ => rfl, fun _ _ => rfl, fun _ k _ => .refl k _, fun _ k _ => .refl k _, rfl⟩

theorem Same.trans {P : List Nat} {s t u : State} (h : Same P s t) (h' : Same P t u) : Same P s u :=
  ⟨fun hn a ha => (h'.rd hn a ha).trans (h.rd hn a ha), fun hn hp => (h'.tabs hn hp).trans (h.tabs hn hp),
    fun hn k hk => (h.que hn k hk).trans (h'.que hn k hk), fun hn k hk => (h.hid hn k hk).trans (h'.hid hn k hk),
    h'.pending.trans h.pending⟩

theorem Same.mono {P Q : List Nat} {s t : State} (h : Same P s t) (hs : ∀ x ∈ P, x ∈ Q) : Same Q s t :=
  ⟨fun hn a ha => h.rd (fun hx => hn (hs _ hx)) a fun hx => ha (hs _ hx),
    fun hn hp => h.tabs (fun hx => hn (hs _ hx)) fun hx => hp (hs _ hx),
    fun hn k hk => h.que (fun hx => hn (hs _ hx)) k fun hx => hk (hs _ hx),
    fun hn k hk => h.hid (fun hx => hn (hs _ hx)) k fun hx => hk (hs _ hx), h.pending⟩

/-- Any two states with the same waiting commands, where every place may change. -/
theorem Same.all {P : List Nat} {s t : State} (h : 99 ∈ P) (hp : t.pending = s.pending) : Same P s t :=
  ⟨fun hn => absurd h hn, fun hn => absurd h hn, fun hn => absurd h hn, fun hn => absurd h hn, hp⟩

/-- The computation changes at most the places of `P`, from every state. -/
def M.In {α : Type} (P : List Nat) (m : M α) : Prop := ∀ s, ∃ a t, m.Does s a t ∧ Same P s t

theorem M.In.run {P : List Nat} {m : M Unit} (h : m.In P) (s : State) : Same P s (m.run s) := by
  obtain ⟨_, t, h1, h2⟩ := h s
  rw [h1.run]
  exact h2

theorem M.In.mono {α : Type} {P Q : List Nat} {m : M α} (h : m.In P) (hs : ∀ x ∈ P, x ∈ Q) : m.In Q := by
  intro s
  obtain ⟨a, t, h1, h2⟩ := h s
  exact ⟨a, t, h1, h2.mono hs⟩

theorem M.In.pure {α : Type} {P : List Nat} (a : α) : M.In P (Pure.pure a : M α) :=
  fun s => ⟨a, s, M.does_pure a s, .refl P s⟩

theorem M.In.getS {P : List Nat} : M.In P getS := fun s => ⟨s, s, M.does_getS s, .refl P s⟩

theorem M.In.bind {α β : Type} {P : List Nat} {m : M α} {f : α → M β} (h : m.In P) (h' : ∀ a, (f a).In P) :
    (m >>= f).In P := by
  intro s
  obtain ⟨a, t, h1, h2⟩ := h s
  obtain ⟨b, u, h3, h4⟩ := h' a t
  exact ⟨b, u, h1.bind h3, h2.trans h4⟩

theorem M.In.map {α β : Type} {P : List Nat} {m : M α} {f : α → β} (h : m.In P) : (f <$> m).In P := by
  intro s
  obtain ⟨a, t, h1, h2⟩ := h s
  exact ⟨f a, t, fun k => h1 fun x => k (f x), h2⟩

theorem M.In.ite {α : Type} {P : List Nat} {c : Prop} [Decidable c] {m n : M α} (h : m.In P) (h' : n.In P) :
    (if c then m else n).In P := by
  split <;> assumption

theorem M.In.optForM {P : List Nat} {α : Type} {f : α → M Unit} (h : ∀ x, (f x).In P) : ∀ o : Option α, (o.forM f).In P
  | none => M.In.pure _
  | some x => h x

theorem M.In.forM {α : Type} {P : List Nat} {f : α → M Unit} (h : ∀ x, (f x).In P) :
    ∀ l : List α, (l.forM f).In P
  | [] => M.In.pure ()
  | x :: l => by
    show M.In P (f x >>= fun _ => l.forM f)
    exact (h x).bind fun _ => M.In.forM h l

theorem M.In.mapM' {α β : Type} {P : List Nat} {f : α → M β} (h : ∀ x, (f x).In P) :
    ∀ l : List α, (l.mapM f).In P
  | [] => by
    rw [List.mapM_nil]
    exact M.In.pure _
  | x :: l => by
    rw [List.mapM_cons]
    exact (h x).bind fun _ => (M.In.mapM' h l).bind fun _ => M.In.pure _

theorem M.In.foldM {α β : Type} {P : List Nat} {f : α → β → M β} (h : ∀ x b, (f x b).In P) :
    ∀ (l : List α) (b : β), (foldM' f l b).In P
  | [], b => M.In.pure b
  | x :: l, b => (h x b).bind fun c => M.In.foldM h l c

theorem M.In.foldlM {α β : Type} {P : List Nat} {f : β → α → M β} (h : ∀ b x, (f b x).In P) :
    ∀ (l : List α) (b : β), (l.foldlM f b).In P
  | [], b => by
    rw [List.foldlM_nil]
    exact M.In.pure b
  | x :: l, b => by
    rw [List.foldlM_cons]
    exact (h b x).bind fun c => M.In.foldlM h l c

/-! ## Actions -/

theorem same_reg (P : List Nat) (a : Nat) (w : Word) (s : State) (h : a / 65536 ∈ P) :
    Same P s ((Act.reg a w).apply s) := by
  refine ⟨fun _ b hb => rd_apply_reg_other a b w s fun hab => hb (hab ▸ h), fun _ _ => ?_, fun _ k _ => ?_,
    fun _ k _ => ?_, ?_⟩
  · simp
  · simpa using SameQue.refl k s.que
  · simpa using SameHid.refl k s.hid
  · simp

theorem same_hid (P : List Nat) (f : Hidden → Hidden) (s : State) (h : ∀ k, k ∉ P → SameHid k s.hid (f s.hid)) :
    Same P s ((Act.hid f).apply s) :=
  ⟨fun _ _ _ => rfl, fun _ _ => rfl, fun _ k _ => .refl k _, fun _ => h, rfl⟩

/-- An action on a queue changes that queue alone. -/
theorem same_que (P : List Nat) (a : Act) (s : State)
    (hr : (a.apply s).regs = s.regs) (ht : (a.apply s).tabs = s.tabs) (hh : (a.apply s).hid = s.hid)
    (hq : ∀ k, k ∉ P → SameQue k s.que (a.apply s).que) : Same P s (a.apply s) :=
  ⟨fun _ b _ => by simp only [State.rd, hr], fun _ _ => ht, fun _ => hq,
    fun _ k _ => by simpa [hh] using SameHid.refl k s.hid,
    apply_pending a s⟩

theorem M.In.act {P : List Nat} {a : Act} (h : ∀ s, Same P s (a.apply s)) : (act a).In P :=
  fun s => ⟨(), a.apply s, M.does_act a s, h s⟩

theorem M.In.tab {P : List Nat} (k : Nat) (b : Byte) (h : 32 ∈ P) : (Machine.act (.tab k b)).In P :=
  M.In.act fun s => by
    refine ⟨fun _ a _ => by simp [State.rd], fun _ hp => absurd h hp, fun _ k _ => ?_, fun _ k _ => ?_, by simp⟩
    · simpa using SameQue.refl k s.que
    · simpa using SameHid.refl k s.hid

theorem M.In.spiReply {P : List Nat} (p : OutPkt) (h : 33 ∈ P) : (Machine.act (.spiReply p)).In P :=
  M.In.act fun s => same_que P _ s rfl rfl rfl fun k hk => by
    unfold SameQue
    split <;> first | exact absurd h hk | simp [Act.apply]

theorem M.In.spiEvent {P : List Nat} (p : OutPkt) (h : 33 ∈ P) : (Machine.act (.spiEvent p)).In P :=
  M.In.act fun s => same_que P _ s (by simp) (by simp) (by simp) fun k hk => by
    unfold SameQue
    split <;> first | exact absurd h hk | trivial | (simp only [Act.apply]; split <;> first | rfl | exact ⟨rfl, rfl⟩)

theorem M.In.spiPop {P : List Nat} (h : 33 ∈ P) : (Machine.act .spiPop).In P :=
  M.In.act fun s => same_que P _ s rfl rfl rfl fun k hk => by
    unfold SameQue
    split <;> first | exact absurd h hk | simp [Act.apply]

theorem M.In.spiClear {P : List Nat} (h : 33 ∈ P) : (Machine.act .spiClear).In P :=
  M.In.act fun s => same_que P _ s rfl rfl rfl fun k hk => by
    unfold SameQue
    split <;> first | exact absurd h hk | simp [Act.apply]

theorem M.In.vio {P : List Nat} (e : VioEntry) (h : 34 ∈ P) : (Machine.act (.vio e)).In P :=
  M.In.act fun s => same_que P _ s rfl rfl rfl fun k hk => by
    unfold SameQue
    split <;> first | exact absurd h hk | simp [Act.apply]

theorem M.In.vioClear {P : List Nat} (h : 34 ∈ P) : (Machine.act .vioClear).In P :=
  M.In.act fun s => same_que P _ s rfl rfl rfl fun k hk => by
    unfold SameQue
    split <;> first | exact absurd h hk | simp [Act.apply]

theorem M.In.fltQueue {P : List Nat} (e : FltEntry) (l : Bool) (h : 35 ∈ P) : (Machine.act (.fltQueue e l)).In P :=
  M.In.act fun s => same_que P _ s (by simp) (by simp) (by simp) fun k hk => by
    unfold SameQue
    split <;> first | exact absurd h hk | trivial | (simp only [Act.apply]; split <;> rfl)

theorem M.In.fltTake {P : List Nat} (h : 35 ∈ P) : (Machine.act .fltTake).In P :=
  M.In.act fun s => same_que P _ s rfl rfl rfl fun k hk => by
    unfold SameQue
    split <;> first | exact absurd h hk | simp [Act.apply]

theorem M.In.fltClear {P : List Nat} (h : 35 ∈ P) : (Machine.act .fltClear).In P :=
  M.In.act fun s => same_que P _ s rfl rfl rfl fun k hk => by
    unfold SameQue
    split <;> first | exact absurd h hk | simp [Act.apply]

theorem M.In.fltQDrop {P : List Nat} (h : 35 ∈ P) : (Machine.act .fltQDrop).In P :=
  M.In.act fun s => same_que P _ s rfl rfl rfl fun k hk => by
    unfold SameQue
    split <;> first | exact absurd h hk | simp [Act.apply]

theorem M.In.chg {P : List Nat} (e : ChgEntry) (h : 36 ∈ P) : (Machine.act (.chg e)).In P :=
  M.In.act fun s => same_que P _ s rfl rfl rfl fun k hk => by
    unfold SameQue
    split <;> first | exact absurd h hk | simp [Act.apply]

theorem M.In.chgClear {P : List Nat} (h : 36 ∈ P) : (Machine.act .chgClear).In P :=
  M.In.act fun s => same_que P _ s rfl rfl rfl fun k hk => by
    unfold SameQue
    split <;> first | exact absurd h hk | simp [Act.apply]

/-- Any action, where every place may change. -/
theorem M.In.any {P : List Nat} (a : Act) (h : 99 ∈ P) : (Machine.act a).In P :=
  M.In.act fun s => Same.all h (apply_pending a s)

/-! ## The elementary operations -/

theorem M.In.rd {P : List Nat} (a : Nat) : (Machine.rd a).In P := M.In.getS.bind fun _ => M.In.pure _

theorem M.In.rf {P : List Nat} (x : FldAt) : (Machine.rf x).In P := M.In.getS.bind fun _ => M.In.pure _

theorem M.In.hidden {P : List Nat} : (Machine.hidden).In P := M.In.getS.bind fun _ => M.In.pure _

theorem M.In.wr {P : List Nat} (p : Nat) (a : Nat) (w : Word) (ha : a / 65536 = p) (hp : p ∈ P) :
    (Machine.wr a w).In P := M.In.act fun s => same_reg P a w s (ha ▸ hp)

theorem M.In.wf {P : List Nat} (p : Nat) (x : FldAt) (v : Nat) (ha : x.addr / 65536 = p) (hp : p ∈ P) :
    (Machine.wf x v).In P := (M.In.rd _).bind fun _ => M.In.wr p _ _ ha hp

theorem M.In.inc {P : List Nat} (p : Nat) (x : FldAt) (ha : x.addr / 65536 = p) (hp : p ∈ P) :
    (Machine.inc x).In P := (M.In.rf _).bind fun _ => M.In.ite (M.In.wf p _ _ ha hp) (M.In.pure _)

theorem M.In.incBy {P : List Nat} (p : Nat) (x : FldAt) (n : Nat) (ha : x.addr / 65536 = p) (hp : p ∈ P) :
    (Machine.incBy x n).In P := (M.In.rf _).bind fun _ => M.In.wf p _ _ ha hp

theorem M.In.incWrap {P : List Nat} (p : Nat) (x : FldAt) (ha : x.addr / 65536 = p) (hp : p ∈ P) :
    (Machine.incWrap x).In P := (M.In.rf _).bind fun _ => M.In.wf p _ _ ha hp

/-- A write of any parameter, where every page may change. -/
theorem M.In.wrAny {P : List Nat} (a : Nat) (w : Word) (h : ∀ p < 23, p ∈ P) : (Machine.wr a w).In P :=
  M.In.act fun s => by
    by_cases hp : a / 65536 < 23
    · exact same_reg P a w s (h _ hp)
    · have hn : regsOfPage (a / 65536) = [] := by
        unfold regsOfPage
        split <;> first | omega | rfl
      have : (Act.reg a w).apply s = s := by simp [Act.apply, regAt, hn]
      rw [this]
      exact .refl P s

theorem M.In.hidAt {P : List Nat} {f : Hidden → Hidden} (h : ∀ x k, k ∉ P → SameHid k x (f x)) :
    (Machine.hid f).In P := M.In.act fun s => same_hid P f s (h s.hid)

theorem M.In.hid_now {P : List Nat} (g : Hidden → Nat) (hp : 40 ∈ P) :
    (Machine.hid fun h => { h with now := g h }).In P := M.In.hidAt fun x k hk => by
  unfold SameHid
  split <;> first | rfl | exact absurd hp hk | trivial

theorem M.In.hid_resetAt {P : List Nat} (g : Hidden → Nat) (hp : 41 ∈ P) :
    (Machine.hid fun h => { h with resetAt := g h }).In P := M.In.hidAt fun x k hk => by
  unfold SameHid
  split <;> first | rfl | exact absurd hp hk | trivial

theorem M.In.hid_fresh {P : List Nat} (g : Hidden → Nat) (hp : 42 ∈ P) :
    (Machine.hid fun h => { h with fresh := g h }).In P := M.In.hidAt fun x k hk => by
  unfold SameHid
  split <;> first | rfl | exact absurd hp hk | trivial

theorem M.In.hid_cmd {P : List Nat} (g : Hidden → CmdSt) (hp : 43 ∈ P) :
    (Machine.hid fun h => { h with cmd := g h }).In P := M.In.hidAt fun x k hk => by
  unfold SameHid
  split <;> first | rfl | exact absurd hp hk | trivial

theorem M.In.hid_pls {P : List Nat} (g : Hidden → PlsSt) (hp : 44 ∈ P) :
    (Machine.hid fun h => { h with pls := g h }).In P := M.In.hidAt fun x k hk => by
  unfold SameHid
  split <;> first | rfl | exact absurd hp hk | trivial

theorem M.In.hid_trp {P : List Nat} (g : Hidden → TrpSt) (hp : 45 ∈ P) :
    (Machine.hid fun h => { h with trp := g h }).In P := M.In.hidAt fun x k hk => by
  unfold SameHid
  split <;> first | rfl | exact absurd hp hk | trivial

theorem M.In.hid_flg {P : List Nat} (g : Hidden → FlgSt) (hp : 46 ∈ P) :
    (Machine.hid fun h => { h with flg := g h }).In P := M.In.hidAt fun x k hk => by
  unfold SameHid
  split <;> first | rfl | exact absurd hp hk | trivial

theorem M.In.hid_bus {P : List Nat} (g : Hidden → BusSt) (hp : 47 ∈ P) :
    (Machine.hid fun h => { h with bus := g h }).In P := M.In.hidAt fun x k hk => by
  unfold SameHid
  split <;> first | rfl | exact absurd hp hk | trivial

theorem M.In.hid_chg {P : List Nat} (g : Hidden → ChgSt) (hp : 48 ∈ P) :
    (Machine.hid fun h => { h with chg := g h }).In P := M.In.hidAt fun x k hk => by
  unfold SameHid
  split <;> first | rfl | exact absurd hp hk | trivial

theorem M.In.hid_saf {P : List Nat} (g : Hidden → SafSt) (hp : 49 ∈ P) :
    (Machine.hid fun h => { h with saf := g h }).In P := M.In.hidAt fun x k hk => by
  unfold SameHid
  split <;> first | rfl | exact absurd hp hk | trivial

theorem M.In.hid_mea {P : List Nat} (g : Hidden → MeaSt) (hp : 50 ∈ P) :
    (Machine.hid fun h => { h with mea := g h }).In P := M.In.hidAt fun x k hk => by
  unfold SameHid
  split <;> first | rfl | exact absurd hp hk | trivial

theorem M.In.hid_lat {P : List Nat} (g : Hidden → LatSt) (hp : 51 ∈ P) :
    (Machine.hid fun h => { h with lat := g h }).In P := M.In.hidAt fun x k hk => by
  unfold SameHid
  split <;> first | rfl | exact absurd hp hk | trivial

theorem M.In.hid_pos {P : List Nat} (g : Hidden → PosSt) (hp : 52 ∈ P) :
    (Machine.hid fun h => { h with pos := g h }).In P := M.In.hidAt fun x k hk => by
  unfold SameHid
  split <;> first | rfl | exact absurd hp hk | trivial

theorem M.In.hid_fld {P : List Nat} (g : Hidden → FldSt) (hp : 53 ∈ P) :
    (Machine.hid fun h => { h with fld := g h }).In P := M.In.hidAt fun x k hk => by
  unfold SameHid
  split <;> first | rfl | exact absurd hp hk | trivial

theorem M.In.hid_dcl {P : List Nat} (g : Hidden → DclSt) (hp : 54 ∈ P) :
    (Machine.hid fun h => { h with dcl := g h }).In P := M.In.hidAt fun x k hk => by
  unfold SameHid
  split <;> first | rfl | exact absurd hp hk | trivial

theorem M.In.hid_act {P : List Nat} (g : Hidden → ActSt) (hp : 55 ∈ P) :
    (Machine.hid fun h => { h with act := g h }).In P := M.In.hidAt fun x k hk => by
  unfold SameHid
  split <;> first | rfl | exact absurd hp hk | trivial

theorem M.In.hid_afe {P : List Nat} (g : Hidden → AfeSt) (hp : 56 ∈ P) :
    (Machine.hid fun h => { h with afe := g h }).In P := M.In.hidAt fun x k hk => by
  unfold SameHid
  split <;> first | rfl | exact absurd hp hk | trivial

theorem M.In.hid_mtr {P : List Nat} (g : Hidden → MtrSt) (hp : 57 ∈ P) :
    (Machine.hid fun h => { h with mtr := g h }).In P := M.In.hidAt fun x k hk => by
  unfold SameHid
  split <;> first | rfl | exact absurd hp hk | trivial

theorem M.In.hid_cnv {P : List Nat} (g : Hidden → CnvSt) (hp : 58 ∈ P) :
    (Machine.hid fun h => { h with cnv := g h }).In P := M.In.hidAt fun x k hk => by
  unfold SameHid
  split <;> first | rfl | exact absurd hp hk | trivial

theorem M.In.hid_lvp {P : List Nat} (g : Hidden → LvpSt) (hp : 59 ∈ P) :
    (Machine.hid fun h => { h with lvp := g h }).In P := M.In.hidAt fun x k hk => by
  unfold SameHid
  split <;> first | rfl | exact absurd hp hk | trivial

theorem M.In.hid_mem {P : List Nat} (g : Hidden → MemSt) (hp : 60 ∈ P) :
    (Machine.hid fun h => { h with mem := g h }).In P := M.In.hidAt fun x k hk => by
  unfold SameHid
  split <;> first | rfl | exact absurd hp hk | trivial

theorem M.In.hid_lcy {P : List Nat} (g : Hidden → LcySt) (hp : 61 ∈ P) :
    (Machine.hid fun h => { h with lcy := g h }).In P := M.In.hidAt fun x k hk => by
  unfold SameHid
  split <;> first | rfl | exact absurd hp hk | trivial

theorem M.In.wtab {P : List Nat} (id o : Nat) (bs : List Byte) (h : 32 ∈ P) : (Machine.wtab id o bs).In P :=
  M.In.forM (fun _ => M.In.tab _ _ h) _

theorem M.In.fresh {P : List Nat} (h : 42 ∈ P) : (Machine.fresh).In P :=
  M.In.hidden.bind fun _ => (M.In.hid_fresh _ h).bind fun _ => M.In.pure _

theorem M.In.freshBytes {P : List Nat} (n : Nat) (h : 42 ∈ P) : (Machine.freshBytes n).In P :=
  M.In.hidden.bind fun _ => (M.In.hid_fresh _ h).bind fun _ => M.In.pure _

theorem M.In.freshRats {P : List Nat} (n : Nat) (h : 42 ∈ P) : (Machine.freshRats n).In P :=
  M.In.hidden.bind fun _ => (M.In.hid_fresh _ h).bind fun _ => M.In.pure _

/-! ## Where every place may change -/

theorem M.In.any99 {P : List Nat} (a : Nat) (w : Word) (h : 99 ∈ P) : (Machine.wr a w).In P := M.In.any _ h

theorem M.In.wfAny {P : List Nat} (x : FldAt) (v : Nat) (h : 99 ∈ P) : (Machine.wf x v).In P :=
  (M.In.rd _).bind fun _ => M.In.any _ h

theorem M.In.incAny {P : List Nat} (x : FldAt) (h : 99 ∈ P) : (Machine.inc x).In P :=
  (M.In.rf _).bind fun _ => M.In.ite (M.In.wfAny _ _ h) (M.In.pure _)

theorem M.In.incByAny {P : List Nat} (x : FldAt) (n : Nat) (h : 99 ∈ P) : (Machine.incBy x n).In P :=
  (M.In.rf _).bind fun _ => M.In.wfAny _ _ h

theorem M.In.incWrapAny {P : List Nat} (x : FldAt) (h : 99 ∈ P) : (Machine.incWrap x).In P :=
  (M.In.rf _).bind fun _ => M.In.wfAny _ _ h

theorem M.In.hidAny {P : List Nat} (f : Hidden → Hidden) (h : 99 ∈ P) : (Machine.hid f).In P := M.In.any _ h

theorem M.In.wtab99 {P : List Nat} (id o : Nat) (bs : List Byte) (h : 99 ∈ P) : (Machine.wtab id o bs).In P :=
  M.In.forM (fun _ => M.In.any _ h) _

theorem M.In.fresh99 {P : List Nat} (h : 99 ∈ P) : (Machine.fresh).In P :=
  M.In.hidden.bind fun _ => (M.In.hidAny _ h).bind fun _ => M.In.pure _

theorem M.In.freshBytes99 {P : List Nat} (n : Nat) (h : 99 ∈ P) : (Machine.freshBytes n).In P :=
  M.In.hidden.bind fun _ => (M.In.hidAny _ h).bind fun _ => M.In.pure _

theorem M.In.freshRats99 {P : List Nat} (n : Nat) (h : 99 ∈ P) : (Machine.freshRats n).In P :=
  M.In.hidden.bind fun _ => (M.In.hidAny _ h).bind fun _ => M.In.pure _

/-! ## Pages of arrays -/

theorem page_add (b x : Nat) (h : b % 65536 + x < 65536) : (b + x) / 65536 = b / 65536 := by omega

theorem page_hole (b : Nat) : (b / 65536 * 65536 + 65532) / 65536 = b / 65536 := by omega

/-- The words of an array of registers lie in the page of its first word. -/
theorem arr_page (b s f n i : Nat) (h : b % 65536 + s * n ≤ 65536) (hs : 0 < s) :
    arr b s f n i / 65536 = b / 65536 := by
  unfold arr
  split
  · rename_i h'
    have h1 : s * (i + 1) ≤ s * n := Nat.mul_le_mul_left s h'.2
    rw [Nat.mul_succ] at h1
    exact page_add _ _ (by omega)
  · exact page_hole b

theorem arr2_page (b s f n q m i j : Nat) (h : b % 65536 + s * n ≤ 65536) (hq : q * m ≤ s) (h0 : 0 < q) :
    arr2 b s f n q m i j / 65536 = b / 65536 := by
  unfold arr2
  split
  · rename_i h'
    have h1 : s * (i + 1) ≤ s * n := Nat.mul_le_mul_left s h'.2.1
    have h2 : q * (j + 1) ≤ q * m := Nat.mul_le_mul_left q h'.2.2
    rw [Nat.mul_succ] at h1 h2
    rw [Nat.add_assoc]
    exact page_add _ _ (by omega)
  · exact page_hole b

end Sys2Proof.Machine
end

