-- ==== Sys2Proof/Laws/FootCore.lean ====
section
/-! SUPPORT. Footprints of the operations, groups, the ledger, replies and sessions: the places (Laws/Frame.lean) that each
operation may change. -/

set_option linter.all false

namespace Sys2Proof.Machine

theorem SYS.ISLAND_page (i : Nat) : SYS.ISLAND i / 65536 = 0 :=
  arr_page _ _ _ _ _ (by decide) (by decide)

theorem SYS.XFER_page (i : Nat) : SYS.XFER i / 65536 = 0 :=
  arr_page _ _ _ _ _ (by decide) (by decide)

theorem CMD.TUNNEL_TX_page (i : Nat) : CMD.TUNNEL_TX i / 65536 = 1 :=
  arr_page _ _ _ _ _ (by decide) (by decide)

theorem CMD.TUNNEL_RX_page (i : Nat) : CMD.TUNNEL_RX i / 65536 = 1 :=
  arr_page _ _ _ _ _ (by decide) (by decide)

theorem MAP.ILK_HITS_page (i : Nat) : MAP.ILK_HITS i / 65536 = 2 :=
  arr_page _ _ _ _ _ (by decide) (by decide)

theorem MAP.CHMAP_page (i j : Nat) : MAP.CHMAP i j / 65536 = 2 :=
  arr2_page _ _ _ _ _ _ _ _ (by decide) (by decide) (by decide)

theorem MAP.ILK_page (i j : Nat) : MAP.ILK i j / 65536 = 2 :=
  arr2_page _ _ _ _ _ _ _ _ (by decide) (by decide) (by decide)

theorem PLS.TB_CFG_page (i : Nat) : PLS.TB_CFG i / 65536 = 3 :=
  arr_page _ _ _ _ _ (by decide) (by decide)

theorem PLS.TB_PERIOD_page (i : Nat) : PLS.TB_PERIOD i / 65536 = 3 :=
  arr_page _ _ _ _ _ (by decide) (by decide)

theorem PLS.TB_SYNC_page (i : Nat) : PLS.TB_SYNC i / 65536 = 3 :=
  arr_page _ _ _ _ _ (by decide) (by decide)

theorem PLS.TB_COUNT_page (i : Nat) : PLS.TB_COUNT i / 65536 = 3 :=
  arr_page _ _ _ _ _ (by decide) (by decide)

theorem PLS.TRG_CFG_page (i j : Nat) : PLS.TRG_CFG i j / 65536 = 3 :=
  arr2_page _ _ _ _ _ _ _ _ (by decide) (by decide) (by decide)

theorem PLS.TRG_POS_page (i j : Nat) : PLS.TRG_POS i j / 65536 = 3 :=
  arr2_page _ _ _ _ _ _ _ _ (by decide) (by decide) (by decide)

theorem PLS.GRP_CFG_page (i : Nat) : PLS.GRP_CFG i / 65536 = 3 :=
  arr_page _ _ _ _ _ (by decide) (by decide)

theorem PLS.GRP_STAT_page (i : Nat) : PLS.GRP_STAT i / 65536 = 3 :=
  arr_page _ _ _ _ _ (by decide) (by decide)

theorem PLS.DEADTIME_page (i : Nat) : PLS.DEADTIME i / 65536 = 3 :=
  arr_page _ _ _ _ _ (by decide) (by decide)

theorem PLS.CAL_page (i : Nat) : PLS.CAL i / 65536 = 3 :=
  arr_page _ _ _ _ _ (by decide) (by decide)

theorem PLS.RISE_page (i : Nat) : PLS.RISE i / 65536 = 3 :=
  arr_page _ _ _ _ _ (by decide) (by decide)

theorem PLS.FALL_page (i : Nat) : PLS.FALL i / 65536 = 3 :=
  arr_page _ _ _ _ _ (by decide) (by decide)

theorem PLS.RISE_ACT_page (i : Nat) : PLS.RISE_ACT i / 65536 = 3 :=
  arr_page _ _ _ _ _ (by decide) (by decide)

theorem PLS.FALL_ACT_page (i : Nat) : PLS.FALL_ACT i / 65536 = 3 :=
  arr_page _ _ _ _ _ (by decide) (by decide)

theorem TRP.CELL_STAT_page (i : Nat) : TRP.CELL_STAT i / 65536 = 4 :=
  arr_page _ _ _ _ _ (by decide) (by decide)

theorem TRP.THR_page (i : Nat) : TRP.THR i / 65536 = 4 :=
  arr_page _ _ _ _ _ (by decide) (by decide)

theorem TRP.GRP_TRIP_page (i : Nat) : TRP.GRP_TRIP i / 65536 = 4 :=
  arr_page _ _ _ _ _ (by decide) (by decide)

theorem TRP.BANK_STAT_page (i : Nat) : TRP.BANK_STAT i / 65536 = 4 :=
  arr_page _ _ _ _ _ (by decide) (by decide)

theorem TRP.CELLCFG_page (i j : Nat) : TRP.CELLCFG i j / 65536 = 4 :=
  arr2_page _ _ _ _ _ _ _ _ (by decide) (by decide) (by decide)

theorem GDR.DRV_CFG_page (i : Nat) : GDR.DRV_CFG i / 65536 = 5 :=
  arr_page _ _ _ _ _ (by decide) (by decide)

theorem GDR.BST_STAT_page (i : Nat) : GDR.BST_STAT i / 65536 = 5 :=
  arr_page _ _ _ _ _ (by decide) (by decide)

theorem GDR.SC_STAT_page (i : Nat) : GDR.SC_STAT i / 65536 = 5 :=
  arr_page _ _ _ _ _ (by decide) (by decide)

theorem GDR.FLT_page (i : Nat) : GDR.FLT i / 65536 = 5 :=
  arr_page _ _ _ _ _ (by decide) (by decide)

theorem GDR.RDY_CFG_page (i : Nat) : GDR.RDY_CFG i / 65536 = 5 :=
  arr_page _ _ _ _ _ (by decide) (by decide)

theorem MEA.WIN_OUT_page (i : Nat) : MEA.WIN_OUT i / 65536 = 6 :=
  arr_page _ _ _ _ _ (by decide) (by decide)

theorem MEA.CONV_STAT_page (i : Nat) : MEA.CONV_STAT i / 65536 = 6 :=
  arr_page _ _ _ _ _ (by decide) (by decide)

theorem MEA.BIND_page (i j : Nat) : MEA.BIND i j / 65536 = 6 :=
  arr2_page _ _ _ _ _ _ _ _ (by decide) (by decide) (by decide)

theorem MEA.PC_CFG_page (i : Nat) : MEA.PC_CFG i / 65536 = 6 :=
  arr_page _ _ _ _ _ (by decide) (by decide)

theorem MEA.PC_SUM_page (i : Nat) : MEA.PC_SUM i / 65536 = 6 :=
  arr_page _ _ _ _ _ (by decide) (by decide)

theorem MEA.RESULT_page (i : Nat) : MEA.RESULT i / 65536 = 6 :=
  arr_page _ _ _ _ _ (by decide) (by decide)

theorem MEA.WIN_page (i : Nat) : MEA.WIN i / 65536 = 6 :=
  arr_page _ _ _ _ _ (by decide) (by decide)

theorem MEA.SEQ_page (i j : Nat) : MEA.SEQ i j / 65536 = 6 :=
  arr2_page _ _ _ _ _ _ _ _ (by decide) (by decide) (by decide)

theorem LAT.RG_CFG_page (i : Nat) : LAT.RG_CFG i / 65536 = 7 :=
  arr_page _ _ _ _ _ (by decide) (by decide)

theorem LAT.RG_STAT_page (i : Nat) : LAT.RG_STAT i / 65536 = 7 :=
  arr_page _ _ _ _ _ (by decide) (by decide)

theorem LAT.MS_STAT_page (i : Nat) : LAT.MS_STAT i / 65536 = 7 :=
  arr_page _ _ _ _ _ (by decide) (by decide)

theorem LAT.RAMP_page (i : Nat) : LAT.RAMP i / 65536 = 7 :=
  arr_page _ _ _ _ _ (by decide) (by decide)

theorem LAT.TARGET_page (i : Nat) : LAT.TARGET i / 65536 = 7 :=
  arr_page _ _ _ _ _ (by decide) (by decide)

theorem LAT.CELL_STAT_page (i : Nat) : LAT.CELL_STAT i / 65536 = 7 :=
  arr_page _ _ _ _ _ (by decide) (by decide)

theorem LAT.OUT_page (i : Nat) : LAT.OUT i / 65536 = 7 :=
  arr_page _ _ _ _ _ (by decide) (by decide)

theorem LAT.RAMPED_page (i : Nat) : LAT.RAMPED i / 65536 = 7 :=
  arr_page _ _ _ _ _ (by decide) (by decide)

theorem LAT.TPL_CTL_page (i : Nat) : LAT.TPL_CTL i / 65536 = 7 :=
  arr_page _ _ _ _ _ (by decide) (by decide)

theorem LAT.TPL_BASE_page (i : Nat) : LAT.TPL_BASE i / 65536 = 7 :=
  arr_page _ _ _ _ _ (by decide) (by decide)

theorem LAT.TPL_COEF_page (i : Nat) : LAT.TPL_COEF i / 65536 = 7 :=
  arr_page _ _ _ _ _ (by decide) (by decide)

theorem LAT.DESC_page (i j : Nat) : LAT.DESC i j / 65536 = 7 :=
  arr2_page _ _ _ _ _ _ _ _ (by decide) (by decide) (by decide)

theorem FLD.MCH_CFG_page (i : Nat) : FLD.MCH_CFG i / 65536 = 8 :=
  arr_page _ _ _ _ _ (by decide) (by decide)

theorem FLD.ANGLE_page (i : Nat) : FLD.ANGLE i / 65536 = 8 :=
  arr_page _ _ _ _ _ (by decide) (by decide)

theorem FLD.IN_SLOT0_page (i : Nat) : FLD.IN_SLOT0 i / 65536 = 8 :=
  arr_page _ _ _ _ _ (by decide) (by decide)

theorem FLD.IN_SLOT1_page (i : Nat) : FLD.IN_SLOT1 i / 65536 = 8 :=
  arr_page _ _ _ _ _ (by decide) (by decide)

theorem FLD.I_SCALE_page (i : Nat) : FLD.I_SCALE i / 65536 = 8 :=
  arr_page _ _ _ _ _ (by decide) (by decide)

theorem FLD.V_SCALE_page (i : Nat) : FLD.V_SCALE i / 65536 = 8 :=
  arr_page _ _ _ _ _ (by decide) (by decide)

theorem FLD.MOTOR0_page (i : Nat) : FLD.MOTOR0 i / 65536 = 8 :=
  arr_page _ _ _ _ _ (by decide) (by decide)

theorem FLD.MOTOR1_page (i : Nat) : FLD.MOTOR1 i / 65536 = 8 :=
  arr_page _ _ _ _ _ (by decide) (by decide)

theorem FLD.KP_page (i : Nat) : FLD.KP i / 65536 = 8 :=
  arr_page _ _ _ _ _ (by decide) (by decide)

theorem FLD.KI_page (i : Nat) : FLD.KI i / 65536 = 8 :=
  arr_page _ _ _ _ _ (by decide) (by decide)

theorem FLD.KXY_page (i : Nat) : FLD.KXY i / 65536 = 8 :=
  arr_page _ _ _ _ _ (by decide) (by decide)

theorem FLD.MAP_PSI_page (i : Nat) : FLD.MAP_PSI i / 65536 = 8 :=
  arr_page _ _ _ _ _ (by decide) (by decide)

theorem FLD.FW_page (i : Nat) : FLD.FW i / 65536 = 8 :=
  arr_page _ _ _ _ _ (by decide) (by decide)

theorem FLD.MOD_page (i : Nat) : FLD.MOD i / 65536 = 8 :=
  arr_page _ _ _ _ _ (by decide) (by decide)

theorem FLD.NP_page (i : Nat) : FLD.NP i / 65536 = 8 :=
  arr_page _ _ _ _ _ (by decide) (by decide)

theorem FLD.RATING_page (i : Nat) : FLD.RATING i / 65536 = 8 :=
  arr_page _ _ _ _ _ (by decide) (by decide)

theorem FLD.TQ_LIM_page (i : Nat) : FLD.TQ_LIM i / 65536 = 8 :=
  arr_page _ _ _ _ _ (by decide) (by decide)

theorem FLD.P_LIM_page (i : Nat) : FLD.P_LIM i / 65536 = 8 :=
  arr_page _ _ _ _ _ (by decide) (by decide)

theorem FLD.DERATE_page (i : Nat) : FLD.DERATE i / 65536 = 8 :=
  arr_page _ _ _ _ _ (by decide) (by decide)

theorem FLD.TQ_REQ_page (i : Nat) : FLD.TQ_REQ i / 65536 = 8 :=
  arr_page _ _ _ _ _ (by decide) (by decide)

theorem FLD.TQ_SLEW_page (i : Nat) : FLD.TQ_SLEW i / 65536 = 8 :=
  arr_page _ _ _ _ _ (by decide) (by decide)

theorem FLD.THERM_page (i j : Nat) : FLD.THERM i j / 65536 = 8 :=
  arr2_page _ _ _ _ _ _ _ _ (by decide) (by decide) (by decide)

theorem FLD.FAULT_CFG_page (i : Nat) : FLD.FAULT_CFG i / 65536 = 8 :=
  arr_page _ _ _ _ _ (by decide) (by decide)

theorem FLD.POSTFAULT_page (i : Nat) : FLD.POSTFAULT i / 65536 = 8 :=
  arr_page _ _ _ _ _ (by decide) (by decide)

theorem FLD.ASC_CFG_page (i : Nat) : FLD.ASC_CFG i / 65536 = 8 :=
  arr_page _ _ _ _ _ (by decide) (by decide)

theorem FLD.MCH_STAT_page (i : Nat) : FLD.MCH_STAT i / 65536 = 8 :=
  arr_page _ _ _ _ _ (by decide) (by decide)

theorem FLD.CNT0_page (i : Nat) : FLD.CNT0 i / 65536 = 8 :=
  arr_page _ _ _ _ _ (by decide) (by decide)

theorem FLD.CNT1_page (i : Nat) : FLD.CNT1 i / 65536 = 8 :=
  arr_page _ _ _ _ _ (by decide) (by decide)

theorem FLD.TQ_OUT_page (i : Nat) : FLD.TQ_OUT i / 65536 = 8 :=
  arr_page _ _ _ _ _ (by decide) (by decide)

theorem FLD.I_DQ_REF_page (i : Nat) : FLD.I_DQ_REF i / 65536 = 8 :=
  arr_page _ _ _ _ _ (by decide) (by decide)

theorem FLD.I_DQ_page (i : Nat) : FLD.I_DQ i / 65536 = 8 :=
  arr_page _ _ _ _ _ (by decide) (by decide)

theorem FLD.V_DQ_page (i : Nat) : FLD.V_DQ i / 65536 = 8 :=
  arr_page _ _ _ _ _ (by decide) (by decide)

theorem FLD.PSI_STAT_page (i : Nat) : FLD.PSI_STAT i / 65536 = 8 :=
  arr_page _ _ _ _ _ (by decide) (by decide)

theorem FLD.NP_STAT_page (i : Nat) : FLD.NP_STAT i / 65536 = 8 :=
  arr_page _ _ _ _ _ (by decide) (by decide)

theorem FLD.ACT_GAIN_page (i : Nat) : FLD.ACT_GAIN i / 65536 = 8 :=
  arr_page _ _ _ _ _ (by decide) (by decide)

theorem FLD.ACT_MOTOR_page (i : Nat) : FLD.ACT_MOTOR i / 65536 = 8 :=
  arr_page _ _ _ _ _ (by decide) (by decide)

theorem POS.PU_CFG_page (i : Nat) : POS.PU_CFG i / 65536 = 10 :=
  arr_page _ _ _ _ _ (by decide) (by decide)

theorem POS.MODULUS_page (i : Nat) : POS.MODULUS i / 65536 = 10 :=
  arr_page _ _ _ _ _ (by decide) (by decide)

theorem POS.PU_STAT_page (i : Nat) : POS.PU_STAT i / 65536 = 10 :=
  arr_page _ _ _ _ _ (by decide) (by decide)

theorem POS.POSN_page (i : Nat) : POS.POSN i / 65536 = 10 :=
  arr_page _ _ _ _ _ (by decide) (by decide)

theorem POS.SPEED_page (i : Nat) : POS.SPEED i / 65536 = 10 :=
  arr_page _ _ _ _ _ (by decide) (by decide)

theorem POS.SSI_page (i : Nat) : POS.SSI i / 65536 = 10 :=
  arr_page _ _ _ _ _ (by decide) (by decide)

theorem POS.QUAD_page (i : Nat) : POS.QUAD i / 65536 = 10 :=
  arr_page _ _ _ _ _ (by decide) (by decide)

theorem POS.HALL_page (i : Nat) : POS.HALL i / 65536 = 10 :=
  arr_page _ _ _ _ _ (by decide) (by decide)

theorem POS.PT_CFG_page (i : Nat) : POS.PT_CFG i / 65536 = 10 :=
  arr_page _ _ _ _ _ (by decide) (by decide)

theorem POS.PCMP_TGT_page (i j : Nat) : POS.PCMP_TGT i j / 65536 = 10 :=
  arr2_page _ _ _ _ _ _ _ _ (by decide) (by decide) (by decide)

theorem POS.PCMP_CFG_page (i j : Nat) : POS.PCMP_CFG i j / 65536 = 10 :=
  arr2_page _ _ _ _ _ _ _ _ (by decide) (by decide) (by decide)

theorem POS.PCMP_STAT_page (i j : Nat) : POS.PCMP_STAT i j / 65536 = 10 :=
  arr2_page _ _ _ _ _ _ _ _ (by decide) (by decide) (by decide)

theorem POS.RES_CFG_page (i : Nat) : POS.RES_CFG i / 65536 = 10 :=
  arr_page _ _ _ _ _ (by decide) (by decide)

theorem POS.RES_SLOT_page (i : Nat) : POS.RES_SLOT i / 65536 = 10 :=
  arr_page _ _ _ _ _ (by decide) (by decide)

theorem POS.RES_TRK_page (i : Nat) : POS.RES_TRK i / 65536 = 10 :=
  arr_page _ _ _ _ _ (by decide) (by decide)

theorem POS.RES_LIM_page (i : Nat) : POS.RES_LIM i / 65536 = 10 :=
  arr_page _ _ _ _ _ (by decide) (by decide)

theorem POS.RES_STAT_page (i : Nat) : POS.RES_STAT i / 65536 = 10 :=
  arr_page _ _ _ _ _ (by decide) (by decide)

theorem POS.OBS_CFG_page (i : Nat) : POS.OBS_CFG i / 65536 = 10 :=
  arr_page _ _ _ _ _ (by decide) (by decide)

theorem POS.OBS_GAIN_page (i : Nat) : POS.OBS_GAIN i / 65536 = 10 :=
  arr_page _ _ _ _ _ (by decide) (by decide)

theorem POS.OBS_MOTOR_page (i : Nat) : POS.OBS_MOTOR i / 65536 = 10 :=
  arr_page _ _ _ _ _ (by decide) (by decide)

theorem POS.OBS_LIM_page (i : Nat) : POS.OBS_LIM i / 65536 = 10 :=
  arr_page _ _ _ _ _ (by decide) (by decide)

theorem POS.OBS_CATCH_page (i : Nat) : POS.OBS_CATCH i / 65536 = 10 :=
  arr_page _ _ _ _ _ (by decide) (by decide)

theorem POS.OBS_CTRL_page (i : Nat) : POS.OBS_CTRL i / 65536 = 10 :=
  arr_page _ _ _ _ _ (by decide) (by decide)

theorem POS.OBS_STAT_page (i : Nat) : POS.OBS_STAT i / 65536 = 10 :=
  arr_page _ _ _ _ _ (by decide) (by decide)

theorem POS.OBS_SPEED_page (i : Nat) : POS.OBS_SPEED i / 65536 = 10 :=
  arr_page _ _ _ _ _ (by decide) (by decide)

theorem ACT.GEAR_page (i : Nat) : ACT.GEAR i / 65536 = 11 :=
  arr_page _ _ _ _ _ (by decide) (by decide)

theorem ACT.CFG_page (i : Nat) : ACT.CFG i / 65536 = 11 :=
  arr_page _ _ _ _ _ (by decide) (by decide)

theorem ACT.SLOTS_page (i : Nat) : ACT.SLOTS i / 65536 = 11 :=
  arr_page _ _ _ _ _ (by decide) (by decide)

theorem ACT.SCALE_page (i : Nat) : ACT.SCALE i / 65536 = 11 :=
  arr_page _ _ _ _ _ (by decide) (by decide)

theorem ACT.LIMITS_page (i : Nat) : ACT.LIMITS i / 65536 = 11 :=
  arr_page _ _ _ _ _ (by decide) (by decide)

theorem ACT.LOOP_page (i : Nat) : ACT.LOOP i / 65536 = 11 :=
  arr_page _ _ _ _ _ (by decide) (by decide)

theorem ACT.MOVE_page (i : Nat) : ACT.MOVE i / 65536 = 11 :=
  arr_page _ _ _ _ _ (by decide) (by decide)

theorem ACT.CMD_page (i : Nat) : ACT.CMD i / 65536 = 11 :=
  arr_page _ _ _ _ _ (by decide) (by decide)

theorem ACT.STAT_page (i : Nat) : ACT.STAT i / 65536 = 11 :=
  arr_page _ _ _ _ _ (by decide) (by decide)

theorem ACT.TRAVEL_page (i : Nat) : ACT.TRAVEL i / 65536 = 11 :=
  arr_page _ _ _ _ _ (by decide) (by decide)

theorem LVP.SRC_LIM_page (i : Nat) : LVP.SRC_LIM i / 65536 = 15 :=
  arr_page _ _ _ _ _ (by decide) (by decide)

theorem SAF.FUNC_CFG_page (i : Nat) : SAF.FUNC_CFG i / 65536 = 16 :=
  arr_page _ _ _ _ _ (by decide) (by decide)

theorem SAF.FUNC_GRP_page (i : Nat) : SAF.FUNC_GRP i / 65536 = 16 :=
  arr_page _ _ _ _ _ (by decide) (by decide)

theorem SAF.FUNC_STAT_page (i : Nat) : SAF.FUNC_STAT i / 65536 = 16 :=
  arr_page _ _ _ _ _ (by decide) (by decide)

theorem SAF.GRP_page (i : Nat) : SAF.GRP i / 65536 = 16 :=
  arr_page _ _ _ _ _ (by decide) (by decide)

theorem SAF.SIN_page (i : Nat) : SAF.SIN i / 65536 = 16 :=
  arr_page _ _ _ _ _ (by decide) (by decide)

theorem SAF.SSUP_page (i : Nat) : SAF.SSUP i / 65536 = 16 :=
  arr_page _ _ _ _ _ (by decide) (by decide)

theorem SAF.SLS_page (i : Nat) : SAF.SLS i / 65536 = 16 :=
  arr_page _ _ _ _ _ (by decide) (by decide)

theorem FLG.LASTING_page (i : Nat) : FLG.LASTING i / 65536 = 17 :=
  arr_page _ _ _ _ _ (by decide) (by decide)

theorem FLG.OCCUR_page (i : Nat) : FLG.OCCUR i / 65536 = 17 :=
  arr_page _ _ _ _ _ (by decide) (by decide)

theorem FLG.ENTRY0_page (i : Nat) : FLG.ENTRY0 i / 65536 = 17 :=
  arr_page _ _ _ _ _ (by decide) (by decide)

theorem FLG.ENTRY1_page (i : Nat) : FLG.ENTRY1 i / 65536 = 17 :=
  arr_page _ _ _ _ _ (by decide) (by decide)

theorem CHD.CNT_page (i : Nat) : CHD.CNT i / 65536 = 18 :=
  arr_page _ _ _ _ _ (by decide) (by decide)

theorem CHD.CKPT_page (i : Nat) : CHD.CKPT i / 65536 = 18 :=
  arr_page _ _ _ _ _ (by decide) (by decide)

theorem MEM.REGION_page (i : Nat) : MEM.REGION i / 65536 = 19 :=
  arr_page _ _ _ _ _ (by decide) (by decide)

theorem MEM.ERR0_page (i : Nat) : MEM.ERR0 i / 65536 = 19 :=
  arr_page _ _ _ _ _ (by decide) (by decide)

theorem MEM.ERR1_page (i : Nat) : MEM.ERR1 i / 65536 = 19 :=
  arr_page _ _ _ _ _ (by decide) (by decide)

theorem BUS.CTRL_page (i : Nat) : BUS.CTRL i / 65536 = 20 :=
  arr_page _ _ _ _ _ (by decide) (by decide)

theorem BUS.NBT_page (i : Nat) : BUS.NBT i / 65536 = 20 :=
  arr_page _ _ _ _ _ (by decide) (by decide)

theorem BUS.DBT_page (i : Nat) : BUS.DBT i / 65536 = 20 :=
  arr_page _ _ _ _ _ (by decide) (by decide)

theorem BUS.XBT_page (i : Nat) : BUS.XBT i / 65536 = 20 :=
  arr_page _ _ _ _ _ (by decide) (by decide)

theorem BUS.STAT_page (i : Nat) : BUS.STAT i / 65536 = 20 :=
  arr_page _ _ _ _ _ (by decide) (by decide)

theorem BUS.RX_HEAD_page (i : Nat) : BUS.RX_HEAD i / 65536 = 20 :=
  arr_page _ _ _ _ _ (by decide) (by decide)

theorem BUS.RX_SEL_page (i : Nat) : BUS.RX_SEL i / 65536 = 20 :=
  arr_page _ _ _ _ _ (by decide) (by decide)

theorem BUS.RX_STAT_page (i : Nat) : BUS.RX_STAT i / 65536 = 20 :=
  arr_page _ _ _ _ _ (by decide) (by decide)

theorem BUS.TX_STAT_page (i : Nat) : BUS.TX_STAT i / 65536 = 20 :=
  arr_page _ _ _ _ _ (by decide) (by decide)

theorem BUS.WIN_page (i : Nat) : BUS.WIN i / 65536 = 20 :=
  arr_page _ _ _ _ _ (by decide) (by decide)

theorem BUS.WINDATA_page (i j : Nat) : BUS.WINDATA i j / 65536 = 20 :=
  arr2_page _ _ _ _ _ _ _ _ (by decide) (by decide) (by decide)

theorem NET.IF_CFG_page (i : Nat) : NET.IF_CFG i / 65536 = 21 :=
  arr_page _ _ _ _ _ (by decide) (by decide)

theorem NET.IP_page (i : Nat) : NET.IP i / 65536 = 21 :=
  arr_page _ _ _ _ _ (by decide) (by decide)

theorem NET.STAT_page (i : Nat) : NET.STAT i / 65536 = 21 :=
  arr_page _ _ _ _ _ (by decide) (by decide)

theorem NET.MAC_HI_page (i : Nat) : NET.MAC_HI i / 65536 = 21 :=
  arr_page _ _ _ _ _ (by decide) (by decide)

theorem NET.MAC_LO_page (i : Nat) : NET.MAC_LO i / 65536 = 21 :=
  arr_page _ _ _ _ _ (by decide) (by decide)

theorem LCY.FW_STAT_page (i : Nat) : LCY.FW_STAT i / 65536 = 22 :=
  arr_page _ _ _ _ _ (by decide) (by decide)

theorem LCY.FW_VER_page (i j : Nat) : LCY.FW_VER i j / 65536 = 22 :=
  arr2_page _ _ _ _ _ _ _ _ (by decide) (by decide) (by decide)

theorem foot_canEnqueue (n : Nat) (t : TxFrame) : (canEnqueue n t).In [20, 47] := by
  unfold canEnqueue
  repeat' first
    | with_reducible refine M.In.bind ?_ fun _ => ?_
    | with_reducible refine M.In.ite ?_ ?_
    | with_reducible exact M.In.pure _
    | with_reducible exact M.In.hidden
    | (with_reducible refine M.In.wf 20 _ _ ?_ ?_) <;> first | decide | exact BUS.TX_STAT_page _
    | (with_reducible refine M.In.inc 20 _ ?_ ?_) <;> first | decide | exact BUS.TX_STAT_page _
    | (refine M.In.hid_bus _ ?_; decide)
    | split
    | dsimp only

theorem foot_eventLost (route : Nat) : (eventLost route).In [1, 43] := by
  unfold eventLost
  repeat' first
    | with_reducible refine M.In.bind ?_ fun _ => ?_
    | with_reducible exact M.In.pure _
    | (with_reducible refine M.In.inc 1 _ ?_ ?_) <;> first | decide
    | (refine M.In.hid_cmd _ ?_; decide)
    | dsimp only

theorem foot_eventPacket (route op page inst scope : Nat) (body : List Byte) : (eventPacket route op page inst scope body).In [] := by
  unfold eventPacket
  repeat' first
    | with_reducible refine M.In.bind ?_ fun _ => ?_
    | with_reducible exact M.In.pure _
    | with_reducible exact M.In.getS
    | (with_reducible refine M.In.hidAt fun x k hk => ?_) <;> (unfold SameHid; split <;> first | rfl | exact absurd (by decide) hk)
    | split
    | dsimp only

theorem foot_eventDelivered (route : Nat) : (eventDelivered route).In [43] := by
  unfold eventDelivered
  repeat' first
    | with_reducible refine M.In.bind ?_ fun _ => ?_
    | with_reducible exact M.In.pure _
    | (refine M.In.hid_cmd _ ?_; decide)
    | dsimp only

theorem foot_setAttn : (setAttn).In [43] := by
  unfold setAttn
  repeat' first
    | with_reducible refine M.In.bind ?_ fun _ => ?_
    | with_reducible refine M.In.ite ?_ ?_
    | with_reducible exact M.In.pure _
    | with_reducible exact M.In.getS
    | (refine M.In.hid_cmd _ ?_; decide)
    | split
    | dsimp only

theorem foot_eventSpi (op page inst scope : Nat) (body : List Byte) : (eventSpi op page inst scope body).In [1, 33, 43] := by
  unfold eventSpi
  repeat' first
    | with_reducible refine M.In.bind ?_ fun _ => ?_
    | with_reducible refine M.In.ite ?_ ?_
    | with_reducible exact M.In.pure _
    | with_reducible exact M.In.getS
    | (with_reducible refine (foot_eventLost ..).mono ?_) <;> decide
    | (with_reducible refine (foot_eventPacket ..).mono ?_) <;> decide
    | (with_reducible refine (foot_eventDelivered ..).mono ?_) <;> decide
    | (with_reducible refine (foot_setAttn ..).mono ?_) <;> decide
    | (with_reducible refine M.In.spiEvent _ ?_) <;> decide
    | split
    | dsimp only

theorem foot_canxlSend (p : OutPkt) : (canxlSend p).In [1, 20, 47] := by
  unfold canxlSend
  repeat' first
    | with_reducible refine M.In.bind ?_ fun _ => ?_
    | with_reducible refine M.In.ite ?_ ?_
    | with_reducible exact M.In.pure _
    | with_reducible exact M.In.getS
    | (with_reducible refine (foot_canEnqueue ..).mono ?_) <;> decide
    | (with_reducible refine M.In.inc 1 _ ?_ ?_) <;> first | decide | exact BUS.CTRL_page _
    | (with_reducible refine M.In.hidAt fun x k hk => ?_) <;> (unfold SameHid; split <;> first | rfl | exact absurd (by decide) hk)
    | split
    | dsimp only

theorem foot_eventCanxl (op page inst scope : Nat) (body : List Byte) : (eventCanxl op page inst scope body).In [1, 20, 43, 47] := by
  unfold eventCanxl
  repeat' first
    | with_reducible refine M.In.bind ?_ fun _ => ?_
    | with_reducible refine M.In.ite ?_ ?_
    | with_reducible exact M.In.pure _
    | with_reducible exact M.In.rf _
    | (with_reducible refine (foot_eventLost ..).mono ?_) <;> decide
    | (with_reducible refine (foot_eventPacket ..).mono ?_) <;> decide
    | (with_reducible refine (foot_eventDelivered ..).mono ?_) <;> decide
    | (with_reducible refine (foot_canxlSend ..).mono ?_) <;> decide
    | (refine M.In.hid_cmd _ ?_; decide)
    | split
    | dsimp only

theorem foot_ethSend (o : EthOut) : (ethSend o).In [47] := by
  unfold ethSend
  repeat' first
    | with_reducible refine M.In.bind ?_ fun _ => ?_
    | with_reducible exact M.In.pure _
    | (refine M.In.hid_bus _ ?_; decide)
    | dsimp only

theorem foot_eventUdp (op page inst scope : Nat) (body : List Byte) : (eventUdp op page inst scope body).In [1, 43, 47] := by
  unfold eventUdp
  repeat' first
    | with_reducible refine M.In.bind ?_ fun _ => ?_
    | with_reducible refine M.In.ite ?_ ?_
    | with_reducible exact M.In.pure _
    | with_reducible exact M.In.getS
    | (with_reducible refine (foot_eventLost ..).mono ?_) <;> decide
    | (with_reducible refine (foot_eventPacket ..).mono ?_) <;> decide
    | (with_reducible refine (foot_eventDelivered ..).mono ?_) <;> decide
    | (with_reducible refine (foot_ethSend ..).mono ?_) <;> decide
    | split
    | dsimp only

theorem foot_event (op page inst scope : Nat) (body : List Byte) : (event op page inst scope body).In [1, 20, 33, 43, 47] := by
  unfold event
  repeat' first
    | with_reducible refine M.In.bind ?_ fun _ => ?_
    | with_reducible refine M.In.ite ?_ ?_
    | with_reducible exact M.In.pure _
    | with_reducible exact M.In.getS
    | (with_reducible refine (foot_eventSpi ..).mono ?_) <;> decide
    | (with_reducible refine (foot_eventCanxl ..).mono ?_) <;> decide
    | (with_reducible refine (foot_eventUdp ..).mono ?_) <;> decide
    | split
    | dsimp only

theorem foot_eventDev (op : Nat) (body : List Byte) : (eventDev op body).In [1, 20, 33, 43, 47] := by
  unfold eventDev
  repeat' first
    | with_reducible refine M.In.bind ?_ fun _ => ?_
    | with_reducible exact M.In.pure _
    | (with_reducible refine (foot_event ..).mono ?_) <;> decide
    | dsimp only

theorem foot_eventGrp (op g : Nat) (body : List Byte) : (eventGrp op g body).In [1, 20, 33, 43, 47] := by
  unfold eventGrp
  repeat' first
    | with_reducible refine M.In.bind ?_ fun _ => ?_
    | with_reducible exact M.In.pure _
    | (with_reducible refine (foot_event ..).mono ?_) <;> decide
    | dsimp only

theorem foot_deliver (x : Sample) (stale : Bool) : (deliver x stale).In [0, 6, 50] := by
  unfold deliver
  repeat' first
    | with_reducible refine M.In.bind ?_ fun _ => ?_
    | with_reducible refine M.In.ite ?_ ?_
    | with_reducible exact M.In.pure _
    | with_reducible exact M.In.getS
    | (with_reducible refine M.In.wr 0 _ _ ?_ ?_) <;> first | decide | exact MEA.RESULT_page _ | exact MEA.WIN_page _ | exact MEA.WIN_OUT_page _ | exact SYS.ISLAND_page _ | exact SYS.XFER_page _
    | (with_reducible refine M.In.wr 6 _ _ ?_ ?_) <;> first | decide | exact MEA.RESULT_page _ | exact MEA.WIN_page _ | exact MEA.WIN_OUT_page _ | exact SYS.ISLAND_page _ | exact SYS.XFER_page _
    | (with_reducible refine M.In.inc 0 _ ?_ ?_) <;> first | decide | exact MEA.RESULT_page _ | exact MEA.WIN_page _ | exact MEA.WIN_OUT_page _ | exact SYS.ISLAND_page _ | exact SYS.XFER_page _
    | (with_reducible refine M.In.inc 6 _ ?_ ?_) <;> first | decide | exact MEA.RESULT_page _ | exact MEA.WIN_page _ | exact MEA.WIN_OUT_page _ | exact SYS.ISLAND_page _ | exact SYS.XFER_page _
    | (refine M.In.hid_mea _ ?_; decide)
    | with_reducible refine M.In.forM (fun _ => ?_) _
    | with_reducible refine M.In.optForM (fun _ => ?_) _
    | split
    | dsimp only

theorem foot_resolveHeld (k : Nat) (stale : Bool) : (resolveHeld k stale).In [0, 6, 50] := by
  unfold resolveHeld
  repeat' first
    | with_reducible refine M.In.bind ?_ fun _ => ?_
    | with_reducible refine M.In.ite ?_ ?_
    | with_reducible exact M.In.pure _
    | with_reducible exact M.In.getS
    | (with_reducible refine (foot_deliver ..).mono ?_) <;> decide
    | (refine M.In.hid_mea _ ?_; decide)
    | with_reducible refine M.In.forM (fun _ => ?_) _
    | with_reducible refine M.In.optForM (fun _ => ?_) _
    | split
    | dsimp only

theorem foot_updGrp (g : Nat) (f : Grp → Grp) : (updGrp g f).In [44] := by
  unfold updGrp
  repeat' first
    | with_reducible refine M.In.bind ?_ fun _ => ?_
    | with_reducible exact M.In.pure _
    | (refine M.In.hid_pls _ ?_; decide)
    | dsimp only

theorem foot_updChan (c : Nat) (f : Chan → Chan) : (updChan c f).In [44] := by
  unfold updChan
  repeat' first
    | with_reducible refine M.In.bind ?_ fun _ => ?_
    | with_reducible exact M.In.pure _
    | (refine M.In.hid_pls _ ?_; decide)
    | dsimp only

theorem foot_updTb (t : Nat) (f : Tb → Tb) : (updTb t f).In [44] := by
  unfold updTb
  repeat' first
    | with_reducible refine M.In.bind ?_ fun _ => ?_
    | with_reducible exact M.In.pure _
    | (refine M.In.hid_pls _ ?_; decide)
    | dsimp only

theorem foot_updTrg (k : Nat) (f : Trg → Trg) : (updTrg k f).In [44] := by
  unfold updTrg
  repeat' first
    | with_reducible refine M.In.bind ?_ fun _ => ?_
    | with_reducible exact M.In.pure _
    | (refine M.In.hid_pls _ ?_; decide)
    | dsimp only

theorem foot_setAvail : (setAvail).In [9] := by
  unfold setAvail
  repeat' first
    | with_reducible refine M.In.bind ?_ fun _ => ?_
    | with_reducible exact M.In.pure _
    | with_reducible exact M.In.getS
    | (with_reducible refine M.In.wf 9 _ _ ?_ ?_) <;> first | decide
    | dsimp only

theorem foot_setGState (g : Nat) (st : GState) (cause : Nat) : (setGState g st cause).In [1, 9, 20, 33, 43, 44, 47] := by
  unfold setGState
  repeat' first
    | with_reducible refine M.In.bind ?_ fun _ => ?_
    | with_reducible refine M.In.ite ?_ ?_
    | with_reducible exact M.In.pure _
    | with_reducible exact M.In.getS
    | (with_reducible refine (foot_eventGrp ..).mono ?_) <;> decide
    | (with_reducible refine (foot_updGrp ..).mono ?_) <;> decide
    | (with_reducible refine (foot_setAvail ..).mono ?_) <;> decide
    | split
    | dsimp only

theorem foot_discardWords (c : Nat) : (discardWords c).In [3] := by
  unfold discardWords
  repeat' first
    | with_reducible refine M.In.bind ?_ fun _ => ?_
    | with_reducible exact M.In.pure _
    | with_reducible exact M.In.getS
    | (with_reducible refine M.In.wr 3 _ _ ?_ ?_) <;> first | decide | exact PLS.FALL_page _ | exact PLS.FALL_ACT_page _ | exact PLS.RISE_page _ | exact PLS.RISE_ACT_page _
    | split
    | dsimp only

theorem foot_discardShadow (c : Nat) : (discardShadow c).In [3] := by
  unfold discardShadow
  repeat' first
    | with_reducible refine M.In.bind ?_ fun _ => ?_
    | with_reducible exact M.In.pure _
    | with_reducible exact M.In.getS
    | (with_reducible refine (foot_discardWords ..).mono ?_) <;> decide
    | split
    | dsimp only

theorem foot_setProvisional (g : Nat) : (setProvisional g).In [3] := by
  unfold setProvisional
  repeat' first
    | with_reducible refine M.In.bind ?_ fun _ => ?_
    | with_reducible exact M.In.pure _
    | with_reducible exact M.In.getS
    | (with_reducible refine M.In.wf 3 _ _ ?_ ?_) <;> first | decide | exact PLS.GRP_STAT_page _
    | dsimp only

theorem foot_resolveTrg (k : Nat) (stale nextToo : Bool) : (resolveTrg k stale nextToo).In [0, 3, 6, 44, 50] := by
  unfold resolveTrg
  repeat' first
    | with_reducible refine M.In.bind ?_ fun _ => ?_
    | with_reducible refine M.In.ite ?_ ?_
    | with_reducible exact M.In.pure _
    | with_reducible exact M.In.getS
    | (with_reducible refine (foot_resolveHeld ..).mono ?_) <;> decide
    | (with_reducible refine (foot_updTrg ..).mono ?_) <;> decide
    | (with_reducible refine M.In.incBy 3 _ _ ?_ ?_) <;> first | decide
    | split
    | dsimp only

theorem foot_cancelTriggers (g : Nat) : (cancelTriggers g).In [0, 3, 6, 44, 50] := by
  unfold cancelTriggers
  repeat' first
    | with_reducible refine M.In.bind ?_ fun _ => ?_
    | with_reducible exact M.In.pure _
    | with_reducible exact M.In.getS
    | (with_reducible refine (foot_setProvisional ..).mono ?_) <;> decide
    | (with_reducible refine (foot_resolveTrg ..).mono ?_) <;> decide
    | with_reducible refine M.In.forM (fun _ => ?_) _
    | with_reducible refine M.In.optForM (fun _ => ?_) _
    | dsimp only

theorem foot_discardShadows (g : Nat) : (discardShadows g).In [3] := by
  unfold discardShadows
  repeat' first
    | with_reducible refine M.In.bind ?_ fun _ => ?_
    | with_reducible exact M.In.pure _
    | with_reducible exact M.In.getS
    | (with_reducible refine (foot_discardShadow ..).mono ?_) <;> decide
    | (with_reducible refine M.In.wf 3 _ _ ?_ ?_) <;> first | decide | exact PLS.TB_CFG_page _ | exact PLS.TB_PERIOD_page _ | exact PLS.TRG_POS_page _ _
    | with_reducible refine M.In.forM (fun _ => ?_) _
    | with_reducible refine M.In.optForM (fun _ => ?_) _
    | dsimp only

theorem foot_dropGroup (g : Nat) : (dropGroup g).In [0, 3, 6, 44, 50] := by
  unfold dropGroup
  repeat' first
    | with_reducible refine M.In.bind ?_ fun _ => ?_
    | with_reducible exact M.In.pure _
    | (with_reducible refine (foot_updGrp ..).mono ?_) <;> decide
    | (with_reducible refine (foot_cancelTriggers ..).mono ?_) <;> decide
    | (with_reducible refine (foot_discardShadows ..).mono ?_) <;> decide
    | dsimp only

theorem foot_cellOff (c time : Nat) : (cellOff c time).In [5, 44, 45] := by
  unfold cellOff
  repeat' first
    | with_reducible refine M.In.bind ?_ fun _ => ?_
    | with_reducible refine M.In.ite ?_ ?_
    | with_reducible exact M.In.pure _
    | with_reducible exact M.In.getS
    | (with_reducible refine (foot_updChan ..).mono ?_) <;> decide
    | (with_reducible refine M.In.wf 5 _ _ ?_ ?_) <;> first | decide | exact GDR.DRV_CFG_page _ | exact GDR.SC_STAT_page _
    | (refine M.In.hid_trp _ ?_; decide)
    | split
    | dsimp only

theorem foot_cellOn (c time : Nat) : (cellOn c time).In [44] := by
  unfold cellOn
  repeat' first
    | with_reducible refine M.In.bind ?_ fun _ => ?_
    | with_reducible refine M.In.ite ?_ ?_
    | with_reducible exact M.In.pure _
    | with_reducible exact M.In.getS
    | (with_reducible refine (foot_updChan ..).mono ?_) <;> decide
    | split
    | dsimp only

theorem foot_applyPattern (g : Nat) (asc : Bool) : (applyPattern g asc).In [5, 44, 45] := by
  unfold applyPattern
  repeat' first
    | with_reducible refine M.In.bind ?_ fun _ => ?_
    | with_reducible refine M.In.ite ?_ ?_
    | with_reducible exact M.In.pure _
    | with_reducible exact M.In.getS
    | (with_reducible refine (foot_updChan ..).mono ?_) <;> decide
    | (with_reducible refine (foot_cellOff ..).mono ?_) <;> decide
    | (with_reducible refine (foot_cellOn ..).mono ?_) <;> decide
    | with_reducible refine M.In.forM (fun _ => ?_) _
    | with_reducible refine M.In.optForM (fun _ => ?_) _
    | split
    | dsimp only

theorem foot_endSs1 (g : Nat) : (endSs1 g).In [44] := by
  unfold endSs1
  repeat' first
    | with_reducible refine M.In.bind ?_ fun _ => ?_
    | with_reducible exact M.In.pure _
    | (with_reducible refine (foot_updGrp ..).mono ?_) <;> decide
    | dsimp only

theorem foot_tripGroup (g kind first : Nat) : (tripGroup g kind first).In [0, 1, 3, 4, 5, 6, 9, 20, 33, 43, 44, 45, 47, 50] := by
  unfold tripGroup
  repeat' first
    | with_reducible refine M.In.bind ?_ fun _ => ?_
    | with_reducible refine M.In.ite ?_ ?_
    | with_reducible exact M.In.pure _
    | with_reducible exact M.In.getS
    | (with_reducible refine (foot_eventGrp ..).mono ?_) <;> decide
    | (with_reducible refine (foot_setGState ..).mono ?_) <;> decide
    | (with_reducible refine (foot_dropGroup ..).mono ?_) <;> decide
    | (with_reducible refine (foot_applyPattern ..).mono ?_) <;> decide
    | (with_reducible refine (foot_endSs1 ..).mono ?_) <;> decide
    | (with_reducible refine M.In.wf 4 _ _ ?_ ?_) <;> first | decide | exact TRP.GRP_TRIP_page _
    | (with_reducible refine M.In.inc 4 _ ?_ ?_) <;> first | decide | exact TRP.GRP_TRIP_page _
    | split
    | dsimp only

theorem foot_showForce (g : Nat) : (showForce g).In [5, 16, 44, 45] := by
  unfold showForce
  repeat' first
    | with_reducible refine M.In.bind ?_ fun _ => ?_
    | with_reducible refine M.In.ite ?_ ?_
    | with_reducible exact M.In.pure _
    | with_reducible exact M.In.getS
    | (with_reducible refine (foot_updGrp ..).mono ?_) <;> decide
    | (with_reducible refine (foot_applyPattern ..).mono ?_) <;> decide
    | (with_reducible refine M.In.wf 16 _ _ ?_ ?_) <;> first | decide | exact SAF.GRP_page _
    | split
    | dsimp only

theorem foot_forceGroup (g code cause : Nat) : (forceGroup g code cause).In [0, 1, 3, 5, 6, 9, 16, 20, 33, 43, 44, 45, 47, 50] := by
  unfold forceGroup
  repeat' first
    | with_reducible refine M.In.bind ?_ fun _ => ?_
    | with_reducible refine M.In.ite ?_ ?_
    | with_reducible exact M.In.pure _
    | with_reducible exact M.In.getS
    | (with_reducible refine (foot_updGrp ..).mono ?_) <;> decide
    | (with_reducible refine (foot_setGState ..).mono ?_) <;> decide
    | (with_reducible refine (foot_dropGroup ..).mono ?_) <;> decide
    | (with_reducible refine (foot_endSs1 ..).mono ?_) <;> decide
    | (with_reducible refine (foot_showForce ..).mono ?_) <;> decide
    | split
    | dsimp only

theorem foot_releaseForce (g code : Nat) : (releaseForce g code).In [5, 16, 44, 45] := by
  unfold releaseForce
  repeat' first
    | with_reducible refine M.In.bind ?_ fun _ => ?_
    | with_reducible refine M.In.ite ?_ ?_
    | with_reducible exact M.In.pure _
    | with_reducible exact M.In.getS
    | (with_reducible refine (foot_updGrp ..).mono ?_) <;> decide
    | (with_reducible refine (foot_showForce ..).mono ?_) <;> decide
    | (with_reducible refine M.In.wf 16 _ _ ?_ ?_) <;> first | decide | exact SAF.GRP_page _
    | split
    | dsimp only

theorem foot_showHeld : (showHeld).In [0] := by
  unfold showHeld
  repeat' first
    | with_reducible refine M.In.bind ?_ fun _ => ?_
    | with_reducible exact M.In.pure _
    | with_reducible exact M.In.getS
    | (with_reducible refine M.In.wf 0 _ _ ?_ ?_) <;> first | decide
    | (with_reducible refine M.In.hidAt fun x k hk => ?_) <;> (unfold SameHid; split <;> first | rfl | exact absurd (by decide) hk)
    | split
    | dsimp only

theorem foot_setDev (new : Nat) : (setDev new).In [0, 1, 20, 33, 43, 47] := by
  unfold setDev
  repeat' first
    | with_reducible refine M.In.bind ?_ fun _ => ?_
    | with_reducible refine M.In.ite ?_ ?_
    | with_reducible exact M.In.pure _
    | with_reducible exact M.In.rf _
    | (with_reducible refine (foot_eventDev ..).mono ?_) <;> decide
    | (with_reducible refine M.In.wf 0 _ _ ?_ ?_) <;> first | decide
    | split
    | dsimp only

theorem foot_deviceSafe : (deviceSafe).In [0, 1, 20, 33, 43, 47] := by
  unfold deviceSafe
  repeat' first
    | with_reducible refine M.In.bind ?_ fun _ => ?_
    | with_reducible refine M.In.ite ?_ ?_
    | with_reducible exact M.In.pure _
    | with_reducible exact M.In.rf _
    | (with_reducible refine (foot_setDev ..).mono ?_) <;> decide
    | split
    | dsimp only

theorem foot_setChg (new cause : Nat) : (setChg new cause).In [1, 12, 20, 33, 43, 47] := by
  unfold setChg
  repeat' first
    | with_reducible refine M.In.bind ?_ fun _ => ?_
    | with_reducible refine M.In.ite ?_ ?_
    | with_reducible exact M.In.pure _
    | with_reducible exact M.In.rf _
    | (with_reducible refine (foot_eventDev ..).mono ?_) <;> decide
    | (with_reducible refine M.In.wf 12 _ _ ?_ ?_) <;> first | decide
    | split
    | dsimp only

theorem foot_releaseRelays : (releaseRelays).In [12, 48] := by
  unfold releaseRelays
  repeat' first
    | with_reducible refine M.In.bind ?_ fun _ => ?_
    | with_reducible exact M.In.pure _
    | with_reducible exact M.In.getS
    | (with_reducible refine M.In.wf 12 _ _ ?_ ?_) <;> first | decide
    | (refine M.In.hid_chg _ ?_; decide)
    | dsimp only

theorem foot_emergencyStop (cause : Nat) (toFault : Bool) : (emergencyStop cause toFault).In [0, 1, 3, 4, 5, 6, 9, 12, 20, 33, 43, 44, 45, 47, 48, 50] := by
  unfold emergencyStop
  repeat' first
    | with_reducible refine M.In.bind ?_ fun _ => ?_
    | with_reducible refine M.In.ite ?_ ?_
    | with_reducible exact M.In.pure _
    | with_reducible exact M.In.getS
    | (with_reducible refine (foot_tripGroup ..).mono ?_) <;> decide
    | (with_reducible refine (foot_setChg ..).mono ?_) <;> decide
    | (with_reducible refine (foot_releaseRelays ..).mono ?_) <;> decide
    | (with_reducible refine M.In.inc 12 _ ?_ ?_) <;> first | decide
    | (refine M.In.hid_chg _ ?_; decide)
    | split
    | dsimp only

theorem foot_tripAct (g kind first : Nat) : (tripAct g kind first).In [0, 1, 3, 4, 5, 6, 9, 12, 20, 33, 43, 44, 45, 47, 48, 50] := by
  unfold tripAct
  repeat' first
    | with_reducible refine M.In.bind ?_ fun _ => ?_
    | with_reducible refine M.In.ite ?_ ?_
    | with_reducible exact M.In.pure _
    | with_reducible exact M.In.getS
    | (with_reducible refine (foot_tripGroup ..).mono ?_) <;> decide
    | (with_reducible refine (foot_emergencyStop ..).mono ?_) <;> decide
    | split
    | dsimp only

theorem foot_forceAct (g code cause : Nat) : (forceAct g code cause).In [0, 1, 3, 4, 5, 6, 9, 12, 16, 20, 33, 43, 44, 45, 47, 48, 50] := by
  unfold forceAct
  repeat' first
    | with_reducible refine M.In.bind ?_ fun _ => ?_
    | with_reducible refine M.In.ite ?_ ?_
    | with_reducible exact M.In.pure _
    | with_reducible exact M.In.getS
    | (with_reducible refine (foot_forceGroup ..).mono ?_) <;> decide
    | (with_reducible refine (foot_emergencyStop ..).mono ?_) <;> decide
    | split
    | dsimp only

theorem foot_updFunc (f : Nat) (g : FuncSt → FuncSt) : (updFunc f g).In [49] := by
  unfold updFunc
  repeat' first
    | with_reducible refine M.In.bind ?_ fun _ => ?_
    | with_reducible exact M.In.pure _
    | (refine M.In.hid_saf _ ?_; decide)
    | dsimp only

theorem foot_funcEvent (f : Nat) (on : Bool) : (funcEvent f on).In [1, 20, 33, 43, 47] := by
  unfold funcEvent
  repeat' first
    | with_reducible refine M.In.bind ?_ fun _ => ?_
    | with_reducible exact M.In.pure _
    | with_reducible exact M.In.getS
    | (with_reducible refine (foot_eventDev ..).mono ?_) <;> decide
    | dsimp only

theorem foot_funcEffect (f g cause : Nat) : (funcEffect f g cause).In [0, 1, 3, 4, 5, 6, 9, 12, 16, 20, 33, 43, 44, 45, 47, 48, 50] := by
  unfold funcEffect
  repeat' first
    | with_reducible refine M.In.bind ?_ fun _ => ?_
    | with_reducible refine M.In.ite ?_ ?_
    | with_reducible exact M.In.pure _
    | with_reducible exact M.In.getS
    | (with_reducible refine (foot_updGrp ..).mono ?_) <;> decide
    | (with_reducible refine (foot_forceAct ..).mono ?_) <;> decide
    | split
    | dsimp only

theorem foot_funcStart (f : Nat) : (funcStart f).In [12, 48, 49] := by
  unfold funcStart
  repeat' first
    | with_reducible refine M.In.bind ?_ fun _ => ?_
    | with_reducible refine M.In.ite ?_ ?_
    | with_reducible exact M.In.pure _
    | with_reducible exact M.In.getS
    | (with_reducible refine (foot_releaseRelays ..).mono ?_) <;> decide
    | (refine M.In.hid_saf _ ?_; decide)
    | split
    | dsimp only

theorem foot_trigger (f src key : Nat) (gs : List Nat) (cause : Nat) : (trigger f src key gs cause).In [0, 1, 3, 4, 5, 6, 9, 12, 16, 20, 33, 43, 44, 45, 47, 48, 49, 50] := by
  unfold trigger
  repeat' first
    | with_reducible refine M.In.bind ?_ fun _ => ?_
    | with_reducible refine M.In.ite ?_ ?_
    | with_reducible exact M.In.pure _
    | with_reducible exact M.In.getS
    | (with_reducible refine (foot_updFunc ..).mono ?_) <;> decide
    | (with_reducible refine (foot_funcEvent ..).mono ?_) <;> decide
    | (with_reducible refine (foot_funcEffect ..).mono ?_) <;> decide
    | (with_reducible refine (foot_funcStart ..).mono ?_) <;> decide
    | (with_reducible refine M.In.wf 16 _ _ ?_ ?_) <;> first | decide | exact SAF.FUNC_CFG_page _ | exact SAF.FUNC_STAT_page _
    | (with_reducible refine M.In.inc 16 _ ?_ ?_) <;> first | decide | exact SAF.FUNC_CFG_page _ | exact SAF.FUNC_STAT_page _
    | with_reducible refine M.In.forM (fun _ => ?_) _
    | with_reducible refine M.In.optForM (fun _ => ?_) _
    | split
    | dsimp only

theorem foot_releaseFunc (f : Nat) : (releaseFunc f).In [1, 5, 16, 20, 33, 43, 44, 45, 47, 49] := by
  unfold releaseFunc
  repeat' first
    | with_reducible refine M.In.bind ?_ fun _ => ?_
    | with_reducible refine M.In.ite ?_ ?_
    | with_reducible exact M.In.pure _
    | with_reducible exact M.In.getS
    | (with_reducible refine (foot_endSs1 ..).mono ?_) <;> decide
    | (with_reducible refine (foot_releaseForce ..).mono ?_) <;> decide
    | (with_reducible refine (foot_updFunc ..).mono ?_) <;> decide
    | (with_reducible refine (foot_funcEvent ..).mono ?_) <;> decide
    | (with_reducible refine M.In.wf 16 _ _ ?_ ?_) <;> first | decide | exact SAF.FUNC_STAT_page _
    | with_reducible refine M.In.forM (fun _ => ?_) _
    | with_reducible refine M.In.optForM (fun _ => ?_) _
    | split
    | dsimp only

theorem foot_settle (f : Nat) : (settle f).In [1, 5, 16, 20, 33, 43, 44, 45, 47, 49] := by
  unfold settle
  repeat' first
    | with_reducible refine M.In.bind ?_ fun _ => ?_
    | with_reducible refine M.In.ite ?_ ?_
    | with_reducible exact M.In.pure _
    | with_reducible exact M.In.getS
    | (with_reducible refine (foot_releaseFunc ..).mono ?_) <;> decide
    | (with_reducible refine M.In.wf 16 _ _ ?_ ?_) <;> first | decide | exact SAF.FUNC_CFG_page _ | exact SAF.FUNC_STAT_page _
    | split
    | dsimp only

theorem foot_withdraw (f src key : Nat) : (withdraw f src key).In [1, 5, 16, 20, 33, 43, 44, 45, 47, 49] := by
  unfold withdraw
  repeat' first
    | with_reducible refine M.In.bind ?_ fun _ => ?_
    | with_reducible refine M.In.ite ?_ ?_
    | with_reducible exact M.In.pure _
    | with_reducible exact M.In.getS
    | (with_reducible refine (foot_updFunc ..).mono ?_) <;> decide
    | (with_reducible refine (foot_settle ..).mono ?_) <;> decide
    | split
    | dsimp only

theorem foot_acknowledge : (acknowledge).In [1, 5, 16, 20, 33, 43, 44, 45, 47, 49] := by
  unfold acknowledge
  repeat' first
    | with_reducible refine M.In.bind ?_ fun _ => ?_
    | with_reducible refine M.In.ite ?_ ?_
    | with_reducible exact M.In.pure _
    | with_reducible exact M.In.rf _
    | (with_reducible refine (foot_releaseFunc ..).mono ?_) <;> decide
    | with_reducible refine M.In.forM (fun _ => ?_) _
    | with_reducible refine M.In.optForM (fun _ => ?_) _
    | split
    | dsimp only

theorem foot_momentary (f key : Nat) (gs : List Nat) (cause : Nat) : (momentary f key gs cause).In [0, 1, 3, 4, 5, 6, 9, 12, 16, 20, 33, 43, 44, 45, 47, 48, 49, 50] := by
  unfold momentary
  repeat' first
    | with_reducible refine M.In.bind ?_ fun _ => ?_
    | with_reducible exact M.In.pure _
    | (with_reducible refine (foot_trigger ..).mono ?_) <;> decide
    | (with_reducible refine (foot_withdraw ..).mono ?_) <;> decide
    | dsimp only

theorem foot_startSs1 (g cause : Nat) : (startSs1 g cause).In [0, 1, 3, 4, 5, 6, 9, 12, 16, 20, 33, 43, 44, 45, 47, 48, 49, 50] := by
  unfold startSs1
  repeat' first
    | with_reducible refine M.In.bind ?_ fun _ => ?_
    | with_reducible refine M.In.ite ?_ ?_
    | with_reducible exact M.In.pure _
    | with_reducible exact M.In.getS
    | (with_reducible refine (foot_trigger ..).mono ?_) <;> decide
    | (with_reducible refine (foot_withdraw ..).mono ?_) <;> decide
    | split
    | dsimp only

theorem foot_ss1Sto (g cause : Nat) : (ss1Sto g cause).In [0, 1, 3, 4, 5, 6, 9, 12, 16, 20, 33, 43, 44, 45, 47, 48, 49, 50] := by
  unfold ss1Sto
  repeat' first
    | with_reducible refine M.In.bind ?_ fun _ => ?_
    | with_reducible exact M.In.pure _
    | (with_reducible refine (foot_withdraw ..).mono ?_) <;> decide
    | (with_reducible refine (foot_momentary ..).mono ?_) <;> decide
    | dsimp only

theorem foot_setLastingSrc : (setLastingSrc).In [17, 43] := by
  unfold setLastingSrc
  repeat' first
    | with_reducible refine M.In.bind ?_ fun _ => ?_
    | with_reducible exact M.In.pure _
    | with_reducible exact M.In.getS
    | (with_reducible refine (foot_setAttn ..).mono ?_) <;> decide
    | (with_reducible refine M.In.wf 17 _ _ ?_ ?_) <;> first | decide | exact FLG.LASTING_page _
    | dsimp only

theorem foot_ledgerEvent (e : FltEntry) : (ledgerEvent e).In [1, 20, 33, 43, 47] := by
  unfold ledgerEvent
  repeat' first
    | with_reducible refine M.In.bind ?_ fun _ => ?_
    | with_reducible exact M.In.pure _
    | (with_reducible refine (foot_eventDev ..).mono ?_) <;> decide
    | dsimp only

theorem foot_queueEntry (e : FltEntry) (lasting : Bool) : (queueEntry e lasting).In [17, 35] := by
  unfold queueEntry
  repeat' first
    | with_reducible refine M.In.bind ?_ fun _ => ?_
    | with_reducible refine M.In.ite ?_ ?_
    | with_reducible exact M.In.pure _
    | with_reducible exact M.In.getS
    | (with_reducible refine M.In.inc 17 _ ?_ ?_) <;> first | decide
    | (with_reducible refine M.In.fltQueue _ _ ?_) <;> decide
    | split
    | dsimp only

theorem foot_react (cls src inst : Nat) : (react cls src inst).In [0, 1, 3, 4, 5, 6, 9, 12, 16, 20, 33, 43, 44, 45, 47, 48, 49, 50] := by
  unfold react
  repeat' first
    | with_reducible refine M.In.bind ?_ fun _ => ?_
    | with_reducible refine M.In.ite ?_ ?_
    | with_reducible exact M.In.pure _
    | with_reducible exact M.In.getS
    | (with_reducible refine (foot_deviceSafe ..).mono ?_) <;> decide
    | (with_reducible refine (foot_forceAct ..).mono ?_) <;> decide
    | (with_reducible refine (foot_startSs1 ..).mono ?_) <;> decide
    | with_reducible refine M.In.forM (fun _ => ?_) _
    | with_reducible refine M.In.optForM (fun _ => ?_) _
    | split
    | dsimp only

theorem foot_occurrence (src inst detail : Nat) : (occurrence src inst detail).In [0, 1, 3, 4, 5, 6, 9, 12, 16, 17, 20, 33, 35, 43, 44, 45, 46, 47, 48, 49, 50] := by
  unfold occurrence
  repeat' first
    | with_reducible refine M.In.bind ?_ fun _ => ?_
    | with_reducible refine M.In.ite ?_ ?_
    | with_reducible exact M.In.pure _
    | with_reducible exact M.In.getS
    | (with_reducible refine (foot_setLastingSrc ..).mono ?_) <;> decide
    | (with_reducible refine (foot_ledgerEvent ..).mono ?_) <;> decide
    | (with_reducible refine (foot_queueEntry ..).mono ?_) <;> decide
    | (with_reducible refine (foot_react ..).mono ?_) <;> decide
    | (with_reducible refine M.In.wf 17 _ _ ?_ ?_) <;> first | decide | exact FLG.LASTING_page _ | exact FLG.OCCUR_page _
    | (with_reducible refine M.In.wr 17 _ _ ?_ ?_) <;> first | decide | exact FLG.LASTING_page _ | exact FLG.OCCUR_page _
    | (with_reducible refine M.In.inc 17 _ ?_ ?_) <;> first | decide | exact FLG.LASTING_page _ | exact FLG.OCCUR_page _
    | (refine M.In.hid_flg _ ?_; decide)
    | (with_reducible refine M.In.hidAt fun x k hk => ?_) <;> (unfold SameHid; split <;> first | rfl | exact absurd (by decide) hk)
    | split
    | dsimp only

theorem foot_occur (src inst detail : Nat) : (occur src inst detail).In [0, 1, 3, 4, 5, 6, 9, 12, 16, 17, 20, 33, 35, 43, 44, 45, 46, 47, 48, 49, 50] := by
  unfold occur
  repeat' first
    | with_reducible refine M.In.bind ?_ fun _ => ?_
    | with_reducible exact M.In.pure _
    | (with_reducible refine (foot_occurrence ..).mono ?_) <;> decide
    | dsimp only

theorem foot_clearLasting (src inst kind : Nat) : (clearLasting src inst kind).In [1, 17, 20, 33, 35, 43, 46, 47] := by
  unfold clearLasting
  repeat' first
    | with_reducible refine M.In.bind ?_ fun _ => ?_
    | with_reducible refine M.In.ite ?_ ?_
    | with_reducible exact M.In.pure _
    | with_reducible exact M.In.getS
    | (with_reducible refine (foot_setLastingSrc ..).mono ?_) <;> decide
    | (with_reducible refine (foot_ledgerEvent ..).mono ?_) <;> decide
    | (with_reducible refine (foot_queueEntry ..).mono ?_) <;> decide
    | (with_reducible refine M.In.wr 17 _ _ ?_ ?_) <;> first | decide | exact FLG.LASTING_page _
    | (refine M.In.hid_flg _ ?_; decide)
    | (with_reducible refine M.In.hidAt fun x k hk => ?_) <;> (unfold SameHid; split <;> first | rfl | exact absurd (by decide) hk)
    | split
    | dsimp only

theorem foot_ledgerTick : (ledgerTick).In [1, 17, 20, 33, 35, 43, 46, 47] := by
  unfold ledgerTick
  repeat' first
    | with_reducible refine M.In.bind ?_ fun _ => ?_
    | with_reducible refine M.In.ite ?_ ?_
    | with_reducible exact M.In.pure _
    | with_reducible exact M.In.getS
    | (with_reducible refine (foot_ledgerEvent ..).mono ?_) <;> decide
    | (with_reducible refine (foot_queueEntry ..).mono ?_) <;> decide
    | (with_reducible refine M.In.wf 17 _ _ ?_ ?_) <;> first | decide
    | (with_reducible refine M.In.incBy 17 _ _ ?_ ?_) <;> first | decide
    | (with_reducible refine M.In.fltTake ?_) <;> decide
    | (refine M.In.hid_flg _ ?_; decide)
    | (with_reducible refine M.In.hidAt fun x k hk => ?_) <;> (unfold SameHid; split <;> first | rfl | exact absurd (by decide) hk)
    | with_reducible refine M.In.forM (fun _ => ?_) _
    | with_reducible refine M.In.optForM (fun _ => ?_) _
    | split
    | dsimp only

theorem foot_violation (e : VioEntry) : (violation e).In [1, 20, 33, 34, 43, 47] := by
  unfold violation
  repeat' first
    | with_reducible refine M.In.bind ?_ fun _ => ?_
    | with_reducible refine M.In.ite ?_ ?_
    | with_reducible exact M.In.pure _
    | with_reducible exact M.In.getS
    | (with_reducible refine (foot_eventDev ..).mono ?_) <;> decide
    | (with_reducible refine M.In.wf 1 _ _ ?_ ?_) <;> first | decide
    | (with_reducible refine M.In.inc 1 _ ?_ ?_) <;> first | decide
    | (with_reducible refine M.In.vio _ ?_) <;> decide
    | split
    | dsimp only

theorem foot_setCfgCrc : (setCfgCrc).In [16] := by
  unfold setCfgCrc
  repeat' first
    | with_reducible refine M.In.bind ?_ fun _ => ?_
    | with_reducible exact M.In.pure _
    | with_reducible exact M.In.getS
    | (with_reducible refine M.In.wr 16 _ _ ?_ ?_) <;> first | decide
    | dsimp only

theorem foot_change (kind addr old new session transport : Nat) : (change kind addr old new session transport).In [16, 36] := by
  unfold change
  repeat' first
    | with_reducible refine M.In.bind ?_ fun _ => ?_
    | with_reducible refine M.In.ite ?_ ?_
    | with_reducible exact M.In.pure _
    | with_reducible exact M.In.getS
    | (with_reducible refine M.In.wf 16 _ _ ?_ ?_) <;> first | decide
    | (with_reducible refine M.In.inc 16 _ ?_ ?_) <;> first | decide
    | (with_reducible refine M.In.chg _ ?_) <;> decide
    | split
    | dsimp only

theorem foot_absentReply (n : Nat) : (absentReply n).In [0] := by
  unfold absentReply
  repeat' first
    | with_reducible refine M.In.bind ?_ fun _ => ?_
    | with_reducible exact M.In.pure _
    | (with_reducible refine M.In.inc 0 _ ?_ ?_) <;> first | decide | exact SYS.XFER_page _
    | dsimp only

theorem foot_placeTunnel (p : OutPkt) : (placeTunnel p).In [1, 43] := by
  unfold placeTunnel
  repeat' first
    | with_reducible refine M.In.bind ?_ fun _ => ?_
    | with_reducible refine M.In.ite ?_ ?_
    | with_reducible exact M.In.pure _
    | (with_reducible refine (foot_setAttn ..).mono ?_) <;> decide
    | (with_reducible refine M.In.wf 1 _ _ ?_ ?_) <;> first | decide | exact CMD.TUNNEL_RX_page _
    | (with_reducible refine M.In.wr 1 _ _ ?_ ?_) <;> first | decide | exact CMD.TUNNEL_RX_page _
    | with_reducible refine M.In.forM (fun _ => ?_) _
    | with_reducible refine M.In.optForM (fun _ => ?_) _
    | split
    | dsimp only

theorem foot_handTo (src : Source) (p : OutPkt) : (handTo src p).In [1, 20, 33, 43, 47] := by
  unfold handTo
  repeat' first
    | with_reducible refine M.In.bind ?_ fun _ => ?_
    | with_reducible refine M.In.ite ?_ ?_
    | with_reducible exact M.In.pure _
    | with_reducible exact M.In.getS
    | with_reducible exact M.In.rf _
    | (with_reducible refine (foot_setAttn ..).mono ?_) <;> decide
    | (with_reducible refine (foot_canxlSend ..).mono ?_) <;> decide
    | (with_reducible refine (foot_ethSend ..).mono ?_) <;> decide
    | (with_reducible refine (foot_placeTunnel ..).mono ?_) <;> decide
    | (with_reducible refine M.In.spiReply _ ?_) <;> decide
    | (refine M.In.hid_cmd _ ?_; decide)
    | split
    | dsimp only

theorem foot_sendTo (src : Source) (p : OutPkt) : (sendTo src p).In [1, 20, 33, 43, 47] := by
  unfold sendTo
  repeat' first
    | with_reducible refine M.In.bind ?_ fun _ => ?_
    | with_reducible refine M.In.ite ?_ ?_
    | with_reducible exact M.In.pure _
    | with_reducible exact M.In.getS
    | (with_reducible refine (foot_handTo ..).mono ?_) <;> decide
    | (refine M.In.hid_cmd _ ?_; decide)
    | split
    | dsimp only

theorem foot_linkReturns : (linkReturns).In [1, 20, 33, 43, 47] := by
  unfold linkReturns
  repeat' first
    | with_reducible refine M.In.bind ?_ fun _ => ?_
    | with_reducible exact M.In.pure _
    | with_reducible exact M.In.getS
    | (with_reducible refine (foot_handTo ..).mono ?_) <;> decide
    | (refine M.In.hid_cmd _ ?_; decide)
    | with_reducible refine M.In.forM (fun _ => ?_) _
    | with_reducible refine M.In.optForM (fun _ => ?_) _
    | dsimp only

theorem foot_sendCompletion (d : Due) (status reason detail : Nat) (data : List Byte) : (sendCompletion d status reason detail data).In [1, 20, 33, 43, 47] := by
  unfold sendCompletion
  repeat' first
    | with_reducible refine M.In.bind ?_ fun _ => ?_
    | with_reducible refine M.In.ite ?_ ?_
    | with_reducible exact M.In.pure _
    | with_reducible exact M.In.getS
    | (with_reducible refine (foot_eventLost ..).mono ?_) <;> decide
    | (with_reducible refine (foot_eventPacket ..).mono ?_) <;> decide
    | (with_reducible refine (foot_eventDelivered ..).mono ?_) <;> decide
    | (with_reducible refine (foot_setAttn ..).mono ?_) <;> decide
    | (with_reducible refine (foot_sendTo ..).mono ?_) <;> decide
    | (with_reducible refine M.In.spiEvent _ ?_) <;> decide
    | (refine M.In.hid_cmd _ ?_; decide)
    | split
    | dsimp only

theorem foot_addDue (kind unit : Nat) (p : Packet) (byRun : Bool) : (addDue kind unit p byRun).In [43] := by
  unfold addDue
  repeat' first
    | with_reducible refine M.In.bind ?_ fun _ => ?_
    | with_reducible exact M.In.pure _
    | (refine M.In.hid_cmd _ ?_; decide)
    | dsimp only

theorem foot_complete (kind unit status reason detail : Nat) (data : List Byte) : (complete kind unit status reason detail data).In [1, 20, 33, 43, 47] := by
  unfold complete
  repeat' first
    | with_reducible refine M.In.bind ?_ fun _ => ?_
    | with_reducible exact M.In.pure _
    | with_reducible exact M.In.getS
    | (with_reducible refine (foot_sendCompletion ..).mono ?_) <;> decide
    | split
    | dsimp only

theorem foot_showSessions : (showSessions).In [1] := by
  unfold showSessions
  repeat' first
    | with_reducible refine M.In.bind ?_ fun _ => ?_
    | with_reducible exact M.In.pure _
    | with_reducible exact M.In.getS
    | (with_reducible refine M.In.wf 1 _ _ ?_ ?_) <;> first | decide
    | (with_reducible refine M.In.hidAt fun x k hk => ?_) <;> (unfold SameHid; split <;> first | rfl | exact absurd (by decide) hk)
    | dsimp only

theorem foot_putSessions (l : List Session) : (putSessions l).In [1, 43] := by
  unfold putSessions
  repeat' first
    | with_reducible refine M.In.bind ?_ fun _ => ?_
    | with_reducible exact M.In.pure _
    | (with_reducible refine (foot_showSessions ..).mono ?_) <;> decide
    | (refine M.In.hid_cmd _ ?_; decide)
    | dsimp only

theorem foot_updSession (id : Nat) (f : Session → Session) : (updSession id f).In [1, 43] := by
  unfold updSession
  repeat' first
    | with_reducible refine M.In.bind ?_ fun _ => ?_
    | with_reducible refine M.In.ite ?_ ?_
    | with_reducible exact M.In.pure _
    | with_reducible exact M.In.getS
    | (with_reducible refine (foot_putSessions ..).mono ?_) <;> decide
    | (with_reducible refine M.In.hidAt fun x k hk => ?_) <;> (unfold SameHid; split <;> first | rfl | exact absurd (by decide) hk)
    | split
    | dsimp only

theorem foot_dropSession (id : Nat) : (dropSession id).In [1, 43] := by
  unfold dropSession
  repeat' first
    | with_reducible refine M.In.bind ?_ fun _ => ?_
    | with_reducible exact M.In.pure _
    | with_reducible exact M.In.getS
    | (with_reducible refine (foot_putSessions ..).mono ?_) <;> decide
    | (with_reducible refine M.In.hidAt fun x k hk => ?_) <;> (unfold SameHid; split <;> first | rfl | exact absurd (by decide) hk)
    | dsimp only

theorem foot_storePwd (p : Pwd) : (storePwd p).In [43] := by
  unfold storePwd
  repeat' first
    | with_reducible refine M.In.bind ?_ fun _ => ?_
    | with_reducible exact M.In.pure _
    | (refine M.In.hid_cmd _ ?_; decide)
    | dsimp only

theorem foot_openPhase0 (src : Source) (auth : Nat) : (openPhase0 src auth).In [1, 42, 43] := by
  unfold openPhase0
  repeat' first
    | with_reducible refine M.In.bind ?_ fun _ => ?_
    | with_reducible exact M.In.pure _
    | with_reducible exact M.In.getS
    | (with_reducible refine (foot_putSessions ..).mono ?_) <;> decide
    | (with_reducible refine M.In.fresh ?_) <;> decide
    | (with_reducible refine M.In.freshBytes _ ?_) <;> decide
    | (with_reducible refine M.In.freshRats _ ?_) <;> decide
    | (with_reducible refine M.In.hidAt fun x k hk => ?_) <;> (unfold SameHid; split <;> first | rfl | exact absurd (by decide) hk)
    | split
    | dsimp only

theorem foot_lockEvent (on : Bool) : (lockEvent on).In [1, 20, 33, 43, 47] := by
  unfold lockEvent
  repeat' first
    | with_reducible refine M.In.bind ?_ fun _ => ?_
    | with_reducible exact M.In.pure _
    | (with_reducible refine (foot_eventDev ..).mono ?_) <;> decide
    | dsimp only

theorem foot_passwordFail : (passwordFail).In [0, 1, 3, 4, 5, 6, 9, 12, 16, 17, 20, 33, 35, 43, 44, 45, 46, 47, 48, 49, 50] := by
  unfold passwordFail
  repeat' first
    | with_reducible refine M.In.bind ?_ fun _ => ?_
    | with_reducible refine M.In.ite ?_ ?_
    | with_reducible exact M.In.pure _
    | (with_reducible refine (foot_occurrence ..).mono ?_) <;> decide
    | (with_reducible refine (foot_lockEvent ..).mono ?_) <;> decide
    | (with_reducible refine M.In.wf 1 _ _ ?_ ?_) <;> first | decide
    | (refine M.In.hid_cmd _ ?_; decide)
    | split
    | dsimp only

theorem foot_openPhase1 (x : Session) (proof : List Byte) : (openPhase1 x proof).In [0, 1, 3, 4, 5, 6, 9, 12, 16, 17, 20, 33, 35, 43, 44, 45, 46, 47, 48, 49, 50] := by
  unfold openPhase1
  repeat' first
    | with_reducible refine M.In.bind ?_ fun _ => ?_
    | with_reducible refine M.In.ite ?_ ?_
    | with_reducible exact M.In.pure _
    | with_reducible exact M.In.getS
    | (with_reducible refine (foot_updSession ..).mono ?_) <;> decide
    | (with_reducible refine (foot_dropSession ..).mono ?_) <;> decide
    | (with_reducible refine (foot_passwordFail ..).mono ?_) <;> decide
    | (with_reducible refine M.In.hidAt fun x k hk => ?_) <;> (unfold SameHid; split <;> first | rfl | exact absurd (by decide) hk)
    | split
    | dsimp only

theorem foot_lockEnd : (lockEnd).In [1, 17, 20, 33, 35, 43, 46, 47] := by
  unfold lockEnd
  repeat' first
    | with_reducible refine M.In.bind ?_ fun _ => ?_
    | with_reducible refine M.In.ite ?_ ?_
    | with_reducible exact M.In.pure _
    | with_reducible exact M.In.getS
    | (with_reducible refine (foot_clearLasting ..).mono ?_) <;> decide
    | (with_reducible refine (foot_lockEvent ..).mono ?_) <;> decide
    | (with_reducible refine M.In.wf 1 _ _ ?_ ?_) <;> first | decide
    | (refine M.In.hid_cmd _ ?_; decide)
    | split
    | dsimp only

theorem foot_lockTick : (lockTick).In [1] := by
  unfold lockTick
  repeat' first
    | with_reducible refine M.In.bind ?_ fun _ => ?_
    | with_reducible exact M.In.pure _
    | with_reducible exact M.In.getS
    | (with_reducible refine M.In.wf 1 _ _ ?_ ?_) <;> first | decide
    | (with_reducible refine M.In.hidAt fun x k hk => ?_) <;> (unfold SameHid; split <;> first | rfl | exact absurd (by decide) hk)
    | split
    | dsimp only

theorem foot_pendingExpiry (id : Nat) : (pendingExpiry id).In [1, 43] := by
  unfold pendingExpiry
  repeat' first
    | with_reducible refine M.In.bind ?_ fun _ => ?_
    | with_reducible refine M.In.ite ?_ ?_
    | with_reducible exact M.In.pure _
    | with_reducible exact M.In.getS
    | (with_reducible refine (foot_dropSession ..).mono ?_) <;> decide
    | (with_reducible refine M.In.hidAt fun x k hk => ?_) <;> (unfold SameHid; split <;> first | rfl | exact absurd (by decide) hk)
    | split
    | dsimp only

theorem foot_idleTimeout (id : Nat) : (idleTimeout id).In [1, 43] := by
  unfold idleTimeout
  repeat' first
    | with_reducible refine M.In.bind ?_ fun _ => ?_
    | with_reducible refine M.In.ite ?_ ?_
    | with_reducible exact M.In.pure _
    | with_reducible exact M.In.getS
    | (with_reducible refine (foot_dropSession ..).mono ?_) <;> decide
    | (with_reducible refine M.In.hidAt fun x k hk => ?_) <;> (unfold SameHid; split <;> first | rfl | exact absurd (by decide) hk)
    | split
    | dsimp only

theorem foot_segmentTimeout (id : Nat) : (segmentTimeout id).In [1, 43] := by
  unfold segmentTimeout
  repeat' first
    | with_reducible refine M.In.bind ?_ fun _ => ?_
    | with_reducible refine M.In.ite ?_ ?_
    | with_reducible exact M.In.pure _
    | with_reducible exact M.In.getS
    | (with_reducible refine (foot_updSession ..).mono ?_) <;> decide
    | (with_reducible refine M.In.inc 1 _ ?_ ?_) <;> first | decide
    | (with_reducible refine M.In.hidAt fun x k hk => ?_) <;> (unfold SameHid; split <;> first | rfl | exact absurd (by decide) hk)
    | split
    | dsimp only

theorem foot_sendReply (p : Packet) (key : Option (List Byte)) (r : OutPkt) : (sendReply p key r).In [1, 20, 33, 43, 47] := by
  unfold sendReply
  repeat' first
    | with_reducible refine M.In.bind ?_ fun _ => ?_
    | with_reducible refine M.In.ite ?_ ?_
    | with_reducible exact M.In.pure _
    | (with_reducible refine (foot_sendTo ..).mono ?_) <;> decide
    | (with_reducible refine M.In.wf 1 _ _ ?_ ?_) <;> first | decide
    | with_reducible refine M.In.forM (fun _ => ?_) _
    | with_reducible refine M.In.optForM (fun _ => ?_) _
    | split
    | dsimp only

theorem foot_replyEarly (op : Nat) (p : Packet) (a : Ans) : (replyEarly op p a).In [1, 20, 33, 43, 47] := by
  unfold replyEarly
  repeat' first
    | with_reducible refine M.In.bind ?_ fun _ => ?_
    | with_reducible exact M.In.pure _
    | with_reducible exact M.In.getS
    | (with_reducible refine (foot_sendReply ..).mono ?_) <;> decide
    | dsimp only

theorem foot_endRun (by_ : Option Packet) (a : Ans) : (endRun by_ a).In [1, 20, 33, 43, 47] := by
  unfold endRun
  repeat' first
    | with_reducible refine M.In.bind ?_ fun _ => ?_
    | with_reducible exact M.In.pure _
    | (with_reducible refine (foot_eventDev ..).mono ?_) <;> decide
    | (with_reducible refine (foot_complete ..).mono ?_) <;> decide
    | split
    | dsimp only

end Sys2Proof.Machine
end

