-- ==== Sys2Proof/Laws/FootMemory.lean ====
section
/-! SUPPORT. Footprints of the Chords and memories: the places (Laws/Frame.lean) that each
operation may change. -/

set_option linter.all false

namespace Sys2Proof.Machine

theorem foot_updChord (n : Nat) (f : Chord → Chord) : (updChord n f).In [46] := by
  unfold updChord
  repeat' first
    | with_reducible refine M.In.bind ?_ fun _ => ?_
    | with_reducible exact M.In.pure _
    | (refine M.In.hid_flg _ ?_; decide)
    | dsimp only

theorem foot_putChd (n new : Nat) : (putChd n new).In [18] := by
  unfold putChd
  repeat' first
    | with_reducible refine M.In.bind ?_ fun _ => ?_
    | with_reducible exact M.In.pure _
    | (with_reducible refine M.In.wf 18 _ _ ?_ ?_) <;> first | decide
    | split
    | dsimp only

theorem foot_chdEvent (n old new cause : Nat) : (chdEvent n old new cause).In [1, 20, 33, 43, 47] := by
  unfold chdEvent
  repeat' first
    | with_reducible refine M.In.bind ?_ fun _ => ?_
    | with_reducible exact M.In.pure _
    | (with_reducible refine (foot_eventDev ..).mono ?_) <;> decide
    | dsimp only

theorem foot_setChd (n new cause : Nat) : (setChd n new cause).In [1, 18, 20, 33, 43, 47] := by
  unfold setChd
  repeat' first
    | with_reducible refine M.In.bind ?_ fun _ => ?_
    | with_reducible refine M.In.ite ?_ ?_
    | with_reducible exact M.In.pure _
    | with_reducible exact M.In.getS
    | (with_reducible refine (foot_putChd ..).mono ?_) <;> decide
    | (with_reducible refine (foot_chdEvent ..).mono ?_) <;> decide
    | split
    | dsimp only

theorem foot_abandonTasks (n : Nat) : (abandonTasks n).In [1, 19, 20, 33, 43, 47, 60, 61] := by
  unfold abandonTasks
  repeat' first
    | with_reducible refine M.In.bind ?_ fun _ => ?_
    | with_reducible refine M.In.ite ?_ ?_
    | with_reducible exact M.In.pure _
    | with_reducible exact M.In.getS
    | (with_reducible refine (foot_complete ..).mono ?_) <;> decide
    | (with_reducible refine M.In.wf 19 _ _ ?_ ?_) <;> first | decide
    | (refine M.In.hid_mem _ ?_; decide)
    | (refine M.In.hid_lcy _ ?_; decide)
    | with_reducible refine M.In.forM (fun _ => ?_) _
    | with_reducible refine M.In.optForM (fun _ => ?_) _
    | split
    | dsimp only

theorem foot_allSafe (cause : Nat) : (allSafe cause).In [0, 1, 3, 4, 5, 6, 9, 12, 16, 20, 33, 43, 44, 45, 47, 48, 50] := by
  unfold allSafe
  repeat' first
    | with_reducible refine M.In.bind ?_ fun _ => ?_
    | with_reducible exact M.In.pure _
    | (with_reducible refine (foot_deviceSafe ..).mono ?_) <;> decide
    | (with_reducible refine (foot_forceAct ..).mono ?_) <;> decide
    | with_reducible refine M.In.forM (fun _ => ?_) _
    | with_reducible refine M.In.optForM (fun _ => ?_) _
    | dsimp only

theorem foot_dropSplit (n reason : Nat) : (dropSplit n reason).In [1, 20, 33, 43, 46, 47] := by
  unfold dropSplit
  repeat' first
    | with_reducible refine M.In.bind ?_ fun _ => ?_
    | with_reducible refine M.In.ite ?_ ?_
    | with_reducible exact M.In.pure _
    | with_reducible exact M.In.getS
    | (with_reducible refine (foot_complete ..).mono ?_) <;> decide
    | (with_reducible refine (foot_updChord ..).mono ?_) <;> decide
    | split
    | dsimp only

theorem foot_markFailed (n cause : Nat) : (markFailed n cause).In [1, 18, 20, 33, 43, 46, 47] := by
  unfold markFailed
  repeat' first
    | with_reducible refine M.In.bind ?_ fun _ => ?_
    | with_reducible exact M.In.pure _
    | (with_reducible refine (foot_updChord ..).mono ?_) <;> decide
    | (with_reducible refine (foot_setChd ..).mono ?_) <;> decide
    | (with_reducible refine (foot_dropSplit ..).mono ?_) <;> decide
    | (refine M.In.hid_flg _ ?_; decide)
    | dsimp only

theorem foot_carry (n cause : Nat) : (carry n cause).In [1, 18, 20, 33, 43, 46, 47] := by
  unfold carry
  repeat' first
    | with_reducible refine M.In.bind ?_ fun _ => ?_
    | with_reducible refine M.In.ite ?_ ?_
    | with_reducible exact M.In.pure _
    | with_reducible exact M.In.getS
    | (with_reducible refine (foot_updChord ..).mono ?_) <;> decide
    | (with_reducible refine (foot_setChd ..).mono ?_) <;> decide
    | split
    | dsimp only

theorem foot_giveBack (n cause : Nat) : (giveBack n cause).In [1, 18, 20, 33, 43, 46, 47] := by
  unfold giveBack
  repeat' first
    | with_reducible refine M.In.bind ?_ fun _ => ?_
    | with_reducible refine M.In.ite ?_ ?_
    | with_reducible exact M.In.pure _
    | with_reducible exact M.In.getS
    | (with_reducible refine (foot_updChord ..).mono ?_) <;> decide
    | (with_reducible refine (foot_setChd ..).mono ?_) <;> decide
    | split
    | dsimp only

theorem foot_endJoin (n : Nat) (test : Bool) : (endJoin n test).In [0, 1, 3, 4, 5, 6, 9, 12, 16, 17, 18, 20, 33, 35, 43, 44, 45, 46, 47, 48, 49, 50] := by
  unfold endJoin
  repeat' first
    | with_reducible refine M.In.bind ?_ fun _ => ?_
    | with_reducible refine M.In.ite ?_ ?_
    | with_reducible exact M.In.pure _
    | (with_reducible refine (foot_occur ..).mono ?_) <;> decide
    | (with_reducible refine (foot_complete ..).mono ?_) <;> decide
    | (with_reducible refine (foot_updChord ..).mono ?_) <;> decide
    | (with_reducible refine (foot_setChd ..).mono ?_) <;> decide
    | (with_reducible refine (foot_markFailed ..).mono ?_) <;> decide
    | (with_reducible refine (foot_giveBack ..).mono ?_) <;> decide
    | split
    | dsimp only

theorem foot_chordFailed (n cause : Nat) (test : Bool) : (chordFailed n cause test).In [0, 1, 3, 4, 5, 6, 9, 12, 16, 17, 18, 19, 20, 33, 35, 43, 44, 45, 46, 47, 48, 49, 50, 60, 61] := by
  unfold chordFailed
  repeat' first
    | with_reducible refine M.In.bind ?_ fun _ => ?_
    | with_reducible refine M.In.ite ?_ ?_
    | with_reducible exact M.In.pure _
    | with_reducible exact M.In.getS
    | (with_reducible refine (foot_abandonTasks ..).mono ?_) <;> decide
    | (with_reducible refine (foot_allSafe ..).mono ?_) <;> decide
    | (with_reducible refine (foot_dropSplit ..).mono ?_) <;> decide
    | (with_reducible refine (foot_markFailed ..).mono ?_) <;> decide
    | (with_reducible refine (foot_carry ..).mono ?_) <;> decide
    | (with_reducible refine (foot_endJoin ..).mono ?_) <;> decide
    | split
    | dsimp only

theorem foot_lockstepMismatch (n : Nat) (test : Bool) : (lockstepMismatch n test).In [0, 1, 3, 4, 5, 6, 9, 12, 16, 17, 18, 19, 20, 33, 35, 43, 44, 45, 46, 47, 48, 49, 50, 60, 61] := by
  unfold lockstepMismatch
  repeat' first
    | with_reducible refine M.In.bind ?_ fun _ => ?_
    | with_reducible refine M.In.ite ?_ ?_
    | with_reducible exact M.In.pure _
    | with_reducible exact M.In.getS
    | (with_reducible refine (foot_occurrence ..).mono ?_) <;> decide
    | (with_reducible refine (foot_updChord ..).mono ?_) <;> decide
    | (with_reducible refine (foot_putChd ..).mono ?_) <;> decide
    | (with_reducible refine (foot_chordFailed ..).mono ?_) <;> decide
    | (with_reducible refine M.In.inc 18 _ ?_ ?_) <;> first | decide | exact CHD.CNT_page _
    | split
    | dsimp only

theorem foot_restartPair (n : Nat) (ok : Bool) (t : Nat) (test : Bool) : (restartPair n ok t test).In [0, 1, 3, 4, 5, 6, 9, 12, 16, 17, 18, 19, 20, 33, 35, 43, 44, 45, 46, 47, 48, 49, 50, 60, 61] := by
  unfold restartPair
  repeat' first
    | with_reducible refine M.In.bind ?_ fun _ => ?_
    | with_reducible refine M.In.ite ?_ ?_
    | with_reducible exact M.In.pure _
    | with_reducible exact M.In.getS
    | (with_reducible refine (foot_occur ..).mono ?_) <;> decide
    | (with_reducible refine (foot_setChd ..).mono ?_) <;> decide
    | (with_reducible refine (foot_chordFailed ..).mono ?_) <;> decide
    | (with_reducible refine M.In.wf 18 _ _ ?_ ?_) <;> first | decide | exact CHD.CKPT_page _ | exact CHD.CNT_page _
    | (with_reducible refine M.In.inc 18 _ ?_ ?_) <;> first | decide | exact CHD.CKPT_page _ | exact CHD.CNT_page _
    | split
    | dsimp only

theorem foot_finishSplit (n : Nat) : (finishSplit n).In [1, 18, 20, 33, 43, 46, 47] := by
  unfold finishSplit
  repeat' first
    | with_reducible refine M.In.bind ?_ fun _ => ?_
    | with_reducible refine M.In.ite ?_ ?_
    | with_reducible exact M.In.pure _
    | with_reducible exact M.In.getS
    | (with_reducible refine (foot_complete ..).mono ?_) <;> decide
    | (with_reducible refine (foot_updChord ..).mono ?_) <;> decide
    | (with_reducible refine (foot_setChd ..).mono ?_) <;> decide
    | (with_reducible refine M.In.inc 18 _ ?_ ?_) <;> first | decide | exact CHD.CNT_page _
    | split
    | dsimp only

theorem foot_takeCheckpoint (n : Nat) (test : Bool) : (takeCheckpoint n test).In [0, 1, 3, 4, 5, 6, 9, 12, 16, 17, 18, 20, 33, 35, 43, 44, 45, 46, 47, 48, 49, 50] := by
  unfold takeCheckpoint
  repeat' first
    | with_reducible refine M.In.bind ?_ fun _ => ?_
    | with_reducible refine M.In.ite ?_ ?_
    | with_reducible exact M.In.pure _
    | with_reducible exact M.In.getS
    | (with_reducible refine (foot_setChd ..).mono ?_) <;> decide
    | (with_reducible refine (foot_carry ..).mono ?_) <;> decide
    | (with_reducible refine (foot_endJoin ..).mono ?_) <;> decide
    | (with_reducible refine (foot_finishSplit ..).mono ?_) <;> decide
    | (with_reducible refine M.In.incWrap 18 _ ?_ ?_) <;> first | decide | exact CHD.CKPT_page _
    | with_reducible refine M.In.forM (fun _ => ?_) _
    | with_reducible refine M.In.optForM (fun _ => ?_) _
    | split
    | dsimp only

theorem foot_startJoin (n : Nat) : (startJoin n).In [46] := by
  unfold startJoin
  repeat' first
    | with_reducible refine M.In.bind ?_ fun _ => ?_
    | with_reducible exact M.In.pure _
    | with_reducible exact M.In.getS
    | (with_reducible refine (foot_updChord ..).mono ?_) <;> decide
    | dsimp only

theorem foot_joinGraceExpiry (n : Nat) : (joinGraceExpiry n).In [1, 19, 20, 33, 43, 47, 60, 61] := by
  unfold joinGraceExpiry
  repeat' first
    | with_reducible refine M.In.bind ?_ fun _ => ?_
    | with_reducible refine M.In.ite ?_ ?_
    | with_reducible exact M.In.pure _
    | with_reducible exact M.In.getS
    | (with_reducible refine (foot_abandonTasks ..).mono ?_) <;> decide
    | split
    | dsimp only

theorem foot_updMem (f : MemSt → MemSt) : (updMem f).In [60] := by
  unfold updMem
  repeat' first
    | with_reducible refine M.In.bind ?_ fun _ => ?_
    | with_reducible exact M.In.pure _
    | (refine M.In.hid_mem _ ?_; decide)
    | dsimp only

theorem foot_wearCheck (q : Nat) : (wearCheck q).In [0, 1, 3, 4, 5, 6, 9, 12, 16, 17, 19, 20, 33, 35, 43, 44, 45, 46, 47, 48, 49, 50, 60] := by
  unfold wearCheck
  repeat' first
    | with_reducible refine M.In.bind ?_ fun _ => ?_
    | with_reducible refine M.In.ite ?_ ?_
    | with_reducible exact M.In.pure _
    | with_reducible exact M.In.getS
    | (with_reducible refine (foot_occur ..).mono ?_) <;> decide
    | (with_reducible refine (foot_updMem ..).mono ?_) <;> decide
    | (with_reducible refine M.In.wf 19 _ _ ?_ ?_) <;> first | decide
    | (with_reducible refine M.In.wr 19 _ _ ?_ ?_) <;> first | decide
    | (with_reducible refine M.In.hidAt fun x k hk => ?_) <;> (unfold SameHid; split <;> first | rfl | exact absurd (by decide) hk)
    | split
    | dsimp only

theorem foot_programPage (p : Nat) : (programPage p).In [0, 1, 3, 4, 5, 6, 9, 12, 16, 17, 19, 20, 33, 35, 43, 44, 45, 46, 47, 48, 49, 50, 60] := by
  unfold programPage
  repeat' first
    | with_reducible refine M.In.bind ?_ fun _ => ?_
    | with_reducible exact M.In.pure _
    | with_reducible exact M.In.getS
    | (with_reducible refine (foot_updMem ..).mono ?_) <;> decide
    | (with_reducible refine (foot_wearCheck ..).mono ?_) <;> decide
    | dsimp only

theorem foot_noteError (p bits : Nat) (uncorr : Bool) : (noteError p bits uncorr).In [19] := by
  unfold noteError
  repeat' first
    | with_reducible refine M.In.bind ?_ fun _ => ?_
    | with_reducible refine M.In.ite ?_ ?_
    | with_reducible exact M.In.pure _
    | with_reducible exact M.In.getS
    | (with_reducible refine M.In.wf 19 _ _ ?_ ?_) <;> first | decide | exact MEM.ERR0_page _ | exact MEM.ERR1_page _
    | (with_reducible refine M.In.wr 19 _ _ ?_ ?_) <;> first | decide | exact MEM.ERR0_page _ | exact MEM.ERR1_page _
    | (with_reducible refine M.In.inc 19 _ ?_ ?_) <;> first | decide | exact MEM.ERR0_page _ | exact MEM.ERR1_page _
    | split
    | dsimp only

theorem foot_uncorrectable (p : Nat) (mirrorOk : Bool) : (uncorrectable p mirrorOk).In [0, 1, 3, 4, 5, 6, 9, 12, 16, 17, 19, 20, 33, 35, 43, 44, 45, 46, 47, 48, 49, 50, 60] := by
  unfold uncorrectable
  repeat' first
    | with_reducible refine M.In.bind ?_ fun _ => ?_
    | with_reducible refine M.In.ite ?_ ?_
    | with_reducible exact M.In.pure _
    | with_reducible exact M.In.getS
    | (with_reducible refine (foot_occur ..).mono ?_) <;> decide
    | (with_reducible refine (foot_updMem ..).mono ?_) <;> decide
    | (with_reducible refine (foot_programPage ..).mono ?_) <;> decide
    | (with_reducible refine (foot_noteError ..).mono ?_) <;> decide
    | (with_reducible refine M.In.inc 19 _ ?_ ?_) <;> first | decide | exact MEM.REGION_page _
    | split
    | dsimp only

theorem foot_scrubPage (x : PageFind) (a : ScrubSum) : (scrubPage x a).In [0, 1, 3, 4, 5, 6, 9, 12, 16, 17, 19, 20, 33, 35, 43, 44, 45, 46, 47, 48, 49, 50, 60] := by
  unfold scrubPage
  repeat' first
    | with_reducible refine M.In.bind ?_ fun _ => ?_
    | with_reducible refine M.In.ite ?_ ?_
    | with_reducible exact M.In.pure _
    | with_reducible exact M.In.getS
    | (with_reducible refine (foot_occur ..).mono ?_) <;> decide
    | (with_reducible refine (foot_programPage ..).mono ?_) <;> decide
    | (with_reducible refine (foot_noteError ..).mono ?_) <;> decide
    | (with_reducible refine (foot_uncorrectable ..).mono ?_) <;> decide
    | (with_reducible refine M.In.inc 19 _ ?_ ?_) <;> first | decide
    | (with_reducible refine M.In.incBy 19 _ _ ?_ ?_) <;> first | decide
    | (with_reducible refine M.In.hidAt fun x k hk => ?_) <;> (unfold SameHid; split <;> first | rfl | exact absurd (by decide) hk)
    | split
    | dsimp only

theorem foot_scrubTick : (scrubTick).In [60] := by
  unfold scrubTick
  repeat' first
    | with_reducible refine M.In.bind ?_ fun _ => ?_
    | with_reducible refine M.In.ite ?_ ?_
    | with_reducible exact M.In.pure _
    | with_reducible exact M.In.getS
    | (with_reducible refine (foot_updMem ..).mono ?_) <;> decide
    | split
    | dsimp only

theorem foot_scrubEnd (finds : List PageFind) : (scrubEnd finds).In [0, 1, 3, 4, 5, 6, 9, 12, 16, 17, 19, 20, 33, 35, 43, 44, 45, 46, 47, 48, 49, 50, 60] := by
  unfold scrubEnd
  repeat' first
    | with_reducible refine M.In.bind ?_ fun _ => ?_
    | with_reducible exact M.In.pure _
    | with_reducible exact M.In.getS
    | (with_reducible refine (foot_complete ..).mono ?_) <;> decide
    | (with_reducible refine (foot_updMem ..).mono ?_) <;> decide
    | (with_reducible refine (foot_programPage ..).mono ?_) <;> decide
    | (with_reducible refine (foot_scrubPage ..).mono ?_) <;> decide
    | (with_reducible refine M.In.wf 19 _ _ ?_ ?_) <;> first | decide | exact MEM.REGION_page _
    | (with_reducible refine M.In.hidAt fun x k hk => ?_) <;> (unfold SameHid; split <;> first | rfl | exact absurd (by decide) hk)
    | with_reducible refine M.In.forM (fun _ => ?_) _
    | with_reducible refine M.In.optForM (fun _ => ?_) _
    | with_reducible refine M.In.foldM (fun _ _ => ?_) _ _
    | split
    | dsimp only

theorem foot_showMerge : (showMerge).In [19] := by
  unfold showMerge
  repeat' first
    | with_reducible refine M.In.bind ?_ fun _ => ?_
    | with_reducible exact M.In.pure _
    | with_reducible exact M.In.getS
    | (with_reducible refine M.In.wf 19 _ _ ?_ ?_) <;> first | decide
    | (with_reducible refine M.In.hidAt fun x k hk => ?_) <;> (unfold SameHid; split <;> first | rfl | exact absurd (by decide) hk)
    | dsimp only

theorem foot_writeBack (p : Nat) : (writeBack p).In [0, 1, 3, 4, 5, 6, 9, 12, 16, 17, 19, 20, 33, 35, 43, 44, 45, 46, 47, 48, 49, 50, 60] := by
  unfold writeBack
  repeat' first
    | with_reducible refine M.In.bind ?_ fun _ => ?_
    | with_reducible refine M.In.ite ?_ ?_
    | with_reducible exact M.In.pure _
    | with_reducible exact M.In.getS
    | (with_reducible refine (foot_updMem ..).mono ?_) <;> decide
    | (with_reducible refine (foot_programPage ..).mono ?_) <;> decide
    | (with_reducible refine (foot_showMerge ..).mono ?_) <;> decide
    | (with_reducible refine M.In.hidAt fun x k hk => ?_) <;> (unfold SameHid; split <;> first | rfl | exact absurd (by decide) hk)
    | split
    | dsimp only

theorem foot_mergeWriteBack : (mergeWriteBack).In [0, 1, 3, 4, 5, 6, 9, 12, 16, 17, 19, 20, 33, 35, 43, 44, 45, 46, 47, 48, 49, 50, 60] := by
  unfold mergeWriteBack
  repeat' first
    | with_reducible refine M.In.bind ?_ fun _ => ?_
    | with_reducible refine M.In.ite ?_ ?_
    | with_reducible exact M.In.pure _
    | with_reducible exact M.In.getS
    | (with_reducible refine (foot_writeBack ..).mono ?_) <;> decide
    | (with_reducible refine M.In.hidAt fun x k hk => ?_) <;> (unfold SameHid; split <;> first | rfl | exact absurd (by decide) hk)
    | split
    | dsimp only

theorem foot_narrowWrite (p : Nat) (old : List Byte) : (narrowWrite p old).In [0, 1, 3, 4, 5, 6, 9, 12, 16, 17, 19, 20, 33, 35, 43, 44, 45, 46, 47, 48, 49, 50, 60] := by
  unfold narrowWrite
  repeat' first
    | with_reducible refine M.In.bind ?_ fun _ => ?_
    | with_reducible refine M.In.ite ?_ ?_
    | with_reducible exact M.In.pure _
    | with_reducible exact M.In.getS
    | (with_reducible refine (foot_updMem ..).mono ?_) <;> decide
    | (with_reducible refine (foot_uncorrectable ..).mono ?_) <;> decide
    | (with_reducible refine (foot_showMerge ..).mono ?_) <;> decide
    | (with_reducible refine (foot_writeBack ..).mono ?_) <;> decide
    | (with_reducible refine M.In.hidAt fun x k hk => ?_) <;> (unfold SameHid; split <;> first | rfl | exact absurd (by decide) hk)
    | split
    | dsimp only

theorem foot_flushMerge : (flushMerge).In [0, 1, 3, 4, 5, 6, 9, 12, 16, 17, 19, 20, 33, 35, 43, 44, 45, 46, 47, 48, 49, 50, 60] := by
  unfold flushMerge
  repeat' first
    | with_reducible refine M.In.bind ?_ fun _ => ?_
    | with_reducible exact M.In.pure _
    | with_reducible exact M.In.getS
    | (with_reducible refine (foot_writeBack ..).mono ?_) <;> decide
    | (with_reducible refine M.In.hidAt fun x k hk => ?_) <;> (unfold SameHid; split <;> first | rfl | exact absurd (by decide) hk)
    | with_reducible refine M.In.forM (fun _ => ?_) _
    | with_reducible refine M.In.optForM (fun _ => ?_) _
    | dsimp only

theorem foot_writeMapPages (s0 : State) (id o n : Nat) : (writeMapPages s0 id o n).In [0, 1, 3, 4, 5, 6, 9, 12, 16, 17, 19, 20, 33, 35, 43, 44, 45, 46, 47, 48, 49, 50, 60] := by
  unfold writeMapPages
  repeat' first
    | with_reducible refine M.In.bind ?_ fun _ => ?_
    | with_reducible refine M.In.ite ?_ ?_
    | with_reducible exact M.In.pure _
    | (with_reducible refine (foot_updMem ..).mono ?_) <;> decide
    | (with_reducible refine (foot_programPage ..).mono ?_) <;> decide
    | (with_reducible refine (foot_showMerge ..).mono ?_) <;> decide
    | (with_reducible refine (foot_narrowWrite ..).mono ?_) <;> decide
    | with_reducible refine M.In.forM (fun _ => ?_) _
    | with_reducible refine M.In.optForM (fun _ => ?_) _
    | split
    | dsimp only

theorem foot_loseMerge : (loseMerge).In [32] := by
  unfold loseMerge
  repeat' first
    | with_reducible refine M.In.bind ?_ fun _ => ?_
    | with_reducible exact M.In.pure _
    | with_reducible exact M.In.getS
    | (with_reducible refine M.In.wtab _ _ _ ?_) <;> decide
    | (with_reducible refine M.In.hidAt fun x k hk => ?_) <;> (unfold SameHid; split <;> first | rfl | exact absurd (by decide) hk)
    | with_reducible refine M.In.forM (fun _ => ?_) _
    | with_reducible refine M.In.optForM (fun _ => ?_) _
    | dsimp only

theorem foot_listRow (row : Nat) : (listRow row).In [60] := by
  unfold listRow
  repeat' first
    | with_reducible refine M.In.bind ?_ fun _ => ?_
    | with_reducible refine M.In.ite ?_ ?_
    | with_reducible exact M.In.pure _
    | (with_reducible refine (foot_updMem ..).mono ?_) <;> decide
    | split
    | dsimp only

theorem foot_patrolWord (a : Nat) (double : Bool) : (patrolWord a double).In [0, 1, 3, 4, 5, 6, 9, 12, 16, 17, 19, 20, 33, 35, 43, 44, 45, 46, 47, 48, 49, 50, 60] := by
  unfold patrolWord
  repeat' first
    | with_reducible refine M.In.bind ?_ fun _ => ?_
    | with_reducible refine M.In.ite ?_ ?_
    | with_reducible exact M.In.pure _
    | with_reducible exact M.In.getS
    | (with_reducible refine (foot_occurrence ..).mono ?_) <;> decide
    | (with_reducible refine (foot_updMem ..).mono ?_) <;> decide
    | (with_reducible refine (foot_listRow ..).mono ?_) <;> decide
    | (with_reducible refine M.In.inc 19 _ ?_ ?_) <;> first | decide
    | (with_reducible refine M.In.hidAt fun x k hk => ?_) <;> (unfold SameHid; split <;> first | rfl | exact absurd (by decide) hk)
    | split
    | dsimp only

theorem foot_replaceRow (row : Nat) : (replaceRow row).In [19, 60] := by
  unfold replaceRow
  repeat' first
    | with_reducible refine M.In.bind ?_ fun _ => ?_
    | with_reducible refine M.In.ite ?_ ?_
    | with_reducible exact M.In.pure _
    | with_reducible exact M.In.getS
    | (with_reducible refine (foot_updMem ..).mono ?_) <;> decide
    | (with_reducible refine M.In.wf 19 _ _ ?_ ?_) <;> first | decide
    | (with_reducible refine M.In.hidAt fun x k hk => ?_) <;> (unfold SameHid; split <;> first | rfl | exact absurd (by decide) hk)
    | split
    | dsimp only

theorem foot_wipeSram (fails : List Nat) : (wipeSram fails).In [0, 1, 3, 4, 5, 6, 9, 12, 16, 17, 19, 20, 33, 35, 43, 44, 45, 46, 47, 48, 49, 50, 60] := by
  unfold wipeSram
  repeat' first
    | with_reducible refine M.In.bind ?_ fun _ => ?_
    | with_reducible refine M.In.ite ?_ ?_
    | with_reducible exact M.In.pure _
    | with_reducible exact M.In.getS
    | (with_reducible refine (foot_occur ..).mono ?_) <;> decide
    | (with_reducible refine (foot_updMem ..).mono ?_) <;> decide
    | (with_reducible refine (foot_replaceRow ..).mono ?_) <;> decide
    | (with_reducible refine M.In.wf 19 _ _ ?_ ?_) <;> first | decide
    | (with_reducible refine M.In.hidAt fun x k hk => ?_) <;> (unfold SameHid; split <;> first | rfl | exact absurd (by decide) hk)
    | with_reducible refine M.In.forM (fun _ => ?_) _
    | with_reducible refine M.In.optForM (fun _ => ?_) _
    | with_reducible refine M.In.foldM (fun _ _ => ?_) _ _
    | split
    | dsimp only

theorem foot_retirePage (p : Nat) : (retirePage p).In [0, 1, 3, 4, 5, 6, 9, 12, 16, 17, 19, 20, 33, 35, 43, 44, 45, 46, 47, 48, 49, 50, 60] := by
  unfold retirePage
  repeat' first
    | with_reducible refine M.In.bind ?_ fun _ => ?_
    | with_reducible refine M.In.ite ?_ ?_
    | with_reducible exact M.In.pure _
    | with_reducible exact M.In.getS
    | (with_reducible refine (foot_occur ..).mono ?_) <;> decide
    | (with_reducible refine (foot_updMem ..).mono ?_) <;> decide
    | (with_reducible refine (foot_programPage ..).mono ?_) <;> decide
    | (with_reducible refine (foot_noteError ..).mono ?_) <;> decide
    | (with_reducible refine (foot_writeBack ..).mono ?_) <;> decide
    | (with_reducible refine M.In.wf 19 _ _ ?_ ?_) <;> first | decide | exact MEM.ERR0_page _ | exact MEM.ERR1_page _
    | (with_reducible refine M.In.inc 19 _ ?_ ?_) <;> first | decide | exact MEM.ERR0_page _ | exact MEM.ERR1_page _
    | (with_reducible refine M.In.hidAt fun x k hk => ?_) <;> (unfold SameHid; split <;> first | rfl | exact absurd (by decide) hk)
    | split
    | dsimp only

theorem foot_wipeRegion (r : Nat) : (wipeRegion r).In [0, 1, 3, 4, 5, 6, 9, 12, 16, 17, 19, 20, 33, 35, 43, 44, 45, 46, 47, 48, 49, 50, 60] := by
  unfold wipeRegion
  repeat' first
    | with_reducible refine M.In.bind ?_ fun _ => ?_
    | with_reducible refine M.In.ite ?_ ?_
    | with_reducible exact M.In.pure _
    | with_reducible exact M.In.getS
    | (with_reducible refine (foot_updMem ..).mono ?_) <;> decide
    | (with_reducible refine (foot_wearCheck ..).mono ?_) <;> decide
    | (with_reducible refine (foot_showMerge ..).mono ?_) <;> decide
    | (with_reducible refine M.In.hidAt fun x k hk => ?_) <;> (unfold SameHid; split <;> first | rfl | exact absurd (by decide) hk)
    | with_reducible refine M.In.forM (fun _ => ?_) _
    | with_reducible refine M.In.optForM (fun _ => ?_) _
    | split
    | dsimp only

theorem foot_updLc (c : Nat) (f : LCell → LCell) : (updLc c f).In [51] := by
  unfold updLc
  repeat' first
    | with_reducible refine M.In.bind ?_ fun _ => ?_
    | with_reducible exact M.In.pure _
    | (refine M.In.hid_lat _ ?_; decide)
    | dsimp only

theorem foot_updRg (n : Nat) (f : RateGrp → RateGrp) : (updRg n f).In [51] := by
  unfold updRg
  repeat' first
    | with_reducible refine M.In.bind ?_ fun _ => ?_
    | with_reducible exact M.In.pure _
    | (refine M.In.hid_lat _ ?_; decide)
    | dsimp only

theorem foot_putCells (l : List (Nat × LCell)) : (putCells l).In [51] := by
  unfold putCells
  repeat' first
    | with_reducible refine M.In.bind ?_ fun _ => ?_
    | with_reducible exact M.In.pure _
    | (with_reducible refine (foot_updLc ..).mono ?_) <;> decide
    | with_reducible refine M.In.forM (fun _ => ?_) _
    | with_reducible refine M.In.optForM (fun _ => ?_) _
    | dsimp only

theorem foot_restoreCells (n : Nat) : (restoreCells n).In [51] := by
  unfold restoreCells
  repeat' first
    | with_reducible refine M.In.bind ?_ fun _ => ?_
    | with_reducible exact M.In.pure _
    | with_reducible exact M.In.getS
    | (with_reducible refine (foot_updRg ..).mono ?_) <;> decide
    | (with_reducible refine (foot_putCells ..).mono ?_) <;> decide
    | split
    | dsimp only

theorem foot_discardEval (g : Nat) : (discardEval g).In [51] := by
  unfold discardEval
  repeat' first
    | with_reducible refine M.In.bind ?_ fun _ => ?_
    | with_reducible refine M.In.ite ?_ ?_
    | with_reducible exact M.In.pure _
    | with_reducible exact M.In.getS
    | (with_reducible refine (foot_restoreCells ..).mono ?_) <;> decide
    | split
    | dsimp only

end Sys2Proof.Machine
end

