-- ==== Sys2Proof/Laws/FootPulse.lean ====
section
/-! SUPPORT. Footprints of pulse generation, comparator cells and measurement: the places (Laws/Frame.lean) that each
operation may change. -/

set_option linter.all false

namespace Sys2Proof.Machine

theorem foot_setLoad : (setLoad).In [7] := by
  unfold setLoad
  repeat' first
    | with_reducible refine M.In.bind ?_ fun _ => ?_
    | with_reducible exact M.In.pure _
    | with_reducible exact M.In.getS
    | (with_reducible refine M.In.wf 7 _ _ ?_ ?_) <;> first | decide
    | dsimp only

theorem foot_meetStrobe (ts : List Nat) : (meetStrobe ts).In [3] := by
  unfold meetStrobe
  repeat' first
    | with_reducible refine M.In.bind ?_ fun _ => ?_
    | with_reducible refine M.In.ite ?_ ?_
    | with_reducible exact M.In.pure _
    | with_reducible exact M.In.getS
    | (with_reducible refine M.In.inc 3 _ ?_ ?_) <;> first | decide
    | split
    | dsimp only

theorem foot_passShadows (t : Nat) : (passShadows t).In [7, 44] := by
  unfold passShadows
  repeat' first
    | with_reducible refine M.In.bind ?_ fun _ => ?_
    | with_reducible exact M.In.pure _
    | with_reducible exact M.In.getS
    | (with_reducible refine (foot_updTb ..).mono ?_) <;> decide
    | (with_reducible refine (foot_updTrg ..).mono ?_) <;> decide
    | (with_reducible refine (foot_setLoad ..).mono ?_) <;> decide
    | with_reducible refine M.In.forM (fun _ => ?_) _
    | with_reducible refine M.In.optForM (fun _ => ?_) _
    | dsimp only

theorem foot_beginAt (t pos : Nat) : (beginAt t pos).In [3, 5, 44, 45] := by
  unfold beginAt
  repeat' first
    | with_reducible refine M.In.bind ?_ fun _ => ?_
    | with_reducible refine M.In.ite ?_ ?_
    | with_reducible exact M.In.pure _
    | with_reducible exact M.In.getS
    | (with_reducible refine (foot_updChan ..).mono ?_) <;> decide
    | (with_reducible refine (foot_updTb ..).mono ?_) <;> decide
    | (with_reducible refine (foot_cellOff ..).mono ?_) <;> decide
    | (with_reducible refine M.In.wf 3 _ _ ?_ ?_) <;> first | decide | exact PLS.TB_COUNT_page _
    | (with_reducible refine M.In.hidAt fun x k hk => ?_) <;> (unfold SameHid; split <;> first | rfl | exact absurd (by decide) hk)
    | with_reducible refine M.In.forM (fun _ => ?_) _
    | with_reducible refine M.In.optForM (fun _ => ?_) _
    | split
    | dsimp only

theorem foot_alignPhase (ts : List Nat) : (alignPhase ts).In [3, 5, 44, 45] := by
  unfold alignPhase
  repeat' first
    | with_reducible refine M.In.bind ?_ fun _ => ?_
    | with_reducible exact M.In.pure _
    | with_reducible exact M.In.getS
    | (with_reducible refine (foot_beginAt ..).mono ?_) <;> decide
    | with_reducible refine M.In.forM (fun _ => ?_) _
    | with_reducible refine M.In.optForM (fun _ => ?_) _
    | dsimp only

theorem foot_startMask (mask : Nat) : (startMask mask).In [3, 5, 44, 45] := by
  unfold startMask
  repeat' first
    | with_reducible refine M.In.bind ?_ fun _ => ?_
    | with_reducible exact M.In.pure _
    | with_reducible exact M.In.getS
    | (with_reducible refine (foot_beginAt ..).mono ?_) <;> decide
    | (with_reducible refine (foot_alignPhase ..).mono ?_) <;> decide
    | (with_reducible refine M.In.wf 3 _ _ ?_ ?_) <;> first | decide | exact PLS.TB_CFG_page _ | exact PLS.TB_SYNC_page _
    | with_reducible refine M.In.forM (fun _ => ?_) _
    | with_reducible refine M.In.optForM (fun _ => ?_) _
    | split
    | dsimp only

theorem foot_stopTb (t : Nat) : (stopTb t).In [3, 5, 7, 44, 45] := by
  unfold stopTb
  repeat' first
    | with_reducible refine M.In.bind ?_ fun _ => ?_
    | with_reducible exact M.In.pure _
    | with_reducible exact M.In.getS
    | (with_reducible refine (foot_passShadows ..).mono ?_) <;> decide
    | (with_reducible refine (foot_beginAt ..).mono ?_) <;> decide
    | (with_reducible refine (foot_alignPhase ..).mono ?_) <;> decide
    | (with_reducible refine M.In.wf 3 _ _ ?_ ?_) <;> first | decide | exact PLS.TB_CFG_page _
    | dsimp only

theorem foot_syncWritten (t : Nat) : (syncWritten t).In [3, 5, 44, 45] := by
  unfold syncWritten
  repeat' first
    | with_reducible refine M.In.bind ?_ fun _ => ?_
    | with_reducible refine M.In.ite ?_ ?_
    | with_reducible exact M.In.pure _
    | with_reducible exact M.In.getS
    | (with_reducible refine (foot_alignPhase ..).mono ?_) <;> decide
    | split
    | dsimp only

theorem foot_bootUv (p h time : Nat) : (bootUv p h time).In [0, 1, 3, 4, 5, 6, 9, 12, 16, 17, 20, 33, 35, 43, 44, 45, 46, 47, 48, 49, 50] := by
  unfold bootUv
  repeat' first
    | with_reducible refine M.In.bind ?_ fun _ => ?_
    | with_reducible exact M.In.pure _
    | with_reducible exact M.In.getS
    | (with_reducible refine (foot_updChan ..).mono ?_) <;> decide
    | (with_reducible refine (foot_cellOff ..).mono ?_) <;> decide
    | (with_reducible refine (foot_occur ..).mono ?_) <;> decide
    | (with_reducible refine M.In.wf 5 _ _ ?_ ?_) <;> first | decide | exact GDR.BST_STAT_page _ | exact GDR.DRV_CFG_page _ | exact PLS.DEADTIME_page _
    | (with_reducible refine M.In.inc 5 _ ?_ ?_) <;> first | decide | exact GDR.BST_STAT_page _ | exact GDR.DRV_CFG_page _ | exact PLS.DEADTIME_page _
    | split
    | dsimp only

theorem foot_openBlank (e : Nat × Nat) (onEdge : Bool) : (openBlank e onEdge).In [4, 45] := by
  unfold openBlank
  repeat' first
    | with_reducible refine M.In.bind ?_ fun _ => ?_
    | with_reducible exact M.In.pure _
    | with_reducible exact M.In.getS
    | (with_reducible refine M.In.wf 4 _ _ ?_ ?_) <;> first | decide | exact TRP.CELL_STAT_page _
    | (refine M.In.hid_trp _ ?_; decide)
    | with_reducible refine M.In.forM (fun _ => ?_) _
    | with_reducible refine M.In.optForM (fun _ => ?_) _
    | dsimp only

theorem foot_advancePartner (ch time : Nat) : (advancePartner ch time).In [44] := by
  unfold advancePartner
  repeat' first
    | with_reducible refine M.In.bind ?_ fun _ => ?_
    | with_reducible refine M.In.ite ?_ ?_
    | with_reducible exact M.In.pure _
    | with_reducible exact M.In.getS
    | (with_reducible refine (foot_updChan ..).mono ?_) <;> decide
    | with_reducible refine M.In.forM (fun _ => ?_) _
    | with_reducible refine M.In.optForM (fun _ => ?_) _
    | split
    | dsimp only

theorem foot_endPulse (ch time : Nat) (cells : List Nat) : (endPulse ch time cells).In [4, 5, 44, 45] := by
  unfold endPulse
  repeat' first
    | with_reducible refine M.In.bind ?_ fun _ => ?_
    | with_reducible refine M.In.ite ?_ ?_
    | with_reducible exact M.In.pure _
    | with_reducible exact M.In.getS
    | (with_reducible refine (foot_cellOff ..).mono ?_) <;> decide
    | (with_reducible refine (foot_advancePartner ..).mono ?_) <;> decide
    | (with_reducible refine M.In.incWrap 4 _ ?_ ?_) <;> first | decide | exact TRP.CELL_STAT_page _
    | with_reducible refine M.In.forM (fun _ => ?_) _
    | with_reducible refine M.In.optForM (fun _ => ?_) _
    | split
    | dsimp only

theorem foot_takeOn (e : Edge) : (takeOn e).In [0, 1, 3, 4, 5, 6, 9, 12, 16, 17, 20, 33, 35, 43, 44, 45, 46, 47, 48, 49, 50] := by
  unfold takeOn
  repeat' first
    | with_reducible refine M.In.bind ?_ fun _ => ?_
    | with_reducible refine M.In.ite ?_ ?_
    | with_reducible exact M.In.pure _
    | with_reducible exact M.In.getS
    | (with_reducible refine (foot_cellOn ..).mono ?_) <;> decide
    | (with_reducible refine (foot_bootUv ..).mono ?_) <;> decide
    | (with_reducible refine (foot_openBlank ..).mono ?_) <;> decide
    | (with_reducible refine (foot_endPulse ..).mono ?_) <;> decide
    | split
    | dsimp only

theorem foot_ilkHit (i c : Nat) : (ilkHit i c).In [0, 1, 2, 3, 4, 5, 6, 9, 12, 16, 17, 20, 33, 35, 43, 44, 45, 46, 47, 48, 49, 50] := by
  unfold ilkHit
  repeat' first
    | with_reducible refine M.In.bind ?_ fun _ => ?_
    | with_reducible exact M.In.pure _
    | with_reducible exact M.In.getS
    | (with_reducible refine (foot_occur ..).mono ?_) <;> decide
    | (with_reducible refine M.In.inc 2 _ ?_ ?_) <;> first | decide | exact MAP.ILK_HITS_page _
    | dsimp only

theorem foot_settleCell (c time : Nat) : (settleCell c time).In [0, 1, 2, 3, 4, 5, 6, 9, 12, 16, 17, 20, 33, 35, 43, 44, 45, 46, 47, 48, 49, 50] := by
  unfold settleCell
  repeat' first
    | with_reducible refine M.In.bind ?_ fun _ => ?_
    | with_reducible refine M.In.ite ?_ ?_
    | with_reducible exact M.In.pure _
    | with_reducible exact M.In.getS
    | (with_reducible refine (foot_updChan ..).mono ?_) <;> decide
    | (with_reducible refine (foot_cellOff ..).mono ?_) <;> decide
    | (with_reducible refine (foot_cellOn ..).mono ?_) <;> decide
    | (with_reducible refine (foot_takeOn ..).mono ?_) <;> decide
    | (with_reducible refine (foot_ilkHit ..).mono ?_) <;> decide
    | with_reducible refine M.In.forM (fun _ => ?_) _
    | with_reducible refine M.In.optForM (fun _ => ?_) _
    | split
    | dsimp only

theorem foot_settleCells (t time : Nat) : (settleCells t time).In [0, 1, 2, 3, 4, 5, 6, 9, 12, 16, 17, 20, 33, 35, 43, 44, 45, 46, 47, 48, 49, 50] := by
  unfold settleCells
  repeat' first
    | with_reducible refine M.In.bind ?_ fun _ => ?_
    | with_reducible refine M.In.ite ?_ ?_
    | with_reducible exact M.In.pure _
    | with_reducible exact M.In.getS
    | (with_reducible refine (foot_settleCell ..).mono ?_) <;> decide
    | with_reducible refine M.In.forM (fun _ => ?_) _
    | with_reducible refine M.In.optForM (fun _ => ?_) _
    | split
    | dsimp only

theorem foot_showSpares : (showSpares).In [2] := by
  unfold showSpares
  repeat' first
    | with_reducible refine M.In.bind ?_ fun _ => ?_
    | with_reducible exact M.In.pure _
    | with_reducible exact M.In.getS
    | (with_reducible refine M.In.wf 2 _ _ ?_ ?_) <;> first | decide
    | dsimp only

theorem foot_mirrorCheck (t pos : Nat) : (mirrorCheck t pos).In [1, 2, 20, 33, 43, 45, 47] := by
  unfold mirrorCheck
  repeat' first
    | with_reducible refine M.In.bind ?_ fun _ => ?_
    | with_reducible refine M.In.ite ?_ ?_
    | with_reducible exact M.In.pure _
    | with_reducible exact M.In.getS
    | (with_reducible refine (foot_complete ..).mono ?_) <;> decide
    | (with_reducible refine (foot_showSpares ..).mono ?_) <;> decide
    | (with_reducible refine M.In.wf 2 _ _ ?_ ?_) <;> first | decide
    | (with_reducible refine M.In.inc 2 _ ?_ ?_) <;> first | decide
    | (refine M.In.hid_trp _ ?_; decide)
    | (with_reducible refine M.In.hidAt fun x k hk => ?_) <;> (unfold SameHid; split <;> first | rfl | exact absurd (by decide) hk)
    | split
    | dsimp only

theorem foot_starve (t stop : Nat) : (starve t stop).In [45] := by
  unfold starve
  repeat' first
    | with_reducible refine M.In.bind ?_ fun _ => ?_
    | with_reducible refine M.In.ite ?_ ?_
    | with_reducible exact M.In.pure _
    | with_reducible exact M.In.getS
    | (refine M.In.hid_trp _ ?_; decide)
    | (with_reducible refine M.In.hidAt fun x k hk => ?_) <;> (unfold SameHid; split <;> first | rfl | exact absurd (by decide) hk)
    | with_reducible refine M.In.forM (fun _ => ?_) _
    | with_reducible refine M.In.optForM (fun _ => ?_) _
    | split
    | dsimp only

theorem foot_endPeriod (t len : Nat) : (endPeriod t len).In [0, 1, 2, 3, 4, 5, 6, 7, 9, 12, 16, 17, 20, 33, 35, 43, 44, 45, 46, 47, 48, 49, 50] := by
  unfold endPeriod
  repeat' first
    | with_reducible refine M.In.bind ?_ fun _ => ?_
    | with_reducible refine M.In.ite ?_ ?_
    | with_reducible exact M.In.pure _
    | with_reducible exact M.In.getS
    | (with_reducible refine (foot_updChan ..).mono ?_) <;> decide
    | (with_reducible refine (foot_updTb ..).mono ?_) <;> decide
    | (with_reducible refine (foot_updTrg ..).mono ?_) <;> decide
    | (with_reducible refine (foot_passShadows ..).mono ?_) <;> decide
    | (with_reducible refine (foot_settleCells ..).mono ?_) <;> decide
    | (with_reducible refine (foot_starve ..).mono ?_) <;> decide
    | (with_reducible refine M.In.wf 3 _ _ ?_ ?_) <;> first | decide | exact PLS.TB_CFG_page _ | exact PLS.TB_COUNT_page _
    | (with_reducible refine M.In.incBy 3 _ _ ?_ ?_) <;> first | decide | exact PLS.TB_CFG_page _ | exact PLS.TB_COUNT_page _
    | with_reducible refine M.In.forM (fun _ => ?_) _
    | with_reducible refine M.In.optForM (fun _ => ?_) _
    | split
    | dsimp only

theorem foot_advance (t pos : Nat) : (advance t pos).In [0, 1, 2, 3, 4, 5, 6, 7, 9, 12, 16, 17, 20, 33, 35, 43, 44, 45, 46, 47, 48, 49, 50] := by
  unfold advance
  repeat' first
    | with_reducible refine M.In.bind ?_ fun _ => ?_
    | with_reducible refine M.In.ite ?_ ?_
    | with_reducible exact M.In.pure _
    | with_reducible exact M.In.getS
    | (with_reducible refine (foot_updTb ..).mono ?_) <;> decide
    | (with_reducible refine (foot_endPeriod ..).mono ?_) <;> decide
    | (with_reducible refine M.In.wf 3 _ _ ?_ ?_) <;> first | decide | exact PLS.TB_COUNT_page _
    | split
    | dsimp only

theorem foot_reach (t per pos : Nat) : (reach t per pos).In [0, 1, 2, 3, 4, 5, 6, 7, 9, 12, 16, 17, 20, 33, 35, 43, 44, 45, 46, 47, 48, 49, 50] := by
  unfold reach
  repeat' first
    | with_reducible refine M.In.bind ?_ fun _ => ?_
    | with_reducible refine M.In.ite ?_ ?_
    | with_reducible exact M.In.pure _
    | with_reducible exact M.In.getS
    | (with_reducible refine (foot_endPeriod ..).mono ?_) <;> decide
    | (with_reducible refine (foot_advance ..).mono ?_) <;> decide
    | with_reducible refine M.In.forM (fun _ => ?_) _
    | with_reducible refine M.In.optForM (fun _ => ?_) _
    | split
    | dsimp only

theorem foot_edgeCompare (t pos : Nat) : (edgeCompare t pos).In [0, 1, 2, 3, 4, 5, 6, 7, 9, 12, 16, 17, 20, 33, 35, 43, 44, 45, 46, 47, 48, 49, 50] := by
  unfold edgeCompare
  repeat' first
    | with_reducible refine M.In.bind ?_ fun _ => ?_
    | with_reducible refine M.In.ite ?_ ?_
    | with_reducible exact M.In.pure _
    | with_reducible exact M.In.getS
    | (with_reducible refine (foot_updChan ..).mono ?_) <;> decide
    | (with_reducible refine (foot_cellOff ..).mono ?_) <;> decide
    | (with_reducible refine (foot_openBlank ..).mono ?_) <;> decide
    | (with_reducible refine (foot_takeOn ..).mono ?_) <;> decide
    | (with_reducible refine (foot_ilkHit ..).mono ?_) <;> decide
    | (with_reducible refine (foot_settleCells ..).mono ?_) <;> decide
    | (with_reducible refine (foot_mirrorCheck ..).mono ?_) <;> decide
    | (with_reducible refine (foot_advance ..).mono ?_) <;> decide
    | (with_reducible refine M.In.inc 3 _ ?_ ?_) <;> first | decide
    | with_reducible refine M.In.forM (fun _ => ?_) _
    | with_reducible refine M.In.optForM (fun _ => ?_) _
    | split
    | dsimp only

theorem foot_placeShadow (k : Nat) (rise fall : Word) : (placeShadow k rise fall).In [3, 44] := by
  unfold placeShadow
  repeat' first
    | with_reducible refine M.In.bind ?_ fun _ => ?_
    | with_reducible refine M.In.ite ?_ ?_
    | with_reducible exact M.In.pure _
    | with_reducible exact M.In.getS
    | (with_reducible refine (foot_updTrg ..).mono ?_) <;> decide
    | (with_reducible refine M.In.inc 3 _ ?_ ?_) <;> first | decide
    | split
    | dsimp only

theorem foot_shadowPosted (c : Nat) : (shadowPosted c).In [0, 3, 6, 44, 50] := by
  unfold shadowPosted
  repeat' first
    | with_reducible refine M.In.bind ?_ fun _ => ?_
    | with_reducible refine M.In.ite ?_ ?_
    | with_reducible exact M.In.pure _
    | with_reducible exact M.In.getS
    | (with_reducible refine (foot_updTrg ..).mono ?_) <;> decide
    | (with_reducible refine (foot_setProvisional ..).mono ?_) <;> decide
    | (with_reducible refine (foot_resolveTrg ..).mono ?_) <;> decide
    | (with_reducible refine (foot_placeShadow ..).mono ?_) <;> decide
    | with_reducible refine M.In.forM (fun _ => ?_) _
    | with_reducible refine M.In.optForM (fun _ => ?_) _
    | split
    | dsimp only

theorem foot_commitTrgs (g : Nat) : (commitTrgs g).In [0, 3, 6, 44, 50] := by
  unfold commitTrgs
  repeat' first
    | with_reducible refine M.In.bind ?_ fun _ => ?_
    | with_reducible refine M.In.ite ?_ ?_
    | with_reducible exact M.In.pure _
    | with_reducible exact M.In.getS
    | (with_reducible refine (foot_updTrg ..).mono ?_) <;> decide
    | (with_reducible refine (foot_setProvisional ..).mono ?_) <;> decide
    | (with_reducible refine (foot_resolveTrg ..).mono ?_) <;> decide
    | (with_reducible refine M.In.inc 3 _ ?_ ?_) <;> first | decide | exact PLS.FALL_page _ | exact PLS.RISE_page _
    | with_reducible refine M.In.forM (fun _ => ?_) _
    | with_reducible refine M.In.optForM (fun _ => ?_) _
    | split
    | dsimp only

theorem foot_startShots (t : Nat) (met : List Nat) : (startShots t met).In [3, 44] := by
  unfold startShots
  repeat' first
    | with_reducible refine M.In.bind ?_ fun _ => ?_
    | with_reducible refine M.In.ite ?_ ?_
    | with_reducible exact M.In.pure _
    | with_reducible exact M.In.getS
    | (with_reducible refine (foot_updTrg ..).mono ?_) <;> decide
    | (with_reducible refine M.In.inc 3 _ ?_ ?_) <;> first | decide
    | with_reducible refine M.In.forM (fun _ => ?_) _
    | with_reducible refine M.In.optForM (fun _ => ?_) _
    | split
    | dsimp only

theorem foot_fire (k : Nat) (x : Shot) : (fire k x).In [3, 44] := by
  unfold fire
  repeat' first
    | with_reducible refine M.In.bind ?_ fun _ => ?_
    | with_reducible refine M.In.ite ?_ ?_
    | with_reducible exact M.In.pure _
    | (with_reducible refine (foot_updTrg ..).mono ?_) <;> decide
    | (with_reducible refine M.In.inc 3 _ ?_ ?_) <;> first | decide
    | split
    | dsimp only

theorem foot_triggerFires (t j : Nat) : (triggerFires t j).In [0, 1, 2, 3, 4, 5, 6, 7, 9, 12, 16, 17, 20, 33, 35, 43, 44, 45, 46, 47, 48, 49, 50] := by
  unfold triggerFires
  repeat' first
    | with_reducible refine M.In.bind ?_ fun _ => ?_
    | with_reducible refine M.In.ite ?_ ?_
    | with_reducible exact M.In.pure _
    | with_reducible exact M.In.getS
    | (with_reducible refine (foot_updTrg ..).mono ?_) <;> decide
    | (with_reducible refine (foot_advance ..).mono ?_) <;> decide
    | (with_reducible refine (foot_reach ..).mono ?_) <;> decide
    | (with_reducible refine (foot_fire ..).mono ?_) <;> decide
    | split
    | dsimp only

theorem foot_triggerCompare (t j : Nat) : (triggerCompare t j).In [0, 1, 2, 3, 4, 5, 6, 7, 9, 12, 16, 17, 20, 33, 35, 43, 44, 45, 46, 47, 48, 49, 50] := by
  unfold triggerCompare
  repeat' first
    | with_reducible refine M.In.bind ?_ fun _ => ?_
    | with_reducible refine M.In.ite ?_ ?_
    | with_reducible exact M.In.pure _
    | with_reducible exact M.In.getS
    | (with_reducible refine (foot_triggerFires ..).mono ?_) <;> decide
    | (with_reducible refine M.In.inc 0 _ ?_ ?_) <;> first | decide | exact SYS.XFER_page _
    | split
    | dsimp only

theorem foot_trgWritten (k : Nat) : (trgWritten k).In [0, 3, 6, 44, 50] := by
  unfold trgWritten
  repeat' first
    | with_reducible refine M.In.bind ?_ fun _ => ?_
    | with_reducible exact M.In.pure _
    | (with_reducible refine (foot_updTrg ..).mono ?_) <;> decide
    | (with_reducible refine (foot_setProvisional ..).mono ?_) <;> decide
    | (with_reducible refine (foot_resolveTrg ..).mono ?_) <;> decide
    | with_reducible refine M.In.forM (fun _ => ?_) _
    | with_reducible refine M.In.optForM (fun _ => ?_) _
    | dsimp only

theorem foot_commitWords (c : Nat) : (commitWords c).In [44] := by
  unfold commitWords
  repeat' first
    | with_reducible refine M.In.bind ?_ fun _ => ?_
    | with_reducible exact M.In.pure _
    | with_reducible exact M.In.getS
    | (with_reducible refine (foot_updChan ..).mono ?_) <;> decide
    | dsimp only

theorem foot_commitShadows (g : Nat) : (commitShadows g).In [0, 3, 6, 44, 50] := by
  unfold commitShadows
  repeat' first
    | with_reducible refine M.In.bind ?_ fun _ => ?_
    | with_reducible exact M.In.pure _
    | with_reducible exact M.In.getS
    | (with_reducible refine (foot_updTb ..).mono ?_) <;> decide
    | (with_reducible refine (foot_updTrg ..).mono ?_) <;> decide
    | (with_reducible refine (foot_meetStrobe ..).mono ?_) <;> decide
    | (with_reducible refine (foot_commitTrgs ..).mono ?_) <;> decide
    | (with_reducible refine (foot_commitWords ..).mono ?_) <;> decide
    | (with_reducible refine M.In.wf 3 _ _ ?_ ?_) <;> first | decide | exact PLS.GRP_STAT_page _ | exact PLS.TB_PERIOD_page _ | exact PLS.TRG_POS_page _ _
    | (refine M.In.hid_pls _ ?_; decide)
    | with_reducible refine M.In.forM (fun _ => ?_) _
    | with_reducible refine M.In.optForM (fun _ => ?_) _
    | split
    | dsimp only

theorem foot_loopCommit (g : Nat) : (loopCommit g).In [0, 3, 6, 44, 50] := by
  unfold loopCommit
  repeat' first
    | with_reducible refine M.In.bind ?_ fun _ => ?_
    | with_reducible refine M.In.ite ?_ ?_
    | with_reducible exact M.In.pure _
    | with_reducible exact M.In.getS
    | (with_reducible refine (foot_cancelTriggers ..).mono ?_) <;> decide
    | (with_reducible refine (foot_discardShadows ..).mono ?_) <;> decide
    | (with_reducible refine (foot_meetStrobe ..).mono ?_) <;> decide
    | (with_reducible refine (foot_commitShadows ..).mono ?_) <;> decide
    | (with_reducible refine M.In.inc 3 _ ?_ ?_) <;> first | decide
    | (refine M.In.hid_pls _ ?_; decide)
    | split
    | dsimp only

theorem foot_writeShadow (c : Nat) (fall : Bool) (w : Word) : (writeShadow c fall w).In [3] := by
  unfold writeShadow
  repeat' first
    | with_reducible refine M.In.bind ?_ fun _ => ?_
    | with_reducible refine M.In.ite ?_ ?_
    | with_reducible exact M.In.pure _
    | with_reducible exact M.In.getS
    | (with_reducible refine M.In.wr 3 _ _ ?_ ?_) <;> first | decide | exact PLS.FALL_page _ | exact PLS.RISE_page _
    | split
    | dsimp only

theorem foot_post (c : Nat) (rise fall : Option Word) : (post c rise fall).In [0, 3, 6, 44, 50] := by
  unfold post
  repeat' first
    | with_reducible refine M.In.bind ?_ fun _ => ?_
    | with_reducible refine M.In.ite ?_ ?_
    | with_reducible exact M.In.pure _
    | with_reducible exact M.In.getS
    | (with_reducible refine (foot_meetStrobe ..).mono ?_) <;> decide
    | (with_reducible refine (foot_shadowPosted ..).mono ?_) <;> decide
    | (with_reducible refine (foot_writeShadow ..).mono ?_) <;> decide
    | (with_reducible refine M.In.inc 3 _ ?_ ?_) <;> first | decide
    | with_reducible refine M.In.forM (fun _ => ?_) _
    | with_reducible refine M.In.optForM (fun _ => ?_) _
    | split
    | dsimp only

theorem foot_postEdges (c : Nat) (rise fall : Word) : (postEdges c rise fall).In [0, 3, 6, 44, 50] := by
  unfold postEdges
  repeat' first
    | with_reducible refine M.In.bind ?_ fun _ => ?_
    | with_reducible exact M.In.pure _
    | (with_reducible refine (foot_post ..).mono ?_) <;> decide
    | dsimp only

theorem foot_commitDeadline (t : Nat) : (commitDeadline t).In [0, 1, 3, 4, 5, 6, 9, 12, 16, 17, 20, 33, 35, 43, 44, 45, 46, 47, 48, 49, 50, 51] := by
  unfold commitDeadline
  repeat' first
    | with_reducible refine M.In.bind ?_ fun _ => ?_
    | with_reducible refine M.In.ite ?_ ?_
    | with_reducible exact M.In.pure _
    | with_reducible exact M.In.getS
    | (with_reducible refine (foot_updTb ..).mono ?_) <;> decide
    | (with_reducible refine (foot_setProvisional ..).mono ?_) <;> decide
    | (with_reducible refine (foot_resolveTrg ..).mono ?_) <;> decide
    | (with_reducible refine (foot_cancelTriggers ..).mono ?_) <;> decide
    | (with_reducible refine (foot_discardShadows ..).mono ?_) <;> decide
    | (with_reducible refine (foot_occur ..).mono ?_) <;> decide
    | (with_reducible refine (foot_discardEval ..).mono ?_) <;> decide
    | (with_reducible refine M.In.inc 3 _ ?_ ?_) <;> first | decide | exact PLS.GRP_STAT_page _
    | (with_reducible refine M.In.hidAt fun x k hk => ?_) <;> (unfold SameHid; split <;> first | rfl | exact absurd (by decide) hk)
    | with_reducible refine M.In.forM (fun _ => ?_) _
    | with_reducible refine M.In.optForM (fun _ => ?_) _
    | split
    | dsimp only

theorem foot_takeTaps (c : Nat) : (takeTaps c).In [44] := by
  unfold takeTaps
  repeat' first
    | with_reducible refine M.In.bind ?_ fun _ => ?_
    | with_reducible exact M.In.pure _
    | with_reducible exact M.In.getS
    | (with_reducible refine (foot_updChan ..).mono ?_) <;> decide
    | dsimp only

theorem foot_handLeft : (handLeft).In [1, 2, 20, 33, 43, 45, 47] := by
  unfold handLeft
  repeat' first
    | with_reducible refine M.In.bind ?_ fun _ => ?_
    | with_reducible refine M.In.ite ?_ ?_
    | with_reducible exact M.In.pure _
    | with_reducible exact M.In.getS
    | (with_reducible refine (foot_complete ..).mono ?_) <;> decide
    | (with_reducible refine M.In.wf 2 _ _ ?_ ?_) <;> first | decide
    | (refine M.In.hid_trp _ ?_; decide)
    | (with_reducible refine M.In.hidAt fun x k hk => ?_) <;> (unfold SameHid; split <;> first | rfl | exact absurd (by decide) hk)
    | split
    | dsimp only

theorem foot_copyWords (a b : Nat) : (copyWords a b).In [3, 44] := by
  unfold copyWords
  repeat' first
    | with_reducible refine M.In.bind ?_ fun _ => ?_
    | with_reducible exact M.In.pure _
    | with_reducible exact M.In.getS
    | (with_reducible refine (foot_updChan ..).mono ?_) <;> decide
    | (with_reducible refine M.In.wr 3 _ _ ?_ ?_) <;> first | decide | exact PLS.FALL_page _ | exact PLS.FALL_ACT_page _ | exact PLS.RISE_page _ | exact PLS.RISE_ACT_page _
    | dsimp only

theorem foot_useSpare (spare unit : Nat) (ball : Bool) : (useSpare spare unit ball).In [45] := by
  unfold useSpare
  repeat' first
    | with_reducible refine M.In.bind ?_ fun _ => ?_
    | with_reducible exact M.In.pure _
    | (refine M.In.hid_trp _ ?_; decide)
    | (with_reducible refine M.In.hidAt fun x k hk => ?_) <;> (unfold SameHid; split <;> first | rfl | exact absurd (by decide) hk)
    | dsimp only

theorem foot_handReload (t : Nat) : (handReload t).In [1, 2, 3, 20, 32, 33, 43, 44, 45, 47] := by
  unfold handReload
  repeat' first
    | with_reducible refine M.In.bind ?_ fun _ => ?_
    | with_reducible refine M.In.ite ?_ ?_
    | with_reducible exact M.In.pure _
    | with_reducible exact M.In.getS
    | (with_reducible refine (foot_complete ..).mono ?_) <;> decide
    | (with_reducible refine (foot_showSpares ..).mono ?_) <;> decide
    | (with_reducible refine (foot_takeTaps ..).mono ?_) <;> decide
    | (with_reducible refine (foot_handLeft ..).mono ?_) <;> decide
    | (with_reducible refine (foot_copyWords ..).mono ?_) <;> decide
    | (with_reducible refine (foot_useSpare ..).mono ?_) <;> decide
    | (with_reducible refine M.In.wf 2 _ _ ?_ ?_) <;> first | decide
    | (with_reducible refine M.In.wtab _ _ _ ?_) <;> decide
    | (refine M.In.hid_trp _ ?_; decide)
    | split
    | dsimp only

theorem foot_reloadWords (c : Nat) (keep : Bool) : (reloadWords c keep).In [3, 44] := by
  unfold reloadWords
  repeat' first
    | with_reducible refine M.In.bind ?_ fun _ => ?_
    | with_reducible refine M.In.ite ?_ ?_
    | with_reducible exact M.In.pure _
    | with_reducible exact M.In.getS
    | (with_reducible refine (foot_updChan ..).mono ?_) <;> decide
    | (with_reducible refine (foot_takeTaps ..).mono ?_) <;> decide
    | (with_reducible refine M.In.wr 3 _ _ ?_ ?_) <;> first | decide | exact PLS.FALL_ACT_page _ | exact PLS.RISE_ACT_page _
    | split
    | dsimp only

theorem foot_reloadTo (t : Nat) (toB : Bool) : (reloadTo t toB).In [1, 2, 3, 7, 9, 20, 32, 33, 43, 44, 45, 47] := by
  unfold reloadTo
  repeat' first
    | with_reducible refine M.In.bind ?_ fun _ => ?_
    | with_reducible refine M.In.ite ?_ ?_
    | with_reducible exact M.In.pure _
    | with_reducible exact M.In.getS
    | (with_reducible refine (foot_updChan ..).mono ?_) <;> decide
    | (with_reducible refine (foot_updTb ..).mono ?_) <;> decide
    | (with_reducible refine (foot_updTrg ..).mono ?_) <;> decide
    | (with_reducible refine (foot_setGState ..).mono ?_) <;> decide
    | (with_reducible refine (foot_setLoad ..).mono ?_) <;> decide
    | (with_reducible refine (foot_startShots ..).mono ?_) <;> decide
    | (with_reducible refine (foot_handReload ..).mono ?_) <;> decide
    | (with_reducible refine (foot_reloadWords ..).mono ?_) <;> decide
    | (with_reducible refine M.In.wf 3 _ _ ?_ ?_) <;> first | decide | exact PLS.GRP_STAT_page _ | exact PLS.TB_CFG_page _ | exact PLS.TB_COUNT_page _
    | (with_reducible refine M.In.incWrap 3 _ ?_ ?_) <;> first | decide | exact PLS.GRP_STAT_page _ | exact PLS.TB_CFG_page _ | exact PLS.TB_COUNT_page _
    | (refine M.In.hid_pls _ ?_; decide)
    | with_reducible refine M.In.forM (fun _ => ?_) _
    | with_reducible refine M.In.optForM (fun _ => ?_) _
    | split
    | dsimp only

theorem foot_reload (t : Nat) : (reload t).In [0, 1, 2, 3, 4, 5, 6, 7, 9, 12, 16, 17, 20, 32, 33, 35, 43, 44, 45, 46, 47, 48, 49, 50] := by
  unfold reload
  repeat' first
    | with_reducible refine M.In.bind ?_ fun _ => ?_
    | with_reducible refine M.In.ite ?_ ?_
    | with_reducible exact M.In.pure _
    | with_reducible exact M.In.getS
    | (with_reducible refine (foot_endPeriod ..).mono ?_) <;> decide
    | (with_reducible refine (foot_reloadTo ..).mono ?_) <;> decide
    | with_reducible refine M.In.forM (fun _ => ?_) _
    | with_reducible refine M.In.optForM (fun _ => ?_) _
    | split
    | dsimp only

theorem foot_restartCut (t pos : Nat) : (restartCut t pos).In [0, 1, 2, 3, 4, 5, 6, 7, 9, 12, 16, 17, 20, 32, 33, 35, 43, 44, 45, 46, 47, 48, 49, 50] := by
  unfold restartCut
  repeat' first
    | with_reducible refine M.In.bind ?_ fun _ => ?_
    | with_reducible refine M.In.ite ?_ ?_
    | with_reducible exact M.In.pure _
    | with_reducible exact M.In.getS
    | (with_reducible refine (foot_endPeriod ..).mono ?_) <;> decide
    | (with_reducible refine (foot_reloadTo ..).mono ?_) <;> decide
    | (with_reducible refine M.In.inc 3 _ ?_ ?_) <;> first | decide | exact PLS.TB_COUNT_page _
    | split
    | dsimp only

theorem foot_delayCalibration (b e : Nat) : (delayCalibration b e).In [0, 1, 3, 4, 5, 6, 9, 12, 16, 17, 20, 33, 35, 43, 44, 45, 46, 47, 48, 49, 50] := by
  unfold delayCalibration
  repeat' first
    | with_reducible refine M.In.bind ?_ fun _ => ?_
    | with_reducible refine M.In.ite ?_ ?_
    | with_reducible exact M.In.pure _
    | with_reducible exact M.In.getS
    | (with_reducible refine (foot_occurrence ..).mono ?_) <;> decide
    | (with_reducible refine M.In.wf 3 _ _ ?_ ?_) <;> first | decide | exact PLS.CAL_page _
    | (with_reducible refine M.In.inc 3 _ ?_ ?_) <;> first | decide | exact PLS.CAL_page _
    | (refine M.In.hid_pls _ ?_; decide)
    | split
    | dsimp only

theorem foot_ownersSafe (gs : List Nat) (detail : Nat) : (ownersSafe gs detail).In [0, 1, 3, 4, 5, 6, 9, 12, 16, 17, 20, 33, 35, 43, 44, 45, 46, 47, 48, 49, 50] := by
  unfold ownersSafe
  repeat' first
    | with_reducible refine M.In.bind ?_ fun _ => ?_
    | with_reducible refine M.In.ite ?_ ?_
    | with_reducible exact M.In.pure _
    | with_reducible exact M.In.getS
    | (with_reducible refine (foot_applyPattern ..).mono ?_) <;> decide
    | (with_reducible refine (foot_occur ..).mono ?_) <;> decide
    | (refine M.In.hid_pls _ ?_; decide)
    | with_reducible refine M.In.forM (fun _ => ?_) _
    | with_reducible refine M.In.optForM (fun _ => ?_) _
    | split
    | dsimp only

theorem foot_delayRegMismatch (r : DelayReg) : (delayRegMismatch r).In [0, 1, 3, 4, 5, 6, 9, 12, 16, 17, 20, 33, 35, 43, 44, 45, 46, 47, 48, 49, 50] := by
  unfold delayRegMismatch
  repeat' first
    | with_reducible refine M.In.bind ?_ fun _ => ?_
    | with_reducible exact M.In.pure _
    | with_reducible exact M.In.getS
    | (with_reducible refine (foot_ownersSafe ..).mono ?_) <;> decide
    | (with_reducible refine M.In.wf 3 _ _ ?_ ?_) <;> first | decide
    | (with_reducible refine M.In.inc 3 _ ?_ ?_) <;> first | decide
    | split
    | dsimp only

theorem foot_updCell (c : Nat) (f : Cell → Cell) : (updCell c f).In [45] := by
  unfold updCell
  repeat' first
    | with_reducible refine M.In.bind ?_ fun _ => ?_
    | with_reducible exact M.In.pure _
    | (refine M.In.hid_trp _ ?_; decide)
    | dsimp only

theorem foot_cellTrips (c : Nat) : (cellTrips c).In [0, 1, 3, 4, 5, 6, 9, 12, 20, 33, 43, 44, 45, 47, 48, 50] := by
  unfold cellTrips
  repeat' first
    | with_reducible refine M.In.bind ?_ fun _ => ?_
    | with_reducible exact M.In.pure _
    | with_reducible exact M.In.getS
    | (with_reducible refine (foot_tripAct ..).mono ?_) <;> decide
    | with_reducible refine M.In.forM (fun _ => ?_) _
    | with_reducible refine M.In.optForM (fun _ => ?_) _
    | dsimp only

theorem foot_cellActs (c : Nat) : (cellActs c).In [0, 1, 3, 4, 5, 6, 9, 12, 20, 33, 43, 44, 45, 47, 48, 50] := by
  unfold cellActs
  repeat' first
    | with_reducible refine M.In.bind ?_ fun _ => ?_
    | with_reducible refine M.In.ite ?_ ?_
    | with_reducible exact M.In.pure _
    | with_reducible exact M.In.getS
    | (with_reducible refine (foot_updCell ..).mono ?_) <;> decide
    | (with_reducible refine (foot_cellTrips ..).mono ?_) <;> decide
    | (with_reducible refine M.In.inc 4 _ ?_ ?_) <;> first | decide | exact TRP.CELL_STAT_page _
    | split
    | dsimp only

theorem foot_cellUpdate (c : Nat) : (cellUpdate c).In [0, 1, 3, 4, 5, 6, 9, 12, 20, 33, 43, 44, 45, 47, 48, 50] := by
  unfold cellUpdate
  repeat' first
    | with_reducible refine M.In.bind ?_ fun _ => ?_
    | with_reducible refine M.In.ite ?_ ?_
    | with_reducible exact M.In.pure _
    | with_reducible exact M.In.getS
    | (with_reducible refine (foot_updCell ..).mono ?_) <;> decide
    | (with_reducible refine (foot_cellActs ..).mono ?_) <;> decide
    | (with_reducible refine M.In.wf 4 _ _ ?_ ?_) <;> first | decide | exact TRP.CELL_STAT_page _
    | split
    | dsimp only

theorem foot_cellTrip (c : Nat) (vp vn : Int) : (cellTrip c vp vn).In [0, 1, 3, 4, 5, 6, 9, 12, 20, 33, 43, 44, 45, 47, 48, 50] := by
  unfold cellTrip
  repeat' first
    | with_reducible refine M.In.bind ?_ fun _ => ?_
    | with_reducible refine M.In.ite ?_ ?_
    | with_reducible exact M.In.pure _
    | (with_reducible refine (foot_updCell ..).mono ?_) <;> decide
    | (with_reducible refine (foot_cellUpdate ..).mono ?_) <;> decide
    | split
    | dsimp only

theorem foot_filteredTrip (c n : Nat) : (filteredTrip c n).In [0, 1, 3, 4, 5, 6, 9, 12, 20, 33, 43, 44, 45, 47, 48, 50] := by
  unfold filteredTrip
  repeat' first
    | with_reducible refine M.In.bind ?_ fun _ => ?_
    | with_reducible refine M.In.ite ?_ ?_
    | with_reducible exact M.In.pure _
    | with_reducible exact M.In.getS
    | (with_reducible refine (foot_updCell ..).mono ?_) <;> decide
    | (with_reducible refine (foot_cellTrips ..).mono ?_) <;> decide
    | split
    | dsimp only

theorem foot_cbcEarlyEnd (c time : Nat) : (cbcEarlyEnd c time).In [4, 5, 44, 45] := by
  unfold cbcEarlyEnd
  repeat' first
    | with_reducible refine M.In.bind ?_ fun _ => ?_
    | with_reducible refine M.In.ite ?_ ?_
    | with_reducible exact M.In.pure _
    | with_reducible exact M.In.getS
    | (with_reducible refine (foot_endPulse ..).mono ?_) <;> decide
    | (with_reducible refine M.In.inc 4 _ ?_ ?_) <;> first | decide | exact TRP.CELL_STAT_page _
    | (with_reducible refine M.In.hidAt fun x k hk => ?_) <;> (unfold SameHid; split <;> first | rfl | exact absurd (by decide) hk)
    | split
    | dsimp only

theorem foot_blankWindowEnd (c : Nat) : (blankWindowEnd c).In [0, 1, 3, 4, 5, 6, 9, 12, 20, 33, 43, 44, 45, 47, 48, 50] := by
  unfold blankWindowEnd
  repeat' first
    | with_reducible refine M.In.bind ?_ fun _ => ?_
    | with_reducible refine M.In.ite ?_ ?_
    | with_reducible exact M.In.pure _
    | with_reducible exact M.In.getS
    | (with_reducible refine (foot_cellActs ..).mono ?_) <;> decide
    | (with_reducible refine (foot_cbcEarlyEnd ..).mono ?_) <;> decide
    | (with_reducible refine M.In.wf 4 _ _ ?_ ?_) <;> first | decide | exact TRP.CELL_STAT_page _
    | split
    | dsimp only

theorem foot_setThreshold (c : Nat) (hi lo : Nat) : (setThreshold c hi lo).In [0, 1, 3, 4, 5, 6, 9, 12, 20, 32, 33, 43, 44, 45, 47, 48, 50] := by
  unfold setThreshold
  repeat' first
    | with_reducible refine M.In.bind ?_ fun _ => ?_
    | with_reducible exact M.In.pure _
    | (with_reducible refine (foot_cellUpdate ..).mono ?_) <;> decide
    | (with_reducible refine M.In.wf 4 _ _ ?_ ?_) <;> first | decide | exact TRP.THR_page _
    | (with_reducible refine M.In.wtab _ _ _ ?_) <;> decide
    | dsimp only

theorem foot_fltTrip (k g : Nat) : (fltTrip k g).In [0, 1, 3, 4, 5, 6, 9, 12, 16, 17, 20, 33, 35, 43, 44, 45, 46, 47, 48, 49, 50] := by
  unfold fltTrip
  repeat' first
    | with_reducible refine M.In.bind ?_ fun _ => ?_
    | with_reducible refine M.In.ite ?_ ?_
    | with_reducible exact M.In.pure _
    | with_reducible exact M.In.rf _
    | (with_reducible refine (foot_tripAct ..).mono ?_) <;> decide
    | (with_reducible refine (foot_occur ..).mono ?_) <;> decide
    | split
    | dsimp only

theorem foot_armLevels (g : Nat) : (armLevels g).In [0, 1, 3, 4, 5, 6, 9, 12, 16, 17, 20, 33, 35, 43, 44, 45, 46, 47, 48, 49, 50] := by
  unfold armLevels
  repeat' first
    | with_reducible refine M.In.bind ?_ fun _ => ?_
    | with_reducible refine M.In.ite ?_ ?_
    | with_reducible exact M.In.pure _
    | with_reducible exact M.In.getS
    | (with_reducible refine (foot_tripAct ..).mono ?_) <;> decide
    | (with_reducible refine (foot_occur ..).mono ?_) <;> decide
    | (with_reducible refine M.In.inc 5 _ ?_ ?_) <;> first | decide | exact GDR.FLT_page _ | exact TRP.CELL_STAT_page _
    | with_reducible refine M.In.forM (fun _ => ?_) _
    | with_reducible refine M.In.optForM (fun _ => ?_) _
    | split
    | dsimp only

theorem foot_updBank (b : Nat) (f : Bank → Bank) : (updBank b f).In [45] := by
  unfold updBank
  repeat' first
    | with_reducible refine M.In.bind ?_ fun _ => ?_
    | with_reducible exact M.In.pure _
    | (refine M.In.hid_trp _ ?_; decide)
    | dsimp only

theorem foot_showBank (b : Nat) : (showBank b).In [4] := by
  unfold showBank
  repeat' first
    | with_reducible refine M.In.bind ?_ fun _ => ?_
    | with_reducible refine M.In.ite ?_ ?_
    | with_reducible exact M.In.pure _
    | with_reducible exact M.In.getS
    | (with_reducible refine M.In.wf 4 _ _ ?_ ?_) <;> first | decide | exact TRP.CELL_STAT_page _
    | with_reducible refine M.In.forM (fun _ => ?_) _
    | with_reducible refine M.In.optForM (fun _ => ?_) _
    | split
    | dsimp only

theorem foot_startRotation : (startRotation).In [4, 45] := by
  unfold startRotation
  repeat' first
    | with_reducible refine M.In.bind ?_ fun _ => ?_
    | with_reducible refine M.In.ite ?_ ?_
    | with_reducible exact M.In.pure _
    | with_reducible exact M.In.getS
    | (with_reducible refine M.In.wf 4 _ _ ?_ ?_) <;> first | decide | exact TRP.BANK_STAT_page _
    | (refine M.In.hid_trp _ ?_; decide)
    | with_reducible refine M.In.forM (fun _ => ?_) _
    | with_reducible refine M.In.optForM (fun _ => ?_) _
    | split
    | dsimp only

theorem foot_degrade (b : Nat) : (degrade b).In [4] := by
  unfold degrade
  repeat' first
    | with_reducible refine M.In.bind ?_ fun _ => ?_
    | with_reducible exact M.In.pure _
    | (with_reducible refine (foot_showBank ..).mono ?_) <;> decide
    | (with_reducible refine M.In.wf 4 _ _ ?_ ?_) <;> first | decide | exact TRP.BANK_STAT_page _
    | dsimp only

theorem foot_positionFailed (b k test : Nat) : (positionFailed b k test).In [0, 1, 3, 4, 5, 6, 9, 12, 16, 17, 20, 33, 35, 43, 44, 45, 46, 47, 48, 49, 50] := by
  unfold positionFailed
  repeat' first
    | with_reducible refine M.In.bind ?_ fun _ => ?_
    | with_reducible refine M.In.ite ?_ ?_
    | with_reducible exact M.In.pure _
    | with_reducible exact M.In.getS
    | (with_reducible refine (foot_eventDev ..).mono ?_) <;> decide
    | (with_reducible refine (foot_occur ..).mono ?_) <;> decide
    | (with_reducible refine (foot_updBank ..).mono ?_) <;> decide
    | (with_reducible refine (foot_degrade ..).mono ?_) <;> decide
    | (with_reducible refine M.In.wf 4 _ _ ?_ ?_) <;> first | decide | exact TRP.BANK_STAT_page _
    | split
    | dsimp only

theorem foot_nextSlot (b : Nat) : (nextSlot b).In [4, 45] := by
  unfold nextSlot
  repeat' first
    | with_reducible refine M.In.bind ?_ fun _ => ?_
    | with_reducible refine M.In.ite ?_ ?_
    | with_reducible exact M.In.pure _
    | with_reducible exact M.In.getS
    | (with_reducible refine (foot_updBank ..).mono ?_) <;> decide
    | (with_reducible refine M.In.incWrap 4 _ ?_ ?_) <;> first | decide | exact TRP.BANK_STAT_page _
    | split
    | dsimp only

theorem foot_rotationSlot (b : Nat) (r : SlotResult) : (rotationSlot b r).In [0, 1, 3, 4, 5, 6, 9, 12, 16, 17, 20, 33, 35, 43, 44, 45, 46, 47, 48, 49, 50] := by
  unfold rotationSlot
  repeat' first
    | with_reducible refine M.In.bind ?_ fun _ => ?_
    | with_reducible refine M.In.ite ?_ ?_
    | with_reducible exact M.In.pure _
    | with_reducible exact M.In.getS
    | (with_reducible refine (foot_showBank ..).mono ?_) <;> decide
    | (with_reducible refine (foot_positionFailed ..).mono ?_) <;> decide
    | (with_reducible refine (foot_nextSlot ..).mono ?_) <;> decide
    | split
    | dsimp only

theorem foot_cmpMirror (b : Nat) (spare : CellTest) : (cmpMirror b spare).In [0, 1, 3, 4, 5, 6, 9, 12, 16, 17, 20, 33, 35, 43, 44, 45, 46, 47, 48, 49, 50] := by
  unfold cmpMirror
  repeat' first
    | with_reducible refine M.In.bind ?_ fun _ => ?_
    | with_reducible refine M.In.ite ?_ ?_
    | with_reducible exact M.In.pure _
    | with_reducible exact M.In.getS
    | (with_reducible refine (foot_occurrence ..).mono ?_) <;> decide
    | (with_reducible refine (foot_degrade ..).mono ?_) <;> decide
    | (with_reducible refine (foot_positionFailed ..).mono ?_) <;> decide
    | (with_reducible refine (foot_nextSlot ..).mono ?_) <;> decide
    | (with_reducible refine M.In.inc 4 _ ?_ ?_) <;> first | decide | exact TRP.BANK_STAT_page _
    | split
    | dsimp only

theorem foot_bankTestDone (b : Nat) (tests : List CellTest) : (bankTestDone b tests).In [0, 1, 3, 4, 5, 6, 9, 12, 16, 17, 20, 33, 35, 43, 44, 45, 46, 47, 48, 49, 50] := by
  unfold bankTestDone
  repeat' first
    | with_reducible refine M.In.bind ?_ fun _ => ?_
    | with_reducible refine M.In.ite ?_ ?_
    | with_reducible exact M.In.pure _
    | with_reducible exact M.In.getS
    | (with_reducible refine (foot_complete ..).mono ?_) <;> decide
    | (with_reducible refine (foot_updBank ..).mono ?_) <;> decide
    | (with_reducible refine (foot_positionFailed ..).mono ?_) <;> decide
    | (with_reducible refine M.In.wf 4 _ _ ?_ ?_) <;> first | decide | exact TRP.BANK_STAT_page _
    | with_reducible refine M.In.forM (fun _ => ?_) _
    | with_reducible refine M.In.optForM (fun _ => ?_) _
    | split
    | dsimp only

theorem foot_driverTestDone (g : Nat) (tests : List PairTest) : (driverTestDone g tests).In [1, 2, 5, 20, 33, 43, 47] := by
  unfold driverTestDone
  repeat' first
    | with_reducible refine M.In.bind ?_ fun _ => ?_
    | with_reducible exact M.In.pure _
    | with_reducible exact M.In.getS
    | with_reducible exact M.In.rf _
    | (with_reducible refine (foot_complete ..).mono ?_) <;> decide
    | (with_reducible refine (foot_showSpares ..).mono ?_) <;> decide
    | (with_reducible refine M.In.wf 5 _ _ ?_ ?_) <;> first | decide
    | with_reducible refine M.In.forM (fun _ => ?_) _
    | with_reducible refine M.In.optForM (fun _ => ?_) _
    | split
    | dsimp only

theorem foot_selftestDone (r : TestResult) : (selftestDone r).In [0, 1, 2, 3, 4, 5, 6, 9, 12, 16, 17, 20, 33, 35, 43, 44, 45, 46, 47, 48, 49, 50] := by
  unfold selftestDone
  repeat' first
    | with_reducible refine M.In.bind ?_ fun _ => ?_
    | with_reducible refine M.In.ite ?_ ?_
    | with_reducible exact M.In.pure _
    | with_reducible exact M.In.getS
    | (with_reducible refine (foot_bankTestDone ..).mono ?_) <;> decide
    | (with_reducible refine (foot_driverTestDone ..).mono ?_) <;> decide
    | split
    | dsimp only

theorem foot_scbMismatch (p : Nat) : (scbMismatch p).In [0, 1, 3, 4, 5, 6, 9, 12, 16, 17, 20, 33, 35, 43, 44, 45, 46, 47, 48, 49, 50] := by
  unfold scbMismatch
  repeat' first
    | with_reducible refine M.In.bind ?_ fun _ => ?_
    | with_reducible exact M.In.pure _
    | with_reducible exact M.In.getS
    | (with_reducible refine (foot_ownersSafe ..).mono ?_) <;> decide
    | (with_reducible refine M.In.wf 5 _ _ ?_ ?_) <;> first | decide
    | dsimp only

theorem foot_bootstrapRefresh (p : Nat) : (bootstrapRefresh p).In [5, 44, 45] := by
  unfold bootstrapRefresh
  repeat' first
    | with_reducible refine M.In.bind ?_ fun _ => ?_
    | with_reducible refine M.In.ite ?_ ?_
    | with_reducible exact M.In.pure _
    | with_reducible exact M.In.getS
    | (with_reducible refine (foot_updChan ..).mono ?_) <;> decide
    | (with_reducible refine M.In.incWrap 5 _ ?_ ?_) <;> first | decide | exact GDR.BST_STAT_page _ | exact GDR.DRV_CFG_page _ | exact PLS.DEADTIME_page _
    | (refine M.In.hid_trp _ ?_; decide)
    | (with_reducible refine M.In.hidAt fun x k hk => ?_) <;> (unfold SameHid; split <;> first | rfl | exact absurd (by decide) hk)
    | split
    | dsimp only

theorem foot_bstComparator (p : Nat) (ok : Bool) : (bstComparator p ok).In [0, 1, 3, 4, 5, 6, 9, 12, 16, 17, 20, 33, 35, 43, 44, 45, 46, 47, 48, 49, 50] := by
  unfold bstComparator
  repeat' first
    | with_reducible refine M.In.bind ?_ fun _ => ?_
    | with_reducible refine M.In.ite ?_ ?_
    | with_reducible exact M.In.pure _
    | with_reducible exact M.In.getS
    | (with_reducible refine (foot_bootUv ..).mono ?_) <;> decide
    | (with_reducible refine M.In.wf 5 _ _ ?_ ?_) <;> first | decide | exact GDR.BST_STAT_page _ | exact GDR.DRV_CFG_page _
    | split
    | dsimp only

theorem foot_drvShort (p mv time : Nat) : (drvShort p mv time).In [0, 1, 3, 4, 5, 6, 9, 12, 16, 17, 20, 33, 35, 43, 44, 45, 46, 47, 48, 49, 50] := by
  unfold drvShort
  repeat' first
    | with_reducible refine M.In.bind ?_ fun _ => ?_
    | with_reducible refine M.In.ite ?_ ?_
    | with_reducible exact M.In.pure _
    | with_reducible exact M.In.getS
    | (with_reducible refine (foot_tripAct ..).mono ?_) <;> decide
    | (with_reducible refine (foot_occur ..).mono ?_) <;> decide
    | (with_reducible refine M.In.wf 5 _ _ ?_ ?_) <;> first | decide | exact GDR.DRV_CFG_page _ | exact GDR.SC_STAT_page _
    | (with_reducible refine M.In.inc 5 _ ?_ ?_) <;> first | decide | exact GDR.DRV_CFG_page _ | exact GDR.SC_STAT_page _
    | (refine M.In.hid_trp _ ?_; decide)
    | split
    | dsimp only

theorem foot_extDrvFault (k : Nat) : (extDrvFault k).In [0, 1, 3, 4, 5, 6, 9, 12, 16, 17, 20, 33, 35, 43, 44, 45, 46, 47, 48, 49, 50] := by
  unfold extDrvFault
  repeat' first
    | with_reducible refine M.In.bind ?_ fun _ => ?_
    | with_reducible refine M.In.ite ?_ ?_
    | with_reducible exact M.In.pure _
    | with_reducible exact M.In.getS
    | (with_reducible refine (foot_fltTrip ..).mono ?_) <;> decide
    | (with_reducible refine M.In.wf 5 _ _ ?_ ?_) <;> first | decide | exact GDR.FLT_page _
    | (with_reducible refine M.In.inc 5 _ ?_ ?_) <;> first | decide | exact GDR.FLT_page _
    | with_reducible refine M.In.forM (fun _ => ?_) _
    | with_reducible refine M.In.optForM (fun _ => ?_) _
    | split
    | dsimp only

theorem foot_fltRelease (k : Nat) : (fltRelease k).In [5] := by
  unfold fltRelease
  repeat' first
    | with_reducible refine M.In.bind ?_ fun _ => ?_
    | with_reducible exact M.In.pure _
    | (with_reducible refine M.In.wf 5 _ _ ?_ ?_) <;> first | decide | exact GDR.FLT_page _
    | dsimp only

theorem foot_drvReady (r : Nat) (asserted : Bool) : (drvReady r asserted).In [0, 1, 3, 4, 5, 6, 9, 12, 16, 17, 20, 33, 35, 43, 44, 45, 46, 47, 48, 49, 50] := by
  unfold drvReady
  repeat' first
    | with_reducible refine M.In.bind ?_ fun _ => ?_
    | with_reducible refine M.In.ite ?_ ?_
    | with_reducible exact M.In.pure _
    | with_reducible exact M.In.getS
    | (with_reducible refine (foot_tripAct ..).mono ?_) <;> decide
    | (with_reducible refine (foot_occur ..).mono ?_) <;> decide
    | (with_reducible refine M.In.wf 5 _ _ ?_ ?_) <;> first | decide | exact GDR.RDY_CFG_page _
    | (with_reducible refine M.In.inc 5 _ ?_ ?_) <;> first | decide | exact GDR.RDY_CFG_page _
    | split
    | dsimp only

theorem foot_ilkDiagFail (i : Nat) : (ilkDiagFail i).In [0, 1, 3, 4, 5, 6, 9, 12, 16, 17, 20, 33, 35, 43, 44, 45, 46, 47, 48, 49, 50] := by
  unfold ilkDiagFail
  repeat' first
    | with_reducible refine M.In.bind ?_ fun _ => ?_
    | with_reducible refine M.In.ite ?_ ?_
    | with_reducible exact M.In.pure _
    | with_reducible exact M.In.getS
    | (with_reducible refine (foot_forceAct ..).mono ?_) <;> decide
    | (with_reducible refine (foot_occur ..).mono ?_) <;> decide
    | (with_reducible refine M.In.wf 5 _ _ ?_ ?_) <;> first | decide | exact MAP.ILK_page _ _
    | with_reducible refine M.In.forM (fun _ => ?_) _
    | with_reducible refine M.In.optForM (fun _ => ?_) _
    | split
    | dsimp only

theorem foot_vdrvUv : (vdrvUv).In [0, 1, 3, 4, 5, 6, 9, 12, 16, 17, 20, 33, 35, 43, 44, 45, 46, 47, 48, 49, 50] := by
  unfold vdrvUv
  repeat' first
    | with_reducible refine M.In.bind ?_ fun _ => ?_
    | with_reducible refine M.In.ite ?_ ?_
    | with_reducible exact M.In.pure _
    | with_reducible exact M.In.getS
    | (with_reducible refine (foot_updChan ..).mono ?_) <;> decide
    | (with_reducible refine (foot_cellOff ..).mono ?_) <;> decide
    | (with_reducible refine (foot_tripAct ..).mono ?_) <;> decide
    | (with_reducible refine (foot_occur ..).mono ?_) <;> decide
    | (with_reducible refine M.In.wf 5 _ _ ?_ ?_) <;> first | decide
    | (with_reducible refine M.In.inc 5 _ ?_ ?_) <;> first | decide
    | with_reducible refine M.In.forM (fun _ => ?_) _
    | with_reducible refine M.In.optForM (fun _ => ?_) _
    | split
    | dsimp only

theorem foot_vdrvRecover : (vdrvRecover).In [5] := by
  unfold vdrvRecover
  repeat' first
    | with_reducible refine M.In.bind ?_ fun _ => ?_
    | with_reducible exact M.In.pure _
    | (with_reducible refine M.In.wf 5 _ _ ?_ ?_) <;> first | decide
    | dsimp only

theorem foot_updMea (f : MeaSt → MeaSt) : (updMea f).In [50] := by
  unfold updMea
  repeat' first
    | with_reducible refine M.In.bind ?_ fun _ => ?_
    | with_reducible exact M.In.pure _
    | (refine M.In.hid_mea _ ?_; decide)
    | dsimp only

theorem foot_sarSpareEvent (k kind a b : Nat) : (sarSpareEvent k kind a b).In [1, 20, 33, 43, 47] := by
  unfold sarSpareEvent
  repeat' first
    | with_reducible refine M.In.bind ?_ fun _ => ?_
    | with_reducible exact M.In.pure _
    | (with_reducible refine (foot_eventDev ..).mono ?_) <;> decide
    | dsimp only

theorem foot_serveBySpare (k : Nat) : (serveBySpare k).In [6] := by
  unfold serveBySpare
  repeat' first
    | with_reducible refine M.In.bind ?_ fun _ => ?_
    | with_reducible exact M.In.pure _
    | (with_reducible refine M.In.wf 6 _ _ ?_ ?_) <;> first | decide | exact MEA.CONV_STAT_page _
    | dsimp only

theorem foot_restoreConv : (restoreConv).In [6] := by
  unfold restoreConv
  repeat' first
    | with_reducible refine M.In.bind ?_ fun _ => ?_
    | with_reducible exact M.In.pure _
    | with_reducible exact M.In.getS
    | (with_reducible refine (foot_serveBySpare ..).mono ?_) <;> decide
    | (with_reducible refine M.In.hidAt fun x k hk => ?_) <;> (unfold SameHid; split <;> first | rfl | exact absurd (by decide) hk)
    | split
    | dsimp only

theorem foot_changeServer (k : Nat) : (changeServer k).In [1, 6, 20, 33, 43, 47, 50] := by
  unfold changeServer
  repeat' first
    | with_reducible refine M.In.bind ?_ fun _ => ?_
    | with_reducible refine M.In.ite ?_ ?_
    | with_reducible exact M.In.pure _
    | with_reducible exact M.In.getS
    | (with_reducible refine (foot_complete ..).mono ?_) <;> decide
    | (with_reducible refine (foot_updMea ..).mono ?_) <;> decide
    | (with_reducible refine (foot_sarSpareEvent ..).mono ?_) <;> decide
    | (with_reducible refine (foot_serveBySpare ..).mono ?_) <;> decide
    | (with_reducible refine M.In.wf 6 _ _ ?_ ?_) <;> first | decide | exact MEA.CONV_STAT_page _
    | (with_reducible refine M.In.hidAt fun x k hk => ?_) <;> (unfold SameHid; split <;> first | rfl | exact absurd (by decide) hk)
    | split
    | dsimp only

theorem foot_sarTrigger (k m : Nat) : (sarTrigger k m).In [0, 1, 3, 4, 5, 6, 9, 12, 16, 17, 20, 33, 35, 43, 44, 45, 46, 47, 48, 49, 50] := by
  unfold sarTrigger
  repeat' first
    | with_reducible refine M.In.bind ?_ fun _ => ?_
    | with_reducible refine M.In.ite ?_ ?_
    | with_reducible exact M.In.pure _
    | with_reducible exact M.In.getS
    | (with_reducible refine (foot_occur ..).mono ?_) <;> decide
    | (with_reducible refine (foot_updMea ..).mono ?_) <;> decide
    | (with_reducible refine (foot_changeServer ..).mono ?_) <;> decide
    | (with_reducible refine M.In.wf 6 _ _ ?_ ?_) <;> first | decide | exact MEA.BIND_page _ _ | exact MEA.CONV_STAT_page _
    | (with_reducible refine M.In.inc 6 _ ?_ ?_) <;> first | decide | exact MEA.BIND_page _ _ | exact MEA.CONV_STAT_page _
    | (with_reducible refine M.In.incWrap 6 _ ?_ ?_) <;> first | decide | exact MEA.BIND_page _ _ | exact MEA.CONV_STAT_page _
    | split
    | dsimp only

theorem foot_sa8Failed (k a b : Nat) : (sa8Failed k a b).In [0, 1, 3, 4, 5, 6, 9, 12, 16, 17, 20, 33, 35, 43, 44, 45, 46, 47, 48, 49, 50] := by
  unfold sa8Failed
  repeat' first
    | with_reducible refine M.In.bind ?_ fun _ => ?_
    | with_reducible exact M.In.pure _
    | (with_reducible refine (foot_occur ..).mono ?_) <;> decide
    | (with_reducible refine (foot_sarSpareEvent ..).mono ?_) <;> decide
    | (with_reducible refine M.In.wf 6 _ _ ?_ ?_) <;> first | decide
    | dsimp only

theorem foot_sa8Replace (k a b : Nat) : (sa8Replace k a b).In [6, 45, 50] := by
  unfold sa8Replace
  repeat' first
    | with_reducible refine M.In.bind ?_ fun _ => ?_
    | with_reducible refine M.In.ite ?_ ?_
    | with_reducible exact M.In.pure _
    | (with_reducible refine (foot_updMea ..).mono ?_) <;> decide
    | (with_reducible refine M.In.wf 6 _ _ ?_ ?_) <;> first | decide
    | (refine M.In.hid_trp _ ?_; decide)
    | split
    | dsimp only

theorem foot_converterFailed (k a b : Nat) : (converterFailed k a b).In [0, 1, 3, 4, 5, 6, 9, 12, 16, 20, 33, 43, 44, 45, 47, 48, 50] := by
  unfold converterFailed
  repeat' first
    | with_reducible refine M.In.bind ?_ fun _ => ?_
    | with_reducible refine M.In.ite ?_ ?_
    | with_reducible exact M.In.pure _
    | with_reducible exact M.In.getS
    | (with_reducible refine (foot_forceAct ..).mono ?_) <;> decide
    | (with_reducible refine (foot_sa8Replace ..).mono ?_) <;> decide
    | (with_reducible refine M.In.wf 6 _ _ ?_ ?_) <;> first | decide | exact MEA.CONV_STAT_page _
    | with_reducible refine M.In.forM (fun _ => ?_) _
    | with_reducible refine M.In.optForM (fun _ => ?_) _
    | split
    | dsimp only

theorem foot_conversionResult (k : Nat) (x : Conversion) : (conversionResult k x).In [0, 1, 3, 4, 5, 6, 9, 12, 16, 17, 20, 33, 35, 43, 44, 45, 46, 47, 48, 49, 50] := by
  unfold conversionResult
  repeat' first
    | with_reducible refine M.In.bind ?_ fun _ => ?_
    | with_reducible refine M.In.ite ?_ ?_
    | with_reducible exact M.In.pure _
    | with_reducible exact M.In.getS
    | (with_reducible refine (foot_deliver ..).mono ?_) <;> decide
    | (with_reducible refine (foot_occurrence ..).mono ?_) <;> decide
    | (with_reducible refine (foot_updMea ..).mono ?_) <;> decide
    | (with_reducible refine (foot_sarSpareEvent ..).mono ?_) <;> decide
    | (with_reducible refine (foot_sa8Failed ..).mono ?_) <;> decide
    | (with_reducible refine (foot_converterFailed ..).mono ?_) <;> decide
    | (with_reducible refine M.In.wf 6 _ _ ?_ ?_) <;> first | decide | exact MEA.CONV_STAT_page _
    | (with_reducible refine M.In.inc 6 _ ?_ ?_) <;> first | decide | exact MEA.CONV_STAT_page _
    | (with_reducible refine M.In.hidAt fun x k hk => ?_) <;> (unfold SameHid; split <;> first | rfl | exact absurd (by decide) hk)
    | split
    | dsimp only

theorem foot_sarCheckSlot (codes : List Nat) : (sarCheckSlot codes).In [0, 1, 3, 4, 5, 6, 9, 12, 16, 17, 20, 33, 35, 42, 43, 44, 45, 46, 47, 48, 49, 50] := by
  unfold sarCheckSlot
  repeat' first
    | with_reducible refine M.In.bind ?_ fun _ => ?_
    | with_reducible refine M.In.ite ?_ ?_
    | with_reducible exact M.In.pure _
    | with_reducible exact M.In.getS
    | (with_reducible refine (foot_updMea ..).mono ?_) <;> decide
    | (with_reducible refine (foot_sa8Failed ..).mono ?_) <;> decide
    | (with_reducible refine M.In.wf 6 _ _ ?_ ?_) <;> first | decide
    | (with_reducible refine M.In.incWrap 6 _ ?_ ?_) <;> first | decide
    | (with_reducible refine M.In.fresh ?_) <;> decide
    | (with_reducible refine M.In.freshBytes _ ?_) <;> decide
    | (with_reducible refine M.In.freshRats _ ?_) <;> decide
    | (with_reducible refine M.In.hidAt fun x k hk => ?_) <;> (unfold SameHid; split <;> first | rfl | exact absurd (by decide) hk)
    | split
    | dsimp only

theorem foot_refSettle (r : Nat) : (refSettle r).In [6] := by
  unfold refSettle
  repeat' first
    | with_reducible refine M.In.bind ?_ fun _ => ?_
    | with_reducible refine M.In.ite ?_ ?_
    | with_reducible exact M.In.pure _
    | with_reducible exact M.In.getS
    | (with_reducible refine M.In.wf 6 _ _ ?_ ?_) <;> first | decide
    | split
    | dsimp only

theorem foot_refFault (r : Nat) : (refFault r).In [0, 1, 3, 4, 5, 6, 9, 12, 16, 17, 20, 33, 35, 43, 44, 45, 46, 47, 48, 49, 50] := by
  unfold refFault
  repeat' first
    | with_reducible refine M.In.bind ?_ fun _ => ?_
    | with_reducible refine M.In.ite ?_ ?_
    | with_reducible exact M.In.pure _
    | with_reducible exact M.In.getS
    | (with_reducible refine (foot_deviceSafe ..).mono ?_) <;> decide
    | (with_reducible refine (foot_forceAct ..).mono ?_) <;> decide
    | (with_reducible refine (foot_occurrence ..).mono ?_) <;> decide
    | (with_reducible refine M.In.wf 6 _ _ ?_ ?_) <;> first | decide
    | with_reducible refine M.In.forM (fun _ => ?_) _
    | with_reducible refine M.In.optForM (fun _ => ?_) _
    | split
    | dsimp only

theorem foot_windowEvents : (windowEvents).In [1, 20, 33, 43, 47, 50] := by
  unfold windowEvents
  repeat' first
    | with_reducible refine M.In.bind ?_ fun _ => ?_
    | with_reducible exact M.In.pure _
    | with_reducible exact M.In.getS
    | (with_reducible refine (foot_eventDev ..).mono ?_) <;> decide
    | (with_reducible refine (foot_updMea ..).mono ?_) <;> decide
    | (with_reducible refine M.In.hidAt fun x k hk => ?_) <;> (unfold SameHid; split <;> first | rfl | exact absurd (by decide) hk)
    | with_reducible refine M.In.forM (fun _ => ?_) _
    | with_reducible refine M.In.optForM (fun _ => ?_) _
    | dsimp only

theorem foot_mainsEvent : (mainsEvent).In [1, 20, 33, 43, 47] := by
  unfold mainsEvent
  repeat' first
    | with_reducible refine M.In.bind ?_ fun _ => ?_
    | with_reducible exact M.In.pure _
    | with_reducible exact M.In.rf _
    | (with_reducible refine (foot_eventDev ..).mono ?_) <;> decide
    | dsimp only

theorem foot_mainsLoss : (mainsLoss).In [0, 1, 3, 4, 5, 6, 9, 12, 16, 17, 20, 33, 35, 43, 44, 45, 46, 47, 48, 49, 50] := by
  unfold mainsLoss
  repeat' first
    | with_reducible refine M.In.bind ?_ fun _ => ?_
    | with_reducible exact M.In.pure _
    | (with_reducible refine (foot_occur ..).mono ?_) <;> decide
    | (with_reducible refine (foot_updMea ..).mono ?_) <;> decide
    | (with_reducible refine (foot_mainsEvent ..).mono ?_) <;> decide
    | (with_reducible refine M.In.wf 6 _ _ ?_ ?_) <;> first | decide
    | (with_reducible refine M.In.inc 6 _ ?_ ?_) <;> first | decide
    | dsimp only

theorem foot_mainsPeriod (period clk : Nat) : (mainsPeriod period clk).In [0, 1, 3, 4, 5, 6, 9, 12, 16, 17, 20, 33, 35, 43, 44, 45, 46, 47, 48, 49, 50] := by
  unfold mainsPeriod
  repeat' first
    | with_reducible refine M.In.bind ?_ fun _ => ?_
    | with_reducible refine M.In.ite ?_ ?_
    | with_reducible exact M.In.pure _
    | with_reducible exact M.In.getS
    | (with_reducible refine (foot_updMea ..).mono ?_) <;> decide
    | (with_reducible refine (foot_mainsEvent ..).mono ?_) <;> decide
    | (with_reducible refine (foot_mainsLoss ..).mono ?_) <;> decide
    | (with_reducible refine M.In.wf 6 _ _ ?_ ?_) <;> first | decide
    | (with_reducible refine M.In.hidAt fun x k hk => ?_) <;> (unfold SameHid; split <;> first | rfl | exact absurd (by decide) hk)
    | split
    | dsimp only

theorem foot_mainsCrossing (low before after : Int) (n : Nat) : (mainsCrossing low before after n).In [0, 1, 3, 4, 5, 6, 9, 12, 16, 17, 20, 33, 35, 43, 44, 45, 46, 47, 48, 49, 50] := by
  unfold mainsCrossing
  repeat' first
    | with_reducible refine M.In.bind ?_ fun _ => ?_
    | with_reducible refine M.In.ite ?_ ?_
    | with_reducible exact M.In.pure _
    | with_reducible exact M.In.getS
    | (with_reducible refine (foot_updMea ..).mono ?_) <;> decide
    | (with_reducible refine (foot_mainsPeriod ..).mono ?_) <;> decide
    | (with_reducible refine M.In.hidAt fun x k hk => ?_) <;> (unfold SameHid; split <;> first | rfl | exact absurd (by decide) hk)
    | split
    | dsimp only

theorem foot_mainsTimeout : (mainsTimeout).In [0, 1, 3, 4, 5, 6, 9, 12, 16, 17, 20, 33, 35, 43, 44, 45, 46, 47, 48, 49, 50] := by
  unfold mainsTimeout
  repeat' first
    | with_reducible refine M.In.bind ?_ fun _ => ?_
    | with_reducible refine M.In.ite ?_ ?_
    | with_reducible exact M.In.pure _
    | with_reducible exact M.In.getS
    | (with_reducible refine (foot_updMea ..).mono ?_) <;> decide
    | (with_reducible refine (foot_mainsLoss ..).mono ?_) <;> decide
    | (with_reducible refine M.In.hidAt fun x k hk => ?_) <;> (unfold SameHid; split <;> first | rfl | exact absurd (by decide) hk)
    | split
    | dsimp only

theorem foot_subwindowEnd (sums : List Int) : (subwindowEnd sums).In [0, 6, 50, 57] := by
  unfold subwindowEnd
  repeat' first
    | with_reducible refine M.In.bind ?_ fun _ => ?_
    | with_reducible refine M.In.ite ?_ ?_
    | with_reducible exact M.In.pure _
    | with_reducible exact M.In.getS
    | (with_reducible refine (foot_updMea ..).mono ?_) <;> decide
    | (with_reducible refine M.In.wf 0 _ _ ?_ ?_) <;> first | decide | exact MEA.PC_CFG_page _ | exact MEA.PC_SUM_page _ | exact SYS.ISLAND_page _ | exact SYS.XFER_page _
    | (with_reducible refine M.In.wf 6 _ _ ?_ ?_) <;> first | decide | exact MEA.PC_CFG_page _ | exact MEA.PC_SUM_page _ | exact SYS.ISLAND_page _ | exact SYS.XFER_page _
    | (with_reducible refine M.In.inc 0 _ ?_ ?_) <;> first | decide | exact MEA.PC_CFG_page _ | exact MEA.PC_SUM_page _ | exact SYS.ISLAND_page _ | exact SYS.XFER_page _
    | (with_reducible refine M.In.inc 6 _ ?_ ?_) <;> first | decide | exact MEA.PC_CFG_page _ | exact MEA.PC_SUM_page _ | exact SYS.ISLAND_page _ | exact SYS.XFER_page _
    | (refine M.In.hid_mtr _ ?_; decide)
    | with_reducible refine M.In.forM (fun _ => ?_) _
    | with_reducible refine M.In.optForM (fun _ => ?_) _
    | split
    | dsimp only

end Sys2Proof.Machine
end

