-- ==== Sys2Proof/Laws/FootLoops.lean ====
section
/-! SUPPORT. Footprints of the Lattice, position, field engines, DC link and actuators: the places (Laws/Frame.lean) that each
operation may change. -/

set_option linter.all false

namespace Sys2Proof.Machine

theorem foot_storeCell (c : Nat) (o : CellOut) (i : Int) (sats : Nat) (loser fed : Bool) : (storeCell c o i sats loser fed).In [1, 7, 20, 33, 43, 47, 51] := by
  unfold storeCell
  repeat' first
    | with_reducible refine M.In.bind ?_ fun _ => ?_
    | with_reducible refine M.In.ite ?_ ?_
    | with_reducible exact M.In.pure _
    | with_reducible exact M.In.getS
    | (with_reducible refine (foot_eventDev ..).mono ?_) <;> decide
    | (with_reducible refine (foot_updLc ..).mono ?_) <;> decide
    | (with_reducible refine M.In.wf 7 _ _ ?_ ?_) <;> first | decide | exact LAT.CELL_STAT_page _ | exact LAT.OUT_page _ | exact LAT.RAMPED_page _
    | (with_reducible refine M.In.wr 7 _ _ ?_ ?_) <;> first | decide | exact LAT.CELL_STAT_page _ | exact LAT.OUT_page _ | exact LAT.RAMPED_page _
    | (with_reducible refine M.In.inc 7 _ ?_ ?_) <;> first | decide | exact LAT.CELL_STAT_page _ | exact LAT.OUT_page _ | exact LAT.RAMPED_page _
    | (with_reducible refine M.In.incBy 7 _ _ ?_ ?_) <;> first | decide | exact LAT.CELL_STAT_page _ | exact LAT.OUT_page _ | exact LAT.RAMPED_page _
    | split
    | dsimp only

theorem foot_resolveGroup (n c : Nat) (outs : List (Nat × CellOut)) : (resolveGroup n c outs).In [1, 7, 20, 33, 43, 47, 51] := by
  unfold resolveGroup
  repeat' first
    | with_reducible refine M.In.bind ?_ fun _ => ?_
    | with_reducible refine M.In.ite ?_ ?_
    | with_reducible exact M.In.pure _
    | with_reducible exact M.In.getS
    | (with_reducible refine (foot_storeCell ..).mono ?_) <;> decide
    | (with_reducible refine M.In.wf 7 _ _ ?_ ?_) <;> first | decide | exact LAT.MS_STAT_page _
    | (with_reducible refine M.In.incWrap 7 _ ?_ ?_) <;> first | decide | exact LAT.MS_STAT_page _
    | with_reducible refine M.In.forM (fun _ => ?_) _
    | with_reducible refine M.In.optForM (fun _ => ?_) _
    | split
    | dsimp only

theorem foot_evalCells (n : Nat) (inputs : List (Nat × Option Nat)) : (evalCells n inputs).In [1, 7, 20, 33, 43, 47, 51] := by
  unfold evalCells
  repeat' first
    | with_reducible refine M.In.bind ?_ fun _ => ?_
    | with_reducible refine M.In.ite ?_ ?_
    | with_reducible exact M.In.pure _
    | with_reducible exact M.In.getS
    | (with_reducible refine (foot_resolveGroup ..).mono ?_) <;> decide
    | with_reducible refine M.In.foldlM (fun _ _ => ?_) _ _
    | split
    | dsimp only

theorem foot_postEdge (c : Nat) (fall : Bool) (w : Nat) : (postEdge c fall w).In [0, 3, 6, 44, 50] := by
  unfold postEdge
  repeat' first
    | with_reducible refine M.In.bind ?_ fun _ => ?_
    | with_reducible refine M.In.ite ?_ ?_
    | with_reducible exact M.In.pure _
    | (with_reducible refine (foot_post ..).mono ?_) <;> decide
    | split
    | dsimp only

theorem foot_postTemplates (g : Nat) (outs : List (Nat × Int)) : (postTemplates g outs).In [0, 3, 6, 44, 50] := by
  unfold postTemplates
  repeat' first
    | with_reducible refine M.In.bind ?_ fun _ => ?_
    | with_reducible refine M.In.ite ?_ ?_
    | with_reducible exact M.In.pure _
    | with_reducible exact M.In.getS
    | (with_reducible refine (foot_meetStrobe ..).mono ?_) <;> decide
    | (with_reducible refine (foot_postEdge ..).mono ?_) <;> decide
    | (with_reducible refine M.In.wf 3 _ _ ?_ ?_) <;> first | decide | exact LAT.TPL_CTL_page _ | exact PLS.TB_PERIOD_page _
    | (with_reducible refine M.In.inc 3 _ ?_ ?_) <;> first | decide | exact LAT.TPL_CTL_page _ | exact PLS.TB_PERIOD_page _
    | with_reducible refine M.In.forM (fun _ => ?_) _
    | with_reducible refine M.In.optForM (fun _ => ?_) _
    | split
    | dsimp only

theorem foot_sendToken (n g : Nat) : (sendToken n g).In [0, 3, 6, 44, 50, 51] := by
  unfold sendToken
  repeat' first
    | with_reducible refine M.In.bind ?_ fun _ => ?_
    | with_reducible refine M.In.ite ?_ ?_
    | with_reducible exact M.In.pure _
    | (with_reducible refine (foot_updRg ..).mono ?_) <;> decide
    | (with_reducible refine (foot_restoreCells ..).mono ?_) <;> decide
    | (with_reducible refine (foot_loopCommit ..).mono ?_) <;> decide
    | split
    | dsimp only

theorem foot_beginEval (n : Nat) : (beginEval n).In [7, 51] := by
  unfold beginEval
  repeat' first
    | with_reducible refine M.In.bind ?_ fun _ => ?_
    | with_reducible refine M.In.ite ?_ ?_
    | with_reducible exact M.In.pure _
    | with_reducible exact M.In.getS
    | (with_reducible refine (foot_updRg ..).mono ?_) <;> decide
    | (with_reducible refine (foot_restoreCells ..).mono ?_) <;> decide
    | (with_reducible refine M.In.incWrap 7 _ ?_ ?_) <;> first | decide | exact LAT.RG_CFG_page _ | exact LAT.RG_STAT_page _
    | (with_reducible refine M.In.hidAt fun x k hk => ?_) <;> (unfold SameHid; split <;> first | rfl | exact absurd (by decide) hk)
    | split
    | dsimp only

theorem foot_endEval (n g : Nat) : (endEval n g).In [0, 1, 3, 4, 5, 6, 9, 12, 16, 17, 20, 33, 35, 43, 44, 45, 46, 47, 48, 49, 50, 51] := by
  unfold endEval
  repeat' first
    | with_reducible refine M.In.bind ?_ fun _ => ?_
    | with_reducible refine M.In.ite ?_ ?_
    | with_reducible exact M.In.pure _
    | with_reducible exact M.In.getS
    | (with_reducible refine (foot_occur ..).mono ?_) <;> decide
    | (with_reducible refine (foot_sendToken ..).mono ?_) <;> decide
    | split
    | dsimp only

theorem foot_commitStrobe (n : Nat) : (commitStrobe n).In [0, 3, 6, 44, 50, 51] := by
  unfold commitStrobe
  repeat' first
    | with_reducible refine M.In.bind ?_ fun _ => ?_
    | with_reducible refine M.In.ite ?_ ?_
    | with_reducible exact M.In.pure _
    | with_reducible exact M.In.getS
    | (with_reducible refine (foot_restoreCells ..).mono ?_) <;> decide
    | (with_reducible refine (foot_sendToken ..).mono ?_) <;> decide
    | split
    | dsimp only

theorem foot_beginReeval (n : Nat) (abandoned : Bool) : (beginReeval n abandoned).In [7, 51] := by
  unfold beginReeval
  repeat' first
    | with_reducible refine M.In.bind ?_ fun _ => ?_
    | with_reducible refine M.In.ite ?_ ?_
    | with_reducible exact M.In.pure _
    | with_reducible exact M.In.getS
    | (with_reducible refine (foot_updRg ..).mono ?_) <;> decide
    | (with_reducible refine (foot_putCells ..).mono ?_) <;> decide
    | (with_reducible refine M.In.inc 7 _ ?_ ?_) <;> first | decide | exact LAT.RG_CFG_page _ | exact LAT.RG_STAT_page _
    | split
    | dsimp only

theorem foot_latRestart (g : Nat) : (latRestart g).In [51] := by
  unfold latRestart
  repeat' first
    | with_reducible refine M.In.bind ?_ fun _ => ?_
    | with_reducible refine M.In.ite ?_ ?_
    | with_reducible exact M.In.pure _
    | with_reducible exact M.In.getS
    | (with_reducible refine (foot_updLc ..).mono ?_) <;> decide
    | (with_reducible refine (foot_updRg ..).mono ?_) <;> decide
    | with_reducible refine M.In.forM (fun _ => ?_) _
    | with_reducible refine M.In.optForM (fun _ => ?_) _
    | split
    | dsimp only

theorem foot_newTarget (c : Nat) (old : Word) : (newTarget c old).In [7, 51] := by
  unfold newTarget
  repeat' first
    | with_reducible refine M.In.bind ?_ fun _ => ?_
    | with_reducible refine M.In.ite ?_ ?_
    | with_reducible exact M.In.pure _
    | with_reducible exact M.In.getS
    | (with_reducible refine (foot_updLc ..).mono ?_) <;> decide
    | (with_reducible refine (foot_updRg ..).mono ?_) <;> decide
    | (with_reducible refine M.In.wf 7 _ _ ?_ ?_) <;> first | decide | exact LAT.CELL_STAT_page _ | exact LAT.RAMP_page _
    | (with_reducible refine M.In.inc 7 _ ?_ ?_) <;> first | decide | exact LAT.CELL_STAT_page _ | exact LAT.RAMP_page _
    | split
    | dsimp only

theorem foot_updPu (k : Nat) (f : PosUnit → PosUnit) : (updPu k f).In [52] := by
  unfold updPu
  repeat' first
    | with_reducible refine M.In.bind ?_ fun _ => ?_
    | with_reducible exact M.In.pure _
    | (refine M.In.hid_pos _ ?_; decide)
    | dsimp only

theorem foot_ratio (n d : Int) : (ratio n d).In [42] := by
  unfold ratio
  repeat' first
    | with_reducible refine M.In.bind ?_ fun _ => ?_
    | with_reducible refine M.In.ite ?_ ?_
    | with_reducible exact M.In.pure _
    | (with_reducible refine M.In.fresh ?_) <;> decide
    | (with_reducible refine M.In.freshBytes _ ?_) <;> decide
    | (with_reducible refine M.In.freshRats _ ?_) <;> decide
    | split
    | dsimp only

theorem foot_setPuState (k new src : Nat) : (setPuState k new src).In [1, 10, 20, 33, 43, 47] := by
  unfold setPuState
  repeat' first
    | with_reducible refine M.In.bind ?_ fun _ => ?_
    | with_reducible refine M.In.ite ?_ ?_
    | with_reducible exact M.In.pure _
    | with_reducible exact M.In.getS
    | (with_reducible refine (foot_eventDev ..).mono ?_) <;> decide
    | (with_reducible refine M.In.wf 10 _ _ ?_ ?_) <;> first | decide | exact POS.PU_STAT_page _
    | split
    | dsimp only

theorem foot_puOccur (src k : Nat) : (puOccur src k).In [0, 1, 3, 4, 5, 6, 9, 10, 12, 16, 17, 20, 33, 35, 43, 44, 45, 46, 47, 48, 49, 50, 52] := by
  unfold puOccur
  repeat' first
    | with_reducible refine M.In.bind ?_ fun _ => ?_
    | with_reducible refine M.In.ite ?_ ?_
    | with_reducible exact M.In.pure _
    | (with_reducible refine (foot_occurrence ..).mono ?_) <;> decide
    | (with_reducible refine (foot_updPu ..).mono ?_) <;> decide
    | (with_reducible refine (foot_setPuState ..).mono ?_) <;> decide
    | split
    | dsimp only

theorem foot_pcmpFire (k u : Nat) (late : Bool) : (pcmpFire k u late).In [1, 10, 20, 33, 43, 47, 52] := by
  unfold pcmpFire
  repeat' first
    | with_reducible refine M.In.bind ?_ fun _ => ?_
    | with_reducible refine M.In.ite ?_ ?_
    | with_reducible exact M.In.pure _
    | with_reducible exact M.In.getS
    | (with_reducible refine (foot_eventDev ..).mono ?_) <;> decide
    | (with_reducible refine M.In.wf 10 _ _ ?_ ?_) <;> first | decide | exact POS.PCMP_CFG_page _ _ | exact POS.PCMP_STAT_page _ _
    | (with_reducible refine M.In.incWrap 10 _ ?_ ?_) <;> first | decide | exact POS.PCMP_CFG_page _ _ | exact POS.PCMP_STAT_page _ _
    | (refine M.In.hid_pos _ ?_; decide)
    | split
    | dsimp only

theorem foot_pcmpLateJudge (k u : Nat) : (pcmpLateJudge k u).In [10, 52] := by
  unfold pcmpLateJudge
  repeat' first
    | with_reducible refine M.In.bind ?_ fun _ => ?_
    | with_reducible refine M.In.ite ?_ ?_
    | with_reducible exact M.In.pure _
    | with_reducible exact M.In.getS
    | (with_reducible refine (foot_updPu ..).mono ?_) <;> decide
    | (with_reducible refine M.In.wf 10 _ _ ?_ ?_) <;> first | decide | exact POS.PCMP_CFG_page _ _ | exact POS.PCMP_STAT_page _ _ | exact POS.PCMP_TGT_page _ _
    | split
    | dsimp only

theorem foot_pcmpStep (k u : Nat) (fwd : Bool) : (pcmpStep k u fwd).In [10] := by
  unfold pcmpStep
  repeat' first
    | with_reducible refine M.In.bind ?_ fun _ => ?_
    | with_reducible refine M.In.ite ?_ ?_
    | with_reducible exact M.In.pure _
    | with_reducible exact M.In.getS
    | (with_reducible refine M.In.wf 10 _ _ ?_ ?_) <;> first | decide | exact POS.PCMP_CFG_page _ _ | exact POS.PCMP_TGT_page _ _
    | split
    | dsimp only

theorem foot_pcmpRearm (k u : Nat) (fwd : Bool) : (pcmpRearm k u fwd).In [1, 10, 20, 33, 43, 47, 52] := by
  unfold pcmpRearm
  repeat' first
    | with_reducible refine M.In.bind ?_ fun _ => ?_
    | with_reducible refine M.In.ite ?_ ?_
    | with_reducible exact M.In.pure _
    | with_reducible exact M.In.getS
    | (with_reducible refine (foot_pcmpFire ..).mono ?_) <;> decide
    | (with_reducible refine (foot_pcmpLateJudge ..).mono ?_) <;> decide
    | (with_reducible refine (foot_pcmpStep ..).mono ?_) <;> decide
    | split
    | dsimp only

theorem foot_pcmpJudge (k u : Nat) : (pcmpJudge k u).In [1, 10, 20, 33, 43, 47, 52] := by
  unfold pcmpJudge
  repeat' first
    | with_reducible refine M.In.bind ?_ fun _ => ?_
    | with_reducible refine M.In.ite ?_ ?_
    | with_reducible exact M.In.pure _
    | with_reducible exact M.In.getS
    | (with_reducible refine (foot_pcmpFire ..).mono ?_) <;> decide
    | (with_reducible refine (foot_pcmpLateJudge ..).mono ?_) <;> decide
    | (with_reducible refine (foot_pcmpRearm ..).mono ?_) <;> decide
    | split
    | dsimp only

theorem foot_pcmpLate (k : Nat) : (pcmpLate k).In [1, 10, 20, 33, 43, 47, 52] := by
  unfold pcmpLate
  repeat' first
    | with_reducible refine M.In.bind ?_ fun _ => ?_
    | with_reducible refine M.In.ite ?_ ?_
    | with_reducible exact M.In.pure _
    | with_reducible exact M.In.getS
    | (with_reducible refine (foot_updPu ..).mono ?_) <;> decide
    | (with_reducible refine (foot_pcmpFire ..).mono ?_) <;> decide
    | (with_reducible refine (foot_pcmpRearm ..).mono ?_) <;> decide
    | with_reducible refine M.In.forM (fun _ => ?_) _
    | with_reducible refine M.In.optForM (fun _ => ?_) _
    | split
    | dsimp only

theorem foot_moveTo (k : Nat) (acc : Int) : (moveTo k acc).In [1, 10, 20, 33, 43, 47, 52] := by
  unfold moveTo
  repeat' first
    | with_reducible refine M.In.bind ?_ fun _ => ?_
    | with_reducible refine M.In.ite ?_ ?_
    | with_reducible exact M.In.pure _
    | with_reducible exact M.In.getS
    | (with_reducible refine (foot_updPu ..).mono ?_) <;> decide
    | (with_reducible refine (foot_pcmpFire ..).mono ?_) <;> decide
    | (with_reducible refine (foot_pcmpRearm ..).mono ?_) <;> decide
    | (with_reducible refine M.In.wf 10 _ _ ?_ ?_) <;> first | decide | exact POS.POSN_page _
    | with_reducible refine M.In.forM (fun _ => ?_) _
    | with_reducible refine M.In.optForM (fun _ => ?_) _
    | split
    | dsimp only

theorem foot_rejudge (k : Nat) : (rejudge k).In [1, 10, 20, 33, 43, 47, 52] := by
  unfold rejudge
  repeat' first
    | with_reducible refine M.In.bind ?_ fun _ => ?_
    | with_reducible exact M.In.pure _
    | with_reducible exact M.In.getS
    | (with_reducible refine (foot_pcmpJudge ..).mono ?_) <;> decide
    | with_reducible refine M.In.forM (fun _ => ?_) _
    | with_reducible refine M.In.optForM (fun _ => ?_) _
    | dsimp only

theorem foot_jumpTo (k : Nat) (acc : Int) : (jumpTo k acc).In [1, 10, 20, 33, 43, 47, 52] := by
  unfold jumpTo
  repeat' first
    | with_reducible refine M.In.bind ?_ fun _ => ?_
    | with_reducible refine M.In.ite ?_ ?_
    | with_reducible exact M.In.pure _
    | with_reducible exact M.In.getS
    | (with_reducible refine (foot_updPu ..).mono ?_) <;> decide
    | (with_reducible refine (foot_rejudge ..).mono ?_) <;> decide
    | (with_reducible refine M.In.wf 10 _ _ ?_ ?_) <;> first | decide | exact POS.POSN_page _
    | split
    | dsimp only

theorem foot_puValid (k : Nat) : (puValid k).In [1, 10, 20, 33, 43, 47, 52] := by
  unfold puValid
  repeat' first
    | with_reducible refine M.In.bind ?_ fun _ => ?_
    | with_reducible refine M.In.ite ?_ ?_
    | with_reducible exact M.In.pure _
    | with_reducible exact M.In.getS
    | (with_reducible refine (foot_setPuState ..).mono ?_) <;> decide
    | (with_reducible refine (foot_rejudge ..).mono ?_) <;> decide
    | split
    | dsimp only

theorem foot_advancePu (k : Nat) (x0 : Nat) (x1 : Nat) : (advancePu k x0 x1).In [1, 10, 20, 33, 43, 47, 52] := by
  induction x0 generalizing x1 with
  | zero =>
    unfold advancePu
    repeat' first
      | with_reducible refine M.In.bind ?_ fun _ => ?_
      | with_reducible refine M.In.ite ?_ ?_
      | with_reducible exact M.In.pure _
      | with_reducible exact M.In.getS
      | (with_reducible refine (foot_updPu ..).mono ?_) <;> decide
      | (with_reducible refine (foot_pcmpLate ..).mono ?_) <;> decide
      | (with_reducible refine (foot_moveTo ..).mono ?_) <;> decide
      | split
      | dsimp only
  | succ _ ih =>
    unfold advancePu
    repeat' first
      | with_reducible exact ih ..
      | with_reducible refine M.In.bind ?_ fun _ => ?_
      | with_reducible refine M.In.ite ?_ ?_
      | with_reducible exact M.In.pure _
      | with_reducible exact M.In.getS
      | (with_reducible refine (foot_updPu ..).mono ?_) <;> decide
      | (with_reducible refine (foot_pcmpLate ..).mono ?_) <;> decide
      | (with_reducible refine (foot_moveTo ..).mono ?_) <;> decide
      | split
      | dsimp only

theorem foot_updPt (k : Nat) (f : PassThru → PassThru) : (updPt k f).In [52] := by
  unfold updPt
  repeat' first
    | with_reducible refine M.In.bind ?_ fun _ => ?_
    | with_reducible exact M.In.pure _
    | (refine M.In.hid_pos _ ?_; decide)
    | dsimp only

theorem foot_emuCheck (k : Nat) : (emuCheck k).In [0, 1, 3, 4, 5, 6, 9, 10, 12, 16, 17, 20, 33, 35, 43, 44, 45, 46, 47, 48, 49, 50] := by
  unfold emuCheck
  repeat' first
    | with_reducible refine M.In.bind ?_ fun _ => ?_
    | with_reducible refine M.In.ite ?_ ?_
    | with_reducible exact M.In.pure _
    | with_reducible exact M.In.getS
    | (with_reducible refine (foot_occur ..).mono ?_) <;> decide
    | (with_reducible refine M.In.wf 10 _ _ ?_ ?_) <;> first | decide | exact POS.PT_CFG_page _ | exact POS.PU_STAT_page _
    | split
    | dsimp only

theorem foot_emuFollow (src : Nat) : (emuFollow src).In [0, 1, 3, 4, 5, 6, 9, 10, 12, 16, 17, 20, 33, 35, 43, 44, 45, 46, 47, 48, 49, 50] := by
  unfold emuFollow
  repeat' first
    | with_reducible refine M.In.bind ?_ fun _ => ?_
    | with_reducible refine M.In.ite ?_ ?_
    | with_reducible exact M.In.pure _
    | with_reducible exact M.In.getS
    | (with_reducible refine (foot_emuCheck ..).mono ?_) <;> decide
    | with_reducible refine M.In.forM (fun _ => ?_) _
    | with_reducible refine M.In.optForM (fun _ => ?_) _
    | split
    | dsimp only

theorem foot_quadEmuCount (k t : Nat) : (quadEmuCount k t).In [52] := by
  unfold quadEmuCount
  repeat' first
    | with_reducible refine M.In.bind ?_ fun _ => ?_
    | with_reducible refine M.In.ite ?_ ?_
    | with_reducible exact M.In.pure _
    | with_reducible exact M.In.getS
    | (with_reducible refine (foot_updPt ..).mono ?_) <;> decide
    | split
    | dsimp only

theorem foot_emuRestart (k : Nat) : (emuRestart k).In [52] := by
  unfold emuRestart
  repeat' first
    | with_reducible refine M.In.bind ?_ fun _ => ?_
    | with_reducible exact M.In.pure _
    | with_reducible exact M.In.getS
    | (with_reducible refine (foot_updPt ..).mono ?_) <;> decide
    | dsimp only

theorem foot_ssiEmuClock (k : Nat) (rising : Bool) (t : Nat) : (ssiEmuClock k rising t).In [52] := by
  unfold ssiEmuClock
  repeat' first
    | with_reducible refine M.In.bind ?_ fun _ => ?_
    | with_reducible refine M.In.ite ?_ ?_
    | with_reducible exact M.In.pure _
    | with_reducible exact M.In.getS
    | (with_reducible refine (foot_updPt ..).mono ?_) <;> decide
    | split
    | dsimp only

theorem foot_speedAt (s : State) (k t : Nat) : (State.speedAt s k t).In [42] := by
  unfold State.speedAt
  repeat' first
    | with_reducible refine M.In.bind ?_ fun _ => ?_
    | with_reducible refine M.In.ite ?_ ?_
    | with_reducible exact M.In.pure _
    | (with_reducible refine (foot_ratio ..).mono ?_) <;> decide
    | (with_reducible refine M.In.fresh ?_) <;> decide
    | (with_reducible refine M.In.freshBytes _ ?_) <;> decide
    | (with_reducible refine M.In.freshRats _ ?_) <;> decide
    | split
    | dsimp only

theorem foot_setSpeed (k : Nat) (x : Int) : (setSpeed k x).In [10, 52] := by
  unfold setSpeed
  repeat' first
    | with_reducible refine M.In.bind ?_ fun _ => ?_
    | with_reducible exact M.In.pure _
    | (with_reducible refine (foot_updPu ..).mono ?_) <;> decide
    | (with_reducible refine M.In.wr 10 _ _ ?_ ?_) <;> first | decide | exact POS.SPEED_page _
    | dsimp only

theorem foot_reportSpeed (k t : Nat) : (reportSpeed k t).In [10, 42] := by
  unfold reportSpeed
  repeat' first
    | with_reducible refine M.In.bind ?_ fun _ => ?_
    | with_reducible exact M.In.pure _
    | with_reducible exact M.In.getS
    | (with_reducible refine (foot_speedAt ..).mono ?_) <;> decide
    | (with_reducible refine M.In.wr 10 _ _ ?_ ?_) <;> first | decide | exact POS.SPEED_page _
    | (with_reducible refine M.In.fresh ?_) <;> decide
    | (with_reducible refine M.In.freshBytes _ ?_) <;> decide
    | (with_reducible refine M.In.freshRats _ ?_) <;> decide
    | split
    | dsimp only

theorem foot_showSpeed (k t : Nat) : (showSpeed k t).In [10, 42] := by
  unfold showSpeed
  repeat' first
    | with_reducible refine M.In.bind ?_ fun _ => ?_
    | with_reducible refine M.In.ite ?_ ?_
    | with_reducible exact M.In.pure _
    | with_reducible exact M.In.getS
    | (with_reducible refine (foot_reportSpeed ..).mono ?_) <;> decide
    | (with_reducible refine M.In.fresh ?_) <;> decide
    | (with_reducible refine M.In.freshBytes _ ?_) <;> decide
    | (with_reducible refine M.In.freshRats _ ?_) <;> decide
    | split
    | dsimp only

theorem foot_standStill (k : Nat) : (standStill k).In [10, 52] := by
  unfold standStill
  repeat' first
    | with_reducible refine M.In.bind ?_ fun _ => ?_
    | with_reducible refine M.In.ite ?_ ?_
    | with_reducible exact M.In.pure _
    | with_reducible exact M.In.getS
    | (with_reducible refine (foot_updPu ..).mono ?_) <;> decide
    | (with_reducible refine (foot_setSpeed ..).mono ?_) <;> decide
    | (with_reducible refine M.In.wf 10 _ _ ?_ ?_) <;> first | decide | exact POS.PU_STAT_page _
    | split
    | dsimp only

theorem foot_advanceTo (k t : Nat) : (advanceTo k t).In [1, 10, 20, 33, 43, 47, 52] := by
  unfold advanceTo
  repeat' first
    | with_reducible refine M.In.bind ?_ fun _ => ?_
    | with_reducible exact M.In.pure _
    | with_reducible exact M.In.getS
    | (with_reducible refine (foot_advancePu ..).mono ?_) <;> decide
    | dsimp only

theorem foot_puTime (k t : Nat) : (puTime k t).In [0, 1, 3, 4, 5, 6, 9, 10, 12, 16, 17, 20, 33, 35, 42, 43, 44, 45, 46, 47, 48, 49, 50, 52] := by
  unfold puTime
  repeat' first
    | with_reducible refine M.In.bind ?_ fun _ => ?_
    | with_reducible refine M.In.ite ?_ ?_
    | with_reducible exact M.In.pure _
    | with_reducible exact M.In.getS
    | (with_reducible refine (foot_updPu ..).mono ?_) <;> decide
    | (with_reducible refine (foot_emuFollow ..).mono ?_) <;> decide
    | (with_reducible refine (foot_showSpeed ..).mono ?_) <;> decide
    | (with_reducible refine (foot_standStill ..).mono ?_) <;> decide
    | (with_reducible refine (foot_advanceTo ..).mono ?_) <;> decide
    | (with_reducible refine M.In.fresh ?_) <;> decide
    | (with_reducible refine M.In.freshBytes _ ?_) <;> decide
    | (with_reducible refine M.In.freshRats _ ?_) <;> decide
    | split
    | dsimp only

theorem foot_posTime (k t : Nat) : (posTime k t).In [0, 1, 3, 4, 5, 6, 9, 10, 12, 16, 17, 20, 33, 35, 42, 43, 44, 45, 46, 47, 48, 49, 50, 52] := by
  unfold posTime
  repeat' first
    | with_reducible refine M.In.bind ?_ fun _ => ?_
    | with_reducible exact M.In.pure _
    | with_reducible exact M.In.getS
    | (with_reducible refine (foot_puTime ..).mono ?_) <;> decide
    | (with_reducible refine M.In.fresh ?_) <;> decide
    | (with_reducible refine M.In.freshBytes _ ?_) <;> decide
    | (with_reducible refine M.In.freshRats _ ?_) <;> decide
    | (refine M.In.hid_pos _ ?_; decide)
    | split
    | dsimp only

theorem foot_posTick : (posTick).In [0, 1, 3, 4, 5, 6, 9, 10, 12, 16, 17, 20, 33, 35, 42, 43, 44, 45, 46, 47, 48, 49, 50, 52] := by
  unfold posTick
  repeat' first
    | with_reducible refine M.In.bind ?_ fun _ => ?_
    | with_reducible exact M.In.pure _
    | with_reducible exact M.In.getS
    | (with_reducible refine (foot_puTime ..).mono ?_) <;> decide
    | (with_reducible refine M.In.wf 10 _ _ ?_ ?_) <;> first | decide | exact POS.OBS_CTRL_page _
    | (with_reducible refine M.In.fresh ?_) <;> decide
    | (with_reducible refine M.In.freshBytes _ ?_) <;> decide
    | (with_reducible refine M.In.freshRats _ ?_) <;> decide
    | (refine M.In.hid_pos _ ?_; decide)
    | with_reducible refine M.In.forM (fun _ => ?_) _
    | with_reducible refine M.In.optForM (fun _ => ?_) _
    | dsimp only

theorem foot_refEdge (k t : Nat) (dir : Int) : (refEdge k t dir).In [10, 42, 52] := by
  unfold refEdge
  repeat' first
    | with_reducible refine M.In.bind ?_ fun _ => ?_
    | with_reducible refine M.In.ite ?_ ?_
    | with_reducible exact M.In.pure _
    | with_reducible exact M.In.getS
    | (with_reducible refine (foot_updPu ..).mono ?_) <;> decide
    | (with_reducible refine (foot_ratio ..).mono ?_) <;> decide
    | (with_reducible refine (foot_setSpeed ..).mono ?_) <;> decide
    | (with_reducible refine M.In.wf 10 _ _ ?_ ?_) <;> first | decide | exact POS.HALL_page _ | exact POS.MODULUS_page _ | exact POS.PU_CFG_page _ | exact POS.PU_STAT_page _
    | (with_reducible refine M.In.fresh ?_) <;> decide
    | (with_reducible refine M.In.freshBytes _ ?_) <;> decide
    | (with_reducible refine M.In.freshRats _ ?_) <;> decide
    | split
    | dsimp only

theorem foot_restartSpeed (k : Nat) : (restartSpeed k).In [10, 52] := by
  unfold restartSpeed
  repeat' first
    | with_reducible refine M.In.bind ?_ fun _ => ?_
    | with_reducible exact M.In.pure _
    | (with_reducible refine (foot_updPu ..).mono ?_) <;> decide
    | (with_reducible refine (foot_setSpeed ..).mono ?_) <;> decide
    | dsimp only

theorem foot_setDir (k : Nat) (dir : Int) : (setDir k dir).In [10, 52] := by
  unfold setDir
  repeat' first
    | with_reducible refine M.In.bind ?_ fun _ => ?_
    | with_reducible refine M.In.ite ?_ ?_
    | with_reducible exact M.In.pure _
    | with_reducible exact M.In.getS
    | (with_reducible refine (foot_updPu ..).mono ?_) <;> decide
    | (with_reducible refine (foot_restartSpeed ..).mono ?_) <;> decide
    | split
    | dsimp only

theorem foot_zeroSpeed (k t : Nat) : (zeroSpeed k t).In [0, 1, 3, 4, 5, 6, 9, 10, 12, 16, 17, 20, 33, 35, 42, 43, 44, 45, 46, 47, 48, 49, 50, 52] := by
  unfold zeroSpeed
  repeat' first
    | with_reducible refine M.In.bind ?_ fun _ => ?_
    | with_reducible exact M.In.pure _
    | (with_reducible refine (foot_posTime ..).mono ?_) <;> decide
    | (with_reducible refine M.In.fresh ?_) <;> decide
    | (with_reducible refine M.In.freshBytes _ ?_) <;> decide
    | (with_reducible refine M.In.freshRats _ ?_) <;> decide
    | dsimp only

theorem foot_adoptSector (k new : Nat) : (adoptSector k new).In [1, 10, 20, 33, 43, 47, 52] := by
  unfold adoptSector
  repeat' first
    | with_reducible refine M.In.bind ?_ fun _ => ?_
    | with_reducible exact M.In.pure _
    | with_reducible exact M.In.getS
    | (with_reducible refine (foot_updPu ..).mono ?_) <;> decide
    | (with_reducible refine (foot_jumpTo ..).mono ?_) <;> decide
    | (with_reducible refine (foot_puValid ..).mono ?_) <;> decide
    | (with_reducible refine (foot_restartSpeed ..).mono ?_) <;> decide
    | dsimp only

theorem foot_acquire (k : Nat) : (acquire k).In [1, 10, 20, 33, 43, 47, 52] := by
  unfold acquire
  repeat' first
    | with_reducible refine M.In.bind ?_ fun _ => ?_
    | with_reducible refine M.In.ite ?_ ?_
    | with_reducible exact M.In.pure _
    | with_reducible exact M.In.getS
    | with_reducible exact M.In.hidden
    | (with_reducible refine (foot_updPu ..).mono ?_) <;> decide
    | (with_reducible refine (foot_setPuState ..).mono ?_) <;> decide
    | (with_reducible refine (foot_puValid ..).mono ?_) <;> decide
    | (with_reducible refine (foot_restartSpeed ..).mono ?_) <;> decide
    | (with_reducible refine (foot_adoptSector ..).mono ?_) <;> decide
    | split
    | dsimp only

theorem foot_modeWritten (k : Nat) : (modeWritten k).In [1, 10, 20, 33, 43, 47, 52] := by
  unfold modeWritten
  repeat' first
    | with_reducible refine M.In.bind ?_ fun _ => ?_
    | with_reducible refine M.In.ite ?_ ?_
    | with_reducible exact M.In.pure _
    | with_reducible exact M.In.getS
    | (with_reducible refine (foot_updPu ..).mono ?_) <;> decide
    | (with_reducible refine (foot_setPuState ..).mono ?_) <;> decide
    | (with_reducible refine (foot_restartSpeed ..).mono ?_) <;> decide
    | (with_reducible refine (foot_acquire ..).mono ?_) <;> decide
    | split
    | dsimp only

theorem foot_ssiRequest (k t : Nat) : (ssiRequest k t).In [10, 52] := by
  unfold ssiRequest
  repeat' first
    | with_reducible refine M.In.bind ?_ fun _ => ?_
    | with_reducible refine M.In.ite ?_ ?_
    | with_reducible exact M.In.pure _
    | with_reducible exact M.In.getS
    | (with_reducible refine (foot_updPu ..).mono ?_) <;> decide
    | (with_reducible refine M.In.inc 10 _ ?_ ?_) <;> first | decide | exact POS.PU_STAT_page _ | exact POS.SSI_page _
    | split
    | dsimp only

theorem foot_positionLatch (k : Nat) (b : Bool) (t : Nat) : (positionLatch k b t).In [0, 1, 3, 4, 5, 6, 9, 10, 12, 16, 17, 20, 33, 35, 42, 43, 44, 45, 46, 47, 48, 49, 50, 52] := by
  unfold positionLatch
  repeat' first
    | with_reducible refine M.In.bind ?_ fun _ => ?_
    | with_reducible refine M.In.ite ?_ ?_
    | with_reducible exact M.In.pure _
    | with_reducible exact M.In.getS
    | (with_reducible refine (foot_updPu ..).mono ?_) <;> decide
    | (with_reducible refine (foot_reportSpeed ..).mono ?_) <;> decide
    | (with_reducible refine (foot_posTime ..).mono ?_) <;> decide
    | (with_reducible refine (foot_ssiRequest ..).mono ?_) <;> decide
    | (with_reducible refine M.In.fresh ?_) <;> decide
    | (with_reducible refine M.In.freshBytes _ ?_) <;> decide
    | (with_reducible refine M.In.freshRats _ ?_) <;> decide
    | split
    | dsimp only

theorem foot_resEps (sn cs : Int) (theta : Fl) : (resEps sn cs theta).In [42] := by
  unfold resEps
  repeat' first
    | with_reducible refine M.In.bind ?_ fun _ => ?_
    | with_reducible refine M.In.ite ?_ ?_
    | with_reducible exact M.In.pure _
    | (with_reducible refine M.In.fresh ?_) <;> decide
    | (with_reducible refine M.In.freshBytes _ ?_) <;> decide
    | (with_reducible refine M.In.freshRats _ ?_) <;> decide
    | split
    | dsimp only

theorem foot_resolverUpdate (j t c : Nat) : (resolverUpdate j t c).In [0, 1, 3, 4, 5, 6, 9, 10, 12, 16, 17, 20, 33, 35, 42, 43, 44, 45, 46, 47, 48, 49, 50, 52] := by
  unfold resolverUpdate
  repeat' first
    | with_reducible refine M.In.bind ?_ fun _ => ?_
    | with_reducible refine M.In.ite ?_ ?_
    | with_reducible exact M.In.pure _
    | with_reducible exact M.In.getS
    | (with_reducible refine (foot_updPu ..).mono ?_) <;> decide
    | (with_reducible refine (foot_ratio ..).mono ?_) <;> decide
    | (with_reducible refine (foot_puOccur ..).mono ?_) <;> decide
    | (with_reducible refine (foot_moveTo ..).mono ?_) <;> decide
    | (with_reducible refine (foot_puValid ..).mono ?_) <;> decide
    | (with_reducible refine (foot_emuFollow ..).mono ?_) <;> decide
    | (with_reducible refine (foot_setSpeed ..).mono ?_) <;> decide
    | (with_reducible refine (foot_posTime ..).mono ?_) <;> decide
    | (with_reducible refine (foot_resEps ..).mono ?_) <;> decide
    | (with_reducible refine M.In.wf 10 _ _ ?_ ?_) <;> first | decide | exact POS.RES_CFG_page _ | exact POS.RES_LIM_page _ | exact POS.RES_SLOT_page _ | exact POS.RES_STAT_page _ | exact POS.RES_TRK_page _
    | (with_reducible refine M.In.inc 10 _ ?_ ?_) <;> first | decide | exact POS.RES_CFG_page _ | exact POS.RES_LIM_page _ | exact POS.RES_SLOT_page _ | exact POS.RES_STAT_page _ | exact POS.RES_TRK_page _
    | (with_reducible refine M.In.fresh ?_) <;> decide
    | (with_reducible refine M.In.freshBytes _ ?_) <;> decide
    | (with_reducible refine M.In.freshRats _ ?_) <;> decide
    | split
    | dsimp only

theorem foot_resExc (j : Nat) : (resExc j).In [0, 1, 3, 4, 5, 6, 9, 10, 12, 16, 17, 20, 33, 35, 43, 44, 45, 46, 47, 48, 49, 50, 52] := by
  unfold resExc
  repeat' first
    | with_reducible refine M.In.bind ?_ fun _ => ?_
    | with_reducible refine M.In.ite ?_ ?_
    | with_reducible exact M.In.pure _
    | with_reducible exact M.In.getS
    | (with_reducible refine (foot_puOccur ..).mono ?_) <;> decide
    | split
    | dsimp only

theorem foot_ssiBad (k : Nat) : (ssiBad k).In [0, 1, 3, 4, 5, 6, 9, 10, 12, 16, 17, 20, 33, 35, 43, 44, 45, 46, 47, 48, 49, 50, 52] := by
  unfold ssiBad
  repeat' first
    | with_reducible refine M.In.bind ?_ fun _ => ?_
    | with_reducible exact M.In.pure _
    | (with_reducible refine (foot_updPu ..).mono ?_) <;> decide
    | (with_reducible refine (foot_puOccur ..).mono ?_) <;> decide
    | (with_reducible refine M.In.inc 10 _ ?_ ?_) <;> first | decide | exact POS.PU_STAT_page _
    | dsimp only

theorem foot_ssiTaken (k t0 : Nat) (x : SsiWord) : (ssiTaken k t0 x).In [0, 1, 3, 4, 5, 6, 9, 10, 12, 16, 17, 20, 33, 35, 42, 43, 44, 45, 46, 47, 48, 49, 50, 52] := by
  unfold ssiTaken
  repeat' first
    | with_reducible refine M.In.bind ?_ fun _ => ?_
    | with_reducible refine M.In.ite ?_ ?_
    | with_reducible exact M.In.pure _
    | with_reducible exact M.In.getS
    | (with_reducible refine (foot_updPu ..).mono ?_) <;> decide
    | (with_reducible refine (foot_moveTo ..).mono ?_) <;> decide
    | (with_reducible refine (foot_puValid ..).mono ?_) <;> decide
    | (with_reducible refine (foot_emuFollow ..).mono ?_) <;> decide
    | (with_reducible refine (foot_refEdge ..).mono ?_) <;> decide
    | (with_reducible refine (foot_setDir ..).mono ?_) <;> decide
    | (with_reducible refine (foot_ssiBad ..).mono ?_) <;> decide
    | (with_reducible refine M.In.fresh ?_) <;> decide
    | (with_reducible refine M.In.freshBytes _ ?_) <;> decide
    | (with_reducible refine M.In.freshRats _ ?_) <;> decide
    | split
    | dsimp only

theorem foot_ssiWord (k : Nat) (x : SsiWord) : (ssiWord k x).In [0, 1, 3, 4, 5, 6, 9, 10, 12, 16, 17, 20, 33, 35, 42, 43, 44, 45, 46, 47, 48, 49, 50, 52] := by
  unfold ssiWord
  repeat' first
    | with_reducible refine M.In.bind ?_ fun _ => ?_
    | with_reducible refine M.In.ite ?_ ?_
    | with_reducible exact M.In.pure _
    | with_reducible exact M.In.getS
    | (with_reducible refine (foot_updPu ..).mono ?_) <;> decide
    | (with_reducible refine (foot_posTime ..).mono ?_) <;> decide
    | (with_reducible refine (foot_ssiTaken ..).mono ?_) <;> decide
    | (with_reducible refine M.In.fresh ?_) <;> decide
    | (with_reducible refine M.In.freshBytes _ ?_) <;> decide
    | (with_reducible refine M.In.freshRats _ ?_) <;> decide
    | split
    | dsimp only

theorem foot_quadTransition (k : Nat) (a b : Bool) (n t : Nat) : (quadTransition k a b n t).In [0, 1, 3, 4, 5, 6, 9, 10, 12, 16, 17, 20, 33, 35, 42, 43, 44, 45, 46, 47, 48, 49, 50, 52] := by
  unfold quadTransition
  repeat' first
    | with_reducible refine M.In.bind ?_ fun _ => ?_
    | with_reducible refine M.In.ite ?_ ?_
    | with_reducible exact M.In.pure _
    | with_reducible exact M.In.getS
    | (with_reducible refine (foot_updPu ..).mono ?_) <;> decide
    | (with_reducible refine (foot_puOccur ..).mono ?_) <;> decide
    | (with_reducible refine (foot_moveTo ..).mono ?_) <;> decide
    | (with_reducible refine (foot_emuFollow ..).mono ?_) <;> decide
    | (with_reducible refine (foot_posTime ..).mono ?_) <;> decide
    | (with_reducible refine (foot_refEdge ..).mono ?_) <;> decide
    | (with_reducible refine (foot_setDir ..).mono ?_) <;> decide
    | (with_reducible refine M.In.inc 10 _ ?_ ?_) <;> first | decide | exact POS.PU_STAT_page _
    | (with_reducible refine M.In.fresh ?_) <;> decide
    | (with_reducible refine M.In.freshBytes _ ?_) <;> decide
    | (with_reducible refine M.In.freshRats _ ?_) <;> decide
    | split
    | dsimp only

theorem foot_quadIndex (k n t : Nat) : (quadIndex k n t).In [0, 1, 3, 4, 5, 6, 9, 10, 12, 16, 17, 20, 33, 35, 42, 43, 44, 45, 46, 47, 48, 49, 50, 52] := by
  unfold quadIndex
  repeat' first
    | with_reducible refine M.In.bind ?_ fun _ => ?_
    | with_reducible refine M.In.ite ?_ ?_
    | with_reducible exact M.In.pure _
    | with_reducible exact M.In.getS
    | (with_reducible refine (foot_updPu ..).mono ?_) <;> decide
    | (with_reducible refine (foot_puOccur ..).mono ?_) <;> decide
    | (with_reducible refine (foot_jumpTo ..).mono ?_) <;> decide
    | (with_reducible refine (foot_puValid ..).mono ?_) <;> decide
    | (with_reducible refine (foot_emuFollow ..).mono ?_) <;> decide
    | (with_reducible refine (foot_posTime ..).mono ?_) <;> decide
    | (with_reducible refine M.In.inc 10 _ ?_ ?_) <;> first | decide | exact POS.MODULUS_page _ | exact POS.PU_STAT_page _ | exact POS.QUAD_page _
    | (with_reducible refine M.In.fresh ?_) <;> decide
    | (with_reducible refine M.In.freshBytes _ ?_) <;> decide
    | (with_reducible refine M.In.freshRats _ ?_) <;> decide
    | split
    | dsimp only

theorem foot_hallIllegal (k : Nat) : (hallIllegal k).In [0, 1, 3, 4, 5, 6, 9, 10, 12, 16, 17, 20, 33, 35, 43, 44, 45, 46, 47, 48, 49, 50, 52] := by
  unfold hallIllegal
  repeat' first
    | with_reducible refine M.In.bind ?_ fun _ => ?_
    | with_reducible exact M.In.pure _
    | (with_reducible refine (foot_updPu ..).mono ?_) <;> decide
    | (with_reducible refine (foot_puOccur ..).mono ?_) <;> decide
    | (with_reducible refine M.In.inc 10 _ ?_ ?_) <;> first | decide | exact POS.PU_STAT_page _
    | dsimp only

theorem foot_hallStep (k h c : Nat) : (hallStep k h c).In [0, 1, 3, 4, 5, 6, 9, 10, 12, 16, 17, 20, 33, 35, 42, 43, 44, 45, 46, 47, 48, 49, 50, 52] := by
  unfold hallStep
  repeat' first
    | with_reducible refine M.In.bind ?_ fun _ => ?_
    | with_reducible refine M.In.ite ?_ ?_
    | with_reducible exact M.In.pure _
    | with_reducible exact M.In.getS
    | (with_reducible refine (foot_updPu ..).mono ?_) <;> decide
    | (with_reducible refine (foot_moveTo ..).mono ?_) <;> decide
    | (with_reducible refine (foot_emuFollow ..).mono ?_) <;> decide
    | (with_reducible refine (foot_refEdge ..).mono ?_) <;> decide
    | (with_reducible refine (foot_setDir ..).mono ?_) <;> decide
    | (with_reducible refine (foot_adoptSector ..).mono ?_) <;> decide
    | (with_reducible refine (foot_hallIllegal ..).mono ?_) <;> decide
    | (with_reducible refine M.In.fresh ?_) <;> decide
    | (with_reducible refine M.In.freshBytes _ ?_) <;> decide
    | (with_reducible refine M.In.freshRats _ ?_) <;> decide
    | split
    | dsimp only

theorem foot_hallChange (k h n t : Nat) : (hallChange k h n t).In [0, 1, 3, 4, 5, 6, 9, 10, 12, 16, 17, 20, 33, 35, 42, 43, 44, 45, 46, 47, 48, 49, 50, 52] := by
  unfold hallChange
  repeat' first
    | with_reducible refine M.In.bind ?_ fun _ => ?_
    | with_reducible refine M.In.ite ?_ ?_
    | with_reducible exact M.In.pure _
    | with_reducible exact M.In.getS
    | (with_reducible refine (foot_updPu ..).mono ?_) <;> decide
    | (with_reducible refine (foot_posTime ..).mono ?_) <;> decide
    | (with_reducible refine (foot_hallStep ..).mono ?_) <;> decide
    | (with_reducible refine M.In.fresh ?_) <;> decide
    | (with_reducible refine M.In.freshBytes _ ?_) <;> decide
    | (with_reducible refine M.In.freshRats _ ?_) <;> decide
    | split
    | dsimp only

theorem foot_observerFeeds (m : Nat) (theta : Fl) (n : Int) (locked : Bool) : (observerFeeds m theta n locked).In [0, 1, 3, 4, 5, 6, 9, 10, 12, 16, 17, 20, 33, 35, 42, 43, 44, 45, 46, 47, 48, 49, 50, 52] := by
  unfold observerFeeds
  repeat' first
    | with_reducible refine M.In.bind ?_ fun _ => ?_
    | with_reducible refine M.In.ite ?_ ?_
    | with_reducible exact M.In.pure _
    | with_reducible exact M.In.getS
    | (with_reducible refine (foot_setPuState ..).mono ?_) <;> decide
    | (with_reducible refine (foot_moveTo ..).mono ?_) <;> decide
    | (with_reducible refine (foot_puValid ..).mono ?_) <;> decide
    | (with_reducible refine (foot_emuFollow ..).mono ?_) <;> decide
    | (with_reducible refine (foot_setSpeed ..).mono ?_) <;> decide
    | (with_reducible refine (foot_puTime ..).mono ?_) <;> decide
    | (with_reducible refine M.In.fresh ?_) <;> decide
    | (with_reducible refine M.In.freshBytes _ ?_) <;> decide
    | (with_reducible refine M.In.freshRats _ ?_) <;> decide
    | (with_reducible refine M.In.hidAt fun x k hk => ?_) <;> (unfold SameHid; split <;> first | rfl | exact absurd (by decide) hk)
    | with_reducible refine M.In.forM (fun _ => ?_) _
    | with_reducible refine M.In.optForM (fun _ => ?_) _
    | split
    | dsimp only

theorem foot_pcmpArm (k u : Nat) : (pcmpArm k u).In [1, 10, 20, 33, 43, 47, 52] := by
  unfold pcmpArm
  repeat' first
    | with_reducible refine M.In.bind ?_ fun _ => ?_
    | with_reducible exact M.In.pure _
    | (with_reducible refine (foot_updPu ..).mono ?_) <;> decide
    | (with_reducible refine (foot_pcmpJudge ..).mono ?_) <;> decide
    | (with_reducible refine M.In.wf 10 _ _ ?_ ?_) <;> first | decide | exact POS.PCMP_STAT_page _ _
    | dsimp only

theorem foot_puFaultClear (k : Nat) : (puFaultClear k).In [1, 10, 20, 33, 43, 47, 52] := by
  unfold puFaultClear
  repeat' first
    | with_reducible refine M.In.bind ?_ fun _ => ?_
    | with_reducible refine M.In.ite ?_ ?_
    | with_reducible exact M.In.pure _
    | with_reducible exact M.In.getS
    | (with_reducible refine (foot_acquire ..).mono ?_) <;> decide
    | split
    | dsimp only

theorem foot_ptFaultClear (k : Nat) : (ptFaultClear k).In [10, 52] := by
  unfold ptFaultClear
  repeat' first
    | with_reducible refine M.In.bind ?_ fun _ => ?_
    | with_reducible exact M.In.pure _
    | (with_reducible refine (foot_emuRestart ..).mono ?_) <;> decide
    | (with_reducible refine M.In.wf 10 _ _ ?_ ?_) <;> first | decide | exact POS.PU_STAT_page _
    | dsimp only

theorem foot_field (a : Fl) (k w : Nat) : (field a k w).In [42] := by
  unfold field
  repeat' first
    | with_reducible refine M.In.bind ?_ fun _ => ?_
    | with_reducible refine M.In.ite ?_ ?_
    | with_reducible exact M.In.pure _
    | (with_reducible refine M.In.fresh ?_) <;> decide
    | (with_reducible refine M.In.freshBytes _ ?_) <;> decide
    | (with_reducible refine M.In.freshRats _ ?_) <;> decide
    | split
    | dsimp only

theorem foot_ufield (a : Fl) (k w : Nat) : (ufield a k w).In [42] := by
  unfold ufield
  repeat' first
    | with_reducible refine M.In.bind ?_ fun _ => ?_
    | with_reducible refine M.In.ite ?_ ?_
    | with_reducible exact M.In.pure _
    | (with_reducible refine M.In.fresh ?_) <;> decide
    | (with_reducible refine M.In.freshBytes _ ?_) <;> decide
    | (with_reducible refine M.In.freshRats _ ?_) <;> decide
    | split
    | dsimp only

theorem foot_updEng (m : Nat) (f : FldEng → FldEng) : (updEng m f).In [53] := by
  unfold updEng
  repeat' first
    | with_reducible refine M.In.bind ?_ fun _ => ?_
    | with_reducible exact M.In.pure _
    | (refine M.In.hid_fld _ ?_; decide)
    | dsimp only

theorem foot_sourceEvent (m kind how : Nat) : (sourceEvent m kind how).In [1, 20, 33, 43, 47] := by
  unfold sourceEvent
  repeat' first
    | with_reducible refine M.In.bind ?_ fun _ => ?_
    | with_reducible exact M.In.pure _
    | with_reducible exact M.In.getS
    | (with_reducible refine (foot_eventDev ..).mono ?_) <;> decide
    | dsimp only

theorem foot_runObserver (m : Nat) (tw va vb ia ib : Fl) (induced : Bool) : (runObserver m tw va vb ia ib induced).In [0, 1, 3, 4, 5, 6, 9, 10, 12, 16, 17, 20, 33, 35, 42, 43, 44, 45, 46, 47, 48, 49, 50, 52, 53] := by
  unfold runObserver
  repeat' first
    | with_reducible refine M.In.bind ?_ fun _ => ?_
    | with_reducible refine M.In.ite ?_ ?_
    | with_reducible exact M.In.pure _
    | with_reducible exact M.In.getS
    | (with_reducible refine (foot_occur ..).mono ?_) <;> decide
    | (with_reducible refine (foot_observerFeeds ..).mono ?_) <;> decide
    | (with_reducible refine (foot_field ..).mono ?_) <;> decide
    | (with_reducible refine (foot_ufield ..).mono ?_) <;> decide
    | (with_reducible refine (foot_updEng ..).mono ?_) <;> decide
    | (with_reducible refine (foot_sourceEvent ..).mono ?_) <;> decide
    | (with_reducible refine M.In.wf 10 _ _ ?_ ?_) <;> first | decide | exact FLD.MCH_CFG_page _ | exact POS.OBS_CFG_page _ | exact POS.OBS_LIM_page _ | exact POS.OBS_SPEED_page _ | exact POS.OBS_STAT_page _
    | (with_reducible refine M.In.wr 10 _ _ ?_ ?_) <;> first | decide | exact FLD.MCH_CFG_page _ | exact POS.OBS_CFG_page _ | exact POS.OBS_LIM_page _ | exact POS.OBS_SPEED_page _ | exact POS.OBS_STAT_page _
    | (with_reducible refine M.In.inc 10 _ ?_ ?_) <;> first | decide | exact FLD.MCH_CFG_page _ | exact POS.OBS_CFG_page _ | exact POS.OBS_LIM_page _ | exact POS.OBS_SPEED_page _ | exact POS.OBS_STAT_page _
    | (with_reducible refine M.In.fresh ?_) <;> decide
    | (with_reducible refine M.In.freshBytes _ ?_) <;> decide
    | (with_reducible refine M.In.freshRats _ ?_) <;> decide
    | split
    | dsimp only

theorem foot_modeEvent (m old new what cause : Nat) : (modeEvent m old new what cause).In [1, 20, 33, 43, 47] := by
  unfold modeEvent
  repeat' first
    | with_reducible refine M.In.bind ?_ fun _ => ?_
    | with_reducible exact M.In.pure _
    | (with_reducible refine (foot_eventDev ..).mono ?_) <;> decide
    | dsimp only

theorem foot_takeReaction (m g : Nat) (r : Reaction) (opens senses : List Nat) : (takeReaction m g r opens senses).In [0, 1, 3, 4, 5, 6, 8, 9, 12, 16, 17, 20, 33, 35, 43, 44, 45, 46, 47, 48, 49, 50, 53] := by
  unfold takeReaction
  repeat' first
    | with_reducible refine M.In.bind ?_ fun _ => ?_
    | with_reducible refine M.In.ite ?_ ?_
    | with_reducible exact M.In.pure _
    | with_reducible exact M.In.getS
    | (with_reducible refine (foot_forceAct ..).mono ?_) <;> decide
    | (with_reducible refine (foot_startSs1 ..).mono ?_) <;> decide
    | (with_reducible refine (foot_occur ..).mono ?_) <;> decide
    | (with_reducible refine (foot_updEng ..).mono ?_) <;> decide
    | (with_reducible refine (foot_modeEvent ..).mono ?_) <;> decide
    | (with_reducible refine M.In.wf 8 _ _ ?_ ?_) <;> first | decide | exact FLD.MCH_STAT_page _
    | split
    | dsimp only

theorem foot_postLeg (g leg : Nat) (es : List (Nat × Nat)) : (postLeg g leg es).In [0, 3, 6, 44, 50] := by
  unfold postLeg
  repeat' first
    | with_reducible refine M.In.bind ?_ fun _ => ?_
    | with_reducible exact M.In.pure _
    | with_reducible exact M.In.getS
    | (with_reducible refine (foot_postEdges ..).mono ?_) <;> decide
    | with_reducible refine M.In.forM (fun _ => ?_) _
    | with_reducible refine M.In.optForM (fun _ => ?_) _
    | split
    | dsimp only

theorem foot_modulateLeg (m g leg : Nat) (x : Fl) (off : Bool) : (modulateLeg m g leg x off).In [0, 3, 6, 8, 42, 44, 50] := by
  unfold modulateLeg
  repeat' first
    | with_reducible refine M.In.bind ?_ fun _ => ?_
    | with_reducible refine M.In.ite ?_ ?_
    | with_reducible exact M.In.pure _
    | with_reducible exact M.In.getS
    | (with_reducible refine (foot_ufield ..).mono ?_) <;> decide
    | (with_reducible refine (foot_postLeg ..).mono ?_) <;> decide
    | (with_reducible refine M.In.inc 8 _ ?_ ?_) <;> first | decide | exact FLD.CNT1_page _ | exact FLD.MOD_page _ | exact PLS.TB_COUNT_page _
    | (with_reducible refine M.In.fresh ?_) <;> decide
    | (with_reducible refine M.In.freshBytes _ ?_) <;> decide
    | (with_reducible refine M.In.freshRats _ ?_) <;> decide
    | split
    | dsimp only

theorem foot_commitDuties (m g : Nat) (v : List Fl) (ab : Fl × Fl) (signs : List (Option (Nat × Bool))) : (commitDuties m g v ab signs).In [0, 3, 6, 44, 50, 53] := by
  unfold commitDuties
  repeat' first
    | with_reducible refine M.In.bind ?_ fun _ => ?_
    | with_reducible refine M.In.ite ?_ ?_
    | with_reducible exact M.In.pure _
    | (with_reducible refine (foot_loopCommit ..).mono ?_) <;> decide
    | (with_reducible refine (foot_updEng ..).mono ?_) <;> decide
    | split
    | dsimp only

theorem foot_torqueMonitors (m g : Nat) : (torqueMonitors m g).In [0, 1, 3, 4, 5, 6, 9, 12, 16, 17, 20, 33, 35, 43, 44, 45, 46, 47, 48, 49, 50, 53] := by
  unfold torqueMonitors
  repeat' first
    | with_reducible refine M.In.bind ?_ fun _ => ?_
    | with_reducible refine M.In.ite ?_ ?_
    | with_reducible exact M.In.pure _
    | with_reducible exact M.In.getS
    | (with_reducible refine (foot_updGrp ..).mono ?_) <;> decide
    | (with_reducible refine (foot_momentary ..).mono ?_) <;> decide
    | (with_reducible refine (foot_ss1Sto ..).mono ?_) <;> decide
    | (with_reducible refine (foot_occur ..).mono ?_) <;> decide
    | (with_reducible refine (foot_updEng ..).mono ?_) <;> decide
    | split
    | dsimp only

theorem foot_updatePattern (m g : Nat) (n : Fl) (valid : Bool) : (updatePattern m g n valid).In [8, 44] := by
  unfold updatePattern
  repeat' first
    | with_reducible refine M.In.bind ?_ fun _ => ?_
    | with_reducible refine M.In.ite ?_ ?_
    | with_reducible exact M.In.pure _
    | with_reducible exact M.In.getS
    | (with_reducible refine (foot_updGrp ..).mono ?_) <;> decide
    | (with_reducible refine M.In.wf 8 _ _ ?_ ?_) <;> first | decide | exact FLD.ASC_CFG_page _ | exact FLD.MCH_STAT_page _
    | split
    | dsimp only

theorem foot_heldEvaluation (m g : Nat) : (heldEvaluation m g).In [0, 1, 3, 4, 5, 6, 8, 9, 12, 16, 17, 20, 33, 35, 43, 44, 45, 46, 47, 48, 49, 50] := by
  unfold heldEvaluation
  repeat' first
    | with_reducible refine M.In.bind ?_ fun _ => ?_
    | with_reducible refine M.In.ite ?_ ?_
    | with_reducible exact M.In.pure _
    | with_reducible exact M.In.getS
    | (with_reducible refine (foot_occur ..).mono ?_) <;> decide
    | (with_reducible refine (foot_loopCommit ..).mono ?_) <;> decide
    | (with_reducible refine M.In.inc 8 _ ?_ ?_) <;> first | decide | exact FLD.CNT0_page _ | exact POS.OBS_STAT_page _
    | split
    | dsimp only

theorem foot_postVoltages (m g : Nat) (c : DqControl) (cur : List Fl) (theta we vdc dv : Fl) : (postVoltages m g c cur theta we vdc dv).In [0, 3, 6, 8, 42, 44, 50, 53] := by
  unfold postVoltages
  repeat' first
    | with_reducible refine M.In.bind ?_ fun _ => ?_
    | with_reducible refine M.In.ite ?_ ?_
    | with_reducible exact M.In.pure _
    | with_reducible exact M.In.getS
    | (with_reducible refine (foot_field ..).mono ?_) <;> decide
    | (with_reducible refine (foot_modulateLeg ..).mono ?_) <;> decide
    | (with_reducible refine (foot_commitDuties ..).mono ?_) <;> decide
    | (with_reducible refine M.In.wf 8 _ _ ?_ ?_) <;> first | decide | exact FLD.ANGLE_page _ | exact FLD.CNT1_page _ | exact FLD.MCH_STAT_page _ | exact FLD.NP_STAT_page _
    | (with_reducible refine M.In.inc 8 _ ?_ ?_) <;> first | decide | exact FLD.ANGLE_page _ | exact FLD.CNT1_page _ | exact FLD.MCH_STAT_page _ | exact FLD.NP_STAT_page _
    | (with_reducible refine M.In.fresh ?_) <;> decide
    | (with_reducible refine M.In.freshBytes _ ?_) <;> decide
    | (with_reducible refine M.In.freshRats _ ?_) <;> decide
    | with_reducible refine M.In.mapM' (fun _ => ?_) _
    | split
    | dsimp only

theorem foot_controlAndPost (m g : Nat) (refs cur : List Fl) (theta we vdc dv : Fl) : (controlAndPost m g refs cur theta we vdc dv).In [0, 3, 6, 8, 42, 44, 50, 53] := by
  unfold controlAndPost
  repeat' first
    | with_reducible refine M.In.bind ?_ fun _ => ?_
    | with_reducible exact M.In.pure _
    | with_reducible exact M.In.getS
    | (with_reducible refine (foot_field ..).mono ?_) <;> decide
    | (with_reducible refine (foot_updEng ..).mono ?_) <;> decide
    | (with_reducible refine (foot_postVoltages ..).mono ?_) <;> decide
    | (with_reducible refine M.In.wf 8 _ _ ?_ ?_) <;> first | decide | exact FLD.I_DQ_page _ | exact FLD.I_DQ_REF_page _ | exact FLD.V_DQ_page _
    | (with_reducible refine M.In.fresh ?_) <;> decide
    | (with_reducible refine M.In.freshBytes _ ?_) <;> decide
    | (with_reducible refine M.In.freshRats _ ?_) <;> decide
    | dsimp only

theorem foot_fluxCommand (m : Nat) (vdc we : Fl) : (fluxCommand m vdc we).In [8, 42, 53] := by
  unfold fluxCommand
  repeat' first
    | with_reducible refine M.In.bind ?_ fun _ => ?_
    | with_reducible refine M.In.ite ?_ ?_
    | with_reducible exact M.In.pure _
    | with_reducible exact M.In.getS
    | (with_reducible refine (foot_ufield ..).mono ?_) <;> decide
    | (with_reducible refine (foot_updEng ..).mono ?_) <;> decide
    | (with_reducible refine M.In.wf 8 _ _ ?_ ?_) <;> first | decide | exact FLD.FW_page _ | exact FLD.MAP_PSI_page _ | exact FLD.MCH_STAT_page _ | exact FLD.MOD_page _ | exact FLD.PSI_STAT_page _
    | (with_reducible refine M.In.fresh ?_) <;> decide
    | (with_reducible refine M.In.freshBytes _ ?_) <;> decide
    | (with_reducible refine M.In.freshRats _ ?_) <;> decide
    | split
    | dsimp only

theorem foot_applyTorque (m : Nat) (t : TqOut) : (applyTorque m t).In [8, 42, 53] := by
  unfold applyTorque
  repeat' first
    | with_reducible refine M.In.bind ?_ fun _ => ?_
    | with_reducible exact M.In.pure _
    | (with_reducible refine (foot_field ..).mono ?_) <;> decide
    | (with_reducible refine (foot_updEng ..).mono ?_) <;> decide
    | (with_reducible refine M.In.wf 8 _ _ ?_ ?_) <;> first | decide | exact FLD.MCH_STAT_page _ | exact FLD.TQ_OUT_page _
    | (with_reducible refine M.In.wr 8 _ _ ?_ ?_) <;> first | decide | exact FLD.MCH_STAT_page _ | exact FLD.TQ_OUT_page _
    | (with_reducible refine M.In.fresh ?_) <;> decide
    | (with_reducible refine M.In.freshBytes _ ?_) <;> decide
    | (with_reducible refine M.In.freshRats _ ?_) <;> decide
    | dsimp only

theorem foot_evaluateMachine (m g : Nat) (cur : List Fl) (measured : List Bool) (theta n vup vlo : Fl) (ecc : Bool) : (evaluateMachine m g cur measured theta n vup vlo ecc).In [0, 1, 3, 4, 5, 6, 8, 9, 12, 16, 17, 20, 33, 35, 42, 43, 44, 45, 46, 47, 48, 49, 50, 53] := by
  unfold evaluateMachine
  repeat' first
    | with_reducible refine M.In.bind ?_ fun _ => ?_
    | with_reducible refine M.In.ite ?_ ?_
    | with_reducible exact M.In.pure _
    | with_reducible exact M.In.getS
    | (with_reducible refine (foot_occurrence ..).mono ?_) <;> decide
    | (with_reducible refine (foot_occur ..).mono ?_) <;> decide
    | (with_reducible refine (foot_updEng ..).mono ?_) <;> decide
    | (with_reducible refine (foot_takeReaction ..).mono ?_) <;> decide
    | (with_reducible refine (foot_torqueMonitors ..).mono ?_) <;> decide
    | (with_reducible refine (foot_controlAndPost ..).mono ?_) <;> decide
    | (with_reducible refine (foot_fluxCommand ..).mono ?_) <;> decide
    | (with_reducible refine (foot_applyTorque ..).mono ?_) <;> decide
    | (with_reducible refine M.In.wf 8 _ _ ?_ ?_) <;> first | decide | exact FLD.CNT1_page _ | exact FLD.DERATE_page _ | exact FLD.MCH_CFG_page _ | exact FLD.MCH_STAT_page _ | exact FLD.POSTFAULT_page _
    | (with_reducible refine M.In.inc 8 _ ?_ ?_) <;> first | decide | exact FLD.CNT1_page _ | exact FLD.DERATE_page _ | exact FLD.MCH_CFG_page _ | exact FLD.MCH_STAT_page _ | exact FLD.POSTFAULT_page _
    | (with_reducible refine M.In.fresh ?_) <;> decide
    | (with_reducible refine M.In.freshBytes _ ?_) <;> decide
    | (with_reducible refine M.In.freshRats _ ?_) <;> decide
    | with_reducible refine M.In.forM (fun _ => ?_) _
    | with_reducible refine M.In.optForM (fun _ => ?_) _
    | split
    | dsimp only

theorem foot_catchStep (m g : Nat) : (catchStep m g).In [0, 1, 3, 4, 5, 6, 8, 9, 10, 12, 16, 17, 20, 33, 35, 42, 43, 44, 45, 46, 47, 48, 49, 50, 52, 53] := by
  unfold catchStep
  repeat' first
    | with_reducible refine M.In.bind ?_ fun _ => ?_
    | with_reducible refine M.In.ite ?_ ?_
    | with_reducible exact M.In.pure _
    | with_reducible exact M.In.getS
    | (with_reducible refine (foot_tripAct ..).mono ?_) <;> decide
    | (with_reducible refine (foot_occur ..).mono ?_) <;> decide
    | (with_reducible refine (foot_updEng ..).mono ?_) <;> decide
    | (with_reducible refine (foot_sourceEvent ..).mono ?_) <;> decide
    | (with_reducible refine (foot_runObserver ..).mono ?_) <;> decide
    | (with_reducible refine (foot_updatePattern ..).mono ?_) <;> decide
    | (with_reducible refine M.In.wf 10 _ _ ?_ ?_) <;> first | decide | exact FLD.MCH_CFG_page _ | exact FLD.MOTOR1_page _ | exact POS.OBS_CFG_page _ | exact POS.OBS_LIM_page _ | exact POS.OBS_STAT_page _
    | (with_reducible refine M.In.fresh ?_) <;> decide
    | (with_reducible refine M.In.freshBytes _ ?_) <;> decide
    | (with_reducible refine M.In.freshRats _ ?_) <;> decide
    | split
    | dsimp only

theorem foot_unitFault (m g : Nat) : (unitFault m g).In [0, 1, 3, 4, 5, 6, 9, 10, 12, 20, 33, 43, 44, 45, 47, 48, 50] := by
  unfold unitFault
  repeat' first
    | with_reducible refine M.In.bind ?_ fun _ => ?_
    | with_reducible refine M.In.ite ?_ ?_
    | with_reducible exact M.In.pure _
    | with_reducible exact M.In.getS
    | (with_reducible refine (foot_tripAct ..).mono ?_) <;> decide
    | (with_reducible refine (foot_sourceEvent ..).mono ?_) <;> decide
    | (with_reducible refine M.In.wf 10 _ _ ?_ ?_) <;> first | decide | exact FLD.MCH_CFG_page _ | exact POS.OBS_CFG_page _ | exact POS.OBS_STAT_page _
    | split
    | dsimp only

theorem foot_observeFirst (m g : Nat) (cur : List Fl) (catching : Nat) : (observeFirst m g cur catching).In [0, 1, 3, 4, 5, 6, 8, 9, 10, 12, 16, 17, 20, 33, 35, 42, 43, 44, 45, 46, 47, 48, 49, 50, 52, 53] := by
  unfold observeFirst
  repeat' first
    | with_reducible refine M.In.bind ?_ fun _ => ?_
    | with_reducible refine M.In.ite ?_ ?_
    | with_reducible exact M.In.pure _
    | with_reducible exact M.In.getS
    | (with_reducible refine (foot_runObserver ..).mono ?_) <;> decide
    | (with_reducible refine (foot_catchStep ..).mono ?_) <;> decide
    | (with_reducible refine M.In.fresh ?_) <;> decide
    | (with_reducible refine M.In.freshBytes _ ?_) <;> decide
    | (with_reducible refine M.In.freshRats _ ?_) <;> decide
    | split
    | dsimp only

theorem foot_fieldEvaluation (m : Nat) (ecc : Bool) : (fieldEvaluation m ecc).In [0, 1, 3, 4, 5, 6, 8, 9, 10, 12, 16, 17, 20, 33, 35, 42, 43, 44, 45, 46, 47, 48, 49, 50, 52, 53] := by
  unfold fieldEvaluation
  repeat' first
    | with_reducible refine M.In.bind ?_ fun _ => ?_
    | with_reducible refine M.In.ite ?_ ?_
    | with_reducible exact M.In.pure _
    | with_reducible exact M.In.getS
    | (with_reducible refine (foot_tripAct ..).mono ?_) <;> decide
    | (with_reducible refine (foot_post ..).mono ?_) <;> decide
    | (with_reducible refine (foot_field ..).mono ?_) <;> decide
    | (with_reducible refine (foot_updEng ..).mono ?_) <;> decide
    | (with_reducible refine (foot_updatePattern ..).mono ?_) <;> decide
    | (with_reducible refine (foot_heldEvaluation ..).mono ?_) <;> decide
    | (with_reducible refine (foot_evaluateMachine ..).mono ?_) <;> decide
    | (with_reducible refine (foot_unitFault ..).mono ?_) <;> decide
    | (with_reducible refine (foot_observeFirst ..).mono ?_) <;> decide
    | (with_reducible refine M.In.wf 8 _ _ ?_ ?_) <;> first | decide | exact FLD.ANGLE_page _ | exact FLD.CNT0_page _ | exact FLD.IN_SLOT1_page _ | exact FLD.MCH_CFG_page _ | exact FLD.MCH_STAT_page _ | exact POS.OBS_STAT_page _
    | (with_reducible refine M.In.incBy 8 _ _ ?_ ?_) <;> first | decide | exact FLD.ANGLE_page _ | exact FLD.CNT0_page _ | exact FLD.IN_SLOT1_page _ | exact FLD.MCH_CFG_page _ | exact FLD.MCH_STAT_page _ | exact POS.OBS_STAT_page _
    | (with_reducible refine M.In.fresh ?_) <;> decide
    | (with_reducible refine M.In.freshBytes _ ?_) <;> decide
    | (with_reducible refine M.In.freshRats _ ?_) <;> decide
    | (with_reducible refine M.In.hidAt fun x k hk => ?_) <;> (unfold SameHid; split <;> first | rfl | exact absurd (by decide) hk)
    | split
    | dsimp only

theorem foot_fldEnable (m : Nat) : (fldEnable m).In [1, 8, 10, 20, 33, 43, 47, 53] := by
  unfold fldEnable
  repeat' first
    | with_reducible refine M.In.bind ?_ fun _ => ?_
    | with_reducible refine M.In.ite ?_ ?_
    | with_reducible exact M.In.pure _
    | with_reducible exact M.In.getS
    | (with_reducible refine (foot_updEng ..).mono ?_) <;> decide
    | (with_reducible refine (foot_sourceEvent ..).mono ?_) <;> decide
    | (with_reducible refine M.In.wf 8 _ _ ?_ ?_) <;> first | decide | exact FLD.MCH_CFG_page _ | exact FLD.MCH_STAT_page _ | exact POS.OBS_STAT_page _
    | (with_reducible refine M.In.wf 10 _ _ ?_ ?_) <;> first | decide | exact FLD.MCH_CFG_page _ | exact FLD.MCH_STAT_page _ | exact POS.OBS_STAT_page _
    | split
    | dsimp only

theorem foot_swapBank (m bank : Nat) : (swapBank m bank).In [1, 8, 20, 33, 43, 47] := by
  unfold swapBank
  repeat' first
    | with_reducible refine M.In.bind ?_ fun _ => ?_
    | with_reducible refine M.In.ite ?_ ?_
    | with_reducible exact M.In.pure _
    | with_reducible exact M.In.getS
    | (with_reducible refine (foot_eventDev ..).mono ?_) <;> decide
    | (with_reducible refine M.In.wf 8 _ _ ?_ ?_) <;> first | decide | exact FLD.MCH_STAT_page _
    | (with_reducible refine M.In.inc 8 _ ?_ ?_) <;> first | decide | exact FLD.MCH_STAT_page _
    | split
    | dsimp only

theorem foot_mapWritten (id e n : Nat) : (mapWritten id e n).In [8, 53] := by
  unfold mapWritten
  repeat' first
    | with_reducible refine M.In.bind ?_ fun _ => ?_
    | with_reducible refine M.In.ite ?_ ?_
    | with_reducible exact M.In.pure _
    | with_reducible exact M.In.getS
    | (with_reducible refine M.In.wf 8 _ _ ?_ ?_) <;> first | decide
    | (refine M.In.hid_fld _ ?_; decide)
    | split
    | dsimp only

theorem foot_thermalFactor : (thermalFactor).In [8] := by
  unfold thermalFactor
  repeat' first
    | with_reducible refine M.In.bind ?_ fun _ => ?_
    | with_reducible refine M.In.ite ?_ ?_
    | with_reducible exact M.In.pure _
    | with_reducible exact M.In.getS
    | (with_reducible refine M.In.wf 8 _ _ ?_ ?_) <;> first | decide | exact FLD.DERATE_page _
    | with_reducible refine M.In.forM (fun _ => ?_) _
    | with_reducible refine M.In.optForM (fun _ => ?_) _
    | split
    | dsimp only

theorem foot_updDcl (f : DclSt → DclSt) : (updDcl f).In [54] := by
  unfold updDcl
  repeat' first
    | with_reducible refine M.In.bind ?_ fun _ => ?_
    | with_reducible exact M.In.pure _
    | (refine M.In.hid_dcl _ ?_; decide)
    | dsimp only

theorem foot_levelEvent (level : Nat) : (levelEvent level).In [1, 20, 33, 43, 47] := by
  unfold levelEvent
  repeat' first
    | with_reducible refine M.In.bind ?_ fun _ => ?_
    | with_reducible exact M.In.pure _
    | with_reducible exact M.In.getS
    | (with_reducible refine (foot_eventDev ..).mono ?_) <;> decide
    | dsimp only

theorem foot_showLevel : (showLevel).In [9, 54] := by
  unfold showLevel
  repeat' first
    | with_reducible refine M.In.bind ?_ fun _ => ?_
    | with_reducible refine M.In.ite ?_ ?_
    | with_reducible exact M.In.pure _
    | with_reducible exact M.In.getS
    | (with_reducible refine (foot_updDcl ..).mono ?_) <;> decide
    | (with_reducible refine M.In.wf 9 _ _ ?_ ?_) <;> first | decide
    | (with_reducible refine M.In.hidAt fun x k hk => ?_) <;> (unfold SameHid; split <;> first | rfl | exact absurd (by decide) hk)
    | split
    | dsimp only

theorem foot_levelTick : (levelTick).In [1, 20, 33, 43, 47, 54] := by
  unfold levelTick
  repeat' first
    | with_reducible refine M.In.bind ?_ fun _ => ?_
    | with_reducible refine M.In.ite ?_ ?_
    | with_reducible exact M.In.pure _
    | with_reducible exact M.In.getS
    | (with_reducible refine (foot_updDcl ..).mono ?_) <;> decide
    | (with_reducible refine (foot_levelEvent ..).mono ?_) <;> decide
    | (with_reducible refine M.In.hidAt fun x k hk => ?_) <;> (unfold SameHid; split <;> first | rfl | exact absurd (by decide) hk)
    | split
    | dsimp only

theorem foot_showClamp (m : Nat) : (showClamp m).In [8] := by
  unfold showClamp
  repeat' first
    | with_reducible refine M.In.bind ?_ fun _ => ?_
    | with_reducible exact M.In.pure _
    | with_reducible exact M.In.getS
    | (with_reducible refine M.In.wf 8 _ _ ?_ ?_) <;> first | decide | exact FLD.MCH_CFG_page _ | exact FLD.MCH_STAT_page _
    | dsimp only

theorem foot_setClamp (on : Bool) : (setClamp on).In [0, 8, 9] := by
  unfold setClamp
  repeat' first
    | with_reducible refine M.In.bind ?_ fun _ => ?_
    | with_reducible refine M.In.ite ?_ ?_
    | with_reducible exact M.In.pure _
    | with_reducible exact M.In.getS
    | (with_reducible refine (foot_showClamp ..).mono ?_) <;> decide
    | (with_reducible refine M.In.wf 0 _ _ ?_ ?_) <;> first | decide | exact FLD.MCH_CFG_page _ | exact SYS.XFER_page _
    | (with_reducible refine M.In.wf 9 _ _ ?_ ?_) <;> first | decide | exact FLD.MCH_CFG_page _ | exact SYS.XFER_page _
    | (with_reducible refine M.In.inc 0 _ ?_ ?_) <;> first | decide | exact FLD.MCH_CFG_page _ | exact SYS.XFER_page _
    | (with_reducible refine M.In.inc 9 _ ?_ ?_) <;> first | decide | exact FLD.MCH_CFG_page _ | exact SYS.XFER_page _
    | with_reducible refine M.In.forM (fun _ => ?_) _
    | with_reducible refine M.In.optForM (fun _ => ?_) _
    | split
    | dsimp only

theorem foot_levelTwo (rising : Bool) : (levelTwo rising).In [0, 1, 3, 4, 5, 6, 9, 12, 16, 17, 20, 33, 35, 43, 44, 45, 46, 47, 48, 49, 50, 54] := by
  unfold levelTwo
  repeat' first
    | with_reducible refine M.In.bind ?_ fun _ => ?_
    | with_reducible refine M.In.ite ?_ ?_
    | with_reducible exact M.In.pure _
    | with_reducible exact M.In.getS
    | (with_reducible refine (foot_tripAct ..).mono ?_) <;> decide
    | (with_reducible refine (foot_occur ..).mono ?_) <;> decide
    | (with_reducible refine (foot_updDcl ..).mono ?_) <;> decide
    | (with_reducible refine (foot_levelEvent ..).mono ?_) <;> decide
    | (with_reducible refine M.In.inc 9 _ ?_ ?_) <;> first | decide
    | with_reducible refine M.In.forM (fun _ => ?_) _
    | with_reducible refine M.In.optForM (fun _ => ?_) _
    | split
    | dsimp only

theorem foot_chopSwitch (on : Bool) : (chopSwitch on).In [0, 1, 3, 4, 5, 6, 9, 12, 16, 17, 20, 33, 35, 43, 44, 45, 46, 47, 48, 49, 50] := by
  unfold chopSwitch
  repeat' first
    | with_reducible refine M.In.bind ?_ fun _ => ?_
    | with_reducible refine M.In.ite ?_ ?_
    | with_reducible exact M.In.pure _
    | with_reducible exact M.In.getS
    | (with_reducible refine (foot_cellOff ..).mono ?_) <;> decide
    | (with_reducible refine (foot_takeOn ..).mono ?_) <;> decide
    | with_reducible refine M.In.forM (fun _ => ?_) _
    | with_reducible refine M.In.optForM (fun _ => ?_) _
    | split
    | dsimp only

theorem foot_dclEvaluation : (dclEvaluation).In [0, 1, 3, 4, 5, 6, 8, 9, 12, 16, 17, 20, 33, 35, 43, 44, 45, 46, 47, 48, 49, 50, 54] := by
  unfold dclEvaluation
  repeat' first
    | with_reducible refine M.In.bind ?_ fun _ => ?_
    | with_reducible refine M.In.ite ?_ ?_
    | with_reducible exact M.In.pure _
    | with_reducible exact M.In.getS
    | (with_reducible refine (foot_occur ..).mono ?_) <;> decide
    | (with_reducible refine (foot_updDcl ..).mono ?_) <;> decide
    | (with_reducible refine (foot_showLevel ..).mono ?_) <;> decide
    | (with_reducible refine (foot_setClamp ..).mono ?_) <;> decide
    | (with_reducible refine (foot_levelTwo ..).mono ?_) <;> decide
    | (with_reducible refine (foot_chopSwitch ..).mono ?_) <;> decide
    | (with_reducible refine M.In.wf 9 _ _ ?_ ?_) <;> first | decide
    | (with_reducible refine M.In.inc 9 _ ?_ ?_) <;> first | decide
    | (with_reducible refine M.In.hidAt fun x k hk => ?_) <;> (unfold SameHid; split <;> first | rfl | exact absurd (by decide) hk)
    | split
    | dsimp only

theorem foot_senseLost : (senseLost).In [0, 1, 3, 4, 5, 6, 8, 9, 12, 16, 17, 20, 33, 35, 43, 44, 45, 46, 47, 48, 49, 50, 54] := by
  unfold senseLost
  repeat' first
    | with_reducible refine M.In.bind ?_ fun _ => ?_
    | with_reducible refine M.In.ite ?_ ?_
    | with_reducible exact M.In.pure _
    | with_reducible exact M.In.getS
    | (with_reducible refine (foot_occur ..).mono ?_) <;> decide
    | (with_reducible refine (foot_updDcl ..).mono ?_) <;> decide
    | (with_reducible refine (foot_setClamp ..).mono ?_) <;> decide
    | (with_reducible refine M.In.wf 9 _ _ ?_ ?_) <;> first | decide
    | (with_reducible refine M.In.hidAt fun x k hk => ?_) <;> (unfold SameHid; split <;> first | rfl | exact absurd (by decide) hk)
    | split
    | dsimp only

theorem foot_ctrlWritten (old : Word) : (ctrlWritten old).In [0, 1, 3, 4, 5, 6, 8, 9, 12, 16, 17, 20, 33, 35, 43, 44, 45, 46, 47, 48, 49, 50, 54] := by
  unfold ctrlWritten
  repeat' first
    | with_reducible refine M.In.bind ?_ fun _ => ?_
    | with_reducible refine M.In.ite ?_ ?_
    | with_reducible exact M.In.pure _
    | with_reducible exact M.In.getS
    | (with_reducible refine (foot_setAvail ..).mono ?_) <;> decide
    | (with_reducible refine (foot_updDcl ..).mono ?_) <;> decide
    | (with_reducible refine (foot_showLevel ..).mono ?_) <;> decide
    | (with_reducible refine (foot_setClamp ..).mono ?_) <;> decide
    | (with_reducible refine (foot_chopSwitch ..).mono ?_) <;> decide
    | (with_reducible refine M.In.wf 9 _ _ ?_ ?_) <;> first | decide
    | split
    | dsimp only

theorem foot_linkOpen : (linkOpen).In [0, 1, 3, 4, 5, 6, 9, 12, 16, 17, 20, 33, 35, 43, 44, 45, 46, 47, 48, 49, 50] := by
  unfold linkOpen
  repeat' first
    | with_reducible refine M.In.bind ?_ fun _ => ?_
    | with_reducible exact M.In.pure _
    | (with_reducible refine (foot_emergencyStop ..).mono ?_) <;> decide
    | (with_reducible refine (foot_occur ..).mono ?_) <;> decide
    | (with_reducible refine M.In.wf 9 _ _ ?_ ?_) <;> first | decide
    | dsimp only

theorem foot_contOpen : (contOpen).In [0, 1, 3, 4, 5, 6, 9, 12, 16, 17, 20, 33, 35, 43, 44, 45, 46, 47, 48, 49, 50] := by
  unfold contOpen
  repeat' first
    | with_reducible refine M.In.bind ?_ fun _ => ?_
    | with_reducible refine M.In.ite ?_ ?_
    | with_reducible exact M.In.pure _
    | with_reducible exact M.In.getS
    | (with_reducible refine (foot_tripGroup ..).mono ?_) <;> decide
    | (with_reducible refine (foot_linkOpen ..).mono ?_) <;> decide
    | with_reducible refine M.In.forM (fun _ => ?_) _
    | with_reducible refine M.In.optForM (fun _ => ?_) _
    | split
    | dsimp only

theorem foot_watchCharge {P : List Nat} {m : M Unit} (h : m.In P) (hs : ∀ x ∈ ([0, 1, 3, 4, 5, 6, 9, 12, 16, 17, 20, 33, 35, 43, 44, 45, 46, 47, 48, 49, 50, 54] : List Nat), x ∈ P) :
    (watchCharge m).In P := by
  have h1 : (linkOpen).In P := foot_linkOpen.mono fun x hx => hs x ((by decide : ∀ y ∈ ([0, 1, 3, 4, 5, 6, 9, 12, 16, 17, 20, 33, 35, 43, 44, 45, 46, 47, 48, 49, 50] : List Nat), y ∈ ([0, 1, 3, 4, 5, 6, 9, 12, 16, 17, 20, 33, 35, 43, 44, 45, 46, 47, 48, 49, 50, 54] : List Nat)) x hx)
  have h2 : (showLevel).In P := foot_showLevel.mono fun x hx => hs x ((by decide : ∀ y ∈ ([9, 54] : List Nat), y ∈ ([0, 1, 3, 4, 5, 6, 9, 12, 16, 17, 20, 33, 35, 43, 44, 45, 46, 47, 48, 49, 50, 54] : List Nat)) x hx)
  unfold watchCharge
  refine M.In.getS.bind fun _ => h.bind fun _ => M.In.getS.bind fun _ => M.In.ite (h1.bind fun _ => h2) ?_
  exact (M.In.pure ()).bind fun _ => h2

theorem foot_chopperCheck (x : ChopCheck) : (chopperCheck x).In [0, 1, 3, 4, 5, 6, 9, 12, 16, 17, 20, 33, 35, 43, 44, 45, 46, 47, 48, 49, 50] := by
  unfold chopperCheck
  repeat' first
    | with_reducible refine M.In.bind ?_ fun _ => ?_
    | with_reducible refine M.In.ite ?_ ?_
    | with_reducible exact M.In.pure _
    | with_reducible exact M.In.getS
    | (with_reducible refine (foot_eventDev ..).mono ?_) <;> decide
    | (with_reducible refine (foot_setAvail ..).mono ?_) <;> decide
    | (with_reducible refine (foot_occurrence ..).mono ?_) <;> decide
    | (with_reducible refine (foot_chopSwitch ..).mono ?_) <;> decide
    | (with_reducible refine M.In.wf 9 _ _ ?_ ?_) <;> first | decide | exact TRP.CELL_STAT_page _
    | (with_reducible refine M.In.inc 9 _ ?_ ?_) <;> first | decide | exact TRP.CELL_STAT_page _
    | split
    | dsimp only

theorem foot_chopFaultyClear : (chopFaultyClear).In [9] := by
  unfold chopFaultyClear
  repeat' first
    | with_reducible refine M.In.bind ?_ fun _ => ?_
    | with_reducible exact M.In.pure _
    | (with_reducible refine (foot_setAvail ..).mono ?_) <;> decide
    | (with_reducible refine M.In.wf 9 _ _ ?_ ?_) <;> first | decide
    | dsimp only

theorem foot_updAct (a : Nat) (f : ActEng → ActEng) : (updAct a f).In [55] := by
  unfold updAct
  repeat' first
    | with_reducible refine M.In.bind ?_ fun _ => ?_
    | with_reducible exact M.In.pure _
    | (refine M.In.hid_act _ ?_; decide)
    | dsimp only

theorem foot_actEvent (a old new cause : Nat) : (actEvent a old new cause).In [1, 20, 33, 43, 47] := by
  unfold actEvent
  repeat' first
    | with_reducible refine M.In.bind ?_ fun _ => ?_
    | with_reducible exact M.In.pure _
    | (with_reducible refine (foot_eventDev ..).mono ?_) <;> decide
    | dsimp only

theorem foot_setAct (a new cause : Nat) : (setAct a new cause).In [1, 11, 20, 33, 43, 47] := by
  unfold setAct
  repeat' first
    | with_reducible refine M.In.bind ?_ fun _ => ?_
    | with_reducible refine M.In.ite ?_ ?_
    | with_reducible exact M.In.pure _
    | with_reducible exact M.In.rf _
    | (with_reducible refine (foot_actEvent ..).mono ?_) <;> decide
    | (with_reducible refine M.In.wf 11 _ _ ?_ ?_) <;> first | decide | exact ACT.STAT_page _
    | split
    | dsimp only

theorem foot_actFail (a src : Nat) : (actFail a src).In [0, 1, 3, 4, 5, 6, 9, 11, 12, 16, 17, 20, 33, 35, 43, 44, 45, 46, 47, 48, 49, 50, 55] := by
  unfold actFail
  repeat' first
    | with_reducible refine M.In.bind ?_ fun _ => ?_
    | with_reducible refine M.In.ite ?_ ?_
    | with_reducible exact M.In.pure _
    | with_reducible exact M.In.rf _
    | (with_reducible refine (foot_occurrence ..).mono ?_) <;> decide
    | (with_reducible refine (foot_updAct ..).mono ?_) <;> decide
    | (with_reducible refine (foot_setAct ..).mono ?_) <;> decide
    | split
    | dsimp only

theorem foot_armCompare (a u : Nat) (at_ : Int) (fwd : Bool) : (armCompare a u at_ fwd).In [0, 1, 10, 20, 33, 43, 47, 52] := by
  unfold armCompare
  repeat' first
    | with_reducible refine M.In.bind ?_ fun _ => ?_
    | with_reducible refine M.In.ite ?_ ?_
    | with_reducible exact M.In.pure _
    | with_reducible exact M.In.getS
    | (with_reducible refine (foot_pcmpArm ..).mono ?_) <;> decide
    | (with_reducible refine M.In.wf 0 _ _ ?_ ?_) <;> first | decide | exact ACT.CFG_page _ | exact POS.PCMP_CFG_page _ _ | exact POS.PCMP_TGT_page _ _ | exact SYS.XFER_page _
    | (with_reducible refine M.In.wf 10 _ _ ?_ ?_) <;> first | decide | exact ACT.CFG_page _ | exact POS.PCMP_CFG_page _ _ | exact POS.PCMP_TGT_page _ _ | exact SYS.XFER_page _
    | (with_reducible refine M.In.inc 0 _ ?_ ?_) <;> first | decide | exact ACT.CFG_page _ | exact POS.PCMP_CFG_page _ _ | exact POS.PCMP_TGT_page _ _ | exact SYS.XFER_page _
    | (with_reducible refine M.In.inc 10 _ ?_ ?_) <;> first | decide | exact ACT.CFG_page _ | exact POS.PCMP_CFG_page _ _ | exact POS.PCMP_TGT_page _ _ | exact SYS.XFER_page _
    | split
    | dsimp only

theorem foot_pumpTarget (was goal : Int) : (pumpTarget was goal).In [1, 11, 20, 33, 42, 43, 47, 55] := by
  unfold pumpTarget
  repeat' first
    | with_reducible refine M.In.bind ?_ fun _ => ?_
    | with_reducible refine M.In.ite ?_ ?_
    | with_reducible exact M.In.pure _
    | with_reducible exact M.In.getS
    | (with_reducible refine (foot_updAct ..).mono ?_) <;> decide
    | (with_reducible refine (foot_setAct ..).mono ?_) <;> decide
    | (with_reducible refine M.In.fresh ?_) <;> decide
    | (with_reducible refine M.In.freshBytes _ ?_) <;> decide
    | (with_reducible refine M.In.freshRats _ ?_) <;> decide
    | split
    | dsimp only

theorem foot_startMove (a target : Nat) : (startMove a target).In [0, 1, 2, 3, 4, 5, 6, 7, 9, 10, 11, 12, 16, 17, 20, 33, 35, 42, 43, 44, 45, 46, 47, 48, 49, 50, 52, 55] := by
  unfold startMove
  repeat' first
    | with_reducible refine M.In.bind ?_ fun _ => ?_
    | with_reducible refine M.In.ite ?_ ?_
    | with_reducible exact M.In.pure _
    | with_reducible exact M.In.getS
    | (with_reducible refine (foot_reach ..).mono ?_) <;> decide
    | (with_reducible refine (foot_updAct ..).mono ?_) <;> decide
    | (with_reducible refine (foot_setAct ..).mono ?_) <;> decide
    | (with_reducible refine (foot_armCompare ..).mono ?_) <;> decide
    | (with_reducible refine (foot_pumpTarget ..).mono ?_) <;> decide
    | (with_reducible refine M.In.wf 11 _ _ ?_ ?_) <;> first | decide | exact ACT.CFG_page _ | exact ACT.GEAR_page _ | exact ACT.MOVE_page _ | exact ACT.STAT_page _
    | (with_reducible refine M.In.inc 11 _ ?_ ?_) <;> first | decide | exact ACT.CFG_page _ | exact ACT.GEAR_page _ | exact ACT.MOVE_page _ | exact ACT.STAT_page _
    | (with_reducible refine M.In.fresh ?_) <;> decide
    | (with_reducible refine M.In.freshBytes _ ?_) <;> decide
    | (with_reducible refine M.In.freshRats _ ?_) <;> decide
    | (refine M.In.hid_pos _ ?_; decide)
    | split
    | dsimp only

theorem foot_actGo (a target : Nat) : (actGo a target).In [0, 1, 2, 3, 4, 5, 6, 7, 9, 10, 11, 12, 16, 17, 20, 33, 35, 42, 43, 44, 45, 46, 47, 48, 49, 50, 52, 55] := by
  unfold actGo
  repeat' first
    | with_reducible refine M.In.bind ?_ fun _ => ?_
    | with_reducible refine M.In.ite ?_ ?_
    | with_reducible exact M.In.pure _
    | with_reducible exact M.In.getS
    | (with_reducible refine (foot_updAct ..).mono ?_) <;> decide
    | (with_reducible refine (foot_startMove ..).mono ?_) <;> decide
    | (with_reducible refine M.In.fresh ?_) <;> decide
    | (with_reducible refine M.In.freshBytes _ ?_) <;> decide
    | (with_reducible refine M.In.freshRats _ ?_) <;> decide
    | split
    | dsimp only

theorem foot_actStop (a : Nat) : (actStop a).In [1, 11, 20, 33, 43, 47, 55] := by
  unfold actStop
  repeat' first
    | with_reducible refine M.In.bind ?_ fun _ => ?_
    | with_reducible refine M.In.ite ?_ ?_
    | with_reducible exact M.In.pure _
    | with_reducible exact M.In.getS
    | (with_reducible refine (foot_updAct ..).mono ?_) <;> decide
    | (with_reducible refine (foot_setAct ..).mono ?_) <;> decide
    | split
    | dsimp only

theorem foot_legsOff (g legs : Nat) : (legsOff g legs).In [0, 3, 6, 44, 50] := by
  unfold legsOff
  repeat' first
    | with_reducible refine M.In.bind ?_ fun _ => ?_
    | with_reducible refine M.In.ite ?_ ?_
    | with_reducible exact M.In.pure _
    | with_reducible exact M.In.getS
    | (with_reducible refine (foot_postLeg ..).mono ?_) <;> decide
    | with_reducible refine M.In.forM (fun _ => ?_) _
    | with_reducible refine M.In.optForM (fun _ => ?_) _
    | split
    | dsimp only

theorem foot_postDuties (g : Nat) (duties : List Fl) : (postDuties g duties).In [0, 3, 6, 42, 44, 50] := by
  unfold postDuties
  repeat' first
    | with_reducible refine M.In.bind ?_ fun _ => ?_
    | with_reducible exact M.In.pure _
    | with_reducible exact M.In.getS
    | (with_reducible refine (foot_ufield ..).mono ?_) <;> decide
    | (with_reducible refine (foot_postLeg ..).mono ?_) <;> decide
    | (with_reducible refine M.In.fresh ?_) <;> decide
    | (with_reducible refine M.In.freshBytes _ ?_) <;> decide
    | (with_reducible refine M.In.freshRats _ ?_) <;> decide
    | with_reducible refine M.In.forM (fun _ => ?_) _
    | with_reducible refine M.In.optForM (fun _ => ?_) _
    | dsimp only

theorem foot_actControl (a g : Nat) (idq : Fl × Fl) (theta we vbus iq : Fl) : (actControl a g idq theta we vbus iq).In [0, 3, 6, 11, 42, 44, 50, 55] := by
  unfold actControl
  repeat' first
    | with_reducible refine M.In.bind ?_ fun _ => ?_
    | with_reducible refine M.In.ite ?_ ?_
    | with_reducible exact M.In.pure _
    | with_reducible exact M.In.getS
    | (with_reducible refine (foot_updAct ..).mono ?_) <;> decide
    | (with_reducible refine (foot_postDuties ..).mono ?_) <;> decide
    | (with_reducible refine M.In.wf 11 _ _ ?_ ?_) <;> first | decide | exact ACT.STAT_page _
    | (with_reducible refine M.In.inc 11 _ ?_ ?_) <;> first | decide | exact ACT.STAT_page _
    | (with_reducible refine M.In.fresh ?_) <;> decide
    | (with_reducible refine M.In.freshBytes _ ?_) <;> decide
    | (with_reducible refine M.In.freshRats _ ?_) <;> decide
    | split
    | dsimp only

theorem foot_actOff (a g : Nat) : (actOff a g).In [0, 3, 6, 11, 44, 50] := by
  unfold actOff
  repeat' first
    | with_reducible refine M.In.bind ?_ fun _ => ?_
    | with_reducible exact M.In.pure _
    | (with_reducible refine (foot_legsOff ..).mono ?_) <;> decide
    | (with_reducible refine M.In.wf 11 _ _ ?_ ?_) <;> first | decide | exact ACT.STAT_page _
    | split
    | dsimp only

theorem foot_commitVolts (a g : Nat) (v : Fl × Fl) : (commitVolts a g v).In [0, 3, 6, 44, 50, 55] := by
  unfold commitVolts
  repeat' first
    | with_reducible refine M.In.bind ?_ fun _ => ?_
    | with_reducible refine M.In.ite ?_ ?_
    | with_reducible exact M.In.pure _
    | (with_reducible refine (foot_loopCommit ..).mono ?_) <;> decide
    | (with_reducible refine (foot_updAct ..).mono ?_) <;> decide
    | split
    | dsimp only

theorem foot_parkOutcome (g : Nat) (n iq : Fl) : (parkOutcome g n iq).In [0, 1, 3, 4, 5, 6, 9, 11, 12, 16, 17, 20, 33, 35, 43, 44, 45, 46, 47, 48, 49, 50, 55] := by
  unfold parkOutcome
  repeat' first
    | with_reducible refine M.In.bind ?_ fun _ => ?_
    | with_reducible refine M.In.ite ?_ ?_
    | with_reducible exact M.In.pure _
    | with_reducible exact M.In.getS
    | (with_reducible refine (foot_updAct ..).mono ?_) <;> decide
    | (with_reducible refine (foot_setAct ..).mono ?_) <;> decide
    | (with_reducible refine (foot_actFail ..).mono ?_) <;> decide
    | (with_reducible refine M.In.wf 11 _ _ ?_ ?_) <;> first | decide | exact ACT.CFG_page _ | exact ACT.LIMITS_page _ | exact ACT.MOVE_page _ | exact ACT.STAT_page _
    | split
    | dsimp only

theorem foot_reachTest (a : Nat) (n : Fl) : (reachTest a n).In [0, 1, 2, 3, 4, 5, 6, 7, 9, 11, 12, 16, 17, 20, 33, 35, 43, 44, 45, 46, 47, 48, 49, 50, 55] := by
  unfold reachTest
  repeat' first
    | with_reducible refine M.In.bind ?_ fun _ => ?_
    | with_reducible refine M.In.ite ?_ ?_
    | with_reducible exact M.In.pure _
    | with_reducible exact M.In.getS
    | (with_reducible refine (foot_reach ..).mono ?_) <;> decide
    | (with_reducible refine (foot_updAct ..).mono ?_) <;> decide
    | (with_reducible refine (foot_setAct ..).mono ?_) <;> decide
    | split
    | dsimp only

theorem foot_takeMatches (a : Nat) : (takeMatches a).In [0, 1, 2, 3, 4, 5, 6, 7, 9, 10, 11, 12, 16, 17, 20, 33, 35, 42, 43, 44, 45, 46, 47, 48, 49, 50, 52, 55] := by
  unfold takeMatches
  repeat' first
    | with_reducible refine M.In.bind ?_ fun _ => ?_
    | with_reducible refine M.In.ite ?_ ?_
    | with_reducible exact M.In.pure _
    | with_reducible exact M.In.getS
    | (with_reducible refine (foot_actEvent ..).mono ?_) <;> decide
    | (with_reducible refine (foot_startMove ..).mono ?_) <;> decide
    | (with_reducible refine M.In.wf 11 _ _ ?_ ?_) <;> first | decide | exact ACT.CFG_page _ | exact ACT.GEAR_page _ | exact ACT.STAT_page _
    | (with_reducible refine M.In.inc 11 _ ?_ ?_) <;> first | decide | exact ACT.CFG_page _ | exact ACT.GEAR_page _ | exact ACT.STAT_page _
    | (with_reducible refine M.In.fresh ?_) <;> decide
    | (with_reducible refine M.In.freshBytes _ ?_) <;> decide
    | (with_reducible refine M.In.freshRats _ ?_) <;> decide
    | (refine M.In.hid_pos _ ?_; decide)
    | split
    | dsimp only

theorem foot_followTravel (a : Nat) : (followTravel a).In [11, 55] := by
  unfold followTravel
  repeat' first
    | with_reducible refine M.In.bind ?_ fun _ => ?_
    | with_reducible refine M.In.ite ?_ ?_
    | with_reducible exact M.In.pure _
    | with_reducible exact M.In.getS
    | (with_reducible refine (foot_updAct ..).mono ?_) <;> decide
    | (with_reducible refine M.In.wr 11 _ _ ?_ ?_) <;> first | decide | exact ACT.CFG_page _ | exact ACT.TRAVEL_page _ | exact POS.QUAD_page _
    | split
    | dsimp only

theorem foot_slsMonitor (a g : Nat) : (slsMonitor a g).In [0, 1, 3, 4, 5, 6, 9, 12, 16, 17, 20, 33, 35, 43, 44, 45, 46, 47, 48, 49, 50, 55] := by
  unfold slsMonitor
  repeat' first
    | with_reducible refine M.In.bind ?_ fun _ => ?_
    | with_reducible refine M.In.ite ?_ ?_
    | with_reducible exact M.In.pure _
    | with_reducible exact M.In.getS
    | (with_reducible refine (foot_momentary ..).mono ?_) <;> decide
    | (with_reducible refine (foot_occur ..).mono ?_) <;> decide
    | (with_reducible refine (foot_updAct ..).mono ?_) <;> decide
    | (with_reducible refine M.In.inc 16 _ ?_ ?_) <;> first | decide | exact ACT.CFG_page _ | exact SAF.FUNC_CFG_page _ | exact SAF.SLS_page _
    | split
    | dsimp only

theorem foot_slsAt (k : Nat) : (slsAt k).In [0, 1, 3, 4, 5, 6, 9, 12, 16, 17, 20, 33, 35, 43, 44, 45, 46, 47, 48, 49, 50, 55] := by
  unfold slsAt
  repeat' first
    | with_reducible refine M.In.bind ?_ fun _ => ?_
    | with_reducible refine M.In.ite ?_ ?_
    | with_reducible exact M.In.pure _
    | with_reducible exact M.In.getS
    | (with_reducible refine (foot_slsMonitor ..).mono ?_) <;> decide
    | with_reducible refine M.In.forM (fun _ => ?_) _
    | with_reducible refine M.In.optForM (fun _ => ?_) _
    | split
    | dsimp only

theorem foot_pumpObserver (tw va vb ia ib : Fl) (induced : Bool) : (pumpObserver tw va vb ia ib induced).In [0, 1, 3, 4, 5, 6, 9, 10, 12, 16, 17, 20, 33, 35, 42, 43, 44, 45, 46, 47, 48, 49, 50, 52, 55] := by
  unfold pumpObserver
  repeat' first
    | with_reducible refine M.In.bind ?_ fun _ => ?_
    | with_reducible refine M.In.ite ?_ ?_
    | with_reducible exact M.In.pure _
    | with_reducible exact M.In.getS
    | (with_reducible refine (foot_observerFeeds ..).mono ?_) <;> decide
    | (with_reducible refine (foot_field ..).mono ?_) <;> decide
    | (with_reducible refine (foot_updAct ..).mono ?_) <;> decide
    | (with_reducible refine M.In.fresh ?_) <;> decide
    | (with_reducible refine M.In.freshBytes _ ?_) <;> decide
    | (with_reducible refine M.In.freshRats _ ?_) <;> decide
    | split
    | dsimp only

theorem foot_pumpCatch : (pumpCatch).In [1, 11, 20, 33, 43, 47, 55] := by
  unfold pumpCatch
  repeat' first
    | with_reducible refine M.In.bind ?_ fun _ => ?_
    | with_reducible refine M.In.ite ?_ ?_
    | with_reducible exact M.In.pure _
    | with_reducible exact M.In.getS
    | (with_reducible refine (foot_updAct ..).mono ?_) <;> decide
    | (with_reducible refine (foot_setAct ..).mono ?_) <;> decide
    | split
    | dsimp only

theorem foot_pumpLost (g : Nat) : (pumpLost g).In [0, 1, 3, 4, 5, 6, 9, 11, 12, 16, 17, 20, 33, 35, 43, 44, 45, 46, 47, 48, 49, 50, 55] := by
  unfold pumpLost
  repeat' first
    | with_reducible refine M.In.bind ?_ fun _ => ?_
    | with_reducible exact M.In.pure _
    | (with_reducible refine (foot_occur ..).mono ?_) <;> decide
    | (with_reducible refine (foot_updAct ..).mono ?_) <;> decide
    | (with_reducible refine (foot_setAct ..).mono ?_) <;> decide
    | dsimp only

theorem foot_pumpTakeOver (ia ib : Fl) : (pumpTakeOver ia ib).In [1, 11, 20, 33, 43, 47, 55] := by
  unfold pumpTakeOver
  repeat' first
    | with_reducible refine M.In.bind ?_ fun _ => ?_
    | with_reducible exact M.In.pure _
    | with_reducible exact M.In.getS
    | (with_reducible refine (foot_updAct ..).mono ?_) <;> decide
    | (with_reducible refine (foot_setAct ..).mono ?_) <;> decide
    | dsimp only

theorem foot_pumpPhase (g : Nat) (ia ib tw : Fl) : (pumpPhase g ia ib tw).In [0, 1, 3, 4, 5, 6, 9, 11, 12, 16, 17, 20, 33, 35, 43, 44, 45, 46, 47, 48, 49, 50, 55] := by
  unfold pumpPhase
  repeat' first
    | with_reducible refine M.In.bind ?_ fun _ => ?_
    | with_reducible refine M.In.ite ?_ ?_
    | with_reducible exact M.In.pure _
    | with_reducible exact M.In.getS
    | (with_reducible refine (foot_updAct ..).mono ?_) <;> decide
    | (with_reducible refine (foot_setAct ..).mono ?_) <;> decide
    | (with_reducible refine (foot_pumpCatch ..).mono ?_) <;> decide
    | (with_reducible refine (foot_pumpLost ..).mono ?_) <;> decide
    | (with_reducible refine (foot_pumpTakeOver ..).mono ?_) <;> decide
    | split
    | dsimp only

theorem foot_pumpLegs (g : Nat) (ia ib vbus : Fl) : (pumpLegs g ia ib vbus).In [0, 3, 6, 11, 42, 44, 50, 55] := by
  unfold pumpLegs
  repeat' first
    | with_reducible refine M.In.bind ?_ fun _ => ?_
    | with_reducible refine M.In.ite ?_ ?_
    | with_reducible exact M.In.pure _
    | with_reducible exact M.In.getS
    | (with_reducible refine (foot_updAct ..).mono ?_) <;> decide
    | (with_reducible refine (foot_actControl ..).mono ?_) <;> decide
    | (with_reducible refine (foot_actOff ..).mono ?_) <;> decide
    | (with_reducible refine M.In.fresh ?_) <;> decide
    | (with_reducible refine M.In.freshBytes _ ?_) <;> decide
    | (with_reducible refine M.In.freshRats _ ?_) <;> decide
    | split
    | dsimp only

theorem foot_pumpEvaluation (g : Nat) (ia ib vbus tw : Fl) : (pumpEvaluation g ia ib vbus tw).In [0, 1, 3, 4, 5, 6, 9, 10, 11, 12, 16, 17, 20, 33, 35, 42, 43, 44, 45, 46, 47, 48, 49, 50, 52, 55] := by
  unfold pumpEvaluation
  repeat' first
    | with_reducible refine M.In.bind ?_ fun _ => ?_
    | with_reducible refine M.In.ite ?_ ?_
    | with_reducible exact M.In.pure _
    | with_reducible exact M.In.getS
    | (with_reducible refine (foot_pumpObserver ..).mono ?_) <;> decide
    | (with_reducible refine (foot_pumpPhase ..).mono ?_) <;> decide
    | (with_reducible refine (foot_pumpLegs ..).mono ?_) <;> decide
    | (with_reducible refine M.In.fresh ?_) <;> decide
    | (with_reducible refine M.In.freshBytes _ ?_) <;> decide
    | (with_reducible refine M.In.freshRats _ ?_) <;> decide
    | split
    | dsimp only

theorem foot_pumpRestart : (pumpRestart).In [1, 11, 20, 33, 43, 47, 55] := by
  unfold pumpRestart
  repeat' first
    | with_reducible refine M.In.bind ?_ fun _ => ?_
    | with_reducible refine M.In.ite ?_ ?_
    | with_reducible exact M.In.pure _
    | with_reducible exact M.In.getS
    | (with_reducible refine (foot_updAct ..).mono ?_) <;> decide
    | (with_reducible refine (foot_setAct ..).mono ?_) <;> decide
    | split
    | dsimp only

theorem foot_takeWaiting (a : Nat) : (takeWaiting a).In [0, 1, 2, 3, 4, 5, 6, 7, 9, 10, 11, 12, 16, 17, 20, 33, 35, 42, 43, 44, 45, 46, 47, 48, 49, 50, 52, 55] := by
  unfold takeWaiting
  repeat' first
    | with_reducible refine M.In.bind ?_ fun _ => ?_
    | with_reducible refine M.In.ite ?_ ?_
    | with_reducible exact M.In.pure _
    | with_reducible exact M.In.getS
    | (with_reducible refine (foot_updAct ..).mono ?_) <;> decide
    | (with_reducible refine (foot_startMove ..).mono ?_) <;> decide
    | (with_reducible refine (foot_actStop ..).mono ?_) <;> decide
    | (with_reducible refine M.In.fresh ?_) <;> decide
    | (with_reducible refine M.In.freshBytes _ ?_) <;> decide
    | (with_reducible refine M.In.freshRats _ ?_) <;> decide
    | split
    | dsimp only

theorem foot_actDrive (a g : Nat) (ia ib vbus : Fl) : (actDrive a g ia ib vbus).In [0, 1, 2, 3, 4, 5, 6, 7, 9, 11, 12, 16, 17, 20, 33, 35, 42, 43, 44, 45, 46, 47, 48, 49, 50, 55] := by
  unfold actDrive
  repeat' first
    | with_reducible refine M.In.bind ?_ fun _ => ?_
    | with_reducible refine M.In.ite ?_ ?_
    | with_reducible exact M.In.pure _
    | with_reducible exact M.In.getS
    | (with_reducible refine (foot_updAct ..).mono ?_) <;> decide
    | (with_reducible refine (foot_actControl ..).mono ?_) <;> decide
    | (with_reducible refine (foot_actOff ..).mono ?_) <;> decide
    | (with_reducible refine (foot_parkOutcome ..).mono ?_) <;> decide
    | (with_reducible refine (foot_reachTest ..).mono ?_) <;> decide
    | (with_reducible refine M.In.fresh ?_) <;> decide
    | (with_reducible refine M.In.freshBytes _ ?_) <;> decide
    | (with_reducible refine M.In.freshRats _ ?_) <;> decide
    | split
    | dsimp only

theorem foot_parkHold (g : Nat) : (parkHold g).In [0, 3, 6, 11, 42, 44, 50, 55] := by
  unfold parkHold
  repeat' first
    | with_reducible refine M.In.bind ?_ fun _ => ?_
    | with_reducible exact M.In.pure _
    | with_reducible exact M.In.getS
    | (with_reducible refine (foot_postDuties ..).mono ?_) <;> decide
    | (with_reducible refine (foot_commitVolts ..).mono ?_) <;> decide
    | (with_reducible refine (foot_followTravel ..).mono ?_) <;> decide
    | (with_reducible refine M.In.fresh ?_) <;> decide
    | (with_reducible refine M.In.freshBytes _ ?_) <;> decide
    | (with_reducible refine M.In.freshRats _ ?_) <;> decide
    | dsimp only

theorem foot_actStep (a g : Nat) (i : List Fl) (vbus : Fl) : (actStep a g i vbus).In [0, 1, 2, 3, 4, 5, 6, 7, 9, 10, 11, 12, 16, 17, 20, 33, 35, 42, 43, 44, 45, 46, 47, 48, 49, 50, 52, 55] := by
  unfold actStep
  repeat' first
    | with_reducible refine M.In.bind ?_ fun _ => ?_
    | with_reducible refine M.In.ite ?_ ?_
    | with_reducible exact M.In.pure _
    | with_reducible exact M.In.getS
    | (with_reducible refine (foot_commitVolts ..).mono ?_) <;> decide
    | (with_reducible refine (foot_takeMatches ..).mono ?_) <;> decide
    | (with_reducible refine (foot_followTravel ..).mono ?_) <;> decide
    | (with_reducible refine (foot_pumpEvaluation ..).mono ?_) <;> decide
    | (with_reducible refine (foot_takeWaiting ..).mono ?_) <;> decide
    | (with_reducible refine (foot_actDrive ..).mono ?_) <;> decide
    | (with_reducible refine M.In.fresh ?_) <;> decide
    | (with_reducible refine M.In.freshBytes _ ?_) <;> decide
    | (with_reducible refine M.In.freshRats _ ?_) <;> decide
    | split
    | dsimp only

theorem foot_actuatorEvaluation (a : Nat) : (actuatorEvaluation a).In [0, 1, 2, 3, 4, 5, 6, 7, 9, 10, 11, 12, 16, 17, 20, 33, 35, 42, 43, 44, 45, 46, 47, 48, 49, 50, 52, 55] := by
  unfold actuatorEvaluation
  repeat' first
    | with_reducible refine M.In.bind ?_ fun _ => ?_
    | with_reducible refine M.In.ite ?_ ?_
    | with_reducible exact M.In.pure _
    | with_reducible exact M.In.getS
    | (with_reducible refine (foot_occur ..).mono ?_) <;> decide
    | (with_reducible refine (foot_loopCommit ..).mono ?_) <;> decide
    | (with_reducible refine (foot_updAct ..).mono ?_) <;> decide
    | (with_reducible refine (foot_parkHold ..).mono ?_) <;> decide
    | (with_reducible refine (foot_actStep ..).mono ?_) <;> decide
    | (with_reducible refine M.In.inc 11 _ ?_ ?_) <;> first | decide | exact ACT.CFG_page _ | exact ACT.SCALE_page _ | exact ACT.SLOTS_page _ | exact ACT.STAT_page _
    | (with_reducible refine M.In.fresh ?_) <;> decide
    | (with_reducible refine M.In.freshBytes _ ?_) <;> decide
    | (with_reducible refine M.In.freshRats _ ?_) <;> decide
    | (with_reducible refine M.In.hidAt fun x k hk => ?_) <;> (unfold SameHid; split <;> first | rfl | exact absurd (by decide) hk)
    | split
    | dsimp only

theorem foot_moveTimeout (a : Nat) : (moveTimeout a).In [0, 1, 3, 4, 5, 6, 9, 11, 12, 16, 17, 20, 33, 35, 43, 44, 45, 46, 47, 48, 49, 50, 55] := by
  unfold moveTimeout
  repeat' first
    | with_reducible refine M.In.bind ?_ fun _ => ?_
    | with_reducible refine M.In.ite ?_ ?_
    | with_reducible exact M.In.pure _
    | with_reducible exact M.In.getS
    | (with_reducible refine (foot_actFail ..).mono ?_) <;> decide
    | (with_reducible refine M.In.wf 11 _ _ ?_ ?_) <;> first | decide | exact ACT.STAT_page _
    | split
    | dsimp only

theorem foot_actEnable (a : Nat) : (actEnable a).In [0, 1, 2, 3, 4, 5, 6, 7, 9, 11, 12, 16, 17, 20, 33, 35, 43, 44, 45, 46, 47, 48, 49, 50, 55] := by
  unfold actEnable
  repeat' first
    | with_reducible refine M.In.bind ?_ fun _ => ?_
    | with_reducible exact M.In.pure _
    | with_reducible exact M.In.getS
    | (with_reducible refine (foot_reach ..).mono ?_) <;> decide
    | (with_reducible refine (foot_updAct ..).mono ?_) <;> decide
    | (with_reducible refine (foot_setAct ..).mono ?_) <;> decide
    | dsimp only

theorem foot_setCpl (new : Nat) : (setCpl new).In [1, 11, 20, 33, 43, 47] := by
  unfold setCpl
  repeat' first
    | with_reducible refine M.In.bind ?_ fun _ => ?_
    | with_reducible refine M.In.ite ?_ ?_
    | with_reducible exact M.In.pure _
    | with_reducible exact M.In.rf _
    | (with_reducible refine (foot_eventDev ..).mono ?_) <;> decide
    | (with_reducible refine M.In.wf 11 _ _ ?_ ?_) <;> first | decide
    | split
    | dsimp only

theorem foot_cplDrive (cmd : Nat) : (cplDrive cmd).In [1, 11, 20, 33, 43, 47] := by
  unfold cplDrive
  repeat' first
    | with_reducible refine M.In.bind ?_ fun _ => ?_
    | with_reducible refine M.In.ite ?_ ?_
    | with_reducible exact M.In.pure _
    | with_reducible exact M.In.getS
    | (with_reducible refine (foot_setCpl ..).mono ?_) <;> decide
    | split
    | dsimp only

theorem foot_cplCommand (cmd : Nat) : (cplCommand cmd).In [1, 11, 20, 33, 43, 47, 55] := by
  unfold cplCommand
  repeat' first
    | with_reducible refine M.In.bind ?_ fun _ => ?_
    | with_reducible refine M.In.ite ?_ ?_
    | with_reducible exact M.In.pure _
    | with_reducible exact M.In.getS
    | (with_reducible refine (foot_setCpl ..).mono ?_) <;> decide
    | (with_reducible refine (foot_cplDrive ..).mono ?_) <;> decide
    | (refine M.In.hid_act _ ?_; decide)
    | split
    | dsimp only

theorem foot_cplReverse : (cplReverse).In [1, 11, 20, 33, 43, 47, 55] := by
  unfold cplReverse
  repeat' first
    | with_reducible refine M.In.bind ?_ fun _ => ?_
    | with_reducible refine M.In.ite ?_ ?_
    | with_reducible exact M.In.pure _
    | with_reducible exact M.In.getS
    | (with_reducible refine (foot_cplDrive ..).mono ?_) <;> decide
    | (refine M.In.hid_act _ ?_; decide)
    | split
    | dsimp only

theorem foot_cplEvaluation : (cplEvaluation).In [0, 1, 3, 6, 11, 20, 33, 43, 44, 47, 50, 55] := by
  unfold cplEvaluation
  repeat' first
    | with_reducible refine M.In.bind ?_ fun _ => ?_
    | with_reducible refine M.In.ite ?_ ?_
    | with_reducible exact M.In.pure _
    | with_reducible exact M.In.getS
    | (with_reducible refine (foot_loopCommit ..).mono ?_) <;> decide
    | (with_reducible refine (foot_postLeg ..).mono ?_) <;> decide
    | (with_reducible refine (foot_legsOff ..).mono ?_) <;> decide
    | (with_reducible refine (foot_cplCommand ..).mono ?_) <;> decide
    | (refine M.In.hid_act _ ?_; decide)
    | split
    | dsimp only

theorem foot_cplSwitch (level : Bool) : (cplSwitch level).In [0, 1, 3, 4, 5, 6, 9, 11, 12, 16, 17, 20, 33, 35, 43, 44, 45, 46, 47, 48, 49, 50] := by
  unfold cplSwitch
  repeat' first
    | with_reducible refine M.In.bind ?_ fun _ => ?_
    | with_reducible refine M.In.ite ?_ ?_
    | with_reducible exact M.In.pure _
    | with_reducible exact M.In.getS
    | (with_reducible refine (foot_emergencyStop ..).mono ?_) <;> decide
    | (with_reducible refine (foot_occur ..).mono ?_) <;> decide
    | (with_reducible refine (foot_setCpl ..).mono ?_) <;> decide
    | (with_reducible refine M.In.wf 11 _ _ ?_ ?_) <;> first | decide
    | (with_reducible refine M.In.inc 11 _ ?_ ?_) <;> first | decide
    | split
    | dsimp only

theorem foot_cplTimeout : (cplTimeout).In [0, 1, 3, 4, 5, 6, 9, 11, 12, 16, 17, 20, 33, 35, 43, 44, 45, 46, 47, 48, 49, 50] := by
  unfold cplTimeout
  repeat' first
    | with_reducible refine M.In.bind ?_ fun _ => ?_
    | with_reducible refine M.In.ite ?_ ?_
    | with_reducible exact M.In.pure _
    | with_reducible exact M.In.getS
    | (with_reducible refine (foot_occur ..).mono ?_) <;> decide
    | (with_reducible refine (foot_setCpl ..).mono ?_) <;> decide
    | (with_reducible refine M.In.inc 11 _ ?_ ?_) <;> first | decide
    | split
    | dsimp only

theorem foot_updAfe (f : AfeSt → AfeSt) : (updAfe f).In [56] := by
  unfold updAfe
  repeat' first
    | with_reducible refine M.In.bind ?_ fun _ => ?_
    | with_reducible exact M.In.pure _
    | (refine M.In.hid_afe _ ?_; decide)
    | dsimp only

theorem foot_chgOccur (src inst detail : Nat) : (chgOccur src inst detail).In [0, 1, 3, 4, 5, 6, 9, 12, 16, 17, 20, 33, 35, 43, 44, 45, 46, 47, 48, 49, 50] := by
  unfold chgOccur
  repeat' first
    | with_reducible refine M.In.bind ?_ fun _ => ?_
    | with_reducible refine M.In.ite ?_ ?_
    | with_reducible exact M.In.pure _
    | with_reducible exact M.In.rf _
    | (with_reducible refine (foot_setChg ..).mono ?_) <;> decide
    | (with_reducible refine (foot_emergencyStop ..).mono ?_) <;> decide
    | (with_reducible refine (foot_occurrence ..).mono ?_) <;> decide
    | split
    | dsimp only

theorem foot_pllStep (g : Nat) : (pllStep g).In [8, 42, 56] := by
  unfold pllStep
  repeat' first
    | with_reducible refine M.In.bind ?_ fun _ => ?_
    | with_reducible refine M.In.ite ?_ ?_
    | with_reducible exact M.In.pure _
    | with_reducible exact M.In.getS
    | (with_reducible refine (foot_ufield ..).mono ?_) <;> decide
    | (with_reducible refine (foot_updAfe ..).mono ?_) <;> decide
    | (with_reducible refine M.In.wf 8 _ _ ?_ ?_) <;> first | decide
    | (with_reducible refine M.In.fresh ?_) <;> decide
    | (with_reducible refine M.In.freshBytes _ ?_) <;> decide
    | (with_reducible refine M.In.freshRats _ ?_) <;> decide
    | (with_reducible refine M.In.hidAt fun x k hk => ?_) <;> (unfold SameHid; split <;> first | rfl | exact absurd (by decide) hk)
    | split
    | dsimp only

theorem foot_trackingEvaluation : (trackingEvaluation).In [8, 42, 56] := by
  unfold trackingEvaluation
  repeat' first
    | with_reducible refine M.In.bind ?_ fun _ => ?_
    | with_reducible refine M.In.ite ?_ ?_
    | with_reducible exact M.In.pure _
    | with_reducible exact M.In.getS
    | (with_reducible refine (foot_updAfe ..).mono ?_) <;> decide
    | (with_reducible refine (foot_pllStep ..).mono ?_) <;> decide
    | (with_reducible refine M.In.fresh ?_) <;> decide
    | (with_reducible refine M.In.freshBytes _ ?_) <;> decide
    | (with_reducible refine M.In.freshRats _ ?_) <;> decide
    | (with_reducible refine M.In.hidAt fun x k hk => ?_) <;> (unfold SameHid; split <;> first | rfl | exact absurd (by decide) hk)
    | split
    | dsimp only

theorem foot_afeLoops (g : Nat) (i : List Fl) : (afeLoops g i).In [8, 56] := by
  unfold afeLoops
  repeat' first
    | with_reducible refine M.In.bind ?_ fun _ => ?_
    | with_reducible exact M.In.pure _
    | with_reducible exact M.In.getS
    | (with_reducible refine (foot_updAfe ..).mono ?_) <;> decide
    | (with_reducible refine M.In.wf 8 _ _ ?_ ?_) <;> first | decide
    | split
    | dsimp only

theorem foot_afePost (g : Nat) (duties : List Fl) : (afePost g duties).In [0, 3, 6, 42, 44, 50] := by
  unfold afePost
  repeat' first
    | with_reducible refine M.In.bind ?_ fun _ => ?_
    | with_reducible exact M.In.pure _
    | with_reducible exact M.In.getS
    | (with_reducible refine (foot_ufield ..).mono ?_) <;> decide
    | (with_reducible refine (foot_postLeg ..).mono ?_) <;> decide
    | (with_reducible refine M.In.fresh ?_) <;> decide
    | (with_reducible refine M.In.freshBytes _ ?_) <;> decide
    | (with_reducible refine M.In.freshRats _ ?_) <;> decide
    | with_reducible refine M.In.forM (fun _ => ?_) _
    | with_reducible refine M.In.optForM (fun _ => ?_) _
    | dsimp only

theorem foot_afeEvaluation : (afeEvaluation).In [0, 1, 3, 4, 5, 6, 8, 9, 12, 16, 17, 20, 33, 35, 42, 43, 44, 45, 46, 47, 48, 49, 50, 56] := by
  unfold afeEvaluation
  repeat' first
    | with_reducible refine M.In.bind ?_ fun _ => ?_
    | with_reducible refine M.In.ite ?_ ?_
    | with_reducible exact M.In.pure _
    | with_reducible exact M.In.getS
    | (with_reducible refine (foot_tripGroup ..).mono ?_) <;> decide
    | (with_reducible refine (foot_occur ..).mono ?_) <;> decide
    | (with_reducible refine (foot_loopCommit ..).mono ?_) <;> decide
    | (with_reducible refine (foot_updAfe ..).mono ?_) <;> decide
    | (with_reducible refine (foot_chgOccur ..).mono ?_) <;> decide
    | (with_reducible refine (foot_pllStep ..).mono ?_) <;> decide
    | (with_reducible refine (foot_afeLoops ..).mono ?_) <;> decide
    | (with_reducible refine (foot_afePost ..).mono ?_) <;> decide
    | (with_reducible refine M.In.inc 8 _ ?_ ?_) <;> first | decide
    | (with_reducible refine M.In.fresh ?_) <;> decide
    | (with_reducible refine M.In.freshBytes _ ?_) <;> decide
    | (with_reducible refine M.In.freshRats _ ?_) <;> decide
    | (with_reducible refine M.In.hidAt fun x k hk => ?_) <;> (unfold SameHid; split <;> first | rfl | exact absurd (by decide) hk)
    | split
    | dsimp only

end Sys2Proof.Machine
end

