-- ==== Sys2Proof/Laws/FootPower.lean ====
section
/-! SUPPORT. Footprints of enabling, metering, charging, converters, safety functions and networks: the places (Laws/Frame.lean) that each
operation may change. -/

set_option linter.all false

namespace Sys2Proof.Machine

theorem foot_sweepSs1 : (sweepSs1).In [1, 5, 16, 20, 33, 43, 44, 45, 47, 49] := by
  unfold sweepSs1
  repeat' first
    | with_reducible refine M.In.bind ?_ fun _ => ?_
    | with_reducible refine M.In.ite ?_ ?_
    | with_reducible exact M.In.pure _
    | with_reducible exact M.In.getS
    | (with_reducible refine (foot_withdraw ..).mono ?_) <;> decide
    | with_reducible refine M.In.forM (fun _ => ?_) _
    | with_reducible refine M.In.optForM (fun _ => ?_) _
    | split
    | dsimp only

theorem foot_offWords (c : Nat) : (offWords c).In [3, 44] := by
  unfold offWords
  repeat' first
    | with_reducible refine M.In.bind ?_ fun _ => ?_
    | with_reducible exact M.In.pure _
    | (with_reducible refine (foot_updChan ..).mono ?_) <;> decide
    | (with_reducible refine M.In.wr 3 _ _ ?_ ?_) <;> first | decide | exact PLS.FALL_page _ | exact PLS.FALL_ACT_page _ | exact PLS.RISE_page _ | exact PLS.RISE_ACT_page _
    | dsimp only

theorem foot_arm (g : Nat) : (arm g).In [0, 1, 2, 3, 4, 5, 6, 7, 8, 9, 10, 11, 12, 16, 17, 20, 33, 35, 43, 44, 45, 46, 47, 48, 49, 50, 51, 53, 54, 55, 56, 58] := by
  unfold arm
  repeat' first
    | with_reducible refine M.In.bind ?_ fun _ => ?_
    | with_reducible refine M.In.ite ?_ ?_
    | with_reducible exact M.In.pure _
    | with_reducible exact M.In.getS
    | (with_reducible refine (foot_updGrp ..).mono ?_) <;> decide
    | (with_reducible refine (foot_updChan ..).mono ?_) <;> decide
    | (with_reducible refine (foot_updTrg ..).mono ?_) <;> decide
    | (with_reducible refine (foot_setGState ..).mono ?_) <;> decide
    | (with_reducible refine (foot_cancelTriggers ..).mono ?_) <;> decide
    | (with_reducible refine (foot_cellOff ..).mono ?_) <;> decide
    | (with_reducible refine (foot_showHeld ..).mono ?_) <;> decide
    | (with_reducible refine (foot_armLevels ..).mono ?_) <;> decide
    | (with_reducible refine (foot_latRestart ..).mono ?_) <;> decide
    | (with_reducible refine (foot_fldEnable ..).mono ?_) <;> decide
    | (with_reducible refine (foot_chopSwitch ..).mono ?_) <;> decide
    | (with_reducible refine foot_watchCharge ?_ ?_) <;> first | decide | skip
    | (with_reducible refine (foot_actEnable ..).mono ?_) <;> decide
    | (with_reducible refine (foot_sweepSs1 ..).mono ?_) <;> decide
    | (with_reducible refine (foot_offWords ..).mono ?_) <;> decide
    | (with_reducible refine M.In.wf 3 _ _ ?_ ?_) <;> first | decide | exact ACT.CFG_page _ | exact FLD.MCH_STAT_page _ | exact PLS.GRP_STAT_page _ | exact SAF.GRP_page _ | exact TRP.GRP_TRIP_page _
    | (with_reducible refine M.In.wf 4 _ _ ?_ ?_) <;> first | decide | exact ACT.CFG_page _ | exact FLD.MCH_STAT_page _ | exact PLS.GRP_STAT_page _ | exact SAF.GRP_page _ | exact TRP.GRP_TRIP_page _
    | (with_reducible refine M.In.wf 16 _ _ ?_ ?_) <;> first | decide | exact ACT.CFG_page _ | exact FLD.MCH_STAT_page _ | exact PLS.GRP_STAT_page _ | exact SAF.GRP_page _ | exact TRP.GRP_TRIP_page _
    | (with_reducible refine M.In.wr 3 _ _ ?_ ?_) <;> first | decide | exact ACT.CFG_page _ | exact FLD.MCH_STAT_page _ | exact PLS.GRP_STAT_page _ | exact SAF.GRP_page _ | exact TRP.GRP_TRIP_page _
    | (with_reducible refine M.In.wr 4 _ _ ?_ ?_) <;> first | decide | exact ACT.CFG_page _ | exact FLD.MCH_STAT_page _ | exact PLS.GRP_STAT_page _ | exact SAF.GRP_page _ | exact TRP.GRP_TRIP_page _
    | (with_reducible refine M.In.wr 16 _ _ ?_ ?_) <;> first | decide | exact ACT.CFG_page _ | exact FLD.MCH_STAT_page _ | exact PLS.GRP_STAT_page _ | exact SAF.GRP_page _ | exact TRP.GRP_TRIP_page _
    | (refine M.In.hid_pls _ ?_; decide)
    | (refine M.In.hid_dcl _ ?_; decide)
    | (refine M.In.hid_afe _ ?_; decide)
    | (refine M.In.hid_cnv _ ?_; decide)
    | with_reducible refine M.In.forM (fun _ => ?_) _
    | with_reducible refine M.In.optForM (fun _ => ?_) _
    | split
    | dsimp only

theorem foot_enableGroup (g : Nat) (host : Bool) : (enableGroup g host).In [0, 1, 2, 3, 4, 5, 6, 7, 8, 9, 10, 11, 12, 16, 17, 20, 33, 35, 43, 44, 45, 46, 47, 48, 49, 50, 51, 53, 54, 55, 56, 58] := by
  unfold enableGroup
  repeat' first
    | with_reducible refine M.In.bind ?_ fun _ => ?_
    | with_reducible refine M.In.ite ?_ ?_
    | with_reducible exact M.In.pure _
    | with_reducible exact M.In.getS
    | (with_reducible refine (foot_arm ..).mono ?_) <;> decide
    | (with_reducible refine M.In.wf 16 _ _ ?_ ?_) <;> first | decide
    | split
    | dsimp only

theorem foot_disableGroup (g : Nat) (host : Bool) : (disableGroup g host).In [0, 1, 2, 3, 4, 5, 6, 9, 16, 20, 33, 43, 44, 45, 47, 49, 50, 56] := by
  unfold disableGroup
  repeat' first
    | with_reducible refine M.In.bind ?_ fun _ => ?_
    | with_reducible refine M.In.ite ?_ ?_
    | with_reducible exact M.In.pure _
    | with_reducible exact M.In.getS
    | (with_reducible refine (foot_updGrp ..).mono ?_) <;> decide
    | (with_reducible refine (foot_setGState ..).mono ?_) <;> decide
    | (with_reducible refine (foot_dropGroup ..).mono ?_) <;> decide
    | (with_reducible refine (foot_applyPattern ..).mono ?_) <;> decide
    | (with_reducible refine (foot_endSs1 ..).mono ?_) <;> decide
    | (with_reducible refine (foot_handLeft ..).mono ?_) <;> decide
    | (with_reducible refine (foot_sweepSs1 ..).mono ?_) <;> decide
    | (with_reducible refine M.In.wf 4 _ _ ?_ ?_) <;> first | decide | exact SAF.GRP_page _ | exact TRP.GRP_TRIP_page _
    | (with_reducible refine M.In.wf 16 _ _ ?_ ?_) <;> first | decide | exact SAF.GRP_page _ | exact TRP.GRP_TRIP_page _
    | (with_reducible refine M.In.wr 4 _ _ ?_ ?_) <;> first | decide | exact SAF.GRP_page _ | exact TRP.GRP_TRIP_page _
    | (with_reducible refine M.In.wr 16 _ _ ?_ ?_) <;> first | decide | exact SAF.GRP_page _ | exact TRP.GRP_TRIP_page _
    | (refine M.In.hid_pls _ ?_; decide)
    | (refine M.In.hid_afe _ ?_; decide)
    | split
    | dsimp only

theorem foot_rebindGroups : (rebindGroups).In [0, 1, 5, 9, 20, 33, 43, 44, 45, 47] := by
  unfold rebindGroups
  repeat' first
    | with_reducible refine M.In.bind ?_ fun _ => ?_
    | with_reducible refine M.In.ite ?_ ?_
    | with_reducible exact M.In.pure _
    | with_reducible exact M.In.getS
    | (with_reducible refine (foot_updGrp ..).mono ?_) <;> decide
    | (with_reducible refine (foot_updChan ..).mono ?_) <;> decide
    | (with_reducible refine (foot_setGState ..).mono ?_) <;> decide
    | (with_reducible refine (foot_cellOff ..).mono ?_) <;> decide
    | (with_reducible refine (foot_showHeld ..).mono ?_) <;> decide
    | (with_reducible refine M.In.hidAt fun x k hk => ?_) <;> (unfold SameHid; split <;> first | rfl | exact absurd (by decide) hk)
    | with_reducible refine M.In.forM (fun _ => ?_) _
    | with_reducible refine M.In.optForM (fun _ => ?_) _
    | split
    | dsimp only

theorem foot_updMtr (f : MtrSt → MtrSt) : (updMtr f).In [57] := by
  unfold updMtr
  repeat' first
    | with_reducible refine M.In.bind ?_ fun _ => ?_
    | with_reducible exact M.In.pure _
    | (refine M.In.hid_mtr _ ?_; decide)
    | dsimp only

theorem foot_meterStatus : (meterStatus).In [1, 20, 33, 43, 47] := by
  unfold meterStatus
  repeat' first
    | with_reducible refine M.In.bind ?_ fun _ => ?_
    | with_reducible exact M.In.pure _
    | with_reducible exact M.In.rd _
    | (with_reducible refine (foot_eventDev ..).mono ?_) <;> decide
    | dsimp only

theorem foot_registerCommit : (registerCommit).In [57] := by
  unfold registerCommit
  repeat' first
    | with_reducible refine M.In.bind ?_ fun _ => ?_
    | with_reducible exact M.In.pure _
    | (with_reducible refine (foot_updMtr ..).mono ?_) <;> decide
    | dsimp only

theorem foot_ringState : (ringState).In [1, 13, 20, 33, 43, 47] := by
  unfold ringState
  repeat' first
    | with_reducible refine M.In.bind ?_ fun _ => ?_
    | with_reducible refine M.In.ite ?_ ?_
    | with_reducible exact M.In.pure _
    | with_reducible exact M.In.getS
    | (with_reducible refine (foot_meterStatus ..).mono ?_) <;> decide
    | (with_reducible refine M.In.wf 13 _ _ ?_ ?_) <;> first | decide
    | split
    | dsimp only

theorem foot_writeRecord (typ : Nat) (span : Span) (gapFlag : Bool) (event : Option (Nat × Nat)) : (writeRecord typ span gapFlag event).In [1, 13, 20, 33, 43, 47, 57] := by
  unfold writeRecord
  repeat' first
    | with_reducible refine M.In.bind ?_ fun _ => ?_
    | with_reducible refine M.In.ite ?_ ?_
    | with_reducible exact M.In.pure _
    | with_reducible exact M.In.getS
    | (with_reducible refine (foot_event ..).mono ?_) <;> decide
    | (with_reducible refine (foot_eventDev ..).mono ?_) <;> decide
    | (with_reducible refine (foot_updMtr ..).mono ?_) <;> decide
    | (with_reducible refine (foot_meterStatus ..).mono ?_) <;> decide
    | (with_reducible refine (foot_registerCommit ..).mono ?_) <;> decide
    | (with_reducible refine (foot_ringState ..).mono ?_) <;> decide
    | (with_reducible refine M.In.wf 13 _ _ ?_ ?_) <;> first | decide
    | (with_reducible refine M.In.inc 13 _ ?_ ?_) <;> first | decide
    | split
    | dsimp only

theorem foot_eventRecord (code arg : Nat) : (eventRecord code arg).In [1, 13, 20, 33, 43, 47, 57] := by
  unfold eventRecord
  repeat' first
    | with_reducible refine M.In.bind ?_ fun _ => ?_
    | with_reducible exact M.In.pure _
    | with_reducible exact M.In.hidden
    | (with_reducible refine (foot_writeRecord ..).mono ?_) <;> decide
    | dsimp only

theorem foot_intervalRecord : (intervalRecord).In [1, 13, 20, 33, 43, 47, 57] := by
  unfold intervalRecord
  repeat' first
    | with_reducible refine M.In.bind ?_ fun _ => ?_
    | with_reducible refine M.In.ite ?_ ?_
    | with_reducible exact M.In.pure _
    | with_reducible exact M.In.getS
    | (with_reducible refine (foot_updMtr ..).mono ?_) <;> decide
    | (with_reducible refine (foot_writeRecord ..).mono ?_) <;> decide
    | (with_reducible refine M.In.hidAt fun x k hk => ?_) <;> (unfold SameHid; split <;> first | rfl | exact absurd (by decide) hk)
    | split
    | dsimp only

theorem foot_meterOpen (exporting : Bool) : (meterOpen exporting).In [1, 13, 20, 33, 43, 47, 57] := by
  unfold meterOpen
  repeat' first
    | with_reducible refine M.In.bind ?_ fun _ => ?_
    | with_reducible refine M.In.ite ?_ ?_
    | with_reducible exact M.In.pure _
    | with_reducible exact M.In.getS
    | (with_reducible refine (foot_updMtr ..).mono ?_) <;> decide
    | (with_reducible refine (foot_writeRecord ..).mono ?_) <;> decide
    | (with_reducible refine M.In.wf 13 _ _ ?_ ?_) <;> first | decide
    | (with_reducible refine M.In.hidAt fun x k hk => ?_) <;> (unfold SameHid; split <;> first | rfl | exact absurd (by decide) hk)
    | split
    | dsimp only

theorem foot_meterClose (gapFlag : Bool) : (meterClose gapFlag).In [1, 13, 20, 33, 43, 47, 57] := by
  unfold meterClose
  repeat' first
    | with_reducible refine M.In.bind ?_ fun _ => ?_
    | with_reducible refine M.In.ite ?_ ?_
    | with_reducible exact M.In.pure _
    | with_reducible exact M.In.getS
    | (with_reducible refine (foot_updMtr ..).mono ?_) <;> decide
    | (with_reducible refine (foot_writeRecord ..).mono ?_) <;> decide
    | (with_reducible refine M.In.wf 13 _ _ ?_ ?_) <;> first | decide
    | (with_reducible refine M.In.hidAt fun x k hk => ?_) <;> (unfold SameHid; split <;> first | rfl | exact absurd (by decide) hk)
    | split
    | dsimp only

theorem foot_endCycle : (endCycle).In [57] := by
  unfold endCycle
  repeat' first
    | with_reducible refine M.In.bind ?_ fun _ => ?_
    | with_reducible exact M.In.pure _
    | with_reducible exact M.In.getS
    | (with_reducible refine (foot_updMtr ..).mono ?_) <;> decide
    | dsimp only

theorem foot_subwindowsLost (w : SubWin) (lost : Nat) : (subwindowsLost w lost).In [1, 13, 20, 33, 43, 47, 57] := by
  unfold subwindowsLost
  repeat' first
    | with_reducible refine M.In.bind ?_ fun _ => ?_
    | with_reducible refine M.In.ite ?_ ?_
    | with_reducible exact M.In.pure _
    | with_reducible exact M.In.getS
    | (with_reducible refine (foot_updMtr ..).mono ?_) <;> decide
    | (with_reducible refine (foot_eventRecord ..).mono ?_) <;> decide
    | (with_reducible refine (foot_endCycle ..).mono ?_) <;> decide
    | (with_reducible refine M.In.incBy 13 _ _ ?_ ?_) <;> first | decide
    | (with_reducible refine M.In.hidAt fun x k hk => ?_) <;> (unfold SameHid; split <;> first | rfl | exact absurd (by decide) hk)
    | split
    | dsimp only

theorem foot_energyAccumulate : (energyAccumulate).In [1, 13, 20, 33, 42, 43, 47, 50, 57] := by
  unfold energyAccumulate
  repeat' first
    | with_reducible refine M.In.bind ?_ fun _ => ?_
    | with_reducible refine M.In.ite ?_ ?_
    | with_reducible exact M.In.pure _
    | with_reducible exact M.In.getS
    | (with_reducible refine (foot_updMtr ..).mono ?_) <;> decide
    | (with_reducible refine (foot_endCycle ..).mono ?_) <;> decide
    | (with_reducible refine (foot_subwindowsLost ..).mono ?_) <;> decide
    | (with_reducible refine M.In.fresh ?_) <;> decide
    | (with_reducible refine M.In.freshBytes _ ?_) <;> decide
    | (with_reducible refine M.In.freshRats _ ?_) <;> decide
    | (refine M.In.hid_mea _ ?_; decide)
    | split
    | dsimp only

theorem foot_keyGenerated : (keyGenerated).In [1, 13, 20, 33, 42, 43, 47, 57] := by
  unfold keyGenerated
  repeat' first
    | with_reducible refine M.In.bind ?_ fun _ => ?_
    | with_reducible refine M.In.ite ?_ ?_
    | with_reducible exact M.In.pure _
    | with_reducible exact M.In.getS
    | (with_reducible refine (foot_updMtr ..).mono ?_) <;> decide
    | (with_reducible refine (foot_eventRecord ..).mono ?_) <;> decide
    | (with_reducible refine M.In.wf 13 _ _ ?_ ?_) <;> first | decide
    | (with_reducible refine M.In.fresh ?_) <;> decide
    | (with_reducible refine M.In.freshBytes _ ?_) <;> decide
    | (with_reducible refine M.In.freshRats _ ?_) <;> decide
    | (with_reducible refine M.In.hidAt fun x k hk => ?_) <;> (unfold SameHid; split <;> first | rfl | exact absurd (by decide) hk)
    | split
    | dsimp only

theorem foot_sealTable (table : List Byte) : (sealTable table).In [1, 13, 20, 32, 33, 43, 47, 57] := by
  unfold sealTable
  repeat' first
    | with_reducible refine M.In.bind ?_ fun _ => ?_
    | with_reducible exact M.In.pure _
    | with_reducible exact M.In.hidden
    | (with_reducible refine (foot_updMtr ..).mono ?_) <;> decide
    | (with_reducible refine (foot_eventRecord ..).mono ?_) <;> decide
    | (with_reducible refine M.In.wf 13 _ _ ?_ ?_) <;> first | decide
    | (with_reducible refine M.In.wtab _ _ _ ?_) <;> decide
    | dsimp only

theorem foot_timeSet : (timeSet).In [1, 13, 20, 33, 43, 47, 57] := by
  unfold timeSet
  repeat' first
    | with_reducible refine M.In.bind ?_ fun _ => ?_
    | with_reducible exact M.In.pure _
    | with_reducible exact M.In.getS
    | (with_reducible refine (foot_updMtr ..).mono ?_) <;> decide
    | (with_reducible refine (foot_eventRecord ..).mono ?_) <;> decide
    | (with_reducible refine M.In.hidAt fun x k hk => ?_) <;> (unfold SameHid; split <;> first | rfl | exact absurd (by decide) hk)
    | dsimp only

theorem foot_meterTick : (meterTick).In [57] := by
  unfold meterTick
  repeat' first
    | with_reducible refine M.In.bind ?_ fun _ => ?_
    | with_reducible refine M.In.ite ?_ ?_
    | with_reducible exact M.In.pure _
    | with_reducible exact M.In.getS
    | (with_reducible refine (foot_updMtr ..).mono ?_) <;> decide
    | (with_reducible refine M.In.hidAt fun x k hk => ?_) <;> (unfold SameHid; split <;> first | rfl | exact absurd (by decide) hk)
    | split
    | dsimp only

theorem foot_meterReturn (afterReset updated regsOk : Bool) : (meterReturn afterReset updated regsOk).In [1, 13, 20, 33, 43, 47, 57] := by
  unfold meterReturn
  repeat' first
    | with_reducible refine M.In.bind ?_ fun _ => ?_
    | with_reducible refine M.In.ite ?_ ?_
    | with_reducible exact M.In.pure _
    | with_reducible exact M.In.getS
    | (with_reducible refine (foot_updMtr ..).mono ?_) <;> decide
    | (with_reducible refine (foot_meterStatus ..).mono ?_) <;> decide
    | (with_reducible refine (foot_writeRecord ..).mono ?_) <;> decide
    | (with_reducible refine (foot_eventRecord ..).mono ?_) <;> decide
    | (with_reducible refine (foot_meterClose ..).mono ?_) <;> decide
    | (with_reducible refine M.In.wf 13 _ _ ?_ ?_) <;> first | decide
    | (with_reducible refine M.In.hidAt fun x k hk => ?_) <;> (unfold SameHid; split <;> first | rfl | exact absurd (by decide) hk)
    | split
    | dsimp only

theorem foot_updChg (f : ChgSt → ChgSt) : (updChg f).In [48] := by
  unfold updChg
  repeat' first
    | with_reducible refine M.In.bind ?_ fun _ => ?_
    | with_reducible exact M.In.pure _
    | (refine M.In.hid_chg _ ?_; decide)
    | dsimp only

theorem foot_cellTarget (x : Int) : (cellTarget x).In [7, 51] := by
  unfold cellTarget
  repeat' first
    | with_reducible refine M.In.bind ?_ fun _ => ?_
    | with_reducible refine M.In.ite ?_ ?_
    | with_reducible exact M.In.pure _
    | with_reducible exact M.In.getS
    | (with_reducible refine (foot_newTarget ..).mono ?_) <;> decide
    | (with_reducible refine M.In.wr 7 _ _ ?_ ?_) <;> first | decide | exact LAT.TARGET_page _
    | split
    | dsimp only

theorem foot_tryStart : (tryStart).In [1, 11, 12, 13, 20, 33, 43, 47, 48, 57] := by
  unfold tryStart
  repeat' first
    | with_reducible refine M.In.bind ?_ fun _ => ?_
    | with_reducible refine M.In.ite ?_ ?_
    | with_reducible exact M.In.pure _
    | with_reducible exact M.In.getS
    | (with_reducible refine (foot_setChg ..).mono ?_) <;> decide
    | (with_reducible refine (foot_meterOpen ..).mono ?_) <;> decide
    | (with_reducible refine (foot_updChg ..).mono ?_) <;> decide
    | (with_reducible refine M.In.wf 11 _ _ ?_ ?_) <;> first | decide
    | (with_reducible refine M.In.wf 12 _ _ ?_ ?_) <;> first | decide
    | (with_reducible refine M.In.hidAt fun x k hk => ?_) <;> (unfold SameHid; split <;> first | rfl | exact absurd (by decide) hk)
    | split
    | dsimp only

theorem foot_normalStop (cause : Nat) : (normalStop cause).In [1, 7, 12, 20, 33, 43, 47, 48, 51] := by
  unfold normalStop
  repeat' first
    | with_reducible refine M.In.bind ?_ fun _ => ?_
    | with_reducible refine M.In.ite ?_ ?_
    | with_reducible exact M.In.pure _
    | with_reducible exact M.In.getS
    | (with_reducible refine (foot_setChg ..).mono ?_) <;> decide
    | (with_reducible refine (foot_updChg ..).mono ?_) <;> decide
    | (with_reducible refine (foot_cellTarget ..).mono ?_) <;> decide
    | split
    | dsimp only

theorem foot_followLock : (followLock).In [1, 11, 12, 13, 20, 33, 43, 47, 48, 57] := by
  unfold followLock
  repeat' first
    | with_reducible refine M.In.bind ?_ fun _ => ?_
    | with_reducible refine M.In.ite ?_ ?_
    | with_reducible exact M.In.pure _
    | with_reducible exact M.In.getS
    | (with_reducible refine (foot_setChg ..).mono ?_) <;> decide
    | (with_reducible refine (foot_tryStart ..).mono ?_) <;> decide
    | split
    | dsimp only

theorem foot_followCable : (followCable).In [0, 1, 3, 4, 5, 6, 9, 11, 12, 13, 20, 33, 43, 44, 45, 47, 48, 50, 55, 57] := by
  unfold followCable
  repeat' first
    | with_reducible refine M.In.bind ?_ fun _ => ?_
    | with_reducible refine M.In.ite ?_ ?_
    | with_reducible exact M.In.pure _
    | with_reducible exact M.In.getS
    | (with_reducible refine (foot_setChg ..).mono ?_) <;> decide
    | (with_reducible refine (foot_emergencyStop ..).mono ?_) <;> decide
    | (with_reducible refine (foot_cplCommand ..).mono ?_) <;> decide
    | (with_reducible refine (foot_followLock ..).mono ?_) <;> decide
    | (with_reducible refine M.In.wf 12 _ _ ?_ ?_) <;> first | decide
    | (with_reducible refine M.In.hidAt fun x k hk => ?_) <;> (unfold SameHid; split <;> first | rfl | exact absurd (by decide) hk)
    | split
    | dsimp only

theorem foot_pilotAccept (high low : Int) (period duty n : Nat) : (pilotAccept high low period duty n).In [0, 1, 3, 4, 5, 6, 7, 9, 11, 12, 13, 16, 17, 20, 33, 35, 43, 44, 45, 46, 47, 48, 49, 50, 51, 57] := by
  unfold pilotAccept
  repeat' first
    | with_reducible refine M.In.bind ?_ fun _ => ?_
    | with_reducible refine M.In.ite ?_ ?_
    | with_reducible exact M.In.pure _
    | with_reducible exact M.In.getS
    | (with_reducible refine (foot_eventDev ..).mono ?_) <;> decide
    | (with_reducible refine (foot_chgOccur ..).mono ?_) <;> decide
    | (with_reducible refine (foot_updChg ..).mono ?_) <;> decide
    | (with_reducible refine (foot_tryStart ..).mono ?_) <;> decide
    | (with_reducible refine (foot_normalStop ..).mono ?_) <;> decide
    | (with_reducible refine M.In.wf 12 _ _ ?_ ?_) <;> first | decide
    | (with_reducible refine M.In.hidAt fun x k hk => ?_) <;> (unfold SameHid; split <;> first | rfl | exact absurd (by decide) hk)
    | split
    | dsimp only

theorem foot_proximityAccept (v n : Nat) : (proximityAccept v n).In [0, 1, 3, 4, 5, 6, 9, 11, 12, 13, 16, 17, 20, 33, 35, 43, 44, 45, 46, 47, 48, 49, 50, 55, 57] := by
  unfold proximityAccept
  repeat' first
    | with_reducible refine M.In.bind ?_ fun _ => ?_
    | with_reducible refine M.In.ite ?_ ?_
    | with_reducible exact M.In.pure _
    | with_reducible exact M.In.getS
    | (with_reducible refine (foot_chgOccur ..).mono ?_) <;> decide
    | (with_reducible refine (foot_tryStart ..).mono ?_) <;> decide
    | (with_reducible refine (foot_followCable ..).mono ?_) <;> decide
    | (with_reducible refine M.In.wf 12 _ _ ?_ ?_) <;> first | decide
    | split
    | dsimp only

theorem foot_buttonPress (t : Nat) : (buttonPress t).In [1, 7, 11, 12, 13, 20, 33, 43, 47, 48, 51, 55, 57] := by
  unfold buttonPress
  repeat' first
    | with_reducible refine M.In.bind ?_ fun _ => ?_
    | with_reducible refine M.In.ite ?_ ?_
    | with_reducible exact M.In.pure _
    | with_reducible exact M.In.getS
    | (with_reducible refine (foot_cplCommand ..).mono ?_) <;> decide
    | (with_reducible refine (foot_updChg ..).mono ?_) <;> decide
    | (with_reducible refine (foot_tryStart ..).mono ?_) <;> decide
    | (with_reducible refine (foot_normalStop ..).mono ?_) <;> decide
    | (with_reducible refine M.In.inc 12 _ ?_ ?_) <;> first | decide
    | split
    | dsimp only

theorem foot_chgCommand (cmd : Nat) : (chgCommand cmd).In [1, 7, 11, 12, 13, 20, 33, 43, 47, 48, 51, 55, 57] := by
  unfold chgCommand
  repeat' first
    | with_reducible refine M.In.bind ?_ fun _ => ?_
    | with_reducible refine M.In.ite ?_ ?_
    | with_reducible exact M.In.pure _
    | with_reducible exact M.In.getS
    | (with_reducible refine (foot_setChg ..).mono ?_) <;> decide
    | (with_reducible refine (foot_cplCommand ..).mono ?_) <;> decide
    | (with_reducible refine (foot_updChg ..).mono ?_) <;> decide
    | (with_reducible refine (foot_tryStart ..).mono ?_) <;> decide
    | (with_reducible refine (foot_normalStop ..).mono ?_) <;> decide
    | (with_reducible refine M.In.wf 12 _ _ ?_ ?_) <;> first | decide
    | split
    | dsimp only

theorem foot_chargeLimits : (chargeLimits).In [1, 7, 8, 11, 12, 13, 20, 33, 42, 43, 47, 48, 51, 57] := by
  unfold chargeLimits
  repeat' first
    | with_reducible refine M.In.bind ?_ fun _ => ?_
    | with_reducible refine M.In.ite ?_ ?_
    | with_reducible exact M.In.pure _
    | with_reducible exact M.In.getS
    | (with_reducible refine (foot_cellTarget ..).mono ?_) <;> decide
    | (with_reducible refine (foot_normalStop ..).mono ?_) <;> decide
    | (with_reducible refine (foot_followLock ..).mono ?_) <;> decide
    | (with_reducible refine M.In.wf 8 _ _ ?_ ?_) <;> first | decide
    | (with_reducible refine M.In.wf 12 _ _ ?_ ?_) <;> first | decide
    | (with_reducible refine M.In.fresh ?_) <;> decide
    | (with_reducible refine M.In.freshBytes _ ?_) <;> decide
    | (with_reducible refine M.In.freshRats _ ?_) <;> decide
    | split
    | dsimp only

theorem foot_nextStep (n : Nat) : (nextStep n).In [48] := by
  unfold nextStep
  repeat' first
    | with_reducible refine M.In.bind ?_ fun _ => ?_
    | with_reducible exact M.In.pure _
    | with_reducible exact M.In.getS
    | (with_reducible refine (foot_updChg ..).mono ?_) <;> decide
    | dsimp only

theorem foot_internalEnable (g : Nat) : (internalEnable g).In [0, 1, 2, 3, 4, 5, 6, 7, 8, 9, 10, 11, 12, 16, 17, 20, 33, 35, 43, 44, 45, 46, 47, 48, 49, 50, 51, 53, 54, 55, 56, 58] := by
  unfold internalEnable
  repeat' first
    | with_reducible refine M.In.bind ?_ fun _ => ?_
    | with_reducible exact M.In.pure _
    | (with_reducible refine (foot_emergencyStop ..).mono ?_) <;> decide
    | (with_reducible refine (foot_enableGroup ..).mono ?_) <;> decide
    | split
    | dsimp only

theorem foot_connectingStep (va vb vc vfe : Nat) : (connectingStep va vb vc vfe).In [0, 1, 2, 3, 4, 5, 6, 7, 8, 9, 10, 11, 12, 16, 17, 20, 33, 35, 43, 44, 45, 46, 47, 48, 49, 50, 51, 53, 54, 55, 56, 58] := by
  unfold connectingStep
  repeat' first
    | with_reducible refine M.In.bind ?_ fun _ => ?_
    | with_reducible refine M.In.ite ?_ ?_
    | with_reducible exact M.In.pure _
    | with_reducible exact M.In.getS
    | (with_reducible refine (foot_setChg ..).mono ?_) <;> decide
    | (with_reducible refine (foot_emergencyStop ..).mono ?_) <;> decide
    | (with_reducible refine (foot_occurrence ..).mono ?_) <;> decide
    | (with_reducible refine (foot_chgOccur ..).mono ?_) <;> decide
    | (with_reducible refine (foot_updChg ..).mono ?_) <;> decide
    | (with_reducible refine (foot_normalStop ..).mono ?_) <;> decide
    | (with_reducible refine (foot_nextStep ..).mono ?_) <;> decide
    | (with_reducible refine (foot_internalEnable ..).mono ?_) <;> decide
    | (with_reducible refine M.In.wf 8 _ _ ?_ ?_) <;> first | decide
    | (with_reducible refine M.In.wf 12 _ _ ?_ ?_) <;> first | decide
    | (with_reducible refine M.In.inc 8 _ ?_ ?_) <;> first | decide
    | (with_reducible refine M.In.inc 12 _ ?_ ?_) <;> first | decide
    | (with_reducible refine M.In.hidAt fun x k hk => ?_) <;> (unfold SameHid; split <;> first | rfl | exact absurd (by decide) hk)
    | split
    | dsimp only

theorem foot_normalStopComplete : (normalStopComplete).In [0, 1, 2, 3, 4, 5, 6, 9, 12, 16, 20, 33, 43, 44, 45, 47, 48, 49, 50, 56] := by
  unfold normalStopComplete
  repeat' first
    | with_reducible refine M.In.bind ?_ fun _ => ?_
    | with_reducible refine M.In.ite ?_ ?_
    | with_reducible exact M.In.pure _
    | with_reducible exact M.In.getS
    | (with_reducible refine (foot_releaseRelays ..).mono ?_) <;> decide
    | (with_reducible refine (foot_disableGroup ..).mono ?_) <;> decide
    | (with_reducible refine M.In.hidAt fun x k hk => ?_) <;> (unfold SameHid; split <;> first | rfl | exact absurd (by decide) hk)
    | split
    | dsimp only

theorem foot_endStopping (weldFault : Bool) : (endStopping weldFault).In [0, 1, 3, 4, 5, 6, 9, 11, 12, 13, 20, 33, 43, 44, 45, 47, 48, 50, 55, 57] := by
  unfold endStopping
  repeat' first
    | with_reducible refine M.In.bind ?_ fun _ => ?_
    | with_reducible refine M.In.ite ?_ ?_
    | with_reducible exact M.In.pure _
    | with_reducible exact M.In.getS
    | (with_reducible refine (foot_setChg ..).mono ?_) <;> decide
    | (with_reducible refine (foot_cplCommand ..).mono ?_) <;> decide
    | (with_reducible refine (foot_meterClose ..).mono ?_) <;> decide
    | (with_reducible refine (foot_updChg ..).mono ?_) <;> decide
    | (with_reducible refine (foot_followCable ..).mono ?_) <;> decide
    | (with_reducible refine M.In.wf 11 _ _ ?_ ?_) <;> first | decide
    | (with_reducible refine M.In.hidAt fun x k hk => ?_) <;> (unfold SameHid; split <;> first | rfl | exact absurd (by decide) hk)
    | split
    | dsimp only

theorem foot_relayReleaseCheck (peak : Nat) : (relayReleaseCheck peak).In [0, 1, 3, 4, 5, 6, 9, 11, 12, 13, 16, 17, 20, 33, 35, 43, 44, 45, 46, 47, 48, 49, 50, 55, 57] := by
  unfold relayReleaseCheck
  repeat' first
    | with_reducible refine M.In.bind ?_ fun _ => ?_
    | with_reducible refine M.In.ite ?_ ?_
    | with_reducible exact M.In.pure _
    | with_reducible exact M.In.getS
    | (with_reducible refine (foot_occurrence ..).mono ?_) <;> decide
    | (with_reducible refine (foot_updChg ..).mono ?_) <;> decide
    | (with_reducible refine (foot_endStopping ..).mono ?_) <;> decide
    | (with_reducible refine M.In.inc 12 _ ?_ ?_) <;> first | decide
    | (with_reducible refine M.In.hidAt fun x k hk => ?_) <;> (unfold SameHid; split <;> first | rfl | exact absurd (by decide) hk)
    | split
    | dsimp only

theorem foot_weldInhibitClear : (weldInhibitClear).In [11, 48] := by
  unfold weldInhibitClear
  repeat' first
    | with_reducible refine M.In.bind ?_ fun _ => ?_
    | with_reducible refine M.In.ite ?_ ?_
    | with_reducible exact M.In.pure _
    | with_reducible exact M.In.getS
    | (with_reducible refine (foot_updChg ..).mono ?_) <;> decide
    | (with_reducible refine M.In.wf 11 _ _ ?_ ?_) <;> first | decide
    | (with_reducible refine M.In.hidAt fun x k hk => ?_) <;> (unfold SameHid; split <;> first | rfl | exact absurd (by decide) hk)
    | split
    | dsimp only

theorem foot_updCnv (f : CnvSt → CnvSt) : (updCnv f).In [58] := by
  unfold updCnv
  repeat' first
    | with_reducible refine M.In.bind ?_ fun _ => ?_
    | with_reducible exact M.In.pure _
    | (refine M.In.hid_cnv _ ?_; decide)
    | dsimp only

theorem foot_updLvp (f : LvpSt → LvpSt) : (updLvp f).In [59] := by
  unfold updLvp
  repeat' first
    | with_reducible refine M.In.bind ?_ fun _ => ?_
    | with_reducible exact M.In.pure _
    | (refine M.In.hid_lvp _ ?_; decide)
    | dsimp only

theorem foot_setTarget (c : Nat) (x : Int) : (setTarget c x).In [7, 51] := by
  unfold setTarget
  repeat' first
    | with_reducible refine M.In.bind ?_ fun _ => ?_
    | with_reducible refine M.In.ite ?_ ?_
    | with_reducible exact M.In.pure _
    | with_reducible exact M.In.getS
    | (with_reducible refine (foot_newTarget ..).mono ?_) <;> decide
    | (with_reducible refine M.In.wr 7 _ _ ?_ ?_) <;> first | decide | exact LAT.TARGET_page _
    | split
    | dsimp only

theorem foot_setBsw (on : Bool) : (setBsw on).In [15, 59] := by
  unfold setBsw
  repeat' first
    | with_reducible refine M.In.bind ?_ fun _ => ?_
    | with_reducible refine M.In.ite ?_ ?_
    | with_reducible exact M.In.pure _
    | with_reducible exact M.In.getS
    | (with_reducible refine (foot_updLvp ..).mono ?_) <;> decide
    | (with_reducible refine M.In.wf 15 _ _ ?_ ?_) <;> first | decide
    | split
    | dsimp only

theorem foot_lvpEvent (kind val : Nat) : (lvpEvent kind val).In [1, 20, 33, 43, 47] := by
  unfold lvpEvent
  repeat' first
    | with_reducible refine M.In.bind ?_ fun _ => ?_
    | with_reducible exact M.In.pure _
    | (with_reducible refine (foot_eventDev ..).mono ?_) <;> decide
    | dsimp only

theorem foot_setTrims (l : List Int) : (setTrims l).In [14] := by
  unfold setTrims
  repeat' first
    | with_reducible refine M.In.bind ?_ fun _ => ?_
    | with_reducible exact M.In.pure _
    | (with_reducible refine M.In.wr 14 _ _ ?_ ?_) <;> first | decide
    | dsimp only

theorem foot_trimStep (n : Nat) : (trimStep n).In [14] := by
  unfold trimStep
  repeat' first
    | with_reducible refine M.In.bind ?_ fun _ => ?_
    | with_reducible refine M.In.ite ?_ ?_
    | with_reducible exact M.In.pure _
    | with_reducible exact M.In.getS
    | (with_reducible refine (foot_setTrims ..).mono ?_) <;> decide
    | (with_reducible refine M.In.hidAt fun x k hk => ?_) <;> (unfold SameHid; split <;> first | rfl | exact absurd (by decide) hk)
    | split
    | dsimp only

theorem foot_postPhases (n : Nat) : (postPhases n).In [0, 3, 6, 44, 50] := by
  unfold postPhases
  repeat' first
    | with_reducible refine M.In.bind ?_ fun _ => ?_
    | with_reducible refine M.In.ite ?_ ?_
    | with_reducible exact M.In.pure _
    | with_reducible exact M.In.getS
    | (with_reducible refine (foot_postEdges ..).mono ?_) <;> decide
    | with_reducible refine M.In.forM (fun _ => ?_) _
    | with_reducible refine M.In.optForM (fun _ => ?_) _
    | split
    | dsimp only

theorem foot_postOff (n : Nat) : (postOff n).In [0, 3, 6, 44, 50] := by
  unfold postOff
  repeat' first
    | with_reducible refine M.In.bind ?_ fun _ => ?_
    | with_reducible exact M.In.pure _
    | with_reducible exact M.In.getS
    | (with_reducible refine (foot_postEdges ..).mono ?_) <;> decide
    | with_reducible refine M.In.forM (fun _ => ?_) _
    | with_reducible refine M.In.optForM (fun _ => ?_) _
    | split
    | dsimp only

theorem foot_enterHiccup (g : Nat) (u : Int) : (enterHiccup g u).In [0, 1, 3, 4, 5, 6, 9, 12, 14, 15, 16, 17, 20, 33, 35, 43, 44, 45, 46, 47, 48, 49, 50, 58] := by
  unfold enterHiccup
  repeat' first
    | with_reducible refine M.In.bind ?_ fun _ => ?_
    | with_reducible exact M.In.pure _
    | with_reducible exact M.In.rf _
    | with_reducible exact M.In.hidden
    | (with_reducible refine (foot_eventDev ..).mono ?_) <;> decide
    | (with_reducible refine (foot_occur ..).mono ?_) <;> decide
    | (with_reducible refine (foot_updCnv ..).mono ?_) <;> decide
    | (with_reducible refine M.In.wf 14 _ _ ?_ ?_) <;> first | decide
    | (with_reducible refine M.In.wf 15 _ _ ?_ ?_) <;> first | decide
    | (with_reducible refine M.In.inc 14 _ ?_ ?_) <;> first | decide
    | (with_reducible refine M.In.inc 15 _ ?_ ?_) <;> first | decide
    | dsimp only

theorem foot_diodeStep (u : Int) : (diodeStep u).In [14, 58] := by
  unfold diodeStep
  repeat' first
    | with_reducible refine M.In.bind ?_ fun _ => ?_
    | with_reducible refine M.In.ite ?_ ?_
    | with_reducible exact M.In.pure _
    | with_reducible exact M.In.getS
    | (with_reducible refine (foot_updCnv ..).mono ?_) <;> decide
    | (with_reducible refine M.In.wf 14 _ _ ?_ ?_) <;> first | decide
    | (with_reducible refine M.In.hidAt fun x k hk => ?_) <;> (unfold SameHid; split <;> first | rfl | exact absurd (by decide) hk)
    | split
    | dsimp only

theorem foot_chargeMode : (chargeMode).In [15] := by
  unfold chargeMode
  repeat' first
    | with_reducible refine M.In.bind ?_ fun _ => ?_
    | with_reducible refine M.In.ite ?_ ?_
    | with_reducible exact M.In.pure _
    | with_reducible exact M.In.getS
    | (with_reducible refine M.In.wf 15 _ _ ?_ ?_) <;> first | decide | exact LAT.MS_STAT_page _
    | split
    | dsimp only

theorem foot_batteryLost : (batteryLost).In [0, 1, 3, 4, 5, 6, 7, 9, 12, 15, 16, 17, 20, 33, 35, 43, 44, 45, 46, 47, 48, 49, 50, 51, 59] := by
  unfold batteryLost
  repeat' first
    | with_reducible refine M.In.bind ?_ fun _ => ?_
    | with_reducible refine M.In.ite ?_ ?_
    | with_reducible exact M.In.pure _
    | with_reducible exact M.In.getS
    | (with_reducible refine (foot_occur ..).mono ?_) <;> decide
    | (with_reducible refine (foot_updLc ..).mono ?_) <;> decide
    | (with_reducible refine (foot_setTarget ..).mono ?_) <;> decide
    | (with_reducible refine (foot_setBsw ..).mono ?_) <;> decide
    | (with_reducible refine M.In.wf 7 _ _ ?_ ?_) <;> first | decide | exact LAT.RAMPED_page _
    | (with_reducible refine M.In.wf 15 _ _ ?_ ?_) <;> first | decide | exact LAT.RAMPED_page _
    | (with_reducible refine M.In.wr 7 _ _ ?_ ?_) <;> first | decide | exact LAT.RAMPED_page _
    | (with_reducible refine M.In.wr 15 _ _ ?_ ?_) <;> first | decide | exact LAT.RAMPED_page _
    | split
    | dsimp only

theorem foot_batteryWatch : (batteryWatch).In [0, 1, 3, 4, 5, 6, 7, 9, 12, 15, 16, 17, 20, 33, 35, 43, 44, 45, 46, 47, 48, 49, 50, 51, 59] := by
  unfold batteryWatch
  repeat' first
    | with_reducible refine M.In.bind ?_ fun _ => ?_
    | with_reducible refine M.In.ite ?_ ?_
    | with_reducible exact M.In.pure _
    | with_reducible exact M.In.getS
    | (with_reducible refine (foot_updLvp ..).mono ?_) <;> decide
    | (with_reducible refine (foot_batteryLost ..).mono ?_) <;> decide
    | (with_reducible refine M.In.hidAt fun x k hk => ?_) <;> (unfold SameHid; split <;> first | rfl | exact absurd (by decide) hk)
    | split
    | dsimp only

theorem foot_sequencer (g : Nat) (outs : List (Nat × Int)) (again : Bool) : (sequencer g outs again).In [0, 1, 3, 4, 5, 6, 7, 9, 12, 14, 15, 16, 17, 20, 33, 35, 43, 44, 45, 46, 47, 48, 49, 50, 51, 58, 59] := by
  unfold sequencer
  repeat' first
    | with_reducible refine M.In.bind ?_ fun _ => ?_
    | with_reducible refine M.In.ite ?_ ?_
    | with_reducible exact M.In.pure _
    | with_reducible exact M.In.getS
    | with_reducible exact M.In.rf _
    | (with_reducible refine (foot_updCnv ..).mono ?_) <;> decide
    | (with_reducible refine (foot_trimStep ..).mono ?_) <;> decide
    | (with_reducible refine (foot_postPhases ..).mono ?_) <;> decide
    | (with_reducible refine (foot_postOff ..).mono ?_) <;> decide
    | (with_reducible refine (foot_enterHiccup ..).mono ?_) <;> decide
    | (with_reducible refine (foot_diodeStep ..).mono ?_) <;> decide
    | (with_reducible refine (foot_chargeMode ..).mono ?_) <;> decide
    | (with_reducible refine (foot_batteryWatch ..).mono ?_) <;> decide
    | (with_reducible refine M.In.inc 14 _ ?_ ?_) <;> first | decide | exact LAT.OUT_page _ | exact TRP.CELL_STAT_page _
    | (with_reducible refine M.In.hidAt fun x k hk => ?_) <;> (unfold SameHid; split <;> first | rfl | exact absurd (by decide) hk)
    | split
    | dsimp only

theorem foot_dropPosted (n : Nat) : (dropPosted n).In [58] := by
  unfold dropPosted
  repeat' first
    | with_reducible refine M.In.bind ?_ fun _ => ?_
    | with_reducible refine M.In.ite ?_ ?_
    | with_reducible exact M.In.pure _
    | with_reducible exact M.In.getS
    | (with_reducible refine (foot_updCnv ..).mono ?_) <;> decide
    | (with_reducible refine M.In.hidAt fun x k hk => ?_) <;> (unfold SameHid; split <;> first | rfl | exact absurd (by decide) hk)
    | split
    | dsimp only

theorem foot_rateGroupEvaluation (n wait : Nat) : (rateGroupEvaluation n wait).In [0, 1, 3, 4, 5, 6, 7, 9, 12, 14, 15, 16, 17, 20, 33, 35, 43, 44, 45, 46, 47, 48, 49, 50, 51, 58, 59] := by
  unfold rateGroupEvaluation
  repeat' first
    | with_reducible refine M.In.bind ?_ fun _ => ?_
    | with_reducible refine M.In.ite ?_ ?_
    | with_reducible exact M.In.pure _
    | with_reducible exact M.In.getS
    | with_reducible exact M.In.rf _
    | (with_reducible refine (foot_evalCells ..).mono ?_) <;> decide
    | (with_reducible refine (foot_postTemplates ..).mono ?_) <;> decide
    | (with_reducible refine (foot_beginEval ..).mono ?_) <;> decide
    | (with_reducible refine (foot_endEval ..).mono ?_) <;> decide
    | (with_reducible refine (foot_sequencer ..).mono ?_) <;> decide
    | (with_reducible refine (foot_dropPosted ..).mono ?_) <;> decide
    | (with_reducible refine M.In.wf 7 _ _ ?_ ?_) <;> first | decide
    | split
    | dsimp only

theorem foot_latReevaluation (n : Nat) (abandoned : Bool) : (latReevaluation n abandoned).In [0, 1, 3, 4, 5, 6, 7, 9, 12, 14, 15, 16, 17, 20, 33, 35, 43, 44, 45, 46, 47, 48, 49, 50, 51, 58, 59] := by
  unfold latReevaluation
  repeat' first
    | with_reducible refine M.In.bind ?_ fun _ => ?_
    | with_reducible refine M.In.ite ?_ ?_
    | with_reducible exact M.In.pure _
    | with_reducible exact M.In.getS
    | (with_reducible refine (foot_evalCells ..).mono ?_) <;> decide
    | (with_reducible refine (foot_postTemplates ..).mono ?_) <;> decide
    | (with_reducible refine (foot_beginReeval ..).mono ?_) <;> decide
    | (with_reducible refine (foot_sequencer ..).mono ?_) <;> decide
    | split
    | dsimp only

theorem foot_buckReloaded : (buckReloaded).In [14, 58] := by
  unfold buckReloaded
  repeat' first
    | with_reducible refine M.In.bind ?_ fun _ => ?_
    | with_reducible refine M.In.ite ?_ ?_
    | with_reducible exact M.In.pure _
    | with_reducible exact M.In.getS
    | (with_reducible refine (foot_updCnv ..).mono ?_) <;> decide
    | (with_reducible refine M.In.wf 14 _ _ ?_ ?_) <;> first | decide
    | (with_reducible refine M.In.hidAt fun x k hk => ?_) <;> (unfold SameHid; split <;> first | rfl | exact absurd (by decide) hk)
    | split
    | dsimp only

theorem foot_reloadAll (t : Nat) : (reloadAll t).In [0, 1, 2, 3, 4, 5, 6, 7, 9, 12, 14, 16, 17, 20, 32, 33, 35, 43, 44, 45, 46, 47, 48, 49, 50, 58] := by
  unfold reloadAll
  repeat' first
    | with_reducible refine M.In.bind ?_ fun _ => ?_
    | with_reducible refine M.In.ite ?_ ?_
    | with_reducible exact M.In.pure _
    | with_reducible exact M.In.getS
    | (with_reducible refine (foot_reload ..).mono ?_) <;> decide
    | (with_reducible refine (foot_buckReloaded ..).mono ?_) <;> decide
    | split
    | dsimp only

theorem foot_thresholdUpdate : (thresholdUpdate).In [0, 1, 3, 4, 5, 6, 9, 12, 16, 17, 20, 32, 33, 35, 43, 44, 45, 46, 47, 48, 49, 50, 54, 58] := by
  unfold thresholdUpdate
  repeat' first
    | with_reducible refine M.In.bind ?_ fun _ => ?_
    | with_reducible refine M.In.ite ?_ ?_
    | with_reducible exact M.In.pure _
    | with_reducible exact M.In.rf _
    | with_reducible exact M.In.hidden
    | (with_reducible refine (foot_setThreshold ..).mono ?_) <;> decide
    | (with_reducible refine foot_watchCharge ?_ ?_) <;> first | decide | skip
    | (with_reducible refine (foot_updCnv ..).mono ?_) <;> decide
    | with_reducible refine M.In.forM (fun _ => ?_) _
    | with_reducible refine M.In.optForM (fun _ => ?_) _
    | split
    | dsimp only

theorem foot_hiccupEnd : (hiccupEnd).In [14, 51, 58] := by
  unfold hiccupEnd
  repeat' first
    | with_reducible refine M.In.bind ?_ fun _ => ?_
    | with_reducible refine M.In.ite ?_ ?_
    | with_reducible exact M.In.pure _
    | with_reducible exact M.In.getS
    | (with_reducible refine (foot_latRestart ..).mono ?_) <;> decide
    | (with_reducible refine (foot_updCnv ..).mono ?_) <;> decide
    | (with_reducible refine M.In.wf 14 _ _ ?_ ?_) <;> first | decide
    | (with_reducible refine M.In.hidAt fun x k hk => ?_) <;> (unfold SameHid; split <;> first | rfl | exact absurd (by decide) hk)
    | split
    | dsimp only

theorem foot_vsetWritten : (vsetWritten).In [7, 51] := by
  unfold vsetWritten
  repeat' first
    | with_reducible refine M.In.bind ?_ fun _ => ?_
    | with_reducible refine M.In.ite ?_ ?_
    | with_reducible exact M.In.pure _
    | with_reducible exact M.In.getS
    | (with_reducible refine (foot_newTarget ..).mono ?_) <;> decide
    | (with_reducible refine M.In.wf 7 _ _ ?_ ?_) <;> first | decide | exact LAT.RAMP_page _ | exact LAT.RG_CFG_page _ | exact LAT.TARGET_page _
    | (with_reducible refine M.In.wr 7 _ _ ?_ ?_) <;> first | decide | exact LAT.RAMP_page _ | exact LAT.RG_CFG_page _ | exact LAT.TARGET_page _
    | split
    | dsimp only

theorem foot_clearTimer : (clearTimer).In [15, 59] := by
  unfold clearTimer
  repeat' first
    | with_reducible refine M.In.bind ?_ fun _ => ?_
    | with_reducible exact M.In.pure _
    | (with_reducible refine (foot_updLvp ..).mono ?_) <;> decide
    | (with_reducible refine M.In.wf 15 _ _ ?_ ?_) <;> first | decide
    | dsimp only

theorem foot_inputLimit : (inputLimit).In [7, 51] := by
  unfold inputLimit
  repeat' first
    | with_reducible refine M.In.bind ?_ fun _ => ?_
    | with_reducible refine M.In.ite ?_ ?_
    | with_reducible exact M.In.pure _
    | with_reducible exact M.In.getS
    | (with_reducible refine (foot_setTarget ..).mono ?_) <;> decide
    | split
    | dsimp only

theorem foot_sourceClassify : (sourceClassify).In [0, 1, 3, 4, 5, 6, 7, 9, 12, 15, 16, 17, 20, 33, 35, 43, 44, 45, 46, 47, 48, 49, 50, 51, 59] := by
  unfold sourceClassify
  repeat' first
    | with_reducible refine M.In.bind ?_ fun _ => ?_
    | with_reducible refine M.In.ite ?_ ?_
    | with_reducible exact M.In.pure _
    | with_reducible exact M.In.getS
    | (with_reducible refine (foot_occur ..).mono ?_) <;> decide
    | (with_reducible refine (foot_updLvp ..).mono ?_) <;> decide
    | (with_reducible refine (foot_lvpEvent ..).mono ?_) <;> decide
    | (with_reducible refine (foot_clearTimer ..).mono ?_) <;> decide
    | (with_reducible refine (foot_inputLimit ..).mono ?_) <;> decide
    | (with_reducible refine M.In.wf 15 _ _ ?_ ?_) <;> first | decide
    | (with_reducible refine M.In.hidAt fun x k hk => ?_) <;> (unfold SameHid; split <;> first | rfl | exact absurd (by decide) hk)
    | split
    | dsimp only

theorem foot_chargeTargets : (chargeTargets).In [7, 51] := by
  unfold chargeTargets
  repeat' first
    | with_reducible refine M.In.bind ?_ fun _ => ?_
    | with_reducible exact M.In.pure _
    | with_reducible exact M.In.getS
    | (with_reducible refine (foot_setTarget ..).mono ?_) <;> decide
    | dsimp only

theorem foot_chargeDone : (chargeDone).In [7, 15, 51] := by
  unfold chargeDone
  repeat' first
    | with_reducible refine M.In.bind ?_ fun _ => ?_
    | with_reducible exact M.In.pure _
    | with_reducible exact M.In.getS
    | (with_reducible refine (foot_setTarget ..).mono ?_) <;> decide
    | (with_reducible refine M.In.wf 15 _ _ ?_ ?_) <;> first | decide
    | dsimp only

theorem foot_chargerRest : (chargerRest).In [7, 15, 51, 59] := by
  unfold chargerRest
  repeat' first
    | with_reducible refine M.In.bind ?_ fun _ => ?_
    | with_reducible refine M.In.ite ?_ ?_
    | with_reducible exact M.In.pure _
    | with_reducible exact M.In.getS
    | (with_reducible refine (foot_updLvp ..).mono ?_) <;> decide
    | (with_reducible refine (foot_setTarget ..).mono ?_) <;> decide
    | (with_reducible refine M.In.wf 15 _ _ ?_ ?_) <;> first | decide
    | (with_reducible refine M.In.hidAt fun x k hk => ?_) <;> (unfold SameHid; split <;> first | rfl | exact absurd (by decide) hk)
    | split
    | dsimp only

theorem foot_restEnd : (restEnd).In [7, 15, 51, 59] := by
  unfold restEnd
  repeat' first
    | with_reducible refine M.In.bind ?_ fun _ => ?_
    | with_reducible refine M.In.ite ?_ ?_
    | with_reducible exact M.In.pure _
    | with_reducible exact M.In.getS
    | (with_reducible refine (foot_updLvp ..).mono ?_) <;> decide
    | (with_reducible refine (foot_setTarget ..).mono ?_) <;> decide
    | (with_reducible refine (foot_chargeTargets ..).mono ?_) <;> decide
    | (with_reducible refine (foot_chargeDone ..).mono ?_) <;> decide
    | (with_reducible refine M.In.wf 15 _ _ ?_ ?_) <;> first | decide
    | (with_reducible refine M.In.hidAt fun x k hk => ?_) <;> (unfold SameHid; split <;> first | rfl | exact absurd (by decide) hk)
    | split
    | dsimp only

theorem foot_cvTermination : (cvTermination).In [7, 15, 51] := by
  unfold cvTermination
  repeat' first
    | with_reducible refine M.In.bind ?_ fun _ => ?_
    | with_reducible refine M.In.ite ?_ ?_
    | with_reducible exact M.In.pure _
    | with_reducible exact M.In.getS
    | (with_reducible refine (foot_chargeDone ..).mono ?_) <;> decide
    | (with_reducible refine M.In.hidAt fun x k hk => ?_) <;> (unfold SameHid; split <;> first | rfl | exact absurd (by decide) hk)
    | split
    | dsimp only

theorem foot_foldback : (foldback).In [7, 15, 51] := by
  unfold foldback
  repeat' first
    | with_reducible refine M.In.bind ?_ fun _ => ?_
    | with_reducible refine M.In.ite ?_ ?_
    | with_reducible exact M.In.pure _
    | with_reducible exact M.In.getS
    | (with_reducible refine (foot_setTarget ..).mono ?_) <;> decide
    | (with_reducible refine M.In.wf 15 _ _ ?_ ?_) <;> first | decide
    | split
    | dsimp only

theorem foot_timerExpired : (timerExpired).In [0, 1, 3, 4, 5, 6, 7, 9, 12, 15, 16, 17, 20, 33, 35, 43, 44, 45, 46, 47, 48, 49, 50, 51] := by
  unfold timerExpired
  repeat' first
    | with_reducible refine M.In.bind ?_ fun _ => ?_
    | with_reducible refine M.In.ite ?_ ?_
    | with_reducible exact M.In.pure _
    | with_reducible exact M.In.getS
    | (with_reducible refine (foot_occur ..).mono ?_) <;> decide
    | (with_reducible refine (foot_setTarget ..).mono ?_) <;> decide
    | (with_reducible refine M.In.wf 15 _ _ ?_ ?_) <;> first | decide
    | (with_reducible refine M.In.inc 15 _ ?_ ?_) <;> first | decide
    | split
    | dsimp only

theorem foot_lvpTick : (lvpTick).In [7, 15, 51, 59] := by
  unfold lvpTick
  repeat' first
    | with_reducible refine M.In.bind ?_ fun _ => ?_
    | with_reducible refine M.In.ite ?_ ?_
    | with_reducible exact M.In.pure _
    | with_reducible exact M.In.getS
    | (with_reducible refine (foot_updLvp ..).mono ?_) <;> decide
    | (with_reducible refine (foot_inputLimit ..).mono ?_) <;> decide
    | (with_reducible refine M.In.inc 15 _ ?_ ?_) <;> first | decide
    | (with_reducible refine M.In.hidAt fun x k hk => ?_) <;> (unfold SameHid; split <;> first | rfl | exact absurd (by decide) hk)
    | split
    | dsimp only

theorem foot_chargeStart : (chargeStart).In [7, 15, 51, 59] := by
  unfold chargeStart
  repeat' first
    | with_reducible refine M.In.bind ?_ fun _ => ?_
    | with_reducible exact M.In.pure _
    | with_reducible exact M.In.getS
    | (with_reducible refine (foot_updLvp ..).mono ?_) <;> decide
    | (with_reducible refine (foot_chargeTargets ..).mono ?_) <;> decide
    | (with_reducible refine M.In.wf 15 _ _ ?_ ?_) <;> first | decide
    | dsimp only

theorem foot_chargeStop : (chargeStop).In [7, 15, 51] := by
  unfold chargeStop
  repeat' first
    | with_reducible refine M.In.bind ?_ fun _ => ?_
    | with_reducible exact M.In.pure _
    | with_reducible exact M.In.getS
    | (with_reducible refine (foot_setTarget ..).mono ?_) <;> decide
    | (with_reducible refine M.In.wf 15 _ _ ?_ ?_) <;> first | decide
    | dsimp only

theorem foot_longPress (ms : Nat) : (longPress ms).In [0, 1, 2, 3, 4, 5, 6, 9, 15, 16, 20, 33, 43, 44, 45, 47, 49, 50, 56, 59] := by
  unfold longPress
  repeat' first
    | with_reducible refine M.In.bind ?_ fun _ => ?_
    | with_reducible refine M.In.ite ?_ ?_
    | with_reducible exact M.In.pure _
    | with_reducible exact M.In.getS
    | (with_reducible refine (foot_disableGroup ..).mono ?_) <;> decide
    | (with_reducible refine (foot_updLvp ..).mono ?_) <;> decide
    | (with_reducible refine (foot_setBsw ..).mono ?_) <;> decide
    | (with_reducible refine (foot_lvpEvent ..).mono ?_) <;> decide
    | (with_reducible refine M.In.wf 15 _ _ ?_ ?_) <;> first | decide
    | split
    | dsimp only

theorem foot_followTrigger (f src : Nat) (asks : Bool) : (followTrigger f src asks).In [0, 1, 3, 4, 5, 6, 9, 12, 16, 20, 33, 43, 44, 45, 47, 48, 49, 50] := by
  unfold followTrigger
  repeat' first
    | with_reducible refine M.In.bind ?_ fun _ => ?_
    | with_reducible refine M.In.ite ?_ ?_
    | with_reducible exact M.In.pure _
    | with_reducible exact M.In.getS
    | (with_reducible refine (foot_trigger ..).mono ?_) <;> decide
    | (with_reducible refine (foot_withdraw ..).mono ?_) <;> decide
    | split
    | dsimp only

theorem foot_syncFunc (f : Nat) : (syncFunc f).In [0, 1, 3, 4, 5, 6, 9, 12, 16, 20, 33, 43, 44, 45, 47, 48, 49, 50] := by
  unfold syncFunc
  repeat' first
    | with_reducible refine M.In.bind ?_ fun _ => ?_
    | with_reducible refine M.In.ite ?_ ?_
    | with_reducible exact M.In.pure _
    | with_reducible exact M.In.getS
    | (with_reducible refine (foot_trigger ..).mono ?_) <;> decide
    | (with_reducible refine (foot_releaseFunc ..).mono ?_) <;> decide
    | (with_reducible refine (foot_followTrigger ..).mono ?_) <;> decide
    | split
    | dsimp only

theorem foot_syncFuncs : (syncFuncs).In [0, 1, 3, 4, 5, 6, 9, 12, 16, 20, 33, 43, 44, 45, 47, 48, 49, 50] := by
  unfold syncFuncs
  repeat' first
    | with_reducible refine M.In.bind ?_ fun _ => ?_
    | with_reducible exact M.In.pure _
    | (with_reducible refine (foot_syncFunc ..).mono ?_) <;> decide
    | with_reducible refine M.In.forM (fun _ => ?_) _
    | with_reducible refine M.In.optForM (fun _ => ?_) _
    | dsimp only

theorem foot_safDiag (detail : Nat) : (safDiag detail).In [0, 1, 3, 4, 5, 6, 9, 12, 16, 17, 20, 33, 35, 43, 44, 45, 46, 47, 48, 49, 50] := by
  unfold safDiag
  repeat' first
    | with_reducible refine M.In.bind ?_ fun _ => ?_
    | with_reducible refine M.In.ite ?_ ?_
    | with_reducible exact M.In.pure _
    | (with_reducible refine (foot_occurrence ..).mono ?_) <;> decide
    | (with_reducible refine M.In.wf 16 _ _ ?_ ?_) <;> first | decide
    | split
    | dsimp only

theorem foot_holdSafe (cause : Nat) : (holdSafe cause).In [0, 1, 3, 4, 5, 6, 9, 12, 16, 20, 33, 43, 44, 45, 47, 48, 50] := by
  unfold holdSafe
  repeat' first
    | with_reducible refine M.In.bind ?_ fun _ => ?_
    | with_reducible exact M.In.pure _
    | (with_reducible refine (foot_forceAct ..).mono ?_) <;> decide
    | with_reducible refine M.In.forM (fun _ => ?_) _
    | with_reducible refine M.In.optForM (fun _ => ?_) _
    | dsimp only

theorem foot_holdLink (cause : Nat) : (holdLink cause).In [0, 1, 3, 4, 5, 6, 9, 12, 16, 20, 33, 43, 44, 45, 47, 48, 50] := by
  unfold holdLink
  repeat' first
    | with_reducible refine M.In.bind ?_ fun _ => ?_
    | with_reducible refine M.In.ite ?_ ?_
    | with_reducible exact M.In.pure _
    | with_reducible exact M.In.getS
    | (with_reducible refine (foot_updGrp ..).mono ?_) <;> decide
    | (with_reducible refine (foot_showHeld ..).mono ?_) <;> decide
    | (with_reducible refine (foot_holdSafe ..).mono ?_) <;> decide
    | with_reducible refine M.In.forM (fun _ => ?_) _
    | with_reducible refine M.In.optForM (fun _ => ?_) _
    | split
    | dsimp only

theorem foot_heartbeatLost : (heartbeatLost).In [0, 1, 3, 4, 5, 6, 9, 12, 16, 17, 20, 33, 35, 43, 44, 45, 46, 47, 48, 49, 50] := by
  unfold heartbeatLost
  repeat' first
    | with_reducible refine M.In.bind ?_ fun _ => ?_
    | with_reducible exact M.In.pure _
    | (with_reducible refine (foot_safDiag ..).mono ?_) <;> decide
    | (with_reducible refine (foot_holdLink ..).mono ?_) <;> decide
    | (with_reducible refine M.In.wf 16 _ _ ?_ ?_) <;> first | decide
    | (with_reducible refine M.In.inc 16 _ ?_ ?_) <;> first | decide
    | dsimp only

theorem foot_logicMismatch : (logicMismatch).In [0, 1, 3, 4, 5, 6, 9, 12, 16, 17, 20, 33, 35, 43, 44, 45, 46, 47, 48, 49, 50] := by
  unfold logicMismatch
  repeat' first
    | with_reducible refine M.In.bind ?_ fun _ => ?_
    | with_reducible exact M.In.pure _
    | (with_reducible refine (foot_safDiag ..).mono ?_) <;> decide
    | (with_reducible refine M.In.wf 16 _ _ ?_ ?_) <;> first | decide
    | dsimp only

theorem foot_setDemand (i cause : Nat) : (setDemand i cause).In [1, 16, 20, 33, 43, 47] := by
  unfold setDemand
  repeat' first
    | with_reducible refine M.In.bind ?_ fun _ => ?_
    | with_reducible refine M.In.ite ?_ ?_
    | with_reducible exact M.In.pure _
    | with_reducible exact M.In.getS
    | (with_reducible refine (foot_eventDev ..).mono ?_) <;> decide
    | (with_reducible refine M.In.wf 16 _ _ ?_ ?_) <;> first | decide | exact SAF.SIN_page _
    | (with_reducible refine M.In.inc 16 _ ?_ ?_) <;> first | decide | exact SAF.SIN_page _
    | split
    | dsimp only

theorem foot_inputChanged (i cause : Nat) : (inputChanged i cause).In [0, 1, 3, 4, 5, 6, 9, 12, 16, 20, 33, 43, 44, 45, 47, 48, 49, 50] := by
  unfold inputChanged
  repeat' first
    | with_reducible refine M.In.bind ?_ fun _ => ?_
    | with_reducible refine M.In.ite ?_ ?_
    | with_reducible exact M.In.pure _
    | with_reducible exact M.In.getS
    | (with_reducible refine (foot_acknowledge ..).mono ?_) <;> decide
    | (with_reducible refine (foot_syncFuncs ..).mono ?_) <;> decide
    | (with_reducible refine (foot_setDemand ..).mono ?_) <;> decide
    | split
    | dsimp only

theorem foot_setLevel (i : Nat) (high : Bool) : (setLevel i high).In [0, 1, 3, 4, 5, 6, 9, 12, 16, 20, 33, 43, 44, 45, 47, 48, 49, 50] := by
  unfold setLevel
  repeat' first
    | with_reducible refine M.In.bind ?_ fun _ => ?_
    | with_reducible exact M.In.pure _
    | (with_reducible refine (foot_inputChanged ..).mono ?_) <;> decide
    | (with_reducible refine M.In.wf 16 _ _ ?_ ?_) <;> first | decide | exact SAF.SIN_page _
    | dsimp only

theorem foot_inputLow (i us : Nat) : (inputLow i us).In [0, 1, 3, 4, 5, 6, 9, 12, 16, 20, 33, 43, 44, 45, 47, 48, 49, 50] := by
  unfold inputLow
  repeat' first
    | with_reducible refine M.In.bind ?_ fun _ => ?_
    | with_reducible refine M.In.ite ?_ ?_
    | with_reducible exact M.In.pure _
    | with_reducible exact M.In.rf _
    | (with_reducible refine (foot_setLevel ..).mono ?_) <;> decide
    | split
    | dsimp only

theorem foot_inputHigh (i : Nat) : (inputHigh i).In [0, 1, 3, 4, 5, 6, 9, 12, 16, 20, 33, 43, 44, 45, 47, 48, 49, 50] := by
  unfold inputHigh
  repeat' first
    | with_reducible refine M.In.bind ?_ fun _ => ?_
    | with_reducible refine M.In.ite ?_ ?_
    | with_reducible exact M.In.pure _
    | with_reducible exact M.In.rf _
    | (with_reducible refine (foot_setLevel ..).mono ?_) <;> decide
    | split
    | dsimp only

theorem foot_failInput (i : Nat) : (failInput i).In [0, 1, 3, 4, 5, 6, 9, 12, 16, 17, 20, 33, 35, 43, 44, 45, 46, 47, 48, 49, 50] := by
  unfold failInput
  repeat' first
    | with_reducible refine M.In.bind ?_ fun _ => ?_
    | with_reducible exact M.In.pure _
    | (with_reducible refine (foot_occur ..).mono ?_) <;> decide
    | (with_reducible refine (foot_inputChanged ..).mono ?_) <;> decide
    | (with_reducible refine M.In.wf 16 _ _ ?_ ?_) <;> first | decide | exact SAF.SIN_page _
    | (refine M.In.hid_saf _ ?_; decide)
    | dsimp only

theorem foot_passInput (i : Nat) : (passInput i).In [0, 1, 3, 4, 5, 6, 9, 12, 16, 20, 33, 43, 44, 45, 47, 48, 49, 50] := by
  unfold passInput
  repeat' first
    | with_reducible refine M.In.bind ?_ fun _ => ?_
    | with_reducible refine M.In.ite ?_ ?_
    | with_reducible exact M.In.pure _
    | with_reducible exact M.In.getS
    | (with_reducible refine (foot_inputChanged ..).mono ?_) <;> decide
    | (with_reducible refine M.In.wf 16 _ _ ?_ ?_) <;> first | decide | exact SAF.SIN_page _
    | (refine M.In.hid_saf _ ?_; decide)
    | split
    | dsimp only

theorem foot_testPulse (k low short t : Nat) : (testPulse k low short t).In [0, 1, 3, 4, 5, 6, 9, 12, 16, 17, 20, 33, 35, 43, 44, 45, 46, 47, 48, 49, 50] := by
  unfold testPulse
  repeat' first
    | with_reducible refine M.In.bind ?_ fun _ => ?_
    | with_reducible refine M.In.ite ?_ ?_
    | with_reducible exact M.In.pure _
    | with_reducible exact M.In.getS
    | (with_reducible refine (foot_failInput ..).mono ?_) <;> decide
    | (with_reducible refine (foot_passInput ..).mono ?_) <;> decide
    | (with_reducible refine M.In.incWrap 16 _ ?_ ?_) <;> first | decide | exact SAF.SIN_page _ | exact SAF.SSUP_page _
    | with_reducible refine M.In.forM (fun _ => ?_) _
    | with_reducible refine M.In.optForM (fun _ => ?_) _
    | split
    | dsimp only

theorem foot_inputDisc (i ms : Nat) : (inputDisc i ms).In [0, 1, 3, 4, 5, 6, 9, 12, 16, 17, 20, 33, 35, 43, 44, 45, 46, 47, 48, 49, 50] := by
  unfold inputDisc
  repeat' first
    | with_reducible refine M.In.bind ?_ fun _ => ?_
    | with_reducible refine M.In.ite ?_ ?_
    | with_reducible exact M.In.pure _
    | with_reducible exact M.In.getS
    | (with_reducible refine (foot_occurrence ..).mono ?_) <;> decide
    | (with_reducible refine (foot_inputChanged ..).mono ?_) <;> decide
    | (with_reducible refine M.In.wf 16 _ _ ?_ ?_) <;> first | decide | exact SAF.SIN_page _
    | (refine M.In.hid_saf _ ?_; decide)
    | split
    | dsimp only

theorem foot_supplyOc (k : Nat) : (supplyOc k).In [0, 1, 3, 4, 5, 6, 9, 12, 16, 17, 20, 33, 35, 43, 44, 45, 46, 47, 48, 49, 50] := by
  unfold supplyOc
  repeat' first
    | with_reducible refine M.In.bind ?_ fun _ => ?_
    | with_reducible refine M.In.ite ?_ ?_
    | with_reducible exact M.In.pure _
    | with_reducible exact M.In.getS
    | (with_reducible refine (foot_occur ..).mono ?_) <;> decide
    | (with_reducible refine (foot_setLevel ..).mono ?_) <;> decide
    | (with_reducible refine M.In.wf 16 _ _ ?_ ?_) <;> first | decide | exact SAF.SIN_page _ | exact SAF.SSUP_page _
    | with_reducible refine M.In.forM (fun _ => ?_) _
    | with_reducible refine M.In.optForM (fun _ => ?_) _
    | split
    | dsimp only

theorem foot_sinFaultClear (i : Nat) : (sinFaultClear i).In [49] := by
  unfold sinFaultClear
  repeat' first
    | with_reducible refine M.In.bind ?_ fun _ => ?_
    | with_reducible refine M.In.ite ?_ ?_
    | with_reducible exact M.In.pure _
    | with_reducible exact M.In.rf _
    | (refine M.In.hid_saf _ ?_; decide)
    | split
    | dsimp only

theorem foot_updLeg (l : Nat) (f : MsgPath → MsgPath) : (updLeg l f).In [49] := by
  unfold updLeg
  repeat' first
    | with_reducible refine M.In.bind ?_ fun _ => ?_
    | with_reducible exact M.In.pure _
    | (refine M.In.hid_saf _ ?_; decide)
    | dsimp only

theorem foot_setLegState (l : Nat) (up : Bool) (cause : Nat) : (setLegState l up cause).In [1, 16, 20, 33, 43, 47, 49] := by
  unfold setLegState
  repeat' first
    | with_reducible refine M.In.bind ?_ fun _ => ?_
    | with_reducible refine M.In.ite ?_ ?_
    | with_reducible exact M.In.pure _
    | with_reducible exact M.In.getS
    | (with_reducible refine (foot_eventDev ..).mono ?_) <;> decide
    | (with_reducible refine (foot_updLeg ..).mono ?_) <;> decide
    | (with_reducible refine M.In.wf 16 _ _ ?_ ?_) <;> first | decide
    | split
    | dsimp only

theorem foot_legErr (l : Nat) : (legErr l).In [0, 1, 3, 4, 5, 6, 9, 12, 16, 17, 20, 33, 35, 43, 44, 45, 46, 47, 48, 49, 50] := by
  unfold legErr
  repeat' first
    | with_reducible refine M.In.bind ?_ fun _ => ?_
    | with_reducible refine M.In.ite ?_ ?_
    | with_reducible exact M.In.pure _
    | (with_reducible refine (foot_occurrence ..).mono ?_) <;> decide
    | (with_reducible refine (foot_updLeg ..).mono ?_) <;> decide
    | (with_reducible refine (foot_setLegState ..).mono ?_) <;> decide
    | split
    | dsimp only

theorem foot_messageLoss (cause : Nat) : (messageLoss cause).In [0, 1, 3, 4, 5, 6, 9, 12, 16, 20, 33, 43, 44, 45, 47, 48, 49, 50] := by
  unfold messageLoss
  repeat' first
    | with_reducible refine M.In.bind ?_ fun _ => ?_
    | with_reducible exact M.In.pure _
    | with_reducible exact M.In.getS
    | (with_reducible refine (foot_trigger ..).mono ?_) <;> decide
    | dsimp only

theorem foot_acceptMessage (bs : List Byte) (from_ : Option MsgLeg) : (acceptMessage bs from_).In [0, 1, 3, 4, 5, 6, 8, 9, 12, 16, 20, 33, 43, 44, 45, 47, 48, 49, 50] := by
  unfold acceptMessage
  repeat' first
    | with_reducible refine M.In.bind ?_ fun _ => ?_
    | with_reducible refine M.In.ite ?_ ?_
    | with_reducible exact M.In.pure _
    | with_reducible exact M.In.getS
    | (with_reducible refine (foot_withdraw ..).mono ?_) <;> decide
    | (with_reducible refine (foot_acknowledge ..).mono ?_) <;> decide
    | (with_reducible refine (foot_syncFuncs ..).mono ?_) <;> decide
    | (with_reducible refine M.In.wf 0 _ _ ?_ ?_) <;> first | decide | exact FLD.MCH_CFG_page _ | exact FLD.TQ_REQ_page _ | exact SYS.XFER_page _
    | (with_reducible refine M.In.wf 8 _ _ ?_ ?_) <;> first | decide | exact FLD.MCH_CFG_page _ | exact FLD.TQ_REQ_page _ | exact SYS.XFER_page _
    | (with_reducible refine M.In.wf 16 _ _ ?_ ?_) <;> first | decide | exact FLD.MCH_CFG_page _ | exact FLD.TQ_REQ_page _ | exact SYS.XFER_page _
    | (with_reducible refine M.In.wr 0 _ _ ?_ ?_) <;> first | decide | exact FLD.MCH_CFG_page _ | exact FLD.TQ_REQ_page _ | exact SYS.XFER_page _
    | (with_reducible refine M.In.wr 8 _ _ ?_ ?_) <;> first | decide | exact FLD.MCH_CFG_page _ | exact FLD.TQ_REQ_page _ | exact SYS.XFER_page _
    | (with_reducible refine M.In.wr 16 _ _ ?_ ?_) <;> first | decide | exact FLD.MCH_CFG_page _ | exact FLD.TQ_REQ_page _ | exact SYS.XFER_page _
    | (with_reducible refine M.In.inc 0 _ ?_ ?_) <;> first | decide | exact FLD.MCH_CFG_page _ | exact FLD.TQ_REQ_page _ | exact SYS.XFER_page _
    | (with_reducible refine M.In.inc 8 _ ?_ ?_) <;> first | decide | exact FLD.MCH_CFG_page _ | exact FLD.TQ_REQ_page _ | exact SYS.XFER_page _
    | (with_reducible refine M.In.inc 16 _ ?_ ?_) <;> first | decide | exact FLD.MCH_CFG_page _ | exact FLD.TQ_REQ_page _ | exact SYS.XFER_page _
    | (refine M.In.hid_saf _ ?_; decide)
    | with_reducible refine M.In.forM (fun _ => ?_) _
    | with_reducible refine M.In.optForM (fun _ => ?_) _
    | split
    | dsimp only

theorem foot_pairedCopy (l : Nat) : (pairedCopy l).In [1, 16, 20, 33, 43, 47, 49] := by
  unfold pairedCopy
  repeat' first
    | with_reducible refine M.In.bind ?_ fun _ => ?_
    | with_reducible refine M.In.ite ?_ ?_
    | with_reducible exact M.In.pure _
    | with_reducible exact M.In.getS
    | (with_reducible refine (foot_updLeg ..).mono ?_) <;> decide
    | (with_reducible refine (foot_setLegState ..).mono ?_) <;> decide
    | split
    | dsimp only

theorem foot_pairCopy (src : MsgLeg) (bs : List Byte) : (pairCopy src bs).In [0, 1, 3, 4, 5, 6, 8, 9, 12, 16, 17, 20, 33, 35, 43, 44, 45, 46, 47, 48, 49, 50] := by
  unfold pairCopy
  repeat' first
    | with_reducible refine M.In.bind ?_ fun _ => ?_
    | with_reducible refine M.In.ite ?_ ?_
    | with_reducible exact M.In.pure _
    | with_reducible exact M.In.getS
    | (with_reducible refine (foot_occurrence ..).mono ?_) <;> decide
    | (with_reducible refine (foot_updLeg ..).mono ?_) <;> decide
    | (with_reducible refine (foot_messageLoss ..).mono ?_) <;> decide
    | (with_reducible refine (foot_acceptMessage ..).mono ?_) <;> decide
    | (with_reducible refine (foot_pairedCopy ..).mono ?_) <;> decide
    | (with_reducible refine M.In.inc 16 _ ?_ ?_) <;> first | decide
    | (with_reducible refine M.In.hidAt fun x k hk => ?_) <;> (unfold SameHid; split <;> first | rfl | exact absurd (by decide) hk)
    | split
    | dsimp only

theorem foot_safeCopy (src : MsgLeg) (bs : List Byte) : (safeCopy src bs).In [0, 1, 3, 4, 5, 6, 8, 9, 12, 16, 17, 20, 33, 35, 43, 44, 45, 46, 47, 48, 49, 50] := by
  unfold safeCopy
  repeat' first
    | with_reducible refine M.In.bind ?_ fun _ => ?_
    | with_reducible refine M.In.ite ?_ ?_
    | with_reducible exact M.In.pure _
    | with_reducible exact M.In.getS
    | (with_reducible refine (foot_updLeg ..).mono ?_) <;> decide
    | (with_reducible refine (foot_legErr ..).mono ?_) <;> decide
    | (with_reducible refine (foot_pairCopy ..).mono ?_) <;> decide
    | (with_reducible refine M.In.inc 16 _ ?_ ?_) <;> first | decide
    | split
    | dsimp only

theorem foot_skewExpiry (l : Nat) : (skewExpiry l).In [0, 1, 3, 4, 5, 6, 9, 12, 16, 17, 20, 33, 35, 43, 44, 45, 46, 47, 48, 49, 50] := by
  unfold skewExpiry
  repeat' first
    | with_reducible refine M.In.bind ?_ fun _ => ?_
    | with_reducible refine M.In.ite ?_ ?_
    | with_reducible exact M.In.pure _
    | with_reducible exact M.In.getS
    | (with_reducible refine (foot_updLeg ..).mono ?_) <;> decide
    | (with_reducible refine (foot_legErr ..).mono ?_) <;> decide
    | (with_reducible refine M.In.hidAt fun x k hk => ?_) <;> (unfold SameHid; split <;> first | rfl | exact absurd (by decide) hk)
    | split
    | dsimp only

theorem foot_statusSend : (statusSend).In [20, 47, 49] := by
  unfold statusSend
  repeat' first
    | with_reducible refine M.In.bind ?_ fun _ => ?_
    | with_reducible refine M.In.ite ?_ ?_
    | with_reducible exact M.In.pure _
    | with_reducible exact M.In.getS
    | (with_reducible refine (foot_canEnqueue ..).mono ?_) <;> decide
    | (with_reducible refine (foot_ethSend ..).mono ?_) <;> decide
    | (refine M.In.hid_saf _ ?_; decide)
    | split
    | dsimp only

theorem foot_messageTimeout : (messageTimeout).In [0, 1, 3, 4, 5, 6, 9, 12, 16, 17, 20, 33, 35, 43, 44, 45, 46, 47, 48, 49, 50] := by
  unfold messageTimeout
  repeat' first
    | with_reducible refine M.In.bind ?_ fun _ => ?_
    | with_reducible refine M.In.ite ?_ ?_
    | with_reducible exact M.In.pure _
    | with_reducible exact M.In.getS
    | (with_reducible refine (foot_eventDev ..).mono ?_) <;> decide
    | (with_reducible refine (foot_occur ..).mono ?_) <;> decide
    | (with_reducible refine (foot_messageLoss ..).mono ?_) <;> decide
    | (with_reducible refine M.In.wf 16 _ _ ?_ ?_) <;> first | decide
    | (with_reducible refine M.In.inc 16 _ ?_ ?_) <;> first | decide
    | (with_reducible refine M.In.hidAt fun x k hk => ?_) <;> (unfold SameHid; split <;> first | rfl | exact absurd (by decide) hk)
    | split
    | dsimp only

theorem foot_msgCfgWritten (old : Word) : (msgCfgWritten old).In [0, 1, 3, 4, 5, 6, 9, 12, 16, 20, 33, 43, 44, 45, 47, 48, 49, 50] := by
  unfold msgCfgWritten
  repeat' first
    | with_reducible refine M.In.bind ?_ fun _ => ?_
    | with_reducible refine M.In.ite ?_ ?_
    | with_reducible exact M.In.pure _
    | with_reducible exact M.In.getS
    | (with_reducible refine (foot_withdraw ..).mono ?_) <;> decide
    | (with_reducible refine (foot_syncFuncs ..).mono ?_) <;> decide
    | (with_reducible refine (foot_setLegState ..).mono ?_) <;> decide
    | (with_reducible refine M.In.wf 16 _ _ ?_ ?_) <;> first | decide
    | (refine M.In.hid_saf _ ?_; decide)
    | split
    | dsimp only

theorem foot_ss1Timeout (g : Nat) : (ss1Timeout g).In [0, 1, 3, 4, 5, 6, 9, 12, 16, 20, 33, 43, 44, 45, 47, 48, 49, 50] := by
  unfold ss1Timeout
  repeat' first
    | with_reducible refine M.In.bind ?_ fun _ => ?_
    | with_reducible refine M.In.ite ?_ ?_
    | with_reducible exact M.In.pure _
    | with_reducible exact M.In.getS
    | (with_reducible refine (foot_ss1Sto ..).mono ?_) <;> decide
    | split
    | dsimp only

theorem foot_parkRetry : (parkRetry).In [0, 1, 2, 3, 4, 5, 6, 7, 9, 10, 11, 12, 16, 17, 20, 33, 35, 42, 43, 44, 45, 46, 47, 48, 49, 50, 52, 55] := by
  unfold parkRetry
  repeat' first
    | with_reducible refine M.In.bind ?_ fun _ => ?_
    | with_reducible refine M.In.ite ?_ ?_
    | with_reducible exact M.In.pure _
    | with_reducible exact M.In.getS
    | (with_reducible refine (foot_actGo ..).mono ?_) <;> decide
    | (with_reducible refine M.In.inc 11 _ ?_ ?_) <;> first | decide | exact ACT.STAT_page _
    | (with_reducible refine M.In.fresh ?_) <;> decide
    | (with_reducible refine M.In.freshBytes _ ?_) <;> decide
    | (with_reducible refine M.In.freshRats _ ?_) <;> decide
    | (refine M.In.hid_saf _ ?_; decide)
    | split
    | dsimp only

theorem foot_parkFail : (parkFail).In [0, 1, 3, 4, 5, 6, 9, 12, 16, 17, 20, 33, 35, 43, 44, 45, 46, 47, 48, 49, 50] := by
  unfold parkFail
  repeat' first
    | with_reducible refine M.In.bind ?_ fun _ => ?_
    | with_reducible refine M.In.ite ?_ ?_
    | with_reducible exact M.In.pure _
    | with_reducible exact M.In.getS
    | (with_reducible refine (foot_momentary ..).mono ?_) <;> decide
    | (with_reducible refine (foot_occurrence ..).mono ?_) <;> decide
    | (refine M.In.hid_saf _ ?_; decide)
    | split
    | dsimp only

theorem foot_updCan (n : Nat) (f : CanSt → CanSt) : (updCan n f).In [47] := by
  unfold updCan
  repeat' first
    | with_reducible refine M.In.bind ?_ fun _ => ?_
    | with_reducible exact M.In.pure _
    | (refine M.In.hid_bus _ ?_; decide)
    | dsimp only

theorem foot_busEvent (n old new : Nat) : (busEvent n old new).In [1, 20, 33, 43, 47] := by
  unfold busEvent
  repeat' first
    | with_reducible refine M.In.bind ?_ fun _ => ?_
    | with_reducible exact M.In.pure _
    | with_reducible exact M.In.getS
    | (with_reducible refine (foot_eventDev ..).mono ?_) <;> decide
    | dsimp only

theorem foot_setBusState (n new : Nat) : (setBusState n new).In [1, 20, 33, 43, 47] := by
  unfold setBusState
  repeat' first
    | with_reducible refine M.In.bind ?_ fun _ => ?_
    | with_reducible refine M.In.ite ?_ ?_
    | with_reducible exact M.In.pure _
    | with_reducible exact M.In.rf _
    | (with_reducible refine (foot_busEvent ..).mono ?_) <;> decide
    | (with_reducible refine M.In.wf 20 _ _ ?_ ?_) <;> first | decide | exact BUS.STAT_page _
    | split
    | dsimp only

theorem foot_settleTime : (settleTime).In [47] := by
  unfold settleTime
  repeat' first
    | with_reducible refine M.In.bind ?_ fun _ => ?_
    | with_reducible exact M.In.pure _
    | with_reducible exact M.In.getS
    | (refine M.In.hid_bus _ ?_; decide)
    | dsimp only

theorem foot_setSynced (on : Bool) : (setSynced on).In [1, 20, 33, 43, 47] := by
  unfold setSynced
  repeat' first
    | with_reducible refine M.In.bind ?_ fun _ => ?_
    | with_reducible refine M.In.ite ?_ ?_
    | with_reducible exact M.In.pure _
    | with_reducible exact M.In.rf _
    | (with_reducible refine (foot_eventDev ..).mono ?_) <;> decide
    | (with_reducible refine M.In.wf 20 _ _ ?_ ?_) <;> first | decide
    | split
    | dsimp only

theorem foot_netTimeSet : (netTimeSet).In [20, 47] := by
  unfold netTimeSet
  repeat' first
    | with_reducible refine M.In.bind ?_ fun _ => ?_
    | with_reducible exact M.In.pure _
    | with_reducible exact M.In.getS
    | (with_reducible refine M.In.inc 20 _ ?_ ?_) <;> first | decide
    | (refine M.In.hid_bus _ ?_; decide)
    | dsimp only

theorem foot_takeReference (seq : Nat) (valid : Bool) (prev time : Nat) : (takeReference seq valid prev time).In [1, 20, 33, 43, 47] := by
  unfold takeReference
  repeat' first
    | with_reducible refine M.In.bind ?_ fun _ => ?_
    | with_reducible refine M.In.ite ?_ ?_
    | with_reducible exact M.In.pure _
    | with_reducible exact M.In.getS
    | (with_reducible refine (foot_settleTime ..).mono ?_) <;> decide
    | (with_reducible refine (foot_setSynced ..).mono ?_) <;> decide
    | (with_reducible refine M.In.wf 20 _ _ ?_ ?_) <;> first | decide
    | (with_reducible refine M.In.inc 20 _ ?_ ?_) <;> first | decide
    | (refine M.In.hid_bus _ ?_; decide)
    | split
    | dsimp only

theorem foot_busTimeLoss : (busTimeLoss).In [0, 1, 3, 4, 5, 6, 9, 12, 16, 17, 20, 33, 35, 43, 44, 45, 46, 47, 48, 49, 50] := by
  unfold busTimeLoss
  repeat' first
    | with_reducible refine M.In.bind ?_ fun _ => ?_
    | with_reducible refine M.In.ite ?_ ?_
    | with_reducible exact M.In.pure _
    | with_reducible exact M.In.getS
    | (with_reducible refine (foot_occur ..).mono ?_) <;> decide
    | (with_reducible refine (foot_setSynced ..).mono ?_) <;> decide
    | (with_reducible refine M.In.inc 20 _ ?_ ?_) <;> first | decide
    | (refine M.In.hid_bus _ ?_; decide)
    | split
    | dsimp only

theorem foot_sendReference : (sendReference).In [20, 47] := by
  unfold sendReference
  repeat' first
    | with_reducible refine M.In.bind ?_ fun _ => ?_
    | with_reducible refine M.In.ite ?_ ?_
    | with_reducible exact M.In.pure _
    | with_reducible exact M.In.getS
    | (with_reducible refine (foot_canEnqueue ..).mono ?_) <;> decide
    | (refine M.In.hid_bus _ ?_; decide)
    | split
    | dsimp only

theorem foot_showPool (n : Nat) : (showPool n).In [20] := by
  unfold showPool
  repeat' first
    | with_reducible refine M.In.bind ?_ fun _ => ?_
    | with_reducible exact M.In.pure _
    | with_reducible exact M.In.getS
    | (with_reducible refine M.In.wf 20 _ _ ?_ ?_) <;> first | decide | exact BUS.RX_STAT_page _
    | dsimp only

theorem foot_refill (n : Nat) (e : Option LogEntry) : (refill n e).In [20, 47] := by
  unfold refill
  repeat' first
    | with_reducible refine M.In.bind ?_ fun _ => ?_
    | with_reducible exact M.In.pure _
    | (with_reducible refine (foot_updCan ..).mono ?_) <;> decide
    | (with_reducible refine M.In.wf 20 _ _ ?_ ?_) <;> first | decide | exact BUS.WIN_page _
    | split
    | dsimp only

theorem foot_logFrame (n : Nat) (f : CanFrame) (tx : Bool) (time : Nat) : (logFrame n f tx time).In [0, 1, 3, 4, 5, 6, 9, 12, 16, 17, 20, 33, 35, 43, 44, 45, 46, 47, 48, 49, 50] := by
  unfold logFrame
  repeat' first
    | with_reducible refine M.In.bind ?_ fun _ => ?_
    | with_reducible refine M.In.ite ?_ ?_
    | with_reducible exact M.In.pure _
    | with_reducible exact M.In.getS
    | (with_reducible refine (foot_occur ..).mono ?_) <;> decide
    | (with_reducible refine (foot_updCan ..).mono ?_) <;> decide
    | (with_reducible refine (foot_showPool ..).mono ?_) <;> decide
    | (with_reducible refine (foot_refill ..).mono ?_) <;> decide
    | (with_reducible refine M.In.wr 20 _ _ ?_ ?_) <;> first | decide | exact BUS.CTRL_page _ | exact BUS.RX_HEAD_page _ | exact BUS.RX_STAT_page _
    | (with_reducible refine M.In.inc 20 _ ?_ ?_) <;> first | decide | exact BUS.CTRL_page _ | exact BUS.RX_HEAD_page _ | exact BUS.RX_STAT_page _
    | split
    | dsimp only

theorem foot_rxSelected (n : Nat) : (rxSelected n).In [20, 47] := by
  unfold rxSelected
  repeat' first
    | with_reducible refine M.In.bind ?_ fun _ => ?_
    | with_reducible refine M.In.ite ?_ ?_
    | with_reducible exact M.In.pure _
    | with_reducible exact M.In.getS
    | (with_reducible refine (foot_showPool ..).mono ?_) <;> decide
    | (with_reducible refine (foot_refill ..).mono ?_) <;> decide
    | split
    | dsimp only

theorem foot_setQueue (n : Nat) (l : List TxFrame) : (setQueue n l).In [20, 47] := by
  unfold setQueue
  repeat' first
    | with_reducible refine M.In.bind ?_ fun _ => ?_
    | with_reducible exact M.In.pure _
    | (with_reducible refine (foot_updCan ..).mono ?_) <;> decide
    | (with_reducible refine M.In.wf 20 _ _ ?_ ?_) <;> first | decide | exact BUS.TX_STAT_page _
    | dsimp only

theorem foot_dropExpired (n : Nat) : (dropExpired n).In [20, 47] := by
  unfold dropExpired
  repeat' first
    | with_reducible refine M.In.bind ?_ fun _ => ?_
    | with_reducible refine M.In.ite ?_ ?_
    | with_reducible exact M.In.pure _
    | with_reducible exact M.In.getS
    | (with_reducible refine (foot_setQueue ..).mono ?_) <;> decide
    | (with_reducible refine M.In.hidAt fun x k hk => ?_) <;> (unfold SameHid; split <;> first | rfl | exact absurd (by decide) hk)
    | split
    | dsimp only

theorem foot_transmitHead (n sof : Nat) : (transmitHead n sof).In [0, 1, 3, 4, 5, 6, 9, 12, 16, 17, 20, 33, 35, 43, 44, 45, 46, 47, 48, 49, 50] := by
  unfold transmitHead
  repeat' first
    | with_reducible refine M.In.bind ?_ fun _ => ?_
    | with_reducible refine M.In.ite ?_ ?_
    | with_reducible exact M.In.pure _
    | with_reducible exact M.In.getS
    | (with_reducible refine (foot_logFrame ..).mono ?_) <;> decide
    | (with_reducible refine (foot_setQueue ..).mono ?_) <;> decide
    | (with_reducible refine (foot_dropExpired ..).mono ?_) <;> decide
    | split
    | dsimp only

theorem foot_busState (n : Nat) (passive : Bool) (tec rec : Nat) : (busState n passive tec rec).In [1, 20, 33, 43, 47] := by
  unfold busState
  repeat' first
    | with_reducible refine M.In.bind ?_ fun _ => ?_
    | with_reducible refine M.In.ite ?_ ?_
    | with_reducible exact M.In.pure _
    | with_reducible exact M.In.getS
    | (with_reducible refine (foot_setBusState ..).mono ?_) <;> decide
    | (with_reducible refine M.In.wf 20 _ _ ?_ ?_) <;> first | decide | exact BUS.STAT_page _
    | split
    | dsimp only

theorem foot_busOff (n rec : Nat) : (busOff n rec).In [0, 1, 3, 4, 5, 6, 9, 12, 16, 17, 20, 33, 35, 43, 44, 45, 46, 47, 48, 49, 50] := by
  unfold busOff
  repeat' first
    | with_reducible refine M.In.bind ?_ fun _ => ?_
    | with_reducible refine M.In.ite ?_ ?_
    | with_reducible exact M.In.pure _
    | with_reducible exact M.In.getS
    | (with_reducible refine (foot_occurrence ..).mono ?_) <;> decide
    | (with_reducible refine (foot_setLegState ..).mono ?_) <;> decide
    | (with_reducible refine (foot_updCan ..).mono ?_) <;> decide
    | (with_reducible refine (foot_setBusState ..).mono ?_) <;> decide
    | (with_reducible refine M.In.wf 20 _ _ ?_ ?_) <;> first | decide | exact BUS.STAT_page _
    | (with_reducible refine M.In.inc 20 _ ?_ ?_) <;> first | decide | exact BUS.STAT_page _
    | split
    | dsimp only

theorem foot_busRecovered (n : Nat) : (busRecovered n).In [1, 20, 33, 43, 47] := by
  unfold busRecovered
  repeat' first
    | with_reducible refine M.In.bind ?_ fun _ => ?_
    | with_reducible refine M.In.ite ?_ ?_
    | with_reducible exact M.In.pure _
    | with_reducible exact M.In.getS
    | (with_reducible refine (foot_updCan ..).mono ?_) <;> decide
    | (with_reducible refine (foot_setBusState ..).mono ?_) <;> decide
    | (with_reducible refine (foot_setQueue ..).mono ?_) <;> decide
    | (with_reducible refine M.In.wf 20 _ _ ?_ ?_) <;> first | decide | exact BUS.CTRL_page _ | exact BUS.STAT_page _ | exact BUS.TX_STAT_page _
    | (with_reducible refine M.In.incBy 20 _ _ ?_ ?_) <;> first | decide | exact BUS.CTRL_page _ | exact BUS.STAT_page _ | exact BUS.TX_STAT_page _
    | (with_reducible refine M.In.hidAt fun x k hk => ?_) <;> (unfold SameHid; split <;> first | rfl | exact absurd (by decide) hk)
    | split
    | dsimp only

theorem foot_recoverWritten (n : Nat) : (recoverWritten n).In [20, 47] := by
  unfold recoverWritten
  repeat' first
    | with_reducible refine M.In.bind ?_ fun _ => ?_
    | with_reducible exact M.In.pure _
    | (with_reducible refine (foot_updCan ..).mono ?_) <;> decide
    | (with_reducible refine M.In.wf 20 _ _ ?_ ?_) <;> first | decide | exact BUS.STAT_page _
    | dsimp only

theorem foot_ctrlEnabled (n : Nat) (old : Word) : (ctrlEnabled n old).In [20, 47] := by
  unfold ctrlEnabled
  repeat' first
    | with_reducible refine M.In.bind ?_ fun _ => ?_
    | with_reducible refine M.In.ite ?_ ?_
    | with_reducible exact M.In.pure _
    | with_reducible exact M.In.getS
    | (with_reducible refine (foot_updCan ..).mono ?_) <;> decide
    | (with_reducible refine (foot_showPool ..).mono ?_) <;> decide
    | (with_reducible refine M.In.wf 20 _ _ ?_ ?_) <;> first | decide | exact BUS.CTRL_page _ | exact BUS.STAT_page _
    | split
    | dsimp only

theorem foot_netLink (p : Nat) (up : Bool) : (netLink p up).In [0, 1, 3, 4, 5, 6, 9, 12, 16, 17, 20, 21, 33, 35, 43, 44, 45, 46, 47, 48, 49, 50] := by
  unfold netLink
  repeat' first
    | with_reducible refine M.In.bind ?_ fun _ => ?_
    | with_reducible refine M.In.ite ?_ ?_
    | with_reducible exact M.In.pure _
    | with_reducible exact M.In.rf _
    | (with_reducible refine (foot_eventDev ..).mono ?_) <;> decide
    | (with_reducible refine (foot_occur ..).mono ?_) <;> decide
    | (with_reducible refine M.In.wf 21 _ _ ?_ ?_) <;> first | decide | exact NET.STAT_page _
    | (with_reducible refine M.In.inc 21 _ ?_ ?_) <;> first | decide | exact NET.STAT_page _
    | split
    | dsimp only

theorem foot_netPlca (ok : Bool) : (netPlca ok).In [0, 1, 3, 4, 5, 6, 9, 12, 16, 17, 20, 21, 33, 35, 43, 44, 45, 46, 47, 48, 49, 50] := by
  unfold netPlca
  repeat' first
    | with_reducible refine M.In.bind ?_ fun _ => ?_
    | with_reducible refine M.In.ite ?_ ?_
    | with_reducible exact M.In.pure _
    | with_reducible exact M.In.getS
    | (with_reducible refine (foot_occur ..).mono ?_) <;> decide
    | (with_reducible refine M.In.wf 21 _ _ ?_ ?_) <;> first | decide | exact NET.IF_CFG_page _ | exact NET.STAT_page _
    | split
    | dsimp only

theorem foot_arpAge (p ip : Nat) : (arpAge p ip).In [47] := by
  unfold arpAge
  repeat' first
    | with_reducible refine M.In.bind ?_ fun _ => ?_
    | with_reducible exact M.In.pure _
    | (refine M.In.hid_bus _ ?_; decide)
    | dsimp only

theorem foot_arpLearn (p ip mac : Nat) : (arpLearn p ip mac).In [47] := by
  unfold arpLearn
  repeat' first
    | with_reducible refine M.In.bind ?_ fun _ => ?_
    | with_reducible exact M.In.pure _
    | (refine M.In.hid_bus _ ?_; decide)
    | dsimp only

theorem foot_arpRetry : (arpRetry).In [47] := by
  unfold arpRetry
  repeat' first
    | with_reducible refine M.In.bind ?_ fun _ => ?_
    | with_reducible refine M.In.ite ?_ ?_
    | with_reducible exact M.In.pure _
    | with_reducible exact M.In.getS
    | (with_reducible refine (foot_ethSend ..).mono ?_) <;> decide
    | (refine M.In.hid_bus _ ?_; decide)
    | split
    | dsimp only

theorem foot_ethAnswer (p : Nat) (f : EthFrame) : (ethAnswer p f).In [21, 47] := by
  unfold ethAnswer
  repeat' first
    | with_reducible refine M.In.bind ?_ fun _ => ?_
    | with_reducible refine M.In.ite ?_ ?_
    | with_reducible exact M.In.pure _
    | with_reducible exact M.In.getS
    | (with_reducible refine (foot_ethSend ..).mono ?_) <;> decide
    | (with_reducible refine (foot_arpLearn ..).mono ?_) <;> decide
    | (with_reducible refine M.In.inc 21 _ ?_ ?_) <;> first | decide | exact NET.IP_page _ | exact NET.STAT_page _
    | (refine M.In.hid_bus _ ?_; decide)
    | split
    | dsimp only

end Sys2Proof.Machine
end

