-- ==== Sys2Proof/Laws/FootHost.lean ====
section
/-! SUPPORT. Footprints of islands, the life cycle and the host link: the places (Laws/Frame.lean) that each
operation may change. -/

set_option linter.all false

namespace Sys2Proof.Machine

theorem foot_resetScope (scope : Nat → Bool) (kept : List FldAt) : (resetScope scope kept).In [99] := by
  unfold resetScope
  repeat' first
    | with_reducible refine M.In.bind ?_ fun _ => ?_
    | (with_reducible refine M.In.wfAny _ _ ?_) <;> decide
    | (with_reducible refine M.In.any _ ?_) <;> decide
    | (with_reducible refine M.In.incAny _ ?_) <;> decide
    | (with_reducible refine M.In.incByAny _ _ ?_) <;> decide
    | (with_reducible refine M.In.incWrapAny _ ?_) <;> decide
    | (with_reducible refine M.In.any99 _ _ ?_) <;> decide
    | (with_reducible refine M.In.hidAny _ ?_) <;> decide
    | (with_reducible refine M.In.wtab99 _ _ _ ?_) <;> decide
    | (with_reducible refine M.In.fresh99 ?_) <;> decide
    | (with_reducible refine M.In.freshBytes99 _ ?_) <;> decide
    | (with_reducible refine M.In.freshRats99 _ ?_) <;> decide
    | with_reducible exact M.In.pure _
    | with_reducible exact M.In.getS
    | with_reducible refine M.In.forM (fun _ => ?_) _
    | with_reducible refine M.In.optForM (fun _ => ?_) _
    | dsimp only

theorem foot_loseConfig (n : Nat) : (loseConfig n).In [0, 1, 2, 5, 9, 20, 33, 43, 44, 45, 47, 57, 99] := by
  unfold loseConfig
  repeat' first
    | with_reducible refine M.In.bind ?_ fun _ => ?_
    | with_reducible refine M.In.ite ?_ ?_
    | (with_reducible refine M.In.wfAny _ _ ?_) <;> decide
    | (with_reducible refine M.In.any _ ?_) <;> decide
    | (with_reducible refine M.In.incAny _ ?_) <;> decide
    | (with_reducible refine M.In.incByAny _ _ ?_) <;> decide
    | (with_reducible refine M.In.incWrapAny _ ?_) <;> decide
    | (with_reducible refine M.In.any99 _ _ ?_) <;> decide
    | (with_reducible refine M.In.hidAny _ ?_) <;> decide
    | (with_reducible refine M.In.wtab99 _ _ _ ?_) <;> decide
    | (with_reducible refine M.In.fresh99 ?_) <;> decide
    | (with_reducible refine M.In.freshBytes99 _ ?_) <;> decide
    | (with_reducible refine M.In.freshRats99 _ ?_) <;> decide
    | with_reducible exact M.In.pure _
    | with_reducible exact M.In.getS
    | (with_reducible refine (foot_handLeft ..).mono ?_) <;> decide
    | (with_reducible refine (foot_rebindGroups ..).mono ?_) <;> decide
    | (with_reducible refine (foot_updMtr ..).mono ?_) <;> decide
    | (with_reducible refine (foot_resetScope ..).mono ?_) <;> decide
    | (with_reducible refine M.In.wf 5 _ _ ?_ ?_) <;> first | decide | exact GDR.RDY_CFG_page _
    | (with_reducible refine M.In.hidAt fun x k hk => ?_) <;> (unfold SameHid; split <;> first | rfl | exact absurd (by decide) hk)
    | with_reducible refine M.In.forM (fun _ => ?_) _
    | with_reducible refine M.In.optForM (fun _ => ?_) _
    | split
    | dsimp only

theorem foot_dropOperation (d : Due) : (dropOperation d).In [1, 2, 18, 19, 20, 33, 43, 45, 46, 47, 50, 60] := by
  unfold dropOperation
  repeat' first
    | with_reducible refine M.In.bind ?_ fun _ => ?_
    | with_reducible refine M.In.ite ?_ ?_
    | with_reducible exact M.In.pure _
    | with_reducible exact M.In.getS
    | (with_reducible refine (foot_updChord ..).mono ?_) <;> decide
    | (with_reducible refine (foot_setChd ..).mono ?_) <;> decide
    | (with_reducible refine (foot_giveBack ..).mono ?_) <;> decide
    | (with_reducible refine (foot_updBank ..).mono ?_) <;> decide
    | (with_reducible refine (foot_updMea ..).mono ?_) <;> decide
    | (with_reducible refine M.In.wf 2 _ _ ?_ ?_) <;> first | decide
    | (with_reducible refine M.In.wf 19 _ _ ?_ ?_) <;> first | decide
    | (refine M.In.hid_trp _ ?_; decide)
    | (refine M.In.hid_mem _ ?_; decide)
    | split
    | dsimp only

theorem foot_abandonOperations (n : Nat) : (abandonOperations n).In [0, 1, 2, 18, 19, 20, 33, 43, 45, 46, 47, 50, 60] := by
  unfold abandonOperations
  repeat' first
    | with_reducible refine M.In.bind ?_ fun _ => ?_
    | with_reducible exact M.In.pure _
    | with_reducible exact M.In.getS
    | (with_reducible refine (foot_absentReply ..).mono ?_) <;> decide
    | (with_reducible refine (foot_sendCompletion ..).mono ?_) <;> decide
    | (with_reducible refine (foot_dropOperation ..).mono ?_) <;> decide
    | (with_reducible refine M.In.hidAt fun x k hk => ?_) <;> (unfold SameHid; split <;> first | rfl | exact absurd (by decide) hk)
    | with_reducible refine M.In.forM (fun _ => ?_) _
    | with_reducible refine M.In.optForM (fun _ => ?_) _
    | dsimp only

theorem foot_abandonRequests (n : Nat) : (abandonRequests n).In [0, 1, 20, 33, 43, 47] := by
  unfold abandonRequests
  repeat' first
    | with_reducible refine M.In.bind ?_ fun _ => ?_
    | with_reducible refine M.In.ite ?_ ?_
    | with_reducible exact M.In.pure _
    | with_reducible exact M.In.getS
    | (with_reducible refine (foot_absentReply ..).mono ?_) <;> decide
    | (with_reducible refine (foot_replyEarly ..).mono ?_) <;> decide
    | (with_reducible refine (foot_endRun ..).mono ?_) <;> decide
    | (with_reducible refine M.In.wf 1 _ _ ?_ ?_) <;> first | decide | exact SYS.ISLAND_page _
    | (refine M.In.hid_cmd _ ?_; decide)
    | with_reducible refine M.In.forM (fun _ => ?_) _
    | with_reducible refine M.In.optForM (fun _ => ?_) _
    | split
    | dsimp only

theorem foot_setIsland (n new : Nat) : (setIsland n new).In [0, 1, 2, 18, 19, 20, 33, 43, 45, 46, 47, 50, 60] := by
  unfold setIsland
  repeat' first
    | with_reducible refine M.In.bind ?_ fun _ => ?_
    | with_reducible refine M.In.ite ?_ ?_
    | with_reducible exact M.In.pure _
    | with_reducible exact M.In.rf _
    | (with_reducible refine (foot_eventDev ..).mono ?_) <;> decide
    | (with_reducible refine (foot_abandonOperations ..).mono ?_) <;> decide
    | (with_reducible refine (foot_abandonRequests ..).mono ?_) <;> decide
    | (with_reducible refine M.In.wf 0 _ _ ?_ ?_) <;> first | decide | exact SYS.ISLAND_page _
    | split
    | dsimp only

theorem foot_islandGone (n : Nat) : (islandGone n).In [0, 1, 3, 4, 5, 6, 9, 12, 16, 17, 20, 33, 35, 43, 44, 45, 46, 47, 48, 49, 50] := by
  unfold islandGone
  repeat' first
    | with_reducible refine M.In.bind ?_ fun _ => ?_
    | with_reducible refine M.In.ite ?_ ?_
    | with_reducible exact M.In.pure _
    | with_reducible exact M.In.getS
    | (with_reducible refine (foot_forceAct ..).mono ?_) <;> decide
    | (with_reducible refine (foot_occur ..).mono ?_) <;> decide
    | with_reducible refine M.In.forM (fun _ => ?_) _
    | with_reducible refine M.In.optForM (fun _ => ?_) _
    | split
    | dsimp only

theorem foot_clockDeviation (n : Nat) (pll : Bool) : (clockDeviation n pll).In [0, 1, 2, 3, 4, 5, 6, 9, 12, 16, 17, 18, 19, 20, 33, 35, 43, 44, 45, 46, 47, 48, 49, 50, 60] := by
  unfold clockDeviation
  repeat' first
    | with_reducible refine M.In.bind ?_ fun _ => ?_
    | with_reducible refine M.In.ite ?_ ?_
    | with_reducible exact M.In.pure _
    | with_reducible exact M.In.rf _
    | (with_reducible refine (foot_occur ..).mono ?_) <;> decide
    | (with_reducible refine (foot_setIsland ..).mono ?_) <;> decide
    | (with_reducible refine (foot_islandGone ..).mono ?_) <;> decide
    | (with_reducible refine M.In.wf 0 _ _ ?_ ?_) <;> first | decide | exact SYS.ISLAND_page _
    | split
    | dsimp only

theorem foot_referenceLoss : (referenceLoss).In [0, 1, 3, 4, 5, 6, 9, 12, 16, 17, 20, 33, 35, 43, 44, 45, 46, 47, 48, 49, 50, 61] := by
  unfold referenceLoss
  repeat' first
    | with_reducible refine M.In.bind ?_ fun _ => ?_
    | with_reducible exact M.In.pure _
    | (with_reducible refine (foot_occur ..).mono ?_) <;> decide
    | (with_reducible refine (foot_allSafe ..).mono ?_) <;> decide
    | (with_reducible refine M.In.wf 0 _ _ ?_ ?_) <;> first | decide | exact SYS.ISLAND_page _
    | (refine M.In.hid_lcy _ ?_; decide)
    | with_reducible refine M.In.forM (fun _ => ?_) _
    | with_reducible refine M.In.optForM (fun _ => ?_) _
    | dsimp only

theorem foot_islandPresent (n : Nat) (regsOk : Bool) : (islandPresent n regsOk).In [0, 1, 2, 4, 5, 6, 9, 13, 18, 19, 20, 33, 43, 44, 45, 46, 47, 50, 57, 60, 99] := by
  unfold islandPresent
  repeat' first
    | with_reducible refine M.In.bind ?_ fun _ => ?_
    | with_reducible refine M.In.ite ?_ ?_
    | (with_reducible refine M.In.wfAny _ _ ?_) <;> decide
    | (with_reducible refine M.In.any _ ?_) <;> decide
    | (with_reducible refine M.In.incAny _ ?_) <;> decide
    | (with_reducible refine M.In.incByAny _ _ ?_) <;> decide
    | (with_reducible refine M.In.incWrapAny _ ?_) <;> decide
    | (with_reducible refine M.In.any99 _ _ ?_) <;> decide
    | (with_reducible refine M.In.hidAny _ ?_) <;> decide
    | (with_reducible refine M.In.wtab99 _ _ _ ?_) <;> decide
    | (with_reducible refine M.In.fresh99 ?_) <;> decide
    | (with_reducible refine M.In.freshBytes99 _ ?_) <;> decide
    | (with_reducible refine M.In.freshRats99 _ ?_) <;> decide
    | with_reducible exact M.In.pure _
    | with_reducible exact M.In.getS
    | (with_reducible refine (foot_linkReturns ..).mono ?_) <;> decide
    | (with_reducible refine (foot_showBank ..).mono ?_) <;> decide
    | (with_reducible refine (foot_startRotation ..).mono ?_) <;> decide
    | (with_reducible refine (foot_restoreConv ..).mono ?_) <;> decide
    | (with_reducible refine (foot_meterReturn ..).mono ?_) <;> decide
    | (with_reducible refine (foot_loseConfig ..).mono ?_) <;> decide
    | (with_reducible refine (foot_setIsland ..).mono ?_) <;> decide
    | (with_reducible refine M.In.wf 0 _ _ ?_ ?_) <;> first | decide | exact SYS.ISLAND_page _
    | (with_reducible refine M.In.hidAt fun x k hk => ?_) <;> (unfold SameHid; split <;> first | rfl | exact absurd (by decide) hk)
    | with_reducible refine M.In.forM (fun _ => ?_) _
    | with_reducible refine M.In.optForM (fun _ => ?_) _
    | split
    | dsimp only

theorem foot_linkLost : (linkLost).In [0, 1, 3, 4, 5, 6, 9, 12, 16, 17, 20, 33, 35, 43, 44, 45, 46, 47, 48, 49, 50] := by
  unfold linkLost
  repeat' first
    | with_reducible refine M.In.bind ?_ fun _ => ?_
    | with_reducible exact M.In.pure _
    | (with_reducible refine (foot_occur ..).mono ?_) <;> decide
    | (with_reducible refine (foot_holdLink ..).mono ?_) <;> decide
    | (with_reducible refine M.In.wf 0 _ _ ?_ ?_) <;> first | decide
    | (with_reducible refine M.In.inc 0 _ ?_ ?_) <;> first | decide
    | dsimp only

theorem foot_resetLink : (resetLink).In [1, 20, 43, 47] := by
  unfold resetLink
  repeat' first
    | with_reducible refine M.In.bind ?_ fun _ => ?_
    | with_reducible refine M.In.ite ?_ ?_
    | with_reducible exact M.In.pure _
    | with_reducible exact M.In.getS
    | (with_reducible refine (foot_putSessions ..).mono ?_) <;> decide
    | (with_reducible refine M.In.wf 20 _ _ ?_ ?_) <;> first | decide | exact BUS.TX_STAT_page _
    | (refine M.In.hid_bus _ ?_; decide)
    | with_reducible refine M.In.forM (fun _ => ?_) _
    | with_reducible refine M.In.optForM (fun _ => ?_) _
    | split
    | dsimp only

theorem foot_resetIsland (n : Nat) : (resetIsland n).In [0, 1, 2, 5, 9, 18, 19, 20, 33, 43, 44, 45, 46, 47, 50, 57, 60, 99] := by
  unfold resetIsland
  repeat' first
    | with_reducible refine M.In.bind ?_ fun _ => ?_
    | with_reducible refine M.In.ite ?_ ?_
    | (with_reducible refine M.In.wfAny _ _ ?_) <;> decide
    | (with_reducible refine M.In.any _ ?_) <;> decide
    | (with_reducible refine M.In.incAny _ ?_) <;> decide
    | (with_reducible refine M.In.incByAny _ _ ?_) <;> decide
    | (with_reducible refine M.In.incWrapAny _ ?_) <;> decide
    | (with_reducible refine M.In.any99 _ _ ?_) <;> decide
    | (with_reducible refine M.In.hidAny _ ?_) <;> decide
    | (with_reducible refine M.In.wtab99 _ _ _ ?_) <;> decide
    | (with_reducible refine M.In.fresh99 ?_) <;> decide
    | (with_reducible refine M.In.freshBytes99 _ ?_) <;> decide
    | (with_reducible refine M.In.freshRats99 _ ?_) <;> decide
    | with_reducible exact M.In.pure _
    | with_reducible exact M.In.getS
    | (with_reducible refine (foot_registerCommit ..).mono ?_) <;> decide
    | (with_reducible refine (foot_loseConfig ..).mono ?_) <;> decide
    | (with_reducible refine (foot_setIsland ..).mono ?_) <;> decide
    | (with_reducible refine M.In.inc 0 _ ?_ ?_) <;> first | decide | exact SYS.ISLAND_page _
    | (with_reducible refine M.In.hidAt fun x k hk => ?_) <;> (unfold SameHid; split <;> first | rfl | exact absurd (by decide) hk)
    | split
    | dsimp only

theorem supplyOk_page (m : Nat) : (supplyOk m).addr / 65536 = 22 := by
  unfold supplyOk
  split <;> rfl

theorem slotField_page (k s : Nat) : (slotField k s).addr / 65536 = 22 := by
  unfold slotField
  split <;> exact LCY.FW_STAT_page k

theorem foot_updLcy (f : LcySt → LcySt) : (updLcy f).In [61] := by
  unfold updLcy
  repeat' first
    | with_reducible refine M.In.bind ?_ fun _ => ?_
    | with_reducible exact M.In.pure _
    | (refine M.In.hid_lcy _ ?_; decide)
    | dsimp only

theorem foot_deviceReset (cause : Nat) (commanded : Bool) : (deviceReset cause commanded).In [0, 1, 3, 4, 5, 6, 9, 12, 16, 17, 19, 20, 32, 33, 35, 43, 44, 45, 46, 47, 48, 49, 50, 57, 60, 99] := by
  unfold deviceReset
  repeat' first
    | with_reducible refine M.In.bind ?_ fun _ => ?_
    | with_reducible refine M.In.ite ?_ ?_
    | (with_reducible refine M.In.wfAny _ _ ?_) <;> decide
    | (with_reducible refine M.In.any _ ?_) <;> decide
    | (with_reducible refine M.In.incAny _ ?_) <;> decide
    | (with_reducible refine M.In.incByAny _ _ ?_) <;> decide
    | (with_reducible refine M.In.incWrapAny _ ?_) <;> decide
    | (with_reducible refine M.In.any99 _ _ ?_) <;> decide
    | (with_reducible refine M.In.hidAny _ ?_) <;> decide
    | (with_reducible refine M.In.wtab99 _ _ _ ?_) <;> decide
    | (with_reducible refine M.In.fresh99 ?_) <;> decide
    | (with_reducible refine M.In.freshBytes99 _ ?_) <;> decide
    | (with_reducible refine M.In.freshRats99 _ ?_) <;> decide
    | with_reducible exact M.In.pure _
    | with_reducible exact M.In.getS
    | (with_reducible refine (foot_flushMerge ..).mono ?_) <;> decide
    | (with_reducible refine (foot_loseMerge ..).mono ?_) <;> decide
    | (with_reducible refine (foot_registerCommit ..).mono ?_) <;> decide
    | (with_reducible refine (foot_resetScope ..).mono ?_) <;> decide
    | (with_reducible refine M.In.wf 17 _ _ ?_ ?_) <;> first | decide
    | (with_reducible refine M.In.spiClear ?_) <;> decide
    | (with_reducible refine M.In.fltTake ?_) <;> decide
    | (with_reducible refine M.In.fltQDrop ?_) <;> decide
    | (with_reducible refine M.In.hidAt fun x k hk => ?_) <;> (unfold SameHid; split <;> first | rfl | exact absurd (by decide) hk)
    | split
    | dsimp only

theorem foot_powerOn : (powerOn).In [0, 1, 3, 4, 5, 6, 9, 12, 15, 16, 17, 19, 20, 22, 32, 33, 35, 43, 44, 45, 46, 47, 48, 49, 50, 57, 60, 61, 99] := by
  unfold powerOn
  repeat' first
    | with_reducible refine M.In.bind ?_ fun _ => ?_
    | with_reducible refine M.In.ite ?_ ?_
    | (with_reducible refine M.In.wfAny _ _ ?_) <;> decide
    | (with_reducible refine M.In.any _ ?_) <;> decide
    | (with_reducible refine M.In.incAny _ ?_) <;> decide
    | (with_reducible refine M.In.incByAny _ _ ?_) <;> decide
    | (with_reducible refine M.In.incWrapAny _ ?_) <;> decide
    | (with_reducible refine M.In.any99 _ _ ?_) <;> decide
    | (with_reducible refine M.In.hidAny _ ?_) <;> decide
    | (with_reducible refine M.In.wtab99 _ _ _ ?_) <;> decide
    | (with_reducible refine M.In.fresh99 ?_) <;> decide
    | (with_reducible refine M.In.freshBytes99 _ ?_) <;> decide
    | (with_reducible refine M.In.freshRats99 _ ?_) <;> decide
    | with_reducible exact M.In.pure _
    | with_reducible exact M.In.getS
    | (with_reducible refine (foot_deviceReset ..).mono ?_) <;> decide
    | (with_reducible refine M.In.wf 0 _ _ ?_ ?_) <;> first | decide | exact supplyOk_page _
    | (with_reducible refine M.In.wf 15 _ _ ?_ ?_) <;> first | decide | exact supplyOk_page _
    | (with_reducible refine M.In.wf 22 _ _ ?_ ?_) <;> first | decide | exact supplyOk_page _
    | (refine M.In.hid_pls _ ?_; decide)
    | (refine M.In.hid_lcy _ ?_; decide)
    | (with_reducible refine M.In.hidAt fun x k hk => ?_) <;> (unfold SameHid; split <;> first | rfl | exact absurd (by decide) hk)
    | with_reducible refine M.In.forM (fun _ => ?_) _
    | with_reducible refine M.In.optForM (fun _ => ?_) _
    | split
    | dsimp only

theorem foot_coreLoss : (coreLoss).In [0, 44, 61] := by
  unfold coreLoss
  repeat' first
    | with_reducible refine M.In.bind ?_ fun _ => ?_
    | with_reducible exact M.In.pure _
    | with_reducible exact M.In.getS
    | (with_reducible refine (foot_updLcy ..).mono ?_) <;> decide
    | (with_reducible refine M.In.inc 0 _ ?_ ?_) <;> first | decide
    | (refine M.In.hid_pls _ ?_; decide)
    | split
    | dsimp only

theorem foot_brownout (m : Nat) : (brownout m).In [0, 1, 3, 4, 5, 6, 9, 12, 16, 17, 19, 20, 22, 32, 33, 35, 43, 44, 45, 46, 47, 48, 49, 50, 57, 60, 61, 99] := by
  unfold brownout
  repeat' first
    | with_reducible refine M.In.bind ?_ fun _ => ?_
    | with_reducible refine M.In.ite ?_ ?_
    | (with_reducible refine M.In.wfAny _ _ ?_) <;> decide
    | (with_reducible refine M.In.any _ ?_) <;> decide
    | (with_reducible refine M.In.incAny _ ?_) <;> decide
    | (with_reducible refine M.In.incByAny _ _ ?_) <;> decide
    | (with_reducible refine M.In.incWrapAny _ ?_) <;> decide
    | (with_reducible refine M.In.any99 _ _ ?_) <;> decide
    | (with_reducible refine M.In.hidAny _ ?_) <;> decide
    | (with_reducible refine M.In.wtab99 _ _ _ ?_) <;> decide
    | (with_reducible refine M.In.fresh99 ?_) <;> decide
    | (with_reducible refine M.In.freshBytes99 _ ?_) <;> decide
    | (with_reducible refine M.In.freshRats99 _ ?_) <;> decide
    | with_reducible exact M.In.pure _
    | with_reducible exact M.In.rf _
    | (with_reducible refine (foot_deviceReset ..).mono ?_) <;> decide
    | (with_reducible refine (foot_coreLoss ..).mono ?_) <;> decide
    | (with_reducible refine M.In.wf 22 _ _ ?_ ?_) <;> first | decide | exact supplyOk_page _
    | (with_reducible refine M.In.inc 22 _ ?_ ?_) <;> first | decide | exact supplyOk_page _
    | split
    | dsimp only

theorem foot_restoreChords : (restoreChords).In [18] := by
  unfold restoreChords
  repeat' first
    | with_reducible refine M.In.bind ?_ fun _ => ?_
    | with_reducible refine M.In.ite ?_ ?_
    | with_reducible exact M.In.pure _
    | with_reducible exact M.In.getS
    | (with_reducible refine (foot_putChd ..).mono ?_) <;> decide
    | (with_reducible refine M.In.hidAt fun x k hk => ?_) <;> (unfold SameHid; split <;> first | rfl | exact absurd (by decide) hk)
    | with_reducible refine M.In.forM (fun _ => ?_) _
    | with_reducible refine M.In.optForM (fun _ => ?_) _
    | split
    | dsimp only

theorem foot_startMeter (ok : Bool) : (startMeter ok).In [0, 1, 13, 20, 22, 33, 42, 43, 47, 57] := by
  unfold startMeter
  repeat' first
    | with_reducible refine M.In.bind ?_ fun _ => ?_
    | with_reducible refine M.In.ite ?_ ?_
    | with_reducible exact M.In.pure _
    | with_reducible exact M.In.getS
    | (with_reducible refine (foot_meterReturn ..).mono ?_) <;> decide
    | (with_reducible refine M.In.wf 0 _ _ ?_ ?_) <;> first | decide | exact LCY.FW_STAT_page _ | exact SYS.ISLAND_page _
    | (with_reducible refine M.In.wf 22 _ _ ?_ ?_) <;> first | decide | exact LCY.FW_STAT_page _ | exact SYS.ISLAND_page _
    | (with_reducible refine M.In.fresh ?_) <;> decide
    | (with_reducible refine M.In.freshBytes _ ?_) <;> decide
    | (with_reducible refine M.In.freshRats _ ?_) <;> decide
    | split
    | dsimp only

theorem foot_resetRelease (b : BootIn) : (resetRelease b).In [0, 1, 2, 3, 4, 5, 6, 9, 12, 13, 16, 17, 18, 19, 20, 22, 33, 35, 42, 43, 44, 45, 46, 47, 48, 49, 50, 57, 60, 61] := by
  unfold resetRelease
  repeat' first
    | with_reducible refine M.In.bind ?_ fun _ => ?_
    | with_reducible refine M.In.ite ?_ ?_
    | with_reducible exact M.In.pure _
    | with_reducible exact M.In.getS
    | (with_reducible refine (foot_setAvail ..).mono ?_) <;> decide
    | (with_reducible refine (foot_showHeld ..).mono ?_) <;> decide
    | (with_reducible refine (foot_setDev ..).mono ?_) <;> decide
    | (with_reducible refine (foot_occur ..).mono ?_) <;> decide
    | (with_reducible refine (foot_setCfgCrc ..).mono ?_) <;> decide
    | (with_reducible refine (foot_wipeSram ..).mono ?_) <;> decide
    | (with_reducible refine (foot_showSpares ..).mono ?_) <;> decide
    | (with_reducible refine (foot_showBank ..).mono ?_) <;> decide
    | (with_reducible refine (foot_restoreConv ..).mono ?_) <;> decide
    | (with_reducible refine (foot_updLcy ..).mono ?_) <;> decide
    | (with_reducible refine (foot_restoreChords ..).mono ?_) <;> decide
    | (with_reducible refine (foot_startMeter ..).mono ?_) <;> decide
    | (with_reducible refine M.In.wf 0 _ _ ?_ ?_) <;> first | decide | exact LCY.FW_STAT_page _ | exact SYS.ISLAND_page _ | exact supplyOk_page _
    | (with_reducible refine M.In.wf 16 _ _ ?_ ?_) <;> first | decide | exact LCY.FW_STAT_page _ | exact SYS.ISLAND_page _ | exact supplyOk_page _
    | (with_reducible refine M.In.wf 19 _ _ ?_ ?_) <;> first | decide | exact LCY.FW_STAT_page _ | exact SYS.ISLAND_page _ | exact supplyOk_page _
    | (with_reducible refine M.In.wf 22 _ _ ?_ ?_) <;> first | decide | exact LCY.FW_STAT_page _ | exact SYS.ISLAND_page _ | exact supplyOk_page _
    | (with_reducible refine M.In.incWrap 0 _ ?_ ?_) <;> first | decide | exact LCY.FW_STAT_page _ | exact SYS.ISLAND_page _ | exact supplyOk_page _
    | (with_reducible refine M.In.incWrap 16 _ ?_ ?_) <;> first | decide | exact LCY.FW_STAT_page _ | exact SYS.ISLAND_page _ | exact supplyOk_page _
    | (with_reducible refine M.In.incWrap 19 _ ?_ ?_) <;> first | decide | exact LCY.FW_STAT_page _ | exact SYS.ISLAND_page _ | exact supplyOk_page _
    | (with_reducible refine M.In.incWrap 22 _ ?_ ?_) <;> first | decide | exact LCY.FW_STAT_page _ | exact SYS.ISLAND_page _ | exact supplyOk_page _
    | (with_reducible refine M.In.fresh ?_) <;> decide
    | (with_reducible refine M.In.freshBytes _ ?_) <;> decide
    | (with_reducible refine M.In.freshRats _ ?_) <;> decide
    | (with_reducible refine M.In.hidAt fun x k hk => ?_) <;> (unfold SameHid; split <;> first | rfl | exact absurd (by decide) hk)
    | with_reducible refine M.In.forM (fun _ => ?_) _
    | with_reducible refine M.In.optForM (fun _ => ?_) _
    | split
    | dsimp only

theorem foot_standbyReached : (standbyReached).In [0, 1, 3, 4, 5, 6, 9, 12, 16, 17, 20, 22, 33, 35, 43, 44, 45, 46, 47, 48, 49, 50, 61] := by
  unfold standbyReached
  repeat' first
    | with_reducible refine M.In.bind ?_ fun _ => ?_
    | with_reducible refine M.In.ite ?_ ?_
    | with_reducible exact M.In.pure _
    | with_reducible exact M.In.getS
    | (with_reducible refine (foot_setDev ..).mono ?_) <;> decide
    | (with_reducible refine (foot_occur ..).mono ?_) <;> decide
    | (with_reducible refine (foot_startRotation ..).mono ?_) <;> decide
    | (with_reducible refine (foot_updLcy ..).mono ?_) <;> decide
    | (with_reducible refine M.In.wf 0 _ _ ?_ ?_) <;> first | decide | exact LCY.FW_STAT_page _ | exact slotField_page _ _
    | (with_reducible refine M.In.wf 22 _ _ ?_ ?_) <;> first | decide | exact LCY.FW_STAT_page _ | exact slotField_page _ _
    | (with_reducible refine M.In.hidAt fun x k hk => ?_) <;> (unfold SameHid; split <;> first | rfl | exact absurd (by decide) hk)
    | with_reducible refine M.In.forM (fun _ => ?_) _
    | with_reducible refine M.In.optForM (fun _ => ?_) _
    | split
    | dsimp only

theorem foot_bootFallback : (bootFallback).In [0, 1, 3, 4, 5, 6, 9, 12, 16, 17, 19, 20, 22, 32, 33, 35, 43, 44, 45, 46, 47, 48, 49, 50, 57, 60, 61, 99] := by
  unfold bootFallback
  repeat' first
    | with_reducible refine M.In.bind ?_ fun _ => ?_
    | with_reducible refine M.In.ite ?_ ?_
    | (with_reducible refine M.In.wfAny _ _ ?_) <;> decide
    | (with_reducible refine M.In.any _ ?_) <;> decide
    | (with_reducible refine M.In.incAny _ ?_) <;> decide
    | (with_reducible refine M.In.incByAny _ _ ?_) <;> decide
    | (with_reducible refine M.In.incWrapAny _ ?_) <;> decide
    | (with_reducible refine M.In.any99 _ _ ?_) <;> decide
    | (with_reducible refine M.In.hidAny _ ?_) <;> decide
    | (with_reducible refine M.In.wtab99 _ _ _ ?_) <;> decide
    | (with_reducible refine M.In.fresh99 ?_) <;> decide
    | (with_reducible refine M.In.freshBytes99 _ ?_) <;> decide
    | (with_reducible refine M.In.freshRats99 _ ?_) <;> decide
    | with_reducible exact M.In.pure _
    | with_reducible exact M.In.getS
    | (with_reducible refine (foot_updLcy ..).mono ?_) <;> decide
    | (with_reducible refine (foot_deviceReset ..).mono ?_) <;> decide
    | (with_reducible refine M.In.wf 22 _ _ ?_ ?_) <;> first | decide | exact LCY.FW_STAT_page _ | exact slotField_page _ _
    | (with_reducible refine M.In.hidAt fun x k hk => ?_) <;> (unfold SameHid; split <;> first | rfl | exact absurd (by decide) hk)
    | split
    | dsimp only

theorem foot_deviceStateEvaluation : (deviceStateEvaluation).In [0, 1, 20, 33, 43, 47] := by
  unfold deviceStateEvaluation
  repeat' first
    | with_reducible refine M.In.bind ?_ fun _ => ?_
    | with_reducible refine M.In.ite ?_ ?_
    | with_reducible exact M.In.pure _
    | with_reducible exact M.In.getS
    | (with_reducible refine (foot_setDev ..).mono ?_) <;> decide
    | (with_reducible refine M.In.wf 0 _ _ ?_ ?_) <;> first | decide
    | split
    | dsimp only

theorem foot_lcyCommand (cmd : Nat) : (lcyCommand cmd).In [0, 1, 20, 33, 43, 47] := by
  unfold lcyCommand
  repeat' first
    | with_reducible refine M.In.bind ?_ fun _ => ?_
    | with_reducible refine M.In.ite ?_ ?_
    | with_reducible exact M.In.pure _
    | (with_reducible refine (foot_setDev ..).mono ?_) <;> decide
    | split
    | dsimp only

theorem foot_resetFields (l : List FldAt) : (resetFields l).In [99] := by
  unfold resetFields
  repeat' first
    | with_reducible refine M.In.bind ?_ fun _ => ?_
    | (with_reducible refine M.In.wfAny _ _ ?_) <;> decide
    | (with_reducible refine M.In.any _ ?_) <;> decide
    | (with_reducible refine M.In.incAny _ ?_) <;> decide
    | (with_reducible refine M.In.incByAny _ _ ?_) <;> decide
    | (with_reducible refine M.In.incWrapAny _ ?_) <;> decide
    | (with_reducible refine M.In.any99 _ _ ?_) <;> decide
    | (with_reducible refine M.In.hidAny _ ?_) <;> decide
    | (with_reducible refine M.In.wtab99 _ _ _ ?_) <;> decide
    | (with_reducible refine M.In.fresh99 ?_) <;> decide
    | (with_reducible refine M.In.freshBytes99 _ ?_) <;> decide
    | (with_reducible refine M.In.freshRats99 _ ?_) <;> decide
    | with_reducible exact M.In.pure _
    | with_reducible refine M.In.forM (fun _ => ?_) _
    | with_reducible refine M.In.optForM (fun _ => ?_) _
    | dsimp only

theorem foot_wipeStateRegion : (wipeStateRegion).In [2, 45, 99] := by
  unfold wipeStateRegion
  repeat' first
    | with_reducible refine M.In.bind ?_ fun _ => ?_
    | with_reducible refine M.In.ite ?_ ?_
    | (with_reducible refine M.In.wfAny _ _ ?_) <;> decide
    | (with_reducible refine M.In.any _ ?_) <;> decide
    | (with_reducible refine M.In.incAny _ ?_) <;> decide
    | (with_reducible refine M.In.incByAny _ _ ?_) <;> decide
    | (with_reducible refine M.In.incWrapAny _ ?_) <;> decide
    | (with_reducible refine M.In.any99 _ _ ?_) <;> decide
    | (with_reducible refine M.In.hidAny _ ?_) <;> decide
    | (with_reducible refine M.In.wtab99 _ _ _ ?_) <;> decide
    | (with_reducible refine M.In.fresh99 ?_) <;> decide
    | (with_reducible refine M.In.freshBytes99 _ ?_) <;> decide
    | (with_reducible refine M.In.freshRats99 _ ?_) <;> decide
    | with_reducible exact M.In.pure _
    | with_reducible exact M.In.getS
    | (with_reducible refine (foot_showSpares ..).mono ?_) <;> decide
    | (with_reducible refine (foot_resetFields ..).mono ?_) <;> decide
    | (refine M.In.hid_trp _ ?_; decide)
    | split
    | dsimp only

theorem foot_wipeContents (r : Nat) : (wipeContents r).In [2, 16, 34, 35, 36, 43, 45, 53, 57, 99] := by
  unfold wipeContents
  repeat' first
    | with_reducible refine M.In.bind ?_ fun _ => ?_
    | (with_reducible refine M.In.wfAny _ _ ?_) <;> decide
    | (with_reducible refine M.In.any _ ?_) <;> decide
    | (with_reducible refine M.In.incAny _ ?_) <;> decide
    | (with_reducible refine M.In.incByAny _ _ ?_) <;> decide
    | (with_reducible refine M.In.incWrapAny _ ?_) <;> decide
    | (with_reducible refine M.In.any99 _ _ ?_) <;> decide
    | (with_reducible refine M.In.hidAny _ ?_) <;> decide
    | (with_reducible refine M.In.wtab99 _ _ _ ?_) <;> decide
    | (with_reducible refine M.In.fresh99 ?_) <;> decide
    | (with_reducible refine M.In.freshBytes99 _ ?_) <;> decide
    | (with_reducible refine M.In.freshRats99 _ ?_) <;> decide
    | with_reducible exact M.In.pure _
    | (with_reducible refine (foot_setCfgCrc ..).mono ?_) <;> decide
    | (with_reducible refine (foot_resetFields ..).mono ?_) <;> decide
    | (with_reducible refine (foot_wipeStateRegion ..).mono ?_) <;> decide
    | (with_reducible refine M.In.vioClear ?_) <;> decide
    | (with_reducible refine M.In.fltClear ?_) <;> decide
    | (with_reducible refine M.In.chgClear ?_) <;> decide
    | (refine M.In.hid_cmd _ ?_; decide)
    | (refine M.In.hid_fld _ ?_; decide)
    | (refine M.In.hid_mtr _ ?_; decide)
    | (with_reducible refine M.In.hidAt fun x k hk => ?_) <;> (unfold SameHid; split <;> first | rfl | exact absurd (by decide) hk)
    | split
    | dsimp only

theorem foot_changeFree (kind old new session transport : Nat) : (changeFree kind old new session transport).In [16, 36, 42] := by
  unfold changeFree
  repeat' first
    | with_reducible refine M.In.bind ?_ fun _ => ?_
    | with_reducible exact M.In.pure _
    | (with_reducible refine (foot_change ..).mono ?_) <;> decide
    | (with_reducible refine M.In.fresh ?_) <;> decide
    | (with_reducible refine M.In.freshBytes _ ?_) <;> decide
    | (with_reducible refine M.In.freshRats _ ?_) <;> decide
    | dsimp only

theorem foot_commitTransition (target session transport : Nat) : (commitTransition target session transport).In [0, 1, 16, 19, 20, 22, 33, 36, 42, 43, 47, 61] := by
  unfold commitTransition
  repeat' first
    | with_reducible refine M.In.bind ?_ fun _ => ?_
    | with_reducible exact M.In.pure _
    | with_reducible exact M.In.getS
    | (with_reducible refine (foot_complete ..).mono ?_) <;> decide
    | (with_reducible refine (foot_updLcy ..).mono ?_) <;> decide
    | (with_reducible refine (foot_changeFree ..).mono ?_) <;> decide
    | (with_reducible refine M.In.wf 0 _ _ ?_ ?_) <;> first | decide
    | (with_reducible refine M.In.wf 19 _ _ ?_ ?_) <;> first | decide
    | (with_reducible refine M.In.wf 22 _ _ ?_ ?_) <;> first | decide
    | (with_reducible refine M.In.inc 0 _ ?_ ?_) <;> first | decide
    | (with_reducible refine M.In.inc 19 _ ?_ ?_) <;> first | decide
    | (with_reducible refine M.In.inc 22 _ ?_ ?_) <;> first | decide
    | (with_reducible refine M.In.fresh ?_) <;> decide
    | (with_reducible refine M.In.freshBytes _ ?_) <;> decide
    | (with_reducible refine M.In.freshRats _ ?_) <;> decide
    | dsimp only

theorem foot_lcAdvance (target session transport : Nat) : (lcAdvance target session transport).In [0, 1, 16, 19, 20, 22, 33, 36, 42, 43, 47, 61] := by
  unfold lcAdvance
  repeat' first
    | with_reducible refine M.In.bind ?_ fun _ => ?_
    | with_reducible refine M.In.ite ?_ ?_
    | with_reducible exact M.In.pure _
    | with_reducible exact M.In.getS
    | (with_reducible refine (foot_updLcy ..).mono ?_) <;> decide
    | (with_reducible refine (foot_commitTransition ..).mono ?_) <;> decide
    | (with_reducible refine M.In.wf 19 _ _ ?_ ?_) <;> first | decide
    | (with_reducible refine M.In.fresh ?_) <;> decide
    | (with_reducible refine M.In.freshBytes _ ?_) <;> decide
    | (with_reducible refine M.In.freshRats _ ?_) <;> decide
    | split
    | dsimp only

theorem foot_regionWipeComplete (fail : Option Nat) : (regionWipeComplete fail).In [0, 1, 2, 3, 4, 5, 6, 9, 12, 16, 17, 19, 20, 22, 33, 34, 35, 36, 42, 43, 44, 45, 46, 47, 48, 49, 50, 53, 57, 60, 61, 99] := by
  unfold regionWipeComplete
  repeat' first
    | with_reducible refine M.In.bind ?_ fun _ => ?_
    | with_reducible refine M.In.ite ?_ ?_
    | (with_reducible refine M.In.wfAny _ _ ?_) <;> decide
    | (with_reducible refine M.In.any _ ?_) <;> decide
    | (with_reducible refine M.In.incAny _ ?_) <;> decide
    | (with_reducible refine M.In.incByAny _ _ ?_) <;> decide
    | (with_reducible refine M.In.incWrapAny _ ?_) <;> decide
    | (with_reducible refine M.In.any99 _ _ ?_) <;> decide
    | (with_reducible refine M.In.hidAny _ ?_) <;> decide
    | (with_reducible refine M.In.wtab99 _ _ _ ?_) <;> decide
    | (with_reducible refine M.In.fresh99 ?_) <;> decide
    | (with_reducible refine M.In.freshBytes99 _ ?_) <;> decide
    | (with_reducible refine M.In.freshRats99 _ ?_) <;> decide
    | with_reducible exact M.In.pure _
    | with_reducible exact M.In.getS
    | (with_reducible refine (foot_occur ..).mono ?_) <;> decide
    | (with_reducible refine (foot_complete ..).mono ?_) <;> decide
    | (with_reducible refine (foot_wipeRegion ..).mono ?_) <;> decide
    | (with_reducible refine (foot_updLcy ..).mono ?_) <;> decide
    | (with_reducible refine (foot_wipeContents ..).mono ?_) <;> decide
    | (with_reducible refine (foot_commitTransition ..).mono ?_) <;> decide
    | (with_reducible refine M.In.wf 19 _ _ ?_ ?_) <;> first | decide
    | (with_reducible refine M.In.fresh ?_) <;> decide
    | (with_reducible refine M.In.freshBytes _ ?_) <;> decide
    | (with_reducible refine M.In.freshRats _ ?_) <;> decide
    | (with_reducible refine M.In.hidAt fun x k hk => ?_) <;> (unfold SameHid; split <;> first | rfl | exact absurd (by decide) hk)
    | with_reducible refine M.In.forM (fun _ => ?_) _
    | with_reducible refine M.In.optForM (fun _ => ?_) _
    | split
    | dsimp only

theorem foot_lifecycleReset : (lifecycleReset).In [0, 1, 3, 4, 5, 6, 9, 12, 16, 17, 19, 20, 32, 33, 35, 43, 44, 45, 46, 47, 48, 49, 50, 57, 60, 99] := by
  unfold lifecycleReset
  repeat' first
    | with_reducible refine M.In.bind ?_ fun _ => ?_
    | with_reducible refine M.In.ite ?_ ?_
    | (with_reducible refine M.In.wfAny _ _ ?_) <;> decide
    | (with_reducible refine M.In.any _ ?_) <;> decide
    | (with_reducible refine M.In.incAny _ ?_) <;> decide
    | (with_reducible refine M.In.incByAny _ _ ?_) <;> decide
    | (with_reducible refine M.In.incWrapAny _ ?_) <;> decide
    | (with_reducible refine M.In.any99 _ _ ?_) <;> decide
    | (with_reducible refine M.In.hidAny _ ?_) <;> decide
    | (with_reducible refine M.In.wtab99 _ _ _ ?_) <;> decide
    | (with_reducible refine M.In.fresh99 ?_) <;> decide
    | (with_reducible refine M.In.freshBytes99 _ ?_) <;> decide
    | (with_reducible refine M.In.freshRats99 _ ?_) <;> decide
    | with_reducible exact M.In.pure _
    | with_reducible exact M.In.getS
    | (with_reducible refine (foot_deviceReset ..).mono ?_) <;> decide
    | (with_reducible refine M.In.hidAt fun x k hk => ?_) <;> (unfold SameHid; split <;> first | rfl | exact absurd (by decide) hk)
    | split
    | dsimp only

theorem foot_fwBegin (h : List Byte) : (fwBegin h).In [22, 61] := by
  unfold fwBegin
  repeat' first
    | with_reducible refine M.In.bind ?_ fun _ => ?_
    | with_reducible exact M.In.pure _
    | with_reducible exact M.In.getS
    | (with_reducible refine (foot_updLcy ..).mono ?_) <;> decide
    | (with_reducible refine M.In.wf 22 _ _ ?_ ?_) <;> first | decide | exact LCY.FW_VER_page _ _ | exact slotField_page _ _
    | (with_reducible refine M.In.hidAt fun x k hk => ?_) <;> (unfold SameHid; split <;> first | rfl | exact absurd (by decide) hk)
    | dsimp only

theorem foot_fwTouch (k : Nat) : (fwTouch k).In [61] := by
  unfold fwTouch
  repeat' first
    | with_reducible refine M.In.bind ?_ fun _ => ?_
    | with_reducible refine M.In.ite ?_ ?_
    | with_reducible exact M.In.pure _
    | (refine M.In.hid_lcy _ ?_; decide)
    | split
    | dsimp only

theorem foot_fwWrite (k o : Nat) (bs : List Byte) : (fwWrite k o bs).In [61] := by
  unfold fwWrite
  repeat' first
    | with_reducible refine M.In.bind ?_ fun _ => ?_
    | with_reducible exact M.In.pure _
    | with_reducible exact M.In.getS
    | (with_reducible refine (foot_updLcy ..).mono ?_) <;> decide
    | (with_reducible refine M.In.hidAt fun x k hk => ?_) <;> (unfold SameHid; split <;> first | rfl | exact absurd (by decide) hk)
    | split
    | dsimp only

theorem foot_fwEnd (k : Nat) (sig : List Byte) (live : Bool) : (fwEnd k sig live).In [61] := by
  unfold fwEnd
  repeat' first
    | with_reducible refine M.In.bind ?_ fun _ => ?_
    | with_reducible refine M.In.ite ?_ ?_
    | with_reducible exact M.In.pure _
    | (refine M.In.hid_lcy _ ?_; decide)
    | split
    | dsimp only

theorem foot_fwChange (d : Option Due) : (fwChange d).In [16, 36, 42] := by
  unfold fwChange
  repeat' first
    | with_reducible refine M.In.bind ?_ fun _ => ?_
    | with_reducible exact M.In.pure _
    | (with_reducible refine (foot_changeFree ..).mono ?_) <;> decide
    | (with_reducible refine M.In.fresh ?_) <;> decide
    | (with_reducible refine M.In.freshBytes _ ?_) <;> decide
    | (with_reducible refine M.In.freshRats _ ?_) <;> decide
    | split
    | dsimp only

theorem foot_fwVerifyComplete (k : Nat) : (fwVerifyComplete k).In [0, 1, 2, 16, 18, 19, 20, 22, 33, 36, 42, 43, 45, 46, 47, 50, 57, 60, 61] := by
  unfold fwVerifyComplete
  repeat' first
    | with_reducible refine M.In.bind ?_ fun _ => ?_
    | with_reducible refine M.In.ite ?_ ?_
    | with_reducible exact M.In.pure _
    | with_reducible exact M.In.getS
    | (with_reducible refine (foot_complete ..).mono ?_) <;> decide
    | (with_reducible refine (foot_updMtr ..).mono ?_) <;> decide
    | (with_reducible refine (foot_setIsland ..).mono ?_) <;> decide
    | (with_reducible refine (foot_updLcy ..).mono ?_) <;> decide
    | (with_reducible refine (foot_fwChange ..).mono ?_) <;> decide
    | (with_reducible refine M.In.wf 22 _ _ ?_ ?_) <;> first | decide | exact LCY.FW_STAT_page _ | exact slotField_page _ _
    | (with_reducible refine M.In.fresh ?_) <;> decide
    | (with_reducible refine M.In.freshBytes _ ?_) <;> decide
    | (with_reducible refine M.In.freshRats _ ?_) <;> decide
    | (with_reducible refine M.In.hidAt fun x k hk => ?_) <;> (unfold SameHid; split <;> first | rfl | exact absurd (by decide) hk)
    | split
    | dsimp only

theorem foot_updateChord (n : Nat) : (updateChord n).In [0, 1, 20, 33, 43, 47] := by
  unfold updateChord
  repeat' first
    | with_reducible refine M.In.bind ?_ fun _ => ?_
    | with_reducible exact M.In.pure _
    | (with_reducible refine (foot_eventDev ..).mono ?_) <;> decide
    | (with_reducible refine M.In.wf 0 _ _ ?_ ?_) <;> first | decide | exact SYS.ISLAND_page _
    | dsimp only

theorem foot_liveUpdate : (liveUpdate).In [0, 1, 20, 22, 33, 43, 47, 61] := by
  unfold liveUpdate
  repeat' first
    | with_reducible refine M.In.bind ?_ fun _ => ?_
    | with_reducible refine M.In.ite ?_ ?_
    | with_reducible exact M.In.pure _
    | with_reducible exact M.In.getS
    | (with_reducible refine (foot_complete ..).mono ?_) <;> decide
    | (with_reducible refine (foot_updLcy ..).mono ?_) <;> decide
    | (with_reducible refine (foot_updateChord ..).mono ?_) <;> decide
    | (with_reducible refine M.In.wf 22 _ _ ?_ ?_) <;> first | decide | exact LCY.FW_STAT_page _ | exact slotField_page _ _
    | (with_reducible refine M.In.hidAt fun x k hk => ?_) <;> (unfold SameHid; split <;> first | rfl | exact absurd (by decide) hk)
    | split
    | dsimp only

theorem foot_fwUpdateTimeout (k : Nat) : (fwUpdateTimeout k).In [61] := by
  unfold fwUpdateTimeout
  repeat' first
    | with_reducible refine M.In.bind ?_ fun _ => ?_
    | with_reducible refine M.In.ite ?_ ?_
    | with_reducible exact M.In.pure _
    | with_reducible exact M.In.getS
    | (with_reducible refine (foot_updLcy ..).mono ?_) <;> decide
    | (with_reducible refine M.In.hidAt fun x k hk => ?_) <;> (unfold SameHid; split <;> first | rfl | exact absurd (by decide) hk)
    | split
    | dsimp only

theorem foot_thermalDerating (t : Int) (hot : Bool) : (thermalDerating t hot).In [0, 1, 3, 4, 5, 6, 9, 12, 16, 17, 20, 22, 33, 35, 43, 44, 45, 46, 47, 48, 49, 50] := by
  unfold thermalDerating
  repeat' first
    | with_reducible refine M.In.bind ?_ fun _ => ?_
    | with_reducible refine M.In.ite ?_ ?_
    | with_reducible exact M.In.pure _
    | with_reducible exact M.In.getS
    | (with_reducible refine (foot_eventDev ..).mono ?_) <;> decide
    | (with_reducible refine (foot_startSs1 ..).mono ?_) <;> decide
    | (with_reducible refine (foot_occurrence ..).mono ?_) <;> decide
    | (with_reducible refine (foot_startJoin ..).mono ?_) <;> decide
    | (with_reducible refine M.In.wf 0 _ _ ?_ ?_) <;> first | decide | exact SYS.ISLAND_page _
    | (with_reducible refine M.In.wf 22 _ _ ?_ ?_) <;> first | decide | exact SYS.ISLAND_page _
    | (with_reducible refine M.In.inc 0 _ ?_ ?_) <;> first | decide | exact SYS.ISLAND_page _
    | (with_reducible refine M.In.inc 22 _ ?_ ?_) <;> first | decide | exact SYS.ISLAND_page _
    | with_reducible refine M.In.forM (fun _ => ?_) _
    | with_reducible refine M.In.optForM (fun _ => ?_) _
    | split
    | dsimp only

theorem foot_enterShip : (enterShip).In [0, 1, 2, 15, 18, 19, 20, 33, 43, 45, 46, 47, 50, 59, 60] := by
  unfold enterShip
  repeat' first
    | with_reducible refine M.In.bind ?_ fun _ => ?_
    | with_reducible refine M.In.ite ?_ ?_
    | with_reducible exact M.In.pure _
    | (with_reducible refine (foot_setDev ..).mono ?_) <;> decide
    | (with_reducible refine (foot_putSessions ..).mono ?_) <;> decide
    | (with_reducible refine (foot_setBsw ..).mono ?_) <;> decide
    | (with_reducible refine (foot_setIsland ..).mono ?_) <;> decide
    | with_reducible refine M.In.forM (fun _ => ?_) _
    | with_reducible refine M.In.optForM (fun _ => ?_) _
    | split
    | dsimp only

theorem foot_shipExit (ms : Nat) : (shipExit ms).In [0, 1, 3, 4, 5, 6, 9, 12, 15, 16, 17, 19, 20, 32, 33, 35, 43, 44, 45, 46, 47, 48, 49, 50, 57, 59, 60, 99] := by
  unfold shipExit
  repeat' first
    | with_reducible refine M.In.bind ?_ fun _ => ?_
    | with_reducible refine M.In.ite ?_ ?_
    | (with_reducible refine M.In.wfAny _ _ ?_) <;> decide
    | (with_reducible refine M.In.any _ ?_) <;> decide
    | (with_reducible refine M.In.incAny _ ?_) <;> decide
    | (with_reducible refine M.In.incByAny _ _ ?_) <;> decide
    | (with_reducible refine M.In.incWrapAny _ ?_) <;> decide
    | (with_reducible refine M.In.any99 _ _ ?_) <;> decide
    | (with_reducible refine M.In.hidAny _ ?_) <;> decide
    | (with_reducible refine M.In.wtab99 _ _ _ ?_) <;> decide
    | (with_reducible refine M.In.fresh99 ?_) <;> decide
    | (with_reducible refine M.In.freshBytes99 _ ?_) <;> decide
    | (with_reducible refine M.In.freshRats99 _ ?_) <;> decide
    | with_reducible exact M.In.pure _
    | with_reducible exact M.In.getS
    | (with_reducible refine (foot_setBsw ..).mono ?_) <;> decide
    | (with_reducible refine (foot_deviceReset ..).mono ?_) <;> decide
    | split
    | dsimp only

theorem foot_longPressReopen : (longPressReopen).In [0, 1, 3, 4, 5, 6, 9, 12, 15, 16, 17, 19, 20, 32, 33, 35, 43, 44, 45, 46, 47, 48, 49, 50, 57, 59, 60, 99] := by
  unfold longPressReopen
  repeat' first
    | with_reducible refine M.In.bind ?_ fun _ => ?_
    | with_reducible refine M.In.ite ?_ ?_
    | (with_reducible refine M.In.wfAny _ _ ?_) <;> decide
    | (with_reducible refine M.In.any _ ?_) <;> decide
    | (with_reducible refine M.In.incAny _ ?_) <;> decide
    | (with_reducible refine M.In.incByAny _ _ ?_) <;> decide
    | (with_reducible refine M.In.incWrapAny _ ?_) <;> decide
    | (with_reducible refine M.In.any99 _ _ ?_) <;> decide
    | (with_reducible refine M.In.hidAny _ ?_) <;> decide
    | (with_reducible refine M.In.wtab99 _ _ _ ?_) <;> decide
    | (with_reducible refine M.In.fresh99 ?_) <;> decide
    | (with_reducible refine M.In.freshBytes99 _ ?_) <;> decide
    | (with_reducible refine M.In.freshRats99 _ ?_) <;> decide
    | with_reducible exact M.In.pure _
    | with_reducible exact M.In.getS
    | (with_reducible refine (foot_setBsw ..).mono ?_) <;> decide
    | (with_reducible refine (foot_deviceReset ..).mono ?_) <;> decide
    | (with_reducible refine M.In.hidAt fun x k hk => ?_) <;> (unfold SameHid; split <;> first | rfl | exact absurd (by decide) hk)
    | split
    | dsimp only

theorem foot_countRefusal (x : Nat × Nat) : (countRefusal x).In [11] := by
  unfold countRefusal
  repeat' first
    | with_reducible refine M.In.bind ?_ fun _ => ?_
    | with_reducible refine M.In.ite ?_ ?_
    | with_reducible exact M.In.pure _
    | (with_reducible refine M.In.inc 11 _ ?_ ?_) <;> first | decide
    | split
    | dsimp only

theorem foot_readEffect (a : Nat) : (readEffect a).In [47] := by
  unfold readEffect
  repeat' first
    | with_reducible refine M.In.bind ?_ fun _ => ?_
    | with_reducible refine M.In.ite ?_ ?_
    | with_reducible exact M.In.pure _
    | with_reducible exact M.In.getS
    | (refine M.In.hid_bus _ ?_; decide)
    | split
    | dsimp only

theorem foot_placeNext : (placeNext).In [1, 43] := by
  unfold placeNext
  refine M.In.getS.bind fun s => ?_
  split
  · exact foot_setAttn.mono (by decide)
  · exact (M.In.hid_cmd _ (by decide)).bind fun _ => foot_placeTunnel _

theorem foot_rxAck : (rxAck).In [1, 43] := by
  unfold rxAck
  repeat' first
    | with_reducible refine M.In.bind ?_ fun _ => ?_
    | with_reducible exact M.In.pure _
    | (with_reducible refine (foot_placeNext ..).mono ?_) <;> decide
    | (with_reducible refine M.In.wf 1 _ _ ?_ ?_) <;> first | decide
    | dsimp only

theorem foot_pcmpWritten (all : List Nat) (k u : Nat) (config : Bool) : (pcmpWritten all k u config).In [1, 10, 20, 33, 43, 47, 52] := by
  unfold pcmpWritten
  repeat' first
    | with_reducible refine M.In.bind ?_ fun _ => ?_
    | with_reducible refine M.In.ite ?_ ?_
    | with_reducible exact M.In.pure _
    | with_reducible exact M.In.getS
    | (with_reducible refine (foot_updPu ..).mono ?_) <;> decide
    | (with_reducible refine (foot_pcmpArm ..).mono ?_) <;> decide
    | (with_reducible refine M.In.wf 10 _ _ ?_ ?_) <;> first | decide | exact POS.PCMP_CFG_page _ _ | exact POS.PCMP_STAT_page _ _ | exact POS.PCMP_TGT_page _ _
    | split
    | dsimp only

theorem foot_lvpCommand (cmd : Nat) : (lvpCommand cmd).In [0, 1, 2, 7, 15, 18, 19, 20, 33, 43, 45, 46, 47, 50, 51, 59, 60] := by
  unfold lvpCommand
  repeat' first
    | with_reducible refine M.In.bind ?_ fun _ => ?_
    | with_reducible exact M.In.pure _
    | (with_reducible refine (foot_setBsw ..).mono ?_) <;> decide
    | (with_reducible refine (foot_clearTimer ..).mono ?_) <;> decide
    | (with_reducible refine (foot_chargeStart ..).mono ?_) <;> decide
    | (with_reducible refine (foot_chargeStop ..).mono ?_) <;> decide
    | (with_reducible refine (foot_enterShip ..).mono ?_) <;> decide
    | split
    | dsimp only

theorem foot_lastingWritten (src : Nat) (v : Nat) : (lastingWritten src v).In [1, 16, 17, 20, 33, 35, 43, 46, 47] := by
  unfold lastingWritten
  repeat' first
    | with_reducible refine M.In.bind ?_ fun _ => ?_
    | with_reducible refine M.In.ite ?_ ?_
    | with_reducible exact M.In.pure _
    | with_reducible exact M.In.getS
    | (with_reducible refine (foot_clearLasting ..).mono ?_) <;> decide
    | (with_reducible refine M.In.wf 16 _ _ ?_ ?_) <;> first | decide
    | with_reducible refine M.In.forM (fun _ => ?_) _
    | with_reducible refine M.In.optForM (fun _ => ?_) _
    | split
    | dsimp only

theorem foot_timeCfgWritten (old : Word) : (timeCfgWritten old).In [1, 20, 33, 43, 47] := by
  unfold timeCfgWritten
  repeat' first
    | with_reducible refine M.In.bind ?_ fun _ => ?_
    | with_reducible refine M.In.ite ?_ ?_
    | with_reducible exact M.In.pure _
    | with_reducible exact M.In.getS
    | (with_reducible refine (foot_setSynced ..).mono ?_) <;> decide
    | (refine M.In.hid_bus _ ?_; decide)
    | split
    | dsimp only

theorem foot_writeEffect (all : List Nat) (r : RegSpec) (a : Nat) (v old : Word) : (writeEffect all r a v old).In [0, 1, 2, 3, 4, 5, 6, 7, 8, 9, 10, 11, 12, 13, 15, 16, 17, 18, 19, 20, 32, 33, 35, 42, 43, 44, 45, 46, 47, 48, 49, 50, 51, 52, 54, 55, 56, 57, 59, 60] := by
  unfold writeEffect
  repeat' first
    | with_reducible refine M.In.bind ?_ fun _ => ?_
    | with_reducible refine M.In.ite ?_ ?_
    | with_reducible exact M.In.pure _
    | with_reducible exact M.In.getS
    | (with_reducible refine (foot_setLoad ..).mono ?_) <;> decide
    | (with_reducible refine (foot_passShadows ..).mono ?_) <;> decide
    | (with_reducible refine (foot_startMask ..).mono ?_) <;> decide
    | (with_reducible refine (foot_stopTb ..).mono ?_) <;> decide
    | (with_reducible refine (foot_syncWritten ..).mono ?_) <;> decide
    | (with_reducible refine (foot_shadowPosted ..).mono ?_) <;> decide
    | (with_reducible refine (foot_trgWritten ..).mono ?_) <;> decide
    | (with_reducible refine (foot_writeShadow ..).mono ?_) <;> decide
    | (with_reducible refine (foot_setThreshold ..).mono ?_) <;> decide
    | (with_reducible refine (foot_newTarget ..).mono ?_) <;> decide
    | (with_reducible refine (foot_emuRestart ..).mono ?_) <;> decide
    | (with_reducible refine (foot_modeWritten ..).mono ?_) <;> decide
    | (with_reducible refine (foot_puFaultClear ..).mono ?_) <;> decide
    | (with_reducible refine (foot_ptFaultClear ..).mono ?_) <;> decide
    | (with_reducible refine (foot_showClamp ..).mono ?_) <;> decide
    | (with_reducible refine (foot_ctrlWritten ..).mono ?_) <;> decide
    | (with_reducible refine (foot_contOpen ..).mono ?_) <;> decide
    | (with_reducible refine foot_watchCharge ?_ ?_) <;> first | decide | skip
    | (with_reducible refine (foot_chopFaultyClear ..).mono ?_) <;> decide
    | (with_reducible refine (foot_actGo ..).mono ?_) <;> decide
    | (with_reducible refine (foot_actStop ..).mono ?_) <;> decide
    | (with_reducible refine (foot_cplCommand ..).mono ?_) <;> decide
    | (with_reducible refine (foot_ringState ..).mono ?_) <;> decide
    | (with_reducible refine (foot_timeSet ..).mono ?_) <;> decide
    | (with_reducible refine (foot_tryStart ..).mono ?_) <;> decide
    | (with_reducible refine (foot_followLock ..).mono ?_) <;> decide
    | (with_reducible refine (foot_chgCommand ..).mono ?_) <;> decide
    | (with_reducible refine (foot_setTarget ..).mono ?_) <;> decide
    | (with_reducible refine (foot_vsetWritten ..).mono ?_) <;> decide
    | (with_reducible refine (foot_syncFuncs ..).mono ?_) <;> decide
    | (with_reducible refine (foot_inputChanged ..).mono ?_) <;> decide
    | (with_reducible refine (foot_sinFaultClear ..).mono ?_) <;> decide
    | (with_reducible refine (foot_msgCfgWritten ..).mono ?_) <;> decide
    | (with_reducible refine (foot_netTimeSet ..).mono ?_) <;> decide
    | (with_reducible refine (foot_rxSelected ..).mono ?_) <;> decide
    | (with_reducible refine (foot_recoverWritten ..).mono ?_) <;> decide
    | (with_reducible refine (foot_ctrlEnabled ..).mono ?_) <;> decide
    | (with_reducible refine (foot_lcyCommand ..).mono ?_) <;> decide
    | (with_reducible refine (foot_rxAck ..).mono ?_) <;> decide
    | (with_reducible refine (foot_pcmpWritten ..).mono ?_) <;> decide
    | (with_reducible refine (foot_lvpCommand ..).mono ?_) <;> decide
    | (with_reducible refine (foot_lastingWritten ..).mono ?_) <;> decide
    | (with_reducible refine (foot_timeCfgWritten ..).mono ?_) <;> decide
    | (with_reducible refine M.In.wf 1 _ _ ?_ ?_) <;> first | decide | exact GDR.RDY_CFG_page _ | exact PLS.TB_CFG_page _ | exact POS.OBS_CTRL_page _
    | (with_reducible refine M.In.wf 3 _ _ ?_ ?_) <;> first | decide | exact GDR.RDY_CFG_page _ | exact PLS.TB_CFG_page _ | exact POS.OBS_CTRL_page _
    | (with_reducible refine M.In.wf 5 _ _ ?_ ?_) <;> first | decide | exact GDR.RDY_CFG_page _ | exact PLS.TB_CFG_page _ | exact POS.OBS_CTRL_page _
    | (with_reducible refine M.In.wf 6 _ _ ?_ ?_) <;> first | decide | exact GDR.RDY_CFG_page _ | exact PLS.TB_CFG_page _ | exact POS.OBS_CTRL_page _
    | (with_reducible refine M.In.wf 10 _ _ ?_ ?_) <;> first | decide | exact GDR.RDY_CFG_page _ | exact PLS.TB_CFG_page _ | exact POS.OBS_CTRL_page _
    | (with_reducible refine M.In.wf 11 _ _ ?_ ?_) <;> first | decide | exact GDR.RDY_CFG_page _ | exact PLS.TB_CFG_page _ | exact POS.OBS_CTRL_page _
    | (with_reducible refine M.In.fresh ?_) <;> decide
    | (with_reducible refine M.In.freshBytes _ ?_) <;> decide
    | (with_reducible refine M.In.freshRats _ ?_) <;> decide
    | (refine M.In.hid_cmd _ ?_; decide)
    | (refine M.In.hid_pos _ ?_; decide)
    | (refine M.In.hid_afe _ ?_; decide)
    | split
    | dsimp only

theorem foot_writeWord (c : Ctx) (all : List Nat) (a : Nat) (v : Word) : (writeWord c all a v).In [0, 1, 2, 3, 4, 5, 6, 7, 8, 9, 10, 11, 12, 13, 14, 15, 16, 17, 18, 19, 20, 21, 22, 32, 33, 35, 36, 42, 43, 44, 45, 46, 47, 48, 49, 50, 51, 52, 54, 55, 56, 57, 59, 60] := by
  unfold writeWord
  repeat' first
    | (with_reducible refine M.In.wrAny _ _ ?_) <;> decide
    | with_reducible refine M.In.bind ?_ fun _ => ?_
    | with_reducible refine M.In.ite ?_ ?_
    | with_reducible exact M.In.pure _
    | with_reducible exact M.In.rd _
    | (with_reducible refine (foot_setCfgCrc ..).mono ?_) <;> decide
    | (with_reducible refine (foot_change ..).mono ?_) <;> decide
    | (with_reducible refine (foot_settleTime ..).mono ?_) <;> decide
    | (with_reducible refine (foot_writeEffect ..).mono ?_) <;> decide
    | (with_reducible refine M.In.wr 0 _ _ ?_ ?_) <;> first | decide
    | (with_reducible refine M.In.wr 1 _ _ ?_ ?_) <;> first | decide
    | (with_reducible refine M.In.wr 2 _ _ ?_ ?_) <;> first | decide
    | (with_reducible refine M.In.wr 3 _ _ ?_ ?_) <;> first | decide
    | (with_reducible refine M.In.wr 4 _ _ ?_ ?_) <;> first | decide
    | (with_reducible refine M.In.wr 5 _ _ ?_ ?_) <;> first | decide
    | (with_reducible refine M.In.wr 6 _ _ ?_ ?_) <;> first | decide
    | (with_reducible refine M.In.wr 7 _ _ ?_ ?_) <;> first | decide
    | (with_reducible refine M.In.wr 8 _ _ ?_ ?_) <;> first | decide
    | (with_reducible refine M.In.wr 9 _ _ ?_ ?_) <;> first | decide
    | (with_reducible refine M.In.wr 10 _ _ ?_ ?_) <;> first | decide
    | (with_reducible refine M.In.wr 11 _ _ ?_ ?_) <;> first | decide
    | (with_reducible refine M.In.wr 12 _ _ ?_ ?_) <;> first | decide
    | (with_reducible refine M.In.wr 13 _ _ ?_ ?_) <;> first | decide
    | (with_reducible refine M.In.wr 14 _ _ ?_ ?_) <;> first | decide
    | (with_reducible refine M.In.wr 15 _ _ ?_ ?_) <;> first | decide
    | (with_reducible refine M.In.wr 16 _ _ ?_ ?_) <;> first | decide
    | (with_reducible refine M.In.wr 17 _ _ ?_ ?_) <;> first | decide
    | (with_reducible refine M.In.wr 18 _ _ ?_ ?_) <;> first | decide
    | (with_reducible refine M.In.wr 19 _ _ ?_ ?_) <;> first | decide
    | (with_reducible refine M.In.wr 20 _ _ ?_ ?_) <;> first | decide
    | (with_reducible refine M.In.wr 21 _ _ ?_ ?_) <;> first | decide
    | (with_reducible refine M.In.wr 22 _ _ ?_ ?_) <;> first | decide
    | (with_reducible refine M.In.fresh ?_) <;> decide
    | (with_reducible refine M.In.freshBytes _ ?_) <;> decide
    | (with_reducible refine M.In.freshRats _ ?_) <;> decide
    | split
    | dsimp only

theorem foot_countAbsent (a : Nat) : (countAbsent a).In [0] := by
  unfold countAbsent
  repeat' first
    | with_reducible refine M.In.bind ?_ fun _ => ?_
    | with_reducible exact M.In.pure _
    | (with_reducible refine (foot_absentReply ..).mono ?_) <;> decide
    | split
    | dsimp only

theorem foot_readWords (c : Ctx) (as : List Nat) : (readWords c as).In [0, 47] := by
  unfold readWords
  repeat' first
    | with_reducible refine M.In.bind ?_ fun _ => ?_
    | with_reducible refine M.In.ite ?_ ?_
    | with_reducible exact M.In.pure _
    | with_reducible exact M.In.getS
    | (with_reducible refine (foot_readEffect ..).mono ?_) <;> decide
    | (with_reducible refine (foot_countAbsent ..).mono ?_) <;> decide
    | with_reducible refine M.In.mapM' (fun _ => ?_) _
    | split
    | dsimp only

theorem foot_writeWords (c : Ctx) (ws : List (Nat × Word)) : (writeWords c ws).In [0, 1, 2, 3, 4, 5, 6, 7, 8, 9, 10, 11, 12, 13, 14, 15, 16, 17, 18, 19, 20, 21, 22, 32, 33, 35, 36, 42, 43, 44, 45, 46, 47, 48, 49, 50, 51, 52, 54, 55, 56, 57, 59, 60] := by
  unfold writeWords
  repeat' first
    | with_reducible refine M.In.bind ?_ fun _ => ?_
    | with_reducible exact M.In.pure _
    | with_reducible exact M.In.getS
    | (with_reducible refine (foot_meetStrobe ..).mono ?_) <;> decide
    | (with_reducible refine (foot_countRefusal ..).mono ?_) <;> decide
    | (with_reducible refine (foot_writeWord ..).mono ?_) <;> decide
    | (with_reducible refine (foot_countAbsent ..).mono ?_) <;> decide
    | (with_reducible refine M.In.fresh ?_) <;> decide
    | (with_reducible refine M.In.freshBytes _ ?_) <;> decide
    | (with_reducible refine M.In.freshRats _ ?_) <;> decide
    | with_reducible refine M.In.forM (fun _ => ?_) _
    | with_reducible refine M.In.optForM (fun _ => ?_) _
    | split
    | dsimp only

theorem foot_modifyWord (c : Ctx) (a : Nat) (mask value : Word) : (modifyWord c a mask value).In [0, 1, 2, 3, 4, 5, 6, 7, 8, 9, 10, 11, 12, 13, 14, 15, 16, 17, 18, 19, 20, 21, 22, 32, 33, 35, 36, 42, 43, 44, 45, 46, 47, 48, 49, 50, 51, 52, 54, 55, 56, 57, 59, 60] := by
  unfold modifyWord
  repeat' first
    | with_reducible refine M.In.bind ?_ fun _ => ?_
    | with_reducible refine M.In.ite ?_ ?_
    | with_reducible exact M.In.pure _
    | with_reducible exact M.In.getS
    | (with_reducible refine (foot_writeWords ..).mono ?_) <;> decide
    | (with_reducible refine M.In.fresh ?_) <;> decide
    | (with_reducible refine M.In.freshBytes _ ?_) <;> decide
    | (with_reducible refine M.In.freshRats _ ?_) <;> decide
    | split
    | dsimp only

theorem foot_loaded (s0 : State) (id first : Nat) (es : List (List Byte)) : (loaded s0 id first es).In [0, 1, 3, 4, 5, 6, 7, 8, 9, 12, 16, 17, 19, 20, 32, 33, 35, 43, 44, 45, 46, 47, 48, 49, 50, 53, 54, 60] := by
  unfold loaded
  repeat' first
    | with_reducible refine M.In.bind ?_ fun _ => ?_
    | with_reducible refine M.In.ite ?_ ?_
    | with_reducible exact M.In.pure _
    | with_reducible exact M.In.getS
    | (with_reducible refine (foot_setCfgCrc ..).mono ?_) <;> decide
    | (with_reducible refine (foot_writeMapPages ..).mono ?_) <;> decide
    | (with_reducible refine (foot_setLoad ..).mono ?_) <;> decide
    | (with_reducible refine (foot_setThreshold ..).mono ?_) <;> decide
    | (with_reducible refine (foot_mapWritten ..).mono ?_) <;> decide
    | (with_reducible refine foot_watchCharge ?_ ?_) <;> first | decide | skip
    | (with_reducible refine (foot_rebindGroups ..).mono ?_) <;> decide
    | with_reducible refine M.In.forM (fun _ => ?_) _
    | with_reducible refine M.In.optForM (fun _ => ?_) _
    | split
    | dsimp only

theorem foot_applyLoad (c : Ctx) (id first size : Nat) (es : List (List Byte)) : (applyLoad c id first size es).In [0, 1, 3, 4, 5, 6, 7, 8, 9, 12, 16, 17, 19, 20, 32, 33, 35, 36, 43, 44, 45, 46, 47, 48, 49, 50, 53, 54, 60] := by
  unfold applyLoad
  repeat' first
    | with_reducible refine M.In.bind ?_ fun _ => ?_
    | with_reducible refine M.In.ite ?_ ?_
    | with_reducible exact M.In.pure _
    | with_reducible exact M.In.getS
    | (with_reducible refine (foot_change ..).mono ?_) <;> decide
    | (with_reducible refine (foot_uncorrectable ..).mono ?_) <;> decide
    | (with_reducible refine (foot_updMea ..).mono ?_) <;> decide
    | (with_reducible refine (foot_loaded ..).mono ?_) <;> decide
    | (with_reducible refine M.In.wtab _ _ _ ?_) <;> decide
    | (with_reducible refine M.In.hidAt fun x k hk => ?_) <;> (unfold SameHid; split <;> first | rfl | exact absurd (by decide) hk)
    | with_reducible refine M.In.forM (fun _ => ?_) _
    | with_reducible refine M.In.optForM (fun _ => ?_) _
    | split
    | dsimp only

theorem foot_tableLoadBody (c : Ctx) (p : Packet) (body : List Byte) (staged : Option Seg) : (tableLoadBody c p body staged).In [0, 1, 3, 4, 5, 6, 7, 8, 9, 12, 16, 17, 19, 20, 32, 33, 35, 36, 43, 44, 45, 46, 47, 48, 49, 50, 53, 54, 60] := by
  unfold tableLoadBody
  repeat' first
    | with_reducible refine M.In.bind ?_ fun _ => ?_
    | with_reducible refine M.In.ite ?_ ?_
    | with_reducible exact M.In.pure _
    | with_reducible exact M.In.getS
    | (with_reducible refine (foot_absentReply ..).mono ?_) <;> decide
    | (with_reducible refine (foot_applyLoad ..).mono ?_) <;> decide
    | (with_reducible refine M.In.hidAt fun x k hk => ?_) <;> (unfold SameHid; split <;> first | rfl | exact absurd (by decide) hk)
    | split
    | dsimp only

theorem foot_tableVerify (id : Nat) : (tableVerify id).In [0, 42] := by
  unfold tableVerify
  repeat' first
    | with_reducible refine M.In.bind ?_ fun _ => ?_
    | with_reducible refine M.In.ite ?_ ?_
    | with_reducible exact M.In.pure _
    | with_reducible exact M.In.getS
    | (with_reducible refine (foot_absentReply ..).mono ?_) <;> decide
    | (with_reducible refine M.In.fresh ?_) <;> decide
    | (with_reducible refine M.In.freshBytes _ ?_) <;> decide
    | (with_reducible refine M.In.freshRats _ ?_) <;> decide
    | split
    | dsimp only

theorem foot_tableSwap (id : Nat) : (tableSwap id).In [0, 1, 8, 20, 33, 43, 47] := by
  unfold tableSwap
  repeat' first
    | with_reducible refine M.In.bind ?_ fun _ => ?_
    | with_reducible refine M.In.ite ?_ ?_
    | with_reducible exact M.In.pure _
    | with_reducible exact M.In.getS
    | (with_reducible refine (foot_absentReply ..).mono ?_) <;> decide
    | (with_reducible refine (foot_swapBank ..).mono ?_) <;> decide
    | split
    | dsimp only

theorem foot_opRead (c : Ctx) (page : Nat) (body : List Byte) : (opRead c page body).In [0, 47] := by
  unfold opRead
  repeat' first
    | with_reducible refine M.In.bind ?_ fun _ => ?_
    | with_reducible refine M.In.ite ?_ ?_
    | with_reducible exact M.In.pure _
    | (with_reducible refine (foot_readWords ..).mono ?_) <;> decide
    | split
    | dsimp only

theorem foot_opWrite (c : Ctx) (page : Nat) (body : List Byte) : (opWrite c page body).In [0, 1, 2, 3, 4, 5, 6, 7, 8, 9, 10, 11, 12, 13, 14, 15, 16, 17, 18, 19, 20, 21, 22, 32, 33, 35, 36, 42, 43, 44, 45, 46, 47, 48, 49, 50, 51, 52, 54, 55, 56, 57, 59, 60] := by
  unfold opWrite
  repeat' first
    | with_reducible refine M.In.bind ?_ fun _ => ?_
    | with_reducible refine M.In.ite ?_ ?_
    | with_reducible exact M.In.pure _
    | (with_reducible refine (foot_writeWords ..).mono ?_) <;> decide
    | (with_reducible refine M.In.fresh ?_) <;> decide
    | (with_reducible refine M.In.freshBytes _ ?_) <;> decide
    | (with_reducible refine M.In.freshRats _ ?_) <;> decide
    | split
    | dsimp only

theorem foot_opModify (c : Ctx) (page : Nat) (body : List Byte) : (opModify c page body).In [0, 1, 2, 3, 4, 5, 6, 7, 8, 9, 10, 11, 12, 13, 14, 15, 16, 17, 18, 19, 20, 21, 22, 32, 33, 35, 36, 42, 43, 44, 45, 46, 47, 48, 49, 50, 51, 52, 54, 55, 56, 57, 59, 60] := by
  unfold opModify
  repeat' first
    | with_reducible refine M.In.bind ?_ fun _ => ?_
    | with_reducible refine M.In.ite ?_ ?_
    | with_reducible exact M.In.pure _
    | (with_reducible refine (foot_modifyWord ..).mono ?_) <;> decide
    | (with_reducible refine M.In.fresh ?_) <;> decide
    | (with_reducible refine M.In.freshBytes _ ?_) <;> decide
    | (with_reducible refine M.In.freshRats _ ?_) <;> decide
    | split
    | dsimp only

theorem foot_opEnable (g : Nat) : (opEnable g).In [0, 1, 2, 3, 4, 5, 6, 7, 8, 9, 10, 11, 12, 16, 17, 20, 33, 35, 43, 44, 45, 46, 47, 48, 49, 50, 51, 53, 54, 55, 56, 58] := by
  unfold opEnable
  repeat' first
    | with_reducible refine M.In.bind ?_ fun _ => ?_
    | with_reducible refine M.In.ite ?_ ?_
    | with_reducible exact M.In.pure _
    | with_reducible exact M.In.getS
    | (with_reducible refine (foot_absentReply ..).mono ?_) <;> decide
    | (with_reducible refine (foot_enableGroup ..).mono ?_) <;> decide
    | split
    | dsimp only

theorem foot_opDisable (g : Nat) : (opDisable g).In [0, 1, 2, 3, 4, 5, 6, 9, 16, 20, 33, 43, 44, 45, 47, 49, 50, 56] := by
  unfold opDisable
  repeat' first
    | with_reducible refine M.In.bind ?_ fun _ => ?_
    | with_reducible exact M.In.pure _
    | (with_reducible refine (foot_disableGroup ..).mono ?_) <;> decide
    | dsimp only

theorem foot_opCommit (g : Nat) : (opCommit g).In [0, 3, 6, 44, 50] := by
  unfold opCommit
  repeat' first
    | with_reducible refine M.In.bind ?_ fun _ => ?_
    | with_reducible refine M.In.ite ?_ ?_
    | with_reducible exact M.In.pure _
    | with_reducible exact M.In.getS
    | (with_reducible refine (foot_absentReply ..).mono ?_) <;> decide
    | (with_reducible refine (foot_commitShadows ..).mono ?_) <;> decide
    | (with_reducible refine M.In.inc 3 _ ?_ ?_) <;> first | decide | exact PLS.GRP_CFG_page _ | exact PLS.GRP_STAT_page _
    | split
    | dsimp only

theorem foot_opSetpoint (c : Ctx) (body : List Byte) : (opSetpoint c body).In [0, 1, 2, 3, 4, 5, 6, 7, 8, 9, 10, 11, 12, 13, 14, 15, 16, 17, 18, 19, 20, 21, 22, 32, 33, 35, 36, 42, 43, 44, 45, 46, 47, 48, 49, 50, 51, 52, 54, 55, 56, 57, 59, 60] := by
  unfold opSetpoint
  repeat' first
    | with_reducible refine M.In.bind ?_ fun _ => ?_
    | with_reducible refine M.In.ite ?_ ?_
    | with_reducible exact M.In.pure _
    | with_reducible exact M.In.getS
    | (with_reducible refine (foot_countRefusal ..).mono ?_) <;> decide
    | (with_reducible refine (foot_writeWord ..).mono ?_) <;> decide
    | (with_reducible refine (foot_countAbsent ..).mono ?_) <;> decide
    | (with_reducible refine M.In.wf 1 _ _ ?_ ?_) <;> first | decide
    | (with_reducible refine M.In.inc 1 _ ?_ ?_) <;> first | decide
    | (with_reducible refine M.In.fresh ?_) <;> decide
    | (with_reducible refine M.In.freshBytes _ ?_) <;> decide
    | (with_reducible refine M.In.freshRats _ ?_) <;> decide
    | with_reducible refine M.In.forM (fun _ => ?_) _
    | with_reducible refine M.In.optForM (fun _ => ?_) _
    | split
    | dsimp only

theorem foot_opSelftest (p : Packet) (body : List Byte) (byRun : Bool) : (opSelftest p body byRun).In [0, 43, 45] := by
  unfold opSelftest
  repeat' first
    | with_reducible refine M.In.bind ?_ fun _ => ?_
    | with_reducible refine M.In.ite ?_ ?_
    | with_reducible exact M.In.pure _
    | with_reducible exact M.In.getS
    | (with_reducible refine (foot_absentReply ..).mono ?_) <;> decide
    | (with_reducible refine (foot_addDue ..).mono ?_) <;> decide
    | (with_reducible refine (foot_updBank ..).mono ?_) <;> decide
    | split
    | dsimp only

theorem foot_withLogs {P : List Nat} (id : Nat) {m : M Ans} (h : m.In P) (hs : ∀ x ∈ ([0] : List Nat), x ∈ P) :
    (withLogs id m).In P := by
  unfold withLogs
  exact M.In.getS.bind fun _ => M.In.ite h (((foot_absentReply _).mono hs).bind fun _ => M.In.pure _)

theorem foot_opLogRead (body : List Byte) : (opLogRead body).In [0] := by
  unfold opLogRead
  repeat' first
    | with_reducible refine M.In.bind ?_ fun _ => ?_
    | with_reducible refine M.In.ite ?_ ?_
    | with_reducible exact M.In.pure _
    | with_reducible exact M.In.getS
    | (with_reducible refine foot_withLogs _ ?_ ?_) <;> first | decide | skip
    | split
    | dsimp only

theorem foot_opLogClear (c : Ctx) (body : List Byte) : (opLogClear c body).In [0, 1, 16, 17, 34, 35, 36, 42] := by
  unfold opLogClear
  repeat' first
    | with_reducible refine M.In.bind ?_ fun _ => ?_
    | with_reducible refine M.In.ite ?_ ?_
    | with_reducible exact M.In.pure _
    | (with_reducible refine (foot_changeFree ..).mono ?_) <;> decide
    | (with_reducible refine foot_withLogs _ ?_ ?_) <;> first | decide | skip
    | (with_reducible refine M.In.wr 1 _ _ ?_ ?_) <;> first | decide
    | (with_reducible refine M.In.wr 17 _ _ ?_ ?_) <;> first | decide
    | (with_reducible refine M.In.vioClear ?_) <;> decide
    | (with_reducible refine M.In.fltClear ?_) <;> decide
    | (with_reducible refine M.In.fresh ?_) <;> decide
    | (with_reducible refine M.In.freshBytes _ ?_) <;> decide
    | (with_reducible refine M.In.freshRats _ ?_) <;> decide
    | split
    | dsimp only

theorem foot_opSessionOpen (p : Packet) (body : List Byte) : (opSessionOpen p body).In [0, 1, 3, 4, 5, 6, 9, 12, 16, 17, 20, 33, 35, 42, 43, 44, 45, 46, 47, 48, 49, 50] := by
  unfold opSessionOpen
  repeat' first
    | with_reducible refine M.In.bind ?_ fun _ => ?_
    | with_reducible refine M.In.ite ?_ ?_
    | with_reducible exact M.In.pure _
    | with_reducible exact M.In.getS
    | (with_reducible refine (foot_dropSession ..).mono ?_) <;> decide
    | (with_reducible refine (foot_openPhase0 ..).mono ?_) <;> decide
    | (with_reducible refine (foot_openPhase1 ..).mono ?_) <;> decide
    | (with_reducible refine M.In.fresh ?_) <;> decide
    | (with_reducible refine M.In.freshBytes _ ?_) <;> decide
    | (with_reducible refine M.In.freshRats _ ?_) <;> decide
    | (with_reducible refine M.In.hidAt fun x k hk => ?_) <;> (unfold SameHid; split <;> first | rfl | exact absurd (by decide) hk)
    | split
    | dsimp only

theorem foot_opPassword (c : Ctx) (p : Packet) (body : List Byte) : (opPassword c p body).In [16, 36, 42, 43] := by
  unfold opPassword
  repeat' first
    | with_reducible refine M.In.bind ?_ fun _ => ?_
    | with_reducible refine M.In.ite ?_ ?_
    | with_reducible exact M.In.pure _
    | with_reducible exact M.In.getS
    | (with_reducible refine (foot_storePwd ..).mono ?_) <;> decide
    | (with_reducible refine (foot_changeFree ..).mono ?_) <;> decide
    | (with_reducible refine M.In.fresh ?_) <;> decide
    | (with_reducible refine M.In.freshBytes _ ?_) <;> decide
    | (with_reducible refine M.In.freshRats _ ?_) <;> decide
    | split
    | dsimp only

theorem foot_setSubstituted (c : Nat) (on : Bool) : (setSubstituted c on).In [32] := by
  unfold setSubstituted
  repeat' first
    | with_reducible refine M.In.bind ?_ fun _ => ?_
    | with_reducible refine M.In.ite ?_ ?_
    | with_reducible exact M.In.pure _
    | with_reducible exact M.In.getS
    | (with_reducible refine M.In.wtab _ _ _ ?_) <;> decide
    | split
    | dsimp only

theorem foot_convSubstitute (c : Ctx) (p : Packet) (k spare : Nat) (byRun : Bool) : (convSubstitute c p k spare byRun).In [0, 1, 6, 16, 20, 33, 36, 42, 43, 45, 47, 50] := by
  unfold convSubstitute
  repeat' first
    | with_reducible refine M.In.bind ?_ fun _ => ?_
    | with_reducible refine M.In.ite ?_ ?_
    | with_reducible exact M.In.pure _
    | with_reducible exact M.In.getS
    | (with_reducible refine (foot_absentReply ..).mono ?_) <;> decide
    | (with_reducible refine (foot_addDue ..).mono ?_) <;> decide
    | (with_reducible refine (foot_complete ..).mono ?_) <;> decide
    | (with_reducible refine (foot_updMea ..).mono ?_) <;> decide
    | (with_reducible refine (foot_sa8Replace ..).mono ?_) <;> decide
    | (with_reducible refine (foot_changeFree ..).mono ?_) <;> decide
    | (with_reducible refine M.In.fresh ?_) <;> decide
    | (with_reducible refine M.In.freshBytes _ ?_) <;> decide
    | (with_reducible refine M.In.freshRats _ ?_) <;> decide
    | (refine M.In.hid_trp _ ?_; decide)
    | split
    | dsimp only

theorem foot_opSubstitute (c : Ctx) (p : Packet) (body : List Byte) (byRun : Bool) : (opSubstitute c p body byRun).In [0, 1, 2, 3, 6, 16, 20, 32, 33, 36, 42, 43, 44, 45, 47, 50] := by
  unfold opSubstitute
  repeat' first
    | with_reducible refine M.In.bind ?_ fun _ => ?_
    | with_reducible refine M.In.ite ?_ ?_
    | with_reducible exact M.In.pure _
    | with_reducible exact M.In.getS
    | (with_reducible refine (foot_absentReply ..).mono ?_) <;> decide
    | (with_reducible refine (foot_addDue ..).mono ?_) <;> decide
    | (with_reducible refine (foot_showSpares ..).mono ?_) <;> decide
    | (with_reducible refine (foot_copyWords ..).mono ?_) <;> decide
    | (with_reducible refine (foot_useSpare ..).mono ?_) <;> decide
    | (with_reducible refine (foot_field ..).mono ?_) <;> decide
    | (with_reducible refine (foot_changeFree ..).mono ?_) <;> decide
    | (with_reducible refine (foot_setSubstituted ..).mono ?_) <;> decide
    | (with_reducible refine (foot_convSubstitute ..).mono ?_) <;> decide
    | (with_reducible refine M.In.fresh ?_) <;> decide
    | (with_reducible refine M.In.freshBytes _ ?_) <;> decide
    | (with_reducible refine M.In.freshRats _ ?_) <;> decide
    | (refine M.In.hid_trp _ ?_; decide)
    | split
    | dsimp only

theorem foot_opScrub (p : Packet) (body : List Byte) (byRun : Bool) : (opScrub p body byRun).In [0, 19, 43, 60] := by
  unfold opScrub
  repeat' first
    | with_reducible refine M.In.bind ?_ fun _ => ?_
    | with_reducible refine M.In.ite ?_ ?_
    | with_reducible exact M.In.pure _
    | with_reducible exact M.In.getS
    | (with_reducible refine (foot_absentReply ..).mono ?_) <;> decide
    | (with_reducible refine (foot_addDue ..).mono ?_) <;> decide
    | (with_reducible refine (foot_updMem ..).mono ?_) <;> decide
    | (with_reducible refine M.In.wf 19 _ _ ?_ ?_) <;> first | decide
    | (with_reducible refine M.In.hidAt fun x k hk => ?_) <;> (unfold SameHid; split <;> first | rfl | exact absurd (by decide) hk)
    | split
    | dsimp only

theorem foot_opRetire (body : List Byte) : (opRetire body).In [0, 1, 3, 4, 5, 6, 9, 12, 16, 17, 19, 20, 33, 35, 43, 44, 45, 46, 47, 48, 49, 50, 60] := by
  unfold opRetire
  repeat' first
    | with_reducible refine M.In.bind ?_ fun _ => ?_
    | with_reducible refine M.In.ite ?_ ?_
    | with_reducible exact M.In.pure _
    | with_reducible exact M.In.getS
    | (with_reducible refine (foot_retirePage ..).mono ?_) <;> decide
    | split
    | dsimp only

theorem foot_opSplit (p : Packet) (body : List Byte) (byRun : Bool) : (opSplit p body byRun).In [43, 46] := by
  unfold opSplit
  repeat' first
    | with_reducible refine M.In.bind ?_ fun _ => ?_
    | with_reducible refine M.In.ite ?_ ?_
    | with_reducible exact M.In.pure _
    | with_reducible exact M.In.getS
    | (with_reducible refine (foot_addDue ..).mono ?_) <;> decide
    | (with_reducible refine (foot_updChord ..).mono ?_) <;> decide
    | split
    | dsimp only

theorem foot_opJoin (p : Packet) (body : List Byte) (byRun : Bool) : (opJoin p body byRun).In [43, 46] := by
  unfold opJoin
  repeat' first
    | with_reducible refine M.In.bind ?_ fun _ => ?_
    | with_reducible refine M.In.ite ?_ ?_
    | with_reducible exact M.In.pure _
    | with_reducible exact M.In.getS
    | (with_reducible refine (foot_addDue ..).mono ?_) <;> decide
    | (with_reducible refine (foot_startJoin ..).mono ?_) <;> decide
    | split
    | dsimp only

theorem foot_opAdvance (c : Ctx) (p : Packet) (body : List Byte) (svcLow : Option Bool) : (opAdvance c p body svcLow).In [0, 1, 16, 19, 20, 22, 33, 36, 42, 43, 47, 61] := by
  unfold opAdvance
  repeat' first
    | with_reducible refine M.In.bind ?_ fun _ => ?_
    | with_reducible exact M.In.pure _
    | with_reducible exact M.In.getS
    | (with_reducible refine (foot_addDue ..).mono ?_) <;> decide
    | (with_reducible refine (foot_lcAdvance ..).mono ?_) <;> decide
    | (with_reducible refine M.In.fresh ?_) <;> decide
    | (with_reducible refine M.In.freshBytes _ ?_) <;> decide
    | (with_reducible refine M.In.freshRats _ ?_) <;> decide
    | with_reducible refine M.In.map ?_
    | split
    | dsimp only

theorem foot_opFwBegin (c : Ctx) (body : List Byte) : (opFwBegin c body).In [22, 61] := by
  unfold opFwBegin
  repeat' first
    | with_reducible refine M.In.bind ?_ fun _ => ?_
    | with_reducible refine M.In.ite ?_ ?_
    | with_reducible exact M.In.pure _
    | with_reducible exact M.In.getS
    | (with_reducible refine (foot_fwBegin ..).mono ?_) <;> decide
    | split
    | dsimp only

theorem foot_opFwChunk (c : Ctx) (p : Packet) (body : List Byte) (staged : Option Seg) : (opFwChunk c p body staged).In [61] := by
  unfold opFwChunk
  repeat' first
    | with_reducible refine M.In.bind ?_ fun _ => ?_
    | with_reducible refine M.In.ite ?_ ?_
    | with_reducible exact M.In.pure _
    | with_reducible exact M.In.getS
    | (with_reducible refine (foot_fwTouch ..).mono ?_) <;> decide
    | (with_reducible refine (foot_fwWrite ..).mono ?_) <;> decide
    | (with_reducible refine M.In.hidAt fun x k hk => ?_) <;> (unfold SameHid; split <;> first | rfl | exact absurd (by decide) hk)
    | split
    | dsimp only

theorem foot_opFwEnd (c : Ctx) (p : Packet) (body : List Byte) : (opFwEnd c p body).In [43, 61] := by
  unfold opFwEnd
  repeat' first
    | with_reducible refine M.In.bind ?_ fun _ => ?_
    | with_reducible refine M.In.ite ?_ ?_
    | with_reducible exact M.In.pure _
    | with_reducible exact M.In.getS
    | (with_reducible refine (foot_addDue ..).mono ?_) <;> decide
    | (with_reducible refine (foot_fwEnd ..).mono ?_) <;> decide
    | split
    | dsimp only

theorem foot_withMeter {P : List Nat} {m : M Ans} (h : m.In P) (hs : ∀ x ∈ ([0] : List Nat), x ∈ P) :
    (withMeter m).In P := by
  unfold withMeter
  exact M.In.getS.bind fun _ => M.In.ite h (((foot_absentReply _).mono hs).bind fun _ => M.In.pure _)

theorem foot_opMeterRead (body : List Byte) : (opMeterRead body).In [0] := by
  unfold opMeterRead
  repeat' first
    | with_reducible refine M.In.bind ?_ fun _ => ?_
    | with_reducible exact M.In.pure _
    | with_reducible exact M.In.getS
    | (with_reducible refine foot_withMeter ?_ ?_) <;> first | decide | skip
    | split
    | dsimp only

theorem foot_opRecordRead (body : List Byte) : (opRecordRead body).In [0] := by
  unfold opRecordRead
  repeat' first
    | with_reducible refine M.In.bind ?_ fun _ => ?_
    | with_reducible refine M.In.ite ?_ ?_
    | with_reducible exact M.In.pure _
    | with_reducible exact M.In.getS
    | (with_reducible refine foot_withMeter ?_ ?_) <;> first | decide | skip
    | split
    | dsimp only

theorem foot_opSeal (body : List Byte) : (opSeal body).In [0, 1, 13, 20, 32, 33, 43, 47, 57] := by
  unfold opSeal
  repeat' first
    | with_reducible refine M.In.bind ?_ fun _ => ?_
    | with_reducible exact M.In.pure _
    | with_reducible exact M.In.getS
    | (with_reducible refine (foot_sealTable ..).mono ?_) <;> decide
    | (with_reducible refine foot_withMeter ?_ ?_) <;> first | decide | skip
    | split
    | dsimp only

theorem foot_opReset (p : Packet) : (opReset p).In [1, 20, 43, 47, 61] := by
  unfold opReset
  repeat' first
    | with_reducible refine M.In.bind ?_ fun _ => ?_
    | with_reducible refine M.In.ite ?_ ?_
    | with_reducible exact M.In.pure _
    | (with_reducible refine (foot_resetLink ..).mono ?_) <;> decide
    | (refine M.In.hid_lcy _ ?_; decide)
    | split
    | dsimp only

theorem foot_afterReply (op : Nat) (p : Packet) (a : Ans) : (afterReply op p a).In [0, 1, 2, 5, 9, 18, 19, 20, 33, 43, 44, 45, 46, 47, 50, 57, 60, 99] := by
  unfold afterReply
  repeat' first
    | with_reducible refine M.In.bind ?_ fun _ => ?_
    | with_reducible refine M.In.ite ?_ ?_
    | (with_reducible refine M.In.wfAny _ _ ?_) <;> decide
    | (with_reducible refine M.In.any _ ?_) <;> decide
    | (with_reducible refine M.In.incAny _ ?_) <;> decide
    | (with_reducible refine M.In.incByAny _ _ ?_) <;> decide
    | (with_reducible refine M.In.incWrapAny _ ?_) <;> decide
    | (with_reducible refine M.In.any99 _ _ ?_) <;> decide
    | (with_reducible refine M.In.hidAny _ ?_) <;> decide
    | (with_reducible refine M.In.wtab99 _ _ _ ?_) <;> decide
    | (with_reducible refine M.In.fresh99 ?_) <;> decide
    | (with_reducible refine M.In.freshBytes99 _ ?_) <;> decide
    | (with_reducible refine M.In.freshRats99 _ ?_) <;> decide
    | with_reducible exact M.In.pure _
    | (with_reducible refine (foot_resetIsland ..).mono ?_) <;> decide
    | split
    | dsimp only

theorem foot_logViolation (c : Ctx) (a : Ans) : (logViolation c a).In [1, 20, 33, 34, 43, 47] := by
  unfold logViolation
  repeat' first
    | with_reducible refine M.In.bind ?_ fun _ => ?_
    | with_reducible refine M.In.ite ?_ ?_
    | with_reducible exact M.In.pure _
    | with_reducible exact M.In.getS
    | (with_reducible refine (foot_violation ..).mono ?_) <;> decide
    | split
    | dsimp only

theorem foot_putSeg (c : Ctx) (g : Option Seg) : (putSeg c g).In [1, 43] := by
  unfold putSeg
  repeat' first
    | with_reducible refine M.In.bind ?_ fun _ => ?_
    | with_reducible refine M.In.ite ?_ ?_
    | with_reducible exact M.In.pure _
    | with_reducible exact M.In.getS
    | (with_reducible refine (foot_updSession ..).mono ?_) <;> decide
    | (refine M.In.hid_cmd _ ?_; decide)
    | split
    | dsimp only

theorem foot_clearLost (c : Ctx) : (clearLost c).In [1, 43] := by
  unfold clearLost
  repeat' first
    | with_reducible refine M.In.bind ?_ fun _ => ?_
    | with_reducible refine M.In.ite ?_ ?_
    | with_reducible exact M.In.pure _
    | with_reducible exact M.In.getS
    | (with_reducible refine (foot_updSession ..).mono ?_) <;> decide
    | split
    | dsimp only

theorem foot_opSequenceStore (c : Ctx) (p : Packet) (body : List Byte) (staged : Option Seg) : (opSequenceStore c p body staged).In [43] := by
  unfold opSequenceStore
  repeat' first
    | with_reducible refine M.In.bind ?_ fun _ => ?_
    | with_reducible refine M.In.ite ?_ ?_
    | with_reducible exact M.In.pure _
    | with_reducible exact M.In.getS
    | (refine M.In.hid_cmd _ ?_; decide)
    | split
    | dsimp only

theorem foot_loadSequences (c : Ctx) (p : Packet) (body : List Byte) (staged : Option Seg) : (loadSequences c p body staged).In [16, 36, 42, 43] := by
  unfold loadSequences
  repeat' first
    | with_reducible refine M.In.bind ?_ fun _ => ?_
    | with_reducible refine M.In.ite ?_ ?_
    | with_reducible exact M.In.pure _
    | with_reducible exact M.In.getS
    | (with_reducible refine (foot_change ..).mono ?_) <;> decide
    | (with_reducible refine M.In.fresh ?_) <;> decide
    | (with_reducible refine M.In.freshBytes _ ?_) <;> decide
    | (with_reducible refine M.In.freshRats _ ?_) <;> decide
    | (refine M.In.hid_cmd _ ?_; decide)
    | with_reducible refine M.In.forM (fun _ => ?_) _
    | with_reducible refine M.In.optForM (fun _ => ?_) _
    | split
    | dsimp only

theorem foot_handle (c : Ctx) (p : Packet) (body : List Byte) (staged : Option Seg) (svcLow : Option Bool) : (handle c p body staged svcLow).In [0, 1, 2, 3, 4, 5, 6, 7, 8, 9, 10, 11, 12, 13, 14, 15, 16, 17, 18, 19, 20, 21, 22, 32, 33, 34, 35, 36, 42, 43, 44, 45, 46, 47, 48, 49, 50, 51, 52, 53, 54, 55, 56, 57, 58, 59, 60, 61] := by
  unfold handle
  repeat' first
    | with_reducible refine M.In.bind ?_ fun _ => ?_
    | with_reducible refine M.In.ite ?_ ?_
    | with_reducible exact M.In.pure _
    | with_reducible exact M.In.getS
    | (with_reducible refine (foot_dropSession ..).mono ?_) <;> decide
    | (with_reducible refine (foot_tableLoadBody ..).mono ?_) <;> decide
    | (with_reducible refine (foot_tableVerify ..).mono ?_) <;> decide
    | (with_reducible refine (foot_tableSwap ..).mono ?_) <;> decide
    | (with_reducible refine (foot_opRead ..).mono ?_) <;> decide
    | (with_reducible refine (foot_opWrite ..).mono ?_) <;> decide
    | (with_reducible refine (foot_opModify ..).mono ?_) <;> decide
    | (with_reducible refine (foot_opEnable ..).mono ?_) <;> decide
    | (with_reducible refine (foot_opDisable ..).mono ?_) <;> decide
    | (with_reducible refine (foot_opCommit ..).mono ?_) <;> decide
    | (with_reducible refine (foot_opSetpoint ..).mono ?_) <;> decide
    | (with_reducible refine (foot_opSelftest ..).mono ?_) <;> decide
    | (with_reducible refine (foot_opLogRead ..).mono ?_) <;> decide
    | (with_reducible refine (foot_opLogClear ..).mono ?_) <;> decide
    | (with_reducible refine (foot_opSessionOpen ..).mono ?_) <;> decide
    | (with_reducible refine (foot_opPassword ..).mono ?_) <;> decide
    | (with_reducible refine (foot_opSubstitute ..).mono ?_) <;> decide
    | (with_reducible refine (foot_opScrub ..).mono ?_) <;> decide
    | (with_reducible refine (foot_opRetire ..).mono ?_) <;> decide
    | (with_reducible refine (foot_opSplit ..).mono ?_) <;> decide
    | (with_reducible refine (foot_opJoin ..).mono ?_) <;> decide
    | (with_reducible refine (foot_opAdvance ..).mono ?_) <;> decide
    | (with_reducible refine (foot_opFwBegin ..).mono ?_) <;> decide
    | (with_reducible refine (foot_opFwChunk ..).mono ?_) <;> decide
    | (with_reducible refine (foot_opFwEnd ..).mono ?_) <;> decide
    | (with_reducible refine (foot_opMeterRead ..).mono ?_) <;> decide
    | (with_reducible refine (foot_opRecordRead ..).mono ?_) <;> decide
    | (with_reducible refine (foot_opSeal ..).mono ?_) <;> decide
    | (with_reducible refine (foot_opReset ..).mono ?_) <;> decide
    | (with_reducible refine (foot_opSequenceStore ..).mono ?_) <;> decide
    | (with_reducible refine (foot_loadSequences ..).mono ?_) <;> decide
    | (with_reducible refine M.In.fresh ?_) <;> decide
    | (with_reducible refine M.In.freshBytes _ ?_) <;> decide
    | (with_reducible refine M.In.freshRats _ ?_) <;> decide
    | split
    | dsimp only

theorem foot_execute (c : Ctx) (p : Packet) (svcLow : Option Bool) : (execute c p svcLow).In [0, 1, 2, 3, 4, 5, 6, 7, 8, 9, 10, 11, 12, 13, 14, 15, 16, 17, 18, 19, 20, 21, 22, 32, 33, 34, 35, 36, 42, 43, 44, 45, 46, 47, 48, 49, 50, 51, 52, 53, 54, 55, 56, 57, 58, 59, 60, 61] := by
  unfold execute
  repeat' first
    | with_reducible refine M.In.bind ?_ fun _ => ?_
    | with_reducible refine M.In.ite ?_ ?_
    | with_reducible exact M.In.pure _
    | with_reducible exact M.In.getS
    | (with_reducible refine (foot_putSeg ..).mono ?_) <;> decide
    | (with_reducible refine (foot_clearLost ..).mono ?_) <;> decide
    | (with_reducible refine (foot_handle ..).mono ?_) <;> decide
    | (with_reducible refine M.In.fresh ?_) <;> decide
    | (with_reducible refine M.In.freshBytes _ ?_) <;> decide
    | (with_reducible refine M.In.freshRats _ ?_) <;> decide
    | split
    | dsimp only

theorem foot_runSteps (auth session : Nat) (by_ : Option Packet) (x0 : Nat) (x1 : List Req) : (runSteps auth session by_ x0 x1).In [0, 1, 2, 3, 4, 5, 6, 7, 8, 9, 10, 11, 12, 13, 14, 15, 16, 17, 18, 19, 20, 21, 22, 32, 33, 34, 35, 36, 42, 43, 44, 45, 46, 47, 48, 49, 50, 51, 52, 53, 54, 55, 56, 57, 58, 59, 60, 61, 99] := by
  induction x1 generalizing x0 with
  | nil =>
    unfold runSteps
    repeat' first
      | with_reducible refine M.In.bind ?_ fun _ => ?_
      | with_reducible refine M.In.ite ?_ ?_
      | (with_reducible refine M.In.wfAny _ _ ?_) <;> decide
      | (with_reducible refine M.In.any _ ?_) <;> decide
      | (with_reducible refine M.In.incAny _ ?_) <;> decide
      | (with_reducible refine M.In.incByAny _ _ ?_) <;> decide
      | (with_reducible refine M.In.incWrapAny _ ?_) <;> decide
      | (with_reducible refine M.In.any99 _ _ ?_) <;> decide
      | (with_reducible refine M.In.hidAny _ ?_) <;> decide
      | (with_reducible refine M.In.wtab99 _ _ _ ?_) <;> decide
      | (with_reducible refine M.In.fresh99 ?_) <;> decide
      | (with_reducible refine M.In.freshBytes99 _ ?_) <;> decide
      | (with_reducible refine M.In.freshRats99 _ ?_) <;> decide
      | with_reducible exact M.In.pure _
      | with_reducible exact M.In.getS
      | (with_reducible refine (foot_afterReply ..).mono ?_) <;> decide
      | (with_reducible refine (foot_logViolation ..).mono ?_) <;> decide
      | (with_reducible refine (foot_execute ..).mono ?_) <;> decide
      | (with_reducible refine M.In.fresh ?_) <;> decide
      | (with_reducible refine M.In.freshBytes _ ?_) <;> decide
      | (with_reducible refine M.In.freshRats _ ?_) <;> decide
      | (refine M.In.hid_cmd _ ?_; decide)
      | split
      | dsimp only
  | cons _ _ ih =>
    unfold runSteps
    repeat' first
      | with_reducible exact ih ..
      | with_reducible refine M.In.bind ?_ fun _ => ?_
      | with_reducible refine M.In.ite ?_ ?_
      | (with_reducible refine M.In.wfAny _ _ ?_) <;> decide
      | (with_reducible refine M.In.any _ ?_) <;> decide
      | (with_reducible refine M.In.incAny _ ?_) <;> decide
      | (with_reducible refine M.In.incByAny _ _ ?_) <;> decide
      | (with_reducible refine M.In.incWrapAny _ ?_) <;> decide
      | (with_reducible refine M.In.any99 _ _ ?_) <;> decide
      | (with_reducible refine M.In.hidAny _ ?_) <;> decide
      | (with_reducible refine M.In.wtab99 _ _ _ ?_) <;> decide
      | (with_reducible refine M.In.fresh99 ?_) <;> decide
      | (with_reducible refine M.In.freshBytes99 _ ?_) <;> decide
      | (with_reducible refine M.In.freshRats99 _ ?_) <;> decide
      | with_reducible exact M.In.pure _
      | with_reducible exact M.In.getS
      | (with_reducible refine (foot_afterReply ..).mono ?_) <;> decide
      | (with_reducible refine (foot_logViolation ..).mono ?_) <;> decide
      | (with_reducible refine (foot_execute ..).mono ?_) <;> decide
      | (with_reducible refine M.In.fresh ?_) <;> decide
      | (with_reducible refine M.In.freshBytes _ ?_) <;> decide
      | (with_reducible refine M.In.freshRats _ ?_) <;> decide
      | (refine M.In.hid_cmd _ ?_; decide)
      | split
      | dsimp only

theorem foot_opSequenceRun (c : Ctx) (p : Packet) (body : List Byte) : (opSequenceRun c p body).In [0, 1, 2, 3, 4, 5, 6, 7, 8, 9, 10, 11, 12, 13, 14, 15, 16, 17, 18, 19, 20, 21, 22, 32, 33, 34, 35, 36, 42, 43, 44, 45, 46, 47, 48, 49, 50, 51, 52, 53, 54, 55, 56, 57, 58, 59, 60, 61, 99] := by
  unfold opSequenceRun
  repeat' first
    | with_reducible refine M.In.bind ?_ fun _ => ?_
    | with_reducible refine M.In.ite ?_ ?_
    | (with_reducible refine M.In.wfAny _ _ ?_) <;> decide
    | (with_reducible refine M.In.any _ ?_) <;> decide
    | (with_reducible refine M.In.incAny _ ?_) <;> decide
    | (with_reducible refine M.In.incByAny _ _ ?_) <;> decide
    | (with_reducible refine M.In.incWrapAny _ ?_) <;> decide
    | (with_reducible refine M.In.any99 _ _ ?_) <;> decide
    | (with_reducible refine M.In.hidAny _ ?_) <;> decide
    | (with_reducible refine M.In.wtab99 _ _ _ ?_) <;> decide
    | (with_reducible refine M.In.fresh99 ?_) <;> decide
    | (with_reducible refine M.In.freshBytes99 _ ?_) <;> decide
    | (with_reducible refine M.In.freshRats99 _ ?_) <;> decide
    | with_reducible exact M.In.pure _
    | with_reducible exact M.In.getS
    | (with_reducible refine (foot_addDue ..).mono ?_) <;> decide
    | (with_reducible refine (foot_runSteps ..).mono ?_) <;> decide
    | (with_reducible refine M.In.fresh ?_) <;> decide
    | (with_reducible refine M.In.freshBytes _ ?_) <;> decide
    | (with_reducible refine M.In.freshRats _ ?_) <;> decide
    | split
    | dsimp only

theorem foot_resumeRun : (resumeRun).In [0, 1, 2, 3, 4, 5, 6, 7, 8, 9, 10, 11, 12, 13, 14, 15, 16, 17, 18, 19, 20, 21, 22, 32, 33, 34, 35, 36, 42, 43, 44, 45, 46, 47, 48, 49, 50, 51, 52, 53, 54, 55, 56, 57, 58, 59, 60, 61, 99] := by
  unfold resumeRun
  repeat' first
    | with_reducible refine M.In.bind ?_ fun _ => ?_
    | with_reducible refine M.In.ite ?_ ?_
    | (with_reducible refine M.In.wfAny _ _ ?_) <;> decide
    | (with_reducible refine M.In.any _ ?_) <;> decide
    | (with_reducible refine M.In.incAny _ ?_) <;> decide
    | (with_reducible refine M.In.incByAny _ _ ?_) <;> decide
    | (with_reducible refine M.In.incWrapAny _ ?_) <;> decide
    | (with_reducible refine M.In.any99 _ _ ?_) <;> decide
    | (with_reducible refine M.In.hidAny _ ?_) <;> decide
    | (with_reducible refine M.In.wtab99 _ _ _ ?_) <;> decide
    | (with_reducible refine M.In.fresh99 ?_) <;> decide
    | (with_reducible refine M.In.freshBytes99 _ ?_) <;> decide
    | (with_reducible refine M.In.freshRats99 _ ?_) <;> decide
    | with_reducible exact M.In.pure _
    | with_reducible exact M.In.getS
    | (with_reducible refine (foot_endRun ..).mono ?_) <;> decide
    | (with_reducible refine (foot_runSteps ..).mono ?_) <;> decide
    | (with_reducible refine M.In.wf 1 _ _ ?_ ?_) <;> first | decide
    | (with_reducible refine M.In.fresh ?_) <;> decide
    | (with_reducible refine M.In.freshBytes _ ?_) <;> decide
    | (with_reducible refine M.In.freshRats _ ?_) <;> decide
    | (refine M.In.hid_cmd _ ?_; decide)
    | split
    | dsimp only

theorem foot_autorun : (autorun).In [0, 1, 2, 3, 4, 5, 6, 7, 8, 9, 10, 11, 12, 13, 14, 15, 16, 17, 18, 19, 20, 21, 22, 32, 33, 34, 35, 36, 42, 43, 44, 45, 46, 47, 48, 49, 50, 51, 52, 53, 54, 55, 56, 57, 58, 59, 60, 61, 99] := by
  unfold autorun
  repeat' first
    | with_reducible refine M.In.bind ?_ fun _ => ?_
    | with_reducible refine M.In.ite ?_ ?_
    | (with_reducible refine M.In.wfAny _ _ ?_) <;> decide
    | (with_reducible refine M.In.any _ ?_) <;> decide
    | (with_reducible refine M.In.incAny _ ?_) <;> decide
    | (with_reducible refine M.In.incByAny _ _ ?_) <;> decide
    | (with_reducible refine M.In.incWrapAny _ ?_) <;> decide
    | (with_reducible refine M.In.any99 _ _ ?_) <;> decide
    | (with_reducible refine M.In.hidAny _ ?_) <;> decide
    | (with_reducible refine M.In.wtab99 _ _ _ ?_) <;> decide
    | (with_reducible refine M.In.fresh99 ?_) <;> decide
    | (with_reducible refine M.In.freshBytes99 _ ?_) <;> decide
    | (with_reducible refine M.In.freshRats99 _ ?_) <;> decide
    | with_reducible exact M.In.pure _
    | with_reducible exact M.In.getS
    | (with_reducible refine (foot_endRun ..).mono ?_) <;> decide
    | (with_reducible refine (foot_runSteps ..).mono ?_) <;> decide
    | (with_reducible refine M.In.wf 1 _ _ ?_ ?_) <;> first | decide
    | (with_reducible refine M.In.fresh ?_) <;> decide
    | (with_reducible refine M.In.freshBytes _ ?_) <;> decide
    | (with_reducible refine M.In.freshRats _ ?_) <;> decide
    | split
    | dsimp only

theorem foot_executeTop (c : Ctx) (p : Packet) (svcLow : Option Bool) : (executeTop c p svcLow).In [0, 1, 2, 3, 4, 5, 6, 7, 8, 9, 10, 11, 12, 13, 14, 15, 16, 17, 18, 19, 20, 21, 22, 32, 33, 34, 35, 36, 42, 43, 44, 45, 46, 47, 48, 49, 50, 51, 52, 53, 54, 55, 56, 57, 58, 59, 60, 61, 99] := by
  unfold executeTop
  repeat' first
    | with_reducible refine M.In.bind ?_ fun _ => ?_
    | with_reducible refine M.In.ite ?_ ?_
    | (with_reducible refine M.In.wfAny _ _ ?_) <;> decide
    | (with_reducible refine M.In.any _ ?_) <;> decide
    | (with_reducible refine M.In.incAny _ ?_) <;> decide
    | (with_reducible refine M.In.incByAny _ _ ?_) <;> decide
    | (with_reducible refine M.In.incWrapAny _ ?_) <;> decide
    | (with_reducible refine M.In.any99 _ _ ?_) <;> decide
    | (with_reducible refine M.In.hidAny _ ?_) <;> decide
    | (with_reducible refine M.In.wtab99 _ _ _ ?_) <;> decide
    | (with_reducible refine M.In.fresh99 ?_) <;> decide
    | (with_reducible refine M.In.freshBytes99 _ ?_) <;> decide
    | (with_reducible refine M.In.freshRats99 _ ?_) <;> decide
    | with_reducible exact M.In.pure _
    | with_reducible exact M.In.getS
    | (with_reducible refine (foot_putSeg ..).mono ?_) <;> decide
    | (with_reducible refine (foot_execute ..).mono ?_) <;> decide
    | (with_reducible refine (foot_opSequenceRun ..).mono ?_) <;> decide
    | (with_reducible refine M.In.fresh ?_) <;> decide
    | (with_reducible refine M.In.freshBytes _ ?_) <;> decide
    | (with_reducible refine M.In.freshRats _ ?_) <;> decide
    | split
    | dsimp only

theorem foot_process (op : Nat) (p : Packet) (svcLow : Option Bool) : (process op p svcLow).In [0, 1, 2, 3, 4, 5, 6, 7, 8, 9, 10, 11, 12, 13, 14, 15, 16, 17, 18, 19, 20, 21, 22, 32, 33, 34, 35, 36, 42, 43, 44, 45, 46, 47, 48, 49, 50, 51, 52, 53, 54, 55, 56, 57, 58, 59, 60, 61, 99] := by
  unfold process
  repeat' first
    | with_reducible refine M.In.bind ?_ fun _ => ?_
    | with_reducible refine M.In.ite ?_ ?_
    | (with_reducible refine M.In.wfAny _ _ ?_) <;> decide
    | (with_reducible refine M.In.any _ ?_) <;> decide
    | (with_reducible refine M.In.incAny _ ?_) <;> decide
    | (with_reducible refine M.In.incByAny _ _ ?_) <;> decide
    | (with_reducible refine M.In.incWrapAny _ ?_) <;> decide
    | (with_reducible refine M.In.any99 _ _ ?_) <;> decide
    | (with_reducible refine M.In.hidAny _ ?_) <;> decide
    | (with_reducible refine M.In.wtab99 _ _ _ ?_) <;> decide
    | (with_reducible refine M.In.fresh99 ?_) <;> decide
    | (with_reducible refine M.In.freshBytes99 _ ?_) <;> decide
    | (with_reducible refine M.In.freshRats99 _ ?_) <;> decide
    | with_reducible exact M.In.pure _
    | with_reducible exact M.In.getS
    | (with_reducible refine (foot_updSession ..).mono ?_) <;> decide
    | (with_reducible refine (foot_sendReply ..).mono ?_) <;> decide
    | (with_reducible refine (foot_afterReply ..).mono ?_) <;> decide
    | (with_reducible refine (foot_logViolation ..).mono ?_) <;> decide
    | (with_reducible refine (foot_executeTop ..).mono ?_) <;> decide
    | (with_reducible refine M.In.wf 1 _ _ ?_ ?_) <;> first | decide
    | (with_reducible refine M.In.fresh ?_) <;> decide
    | (with_reducible refine M.In.freshBytes _ ?_) <;> decide
    | (with_reducible refine M.In.freshRats _ ?_) <;> decide
    | (with_reducible refine M.In.hidAt fun x k hk => ?_) <;> (unfold SameHid; split <;> first | rfl | exact absurd (by decide) hk)
    | split
    | dsimp only

theorem foot_drain : (drain).In [0, 1, 2, 3, 4, 5, 6, 7, 8, 9, 10, 11, 12, 13, 14, 15, 16, 17, 18, 19, 20, 21, 22, 32, 33, 34, 35, 36, 42, 43, 44, 45, 46, 47, 48, 49, 50, 51, 52, 53, 54, 55, 56, 57, 58, 59, 60, 61, 99] := by
  unfold drain
  repeat' first
    | with_reducible refine M.In.bind ?_ fun _ => ?_
    | with_reducible refine M.In.ite ?_ ?_
    | (with_reducible refine M.In.wfAny _ _ ?_) <;> decide
    | (with_reducible refine M.In.any _ ?_) <;> decide
    | (with_reducible refine M.In.incAny _ ?_) <;> decide
    | (with_reducible refine M.In.incByAny _ _ ?_) <;> decide
    | (with_reducible refine M.In.incWrapAny _ ?_) <;> decide
    | (with_reducible refine M.In.any99 _ _ ?_) <;> decide
    | (with_reducible refine M.In.hidAny _ ?_) <;> decide
    | (with_reducible refine M.In.wtab99 _ _ _ ?_) <;> decide
    | (with_reducible refine M.In.fresh99 ?_) <;> decide
    | (with_reducible refine M.In.freshBytes99 _ ?_) <;> decide
    | (with_reducible refine M.In.freshRats99 _ ?_) <;> decide
    | with_reducible exact M.In.pure _
    | with_reducible exact M.In.getS
    | (with_reducible refine (foot_process ..).mono ?_) <;> decide
    | (with_reducible refine M.In.fresh ?_) <;> decide
    | (with_reducible refine M.In.freshBytes _ ?_) <;> decide
    | (with_reducible refine M.In.freshRats _ ?_) <;> decide
    | (refine M.In.hid_cmd _ ?_; decide)
    | with_reducible refine M.In.forM (fun _ => ?_) _
    | with_reducible refine M.In.optForM (fun _ => ?_) _
    | split
    | dsimp only

theorem foot_settleExecutor : (settleExecutor).In [0, 1, 2, 3, 4, 5, 6, 7, 8, 9, 10, 11, 12, 13, 14, 15, 16, 17, 18, 19, 20, 21, 22, 32, 33, 34, 35, 36, 42, 43, 44, 45, 46, 47, 48, 49, 50, 51, 52, 53, 54, 55, 56, 57, 58, 59, 60, 61, 99] := by
  unfold settleExecutor
  repeat' first
    | with_reducible refine M.In.bind ?_ fun _ => ?_
    | with_reducible refine M.In.ite ?_ ?_
    | (with_reducible refine M.In.wfAny _ _ ?_) <;> decide
    | (with_reducible refine M.In.any _ ?_) <;> decide
    | (with_reducible refine M.In.incAny _ ?_) <;> decide
    | (with_reducible refine M.In.incByAny _ _ ?_) <;> decide
    | (with_reducible refine M.In.incWrapAny _ ?_) <;> decide
    | (with_reducible refine M.In.any99 _ _ ?_) <;> decide
    | (with_reducible refine M.In.hidAny _ ?_) <;> decide
    | (with_reducible refine M.In.wtab99 _ _ _ ?_) <;> decide
    | (with_reducible refine M.In.fresh99 ?_) <;> decide
    | (with_reducible refine M.In.freshBytes99 _ ?_) <;> decide
    | (with_reducible refine M.In.freshRats99 _ ?_) <;> decide
    | with_reducible exact M.In.pure _
    | with_reducible exact M.In.getS
    | (with_reducible refine (foot_resumeRun ..).mono ?_) <;> decide
    | (with_reducible refine (foot_drain ..).mono ?_) <;> decide
    | (with_reducible refine M.In.fresh ?_) <;> decide
    | (with_reducible refine M.In.freshBytes _ ?_) <;> decide
    | (with_reducible refine M.In.freshRats _ ?_) <;> decide
    | (with_reducible refine M.In.hidAt fun x k hk => ?_) <;> (unfold SameHid; split <;> first | rfl | exact absurd (by decide) hk)
    | split
    | dsimp only

theorem foot_passOn (op : Nat) (p : Packet) (svcLow : Option Bool) : (passOn op p svcLow).In [0, 1, 2, 3, 4, 5, 6, 7, 8, 9, 10, 11, 12, 13, 14, 15, 16, 17, 18, 19, 20, 21, 22, 32, 33, 34, 35, 36, 42, 43, 44, 45, 46, 47, 48, 49, 50, 51, 52, 53, 54, 55, 56, 57, 58, 59, 60, 61, 99] := by
  unfold passOn
  repeat' first
    | with_reducible refine M.In.bind ?_ fun _ => ?_
    | with_reducible refine M.In.ite ?_ ?_
    | (with_reducible refine M.In.wfAny _ _ ?_) <;> decide
    | (with_reducible refine M.In.any _ ?_) <;> decide
    | (with_reducible refine M.In.incAny _ ?_) <;> decide
    | (with_reducible refine M.In.incByAny _ _ ?_) <;> decide
    | (with_reducible refine M.In.incWrapAny _ ?_) <;> decide
    | (with_reducible refine M.In.any99 _ _ ?_) <;> decide
    | (with_reducible refine M.In.hidAny _ ?_) <;> decide
    | (with_reducible refine M.In.wtab99 _ _ _ ?_) <;> decide
    | (with_reducible refine M.In.fresh99 ?_) <;> decide
    | (with_reducible refine M.In.freshBytes99 _ ?_) <;> decide
    | (with_reducible refine M.In.freshRats99 _ ?_) <;> decide
    | with_reducible exact M.In.pure _
    | with_reducible exact M.In.getS
    | (with_reducible refine (foot_absentReply ..).mono ?_) <;> decide
    | (with_reducible refine (foot_updSession ..).mono ?_) <;> decide
    | (with_reducible refine (foot_sendReply ..).mono ?_) <;> decide
    | (with_reducible refine (foot_replyEarly ..).mono ?_) <;> decide
    | (with_reducible refine (foot_logViolation ..).mono ?_) <;> decide
    | (with_reducible refine (foot_process ..).mono ?_) <;> decide
    | (with_reducible refine M.In.inc 1 _ ?_ ?_) <;> first | decide | exact SYS.ISLAND_page _
    | (with_reducible refine M.In.fresh ?_) <;> decide
    | (with_reducible refine M.In.freshBytes _ ?_) <;> decide
    | (with_reducible refine M.In.freshRats _ ?_) <;> decide
    | (refine M.In.hid_cmd _ ?_; decide)
    | split
    | dsimp only

theorem foot_shipRespond (op : Nat) (p : Packet) : (shipRespond op p).In [1, 15, 20, 33, 34, 43, 47, 59, 61] := by
  unfold shipRespond
  repeat' first
    | with_reducible refine M.In.bind ?_ fun _ => ?_
    | with_reducible refine M.In.ite ?_ ?_
    | with_reducible exact M.In.pure _
    | with_reducible exact M.In.getS
    | (with_reducible refine (foot_sendReply ..).mono ?_) <;> decide
    | (with_reducible refine (foot_setBsw ..).mono ?_) <;> decide
    | (with_reducible refine (foot_logViolation ..).mono ?_) <;> decide
    | (refine M.In.hid_lcy _ ?_; decide)
    | split
    | dsimp only

theorem foot_receive (op : Nat) (p : Packet) (svcLow : Option Bool) : (receive op p svcLow).In [0, 1, 2, 3, 4, 5, 6, 7, 8, 9, 10, 11, 12, 13, 14, 15, 16, 17, 18, 19, 20, 21, 22, 32, 33, 34, 35, 36, 42, 43, 44, 45, 46, 47, 48, 49, 50, 51, 52, 53, 54, 55, 56, 57, 58, 59, 60, 61, 99] := by
  unfold receive
  repeat' first
    | with_reducible refine M.In.bind ?_ fun _ => ?_
    | with_reducible refine M.In.ite ?_ ?_
    | (with_reducible refine M.In.wfAny _ _ ?_) <;> decide
    | (with_reducible refine M.In.any _ ?_) <;> decide
    | (with_reducible refine M.In.incAny _ ?_) <;> decide
    | (with_reducible refine M.In.incByAny _ _ ?_) <;> decide
    | (with_reducible refine M.In.incWrapAny _ ?_) <;> decide
    | (with_reducible refine M.In.any99 _ _ ?_) <;> decide
    | (with_reducible refine M.In.hidAny _ ?_) <;> decide
    | (with_reducible refine M.In.wtab99 _ _ _ ?_) <;> decide
    | (with_reducible refine M.In.fresh99 ?_) <;> decide
    | (with_reducible refine M.In.freshBytes99 _ ?_) <;> decide
    | (with_reducible refine M.In.freshRats99 _ ?_) <;> decide
    | with_reducible exact M.In.pure _
    | with_reducible exact M.In.getS
    | (with_reducible refine (foot_replyEarly ..).mono ?_) <;> decide
    | (with_reducible refine (foot_passOn ..).mono ?_) <;> decide
    | (with_reducible refine (foot_shipRespond ..).mono ?_) <;> decide
    | (with_reducible refine M.In.fresh ?_) <;> decide
    | (with_reducible refine M.In.freshBytes _ ?_) <;> decide
    | (with_reducible refine M.In.freshRats _ ?_) <;> decide
    | split
    | dsimp only

theorem foot_receiveBytes (src : Source) (b : List Byte) : (receiveBytes src b).In [0, 1, 2, 3, 4, 5, 6, 7, 8, 9, 10, 11, 12, 13, 14, 15, 16, 17, 18, 19, 20, 21, 22, 32, 33, 34, 35, 36, 42, 43, 44, 45, 46, 47, 48, 49, 50, 51, 52, 53, 54, 55, 56, 57, 58, 59, 60, 61, 99] := by
  unfold receiveBytes
  repeat' first
    | with_reducible refine M.In.bind ?_ fun _ => ?_
    | with_reducible refine M.In.ite ?_ ?_
    | (with_reducible refine M.In.wfAny _ _ ?_) <;> decide
    | (with_reducible refine M.In.any _ ?_) <;> decide
    | (with_reducible refine M.In.incAny _ ?_) <;> decide
    | (with_reducible refine M.In.incByAny _ _ ?_) <;> decide
    | (with_reducible refine M.In.incWrapAny _ ?_) <;> decide
    | (with_reducible refine M.In.any99 _ _ ?_) <;> decide
    | (with_reducible refine M.In.hidAny _ ?_) <;> decide
    | (with_reducible refine M.In.wtab99 _ _ _ ?_) <;> decide
    | (with_reducible refine M.In.fresh99 ?_) <;> decide
    | (with_reducible refine M.In.freshBytes99 _ ?_) <;> decide
    | (with_reducible refine M.In.freshRats99 _ ?_) <;> decide
    | with_reducible exact M.In.pure _
    | with_reducible exact M.In.getS
    | (with_reducible refine (foot_replyEarly ..).mono ?_) <;> decide
    | (with_reducible refine (foot_receive ..).mono ?_) <;> decide
    | (with_reducible refine M.In.wf 1 _ _ ?_ ?_) <;> first | decide
    | (with_reducible refine M.In.inc 1 _ ?_ ?_) <;> first | decide
    | (with_reducible refine M.In.fresh ?_) <;> decide
    | (with_reducible refine M.In.freshBytes _ ?_) <;> decide
    | (with_reducible refine M.In.freshRats _ ?_) <;> decide
    | split
    | dsimp only

theorem foot_takeGo : (takeGo).In [0, 1, 2, 3, 4, 5, 6, 7, 8, 9, 10, 11, 12, 13, 14, 15, 16, 17, 18, 19, 20, 21, 22, 32, 33, 34, 35, 36, 42, 43, 44, 45, 46, 47, 48, 49, 50, 51, 52, 53, 54, 55, 56, 57, 58, 59, 60, 61, 99] := by
  unfold takeGo
  repeat' first
    | with_reducible refine M.In.bind ?_ fun _ => ?_
    | (with_reducible refine M.In.wfAny _ _ ?_) <;> decide
    | (with_reducible refine M.In.any _ ?_) <;> decide
    | (with_reducible refine M.In.incAny _ ?_) <;> decide
    | (with_reducible refine M.In.incByAny _ _ ?_) <;> decide
    | (with_reducible refine M.In.incWrapAny _ ?_) <;> decide
    | (with_reducible refine M.In.any99 _ _ ?_) <;> decide
    | (with_reducible refine M.In.hidAny _ ?_) <;> decide
    | (with_reducible refine M.In.wtab99 _ _ _ ?_) <;> decide
    | (with_reducible refine M.In.fresh99 ?_) <;> decide
    | (with_reducible refine M.In.freshBytes99 _ ?_) <;> decide
    | (with_reducible refine M.In.freshRats99 _ ?_) <;> decide
    | with_reducible exact M.In.pure _
    | with_reducible exact M.In.getS
    | (with_reducible refine (foot_receiveBytes ..).mono ?_) <;> decide
    | (with_reducible refine M.In.fresh ?_) <;> decide
    | (with_reducible refine M.In.freshBytes _ ?_) <;> decide
    | (with_reducible refine M.In.freshRats _ ?_) <;> decide
    | (refine M.In.hid_cmd _ ?_; decide)
    | split
    | dsimp only

theorem foot_serve (op : Nat) (p : Packet) (svcLow : Option Bool) : (serve op p svcLow).In [0, 1, 2, 3, 4, 5, 6, 7, 8, 9, 10, 11, 12, 13, 14, 15, 16, 17, 18, 19, 20, 21, 22, 32, 33, 34, 35, 36, 42, 43, 44, 45, 46, 47, 48, 49, 50, 51, 52, 53, 54, 55, 56, 57, 58, 59, 60, 61, 99] := by
  unfold serve
  repeat' first
    | with_reducible refine M.In.bind ?_ fun _ => ?_
    | with_reducible refine M.In.ite ?_ ?_
    | (with_reducible refine M.In.wfAny _ _ ?_) <;> decide
    | (with_reducible refine M.In.any _ ?_) <;> decide
    | (with_reducible refine M.In.incAny _ ?_) <;> decide
    | (with_reducible refine M.In.incByAny _ _ ?_) <;> decide
    | (with_reducible refine M.In.incWrapAny _ ?_) <;> decide
    | (with_reducible refine M.In.any99 _ _ ?_) <;> decide
    | (with_reducible refine M.In.hidAny _ ?_) <;> decide
    | (with_reducible refine M.In.wtab99 _ _ _ ?_) <;> decide
    | (with_reducible refine M.In.fresh99 ?_) <;> decide
    | (with_reducible refine M.In.freshBytes99 _ ?_) <;> decide
    | (with_reducible refine M.In.freshRats99 _ ?_) <;> decide
    | with_reducible exact M.In.pure _
    | with_reducible exact M.In.getS
    | (with_reducible refine (foot_replyEarly ..).mono ?_) <;> decide
    | (with_reducible refine (foot_receive ..).mono ?_) <;> decide
    | (with_reducible refine (foot_takeGo ..).mono ?_) <;> decide
    | (with_reducible refine M.In.inc 1 _ ?_ ?_) <;> first | decide
    | (with_reducible refine M.In.fresh ?_) <;> decide
    | (with_reducible refine M.In.freshBytes _ ?_) <;> decide
    | (with_reducible refine M.In.freshRats _ ?_) <;> decide
    | split
    | dsimp only

theorem foot_legacyAccess (write : Bool) (a : Nat) (w : Word) : (legacyAccess write a w).In [0, 1, 2, 3, 4, 5, 6, 7, 8, 9, 10, 11, 12, 13, 14, 15, 16, 17, 18, 19, 20, 21, 22, 32, 33, 34, 35, 36, 42, 43, 44, 45, 46, 47, 48, 49, 50, 51, 52, 54, 55, 56, 57, 59, 60] := by
  unfold legacyAccess
  repeat' first
    | with_reducible refine M.In.bind ?_ fun _ => ?_
    | with_reducible refine M.In.ite ?_ ?_
    | with_reducible exact M.In.pure _
    | with_reducible exact M.In.getS
    | (with_reducible refine (foot_readWords ..).mono ?_) <;> decide
    | (with_reducible refine (foot_writeWords ..).mono ?_) <;> decide
    | (with_reducible refine (foot_logViolation ..).mono ?_) <;> decide
    | (with_reducible refine M.In.fresh ?_) <;> decide
    | (with_reducible refine M.In.freshBytes _ ?_) <;> decide
    | (with_reducible refine M.In.freshRats _ ?_) <;> decide
    | with_reducible refine M.In.map ?_
    | split
    | dsimp only

theorem foot_legacyFrame (frame : BitVec 72) : (legacyFrame frame).In [0, 1, 2, 3, 4, 5, 6, 7, 8, 9, 10, 11, 12, 13, 14, 15, 16, 17, 18, 19, 20, 21, 22, 32, 33, 34, 35, 36, 42, 43, 44, 45, 46, 47, 48, 49, 50, 51, 52, 53, 54, 55, 56, 57, 58, 59, 60, 61, 99] := by
  unfold legacyFrame
  repeat' first
    | with_reducible refine M.In.bind ?_ fun _ => ?_
    | with_reducible refine M.In.ite ?_ ?_
    | (with_reducible refine M.In.wfAny _ _ ?_) <;> decide
    | (with_reducible refine M.In.any _ ?_) <;> decide
    | (with_reducible refine M.In.incAny _ ?_) <;> decide
    | (with_reducible refine M.In.incByAny _ _ ?_) <;> decide
    | (with_reducible refine M.In.incWrapAny _ ?_) <;> decide
    | (with_reducible refine M.In.any99 _ _ ?_) <;> decide
    | (with_reducible refine M.In.hidAny _ ?_) <;> decide
    | (with_reducible refine M.In.wtab99 _ _ _ ?_) <;> decide
    | (with_reducible refine M.In.fresh99 ?_) <;> decide
    | (with_reducible refine M.In.freshBytes99 _ ?_) <;> decide
    | (with_reducible refine M.In.freshRats99 _ ?_) <;> decide
    | with_reducible exact M.In.pure _
    | with_reducible exact M.In.getS
    | (with_reducible refine (foot_takeGo ..).mono ?_) <;> decide
    | (with_reducible refine (foot_legacyAccess ..).mono ?_) <;> decide
    | (with_reducible refine M.In.wf 1 _ _ ?_ ?_) <;> first | decide
    | (with_reducible refine M.In.inc 1 _ ?_ ?_) <;> first | decide
    | (with_reducible refine M.In.fresh ?_) <;> decide
    | (with_reducible refine M.In.freshBytes _ ?_) <;> decide
    | (with_reducible refine M.In.freshRats _ ?_) <;> decide
    | (refine M.In.hid_cmd _ ?_; decide)
    | split
    | dsimp only

theorem foot_hostWrite (v : Via) (ws : List (Nat × Word)) : (hostWrite v ws).In [0, 1, 2, 3, 4, 5, 6, 7, 8, 9, 10, 11, 12, 13, 14, 15, 16, 17, 18, 19, 20, 21, 22, 32, 33, 34, 35, 36, 42, 43, 44, 45, 46, 47, 48, 49, 50, 51, 52, 53, 54, 55, 56, 57, 58, 59, 60, 61, 99] := by
  unfold hostWrite
  repeat' first
    | with_reducible refine M.In.bind ?_ fun _ => ?_
    | (with_reducible refine M.In.wfAny _ _ ?_) <;> decide
    | (with_reducible refine M.In.any _ ?_) <;> decide
    | (with_reducible refine M.In.incAny _ ?_) <;> decide
    | (with_reducible refine M.In.incByAny _ _ ?_) <;> decide
    | (with_reducible refine M.In.incWrapAny _ ?_) <;> decide
    | (with_reducible refine M.In.any99 _ _ ?_) <;> decide
    | (with_reducible refine M.In.hidAny _ ?_) <;> decide
    | (with_reducible refine M.In.wtab99 _ _ _ ?_) <;> decide
    | (with_reducible refine M.In.fresh99 ?_) <;> decide
    | (with_reducible refine M.In.freshBytes99 _ ?_) <;> decide
    | (with_reducible refine M.In.freshRats99 _ ?_) <;> decide
    | with_reducible exact M.In.pure _
    | (with_reducible refine (foot_serve ..).mono ?_) <;> decide
    | (with_reducible refine (foot_legacyFrame ..).mono ?_) <;> decide
    | (with_reducible refine M.In.fresh ?_) <;> decide
    | (with_reducible refine M.In.freshBytes _ ?_) <;> decide
    | (with_reducible refine M.In.freshRats _ ?_) <;> decide
    | with_reducible refine M.In.forM (fun _ => ?_) _
    | with_reducible refine M.In.optForM (fun _ => ?_) _
    | split
    | dsimp only

theorem foot_whenAwake {P : List Nat} {m : M Unit} (h : m.In P) (_ : ∀ x ∈ ([] : List Nat), x ∈ P) :
    (whenAwake m).In P := by
  unfold whenAwake
  exact M.In.getS.bind fun _ => M.In.ite h (M.In.pure _)

theorem foot_onIsland {P : List Nat} (n : Nat) {m : M Unit} (h : m.In P) (_ : ∀ x ∈ ([] : List Nat), x ∈ P) :
    (onIsland n m).In P := by
  unfold onIsland
  exact M.In.getS.bind fun _ => M.In.ite h (M.In.pure _)

theorem foot_onCd0 {P : List Nat} {m : M Unit} (h : m.In P) (_ : ∀ x ∈ ([] : List Nat), x ∈ P) :
    (onCd0 m).In P := by
  unfold onCd0
  exact M.In.getS.bind fun _ => M.In.ite h (M.In.pure _)

theorem foot_readSafe (n : Nat) : (readSafe n).In [0, 1, 3, 4, 5, 6, 8, 9, 12, 16, 17, 20, 33, 35, 43, 44, 45, 46, 47, 48, 49, 50] := by
  unfold readSafe
  repeat' first
    | with_reducible refine M.In.bind ?_ fun _ => ?_
    | with_reducible refine M.In.ite ?_ ?_
    | with_reducible exact M.In.pure _
    | with_reducible exact M.In.getS
    | (with_reducible refine (foot_safeCopy ..).mono ?_) <;> decide
    | (with_reducible refine (foot_updCan ..).mono ?_) <;> decide
    | (with_reducible refine (foot_showPool ..).mono ?_) <;> decide
    | with_reducible refine M.In.forM (fun _ => ?_) _
    | with_reducible refine M.In.optForM (fun _ => ?_) _
    | split
    | dsimp only

theorem foot_readEntry (n : Fin 4) (e : LogEntry) : (readEntry n e).In [0, 1, 2, 3, 4, 5, 6, 7, 8, 9, 10, 11, 12, 13, 14, 15, 16, 17, 18, 19, 20, 21, 22, 32, 33, 34, 35, 36, 42, 43, 44, 45, 46, 47, 48, 49, 50, 51, 52, 53, 54, 55, 56, 57, 58, 59, 60, 61, 99] := by
  unfold readEntry
  repeat' first
    | with_reducible refine M.In.bind ?_ fun _ => ?_
    | with_reducible refine M.In.ite ?_ ?_
    | (with_reducible refine M.In.wfAny _ _ ?_) <;> decide
    | (with_reducible refine M.In.any _ ?_) <;> decide
    | (with_reducible refine M.In.incAny _ ?_) <;> decide
    | (with_reducible refine M.In.incByAny _ _ ?_) <;> decide
    | (with_reducible refine M.In.incWrapAny _ ?_) <;> decide
    | (with_reducible refine M.In.any99 _ _ ?_) <;> decide
    | (with_reducible refine M.In.hidAny _ ?_) <;> decide
    | (with_reducible refine M.In.wtab99 _ _ _ ?_) <;> decide
    | (with_reducible refine M.In.fresh99 ?_) <;> decide
    | (with_reducible refine M.In.freshBytes99 _ ?_) <;> decide
    | (with_reducible refine M.In.freshRats99 _ ?_) <;> decide
    | with_reducible exact M.In.pure _
    | with_reducible exact M.In.getS
    | (with_reducible refine (foot_takeReference ..).mono ?_) <;> decide
    | (with_reducible refine (foot_receiveBytes ..).mono ?_) <;> decide
    | (with_reducible refine (foot_takeGo ..).mono ?_) <;> decide
    | (with_reducible refine M.In.fresh ?_) <;> decide
    | (with_reducible refine M.In.freshBytes _ ?_) <;> decide
    | (with_reducible refine M.In.freshRats _ ?_) <;> decide
    | (refine M.In.hid_bus _ ?_; decide)
    | split
    | dsimp only

theorem foot_readNet (n : Fin 4) : (readNet n).In [0, 1, 2, 3, 4, 5, 6, 7, 8, 9, 10, 11, 12, 13, 14, 15, 16, 17, 18, 19, 20, 21, 22, 32, 33, 34, 35, 36, 42, 43, 44, 45, 46, 47, 48, 49, 50, 51, 52, 53, 54, 55, 56, 57, 58, 59, 60, 61, 99] := by
  unfold readNet
  repeat' first
    | with_reducible refine M.In.bind ?_ fun _ => ?_
    | with_reducible refine M.In.ite ?_ ?_
    | (with_reducible refine M.In.wfAny _ _ ?_) <;> decide
    | (with_reducible refine M.In.any _ ?_) <;> decide
    | (with_reducible refine M.In.incAny _ ?_) <;> decide
    | (with_reducible refine M.In.incByAny _ _ ?_) <;> decide
    | (with_reducible refine M.In.incWrapAny _ ?_) <;> decide
    | (with_reducible refine M.In.any99 _ _ ?_) <;> decide
    | (with_reducible refine M.In.hidAny _ ?_) <;> decide
    | (with_reducible refine M.In.wtab99 _ _ _ ?_) <;> decide
    | (with_reducible refine M.In.fresh99 ?_) <;> decide
    | (with_reducible refine M.In.freshBytes99 _ ?_) <;> decide
    | (with_reducible refine M.In.freshRats99 _ ?_) <;> decide
    | with_reducible exact M.In.pure _
    | with_reducible exact M.In.getS
    | (with_reducible refine (foot_updCan ..).mono ?_) <;> decide
    | (with_reducible refine (foot_showPool ..).mono ?_) <;> decide
    | (with_reducible refine (foot_readEntry ..).mono ?_) <;> decide
    | (with_reducible refine M.In.fresh ?_) <;> decide
    | (with_reducible refine M.In.freshBytes _ ?_) <;> decide
    | (with_reducible refine M.In.freshRats _ ?_) <;> decide
    | with_reducible refine M.In.forM (fun _ => ?_) _
    | with_reducible refine M.In.optForM (fun _ => ?_) _
    | split
    | dsimp only

theorem foot_canReceived (n : Fin 4) (f : CanFrame) (sof : Nat) : (canReceived n f sof).In [0, 1, 2, 3, 4, 5, 6, 7, 8, 9, 10, 11, 12, 13, 14, 15, 16, 17, 18, 19, 20, 21, 22, 32, 33, 34, 35, 36, 42, 43, 44, 45, 46, 47, 48, 49, 50, 51, 52, 53, 54, 55, 56, 57, 58, 59, 60, 61, 99] := by
  unfold canReceived
  repeat' first
    | with_reducible refine M.In.bind ?_ fun _ => ?_
    | with_reducible refine M.In.ite ?_ ?_
    | (with_reducible refine M.In.wfAny _ _ ?_) <;> decide
    | (with_reducible refine M.In.any _ ?_) <;> decide
    | (with_reducible refine M.In.incAny _ ?_) <;> decide
    | (with_reducible refine M.In.incByAny _ _ ?_) <;> decide
    | (with_reducible refine M.In.incWrapAny _ ?_) <;> decide
    | (with_reducible refine M.In.any99 _ _ ?_) <;> decide
    | (with_reducible refine M.In.hidAny _ ?_) <;> decide
    | (with_reducible refine M.In.wtab99 _ _ _ ?_) <;> decide
    | (with_reducible refine M.In.fresh99 ?_) <;> decide
    | (with_reducible refine M.In.freshBytes99 _ ?_) <;> decide
    | (with_reducible refine M.In.freshRats99 _ ?_) <;> decide
    | with_reducible exact M.In.pure _
    | with_reducible exact M.In.getS
    | (with_reducible refine (foot_logFrame ..).mono ?_) <;> decide
    | (with_reducible refine (foot_readSafe ..).mono ?_) <;> decide
    | (with_reducible refine (foot_readNet ..).mono ?_) <;> decide
    | (with_reducible refine M.In.fresh ?_) <;> decide
    | (with_reducible refine M.In.freshBytes _ ?_) <;> decide
    | (with_reducible refine M.In.freshRats _ ?_) <;> decide
    | split
    | dsimp only

theorem foot_canTransmitted (n : Fin 4) (sof : Nat) : (canTransmitted n sof).In [0, 1, 2, 3, 4, 5, 6, 7, 8, 9, 10, 11, 12, 13, 14, 15, 16, 17, 18, 19, 20, 21, 22, 32, 33, 34, 35, 36, 42, 43, 44, 45, 46, 47, 48, 49, 50, 51, 52, 53, 54, 55, 56, 57, 58, 59, 60, 61, 99] := by
  unfold canTransmitted
  repeat' first
    | with_reducible refine M.In.bind ?_ fun _ => ?_
    | (with_reducible refine M.In.wfAny _ _ ?_) <;> decide
    | (with_reducible refine M.In.any _ ?_) <;> decide
    | (with_reducible refine M.In.incAny _ ?_) <;> decide
    | (with_reducible refine M.In.incByAny _ _ ?_) <;> decide
    | (with_reducible refine M.In.incWrapAny _ ?_) <;> decide
    | (with_reducible refine M.In.any99 _ _ ?_) <;> decide
    | (with_reducible refine M.In.hidAny _ ?_) <;> decide
    | (with_reducible refine M.In.wtab99 _ _ _ ?_) <;> decide
    | (with_reducible refine M.In.fresh99 ?_) <;> decide
    | (with_reducible refine M.In.freshBytes99 _ ?_) <;> decide
    | (with_reducible refine M.In.freshRats99 _ ?_) <;> decide
    | with_reducible exact M.In.pure _
    | (with_reducible refine (foot_transmitHead ..).mono ?_) <;> decide
    | (with_reducible refine (foot_readSafe ..).mono ?_) <;> decide
    | (with_reducible refine (foot_readNet ..).mono ?_) <;> decide
    | (with_reducible refine M.In.fresh ?_) <;> decide
    | (with_reducible refine M.In.freshBytes _ ?_) <;> decide
    | (with_reducible refine M.In.freshRats _ ?_) <;> decide
    | dsimp only

theorem foot_ethTaken (p : Fin 2) (f : EthFrame) : (ethTaken p f).In [0, 1, 2, 3, 4, 5, 6, 7, 8, 9, 10, 11, 12, 13, 14, 15, 16, 17, 18, 19, 20, 21, 22, 32, 33, 34, 35, 36, 42, 43, 44, 45, 46, 47, 48, 49, 50, 51, 52, 53, 54, 55, 56, 57, 58, 59, 60, 61, 99] := by
  unfold ethTaken
  repeat' first
    | with_reducible refine M.In.bind ?_ fun _ => ?_
    | with_reducible refine M.In.ite ?_ ?_
    | (with_reducible refine M.In.wfAny _ _ ?_) <;> decide
    | (with_reducible refine M.In.any _ ?_) <;> decide
    | (with_reducible refine M.In.incAny _ ?_) <;> decide
    | (with_reducible refine M.In.incByAny _ _ ?_) <;> decide
    | (with_reducible refine M.In.incWrapAny _ ?_) <;> decide
    | (with_reducible refine M.In.any99 _ _ ?_) <;> decide
    | (with_reducible refine M.In.hidAny _ ?_) <;> decide
    | (with_reducible refine M.In.wtab99 _ _ _ ?_) <;> decide
    | (with_reducible refine M.In.fresh99 ?_) <;> decide
    | (with_reducible refine M.In.freshBytes99 _ ?_) <;> decide
    | (with_reducible refine M.In.freshRats99 _ ?_) <;> decide
    | with_reducible exact M.In.pure _
    | with_reducible exact M.In.getS
    | (with_reducible refine (foot_safeCopy ..).mono ?_) <;> decide
    | (with_reducible refine (foot_ethAnswer ..).mono ?_) <;> decide
    | (with_reducible refine (foot_receiveBytes ..).mono ?_) <;> decide
    | (with_reducible refine (foot_takeGo ..).mono ?_) <;> decide
    | (with_reducible refine M.In.fresh ?_) <;> decide
    | (with_reducible refine M.In.freshBytes _ ?_) <;> decide
    | (with_reducible refine M.In.freshRats _ ?_) <;> decide
    | split
    | dsimp only

theorem foot_bufferFrame (p : Fin 2) (f : EthFrame) : (bufferFrame p f).In [21, 47] := by
  unfold bufferFrame
  repeat' first
    | with_reducible refine M.In.bind ?_ fun _ => ?_
    | with_reducible refine M.In.ite ?_ ?_
    | with_reducible exact M.In.pure _
    | with_reducible exact M.In.getS
    | (with_reducible refine M.In.inc 21 _ ?_ ?_) <;> first | decide | exact NET.STAT_page _
    | (refine M.In.hid_bus _ ?_; decide)
    | split
    | dsimp only

theorem foot_ethReceived (p : Fin 2) (f : EthFrame) : (ethReceived p f).In [0, 1, 2, 3, 4, 5, 6, 7, 8, 9, 10, 11, 12, 13, 14, 15, 16, 17, 18, 19, 20, 21, 22, 32, 33, 34, 35, 36, 42, 43, 44, 45, 46, 47, 48, 49, 50, 51, 52, 53, 54, 55, 56, 57, 58, 59, 60, 61, 99] := by
  unfold ethReceived
  repeat' first
    | with_reducible refine M.In.bind ?_ fun _ => ?_
    | with_reducible refine M.In.ite ?_ ?_
    | (with_reducible refine M.In.wfAny _ _ ?_) <;> decide
    | (with_reducible refine M.In.any _ ?_) <;> decide
    | (with_reducible refine M.In.incAny _ ?_) <;> decide
    | (with_reducible refine M.In.incByAny _ _ ?_) <;> decide
    | (with_reducible refine M.In.incWrapAny _ ?_) <;> decide
    | (with_reducible refine M.In.any99 _ _ ?_) <;> decide
    | (with_reducible refine M.In.hidAny _ ?_) <;> decide
    | (with_reducible refine M.In.wtab99 _ _ _ ?_) <;> decide
    | (with_reducible refine M.In.fresh99 ?_) <;> decide
    | (with_reducible refine M.In.freshBytes99 _ ?_) <;> decide
    | (with_reducible refine M.In.freshRats99 _ ?_) <;> decide
    | with_reducible exact M.In.pure _
    | with_reducible exact M.In.getS
    | (with_reducible refine (foot_ethTaken ..).mono ?_) <;> decide
    | (with_reducible refine (foot_bufferFrame ..).mono ?_) <;> decide
    | (with_reducible refine M.In.fresh ?_) <;> decide
    | (with_reducible refine M.In.freshBytes _ ?_) <;> decide
    | (with_reducible refine M.In.freshRats _ ?_) <;> decide
    | split
    | dsimp only

theorem foot_chordResumes : (chordResumes).In [0, 1, 2, 3, 4, 5, 6, 7, 8, 9, 10, 11, 12, 13, 14, 15, 16, 17, 18, 19, 20, 21, 22, 32, 33, 34, 35, 36, 42, 43, 44, 45, 46, 47, 48, 49, 50, 51, 52, 53, 54, 55, 56, 57, 58, 59, 60, 61, 99] := by
  unfold chordResumes
  repeat' first
    | with_reducible refine M.In.bind ?_ fun _ => ?_
    | (with_reducible refine M.In.wfAny _ _ ?_) <;> decide
    | (with_reducible refine M.In.any _ ?_) <;> decide
    | (with_reducible refine M.In.incAny _ ?_) <;> decide
    | (with_reducible refine M.In.incByAny _ _ ?_) <;> decide
    | (with_reducible refine M.In.incWrapAny _ ?_) <;> decide
    | (with_reducible refine M.In.any99 _ _ ?_) <;> decide
    | (with_reducible refine M.In.hidAny _ ?_) <;> decide
    | (with_reducible refine M.In.wtab99 _ _ _ ?_) <;> decide
    | (with_reducible refine M.In.fresh99 ?_) <;> decide
    | (with_reducible refine M.In.freshBytes99 _ ?_) <;> decide
    | (with_reducible refine M.In.freshRats99 _ ?_) <;> decide
    | with_reducible exact M.In.pure _
    | with_reducible exact M.In.getS
    | (with_reducible refine (foot_settleExecutor ..).mono ?_) <;> decide
    | (with_reducible refine (foot_readSafe ..).mono ?_) <;> decide
    | (with_reducible refine (foot_readNet ..).mono ?_) <;> decide
    | (with_reducible refine (foot_ethTaken ..).mono ?_) <;> decide
    | (with_reducible refine M.In.fresh ?_) <;> decide
    | (with_reducible refine M.In.freshBytes _ ?_) <;> decide
    | (with_reducible refine M.In.freshRats _ ?_) <;> decide
    | (refine M.In.hid_bus _ ?_; decide)
    | with_reducible refine M.In.forM (fun _ => ?_) _
    | with_reducible refine M.In.optForM (fun _ => ?_) _
    | dsimp only

theorem foot_chipSelect (mosi : MosiKind) (clocked : Nat) : (chipSelect mosi clocked).In [1, 20, 33, 43, 47] := by
  unfold chipSelect
  repeat' first
    | with_reducible refine M.In.bind ?_ fun _ => ?_
    | with_reducible refine M.In.ite ?_ ?_
    | with_reducible exact M.In.pure _
    | with_reducible exact M.In.getS
    | (with_reducible refine (foot_setAttn ..).mono ?_) <;> decide
    | (with_reducible refine (foot_complete ..).mono ?_) <;> decide
    | (with_reducible refine M.In.inc 1 _ ?_ ?_) <;> first | decide
    | (with_reducible refine M.In.spiPop ?_) <;> decide
    | (with_reducible refine M.In.hidAt fun x k hk => ?_) <;> (unfold SameHid; split <;> first | rfl | exact absurd (by decide) hk)
    | split
    | dsimp only

theorem foot_management : (management).In [0, 1, 2, 3, 4, 5, 6, 7, 8, 9, 10, 11, 12, 13, 14, 15, 16, 17, 18, 19, 20, 21, 22, 32, 33, 34, 35, 36, 42, 43, 44, 45, 46, 47, 48, 49, 50, 51, 52, 53, 54, 55, 56, 57, 58, 59, 60, 61, 99] := by
  unfold management
  repeat' first
    | with_reducible refine M.In.bind ?_ fun _ => ?_
    | (with_reducible refine M.In.wfAny _ _ ?_) <;> decide
    | (with_reducible refine M.In.any _ ?_) <;> decide
    | (with_reducible refine M.In.incAny _ ?_) <;> decide
    | (with_reducible refine M.In.incByAny _ _ ?_) <;> decide
    | (with_reducible refine M.In.incWrapAny _ ?_) <;> decide
    | (with_reducible refine M.In.any99 _ _ ?_) <;> decide
    | (with_reducible refine M.In.hidAny _ ?_) <;> decide
    | (with_reducible refine M.In.wtab99 _ _ _ ?_) <;> decide
    | (with_reducible refine M.In.fresh99 ?_) <;> decide
    | (with_reducible refine M.In.freshBytes99 _ ?_) <;> decide
    | (with_reducible refine M.In.freshRats99 _ ?_) <;> decide
    | with_reducible exact M.In.pure _
    | (with_reducible refine (foot_ledgerTick ..).mono ?_) <;> decide
    | (with_reducible refine (foot_lockTick ..).mono ?_) <;> decide
    | (with_reducible refine (foot_finishSplit ..).mono ?_) <;> decide
    | (with_reducible refine (foot_scrubTick ..).mono ?_) <;> decide
    | (with_reducible refine (foot_handLeft ..).mono ?_) <;> decide
    | (with_reducible refine (foot_windowEvents ..).mono ?_) <;> decide
    | (with_reducible refine (foot_posTick ..).mono ?_) <;> decide
    | (with_reducible refine (foot_thermalFactor ..).mono ?_) <;> decide
    | (with_reducible refine (foot_levelTick ..).mono ?_) <;> decide
    | (with_reducible refine (foot_sweepSs1 ..).mono ?_) <;> decide
    | (with_reducible refine (foot_meterTick ..).mono ?_) <;> decide
    | (with_reducible refine (foot_chargeLimits ..).mono ?_) <;> decide
    | (with_reducible refine (foot_lvpTick ..).mono ?_) <;> decide
    | (with_reducible refine (foot_dropExpired ..).mono ?_) <;> decide
    | (with_reducible refine (foot_deviceStateEvaluation ..).mono ?_) <;> decide
    | (with_reducible refine (foot_settleExecutor ..).mono ?_) <;> decide
    | (with_reducible refine foot_onIsland _ ?_ ?_) <;> first | decide | skip
    | (with_reducible refine M.In.fresh ?_) <;> decide
    | (with_reducible refine M.In.freshBytes _ ?_) <;> decide
    | (with_reducible refine M.In.freshRats _ ?_) <;> decide
    | (refine M.In.hid_bus _ ?_; decide)
    | with_reducible refine M.In.forM (fun _ => ?_) _
    | with_reducible refine M.In.optForM (fun _ => ?_) _
    | dsimp only

theorem foot_tick : (tick).In [0, 1, 2, 3, 4, 5, 6, 7, 8, 9, 10, 11, 12, 13, 14, 15, 16, 17, 18, 19, 20, 21, 22, 32, 33, 34, 35, 36, 40, 42, 43, 44, 45, 46, 47, 48, 49, 50, 51, 52, 53, 54, 55, 56, 57, 58, 59, 60, 61, 99] := by
  unfold tick
  repeat' first
    | with_reducible refine M.In.bind ?_ fun _ => ?_
    | with_reducible refine M.In.ite ?_ ?_
    | (with_reducible refine M.In.wfAny _ _ ?_) <;> decide
    | (with_reducible refine M.In.any _ ?_) <;> decide
    | (with_reducible refine M.In.incAny _ ?_) <;> decide
    | (with_reducible refine M.In.incByAny _ _ ?_) <;> decide
    | (with_reducible refine M.In.incWrapAny _ ?_) <;> decide
    | (with_reducible refine M.In.any99 _ _ ?_) <;> decide
    | (with_reducible refine M.In.hidAny _ ?_) <;> decide
    | (with_reducible refine M.In.wtab99 _ _ _ ?_) <;> decide
    | (with_reducible refine M.In.fresh99 ?_) <;> decide
    | (with_reducible refine M.In.freshBytes99 _ ?_) <;> decide
    | (with_reducible refine M.In.freshRats99 _ ?_) <;> decide
    | with_reducible exact M.In.pure _
    | with_reducible exact M.In.getS
    | (with_reducible refine (foot_deviceReset ..).mono ?_) <;> decide
    | (with_reducible refine (foot_management ..).mono ?_) <;> decide
    | (with_reducible refine M.In.fresh ?_) <;> decide
    | (with_reducible refine M.In.freshBytes _ ?_) <;> decide
    | (with_reducible refine M.In.freshRats _ ?_) <;> decide
    | (refine M.In.hid_now _ ?_; decide)
    | split
    | dsimp only

end Sys2Proof.Machine
end

