-- ==== Sys2Proof/Laws/Form.lean ====
section
/-! SUPPORT. Every action keeps the form of the parameters and tables. -/

namespace Sys2Proof.Machine

theorem bit_clrBit (n i : Nat) : bit (clrBit n i) i = false := by
  unfold clrBit
  split
  · rename_i h
    simp only [bit, beq_iff_eq] at h ⊢
    have hp : 0 < 2 ^ i := Nat.two_pow_pos i
    have h1 : 2 ^ i ≤ n := by
      by_contra hc
      rw [Nat.div_eq_of_lt (by omega)] at h
      omega
    have h2 : (n - 2 ^ i) / 2 ^ i = n / 2 ^ i - 1 := by
      rw [show n - 2 ^ i = n - 2 ^ i * 1 by omega, Nat.sub_mul_div]
    have h3 : 1 ≤ n / 2 ^ i := (Nat.one_le_div_iff hp).mpr h1
    have : (n - 2 ^ i) / 2 ^ i % 2 = 0 := by omega
    simp [this]
  · rename_i h
    simpa using h

theorem wf_mask (w m : Word) : (w &&& m) &&& ~~~m = 0 := by
  ext i hi
  simp

/-- Every action on the parameters keeps their form. -/
theorem apply_params_wf (a : Act) (s : State) (h : Params.wf s.regs = true) : Params.wf (a.apply s).regs = true := by
  cases a
  case reg a w =>
    simp only [Act.apply]
    split
    · rename_i ha
      simp only [Params.wf, Bool.and_eq_true] at h ⊢
      refine ⟨canonical_swrite _ _ _ _ h.1, all_swrite _ _ _ _ _ h.2 ?_⟩
      simp [ha, wf_mask]
    · exact h
  case regsReset keep =>
    simp only [Act.apply, Params.wf, Bool.and_eq_true] at h ⊢
    refine ⟨canonFrom_filter _ _ _ _ h.1, ?_⟩
    simp only [List.all_eq_true] at h ⊢
    exact fun x hx => h.2 x (List.mem_filter.mp hx).1
  all_goals (simp only [Act.apply]; try split) <;> exact h

/-- Every action on the tables keeps their form. -/
theorem apply_memory_wf (a : Act) (s : State) (h : Memory.wf s.tabs = true) : Memory.wf (a.apply s).tabs = true := by
  cases a
  case tab k b =>
    simp only [Act.apply]
    split
    · rename_i hk
      simp only [Memory.wf, Bool.and_eq_true] at h ⊢
      exact ⟨canonical_swrite _ _ _ _ h.1, all_swrite _ _ _ _ _ h.2 (by simpa using hk)⟩
    · exact h
  case tabsReset keep =>
    simp only [Act.apply, Memory.wf, Bool.and_eq_true] at h ⊢
    refine ⟨canonFrom_filter _ _ _ _ h.1, ?_⟩
    simp only [List.all_eq_true] at h ⊢
    exact fun x hx => h.2 x (List.mem_filter.mp hx).1
  all_goals (simp only [Act.apply]; try split) <;> exact h

end Sys2Proof.Machine
end

