-- ==== Sys2Proof/Laws/Outcomes.lean ====
section
/-! SUPPORT. The outcomes of a meaning: which it answers, and how a statement about its next state is reached. -/

namespace Sys2Proof.Machine

/-- A well-formed command takes its program's next state. -/
@[simp] theorem checked_next (m : M Unit) (s : State) : checked true m s = .next (m.run s) := rfl

/-- An ill-formed command is refused. -/
@[simp] theorem checked_refused (m : M Unit) (s : State) : checked false m s = .refused .illFormed := rfl

/-- The next state of a program is that of its run. -/
@[simp] theorem M.next_run (m : M Unit) (s : State) : m.next s = .next (m.run s) := rfl

/-- A meaning without a check completes with the state of its run. -/
theorem Completes.of_next {i : Instr} {s : State} {P : State → Prop} {m : M Unit} (h : exec i s = m.next s) (hp : P (m.run s)) :
    Completes i s P := ⟨m.run s, h, hp⟩

/-- A meaning with a check that its operands pass completes with the state of its run. -/
theorem Completes.of_checked {i : Instr} {s : State} {P : State → Prop} {ok : Bool} {m : M Unit}
    (h : exec i s = checked ok m s) (hok : ok = true) (hp : P (m.run s)) : Completes i s P := by
  subst hok
  exact ⟨m.run s, h, hp⟩

/-- The parameters a run leaves have their form. -/
theorem run_params_wf (m : M Unit) (s : State) (h : Params.wf s.regs = true) : Params.wf (m.run s).regs = true :=
  Prog.run_keeps (fun s => Params.wf s.regs = true) apply_params_wf _ _ h

/-- The tables a run leaves have their form. -/
theorem run_memory_wf (m : M Unit) (s : State) (h : Memory.wf s.tabs = true) : Memory.wf (m.run s).tabs = true :=
  Prog.run_keeps (fun s => Memory.wf s.tabs = true) apply_memory_wf _ _ h

end Sys2Proof.Machine
end

