-- ==== Sys2Proof/Machine/Balls.lean ====
section
/-! DEFINITION. The balls: what the state drives at each output ball (R159, R262, R276, R315, R487), and the place of
every ball in the grid (R480 to R485). Nothing here changes state: a level is read off the state as a register is. -/

namespace Sys2Proof.Machine

/-- What an output ball does: a logic level, high impedance, held low by the pull-down of 20 kΩ, or for a gate driver
sinking or sourcing its gate (R159). -/
inductive Drive
  | low
  | high
  | highZ
  | pulledLow
  | sinking
  | sourcing
  deriving DecidableEq, Repr

/-- A logic level. -/
def Drive.ofBool (b : Bool) : Drive := if b then .high else .low

/-! ## Channel and driver balls (R159) -/

/-- Whether VDD_IO and the power-interface die have their supplies. The die counts as unpowered while VDDA is below its
threshold (DESIGN CHOICE, log entry 29). -/
def State.ioPowered (s : State) : Bool := s.f LCY.SUPPLY.IO_OK == 1 && s.f LCY.SUPPLY.A_OK == 1

/-- Reset and BOOT (R466). -/
def State.booting (s : State) : Bool := s.hid.lcy.held || s.f SYS.STATUS.DEV_STATE == 0

/-- Whether a driver self-test of a group runs: its outputs sink throughout (R155). -/
def State.driverTest (s : State) (g : Nat) : Bool := s.hid.cmd.due.any fun d => d.kind == 0x50 && d.unit == 0x0500 + g

/-- Whether the output cell of a channel keeps a pattern latched before the core die lost VDD_CORE (R31). -/
def State.heldByCell (s : State) (c : Nat) : Bool := s.hid.pls.coreHeld.contains c || s.hid.pls.coreLow.contains c

/-- Whether the output cell that drives a ball has a channel to serve: one bound to a group, out of reset and BOOT, or one that
holds its pattern over them. -/
def State.served (s : State) (c : Nat) : Bool := s.heldByCell c || (!s.booting && decide (s.chGroup c < 32))

/-- ACTIVE_LOW of a channel as its output cell has it (R76). -/
def State.activeLow (s : State) (c : Nat) : Bool := bit (s.chFlags c) 0 || s.hid.pls.coreLow.contains c

/-- The channel whose output leaves at ball CH`x`: its own, or the one that a spare in MODE BALL replaces (R84, R85). A
replaced channel's own ball stays at its off level. -/
def State.ballChan (s : State) (x : Nat) : Nat × Bool :=
  match s.ofCell x with
  | some c => (c, (s.chan c).on)
  | none => (x, false)

/-- A logic-level channel ball CH000 to CH095 (R159). -/
def State.logicBall (s : State) (x : Nat) : Drive :=
  let c := s.ballChan x
  if !s.ioPowered then .highZ
  else if s.served c.1 then .ofBool (c.2 != s.activeLow c.1)
  else .low

/-- The gate ball of an integrated driver, CH096 to CH143 (R138, R153, R159). -/
def State.driverBall (s : State) (x : Nat) : Drive :=
  let c := s.ballChan x
  if !s.ioPowered then .pulledLow
  else if c.2 && s.served c.1 && s.f GDR.STATUS.VDRV_OK == 1 && !s.driverTest (s.chGroup c.1) then .sourcing
  else .sinking

/-- The ball of a channel number. -/
def State.chanBall (s : State) (x : Nat) : Drive := if isDriver x then s.driverBall x else s.logicBall x

/-! ## Position balls -/

/-- The voltage between RESj_EXC_P and RESj_EXC_N in volts, where the counter of its timebase stands at `c` (R262). -/
def State.excitation (s : State) (j c : Nat) : Fl :=
  if s.excRuns j then
    let p := s.tbP (s.f (POS.RES_CFG.TB j))
    let turn := (s.f (POS.RES_CFG.EXC_MULT j) + 1) * c * 65536 + s.f (POS.RES_CFG.EXC_PHASE j) * p
    let amp := Fl.ofRat (10 + 4 * s.f (POS.RES_CFG.EXC_AMP j)) 10
    Fl.mul amp (Fl.sinT (Fl.ofRat turn (p * 65536)))
  else Fl.zero

/-- POSk_CK at position clock `t` (R265): high but for the low half of each period of a word in progress. -/
def State.ckBall (s : State) (k t : Nat) : Drive :=
  match (s.pu k).word with
  | some t0 =>
    let n := (t - t0) / (s.f (POS.SSI.DIV k) + 1)
    .ofBool (decide (t < t0) || decide (2 * s.f (POS.SSI.NBITS k) < n) || n % 2 == 1)
  | none => .high

/-- POSk_PT0 to PT2 while the levels at the inputs of unit `u` are `lv u` (R276): MIRROR passes those of its source, in
every state of it; under SSI_EMU PT1 is the clock input. -/
def State.ptBalls (s : State) (k : Nat) (lv : Nat → Bool × Bool × Bool) : Drive × Drive × Drive :=
  let three (x : Bool × Bool × Bool) := (Drive.ofBool x.1, Drive.ofBool x.2.1, Drive.ofBool x.2.2)
  if s.booting then (.highZ, .highZ, .highZ)
  else match s.f (POS.PT_CFG.MODE k) with
    | 1 => three (lv (s.f (POS.PT_CFG.SRC k)))
    | 2 => three (s.quadEmu k)
    | 3 => (.ofBool (s.pt k).out, .highZ, .highZ)
    | _ => (.highZ, .highZ, .highZ)

/-! ## Host, charging and power balls -/

/-- ATTN, active low (R68, R70, R487). -/
def State.attnBall (s : State) : Drive := .ofBool !s.hid.cmd.attn

/-- PWR_INT, open drain and active low (R366). -/
def State.pwrIntBall (s : State) : Drive := if s.pwrInt then .low else .highZ

/-- BSW_G: high closes the battery switch (R356). -/
def State.bswBall (s : State) : Drive := .ofBool (s.f LVP.STATUS.BSW == 1)

/-- CP_S2 closes the state-C switch (R314, R317). -/
def State.cpS2Ball (s : State) : Drive := .ofBool (s.f CHG.STATUS.CP_S2 == 1)

/-- Whether RLYr sinks its coil (R317). -/
def State.relaySinks (s : State) (r : Nat) : Bool := bit (s.f CHG.STATUS.RLY) r

/-- Whether the sensor supply SSUPk is switched on, its test pulses apart (R387, R389). -/
def State.ssupOn (s : State) (k : Nat) : Bool := s.f (SAF.SSUP.EN k) == 1 && s.f (SAF.SSUP.OC k) == 0

/-- The current LED0 (green), LED1 (blue) and LED2 (red) sink, in mA (R315). A blink is on in the first half of each of its
periods, which the device's millisecond count measures (DESIGN CHOICE, log entry 29). -/
def State.ledSinks (s : State) : Nat × Nat × Nat :=
  let (green, blue, red, rate) := s.lightRing
  let ma (b : Bool) := if b && s.ms * 2 * rate / 1000 % 2 == 0 then s.f CHG.CFG.LED_I else 0
  (ma green, ma blue, ma red)

/-! ## The ball grid (R480 to R485) -/

/-- What stands at a ball. -/
inductive Ball
  | vddCore | vddMem | vddIo | vdda | vdrv | vss | agnd | pgnd | nc
  | ch (n : Nat) | flt (n : Nat) | rdy (n : Nat)
  | posIn (k m : Nat) | posCk (k : Nat) | posPt (k m : Nat) | canTx (n : Nat) | canRx (n : Nat)
  | hostSck | hostMosi | hostMiso | hostCsN | attn | hostmode | resetN | xtalIn | xtalOut | test (n : Nat)
  | ain (n : Nat) | pcP (n : Nat) | pcN (n : Nat) | vrefExt | resExcP (j : Nat) | resExcN (j : Nat) | sin (n : Nat)
  | ssup (n : Nat) | cpSense | ppSense | cpS2 | rly (n : Nat) | led (n : Nat) | chgBtn | svcBtn | cplSw | bswG | pwrInt
  | t1P | t1N | t1sP | t1sN | ethRbias
  | scs (p : Nat) | sw (p : Nat) | bst (p : Nat)
  deriving DecidableEq, Repr

/-- Block 2 in row G (R482). -/
def ballG (j : Nat) : Ball :=
  if j ≤ 24 then
    let m := (j - 1) % 4
    if m = 3 then .posCk ((j - 1) / 4) else .posIn ((j - 1) / 4) m
  else if j % 2 = 1 then .canTx ((j - 25) / 2) else .canRx ((j - 25) / 2)

/-- Block 2 in row H (R482). -/
def ballH (j : Nat) : Ball :=
  if j ≤ 18 then .posPt ((j - 1) / 3) ((j - 1) % 3)
  else if 28 ≤ j ∧ j ≤ 31 then .test (j - 28)
  else [.hostSck, .hostMosi, .hostMiso, .hostCsN, .attn, .hostmode, .resetN, .xtalIn, .xtalOut].getD (j - 19) .vss

/-- Block 4 in row AC (R484). -/
def ballAC (j : Nat) : Ball :=
  if j = 1 then .vrefExt
  else if j ≤ 5 then (if j % 2 = 0 then .resExcP ((j - 2) / 2) else .resExcN ((j - 2) / 2))
  else if j ≤ 13 then .sin (j - 6)
  else if j ≤ 17 then .ssup (j - 14)
  else if j ≤ 20 then [.cpSense, .ppSense, .cpS2].getD (j - 18) .nc
  else if j ≤ 24 then .rly (j - 21)
  else if j ≤ 27 then .led (j - 25)
  else [.chgBtn, .svcBtn, .cplSw, .bswG, .pwrInt].getD (j - 28) .nc

/-- Block 5 (R485): the pair of column `j`, or the supply column's ball. -/
def ballDriver (i j : Nat) : Ball :=
  let p := 3 * ((j - 1) / 4) + (j - 1) % 4
  let pair := decide (j % 4 ≠ 0)
  match i with
  | 25 => .pgnd
  | 26 => if pair then .scs p else .vdrv
  | 27 => if pair then .pgnd else .vdrv
  | 28 => if pair then .ch (97 + 2 * p) else .pgnd
  | 29 => if pair then .nc else .pgnd
  | 30 => if pair then .sw p else .nc
  | 31 => if pair then .ch (96 + 2 * p) else .nc
  | _ => if pair then .bst p else .nc

/-- The ball in row `i` (1 is A, 32 is AN) and column `j` (R480 to R485). -/
def ballAt (i j : Nat) : Ball :=
  if i ≤ 3 then .ch (32 * (i - 1) + j - 1)
  else match i with
    | 4 => .flt (j - 1)
    | 5 => if j ≤ 16 then .flt (31 + j) else if j ≤ 24 then .rdy (j - 17) else .vddIo
    | 6 => if j % 2 = 1 then .vss else .vddIo
    | 7 => ballG j
    | 8 => ballH j
    | 9 => if j % 2 = 1 then .vss else .vddIo
    | 19 => .ain (j - 1)
    | 20 => .ain (31 + j)
    | 21 => if j % 2 = 1 then .pcP ((j - 1) / 2) else .pcN ((j - 2) / 2)
    | 22 => ballAC j
    | 23 => if j ≤ 5 then [.t1P, .t1N, .t1sP, .t1sN, .ethRbias].getD (j - 1) .agnd
            else if j % 2 = 0 then .vdda else .agnd
    | 24 => .agnd
    | _ =>
      if 25 ≤ i then ballDriver i j
      else if (i + j) % 2 = 0 then .vss
      else if i = 14 then .vddMem else .vddCore

end Sys2Proof.Machine
end

