-- ==== Sys2Proof/Tests/Slice0.lean ====
section
/-! SUPPORT. Small states to start from, tests of single steps, an ill-formed term for each check of WellFormed.lean, and
for every statement a state and operands that meet its hypotheses. -/

namespace Sys2Proof.Tests
open Sys2Proof Sys2Proof.Machine

set_option Elab.async false

/-! ## States -/

/-- Fields set in a state. -/
def set (l : List (FldAt × Nat)) (s : State) : State :=
  l.foldl (fun t x => (Act.reg x.1.addr (withBits (t.rd x.1.addr) x.1.hi x.1.lo x.2)).apply t) s

/-- Table bytes set in a state: table, offset, value. -/
def tabs (l : List (Nat × Nat × Nat)) (s : State) : State :=
  l.foldl (fun t x => (Act.tab (tkey x.1 x.2.1) (BitVec.ofNat 8 x.2.2)).apply t) s

/-- The block in STANDBY in packet mode, every island PRESENT. -/
def up : State :=
  set ((SYS.STATUS.DEV_STATE, 1) :: (SYS.STATUS.HOSTMODE, 1) :: (List.range 16).map fun n => (SYS.ISLAND.STATE n, 2))
    { State.reset with hid := { State.reset.hid with lcy := { State.reset.hid.lcy with held := false } } }

/-- A state some microseconds later. -/
def later (n : Nat) (s : State) : State := { s with hid := { s.hid with now := s.hid.now + n } }

/-- The same in legacy mode. -/
def legacyUp : State := set [(SYS.STATUS.HOSTMODE, 0)] up

/-- An open session 1 of the SPI port. -/
def withSession (auth : Nat) (s : State) : State :=
  { s with hid := { s.hid with cmd := { s.hid.cmd with sessions := [⟨1, .spi, auth, true, [], [], 0, [], none, none⟩] } } }

/-- A WRITE of the SPI port in session 1. -/
def viaSession : Via := .packet .spi 2 0 7 1 []

/-- A Chord's record. -/
def withChord (n : Nat) (c : Chord) (s : State) : State :=
  { s with hid := { s.hid with flg := { s.hid.flg with chords := sput s.hid.flg.chords n c } } }

/-- A scrub that runs. -/
def withScrub (x : Scrub) (s : State) : State :=
  { s with hid := { s.hid with mem := { s.hid.mem with scrub := some x } } }

/-- An open update. -/
def withUpd (k : Nat) (u : FwUpd) (s : State) : State :=
  { s with hid := { s.hid with lcy := { s.hid.lcy with upd := [(k, u)] } } }

/-- The header of an image without bytes. -/
def emptyImage : List Byte := List.replicate 16 0 ++ sha256 [] ++ List.replicate 32 0

/-- Groups in given states. -/
def withGroups (l : List (Nat × Grp)) (s : State) : State :=
  { s with hid := { s.hid with pls := { s.hid.pls with grps := l } } }

/-- Channels in given states. -/
def withChans (l : List (Nat × Chan)) (s : State) : State :=
  { s with hid := { s.hid with pls := { s.hid.pls with chans := l } } }

/-- Group 3 is RUNNING with channel 5 on timebase 2, which runs. -/
def running : State :=
  withGroups [(3, { st := .running })] (tabs [(0x30, 40, 3), (0x30, 41, 2), (0x30, 42, 0), (0x30, 43, 0)]
    (set [(PLS.TB_CFG.RUN 2, 1)] up))

/-- The last cell of bank 7 that compares is enabled with an upper threshold of 100 and selects group 3: route 1 or 2. -/
def cellOn (route : Nat) (s : State) : State :=
  tabs [(0x40, 1402, 128), (0x40, 1403, route), (0x40, 1404, 100), (0x40, 1408, 8), (0x40, 1413, 255)] s

/-- Driver pair 0 belongs to group 3, its slot L is on. -/
def driver : State :=
  withChans [(96, { on := true, gen := true }), (97, { on := true, gen := true })]
    (tabs [(0x30, 768, 3), (0x30, 769, 2), (0x30, 776, 3), (0x30, 777, 2)] running)

/-- A commanded operation is due. -/
def withDue (kind unit : Nat) (s : State) : State :=
  { s with hid := { s.hid with cmd := { s.hid.cmd with due := [⟨kind, unit, ⟨.spi, 2, 0, 7, 0, 0, 0, 4, []⟩, false⟩] } } }

/-- A trigger compare's record. -/
def withTrg (k : Nat) (r : Trg) (s : State) : State :=
  { s with hid := { s.hid with pls := { s.hid.pls with trgs := [(k, r)] } } }

/-- A cell's record. -/
def withCell (c : Nat) (r : Cell) (s : State) : State :=
  { s with hid := { s.hid with trp := { s.hid.trp with cells := [(c, r)] } } }

/-- A measurement record. -/
def withMea (f : MeaSt → MeaSt) (s : State) : State := { s with hid := { s.hid with mea := f s.hid.mea } }

/-- A Lattice record. -/
def withLat (f : LatSt → LatSt) (s : State) : State := { s with hid := { s.hid with lat := f s.hid.lat } }

/-- A supervisor's record. -/
def withDcl (f : DclSt → DclSt) (s : State) : State := { s with hid := { s.hid with dcl := f s.hid.dcl } }

/-- Group 3 belongs to rate group 7, whose one cell 191 reads slot 9; the trigger slot 8 has a result. -/
def lattice (commit : Nat) (s : State) : State :=
  withMea (fun x => { x with total := 5, stamp := [(8, 5)] })
    (tabs [(0x20, 12224, 7), (0x20, 12225, 0x80), (0x20, 12226, 9), (0x20, 12227, 0xFF), (0x20, 12260, 0x00), (0x20, 12263, 0x40),
      (0x20, 12264, 0x34), (0x20, 12265, 0x12)]
      (set [(PLS.GRP_CFG.OWNER 3, 15), (LAT.RG_CFG.EN 7, 1), (LAT.RG_CFG.GROUP 7, 3), (LAT.RG_CFG.START_SLOT 7, 8),
        (LAT.RG_CFG.COMMIT 7, commit)] s))

/-- The window of timebase 2 has begun. -/
def window (s : State) : State :=
  { s with hid := { s.hid with pls := { s.hid.pls with tbs := [(2, { wins := 1 })] } } }

/-- Engine 1 owns group 3; currents come from slot 5, link voltages from slots 6 and 7, which have results. -/
def fieldReady : State :=
  withMea (fun x => { x with stamp := [(5, 1)], usable := [(6, 1, 40000), (7, 1, 30000)] })
    (window (set [(FLD.MCH_CFG.EN 1, 1), (FLD.MCH_CFG.GROUP 1, 3), (PLS.GRP_CFG.OWNER 3, 2), (FLD.IN_SLOT0.A1 1, 5),
      (FLD.IN_SLOT0.B1 1, 5), (FLD.IN_SLOT0.C1 1, 5), (FLD.IN_SLOT0.A2 1, 5), (FLD.IN_SLOT1.B2 1, 5), (FLD.IN_SLOT1.C2 1, 5),
      (⟨MEA.RESULT 5, 31, 0⟩, 0x8000), (FLD.IN_SLOT1.VUP 1, 6), (FLD.IN_SLOT1.VLO 1, 7)] running))

/-- A position record. -/
def withPos (f : PosSt → PosSt) (s : State) : State := { s with hid := { s.hid with pos := f s.hid.pos } }

/-- Position unit 5 in a mode and a state. -/
def unit5 (mode st : Nat) (l : List (FldAt × Nat)) (s : State) : State :=
  set ((POS.PU_CFG.MODE 5, mode) :: (POS.PU_STAT.STATE 5, st) :: l) s

/-- An actuator record. -/
def withAct (f : ActSt → ActSt) (s : State) : State := { s with hid := { s.hid with act := f s.hid.act } }

/-- Actuator 2 and the charge-port lock have group 3. -/
def actReady (s : State) : State :=
  window (set [(ACT.CFG.EN 2, 1), (ACT.CFG.GROUP 2, 3), (PLS.GRP_CFG.OWNER 3, 4), (ACT.CPL_CFG.EN, 1), (ACT.CPL_CFG.GROUP, 3)] s)

/-- A charging record. -/
def withChg (f : ChgSt → ChgSt) (s : State) : State := { s with hid := { s.hid with chg := f s.hid.chg } }

/-- A metering record. -/
def withMtr (f : MtrSt → MtrSt) (s : State) : State := { s with hid := { s.hid with mtr := f s.hid.mtr } }

/-- A record of the power path. -/
def withLvp (f : LvpSt → LvpSt) (s : State) : State := { s with hid := { s.hid with lvp := f s.hid.lvp } }

/-- A record of the converters. -/
def withCnv (f : CnvSt → CnvSt) (s : State) : State := { s with hid := { s.hid with cnv := f s.hid.cnv } }

/-- The charging interface in a session state, with a cable of 32 A and the pilot in state B with PWM. -/
def charging (st : Nat) (s : State) : State :=
  set [(CHG.CFG.EN, 1), (CHG.STATUS.STATE, st), (CHG.PP.R, 200), (CHG.PP.I_PP, 32), (CHG.PILOT.STATE, 1), (CHG.PILOT.PWM, 1),
    (CHG.PILOT.DUTY, 500), (CHG.CFG.AFE_GROUP, 3), (CHG.CFG.DAB_GROUP, 4)] s

/-- A safety record. -/
def withSaf (f : SafSt → SafSt) (s : State) : State := { s with hid := { s.hid with saf := f s.hid.saf } }

/-- A safe message with a counter, and its CRC. -/
def message (c : Nat) : List Byte :=
  let b : List Byte := [1, 0] ++ leBytes 2 c ++ leBytes 8 0 ++ [0xFF, 0xFF, 0, 0] ++ List.replicate 12 0
  b ++ leBytes 4 (msgCrc 0 b)

/-- A bus record. -/
def withBus (f : BusSt → BusSt) (s : State) : State := { s with hid := { s.hid with bus := f s.hid.bus } }

/-- Controller 3 is enabled in an error state. -/
def can3 (st : Nat) (s : State) : State := set [(BUS.CTRL.EN 3, 1), (BUS.STAT.STATE 3, st)] s

/-- A classic frame. -/
def frame1 : CanFrame := { id := 2047, typ := 0, data := [1, 2, 3] }

/-- The bytes of a request without payload of session 0 and device scope. -/
def request (op : Nat) : List Byte :=
  let b : List Byte := leBytes 2 0x5A3C ++ [1, 0] ++ leBytes 2 7 ++ leBytes 2 op ++ [0, 0, 0, 0, 0, 0, 0, 4]
  b ++ leBytes 4 (crc32c b)

/-- A packet from the SPI port. -/
def packet (flags page inst scope : Nat) (payload : List Byte) : Packet :=
  ⟨.spi, 2, BitVec.ofNat 8 flags, 7, 0, BitVec.ofNat 8 page, BitVec.ofNat 16 inst, BitVec.ofNat 8 scope, payload⟩

/-- A packet of session 1. -/
def sessionPacket (flags page inst scope : Nat) (payload : List Byte) : Packet :=
  { packet flags page inst scope payload with session := 1 }

/-- Bytes in CMD.TUNNEL_TX. -/
def withTunnel (b : List Byte) (s : State) : State :=
  ((wordsOf b).zip (List.range 16)).foldl (fun t x => (Act.reg (CMD.TUNNEL_TX x.2) x.1).apply t) s

/-- A packet with the tag of its session, whose key is `key`. -/
def signedPacket (key : List Byte) (op : Nat) (p : Packet) : Packet :=
  let q : Packet := { p with payload := p.payload ++ List.replicate 16 0 }
  { q with payload := p.payload ++ (hmac key (packetHeader op q ++ p.payload)).take 16 }

/-- A record of the life cycle. -/
def withLcy (f : LcySt → LcySt) (s : State) : State := { s with hid := { s.hid with lcy := f s.hid.lcy } }

/-- A record of the host link. -/
def withCmd (f : CmdSt → CmdSt) (s : State) : State := { s with hid := { s.hid with cmd := f s.hid.cmd } }

/-- An open session 1 of OPERATOR, INTEGRATOR and METROLOGY. -/
def asOperator : State := withSession authOperator up
def asIntegrator : State := withSession authIntegrator up
def asMetrology : State := withSession authMetrology up

/-- Group 3 is RUNNING and an OPERATOR has a session. -/
def runningAsOperator : State := withSession authOperator running

/-- The entry of a parameter in the register map. -/
def specAt (a : Nat) : RegSpec := (regAt a).getD ⟨.SYS_STATUS, 0, 0, 0, 0, 0, 0, 0, 0, 0, 0, 0, 0, 0, 0, false⟩

/-- A packet of session 1. -/
def inSession : Packet := { packet 0 0 0 4 [] with session := 1 }

/-- A session that has answered a NOP already. -/
def replied : State :=
  { up with hid := { up.hid with cmd := { up.hid.cmd with
      sessions := [⟨1, .spi, 1, true, [], [], 0, [⟨7, packetCrc 0x00 inSession, replyPkt 0x00 inSession {}⟩], none, none⟩] } } }

/-- A session 1 that authenticates the packets of the SPI port. -/
def signedSession : State := set [(CMD.SESSION_CFG.AUTH_SPI, 1)] (withSession 1 up)

/-- The block in SHIP. -/
def shipped : State := set [(SYS.STATUS.DEV_STATE, 6)] up

/-- A READ of page 0x17. -/
def unmapped : Packet := packet 0 0x17 0 0 [0, 0, 1, 0]

/-- A measurement that meets the limits of a configuration. -/
def passing (g : TestCfg) : CellTest :=
  ⟨g.hi, g.lo, (64, 960), (g.hi, g.hi, g.hi), (true, false), g.hyst, 0, 0, 400 * g.ramp, false⟩

/-! ## Ill-formed terms, one for each check -/

/-- A position at which nothing was measured. -/
def idleCell : CellTest := ⟨0, 0, (0, 0), (0, 0, 0), (false, false), 0, 0, 0, 0, false⟩

/-- A pair at which nothing was measured. -/
def idlePair : PairTest := ⟨false, false, 0, 0, false, false⟩

theorem test_wf_source_sequence : Source.wf .sequence = false := by decide
theorem test_wf_source_canxl : Source.wf (.canxl 0 2048) = false ∧ Source.wf (.canxl 0 2047) = true := by decide
theorem test_wf_source_udp : Source.wf (.udp 0 (2 ^ 32) 1) = false ∧ Source.wf (.udp 0 1 65536) = false := by decide
theorem test_wf_packet_length (p : Packet) (h : p.payload.length = 65536) : Instr.wf (.nop p) = false := by
  show (p.src.wf && decide (p.payload.length < 65536)) = false
  rw [h]
  exact Bool.and_false _
theorem test_wf_via_tag :
    Instr.wf (.serviceEnter (.packet .spi 2 128 0 1 [1, 2])) = false ∧
    Instr.wf (.serviceEnter (.packet .spi 2 0 0 1 [1])) = false := by decide
theorem test_wf_can_classical : CanFrame.wf { id := 2047, typ := 0, data := List.replicate 9 0 } = false := by decide
theorem test_wf_can_base_id : CanFrame.wf { id := 2048, typ := 0, data := [] } = false ∧
    CanFrame.wf { id := 2048 + 2 ^ 29, typ := 0, data := [] } = true := by decide
theorem test_wf_can_id : CanFrame.wf { id := 2 ^ 31, typ := 0, data := [] } = false := by decide
theorem test_wf_can_fd_length : CanFrame.wf { id := 1, typ := 1, data := List.replicate 9 0 } = false ∧
    CanFrame.wf { id := 1 + 2 ^ 30, typ := 1, data := [] } = false := by decide
theorem test_wf_can_xl : CanFrame.wf { id := 1, typ := 2, data := [] } = false ∧
    CanFrame.wf { id := 1, typ := 2, sdt := 256, data := [0] } = false ∧
    CanFrame.wf { id := 1, typ := 2, vcid := 256, data := [0] } = false ∧
    CanFrame.wf { id := 1, typ := 2, af := 2 ^ 32, data := [0] } = false ∧
    CanFrame.wf { id := 2048, typ := 2, data := [0] } = false := by decide
theorem test_wf_can_type : CanFrame.wf { id := 1, typ := 3, data := [] } = false := by decide
theorem test_wf_can_xl_length : CanFrame.wf { id := 1, typ := 2, data := List.replicate 2049 0 } = false := by decide +kernel
theorem test_wf_eth : EthFrame.wf ⟨2 ^ 48, 0, 0, .other⟩ = false ∧ EthFrame.wf ⟨0, 2 ^ 48, 0, .other⟩ = false ∧
    EthFrame.wf ⟨0, 0, 2 ^ 32, .other⟩ = false := by decide
theorem test_wf_eth_kind : EthKind.wf (.arpRequest (2 ^ 32)) = false ∧ EthKind.wf (.echo (2 ^ 32) []) = false ∧
    EthKind.wf (.udp 0 65536 0 []) = false ∧ EthKind.wf (.udp 0 0 65536 []) = false ∧
    EthKind.wf (.udp (2 ^ 32) 0 0 []) = false := by decide
theorem test_wf_eth_length : EthKind.wf (.echo 0 (List.replicate 1473 0)) = false ∧
    EthKind.wf (.udp 0 0 0 (List.replicate 1473 0)) = false := by decide +kernel
theorem test_wf_leg : Instr.wf (.safeMessageCopy (.eth 0 (2 ^ 32) 1) []) = false ∧
    Instr.wf (.safeMessageCopy (.eth 0 1 65536) []) = false := by decide
theorem test_wf_leg_length : Instr.wf (.safeMessageCopy .can (List.replicate 1473 0)) = false := by decide +kernel
theorem test_wf_conversion : Conversion.wf { vp := 0, vn := 0, vref := 1, dup := .code 65536 } = false ∧
    Conversion.wf { vp := 0, vn := 0, vref := 1, dup := .abandoned, check := [65536] } = false ∧
    Conversion.wf { vp := 0, vn := 0, vref := 1, check := List.replicate 33 0 } = false ∧
    Conversion.wf { vp := -1, vn := 0, vref := 1, dup := .code 65535, check := List.replicate 32 65535 } = true := by decide
theorem test_wf_selftest : Instr.wf (.selftestCompletion ⟨0x0408, List.replicate 9 idleCell, []⟩) = false ∧
    Instr.wf (.selftestCompletion ⟨0x0400, List.replicate 8 idleCell, []⟩) = false ∧
    Instr.wf (.selftestCompletion ⟨0x0520, [], List.replicate 24 idlePair⟩) = false ∧
    Instr.wf (.selftestCompletion ⟨0x0500, [], List.replicate 23 idlePair⟩) = false ∧
    Instr.wf (.selftestCompletion ⟨0x0500, [idleCell], List.replicate 24 idlePair⟩) = false ∧
    Instr.wf (.selftestCompletion ⟨0x0407, List.replicate 9 idleCell, []⟩) = true := by decide
theorem test_wf_scrub : Instr.wf (.scrubComplete [⟨32768, 0, 0, false⟩]) = false := by decide
theorem test_wf_boot : Instr.wf (.resetRelease { hostmode := true, sramFails := [131072] }) = false := by decide
theorem test_wf_positions : Instr.wf (.restartCut 0 16777216) = false ∧ Instr.wf (.edgeCompare 0 16777216) = false ∧
    Instr.wf (.resolverUpdate 0 0 16777216) = false := by decide
theorem test_wf_codes : Instr.wf (.sarCheckSlot (List.replicate 33 0)) = false ∧ Instr.wf (.sarCheckSlot [65536]) = false := by
  decide
theorem test_wf_sums : Instr.wf (.subwindowEnd [0]) = false ∧
    Instr.wf (.subwindowEnd (-8388608 :: List.replicate 15 0)) = false := by decide
theorem test_wf_patrol : Instr.wf (.sramPatrol [(16777216, true)]) = false := by decide
theorem test_wf_arp : Instr.wf (.arpAge 0 (2 ^ 32)) = false := by decide
theorem test_ill_formed_is_refused : exec (.arpAge 0 (2 ^ 32)) up = .refused .illFormed := rfl

/-! ## Effects -/

/-- What is read of the next state. -/
def after (i : Instr) (s : State) (f : State → Bool) : Bool :=
  match exec i s with
  | .next t => f t
  | _ => false

/-- R37: the check value. -/
theorem test_crc32c : crc32c (by1 [0x31, 0x32, 0x33, 0x34, 0x35, 0x36, 0x37, 0x38, 0x39]) = 0xE3069283 := by decide +kernel

/-- FIPS 180-4: the digest of "abc" begins BA 78 16 BF. -/
theorem test_sha256 : (sha256 (by1 [0x61, 0x62, 0x63])).take 4 = by1 [0xBA, 0x78, 0x16, 0xBF] := by decide +kernel

/-- R8, R39: a READ of page 0x17 answers REFUSED (2), reason 0x0109, DETAIL the address. -/
theorem test_read_unmapped : after (.read (packet 0 0x17 0 0 [0, 0, 1, 0])) up (fun t =>
    (t.que.spi.getLast?.map fun q => q.payload) == some [2, 0, 0x09, 0x01, 0x00, 0x00, 0x17, 0x00]) = true := by
  decide +kernel

/-- R52: a READ of SYS.STATUS answers OK and its word, DEV_STATE STANDBY in bits 31:28 among it. -/
theorem test_read_status : after (.read (packet 0 0 0 0 (leBytes 2 (SYS.STATUS % 65536) ++ [1, 0]))) up (fun t =>
    t.que.spi.map (fun q => q.payload) == [[0, 0, 0, 0, 0, 0, 0, 0] ++ leBytes 4 (up.rd SYS.STATUS).toNat]) = true := by
  decide +kernel

/-- R58: without a session ENABLE lacks authority (0x0106). -/
theorem test_enable_needs_authority : after (.enable (packet 0 0 3 1 [])) up (fun t =>
    t.gst 3 == .off && (t.que.spi.getLast?.map fun q => q.payload.take 4) == some [2, 0, 0x06, 0x01]) = true := by
  decide +kernel

/-- R80: DISABLE of a RUNNING group leaves it CONFIGURED with its channel off. -/
theorem test_disable : after (.disable (sessionPacket 0 0 3 1 [])) runningAsOperator (fun t =>
    t.gst 3 == .configured && !(t.chan 5).on) = true := by decide +kernel

/-- R130: the latch of a tripped group clears, and the group stays TRIPPED. -/
theorem test_trip_latch : after (.tripLatchClear .legacy 3)
    (withGroups [(3, { st := .tripped })] (set [(TRP.GRP_TRIP.LATCH 3, 1)] legacyUp)) (fun t =>
    t.f (TRP.GRP_TRIP.LATCH 3) == 0 && t.gst 3 == .tripped) = true := by decide +kernel

/-- R70: a legacy frame with a wrong CRC counts and is not executed. -/
theorem test_legacy_crc : after (.legacyFrame 1) legacyUp (fun t => t.f CMD.LEGACY_ERR.FRAMES_BAD == 1) = true := by
  decide +kernel

/-- R60: a wrong proof opens nothing. -/
theorem test_wrong_proof :
    after (.sessionOpen (sessionPacket 0 0 0 4 ([1, 0, 0, 0] ++ List.replicate 32 0)))
      (withCmd (fun c => { c with sessions := [⟨1, .spi, 1, false, [], [7], 0, [], none, none⟩], pwds := [⟨1, [], []⟩] }) up)
      (fun t => t.hid.cmd.sessions.isEmpty) = true := by decide +kernel

/-- R402: with N = 1 one occurrence is lasting; the class GROUP_SAFE forces the instance's group SAFE (R408). -/
theorem test_lasting_class :
    (let t := (occur 90 3 0).run (tabs [(0x60, 720, 1), (0x60, 721, 2), (0x60, 722, 1)] running)
     t.lasting 90 3 && t.gst 3 == .safe) = true := by decide +kernel

/-! ## States that meet the hypotheses of the statements -/

/-- A state and operands that meet every hypothesis of `Obligations.Every_step_keeps_form`. -/
theorem witness_Every_step_keeps_form :
  State.reset.wf = true ∧ State.reset.pending = [] := by decide +kernel

/-- A state and operands that meet every hypothesis of `Obligations.Step_runs_the_front_command`. -/
theorem witness_Step_runs_the_front_command :
  ({ up with pending := [.nop (packet 0 0 0 4 [])] } : State).pending = [.nop (packet 0 0 0 4 [])] := by decide +kernel

/-- A state and operands that meet every hypothesis of `Obligations.Idle_step_is_a_tick`. -/
theorem witness_Idle_step_is_a_tick :
  State.reset.pending = [] := by decide +kernel

/-- A state and operands that meet every hypothesis of `Obligations.Exec_leaves_the_queue`. -/
theorem witness_Exec_leaves_the_queue :
  exec (.nop (packet 0 0 0 4 [])) up = .next ((serve 0x00 (packet 0 0 0 4 [])).run up) := rfl

/-- A state and operands that meet every hypothesis of `Obligations.Commands_complete`. -/
theorem witness_Commands_complete :
  Instr.wf (.nop (packet 0 0 0 4 [])) = true ∧ Instr.wf (.nop { packet 0 0 0 4 [] with src := .sequence }) = false := by decide +kernel

/-- A state and operands that meet every hypothesis of `Obligations.Crc_is_crc32c`. -/
theorem witness_Crc_is_crc32c :
  framed .spi (request 0) 0 (packet 0 0 0 4 [] |> fun p => { p with version := 1 }) = true := by decide +kernel

/-- A state and operands that meet every hypothesis of `Obligations.Both_versions_serve`. -/
theorem witness_Both_versions_serve :
  up.serves 0x00 (packet 0 0 0 4 []) = true ∧ (packet 0 0 0 4 []).src = .spi ∧ bit (packet 0 0 0 4 []).flags.toNat 2 = false ∧
  up.serves 0x00 { packet 0 0 0 4 [] with version := 1 } = true := by decide +kernel

/-- A state and operands that meet every hypothesis of `Obligations.Read_counts`. -/
theorem witness_Read_counts :
  (fun (s : State) (p : Packet) (off : Nat) (n : Nat) => s.serves 0x10 p = true ∧ bodyOf p = leBytes 2 off ++ leBytes
    2 n ∧ n < 65536 ∧ (n = 0 ∨ 1024 < n)) up (packet 0 0 0 0 [0, 0, 1, 4]) 0 1025 ∧
  (fun (s : State) (p : Packet) (off : Nat) (n : Nat) => s.serves 0x10 p = true ∧ bodyOf p = leBytes 2 off ++ leBytes
    2 n ∧ off % 4 = 0 ∧ off + 4 * n ≤ 65536 ∧ 1 ≤ n ∧ n ≤ 1024 ∧ (addrs p.page.toNat off n).all s.readable = true) up
    (packet 0 0 0 0 [0, 0, 1, 0]) 0 1 := by
  refine ⟨?_, ?_⟩ <;> decide +kernel

/-- A state and operands that meet every hypothesis of `Obligations.Replays_are_sent_again`. -/
theorem witness_Replays_are_sent_again :
  requestOf 0x00 inSession false = some (.nop inSession) ∧ replied.reaches inSession = true ∧
  earlyBad 0x00 inSession = none ∧ replied.sessionOk 0x00 inSession = true ∧ replied.tagBad 0x00 inSession = false ∧
  (replied.keptReply 0x00 inSession).isSome = true ∧ inSession.src = .spi ∧ bit inSession.flags.toNat 2 = false ∧
  (withSession 1 up).serves 0x00 inSession = true ∧ ((withSession 1 up).openSession inSession).isSome = true := by decide +kernel

/-- A state and operands that meet every hypothesis of `Obligations.Header_checks_refuse`. -/
theorem witness_Header_checks_refuse :
  up.reaches (packet 0 0 0 4 [0]) = true ∧ (earlyBad 0x00 (packet 0x40 0 0 4 [])).isSome = true ∧
  up.reaches inSession = true ∧ earlyBad 0x00 inSession = none ∧ up.sessionOk 0x00 inSession = false ∧
  signedSession.sessionOk 0x00 { inSession with version := 2, flags := 2, payload := List.replicate 16 0 } = true ∧
  signedSession.tagBad 0x00 { inSession with version := 2, flags := 2, payload := List.replicate 16 0 } = true ∧
  requestOf 0x20 (packet 0 0 3 1 []) false = some (.enable (packet 0 0 3 1 [])) ∧ (packet 0 0 3 1 []).wf = true ∧
  up.takes 0x20 (packet 0 0 3 1 []) = true ∧
  authOk (up.ctxOf 0x20 (packet 0 0 3 1 [])).auth 0x20 1 3 (bodyOf (packet 0 0 3 1 [])) = false := by decide +kernel

/-- A state and operands that meet every hypothesis of `Obligations.Deaf_and_ship_states`. -/
theorem witness_Deaf_and_ship_states :
  (packet 0 0 0 4 []).wf = true ∧ legacyUp.listens .spi = false ∧
  shipped.dev = 6 ∧ shipped.hid.cmd.go = none ∧ shipped.listens .spi = true ∧ earlyBad 0x00 (packet 0 0 0 4 []) = none ∧
  earlyBad 0xF0 (packet 0 0 0 4 []) = none ∧ (packet 0 0 0 4 []).session = 0 ∧ authSet (packet 0 0 0 4 []) = false := by decide +kernel

/-- A state and operands that meet every hypothesis of `Obligations.Retired_stays_retired`. -/
theorem witness_Retired_stays_retired :
  (set [(LCY.STATE.STATE, 4)] up).lcState = 4 ∧ (set [(LCY.STATE.STATE, 4)] up).hid.lcy.trans = none := by decide +kernel

/-- A state and operands that meet every hypothesis of `Obligations.Ledger_judges_occurrences`. -/
theorem witness_Ledger_judges_occurrences :
  (219 : Nat) < 256 ∧ (31 : Nat) < 32 := by decide +kernel

/-- A state and operands that meet every hypothesis of `Obligations.Lasting_bits_clear`. -/
theorem witness_Lasting_bits_clear :
  (fun (s : State) (v : Via) (src : BitVec 8) (w : Word) => s.accepts v [(FLG.LASTING src.toNat, w)] = true) (set
    [(⟨FLG.LASTING 219, 31, 0⟩, 0xC0000001)] asIntegrator) viaSession 219 0x80000000 := by decide +kernel

/-- A state and operands that meet every hypothesis of `Obligations.Retired_refuses`. -/
theorem witness_Retired_refuses :
  (fun (s : State) (p : Packet) => s.serves 0x20 p = true ∧ s.lcState = 4 ∧ s.present 0 = true ∧ s.dev ≠ 4 ∧
    s.chargerGroup p.inst.toNat = false) (set [(LCY.STATE.STATE, 4)] asOperator) (sessionPacket 0 0 31 1 []) ∧
  (fun (s : State) (p : Packet) => s.serves 0xC0 p = true ∧ s.lcState = 4 ∧ (bodyOf p).drop 1 = [0, 0, 0]) (set
    [(LCY.STATE.STATE, 4)] asIntegrator) (sessionPacket 0 0 0 4 [3, 0, 0, 0]) ∧
  (fun (s : State) (p : Packet) => s.serves 0xD0 p = true ∧ s.lcState = 4 ∧ hdrKind (bodyOf p) = some (fwImage
    (s.ctxOf 0xD0 p).auth)) (set [(LCY.STATE.STATE, 4)] asIntegrator) (sessionPacket 0 0 0 4 (by1 [0x49, 0x41, 0x4C,
    0x46, 1] ++ List.replicate 75 0)) ∧
  (fun (s : State) (p : Packet) => s.serves 0xD1 p = true ∧ s.lcState = 4) (set [(LCY.STATE.STATE, 4)] asIntegrator)
    (sessionPacket 0 0 0 4 [0, 0, 0, 0, 1]) ∧
  (fun (s : State) (p : Packet) => s.serves 0xD2 p = true ∧ s.lcState = 4 ∧ (bodyOf p).drop 64 = [0, 0, 0, 0]) (set
    [(LCY.STATE.STATE, 4)] asIntegrator) (sessionPacket 0 0 0 4 (List.replicate 68 0)) ∧
  (fun (s : State) (p : Packet) => s.takes 0x30 p = true ∧ p.wf = true ∧ s.lcState = 4 ∧ accessBad (s.ctxOf 0x30 p) p
    (bodyOf p) = none ∧ s.segOf (s.ctxOf 0x30 p) = none ∧ s.segBreak (s.ctxOf 0x30 p) p = none ∧ (s.stateBad (s.ctxOf
    0x30 p).auth 0x30 p (bodyOf p) none).isNone = true ∧ (sizeBad 0x30 p (bodyOf p) false).isNone = true ∧ (targetBad
    0x30 p (bodyOf p)).isNone = true) (set [(LCY.STATE.STATE, 4)] asIntegrator) (sessionPacket 0 0 0x31 2 (leBytes 2 5
    ++ leBytes 2 1 ++ [1, 0, 2, 0, 0xFF, 0xFF, 0xFF, 0xFF, 1, 0, 0, 0])) := by
  refine ⟨?_, ?_, ?_, ?_, ?_, ?_⟩ <;> decide +kernel

/-- A state and operands that meet every hypothesis of `Obligations.Unmapped_pages_refuse`. -/
theorem witness_Unmapped_pages_refuse :
  up.takes 0x10 unmapped = true ∧ accessBad (up.ctxOf 0x10 unmapped) unmapped (bodyOf unmapped) = none ∧
  (up.begun 0x10 unmapped).segBreak (up.ctxOf 0x10 unmapped) unmapped = none ∧
  (up.begun 0x10 unmapped).stateBad (up.ctxOf 0x10 unmapped).auth 0x10 unmapped (bodyOf unmapped)
    ((up.begun 0x10 unmapped).segOf (up.ctxOf 0x10 unmapped)) = none ∧
  sizeBad 0x10 unmapped (bodyOf unmapped) ((up.begun 0x10 unmapped).segOf (up.ctxOf 0x10 unmapped)).isSome = none ∧
  unmapped.wf = true ∧ 0x16 < unmapped.page.toNat ∧ legacyUp.legacyOpen = true := by decide +kernel

/-- A state and operands that meet every hypothesis of `Obligations.No_reply_suppresses`. -/
theorem witness_No_reply_suppresses :
  up.serves 0x00 (packet 4 0 0 4 []) = true ∧ (packet 4 0 0 4 []).src = .spi ∧ bit (packet 4 0 0 4 []).flags.toNat 2 = true ∧
  eventCount up.que.spi < 64 := by decide +kernel

/-- A state and operands that meet every hypothesis of `Obligations.Information_requests_answer`. -/
theorem witness_Information_requests_answer :
  (fun (s : State) (p : Packet) => s.serves 0x00 p = true) up (packet 0 0 0 4 []) ∧
  (fun (s : State) (p : Packet) => s.serves 0x01 p = true) up (packet 0 0 0 4 []) ∧
  (fun (s : State) (p : Packet) => s.serves 0x02 p = true) up (packet 0 0 0 4 []) ∧
  (fun (s : State) (p : Packet) (off : Nat) (n : Nat) => s.serves 0x10 p = true ∧ bodyOf p = leBytes 2 off ++ leBytes
    2 n ∧ off % 4 = 0 ∧ off + 4 * n ≤ 65536 ∧ 0 < n ∧ n ≤ 1024 ∧ ((addrs p.page.toNat off n).all s.readable) = true)
    up (packet 0 0 0 0 [0, 0, 2, 0]) 0 2 ∧
  (fun (s : State) (p : Packet) (size : Nat) (n : Nat) => s.serves 0x31 p = true ∧ tableDim p.inst.toNat = some (size,
    n) ∧ (tableIsland p.inst.toNat).all s.present = true) up (packet 0 0 0x31 2 []) 12 48 ∧
  (fun (s : State) (p : Packet) => s.serves 0x31 p = true ∧ tableDim p.inst.toNat = none) up (packet 0 0 0x70 2 []) ∧
  (fun (s : State) (p : Packet) => s.serves 0x60 p = true ∧ leAt (bodyOf p) 0 1 = 1 ∧ leAt (bodyOf p) 1 1 = 0)
    ({ up with que := { up.que with flt := [⟨1, 2, 3, 4, 5, 6, 7, 8⟩] } }) (packet 0 0 0 4 [1, 0, 0, 0, 4, 0]) ∧
  (fun (s : State) (p : Packet) => s.serves 0x60 p = true ∧ leAt (bodyOf p) 0 1 = 2 ∧ leAt (bodyOf p) 1 1 = 0)
    ({ up with que := { up.que with vio := [⟨1, 2, 3, 4, 5, 6, 7⟩, ⟨1, 3, 3, 4, 5, 6, 7⟩] } }) (packet 0 0 0 4 [2, 0,
    1, 0, 4, 0]) ∧
  (fun (s : State) (p : Packet) => s.serves 0x60 p = true ∧ leAt (bodyOf p) 0 1 = 3 ∧ leAt (bodyOf p) 1 1 = 0)
    ({ asIntegrator with que := { up.que with chg := [⟨1, 2, 3, 4, 5, 6, 7, 8⟩] } }) (sessionPacket 0 0 0 4 [3, 0, 0,
    0, 1, 0]) ∧
  (fun (s : State) (p : Packet) => s.serves 0x81 p = true) up (packet 0 0 0 4 []) ∧
  (fun (s : State) (p : Packet) (d : List Byte) => s.serves 0xE0 p = true ∧ s.meterRead (leAt (bodyOf p) 0 1) = some d
    ∧ (bodyOf p).drop 1 = [0, 0, 0] ∧ s.present 8 = true) up (packet 0 0 0 4 [1, 0, 0, 0]) (List.replicate 48 0) ∧
  (fun (s : State) (p : Packet) (l : List (List Byte)) => s.serves 0xE1 p = true ∧ 0 < leAt (bodyOf p) 4 2 ∧ leAt
    (bodyOf p) 4 2 ≤ 512 ∧ leAt (bodyOf p) 6 2 = 0 ∧ s.present 8 = true ∧ s.heldRecords (leAt (bodyOf p) 0 4) (leAt
    (bodyOf p) 4 2) = some l) (withMtr (fun m => { m with ring := [[1, 2], [3, 4]] }) (set [(MTR.LAST.RSEQ, 7)] up))
    (packet 0 0 0 4 [7, 0, 0, 0, 3, 0, 0, 0]) ([[3, 4]]) := by
  refine ⟨?_, ?_, ?_, ?_, ?_, ?_, ?_, ?_, ?_, ?_, ?_, ?_⟩ <;> decide +kernel

/-- A state and operands that meet every hypothesis of `Obligations.Writes_and_tables`. -/
theorem witness_Writes_and_tables :
  (fun (s : State) (p : Packet) (off : Nat) (vs : List Word) => s.serves 0x11 p = true ∧ (bodyOf p = leBytes 2 off ++
    leBytes 2 vs.length ++ vs.flatMap (fun v => leBytes 4 v.toNat)) ∧ off % 4 = 0 ∧ off + 4 * vs.length ≤ 65536 ∧ vs ≠
    [] ∧ vs.length ≤ 1023 ∧ (s.serving 0x11 p).writable (s.ctxOf 0x11 p) ((addrs p.page.toNat off vs.length).zip vs) =
    true ∧ ((addrs p.page.toNat off vs.length).all storesOnly) = true) asIntegrator (sessionPacket 0 0x10 0 0 (leBytes
    2 8 ++ leBytes 2 1 ++ leBytes 4 0x12345678)) 8 ([0x12345678]) ∧
  (fun (s : State) (p : Packet) (off : Nat) (mask : Word) (value : Word) (r : RegSpec) => s.serves 0x12 p = true ∧
    bodyOf p = leBytes 2 off ++ leBytes 2 0 ++ leBytes 4 mask.toNat ++ leBytes 4 value.toNat ∧ off % 4 = 0 ∧ off <
    65536 ∧ regAt (p.page.toNat * 65536 + off) = some r ∧ r.w1c = 0 ∧ r.wo = 0 ∧ storesOnly (p.page.toNat * 65536 +
    off) = true ∧ (s.serving 0x12 p).writable (s.ctxOf 0x12 p) [(p.page.toNat * 65536 + off, (value &&& mask) |||
    (s.rd (p.page.toNat * 65536 + off) &&& ~~~mask))] = true) asIntegrator (sessionPacket 0 0x10 0 0 (leBytes 2 8 ++
    leBytes 2 0 ++ leBytes 4 0xFF ++ leBytes 4 0x1234)) 8 0xFF 0x1234 (specAt 0x100008) ∧
  (fun (s : State) (p : Packet) (e : SpEntry) (a : Nat) => s.serves 0x40 p = true ∧ spEntries (bodyOf p) = [e] ∧ leAt
    (bodyOf p) 1 3 = 0 ∧ s.settable (s.ctxOf 0x40 p).auth e a = true) (lattice 0 runningAsOperator) (sessionPacket 0 0
    0 4 [1, 0, 0, 0, 1, 0, 191, 0, 5, 0, 0, 0]) (⟨1, 0, 191, 5⟩) (LAT.TARGET 191) ∧
  (fun (s : State) (p : Packet) (e : SpEntry) (a : Nat) => s.serves 0x40 p = true ∧ spEntries (bodyOf p) = [e] ∧ leAt
    (bodyOf p) 1 3 = 0 ∧ e.kind = 2 ∧ e.index < 512 ∧ s.settable (s.ctxOf 0x40 p).auth e a = true) (set
    [(FLD.MCH_CFG.EN 1, 1), (FLD.MCH_CFG.GROUP 1, 3), (PLS.GRP_CFG.OWNER 3, 2)] runningAsOperator) (sessionPacket 0 0
    0 4 [1, 0, 0, 0, 2, 0, 0, 1, 5, 0, 0, 0]) (⟨2, 0, 256, 5⟩) (FLD.TQ_REQ 1) ∧
  (fun (s : State) (p : Packet) (size : Nat) (n : Nat) => s.serves 0x30 p = true ∧ tableDim p.inst.toNat = some (size,
    n) ∧ p.inst ≠ 0x80 ∧ bit p.flags.toNat 3 = false ∧ s.segOf (s.ctxOf 0x30 p) = none ∧ s.loadable p.inst.toNat size
    n (leAt (bodyOf p) 0 2) (entriesOf size ((bodyOf p).drop 4)) = true) asIntegrator (sessionPacket 0 0 0x31 2
    (leBytes 2 5 ++ leBytes 2 1 ++ [1, 0, 2, 0, 0xFF, 0xFF, 0xFF, 0xFF, 1, 0, 0, 0])) 12 48 ∧
  (fun (s : State) (p : Packet) (size : Nat) (n : Nat) => s.serves 0x30 p = true ∧ tableDim p.inst.toNat = some (size,
    n) ∧ p.inst ≠ 0x80 ∧ bit p.flags.toNat 3 = true ∧ s.segOf (s.ctxOf 0x30 p) = none ∧ leAt (bodyOf p) 0 2 < n ∧ leAt
    (bodyOf p) 0 2 + leAt (bodyOf p) 2 2 ≤ n ∧ s.loadable p.inst.toNat size n (leAt (bodyOf p) 0 2) (entriesOf size
    ((bodyOf p).drop 4)) = true) asIntegrator (sessionPacket 8 0 0x31 2 (leBytes 2 5 ++ leBytes 2 1 ++ [1, 0, 2, 0,
    0xFF, 0xFF, 0xFF, 0xFF, 1, 0, 0, 0])) 12 48 ∧
  (fun (s : State) (p : Packet) (m : Fin 2) (k : Fin 2) => s.serves 0x32 p = true ∧ s.present (2 + m.val) = true ∧
    p.inst.toNat = 0x10 + 2 * m.val + k.val ∧ s.f (FLD.MCH_STAT.BANK m) ≠ k ∧ bit (s.f FLD.MAP_STAT.COMPLETE) (2 *
    m.val + k.val) = true) (set [(FLD.MAP_STAT.COMPLETE, 15)] asOperator) (sessionPacket 0 0 0x13 2 []) 1 1 ∧
  (fun (s : State) (p : Packet) (m : Fin 2) (k : Fin 2) => s.serves 0x32 p = true ∧ s.present (2 + m.val) = true ∧
    p.inst.toNat = 0x10 + 2 * m.val + k.val ∧ s.f (FLD.MCH_STAT.BANK m) = k) asOperator (sessionPacket 0 0 0x12 2 [])
    1 0 ∧
  (fun (s : State) (p : Packet) => s.serves 0x61 p = true ∧ bodyOf p = [1, 0, 0, 0])
    ({ asIntegrator with que := { up.que with flt := [⟨1, 2, 3, 4, 5, 6, 7, 8⟩] } }) (sessionPacket 0 0 0 4 [1, 0, 0,
    0]) ∧
  (fun (s : State) (p : Packet) => s.serves 0x61 p = true ∧ bodyOf p = [2, 0, 0, 0])
    ({ asIntegrator with que := { up.que with vio := [⟨1, 2, 3, 4, 5, 6, 7⟩] } }) (sessionPacket 0 0 0 4 [2, 0, 0, 0]) := by
  refine ⟨?_, ?_, ?_, ?_, ?_, ?_, ?_, ?_, ?_, ?_⟩ <;> decide +kernel

/-- A state and operands that meet every hypothesis of `Obligations.Group_requests`. -/
theorem witness_Group_requests :
  (fun (s : State) (p : Packet) => s.serves 0x20 p = true ∧ s.present 0 = true ∧ s.active p.inst.toNat = false ∧
    (s.serving 0x20 p).enableRefusal p.inst.toNat true = none ∧ s.levelsQuiet p.inst.toNat = true) (withGroups [(3,
    { st := .configured })] (tabs [(0x30, 40, 3), (0x30, 41, 2), (0x30, 42, 0), (0x30, 43, 0)] (set [(PLS.TB_CFG.RUN
    2, 1), (PLS.CAL.CAL_VALID 0, 1)] asOperator))) (sessionPacket 0 0 3 1 []) ∧
  (fun (s : State) (p : Packet) => s.serves 0x20 p = true ∧ s.active p.inst.toNat = true ∧ (s.serving 0x20
    p).enableRefusal p.inst.toNat true = none) runningAsOperator (sessionPacket 0 0 3 1 []) ∧
  (fun (s : State) (p : Packet) => s.serves 0x21 p = true ∧ s.gst p.inst.toNat ≠ .off ∧ s.gst p.inst.toNat ≠
    .configured ∧ s.disableRefusal p.inst.toNat true = none) runningAsOperator (sessionPacket 0 0 3 1 []) ∧
  (fun (s : State) (p : Packet) => s.serves 0x21 p = true ∧ (s.gst p.inst.toNat = .off ∨ s.gst p.inst.toNat =
    .configured)) asOperator (sessionPacket 0 0 3 1 []) ∧
  (fun (s : State) (p : Packet) => s.serves 0x22 p = true ∧ s.present 0 = true ∧ (s.loopOwned p.inst.toNat && s.active
    p.inst.toNat) = false ∧ (s.grp p.inst.toNat).left = false ∧ s.f (PLS.GRP_STAT.RELOAD_PEND p.inst.toNat) = 0) (set
    [(PLS.GRP_CFG.OWNER 3, 0)] runningAsOperator) (sessionPacket 0 0 3 1 []) := by
  refine ⟨?_, ?_, ?_, ?_, ?_⟩ <;> decide +kernel

/-- A state and operands that meet every hypothesis of `Obligations.Selftests_begin`. -/
theorem witness_Selftests_begin :
  (fun (s : State) (p : Packet) (k : Fin 8) => s.serves 0x50 p = true ∧ s.present 7 = true ∧ bodyOf p = leBytes 2
    (0x400 + k.val) ++ [0, 0]) asOperator (sessionPacket 0 0 0 4 [7, 4, 0, 0]) 7 ∧
  (fun (s : State) (p : Packet) (g : Fin 32) => s.serves 0x50 p = true ∧ s.present 7 = true ∧ bodyOf p = leBytes 2
    (0x500 + g.val) ++ [0, 0] ∧ s.grpPairs g ≠ []) (withSession authOperator (withGroups [] driver)) (sessionPacket 0
    0 0 4 [3, 5, 0, 0]) 3 := by
  refine ⟨?_, ?_⟩ <;> decide +kernel

/-- A state and operands that meet every hypothesis of `Obligations.Session_and_password_requests`. -/
theorem witness_Session_and_password_requests :
  (fun (s : State) (p : Packet) (a : Nat) => s.serves 0x70 p = true ∧ bodyOf p = by1 [0, a, 0, 0] ∧ 1 ≤ a ∧ a ≤ 3 ∧
    s.hid.cmd.lockEnd = none ∧ s.sessionLimit a = false) up (packet 0 0 0 4 [0, 2, 0, 0]) 2 ∧
  (fun (s : State) (p : Packet) (x : Session) => s.serves 0x70 p = true ∧ s.session p.session.toNat = some x ∧
    s.hid.cmd.lockEnd = none ∧ bodyOf p = [1, 0, 0, 0] ++ hmac (s.pwd x.auth).hash (x.nonce ++ leBytes 2 x.id))
    (withCmd (fun c =>
    { c with sessions := [⟨1, .spi, 1, false, [], [7], 0, [], none, none⟩], pwds := [⟨1, [], []⟩] }) up)
    (sessionPacket 0 0 0 4 ([1, 0, 0, 0] ++ hmac [] ([7] ++ leBytes 2 1))) (⟨1, .spi, 1, false, [], [7], 0, [], none,
    none⟩) ∧
  (fun (s : State) (p : Packet) => s.serves 0x71 p = true) asOperator (sessionPacket 0 0 0 4 []) ∧
  (fun (s : State) (p : Packet) (pw : List Byte) (key : List Byte) => s.serves 0x72 p = true ∧ ((s.session
    p.session.toNat).map (fun x => x.key) = some key ∧ 8 ≤ pw.length ∧ pw.length ≤ 32) ∧ ((pw.all fun b => decide
    (0x20 ≤ b.toNat ∧ b.toNat ≤ 0x7E)) = true) ∧ bodyOf p = by1 [pw.length, 0, 0, 0] ++ xorBytes (pw ++ List.replicate
    (32 - pw.length) 0) (hmac key (by1 [0x49, 0x41, 0x4C, 0x50] ++ leBytes 2 p.seq.toNat))) asOperator (signedPacket
    [] 0x72 (sessionPacket 128 0 0 4 (by1 [8, 0, 0, 0] ++ xorBytes (List.replicate 8 65 ++ List.replicate 24 0) (hmac
    [] (by1 [0x49, 0x41, 0x4C, 0x50] ++ leBytes 2 7))))) (List.replicate 8 65) ([]) := by
  refine ⟨?_, ?_, ?_, ?_⟩ <;> decide +kernel

/-- A state and operands that meet every hypothesis of `Obligations.Sequence_requests`. -/
theorem witness_Sequence_requests :
  (fun (s : State) (p : Packet) (i : Fin 64) (data : List Byte) => s.serves 0x90 p = true ∧ bodyOf p = by1 [i.val, 0,
    0, 0] ++ data ∧ data.length ≤ 4096 ∧ bit p.flags.toNat 3 = false ∧ s.segOf (s.ctxOf 0x90 p) = none ∧
    (sequencePackets data.length 4 data).toBool = true) asIntegrator (sessionPacket 0 0 0 4 (by1 [63, 0, 0, 0] ++
    request 0)) 63 (request 0) ∧
  (fun (s : State) (p : Packet) (i : Fin 64) (a : Nat) (l : List Req) => s.serves 0x91 p = true ∧ bodyOf p = by1
    [i.val, 0, 0, 0] ∧ s.sequence i = (a, l) ∧ l.all nopStep = true ∧ s.hid.cmd.runSeg = none) (withCmd (fun c =>
    { c with seqs := [(63, ⟨2, request 0 ++ request 0⟩)] }) asOperator) (sessionPacket 0 0 0 4 (by1 [63, 0, 0, 0])) 63
    2 ([packetOf .sequence (request 0), packetOf .sequence (request 0)]) ∧
  (fun (s : State) (p : Packet) (i : Fin 64) (a : Nat) (l : List Req) (l2 : List Req) (r : Req) (x : Ans) => s.serves
    0x91 p = true ∧ bodyOf p = by1 [i.val, 0, 0, 0] ∧ s.sequence i = (a, l ++ r :: l2) ∧ l.all nopStep = true ∧
    s.hid.cmd.runSeg = none ∧ accessBad ⟨r.op, min (s.ctxOf 0x91 p).auth a, p.session.toNat, 0x30, 0⟩
    { r.p with session := p.session } (bodyOf r.p) = some x) (withCmd (fun c =>
    { c with seqs := [(63, ⟨2, request 0 ++ request 0x30⟩)] }) asOperator) (sessionPacket 0 0 0 4 (by1 [63, 0, 0, 0]))
    63 2 ([packetOf .sequence (request 0)]) ([]) (packetOf .sequence (request 0x30)) (refuse 0x0106 0) := by
  refine ⟨?_, ?_, ?_⟩ <;> decide +kernel

/-- A state and operands that meet every hypothesis of `Obligations.Spare_and_memory_requests`. -/
theorem witness_Spare_and_memory_requests :
  (fun (s : State) (p : Packet) (unit : Nat) (spare : Nat) (ball : Bool) => s.serves 0x80 p = true ∧ bodyOf p =
    leBytes 2 unit ++ leBytes 2 (spare + 32768 * b2n ball) ∧ unit < 144 ∧ s.chGroup unit < 32 ∧ isSpareChannel unit =
    false ∧ spareKindOk unit spare = true ∧ s.spareFree spare = true ∧ (isDriver unit && !ball && bit (s.f
    GDR.DRV_FAILED.PAIRS) ((unit - 96) / 2)) = false ∧ ((s.gst (s.chGroup unit) = .off ∨ s.gst (s.chGroup unit) =
    .configured) ∧ s.hid.trp.hand = none ∧ s.present 0 = true)) (withGroups [(3, { st := .configured })] (tabs [(0x30,
    40, 3), (0x30, 41, 2), (0x30, 42, 0), (0x30, 43, 0)] asIntegrator)) (sessionPacket 0 0 0 4 [5, 0, 90, 0]) 5 90
    false ∧
  (fun (s : State) (p : Packet) (unit : Nat) (spare : Nat) (ball : Bool) => s.serves 0x80 p = true ∧ bodyOf p =
    leBytes 2 unit ++ leBytes 2 (spare + 32768 * b2n ball) ∧ unit < 144 ∧ s.chGroup unit < 32 ∧ isSpareChannel unit =
    false ∧ spareKindOk unit spare = true ∧ s.spareFree spare = true ∧ (isDriver unit && !ball && bit (s.f
    GDR.DRV_FAILED.PAIRS) ((unit - 96) / 2)) = false ∧ s.active (s.chGroup unit) = true ∧ s.hid.trp.hand = none ∧
    s.present 0 = true) (withSession authIntegrator running) (sessionPacket 0 0 0 4 [5, 0, 95, 128]) 5 95 true ∧
  (fun (s : State) (p : Packet) (unit : Nat) (spare : Nat) (ball : Bool) => s.serves 0x80 p = true ∧ bodyOf p =
    leBytes 2 unit ++ [0xFF, 0] ∧ unit < 144 ∧ s.hid.trp.spares = [(spare, .inUse unit ball)] ∧ (s.chGroup unit < 32 ∧
    (s.gst (s.chGroup unit) = .off ∨ s.gst (s.chGroup unit) = .configured)))
    ({ tabs [(0x30, 40, 3), (0x30, 41, 2), (0x30, 42, 0), (0x30, 43, 0), (0x30, 46, 8)] asIntegrator with hid := { asIntegrator.hid with trp := { asIntegrator.hid.trp with spares := [(90, .inUse 5 true)] } } })
    (sessionPacket 0 0 0 4 [5, 0, 0xFF, 0]) 5 90 true ∧
  (fun (s : State) (p : Packet) (a : Nat) (n : Nat) => s.serves 0xA0 p = true ∧ bodyOf p = leBytes 4 a ++ leBytes 4 n
    ∧ a % 1024 = 0 ∧ a < 0x02000000 ∧ 0 < n ∧ a / 1024 + n ≤ 32768 ∧ s.hid.mem.scrub = none ∧ s.present 11 = true)
    asOperator (sessionPacket 0 0 0 4 (leBytes 4 1024 ++ leBytes 4 32767)) 1024 32767 ∧
  (fun (s : State) (p : Packet) (q : Nat) => s.serves 0xA1 p = true ∧ bodyOf p = leBytes 4 q ∧ s.retireRefusal q =
    none ∧ s.hid.mem.bad.contains q = false ∧ s.hid.mem.poison.contains q = false ∧ s.hid.mem.merge = []) (set
    [(MEM.STATUS.SPARE_FREE, 9)] asIntegrator) (sessionPacket 0 0 0 4 (leBytes 4 32767)) 32767 ∧
  (fun (s : State) (p : Packet) (n : Nat) => s.serves 0xB0 p = true ∧ bodyOf p = by1 [n, 0, 0, 0] ∧ n ≤ 2 ∧
    s.splitAnswer n = none ∧ s.f LCY.THERM.STEP = 0) asIntegrator (sessionPacket 0 0 0 4 [2, 0, 0, 0]) 2 ∧
  (fun (s : State) (p : Packet) (n : Nat) => s.serves 0xB1 p = true ∧ bodyOf p = by1 [n, 0, 0, 0] ∧ n ≤ 2 ∧ s.chd n =
    2 ∧ s.findDue 0xB1 n = none) (set [(CHD.STATUS.CD2, 2)] asIntegrator) (sessionPacket 0 0 0 4 [2, 0, 0, 0]) 2 := by
  refine ⟨?_, ?_, ?_, ?_, ?_, ?_, ?_⟩ <;> decide +kernel

/-- A state and operands that meet every hypothesis of `Obligations.Lifecycle_and_meter_requests`. -/
theorem witness_Lifecycle_and_meter_requests :
  (fun (s : State) (p : Packet) (low : Bool) (n : Nat) => s.serves 0xC0 p = true ∧ bodyOf p = by1 [n, 0, 0, 0] ∧ n <
    256 ∧ s.advanceRefusal n low = none ∧ wipedRegions s.lcState n = []) (set [(LCY.STATE.STATE, 2)] asIntegrator)
    (sessionPacket 0 0 0 4 [3, 0, 0, 0]) true 3 ∧
  (fun (s : State) (p : Packet) (low : Bool) (n : Nat) => s.serves 0xC0 p = true ∧ bodyOf p = by1 [n, 0, 0, 0] ∧ n <
    256 ∧ s.advanceRefusal n low = none ∧ wipedRegions s.lcState n ≠ []) asIntegrator (sessionPacket 0 0 0 4 [1, 0, 0,
    0]) true 1 ∧
  (fun (s : State) (p : Packet) (k : Nat) => s.serves 0xD0 p = true ∧ hdrKind (bodyOf p) = some k ∧ k = fwImage
    (s.ctxOf 0xD0 p).auth ∧ s.fwBeginRefusal (bodyOf p) = none) (set [(SYS.STATUS.RECOVERY, 0)] asIntegrator)
    (sessionPacket 0 0 0 4 (by1 [0x49, 0x41, 0x4C, 0x46, 1, 0, 0, 0, 9, 0, 0, 0, 0, 4, 0, 0] ++ List.replicate 64 0))
    0 ∧
  (fun (s : State) (p : Packet) (u : FwUpd) (o : Nat) (data : List Byte) => s.serves 0xD1 p = true ∧ bodyOf p =
    leBytes 4 o ++ data ∧ bit p.flags.toNat 3 = false ∧ s.segOf (s.ctxOf 0xD1 p) = none ∧ o + data.length ≤ hdrN
    u.header 12 4 ∧ sget? s.hid.lcy.upd (fwImage (s.ctxOf 0xD1 p).auth) = some u ∧ u.sig = none ∧ s.lcState ≠ 4)
    (withUpd 0 ⟨1, by1 [0x49, 0x41, 0x4C, 0x46, 1, 0, 0, 0, 9, 0, 0, 0, 0, 4, 0, 0], 0, none, false, none⟩
    asIntegrator) (sessionPacket 0 0 0 4 [8, 0, 0, 0, 1, 2, 3]) (⟨1, by1 [0x49, 0x41, 0x4C, 0x46, 1, 0, 0, 0, 9, 0, 0,
    0, 0, 4, 0, 0], 0, none, false, none⟩) 8 ([1, 2, 3]) ∧
  (fun (s : State) (p : Packet) (u : FwUpd) (sig : List Byte) (live : Bool) => s.serves 0xD2 p = true ∧ bodyOf p = sig
    ++ by1 [b2n live, 0, 0, 0] ∧ sig.length = 64 ∧ sget? s.hid.lcy.upd (fwImage (s.ctxOf 0xD2 p).auth) = some u ∧
    u.sig = none ∧ s.lcState ≠ 4) (withUpd 0 ⟨1, [], 0, none, false, none⟩ asIntegrator) (sessionPacket 0 0 0 4
    (List.replicate 64 9 ++ [1, 0, 0, 0])) (⟨1, [], 0, none, false, none⟩) (List.replicate 64 9) true ∧
  (fun (s : State) (p : Packet) (table : List Byte) => s.serves 0xE2 p = true ∧ s.present 8 = true ∧ bodyOf p = [0, 0,
    0, 0] ++ table ∧ s.sealRefusal table = none) (withMtr (fun m => { m with key := some 0 }) (set [(LCY.STATE.STATE,
    1)] asMetrology)) (sessionPacket 0 0 0 4 ([0, 0, 0, 0] ++ List.replicate 192 0)) (List.replicate 192 0) ∧
  (fun (s : State) (p : Packet) => s.serves 0xF0 p = true ∧ p.scope = 4) asIntegrator (sessionPacket 0 0 0 4 []) ∧
  (fun (s : State) (p : Packet) => s.serves 0xF0 p = true ∧ s.hid.lcy.refLost = false ∧ p.scope = 3 ∧ s.f
    (SYS.ISLAND.STATE p.inst.toNat) ≠ 0 ∧ p.inst ≠ 8) asOperator (sessionPacket 0 0 13 3 []) ∧
  (fun (s : State) (p : Packet) => s.serves 0xF0 p = true ∧ p.scope = 1) asOperator (sessionPacket 0 0 31 1 []) := by
  refine ⟨?_, ?_, ?_, ?_, ?_, ?_, ?_, ?_, ?_⟩ <;> decide +kernel

/-- A state and operands that meet every hypothesis of `Obligations.Resets_begin`. -/
theorem witness_Resets_begin :
  (fun (s : State) => (¬ (s.hid.lcy.held = true ∧ s.hid.lcy.cause = 3 ∧ ∃ m < 4, s.f (supplyOk m) = 0))) up ∧
  (fun (s : State) => s.hid.lcy.held = true ∧ s.hid.lcy.cause = 3 ∧ (∃ m < 4, s.f (supplyOk m) = 0)) (set
    [(LCY.SUPPLY.A_OK, 0)] { State.reset with hid := { State.reset.hid with lcy := { held := true, cause := 3 } } }) ∧
  (fun (s : State) (m : Fin 4) => s.f (supplyOk m) = 1) (set [(LCY.SUPPLY.A_OK, 1)] State.reset) 3 ∧
  (fun (s : State) => s.hid.lcy.held = false ∧ s.dev = 0) (set [(SYS.STATUS.DEV_STATE, 0)] up) ∧
  (fun (s : State) => s.hid.lcy.resetDue = true)
    ({ up with hid := { up.hid with lcy := { up.hid.lcy with resetDue := true } } }) ∧
  (fun (s : State) (ms : Nat) => s.dev = 6 ∧ 1000 ≤ ms) (set [(SYS.STATUS.DEV_STATE, 6)] up) 1000 ∧
  (fun (s : State) (at_ : Nat) => s.awake = true ∧ s.hid.lvp.longOpen = some at_ ∧ at_ + s.f LVP.BTN.BSW_OFF_MS ≤
    s.ms) (set [(LVP.BTN.BSW_OFF_MS, 0)]
    { up with hid := { up.hid with lvp := { up.hid.lvp with longOpen := some 0 } } }) 0 := by
  refine ⟨?_, ?_, ?_, ?_, ?_, ?_, ?_⟩ <;> decide +kernel

/-- A state and operands that meet every hypothesis of `Obligations.Boot_reaches_standby`. -/
theorem witness_Boot_reaches_standby :
  (fun (s : State) (b : BootIn) => b.wf = true ∧ b.resetN = true ∧ b.refOk = true ∧ b.testLow = true ∧ s.hid.lcy.held
    = true ∧ s.hid.lcy.resetSoon = false ∧ (∀ m < 4, s.f (supplyOk m) = 1) ∧ s.f SYS.STATUS.DEV_STATE = 0) (set
    [(LCY.SUPPLY.CORE_OK, 1), (LCY.SUPPLY.MEM_OK, 1), (LCY.SUPPLY.IO_OK, 1), (LCY.SUPPLY.A_OK, 1)] State.reset)
    ({ hostmode := true }) ∧
  (fun (s : State) (b : BootIn) => b.sramFails = [] ∧ b.recordsOk = true ∧ b.cd0Ok = true ∧ b.resetN = true ∧ b.refOk
    = true ∧ b.testLow = true ∧ s.hid.lcy.coreLost = false ∧ s.hid.lcy.held = true ∧ s.hid.lcy.resetSoon = false ∧ (∀
    m < 4, s.f (supplyOk m) = 1) ∧ s.f SYS.STATUS.DEV_STATE = 0 ∧ s.f (LCY.FW_STAT.SLOT_A 0) = 2 ∧ s.f
    (LCY.FW_STAT.SLOT_B 0) = 0 ∧ s.hid.mem.repair = [] ∧ s.hid.flg.chdFailed = [] ∧ s.rd CHD.STATUS = 0) (set
    [(LCY.SUPPLY.CORE_OK, 1), (LCY.SUPPLY.MEM_OK, 1), (LCY.SUPPLY.IO_OK, 1), (LCY.SUPPLY.A_OK, 1)] State.reset)
    ({ hostmode := true }) ∧
  (fun (s : State) => s.hid.lcy.held = false ∧ s.dev = 0 ∧ s.f MEM.STATUS.WIPE_PENDING = 0 ∧ s.f MEA.REF.INT_SETTLED =
    1 ∧ 64 ≤ s.f CMD.SEQ_AUTORUN.INDEX ∧ s.hid.lcy.fellBack = false) (set [(SYS.STATUS.DEV_STATE, 0),
    (MEA.REF.INT_SETTLED, 1), (CMD.SEQ_AUTORUN.INDEX, 64)] up) ∧
  (fun (s : State) => s.hid.lcy.held = false ∧ s.dev = 0 ∧ s.f MEM.STATUS.WIPE_PENDING = 0 ∧ s.f MEA.REF.INT_SETTLED =
    0) (set [(SYS.STATUS.DEV_STATE, 0)] up) := by
  refine ⟨?_, ?_, ?_, ?_⟩ <;> decide +kernel

/-- A state and operands that meet every hypothesis of `Obligations.Clock_and_link_faults`. -/
theorem witness_Clock_and_link_faults :
  (fun (s : State) => s.awake = true) up ∧
  (fun (s : State) => s.awake = true) up ∧
  (fun (s : State) => s.awake = true) up ∧
  (fun (s : State) (n : Fin 16) => s.awake = true ∧ s.quiet = true ∧ s.f (SYS.ISLAND.STATE n) = 1 ∧ s.hid.lcy.refLost
    = false) (set [(SYS.ISLAND.STATE 9, 1)] up) 9 := by
  refine ⟨?_, ?_, ?_, ?_⟩ <;> decide +kernel

/-- A state and operands that meet every hypothesis of `Obligations.Device_states_follow_groups`. -/
theorem witness_Device_states_follow_groups :
  (fun (s : State) => s.awake = true ∧ s.dev ≠ 0) up ∧
  (fun (s : State) (v : Via) => s.accepts v [(LCY.CMD, withBits (s.keepWord LCY.CMD) 31 28 1)] = true) (withSession
    authIntegrator (set [(LCY.STATE.STATE, 1)] up)) viaSession ∧
  (fun (s : State) (v : Via) => s.accepts v [(LCY.CMD, withBits (s.keepWord LCY.CMD) 31 28 2)] = true) (set
    [(SYS.STATUS.DEV_STATE, 5)] legacyUp) .legacy ∧
  (fun (s : State) => s.awake = true ∧ s.dev ≠ 0) up := by
  refine ⟨?_, ?_, ?_, ?_⟩ <;> decide +kernel

/-- A state and operands that meet every hypothesis of `Obligations.Chords_and_memory`. -/
theorem witness_Chords_and_memory :
  (fun (s : State) (n : Fin 3) => s.awake = true ∧ s.quiet = true ∧ (s.chd n = 0 ∨ s.chd n = 5) ∧ s.chd 0 = 0 ∧ s.chd
    1 ≠ 2 ∧ s.chd 2 ≠ 2) up 1 ∧
  (fun (s : State) (n : Fin 3) (ok : Bool) (time : Nat) => s.awake = true ∧ s.quiet = true ∧ s.chd n = 1 ∧ ok = true ∧
    time ≤ 3000) (set [(CHD.STATUS.CD2, 1)] up) 2 true 3000 ∧
  (fun (s : State) (n : Fin 3) (ok : Bool) (time : Nat) => s.awake = true ∧ s.quiet = true ∧ s.chd n = 1 ∧ (ok = false
    ∨ 3000 < time) ∧ (∀ m < 3, s.chd m ≠ 2)) (set [(CHD.STATUS.CD2, 1)] up) 2 true 3001 ∧
  (fun (s : State) (n : Fin 3) => s.awake = true ∧ s.quiet = true ∧ (s.chd n = 0 ∨ s.chd n = 5) ∧ s.chd 1 ≠ 2 ∧ s.chd
    2 ≠ 2 ∧ s.chd 1 ≠ 3 ∧ s.chd 2 ≠ 3) (withChord 1 { toSplit := true } up) 1 ∧
  (fun (s : State) (n : Fin 3) => s.awake = true ∧ s.quiet = true ∧ s.chd n = 2 ∧ (s.chord n).joining = true ∧
    (s.chord n).joinAt + 100 ≤ s.ms ∧ (s.hid.mem.scrub.map (fun x => x.chord) = some (some n.val))) (withScrub ⟨128,
    8, 0, 0, some 2⟩ (withChord 2 { joining := true } (set [(CHD.STATUS.CD2, 2), (MEM.STATUS.SCRUB_ACTIVE, 1)] (later
    100000 up)))) 2 ∧
  (fun (s : State) => s.awake = true ∧ s.present 11 = true) up ∧
  (fun (s : State) => s.awake = true ∧ s.present 11 = true) up ∧
  (fun (s : State) (x : MergeSlot) => s.awake = true ∧ s.present 11 = true ∧ s.mergeDue = some x ∧ min (x.last + 1000)
    (x.first + 2000) ≤ s.hid.now ∧ s.hid.mem.merge.length ≤ 8)
    ({ up with hid := { up.hid with now := 1003, mem := { up.hid.mem with merge := [⟨2560, 5, 5, []⟩, ⟨2561, 3, 3, []⟩] } } })
    (⟨2561, 3, 3, []⟩) ∧
  (fun (s : State) (finds : List PageFind) => finds.all PageFind.wf = true ∧ s.awake = true ∧ s.present 11 = true ∧
    s.quiet = true ∧ ((s.hid.mem.scrub.any fun x => x.read == x.count) = true)) (withScrub ⟨128, 1, 0, 1, none⟩ (set
    [(MEM.STATUS.SCRUB_ACTIVE, 1)] up)) ([⟨128, 1, 0, false⟩]) := by
  refine ⟨?_, ?_, ?_, ?_, ?_, ?_, ?_, ?_, ?_⟩ <;> decide +kernel

/-- A state and operands that meet every hypothesis of `Obligations.Firmware_and_life_cycle_end`. -/
theorem witness_Firmware_and_life_cycle_end :
  (fun (s : State) (k : Fin 2) (u : FwUpd) (sig : List Byte) => s.awake = true ∧ s.quiet = true ∧ sget? s.hid.lcy.upd
    k = some u ∧ u.sig = some sig ∧ u.slot < 2 ∧ sha256 ((s.slot k u.slot).image (hdrN u.header 12 4)) ≠
    (u.header.drop 16).take 32) (withUpd 1 ⟨1, [], 0, some [], false, none⟩ up) 1 (⟨1, [], 0, some [], false, none⟩)
    ([]) ∧
  (fun (s : State) (k : Fin 2) (u : FwUpd) (sig : List Byte) => s.awake = true ∧ s.quiet = true ∧ sget? s.hid.lcy.upd
    k = some u ∧ u.sig = some sig ∧ u.slot < 2 ∧ u.live = false ∧ sha256 ((s.slot k u.slot).image (hdrN u.header 12
    4)) = (u.header.drop 16).take 32) (withUpd 0 ⟨1, emptyImage, 0, some [], false, none⟩ up) 0 (⟨1, emptyImage, 0,
    some [], false, none⟩) ([]) ∧
  (fun (s : State) (i : Nat) => s.awake = true ∧ s.quiet = true ∧ s.hid.lcy.live = some i ∧ i < 2 ∧ s.liveDenied
    (s.slot 0 i).header = false ∧ s.chd 1 ≠ 1 ∧ s.chd 2 ≠ 1 ∧ s.present 13 = true ∧ s.present 14 = true)
    ({ up with hid := { up.hid with lcy := { up.hid.lcy with live := some 1, slots := [(0, { header := emptyImage }), (1, { header := emptyImage })] } } })
    1 ∧
  (fun (s : State) (k : Fin 2) (u : FwUpd) => s.awake = true ∧ s.quiet = true ∧ sget? s.hid.lcy.upd k = some u ∧ u.sig
    = none ∧ u.since + 10000000 ≤ s.hid.now) (later 10000000 (withUpd 1 ⟨1, [], 0, none, false, none⟩ up)) 1 (⟨1, [],
    0, none, false, none⟩) ∧
  (fun (s : State) (target : Nat) (session : Nat) (transport : Nat) => s.awake = true ∧ s.quiet = true ∧
    s.hid.lcy.trans = some (target, session, transport) ∧ s.f MEM.STATUS.WIPE_PENDING = 1 ∧ target < 5)
    ({ set [(MEM.STATUS.WIPE_PENDING, 1)] up with hid := { up.hid with lcy := { up.hid.lcy with trans := some (1, 2, 3) } } })
    1 2 3 ∧
  (fun (s : State) (page : Fin 32768) (x : Nat × Nat × Nat) => s.awake = true ∧ s.quiet = true ∧ s.hid.lcy.trans =
    some x ∧ s.f MEM.STATUS.WIPE_PENDING = 1 ∧ (wipedRegions s.lcState x.1).contains (regionOf page) = true)
    ({ set [(MEM.STATUS.WIPE_PENDING, 1)] up with hid := { up.hid with lcy := { up.hid.lcy with trans := some (1, 2, 3) } } })
    6143 ((1, 2, 3)) ∧
  (fun (s : State) => s.awake = true ∧ s.present 8 = true ∧ s.hid.mtr.key = none ∧ s.lcState = 1 ∧ s.f
    MTR.STATUS.REG_FAULT = 0 ∧ s.f MTR.LAST.RSEQ - s.f MTR.ACK.RSEQ < 16384) (set [(LCY.STATE.STATE, 1)] up) := by
  refine ⟨?_, ?_, ?_, ?_, ?_, ?_, ?_⟩ <;> decide +kernel

/-- A state and operands that meet every hypothesis of `Obligations.Timebases`. -/
theorem witness_Timebases :
  (fun (s : State) (v : Via) (mask : BitVec 16) => s.accepts v [(PLS.TB_START, mask.setWidth 32)] = true) legacyUp
    .legacy 0x8001 ∧
  (fun (s : State) (v : Via) (k : Fin 16) => s.accepts v [(PLS.TB_CFG k, withBits (s.keepWord (PLS.TB_CFG k)) 31 31
    0)] = true ∧ s.f (PLS.TB_CFG.RUN k) = 1) (set [(PLS.TB_CFG.RUN 15, 1)] legacyUp) .legacy 15 ∧
  (fun (s : State) (k : Fin 16) (pos : Fin 16777216) => s.awake = true ∧ s.present 0 = true ∧ s.tbRuns k = true ∧
    s.tbMode k = 2 ∧ pos.val + 1 < s.tbP k) (set [(PLS.TB_CFG.RUN 15, 1), (PLS.TB_SYNC.MODE 15, 2),
    (PLS.TB_SYNC.MASTER 15, 0)] up) 15 7 ∧
  (fun (s : State) (k : Fin 16) => s.awake = true ∧ s.present 0 = true ∧ s.quiet = true ∧ s.tbRuns k = true ∧ s.f
    (PLS.TB_CFG.RELOAD_DIV k) = 0 ∧ s.f (PLS.TB_CFG.DOUBLE k) = 0 ∧ s.hid.trp.hand = none) (withGroups [(3,
    { st := .armed })] (withChans [(5, { rel := some (64, 128) })] running)) 2 ∧
  (fun (s : State) (k : Fin 16) => s.awake = true ∧ s.present 0 = true ∧ s.tbRuns k = true) (set [(PLS.GRP_CFG.OWNER
    3, 8)] running) 2 ∧
  (fun (s : State) (k : Fin 16) (j : Fin 4) => s.awake = true ∧ s.present 0 = true ∧ s.tbRuns k = true ∧ s.f
    (PLS.TRG_CFG.EN k j) = 1 ∧ s.f (PLS.TRG_CFG.MODE k j) = 0 ∧ (s.tbase k).pos ≤ (s.trg (4 * k + j)).posAct ∧
    s.winStart k ≤ (s.trg (4 * k + j)).posAct ∧ (s.trg (4 * k + j)).posAct < s.winEnd k ∧ (s.trg (4 * k +
    j)).now.fired = false) (set [(PLS.TRG_CFG.EN 2 3, 1)] running) 2 3 ∧
  (fun (s : State) (k : Fin 16) (j : Fin 4) (n : Nat) => s.awake = true ∧ s.present 0 = true ∧ s.tbRuns k = true ∧ s.f
    (PLS.TRG_CFG.EN k j) = 1 ∧ s.f (PLS.TRG_CFG.MODE k j) ≠ 0 ∧ s.f (PLS.TB_CFG.DOUBLE k) = 0 ∧ (s.trg (4 * k +
    j)).now.place = .inWindow n ∧ (s.trg (4 * k + j)).now.fired = false) (withTrg 11
    { now := { place := .inWindow 9 } } (set [(PLS.TRG_CFG.EN 2 3, 1), (PLS.TRG_CFG.MODE 2 3, 1)] running)) 2 3 9 := by
  refine ⟨?_, ?_, ?_, ?_, ?_, ?_, ?_⟩ <;> decide +kernel

/-- A state and operands that meet every hypothesis of `Obligations.Edges_and_pulses`. -/
theorem witness_Edges_and_pulses :
  (fun (s : State) (k : Fin 16) (pos : Fin 16777216) (c : Fin 96) => s.awake = true ∧ s.present 0 = true ∧ s.tbRuns k
    = true ∧ s.winStart k ≤ pos ∧ pos < s.winEnd k ∧ (s.tbase k).pos ≤ pos ∧ s.hid.trp.hand = none ∧ s.chGroup c < 32
    ∧ s.chTb c = k ∧ s.followed c = true ∧ (s.chan c).gen = false ∧ (s.chan c).bstOff = false ∧ (s.chan c).moved =
    none ∧ (s.chan c).genOff = none ∧ (s.chan c).refresh = [] ∧ (s.chan c).due = [] ∧ (s.chan c).sink = false ∧
    (s.chan c).skip = none ∧ s.rd (PLS.RISE_ACT c) ≠ never ∧ coarse (s.rd (PLS.RISE_ACT c)) = pos ∧ s.rd (PLS.FALL_ACT
    c) = never ∧ s.setsOf c = [] ∧ s.cbcCells c = []) (set [(PLS.RISE_ACT.COARSE 5, 100), (PLS.FALL_ACT.COARSE 5,
    0xFFFFFF), (PLS.FALL_ACT.FINE 5, 63)] running) 2 100 5 ∧
  (fun (s : State) (k : Fin 16) (pos : Fin 16777216) (c : Fin 96) => s.awake = true ∧ s.present 0 = true ∧ s.tbRuns k
    = true ∧ s.winStart k ≤ pos ∧ pos < s.winEnd k ∧ (s.tbase k).pos ≤ pos ∧ s.hid.trp.hand = none ∧ s.chGroup c < 32
    ∧ s.chTb c = k ∧ s.followed c = true ∧ (s.chan c).gen = true ∧ (s.chan c).on = true ∧ (s.chan c).moved = none ∧
    s.rd (PLS.FALL_ACT c) ≠ never ∧ coarse (s.rd (PLS.FALL_ACT c)) = pos ∧ s.rd (PLS.RISE_ACT c) = never ∧ (s.chan
    c).refresh = [] ∧ (s.chan c).due = []) (withChans [(5, { on := true, gen := true })] (set [(PLS.FALL_ACT.COARSE 5,
    100), (PLS.RISE_ACT.COARSE 5, 0xFFFFFF), (PLS.RISE_ACT.FINE 5, 63)] running)) 2 100 5 ∧
  (fun (s : State) (c : Fin 72) (at_ : Nat) => s.awake = true ∧ c.val % 9 ≠ 8 ∧ s.cellEn c = true ∧ s.cellRoute c = 3
    ∧ s.cellTarget c % 256 < 144 ∧ (s.chan (s.cellTarget c % 256)).on = true ∧ s.active (s.chGroup (s.cellTarget c %
    256)) = true ∧ s.hid.pls.forced.contains (s.chGroup (s.cellTarget c % 256)) = false ∧ s.f (TRP.CELL_STAT.BLANKED
    c) = 0 ∧ s.rampThr c at_ * 4000 < s.cellOut c * 256) (withCell 70 { vp := 500000 } (tabs [(0x40, 1402, 128),
    (0x40, 1403, 3), (0x40, 1404, 100), (0x40, 1408, 5), (0x40, 1413, 255)] (withChans [(5,
    { on := true, gen := true })] running))) 70 640 ∧
  (fun (s : State) (p : Fin 24) (c : Nat) => s.awake = true ∧ s.present 0 = true ∧ s.f (GDR.DRV_CFG.BOOT_EN p) = 1 ∧
    s.ofCell (96 + 2 * p) = some c ∧ s.gst (s.chGroup c) = .running ∧ s.f (GDR.DRV_CFG.REFRESH_INT p) ≤ mget 0
    s.hid.trp.starved p) (set [(GDR.DRV_CFG.BOOT_EN 0, 1), (GDR.DRV_CFG.REFRESH_INT 0, 0)] driver) 0 96 ∧
  (fun (s : State) (p : Fin 24) (c : Nat) => s.awake = true ∧ s.ofCell (96 + 2 * p) = some c) (set
    [(GDR.DRV_CFG.BOOT_EN 0, 1)] driver) 0 96 := by
  refine ⟨?_, ?_, ?_, ?_, ?_⟩ <;> decide +kernel

/-- A state and operands that meet every hypothesis of `Obligations.Delay_lines_and_duplicates`. -/
theorem witness_Delay_lines_and_duplicates :
  (fun (s : State) (b : Fin 9) (e : Nat) => s.awake = true ∧ s.present 0 = true ∧ 80 ≤ e ∧ e ≤ 150 ∧ (((s.cal
    b).prev.all fun q => decide (e ≤ q + 4) && decide (q ≤ e + 4)) = true)) up 8 150 ∧
  (fun (s : State) (e : Nat) => s.awake = true ∧ s.present 0 = true ∧ (e < 80 ∨ 150 < e)) up 79 ∧
  (fun (s : State) (i : Fin 48) (g : Fin 32) => s.awake = true ∧ s.present 0 = true ∧ s.delayOwners (.deadTime i) =
    [g.val] ∧ s.active g = true) (tabs [(0x31, 564, 5), (0x31, 565, 0)] running) 47 3 ∧
  (fun (s : State) => s.awake = true ∧ s.present 0 = true) up ∧
  (fun (s : State) => s.awake = true ∧ s.present 0 = true) up ∧
  (fun (s : State) => s.awake = true) up := by
  refine ⟨?_, ?_, ?_, ?_, ?_, ?_⟩ <;> decide +kernel

/-- A state and operands that meet every hypothesis of `Obligations.Comparator_cells_trip`. -/
theorem witness_Comparator_cells_trip :
  (fun (s : State) (c : Fin 72) (vp : Int) (vn : Int) (out : Int) => s.awake = true ∧ c.val % 9 ≠ 8 ∧ s.cellEn c =
    true ∧ s.cellMode c = 0 ∧ (out = clampI 0 4092000 (if (s.tb 0x40 (20 * c + 1)).toNat = 0xFF then s.cellGain c * vp
    else 2048000 + s.cellGain c * (vp - vn)))) (tabs [(0x40, 1401, 0xFF)] (cellOn 1 running)) 70 400001 0 400001 ∧
  (fun (s : State) (c : Fin 72) (vp : Int) (vn : Int) (g : Fin 32) => s.awake = true ∧ c.val % 9 ≠ 8 ∧ s.cellEn c =
    true ∧ s.cellMode c = 0 ∧ ((s.cellHi c : Int) * 4000 < clampI 0 4092000 (if (s.tb 0x40 (20 * c + 1)).toNat = 0xFF
    then s.cellGain c * vp else 2048000 + s.cellGain c * (vp - vn))) ∧ s.f (TRP.CELL_STAT.IN_TRIP c) = 0 ∧ s.f
    (TRP.CELL_STAT.BLANKED c) = 0 ∧ s.cellRoute c = 1 ∧ g.val ∈ s.cellSel c ∧ s.active g = true) (cellOn 1 running) 70
    400001 0 3 ∧
  (fun (s : State) (c : Fin 72) (n : Nat) (g : Fin 32) => s.awake = true ∧ s.present 0 = true ∧ c.val % 9 ≠ 8 ∧
    s.cellEn c = true ∧ s.cellRoute c = 2 ∧ s.f (TRP.CELL_STAT.IN_TRIP c) = 1 ∧ s.f (TRP.CELL_STAT.BLANKED c) = 0 ∧ 0
    < n ∧ s.filtLen c ≤ (s.cell c).count + n ∧ g.val ∈ s.cellSel c ∧ s.active g = true) (set [(TRP.CELL_STAT.IN_TRIP
    70, 1)] (cellOn 6 running)) 70 255 3 ∧
  (fun (s : State) (c : Fin 72) (g : Fin 32) => s.awake = true ∧ s.f (TRP.CELL_STAT.BLANKED c) = 1 ∧ s.f
    (TRP.CELL_STAT.IN_TRIP c) = 1 ∧ s.cellEn c = true ∧ (s.cell c).acted = false ∧ s.cellRoute c = 1 ∧ g.val ∈
    s.cellSel c ∧ s.active g = true) (set [(TRP.CELL_STAT.IN_TRIP 70, 1), (TRP.CELL_STAT.BLANKED 70, 1)] (cellOn 1
    running)) 70 3 ∧
  (fun (s : State) (v : Via) (c : Fin 72) (w : Word) => s.accepts v [(TRP.THR c, w)] = true) legacyUp .legacy 70
    0x00200010 ∧
  (fun (s : State) (v : Via) (g : Fin 32) => s.accepts v [(TRP.GRP_TRIP g, withBits (s.keepWord (TRP.GRP_TRIP g)) 31
    31 1)] = true) (set [(TRP.GRP_TRIP.LATCH 31, 1)] legacyUp) .legacy 31 := by
  refine ⟨?_, ?_, ?_, ?_, ?_, ?_⟩ <;> decide +kernel

/-- A state and operands that meet every hypothesis of `Obligations.Rotation_and_self_tests`. -/
theorem witness_Rotation_and_self_tests :
  (fun (s : State) (b : Fin 8) (r : SlotResult) => s.awake = true ∧ s.present 7 = true ∧ s.f (TRP.BANK_STAT.ROT_ACTIVE
    b) = 1 ∧ (s.bank b).testing = false ∧ ({} : TestCfg).fails r.spare = none ∧ (s.testCfg (9 * b.val + (s.bank
    b).slot)).fails r.pos = none) (set [(TRP.BANK_STAT.ROT_ACTIVE 7, 1)] up) 7 (⟨passing {}, passing (up.testCfg 63)⟩) ∧
  (fun (s : State) (b : Fin 8) (r : SlotResult) => (({} : TestCfg).fails r.spare ≠ none ∨ (s.testCfg (9 * b.val +
    (s.bank b).slot)).fails r.pos ≠ none) ∧ s.awake = true ∧ s.present 7 = true ∧ s.f (TRP.BANK_STAT.ROT_ACTIVE b) = 1
    ∧ (s.bank b).testing = false ∧ (s.bank b).slot < 8) (set [(TRP.BANK_STAT.ROT_ACTIVE 7, 1)] up) 7 (⟨passing {},
    { passing (up.testCfg 63) with seen := true }⟩) ∧
  (fun (s : State) (b : Fin 8) => s.awake = true ∧ s.present 7 = true ∧ s.f (TRP.BANK_STAT.ROT_ACTIVE b) = 1 ∧ (s.bank
    b).testing = false) (set [(TRP.BANK_STAT.ROT_ACTIVE 7, 1)] up) 7 ∧
  (fun (s : State) (r : TestResult) (b : Fin 8) => r.wf = true ∧ r.test = 0x0400 + b.val ∧ s.awake = true ∧ s.quiet =
    true ∧ s.findDue 0x50 (0x0400 + b) ≠ none ∧ s.f (TRP.BANK_STAT.FAILED b) = 0 ∧ (s.bank b).serves = none ∧
    (((List.range 9).all fun k => (r.cells[k]?).all fun x => ((if k < 8 then s.testCfg (9 * b.val + k) else {}).fails
    x).isNone) = true)) (withDue 0x50 0x0407 up) (⟨0x0407, (List.range 8).map (fun k => passing (up.testCfg (63 + k)))
    ++ [passing {}], []⟩) 7 ∧
  (fun (s : State) (r : TestResult) (g : Fin 32) => r.wf = true ∧ r.test = 0x0500 + g.val ∧ s.awake = true ∧ s.quiet =
    true ∧ s.findDue 0x50 (0x0500 + g) ≠ none) (withDue 0x50 0x0503 driver) (⟨0x0503, [], List.replicate 24 ⟨true,
    false, 0, 8000, false, false⟩⟩) 3 := by
  refine ⟨?_, ?_, ?_, ?_, ?_⟩ <;> decide +kernel

/-- A state and operands that meet every hypothesis of `Obligations.Gate_drive_faults`. -/
theorem witness_Gate_drive_faults :
  (fun (s : State) (p : Fin 24) (mv : Nat) (at_ : Nat) (c : Nat) => s.awake = true ∧ s.f (GDR.DRV_CFG.SC_EN p) = 1 ∧
    50 * (s.f (GDR.DRV_CFG.SC_THR p) + 1) < mv ∧ s.ofCell (97 + 2 * p) = some c ∧ (s.chan c).on = true ∧ (s.chan
    c).onAt + (9 + s.f (GDR.DRV_CFG.SC_BLANK p)) * 64 ≤ at_ ∧ s.hid.trp.short.contains p = false ∧ s.active (s.chGroup
    c) = true) (set [(GDR.DRV_CFG.SC_EN 0, 1)] driver) 0 1651 100000 97 ∧
  (fun (s : State) (k : Fin 48) (g : Fin 32) => s.awake = true ∧ s.f (GDR.FLT.ACTIVE k) = 0 ∧ g.val ∈ s.fltGroups k ∧
    s.active g = true) (tabs [(0x30, 46, 4)] running) 2 3 ∧
  (fun (s : State) (k : Fin 48) => s.awake = true ∧ s.f (GDR.FLT.ACTIVE k) = 0 ∧ s.fltGroups k = []) up 47 ∧
  (fun (s : State) => s.awake = true) up ∧
  (fun (s : State) => s.awake = true) (set [(GDR.RDY_CFG.EN 7, 1), (GDR.RDY_CFG.GROUP 7, 3)] running) ∧
  (fun (s : State) => s.awake = true ∧ s.f GDR.STATUS.VDRV_OK = 1) (set [(GDR.STATUS.VDRV_OK, 1)] driver) ∧
  (fun (s : State) => s.awake = true) up ∧
  (fun (s : State) (i : Fin 48) => s.awake = true ∧ s.ilkEn i = true) (tabs [(0x31, 574, 1)] up) 47 := by
  refine ⟨?_, ?_, ?_, ?_, ?_, ?_, ?_, ?_⟩ <;> decide +kernel

/-- A state and operands that meet every hypothesis of `Obligations.Conversions_and_references`. -/
theorem witness_Conversions_and_references :
  (fun (s : State) (k : Fin 8) (m : Fin 8) => s.awake = true ∧ s.present 7 = true ∧ s.quiet = true ∧ s.f (MEA.BIND.EN
    k m) = 1 ∧ s.f (MEA.CONV_STAT.BUSY k) = 0 ∧ s.f (MEA.CONV_STAT.FAILED k) = 0 ∧ s.hid.mea.subNext ≠ some k.val ∧
    s.hid.mea.relNext ≠ some k.val) (set [(MEA.BIND.EN 7 7, 1), (MEA.BIND.START 7 7, 31)] up) 7 7 ∧
  (fun (s : State) (k : Fin 8) (m : Fin 8) => s.awake = true ∧ s.present 7 = true ∧ s.quiet = true ∧ s.f (MEA.BIND.EN
    k m) = 1 ∧ s.f (MEA.CONV_STAT.BUSY k) = 1) (set [(MEA.BIND.EN 7 0, 1), (MEA.CONV_STAT.BUSY 7, 1)] up) 7 0 ∧
  (fun (s : State) (k : Fin 8) (vp : Int) (vn : Int) (vref : Nat) (delayed : Bool) (check : List Nat) (e : Fin 32)
    (trig : Nat) (suspect : Bool) => (⟨vp, vn, vref, delayed, .absent, check⟩ : Conversion).wf = true ∧ s.awake = true
    ∧ s.present 7 = true ∧ s.f (MEA.CONV_STAT.BUSY k) = 1 ∧ sget? s.hid.mea.runs k = some ⟨trig, e, suspect, .valid⟩ ∧
    bit (s.seqByte k e 2) 7 = true ∧ s.seqByte k e 1 = 0xFF ∧ 0 < vref ∧ 0 ≤ vp ∧ vp < 2 * vref) (withMea (fun x =>
    { x with runs := [(7, ⟨0, 31, false, .valid⟩)] }) (tabs [(0x57, 249, 255), (0x57, 250, 0x80), (0x57, 251, 255)]
    (set [(MEA.CONV_STAT.BUSY 7, 1)] up))) 7 1250000 0 1250000 true ([]) 31 0 false ∧
  (fun (s : State) (codes : List Nat) => (codes.length ≤ 32 ∧ (codes.all fun c => decide (c < 65536)) = true) ∧
    s.awake = true ∧ s.present 7 = true ∧ s.sa8Free = true ∧ s.hid.trp.rotating = true ∧ s.hid.mea.checkList = none ∧
    s.checkPasses codes = true) (tabs [(0x58, 2, 0x80), (0x58, 6, 255), (0x58, 7, 255)] (set [(MEA.SPARE.CHECK_SLOT,
    7)] { up with hid := { up.hid with trp := { up.hid.trp with rotating := true } } })) ([65535]) ∧
  (fun (s : State) (r : Fin 3) => s.awake = true ∧ s.present 7 = true ∧ (r.val = 0 ∨ (r.val = 1 ∧ s.f MEA.REF.EXT_EN =
    1) ∨ (r.val = 2 ∧ s.f MEA.REF.RATIO_EN = 1))) (set [(MEA.REF.RATIO_EN, 1)] up) 2 ∧
  (fun (s : State) (r : Fin 3) => s.awake = true ∧ s.present 7 = true ∧ s.refSettled r = true) (set
    [(MEA.REF.RATIO_EN, 1), (MEA.REF.RATIO_SETTLED, 1)] up) 2 ∧
  (fun (s : State) => s.awake = true) (withMea (fun x => { x with left := [(255, ⟨65535, true, 65536⟩)] }) up) := by
  refine ⟨?_, ?_, ?_, ?_, ?_, ?_, ?_⟩ <;> decide +kernel

/-- A state and operands that meet every hypothesis of `Obligations.Mains_and_subwindows`. -/
theorem witness_Mains_and_subwindows :
  (fun (s : State) (sums : List Int) => (sums.length = 16 ∧ (sums.all fun x => decide (x.natAbs < 8388608)) = true) ∧
    s.awake = true ∧ s.present 7 = true ∧ s.present 8 = true ∧ s.hid.mea.cut = none ∧ s.hid.mea.subIdx + 1 < subCount
    s.hid.mea.mains) (withMea (fun x => { x with pcEn := 0x8001, subIdx := 62 }) up) ([-40000, 1, 2, 3, 4, 5, 6, 7, 8,
    9, 10, 11, 12, 13, 14, 40000]) ∧
  (fun (s : State) (sums : List Int) => (sums.length = 16 ∧ (sums.all fun x => decide (x.natAbs < 8388608)) = true) ∧
    s.awake = true ∧ s.present 7 = true ∧ s.present 8 = true ∧ s.hid.mea.cut = none ∧ s.f MEA.MAINS.LOCKED = 0 ∧
    subCount s.hid.mea.mains ≤ s.hid.mea.subIdx + 1) (withMea (fun x => { x with pcEn := 0x8001, subIdx := 63 }) (set
    [(MEA.PC_CFG.EN 15, 1)] up)) ([-40000, 1, 2, 3, 4, 5, 6, 7, 8, 9, 10, 11, 12, 13, 14, 40000]) ∧
  (fun (s : State) (low : Int) (before : Int) (after : Int) (n : Nat) (prev : Nat) (t0 : Nat) (q : Nat) => s.awake =
    true ∧ s.present 7 = true ∧ bitsOf s.hid.mea.mains 31 31 = 1 ∧ bit s.hid.mea.pcEn (bitsOf s.hid.mea.mains 27 24) =
    true ∧ low ≤ -8 ∧ before < 0 ∧ 0 ≤ after ∧ s.f MEA.MAINS.LOCKED = 0 ∧ s.hid.mea.crossAt = some t0 ∧ q = (16 *
    ((s.hid.mea.subAt + n : Nat) : Int) - 512 - 16 * after / (after - before)).toNat - t0 ∧ 984640 ≤ q ∧ q ≤ 1422208 ∧
    s.hid.mea.prevP = some prev ∧ q * 100 ≤ prev * 101 ∧ prev * 99 ≤ q * 100 ∧ 3 ≤ s.hid.mea.lockN) (withMea (fun x =>
    { x with mains := 0x80000000, pcEn := 1, prevP := some 1422208, crossAt := some 0, lockN := 3 }) up) (-8) (-1) 0
    88920 1422208 0 1422208 ∧
  (fun (s : State) (low : Int) (before : Int) (after : Int) (n : Nat) (t0 : Nat) (q : Nat) => s.awake = true ∧
    s.present 7 = true ∧ bitsOf s.hid.mea.mains 31 31 = 1 ∧ bit s.hid.mea.pcEn (bitsOf s.hid.mea.mains 27 24) = true ∧
    low ≤ -8 ∧ before < 0 ∧ 0 ≤ after ∧ s.f MEA.MAINS.LOCKED = 1 ∧ s.hid.mea.crossAt = some t0 ∧ q = (16 *
    ((s.hid.mea.subAt + n : Nat) : Int) - 512 - 16 * after / (after - before)).toNat - t0 ∧ (q < 984640 ∨ 1422208 <
    q)) (withMea (fun x => { x with mains := 0x80000000, pcEn := 1, crossAt := some 1 }) (set [(MEA.MAINS.LOCKED, 1)]
    up)) (-8) (-1) 0 61572 1 984639 ∧
  (fun (s : State) => s.awake = true ∧ s.present 7 = true ∧ s.f MEA.MAINS.LOCKED = 1) (set [(MEA.MAINS.LOCKED, 1)] up) := by
  refine ⟨?_, ?_, ?_, ?_, ?_⟩ <;> decide +kernel

/-- A state and operands that meet every hypothesis of `Obligations.Lattice_evaluates_and_commits`. -/
theorem witness_Lattice_evaluates_and_commits :
  (fun (s : State) (n : Fin 8) (c : Fin 192) (g : Fin 32) => s.awake = true ∧ s.present 1 = true ∧ s.rgGroup n = some
    g.val ∧ (s.rg n).win ≠ (s.tbase (s.grpTb g)).wins ∧ (s.tbase (s.grpTb g)).marks.headD 0 < s.slotStamp (s.f
    (LAT.RG_CFG.START_SLOT n)) ∧ (s.rg n).saved = none ∧ s.buckRg n = false ∧ s.rgCells n = [c.val] ∧ s.dB c 3 = 0xFF
    ∧ s.feeder n c = none ∧ s.usable (s.dB c 2) (s.rg n).begun = none ∧ (s.lc c).init = false) (window (lattice 1
    running)) 7 191 3 ∧
  (fun (s : State) (n : Fin 8) (c : Fin 192) (g : Fin 32) (x : Nat) => s.awake = true ∧ s.present 1 = true ∧ s.rgGroup
    n = some g.val ∧ (s.rg n).win ≠ (s.tbase (s.grpTb g)).wins ∧ (s.tbase (s.grpTb g)).marks.headD 0 < s.slotStamp
    (s.f (LAT.RG_CFG.START_SLOT n)) ∧ (s.rg n).saved = none ∧ s.buckRg n = false ∧ s.rgCells n = [c.val] ∧ s.dB c 3 =
    0xFF ∧ s.feeder n c = none ∧ s.usable (s.dB c 2) (s.rg n).begun = some x) (withMea (fun x =>
    { x with usable := [(9, 5, 40000)] }) (window (lattice 1 running))) 7 191 3 40000 ∧
  (fun (s : State) (n : Fin 8) (g : Fin 32) => s.awake = true ∧ s.present 1 = true ∧ s.rgGroup n = some g.val ∧ s.f
    (LAT.RG_CFG.COMMIT n) = 1 ∧ (s.rg n).saved.isSome = true ∧ (s.rg n).win = (s.tbase (s.grpTb g)).wins ∧ ((s.grpTbs
    g).all (fun k => !(s.tbase k).late) = true) ∧ g.val ∉ s.hid.pls.committed) (withLat (fun x =>
    { x with rgs := [(7, { saved := some [], win := 1 })] }) (lattice 1 running)) 7 3 ∧
  (fun (s : State) (n : Fin 8) (g : Fin 32) (abandoned : Bool) => s.awake = true ∧ s.present 1 = true ∧ s.rgGroup n =
    some g.val ∧ s.f (LAT.RG_CFG.COMMIT n) = 1 ∧ (s.rg n).saved.isSome = true ∧ (s.rg n).win = (s.tbase (s.grpTb
    g)).wins ∧ (s.rg n).fresh = true ∧ abandoned = true) (withLat (fun x =>
    { x with rgs := [(7, { saved := some [], win := 1, fresh := true })] }) (lattice 1 running)) 7 3 true ∧
  (fun (s : State) (n : Fin 8) (g : Fin 32) (abandoned : Bool) => s.awake = true ∧ s.present 1 = true ∧ s.rgGroup n =
    some g.val ∧ s.f (LAT.RG_CFG.COMMIT n) = 1 ∧ (s.rg n).saved.isSome = true ∧ (s.rg n).win = (s.tbase (s.grpTb
    g)).wins ∧ (s.rg n).fresh = true ∧ s.buckRg n = false ∧ abandoned = false) (withLat (fun x =>
    { x with rgs := [(7, { saved := some [], win := 1, fresh := true })] }) (lattice 1 running)) 7 3 false ∧
  (fun (s : State) (v : Via) (c : Fin 192) (x : Word) => s.accepts v [(LAT.TARGET c, x)] = true) (withLat (fun x =>
    { x with cells := [(191, { init := true, rho := 5 })] }) (set [(LAT.RAMP.RATE 191, 77)] legacyUp)) .legacy 191
    0xFFFF0000 := by
  refine ⟨?_, ?_, ?_, ?_, ?_, ?_⟩ <;> decide +kernel

/-- A state and operands that meet every hypothesis of `Obligations.Field_engines_and_derating`. -/
theorem witness_Field_engines_and_derating :
  (fun (s : State) (m : Fin 2) (g : Fin 32) => s.awake = true ∧ s.present (2 + m.val) = true ∧ s.fldGroup m = some
    g.val ∧ (s.eng m).win ≠ (s.tbase (s.grpTb g)).wins ∧ s.anySince (s.fldSlots m) (s.eng m).begun = true ∧ (s.f
    (POS.OBS_STAT.ACTIVE m) ≠ 0 ∨ (s.pu (s.f (FLD.MCH_CFG.PU m))).latched.state ≠ 3) ∧ (s.eng m).base ≠ 2 ∧ fillSet
    ((s.fldCurrents m (s.eng m).begun).take 3) = none) (withMea (fun x => { x with stamp := [(5, 1)] }) (window (set
    [(FLD.MCH_CFG.EN 1, 1), (FLD.MCH_CFG.GROUP 1, 3), (PLS.GRP_CFG.OWNER 3, 2), (FLD.IN_SLOT0.A2 1, 5),
    (FLD.IN_SLOT0.A1 1, 6), (FLD.IN_SLOT0.B1 1, 6)] running))) 1 3 ∧
  (fun (s : State) (m : Fin 2) (g : Fin 32) (i1 : List Fl) (i2 : List Fl) (r1 : Nat) (r2 : Nat) (up_ : Fl) (lo : Fl)
    => s.awake = true ∧ s.present (2 + m.val) = true ∧ s.fldGroup m = some g.val ∧ (s.eng m).win ≠ (s.tbase (s.grpTb
    g)).wins ∧ s.anySince (s.fldSlots m) (s.eng m).begun = true ∧ s.f (POS.OBS_STAT.ACTIVE m) = 0 ∧ (s.pu (s.f
    (FLD.MCH_CFG.PU m))).latched.state ≠ 3 ∧ s.f (POS.OBS_STAT.CATCH m) = 0 ∧ s.f (POS.OBS_CFG.EN m) = 0 ∧ (s.eng
    m).base ≠ 2 ∧ fillSet ((s.fldCurrents m (s.eng m).begun).take 3) = some (i1, r1) ∧ fillSet ((s.fldCurrents m
    (s.eng m).begun).drop 3) = some (i2, r2) ∧ s.fldVolt m (s.f (FLD.IN_SLOT1.VUP m)) (s.linkMark g) = some up_ ∧
    s.fldVolt m (s.f (FLD.IN_SLOT1.VLO m)) (s.linkMark g) = some lo) fieldReady 1 3 (((fillSet
    ((fieldReady.fldCurrents 1 0).take 3)).getD ([], 0)).1) (((fillSet ((fieldReady.fldCurrents 1 0).drop 3)).getD
    ([], 0)).1) 0 0 (((fieldReady.fldVolt 1 6 0).getD Fl.zero)) (((fieldReady.fldVolt 1 7 0).getD Fl.zero)) ∧
  (fun (s : State) (v : Via) (m : Fin 2) (x : Word) => s.accepts v [(FLD.TQ_REQ m, x)] = true) legacyUp .legacy 1
    0xFFFFFF00 ∧
  (fun (s : State) => s.awake = true ∧ s.cd2Reads = true) up := by
  refine ⟨?_, ?_, ?_, ?_⟩ <;> decide +kernel

/-- A state and operands that meet every hypothesis of `Obligations.Dc_link_supervision`. -/
theorem witness_Dc_link_supervision :
  (fun (s : State) (code : Nat) => s.awake = true ∧ s.present 0 = true ∧ s.f DCL.CTRL.EN = 1 ∧ s.codeSince (s.f
    DCL.VSRC.SLOT) s.hid.dcl.seen = some code) (withMea (fun x => { x with stamp := [(255, 1)] }) (set [(DCL.CTRL.EN,
    1), (DCL.VSRC.SLOT, 255), (DCL.VSRC.V_GAIN, 1000), (⟨MEA.RESULT 255, 31, 0⟩, 50000), (DCL.LEVELS.L1, 700)] up))
    50000 ∧
  (fun (s : State) => s.awake = true ∧ s.present 0 = true ∧ s.f DCL.CTRL.EN = 1 ∧ s.hid.dcl.lost = false) (set
    [(DCL.CTRL.EN, 1), (DCL.STATUS.SENSE_OK, 1), (FLD.MCH_CFG.EN 1, 1)] up) ∧
  (fun (s : State) (x : ChopCheck) => s.awake = true ∧ s.present 0 = true ∧ s.f DCL.CTRL.EN = 1 ∧ s.f
    DCL.CHOP.CHK_CELL < 72 ∧ s.f DCL.CTRL.BRK_GROUP < 32 ∧ (((s.chans (s.f DCL.CTRL.BRK_GROUP)).any fun c => (s.chan
    c).on) = false) ∧ x = .offState ∧ s.f (TRP.CELL_STAT.OUT_LO (s.f DCL.CHOP.CHK_CELL)) = 0) (set [(DCL.CTRL.EN, 1),
    (DCL.CHOP.CHK_CELL, 71), (DCL.CTRL.BRK_GROUP, 31)] up) .offState ∧
  (fun (s : State) (v : Via) => s.accepts v [(DCL.STATUS, withBits (s.keepWord DCL.STATUS) 29 29 1)] = true) (set
    [(DCL.STATUS.CHOP_FAULTY, 1)] legacyUp) .legacy ∧
  (fun (s : State) (v : Via) => s.accepts v [(DCL.CTRL, withBits (s.keepWord DCL.CTRL) 29 29 1)] = true ∧ s.f
    DCL.CTRL.EN = 1 ∧ s.f DCL.CTRL.CHG_CELL < 72 ∧ (((s.cellSel (s.f DCL.CTRL.CHG_CELL)).any fun g => s.gst g ==
    .running) = true)) (set [(SYS.STATUS.HOSTMODE, 0), (DCL.CTRL.EN, 1), (DCL.CTRL.CHG_CELL, 70)] (cellOn 1 running))
    .legacy := by
  refine ⟨?_, ?_, ?_, ?_, ?_⟩ <;> decide +kernel

/-- A state and operands that meet every hypothesis of `Obligations.Position_units_decode`. -/
theorem witness_Position_units_decode :
  (fun (s : State) (k : Fin 6) (b : Bool) => s.awake = true ∧ s.present 6 = true ∧ ((if b then s.f
    (POS.PU_CFG.LATCH_B_EN k) else s.f (POS.PU_CFG.LATCH_A_EN k)) = 1)) (unit5 2 2 [(POS.PU_CFG.LATCH_B_EN 5, 1),
    (POS.SSI.NPOS 5, 12), (POS.SSI.NBITS 5, 13)] up) 5 true ∧
  (fun (s : State) (j : Fin 2) (c : Nat) (sn : Int) (cs : Int) => c < 16777216 ∧ s.awake = true ∧ s.present 6 = true ∧
    (s.puMode j = 1 ∧ (s.puState j = 1 ∨ s.puState j = 2)) ∧ (([s.f (POS.RES_SLOT.SIN_SLOT j), s.f
    (POS.RES_SLOT.COS_SLOT j)].any fun x => s.slotBad x || s.slotRefBad x) = false) ∧ (s.pu j).cosSeen < s.slotStamp
    (s.f (POS.RES_SLOT.SIN_SLOT j)) ∧ sn = (s.slotVal (s.f (POS.RES_SLOT.SIN_SLOT j)) : Int) - 0x8000 ∧ cs =
    (s.slotVal (s.f (POS.RES_SLOT.COS_SLOT j)) : Int) - 0x8000 ∧ (8 * s.f (POS.RES_LIM.AMP_LO j)) ^ 2 ≤ (sn * sn + cs
    * cs).toNat ∧ (sn * sn + cs * cs).toNat ≤ (8 * s.f (POS.RES_LIM.AMP_HI j)) ^ 2) (withMea (fun x =>
    { x with stamp := [(1, 3), (2, 4)] }) (set [(⟨MEA.RESULT 1, 31, 0⟩, 40000), (⟨MEA.RESULT 2, 31, 0⟩, 20000),
    (POS.PU_CFG.MODE 1, 1), (POS.PU_STAT.STATE 1, 2), (POS.RES_SLOT.SIN_SLOT 1, 1), (POS.RES_SLOT.COS_SLOT 1, 2),
    (POS.RES_LIM.AMP_LO 1, 100), (POS.RES_LIM.AMP_HI 1, 4000)] up)) 1 100 7232 (-12768) ∧
  (fun (s : State) (j : Fin 2) (c : Nat) => c < 16777216 ∧ s.awake = true ∧ s.present 6 = true ∧ (s.puMode j = 1 ∧
    (s.puState j = 1 ∨ s.puState j = 2)) ∧ (([s.f (POS.RES_SLOT.SIN_SLOT j), s.f (POS.RES_SLOT.COS_SLOT j)].any fun x
    => s.slotBad x || s.slotRefBad x) = true)) (set [(POS.PU_CFG.MODE 1, 1), (POS.PU_STAT.STATE 1, 2), (⟨MEA.RESULT 0,
    31, 0⟩, 0x00800000)] up) 1 16777215 ∧
  (fun (s : State) (j : Fin 2) => s.awake = true ∧ s.present 6 = true ∧ s.excRuns j = true) (set [(POS.PU_CFG.MODE 1,
    1), (POS.PU_STAT.STATE 1, 2), (PLS.TB_CFG.RUN 0, 1)] up) 1 ∧
  (fun (s : State) (k : Fin 6) (x : SsiWord) (p : Nat) => s.awake = true ∧ s.present 6 = true ∧ (s.pu k).word.isSome =
    true ∧ s.puMode k = 2 ∧ s.ssiPos k x = some p ∧ (s.puState k = 1 ∨ s.puState k = 2) ∧ (s.pu k).hasWord = false ∧
    (s.pu k).edges = [] ∧ s.f (POS.PU_CFG.SPD_EDGES k) ≠ 0) (withPos (fun x =>
    { x with units := [(5, { word := some 7 })] }) (unit5 2 1 [(POS.SSI.NPOS 5, 4), (POS.SSI.NBITS 5, 5),
    (POS.PU_CFG.SPD_EDGES 5, 1)] up)) 5 ({ bits := [true, false, true, true, false] }) 11 ∧
  (fun (s : State) (k : Fin 6) (x : SsiWord) => s.awake = true ∧ s.present 6 = true ∧ (s.pu k).word.isSome = true ∧
    (s.puState k = 1 ∨ s.puState k = 2) ∧ s.ssiPos k x = none) (withPos (fun x =>
    { x with units := [(5, { word := some 7 })] }) (unit5 2 1 [(POS.SSI.NPOS 5, 4), (POS.SSI.NBITS 5, 5),
    (POS.PU_CFG.SPD_EDGES 5, 1)] up)) 5 ({ idle := false, bits := [] }) ∧
  (fun (s : State) (k : Fin 6) (a : Bool) (b : Bool) (n : Nat) (dir : Int) => s.awake = true ∧ s.present 6 = true ∧
    (s.puMode k = 3 ∧ (s.puState k = 1 ∨ s.puState k = 2)) ∧ s.f (POS.PU_CFG.FILT k) + 1 ≤ n ∧ (s.pu k).vel = 0 ∧
    (s.pu k).late = [] ∧ ((dir = 1 ∧ (quadPlace a b + 4 - (s.pu k).level) % 4 = 1) ∨ (dir = -1 ∧ (quadPlace a b + 4 -
    (s.pu k).level) % 4 = 3))) (unit5 3 2 [(POS.PU_CFG.SPD_EDGES 5, 1), (POS.PU_CFG.FILT 5, 3)] up) 5 false true 4
    (-1) ∧
  (fun (s : State) (k : Fin 6) (a : Bool) (b : Bool) (n : Nat) => s.awake = true ∧ s.present 6 = true ∧ (s.puMode k =
    3 ∧ (s.puState k = 1 ∨ s.puState k = 2)) ∧ s.f (POS.PU_CFG.FILT k) + 1 ≤ n ∧ (s.pu k).vel = 0 ∧ (s.pu k).late = []
    ∧ (quadPlace a b + 4 - (s.pu k).level) % 4 = 2) (unit5 3 2 [] up) 5 true true 40 ∧
  (fun (s : State) (k : Fin 6) (n : Nat) => s.awake = true ∧ s.present 6 = true ∧ (s.puMode k = 3 ∧ (s.puState k = 1 ∨
    s.puState k = 2)) ∧ s.f (POS.PU_CFG.FILT k) + 1 ≤ n ∧ s.f (POS.QUAD.INDEX_GATE k) = 0 ∧ (s.f (POS.QUAD.INDEX_MODE
    k) = 3 ∨ (s.f (POS.QUAD.INDEX_MODE k) = 2 ∧ s.puState k = 1))) (unit5 3 1 [(POS.QUAD.INDEX_MODE 5, 2),
    (POS.QUAD.INDEX_VAL 5, 0x800001)] up) 5 40 ∧
  (fun (s : State) (k : Fin 6) (h_ : Fin 8) (n : Nat) => s.awake = true ∧ s.present 6 = true ∧ (s.puMode k = 4 ∧
    (s.puState k = 1 ∨ s.puState k = 2)) ∧ s.f (POS.PU_CFG.FILT k) + 1 ≤ n ∧ h_.val ≠ 0 ∧ h_.val ≠ 7 ∧ s.hallSector k
    h_ < 6 ∧ (s.pu k).sector = none) (unit5 4 1 [] up) 5 6 40 ∧
  (fun (s : State) (k : Fin 6) (h_ : Fin 8) (n : Nat) => s.awake = true ∧ s.present 6 = true ∧ (s.puMode k = 4 ∧
    (s.puState k = 1 ∨ s.puState k = 2)) ∧ s.f (POS.PU_CFG.FILT k) + 1 ≤ n ∧ (h_.val = 0 ∨ h_.val = 7)) (unit5 4 2 []
    up) 5 7 40 ∧
  (fun (s : State) (k : Fin 6) (at_ : Nat) => s.awake = true ∧ s.present 6 = true ∧ s.edgeMode k = true ∧ (s.puState k
    = 1 ∨ s.puState k = 2) ∧ s.zeroAt k < at_) (unit5 4 2 [(⟨POS.SPEED 5, 31, 0⟩, 5)] up) 5 51000001 := by
  refine ⟨?_, ?_, ?_, ?_, ?_, ?_, ?_, ?_, ?_, ?_, ?_, ?_⟩ <;> decide +kernel

/-- A state and operands that meet every hypothesis of `Obligations.Position_outputs_and_restarts`. -/
theorem witness_Position_outputs_and_restarts :
  (fun (s : State) (v : Via) (k : Fin 6) (u : Fin 8) (x : Word) => s.accepts v [(POS.PCMP_CFG k u, x)] = true ∧ bit
    x.toNat 31 = true ∧ s.puState k ≠ 2) (unit5 3 1 [] legacyUp) .legacy 5 7 0xC80000FF ∧
  (fun (s : State) (v : Via) (k : Fin 6) (u : Fin 8) (x : Word) => s.accepts v [(POS.PCMP_TGT k u, x)] = true ∧ s.f
    (POS.PCMP_CFG.ARM k u) = 0) legacyUp .legacy 5 7 0x00FFFFFF ∧
  (fun (s : State) (v : Via) (k : Fin 6) => s.accepts v [(POS.PU_STAT k, withBits (s.keepWord (POS.PU_STAT k)) 28 28
    1)] = true ∧ s.puState k = 3 ∧ (s.puMode k = 1 ∨ s.puMode k = 2 ∨ (s.puMode k = 4 ∧ s.hallLegal k (s.pu k).hall =
    false))) (unit5 1 3 [(⟨POS.SPEED 5, 31, 0⟩, 5)] legacyUp) .legacy 5 ∧
  (fun (s : State) (v : Via) (k : Fin 6) => s.accepts v [(POS.PU_STAT k, withBits (s.keepWord (POS.PU_STAT k)) 27 27
    1)] = true) (unit5 1 2 [(POS.PU_STAT.PT_FAULT 5, 1)] legacyUp) .legacy 5 ∧
  (fun (s : State) (k : Fin 6) => s.awake = true ∧ s.present 6 = true ∧ s.f (POS.PT_CFG.MODE k) = 3) (set
    [(POS.PT_CFG.MODE 5, 3)] up) 5 ∧
  (fun (s : State) (k : Fin 6) (at_ : Nat) => s.awake = true ∧ s.present 6 = true ∧ s.f (POS.PT_CFG.MODE k) = 2 ∧ s.f
    (POS.PU_STAT.PT_FAULT k) = 0 ∧ s.puState (s.f (POS.PT_CFG.SRC k)) ≠ 3 ∧ (s.pu (s.f (POS.PT_CFG.SRC k))).vel = 0 ∧
    (s.pu (s.f (POS.PT_CFG.SRC k))).late = [] ∧ (s.pt k).since + s.f (POS.PT_CFG.EMU_MIN k) ≤ at_ ∧ 0 < s.emuCount k -
    (s.pt k).emitted ∧ s.emuCount k - (s.pt k).emitted ≤ 4096) (withPos (fun x =>
    { x with units := [(0, { acc := 2 ^ 60 })] }) (set [(POS.PU_STAT.STATE 0, 2), (POS.PT_CFG.MODE 5, 2),
    (POS.PT_CFG.EMU_LINES 5, 16)] up)) 5 9 := by
  refine ⟨?_, ?_, ?_, ?_, ?_, ?_⟩ <;> decide +kernel

/-- A state and operands that meet every hypothesis of `Obligations.Actuators_and_lock_move`. -/
theorem witness_Actuators_and_lock_move :
  (fun (s : State) (v : Via) (a : Fin 4) (target : BitVec 24) => s.accepts v [(ACT.CMD a, 0x10000000 |||
    target.setWidth 32)] = true ∧ (s.actGroup a).isSome = true ∧ (s.act a).refing = false ∧ a.val ≠ 3) (set
    [(SYS.STATUS.HOSTMODE, 0)] (actReady running)) .legacy 2 0xFFFFF0 ∧
  (fun (s : State) (v : Via) (a : Fin 4) (target : BitVec 24) => s.accepts v [(ACT.CMD a, 0x10000000 |||
    target.setWidth 32)] = true ∧ a.val = 3 ∧ (s.actGroup a).isSome = true ∧ (s.act 3).phase = .off ∧ (s.act 3).refing
    = false ∧ s.actGoal 3 target.toNat ≠ 0) (set [(SYS.STATUS.HOSTMODE, 0), (ACT.CFG.EN 3, 1), (ACT.CFG.GROUP 3, 3)]
    (actReady running)) .legacy 3 0xFFFFF0 ∧
  (fun (s : State) (v : Via) (a : Fin 4) (target : BitVec 24) => s.accepts v [(ACT.CMD a, 0x10000000 |||
    target.setWidth 32)] = true ∧ (s.actGroup a).isSome = false) legacyUp .legacy 2 5 ∧
  (fun (s : State) (v : Via) (a : Fin 4) => s.accepts v [(ACT.CMD a, withBits (s.keepWord (ACT.CMD a)) 31 28 0)] =
    true ∧ (s.actGroup a).isSome = true ∧ s.f (ACT.STAT.STATE a) ≠ 3) (set [(SYS.STATUS.HOSTMODE, 0), (ACT.STAT.STATE
    2, 1)] (actReady running)) .legacy 2 ∧
  (fun (s : State) (v : Via) (a : Fin 4) => s.accepts v [(ACT.CMD a, withBits (s.keepWord (ACT.CMD a)) 31 28 0)] =
    true ∧ (s.actGroup a).isSome = false) legacyUp .legacy 2 ∧
  (fun (s : State) (a : Fin 4) => s.awake = true ∧ s.present 5 = true ∧ (s.actGroup a).isSome = true ∧ s.f
    (ACT.STAT.STATE a) = 1 ∧ (s.act a).refing = false ∧ (a.val = 1 ∨ a.val = 2)) (set [(ACT.STAT.STATE 2, 1)]
    (actReady running)) 2 ∧
  (fun (s : State) (a : Fin 4) => s.awake = true ∧ s.present 5 = true ∧ (s.actGroup a).isSome = true ∧ s.f
    (ACT.STAT.STATE a) = 1 ∧ (s.act a).refing = false ∧ a.val = 0) (set [(ACT.STAT.STATE 0, 1), (ACT.CFG.EN 0, 1),
    (ACT.CFG.GROUP 0, 3), (ACT.STAT.PARK 0, 2)] (actReady running)) 0 ∧
  (fun (s : State) (a : Fin 4) (g : Fin 32) => s.awake = true ∧ s.present 5 = true ∧ s.actGroup a = some g.val ∧
    (s.act a).win ≠ (s.tbase (s.grpTb g)).wins ∧ s.anySince [s.f (ACT.CFG.IU_SLOT a), s.f (ACT.SLOTS.IV_SLOT a), s.f
    (ACT.SLOTS.IW_SLOT a)] (s.act a).begun = true ∧ (s.act a).holding = false ∧ s.usable (s.f (ACT.CFG.VBUS_SLOT a))
    (s.linkMark g) = none) (withMea (fun x => { x with stamp := [(5, 1)] }) (set [(ACT.CFG.IU_SLOT 2, 5)] (actReady
    running))) 2 3 ∧
  (fun (s : State) (a : Fin 4) (g : Fin 32) => s.awake = true ∧ s.present 5 = true ∧ s.actGroup a = some g.val ∧
    (s.act a).win ≠ (s.tbase (s.grpTb g)).wins ∧ (s.act a).holding = false ∧ (s.act a).refing = false ∧ (s.act
    a).waits = none ∧ (s.act a).prev = none ∧ (s.usable (s.f (ACT.CFG.VBUS_SLOT a)) (s.linkMark g)).isSome = true ∧
    (([s.f (ACT.CFG.IU_SLOT a), s.f (ACT.SLOTS.IV_SLOT a), s.f (ACT.SLOTS.IW_SLOT a)].all fun r => (s.codeSince r
    (s.act a).begun).isSome) = true) ∧ s.f (ACT.STAT.STATE a) = 0 ∧ a.val ≠ 3) (withMea (fun x =>
    { x with stamp := [(5, 1)], usable := [(6, 1, 40000)] }) (set [(⟨MEA.RESULT 5, 31, 0⟩, 0x8000), (ACT.CFG.VBUS_SLOT
    2, 6), (ACT.CFG.IU_SLOT 2, 5), (ACT.SLOTS.IV_SLOT 2, 5), (ACT.SLOTS.IW_SLOT 2, 5)] (actReady running))) 2 3 ∧
  (fun (s : State) => s.awake = true ∧ s.present 5 = true ∧ (s.act 3).phase = .wait) (withAct (fun x =>
    { x with eng := [(3, { phase := .wait, target := -5 })] }) up) ∧
  (fun (s : State) (g : Fin 32) => s.awake = true ∧ s.present 5 = true ∧ s.cplGroup = some g.val ∧ s.hid.act.cplWin ≠
    (s.tbase (s.grpTb g)).wins ∧ s.hid.act.cplWaits = none ∧ ((s.grpTbs g).all (fun k => !(s.tbase k).late) = true) ∧
    g.val ∉ s.hid.pls.committed) (set [(ACT.CPL_STAT.STATE, 1)] (actReady running)) 3 ∧
  (fun (s : State) (v : Via) => s.accepts v [(ACT.CPL_CMD, withBits (s.keepWord ACT.CPL_CMD) 31 30 1)] = true ∧
    s.cplGroup.isSome = true ∧ s.f ACT.CPL_STAT.STATE ≠ 1 ∧ s.f ACT.CPL_STAT.STATE ≠ 2 ∧ s.hid.act.cplNext = none)
    (set [(SYS.STATUS.HOSTMODE, 0), (ACT.CPL_STAT.STATE, 4)] (actReady running)) .legacy ∧
  (fun (s : State) (v : Via) => s.accepts v [(ACT.CPL_CMD, withBits (s.keepWord ACT.CPL_CMD) 31 30 2)] = true ∧
    s.cplGroup.isSome = true ∧ s.f ACT.CPL_STAT.STATE ≠ 1 ∧ s.f ACT.CPL_STAT.STATE ≠ 2 ∧ s.hid.act.cplNext = none)
    (set [(SYS.STATUS.HOSTMODE, 0), (ACT.CPL_STAT.STATE, 3), (ACT.CPL_STAT.SW, 1)] (actReady running)) .legacy ∧
  (fun (s : State) (v : Via) => s.accepts v [(ACT.CPL_CMD, withBits (s.keepWord ACT.CPL_CMD) 31 30 0)] = true ∧
    s.cplGroup.isSome = true) (set [(SYS.STATUS.HOSTMODE, 0), (ACT.CPL_STAT.STATE, 1)] (actReady running)) .legacy ∧
  (fun (s : State) (cmd : Nat) => s.awake = true ∧ s.present 5 = true ∧ s.cplGroup.isSome = true ∧ s.hid.act.cplNext =
    some cmd ∧ (cmd = 1 ∨ cmd = 2)) (withAct (fun x => { x with cplNext := some 2 }) (actReady running)) 2 ∧
  (fun (s : State) (level : Bool) (sw : Bool) => s.awake = true ∧ s.present 5 = true ∧ sw = (level != (s.f
    ACT.CPL_CFG.SW_POL == 1))) (set [(ACT.CPL_STAT.STATE, 3), (ACT.CPL_STAT.SW, 1)] up) false false ∧
  (fun (s : State) => s.awake = true ∧ s.present 5 = true ∧ (s.f ACT.CPL_STAT.STATE = 1 ∨ s.f ACT.CPL_STAT.STATE = 2))
    (set [(ACT.CPL_STAT.STATE, 2)] up) := by
  refine ⟨?_, ?_, ?_, ?_, ?_, ?_, ?_, ?_, ?_, ?_, ?_, ?_, ?_, ?_, ?_, ?_, ?_⟩ <;> decide +kernel

/-- A state and operands that meet every hypothesis of `Obligations.Front_end_tracks_and_evaluates`. -/
theorem witness_Front_end_tracks_and_evaluates :
  (fun (s : State) => s.awake = true ∧ s.present 4 = true ∧ s.f FLD.AFE_CFG.EN = 1 ∧ s.owner (s.f FLD.AFE_CFG.GROUP) =
    3 ∧ s.gst (s.f FLD.AFE_CFG.GROUP) = .configured ∧ s.hid.afe.win ≠ (s.tbase (s.grpTb (s.f FLD.AFE_CFG.GROUP))).wins
    ∧ s.anySince [s.f FLD.AFE_SLOT.VA, s.f FLD.AFE_SLOT.VB, s.f FLD.AFE_SLOT.VC] s.hid.afe.begun = true) (withMea (fun
    x => { x with stamp := [(0, 1)] }) (window (withGroups [(3, { st := .configured })] (set [(FLD.AFE_SLOT.VA, 0),
    (FLD.AFE_CFG.EN, 1), (FLD.AFE_CFG.GROUP, 3), (PLS.GRP_CFG.OWNER 3, 3)] running)))) ∧
  (fun (s : State) (g : Fin 32) => s.awake = true ∧ s.present 4 = true ∧ s.f FLD.AFE_CFG.EN = 1 ∧ s.f
    FLD.AFE_CFG.GROUP = g ∧ s.owner g = 3 ∧ s.active g = true ∧ s.hid.afe.win ≠ (s.tbase (s.grpTb g)).wins ∧
    s.anySince [s.f FLD.AFE_ISLOT.IA, s.f FLD.AFE_ISLOT.IB, s.f FLD.AFE_ISLOT.IC, s.f FLD.AFE_ISLOT.IN]
    s.hid.afe.begun = true ∧ s.codeSince (s.f FLD.AFE_ISLOT.IA) s.hid.afe.begun = none ∧ s.codeSince (s.f
    FLD.AFE_ISLOT.IB) s.hid.afe.begun = none) (withMea (fun x => { x with stamp := [(5, 1)] }) (window (set
    [(FLD.AFE_ISLOT.IN, 5), (FLD.AFE_CFG.EN, 1), (FLD.AFE_CFG.GROUP, 3), (PLS.GRP_CFG.OWNER 3, 3)] running))) 3 ∧
  (fun (s : State) (g : Fin 32) => s.awake = true ∧ s.present 4 = true ∧ s.f FLD.AFE_CFG.EN = 1 ∧ s.f
    FLD.AFE_CFG.GROUP = g ∧ s.owner g = 3 ∧ s.gst g = .armed ∧ s.hid.afe.win ≠ (s.tbase (s.grpTb g)).wins ∧ (([s.f
    FLD.AFE_ISLOT.IA, s.f FLD.AFE_ISLOT.IB, s.f FLD.AFE_ISLOT.IC, s.f FLD.AFE_ISLOT.IN].all fun r => (s.codeSince r
    s.hid.afe.begun).isSome) = true) ∧ ((s.grpTbs g).all (fun k => !(s.tbase k).late) = true) ∧ g.val ∉
    s.hid.pls.committed) (withMea (fun x => { x with stamp := [(0, 1)] }) (window (withGroups [(3, { st := .armed })]
    (set [(⟨MEA.RESULT 0, 31, 0⟩, 0x8000), (FLD.AFE_CFG.EN, 1), (FLD.AFE_CFG.GROUP, 3), (PLS.GRP_CFG.OWNER 3, 3)]
    running)))) 3 := by
  refine ⟨?_, ?_, ?_⟩ <;> decide +kernel

/-- A state and operands that meet every hypothesis of `Obligations.Charging_session_steps`. -/
theorem witness_Charging_session_steps :
  (fun (s : State) (high : Int) (low : Int) (period : Nat) (duty : Nat) (n : Nat) => s.awake = true ∧ s.f CHG.CFG.EN =
    1 ∧ 8000 ≤ high ∧ high ≤ 10000 ∧ -13000 ≤ low ∧ low ≤ -11000 ∧ 980 ≤ period ∧ period ≤ 1020 ∧ 3 ≤ n ∧ 100 ≤ duty ∧
    duty ≤ 850 ∧ (s.f CHG.PILOT.STATE ≠ 1 ∨ s.f CHG.PILOT.PWM ≠ 1 ∨ 5 < ((duty : Int) - s.f CHG.PILOT.DUTY).natAbs))
    (charging 2 up) 9000 (-12000) 1000 850 3 ∧
  (fun (s : State) (mv : Nat) (n : Nat) => s.awake = true ∧ s.f CHG.CFG.EN = 1 ∧ mv < 5000 ∧ 3 ≤ n ∧ min 65535 (1000 *
    mv / (5000 - mv)) ≠ s.f CHG.PP.R) (charging 0 up) 700 3 ∧
  (fun (s : State) (ms : Nat) => s.awake = true ∧ s.f CHG.CFG.EN = 1 ∧ 50 ≤ ms ∧ ms ≤ 2000) (charging 4 up) 2000 ∧
  (fun (s : State) (v : Via) => s.accepts v [(CHG.CMD, withBits (s.keepWord CHG.CMD) 31 28 1)] = true ∧ s.f CHG.CFG.EN
    = 1 ∧ s.chgState = 2 ∧ s.f CHG.CFG.BTN_REQ = 0 ∧ s.f CHG.PILOT.STATE = 1 ∧ s.f CHG.PILOT.PWM = 1 ∧ s.f CHG.PP.I_PP
    ≠ 0) (set [(SYS.STATUS.HOSTMODE, 0), (CHG.CFG.BTN_REQ, 0)] (charging 2 up)) .legacy ∧
  (fun (s : State) (v : Via) => s.accepts v [(CHG.CMD, withBits (s.keepWord CHG.CMD) 31 28 1)] = true ∧ s.chgState =
    1) (set [(SYS.STATUS.HOSTMODE, 0)] (charging 1 up)) .legacy ∧
  (fun (s : State) (v : Via) => s.accepts v [(CHG.CMD, withBits (s.keepWord CHG.CMD) 31 28 2)] = true ∧ (s.chgState =
    3 ∨ s.chgState = 4)) (set [(SYS.STATUS.HOSTMODE, 0)] (charging 4 up)) .legacy ∧
  (fun (s : State) (v : Via) => s.accepts v [(CHG.CMD, withBits (s.keepWord CHG.CMD) 31 28 3)] = true ∧ (s.chgState =
    2 ∨ s.chgState = 6)) (set [(SYS.STATUS.HOSTMODE, 0), (ACT.CPL_STAT.STATE, 3), (ACT.CPL_STAT.SW, 1)] (charging 2
    (actReady running))) .legacy ∧
  (fun (s : State) (at_ : Nat) => s.awake = true ∧ s.f CHG.CFG.EN = 1 ∧ s.chgState = 3 ∧ s.hid.chg.step = 1 ∧
    s.hid.chg.stateC = some at_) (withChg (fun x => { x with step := 1, stateC := some 0 }) (charging 3
    { up with hid := { up.hid with now := 100000 } })) 0 ∧
  (fun (s : State) (va : Nat) (vfe : Nat) => s.awake = true ∧ s.f CHG.CFG.EN = 1 ∧ s.chgState = 3 ∧ s.hid.chg.step = 2
    ∧ 9 * va ≤ 10 * vfe ∧ s.ms - s.hid.chg.stepAt ≤ s.f CHG.TIMES.PRE_MS) (withChg (fun x => { x with step := 2 })
    (charging 3 up)) 325000 292500 ∧
  (fun (s : State) => s.awake = true ∧ s.f CHG.CFG.EN = 1) (charging 5 up) ∧
  (fun (s : State) => s.awake = true ∧ s.f CHG.CFG.EN = 1 ∧ s.chgState = 5 ∧ s.hid.chg.emergency = false ∧
    s.hid.chg.relAt = none) (charging 5 running) ∧
  (fun (s : State) (peak : Nat) (at_ : Nat) => s.awake = true ∧ s.chgState = 5 ∧ s.hid.chg.relAt = some at_ ∧ s.f
    CHG.TIMES.RLY_REL_MS + 20 ≤ s.ms - at_ ∧ peak < 30000 ∧ s.f CHG.PP.R ≤ 10000) (withChg (fun x =>
    { x with relAt := some 0, toFault := true }) (set [(ACT.CPL_STAT.INHIBIT, 1), (MTR.STATUS.SESSION_OPEN, 1),
    (CHG.TIMES.RLY_REL_MS, 0)] (charging 5 (later 20000 up)))) 29999 0 ∧
  (fun (s : State) => s.awake = true ∧ s.hid.chg.welded = true ∧ s.chgState ≠ 5) (withChg (fun x =>
    { x with welded := true }) (set [(ACT.CPL_STAT.INHIBIT, 1)] (charging 2 up))) := by
  refine ⟨?_, ?_, ?_, ?_, ?_, ?_, ?_, ?_, ?_, ?_, ?_, ?_, ?_⟩ <;> decide +kernel

/-- A state and operands that meet every hypothesis of `Obligations.Metering_counts_and_records`. -/
theorem witness_Metering_counts_and_records :
  (fun (s : State) (x : SubWin) => s.awake = true ∧ s.present 8 = true ∧ s.hid.mea.xfer.head? = some x ∧ s.metering =
    true ∧ 0 < x.n ∧ s.hid.mtr.lastSeq = some ((x.seq + 4294967295) % 4294967296) ∧ x.seq < 4294967296 ∧
    (s.hid.mtr.lastCyc = none ∨ s.hid.mtr.lastCyc = some x.cycle) ∧ x.last = false) (withMtr (fun x =>
    { x with key := some 0, lastSeq := some 4294967295 }) (withMea (fun x =>
    { x with xfer := [⟨[], 1, 0, 0, false, 3, false⟩] }) up)) (⟨[], 1, 0, 0, false, 3, false⟩) ∧
  (fun (s : State) => s.awake = true ∧ s.present 8 = true ∧ s.metering = true ∧ s.atBoundary = true ∧ s.f
    MTR.LAST.RSEQ - s.f MTR.ACK.RSEQ < 15360) (withMtr (fun x => { x with key := some 0 }) up) ∧
  (fun (s : State) => s.awake = true ∧ s.present 8 = true) (withMtr (fun x => { x with regs := [7] }) up) ∧
  (fun (s : State) (v : Via) (x : Word) => s.accepts v [(MTR.ACK, x)] = true) (withSession authMetrology (set
    [(MTR.LAST.RSEQ, 9), (MTR.STATUS.RING_FULL, 1), (LCY.STATE.STATE, 2)] up)) viaSession 9 ∧
  (fun (s : State) (v : Via) (x : Word) => s.accepts v [(MTR.TIME_HI, x)] = true) (withSession authMetrology (set
    [(LCY.STATE.STATE, 2)] up)) viaSession 5 := by
  refine ⟨?_, ?_, ?_, ?_, ?_⟩ <;> decide +kernel

/-- A state and operands that meet every hypothesis of `Obligations.Converters_and_power_path`. -/
theorem witness_Converters_and_power_path :
  (fun (s : State) (c : Fin 72) (hi : Nat) => s.awake = true ∧ s.present 1 = true ∧ s.hid.cnv.crossing = [(c.val,
    hi)]) (withCnv (fun x => { x with crossing := [(71, 900)] }) up) 71 900 ∧
  (fun (s : State) => s.awake = true ∧ s.present 1 = true ∧ s.f CNV.BUCK_STAT.HICCUP = 1 ∧ s.hid.cnv.hiccupAt + s.f
    CNV.HICCUP.OFF_MS * 1000 ≤ s.hid.now) (set [(CNV.BUCK_STAT.HICCUP, 1), (CNV.HICCUP.OFF_MS, 2)] (later 2000 up)) ∧
  (fun (s : State) (v : Via) (x : Word) => s.accepts v [(CNV.VSET, x)] = true ∧ s.f CNV.VSCALE.VCELL < 192) (set
    [(CNV.VSCALE.VCELL, 191), (CNV.VSCALE.VSCALE, 1000)] legacyUp) .legacy 0x04B00003 ∧
  (fun (s : State) => s.awake = true ∧ s.gst llcGroup = .running ∧ s.hid.lvp.cand = (1, 0) ∧ 2 ≤ s.hid.lvp.candN ∧ s.f
    LVP.STATUS.SRC ≠ 1) (withLvp (fun x => { x with cand := (1, 0), candN := 2 }) (withGroups [(llcGroup,
    { st := .running })] up)) ∧
  (fun (s : State) (v : Via) => s.accepts v [(LVP.CMD, withBits (s.keepWord LVP.CMD) 31 28 1)] = true) (set
    [(SYS.STATUS.HOSTMODE, 0), (LVP.CFG.EN, 1), (LVP.STATUS.BSW, 1), (LVP.STATUS.SRC, 1), (CNV.BUCK_CFG.MODE, 0)]
    (withGroups [(up.buckGroup, { st := .running })] up)) .legacy ∧
  (fun (s : State) (v : Via) => s.accepts v [(LVP.CMD, withBits (s.keepWord LVP.CMD) 31 28 2)] = true) (set
    [(LVP.STATUS.CSTATE, 2)] legacyUp) .legacy ∧
  (fun (s : State) (v : Via) => s.accepts v [(LVP.CMD, withBits (s.keepWord LVP.CMD) 31 28 3)] = true) (set
    [(CNV.VSCALE.VSCALE, 1000)] legacyUp) .legacy ∧
  (fun (s : State) (v : Via) => s.accepts v [(LVP.CMD, withBits (s.keepWord LVP.CMD) 31 28 4)] = true) (set
    [(LVP.STATUS.BSW, 1)] legacyUp) .legacy ∧
  (fun (s : State) (v : Via) => s.accepts v [(LVP.CMD, withBits (s.keepWord LVP.CMD) 31 28 5)] = true) legacyUp
    .legacy ∧
  (fun (s : State) (v : Via) => s.accepts v [(LVP.CMD, withBits (s.keepWord LVP.CMD) 31 28 6)] = true) (set
    [(SYS.STATUS.DEV_STATE, 5), (LVP.STATUS.TIMER_EXP, 1)] legacyUp) .legacy ∧
  (fun (s : State) => s.awake = true ∧ (s.f LVP.STATUS.CSTATE = 1 ∨ s.f LVP.STATUS.CSTATE = 2 ∨ s.f LVP.STATUS.CSTATE
    = 4) ∧ s.hid.lvp.stageAt + s.f LVP.PULSE.PULSE_S * 1000 ≤ s.ms) (set [(LVP.STATUS.CSTATE, 4), (LVP.PULSE.PULSE_S,
    1)] (later 1000000 up)) ∧
  (fun (s : State) (ocv : Nat) => s.awake = true ∧ s.f LVP.STATUS.CSTATE = 3 ∧ s.hid.lvp.stageAt + s.f
    LVP.PULSE.REST_MS * 10 ≤ s.ms ∧ s.hid.lvp.restFrom ≠ 4 ∧ s.hid.lvp.ocvs ≠ [] ∧ ocv = s.hid.lvp.ocvs.sum /
    s.hid.lvp.ocvs.length ∧ s.f LVP.VLIM.V_FULL ≤ ocv) (withLvp (fun x =>
    { x with restFrom := 2, ocvs := [65536, 65534] }) (set [(LVP.STATUS.CSTATE, 3), (LVP.PULSE.REST_MS, 1)] (later
    10000 up))) 65535 ∧
  (fun (s : State) => s.awake = true ∧ s.f LVP.STATUS.CSTATE = 2 ∧ 60000 ≤ s.hid.lvp.term) (withLvp (fun x =>
    { x with term := 60000 }) (set [(LVP.STATUS.CSTATE, 2)] up)) ∧
  (fun (s : State) => s.awake = true ∧ (s.f LVP.STATUS.CSTATE = 1 ∨ s.f LVP.STATUS.CSTATE = 2 ∨ s.f LVP.STATUS.CSTATE
    = 3) ∧ min 0xFFFF (s.f LVP.TIMER.LIMIT * 60) ≤ s.f LVP.TIMER_STAT.ELAPSED) (set [(LVP.STATUS.CSTATE, 3),
    (LVP.TIMER.LIMIT, 1), (LVP.TIMER_STAT.ELAPSED, 60)] up) ∧
  (fun (s : State) (ms : Nat) => s.awake = true ∧ s.f LVP.BTN.LONG_S * 1000 ≤ ms ∧ ((groups.any fun g => s.active g &&
    g != llcGroup && g != s.buckGroup) = false)) (set [(LVP.STATUS.BSW, 1), (LVP.BTN.LONG_S, 2)] up) 2000 ∧
  (fun (s : State) (v : Via) (x : Word) => s.accepts v [(LVP.INT_STAT, x)] = true) (set [(LVP.INT_STAT.BATT_LOST, 1),
    (LVP.INT_STAT.TIMER, 1)] legacyUp) .legacy 0x40 ∧
  (fun (s : State) (code : Nat) => s.awake = true ∧ code = (s.usable (s.f LVP.SLOTS.TBATT_SLOT) 0).getD 0) (withMea
    (fun x => { x with usable := [(0, 1, 8)] }) (set [(LVP.STATUS.FOLDBACK, 1), (LVP.FOLD.FOLD_ON, 9),
    (LVP.FOLD.FOLD_OFF, 9)] up)) 8 := by
  refine ⟨?_, ?_, ?_, ?_, ?_, ?_, ?_, ?_, ?_, ?_, ?_, ?_, ?_, ?_, ?_, ?_, ?_⟩ <;> decide +kernel

/-- A state and operands that meet every hypothesis of `Obligations.Safe_inputs_and_supplies`. -/
theorem witness_Safe_inputs_and_supplies :
  (fun (s : State) (i : Fin 8) (f : Fin 8) (us : Nat) => s.awake = true ∧ s.f (SAF.SIN.FILTER i) + 1 ≤ us ∧ f.val ∈
    [1, 2, 3, 5, 6, 7] ∧ s.f (SAF.FUNC_CFG.EN f) = 1 ∧ bit (s.f (SAF.FUNC_CFG.SIN_MASK f)) i = true ∧ s.f (SAF.SIN.EN
    i) = 1 ∧ ((s.func f).trig = 0)) (set [(SAF.SIN.EN 7, 1), (SAF.SIN.LEVEL 7, 1), (SAF.SIN.DEMAND 7, 0),
    (SAF.SIN.FILTER 7, 15), (SAF.FUNC_CFG.EN 5, 1), (SAF.FUNC_CFG.SIN_MASK 5, 0x80)] running) 7 5 16 ∧
  (fun (s : State) (i : Fin 8) => s.awake = true ∧ s.f (SAF.SIN.FAULT i) = 0 ∧ s.f (SAF.SIN.PAIR i) = 0 ∧ s.f
    (SAF.SSUP.OC (s.f (SAF.SIN.SUP i))) = 0) (set [(SAF.SIN.EN 7, 1), (SAF.SIN.LEVEL 7, 0), (SAF.SIN.DEMAND 7, 1)] up)
    7 ∧
  (fun (s : State) (k : Fin 4) (at_ : Nat) => s.awake = true ∧ s.f (SAF.SSUP.EN k) = 1 ∧ s.f (SAF.SSUP.OC k) = 0 ∧
    s.pulseDue k at_ = true) (set [(SAF.SIN.EN 7, 1), (SAF.SIN.SUP 7, 3), (SAF.SSUP.EN 3, 1), (SAF.SSUP.TP_PERIOD 3,
    4), (SAF.SIN.LEVEL 7, 1)] up) 3 3000 ∧
  (fun (s : State) (i : Fin 8) (ms : Nat) => s.awake = true ∧ s.f (SAF.SIN.EN i) = 1 ∧ s.f (SAF.SIN.EN (i.val ^^^ 1))
    = 1 ∧ s.f (SAF.SIN.PAIR i) = 1 ∧ s.f (SAF.SIN.PAIR (i.val ^^^ 1)) = 1 ∧ s.f (SAF.SIN.LEVEL i) ≠ s.f (SAF.SIN.LEVEL
    (i.val ^^^ 1)) ∧ s.f (SAF.SIN.DISC i) < ms) (set [(SAF.SIN.EN 7, 1), (SAF.SIN.EN 6, 1), (SAF.SIN.PAIR 7, 1),
    (SAF.SIN.PAIR 6, 1), (SAF.SIN.LEVEL 7, 1), (SAF.SIN.LEVEL 6, 0)] up) 7 256 ∧
  (fun (s : State) (k : Fin 4) => s.awake = true ∧ s.f (SAF.SSUP.EN k) = 1 ∧ s.f (SAF.SSUP.OC k) = 0) (set
    [(SAF.SIN.EN 7, 1), (SAF.SIN.SUP 7, 3), (SAF.SSUP.EN 3, 1), (SAF.SIN.LEVEL 7, 1)] up) 3 ∧
  (fun (s : State) (v : Via) (k : Fin 4) => s.accepts v [(SAF.SSUP k, withBits (s.keepWord (SAF.SSUP k)) 30 30 1)] =
    true) (withSession authIntegrator (set [(SAF.SSUP.OC 3, 1)] up)) viaSession 3 ∧
  (fun (s : State) (v : Via) (i : Fin 8) => s.accepts v [(SAF.SIN i, withBits (s.keepWord (SAF.SIN i)) 12 12 1)] =
    true ∧ s.f (SAF.SIN.FAULT i) = 1) (withSession authIntegrator (set [(SAF.SIN.FAULT 7, 1)] up)) viaSession 7 := by
  refine ⟨?_, ?_, ?_, ?_, ?_, ?_, ?_⟩ <;> decide +kernel

/-- A state and operands that meet every hypothesis of `Obligations.Safety_controller_reacts`. -/
theorem witness_Safety_controller_reacts :
  (fun (s : State) => s.awake = true) running ∧
  (fun (s : State) => s.awake = true) up ∧
  (fun (s : State) (bytes : List Byte) => bytes.length ≤ 1472 ∧ s.awake = true ∧ s.cd0Reads = true ∧ s.f
    SAF.MSG_CFG.EN = 1 ∧ s.legIn 0 = true ∧ s.legIn 1 = false ∧ copyForm bytes = true ∧ msgField bytes 28 4 = msgCrc
    (s.f SAF.MSG_CFG1.DATA_ID) (bytes.take 28) ∧ (s.leg 0).last = none ∧ (s.leg 0).cand = none) (set [(SAF.MSG_CFG.EN,
    1), (SAF.MSG_STAT.CAN_LEG, 1)] up) (message 65535) ∧
  (fun (s : State) (bytes : List Byte) => bytes.length ≤ 1472 ∧ s.awake = true ∧ s.cd0Reads = true ∧ s.f
    SAF.MSG_CFG.EN = 1 ∧ copyForm bytes = true ∧ msgField bytes 28 4 ≠ msgCrc (s.f SAF.MSG_CFG1.DATA_ID) (bytes.take
    28)) (set [(SAF.MSG_CFG.EN, 1), (SAF.MSG_STAT.CAN_LEG, 1)] up) ((message 9).take 31 ++ [0]) ∧
  (fun (s : State) (leg : Fin 2) (x : List Byte × MsgLeg × Nat) => s.awake = true ∧ s.cd0Reads = true ∧ (s.leg
    leg).wait.head? = some x ∧ x.2.2 + s.f SAF.MSG_CFG.SKEW * 1000 ≤ s.hid.now ∧ s.legIn 0 = true ∧ s.legIn 1 = true)
    (withSaf (fun x => { x with legs := [(1, { wait := [(message 1, .can, 5)] })] }) (set [(SAF.MSG_STAT.ETH_LEG, 1),
    (SAF.MSG_STAT.CAN_LEG, 1), (SAF.MSG_CFG.SKEW, 2)] (later 2005 up))) 1 ((message 1, .can, 5)) ∧
  (fun (s : State) => s.awake = true ∧ s.cd0Reads = true ∧ s.f SAF.MSG_CFG.EN = 1) (set [(SAF.MSG_CFG.EN, 1)] up) ∧
  (fun (s : State) => s.awake = true ∧ s.cd0Reads = true ∧ s.f SAF.MSG_CFG.EN = 1 ∧ ((s.func s.lossFunc).by_.contains
    0x1FFFF = false) ∧ s.hid.saf.msgAt + s.f SAF.MSG_CFG.TIMEOUT < s.ms) (set [(SAF.MSG_CFG.EN, 1),
    (SAF.STATUS.MSG_OK, 1), (SAF.MSG_CFG.TIMEOUT, 10)] (later 11000 up)) ∧
  (fun (s : State) (v : Via) (x : Word) => s.accepts v [(SAF.HOST_REQ, x)] = true ∧ ((s.func 1).trig = 0) ∧ s.f
    (SAF.FUNC_CFG.EN 1) = 1) (set [(SYS.STATUS.HOSTMODE, 0), (SAF.FUNC_CFG.EN 1, 1), (SAF.FUNC_GRP.GROUPS 1, 8)]
    running) .legacy 0x80000000 ∧
  (fun (s : State) (g : Fin 32) (r : Ss1) => s.awake = true ∧ s.cd0Reads = true ∧ (s.grp g).ss1 = some r ∧ r.since +
    s.f (SAF.FUNC_CFG.PARAM 2) ≤ s.ms ∧ s.active g = true) (set [(SAF.FUNC_CFG.PARAM 2, 7)] (later 7000 (withGroups
    [(3, { st := .running, ss1 := some ⟨0, none⟩ })] running))) 3 (⟨0, none⟩) ∧
  (fun (s : State) => s.awake = true ∧ s.cd0Reads = true ∧ (s.funcActive 6 = true) ∧ s.hid.saf.parkOk = false ∧ s.f
    (ACT.STAT.STATE 0) ≠ 3 ∧ s.present 5 = true) (set [(SAF.FUNC_STAT.ACTIVE 6, 1)] up) ∧
  (fun (s : State) (at_ : Nat) => s.awake = true ∧ s.cd0Reads = true ∧ (s.funcActive 6 = true) ∧ s.f (ACT.STAT.PARK 0)
    ≠ 2 ∧ s.hid.saf.parkAt = some at_ ∧ at_ + s.f (SAF.FUNC_CFG.PARAM 6) ≤ s.ms) (withSaf (fun x =>
    { x with parkAt := some 0 }) (set [(SAF.FUNC_STAT.ACTIVE 6, 1), (SAF.FUNC_CFG.PARAM 6, 9)] (later 9000 up))) 0 := by
  refine ⟨?_, ?_, ?_, ?_, ?_, ?_, ?_, ?_, ?_, ?_, ?_⟩ <;> decide +kernel

/-- A state and operands that meet every hypothesis of `Obligations.Can_controllers_log_and_send`. -/
theorem witness_Can_controllers_log_and_send :
  (fun (s : State) (n : Fin 4) (f : CanFrame) => f.wf = true ∧ s.awake = true ∧ s.present 9 = true ∧ s.canTakes n f =
    true ∧ (f.typ ≠ 2 ∨ f.id ≠ s.f CMD.CANXL_CFG1.REQ_ID) ∧ ((s.can n).log.filter (s.logHeld n)).length < 1024 ∧
    s.heldUnits n + (f.data.length + 63) / 64 ≤ 4096) (can3 0 up) 3 frame1 ∧
  (fun (s : State) (n : Fin 4) (f : CanFrame) => f.wf = true ∧ s.awake = true ∧ s.present 9 = true ∧ s.canTakes n f =
    true ∧ ((f.typ = 0 ∧ f.id ≠ s.f BUS.TIME_CFG.REF_ID) ∨ (f.typ = 1 ∧ f.id ≠ s.f SAF.MSG_CFG.CAN_ID) ∨ (f.typ = 2 ∧
    f.id ≠ s.f CMD.CANXL_CFG1.REQ_ID)) ∧ ((s.can n).log.filter (s.logHeld n)).length < 1024 ∧ s.heldUnits n +
    (f.data.length + 63) / 64 ≤ 4096 ∧ (((s.can n).log.all fun e => decide (e.rxseq < (s.can n).cd0) && decide
    (e.rxseq < (s.can n).cd2)) = true)) (can3 0 up) 3 frame1 ∧
  (fun (s : State) (n : Fin 4) (f : CanFrame) => f.wf = true ∧ s.awake = true ∧ s.present 9 = true ∧ s.canTakes n f =
    true ∧ s.cd0Reads = false ∧ s.cd2Reads = false ∧ (1024 ≤ ((s.can n).log.filter (s.logHeld n)).length ∨ 4096 <
    s.heldUnits n + (f.data.length + 63) / 64)) (withBus (fun x =>
    { x with can := [(3, { log := List.replicate 1024 ⟨1, 0, frame1, false, 0, 0⟩, next := 2 })] }) (set
    [(SYS.ISLAND.STATE 12, 4), (SYS.ISLAND.STATE 14, 4)] (can3 0 up))) 3 frame1 ∧
  (fun (s : State) (n : Fin 4) (u : TxFrame) => s.awake = true ∧ s.present 9 = true ∧ s.f (BUS.CTRL.EN n) = 1 ∧ s.f
    (BUS.CTRL.MODE n) = 0 ∧ s.f (BUS.STAT.STATE n) < 2 ∧ (((s.can n).tx.all fun x => decide (s.hid.now < x.born +
    x.life)) = true) ∧ (s.can n).tx.head? = some u ∧ (((s.can n).log.all fun e => decide (e.rxseq < (s.can n).cd0) &&
    decide (e.rxseq < (s.can n).cd2)) = true) ∧ ((s.can n).log.filter (s.logHeld n)).length < 1024 ∧ s.heldUnits n +
    (u.frame.data.length + 63) / 64 ≤ 4096) (withBus (fun x => { x with can := [(3, { tx := [⟨frame1, 0, 0, 1⟩] })] })
    (can3 1 up)) 3 (⟨frame1, 0, 0, 1⟩) ∧
  (fun (s : State) (n : Fin 4) => s.awake = true ∧ s.present 9 = true ∧ s.f (BUS.STAT.STATE n) < 2) (can3 0 up) 3 ∧
  (fun (s : State) (n : Fin 4) => s.awake = true ∧ s.present 9 = true ∧ s.f (BUS.STAT.STATE n) < 2) (set
    [(CMD.EVENT_CFG.ROUTE_CANXL, 0)] (can3 1 up)) 3 ∧
  (fun (s : State) (n : Fin 4) => s.awake = true ∧ s.present 9 = true ∧ s.f (BUS.STAT.STATE n) = 2 ∧ ((s.f
    (BUS.CTRL.AUTO_REC n) = 1 ∧ s.f (BUS.STAT.REC_HELD n) = 0) ∨ (s.can n).recov = true)) (withBus (fun x =>
    { x with can := [(3, { tx := [⟨frame1, 0, 0, 0⟩, ⟨frame1, 1, 0, 1⟩], recov := true })] }) (can3 2 up)) 3 ∧
  (fun (s : State) (v : Via) (n : Fin 4) => s.accepts v [(BUS.CTRL n, withBits (s.keepWord (BUS.CTRL n)) 25 25 1)] =
    true) (withSession authIntegrator (set [(BUS.STAT.REC_HELD 3, 1)] (can3 2 up))) viaSession 3 ∧
  (fun (s : State) (v : Via) (n : Fin 4) (x : Word) => s.accepts v [(BUS.RX_SEL n, x)] = true) (set
    [(SYS.STATUS.HOSTMODE, 0), (BUS.CTRL.WIN_MODE 3, 1)] (can3 0 up)) .legacy 3 7 ∧
  (fun (s : State) (v : Via) (n : Fin 4) (x : Word) => s.accepts v [(BUS.CTRL n, x)] = true ∧ s.f (BUS.CTRL.EN n) = 0
    ∧ bitsOf x 31 31 = 1) (withSession authIntegrator up) viaSession 3 0x80000001 := by
  refine ⟨?_, ?_, ?_, ?_, ?_, ?_, ?_, ?_, ?_, ?_⟩ <;> decide +kernel

/-- A state and operands that meet every hypothesis of `Obligations.Network_time_and_ethernet`. -/
theorem witness_Network_time_and_ethernet :
  (fun (s : State) (v : Via) (x : Word) => s.accepts v [(BUS.TIME_HI, x)] = true) legacyUp .legacy 5 ∧
  (fun (s : State) => s.awake = true ∧ s.present 9 = true ∧ s.f BUS.TIME_CFG.EN = 1 ∧ s.f BUS.TIME_CFG.ROLE = 1 ∧
    s.refDue = true ∧ (s.can (s.f BUS.TIME_CFG.CTRL)).tx.length < 32) (set [(BUS.TIME_CFG.EN, 1), (BUS.TIME_CFG.ROLE,
    1), (BUS.TIME_CFG.CTRL, 3)] up) ∧
  (fun (s : State) => s.awake = true ∧ s.present 9 = true ∧ s.cd2Reads = true ∧ s.f BUS.TIME_CFG.EN = 1 ∧ s.f
    BUS.TIME_CFG.ROLE = 2) (withBus (fun x => { x with time := { x.time with last := some (255, 7) } }) (set
    [(BUS.TIME_CFG.EN, 1), (BUS.TIME_CFG.ROLE, 2)] up)) ∧
  (fun (s : State) => s.awake = true ∧ s.present 9 = true ∧ s.f BUS.TIME_CFG.EN = 1 ∧ s.f BUS.TIME_CFG.ROLE = 2 ∧ s.f
    BUS.TIME_STAT.SYNCED = 1 ∧ s.hid.bus.time.usedAt + 3000 * s.f BUS.TIME_CFG.PERIOD ≤ s.hid.now) (later 2000000000
    (set [(BUS.TIME_CFG.EN, 1), (BUS.TIME_CFG.ROLE, 2), (BUS.TIME_STAT.SYNCED, 1)] up)) ∧
  (fun (s : State) (p : Fin 2) (srcMac : Nat) (dstMac : Nat) (srcIp : Nat) => (⟨srcMac, dstMac, srcIp, .arpReply⟩ :
    EthFrame).wf = true ∧ s.awake = true ∧ s.present 9 = true ∧ s.f (NET.IF_CFG.EN p) = 1 ∧ s.cd2Reads = true ∧ dstMac
    = s.macOf p) (set [(NET.IF_CFG.EN 1, 1), (⟨NET.MAC_LO 1, 31, 0⟩, 9)] up) 1 5 9 7 ∧
  (fun (s : State) (p : Fin 2) (srcMac : Nat) (dstMac : Nat) (srcIp : Nat) => (⟨srcMac, dstMac, srcIp, .other⟩ :
    EthFrame).wf = true ∧ s.awake = true ∧ s.present 9 = true ∧ s.f (NET.IF_CFG.EN p) = 1 ∧ s.cd2Reads = true) (set
    [(NET.IF_CFG.EN 1, 1)] up) 1 5 9 7 ∧
  (fun (s : State) => s.awake = true ∧ s.present 9 = true) (set [(NET.STAT.LINK 1, 1)] up) ∧
  (fun (s : State) => s.awake = true ∧ s.present 9 = true ∧ s.f (NET.IF_CFG.PLCA_EN 1) = 1) (set [(NET.IF_CFG.PLCA_EN
    1, 1), (NET.STAT.PLCA_OK 1, 1)] up) ∧
  (fun (s : State) (ip : Nat) => ip < 4294967296 ∧ s.awake = true ∧ s.present 9 = true) (later 60000000 (withBus (fun
    x => { x with arp := [⟨1, 7, 9, 0⟩, ⟨0, 7, 9, 0⟩] }) up)) 7 ∧
  (fun (s : State) => s.awake = true ∧ s.present 9 = true ∧ s.f CMD.EVENT_CFG.ROUTE_UDP = 1 ∧ s.f (NET.IF_CFG.EN (s.f
    NET.EVT_PORT.IF)) = 1 ∧ s.arpOf (s.f NET.EVT_PORT.IF) (s.f NET.EVT_DEST.IP) = none ∧ ((s.hid.bus.arpAt.all fun x
    => decide (x + 1000000 ≤ s.hid.now)) = true)) (set [(CMD.EVENT_CFG.ROUTE_UDP, 1), (NET.IF_CFG.EN 1, 1),
    (NET.EVT_PORT.IF, 1)] up) ∧
  (fun (s : State) (v : Via) (p : Fin 2) (x : Word) => s.accepts v [(NET.IF_CFG p, x)] = true) (withSession
    authIntegrator (set [(⟨NET.IP 1, 31, 0⟩, 0x0A000001)] up)) viaSession 1 0x98000000 := by
  refine ⟨?_, ?_, ?_, ?_, ?_, ?_, ?_, ?_, ?_, ?_, ?_⟩ <;> decide +kernel

/-- A state and operands that meet every hypothesis of `Obligations.Sessions_and_frames_end`. -/
theorem witness_Sessions_and_frames_end :
  (fun (s : State) (id : Nat) (x : Session) => s.awake = true ∧ s.session id = some x ∧ x.opened = false ∧ x.at_ +
    5000000 ≤ s.hid.now) (later 5000000
    { up with hid := { up.hid with cmd := { up.hid.cmd with sessions := [⟨3, .spi, 1, false, [], [], 0, [], none, none⟩] } } })
    3 (⟨3, .spi, 1, false, [], [], 0, [], none, none⟩) ∧
  (fun (s : State) (id : Nat) (x : Session) => s.awake = true ∧ s.session id = some x ∧ x.opened = true ∧ x.at_ +
    1000000 * s.f CMD.SESSION_CFG.IDLE_TIMEOUT ≤ s.hid.now) (later 4000000000 (withSession authIntegrator up)) 1 (⟨1,
    .spi, authIntegrator, true, [], [], 0, [], none, none⟩) ∧
  (fun (s : State) => s.awake = true ∧ ((s.hid.cmd.lockEnd.any fun e => decide (e ≤ s.hid.now)) = true)) (later 5 <|
    set [(CMD.STATUS.LOCK_REMAIN, 600), (⟨FLG.LASTING 10, 31, 0⟩, 1)]
    { up with hid := { up.hid with cmd := { up.hid.cmd with lockEnd := some 5 } } }) ∧
  (fun (s : State) (id : Nat) (x : Session) (g : Seg) => s.awake = true ∧ s.session id = some x ∧ x.seg = some g ∧
    g.last + 100000 ≤ s.hid.now) (later 100000
    { up with hid := { up.hid with cmd := { up.hid.cmd with sessions := [⟨3, .spi, 1, true, [], [], 0, [], some ⟨0x30, 0, 0, 0, 0, 0, 0, [], 0⟩, none⟩] } } })
    3 (⟨3, .spi, 1, true, [], [], 0, [], some ⟨0x30, 0, 0, 0, 0, 0, 0, [], 0⟩, none⟩) (⟨0x30, 0, 0, 0, 0, 0, 0, [],
    0⟩) ∧
  (fun (s : State) (a : Nat) (r : RegSpec) => s.legacyOpen = true ∧ a < 2 ^ 24 ∧ regAt a = some r ∧ a ≠ BUS.TIME_LO ∧
    s.addrAbsent a = false) legacyUp SYS.STATUS (specAt SYS.STATUS) ∧
  (fun (s : State) (frame : BitVec 72) => s.legacyOpen = true ∧ legacyWord (BitVec.ofNat 64 (frame.toNat / 256)) ≠
    frame) legacyUp 0x000000000000000001 ∧
  (fun (s : State) (q : OutPkt) => s.hid.lcy.held = false ∧ s.hid.lcy.resetSoon = false ∧ s.linkOpen = true ∧
    s.present 10 = true ∧ s.packetMode = true ∧ s.que.spi.head? = some q)
    ({ up with que := { up.que with spi := [replyPkt 0 (packet 0 0 0 4 []) {}] } }) (replyPkt 0 (packet 0 0 0 4 [])
    {}) := by
  refine ⟨?_, ?_, ?_, ?_, ?_, ?_, ?_⟩ <;> decide +kernel

/-- A state and operands that meet every hypothesis of `Obligations.Tunnel_and_unknown_opcodes`. -/
theorem witness_Tunnel_and_unknown_opcodes :
  (fun (s : State) (len : BitVec 13) (p : Packet) => s.accepts .legacy [(CMD.TUNNEL_CTL, BitVec.ofNat 32 (2 ^ 31 +
    len.toNat))] = true ∧ framed .tunnel (s.tunnelBytes len.toNat) 0 p = true ∧ s.serves 0 p = true ∧ p.flags = 0 ∧
    s.f CMD.TUNNEL_CTL.RX_VALID = 0) (withTunnel (request 0) legacyUp) 20 ((packetOf .tunnel (request 0)).p) ∧
  (fun (s : State) => s.accepts .legacy [(CMD.TUNNEL_CTL, 0x40000000)] = true ∧ s.hid.cmd.tunnelWait = []) (set
    [(CMD.TUNNEL_CTL.RX_VALID, 1)] legacyUp) ∧
  (fun (s : State) (q : OutPkt) (rest : List OutPkt) => s.accepts .legacy [(CMD.TUNNEL_CTL, 0x40000000)] = true ∧
    s.hid.cmd.tunnelWait = q :: rest)
    ({ legacyUp with hid := { legacyUp.hid with cmd := { legacyUp.hid.cmd with tunnelWait := [replyPkt 0 (packet 0 0 0 4 []) {}] } } })
    (replyPkt 0 (packet 0 0 0 4 []) {}) ([]) ∧
  (fun (s : State) (bytes : List Byte) (op : Nat) (p : Packet) => framed .spi bytes op p = true ∧ s.takes op p = true
    ∧ op ∉ knownOps) up (request 0x55) 0x55 ((packetOf .spi (request 0x55)).p) := by
  refine ⟨?_, ?_, ?_, ?_⟩ <;> decide +kernel

end Sys2Proof.Tests
end

section
/-! SUPPORT and statements O1, O2, O7: what every action keeps of the form of a state, and the state after reset. -/
namespace Sys2Proof.Machine

/-! ## The form of the queues -/

theorem eventCount_append (l m : List OutPkt) : eventCount (l ++ m) = eventCount l + eventCount m := by
  simp [eventCount]

@[simp] theorem eventCount_nil : eventCount [] = 0 := rfl

theorem eventCount_singleton_le (p : OutPkt) : eventCount [p] ≤ 1 := by
  simpa [eventCount] using List.length_filter_le (fun q => bit q.flags 1) [p]

theorem eventCount_tail_le (l : List OutPkt) : eventCount l.tail ≤ eventCount l :=
  (List.tail_sublist l).filter _ |>.length_le

/-- A reply is no event: its EVENT bit is cleared on the way into the queue. -/
theorem eventCount_reply (p : OutPkt) : eventCount [{ p with flags := clrBit p.flags 1 }] = 0 := by
  simp [eventCount, bit_clrBit]

theorem length_foldl_ringPush {α : Type} (cap : Nat) (h0 : 0 < cap) (xs l : List α) (h : l.length ≤ cap) :
    (xs.foldl (ringPush cap) l).length ≤ cap := by
  induction xs generalizing l with
  | nil => exact h
  | cons x xs ih => exact ih _ (length_ringPush cap l x h0 h)

theorem queues_wf_iff (q : Queues) : Queues.wf q = true ↔
    eventCount q.spi ≤ 64 ∧ q.vio.length ≤ 64 ∧ q.flt.length ≤ 4096 ∧ q.fltQ.length ≤ 256 ∧ q.chg.length ≤ 1024 := by
  simp [Queues.wf, and_assoc]

/-- Every action keeps the queues and logs within their sizes. -/
theorem apply_queues_wf (a : Act) (s : State) (h : Queues.wf s.que = true) : Queues.wf (a.apply s).que = true := by
  rw [queues_wf_iff] at h ⊢
  obtain ⟨hspi, hvio, hflt, hfltQ, hchg⟩ := h
  cases a
  case reg => simp [*]
  case tab => simp [*]
  case spiReply p =>
    exact ⟨by simpa [Act.apply, eventCount_append, eventCount_reply] using hspi, hvio, hflt, hfltQ, hchg⟩
  case spiEvent p =>
    have := eventCount_singleton_le p
    simp only [Act.apply]
    split
    · exact ⟨by simp only [eventCount_append]; omega, hvio, hflt, hfltQ, hchg⟩
    · exact ⟨hspi, hvio, hflt, hfltQ, hchg⟩
  case spiPop => exact ⟨(eventCount_tail_le _).trans hspi, hvio, hflt, hfltQ, hchg⟩
  case vio e => exact ⟨hspi, length_ringPush 64 _ e (by decide) hvio, hflt, hfltQ, hchg⟩
  case fltQueue e lasting =>
    have : fltLimit lasting ≤ 256 := by cases lasting <;> decide
    simp only [Act.apply]
    split
    · exact ⟨hspi, hvio, hflt, by simp only [List.length_append, List.length_singleton]; omega, hchg⟩
    · exact ⟨hspi, hvio, hflt, hfltQ, hchg⟩
  case fltTake => exact ⟨hspi, hvio, length_foldl_ringPush 4096 (by decide) _ _ hflt, by simp [Act.apply], hchg⟩
  case chg e => exact ⟨hspi, hvio, hflt, hfltQ, length_ringPush 1024 _ e (by decide) hchg⟩
  all_goals simp [Act.apply, *]

/-! ## The form of a state -/

theorem state_wf_iff (s : State) :
    s.wf = true ↔ Params.wf s.regs = true ∧ Memory.wf s.tabs = true ∧ Queues.wf s.que = true := by
  simp [State.wf, and_assoc]

/-- Whatever a program does, it keeps the form of the state. -/
theorem run_wf (m : M Unit) (s : State) (h : s.wf = true) : (m.run s).wf = true := by
  obtain ⟨hregs, htabs, hque⟩ := (state_wf_iff s).mp h
  exact (state_wf_iff _).mpr ⟨run_params_wf m s hregs, run_memory_wf m s htabs,
    Prog.run_keeps (fun s => Queues.wf s.que = true) apply_queues_wf _ _ hque⟩

/-- Every command is the check of its operands and one program. -/
theorem exec_eq_checked (i : Instr) : ∃ m : M Unit, ∀ s, exec i s = checked i.wf m s := by
  cases i <;> exact ⟨_, fun _ => rfl⟩

/-- A next state is one that a program reaches. -/
theorem exec_next_run {i : Instr} {s t : State} (h : exec i s = .next t) : ∃ m : M Unit, t = m.run s := by
  obtain ⟨m, hm⟩ := exec_eq_checked i
  rw [hm] at h
  cases hw : i.wf <;> rw [hw] at h
  · simp at h
  · exact ⟨m, by simpa using h.symm⟩

/-- A step runs one program on the state without the command it takes. -/
theorem step_next_run {s t : State} (h : step s = .next t) :
    ∃ m : M Unit, t = m.run { s with pending := s.pending.tail } := by
  obtain ⟨regs, tabs, hid, que, pending⟩ := s
  cases pending with
  | nil => exact ⟨tick, by simpa [step] using h.symm⟩
  | cons c r => exact exec_next_run h

/-- Settles O1: nothing is stored and nothing waits. -/
theorem resetHasForm : Obligations.Reset_has_form := by
  unfold Obligations.Reset_has_form
  decide

/-- Settles O2: every action keeps the form, so the one program a step runs does. -/
theorem everyStepKeepsForm : Obligations.Every_step_keeps_form := by
  unfold Obligations.Every_step_keeps_form
  intro s t hs ht
  obtain ⟨m, rfl⟩ := step_next_run ht
  exact run_wf m _ hs

/-! ## The reset values -/

theorem sget_nil {α : Type} (d : α) (a : Nat) : sget d [] a = d := rfl

theorem reset_rd (a : Nat) : State.reset.rd a = resetWord a := sget_nil _ _

theorem reset_tb (id o : Nat) : State.reset.tb id o = resetByte (tkey id o) := sget_nil _ _

/-- Settles O7: the empty lists of the state after reset read as the reset values of the register tables. -/
theorem resetValues : Obligations.Reset_values := by
  unfold Obligations.Reset_values
  exact ⟨reset_rd, reset_tb, rfl, rfl, rfl, rfl, by decide +kernel⟩

end Sys2Proof.Machine
end

section
/-! SUPPORT. What the operations that send events and replies leave of the host link: the sessions, an accepted GO, the
count of refused tags and the parameters outside the pages of events. -/

namespace Sys2Proof.Machine

/-! ## What a computation fixes -/

/-- The computation leaves what `π` shows of the state. -/
structure M.Fixes {α β : Type} (m : M α) (π : State → β) : Prop where
  does : ∀ s, ∃ a t, m.Does s a t ∧ π t = π s

section
variable {α β γ : Type} {π : State → γ}

theorem M.Fixes.pure (a : α) : (Pure.pure a : M α).Fixes π :=
  ⟨fun s => ⟨a, s, M.does_pure a s, rfl⟩⟩

theorem M.Fixes.getS : Machine.getS.Fixes π := ⟨fun s => ⟨s, s, M.does_getS s, rfl⟩⟩

theorem M.Fixes.bind {m : M α} {f : α → M β} (h : m.Fixes π) (h' : ∀ a, (f a).Fixes π) : (m >>= f).Fixes π := by
  refine ⟨fun s => ?_⟩
  obtain ⟨a, t, h1, h2⟩ := h.does s
  obtain ⟨b, u, h3, h4⟩ := (h' a).does t
  exact ⟨b, u, h1.bind h3, h4.trans h2⟩

/-- A computation that begins by reading the state. -/
theorem M.Fixes.read {f : State → M β} (h : ∀ s, (f s).Fixes π) : (Machine.getS >>= f).Fixes π := M.Fixes.getS.bind h

theorem M.Fixes.ite {c : Prop} [Decidable c] {m n : M α} (h : m.Fixes π) (h' : n.Fixes π) :
    (if c then m else n).Fixes π := by
  split <;> assumption

theorem M.Fixes.when {c : Prop} [Decidable c] {m : M Unit} (h : m.Fixes π) :
    (if c then m else Pure.pure ()).Fixes π := h.ite (.pure ())

/-- A statement that is done on a condition, and what follows it either way. -/
theorem M.Fixes.thenMore {c : Prop} [Decidable c] {m : M Unit} {k : Unit → M β} (h : m.Fixes π)
    (h' : ∀ u, (k u).Fixes π) : (if c then m >>= k else k ()).Fixes π := .ite (.bind h h') (h' ())

theorem M.Fixes.forM {f : α → M Unit} (h : ∀ x, (f x).Fixes π) : ∀ l : List α, (l.forM f).Fixes π
  | [] => .pure ()
  | x :: l => (h x).bind fun _ => M.Fixes.forM h l

theorem M.Fixes.act {a : Act} (h : ∀ s, π (a.apply s) = π s) : (Machine.act a).Fixes π :=
  ⟨fun s => ⟨(), a.apply s, M.does_act a s, h s⟩⟩

theorem M.Fixes.run {m : M Unit} (h : m.Fixes π) (s : State) : π (m.run s) = π s := by
  obtain ⟨_, t, h1, h2⟩ := h.does s
  rw [h1.run]
  exact h2

/-- What fixes a finer view fixes a coarser one. -/
theorem M.Fixes.comp {m : M α} {ρ : State → β} (h : m.Fixes ρ) (f : β → γ) : m.Fixes fun s => f (ρ s) := by
  refine ⟨fun s => ?_⟩
  obtain ⟨a, t, h1, h2⟩ := h.does s
  exact ⟨a, t, h1, congrArg f h2⟩

end

theorem M.In.does {P : List Nat} {m : M Unit} (h : m.In P) (s : State) : m.Does s () (m.run s) := by
  obtain ⟨_, t, h1, _⟩ := h s
  rw [h1.run]
  exact h1

/-! ## Two views of the state -/

/-- What serving a request leaves alone where the request itself has no effect: an accepted GO, and the parameters
outside the pages of events. -/
structure BareView where
  go : Option Nat
  rd : Nat → Word

/-- What sending events and replies leaves alone: the sessions and the count of refused tags too. -/
structure LinkView where
  sessions : List Session
  rxErr : Word
  bare : BareView

/-- The view of an accepted GO and of what lies outside the pages of events. -/
def State.bare (s : State) : BareView :=
  ⟨s.hid.cmd.go, fun a => if eventPages.contains (a / 65536) then 0 else s.rd a⟩

/-- The view that sending leaves as it was. -/
def State.link (s : State) : LinkView := ⟨s.hid.cmd.sessions, s.rd CMD.RX_ERR, s.bare⟩

theorem bare_go {s t : State} (h : t.bare = s.bare) : t.hid.cmd.go = s.hid.cmd.go := congrArg BareView.go h

theorem bare_rd {s t : State} (h : t.bare = s.bare) {a : Nat} (ha : a / 65536 ∉ eventPages) : t.rd a = s.rd a := by
  simpa [State.bare, ha] using congrFun (congrArg BareView.rd h) a

theorem link_sessions {s t : State} (h : t.link = s.link) : t.hid.cmd.sessions = s.hid.cmd.sessions :=
  congrArg LinkView.sessions h

theorem link_rxErr {s t : State} (h : t.link = s.link) : t.rd CMD.RX_ERR = s.rd CMD.RX_ERR := congrArg LinkView.rxErr h

theorem link_bare {s t : State} (h : t.link = s.link) : t.bare = s.bare := congrArg LinkView.bare h

theorem M.Fixes.bare {α : Type} {m : M α} (h : m.Fixes State.link) : m.Fixes State.bare := h.comp LinkView.bare

theorem bare_apply_reg {a : Nat} (w : Word) (hp : a / 65536 ∈ eventPages) (s : State) :
    ((Act.reg a w).apply s).bare = s.bare := by
  simp only [State.bare, apply_reg_hid, BareView.mk.injEq, true_and]
  funext b
  split
  · rfl
  · rename_i hb
    exact rd_apply_reg_other a b w s fun hab => hb (by simpa [hab] using hp)

theorem M.Fixes.wrBare {a : Nat} (w : Word) (hp : a / 65536 ∈ eventPages) : (wr a w).Fixes State.bare :=
  .act (bare_apply_reg w hp)

theorem M.Fixes.wrLink {a : Nat} (w : Word) (hp : a / 65536 ∈ eventPages) (hne : a ≠ CMD.RX_ERR) :
    (wr a w).Fixes State.link :=
  .act fun s => by
    simp only [State.link, apply_reg_hid, bare_apply_reg w hp, rd_apply_reg_other a _ w s hne.symm]

theorem M.Fixes.wfBare {x : FldAt} (v : Nat) (hp : x.addr / 65536 ∈ eventPages) : (Machine.wf x v).Fixes State.bare :=
  .read fun _ => .wrBare _ hp

theorem M.Fixes.wfLink {x : FldAt} (v : Nat) (hp : x.addr / 65536 ∈ eventPages) (hne : x.addr ≠ CMD.RX_ERR) :
    (Machine.wf x v).Fixes State.link := .read fun _ => .wrLink _ hp hne

theorem M.Fixes.incBare {x : FldAt} (hp : x.addr / 65536 ∈ eventPages) : (inc x).Fixes State.bare :=
  .read fun _ => .when (.wfBare _ hp)

theorem M.Fixes.incLink {x : FldAt} (hp : x.addr / 65536 ∈ eventPages) (hne : x.addr ≠ CMD.RX_ERR) :
    (inc x).Fixes State.link := .read fun _ => .when (.wfLink _ hp hne)

theorem M.Fixes.hidBare {f : Hidden → Hidden} (h : ∀ x, (f x).cmd.go = x.cmd.go) : (hid f).Fixes State.bare :=
  .act fun s => by simp [State.bare, h s.hid, State.rd]

theorem M.Fixes.hidLink {f : Hidden → Hidden}
    (h : ∀ x, (f x).cmd.sessions = x.cmd.sessions ∧ (f x).cmd.go = x.cmd.go) : (hid f).Fixes State.link :=
  .act fun s => by
    obtain ⟨h1, h2⟩ := h s.hid
    simp [State.link, State.bare, h1, h2, State.rd]

/-! ## Events -/

theorem txStat_ne_rxErr (n : Nat) : BUS.TX_STAT n ≠ CMD.RX_ERR := fun h => by
  have := BUS.TX_STAT_page n
  rw [h] at this
  revert this
  decide

theorem tunnelRx_ne_rxErr (i : Nat) : CMD.TUNNEL_RX i ≠ CMD.RX_ERR := by
  unfold CMD.TUNNEL_RX arr CMD.RX_ERR
  split <;> omega

theorem setAttn_link : setAttn.Fixes State.link := .read fun _ => .hidLink fun _ => ⟨rfl, rfl⟩

theorem eventLost_link (route : Nat) : (eventLost route).Fixes State.link :=
  .bind (.incLink (by decide) (by decide)) fun _ => .hidLink fun _ => ⟨rfl, rfl⟩

theorem eventPacket_link (route op page inst scope : Nat) (body : List Byte) :
    (eventPacket route op page inst scope body).Fixes State.link := .read fun _ => .pure _

theorem eventDelivered_link (route : Nat) : (eventDelivered route).Fixes State.link := .hidLink fun _ => ⟨rfl, rfl⟩

theorem spiEvent_link (p : OutPkt) : (act (.spiEvent p)).Fixes State.link :=
  .act fun s => by simp [State.link, State.bare, State.rd]

theorem eventSpi_link (op page inst scope : Nat) (body : List Byte) :
    (eventSpi op page inst scope body).Fixes State.link :=
  .read fun _ => .ite
    (.bind (eventPacket_link ..) fun _ => .bind (spiEvent_link _) fun _ => .bind (eventDelivered_link 0) fun _ =>
      setAttn_link)
    (eventLost_link 0)

theorem ethSend_link (o : EthOut) : (ethSend o).Fixes State.link := .hidLink fun _ => ⟨rfl, rfl⟩

theorem canEnqueue_link (n : Nat) (t : TxFrame) : (canEnqueue n t).Fixes State.link := by
  have hpage : BUS.TX_STAT n / 65536 ∈ eventPages := by rw [BUS.TX_STAT_page]; decide
  have hset : ∀ l : List TxFrame, (do
      hid fun h => { h with bus := { h.bus with can := mupd {} h.bus.can n fun c => { c with tx := l } } }
      Machine.wf (BUS.TX_STAT.QUEUED n) l.length : M Unit).Fixes State.link := fun l =>
    .bind (.hidLink fun _ => ⟨rfl, rfl⟩) fun _ => .wfLink _ hpage (txStat_ne_rxErr n)
  have hinc : ∀ x : FldAt, x.addr = BUS.TX_STAT n → (inc x).Fixes State.link :=
    fun x hx => .incLink (hx ▸ hpage) (hx ▸ txStat_ne_rxErr n)
  refine .read fun s => .ite (.bind (hset _) fun _ => .pure _) ?_
  split
  · exact .pure _
  · exact .ite (.bind (hset _) fun _ => .bind (hinc _ rfl) fun _ => .pure _) (.bind (hinc _ rfl) fun _ => .pure _)

theorem canxlSend_link (p : OutPkt) : (canxlSend p).Fixes State.link := by
  refine .read fun s => .bind (canEnqueue_link _ _) fun lost => ?_
  cases lost with
  | none => exact .pure _
  | some u => exact .ite (.bind (.incLink (by decide) (by decide)) fun _ => .pure _) (.pure _)

theorem eventCanxl_link (op page inst scope : Nat) (body : List Byte) :
    (eventCanxl op page inst scope body).Fixes State.link := by
  refine .read fun s => .ite ?_ (eventLost_link 1)
  refine .bind (eventPacket_link ..) fun p => .bind (canxlSend_link p) fun _ => ?_
  exact .ite (eventDelivered_link 1) (.hidLink fun _ => ⟨rfl, rfl⟩)

theorem eventUdp_link (op page inst scope : Nat) (body : List Byte) :
    (eventUdp op page inst scope body).Fixes State.link := by
  refine .read fun s => ?_
  dsimp only
  split
  · exact .ite (.bind (eventPacket_link ..) fun _ => .bind (ethSend_link _) fun _ => eventDelivered_link 2)
      (eventLost_link 2)
  · exact eventLost_link 2

theorem event_link (op page inst scope : Nat) (body : List Byte) :
    (event op page inst scope body).Fixes State.link := by
  refine .read fun s => .when (.thenMore (eventSpi_link ..) fun _ => .thenMore (eventCanxl_link ..) fun _ => ?_)
  exact .when (eventUdp_link ..)

/-- An entry of the violation log, with its event. -/
theorem violation_link (e : VioEntry) : (violation e).Fixes State.link := by
  refine .read fun s => .thenMore (.incLink (by decide) (by decide)) fun _ => ?_
  refine .bind (.act fun s => by simp [State.link, State.bare, State.rd]) fun _ => ?_
  exact .bind (.wfLink _ (by decide) (by decide)) fun _ => event_link ..

theorem logViolation_link (c : Ctx) (a : Ans) : (logViolation c a).Fixes State.link :=
  .when (.read fun _ => violation_link _)

theorem logViolation_bare (c : Ctx) (a : Ans) (s : State) : ((logViolation c a).run s).bare = s.bare :=
  (logViolation_link c a).bare.run s

/-! ## Replies -/

theorem placeTunnel_link (p : OutPkt) : (placeTunnel p).Fixes State.link := by
  refine .bind (.forM (fun x => .wrLink _ (by rw [CMD.TUNNEL_RX_page]; decide) (tunnelRx_ne_rxErr _)) _) fun _ => ?_
  refine .bind (.wfLink _ (by decide) (by decide)) fun _ => .bind (.wfLink _ (by decide) (by decide)) fun _ => ?_
  exact .thenMore (.wfLink _ (by decide) (by decide)) fun _ => setAttn_link

theorem handTo_link (src : Source) (p : OutPkt) : (handTo src p).Fixes State.link := by
  cases src with
  | spi =>
    exact .bind (.act fun s => by simp [State.link, State.bare, State.rd]) fun _ => .bind setAttn_link fun _ => .pure _
  | tunnel =>
    exact .read fun s => .ite (.bind (.hidLink fun _ => ⟨rfl, rfl⟩) fun _ => .pure _)
      (.bind (placeTunnel_link p) fun _ => .pure _)
  | canxl => exact canxlSend_link p
  | udp =>
    refine .read fun s => ?_
    dsimp only
    split <;> exact .bind (ethSend_link _) fun _ => .pure _
  | sequence => exact .pure _

theorem sendTo_link (src : Source) (p : OutPkt) : (sendTo src p).Fixes State.link :=
  .read fun _ => .ite (handTo_link src p) (.bind (.hidLink fun _ => ⟨rfl, rfl⟩) fun _ => .pure _)

/-- Whatever a reply is and wherever it goes. -/
theorem sendReply_link (p : Packet) (key : Option (List Byte)) (r : OutPkt) : (sendReply p key r).Fixes State.link :=
  .ite (.when (.wfLink _ (by decide) (by decide))) (.forM (fun _ => .bind (sendTo_link _ _) fun _ => .pure _) _)

theorem replyEarly_link (op : Nat) (p : Packet) (a : Ans) : (replyEarly op p a).Fixes State.link :=
  .read fun _ => sendReply_link ..

/-! ## Sessions -/

theorem showSessions_bare : showSessions.Fixes State.bare :=
  .read fun _ => .bind (.wfBare _ (by decide)) fun _ => .bind (.wfBare _ (by decide)) fun _ =>
    .bind (.wfBare _ (by decide)) fun _ => .wfBare _ (by decide)

theorem updSession_bare (id : Nat) (f : Session → Session) : (updSession id f).Fixes State.bare :=
  .read fun _ => .bind (.hidBare fun _ => rfl) fun _ => showSessions_bare

theorem putSeg_bare (c : Ctx) (g : Option Seg) : (putSeg c g).Fixes State.bare :=
  .read fun _ => .when (.ite (.hidBare fun _ => rfl) (updSession_bare ..))

theorem clearLost_bare (c : Ctx) : (clearLost c).Fixes State.bare := by
  refine .read fun s => ?_
  split
  · exact .when (updSession_bare ..)
  · exact .pure _

end Sys2Proof.Machine
end

section
/-! SUPPORT. How a request runs through the checks of R44 to its answer. -/

namespace Sys2Proof.Machine

/-! ## Running -/

theorem M.Does.ite_pos {α : Type} {c : Prop} [Decidable c] {m n : M α} {s t : State} {a : α} (hc : c)
    (h : m.Does s a t) : (if c then m else n).Does s a t := by rwa [if_pos hc]

theorem M.Does.ite_neg {α : Type} {c : Prop} [Decidable c] {m n : M α} {s t : State} {a : α} (hc : ¬ c)
    (h : n.Does s a t) : (if c then m else n).Does s a t := by rwa [if_neg hc]

/-- A computation that begins by reading the state. -/
theorem M.Does.read {α : Type} {f : State → M α} {s t : State} {a : α} (h : (f s).Does s a t) :
    (Machine.getS >>= f).Does s a t := (M.does_getS s).bind h

/-- A statement that is done on a condition, and what follows it either way. -/
theorem M.Does.thenMore {β : Type} {c : Prop} [Decidable c] {m : M Unit} {k : Unit → M β} {s t u : State} {b : β}
    (h : (if c then m else pure ()).Does s () t) (h' : (k ()).Does t b u) :
    (if c then m >>= k else k ()).Does s b u := by
  have he : (if c then m >>= k else k ()) = (if c then m else pure ()) >>= k := by split <;> rfl
  rw [he]
  exact h.bind h'

/-! ## What bookkeeping leaves -/

/-- Only sessions and counters of the host link have moved: the command page, the host link's own state, no GO. -/
structure Bookkept (s t : State) : Prop where
  same : Same [1, 43] s t
  bare : t.bare = s.bare

theorem Bookkept.refl (s : State) : Bookkept s s := ⟨.refl _ _, rfl⟩

theorem Bookkept.trans {s t u : State} (h : Bookkept s t) (h' : Bookkept t u) : Bookkept s u :=
  ⟨h.same.trans h'.same, h'.bare.trans h.bare⟩

theorem bookkept_run {m : M Unit} (h : m.In [1, 43]) (h' : m.Fixes State.bare) (s : State) : Bookkept s (m.run s) :=
  ⟨h.run s, h'.run s⟩

/-- Sending moves no more than the pages of events, the outbound queue and the state of link and networks. -/
structure Sent (s t : State) : Prop where
  same : Same [1, 20, 33, 43, 47] s t
  bare : t.bare = s.bare

theorem sent_run {m : M Unit} (h : m.In [1, 20, 33, 43, 47]) (h' : m.Fixes State.bare) (s : State) : Sent s (m.run s) :=
  ⟨h.run s, h'.run s⟩

theorem Same.vio {P : List Nat} {s t : State} (h : Same P s t) (hn : 99 ∉ P) (hp : 34 ∉ P) : t.que.vio = s.que.vio :=
  h.que hn 34 hp

theorem Same.chg {P : List Nat} {s t : State} (h : Same P s t) (hn : 99 ∉ P) (hp : 36 ∉ P) : t.que.chg = s.que.chg :=
  h.que hn 36 hp

theorem Same.spi {P : List Nat} {s t : State} (h : Same P s t) (hn : 99 ∉ P) (hp : 33 ∉ P) : t.que.spi = s.que.spi :=
  h.que hn 33 hp

theorem Same.pls {P : List Nat} {s t : State} (h : Same P s t) (hn : 99 ∉ P) (hp : 44 ∉ P) : t.hid.pls = s.hid.pls :=
  h.hid hn 44 hp

theorem Same.cmd {P : List Nat} {s t : State} (h : Same P s t) (hn : 99 ∉ P) (hp : 43 ∉ P) : t.hid.cmd = s.hid.cmd :=
  h.hid hn 43 hp

theorem Same.ms {P : List Nat} {s t : State} (h : Same P s t) (hn : 99 ∉ P) (hp : 40 ∉ P) (hq : 41 ∉ P) :
    t.ms = s.ms := by
  have h1 : t.hid.now = s.hid.now := h.hid hn 40 hp
  have h2 : t.hid.resetAt = s.hid.resetAt := h.hid hn 41 hq
  simp only [State.ms, h1, h2]

/-- Sending keeps what the statements of refusals and answers ask for. -/
theorem Sent.keeps {s t : State} (h : Sent s t) : Keeps [] eventPages s t :=
  ⟨fun _ _ ha => bare_rd h.bare ha, h.same.tabs (by decide) (by decide), h.same.vio (by decide) (by decide),
    h.same.chg (by decide) (by decide), h.same.pending⟩

theorem present_of_bare {s t : State} (h : t.bare = s.bare) (n : Nat) : t.present n = s.present n := by
  have hp : SYS.ISLAND n / 65536 ∉ eventPages := by rw [SYS.ISLAND_page]; decide
  simp only [State.present, f_of_rd_eq (s := s) (t := t) (SYS.ISLAND.STATE n) (bare_rd h hp)]

/-! ## Replies over the SPI port (R39) -/

/-- A packet as it leaves: signed where there is a key. -/
def OutPkt.sealed (key : Option (List Byte)) (r : OutPkt) : OutPkt :=
  match key with
  | some k => r.signed k
  | none => r

theorem replyOf_eq (s : State) (op : Nat) (p : Packet) (a : Ans) :
    s.replyOf op p a = (replyPkt op p a).sealed (s.replyKey p) := rfl

theorem clrBit_of_clear {n i : Nat} (h : bit n i = false) : clrBit n i = n := by simp [clrBit, h]

/-- A reply of flags 1, signed or not, has its EVENT bit clear. -/
theorem sealed_clear {key : Option (List Byte)} {r : OutPkt} (h : r.flags = 1) :
    { r.sealed key with flags := clrBit (r.sealed key).flags 1 } = r.sealed key := by
  have hf : bit (r.sealed key).flags 1 = false := by
    cases key <;> simp only [OutPkt.sealed, OutPkt.signed, h] <;> decide
  rw [clrBit_of_clear hf]

theorem sendTo_spi {s : State} (q : OutPkt) (hp : s.present 10 = true) :
    (sendTo .spi q).Does s true (setAttn.run ((Act.spiReply q).apply s)) :=
  .read <| .ite_pos (by simp [hp]) <| (M.does_act _ s).bind <| (foot_setAttn.does _).bind <| M.does_pure _ _

/-- A reply that fits one packet enters the outbound queue as one. -/
theorem sendReply_spi {s : State} {p : Packet} (key : Option (List Byte)) {r : OutPkt} (hsrc : p.src = .spi)
    (hno : bit p.flags.toNat 2 = false) (hlen : r.payload.length ≤ 4080) (hfl : r.flags = 1) (hfirst : r.first = true)
    (hp : s.present 10 = true) : ((sendReply p key r).run s).que.spi = s.que.spi ++ [r.sealed key] := by
  have hn : ∃ n, maxPayload p.src - (if key.isSome then 16 else 0) = n ∧ 4080 ≤ n :=
    ⟨_, rfl, by rw [hsrc]; cases key <;> simp [maxPayload]⟩
  obtain ⟨n, hn, hle⟩ := hn
  have hk : max 1 ((r.payload.length + n - 1) / n) = 1 := by
    have : (r.payload.length + n - 1) / n < 2 := by
      rw [Nat.div_lt_iff_lt_mul (by omega)]
      omega
    omega
  have hq : ({ r with flags := 1, first := true, payload := (r.payload.drop (n * 0)).take n } : OutPkt) = r := by
    rw [Nat.mul_zero, List.drop_zero, List.take_of_length_le (by omega), ← hfl, ← hfirst]
  have hd : (sendReply p key r).Does s () (setAttn.run ((Act.spiReply (OutPkt.sealed key
      { r with flags := 1, first := true, payload := (r.payload.drop (n * 0)).take n })).apply s)) := by
    refine .ite_neg (by simp [hno]) ?_
    dsimp only
    rw [hn, hk, hsrc]
    exact .bind ((sendTo_spi _ hp).bind (M.does_pure () _)) (M.does_pure () _)
  rw [hq] at hd
  rw [hd.run, (foot_setAttn.run _).spi (by decide) (by decide)]
  simp only [Act.apply, sealed_clear hfl]

/-! ## The violation log (R53) -/

theorem logViolation_sent_same (c : Ctx) (a : Ans) (s : State) :
    Same [1, 20, 33, 34, 43, 47] s ((logViolation c a).run s) := (foot_logViolation c a).run s

/-- An answer that the violation log does not take leaves the state. -/
theorem logViolation_none {c : Ctx} {a : Ans} (h : a.status ≠ stRefused) (s : State) :
    (logViolation c a).run s = s :=
  M.Does.run (.ite_neg (fun hc => h hc.1) (M.does_pure () s))

theorem violation_vio (e : VioEntry) (s : State) :
    ((violation e).run s).que.vio = ringPush 64 s.que.vio e := by
  have hinc : (if s.que.vio.length = 64 then inc CMD.VIOLATION.OVERWRITTEN else pure ()).In [1] :=
    M.In.ite (M.In.inc 1 _ (by decide) (by decide)) (M.In.pure ())
  have hwf : ∀ n, (Machine.wf CMD.VIOLATION.ENTRIES n).In [1] := fun n => M.In.wf 1 _ _ (by decide) (by decide)
  have hd : (violation e).Does s () _ :=
    .read <| .thenMore (hinc.does s) <| (M.does_act (.vio e) _).bind <| ((hwf _).does _).bind <|
      (foot_eventDev _ _).does _
  rw [hd.run, ((foot_eventDev _ _).run _).vio (by decide) (by decide), ((hwf _).run _).vio (by decide) (by decide)]
  simp only [Act.apply, (hinc.run s).vio (by decide) (by decide)]

/-- The reasons of R53 enter the violation log. -/
theorem logViolation_vio {c : Ctx} {a : Ans} (hs : a.status = stRefused)
    (hr : a.reason ∈ [0x0106, 0x0108, 0x0109, 0x0113, 0x0114]) (s : State) :
    ((logViolation c a).run s).que.vio = ringPush 64 s.que.vio
      ⟨a.va % 16777216, s.ms % 4294967296, c.op, c.session, c.transport, a.reason % 256, c.source⟩ := by
  have hd : (logViolation c a).Does s () ((violation ⟨a.va % 16777216, s.ms % 4294967296, c.op, c.session, c.transport,
      a.reason % 256, c.source⟩).run s) :=
    .ite_pos ⟨hs, by simpa using hr⟩ <| .read <| (foot_violation _).does s
  rw [hd.run, violation_vio]

/-! ## Answers -/

theorem replyPkt_length {op : Nat} {p : Packet} {a : Ans} (h : a.data.length ≤ 4072) :
    (replyPkt op p a).payload.length ≤ 4080 := by
  simp only [replyPkt, statusBlock, leBytes, List.length_append, List.length_cons, List.length_nil]
  omega

/-- A reply that did not come from the executor (R44 steps 5 to 10) is the next packet of the outbound queue. -/
theorem replyEarly_spi {op : Nat} {p : Packet} {a : Ans} {s : State} (hsrc : p.src = .spi)
    (hno : bit p.flags.toNat 2 = false) (hlen : a.data.length ≤ 4072) (hp : s.present 10 = true) :
    ((replyEarly op p a).run s).que.spi = s.que.spi ++ [s.replyOf op p a] := by
  have hd : (replyEarly op p a).Does s () _ := .read <| (foot_sendReply _ _ _).does s
  rw [hd.run, sendReply_spi (s.replyKey p) hsrc hno (replyPkt_length hlen) rfl rfl hp, replyOf_eq]

theorem replyEarly_sent (op : Nat) (p : Packet) (a : Ans) (s : State) : Sent s ((replyEarly op p a).run s) :=
  sent_run (foot_replyEarly _ _ _) (replyEarly_link ..).bare s

/-- The executor keeps a reply for R42. -/
def keepReply (op : Nat) (p : Packet) (r : OutPkt) : M Unit :=
  if p.session ≠ 0 then
    updSession p.session.toNat fun x => if sameSource x.src p.src then
      { x with kept := (x.kept ++ [(⟨p.seq.toNat, packetCrc op p, r⟩ : Kept)]).drop (x.kept.length + 1 - 8) } else x
  else pure ()

/-- CMD.STATUS shows whether the executor works on. -/
def showBusy : M Unit := do wf CMD.STATUS.EXEC_BUSY (b2n (← getS).hid.cmd.run.isSome)

/-- The executor's answer: it is kept, CMD.STATUS follows, and it is sent. -/
def sendAnswer (op : Nat) (p : Packet) (key : Option (List Byte)) (a : Ans) : M Unit := do
  keepReply op p (replyPkt op p a)
  showBusy
  sendReply p key (replyPkt op p a)

theorem foot_keepReply (op : Nat) (p : Packet) (r : OutPkt) : (keepReply op p r).In [1, 43] :=
  M.In.ite (foot_updSession _ _) (M.In.pure ())

theorem keepReply_bare (op : Nat) (p : Packet) (r : OutPkt) : (keepReply op p r).Fixes State.bare :=
  .when (updSession_bare ..)

theorem foot_showBusy : showBusy.In [1, 43] := M.In.getS.bind fun _ => M.In.wf 1 _ _ (by decide) (by decide)

theorem showBusy_bare : showBusy.Fixes State.bare := .read fun _ => .wfBare _ (by decide)

theorem sendAnswer_eq (op : Nat) (p : Packet) (key : Option (List Byte)) (a : Ans) (s : State) :
    (sendAnswer op p key a).run s = (sendReply p key (replyPkt op p a)).run
      (showBusy.run ((keepReply op p (replyPkt op p a)).run s)) :=
  M.Does.run <| ((foot_keepReply _ _ _).does s).bind <| (foot_showBusy.does _).bind <| (foot_sendReply _ _ _).does _

/-- Before the answer is sent only sessions and CMD.STATUS move. -/
theorem sendAnswer_run (op : Nat) (p : Packet) (key : Option (List Byte)) (a : Ans) (s : State) :
    ∃ u, Bookkept s u ∧ (sendAnswer op p key a).run s = (sendReply p key (replyPkt op p a)).run u :=
  ⟨_, (bookkept_run (foot_keepReply _ _ _) (keepReply_bare ..) s).trans (bookkept_run foot_showBusy showBusy_bare _),
    sendAnswer_eq op p key a s⟩

theorem Bookkept.sent {s t : State} (h : Bookkept s t) : Sent s t := ⟨h.same.mono (by decide), h.bare⟩

theorem Sent.trans {s t u : State} (h : Sent s t) (h' : Sent t u) : Sent s u :=
  ⟨h.same.trans h'.same, h'.bare.trans h.bare⟩

theorem sendReply_sent (p : Packet) (key : Option (List Byte)) (r : OutPkt) (s : State) :
    Sent s ((sendReply p key r).run s) := sent_run (foot_sendReply _ _ _) (sendReply_link ..).bare s

theorem sendAnswer_sent (op : Nat) (p : Packet) (key : Option (List Byte)) (a : Ans) (s : State) :
    Sent s ((sendAnswer op p key a).run s) := by
  obtain ⟨u, hu, hd⟩ := sendAnswer_run op p key a s
  rw [hd]
  exact hu.sent.trans (sendReply_sent ..)

/-- The executor's answer is the next packet of the outbound queue. -/
theorem sendAnswer_spi {op : Nat} {p : Packet} {a : Ans} (key : Option (List Byte)) {s : State} (hsrc : p.src = .spi)
    (hno : bit p.flags.toNat 2 = false) (hlen : a.data.length ≤ 4072) (hp : s.present 10 = true) :
    ((sendAnswer op p key a).run s).que.spi = s.que.spi ++ [(replyPkt op p a).sealed key] := by
  obtain ⟨u, hu, hd⟩ := sendAnswer_run op p key a s
  have hpu : u.present 10 = true := by rw [present_of_bare hu.bare, hp]
  rw [hd, sendReply_spi key hsrc hno (replyPkt_length hlen) rfl rfl hpu, hu.same.spi (by decide) (by decide)]

/-! ## The executor (R44 steps 9 to 16) -/

theorem afterReply_none {op : Nat} {p : Packet} {a : Ans} (h : ¬ (op = 0xF0 ∧ a.status = stOk ∧ p.scope.toNat = 3))
    (s : State) : (afterReply op p a).Does s () s := .ite_neg h (M.does_pure () s)

/-- EXEC_BUSY shows a request other than SETPOINT. -/
def startBusy (op : Nat) : M Unit := if op ≠ 0x40 then wf CMD.STATUS.EXEC_BUSY 1 else pure ()

theorem foot_startBusy (op : Nat) : (startBusy op).In [1, 43] :=
  M.In.ite (M.In.wf 1 _ _ (by decide) (by decide)) (M.In.pure ())

theorem startBusy_bare (op : Nat) : (startBusy op).Fixes State.bare := .when (.wfBare _ (by decide))

/-- A request runs, and is answered; no RESET of an island follows. -/
theorem process_does {op : Nat} {p : Packet} {svcLow : Option Bool} {s u : State} {a : Ans}
    (hx : (executeTop (s.ctxOf op p) p svcLow).Does ((startBusy op).run s) a u)
    (ha : ¬ (op = 0xF0 ∧ a.status = stOk ∧ p.scope.toNat = 3)) :
    (process op p svcLow).Does s ()
      ((sendAnswer op p (s.replyKey p) a).run ((logViolation (s.ctxOf op p) a).run u)) := by
  rw [sendAnswer_eq]
  exact .read <| .thenMore ((foot_startBusy op).does s) <| hx.bind <| ((foot_logViolation _ _).does u).bind <|
    .thenMore ((foot_keepReply _ _ _).does _) <| (foot_showBusy.does _).bind <| ((foot_sendReply _ _ _).does _).bind <|
    afterReply_none ha _

end Sys2Proof.Machine
end

section
/-! SUPPORT. The order of checks of R44, from the reception of a request to its execution. -/

namespace Sys2Proof.Machine

/-! ## Sessions -/

theorem updSession_sessions (id : Nat) (f : Session → Session) (s : State) :
    ((updSession id f).run s).hid.cmd.sessions = s.hid.cmd.sessions.map fun x => if x.id = id then f x else x := by
  have hd : (updSession id f).Does s () _ :=
    .read <| (M.does_hid (fun h => { h with cmd := { h.cmd with
      sessions := s.hid.cmd.sessions.map fun x => if x.id = id then f x else x } }) s).bind <| foot_showSessions.does _
  rw [hd.run, (foot_showSessions.run _).cmd (by decide) (by decide)]
  rfl

/-- A session after an update that keeps numbers. -/
theorem session_updSession (id : Nat) {f : Session → Session} (hf : ∀ x, (f x).id = x.id) (s : State) :
    ((updSession id f).run s).session id = (s.session id).map f := by
  have hp : (fun x : Session => x.id == id) ∘ (fun x => if x.id = id then f x else x) = fun x => x.id == id := by
    funext x
    by_cases hx : x.id = id <;> simp [hx, hf]
  simp only [State.session, updSession_sessions, List.find?_map, hp]
  cases hs : s.hid.cmd.sessions.find? fun x => x.id == id with
  | none => rfl
  | some x =>
    have hx : x.id = id := by simpa using List.find?_some hs
    simp [hx]

/-- The packet is the last its session has seen (R59). -/
def Session.touch (s : State) (x : Session) : Session := if x.opened then { x with at_ := s.hid.now } else x

/-- The session of a packet sees it. -/
def State.touchSession (s : State) (p : Packet) : M Unit :=
  if p.session ≠ 0 then updSession p.session.toNat (Session.touch s) else pure ()

theorem foot_touchSession (s : State) (p : Packet) : (s.touchSession p).In [1, 43] :=
  M.In.ite (foot_updSession _ _) (M.In.pure ())

theorem touchSession_bare (s : State) (p : Packet) : (s.touchSession p).Fixes State.bare := .when (updSession_bare ..)

theorem openSession_touch (s : State) (p : Packet) :
    ((s.touchSession p).run s).openSession p = (s.openSession p).map (Session.touch s) := by
  by_cases h0 : p.session = 0
  · have hs : ∀ t : State, t.openSession p = none := fun t => by
      simp only [State.openSession, h0]
      split <;> simp
    rw [hs, hs]
    rfl
  · have hid : ∀ x, (Session.touch s x).id = x.id := fun x => by unfold Session.touch; split <;> rfl
    have hop : ∀ x, (Session.touch s x).opened = x.opened := fun x => by unfold Session.touch; split <;> rfl
    have hsrc : ∀ x, (Session.touch s x).src = x.src := fun x => by unfold Session.touch; split <;> rfl
    simp only [State.openSession, State.touchSession, if_pos h0, session_updSession _ hid]
    cases s.session p.session.toNat with
    | none => rfl
    | some x =>
      simp only [Option.map_some, hop, hsrc]
      split <;> rfl

theorem replyKey_touch (s : State) (p : Packet) : ((s.touchSession p).run s).replyKey p = s.replyKey p := by
  have hk : ∀ x, (Session.touch s x).key = x.key := fun x => by unfold Session.touch; split <;> rfl
  simp only [State.replyKey, openSession_touch, Option.map_map, Function.comp_def, hk]

theorem ctxOf_touch (s : State) (op : Nat) (p : Packet) : ((s.touchSession p).run s).ctxOf op p = s.ctxOf op p := by
  have ha : ∀ x, (Session.touch s x).auth = x.auth := fun x => by unfold Session.touch; split <;> rfl
  simp only [State.ctxOf, openSession_touch, Option.map_map, Function.comp_def, ha]

theorem begun_eq (s : State) (op : Nat) (p : Packet) :
    s.begun op p = (startBusy op).run ((s.touchSession p).run s) :=
  M.Does.run (.thenMore ((foot_touchSession s p).does s) ((foot_startBusy op).does _))

theorem begun_bookkept (s : State) (op : Nat) (p : Packet) : Bookkept s (s.begun op p) := by
  rw [begun_eq]
  exact (bookkept_run (foot_touchSession s p) (touchSession_bare s p) s).trans
    (bookkept_run (foot_startBusy op) (startBusy_bare op) _)

/-! ## Execution (R44 steps 11 to 15) -/

/-- A request that fails steps 11 or 12 is answered so. -/
theorem execute_accessBad {c : Ctx} {p : Packet} (svcLow : Option Bool) {s : State} {a : Ans}
    (h : accessBad c p (bodyOf p) = some a) : ∃ u, (execute c p svcLow).Does s a u ∧ Bookkept s u := by
  have hin : (if (s.segBreak c p).isSome then putSeg c none else pure ()).In [1, 43] :=
    M.In.ite (foot_putSeg _ _) (M.In.pure ())
  refine ⟨_, .read ?_, bookkept_run hin (.when (putSeg_bare ..)) s⟩
  simp only [h]
  exact .thenMore (hin.does s) (M.does_pure a _)

/-- A request that fails steps 13 to 15 is answered so. -/
theorem execute_checksBad {c : Ctx} {p : Packet} (svcLow : Option Bool) {s : State} {a : Ans}
    (h : accessBad c p (bodyOf p) = none) (hb : s.segBreak c p = none)
    (hc : s.checksBad c p (bodyOf p) (s.segOf c) = some a) : ∃ u, (execute c p svcLow).Does s a u ∧ Bookkept s u := by
  refine ⟨_, .read ?_, (bookkept_run (foot_clearLost c) (clearLost_bare c) s).trans
    (bookkept_run (foot_putSeg c none) (putSeg_bare ..) _)⟩
  simp only [h, hb, hc]
  exact ((foot_clearLost c).does s).bind <| ((foot_putSeg c none).does _).bind <| M.does_pure a _

/-- A request that passes every check is handled; `t` is the state its effect leaves. -/
theorem execute_handled {c : Ctx} {p : Packet} {svcLow : Option Bool} {s t : State} {a : Ans} {g : Option Seg}
    (h : accessBad c p (bodyOf p) = none) (hb : s.segBreak c p = none)
    (hc : s.checksBad c p (bodyOf p) (s.segOf c) = none)
    (hh : (handle c p (bodyOf p) (s.segOf c) svcLow).Does ((clearLost c).run s) (a, g) t) :
    (execute c p svcLow).Does s a ((putSeg c g).run t) := by
  refine .read ?_
  simp only [h, hb, hc]
  exact ((foot_clearLost c).does s).bind <| hh.bind <| ((foot_putSeg c g).does _).bind <| M.does_pure a _

/-- Every request but a SEQUENCE_RUN that passes steps 11 and 12. -/
theorem executeTop_does {c : Ctx} {p : Packet} {svcLow : Option Bool} {s u : State} {a : Ans}
    (h : ¬ (c.op = 0x91 ∧ (accessBad c p (bodyOf p)).isNone = true)) (hx : (execute c p svcLow).Does s a u) :
    (executeTop c p svcLow).Does s a u := .read <| .ite_neg h hx

/-! ## Reception (R44 steps 5 to 10) -/

/-- A request that passes steps 5 to 10 runs at once. -/
theorem passOn_taken {op : Nat} {p : Packet} {svcLow : Option Bool} {s t : State} (ht : s.takes op p = true)
    (hp : (process op p svcLow).Does ((s.touchSession p).run s) () t) : (passOn op p svcLow).Does s () t := by
  simp only [State.takes, Bool.and_eq_true, Bool.or_eq_true, Bool.not_eq_true', beq_iff_eq, decide_eq_true_eq,
    Option.isNone_iff_eq_none] at ht
  obtain ⟨⟨⟨⟨⟨_, hsess⟩, htag⟩, hkept⟩, hwait⟩, hexec⟩ := ht.1
  refine .read <| .ite_neg (by simp [hsess]) <| .ite_neg (by simp [htag]) ?_
  refine .thenMore ((foot_touchSession s p).does s) ?_
  simp only [hkept]
  refine .ite_neg (by omega) <| .ite_neg ?_ <| .ite_neg ?_ hp
  · rintro ⟨h40, hpres⟩
    simp_all
  · rintro ⟨h40, hheld⟩
    simp_all

/-- What the checks before the executor know of a request for the violation log (R53). -/
abbrev requestCtx (op auth : Nat) (p : Packet) : Ctx := ⟨op, auth, p.session.toNat, srcCode p.src, srcId p.src⟩

/-- Step 7: the session is not open for the source. -/
theorem passOn_noSession {op : Nat} {p : Packet} {s : State} (svcLow : Option Bool) (h : s.sessionOk op p = false) :
    ∃ auth, (passOn op p svcLow).Does s () ((replyEarly op p (refuse 0x0114 0x8000000A)).run
      ((logViolation (requestCtx op auth p) (refuse 0x0114 0)).run s)) :=
  ⟨0, .read <| .ite_pos (by simp [h]) <| ((foot_logViolation _ _).does s).bind <| (foot_replyEarly _ _ _).does _⟩

/-- Step 8: the tag is missing or wrong. -/
theorem passOn_tagBad {op : Nat} {p : Packet} {s : State} (svcLow : Option Bool) (h : s.sessionOk op p = true)
    (ht : s.tagBad op p = true) :
    ∃ auth, (passOn op p svcLow).Does s () ((replyEarly op p (refuse 0x0113 0)).run
      ((logViolation (requestCtx op auth p) (refuse 0x0113 0)).run
        ((inc CMD.RX_ERR.BAD_AUTH).run s))) := by
  have hinc : (inc CMD.RX_ERR.BAD_AUTH).In [1] := M.In.inc 1 _ (by decide) (by decide)
  exact ⟨0, .read <| .ite_neg (by simp [h]) <| .ite_pos ht <| (hinc.does s).bind <|
    ((foot_logViolation _ _).does _).bind <| (foot_replyEarly _ _ _).does _⟩

theorem takeGo_none {s : State} (h : s.hid.cmd.go = none) : takeGo.Does s () s := by
  refine .read ?_
  simp only [h]
  exact M.does_pure () s

/-- A request that is received, and after which no GO waits. -/
theorem serve_run {op : Nat} {p : Packet} {svcLow : Option Bool} {s t : State} (hl : s.listens p.src = true)
    (hlen : p.payload.length ≤ maxPayload p.src) (hr : (receive op p svcLow).Does s () t) (hg : t.hid.cmd.go = none) :
    (serve op p svcLow).run s = t :=
  M.Does.run <| .read <| .ite_pos hl <| .ite_pos hlen <| hr.bind (takeGo_none hg)

theorem receive_early {op : Nat} {p : Packet} {a : Ans} (svcLow : Option Bool) (s : State)
    (h : earlyBad op p = some a) :
    (receive op p svcLow).Does s () ((replyEarly op p a).run s) := by
  refine .read ?_
  simp only [h]
  exact (foot_replyEarly _ _ _).does s

theorem receive_passOn {op : Nat} {p : Packet} {svcLow : Option Bool} {s t : State} (h : earlyBad op p = none)
    (hd : s.dev ≠ 6) (hp : (passOn op p svcLow).Does s () t) : (receive op p svcLow).Does s () t := by
  refine .read ?_
  simp only [h]
  exact .ite_neg hd hp

/-- The command of a request serves it. -/
theorem exec_of_requestOf {op : Nat} {p : Packet} {low : Bool} {i : Instr} (h : requestOf op p low = some i) :
    ∃ svcLow, ∀ s, exec i s = checked p.wf (serve op p svcLow) s := by
  unfold requestOf at h
  split at h <;> cases h
  all_goals exact ⟨_, fun _ => rfl⟩

end Sys2Proof.Machine
end

section
/-! Statements O9 and O12: the versions of packets, and the requests that fail a check before that of their payload. -/

namespace Sys2Proof.Machine

/-! ## Fields after a write -/

/-- A field that exists throughout reads back what was written into it, as far as it fits. -/
theorem bitsOf_withBits (w mask : Word) {hi lo : Nat} (v : Nat) (hhi : hi < 32)
    (hm : ∀ i < 32, lo ≤ i → i ≤ hi → mask.getLsbD i = true) :
    bitsOf (withBits w hi lo v &&& mask) hi lo = v % 2 ^ (hi + 1 - lo) := by
  apply Nat.eq_of_testBit_eq
  intro i
  simp only [bitsOf, withBits, Nat.testBit_mod_two_pow, Nat.testBit_div_two_pow, BitVec.testBit_toNat]
  by_cases hin : i < hi + 1 - lo
  · have h1 : i + lo < 32 := by omega
    have h2 : mask.getLsbD (i + lo) = true := hm _ h1 (by omega) (by omega)
    have hof : ∀ n, (BitVec.ofNat 32 n)[i] = n.testBit i := fun n => by
      rw [← BitVec.getLsbD_eq_getElem, BitVec.getLsbD_ofNat]
      simp [show i < 32 by omega]
    rw [BitVec.getLsbD_eq_getElem h1] at h2
    simp [hin, h1, h2, hof, Nat.testBit_two_pow_sub_one]
  · simp [hin]

theorem f_apply_reg_same {x : FldAt} (v : Nat) (s : State) (h : (regAt x.addr).isSome = true) (hhi : x.hi < 32)
    (hm : ∀ i < 32, x.lo ≤ i → i ≤ x.hi → (implMask x.addr).getLsbD i = true) :
    ((Act.reg x.addr (withBits (s.rd x.addr) x.hi x.lo v)).apply s).f x = v % 2 ^ (x.hi + 1 - x.lo) := by
  rw [State.f, rd_apply_reg_same _ _ _ h, bitsOf_withBits _ _ v hhi hm]

theorem inc_bumped {x : FldAt} (s : State) (h : (regAt x.addr).isSome = true) (hhi : x.hi < 32)
    (hm : ∀ i < 32, x.lo ≤ i → i ≤ x.hi → (implMask x.addr).getLsbD i = true) : Bumped x s ((inc x).run s) := by
  have hlt : s.f x < 2 ^ (x.hi + 1 - x.lo) := Nat.mod_lt _ (Nat.two_pow_pos _)
  unfold Bumped
  by_cases hc : s.f x + 1 < 2 ^ (x.hi + 1 - x.lo)
  · have hd : (inc x).Does s () _ := .read <| .ite_pos hc <| M.does_wf x _ s
    rw [hd.run, f_apply_reg_same _ s h hhi hm, Nat.mod_eq_of_lt hc]
    omega
  · have hd : (inc x).Does s () _ := .read <| .ite_neg hc <| M.does_pure () s
    rw [hd.run]
    omega

/-! ## A refusal that the violation log takes -/

theorem logged_of_sent {op auth : Nat} {p : Packet} {a : Ans} {s u t : State} (hu : Bookkept s u)
    (hs : a.status = stRefused) (hr : a.reason ∈ [0x0106, 0x0108, 0x0109, 0x0113, 0x0114])
    (ht : Sent ((logViolation (requestCtx op auth p) a).run u) t) :
    Logged op p a.reason (a.va % 16777216) s t := by
  have hl := logViolation_sent_same (requestCtx op auth p) a u
  have hb := logViolation_bare (requestCtx op auth p) a u
  constructor
  · rw [ht.same.vio (by decide) (by decide), logViolation_vio hs hr, hu.same.vio (by decide) (by decide),
      hu.same.ms (by decide) (by decide) (by decide)]
  · exact fun x hx => bare_rd (ht.bare.trans (hb.trans hu.bare)) hx
  · rw [ht.same.tabs (by decide) (by decide), hl.tabs (by decide) (by decide), hu.same.tabs (by decide) (by decide)]
  · rw [ht.same.chg (by decide) (by decide), hl.chg (by decide) (by decide), hu.same.chg (by decide) (by decide)]
  · rw [ht.same.pls (by decide) (by decide), hl.pls (by decide) (by decide), hu.same.pls (by decide) (by decide)]

theorem replyOf_of_sessions {s t : State} (h : t.hid.cmd.sessions = s.hid.cmd.sessions) (op : Nat) (p : Packet)
    (a : Ans) :
    t.replyOf op p a = s.replyOf op p a := by
  simp only [State.replyOf, State.replyKey, State.openSession, State.session, h]

theorem present_of_listens {s : State} {src : Source} (h : s.listens src = true) : s.present 10 = true := by
  simp only [State.listens, Bool.and_eq_true] at h
  exact h.1.2

/-- The hypotheses of a request that reaches the checks of its header. -/
theorem reaches_iff (s : State) (p : Packet) : s.reaches p = true ↔ p.wf = true ∧ s.listens p.src = true ∧
    p.payload.length ≤ maxPayload p.src ∧ s.dev ≠ 6 ∧ s.hid.cmd.go = none := by
  simp [State.reaches, and_assoc]

theorem takes_reaches {s : State} {op : Nat} {p : Packet} (hwf : p.wf = true) (h : s.takes op p = true) :
    s.reaches p = true ∧ earlyBad op p = none := by
  simp only [State.takes, Bool.and_eq_true, decide_eq_true_eq, bne_iff_ne, Option.isNone_iff_eq_none] at h
  obtain ⟨⟨⟨⟨⟨⟨⟨⟨⟨hlis, hlen⟩, hearly⟩, hdev⟩, _⟩, _⟩, _⟩, _⟩, _⟩, hgo⟩ := h
  exact ⟨(reaches_iff s p).mpr ⟨hwf, hlis, hlen, hdev, hgo⟩, hearly⟩

/-- A request that passes the check of its header and is not executed. -/
theorem serve_passOn {op : Nat} {p : Packet} {svcLow : Option Bool} {s t : State} (h : s.reaches p = true)
    (he : earlyBad op p = none) (hp : (passOn op p svcLow).Does s () t) (hb : t.bare = s.bare) :
    (serve op p svcLow).run s = t := by
  obtain ⟨_, hlis, hlen, hdev, hgo⟩ := (reaches_iff s p).mp h
  exact serve_run hlis hlen (receive_passOn he hdev hp) ((bare_go hb).trans hgo)

/-- A request that is executed: its answer follows what the violation log takes. -/
theorem serve_taken {op : Nat} {p : Packet} {svcLow : Option Bool} {s u : State} {a : Ans} (hwf : p.wf = true)
    (ht : s.takes op p = true) (hx : (executeTop (s.ctxOf op p) p svcLow).Does (s.begun op p) a u)
    (hu : u.bare = s.bare) (ha : ¬ (op = 0xF0 ∧ a.status = stOk ∧ p.scope.toNat = 3)) :
    (serve op p svcLow).run s = (sendAnswer op p (s.replyKey p) a).run ((logViolation (s.ctxOf op p) a).run u) := by
  obtain ⟨hr, he⟩ := takes_reaches hwf ht
  rw [begun_eq, ← ctxOf_touch] at hx
  have hp := process_does hx ha
  rw [ctxOf_touch, replyKey_touch] at hp
  exact serve_passOn hr he (passOn_taken ht hp)
    ((sendAnswer_sent ..).bare.trans ((logViolation_bare _ _ u).trans hu))

/-- A request whose execution ends in a refusal of R53 is answered so and logged. -/
theorem serve_refused {op : Nat} {p : Packet} {svcLow : Option Bool} {s : State} {a : Ans} (hwf : p.wf = true)
    (ht : s.takes op p = true)
    (hx : ∃ u, (executeTop (s.ctxOf op p) p svcLow).Does (s.begun op p) a u ∧ Bookkept (s.begun op p) u)
    (hs : a.status = stRefused) (hr : a.reason ∈ [0x0106, 0x0108, 0x0109, 0x0113, 0x0114]) :
    AnsweredLast op p a s ((serve op p svcLow).run s) ∧
      Logged op p a.reason (a.va % 16777216) s ((serve op p svcLow).run s) := by
  obtain ⟨u, hd, hu⟩ := hx
  have hu' := (begun_bookkept s op p).trans hu
  have hp : ((logViolation (s.ctxOf op p) a).run u).present 10 = true := by
    rw [present_of_bare ((logViolation_bare _ _ u).trans hu'.bare)]
    exact present_of_listens ((reaches_iff s p).mp (takes_reaches hwf ht).1).2.1
  rw [serve_taken hwf ht hd hu'.bare (by simp [hs])]
  refine ⟨fun hsrc hno hlen => ?_, logged_of_sent hu' hs hr (sendAnswer_sent ..)⟩
  rw [sendAnswer_spi _ hsrc hno hlen hp, List.getLast?_concat, replyOf_eq]

/-- A refusal of R53 that did not come from the executor, after which the sessions stand as before. -/
theorem replyEarly_refused {op auth : Nat} {p : Packet} {a b : Ans} {s u t : State} (hs : a.status = stRefused)
    (hr : a.reason ∈ [0x0106, 0x0108, 0x0109, 0x0113, 0x0114]) (hu : Bookkept s u)
    (hsess : u.hid.cmd.sessions = s.hid.cmd.sessions) (hp : s.present 10 = true)
    (ht : t = (replyEarly op p b).run
      ((logViolation (requestCtx op auth p) a).run u)) :
    AnsweredLast op p b s t ∧ Logged op p a.reason (a.va % 16777216) s t := by
  subst ht
  have hv := (logViolation_link (requestCtx op auth p) a).run u
  refine ⟨fun hsrc hno hlen => ?_, logged_of_sent hu hs hr (replyEarly_sent ..)⟩
  have hp' := (present_of_bare ((link_bare hv).trans hu.bare) 10).trans hp
  rw [replyEarly_spi hsrc hno hlen hp', List.getLast?_concat,
    replyOf_of_sessions ((link_sessions hv).trans hsess)]

/-! ## The checks before the payload -/

theorem early_completes {s : State} {op : Nat} {p : Packet} {svcLow : Option Bool} {a : Ans} (hr : s.reaches p = true)
    (ha : earlyBad op p = some a) :
    Answered op p a s ((serve op p svcLow).run s) ∧ Keeps [] eventPages s ((serve op p svcLow).run s) := by
  obtain ⟨_, hlis, hlen, _, hgo⟩ := (reaches_iff s p).mp hr
  have hsent := replyEarly_sent op p a s
  rw [serve_run hlis hlen (receive_early svcLow s ha) ((bare_go hsent.bare).trans hgo)]
  exact ⟨fun hsrc hno hd => replyEarly_spi hsrc hno hd (present_of_listens hlis), hsent.keeps⟩

theorem noSession_refused {s : State} {op : Nat} {p : Packet} {svcLow : Option Bool} (hr : s.reaches p = true)
    (he : earlyBad op p = none) (hs : s.sessionOk op p = false) :
    AnsweredLast op p (refuse 0x0114 0x8000000A) s ((serve op p svcLow).run s) ∧
      Logged op p 0x0114 0 s ((serve op p svcLow).run s) := by
  obtain ⟨auth, hd⟩ := passOn_noSession svcLow hs
  have hp := present_of_listens ((reaches_iff s p).mp hr).2.1
  rw [serve_passOn hr he hd ((replyEarly_sent ..).bare.trans (logViolation_bare ..))]
  exact replyEarly_refused rfl (by decide) (.refl s) rfl hp rfl

theorem bumped_of_link {s u t : State} (h : Bumped CMD.RX_ERR.BAD_AUTH s u) (ht : t.link = u.link) :
    Bumped CMD.RX_ERR.BAD_AUTH s t := by
  unfold Bumped at h ⊢
  rw [← h]
  exact f_of_rd_eq _ (link_rxErr ht)

theorem tagBad_refused {s : State} {op : Nat} {p : Packet} {svcLow : Option Bool} (hr : s.reaches p = true)
    (he : earlyBad op p = none) (hs : s.sessionOk op p = true) (ht : s.tagBad op p = true) :
    AnsweredLast op p (refuse 0x0113 0) s ((serve op p svcLow).run s) ∧
      Logged op p 0x0113 0 s ((serve op p svcLow).run s) ∧
      Bumped CMD.RX_ERR.BAD_AUTH s ((serve op p svcLow).run s) := by
  obtain ⟨auth, hd⟩ := passOn_tagBad svcLow hs ht
  have hp := present_of_listens ((reaches_iff s p).mp hr).2.1
  have hin : (inc CMD.RX_ERR.BAD_AUTH).In [1] := M.In.inc 1 _ (by decide) (by decide)
  have hinc : Bookkept s ((inc CMD.RX_ERR.BAD_AUTH).run s) :=
    bookkept_run (hin.mono (by decide)) (.incBare (by decide)) s
  have hcmd := congrArg CmdSt.sessions ((hin.run s).cmd (by decide) (by decide))
  have hl := ((replyEarly_link op p (refuse 0x0113 0)).run _).trans
    ((logViolation_link (requestCtx op auth p) (refuse 0x0113 0)).run ((inc CMD.RX_ERR.BAD_AUTH).run s))
  rw [serve_passOn hr he hd ((link_bare hl).trans hinc.bare)]
  obtain ⟨h1, h2⟩ := replyEarly_refused (a := refuse 0x0113 0) (b := refuse 0x0113 0) rfl (by decide) hinc hcmd hp rfl
  exact ⟨h1, h2, bumped_of_link (inc_bumped s (by decide) (by decide) (by decide)) hl⟩

theorem mem_knownOps_of_requestOf {op : Nat} {p : Packet} {low : Bool} {i : Instr} (h : requestOf op p low = some i) :
    op ∈ knownOps := by
  unfold requestOf at h
  split at h <;> cases h
  all_goals decide

/-- Without authority, a request of a known opcode fails step 12. -/
theorem accessBad_noAuthority {c : Ctx} {p : Packet} {body : List Byte} (hk : c.op ∈ knownOps)
    (h : authOk c.auth c.op p.scope.toNat p.inst.toNat body = false) : accessBad c p body = some (refuse 0x0106 0) := by
  simp [accessBad, hk, h]

theorem noAuthority_refused {s : State} {op : Nat} {p : Packet} {svcLow : Option Bool} (hwf : p.wf = true)
    (ht : s.takes op p = true) (hk : op ∈ knownOps)
    (ha : authOk (s.ctxOf op p).auth op p.scope.toNat p.inst.toNat (bodyOf p) = false) :
    AnsweredLast op p (refuse 0x0106 0) s ((serve op p svcLow).run s) ∧
      Logged op p 0x0106 0 s ((serve op p svcLow).run s) := by
  have hb : accessBad (s.ctxOf op p) p (bodyOf p) = some (refuse 0x0106 0) := accessBad_noAuthority hk ha
  obtain ⟨u, hd, hu⟩ := execute_accessBad svcLow (s := s.begun op p) hb
  exact serve_refused hwf ht ⟨u, executeTop_does (by simp [hb]) hd, hu⟩ rfl (by decide)

theorem Completes.of_request {op : Nat} {p : Packet} {low : Bool} {i : Instr} {s : State} {P : State → Prop}
    (h : requestOf op p low = some i) (hwf : p.wf = true) (hp : ∀ svcLow, P ((serve op p svcLow).run s)) :
    Completes i s P := by
  obtain ⟨svcLow, he⟩ := exec_of_requestOf h
  exact .of_checked (he s) hwf (hp svcLow)

/-- Settles O12: each check of R44 before the payload, in its order. -/
theorem headerChecksRefuse : Obligations.Header_checks_refuse := by
  unfold Obligations.Header_checks_refuse
  refine ⟨fun s op p low i a hi hr ha => ?_, fun s op p low i hi hr he hs => ?_, fun s op p low i hi hr he hs ht => ?_,
    fun s op p low i hi hwf ht ha => ?_⟩
  · exact .of_request hi ((reaches_iff s p).mp hr).1 fun _ => early_completes hr ha
  · exact .of_request hi ((reaches_iff s p).mp hr).1 fun _ => noSession_refused hr he hs
  · exact .of_request hi ((reaches_iff s p).mp hr).1 fun _ => tagBad_refused hr he hs ht
  · exact .of_request hi hwf fun _ => noAuthority_refused hwf ht (mem_knownOps_of_requestOf hi) ha

/-! ## Both versions (R10) -/

theorem version_of_early {op : Nat} {p : Packet} (h : earlyBad op p = none) : p.version = 1 ∨ p.version = 2 := by
  by_contra hc
  have hbad : earlyBad op p = some (refuse 0x0112 0x80000002) := if_pos (not_or.mp hc)
  simp [hbad] at h

theorem replyOf_version (s : State) (op : Nat) (p : Packet) (a : Ans) :
    (s.replyOf op p a).version = p.version.toNat := by
  rw [replyOf_eq]
  cases s.replyKey p <;> rfl

/-- What it means that a request passes every check before its effect. -/
theorem serves_iff (s : State) (op : Nat) (p : Packet) : s.serves op p = true ↔ p.wf = true ∧ s.takes op p = true ∧
    accessBad (s.ctxOf op p) p (bodyOf p) = none ∧ (s.begun op p).segBreak (s.ctxOf op p) p = none ∧
    (s.begun op p).checksBad (s.ctxOf op p) p (bodyOf p) ((s.begun op p).segOf (s.ctxOf op p)) = none := by
  simp [State.serves, and_assoc]

theorem handle_nop {c : Ctx} (h : c.op = 0x00) (p : Packet) (body : List Byte) (g : Option Seg) (svcLow : Option Bool)
    (s : State) : (handle c p body g svcLow).Does s ({}, none) s := by
  refine .read ?_
  simp only [h]
  exact M.does_pure _ s

theorem nop_executed {s : State} {p : Packet} (svcLow : Option Bool) (h : s.serves 0x00 p = true) :
    ∃ u, (executeTop (s.ctxOf 0x00 p) p svcLow).Does (s.begun 0x00 p) {} u ∧ Bookkept (s.begun 0x00 p) u := by
  obtain ⟨_, _, hacc, hseg, hchk⟩ := (serves_iff s 0x00 p).mp h
  have hop : ¬ ((s.ctxOf 0x00 p).op = 0x91 ∧ (accessBad (s.ctxOf 0x00 p) p (bodyOf p)).isNone = true) :=
    fun hc => absurd hc.1 (by simp [State.ctxOf])
  exact ⟨_, executeTop_does hop (execute_handled hacc hseg hchk (handle_nop rfl _ _ _ _ _)),
    (bookkept_run (foot_clearLost _) (clearLost_bare _) _).trans (bookkept_run (foot_putSeg _ _) (putSeg_bare ..) _)⟩

/-- A NOP that passes the checks is answered by one packet, and no event goes before it. -/
theorem nop_answered {s : State} {p : Packet} (svcLow : Option Bool) (h : s.serves 0x00 p = true) (hsrc : p.src = .spi)
    (hno : bit p.flags.toNat 2 = false) :
    ((serve 0x00 p svcLow).run s).que.spi = s.que.spi ++ [s.replyOf 0x00 p {}] := by
  obtain ⟨hwf, ht, _⟩ := (serves_iff s 0x00 p).mp h
  obtain ⟨u, hd, hu⟩ := nop_executed svcLow h
  have hu' := (begun_bookkept s 0x00 p).trans hu
  have hp : u.present 10 = true := by
    rw [present_of_bare hu'.bare]
    exact present_of_listens ((reaches_iff s p).mp (takes_reaches hwf ht).1).2.1
  rw [serve_taken hwf ht hd hu'.bare (fun hc => absurd hc.1 (by decide)), logViolation_none (by decide),
    sendAnswer_spi _ hsrc hno (by decide) hp, hu'.same.spi (by decide) (by decide), replyOf_eq]

/-- Settles O9: the check of the header asks for either version, a reply repeats it, and a NOP is answered. -/
theorem bothVersionsServe : Obligations.Both_versions_serve := by
  unfold Obligations.Both_versions_serve
  refine ⟨fun op p => by simp [earlyBad], replyOf_version, fun s p h => ?_, fun s p h hsrc hno => ?_⟩
  · obtain ⟨hwf, ht, _⟩ := (serves_iff s 0x00 p).mp h
    exact version_of_early (takes_reaches hwf ht).2
  · exact .of_checked rfl ((serves_iff s 0x00 p).mp h).1 (nop_answered none h hsrc hno)

end Sys2Proof.Machine
end

section
/-! Statement O18: any access to a page that has no parameters. -/

namespace Sys2Proof.Machine

/-- The pages from 0x17 on have no parameters (R8). -/
theorem regAt_unmapped {a : Nat} (h : 23 ≤ a / 65536) : regAt a = none := by
  have hn : regsOfPage (a / 65536) = [] := by
    unfold regsOfPage
    split
    case h_24 => rfl
    all_goals omega
  simp [regAt, hn]

/-! ## READ, WRITE and MODIFY -/

theorem ofLe_lt (l : List Byte) : ofLe l < 256 ^ l.length := by
  induction l with
  | nil => decide
  | cons b l ih =>
    have := b.isLt
    simp only [ofLe, List.length_cons, pow_succ]
    omega

theorem leAt_lt (l : List Byte) (o n : Nat) : leAt l o n < 256 ^ n := by
  simpa [leAt] using ofLe_lt ((List.range n).map fun i => l.getD (o + i) 0)

/-- Step 15 refuses a page above 0x16 at the address of the range. -/
theorem checksBad_unmapped {s : State} {c : Ctx} {p : Packet} {body : List Byte} {g : Option Seg}
    (hop : c.op = 0x10 ∨ c.op = 0x11 ∨ c.op = 0x12) (hp : 0x16 < p.page.toNat)
    (hs : s.stateBad c.auth c.op p body g = none) (hz : sizeBad c.op p body g.isSome = none) :
    s.checksBad c p body g = some (refuseAt 0x0109 (p.page.toNat * 65536 + leAt body 0 2)) := by
  have ht : targetBad c.op p body = some (refuseAt 0x0109 (p.page.toNat * 65536 + leAt body 0 2)) := by
    simp [targetBad, hop, hp]
  simp only [State.checksBad, hs, hz, ht]

theorem unmapped_refused {s : State} {op : Nat} {p : Packet} (svcLow : Option Bool)
    (hop : op = 0x10 ∨ op = 0x11 ∨ op = 0x12) (hwf : p.wf = true) (ht : s.takes op p = true)
    (hp : 0x16 < p.page.toNat) (hacc : accessBad (s.ctxOf op p) p (bodyOf p) = none)
    (hseg : (s.begun op p).segBreak (s.ctxOf op p) p = none)
    (hst : (s.begun op p).stateBad (s.ctxOf op p).auth op p (bodyOf p) ((s.begun op p).segOf (s.ctxOf op p)) = none)
    (hsz : sizeBad op p (bodyOf p) ((s.begun op p).segOf (s.ctxOf op p)).isSome = none) :
    AnsweredLast op p (refuse 0x0109 (p.page.toNat * 65536 + leAt (bodyOf p) 0 2)) s ((serve op p svcLow).run s) ∧
      Logged op p 0x0109 (p.page.toNat * 65536 + leAt (bodyOf p) 0 2) s ((serve op p svcLow).run s) := by
  have hlt : p.page.toNat * 65536 + leAt (bodyOf p) 0 2 < 16777216 := by
    have := leAt_lt (bodyOf p) 0 2
    have := p.page.isLt
    omega
  obtain ⟨u, hd, hu⟩ := execute_checksBad svcLow hacc hseg (checksBad_unmapped hop hp hst hsz)
  have hne : ¬ ((s.ctxOf op p).op = 0x91 ∧ (accessBad (s.ctxOf op p) p (bodyOf p)).isNone = true) := fun hc => by
    have : op = 0x91 := hc.1
    omega
  obtain ⟨hans, hlog⟩ := serve_refused hwf ht ⟨u, executeTop_does hne hd, hu⟩ rfl (by simp)
  rw [Nat.mod_eq_of_lt hlt] at hlog
  exact ⟨hans, hlog⟩

/-! ## Legacy frames (R70) -/

theorem crc8Shift_lt {c : Nat} (h : c < 256) : crc8Shift c < 256 := by
  unfold crc8Shift
  split
  · exact Nat.xor_lt_two_pow (n := 8) (by omega) (by decide)
  · omega

theorem crc8_lt (bs : List Byte) : crc8 bs < 256 := by
  suffices h : ∀ c < 256, bs.foldl (fun c b => (crc8Shift ∘ crc8Shift ∘ crc8Shift ∘ crc8Shift ∘
      crc8Shift ∘ crc8Shift ∘ crc8Shift ∘ crc8Shift) (c ^^^ b.toNat)) c < 256 from h 0xFF (by decide)
  induction bs with
  | nil => exact fun c hc => hc
  | cons b bs ih =>
    intro c hc
    have hx : c ^^^ b.toNat < 256 := Nat.xor_lt_two_pow (n := 8) hc b.isLt
    rw [List.foldl_cons]
    apply ih
    simp only [Function.comp_apply]
    iterate 8 apply crc8Shift_lt
    exact hx

/-- The number of a legacy frame is its bits 71:8 above the CRC-8. -/
theorem legacyWord_toNat (hi : BitVec 64) : ∃ c < 256, (legacyWord hi).toNat = hi.toNat * 256 + c := by
  have hc := crc8_lt ((List.range 8).map fun i => BitVec.ofNat 8 (hi.toNat / 2 ^ (56 - 8 * i)))
  have hlt := hi.isLt
  refine ⟨_, hc, ?_⟩
  simp only [legacyWord, BitVec.toNat_ofNat]
  omega

/-- Bits 71:8 of the frame that reads or writes a parameter. -/
def legacyBits (write : Bool) (a : Nat) (w : Word) : BitVec 64 :=
  BitVec.ofNat 64 (b2n write * 2 ^ 63 + a * 2 ^ 32 + w.toNat)

theorem legacyBits_toNat (write : Bool) {a : Nat} (w : Word) (ha : a < 2 ^ 24) :
    (legacyBits write a w).toNat = b2n write * 2 ^ 63 + a * 2 ^ 32 + w.toNat := by
  have := w.isLt
  have : b2n write ≤ 1 := by cases write <;> decide
  rw [legacyBits, BitVec.toNat_ofNat]
  omega

/-- What the block finds in such a frame: a right CRC-8, the address, zero bits 70:64, the direction and the data. -/
theorem legacyFrame_fields (write : Bool) {a : Nat} (w : Word) (ha : a < 2 ^ 24) {n : Nat}
    (hn : n = (legacyWord (legacyBits write a w)).toNat) :
    BitVec.ofNat 64 (n / 256) = legacyBits write a w ∧ n / 2 ^ 40 % 16777216 = a ∧ n / 2 ^ 64 % 128 = 0 ∧
      bit n 71 = write ∧ BitVec.ofNat 32 (n / 256) = w := by
  obtain ⟨c, hc, h⟩ := legacyWord_toNat (legacyBits write a w)
  have hb := legacyBits_toNat write w ha
  have hw := w.isLt
  have hd : n / 256 = (legacyBits write a w).toNat := by omega
  refine ⟨by rw [hd, BitVec.ofNat_toNat, BitVec.setWidth_eq], by omega, by omega, ?_, ?_⟩
  · cases write with
    | false =>
      have h0 : b2n false = 0 := rfl
      simp only [bit, beq_eq_false_iff_ne]
      omega
    | true =>
      have h1 : b2n true = 1 := rfl
      simp only [bit, beq_iff_eq]
      omega
  · apply BitVec.eq_of_toNat_eq
    rw [BitVec.toNat_ofNat]
    omega

theorem legacyOpen_iff (s : State) : s.legacyOpen = true ↔ s.hid.lcy.held = false ∧ s.hid.lcy.resetSoon = false ∧
    s.linkOpen = true ∧ s.present 10 = true ∧ s.packetMode = false ∧ s.dev ≠ 6 ∧ s.hid.cmd.go = none := by
  simp [State.legacyOpen, and_assoc]

theorem M.Does.map {α β : Type} {m : M α} {s t : State} {a : α} (f : α → β) (h : m.Does s a t) :
    (f <$> m).Does s (f a) t := fun k => h fun x => k (f x)

/-- A read or write of one word that no parameter has is refused at its address, before anything else. -/
theorem readWords_unmapped {c : Ctx} {a : Nat} {s : State} (hr : regAt a = none) (hp : s.packetMode = false) :
    (readWords c [a]).Does s (refuseAt 0x0109 a, []) s := by
  refine .read <| .ite_neg (by simp [State.tunnelClosed, hp]) ?_
  simp only [List.findSome?_cons, hr]
  exact M.does_pure _ s

theorem writeWords_unmapped {c : Ctx} {a : Nat} {w : Word} {s : State} (hr : regAt a = none) :
    (writeWords c [(a, w)]).Does s (refuseAt 0x0109 a) s := by
  have hc : s.writeCheck c [(a, w)] = some (refuseAt 0x0109 a) := by simp [State.writeCheck, hr]
  refine .read ?_
  simp only [hc]
  exact M.does_pure _ s

/-- What the executor knows of a legacy frame: OPERATOR, session 0. -/
def legacyCtx (write : Bool) : Ctx := ⟨if write then 0x11 else 0x10, authOperator, 0, 0x02, 0⟩

theorem legacyAccess_unmapped {write : Bool} {a : Nat} {w : Word} {s : State} (hr : regAt a = none)
    (hp : s.packetMode = false) (hd : s.dev ≠ 6) :
    (legacyAccess write a w).Does s (refuseAt 0x0109 a, 0)
      ((logViolation (legacyCtx write) (refuseAt 0x0109 a)).run s) := by
  refine .read <| .ite_neg hd ?_
  have hlog : (do
      logViolation (legacyCtx write) (refuseAt 0x0109 a)
      return (refuseAt 0x0109 a, (0 : Word)) : M (Ans × Word)).Does s _ _ :=
    ((foot_logViolation _ _).does s).bind (M.does_pure _ _)
  cases write
  · exact .ite_neg (by decide) <| (readWords_unmapped hr hp).bind hlog
  · exact .ite_pos rfl <| ((writeWords_unmapped hr).map _).bind hlog

/-- What a refused frame leaves for the host: reason and address, and the result of the next frame (R70). -/
def legacyRefused (reason a : Nat) (r : BitVec 72) : M Unit := do
  wf CMD.LEGACY_ERR.REASON reason
  wf CMD.LEGACY_ADDR.ADDRESS a
  hid fun h => { h with cmd := { h.cmd with legacy := r } }

theorem foot_legacyRefused (reason a : Nat) (r : BitVec 72) : (legacyRefused reason a r).In [1, 43] :=
  (M.In.wf 1 _ _ (by decide) (by decide)).bind fun _ => (M.In.wf 1 _ _ (by decide) (by decide)).bind fun _ =>
    M.In.hid_cmd _ (by decide)

theorem legacyRefused_bare (reason a : Nat) (r : BitVec 72) : (legacyRefused reason a r).Fixes State.bare :=
  .bind (.wfBare _ (by decide)) fun _ => .bind (.wfBare _ (by decide)) fun _ => .hidBare fun _ => rfl

theorem legacyRefused_shows (reason a : Nat) (r : BitVec 72) (s : State) (hr : reason < 65536) :
    ((legacyRefused reason a r).run s).hid.cmd.legacy = r ∧
      ((legacyRefused reason a r).run s).f CMD.LEGACY_ERR.REASON = reason := by
  have hd : (legacyRefused reason a r).Does s () _ :=
    (M.does_wf CMD.LEGACY_ERR.REASON reason s).bind <| (M.does_wf CMD.LEGACY_ADDR.ADDRESS a _).bind <| M.does_hid _ _
  rw [hd.run]
  refine ⟨rfl, ?_⟩
  have hreason := f_apply_reg_same (x := CMD.LEGACY_ERR.REASON) reason s (by decide) (by decide) (by decide)
  exact (f_of_rd_eq _ (rd_apply_reg_other CMD.LEGACY_ADDR CMD.LEGACY_ERR _ _ (by decide))).trans
    (hreason.trans (Nat.mod_eq_of_lt hr))

/-- A frame to an unmapped address: the log takes it, its reason and address are shown, and its result is REFUSED. -/
theorem legacyFrame_unmapped {write : Bool} {a : Nat} {w : Word} {s : State} (ho : s.legacyOpen = true)
    (hr : regAt a = none) (ha : a < 2 ^ 24) :
    (legacyFrame (legacyWord (legacyBits write a w))).run s = (legacyRefused 0x0109 a (legacyResult 0xC0 a 0)).run
      ((logViolation (legacyCtx write) (refuseAt 0x0109 a)).run s) := by
  obtain ⟨hheld, hsoon, hlink, hpres, hmode, hdev, hgo⟩ := (legacyOpen_iff s).mp ho
  obtain ⟨hbits, haddr, hzero, hdir, hdata⟩ := legacyFrame_fields write w ha rfl
  have hacc := legacyAccess_unmapped (write := write) (w := w) hr hmode hdev
  have hb := ((legacyRefused_bare 0x0109 a (legacyResult 0xC0 a 0)).run _).trans
    (logViolation_bare (legacyCtx write) (refuseAt 0x0109 a) s)
  have htail : (do
      wf CMD.LEGACY_ERR.REASON 0x0109
      wf CMD.LEGACY_ADDR.ADDRESS a
      hid fun h => { h with cmd := { h.cmd with legacy := legacyResult 0xC0 a 0 } }
      takeGo : M Unit).Does _ () _ :=
    ((foot_legacyRefused 0x0109 a (legacyResult 0xC0 a 0)).does
      ((logViolation (legacyCtx write) (refuseAt 0x0109 a)).run s)).bind (takeGo_none ((bare_go hb).trans hgo))
  refine M.Does.run <| .read <| .ite_pos (by simp [*]) ?_
  simp only [hbits, haddr, hzero, hdir, hdata]
  exact .ite_neg (by simp) <| .ite_neg (by simp) <| hacc.bind <| .ite_pos (by simp) htail

theorem legacyFrame_refused {write : Bool} {a : Nat} {w : Word} {s : State} (ho : s.legacyOpen = true)
    (hr : regAt a = none) (ha : a < 2 ^ 24) {t : State}
    (ht : t = (legacyFrame (legacyWord (legacyBits write a w))).run s) :
    t.hid.cmd.legacy = legacyResult 0xC0 a 0 ∧ t.f CMD.LEGACY_ERR.REASON = 0x0109 ∧
      t.que.vio = ringPush 64 s.que.vio ⟨a, s.ms % 4294967296, if write then 0x11 else 0x10, 0, 0x02, 0x09, 0⟩ ∧
      (∀ b, b / 65536 ∉ eventPages → t.rd b = s.rd b) ∧ t.tabs = s.tabs ∧ t.que.chg = s.que.chg := by
  rw [legacyFrame_unmapped ho hr ha] at ht
  subst ht
  have hl := logViolation_sent_same (legacyCtx write) (refuseAt 0x0109 a) s
  have hlb := logViolation_bare (legacyCtx write) (refuseAt 0x0109 a) s
  have hv := logViolation_vio (c := legacyCtx write) (a := refuseAt 0x0109 a) rfl (by simp) s
  have hm : (refuseAt 0x0109 a).va % 16777216 = a := Nat.mod_eq_of_lt ha
  generalize (logViolation (legacyCtx write) (refuseAt 0x0109 a)).run s = u at hl hlb hv
  have hx := bookkept_run (foot_legacyRefused 0x0109 a (legacyResult 0xC0 a 0)) (legacyRefused_bare ..) u
  obtain ⟨hres, hreason⟩ := legacyRefused_shows 0x0109 a (legacyResult 0xC0 a 0) u (by decide)
  refine ⟨hres, hreason, ?_, fun b hb => bare_rd (hx.bare.trans hlb) hb,
    (hx.same.tabs (by decide) (by decide)).trans (hl.tabs (by decide) (by decide)),
    (hx.same.chg (by decide) (by decide)).trans (hl.chg (by decide) (by decide))⟩
  rw [hx.same.vio (by decide) (by decide), hv, hm]
  simp [legacyCtx]

/-- Settles O18: a request is refused at step 15, a legacy frame where it looks for its parameter. -/
theorem unmappedPagesRefuse : Obligations.Unmapped_pages_refuse := by
  unfold Obligations.Unmapped_pages_refuse
  refine ⟨fun s op p i hop hi hwf ht hp hacc hseg hst hsz => ?_, fun s write a w ho hlo hhi => ?_⟩
  · refine .of_request hi hwf fun svcLow => ?_
    obtain ⟨hans, hlog⟩ := unmapped_refused svcLow hop hwf ht hp hacc hseg hst hsz
    exact ⟨hans, hlog.vio, hlog.rd, hlog.tabs, hlog.chg⟩
  · exact .of_next rfl (legacyFrame_refused ho (regAt_unmapped (by omega)) hhi rfl)

end Sys2Proof.Machine
end

section
/-! Statement O30: a clock deviation ends the operations of its island, and what they show with them. -/

namespace Sys2Proof.Machine

/-- The block in STANDBY, the memory island PRESENT. -/
def memoryUp : State :=
  M.run (do
    wf SYS.STATUS.DEV_STATE 1
    wf (SYS.ISLAND.STATE 11) 2)
  { State.reset with hid := { State.reset.hid with lcy := { held := false } } }

/-- MEM_SCRUB of eight pages from address 0x20000. -/
def scrubRequest : Packet := ⟨.spi, 2, 0, 7, 0, 0, 0, 4, leBytes 4 0x20000 ++ leBytes 4 8⟩

/-- The block while that scrub runs: SCRUB_ACTIVE is 1, and its COMPLETION is due. -/
def scrubbing : State :=
  M.run (do
    let _ ← opScrub scrubRequest (bodyOf scrubRequest) false) memoryUp

theorem scrubbing_awake : scrubbing.awake = true := by decide +kernel

theorem scrubbing_shows : scrubbing.f MEM.STATUS.SCRUB_ACTIVE = 1 := by decide +kernel

/-- R24: the scrub ends with the service of its island, and MEM.STATUS shows it no more. -/
theorem scrub_ends_with_island :
    ((whenAwake (clockDeviation 11 false)).run scrubbing).f MEM.STATUS.SCRUB_ACTIVE = 0 := by decide +kernel

/-- Refutes O30: a deviation of the memory island's clock ends a scrub that runs there (R24), which changes MEM.STATUS;
its page is none of those that the statement's first part lets change. -/
theorem not_clockAndLinkFaults : ¬ Obligations.Clock_and_link_faults := by
  unfold Obligations.Clock_and_link_faults
  rintro ⟨hdev, -⟩
  obtain ⟨t, ht, -, -, -, hkeeps⟩ := hdev scrubbing 11 false scrubbing_awake
  have hrun : t = (whenAwake (clockDeviation 11 false)).run scrubbing := by injection ht with ht; exact ht.symm
  have hsame : t.f MEM.STATUS.SCRUB_ACTIVE = scrubbing.f MEM.STATUS.SCRUB_ACTIVE :=
    f_of_rd_eq _ (hkeeps.rd MEM.STATUS (by decide) (by decide))
  rw [hrun, scrub_ends_with_island, scrubbing_shows] at hsame
  exact absurd hsame (by decide)

end Sys2Proof.Machine
end

section
/-! SUPPORT. Fields beside one another, and what a computation leaves by its footprint. -/

namespace Sys2Proof.Machine

/-! ## Fields of one parameter -/

/-- A field all of whose bits exist in a mapped parameter. -/
abbrev FldAt.Real (x : FldAt) : Prop :=
  (regAt x.addr).isSome = true ∧ x.hi < 32 ∧ ∀ i < 32, x.lo ≤ i → i ≤ x.hi → (implMask x.addr).getLsbD i = true

/-- A field that a write of another field does not reach. -/
abbrev FldAt.Apart (y x : FldAt) : Prop := y.addr ≠ x.addr ∨ (y.Real ∧ (y.hi < x.lo ∨ x.hi < y.lo))

theorem getElem_ofNat (n : Nat) {i : Nat} (h : i < 32) : (BitVec.ofNat 32 n)[i] = n.testBit i := by
  rw [← BitVec.getLsbD_eq_getElem, BitVec.getLsbD_ofNat]
  simp [h]

/-- A write of other bits of its word leaves a field that exists throughout. -/
theorem bitsOf_withBits_apart (w mask : Word) {hi lo hi' lo' : Nat} (v : Nat) (hhi : hi' < 32)
    (hm : ∀ i < 32, lo' ≤ i → i ≤ hi' → mask.getLsbD i = true) (hd : hi' < lo ∨ hi < lo') :
    bitsOf (withBits w hi lo v &&& mask) hi' lo' = bitsOf w hi' lo' := by
  apply Nat.eq_of_testBit_eq
  intro i
  simp only [bitsOf, withBits, Nat.testBit_mod_two_pow, Nat.testBit_div_two_pow, BitVec.testBit_toNat]
  by_cases hin : i < hi' + 1 - lo'
  · have h1 : i + lo' < 32 := by omega
    have h2 : mask.getLsbD (i + lo') = true := hm _ h1 (by omega) (by omega)
    rcases hd with hd | hd
    · simp [hin, h1, h2, show i + lo' < lo by omega]
    · have hn : ¬ i + lo' - lo < hi + 1 - lo := by omega
      rw [BitVec.getLsbD_eq_getElem h1] at h2
      have hs : i + lo' - lo < 32 := by omega
      simp [hin, h1, h2, hn, getElem_ofNat _ hs, Nat.testBit_two_pow_sub_one]
  · simp [hin]

theorem f_wf_same {x : FldAt} (h : x.Real) (v : Nat) (s : State) :
    ((Act.reg x.addr (withBits (s.rd x.addr) x.hi x.lo v)).apply s).f x = v % 2 ^ (x.hi + 1 - x.lo) :=
  f_apply_reg_same v s h.1 h.2.1 h.2.2

theorem f_wf_apart {x y : FldAt} (h : y.Apart x) (v : Nat) (s : State) :
    ((Act.reg x.addr (withBits (s.rd x.addr) x.hi x.lo v)).apply s).f y = s.f y := by
  rcases eq_or_ne y.addr x.addr with ha | ha
  · obtain ⟨⟨hmap, hhi, hm⟩, hd⟩ := h.resolve_left (not_not_intro ha)
    rw [State.f, State.f, ← ha, rd_apply_reg_same _ _ _ hmap, bitsOf_withBits_apart _ _ v hhi hm hd]
  · exact f_of_rd_eq y (rd_apply_reg_other _ _ _ s ha)

theorem f_lt (x : FldAt) (s : State) : s.f x < 2 ^ (x.hi + 1 - x.lo) := Nat.mod_lt _ (Nat.two_pow_pos _)

theorem FldAt.Real.bumped {x : FldAt} (h : x.Real) (s : State) : Bumped x s ((inc x).run s) :=
  inc_bumped s h.1 h.2.1 h.2.2

/-! ## What leaves a field -/

theorem M.Fixes.wfApart {x y : FldAt} (h : y.Apart x) (v : Nat) : (Machine.wf x v).Fixes fun s => s.f y :=
  ⟨fun s => ⟨(), _, M.does_wf x v s, f_wf_apart h v s⟩⟩

theorem M.Fixes.incApart {x y : FldAt} (h : y.Apart x) : (inc x).Fixes fun s => s.f y :=
  .read fun _ => .when (.wfApart h _)

theorem M.Fixes.wrApart {a : Nat} {y : FldAt} (w : Word) (h : y.addr ≠ a) : (Machine.wr a w).Fixes fun s => s.f y :=
  .act fun s => f_of_rd_eq y (rd_apply_reg_other a _ w s h)

/-- What does not depend on the places a computation may change. -/
theorem M.Fixes.ofIn {α γ : Type} {P : List Nat} {m : M α} {π : State → γ} (h : m.In P)
    (hp : ∀ s t, Same P s t → π t = π s) : m.Fixes π := by
  refine ⟨fun s => ?_⟩
  obtain ⟨a, t, hd, hs⟩ := h s
  exact ⟨a, t, hd, hp s t hs⟩

theorem Same.f {P : List Nat} {s t : State} (h : Same P s t) (hn : 99 ∉ P) {x : FldAt} (hx : x.addr / 65536 ∉ P) :
    t.f x = s.f x := f_of_rd_eq x (h.rd hn _ hx)

theorem M.Fixes.mapM {α β γ : Type} {π : State → γ} {f : α → M β} (h : ∀ x, (f x).Fixes π) :
    ∀ l : List α, (l.mapM f).Fixes π
  | [] => by
    rw [List.mapM_nil]
    exact .pure _
  | x :: l => by
    rw [List.mapM_cons]
    exact (h x).bind fun _ => (M.Fixes.mapM h l).bind fun _ => .pure _

theorem M.Does.fixes {α γ : Type} {m : M α} {π : State → γ} {s t : State} {a : α} (hd : m.Does s a t) (h : m.Fixes π) :
    π t = π s := by
  obtain ⟨b, u, hd', hu⟩ := h.does s
  have htu : t = u := (hd fun _ => .done).symm.trans (hd' fun _ => .done)
  exact htu ▸ hu

/-- Two views at once. -/
theorem M.Fixes.prod {α β γ : Type} {m : M α} {π : State → β} {ρ : State → γ} (h : m.Fixes π) (h' : m.Fixes ρ) :
    m.Fixes fun s => (π s, ρ s) := by
  refine ⟨fun s => ?_⟩
  obtain ⟨a, t, hd, ht⟩ := h.does s
  exact ⟨a, t, hd, Prod.ext ht (hd.fixes h')⟩

/-! ## What holds at the end of a computation -/

/-- The computation ends, with an answer and in a state of which `P` holds. -/
def M.Ends {α : Type} (m : M α) (s : State) (P : α → State → Prop) : Prop := ∃ a t, m.Does s a t ∧ P a t

section
variable {α β γ : Type} {s u : State} {P : β → State → Prop}

theorem M.Ends.run {m : M Unit} {P : Unit → State → Prop} (h : m.Ends s P) : P () (m.run s) := by
  obtain ⟨_, t, hd, hp⟩ := h
  rwa [hd.run]

theorem M.Ends.bind {m : M α} {f : α → M β} {a : α} (h : m.Does s a u) (h' : (f a).Ends u P) : (m >>= f).Ends s P := by
  obtain ⟨b, t, hd, hp⟩ := h'
  exact ⟨b, t, h.bind hd, hp⟩

theorem M.Ends.read {f : State → M β} (h : (f s).Ends s P) : (Machine.getS >>= f).Ends s P := .bind (M.does_getS s) h

theorem M.Ends.ofDoes {m : M β} {b : β} (h : m.Does s b u) (hp : P b u) : m.Ends s P := ⟨b, u, h, hp⟩

/-- A computation that fixes what `P` depends on. -/
theorem M.Ends.ofFixes {m : M β} {π : State → γ} (h : m.Fixes π) (hp : ∀ b t, π t = π s → P b t) : m.Ends s P := by
  obtain ⟨b, t, hd, ht⟩ := h.does s
  exact ⟨b, t, hd, hp b t ht⟩

theorem M.Fixes.ofEnds {m : M β} {π : State → γ} (h : ∀ s, m.Ends s fun _ t => π t = π s) : m.Fixes π := ⟨h⟩

/-- A first part of which no more is known than what it fixes. -/
theorem M.Ends.after {m : M α} {f : α → M β} {π : State → γ} (h : m.Fixes π)
    (h' : ∀ a t, π t = π s → (f a).Ends t P) : (m >>= f).Ends s P := by
  obtain ⟨a, t, hd, ht⟩ := h.does s
  exact .bind hd (h' a t ht)

theorem M.Ends.ite_pos {c : Prop} [Decidable c] {m n : M β} (hc : c) (h : m.Ends s P) :
    (if c then m else n).Ends s P := by rwa [if_pos hc]

theorem M.Ends.ite_neg {c : Prop} [Decidable c] {m n : M β} (hc : ¬ c) (h : n.Ends s P) :
    (if c then m else n).Ends s P := by rwa [if_neg hc]

end

/-! ## Occurrences (R402, R407) -/

theorem FLG.OCCUR_fields (src : Fin 256) : (FLG.OCCUR.OCCURRENCES src).Real ∧ (FLG.OCCUR.LAST_INSTANCE src).Real := by
  revert src
  decide +kernel

/-- The three fields of FLG.OCCUR lie beside one another. -/
theorem FLG.OCCUR_beside (src : Fin 256) :
    (FLG.OCCUR.OCCURRENCES src).Apart (FLG.OCCUR.LAST_INSTANCE src) ∧
      (FLG.OCCUR.OCCURRENCES src).Apart (FLG.OCCUR.LASTINGS src) ∧
      (FLG.OCCUR.LAST_INSTANCE src).Apart (FLG.OCCUR.LASTINGS src) := by
  obtain ⟨hocc, hlast⟩ := FLG.OCCUR_fields src
  exact ⟨.inr ⟨hocc, .inr (show 7 < 16 by decide)⟩, .inr ⟨hocc, .inr (show 15 < 16 by decide)⟩,
    .inr ⟨hlast, .inl (show 7 < 8 by decide)⟩⟩

theorem FLG.OCCUR_apart (src : Fin 256) : FLG.OCCUR src ≠ FLG.LASTING src ∧ FLG.OCCUR src ≠ FLG.STATUS1 := by
  unfold FLG.OCCUR FLG.LASTING FLG.STATUS1 arr
  have := src.isLt
  simp only [this, Nat.zero_le, and_self, if_true]
  omega

/-- What an occurrence shows in FLG.OCCUR of its source. -/
def State.occurShown (src : Nat) (s : State) : Nat × Nat :=
  (s.f (FLG.OCCUR.OCCURRENCES src), s.f (FLG.OCCUR.LAST_INSTANCE src))

theorem Same.shown {P : List Nat} {s t : State} (src : Nat) (h : Same P s t) (hn : 99 ∉ P) (hp : 17 ∉ P) :
    t.occurShown src = s.occurShown src :=
  have hx : FLG.OCCUR src / 65536 ∉ P := by rwa [FLG.OCCUR_page]
  Prod.ext (h.f hn hx) (h.f hn hx)

theorem M.Fixes.shownIn {α : Type} {P : List Nat} {m : M α} (src : Nat) (h : m.In P) (hn : 99 ∉ P) (hp : 17 ∉ P) :
    m.Fixes (State.occurShown src) := .ofIn h fun _ _ hs => hs.shown src hn hp

theorem M.Fixes.shownWr {a src : Nat} (w : Word) (h : FLG.OCCUR src ≠ a) :
    (Machine.wr a w).Fixes (State.occurShown src) := .prod (.wrApart w h) (.wrApart w h)

theorem M.Fixes.shownInc {x : FldAt} {src : Nat} (h : (FLG.OCCUR.OCCURRENCES src).Apart x)
    (h' : (FLG.OCCUR.LAST_INSTANCE src).Apart x) : (inc x).Fixes (State.occurShown src) :=
  .prod (.incApart h) (.incApart h')

theorem setLastingSrc_shown (src : Fin 256) : setLastingSrc.Fixes (State.occurShown src) :=
  have h := (FLG.OCCUR_apart src).2
  .read fun _ => .bind (.prod (.wfApart (.inl h) _) (.wfApart (.inl h) _)) fun _ =>
    .shownIn src foot_setAttn (by decide) (by decide)

theorem queueEntry_shown (src : Fin 256) (e : FltEntry) (lasting : Bool) :
    (queueEntry e lasting).Fixes (State.occurShown src) :=
  have h := (FLG.OCCUR_apart src).2
  .read fun _ => .ite (.shownIn src (M.In.fltQueue (P := [35]) e lasting (by decide)) (by decide) (by decide))
    (.shownInc (.inl h) (.inl h))

/-- After its count and LAST_INSTANCE an occurrence is judged: LASTING, LASTINGS, the fault log and the reaction leave
the two. -/
theorem occurrence_counted (src inst : Fin 256) (detail : Nat) (s : State) :
    (occurrence src inst detail).Ends s fun _ t => Counted src inst s t := by
  obtain ⟨hocc, hlast⟩ := FLG.OCCUR_fields src
  obtain ⟨hol, hot, hlt⟩ := FLG.OCCUR_beside src
  have hinc : (inc (FLG.OCCUR.OCCURRENCES src)).In [17] := M.In.inc 17 _ (FLG.OCCUR_page _) (by decide)
  have hcount := f_wf_apart hol inst ((inc (FLG.OCCUR.OCCURRENCES src)).run s)
  have hinst := f_wf_same hlast inst ((inc (FLG.OCCUR.OCCURRENCES src)).run s)
  refine .read <| .bind (hinc.does s) <| .bind (M.does_wf _ _ _) <| .bind (M.does_hid _ _) <|
    .ofFixes (π := State.occurShown src) (.ite ?_ ?_) fun b t ht => ?_
  · exact .bind (.shownWr _ (FLG.OCCUR_apart src).1) fun _ => .bind (.shownInc hot hlt) fun _ =>
      .bind (setLastingSrc_shown src) fun _ => .bind (queueEntry_shown src _ _) fun _ =>
      .bind (.shownIn src (foot_ledgerEvent _) (by decide) (by decide)) fun _ =>
      .bind (.shownIn src (foot_react _ _ _) (by decide) (by decide)) fun _ => .pure _
  · exact .bind (.act fun _ => rfl) fun _ => .pure _
  · obtain ⟨h1, h2⟩ := Prod.ext_iff.mp ht
    exact ⟨h1.trans (hcount.trans (hocc.bumped s)), h2.trans (hinst.trans (Nat.mod_eq_of_lt inst.isLt))⟩

theorem occur_counted (src inst : Fin 256) (detail : Nat) (s : State) :
    Counted src inst s ((occur src inst detail).run s) := by
  obtain ⟨_, t, hd, ht⟩ := occurrence_counted src inst detail s
  have hoccur : (occur src inst detail).Does s () t := hd.bind (M.does_pure () t)
  rwa [hoccur.run]

end Sys2Proof.Machine
end

section
/-! SUPPORT. What no operation of the loops, the groups and the ledger changes: the words that would lie above the last page of
parameters. A footprint (Laws/Frame.lean) does not tell, because it numbers the queues and the state that is no parameter as
pages from there on; with this it gives the frames of the statements. -/

namespace Sys2Proof.Machine

/-- The words above page 0x16. -/
def State.beyond (s : State) : Nat → Word := fun a => s.rd (23 * 65536 + a)

theorem beyond_rd {s t : State} (h : t.beyond = s.beyond) {a : Nat} (ha : 23 ≤ a / 65536) : t.rd a = s.rd a := by
  have := congrFun h (a - 23 * 65536)
  simpa only [State.beyond, show 23 * 65536 + (a - 23 * 65536) = a by omega] using this

/-- A footprint whose pages are among `pages`, which leaves the tables and the two logs, gives a frame. -/
theorem Same.keeps {P pages : List Nat} {s t : State} (h : Same P s t) (hb : t.beyond = s.beyond)
    (hp : ∀ p ∈ P, p < 23 → p ∈ pages) (hn : 99 ∉ P ∧ 32 ∉ P ∧ 34 ∉ P ∧ 36 ∉ P) : Keeps [] pages s t := by
  obtain ⟨h99, h32, h34, h36⟩ := hn
  refine ⟨fun a _ ha => ?_, h.tabs h99 h32, h.vio h99 h34, h.chg h99 h36, h.pending⟩
  by_cases hlt : a / 65536 < 23
  · exact h.rd h99 a fun hin => ha (hp _ hin hlt)
  · exact beyond_rd hb (by omega)

/-! ## The elementary operations -/

theorem beyond_apply_reg (a : Nat) (w : Word) (s : State) : ((Act.reg a w).apply s).beyond = s.beyond := by
  funext b
  rcases eq_or_ne (23 * 65536 + b) a with hab | hab
  · have hn : regAt a = none := regAt_unmapped (by omega)
    simp [Act.apply, hn]
  · exact rd_apply_reg_other _ _ _ s hab

theorem wr_beyond (a : Nat) (w : Word) : (wr a w).Fixes State.beyond := .act (beyond_apply_reg a w)

theorem wf_beyond (x : FldAt) (v : Nat) : (wf x v).Fixes State.beyond := .read fun _ => wr_beyond _ _

theorem inc_beyond (x : FldAt) : (inc x).Fixes State.beyond := .read fun _ => .when (wf_beyond _ _)

theorem incBy_beyond (x : FldAt) (n : Nat) : (incBy x n).Fixes State.beyond := .read fun _ => wf_beyond _ _

theorem hid_beyond (f : Hidden → Hidden) : (hid f).Fixes State.beyond := .act fun _ => rfl

theorem act_beyond {a : Act} (h : ∀ s, (a.apply s).regs = s.regs) : (act a).Fixes State.beyond :=
  .act fun s => funext fun _ => rd_of_regs_eq (h s) _

theorem fresh_beyond : fresh.Fixes State.beyond := .read fun _ => .bind (hid_beyond _) fun _ => .pure _

/-- What moves no more than the host link does. -/
theorem M.Fixes.beyondOfBare {α : Type} {m : M α} (h : m.Fixes State.bare) : m.Fixes State.beyond := by
  refine ⟨fun s => ?_⟩
  obtain ⟨a, t, hd, ht⟩ := h.does s
  refine ⟨a, t, hd, funext fun b => bare_rd ht ?_⟩
  simp only [eventPages, List.mem_cons, List.not_mem_nil, or_false]
  omega

theorem M.Fixes.optForM {α γ : Type} {π : State → γ} {f : α → M Unit} (h : ∀ x, (f x).Fixes π) :
    ∀ o : Option α, (o.forM f).Fixes π
  | none => .pure _
  | some x => h x

theorem event_beyond (op page inst scope : Nat) (body : List Byte) : (event op page inst scope body).Fixes State.beyond :=
  (event_link ..).bare.beyondOfBare

theorem setAttn_beyond : setAttn.Fixes State.beyond := setAttn_link.bare.beyondOfBare

/-! ## Groups -/

theorem deliver_beyond (x : Sample) (stale : Bool) : (deliver x stale).Fixes State.beyond :=
  .read fun _ => .bind (wr_beyond _ _) fun _ => .bind (wr_beyond _ _) fun _ =>
    .bind (.forM (fun _ => inc_beyond _) _) fun _ => .bind (hid_beyond _) fun _ =>
    .thenMore (hid_beyond _) fun _ => .when (hid_beyond _)

theorem resolveHeld_beyond (k : Nat) (stale : Bool) : (resolveHeld k stale).Fixes State.beyond :=
  .read fun _ => .bind (hid_beyond _) fun _ => .forM (fun _ => deliver_beyond _ _) _

theorem resolveTrg_beyond (k : Nat) (stale nextToo : Bool) : (resolveTrg k stale nextToo).Fixes State.beyond :=
  .read fun _ => .when <| .thenMore (incBy_beyond _ _) fun _ => .bind (hid_beyond _) fun _ => resolveHeld_beyond _ _

theorem setProvisional_beyond (g : Nat) : (setProvisional g).Fixes State.beyond := .read fun _ => wf_beyond _ _

theorem cancelTriggers_beyond (g : Nat) : (cancelTriggers g).Fixes State.beyond :=
  .read fun _ => .bind (.forM (fun _ => resolveTrg_beyond _ _ _) _) fun _ => setProvisional_beyond g

theorem discardWords_beyond (c : Nat) : (discardWords c).Fixes State.beyond := by
  refine .read fun s => ?_
  split <;> exact .bind (wr_beyond _ _) fun _ => wr_beyond _ _

theorem discardShadow_beyond (c : Nat) : (discardShadow c).Fixes State.beyond := by
  refine .bind (discardWords_beyond c) fun _ => .read fun s => ?_
  split
  · exact discardWords_beyond _
  · exact .pure _

theorem discardShadows_beyond (g : Nat) : (discardShadows g).Fixes State.beyond :=
  .read fun _ => .bind (.forM (fun _ => discardShadow_beyond _) _) fun _ =>
    .forM (fun _ => .bind (wf_beyond _ _) fun _ => .forM (fun _ => wf_beyond _ _) _) _

theorem dropGroup_beyond (g : Nat) : (dropGroup g).Fixes State.beyond :=
  .bind (discardShadows_beyond g) fun _ => .bind (cancelTriggers_beyond g) fun _ => hid_beyond _

theorem setAvail_beyond : setAvail.Fixes State.beyond := .read fun _ => wf_beyond _ _

theorem setGState_beyond (g : Nat) (st : GState) (cause : Nat) : (setGState g st cause).Fixes State.beyond :=
  .read fun _ => .when <| .bind (hid_beyond _) fun _ => .bind setAvail_beyond fun _ => event_beyond ..

theorem cellOff_beyond (c time : Nat) : (cellOff c time).Fixes State.beyond := by
  refine .read fun s => .bind (hid_beyond _) fun _ => ?_
  split
  · exact .bind (wf_beyond _ _) fun _ => hid_beyond _
  · exact .pure _

theorem cellOn_beyond (c time : Nat) : (cellOn c time).Fixes State.beyond :=
  .read fun _ => .ite (.pure _) <| .thenMore (hid_beyond _) fun _ => .pure _

theorem applyPattern_beyond (g : Nat) (asc : Bool) : (applyPattern g asc).Fixes State.beyond :=
  .read fun _ => .forM (fun _ => .ite (.bind (cellOn_beyond _ _) fun _ => hid_beyond _) (cellOff_beyond _ _)) _

theorem tripGroup_beyond (g kind first : Nat) : (tripGroup g kind first).Fixes State.beyond :=
  .read fun _ => .ite
    (.bind (wf_beyond _ _) fun _ => .bind (wf_beyond _ _) fun _ => .bind (wf_beyond _ _) fun _ =>
      .bind (wf_beyond _ _) fun _ => .bind (wf_beyond _ _) fun _ => .bind (inc_beyond _) fun _ =>
      .bind (applyPattern_beyond _ _) fun _ => .bind (dropGroup_beyond g) fun _ => .bind (hid_beyond _) fun _ =>
      .bind (setGState_beyond _ _ _) fun _ => .bind (event_beyond ..) fun _ => .pure _) <|
    .ite (.bind (wf_beyond _ _) fun _ => .bind (wf_beyond _ _) fun _ => .bind (inc_beyond _) fun _ =>
      .bind (applyPattern_beyond _ _) fun _ => .bind (event_beyond ..) fun _ => .pure _) (.pure _)

theorem showForce_beyond (g : Nat) : (showForce g).Fixes State.beyond :=
  .read fun _ => .bind (wf_beyond _ _) fun _ => .when <| .bind (wf_beyond _ _) fun _ => .bind (hid_beyond _) fun _ =>
    applyPattern_beyond _ _

theorem forceGroup_beyond (g code cause : Nat) : (forceGroup g code cause).Fixes State.beyond :=
  .read fun _ => .ite
    (.bind (dropGroup_beyond g) fun _ => .bind (hid_beyond _) fun _ => .bind (hid_beyond _) fun _ =>
      .bind (setGState_beyond _ _ _) fun _ => showForce_beyond g)
    (.when <| .bind (hid_beyond _) fun _ => showForce_beyond g)

theorem releaseForce_beyond (g code : Nat) : (releaseForce g code).Fixes State.beyond :=
  .read fun _ => .when <| .bind (hid_beyond _) fun _ =>
    .ite (.bind (wf_beyond _ _) fun _ => wf_beyond _ _) (showForce_beyond g)

theorem setDev_beyond (new : Nat) : (setDev new).Fixes State.beyond :=
  .read fun _ => .when <| .bind (wf_beyond _ _) fun _ => .read fun _ => event_beyond ..

theorem deviceSafe_beyond : deviceSafe.Fixes State.beyond := .read fun _ => .when (setDev_beyond _)

theorem releaseRelays_beyond : releaseRelays.Fixes State.beyond :=
  .read fun _ => .bind (wf_beyond _ _) fun _ => .bind (wf_beyond _ _) fun _ => hid_beyond _

theorem setChg_beyond (new cause : Nat) : (setChg new cause).Fixes State.beyond :=
  .read fun _ => .when <| .bind (wf_beyond _ _) fun _ => event_beyond ..

theorem emergencyStop_beyond (cause : Nat) (toFault : Bool) : (emergencyStop cause toFault).Fixes State.beyond :=
  .read fun _ => .when <| .bind (inc_beyond _) fun _ => .bind (tripGroup_beyond _ _ _) fun _ =>
    .bind (tripGroup_beyond _ _ _) fun _ => .bind (hid_beyond _) fun _ => .bind releaseRelays_beyond fun _ =>
    setChg_beyond _ _

theorem forceAct_beyond (g code cause : Nat) : (forceAct g code cause).Fixes State.beyond :=
  .read fun _ => .bind (forceGroup_beyond _ _ _) fun _ => .when (emergencyStop_beyond _ _)

/-! ## Safety functions -/

theorem funcEffect_beyond (f g cause : Nat) : (funcEffect f g cause).Fixes State.beyond := by
  refine .read fun s => ?_
  split
  · exact forceAct_beyond _ _ _
  · exact .when <| .ite (.when (hid_beyond _)) (forceAct_beyond _ _ _)
  · exact forceAct_beyond _ _ _
  · exact forceAct_beyond _ _ _
  · exact .pure _

theorem funcEvent_beyond (f : Nat) (on : Bool) : (funcEvent f on).Fixes State.beyond := .read fun _ => event_beyond ..

theorem funcStart_beyond (f : Nat) : (funcStart f).Fixes State.beyond := by
  unfold funcStart
  exact .thenMore releaseRelays_beyond fun _ => .read fun _ => .when (hid_beyond _)

theorem trigger_beyond (f src key : Nat) (gs : List Nat) (cause : Nat) : (trigger f src key gs cause).Fixes State.beyond :=
  .read fun _ => .when <| .bind (hid_beyond _) fun _ => .bind (wf_beyond _ _) fun _ => .bind (wf_beyond _ _) fun _ =>
    .thenMore (.bind (wf_beyond _ _) fun _ => .bind (wf_beyond _ _) fun _ => .bind (inc_beyond _) fun _ =>
      .bind (funcEvent_beyond _ _) fun _ => funcStart_beyond f) fun _ => .forM (fun _ => funcEffect_beyond _ _ _) _

theorem releaseFunc_beyond (f : Nat) : (releaseFunc f).Fixes State.beyond :=
  .read fun _ => .bind (wf_beyond _ _) fun _ => .bind (wf_beyond _ _) fun _ => .bind (wf_beyond _ _) fun _ =>
    .bind (wf_beyond _ _) fun _ => .bind (funcEvent_beyond _ _) fun _ => .bind (hid_beyond _) fun _ =>
    .thenMore (.forM (fun _ => hid_beyond _) _) fun _ => .forM (fun _ => .read fun _ => .when (releaseForce_beyond _ _)) _

theorem settle_beyond (f : Nat) : (settle f).Fixes State.beyond :=
  .read fun _ => .when <| .ite (releaseFunc_beyond f) (wf_beyond _ _)

theorem withdraw_beyond (f src key : Nat) : (withdraw f src key).Fixes State.beyond :=
  .read fun _ => .when <| .bind (hid_beyond _) fun _ => settle_beyond f

theorem momentary_beyond (f key : Nat) (gs : List Nat) (cause : Nat) : (momentary f key gs cause).Fixes State.beyond :=
  .bind (trigger_beyond _ _ _ _ _) fun _ => withdraw_beyond _ _ _

theorem startSs1_beyond (g cause : Nat) : (startSs1 g cause).Fixes State.beyond :=
  .read fun _ => .when <| .bind (trigger_beyond _ _ _ _ _) fun _ => .read fun _ => .when (withdraw_beyond _ _ _)

theorem ss1Sto_beyond (g cause : Nat) : (ss1Sto g cause).Fixes State.beyond :=
  .bind (momentary_beyond _ _ _ _) fun _ => withdraw_beyond _ _ _

/-! ## The ledger -/

theorem setLastingSrc_beyond : setLastingSrc.Fixes State.beyond :=
  .read fun _ => .bind (wf_beyond _ _) fun _ => setAttn_beyond

theorem queueEntry_beyond (e : FltEntry) (lasting : Bool) : (queueEntry e lasting).Fixes State.beyond :=
  .read fun _ => .ite (act_beyond (apply_fltQueue_regs e lasting)) (inc_beyond _)

theorem react_beyond (cls src inst : Nat) : (react cls src inst).Fixes State.beyond :=
  .read fun _ => .ite (.forM (fun _ => startSs1_beyond _ _) _) <| .ite (.forM (fun _ => forceAct_beyond _ _ _) _) <|
    .when <| .bind (.forM (fun _ => forceAct_beyond _ _ _) _) fun _ => deviceSafe_beyond

theorem occurrence_beyond (src inst detail : Nat) : (occurrence src inst detail).Fixes State.beyond :=
  .read fun _ => .bind (inc_beyond _) fun _ => .bind (wf_beyond _ _) fun _ => .bind (hid_beyond _) fun _ =>
    .ite (.bind (wr_beyond _ _) fun _ => .bind (inc_beyond _) fun _ => .bind setLastingSrc_beyond fun _ =>
      .bind (queueEntry_beyond _ _) fun _ => .bind (event_beyond ..) fun _ => .bind (react_beyond _ _ _) fun _ => .pure _)
    (.bind (hid_beyond _) fun _ => .pure _)

theorem occur_beyond (src inst detail : Nat) : (occur src inst detail).Fixes State.beyond :=
  .bind (occurrence_beyond _ _ _) fun _ => .pure _

/-! ## Posts and COMMIT tokens -/

theorem meetStrobe_beyond (ts : List Nat) : (meetStrobe ts).Fixes State.beyond := .read fun _ => .when (inc_beyond _)

theorem commitTrgs_beyond (g : Nat) : (commitTrgs g).Fixes State.beyond := by
  refine .read fun s => .bind (.forM (fun k => .ite (.bind (resolveTrg_beyond _ _ _) fun _ => .when (hid_beyond _)) ?_) _)
    fun _ => setProvisional_beyond g
  split
  · exact .bind (inc_beyond _) fun _ => hid_beyond _
  · exact hid_beyond _

theorem commitWords_beyond (c : Nat) : (commitWords c).Fixes State.beyond := .read fun _ => hid_beyond _

theorem commitShadows_beyond (g : Nat) : (commitShadows g).Fixes State.beyond := by
  refine .read fun s => .bind (meetStrobe_beyond _) fun _ => .bind (hid_beyond _) fun _ =>
    .bind (.forM (fun c => .bind (commitWords_beyond c) fun _ => ?_) _) fun _ =>
    .bind (.forM (fun _ => .bind (hid_beyond _) fun _ => .forM (fun _ => hid_beyond _) _) _) fun _ =>
    .bind (wf_beyond _ _) fun _ => commitTrgs_beyond g
  split
  · exact commitWords_beyond _
  · exact .pure _

theorem loopCommit_beyond (g : Nat) : (loopCommit g).Fixes State.beyond :=
  .read fun _ => .ite (.bind (inc_beyond _) fun _ => .pure _) <|
    .ite (.bind (meetStrobe_beyond _) fun _ => .bind (discardShadows_beyond g) fun _ => .bind (cancelTriggers_beyond g)
      fun _ => .bind (inc_beyond _) fun _ => .pure _) <|
    .ite (.bind (discardShadows_beyond g) fun _ => .bind (cancelTriggers_beyond g) fun _ => .bind (inc_beyond _) fun _ =>
      .pure _) <|
    .bind (hid_beyond _) fun _ => .bind (commitShadows_beyond g) fun _ => .pure _

theorem writeShadow_beyond (c : Nat) (fall : Bool) (w : Word) : (writeShadow c fall w).Fixes State.beyond := by
  refine .read fun s => .bind (wr_beyond _ _) fun _ => ?_
  split
  · exact wr_beyond _ _
  · exact .pure _

theorem placeShadow_beyond (k : Nat) (rise fall : Word) : (placeShadow k rise fall).Fixes State.beyond := by
  refine .read fun s => ?_
  dsimp only
  split
  · exact .ite (.bind (inc_beyond _) fun _ => hid_beyond _) (hid_beyond _)
  · exact hid_beyond _
  · exact hid_beyond _

theorem shadowPosted_beyond (c : Nat) : (shadowPosted c).Fixes State.beyond := by
  refine .read fun s => .bind (.forM (fun k => ?_) _) fun _ => .when (setProvisional_beyond _)
  have hnext : (if (s.nextShot k).fired then resolveTrg k true true
      else placeShadow k (s.rd (PLS.RISE (s.source c))) (s.rd (PLS.FALL (s.source c)))).Fixes State.beyond :=
    .ite (resolveTrg_beyond _ _ _) (placeShadow_beyond _ _ _)
  exact .ite (.ite (.bind (resolveTrg_beyond _ _ _) fun _ => hnext) (.bind (hid_beyond _) fun _ => hnext)) hnext

theorem post_beyond (c : Nat) (rise fall : Option Word) : (post c rise fall).Fixes State.beyond :=
  .read fun _ => .ite (.bind (meetStrobe_beyond _) fun _ => .bind (.optForM (fun _ => writeShadow_beyond _ _ _) _) fun _ =>
    .bind (.optForM (fun _ => writeShadow_beyond _ _ _) _) fun _ => shadowPosted_beyond c) (inc_beyond _)

theorem field_beyond (a : Fl) (k w : Nat) : (field a k w).Fixes State.beyond :=
  .ite (.bind fresh_beyond fun _ => .pure _) (.pure _)

theorem ufield_beyond (a : Fl) (k w : Nat) : (ufield a k w).Fixes State.beyond :=
  .ite (.bind fresh_beyond fun _ => .pure _) (.pure _)

theorem postLeg_beyond (g leg : Nat) (es : List (Nat × Nat)) : (postLeg g leg es).Fixes State.beyond := by
  refine .read fun s => .forM (fun x => ?_) _
  split
  · exact post_beyond _ _ _
  · exact .pure _

end Sys2Proof.Machine
end

section
/-! SUPPORT. What an evaluation of a field engine leaves alone once its factor K stands: its counts of CNT0, its factors, the
torque request, and the window it evaluated in. -/

namespace Sys2Proof.Machine

/-- What the statements ask of an evaluation (R211 to R213, R220, R221), and the frame above the register map. -/
def State.kept (m : Nat) (s : State) : (Nat × Word × Word × Word) × (Nat → Word) :=
  (((s.eng m).win, s.rd (FLD.CNT0 m), s.rd (FLD.DERATE m), s.rd (FLD.TQ_REQ m)), s.beyond)

/-! ## The elementary operations -/

theorem Same.eng {P : List Nat} {s t : State} (h : Same P s t) (hn : 99 ∉ P) (hp : 53 ∉ P) (m : Nat) :
    t.eng m = s.eng m := by
  have hfld : t.hid.fld = s.hid.fld := h.hid hn 53 hp
  rw [State.eng, hfld, State.eng]

/-- Outside the page of the engines and their state nothing of it moves. -/
theorem M.Fixes.keptIn {α : Type} {P : List Nat} {x : M α} (m : Nat) (h : x.In P) (hb : x.Fixes State.beyond)
    (hn : 99 ∉ P ∧ 8 ∉ P ∧ 53 ∉ P) : x.Fixes (State.kept m) := by
  obtain ⟨h99, h8, h53⟩ := hn
  refine .prod (.ofIn h fun s t hs => ?_) hb
  rw [hs.eng h99 h53, hs.rd h99 _ (by rwa [FLD.CNT0_page]), hs.rd h99 _ (by rwa [FLD.DERATE_page]),
    hs.rd h99 _ (by rwa [FLD.TQ_REQ_page])]

theorem arr_apart {b b' : Nat} (h : b ≠ b') (m : Fin 2) : arr b 256 0 2 m ≠ arr b' 256 0 2 m := by
  simp only [arr, Nat.zero_le, m.isLt, and_self, if_true]
  omega

/-- A word of the engine's other parameters, whose array begins at `b`. -/
theorem M.Fixes.keptWr {a b : Nat} {m : Fin 2} (w : Word) (ha : a = arr b 256 0 2 m)
    (hb : b ≠ 0x080184 ∧ b ≠ 0x08014C ∧ b ≠ 0x080150) : (wr a w).Fixes (State.kept m) := by
  obtain ⟨hc, hd, hr⟩ := hb
  subst ha
  refine .prod (.act fun s => ?_) (wr_beyond _ _)
  have hcnt : ((Act.reg _ w).apply s).rd (FLD.CNT0 m) = _ := rd_apply_reg_other _ _ w s (arr_apart hc.symm m)
  have hder : ((Act.reg _ w).apply s).rd (FLD.DERATE m) = _ := rd_apply_reg_other _ _ w s (arr_apart hd.symm m)
  have hreq : ((Act.reg _ w).apply s).rd (FLD.TQ_REQ m) = _ := rd_apply_reg_other _ _ w s (arr_apart hr.symm m)
  rw [hcnt, hder, hreq, State.eng, apply_reg_hid, State.eng]

theorem M.Fixes.keptWf {x : FldAt} {b : Nat} {m : Fin 2} (v : Nat) (ha : x.addr = arr b 256 0 2 m)
    (hb : b ≠ 0x080184 ∧ b ≠ 0x08014C ∧ b ≠ 0x080150) : (Machine.wf x v).Fixes (State.kept m) :=
  .read fun _ => .keptWr _ ha hb

theorem M.Fixes.keptInc {x : FldAt} {b : Nat} {m : Fin 2} (ha : x.addr = arr b 256 0 2 m)
    (hb : b ≠ 0x080184 ∧ b ≠ 0x08014C ∧ b ≠ 0x080150) : (inc x).Fixes (State.kept m) :=
  .read fun _ => .when (.keptWf _ ha hb)

theorem eng_updEng (m : Nat) (f : FldEng → FldEng) (s : State) : ((updEng m f).run s).eng m = f (s.eng m) :=
  mget_mupd_same _ _ _ _

theorem M.does_updEng (m : Nat) (f : FldEng → FldEng) (s : State) : M.Does (updEng m f) s () ((updEng m f).run s) :=
  fun _ => rfl

theorem updEng_kept {m : Nat} {f : FldEng → FldEng} {s : State} (h : (f (s.eng m)).win = (s.eng m).win) :
    ((updEng m f).run s).kept m = s.kept m := by
  unfold State.kept
  rw [eng_updEng, h]
  rfl

theorem M.Fixes.keptEng {m : Nat} {f : FldEng → FldEng} (h : ∀ e, (f e).win = e.win) : (updEng m f).Fixes (State.kept m) :=
  .act fun s => updEng_kept (h (s.eng m))

theorem updGrp_kept (m g : Nat) (f : Grp → Grp) : (updGrp g f).Fixes (State.kept m) :=
  .keptIn m (foot_updGrp g f) (hid_beyond _) (by decide)

theorem field_kept (m : Nat) (a : Fl) (k w : Nat) : (field a k w).Fixes (State.kept m) :=
  .keptIn m (foot_field a k w) (field_beyond a k w) (by decide)

theorem ufield_kept (m : Nat) (a : Fl) (k w : Nat) : (ufield a k w).Fixes (State.kept m) :=
  .keptIn m (foot_ufield a k w) (ufield_beyond a k w) (by decide)

theorem occurrence_kept (m src inst detail : Nat) : (occurrence src inst detail).Fixes (State.kept m) :=
  .keptIn m (foot_occurrence src inst detail) (occurrence_beyond src inst detail) (by decide)

theorem occur_kept (m src inst detail : Nat) : (occur src inst detail).Fixes (State.kept m) :=
  .keptIn m (foot_occur src inst detail) (occur_beyond src inst detail) (by decide)

theorem modeEvent_kept (m k old new what cause : Nat) : (modeEvent k old new what cause).Fixes (State.kept m) :=
  .keptIn m (foot_modeEvent k old new what cause) (event_beyond ..) (by decide)

theorem postLeg_kept (m g leg : Nat) (es : List (Nat × Nat)) : (postLeg g leg es).Fixes (State.kept m) :=
  .keptIn m (foot_postLeg g leg es) (postLeg_beyond g leg es) (by decide)

/-! ## The parts of an evaluation -/

theorem updatePattern_kept (m : Fin 2) (g : Nat) (n : Fl) (valid : Bool) : (updatePattern m g n valid).Fixes (State.kept m) :=
  .read fun _ => .when <| .ite (.bind (updGrp_kept _ _ _) fun _ => .keptWf _ rfl (by decide)) <|
    .when <| .bind (updGrp_kept _ _ _) fun _ => .keptWf _ rfl (by decide)

theorem fluxCommand_kept (m : Fin 2) (vdc we : Fl) : (fluxCommand m vdc we).Fixes (State.kept m) :=
  .read fun _ => .bind (.keptEng fun _ => rfl) fun _ => .bind (.keptWf _ rfl (by decide)) fun _ =>
    .bind (ufield_kept _ _ _ _) fun _ => .bind (.keptWf _ rfl (by decide)) fun _ =>
    .bind (ufield_kept _ _ _ _) fun _ => .bind (.keptWf _ rfl (by decide)) fun _ => .pure _

theorem applyTorque_kept (m : Fin 2) (t : TqOut) : (applyTorque m t).Fixes (State.kept m) :=
  .bind (.keptEng fun _ => rfl) fun _ => .bind (field_kept _ _ _ _) fun _ => .bind (.keptWr _ rfl (by decide)) fun _ =>
    .keptWf _ rfl (by decide)

theorem takeReaction_kept (m : Fin 2) (g : Nat) (r : Reaction) (opens senses : List Nat) :
    (takeReaction m g r opens senses).Fixes (State.kept m) := by
  refine .read fun s => ?_
  cases r with
  | none => exact .when (modeEvent_kept ..)
  | five k =>
    exact .bind (.keptEng fun _ => rfl) fun _ => .bind (.keptWf _ rfl (by decide)) fun _ =>
      .bind (.keptWf _ rfl (by decide)) fun _ => modeEvent_kept ..
  | oneSet d =>
    exact .bind (.keptEng fun _ => rfl) fun _ => .bind (.keptWf _ rfl (by decide)) fun _ =>
      .bind (.keptWf _ rfl (by decide)) fun _ => modeEvent_kept ..
  | ss1 =>
    exact .bind (.keptWf _ rfl (by decide)) fun _ => .bind (modeEvent_kept ..) fun _ => .bind (occur_kept ..) fun _ =>
      .keptIn m (foot_startSs1 _ _) (startSs1_beyond _ _) (by decide)
  | safe =>
    exact .bind (modeEvent_kept ..) fun _ => .bind (occur_kept ..) fun _ =>
      .keptIn m (foot_forceAct _ _ _) (forceAct_beyond _ _ _) (by decide)

theorem modulateLeg_kept (m : Fin 2) (g leg : Nat) (x : Fl) (off : Bool) : (modulateLeg m g leg x off).Fixes (State.kept m) :=
  .read fun _ => .ite (.bind (postLeg_kept ..) fun _ => .pure _) <| .bind (ufield_kept ..) fun _ =>
    .ite (.bind (.keptInc rfl (by decide)) fun _ => .bind (postLeg_kept ..) fun _ => .pure _)
      (.bind (postLeg_kept ..) fun _ => .pure _)

theorem commitDuties_kept (m g : Nat) (v : List Fl) (ab : Fl × Fl) (signs : List (Option (Nat × Bool))) :
    (commitDuties m g v ab signs).Fixes (State.kept m) :=
  .bind (.keptIn m (foot_loopCommit g) (loopCommit_beyond g) (by decide)) fun _ => .when (.keptEng fun _ => rfl)

theorem postVoltages_kept (m : Fin 2) (g : Nat) (c : DqControl) (cur : List Fl) (theta we vdc dv : Fl) :
    (postVoltages m g c cur theta we vdc dv).Fixes (State.kept m) := by
  refine .read fun s => ?_
  extract_lets adv rm ab xy v base dead off
  rcases s.modulate m (v.take 3) (cur.take 3) vdc dv with ⟨m1, z1, c1⟩
  rcases s.modulate m (v.drop 3) (cur.drop 3) vdc dv with ⟨m2, z2, c2⟩
  refine .bind (field_kept ..) fun _ => .bind (.keptWf _ rfl (by decide)) fun _ => ?_
  extract_lets sat post rest
  have hrest : ∀ u, (rest u).Fixes (State.kept m) := fun _ =>
    .bind (.keptWf _ rfl (by decide)) fun _ => .thenMore (.keptInc rfl (by decide)) fun _ =>
      .bind (.mapM (fun _ => modulateLeg_kept ..) _) fun _ => commitDuties_kept ..
  exact .ite (.bind (field_kept ..) fun _ => .bind (.keptWf _ rfl (by decide)) hrest) (hrest ())

/-- The current control changes integrators and voltages of the engine's record. The scaling of a vector is made a variable before
the definition is opened, because the kernel would otherwise evaluate its comparison of square roots. -/
theorem dqControl_win (s : State) (m : Nat) (refs cur : List Fl) (theta we vdc : Fl) :
    (s.dqControl m refs cur theta we vdc).next.win = (s.eng m).win := by
  obtain ⟨scale, hscale⟩ := exists_eq (a' := scaleTo)
  obtain ⟨length, hlength⟩ := exists_eq (a' := norm)
  generalize hc : @State.dqControl = control
  delta State.dqControl at hc
  rw [← hscale, ← hlength] at hc
  subst hc
  rfl

theorem controlAndPost_kept (m : Fin 2) (g : Nat) (refs cur : List Fl) (theta we vdc dv : Fl) :
    (controlAndPost m g refs cur theta we vdc dv).Fixes (State.kept m) := by
  refine .ofEnds fun s => .read ?_
  obtain ⟨c, hc⟩ := exists_eq (a' := s.dqControl m refs cur theta we vdc)
  have hwin : c.next.win = (s.eng m).win := hc ▸ dqControl_win ..
  rw [← hc]
  refine .bind (M.does_updEng _ _ s) <| .ofFixes (π := State.kept m) ?_ fun _ t ht => ht.trans (updEng_kept hwin)
  exact .bind (field_kept ..) fun _ => .bind (.keptWf _ rfl (by decide)) fun _ =>
    .bind (field_kept ..) fun _ => .bind (.keptWf _ rfl (by decide)) fun _ =>
    .bind (field_kept ..) fun _ => .bind (.keptWf _ rfl (by decide)) fun _ =>
    .bind (field_kept ..) fun _ => .bind (.keptWf _ rfl (by decide)) fun _ =>
    .bind (field_kept ..) fun _ => .bind (.keptWf _ rfl (by decide)) fun _ =>
    .bind (field_kept ..) fun _ => .bind (.keptWf _ rfl (by decide)) fun _ => postVoltages_kept ..

theorem torqueMonitors_kept (m g : Nat) : (torqueMonitors m g).Fixes (State.kept m) := by
  have hsto : ∀ cause, (ss1Sto g cause).Fixes (State.kept m) := fun _ =>
    .keptIn m (foot_ss1Sto _ _) (ss1Sto_beyond _ _) (by decide)
  refine .read fun s => ?_
  extract_lets out margin limit
  have hlimit : ∀ u, (limit u).Fixes (State.kept m) := fun _ => by
    refine .read fun s => ?_
    split
    · exact .ite (.bind (.keptEng fun _ => rfl) fun _ => .when <|
        .bind (.keptIn m (foot_momentary _ _ _ _) (momentary_beyond _ _ _ _) (by decide)) fun _ => occur_kept ..)
        (.keptEng fun _ => rfl)
    · exact .keptEng fun _ => rfl
  split
  · exact .ite (.bind (hsto _) fun _ => .bind (occur_kept ..) hlimit) <|
      .ite (.bind (hsto _) hlimit) (.bind (updGrp_kept ..) hlimit)
  · exact hlimit ()

/-- An evaluation writes K, and nothing after that is of the kept. -/
theorem evaluateMachine_ends (m : Fin 2) (g : Nat) (cur : List Fl) (measured : List Bool) (theta n vup vlo : Fl) (ecc : Bool)
    (s : State) : (evaluateMachine m g cur measured theta n vup vlo ecc).Ends s fun _ t =>
      t.kept m = ((wf (FLD.DERATE.K m) (min (s.f (FLD.DERATE.K_HOST m)) (s.f (FLD.DERATE.K_TH m)))).run s).kept m := by
  refine .read ?_
  extract_lets vdc dv we k r z rest
  refine .bind (M.does_wf _ _ _) <| .ofFixes (π := State.kept m) ?_ fun _ _ ht => ht
  have hrest : ∀ u, (rest u).Fixes (State.kept m) := fun _ => by
    refine .bind (fluxCommand_kept ..) fun psi => .read fun s => ?_
    extract_lets e t0 refs0 ab xy
    rcases s.detect m cur measured (phases ab.1 ab.2 xy.1 xy.2) with ⟨openN, sumN, opens, senses⟩
    refine .bind (.keptEng fun _ => rfl) fun _ => .bind (.forM (fun _ => occur_kept ..) _) fun _ =>
      .bind (.forM (fun _ => occur_kept ..) _) fun _ => .bind (takeReaction_kept ..) fun _ => .read fun s => .when ?_
    exact .bind (applyTorque_kept ..) fun _ => .bind (.keptEng fun _ => rfl) fun _ =>
      .bind (controlAndPost_kept ..) fun _ => .read fun _ => .when (torqueMonitors_kept ..)
  exact .ite (.bind (.keptInc rfl (by decide)) fun _ => .bind (occurrence_kept ..) fun _ =>
    .ite (.bind (.keptWf _ rfl (by decide)) hrest) (hrest ())) (hrest ())

end Sys2Proof.Machine
end

section
/-! SUPPORT for O43: the evaluation of a field engine that holds, and the one that goes through. -/

namespace Sys2Proof.Machine

/-! ## What is outside a few parameters -/

/-- Every parameter but those at `as`, and the rest of a frame. -/
def State.outside (as : List Nat) (s : State) :=
  (fun a => if a ∈ as then 0 else s.rd a, s.tabs, s.que.vio, s.que.chg, s.pending)

theorem Keeps.ofOutside {as : List Nat} {s t : State} (h : t.outside as = s.outside as) : Keeps as [] s t := by
  simp only [State.outside, Prod.mk.injEq] at h
  obtain ⟨hrd, htabs, hvio, hchg, hpend⟩ := h
  refine ⟨fun a ha _ => ?_, htabs, hvio, hchg, hpend⟩
  simpa only [ha, if_false] using congrFun hrd a

theorem M.Fixes.wrOutside {as : List Nat} {a : Nat} (w : Word) (ha : a ∈ as) : (wr a w).Fixes (State.outside as) := by
  refine .act fun s => Prod.ext (funext fun b => ?_) (by simp [State.outside])
  by_cases hb : b ∈ as
  · simp [State.outside, hb]
  · simp only [State.outside, hb, if_false]
    exact rd_apply_reg_other _ _ w s fun hab => hb (hab ▸ ha)

theorem M.Fixes.wfOutside {as : List Nat} {x : FldAt} (v : Nat) (hx : x.addr ∈ as) :
    (Machine.wf x v).Fixes (State.outside as) := .read fun _ => .wrOutside _ hx

theorem M.Fixes.incOutside {as : List Nat} {x : FldAt} (hx : x.addr ∈ as) : (inc x).Fixes (State.outside as) :=
  .read fun _ => .when (.wfOutside _ hx)

theorem M.Fixes.incByOutside {as : List Nat} {x : FldAt} (n : Nat) (hx : x.addr ∈ as) : (incBy x n).Fixes (State.outside as) :=
  .read fun _ => .wfOutside _ hx

theorem Keeps.trans {as bs ps qs : List Nat} {s u t : State} (h : Keeps as ps s u) (h' : Keeps bs qs u t) :
    Keeps (as ++ bs) (ps ++ qs) s t := by
  refine ⟨fun a ha hp => ?_, h'.tabs.trans h.tabs, h'.vio.trans h.vio, h'.chg.trans h.chg, h'.pending.trans h.pending⟩
  rw [List.mem_append, not_or] at ha hp
  exact (h'.rd a ha.2 hp.2).trans (h.rd a ha.1 hp.1)

theorem Keeps.mono {as bs ps qs : List Nat} {s t : State} (h : Keeps as ps s t) (ha : as ⊆ bs) (hp : ps ⊆ qs) :
    Keeps bs qs s t :=
  ⟨fun a hna hnp => h.rd a (fun hin => hna (ha hin)) fun hin => hnp (hp hin), h.tabs, h.vio, h.chg, h.pending⟩

theorem Keeps.f {as pages : List Nat} {s t : State} (h : Keeps as pages s t) {x : FldAt} (hx : x.addr ∉ as)
    (hp : x.addr / 65536 ∉ pages) : t.f x = s.f x := f_of_rd_eq x (h.rd _ hx hp)

theorem Counted.of_shown {src inst : Nat} {s u t : State} (h : u.occurShown src = s.occurShown src)
    (hc : Counted src inst u t) : Counted src inst s t := by
  obtain ⟨hb, hi⟩ := hc
  obtain ⟨hocc, -⟩ := Prod.ext_iff.mp h
  refine ⟨?_, hi⟩
  unfold Bumped at hb ⊢
  rw [hb, show u.f (FLG.OCCUR.OCCURRENCES src) = s.f (FLG.OCCUR.OCCURRENCES src) from hocc]

theorem M.Ends.onIsland {n : Nat} {m : M Unit} {s : State} {P : Unit → State → Prop} (ha : s.awake = true)
    (hp : s.present n = true) (h : m.Ends s P) : (Machine.onIsland n m).Ends s P := .read <| .ite_pos ⟨ha, hp⟩ h

theorem M.Ends.whenAwake {m : M Unit} {s : State} {P : Unit → State → Prop} (ha : s.awake = true)
    (h : m.Ends s P) : (Machine.whenAwake m).Ends s P := .read <| .ite_pos ha h

/-- A first part of which its places are known. -/
theorem M.Ends.afterIn {α β : Type} {L : List Nat} {m : M α} {f : α → M β} {s : State} {P : β → State → Prop} (h : m.In L)
    (h' : ∀ a t, Same L s t → m.Does s a t → (f a).Ends t P) : (m >>= f).Ends s P := by
  obtain ⟨a, t, hd, hs⟩ := h s
  exact .bind hd (h' a t hs hd)

theorem M.Ends.ite {β : Type} {c : Prop} [Decidable c] {m n : M β} {s : State} {P : β → State → Prop} (h : m.Ends s P)
    (h' : n.Ends s P) : (if c then m else n).Ends s P := by split <;> assumption

/-! ## The fields of an engine -/

theorem CNT0_fields (m : Fin 2) : (FLD.CNT0.HOLDS m).Real ∧ (FLD.CNT0.RECONSTRUCTED m).Real := by
  revert m
  decide +kernel

theorem DERATE_fields (m : Fin 2) :
    (FLD.DERATE.K m).Real ∧ (FLD.DERATE.K_HOST m).Real ∧ (FLD.DERATE.K_TH m).Real := by
  revert m
  decide +kernel

/-! ## A held evaluation (R212) -/

/-- An evaluation was held: it is counted, source 80 has an occurrence, and no parameter of the engine moved beside the count. -/
structure Held (m g : Nat) (s t : State) : Prop where
  holds : Bumped (FLD.CNT0.HOLDS m) s t
  counted : Counted 80 g s t
  win : (t.eng m).win = (s.eng m).win
  keeps : Keeps [FLD.CNT0 m] ledgerPages s t

/-- What is held is held by a count, a second commit of the shadows and an occurrence of source 80. -/
theorem heldEvaluation_ends (m : Fin 2) (g : Fin 32) (s : State) : (heldEvaluation m g).Ends s
    fun _ t => Held m g s t := by
  have hinc : (inc (FLD.CNT0.HOLDS m)).In [8] := M.In.inc 8 _ (FLD.CNT0_page _) (by decide)
  refine .read <| .bind (hinc.does s) ?_
  have hbump := (CNT0_fields m).1.bumped s
  have hkeep : Keeps [FLD.CNT0 m] [] s _ := .ofOutside <|
    (M.Fixes.incOutside (x := FLD.CNT0.HOLDS m) (List.mem_singleton.mpr rfl)).run s
  have hsame := hinc.run s
  generalize (inc (FLD.CNT0.HOLDS m)).run s = u at *
  extract_lets rest
  have hrest : ∀ a v, Same [0, 3, 6, 44, 50] u v → v.beyond = u.beyond → (rest a).Ends v
      fun _ t => Held m g s t := by
    intro _ v hv hb
    have hocc := foot_occur 80 g (FLD.CNT0 m)
    have hboth := (hv.mono (by decide)).trans (hocc.run v)
    have hpage : FLD.CNT0 m / 65536 ∉ [0, 1, 3, 4, 5, 6, 9, 12, 16, 17, 20, 33, 35, 43, 44, 45, 46, 47, 48, 49, 50] := by
      rw [FLD.CNT0_page]
      decide
    refine .ofDoes (hocc.does v) ⟨(hboth.f (by decide) hpage).trans hbump, ?_, ?_, hkeep.trans ?_⟩
    · exact .of_shown ((hv.shown 80 (by decide) (by decide)).trans (hsame.shown 80 (by decide) (by decide)))
        (occur_counted 80 (g.castLE (by decide)) _ v)
    · rw [hboth.eng (by decide) (by decide), hsame.eng (by decide) (by decide)]
    · exact hboth.keeps (((occur_beyond ..).run v).trans hb) (by decide) (by decide)
  refine .ite (.afterIn (foot_loopCommit g) fun _ v hv hd => ?_) (hrest () u (.refl _ _) rfl)
  exact hrest () v hv (hd.fixes (loopCommit_beyond g))

/-! ## The evaluation (R211, R212) -/

theorem unitFault_does {m g : Nat} {s : State}
    (h : ¬(s.f (POS.OBS_STAT.ACTIVE m) = 0 ∧ (s.pu (s.f (FLD.MCH_CFG.PU m))).latched.state = 3)) :
    (unitFault m g).Does s true s := .read <| .ite_neg h <| M.does_pure true s

theorem observeFirst_does {m g : Nat} {cur : List Fl} {s : State} (h : s.f (POS.OBS_CFG.EN m) = 0) :
    (observeFirst m g cur 0).Does s (true, false) s := by
  have hen : ¬ s.f (POS.OBS_CFG.EN m) = 1 := by omega
  refine .read ?_
  simp only [hen, if_false]
  exact M.does_pure _ s

/-- Two currents of the first set are missing. -/
theorem fieldEvaluation_holds {s : State} {m : Fin 2} {g : Fin 32} (ecc : Bool) (hp : s.present (2 + m.val) = true)
    (hg : s.fldGroup m = some g.val) (hwin : (s.eng m).win ≠ (s.tbase (s.grpTb g)).wins)
    (hany : s.anySince (s.fldSlots m) (s.eng m).begun = true)
    (hpu : s.f (POS.OBS_STAT.ACTIVE m) ≠ 0 ∨ (s.pu (s.f (FLD.MCH_CFG.PU m))).latched.state ≠ 3) (hbase : (s.eng m).base ≠ 2)
    (hset : fillSet ((s.fldCurrents m (s.eng m).begun).take 3) = none) :
    (fieldEvaluation m ecc).Ends s fun _ t =>
      Bumped (FLD.CNT0.HOLDS m) s t ∧ Counted 80 g s t ∧ (t.eng m).win = (s.tbase (s.grpTb g)).wins ∧
        Keeps [FLD.CNT0 m] ledgerPages s t := by
  refine .read ?_
  simp only [hg]
  refine .ite_pos ⟨hp, hwin, hany⟩ <| .bind (M.does_updEng _ _ _) <|
    .bind (unitFault_does (not_and_or.mpr hpu)) <| .ite_pos rfl ?_
  simp only [beq_eq_false_iff_ne.mpr hbase, Bool.false_and, Bool.false_eq_true, if_false, hset]
  obtain ⟨_, t, hd, hb, hc, hw, hk⟩ := heldEvaluation_ends m g ((updEng m fun f =>
    { f with win := (s.tbase (s.grpTb g)).wins, begun := s.hid.mea.total }).run s)
  refine .ofDoes hd ⟨hb, hc, ?_, hk.rd, hk.tabs, hk.vio, hk.chg, hk.pending⟩
  rw [hw, eng_updEng]

theorem kept_iff {m : Nat} {s t : State} : t.kept m = s.kept m ↔ (t.eng m).win = (s.eng m).win ∧
    t.rd (FLD.CNT0 m) = s.rd (FLD.CNT0 m) ∧ t.rd (FLD.DERATE m) = s.rd (FLD.DERATE m) ∧
    t.rd (FLD.TQ_REQ m) = s.rd (FLD.TQ_REQ m) ∧ t.beyond = s.beyond := by
  simp only [State.kept, Prod.mk.injEq, and_assoc]

/-- What an evaluation that goes through leaves of an engine: its counts, its factors with a new K, its request. -/
structure Factored (m : Nat) (s t : State) : Prop where
  win : (t.eng m).win = (s.eng m).win
  reconstructed : t.f (FLD.CNT0.RECONSTRUCTED m) = s.f (FLD.CNT0.RECONSTRUCTED m)
  holds : t.f (FLD.CNT0.HOLDS m) = s.f (FLD.CNT0.HOLDS m)
  k : t.f (FLD.DERATE.K m) = min (s.f (FLD.DERATE.K_HOST m)) (s.f (FLD.DERATE.K_TH m))
  kHost : t.f (FLD.DERATE.K_HOST m) = s.f (FLD.DERATE.K_HOST m)
  kTh : t.f (FLD.DERATE.K_TH m) = s.f (FLD.DERATE.K_TH m)
  request : t.rd (FLD.TQ_REQ m) = s.rd (FLD.TQ_REQ m)
  beyond : t.beyond = s.beyond

/-- K, K_HOST and K_TH lie beside one another in FLD.DERATE. -/
theorem DERATE_beside (m : Fin 2) : (FLD.DERATE.K_HOST m).Apart (FLD.DERATE.K m) ∧
    (FLD.DERATE.K_TH m).Apart (FLD.DERATE.K m) ∧ (FLD.DERATE.K_HOST m).Apart (FLD.DERATE.K_TH m) := by
  obtain ⟨-, hhost, hth⟩ := DERATE_fields m
  exact ⟨.inr ⟨hhost, .inr (show 9 < 22 by decide)⟩, .inr ⟨hth, .inr (show 9 < 12 by decide)⟩,
    .inr ⟨hhost, .inr (show 21 < 22 by decide)⟩⟩

/-- A factor that is at most K_HOST fits K. -/
theorem f_wf_K (m : Fin 2) (v : Nat) (s : State) :
    ((wf (FLD.DERATE.K m) (min (s.f (FLD.DERATE.K_HOST m)) v)).run s).f (FLD.DERATE.K m) =
      min (s.f (FLD.DERATE.K_HOST m)) v := by
  have hlt : s.f (FLD.DERATE.K_HOST m) < 1024 := f_lt _ _
  rw [(M.does_wf _ _ _).run, f_wf_same (DERATE_fields m).1]
  exact Nat.mod_eq_of_lt (lt_of_le_of_lt (min_le_left ..) hlt)

theorem Factored.of_kept {m : Fin 2} {s u t : State} (hu : u.kept m = s.kept m)
    (ht : t.kept m = ((wf (FLD.DERATE.K m) (min (u.f (FLD.DERATE.K_HOST m)) (u.f (FLD.DERATE.K_TH m)))).run u).kept m) :
    Factored m s t := by
  obtain ⟨hwin, hcnt, hder, hreq, hbey⟩ := kept_iff.mp hu
  obtain ⟨hwin', hcnt', hder', hreq', hbey'⟩ := kept_iff.mp ht
  obtain ⟨hhost, hth, -⟩ := DERATE_beside m
  have hk := f_wf_K m (u.f (FLD.DERATE.K_TH m)) u
  rw [(M.does_wf _ _ _).run] at *
  have happly (n : Nat) (hn : n ≠ FLD.DERATE m) (w : Word) : ((Act.reg (FLD.DERATE m) w).apply u).rd n = u.rd n :=
    rd_apply_reg_other _ n w u hn
  have hcount : t.rd (FLD.CNT0 m) = s.rd (FLD.CNT0 m) := hcnt'.trans ((happly _ (arr_apart (by decide) m) _).trans hcnt)
  have hhost' : u.f (FLD.DERATE.K_HOST m) = s.f (FLD.DERATE.K_HOST m) := f_of_rd_eq (FLD.DERATE.K_HOST m) hder
  have hth' : u.f (FLD.DERATE.K_TH m) = s.f (FLD.DERATE.K_TH m) := f_of_rd_eq (FLD.DERATE.K_TH m) hder
  constructor
  case win =>
    rw [hwin', State.eng, apply_reg_hid]
    exact hwin
  case reconstructed => exact f_of_rd_eq (FLD.CNT0.RECONSTRUCTED m) hcount
  case holds => exact f_of_rd_eq (FLD.CNT0.HOLDS m) hcount
  case k => rw [f_of_rd_eq (FLD.DERATE.K m) hder', hk, hhost', hth']
  case kHost => rw [f_of_rd_eq (FLD.DERATE.K_HOST m) hder', f_wf_apart hhost, hhost']
  case kTh => rw [f_of_rd_eq (FLD.DERATE.K_TH m) hder', f_wf_apart hth, hth']
  case request => exact hreq'.trans ((happly _ (arr_apart (by decide) m) _).trans hreq)
  case beyond => rw [hbey', beyond_apply_reg, hbey]

/-- All currents and link voltages are usable and the position unit is the source. -/
theorem fieldEvaluation_goes {s : State} {m : Fin 2} {g : Fin 32} {i1 i2 : List Fl} {r1 r2 : Nat} {up_ lo : Fl} (ecc : Bool)
    (hp : s.present (2 + m.val) = true) (hg : s.fldGroup m = some g.val)
    (hwin : (s.eng m).win ≠ (s.tbase (s.grpTb g)).wins) (hany : s.anySince (s.fldSlots m) (s.eng m).begun = true)
    (hpu : s.f (POS.OBS_STAT.ACTIVE m) = 0 ∧ (s.pu (s.f (FLD.MCH_CFG.PU m))).latched.state ≠ 3)
    (hobs : s.f (POS.OBS_STAT.CATCH m) = 0 ∧ s.f (POS.OBS_CFG.EN m) = 0) (hbase : (s.eng m).base ≠ 2)
    (hset1 : fillSet ((s.fldCurrents m (s.eng m).begun).take 3) = some (i1, r1))
    (hset2 : fillSet ((s.fldCurrents m (s.eng m).begun).drop 3) = some (i2, r2))
    (hup : s.fldVolt m (s.f (FLD.IN_SLOT1.VUP m)) (s.linkMark g) = some up_)
    (hlo : s.fldVolt m (s.f (FLD.IN_SLOT1.VLO m)) (s.linkMark g) = some lo) :
    (fieldEvaluation m ecc).Ends s fun _ t => Factored m
      ((incBy (FLD.CNT0.RECONSTRUCTED m) (r1 + r2)).run ((updEng m fun f =>
        { f with win := (s.tbase (s.grpTb g)).wins, begun := s.hid.mea.total }).run s)) t := by
  obtain ⟨hcatch, hen⟩ := hobs
  have hactive : ¬ s.f (POS.OBS_STAT.ACTIVE m) = 1 := by omega
  have hrec : (incBy (FLD.CNT0.RECONSTRUCTED m) (r1 + r2)).In [8] := M.In.incBy 8 _ _ (FLD.CNT0_page _) (by decide)
  refine .read ?_
  simp only [hg]
  refine .ite_pos ⟨hp, hwin, hany⟩ <| .bind (M.does_updEng _ _ _) <|
    .bind (unitFault_does (not_and_or.mpr <| .inr hpu.2)) <| .ite_pos rfl ?_
  simp only [beq_eq_false_iff_ne.mpr hbase, Bool.false_and, Bool.false_eq_true, if_false, hset1, hset2, hup, hlo, hcatch, hactive]
  generalize hu : (updEng m _).run s = u
  have hpage : POS.OBS_CFG m / 65536 ∉ [8] := by
    rw [POS.OBS_CFG_page]
    decide
  have hen' : ((incBy (FLD.CNT0.RECONSTRUCTED m) (r1 + r2)).run u).f (POS.OBS_CFG.EN m) = 0 := by
    rw [(hrec.run u).f (by decide) hpage, ← hu]
    exact hen
  refine .bind (hrec.does u) <| .bind (observeFirst_does hen') <| .read <| .ite_pos (.inl rfl) ?_
  refine .after (field_kept m _ _ _) fun _ a ha => .after (.keptWf _ rfl (by decide)) fun _ b hb =>
    .after (updatePattern_kept ..) fun _ c hc => .ite_neg (by simp) <| .ite_pos rfl ?_
  obtain ⟨_, t, hd, ht⟩ := evaluateMachine_ends _ _ _ _ _ _ _ _ _ _
  exact .ofDoes hd (.of_kept (hc.trans (hb.trans ha)) ht)

end Sys2Proof.Machine
end

section
/-! SUPPORT for O43: the thermal factor (R221). -/

namespace Sys2Proof.Machine

theorem Same.chd {P : List Nat} {s t : State} (h : Same P s t) (hn : 99 ∉ P) (hp : 18 ∉ P) (n : Nat) : t.chd n = s.chd n := by
  unfold State.chd
  split <;> exact h.f hn hp

theorem Same.cd2Reads {P : List Nat} {s t : State} (h : Same P s t) (hn : 99 ∉ P) (hp : 0 ∉ P ∧ 18 ∉ P) :
    t.cd2Reads = s.cd2Reads := by
  obtain ⟨hsys, hchd⟩ := hp
  have hpres : ∀ n, t.present n = s.present n := fun n => by
    rw [State.present, State.present, h.f hn (by rwa [show (SYS.ISLAND.STATE n).addr = SYS.ISLAND n from rfl, SYS.ISLAND_page])]
  simp only [State.cd2Reads, State.worker, h.chd hn hchd, hpres]

theorem thermFactor_congr {s t : State} {m j : Nat} (h : t.hid.mea = s.hid.mea)
    (h' : t.rd (FLD.THERM m j) = s.rd (FLD.THERM m j)) : t.thermFactor m j = s.thermFactor m j := by
  simp only [State.thermFactor, State.usable, h, f_of_rd_eq (FLD.THERM.SLOT m j) h', f_of_rd_eq (FLD.THERM.CODE_START m j) h',
    f_of_rd_eq (FLD.THERM.CODE_END m j) h']

/-- A factor is at most 1000 thousandths. -/
theorem thermFactor_le (s : State) (m j : Nat) : s.thermFactor m j ≤ 1000 := by
  unfold State.thermFactor
  extract_lets slot
  split
  · exact le_rfl
  · extract_lets c
    have hdiv : ∀ p q : Int, 0 < q → p ≤ q → (p * 1000 / q).toNat ≤ 1000 := fun p q hq _ => by
      have : p * 1000 / q ≤ 1000 := Int.ediv_le_of_le_mul hq (by omega)
      omega
    split <;> split
    · exact le_rfl
    · split
      · omega
      · exact hdiv _ _ (by omega) (by omega)
    · exact le_rfl
    · split
      · omega
      · exact hdiv _ _ (by omega) (by omega)

/-- The update of one engine's factor. -/
def thermalStep (m : Nat) : M Unit := do
  let s ← getS
  if s.cd2Reads then
    let k := min (s.thermFactor m 0) (s.thermFactor m 1)
    wf (FLD.DERATE.K_TH m) k
    wf (FLD.DERATE.K m) (min (s.f (FLD.DERATE.K_HOST m)) k)

theorem thermalFactor_eq : thermalFactor = (do thermalStep 0; thermalStep 1) := rfl

theorem thermalStep_in (m : Nat) : (thermalStep m).In [8] := by
  have hwf : ∀ x v, x.addr = FLD.DERATE m → (wf x v).In [8] := fun x v hx =>
    M.In.wf 8 x v (by rw [hx, FLD.DERATE_page]) (by decide)
  exact .bind .getS fun _ => .ite (.bind (hwf _ _ rfl) fun _ => hwf _ _ rfl) (.pure _)

theorem thermalStep_keeps (m : Nat) (s : State) : Keeps [FLD.DERATE m] [] s ((thermalStep m).run s) := by
  have hwf : ∀ x v, x.addr = FLD.DERATE m → (wf x v).Fixes (State.outside [FLD.DERATE m]) := fun x v hx =>
    .wfOutside v (List.mem_singleton.mpr hx)
  exact .ofOutside <| M.Fixes.run (.read fun _ => .when <| .bind (hwf _ _ rfl) fun _ => hwf _ _ rfl) s

/-- The factors of one engine after its update. -/
structure Cooled (m : Nat) (s t : State) : Prop where
  kTh : t.f (FLD.DERATE.K_TH m) = min (s.thermFactor m 0) (s.thermFactor m 1)
  k : t.f (FLD.DERATE.K m) = min (s.f (FLD.DERATE.K_HOST m)) (min (s.thermFactor m 0) (s.thermFactor m 1))
  kHost : t.f (FLD.DERATE.K_HOST m) = s.f (FLD.DERATE.K_HOST m)

theorem thermalStep_cools {s : State} (m : Fin 2) (h : s.cd2Reads = true) : Cooled m s ((thermalStep m).run s) := by
  obtain ⟨hk, -, hth⟩ := DERATE_fields m
  obtain ⟨hhostK, hthK, hhostTh⟩ := DERATE_beside m
  have hle := thermFactor_le s m 0
  have hlt : min (s.thermFactor m 0) (s.thermFactor m 1) < 2 ^ (21 + 1 - 12) := by omega
  refine (show (thermalStep m).Ends s fun _ t => Cooled m s t from ?_).run
  refine .read <| .ite_pos h <| .bind (M.does_wf _ _ _) <| .ofDoes (M.does_wf _ _ _) ⟨?_, ?_, ?_⟩
  · rw [f_wf_apart hthK, f_wf_same hth]
    exact Nat.mod_eq_of_lt hlt
  · rw [f_wf_same hk]
    exact Nat.mod_eq_of_lt (lt_of_le_of_lt (min_le_right ..) hlt)
  · rw [f_wf_apart hhostK, f_wf_apart hhostTh]

theorem THERM_ne_DERATE (m n j : Fin 2) : FLD.THERM m j ≠ FLD.DERATE n := by
  revert m n j
  decide

theorem DERATE_apart {m n : Fin 2} (h : m ≠ n) : FLD.DERATE m ≠ FLD.DERATE n := by
  revert m n
  decide

/-- Both engines are updated, the second after the first. -/
theorem thermalFactor_cools {s : State} (h : s.cd2Reads = true) :
    (∀ m : Fin 2, Cooled m s (thermalFactor.run s)) ∧ Keeps [FLD.DERATE 0, FLD.DERATE 1] [] s (thermalFactor.run s) := by
  have hsame := (thermalStep_in 0).run s
  have hkeep := thermalStep_keeps 0 s
  have h0 : Cooled 0 s ((thermalStep 0).run s) := thermalStep_cools 0 h
  have hd := ((thermalStep_in 0).does s).bind (f := fun _ => thermalStep 1) ((thermalStep_in 1).does _)
  have h1 : ((thermalStep 0).run s).cd2Reads = true := by rw [hsame.cd2Reads (by decide) (by decide), h]
  have h1' : Cooled 1 ((thermalStep 0).run s) _ := thermalStep_cools 1 h1
  have hkeep' := thermalStep_keeps 1 ((thermalStep 0).run s)
  rw [thermalFactor_eq, hd.run]
  generalize (thermalStep 0).run s = u at *
  have hne : ∀ x : FldAt, x.addr = FLD.DERATE 0 → x.addr ∉ [FLD.DERATE 1] := fun x hx hin =>
    DERATE_apart (m := 0) (n := 1) (by decide) (hx.symm.trans (List.mem_singleton.mp hin))
  have hhost : u.f (FLD.DERATE.K_HOST 1) = s.f (FLD.DERATE.K_HOST 1) :=
    hkeep.f (fun hin => DERATE_apart (m := 1) (n := 0) (by decide) (List.mem_singleton.mp hin)) List.not_mem_nil
  have hfac : ∀ j : Fin 2, u.thermFactor 1 j = s.thermFactor 1 j := fun j =>
    thermFactor_congr (hsame.hid (by decide) 50 (by decide)) <|
      hkeep.rd _ (fun hin => THERM_ne_DERATE 1 0 j (List.mem_singleton.mp hin)) List.not_mem_nil
  refine ⟨fun m => ?_, hkeep.trans hkeep'⟩
  match m with
  | 0 =>
    obtain ⟨hth, hk, hh⟩ := h0
    exact ⟨(hkeep'.f (hne _ rfl) List.not_mem_nil).trans hth, (hkeep'.f (hne _ rfl) List.not_mem_nil).trans hk,
      (hkeep'.f (hne _ rfl) List.not_mem_nil).trans hh⟩
  | 1 =>
    obtain ⟨hth, hk, hh⟩ := h1'
    have hf0 : u.thermFactor 1 0 = s.thermFactor 1 0 := hfac 0
    have hf1 : u.thermFactor 1 1 = s.thermFactor 1 1 := hfac 1
    rw [hf0, hf1] at hth
    rw [hf0, hf1, hhost] at hk
    exact ⟨hth, hk, hh.trans hhost⟩

end Sys2Proof.Machine
end

section
/-! SUPPORT for O43: the host writes a torque request (R52, R220). -/

namespace Sys2Proof.Machine

/-! ## One word that is only stored -/

/-- Every bit of FLD.TQ_REQ takes what is written, and its write is no change of the configuration. -/
theorem TQ_REQ_spec (m : Fin 2) : ∃ r, regAt (FLD.TQ_REQ m) = some r ∧ r.name = .FLD_TQ_REQ ∧ r.rws = 0 ∧
    ∀ v old, r.after v old = v := by
  have hafter (v old : Word) : (v &&& BitVec.allOnes 32 ||| old &&& ~~~BitVec.allOnes 32) &&& ~~~(v &&& 0#32) = v := by
    simp only [BitVec.not_allOnes, BitVec.and_zero, BitVec.or_zero, BitVec.and_allOnes, BitVec.not_zero]
  match m with
  | 0 => exact ⟨_, rfl, rfl, rfl, hafter⟩
  | 1 => exact ⟨_, rfl, rfl, rfl, hafter⟩

theorem writeEffect_tqReq {r : RegSpec} (h : r.name = .FLD_TQ_REQ) (all : List Nat) (a : Nat) (v old : Word) (s : State) :
    (writeEffect all r a v old).Does s () s := by
  refine .read ?_
  simp only [h]
  exact M.does_pure () s

theorem writeWord_tqReq (c : Ctx) (all : List Nat) (m : Fin 2) (x : Word) (s : State) :
    (writeWord c all (FLD.TQ_REQ m) x).Does s () ((Act.reg (FLD.TQ_REQ m) x).apply s) := by
  obtain ⟨r, hr, hname, hrws, hafter⟩ := TQ_REQ_spec m
  have hstored : storedWord r x (s.rd (FLD.TQ_REQ m)) = x := by simp only [storedWord, hname, hafter]
  unfold writeWord
  simp only [hr]
  refine .ite_neg (by simp [hname]) <| (M.does_rd _ s).bind <| ?_
  rw [hstored]
  exact (M.does_wr _ _ s).bind <| M.Does.bind (writeEffect_tqReq hname _ _ _ _ _) <| (M.does_rd _ _).bind <|
    .ite_neg (by simp [hrws]) <| M.does_pure () _

theorem shadowTb_tqReq (m : Fin 2) (s : State) : s.shadowTb (FLD.TQ_REQ m) = none := by
  obtain ⟨r, hr, hname, _⟩ := TQ_REQ_spec m
  simp only [State.shadowTb, hr, hname]

/-- The checks of a write of one word. -/
theorem writable_one {a : Nat} {r : RegSpec} (hr : regAt a = some r) (u : State) (c : Ctx) (x : Word) :
    u.writable c [(a, x)] = true ↔ u.writeCheck c [(a, x)] = none ∧ u.addrAbsent a = false ∧
      u.writeRefusal c.auth r a x = none ∧ firstFail (u.enableFails (u.wouldBe [(a, x)]) r a) = none := by
  simp only [State.writable, hr, List.all_cons, List.all_nil, List.findSome?_cons, List.findSome?_nil, List.flatMap_cons,
    List.flatMap_nil, List.append_nil, Bool.and_true, Bool.and_eq_true, Option.isNone_iff_eq_none, Bool.not_eq_true', and_assoc]
  cases u.writeRefusal c.auth r a x <;> simp

/-- A write that passes every check. -/
theorem writeWords_tqReq {c : Ctx} {m : Fin 2} {x : Word} {s : State} (h : s.writable c [(FLD.TQ_REQ m, x)] = true) :
    (writeWords c [(FLD.TQ_REQ m, x)]).Does s {} ((Act.reg (FLD.TQ_REQ m) x).apply s) := by
  obtain ⟨r, hr, -⟩ := TQ_REQ_spec m
  obtain ⟨hcheck, hthere, hrefuse, hfail⟩ := (writable_one hr _ _ _).mp h
  have hhere : [(FLD.TQ_REQ m, x)].takeWhile (fun y => !s.addrAbsent y.1) = [(FLD.TQ_REQ m, x)] := by simp [hthere]
  have hstrobe : (meetStrobe []).Does s () s := .read <| .ite_neg (by simp) <| M.does_pure () s
  have hwrite : ([(FLD.TQ_REQ m, x)].forM fun y => writeWord c [FLD.TQ_REQ m] y.1 y.2).Does s () _ :=
    (writeWord_tqReq c _ m x s).bind (M.does_pure () _)
  refine .read ?_
  simp only [hcheck, hhere, hr, List.findSome?_cons, List.findSome?_nil, hrefuse, List.flatMap_cons, List.flatMap_nil,
    List.append_nil, hfail, List.filterMap_cons, List.filterMap_nil, shadowTb_tqReq, List.map_cons, List.map_nil]
  exact hstrobe.bind <| hwrite.bind <| M.does_pure _ _

/-- What the write leaves: the word, and all else. -/
theorem stored_tqReq (m : Fin 2) (x : Word) (s : State) : ((Act.reg (FLD.TQ_REQ m) x).apply s).rd (FLD.TQ_REQ m) = x ∧
    Keeps [FLD.TQ_REQ m] [] s ((Act.reg (FLD.TQ_REQ m) x).apply s) := by
  have hmask : (regAt (FLD.TQ_REQ m)).isSome = true ∧ implMask (FLD.TQ_REQ m) = BitVec.allOnes 32 := by
    revert m
    decide +kernel
  refine ⟨?_, .ofOutside ((M.Fixes.wrOutside x (List.mem_singleton.mpr rfl)).run s)⟩
  rw [rd_apply_reg_same _ _ _ hmask.1, hmask.2, BitVec.and_allOnes]

/-! ## By a legacy frame (R70) -/

theorem legacyWrite_eq {a : Nat} (w : Word) (ha : a < 2 ^ 24) : legacyWrite a w = legacyWord (legacyBits true a w) := by
  have hone : b2n true = 1 := rfl
  rw [legacyWrite, legacyBits, hone, Nat.mod_eq_of_lt (by omega), Nat.one_mul]

theorem legacyAccess_tqReq {m : Fin 2} {x : Word} {s : State} (hd : s.dev ≠ 6)
    (h : s.writable (legacyCtx true) [(FLD.TQ_REQ m, x)] = true) :
    (legacyAccess true (FLD.TQ_REQ m) x).Does s ({}, 0) ((Act.reg (FLD.TQ_REQ m) x).apply s) := by
  have hlog (u : State) : (logViolation (legacyCtx true) {}).Does u () u := .ite_neg (by decide) <| M.does_pure () u
  exact .read <| .ite_neg hd <| .ite_pos rfl <| ((writeWords_tqReq h).map _).bind <| (hlog _).bind <| M.does_pure _ _

theorem TQ_REQ_lt (m : Fin 2) : FLD.TQ_REQ m < 2 ^ 24 := by
  revert m
  decide

/-- The result of a frame goes out with the next one. -/
def setLegacy (r : BitVec 72) : M Unit := hid fun h => { h with cmd := { h.cmd with legacy := r } }

theorem setLegacy_does (r : BitVec 72) (s : State) : (setLegacy r).Does s () ((setLegacy r).run s) := fun _ => rfl

theorem setLegacy_go (r : BitVec 72) (s : State) : ((setLegacy r).run s).hid.cmd.go = s.hid.cmd.go := rfl

/-- The frame that is carried out leaves its result beside the word. -/
theorem legacyFrame_tqReq {m : Fin 2} {x : Word} {s : State} (ho : s.legacyOpen = true)
    (h : s.writable (legacyCtx true) [(FLD.TQ_REQ m, x)] = true) :
    (legacyFrame (legacyWrite (FLD.TQ_REQ m) x)).Ends s fun _ t =>
      ∃ r, t = (setLegacy r).run ((Act.reg (FLD.TQ_REQ m) x).apply s) := by
  obtain ⟨hheld, hsoon, hlink, hpres, hmode, hdev, hgo⟩ := (legacyOpen_iff s).mp ho
  obtain ⟨hbits, haddr, hzero, hdir, hdata⟩ := legacyFrame_fields true x (TQ_REQ_lt m) rfl
  have hacc := legacyAccess_tqReq hdev h
  rw [legacyWrite_eq x (TQ_REQ_lt m)]
  refine .read <| .ite_pos (by simp [*]) ?_
  simp only [hbits, haddr, hzero, hdir, hdata]
  refine .ite_neg (by simp) <| .ite_neg (by simp) <| .bind hacc <| .ite_neg (by simp) ?_
  refine .bind (setLegacy_does _ _) <| .ofDoes (takeGo_none ?_) ⟨_, rfl⟩
  rw [setLegacy_go, apply_reg_hid, hgo]

/-- The write leaves the result of the frame and the word. -/
theorem legacyWrite_tqReq {m : Fin 2} {x : Word} {s : State} (h : s.accepts .legacy [(FLD.TQ_REQ m, x)] = true) :
    ((hostWrite .legacy [(FLD.TQ_REQ m, x)]).run s).rd (FLD.TQ_REQ m) = x ∧
      Keeps [FLD.TQ_REQ m] eventPages s ((hostWrite .legacy [(FLD.TQ_REQ m, x)]).run s) := by
  simp only [State.accepts, Bool.and_eq_true] at h
  obtain ⟨_, _, hd, r, rfl⟩ := legacyFrame_tqReq h.1.2 h.2
  have hrun : (hostWrite .legacy [(FLD.TQ_REQ m, x)]).Does s () _ := hd.bind (M.does_pure () _)
  obtain ⟨hrd, hk⟩ := stored_tqReq m x s
  rw [hrun.run]
  exact ⟨hrd, fun a ha _ => hk.rd a ha List.not_mem_nil, hk.tabs, hk.vio, hk.chg, hk.pending⟩

end Sys2Proof.Machine
end

section
/-! SUPPORT for O43: a torque request that comes in a WRITE packet. -/

namespace Sys2Proof.Machine

theorem bit_eq_getLsbD (b : Byte) (i : Nat) : bit b.toNat i = b.getLsbD i := by
  rw [bit, BitVec.getLsbD, Nat.testBit_eq_decide_div_mod_eq]
  rfl

/-- The payload of a WRITE of one word, without its tag. -/
theorem bodyOf_writePacket {src : Source} {version flags : Byte} {seq session : BitVec 16} {tag : List Byte} {a : Nat} {x : Word}
    (h : (Via.packet src version flags seq session tag).wf = true) :
    bodyOf (writePacket src version flags seq session tag [(a, x)]) =
      leBytes 2 (a % 65536) ++ leBytes 2 1 ++ leBytes 4 x.toNat := by
  simp only [Via.wf, Bool.and_eq_true, beq_iff_eq] at h
  obtain ⟨-, hlen⟩ := h
  simp only [bodyOf, authSet, writePacket, bit_eq_getLsbD, List.headD_cons, List.flatMap_cons, List.flatMap_nil, List.append_nil,
    List.length_cons, List.length_nil]
  by_cases hf : flags.getLsbD 7 = true
  · rw [if_pos hf] at hlen
    rw [if_pos hf, if_pos hf, List.length_append, hlen, Nat.add_sub_cancel, List.take_left]
  · rw [if_neg hf, if_neg hf, List.append_nil]

theorem ofLe_leBytes : ∀ (n v : Nat), v < 256 ^ n → ofLe (leBytes n v) = v
  | 0, v, h => by
    have : v = 0 := by omega
    rw [this]
    rfl
  | n + 1, v, h => by
    rw [pow_succ] at h
    rw [leBytes, ofLe, ofLe_leBytes n (v / 256) (by omega), BitVec.toNat_ofNat]
    omega

/-- The word its four bytes spell. -/
theorem wordsOf_leBytes (x : Word) : wordsOf (leBytes 4 x.toNat) = [x] := by
  have hle : BitVec.ofNat 32 (ofLe (leBytes 4 x.toNat)) = x := by
    rw [ofLe_leBytes 4 _ x.isLt, BitVec.ofNat_toNat, BitVec.setWidth_eq]
  exact congrArg (fun y => [y]) hle

theorem TQ_REQ_range (m : Fin 2) : rangeBad 8 (FLD.TQ_REQ m % 65536) 1 = none ∧
    addrs 8 (FLD.TQ_REQ m % 65536) 1 = [FLD.TQ_REQ m] := by
  revert m
  decide

theorem opWrite_tqReq {c : Ctx} {m : Fin 2} {x : Word} {s : State} (h : s.writable c [(FLD.TQ_REQ m, x)] = true) :
    (opWrite c 8 (leBytes 2 (FLD.TQ_REQ m % 65536) ++ leBytes 2 1 ++ leBytes 4 x.toNat)).Does s {}
      ((Act.reg (FLD.TQ_REQ m) x).apply s) := by
  obtain ⟨hrange, haddr⟩ := TQ_REQ_range m
  have hoff : leAt (leBytes 2 (FLD.TQ_REQ m % 65536) ++ leBytes 2 1 ++ leBytes 4 x.toNat) 0 2 = FLD.TQ_REQ m % 65536 :=
    ofLe_leBytes 2 _ (by omega)
  have hn : leAt (leBytes 2 (FLD.TQ_REQ m % 65536) ++ leBytes 2 1 ++ leBytes 4 x.toNat) 2 2 = 1 := rfl
  have hdrop : (leBytes 2 (FLD.TQ_REQ m % 65536) ++ leBytes 2 1 ++ leBytes 4 x.toNat).drop 4 = leBytes 4 x.toNat := rfl
  unfold opWrite
  simp only [hoff, hn, hrange, haddr, hdrop, wordsOf_leBytes]
  exact .ite_neg (by decide) (writeWords_tqReq h)

theorem handle_write {c : Ctx} {p : Packet} {body : List Byte} {s t : State} {a : Ans} (hop : c.op = 0x11)
    (h : (opWrite c p.page.toNat body).Does s a t) (g : Option Seg) (svcLow : Option Bool) :
    (handle c p body g svcLow).Does s (a, none) t := by
  refine .read ?_
  simp only [hop]
  exact h.bind (M.does_pure _ t)

/-- A request that is executed, after which no GO waits. -/
theorem serve_executed {op : Nat} {p : Packet} {svcLow : Option Bool} {s u : State} {a : Ans} (hwf : p.wf = true)
    (ht : s.takes op p = true) (hx : (executeTop (s.ctxOf op p) p svcLow).Does (s.begun op p) a u)
    (hu : u.hid.cmd.go = none) (ha : ¬ (op = 0xF0 ∧ a.status = stOk ∧ p.scope.toNat = 3)) :
    (serve op p svcLow).run s = (sendAnswer op p (s.replyKey p) a).run ((logViolation (s.ctxOf op p) a).run u) := by
  obtain ⟨hr, he⟩ := takes_reaches hwf ht
  obtain ⟨_, hlis, hlen, hdev, _⟩ := (reaches_iff s p).mp hr
  rw [begun_eq, ← ctxOf_touch] at hx
  have hp := process_does hx ha
  rw [ctxOf_touch, replyKey_touch] at hp
  exact serve_run hlis hlen (receive_passOn he hdev (passOn_taken ht hp))
    ((bare_go ((sendAnswer_sent ..).bare.trans (logViolation_bare _ _ u))).trans hu)

/-- The state in which the effect of a request begins has moved no more than bookkeeping does. -/
theorem serving_bookkept (s : State) (op : Nat) (p : Packet) : Bookkept s (s.serving op p) :=
  (begun_bookkept s op p).trans (bookkept_run (foot_clearLost _) (clearLost_bare _) _)

/-- A WRITE that passes every check leaves the word, and is answered. -/
theorem packetWrite_tqReq {src : Source} {version flags : Byte} {seq session : BitVec 16} {tag : List Byte} {m : Fin 2} {x : Word}
    {s : State} (h : s.accepts (.packet src version flags seq session tag) [(FLD.TQ_REQ m, x)] = true) :
    ((hostWrite (.packet src version flags seq session tag) [(FLD.TQ_REQ m, x)]).run s).rd (FLD.TQ_REQ m) = x ∧
      Keeps [FLD.TQ_REQ m] eventPages s
        ((hostWrite (.packet src version flags seq session tag) [(FLD.TQ_REQ m, x)]).run s) := by
  simp only [State.accepts, Bool.and_eq_true] at h
  obtain ⟨⟨hvia, hserves⟩, hwrite⟩ := h
  show ((serve 0x11 _).run s).rd _ = x ∧ Keeps _ _ s ((serve 0x11 _).run s)
  have hbody := bodyOf_writePacket (a := FLD.TQ_REQ m) (x := x) hvia
  have hpage : (writePacket src version flags seq session tag [(FLD.TQ_REQ m, x)]).page.toNat = 8 := by
    show (BitVec.ofNat 8 (FLD.TQ_REQ m / 65536)).toNat = 8
    rw [FLD.TQ_REQ_page]
    rfl
  generalize writePacket src version flags seq session tag [(FLD.TQ_REQ m, x)] = p at *
  obtain ⟨hwf, htakes, hacc, hseg, hchk⟩ := (serves_iff s 0x11 p).mp hserves
  have hbook := serving_bookkept s 0x11 p
  have hop : (opWrite (s.ctxOf 0x11 p) p.page.toNat (bodyOf p)).Does (s.serving 0x11 p) {}
      ((Act.reg (FLD.TQ_REQ m) x).apply (s.serving 0x11 p)) := by
    rw [hpage, hbody]
    exact opWrite_tqReq hwrite
  obtain ⟨hrd, hk⟩ := stored_tqReq m x (s.serving 0x11 p)
  have hgo : ((Act.reg (FLD.TQ_REQ m) x).apply (s.serving 0x11 p)).hid.cmd.go = none := by
    rw [apply_reg_hid, bare_go hbook.bare]
    obtain ⟨_, _, _, _, hgo⟩ := (reaches_iff s p).mp (takes_reaches hwf htakes).1
    exact hgo
  generalize (Act.reg (FLD.TQ_REQ m) x).apply (s.serving 0x11 p) = w at *
  have hput := bookkept_run (foot_putSeg (s.ctxOf 0x11 p) none) (putSeg_bare ..) w
  have hne : ¬ ((s.ctxOf 0x11 p).op = 0x91 ∧ (accessBad (s.ctxOf 0x11 p) p (bodyOf p)).isNone = true) := fun hc =>
    absurd hc.1 (by simp [State.ctxOf])
  have hx := executeTop_does hne (execute_handled (svcLow := none) hacc hseg hchk (handle_write rfl hop _ _))
  rw [serve_executed hwf htakes hx ((bare_go hput.bare).trans hgo) (fun hc => absurd hc.1 (by decide)),
    logViolation_none (by decide)]
  have hsent := (hput.sent.trans (sendAnswer_sent 0x11 p (s.replyKey p) {} _)).keeps
  have hpage' : FLD.TQ_REQ m / 65536 ∉ eventPages := by
    rw [FLD.TQ_REQ_page]
    decide
  refine ⟨(hsent.rd _ List.not_mem_nil hpage').trans hrd, ?_⟩
  exact ((hbook.sent.keeps.trans hk).trans hsent).mono (by simp) (by simp)

end Sys2Proof.Machine
end

section
/-! Statement O43: the field engines. -/

namespace Sys2Proof.Machine

theorem incBy_f {x : FldAt} (h : x.Real) (n : Nat) (s : State) :
    ((incBy x n).run s).f x = min (s.f x + n) (2 ^ (x.hi + 1 - x.lo) - 1) := by
  have hd : (incBy x n).Does s () _ := (M.does_rf x s).bind (M.does_wf x _ s)
  have hpos := Nat.two_pow_pos (x.hi + 1 - x.lo)
  rw [hd.run, f_wf_same h, Nat.mod_eq_of_lt (by omega)]

/-- What an evaluation that goes through counts and leaves, seen from before it. -/
theorem fieldEvaluation_reconstructs {s t : State} {m : Fin 2} {n : Nat} {f : FldEng → FldEng}
    (h : Factored m ((incBy (FLD.CNT0.RECONSTRUCTED m) n).run ((updEng m f).run s)) t) :
    t.f (FLD.CNT0.RECONSTRUCTED m) = min (s.f (FLD.CNT0.RECONSTRUCTED m) + n) 65535 ∧
      t.f (FLD.CNT0.HOLDS m) = s.f (FLD.CNT0.HOLDS m) ∧
      t.f (FLD.DERATE.K m) = min (s.f (FLD.DERATE.K_HOST m)) (s.f (FLD.DERATE.K_TH m)) ∧
      t.f (FLD.DERATE.K_HOST m) = s.f (FLD.DERATE.K_HOST m) ∧ t.f (FLD.DERATE.K_TH m) = s.f (FLD.DERATE.K_TH m) ∧
      (t.eng m).win = (f (s.eng m)).win ∧ t.rd (FLD.TQ_REQ m) = s.rd (FLD.TQ_REQ m) ∧ t.beyond = s.beyond := by
  obtain ⟨hholds, hrec⟩ := CNT0_fields m
  have heng := eng_updEng m f s
  have hu : ∀ x : FldAt, ((updEng m f).run s).f x = s.f x := fun _ => rfl
  have hureq : ((updEng m f).run s).rd (FLD.TQ_REQ m) = s.rd (FLD.TQ_REQ m) := rfl
  have hubey : ((updEng m f).run s).beyond = s.beyond := rfl
  generalize (updEng m f).run s = u at *
  have hin : (incBy (FLD.CNT0.RECONSTRUCTED m) n).In [8] := M.In.incBy 8 _ n (FLD.CNT0_page _) (by decide)
  have hapart : (FLD.CNT0.HOLDS m).Apart (FLD.CNT0.RECONSTRUCTED m) := .inr ⟨hholds, .inr (show 15 < 16 by decide)⟩
  have hheld : ((incBy (FLD.CNT0.RECONSTRUCTED m) n).run u).f (FLD.CNT0.HOLDS m) = _ :=
    M.Fixes.run (.read fun _ => .wfApart hapart _) u
  have hcount := incBy_f hrec n u
  have hkeep : Keeps [FLD.CNT0 m] [] u ((incBy (FLD.CNT0.RECONSTRUCTED m) n).run u) := .ofOutside <|
    (M.Fixes.incByOutside (x := FLD.CNT0.RECONSTRUCTED m) n (List.mem_singleton.mpr rfl)).run u
  have heng' := (hin.run u).eng (by decide) (by decide) m
  have hbey := (incBy_beyond (FLD.CNT0.RECONSTRUCTED m) n).run u
  generalize (incBy (FLD.CNT0.RECONSTRUCTED m) n).run u = v at *
  have hder : ∀ x : FldAt, x.addr = FLD.DERATE m → v.f x = s.f x := fun x hx =>
    (hkeep.f (fun hin => arr_apart (by decide) m (hx.symm.trans (List.mem_singleton.mp hin))) List.not_mem_nil).trans (hu x)
  have hreq : v.rd (FLD.TQ_REQ m) = u.rd (FLD.TQ_REQ m) :=
    hkeep.rd _ (fun hin => arr_apart (by decide) m (List.mem_singleton.mp hin)) List.not_mem_nil
  refine ⟨?_, ?_, ?_, ?_, ?_, ?_, ?_, ?_⟩
  · rw [h.reconstructed, hcount, hu]
    rfl
  · rw [h.holds, hheld, hu]
  · rw [h.k, hder _ rfl, hder _ rfl]
  · rw [h.kHost, hder _ rfl]
  · rw [h.kTh, hder _ rfl]
  · rw [h.win, heng', heng]
  · rw [h.request, hreq, hureq]
  · rw [h.beyond, hbey, hubey]

/-- Settles O43: a held evaluation counts and commits again; one that goes through writes K first, and nothing after that moves
the counts, the factors and the request; TQ_REQ is a word that is only stored; the two engines' factors are updated in turn. -/
theorem fieldEnginesAndDerating : Obligations.Field_engines_and_derating := by
  unfold Obligations.Field_engines_and_derating
  refine ⟨fun s m ecc g ha hp hg hw hany hpu hbase hset => ?_,
    fun s m ecc g i1 i2 r1 r2 up_ lo ha hp hg hw hany hpu hobs hbase h1 h2 hup hlo => ?_, fun s v m x h => ?_,
    fun s ha hcd => ?_⟩
  · obtain ⟨hb, hc, hwin, hk⟩ :=
      (M.Ends.onIsland ha hp (fieldEvaluation_holds ecc hp hg hw hany hpu hbase hset)).run
    have hpage : ∀ a, a / 65536 = 8 → a / 65536 ∉ ledgerPages := fun a h8 => by
      rw [h8]
      decide
    have hreq : FLD.TQ_OUT m ∉ [FLD.CNT0 m] := fun hin => arr_apart (by decide) m (List.mem_singleton.mp hin)
    have hmode : FLD.MCH_STAT m ∉ [FLD.CNT0 m] := fun hin => arr_apart (by decide) m (List.mem_singleton.mp hin)
    exact .of_next rfl ⟨hb, hwin, hk.rd _ hreq (hpage _ (FLD.TQ_OUT_page _)), hk.f hmode (hpage _ (FLD.MCH_STAT_page _)), hc, hk⟩
  · have hfac := (M.Ends.onIsland ha hp (fieldEvaluation_goes ecc hp hg hw hany hpu hobs hbase h1 h2 hup hlo)).run
    obtain ⟨hrec, hholds, hk, hhost, hth, hwin, hreq, hbey⟩ := fieldEvaluation_reconstructs hfac
    have hsame := (foot_onIsland (2 + m.val) (foot_fieldEvaluation m ecc) (by simp)).run s
    rw [← Nat.add_assoc] at hrec
    exact .of_next rfl ⟨hrec, hholds, hk, hhost, hth, hwin, hreq, hsame.keeps hbey (by decide) (by decide)⟩
  · cases v with
    | packet src version flags seq session tag =>
      have hwf : (Via.packet src version flags seq session tag).wf = true := by
        simp only [State.accepts, Bool.and_eq_true] at h
        exact h.1.1
      exact .of_checked rfl hwf (packetWrite_tqReq h)
    | legacy => exact .of_checked rfl rfl (legacyWrite_tqReq h)
  · obtain ⟨hcool, hk⟩ := thermalFactor_cools hcd
    have hd : (whenAwake thermalFactor).Does s () (thermalFactor.run s) := .read <| .ite_pos ha <| foot_thermalFactor.does s
    refine .of_next rfl ?_
    rw [hd.run]
    exact ⟨fun m hm => (hcool ⟨m, hm⟩).kTh, fun m hm => (hcool ⟨m, hm⟩).k, fun m hm => (hcool ⟨m, hm⟩).kHost, hk⟩

end Sys2Proof.Machine
end

section
/-! Statements O3, O5, O6: what `step` and `exec` do with the queue of waiting commands and with every command. -/

namespace Sys2Proof.Machine

/-- Settles O5: every command is one program, and no program changes the queue. -/
theorem execLeavesTheQueue : Obligations.Exec_leaves_the_queue := by
  unfold Obligations.Exec_leaves_the_queue
  intro i s t h
  obtain ⟨m, rfl⟩ := exec_next_run h
  exact M.run_pending m s

/-- Settles O6: every command is the check of its operands and one program, which has no way to fail. -/
theorem commandsComplete : Obligations.Commands_complete := by
  unfold Obligations.Commands_complete
  intro i s
  obtain ⟨m, hm⟩ := exec_eq_checked i
  exact ⟨fun hw => ⟨m.run s, by rw [hm, hw, checked_next]⟩, fun hw => by rw [hm, hw, checked_refused]⟩

/-- Settles O3: the step looks at the queue and takes its first command off. -/
theorem stepRunsTheFrontCommand : Obligations.Step_runs_the_front_command := by
  unfold Obligations.Step_runs_the_front_command
  intro c r s h
  rw [step, h]

end Sys2Proof.Machine
end

section
/-! Statement O8: the CRC of packets (R37), as a register over the bits of the bytes. -/

namespace Sys2Proof.Machine

/-! ## The register, bit by bit -/

/-- One bit into a reflected CRC register. -/
def crcBit (poly c : Nat) (x : Bool) : Nat := crcShift poly (c ^^^ x.toNat)

/-- The lowest bit decides on the polynomial; the others only move. -/
theorem crcShift_xor (poly c n : Nat) : crcShift poly (c ^^^ n) = crcBit poly c (n.testBit 0) ^^^ n / 2 := by
  have hm : (n.testBit 0).toNat = n % 2 := by
    rw [Nat.testBit_zero]
    rcases Nat.mod_two_eq_zero_or_one n with h | h <;> simp [h]
  have hp : (c ^^^ n) % 2 = (c ^^^ n % 2) % 2 := by
    simp only [Nat.xor_mod_two_eq]
    omega
  have hz : n % 2 / 2 = 0 := by omega
  simp only [crcBit, crcShift, hm, hp, Nat.xor_div_two, hz, Nat.xor_zero]
  split
  · rw [Nat.xor_assoc, Nat.xor_assoc, Nat.xor_comm poly]
  · rfl

/-- Eight shifts after the whole byte are its bits taken in one by one, least significant first (R37: reflected input). -/
theorem crcByte_eq_bits (poly c : Nat) (b : Byte) :
    crcByte poly c b = ((List.range 8).map fun i => b.getLsbD i).foldl (crcBit poly) c := by
  have hb : b.toNat / 256 = 0 := Nat.div_eq_of_lt b.isLt
  have hbit : ∀ i, b.getLsbD i = (b.toNat / 2 ^ i).testBit 0 := fun i => by
    rw [Nat.testBit_div_two_pow, Nat.zero_add, BitVec.testBit_toNat]
  have hr : List.range 8 = [0, 1, 2, 3, 4, 5, 6, 7] := rfl
  simp only [crcByte, Function.comp_apply, crcShift_xor, hr, List.map_cons, List.map_nil,
    List.foldl_cons, List.foldl_nil, hbit, Nat.div_div_eq_div_mul, Nat.reduceMul, Nat.reducePow, Nat.div_one, hb,
    Nat.xor_zero]

/-- One bit into the register of R37: it moves towards its most significant bit. -/
def regBit (c : BitVec 32) (x : Bool) : BitVec 32 := if c.msb = x then c <<< 1 else (c <<< 1) ^^^ 0x1EDC6F41#32

theorem reverse_shiftLeft_one (c : BitVec 32) : (c <<< 1).reverse = c.reverse >>> 1 := by
  ext i hi
  simp only [BitVec.getElem_reverse, BitVec.getMsbD_shiftLeft, BitVec.getElem_ushiftRight, BitVec.getLsbD_reverse,
    Nat.add_comm]

theorem reverse_xor (c d : BitVec 32) : (c ^^^ d).reverse = c.reverse ^^^ d.reverse := by
  ext i hi
  simp [BitVec.getElem_reverse, BitVec.getMsbD_xor]

theorem msb_eq_reverse_mod (c : BitVec 32) : c.msb = decide (c.reverse.toNat % 2 = 1) := by
  have h : c.reverse.getLsbD 0 = c.msb := BitVec.getLsbD_reverse.trans (BitVec.msb_eq_getMsbD_zero c).symm
  rw [← h, BitVec.getLsbD, Nat.testBit_zero]

/-- The register read in reverse order takes a bit as the reflected register does. -/
theorem regBit_reverse (c : BitVec 32) (x : Bool) :
    (regBit c x).reverse.toNat = crcBit 0x82F63B78 c.reverse.toNat x := by
  have hpoly : (0x1EDC6F41#32).reverse = 0x82F63B78#32 := by decide +kernel
  have hx : x.toNat / 2 = 0 := by cases x <;> rfl
  have hmod : (c.reverse.toNat ^^^ x.toNat) % 2 = 1 ↔ ¬ c.msb = x := by
    rw [msb_eq_reverse_mod, Nat.xor_mod_two_eq]
    rcases Nat.mod_two_eq_zero_or_one c.reverse.toNat with h | h <;> cases x <;> simp [Nat.add_mod, h]
  simp only [crcBit, crcShift, regBit, Nat.xor_div_two, hx, Nat.xor_zero, hmod, ite_not]
  split
  · rw [reverse_shiftLeft_one, BitVec.toNat_ushiftRight, Nat.shiftRight_one]
  · rw [reverse_xor, reverse_shiftLeft_one, hpoly, BitVec.toNat_xor, BitVec.toNat_ushiftRight, Nat.shiftRight_one]
    rfl

theorem foldl_regBit_reverse (l : List Bool) (c : BitVec 32) :
    (l.foldl regBit c).reverse.toNat = l.foldl (crcBit 0x82F63B78) c.reverse.toNat := by
  induction l generalizing c with
  | nil => rfl
  | cons x l ih => rw [List.foldl_cons, List.foldl_cons, ih, regBit_reverse]

theorem foldl_crcByte (b : List Byte) (c : Nat) : b.foldl (crcByte 0x82F63B78) c =
    (b.flatMap fun x => (List.range 8).map fun i => x.getLsbD i).foldl (crcBit 0x82F63B78) c := by
  induction b generalizing c with
  | nil => rfl
  | cons x b ih => rw [List.foldl_cons, ih, List.flatMap_cons, List.foldl_append, crcByte_eq_bits]

/-- The CRC of the model is the register of R37, read in reverse order. -/
theorem crc32c_eq_register (b : List Byte) : crc32c b =
    (((b.flatMap fun x => (List.range 8).map fun i => x.getLsbD i).foldl regBit 0xFFFFFFFF#32).reverse
      ^^^ 0xFFFFFFFF#32).toNat := by
  have hones : (0xFFFFFFFF#32).reverse.toNat = 0xFFFFFFFF := by decide +kernel
  rw [BitVec.toNat_xor, foldl_regBit_reverse, hones, crc32c, foldl_crcByte]
  rfl

/-! ## The trailer of a packet -/

@[simp] theorem length_leBytes : ∀ n v : Nat, (leBytes n v).length = n
  | 0, _ => rfl
  | n + 1, v => by rw [leBytes, List.length_cons, length_leBytes]

theorem bytes_trailer (q : OutPkt) :
    q.bytes.drop (16 + q.payload.length) = leBytes 4 (crc32c (q.bytes.take (16 + q.payload.length))) := by
  have hlen : (leBytes 2 0x5A3C ++ leBytes 1 q.version ++ leBytes 1 q.flags ++ leBytes 2 q.seq ++ leBytes 2 q.opcode ++
      leBytes 2 q.payload.length ++ leBytes 2 q.session ++ leBytes 1 q.page ++ leBytes 2 q.inst ++ leBytes 1 q.scope ++
      q.payload).length = 16 + q.payload.length := by
    simp only [List.length_append, length_leBytes]
  rw [OutPkt.bytes, List.drop_left' hlen, List.take_left' hlen]

/-- What it means that bytes are framed as a request. -/
theorem framed_iff (src : Source) (b : List Byte) (op : Nat) (p : Packet) : framed src b op p = true ↔
    leAt b 0 2 = 0x5A3C ∧ leAt b 8 2 ≤ 4096 ∧ 20 + leAt b 8 2 ≤ b.length ∧
      leAt b (16 + leAt b 8 2) 4 = crc32c (b.take (16 + leAt b 8 2)) ∧ packetOf src b = ⟨op, p⟩ := by
  simp [framed, and_assoc]

/-- LENGTH of a framed request is that of its payload. -/
theorem payload_length_of_framed {src : Source} {b : List Byte} {op : Nat} {p : Packet} (h : framed src b op p = true) :
    p.payload.length = leAt b 8 2 := by
  obtain ⟨-, -, hlen, -, hp⟩ := (framed_iff src b op p).mp h
  have hpay : p.payload = (b.drop 16).take (leAt b 8 2) := congrArg (fun r => r.p.payload) hp.symm
  rw [hpay, List.length_take, List.length_drop]
  omega

/-- Settles O8: the bits of each byte enter one by one, and the register is read in reverse order. -/
theorem crcIsCrc32c : Obligations.Crc_is_crc32c := by
  unfold Obligations.Crc_is_crc32c
  refine ⟨crc32c_eq_register, bytes_trailer, fun src b op p h => ?_, by decide +kernel⟩
  obtain ⟨-, -, -, hcrc, -⟩ := (framed_iff src b op p).mp h
  rw [payload_length_of_framed h, hcrc]

end Sys2Proof.Machine
end

section
/-! Statements O11, O17, O19, O20, O21, O22, refuted: for each a state and a request that the model takes elsewhere. -/

namespace Sys2Proof.Machine

/-- The block in STANDBY, in packet mode: the host link and the three Chords are PRESENT, no other island is. -/
def linkUp : State :=
  M.run (do
    wf SYS.STATUS.DEV_STATE 1
    wf SYS.STATUS.HOSTMODE 1
    [10, 12, 13, 14].forM fun n => wf (SYS.ISLAND.STATE n) 2)
  { State.reset with hid := { State.reset.hid with lcy := { held := false } } }

/-- A session of the SPI port with number 1. -/
def spiSession (auth : Nat) (kept : List Kept) : Session := ⟨1, .spi, auth, true, [], [], 0, kept, none, none⟩

/-- A state with that session alone open. -/
def State.withSession (s : State) (auth : Nat) (kept : List Kept) : State :=
  { s with hid := { s.hid with cmd := { s.hid.cmd with sessions := [spiSession auth kept] } } }

/-- A request of that session whose TARGET names the device. -/
def sessionRequest (inst : BitVec 16) (scope : Byte) (payload : List Byte) : Packet :=
  ⟨.spi, 2, 0, 7, 1, 0, inst, scope, payload⟩

theorem exec_next_eq {i : Instr} {s t : State} {m : M Unit} (h : exec i s = .next t) (he : exec i s = .next (m.run s)) :
    t = m.run s := by
  rw [he] at h
  injection h with h
  exact h.symm

/-! ## O19: NO_REPLY -/

/-- Refutes O19: while the host link's island is out of service a reply waits for it (R30), and so does one that reports
REFUSED; the statement's first part has it in the outbound queue of every state, as that after power-on. -/
theorem not_noReplySuppresses : ¬ Obligations.No_reply_suppresses := by
  unfold Obligations.No_reply_suppresses
  rintro ⟨hreply, -⟩
  obtain ⟨-, hsent⟩ := hreply State.reset (sessionRequest 0 4 []) none
    (replyPkt 0 (sessionRequest 0 4 []) (refuse 0x0105 0x80000006)) rfl
  obtain ⟨q, l, hq⟩ := hsent (by decide)
  have hspi : ((sendReply (sessionRequest 0 4 []) none
      (replyPkt 0 (sessionRequest 0 4 []) (refuse 0x0105 0x80000006))).run State.reset).que.spi = [] := by decide +kernel
  rw [hspi] at hq
  exact absurd hq (by simp)

/-! ## O11: replays -/

/-- A NOP of session 1. -/
def replayedNop : Packet := sessionRequest 0 4 []

/-- The reply kept for it, marked as a segment that is not the first of its reply. -/
def keptSegment : Kept := ⟨7, packetCrc 0x00 replayedNop, { replyPkt 0x00 replayedNop {} with first := false }⟩

/-- Session 1 keeps it. -/
def keeping : State := linkUp.withSession authOperator [keptSegment]

theorem keeping_reaches : keeping.reaches replayedNop = true ∧ earlyBad 0x00 replayedNop = none ∧
    keeping.sessionOk 0x00 replayedNop = true ∧ keeping.tagBad 0x00 replayedNop = false ∧
    keeping.keptReply 0x00 replayedNop = some keptSegment := by
  decide +kernel

theorem keeping_sends : ((serve 0x00 replayedNop).run keeping).que.spi = [replyPkt 0x00 replayedNop {}] := by
  decide +kernel

/-- Refutes O11: a kept reply is segmented anew when it is sent, and its first packet is marked as the first (what ends
BUSY of the tunnel, R71); the statement has it leave as it was kept, in every state, so in one that keeps a packet not so
marked. -/
theorem not_replaysAreSentAgain : ¬ Obligations.Replays_are_sent_again := by
  unfold Obligations.Replays_are_sent_again
  rintro ⟨hreplay, -⟩
  obtain ⟨hreach, hearly, hsess, htag, hkept⟩ := keeping_reaches
  obtain ⟨t, ht, -, -, -, -, hspi⟩ := hreplay keeping 0x00 replayedNop false (.nop replayedNop) keptSegment rfl hreach
    hearly hsess htag hkept
  have hsent := hspi rfl (by decide) (by decide)
  rw [exec_next_eq ht (m := serve 0x00 replayedNop) rfl, keeping_sends] at hsent
  exact absurd hsent (by decide +kernel)

/-! ## O20, O21: the logs -/

/-- LOG_READ of the fault log, one entry from the first. -/
def faultLogRead : Packet := ⟨.spi, 2, 0, 7, 0, 0, 0, 4, [1, 0, 0, 0, 1, 0]⟩

theorem linkUp_serves_faultLogRead : linkUp.serves 0x60 faultLogRead = true := by decide +kernel

/-- R24: without the memory island the request is completed for it, and SYS.XFER of that island counts. -/
theorem faultLogRead_absent :
    ((serve 0x60 faultLogRead).run linkUp).f (SYS.XFER.ABSENT_REPLIES 11) = 1 ∧
      linkUp.f (SYS.XFER.ABSENT_REPLIES 11) = 0 := by
  decide +kernel

/-- Refutes O20: the logs lie behind the memory island (R24), which the clauses of LOG_READ do not ask for; where it is out
of service the request fails, and SYS.XFER counts it, which the frame of those clauses excludes. -/
theorem not_informationRequestsAnswer : ¬ Obligations.Information_requests_answer := by
  unfold Obligations.Information_requests_answer
  rintro ⟨-, -, -, -, -, -, hlog, -⟩
  obtain ⟨t, ht, -, hkeeps⟩ := hlog linkUp faultLogRead linkUp_serves_faultLogRead (by decide)
  obtain ⟨hcount, hzero⟩ := faultLogRead_absent
  have hsame : t.f (SYS.XFER.ABSENT_REPLIES 11) = linkUp.f (SYS.XFER.ABSENT_REPLIES 11) :=
    f_of_rd_eq _ (hkeeps.rd _ List.not_mem_nil (by decide))
  rw [exec_next_eq ht (m := serve 0x60 faultLogRead) rfl, hcount, hzero] at hsame
  exact absurd hsame (by decide)

/-- LOG_CLEAR of the fault log. -/
def faultLogClear : Packet := sessionRequest 0 4 [1, 0, 0, 0]

/-- The fault log holds one entry, and an INTEGRATOR's session is open. -/
def logged : State :=
  let s := linkUp.withSession authIntegrator []
  { s with que := { s.que with flt := [⟨0, 0, 10, 0, 0, 0, 1, 0⟩] } }

theorem logged_serves_faultLogClear : logged.serves 0x61 faultLogClear = true := by decide +kernel

theorem faultLogClear_absent : ((serve 0x61 faultLogClear).run logged).que.flt ≠ [] := by decide +kernel

/-- Refutes O21: the clauses of LOG_CLEAR do not ask for the memory island, behind which the logs lie (R24); where it is
out of service the request fails and the log stays. -/
theorem not_writesAndTables : ¬ Obligations.Writes_and_tables := by
  unfold Obligations.Writes_and_tables
  rintro ⟨-, -, -, -, -, -, -, -, hclear, -⟩
  obtain ⟨t, ht, hflt, -⟩ := hclear logged faultLogClear logged_serves_faultLogClear rfl
  rw [exec_next_eq ht (m := serve 0x61 faultLogClear) rfl] at hflt
  exact faultLogClear_absent hflt

/-! ## O17: RETIRED -/

/-- FW_UPDATE begin with a header of a management image whose reserved byte 6 is 1. -/
def reservedHeader : Packet := sessionRequest 0 4 ([0, 0, 0, 0, 1, 0, 1] ++ List.replicate 73 0)

/-- The block in RETIRED, with an INTEGRATOR's session. -/
def retired : State := (wf LCY.STATE.STATE 4).run (linkUp.withSession authIntegrator [])

theorem retired_serves_reservedHeader :
    retired.serves 0xD0 reservedHeader = true ∧ retired.lcState = 4 ∧
      hdrKind (bodyOf reservedHeader) = some (fwImage (retired.ctxOf 0xD0 reservedHeader).auth) := by
  decide +kernel

theorem reservedHeader_badField : ((serve 0xD0 reservedHeader).run retired).que.spi =
    [replyPkt 0xD0 reservedHeader (refuse 0x010E 6)] := by
  decide +kernel

/-- Refutes O17: the reserved bytes 6 and 7 of the header come before the life-cycle state, and the clause of FW_UPDATE
begin does not ask that they are 0; such a header is refused with BAD_FIELD in RETIRED too. -/
theorem not_retiredRefuses : ¬ Obligations.Retired_refuses := by
  unfold Obligations.Retired_refuses
  rintro ⟨-, -, hbegin, -⟩
  obtain ⟨hserves, hlc, hkind⟩ := retired_serves_reservedHeader
  obtain ⟨t, ht, hans, -⟩ := hbegin retired reservedHeader ⟨hserves, hlc⟩ hkind
  have hspi := hans rfl (by decide) (by decide)
  rw [exec_next_eq ht (m := serve 0xD0 reservedHeader) rfl, reservedHeader_badField] at hspi
  exact absurd hspi (by decide +kernel)

/-! ## O22: DISABLE -/

/-- DISABLE of group 0. -/
def disableRequest : Packet := sessionRequest 0 1 []

/-- Group 0 is ARMED and holds channel 97, slot L of driver pair 0, whose shunt comparator shows SC_ACTIVE; an
OPERATOR's session is open. -/
def shunted : State :=
  M.run (do
    wtab 0x30 (8 * 97) [0]
    wf (GDR.SC_STAT.SC_ACTIVE 0) 1
    updGrp 0 fun r => { r with st := .armed })
    (linkUp.withSession authOperator [])

theorem shunted_serves_disable : shunted.serves 0x21 disableRequest = true ∧ shunted.gst 0 = .armed ∧
    shunted.disableRefusal 0 true = none := by
  decide +kernel

/-- R145: with its output cell off the channel's shunt comparator drops out. -/
theorem disable_dropsComparator : ((serve 0x21 disableRequest).run shunted).f (GDR.SC_STAT.SC_ACTIVE 0) = 0 ∧
    shunted.f (GDR.SC_STAT.SC_ACTIVE 0) = 1 := by
  decide +kernel

/-- Refutes O22: a channel that goes off takes SC_ACTIVE of its driver pair with it (R145, R154), and the pages that the
clause of DISABLE lets change do not hold that of the gate drive. -/
theorem not_groupRequests : ¬ Obligations.Group_requests := by
  unfold Obligations.Group_requests
  rintro ⟨-, -, hdisable, -⟩
  obtain ⟨hserves, hst, hallowed⟩ := shunted_serves_disable
  obtain ⟨t, ht, -, -, -, -, -, hkeeps⟩ := hdisable shunted disableRequest hserves
    ⟨by rw [show disableRequest.inst.toNat = 0 from rfl, hst]; decide, by
      rw [show disableRequest.inst.toNat = 0 from rfl, hst]; decide, hallowed⟩
  obtain ⟨hzero, hone⟩ := disable_dropsComparator
  have hsame : t.f (GDR.SC_STAT.SC_ACTIVE 0) = shunted.f (GDR.SC_STAT.SC_ACTIVE 0) :=
    f_of_rd_eq _ (hkeeps.rd _ List.not_mem_nil (by decide))
  rw [exec_next_eq ht (m := serve 0x21 disableRequest) rfl, hzero, hone] at hsame
  exact absurd hsame (by decide)

end Sys2Proof.Machine
end

section
/-! SUPPORT. A request that passes every check of R44: its effect, then its reply, in one packet or in several (R56). -/

namespace Sys2Proof.Machine

/-! ## The log takes only the reasons of R53 -/

/-- An answer that does not enter the violation log. -/
def Ans.Unlogged (a : Ans) : Prop :=
  ¬ (a.status = stRefused ∧ [0x0106, 0x0108, 0x0109, 0x0113, 0x0114].contains a.reason = true)

theorem unlogged_okWith (d : List Byte) : (okWith d).Unlogged := fun hc => absurd (show stOk = stRefused from hc.1) (by decide)

theorem logViolation_unlogged {c : Ctx} {a : Ans} (h : a.Unlogged) (s : State) : (logViolation c a).run s = s :=
  M.Does.run (.ite_neg h (M.does_pure () s))

/-! ## A request that passes every check -/

/-- A request is taken only while no accepted GO waits. -/
theorem serves_go {s : State} {op : Nat} {p : Packet} (h : s.serves op p = true) : s.hid.cmd.go = none := by
  obtain ⟨hwf, ht, -⟩ := (serves_iff s op p).mp h
  exact ((reaches_iff s p).mp (takes_reaches hwf ht).1).2.2.2.2

theorem serves_listens {s : State} {op : Nat} {p : Packet} (h : s.serves op p = true) : s.listens p.src = true := by
  obtain ⟨hwf, ht, -⟩ := (serves_iff s op p).mp h
  exact ((reaches_iff s p).mp (takes_reaches hwf ht).1).2.1

theorem serves_present {s : State} {op : Nat} {p : Packet} (h : s.serves op p = true) : s.present 10 = true :=
  present_of_listens (serves_listens h)

/-- What stands between the effect of a request and its reply: the transfer left open, the kept reply, EXEC_BUSY. -/
def beforeReply (c : Ctx) (op : Nat) (p : Packet) (a : Ans) (g : Option Seg) : M Unit := do
  putSeg c g
  keepReply op p (replyPkt op p a)
  showBusy

theorem foot_beforeReply (c : Ctx) (op : Nat) (p : Packet) (a : Ans) (g : Option Seg) :
    (beforeReply c op p a g).In [1, 43] :=
  (foot_putSeg c g).bind fun _ => (foot_keepReply op p _).bind fun _ => foot_showBusy

theorem beforeReply_bare (c : Ctx) (op : Nat) (p : Packet) (a : Ans) (g : Option Seg) :
    (beforeReply c op p a g).Fixes State.bare :=
  .bind (putSeg_bare c g) fun _ => .bind (keepReply_bare op p _) fun _ => showBusy_bare

theorem beforeReply_bookkept (c : Ctx) (op : Nat) (p : Packet) (a : Ans) (g : Option Seg) (s : State) :
    Bookkept s ((beforeReply c op p a g).run s) := bookkept_run (foot_beforeReply c op p a g) (beforeReply_bare ..) s

/-- A request whose checks pass has its effect, and then its reply is sent. -/
theorem serve_handled {op : Nat} {p : Packet} {svcLow : Option Bool} {s t : State} {a : Ans} {g : Option Seg}
    (h : s.serves op p = true) (hop : op ≠ 0x91)
    (hh : (handle (s.ctxOf op p) p (bodyOf p) ((s.begun op p).segOf (s.ctxOf op p)) svcLow).Does (s.serving op p) (a, g) t)
    (hgo : t.hid.cmd.go = none) (hlog : a.Unlogged) (hreset : op ≠ 0xF0) :
    (serve op p svcLow).run s = (sendReply p (s.replyKey p) (replyPkt op p a)).run
      ((beforeReply (s.ctxOf op p) op p a g).run t) := by
  obtain ⟨hwf, ht, hacc, hseg, hchk⟩ := (serves_iff s op p).mp h
  have hne : ¬ ((s.ctxOf op p).op = 0x91 ∧ (accessBad (s.ctxOf op p) p (bodyOf p)).isNone = true) := fun hc => hop hc.1
  have hput := (bookkept_run (foot_putSeg (s.ctxOf op p) g) (putSeg_bare ..) t).bare
  rw [serve_executed hwf ht (executeTop_does hne (execute_handled hacc hseg hchk hh)) ((bare_go hput).trans hgo)
      fun hc => hreset hc.1,
    logViolation_unlogged hlog, sendAnswer_eq]
  have hd : (beforeReply (s.ctxOf op p) op p a g).Does t () _ :=
    ((foot_putSeg _ g).does t).bind <| ((foot_keepReply op p _).does _).bind <| foot_showBusy.does _
  rw [hd.run]

/-- The effect of a request is no more than bookkeeping. -/
theorem serve_bookkept {op : Nat} {p : Packet} {svcLow : Option Bool} {s t : State} {a : Ans} {g : Option Seg}
    (h : s.serves op p = true) (hop : op ≠ 0x91)
    (hh : (handle (s.ctxOf op p) p (bodyOf p) ((s.begun op p).segOf (s.ctxOf op p)) svcLow).Does (s.serving op p) (a, g) t)
    (ht : Bookkept s t) (hlog : a.Unlogged) (hreset : op ≠ 0xF0) :
    ∃ u, Bookkept s u ∧
      (serve op p svcLow).run s = (sendReply p (s.replyKey p) (replyPkt op p a)).run u :=
  ⟨_, ht.trans (beforeReply_bookkept ..), serve_handled h hop hh ((bare_go ht.bare).trans (serves_go h)) hlog hreset⟩

/-- A reply sent after an effect that keeps the outbound queue is the next packet there. -/
theorem answered_of_sent {op : Nat} {p : Packet} {a : Ans} {s u : State} (hp : s.present 10 = true)
    (hpres : u.present 10 = s.present 10) (hspi : u.que.spi = s.que.spi) :
    Answered op p a s ((sendReply p (s.replyKey p) (replyPkt op p a)).run u) := fun hsrc hno hlen => by
  rw [sendReply_spi _ hsrc hno (replyPkt_length hlen) rfl rfl (hpres.trans hp), hspi, replyOf_eq]

/-- After mere bookkeeping the reply is the next packet, and all else but what sending moves is as it was. -/
theorem answered_of_bookkept {op : Nat} {p : Packet} {a : Ans} {s u : State} (hp : s.present 10 = true)
    (hu : Bookkept s u) :
    Answered op p a s ((sendReply p (s.replyKey p) (replyPkt op p a)).run u) ∧
      Keeps [] eventPages s ((sendReply p (s.replyKey p) (replyPkt op p a)).run u) :=
  ⟨answered_of_sent hp (present_of_bare hu.bare 10) (hu.same.spi (by decide) (by decide)),
    (hu.sent.trans (sendReply_sent ..)).keeps⟩

/-! ## Replies longer than one packet (R56) -/

/-- The pieces of a list, `n` elements each, put together again. -/
theorem flatMap_pieces {α : Type} (l : List α) (n k : Nat) :
    ((List.range k).flatMap fun i => (l.drop (n * i)).take n) = l.take (n * k) := by
  induction k with
  | zero => simp
  | succ k ih =>
    rw [List.range_succ, List.flatMap_append, ih, List.flatMap_singleton, Nat.mul_succ, List.take_add]

/-- Packets sent to the SPI port follow one another in the outbound queue. -/
theorem forM_sendTo_spi (f : Nat → OutPkt) (l : List Nat) (s : State) (hp : s.present 10 = true) :
    ((l.forM fun i => do let _ ← sendTo .spi (f i)).run s).que.spi =
      s.que.spi ++ l.map fun i => { f i with flags := clrBit (f i).flags 1 } := by
  induction l generalizing s with
  | nil => exact (List.append_nil _).symm
  | cons i l ih =>
    have hone : (do let _ ← sendTo .spi (f i) : M Unit).Does s () _ := (sendTo_spi (f i) hp).bind (M.does_pure () _)
    have hrest : (l.forM fun i => do let _ ← sendTo .spi (f i)).In [1, 20, 33, 43, 47] :=
      .forM (fun i => (foot_sendTo .spi (f i)).bind fun _ => .pure _) l
    have hd : ((i :: l).forM fun i => do let _ ← sendTo .spi (f i)).Does s () _ := hone.bind (hrest.does _)
    have hattn := foot_setAttn.run ((Act.spiReply (f i)).apply s)
    have hpres : (setAttn.run ((Act.spiReply (f i)).apply s)).present 10 = true :=
      (present_of_bare (setAttn_link.bare.run _) 10).trans hp
    rw [hd.run, ih _ hpres, hattn.spi (by decide) (by decide)]
    simp only [Act.apply, List.append_assoc, List.map_cons, List.singleton_append]

/-- The packets of an unsigned reply to the SPI port carry its payload, piece by piece. -/
theorem sendReply_pieces {s : State} {p : Packet} (r : OutPkt) (hsrc : p.src = .spi) (hno : bit p.flags.toNat 2 = false)
    (hp : s.present 10 = true) :
    (((sendReply p none r).run s).que.spi.drop s.que.spi.length).flatMap (fun q => q.payload) = r.payload := by
  have hd : (sendReply p none r).Does s () _ := .ite_neg (by simp [hno]) <|
    (M.In.forM (P := [1, 20, 33, 43, 47]) (fun _ => (foot_sendTo _ _).bind fun _ => .pure _) _).does s
  rw [hd.run, hsrc, forM_sendTo_spi _ _ s hp, List.drop_left, List.flatMap_map, flatMap_pieces, List.take_of_length_le]
  have hk := Nat.div_add_mod (r.payload.length + 4096 - 1) 4096
  have hm := Nat.mod_lt (r.payload.length + 4096 - 1) (show 0 < 4096 by decide)
  simp only [maxPayload, Option.isSome_none, Bool.false_eq_true, if_false, Nat.sub_zero]
  have hmax := Nat.mul_le_mul_left 4096 (le_max_right 1 ((r.payload.length + 4096 - 1) / 4096))
  omega

end Sys2Proof.Machine
end

section
/-! Statement O10: READ of parameters that any session reads (R51). -/

namespace Sys2Proof.Machine

/-! ## Reading a range -/

/-- A computation over a list each step of which answers from the state and leaves it. -/
theorem M.Does.mapM {α β : Type} {f : α → M β} {g : α → β} {s : State} :
    ∀ l : List α, (∀ x ∈ l, (f x).Does s (g x) s) → (l.mapM f).Does s (l.map g) s
  | [], _ => by
    rw [List.mapM_nil]
    exact M.does_pure _ s
  | x :: l, h => by
    rw [List.mapM_cons]
    exact (h x (List.mem_cons_self ..)).bind <|
      (M.Does.mapM l fun y hy => h y (List.mem_cons_of_mem _ hy)).bind <| M.does_pure _ s

/-- The word a READ answers for a parameter. -/
def State.wordRead (s : State) (a : Nat) : Word := ((regAt a).map fun r => s.hostRead r a).getD 0

/-- What it means that any session reads a parameter. -/
theorem readable_iff (s : State) (a : Nat) : s.readable a = true ↔ ∃ r, regAt a = some r ∧ r.name ≠ .CMD_TUNNEL_CTL ∧
    r.name ≠ .CMD_TUNNEL_TX ∧ r.name ≠ .CMD_TUNNEL_RX ∧ r.readProtected a = false ∧ a ≠ BUS.TIME_LO ∧
    s.addrAbsent a = false := by
  unfold State.readable
  cases regAt a with
  | none => simp
  | some r => simp [and_assoc]

theorem addrAbsent_of_bare {s t : State} (h : t.bare = s.bare) (a : Nat) : t.addrAbsent a = s.addrAbsent a := by
  simp only [State.addrAbsent, present_of_bare h]

theorem readable_of_bare {s t : State} (h : t.bare = s.bare) (a : Nat) : t.readable a = s.readable a := by
  simp only [State.readable, addrAbsent_of_bare h]

theorem readBytes_of_readable {s : State} {a : Nat} (h : s.readable a = true) :
    leBytes 4 (s.wordRead a).toNat = s.readBytes a := by
  obtain ⟨r, hr, -⟩ := (readable_iff s a).mp h
  simp only [State.wordRead, State.readBytes, hr, Option.map_some, Option.getD_some]

theorem readEffect_none {a : Nat} (h : a ≠ BUS.TIME_LO) (s : State) : (readEffect a).Does s () s :=
  .read <| .ite_neg h <| M.does_pure () s

/-- A range that any session reads is read. -/
theorem readWords_readable (c : Ctx) {as : List Nat} {s : State} (h : as.all s.readable = true) :
    (readWords c as).Does s ({}, as.map s.wordRead) s := by
  have hr := fun a ha => (readable_iff s a).mp (List.all_eq_true.mp h a ha)
  have hclosed : as.any s.tunnelClosed = false := List.any_eq_false.mpr fun a ha => by
    obtain ⟨r, hr, h1, h2, h3, -⟩ := hr a ha
    simp [State.tunnelClosed, hr, h1, h2, h3]
  have hthere : as.find? s.addrAbsent = none := List.find?_eq_none.mpr fun a ha => by
    obtain ⟨r, -, -, -, -, -, -, habs⟩ := hr a ha
    simp [habs]
  refine .read <| .ite_neg (by simp [hclosed]) ?_
  simp only [hthere]
  split
  · next x hx =>
    obtain ⟨a, ha, hbad⟩ := List.exists_of_findSome?_eq_some hx
    obtain ⟨r, hr, -, -, -, hprot, -⟩ := hr a ha
    simp [hr, hprot] at hbad
  · refine .bind (M.Does.mapM as fun a ha => ?_) (M.does_pure _ s)
    obtain ⟨r, hr, -, -, -, -, htime, -⟩ := hr a ha
    refine (readEffect_none htime s).bind <| .read ?_
    simp only [hr, State.wordRead, Option.map_some, Option.getD_some]
    exact M.does_pure _ s

/-! ## READ -/

theorem handle_read {c : Ctx} {p : Packet} {body : List Byte} {s t : State} {a : Ans} (hop : c.op = 0x10)
    (h : (opRead c p.page.toNat body).Does s a t) (g : Option Seg) (svcLow : Option Bool) :
    (handle c p body g svcLow).Does s (a, none) t := by
  refine .read ?_
  simp only [hop]
  exact h.bind (M.does_pure _ t)

/-- A COUNT of 0 or above 1,024. -/
theorem opRead_countBad (c : Ctx) (page : Nat) {body : List Byte} (h : leAt body 2 2 = 0 ∨ 1024 < leAt body 2 2)
    (s : State) : (opRead c page body).Does s (refuse 0x010F 2) s := .ite_pos h (M.does_pure _ s)

theorem rangeBad_none {page off n : Nat} (ho : off % 4 = 0) (hn : off + 4 * n ≤ 65536) : rangeBad page off n = none := by
  simp only [rangeBad, ho, ne_eq, not_true_eq_false, if_false]
  exact if_neg (by omega)

/-- A READ of parameters that any session reads. -/
theorem opRead_readable (c : Ctx) {page off n : Nat} {body : List Byte} {s : State} (hoff : leAt body 0 2 = off)
    (hcount : leAt body 2 2 = n) (ho : off % 4 = 0) (hend : off + 4 * n ≤ 65536) (hn : 1 ≤ n) (hmax : n ≤ 1024)
    (h : (addrs page off n).all s.readable = true) :
    (opRead c page body).Does s (okWith ((addrs page off n).flatMap s.readBytes)) s := by
  have hbytes : ((addrs page off n).map s.wordRead).flatMap (fun w => leBytes 4 w.toNat) =
      (addrs page off n).flatMap s.readBytes := by
    rw [List.flatMap_map]
    exact List.flatMap_congr fun a ha => readBytes_of_readable (List.all_eq_true.mp h a ha)
  unfold opRead
  simp only [hoff, hcount, rangeBad_none ho hend]
  refine .ite_neg (by omega) <| .bind (readWords_readable c h) ?_
  simp only [if_true, hbytes]
  exact M.does_pure _ s

theorem leAt_offset {off n : Nat} {l : List Byte} (h : off < 65536) : leAt (leBytes 2 off ++ leBytes 2 n ++ l) 0 2 = off :=
  ofLe_leBytes 2 off (by omega)

theorem leAt_count {off n : Nat} {l : List Byte} (h : n < 65536) : leAt (leBytes 2 off ++ leBytes 2 n ++ l) 2 2 = n :=
  ofLe_leBytes 2 n (by omega)

/-- What passes the checks of R44 and reads parameters that any session reads is answered with their words, as they
are when its effect begins. -/
theorem read_served {s : State} {p : Packet} {off n : Nat} (svcLow : Option Bool) (h : s.serves 0x10 p = true)
    (hbody : bodyOf p = leBytes 2 off ++ leBytes 2 n) (ho : off % 4 = 0) (hend : off + 4 * n ≤ 65536) (hn : 1 ≤ n)
    (hmax : n ≤ 1024) (hread : (addrs p.page.toNat off n).all s.readable = true) :
    ∃ u, Bookkept s u ∧ (serve 0x10 p svcLow).run s = (sendReply p (s.replyKey p)
      (replyPkt 0x10 p (okWith ((addrs p.page.toNat off n).flatMap (s.serving 0x10 p).readBytes)))).run u := by
  have hbook := serving_bookkept s 0x10 p
  have hoff : leAt (bodyOf p) 0 2 = off := hbody ▸ leAt_offset (l := []) (by omega)
  have hcount : leAt (bodyOf p) 2 2 = n := hbody ▸ leAt_count (l := []) (by omega)
  have hall : (addrs p.page.toNat off n).all (s.serving 0x10 p).readable = true :=
    List.all_eq_true.mpr fun a ha => (readable_of_bare hbook.bare a).trans (List.all_eq_true.mp hread a ha)
  exact serve_bookkept h (by decide) (handle_read rfl (opRead_readable _ hoff hcount ho hend hn hmax hall) _ svcLow)
    hbook (unlogged_okWith _) (by decide)

/-- Settles O10: the count is checked first; a range that any session reads is read in the state its effect begins in. -/
theorem readCounts : Obligations.Read_counts := by
  unfold Obligations.Read_counts
  refine ⟨fun s p off n h hbody hn => ?_, fun s p off n h hbody hn => ?_⟩
  · obtain ⟨hbody, hlt⟩ := hbody
    have hcount : leAt (bodyOf p) 2 2 = n := hbody ▸ leAt_count (l := []) hlt
    obtain ⟨u, hu, hrun⟩ := serve_bookkept (svcLow := none) h (by decide)
      (handle_read rfl (opRead_countBad _ _ (hcount ▸ hn) _) _ none) (serving_bookkept s 0x10 p)
      (fun hc => absurd hc.2 (by decide)) (by decide)
    refine .of_checked rfl ((serves_iff s 0x10 p).mp h).1 ?_
    rw [hrun]
    exact answered_of_bookkept (serves_present h) hu
  · obtain ⟨hbody, ho, hend⟩ := hbody
    obtain ⟨hpos, hmax, hread⟩ := hn
    obtain ⟨u, hu, hrun⟩ := read_served none h hbody ho hend hpos hmax hread
    refine .of_checked rfl ((serves_iff s 0x10 p).mp h).1 ?_
    rw [hrun]
    refine ⟨fun hsrc hno hauth => ?_, (answered_of_bookkept (serves_present h) hu).2⟩
    have hkey : s.replyKey p = none := by simp [State.replyKey, hauth]
    have hspi : u.que.spi = s.que.spi := hu.same.spi (by decide) (by decide)
    rw [hkey, ← hspi, sendReply_pieces _ hsrc hno ((present_of_bare hu.bare 10).trans (serves_present h))]
    rfl

end Sys2Proof.Machine
end

section
/-! Statement O13: a block that does not listen, and the ship responder (R49, R364). -/

namespace Sys2Proof.Machine

/-! ## A block that does not listen -/

/-- A request on a transport the block does not listen to. -/
theorem serve_deaf {op : Nat} {p : Packet} (svcLow : Option Bool) {s : State} (h : s.listens p.src = false) :
    (serve op p svcLow).run s = s := M.Does.run <| .read <| .ite_neg (by simp [h]) <| M.does_pure () s

/-! ## The ship responder (R364) -/

theorem receive_ship {op : Nat} {p : Packet} {svcLow : Option Bool} {s t : State} (h : earlyBad op p = none)
    (hd : s.dev = 6) (hp : (shipRespond op p).Does s () t) : (receive op p svcLow).Does s () t := by
  refine .read ?_
  simp only [h]
  exact .ite_pos hd hp

/-- What the responder answers to a request of session 0. -/
def State.shipAnswer (s : State) (op : Nat) (p : Packet) : Ans :=
  if op = 0x00 then {} else if op = 0x01 then okWith s.identify else if op = 0x02 then okWith s.getStatus
  else if op = 0xF0 ∧ p.scope = 4 then {} else refuse 0x0107 SYS.STATUS

theorem unlogged_shipAnswer (s : State) (op : Nat) (p : Packet) : (s.shipAnswer op p).Unlogged := by
  unfold State.shipAnswer
  refine iteInduction (fun _ => unlogged_okWith []) fun _ => iteInduction (fun _ => unlogged_okWith _) fun _ =>
    iteInduction (fun _ => unlogged_okWith _) fun _ => iteInduction (fun _ => unlogged_okWith []) fun _ hc => ?_
  exact absurd hc.2 (by decide)

/-- How the responder ends: RESET of the device makes BSW come on, and every request gets its reply, unsigned. -/
def shipEnd (op : Nat) (p : Packet) (a : Ans) : M Unit := do
  if op = 0xF0 ∧ a.status = stOk then
    setBsw true
    hid fun h => { h with lcy := { h.lcy with resetSoon := true } }
  sendReply p none (replyPkt op p a)

theorem shipRespond_does {op : Nat} {p : Packet} {s t : State} (hk : op ∈ knownOps) (h0 : p.session = 0)
    (h : (shipEnd op p (s.shipAnswer op p)).Does s () t) : (shipRespond op p).Does s () t := by
  have hlog := (foot_logViolation ⟨op, 0, p.session.toNat, srcCode p.src, srcId p.src⟩ (s.shipAnswer op p)).does s
  rw [logViolation_unlogged (unlogged_shipAnswer s op p)] at hlog
  have hans : (if (!knownOps.contains op) = true then refuse 0x0105 0x80000006
      else if p.session ≠ 0 then refuse 0x0114 0x8000000A
      else if op = 0x00 then {} else if op = 0x01 then okWith s.identify else if op = 0x02 then okWith s.getStatus
      else if op = 0xF0 ∧ p.scope = 4 then {} else refuse 0x0107 SYS.STATUS) = s.shipAnswer op p := by
    simp [hk, h0, State.shipAnswer]
  refine .read ?_
  rw [hans]
  exact hlog.bind h

/-- A request other than RESET is only answered. -/
theorem shipRespond_answers {op : Nat} {p : Packet} {s : State} (hk : op ∈ knownOps) (h0 : p.session = 0)
    (hop : op ≠ 0xF0) :
    (shipRespond op p).Does s () ((sendReply p none (replyPkt op p (s.shipAnswer op p))).run s) :=
  shipRespond_does hk h0 <| .ite_neg (fun hc => hop hc.1) <| (foot_sendReply _ _ _).does s

/-- RESET of the device: the reset begins with the next tick. -/
theorem shipRespond_reset {p : Packet} {s : State} (h0 : p.session = 0) (h4 : p.scope = 4) :
    ∃ t, (shipRespond 0xF0 p).Does s () t ∧ t.hid.lcy.resetSoon = true ∧ t.hid.cmd.go = s.hid.cmd.go := by
  have hans : s.shipAnswer 0xF0 p = {} := by simp [State.shipAnswer, h4]
  have hbsw := ((foot_setBsw true).run s).cmd (by decide) (by decide)
  have hends : (shipEnd 0xF0 p {}).Ends s fun _ t => t.hid.lcy.resetSoon = true ∧ t.hid.cmd.go = s.hid.cmd.go := by
    unfold shipEnd
    dsimp only
    refine .ite_pos ⟨rfl, rfl⟩ <| .bind ((foot_setBsw true).does s) <| .bind (M.does_hid _ _) <|
      .ofDoes ((foot_sendReply p none _).does _) ⟨?_, ?_⟩
    · exact congrArg LcySt.resetSoon (((foot_sendReply p none _).run _).hid (by decide) 61 (by decide))
    · rw [bare_go ((sendReply_link ..).bare.run _)]
      exact congrArg CmdSt.go hbsw
  obtain ⟨_, t, hd, ht⟩ := hends
  exact ⟨t, shipRespond_does (by decide) h0 (hans ▸ hd), ht⟩

theorem replyOf_unsigned {p : Packet} (h : authSet p = false) (s : State) (op : Nat) (a : Ans) :
    s.replyOf op p a = replyPkt op p a := by
  have hkey : s.replyKey p = none := by simp [State.replyKey, h]
  rw [replyOf_eq, hkey]
  rfl

/-- Settles O13: what is not listened to is not received; in SHIP the responder takes what passes the check of its header. -/
theorem deafAndShipStates : Obligations.Deaf_and_ship_states := by
  unfold Obligations.Deaf_and_ship_states
  refine ⟨fun s op p low i hi hwf hdeaf => ?_, fun s op p low i hi hwf hd hgo hlis hlen he h0 hop => ?_,
    fun s p hwf hd hgo hlis hlen he h0 h4 => ?_⟩
  · obtain ⟨svcLow, hx⟩ := exec_of_requestOf hi
    rw [hx, hwf, checked_next, serve_deaf svcLow hdeaf]
  · refine .of_request hi hwf fun svcLow => ?_
    have hk := mem_knownOps_of_requestOf hi
    have hsent := sendReply_sent p none (replyPkt op p (s.shipAnswer op p)) s
    rw [serve_run hlis hlen (receive_ship he hd (shipRespond_answers hk h0 hop)) ((bare_go hsent.bare).trans hgo)]
    refine ⟨hsent.keeps, fun hauth hsrc hno hdata => ?_⟩
    have hans : s.shipAnswer op p = if op = 0x00 then {} else if op = 0x01 then okWith s.identify
        else if op = 0x02 then okWith s.getStatus else refuse 0x0107 SYS.STATUS := by
      simp only [State.shipAnswer, hop, false_and, if_false]
    rw [hans, replyOf_unsigned hauth]
    exact sendReply_spi none hsrc hno (replyPkt_length hdata) rfl rfl (present_of_listens hlis)
  · obtain ⟨t, hdo, hsoon, hkept⟩ := shipRespond_reset (s := s) h0 h4
    refine .of_checked rfl hwf ?_
    rw [serve_run hlis hlen (receive_ship he hd hdo) (hkept.trans hgo)]
    exact hsoon

end Sys2Proof.Machine
end

section
/-! SUPPORT. What sending never reaches: the operations that send events, replies and entries of the violation log change the
outbound queue, the link's counters and queues, the networks' state and a few parameters of their own; whatever does not
depend on these they leave. -/

namespace Sys2Proof.Machine

/-- The parameters that sending changes: the count of lost events, those of the tunnel (R71), the states of the CAN
transmit queues (R448) and the count of the violation log (R53). -/
def SendReg (a : Nat) : Prop :=
  a = CMD.EVENT_CFG ∨ a = CMD.TUNNEL_CTL ∨ a = CMD.VIOLATION ∨ (∃ i, a = CMD.TUNNEL_RX i) ∨ ∃ n, a = BUS.TX_STAT n

/-- A change of the state that is no parameter as sending makes it. -/
def SendHid (f : Hidden → Hidden) : Prop :=
  ∀ x, ∃ q l a t w b, f x = { x with
    cmd := { x.cmd with evtSeq := q, evtLost := l, attn := a, tunnelWait := t, linkWait := w }, bus := b }

/-- A view of the state that sending does not reach. -/
structure Unsent {β : Type} (π : State → β) : Prop where
  reg : ∀ a w, SendReg a → ∀ s, π ((Act.reg a w).apply s) = π s
  hid : ∀ f, SendHid f → ∀ s, π ((Act.hid f).apply s) = π s
  que : ∀ s spi vio, π { s with que := { s.que with spi := spi, vio := vio } } = π s

section
variable {β : Type} {π : State → β}

theorem Unsent.wr (h : Unsent π) {a : Nat} (w : Word) (ha : SendReg a) : (Machine.wr a w).Fixes π := .act (h.reg a w ha)

theorem Unsent.wf (h : Unsent π) {x : FldAt} (v : Nat) (ha : SendReg x.addr) : (Machine.wf x v).Fixes π :=
  .read fun _ => h.wr _ ha

theorem Unsent.inc (h : Unsent π) {x : FldAt} (ha : SendReg x.addr) : (Machine.inc x).Fixes π :=
  .read fun _ => .when (h.wf _ ha)

theorem Unsent.hidden (h : Unsent π) {f : Hidden → Hidden} (hf : SendHid f) : (Machine.hid f).Fixes π := .act (h.hid f hf)

theorem sendReg_eventCfg : SendReg CMD.EVENT_CFG := .inl rfl

theorem sendReg_tunnelCtl : SendReg CMD.TUNNEL_CTL := .inr (.inl rfl)

theorem sendReg_violation : SendReg CMD.VIOLATION := .inr (.inr (.inl rfl))

theorem sendReg_tunnelRx (i : Nat) : SendReg (CMD.TUNNEL_RX i) := .inr (.inr (.inr (.inl ⟨i, rfl⟩)))

theorem sendReg_txStat (n : Nat) : SendReg (BUS.TX_STAT n) := .inr (.inr (.inr (.inr ⟨n, rfl⟩)))

/-! ## Events -/

theorem Unsent.setAttn (h : Unsent π) : Machine.setAttn.Fixes π := .read fun _ => h.hidden fun _ => ⟨_, _, _, _, _, _, rfl⟩

theorem Unsent.eventLost (h : Unsent π) (route : Nat) : (Machine.eventLost route).Fixes π :=
  .bind (h.inc sendReg_eventCfg) fun _ => h.hidden fun _ => ⟨_, _, _, _, _, _, rfl⟩

theorem Unsent.eventPacket (_ : Unsent π) (route op page inst scope : Nat) (body : List Byte) :
    (Machine.eventPacket route op page inst scope body).Fixes π := .read fun _ => .pure _

theorem Unsent.eventDelivered (h : Unsent π) (route : Nat) : (Machine.eventDelivered route).Fixes π :=
  h.hidden fun _ => ⟨_, _, _, _, _, _, rfl⟩

theorem Unsent.spiReply (h : Unsent π) (p : OutPkt) : (act (.spiReply p)).Fixes π := .act fun s => h.que s _ s.que.vio

theorem Unsent.spiEvent (h : Unsent π) (p : OutPkt) : (act (.spiEvent p)).Fixes π := .act fun s => by
  simp only [Act.apply]
  split
  · exact h.que s _ s.que.vio
  · rfl

theorem Unsent.eventSpi (h : Unsent π) (op page inst scope : Nat) (body : List Byte) :
    (Machine.eventSpi op page inst scope body).Fixes π :=
  .read fun _ => .ite
    (.bind (h.eventPacket ..) fun _ => .bind (h.spiEvent _) fun _ => .bind (h.eventDelivered 0) fun _ => h.setAttn)
    (h.eventLost 0)

theorem Unsent.ethSend (h : Unsent π) (o : EthOut) : (Machine.ethSend o).Fixes π :=
  h.hidden fun _ => ⟨_, _, _, _, _, _, rfl⟩

theorem Unsent.canEnqueue (h : Unsent π) (n : Nat) (t : TxFrame) : (Machine.canEnqueue n t).Fixes π := by
  have hset : ∀ l : List TxFrame, (do
      Machine.hid fun h => { h with bus := { h.bus with can := mupd {} h.bus.can n fun c => { c with tx := l } } }
      Machine.wf (BUS.TX_STAT.QUEUED n) l.length : M Unit).Fixes π := fun l =>
    .bind (h.hidden fun _ => ⟨_, _, _, _, _, _, rfl⟩) fun _ => h.wf _ (sendReg_txStat n)
  have hinc : ∀ x : FldAt, x.addr = BUS.TX_STAT n → (Machine.inc x).Fixes π := fun x hx => h.inc (hx ▸ sendReg_txStat n)
  refine .read fun s => .ite (.bind (hset _) fun _ => .pure _) ?_
  split
  · exact .pure _
  · exact .ite (.bind (hset _) fun _ => .bind (hinc _ rfl) fun _ => .pure _) (.bind (hinc _ rfl) fun _ => .pure _)

theorem Unsent.canxlSend (h : Unsent π) (p : OutPkt) : (Machine.canxlSend p).Fixes π := by
  refine .read fun s => .bind (h.canEnqueue _ _) fun lost => ?_
  cases lost with
  | none => exact .pure _
  | some u => exact .ite (.bind (h.inc sendReg_eventCfg) fun _ => .pure _) (.pure _)

theorem Unsent.eventCanxl (h : Unsent π) (op page inst scope : Nat) (body : List Byte) :
    (Machine.eventCanxl op page inst scope body).Fixes π :=
  .read fun _ => .ite (.bind (h.eventPacket ..) fun p => .bind (h.canxlSend p) fun _ =>
    .ite (h.eventDelivered 1) (h.hidden fun _ => ⟨_, _, _, _, _, _, rfl⟩)) (h.eventLost 1)

theorem Unsent.eventUdp (h : Unsent π) (op page inst scope : Nat) (body : List Byte) :
    (Machine.eventUdp op page inst scope body).Fixes π := by
  refine .read fun s => ?_
  dsimp only
  split
  · exact .ite (.bind (h.eventPacket ..) fun _ => .bind (h.ethSend _) fun _ => h.eventDelivered 2) (h.eventLost 2)
  · exact h.eventLost 2

theorem Unsent.event (h : Unsent π) (op page inst scope : Nat) (body : List Byte) :
    (Machine.event op page inst scope body).Fixes π :=
  .read fun _ => .when (.thenMore (h.eventSpi ..) fun _ => .thenMore (h.eventCanxl ..) fun _ => .when (h.eventUdp ..))

theorem Unsent.violation (h : Unsent π) (e : VioEntry) : (Machine.violation e).Fixes π :=
  .read fun _ => .thenMore (h.inc sendReg_violation) fun _ => .bind (.act fun s => h.que s s.que.spi _) fun _ =>
    .bind (h.wf _ sendReg_violation) fun _ => h.event ..

theorem Unsent.logViolation (h : Unsent π) (c : Ctx) (a : Ans) : (Machine.logViolation c a).Fixes π :=
  .when (.read fun _ => h.violation _)

/-! ## Replies -/

theorem Unsent.placeTunnel (h : Unsent π) (p : OutPkt) : (Machine.placeTunnel p).Fixes π := by
  have hctl : ∀ x : FldAt, x.addr = CMD.TUNNEL_CTL → ∀ v, (Machine.wf x v).Fixes π := fun x hx v =>
    h.wf v (hx ▸ sendReg_tunnelCtl)
  have hrx : ∀ x : Word × Nat, (Machine.wr (CMD.TUNNEL_RX x.2) x.1).Fixes π := fun x => h.wr x.1 (sendReg_tunnelRx x.2)
  refine .bind (.forM hrx _) fun _ => ?_
  refine .bind (hctl CMD.TUNNEL_CTL.RX_LEN rfl _) fun _ => .bind (hctl CMD.TUNNEL_CTL.RX_VALID rfl _) fun _ => ?_
  exact .thenMore (hctl CMD.TUNNEL_CTL.BUSY rfl _) fun _ => h.setAttn

theorem Unsent.handTo (h : Unsent π) (src : Source) (p : OutPkt) : (Machine.handTo src p).Fixes π := by
  cases src with
  | spi => exact .bind (h.spiReply p) fun _ => .bind h.setAttn fun _ => .pure _
  | tunnel =>
    exact .read fun s => .ite (.bind (h.hidden fun _ => ⟨_, _, _, _, _, _, rfl⟩) fun _ => .pure _)
      (.bind (h.placeTunnel p) fun _ => .pure _)
  | canxl => exact h.canxlSend p
  | udp =>
    refine .read fun s => ?_
    dsimp only
    split <;> exact .bind (h.ethSend _) fun _ => .pure _
  | sequence => exact .pure _

theorem Unsent.sendTo (h : Unsent π) (src : Source) (p : OutPkt) : (Machine.sendTo src p).Fixes π :=
  .read fun _ => .ite (h.handTo src p) (.bind (h.hidden fun _ => ⟨_, _, _, _, _, _, rfl⟩) fun _ => .pure _)

/-- Whatever a reply is and wherever it goes. -/
theorem Unsent.sendReply (h : Unsent π) (p : Packet) (key : Option (List Byte)) (r : OutPkt) :
    (Machine.sendReply p key r).Fixes π :=
  .ite (.when (h.wf _ sendReg_tunnelCtl)) (.forM (fun _ => .bind (h.sendTo _ _) fun _ => .pure _) _)

end

/-! ## Such views -/

/-- A parameter that is none of those. -/
theorem unsent_rd {a : Nat} (ha : ¬ SendReg a) : Unsent fun s => s.rd a where
  reg _ w hb s := rd_apply_reg_other _ _ w s fun hab => ha (hab ▸ hb)
  hid _ _ _ := rfl
  que _ _ _ := rfl

/-- A part of the host link's own state that is none of what sending moves. -/
theorem unsent_cmd {β : Type} (φ : CmdSt → β)
    (h : ∀ x q l a t w, φ { x with evtSeq := q, evtLost := l, attn := a, tunnelWait := t, linkWait := w } = φ x) :
    Unsent fun s => φ s.hid.cmd where
  reg _ _ _ s := by rw [apply_reg_hid]
  hid f hf s := by
    obtain ⟨q, l, a, t, w, b, hx⟩ := hf s.hid
    simp only [apply_hid_hid, hx, h]
  que _ _ _ := rfl

theorem tunnelRx_ne_status (i : Nat) : CMD.TUNNEL_RX i ≠ CMD.STATUS := by
  unfold CMD.TUNNEL_RX arr CMD.STATUS
  split <;> omega

/-- CMD.STATUS is none of the parameters that sending changes. -/
theorem status_not_sendReg : ¬ SendReg CMD.STATUS := by
  rintro (h | h | h | ⟨i, h⟩ | ⟨n, h⟩)
  · exact absurd h (by decide)
  · exact absurd h (by decide)
  · exact absurd h (by decide)
  · exact tunnelRx_ne_status i h.symm
  · have hpage := BUS.TX_STAT_page n
    rw [← h] at hpage
    exact absurd hpage (by decide)

end Sys2Proof.Machine
end

section
/-! SUPPORT. The sessions through a request: what its bookkeeping and its reply leave of them, and what CMD.STATUS shows. -/

namespace Sys2Proof.Machine

/-! ## Views of the sessions -/

/-- What a view of a session sees of each of them. -/
def State.faces {β : Type} (π : Session → β) (s : State) : List β := s.hid.cmd.sessions.map π

/-- A view that no transfer and no kept reply changes. -/
structure Session.Steady {β : Type} (π : Session → β) : Prop where
  seg : ∀ x g, π { x with seg := g } = π x
  lost : ∀ x, π { x with segLost := none } = π x
  kept : ∀ x k, π { x with kept := k } = π x

section
variable {β γ : Type} {π : Session → β}

theorem updSession_faces (id : Nat) {f : Session → Session} (h : ∀ x, π (f x) = π x) :
    (updSession id f).Fixes (State.faces π) :=
  .ofEnds fun s => .ofDoes ((foot_updSession id f).does s) <| by
    simp only [State.faces, updSession_sessions, List.map_map]
    refine List.map_congr_left fun x _ => ?_
    by_cases hx : x.id = id <;> simp [hx, h]

theorem wf_faces (x : FldAt) (v : Nat) : (Machine.wf x v).Fixes (State.faces π) :=
  .read fun _ => .act fun s => by rw [State.faces, apply_reg_hid]; rfl

theorem Session.Steady.putSeg (h : Session.Steady π) (c : Ctx) (g : Option Seg) :
    (Machine.putSeg c g).Fixes (State.faces π) :=
  .read fun _ => .when (.ite (.act fun _ => rfl) (updSession_faces _ fun x => h.seg x g))

theorem Session.Steady.clearLost (h : Session.Steady π) (c : Ctx) : (Machine.clearLost c).Fixes (State.faces π) := by
  refine .read fun s => ?_
  split
  · exact .when (updSession_faces _ h.lost)
  · exact .pure _

theorem Session.Steady.keepReply (h : Session.Steady π) (op : Nat) (p : Packet) (r : OutPkt) :
    (Machine.keepReply op p r).Fixes (State.faces π) :=
  .when <| updSession_faces _ fun x => by split <;> simp [h.kept]

theorem Session.Steady.beforeReply (h : Session.Steady π) (c : Ctx) (op : Nat) (p : Packet) (a : Ans) (g : Option Seg) :
    (Machine.beforeReply c op p a g).Fixes (State.faces π) :=
  .bind (h.putSeg c g) fun _ => .bind (h.keepReply op p _) fun _ => .read fun _ => wf_faces _ _

theorem sendReply_faces (p : Packet) (key : Option (List Byte)) (r : OutPkt) :
    (sendReply p key r).Fixes (State.faces π) := (sendReply_link p key r).comp fun v => v.sessions.map π

/-- What the effect of a request begins with: a view that does not see the time of the last packet is as it was. -/
theorem begun_faces (hat : ∀ x n, π { x with at_ := n } = π x) (s : State) (op : Nat) (p : Packet) :
    (s.begun op p).faces π = s.faces π := by
  have htouch : (s.touchSession p).Fixes (State.faces π) := .when <| updSession_faces _ fun x => by
    unfold Session.touch
    split <;> simp [hat]
  have hbusy : (startBusy op).Fixes (State.faces π) := .when (wf_faces _ _)
  rw [begun_eq, hbusy.run, htouch.run]

theorem serving_faces (h : Session.Steady π) (hat : ∀ x n, π { x with at_ := n } = π x) (s : State) (op : Nat)
    (p : Packet) : (s.serving op p).faces π = s.faces π := by
  rw [State.serving, (h.clearLost _).run, begun_faces hat]

/-- Two states that show the same of each session, its number included, show the same of the session of a number. -/
theorem session_of_faces {s t : State} (h : t.faces (fun x => (x.id, π x)) = s.faces fun x => (x.id, π x)) (n : Nat) :
    (t.session n).map π = (s.session n).map π := by
  have hfind : ∀ u : State, (u.session n).map π =
      ((u.faces fun x => (x.id, π x)).find? fun y => y.1 == n).map Prod.snd := fun u => by
    simp only [State.session, State.faces, List.find?_map, Option.map_map, Function.comp_def]
  rw [hfind, hfind, h]

theorem faces_comp {s t : State} (h : t.faces π = s.faces π) (f : β → γ) :
    t.faces (fun x => f (π x)) = s.faces fun x => f (π x) := by
  have hmap : ∀ u : State, u.faces (fun x => f (π x)) = (u.faces π).map f := fun u => by
    simp only [State.faces, List.map_map, Function.comp_def]
  rw [hmap, hmap, h]

end

/-! ## The host link's own state beside the sessions -/

section
variable {β : Type} {φ : CmdSt → β}

theorem wf_cmd (x : FldAt) (v : Nat) : (Machine.wf x v).Fixes fun s => φ s.hid.cmd :=
  .read fun _ => .act fun s => by rw [apply_reg_hid]

theorem showSessions_cmd : showSessions.Fixes fun s => φ s.hid.cmd :=
  .read fun _ => .bind (wf_cmd _ _) fun _ => .bind (wf_cmd _ _) fun _ => .bind (wf_cmd _ _) fun _ => wf_cmd _ _

theorem putSessions_cmd (h : ∀ x l, φ { x with sessions := l } = φ x) (l : List Session) :
    (putSessions l).Fixes fun s => φ s.hid.cmd := .bind (.act fun s => h s.hid.cmd l) fun _ => showSessions_cmd

theorem updSession_cmd (h : ∀ x l, φ { x with sessions := l } = φ x) (n : Nat) (f : Session → Session) :
    (updSession n f).Fixes fun s => φ s.hid.cmd := .read fun _ => putSessions_cmd h _

theorem putSeg_cmd (h : ∀ x l, φ { x with sessions := l } = φ x) (hr : ∀ x g, φ { x with runSeg := g } = φ x) (c : Ctx)
    (g : Option Seg) : (putSeg c g).Fixes fun s => φ s.hid.cmd :=
  .read fun _ => .when (.ite (.act fun s => hr s.hid.cmd g) (updSession_cmd h _ _))

theorem clearLost_cmd (h : ∀ x l, φ { x with sessions := l } = φ x) (c : Ctx) :
    (clearLost c).Fixes fun s => φ s.hid.cmd := by
  refine .read fun s => ?_
  split
  · exact .when (updSession_cmd h _ _)
  · exact .pure _

theorem keepReply_cmd (h : ∀ x l, φ { x with sessions := l } = φ x) (op : Nat) (p : Packet) (r : OutPkt) :
    (keepReply op p r).Fixes fun s => φ s.hid.cmd := .when (updSession_cmd h _ _)

theorem beforeReply_cmd (h : ∀ x l, φ { x with sessions := l } = φ x) (hr : ∀ x g, φ { x with runSeg := g } = φ x)
    (c : Ctx) (op : Nat) (p : Packet) (a : Ans) (g : Option Seg) :
    (beforeReply c op p a g).Fixes fun s => φ s.hid.cmd :=
  .bind (putSeg_cmd h hr c g) fun _ => .bind (keepReply_cmd h op p _) fun _ => .read fun _ => wf_cmd _ _

theorem begun_cmd (h : ∀ x l, φ { x with sessions := l } = φ x) (s : State) (op : Nat) (p : Packet) :
    φ (s.begun op p).hid.cmd = φ s.hid.cmd := by
  have htouch : (s.touchSession p).Fixes fun s => φ s.hid.cmd := .when (updSession_cmd h _ _)
  have hbusy : (startBusy op).Fixes fun s => φ s.hid.cmd := .when (wf_cmd _ _)
  rw [begun_eq, hbusy.run, htouch.run]

theorem serving_cmd (h : ∀ x l, φ { x with sessions := l } = φ x) (s : State) (op : Nat) (p : Packet) :
    φ (s.serving op p).hid.cmd = φ s.hid.cmd := by
  rw [State.serving, (clearLost_cmd h _).run, begun_cmd h]

end

/-! ## What CMD.STATUS shows of them -/

/-- CMD.STATUS shows how many sessions are open. -/
def State.showsOpen (s : State) : Prop :=
  s.f CMD.STATUS.SESSIONS_OPEN = (s.hid.cmd.sessions.filter fun y => y.opened).length % 16

theorem showSessions_open (s : State) : (showSessions.run s).f CMD.STATUS.SESSIONS_OPEN =
    (s.hid.cmd.sessions.filter fun y => y.opened).length % 16 := by
  have hrest : ∀ i m l, (do
      wf CMD.STATUS.INTEGRATOR_OPEN i
      wf CMD.STATUS.METROLOGY_OPEN m
      wf CMD.STATUS.SEG_ACTIVE l : M Unit).Fixes fun s => s.f CMD.STATUS.SESSIONS_OPEN := fun i m l =>
    .bind (.wfApart (by decide) _) fun _ => .bind (.wfApart (by decide) _) fun _ => .wfApart (by decide) _
  have hends : showSessions.Ends s fun _ t => t.f CMD.STATUS.SESSIONS_OPEN =
      (s.hid.cmd.sessions.filter fun y => y.opened).length % 16 :=
    .read <| .bind (M.does_wf _ _ s) <| .ofFixes (hrest _ _ _) fun _ t ht => by
      rw [ht, f_wf_same (by decide)]
      rfl
  exact hends.run

theorem putSessions_run (l : List Session) (s : State) : (putSessions l).run s =
    showSessions.run ((Act.hid fun h => { h with cmd := { h.cmd with sessions := l } }).apply s) :=
  M.Does.run <| (M.does_hid (fun h => { h with cmd := { h.cmd with sessions := l } }) s).bind (foot_showSessions.does _)

theorem putSessions_sessions (l : List Session) (s : State) : ((putSessions l).run s).hid.cmd.sessions = l := by
  rw [putSessions_run, (foot_showSessions.run _).cmd (by decide) (by decide)]
  rfl

theorem putSessions_showsOpen (l : List Session) (s : State) : ((putSessions l).run s).showsOpen := by
  rw [State.showsOpen, putSessions_sessions, putSessions_run, showSessions_open]
  rfl

theorem dropSession_run (n : Nat) (s : State) :
    (dropSession n).run s = (putSessions (s.hid.cmd.sessions.filter fun x => x.id != n)).run s :=
  M.Does.run <| .read <| (foot_putSessions _).does s

theorem updSession_showsOpen (n : Nat) (f : Session → Session) (s : State) : ((updSession n f).run s).showsOpen := by
  have hrun : (updSession n f).run s =
      (putSessions (s.hid.cmd.sessions.map fun x => if x.id = n then f x else x)).run s :=
    M.Does.run <| .read <| (foot_putSessions _).does s
  rw [hrun]
  exact putSessions_showsOpen _ s

/-- What leaves that part of CMD.STATUS, and of the sessions which are open, leaves what is shown. -/
theorem showsOpen_of_fixes {m : M Unit} (hf : m.Fixes fun s => s.f CMD.STATUS.SESSIONS_OPEN)
    (hs : m.Fixes (State.faces Session.opened)) {s : State} (h : s.showsOpen) : (m.run s).showsOpen := by
  have hcount : ∀ u : State, (u.hid.cmd.sessions.filter fun y => y.opened).length =
      ((u.faces Session.opened).filter id).length := fun u => by
    simp only [State.faces, List.filter_map, List.length_map, Function.comp_def, id_eq]
  rw [State.showsOpen, hcount] at *
  rw [hf.run, hs.run, h]

theorem beforeReply_showsOpen (c : Ctx) (op : Nat) (p : Packet) (a : Ans) (g : Option Seg) {s : State}
    (h : s.showsOpen) : ((beforeReply c op p a g).run s).showsOpen := by
  have hput : ((putSeg c g).run s).showsOpen := by
    have hd : (putSeg c g).Ends s fun _ t => t.showsOpen := by
      refine .read <| .ite ?_ (.ofDoes (M.does_pure () s) h)
      exact .ite (.ofDoes (M.does_hid _ s) h) (.ofDoes ((foot_updSession _ _).does s) (updSession_showsOpen ..))
    exact hd.run
  have hkeep : ((keepReply op p (replyPkt op p a)).run ((putSeg c g).run s)).showsOpen := by
    have hd : (keepReply op p (replyPkt op p a)).Ends ((putSeg c g).run s) fun _ t => t.showsOpen :=
      .ite (.ofDoes ((foot_updSession _ _).does _) (updSession_showsOpen ..)) (.ofDoes (M.does_pure () _) hput)
    exact hd.run
  have hd : (beforeReply c op p a g).Does s () _ :=
    ((foot_putSeg c g).does s).bind <| ((foot_keepReply op p _).does _).bind <| foot_showBusy.does _
  rw [hd.run]
  exact showsOpen_of_fixes (.read fun _ => .wfApart (by decide) _) (.read fun _ => wf_faces _ _) hkeep

theorem sendReply_showsOpen (p : Packet) (key : Option (List Byte)) (r : OutPkt) {s : State} (h : s.showsOpen) :
    ((sendReply p key r).run s).showsOpen :=
  showsOpen_of_fixes
    ((unsent_rd status_not_sendReg).sendReply p key r |>.comp fun w =>
      bitsOf w CMD.STATUS.SESSIONS_OPEN.hi CMD.STATUS.SESSIONS_OPEN.lo)
    (sendReply_faces p key r) h

/-! ## From the effect of a request to its end -/

/-- A footprint below the logs, and no more than the host link may move. -/
theorem Same.keepsBare {P : List Nat} {s t : State} (h : Same P s t) (hb : t.bare = s.bare)
    (hn : 99 ∉ P ∧ 32 ∉ P ∧ 34 ∉ P ∧ 36 ∉ P) : Keeps [] eventPages s t :=
  ⟨fun _ _ ha => bare_rd hb ha, h.tabs hn.1 hn.2.1, h.vio hn.1 hn.2.2.1, h.chg hn.1 hn.2.2.2, h.pending⟩

/-- A view of the host link's own state that neither the sessions, nor the transfer of a sequence, nor sending changes. -/
structure CmdSt.Steady {β : Type} (φ : CmdSt → β) : Prop where
  sessions : ∀ x l, φ { x with sessions := l } = φ x
  runSeg : ∀ x g, φ { x with runSeg := g } = φ x
  sent : ∀ x q l a t w, φ { x with evtSeq := q, evtLost := l, attn := a, tunnelWait := t, linkWait := w } = φ x

/-- How a request ends whose effect, of sessions and random bytes alone, left the state `t`: it is answered, the sessions
show what they did there, and the frame holds. -/
structure LinkEffect (op : Nat) (p : Packet) (a : Ans) (s t r : State) : Prop where
  faces : ∀ {β : Type} {π : Session → β}, Session.Steady π → r.faces π = t.faces π
  shows : t.showsOpen → r.showsOpen
  answered : Answered op p a s r
  keeps : Keeps [] eventPages s r
  cmd : ∀ {β : Type} {φ : CmdSt → β}, CmdSt.Steady φ → φ r.hid.cmd = φ t.hid.cmd

theorem serve_linkEffect {op : Nat} {p : Packet} {s t r : State} {a : Ans} {g : Option Seg} (h : s.serves op p = true)
    (hop : op ≠ 0x91 ∧ op ≠ 0xF0)
    (hh : (handle (s.ctxOf op p) p (bodyOf p) ((s.begun op p).segOf (s.ctxOf op p)) none).Does (s.serving op p) (a, g) t)
    (hs : Same [1, 42, 43] (s.serving op p) t) (hb : t.bare = (s.serving op p).bare) (hlog : a.Unlogged)
    (hr : r = (serve op p none).run s) : LinkEffect op p a s t r := by
  have hserv := serving_bookkept s op p
  have hbare : t.bare = s.bare := hb.trans hserv.bare
  have hbefore := beforeReply_bookkept (s.ctxOf op p) op p a g t
  rw [serve_handled h hop.1 hh ((bare_go hbare).trans (serves_go h)) hlog hop.2] at hr
  have hsame : Same [1, 42, 43] s ((beforeReply (s.ctxOf op p) op p a g).run t) :=
    ((hserv.same.mono (by decide)).trans hs).trans (hbefore.same.mono (by decide))
  subst hr
  refine ⟨fun hπ => ?_, fun ht => ?_, ?_, ?_, fun hφ => ?_⟩
  · rw [(sendReply_faces _ _ _).run, (hπ.beforeReply ..).run]
  · exact sendReply_showsOpen _ _ _ (beforeReply_showsOpen _ _ _ _ _ ht)
  · exact answered_of_sent (serves_present h) (present_of_bare (hbefore.bare.trans hbare) 10)
      (hsame.spi (by decide) (by decide))
  · exact (hsame.keepsBare (hbefore.bare.trans hbare) (by decide)).trans (sendReply_sent ..).keeps |>.mono (by simp) (by simp)
  · rw [((unsent_cmd _ hφ.sent).sendReply ..).run, (beforeReply_cmd hφ.sessions hφ.runSeg ..).run]

/-! ## Payloads whose first word holds one byte -/

theorem leAt_first {n : Nat} (h : n < 256) (l : List Byte) : leAt (by1 [n, 0, 0, 0] ++ l) 0 1 = n := by
  have hn : (BitVec.ofNat 8 n).toNat = n := by rw [BitVec.toNat_ofNat]; omega
  simp [leAt, by1, ofLe, hn]

theorem reservedBad_first (n : Nat) (l : List Byte) : reservedBad (by1 [n, 0, 0, 0] ++ l) [1, 2, 3] = none := by
  simp [reservedBad, leAt, by1, ofLe]

end Sys2Proof.Machine
end

section
/-! Statement O24: sessions open in two phases and close, and a password is stored (R46, R59, R60, R62). -/

namespace Sys2Proof.Machine

/-! ## SESSION_OPEN, phase 0 -/

/-- What the statement shows of each session. -/
def Session.shown (x : Session) : Nat × Source × Nat × Bool := (x.id, x.src, x.auth, x.opened)

theorem Session.shown_steady : Session.Steady Session.shown := ⟨fun _ _ => rfl, fun _ => rfl, fun _ _ => rfl⟩

theorem freshBytes_bare (n : Nat) : (freshBytes n).Fixes State.bare :=
  .bind (.read fun _ => .pure _) fun _ => .bind (.hidBare fun _ => rfl) fun _ => .pure _

theorem putSessions_bare (l : List Session) : (putSessions l).Fixes State.bare :=
  .bind (.hidBare fun _ => rfl) fun _ => showSessions_bare

/-- A pending session is added to the others. -/
theorem openPhase0_adds (src : Source) (a : Nat) (s : State) : (openPhase0 src a).Ends s fun _ t =>
    t.faces Session.shown = s.faces Session.shown ++ [(s.freeId, src, a, false)] ∧ Same [1, 42, 43] s t ∧
      t.bare = s.bare := by
  refine .read <| .afterIn (M.In.freshBytes 16 (P := [42]) (by decide)) fun nonce u hu hd => ?_
  refine .bind ((foot_putSessions _).does u) <| .ofDoes (M.does_pure _ _) ⟨?_, ?_, ?_⟩
  · simp only [State.faces, putSessions_sessions, List.map_append]
    rfl
  · exact (hu.mono (by decide)).trans (((foot_putSessions _).run u).mono (by decide))
  · exact ((putSessions_bare _).run u).trans (hd.fixes (freshBytes_bare 16))

theorem by1_leAt {a : Nat} (h : a < 256) : leAt (by1 [0, a, 0, 0]) 1 1 = a := by
  have ha : (BitVec.ofNat 8 a).toNat = a := by rw [BitVec.toNat_ofNat]; omega
  simp [leAt, by1, ofLe, ha]

/-- Phase 0 that no lockout and no limit keeps from it. -/
theorem opSessionOpen_phase0 {p : Packet} {a : Nat} {s : State} (h1 : 1 ≤ a) (h3 : a ≤ 3) (hlock : s.hid.cmd.lockEnd = none)
    (hlim : s.sessionLimit a = false) : (opSessionOpen p (by1 [0, a, 0, 0])).Ends s fun ans t => ans.Unlogged ∧
      t.faces Session.shown = s.faces Session.shown ++ [(s.freeId, p.src, a, false)] ∧ Same [1, 42, 43] s t ∧
        t.bare = s.bare := by
  obtain ⟨d, t, hd, ht⟩ := openPhase0_adds p.src a s
  have ha := by1_leAt (show a < 256 by omega)
  refine .read <| .ite_neg (by simp [leAt, by1, ofLe]) <| .ite_neg (by simp [leAt, by1, ofLe]) ?_
  simp only [ha]
  refine .ite_neg (by omega) ?_
  have hres : reservedBad (by1 [0, a, 0, 0]) [2, 3] = none := by simp [reservedBad, leAt, by1, ofLe]
  simp only [hres]
  exact .ite_neg (by simp [hlock]) <| .ite_neg (by simp [hlim]) <| .bind hd <| .ofDoes (M.does_pure _ _)
    ⟨unlogged_okWith d, ht⟩

theorem freeId_of_shown {s t : State} (h : t.faces Session.shown = s.faces Session.shown) : t.freeId = s.freeId := by
  have hfree : ∀ n, (t.session n).isNone = (s.session n).isNone := fun n => by
    have hmap := congrArg Option.isNone (session_of_faces (π := fun _ => ()) (faces_comp h fun y => (y.1, ())) n)
    simpa only [Option.isNone_map] using hmap
  simp only [State.freeId, hfree]

theorem sessionLimit_of_shown {s t : State} (h : t.faces Session.shown = s.faces Session.shown) (a : Nat) :
    t.sessionLimit a = s.sessionLimit a := by
  have hlen := congrArg List.length h
  have hany := congrArg (List.any · fun y => y.2.2.1 == a) h
  simp only [State.faces, List.length_map, List.any_map, Function.comp_def, Session.shown] at hlen hany
  simp only [State.sessionLimit, hlen, hany]

theorem handle_sessionOpen {c : Ctx} {p : Packet} {body : List Byte} {s t : State} {a : Ans} (hop : c.op = 0x70)
    (h : (opSessionOpen p body).Does s a t) (g : Option Seg) (svcLow : Option Bool) :
    (handle c p body g svcLow).Does s (a, none) t := by
  refine .read ?_
  simp only [hop]
  exact h.bind (M.does_pure _ t)

/-! ## SESSION_OPEN, phase 1 -/

/-- What phase 1 looks at in a pending session. -/
def Session.pendingFace (x : Session) : Nat × Source × Nat × List Byte := (x.id, x.src, x.auth, x.nonce)

/-- What phase 1 shows of the session it opens. -/
def Session.openFace (x : Session) : Bool × Nat × Source × List Byte × Nat := (x.opened, x.auth, x.src, x.key, x.at_)

theorem Session.pendingFace_steady : Session.Steady fun x => (x.id, x.pendingFace) :=
  ⟨fun _ _ => rfl, fun _ => rfl, fun _ _ => rfl⟩

theorem Session.openFace_steady : Session.Steady fun x => (x.id, x.openFace) :=
  ⟨fun _ _ => rfl, fun _ => rfl, fun _ _ => rfl⟩

/-- A session as phase 1 opens it, with its key. -/
def Session.opensWith (key : List Byte) (now : Nat) (x : Session) : Session :=
  { x with opened := true, key := key, at_ := now }

theorem id_of_session {s : State} {n : Nat} {x : Session} (h : s.session n = some x) : x.id = n := by
  simpa using List.find?_some h

/-- The right proof opens the session. -/
theorem opSessionOpen_phase1 {p : Packet} {s : State} {x : Session} (hx : s.session p.session.toNat = some x)
    (hlock : s.hid.cmd.lockEnd = none) :
    (opSessionOpen p ([1, 0, 0, 0] ++ hmac (s.pwd x.auth).hash (x.nonce ++ leBytes 2 x.id))).Does s {}
      ((updSession x.id (Session.opensWith (hmac (s.pwd x.auth).hash (by1 [0x49, 0x41, 0x4C, 0x4B] ++ x.nonce))
        s.hid.now)).run s) := by
  generalize hproof : hmac (s.pwd x.auth).hash (x.nonce ++ leBytes 2 x.id) = proof
  have h1 : leAt ([1, 0, 0, 0] ++ proof) 0 1 = 1 := rfl
  have hres : reservedBad ([1, 0, 0, 0] ++ proof) [1, 2, 3] = none := by simp [reservedBad, leAt, ofLe]
  have hdrop : ([1, 0, 0, 0] ++ proof : List Byte).drop 4 = proof := rfl
  refine .read <| .ite_pos h1 ?_
  simp only [hres, hx, hdrop]
  refine .ite_neg (by simp [hlock]) <| .bind (a := true) ?_ (.ite_pos rfl (M.does_pure _ _))
  exact .read <| .ite_pos hproof.symm <| ((foot_updSession _ _).does s).bind (M.does_pure _ _)

/-! ## SESSION_CLOSE -/

theorem handle_sessionClose {c : Ctx} (hop : c.op = 0x71) (p : Packet) (body : List Byte) (g : Option Seg)
    (svcLow : Option Bool) (s : State) :
    (handle c p body g svcLow).Does s ({}, none) ((dropSession c.session).run s) := by
  refine .read ?_
  simp only [hop]
  exact ((foot_dropSession _).does s).bind (M.does_pure _ _)

theorem dropSession_sessions (n : Nat) (s : State) :
    ((dropSession n).run s).hid.cmd.sessions = s.hid.cmd.sessions.filter fun x => x.id != n := by
  rw [dropSession_run, putSessions_sessions]

theorem dropSession_session (n : Nat) (s : State) : ((dropSession n).run s).session n = none := by
  simp [State.session, dropSession_sessions]

theorem dropSession_showsOpen (n : Nat) (s : State) : ((dropSession n).run s).showsOpen := by
  rw [dropSession_run]
  exact putSessions_showsOpen ..

theorem dropSession_bare (n : Nat) : (dropSession n).Fixes State.bare := .read fun _ => putSessions_bare _

/-! ## The three requests -/

theorem serving_shown (s : State) (op : Nat) (p : Packet) :
    (s.serving op p).faces Session.shown = s.faces Session.shown :=
  serving_faces Session.shown_steady (fun _ _ => rfl) s op p

theorem sessionOpen_phase0 {s : State} {p : Packet} {a : Nat} (h : s.serves 0x70 p = true)
    (hbody : bodyOf p = by1 [0, a, 0, 0]) (h1 : 1 ≤ a) (h3 : a ≤ 3) (hlock : s.hid.cmd.lockEnd = none)
    (hlim : s.sessionLimit a = false) :
    ((serve 0x70 p none).run s).faces Session.shown = s.faces Session.shown ++ [(s.freeId, p.src, a, false)] ∧
      Keeps [] eventPages s ((serve 0x70 p none).run s) := by
  have hshown := serving_shown s 0x70 p
  have hlock' := (serving_cmd (φ := CmdSt.lockEnd) (fun _ _ => rfl) s 0x70 p).trans hlock
  obtain ⟨ans, t, hd, hlog, hadd, hsame, hbare⟩ :=
    opSessionOpen_phase0 (p := p) h1 h3 hlock' ((sessionLimit_of_shown hshown a).trans hlim)
  rw [← hbody] at hd
  obtain ⟨hfaces, -, -, hkeeps⟩ :=
    serve_linkEffect h (by decide) (handle_sessionOpen rfl hd _ _) hsame hbare hlog rfl
  refine ⟨?_, hkeeps⟩
  rw [hfaces Session.shown_steady, hadd, hshown, freeId_of_shown hshown]

theorem sessionOpen_phase1 {s : State} {p : Packet} {x : Session} (h : s.serves 0x70 p = true)
    (hx : s.session p.session.toNat = some x) (hlock : s.hid.cmd.lockEnd = none)
    (hbody : bodyOf p = [1, 0, 0, 0] ++ hmac (s.pwd x.auth).hash (x.nonce ++ leBytes 2 x.id)) {r : State}
    (hr : r = (serve 0x70 p none).run s) :
    ((r.session p.session.toNat).map fun y => (y.opened, y.auth, y.src, y.key, y.at_)) = some (true, x.auth, x.src,
        hmac (s.pwd x.auth).hash (by1 [0x49, 0x41, 0x4C, 0x4B] ++ x.nonce), s.hid.now) ∧
      r.showsOpen ∧ Answered 0x70 p {} s r ∧ Keeps [] eventPages s r := by
  have hserv := serving_bookkept s 0x70 p
  have hpwd : ∀ a, (s.serving 0x70 p).pwd a = s.pwd a := fun a => by
    simp only [State.pwd, serving_cmd (φ := CmdSt.pwds) (fun _ _ => rfl) s 0x70 p]
  have hlock' := (serving_cmd (φ := CmdSt.lockEnd) (fun _ _ => rfl) s 0x70 p).trans hlock
  have hface := session_of_faces (serving_faces Session.pendingFace_steady (fun _ _ => rfl) s 0x70 p) p.session.toNat
  rw [hx, Option.map_some, Option.map_eq_some_iff] at hface
  obtain ⟨y, hy, hxy⟩ := hface
  obtain ⟨hid, hsrc, hauth, hnonce⟩ : y.id = x.id ∧ y.src = x.src ∧ y.auth = x.auth ∧ y.nonce = x.nonce := by
    simpa [Session.pendingFace] using hxy
  have hd := opSessionOpen_phase1 hy hlock'
  have hnow : (s.serving 0x70 p).hid.now = s.hid.now := hserv.same.hid (by decide) 40 (by decide)
  rw [hpwd, hid, hauth, hnonce, ← hbody, hnow] at hd
  obtain ⟨hfaces, hshow, hans, hkeeps⟩ := serve_linkEffect h (by decide) (handle_sessionOpen rfl hd _ _)
    (((foot_updSession _ _).run _).mono (by decide)) ((updSession_bare _ _).run _) (unlogged_okWith []) hr
  refine ⟨?_, hshow (updSession_showsOpen ..), hans, hkeeps⟩
  have hsess := session_of_faces (hfaces Session.openFace_steady) p.session.toNat
  rw [id_of_session hx, session_updSession _ (f := Session.opensWith _ _) fun _ => rfl, hy] at hsess
  simpa [Session.openFace, Session.opensWith, hauth, hsrc] using hsess

theorem sessionClose_served {s : State} {p : Packet} (h : s.serves 0x71 p = true) {r : State}
    (hr : r = (serve 0x71 p none).run s) :
    r.session p.session.toNat = none ∧ r.showsOpen ∧ Answered 0x71 p {} s r ∧ Keeps [] eventPages s r := by
  obtain ⟨hfaces, hshow, hans, hkeeps⟩ := serve_linkEffect h (by decide) (handle_sessionClose rfl p _ _ none _)
    (((foot_dropSession _).run _).mono (by decide)) ((dropSession_bare _).run _) (unlogged_okWith []) hr
  refine ⟨?_, hshow (dropSession_showsOpen ..), hans, hkeeps⟩
  have hsess := session_of_faces (hfaces Session.openFace_steady) p.session.toNat
  rw [show (s.ctxOf 0x71 p).session = p.session.toNat from rfl, dropSession_session] at hsess
  simpa using hsess

/-! ## PASSWORD_CHANGE -/

theorem xorBytes_cancel : ∀ {a b : List Byte}, a.length ≤ b.length → xorBytes (xorBytes a b) b = a
  | [], _, _ => rfl
  | x :: a, [], h => absurd h (by simp)
  | x :: a, y :: b, h => by
    have htail := xorBytes_cancel (a := a) (b := b) (by simpa using h)
    have hhead : x ^^^ y ^^^ y = x := by rw [BitVec.xor_assoc, BitVec.xor_self, BitVec.xor_zero]
    simpa [xorBytes, hhead] using htail

theorem xorBytes_length (a b : List Byte) : (xorBytes a b).length = min a.length b.length := by simp [xorBytes]

theorem M.Fixes.wfRd {x : FldAt} {a : Nat} (v : Nat) (h : a ≠ x.addr) : (Machine.wf x v).Fixes fun s => s.rd a :=
  .read fun _ => .act fun s => rd_apply_reg_other _ _ _ s h

theorem M.Fixes.incRd {x : FldAt} {a : Nat} (h : a ≠ x.addr) : (inc x).Fixes fun s => s.rd a :=
  .read fun _ => .when (.wfRd _ h)

/-- An entry of the change log shows in SAF.CHANGE alone. -/
theorem changeFree_rd {a : Nat} (h : a ≠ SAF.CHANGE) (kind old new session transport : Nat) :
    (changeFree kind old new session transport).Fixes fun s => s.rd a := by
  have hfresh : fresh.Fixes fun s => s.rd a :=
    .bind (.read fun _ => .pure _) fun _ => .bind (.act fun _ => rfl) fun _ => .pure _
  refine .bind hfresh fun n => .read fun _ => .thenMore (.incRd h) fun _ => ?_
  exact .bind (.act fun _ => rfl) fun _ => .wfRd _ h

theorem freshBytes_rd (n a : Nat) : (freshBytes n).Fixes fun s => s.rd a :=
  .bind (.read fun _ => .pure _) fun _ => .bind (.act fun _ => rfl) fun _ => .pure _

/-- The new password, wrapped by the session's key, unwrapped again (R62). -/
theorem unwrap_password {pw mask : List Byte} (hmin : pw.length ≤ 32) (hmask : 32 ≤ mask.length) :
    (xorBytes (xorBytes (pw ++ List.replicate (32 - pw.length) 0) mask) mask).take pw.length = pw := by
  rw [xorBytes_cancel (by simp; omega), List.take_left]

theorem leAt_one (l : List Byte) (i : Nat) : leAt l i 1 = (l.getD i 0).toNat := by simp [leAt, ofLe]

theorem printable_find {pw : List Byte} (h : (pw.all fun b => decide (0x20 ≤ b.toNat ∧ b.toNat ≤ 0x7E)) = true) :
    ((List.range pw.length).find? fun i => leAt pw i 1 < 0x20 ∨ 0x7E < leAt pw i 1) = none := by
  refine List.find?_eq_none.mpr fun i hi => ?_
  have hi := List.mem_range.mp hi
  have hb := List.all_eq_true.mp h pw[i] (List.getElem_mem hi)
  simp only [leAt_one, List.getD_eq_getElem _ _ hi]
  simp only [decide_eq_true_eq] at hb ⊢
  omega

/-- The payload of a PASSWORD_CHANGE is that long (R62). -/
theorem length_passwordBody {s : State} {p : Packet} (h : s.serves 0x72 p = true) : (bodyOf p).length = 36 := by
  obtain ⟨-, -, -, -, hchk⟩ := (serves_iff s 0x72 p).mp h
  by_contra hlen
  have hsize : ∀ b, sizeBad 0x72 p (bodyOf p) b = some (refuse 0x0104 (min (bodyOf p).length 36)) := fun b => by
    simp [sizeBad, wantSize, hlen]
  simp only [State.checksBad, State.ctxOf, hsize] at hchk
  split at hchk <;> exact absurd hchk (by simp)

/-- The salt and the derivation are stored, and the change log takes an entry. -/
def passwordStored (auth : Nat) (pw : List Byte) (s t : State) : Prop :=
  (∃ salt, t.hid.cmd.pwds =
      ⟨auth, salt, pbkdf2 pw salt Config.iterations⟩ :: s.hid.cmd.pwds.filter fun q => q.auth != auth) ∧
    Same [16, 36, 42, 43] s t ∧ (∀ a, a ≠ SAF.CHANGE → t.rd a = s.rd a) ∧ t.hid.cmd.go = s.hid.cmd.go

theorem opPassword_stores {c : Ctx} {p : Packet} {pw key mask body : List Byte} {s : State} (h8 : 8 ≤ pw.length)
    (h32 : pw.length ≤ 32) (hall : (pw.all fun b => decide (0x20 ≤ b.toNat ∧ b.toNat ≤ 0x7E)) = true)
    (hkey : (s.session p.session.toNat).map (fun x => x.key) = some key)
    (hmask : hmac key (by1 [0x49, 0x41, 0x4C, 0x50] ++ leBytes 2 p.seq.toNat) = mask) (hlen : 32 ≤ mask.length)
    (hbody : body = by1 [pw.length, 0, 0, 0] ++ xorBytes (pw ++ List.replicate (32 - pw.length) 0) mask) :
    (opPassword c p body).Ends s fun a t => a = {} ∧ passwordStored c.auth pw s t := by
  have hn : leAt body 0 1 = pw.length := hbody ▸ leAt_first (by omega) _
  have hres : reservedBad body [1, 2, 3] = none := hbody ▸ reservedBad_first _ _
  have hdrop : body.drop 4 = xorBytes (pw ++ List.replicate (32 - pw.length) 0) mask := by rw [hbody]; rfl
  refine .read ?_
  simp only [hn, hres, hkey, hdrop, hmask, Option.getD_some, unwrap_password h32 hlen, printable_find hall]
  refine .ite_neg (by omega) <| .afterIn (M.In.freshBytes 16 (P := [42]) (by decide)) fun salt u hu hd => ?_
  have hcmd : u.hid.cmd = s.hid.cmd := hu.cmd (by decide) (by decide)
  have hlog := ((foot_changeFree 3 0 c.auth c.session c.transport).run
    ((storePwd ⟨c.auth, salt, pbkdf2 pw salt Config.iterations⟩).run u))
  have hcmd' := hlog.cmd (by decide) (by decide)
  refine .bind ((foot_storePwd _).does u) <| .bind ((foot_changeFree _ _ _ _ _).does _) <| .ofDoes (M.does_pure _ _)
    ⟨rfl, ⟨salt, ?_⟩, ?_, fun a ha => ?_, ?_⟩
  · rw [hcmd', ← hcmd]
    rfl
  · exact (hu.mono (by decide)).trans <| (((foot_storePwd _).run u).mono (by decide)).trans <| hlog.mono (by decide)
  · exact ((changeFree_rd ha ..).run _).trans (hd.fixes (freshBytes_rd 16 a))
  · rw [hcmd', ← hcmd]
    rfl

theorem handle_password {c : Ctx} {p : Packet} {body : List Byte} {s t : State} {a : Ans} (hop : c.op = 0x72)
    (h : (opPassword c p body).Does s a t) (g : Option Seg) (svcLow : Option Bool) :
    (handle c p body g svcLow).Does s (a, none) t := by
  refine .read ?_
  simp only [hop]
  exact h.bind (M.does_pure _ t)

theorem passwordChange_served {s : State} {p : Packet} {pw key : List Byte} (h : s.serves 0x72 p = true)
    (hkey : (s.session p.session.toNat).map (fun x => x.key) = some key) (h8 : 8 ≤ pw.length) (h32 : pw.length ≤ 32)
    (hall : (pw.all fun b => decide (0x20 ≤ b.toNat ∧ b.toNat ≤ 0x7E)) = true)
    (hbody : bodyOf p = by1 [pw.length, 0, 0, 0] ++ xorBytes (pw ++ List.replicate (32 - pw.length) 0)
      (hmac key (by1 [0x49, 0x41, 0x4C, 0x50] ++ leBytes 2 p.seq.toNat))) {r : State}
    (hr : r = (serve 0x72 p none).run s) :
    (∃ salt l, r.hid.cmd.pwds = ⟨(s.ctxOf 0x72 p).auth, salt, pbkdf2 pw salt Config.iterations⟩ :: l) ∧
      Answered 0x72 p {} s r ∧ KeepsConfig [] eventPages s r := by
  have hmask : 32 ≤ (hmac key (by1 [0x49, 0x41, 0x4C, 0x50] ++ leBytes 2 p.seq.toNat)).length := by
    have hlen := length_passwordBody h
    rw [hbody, List.length_append, xorBytes_length] at hlen
    have h4 : (by1 [pw.length, 0, 0, 0]).length = 4 := rfl
    omega
  have hserv := serving_bookkept s 0x72 p
  have hkey' : ((s.serving 0x72 p).session p.session.toNat).map (fun x => x.key) = some key :=
    (session_of_faces (serving_faces (π := fun x => (x.id, x.key)) ⟨fun _ _ => rfl, fun _ => rfl, fun _ _ => rfl⟩
      (fun _ _ => rfl) s 0x72 p) _).trans hkey
  obtain ⟨a, t, hd, rfl, ⟨salt, hpwds⟩, hsame, hrd, hgo⟩ :=
    opPassword_stores (c := s.ctxOf 0x72 p) h8 h32 hall hkey' rfl hmask hbody
  have hbefore := beforeReply_bookkept (s.ctxOf 0x72 p) 0x72 p {} none t
  rw [serve_handled h (by decide) (handle_password rfl hd _ _) (hgo.trans ((bare_go hserv.bare).trans (serves_go h)))
    (unlogged_okWith []) (by decide)] at hr
  have hrest : Same [1, 16, 36, 42, 43] s ((beforeReply (s.ctxOf 0x72 p) 0x72 p {} none).run t) :=
    (hserv.same.mono (by decide)).trans <| (hsame.mono (by decide)).trans (hbefore.same.mono (by decide))
  have hread : ∀ a, a ≠ SAF.CHANGE → a / 65536 ∉ eventPages →
      ((beforeReply (s.ctxOf 0x72 p) 0x72 p {} none).run t).rd a = s.rd a := fun a ha hp =>
    (bare_rd hbefore.bare hp).trans <| (hrd a ha).trans (bare_rd hserv.bare hp)
  have hpres : ((beforeReply (s.ctxOf 0x72 p) 0x72 p {} none).run t).present 10 = s.present 10 := by
    have hpage : SYS.ISLAND 10 / 65536 ∉ eventPages := by rw [SYS.ISLAND_page]; decide
    have hne : SYS.ISLAND 10 ≠ SAF.CHANGE := by decide
    simp only [State.present, f_of_rd_eq (SYS.ISLAND.STATE 10) (hread _ hne hpage)]
  have hsent := (sendReply_sent p (s.replyKey p) (replyPkt 0x72 p {})
    ((beforeReply (s.ctxOf 0x72 p) 0x72 p {} none).run t)).keeps
  subst hr
  refine ⟨⟨salt, (s.serving 0x72 p).hid.cmd.pwds.filter fun q => q.auth != (s.ctxOf 0x72 p).auth, ?_⟩,
    answered_of_sent (serves_present h) hpres (hrest.spi (by decide) (by decide)), ?_⟩
  · rw [((unsent_cmd CmdSt.pwds fun _ _ _ _ _ _ => rfl).sendReply ..).run,
      (beforeReply_cmd (φ := CmdSt.pwds) (fun _ _ => rfl) (fun _ _ => rfl) ..).run, hpwds]
  · exact ⟨fun a ha hp => (hsent.rd a (by simp) hp).trans (hread a (by simpa using ha) hp),
      hsent.tabs.trans (hrest.tabs (by decide) (by decide)), hsent.vio.trans (hrest.vio (by decide) (by decide)),
      hsent.pending.trans hrest.pending⟩

/-- Settles O24: each request has its effect on the sessions and passwords, its bookkeeping and its reply leave that. -/
theorem sessionAndPasswordRequests : Obligations.Session_and_password_requests := by
  unfold Obligations.Session_and_password_requests
  refine ⟨fun s p a h hbody => ?_, fun s p x h hx hbody => ?_, fun s p h => ?_, fun s p pw key h hkey hall hbody => ?_⟩
  · obtain ⟨hbody, h1, h3, hlock, hlim⟩ := hbody
    exact .of_checked rfl ((serves_iff s _ p).mp h).1 (sessionOpen_phase0 h hbody h1 h3 hlock hlim)
  · exact .of_checked rfl ((serves_iff s _ p).mp h).1 (sessionOpen_phase1 h hx.1 hx.2 hbody rfl)
  · exact .of_checked rfl ((serves_iff s _ p).mp h).1 (sessionClose_served h rfl)
  · obtain ⟨hkey, h8, h32⟩ := hkey
    refine .of_checked rfl ((serves_iff s _ p).mp h).1 ?_
    obtain ⟨⟨salt, l, hpwds⟩, hans, hkeeps⟩ := passwordChange_served h hkey h8 h32 hall hbody rfl
    exact ⟨by simp [State.pwdSet, hpwds], by simp [State.pwd, hpwds], hans, hkeeps⟩

end Sys2Proof.Machine
end

section
/-! Statement O25: sequences are stored, and run step by step (R40, R63, R64). -/

namespace Sys2Proof.Machine

/-! ## SEQUENCE_STORE -/

theorem segOf_begun {s : State} {c : Ctx} (h : s.segOf c = none) (op : Nat) (p : Packet) :
    (s.begun op p).segOf c = none := by
  have hface := session_of_faces (begun_faces (π := fun x => (x.id, x.seg)) (fun _ _ => rfl) s op p) c.session
  have hseg : ((s.begun op p).session c.session).bind (fun x => x.seg) = (s.session c.session).bind fun x => x.seg := by
    have hjoin : ∀ o : Option Session, o.bind (fun x => x.seg) = (o.map fun x => x.seg).join := fun o => by
      cases o <;> rfl
    rw [hjoin, hjoin, hface]
  have hrun := begun_cmd (φ := CmdSt.runSeg) (fun _ _ => rfl) s op p
  simp only [State.segOf, hseg, hrun] at h ⊢
  exact h

/-- A sequence is kept at an index, under an authority. -/
def keepSequence (i auth : Nat) (data : List Byte) : M Unit :=
  hid fun h => { h with cmd := { h.cmd with seqs := sput h.cmd.seqs i ⟨auth, data⟩ } }

theorem foot_keepSequence (i auth : Nat) (data : List Byte) : (keepSequence i auth data).In [43] :=
  M.In.hid_cmd _ (by decide)

theorem keepSequence_bare (i auth : Nat) (data : List Byte) : (keepSequence i auth data).Fixes State.bare :=
  .hidBare fun _ => rfl

/-- A whole sequence in one packet, that may be stored. -/
theorem opSequenceStore_stores {c : Ctx} {p : Packet} {i : Fin 64} {data : List Byte} (s : State)
    (hlen : data.length ≤ 4096) (hmore : bit p.flags.toNat 3 = false)
    (hok : (sequencePackets data.length 4 data).toBool = true) :
    (opSequenceStore c p (by1 [i.val, 0, 0, 0] ++ data) none).Does s ({}, none)
      ((keepSequence i.val c.auth data).run s) := by
  have hi := i.isLt
  have hidx := leAt_first (show i.val < 256 by omega) data
  have hres := reservedBad_first i.val data
  have hdrop : (by1 [i.val, 0, 0, 0] ++ data).drop 4 = data := rfl
  refine .read ?_
  simp only [hidx, hdrop]
  refine .ite_neg (by omega) ?_
  simp only [Option.isSome_none, Bool.false_eq_true, if_false, hres]
  refine .ite_neg (by omega) <| .ite_neg (by simp [hmore]) ?_
  split
  · next o ho => exact absurd (ho ▸ hok) (by simp [Except.toBool])
  · exact (M.does_hid _ s).bind (M.does_pure _ _)

theorem handle_sequenceStore {c : Ctx} {p : Packet} {body : List Byte} {g : Option Seg} {s t : State} {x : Ans × Option Seg}
    (hop : c.op = 0x90) (h : (opSequenceStore c p body g).Does s x t) (svcLow : Option Bool) :
    (handle c p body g svcLow).Does s x t := by
  refine .read ?_
  simp only [hop]
  exact h

theorem CmdSt.seqs_steady : CmdSt.Steady CmdSt.seqs := ⟨fun _ _ => rfl, fun _ _ => rfl, fun _ _ _ _ _ _ => rfl⟩

theorem sequenceStore_served {s : State} {p : Packet} {i : Fin 64} {data : List Byte} (h : s.serves 0x90 p = true)
    (hbody : bodyOf p = by1 [i.val, 0, 0, 0] ++ data) (hlen : data.length ≤ 4096) (hmore : bit p.flags.toNat 3 = false)
    (hseg : s.segOf (s.ctxOf 0x90 p) = none) (hok : (sequencePackets data.length 4 data).toBool = true) {r : State}
    (hr : r = (serve 0x90 p none).run s) :
    r.hid.cmd.seqs = sput s.hid.cmd.seqs i.val ⟨(s.ctxOf 0x90 p).auth, data⟩ ∧ Answered 0x90 p {} s r ∧
      Keeps [] eventPages s r := by
  have hd := opSequenceStore_stores (c := s.ctxOf 0x90 p) (i := i) (s.serving 0x90 p) hlen hmore hok
  have hstaged := segOf_begun hseg 0x90 p
  rw [← hbody, ← hstaged] at hd
  obtain ⟨-, -, hans, hkeeps, hcmd⟩ := serve_linkEffect h (by decide) (handle_sequenceStore rfl hd _)
    (((foot_keepSequence _ _ _).run _).mono (by decide)) ((keepSequence_bare ..).run _) (unlogged_okWith []) hr
  refine ⟨?_, hans, hkeeps⟩
  rw [hcmd CmdSt.seqs_steady, ← serving_cmd (φ := CmdSt.seqs) (fun _ _ => rfl) s 0x90 p]
  rfl

/-! ## The steps of a run -/

theorem putSeg_same {c : Ctx} {g : Option Seg} {s : State} (h : s.segOf c = g) : (putSeg c g).run s = s :=
  M.Does.run <| .read <| .ite_neg (not_not_intro h) <| M.does_pure () s

/-- What a step of a run is executed as. -/
def stepCtx (r : Req) (auth session : Nat) : Ctx := ⟨r.op, auth, session, 0x30, 0⟩

theorem segOf_step {r : Req} {auth session : Nat} {s : State} (h : s.hid.cmd.runSeg = none) :
    s.segOf (stepCtx r auth session) = none := h

theorem segBreak_step {r : Req} {auth session : Nat} {p : Packet} {s : State} (h : s.hid.cmd.runSeg = none) :
    s.segBreak (stepCtx r auth session) p = none := by
  simp [State.segBreak, segOf_step h, show (stepCtx r auth session).transport = 0x30 from rfl]

theorem nopStep_iff (r : Req) :
    nopStep r = true ↔ r.op = 0 ∧ bodyOf r.p = [] ∧ r.p.page = 0 ∧ r.p.inst = 0 ∧ r.p.scope = 4 := by
  simp [nopStep, and_assoc]

/-- Any authority may send a NOP. -/
theorem accessBad_nop {c : Ctx} (h : c.op = 0) (p : Packet) (body : List Byte) : accessBad c p body = none := by
  have hauth : authOk c.auth 0 p.scope.toNat p.inst.toNat body = true := by
    unfold authOk
    split <;> simp [noneOps]
  have hknown : 0 ∈ knownOps := by decide
  simp [accessBad, h, hauth, hknown]

theorem checksBad_nop {c : Ctx} {p : Packet} (h : c.op = 0) (hp : p.page = 0 ∧ p.inst = 0 ∧ p.scope = 4) (s : State)
    (g : Option Seg) : s.checksBad c p [] g = none := by
  obtain ⟨hpage, hinst, hscope⟩ := hp
  have hwrong : s.wrongNow c.auth 0 p [] = none := by simp [State.wrongNow, recoveryOps]
  simp [State.checksBad, State.stateBad, h, hwrong, sizeBad, wantSize, targetBad, hpage, hinst, hscope]

theorem execute_nopStep {r : Req} {auth session : Nat} {s : State} (hr : nopStep r = true)
    (h : s.hid.cmd.runSeg = none) :
    (execute (stepCtx r auth session) { r.p with session := BitVec.ofNat 16 session } none).Does s {}
      ((clearLost (stepCtx r auth session)).run s) := by
  obtain ⟨hop, hbody, hpage⟩ := (nopStep_iff r).mp hr
  have hlost : ((clearLost (stepCtx r auth session)).run s).hid.cmd.runSeg = none :=
    ((clearLost_cmd (φ := CmdSt.runSeg) (fun _ _ => rfl) _).run s).trans h
  have hbody' : bodyOf { r.p with session := BitVec.ofNat 16 session } = [] := hbody
  have hchk := checksBad_nop (c := stepCtx r auth session) (p := { r.p with session := BitVec.ofNat 16 session }) hop hpage s
    (s.segOf (stepCtx r auth session))
  rw [← hbody'] at hchk
  have hd := execute_handled (svcLow := none) (accessBad_nop hop _ _) (segBreak_step h) hchk (handle_nop hop _ _ _ _ _)
  rwa [putSeg_same (segOf_step hlost)] at hd

/-- The result of an awaited step is forgotten. -/
def dropResult : M Unit := hid fun h => { h with cmd := { h.cmd with runResult := none } }

/-- The transfer of a run is closed. -/
def dropRunSeg : M Unit := hid fun h => { h with cmd := { h.cmd with runSeg := none } }

theorem dropResult_bookkept (s : State) : Bookkept s (dropResult.run s) :=
  bookkept_run ((M.In.hid_cmd _ (by decide) : dropResult.In [43]).mono (by decide)) (.hidBare fun _ => rfl) s

theorem dropRunSeg_bookkept (s : State) : Bookkept s (dropRunSeg.run s) :=
  bookkept_run ((M.In.hid_cmd _ (by decide) : dropRunSeg.In [43]).mono (by decide)) (.hidBare fun _ => rfl) s

/-- What a step's answer makes of the run, if no step is awaited. -/
theorem runSteps_step {auth session i : Nat} {by_ : Option Packet} {r : Req} {l : List Req} {s t : State} {a : Ans}
    {P : Option Ans → State → Prop}
    (hx : (execute (stepCtx r auth session) { r.p with session := BitVec.ofNat 16 session } none).Does
      (dropResult.run s) a t)
    (hreset : ¬ (r.op = 0xF0 ∧ a.status = stOk ∧ r.p.scope.toNat = 3)) (hacc : a.status ≠ stAccepted)
    (hok : a.status = stOk → (runSteps auth session by_ (i + 1) l).Ends ((logViolation (stepCtx r auth session) a).run t) P)
    (hbad : a.status ≠ stOk → P (some (stepEnd i a.status a.reason a.detail))
      (dropRunSeg.run ((logViolation (stepCtx r auth session) a).run t))) :
    (runSteps auth session by_ i (r :: l)).Ends s P := by
  refine .bind (M.does_hid _ s) <| .bind hx <| .bind ((foot_logViolation _ _).does t) <| .bind (afterReply_none hreset _) <|
    .read ?_
  split
  next status reason detail hres =>
    split at hres
    · next hst _ => exact absurd hst hacc
    · obtain ⟨rfl, rfl, rfl⟩ : a.status = status ∧ a.reason = reason ∧ a.detail = detail := by simpa using hres
      by_cases hst : a.status = stOk
      · exact .ite_pos hst (hok hst)
      · exact .ite_neg hst <| .ite_neg hacc <| .bind (M.does_hid _ _) <| .ofDoes (M.does_pure _ _) (hbad hst)

/-- What a run of NOPs leaves: bookkeeping alone, and no transfer of its own. -/
structure NopRun (s t : State) : Prop where
  book : Bookkept s t
  runSeg : t.hid.cmd.runSeg = none
  run : t.hid.cmd.run = s.hid.cmd.run

/-- A run goes over its NOPs to the steps that follow. -/
theorem runSteps_nops {auth session : Nat} {by_ : Option Packet} {rest : List Req} {P : Option Ans → State → Prop} :
    ∀ (l : List Req) (i : Nat) (s : State), l.all nopStep = true → s.hid.cmd.runSeg = none →
      (∀ t, NopRun s t → (runSteps auth session by_ (i + l.length) rest).Ends t P) →
      (runSteps auth session by_ i (l ++ rest)).Ends s P
  | [], i, s, _, hseg, h => h s ⟨.refl s, hseg, rfl⟩
  | r :: l, i, s, hall, hseg, h => by
    obtain ⟨hr, hall⟩ : nopStep r = true ∧ l.all nopStep = true := by simpa using hall
    have hx := execute_nopStep (auth := auth) (session := session) (s := dropResult.run s) hr hseg
    have hlog := logViolation_unlogged (c := stepCtx r auth session) (unlogged_okWith [])
    have hrun := clearLost_cmd (φ := fun x => (x.runSeg, x.run)) (fun _ _ => rfl) (stepCtx r auth session)
    have hkept := Prod.ext_iff.mp (hrun.run (dropResult.run s))
    have hbook := (dropResult_bookkept s).trans
      (bookkept_run (foot_clearLost (stepCtx r auth session)) (clearLost_bare _) _)
    refine runSteps_step hx (fun hc => absurd (((nopStep_iff r).mp hr).1.symm.trans hc.1) (by decide)) (by decide)
      (fun _ => ?_) fun hc => absurd rfl hc
    rw [hlog]
    refine runSteps_nops l (i + 1) _ hall (hkept.1.trans hseg) fun t ht => ?_
    rw [show i + 1 + l.length = i + (r :: l).length by simp; omega]
    exact h t ⟨hbook.trans ht.book, ht.runSeg, ht.run.trans hkept.2⟩

theorem accessBad_status {c : Ctx} {p : Packet} {body : List Byte} {x : Ans} (h : accessBad c p body = some x) :
    x.status = stRefused := by
  unfold accessBad at h
  split_ifs at h <;> cases h <;> rfl

/-- A refused step ends the run. -/
theorem runSteps_refused {auth session i : Nat} {by_ : Option Packet} {r : Req} {l : List Req} {s : State} {x : Ans}
    (hseg : s.hid.cmd.runSeg = none)
    (hx : accessBad (stepCtx r auth session) { r.p with session := BitVec.ofNat 16 session } (bodyOf r.p) = some x) :
    (runSteps auth session by_ i (r :: l)).Ends s fun o t => o = some (stepEnd i x.status x.reason x.detail) ∧
      t = dropRunSeg.run ((logViolation (stepCtx r auth session) x).run (dropResult.run s)) := by
  have hst := accessBad_status hx
  have hd : (execute (stepCtx r auth session) { r.p with session := BitVec.ofNat 16 session } none).Does
      (dropResult.run s) x (dropResult.run s) := by
    have hbreak := segBreak_step (r := r) (auth := auth) (session := session)
      (p := { r.p with session := BitVec.ofNat 16 session }) (s := dropResult.run s) hseg
    have hbody : bodyOf { r.p with session := BitVec.ofNat 16 session } = bodyOf r.p := rfl
    refine .read ?_
    simp only [hbody, hx, hbreak]
    exact M.does_pure x _
  have hno : x.status ≠ stOk := by rw [hst]; decide
  exact runSteps_step hd (fun hc => hno hc.2.1) (by rw [hst]; decide) (fun hc => absurd hc hno) fun _ => ⟨rfl, rfl⟩

/-! ## SEQUENCE_RUN -/

theorem opSequenceRun_ends {c : Ctx} {p : Packet} {i : Fin 64} {a : Nat} {l : List Req} {s : State}
    {P : Ans → State → Prop} (hseq : s.sequence i = (a, l))
    (h : (runSteps (min c.auth a) c.session (some p) 0 l).Ends s fun o t => ∃ x, o = some x ∧ P x t) :
    (opSequenceRun c p (by1 [i.val, 0, 0, 0])).Ends s P := by
  have hi := i.isLt
  have hidx : leAt (by1 [i.val, 0, 0, 0]) 0 1 = i.val := leAt_first (by omega) []
  have hres : reservedBad (by1 [i.val, 0, 0, 0]) [1, 2, 3] = none := reservedBad_first i.val []
  obtain ⟨_, t, hd, x, rfl, hx⟩ := h
  refine .read ?_
  simp only [hidx, hres, hseq]
  exact .ite_neg (by omega) <| .bind hd <| .ofDoes (M.does_pure _ _) hx

theorem checksBad_run {c : Ctx} (h : c.op = 0x91) (p : Packet) (body : List Byte) (s : State) (g : Option Seg) :
    s.checksBad c p body none = s.checksBad c p body g := by
  simp [State.checksBad, State.stateBad, h, sizeBad, wantSize]

/-- A SEQUENCE_RUN that passes every check: the run in it, and then the answer. -/
theorem serve_sequenceRun {s : State} {p : Packet} {P : Ans → State → Prop} (h : s.serves 0x91 p = true)
    (hx : (opSequenceRun (s.ctxOf 0x91 p) p (bodyOf p)).Ends (s.begun 0x91 p) fun a u => P a u ∧ u.hid.cmd.go = none) :
    ∃ a u, P a u ∧ (serve 0x91 p none).run s =
      (sendAnswer 0x91 p (s.replyKey p) a).run ((logViolation (s.ctxOf 0x91 p) a).run u) := by
  obtain ⟨hwf, ht, hacc, hseg, hchk⟩ := (serves_iff s _ p).mp h
  obtain ⟨a, u, hd, hP, hgo⟩ := hx
  refine ⟨a, u, hP, serve_executed hwf ht (.read <| .ite_pos ⟨rfl, by simp [hacc]⟩ ?_) hgo fun hc =>
    absurd hc.1 (by decide)⟩
  rw [← checksBad_run rfl] at hchk
  simp only [hseg, hchk]
  exact hd

theorem run_of_takes {s : State} {op : Nat} {p : Packet} (h : s.takes op p = true) (hop : op ≠ 0x40) :
    s.hid.cmd.run = none := by
  simp only [State.takes, Bool.and_eq_true, Bool.or_eq_true, State.executorHeld, beq_iff_eq] at h
  have hheld := h.1.2.resolve_left hop
  simp_all

theorem sendAnswer_cmd {β : Type} {φ : CmdSt → β} (h : ∀ x l, φ { x with sessions := l } = φ x)
    (hs : ∀ x q l a t w, φ { x with evtSeq := q, evtLost := l, attn := a, tunnelWait := t, linkWait := w } = φ x)
    (op : Nat) (p : Packet) (key : Option (List Byte)) (a : Ans) (s : State) :
    φ ((sendAnswer op p key a).run s).hid.cmd = φ s.hid.cmd := by
  have hbusy : showBusy.Fixes fun s => φ s.hid.cmd := .read fun _ => wf_cmd _ _
  rw [sendAnswer_eq, ((unsent_cmd φ hs).sendReply ..).run, hbusy.run, (keepReply_cmd h ..).run]

/-- What a request finds where its run begins. -/
theorem begun_run {s : State} {p : Packet} (h : s.serves 0x91 p = true) (hseg : s.hid.cmd.runSeg = none) (i : Fin 64) :
    (s.begun 0x91 p).sequence i = s.sequence i ∧ (s.begun 0x91 p).hid.cmd.runSeg = none ∧
      (s.begun 0x91 p).hid.cmd.run = none := by
  have hcmd := begun_cmd (φ := fun x => (x.seqs, x.runSeg, x.run)) (fun _ _ => rfl) s 0x91 p
  obtain ⟨hseqs, hrunSeg, hrun⟩ : (s.begun 0x91 p).hid.cmd.seqs = s.hid.cmd.seqs ∧
      (s.begun 0x91 p).hid.cmd.runSeg = s.hid.cmd.runSeg ∧ (s.begun 0x91 p).hid.cmd.run = s.hid.cmd.run := by
    simpa using hcmd
  refine ⟨by simp only [State.sequence, hseqs], hrunSeg.trans hseg, hrun.trans ?_⟩
  exact run_of_takes ((serves_iff s _ p).mp h).2.1 (by decide)

theorem sequenceRun_nops {s : State} {p : Packet} {i : Fin 64} {a : Nat} {l : List Req} (h : s.serves 0x91 p = true)
    (hbody : bodyOf p = by1 [i.val, 0, 0, 0]) (hseq : s.sequence i = (a, l)) (hall : l.all nopStep = true)
    (hseg : s.hid.cmd.runSeg = none) {r : State} (hr : r = (serve 0x91 p none).run s) :
    Answered 0x91 p {} s r ∧ r.hid.cmd.run = none ∧ r.hid.cmd.runSeg = none ∧ Keeps [] eventPages s r := by
  obtain ⟨hseq', hseg', hrun'⟩ := begun_run h hseg i
  have hbegun := begun_bookkept s 0x91 p
  have hend : (opSequenceRun (s.ctxOf 0x91 p) p (bodyOf p)).Ends (s.begun 0x91 p) fun x u =>
      (x = {} ∧ Bookkept s u ∧ u.hid.cmd.run = none ∧ u.hid.cmd.runSeg = none) ∧ u.hid.cmd.go = none := by
    rw [hbody]
    refine opSequenceRun_ends (hseq'.trans hseq) ?_
    rw [← List.append_nil l]
    refine runSteps_nops l 0 _ hall hseg' fun t ht => ?_
    have hbook := (hbegun.trans ht.book).trans (dropRunSeg_bookkept t)
    exact .bind (M.does_hid _ _) <| .ofDoes (M.does_pure _ _)
      ⟨_, rfl, ⟨rfl, hbook, ht.run.trans hrun', rfl⟩, (bare_go hbook.bare).trans (serves_go h)⟩
  obtain ⟨_, u, ⟨rfl, hbook, hrun, hrunSeg⟩, hserve⟩ := serve_sequenceRun h hend
  rw [logViolation_unlogged (unlogged_okWith [])] at hserve
  rw [hserve] at hr
  subst hr
  refine ⟨fun hsrc hno hlen => ?_, (sendAnswer_cmd (φ := CmdSt.run) (fun _ _ => rfl) (fun _ _ _ _ _ _ => rfl) ..).trans hrun,
    (sendAnswer_cmd (φ := CmdSt.runSeg) (fun _ _ => rfl) (fun _ _ _ _ _ _ => rfl) ..).trans hrunSeg,
    (hbook.sent.trans (sendAnswer_sent ..)).keeps⟩
  rw [sendAnswer_spi _ hsrc hno hlen ((present_of_bare hbook.bare 10).trans (serves_present h)),
    hbook.same.spi (by decide) (by decide), replyOf_eq]

/-- What a refused step leaves beside the violation log: the host link alone has moved. -/
structure Noted (s t : State) : Prop where
  same : Same [1, 20, 33, 34, 43, 47] s t
  bare : t.bare = s.bare

theorem Bookkept.noted {s t : State} (h : Bookkept s t) : Noted s t := ⟨h.same.mono (by decide), h.bare⟩

theorem Sent.noted {s t : State} (h : Sent s t) : Noted s t := ⟨h.same.mono (by decide), h.bare⟩

theorem Noted.trans {s t u : State} (h : Noted s t) (h' : Noted t u) : Noted s u :=
  ⟨h.same.trans h'.same, h'.bare.trans h.bare⟩

theorem logViolation_noted (c : Ctx) (a : Ans) (s : State) : Noted s ((logViolation c a).run s) :=
  ⟨logViolation_sent_same c a s, logViolation_bare c a s⟩

theorem sequenceRun_refused {s : State} {p : Packet} {i : Fin 64} {a : Nat} {l l2 : List Req} {r : Req} {x : Ans}
    (h : s.serves 0x91 p = true) (hbody : bodyOf p = by1 [i.val, 0, 0, 0]) (hseq : s.sequence i = (a, l ++ r :: l2))
    (hall : l.all nopStep = true) (hseg : s.hid.cmd.runSeg = none)
    (hx : accessBad ⟨r.op, min (s.ctxOf 0x91 p).auth a, p.session.toNat, 0x30, 0⟩ { r.p with session := p.session }
      (bodyOf r.p) = some x) {t : State} (ht : t = (serve 0x91 p none).run s) :
    AnsweredLast 0x91 p (stepEnd l.length x.status x.reason x.detail) s t ∧ t.hid.cmd.run = none ∧
      t.hid.cmd.runSeg = none ∧ Noted s t := by
  obtain ⟨hseq', hseg', hrun'⟩ := begun_run h hseg i
  have hsess : BitVec.ofNat 16 p.session.toNat = p.session := by simp
  have hx' : accessBad (stepCtx r (min (s.ctxOf 0x91 p).auth a) p.session.toNat)
      { r.p with session := BitVec.ofNat 16 p.session.toNat } (bodyOf r.p) = some x := by rwa [hsess]
  have hend : (opSequenceRun (s.ctxOf 0x91 p) p (bodyOf p)).Ends (s.begun 0x91 p) fun y u =>
      (y = stepEnd l.length x.status x.reason x.detail ∧ Noted s u ∧ u.hid.cmd.run = none ∧ u.hid.cmd.runSeg = none) ∧
        u.hid.cmd.go = none := by
    rw [hbody]
    refine opSequenceRun_ends (hseq'.trans hseq) <| runSteps_nops l 0 _ hall hseg' fun v hv => ?_
    obtain ⟨_, u, hd, rfl, rfl⟩ := runSteps_refused (i := 0 + l.length) (by_ := some p) (l := l2) hv.runSeg hx'
    have hnoted := ((((begun_bookkept s 0x91 p).trans hv.book).trans (dropResult_bookkept v)).noted.trans
      (logViolation_noted (stepCtx r (min (s.ctxOf 0x91 p).auth a) p.session.toNat) x _)).trans (dropRunSeg_bookkept _).noted
    refine .ofDoes hd ⟨_, rfl, ⟨by rw [Nat.zero_add], hnoted, ?_, rfl⟩, (bare_go hnoted.bare).trans (serves_go h)⟩
    exact ((unsent_cmd CmdSt.run fun _ _ _ _ _ _ => rfl).logViolation _ x).run _ |>.trans (hv.run.trans hrun')
  obtain ⟨y, u, ⟨rfl, hnoted, hrun, hrunSeg⟩, hserve⟩ := serve_sequenceRun h hend
  have hlog := logViolation_noted (s.ctxOf 0x91 p) (stepEnd l.length x.status x.reason x.detail) u
  have hkept := ((unsent_cmd (fun z => (z.run, z.runSeg)) fun _ _ _ _ _ _ => rfl).logViolation (s.ctxOf 0x91 p)
    (stepEnd l.length x.status x.reason x.detail)).run u
  obtain ⟨hkrun, hkseg⟩ := Prod.ext_iff.mp hkept
  rw [hserve] at ht
  subst ht
  refine ⟨fun hsrc hno hlen => ?_, ?_, ?_, (hnoted.trans hlog).trans (sendAnswer_sent ..).noted⟩
  · have hp := (present_of_bare (hnoted.trans hlog).bare 10).trans (serves_present h)
    rw [sendAnswer_spi _ hsrc hno hlen hp, List.getLast?_concat, replyOf_eq]
  · exact (sendAnswer_cmd (φ := CmdSt.run) (fun _ _ => rfl) (fun _ _ _ _ _ _ => rfl) ..).trans (hkrun.trans hrun)
  · exact (sendAnswer_cmd (φ := CmdSt.runSeg) (fun _ _ => rfl) (fun _ _ _ _ _ _ => rfl) ..).trans (hkseg.trans hrunSeg)

/-- Settles O25: the steps of a run are taken one by one until one is refused or none is left. -/
theorem sequenceRequests : Obligations.Sequence_requests := by
  unfold Obligations.Sequence_requests
  refine ⟨fun s p i data h hbody hok => ?_, fun s p i a l h hbody hseq => ?_, fun s p i a l l2 r x h hbody hseq hx => ?_⟩
  · obtain ⟨hbody, hlen, hmore, hseg⟩ := hbody
    exact .of_checked rfl ((serves_iff s _ p).mp h).1 (sequenceStore_served h hbody hlen hmore hseg hok rfl)
  · obtain ⟨hseq, hall, hseg⟩ := hseq
    exact .of_checked rfl ((serves_iff s _ p).mp h).1 (sequenceRun_nops h hbody hseq hall hseg rfl)
  · obtain ⟨hseq, hall, hseg⟩ := hseq
    obtain ⟨hans, hrun, hrunSeg, hnoted⟩ := sequenceRun_refused h hbody hseq hall hseg hx rfl
    exact .of_checked rfl ((serves_iff s _ p).mp h).1 ⟨hans, hrun, hrunSeg, hnoted.same.tabs (by decide) (by decide),
      hnoted.same.chg (by decide) (by decide), fun y hy => bare_rd hnoted.bare hy⟩

end Sys2Proof.Machine
end

section
/-! SUPPORT for O56: the timers of sessions, of the lock and of transfers (R55, R59 to R61, R410). -/

namespace Sys2Proof.Machine

/-! ## Sessions that end -/

theorem hid_outside {as : List Nat} (f : Hidden → Hidden) : (hid f).Fixes (State.outside as) := .act fun _ => rfl

theorem putSessions_outside (l : List Session) : (putSessions l).Fixes (State.outside [CMD.STATUS]) :=
  have hwf : ∀ x : FldAt, x.addr = CMD.STATUS → ∀ v, (wf x v).Fixes (State.outside [CMD.STATUS]) := fun _ hx v =>
    .wfOutside v (List.mem_singleton.mpr hx)
  .bind (hid_outside _) fun _ => .read fun _ => .bind (hwf CMD.STATUS.SESSIONS_OPEN rfl _) fun _ =>
    .bind (hwf CMD.STATUS.INTEGRATOR_OPEN rfl _) fun _ => .bind (hwf CMD.STATUS.METROLOGY_OPEN rfl _) fun _ =>
    hwf CMD.STATUS.SEG_ACTIVE rfl _

theorem dropSession_outside (n : Nat) : (dropSession n).Fixes (State.outside [CMD.STATUS]) :=
  .read fun _ => putSessions_outside _

theorem updSession_outside (n : Nat) (f : Session → Session) : (updSession n f).Fixes (State.outside [CMD.STATUS]) :=
  .read fun _ => putSessions_outside _

/-- CMD.STATUS shows whether an integrator's session is open. -/
theorem putSessions_integrator (l : List Session) (s : State) : ((putSessions l).run s).f CMD.STATUS.INTEGRATOR_OPEN =
    b2n (l.any fun y => y.opened && y.auth == authIntegrator) := by
  have hrest : ∀ m k, (do
      wf CMD.STATUS.METROLOGY_OPEN m
      wf CMD.STATUS.SEG_ACTIVE k : M Unit).Fixes fun s => s.f CMD.STATUS.INTEGRATOR_OPEN := fun m k =>
    .bind (.wfApart (by decide) _) fun _ => .wfApart (by decide) _
  have hbit : ∀ b : Bool, b2n b % 2 ^ (CMD.STATUS.INTEGRATOR_OPEN.hi + 1 - CMD.STATUS.INTEGRATOR_OPEN.lo) = b2n b := by
    decide
  have hends : (putSessions l).Ends s fun _ t => t.f CMD.STATUS.INTEGRATOR_OPEN =
      b2n (l.any fun y => y.opened && y.auth == authIntegrator) :=
    .bind (M.does_hid _ s) <| .read <| .bind (M.does_wf _ _ _) <| .bind (M.does_wf _ _ _) <|
      .ofFixes (hrest _ _) fun _ t ht => by
        rw [ht, f_wf_same (by decide), hbit, ← List.any_filter]
        rfl
  exact hends.run

/-- What the end of a session shows. -/
theorem dropSession_shows (n : Nat) (s : State) {t : State} (ht : t = (dropSession n).run s) :
    (t.hid.cmd.sessions = s.hid.cmd.sessions.filter fun y => y.id != n) ∧ t.showsOpen ∧
      t.f CMD.STATUS.INTEGRATOR_OPEN = b2n (t.hid.cmd.sessions.any fun y => y.opened && y.auth == authIntegrator) ∧
      Keeps [CMD.STATUS] [] s t := by
  have hkeeps := Keeps.ofOutside ((dropSession_outside n).run s)
  rw [dropSession_run] at ht hkeeps
  subst ht
  have hsess := putSessions_sessions (s.hid.cmd.sessions.filter fun y => y.id != n) s
  exact ⟨hsess, putSessions_showsOpen .., by rw [hsess]; exact putSessions_integrator .., hkeeps⟩

theorem pendingExpiry_drops {s : State} {n : Nat} {x : Session} (hx : s.session n = some x) (hop : x.opened = false)
    (hat : x.at_ + 5000000 ≤ s.hid.now) : (pendingExpiry n).Does s () ((dropSession n).run s) := by
  refine .read ?_
  simp only [hx]
  exact .ite_pos ⟨by simp [hop], hat⟩ ((foot_dropSession n).does s)

theorem idleTimeout_drops {s : State} {n : Nat} {x : Session} (hx : s.session n = some x) (hop : x.opened = true)
    (hat : x.at_ + 1000000 * s.f CMD.SESSION_CFG.IDLE_TIMEOUT ≤ s.hid.now) :
    (idleTimeout n).Does s () ((dropSession n).run s) := by
  refine .read ?_
  simp only [hx]
  exact .ite_pos ⟨hop, hat⟩ ((foot_dropSession n).does s)

theorem whenAwake_run {m : M Unit} {s t : State} (ha : s.awake = true) (h : m.Does s () t) : (whenAwake m).run s = t :=
  M.Does.run <| .read <| .ite_pos ha h

/-! ## A transfer without a segment -/

/-- The transfer of a session is over, and the session remembers it. -/
def Session.lose (g : Seg) (x : Session) : Session := { x with seg := none, segLost := some g }

theorem segmentTimeout_loses {s : State} {n : Nat} {x : Session} {g : Seg} (hx : s.session n = some x)
    (hg : x.seg = some g) (hat : g.last + 100000 ≤ s.hid.now) {t : State} (ht : t = (segmentTimeout n).run s) :
    t.session n = some { x with seg := none, segLost := some g } ∧ Bumped CMD.STATS.SEG_ABANDONED s t ∧
      Keeps [CMD.STATUS, CMD.STATS] [] s t := by
  have hd : (segmentTimeout n).Does s () ((inc CMD.STATS.SEG_ABANDONED).run ((updSession n (Session.lose g)).run s)) := by
    refine .read ?_
    simp only [hx, hg]
    exact .ite_pos hat <| ((foot_updSession n (Session.lose g)).does s).bind <|
      (M.In.inc 1 _ (by decide) (by decide) : (inc CMD.STATS.SEG_ABANDONED).In [1]).does _
  have hupd := Keeps.ofOutside ((updSession_outside n (Session.lose g)).run s)
  have hinc : Keeps [CMD.STATS] [] ((updSession n (Session.lose g)).run s)
      ((inc CMD.STATS.SEG_ABANDONED).run ((updSession n (Session.lose g)).run s)) :=
    .ofOutside ((M.Fixes.incOutside (x := CMD.STATS.SEG_ABANDONED) (List.mem_singleton.mpr rfl)).run _)
  have hsess : (inc CMD.STATS.SEG_ABANDONED).Fixes fun s => s.hid.cmd.sessions :=
    .read fun _ => .when (wf_cmd _ _)
  rw [hd.run] at ht
  subst ht
  refine ⟨?_, ?_, hupd.trans hinc⟩
  · rw [State.session, hsess.run, ← State.session, session_updSession n (f := Session.lose g) fun _ => rfl, hx]
    rfl
  · have hb := FldAt.Real.bumped (x := CMD.STATS.SEG_ABANDONED) (by decide) ((updSession n (Session.lose g)).run s)
    rwa [Bumped, hupd.f (x := CMD.STATS.SEG_ABANDONED) (by decide) (by decide)] at hb

/-! ## The end of the lockout -/

theorem bit_eq_testBit (n i : Nat) : bit n i = n.testBit i := by
  rw [bit, Nat.testBit_eq_decide_div_mod_eq, Bool.beq_eq_decide_eq]

theorem clrBit_le (n i : Nat) : clrBit n i ≤ n := by
  unfold clrBit
  split
  · exact Nat.sub_le _ _
  · exact le_rfl

/-- A parameter written with one of its bits cleared has it clear. -/
theorem bit_cleared {a : Nat} (i : Nat) (s : State) (h : (regAt a).isSome = true) :
    bit (((Act.reg a (BitVec.ofNat 32 (clrBit (s.rd a).toNat i))).apply s).rd a).toNat i = false := by
  have hlt : clrBit (s.rd a).toNat i < 2 ^ 32 := (clrBit_le _ _).trans_lt (s.rd a).isLt
  have hclr := bit_clrBit (s.rd a).toNat i
  rw [bit_eq_testBit] at hclr ⊢
  rw [rd_apply_reg_same _ _ s h, BitVec.toNat_and, BitVec.toNat_ofNat, Nat.mod_eq_of_lt hlt, Nat.testBit_and, hclr,
    Bool.false_and]

/-- What the lasting state of a source and its events leave: the end of the lockout and CMD.STATUS. -/
def State.lockFace (s : State) := (s.hid.cmd.lockEnd, s.rd CMD.STATUS, s.rd (FLG.LASTING 10))

theorem not_sendReg_of_page {a : Nat} (h : a / 65536 ∉ eventPages) : ¬ SendReg a := by
  rintro (ha | ha | ha | ⟨i, ha⟩ | ⟨n, ha⟩) <;> subst ha
  · exact h (by decide)
  · exact h (by decide)
  · exact h (by decide)
  · rw [CMD.TUNNEL_RX_page] at h; exact h (by decide)
  · rw [BUS.TX_STAT_page] at h; exact h (by decide)

theorem unsent_lockFace : Unsent State.lockFace where
  reg a w ha s := by
    have h10 : ¬ SendReg (FLG.LASTING 10) := not_sendReg_of_page (by decide)
    simp only [State.lockFace, (unsent_cmd CmdSt.lockEnd fun _ _ _ _ _ _ => rfl).reg a w ha s,
      (unsent_rd status_not_sendReg).reg a w ha s, (unsent_rd h10).reg a w ha s]
  hid f hf s := by
    have hl := (unsent_cmd CmdSt.lockEnd fun _ _ _ _ _ _ => rfl).hid f hf s
    simp only [State.lockFace, hl]
    rfl
  que _ _ _ := rfl

theorem wf_lockFace {x : FldAt} (v : Nat) (h : CMD.STATUS ≠ x.addr ∧ FLG.LASTING 10 ≠ x.addr) :
    (wf x v).Fixes State.lockFace :=
  .read fun _ => .act fun s => by
    simp only [State.lockFace, apply_reg_hid, rd_apply_reg_other _ _ _ s h.1, rd_apply_reg_other _ _ _ s h.2]

theorem setLastingSrc_lockFace : setLastingSrc.Fixes State.lockFace :=
  .read fun _ => .bind (wf_lockFace _ (by decide)) fun _ => .read fun _ => .act fun _ => rfl

theorem queueEntry_lockFace (e : FltEntry) (lasting : Bool) : (queueEntry e lasting).Fixes State.lockFace :=
  .read fun _ => .ite (.act fun s => by
      have hrd := fun a => rd_of_regs_eq (apply_fltQueue_regs e lasting s) a
      simp only [State.lockFace, hrd]
      simp only [Act.apply]
      split <;> rfl)
    (.read fun _ => .when (wf_lockFace _ (by decide)))

theorem eventDev_lockFace (op : Nat) (body : List Byte) : (eventDev op body).Fixes State.lockFace :=
  unsent_lockFace.event ..

/-- The lasting occurrence ends; whatever tells of it leaves CMD.STATUS and the end of the lockout. -/
theorem clearLasting_ends (s : State) : (clearLasting 10 0 4).Ends s fun _ t =>
    t.lasting 10 0 = false ∧ t.hid.cmd.lockEnd = s.hid.cmd.lockEnd ∧ t.rd CMD.STATUS = s.rd CMD.STATUS := by
  have hrest : ∀ e : FltEntry, (do
      setLastingSrc
      queueEntry e false
      ledgerEvent e : M Unit).Fixes State.lockFace := fun e =>
    .bind setLastingSrc_lockFace fun _ => .bind (queueEntry_lockFace e false) fun _ => eventDev_lockFace ..
  refine .read ?_
  by_cases hl : s.lasting 10 0 = true
  · refine .ite_pos hl <| .bind (M.does_wr _ _ s) <| .bind (M.does_hid _ _) <| .ofFixes (hrest _) fun _ t ht => ?_
    simp only [State.lockFace, Prod.mk.injEq] at ht
    obtain ⟨hlock, hstatus, hlasting⟩ := ht
    refine ⟨?_, hlock, hstatus.trans (rd_apply_reg_other _ _ _ s (by decide))⟩
    rw [State.lasting, hlasting]
    exact bit_cleared 0 s (by decide)
  · exact .ite_neg hl <| .ofDoes (M.does_pure () s) ⟨by simpa using hl, rfl, rfl⟩

theorem clearLasting_beyond (src inst kind : Nat) : (clearLasting src inst kind).Fixes State.beyond :=
  .read fun _ => .when <| .bind (wr_beyond _ _) fun _ => .bind (hid_beyond _) fun _ => .bind setLastingSrc_beyond fun _ =>
    .bind (queueEntry_beyond _ _) fun _ => event_beyond ..

theorem lockEnd_beyond : Machine.lockEnd.Fixes State.beyond :=
  .read fun _ => .when <| .bind (hid_beyond _) fun _ => .bind (wf_beyond _ _) fun _ =>
    .bind (clearLasting_beyond _ _ _) fun _ => event_beyond ..

theorem lockEnd_ends {s : State} (h : (s.hid.cmd.lockEnd.any fun e => decide (e ≤ s.hid.now)) = true) {t : State}
    (ht : t = Machine.lockEnd.run s) : t.hid.cmd.lockEnd = none ∧ t.f CMD.STATUS.LOCK_REMAIN = 0 ∧
      t.lasting 10 0 = false ∧ Keeps [CMD.STATUS] (0x11 :: eventPages) s t := by
  have hends : Machine.lockEnd.Ends s fun _ t => t.hid.cmd.lockEnd = none ∧ t.f CMD.STATUS.LOCK_REMAIN = 0 ∧
      t.lasting 10 0 = false := by
    obtain ⟨_, u, hd, hlast, hlock, hstatus⟩ := clearLasting_ends
      ((Act.reg CMD.STATUS.LOCK_REMAIN.addr _).apply
        ((Act.hid fun h => { h with cmd := { h.cmd with lockEnd := none } }).apply s))
    refine .read <| .ite_pos h <| .bind (M.does_hid _ s) <| .bind (M.does_wf _ 0 _) <| .bind hd <|
      .ofFixes (eventDev_lockFace ..) fun _ t ht => ?_
    simp only [State.lockFace, Prod.mk.injEq] at ht
    obtain ⟨hlock', hstatus', hlast'⟩ := ht
    refine ⟨?_, ?_, by rw [State.lasting, hlast']; exact hlast⟩
    · rw [hlock', hlock, apply_reg_hid]
      rfl
    · exact (f_of_rd_eq _ (hstatus'.trans hstatus)).trans (f_wf_same (x := CMD.STATUS.LOCK_REMAIN) (by decide) 0 _)
  have hkeeps : Keeps [] (0x11 :: eventPages) s (Machine.lockEnd.run s) :=
    (foot_lockEnd.run s).keeps (lockEnd_beyond.run s) (by decide) (by decide)
  obtain ⟨hlock, hremain, hlast⟩ := hends.run
  subst ht
  exact ⟨hlock, hremain, hlast, hkeeps.mono (List.nil_subset _) (List.Subset.refl _)⟩

end Sys2Proof.Machine
end

section
/-! Statement O56: legacy frames, chip-select frames, and the ends of sessions, lockout and transfers (R55, R59 to R61, R68
to R70). -/

namespace Sys2Proof.Machine

/-! ## Legacy frames -/

theorem setLegacy_outside (r : BitVec 72) (as : List Nat) : (setLegacy r).Fixes (State.outside as) := hid_outside _

theorem setLegacy_result (r : BitVec 72) (s : State) : ((setLegacy r).run s).hid.cmd.legacy = r := rfl

/-- A parameter that a legacy frame reads in a PRESENT island. -/
theorem readWords_legacy {a : Nat} {r : RegSpec} {s : State} (hr : regAt a = some r) (htime : a ≠ BUS.TIME_LO)
    (hp : s.packetMode = false) (hthere : s.addrAbsent a = false) :
    (readWords (legacyCtx false) [a]).Does s ({}, [s.hostRead r a]) s := by
  have hauth : ¬ ((legacyCtx false).session = 0 ∧ (legacyCtx false).auth = 0 ∧ r.readProtected a = true) := fun hc =>
    absurd hc.2.1 (by decide)
  refine .read <| .ite_neg (by simp [State.tunnelClosed, hp]) ?_
  simp only [List.findSome?_cons, List.findSome?_nil, hr, if_neg hauth, List.find?_cons, List.find?_nil, hthere]
  refine .bind (M.Does.mapM (g := fun _ => s.hostRead r a) [a] fun b hb => ?_) (M.does_pure _ s)
  obtain rfl : b = a := by simpa using hb
  refine (readEffect_none htime s).bind <| .read ?_
  simp only [hr]
  exact M.does_pure _ s

theorem legacyAccess_read {a : Nat} {r : RegSpec} {s : State} (hr : regAt a = some r) (htime : a ≠ BUS.TIME_LO)
    (hp : s.packetMode = false) (hthere : s.addrAbsent a = false) (hd : s.dev ≠ 6) (w : Word) :
    (legacyAccess false a w).Does s ({}, s.hostRead r a) s := by
  have hlog := (foot_logViolation (legacyCtx false) {}).does s
  rw [logViolation_unlogged (unlogged_okWith [])] at hlog
  have htail : (do
      logViolation (legacyCtx false) {}
      return ({}, s.hostRead r a) : M (Ans × Word)).Does s ({}, s.hostRead r a) s := hlog.bind (M.does_pure _ s)
  exact .read <| .ite_neg hd <| .ite_neg (by decide) <| (readWords_legacy hr htime hp hthere).bind htail

/-- The frame that reads a parameter leaves its word as the result of the next. -/
theorem legacyFrame_read {a : Nat} {r : RegSpec} {w : Word} {s : State} (ho : s.legacyOpen = true) (ha : a < 2 ^ 24)
    (hr : regAt a = some r) (htime : a ≠ BUS.TIME_LO) (hthere : s.addrAbsent a = false) :
    (legacyFrame (legacyWord (legacyBits false a w))).run s =
      (setLegacy (legacyResult 0x80 a (s.hostRead r a))).run s := by
  obtain ⟨hheld, hsoon, hlink, hpres, hmode, hdev, hgo⟩ := (legacyOpen_iff s).mp ho
  obtain ⟨hbits, haddr, hzero, hdir, hdata⟩ := legacyFrame_fields false w ha rfl
  have hacc := legacyAccess_read hr htime hmode hthere hdev w
  have htail : (do
      setLegacy (legacyResult 0x80 a (s.hostRead r a))
      takeGo : M Unit).Does s () _ :=
    (setLegacy_does _ s).bind (takeGo_none ((setLegacy_go (legacyResult 0x80 a (s.hostRead r a)) s).trans hgo))
  refine M.Does.run <| .read <| .ite_pos (by simp [hheld, hsoon, hlink, hpres, hmode]) ?_
  simp only [hbits, haddr, hzero, hdir, hdata]
  exact .ite_neg (by simp) <| .ite_neg (by simp) <| hacc.bind <| .ite_neg (by simp) htail

theorem legacyBits_read (a : Nat) : legacyBits false a 0 = BitVec.ofNat 64 (a * 2 ^ 32) := by simp [legacyBits, b2n]

/-- A frame whose CRC-8 is wrong is counted, and nothing is read or written. -/
theorem legacyFrame_bad {frame : BitVec 72} {s : State} (ho : s.legacyOpen = true)
    (hbad : legacyWord (BitVec.ofNat 64 (frame.toNat / 256)) ≠ frame) :
    (legacyFrame frame).run s = (setLegacy (legacyResult 0 (frame.toNat / 2 ^ 40 % 16777216) 0)).run
      ((inc CMD.LEGACY_ERR.FRAMES_BAD).run s) := by
  obtain ⟨hheld, hsoon, hlink, hpres, hmode, hdev, hgo⟩ := (legacyOpen_iff s).mp ho
  have hinc : (inc CMD.LEGACY_ERR.FRAMES_BAD).In [1] := M.In.inc 1 _ (by decide) (by decide)
  exact M.Does.run <| .read <| .ite_pos (by simp [*]) <| .ite_pos hbad <| (hinc.does s).bind <| setLegacy_does _ _

/-! ## Chip-select frames -/

/-- A packet clocked out in full leaves the outbound queue. -/
def clockOut (clocked : Nat) (q : OutPkt) : M Unit :=
  if q.bytes.length ≤ clocked then do
    act .spiPop
    setAttn
  else pure ()

/-- A frame without MAGIC, or a truncated one, is counted. -/
def countFrame (mosi : MosiKind) : M Unit :=
  match mosi with
  | .noMagic => inc CMD.RX_ERR.BAD_MAGIC
  | .truncated => inc CMD.RX_ERR.TRUNCATED
  | .complete => pure ()

theorem foot_countFrame (mosi : MosiKind) : (countFrame mosi).In [1] := by
  cases mosi
  · exact M.In.inc 1 CMD.RX_ERR.BAD_MAGIC (by decide) (by decide)
  · exact M.In.inc 1 CMD.RX_ERR.TRUNCATED (by decide) (by decide)
  · exact .pure _

theorem clockOut_long {clocked : Nat} {q : OutPkt} {s : State} (h : q.bytes.length ≤ clocked) :
    (clockOut clocked q).run s = setAttn.run (Act.spiPop.apply s) :=
  M.Does.run <| .ite_pos h <| (M.does_act .spiPop s).bind (foot_setAttn.does _)

theorem clockOut_short {clocked : Nat} {q : OutPkt} {s : State} (h : ¬ q.bytes.length ≤ clocked) :
    (clockOut clocked q).run s = s := M.Does.run <| .ite_neg h <| M.does_pure () s

theorem chipSelect_run {mosi : MosiKind} {clocked : Nat} {q : OutPkt} {s : State} (hheld : s.hid.lcy.held = false)
    (hsoon : s.hid.lcy.resetSoon = false) (hlink : s.linkOpen = true ∧ s.present 10 = true ∧ s.packetMode = true)
    (hq : s.que.spi.head? = some q) :
    (chipSelect mosi clocked).run s = (countFrame mosi).run ((clockOut clocked q).run s) := by
  obtain ⟨hlink, hpres, hmode⟩ := hlink
  obtain ⟨rest, hspi⟩ : ∃ rest, s.que.spi = q :: rest := by
    cases hs : s.que.spi with
    | nil => simp [hs] at hq
    | cons x l => exact ⟨l, by simpa [hs] using hq⟩
  have hcount := (foot_countFrame mosi).does ((clockOut clocked q).run s)
  refine M.Does.run <| .read <| .ite_pos (by simp [hheld, hlink, hpres, hmode]) ?_
  simp only [hspi, hsoon]
  by_cases hc : q.bytes.length ≤ clocked
  · rw [clockOut_long hc] at hcount ⊢
    exact .ite_pos hc <| (M.does_act .spiPop s).bind <| (foot_setAttn.does _).bind <| .ite_pos (by simp) hcount
  · rw [clockOut_short hc] at hcount ⊢
    exact .ite_neg hc <| .ite_pos (by simp) hcount

theorem clockOut_outside (clocked : Nat) (q : OutPkt) (as : List Nat) : (clockOut clocked q).Fixes (State.outside as) :=
  .ite (.bind (.act fun _ => rfl) fun _ => .read fun _ => hid_outside _) (.pure _)

theorem countFrame_outside (mosi : MosiKind) : (countFrame mosi).Fixes (State.outside [CMD.RX_ERR]) := by
  cases mosi
  · exact .incOutside (x := CMD.RX_ERR.BAD_MAGIC) (List.mem_singleton.mpr rfl)
  · exact .incOutside (x := CMD.RX_ERR.TRUNCATED) (List.mem_singleton.mpr rfl)
  · exact .pure _

/-- What a frame leaves of the outbound queue, and what ATTN tells of it (R68, R69). -/
theorem clockOut_shows {clocked : Nat} {q : OutPkt} {s u : State} (hmode : s.packetMode = true)
    (hu : u = (clockOut clocked q).run s) :
    (u.que.spi = if q.bytes.length ≤ clocked then s.que.spi.tail else s.que.spi) ∧
      (u.hid.cmd.attn = if q.bytes.length ≤ clocked then !s.que.spi.tail.isEmpty else s.hid.cmd.attn) := by
  subst hu
  by_cases hc : q.bytes.length ≤ clocked
  · have hmode' : (Act.spiPop.apply s).packetMode = true := hmode
    have hattn : setAttn.run (Act.spiPop.apply s) =
        (Act.hid fun h => { h with cmd := { h.cmd with attn := !s.que.spi.tail.isEmpty } }).apply (Act.spiPop.apply s) :=
      M.Does.run <| .read <| by
        simp only [hmode', if_true]
        exact M.does_hid _ _
    rw [clockOut_long hc, if_pos hc, if_pos hc, hattn]
    exact ⟨rfl, rfl⟩
  · rw [clockOut_short hc, if_neg hc, if_neg hc]
    exact ⟨rfl, rfl⟩

theorem chipSelect_shows {mosi : MosiKind} {clocked : Nat} {q : OutPkt} {s t : State} (hheld : s.hid.lcy.held = false)
    (hsoon : s.hid.lcy.resetSoon = false) (hlink : s.linkOpen = true ∧ s.present 10 = true ∧ s.packetMode = true)
    (hq : s.que.spi.head? = some q) (ht : t = (chipSelect mosi clocked).run s) :
    (t.que.spi = if q.bytes.length ≤ clocked then s.que.spi.tail else s.que.spi) ∧
      ((mosi = .noMagic → Bumped CMD.RX_ERR.BAD_MAGIC s t) ∧ (mosi = .truncated → Bumped CMD.RX_ERR.TRUNCATED s t)) ∧
      (t.hid.cmd.attn = if q.bytes.length ≤ clocked then !s.que.spi.tail.isEmpty else s.hid.cmd.attn) ∧
      Keeps [CMD.RX_ERR] [] s t := by
  rw [chipSelect_run hheld hsoon hlink hq] at ht
  have hout := Keeps.ofOutside ((clockOut_outside clocked q []).run s)
  obtain ⟨hspi, hattn⟩ := clockOut_shows (clocked := clocked) (q := q) hlink.2.2 rfl
  generalize (clockOut clocked q).run s = u at ht hout hspi hattn
  subst ht
  have hcount := (foot_countFrame mosi).run u
  have hkeeps := Keeps.ofOutside ((countFrame_outside mosi).run u)
  have hbad : u.f CMD.RX_ERR.BAD_MAGIC = s.f CMD.RX_ERR.BAD_MAGIC := hout.f (by decide) (by decide)
  have htrunc : u.f CMD.RX_ERR.TRUNCATED = s.f CMD.RX_ERR.TRUNCATED := hout.f (by decide) (by decide)
  refine ⟨(hcount.spi (by decide) (by decide)).trans hspi, ⟨?_, ?_⟩, ?_, hout.trans hkeeps⟩
  · rintro rfl
    have hb := FldAt.Real.bumped (x := CMD.RX_ERR.BAD_MAGIC) (by decide) u
    rwa [Bumped, hbad] at hb
  · rintro rfl
    have hb := FldAt.Real.bumped (x := CMD.RX_ERR.TRUNCATED) (by decide) u
    rwa [Bumped, htrunc] at hb
  · rw [hcount.cmd (by decide) (by decide), hattn]

/-! ## The statement -/

theorem legacyFrame_badShows {frame : BitVec 72} {s t : State} (ho : s.legacyOpen = true)
    (hbad : legacyWord (BitVec.ofNat 64 (frame.toNat / 256)) ≠ frame) (ht : t = (legacyFrame frame).run s) :
    Bumped CMD.LEGACY_ERR.FRAMES_BAD s t ∧ t.hid.cmd.legacy = legacyResult 0 (frame.toNat / 2 ^ 40 % 16777216) 0 ∧
      Keeps [CMD.LEGACY_ERR] [] s t := by
  rw [legacyFrame_bad ho hbad] at ht
  subst ht
  have hinc := Keeps.ofOutside ((M.Fixes.incOutside (as := [CMD.LEGACY_ERR]) (x := CMD.LEGACY_ERR.FRAMES_BAD)
    (List.mem_singleton.mpr rfl)).run s)
  have hset := Keeps.ofOutside ((setLegacy_outside (legacyResult 0 (frame.toNat / 2 ^ 40 % 16777216) 0) []).run
    ((inc CMD.LEGACY_ERR.FRAMES_BAD).run s))
  refine ⟨?_, setLegacy_result _ _, hinc.trans hset⟩
  rw [Bumped, hset.f (x := CMD.LEGACY_ERR.FRAMES_BAD) (by decide) (by decide)]
  exact FldAt.Real.bumped (x := CMD.LEGACY_ERR.FRAMES_BAD) (by decide) s

/-- Settles O56: each timer where its time has passed, each frame by its kind. -/
theorem sessionsAndFramesEnd : Obligations.Sessions_and_frames_end := by
  unfold Obligations.Sessions_and_frames_end
  refine ⟨fun s n x ha hx => ?_, fun s n x ha hx => ?_, fun s ha h => ?_, fun s n x g ha hx => ?_,
    fun s a r ho ha hthere => ?_,
    fun s frame ho hbad => ?_, fun s mosi clocked q hheld hlink hq => ?_⟩
  · obtain ⟨hx, hop, hat⟩ := hx
    refine .of_next rfl ?_
    obtain ⟨hsess, hopen, -, hkeeps⟩ := dropSession_shows n s rfl
    rw [whenAwake_run ha (pendingExpiry_drops hx hop hat)]
    exact ⟨hsess, hopen, hkeeps⟩
  · obtain ⟨hx, hop, hat⟩ := hx
    refine .of_next rfl ?_
    rw [whenAwake_run ha (idleTimeout_drops hx hop hat)]
    exact dropSession_shows n s rfl
  · refine .of_next rfl ?_
    rw [whenAwake_run ha (foot_lockEnd.does s)]
    exact lockEnd_ends h rfl
  · obtain ⟨hx, hg, hat⟩ := hx
    refine .of_next rfl ?_
    rw [whenAwake_run ha ((foot_segmentTimeout n).does s)]
    exact segmentTimeout_loses hx hg hat rfl
  · obtain ⟨ha, hr, htime⟩ := ha
    refine .of_next rfl ?_
    rw [← legacyBits_read, legacyFrame_read ho ha hr htime hthere]
    exact ⟨setLegacy_result _ _, .ofOutside ((setLegacy_outside _ []).run s)⟩
  · exact .of_next rfl (legacyFrame_badShows ho hbad rfl)
  · exact .of_next rfl (chipSelect_shows hheld.1 hheld.2 hlink hq rfl)

end Sys2Proof.Machine
end

section
/-! SUPPORT for O57: packets as bytes, from a frame or from the tunnel, to their execution (R35, R37, R44, R71). -/

namespace Sys2Proof.Machine

/-! ## Bytes that spell a request -/

/-- A request that passes steps 1 to 10 is executed, and its answer follows what the violation log takes. -/
theorem receive_executed {op : Nat} {p : Packet} {svcLow : Option Bool} {s u : State} {a : Ans}
    (ht : s.takes op p = true) (hx : (executeTop (s.ctxOf op p) p svcLow).Does (s.begun op p) a u)
    (ha : ¬ (op = 0xF0 ∧ a.status = stOk ∧ p.scope.toNat = 3)) : (receive op p svcLow).Does s ()
      ((sendAnswer op p (s.replyKey p) a).run ((logViolation (s.ctxOf op p) a).run u)) := by
  have hkept := ht
  simp only [State.takes, Bool.and_eq_true, decide_eq_true_eq, bne_iff_ne, Option.isNone_iff_eq_none] at hkept
  obtain ⟨⟨⟨⟨⟨⟨⟨⟨⟨-, -⟩, hearly⟩, hdev⟩, -⟩, -⟩, -⟩, -⟩, -⟩, -⟩ := hkept
  rw [begun_eq, ← ctxOf_touch] at hx
  have hp := process_does hx ha
  rw [ctxOf_touch, replyKey_touch] at hp
  exact receive_passOn hearly hdev (passOn_taken ht hp)

theorem listens_of_takes {s : State} {op : Nat} {p : Packet} (h : s.takes op p = true) : s.listens p.src = true := by
  simp only [State.takes, Bool.and_eq_true] at h
  obtain ⟨⟨⟨⟨⟨⟨⟨⟨⟨hlis, -⟩, -⟩, -⟩, -⟩, -⟩, -⟩, -⟩, -⟩, -⟩ := h
  exact hlis

theorem go_of_takes {s : State} {op : Nat} {p : Packet} (h : s.takes op p = true) : s.hid.cmd.go = none := by
  simp only [State.takes, Bool.and_eq_true, Option.isNone_iff_eq_none] at h
  exact h.2

theorem src_of_framed {src : Source} {b : List Byte} {op : Nat} {p : Packet} (h : framed src b op p = true) :
    p.src = src := by
  obtain ⟨-, -, -, -, hpkt⟩ := (framed_iff src b op p).mp h
  exact (congrArg (fun r => r.p.src) hpkt).symm

/-- A frame of the SPI port or of the tunnel with right MAGIC, LENGTH and CRC is received. -/
theorem receiveBytes_framed {src : Source} {b : List Byte} {op : Nat} {p : Packet} {s t : State} (hf : framed src b op p = true)
    (hsrc : src = .spi ∨ src = .tunnel) (hl : s.listens src = true) (h : (receive op p none).Does s () t) :
    (receiveBytes src b).Does s () t := by
  obtain ⟨hmagic, hlen, hfull, hcrc, hpkt⟩ := (framed_iff src b op p).mp hf
  refine .read <| .ite_pos hl ?_
  dsimp only
  refine .ite_neg (not_not_intro hmagic) <| .ite_neg (by omega) <| .ite_neg (by omega) <| .ite_neg ?_ <|
    .ite_neg (not_not_intro hcrc) ?_
  · rcases hsrc with rfl | rfl <;> simp
  · rw [hpkt]
    exact h

/-! ## An unknown opcode (R44 step 11) -/

theorem foot_sendTo_spi (r : OutPkt) : (sendTo .spi r).In [33, 43] :=
  M.In.getS.bind fun _ => M.In.ite
    ((M.In.spiReply r (by decide)).bind fun _ => (foot_setAttn.mono (by decide)).bind fun _ => M.In.pure _)
    ((M.In.hid_cmd _ (by decide)).bind fun _ => M.In.pure _)

/-- A reply over the SPI port reaches neither the networks nor their page. -/
theorem foot_sendReply_spi {p : Packet} (hsrc : p.src = .spi) (key : Option (List Byte)) (r : OutPkt) :
    (sendReply p key r).In [1, 33, 43] := by
  refine M.In.ite (M.In.ite (M.In.wf 1 _ _ (by decide) (by decide)) (M.In.pure ())) ?_
  refine M.In.forM (fun i => ?_) _
  rw [hsrc]
  exact ((foot_sendTo_spi _).mono (by decide)).bind fun _ => M.In.pure _

theorem unlogged_unknown : (refuse 0x0105 0x80000006).Unlogged := fun h => absurd h.2 (by decide)

/-- A request of no known opcode is refused, and the log does not take it. -/
theorem unknownOpcode_executed {op : Nat} {p : Packet} (s : State) (hk : op ∉ knownOps) :
    ∃ u, (executeTop (s.ctxOf op p) p none).Does (s.begun op p) (refuse 0x0105 0x80000006) u ∧ Bookkept s u := by
  have hacc : accessBad (s.ctxOf op p) p (bodyOf p) = some (refuse 0x0105 0x80000006) := if_pos (by simp [hk, State.ctxOf])
  obtain ⟨u, hd, hu⟩ := execute_accessBad none (s := s.begun op p) hacc
  exact ⟨u, executeTop_does (by simp [hacc]) hd, (begun_bookkept s op p).trans hu⟩

theorem unknownOpcode_refused {bytes : List Byte} {op : Nat} {p : Packet} {s t : State}
    (hf : framed .spi bytes op p = true) (ht : s.takes op p = true) (hk : op ∉ knownOps)
    (hrun : t = M.run (do
      receiveBytes .spi bytes
      takeGo) s) : Answered op p (refuse 0x0105 0x80000006) s t ∧ Keeps [] [0x01] s t := by
  have hsrc := src_of_framed hf
  have hlis := listens_of_takes ht
  obtain ⟨u, hd, hu⟩ := unknownOpcode_executed (p := p) s hk
  have hr := receive_executed (svcLow := none) ht hd fun hc => absurd hc.2.1 (by decide)
  rw [logViolation_unlogged unlogged_unknown] at hr
  obtain ⟨w, hw, hsend⟩ := sendAnswer_run op p (s.replyKey p) (refuse 0x0105 0x80000006) u
  have hbook := hu.trans hw
  rw [hsend] at hr
  have hsame := (hbook.same.mono (by decide)).trans
    ((foot_sendReply_spi hsrc (s.replyKey p) (replyPkt op p (refuse 0x0105 0x80000006))).run w)
  have hbare := ((sendReply_link p (s.replyKey p) (replyPkt op p (refuse 0x0105 0x80000006))).bare.run w).trans hbook.bare
  rw [hsrc] at hlis
  have hdone : (do
      receiveBytes .spi bytes
      takeGo : M Unit).Does s () _ :=
    (receiveBytes_framed hf (.inl rfl) hlis hr).bind (takeGo_none ((bare_go hbare).trans (go_of_takes ht)))
  rw [hdone.run] at hrun
  subst hrun
  refine ⟨answered_of_sent (present_of_listens hlis) (present_of_bare hbook.bare 10)
    (hbook.same.spi (by decide) (by decide)), hsame.keeps (funext fun a => ?_) (by decide) (by decide)⟩
  exact bare_rd hbare (by simp only [eventPages, List.mem_cons, List.not_mem_nil, or_false]; omega)

end Sys2Proof.Machine
end

section
/-! SUPPORT for O57: what of the state a request is checked by, where only CMD.TUNNEL_CTL and the result of a legacy frame
have moved; a NOP in the tunnel (R44, R71). -/

namespace Sys2Proof.Machine

/-- CMD.TUNNEL_CTL, the result of a legacy frame and the accepted GO alone have moved, and no GO is left. -/
structure CtlMoved (s u : State) : Prop where
  rd : ∀ a, a ≠ CMD.TUNNEL_CTL → u.rd a = s.rd a
  tabs : u.tabs = s.tabs
  que : u.que = s.que
  pending : u.pending = s.pending
  hid : ∃ r, u.hid = { s.hid with cmd := { s.hid.cmd with legacy := r, go := none } }

section
variable {s u : State} (h : CtlMoved s u)
include h

theorem CtlMoved.f {x : FldAt} (hx : x.addr ≠ CMD.TUNNEL_CTL) : u.f x = s.f x := f_of_rd_eq x (h.rd _ hx)

theorem CtlMoved.cmd {β : Type} (φ : Hidden → β)
    (hφ : ∀ x r, φ { x with cmd := { x.cmd with legacy := r, go := none } } = φ x) : φ u.hid = φ s.hid := by
  obtain ⟨r, hr⟩ := h.hid
  rw [hr, hφ]

theorem CtlMoved.go : u.hid.cmd.go = none := by
  obtain ⟨r, hr⟩ := h.hid
  rw [hr]

theorem CtlMoved.present (n : Nat) : u.present n = s.present n := by
  have hne : (SYS.ISLAND.STATE n).addr ≠ CMD.TUNNEL_CTL := fun hc => by
    have hpage := SYS.ISLAND_page n
    rw [show SYS.ISLAND n = CMD.TUNNEL_CTL from hc] at hpage
    exact absurd hpage (by decide)
  simp only [State.present, h.f hne]

theorem CtlMoved.executorHeld : u.executorHeld = s.executorHeld ∧ u.executorChord = s.executorChord := by
  have hchd : ∀ n, u.chd n = s.chd n := fun n => by
    unfold State.chd
    split <;> exact h.f (by decide)
  have hheld := h.cmd (fun x => (x.cmd.run, x.lcy.resetSoon)) fun _ _ => rfl
  obtain ⟨hrun, hsoon⟩ := Prod.ext_iff.mp hheld
  simp only at hrun hsoon
  simp only [State.executorHeld, State.executorChord, State.worker, hchd, hrun, hsoon, and_self]

theorem CtlMoved.openSession (p : Packet) : u.openSession p = s.openSession p := by
  have hsess := h.cmd (fun x => x.cmd.sessions) fun _ _ => rfl
  simp only [State.openSession, State.session, hsess]

theorem CtlMoved.listens : u.listens .tunnel = s.listens .tunnel := by
  have hlcy := h.cmd (fun x => (x.lcy.held, x.lcy.resetSoon)) fun _ _ => rfl
  obtain ⟨hheld, hsoon⟩ := Prod.ext_iff.mp hlcy
  simp only at hheld hsoon
  simp only [State.listens, State.linkOpen, State.packetMode, State.dev, hheld, hsoon, h.present,
    h.f (x := SYS.STATUS.DEV_STATE) (by decide), h.f (x := SYS.STATUS.HOSTMODE) (by decide)]

/-- A request in the tunnel passes steps 5 to 10 as before. -/
theorem CtlMoved.takes {op : Nat} {p : Packet} (hsrc : p.src = .tunnel) (ht : s.takes op p = true) : u.takes op p = true := by
  have hcmd := h.cmd (fun x => (x.cmd.sessions, x.cmd.waiting, x.cmd.tunnelWait)) fun _ _ => rfl
  obtain ⟨hsess, hwaiting, htunnel⟩ : u.hid.cmd.sessions = s.hid.cmd.sessions ∧ u.hid.cmd.waiting = s.hid.cmd.waiting ∧
      u.hid.cmd.tunnelWait = s.hid.cmd.tunnelWait := by simpa using hcmd
  have hdev : u.dev = s.dev := h.f (x := SYS.STATUS.DEV_STATE) (by decide)
  have hok : u.sessionOk op p = s.sessionOk op p := by
    simp only [State.sessionOk, State.session, hsess, h.openSession]
  have htag : u.tagBad op p = s.tagBad op p := by
    simp only [State.tagBad, State.needsAuth, h.openSession, h.f (x := CMD.SESSION_CFG.AUTH_SPI) (by decide)]
  obtain ⟨hheld, hchord⟩ := h.executorHeld
  have hgo : u.hid.cmd.go.isNone = s.hid.cmd.go.isNone := by rw [h.go, go_of_takes ht]
  have heq : u.takes op p = s.takes op p := by
    simp only [State.takes, hsrc, h.listens, hdev, hok, htag, h.openSession, hwaiting, htunnel, hheld, hchord, h.present,
      hgo]
  exact heq.trans ht

/-- The sessions when execution begins. -/
theorem CtlMoved.begun_session (op : Nat) (p : Packet) (n : Nat) : (u.begun op p).session n = (s.begun op p).session n := by
  have hsess := h.cmd (fun x => x.cmd.sessions) fun _ _ => rfl
  have htouch : Session.touch u = Session.touch s := by
    funext x
    simp only [Session.touch, h.cmd Hidden.now fun _ _ => rfl]
  have hbegun : ∀ v : State, (v.begun op p).hid.cmd.sessions = ((v.touchSession p).run v).hid.cmd.sessions := fun v => by
    have hbusy : (startBusy op).Fixes fun s => s.hid.cmd.sessions := .when (wf_cmd _ _)
    rw [begun_eq, hbusy.run]
  have hrun : ((u.touchSession p).run u).hid.cmd.sessions = ((s.touchSession p).run s).hid.cmd.sessions := by
    by_cases h0 : p.session = 0
    · simp only [State.touchSession, h0, ne_eq, not_true_eq_false, if_false]
      exact hsess
    · simp only [State.touchSession, if_pos h0, updSession_sessions, hsess, htouch]
  simp only [State.session, hbegun, hrun]

end

/-! ## A NOP passes every check again -/

theorem checksBad_nop_congr {c : Ctx} (hc : c.op = 0) (p : Packet) (body : List Byte) (s u : State) (g g' : Option Seg) :
    u.checksBad c p body g = s.checksBad c p body g' := by
  have hwrong : ∀ v : State, v.wrongNow c.auth 0 p body = none := fun v => by simp [State.wrongNow, recoveryOps]
  simp only [State.checksBad, State.stateBad, hc, hwrong, sizeBad, wantSize]
  simp

theorem CtlMoved.serves_nop {s u : State} (h : CtlMoved s u) {p : Packet} (hsrc : p.src = .tunnel)
    (hs : s.serves 0 p = true) : u.serves 0 p = true := by
  obtain ⟨hwf, ht, -, hseg, hchk⟩ := (serves_iff s 0 p).mp hs
  have htrans : srcCode p.src = 2 := by rw [hsrc]; rfl
  have hctx : u.ctxOf 0 p = s.ctxOf 0 p := by simp only [State.ctxOf, h.openSession]
  have hbreak : (u.begun 0 p).segBreak (s.ctxOf 0 p) p = (s.begun 0 p).segBreak (s.ctxOf 0 p) p := by
    have h2 : ¬ (s.ctxOf 0 p).transport = 0x30 := fun hc => absurd (htrans.symm.trans hc) (by decide)
    simp only [State.segBreak, State.segOf, if_neg h2, h.begun_session]
  refine (serves_iff u 0 p).mpr ⟨hwf, h.takes hsrc ht, accessBad_nop rfl _ _, ?_, ?_⟩
  · rw [hctx, hbreak, hseg]
  · rw [hctx, checksBad_nop_congr rfl p _ (s.begun 0 p) (u.begun 0 p) _ _, hchk]

/-! ## What a request leaves before its reply -/

theorem wf_outsideStatus {x : FldAt} (v : Nat) (hx : x.addr = CMD.STATUS) : (wf x v).Fixes (State.outside [CMD.STATUS]) :=
  .wfOutside v (List.mem_singleton.mpr hx)

theorem beforeReply_outside (c : Ctx) (op : Nat) (p : Packet) (a : Ans) (g : Option Seg) :
    (beforeReply c op p a g).Fixes (State.outside [CMD.STATUS]) :=
  .bind (.read fun _ => .when (.ite (hid_outside _) (updSession_outside ..))) fun _ =>
    .bind (.when (updSession_outside ..)) fun _ => .read fun _ => wf_outsideStatus _ rfl

theorem serving_outside (s : State) (op : Nat) (p : Packet) :
    (s.serving op p).outside [CMD.STATUS] = s.outside [CMD.STATUS] := by
  have htouch : (s.touchSession p).Fixes (State.outside [CMD.STATUS]) := .when (updSession_outside ..)
  have hbusy : (startBusy op).Fixes (State.outside [CMD.STATUS]) := .when (wf_outsideStatus _ rfl)
  have hlost : (clearLost (s.ctxOf op p)).Fixes (State.outside [CMD.STATUS]) := by
    refine .read fun s => ?_
    split
    · exact .when (updSession_outside ..)
    · exact .pure _
  rw [State.serving, hlost.run, begun_eq, hbusy.run, htouch.run]

/-- A NOP that passes every check: only CMD.STATUS and the sessions move before its reply is sent. -/
theorem receive_nop {s : State} {p : Packet} (h : s.serves 0 p = true) : ∃ w, Keeps [CMD.STATUS] [] s w ∧ Bookkept s w ∧
    w.hid.cmd.tunnelWait = s.hid.cmd.tunnelWait ∧
    (receive 0 p none).Does s () ((sendReply p (s.replyKey p) (replyPkt 0 p {})).run w) := by
  obtain ⟨-, ht, hacc, hseg, hchk⟩ := (serves_iff s 0 p).mp h
  have hx := executeTop_does (svcLow := none) (fun hc => absurd hc.1 (show (0 : Nat) ≠ 0x91 by decide))
    (execute_handled hacc hseg hchk (handle_nop rfl _ _ _ none _))
  have hr := receive_executed ht hx fun hc => absurd hc.1 (by decide)
  have hbefore : (beforeReply (s.ctxOf 0 p) 0 p {} none).Does (s.serving 0 p) () _ :=
    ((foot_putSeg _ none).does _).bind <| ((foot_keepReply 0 p _).does _).bind <| foot_showBusy.does _
  have hout := ((beforeReply_outside (s.ctxOf 0 p) 0 p {} none).run (s.serving 0 p)).trans (serving_outside s 0 p)
  have hbook := (serving_bookkept s 0 p).trans (beforeReply_bookkept (s.ctxOf 0 p) 0 p {} none (s.serving 0 p))
  have hwait := ((beforeReply_cmd (φ := CmdSt.tunnelWait) (fun _ _ => rfl) (fun _ _ => rfl) (s.ctxOf 0 p) 0 p {} none).run
    (s.serving 0 p)).trans (serving_cmd (fun _ _ => rfl) s 0 p)
  rw [logViolation_unlogged (unlogged_okWith []), sendAnswer_eq] at hr
  rw [hbefore.run] at hout hbook hwait
  exact ⟨_, .ofOutside hout, hbook, hwait, hr⟩

end Sys2Proof.Machine
end

section
/-! SUPPORT for O57: the placing of a packet in CMD.TUNNEL_RX (R71). -/

namespace Sys2Proof.Machine

/-! ## The words of a packet -/

theorem wordsOf_getElem? : ∀ (bs : List Byte) (n : Nat), 4 * n + 4 ≤ bs.length →
    (wordsOf bs)[n]? = some (BitVec.ofNat 32 (leAt bs (4 * n) 4))
  | a :: b :: c :: d :: r, 0, _ => by simp [wordsOf, leAt, List.range_succ]
  | a :: b :: c :: d :: r, n + 1, h => by
    have hrest := wordsOf_getElem? r n (by simp only [List.length_cons] at h; omega)
    have hat : leAt (a :: b :: c :: d :: r) (4 * (n + 1)) 4 = leAt r (4 * n) 4 := by
      have hget : ∀ i, (a :: b :: c :: d :: r).getD (4 * (n + 1) + i) 0 = r.getD (4 * n + i) 0 := fun i => by
        rw [show 4 * (n + 1) + i = 4 * n + i + 1 + 1 + 1 + 1 by omega]
        simp only [List.getD_cons_succ]
      simp only [leAt, hget]
    rw [hat, ← hrest]
    rfl
  | [], n, h | [_], n, h | [_, _], n, h | [_, _, _], n, h => by
    simp only [List.length_cons, List.length_nil] at h
    omega

theorem wordsOf_length : ∀ bs : List Byte, (wordsOf bs).length = (bs.length + 3) / 4
  | a :: b :: c :: d :: r => by
    have hrest := wordsOf_length r
    simp only [wordsOf, List.length_cons, hrest]
    omega
  | [] | [_] | [_, _] | [_, _, _] => by simp [wordsOf]

theorem tunnelRx_inj {m n : Nat} (hn : n < 1029) (h : CMD.TUNNEL_RX m = CMD.TUNNEL_RX n) : m = n := by
  unfold CMD.TUNNEL_RX arr at h
  split_ifs at h <;> omega

/-- The first words of CMD.TUNNEL_RX take whatever is written. -/
theorem tunnelRx_all (n : Fin 7) :
    (regAt (CMD.TUNNEL_RX n)).isSome = true ∧ implMask (CMD.TUNNEL_RX n) = BitVec.allOnes 32 := by
  revert n
  decide +kernel

/-- Words are placed at their indices. -/
def placeWords (l : List (Word × Nat)) : M Unit := l.forM fun x => wr (CMD.TUNNEL_RX x.2) x.1

theorem placeWords_cons (x : Word × Nat) (l : List (Word × Nat)) (s : State) : (placeWords (x :: l)).run s =
    (placeWords l).run ((Act.reg (CMD.TUNNEL_RX x.2) x.1).apply s) := by
  have hrest : (placeWords l).In [1] := .forM (fun x => M.In.wr 1 _ _ (CMD.TUNNEL_RX_page _) (by decide)) l
  have hd : (placeWords (x :: l)).Does s () _ := (M.does_wr _ _ s).bind (hrest.does _)
  exact hd.run

theorem placeWords_other {a : Nat} : ∀ (l : List (Word × Nat)) (s : State), (∀ x ∈ l, CMD.TUNNEL_RX x.2 ≠ a) →
    ((placeWords l).run s).rd a = s.rd a
  | [], _, _ => rfl
  | x :: l, s, h => by
    rw [placeWords_cons, placeWords_other l _ fun y hy => h y (List.mem_cons_of_mem _ hy)]
    exact rd_apply_reg_other _ _ _ s (h x (List.mem_cons_self ..)).symm

/-- The words from index `k` on, and none before it. -/
theorem placeWords_rd : ∀ (ws : List Word) (k m : Nat) (s : State), k + ws.length ≤ 7 → ws.length ≤ m →
    ∀ i w, ws[i]? = some w → ((placeWords (ws.zip (List.range' k m))).run s).rd (CMD.TUNNEL_RX (k + i)) = w
  | [], _, _, _, _, _, _, _, h => by simp at h
  | v :: ws, k, 0, _, _, hm, _, _, _ => by simp at hm
  | v :: ws, k, m + 1, s, hk, hm, i, w, h => by
    simp only [List.length_cons] at hk hm
    rw [List.range'_succ, List.zip_cons_cons, placeWords_cons]
    cases i with
    | zero =>
      obtain rfl : v = w := by simpa using h
      have hlater : ∀ x ∈ ws.zip (List.range' (k + 1) m), CMD.TUNNEL_RX x.2 ≠ CMD.TUNNEL_RX (k + 0) := fun x hx hc => by
        have hmem := List.mem_range'_1.mp (List.of_mem_zip hx).2
        have := tunnelRx_inj (by omega) hc
        omega
      rw [placeWords_other _ _ hlater]
      obtain ⟨hmap, hmask⟩ := tunnelRx_all ⟨k, by omega⟩
      rw [Nat.add_zero, rd_apply_reg_same _ _ _ hmap, hmask, BitVec.and_allOnes]
    | succ i =>
      have hrest := placeWords_rd ws (k + 1) m ((Act.reg (CMD.TUNNEL_RX k) v).apply s)
        (by omega) (by omega) i w (by simpa using h)
      rwa [show k + 1 + i = k + (i + 1) by omega] at hrest

/-! ## What CMD.TUNNEL_CTL tells -/

theorem foot_placeWords (l : List (Word × Nat)) : (placeWords l).In [1] :=
  .forM (fun _ => M.In.wr 1 _ _ (CMD.TUNNEL_RX_page _) (by decide)) l

/-- What the placing of a packet shows. -/
structure Placed (q : OutPkt) (s t : State) : Prop where
  valid : t.f CMD.TUNNEL_CTL.RX_VALID = 1
  len : t.f CMD.TUNNEL_CTL.RX_LEN = q.bytes.length % 8192
  busy : q.first = true → t.f CMD.TUNNEL_CTL.BUSY = 0
  words : ∀ n < 7, q.bytes.length = 28 → t.rd (CMD.TUNNEL_RX n) = BitVec.ofNat 32 (leAt q.bytes (4 * n) 4)
  wait : t.hid.cmd.tunnelWait = s.hid.cmd.tunnelWait
  bare : t.bare = s.bare
  keeps : Keeps [] [0x01] s t

/-- The end of a placing: BUSY goes with the first packet of a reply, and ATTN follows. -/
def endPlacing (q : OutPkt) : M Unit := do
  if q.first then wf CMD.TUNNEL_CTL.BUSY 0
  setAttn

theorem setAttn_rd (a : Nat) : setAttn.Fixes fun s => s.rd a := .read fun _ => .act fun _ => rfl

theorem setAttn_f (x : FldAt) : setAttn.Fixes fun s => s.f x := .read fun _ => .act fun _ => rfl

theorem endPlacing_f (q : OutPkt) {x : FldAt} (h : x.Apart CMD.TUNNEL_CTL.BUSY) : (endPlacing q).Fixes fun s => s.f x :=
  .thenMore (.wfApart h _) fun _ => setAttn_f x

theorem endPlacing_rd (q : OutPkt) {a : Nat} (h : a ≠ CMD.TUNNEL_CTL) : (endPlacing q).Fixes fun s => s.rd a :=
  .thenMore (.read fun _ => .act fun s => rd_apply_reg_other _ _ _ s h) fun _ => setAttn_rd a

theorem foot_endPlacing (q : OutPkt) : (endPlacing q).In [1, 43] := by
  have hbusy : (wf CMD.TUNNEL_CTL.BUSY 0).In [1, 43] := M.In.wf 1 CMD.TUNNEL_CTL.BUSY 0 (by decide) (by decide)
  have hattn : setAttn.In [1, 43] := foot_setAttn.mono (by decide)
  unfold endPlacing
  exact M.In.ite (hbusy.bind fun _ => hattn) hattn

theorem endPlacing_busy {q : OutPkt} (h : q.first = true) (s : State) :
    ((endPlacing q).run s).f CMD.TUNNEL_CTL.BUSY = 0 := by
  have hends : (endPlacing q).Ends s fun _ t => t.f CMD.TUNNEL_CTL.BUSY = 0 := by
    refine .ite_pos h <| .bind (M.does_wf _ _ s) <| .ofFixes (setAttn_f CMD.TUNNEL_CTL.BUSY) fun _ t ht => ?_
    rw [ht]
    exact f_wf_same (x := CMD.TUNNEL_CTL.BUSY) (by decide) 0 s
  exact hends.run

theorem placeTunnel_run (q : OutPkt) (s : State) : (placeTunnel q).run s =
    (endPlacing q).run ((wf CMD.TUNNEL_CTL.RX_VALID 1).run ((wf CMD.TUNNEL_CTL.RX_LEN q.bytes.length).run
      ((placeWords ((wordsOf q.bytes).zip (List.range 1029))).run s))) := by
  have hplace := (foot_placeWords ((wordsOf q.bytes).zip (List.range 1029))).does s
  have hwf : ∀ (x : FldAt) (v : Nat) (u : State), (wf x v).Does u () ((wf x v).run u) := fun x v u => M.does_wf x v u
  have hend := fun u => (foot_endPlacing q).does u
  generalize (placeWords ((wordsOf q.bytes).zip (List.range 1029))).run s = u at hplace ⊢
  refine M.Does.run (M.Does.bind hplace ?_)
  exact (hwf CMD.TUNNEL_CTL.RX_LEN _ _).bind <| (hwf CMD.TUNNEL_CTL.RX_VALID _ _).bind (hend _)

theorem wf_run (x : FldAt) (v : Nat) (s : State) :
    (wf x v).run s = (Act.reg x.addr (withBits (s.rd x.addr) x.hi x.lo v)).apply s := rfl

theorem wf_rd_other (x : FldAt) {a : Nat} (h : a ≠ x.addr) (v : Nat) (s : State) : ((wf x v).run s).rd a = s.rd a :=
  rd_apply_reg_other _ _ _ s h

theorem tunnelRx_ne_ctl (n : Nat) : CMD.TUNNEL_RX n ≠ CMD.TUNNEL_CTL := by
  unfold CMD.TUNNEL_RX arr CMD.TUNNEL_CTL
  split <;> omega

theorem placeTunnel_placed (q : OutPkt) (s : State) : Placed q s ((placeTunnel q).run s) := by
  have hbare := (placeTunnel_link q).bare.run s
  have hkeeps : Keeps [] [0x01] s ((placeTunnel q).run s) :=
    ((foot_placeTunnel q).run s).keeps ((placeTunnel_link q).bare.beyondOfBare.run s) (by decide) (by decide)
  rw [placeTunnel_run] at hbare hkeeps ⊢
  refine ⟨?_, ?_, fun hq => endPlacing_busy hq _, fun n hn hlen => ?_, ?_, hbare, hkeeps⟩
  · rw [(endPlacing_f q (x := CMD.TUNNEL_CTL.RX_VALID) (by decide)).run, wf_run CMD.TUNNEL_CTL.RX_VALID]
    exact f_wf_same (x := CMD.TUNNEL_CTL.RX_VALID) (by decide) 1 _
  · rw [(endPlacing_f q (x := CMD.TUNNEL_CTL.RX_LEN) (by decide)).run, wf_run CMD.TUNNEL_CTL.RX_VALID,
      f_wf_apart (by decide)]
    exact f_wf_same (x := CMD.TUNNEL_CTL.RX_LEN) (by decide) _ _
  · have hne := tunnelRx_ne_ctl n
    have hrange : List.range 1029 = List.range' 0 1029 := List.range_eq_range'
    have hword := wordsOf_getElem? q.bytes n (by omega)
    have hcount := wordsOf_length q.bytes
    have hrd := placeWords_rd (wordsOf q.bytes) 0 1029 s (by omega) (by omega) n _ hword
    rw [(endPlacing_rd q hne).run, wf_rd_other CMD.TUNNEL_CTL.RX_VALID hne, wf_rd_other CMD.TUNNEL_CTL.RX_LEN hne, hrange]
    rwa [Nat.zero_add] at hrd
  · have hwf : ∀ (x : FldAt) (v : Nat), (wf x v).Fixes fun s => s.hid.cmd.tunnelWait := fun x v => wf_cmd x v
    have hattn : setAttn.Fixes fun s => s.hid.cmd.tunnelWait := .read fun _ => .act fun _ => rfl
    have hend : (endPlacing q).Fixes fun s => s.hid.cmd.tunnelWait := .thenMore (hwf _ _) fun _ => hattn
    rw [hend.run, (hwf _ _).run, (hwf _ _).run, ((foot_placeWords _).run s).cmd (by decide) (by decide)]

end Sys2Proof.Machine
end

section
/-! Statement O57: the tunnel carries a packet and its reply (R71), and an unknown opcode is refused (R44). -/

namespace Sys2Proof.Machine

/-! ## A legacy frame that writes one word -/

theorem writeWords_one {c : Ctx} {a : Nat} {r : RegSpec} {x : Word} {s t : State} (hr : regAt a = some r)
    (hshadow : s.shadowTb a = none) (h : s.writable c [(a, x)] = true) (hw : (writeWord c [a] a x).Does s () t) :
    (writeWords c [(a, x)]).Does s {} t := by
  obtain ⟨hcheck, hthere, hrefuse, hfail⟩ := (writable_one hr _ _ _).mp h
  have hhere : [(a, x)].takeWhile (fun y => !s.addrAbsent y.1) = [(a, x)] := by simp [hthere]
  have hstrobe : (meetStrobe []).Does s () s := .read <| .ite_neg (by simp) <| M.does_pure () s
  have hwrite : ([(a, x)].forM fun y => writeWord c [a] y.1 y.2).Does s () t := hw.bind (M.does_pure () _)
  refine .read ?_
  simp only [hcheck, hhere, hr, List.findSome?_cons, List.findSome?_nil, hrefuse, List.flatMap_cons, List.flatMap_nil,
    List.append_nil, hfail, List.filterMap_cons, List.filterMap_nil, hshadow, List.map_cons, List.map_nil]
  exact hstrobe.bind <| hwrite.bind <| M.does_pure _ _

/-- A write that passes every check has its effect, leaves its result, and the GO it may have accepted is taken. -/
theorem legacyFrame_writes {a : Nat} {x : Word} {s t : State} (ha : a < 2 ^ 24) (ho : s.legacyOpen = true)
    (hw : (writeWords (legacyCtx true) [(a, x)]).Does s {} t) {v : State}
    (hv : takeGo.Does ((setLegacy (legacyResult 0x80 a 0)).run t) () v) : (legacyFrame (legacyWrite a x)).run s = v := by
  obtain ⟨hheld, hsoon, hlink, hpres, hmode, hdev, -⟩ := (legacyOpen_iff s).mp ho
  obtain ⟨hbits, haddr, hzero, hdir, hdata⟩ := legacyFrame_fields true x ha rfl
  have hlog := (foot_logViolation (legacyCtx true) {}).does t
  rw [logViolation_unlogged (unlogged_okWith [])] at hlog
  have hacc : (legacyAccess true a x).Does s ({}, 0) t :=
    .read <| .ite_neg hdev <| .ite_pos rfl <| (hw.map _).bind <| hlog.bind <| M.does_pure _ _
  rw [legacyWrite_eq x ha]
  refine M.Does.run <| .read <| .ite_pos (by simp [hheld, hsoon, hlink, hpres, hmode]) ?_
  simp only [hbits, haddr, hzero, hdir, hdata]
  exact .ite_neg (by simp) <| .ite_neg (by simp) <| hacc.bind <| .ite_neg (by simp) <| (setLegacy_does _ _).bind hv

/-! ## CMD.TUNNEL_CTL -/

/-- No bit of CMD.TUNNEL_CTL is stored by a write: it only has its effects. -/
theorem tunnelCtl_spec : ∃ r, regAt CMD.TUNNEL_CTL = some r ∧ r.name = .CMD_TUNNEL_CTL ∧ r.rws = 0 ∧
    ∀ v old, storedWord r v old = old := by
  refine ⟨_, rfl, rfl, rfl, fun v old => ?_⟩
  have hafter : (v &&& 0#32 ||| old &&& ~~~0#32) &&& ~~~(v &&& 0#32) = old := by
    simp only [BitVec.and_zero, BitVec.zero_or, BitVec.not_zero, BitVec.and_allOnes]
  exact hafter

/-- Writing a parameter as it is. -/
def rewriteCtl (s : State) : State := (Act.reg CMD.TUNNEL_CTL (s.rd CMD.TUNNEL_CTL)).apply s

/-- What a write of CMD.TUNNEL_CTL does: it accepts a GO, and it takes an RX_ACK. -/
def ctlEffect (v : Word) : M Unit := do
  if bitsOf v 31 31 = 1 then
    wf CMD.TUNNEL_CTL.BUSY 1
    hid fun h => { h with cmd := { h.cmd with go := some (bitsOf v 12 0) } }
  if bitsOf v 30 30 = 1 then rxAck

theorem writeWord_ctl {c : Ctx} {all : List Nat} {v : Word} {s t : State} (h : (ctlEffect v).Does (rewriteCtl s) () t) :
    (writeWord c all CMD.TUNNEL_CTL v).Does s () t := by
  obtain ⟨r, hr, hname, hrws, hstored⟩ := tunnelCtl_spec
  have heffect : (writeEffect all r CMD.TUNNEL_CTL v (s.rd CMD.TUNNEL_CTL)).Does (rewriteCtl s) () t := by
    refine .read ?_
    simp only [hname]
    exact h
  unfold writeWord
  simp only [hr]
  refine .ite_neg (by simp [hname]) <| (M.does_rd _ s).bind <| ?_
  rw [hstored]
  exact (M.does_wr _ _ s).bind <| heffect.bind <| (M.does_rd _ _).bind <| .ite_neg (by simp [hrws]) <| M.does_pure () _

/-- A legacy frame that writes CMD.TUNNEL_CTL and passes every check. -/
theorem legacyFrame_ctl {v : Word} {s t u : State} (h : s.accepts .legacy [(CMD.TUNNEL_CTL, v)] = true)
    (ht : (ctlEffect v).Does (rewriteCtl s) () t)
    (hu : takeGo.Does ((setLegacy (legacyResult 0x80 CMD.TUNNEL_CTL 0)).run t) () u) :
    (legacyFrame (legacyWrite CMD.TUNNEL_CTL v)).run s = u := by
  simp only [State.accepts, Bool.and_eq_true] at h
  obtain ⟨⟨-, ho⟩, hw⟩ := h
  obtain ⟨r, hr, hname, -⟩ := tunnelCtl_spec
  have hshadow : s.shadowTb CMD.TUNNEL_CTL = none := by simp only [State.shadowTb, hr, hname]
  exact legacyFrame_writes (by decide) ho (writeWords_one hr hshadow hw (writeWord_ctl ht)) hu

theorem rewriteCtl_outside (s : State) : (rewriteCtl s).outside [CMD.TUNNEL_CTL] = s.outside [CMD.TUNNEL_CTL] :=
  (M.Fixes.wrOutside (s.rd CMD.TUNNEL_CTL) (List.mem_singleton.mpr rfl)).run s

theorem rewriteCtl_hid (s : State) : (rewriteCtl s).hid = s.hid := apply_reg_hid ..

theorem wf_outsideCtl {x : FldAt} (v : Nat) (hx : x.addr = CMD.TUNNEL_CTL) : (wf x v).Fixes (State.outside [CMD.TUNNEL_CTL]) :=
  .wfOutside v (List.mem_singleton.mpr hx)

theorem setLegacy_f (r : BitVec 72) (x : FldAt) (s : State) : ((setLegacy r).run s).f x = s.f x := rfl

theorem setLegacy_wait (r : BitVec 72) (s : State) : ((setLegacy r).run s).hid.cmd.tunnelWait = s.hid.cmd.tunnelWait := rfl

/-! ## RX_ACK -/

/-- The state in which an RX_ACK looks for the next packet. -/
def acked (s : State) : State := (wf CMD.TUNNEL_CTL.RX_VALID 0).run (rewriteCtl s)

theorem acked_cmd (s : State) : (acked s).hid.cmd = s.hid.cmd := by
  rw [acked, wf_run, apply_reg_hid, rewriteCtl_hid]

theorem ctlEffect_ack {s t : State} (h : placeNext.Does (acked s) () t) :
    (ctlEffect 0x40000000).Does (rewriteCtl s) () t := by
  have hgo : ¬ bitsOf (0x40000000 : Word) 31 31 = 1 := by decide
  have hack : bitsOf (0x40000000 : Word) 30 30 = 1 := by decide
  have hrx : rxAck.Does (rewriteCtl s) () t := (M.does_wf CMD.TUNNEL_CTL.RX_VALID 0 _).bind h
  unfold ctlEffect
  exact .ite_neg hgo <| .ite_pos hack hrx

/-- No packet waits. -/
theorem rxAck_empty {s t : State} (h : s.accepts .legacy [(CMD.TUNNEL_CTL, 0x40000000)] = true)
    (hwait : s.hid.cmd.tunnelWait = []) (ht : t = (legacyFrame (legacyWrite CMD.TUNNEL_CTL 0x40000000)).run s) :
    t.f CMD.TUNNEL_CTL.RX_VALID = 0 ∧ t.hid.cmd.go = none ∧ Keeps [CMD.TUNNEL_CTL] [] s t := by
  have hgo : s.hid.cmd.go = none := by
    simp only [State.accepts, Bool.and_eq_true] at h
    exact ((legacyOpen_iff s).mp h.1.2).2.2.2.2.2.2
  have hnext : placeNext.Does (acked s) () (setAttn.run (acked s)) := by
    refine .read ?_
    simp only [acked_cmd, hwait]
    exact foot_setAttn.does _
  have hgo' : (setAttn.run (acked s)).hid.cmd.go = none := by
    rw [(setAttn_link.bare.run _ |> bare_go), acked_cmd, hgo]
  rw [legacyFrame_ctl h (ctlEffect_ack hnext) (takeGo_none ((setLegacy_go _ _).trans hgo'))] at ht
  subst ht
  refine ⟨?_, (setLegacy_go _ _).trans hgo', .ofOutside ?_⟩
  · rw [setLegacy_f, (setAttn_f _).run, acked, wf_run]
    exact f_wf_same (x := CMD.TUNNEL_CTL.RX_VALID) (by decide) 0 _
  · have hattn : setAttn.Fixes (State.outside [CMD.TUNNEL_CTL]) := .read fun _ => hid_outside _
    rw [(setLegacy_outside _ _).run, hattn.run, acked, (wf_outsideCtl (x := CMD.TUNNEL_CTL.RX_VALID) 0 rfl).run,
      rewriteCtl_outside]

/-- What moves no more than parameters of the command page. -/
theorem Keeps.onPage {as : List Nat} {s t : State} (h : Keeps as [] s t) (ha : ∀ a ∈ as, a / 65536 = 0x01) :
    Keeps [] [0x01] s t :=
  ⟨fun a _ hp => h.rd a (fun hin => hp (by simp [ha a hin])) List.not_mem_nil, h.tabs, h.vio, h.chg, h.pending⟩

/-- The waiting packets after the first. -/
def dequeue (rest : List OutPkt) : M Unit := hid fun h => { h with cmd := { h.cmd with tunnelWait := rest } }

theorem acked_keeps (s : State) : Keeps [CMD.TUNNEL_CTL] [] s (acked s) := .ofOutside <| by
  rw [acked, (wf_outsideCtl (x := CMD.TUNNEL_CTL.RX_VALID) 0 rfl).run, rewriteCtl_outside]

/-- The first packet that waits is placed. -/
theorem rxAck_places {s t : State} {q : OutPkt} {rest : List OutPkt}
    (h : s.accepts .legacy [(CMD.TUNNEL_CTL, 0x40000000)] = true) (hwait : s.hid.cmd.tunnelWait = q :: rest)
    (ht : t = (legacyFrame (legacyWrite CMD.TUNNEL_CTL 0x40000000)).run s) :
    t.f CMD.TUNNEL_CTL.RX_VALID = 1 ∧ t.f CMD.TUNNEL_CTL.RX_LEN = q.bytes.length % 8192 ∧ t.hid.cmd.tunnelWait = rest ∧
      Keeps [] [0x01] s t := by
  have hgo : s.hid.cmd.go = none := by
    simp only [State.accepts, Bool.and_eq_true] at h
    exact ((legacyOpen_iff s).mp h.1.2).2.2.2.2.2.2
  have hnext : placeNext.Does (acked s) () ((placeTunnel q).run ((dequeue rest).run (acked s))) := by
    refine .read ?_
    simp only [acked_cmd, hwait]
    exact (M.does_hid _ _).bind <| (foot_placeTunnel q).does _
  have hplaced := placeTunnel_placed q ((dequeue rest).run (acked s))
  have hdequeue : Keeps [] [] (acked s) ((dequeue rest).run (acked s)) := .ofOutside ((hid_outside _).run (acked s))
  have hgo' : ((dequeue rest).run (acked s)).hid.cmd.go = none := (congrArg CmdSt.go (acked_cmd s)).trans hgo
  have hrest : ((dequeue rest).run (acked s)).hid.cmd.tunnelWait = rest := rfl
  generalize (dequeue rest).run (acked s) = v at hnext hplaced hdequeue hgo' hrest
  have hgo'' := (bare_go hplaced.bare).trans hgo'
  rw [legacyFrame_ctl h (ctlEffect_ack hnext) (takeGo_none ((setLegacy_go _ _).trans hgo''))] at ht
  subst ht
  have hset : Keeps [] [] ((placeTunnel q).run v) _ :=
    .ofOutside ((setLegacy_outside (legacyResult 0x80 CMD.TUNNEL_CTL 0) []).run ((placeTunnel q).run v))
  refine ⟨(setLegacy_f ..).trans hplaced.valid, (setLegacy_f ..).trans hplaced.len,
    (setLegacy_wait ..).trans (hplaced.wait.trans hrest), ?_⟩
  exact (((acked_keeps s).trans hdequeue).onPage (by decide)).trans (hplaced.keeps.trans hset) |>.mono (by simp) (by simp)

/-! ## GO -/

/-- A reply of one packet to a request in the tunnel is placed, if none stands there. -/
theorem sendReply_tunnel {p : Packet} {r : OutPkt} {s : State} (hsrc : p.src = .tunnel) (hno : bit p.flags.toNat 2 = false)
    (hp : s.present 10 = true) (hv : s.f CMD.TUNNEL_CTL.RX_VALID = 0) (hlen : r.payload.length ≤ 4096) (hfl : r.flags = 1)
    (hfirst : r.first = true) : (sendReply p none r).run s = (placeTunnel r).run s := by
  have hk : max 1 ((r.payload.length + 4096 - 1) / 4096) = 1 := by omega
  have hq : ({ r with flags := 1, first := true, payload := (r.payload.drop (4096 * 0)).take 4096 } : OutPkt) = r := by
    rw [Nat.mul_zero, List.drop_zero, List.take_of_length_le hlen, ← hfl, ← hfirst]
  have hplace := (foot_placeTunnel r).does s
  generalize (placeTunnel r).run s = t at hplace ⊢
  have hsend : (sendTo .tunnel r).Does s true t := by
    refine .read <| .ite_pos (by simp [hp]) <| (M.does_rf _ s).bind <| .ite_neg (by rw [hv]; decide) ?_
    exact M.Does.bind hplace (M.does_pure _ _)
  have hd : (sendReply p none r).Does s () t := by
    refine .ite_neg (by simp [hno]) ?_
    rw [hsrc]
    simp only [maxPayload, Option.isSome_none, Bool.false_eq_true, if_false, Nat.sub_zero, hk]
    rw [← hq] at hsend
    exact .bind (hsend.bind (M.does_pure () _)) (M.does_pure () _)
  exact hd.run

theorem bitsOf_and {w mask : Word} {hi lo : Nat} (hhi : hi < 32)
    (hm : ∀ i < 32, lo ≤ i → i ≤ hi → mask.getLsbD i = true) : bitsOf (w &&& mask) hi lo = bitsOf w hi lo := by
  apply Nat.eq_of_testBit_eq
  intro i
  simp only [bitsOf, Nat.testBit_mod_two_pow, Nat.testBit_div_two_pow, BitVec.testBit_toNat, BitVec.getLsbD_and]
  by_cases hin : i < hi + 1 - lo
  · rw [hm (i + lo) (by omega) (by omega) (by omega), Bool.and_true]
  · simp [hin]

/-- A parameter written as it is shows what it showed. -/
theorem rewriteCtl_f {x : FldAt} (hx : x.Real) (s : State) : (rewriteCtl s).f x = s.f x := by
  by_cases ha : x.addr = CMD.TUNNEL_CTL
  · rw [State.f, State.f, ha, rewriteCtl, rd_apply_reg_same _ _ _ (ha ▸ hx.1), bitsOf_and hx.2.1 (ha ▸ hx.2.2)]
  · exact f_of_rd_eq x (rd_apply_reg_other _ _ _ s ha)

/-- The state in which an accepted GO waits. -/
def accepted (len : Nat) (s : State) : State :=
  (Act.hid fun h => { h with cmd := { h.cmd with go := some len } }).apply ((wf CMD.TUNNEL_CTL.BUSY 1).run (rewriteCtl s))

theorem bitsOf_go (len : BitVec 13) : bitsOf (BitVec.ofNat 32 (2 ^ 31 + len.toNat)) 31 31 = 1 ∧
    bitsOf (BitVec.ofNat 32 (2 ^ 31 + len.toNat)) 30 30 ≠ 1 ∧
    bitsOf (BitVec.ofNat 32 (2 ^ 31 + len.toNat)) 12 0 = len.toNat := by
  have hlen := len.isLt
  have hv : (BitVec.ofNat 32 (2 ^ 31 + len.toNat)).toNat = 2 ^ 31 + len.toNat := by rw [BitVec.toNat_ofNat]; omega
  simp only [bitsOf, hv]
  omega

theorem ctlEffect_go (len : BitVec 13) (s : State) :
    (ctlEffect (BitVec.ofNat 32 (2 ^ 31 + len.toNat))).Does (rewriteCtl s) () (accepted len.toNat s) := by
  obtain ⟨h31, h30, hlen⟩ := bitsOf_go len
  unfold ctlEffect accepted
  rw [hlen]
  exact .ite_pos h31 <| (M.does_wf CMD.TUNNEL_CTL.BUSY 1 _).bind <| (M.does_hid _ _).bind <| .ite_neg h30 <| M.does_pure () _

/-- The accepted GO is taken from the state, and the packet in CMD.TUNNEL_TX is received. -/
def goTaken : M Unit := hid fun h => { h with cmd := { h.cmd with go := none } }

theorem takeGo_some {len : Nat} {s t : State} (h : s.hid.cmd.go = some len)
    (ht : (receiveBytes .tunnel (s.tunnelBytes len)).Does (goTaken.run s) () t) : takeGo.Does s () t := by
  refine .read ?_
  simp only [h]
  exact (M.does_hid _ s).bind ht

/-- The state in which the packet is received; `r` is the result of the frame. -/
def goState (r : BitVec 72) (len : Nat) (s : State) : State := goTaken.run ((setLegacy r).run (accepted len s))

theorem accepted_rd {len a : Nat} (ha : a ≠ CMD.TUNNEL_CTL) (s : State) : (accepted len s).rd a = s.rd a :=
  (rd_apply_reg_other _ _ _ _ ha).trans (rd_apply_reg_other _ _ _ s ha)

theorem accepted_hid (len : Nat) (s : State) :
    (accepted len s).hid = { s.hid with cmd := { s.hid.cmd with go := some len } } := by
  simp only [accepted, apply_hid_hid, wf_run, apply_reg_hid, rewriteCtl_hid]

theorem accepted_rest (len : Nat) (s : State) :
    (accepted len s).tabs = s.tabs ∧ (accepted len s).que = s.que ∧ (accepted len s).pending = s.pending := by
  simp [accepted, wf_run, rewriteCtl]

theorem goState_moved (r : BitVec 72) (len : Nat) (s : State) : CtlMoved s (goState r len s) where
  rd _ ha := accepted_rd (len := len) ha s
  tabs := (accepted_rest len s).1
  que := (accepted_rest len s).2.1
  pending := (accepted_rest len s).2.2
  hid := by
    have hid : ∀ z : State, (goTaken.run ((setLegacy r).run z)).hid =
        { z.hid with cmd := { z.hid.cmd with legacy := r, go := none } } := fun _ => rfl
    exact ⟨r, by rw [goState, hid, accepted_hid]⟩

theorem goState_valid (r : BitVec 72) (len : Nat) (s : State) :
    (goState r len s).f CMD.TUNNEL_CTL.RX_VALID = s.f CMD.TUNNEL_CTL.RX_VALID := by
  have hid : (goState r len s).f CMD.TUNNEL_CTL.RX_VALID =
      ((wf CMD.TUNNEL_CTL.BUSY 1).run (rewriteCtl s)).f CMD.TUNNEL_CTL.RX_VALID := rfl
  rw [hid, wf_run, f_wf_apart (by decide), rewriteCtl_f (by decide)]

theorem tunnelBytes_congr {s u : State} (h : ∀ a, a ≠ CMD.TUNNEL_CTL → u.rd a = s.rd a) (len : Nat) :
    u.tunnelBytes len = s.tunnelBytes len := by
  have htx : ∀ k, CMD.TUNNEL_TX k ≠ CMD.TUNNEL_CTL := fun k => by
    unfold CMD.TUNNEL_TX arr CMD.TUNNEL_CTL
    split <;> omega
  simp only [State.tunnelBytes, fun k => h _ (htx k)]

theorem replyPkt_nop_length (p : Packet) : (replyPkt 0 p {}).bytes.length = 28 := by
  simp [OutPkt.bytes, replyPkt, statusBlock]

/-- An accepted GO with a NOP that passes every check. -/
theorem tunnelGo_nop {s t : State} {len : BitVec 13} {p : Packet}
    (h : s.accepts .legacy [(CMD.TUNNEL_CTL, BitVec.ofNat 32 (2 ^ 31 + len.toNat))] = true)
    (hf : framed .tunnel (s.tunnelBytes len.toNat) 0 p = true) (hs : s.serves 0 p = true) (hflags : p.flags = 0)
    (hv : s.f CMD.TUNNEL_CTL.RX_VALID = 0)
    (ht : t = (legacyFrame (legacyWrite CMD.TUNNEL_CTL (BitVec.ofNat 32 (2 ^ 31 + len.toNat)))).run s) :
    ∃ w, Keeps [] [0x01] s w ∧ w.hid.cmd.go = none ∧ Placed (replyPkt 0 p {}) w t := by
  have hsrc := src_of_framed hf
  have hframe := fun v => legacyFrame_ctl (u := v) h (ctlEffect_go len s)
  generalize legacyResult 0x80 CMD.TUNNEL_CTL 0 = r at hframe
  have hmoved := goState_moved r len.toNat s
  have hu := hmoved.serves_nop hsrc hs
  obtain ⟨w, hkeeps, hbook, -, hrecv⟩ := receive_nop hu
  have hpres : w.present 10 = true := (present_of_bare hbook.bare 10).trans (serves_present hu)
  have hvalid : w.f CMD.TUNNEL_CTL.RX_VALID = 0 :=
    (hkeeps.f (by decide) (by decide)).trans ((goState_valid r len.toNat s).trans hv)
  have hkey : (goState r len.toNat s).replyKey p = none := by simp [State.replyKey, authSet, hflags, bit]
  rw [hkey, sendReply_tunnel hsrc (by simp [hflags, bit]) hpres hvalid (by simp [replyPkt, statusBlock]) rfl rfl] at hrecv
  have hbytes : ((setLegacy r).run (accepted len.toNat s)).tunnelBytes len.toNat = s.tunnelBytes len.toNat :=
    tunnelBytes_congr (fun _ ha => accepted_rd (len := len.toNat) ha s) _
  have hgo : ((setLegacy r).run (accepted len.toNat s)).hid.cmd.go = some len.toNat := rfl
  have hlis : (goState r len.toNat s).listens .tunnel = true := hsrc ▸ serves_listens hu
  have htake := takeGo_some hgo (by
    rw [hbytes]
    exact receiveBytes_framed hf (.inr rfl) hlis hrecv)
  have hplaced := placeTunnel_placed (replyPkt 0 p {}) w
  rw [← hframe _ htake, ← ht] at hplaced
  refine ⟨w, ?_, (bare_go hbook.bare).trans hmoved.go, hplaced⟩
  have hctl : Keeps [CMD.TUNNEL_CTL] [] s (goState r len.toNat s) :=
    ⟨fun a ha _ => hmoved.rd a (by simpa using ha), hmoved.tabs, by rw [hmoved.que], by rw [hmoved.que], hmoved.pending⟩
  exact (hctl.onPage (by decide)).trans (hkeeps.onPage (by decide)) |>.mono (by simp) (by simp)

/-- Settles O57: the tunnel's packet is received like any other, and its reply, and each that waits, is placed in turn. -/
theorem tunnelAndUnknownOpcodes : Obligations.Tunnel_and_unknown_opcodes := by
  unfold Obligations.Tunnel_and_unknown_opcodes
  refine ⟨fun s len p h hf hs hflags hv => ?_, fun s h hwait => ?_, fun s q rest h hwait => ?_,
    fun s bytes op p hf ht hk => ?_⟩
  · refine .of_next rfl ?_
    obtain ⟨w, hkeeps, hgo, hplaced⟩ := tunnelGo_nop h hf hs hflags hv rfl
    have hlen := replyPkt_nop_length p
    refine ⟨hplaced.valid, by rw [hplaced.len, hlen], hplaced.busy rfl, (bare_go hplaced.bare).trans hgo,
      fun n hn => hplaced.words n hn hlen, ?_⟩
    exact (hkeeps.trans hplaced.keeps).mono (by simp) (by simp)
  · exact .of_next rfl (rxAck_empty h hwait rfl)
  · exact .of_next rfl (rxAck_places h hwait rfl)
  · exact .of_checked rfl rfl (unknownOpcode_refused hf ht hk rfl)

end Sys2Proof.Machine
end

section
/-! Statement O26, refuted: a substitution, and the frame over the bytes of the tables. -/

namespace Sys2Proof.Machine

/-- SPARE_SUBSTITUTE of channel 5 by the spare channel 90. -/
def substituteRequest : Packet := sessionRequest 0 4 [5, 0, 90, 0]

/-- Channel 5, whose flags are all 0, is bound to group 3, which is CONFIGURED; the pulse island is PRESENT, and an
INTEGRATOR's session is open. -/
def channelBound : State :=
  M.run (do
    wf (SYS.ISLAND.STATE 0) 2
    wtab 0x30 (8 * 5) [3, 0, 0, 0, 0xFF, 0, 0, 0]
    updGrp 3 fun r => { r with st := .configured })
    (linkUp.withSession authIntegrator [])

theorem channelBound_serves_substitute : channelBound.serves 0x80 substituteRequest = true ∧
    bodyOf substituteRequest = leBytes 2 5 ++ leBytes 2 (90 + 32768 * b2n false) ∧ channelBound.chGroup 5 = 3 ∧
    channelBound.spareFree 90 = true ∧ channelBound.gst 3 = .configured ∧ channelBound.hid.trp.hand = none ∧
    channelBound.present 0 = true := by
  decide +kernel

/-- R85: SUBSTITUTED of the channel becomes 1, which changes its byte of flags. -/
theorem substitute_changesFlags : ((serve 0x80 substituteRequest).run channelBound).tb 0x30 (8 * 5 + 6) = 8 ∧
    channelBound.tb 0x30 (8 * 5 + 6) = 0 := by
  decide +kernel

/-- The tables follow one another in their store: an offset beyond the end of table 0 names a byte of a later table. -/
theorem tb_zero_tkey (s : State) (id o : Nat) : s.tb 0 (tkey id o) = s.tb id o := by
  simp only [State.tb, tkey, Nat.zero_mul, Nat.zero_add]

/-- Refutes O26: the first clause frames `tb j o` for every table number and every offset but the channel's flags in table
0x30, and does not ask that the offset lies in the table. As table 0 with an offset beyond its end the same byte of flags
falls under that frame, and the substitution changes it. -/
theorem not_spareAndMemoryRequests : ¬ Obligations.Spare_and_memory_requests := by
  unfold Obligations.Spare_and_memory_requests
  rintro ⟨hsubst, -⟩
  obtain ⟨hserves, hbody, hgroup, hfree, hst, hhand, hpres⟩ := channelBound_serves_substitute
  obtain ⟨t, ht, -, -, -, -, htables⟩ := hsubst channelBound substituteRequest 5 90 false hserves
    ⟨hbody, by decide, by rw [hgroup]; decide, by decide⟩ ⟨by decide, hfree, by decide⟩
    ⟨.inr (by rw [hgroup, hst]), hhand, hpres⟩
  obtain ⟨hset, hclear⟩ := substitute_changesFlags
  have hsame := htables 0 (tkey 0x30 (8 * 5 + 6)) (.inl (by decide))
  rw [tb_zero_tkey, tb_zero_tkey, exec_next_eq ht (m := serve 0x80 substituteRequest) rfl, hset, hclear] at hsame
  exact absurd hsame (by decide)

end Sys2Proof.Machine
end

section
/-! Statement O34, refuted: TB_STOP of a timebase that PHASE followers take their place behind. -/

namespace Sys2Proof.Machine

/-- Timebases 0 and 1 run at 5, in legacy mode with the pulse island PRESENT; timebase 1 is a PHASE follower of timebase 0 with
OFFSET 0. -/
def phaseFollower : State :=
  M.run (do
    wf SYS.STATUS.HOSTMODE 0
    wf (SYS.ISLAND.STATE 0) 2
    wf (PLS.TB_SYNC.MODE 1) 1
    [0, 1].forM fun t => do
      wf (PLS.TB_CFG.RUN t) 1
      wf (PLS.TB_COUNT.COUNT t) 5
      updTb t fun r => { r with pos := 5 })
    linkUp

theorem phaseFollower_stops : phaseFollower.accepts .legacy
      [(PLS.TB_CFG 0, withBits (phaseFollower.keepWord (PLS.TB_CFG 0)) 31 31 0)] = true ∧
    phaseFollower.f (PLS.TB_CFG.RUN 0) = 1 := by
  decide +kernel

/-- R90: the follower of a stopped timebase stands at its OFFSET. -/
theorem stop_movesFollower : ((writeField .legacy (PLS.TB_CFG.RUN 0) 0).run phaseFollower).f (PLS.TB_COUNT.COUNT 1) = 0 ∧
    phaseFollower.f (PLS.TB_COUNT.COUNT 1) = 5 := by
  decide +kernel

/-- Refutes O34: a stopped timebase stands at 0 (R89), and the counters of its PHASE followers at their OFFSET (R90). The frame
of the clause of TB_STOP lets no TB_COUNT change but that of the stopped timebase. -/
theorem not_timebases : ¬ Obligations.Timebases := by
  unfold Obligations.Timebases
  rintro ⟨-, hstop, -⟩
  obtain ⟨haccepts, hrun⟩ := phaseFollower_stops
  obtain ⟨t, ht, -, -, -, hkeeps⟩ := hstop phaseFollower .legacy 0 haccepts hrun
  obtain ⟨hzero, hfive⟩ := stop_movesFollower
  have hsame : t.f (PLS.TB_COUNT.COUNT 1) = phaseFollower.f (PLS.TB_COUNT.COUNT 1) :=
    f_of_rd_eq _ (hkeeps.rd _ (by decide) (by decide))
  rw [exec_next_eq ht (m := writeField .legacy (PLS.TB_CFG.RUN 0) 0) rfl, hzero, hfive] at hsame
  exact absurd hsame (by decide)

end Sys2Proof.Machine
end

section
/-! Statement O35, refuted: one pulse clock with an edge that switches its channel and another one that is suppressed. -/

namespace Sys2Proof.Machine

/-- Group 3 is RUNNING with channels 5 and 6 on timebase 2, which runs. Channel 5 comes on at 100 and has no off-edge; the pulse
of channel 6 at 100 has no length. -/
def suppressedBeside : State :=
  M.run (do
    wf (SYS.ISLAND.STATE 0) 2
    wf (PLS.TB_CFG.RUN 2) 1
    updGrp 3 fun r => { r with st := .running }
    wtab 0x30 (8 * 5) [3, 2]
    wtab 0x30 (8 * 6) [3, 2]
    wr (PLS.RISE_ACT 5) 6400
    wr (PLS.FALL_ACT 5) never
    wr (PLS.RISE_ACT 6) 6400
    wr (PLS.FALL_ACT 6) 6400)
    linkUp

theorem suppressedBeside_runs : suppressedBeside.awake = true ∧ suppressedBeside.present 0 = true ∧
    suppressedBeside.tbRuns 2 = true ∧ suppressedBeside.winStart 2 ≤ 100 ∧ 100 < suppressedBeside.winEnd 2 ∧
    (suppressedBeside.tbase 2).pos ≤ 100 ∧ suppressedBeside.hid.trp.hand = none := by
  decide +kernel

theorem suppressedBeside_onEdge : suppressedBeside.chGroup 5 < 32 ∧ suppressedBeside.chTb 5 = 2 ∧
    suppressedBeside.followed 5 = true ∧ suppressedBeside.chan (5 : Fin 96) = {} ∧
    suppressedBeside.rd (PLS.RISE_ACT 5) ≠ never ∧ coarse (suppressedBeside.rd (PLS.RISE_ACT 5)) = 100 ∧
    suppressedBeside.rd (PLS.FALL_ACT 5) = never ∧ suppressedBeside.setsOf 5 = [] ∧ suppressedBeside.cbcCells 5 = [] := by
  decide +kernel

/-- R93: the pulse of channel 6 is too short. -/
theorem edgeCompare_countsSuppressed :
    ((onIsland 0 (edgeCompare 2 100)).run suppressedBeside).f PLS.COUNT0.MIN_PULSE = 1 ∧
      suppressedBeside.f PLS.COUNT0.MIN_PULSE = 0 := by
  decide +kernel

/-- Refutes O35: the compares of every channel of the timebase match in one pulse clock. The first clause speaks of one of
them, and where the pulse of another one is suppressed MIN_PULSE counts it (R93), which its frame excludes. -/
theorem not_edgesAndPulses : ¬ Obligations.Edges_and_pulses := by
  unfold Obligations.Edges_and_pulses
  rintro ⟨hon, -⟩
  obtain ⟨hawake, hpres, hruns, hstart, hend, hpos, hhand⟩ := suppressedBeside_runs
  obtain ⟨hgroup, htb, hfollowed, hchan, hrise, hat, hfall, hsets, hcells⟩ := suppressedBeside_onEdge
  obtain ⟨t, ht, -, -, -, hkeeps⟩ := hon suppressedBeside 2 100 5 hawake hpres hruns ⟨hstart, hend⟩ hpos hhand
    ⟨hgroup, htb⟩ hfollowed (by rw [hchan]; decide) (by rw [hchan]; decide) (by rw [hchan]) ⟨hrise, hat⟩ hfall hsets
    hcells
  obtain ⟨hone, hzero⟩ := edgeCompare_countsSuppressed
  have hsame : t.f PLS.COUNT0.MIN_PULSE = suppressedBeside.f PLS.COUNT0.MIN_PULSE :=
    f_of_rd_eq _ (hkeeps.rd _ (by decide) (by decide))
  rw [exec_next_eq ht (m := onIsland 0 (edgeCompare 2 100)) rfl, hone, hzero] at hsame
  exact absurd hsame (by decide)

end Sys2Proof.Machine
end

section
/-! SUPPORT for O36: what the reaction to an occurrence leaves of delay calibration and duplicated registers. The words that
show them, and the list of groups in their safe pattern, lie on pages and in a part of the state that the reaction reaches
for other words, so that a footprint (Laws/Frame.lean) does not tell. -/

namespace Sys2Proof.Machine

/-! ## The view -/

/-- The words that show calibrations (R96), mismatches of delay registers (R112) and those of SC_BLANK (R147). -/
def delayWords : List Nat := PLS.DLY_ERR :: GDR.STATUS :: (List.range 9).map PLS.CAL

/-- What those words hold. -/
def State.delayWord (s : State) : Nat → Word := fun a => if a ∈ delayWords then s.rd a else 0

/-- Those words, and the groups whose edges the pulse island replaces by their safe pattern (R112). -/
def State.delayShown (s : State) : (Nat → Word) × List Nat := (s.delayWord, s.hid.pls.forced)

theorem delayWord_f {s t : State} (h : t.delayWord = s.delayWord) {x : FldAt} (hx : x.addr ∈ delayWords) : t.f x = s.f x :=
  f_of_rd_eq x <| by simpa only [State.delayWord, hx, if_true] using congrFun h x.addr

theorem delayShown_word {s t : State} (h : t.delayShown = s.delayShown) : t.delayWord = s.delayWord := congrArg Prod.fst h

theorem delayShown_forced {s t : State} (h : t.delayShown = s.delayShown) : t.hid.pls.forced = s.hid.pls.forced :=
  congrArg Prod.snd h

theorem CAL_mem_delayWords (b : Fin 9) : PLS.CAL b ∈ delayWords := by
  revert b
  decide

/-- Where the words of the view stand. -/
theorem mem_delayWords {a : Nat} (h : a ∈ delayWords) : a = 0x03000C ∨ a = 0x050000 ∨ 0x030800 ≤ a ∧ a ≤ 0x030820 := by
  revert h a
  decide

theorem not_mem_delayWords {a : Nat} (h : a / 65536 ≠ 3 ∧ a / 65536 ≠ 5) : a ∉ delayWords := fun hin => by
  have := mem_delayWords hin
  omega

/-- The words of an array that lies apart from those of the view. -/
theorem arr_not_mem_delayWords {b s f n : Nat} (i : Nat)
    (h : 0x030820 < b ∧ b + s * n < 0x050000 ∨ 0x050000 < b ∨ 0x03000C < b ∧ b + s * n < 0x030800) : arr b s f n i ∉ delayWords :=
  fun hin => by
    have hm := mem_delayWords hin
    unfold arr at hm
    split at hm
    · next hi =>
      have hle : s * i ≤ s * n := Nat.mul_le_mul_left s hi.2.le
      omega
    · omega

theorem TRG_POS_not_mem_delayWords (t j : Nat) : PLS.TRG_POS t j ∉ delayWords := fun hin => by
  have hm := mem_delayWords hin
  unfold PLS.TRG_POS arr2 at hm
  split at hm <;> omega

/-! ## The elementary operations -/

section
variable {α : Type}

/-- What reaches neither pages 3 and 5 nor the state of pulse generation. -/
theorem M.Fixes.delayIn {P : List Nat} {m : M α} (h : m.In P) (hn : 99 ∉ P ∧ 3 ∉ P ∧ 5 ∉ P ∧ 44 ∉ P) :
    m.Fixes State.delayShown := by
  obtain ⟨h99, h3, h5, h44⟩ := hn
  refine .ofIn h fun s t hs => Prod.ext (funext fun a => ?_) (congrArg PlsSt.forced (hs.pls h99 h44))
  by_cases ha : a ∈ delayWords
  · have hpage : a / 65536 = 3 ∨ a / 65536 = 5 := by
      have := mem_delayWords ha
      omega
    have hrd : t.rd a = s.rd a := hs.rd h99 a <| by
      rcases hpage with hp | hp <;> rwa [hp]
    simp only [State.delayShown, State.delayWord, ha, if_true, hrd]
  · simp only [State.delayShown, State.delayWord, ha, if_false]

theorem M.Fixes.delayWr {a : Nat} (w : Word) (ha : a ∉ delayWords) : (wr a w).Fixes State.delayShown := by
  refine .act fun s => Prod.ext (funext fun b => ?_) (by simp [State.delayShown])
  by_cases hb : b ∈ delayWords
  · simp only [State.delayShown, State.delayWord, hb, if_true]
    exact rd_apply_reg_other a b w s fun hab => ha (hab ▸ hb)
  · simp only [State.delayShown, State.delayWord, hb, if_false]

theorem M.Fixes.delayWf {x : FldAt} (v : Nat) (hx : x.addr ∉ delayWords) : (wf x v).Fixes State.delayShown :=
  .read fun _ => .delayWr _ hx

theorem M.Fixes.delayInc {x : FldAt} (hx : x.addr ∉ delayWords) : (inc x).Fixes State.delayShown :=
  .read fun _ => .when (.delayWf _ hx)

theorem M.Fixes.delayIncBy {x : FldAt} (n : Nat) (hx : x.addr ∉ delayWords) : (incBy x n).Fixes State.delayShown :=
  .read fun _ => .delayWf _ hx

theorem M.Fixes.delayHid {f : Hidden → Hidden} (h : ∀ x, (f x).pls.forced = x.pls.forced) : (hid f).Fixes State.delayShown :=
  .act fun s => Prod.ext rfl (h s.hid)

theorem updGrp_delay (g : Nat) (f : Grp → Grp) : (updGrp g f).Fixes State.delayShown := .delayHid fun _ => rfl

theorem updChan_delay (c : Nat) (f : Chan → Chan) : (updChan c f).Fixes State.delayShown := .delayHid fun _ => rfl

end

/-! ## Groups -/

theorem event_delay (op page inst scope : Nat) (body : List Byte) : (event op page inst scope body).Fixes State.delayShown :=
  .delayIn (foot_event op page inst scope body) (by decide)

theorem setProvisional_delay (g : Nat) : (setProvisional g).Fixes State.delayShown :=
  .read fun _ => .delayWf _ (arr_not_mem_delayWords g (by decide))

theorem resolveTrg_delay (k : Nat) (stale nextToo : Bool) : (resolveTrg k stale nextToo).Fixes State.delayShown :=
  .read fun _ => .when <| .thenMore (.delayIncBy _ (by decide)) fun _ => .bind (.delayHid fun _ => rfl) fun _ =>
    .delayIn (foot_resolveHeld _ _) (by decide)

theorem cancelTriggers_delay (g : Nat) : (cancelTriggers g).Fixes State.delayShown :=
  .read fun _ => .bind (.forM (fun _ => resolveTrg_delay _ _ _) _) fun _ => setProvisional_delay g

theorem discardWords_delay (c : Nat) : (discardWords c).Fixes State.delayShown := by
  have hwr : ∀ w v : Word, (do wr (PLS.RISE c) w; wr (PLS.FALL c) v : M Unit).Fixes State.delayShown := fun _ _ =>
    .bind (.delayWr _ (arr_not_mem_delayWords c (by decide))) fun _ => .delayWr _ (arr_not_mem_delayWords c (by decide))
  refine .read fun s => ?_
  split <;> exact hwr _ _

theorem discardShadow_delay (c : Nat) : (discardShadow c).Fixes State.delayShown := by
  refine .bind (discardWords_delay c) fun _ => .read fun s => ?_
  split
  · exact discardWords_delay _
  · exact .pure _

theorem discardShadows_delay (g : Nat) : (discardShadows g).Fixes State.delayShown :=
  .read fun _ => .bind (.forM (fun _ => discardShadow_delay _) _) fun _ =>
    .forM (fun t => .bind (.delayWf _ (arr_not_mem_delayWords t (by decide))) fun _ =>
      .forM (fun _ => .delayWf _ (TRG_POS_not_mem_delayWords _ _)) _) _

theorem dropGroup_delay (g : Nat) : (dropGroup g).Fixes State.delayShown :=
  .bind (discardShadows_delay g) fun _ => .bind (cancelTriggers_delay g) fun _ => updGrp_delay _ _

theorem setGState_delay (g : Nat) (st : GState) (cause : Nat) : (setGState g st cause).Fixes State.delayShown :=
  .read fun _ => .when <| .bind (.delayHid fun _ => rfl) fun _ => .bind (.delayIn foot_setAvail (by decide)) fun _ =>
    event_delay ..

theorem cellOff_delay (c time : Nat) : (cellOff c time).Fixes State.delayShown := by
  refine .read fun s => .bind (.delayHid fun _ => rfl) fun _ => ?_
  split
  · exact .bind (.delayWf _ (arr_not_mem_delayWords _ (by decide))) fun _ => .delayHid fun _ => rfl
  · exact .pure _

theorem cellOn_delay (c time : Nat) : (cellOn c time).Fixes State.delayShown :=
  .read fun _ => .ite (.pure _) <| .thenMore (.delayHid fun _ => rfl) fun _ => .pure _

theorem applyPattern_delay (g : Nat) (asc : Bool) : (applyPattern g asc).Fixes State.delayShown :=
  .read fun _ => .forM (fun _ => .ite (.bind (cellOn_delay _ _) fun _ => updChan_delay _ _) (cellOff_delay _ _)) _

theorem tripGroup_delay (g kind first : Nat) : (tripGroup g kind first).Fixes State.delayShown := by
  have htrip : TRP.GRP_TRIP g ∉ delayWords := not_mem_delayWords (by rw [TRP.GRP_TRIP_page]; decide)
  exact .read fun _ => .ite
    (.bind (.delayWf _ htrip) fun _ => .bind (.delayWf _ htrip) fun _ => .bind (.delayWf _ htrip) fun _ =>
      .bind (.delayWf _ htrip) fun _ => .bind (.delayWf _ htrip) fun _ => .bind (.delayInc htrip) fun _ =>
      .bind (applyPattern_delay _ _) fun _ => .bind (dropGroup_delay g) fun _ => .bind (.delayHid fun _ => rfl) fun _ =>
      .bind (setGState_delay _ _ _) fun _ => .bind (event_delay ..) fun _ => .pure _) <|
    .ite (.bind (.delayWf _ htrip) fun _ => .bind (.delayWf _ htrip) fun _ => .bind (.delayInc htrip) fun _ =>
      .bind (applyPattern_delay _ _) fun _ => .bind (event_delay ..) fun _ => .pure _) (.pure _)

theorem showForce_delay (g : Nat) : (showForce g).Fixes State.delayShown := by
  have hgrp : SAF.GRP g ∉ delayWords := not_mem_delayWords (by rw [SAF.GRP_page]; decide)
  exact .read fun _ => .bind (.delayWf _ hgrp) fun _ => .when <| .bind (.delayWf _ hgrp) fun _ =>
    .bind (.delayHid fun _ => rfl) fun _ => applyPattern_delay _ _

theorem forceGroup_delay (g code cause : Nat) : (forceGroup g code cause).Fixes State.delayShown :=
  .read fun _ => .ite
    (.bind (dropGroup_delay g) fun _ => .bind (.delayHid fun _ => rfl) fun _ => .bind (.delayHid fun _ => rfl) fun _ =>
      .bind (setGState_delay _ _ _) fun _ => showForce_delay g)
    (.when <| .bind (.delayHid fun _ => rfl) fun _ => showForce_delay g)

theorem releaseForce_delay (g code : Nat) : (releaseForce g code).Fixes State.delayShown := by
  have hgrp : SAF.GRP g ∉ delayWords := not_mem_delayWords (by rw [SAF.GRP_page]; decide)
  exact .read fun _ => .when <| .bind (.delayHid fun _ => rfl) fun _ =>
    .ite (.bind (.delayWf _ hgrp) fun _ => .delayWf _ hgrp) (showForce_delay g)

theorem emergencyStop_delay (cause : Nat) (toFault : Bool) : (emergencyStop cause toFault).Fixes State.delayShown :=
  .read fun _ => .when <| .bind (.delayInc (by decide)) fun _ => .bind (tripGroup_delay _ _ _) fun _ =>
    .bind (tripGroup_delay _ _ _) fun _ => .bind (.delayHid fun _ => rfl) fun _ =>
    .bind (.delayIn foot_releaseRelays (by decide)) fun _ => .delayIn (foot_setChg _ _) (by decide)

theorem forceAct_delay (g code cause : Nat) : (forceAct g code cause).Fixes State.delayShown :=
  .read fun _ => .bind (forceGroup_delay _ _ _) fun _ => .when (emergencyStop_delay _ _)

/-! ## Safety functions -/

theorem funcEffect_delay (f g cause : Nat) : (funcEffect f g cause).Fixes State.delayShown := by
  refine .read fun s => ?_
  split
  · exact forceAct_delay _ _ _
  · exact .when <| .ite (.when (.delayHid fun _ => rfl)) (forceAct_delay _ _ _)
  · exact forceAct_delay _ _ _
  · exact forceAct_delay _ _ _
  · exact .pure _

theorem trigger_delay (f src key : Nat) (gs : List Nat) (cause : Nat) :
    (trigger f src key gs cause).Fixes State.delayShown := by
  have hstat : SAF.FUNC_STAT f ∉ delayWords := not_mem_delayWords (by rw [SAF.FUNC_STAT_page]; decide)
  exact .read fun _ => .when <| .bind (.delayHid fun _ => rfl) fun _ => .bind (.delayWf _ hstat) fun _ =>
    .bind (.delayWf _ hstat) fun _ =>
    .thenMore (.bind (.delayWf _ hstat) fun _ => .bind (.delayWf _ (by decide)) fun _ => .bind (.delayInc hstat) fun _ =>
      .bind (.delayIn (foot_funcEvent _ _) (by decide)) fun _ => .delayIn (foot_funcStart f) (by decide)) fun _ =>
    .forM (fun _ => funcEffect_delay _ _ _) _

theorem releaseFunc_delay (f : Nat) : (releaseFunc f).Fixes State.delayShown := by
  have hstat : SAF.FUNC_STAT f ∉ delayWords := not_mem_delayWords (by rw [SAF.FUNC_STAT_page]; decide)
  exact .read fun _ => .bind (.delayWf _ hstat) fun _ => .bind (.delayWf _ hstat) fun _ =>
    .bind (.delayWf _ (by decide)) fun _ => .bind (.delayWf _ hstat) fun _ =>
    .bind (.delayIn (foot_funcEvent _ _) (by decide)) fun _ => .bind (.delayHid fun _ => rfl) fun _ =>
    .thenMore (.forM (fun _ => updGrp_delay _ _) _) fun _ =>
    .forM (fun _ => .read fun _ => .when (releaseForce_delay _ _)) _

theorem withdraw_delay (f src key : Nat) : (withdraw f src key).Fixes State.delayShown := by
  have hstat : SAF.FUNC_STAT f ∉ delayWords := not_mem_delayWords (by rw [SAF.FUNC_STAT_page]; decide)
  exact .read fun _ => .when <| .bind (.delayHid fun _ => rfl) fun _ => .read fun _ => .when <|
    .ite (releaseFunc_delay f) (.delayWf _ hstat)

theorem startSs1_delay (g cause : Nat) : (startSs1 g cause).Fixes State.delayShown :=
  .read fun _ => .when <| .bind (trigger_delay _ _ _ _ _) fun _ => .read fun _ => .when (withdraw_delay _ _ _)

/-! ## The ledger -/

theorem react_delay (cls src inst : Nat) : (react cls src inst).Fixes State.delayShown :=
  .read fun _ => .ite (.forM (fun _ => startSs1_delay _ _) _) <| .ite (.forM (fun _ => forceAct_delay _ _ _) _) <|
    .when <| .bind (.forM (fun _ => forceAct_delay _ _ _) _) fun _ => .delayIn foot_deviceSafe (by decide)

theorem occurrence_delay (src inst detail : Nat) : (occurrence src inst detail).Fixes State.delayShown := by
  have hoccur : FLG.OCCUR src ∉ delayWords := not_mem_delayWords (by rw [FLG.OCCUR_page]; decide)
  have hlasting : FLG.LASTING src ∉ delayWords := not_mem_delayWords (by rw [FLG.LASTING_page]; decide)
  exact .read fun _ => .bind (.delayInc hoccur) fun _ => .bind (.delayWf _ hoccur) fun _ =>
    .bind (.delayHid fun _ => rfl) fun _ =>
    .ite (.bind (.delayWr _ hlasting) fun _ => .bind (.delayInc hoccur) fun _ =>
      .bind (.delayIn foot_setLastingSrc (by decide)) fun _ => .bind (.delayIn (foot_queueEntry _ _) (by decide)) fun _ =>
      .bind (event_delay ..) fun _ => .bind (react_delay _ _ _) fun _ => .pure _)
    (.bind (.delayHid fun _ => rfl) fun _ => .pure _)

theorem occur_delay (src inst detail : Nat) : (occur src inst detail).Fixes State.delayShown :=
  .bind (occurrence_delay _ _ _) fun _ => .pure _

end Sys2Proof.Machine
end

section
/-! Statement O36: delay calibration (R96, R98), and duplicated registers that disagree (R112, R121, R147). -/

namespace Sys2Proof.Machine

theorem onIsland_run {n : Nat} {m : M Unit} {s t : State} (ha : s.awake = true) (hp : s.present n = true)
    (h : m.Does s () t) : (onIsland n m).run s = t :=
  M.Does.run <| .read <| .ite_pos ⟨ha, hp⟩ h

theorem Bumped.congr {x : FldAt} {s s' t t' : State} (h : Bumped x s t) (hs : s.f x = s'.f x) (ht : t'.f x = t.f x) :
    Bumped x s' t' := by
  unfold Bumped at *
  rw [ht, h, hs]

/-- What shows of an occurrence stays where FLG.OCCUR of its source does. -/
theorem Counted.then_shown {src inst : Nat} {s u t : State} (hc : Counted src inst s u)
    (h : t.occurShown src = u.occurShown src) : Counted src inst s t := by
  obtain ⟨hocc, hinst⟩ := Prod.ext_iff.mp h
  exact ⟨hc.1.congr rfl hocc, hinst.trans hc.2⟩

/-! ## The fields of PLS.CAL -/

theorem CAL_flags (b : Fin 9) : (PLS.CAL.CAL_VALID b).Real ∧ (PLS.CAL.COARSE_ONLY b).Real := by
  revert b
  decide +kernel

theorem CAL_numbers (b : Fin 9) : (PLS.CAL.ELEMENTS b).Real ∧ (PLS.CAL.FAIL b).Real ∧ (PLS.CAL.AGE b).Real := by
  revert b
  decide +kernel

theorem CAL_VALID_beside (b : Fin 9) : (PLS.CAL.CAL_VALID b).Apart (PLS.CAL.ELEMENTS b) ∧
    (PLS.CAL.CAL_VALID b).Apart (PLS.CAL.AGE b) ∧ (PLS.CAL.CAL_VALID b).Apart (PLS.CAL.COARSE_ONLY b) := by
  obtain ⟨hvalid, -⟩ := CAL_flags b
  exact ⟨.inr ⟨hvalid, .inr (show 23 < 31 by decide)⟩, .inr ⟨hvalid, .inr (show 7 < 31 by decide)⟩,
    .inr ⟨hvalid, .inr (show 30 < 31 by decide)⟩⟩

theorem ELEMENTS_beside (b : Fin 9) : (PLS.CAL.ELEMENTS b).Apart (PLS.CAL.FAIL b) ∧
    (PLS.CAL.ELEMENTS b).Apart (PLS.CAL.AGE b) ∧ (PLS.CAL.ELEMENTS b).Apart (PLS.CAL.COARSE_ONLY b) := by
  obtain ⟨helem, -⟩ := CAL_numbers b
  exact ⟨.inr ⟨helem, .inr (show 15 < 16 by decide)⟩, .inr ⟨helem, .inr (show 7 < 16 by decide)⟩,
    .inr ⟨helem, .inl (show 23 < 30 by decide)⟩⟩

theorem FAIL_beside (b : Fin 9) : (PLS.CAL.FAIL b).Apart (PLS.CAL.AGE b) ∧ (PLS.CAL.AGE b).Apart (PLS.CAL.FAIL b) ∧
    (PLS.CAL.FAIL b).Apart (PLS.CAL.COARSE_ONLY b) ∧ (PLS.CAL.AGE b).Apart (PLS.CAL.COARSE_ONLY b) := by
  obtain ⟨-, hfail, hage⟩ := CAL_numbers b
  exact ⟨.inr ⟨hfail, .inr (show 7 < 8 by decide)⟩, .inr ⟨hage, .inl (show 7 < 8 by decide)⟩,
    .inr ⟨hfail, .inl (show 15 < 30 by decide)⟩, .inr ⟨hage, .inl (show 7 < 30 by decide)⟩⟩

/-! ## A valid calibration -/

/-- A block takes a calibration record, and PLS.CAL shows it. -/
def takeCal (b e : Nat) (r : Cal) : M Unit := do
  hid fun h => { h with pls := { h.pls with cals := sput h.pls.cals b r } }
  wf (PLS.CAL.CAL_VALID b) 1
  wf (PLS.CAL.ELEMENTS b) e
  wf (PLS.CAL.AGE b) 0
  if 100 ≤ r.good then wf (PLS.CAL.COARSE_ONLY b) 0

theorem takeCal_keeps (b e : Nat) (r : Cal) (s : State) : Keeps [PLS.CAL b] [] s ((takeCal b e r).run s) := by
  have hwf : ∀ x v, x.addr = PLS.CAL b → (wf x v).Fixes (State.outside [PLS.CAL b]) := fun x v hx =>
    .wfOutside v (List.mem_singleton.mpr hx)
  exact .ofOutside <| M.Fixes.run (.bind (.act fun _ => rfl) fun _ => .bind (hwf _ _ rfl) fun _ =>
    .bind (hwf _ _ rfl) fun _ => .bind (hwf _ _ rfl) fun _ => .when (hwf _ _ rfl)) s

/-- What PLS.CAL shows of a valid calibration of `e` elements, the `n`-th in a row: the hundredth ends COARSE_ONLY. -/
structure Calibrated (b e n : Nat) (t : State) : Prop where
  valid : t.f (PLS.CAL.CAL_VALID b) = 1
  elements : t.f (PLS.CAL.ELEMENTS b) = e
  age : t.f (PLS.CAL.AGE b) = 0
  coarse : 100 ≤ n → t.f (PLS.CAL.COARSE_ONLY b) = 0

theorem takeCal_shows (b : Fin 9) (r : Cal) {e : Nat} (he : e < 256) (s : State) :
    Calibrated b e r.good ((takeCal b e r).run s) := by
  obtain ⟨hvalid, hcoarse⟩ := CAL_flags b
  obtain ⟨helem, -, hage⟩ := CAL_numbers b
  obtain ⟨hve, hva, hvc⟩ := CAL_VALID_beside b
  obtain ⟨-, hea, hec⟩ := ELEMENTS_beside b
  obtain ⟨-, -, -, hac⟩ := FAIL_beside b
  refine (show (takeCal b e r).Ends s fun _ t => Calibrated b e r.good t from ?_).run
  refine .bind (M.does_hid _ s) <| .bind (M.does_wf _ _ _) <| .bind (M.does_wf _ _ _) <| .bind (M.does_wf _ _ _) ?_
  by_cases hn : 100 ≤ r.good
  · refine .ite_pos hn <| .ofDoes (M.does_wf _ _ _) ⟨?_, ?_, ?_, fun _ => f_wf_same hcoarse _ _⟩
    · rw [f_wf_apart hvc, f_wf_apart hva, f_wf_apart hve]
      exact f_wf_same hvalid _ _
    · rw [f_wf_apart hec, f_wf_apart hea, f_wf_same helem]
      exact Nat.mod_eq_of_lt he
    · rw [f_wf_apart hac]
      exact f_wf_same hage _ _
  · refine .ite_neg hn <| .ofDoes (M.does_pure _ _) ⟨?_, ?_, f_wf_same hage _ _, fun h => absurd h hn⟩
    · rw [f_wf_apart hva, f_wf_apart hve]
      exact f_wf_same hvalid _ _
    · rw [f_wf_apart hea, f_wf_same helem]
      exact Nat.mod_eq_of_lt he

theorem takeCal_in (b e : Nat) (r : Cal) : (takeCal b e r).In [3, 44] := by
  have hwf : ∀ x v, x.addr = PLS.CAL b → (wf x v).In [3, 44] := fun x v hx =>
    M.In.wf 3 x v (by rw [hx, PLS.CAL_page]) (by decide)
  exact .bind (M.In.hid_pls _ (by decide)) fun _ => .bind (hwf _ _ rfl) fun _ => .bind (hwf _ _ rfl) fun _ =>
    .bind (hwf _ _ rfl) fun _ => .ite (hwf _ _ rfl) (.pure _)

/-- A measurement in range and near the last valid one is taken (R96). -/
theorem delayCalibration_takes {s : State} {b e : Nat} (he : 80 ≤ e ∧ e ≤ 150)
    (hnear : ((s.cal b).prev.all fun q => decide (e ≤ q + 4) && decide (q ≤ e + 4)) = true) :
    ∃ r : Cal, r.good = (s.cal b).good + 1 ∧ (delayCalibration b e).Does s () ((takeCal b e r).run s) := by
  refine ⟨⟨some e, (List.range 64).map (tapCode e), (s.cal b).good + 1, s.hid.now⟩, rfl, .read ?_⟩
  extract_lets r near good
  have hn : near = true := by
    simp only [near, r]
    cases hq : (s.cal b).prev with
    | none => rfl
    | some q => simpa only [hq, Option.all_some] using hnear
  exact .ite_pos ⟨he.1, he.2, hn⟩ ((takeCal_in _ _ _).does s)

/-! ## A failed calibration -/

/-- What PLS.CAL shows of a failed calibration (R96): ELEMENTS stays, FAIL and AGE count. -/
structure CalFailed (b : Nat) (s t : State) : Prop where
  elements : t.f (PLS.CAL.ELEMENTS b) = s.f (PLS.CAL.ELEMENTS b)
  fail : Bumped (PLS.CAL.FAIL b) s t
  age : Bumped (PLS.CAL.AGE b) s t

/-- The fields of which that speaks. -/
def State.calNumbers (b : Nat) (s : State) : Nat × Nat × Nat :=
  (s.f (PLS.CAL.ELEMENTS b), s.f (PLS.CAL.FAIL b), s.f (PLS.CAL.AGE b))

theorem CalFailed.congr {b : Nat} {s s' t t' : State} (h : CalFailed b s t) (hs : s.calNumbers b = s'.calNumbers b)
    (ht : t'.calNumbers b = t.calNumbers b) : CalFailed b s' t' := by
  obtain ⟨helem, hfail, hage⟩ := h
  simp only [State.calNumbers, Prod.mk.injEq] at hs ht
  obtain ⟨hs1, hs2, hs3⟩ := hs
  obtain ⟨ht1, ht2, ht3⟩ := ht
  exact ⟨ht1.trans (helem.trans hs1), hfail.congr hs2 ht2, hage.congr hs3 ht3⟩

theorem counts_calFailed (b : Fin 9) (s : State) :
    CalFailed b s ((inc (PLS.CAL.AGE b)).run ((inc (PLS.CAL.FAIL b)).run s)) := by
  obtain ⟨-, hfail, hage⟩ := CAL_numbers b
  obtain ⟨hef, hea, -⟩ := ELEMENTS_beside b
  obtain ⟨hfa, haf, -⟩ := FAIL_beside b
  exact ⟨((M.Fixes.incApart hea).run _).trans ((M.Fixes.incApart hef).run s),
    (hfail.bumped s).congr rfl ((M.Fixes.incApart hfa).run _), (hage.bumped _).congr ((M.Fixes.incApart haf).run s) rfl⟩

/-- A measurement out of range counts in PLS.CAL and is an occurrence of DLY_CAL_FAIL (R96, R98). -/
theorem delayCalibration_fails {s : State} (b : Fin 9) {e : Nat} (he : e < 80 ∨ 150 < e) :
    (delayCalibration b e).Ends s fun _ t => CalFailed b s t ∧ Counted 31 b s t := by
  obtain ⟨-, -, hec⟩ := ELEMENTS_beside b
  obtain ⟨-, -, hfc, hac⟩ := FAIL_beside b
  have hin : ∀ x, x.addr = PLS.CAL b → (inc x).In [3, 44] := fun x hx =>
    M.In.inc 3 x (by rw [hx, PLS.CAL_page]) (by decide)
  have hmem := CAL_mem_delayWords b
  refine .read ?_
  extract_lets r near good
  refine .ite_neg (fun ⟨hlo, hhi, _⟩ => absurd he (by omega)) ?_
  refine .afterIn (L := [44]) (M.In.hid_pls _ (by decide)) fun _ u hu _ => ?_
  have hpage : PLS.CAL b / 65536 ∉ [44] := by
    rw [PLS.CAL_page]
    decide
  have hnum : u.calNumbers b = s.calNumbers b := Prod.ext (hu.f (by decide) hpage) <|
    Prod.ext (hu.f (by decide) hpage) (hu.f (by decide) hpage)
  refine .bind ((hin _ rfl).does u) <| .bind ((hin _ rfl).does _) ?_
  have hfailed := (counts_calFailed b u).congr hnum rfl
  have hsame := (hu.mono (by decide)).trans (((hin (PLS.CAL.FAIL b) rfl).run u).trans ((hin (PLS.CAL.AGE b) rfl).run _))
  generalize (inc (PLS.CAL.AGE b)).run _ = v at *
  obtain ⟨a, w, hd, hcount⟩ := occurrence_counted 31 (b.castLE (by decide)) (PLS.CAL b) v
  have hword := delayShown_word (hd.fixes (occurrence_delay ..))
  have hw := hfailed.congr (b := b) rfl <| Prod.ext (delayWord_f hword hmem) <|
    Prod.ext (delayWord_f hword hmem) (delayWord_f hword hmem)
  have hcounted := hcount.of_shown (hsame.shown 31 (by decide) (by decide))
  have hrest : (if a = true then wf (PLS.CAL.COARSE_ONLY b) 1 else pure ()).Fixes fun t =>
      (t.calNumbers b, t.occurShown 31) :=
    .when <| .prod (.prod (.wfApart hec _) (.prod (.wfApart hfc _) (.wfApart hac _))) <|
      .shownIn 31 (M.In.wf (P := [3]) 3 _ 1 (PLS.CAL_page b) (by decide)) (by decide) (by decide)
  refine .bind hd <| .ofFixes hrest fun _ t ht => ?_
  obtain ⟨hnumbers, hshown⟩ := Prod.ext_iff.mp ht
  exact ⟨hw.congr rfl hnumbers, hcounted.then_shown hshown⟩

theorem delayCalibration_beyond (b e : Nat) : (delayCalibration b e).Fixes State.beyond := by
  refine .read fun s => ?_
  extract_lets r near good
  exact .ite
    (.bind (hid_beyond _) fun _ => .bind (wf_beyond _ _) fun _ => .bind (wf_beyond _ _) fun _ =>
      .bind (wf_beyond _ _) fun _ => .when (wf_beyond _ _))
    (.bind (hid_beyond _) fun _ => .bind (inc_beyond _) fun _ => .bind (inc_beyond _) fun _ =>
      .bind (occurrence_beyond _ _ _) fun _ => .when (wf_beyond _ _))

/-! ## The groups that own a register (R112, R147) -/

theorem ownersSafe_beyond (gs : List Nat) (detail : Nat) : (ownersSafe gs detail).Fixes State.beyond :=
  .forM (fun _ => .read fun _ => .thenMore (.bind (hid_beyond _) fun _ => applyPattern_beyond _ _) fun _ =>
    occur_beyond _ _ _) _

/-- The pattern of the owners reaches none of the words that name a register; the list of groups in it does change. -/
theorem ownersSafe_words (gs : List Nat) (detail : Nat) : (ownersSafe gs detail).Fixes State.delayWord :=
  .forM (fun g => .read fun _ => .thenMore
    (.bind (.act fun _ => rfl) fun _ => (applyPattern_delay g _).comp Prod.fst) fun _ =>
    (occur_delay 32 g detail).comp Prod.fst) _

theorem Same.active {P : List Nat} {s t : State} (h : Same P s t) (hn : 99 ∉ P) (hp : 44 ∉ P) (g : Nat) :
    t.active g = s.active g := by
  simp only [State.active, State.gst, State.grp, h.pls hn hp]

theorem M.Ends.single {α : Type} {f : α → M Unit} {x : α} {s : State} {P : Unit → State → Prop} (h : (f x).Ends s P) :
    ([x].forM f).Ends s P := by
  obtain ⟨_, t, hd, hp⟩ := h
  exact .bind hd (.ofDoes (M.does_pure () t) hp)

theorem M.Does.unique {α : Type} {m : M α} {s t u : State} {a b : α} (h : m.Does s a t) (h' : m.Does s b u) : t = u :=
  (h fun _ => .done).symm.trans (h' fun _ => .done)

/-- A group that is ARMED or RUNNING takes its safe pattern in the pulse island, and source 32 has an occurrence. -/
theorem ownersSafe_single {s : State} {g : Fin 32} (detail : Nat) (hact : s.active g = true) :
    (ownersSafe [g.val] detail).Ends s fun _ t => g.val ∈ t.hid.pls.forced ∧ Counted 32 g s t := by
  refine .single <| .read <| .ite_pos hact <| .afterIn (L := [44]) (M.In.hid_pls _ (by decide)) fun _ u hu hd => ?_
  have hmem : g.val ∈ u.hid.pls.forced := by
    rw [hd.unique (M.does_hid _ s)]
    exact List.mem_cons_self
  refine .afterIn (foot_applyPattern g _) fun _ v hv hd => ?_
  have hforced := delayShown_forced (hd.fixes (applyPattern_delay g _))
  have hsame := (hu.mono (by decide)).trans hv
  have hocc := (occur_delay 32 g detail).run v
  refine .ofDoes ((foot_occur 32 g detail).does v) ⟨?_, ?_⟩
  · rwa [delayShown_forced hocc, hforced]
  · exact (occur_counted 32 (g.castLE (by decide)) detail v).of_shown (hsame.shown 32 (by decide) (by decide))

/-! ## Mismatches -/

/-- PLS.DLY_ERR names a register by its kind and index, and counts (R112). -/
structure Named (kind index : Nat) (s t : State) : Prop where
  mismatch : t.f PLS.DLY_ERR.MISMATCH = 1
  kind : t.f PLS.DLY_ERR.KIND = kind
  index : t.f PLS.DLY_ERR.INDEX = index
  count : Bumped PLS.DLY_ERR.COUNT s t

/-- A mismatch shows which register it concerns. -/
def nameRegister (kind index : Nat) : M Unit := do
  wf PLS.DLY_ERR.MISMATCH 1
  wf PLS.DLY_ERR.KIND kind
  wf PLS.DLY_ERR.INDEX index
  inc PLS.DLY_ERR.COUNT

theorem DLY_ERR_fields : PLS.DLY_ERR.MISMATCH.Real ∧ PLS.DLY_ERR.KIND.Real ∧ PLS.DLY_ERR.INDEX.Real ∧
    PLS.DLY_ERR.COUNT.Real := by
  decide +kernel

theorem DLY_ERR_beside : PLS.DLY_ERR.MISMATCH.Apart PLS.DLY_ERR.KIND ∧ PLS.DLY_ERR.MISMATCH.Apart PLS.DLY_ERR.INDEX ∧
    PLS.DLY_ERR.MISMATCH.Apart PLS.DLY_ERR.COUNT ∧ PLS.DLY_ERR.KIND.Apart PLS.DLY_ERR.INDEX ∧
    PLS.DLY_ERR.KIND.Apart PLS.DLY_ERR.COUNT ∧ PLS.DLY_ERR.INDEX.Apart PLS.DLY_ERR.COUNT := by
  obtain ⟨hmis, hkind, hindex, -⟩ := DLY_ERR_fields
  exact ⟨.inr ⟨hmis, by decide⟩, .inr ⟨hmis, by decide⟩, .inr ⟨hmis, by decide⟩, .inr ⟨hkind, by decide⟩,
    .inr ⟨hkind, by decide⟩, .inr ⟨hindex, by decide⟩⟩

/-- COUNT is apart from the fields written before it. -/
theorem COUNT_beside : PLS.DLY_ERR.COUNT.Apart PLS.DLY_ERR.MISMATCH ∧ PLS.DLY_ERR.COUNT.Apart PLS.DLY_ERR.KIND ∧
    PLS.DLY_ERR.COUNT.Apart PLS.DLY_ERR.INDEX := by
  obtain ⟨-, -, -, hcount⟩ := DLY_ERR_fields
  exact ⟨.inr ⟨hcount, by decide⟩, .inr ⟨hcount, by decide⟩, .inr ⟨hcount, by decide⟩⟩

/-- The name stays while the owners take their pattern. -/
theorem Named.of_word {kind index : Nat} {s u t : State} (h : Named kind index s u) (hw : t.delayWord = u.delayWord) :
    Named kind index s t := by
  have hf : ∀ x : FldAt, x.addr = PLS.DLY_ERR → t.f x = u.f x := fun x hx => delayWord_f hw (by rw [hx]; decide)
  exact ⟨(hf _ rfl).trans h.mismatch, (hf _ rfl).trans h.kind, (hf _ rfl).trans h.index, h.count.congr rfl (hf _ rfl)⟩

theorem nameRegister_names {kind index : Nat} (hk : kind < 4) (hi : index < 256) (s : State) :
    Named kind index s ((nameRegister kind index).run s) := by
  obtain ⟨hmis, hkind, hindex, hcount⟩ := DLY_ERR_fields
  obtain ⟨hmk, hmi, hmc, hki, hkc, hic⟩ := DLY_ERR_beside
  obtain ⟨hcm, hck, hci⟩ := COUNT_beside
  have hinc : (inc PLS.DLY_ERR.COUNT).In [3] := M.In.inc 3 _ (by decide) (by decide)
  refine (show (nameRegister kind index).Ends s fun _ t => Named kind index s t from ?_).run
  refine .bind (M.does_wf _ _ s) <| .bind (M.does_wf _ _ _) <| .bind (M.does_wf _ _ _) <|
    .ofDoes (hinc.does _) ⟨?_, ?_, ?_, ?_⟩
  · refine ((M.Fixes.incApart hmc).run _).trans ?_
    rw [f_wf_apart hmi, f_wf_apart hmk]
    exact f_wf_same hmis _ _
  · refine ((M.Fixes.incApart hkc).run _).trans ?_
    rw [f_wf_apart hki, f_wf_same hkind]
    exact Nat.mod_eq_of_lt hk
  · refine ((M.Fixes.incApart hic).run _).trans ?_
    rw [f_wf_same hindex]
    exact Nat.mod_eq_of_lt hi
  · exact (hcount.bumped _).congr (by rw [f_wf_apart hci, f_wf_apart hck, f_wf_apart hcm]) rfl

theorem nameRegister_in (kind index : Nat) : (nameRegister kind index).In [3] := by
  have hwf : ∀ x v, x.addr = PLS.DLY_ERR → (wf x v).In [3] := fun x v hx =>
    M.In.wf 3 x v (by rw [hx]; decide) (by decide)
  exact .bind (hwf _ _ rfl) fun _ => .bind (hwf _ _ rfl) fun _ => .bind (hwf _ _ rfl) fun _ =>
    M.In.inc 3 _ (by decide) (by decide)

theorem nameRegister_beyond (kind index : Nat) : (nameRegister kind index).Fixes State.beyond :=
  .bind (wf_beyond _ _) fun _ => .bind (wf_beyond _ _) fun _ => .bind (wf_beyond _ _) fun _ => inc_beyond _

/-- What a mismatch does, given how PLS.DLY_ERR names the register and the groups that own it. -/
def reportMismatch (kind index : Nat) (gs : List Nat) : M Unit := do
  nameRegister kind index
  ownersSafe gs PLS.DLY_ERR

theorem reportMismatch_in (kind index : Nat) (gs : List Nat) :
    (reportMismatch kind index gs).In [0, 1, 3, 4, 5, 6, 9, 12, 16, 17, 20, 33, 35, 43, 44, 45, 46, 47, 48, 49, 50] :=
  .bind ((nameRegister_in kind index).mono (by decide)) fun _ => foot_ownersSafe gs PLS.DLY_ERR

theorem reportMismatch_run (kind index : Nat) (gs : List Nat) (s : State) :
    (reportMismatch kind index gs).run s = (ownersSafe gs PLS.DLY_ERR).run ((nameRegister kind index).run s) :=
  M.Does.run <| ((nameRegister_in kind index).does s).bind ((foot_ownersSafe gs PLS.DLY_ERR).does _)

/-- The register is named, and beside that only the pattern of the owners and the reaction of the ledger show. -/
theorem reportMismatch_names {kind index : Nat} (hk : kind < 4) (hi : index < 256) (gs : List Nat) (s : State) :
    Named kind index s ((reportMismatch kind index gs).run s) ∧
      Keeps [] ledgerPages s ((reportMismatch kind index gs).run s) := by
  have hbeyond : (reportMismatch kind index gs).Fixes State.beyond :=
    .bind (nameRegister_beyond kind index) fun _ => ownersSafe_beyond gs PLS.DLY_ERR
  refine ⟨?_, ((reportMismatch_in kind index gs).run s).keeps (hbeyond.run s) (by decide) (by decide)⟩
  rw [reportMismatch_run]
  exact (nameRegister_names hk hi s).of_word ((ownersSafe_words gs PLS.DLY_ERR).run _)

/-- A register that one ARMED or RUNNING group owns: the group takes its safe pattern, and counts (R112). -/
theorem reportMismatch_single (kind index : Nat) {s : State} {g : Fin 32} (hact : s.active g = true) :
    g.val ∈ ((reportMismatch kind index [g.val]).run s).hid.pls.forced ∧
      Counted 32 g s ((reportMismatch kind index [g.val]).run s) := by
  have hsame := (nameRegister_in kind index).run s
  rw [reportMismatch_run]
  obtain ⟨hforced, hcount⟩ := (ownersSafe_single PLS.DLY_ERR ((hsame.active (by decide) (by decide) g).trans hact)).run
  exact ⟨hforced, hcount.of_shown (hsame.shown 32 (by decide) (by decide))⟩

theorem delayRegMismatch_deadTime (i : Fin 48) :
    delayRegMismatch (.deadTime i) = getS >>= fun s => reportMismatch 0 i (s.delayOwners (.deadTime i)) := rfl

theorem delayRegMismatch_blanking (c : Fin 72) :
    delayRegMismatch (.blanking c) = getS >>= fun s => reportMismatch 1 c (s.delayOwners (.blanking c)) := rfl

theorem delayRegMismatch_tapCodes (b : Fin 9) :
    delayRegMismatch (.tapCodes b) = getS >>= fun s => reportMismatch 2 b (s.delayOwners (.tapCodes b)) := rfl

/-- DELAY_REG_MISMATCH of a register, where PLS.DLY_ERR names it so. -/
theorem delayRegMismatch_run {r : DelayReg} {kind index : Nat} {s : State} (ha : s.awake = true) (hp : s.present 0 = true)
    (h : delayRegMismatch r = getS >>= fun s => reportMismatch kind index (s.delayOwners r)) :
    (onIsland 0 (delayRegMismatch r)).run s = (reportMismatch kind index (s.delayOwners r)).run s := by
  rw [h]
  exact onIsland_run ha hp <| .read <| (reportMismatch_in kind index _).does s

/-! ## SC_BLANK (R147) -/

theorem SCB_fields : GDR.STATUS.SCB_MISMATCH.Real ∧ GDR.STATUS.SCB_PAIR.Real := by decide +kernel

/-- The pair whose copies of SC_BLANK disagree is shown. -/
def namePair (p : Nat) : M Unit := do
  wf GDR.STATUS.SCB_MISMATCH 1
  wf GDR.STATUS.SCB_PAIR p

theorem namePair_in (p : Nat) : (namePair p).In [5] :=
  .bind (M.In.wf 5 _ _ (by decide) (by decide)) fun _ => M.In.wf 5 _ _ (by decide) (by decide)

theorem namePair_names (p : Fin 24) (s : State) :
    ((namePair p).run s).f GDR.STATUS.SCB_MISMATCH = 1 ∧ ((namePair p).run s).f GDR.STATUS.SCB_PAIR = p := by
  obtain ⟨hmis, hpair⟩ := SCB_fields
  have hd : (namePair p).Does s () _ := (M.does_wf _ _ s).bind (M.does_wf _ _ _)
  rw [hd.run]
  constructor
  · rw [f_wf_apart (.inr ⟨hmis, by decide⟩)]
    exact f_wf_same hmis _ _
  · rw [f_wf_same hpair]
    exact Nat.mod_eq_of_lt (lt_trans p.isLt (by decide))

theorem scbMismatch_names {s : State} (ha : s.awake = true) (p : Fin 24) :
    ((whenAwake (scbMismatch p)).run s).f GDR.STATUS.SCB_MISMATCH = 1 ∧
      ((whenAwake (scbMismatch p)).run s).f GDR.STATUS.SCB_PAIR = p ∧
      Keeps [] ledgerPages s ((whenAwake (scbMismatch p)).run s) := by
  obtain ⟨gs, hgs⟩ : ∃ gs, (scbMismatch p).Does s () ((ownersSafe gs GDR.STATUS).run ((namePair p).run s)) :=
    ⟨_, .read <| ((namePair_in p).does s).bind ((foot_ownersSafe _ GDR.STATUS).does _)⟩
  have hword := (ownersSafe_words gs GDR.STATUS).run ((namePair p).run s)
  have hbeyond : ((ownersSafe gs GDR.STATUS).run ((namePair p).run s)).beyond = s.beyond :=
    ((ownersSafe_beyond ..).run _).trans (M.Fixes.run (.bind (wf_beyond _ _) fun _ => wf_beyond _ _) s)
  have hsame := ((namePair_in p).run s).mono (by decide) |>.trans ((foot_ownersSafe gs GDR.STATUS).run _)
  obtain ⟨hmis, hpair⟩ := namePair_names p s
  rw [whenAwake_run ha hgs]
  exact ⟨(delayWord_f hword (by decide)).trans hmis, (delayWord_f hword (by decide)).trans hpair,
    hsame.keeps hbeyond (by decide) (by decide)⟩

/-! ## The statement -/

/-- Settles O36: a valid calibration writes the block's PLS.CAL alone; a failed one, and a mismatch, count before the ledger
reacts, whose reaction leaves PLS.CAL, PLS.DLY_ERR, GDR.STATUS and the list of groups in their safe pattern. -/
theorem delayLinesAndDuplicates : Obligations.Delay_lines_and_duplicates := by
  unfold Obligations.Delay_lines_and_duplicates
  refine ⟨fun s b e ha hp he hnear => ?_, fun s b e ha hp he => ?_, fun s i g ha hp hown hact => ?_, fun s c ha hp => ?_,
    fun s b ha hp => ?_, fun s p ha => .of_next rfl (scbMismatch_names ha p)⟩
  · obtain ⟨r, hgood, hd⟩ := delayCalibration_takes he hnear
    obtain ⟨hvalid, helem, hage, hcoarse⟩ := takeCal_shows b r (show e < 256 by omega) s
    refine .of_next rfl ?_
    rw [onIsland_run ha hp hd]
    exact ⟨hvalid, helem, hage, fun h => hcoarse (hgood ▸ h), takeCal_keeps b e r s⟩
  · obtain ⟨⟨helem, hfail, hage⟩, hcount⟩ := (M.Ends.onIsland ha hp (delayCalibration_fails b he)).run
    have hin := foot_delayCalibration b e
    have hkeeps : Keeps [] ledgerPages s _ := (hin.run s).keeps ((delayCalibration_beyond b e).run s) (by decide) (by decide)
    rw [← onIsland_run ha hp (hin.does s)] at hkeeps
    exact .of_next rfl ⟨helem, hfail, hage, hcount, hkeeps⟩
  · obtain ⟨hnamed, hkeeps⟩ := reportMismatch_names (show 0 < 4 by decide) (lt_trans i.isLt (by decide)) _ s
    obtain ⟨hforced, hcounted⟩ := reportMismatch_single 0 i.val hact
    refine .of_next rfl ?_
    rw [delayRegMismatch_run ha hp (delayRegMismatch_deadTime i), hown]
    exact ⟨hnamed.mismatch, hnamed.kind, hnamed.index, hnamed.count, hforced, hcounted, hkeeps⟩
  · obtain ⟨hnamed, hkeeps⟩ := reportMismatch_names (show 1 < 4 by decide) (lt_trans c.isLt (by decide)) _ s
    refine .of_next rfl ?_
    rw [delayRegMismatch_run ha hp (delayRegMismatch_blanking c)]
    exact ⟨hnamed.mismatch, hnamed.kind, hnamed.index, hnamed.count, hkeeps⟩
  · obtain ⟨hnamed, hkeeps⟩ := reportMismatch_names (show 2 < 4 by decide) (lt_trans b.isLt (by decide)) _ s
    refine .of_next rfl ?_
    rw [delayRegMismatch_run ha hp (delayRegMismatch_tapCodes b)]
    exact ⟨hnamed.mismatch, hnamed.kind, hnamed.index, hnamed.count, hkeeps⟩

end Sys2Proof.Machine
end

section
/-! Statement O37, refuted: TRIP_LATCH_CLEAR of a parameter in which a reserved bit stands. -/

namespace Sys2Proof.Machine

/-- The block in legacy mode, the measurement island PRESENT; the latch of group 0 is set, and in the same word the
reserved bit 24, which no state reached from reset holds (O2). -/
def reservedLatch : State :=
  let s := M.run (do
    wf SYS.STATUS.HOSTMODE 0
    wf (SYS.ISLAND.STATE 7) 2) linkUp
  { s with regs := sput s.regs (TRP.GRP_TRIP 0) 0x81000000 }

theorem reservedLatch_accepts : reservedLatch.accepts .legacy
    [(TRP.GRP_TRIP 0, withBits (reservedLatch.keepWord (TRP.GRP_TRIP 0)) 31 31 1)] = true := by
  decide +kernel

/-- R52: a store leaves no reserved bit in its parameter. -/
theorem latchClear_dropsReserved :
    ((writeField .legacy (TRP.GRP_TRIP.LATCH 0) 1).run reservedLatch).rd (TRP.GRP_TRIP 0) = 0 ∧
      reservedLatch.rd (TRP.GRP_TRIP 0) = 0x81000000 := by
  decide +kernel

/-- Refutes O37: the last clause has TRIP_LATCH_CLEAR leave every bit of TRP.GRP_TRIP but LATCH in every state, so in one whose
word holds a reserved bit. A store leaves such a bit 0 (R52), and the word reads 0 afterwards. -/
theorem not_comparatorCellsTrip : ¬ Obligations.Comparator_cells_trip := by
  unfold Obligations.Comparator_cells_trip
  rintro ⟨-, -, -, -, -, hclear⟩
  obtain ⟨t, ht, -, hword, -⟩ := hclear reservedLatch .legacy 0 reservedLatch_accepts
  obtain ⟨hzero, hstored⟩ := latchClear_dropsReserved
  rw [exec_next_eq ht (m := writeField .legacy (TRP.GRP_TRIP.LATCH 0) 1) rfl] at hword
  have hmasked : (0 : Word) = 0x81000000 &&& 0x7FFFFFFF := hzero.symm.trans (hword.trans (congrArg (· &&& 0x7FFFFFFF) hstored))
  exact absurd hmasked (by decide)

end Sys2Proof.Machine
end

section
/-! Statement O23: SELFTEST of a comparator bank or of a group's driver pairs becomes due (R137, R155). -/

namespace Sys2Proof.Machine

/-! ## From the effect to the end of the request -/

/-- A request whose effect lies in the host link's own state and in that of the comparators, and in no parameter but the link's: what
became due and what the comparators hold stays while the reply is sent. -/
theorem serve_linkAndTrips {op : Nat} {p : Packet} {s t r : State} {a : Ans} {g : Option Seg} (h : s.serves op p = true)
    (hop : op ≠ 0x91 ∧ op ≠ 0xF0)
    (hh : (handle (s.ctxOf op p) p (bodyOf p) ((s.begun op p).segOf (s.ctxOf op p)) none).Does (s.serving op p) (a, g) t)
    (hs : Same [1, 43, 45] (s.serving op p) t) (hb : t.bare = (s.serving op p).bare) (hlog : a.Unlogged)
    (hr : r = (serve op p none).run s) :
    r.hid.cmd.due = t.hid.cmd.due ∧ r.hid.trp = t.hid.trp ∧ Answered op p a s r ∧ Keeps [] eventPages s r := by
  have hserv := serving_bookkept s op p
  have hbare : t.bare = s.bare := hb.trans hserv.bare
  have hbefore := beforeReply_bookkept (s.ctxOf op p) op p a g t
  rw [serve_handled h hop.1 hh ((bare_go hbare).trans (serves_go h)) hlog hop.2] at hr
  have hsent := sendReply_sent p (s.replyKey p) (replyPkt op p a) ((beforeReply (s.ctxOf op p) op p a g).run t)
  have hdue := (beforeReply_cmd (φ := CmdSt.due) (fun _ _ => rfl) (fun _ _ => rfl) (s.ctxOf op p) op p a g).run t
  have hsame : Same [1, 43, 45] s ((beforeReply (s.ctxOf op p) op p a g).run t) :=
    ((hserv.same.mono (by decide)).trans hs).trans (hbefore.same.mono (by decide))
  subst hr
  refine ⟨?_, ?_, ?_, ?_⟩
  · rw [((unsent_cmd CmdSt.due fun _ _ _ _ _ _ => rfl).sendReply ..).run, hdue]
  · exact (show _ = _ from hsent.same.hid (by decide) 45 (by decide)).trans (hbefore.same.hid (by decide) 45 (by decide))
  · exact answered_of_sent (serves_present h) (present_of_bare (hbefore.bare.trans hbare) 10)
      (hsame.spi (by decide) (by decide))
  · exact ((hsame.keepsBare (hbefore.bare.trans hbare) (by decide)).trans hsent.keeps).mono (by simp) (by simp)

/-! ## The request -/

theorem findDue_congr {s t : State} (h : t.hid.cmd.due = s.hid.cmd.due) (kind unit : Nat) :
    t.findDue kind unit = s.findDue kind unit := by rw [State.findDue, h, State.findDue]

theorem findDue_addDue {kind unit : Nat} {s : State} (h : s.findDue kind unit = none) (p : Packet) (byRun : Bool) :
    ((addDue kind unit p byRun).run s).findDue kind unit = some ⟨kind, unit, p, byRun⟩ := by
  have hdue : ((addDue kind unit p byRun).run s).hid.cmd.due = s.hid.cmd.due ++ [⟨kind, unit, p, byRun⟩] := rfl
  rw [State.findDue] at h
  rw [State.findDue, hdue, List.find?_append, h]
  simp

theorem addDue_bare (kind unit : Nat) (p : Packet) (byRun : Bool) : (addDue kind unit p byRun).Fixes State.bare :=
  .hidBare fun _ => rfl

theorem bank_updBank (b : Nat) (f : Bank → Bank) (s : State) : ((updBank b f).run s).bank b = f (s.bank b) :=
  mget_mupd_same _ _ _ _

/-- The payload of a SELFTEST whose reserved bytes are 0. -/
theorem selftest_body {t : Nat} (h : t < 65536) :
    leAt (leBytes 2 t ++ [0, 0]) 0 2 = t ∧ reservedBad (leBytes 2 t ++ [0, 0]) [2, 3] = none :=
  ⟨ofLe_leBytes 2 t h, by simp [reservedBad, leAt, leBytes, ofLe]⟩

theorem wrongNow_of_checksBad {s : State} {c : Ctx} {p : Packet} {body : List Byte} {g : Option Seg}
    (h : s.checksBad c p body g = none) : s.wrongNow c.auth c.op p body = none := by
  cases hw : s.wrongNow c.auth c.op p body with
  | none => rfl
  | some d => simp [State.checksBad, State.stateBad, hw] at h

theorem selftestState_of_wrongNow {s : State} {auth : Nat} {p : Packet} {body : List Byte}
    (h : s.wrongNow auth 0x50 p body = none) : s.selftestState (leAt body 0 2) = none := by
  unfold State.wrongNow at h
  split at h
  · exact absurd h (by simp)
  · exact h

/-- A test of a bank or of a group that runs forbids the same one (R137, R155). -/
theorem findDue_of_selftestState {s : State} {t : Nat} (h : s.selftestState t = none)
    (ht : 0x400 ≤ t ∧ t < 0x408 ∨ 0x500 ≤ t ∧ t < 0x520) : s.findDue 0x50 t = none := by
  by_contra hdue
  have hrun : (s.findDue 0x50 t).isSome = true := Option.isSome_iff_ne_none.mpr hdue
  rcases ht with hbank | hgroup
  · simp [State.selftestState, hbank, hrun] at h
  · simp [State.selftestState, hgroup, hrun, show ¬ t < 0x408 by omega] at h

/-- Where the effect of a SELFTEST begins the same test does not run. -/
theorem serves_notDue {s : State} {p : Packet} (h : s.serves 0x50 p = true) {t : Nat} (ht : leAt (bodyOf p) 0 2 = t)
    (hid : 0x400 ≤ t ∧ t < 0x408 ∨ 0x500 ≤ t ∧ t < 0x520) : (s.serving 0x50 p).findDue 0x50 t = none := by
  obtain ⟨-, -, -, -, hchk⟩ := (serves_iff s 0x50 p).mp h
  have hbegun := findDue_of_selftestState (ht ▸ selftestState_of_wrongNow (wrongNow_of_checksBad hchk)) hid
  have hdue : (s.serving 0x50 p).hid.cmd.due = (s.begun 0x50 p).hid.cmd.due :=
    (serving_cmd (φ := CmdSt.due) (fun _ _ => rfl) s 0x50 p).trans
      (begun_cmd (φ := CmdSt.due) (fun _ _ => rfl) s 0x50 p).symm
  rwa [findDue_congr hdue]

/-- A request that is served comes from a transport, not from a stored sequence. -/
theorem serves_transport {s : State} {op : Nat} {p : Packet} (h : s.serves op p = true) : srcCode p.src ≠ 0x30 := by
  have hlisten := serves_listens h
  cases hsrc : p.src with
  | spi | tunnel => decide
  | canxl c _ => have := c.isLt; simp only [srcCode]; omega
  | udp i _ _ => have := i.isLt; simp only [srcCode]; omega
  | sequence => simp [hsrc, State.listens] at hlisten

theorem handle_selftest {c : Ctx} {p : Packet} {body : List Byte} {s t : State} {a : Ans} (hop : c.op = 0x50)
    (hsrc : c.transport ≠ 0x30) (h : (opSelftest p body false).Does s a t) (g : Option Seg) (svcLow : Option Bool) :
    (handle c p body g svcLow).Does s (a, none) t := by
  refine .read ?_
  simp only [hop, beq_eq_false_iff_ne.mpr hsrc]
  exact h.bind (M.does_pure _ t)

/-- A bank's test runs, and its COMPLETION becomes due. -/
def beginBankTest (b : Nat) (p : Packet) : M Unit := do
  updBank b fun r => { r with testing := true }
  addDue 0x50 (0x400 + b) p false

theorem foot_beginBankTest (b : Nat) (p : Packet) : (beginBankTest b p).In [1, 43, 45] :=
  ((foot_updBank _ _).mono (by decide)).bind fun _ => (foot_addDue _ _ _ _).mono (by decide)

theorem beginBankTest_bare (b : Nat) (p : Packet) : (beginBankTest b p).Fixes State.bare :=
  .bind (.hidBare fun _ => rfl) fun _ => addDue_bare ..

theorem beginBankTest_shows (b : Nat) (p : Packet) {s : State} (h : s.findDue 0x50 (0x400 + b) = none) :
    (((beginBankTest b p).run s).bank b).testing = true ∧
      ((beginBankTest b p).run s).findDue 0x50 (0x400 + b) = some ⟨0x50, 0x400 + b, p, false⟩ :=
  ⟨congrArg Bank.testing (bank_updBank b (fun r => { r with testing := true }) s),
    findDue_addDue (s := (updBank b fun r => { r with testing := true }).run s) h p false⟩

theorem opSelftest_bank {p : Packet} {k : Fin 8} {body : List Byte} {s : State} (hbody : body = leBytes 2 (0x400 + k.val) ++ [0, 0])
    (hp : s.present 7 = true) :
    (opSelftest p body false).Does s { status := stAccepted } ((beginBankTest k p).run s) := by
  have hk := k.isLt
  obtain ⟨ht, hres⟩ := selftest_body (show 0x400 + k.val < 65536 by omega)
  subst hbody
  refine .read ?_
  simp only [hres, ht]
  refine .ite_pos (by omega) <| .ite_neg (by simp [hp]) ?_
  rw [show 0x400 + k.val - 0x400 = k.val by omega]
  exact .bind (M.does_hid _ s) <| .bind (M.does_hid _ _) <| M.does_pure _ _

theorem opSelftest_group {p : Packet} {g : Fin 32} {body : List Byte} {s : State} (hbody : body = leBytes 2 (0x500 + g.val) ++ [0, 0])
    (hp : s.present 7 = true) (hpairs : s.grpPairs g ≠ []) :
    (opSelftest p body false).Does s { status := stAccepted } ((addDue 0x50 (0x500 + g) p false).run s) := by
  have hg := g.isLt
  obtain ⟨ht, hres⟩ := selftest_body (show 0x500 + g.val < 65536 by omega)
  subst hbody
  refine .read ?_
  simp only [hres, ht]
  refine .ite_neg (by omega) <| .ite_pos (by omega) ?_
  rw [show 0x500 + g.val - 0x500 = g.val by omega]
  exact .ite_neg (by simp [hpairs]) <| .ite_neg (by simp [hp]) <| .bind (M.does_hid _ s) <| M.does_pure _ _

theorem grpPairs_of_tabs {s t : State} (h : t.tabs = s.tabs) (g : Nat) : t.grpPairs g = s.grpPairs g := by
  simp only [State.grpPairs, State.chGroup, State.tb, h]

theorem unlogged_accepted : Ans.Unlogged { status := stAccepted } := fun hc => absurd hc.1 (by decide)

/-- Settles O23: a test that may run passes the checks of R137 and R155 again where its effect begins. -/
theorem selftestsBegin : Obligations.Selftests_begin := by
  unfold Obligations.Selftests_begin
  refine ⟨fun s p k h hbody => ?_, fun s p g h hbody => ?_⟩
  · obtain ⟨h, hp⟩ := h
    have hk := k.isLt
    have hserv := serving_bookkept s 0x50 p
    have hd := opSelftest_bank (p := p) hbody ((present_of_bare hserv.bare 7).trans hp)
    have hnot := serves_notDue h (hbody ▸ (selftest_body (by omega)).1) (.inl (show _ ∧ _ by omega))
    obtain ⟨htesting, hfind⟩ := beginBankTest_shows k p hnot
    obtain ⟨hdue, htrp, hans, hkeeps⟩ := serve_linkAndTrips h (by decide) (handle_selftest rfl (serves_transport h) hd _ none)
      ((foot_beginBankTest k p).run _) ((beginBankTest_bare k p).run _) unlogged_accepted rfl
    refine .of_checked rfl ((serves_iff s 0x50 p).mp h).1 ⟨?_, (findDue_congr hdue _ _).trans hfind, hans, hkeeps⟩
    rw [State.bank, htrp]
    exact htesting
  · obtain ⟨h, hp⟩ := h
    obtain ⟨hbody, hpairs⟩ := hbody
    have hg := g.isLt
    have hserv := serving_bookkept s 0x50 p
    have hd := opSelftest_group (p := p) hbody ((present_of_bare hserv.bare 7).trans hp)
      (by rwa [grpPairs_of_tabs (hserv.same.tabs (by decide) (by decide))])
    have hnot := serves_notDue h (hbody ▸ (selftest_body (by omega)).1) (.inr (show _ ∧ _ by omega))
    obtain ⟨hdue, -, hans, hkeeps⟩ := serve_linkAndTrips h (by decide) (handle_selftest rfl (serves_transport h) hd _ none)
      (((foot_addDue _ _ _ _).run _).mono (by decide)) ((addDue_bare ..).run _) unlogged_accepted rfl
    exact .of_checked rfl ((serves_iff s 0x50 p).mp h).1
      ⟨(findDue_congr hdue _ _).trans (findDue_addDue hnot p false), hans, hkeeps⟩

end Sys2Proof.Machine
end

section
/-! SUPPORT for O38: what the reaction to an occurrence leaves of TRP.BANK_STAT (of page 4 it reaches the trip latches
alone), and what an occurrence tells of its source in the ledger. -/

namespace Sys2Proof.Machine

/-! ## A number with one more bit -/

/-- The bits of a number to which a power of two is added whose bit was clear. -/
theorem testBit_add_two_pow {n i : Nat} (h : n.testBit i = false) (j : Nat) :
    (n + 2 ^ i).testBit j = (n.testBit j || decide (j = i)) := by
  obtain ⟨q, r, hr, rfl⟩ : ∃ q r, r < 2 ^ i ∧ n = 2 ^ i * q + r :=
    ⟨n / 2 ^ i, n % 2 ^ i, Nat.mod_lt _ (Nat.two_pow_pos i), (Nat.div_add_mod n (2 ^ i)).symm⟩
  rw [show 2 ^ i * q + r + 2 ^ i = 2 ^ i * (q + 1) + r by ring, Nat.testBit_two_pow_mul_add _ hr,
    Nat.testBit_two_pow_mul_add _ hr]
  simp only [Nat.testBit_two_pow_mul_add _ hr, lt_irrefl, if_false, Nat.sub_self, Nat.testBit_zero,
    decide_eq_false_iff_not] at h
  by_cases hj : j < i
  · simp [hj, show j ≠ i by omega]
  · obtain ⟨k, rfl⟩ := Nat.exists_eq_add_of_le (Nat.le_of_not_lt hj)
    cases k with
    | zero => simp [Nat.testBit_zero]; omega
    | succ k => simp [Nat.testBit_succ, show (q + 1) / 2 = q / 2 by omega]

theorem bit_setBit (n i j : Nat) : bit (setBit n i) j = (bit n j || decide (j = i)) := by
  unfold setBit
  split
  · next h => by_cases hj : j = i <;> simp [hj, h]
  · next h =>
    simp only [bit_eq_testBit] at h ⊢
    exact testBit_add_two_pow (Bool.eq_false_of_not_eq_true h) j

theorem setBit_lt {n i w : Nat} (hn : n < 2 ^ w) (hi : i < w) : setBit n i < 2 ^ w := by
  refine Nat.lt_pow_two_of_testBit _ fun j hj => ?_
  have hhigh : n.testBit j = false := Nat.testBit_lt_two_pow (hn.trans_le (Nat.pow_le_pow_right (by decide) hj))
  rw [← bit_eq_testBit, bit_setBit, bit_eq_testBit, hhigh]
  simp; omega

/-! ## The word of a bank -/

/-- What TRP.BANK_STAT of a bank holds. -/
def State.bankWord (b : Nat) (s : State) : Word := s.rd (TRP.BANK_STAT b)

theorem bankWord_f {b : Nat} {s t : State} (h : t.bankWord b = s.bankWord b) {x : FldAt} (hx : x.addr = TRP.BANK_STAT b) :
    t.f x = s.f x := f_of_rd_eq x (hx ▸ h)

theorem Same.bankWord {P : List Nat} {s t : State} (b : Nat) (h : Same P s t) (hn : 99 ∉ P ∧ 4 ∉ P) :
    t.bankWord b = s.bankWord b := h.rd hn.1 _ (by rw [TRP.BANK_STAT_page]; exact hn.2)

theorem M.Fixes.bankIn {α : Type} {P : List Nat} {m : M α} (b : Nat) (h : m.In P) (hn : 99 ∉ P ∧ 4 ∉ P) :
    m.Fixes (State.bankWord b) := .ofIn h fun _ _ hs => hs.bankWord b hn

theorem M.Fixes.bankWf {x : FldAt} {b : Nat} (v : Nat) (hx : TRP.BANK_STAT b ≠ x.addr) : (wf x v).Fixes (State.bankWord b) :=
  .read fun _ => .act fun s => rd_apply_reg_other _ _ _ s hx

theorem M.Fixes.bankInc {x : FldAt} {b : Nat} (hx : TRP.BANK_STAT b ≠ x.addr) : (inc x).Fixes (State.bankWord b) :=
  .read fun _ => .when (.bankWf _ hx)

theorem M.Fixes.bankHid (b : Nat) (f : Hidden → Hidden) : (hid f).Fixes (State.bankWord b) := .act fun _ => rfl

theorem BANK_STAT_apart (b : Fin 8) (i : Nat) :
    TRP.BANK_STAT b ≠ TRP.GRP_TRIP i ∧ TRP.BANK_STAT b ≠ TRP.CELL_STAT i := by
  have hb := b.isLt
  unfold TRP.BANK_STAT TRP.GRP_TRIP TRP.CELL_STAT arr
  constructor <;> split <;> split <;> omega

/-- A trip shows in the latch of its group. -/
theorem tripGroup_bank (b : Fin 8) (g kind first : Nat) : (tripGroup g kind first).Fixes (State.bankWord b) := by
  have htrip := (BANK_STAT_apart b g).1
  exact .read fun _ => .ite
    (.bind (.bankWf _ htrip) fun _ => .bind (.bankWf _ htrip) fun _ => .bind (.bankWf _ htrip) fun _ =>
      .bind (.bankWf _ htrip) fun _ => .bind (.bankWf _ htrip) fun _ => .bind (.bankInc htrip) fun _ =>
      .bind (.bankIn b (foot_applyPattern _ _) (by decide)) fun _ => .bind (.bankIn b (foot_dropGroup g) (by decide)) fun _ =>
      .bind (.bankHid _ _) fun _ => .bind (.bankIn b (foot_setGState _ _ _) (by decide)) fun _ =>
      .bind (.bankIn b (foot_eventGrp _ _ _) (by decide)) fun _ => .pure _) <|
    .ite (.bind (.bankWf _ htrip) fun _ => .bind (.bankWf _ htrip) fun _ => .bind (.bankInc htrip) fun _ =>
      .bind (.bankIn b (foot_applyPattern _ _) (by decide)) fun _ =>
      .bind (.bankIn b (foot_eventGrp _ _ _) (by decide)) fun _ => .pure _) (.pure _)

theorem emergencyStop_bank (b : Fin 8) (cause : Nat) (toFault : Bool) :
    (emergencyStop cause toFault).Fixes (State.bankWord b) := by
  have hcount : (inc CHG.COUNT.EMERGENCY).In [12] := M.In.inc 12 _ (by decide) (by decide)
  exact .read fun _ => .when <| .bind (.bankIn b hcount (by decide)) fun _ => .bind (tripGroup_bank b _ _ _) fun _ =>
    .bind (tripGroup_bank b _ _ _) fun _ => .bind (.bankHid _ _) fun _ =>
    .bind (.bankIn b foot_releaseRelays (by decide)) fun _ => .bankIn b (foot_setChg _ _) (by decide)

theorem forceAct_bank (b : Fin 8) (g code cause : Nat) : (forceAct g code cause).Fixes (State.bankWord b) :=
  .read fun _ => .bind (.bankIn b (foot_forceGroup _ _ _) (by decide)) fun _ => .when (emergencyStop_bank b _ _)

theorem funcEffect_bank (b : Fin 8) (f g cause : Nat) : (funcEffect f g cause).Fixes (State.bankWord b) := by
  refine .read fun s => ?_
  split
  · exact forceAct_bank b _ _ _
  · exact .when <| .ite (.when (.bankHid _ _)) (forceAct_bank b _ _ _)
  · exact forceAct_bank b _ _ _
  · exact forceAct_bank b _ _ _
  · exact .pure _

theorem trigger_bank (b : Fin 8) (f src key : Nat) (gs : List Nat) (cause : Nat) :
    (trigger f src key gs cause).Fixes (State.bankWord b) := by
  have hwf : ∀ x v, x.addr / 65536 = 16 → (wf x v).Fixes (State.bankWord b) := fun x v hx =>
    .bankIn b (M.In.wf (P := [16]) 16 x v hx (by decide)) (by decide)
  have hstat := SAF.FUNC_STAT_page f
  have hcount : (inc (SAF.FUNC_STAT.COUNT f)).In [16] := M.In.inc 16 _ hstat (by decide)
  exact .read fun _ => .when <| .bind (.bankHid _ _) fun _ => .bind (hwf _ _ hstat) fun _ => .bind (hwf _ _ hstat) fun _ =>
    .thenMore (.bind (hwf _ _ hstat) fun _ => .bind (hwf _ _ (by decide)) fun _ => .bind (.bankIn b hcount (by decide)) fun _ =>
      .bind (.bankIn b (foot_funcEvent _ _) (by decide)) fun _ => .bankIn b (foot_funcStart f) (by decide)) fun _ =>
    .forM (fun _ => funcEffect_bank b _ _ _) _

theorem startSs1_bank (b : Fin 8) (g cause : Nat) : (startSs1 g cause).Fixes (State.bankWord b) :=
  .read fun _ => .when <| .bind (trigger_bank b _ _ _ _ _) fun _ => .read fun _ => .when <|
    .bankIn b (foot_withdraw _ _ _) (by decide)

theorem react_bank (b : Fin 8) (cls src inst : Nat) : (react cls src inst).Fixes (State.bankWord b) :=
  .read fun _ => .ite (.forM (fun _ => startSs1_bank b _ _) _) <| .ite (.forM (fun _ => forceAct_bank b _ _ _) _) <|
    .when <| .bind (.forM (fun _ => forceAct_bank b _ _ _) _) fun _ => .bankIn b foot_deviceSafe (by decide)

theorem occurrence_bank (b : Fin 8) (src inst detail : Nat) : (occurrence src inst detail).Fixes (State.bankWord b) := by
  have hwf : (wf (FLG.OCCUR.LAST_INSTANCE src) inst).In [17] := M.In.wf 17 _ _ (FLG.OCCUR_page src) (by decide)
  have hinc : ∀ x : FldAt, x.addr = FLG.OCCUR src → (inc x).In [17] := fun x hx =>
    M.In.inc 17 x (hx ▸ FLG.OCCUR_page src) (by decide)
  have hwr : ∀ w, (wr (FLG.LASTING src) w).In [17] := fun w => M.In.wr 17 _ w (FLG.LASTING_page src) (by decide)
  exact .read fun _ => .bind (.bankIn b (hinc _ rfl) (by decide)) fun _ => .bind (.bankIn b hwf (by decide)) fun _ =>
    .bind (.bankHid _ _) fun _ =>
    .ite (.bind (.bankIn b (hwr _) (by decide)) fun _ => .bind (.bankIn b (hinc _ rfl) (by decide)) fun _ =>
      .bind (.bankIn b foot_setLastingSrc (by decide)) fun _ => .bind (.bankIn b (foot_queueEntry _ _) (by decide)) fun _ =>
      .bind (.bankIn b (foot_ledgerEvent _) (by decide)) fun _ => .bind (react_bank b _ _ _) fun _ => .pure _)
    (.bind (.bankHid _ _) fun _ => .pure _)

theorem occur_bank (b : Fin 8) (src inst detail : Nat) : (occur src inst detail).Fixes (State.bankWord b) :=
  .bind (occurrence_bank b _ _ _) fun _ => .pure _

/-! ## A source in the ledger -/

/-- What the ledger holds of a source: its counts and its lasting bits (R402, R407, R410). -/
def State.sourceShown (src : Nat) (s : State) : (Nat × Nat) × Word := (s.occurShown src, s.rd (FLG.LASTING src))

theorem Same.source {P : List Nat} {s t : State} (src : Nat) (h : Same P s t) (hn : 99 ∉ P ∧ 17 ∉ P) :
    t.sourceShown src = s.sourceShown src :=
  Prod.ext (h.shown src hn.1 hn.2) (h.rd hn.1 _ (by rw [FLG.LASTING_page]; exact hn.2))

theorem M.Fixes.sourceIn {α : Type} {P : List Nat} {m : M α} (src : Nat) (h : m.In P) (hn : 99 ∉ P ∧ 17 ∉ P) :
    m.Fixes (State.sourceShown src) := .ofIn h fun _ _ hs => hs.source src hn

theorem M.Fixes.sourceWr {a src : Nat} (w : Word) (h : FLG.OCCUR src ≠ a ∧ FLG.LASTING src ≠ a) :
    (wr a w).Fixes (State.sourceShown src) := .prod (.shownWr w h.1) (.act fun s => rd_apply_reg_other _ _ w s h.2)

theorem M.Fixes.sourceWf {x : FldAt} {src : Nat} (v : Nat) (h : FLG.OCCUR src ≠ x.addr ∧ FLG.LASTING src ≠ x.addr) :
    (wf x v).Fixes (State.sourceShown src) := .read fun _ => .sourceWr _ h

theorem M.Fixes.sourceInc {x : FldAt} {src : Nat} (h : FLG.OCCUR src ≠ x.addr ∧ FLG.LASTING src ≠ x.addr) :
    (inc x).Fixes (State.sourceShown src) := .read fun _ => .when (.sourceWf _ h)

/-- The words of two sources, and the counts of the whole ledger, lie apart. -/
theorem source_apart {src other : Fin 256} (h : src ≠ other) :
    (FLG.OCCUR src ≠ FLG.OCCUR other ∧ FLG.LASTING src ≠ FLG.OCCUR other) ∧
      (FLG.OCCUR src ≠ FLG.LASTING other ∧ FLG.LASTING src ≠ FLG.LASTING other) ∧
      FLG.OCCUR src ≠ FLG.STATUS1 ∧ FLG.LASTING src ≠ FLG.STATUS1 := by
  have hs := src.isLt
  have ho := other.isLt
  have hne := Fin.val_ne_of_ne h
  simp only [FLG.OCCUR, FLG.LASTING, FLG.STATUS1, arr, hs, ho, Nat.zero_le, and_self, if_true]
  omega

/-- An occurrence of one source leaves what the ledger holds of another. -/
theorem occurrence_source {src other : Fin 256} (h : src ≠ other) (inst detail : Nat) :
    (occurrence other inst detail).Fixes (State.sourceShown src) := by
  obtain ⟨hoccur, hlasting, hstatus⟩ := source_apart h
  exact .read fun _ => .bind (.sourceInc hoccur) fun _ => .bind (.sourceWf _ hoccur) fun _ => .bind (.act fun _ => rfl) fun _ =>
    .ite (.bind (.sourceWr _ hlasting) fun _ => .bind (.sourceInc hoccur) fun _ =>
      .bind (.read fun _ => .bind (.sourceWf _ hstatus) fun _ => .sourceIn src foot_setAttn (by decide)) fun _ =>
      .bind (.read fun _ => .ite (.sourceIn src (M.In.fltQueue (P := [35]) _ _ (by decide)) (by decide)) (.sourceInc hstatus))
        fun _ => .bind (.sourceIn src (foot_ledgerEvent _) (by decide)) fun _ =>
      .bind (.sourceIn src (foot_react _ _ _) (by decide)) fun _ => .pure _)
    (.bind (.act fun _ => rfl) fun _ => .pure _)

/-- An occurrence is counted, and answers whether it made its pair lasting: if not, the lasting bits are as they were. -/
theorem occurrence_judged (src inst : Fin 256) (detail : Nat) (s : State) :
    (occurrence src inst detail).Ends s fun turned t => Counted src inst s t ∧
      (turned = false → t.rd (FLG.LASTING src) = s.rd (FLG.LASTING src)) := by
  have hne : FLG.LASTING src ≠ FLG.OCCUR src := (FLG.OCCUR_apart src).1.symm
  have hinc : (inc (FLG.OCCUR.OCCURRENCES src)).In [17] := M.In.inc 17 _ (FLG.OCCUR_page _) (by decide)
  have hkept := (M.Fixes.incOutside (x := FLG.OCCUR.OCCURRENCES src) (List.mem_singleton.mpr rfl)).run s
  suffices h : (occurrence src inst detail).Ends s fun turned t =>
      turned = false → t.rd (FLG.LASTING src) = s.rd (FLG.LASTING src) by
    obtain ⟨turned, t, hd, hlast⟩ := h
    obtain ⟨_, u, hd', hcount⟩ := occurrence_counted src inst detail s
    exact .ofDoes hd ⟨hd.unique hd' ▸ hcount, hlast⟩
  refine .read <| .bind (hinc.does s) <| .bind (M.does_wf _ _ _) <| .bind (M.does_hid _ _) <| .ite ?_ ?_
  · exact .bind (M.does_wr _ _ _) <| .afterIn (L := [17]) (M.In.inc 17 _ (FLG.OCCUR_page _) (by decide)) fun _ _ _ _ =>
      .afterIn foot_setLastingSrc fun _ _ _ _ => .afterIn (foot_queueEntry _ _) fun _ _ _ _ =>
      .afterIn (foot_ledgerEvent _) fun _ _ _ _ => .afterIn (foot_react _ _ _) fun _ _ _ _ =>
      .ofDoes (M.does_pure _ _) fun h => absurd h (by decide)
  · refine .bind (M.does_hid _ _) <| .ofDoes (M.does_pure _ _) fun _ => ?_
    have hsame := (Keeps.ofOutside hkept).rd _ (fun hin => hne (List.mem_singleton.mp hin)) List.not_mem_nil
    exact (rd_apply_reg_other _ _ _ _ hne).trans hsame

end Sys2Proof.Machine
end

section
/-! Statement O38: rotation slots, mirror mismatches and commanded self-tests (R132 to R137, R155, R156). -/

namespace Sys2Proof.Machine

/-! ## The fields of TRP.BANK_STAT -/

theorem BANK_STAT_flags (b : Fin 8) : (TRP.BANK_STAT.DEGRADED b).Real ∧ (TRP.BANK_STAT.ROT_ACTIVE b).Real ∧
    (TRP.BANK_STAT.CMD_TESTED b).Real := by
  revert b
  decide +kernel

theorem BANK_STAT_numbers (b : Fin 8) : (TRP.BANK_STAT.FAILED b).Real ∧ (TRP.BANK_STAT.MIRROR b).Real ∧
    (TRP.BANK_STAT.ROTATIONS b).Real := by
  revert b
  decide +kernel

/-- A degraded bank is written DEGRADED, then ROT_ACTIVE, then SLOT. -/
theorem DEGRADED_beside (b : Fin 8) : (TRP.BANK_STAT.DEGRADED b).Apart (TRP.BANK_STAT.ROT_ACTIVE b) ∧
    (TRP.BANK_STAT.DEGRADED b).Apart (TRP.BANK_STAT.SLOT b) ∧
    (TRP.BANK_STAT.ROT_ACTIVE b).Apart (TRP.BANK_STAT.SLOT b) := by
  revert b
  decide +kernel

/-- Those three leave the number of mirror mismatches and the failed positions. -/
theorem BANK_STAT_counts_beside (b : Fin 8) : ∀ x ∈ [TRP.BANK_STAT.FAILED b.val, TRP.BANK_STAT.MIRROR b],
    ∀ y ∈ [TRP.BANK_STAT.DEGRADED b.val, TRP.BANK_STAT.ROT_ACTIVE b, TRP.BANK_STAT.SLOT b], x.Apart y := by
  revert b
  decide +kernel

theorem MIRROR_beside (b : Fin 8) : (TRP.BANK_STAT.MIRROR b).Apart (TRP.BANK_STAT.FAILED b) ∧
    (TRP.BANK_STAT.MIRROR b).Apart (TRP.BANK_STAT.ROTATIONS b) ∧
    (TRP.BANK_STAT.FAILED b).Apart (TRP.BANK_STAT.CMD_TESTED b) := by
  revert b
  decide +kernel

/-! ## Showing the positions -/

theorem M.Fixes.forMem {α γ : Type} {π : State → γ} {f : α → M Unit} :
    ∀ l : List α, (∀ x ∈ l, (f x).Fixes π) → (l.forM f).Fixes π
  | [], _ => .pure _
  | x :: l, h => (h x List.mem_cons_self).bind fun _ => M.Fixes.forMem l fun y hy => h y (List.mem_cons_of_mem _ hy)

/-- The cells of a bank. -/
def bankCells (b : Nat) : List Nat := (List.range 9).map fun k => TRP.CELL_STAT (9 * b + k)

theorem mem_bankCells (b : Nat) {k : Nat} (h : k < 9) : TRP.CELL_STAT (9 * b + k) ∈ bankCells b :=
  List.mem_map.mpr ⟨k, List.mem_range.mpr h, rfl⟩

theorem showBank_outside (b : Nat) : (showBank b).Fixes (State.outside (bankCells b)) :=
  .read fun _ => .bind
    (.forMem _ fun _ hk => .wfOutside _ (mem_bankCells b (by have := List.mem_range.mp hk; omega))) fun _ =>
    .wfOutside _ (mem_bankCells b (by decide))

theorem showBank_bank (b : Fin 8) : (showBank b).Fixes (State.bankWord b) :=
  .read fun _ => .bind (.forM (fun _ => .bankWf _ (BANK_STAT_apart b _).2) _) fun _ => .bankWf _ (BANK_STAT_apart b _).2

theorem Same.bank {P : List Nat} {s t : State} (b : Nat) (h : Same P s t) (hn : 99 ∉ P ∧ 45 ∉ P) : t.bank b = s.bank b := by
  have htrp : t.hid.trp = s.hid.trp := h.hid hn.1 45 hn.2
  rw [State.bank, htrp, State.bank]

/-! ## A rotation slot whose measurements pass (R132) -/

/-- The rotation stands at the next slot, and the last one of a round counts. -/
structure NextSlot (b : Nat) (s t : State) : Prop where
  slot : (t.bank b).slot = if (s.bank b).slot = 7 then 0 else (s.bank b).slot + 1
  rotations : t.f (TRP.BANK_STAT.ROTATIONS b) =
    if (s.bank b).slot = 7 then (s.f (TRP.BANK_STAT.ROTATIONS b) + 1) % 256 else s.f (TRP.BANK_STAT.ROTATIONS b)

theorem nextSlot_shows (b : Fin 8) (s : State) : NextSlot b s ((nextSlot b).run s) := by
  obtain ⟨-, -, hrot⟩ := BANK_STAT_numbers b
  refine (show (nextSlot b).Ends s fun _ t => NextSlot b s t from ?_).run
  refine .read <| .bind (M.does_hid _ s) ?_
  have hslot := congrArg Bank.slot (bank_updBank b (fun r => { r with
    slot := if (s.bank b).slot = 7 then 0 else (s.bank b).slot + 1 }) s)
  by_cases h : (s.bank b).slot = 7
  · refine .ite_pos h <| .ofDoes (M.does_wf _ _ _) ⟨?_, (f_wf_same hrot _ _).trans (if_pos h).symm⟩
    rw [State.bank, apply_reg_hid]
    exact hslot
  · exact .ite_neg h <| .ofDoes (M.does_pure _ _) ⟨hslot, (if_neg h).symm⟩

theorem nextSlot_outside (b : Nat) : (nextSlot b).Fixes (State.outside [TRP.BANK_STAT b]) :=
  .read fun _ => .bind (hid_outside _) fun _ => .when <| .read fun _ => .wfOutside _ (List.mem_singleton.mpr rfl)

/-- A bank whose rotation runs, with a slot that passes. -/
theorem rotationSlot_passes {s : State} {b : Nat} {r : SlotResult} (hrot : s.f (TRP.BANK_STAT.ROT_ACTIVE b) = 1)
    (htest : (s.bank b).testing = false) (hspare : ({} : TestCfg).fails r.spare = none)
    (hpos : (s.testCfg (9 * b + (s.bank b).slot)).fails r.pos = none) :
    (rotationSlot b r).Does s () ((nextSlot b).run ((showBank b).run s)) := by
  refine .read <| .ite_pos (by simp [hrot, htest]) ?_
  simp only [hspare, hpos]
  exact ((foot_showBank b).does s).bind ((foot_nextSlot b).does _)

theorem rotationSlot_next {s : State} (b : Fin 8) {t : State} (ht : t = (nextSlot b).run ((showBank b).run s)) :
    NextSlot b s t ∧ Keeps (TRP.BANK_STAT b :: bankCells b) [] s t := by
  subst ht
  have hbank := ((foot_showBank b).run s).bank b (by decide)
  have hword := bankWord_f (x := TRP.BANK_STAT.ROTATIONS b) ((showBank_bank b).run s) rfl
  obtain ⟨hslot, hrotations⟩ := nextSlot_shows b ((showBank b).run s)
  rw [hbank] at hslot hrotations
  rw [hword] at hrotations
  refine ⟨⟨hslot, hrotations⟩, ?_⟩
  have hshown := Keeps.ofOutside ((showBank_outside b).run s)
  exact (hshown.trans (.ofOutside ((nextSlot_outside b).run _))).mono (by simp) (by simp)

/-! ## A position that fails (R136) -/

/-- A bank is degraded, and its rotation has stopped. -/
structure Degraded (b : Nat) (s t : State) : Prop where
  degraded : t.f (TRP.BANK_STAT.DEGRADED b) = 1
  stopped : t.f (TRP.BANK_STAT.ROT_ACTIVE b) = 0
  failed : t.f (TRP.BANK_STAT.FAILED b) = s.f (TRP.BANK_STAT.FAILED b)
  mirror : t.f (TRP.BANK_STAT.MIRROR b) = s.f (TRP.BANK_STAT.MIRROR b)

theorem Degraded.of_word {b : Nat} {s u t : State} (h : Degraded b s u) (hw : t.bankWord b = u.bankWord b) : Degraded b s t :=
  ⟨(bankWord_f hw rfl).trans h.degraded, (bankWord_f hw rfl).trans h.stopped, (bankWord_f hw rfl).trans h.failed,
    (bankWord_f hw rfl).trans h.mirror⟩

theorem degrade_degrades (b : Fin 8) (s : State) : Degraded b s ((degrade b).run s) := by
  obtain ⟨hdeg, hrot, -⟩ := BANK_STAT_flags b
  obtain ⟨hdr, hds, hrs⟩ := DEGRADED_beside b
  have hcounts := BANK_STAT_counts_beside b
  have hkept : ∀ x ∈ [TRP.BANK_STAT.FAILED b.val, TRP.BANK_STAT.MIRROR b], (do
      wf (TRP.BANK_STAT.DEGRADED b) 1
      wf (TRP.BANK_STAT.ROT_ACTIVE b) 0
      wf (TRP.BANK_STAT.SLOT b) 0xF : M Unit).Fixes fun s => s.f x := fun x hx =>
    .bind (.wfApart (hcounts x hx _ (by simp)) _) fun _ => .bind (.wfApart (hcounts x hx _ (by simp)) _) fun _ =>
      .wfApart (hcounts x hx _ (by simp)) _
  have hfailed := (hkept (TRP.BANK_STAT.FAILED b) (by simp)).run s
  have hmirror := (hkept (TRP.BANK_STAT.MIRROR b) (by simp)).run s
  refine (show (degrade b).Ends s fun _ t => Degraded b s t from ?_).run
  refine .bind (M.does_wf _ _ s) <| .bind (M.does_wf _ _ _) <| .bind (M.does_wf _ _ _) <|
    .ofFixes (showBank_bank b) fun _ t ht => ⟨(bankWord_f ht rfl).trans ?_, (bankWord_f ht rfl).trans ?_,
      (bankWord_f ht rfl).trans hfailed, (bankWord_f ht rfl).trans hmirror⟩
  · exact (f_wf_apart hds _ _).trans ((f_wf_apart hdr _ _).trans (f_wf_same hdeg _ _))
  · exact (f_wf_apart hrs _ _).trans (f_wf_same hrot _ _)

/-- A position of a bank has failed: it is marked, the bank is degraded, and source 40 has an occurrence. -/
structure PositionFailed (b k : Nat) (s t : State) : Prop where
  failed : t.f (TRP.BANK_STAT.FAILED b) = setBit (s.f (TRP.BANK_STAT.FAILED b)) k
  degraded : t.f (TRP.BANK_STAT.DEGRADED b) = 1
  stopped : t.f (TRP.BANK_STAT.ROT_ACTIVE b) = 0
  mirror : t.f (TRP.BANK_STAT.MIRROR b) = s.f (TRP.BANK_STAT.MIRROR b)
  counted : Counted 40 b s t
  sources : t.sourceShown 41 = s.sourceShown 41

/-- What follows the choice of the cell that the spare serves. -/
def reportFailed (b k test : Nat) : M Unit := do
  degrade b
  occur 40 b (TRP.BANK_STAT b)
  eventDev 0x8021 (by1 [b, k, test])

theorem reportFailed_does (b k test : Nat) (s : State) : (reportFailed b k test).Does s ()
    ((eventDev 0x8021 (by1 [b, k, test])).run ((occur 40 b (TRP.BANK_STAT b)).run ((degrade b).run s))) :=
  ((foot_degrade b).does s).bind <| ((foot_occur 40 b _).does _).bind <| (foot_eventDev _ _).does _

theorem reportFailed_reports (b : Fin 8) (k test : Nat) {s t : State}
    (ht : t = (eventDev 0x8021 (by1 [b.val, k, test])).run ((occur 40 b (TRP.BANK_STAT b)).run ((degrade b).run s))) :
    Degraded b s t ∧ Counted 40 b s t ∧ t.sourceShown 41 = s.sourceShown 41 := by
  subst ht
  have hdeg := (foot_degrade b).run s
  have hocc := occur_counted 40 (b.castLE (by decide)) (TRP.BANK_STAT b) ((degrade b).run s)
  have hother : (occur 40 b (TRP.BANK_STAT b)).Fixes (State.sourceShown 41) :=
    .bind (occurrence_source (src := 41) (other := 40) (by decide) b _) fun _ => .pure _
  have hevent := (foot_eventDev 0x8021 (by1 [b.val, k, test])).run ((occur 40 b (TRP.BANK_STAT b)).run ((degrade b).run s))
  refine ⟨((degrade_degrades b s).of_word ((occur_bank b _ _ _).run _)).of_word (hevent.bankWord b (by decide)), ?_, ?_⟩
  · exact (hocc.of_shown (hdeg.shown 40 (by decide) (by decide))).then_shown (hevent.shown 40 (by decide) (by decide))
  · exact (hevent.source 41 (by decide)).trans ((hother.run _).trans (hdeg.source 41 (by decide)))

theorem positionFailed_reports (b : Fin 8) {k : Nat} (hk : k < 9) (test : Nat) (s : State) :
    (positionFailed b k test).Ends s fun _ t => PositionFailed b k s t := by
  obtain ⟨hfailed, -, -⟩ := BANK_STAT_numbers b
  obtain ⟨hmf, -, -⟩ := MIRROR_beside b
  have hwf : (wf (TRP.BANK_STAT.FAILED b) (setBit (s.f (TRP.BANK_STAT.FAILED b)) k)).In [4] :=
    M.In.wf 4 _ _ (TRP.BANK_STAT_page b) (by decide)
  have hsame := hwf.run s
  have hmark := f_wf_same hfailed (setBit (s.f (TRP.BANK_STAT.FAILED b)) k) s
  rw [Nat.mod_eq_of_lt (setBit_lt (f_lt _ s) hk)] at hmark
  have hmirror := f_wf_apart hmf (setBit (s.f (TRP.BANK_STAT.FAILED b)) k) s
  have hrest : ∀ u v : State, v = (wf (TRP.BANK_STAT.FAILED b) (setBit (s.f (TRP.BANK_STAT.FAILED b)) k)).run s →
      Same [45] v u → (reportFailed b k test).Ends u fun _ t => PositionFailed b k s t := by
    rintro u v rfl hu
    obtain ⟨⟨hdegraded, hstopped, hf, hm⟩, hcount, hsource⟩ := reportFailed_reports b k test (s := u) rfl
    have hboth := (hsame.mono (show ∀ x ∈ [4], x ∈ [4, 45] by decide)).trans (hu.mono (by decide))
    have hword := hu.bankWord b (by decide)
    exact .ofDoes (reportFailed_does b k test u) ⟨hf.trans ((bankWord_f hword rfl).trans hmark), hdegraded, hstopped,
      hm.trans ((bankWord_f hword rfl).trans hmirror), hcount.of_shown (hboth.shown 40 (by decide) (by decide)),
      hsource.trans (hboth.source 41 (by decide))⟩
  refine .read <| .bind (hwf.does s) ?_
  exact .ite (.afterIn (foot_updBank _ _) fun _ u hu _ => hrest u _ rfl hu) <|
    .ite (.afterIn (foot_updBank _ _) fun _ u hu _ => hrest u _ rfl hu) (hrest _ _ rfl (.refl _ _))

theorem showBank_beyond (b : Nat) : (showBank b).Fixes State.beyond :=
  .read fun _ => .bind (.forM (fun _ => wf_beyond _ _) _) fun _ => wf_beyond _ _

theorem degrade_beyond (b : Nat) : (degrade b).Fixes State.beyond :=
  .bind (wf_beyond _ _) fun _ => .bind (wf_beyond _ _) fun _ => .bind (wf_beyond _ _) fun _ => showBank_beyond b

theorem positionFailed_beyond (b k test : Nat) : (positionFailed b k test).Fixes State.beyond := by
  have hrest : (reportFailed b k test).Fixes State.beyond :=
    .bind (degrade_beyond b) fun _ => .bind (occur_beyond _ _ _) fun _ => event_beyond ..
  exact .read fun _ => .bind (wf_beyond _ _) fun _ =>
    .ite (.bind (hid_beyond _) fun _ => hrest) (.thenMore (hid_beyond _) fun _ => hrest)

/-- A failed position reaches the pages of the ledger alone. -/
theorem positionFailed_keeps (b k test : Nat) (s : State) : Keeps [] ledgerPages s ((positionFailed b k test).run s) :=
  ((foot_positionFailed b k test).run s).keeps ((positionFailed_beyond b k test).run s) (by decide) (by decide)

/-- The position that a slot tells has failed: the spare before the relieved one. -/
theorem rotationSlot_fails {s : State} {b : Nat} {r : SlotResult} (hrot : s.f (TRP.BANK_STAT.ROT_ACTIVE b) = 1)
    (htest : (s.bank b).testing = false)
    (hfail : ({} : TestCfg).fails r.spare ≠ none ∨ (s.testCfg (9 * b + (s.bank b).slot)).fails r.pos ≠ none) :
    ∃ test, (rotationSlot b r).Does s () ((positionFailed b (if (({} : TestCfg).fails r.spare).isSome then 8
      else (s.bank b).slot) test).run s) := by
  have hruns : s.f (TRP.BANK_STAT.ROT_ACTIVE b) = 1 ∧ !(s.bank b).testing := by simp [hrot, htest]
  cases hspare : ({} : TestCfg).fails r.spare with
  | some test =>
    refine ⟨test, .read <| .ite_pos hruns ?_⟩
    simp only [hspare]
    exact (foot_positionFailed b 8 test).does s
  | none =>
    cases hpos : (s.testCfg (9 * b + (s.bank b).slot)).fails r.pos with
    | some test =>
      refine ⟨test, .read <| .ite_pos hruns ?_⟩
      simp only [hspare, hpos]
      exact (foot_positionFailed b _ test).does s
    | none => exact (hfail.elim (· hspare) (· hpos)).elim

/-! ## A mirror mismatch (R135) -/

/-- What follows the judgement of a mirror mismatch. -/
def mirrorTail (b : Nat) (spare : CellTest) (turned : Bool) : M Unit := do
  if turned then degrade b
  match ({} : TestCfg).fails spare with
  | some t => positionFailed b 8 t
  | none => if !turned then nextSlot b

/-- What is told of a mirror mismatch stays, and a bank whose mismatch became lasting is degraded. -/
structure MirrorTold (b : Nat) (turned : Bool) (s t : State) : Prop where
  mirror : t.f (TRP.BANK_STAT.MIRROR b) = s.f (TRP.BANK_STAT.MIRROR b)
  sources : t.sourceShown 41 = s.sourceShown 41
  degraded : turned = true → t.f (TRP.BANK_STAT.DEGRADED b) = 1

theorem nextSlot_mirror (b : Fin 8) : (nextSlot b).Fixes fun s => s.f (TRP.BANK_STAT.MIRROR b) := by
  obtain ⟨-, hrotations, -⟩ := MIRROR_beside b
  exact .read fun _ => .bind (.ofIn (foot_updBank b _) fun _ _ h => bankWord_f (h.bankWord b (by decide)) rfl) fun _ =>
    .when <| .read fun _ => .wfApart hrotations _

theorem mirrorTail_tells (b : Fin 8) (spare : CellTest) (turned : Bool) (s : State) :
    (mirrorTail b spare turned).Ends s fun _ t => MirrorTold b turned s t := by
  unfold mirrorTail
  cases hspare : ({} : TestCfg).fails spare with
  | some test =>
    have hfails : ∀ u : State, u.f (TRP.BANK_STAT.MIRROR b) = s.f (TRP.BANK_STAT.MIRROR b) →
        u.sourceShown 41 = s.sourceShown 41 → (positionFailed b 8 test).Ends u fun _ t => MirrorTold b turned s t := by
      intro u hmirror hsource
      obtain ⟨_, t, hd, ht⟩ := positionFailed_reports b (k := 8) (by decide) test u
      exact .ofDoes hd ⟨ht.mirror.trans hmirror, ht.sources.trans hsource, fun _ => ht.degraded⟩
    refine M.Ends.ite ?_ (hfails s rfl rfl)
    exact .bind ((foot_degrade b).does s) <|
      hfails _ (degrade_degrades b s).mirror (((foot_degrade b).run s).source 41 (by decide))
  | none =>
    cases turned with
    | false =>
      have hsame := (foot_nextSlot b).run s
      exact .ofDoes ((foot_nextSlot b).does s) ⟨(nextSlot_mirror b).run s, hsame.source 41 (by decide),
        fun h => absurd h (by decide)⟩
    | true =>
      have hdeg := degrade_degrades b s
      exact .bind ((foot_degrade b).does s) <| .ofDoes (M.does_pure _ _)
        ⟨hdeg.mirror, ((foot_degrade b).run s).source 41 (by decide), fun _ => hdeg.degraded⟩

/-- Where an occurrence did not make its pair lasting, the pair is as lasting as before. -/
theorem lasting_of_word {src inst : Nat} {s t : State} (h : t.rd (FLG.LASTING src) = s.rd (FLG.LASTING src)) :
    t.lasting src inst = s.lasting src inst := by
  rw [State.lasting, State.lasting, h]

theorem cmpMirror_counts {s : State} {b : Fin 8} (spare : CellTest) (hrot : s.f (TRP.BANK_STAT.ROT_ACTIVE b) = 1)
    (htest : (s.bank b).testing = false) : (cmpMirror b spare).Ends s fun _ t =>
      Bumped (TRP.BANK_STAT.MIRROR b) s t ∧ Counted 41 b s t ∧
        (t.lasting 41 b = true → s.lasting 41 b = false → t.f (TRP.BANK_STAT.DEGRADED b) = 1) := by
  obtain ⟨-, hmirror, -⟩ := BANK_STAT_numbers b
  have hinc : (inc (TRP.BANK_STAT.MIRROR b)).In [4] := M.In.inc 4 _ (TRP.BANK_STAT_page b) (by decide)
  have hbump := hmirror.bumped s
  have hsource := (hinc.run s).source 41 (by decide)
  obtain ⟨turned, v, hocc, hcount, hkept⟩ :=
    occurrence_judged 41 (b.castLE (by decide)) (TRP.BANK_STAT b) ((inc (TRP.BANK_STAT.MIRROR b)).run s)
  have hword := hocc.fixes (occurrence_bank b 41 b (TRP.BANK_STAT b))
  obtain ⟨_, t, htail, hm, hs, hdeg⟩ := mirrorTail_tells b spare turned v
  refine .read <| .ite_pos (by simp [hrot, htest]) <| .bind (hinc.does s) <| .bind hocc <|
    .ofDoes htail ⟨?_, ?_, fun hlast hnot => ?_⟩
  · exact hbump.congr rfl (hm.trans (bankWord_f hword rfl))
  · exact (hcount.of_shown (congrArg Prod.fst hsource)).then_shown (congrArg Prod.fst hs)
  · cases turned with
    | true => exact hdeg rfl
    | false =>
      have hsame : t.lasting 41 b = s.lasting 41 b :=
        lasting_of_word ((congrArg Prod.snd hs).trans ((hkept rfl).trans (congrArg Prod.snd hsource)))
      rw [hlast, hnot] at hsame
      exact absurd hsame (by decide)

theorem nextSlot_beyond (b : Nat) : (nextSlot b).Fixes State.beyond :=
  .read fun _ => .bind (hid_beyond _) fun _ => .when <| .read fun _ => wf_beyond _ _

theorem mirrorTail_beyond (b : Nat) (spare : CellTest) (turned : Bool) : (mirrorTail b spare turned).Fixes State.beyond := by
  unfold mirrorTail
  refine M.Fixes.thenMore (degrade_beyond b) fun _ => ?_
  split
  · exact positionFailed_beyond _ _ _
  · exact .when (nextSlot_beyond b)

theorem cmpMirror_beyond (b : Nat) (spare : CellTest) : (cmpMirror b spare).Fixes State.beyond :=
  .read fun _ => .when <| .bind (inc_beyond _) fun _ => .bind (occurrence_beyond _ _ _) fun turned =>
    mirrorTail_beyond b spare turned

theorem cmpMirror_keeps (b : Nat) (spare : CellTest) (s : State) : Keeps [] ledgerPages s ((cmpMirror b spare).run s) :=
  ((foot_cmpMirror b spare).run s).keeps ((cmpMirror_beyond b spare).run s) (by decide) (by decide)

/-! ## Where an operation ends (R40) -/

/-- A view that neither the operations due nor the result that a run awaits change. -/
def DueFree {β : Type} (π : State → β) : Prop :=
  ∀ due result s, π { s with hid := { s.hid with cmd := { s.hid.cmd with due := due, runResult := result } } } = π s

theorem Unsent.sendCompletion {β : Type} {π : State → β} (h : Unsent π)
    (hcmd : DueFree π) (d : Due) (status reason detail : Nat) (data : List Byte) :
    (Machine.sendCompletion d status reason detail data).Fixes π := by
  refine .bind (.act fun s => hcmd _ s.hid.cmd.runResult s) fun _ => .ite (.act fun s => hcmd s.hid.cmd.due _ s) <| .when ?_
  dsimp only
  split
  · exact .read fun _ => .ite (.bind (h.eventPacket ..) fun _ => .bind (h.spiEvent _) fun _ =>
      .bind (h.eventDelivered 0) fun _ => h.setAttn) (h.eventLost 0)
  · exact .bind (h.eventPacket ..) fun _ => .bind (h.sendTo _ _) fun _ =>
      .ite (h.eventDelivered _) (h.hidden fun _ => ⟨_, _, _, _, _, _, rfl⟩)

theorem Unsent.complete {β : Type} {π : State → β} (h : Unsent π)
    (hcmd : DueFree π) (kind unit status reason detail : Nat) (data : List Byte) :
    (Machine.complete kind unit status reason detail data).Fixes π := by
  refine .read fun s => ?_
  split
  · exact h.sendCompletion hcmd ..
  · exact .pure _

theorem complete_keeps (kind unit status reason detail : Nat) (data : List Byte) (s : State) :
    Keeps [] eventPages s ((complete kind unit status reason detail data).run s) :=
  let hin := (foot_complete kind unit status reason detail data).run s
  ⟨fun _ _ ha => ((unsent_rd (not_sendReg_of_page ha)).complete (fun _ _ _ => rfl) ..).run s,
    hin.tabs (by decide) (by decide), hin.vio (by decide) (by decide), hin.chg (by decide) (by decide), hin.pending⟩

/-- What keeps the executor busy: a run that awaits a step, and the requests that wait. -/
def State.executor (s : State) : Option SeqRun × List Req := (s.hid.cmd.run, s.hid.cmd.waiting)

theorem complete_executor (kind unit status reason detail : Nat) (data : List Byte) :
    (complete kind unit status reason detail data).Fixes State.executor :=
  (unsent_cmd (fun x => (x.run, x.waiting)) fun _ _ _ _ _ _ => rfl).complete (fun _ _ _ => rfl) ..

theorem Same.executor {P : List Nat} {s t : State} (h : Same P s t) (hn : 99 ∉ P ∧ 43 ∉ P) : t.executor = s.executor := by
  rw [State.executor, h.cmd hn.1 hn.2, State.executor]

theorem executor_of_quiet {s : State} (h : s.quiet = true) : s.executor = (none, []) := by
  simp only [State.quiet, Bool.and_eq_true, List.isEmpty_iff, Option.isNone_iff_eq_none] at h
  obtain ⟨⟨⟨⟨hwait, hrun⟩, -⟩, -⟩, -⟩ := h
  rw [State.executor, hwait, hrun]

/-- With nothing that waits the executor stays as it is. -/
theorem settleExecutor_idle {s : State} (h : s.executor = (none, [])) : settleExecutor.Does s () s := by
  obtain ⟨hrun, hwait⟩ := Prod.mk.inj h
  have hresume : resumeRun.Does s () s := by
    refine .read ?_
    simp only [show s.hid.cmd.run = none from hrun]
    exact M.does_pure _ _
  refine .bind hresume <| .read ?_
  rw [if_neg (by simp [show s.hid.cmd.waiting = [] from hwait])]
  exact M.does_pure _ _

/-- A test that ends in a quiet block, and leaves the executor as it was, ends the command. -/
theorem selftestCompletion_of_done {s : State} {r : TestResult} {P : State → Prop} (hwf : r.wf = true) (ha : s.awake = true)
    (hq : s.quiet = true) (h : (selftestDone r).Ends s fun _ t => P t ∧ t.executor = s.executor) :
    Completes (.selftestCompletion r) s P := by
  obtain ⟨_, t, hd, hp, hexec⟩ := h
  refine .of_checked rfl hwf ?_
  rw [whenAwake_run ha (hd.bind (settleExecutor_idle (hexec.trans (executor_of_quiet hq))))]
  exact hp

/-! ## A commanded test of a bank that passes (R137) -/

/-- A bank's test has ended well. -/
structure BankPassed (b : Nat) (s t : State) : Prop where
  tested : t.f (TRP.BANK_STAT.CMD_TESTED b) = 1
  failed : t.f (TRP.BANK_STAT.FAILED b) = s.f (TRP.BANK_STAT.FAILED b)
  ended : (t.bank b).testing = false
  keeps : Keeps [TRP.BANK_STAT b] eventPages s t
  executor : t.executor = s.executor

/-- What follows the passes of a bank. -/
theorem bankPassed (b : Fin 8) (data : List Byte) (s : State) :
    BankPassed b s ((complete 0x0050 (0x0400 + b) stOk 0 0 data).run ((wf (TRP.BANK_STAT.CMD_TESTED b) 1).run
      ((updBank b fun r => { r with testing := false, slot := 0 }).run s))) := by
  set u := (updBank b fun r => { r with testing := false, slot := 0 }).run s
  set v := (wf (TRP.BANK_STAT.CMD_TESTED b) 1).run u
  obtain ⟨-, -, hreal⟩ := BANK_STAT_flags b
  obtain ⟨-, -, hapart⟩ := MIRROR_beside b
  have hbank : u.bank b = { s.bank b with testing := false, slot := 0 } := bank_updBank b _ s
  have hwrite : Same [4] u v := (M.In.wf 4 _ 1 (TRP.BANK_STAT_page b) (by decide)).run u
  have hend := (foot_complete 0x0050 (0x0400 + b) stOk 0 0 data).run v
  have hkeeps := complete_keeps 0x0050 (0x0400 + b) stOk 0 0 data v
  have hpage : TRP.BANK_STAT b / 65536 ∉ eventPages := by rw [TRP.BANK_STAT_page]; decide
  refine ⟨(hkeeps.f List.not_mem_nil hpage).trans (f_wf_same hreal 1 u),
    (hkeeps.f List.not_mem_nil hpage).trans (f_wf_apart hapart 1 u), ?_, ?_, ?_⟩
  · rw [hend.bank b (by decide), hwrite.bank b (by decide), hbank]
  · have hmark : (wf (TRP.BANK_STAT.CMD_TESTED b) 1).Fixes (State.outside [TRP.BANK_STAT b]) :=
      .wfOutside _ (List.mem_singleton.mpr rfl)
    have hmarked : Keeps [TRP.BANK_STAT b] [] s v :=
      .ofOutside ((hmark.run u).trans ((hid_outside _).run s))
    exact (hmarked.trans hkeeps).mono (by simp) (by simp)
  · exact ((complete_executor ..).run v).trans ((hwrite.executor (by decide)).trans
      (((foot_updBank b _).run s).executor (by decide)))

theorem bankTestDone_passes {s : State} {b : Fin 8} {tests : List CellTest} (hfailed : s.f (TRP.BANK_STAT.FAILED b) = 0)
    (hserves : (s.bank b).serves = none)
    (hpass : ∀ k < 9, ∀ x, tests[k]? = some x → (if k < 8 then s.testCfg (9 * b + k) else {}).fails x = none) :
    (bankTestDone b tests).Ends s fun _ t => BankPassed b s t := by
  refine .read ?_
  extract_lets before serves tested cfg bad failMask passMask serving finish
  have htested : tested = List.range 9 := by
    simp only [tested, before, hfailed]
    decide
  have hbad : bad = [] := by
    refine List.filterMap_eq_nil_iff.mpr fun k hk => ?_
    have hlt := List.mem_range.mp (htested ▸ hk)
    cases htest : tests[k]? with
    | none => rfl
    | some x =>
      have hcfg : cfg k = if k < 8 then s.testCfg (9 * b + k) else {} := by simp only [cfg, serves, hserves]
      simp only [hcfg, hpass k hlt x htest, Option.map_none]
  have hpassed : passMask = 511 := by
    simp only [passMask, failMask, hbad, htested]
    decide
  have hnone : ∀ u, (bad.forM fun x => positionFailed b x.1 x.2).Does u () u := fun u => by
    rw [hbad]
    exact M.does_pure _ _
  have hserving : serving.all (fun k => bit passMask k) = true := by
    simp only [serving, before, hfailed, serves, hserves, hpassed]
    decide
  refine .bind ((foot_updBank b _).does s) <| .bind (hnone _) <| .ite_pos hserving <|
    .bind ((M.In.wf (P := [4]) 4 _ _ (TRP.BANK_STAT_page b) (by decide)).does _) <|
    .ofDoes ((foot_complete _ _ _ _ _ _).does _) (bankPassed b _ s)

/-! ## A commanded test of a group's driver pairs (R155, R156) -/

/-- The pairs of a group whose measurement fails. -/
def State.failedPairs (s : State) (g : Nat) (tests : List PairTest) : List Nat :=
  (s.grpPairs g).filter fun p => (tests[p]?).any fun x => !s.pairPasses p x

theorem failedPairs_lt {s : State} {g : Nat} {tests : List PairTest} : ∀ p ∈ s.failedPairs g tests, p < 24 := fun _ hp =>
  List.mem_range.mp (List.mem_of_mem_filter (List.mem_of_mem_filter hp))

theorem failedPairs_contains (s : State) (g : Nat) (tests : List PairTest) (p : Nat) : (s.failedPairs g tests).contains p =
    ((s.grpPairs g).contains p && (tests[p]?).any fun x => !s.pairPasses p x) := by
  rw [Bool.eq_iff_iff, List.contains_iff_mem, State.failedPairs, List.mem_filter, Bool.and_eq_true, List.contains_iff_mem]

theorem failedPairs_filter (s : State) (g : Nat) (tests : List PairTest) : ((s.grpPairs g).filter fun p => match tests[p]? with
    | some x => !s.pairPasses p x
    | none => false) = s.failedPairs g tests :=
  List.filter_congr fun p _ => by cases tests[p]? <;> rfl

/-- Mark pairs as failed. -/
def markPairs (l : List Nat) : M Unit := l.forM fun p => do wf GDR.DRV_FAILED.PAIRS (setBit (← rf GDR.DRV_FAILED.PAIRS) p)

theorem markPairs_outside (l : List Nat) : (markPairs l).Fixes (State.outside [GDR.DRV_FAILED]) :=
  .forM (fun _ => .bind (.read fun _ => .pure _) fun _ => .wfOutside _ (List.mem_singleton.mpr rfl)) l

theorem markPairs_in (l : List Nat) : (markPairs l).In [5] :=
  M.In.forM (fun _ => (M.In.rf _).bind fun _ => M.In.wf 5 _ _ (by decide) (by decide)) l

/-- The marks of pairs stand beside those before. -/
theorem markPairs_marks : ∀ (l : List Nat) (_ : ∀ p ∈ l, p < 24) (s : State) (p : Nat),
    bit (((markPairs l).run s).f GDR.DRV_FAILED.PAIRS) p = (bit (s.f GDR.DRV_FAILED.PAIRS) p || l.contains p)
  | [], _, s, p => by simp [(show (markPairs []).Does s () s from M.does_pure _ _).run]
  | q :: l, hl, s, p => by
    have hreal : GDR.DRV_FAILED.PAIRS.Real := by decide +kernel
    obtain ⟨hq, hrest⟩ := List.forall_mem_cons.mp hl
    set u := (wf GDR.DRV_FAILED.PAIRS (setBit (s.f GDR.DRV_FAILED.PAIRS) q)).run s
    have hmark : u.f GDR.DRV_FAILED.PAIRS = setBit (s.f GDR.DRV_FAILED.PAIRS) q :=
      (f_wf_same hreal _ s).trans (Nat.mod_eq_of_lt (setBit_lt (f_lt _ s) hq))
    have hrun : (markPairs (q :: l)).run s = (markPairs l).run u :=
      M.Does.run <| .bind (.bind (.read (M.does_pure _ _)) (M.does_wf _ _ s)) ((markPairs_in l).does _)
    rw [hrun, markPairs_marks l hrest u p, hmark, bit_setBit, List.contains_cons, Bool.or_assoc, beq_eq_decide]

/-- A group's driver test has ended. -/
structure PairsMarked (l : List Nat) (s t : State) : Prop where
  marks : ∀ p, bit (t.f GDR.DRV_FAILED.PAIRS) p = (bit (s.f GDR.DRV_FAILED.PAIRS) p || l.contains p)
  keeps : Keeps [GDR.DRV_FAILED, MAP.STATUS] ledgerPages s t
  executor : t.executor = s.executor

theorem showSpares_outside : showSpares.Fixes (State.outside [MAP.STATUS]) :=
  .read fun _ => .bind (.wfOutside _ (List.mem_singleton.mpr rfl)) fun _ => .wfOutside _ (List.mem_singleton.mpr rfl)

theorem driverTestDone_marks (g : Nat) (tests : List PairTest) (s : State) :
    (driverTestDone g tests).Ends s fun _ t => PairsMarked (s.failedPairs g tests) s t := by
  refine .read ?_
  extract_lets pairs bad failMask passMask
  have hbad : bad = s.failedPairs g tests := failedPairs_filter s g tests
  clear_value bad
  subst hbad
  refine .bind ((markPairs_in _).does s) <| .bind (foot_showSpares.does _) <|
    .ofDoes ((foot_complete _ _ _ _ _ _).does _) ⟨fun p => ?_, ?_, ?_⟩
  · have hshow := (foot_showSpares.run ((markPairs (s.failedPairs g tests)).run s)).f (by decide)
      (x := GDR.DRV_FAILED.PAIRS) (by decide)
    rw [(complete_keeps ..).f List.not_mem_nil (by decide), hshow]
    exact markPairs_marks _ failedPairs_lt s p
  · have hmark := Keeps.ofOutside ((markPairs_outside (s.failedPairs g tests)).run s)
    have hshow := Keeps.ofOutside (showSpares_outside.run ((markPairs (s.failedPairs g tests)).run s))
    exact ((hmark.trans hshow).trans (complete_keeps ..)).mono (by simp) (by decide)
  · exact ((complete_executor ..).run _).trans (((foot_showSpares.run _).executor (by decide)).trans
      (((markPairs_in _).run s).executor (by decide)))

/-- Settles O38: a slot goes on or marks the position that failed, a mirror mismatch counts and degrades the bank
where it becomes lasting, and a commanded test marks what failed. -/
theorem rotationAndSelfTests : Obligations.Rotation_and_self_tests := by
  unfold Obligations.Rotation_and_self_tests
  refine ⟨fun s b r ha hp hrot htest ⟨hspare, hpos⟩ => ?_, fun s b r hfail ha hp hrot htest hslot => ?_,
    fun s b x ha hp hrot htest => ?_, fun s r b ⟨hwf, hr⟩ ha hq hdue ⟨hfailed, hserves⟩ hpass => ?_,
    fun s r g ⟨hwf, hr⟩ ha hq hdue => ?_⟩
  · refine .of_next rfl ?_
    rw [onIsland_run ha hp (rotationSlot_passes hrot htest hspare hpos)]
    obtain ⟨⟨hslot, hrotations⟩, hkeeps⟩ := rotationSlot_next (s := s) b rfl
    exact ⟨hslot, hrotations, hkeeps⟩
  · obtain ⟨test, hdoes⟩ := rotationSlot_fails hrot htest hfail
    refine .of_next rfl ?_
    rw [onIsland_run ha hp hdoes]
    have hk : (if (({} : TestCfg).fails r.spare).isSome then 8 else (s.bank b).slot) < 9 := by split <;> omega
    obtain ⟨hmarked, hdegraded, hstopped, -, hcount, -⟩ := (positionFailed_reports b hk test s).run
    exact ⟨hmarked, hdegraded, hstopped, hcount, positionFailed_keeps b _ test s⟩
  · refine .of_next rfl ?_
    rw [onIsland_run ha hp ((foot_cmpMirror b x).does s)]
    obtain ⟨hbump, hcount, hdeg⟩ := (cmpMirror_counts x hrot htest).run
    exact ⟨hbump, hcount, hdeg, cmpMirror_keeps b x s⟩
  · refine selftestCompletion_of_done hwf ha hq <| .read <| .ite_pos (by rw [hr]; exact Option.isSome_iff_ne_none.mpr hdue) <|
      .ite_pos (by omega) ?_
    have hall : ∀ k < 9, ∀ x, r.cells[k]? = some x → (if k < 8 then s.testCfg (9 * b + k) else {}).fails x = none := by
      intro k hk x hx
      have := List.all_eq_true.mp hpass k (List.mem_range.mpr hk)
      rwa [hx, Option.all_some, Option.isNone_iff_eq_none] at this
    rw [hr, Nat.add_sub_cancel_left]
    obtain ⟨_, t, hd, ht⟩ := bankTestDone_passes hfailed hserves hall
    exact .ofDoes hd ⟨⟨ht.tested, ht.failed.trans hfailed, ht.ended, ht.keeps⟩, ht.executor⟩
  · refine selftestCompletion_of_done hwf ha hq <| .read <| .ite_pos (by rw [hr]; exact Option.isSome_iff_ne_none.mpr hdue) <|
      .ite_neg (by omega) <| .ite_pos (by omega) ?_
    rw [hr, Nat.add_sub_cancel_left]
    obtain ⟨_, t, hd, hmarks, hkeeps, hexec⟩ := driverTestDone_marks g r.pairs s
    exact .ofDoes hd ⟨⟨fun p _ => (hmarks p).trans (by rw [failedPairs_contains]), hkeeps⟩, hexec⟩

end Sys2Proof.Machine
end

section
/-! SUPPORT for O39: through trips, forced states and the reaction of the ledger a group that has stopped stays stopped, and
of page GDR no field changes but SC_ACTIVE of the pairs, which drops with the output cells (R145). -/

namespace Sys2Proof.Machine

/-! ## The view -/

/-- A field of page GDR that is apart from the comparators' SC_ACTIVE. -/
def FldAt.GateDrive (x : FldAt) : Prop := x.addr / 65536 = 5 ∧ ∀ p, x.Apart (GDR.SC_STAT.SC_ACTIVE p)

/-- The states of the groups, and what those fields hold. -/
def State.gateShown (s : State) : (Nat → GState) × ({x : FldAt // x.GateDrive} → Nat) := (s.gst, fun x => s.f x)

theorem gateShown_gst {s t : State} (h : t.gateShown = s.gateShown) (g : Nat) : t.gst g = s.gst g :=
  congrFun (congrArg Prod.fst h) g

theorem gateShown_f {s t : State} (h : t.gateShown = s.gateShown) {x : FldAt} (hx : x.GateDrive) : t.f x = s.f x :=
  congrFun (congrArg Prod.snd h) ⟨x, hx⟩

theorem Same.gst {P : List Nat} {s t : State} (h : Same P s t) (hn : 99 ∉ P) (hp : 44 ∉ P) (g : Nat) : t.gst g = s.gst g := by
  simp only [State.gst, State.grp, h.pls hn hp]

theorem Same.gateShown {P : List Nat} {s t : State} (h : Same P s t) (hn : 99 ∉ P ∧ 5 ∉ P ∧ 44 ∉ P) :
    t.gateShown = s.gateShown :=
  Prod.ext (funext (h.gst hn.1 hn.2.2)) (funext fun x => h.f hn.1 (x.property.1 ▸ hn.2.1))

/-! ## What leaves the view -/

section
variable {α : Type}

theorem M.Fixes.gateIn {P : List Nat} {m : M α} (h : m.In P) (hn : 99 ∉ P ∧ 5 ∉ P ∧ 44 ∉ P) : m.Fixes State.gateShown :=
  .ofIn h fun _ _ hs => hs.gateShown hn

theorem M.Fixes.gateWf {x : FldAt} (v : Nat) (hx : ∀ y : FldAt, y.GateDrive → y.Apart x) : (wf x v).Fixes State.gateShown :=
  ⟨fun s => ⟨(), _, M.does_wf x v s, Prod.ext
    (funext fun g => by simp only [State.gateShown, State.gst, State.grp, apply_reg_hid])
    (funext fun y => f_wf_apart (hx y y.property) v s)⟩⟩

/-- A field of another page. -/
theorem gateDrive_apart_page {x : FldAt} (hx : x.addr / 65536 ≠ 5) (y : FldAt) (hy : y.GateDrive) : y.Apart x :=
  .inl fun h => hx (h ▸ hy.1)

theorem M.Fixes.gateInc {x : FldAt} (hx : x.addr / 65536 ≠ 5) : (inc x).Fixes State.gateShown :=
  .read fun _ => .when (.gateWf _ (gateDrive_apart_page hx))

theorem M.Fixes.gateHid {f : Hidden → Hidden}
    (h : ∀ x g, (mget {} (f x).pls.grps g : Grp).st = (mget {} x.pls.grps g : Grp).st) :
    (hid f).Fixes State.gateShown := .act fun s => Prod.ext (funext (h s.hid)) rfl

theorem updGrp_gate (g : Nat) {f : Grp → Grp} (hf : ∀ r, (f r).st = r.st) : (updGrp g f).Fixes State.gateShown := by
  refine .gateHid fun x j => ?_
  rcases eq_or_ne j g with rfl | hj
  · rw [mget_mupd_same, hf]
  · rw [mget_mupd_other _ _ _ _ _ hj]

theorem updChan_gate (c : Nat) (f : Chan → Chan) : (updChan c f).Fixes State.gateShown := .gateHid fun _ _ => rfl

end

theorem resolveTrg_gate (k : Nat) (stale nextToo : Bool) : (resolveTrg k stale nextToo).Fixes State.gateShown :=
  .read fun _ => .when <| .thenMore (.gateIn (M.In.incBy (P := [3]) 3 _ _ (by decide) (by decide)) (by decide)) fun _ =>
    .bind (.gateHid fun _ _ => rfl) fun _ => .gateIn (foot_resolveHeld _ _) (by decide)

theorem dropGroup_gate (g : Nat) : (dropGroup g).Fixes State.gateShown :=
  .bind (.gateIn (foot_discardShadows g) (by decide)) fun _ =>
    .bind (.read fun _ => .bind (.forM (fun _ => resolveTrg_gate _ _ _) _) fun _ => .gateIn (foot_setProvisional g) (by decide))
      fun _ => updGrp_gate g fun _ => rfl

theorem endSs1_gate (g : Nat) : (endSs1 g).Fixes State.gateShown := updGrp_gate g fun _ => rfl

theorem cellOff_gate (c time : Nat) : (cellOff c time).Fixes State.gateShown := by
  refine .read fun s => .bind (updChan_gate _ _) fun _ => ?_
  split
  · exact .bind (.gateWf _ fun y hy => hy.2 _) fun _ => .gateHid fun _ _ => rfl
  · exact .pure _

theorem cellOn_gate (c time : Nat) : (cellOn c time).Fixes State.gateShown :=
  .read fun _ => .ite (.pure _) <| .thenMore (updChan_gate _ _) fun _ => .pure _

theorem applyPattern_gate (g : Nat) (asc : Bool) : (applyPattern g asc).Fixes State.gateShown :=
  .read fun _ => .forM (fun _ => .ite (.bind (cellOn_gate _ _) fun _ => updChan_gate _ _) (cellOff_gate _ _)) _

theorem gateWf_grp {x : FldAt} {g : Nat} (v : Nat) (hx : x.addr = SAF.GRP g) : (wf x v).Fixes State.gateShown :=
  .gateWf v <| gateDrive_apart_page (by rw [hx, SAF.GRP_page]; decide)

theorem showForce_gate (g : Nat) : (showForce g).Fixes State.gateShown :=
  .read fun _ => .bind (gateWf_grp _ rfl) fun _ => .when <| .bind (gateWf_grp _ rfl) fun _ =>
    .bind (updGrp_gate g fun _ => rfl) fun _ => applyPattern_gate _ _

theorem releaseForce_gate (g code : Nat) : (releaseForce g code).Fixes State.gateShown :=
  .read fun _ => .when <| .bind (updGrp_gate g fun _ => rfl) fun _ =>
    .ite (.bind (gateWf_grp _ rfl) fun _ => gateWf_grp _ rfl) (showForce_gate g)

theorem gateWf_saf {x : FldAt} (v : Nat) (hx : x.addr / 65536 = 16) : (wf x v).Fixes State.gateShown :=
  .gateIn (M.In.wf (P := [16]) 16 x v hx (by decide)) (by decide)

theorem releaseFunc_gate (f : Nat) : (releaseFunc f).Fixes State.gateShown := by
  have hstat := SAF.FUNC_STAT_page f
  exact .read fun _ => .bind (gateWf_saf _ hstat) fun _ => .bind (gateWf_saf _ hstat) fun _ =>
    .bind (gateWf_saf _ (by decide)) fun _ => .bind (gateWf_saf _ hstat) fun _ =>
    .bind (.gateIn (foot_funcEvent _ _) (by decide)) fun _ => .bind (.gateHid fun _ _ => rfl) fun _ =>
    .thenMore (.forM endSs1_gate _) fun _ =>
    .forM (fun _ => .read fun _ => .when (releaseForce_gate _ _)) _

theorem withdraw_gate (f src key : Nat) : (withdraw f src key).Fixes State.gateShown :=
  .read fun _ => .when <| .bind (.gateHid fun _ _ => rfl) fun _ => .read fun _ => .when <|
    .ite (releaseFunc_gate f) (gateWf_saf _ (SAF.FUNC_STAT_page f))

/-! ## Groups that stop -/

/-- Groups changed their state by stopping alone, and the view's fields of the gate drive are as before. -/
structure DriveKept (s t : State) : Prop where
  groups : ∀ g, t.gst g = s.gst g ∨ t.stopped g = true
  fields : ∀ x : FldAt, x.GateDrive → t.f x = s.f x

theorem stopped_of_gst {s t : State} {g : Nat} (h : t.gst g = s.gst g) : t.stopped g = s.stopped g := by
  rw [State.stopped, State.stopped, h]

theorem active_of_gst {s t : State} {g : Nat} (h : t.gst g = s.gst g) : t.active g = s.active g := by
  rw [State.active, State.active, h]

theorem DriveKept.ofShown {s t : State} (h : t.gateShown = s.gateShown) : DriveKept s t :=
  ⟨fun g => .inl (gateShown_gst h g), fun _ hx => gateShown_f h hx⟩

theorem DriveKept.stopped {s t : State} {g : Nat} (h : DriveKept s t) (hs : s.stopped g = true) : t.stopped g = true :=
  (h.groups g).elim (fun hg => (stopped_of_gst hg).trans hs) id

theorem DriveKept.trans {s t u : State} (h : DriveKept s t) (h' : DriveKept t u) : DriveKept s u where
  groups g := (h.groups g).elim (fun hg => (h'.groups g).imp (·.trans hg) id) fun hg => .inr (h'.stopped hg)
  fields x hx := (h'.fields x hx).trans (h.fields x hx)

/-- From every state the computation keeps the gate drive so. -/
def M.KeepsDrive {α : Type} (m : M α) : Prop := ∀ s, m.Ends s fun _ t => DriveKept s t

section
variable {α β : Type}

theorem M.KeepsDrive.ofFixes {m : M α} (h : m.Fixes State.gateShown) : m.KeepsDrive := fun _ =>
  .ofFixes h fun _ _ ht => .ofShown ht

theorem M.KeepsDrive.pure (a : α) : (Pure.pure a : M α).KeepsDrive := .ofFixes (.pure a)

theorem M.KeepsDrive.bind {m : M α} {f : α → M β} (h : m.KeepsDrive) (h' : ∀ a, (f a).KeepsDrive) : (m >>= f).KeepsDrive := by
  intro s
  obtain ⟨a, t, hd, ht⟩ := h s
  obtain ⟨b, u, hd', hu⟩ := h' a t
  exact .bind hd (.ofDoes hd' (ht.trans hu))

/-- A first part that does not reach the view. -/
theorem M.KeepsDrive.after {m : M α} {f : α → M β} (h : m.Fixes State.gateShown) (h' : ∀ a, (f a).KeepsDrive) :
    (m >>= f).KeepsDrive := .bind (.ofFixes h) h'

theorem M.KeepsDrive.read {f : State → M β} (h : ∀ s, (f s).KeepsDrive) : (Machine.getS >>= f).KeepsDrive :=
  .after .getS h

theorem M.KeepsDrive.ite {c : Prop} [Decidable c] {m n : M α} (h : m.KeepsDrive) (h' : n.KeepsDrive) :
    (if c then m else n).KeepsDrive := by split <;> assumption

theorem M.KeepsDrive.when {c : Prop} [Decidable c] {m : M Unit} (h : m.KeepsDrive) :
    (if c then m else Pure.pure ()).KeepsDrive := h.ite (.pure ())

theorem M.KeepsDrive.thenMore {c : Prop} [Decidable c] {m : M Unit} {k : Unit → M β} (h : m.KeepsDrive)
    (h' : ∀ u, (k u).KeepsDrive) : (if c then m >>= k else k ()).KeepsDrive := .ite (.bind h h') (h' ())

theorem M.KeepsDrive.forM {f : α → M Unit} (h : ∀ x, (f x).KeepsDrive) : ∀ l : List α, (l.forM f).KeepsDrive
  | [] => .pure ()
  | x :: l => (h x).bind fun _ => M.KeepsDrive.forM h l

theorem M.KeepsDrive.does {m : M α} (h : m.KeepsDrive) {s t : State} {a : α} (hd : m.Does s a t) : DriveKept s t := by
  obtain ⟨_, u, hd', hu⟩ := h s
  exact hd.unique hd' ▸ hu

theorem M.KeepsDrive.run {m : M Unit} (h : m.KeepsDrive) (s : State) : DriveKept s (m.run s) := (h s).run

theorem M.KeepsDrive.fixes {m : M α} (h : m.KeepsDrive) {x : FldAt} (hx : x.GateDrive) : m.Fixes fun s => s.f x := by
  refine .ofEnds fun s => ?_
  obtain ⟨_, t, hd, ht⟩ := h s
  exact .ofDoes hd (ht.fields x hx)

end

/-! ## Trips (R127 to R129) -/

/-- A group is put into a state in which it takes part no more. -/
theorem setGState_stops (g : Nat) {st : GState} (hst : st = .tripped ∨ st = .safe) (cause : Nat) (s : State) :
    (setGState g st cause).Ends s fun _ t => DriveKept s t ∧ t.stopped g = true := by
  have hstop : ∀ t : State, t.gst g = st → t.stopped g = true := fun t ht => by
    rw [State.stopped, ht]
    rcases hst with rfl | rfl <;> rfl
  refine .read ?_
  by_cases hold : s.gst g = st
  · exact .ite_neg (not_not_intro hold) <| .ofDoes (M.does_pure _ _) ⟨.ofShown rfl, hstop s hold⟩
  refine .ite_pos hold <| .bind (M.does_hid _ s) <|
    .ofFixes (.bind (.gateIn foot_setAvail (by decide)) fun _ => .gateIn (foot_eventGrp _ _ _) (by decide)) fun _ t ht => ?_
  have hg : t.stopped g = true := hstop t <| (gateShown_gst ht g).trans <| by
    simp only [State.gst, State.grp, apply_hid_hid, mget_mupd_same]
  refine ⟨⟨fun j => ?_, fun _ hx => gateShown_f ht hx⟩, hg⟩
  rcases eq_or_ne j g with rfl | hj
  · exact .inr hg
  · refine .inl <| (gateShown_gst ht j).trans ?_
    simp only [State.gst, State.grp, apply_hid_hid, mget_mupd_other _ _ _ _ _ hj]

theorem setGState_drive (g : Nat) {st : GState} (hst : st = .tripped ∨ st = .safe) (cause : Nat) :
    (setGState g st cause).KeepsDrive := fun s => by
  obtain ⟨_, t, hd, ht, -⟩ := setGState_stops g hst cause s
  exact .ofDoes hd ht

/-- What the trip of an active group writes in TRP.GRP_TRIP, and what it does with its outputs. -/
def latchTrip (g kind first : Nat) (allOff asc : Bool) : M Unit := do
  wf (TRP.GRP_TRIP.LATCH g) 1
  wf (TRP.GRP_TRIP.KIND g) kind
  wf (TRP.GRP_TRIP.ALL_OFF g) (b2n allOff)
  wf (TRP.GRP_TRIP.HELD g) 1
  wf (TRP.GRP_TRIP.FIRST_CELL g) first
  inc (TRP.GRP_TRIP.COUNT g)
  applyPattern g asc
  dropGroup g
  endSs1 g

theorem gateWf_trip {x : FldAt} {g : Nat} (v : Nat) (hx : x.addr = TRP.GRP_TRIP g) : (wf x v).Fixes State.gateShown :=
  .gateWf v <| gateDrive_apart_page (by rw [hx, TRP.GRP_TRIP_page]; decide)

theorem gateInc_trip (g : Nat) : (inc (TRP.GRP_TRIP.COUNT g)).Fixes State.gateShown :=
  .gateInc (by rw [show (TRP.GRP_TRIP.COUNT g).addr = TRP.GRP_TRIP g from rfl, TRP.GRP_TRIP_page]; decide)

theorem latchTrip_gate (g kind first : Nat) (allOff asc : Bool) : (latchTrip g kind first allOff asc).Fixes State.gateShown :=
  .bind (gateWf_trip _ rfl) fun _ => .bind (gateWf_trip _ rfl) fun _ => .bind (gateWf_trip _ rfl) fun _ =>
    .bind (gateWf_trip _ rfl) fun _ => .bind (gateWf_trip _ rfl) fun _ => .bind (gateInc_trip g) fun _ =>
    .bind (applyPattern_gate g asc) fun _ => .bind (dropGroup_gate g) fun _ => endSs1_gate g

theorem tripGroup_active {s : State} {g : Nat} (h : s.active g = true) (kind first : Nat) :
    (tripGroup g kind first).Ends s fun tripped t => DriveKept s t ∧ tripped = true ∧ t.stopped g = true := by
  refine .read <| .ite_pos h ?_
  have hlatch (allOff asc : Bool) (body : List Byte) : (latchTrip g kind first allOff asc >>= fun _ =>
      setGState g .tripped 0x8020 >>= fun _ => eventGrp 0x8020 g body >>= fun _ => pure true).Ends s
      fun tripped t => DriveKept s t ∧ tripped = true ∧ t.stopped g = true := by
    refine .after (latchTrip_gate g kind first allOff asc) fun _ u hu => ?_
    obtain ⟨_, v, hd, hkept, hstop⟩ := setGState_stops g (.inl rfl) 0x8020 u
    have hevent := DriveKept.ofShown <| ((foot_eventGrp 0x8020 g body).run v).gateShown (by decide)
    exact .bind hd <| .bind ((foot_eventGrp 0x8020 g body).does v) <| .ofDoes (M.does_pure _ _)
      ⟨((DriveKept.ofShown hu).trans hkept).trans hevent, rfl, hevent.stopped hstop⟩
  exact hlatch _ _ _

theorem tripGroup_drive (g kind first : Nat) : (tripGroup g kind first).KeepsDrive := by
  intro s
  by_cases hact : s.active g = true
  · obtain ⟨_, t, hd, ht, -⟩ := tripGroup_active hact kind first
    exact .ofDoes hd ht
  have hrest (asc : Bool) (body : List Byte) : (do
      wf (TRP.GRP_TRIP.KIND g) 1
      wf (TRP.GRP_TRIP.LATCH g) 1
      inc (TRP.GRP_TRIP.COUNT g)
      applyPattern g asc
      eventGrp 0x8020 g body
      return true : M Bool).KeepsDrive :=
    .ofFixes <| .bind (gateWf_trip _ rfl) fun _ => .bind (gateWf_trip _ rfl) fun _ => .bind (gateInc_trip g) fun _ =>
      .bind (applyPattern_gate g asc) fun _ => .bind (.gateIn (foot_eventGrp _ _ _) (by decide)) fun _ => .pure _
  exact .read <| .ite_neg hact <| (M.KeepsDrive.ite (hrest _ _) (.pure _)) s

theorem emergencyStop_drive (cause : Nat) (toFault : Bool) : (emergencyStop cause toFault).KeepsDrive :=
  .read fun _ => .when <| .after (.gateInc (by decide)) fun _ => .bind (tripGroup_drive _ _ _) fun _ =>
    .bind (tripGroup_drive _ _ _) fun _ => .after (.gateHid fun _ _ => rfl) fun _ =>
    .after (.gateIn foot_releaseRelays (by decide)) fun _ => .ofFixes (.gateIn (foot_setChg _ _) (by decide))

theorem tripAct_drive (g kind first : Nat) : (tripAct g kind first).KeepsDrive :=
  .bind (tripGroup_drive _ _ _) fun _ => .read fun _ => .thenMore (emergencyStop_drive _ _) fun _ => .pure _

/-- A trip of an ARMED or RUNNING group tells that it tripped; no source of the ledger counts by it. -/
structure TripTold (g : Nat) (s t : State) : Prop where
  stopped : t.stopped g = true
  shown : ∀ src, t.occurShown src = s.occurShown src

theorem tripAct_trips {s : State} {g : Nat} (h : s.active g = true) (kind first : Nat) :
    (tripAct g kind first).Ends s fun tripped t => tripped = true ∧ TripTold g s t := by
  obtain ⟨_, t, hd, hsame⟩ := foot_tripAct g kind first s
  have hshown (src : Nat) := hsame.shown src (by decide) (by decide)
  suffices hstop : (tripAct g kind first).Ends s fun tripped t => tripped = true ∧ t.stopped g = true by
    obtain ⟨_, u, hd', htrip, hstop⟩ := hstop
    exact .ofDoes hd' ⟨htrip, hstop, hd.unique hd' ▸ hshown⟩
  obtain ⟨tripped, u, hgroup, -, rfl, hstop⟩ := tripGroup_active h kind first
  refine .bind hgroup <| .read <| .ite ?_ (.ofDoes (M.does_pure _ _) ⟨rfl, hstop⟩)
  obtain ⟨_, v, hem, hv⟩ :=
    emergencyStop_drive (if u.f DCL.CTRL.EN = 1 ∧ u.f DCL.CTRL.CHG_CELL = first then 93 else 0x8020) false u
  exact .bind hem <| .ofDoes (M.does_pure _ _) ⟨rfl, hv.stopped hstop⟩

/-! ## Forced states (R375, R376) and safety functions -/

theorem forceGroup_drive (g code cause : Nat) : (forceGroup g code cause).KeepsDrive :=
  .read fun _ => .ite
    (.after (dropGroup_gate g) fun _ => .after (endSs1_gate g) fun _ => .after (updGrp_gate g fun _ => rfl) fun _ =>
      .bind (setGState_drive g (.inr rfl) cause) fun _ => .ofFixes (showForce_gate g))
    (.when <| .after (updGrp_gate g fun _ => rfl) fun _ => .ofFixes (showForce_gate g))

theorem forceAct_drive (g code cause : Nat) : (forceAct g code cause).KeepsDrive :=
  .read fun _ => .bind (forceGroup_drive _ _ _) fun _ => .when (emergencyStop_drive _ _)

theorem funcEffect_drive (f g cause : Nat) : (funcEffect f g cause).KeepsDrive := by
  refine .read fun s => ?_
  split
  · exact forceAct_drive _ _ _
  · exact .when <| .ite (.when <| .ofFixes <| updGrp_gate g fun _ => rfl) (forceAct_drive _ _ _)
  · exact forceAct_drive _ _ _
  · exact forceAct_drive _ _ _
  · exact .pure _

theorem trigger_drive (f src key : Nat) (gs : List Nat) (cause : Nat) : (trigger f src key gs cause).KeepsDrive := by
  have hstat := SAF.FUNC_STAT_page f
  have hcount : (inc (SAF.FUNC_STAT.COUNT f)).In [16] := M.In.inc 16 _ hstat (by decide)
  exact .read fun _ => .when <| .after (.gateHid fun _ _ => rfl) fun _ => .after (gateWf_saf _ hstat) fun _ =>
    .after (gateWf_saf _ hstat) fun _ =>
    .thenMore (.after (gateWf_saf _ hstat) fun _ => .after (gateWf_saf _ (by decide)) fun _ =>
      .after (.gateIn hcount (by decide)) fun _ => .after (.gateIn (foot_funcEvent _ _) (by decide)) fun _ =>
      .ofFixes (.gateIn (foot_funcStart f) (by decide))) fun _ =>
    .forM (fun _ => funcEffect_drive _ _ _) _

theorem startSs1_drive (g cause : Nat) : (startSs1 g cause).KeepsDrive :=
  .read fun _ => .when <| .bind (trigger_drive _ _ _ _ _) fun _ => .read fun _ => .when <| .ofFixes (withdraw_gate _ _ _)

/-! ## The ledger -/

theorem react_drive (cls src inst : Nat) : (react cls src inst).KeepsDrive :=
  .read fun _ => .ite (.forM (fun _ => startSs1_drive _ _) _) <| .ite (.forM (fun _ => forceAct_drive _ _ _) _) <|
    .when <| .bind (.forM (fun _ => forceAct_drive _ _ _) _) fun _ => .ofFixes (.gateIn foot_deviceSafe (by decide))

theorem occurrence_drive (src inst detail : Nat) : (occurrence src inst detail).KeepsDrive := by
  have hwf : (wf (FLG.OCCUR.LAST_INSTANCE src) inst).In [17] := M.In.wf 17 _ _ (FLG.OCCUR_page src) (by decide)
  have hinc : ∀ x : FldAt, x.addr = FLG.OCCUR src → (inc x).In [17] := fun x hx =>
    M.In.inc 17 x (hx ▸ FLG.OCCUR_page src) (by decide)
  have hwr : ∀ w, (wr (FLG.LASTING src) w).In [17] := fun w => M.In.wr 17 _ w (FLG.LASTING_page src) (by decide)
  exact .read fun _ => .after (.gateIn (hinc _ rfl) (by decide)) fun _ => .after (.gateIn hwf (by decide)) fun _ =>
    .after (.gateHid fun _ _ => rfl) fun _ =>
    .ite (.after (.gateIn (hwr _) (by decide)) fun _ => .after (.gateIn (hinc _ rfl) (by decide)) fun _ =>
      .after (.gateIn foot_setLastingSrc (by decide)) fun _ => .after (.gateIn (foot_queueEntry _ _) (by decide)) fun _ =>
      .after (.gateIn (foot_ledgerEvent _) (by decide)) fun _ => .bind (react_drive _ _ _) fun _ => .pure _)
    (.after (.gateHid fun _ _ => rfl) fun _ => .pure _)

theorem occur_drive (src inst detail : Nat) : (occur src inst detail).KeepsDrive :=
  .bind (occurrence_drive _ _ _) fun _ => .pure _

end Sys2Proof.Machine
end

section
/-! Statement O39: shorts, driver faults, ready inputs, VDRV and the interlock's evaluators (R145, R149, R150, R152, R153). -/

namespace Sys2Proof.Machine

/-! ## The fields -/

/-- What lies beside the words of GDR.SC_STAT. -/
theorem gateDrive_of_addr {x : FldAt} (hp : x.addr / 65536 = 5)
    (h : x.addr < 0x050300 ∨ 0x050360 ≤ x.addr ∧ x.addr ≠ 0x05FFFC) : x.GateDrive :=
  ⟨hp, fun p => .inl fun heq => by
    simp only [GDR.SC_STAT.SC_ACTIVE, GDR.SC_STAT, arr] at heq
    split at heq <;> omega⟩

theorem SC_STAT_COUNT_fields (p : Fin 24) :
    (GDR.SC_STAT.COUNT p).Real ∧ (GDR.SC_STAT.COUNT p).Apart (GDR.SC_STAT.SC_ACTIVE p) := by
  revert p
  decide +kernel

theorem SC_STAT_COUNT_gateDrive (p : Fin 24) : (GDR.SC_STAT.COUNT p).GateDrive :=
  ⟨GDR.SC_STAT_page p, fun _ => .inr ⟨(SC_STAT_COUNT_fields p).1, .inl (show 7 < 31 by decide)⟩⟩

theorem FLT_fields (k : Fin 48) : (GDR.FLT.ACTIVE k).Real ∧ (GDR.FLT.COUNT k).Real := by
  revert k
  decide +kernel

theorem FLT_gateDrive (k : Nat) (hk : k < 48) {x : FldAt} (hx : x.addr = GDR.FLT k) : x.GateDrive := by
  refine gateDrive_of_addr (by rw [hx, GDR.FLT_page]) (.inr ?_)
  rw [hx, GDR.FLT, arr, if_pos ⟨Nat.zero_le k, hk⟩]
  omega

theorem RDY_fields (r : Fin 8) : (GDR.RDY_CFG.READY r).Real ∧ (GDR.RDY_CFG.LOSSES r).Real := by
  revert r
  decide +kernel

theorem RDY_gateDrive (r : Nat) (hr : r < 8) {x : FldAt} (hx : x.addr = GDR.RDY_CFG r) : x.GateDrive := by
  refine gateDrive_of_addr (by rw [hx, GDR.RDY_CFG_page]) (.inr ?_)
  rw [hx, GDR.RDY_CFG, arr, if_pos ⟨Nat.zero_le r, hr⟩]
  omega

theorem VDRV_fields : GDR.STATUS.VDRV_OK.Real ∧ GDR.STATUS.VDRV_UV.Real ∧ GDR.STATUS.VDRV_COUNT.Real := by decide +kernel

theorem STATUS_gateDrive {x : FldAt} (hx : x.addr = GDR.STATUS) : x.GateDrive :=
  gateDrive_of_addr (by rw [hx]; decide) (.inl (by rw [hx]; decide))

theorem ILK_FB_fields : GDR.ILK_FB0.SETS.Real ∧ GDR.ILK_FB1.SETS.Real ∧ GDR.ILK_FB0.SETS.Apart GDR.ILK_FB1.SETS ∧
    GDR.ILK_FB1.SETS.Apart GDR.ILK_FB0.SETS := by decide +kernel

/-! ## Frames -/

theorem tripAct_beyond (g kind first : Nat) : (tripAct g kind first).Fixes State.beyond :=
  .bind (tripGroup_beyond _ _ _) fun _ => .read fun _ => .thenMore (emergencyStop_beyond _ _) fun _ => .pure _

theorem drvShort_beyond (p mv time : Nat) : (drvShort p mv time).Fixes State.beyond := by
  have hends (c : Prop) [Decidable c] : (if c then do
      hid fun h => { h with trp := { h.trp with short := h.trp.short.erase p } }
      wf (GDR.SC_STAT.SC_ACTIVE p) 0 else pure () : M Unit).Fixes State.beyond :=
    .when <| .bind (hid_beyond _) fun _ => wf_beyond _ _
  refine .read fun s => ?_
  split
  · exact .when <| .ite (.bind (hid_beyond _) fun _ => .bind (inc_beyond _) fun _ =>
      .ite (.bind (wf_beyond _ _) fun _ => .bind (tripAct_beyond _ _ _) fun _ => .bind (occur_beyond _ _ _) fun _ => hends _)
        (hends _)) (hends _)
  · exact .pure _

theorem fltTrip_beyond (k g : Nat) : (fltTrip k g).Fixes State.beyond :=
  .read fun _ => .bind (tripAct_beyond _ _ _) fun _ => .when (occur_beyond _ _ _)

theorem extDrvFault_beyond (k : Nat) : (extDrvFault k).Fixes State.beyond :=
  .read fun _ => .when <| .bind (wf_beyond _ _) fun _ => .thenMore (inc_beyond _) fun _ => .forM (fltTrip_beyond k) _

theorem drvReady_beyond (r : Nat) (asserted : Bool) : (drvReady r asserted).Fixes State.beyond :=
  .read fun _ => .bind (wf_beyond _ _) fun _ => .when <| .bind (tripAct_beyond _ _ _) fun _ => .bind (inc_beyond _) fun _ =>
    occur_beyond _ _ _

/-- What the groups of a set take when its evaluators disagree. -/
def ilkReact (i : Nat) (noPair : Bool) (gs : List Nat) : M Unit := gs.forM fun g => do
  occur 54 g (MAP.ILK i 0)
  if noPair then forceAct g 8 54

theorem ilkReact_beyond (i : Nat) (noPair : Bool) (gs : List Nat) : (ilkReact i noPair gs).Fixes State.beyond :=
  .forM (fun _ => .bind (occur_beyond _ _ _) fun _ => .when (forceAct_beyond _ _ _)) gs

theorem ilkReact_drive (i : Nat) (noPair : Bool) (gs : List Nat) : (ilkReact i noPair gs).KeepsDrive :=
  .forM (fun _ => .bind (occur_drive _ _ _) fun _ => .when (forceAct_drive _ _ _)) gs

theorem ilkDiagFail_beyond (i : Nat) : (ilkDiagFail i).Fixes State.beyond :=
  .read fun _ => .when <| .ite (.bind (wf_beyond _ _) fun _ => ilkReact_beyond i _ _)
    (.bind (wf_beyond _ _) fun _ => ilkReact_beyond i _ _)

theorem vdrvUv_beyond : vdrvUv.Fixes State.beyond :=
  .read fun _ => .when <| .bind (wf_beyond _ _) fun _ => .bind (wf_beyond _ _) fun _ => .bind (inc_beyond _) fun _ =>
    .bind (.forM (fun _ => .bind (tripAct_beyond _ _ _) fun _ => .pure _) _) fun _ =>
    .bind (.forM (fun _ => .bind (cellOff_beyond _ _) fun _ => hid_beyond _) _) fun _ => occur_beyond _ _ _

/-! ## A short (R145) -/

/-- A pair whose comparator trips counts it, its group trips, and then source 51 has an occurrence. -/
theorem drvShort_trips {s : State} {p : Fin 24} {mv time c : Nat} (hcell : s.ofCell (97 + 2 * p) = some c)
    (hen : s.f (GDR.DRV_CFG.SC_EN p) = 1) (hthr : 50 * (s.f (GDR.DRV_CFG.SC_THR p) + 1) < mv) (hon : (s.chan c).on = true)
    (hblank : (s.chan c).onAt + (9 + s.f (GDR.DRV_CFG.SC_BLANK p)) * 64 ≤ time)
    (hshort : s.hid.trp.short.contains p.val = false) (hact : s.active (s.chGroup c) = true) :
    (drvShort p mv time).Ends s fun _ t =>
      Bumped (GDR.SC_STAT.COUNT p) s t ∧ t.stopped (s.chGroup c) = true ∧ Counted 51 p s t := by
  obtain ⟨hreal, hapart⟩ := SC_STAT_COUNT_fields p
  have hdrive := SC_STAT_COUNT_gateDrive p
  have hinc : (inc (GDR.SC_STAT.COUNT p)).In [5] := M.In.inc 5 _ (GDR.SC_STAT_page p) (by decide)
  have hwf : (wf (GDR.SC_STAT.SC_ACTIVE p) 1).In [5] := M.In.wf 5 _ 1 (GDR.SC_STAT_page p) (by decide)
  refine .read ?_
  simp only [hcell]
  refine .ite_pos ⟨hen, hon, hblank⟩ <| .ite_pos (by rw [decide_eq_true hthr, hshort]; rfl) <|
    .afterIn (L := [45]) (M.In.hid_trp _ (by decide)) fun _ u hu _ => .bind (hinc.does u) <| .ite_pos hact <|
    .bind (hwf.does _) ?_
  have hcount := (hreal.bumped u).congr (hu.f (by decide) (by rw [hdrive.1]; decide)) rfl
  have hmark := (M.Fixes.wfApart hapart 1).run ((inc (GDR.SC_STAT.COUNT p)).run u)
  have hsame := (hu.mono (by decide)).trans (((hinc.run u).trans (hwf.run _)).mono (show ∀ x ∈ [5], x ∈ [5, 45] by decide))
  generalize (wf (GDR.SC_STAT.SC_ACTIVE p) 1).run _ = v at *
  obtain ⟨_, w, htrip, -, htold⟩ := tripAct_trips (s := v) ((hsame.active (by decide) (by decide) _).trans hact)
    (s.f (GDR.DRV_CFG.SC_ACTION p)) 0xFF
  have hocc := (occur_drive 51 p (GDR.SC_STAT p)).run w
  refine .bind htrip <| .bind ((foot_occur _ _ _).does w) <| .ite_neg (by simp [hthr]) <|
    .ofDoes (M.does_pure _ _) ⟨?_, hocc.stopped htold.stopped, ?_⟩
  · exact hcount.congr rfl <| (hocc.fields _ hdrive).trans <|
      (((tripAct_drive _ _ _).does htrip).fields _ hdrive).trans hmark
  · exact (occur_counted 51 (p.castLE (by decide)) (GDR.SC_STAT p) w).of_shown <|
      (htold.shown 51).trans (hsame.shown 51 (by decide) (by decide))

/-! ## A driver fault (R150) -/

theorem fltTrip_drive (k g : Nat) : (fltTrip k g).KeepsDrive :=
  .read fun _ => .bind (tripAct_drive _ _ _) fun _ => .when (occur_drive _ _ _)

theorem fltTrip_stops (k : Nat) {g : Nat} {s : State} (hact : s.active g = true) :
    (fltTrip k g).Ends s fun _ t => t.stopped g = true ∧ (g < 256 → Counted 52 g s t) := by
  obtain ⟨_, u, htrip, rfl, htold⟩ := tripAct_trips hact (s.f (GDR.FLT.ACTION k)) 0xFF
  exact .read <| .bind htrip <| .ite_pos rfl <| .ofDoes ((foot_occur 52 g (GDR.FLT k)).does u)
    ⟨((occur_drive 52 g (GDR.FLT k)).run u).stopped htold.stopped,
      fun hg => (occur_counted 52 ⟨g, hg⟩ (GDR.FLT k) u).of_shown (htold.shown 52)⟩

/-- A group that stops when its turn comes has stopped in the end: no other group's turn makes it take part again. -/
theorem forM_stops {f : Nat → M Unit} (hf : ∀ x, (f x).KeepsDrive) {g : Nat}
    (hg : ∀ s : State, s.active g = true → (f g).Ends s fun _ t => t.stopped g = true) :
    ∀ (l : List Nat) (_ : g ∈ l) (s : State), s.active g = true ∨ s.stopped g = true →
      (l.forM f).Ends s fun _ t => t.stopped g = true
  | x :: l, hmem, s, hs => by
    obtain ⟨_, u, hd, hu⟩ := hf x s
    by_cases hstop : u.stopped g = true
    · obtain ⟨_, t, hd', ht⟩ := M.KeepsDrive.forM hf l u
      exact .bind hd <| .ofDoes hd' (ht.stopped hstop)
    have hsame : u.gst g = s.gst g := (hu.groups g).resolve_right hstop
    have hact : s.active g = true := hs.resolve_right fun h => hstop ((stopped_of_gst hsame).trans h)
    rcases List.mem_cons.mp hmem with rfl | hmem
    · obtain ⟨_, v, hd', hv⟩ := hg s hact
      exact absurd (hd.unique hd' ▸ hv) hstop
    · exact .bind hd (forM_stops hf hg l hmem u (.inl ((active_of_gst hsame).trans hact)))

theorem FLT_wf_in (k v : Nat) : (wf (GDR.FLT.ACTIVE k) v).In [5] := M.In.wf 5 _ v (GDR.FLT_page k) (by decide)

theorem FLT_wf_outside (k v : Nat) : (wf (GDR.FLT.ACTIVE k) v).Fixes (State.outside [GDR.FLT k]) :=
  .wfOutside v (List.mem_singleton.mpr rfl)

theorem FLT_beside (k : Fin 48) : (GDR.FLT.ACTIVE k).Apart (GDR.FLT.COUNT k) ∧ (GDR.FLT.COUNT k).Apart (GDR.FLT.ACTIVE k) := by
  obtain ⟨hactive, hcount⟩ := FLT_fields k
  exact ⟨.inr ⟨hactive, .inr (show 7 < 31 by decide)⟩, .inr ⟨hcount, .inl (show 7 < 31 by decide)⟩⟩

/-- A fault of an input has counted, and an active group on which it acts has stopped. -/
structure FaultTold (k g : Nat) (s t : State) : Prop where
  active : t.f (GDR.FLT.ACTIVE k) = 1
  count : Bumped (GDR.FLT.COUNT k) s t
  single : s.fltGroups k = [g] → Counted 52 g s t
  stopped : t.stopped g = true

theorem extDrvFault_stops {s : State} (k : Fin 48) (g : Fin 32) (hclear : s.f (GDR.FLT.ACTIVE k) = 0)
    (hmem : g.val ∈ s.fltGroups k) (hact : s.active g = true) :
    (extDrvFault k).Ends s fun _ t => FaultTold k g s t := by
  obtain ⟨hactive, hcount⟩ := FLT_fields k
  obtain ⟨hac, hca⟩ := FLT_beside k
  have hinc : (inc (GDR.FLT.COUNT k)).In [5] := M.In.inc 5 _ (GDR.FLT_page k) (by decide)
  have hsome : (!(s.fltGroups k).isEmpty) = true := by
    cases hgs : s.fltGroups k with
    | nil => rw [hgs] at hmem; cases hmem
    | cons => rfl
  refine .read <| .ite_pos hclear <| .bind ((FLT_wf_in k 1).does s) <| .ite_pos hsome <| .bind (hinc.does _) ?_
  have hshow : ((inc (GDR.FLT.COUNT k)).run ((wf (GDR.FLT.ACTIVE k) 1).run s)).f (GDR.FLT.ACTIVE k) = 1 :=
    ((M.Fixes.incApart hac).run _).trans (f_wf_same hactive 1 s)
  have hbump := (hcount.bumped ((wf (GDR.FLT.ACTIVE k) 1).run s)).congr ((M.Fixes.wfApart hca 1).run s) rfl
  have hsame := ((FLT_wf_in k 1).run s).trans (hinc.run _)
  generalize (inc (GDR.FLT.COUNT k)).run _ = u at *
  have hu : u.active g = true := (hsame.active (by decide) (by decide) g).trans hact
  obtain ⟨_, t, hd, hstop⟩ := forM_stops (fltTrip_drive k) (g := g)
    (fun v hv => (fltTrip_stops k hv).imp fun _ => .imp fun _ => .imp_right And.left) _ hmem u (.inl hu)
  have hkept := (M.KeepsDrive.forM (fltTrip_drive k) _).does hd
  refine .ofDoes hd ⟨?_, ?_, fun hone => ?_, hstop⟩
  · exact (hkept.fields _ (FLT_gateDrive k k.isLt rfl)).trans hshow
  · exact hbump.congr rfl (hkept.fields _ (FLT_gateDrive k k.isLt rfl))
  · obtain ⟨_, v, hd', hv⟩ := M.Ends.single (fltTrip_stops k hu)
    rw [hone] at hd
    exact (hd'.unique hd ▸ hv.2 (by omega)).of_shown (hsame.shown 52 (by decide) (by decide))

/-- An input that acts on no group. -/
theorem extDrvFault_shows {s : State} {k : Nat} (hclear : s.f (GDR.FLT.ACTIVE k) = 0) (hnone : s.fltGroups k = []) :
    (extDrvFault k).Does s () ((wf (GDR.FLT.ACTIVE k) 1).run s) := by
  refine .read <| .ite_pos hclear <| .bind ((FLT_wf_in k 1).does s) ?_
  rw [hnone]
  exact .ite_neg (by decide) (M.does_pure _ _)

/-! ## A ready input (R152) -/

theorem drvReady_shows (r : Fin 8) (asserted : Bool) (s : State) :
    (drvReady r asserted).Ends s fun _ t => t.f (GDR.RDY_CFG.READY r) = b2n asserted := by
  obtain ⟨hready, -⟩ := RDY_fields r
  have hapart : (GDR.RDY_CFG.READY r).Apart (GDR.RDY_CFG.LOSSES r) := .inr ⟨hready, .inr (show 23 < 29 by decide)⟩
  have hdrive := RDY_gateDrive r r.isLt (x := GDR.RDY_CFG.READY r) rfl
  refine .read <| .bind (M.does_wf _ _ s) <| .ofFixes (.when <| .bind ((tripAct_drive _ _ _).fixes hdrive) fun _ =>
    .bind (.incApart hapart) fun _ => (occur_drive _ _ _).fixes hdrive) fun _ t ht => ht.trans ?_
  refine (f_wf_same hready _ s).trans ?_
  cases asserted <;> rfl

/-- A deasserted input stops its active group: the trip, then LOSSES, then source 53. -/
theorem drvReady_stops {s : State} (r : Fin 8) (hen : s.f (GDR.RDY_CFG.EN r) = 1)
    (hact : s.active (s.f (GDR.RDY_CFG.GROUP r)) = true) : (drvReady r false).Ends s fun _ t =>
      Bumped (GDR.RDY_CFG.LOSSES r) s t ∧ Counted 53 (s.f (GDR.RDY_CFG.GROUP r)) s t ∧
        t.stopped (s.f (GDR.RDY_CFG.GROUP r)) = true := by
  obtain ⟨-, hlosses⟩ := RDY_fields r
  have hdrive := RDY_gateDrive r r.isLt (x := GDR.RDY_CFG.LOSSES r) rfl
  have hapart : (GDR.RDY_CFG.LOSSES r).Apart (GDR.RDY_CFG.READY r) := .inr ⟨hlosses, .inl (show 23 < 29 by decide)⟩
  have hgroup : s.f (GDR.RDY_CFG.GROUP r) < 2 ^ 5 := f_lt _ s
  have hwf : (wf (GDR.RDY_CFG.READY r) (b2n false)).In [5] := M.In.wf 5 _ _ (GDR.RDY_CFG_page r) (by decide)
  have hinc : (inc (GDR.RDY_CFG.LOSSES r)).In [5] := M.In.inc 5 _ (GDR.RDY_CFG_page r) (by decide)
  have hready := (M.Fixes.wfApart hapart (b2n false)).run s
  have hsame := hwf.run s
  refine .read <| .bind (hwf.does s) <| .ite_pos ⟨rfl, hen, hact⟩ ?_
  generalize (wf (GDR.RDY_CFG.READY r) (b2n false)).run s = u at *
  obtain ⟨_, v, htrip, -, htold⟩ := tripAct_trips ((hsame.active (by decide) (by decide) _).trans hact) 0 0xFF
  refine .bind htrip <| .bind (hinc.does v) <| .ofDoes ((foot_occur _ _ _).does _) ?_
  have hinced := hinc.run v
  have hocc := (occur_drive 53 (s.f (GDR.RDY_CFG.GROUP r)) (GDR.RDY_CFG r)).run ((inc (GDR.RDY_CFG.LOSSES r)).run v)
  refine ⟨(hlosses.bumped v).congr ((((tripAct_drive _ _ _).does htrip).fields _ hdrive).trans hready)
    (hocc.fields _ hdrive), ?_, hocc.stopped ?_⟩
  · exact (occur_counted 53 ⟨_, hgroup.trans (by decide)⟩ _ _).of_shown <| (hinced.shown 53 (by decide) (by decide)).trans <|
      (htold.shown 53).trans (hsame.shown 53 (by decide) (by decide))
  · exact (stopped_of_gst (hinced.gst (by decide) (by decide) _)).trans htold.stopped

/-! ## The drivers' supply (R153) -/

/-- The loss of VDRV is shown. -/
def showLoss : M Unit := do
  wf GDR.STATUS.VDRV_OK 0
  wf GDR.STATUS.VDRV_UV 1
  inc GDR.STATUS.VDRV_COUNT

theorem STATUS_wf_in (x : FldAt) (v : Nat) (hx : x.addr = GDR.STATUS) : (wf x v).In [5] :=
  M.In.wf 5 x v (by rw [hx]; decide) (by decide)

theorem showLoss_in : showLoss.In [5] :=
  .bind (STATUS_wf_in _ _ rfl) fun _ => .bind (STATUS_wf_in _ _ rfl) fun _ => M.In.inc 5 _ (by decide) (by decide)

/-- What GDR.STATUS tells of the loss of VDRV. -/
structure LossShown (s t : State) : Prop where
  ok : t.f GDR.STATUS.VDRV_OK = 0
  uv : t.f GDR.STATUS.VDRV_UV = 1
  count : Bumped GDR.STATUS.VDRV_COUNT s t

theorem VDRV_beside : GDR.STATUS.VDRV_OK.Apart GDR.STATUS.VDRV_UV ∧ GDR.STATUS.VDRV_OK.Apart GDR.STATUS.VDRV_COUNT ∧
    GDR.STATUS.VDRV_UV.Apart GDR.STATUS.VDRV_COUNT ∧ GDR.STATUS.VDRV_COUNT.Apart GDR.STATUS.VDRV_OK ∧
    GDR.STATUS.VDRV_COUNT.Apart GDR.STATUS.VDRV_UV := by
  obtain ⟨hok, huv, hcount⟩ := VDRV_fields
  exact ⟨.inr ⟨hok, by decide⟩, .inr ⟨hok, by decide⟩, .inr ⟨huv, by decide⟩, .inr ⟨hcount, by decide⟩,
    .inr ⟨hcount, by decide⟩⟩

theorem showLoss_shows (s : State) : LossShown s (showLoss.run s) := by
  obtain ⟨hok, huv, hcount⟩ := VDRV_fields
  obtain ⟨hou, hoc, huc, hco, hcu⟩ := VDRV_beside
  have hinc : (inc GDR.STATUS.VDRV_COUNT).In [5] := M.In.inc 5 _ (by decide) (by decide)
  refine (show showLoss.Ends s fun _ t => LossShown s t from ?_).run
  refine .bind (M.does_wf _ _ s) <| .bind (M.does_wf _ _ _) <| .ofDoes (hinc.does _) ⟨?_, ?_, ?_⟩
  · exact ((M.Fixes.incApart hoc).run _).trans ((f_wf_apart hou _ _).trans (f_wf_same hok _ _))
  · exact ((M.Fixes.incApart huc).run _).trans (f_wf_same huv _ _)
  · exact (hcount.bumped _).congr ((f_wf_apart hcu _ _).trans (f_wf_apart hco _ _)) rfl

theorem LossShown.of_kept {s u t : State} (h : LossShown s u) (hk : DriveKept u t) : LossShown s t :=
  ⟨(hk.fields _ (STATUS_gateDrive rfl)).trans h.ok, (hk.fields _ (STATUS_gateDrive rfl)).trans h.uv,
    h.count.congr rfl (hk.fields _ (STATUS_gateDrive rfl))⟩

/-- The groups that lose their drivers trip. -/
def tripAll (gs : List Nat) : M Unit := gs.forM fun g => do
  let _ ← tripAct g 0 0xFF

theorem tripAll_in (gs : List Nat) : (tripAll gs).In [0, 1, 3, 4, 5, 6, 9, 12, 20, 33, 43, 44, 45, 47, 48, 50] :=
  .forM (fun g => (foot_tripAct g 0 0xFF).bind fun _ => .pure _) gs

theorem tripAll_drive (gs : List Nat) : (tripAll gs).KeepsDrive := .forM (fun _ => .bind (tripAct_drive _ _ _) fun _ => .pure _) gs

theorem tripAll_stops {gs : List Nat} {g : Nat} (hg : g ∈ gs) {s : State} (hact : s.active g = true) :
    ((tripAll gs).run s).stopped g = true :=
  (forM_stops (fun _ => .bind (tripAct_drive _ _ _) fun _ => .pure _) (fun v hv => by
    obtain ⟨_, t, hd, -, ht⟩ := tripAct_trips hv 0 0xFF
    exact .bind hd <| .ofDoes (M.does_pure _ _) ht.stopped) gs hg s (.inl hact)).run

/-- Every driver sinks its gate. -/
def sinkDrivers (s : State) : M Unit := (channels.filter isDriver).forM fun c => do
  cellOff c (s.chNow c)
  updChan c fun r => { r with sink := true }

theorem sinkDrivers_in (s : State) : (sinkDrivers s).In [5, 44, 45] :=
  .forM (fun _ => (foot_cellOff _ _).bind fun _ => (foot_updChan _ _).mono (by decide)) _

theorem sinkDrivers_drive (s : State) : (sinkDrivers s).KeepsDrive :=
  .ofFixes <| .forM (fun _ => .bind (cellOff_gate _ _) fun _ => updChan_gate _ _) _

theorem vdrvUv_does {s : State} (hok : s.f GDR.STATUS.VDRV_OK = 1) : vdrvUv.Does s () ((occur 55 0 GDR.STATUS).run
    ((sinkDrivers s).run ((tripAll (groups.filter fun g => s.active g && (s.chans g).any isDriver)).run (showLoss.run s)))) :=
  have h : (showLoss >>= fun _ => tripAll (groups.filter fun g => s.active g && (s.chans g).any isDriver) >>= fun _ =>
      sinkDrivers s >>= fun _ => occur 55 0 GDR.STATUS).Does s () _ :=
    .bind (showLoss_in.does s) <| .bind ((tripAll_in _).does _) <| .bind ((sinkDrivers_in s).does _) <| (foot_occur _ _ _).does _
  .read <| .ite_pos hok h

theorem vdrvUv_stops {s : State} (hok : s.f GDR.STATUS.VDRV_OK = 1) : vdrvUv.Ends s fun _ t => LossShown s t ∧
    (∀ g < 32, s.active g = true → (∃ c ∈ s.chans g, 96 ≤ c) → t.stopped g = true) ∧ Counted 55 0 s t := by
  refine .ofDoes (vdrvUv_does hok) ?_
  have hloss := showLoss_in.run s
  generalize hgs : (groups.filter fun g => s.active g && (s.chans g).any isDriver) = gs
  have hshow := showLoss_shows s
  generalize showLoss.run s = u at *
  have htrip := (tripAll_in gs).run u
  have hsink := (sinkDrivers_in s).run ((tripAll gs).run u)
  have hrest := ((sinkDrivers_drive s).run ((tripAll gs).run u)).trans ((occur_drive 55 0 GDR.STATUS).run _)
  refine ⟨hshow.of_kept (((tripAll_drive gs).run u).trans hrest), fun g hg hact ⟨c, hc, hdriver⟩ => ?_, ?_⟩
  · have hmem : g ∈ gs := by
      rw [← hgs, List.mem_filter, hact, Bool.true_and]
      exact ⟨List.mem_range.mpr hg, List.any_eq_true.mpr ⟨c, hc, decide_eq_true hdriver⟩⟩
    exact hrest.stopped (tripAll_stops hmem ((hloss.active (by decide) (by decide) g).trans hact))
  · exact (occur_counted 55 0 GDR.STATUS _).of_shown <| (hsink.shown 55 (by decide) (by decide)).trans <|
      (htrip.shown 55 (by decide) (by decide)).trans (hloss.shown 55 (by decide) (by decide))

/-! ## The interlock's evaluators (R149) -/

/-- Set `i` enters fall-back. -/
def fallBack (i : Nat) (s : State) : M Unit :=
  if i < 32 then wf GDR.ILK_FB0.SETS (setBit (s.f GDR.ILK_FB0.SETS) i)
  else wf GDR.ILK_FB1.SETS (setBit (s.f GDR.ILK_FB1.SETS) (i - 32))

theorem fallBack_in (i : Nat) (s : State) : (fallBack i s).In [5] :=
  .ite (M.In.wf 5 _ _ (by decide) (by decide)) (M.In.wf 5 _ _ (by decide) (by decide))

theorem fallBack_sets {i : Nat} (hi : i < 48) {j : Nat} (hj : j < 48) (s : State) :
    ((fallBack i s).run s).inFallback j = (s.inFallback j || decide (j = i)) := by
  obtain ⟨hlow, hhigh, hlh, hhl⟩ := ILK_FB_fields
  by_cases h : i < 32
  · have hsame := f_wf_same hlow (setBit (s.f GDR.ILK_FB0.SETS) i) s
    rw [Nat.mod_eq_of_lt (setBit_lt (f_lt _ s) h)] at hsame
    have hother := f_wf_apart hhl (setBit (s.f GDR.ILK_FB0.SETS) i) s
    rw [(show (fallBack i s).Does s () _ from .ite_pos h (M.does_wf _ _ s)).run]
    by_cases hj32 : j < 32
    · simp only [State.inFallback, hj32, if_true, hsame, bit_setBit]
    · simp only [State.inFallback, hj32, if_false, hother, show j ≠ i by omega, decide_false, Bool.or_false]
  · have hsame := f_wf_same hhigh (setBit (s.f GDR.ILK_FB1.SETS) (i - 32)) s
    rw [Nat.mod_eq_of_lt (setBit_lt (f_lt _ s) (show i - 32 < 16 by omega))] at hsame
    have hother := f_wf_apart hlh (setBit (s.f GDR.ILK_FB1.SETS) (i - 32)) s
    rw [(show (fallBack i s).Does s () _ from .ite_neg h (M.does_wf _ _ s)).run]
    by_cases hj32 : j < 32
    · simp only [State.inFallback, hj32, if_true, hother, show j ≠ i by omega, decide_false, Bool.or_false]
    · have hsub : j - 32 = i - 32 ↔ j = i := by omega
      simp only [State.inFallback, hj32, if_false, hsame, bit_setBit, hsub]

/-- The reaction to a disagreement leaves the sets that are in fall-back. -/
theorem inFallback_of_kept {s t : State} (h : DriveKept s t) (j : Nat) : t.inFallback j = s.inFallback j := by
  rw [State.inFallback, State.inFallback, h.fields GDR.ILK_FB0.SETS (gateDrive_of_addr (by decide) (by decide)),
    h.fields GDR.ILK_FB1.SETS (gateDrive_of_addr (by decide) (by decide))]

/-- The set is in fall-back in the end, and no other that was not before. -/
theorem ilkDiagFail_fallsBack {s : State} {i : Nat} (hi : i < 48) (hen : s.ilkEn i = true) :
    (ilkDiagFail i).Ends s fun _ t => ∀ j < 48, t.inFallback j = (s.inFallback j || decide (j = i)) := by
  obtain ⟨_, t, hd, ht⟩ := ilkReact_drive i (s.maskNoPair i)
    (((s.ilkChans i).map s.chGroup).filter fun g => decide (g < 32)).dedup ((fallBack i s).run s)
  have hboth : (fallBack i s >>= fun _ => ilkReact i (s.maskNoPair i)
      (((s.ilkChans i).map s.chGroup).filter fun g => decide (g < 32)).dedup).Does s () t := .bind ((fallBack_in i s).does s) hd
  have hdoes : (ilkDiagFail i).Does s () t := by
    refine .read <| .ite_pos hen ?_
    by_cases h : i < 32
    · rw [fallBack, if_pos h] at hboth
      exact .ite_pos h hboth
    · rw [fallBack, if_neg h] at hboth
      exact .ite_neg h hboth
  exact .ofDoes hdoes fun j hj => (inFallback_of_kept ht j).trans (fallBack_sets hi hj s)

/-! ## The statement -/

/-- Settles O39: a fault writes its own field of page GDR, the group it concerns trips, and the source has its occurrence; neither
a trip nor the ledger's reaction brings a stopped group back, or writes a field of page GDR other than SC_ACTIVE. In the last
clause `j` is a `Fin 48`, whose `48` is 0; `ilkDiagFail_fallsBack` says what it means, of every set. -/
theorem gateDriveFaults : Obligations.Gate_drive_faults := by
  unfold Obligations.Gate_drive_faults
  refine ⟨fun s p mv time c ha ⟨hen, hthr⟩ ⟨hcell, hon, hblank⟩ hshort hact => ?_, fun s k g ha hclear hmem hact => ?_,
    fun s k ha hclear hnone => ?_, fun s k ha => ?_, fun s r asserted ha => ?_, fun s ha hok => ?_, fun s ha => ?_,
    fun s i ha hen => ?_⟩
  · refine .of_next rfl ?_
    rw [whenAwake_run ha ((foot_drvShort p mv time).does s)]
    obtain ⟨hbump, hstop, hcount⟩ := (drvShort_trips hcell hen hthr hon hblank hshort hact).run
    exact ⟨hbump, hstop, hcount, ((foot_drvShort p mv time).run s).keeps ((drvShort_beyond p mv time).run s) (by decide) (by decide)⟩
  · refine .of_next rfl ?_
    rw [whenAwake_run ha ((foot_extDrvFault k).does s)]
    obtain ⟨hshow, hbump, hcount, hstop⟩ := (extDrvFault_stops k g hclear hmem hact).run
    exact ⟨hshow, hbump, hcount, hstop, ((foot_extDrvFault k).run s).keeps ((extDrvFault_beyond k).run s) (by decide) (by decide)⟩
  · refine .of_next rfl ?_
    rw [whenAwake_run ha (extDrvFault_shows hclear hnone)]
    exact ⟨f_wf_same (FLT_fields k).1 1 s, .ofOutside ((FLT_wf_outside k 1).run s)⟩
  · refine .of_next rfl ?_
    rw [whenAwake_run ha (show (fltRelease k).Does s () _ from (FLT_wf_in k 0).does s)]
    exact ⟨f_wf_same (FLT_fields k).1 0 s, .ofOutside ((FLT_wf_outside k 0).run s)⟩
  · refine .of_next rfl ?_
    rw [whenAwake_run ha ((foot_drvReady r asserted).does s)]
    refine ⟨(drvReady_shows r asserted s).run, fun hlow hen hact => ?_,
      ((foot_drvReady r asserted).run s).keeps ((drvReady_beyond r asserted).run s) (by decide) (by decide)⟩
    subst hlow
    exact (drvReady_stops r hen hact).run
  · refine .of_next rfl ?_
    rw [whenAwake_run ha (foot_vdrvUv.does s)]
    obtain ⟨⟨hlost, huv, hbump⟩, hstop, hcount⟩ := (vdrvUv_stops hok).run
    exact ⟨hlost, huv, hbump, hstop, hcount, (foot_vdrvUv.run s).keeps (vdrvUv_beyond.run s) (by decide) (by decide)⟩
  · refine .of_next rfl ?_
    rw [whenAwake_run ha (foot_vdrvRecover.does s)]
    exact ⟨f_wf_same VDRV_fields.1 1 s,
      .ofOutside <| (M.Fixes.wfOutside (x := GDR.STATUS.VDRV_OK) 1 (List.mem_singleton.mpr rfl)).run s⟩
  · refine .of_next rfl ?_
    rw [whenAwake_run ha ((foot_ilkDiagFail i).does s)]
    have hsets := (ilkDiagFail_fallsBack i.isLt hen).run
    refine ⟨(hsets i i.isLt).trans (by simp), fun j _ hne => (hsets j j.isLt).trans (by simp [Fin.val_ne_of_ne hne]),
      ((foot_ilkDiagFail i).run s).keeps ((ilkDiagFail_beyond i).run s) (by decide) (by decide)⟩

end Sys2Proof.Machine
end

section
/-! Statement O40, refuted: the overrun of a converter that makes its source lasting while the run it meets waits for its
trigger to be resolved. -/

namespace Sys2Proof.Machine

/-- Group 3 is RUNNING with channel 5 on timebase 0, whose trigger compare 0 follows that channel. Its trigger has fired and
is provisional; the run of converter 0 that it started is in progress, its results held, and two more triggers of that
converter's binding 0 were dropped within the same millisecond. -/
def heldRun : State :=
  M.run (do
    wf (SYS.ISLAND.STATE 7) 2
    wtab 0x30 (8 * 5) [3, 0]
    updGrp 3 fun r => { r with st := .running }
    wf (PLS.TRG_CFG.EN 0 0) 1
    wf (PLS.TRG_CFG.MODE 0 0) 1
    wf (PLS.TRG_CFG.REF_CH 0 0) 5
    updTrg 0 fun r => { r with now := { r.now with fired := true, prov := true }, last := .held }
    wf (MEA.BIND.EN 0 0) 1
    sarTrigger 0 0
    sarTrigger 0 0
    sarTrigger 0 0)
    linkUp

theorem heldRun_isBusy : heldRun.awake = true ∧ heldRun.present 7 = true ∧ heldRun.quiet = true ∧
    heldRun.f (MEA.BIND.EN (0 : Fin 8) (0 : Fin 8)) = 1 ∧ heldRun.f (MEA.CONV_STAT.BUSY (0 : Fin 8)) = 1 := by
  decide +kernel

/-- R111, R408: source 60 turns lasting, group 3 is forced, its trigger is cancelled, and the results of the run to come are
STALE. -/
theorem overrun_makesRunStale :
    ((onIsland 7 do
      sarTrigger 0 0
      settleExecutor).run heldRun).hid.mea.runs = [(0, ⟨0, 0, false, .stale⟩)] ∧
      heldRun.hid.mea.runs = [(0, ⟨0, 0, false, .held⟩)] := by
  decide +kernel

/-- Refutes O40: the third overrun within 1 ms makes source 60 lasting, and its reaction takes the converter's groups to
SAFE (R188, R408). That cancels their provisional triggers, and a run in progress of such a trigger goes on with STALE
results (R111, R174), where the second clause has every run stay as it was. -/
theorem not_conversionsAndReferences : ¬ Obligations.Conversions_and_references := by
  unfold Obligations.Conversions_and_references
  rintro ⟨-, hoverrun, -⟩
  obtain ⟨hawake, hpres, hquiet, hen, hbusy⟩ := heldRun_isBusy
  obtain ⟨t, ht, -, -, -, hruns, -⟩ := hoverrun heldRun 0 0 hawake hpres hquiet hen hbusy
  obtain ⟨hstale, hheld⟩ := overrun_makesRunStale
  rw [exec_next_eq ht (m := onIsland 7 do sarTrigger 0 0; settleExecutor) rfl, hstale, hheld] at hruns
  exact absurd hruns (by decide)

end Sys2Proof.Machine
end

section
/-! SUPPORT for O41: what the reaction to an occurrence leaves of page MEA. Groups that stop release the results held for their
provisional triggers (R111, R174); of the page that reaches the words of results and of their windows alone. -/

namespace Sys2Proof.Machine

/-! ## The words -/

/-- A parameter of page MEA that shows neither a result nor the windows of results. -/
structure MeaWord (a : Nat) : Prop where
  page : a / 65536 = 6
  window : ∀ k, a ≠ MEA.WIN_OUT k
  result : ∀ r, a ≠ MEA.RESULT r

theorem MAINS_meaWord : MeaWord MEA.MAINS where
  page := by decide
  window k := by
    unfold MEA.MAINS MEA.WIN_OUT arr
    split <;> omega
  result r := by
    unfold MEA.MAINS MEA.RESULT arr
    split <;> omega

section
variable {α : Type} {a : Nat}

theorem M.Fixes.rdIn {P : List Nat} {m : M α} (h : m.In P) (hn : 99 ∉ P) (ha : a / 65536 ∉ P) : m.Fixes (State.rd · a) :=
  .ofIn h fun _ _ hs => hs.rd hn a ha

theorem M.Fixes.rdWr {b : Nat} (w : Word) (h : a ≠ b) : (wr b w).Fixes (State.rd · a) :=
  .act fun s => rd_apply_reg_other b a w s h

theorem M.Fixes.wordIn {P : List Nat} {m : M α} (ha : MeaWord a) (h : m.In P) (hn : 99 ∉ P ∧ 6 ∉ P) : m.Fixes (State.rd · a) :=
  .rdIn h hn.1 (by rw [ha.page]; exact hn.2)

end

section
variable {a : Nat}

/-! ## Results that are released -/

theorem deliver_word (ha : MeaWord a) (x : Sample) (stale : Bool) : (deliver x stale).Fixes (State.rd · a) := by
  have hdrop : ∀ n, (inc (SYS.XFER.DROPPED_WRITES n)).In [0] := fun n => M.In.inc 0 _ (SYS.XFER_page n) (by decide)
  exact .read fun _ => .bind (.rdWr _ (ha.window _)) fun _ => .bind (.rdWr _ (ha.result _)) fun _ =>
    .bind (.forM (fun n => .wordIn ha (hdrop n) (by decide)) _) fun _ => .bind (.act fun _ => rfl) fun _ =>
    .thenMore (.act fun _ => rfl) fun _ => .when (.act fun _ => rfl)

theorem resolveHeld_word (ha : MeaWord a) (k : Nat) (stale : Bool) : (resolveHeld k stale).Fixes (State.rd · a) :=
  .read fun _ => .bind (.act fun _ => rfl) fun _ => .forM (fun _ => deliver_word ha _ _) _

theorem resolveTrg_word (ha : MeaWord a) (k : Nat) (stale nextToo : Bool) : (resolveTrg k stale nextToo).Fixes (State.rd · a) := by
  have hcount : ∀ n, (incBy PLS.STATUS.STALE_TRIG n).In [3] := fun n => M.In.incBy 3 _ n (by decide) (by decide)
  exact .read fun _ => .when <| .thenMore (.wordIn ha (hcount _) (by decide)) fun _ => .bind (.act fun _ => rfl) fun _ =>
    resolveHeld_word ha _ _

/-! ## Groups -/

theorem dropGroup_word (ha : MeaWord a) (g : Nat) : (dropGroup g).Fixes (State.rd · a) :=
  .bind (.wordIn ha (foot_discardShadows g) (by decide)) fun _ =>
    .bind (.read fun _ => .bind (.forM (fun _ => resolveTrg_word ha _ _ _) _) fun _ =>
      .wordIn ha (foot_setProvisional g) (by decide)) fun _ => .wordIn ha (foot_updGrp g _) (by decide)

theorem tripGroup_word (ha : MeaWord a) (g kind first : Nat) : (tripGroup g kind first).Fixes (State.rd · a) := by
  have hwf : ∀ x v, x.addr = TRP.GRP_TRIP g → (wf x v).Fixes (State.rd · a) := fun x v hx =>
    .wordIn ha (M.In.wf (P := [4]) 4 x v (hx ▸ TRP.GRP_TRIP_page g) (by decide)) (by decide)
  have hcount : (inc (TRP.GRP_TRIP.COUNT g)).Fixes (State.rd · a) :=
    .wordIn ha (M.In.inc (P := [4]) 4 _ (TRP.GRP_TRIP_page g) (by decide)) (by decide)
  have hevent : ∀ body, (eventGrp 0x8020 g body).Fixes (State.rd · a) := fun _ => .wordIn ha (foot_eventGrp _ _ _) (by decide)
  exact .read fun _ => .ite
    (.bind (hwf _ _ rfl) fun _ => .bind (hwf _ _ rfl) fun _ => .bind (hwf _ _ rfl) fun _ => .bind (hwf _ _ rfl) fun _ =>
      .bind (hwf _ _ rfl) fun _ => .bind hcount fun _ => .bind (.wordIn ha (foot_applyPattern _ _) (by decide)) fun _ =>
      .bind (dropGroup_word ha g) fun _ => .bind (.wordIn ha (foot_endSs1 g) (by decide)) fun _ =>
      .bind (.wordIn ha (foot_setGState _ _ _) (by decide)) fun _ => .bind (hevent _) fun _ => .pure _) <|
    .ite (.bind (hwf _ _ rfl) fun _ => .bind (hwf _ _ rfl) fun _ => .bind hcount fun _ =>
      .bind (.wordIn ha (foot_applyPattern _ _) (by decide)) fun _ => .bind (hevent _) fun _ => .pure _) (.pure _)

theorem emergencyStop_word (ha : MeaWord a) (cause : Nat) (toFault : Bool) :
    (emergencyStop cause toFault).Fixes (State.rd · a) := by
  have hcount : (inc CHG.COUNT.EMERGENCY).In [12] := M.In.inc 12 _ (by decide) (by decide)
  exact .read fun _ => .when <| .bind (.wordIn ha hcount (by decide)) fun _ => .bind (tripGroup_word ha _ _ _) fun _ =>
    .bind (tripGroup_word ha _ _ _) fun _ => .bind (.act fun _ => rfl) fun _ =>
    .bind (.wordIn ha foot_releaseRelays (by decide)) fun _ => .wordIn ha (foot_setChg _ _) (by decide)

theorem forceGroup_word (ha : MeaWord a) (g code cause : Nat) : (forceGroup g code cause).Fixes (State.rd · a) :=
  have hshow : (showForce g).Fixes (State.rd · a) := .wordIn ha (foot_showForce g) (by decide)
  .read fun _ => .ite
    (.bind (dropGroup_word ha g) fun _ => .bind (.wordIn ha (foot_endSs1 g) (by decide)) fun _ => .bind (.act fun _ => rfl) fun _ =>
      .bind (.wordIn ha (foot_setGState _ _ _) (by decide)) fun _ => hshow) <|
    .when <| .bind (.act fun _ => rfl) fun _ => hshow

theorem forceAct_word (ha : MeaWord a) (g code cause : Nat) : (forceAct g code cause).Fixes (State.rd · a) :=
  .read fun _ => .bind (forceGroup_word ha _ _ _) fun _ => .when (emergencyStop_word ha _ _)

/-! ## Safety functions and the ledger -/

theorem funcEffect_word (ha : MeaWord a) (f g cause : Nat) : (funcEffect f g cause).Fixes (State.rd · a) := by
  refine .read fun s => ?_
  split
  · exact forceAct_word ha _ _ _
  · exact .when <| .ite (.when (.act fun _ => rfl)) (forceAct_word ha _ _ _)
  · exact forceAct_word ha _ _ _
  · exact forceAct_word ha _ _ _
  · exact .pure _

theorem trigger_word (ha : MeaWord a) (f src key : Nat) (gs : List Nat) (cause : Nat) :
    (trigger f src key gs cause).Fixes (State.rd · a) := by
  have hwf : ∀ x v, x.addr / 65536 = 16 → (wf x v).Fixes (State.rd · a) := fun x v hx =>
    .wordIn ha (M.In.wf (P := [16]) 16 x v hx (by decide)) (by decide)
  have hstat := SAF.FUNC_STAT_page f
  have hcount : (inc (SAF.FUNC_STAT.COUNT f)).In [16] := M.In.inc 16 _ hstat (by decide)
  exact .read fun _ => .when <| .bind (.act fun _ => rfl) fun _ => .bind (hwf _ _ hstat) fun _ => .bind (hwf _ _ hstat) fun _ =>
    .thenMore (.bind (hwf _ _ hstat) fun _ => .bind (hwf _ _ (by decide)) fun _ => .bind (.wordIn ha hcount (by decide)) fun _ =>
      .bind (.wordIn ha (foot_funcEvent _ _) (by decide)) fun _ => .wordIn ha (foot_funcStart f) (by decide)) fun _ =>
    .forM (fun _ => funcEffect_word ha _ _ _) _

theorem startSs1_word (ha : MeaWord a) (g cause : Nat) : (startSs1 g cause).Fixes (State.rd · a) :=
  .read fun _ => .when <| .bind (trigger_word ha _ _ _ _ _) fun _ => .read fun _ => .when <|
    .wordIn ha (foot_withdraw _ _ _) (by decide)

theorem react_word (ha : MeaWord a) (cls src inst : Nat) : (react cls src inst).Fixes (State.rd · a) :=
  .read fun _ => .ite (.forM (fun _ => startSs1_word ha _ _) _) <| .ite (.forM (fun _ => forceAct_word ha _ _ _) _) <|
    .when <| .bind (.forM (fun _ => forceAct_word ha _ _ _) _) fun _ => .wordIn ha foot_deviceSafe (by decide)

theorem occurrence_word (ha : MeaWord a) (src inst detail : Nat) : (occurrence src inst detail).Fixes (State.rd · a) := by
  have hwf : (wf (FLG.OCCUR.LAST_INSTANCE src) inst).In [17] := M.In.wf 17 _ _ (FLG.OCCUR_page src) (by decide)
  have hinc : ∀ x : FldAt, x.addr = FLG.OCCUR src → (inc x).In [17] := fun x hx =>
    M.In.inc 17 x (hx ▸ FLG.OCCUR_page src) (by decide)
  have hwr : ∀ w, (wr (FLG.LASTING src) w).In [17] := fun w => M.In.wr 17 _ w (FLG.LASTING_page src) (by decide)
  exact .read fun _ => .bind (.wordIn ha (hinc _ rfl) (by decide)) fun _ => .bind (.wordIn ha hwf (by decide)) fun _ =>
    .bind (.act fun _ => rfl) fun _ =>
    .ite (.bind (.wordIn ha (hwr _) (by decide)) fun _ => .bind (.wordIn ha (hinc _ rfl) (by decide)) fun _ =>
      .bind (.wordIn ha foot_setLastingSrc (by decide)) fun _ => .bind (.wordIn ha (foot_queueEntry _ _) (by decide)) fun _ =>
      .bind (.wordIn ha (foot_ledgerEvent _) (by decide)) fun _ => .bind (react_word ha _ _ _) fun _ => .pure _)
    (.bind (.act fun _ => rfl) fun _ => .pure _)

theorem occur_word (ha : MeaWord a) (src inst detail : Nat) : (occur src inst detail).Fixes (State.rd · a) :=
  .bind (occurrence_word ha _ _ _) fun _ => .pure _

end

end Sys2Proof.Machine
end

section
/-! Statement O41: sub-windows (R182, R183, R185, R186) and the mains cycle (R184). -/

namespace Sys2Proof.Machine

/-! ## State that is no parameter -/

theorem f_apply_hid (f : Hidden → Hidden) (x : FldAt) (s : State) : ((Act.hid f).apply s).f x = s.f x := rfl

theorem outside_apply_hid (as : List Nat) (f : Hidden → Hidden) (s : State) :
    ((Act.hid f).apply s).outside as = s.outside as := rfl

/-! ## The fields of MEA.MAINS -/

theorem MAINS_fields : MEA.MAINS.LOCKED.Real ∧ MEA.MAINS.LOCK_LOSSES.Real ∧ MEA.MAINS.PERIOD.Real := by decide +kernel

/-- The three fields lie beside one another. -/
theorem MAINS_beside : MEA.MAINS.LOCKED.Apart MEA.MAINS.LOCK_LOSSES ∧ MEA.MAINS.LOCKED.Apart MEA.MAINS.PERIOD ∧
    MEA.MAINS.LOCK_LOSSES.Apart MEA.MAINS.LOCKED ∧ MEA.MAINS.LOCK_LOSSES.Apart MEA.MAINS.PERIOD ∧
    MEA.MAINS.PERIOD.Apart MEA.MAINS.LOCKED ∧ MEA.MAINS.PERIOD.Apart MEA.MAINS.LOCK_LOSSES := by
  obtain ⟨hlocked, hlosses, hperiod⟩ := MAINS_fields
  exact ⟨.inr ⟨hlocked, by decide⟩, .inr ⟨hlocked, by decide⟩, .inr ⟨hlosses, by decide⟩, .inr ⟨hlosses, by decide⟩,
    .inr ⟨hperiod, by decide⟩, .inr ⟨hperiod, by decide⟩⟩

theorem MAINS_wf_in (x : FldAt) (v : Nat) (hx : x.addr = MEA.MAINS) : (wf x v).In [6] :=
  M.In.wf 6 x v (by rw [hx]; decide) (by decide)

theorem MAINS_wf_outside (x : FldAt) (v : Nat) (hx : x.addr = MEA.MAINS) : (wf x v).Fixes (State.outside [MEA.MAINS]) :=
  .wfOutside v (List.mem_singleton.mpr hx)

/-! ## Frames -/

theorem mainsEvent_beyond : mainsEvent.Fixes State.beyond :=
  .read fun _ => .read fun _ => event_beyond ..

theorem mainsLoss_beyond : mainsLoss.Fixes State.beyond :=
  .bind (wf_beyond _ _) fun _ => .bind (inc_beyond _) fun _ => .bind (hid_beyond _) fun _ => .bind mainsEvent_beyond fun _ =>
    occur_beyond _ _ _

theorem mainsPeriod_beyond (period clk : Nat) : (mainsPeriod period clk).Fixes State.beyond :=
  .read fun _ => .bind (wf_beyond _ _) fun _ => .bind (hid_beyond _) fun _ =>
    .ite (.bind (hid_beyond _) fun _ => .when mainsLoss_beyond) <|
      .when <| .bind (hid_beyond _) fun _ => .bind (wf_beyond _ _) fun _ => mainsEvent_beyond

theorem mainsPeriod_keeps (period clk : Nat) (s : State) : Keeps [MEA.MAINS] ledgerPages s ((mainsPeriod period clk).run s) :=
  ((foot_mainsPeriod period clk).run s).keeps ((mainsPeriod_beyond period clk).run s) (by decide) (by decide) |>.mono
    (List.nil_subset _) (List.Subset.refl _)

theorem mainsTimeout_keeps (s : State) : Keeps [MEA.MAINS] ledgerPages s (mainsTimeout.run s) :=
  have hbeyond : mainsTimeout.Fixes State.beyond :=
    .read fun _ => .bind (hid_beyond _) fun _ => .when <| .bind (hid_beyond _) fun _ => mainsLoss_beyond
  (foot_mainsTimeout.run s).keeps (hbeyond.run s) (by decide) (by decide) |>.mono (List.nil_subset _) (List.Subset.refl _)

/-- The event MAINS_LOCK leaves all but the pages of events. -/
theorem mainsEvent_keeps (s : State) : Keeps [] eventPages s (mainsEvent.run s) :=
  have hbare : mainsEvent.Fixes State.bare := .read fun _ => .read fun _ => (event_link ..).bare
  (sent_run foot_mainsEvent hbare s).keeps

theorem mainsEvent_f (x : FldAt) (hx : x.addr = MEA.MAINS) (s : State) : (mainsEvent.run s).f x = s.f x :=
  (mainsEvent_keeps s).f List.not_mem_nil (by rw [hx]; decide)

/-! ## The lock (R184) -/

/-- Lock is lost: what MEA.MAINS and source 64 of the ledger tell of it. -/
structure MainsLost (s t : State) : Prop where
  locked : t.f MEA.MAINS.LOCKED = 0
  period : t.f MEA.MAINS.PERIOD = s.f MEA.MAINS.PERIOD
  losses : Bumped MEA.MAINS.LOCK_LOSSES s t
  counted : Counted 64 0 s t

/-- The event and the reaction to the occurrence leave MEA.MAINS. -/
theorem mainsLoss_shows (s : State) : mainsLoss.Ends s fun _ t => MainsLost s t := by
  obtain ⟨hlocked, hlosses, -⟩ := MAINS_fields
  obtain ⟨hll, -, hsl, -, hpl, hps⟩ := MAINS_beside
  have hunlock : (wf MEA.MAINS.LOCKED 0).In [6] := MAINS_wf_in _ _ rfl
  have hinc : (inc MEA.MAINS.LOCK_LOSSES).In [6] := M.In.inc 6 _ (by decide) (by decide)
  have hreset := M.In.hid_mea (P := [50]) (fun h => { h.mea with lockN := 0 }) (by decide)
  refine .bind (hunlock.does s) <| .bind (hinc.does _) <| .bind (hreset.does _) <| .bind (foot_mainsEvent.does _) <|
    .ofDoes ((foot_occur _ _ _).does _) ?_
  have hshown : ∀ {P : List Nat} {m : M Unit}, m.In P → 99 ∉ P ∧ 17 ∉ P → ∀ u, (m.run u).occurShown 64 = u.occurShown 64 :=
    fun h hn u => (h.run u).shown 64 hn.1 hn.2
  set u := (wf MEA.MAINS.LOCKED 0).run s
  set v := (inc MEA.MAINS.LOCK_LOSSES).run u
  set w := (hid fun h => { h with mea := { h.mea with lockN := 0 } }).run v
  have hword : ∀ x : FldAt, x.addr = MEA.MAINS → ((occur 64 0 MEA.MAINS).run (mainsEvent.run w)).f x = v.f x := fun x hx =>
    (f_of_rd_eq x (by rw [hx]; exact (occur_word MAINS_meaWord 64 0 MEA.MAINS).run _)).trans (mainsEvent_f x hx w)
  refine ⟨?_, ?_, ?_, ?_⟩
  · exact (hword _ rfl).trans (((M.Fixes.incApart hll).run u).trans (f_wf_same hlocked 0 s))
  · exact (hword _ rfl).trans (((M.Fixes.incApart hps).run u).trans (f_wf_apart hpl 0 s))
  · exact (hlosses.bumped u).congr (f_wf_apart hsl 0 s) (hword _ rfl)
  · exact (occur_counted 64 0 MEA.MAINS _).of_shown <| (hshown foot_mainsEvent (by decide) w).trans <|
      (hshown hreset (by decide) v).trans <| (hshown hinc (by decide) u).trans (hshown hunlock (by decide) s)

/-- With the lock held, a period outside the band ends it. -/
theorem mainsPeriod_unlocks {s : State} {period : Nat} (clk : Nat) (hlocked : s.f MEA.MAINS.LOCKED = 1)
    (hband : periodInBand period = false) : (mainsPeriod period clk).Ends s fun _ t => t.f MEA.MAINS.LOCKED = 0 ∧
      t.f MEA.MAINS.PERIOD = min period 16777215 ∧ Bumped MEA.MAINS.LOCK_LOSSES s t ∧ Counted 64 0 s t := by
  obtain ⟨-, -, hperiod⟩ := MAINS_fields
  obtain ⟨-, -, -, hsp, -, -⟩ := MAINS_beside
  refine .read ?_
  extract_lets x near good
  have hgood : good = false := by simp only [good, hband, Bool.false_and]
  refine .bind (M.does_wf _ _ s) <| .bind (M.does_hid _ _) <| .ite_pos hlocked <| .bind (M.does_hid _ _) <|
    .ite_pos (by rw [hgood]; rfl) ?_
  obtain ⟨_, t, hd, ht⟩ := mainsLoss_shows _
  refine .ofDoes hd ⟨ht.locked, ht.period.trans ?_, ht.losses.congr (f_wf_apart hsp _ s) rfl, ht.counted.of_shown ?_⟩
  · exact (f_wf_same hperiod _ s).trans (Nat.mod_eq_of_lt ((Nat.min_le_right _ _).trans_lt (by decide)))
  · exact ((MAINS_wf_in MEA.MAINS.PERIOD _ rfl).run s).shown 64 (by decide) (by decide)

/-- The fourth good period in a row locks. -/
theorem mainsPeriod_locks {s : State} {period prev : Nat} (clk : Nat) (hopen : s.f MEA.MAINS.LOCKED = 0)
    (hband : 984640 ≤ period ∧ period ≤ 1422208) (hprev : s.hid.mea.prevP = some prev)
    (hnear : period * 100 ≤ prev * 101 ∧ prev * 99 ≤ period * 100) (hcount : 3 ≤ s.hid.mea.lockN) :
    (mainsPeriod period clk).Ends s fun _ t => t.f MEA.MAINS.LOCKED = 1 ∧ t.f MEA.MAINS.PERIOD = period ∧
      t.f MEA.MAINS.LOCK_LOSSES = s.f MEA.MAINS.LOCK_LOSSES ∧ Keeps [MEA.MAINS] eventPages s t := by
  obtain ⟨hlocked, -, hperiod⟩ := MAINS_fields
  obtain ⟨-, -, hsl, hsp, hpl, -⟩ := MAINS_beside
  refine .read ?_
  extract_lets x near good
  have hgood : good = true := by
    simp only [good, near, x, hprev, periodInBand, hband, hnear, decide_true, Bool.and_true]
  refine .bind ((MAINS_wf_in MEA.MAINS.PERIOD _ rfl).does s) <| .bind (M.does_hid _ _) <| .ite_neg (by omega) <|
    .ite_pos (by rw [hgood, decide_eq_true (show 3 ≤ x.lockN from hcount)]; rfl) <| .bind (M.does_hid _ _) <|
    .bind (M.does_wf _ _ _) <| .ofDoes (foot_mainsEvent.does _) ?_
  have hshown : ((wf MEA.MAINS.PERIOD (min period 0xFFFFFF)).run s).f MEA.MAINS.PERIOD = period :=
    (f_wf_same hperiod _ s).trans (show min period 0xFFFFFF % 2 ^ 24 = period by omega)
  have hlosses : ((wf MEA.MAINS.PERIOD (min period 0xFFFFFF)).run s).f MEA.MAINS.LOCK_LOSSES = s.f MEA.MAINS.LOCK_LOSSES :=
    f_wf_apart hsp _ s
  have hout := (MAINS_wf_outside MEA.MAINS.PERIOD (min period 0xFFFFFF) rfl).run s
  generalize (wf MEA.MAINS.PERIOD (min period 0xFFFFFF)).run s = u at *
  refine ⟨?_, ?_, ?_, ?_⟩
  · exact (mainsEvent_f _ rfl _).trans (f_wf_same hlocked 1 _)
  · rw [mainsEvent_f _ rfl, f_wf_apart hpl, f_apply_hid, f_apply_hid, hshown]
  · rw [mainsEvent_f _ rfl, f_wf_apart hsl, f_apply_hid, f_apply_hid, hlosses]
  · refine (Keeps.ofOutside (as := [MEA.MAINS]) ?_).trans (mainsEvent_keeps _)
    refine ((MAINS_wf_outside MEA.MAINS.LOCKED 1 rfl).run _).trans ?_
    rw [outside_apply_hid, outside_apply_hid, hout]

/-! ## Crossings (R184) -/

/-- A state in which the last crossing lies at `x`. -/
def State.crossed (s : State) (x : Nat) : State :=
  { s with hid := { s.hid with mea := { s.hid.mea with crossAt := some x } } }

theorem Keeps.of_crossed {as pages : List Nat} {s t : State} {x : Nat} (h : Keeps as pages (s.crossed x) t) : Keeps as pages s t :=
  ⟨h.rd, h.tabs, h.vio, h.chg, h.pending⟩

/-- Where the detector places a crossing that it sees at modulator clock `clk`, in sixteenths of a clock (log entry 28). -/
def crossingAt (clk : Nat) (before after : Int) : Nat := (16 * (clk : Int) - 512 - 16 * after / (after - before)).toNat

/-- A crossing that the detector takes ends the period since the one before it. -/
theorem mainsCrossing_measures {s : State} {low before after : Int} {n t0 q : Nat}
    (hen : bitsOf s.hid.mea.mains 31 31 = 1 ∧ bit s.hid.mea.pcEn (bitsOf s.hid.mea.mains 27 24) = true)
    (hsum : low ≤ -8 ∧ before < 0 ∧ 0 ≤ after) (hcross : s.hid.mea.crossAt = some t0)
    (hq : q = crossingAt (s.hid.mea.subAt + n) before after - t0) : (mainsCrossing low before after n).Does s ()
      ((mainsPeriod q (s.hid.mea.subAt + n)).run (s.crossed (crossingAt (s.hid.mea.subAt + n) before after))) := by
  subst hq
  refine .read <| .ite_pos ⟨hen.1, hen.2, hsum⟩ <| .bind (M.does_hid _ s) ?_
  simp only [hcross]
  exact (foot_mainsPeriod _ _).does _

theorem mainsTimeout_unlocks {s : State} (hlocked : s.f MEA.MAINS.LOCKED = 1) : mainsTimeout.Ends s fun _ t => MainsLost s t := by
  refine .read <| .bind (M.does_hid _ s) <| .ite_pos hlocked <| .bind (M.does_hid _ _) ?_
  obtain ⟨_, t, hd, hopen, hperiod, hlosses, hcounted⟩ := mainsLoss_shows _
  exact .ofDoes hd ⟨hopen, hperiod, hlosses, hcounted⟩

/-! ## Sub-windows (R182, R183, R185, R186) -/

theorem PC_SUM_fields : ∀ k < 16, (MEA.PC_SUM.SUM k).Real ∧ (MEA.PC_SUM.SUB k).Real := by decide +kernel

theorem PC_LEN_fields : MEA.PC_LEN.UNLOCKED.Real ∧ MEA.PC_LEN.CYCLE.Real ∧ MEA.PC_LEN.N.Real := by decide +kernel

theorem subCount_le (w : Word) : subCount w ≤ 256 := by
  unfold subCount
  split <;> decide

theorem subCount_pos (w : Word) : 0 < subCount w := by
  unfold subCount
  split <;> decide

theorem codeOf_lt (w : Nat) (x : Int) : codeOf w x < 2 ^ w := by
  have hpos : (0 : Int) < 2 ^ w := by positivity
  refine (Int.toNat_lt (Int.emod_nonneg x hpos.ne')).mpr ?_
  push_cast
  exact Int.emod_lt_of_pos x hpos

/-- A fold that sets the bits that are wanted sets those of its list, and leaves the others. -/
theorem bit_foldl_setBit (c : Nat → Prop) [DecidablePred c] (j : Nat) : ∀ (l : List Nat) (m : Nat),
    bit (l.foldl (fun m k => if c k then setBit m k else m) m) j = (bit m j || decide (j ∈ l ∧ c j))
  | [], m => by simp
  | k :: l, m => by
    rw [List.foldl_cons, bit_foldl_setBit c j l]
    rcases eq_or_ne j k with rfl | hj
    · by_cases hc : c j <;> simp [hc, bit_setBit]
    · by_cases hc : c k <;> simp [hc, hj, bit_setBit]

/-- The channels enabled for a cycle that begins in `s` (R183). -/
theorem bit_enabled (s : State) {k : Nat} (hk : k < 16) :
    bit ((List.range 16).foldl (fun m k => if s.f (MEA.PC_CFG.EN k) = 1 then setBit m k else m) 0) k =
      decide (s.f (MEA.PC_CFG.EN k) = 1) := by
  have hzero : bit 0 k = false := by simp [bit]
  rw [bit_foldl_setBit (fun k => s.f (MEA.PC_CFG.EN k) = 1), hzero, Bool.false_or]
  simp only [List.mem_range, hk, true_and]

theorem b2n_not_one {n : Nat} (h : n < 2) : b2n (!(n == 1)) = 1 - n := by
  interval_cases n <;> rfl

/-- Inside a cycle a sub-window ends at its boundary. -/
theorem subEnd_inside {s : State} (hcut : s.hid.mea.cut = none) (h : s.hid.mea.subIdx + 1 < subCount s.hid.mea.mains) :
    s.subEnd = some (s.hid.mea.subIdx, max s.hid.mea.subAt (s.hid.mea.boundary (s.hid.mea.subIdx + 1)), false) := by
  simp only [State.subEnd, hcut, Nat.min_eq_left h.le, h, if_true, Nat.add_sub_cancel]

/-- The last sub-window of a cycle that is not locked ends with it. -/
theorem subEnd_last {s : State} (hcut : s.hid.mea.cut = none) (hopen : s.f MEA.MAINS.LOCKED = 0)
    (h : subCount s.hid.mea.mains ≤ s.hid.mea.subIdx + 1) : s.subEnd = some (subCount s.hid.mea.mains - 1,
      max s.hid.mea.subAt (s.hid.mea.boundary (subCount s.hid.mea.mains)), true) := by
  simp only [State.subEnd, hcut, hopen, Nat.min_eq_right h, lt_irrefl, if_false, Nat.zero_ne_one]

/-- The channels' sums, as far as they are enabled for the cycle. -/
def MeaSt.usedSums (x : MeaSt) (sums : List Int) : List Int :=
  (List.range 16).map fun k => if bit x.pcEn k then sums.getD k 0 else 0

theorem codeOf_usedSums (x : MeaSt) (sums : List Int) {k : Nat} (hk : k < 16) :
    codeOf 24 ((x.usedSums sums).getD k 0) = if bit x.pcEn k then codeOf 24 (sums.getD k 0) else 0 := by
  have hget : (x.usedSums sums).getD k 0 = if bit x.pcEn k then sums.getD k 0 else 0 := by
    simp [MeaSt.usedSums, List.getD_eq_getElem?_getD, List.getElem?_map, List.getElem?_range hk]
  rw [hget, apply_ite (codeOf 24)]
  rfl

/-- One channel's sum is shown. -/
def showSum (idx : Nat) (used : List Int) (k : Nat) : M Unit := do
  wf (MEA.PC_SUM.SUB k) idx
  wf (MEA.PC_SUM.SUM k) (codeOf 24 (used.getD k 0))

/-- What MEA.PC_SUM of a channel shows. -/
structure SumShown (idx : Nat) (used : List Int) (k : Nat) (t : State) : Prop where
  sum : t.f (MEA.PC_SUM.SUM k) = codeOf 24 (used.getD k 0)
  sub : t.f (MEA.PC_SUM.SUB k) = idx

theorem PC_SUM_ne_PC_SUM {j k : Nat} (hj : j < 16) (hk : k < 16) (h : j ≠ k) : MEA.PC_SUM j ≠ MEA.PC_SUM k := by
  simp only [MEA.PC_SUM, arr, Nat.zero_le, hj, hk, and_self, if_true]
  omega

theorem PC_SUM_ne_PC_LEN {k : Nat} (hk : k < 16) : MEA.PC_SUM k ≠ MEA.PC_LEN := by
  simp only [MEA.PC_SUM, MEA.PC_LEN, arr, Nat.zero_le, hk, and_self, if_true]
  omega

theorem showSum_in (idx : Nat) (used : List Int) (k : Nat) : (showSum idx used k).In [6] :=
  .bind (M.In.wf 6 _ _ (MEA.PC_SUM_page k) (by decide)) fun _ => M.In.wf 6 _ _ (MEA.PC_SUM_page k) (by decide)

theorem showSum_shows {idx : Nat} (hidx : idx < 256) (used : List Int) {k : Nat} (hk : k < 16) (s : State) :
    SumShown idx used k ((showSum idx used k).run s) := by
  obtain ⟨hsum, hsub⟩ := PC_SUM_fields k hk
  refine (show (showSum idx used k).Ends s fun _ t => SumShown idx used k t from ?_).run
  refine .bind (M.does_wf _ _ s) <| .ofDoes (M.does_wf _ _ _) ⟨?_, ?_⟩
  · exact (f_wf_same hsum _ _).trans (Nat.mod_eq_of_lt (codeOf_lt 24 _))
  · exact (f_wf_apart (.inr ⟨hsub, .inr (show 23 < 24 by decide)⟩) _ _).trans
      ((f_wf_same hsub _ _).trans (Nat.mod_eq_of_lt hidx))

theorem showSum_other {idx : Nat} {used : List Int} {j k : Nat} (hj : j < 16) (hk : k < 16) (h : j ≠ k) {s : State}
    (hs : SumShown idx used j s) : SumShown idx used j ((showSum idx used k).run s) := by
  have hfix : (showSum idx used k).Fixes (State.rd · (MEA.PC_SUM j)) :=
    .bind (.read fun _ => .rdWr _ (PC_SUM_ne_PC_SUM hj hk h)) fun _ => .read fun _ => .rdWr _ (PC_SUM_ne_PC_SUM hj hk h)
  have hrd : ((showSum idx used k).run s).rd (MEA.PC_SUM j) = s.rd (MEA.PC_SUM j) := hfix.run s
  exact ⟨(f_of_rd_eq (MEA.PC_SUM.SUM j) hrd).trans hs.sum, (f_of_rd_eq (MEA.PC_SUM.SUB j) hrd).trans hs.sub⟩

theorem showSums_shows {idx : Nat} (hidx : idx < 256) (used : List Int) {j : Nat} (hj : j < 16) :
    ∀ (l : List Nat) (_ : ∀ k ∈ l, k < 16) (s : State), j ∈ l ∨ SumShown idx used j s →
      SumShown idx used j ((l.forM (showSum idx used)).run s)
  | [], _, _, h => h.resolve_left List.not_mem_nil
  | k :: l, hl, s, h => by
    obtain ⟨hk, hrest⟩ := List.forall_mem_cons.mp hl
    have hrun : ((k :: l).forM (showSum idx used)).run s = (l.forM (showSum idx used)).run ((showSum idx used k).run s) :=
      M.Does.run <| ((showSum_in idx used k).does s).bind ((M.In.forM (showSum_in idx used) l).does _)
    rw [hrun]
    refine showSums_shows hidx used hj l hrest _ ?_
    by_cases hjk : j = k
    · exact .inr (hjk ▸ showSum_shows hidx used hj s)
    · exact h.imp (fun hin => (List.mem_cons.mp hin).resolve_left hjk) (showSum_other hj hk hjk)

/-- The parameters that a sub-window writes. -/
def subWords : List Nat := MEA.PC_LEN :: (List.range 16).map MEA.PC_SUM

theorem PC_SUM_mem_subWords {k : Nat} (hk : k < 16) : MEA.PC_SUM k ∈ subWords :=
  List.mem_cons_of_mem _ (List.mem_map.mpr ⟨k, List.mem_range.mpr hk, rfl⟩)

/-- What a sub-window shows: sums and index, whether its cycle is unlocked, the cycle's number, the length. -/
def showSubWindow (w : SubWin) : M Unit := do
  (List.range 16).forM (showSum w.idx w.sums)
  wf MEA.PC_LEN.UNLOCKED (b2n !w.locked)
  wf MEA.PC_LEN.CYCLE w.cycle
  wf MEA.PC_LEN.N w.n

theorem showSubWindow_in (w : SubWin) : (showSubWindow w).In [6] := by
  have hlen : ∀ x v, x.addr = MEA.PC_LEN → (wf x v).In [6] := fun x v hx => M.In.wf 6 x v (by rw [hx]; decide) (by decide)
  exact .bind (.forM (showSum_in _ _) _) fun _ => .bind (hlen _ _ rfl) fun _ => .bind (hlen _ _ rfl) fun _ => hlen _ _ rfl

theorem showSubWindow_outside (w : SubWin) : (showSubWindow w).Fixes (State.outside subWords) := by
  have hlen : ∀ x v, x.addr = MEA.PC_LEN → (wf x v).Fixes (State.outside subWords) := fun _ v hx =>
    .wfOutside v (hx ▸ List.mem_cons_self)
  have hsum : ∀ k ∈ List.range 16, (showSum w.idx w.sums k).Fixes (State.outside subWords) := fun k hk =>
    have hmem := PC_SUM_mem_subWords (List.mem_range.mp hk)
    .bind (.wfOutside _ hmem) fun _ => .wfOutside _ hmem
  exact .bind (.forMem _ hsum) fun _ => .bind (hlen _ _ rfl) fun _ => .bind (hlen _ _ rfl) fun _ => hlen _ _ rfl

/-- What MEA.PC_SUM and MEA.PC_LEN tell of a sub-window. -/
structure SubShown (w : SubWin) (t : State) : Prop where
  sums : ∀ k < 16, SumShown w.idx w.sums k t
  unlocked : t.f MEA.PC_LEN.UNLOCKED = b2n !w.locked
  cycle : t.f MEA.PC_LEN.CYCLE = w.cycle % 32768
  length : t.f MEA.PC_LEN.N = w.n % 65536

theorem showSubWindow_shows {w : SubWin} (hidx : w.idx < 256) (s : State) : SubShown w ((showSubWindow w).run s) := by
  obtain ⟨hul, hcy, hn⟩ := PC_LEN_fields
  refine (show (showSubWindow w).Ends s fun _ t => SubShown w t from ?_).run
  refine .bind ((M.In.forM (showSum_in _ _) _).does s) <| .bind (M.does_wf _ _ _) <| .bind (M.does_wf _ _ _) <|
    .ofDoes (M.does_wf _ _ _) ⟨fun k hk => ?_, ?_, ?_, f_wf_same hn _ _⟩
  · have hshown := showSums_shows hidx w.sums hk (List.range 16) (fun _ h => List.mem_range.mp h) s (.inl (List.mem_range.mpr hk))
    have hlen : ∀ x v u, x.addr = MEA.PC_LEN → SumShown w.idx w.sums k u → SumShown w.idx w.sums k ((wf x v).run u) :=
      fun x v u hx hu =>
        have hne : MEA.PC_SUM k ≠ x.addr := hx ▸ PC_SUM_ne_PC_LEN hk
        ⟨(f_wf_apart (.inl hne) v u).trans hu.sum, (f_wf_apart (.inl hne) v u).trans hu.sub⟩
    exact hlen MEA.PC_LEN.N _ _ rfl (hlen MEA.PC_LEN.CYCLE _ _ rfl (hlen MEA.PC_LEN.UNLOCKED _ _ rfl hshown))
  · refine (f_wf_apart (.inr ⟨hul, by decide⟩) _ _).trans ((f_wf_apart (.inr ⟨hul, by decide⟩) _ _).trans
      ((f_wf_same hul _ _).trans ?_))
    cases w.locked <;> rfl
  · exact (f_wf_apart (.inr ⟨hcy, by decide⟩) _ _).trans (f_wf_same hcy _ _)

/-- The sub-window in progress as it is handed over when it ends at `stop`. -/
def State.subWin (s : State) (sums : List Int) (idx stop : Nat) (last : Bool) : SubWin :=
  ⟨s.hid.mea.usedSums sums, stop - s.hid.mea.subAt, s.hid.mea.cycle, s.hid.mea.seq, s.f MEA.MAINS.LOCKED == 1, idx, last⟩

/-- The metering island takes a sub-window. -/
def MeaSt.pass (w : SubWin) (x : MeaSt) : MeaSt := { x with xfer := x.xfer ++ [w] }

/-- The sub-window after that of index `idx` begins at `stop`. -/
def MeaSt.next (idx stop : Nat) (x : MeaSt) : MeaSt :=
  { x with seq := (x.seq + 1) % 4294967296, subAt := stop, subIdx := idx + 1 }

/-- A cycle begins at `stop` with the configuration words as they stand in `s` (R183, R185). -/
def MeaSt.begin (s : State) (stop : Nat) (x : MeaSt) : MeaSt :=
  { x with
    pcEn := (List.range 16).foldl (fun m k => if s.f (MEA.PC_CFG.EN k) = 1 then setBit m k else m) 0
    mains := s.rd MEA.MAINS_CFG
    cut := none
    cycAt := stop
    subIdx := 0
    cycle := x.cycle + 1
    cycP := if s.f MEA.MAINS.LOCKED == 1 then s.f MEA.MAINS.PERIOD else nominalPeriod (s.rd MEA.MAINS_CFG) }

/-- A sub-window has ended: it is shown, and beside its parameters only the measurement state moved, to `after`. -/
structure SubEnded (w : SubWin) (after : MeaSt) (s t : State) : Prop where
  shown : SubShown w t
  keeps : Keeps subWords [] s t
  mea : t.hid.mea = after

theorem SubEnded.update {w : SubWin} {x : MeaSt} {s u : State} (h : SubEnded w x s u) (g : MeaSt → MeaSt) :
    SubEnded w (g x) s ((updMea g).run u) := by
  obtain ⟨⟨hsums, hunlocked, hcycle, hlength⟩, ⟨hrd, htabs, hvio, hchg, hpend⟩, hmea⟩ := h
  exact ⟨⟨fun k hk => ⟨(hsums k hk).sum, (hsums k hk).sub⟩, hunlocked, hcycle, hlength⟩, ⟨hrd, htabs, hvio, hchg, hpend⟩,
    congrArg g hmea⟩

/-- With the metering island PRESENT the sub-window is shown and handed over; at the last boundary a new cycle begins. -/
theorem subwindowEnd_does {s t : State} {sums : List Int} {idx stop : Nat} {last : Bool} (hp : s.present 8 = true)
    (hend : s.subEnd = some (idx, stop, last))
    (h : (showSubWindow (s.subWin sums idx stop last) >>= fun _ => updMea (·.pass (s.subWin sums idx stop last)) >>= fun _ =>
      updMea (·.next idx stop) >>= fun _ => if last then updMea (·.begin s stop) else pure ()).Does s () t) :
    (subwindowEnd sums).Does s () t := by
  refine .read ?_
  simp only [hend, hp, if_true]
  exact h

theorem subwindowEnd_ends {s : State} (sums : List Int) {idx stop : Nat} {last : Bool} (hidx : idx < 256)
    (hp : s.present 8 = true) (hend : s.subEnd = some (idx, stop, last)) :
    (subwindowEnd sums).Ends s fun _ t => SubEnded (s.subWin sums idx stop last)
      (let x := (s.hid.mea.pass (s.subWin sums idx stop last)).next idx stop; if last then x.begin s stop else x) s t := by
  have hshow := (showSubWindow_in (s.subWin sums idx stop last)).does s
  have hshown : SubEnded (s.subWin sums idx stop last) s.hid.mea s ((showSubWindow (s.subWin sums idx stop last)).run s) :=
    ⟨showSubWindow_shows hidx s, .ofOutside ((showSubWindow_outside _).run s),
      ((showSubWindow_in _).run s).hid (by decide) 50 (by decide)⟩
  have hnext := (hshown.update (·.pass (s.subWin sums idx stop last))).update (·.next idx stop)
  have hmea : ∀ (g : MeaSt → MeaSt) u, (updMea g).Does u () ((updMea g).run u) := fun g => (foot_updMea g).does
  cases last
  · exact .ofDoes (subwindowEnd_does hp hend <| hshow.bind <| (hmea _ _).bind <| (hmea _ _).bind <| M.does_pure _ _) hnext
  · exact .ofDoes (subwindowEnd_does hp hend <| hshow.bind <| (hmea _ _).bind <| (hmea _ _).bind <| hmea _ _)
      (hnext.update (·.begin s stop))

/-! ## The statement -/

/-- Settles O41: a sub-window is shown and handed over, and a crossing is judged by the period it ends; the reaction to the lost
lock, which may stop groups, reaches the results of page MEA but not its other words. -/
theorem mainsAndSubwindows : Obligations.Mains_and_subwindows := by
  unfold Obligations.Mains_and_subwindows
  refine ⟨fun s sums ⟨hlen, hall⟩ ha hp hp8 hcut hinside => ?_, fun s sums ⟨hlen, hall⟩ ha hp hp8 hcut hopen hlast => ?_,
    fun s low before after n prev t0 q ha hp hen hsum hopen hcross hq hband ⟨hprev, hnear⟩ hcount => ?_,
    fun s low before after n t0 q ha hp hen hsum hlocked hcross hq hband => ?_, fun s ha hp hlocked => ?_⟩
  · have hsubs := subCount_le s.hid.mea.mains
    refine .of_checked rfl (by rw [hlen, hall]; rfl) ?_
    rw [onIsland_run ha hp ((foot_subwindowEnd sums).does s)]
    obtain ⟨⟨hsums, hunlocked, hcycle, hlength⟩, hkeeps, hmea⟩ :=
      (subwindowEnd_ends sums (by omega) hp8 (subEnd_inside hcut hinside)).run
    refine ⟨fun k hk => (hsums k hk).sum.trans (codeOf_usedSums _ _ hk), fun k hk => (hsums k hk).sub, hlength.trans ?_,
      hunlocked.trans (b2n_not_one (f_lt _ s)), hcycle, ?_, ?_, ?_, hkeeps⟩
    · simp only [State.subWin]
      omega
    all_goals rw [hmea]
    · exact List.length_append
    · rfl
    · rfl
  · have hsubs := subCount_le s.hid.mea.mains
    have hpos := subCount_pos s.hid.mea.mains
    refine .of_checked rfl (by rw [hlen, hall]; rfl) ?_
    rw [onIsland_run ha hp ((foot_subwindowEnd sums).does s)]
    obtain ⟨⟨hsums, -, -, -⟩, hkeeps, hmea⟩ := (subwindowEnd_ends sums (by omega) hp8 (subEnd_last hcut hopen hlast)).run
    refine ⟨fun k hk => (hsums k hk).sub, ?_, ?_, ?_, ?_, ?_, fun k hk => ?_, hkeeps⟩
    all_goals rw [hmea]
    · exact List.length_append
    · rfl
    · rfl
    · rfl
    · exact if_neg (by rw [hopen]; decide)
    · exact bit_enabled s hk
  · refine .of_next rfl ?_
    rw [onIsland_run ha hp (mainsCrossing_measures hen hsum hcross hq)]
    obtain ⟨hlocks, hperiod, hlosses, hkeeps⟩ :=
      (mainsPeriod_locks (s := s.crossed _) (s.hid.mea.subAt + n) hopen hband hprev hnear hcount).run
    exact ⟨hlocks, hperiod, hlosses, hkeeps.of_crossed⟩
  · have hout : periodInBand q = false := by
      simp only [periodInBand, Bool.and_eq_false_iff, decide_eq_false_iff_not]
      omega
    refine .of_next rfl ?_
    rw [onIsland_run ha hp (mainsCrossing_measures hen hsum hcross hq)]
    obtain ⟨hopen, hperiod, hlosses, hcounted⟩ :=
      (mainsPeriod_unlocks (s := s.crossed _) (s.hid.mea.subAt + n) hlocked hout).run
    exact ⟨hopen, hperiod, hlosses, hcounted, (mainsPeriod_keeps q _ _).of_crossed⟩
  · refine .of_next rfl ?_
    rw [onIsland_run ha hp (foot_mainsTimeout.does s)]
    obtain ⟨hopen, hperiod, hlosses, hcounted⟩ := (mainsTimeout_unlocks hlocked).run
    exact ⟨hopen, hperiod, hlosses, hcounted, mainsTimeout_keeps s⟩

end Sys2Proof.Machine
end

section
/-! Statement O42, refuted: the token of a HOLD group whose window has a trigger that is placed before it begins. -/

namespace Sys2Proof.Machine

/-- Group 3 is RUNNING with channel 5 on timebase 2, whose trigger compare 0 samples the centre of that channel's pulse; the
centre of the posted words, 100, lies less than ADVANCE after the window begins. Rate group 7 owns the group in HOLD mode and
has evaluated its one cell, 191, for the present window. -/
def clampedCentre : State :=
  M.run (do
    wf (SYS.ISLAND.STATE 1) 2
    wtab 0x30 (8 * 5) [3, 2]
    updGrp 3 fun r => { r with st := .running }
    wf (PLS.TB_CFG.RUN 2) 1
    wf (PLS.GRP_CFG.OWNER 3) 15
    wf (LAT.RG_CFG.EN 7) 1
    wf (LAT.RG_CFG.GROUP 7) 3
    wf (LAT.RG_CFG.START_SLOT 7) 8
    wf (LAT.RG_CFG.COMMIT 7) 1
    wtab 0x20 (64 * 191) [7, 0x80, 9, 0xFF]
    wf (PLS.TRG_CFG.EN 2 0) 1
    wf (PLS.TRG_CFG.MODE 2 0) 1
    wf (PLS.TRG_CFG.REF_CH 2 0) 5
    wf (PLS.TRG_CFG.ADVANCE 2 0) 200
    hid fun h => { h with mea := { h.mea with total := 2, stamp := [(8, 2)], usable := [(9, 1, 40000)] } }
    rateGroupEvaluation 7 0
    postEdges 5 (50 * 64) (150 * 64))
    linkUp

theorem clampedCentre_awaitsStrobe : clampedCentre.awake = true ∧ clampedCentre.present 1 = true ∧
    clampedCentre.rgGroup (7 : Fin 8) = some (3 : Fin 32).val ∧ clampedCentre.f (LAT.RG_CFG.COMMIT (7 : Fin 8)) = 1 ∧
    ((clampedCentre.rg (7 : Fin 8)).saved.isSome = true ∧
      (clampedCentre.rg (7 : Fin 8)).win = (clampedCentre.tbase (clampedCentre.grpTb (3 : Fin 32))).wins) ∧
    (clampedCentre.grpTbs (3 : Fin 32)).all (fun k => !(clampedCentre.tbase k).late) = true ∧
    (3 : Fin 32).val ∉ clampedCentre.hid.pls.committed := by
  decide +kernel

/-- R109: the trigger is moved to the first pulse clock of its window, and is counted. -/
theorem commitStrobe_clampsTrigger :
    ((onIsland 1 (commitStrobe 7)).run clampedCentre).f PLS.COUNT0.TRIG_CLAMPED = 1 ∧
      clampedCentre.f PLS.COUNT0.TRIG_CLAMPED = 0 := by
  decide +kernel

/-- Refutes O42: a trigger with SRC = COMMITTED is placed when the commit enters the reload stage, and one that would fire
before its window counts in TRIG_CLAMPED (R109). The clause of COMMIT_STROBE lets no parameter change but PLS.GRP_STAT of the
group. -/
theorem not_latticeEvaluatesAndCommits : ¬ Obligations.Lattice_evaluates_and_commits := by
  unfold Obligations.Lattice_evaluates_and_commits
  rintro ⟨-, -, hstrobe, -⟩
  obtain ⟨hawake, hpres, hgroup, hhold, hdone, hearly, hfirst⟩ := clampedCentre_awaitsStrobe
  obtain ⟨t, ht, -, -, -, -, hkeeps⟩ := hstrobe clampedCentre 7 3 hawake hpres hgroup hhold hdone hearly hfirst
  obtain ⟨hone, hzero⟩ := commitStrobe_clampsTrigger
  have hsame : t.f PLS.COUNT0.TRIG_CLAMPED = clampedCentre.f PLS.COUNT0.TRIG_CLAMPED :=
    f_of_rd_eq _ (hkeeps.rd _ (by decide) (by decide))
  rw [exec_next_eq ht (m := onIsland 1 (commitStrobe 7)) rfl, hone, hzero] at hsame
  exact absurd hsame (by decide)

end Sys2Proof.Machine
end

section
/-! SUPPORT for O44: what trips, forced states, safety functions and the reaction of the ledger never reach. Of the pages of the
system and of the DC link they change the device state, counts of dropped writes and CHOP_AVAIL alone, which a footprint
(Laws/Frame.lean) does not tell; nor does it tell that of the host link they leave an accepted GO. -/

namespace Sys2Proof.Machine

/-! ## Views that the reaction leaves -/

/-- A view of the state that neither events nor the reaction to an occurrence reaches. -/
structure Unreacted {β : Type} (π : State → β) : Prop where
  places : ∀ s t, Same [3, 4, 5, 6, 12, 16, 17, 35, 44, 45, 46, 48, 49, 50] s t → π t = π s
  sent : ∀ s t, Sent s t → π t = π s
  avail : ∀ v, (wf DCL.STATUS.CHOP_AVAIL v).Fixes π
  device : ∀ v, (wf SYS.STATUS.DEV_STATE v).Fixes π
  dropped : ∀ n, (inc (SYS.XFER.DROPPED_WRITES n)).Fixes π

/-- What no action of the host link or of another page changes: an accepted GO. -/
theorem unreacted_go : Unreacted fun s => s.hid.cmd.go where
  places _ _ h := congrArg CmdSt.go (h.cmd (by decide) (by decide))
  sent _ _ h := bare_go h.bare
  avail _ := .ofIn (M.In.wf (P := [9]) 9 _ _ (by decide) (by decide)) fun _ _ h =>
    congrArg CmdSt.go (h.cmd (by decide) (by decide))
  device _ := .ofIn (M.In.wf (P := [0]) 0 _ _ (by decide) (by decide)) fun _ _ h =>
    congrArg CmdSt.go (h.cmd (by decide) (by decide))
  dropped n := .ofIn (M.In.inc (P := [0]) 0 _ (SYS.XFER_page n) (by decide)) fun _ _ h =>
    congrArg CmdSt.go (h.cmd (by decide) (by decide))

/-- A field of the DC link, or one that shows an island, apart from CHOP_AVAIL. -/
structure FldAt.Supervised (x : FldAt) : Prop where
  place : x.addr / 65536 = 9 ∨ ∃ n < 16, x.addr = SYS.ISLAND n
  apart : x.Apart DCL.STATUS.CHOP_AVAIL

theorem FldAt.Supervised.page {x : FldAt} (hx : x.Supervised) : x.addr / 65536 = 9 ∨ x.addr / 65536 = 0 :=
  hx.place.imp_right fun ⟨n, _, ha⟩ => ha ▸ SYS.ISLAND_page n

theorem ISLAND_ne_XFER {n : Nat} (hn : n < 16) (k : Nat) : SYS.ISLAND n ≠ SYS.XFER k := by
  simp only [SYS.ISLAND, SYS.XFER, arr, Nat.zero_le, hn, and_self, if_true]
  split <;> omega

theorem ISLAND_ne_STATUS {n : Nat} (hn : n < 16) : SYS.ISLAND n ≠ SYS.STATUS := by
  simp only [SYS.ISLAND, SYS.STATUS, arr, Nat.zero_le, hn, and_self, if_true]
  omega

theorem Supervised_ne_of_page {x : FldAt} (hx : x.Supervised) {a : Nat} (ha : a / 65536 = 0)
    (hi : ∀ n < 16, SYS.ISLAND n ≠ a) : x.addr ≠ a := by
  rintro rfl
  rcases hx.place with hp | ⟨n, hn, he⟩
  · omega
  · exact hi n hn he.symm

theorem unreacted_f {x : FldAt} (hx : x.Supervised) : Unreacted fun s => s.f x where
  places _ _ h := h.f (by decide) <| by rcases hx.page with hp | hp <;> rw [hp] <;> decide
  sent _ _ h := f_of_rd_eq x <| bare_rd h.bare <| by rcases hx.page with hp | hp <;> rw [hp] <;> decide
  avail v := .wfApart hx.apart v
  device v := .wfApart (.inl (Supervised_ne_of_page hx (by decide) fun _ => ISLAND_ne_STATUS)) v
  dropped k := .incApart (.inl (Supervised_ne_of_page hx (SYS.XFER_page k) fun _ hn => ISLAND_ne_XFER hn k))

namespace Unreacted

section
variable {α β : Type} {π : State → β}

theorem within {P : List Nat} {m : M α} (h : Unreacted π) (hm : m.In P)
    (hp : ∀ x ∈ P, x ∈ [3, 4, 5, 6, 12, 16, 17, 35, 44, 45, 46, 48, 49, 50]) : m.Fixes π :=
  .ofIn (hm.mono hp) h.places

theorem sending {m : M Unit} (h : Unreacted π) (hm : m.In [1, 20, 33, 43, 47]) (hb : m.Fixes State.bare) : m.Fixes π :=
  .ofEnds fun s => .ofDoes (hm.does s) <| h.sent s _ (sent_run hm hb s)

theorem event (h : Unreacted π) (op page inst scope : Nat) (body : List Byte) :
    (Machine.event op page inst scope body).Fixes π := h.sending (foot_event op page inst scope body) (event_link ..).bare

end

section
variable {β : Type} {π : State → β}

/-! ## Groups -/

theorem setAvail (h : Unreacted π) : Machine.setAvail.Fixes π := .read fun _ => h.avail _

theorem setGState (h : Unreacted π) (g : Nat) (st : GState) (cause : Nat) : (Machine.setGState g st cause).Fixes π :=
  .read fun _ => .when <| .bind (h.within (foot_updGrp g _) (by decide)) fun _ => .bind h.setAvail fun _ => h.event ..

theorem deliver (h : Unreacted π) (x : Sample) (stale : Bool) : (Machine.deliver x stale).Fixes π := by
  have hwr : ∀ a w, a / 65536 = 6 → (wr a w).Fixes π := fun a w ha =>
    h.within (M.In.wr (P := [6]) 6 a w ha (by decide)) (by decide)
  have hmea : ∀ f : Hidden → MeaSt, (hid fun y => { y with mea := f y }).Fixes π := fun f =>
    h.within (M.In.hid_mea (P := [50]) f (by decide)) (by decide)
  exact .read fun _ => .bind (hwr _ _ (MEA.WIN_OUT_page _)) fun _ => .bind (hwr _ _ (MEA.RESULT_page _)) fun _ =>
    .bind (.forM h.dropped _) fun _ => .bind (hmea _) fun _ => .thenMore (hmea _) fun _ => .when (hmea _)

theorem resolveTrg (h : Unreacted π) (k : Nat) (stale nextToo : Bool) : (Machine.resolveTrg k stale nextToo).Fixes π := by
  have hcount : ∀ n, (incBy PLS.STATUS.STALE_TRIG n).In [3] := fun n => M.In.incBy 3 _ n (by decide) (by decide)
  have hheld : (resolveHeld k stale).Fixes π := .read fun _ =>
    .bind (h.within (M.In.hid_mea (P := [50]) _ (by decide)) (by decide)) fun _ => .forM (fun _ => h.deliver _ _) _
  exact .read fun _ => .when <| .thenMore (h.within (hcount _) (by decide)) fun _ =>
    .bind (h.within (M.In.hid_pls (P := [44]) _ (by decide)) (by decide)) fun _ => hheld

theorem dropGroup (h : Unreacted π) (g : Nat) : (Machine.dropGroup g).Fixes π :=
  .bind (h.within (foot_discardShadows g) (by decide)) fun _ =>
    .bind (.read fun _ => .bind (.forM (fun _ => h.resolveTrg _ _ _) _) fun _ =>
      h.within (foot_setProvisional g) (by decide)) fun _ => h.within (foot_updGrp g _) (by decide)

theorem tripGroup (h : Unreacted π) (g kind first : Nat) : (Machine.tripGroup g kind first).Fixes π := by
  have hwf : ∀ x v, x.addr = TRP.GRP_TRIP g → (wf x v).Fixes π := fun x v hx =>
    h.within (M.In.wf (P := [4]) 4 x v (hx ▸ TRP.GRP_TRIP_page g) (by decide)) (by decide)
  have hcount : (inc (TRP.GRP_TRIP.COUNT g)).Fixes π :=
    h.within (M.In.inc (P := [4]) 4 _ (TRP.GRP_TRIP_page g) (by decide)) (by decide)
  have hpattern : ∀ asc, (applyPattern g asc).Fixes π := fun _ => h.within (foot_applyPattern _ _) (by decide)
  exact .read fun _ => .ite
    (.bind (hwf _ _ rfl) fun _ => .bind (hwf _ _ rfl) fun _ => .bind (hwf _ _ rfl) fun _ => .bind (hwf _ _ rfl) fun _ =>
      .bind (hwf _ _ rfl) fun _ => .bind hcount fun _ => .bind (hpattern _) fun _ => .bind (h.dropGroup g) fun _ =>
      .bind (h.within (foot_endSs1 g) (by decide)) fun _ => .bind (h.setGState _ _ _) fun _ => .bind (h.event ..) fun _ =>
      .pure _) <|
    .ite (.bind (hwf _ _ rfl) fun _ => .bind (hwf _ _ rfl) fun _ => .bind hcount fun _ => .bind (hpattern _) fun _ =>
      .bind (h.event ..) fun _ => .pure _) (.pure _)

theorem setChg (h : Unreacted π) (new cause : Nat) : (Machine.setChg new cause).Fixes π :=
  .read fun _ => .when <|
    .bind (h.within (M.In.wf (P := [12]) 12 _ _ (by decide) (by decide)) (by decide)) fun _ => h.event ..

theorem emergencyStop (h : Unreacted π) (cause : Nat) (toFault : Bool) : (Machine.emergencyStop cause toFault).Fixes π := by
  have hcount : (inc CHG.COUNT.EMERGENCY).In [12] := M.In.inc 12 _ (by decide) (by decide)
  exact .read fun _ => .when <| .bind (h.within hcount (by decide)) fun _ => .bind (h.tripGroup _ _ _) fun _ =>
    .bind (h.tripGroup _ _ _) fun _ => .bind (h.within (M.In.hid_chg (P := [48]) _ (by decide)) (by decide)) fun _ =>
    .bind (h.within foot_releaseRelays (by decide)) fun _ => h.setChg _ _

theorem tripAct (h : Unreacted π) (g kind first : Nat) : (Machine.tripAct g kind first).Fixes π :=
  .bind (h.tripGroup _ _ _) fun _ => .read fun _ => .thenMore (h.emergencyStop _ _) fun _ => .pure _

theorem forceGroup (h : Unreacted π) (g code cause : Nat) : (Machine.forceGroup g code cause).Fixes π := by
  have hgrp : ∀ f, (updGrp g f).Fixes π := fun f => h.within (foot_updGrp g f) (by decide)
  have hshow : (showForce g).Fixes π := h.within (foot_showForce g) (by decide)
  exact .read fun _ => .ite
    (.bind (h.dropGroup g) fun _ => .bind (hgrp _) fun _ => .bind (hgrp _) fun _ => .bind (h.setGState _ _ _) fun _ => hshow) <|
    .when <| .bind (hgrp _) fun _ => hshow

theorem forceAct (h : Unreacted π) (g code cause : Nat) : (Machine.forceAct g code cause).Fixes π :=
  .read fun _ => .bind (h.forceGroup _ _ _) fun _ => .when (h.emergencyStop _ _)

theorem deviceSafe (h : Unreacted π) : Machine.deviceSafe.Fixes π :=
  .read fun _ => .when <| .read fun _ => .when <| .bind (h.device _) fun _ => .read fun _ => h.event ..

/-! ## Safety functions -/

theorem funcEffect (h : Unreacted π) (f g cause : Nat) : (Machine.funcEffect f g cause).Fixes π := by
  refine .read fun s => ?_
  split
  · exact h.forceAct _ _ _
  · exact .when <| .ite (.when (h.within (foot_updGrp g _) (by decide))) (h.forceAct _ _ _)
  · exact h.forceAct _ _ _
  · exact h.forceAct _ _ _
  · exact .pure _

theorem saf (h : Unreacted π) {x : FldAt} (v : Nat) (hx : x.addr / 65536 = 16) : (wf x v).Fixes π :=
  h.within (M.In.wf (P := [16]) 16 x v hx (by decide)) (by decide)

theorem updFunc (h : Unreacted π) (f : Nat) (g : FuncSt → FuncSt) : (Machine.updFunc f g).Fixes π :=
  h.within (foot_updFunc f g) (by decide)

theorem trigger (h : Unreacted π) (f src key : Nat) (gs : List Nat) (cause : Nat) :
    (Machine.trigger f src key gs cause).Fixes π := by
  have hstat := SAF.FUNC_STAT_page f
  have hcount : (inc (SAF.FUNC_STAT.COUNT f)).In [16] := M.In.inc 16 _ hstat (by decide)
  exact .read fun _ => .when <| .bind (h.updFunc _ _) fun _ => .bind (h.saf _ hstat) fun _ => .bind (h.saf _ hstat) fun _ =>
    .thenMore (.bind (h.saf _ hstat) fun _ => .bind (h.saf _ (by decide)) fun _ =>
      .bind (h.within hcount (by decide)) fun _ => .bind (.read fun _ => h.event ..) fun _ =>
      h.within (foot_funcStart f) (by decide)) fun _ =>
    .forM (fun _ => h.funcEffect _ _ _) _

theorem releaseFunc (h : Unreacted π) (f : Nat) : (Machine.releaseFunc f).Fixes π := by
  have hstat := SAF.FUNC_STAT_page f
  exact .read fun _ => .bind (h.saf _ hstat) fun _ => .bind (h.saf _ hstat) fun _ => .bind (h.saf _ (by decide)) fun _ =>
    .bind (h.saf _ hstat) fun _ => .bind (.read fun _ => h.event ..) fun _ => .bind (h.updFunc _ _) fun _ =>
    .thenMore (.forM (fun _ => h.within (foot_endSs1 _) (by decide)) _) fun _ =>
    .forM (fun _ => .read fun _ => .when (h.within (foot_releaseForce _ _) (by decide))) _

theorem withdraw (h : Unreacted π) (f src key : Nat) : (Machine.withdraw f src key).Fixes π :=
  .read fun _ => .when <| .bind (h.updFunc _ _) fun _ => .read fun _ => .when <|
    .ite (h.releaseFunc f) (h.saf _ (SAF.FUNC_STAT_page f))

theorem startSs1 (h : Unreacted π) (g cause : Nat) : (Machine.startSs1 g cause).Fixes π :=
  .read fun _ => .when <| .bind (h.trigger _ _ _ _ _) fun _ => .read fun _ => .when (h.withdraw _ _ _)

/-! ## The ledger -/

theorem react (h : Unreacted π) (cls src inst : Nat) : (Machine.react cls src inst).Fixes π :=
  .read fun _ => .ite (.forM (fun _ => h.startSs1 _ _) _) <| .ite (.forM (fun _ => h.forceAct _ _ _) _) <|
    .when <| .bind (.forM (fun _ => h.forceAct _ _ _) _) fun _ => h.deviceSafe

theorem occurrence (h : Unreacted π) (src inst detail : Nat) : (Machine.occurrence src inst detail).Fixes π := by
  have hin : ∀ {m : M Unit}, m.In [17] → m.Fixes π := fun hm => h.within hm (by decide)
  have hinc : ∀ x : FldAt, x.addr = FLG.OCCUR src → (inc x).Fixes π := fun x hx =>
    hin <| M.In.inc 17 x (hx ▸ FLG.OCCUR_page src) (by decide)
  have hflg : ∀ f : Hidden → FlgSt, (hid fun y => { y with flg := f y }).Fixes π := fun f =>
    h.within (M.In.hid_flg (P := [46]) f (by decide)) (by decide)
  have hlasting : setLastingSrc.Fixes π :=
    .read fun _ => .bind (hin <| M.In.wf 17 _ _ (by decide) (by decide)) fun _ =>
      h.sending (foot_setAttn.mono (by decide)) setAttn_link.bare
  exact .read fun _ => .bind (hinc _ rfl) fun _ =>
    .bind (hin <| M.In.wf 17 _ _ (FLG.OCCUR_page src) (by decide)) fun _ => .bind (hflg _) fun _ =>
    .ite (.bind (hin <| M.In.wr 17 _ _ (FLG.LASTING_page src) (by decide)) fun _ => .bind (hinc _ rfl) fun _ =>
      .bind hlasting fun _ => .bind (h.within (foot_queueEntry _ _) (by decide)) fun _ => .bind (h.event ..) fun _ =>
      .bind (h.react _ _ _) fun _ => .pure _)
    (.bind (hflg _) fun _ => .pure _)

theorem occur (h : Unreacted π) (src inst detail : Nat) : (Machine.occur src inst detail).Fixes π :=
  .bind (h.occurrence _ _ _) fun _ => .pure _

end

end Unreacted

end Sys2Proof.Machine
end

section
/-! SUPPORT for O44: what the parts of the DC-link supervisor leave, and the frames of its commands. -/

namespace Sys2Proof.Machine

/-! ## The chopper's edges (R243, R246) -/

namespace Unreacted

variable {β : Type} {π : State → β}

theorem bootUv (h : Unreacted π) (p c time : Nat) : (Machine.bootUv p c time).Fixes π := by
  have hchan : ∀ c f, (updChan c f).Fixes π := fun c f => h.within (foot_updChan c f) (by decide)
  have hinc : (inc (GDR.BST_STAT.UV_COUNT p)).In [5] := M.In.inc 5 _ (GDR.BST_STAT_page p) (by decide)
  have hwf : (wf (GDR.BST_STAT.UV_LATCH p) 1).In [5] := M.In.wf 5 _ 1 (GDR.BST_STAT_page p) (by decide)
  have hrest := M.Fixes.bind (h.within hinc (by decide)) fun _ => .bind (h.within hwf (by decide)) fun _ => h.occur 50 p 0
  refine .read fun s => .bind (h.within (foot_cellOff _ _) (by decide)) fun _ => .bind (hchan _ _) fun _ => ?_
  dsimp only
  split
  · exact .bind (hchan _ _) fun _ => hrest
  · exact hrest

theorem takeOn (h : Unreacted π) (e : Edge) : (Machine.takeOn e).Fixes π := by
  refine .read fun s => .ite (.pure _) ?_
  split
  · exact h.bootUv _ _ _
  · exact .ite (h.within (foot_endPulse _ _ _) (by decide)) <| .bind (h.within (foot_cellOn _ _) (by decide)) fun _ =>
      .when (h.within (foot_openBlank _ _) (by decide))

theorem chopSwitch (h : Unreacted π) (on : Bool) : (Machine.chopSwitch on).Fixes π :=
  .read fun _ => .when <| .forM (fun _ => .ite (h.takeOn _) (h.within (foot_cellOff _ _) (by decide))) _

theorem levelEvent (h : Unreacted π) (level : Nat) : (Machine.levelEvent level).Fixes π := .read fun _ => h.event ..

theorem linkOpen (h : Unreacted π) (hopen : (wf DCL.STATUS.LINK_OPEN 1).Fixes π) : Machine.linkOpen.Fixes π :=
  .bind hopen fun _ => .bind (h.occur _ _ _) fun _ => h.emergencyStop _ _

end Unreacted

theorem updDcl_f (f : DclSt → DclSt) (x : FldAt) : (updDcl f).Fixes fun s => s.f x := .act fun _ => rfl

theorem bootUv_beyond (p c time : Nat) : (bootUv p c time).Fixes State.beyond := by
  have hrest := M.Fixes.bind (inc_beyond (GDR.BST_STAT.UV_COUNT p)) fun _ =>
    .bind (wf_beyond (GDR.BST_STAT.UV_LATCH p) 1) fun _ => occur_beyond 50 p 0
  refine .read fun s => .bind (cellOff_beyond _ _) fun _ => .bind (hid_beyond _) fun _ => ?_
  dsimp only
  split
  · exact .bind (hid_beyond _) fun _ => hrest
  · exact hrest

theorem advancePartner_beyond (ch time : Nat) : (advancePartner ch time).Fixes State.beyond := by
  refine .bind (hid_beyond _) fun _ => .read fun s => .forM (fun i => ?_) _
  split
  · exact .when (hid_beyond _)
  · exact .pure _

theorem takeOn_beyond (e : Edge) : (takeOn e).Fixes State.beyond := by
  have hend : ∀ cells, (endPulse e.ch e.time cells).Fixes State.beyond := fun _ =>
    .read fun _ => .bind (cellOff_beyond _ _) fun _ => .bind (.forM (fun _ => .read fun _ => wf_beyond _ _) _) fun _ =>
      .when (advancePartner_beyond _ _)
  have hblank : (openBlank (e.ch, e.time) true).Fixes State.beyond :=
    .read fun _ => .forM (fun _ => .bind (wf_beyond _ _) fun _ => hid_beyond _) _
  refine .read fun s => .ite (.pure _) ?_
  split
  · exact bootUv_beyond _ _ _
  · exact .ite (hend _) <| .bind (cellOn_beyond _ _) fun _ => .when hblank

theorem chopSwitch_beyond (on : Bool) : (chopSwitch on).Fixes State.beyond :=
  .read fun _ => .when <| .forM (fun _ => .ite (takeOn_beyond _) (cellOff_beyond _ _)) _

/-! ## The regeneration clamp (R222, R247) -/

/-- What a change of the clamp does for one field engine. -/
def clampEngine (s : State) (m : Nat) : M Unit := do
  if s.f (FLD.MCH_CFG.EN m) = 1 then
    if s.present (2 + m) then showClamp m else inc (SYS.XFER.DROPPED_WRITES (2 + m))

/-- The two engines. -/
def clampEngines (s : State) : M Unit := (List.range 2).forM (clampEngine s)

theorem clampEngine_in (s : State) (m : Nat) : (clampEngine s m).In [0, 8] :=
  .ite (.ite ((foot_showClamp m).mono (by decide)) (M.In.inc 0 _ (SYS.XFER_page _) (by decide))) (.pure _)

theorem clampEngines_in (s : State) : (clampEngines s).In [0, 8] := .forM (clampEngine_in s) _

/-- A view that no change of the clamp reaches. -/
theorem setClamp_fixes {β : Type} {π : State → β} (hcount : (inc DCL.COUNT.CLAMPS).Fixes π)
    (hclamp : ∀ v, (wf DCL.STATUS.REGEN_CLAMP v).Fixes π) (hengine : ∀ s, ∀ m < 2, (clampEngine s m).Fixes π) (on : Bool) :
    (setClamp on).Fixes π :=
  .read fun s => .when <| .thenMore hcount fun _ => .bind (hclamp _) fun _ =>
    (show (clampEngines s).Fixes π from .forMem _ fun m hm => hengine s m (List.mem_range.mp hm))

theorem setClamp_beyond (on : Bool) : (setClamp on).Fixes State.beyond :=
  setClamp_fixes (inc_beyond _) (fun _ => wf_beyond _ _)
    (fun _ _ _ => .when <| .ite (.read fun _ => wf_beyond _ _) (inc_beyond _)) on

/-- A parameter of page FLD that shows no engine's clamp. -/
structure FldWord (a : Nat) : Prop where
  page : a / 65536 = 8
  status : ∀ m < 2, a ≠ FLD.MCH_STAT m

theorem FldWord.within {a : Nat} (ha : FldWord a) {α : Type} {P : List Nat} {m : M α} (h : m.In P) (hn : 99 ∉ P ∧ 8 ∉ P) :
    m.Fixes (State.rd · a) := .rdIn h hn.1 (ha.page ▸ hn.2)

theorem FldWord.setClamp {a : Nat} (ha : FldWord a) (on : Bool) : (setClamp on).Fixes (State.rd · a) :=
  setClamp_fixes (ha.within (M.In.inc (P := [9]) 9 _ (by decide) (by decide)) (by decide))
    (fun _ => ha.within (M.In.wf (P := [9]) 9 _ _ (by decide) (by decide)) (by decide))
    (fun _ m hm => .when <| .ite (.read fun _ => .read fun _ => .rdWr _ (ha.status m hm))
      (ha.within (M.In.inc (P := [0]) 0 _ (SYS.XFER_page _) (by decide)) (by decide))) on

/-! ## The parts of an evaluation -/

/-- The supervisor shows the link voltage, `v` in units of 2^-16 V (R242). -/
def showVoltage (v : Nat) : M Unit := do
  wf DCL.STATUS.VDC (min 2047 (v / 65536))
  wf DCL.STATUS.SENSE_OK 1

/-- The threshold at which the chopper is demanded (R243). -/
def State.demandAt (s : State) : Nat := if s.f DCL.CTRL.BATT_BLOCK = 1 then s.f DCL.CHOP.V_HOLD else s.f DCL.LEVELS.L1

/-- The demand begins. -/
def demandOn (s : State) (v : Nat) : M Unit := do
  if s.f DCL.STATUS.CHOP_DEMAND = 0 ∧ vAtLeast v s.demandAt then
    wf DCL.STATUS.CHOP_DEMAND 1
    inc DCL.COUNT.L1_EVENTS
    if s.f DCL.STATUS.CHOP_AVAIL = 1 then chopSwitch true

/-- The demand ends. -/
def demandOff (s : State) (v : Nat) : M Unit := do
  if s.f DCL.STATUS.CHOP_DEMAND = 1 ∧ !vAtLeast v (s.demandAt - s.f DCL.LEVELS.HYST) then
    wf DCL.STATUS.CHOP_DEMAND 0
    if s.f DCL.STATUS.CHOP_AVAIL = 1 then chopSwitch false

/-- The clamp follows a link that the chopper does not hold (R247). -/
def clampOn (s : State) (v : Nat) : M Unit := do
  if vAtLeast v (s.f DCL.LEVELS.L1) ∧ s.f DCL.STATUS.CHOP_AVAIL = 0 then setClamp true

/-- It ends below L1 less the hysteresis. -/
def clampOff (s : State) (v : Nat) : M Unit := do
  if !vAtLeast v (s.f DCL.LEVELS.L1 - s.f DCL.LEVELS.HYST) then setClamp false

/-- The level of a voltage (R248). -/
def State.levelOf (s : State) (v : Nat) : Nat :=
  if vAtLeast v (s.f DCL.LEVELS.L2) then 2 else if vAtLeast v (s.f DCL.LEVELS.L1) then 1 else 0

/-- The reaction at L2 (R248, R250). -/
def reactTwo (s : State) (v : Nat) : M Unit := do if s.levelOf v = 2 then levelTwo (s.hid.dcl.level ≠ 2)

/-- The undervoltage at which a machine group runs (R253). -/
def showUv (s : State) (v : Nat) : M Unit := do
  let low := !vAtLeast v (s.f DCL.UV.UV_LIM) && s.machineGroups.any fun g => s.gst g == .running
  if low ∧ s.f DCL.STATUS.UV = 0 then occur 94 0 (v / 65536)
  wf DCL.STATUS.UV (b2n low)

/-- The evaluation of a new result. -/
def evaluate (s : State) (v : Nat) : M Unit := do
  updDcl fun d => { d with seen := s.slotStamp (s.f DCL.VSRC.SLOT), lost := false, level := s.levelOf v, v := v }
  showVoltage v
  demandOn s v
  demandOff s v
  clampOn s v
  clampOff s v
  reactTwo s v
  showLevel
  showUv s v

theorem when_bind {β : Type} {c : Prop} [Decidable c] (m : M Unit) (k : Unit → M β) :
    ((if c then m else pure ()) >>= k) = if c then m >>= k else k () := by split <;> rfl

theorem dclEvaluation_eq : dclEvaluation = getS >>= fun s =>
    match s.codeSince (s.f DCL.VSRC.SLOT) s.hid.dcl.seen with
    | none => pure ()
    | some code => if s.f DCL.CTRL.EN = 1 then evaluate s (code * s.f DCL.VSRC.V_GAIN) else pure () := by
  simp only [evaluate, showVoltage, demandOn, demandOff, clampOn, clampOff, reactTwo, showUv, when_bind, bind_assoc]
  rfl

section
variable {β : Type} {π : State → β}

theorem demandOn_fixes (hdemand : (wf DCL.STATUS.CHOP_DEMAND 1).Fixes π) (hcount : (inc DCL.COUNT.L1_EVENTS).Fixes π)
    (hswitch : (chopSwitch true).Fixes π) (s : State) (v : Nat) : (demandOn s v).Fixes π :=
  .when <| .bind hdemand fun _ => .bind hcount fun _ => .when hswitch

theorem demandOff_fixes (hdemand : (wf DCL.STATUS.CHOP_DEMAND 0).Fixes π) (hswitch : (chopSwitch false).Fixes π)
    (s : State) (v : Nat) : (demandOff s v).Fixes π := .when <| .bind hdemand fun _ => .when hswitch

theorem reactTwo_fixes (hdcl : ∀ f, (updDcl f).Fixes π) (hcount : (inc DCL.COUNT.L2_EVENTS).Fixes π)
    (htrip : ∀ g k first, (tripAct g k first).Fixes π) (hoccur : ∀ src inst detail, (occur src inst detail).Fixes π)
    (hevent : ∀ level, (levelEvent level).Fixes π) (s : State) (v : Nat) : (reactTwo s v).Fixes π := by
  have hgroup : ∀ brk g k, (do
      if g ≠ brk then
        let b ← tripAct g k 0xFF
        if b then updDcl fun d => { d with l2 := g :: d.l2.erase g } : M Unit).Fixes π := fun _ _ _ =>
    .when <| .bind (htrip _ _ _) fun _ => .when (hdcl _)
  exact .when <| .read fun _ => .bind (.forM (fun g => hgroup _ g 1) _) fun _ => .bind (.forM (fun g => hgroup _ g 0) _) fun _ =>
    .when <| .bind hcount fun _ => .bind (hoccur _ _ _) fun _ => hevent _

theorem showLevel_fixes (hdcl : ∀ f, (updDcl f).Fixes π) (hlevel : ∀ v, (wf DCL.STATUS.LEVEL v).Fixes π) :
    showLevel.Fixes π := .read fun _ => .bind (hlevel _) fun _ => hdcl _

theorem showUv_fixes (hoccur : ∀ src inst detail, (occur src inst detail).Fixes π)
    (huv : ∀ v, (wf DCL.STATUS.UV v).Fixes π) (s : State) (v : Nat) : (showUv s v).Fixes π :=
  .thenMore (hoccur _ _ _) fun _ => huv _

/-- A view that none of the parts of an evaluation reaches. -/
theorem dclEvaluation_fixes (hdcl : ∀ f, (updDcl f).Fixes π) (hstatus : ∀ x v, x.addr = DCL.STATUS → (wf x v).Fixes π)
    (hcount : ∀ x, x.addr = DCL.COUNT → (inc x).Fixes π) (hswitch : ∀ on, (chopSwitch on).Fixes π)
    (hclamp : ∀ on, (setClamp on).Fixes π) (htrip : ∀ g k first, (tripAct g k first).Fixes π)
    (hoccur : ∀ src inst detail, (occur src inst detail).Fixes π) (hevent : ∀ level, (levelEvent level).Fixes π) :
    dclEvaluation.Fixes π := by
  rw [dclEvaluation_eq]
  refine .read fun s => ?_
  split
  · exact .pure _
  · exact .when <| .bind (hdcl _) fun _ =>
      .bind (.bind (hstatus _ _ rfl) fun _ => hstatus _ _ rfl) fun _ =>
      .bind (demandOn_fixes (hstatus _ _ rfl) (hcount _ rfl) (hswitch _) _ _) fun _ =>
      .bind (demandOff_fixes (hstatus _ _ rfl) (hswitch _) _ _) fun _ => .bind (.when (hclamp _)) fun _ =>
      .bind (.when (hclamp _)) fun _ => .bind (reactTwo_fixes hdcl (hcount _ rfl) htrip hoccur hevent _ _) fun _ =>
      .bind (showLevel_fixes hdcl fun _ => hstatus _ _ rfl) fun _ => showUv_fixes hoccur (fun _ => hstatus _ _ rfl) _ _

/-! ## Frames -/

theorem senseLost_fixes (hdcl : ∀ f, (updDcl f).Fixes π) (hstatus : (wf DCL.STATUS.SENSE_OK 0).Fixes π)
    (hoccur : (occur 91 0 0).Fixes π) (hclamp : (setClamp true).Fixes π) : senseLost.Fixes π :=
  .read fun _ => .when <| .bind (hdcl _) fun _ => .bind hstatus fun _ => .bind hoccur fun _ => hclamp

end

theorem levelEvent_beyond (level : Nat) : (levelEvent level).Fixes State.beyond := .read fun _ => event_beyond ..

theorem dclEvaluation_beyond : dclEvaluation.Fixes State.beyond :=
  dclEvaluation_fixes (fun _ => hid_beyond _) (fun _ _ _ => wf_beyond _ _) (fun _ _ => inc_beyond _) chopSwitch_beyond
    setClamp_beyond tripAct_beyond occur_beyond levelEvent_beyond

theorem senseLost_beyond : senseLost.Fixes State.beyond :=
  senseLost_fixes (fun _ => hid_beyond _) (wf_beyond _ _) (occur_beyond _ _ _) (setClamp_beyond _)

/-- What a check of the chopper that has become lasting declares (R246). -/
def declareFaulty (s : State) (kind : Nat) : M Unit := do
  wf DCL.STATUS.CHOP_FAULTY 1
  setAvail
  chopSwitch false
  eventDev 0x8029 (by1 [kind, 0] ++ leBytes 2 (s.f DCL.STATUS.VDC))

/-- What a check that fails does. -/
def failCheck (s : State) (kind : Nat) : M Unit := do
  wf DCL.STATUS.CHOP_KIND kind
  inc DCL.COUNT.CHK_FAILS
  let b ← occurrence 90 (s.f DCL.CTRL.BRK_GROUP) kind
  if b then declareFaulty s kind

theorem failCheck_beyond (s : State) (kind : Nat) : (failCheck s kind).Fixes State.beyond := by
  have hdeclare : (declareFaulty s kind).Fixes State.beyond :=
    .bind (wf_beyond _ _) fun _ => .bind setAvail_beyond fun _ => .bind (chopSwitch_beyond _) fun _ => event_beyond ..
  exact .bind (wf_beyond _ _) fun _ => .bind (inc_beyond _) fun _ => .bind (occurrence_beyond _ _ _) fun _ => .when hdeclare

theorem chopperCheck_beyond (x : ChopCheck) : (chopperCheck x).Fixes State.beyond := by
  have hfails : ∀ s (p : Bool × Nat), (if p.1 then failCheck s p.2 else pure ()).Fixes State.beyond := fun s p =>
    .when (failCheck_beyond s p.2)
  refine .read fun s => .when ?_
  exact hfails s _

theorem linkOpen_beyond : linkOpen.Fixes State.beyond :=
  .bind (wf_beyond _ _) fun _ => .bind (occur_beyond _ _ _) fun _ => emergencyStop_beyond _ _

theorem contOpen_beyond : contOpen.Fixes State.beyond :=
  .read fun _ => .when <| .when <| .bind (.forM (fun _ => .bind (tripGroup_beyond _ _ _) fun _ => .pure _) _) fun _ =>
    linkOpen_beyond

theorem FldWord.dclEvaluation {a : Nat} (ha : FldWord a) : dclEvaluation.Fixes (State.rd · a) :=
  dclEvaluation_fixes (fun f => ha.within (foot_updDcl f) (by decide))
    (fun x v hx => ha.within (M.In.wf (P := [9]) 9 x v (hx ▸ by decide) (by decide)) (by decide))
    (fun x hx => ha.within (M.In.inc (P := [9]) 9 x (hx ▸ by decide) (by decide)) (by decide))
    (fun on => ha.within (foot_chopSwitch on) (by decide)) ha.setClamp
    (fun _ _ _ => ha.within (foot_tripAct _ _ _) (by decide)) (fun _ _ _ => ha.within (foot_occur _ _ _) (by decide))
    (fun _ => ha.within (foot_levelEvent _) (by decide))

theorem FldWord.senseLost {a : Nat} (ha : FldWord a) : senseLost.Fixes (State.rd · a) :=
  senseLost_fixes (fun f => ha.within (foot_updDcl f) (by decide))
    (ha.within (M.In.wf (P := [9]) 9 _ _ (by decide) (by decide)) (by decide))
    (ha.within (foot_occur _ _ _) (by decide)) (ha.setClamp _)

/-- A footprint that reaches page FLD too, of which the computation changes no parameter but those that show a clamp. -/
theorem Same.keepsFld {P pages : List Nat} {s t : State} (h : Same P s t) (hb : t.beyond = s.beyond)
    (hf : ∀ a, FldWord a → t.rd a = s.rd a) (hp : ∀ p ∈ P, p < 23 → p = 8 ∨ p ∈ pages)
    (hn : 99 ∉ P ∧ 32 ∉ P ∧ 34 ∉ P ∧ 36 ∉ P) : Keeps [FLD.MCH_STAT 0, FLD.MCH_STAT 1] pages s t := by
  have hpages : ∀ p ∈ P, p < 23 → p ∈ 8 :: pages := fun p hin hlt => List.mem_cons.mpr (hp p hin hlt)
  have hk := h.keeps hb hpages hn
  refine ⟨fun a has ha => ?_, hk.tabs, hk.vio, hk.chg, hk.pending⟩
  simp only [List.mem_cons, List.not_mem_nil, or_false, not_or] at has
  by_cases h8 : a / 65536 = 8
  · refine hf a ⟨h8, fun m hm => ?_⟩
    match m, hm with
    | 0, _ => exact has.1
    | 1, _ => exact has.2
  · exact hk.rd a List.not_mem_nil (by simp [h8, ha])

end Sys2Proof.Machine
end

section
/-! SUPPORT for O44: what the supervisor, the chopper's checks and the contactor show (R242 to R252). -/

namespace Sys2Proof.Machine

/-! ## The fields of page DCL -/

/-- The fields by which the supervisor and its statement speak. -/
def dclFields : List FldAt :=
  [DCL.STATUS.LEVEL, DCL.STATUS.CHOP_FAULTY, DCL.STATUS.CHOP_KIND, DCL.STATUS.CHOP_DEMAND, DCL.STATUS.CHOP_AVAIL,
    DCL.STATUS.REGEN_CLAMP, DCL.STATUS.SENSE_OK, DCL.STATUS.LINK_OPEN, DCL.STATUS.UV, DCL.STATUS.VDC, DCL.COUNT.L1_EVENTS,
    DCL.COUNT.L2_EVENTS, DCL.COUNT.CHK_FAILS, DCL.COUNT.CLAMPS, DCL.CTRL.EN, DCL.CTRL.CONT_OPEN, DCL.CTRL.CHG_CELL]

theorem dclFields_real : ∀ x ∈ dclFields, x.Real := by decide +kernel

theorem dclFields_page : ∀ x ∈ dclFields, x.addr / 65536 = 9 := by decide

theorem dclFields_beside : ∀ x ∈ dclFields, ∀ y ∈ dclFields, x ≠ y → x.addr ≠ y.addr ∨ x.hi < y.lo ∨ y.hi < x.lo := by
  decide +kernel

theorem dclFields_apart {x y : FldAt} (hx : x ∈ dclFields) (hy : y ∈ dclFields) (h : x ≠ y) : x.Apart y :=
  (dclFields_beside x hx y hy h).imp_right fun hd => ⟨dclFields_real x hx, hd⟩

theorem dclFields_supervised {x : FldAt} (hx : x ∈ dclFields) (h : x ≠ DCL.STATUS.CHOP_AVAIL) : x.Supervised :=
  ⟨.inl (dclFields_page x hx), dclFields_apart hx (by decide) h⟩

theorem dclFields_wf {x y : FldAt} (hx : x ∈ dclFields) (hy : y ∈ dclFields) (h : x ≠ y) (v : Nat) :
    (wf y v).Fixes fun s => s.f x := .wfApart (dclFields_apart hx hy h) v

theorem dclFields_inc {x y : FldAt} (hx : x ∈ dclFields) (hy : y ∈ dclFields) (h : x ≠ y) : (inc y).Fixes fun s => s.f x :=
  .incApart (dclFields_apart hx hy h)

theorem dclFields_in {x : FldAt} (hx : x ∈ dclFields) {α : Type} {P : List Nat} {m : M α} (h : m.In P)
    (hn : 99 ∉ P ∧ 9 ∉ P) :
    m.Fixes fun s => s.f x := .ofIn h fun _ _ hs => hs.f hn.1 (dclFields_page x hx ▸ hn.2)

theorem M.Fixes.doesRun {β : Type} {π : State → β} {m : M Unit} (h : m.Fixes π) (s : State) : m.Does s () (m.run s) := by
  obtain ⟨_, t, hd, _⟩ := h.does s
  rwa [hd.run]

/-! ## The clamp -/

theorem setClamp_f {x : FldAt} (hx : x ∈ dclFields) (h : x ≠ DCL.STATUS.REGEN_CLAMP ∧ x ≠ DCL.COUNT.CLAMPS) (on : Bool) :
    (setClamp on).Fixes fun s => s.f x :=
  setClamp_fixes (dclFields_inc hx (by decide) h.2) (dclFields_wf hx (by decide) h.1)
    (fun s m _ => dclFields_in hx (clampEngine_in s m) (by decide)) on

theorem MCH_STAT_REGEN_CLAMP_real (m : Fin 2) : (FLD.MCH_STAT.REGEN_CLAMP m).Real := by
  revert m
  decide +kernel

/-- An engine that takes the clamp shows it. -/
theorem clampEngine_shows {s u : State} {m : Fin 2} (hen : s.f (FLD.MCH_CFG.EN m) = 1) (hp : s.present (2 + m) = true)
    (hen' : u.f (FLD.MCH_CFG.EN m) = 1) :
    ((clampEngine s m).run u).f (FLD.MCH_STAT.REGEN_CLAMP m) = b2n (u.f DCL.STATUS.REGEN_CLAMP == 1) := by
  have hd : (clampEngine s m).Does u () _ := .ite_pos hen <| .ite_pos hp <| .read <| M.does_wf _ _ u
  rw [hd.run, f_wf_same (MCH_STAT_REGEN_CLAMP_real m), hen']
  cases u.f DCL.STATUS.REGEN_CLAMP == 1 <;> rfl

/-- It reaches no other parameter of page FLD. -/
theorem clampEngine_rd (s : State) {m a : Nat} (ha : a / 65536 = 8) (hne : a ≠ FLD.MCH_STAT m) :
    (clampEngine s m).Fixes (State.rd · a) :=
  .when <| .ite (.read fun _ => .read fun _ => .rdWr _ hne) <|
    .rdIn (M.In.inc (P := [0]) 0 _ (SYS.XFER_page _) (by decide)) (by decide) (by rw [ha]; decide)

theorem MCH_STAT_ne_MCH_STAT {m n : Fin 2} (h : m ≠ n) : FLD.MCH_STAT m ≠ FLD.MCH_STAT n := by
  revert m n
  decide

theorem clampEngines_shows {s u : State} {m : Fin 2} (hen : s.f (FLD.MCH_CFG.EN m) = 1) (hp : s.present (2 + m) = true)
    (hen' : u.f (FLD.MCH_CFG.EN m) = 1) :
    ((clampEngines s).run u).f (FLD.MCH_STAT.REGEN_CLAMP m) = b2n (u.f DCL.STATUS.REGEN_CLAMP == 1) := by
  have hd : (clampEngines s).Does u () ((clampEngine s 1).run ((clampEngine s 0).run u)) :=
    ((clampEngine_in s 0).does u).bind <| ((clampEngine_in s 1).does _).bind <| M.does_pure _ _
  rw [hd.run]
  match m with
  | 0 =>
    have hlast : (clampEngine s 1).Fixes (State.rd · (FLD.MCH_STAT 0)) :=
      clampEngine_rd s (FLD.MCH_STAT_page 0) (MCH_STAT_ne_MCH_STAT (m := 0) (n := 1) (by decide))
    exact (f_of_rd_eq (FLD.MCH_STAT.REGEN_CLAMP 0) (hlast.run _)).trans (clampEngine_shows (m := 0) hen hp hen')
  | 1 =>
    have hfirst : (clampEngine s 0).Fixes (State.rd · (FLD.MCH_CFG 1)) :=
      clampEngine_rd s (FLD.MCH_CFG_page 1) (by decide)
    have hclamp := (dclFields_in (x := DCL.STATUS.REGEN_CLAMP) (by decide) (clampEngine_in s 0) (by decide)).run u
    refine (clampEngine_shows (m := 1) hen hp ((f_of_rd_eq (FLD.MCH_CFG.EN 1) (hfirst.run u)).trans hen')).trans ?_
    rw [hclamp]

/-- The clamp as it was asked for; the enabled engines in service show a change. -/
structure Clamped (on : Bool) (s t : State) : Prop where
  clamp : t.f DCL.STATUS.REGEN_CLAMP = b2n on
  engines : s.f DCL.STATUS.REGEN_CLAMP ≠ b2n on → ∀ m < 2, s.f (FLD.MCH_CFG.EN m) = 1 → s.present (2 + m) = true →
    t.f (FLD.MCH_STAT.REGEN_CLAMP m) = b2n on

theorem setClamp_clamps (on : Bool) (s : State) : (setClamp on).Ends s fun _ t => Clamped on s t := by
  refine .read ?_
  by_cases h : s.f DCL.STATUS.REGEN_CLAMP = b2n on
  · exact .ite_neg (not_not_intro h) <| .ofDoes (M.does_pure _ _) ⟨h, fun hne => absurd h hne⟩
  have hcount : (if on = true then inc DCL.COUNT.CLAMPS else pure ()).In [9] :=
    .ite (M.In.inc 9 _ (by decide) (by decide)) (.pure _)
  have hwf : (wf DCL.STATUS.REGEN_CLAMP (b2n on)).In [9] := M.In.wf 9 _ _ (by decide) (by decide)
  have hd : ((wf DCL.STATUS.REGEN_CLAMP (b2n on)) >>= fun _ => clampEngines s).Does
      ((if on = true then inc DCL.COUNT.CLAMPS else pure ()).run s) () _ := (hwf.does _).bind ((clampEngines_in s).does _)
  refine .ite_pos h <| .ofDoes (M.Does.thenMore (hcount.does s) hd) ?_
  have hsame := (hcount.run s).trans (hwf.run _)
  have hset : ((wf DCL.STATUS.REGEN_CLAMP (b2n on)).run ((if on = true then inc DCL.COUNT.CLAMPS else pure ()).run s)).f
      DCL.STATUS.REGEN_CLAMP = b2n on := (f_wf_same (dclFields_real _ (by decide)) _ _).trans (by cases on <;> rfl)
  generalize (wf DCL.STATUS.REGEN_CLAMP (b2n on)).run _ = u at *
  refine ⟨?_, fun _ m hm hen hp => ?_⟩
  · exact ((dclFields_in (by decide) (clampEngines_in s) (by decide)).run u).trans hset
  · have hen' : u.f (FLD.MCH_CFG.EN m) = 1 :=
      (hsame.f (by decide) (by rw [show (FLD.MCH_CFG.EN m).addr = FLD.MCH_CFG m from rfl, FLD.MCH_CFG_page]; decide)).trans hen
    refine (clampEngines_shows (m := ⟨m, hm⟩) hen hp hen').trans ?_
    rw [hset]
    cases on <;> rfl

/-! ## An evaluation (R242, R243, R247) -/

/-- What an evaluation does after it has judged demand and clamp. -/
def report (s : State) (v : Nat) : M Unit := do
  reactTwo s v
  showLevel
  showUv s v

/-- What it does after it has shown the voltage. -/
def respond (s : State) (v : Nat) : M Unit := do
  demandOn s v
  demandOff s v
  clampOn s v
  clampOff s v
  report s v

section
variable {x : FldAt} (hx : x ∈ dclFields)
include hx

theorem report_f (h : x ∉ [DCL.STATUS.CHOP_AVAIL, DCL.COUNT.L2_EVENTS, DCL.STATUS.LEVEL, DCL.STATUS.UV]) (s : State) (v : Nat) :
    (report s v).Fixes fun s => s.f x := by
  simp only [List.mem_cons, List.not_mem_nil, or_false, not_or] at h
  obtain ⟨havail, hl2, hlevel, huv⟩ := h
  have hu := unreacted_f (dclFields_supervised hx havail)
  exact .bind (reactTwo_fixes (updDcl_f · x) (dclFields_inc hx (by decide) hl2) hu.tripAct hu.occur hu.levelEvent _ _) fun _ =>
    .bind (showLevel_fixes (updDcl_f · x) (dclFields_wf hx (by decide) hlevel)) fun _ =>
    showUv_fixes hu.occur (dclFields_wf hx (by decide) huv) _ _

theorem demand_f (h : x ∉ [DCL.STATUS.CHOP_AVAIL, DCL.STATUS.CHOP_DEMAND, DCL.COUNT.L1_EVENTS]) (s : State) (v : Nat) :
    (demandOn s v).Fixes (fun s => s.f x) ∧ (demandOff s v).Fixes (fun s => s.f x) := by
  simp only [List.mem_cons, List.not_mem_nil, or_false, not_or] at h
  obtain ⟨havail, hdemand, hl1⟩ := h
  have hu := unreacted_f (dclFields_supervised hx havail)
  have hwf := dclFields_wf hx (y := DCL.STATUS.CHOP_DEMAND) (by decide) hdemand
  exact ⟨demandOn_fixes (hwf 1) (dclFields_inc hx (by decide) hl1) (hu.chopSwitch _) s v,
    demandOff_fixes (hwf 0) (hu.chopSwitch _) s v⟩

theorem clamp_f (h : x ≠ DCL.STATUS.REGEN_CLAMP ∧ x ≠ DCL.COUNT.CLAMPS) (s : State) (v : Nat) :
    (clampOn s v).Fixes (fun s => s.f x) ∧ (clampOff s v).Fixes (fun s => s.f x) :=
  ⟨.when (setClamp_f hx h _), .when (setClamp_f hx h _)⟩

theorem respond_f (h : x ∈ [DCL.STATUS.VDC, DCL.STATUS.SENSE_OK, DCL.STATUS.CHOP_FAULTY]) (s : State) (v : Nat) :
    (respond s v).Fixes fun s => s.f x := by
  have hne : ∀ y ∈ [DCL.STATUS.VDC, DCL.STATUS.SENSE_OK, DCL.STATUS.CHOP_FAULTY],
      y ∉ [DCL.STATUS.CHOP_AVAIL, DCL.STATUS.CHOP_DEMAND, DCL.COUNT.L1_EVENTS] ∧
      (y ≠ DCL.STATUS.REGEN_CLAMP ∧ y ≠ DCL.COUNT.CLAMPS) ∧
      y ∉ [DCL.STATUS.CHOP_AVAIL, DCL.COUNT.L2_EVENTS, DCL.STATUS.LEVEL, DCL.STATUS.UV] := by
    decide
  obtain ⟨hd, hc, hr⟩ := hne x h
  obtain ⟨hon, hoff⟩ := demand_f hx hd s v
  obtain ⟨hcon, hcoff⟩ := clamp_f hx hc s v
  exact .bind hon fun _ => .bind hoff fun _ => .bind hcon fun _ => .bind hcoff fun _ => report_f hx hr s v

end

theorem chopSwitch_demand (on : Bool) : (chopSwitch on).Fixes fun s => s.f DCL.STATUS.CHOP_DEMAND :=
  (unreacted_f (dclFields_supervised (x := DCL.STATUS.CHOP_DEMAND) (by decide) (by decide))).chopSwitch on

theorem demandOn_rises {s : State} {v : Nat} (hzero : s.f DCL.STATUS.CHOP_DEMAND = 0) (hv : vAtLeast v s.demandAt = true)
    (u : State) : (demandOn s v).Ends u fun _ t => t.f DCL.STATUS.CHOP_DEMAND = 1 := by
  have hrest : ((inc DCL.COUNT.L1_EVENTS) >>= fun _ => if s.f DCL.STATUS.CHOP_AVAIL = 1 then chopSwitch true else pure ()).Fixes
      fun t => t.f DCL.STATUS.CHOP_DEMAND :=
    .bind (dclFields_inc (by decide) (by decide) (by decide)) fun _ => .when (chopSwitch_demand _)
  exact .ite_pos ⟨hzero, hv⟩ <| .bind (M.does_wf _ _ u) <| .ofFixes hrest fun _ _ ht =>
    ht.trans (f_wf_same (dclFields_real DCL.STATUS.CHOP_DEMAND (by decide)) 1 u)

theorem demandOff_falls {s : State} {v : Nat} (hone : s.f DCL.STATUS.CHOP_DEMAND = 1)
    (hv : vAtLeast v (s.demandAt - s.f DCL.LEVELS.HYST) = false) (u : State) :
    (demandOff s v).Ends u fun _ t => t.f DCL.STATUS.CHOP_DEMAND = 0 := by
  have hrest : (if s.f DCL.STATUS.CHOP_AVAIL = 1 then chopSwitch false else pure ()).Fixes fun t => t.f DCL.STATUS.CHOP_DEMAND :=
    .when (chopSwitch_demand _)
  exact .ite_pos ⟨hone, by simp [hv]⟩ <| .bind (M.does_wf _ _ u) <| .ofFixes hrest fun _ _ ht =>
    ht.trans (f_wf_same (dclFields_real DCL.STATUS.CHOP_DEMAND (by decide)) 0 u)

theorem vAtLeast_sub {v l : Nat} (h : vAtLeast v l = true) (d : Nat) : vAtLeast v (l - d) = true := by
  simp only [vAtLeast, decide_eq_true_eq] at h ⊢
  exact (Nat.mul_le_mul_right _ (Nat.sub_le _ _)).trans h

/-- The demand follows the voltage, with the hysteresis between its two thresholds. -/
theorem demand_follows {s u : State} (h : u.f DCL.STATUS.CHOP_DEMAND = s.f DCL.STATUS.CHOP_DEMAND) (v : Nat) :
    (demandOn s v >>= fun _ => demandOff s v).Ends u fun _ t =>
      (vAtLeast v s.demandAt = true → t.f DCL.STATUS.CHOP_DEMAND = 1) ∧
      (vAtLeast v (s.demandAt - s.f DCL.LEVELS.HYST) = false → t.f DCL.STATUS.CHOP_DEMAND = 0) := by
  have hlt : s.f DCL.STATUS.CHOP_DEMAND < 2 := f_lt DCL.STATUS.CHOP_DEMAND s
  have hlower := fun hv : vAtLeast v s.demandAt = true => vAtLeast_sub hv (s.f DCL.LEVELS.HYST)
  obtain hzero | hone : s.f DCL.STATUS.CHOP_DEMAND = 0 ∨ s.f DCL.STATUS.CHOP_DEMAND = 1 := by omega
  · have hoff : ∀ w, (demandOff s v).Does w () w := fun w => .ite_neg (by simp [hzero]) (M.does_pure _ _)
    by_cases hv : vAtLeast v s.demandAt = true
    · obtain ⟨_, w, hd, hw⟩ := demandOn_rises hzero hv u
      exact .bind hd <| .ofDoes (hoff w) ⟨fun _ => hw, fun hn => absurd ((hlower hv).symm.trans hn) (by decide)⟩
    · exact .bind (M.Does.ite_neg (fun hc => hv hc.2) (M.does_pure _ u)) <|
        .ofDoes (hoff u) ⟨fun hc => absurd hc hv, fun _ => h.trans hzero⟩
  · refine .bind (M.Does.ite_neg (by simp [hone]) (M.does_pure _ u)) ?_
    by_cases hv : vAtLeast v (s.demandAt - s.f DCL.LEVELS.HYST) = true
    · exact .ofDoes (M.Does.ite_neg (by simp [hv]) (M.does_pure _ u))
        ⟨fun _ => h.trans hone, fun hn => absurd (hv.symm.trans hn) (by decide)⟩
    · obtain ⟨_, w, hd, hw⟩ := demandOff_falls hone (Bool.eq_false_iff.mpr hv) u
      exact .ofDoes hd ⟨fun hc => absurd (hlower hc) hv, fun _ => hw⟩

end Sys2Proof.Machine
end

section
/-! SUPPORT for O44: what an evaluation, a lost input and a failed check show (R242, R243, R245 to R247). -/

namespace Sys2Proof.Machine

/-! ## An evaluation -/

theorem respond_demands {s u : State} (h : u.f DCL.STATUS.CHOP_DEMAND = s.f DCL.STATUS.CHOP_DEMAND) (v : Nat) :
    (respond s v).Ends u fun _ t =>
      (vAtLeast v s.demandAt = true → t.f DCL.STATUS.CHOP_DEMAND = 1) ∧
      (vAtLeast v (s.demandAt - s.f DCL.LEVELS.HYST) = false → t.f DCL.STATUS.CHOP_DEMAND = 0) := by
  obtain ⟨hon, hoff⟩ := clamp_f (x := DCL.STATUS.CHOP_DEMAND) (by decide) (by decide) s v
  have hrest := M.Fixes.bind hon fun _ => .bind hoff fun _ => report_f (by decide) (by decide) s v
  obtain ⟨_, w, hd, hset, hclear⟩ := demand_follows h v
  have hdrops : (respond s v).Does u () _ := (show ((demandOn s v >>= fun _ => demandOff s v) >>= fun _ =>
    clampOn s v >>= fun _ => clampOff s v >>= fun _ => report s v).Does u () _ from hd.bind (hrest.doesRun w))
  exact .ofDoes hdrops ⟨fun hv => (hrest.run w).trans (hset hv), fun hv => (hrest.run w).trans (hclear hv)⟩

theorem respond_releases {s : State} {v : Nat} (h : vAtLeast v (s.f DCL.LEVELS.L1 - s.f DCL.LEVELS.HYST) = false) (u : State) :
    (respond s v).Ends u fun _ t => t.f DCL.STATUS.REGEN_CLAMP = 0 := by
  obtain ⟨hon, hoff⟩ := demand_f (x := DCL.STATUS.REGEN_CLAMP) (by decide) (by decide) s v
  obtain ⟨hclamp, -⟩ := clamp_f (x := DCL.STATUS.CHOP_DEMAND) (by decide) (by decide) s v
  refine .after hon fun _ _ _ => .after hoff fun _ _ _ => .after hclamp fun _ w _ => ?_
  obtain ⟨_, z, hd, hz⟩ := setClamp_clamps false w
  exact .bind (M.Does.ite_pos (by simp [h]) hd) <|
    .ofFixes (report_f (x := DCL.STATUS.REGEN_CLAMP) (by decide) (by decide) s v) fun _ _ ht => ht.trans hz.clamp

/-- What an evaluation shows of a voltage `v`, in units of 2^-16 V. -/
structure Evaluated (v : Nat) (s t : State) : Prop where
  voltage : t.f DCL.STATUS.VDC = min 2047 (v / 65536)
  sense : t.f DCL.STATUS.SENSE_OK = 1
  faulty : t.f DCL.STATUS.CHOP_FAULTY = s.f DCL.STATUS.CHOP_FAULTY
  demanded : vAtLeast v s.demandAt = true → t.f DCL.STATUS.CHOP_DEMAND = 1
  dropped : vAtLeast v (s.demandAt - s.f DCL.LEVELS.HYST) = false → t.f DCL.STATUS.CHOP_DEMAND = 0
  released : vAtLeast v (s.f DCL.LEVELS.L1 - s.f DCL.LEVELS.HYST) = false → t.f DCL.STATUS.REGEN_CLAMP = 0

theorem evaluate_shows (v : Nat) (s : State) : (evaluate s v).Ends s fun _ t => Evaluated v s t := by
  have hf : ∀ {x y : FldAt}, x ∈ dclFields → y ∈ dclFields → x ≠ y → ∀ n u,
      ((Act.reg y.addr (withBits (u.rd y.addr) y.hi y.lo n)).apply u).f x = u.f x := fun hx hy h n u =>
    f_wf_apart (dclFields_apart hx hy h) n u
  refine .bind (M.does_hid _ s) <| .bind ((M.does_wf _ _ _).bind (M.does_wf _ _ _)) <|
    .ofDoes (show (respond s v).Does _ () _ from (respond_f (x := DCL.STATUS.VDC) (by decide) (by decide) s v).doesRun _) ?_
  generalize hw : (Act.hid _).apply s = w
  have hsame : ∀ x : FldAt, w.f x = s.f x := fun x => hw ▸ rfl
  generalize hu : (Act.reg DCL.STATUS.SENSE_OK.addr _).apply _ = u
  have hfix : ∀ x ∈ dclFields, x ∈ [DCL.STATUS.VDC, DCL.STATUS.SENSE_OK, DCL.STATUS.CHOP_FAULTY] →
      ((respond s v).run u).f x = u.f x := fun x hx h => (respond_f hx h s v).run u
  have hdemand : u.f DCL.STATUS.CHOP_DEMAND = s.f DCL.STATUS.CHOP_DEMAND := by
    rw [← hu, hf (by decide) (by decide) (by decide), hf (by decide) (by decide) (by decide), hsame]
  obtain ⟨hset, hclear⟩ := (respond_demands hdemand v).run
  refine ⟨?_, ?_, ?_, hset, hclear, fun h => (respond_releases h u).run⟩
  · rw [hfix _ (by decide) (by decide), ← hu, hf (by decide) (by decide) (by decide), f_wf_same (dclFields_real _ (by decide))]
    exact Nat.mod_eq_of_lt (lt_of_le_of_lt (min_le_left ..) (by decide))
  · rw [hfix _ (by decide) (by decide), ← hu, f_wf_same (dclFields_real _ (by decide))]
    rfl
  · rw [hfix _ (by decide) (by decide), ← hu, hf (by decide) (by decide) (by decide),
      hf (by decide) (by decide) (by decide), hsame]

theorem dclEvaluation_shows {s : State} {code : Nat} (hen : s.f DCL.CTRL.EN = 1)
    (hcode : s.codeSince (s.f DCL.VSRC.SLOT) s.hid.dcl.seen = some code) :
    dclEvaluation.Ends s fun _ t => Evaluated (code * s.f DCL.VSRC.V_GAIN) s t := by
  rw [dclEvaluation_eq]
  refine .read ?_
  simp only [hcode]
  exact .ite_pos hen (evaluate_shows _ s)

/-! ## The lost input (R242, R247) -/

theorem Same.present {P : List Nat} {s t : State} (h : Same P s t) (hn : 99 ∉ P ∧ 0 ∉ P) (n : Nat) :
    t.present n = s.present n := by
  rw [State.present, State.present,
    h.f hn.1 (show SYS.ISLAND n / 65536 ∉ P from (SYS.ISLAND_page n).symm ▸ hn.2)]

theorem ISLAND_STATE_supervised {n : Nat} (hn : n < 16) : (SYS.ISLAND.STATE n).Supervised :=
  ⟨.inr ⟨n, hn, rfl⟩, .inl fun h => by
    have hp := SYS.ISLAND_page n
    rw [show SYS.ISLAND n = DCL.STATUS.CHOP_AVAIL.addr from h] at hp
    exact absurd hp (by decide)⟩

/-- What a lost input shows. -/
structure SenseLost (s t : State) : Prop where
  sense : t.f DCL.STATUS.SENSE_OK = 0
  clamped : Clamped true s t
  counted : Counted 91 0 s t

theorem senseLost_shows {s : State} (hen : s.f DCL.CTRL.EN = 1) (hlost : s.hid.dcl.lost = false) :
    senseLost.Ends s fun _ t => SenseLost s t := by
  have hsense : (wf DCL.STATUS.SENSE_OK 0).In [9] := M.In.wf 9 _ _ (by decide) (by decide)
  have hd : senseLost.Does s () _ := .read <| .ite_pos ⟨hen, by simp [hlost]⟩ <| ((foot_updDcl _).does s).bind <|
    (hsense.does _).bind <| ((foot_occur _ _ _).does _).bind ((foot_setClamp true).does _)
  refine .ofDoes hd ?_
  set u := (updDcl _).run s with hu
  have hf : ∀ x : FldAt, u.f x = s.f x := fun _ => rfl
  set w := (wf DCL.STATUS.SENSE_OK 0).run u with hw
  have hsame : Same [9, 54] s w := (((foot_updDcl _).run s).mono (by decide)).trans ((hsense.run u).mono (by decide))
  have hocc := occur_counted 91 0 0 w
  have hkept : ∀ x : FldAt, x.Supervised → ((occur 91 0 0).run w).f x = w.f x := fun x hx =>
    ((unreacted_f hx).occur _ _ _).run w
  have hfoot := (foot_occur 91 0 0).run w
  set z := (occur 91 0 0).run w
  have hclamp := (setClamp_clamps true z).run
  have hstatus : w.f DCL.STATUS.SENSE_OK = 0 := f_wf_same (dclFields_real DCL.STATUS.SENSE_OK (by decide)) 0 u
  refine ⟨?_, ⟨hclamp.clamp, fun hne m hm hen hp => hclamp.engines ?_ m hm ?_ ?_⟩, ?_⟩
  · exact ((setClamp_f (by decide) (by decide) true).run z).trans <|
      (hkept _ (dclFields_supervised (by decide) (by decide))).trans hstatus
  · rwa [hkept _ (dclFields_supervised (by decide) (by decide)),
      show w.f DCL.STATUS.REGEN_CLAMP = s.f DCL.STATUS.REGEN_CLAMP from
        (dclFields_wf (by decide) (by decide) (by decide) 0).run u]
  · have hpage : (FLD.MCH_CFG.EN m).addr / 65536 = 8 := FLD.MCH_CFG_page m
    rw [hfoot.f (by decide) (by rw [hpage]; decide), hsame.f (by decide) (by rw [hpage]; decide), hen]
  · have hpres : z.present (2 + m) = w.present (2 + m) := by
      rw [State.present, State.present, hkept _ (ISLAND_STATE_supervised (by omega))]
    rw [hpres, hsame.present (by decide), hp]
  · exact (hocc.of_shown (hsame.shown 91 (by decide) (by decide))).then_shown <|
      ((foot_setClamp true).run z).shown 91 (by decide) (by decide)

/-! ## The chopper's checks (R245, R246) -/

/-- What a check of the off state that fails shows. -/
structure CheckFailed (g : Nat) (s t : State) : Prop where
  kind : t.f DCL.STATUS.CHOP_KIND = 3
  count : Bumped DCL.COUNT.CHK_FAILS s t
  counted : Counted 90 g s t

theorem declareFaulty_f {x : FldAt} (hx : x ∈ dclFields) (h : x ≠ DCL.STATUS.CHOP_AVAIL ∧ x ≠ DCL.STATUS.CHOP_FAULTY)
    (s : State) (kind : Nat) : (declareFaulty s kind).Fixes fun t => t.f x := by
  have hu := unreacted_f (dclFields_supervised hx h.1)
  exact .bind (dclFields_wf hx (by decide) h.2 1) fun _ => .bind hu.setAvail fun _ => .bind (hu.chopSwitch _) fun _ => hu.event ..

theorem declareFaulty_shown (src : Nat) (s : State) (kind : Nat) : (declareFaulty s kind).Fixes (State.occurShown src) := by
  have hoff : (chopSwitch false).In [5, 44, 45] := .bind (.getS) fun _ => .ite (.forM (fun _ => foot_cellOff _ _) _) (.pure _)
  exact .bind (.shownIn src (M.In.wf (P := [9]) 9 _ _ (by decide) (by decide)) (by decide) (by decide)) fun _ =>
    .bind (.shownIn src foot_setAvail (by decide) (by decide)) fun _ => .bind (.shownIn src hoff (by decide) (by decide)) fun _ =>
    .shownIn src (foot_event _ _ _ _ _) (by decide) (by decide)

theorem chopperCheck_fails {s : State} (hen : s.f DCL.CTRL.EN = 1) (hcell : s.f DCL.CHOP.CHK_CELL < 72)
    (hlt : s.f DCL.CTRL.BRK_GROUP < 32) (hoff : ((s.chans (s.f DCL.CTRL.BRK_GROUP)).any fun c => (s.chan c).on) = false)
    (hlow : s.f (TRP.CELL_STAT.OUT_LO (s.f DCL.CHOP.CHK_CELL)) = 0) :
    (chopperCheck .offState).Ends s fun _ t => CheckFailed (s.f DCL.CTRL.BRK_GROUP) s t := by
  have hkind : (wf DCL.STATUS.CHOP_KIND 3).In [9] := M.In.wf 9 _ _ (by decide) (by decide)
  have hinc : (inc DCL.COUNT.CHK_FAILS).In [9] := M.In.inc 9 _ (by decide) (by decide)
  refine .read <| .ite_pos ⟨hen, hcell, hlt⟩ ?_
  simp only [hoff, hlow]
  refine .ite_pos (by decide) <| show (failCheck s 3).Ends s _ from .bind (hkind.does s) <| .bind (hinc.does _) ?_
  set g := s.f DCL.CTRL.BRK_GROUP
  set u := (wf DCL.STATUS.CHOP_KIND 3).run s
  set w := (inc DCL.COUNT.CHK_FAILS).run u
  have hsame : Same [9] s w := (hkind.run s).trans (hinc.run u)
  obtain ⟨lasting, z, hd, hcount⟩ := occurrence_counted 90 ⟨g, hlt.trans (by decide)⟩ 3 w
  have hocc : ∀ x : FldAt, x.Supervised → z.f x = w.f x := fun x hx => hd.fixes ((unreacted_f hx).occurrence _ _ _)
  have hfix : ∀ {x : FldAt}, x ∈ dclFields → x ≠ DCL.STATUS.CHOP_AVAIL ∧ x ≠ DCL.STATUS.CHOP_FAULTY →
      (if lasting then declareFaulty s 3 else pure ()).Fixes fun t => t.f x := fun hx h => .when (declareFaulty_f hx h s 3)
  have hends := M.Fixes.prod (hfix (x := DCL.STATUS.CHOP_KIND) (by decide) (by decide)) <|
    .prod (hfix (x := DCL.COUNT.CHK_FAILS) (by decide) (by decide)) <| .when (declareFaulty_shown 90 s 3)
  refine .bind hd <| .ofFixes hends fun _ t ht => ?_
  simp only [Prod.mk.injEq] at ht
  obtain ⟨hk, hc, hs⟩ := ht
  refine ⟨?_, ?_, (hcount.of_shown (hsame.shown 90 (by decide) (by decide))).then_shown hs⟩
  · rw [hk, hocc _ (dclFields_supervised (by decide) (by decide)),
      (dclFields_inc (x := DCL.STATUS.CHOP_KIND) (y := DCL.COUNT.CHK_FAILS) (by decide) (by decide) (by decide)).run u]
    exact f_wf_same (dclFields_real _ (by decide)) 3 s
  · refine ((dclFields_real DCL.COUNT.CHK_FAILS (by decide)).bumped u).congr ?_ ?_
    · exact (dclFields_wf (by decide) (by decide) (by decide) 3).run s
    · rw [hc, hocc _ (dclFields_supervised (by decide) (by decide))]

end Sys2Proof.Machine
end

section
/-! SUPPORT for O44: a host write of one word, by either way, of a parameter whose write is no change of the configuration. -/

namespace Sys2Proof.Machine

/-- A parameter that a host write stores without a log entry, a latch of the clock or a shadow. -/
structure PlainWord (r : RegSpec) (a : Nat) : Prop where
  spec : regAt a = some r
  clock : r.name ≠ .BUS_TIME_CFG
  live : r.rws = 0
  page : a / 65536 < 256
  range : rangeBad (a / 65536) (a % 65536) 1 = none
  shadow : ∀ s : State, s.shadowTb a = none

/-- The state in which the effect of a write is taken. -/
def stored (r : RegSpec) (a : Nat) (x : Word) (s : State) : State := (Act.reg a (storedWord r x (s.rd a))).apply s

theorem stored_hid (r : RegSpec) (a : Nat) (x : Word) (s : State) : (stored r a x s).hid = s.hid := apply_reg_hid ..

theorem PlainWord.stored_rd {r : RegSpec} {a : Nat} (hp : PlainWord r a) (x : Word) (s : State) :
    (stored r a x s).rd a = storedWord r x (s.rd a) &&& implMask a := rd_apply_reg_same _ _ _ (by simp [hp.spec])

theorem setLegacy_sent (r : BitVec 72) (s : State) : Sent s ((setLegacy r).run s) :=
  have hin : (setLegacy r).In [1, 20, 33, 43, 47] := M.In.hid_cmd (fun h => { h.cmd with legacy := r }) (by decide)
  sent_run hin (.act fun _ => rfl) s

section
variable {r : RegSpec} {a : Nat} (hp : PlainWord r a) {x : Word}
include hp

theorem writeWord_plain (c : Ctx) (all : List Nat) {s t : State}
    (h : (writeEffect all r a x (s.rd a)).Does (stored r a x s) () t) : (writeWord c all a x).Does s () t := by
  unfold writeWord
  simp only [hp.spec]
  exact .ite_neg hp.clock <| (M.does_rd _ s).bind <| (M.does_wr _ _ s).bind <| h.bind <| (M.does_rd _ _).bind <|
    .ite_neg (by simp [hp.live]) <| M.does_pure () _

theorem opWrite_plain {c : Ctx} {s t : State} (h : s.writable c [(a, x)] = true) (hw : (writeWord c [a] a x).Does s () t) :
    (opWrite c (a / 65536) (leBytes 2 (a % 65536) ++ leBytes 2 1 ++ leBytes 4 x.toNat)).Does s {} t := by
  have hoff : leAt (leBytes 2 (a % 65536) ++ leBytes 2 1 ++ leBytes 4 x.toNat) 0 2 = a % 65536 := ofLe_leBytes 2 _ (by omega)
  have hn : leAt (leBytes 2 (a % 65536) ++ leBytes 2 1 ++ leBytes 4 x.toNat) 2 2 = 1 := rfl
  have hdrop : (leBytes 2 (a % 65536) ++ leBytes 2 1 ++ leBytes 4 x.toNat).drop 4 = leBytes 4 x.toNat := rfl
  have haddr : addrs (a / 65536) (a % 65536) 1 = [a] := congrArg (fun b => [b])
    (show a / 65536 * 65536 + a % 65536 + 4 * 0 = a by omega)
  unfold opWrite
  simp only [hoff, hn, hp.range, haddr, hdrop, wordsOf_leBytes]
  exact .ite_neg (by decide) (writeWords_one hp.spec (hp.shadow s) h hw)

/-- A write that is carried out has its effect; before and after it there is no more than what the link does. -/
theorem hostWrite_carries {v : Via} {s : State} (h : s.accepts v [(a, x)] = true) {W : State → State}
    (hw : ∀ u, Bookkept s u → (writeEffect [a] r a x (u.rd a)).Does (stored r a x u) () (W u))
    (hgo : ∀ u, Bookkept s u → u.hid.cmd.go = none → (W u).hid.cmd.go = none) :
    ∃ u, Bookkept s u ∧ Sent (W u) ((hostWrite v [(a, x)]).run s) := by
  cases v with
  | legacy =>
    simp only [State.accepts, Bool.and_eq_true] at h
    obtain ⟨⟨-, ho⟩, hok⟩ := h
    have hnone := hgo s (.refl s) ((legacyOpen_iff s).mp ho).2.2.2.2.2.2
    have hset := setLegacy_sent (legacyResult 0x80 a 0) (W s)
    have hframe := legacyFrame_writes (show a < 2 ^ 24 by have := hp.page; omega) ho
      (writeWords_one hp.spec (hp.shadow s) hok (writeWord_plain hp _ _ (hw s (.refl s))))
      (takeGo_none ((setLegacy_go _ _).trans hnone))
    have hd : (hostWrite .legacy [(a, x)]).Does s () ((legacyFrame (legacyWrite a x)).run s) :=
      M.Does.bind (show (legacyFrame (legacyWrite a x)).Does s () _ from (foot_legacyFrame _).does s) (M.does_pure () _)
    exact ⟨s, .refl s, by rw [hd.run, hframe]; exact hset⟩
  | packet src version flags seq session tag =>
    simp only [State.accepts, Bool.and_eq_true] at h
    obtain ⟨⟨hvia, hserves⟩, hok⟩ := h
    show ∃ u, Bookkept s u ∧ Sent (W u) ((serve 0x11 _).run s)
    have hbody := bodyOf_writePacket (a := a) (x := x) hvia
    have hpage : (writePacket src version flags seq session tag [(a, x)]).page.toNat = a / 65536 := by
      show (BitVec.ofNat 8 (a / 65536)).toNat = a / 65536
      rw [BitVec.toNat_ofNat, Nat.mod_eq_of_lt hp.page]
    generalize writePacket src version flags seq session tag [(a, x)] = p at *
    have hbook := serving_bookkept s 0x11 p
    have hop : (opWrite (s.ctxOf 0x11 p) p.page.toNat (bodyOf p)).Does (s.serving 0x11 p) {} (W (s.serving 0x11 p)) := by
      rw [hpage, hbody]
      exact opWrite_plain hp hok (writeWord_plain hp _ _ (hw _ hbook))
    have hnone := hgo (s.serving 0x11 p) hbook ((bare_go hbook.bare).trans (serves_go hserves))
    refine ⟨_, hbook, ?_⟩
    rw [serve_handled hserves (by decide) (handle_write rfl hop _ _) hnone (unlogged_okWith []) (by decide)]
    exact (beforeReply_bookkept ..).sent.trans (sendReply_sent ..)

end

/-! ## The word that is written -/

theorem via_wf_of_accepts {s : State} {v : Via} {ws : List (Nat × Word)} (h : s.accepts v ws = true) : v.wf = true := by
  cases v with
  | legacy => rfl
  | packet =>
    simp only [State.accepts, Bool.and_eq_true] at h
    exact h.1.1

theorem PlainWord.keepWord {r : RegSpec} {a : Nat} (hp : PlainWord r a) (s : State) : s.keepWord a = s.rd a &&& r.stored := by
  simp only [State.keepWord, hp.spec]

theorem bitsOf_withBits_same (w : Word) {hi lo : Nat} (v : Nat) (h : hi < 32) :
    bitsOf (withBits w hi lo v) hi lo = v % 2 ^ (hi + 1 - lo) := by
  have hm := bitsOf_withBits (lo := lo) w (BitVec.allOnes 32) v h fun i hi _ _ => by rw [BitVec.getLsbD_allOnes, decide_eq_true hi]
  rwa [BitVec.and_allOnes] at hm

end Sys2Proof.Machine
end

section
/-! SUPPORT for O44: the host's writes of DCL.STATUS and DCL.CTRL (R246, R252). -/

namespace Sys2Proof.Machine

/-! ## CHOP_FAULTY is cleared (R246) -/

/-- DCL.STATUS stores no bit: a write of 1 clears its bits of the kind W1C. -/
theorem DCL_STATUS_plain : ∃ r, PlainWord r DCL.STATUS ∧ r.name = .DCL_STATUS ∧ r.stored = 0#32 ∧
    ∀ old, storedWord r 0x20000000 old &&& implMask DCL.STATUS = old &&& 0xDFE007FF := by
  refine ⟨_, ⟨rfl, by decide, rfl, by decide, rfl, fun _ => rfl⟩, rfl, rfl, fun old => ?_⟩
  have hafter : ((0x20000000#32 &&& 0#32) ||| (old &&& ~~~0#32)) &&& ~~~(0x20000000#32 &&& 0x20400000#32) &&& ~~~0x1FF800#32 =
      old &&& 0xDFE007FF#32 := by
    rw [BitVec.and_zero, BitVec.zero_or, BitVec.not_zero, BitVec.and_allOnes, BitVec.and_assoc]
    rfl
  exact hafter

theorem faultyWord {r : RegSpec} (hp : PlainWord r DCL.STATUS) (hz : r.stored = 0#32) (s : State) :
    withBits (s.keepWord DCL.STATUS) 29 29 1 = 0x20000000 := by
  rw [hp.keepWord, hz, BitVec.and_zero]
  rfl

theorem setAvail_outside : setAvail.Fixes (State.outside [DCL.STATUS]) := .read fun _ => .wfOutside _ (List.mem_singleton.mpr rfl)

theorem chopFaultyClear_outside : chopFaultyClear.Fixes (State.outside [DCL.STATUS]) :=
  .bind (.wfOutside _ (List.mem_singleton.mpr rfl)) fun _ => setAvail_outside

theorem setAvail_f {x : FldAt} (hx : x ∈ dclFields) (h : x ≠ DCL.STATUS.CHOP_AVAIL) : setAvail.Fixes fun s => s.f x :=
  (unreacted_f (dclFields_supervised hx h)).setAvail

theorem chopFaultyClear_kind : chopFaultyClear.Fixes fun s => s.f DCL.STATUS.CHOP_KIND :=
  .bind (dclFields_wf (by decide) (by decide) (by decide) 0) fun _ => setAvail_f (by decide) (by decide)

theorem chopFaultyClear_clears (s : State) : (chopFaultyClear.run s).f DCL.STATUS.CHOP_FAULTY = 0 := by
  have hd : chopFaultyClear.Does s () _ := (M.does_wf DCL.STATUS.CHOP_FAULTY 0 s).bind (foot_setAvail.does _)
  rw [hd.run, (setAvail_f (x := DCL.STATUS.CHOP_FAULTY) (by decide) (by decide)).run]
  exact f_wf_same (dclFields_real DCL.STATUS.CHOP_FAULTY (by decide)) 0 s

/-- The write of a 1 into CHOP_FAULTY, as the host makes it. -/
theorem faultyWrite_clears {s : State} {v : Via} (h : s.accepts v [(DCL.STATUS, withBits (s.keepWord DCL.STATUS) 29 29 1)] = true) :
    let t := (writeField v DCL.STATUS.CHOP_FAULTY 1).run s
    t.f DCL.STATUS.CHOP_FAULTY = 0 ∧ t.f DCL.STATUS.CHOP_KIND = s.f DCL.STATUS.CHOP_KIND ∧
      Keeps [DCL.STATUS] [0x01, 0x14] s t := by
  obtain ⟨r, hp, hname, hz, hstored⟩ := DCL_STATUS_plain
  have hx := faultyWord hp hz s
  have hd : (writeField v DCL.STATUS.CHOP_FAULTY 1).Does s () _ :=
    .read <| (foot_hostWrite v [(DCL.STATUS, withBits (s.keepWord DCL.STATUS) 29 29 1)]).does s
  intro t
  rw [show t = _ from hd.run]
  rw [hx] at h ⊢
  clear t hd
  obtain ⟨u, hbook, hsent⟩ := hostWrite_carries hp h (W := fun u => chopFaultyClear.run (stored r DCL.STATUS 0x20000000 u))
    (fun u _ => by
      refine .read ?_
      simp only [hname]
      exact .ite_pos (by decide) (foot_chopFaultyClear.does _))
    fun u _ hgo => by rw [(foot_chopFaultyClear.run _).cmd (by decide) (by decide), stored_hid, hgo]
  generalize (hostWrite v _).run s = t at hsent ⊢
  have hf : ∀ {w w' : State}, Sent w w' → ∀ x : FldAt, x.addr = DCL.STATUS → w'.f x = w.f x := fun hs x hx =>
    f_of_rd_eq x <| bare_rd hs.bare (by rw [hx]; decide)
  have hkind : (stored r DCL.STATUS 0x20000000 u).f DCL.STATUS.CHOP_KIND = u.f DCL.STATUS.CHOP_KIND := by
    show bitsOf ((stored r DCL.STATUS 0x20000000 u).rd DCL.STATUS) 28 27 = bitsOf (u.rd DCL.STATUS) 28 27
    rw [hp.stored_rd, hstored]
    exact bitsOf_and (by decide) (by decide)
  have hout := (chopFaultyClear_outside.run (stored r DCL.STATUS 0x20000000 u)).trans <|
    (M.Fixes.wrOutside (storedWord r 0x20000000 (u.rd DCL.STATUS)) (List.mem_singleton.mpr rfl)).run u
  refine ⟨(hf hsent _ rfl).trans (chopFaultyClear_clears _), ?_, ?_⟩
  · exact (hf hsent _ rfl).trans <| (chopFaultyClear_kind.run _).trans <| hkind.trans (hf hbook.sent _ rfl)
  · exact ((hbook.sent.keeps.trans (.ofOutside hout)).trans hsent.keeps).mono (by simp) (by simp [eventPages])

/-! ## The contactor's report (R252) -/

theorem linkOpen_drive : linkOpen.KeepsDrive := by
  have hopen : (wf DCL.STATUS.LINK_OPEN 1).In [9] := M.In.wf 9 _ _ (by decide) (by decide)
  exact .after (.gateIn hopen (by decide)) fun _ => .bind (occur_drive _ _ _) fun _ => emergencyStop_drive _ _

/-- What the report of an opened contactor stops and shows. -/
structure LinkOpened (s t : State) : Prop where
  reported : t.f DCL.CTRL.CONT_OPEN = 1
  stopped : ∀ g ∈ s.cellSel (s.f DCL.CTRL.CHG_CELL), s.gst g = .running → t.stopped g = true
  shown : t.f DCL.STATUS.LINK_OPEN = 1
  counted : Counted 93 0 s t

theorem linkOpen_shows (s : State) : (linkOpen.run s).f DCL.STATUS.LINK_OPEN = 1 ∧ Counted 93 0 s (linkOpen.run s) := by
  have hopen : (wf DCL.STATUS.LINK_OPEN 1).In [9] := M.In.wf 9 _ _ (by decide) (by decide)
  have hd : linkOpen.Does s () _ := (hopen.does s).bind <| ((foot_occur 93 0 0).does _).bind <| (foot_emergencyStop 93 false).does _
  have hset : ((wf DCL.STATUS.LINK_OPEN 1).run s).f DCL.STATUS.LINK_OPEN = 1 :=
    f_wf_same (dclFields_real DCL.STATUS.LINK_OPEN (by decide)) 1 s
  have hu := unreacted_f (dclFields_supervised (x := DCL.STATUS.LINK_OPEN) (by decide) (by decide))
  rw [hd.run]
  refine ⟨?_, ?_⟩
  · exact ((hu.emergencyStop 93 false).run _).trans <| ((hu.occur 93 0 0).run _).trans hset
  · exact ((occur_counted 93 0 0 _).of_shown ((hopen.run s).shown 93 (by decide) (by decide))).then_shown <|
      ((foot_emergencyStop 93 false).run _).shown 93 (by decide) (by decide)

theorem contOpen_fixes {β : Type} {π : State → β} (h : Unreacted π) (hopen : (wf DCL.STATUS.LINK_OPEN 1).Fixes π) :
    contOpen.Fixes π :=
  .read fun _ => .when <| .when <| .bind (.forM (fun _ => .bind (h.tripGroup _ _ _) fun _ => .pure _) _) fun _ => h.linkOpen hopen

/-- The trip of one group, of which the answer is not asked. -/
def tripOpened (g : Nat) : M Unit := do
  let _ ← tripGroup g 0 0xFF

theorem tripOpened_drive (g : Nat) : (tripOpened g).KeepsDrive := .bind (tripGroup_drive g 0 0xFF) fun _ => .pure _

theorem tripOpened_stops {s : State} {g : Nat} (h : s.active g = true) :
    (tripOpened g).Ends s fun _ t => t.stopped g = true := by
  obtain ⟨_, t, hd, -, -, hstop⟩ := tripGroup_active h 0 0xFF
  exact .bind hd <| .ofDoes (M.does_pure _ _) hstop

theorem contOpen_opens {s : State} (hen : s.f DCL.CTRL.EN = 1) (hopen : s.f DCL.CTRL.CONT_OPEN = 1)
    (hcell : s.f DCL.CTRL.CHG_CELL < 72)
    (hany : ((s.cellSel (s.f DCL.CTRL.CHG_CELL)).any fun g => s.gst g == .running) = true) : LinkOpened s (contOpen.run s) := by
  set gs := (s.cellSel (s.f DCL.CTRL.CHG_CELL)).filter fun g => s.gst g == .running with hgs
  have hsome : (!gs.isEmpty) = true := by
    obtain ⟨g, hg, hrun⟩ := List.any_eq_true.mp hany
    have hmem : g ∈ gs := List.mem_filter.mpr ⟨hg, hrun⟩
    cases h : gs with
    | nil => rw [h] at hmem; cases hmem
    | cons _ _ => rfl
  have hloop : (gs.forM tripOpened).In _ := M.In.forM (fun g => (foot_tripGroup g 0 0xFF).bind fun _ => .pure _) gs
  have hd : contOpen.Does s () (linkOpen.run ((gs.forM tripOpened).run s)) :=
    .read <| .ite_pos ⟨hen, hopen, hcell⟩ <| .ite_pos hsome <| (hloop.does s).bind (foot_linkOpen.does _)
  have hreport : (contOpen.run s).f DCL.CTRL.CONT_OPEN = s.f DCL.CTRL.CONT_OPEN :=
    (contOpen_fixes (unreacted_f (dclFields_supervised (by decide) (by decide)))
      (dclFields_wf (by decide) (by decide) (by decide) 1)).run s
  rw [hd.run] at hreport ⊢
  obtain ⟨hshown, hcounted⟩ := linkOpen_shows ((gs.forM tripOpened).run s)
  refine ⟨hreport.trans hopen, fun g hg hrun => (linkOpen_drive.run _).stopped ?_, hshown,
    hcounted.of_shown ((hloop.run s).shown 93 (by decide) (by decide))⟩
  have hact : s.active g = true := by simp [State.active, hrun]
  exact (forM_stops tripOpened_drive (fun _ => tripOpened_stops) gs (by simp [hgs, hg, hrun]) s (.inl hact)).run

end Sys2Proof.Machine
end

section
/-! Statement O44: the DC-link supervisor. -/

namespace Sys2Proof.Machine

/-! ## A write of DCL.CTRL while the supervisor is enabled -/

/-- A write of every bit that a parameter has. -/
theorem after_whole (v old m : Word) : (v &&& m ||| old &&& ~~~m) &&& ~~~(v &&& 0#32) &&& m = v &&& m := by
  rw [BitVec.and_zero, BitVec.not_zero, BitVec.and_allOnes]
  ext i hi
  simp only [BitVec.getElem_and, BitVec.getElem_or, BitVec.getElem_not]
  cases m[i] <;> simp

theorem DCL_CTRL_plain : ∃ r, PlainWord r DCL.CTRL ∧ r.name = .DCL_CTRL ∧ r.stored = implMask DCL.CTRL ∧
    ∀ v old, storedWord r v old &&& implMask DCL.CTRL = v &&& implMask DCL.CTRL :=
  ⟨_, ⟨rfl, by decide, rfl, by decide, rfl, fun _ => rfl⟩, rfl, by decide, fun v old => after_whole v old 0xFFFFFFE0#32⟩

/-- The word by which the host reports. -/
def State.contWord (s : State) : Word := withBits (s.keepWord DCL.CTRL) 29 29 1

section
variable {r : RegSpec} (hp : PlainWord r DCL.CTRL) (hkeep : r.stored = implMask DCL.CTRL)
  (hall : ∀ v old, storedWord r v old &&& implMask DCL.CTRL = v &&& implMask DCL.CTRL) (s u : State)
include hp hall

theorem contWord_reports : (stored r DCL.CTRL s.contWord u).f DCL.CTRL.CONT_OPEN = 1 := by
  show bitsOf ((stored r DCL.CTRL s.contWord u).rd DCL.CTRL) 29 29 = 1
  rw [hp.stored_rd, hall]
  exact bitsOf_withBits _ _ 1 (by decide) (by decide)

include hkeep

theorem contWord_keeps {x : FldAt} (hx : x ∈ [DCL.CTRL.EN, DCL.CTRL.CHG_CELL]) :
    (stored r DCL.CTRL s.contWord u).f x = s.f x := by
  have hmask : ∀ y ∈ [DCL.CTRL.EN, DCL.CTRL.CHG_CELL], y.addr = DCL.CTRL ∧ y.hi < 32 ∧
      (∀ i < 32, y.lo ≤ i → i ≤ y.hi → (implMask DCL.CTRL).getLsbD i = true) ∧ (y.hi < 29 ∨ 29 < y.lo) := by decide
  obtain ⟨haddr, hhi, hm, hapart⟩ := hmask x hx
  rw [State.f, State.f, haddr, hp.stored_rd, hall, State.contWord, bitsOf_withBits_apart _ _ 1 hhi hm hapart, hp.keepWord, hkeep,
    bitsOf_and hhi hm]

end

/-- What a write of DCL.CTRL does while the supervisor stays enabled. -/
def refresh : M Unit := do
  setAvail
  showLevel

theorem foot_refresh : refresh.In [9, 54] := (foot_setAvail.mono (by decide)).bind fun _ => foot_showLevel

theorem refresh_f {x : FldAt} (hx : x ∈ [DCL.CTRL.EN, DCL.CTRL.CONT_OPEN, DCL.CTRL.CHG_CELL]) : refresh.Fixes fun s => s.f x := by
  have hin : ∀ y ∈ [DCL.CTRL.EN, DCL.CTRL.CONT_OPEN, DCL.CTRL.CHG_CELL],
      y ∈ dclFields ∧ y ≠ DCL.STATUS.CHOP_AVAIL ∧ y ≠ DCL.STATUS.LEVEL := by decide
  obtain ⟨hd, ha, hl⟩ := hin x hx
  exact .bind (setAvail_f hd ha) fun _ => showLevel_fixes (updDcl_f · x) (dclFields_wf hd (by decide) hl)

theorem refresh_beyond : refresh.Fixes State.beyond :=
  .bind setAvail_beyond fun _ => showLevel_fixes (fun _ => hid_beyond _) fun _ => wf_beyond _ _

theorem ctrlWritten_enabled {old : Word} {s : State} (hen : s.f DCL.CTRL.EN = 1) (hold : bitsOf old 31 31 = 1) :
    (ctrlWritten old).Does s () (refresh.run s) := by
  have hd : refresh.Does s () _ := (foot_setAvail.does s).bind (foot_showLevel.does _)
  rw [hd.run]
  exact .read <| (foot_setAvail.does s).bind <| .ite_neg (by simp [hold]) <| .ite_neg (by simp [hen]) <| foot_showLevel.does _

/-- The state in which the supervisor finds the report. -/
def State.reported (r : RegSpec) (x : Word) (u : State) : State := refresh.run (stored r DCL.CTRL x u)

theorem reported_same (r : RegSpec) (x : Word) (u : State) : Same [9, 54] u (u.reported r x) := by
  have hstore : Same [9, 54] u (stored r DCL.CTRL x u) := same_reg [9, 54] DCL.CTRL (storedWord r x (u.rd DCL.CTRL)) u (by decide)
  exact hstore.trans (foot_refresh.run _)

theorem reported_beyond (r : RegSpec) (x : Word) (u : State) : (u.reported r x).beyond = u.beyond :=
  (refresh_beyond.run _).trans (beyond_apply_reg ..)

theorem contEffect_does {r : RegSpec} (hname : r.name = .DCL_CTRL) {x old : Word} {u : State} {all : List Nat}
    (hen : (stored r DCL.CTRL x u).f DCL.CTRL.EN = 1) (hold : bitsOf old 31 31 = 1) (hx : bitsOf x 29 29 = 1) :
    (writeEffect all r DCL.CTRL x old).Does (stored r DCL.CTRL x u) () (contOpen.run (u.reported r x)) := by
  refine .read ?_
  simp only [hname]
  exact (ctrlWritten_enabled hen hold).bind <| .ite_pos hx <| foot_contOpen.does _

theorem contOpen_go : contOpen.Fixes fun s => s.hid.cmd.go := by
  have hopen : (wf DCL.STATUS.LINK_OPEN 1).In [9] := M.In.wf 9 _ _ (by decide) (by decide)
  exact contOpen_fixes unreacted_go <| .ofIn hopen fun _ _ h => congrArg CmdSt.go (h.cmd (by decide) (by decide))

theorem contOpen_keeps (s : State) : Keeps [] ledgerPages s (contOpen.run s) :=
  (foot_contOpen.run s).keeps (contOpen_beyond.run s) (by decide) (by decide)

theorem Same.cellSel {P : List Nat} {s t : State} (h : Same P s t) (hn : 99 ∉ P) (hp : 32 ∉ P) (c : Nat) :
    t.cellSel c = s.cellSel c := by
  have hbyte : ∀ id o, t.tb id o = s.tb id o := fun id o => by rw [State.tb, State.tb, h.tabs hn hp]
  have hroute : t.cellRoute c = s.cellRoute c := by rw [State.cellRoute, State.cellRoute, hbyte]
  have htarget : t.cellTarget c = s.cellTarget c := by simp only [State.cellTarget, State.tn, State.tbs, hbyte]
  rw [State.cellSel, State.cellSel, hroute, htarget]

/-- What was found from a state in which the charging cell and its groups are as they were. -/
theorem LinkOpened.of_same {P : List Nat} {s z t : State} (h : LinkOpened z t) (hs : Same P s z)
    (hn : 99 ∉ P ∧ 32 ∉ P ∧ 44 ∉ P ∧ 17 ∉ P) (hcell : z.f DCL.CTRL.CHG_CELL = s.f DCL.CTRL.CHG_CELL) :
    LinkOpened s t := by
  obtain ⟨h99, h32, h44, h17⟩ := hn
  refine ⟨h.reported, fun g hg hrun => h.stopped g ?_ ((hs.gst h99 h44 g).trans hrun), h.shown,
    h.counted.of_shown (hs.shown 93 h99 h17)⟩
  rwa [hcell, hs.cellSel h99 h32]

theorem LinkOpened.then_sent {s u t : State} (h : LinkOpened s u) (hs : Sent u t) : LinkOpened s t where
  reported := (f_of_rd_eq DCL.CTRL.CONT_OPEN (bare_rd hs.bare (by decide))).trans h.reported
  stopped g hg hrun := (stopped_of_gst (hs.same.gst (by decide) (by decide) g)).trans (h.stopped g hg hrun)
  shown := (f_of_rd_eq DCL.STATUS.LINK_OPEN (bare_rd hs.bare (by decide))).trans h.shown
  counted := h.counted.then_shown (hs.same.shown 93 (by decide) (by decide))

/-- The write of a 1 into CONT_OPEN, as the host makes it. -/
theorem contWrite_opens {s : State} {v : Via} (h : s.accepts v [(DCL.CTRL, s.contWord)] = true) (hen : s.f DCL.CTRL.EN = 1)
    (hcell : s.f DCL.CTRL.CHG_CELL < 72)
    (hany : ((s.cellSel (s.f DCL.CTRL.CHG_CELL)).any fun g => s.gst g == .running) = true) :
    LinkOpened s ((writeField v DCL.CTRL.CONT_OPEN 1).run s) ∧
      Keeps [] ledgerPages s ((writeField v DCL.CTRL.CONT_OPEN 1).run s) := by
  obtain ⟨r, hp, hname, hkeep, hall⟩ := DCL_CTRL_plain
  have hd : (writeField v DCL.CTRL.CONT_OPEN 1).Does s () ((hostWrite v [(DCL.CTRL, s.contWord)]).run s) :=
    .read <| (foot_hostWrite v [(DCL.CTRL, s.contWord)]).does s
  have hbit : bitsOf s.contWord 29 29 = 1 := bitsOf_withBits_same _ 1 (by decide)
  have hfield : ∀ u, ∀ x ∈ [DCL.CTRL.EN, DCL.CTRL.CHG_CELL], (stored r DCL.CTRL s.contWord u).f x = s.f x := fun u x hx =>
    contWord_keeps hp hkeep hall s u hx
  obtain ⟨u, hbook, hsent⟩ := hostWrite_carries hp h (W := fun u => contOpen.run (u.reported r s.contWord))
    (fun u hb => contEffect_does hname ((hfield u _ (by decide)).trans hen)
      ((f_of_rd_eq DCL.CTRL.EN (bare_rd hb.bare (by decide))).trans hen) hbit)
    fun u _ hgo => (contOpen_go.run _).trans <|
      (congrArg CmdSt.go ((reported_same r s.contWord u).cmd (by decide) (by decide))).trans hgo
  rw [hd.run]
  have hsame := (hbook.same.mono (by decide)).trans ((reported_same r s.contWord u).mono (Q := [1, 9, 43, 54]) (by decide))
  have hz : (u.reported r s.contWord).f DCL.CTRL.CHG_CELL = s.f DCL.CTRL.CHG_CELL :=
    ((refresh_f (by decide)).run _).trans (hfield u _ (by decide))
  have hopened : LinkOpened (u.reported r s.contWord) _ := contOpen_opens
    (((refresh_f (x := DCL.CTRL.EN) (by decide)).run _).trans ((hfield u _ (by decide)).trans hen))
    (((refresh_f (x := DCL.CTRL.CONT_OPEN) (by decide)).run _).trans (contWord_reports hp hall s u)) (hz ▸ hcell)
    (by simpa only [hz, hsame.cellSel (by decide) (by decide), hsame.gst (by decide) (by decide)] using hany)
  have hwritten : Keeps [] ledgerPages u (u.reported r s.contWord) :=
    (reported_same r s.contWord u).keeps (reported_beyond ..) (by decide) (by decide)
  refine ⟨(hopened.of_same hsame (by decide) hz).then_sent hsent, ?_⟩
  exact ((hbook.sent.keeps.trans hwritten).trans ((contOpen_keeps _).trans hsent.keeps)).mono (by simp)
    (by decide)

/-! ## The statement -/

theorem dclEvaluation_keeps (s : State) : Keeps [FLD.MCH_STAT 0, FLD.MCH_STAT 1] ledgerPages s (dclEvaluation.run s) :=
  (foot_dclEvaluation.run s).keepsFld (dclEvaluation_beyond.run s) (fun _ ha => (FldWord.dclEvaluation ha).run s) (by decide)
    (by decide)

theorem senseLost_keeps (s : State) : Keeps [FLD.MCH_STAT 0, FLD.MCH_STAT 1] ledgerPages s (senseLost.run s) :=
  (foot_senseLost.run s).keepsFld (senseLost_beyond.run s) (fun _ ha => (FldWord.senseLost ha).run s) (by decide) (by decide)

theorem demandAt_eq {s : State} (h : s.f DCL.CTRL.BATT_BLOCK = 0) : s.demandAt = s.f DCL.LEVELS.L1 :=
  if_neg (by simp [h])

theorem vAtLeast_eq_false {v l : Nat} (h : v < l * 65536) : vAtLeast v l = false := decide_eq_false (Nat.not_le.mpr h)

/-- Settles O44: the link's voltage is judged against the two thresholds as it was read at the evaluation (R242, R243, R247); of
the reaction to an occurrence or to a trip no field of the supervisor but CHOP_AVAIL is told (R245, R246, R252). -/
theorem dcLinkSupervision : Obligations.Dc_link_supervision := by
  unfold Obligations.Dc_link_supervision
  refine ⟨fun s code ha hp hen hcode => ?_, fun s ha hp hen hlost => ?_, ?_, fun s v h => ?_, fun s v h hen hcell hany => ?_⟩
  · refine .of_next rfl ?_
    rw [onIsland_run ha hp (foot_dclEvaluation.does s)]
    obtain ⟨hvdc, hsense, hfaulty, hset, hdrop, hrelease⟩ := (dclEvaluation_shows hen hcode).run
    refine ⟨hvdc, hsense, fun hb hv => hset ?_, fun hb hv => ⟨hdrop ?_, hrelease (vAtLeast_eq_false hv)⟩, hfaulty,
      (dclEvaluation_keeps s).mono (by simp) (List.Subset.refl _)⟩
    · rw [demandAt_eq hb]
      exact decide_eq_true hv
    · rw [demandAt_eq hb]
      exact vAtLeast_eq_false hv
  · refine .of_next rfl ?_
    rw [onIsland_run ha hp (foot_senseLost.does s)]
    obtain ⟨hsense, ⟨hclamp, hengines⟩, hcounted⟩ := (senseLost_shows hen hlost).run
    exact ⟨hsense, hclamp, fun hz => hengines (by rw [hz]; decide), hcounted, senseLost_keeps s⟩
  · rintro s _ ha hp hen ⟨hcell, hgroup⟩ hoff rfl hlow
    refine .of_next rfl ?_
    rw [onIsland_run ha hp ((foot_chopperCheck .offState).does s)]
    obtain ⟨hkind, hcount, hcounted⟩ := (chopperCheck_fails hen hcell hgroup hoff hlow).run
    exact ⟨hkind, hcount, hcounted,
      ((foot_chopperCheck .offState).run s).keeps ((chopperCheck_beyond .offState).run s) (by decide) (by decide)⟩
  · exact .of_checked rfl (via_wf_of_accepts h) (faultyWrite_clears h)
  · obtain ⟨⟨hreported, hstopped, hshown, hcounted⟩, hkeeps⟩ := contWrite_opens h hen hcell hany
    exact .of_checked rfl (via_wf_of_accepts h) ⟨hreported, hstopped, hshown, hcounted, hkeeps⟩

end Sys2Proof.Machine
end

section
/-! Statement O45, refuted: a resolver update in whose position clock the emulation of the same unit is held, and with it the
machine that waits for its trigger to be resolved. -/

namespace Sys2Proof.Machine

/-- A result of converter 0 for a slot. -/
def peakSample (slot code : Nat) : Sample := ⟨slot, code, 1, 0, false, false, false, false⟩

/-- Unit 0 is a VALID resolver unit whose slots 1 and 2 hold good results, and the machine of group 3, which is RUNNING, uses
it. Trigger compare 0 follows channel 5 of that group; its trigger has fired and is provisional, and the next result of slot 1
is held for it. The emulation of unit 0 is 5,000 counts behind, and table 0x60 gives PT_OVERRUN the class GROUP_SAFE with
N = 1. -/
def laggingEmulation : State :=
  M.run (do
    wf (SYS.ISLAND.STATE 6) 2
    wtab 0x30 (8 * 5) [3, 0]
    updGrp 3 fun r => { r with st := .running }
    wf (PLS.TRG_CFG.EN 0 0) 1
    wf (PLS.TRG_CFG.MODE 0 0) 1
    wf (PLS.TRG_CFG.REF_CH 0 0) 5
    updTrg 0 fun r => { r with now := { r.now with fired := true, prov := true }, last := .held }
    wf (FLD.MCH_CFG.EN 0) 1
    wf (FLD.MCH_CFG.GROUP 0) 3
    wf (POS.PU_CFG.MODE 0) 1
    wf (POS.PU_STAT.STATE 0) 2
    wf (POS.RES_SLOT.SIN_SLOT 0) 1
    wf (POS.RES_SLOT.COS_SLOT 0) 2
    deliver (peakSample 1 0x9000) false
    deliver (peakSample 2 0x9000) false
    hid fun h => { h with mea := { h.mea with held := [(0, peakSample 1 0xA000)] } }
    wf (POS.PT_CFG.MODE 0) 2
    updPt 0 fun r => { r with emitted := -5000 }
    wtab 0x60 (8 * 107) [1, 2, 1])
    linkUp

theorem laggingEmulation_decodes : laggingEmulation.awake = true ∧ laggingEmulation.present 6 = true ∧
    laggingEmulation.puMode (0 : Fin 2) = 1 ∧ laggingEmulation.puState (0 : Fin 2) = 2 := by
  decide +kernel

theorem laggingEmulation_hasGoodResults :
    ([laggingEmulation.f (POS.RES_SLOT.SIN_SLOT (0 : Fin 2)), laggingEmulation.f (POS.RES_SLOT.COS_SLOT (0 : Fin 2))].any fun x =>
      laggingEmulation.slotBad x || laggingEmulation.slotRefBad x) = false ∧
    (laggingEmulation.pu (0 : Fin 2)).cosSeen <
      laggingEmulation.slotStamp (laggingEmulation.f (POS.RES_SLOT.SIN_SLOT (0 : Fin 2))) ∧
    (0x1000 : Int) = (laggingEmulation.slotVal (laggingEmulation.f (POS.RES_SLOT.SIN_SLOT (0 : Fin 2))) : Int) - 0x8000 ∧
    (0x1000 : Int) = (laggingEmulation.slotVal (laggingEmulation.f (POS.RES_SLOT.COS_SLOT (0 : Fin 2))) : Int) - 0x8000 := by
  decide +kernel

theorem laggingEmulation_withinLimits :
    (8 * laggingEmulation.f (POS.RES_LIM.AMP_LO (0 : Fin 2))) ^ 2 ≤ ((0x1000 : Int) * 0x1000 + 0x1000 * 0x1000).toNat ∧
    ((0x1000 : Int) * 0x1000 + 0x1000 * 0x1000).toNat ≤ (8 * laggingEmulation.f (POS.RES_LIM.AMP_HI (0 : Fin 2))) ^ 2 := by
  decide +kernel

/-- R174, R277, R408: PT_OVERRUN turns lasting, group 3 is forced, its trigger is cancelled, and the held result comes to slot 1
as STALE before the update reads it. -/
theorem resolverUpdate_skipsReleased :
    ((onIsland 6 (resolverUpdate 0 0 0)).run laggingEmulation).f (POS.RES_STAT.SKIPPED (0 : Fin 2)) = 1 ∧
      laggingEmulation.f (POS.RES_STAT.SKIPPED (0 : Fin 2)) = 0 := by
  decide +kernel

/-- Refutes O45: an update brings its unit to the position clock of the cos result, and there the emulation of the unit may turn
out to be more than 4,096 counts behind (R277). The class of a lasting PT_OVERRUN is the integrator's to load (R406); with
GROUP_SAFE it cancels the provisional triggers of the groups that use the unit (R106, R111), and the results held for them
are written as STALE (R174). The second clause has good results before the command be shown, and SKIPPED stay. -/
theorem not_positionUnitsDecode : ¬ Obligations.Position_units_decode := by
  unfold Obligations.Position_units_decode
  rintro ⟨-, hupdate, -⟩
  obtain ⟨hawake, hpres, hmode, hvalid⟩ := laggingEmulation_decodes
  obtain ⟨hgood, hnew, hsin, hcos⟩ := laggingEmulation_hasGoodResults
  obtain ⟨t, ht, -, hsame, -⟩ := hupdate laggingEmulation 0 0 0 0x1000 0x1000 (by decide) hawake hpres
    ⟨hmode, .inr hvalid⟩ hgood hnew ⟨hsin, hcos⟩ laggingEmulation_withinLimits
  obtain ⟨hone, hzero⟩ := resolverUpdate_skipsReleased
  rw [exec_next_eq ht (m := onIsland 6 (resolverUpdate 0 0 0)) rfl, hone, hzero] at hsame
  exact absurd hsame (by decide)

end Sys2Proof.Machine
end

section
/-! Statement O46, refuted: PT_FAULT_CLEAR of a pass-through without a fault. -/

namespace Sys2Proof.Machine

/-- In legacy mode, with the position island PRESENT, pass-through 0 emulates unit 0, a VALID resolver unit. The unit has moved on
by one count of the emulation, which waits to be emitted; there is no fault. -/
def waitingCount : State :=
  M.run (do
    wf SYS.STATUS.HOSTMODE 0
    wf (SYS.ISLAND.STATE 6) 2
    wf (POS.PU_CFG.MODE 0) 1
    wf (POS.PU_STAT.STATE 0) 2
    wf (POS.PT_CFG.MODE 0) 2
    updPu 0 fun r => { r with acc := 2 ^ 52 })
    linkUp

theorem waitingCount_accepts : waitingCount.accepts .legacy
    [(POS.PU_STAT (0 : Fin 6), withBits (waitingCount.keepWord (POS.PU_STAT (0 : Fin 6))) 27 27 1)] = true := by
  decide +kernel

/-- R277: without a fault there is nothing to clear, and the emulation goes on where it is. -/
theorem ptFaultClear_leavesWaiting :
    (((writeField .legacy (POS.PU_STAT.PT_FAULT (0 : Fin 6)) 1).run waitingCount).pt (0 : Fin 6)).emitted = 0 ∧
      waitingCount.emuCount (0 : Fin 6) = 1 := by
  decide +kernel

/-- Refutes O46: the emulation restarts at the present position where PT_FAULT is cleared (R277). A 1 written into a PT_FAULT that
is 0 clears nothing, and a count that waits is still to be emitted; the clause of PT_FAULT_CLEAR does not ask for a fault and
has the emulation restart in every state. -/
theorem not_positionOutputsAndRestarts : ¬ Obligations.Position_outputs_and_restarts := by
  unfold Obligations.Position_outputs_and_restarts
  rintro ⟨-, -, -, hclear, -⟩
  obtain ⟨t, ht, -, -, hrestarted, -⟩ := hclear waitingCount .legacy 0 waitingCount_accepts
  obtain ⟨hemitted, hpresent⟩ := ptFaultClear_leavesWaiting
  rw [exec_next_eq ht (m := writeField .legacy (POS.PU_STAT.PT_FAULT (0 : Fin 6)) 1) rfl, hemitted, hpresent] at hrestarted
  exact absurd hrestarted (by decide)

end Sys2Proof.Machine
end

section
/-! Statement O47, refuted: LOCK of a lock that is locked already, while a charging session waits for it. -/

namespace Sys2Proof.Machine

/-- In legacy mode, with the actuator island PRESENT, group 3 is ARMED and drives the charge-port lock, which stands IDLE with its
switch closed. The charging interface is PLUGGED with START pending, the pilot shows state B with PWM and the cable is coded for
32 A. -/
def pluggedSession : State :=
  M.run (do
    wf SYS.STATUS.HOSTMODE 0
    wf (SYS.ISLAND.STATE 5) 2
    wf (PLS.GRP_CFG.OWNER 3) 4
    updGrp 3 fun r => { r with st := .armed }
    wf ACT.CPL_CFG.EN 1
    wf ACT.CPL_CFG.GROUP 3
    wf ACT.CPL_STAT.SW 1
    wf CHG.CFG.EN 1
    wf CHG.CFG.BTN_REQ 0
    wf CHG.STATUS.STATE 1
    wf CHG.STATUS.START_PEND 1
    wf CHG.PILOT.STATE 1
    wf CHG.PILOT.PWM 1
    wf CHG.PP.I_PP 32)
    linkUp

/-- LOCK is accepted with the lock standing; with it LOCKED the session starts connecting, and the metering session opens (R315, R336). -/
theorem pluggedSession_opensMeter : pluggedSession.accepts .legacy
      [(ACT.CPL_CMD, withBits (pluggedSession.keepWord ACT.CPL_CMD) 31 30 1)] = true ∧
    pluggedSession.cplGroup.isSome = true ∧
    (pluggedSession.f ACT.CPL_STAT.STATE ≠ 1 ∧ pluggedSession.f ACT.CPL_STAT.STATE ≠ 2) ∧
    pluggedSession.hid.act.cplNext = none ∧
    ((writeField .legacy ACT.CPL_CMD.CMD 1).run pluggedSession).rd MTR.STATUS ≠ pluggedSession.rd MTR.STATUS := by
  decide +kernel

/-- Refutes O47: LOCK of a lock whose switch reads closed ends at once in LOCKED, and a session that waits for LOCKED goes
on to connect then (R315, R317), which opens a metering session (R336). The clause of CPL_LOCK has nothing but pages 0x01, 0x0C
and 0x14 and the lock's own parameters change, in every state; MTR.STATUS changes too. -/
theorem not_actuatorsAndLockMove : ¬ Obligations.Actuators_and_lock_move := by
  unfold Obligations.Actuators_and_lock_move
  rintro ⟨-, -, -, -, -, -, -, -, -, -, -, hlock, -⟩
  obtain ⟨haccepts, hgroup, hstands, hnext, hmeter⟩ := pluggedSession_opensMeter
  obtain ⟨t, ht, -, -, hkeeps⟩ := hlock pluggedSession .legacy haccepts hgroup hstands hnext
  have hsame := hkeeps.rd MTR.STATUS (by decide) (by decide)
  rw [exec_next_eq ht (m := writeField .legacy ACT.CPL_CMD.CMD 1) rfl] at hsame
  exact hmeter hsame

end Sys2Proof.Machine
end

section
/-! SUPPORT. Computations along which a relation of the states before and after holds, and frames as such a relation. -/

namespace Sys2Proof.Machine

/-- From every state the computation ends in one that `ρ` relates to it. -/
def M.Along {α : Type} (m : M α) (ρ : State → State → Prop) : Prop := ∀ s, m.Ends s fun _ t => ρ s t

/-- A first part of which as much is known as `Q` says. -/
theorem M.Ends.seq {α β : Type} {m : M α} {f : α → M β} {s : State} {Q : α → State → Prop} {P : β → State → Prop}
    (h : m.Ends s Q) (h' : ∀ a t, Q a t → (f a).Ends t P) : (m >>= f).Ends s P := by
  obtain ⟨a, t, hd, hq⟩ := h
  exact .bind hd (h' a t hq)

/-- A relation that holds along any two computations in turn where it holds along each. -/
structure Ongoing (ρ : State → State → Prop) : Prop where
  refl : ∀ s, ρ s s
  trans : ∀ {s t u}, ρ s t → ρ t u → ρ s u

theorem M.Along.run {ρ : State → State → Prop} {m : M Unit} (h : m.Along ρ) (s : State) : ρ s (m.run s) :=
  M.Ends.run (P := fun _ t => ρ s t) (h s)

theorem M.Along.does {ρ : State → State → Prop} {m : M Unit} (h : m.Along ρ) (s : State) : m.Does s () (m.run s) := by
  obtain ⟨_, t, hd, -⟩ := h s
  rw [hd.run]
  exact hd

/-- What a computation of known places can do is related. -/
theorem M.Along.ofIn {α : Type} {P : List Nat} {ρ : State → State → Prop} {m : M α} (h : m.In P)
    (h' : ∀ s t, Same P s t → ρ s t) : m.Along ρ := fun s => by
  obtain ⟨a, t, hd, hs⟩ := h s
  exact ⟨a, t, hd, h' s t hs⟩

theorem M.Along.ofFixes {α β : Type} {π : State → β} {ρ : State → State → Prop} {m : M α} (h : m.Fixes π)
    (h' : ∀ s t, π t = π s → ρ s t) : m.Along ρ := fun s => by
  obtain ⟨a, t, hd, hs⟩ := h.does s
  exact ⟨a, t, hd, h' s t hs⟩

theorem M.Ends.ofAlong {α : Type} {ρ : State → State → Prop} {m : M α} {s : State} {P : α → State → Prop} (h : m.Along ρ)
    (hp : ∀ a t, ρ s t → P a t) : m.Ends s P := by
  obtain ⟨a, t, hd, hs⟩ := h s
  exact ⟨a, t, hd, hp a t hs⟩

theorem M.Ends.ofIn {α : Type} {L : List Nat} {m : M α} {s : State} {P : α → State → Prop} (h : m.In L)
    (hp : ∀ a t, Same L s t → P a t) : m.Ends s P := by
  obtain ⟨a, t, hd, hs⟩ := h s
  exact ⟨a, t, hd, hp a t hs⟩

/-- What is known of the end, and a relation that holds along the way. -/
theorem M.Ends.along {α : Type} {ρ : State → State → Prop} {m : M α} {s : State} {P : α → State → Prop} (h : m.Ends s P)
    (h' : m.Along ρ) : m.Ends s fun a t => P a t ∧ ρ s t := by
  obtain ⟨a, t, hd, hp⟩ := h
  obtain ⟨b, u, hd', hs⟩ := h' s
  exact ⟨a, t, hd, hp, hd.unique hd' ▸ hs⟩

/-- Two relations that hold along a computation hold along it together. -/
theorem M.Along.and {α : Type} {ρ σ : State → State → Prop} {m : M α} (h : m.Along ρ) (h' : m.Along σ) :
    m.Along fun s t => ρ s t ∧ σ s t := fun s => by
  obtain ⟨a, t, hd, hs⟩ := h s
  obtain ⟨b, u, hd', hs'⟩ := h' s
  exact ⟨a, t, hd, hs, hd.unique hd' ▸ hs'⟩

theorem M.Along.mono {α : Type} {ρ σ : State → State → Prop} {m : M α} (h : m.Along ρ) (h' : ∀ s t, ρ s t → σ s t) :
    m.Along σ := fun s => by
  obtain ⟨a, t, hd, hs⟩ := h s
  exact ⟨a, t, hd, h' s t hs⟩

theorem M.Along.read {α : Type} {ρ : State → State → Prop} {f : State → M α} (h : ∀ s, (f s).Along ρ) :
    (Machine.getS >>= f).Along ρ := fun s => .read (h s s)

theorem M.Along.ite {α : Type} {ρ : State → State → Prop} {c : Prop} [Decidable c] {m n : M α} (h : m.Along ρ)
    (h' : n.Along ρ) : (if c then m else n).Along ρ := by
  split <;> assumption

theorem M.Along.act {ρ : State → State → Prop} {a : Act} (h : ∀ s, ρ s (a.apply s)) : (Machine.act a).Along ρ :=
  fun s => ⟨(), a.apply s, M.does_act a s, h s⟩

namespace Ongoing

variable {α β : Type} {ρ : State → State → Prop} (k : Ongoing ρ)
include k

theorem pure (a : α) : (Pure.pure a : M α).Along ρ := fun s => ⟨a, s, M.does_pure a s, k.refl s⟩

theorem bind {m : M α} {f : α → M β} (h : m.Along ρ) (h' : ∀ a, (f a).Along ρ) : (m >>= f).Along ρ := fun s => by
  obtain ⟨a, t, hd, hs⟩ := h s
  obtain ⟨b, u, hd', hs'⟩ := h' a t
  exact ⟨b, u, hd.bind hd', k.trans hs hs'⟩

theorem when {c : Prop} [Decidable c] {m : M Unit} (h : m.Along ρ) : (if c then m else Pure.pure ()).Along ρ :=
  M.Along.ite h (k.pure ())

theorem thenMore {c : Prop} [Decidable c] {m : M Unit} {f : Unit → M β} (h : m.Along ρ) (h' : ∀ u, (f u).Along ρ) :
    (if c then m >>= f else f ()).Along ρ := M.Along.ite (k.bind h h') (h' ())

theorem forM {f : α → M Unit} (h : ∀ x, (f x).Along ρ) : ∀ l : List α, (l.forM f).Along ρ
  | [] => k.pure ()
  | x :: l => k.bind (h x) fun _ => forM h l

end Ongoing

/-! ## Frames -/

theorem Keeps.ongoing (as ps : List Nat) : Ongoing (Keeps as ps) :=
  ⟨fun _ => ⟨fun _ _ _ => rfl, rfl, rfl, rfl, rfl⟩, fun h h' => (h.trans h').mono (by simp) (by simp)⟩

theorem M.Along.keepsOutside {α : Type} {m : M α} {as : List Nat} (ps : List Nat) (h : m.Fixes (State.outside as)) :
    m.Along (Keeps as ps) := .ofFixes h fun _ _ hs => (Keeps.ofOutside hs).mono (List.Subset.refl _) (List.nil_subset _)

theorem M.Along.keepsHid (as ps : List Nat) (f : Hidden → Hidden) : (hid f).Along (Keeps as ps) :=
  .keepsOutside ps (.act fun _ => rfl)

theorem M.Along.keepsWr {as : List Nat} (ps : List Nat) {a : Nat} (w : Word) (h : a ∈ as) : (wr a w).Along (Keeps as ps) :=
  .keepsOutside ps (.wrOutside w h)

theorem M.Along.keepsWf {as : List Nat} (ps : List Nat) {x : FldAt} (v : Nat) (h : x.addr ∈ as) : (wf x v).Along (Keeps as ps) :=
  .keepsOutside ps (.wfOutside v h)

theorem M.Along.keepsInc {as : List Nat} (ps : List Nat) {x : FldAt} (h : x.addr ∈ as) : (inc x).Along (Keeps as ps) :=
  .keepsOutside ps (.incOutside h)

/-- A footprint gives a frame, whatever single parameters may change besides. -/
theorem M.Along.keepsIn {α : Type} {m : M α} {P : List Nat} (as : List Nat) {ps : List Nat} (h : m.In P)
    (hb : m.Fixes State.beyond) (hp : ∀ p ∈ P, p < 23 → p ∈ ps) (hn : 99 ∉ P ∧ 32 ∉ P ∧ 34 ∉ P ∧ 36 ∉ P) :
    m.Along (Keeps as ps) :=
  ((M.Along.ofIn h fun _ _ hs => hs).and (.ofFixes hb fun _ _ hs => hs)).mono fun _ _ hs =>
    (hs.1.keeps hs.2 hp hn).mono (List.nil_subset _) (List.Subset.refl _)

/-- A write on one of the pages. -/
theorem M.Along.keepsPage (as : List Nat) {ps : List Nat} {x : FldAt} (v : Nat) (h : x.addr / 65536 ∈ ps) :
    (wf x v).Along (Keeps as ps) := fun s => by
  obtain ⟨_, t, hd, hs⟩ := (M.Along.keepsWf (as := [x.addr]) [] v (List.mem_singleton.mpr rfl)) s
  refine ⟨_, t, hd, fun a _ ha => hs.rd a (fun hin => ha ?_) List.not_mem_nil, hs.tabs, hs.vio, hs.chg, hs.pending⟩
  rw [List.mem_singleton.mp hin]
  exact h

theorem M.Along.keepsPageInc (as : List Nat) {ps : List Nat} {x : FldAt} (h : x.addr / 65536 ∈ ps) :
    (inc x).Along (Keeps as ps) := .read fun _ => (Keeps.ongoing as ps).when (.keepsPage as _ h)

/-- What sends an event leaves everything but the pages of events. -/
theorem eventDev_keeps (as : List Nat) (op : Nat) (body : List Byte) : (eventDev op body).Along (Keeps as eventPages) :=
  .keepsIn as (foot_eventDev op body) (event_link ..).bare.beyondOfBare (by decide) (by decide)

/-- Single parameters that lie on the pages of a frame need not be named. -/
theorem Keeps.paged {as ps qs : List Nat} {s t : State} (h : Keeps as ps s t) (ha : ∀ a ∈ as, a / 65536 ∈ qs) (hp : ps ⊆ qs) :
    Keeps [] qs s t :=
  ⟨fun a _ hq => h.rd a (fun hin => hq (ha a hin)) fun hin => hq (hp hin), h.tabs, h.vio, h.chg, h.pending⟩

/-- The word as it is stored, and the rest as it was. -/
theorem stored_keeps (r : RegSpec) (a : Nat) (x : Word) (s : State) : Keeps [a] [] s (stored r a x s) :=
  .ofOutside <| (M.Fixes.wrOutside (storedWord r x (s.rd a)) (List.mem_singleton.mpr rfl)).run s

end Sys2Proof.Machine
end

section
/-! Statement O15: the ledger judges occurrences (R402, R408, R410). -/

namespace Sys2Proof.Machine

/-! ## The LASTING words -/

theorem FLG.LASTING_whole (src : Fin 256) :
    (regAt (FLG.LASTING src)).isSome = true ∧ implMask (FLG.LASTING src) = BitVec.allOnes 32 := by
  revert src
  decide +kernel

/-- A LASTING word takes any number whole. -/
theorem rd_apply_LASTING (src : Fin 256) {n : Nat} (hn : n < 2 ^ 32) (s : State) :
    (((Act.reg (FLG.LASTING src) (BitVec.ofNat 32 n)).apply s).rd (FLG.LASTING src)).toNat = n := by
  obtain ⟨hmap, hmask⟩ := FLG.LASTING_whole src
  rw [rd_apply_reg_same _ _ s hmap, hmask, BitVec.and_allOnes, BitVec.toNat_ofNat, Nat.mod_eq_of_lt hn]

/-- An occurrence that makes its pair lasting sets the bit, and the reaction leaves it. -/
theorem lasting_set (src : Fin 256) {inst : Nat} (hi : inst < 32) (w : Word) (s : State) :
    ((Act.reg (FLG.LASTING src) (BitVec.ofNat 32 (setBit w.toNat inst))).apply s).lasting src inst = true := by
  rw [State.lasting, rd_apply_LASTING src (setBit_lt w.isLt hi), bit_setBit]
  simp

/-! ## The judgement -/

/-- Whether the `n`-th last occurrence of a pair, one now among them, lies within W (R402). -/
def State.withinW (s : State) (src inst n : Nat) : Bool :=
  match (s.hid.now :: (mget ({} : Hist) s.hid.flg.hist (src * 256 + inst)).times)[n - 1]? with
  | some t0 => decide (s.hid.now - t0 < s.ledW src * 1000)
  | none => false

/-- Whether an occurrence now makes a pair lasting. -/
def State.turnsLasting (s : State) (src inst : Nat) : Bool :=
  !s.lasting src inst && (decide (0 < s.ledN src) && (s.ledN src == 1 || s.withinW src inst (s.ledN src)))

theorem ofLe_singleton (b : Byte) : ofLe [b] = b.toNat := by simp [ofLe]

theorem ledN_lt (s : State) (src : Nat) : s.ledN src < 256 := by
  have h : s.ledN src = (s.tb 0x60 (8 * src)).toNat := ofLe_singleton _
  rw [h]
  exact (s.tb 0x60 (8 * src)).isLt

/-- The 255 times that the ledger keeps suffice for every N. -/
theorem kept_times (s : State) (src : Nat) (l : List Nat) : (l.take 255)[s.ledN src - 1]? = l[s.ledN src - 1]? :=
  List.getElem?_take_of_lt (by have := ledN_lt s src; omega)

/-- Counting an occurrence writes the OCCUR word of its source alone. -/
theorem counted_leaves (src : Nat) (w : Word) (s : State) {a : Nat} (ha : a ≠ FLG.OCCUR src) :
    ((Act.reg (FLG.OCCUR.LAST_INSTANCE src).addr w).apply ((inc (FLG.OCCUR.OCCURRENCES src)).run s)).rd a = s.rd a :=
  (rd_apply_reg_other _ _ _ _ ha).trans <|
    (Keeps.ofOutside ((M.Fixes.incOutside (x := FLG.OCCUR.OCCURRENCES src) (List.mem_singleton.mpr rfl)).run s)).rd a
      (fun hin => ha (List.mem_singleton.mp hin)) List.not_mem_nil

/-- The pages but that of the ledger hold no LASTING word. -/
theorem FLG.LASTING_off (src : Nat) {P : List Nat} (h : 17 ∉ P) : FLG.LASTING src / 65536 ∉ P := (FLG.LASTING_page src).symm ▸ h

theorem LASTING_ne_STATUS1 (src : Fin 256) : FLG.LASTING src ≠ FLG.STATUS1 := by
  simp only [FLG.LASTING, FLG.STATUS1, arr, src.isLt, Nat.zero_le, and_self, if_true]
  omega

theorem setLastingSrc_lasting (src : Fin 256) : setLastingSrc.Fixes (State.rd · (FLG.LASTING src)) :=
  .read fun _ => .bind (.wfRd _ (LASTING_ne_STATUS1 src)) fun _ => .rdIn foot_setAttn (by decide) (FLG.LASTING_off _ (by decide))

theorem queueEntry_lasting (src : Fin 256) (e : FltEntry) (lasting : Bool) :
    (queueEntry e lasting).Fixes (State.rd · (FLG.LASTING src)) :=
  .read fun _ => .ite (.rdIn (M.In.fltQueue (P := [35]) _ _ (by decide)) (by decide) (FLG.LASTING_off _ (by decide)))
    (.incRd (LASTING_ne_STATUS1 src))

theorem ledgerEvent_lasting (src : Fin 256) (e : FltEntry) : (ledgerEvent e).Fixes (State.rd · (FLG.LASTING src)) :=
  .rdIn (foot_ledgerEvent e) (by decide) (FLG.LASTING_off _ (by decide))

/-- What follows the LASTING word of a source in an occurrence leaves it, and answers that the pair turned lasting. -/
theorem lasting_left (src : Fin 256) (e : FltEntry) (cls inst : Nat) (s : State) :
    (do
      inc (FLG.OCCUR.LASTINGS src)
      setLastingSrc
      queueEntry e true
      ledgerEvent e
      react cls src inst
      return true : M Bool).Ends s fun turned t => turned = true ∧ t.rd (FLG.LASTING src) = s.rd (FLG.LASTING src) := by
  have hne : FLG.LASTING src ≠ FLG.OCCUR src := (FLG.OCCUR_apart src).1.symm
  have hreact := M.Fixes.rdIn (foot_react cls src inst) (by decide) (FLG.LASTING_off src (by decide))
  exact .after (.incRd hne) fun _ _ h₁ => .after (setLastingSrc_lasting src) fun _ _ h₂ =>
    .after (queueEntry_lasting src e true) fun _ _ h₃ => .after (ledgerEvent_lasting src e) fun _ _ h₄ =>
    .after hreact fun _ _ h₅ => .ofDoes (M.does_pure _ _) ⟨rfl, h₅.trans (h₄.trans (h₃.trans (h₂.trans h₁)))⟩

/-- R402: the answer tells whether the pair turned lasting, and only then does more than the count of the source change. -/
theorem occurrence_judges (src : Fin 256) {inst : Nat} (hi : inst < 32) (detail : Nat) (s : State) :
    (occurrence src inst detail).Ends s fun turned t => turned = s.turnsLasting src inst ∧
      t.lasting src inst = (s.lasting src inst || turned) ∧
      (turned = false → ∀ a, a ≠ FLG.OCCUR src → t.rd a = s.rd a) := by
  have hne : FLG.LASTING src ≠ FLG.OCCUR src := (FLG.OCCUR_apart src).1.symm
  have hinc : (inc (FLG.OCCUR.OCCURRENCES src)).In [17] := M.In.inc 17 _ (FLG.OCCUR_page _) (by decide)
  have hturns : (!s.lasting src inst && decide (0 < s.ledN src) && (s.ledN src == 1 ||
      match ((s.hid.now :: (mget ({} : Hist) s.hid.flg.hist (src * 256 + inst)).times).take 255)[s.ledN src - 1]? with
      | some t0 => decide (s.hid.now - t0 < s.ledW src * 1000)
      | none => false)) = s.turnsLasting src inst := by
    rw [kept_times, Bool.and_assoc]
    rfl
  refine .read <| .bind (hinc.does s) <| .bind (M.does_wf _ _ _) <| .bind (M.does_hid _ _) ?_
  cases hturned : s.turnsLasting src inst with
  | true =>
    refine .ite_pos (hturns.trans hturned) <| .bind (M.does_wr _ _ _) ?_
    obtain ⟨turned, t, hd, rfl, hleft⟩ := lasting_left src
      ⟨s.ms, s.f SYS.BOOT.BOOTS, src, inst, 2, s.ledClass src, 1, detail⟩ (s.ledClass src) inst ((Act.reg (FLG.LASTING src) _).apply _)
    refine .ofDoes hd ⟨rfl, ?_, fun h => absurd h (by decide)⟩
    rw [Bool.or_true]
    exact (congrArg (fun w : Word => bit w.toNat inst) hleft).trans (lasting_set src hi _ _)
  | false =>
    refine .ite_neg (fun hc => absurd (hc.symm.trans (hturns.trans hturned)) (by decide)) <| .bind (M.does_hid _ _) <|
      .ofDoes (M.does_pure _ _) ⟨rfl, ?_, fun _ a ha => ?_⟩
    · rw [Bool.or_false]
      exact congrArg (fun w : Word => bit w.toNat inst) (counted_leaves src _ s hne)
    · exact counted_leaves src _ s ha

/-- Settles O15: an occurrence is counted, and makes its pair lasting exactly as R402 and R408 say. -/
theorem ledgerJudgesOccurrences : Obligations.Ledger_judges_occurrences := by
  unfold Obligations.Ledger_judges_occurrences
  intro s src inst detail hsrc hinst
  obtain ⟨turned, t, hd, hturned, hlasting, hleft⟩ := occurrence_judges ⟨src, hsrc⟩ hinst detail s
  have hrun : (occur src inst detail).run s = t := (hd.bind (M.does_pure () t)).run
  rw [hrun]
  refine ⟨hrun ▸ occur_counted ⟨src, hsrc⟩ ⟨inst, by omega⟩ detail s, ?_, fun hsame => hleft ?_⟩
  · rw [hlasting, hturned, State.turnsLasting]
    cases s.lasting src inst <;> rfl
  · rw [hlasting, hturned, State.turnsLasting] at hsame
    rw [hturned, State.turnsLasting]
    cases hbefore : s.lasting src inst with
    | true => rfl
    | false => simpa [hbefore] using hsame

end Sys2Proof.Machine
end

section
/-! Statement O48, refuted: the COMMIT of an evaluation confirms a run-ahead trigger whose result is held. -/

namespace Sys2Proof.Machine

/-- Group 3 is ARMED and belongs to the active front end, whose four currents all come from slot 0, which has a result; slot 1 has
the voltage of phase A. A window of timebase 0 has begun, and the phase-locked loop stands at angle and frequency 0.
Trigger compare 0 follows the shadows of channel 5 of that group and runs ahead; its trigger has fired and is provisional, and the next result of slot 1 is held for it. -/
def heldSample : State :=
  M.run (do
    wf (SYS.ISLAND.STATE 4) 2
    wtab 0x30 (8 * 5) [3, 0]
    updGrp 3 fun r => { r with st := .armed }
    wf (PLS.GRP_CFG.OWNER 3) 3
    wf FLD.AFE_CFG.EN 1
    wf FLD.AFE_CFG.GROUP 3
    updTb 0 fun r => { r with wins := 1 }
    updAfe fun r => { r with tracking := true, theta := Fl.zero, omega := Fl.zero }
    deliver (peakSample 0 0x8000) false
    wf FLD.AFE_SLOT.VA 1
    wf FLD.AFE_SCALE.V_GAIN 0x2000
    deliver (peakSample 1 0x9000) false
    wf (PLS.TRG_CFG.EN 0 0) 1
    wf (PLS.TRG_CFG.MODE 0 0) 1
    wf (PLS.TRG_CFG.SRC 0 0) 1
    wf (PLS.TRG_CFG.REF_CH 0 0) 5
    updTrg 0 fun r => { r with now := { r.now with fired := true, prov := true }, last := .held }
    hid fun h => { h with mea := { h.mea with held := [(0, peakSample 1 0xA000)] } })
    linkUp

/-- The evaluation is due and has its currents; the commit that carries its duties confirms the trigger, and the result held for it is
written (R110, R174). -/
theorem heldSample_writesResult : heldSample.awake = true ∧ heldSample.present 4 = true ∧ heldSample.f FLD.AFE_CFG.EN = 1 ∧
    (heldSample.f FLD.AFE_CFG.GROUP = 3 ∧ heldSample.owner 3 = 3 ∧ heldSample.gst 3 = .armed) ∧
    heldSample.hid.afe.win ≠ (heldSample.tbase (heldSample.grpTb 3)).wins ∧
    ([heldSample.f FLD.AFE_ISLOT.IA, heldSample.f FLD.AFE_ISLOT.IB, heldSample.f FLD.AFE_ISLOT.IC,
      heldSample.f FLD.AFE_ISLOT.IN].all fun r => (heldSample.codeSince r heldSample.hid.afe.begun).isSome) = true ∧
    ((heldSample.grpTbs 3).all fun k => !(heldSample.tbase k).late) = true ∧ 3 ∉ heldSample.hid.pls.committed ∧
    ((onIsland 4 afeEvaluation).run heldSample).rd (MEA.RESULT 1) ≠ heldSample.rd (MEA.RESULT 1) := by
  decide +kernel

/-- Refutes O48: a run-ahead trigger of the front end's group fires before the duties that place it are committed, and the results
of its runs are held (R110). The commit of an evaluation confirms the trigger and releases them (R174), which writes their slots; the
last clause has pages 0x01, 0x03 and 0x14 and FLD.AFE_STAT alone change, in every state. -/
theorem not_frontEndTracksAndEvaluates : ¬ Obligations.Front_end_tracks_and_evaluates := by
  unfold Obligations.Front_end_tracks_and_evaluates
  rintro ⟨-, -, hcommit⟩
  obtain ⟨hawake, hpres, hen, hgroup, hnew, hcur, hlate, hfree, hresult⟩ := heldSample_writesResult
  obtain ⟨t, ht, -, -, -, -, -, hkeeps⟩ := hcommit heldSample 3 hawake hpres hen hgroup hnew hcur hlate hfree
  have hsame := hkeeps.rd (MEA.RESULT 1) (by decide) (by decide)
  rw [exec_next_eq ht (m := onIsland 4 afeEvaluation) rfl] at hsame
  exact hresult hsame

end Sys2Proof.Machine
end

section
/-! Statement O50: metering (R330, R332 to R335, R337, R338, R342). -/

namespace Sys2Proof.Machine

theorem MTR_fields : ∀ x ∈ [MTR.LAST.RSEQ, MTR.ACK.RSEQ, MTR.LOST.LOST_SUBWIN, MTR.STATUS.RING_FULL], x.Real := by
  decide

/-! ## Sub-windows (R330, R332) -/

theorem f_whole (a : Nat) (s : State) : s.f ⟨a, 31, 0⟩ = (s.rd a).toNat := by
  have := (s.rd a).isLt
  show (s.rd a).toNat / 2 ^ 0 % 2 ^ (31 + 1 - 0) = (s.rd a).toNat
  omega

/-- LOST_SUBWIN takes no more than it holds where no sub-window is missing. -/
theorem lost_none_keeps : (incBy MTR.LOST.LOST_SUBWIN 0).Along (Keeps [] []) := fun s => by
  have hd : (incBy MTR.LOST.LOST_SUBWIN 0).Does s () _ := (M.does_rf MTR.LOST.LOST_SUBWIN s).bind (M.does_wf _ _ s)
  have hk := (M.Along.keepsOutside (as := [MTR.LOST]) [] (M.Fixes.incByOutside (x := MTR.LOST.LOST_SUBWIN) 0
    (List.mem_singleton.mpr rfl))).run s
  have hsame : ((incBy MTR.LOST.LOST_SUBWIN 0).run s).rd MTR.LOST = s.rd MTR.LOST := by
    apply BitVec.eq_of_toNat_eq
    rw [← f_whole, ← f_whole, hd.run]
    refine (f_wf_same (MTR_fields MTR.LOST.LOST_SUBWIN (by decide)) _ s).trans ?_
    have := f_lt MTR.LOST.LOST_SUBWIN s
    simp only [MTR.LOST.LOST_SUBWIN] at this ⊢
    omega
  refine .ofDoes (u := (incBy MTR.LOST.LOST_SUBWIN 0).run s) (hd.run ▸ hd) ⟨fun a _ _ => ?_, hk.tabs, hk.vio, hk.chg, hk.pending⟩
  rcases eq_or_ne a MTR.LOST with rfl | ha
  · exact hsame
  · exact hk.rd a (fun h => ha (List.mem_singleton.mp h)) List.not_mem_nil

/-- What the sub-windows that wait and the sums of a mains cycle leave: of the island's own state, what a statement tells. -/
structure Accrued (s t : State) : Prop where
  kept : Keeps [] [] s t
  xfer : t.hid.mea.xfer = s.hid.mea.xfer
  lastSeq : t.hid.mtr.lastSeq = s.hid.mtr.lastSeq
  regs : t.hid.mtr.regs = s.hid.mtr.regs
  resid : t.hid.mtr.resid = s.hid.mtr.resid
  unlHere : t.hid.mtr.unlHere = s.hid.mtr.unlHere

theorem Accrued.trans {s t u : State} (h : Accrued s t) (h' : Accrued t u) : Accrued s u :=
  ⟨(Keeps.ongoing [] []).trans h.kept h'.kept, h'.xfer.trans h.xfer, h'.lastSeq.trans h.lastSeq,
    h'.regs.trans h.regs, h'.resid.trans h.resid, h'.unlHere.trans h.unlHere⟩

theorem freshRats_accrued (n : Nat) : (freshRats n).Along Accrued := fun _ =>
  .read <| .bind (M.does_hid _ _) <| .ofDoes (M.does_pure _ _)
    ⟨⟨fun _ _ _ => rfl, rfl, rfl, rfl, rfl⟩, rfl, rfl, rfl, rfl, rfl⟩

theorem subwindowsLost_none (w : SubWin) (s : State) (h : s.hid.mtr.lastCyc.any (· != w.cycle) = false) :
    (subwindowsLost w 0).Ends s fun _ t => Accrued s t := by
  have hin : (incBy MTR.LOST.LOST_SUBWIN 0).In [13] := M.In.incBy 13 _ _ (by decide) (by decide)
  have hcount : (incBy MTR.LOST.LOST_SUBWIN 0).Along fun s t => Keeps [] [] s t ∧ Same [13] s t :=
    lost_none_keeps.and (.ofIn hin fun _ _ hs => hs)
  refine .read <| .seq (hcount s) fun _ u hu => ?_
  obtain ⟨hk, hs⟩ := hu
  have hmea : u.hid.mea = s.hid.mea := hs.hid (by decide) 50 (by decide)
  have hmtr : u.hid.mtr = s.hid.mtr := hs.hid (by decide) 57 (by decide)
  refine .bind (M.does_hid _ _) ?_
  dsimp only
  rw [h]
  refine .ite_neg (by decide) <| .ite_neg (Nat.not_lt_zero _) <| .ofDoes (M.does_pure _ _) ?_
  refine ⟨⟨hk.rd, hk.tabs, hk.vio, hk.chg, hk.pending⟩, congrArg MeaSt.xfer hmea, ?_, ?_, ?_, ?_⟩
  · exact (congrArg MtrSt.lastSeq hmtr :)
  · exact (congrArg MtrSt.regs hmtr :)
  · exact (congrArg MtrSt.resid hmtr :)
  · exact (congrArg MtrSt.unlHere hmtr :)

theorem energyAccumulate_takes {s : State} {w : SubWin} (hhead : s.hid.mea.xfer.head? = some w)
    (hm : s.metering = true) (hn : 0 < w.n)
    (hseq : s.hid.mtr.lastSeq = some ((w.seq + 4294967295) % 4294967296))
    (hcyc : s.hid.mtr.lastCyc = none ∨ s.hid.mtr.lastCyc = some w.cycle) (hlast : w.last = false) :
    energyAccumulate.Ends s fun _ t =>
      t.hid.mea.xfer = s.hid.mea.xfer.tail ∧ t.hid.mtr.lastSeq = some w.seq ∧
      t.hid.mtr.regs = s.hid.mtr.regs ∧ t.hid.mtr.resid = s.hid.mtr.resid ∧
      t.hid.mtr.unlHere = (s.hid.mtr.unlHere || !w.locked) ∧ Keeps [] [] s t := by
  obtain ⟨rest, hxfer⟩ := List.head?_eq_some_iff.mp hhead
  have hlost : ((s.hid.mtr.lastSeq.map fun l => (w.seq + 4294967296 - l - 1) % 4294967296).getD 0) = 0 := by
    rw [hseq, Option.map_some, Option.getD_some]
    omega
  refine .read ?_
  simp only [hxfer]
  refine .seq (Q := fun _ u => Keeps [] [] s u ∧ u.hid.mea.xfer = rest ∧ u.hid.mtr = s.hid.mtr)
    (.ofDoes (M.does_hid _ _) ⟨⟨fun _ _ _ => rfl, rfl, rfl, rfl, rfl⟩, rfl, rfl⟩) fun _ u hu => ?_
  obtain ⟨hku, hxu, hmu⟩ := hu
  refine .seq (Q := fun _ v => Keeps [] [] u v ∧ v.hid.mea.xfer = u.hid.mea.xfer ∧ v.hid.mtr = { u.hid.mtr with lastSeq := some w.seq })
    (.ofDoes (M.does_hid _ _) ⟨⟨fun _ _ _ => rfl, rfl, rfl, rfl, rfl⟩, rfl, rfl⟩) fun _ v hv => ?_
  obtain ⟨hkv, hxv, hmv⟩ := hv
  rw [hmu] at hmv
  refine .ite_pos ⟨hm, hn⟩ ?_
  rw [hlost]
  refine .seq (subwindowsLost_none w v ?_) fun _ a ha => .read <| .seq (freshRats_accrued 16 a) fun _ b hb =>
    .seq (freshRats_accrued 3 b) fun _ c hc => ?_
  · rw [hmv]
    rcases hcyc with h | h <;> simp [h]
  obtain ⟨hk, hxfer', hls, hregs, hresid, hunl⟩ := (ha.trans hb).trans hc
  refine .bind (M.does_hid _ _) <| .ite_neg (by simp [hlast]) <| .ofDoes (M.does_pure _ _) ?_
  have hkeep := (Keeps.ongoing [] []).trans hku <| (Keeps.ongoing [] []).trans hkv hk
  refine ⟨hxfer'.trans (hxv.trans hxu), ?_, ?_, ?_, ?_, ⟨hkeep.rd, hkeep.tabs, hkeep.vio, hkeep.chg, hkeep.pending⟩⟩
  · exact hls.trans (congrArg MtrSt.lastSeq hmv :)
  · exact hregs.trans (congrArg MtrSt.regs hmv :)
  · exact hresid.trans (congrArg MtrSt.resid hmv :)
  · exact congrArg (· || !w.locked) (hunl.trans (congrArg MtrSt.unlHere hmv :))

/-! ## Records (R334, R335, R337) -/

/-- The words of the metrology island that a record moves, and the pages of its event. -/
abbrev RecordKept := Keeps [MTR.LAST, MTR.STATUS] eventPages

theorem meterStatus_keeps (as : List Nat) : meterStatus.Along (Keeps as eventPages) := .read fun _ => eventDev_keeps _ _ _

theorem ringState_keeps : ringState.Along (Keeps [MTR.STATUS] eventPages) := by
  have k := Keeps.ongoing [MTR.STATUS] eventPages
  have hst : ∀ x ∈ [MTR.STATUS.RING_WARN, MTR.STATUS.RING_FULL], ∀ v, (wf x v).Along (Keeps [MTR.STATUS] eventPages) :=
    fun x hx v => .keepsWf _ v (by revert x; decide)
  exact .read fun _ => .ite (k.bind (hst _ (by decide) _) fun _ => k.when (hst _ (by decide) _)) <|
    k.thenMore (k.bind (hst _ (by decide) _) fun _ => meterStatus_keeps _) fun _ => k.when (hst _ (by decide) _)

theorem registerCommit_keeps : registerCommit.Along RecordKept := .keepsHid _ _ _

theorem writeRecord_keeps (typ : Nat) (span : Span) (gapFlag : Bool) (event : Option (Nat × Nat)) :
    (writeRecord typ span gapFlag event).Along RecordKept := by
  have k := Keeps.ongoing [MTR.LAST, MTR.STATUS] eventPages
  exact .read fun _ => k.when <| .ite
    (k.when <| k.bind (.keepsWf _ _ (by decide)) fun _ => meterStatus_keeps _) <|
    .ite (.keepsInc _ (by decide)) <|
    k.bind (.keepsHid _ _ _) fun _ => k.bind (.keepsWf _ _ (by decide)) fun _ => k.bind registerCommit_keeps fun _ =>
      k.bind (ringState_keeps.mono fun _ _ h => h.mono (by simp) (List.Subset.refl _)) fun _ => eventDev_keeps _ _ _

/-- What follows the number of a record: the island's own state and the number stay. -/
theorem ringState_last : ringState.Fixes fun s => (s.hid.mtr, s.rd MTR.LAST) := by
  have hst : ∀ x ∈ [MTR.STATUS.RING_WARN, MTR.STATUS.RING_FULL], ∀ v, (wf x v).Fixes fun s => (s.hid.mtr, s.rd MTR.LAST) :=
    fun x hx v => .prod (.read fun _ => .act fun _ => congrArg Hidden.mtr (apply_reg_hid ..)) (.wfRd v (by revert x; decide))
  have hev : meterStatus.Fixes fun s => (s.hid.mtr, s.rd MTR.LAST) :=
    .ofIn foot_meterStatus fun _ _ h => Prod.ext (h.hid (by decide) 57 (by decide)) (h.rd (by decide) _ (by decide))
  exact .read fun _ => .ite (.bind (hst _ (by decide) _) fun _ => .when (hst _ (by decide) _)) <|
    .thenMore (.bind (hst _ (by decide) _) fun _ => hev) fun _ => .when (hst _ (by decide) _)

/-- A record that is not withheld, in a ring that is not full, is numbered, and the registers are committed. -/
theorem writeRecord_writes {s : State} {typ : Nat} (span : Span) (gapFlag : Bool) (event : Option (Nat × Nat))
    (hm : s.metering = true) (hopen : s.f MTR.LAST.RSEQ - s.f MTR.ACK.RSEQ < 15360) :
    (writeRecord typ span gapFlag event).Ends s fun _ t =>
      t.f MTR.LAST.RSEQ = (s.f MTR.LAST.RSEQ + 1) % 4294967296 ∧
      t.hid.mtr = { s.hid.mtr with
        ring := ringPush 16384 s.hid.mtr.ring (s.record (s.f MTR.LAST.RSEQ + 1) typ span gapFlag event)
        commit := s.hid.mtr.regs, commitRes := s.hid.mtr.resid, commitMono := s.hid.mtr.mono / 1000000 } := by
  have hev : ∀ op body, (eventDev op body).Fixes fun s => (s.hid.mtr, s.rd MTR.LAST) := fun op body =>
    .ofIn (foot_eventDev op body) fun _ _ h => Prod.ext (h.hid (by decide) 57 (by decide)) (h.rd (by decide) _ (by decide))
  refine .read <| .ite_pos hm <| .ite_neg (by omega) <| .ite_neg (by omega) ?_
  refine .seq (Q := fun _ u => u.hid.mtr = { s.hid.mtr with
      ring := ringPush 16384 s.hid.mtr.ring (s.record (s.f MTR.LAST.RSEQ + 1) typ span gapFlag event) })
    (.ofDoes (M.does_hid _ _) rfl) fun _ u hu => ?_
  refine .seq (Q := fun _ v => v.hid.mtr = u.hid.mtr ∧ v.f MTR.LAST.RSEQ = (s.f MTR.LAST.RSEQ + 1) % 4294967296)
    (.ofDoes (M.does_wf _ _ _) ⟨congrArg Hidden.mtr (apply_reg_hid ..), f_wf_same (MTR_fields _ (by decide)) _ _⟩) fun _ v hv => ?_
  refine .seq (Q := fun _ x => x.hid.mtr = { v.hid.mtr with
      commit := v.hid.mtr.regs, commitRes := v.hid.mtr.resid, commitMono := v.hid.mtr.mono / 1000000 } ∧
      x.rd MTR.LAST = v.rd MTR.LAST) (.ofDoes (M.does_hid _ _) ⟨rfl, rfl⟩) fun _ x hx => ?_
  refine .after ringState_last fun _ y hy => .ofFixes (hev _ _) fun _ t ht => ?_
  obtain ⟨hmtr, hlast⟩ := Prod.ext_iff.mp (ht.trans hy)
  refine ⟨(f_of_rd_eq MTR.LAST.RSEQ (hlast.trans hx.2)).trans hv.2, hmtr.trans (hx.1.trans ?_)⟩
  rw [hv.1, hu]

theorem intervalRecord_keeps : intervalRecord.Along RecordKept := by
  have k := Keeps.ongoing [MTR.LAST, MTR.STATUS] eventPages
  exact .read fun _ => k.when <| k.bind (writeRecord_keeps _ _ _ _) fun _ => .keepsHid _ _ _

theorem intervalRecord_records {s : State} (hm : s.metering = true) (hb : s.atBoundary = true)
    (hopen : s.f MTR.LAST.RSEQ - s.f MTR.ACK.RSEQ < 15360) :
    intervalRecord.Ends s fun _ t => t.f MTR.LAST.RSEQ = (s.f MTR.LAST.RSEQ + 1) % 4294967296 ∧
      t.hid.mtr.ring = ringPush 16384 s.hid.mtr.ring (s.record (s.f MTR.LAST.RSEQ + 1) 1 s.hid.mtr.ivl false none) ∧
      t.hid.mtr.ivl = s.hid.mtr.now ∧ t.hid.mtr.commit = s.hid.mtr.regs := by
  refine .read <| .ite_pos (by rw [hm, hb]; rfl) <| .seq (writeRecord_writes _ _ _ hm hopen) fun _ u hu => ?_
  obtain ⟨hlast, hmtr⟩ := hu
  refine .ofDoes (M.does_hid _ _) ⟨hlast, (congrArg MtrSt.ring hmtr :), ?_, (congrArg MtrSt.commit hmtr :)⟩
  exact (congrArg MtrSt.now hmtr :)

/-! ## Acknowledgement and time, as the host writes them (R338, R342) -/

/-- A word every bit of which the host writes and none of which it clears takes what is written. -/
theorem whole_after (x old : Word) :
    ((x &&& 0xFFFFFFFF#32) ||| (old &&& ~~~0xFFFFFFFF#32)) &&& ~~~(x &&& 0#32) &&& 0xFFFFFFFF#32 = x := by
  have hones : (0xFFFFFFFF#32 : Word) = BitVec.allOnes 32 := by decide
  rw [hones, BitVec.and_allOnes, BitVec.not_allOnes, BitVec.and_zero, BitVec.or_zero, BitVec.and_zero, BitVec.not_zero,
    BitVec.and_allOnes, BitVec.and_allOnes]

theorem MTR_ACK_plain : ∃ r, PlainWord r MTR.ACK ∧ r.name = .MTR_ACK ∧
    ∀ x old, storedWord r x old &&& implMask MTR.ACK = x :=
  ⟨_, ⟨rfl, by decide, rfl, by decide, rfl, fun _ => rfl⟩, rfl, fun x old => whole_after x old⟩

theorem MTR_TIME_HI_plain : ∃ r, PlainWord r MTR.TIME_HI ∧ r.name = .MTR_TIME_HI ∧
    ∀ x old, storedWord r x old &&& implMask MTR.TIME_HI = x :=
  ⟨_, ⟨rfl, by decide, rfl, by decide, rfl, fun _ => rfl⟩, rfl, fun x old => whole_after x old⟩

theorem ringState_full {s : State} (h : s.f MTR.LAST.RSEQ - s.f MTR.ACK.RSEQ < 16384) :
    (ringState.run s).f MTR.STATUS.RING_FULL = 0 := by
  have hlast : ∀ u : State, (if s.f MTR.LAST.RSEQ - s.f MTR.ACK.RSEQ < 16384 then wf MTR.STATUS.RING_FULL 0 else pure ()).Ends u
      fun _ t => t.f MTR.STATUS.RING_FULL = 0 := fun u =>
    .ite_pos h <| .ofDoes (M.does_wf _ _ _) (f_wf_same (MTR_fields _ (by decide)) 0 u)
  refine M.Ends.run (P := fun _ t => t.f MTR.STATUS.RING_FULL = 0) (.read <| .ite ?_ <| .ite ?_ (hlast _))
  · exact .bind (M.does_wf _ _ _) (hlast _)
  · exact .bind (M.does_wf _ _ _) <| .afterIn foot_meterStatus fun _ _ _ _ => hlast _

theorem wf_go (x : FldAt) (v : Nat) : (wf x v).Fixes fun s => s.hid.cmd.go :=
  .read fun _ => .act fun _ => congrArg (·.cmd.go) (apply_reg_hid ..)

theorem meterStatus_go : meterStatus.Fixes fun s => s.hid.cmd.go := .read fun _ => (event_link ..).bare.comp BareView.go

theorem ringState_go : ringState.Fixes fun s => s.hid.cmd.go :=
  .read fun _ => .ite (.bind (wf_go _ _) fun _ => .when (wf_go _ _)) <|
    .thenMore (.bind (wf_go _ _) fun _ => meterStatus_go) fun _ => .when (wf_go _ _)

/-- RECORD_ACK (R338): the acknowledged number, and what of the ring follows from it. -/
theorem recordAck_acks {s : State} {v : Via} {x : Word} (h : s.accepts v [(MTR.ACK, x)] = true) :
    let t := (hostWrite v [(MTR.ACK, x)]).run s
    t.f MTR.ACK.RSEQ = x.toNat ∧ (s.f MTR.LAST.RSEQ - x.toNat < 16384 → t.f MTR.STATUS.RING_FULL = 0) ∧
      Keeps [MTR.ACK, MTR.STATUS] [0x01, 0x14] s t := by
  obtain ⟨r, hp, hname, hstored⟩ := MTR_ACK_plain
  obtain ⟨u, hbook, hsent⟩ := hostWrite_carries hp h (W := fun u => ringState.run (stored r MTR.ACK x u))
    (fun u _ => by
      refine .read ?_
      simp only [hname]
      exact foot_ringState.does _)
    fun u _ hgo => (ringState_go.run _).trans (by rw [stored_hid, hgo])
  have hring := ringState_keeps.run (stored r MTR.ACK x u)
  have hack : (stored r MTR.ACK x u).f MTR.ACK.RSEQ = x.toNat := by
    rw [MTR.ACK.RSEQ, f_whole, hp.stored_rd, hstored]
  have hlast : (stored r MTR.ACK x u).f MTR.LAST.RSEQ = s.f MTR.LAST.RSEQ :=
    ((stored_keeps r MTR.ACK x u).f (by decide) (by decide)).trans (hbook.sent.keeps.f (by decide) (by decide))
  refine ⟨(hsent.keeps.f (by decide) (by decide)).trans ((hring.f (by decide) (by decide)).trans hack), fun hlt => ?_, ?_⟩
  · exact (hsent.keeps.f (by decide) (by decide)).trans (ringState_full (by rwa [hlast, hack]))
  · exact (((hbook.sent.keeps.trans (stored_keeps r MTR.ACK x u)).trans hring).trans hsent.keeps).mono (by simp)
      (by simp [eventPages])

/-! ### TIME_SET -/

theorem eventRecord_keeps (code arg : Nat) : (eventRecord code arg).Along RecordKept :=
  (Keeps.ongoing _ _).bind (m := hidden) (.read fun _ => (Keeps.ongoing _ _).pure _) fun _ => writeRecord_keeps _ _ _ _

theorem timeSet_keeps : timeSet.Along RecordKept := .read fun _ =>
  (Keeps.ongoing _ _).bind (eventRecord_keeps _ _) fun _ => .keepsHid _ _ _

theorem timeSet_sets (s : State) : timeSet.Ends s fun _ t =>
    t.hid.mtr.utc = some ((s.rd MTR.TIME_HI).toNat * 4294967296 + (s.rd MTR.TIME_LO).toNat) ∧
      (s.metering = true → s.f MTR.LAST.RSEQ - s.f MTR.ACK.RSEQ < 15360 →
        t.f MTR.LAST.RSEQ = (s.f MTR.LAST.RSEQ + 1) % 4294967296) := by
  have hrec : ∀ arg, (eventRecord 3 arg).Ends s fun _ t => s.metering = true → s.f MTR.LAST.RSEQ - s.f MTR.ACK.RSEQ < 15360 →
      t.f MTR.LAST.RSEQ = (s.f MTR.LAST.RSEQ + 1) % 4294967296 := fun arg => by
    by_cases h : s.metering = true ∧ s.f MTR.LAST.RSEQ - s.f MTR.ACK.RSEQ < 15360
    · obtain ⟨_, t, hd, hlast, -⟩ := writeRecord_writes (typ := 4) s.hid.mtr.now false (some (3, arg)) h.1 h.2
      exact .bind (m := hidden) (a := s.hid) (u := s) (fun _ => rfl) <| .ofDoes hd fun _ _ => hlast
    · exact .ofDoes ((foot_eventRecord 3 arg).does s) fun hm hopen => absurd ⟨hm, hopen⟩ h
  exact .read <| .seq (hrec _) fun _ _ hu => .ofDoes (M.does_hid _ _) ⟨rfl, hu⟩

theorem writeRecord_go (typ : Nat) (span : Span) (gapFlag : Bool) (event : Option (Nat × Nat)) :
    (writeRecord typ span gapFlag event).Fixes fun s => s.hid.cmd.go :=
  .read fun _ => .when <| .ite (.when <| .bind (wf_go _ _) fun _ => meterStatus_go) <|
    .ite (.read fun _ => .when (wf_go _ _)) <|
    .bind (.act fun _ => rfl) fun _ => .bind (wf_go _ _) fun _ => .bind (.act fun _ => rfl) fun _ =>
      .bind ringState_go fun _ => (event_link ..).bare.comp BareView.go

theorem timeSet_go : timeSet.Fixes fun s => s.hid.cmd.go :=
  .read fun _ => .bind (.bind (m := hidden) (.read fun _ => .pure _) fun _ => writeRecord_go ..) fun _ => .act fun _ => rfl

/-- TIME_SET (R342). -/
theorem timeSet_takes {s : State} {v : Via} {x : Word} (h : s.accepts v [(MTR.TIME_HI, x)] = true) :
    let t := (hostWrite v [(MTR.TIME_HI, x)]).run s
    t.hid.mtr.utc = some (x.toNat * 4294967296 + (s.rd MTR.TIME_LO).toNat) ∧
      (s.metering = true → s.f MTR.LAST.RSEQ - s.f MTR.ACK.RSEQ < 15360 →
        t.f MTR.LAST.RSEQ = (s.f MTR.LAST.RSEQ + 1) % 4294967296) ∧
      Keeps [MTR.TIME_HI, MTR.LAST, MTR.STATUS] [0x01, 0x14] s t := by
  obtain ⟨r, hp, hname, hstored⟩ := MTR_TIME_HI_plain
  obtain ⟨u, hbook, hsent⟩ := hostWrite_carries hp h (W := fun u => timeSet.run (stored r MTR.TIME_HI x u))
    (fun u _ => by
      refine .read ?_
      simp only [hname]
      exact foot_timeSet.does _)
    fun u _ hgo => (timeSet_go.run _).trans (by rw [stored_hid, hgo])
  have hbefore := hbook.sent.keeps.trans (stored_keeps r MTR.TIME_HI x u)
  obtain ⟨hutc, hlast⟩ := (timeSet_sets (stored r MTR.TIME_HI x u)).run
  have hmtr : (stored r MTR.TIME_HI x u).hid.mtr = s.hid.mtr := (congrArg Hidden.mtr (stored_hid ..)).trans
    (hbook.same.hid (by decide) 57 (by decide))
  have hmet : (stored r MTR.TIME_HI x u).metering = s.metering := by
    simp only [State.metering, State.present, hmtr, hbefore.f (x := SYS.ISLAND.STATE 8) (by decide) (by decide),
      hbefore.f (x := MTR.STATUS.REG_FAULT) (by decide) (by decide)]
  refine ⟨?_, fun hm hopen => ?_, ?_⟩
  · refine (congrArg MtrSt.utc (hsent.same.hid (by decide) 57 (by decide))).trans (hutc.trans ?_)
    rw [hp.stored_rd, hstored, hbefore.rd MTR.TIME_LO (by decide) (by decide)]
  · have hl := hbefore.f (x := MTR.LAST.RSEQ) (by decide) (by decide)
    have ha := hbefore.f (x := MTR.ACK.RSEQ) (by decide) (by decide)
    rw [hl, ha, hmet] at hlast
    exact (hsent.keeps.f (by decide) (by decide)).trans (hlast hm hopen)
  · exact ((hbefore.trans (timeSet_keeps.run _)).trans hsent.keeps).mono (by simp) (by simp [eventPages])

/-! ## The statement -/

theorem registerCommit_commits (s : State) : registerCommit.Ends s fun _ t => t.hid.mtr.commit = s.hid.mtr.regs ∧
    t.hid.mtr.commitRes = s.hid.mtr.resid ∧ t.hid.mtr.regs = s.hid.mtr.regs ∧ Keeps [] [] s t :=
  .ofDoes (M.does_hid _ _) ⟨rfl, rfl, rfl, ⟨fun _ _ _ => rfl, rfl, rfl, rfl, rfl⟩⟩

/-- Settles O50: each clause is the step of the metrology island as chapter 14 gives it; what sends the island's events reaches
the pages of events alone. -/
theorem meteringCountsAndRecords : Obligations.Metering_counts_and_records := by
  unfold Obligations.Metering_counts_and_records
  refine ⟨fun s x ha hp hhead hm hseq hcyc hlast => ?_, fun s ha hp hm hb hopen => ?_, fun s ha hp => ?_, fun s v x h => ?_,
    fun s v x h => ?_⟩
  · exact .of_next rfl (M.Ends.onIsland ha hp (energyAccumulate_takes hhead hm.1 hm.2 hseq.1 hcyc hlast)).run
  · refine .of_next rfl ?_
    rw [onIsland_run ha hp (foot_intervalRecord.does s)]
    obtain ⟨hlast, hring, hivl, hcommit⟩ := (intervalRecord_records hm hb hopen).run
    exact ⟨hlast, hring, hivl, hcommit, intervalRecord_keeps.run s⟩
  · exact .of_next rfl (M.Ends.onIsland ha hp (registerCommit_commits s)).run
  · exact .of_checked rfl (via_wf_of_accepts h) (recordAck_acks h)
  · exact .of_checked rfl (via_wf_of_accepts h) (timeSet_takes h)

end Sys2Proof.Machine
end

section
/-! Statement O16: the host clears lasting bits (R410). -/

namespace Sys2Proof.Machine

/-! ## One lasting bit -/

theorem bit_clrBit_other (n : Nat) {i j : Nat} (h : j ≠ i) : bit (clrBit n i) j = bit n j := by
  by_cases hb : bit n i = true
  · have hle : 2 ^ i ≤ n := by
      rw [bit_eq_testBit] at hb
      exact Nat.ge_two_pow_of_testBit hb
    have hset : setBit (clrBit n i) i = n := by
      rw [setBit, bit_clrBit, clrBit, if_pos hb]
      simp only [Bool.false_eq_true, if_false]
      omega
    rw [← hset, bit_setBit, hset]
    simp [h]
  · rw [clrBit, if_neg hb]

theorem bit_clrBit_eq (n i j : Nat) : bit (clrBit n i) j = (bit n j && !decide (j = i)) := by
  rcases eq_or_ne j i with rfl | h
  · simp [bit_clrBit]
  · simp [bit_clrBit_other n h, h]

/-- The lasting bits of a source and the histories of the ledger. -/
def State.judged (src : Nat) (s : State) : Word × List (Nat × Hist) := (s.rd (FLG.LASTING src), s.hid.flg.hist)

/-- The clearing of the bits of `l`: what it leaves of the source, and of every history. -/
structure BitsCleared (src : Nat) (l : List Nat) (s t : State) : Prop where
  lasting : ∀ j, t.lasting src j = (s.lasting src j && !l.contains j)
  emptied : ∀ j ∈ l, s.lasting src j = true → sget? t.hid.flg.hist (src * 256 + j) = none
  others : ∀ k, sget? s.hid.flg.hist k = none → sget? t.hid.flg.hist k = none

theorem BitsCleared.trans {src i : Nat} {l : List Nat} {s t u : State} (h : BitsCleared src [i] s t) (h' : BitsCleared src l t u) :
    BitsCleared src (i :: l) s u := by
  refine ⟨fun j => ?_, fun j hj hlast => ?_, fun k hk => h'.others k (h.others k hk)⟩
  · rw [h'.lasting, h.lasting, Bool.and_assoc]
    simp
  · rcases eq_or_ne j i with rfl | hne
    · exact h'.others _ (h.emptied j (by simp) hlast)
    · have hin : j ∈ l := (List.mem_cons.mp hj).resolve_left hne
      exact h'.emptied j hin (by rw [h.lasting, hlast]; simp [hne])

/-- What tells of a cleared bit leaves the bits and the histories. -/
theorem clearTold_judged (src : Fin 256) (e : FltEntry) :
    (do
      setLastingSrc
      queueEntry e false
      ledgerEvent e : M Unit).Fixes (State.judged src) := by
  have hhist : ∀ {P : List Nat} {m : M Unit}, m.In P → 99 ∉ P ∧ 46 ∉ P → m.Fixes fun s => s.hid.flg.hist := fun hin hn =>
    .ofIn hin fun _ _ hs => congrArg FlgSt.hist (hs.hid hn.1 46 hn.2)
  exact .bind (.prod (setLastingSrc_lasting src) (hhist foot_setLastingSrc (by decide))) fun _ =>
    .bind (.prod (queueEntry_lasting src e false) (hhist (foot_queueEntry _ _) (by decide))) fun _ =>
    .prod (ledgerEvent_lasting src e) (hhist (foot_ledgerEvent _) (by decide))

theorem lasting_cleared (src : Fin 256) (i j : Nat) (s : State) :
    ((Act.reg (FLG.LASTING src) (BitVec.ofNat 32 (clrBit (s.rd (FLG.LASTING src)).toNat i))).apply s).lasting src j =
      (s.lasting src j && !decide (j = i)) := by
  rw [State.lasting, rd_apply_LASTING src ((clrBit_le _ _).trans_lt (s.rd _).isLt), bit_clrBit_eq]
  rfl

theorem clearLasting_clears (src : Fin 256) (i kind : Nat) (s : State) :
    (clearLasting src i kind).Ends s fun _ t => BitsCleared src [i] s t := by
  refine .read ?_
  by_cases hl : s.lasting src i = true
  · refine .ite_pos hl <| .bind (M.does_wr _ _ s) <| .bind (M.does_hid _ _) <|
      .ofFixes (clearTold_judged src _) fun _ t ht => ?_
    obtain ⟨hword, hhist⟩ := Prod.ext_iff.mp ht
    have hhist' : t.hid.flg.hist = serase s.hid.flg.hist (src * 256 + i) := hhist.trans <|
      congrArg (fun h : Hidden => serase h.flg.hist (src * 256 + i)) (apply_reg_hid ..)
    refine ⟨fun j => ?_, fun j hj _ => ?_, fun k hk => ?_⟩
    · exact (congrArg (fun w : Word => bit w.toNat j) hword).trans <| (lasting_cleared src i j s).trans (by simp)
    · rw [hhist', List.mem_singleton.mp hj, sget?_serase_same]
    · rw [hhist']
      rcases eq_or_ne k (src * 256 + i) with rfl | hne
      · exact sget?_serase_same _ _
      · rw [sget?_serase_other _ _ _ hne, hk]
  · refine .ite_neg hl <| .ofDoes (M.does_pure () s) ⟨fun j => ?_, fun j hj hlast => ?_, fun _ hk => hk⟩
    · rcases eq_or_ne j i with rfl | hne
      · simpa using hl
      · simp [hne]
    · exact absurd (List.mem_singleton.mp hj ▸ hlast) hl

theorem clearLasting_all (src : Fin 256) (kind : Nat) : ∀ (l : List Nat) (s : State),
    (l.forM fun i => clearLasting src i kind).Ends s fun _ t => BitsCleared src l s t
  | [], s => .ofDoes (M.does_pure () s) ⟨fun j => by simp, fun _ h => absurd h List.not_mem_nil, fun _ hk => hk⟩
  | i :: l, s => .seq (clearLasting_clears src i kind s) fun _ u hu => by
    obtain ⟨_, t, hd, ht⟩ := clearLasting_all src kind l u
    exact .ofDoes hd (hu.trans ht)

/-! ## What else the clearing moves -/

theorem setLastingSrc_keeps {as : List Nat} (h : FLG.STATUS1 ∈ as) : setLastingSrc.Along (Keeps as eventPages) :=
  .read fun _ => (Keeps.ongoing _ _).bind (.keepsWf _ _ h) fun _ => .read fun _ => .keepsHid _ _ _

theorem queueEntry_keeps {as : List Nat} (h : FLG.STATUS1 ∈ as) (e : FltEntry) (lasting : Bool) :
    (queueEntry e lasting).Along (Keeps as eventPages) :=
  .read fun _ => .ite (.keepsIn as (M.In.fltQueue (P := [35]) e lasting (by decide))
    (act_beyond fun _ => apply_fltQueue_regs ..) (by decide) (by decide)) (.keepsInc _ h)

theorem clearLasting_keeps {as : List Nat} {src : Nat} (h : FLG.STATUS1 ∈ as) (hsrc : FLG.LASTING src ∈ as) (inst kind : Nat) :
    (clearLasting src inst kind).Along (Keeps as eventPages) := by
  have k := Keeps.ongoing as eventPages
  exact .read fun _ => k.when <| k.bind (.keepsWr _ _ hsrc) fun _ => k.bind (.keepsHid _ _ _) fun _ =>
    k.bind (setLastingSrc_keeps h) fun _ => k.bind (queueEntry_keeps h _ _) fun _ => eventDev_keeps _ _ _

theorem lastingWritten_keeps (src v : Nat) :
    (lastingWritten src v).Along (Keeps [FLG.LASTING src, FLG.STATUS, FLG.STATUS1, SAF.STATUS] eventPages) := by
  have k := Keeps.ongoing [FLG.LASTING src, FLG.STATUS, FLG.STATUS1, SAF.STATUS] eventPages
  exact k.bind (k.forM (fun _ => clearLasting_keeps (by simp) (by simp) _ _) _) fun _ =>
    .read fun _ => k.when (.keepsWf _ _ (by simp [SAF.STATUS.DIAG_OK]))

theorem lastingWritten_go (src v : Nat) : (lastingWritten src v).Fixes fun s => s.hid.cmd.go := by
  have hwr : ∀ a w, (wr a w).Fixes fun s => s.hid.cmd.go := fun a w => .act fun _ => congrArg (·.cmd.go) (apply_reg_hid ..)
  have hwf : ∀ (x : FldAt) n, (wf x n).Fixes fun s => s.hid.cmd.go := fun _ _ => .read fun _ => hwr _ _
  refine .bind (.forM (fun _ => .read fun _ => .when ?_) _) fun _ => .read fun _ => .when (hwf _ _)
  exact .bind (hwr _ _) fun _ => .bind (.act fun _ => rfl) fun _ =>
    .bind (.read fun _ => .bind (hwf _ _) fun _ => .read fun _ => .act fun _ => rfl) fun _ =>
    .bind (.read fun _ => .ite (.act fun _ => congrArg (·.cmd.go) (apply_fltQueue_hid ..)) (.read fun _ => .when (hwf _ _)))
      fun _ => (event_link ..).bare.comp BareView.go

theorem mem_bitsSet (n : Nat) (i : Fin 32) : (bitsSet n 32).contains i.val = bit n i := by
  cases h : bit n i <;> simp [bitsSet, h, i.isLt]

theorem lastingWritten_clears (src : Fin 256) (v : Nat) (s : State) :
    (lastingWritten src v).Ends s fun _ t => BitsCleared src (bitsSet v 32) s t := by
  have hdiag : ∀ n, (wf SAF.STATUS.DIAG_OK n).Fixes (State.judged src) := fun n =>
    .prod (.wfRd n fun h => absurd (congrArg (· / 65536) h) (by rw [FLG.LASTING_page]; decide))
      (.read fun _ => .act fun _ => congrArg (·.flg.hist) (apply_reg_hid ..))
  refine .seq (clearLasting_all src 3 _ s) fun _ u hu => .read <| .ofFixes (.when (hdiag 1)) fun _ t ht => ?_
  obtain ⟨hword, hhist⟩ := Prod.ext_iff.mp ht
  have hhist' : t.hid.flg.hist = u.hid.flg.hist := hhist
  refine ⟨fun j => ?_, fun j hj hl => ?_, fun k hk => ?_⟩
  · exact (congrArg (fun w : Word => bit w.toNat j) hword).trans (hu.lasting j)
  · rw [hhist', hu.emptied j hj hl]
  · rw [hhist', hu.others k hk]

/-! ## The host's write -/

/-- The row of the LASTING words. -/
def lastingRow : RegSpec := ⟨.FLG_LASTING, 0x110400, 4, 0, 256, 4, 1, 0x0, 0x0, 0x0, 0x0, 0xFFFFFFFF, 0x0, 0x0, 0x0, false⟩

theorem LASTING_row (src : Fin 256) : regAt (FLG.LASTING src) = some lastingRow ∧ lastingRow.ix1 (FLG.LASTING src) = src ∧
    FLG.LASTING src / 65536 < 256 ∧ rangeBad (FLG.LASTING src / 65536) (FLG.LASTING src % 65536) 1 = none := by
  revert src
  decide +kernel

theorem LASTING_plain (src : Fin 256) : PlainWord lastingRow (FLG.LASTING src) := by
  obtain ⟨hrow, -, hpage, hrange⟩ := LASTING_row src
  refine ⟨hrow, by decide, rfl, hpage, hrange, fun s => ?_⟩
  rw [State.shadowTb, hrow]
  rfl

/-- A LASTING word is stored as it was; the ledger clears the bits. -/
theorem lasting_stored (src : Fin 256) (x : Word) (s : State) :
    (stored lastingRow (FLG.LASTING src) x s).rd (FLG.LASTING src) = s.rd (FLG.LASTING src) := by
  rw [(LASTING_plain src).stored_rd, (FLG.LASTING_whole src).2, BitVec.and_allOnes]
  rfl

/-- Settles O16: the clearing of each bit that is written 1, in turn. -/
theorem lastingBitsClear : Obligations.Lasting_bits_clear := by
  unfold Obligations.Lasting_bits_clear
  intro s v src8 w i h
  refine .of_checked rfl (via_wf_of_accepts h) ?_
  obtain ⟨src, hsrc⟩ : ∃ src : Fin 256, src8.toNat = src.val := ⟨⟨_, src8.isLt⟩, rfl⟩
  rw [hsrc] at h ⊢
  obtain ⟨u, hbook, hsent⟩ := hostWrite_carries (LASTING_plain src) h
    (W := fun u => (lastingWritten src w.toNat).run (stored lastingRow (FLG.LASTING src) w u))
    (fun u _ => by
      refine .read ?_
      simp only [show lastingRow.name = .FLG_LASTING from rfl, (LASTING_row src).2.1]
      exact (foot_lastingWritten _ _).does _)
    fun u _ hgo => ((lastingWritten_go _ _).run _).trans (by rw [stored_hid, hgo])
  obtain ⟨hlasting, hemptied, -⟩ := (lastingWritten_clears src w.toNat (stored lastingRow (FLG.LASTING src) w u)).run
  have hword : ∀ {a b : State}, Sent a b → b.rd (FLG.LASTING src) = a.rd (FLG.LASTING src) := fun hs =>
    bare_rd hs.bare (FLG.LASTING_off _ (by decide))
  have hbefore : ∀ j, (stored lastingRow (FLG.LASTING src) w u).lasting src j = s.lasting src j := fun j =>
    congrArg (fun x : Word => bit x.toNat j) ((lasting_stored src w u).trans (hword hbook.sent))
  refine ⟨?_, fun hl hb => ?_, ?_⟩
  · refine (congrArg (fun x : Word => bit x.toNat i) (hword hsent)).trans ((hlasting i).trans ?_)
    rw [hbefore, mem_bitsSet]
  · refine (congrArg (fun x : FlgSt => sget? x.hist _) (hsent.same.hid (by decide) 46 (by decide))).trans (hemptied i ?_ ?_)
    · exact List.contains_iff_mem.mp ((mem_bitsSet _ i).trans hb)
    · rw [hbefore, hl]
  · exact (((hbook.sent.keeps.trans (stored_keeps ..)).trans ((lastingWritten_keeps src w.toNat).run _)).trans hsent.keeps).mono
      (by simp) (by simp)

end Sys2Proof.Machine
end

section
/-! Statement O49, refuted: the end of a charging stop disables a group a spare of which is being handed over. -/

namespace Sys2Proof.Machine

/-- A charging session is STOPPING, without an emergency. Group 3, the front end of the charger, is still ARMED, and a spare waits
for a reload to take over channel 5 of it. -/
def stoppingHandover : State :=
  M.run (do
    wtab 0x30 (8 * 5) [3, 0]
    wf (PLS.GRP_CFG.OWNER 3) 3
    updGrp 3 fun r => { r with st := .armed }
    wf CHG.CFG.EN 1
    wf CHG.CFG.AFE_GROUP 3
    wf CHG.STATUS.STATE 5
    wf MAP.STATUS.HANDOVER 1
    hid fun h => { h with trp := { h.trp with hand := some ⟨5, 48, false, 0⟩ } })
    linkUp

/-- The session stops, and the hand-over ends with its group (R85). -/
theorem stoppingHandover_ends : stoppingHandover.awake = true ∧
    (stoppingHandover.f CHG.CFG.EN = 1 ∧ stoppingHandover.chgState = 5) ∧
    stoppingHandover.hid.chg.emergency = false ∧ stoppingHandover.hid.chg.relAt = none ∧
    ((whenAwake normalStopComplete).run stoppingHandover).rd MAP.STATUS ≠ stoppingHandover.rd MAP.STATUS := by
  decide +kernel

/-- Refutes O49: the end of a normal stop disables the groups of the charger (R320), and a hand-over that waits for a channel of a
group that is not ARMED or RUNNING any more ends (R85), which clears HANDOVER in MAP.STATUS. The clause of NORMAL_STOP_COMPLETE has
nothing outside the pages of the ledger's reaction change, in every state. -/
theorem not_chargingSessionSteps : ¬ Obligations.Charging_session_steps := by
  unfold Obligations.Charging_session_steps
  rintro ⟨-, -, -, -, -, -, -, -, -, -, hstop, -⟩
  obtain ⟨hawake, hstopping, hcalm, hunreleased, hends⟩ := stoppingHandover_ends
  obtain ⟨t, ht, -, -, -, -, hkeeps⟩ := hstop stoppingHandover hawake hstopping ⟨hcalm, hunreleased⟩
  have hsame := hkeeps.rd MAP.STATUS (by decide) (by decide)
  rw [exec_next_eq ht (m := whenAwake normalStopComplete) rfl] at hsame
  exact hends hsame

end Sys2Proof.Machine
end

section
/-! Statement O31: the states of the device and the derating (R466, R467, R477). -/

namespace Sys2Proof.Machine

theorem SYS_STATUS_fields : SYS.STATUS.DEV_STATE.Real ∧ SYS.STATUS.DEG_CAUSE.Real := by decide

theorem SYS_STATUS_apart : SYS.STATUS.DEV_STATE.Apart SYS.STATUS.DEG_CAUSE ∧ SYS.STATUS.DEG_CAUSE.Apart SYS.STATUS.DEV_STATE := by
  decide

theorem THERM_fields : LCY.THERM.T_CASE.Real ∧ LCY.THERM.STEP.Real := by decide

theorem THERM_apart : (∀ x ∈ [LCY.THERM.STEP, LCY.THERM.STEP_CHANGES], LCY.THERM.T_CASE.Apart x) ∧
    ∀ x ∈ [LCY.THERM.T_CASE, LCY.THERM.STEP_CHANGES], LCY.THERM.STEP.Apart x := by
  decide

/-! ## The device state (R466) -/

theorem setDev_keeps (new : Nat) : (setDev new).Along (Keeps [SYS.STATUS] eventPages) := by
  have k := Keeps.ongoing [SYS.STATUS] eventPages
  exact k.bind (m := rf SYS.STATUS.DEV_STATE) (.read fun _ => k.pure _) fun _ => k.when <|
    k.bind (.keepsWf _ _ (by decide)) fun _ => k.bind (m := rf SYS.STATUS.DEG_CAUSE) (.read fun _ => k.pure _) fun _ =>
    eventDev_keeps _ _ _

theorem eventDev_status {x : FldAt} (hx : x.addr = SYS.STATUS) (op : Nat) (body : List Byte) :
    (eventDev op body).Fixes fun s => s.f x :=
  .ofIn (foot_eventDev op body) fun _ _ hs => f_of_rd_eq x (hs.rd (by decide) _ (by rw [hx]; decide))

/-- A change of the device state to `new`, which may be the present one. -/
theorem setDev_sets {new : Nat} (hnew : new < 16) (s : State) :
    (setDev new).Ends s fun _ t => t.dev = new ∧ t.f SYS.STATUS.DEG_CAUSE = s.f SYS.STATUS.DEG_CAUSE := by
  refine .bind (M.does_rf _ s) ?_
  by_cases h : s.f SYS.STATUS.DEV_STATE ≠ new
  · refine .ite_pos h <| .bind (M.does_wf _ _ _) <| .bind (M.does_rf _ _) <|
      .ofFixes (.prod (eventDev_status (x := SYS.STATUS.DEV_STATE) rfl _ _) (eventDev_status (x := SYS.STATUS.DEG_CAUSE) rfl _ _))
        fun _ t ht => ?_
    obtain ⟨hdev, hdeg⟩ := Prod.ext_iff.mp ht
    refine ⟨hdev.trans ((f_wf_same SYS_STATUS_fields.1 new s).trans (Nat.mod_eq_of_lt hnew)), hdeg.trans ?_⟩
    exact f_wf_apart SYS_STATUS_apart.2 new s
  · exact .ite_neg h <| .ofDoes (M.does_pure () s) ⟨not_not.mp h, rfl⟩

theorem degCause_lt (s : State) : s.degCause < 256 := by
  have h : ∀ b, b2n b ≤ 1 := by decide
  unfold State.degCause
  have h1 := h (s.chd 1 == 4 || s.chd 2 == 4)
  have h2 := h ((List.range 8).any fun b => s.f (TRP.BANK_STAT.DEGRADED b) == 1)
  have h3 := h (s.f MEA.SPARE.SA8_FAILED == 1 || s.f MEA.SPARE.IN_USE == 1)
  have h4 := h (s.rd GDR.ILK_FB0 != 0 || s.rd GDR.ILK_FB1 != 0)
  have h5 := h ((List.range 9).any fun b => s.f (PLS.CAL.COARSE_ONLY b) == 1)
  have h6 := h (s.f SAF.STATUS.DEGRADED == 1)
  have h7 := h ((List.range 2).any fun m => s.f (FLD.MCH_CFG.EN m) == 1 && s.f (FLD.MCH_STAT.MODE m) != 0)
  have h8 := h (decide (0 < s.f LCY.THERM.STEP))
  omega

theorem deviceStateEvaluation_keeps : deviceStateEvaluation.Along (Keeps [SYS.STATUS] eventPages) := by
  have k := Keeps.ongoing [SYS.STATUS] eventPages
  refine .read fun s => k.when <| k.bind (.keepsWf _ _ (by decide)) fun _ => ?_
  split
  · exact k.when (setDev_keeps _)
  · exact .ite (setDev_keeps _) (k.when (setDev_keeps _))
  · exact .ite (setDev_keeps _) (k.when (setDev_keeps _))
  · exact k.pure _

theorem deviceStateEvaluation_shows {s : State} (ha : s.awake = true) (hd : s.dev ≠ 0) :
    deviceStateEvaluation.Ends s fun _ t => t.f SYS.STATUS.DEG_CAUSE = s.degCause ∧
      t.dev = (if s.dev = 1 then (if s.allIdle then 1 else 2) else if s.dev = 2 then (if s.allIdle then 1 else if
        s.degCause = 0 then 2 else 3) else if s.dev = 3 then (if s.allIdle then 1 else if s.degCause = 0 then 2 else
        3) else s.dev) := by
  have hset : (wf SYS.STATUS.DEG_CAUSE s.degCause).Ends s fun _ u => u.f SYS.STATUS.DEG_CAUSE = s.degCause ∧ u.dev = s.dev :=
    .ofDoes (M.does_wf _ _ s) ⟨(f_wf_same SYS_STATUS_fields.2 _ s).trans (Nat.mod_eq_of_lt (degCause_lt s)),
      f_wf_apart SYS_STATUS_apart.1 _ s⟩
  refine .read <| .ite_pos ⟨ha, hd⟩ <| .seq hset fun _ u hu => ?_
  obtain ⟨hdeg, hdev⟩ := hu
  have hmove : ∀ new < 16, (setDev new).Ends u fun _ t => t.f SYS.STATUS.DEG_CAUSE = s.degCause ∧ t.dev = new := fun new hnew => by
    obtain ⟨_, t, hd, hnew', hdeg'⟩ := setDev_sets hnew u
    exact .ofDoes hd ⟨hdeg'.trans hdeg, hnew'⟩
  have hstay : (pure () : M Unit).Ends u fun _ t => t.f SYS.STATUS.DEG_CAUSE = s.degCause ∧ t.dev = s.dev :=
    .ofDoes (M.does_pure () u) ⟨hdeg, hdev⟩
  split
  next h =>
    cases hi : s.allIdle
    · simpa [h, hi] using hmove 2 (by decide)
    · simpa [h, hi] using hstay
  next h =>
    cases hi : s.allIdle
    · by_cases hc : s.degCause = 0
      · simpa [h, hi, hc] using hstay
      · simpa [h, hi, hc] using hmove 3 (by decide)
    · simpa [h, hi] using hmove 1 (by decide)
  next h =>
    cases hi : s.allIdle
    · by_cases hc : s.degCause = 0
      · simpa [h, hi, hc] using hmove 2 (by decide)
      · simpa [h, hi, hc] using hstay
    · simpa [h, hi] using hmove 1 (by decide)
  next h1 h2 h3 => rwa [if_neg h1, if_neg h2, if_neg h3]

/-! ## SERVICE (R467) -/

theorem LCY_CMD_plain : ∃ r, PlainWord r LCY.CMD ∧ r.name = .LCY_CMD :=
  ⟨_, ⟨rfl, by decide, rfl, by decide, rfl, fun _ => rfl⟩, rfl⟩

theorem setDev_go (new : Nat) : (setDev new).Fixes fun s => s.hid.cmd.go := by
  have hwf : ∀ (x : FldAt) n, (wf x n).Fixes fun s => s.hid.cmd.go := fun _ _ =>
    .read fun _ => .act fun _ => congrArg (·.cmd.go) (apply_reg_hid ..)
  exact .bind (m := rf SYS.STATUS.DEV_STATE) (.read fun _ => .pure _) fun _ => .when <| .bind (hwf _ _) fun _ =>
    .bind (m := rf SYS.STATUS.DEG_CAUSE) (.read fun _ => .pure _) fun _ => (event_link ..).bare.comp BareView.go

/-- An LCY.CMD that is accepted sets the device state. -/
theorem lcyCmd_sets {s : State} {v : Via} {n : Nat} (hn : n < 16)
    (h : s.accepts v [(LCY.CMD, withBits (s.keepWord LCY.CMD) 31 28 n)] = true) :
    let t := (writeField v LCY.CMD.CMD n).run s
    t.dev = (if n = 1 then 5 else 1) ∧ Keeps [SYS.STATUS, LCY.CMD] [0x01, 0x14] s t := by
  obtain ⟨r, hp, hname⟩ := LCY_CMD_plain
  have hd : (writeField v LCY.CMD.CMD n).Does s () ((hostWrite v [(LCY.CMD, withBits (s.keepWord LCY.CMD) 31 28 n)]).run s) :=
    .read <| (foot_hostWrite v _).does s
  have hbits : bitsOf (withBits (s.keepWord LCY.CMD) 31 28 n) 31 28 = n :=
    (bitsOf_withBits_same _ n (by decide)).trans (Nat.mod_eq_of_lt hn)
  intro t
  rw [show t = _ from hd.run]
  clear t hd
  obtain ⟨u, hbook, hsent⟩ := hostWrite_carries hp h
    (W := fun u => (lcyCommand n).run (stored r LCY.CMD (withBits (s.keepWord LCY.CMD) 31 28 n) u))
    (fun u _ => by
      refine .read ?_
      simp only [hname, hbits]
      exact (foot_lcyCommand _).does _)
    fun u _ hgo => ((setDev_go _).run _).trans (by rw [stored_hid, hgo])
  obtain ⟨hdev, -⟩ := (setDev_sets (new := if n = 1 then 5 else 1) (by split <;> decide)
    (stored r LCY.CMD (withBits (s.keepWord LCY.CMD) 31 28 n) u)).run
  refine ⟨(hsent.keeps.f (x := SYS.STATUS.DEV_STATE) (by decide) (by decide)).trans hdev, ?_⟩
  exact (((hbook.sent.keeps.trans (stored_keeps ..)).trans ((setDev_keeps _).run _)).trans hsent.keeps).mono
    (by simp) (by simp [eventPages])

/-! ## Derating (R477) -/

/-- What THERMAL_DERATING does of a junction sensor at 150 °C or a case at 125 °C (R477). -/
def hotDevice (s : State) (tCase : Int) (hot : Bool) : M Unit := do
  if 1250 ≤ tCase ∨ hot then
    if ← occurrence 220 0 0 then
      (groups.filter fun g => (s.machineOf g).isSome || s.active g).forM fun g => startSs1 g 220

/-- What follows the new step: a split Chord begins to join, and a hot device is an occurrence. -/
def afterStep (s : State) (new : Nat) (tCase : Int) (hot : Bool) : M Unit := do
  if 1 ≤ new then
    match s.splitChd with
    | some n => if !(s.chord n).joining then startJoin n
    | none => pure ()
  hotDevice s tCase hot

/-- What a change of the step shows and tells. -/
def stepTold (new : Nat) (tCase : Int) : M Unit := do
  wf LCY.THERM.STEP new
  inc LCY.THERM.STEP_CHANGES
  [11, 10, 8].forM fun n => wf (SYS.ISLAND.CLK_STEP n) new
  eventDev 0x803C (by1 [new, 0] ++ leBytes 2 (codeOf 16 tCase))

theorem thermalDerating_eq (tCase : Int) (hot : Bool) : thermalDerating tCase hot = (do
    let s ← getS
    if s.awake ∧ s.dev ≠ 0 then
      wf LCY.THERM.T_CASE (codeOf 12 (clampI (-2048) 2047 tCase))
      if deratingStep (s.f LCY.THERM.STEP) tCase ≠ s.f LCY.THERM.STEP then stepTold (deratingStep (s.f LCY.THERM.STEP) tCase) tCase
      afterStep s (deratingStep (s.f LCY.THERM.STEP) tCase) tCase hot) := rfl

/-- Every place that what follows the new step may change; LCY is not among their pages. -/
abbrev afterStepPlaces : List Nat := [0, 1, 3, 4, 5, 6, 9, 12, 16, 17, 20, 33, 35, 43, 44, 45, 46, 47, 48, 49, 50]

theorem hotDevice_in (s : State) (tCase : Int) (hot : Bool) : (hotDevice s tCase hot).In afterStepPlaces :=
  .ite (.bind (foot_occurrence 220 0 0) fun _ => .ite (.forM (fun g => (foot_startSs1 g 220).mono (by decide)) _) (.pure _)) (.pure _)

theorem afterStep_in (s : State) (new : Nat) (tCase : Int) (hot : Bool) : (afterStep s new tCase hot).In afterStepPlaces := by
  have hj : ∀ n, (startJoin n).In afterStepPlaces := fun n => (foot_startJoin n).mono (by decide)
  refine .ite ?_ (hotDevice_in _ _ _)
  split
  · exact .ite (.bind (hj _) fun _ => hotDevice_in _ _ _) (hotDevice_in _ _ _)
  · exact hotDevice_in _ _ _

theorem stepTold_beyond (new : Nat) (tCase : Int) : (stepTold new tCase).Fixes State.beyond :=
  .bind (wf_beyond _ _) fun _ => .bind (inc_beyond _) fun _ => .bind (.forM (fun _ => wf_beyond _ _) _) fun _ => event_beyond ..

theorem hotDevice_beyond (s : State) (tCase : Int) (hot : Bool) : (hotDevice s tCase hot).Fixes State.beyond :=
  .ite (.bind (occurrence_beyond 220 0 0) fun _ => .when (.forM (fun _ => startSs1_beyond _ _) _)) (.pure _)

theorem afterStep_beyond (s : State) (new : Nat) (tCase : Int) (hot : Bool) : (afterStep s new tCase hot).Fixes State.beyond := by
  have hj : ∀ n, (startJoin n).Fixes State.beyond := fun _ => .read fun _ => hid_beyond _
  refine .ite ?_ (hotDevice_beyond ..)
  split
  · exact .ite (.bind (hj _) fun _ => hotDevice_beyond ..) (hotDevice_beyond ..)
  · exact hotDevice_beyond ..

theorem thermalDerating_beyond (tCase : Int) (hot : Bool) : (thermalDerating tCase hot).Fixes State.beyond := by
  rw [thermalDerating_eq]
  exact .read fun s => .when <| .bind (wf_beyond _ _) fun _ => .thenMore (stepTold_beyond _ _) fun _ => afterStep_beyond ..

theorem hotDevice_counts {tCase : Int} {hot : Bool} (h : 1250 ≤ tCase ∨ hot = true) (s u : State) :
    (hotDevice s tCase hot).Ends u fun _ t => Counted 220 0 u t := by
  have hstop : ∀ g, (startSs1 g 220).Fixes (State.occurShown 220) := fun g => .shownIn 220 (foot_startSs1 g 220) (by decide) (by decide)
  exact .ite_pos h <| .seq (occurrence_counted 220 0 0 u) fun turned v hv =>
    .ofFixes (.when (c := turned = true) (.forM hstop _)) fun _ _ ht => hv.then_shown ht

theorem afterStep_counts {tCase : Int} {hot : Bool} (h : 1250 ≤ tCase ∨ hot = true) (s : State) (new : Nat) (u : State) :
    (afterStep s new tCase hot).Ends u fun _ t => Counted 220 0 u t := by
  have hj : ∀ n, (startJoin n).Fixes (State.occurShown 220) := fun n => .shownIn 220 (foot_startJoin n) (by decide) (by decide)
  have hjoined : ∀ n, (startJoin n >>= fun _ => hotDevice s tCase hot).Ends u fun _ t => Counted 220 0 u t := fun n =>
    .after (hj n) fun _ v hv => by
      obtain ⟨_, t, hd, ht⟩ := hotDevice_counts h s v
      exact .ofDoes hd (ht.of_shown hv)
  refine .ite ?_ (hotDevice_counts h s u)
  split
  · exact .ite (hjoined _) (hotDevice_counts h s u)
  · exact hotDevice_counts h s u

theorem deratingStep_lt (cur : Nat) (t : Int) : deratingStep cur t < 16 := by
  unfold deratingStep
  split_ifs <;> decide

theorem stepTold_in (new : Nat) (tCase : Int) : (stepTold new tCase).In [0, 1, 20, 22, 33, 43, 47] :=
  .bind (M.In.wf 22 _ _ (by decide) (by decide)) fun _ => .bind (M.In.inc 22 _ (by decide) (by decide)) fun _ =>
    .bind (.forM (fun n => M.In.wf 0 (SYS.ISLAND.CLK_STEP n) _ (SYS.ISLAND_page n) (by decide)) _) fun _ =>
    (foot_eventDev _ _).mono (by decide)

theorem stepTold_shows (new : Nat) (hnew : new < 16) (tCase : Int) (s : State) :
    (stepTold new tCase).Ends s fun _ t => t.f LCY.THERM.STEP = new ∧ t.f LCY.THERM.T_CASE = s.f LCY.THERM.T_CASE := by
  have hrest : ∀ x : FldAt, x.Apart LCY.THERM.STEP_CHANGES → x.addr = LCY.THERM → ∀ n op body, (do
      inc LCY.THERM.STEP_CHANGES
      [11, 10, 8].forM fun k => wf (SYS.ISLAND.CLK_STEP k) n
      eventDev op body : M Unit).Fixes fun s => s.f x := fun x hx ha n op body => by
    have hin : ∀ {P : List Nat} {m : M Unit}, m.In P → 99 ∉ P ∧ 22 ∉ P → m.Fixes fun s => s.f x := fun h hn =>
      .ofIn h fun _ _ hs => hs.f hn.1 (by rw [ha]; exact hn.2)
    exact .bind (.incApart hx) fun _ => .bind (.forM (fun k => hin
      (M.In.wf (P := [0]) 0 (SYS.ISLAND.CLK_STEP k) _ (SYS.ISLAND_page k) (by decide)) (by decide)) _) fun _ =>
      hin (foot_eventDev _ _) (by decide)
  obtain ⟨hcase, hstep⟩ := THERM_apart
  refine .bind (M.does_wf _ _ s) <| .ofFixes (.prod (hrest LCY.THERM.STEP (hstep _ (by decide)) rfl _ _ _)
    (hrest LCY.THERM.T_CASE (hcase _ (by decide)) rfl _ _ _)) fun _ t ht => ?_
  obtain ⟨ht1, ht2⟩ := Prod.ext_iff.mp ht
  exact ⟨ht1.trans ((f_wf_same THERM_fields.2 new s).trans (Nat.mod_eq_of_lt hnew)),
    ht2.trans (f_wf_apart (hcase _ (by decide)) new s)⟩

/-- R477: the temperature and the step that are shown, and the occurrence. -/
theorem thermalDerating_shows {s : State} (tCase : Int) (hot : Bool) (ha : s.awake = true) (hd : s.dev ≠ 0) :
    (thermalDerating tCase hot).Ends s fun _ t =>
      t.f LCY.THERM.T_CASE = codeOf 12 (clampI (-2048) 2047 tCase) ∧
      t.f LCY.THERM.STEP = deratingStep (s.f LCY.THERM.STEP) tCase ∧
      ((1250 ≤ tCase ∨ hot = true) → Counted 220 0 s t) := by
  set c := codeOf 12 (clampI (-2048) 2047 tCase)
  set new := deratingStep (s.f LCY.THERM.STEP) tCase
  have hlast : ∀ v : State, v.f LCY.THERM.T_CASE = c → v.f LCY.THERM.STEP = new → v.occurShown 220 = s.occurShown 220 →
      (afterStep s new tCase hot).Ends v fun _ t => t.f LCY.THERM.T_CASE = c ∧ t.f LCY.THERM.STEP = new ∧
        ((1250 ≤ tCase ∨ hot = true) → Counted 220 0 s t) := fun v hc hn hv => by
    have hf : ∀ x : FldAt, x.addr = LCY.THERM → (afterStep s new tCase hot).Fixes fun s => s.f x := fun x hx =>
      .ofIn (afterStep_in _ _ _ _) fun _ _ hs => hs.f (by decide) (by rw [hx]; decide)
    obtain ⟨_, t, hd, ht⟩ := (hf LCY.THERM.T_CASE rfl).prod (hf LCY.THERM.STEP rfl) |>.does v
    obtain ⟨ht1, ht2⟩ := Prod.ext_iff.mp ht
    refine .ofDoes hd ⟨ht1.trans hc, ht2.trans hn, fun h => ?_⟩
    obtain ⟨_, w, hd', hw⟩ := afterStep_counts h s new v
    exact hd.unique hd' ▸ hw.of_shown hv
  rw [thermalDerating_eq]
  have hin : (wf LCY.THERM.T_CASE c).In [22] := M.In.wf 22 _ _ (by decide) (by decide)
  obtain ⟨_, u, hdu, hcase, hstep, hshown⟩ : (wf LCY.THERM.T_CASE c).Ends s fun _ u =>
      u.f LCY.THERM.T_CASE = c ∧ u.f LCY.THERM.STEP = s.f LCY.THERM.STEP ∧ u.occurShown 220 = s.occurShown 220 :=
    .ofDoes (hin.does s) ⟨(congrArg (State.f · _) (M.does_wf _ _ s).run).trans <|
      (f_wf_same THERM_fields.1 c s).trans (Nat.mod_eq_of_lt (codeOf_lt _ _)),
      (congrArg (State.f · _) (M.does_wf _ _ s).run).trans (f_wf_apart (THERM_apart.2 _ (by decide)) c s),
      (hin.run s).shown 220 (by decide) (by decide)⟩
  refine .read <| .ite_pos ⟨ha, hd⟩ <| .bind hdu ?_
  by_cases hne : new ≠ s.f LCY.THERM.STEP
  · refine .ite_pos hne ?_
    obtain ⟨_, v, hdv, hstep', hcase'⟩ := stepTold_shows new (deratingStep_lt _ _) tCase u
    have hsame : Same _ u v := hdv.run ▸ (stepTold_in new tCase).run u
    exact .bind hdv (hlast v (hcase'.trans hcase) hstep' ((hsame.shown 220 (by decide) (by decide)).trans hshown))
  · exact .ite_neg hne (hlast u hcase (hstep.trans (not_not.mp hne).symm) hshown)

/-! ## The statement -/

/-- Settles O31: the transitions of R466 and R467, and the step of R477 with its hysteresis. -/
theorem deviceStatesFollowGroups : Obligations.Device_states_follow_groups := by
  unfold Obligations.Device_states_follow_groups
  refine ⟨fun s ha hd => ?_, fun s v h => ?_, fun s v h => ?_, fun s tCase hot ha hd => ?_⟩
  · refine .of_next rfl ?_
    obtain ⟨hdeg, hdev⟩ := (M.Ends.whenAwake ha (deviceStateEvaluation_shows ha hd)).run
    refine ⟨hdeg, hdev, ?_⟩
    rw [whenAwake_run ha (foot_deviceStateEvaluation.does s)]
    exact deviceStateEvaluation_keeps.run s
  · exact .of_checked rfl (via_wf_of_accepts h) (lcyCmd_sets (by decide) h)
  · exact .of_checked rfl (via_wf_of_accepts h) (lcyCmd_sets (by decide) h)
  · refine .of_next rfl ?_
    rw [whenAwake_run ha ((foot_thermalDerating tCase hot).does s)]
    obtain ⟨hcase, hstep, hcount⟩ := (thermalDerating_shows tCase hot ha hd).run
    have hkeeps := ((foot_thermalDerating tCase hot).run s).keeps ((thermalDerating_beyond tCase hot).run s)
      (pages := [0x16, 0x00, 0x01, 0x03, 0x04, 0x05, 0x06, 0x09, 0x0C, 0x10, 0x11, 0x14]) (by decide) (by decide)
    refine ⟨hcase, fun h => ?_, fun h h' => ?_, fun h h' => ?_, fun h h' => ?_, fun h => ?_, hcount, hkeeps⟩
    all_goals
      rw [hstep, deratingStep]
      split_ifs <;> omega

end Sys2Proof.Machine
end

section
/-! SUPPORT. Relations that hold along the reaction to an occurrence: along what trips and forces groups, starts and ends safety
functions and judges occurrences, where they hold along events and along changes of the places that these reach. -/

namespace Sys2Proof.Machine

/-- The places that the reaction to an occurrence reaches beside those of events. -/
abbrev reactionPlaces : List Nat := [0, 3, 4, 5, 6, 9, 12, 16, 17, 35, 44, 45, 46, 48, 49, 50]

/-- A relation that holds along events and along what the reaction to an occurrence does beside them. -/
structure Reactive (ρ : State → State → Prop) : Prop where
  ongoing : Ongoing ρ
  places : ∀ s t, Same reactionPlaces s t → ρ s t
  event : ∀ op page inst scope body, (Machine.event op page inst scope body).Along ρ
  attn : setAttn.Along ρ

namespace Reactive

variable {ρ : State → State → Prop} (h : Reactive ρ)
include h

theorem within {α : Type} {P : List Nat} {m : M α} (hm : m.In P) (hp : ∀ x ∈ P, x ∈ reactionPlaces) : m.Along ρ :=
  .ofIn (hm.mono hp) h.places

/-! ## Groups -/

theorem setGState (g : Nat) (st : GState) (cause : Nat) : (Machine.setGState g st cause).Along ρ :=
  .read fun _ => h.ongoing.when <| h.ongoing.bind (h.within (foot_updGrp g _) (by decide)) fun _ =>
    h.ongoing.bind (h.within foot_setAvail (by decide)) fun _ => h.event _ _ _ _ _

theorem tripGroup (g kind first : Nat) : (Machine.tripGroup g kind first).Along ρ := by
  have hwf : ∀ x v, x.addr = TRP.GRP_TRIP g → (wf x v).Along ρ := fun x v hx =>
    h.within (M.In.wf (P := [4]) 4 x v (hx ▸ TRP.GRP_TRIP_page g) (by decide)) (by decide)
  have hcount : (inc (TRP.GRP_TRIP.COUNT g)).Along ρ :=
    h.within (M.In.inc (P := [4]) 4 _ (TRP.GRP_TRIP_page g) (by decide)) (by decide)
  have hpattern : ∀ asc, (applyPattern g asc).Along ρ := fun _ => h.within (foot_applyPattern _ _) (by decide)
  have k := h.ongoing
  exact .read fun _ => .ite
    (k.bind (hwf _ _ rfl) fun _ => k.bind (hwf _ _ rfl) fun _ => k.bind (hwf _ _ rfl) fun _ => k.bind (hwf _ _ rfl) fun _ =>
      k.bind (hwf _ _ rfl) fun _ => k.bind hcount fun _ => k.bind (hpattern _) fun _ =>
      k.bind (h.within (foot_dropGroup g) (by decide)) fun _ => k.bind (h.within (foot_endSs1 g) (by decide)) fun _ =>
      k.bind (h.setGState _ _ _) fun _ => k.bind (h.event _ _ _ _ _) fun _ => k.pure _) <|
    .ite (k.bind (hwf _ _ rfl) fun _ => k.bind (hwf _ _ rfl) fun _ => k.bind hcount fun _ => k.bind (hpattern _) fun _ =>
      k.bind (h.event _ _ _ _ _) fun _ => k.pure _) (k.pure _)

theorem setChg (new cause : Nat) : (Machine.setChg new cause).Along ρ :=
  .read fun _ => h.ongoing.when <|
    h.ongoing.bind (h.within (M.In.wf (P := [12]) 12 _ _ (by decide) (by decide)) (by decide)) fun _ => h.event _ _ _ _ _

theorem emergencyStop (cause : Nat) (toFault : Bool) : (Machine.emergencyStop cause toFault).Along ρ := by
  have hcount : (inc CHG.COUNT.EMERGENCY).In [12] := M.In.inc 12 _ (by decide) (by decide)
  have k := h.ongoing
  exact .read fun _ => k.when <| k.bind (h.within hcount (by decide)) fun _ => k.bind (h.tripGroup _ _ _) fun _ =>
    k.bind (h.tripGroup _ _ _) fun _ => k.bind (h.within (M.In.hid_chg (P := [48]) _ (by decide)) (by decide)) fun _ =>
    k.bind (h.within foot_releaseRelays (by decide)) fun _ => h.setChg _ _

theorem forceGroup (g code cause : Nat) : (Machine.forceGroup g code cause).Along ρ := by
  have hgrp : ∀ f, (updGrp g f).Along ρ := fun f => h.within (foot_updGrp g f) (by decide)
  have hshow : (showForce g).Along ρ := h.within (foot_showForce g) (by decide)
  have k := h.ongoing
  exact .read fun _ => .ite
    (k.bind (h.within (foot_dropGroup g) (by decide)) fun _ => k.bind (hgrp _) fun _ => k.bind (hgrp _) fun _ =>
      k.bind (h.setGState _ _ _) fun _ => hshow) <|
    k.when <| k.bind (hgrp _) fun _ => hshow

theorem forceAct (g code cause : Nat) : (Machine.forceAct g code cause).Along ρ :=
  .read fun _ => h.ongoing.bind (h.forceGroup _ _ _) fun _ => h.ongoing.when (h.emergencyStop _ _)

theorem setDev (new : Nat) : (Machine.setDev new).Along ρ :=
  .read fun _ => h.ongoing.when <|
    h.ongoing.bind (h.within (M.In.wf (P := [0]) 0 SYS.STATUS.DEV_STATE new (by decide) (by decide)) (by decide)) fun _ =>
    .read fun _ => h.event _ _ _ _ _

theorem deviceSafe : Machine.deviceSafe.Along ρ := .read fun _ => h.ongoing.when (h.setDev _)

/-! ## Safety functions -/

theorem funcEffect (f g cause : Nat) : (Machine.funcEffect f g cause).Along ρ := by
  refine .read fun s => ?_
  split
  · exact h.forceAct _ _ _
  · exact h.ongoing.when <| .ite (h.ongoing.when (h.within (foot_updGrp g _) (by decide))) (h.forceAct _ _ _)
  · exact h.forceAct _ _ _
  · exact h.forceAct _ _ _
  · exact h.ongoing.pure _

theorem saf {x : FldAt} (v : Nat) (hx : x.addr / 65536 = 16) : (wf x v).Along ρ :=
  h.within (M.In.wf (P := [16]) 16 x v hx (by decide)) (by decide)

theorem updFunc (f : Nat) (g : FuncSt → FuncSt) : (Machine.updFunc f g).Along ρ := h.within (foot_updFunc f g) (by decide)

theorem trigger (f src key : Nat) (gs : List Nat) (cause : Nat) : (Machine.trigger f src key gs cause).Along ρ := by
  have hstat := SAF.FUNC_STAT_page f
  have hcount : (inc (SAF.FUNC_STAT.COUNT f)).In [16] := M.In.inc 16 _ hstat (by decide)
  have k := h.ongoing
  exact .read fun _ => k.when <| k.bind (h.updFunc _ _) fun _ => k.bind (h.saf _ hstat) fun _ => k.bind (h.saf _ hstat) fun _ =>
    k.thenMore (k.bind (h.saf _ hstat) fun _ => k.bind (h.saf _ (by decide)) fun _ =>
      k.bind (h.within hcount (by decide)) fun _ => k.bind (.read fun _ => h.event _ _ _ _ _) fun _ =>
      h.within (foot_funcStart f) (by decide)) fun _ =>
    k.forM (fun _ => h.funcEffect _ _ _) _

theorem releaseFunc (f : Nat) : (Machine.releaseFunc f).Along ρ := by
  have hstat := SAF.FUNC_STAT_page f
  have k := h.ongoing
  exact .read fun _ => k.bind (h.saf _ hstat) fun _ => k.bind (h.saf _ hstat) fun _ => k.bind (h.saf _ (by decide)) fun _ =>
    k.bind (h.saf _ hstat) fun _ => k.bind (.read fun _ => h.event _ _ _ _ _) fun _ => k.bind (h.updFunc _ _) fun _ =>
    k.thenMore (k.forM (fun _ => h.within (foot_endSs1 _) (by decide)) _) fun _ =>
    k.forM (fun _ => .read fun _ => k.when (h.within (foot_releaseForce _ _) (by decide))) _

theorem withdraw (f src key : Nat) : (Machine.withdraw f src key).Along ρ :=
  .read fun _ => h.ongoing.when <| h.ongoing.bind (h.updFunc _ _) fun _ => .read fun _ => h.ongoing.when <|
    .ite (h.releaseFunc f) (h.saf _ (SAF.FUNC_STAT_page f))

theorem startSs1 (g cause : Nat) : (Machine.startSs1 g cause).Along ρ :=
  .read fun _ => h.ongoing.when <| h.ongoing.bind (h.trigger _ _ _ _ _) fun _ => .read fun _ => h.ongoing.when (h.withdraw _ _ _)

/-! ## The ledger -/

theorem react (cls src inst : Nat) : (Machine.react cls src inst).Along ρ := by
  have k := h.ongoing
  exact .read fun _ => .ite (k.forM (fun _ => h.startSs1 _ _) _) <| .ite (k.forM (fun _ => h.forceAct _ _ _) _) <|
    k.when <| k.bind (k.forM (fun _ => h.forceAct _ _ _) _) fun _ => h.deviceSafe

theorem setLastingSrc : Machine.setLastingSrc.Along ρ :=
  .read fun _ => h.ongoing.bind (h.within (M.In.wf (P := [17]) 17 _ _ (by decide) (by decide)) (by decide)) fun _ => h.attn

theorem occurrence (src inst detail : Nat) : (Machine.occurrence src inst detail).Along ρ := by
  have k := h.ongoing
  have hin : ∀ {m : M Unit}, m.In [17] → m.Along ρ := fun hm => h.within hm (by decide)
  have hinc : ∀ x : FldAt, x.addr = FLG.OCCUR src → (inc x).Along ρ := fun x hx =>
    hin <| M.In.inc 17 x (hx ▸ FLG.OCCUR_page src) (by decide)
  have hflg : ∀ f : Hidden → FlgSt, (hid fun y => { y with flg := f y }).Along ρ := fun f =>
    h.within (M.In.hid_flg (P := [46]) f (by decide)) (by decide)
  exact .read fun _ => k.bind (hinc _ rfl) fun _ =>
    k.bind (hin <| M.In.wf 17 _ _ (FLG.OCCUR_page src) (by decide)) fun _ => k.bind (hflg _) fun _ =>
    .ite (k.bind (hin <| M.In.wr 17 _ _ (FLG.LASTING_page src) (by decide)) fun _ => k.bind (hinc _ rfl) fun _ =>
      k.bind h.setLastingSrc fun _ => k.bind (h.within (foot_queueEntry _ _) (by decide)) fun _ =>
      k.bind (h.event _ _ _ _ _) fun _ => k.bind (h.react _ _ _) fun _ => k.pure _)
    (k.bind (hflg _) fun _ => k.pure _)

theorem occur (src inst detail : Nat) : (Machine.occur src inst detail).Along ρ :=
  h.ongoing.bind (h.occurrence _ _ _) fun _ => h.ongoing.pure _

/-! ## Safety functions follow what asks for them -/

theorem followTrigger (f src : Nat) (asks : Bool) : (Machine.followTrigger f src asks).Along ρ :=
  .read fun _ => .ite (h.ongoing.when (h.trigger _ _ _ _ _)) (h.withdraw _ _ _)

theorem syncFunc (f : Nat) : (Machine.syncFunc f).Along ρ := by
  have k := h.ongoing
  exact .read fun _ => k.bind (h.followTrigger _ _ _) fun _ => .read fun _ => k.bind (h.followTrigger _ _ _) fun _ => .read fun _ =>
    k.bind (h.followTrigger _ _ _) fun _ => .read fun _ => k.when <| .ite (k.when (h.trigger _ _ _ _ _)) (k.when (h.releaseFunc _))

theorem syncFuncs : Machine.syncFuncs.Along ρ := h.ongoing.forM (fun f => h.syncFunc f) _

theorem acknowledge : Machine.acknowledge.Along ρ :=
  h.ongoing.forM (fun _ => .read fun _ => h.ongoing.when (h.releaseFunc _)) _

theorem setDemand (i cause : Nat) : (Machine.setDemand i cause).Along ρ := by
  have k := h.ongoing
  have hwf : ∀ x : FldAt, x.addr = SAF.SIN i → ∀ v, (wf x v).Along ρ := fun x hx v => h.saf v (hx ▸ SAF.SIN_page i)
  exact .read fun _ => .ite (k.bind (hwf _ rfl _) fun _ => k.bind (.read fun _ => k.when (hwf _ rfl _)) fun _ =>
    k.bind (h.event _ _ _ _ _) fun _ => k.thenMore (hwf _ rfl _) fun _ => k.pure _) (k.thenMore (hwf _ rfl _) fun _ => k.pure _)

theorem inputChanged (i cause : Nat) : (Machine.inputChanged i cause).Along ρ := by
  have k := h.ongoing
  exact k.bind (h.setDemand i cause) fun _ => k.bind (h.setDemand _ cause) fun _ => k.bind h.syncFuncs fun _ =>
    .read fun _ => k.when h.acknowledge

end Reactive

end Sys2Proof.Machine
end

section
/-! SUPPORT. What sending leaves of the networks' state: it moves transmit queues of the CAN controllers and hands datagrams to the
MACs, and nothing else of it. -/

namespace Sys2Proof.Machine

/-- A view of the networks' state that neither transmit queues nor datagrams that were handed out change. -/
structure Queueless {β : Type} (φ : BusSt → β) : Prop where
  tx : ∀ b n l, φ { b with can := mupd {} b.can n fun c => { c with tx := l } } = φ b
  out : ∀ b o, φ { b with out := o } = φ b

theorem M.Fixes.busIn {α β : Type} {P : List Nat} {m : M α} (φ : BusSt → β) (h : m.In P) (hn : 99 ∉ P ∧ 47 ∉ P) :
    m.Fixes fun s => φ s.hid.bus := .ofIn h fun _ _ hs => congrArg φ (hs.hid hn.1 47 hn.2)

theorem M.Fixes.busWf {β : Type} (φ : BusSt → β) (x : FldAt) (v : Nat) : (wf x v).Fixes fun s => φ s.hid.bus :=
  .read fun _ => .act fun _ => congrArg (fun y : Hidden => φ y.bus) (apply_reg_hid ..)

section
variable {β : Type} (φ : BusSt → β)

theorem eventLost_bus (route : Nat) : (eventLost route).Fixes fun s => φ s.hid.bus := .busIn φ (foot_eventLost route) (by decide)

theorem eventDelivered_bus (route : Nat) : (eventDelivered route).Fixes fun s => φ s.hid.bus :=
  .busIn φ (foot_eventDelivered route) (by decide)

theorem spiEvent_bus (p : OutPkt) : (act (.spiEvent p)).Fixes fun s => φ s.hid.bus :=
  .busIn φ (M.In.spiEvent (P := [33]) p (by decide)) (by decide)

theorem setAttn_bus : setAttn.Fixes fun s => φ s.hid.bus := .busIn φ foot_setAttn (by decide)

theorem eventPacket_bus (route op page inst scope : Nat) (body : List Byte) :
    (eventPacket route op page inst scope body).Fixes fun s => φ s.hid.bus :=
  .busIn φ (foot_eventPacket route op page inst scope body) (by decide)

end

namespace Queueless

variable {β : Type} {φ : BusSt → β} (h : Queueless φ)
include h

theorem ethSend (o : EthOut) : (Machine.ethSend o).Fixes fun s => φ s.hid.bus := .act fun _ => h.out _ _

theorem canEnqueue (n : Nat) (t : TxFrame) : (Machine.canEnqueue n t).Fixes fun s => φ s.hid.bus := by
  have hset : ∀ l : List TxFrame, (do
      Machine.hid fun h => { h with bus := { h.bus with can := mupd {} h.bus.can n fun c => { c with tx := l } } }
      Machine.wf (BUS.TX_STAT.QUEUED n) l.length : M Unit).Fixes fun s => φ s.hid.bus := fun l =>
    .bind (.act fun _ => h.tx _ _ _) fun _ => .busWf φ _ _
  have hinc : ∀ x : FldAt, (inc x).Fixes fun s => φ s.hid.bus := fun x => .read fun _ => .when (.busWf φ _ _)
  refine .read fun s => .ite (.bind (hset _) fun _ => .pure _) ?_
  split
  · exact .pure _
  · exact .ite (.bind (hset _) fun _ => .bind (hinc _) fun _ => .pure _) (.bind (hinc _) fun _ => .pure _)

theorem canxlSend (p : OutPkt) : (Machine.canxlSend p).Fixes fun s => φ s.hid.bus := by
  refine .read fun s => .bind (h.canEnqueue _ _) fun lost => ?_
  cases lost with
  | none => exact .pure _
  | some u => exact .ite (.bind (.read fun _ => .when (.busWf φ _ _)) fun _ => .pure _) (.pure _)

theorem event (op page inst scope : Nat) (body : List Byte) :
    (Machine.event op page inst scope body).Fixes fun s => φ s.hid.bus := by
  have hspi : (eventSpi op page inst scope body).Fixes fun s => φ s.hid.bus := .read fun _ => .ite
    (.bind (eventPacket_bus φ _ _ _ _ _ _) fun _ => .bind (spiEvent_bus φ _) fun _ => .bind (eventDelivered_bus φ 0) fun _ => setAttn_bus φ)
      (eventLost_bus φ 0)
  have hcan : (eventCanxl op page inst scope body).Fixes fun s => φ s.hid.bus := .read fun _ =>
    .ite (.bind (eventPacket_bus φ _ _ _ _ _ _) fun p => .bind (h.canxlSend p) fun _ =>
      .ite (eventDelivered_bus φ 1) (.act fun _ => rfl)) (eventLost_bus φ 1)
  have hudp : (eventUdp op page inst scope body).Fixes fun s => φ s.hid.bus := by
    refine .read fun s => ?_
    dsimp only
    split
    · exact .ite (.bind (eventPacket_bus φ _ _ _ _ _ _) fun _ => .bind (h.ethSend _) fun _ => eventDelivered_bus φ 2) (eventLost_bus φ 2)
    · exact eventLost_bus φ 2
  exact .read fun _ => .when (.thenMore hspi fun _ => .thenMore hcan fun _ => .when hudp)

theorem sendTo (src : Source) (p : OutPkt) : (Machine.sendTo src p).Fixes fun s => φ s.hid.bus := by
  have hhand : (handTo src p).Fixes fun s => φ s.hid.bus := by
    cases src with
    | spi =>
      exact .bind (.busIn φ (M.In.spiReply (P := [33]) p (by decide)) (by decide)) fun _ => .bind (setAttn_bus φ) fun _ => .pure _
    | tunnel =>
      exact .read fun s => .ite (.bind (.act fun _ => rfl) fun _ => .pure _)
        (.bind (.busIn φ (foot_placeTunnel p) (by decide)) fun _ => .pure _)
    | canxl => exact h.canxlSend p
    | udp =>
      refine .read fun s => ?_
      dsimp only
      split <;> exact .bind (h.ethSend _) fun _ => .pure _
    | sequence => exact .pure _
  exact .read fun _ => .ite hhand (.bind (.act fun _ => rfl) fun _ => .pure _)

theorem sendCompletion (d : Due) (status reason detail : Nat) (data : List Byte) :
    (Machine.sendCompletion d status reason detail data).Fixes fun s => φ s.hid.bus := by
  refine .bind (.act fun _ => rfl) fun _ => .ite (.act fun _ => rfl) <| .when ?_
  dsimp only
  split
  · exact .read fun _ => .ite (.bind (eventPacket_bus φ _ _ _ _ _ _) fun _ => .bind (spiEvent_bus φ _) fun _ =>
      .bind (eventDelivered_bus φ 0) fun _ => setAttn_bus φ) (eventLost_bus φ 0)
  · exact .bind (eventPacket_bus φ _ _ _ _ _ _) fun _ => .bind (h.sendTo _ _) fun _ => .ite (eventDelivered_bus φ _) (.act fun _ => rfl)

theorem complete (kind unit status reason detail : Nat) (data : List Byte) :
    (Machine.complete kind unit status reason detail data).Fixes fun s => φ s.hid.bus := by
  refine .read fun s => ?_
  split
  · exact h.sendCompletion ..
  · exact .pure _

end Queueless

/-! ## What waits inside the block -/

/-- What the readers of the logs and the interfaces' buffers find. -/
def BusSt.unread (b : BusSt) : List (Nat × EthFrame) × (Nat → List LogEntry × Nat × Nat) :=
  (b.rx, fun n => ((mget {} b.can n).log, (mget {} b.can n).cd0, (mget {} b.can n).cd2))

theorem unread_queueless : Queueless BusSt.unread where
  out _ _ := rfl
  tx b n l := Prod.ext rfl <| funext fun k => by
    rcases eq_or_ne k n with rfl | hne
    · simp only [BusSt.unread, mget_mupd_same]
    · simp only [BusSt.unread, mget_mupd_other _ _ _ _ _ hne]

/-- Everything that waits for the executor or for a reader. -/
def State.awaits (s : State) := (s.executor, s.hid.bus.unread)

/-- What waits is the same. -/
abbrev SameWaits (s t : State) : Prop := t.awaits = s.awaits

theorem SameWaits.ongoing : Ongoing SameWaits := ⟨fun _ => rfl, fun h h' => h'.trans h⟩

theorem M.Along.waitsIn {α : Type} {P : List Nat} {m : M α} (h : m.In P) (hn : 99 ∉ P ∧ 43 ∉ P ∧ 47 ∉ P) : m.Along SameWaits :=
  .ofIn h fun _ _ hs => Prod.ext (hs.executor ⟨hn.1, hn.2.1⟩) (congrArg BusSt.unread (hs.hid hn.1 47 hn.2.2))

theorem unsent_executor : Unsent State.executor := unsent_cmd (fun x => (x.run, x.waiting)) fun _ _ _ _ _ _ => rfl

theorem event_waits (op page inst scope : Nat) (body : List Byte) : (event op page inst scope body).Along SameWaits :=
  .ofFixes (.prod (unsent_executor.event op page inst scope body) (unread_queueless.event op page inst scope body)) fun _ _ h => h

theorem setAttn_waits : setAttn.Along SameWaits :=
  .ofFixes (.prod unsent_executor.setAttn (setAttn_bus BusSt.unread)) fun _ _ h => h

theorem complete_waits (kind unit status reason detail : Nat) (data : List Byte) :
    (complete kind unit status reason detail data).Along SameWaits :=
  .ofFixes (.prod (complete_executor ..) (unread_queueless.complete kind unit status reason detail data)) fun _ _ h => h

/-- The reaction to an occurrence lets what waits wait on. -/
theorem reactive_waits : Reactive SameWaits where
  ongoing := SameWaits.ongoing
  places _ _ h := Prod.ext (h.executor (by decide)) (congrArg BusSt.unread (h.hid (by decide) 47 (by decide)))
  event := event_waits
  attn := setAttn_waits

end Sys2Proof.Machine
end

section
/-! Statement O51, refuted: a long press while the LLC group runs. -/

namespace Sys2Proof.Machine

/-- The LLC group, with channel 5, is RUNNING, no other group is. A rising edge of the channel waits in its shadow for a COMMIT. -/
def runningLlc : State :=
  M.run (do
    wtab 0x30 (8 * 5) [5, 0]
    updGrp llcGroup fun r => { r with st := .running }
    wr (PLS.RISE 5) 100)
    linkUp

/-- The press is long and no other group is active; it disables the group, and what waited in its shadows is discarded (R100, R365). -/
theorem runningLlc_discardsShadow : runningLlc.awake = true ∧ runningLlc.f LVP.BTN.LONG_S * 1000 ≤ 255000 ∧
    (groups.any fun g => runningLlc.active g && g != llcGroup && g != runningLlc.buckGroup) = false ∧
    ((whenAwake (longPress 255000)).run runningLlc).rd (PLS.RISE 5) ≠ runningLlc.rd (PLS.RISE 5) := by
  decide +kernel

/-- Refutes O51: a long press disables the groups of the LLC converter and of the buck before it opens the battery switch (R365), and
the shadows of a group that leaves RUNNING take their committed values again (R100). The clause of LONG_PRESS lets those two groups be active and
has nothing but LVP.STATUS, LVP.INT_STAT and what an event reaches change. -/
theorem not_convertersAndPowerPath : ¬ Obligations.Converters_and_power_path := by
  unfold Obligations.Converters_and_power_path
  rintro ⟨-, -, -, -, -, -, -, -, -, -, -, -, -, -, hpress, -⟩
  obtain ⟨hawake, hlong, halone, hshadow⟩ := runningLlc_discardsShadow
  obtain ⟨t, ht, -, -, -, hkeeps⟩ := hpress runningLlc 255000 hawake hlong halone
  have hsame := hkeeps.rd (PLS.RISE 5) (by decide) (by decide)
  rw [exec_next_eq ht (m := whenAwake (longPress 255000)) rfl] at hsame
  exact hshadow hsame

end Sys2Proof.Machine
end

section
/-! SUPPORT for O32: the states of the Chords (R417 to R421). -/

namespace Sys2Proof.Machine

/-! ## The states of the Chords -/

/-- The field that shows the state of a Chord. -/
def chdField : Nat → FldAt
  | 0 => CHD.STATUS.CD0
  | 1 => CHD.STATUS.CD1
  | _ => CHD.STATUS.CD2

theorem chd_eq (s : State) (n : Nat) : s.chd n = s.f (chdField n) := by
  rcases n with _ | _ | n <;> rfl

theorem chdField_addr (n : Nat) : (chdField n).addr = CHD.STATUS := by
  unfold chdField
  split <;> rfl

theorem chdField_real (n : Fin 3) : (chdField n).Real ∧ (chdField n).hi + 1 - (chdField n).lo = 3 := by
  revert n
  decide

theorem chdField_apart (m n : Fin 3) (h : m ≠ n) : (chdField m).Apart (chdField n) := by
  revert m n
  decide

theorem CHD_fields (n : Fin 3) : (CHD.CNT.MISMATCHES n).Real ∧ (CHD.CNT.RESTARTS n).Real := by
  revert n
  decide

theorem CKPT_fields (n : Fin 3) : (CHD.CKPT.RESTART_MAX n).Real ∧ (CHD.CKPT.CKPT_COUNT n).Real := by
  revert n
  decide

theorem putChd_eq (n new : Nat) : putChd n new = wf (chdField n) new := by
  rcases n with _ | _ | n <;> rfl

/-- A Chord's state is `new`, and that of the others is as it was. -/
structure ChdIs (n : Fin 3) (new : Nat) (s t : State) : Prop where
  here : t.chd n = new
  others : ∀ m : Fin 3, m ≠ n → t.chd m = s.chd m

theorem putChd_sets (n : Fin 3) {new : Nat} (hnew : new < 8) (s : State) : (putChd n new).Ends s fun _ t => ChdIs n new s t := by
  obtain ⟨hreal, hwidth⟩ := chdField_real n
  rw [putChd_eq]
  refine .ofDoes (M.does_wf _ _ s) ⟨?_, fun m hm => ?_⟩
  · rw [chd_eq]
    exact (f_wf_same hreal new s).trans (by rw [hwidth]; exact Nat.mod_eq_of_lt hnew)
  · rw [chd_eq, chd_eq]
    exact f_wf_apart (chdField_apart m n hm) new s

theorem setChd_sets (n : Fin 3) {new : Nat} (hnew : new < 8) (cause : Nat) (s : State) :
    (setChd n new cause).Ends s fun _ t => ChdIs n new s t := by
  refine .read ?_
  by_cases h : s.chd n ≠ new
  · exact .ite_pos h <| .seq (putChd_sets n hnew s) fun _ u hu => .ofIn (foot_chdEvent _ _ _ _) fun _ t ht =>
      ⟨(ht.chd (by decide) (by decide) n).trans hu.here, fun m hm => (ht.chd (by decide) (by decide) m).trans (hu.others m hm)⟩
  · exact .ite_neg h <| .ofDoes (M.does_pure () s) ⟨not_not.mp h, fun _ _ => rfl⟩

/-- A frame in which what waits waits on. -/
structure Calm (as ps : List Nat) (s t : State) : Prop where
  keeps : Keeps as ps s t
  waits : SameWaits s t

theorem Calm.ongoing (as ps : List Nat) : Ongoing (Calm as ps) :=
  ⟨fun s => ⟨(Keeps.ongoing as ps).refl s, rfl⟩, fun h h' =>
    ⟨(Keeps.ongoing as ps).trans h.keeps h'.keeps, SameWaits.ongoing.trans h.waits h'.waits⟩⟩

theorem M.Along.calm {α : Type} {m : M α} {as ps : List Nat} (h : m.Along (Keeps as ps)) (h' : m.Along SameWaits) :
    m.Along (Calm as ps) := (h.and h').mono fun _ _ hs => ⟨hs.1, hs.2⟩

theorem Calm.mono {as bs ps qs : List Nat} {s t : State} (h : Calm as ps s t) (ha : as ⊆ bs) (hp : ps ⊆ qs) : Calm bs qs s t :=
  ⟨h.keeps.mono ha hp, h.waits⟩

theorem wf_calm {as : List Nat} (ps : List Nat) {x : FldAt} (v : Nat) (h : x.addr ∈ as) : (wf x v).Along (Calm as ps) :=
  .calm (.keepsWf ps v h) (.ofFixes (.read fun _ => .act fun _ => congrArg
    (fun y : Hidden => ((y.cmd.run, y.cmd.waiting), y.bus.unread)) (apply_reg_hid ..)) fun _ _ hs => hs)

theorem eventDev_calm (as : List Nat) (op : Nat) (body : List Byte) : (eventDev op body).Along (Calm as eventPages) :=
  .calm (eventDev_keeps as op body) (event_waits _ _ _ _ _)

theorem complete_calm (as : List Nat) (kind unit status reason detail : Nat) (data : List Byte) :
    (complete kind unit status reason detail data).Along (Calm as eventPages) :=
  .calm (fun s => .ofDoes ((foot_complete kind unit status reason detail data).does s)
    ((complete_keeps kind unit status reason detail data s).mono (List.nil_subset _) (List.Subset.refl _)))
    (complete_waits kind unit status reason detail data)

theorem updChord_calm (as ps : List Nat) (n : Nat) (f : Chord → Chord) : (updChord n f).Along (Calm as ps) :=
  .calm (.keepsHid _ _ _) (.waitsIn (foot_updChord n f) (by decide))

/-- The parameters that a Chord's change of state moves. -/
abbrev ChdMoved := Calm [CHD.STATUS] eventPages

theorem putChd_calm (n new : Nat) : (putChd n new).Along ChdMoved := by
  rw [putChd_eq]
  exact wf_calm _ _ (by rw [chdField_addr]; decide)

theorem setChd_calm (n new cause : Nat) : (setChd n new cause).Along ChdMoved := by
  have k := Calm.ongoing [CHD.STATUS] eventPages
  exact .read fun _ => k.when <| k.bind (putChd_calm _ _) fun _ => eventDev_calm _ _ _

theorem dropSplit_calm (n reason : Nat) : (dropSplit n reason).Along ChdMoved := by
  have k := Calm.ongoing [CHD.STATUS] eventPages
  exact .read fun _ => k.when <| k.bind (updChord_calm _ _ _ _) fun _ => complete_calm _ _ _ _ _ _ _

theorem markFailed_calm (n cause : Nat) : (markFailed n cause).Along ChdMoved := by
  have k := Calm.ongoing [CHD.STATUS] eventPages
  exact k.bind (dropSplit_calm _ _) fun _ => k.bind (updChord_calm _ _ _ _) fun _ =>
    k.bind (.calm (.keepsHid _ _ _) (.waitsIn (M.In.hid_flg (P := [46]) _ (by decide)) (by decide))) fun _ => setChd_calm _ _ _

theorem carry_calm (n cause : Nat) : (carry n cause).Along ChdMoved :=
  .read fun _ => .ite (updChord_calm _ _ _ _) (setChd_calm _ _ _)

/-- A Chord is marked FAILED; the others stay. -/
theorem markFailed_sets (n : Fin 3) (cause : Nat) (s : State) : (markFailed n cause).Ends s fun _ t => ChdIs n 4 s t := by
  refine .afterIn (foot_dropSplit n 0x1203) fun _ u hu _ => .afterIn (foot_updChord n _) fun _ v hv _ =>
    .afterIn (M.In.hid_flg (P := [46]) _ (by decide)) fun _ w hw _ => ?_
  have hsame : ∀ m, w.chd m = s.chd m := fun m => (hw.chd (by decide) (by decide) m).trans <|
    (hv.chd (by decide) (by decide) m).trans (hu.chd (by decide) (by decide) m)
  obtain ⟨_, t, hd, hhere, hothers⟩ := setChd_sets n (new := 4) (by decide) cause w
  exact .ofDoes hd ⟨hhere, fun m hm => (hothers m hm).trans (hsame m)⟩

theorem otherChd_ne (n : Fin 3) (h : n ≠ 0) : ∃ o : Fin 3, otherChd n = o.val ∧ o ≠ n ∧ o ≠ 0 := by
  revert n
  decide

theorem carry_keepsOther (o n : Fin 3) (h : o ≠ n) (cause : Nat) (s : State) :
    (carry o cause).Ends s fun _ t => t.chd n = s.chd n := by
  refine .read <| .ite ?_ ?_
  · exact .ofIn (foot_updChord _ _) fun _ t ht => ht.chd (by decide) (by decide) n
  · obtain ⟨_, t, hd, -, hothers⟩ := setChd_sets o (new := 5) (by decide) cause s
    exact .ofDoes hd (hothers n (Ne.symm h))

/-! ## A failed Chord while none is split (R418) -/

/-- The pages that the reaction to an occurrence reaches beside those of the ledger. -/
abbrev reactionPages : List Nat := [0x00, 0x01, 0x03, 0x04, 0x05, 0x06, 0x09, 0x0C, 0x10, 0x14]

theorem allSafe_calm (cause : Nat) : (allSafe cause).Along (Calm [CHD.STATUS] reactionPages) := by
  have hb : (allSafe cause).Fixes State.beyond := .bind (.forM (fun _ => forceAct_beyond _ _ _) _) fun _ => deviceSafe_beyond
  have k := SameWaits.ongoing
  exact .calm (.keepsIn _ (foot_allSafe cause) hb (by decide) (by decide))
    (k.bind (k.forM (fun _ => reactive_waits.forceAct _ _ _) _) fun _ => reactive_waits.deviceSafe)

theorem ChdMoved.reaction {s t : State} (h : ChdMoved s t) : Calm [CHD.STATUS] reactionPages s t :=
  h.mono (List.Subset.refl _) (by decide)

/-- R418: the pair is FAILED, and what a Chord may not take on makes the device SAFE. -/
theorem chordFailed_alone (n : Fin 3) (cause : Nat) (test : Bool) {s : State} (h : ∀ m : Fin 3, m ≠ 0 → s.chd m ≠ 2) :
    (chordFailed n cause test).Ends s fun _ t => t.chd n = 4 ∧ Calm [CHD.STATUS] reactionPages s t := by
  have k := Calm.ongoing [CHD.STATUS] reactionPages
  refine .seq ((markFailed_sets n cause s).along (markFailed_calm n cause)) fun _ u hu => ?_
  obtain ⟨⟨hhere, hothers⟩, hcalm⟩ := hu
  have hsafe : ∀ v : State, v.chd n = 4 → Calm [CHD.STATUS] reactionPages s v → (allSafe cause).Ends v fun _ t =>
      t.chd n = 4 ∧ Calm [CHD.STATUS] reactionPages s t := fun v hv hc => by
    obtain ⟨⟨_, t, hd, hs⟩, ht⟩ := And.intro (foot_allSafe cause v) ((allSafe_calm cause).run v)
    exact .ofDoes hd ⟨(hs.chd (by decide) (by decide) n).trans hv, k.trans hc (hd.run ▸ ht)⟩
  by_cases hn : n = 0
  · exact .ite_pos (by rw [hn]; rfl) (hsafe u hhere hcalm.reaction)
  · obtain ⟨o, ho, hne, hzero⟩ := otherChd_ne n hn
    refine .ite_neg (fun h => hn (Fin.ext h)) ?_
    dsimp only
    rw [ho]
    refine .read <| .ite_neg (by rw [hothers o hne]; exact h o hzero) <| .read <| .ite (hsafe u hhere hcalm.reaction) ?_
    refine .seq ((M.Ends.ofIn (P := fun _ t => t.chd n = u.chd n) (foot_dropSplit o 0x1202)
      fun _ t ht => ht.chd (by decide) (by decide) n).along (dropSplit_calm o 0x1202)) fun _ v hv => ?_
    obtain ⟨_, t, hd, ht, hc⟩ := (carry_keepsOther o n hne cause v).along (carry_calm o cause)
    exact .ofDoes hd ⟨ht.trans (hv.1.trans hhere), k.trans hcalm.reaction (k.trans hv.2.reaction hc.reaction)⟩

/-! ## A lockstep disagreement (R415) -/

theorem occurrence_calm (src inst detail : Nat) : (occurrence src inst detail).Along (Calm [] ledgerPages) :=
  .calm (.keepsIn _ (foot_occurrence src inst detail) (occurrence_beyond _ _ _) (by decide) (by decide))
    (reactive_waits.occurrence _ _ _)

theorem inc_calm {as : List Nat} (ps : List Nat) {x : FldAt} (h : x.addr ∈ as) : (inc x).Along (Calm as ps) :=
  .read fun _ => (Calm.ongoing as ps).when (wf_calm ps _ h)

theorem CNT_ne_STATUS (n : Fin 3) : CHD.CNT n ≠ CHD.STATUS ∧ CHD.CKPT n ≠ CHD.STATUS ∧ CHD.CNT n ≠ CHD.CKPT n := by
  revert n
  decide

theorem Calm.chd {as ps : List Nat} {s t : State} (h : Calm as ps s t) (ha : CHD.STATUS ∉ as) (hp : 18 ∉ ps) (n : Nat) :
    t.chd n = s.chd n := by
  rw [chd_eq, chd_eq]
  exact h.keeps.f (by rwa [chdField_addr]) (by rw [chdField_addr]; exact hp)

/-- An occurrence of a Chord's source: the count, whether the pair turned lasting, and the frame. -/
theorem occurrence_told {src : Nat} (hsrc : src < 256) (n : Fin 3) (detail : Nat) (s : State) :
    (occurrence src n detail).Ends s fun turned t => Counted src n s t ∧
      (t.lasting src n && !s.lasting src n) = turned ∧ Calm [] ledgerPages s t := by
  obtain ⟨turned, t, hd, hturned, hlasting, -⟩ := occurrence_judges ⟨src, hsrc⟩ (show n.val < 32 by omega) detail s
  obtain ⟨_, u, hd', hcount⟩ := occurrence_counted ⟨src, hsrc⟩ ⟨n, by omega⟩ detail s
  obtain ⟨_, v, hd'', hcalm⟩ := occurrence_calm src n detail s
  refine .ofDoes hd ⟨hd.unique hd' ▸ hcount, ?_, hd.unique hd'' ▸ hcalm⟩
  rw [hlasting, hturned, State.turnsLasting]
  cases s.lasting src n <;> simp

/-- Beyond the ledger's page nothing moves what the ledger holds of a source. -/
theorem Calm.counted {ps : List Nat} {s u t : State} {src inst : Nat} (hc : Counted src inst s u)
    (h : Calm [CHD.STATUS] ps u t) (hp : 17 ∉ ps) : Counted src inst s t ∧ t.lasting src inst = u.lasting src inst := by
  have hne : ∀ a : Nat, a / 65536 = 17 → t.rd a = u.rd a := fun a ha => h.keeps.rd a
    (fun hin => absurd (List.mem_singleton.mp hin ▸ ha) (by decide)) (ha ▸ hp)
  refine ⟨hc.then_shown ?_, congrArg (fun w : Word => bit w.toNat inst) (hne _ (FLG.LASTING_page src))⟩
  have hword := hne _ (FLG.OCCUR_page src)
  exact Prod.ext (f_of_rd_eq (FLG.OCCUR.OCCURRENCES src) hword) (f_of_rd_eq (FLG.OCCUR.LAST_INSTANCE src) hword)

theorem lockstepMismatch_ends (n : Fin 3) (test : Bool) {s : State} (hn : s.chd n = 0 ∨ s.chd n = 5)
    (h : ∀ m : Fin 3, m ≠ 0 → s.chd m ≠ 2) :
    (lockstepMismatch n test).Ends s fun _ t => Bumped (CHD.CNT.MISMATCHES n) s t ∧ Counted 180 n s t ∧
      (t.chd n = (if t.lasting 180 n && !s.lasting 180 n then 4 else 1)) ∧ Calm [CHD.CNT n, CHD.STATUS] ledgerPages s t := by
  have k := Calm.ongoing [CHD.CNT n, CHD.STATUS] ledgerPages
  have hinc : (inc (CHD.CNT.MISMATCHES n)).In [18] := M.In.inc 18 _ (CHD.CNT_page n) (by decide)
  have hbump : (inc (CHD.CNT.MISMATCHES n)).Ends s fun _ u => Bumped (CHD.CNT.MISMATCHES n) s u :=
    .ofDoes (hinc.does s) ((CHD_fields n).1.bumped s)
  refine .read <| .ite_pos (by omega) <| .seq (hbump.along ((inc_calm (as := [CHD.CNT n]) [] (List.mem_singleton.mpr rfl)).and
    (.ofIn hinc fun _ _ hs => hs))) fun _ u hu => ?_
  obtain ⟨hb, hcu, hsu⟩ := hu
  refine .seq ((M.Ends.ofIn (P := fun _ v => Same [46] u v) (foot_updChord n _) fun _ _ hs => hs).along
    (updChord_calm [] [] n _)) fun _ v hv => ?_
  obtain ⟨hsv, hcv⟩ := hv
  refine .seq (occurrence_told (show 180 < 256 by decide) n 0 v) fun turned w hw => ?_
  obtain ⟨hcount, hturned, hcw⟩ := hw
  have hchd : ∀ m, w.chd m = s.chd m := fun m => (hcw.chd (by decide) (by decide) m).trans <|
    (hcv.chd (by decide) (by decide) m).trans <| hcu.chd (by simpa using (CNT_ne_STATUS n).1.symm) (by decide) m
  have hsw : Calm [CHD.CNT n, CHD.STATUS] ledgerPages s w := k.trans (hcu.mono (by simp) (by simp)) <|
    k.trans (hcv.mono (by simp) (by simp)) (hcw.mono (by simp) (List.Subset.refl _))
  have hlast : ∀ t : State, t.lasting 180 n = w.lasting 180 n → (t.lasting 180 n && !s.lasting 180 n) = turned := fun t ht => by
    have hs : v.lasting 180 n = s.lasting 180 n := congrArg (fun x : Word => bit x.toNat n) <|
      (hsv.rd (by decide) _ (FLG.LASTING_off _ (by decide))).trans (hsu.rd (by decide) _ (FLG.LASTING_off _ (by decide)))
    rw [ht, ← hs]
    exact hturned
  have hfin : ∀ (t : State) (new : List Nat), t.chd n = (if turned then 4 else 1) → Calm [CHD.STATUS] new w t →
      17 ∉ new → 18 ∉ new → new ⊆ ledgerPages →
      Bumped (CHD.CNT.MISMATCHES n) s t ∧ Counted 180 n s t ∧
      (t.chd n = (if t.lasting 180 n && !s.lasting 180 n then 4 else 1)) ∧ Calm [CHD.CNT n, CHD.STATUS] ledgerPages s t :=
    fun t new ht hc h17 h18 hsub => by
    obtain ⟨hcounted, hlasting⟩ := Calm.counted hcount hc h17
    refine ⟨hb.congr rfl ?_, ?_, by rw [hlast t hlasting, ht], k.trans hsw (hc.mono (by simp) hsub)⟩
    · have hpage : (CHD.CNT.MISMATCHES n).addr / 65536 = 18 := CHD.CNT_page n
      have hne : (CHD.CNT.MISMATCHES n).addr ∉ [CHD.STATUS] := fun hin => (CNT_ne_STATUS n).1 (List.mem_singleton.mp hin)
      exact (hc.keeps.f hne (by rw [hpage]; exact h18)).trans <| (hcw.keeps.f (by simp) (by rw [hpage]; decide)).trans
        (hcv.keeps.f (by simp) (by simp))
    · exact (hcounted.of_shown (hsv.shown 180 (by decide) (by decide))).of_shown (hsu.shown 180 (by decide) (by decide))
  cases turned with
  | true =>
    obtain ⟨_, t, hd, ht, hc⟩ := chordFailed_alone n 180 test (s := w) fun m hm => by rw [hchd]; exact h m hm
    exact .ite_pos rfl <| .ofDoes hd (hfin t _ ht hc (by decide) (by decide) (by decide))
  | false =>
    obtain ⟨_, t, hd, ht, hc⟩ := (putChd_sets n (new := 1) (by decide) w).along (putChd_calm n 1)
    exact .ite_neg (by decide) <| .ofDoes hd (hfin t _ ht.here hc (by decide) (by decide) (by decide))

/-! ## What resumes where nothing waits -/

/-- No entry of a controller's log waits for a reader. -/
def State.logRead (s : State) (n : Fin 4) : Prop :=
  ∀ e ∈ (s.can n).log, e.rxseq < (s.can n).cd0 ∧ e.rxseq < (s.can n).cd2

/-- The readers of a controller's log have gone on: only what is shown of its pool moves. -/
structure ReadOn (n : Fin 4) (s t : State) : Prop where
  keeps : Keeps [] [0x14] s t
  executor : t.executor = s.executor
  rx : t.hid.bus.rx = s.hid.bus.rx
  others : ∀ m : Fin 4, m ≠ n → t.can m = s.can m

theorem ReadOn.trans {n : Fin 4} {s t u : State} (h : ReadOn n s t) (h' : ReadOn n t u) : ReadOn n s u :=
  ⟨(Keeps.ongoing [] [0x14]).trans h.keeps h'.keeps, h'.executor.trans h.executor, h'.rx.trans h.rx,
    fun m hm => (h'.others m hm).trans (h.others m hm)⟩

theorem ReadOn.refl (n : Fin 4) (s : State) : ReadOn n s s := ⟨(Keeps.ongoing _ _).refl s, rfl, rfl, fun _ _ => rfl⟩

theorem showPool_reads (n : Fin 4) (s : State) : (showPool n).Ends s fun _ t => ReadOn n s t ∧ t.hid.bus = s.hid.bus := by
  have hpage : (BUS.RX_STAT.POOL_FREE n).addr / 65536 ∈ [0x14] := by
    rw [show (BUS.RX_STAT.POOL_FREE n).addr = BUS.RX_STAT n from rfl, BUS.RX_STAT_page]
    decide
  obtain ⟨_, t, hd, hs, hk⟩ := (M.Ends.ofIn (P := fun _ t => Same [20] s t) (foot_showPool n) fun _ _ hs => hs).along
    (M.Along.read fun s => M.Along.keepsPage [] (4096 - s.heldUnits n) hpage)
  have hbus : t.hid.bus = s.hid.bus := hs.hid (by decide) 47 (by decide)
  exact .ofDoes hd ⟨⟨hk, hs.executor (by decide), by rw [hbus], fun m _ => congrArg (fun b : BusSt => mget ({} : CanSt) b.can m) hbus⟩, hbus⟩

theorem updCan_reads (n : Fin 4) (f : CanSt → CanSt) (s : State) :
    (updCan n f).Ends s fun _ t => ReadOn n s t ∧ t.can n = f (s.can n) :=
  .ofDoes (M.does_hid _ _) ⟨⟨⟨fun _ _ _ => rfl, rfl, rfl, rfl, rfl⟩, rfl, rfl, fun _ hm =>
    mget_mupd_other _ _ _ _ _ fun h => hm (Fin.ext h)⟩, mget_mupd_same _ _ _ _⟩

theorem readSafe_idle (n : Fin 4) {s : State} (h : s.logRead n) :
    (readSafe n).Ends s fun _ t => ReadOn n s t ∧ (t.can n).log = (s.can n).log ∧ (t.can n).cd2 = (s.can n).cd2 := by
  have hnone : (s.can n).log.filter (fun e => decide ((s.can n).cd0 ≤ e.rxseq) && !e.tx) = [] :=
    List.filter_eq_nil_iff.mpr fun e he => by simp [(h e he).1]
  refine .read ?_
  dsimp only
  rw [hnone]
  refine .ite ?_ (.ofDoes (M.does_pure () s) ⟨.refl n s, rfl, rfl⟩)
  refine .seq (updCan_reads n _ s) fun _ u hu => .bind (M.does_pure () u) ?_
  obtain ⟨_, t, hd, ht, hbus⟩ := showPool_reads n u
  have hcan : t.can n = u.can n := congrArg (fun b : BusSt => mget ({} : CanSt) b.can n) hbus
  exact .ofDoes hd ⟨hu.1.trans ht, by rw [hcan, hu.2], by rw [hcan, hu.2]⟩

theorem readNet_idle (n : Fin 4) {s : State} (h : ∀ e ∈ (s.can n).log, e.rxseq < (s.can n).cd2) :
    (readNet n).Ends s fun _ t => ReadOn n s t := by
  have hnone : (s.can n).log.filter (fun e => decide ((s.can n).cd2 ≤ e.rxseq)) = [] :=
    List.filter_eq_nil_iff.mpr fun e he => by simp [h e he]
  refine .read ?_
  dsimp only
  rw [hnone]
  refine .ite ?_ (.ofDoes (M.does_pure () s) (.refl n s))
  refine .seq (updCan_reads n _ s) fun _ u hu => .bind (M.does_pure () u) ?_
  obtain ⟨_, t, hd, ht, -⟩ := showPool_reads n u
  exact .ofDoes hd (hu.1.trans ht)

theorem readers_idle (n : Fin 4) {s : State} (h : s.logRead n) :
    (do readSafe n; readNet n : M Unit).Ends s fun _ t => ReadOn n s t :=
  .seq (readSafe_idle n h) fun _ u hu => by
    obtain ⟨_, t, hd, ht⟩ := readNet_idle n (s := u) fun e he => hu.2.2 ▸ (h e (hu.2.1 ▸ he)).2
    exact .ofDoes hd (hu.1.trans ht)

theorem allReaders_idle : ∀ (l : List (Fin 4)), l.Nodup → ∀ s : State, (∀ n ∈ l, s.logRead n) →
    (l.forM fun n => do readSafe n; readNet n).Ends s fun _ t =>
      Keeps [] [0x14] s t ∧ t.executor = s.executor ∧ t.hid.bus.rx = s.hid.bus.rx
  | [], _, s, _ => .ofDoes (M.does_pure () s) ⟨(Keeps.ongoing _ _).refl s, rfl, rfl⟩
  | n :: l, hl, s, h => .seq (readers_idle n (h n (by simp))) fun _ u hu => by
    obtain ⟨hn, hl⟩ := List.nodup_cons.mp hl
    obtain ⟨_, t, hd, hk, he, hr⟩ := allReaders_idle l hl u fun m hm => by
      unfold State.logRead
      rw [hu.others m fun heq => hn (heq ▸ hm)]
      exact h m (List.mem_cons_of_mem _ hm)
    exact .ofDoes hd ⟨(Keeps.ongoing _ _).trans hu.keeps hk, he.trans hu.executor, hr.trans hu.rx⟩

theorem chordResumes_idle {s : State} (hexec : s.executor = (none, [])) (hrx : s.hid.bus.rx = []) (h : ∀ n, s.logRead n) :
    chordResumes.Ends s fun _ t => Keeps [] [0x14] s t := by
  refine .seq (allReaders_idle [0, 1, 2, 3] (by decide) s fun n _ => h n) fun _ u hu => .read ?_
  obtain ⟨hk, he, hr⟩ := hu
  dsimp only
  rw [hr, hrx]
  refine .seq (Q := fun _ v => Keeps [] [] u v ∧ v.executor = u.executor)
    (.ofDoes (M.does_hid _ u) ⟨⟨fun _ _ _ => rfl, rfl, rfl, rfl, rfl⟩, rfl⟩) fun _ v hv => .bind (M.does_pure () v) ?_
  exact .ofDoes (settleExecutor_idle (hv.2.trans (he.trans hexec))) ((hk.trans hv.1).mono (by simp) (by simp))

/-- A quiet block in which what waits is the same has nothing to resume. -/
theorem resumes_of_waits {s t : State} (hq : s.quiet = true) (hw : SameWaits s t) :
    chordResumes.Ends t fun _ u => Keeps [] [0x14] t u := by
  obtain ⟨hexec, hunread⟩ := Prod.ext_iff.mp hw
  obtain ⟨hrx, hcan⟩ := Prod.ext_iff.mp hunread
  have hquiet := hq
  simp only [State.quiet, Bool.and_eq_true, List.isEmpty_iff] at hquiet
  obtain ⟨⟨-, hrxs⟩, hlogs⟩ := hquiet
  refine chordResumes_idle (hexec.trans (executor_of_quiet hq)) (hrx.trans hrxs) fun n e he => ?_
  obtain ⟨hlog, hreads⟩ := Prod.ext_iff.mp (congrFun hcan n)
  obtain ⟨hcd0, hcd2⟩ := Prod.ext_iff.mp hreads
  have hread := List.all_eq_true.mp (List.all_eq_true.mp hlogs n.val (List.mem_range.mpr n.isLt)) e
    ((show (t.can n).log = (s.can n).log from hlog) ▸ he)
  rw [Bool.and_eq_true, decide_eq_true_iff, decide_eq_true_iff] at hread
  exact ⟨hread.1.trans_eq hcd0.symm, hread.2.trans_eq hcd2.symm⟩

/-! ## The restart of a pair (R417, R418) -/

theorem chdResumed_lt (s : State) (n : Nat) : s.chdResumed n < 8 := by
  unfold State.chdResumed
  split_ifs <;> decide

theorem restartPair_resumes (n : Fin 3) {ok : Bool} {time : Nat} (test : Bool) {s : State} (hn : s.chd n = 1)
    (hok : ok = true ∧ time ≤ 3000) :
    (restartPair n ok time test).Ends s fun _ t => t.chd n = s.chdResumed n ∧ Bumped (CHD.CNT.RESTARTS n) s t ∧
      t.f (CHD.CKPT.RESTART_MAX n) = max time (s.f (CHD.CKPT.RESTART_MAX n)) ∧
      Calm [CHD.STATUS, CHD.CNT n, CHD.CKPT n] eventPages s t := by
  have k := Calm.ongoing [CHD.STATUS, CHD.CNT n, CHD.CKPT n] eventPages
  obtain ⟨hcs, hks, hck⟩ := CNT_ne_STATUS n
  have hcnt : (CHD.CNT.RESTARTS n).addr / 65536 ∉ eventPages := by
    rw [show (CHD.CNT.RESTARTS n).addr = CHD.CNT n from rfl, CHD.CNT_page]; decide
  have hckpt : (CHD.CKPT.RESTART_MAX n).addr / 65536 ∉ eventPages := by
    rw [show (CHD.CKPT.RESTART_MAX n).addr = CHD.CKPT n from rfl, CHD.CKPT_page]; decide
  have hinc : (inc (CHD.CNT.RESTARTS n)).In [18] := M.In.inc 18 _ (CHD.CNT_page n) (by decide)
  have hbump : (inc (CHD.CNT.RESTARTS n)).Ends s fun _ u => Bumped (CHD.CNT.RESTARTS n) s u :=
    .ofDoes (hinc.does s) ((CHD_fields n).2.bumped s)
  refine .read <| .ite_pos hn <| .ite_neg (by simp [hok]) <|
    .seq (hbump.along (inc_calm (as := [CHD.CNT n]) eventPages (List.mem_singleton.mpr rfl))) fun _ u hu => ?_
  have hmax : (wf (CHD.CKPT.RESTART_MAX n) (max time (s.f (CHD.CKPT.RESTART_MAX n)))).Ends u fun _ v =>
      v.f (CHD.CKPT.RESTART_MAX n) = max time (s.f (CHD.CKPT.RESTART_MAX n)) := by
    refine .ofDoes (M.does_wf _ _ u) ((f_wf_same (CKPT_fields n).1 _ u).trans (Nat.mod_eq_of_lt ?_))
    have := f_lt (CHD.CKPT.RESTART_MAX n) s
    simp only [CHD.CKPT.RESTART_MAX] at this ⊢
    omega
  refine .seq (hmax.along (wf_calm (as := [CHD.CKPT n]) eventPages _ (List.mem_singleton.mpr rfl))) fun _ v hv => ?_
  obtain ⟨_, t, hd, ht, hc⟩ := (setChd_sets n (chdResumed_lt s n) 180 v).along (setChd_calm n _ 180)
  refine .ofDoes hd ⟨ht.here, hu.1.congr rfl ?_, ?_, ?_⟩
  · exact (hc.keeps.f (fun h => hcs (List.mem_singleton.mp h)) hcnt).trans
      (hv.2.keeps.f (fun h => hck (List.mem_singleton.mp h)) hcnt)
  · exact (hc.keeps.f (fun h => hks (List.mem_singleton.mp h)) hckpt).trans hv.1
  · exact k.trans (hu.2.mono (by simp) (List.Subset.refl _)) <| k.trans (hv.2.mono (by simp) (List.Subset.refl _)) <|
      hc.mono (by simp) (List.Subset.refl _)

theorem restartPair_fails (n : Fin 3) {ok : Bool} {time : Nat} (test : Bool) {s : State} (hn : s.chd n = 1)
    (hbad : ok = false ∨ 3000 < time) (h : ∀ m : Fin 3, m ≠ 0 → s.chd m ≠ 2) :
    (restartPair n ok time test).Ends s fun _ t => t.chd n = 4 ∧ Counted 181 n s t ∧ Calm [CHD.STATUS] ledgerPages s t := by
  refine .read <| .ite_pos hn <| .ite_pos (by simpa using hbad) ?_
  refine .seq (Q := fun _ u => Counted 181 n s u ∧ Calm [] ledgerPages s u) ?_ fun _ u hu => ?_
  · exact .seq (occurrence_told (show 181 < 256 by decide) n 0 s) fun _ u hu => .ofDoes (M.does_pure () u) ⟨hu.1, hu.2.2⟩
  · obtain ⟨_, t, hd, ht, hc⟩ := chordFailed_alone n 181 test (s := u) fun m hm => by
      rw [hu.2.chd (by decide) (by decide)]; exact h m hm
    exact .ofDoes hd ⟨ht, (Calm.counted hu.1 hc (by decide)).1,
      (Calm.ongoing _ _).trans (hu.2.mono (List.nil_subset _) (List.Subset.refl _)) (hc.mono (List.Subset.refl _) (by decide))⟩

/-! ## Checkpoints and the end of a join's grace (R416, R420, R421) -/

theorem finishSplit_idle {n : Nat} {s : State} (h : s.chd n ≠ 3) : (finishSplit n).Does s () s :=
  .read <| .ite_neg (fun hc => h hc.1) (M.does_pure () s)

/-- A checkpoint is counted; of the Chords nothing else has moved. -/
theorem checkpoint_counts (n : Fin 3) (s : State) : (incWrap (CHD.CKPT.CKPT_COUNT n)).Ends s fun _ u =>
    u.f (CHD.CKPT.CKPT_COUNT n) = (s.f (CHD.CKPT.CKPT_COUNT n) + 1) % 65536 ∧ u.hid = s.hid ∧ Calm [CHD.CKPT n] [] s u := by
  obtain ⟨_, u, hd, hu, hc⟩ := (M.Ends.ofDoes (P := fun _ u => u = _) (M.does_wf (CHD.CKPT.CKPT_COUNT n)
    (s.f (CHD.CKPT.CKPT_COUNT n) + 1) s) rfl).along (wf_calm (as := [CHD.CKPT n]) [] _ (List.mem_singleton.mpr rfl))
  exact .bind (M.does_rf _ s) <| .ofDoes hd ⟨hu ▸ f_wf_same (CKPT_fields n).2 _ s, hu ▸ apply_reg_hid .., hc⟩

/-- R420 step 1: the Chord that waits to split hands its workload over. -/
theorem handOver_ends (n o : Fin 3) (h : o ≠ n) {s : State} (ho : s.chd o = 0) :
    (do setChd n 3 0xB0; carry o 0xB0 : M Unit).Ends s fun _ t => t.chd n = 3 ∧ t.chd o = 5 ∧ ChdMoved s t := by
  refine .seq ((setChd_sets n (new := 3) (by decide) 0xB0 s).along (setChd_calm n 3 0xB0)) fun _ u hu => ?_
  obtain ⟨_, t, hd, ht, hc⟩ := (setChd_sets o (new := 5) (by decide) 0xB0 u).along (setChd_calm o 5 0xB0)
  have hcarry : (carry o 0xB0).Does u () t := .read <| .ite_neg (by rw [hu.1.others o h, ho]; decide) hd
  exact .ofDoes hcarry ⟨(ht.others n (Ne.symm h)).trans hu.1.here, ht.here, (Calm.ongoing _ _).trans hu.2 hc⟩

theorem takeCheckpoint_ends (n : Fin 3) (test : Bool) {s : State} (hn : s.chd n = 0 ∨ s.chd n = 5)
    (h : s.chd 1 ≠ 2 ∧ s.chd 2 ≠ 2 ∧ s.chd 1 ≠ 3 ∧ s.chd 2 ≠ 3) :
    (takeCheckpoint n test).Ends s fun _ t =>
       t.f (CHD.CKPT.CKPT_COUNT n) = (s.f (CHD.CKPT.CKPT_COUNT n) + 1) % 65536 ∧
       (n ≠ 0 → s.chd n = 0 → (s.chord n).toSplit = true → s.chd (otherChd n) = 0 → t.chd n = 3 ∧ t.chd (otherChd n) = 5) ∧
       Calm [CHD.STATUS, CHD.CKPT n] eventPages s t := by
  have k := Calm.ongoing [CHD.STATUS, CHD.CKPT n] eventPages
  refine .read <| .ite_pos (by omega) <| .seq (checkpoint_counts n s) fun _ u hu => ?_
  obtain ⟨hcount, hhid, hcu⟩ := hu
  have hchd : ∀ m, u.chd m = s.chd m := hcu.chd (by simpa using (CNT_ne_STATUS n).2.1.symm) (by decide)
  have hchord : u.chord n = s.chord n := by rw [State.chord, hhid, State.chord]
  have hsplits : ([1, 2].forM finishSplit).Does u () u :=
    (finishSplit_idle (by rw [hchd]; exact h.2.2.1)).bind <| (finishSplit_idle (by rw [hchd]; exact h.2.2.2)).bind (M.does_pure () u)
  have hfin : ∀ {P : Prop} {t : State}, P → ChdMoved u t →
      t.f (CHD.CKPT.CKPT_COUNT n) = (s.f (CHD.CKPT.CKPT_COUNT n) + 1) % 65536 ∧ P ∧
        Calm [CHD.STATUS, CHD.CKPT n] eventPages s t := fun hp hc =>
    ⟨(hc.keeps.f (fun hin => (CNT_ne_STATUS n).2.1 (List.mem_singleton.mp hin)) (by
      rw [show (CHD.CKPT.CKPT_COUNT n).addr = CHD.CKPT n from rfl, CHD.CKPT_page]; decide)).trans hcount, hp,
      k.trans (hcu.mono (by simp) (List.nil_subset _)) (hc.mono (by simp) (List.Subset.refl _))⟩
  have hidle : ∀ {P : Prop}, P → (pure () : M Unit).Ends u fun _ t =>
      t.f (CHD.CKPT.CKPT_COUNT n) = (s.f (CHD.CKPT.CKPT_COUNT n) + 1) % 65536 ∧ P ∧
        Calm [CHD.STATUS, CHD.CKPT n] eventPages s t := fun hp =>
    .ofDoes (M.does_pure () u) (hfin hp ((Calm.ongoing _ _).refl u))
  refine .bind hsplits <| .read ?_
  by_cases hz : n = 0
  · exact .ite_neg (by simp [hz]) (.ofDoes (M.does_pure () u) (hfin (fun hne => absurd hz hne) ((Calm.ongoing _ _).refl u)))
  obtain ⟨o, ho, hne, hpos⟩ := otherChd_ne n hz
  refine .ite_pos (fun hv => hz (Fin.ext hv)) ?_
  dsimp only
  rw [ho, hchd, hchd, hchord]
  by_cases hwait : s.chd n = 0 ∧ (s.chord n).toSplit = true
  · refine .ite_pos hwait ?_
    by_cases hoz : s.chd o = 0
    · obtain ⟨_, t, hd, h3, h5, hc⟩ := handOver_ends n o hne (s := u) (by rw [hchd, hoz])
      exact .ite_pos hoz <| .ofDoes hd (hfin (fun _ _ _ _ => ⟨h3, h5⟩) hc)
    · exact .ite_neg hoz (.ofDoes (M.does_pure () u) (hfin (fun _ _ _ hc => absurd hc hoz) ((Calm.ongoing _ _).refl u)))
  · have hjoin : s.chd o ≠ 2 := by
      have : o = 1 ∨ o = 2 := by omega
      rcases this with rfl | rfl
      · exact h.1
      · exact h.2.1
    exact .ite_neg hwait <| .ite_neg (fun hc => hjoin hc.1) (.ofDoes (M.does_pure () u)
      (hfin (fun _ hc ht => absurd ⟨hc, ht⟩ hwait) ((Calm.ongoing _ _).refl u)))

theorem complete_scrub (kind unit status reason detail : Nat) (data : List Byte) :
    (complete kind unit status reason detail data).Fixes fun s => (s.hid.mem.scrub, s.f MEM.STATUS.SCRUB_ACTIVE) :=
  .ofIn (foot_complete kind unit status reason detail data) fun _ _ hs =>
    Prod.ext (congrArg MemSt.scrub (hs.hid (by decide) 60 (by decide))) (hs.f (by decide) (by decide))

/-- The updates of a split Chord that are abandoned. -/
def dropUpdate (n : Nat) (p : Nat × FwUpd) : M Unit := do
  if p.2.chord = some n then
    hid fun h => { h with lcy := { h.lcy with upd := serase h.lcy.upd p.1 } }
    complete 0xD2 p.1 stFailed 0x1204 0 []

theorem dropUpdate_scrub (n : Nat) (p : Nat × FwUpd) :
    (dropUpdate n p).Fixes fun s => (s.hid.mem.scrub, s.f MEM.STATUS.SCRUB_ACTIVE) :=
  .when <| .bind (.act fun _ => rfl) fun _ => complete_scrub ..

theorem MEM_STATUS_fields : MEM.STATUS.SCRUB_ACTIVE.Real ∧ MEM.STATUS.MERGE_USED.Real := by decide

theorem abandonScrub_ends (n : Nat) {s : State} (hs : s.hid.mem.scrub.map (fun x => x.chord) = some (some n)) :
    (abandonTasks n).Ends s fun _ t => t.hid.mem.scrub = none ∧ t.f MEM.STATUS.SCRUB_ACTIVE = 0 := by
  obtain ⟨x, hx, hchord⟩ := Option.map_eq_some_iff.mp hs
  refine .read ?_
  simp only [hx]
  refine .ite_pos hchord <| .seq (Q := fun _ u => u.hid.mem.scrub = none) (.ofDoes (M.does_hid _ s) rfl) fun _ u hu => ?_
  refine .bind (M.does_wf _ 0 u) <| .ofFixes (.bind (complete_scrub ..) fun _ => .forM (dropUpdate_scrub n) _) fun _ t ht => ?_
  obtain ⟨hscrub, hactive⟩ := Prod.ext_iff.mp ht
  exact ⟨hscrub.trans ((congrArg (·.mem.scrub) (apply_reg_hid ..)).trans hu), hactive.trans (f_wf_same MEM_STATUS_fields.1 0 u)⟩

theorem abandonTasks_calm (n : Nat) : (abandonTasks n).Along (Calm [MEM.STATUS] eventPages) := by
  have k := Calm.ongoing [MEM.STATUS] eventPages
  have hloop : ∀ l : List (Nat × FwUpd), (l.forM (dropUpdate n)).Along (Calm [MEM.STATUS] eventPages) :=
    k.forM fun _ => k.when <| k.bind (.calm (.keepsHid _ _ _) (.waitsIn (M.In.hid_lcy (P := [61]) _ (by decide)) (by decide)))
      fun _ => complete_calm _ _ _ _ _ _ _
  refine .read fun s => ?_
  dsimp only
  split
  · refine .ite (k.bind ?_ fun _ => k.bind (wf_calm _ _ (by decide)) fun _ => k.bind (complete_calm _ _ _ _ _ _ _) fun _ =>
      hloop _) (hloop _)
    exact .calm (.keepsHid _ _ _) (.waitsIn (M.In.hid_mem (P := [60]) _ (by decide)) (by decide))
  · exact hloop _

theorem joinGraceExpiry_ends (n : Fin 3) {s : State} (hn : s.chd n = 2)
    (hj : (s.chord n).joining = true ∧ (s.chord n).joinAt + 100 ≤ s.ms)
    (hs : s.hid.mem.scrub.map (fun x => x.chord) = some (some n.val)) :
    (joinGraceExpiry n).Ends s fun _ t => t.hid.mem.scrub = none ∧ t.f MEM.STATUS.SCRUB_ACTIVE = 0 ∧ t.chd n = 2 ∧
      Calm [MEM.STATUS] eventPages s t := by
  obtain ⟨_, t, hd, ⟨hscrub, hactive⟩, hc⟩ := (abandonScrub_ends n hs).along (abandonTasks_calm n)
  exact .read <| .ite_pos ⟨hn, hj.1, hj.2⟩ <| .ofDoes hd
    ⟨hscrub, hactive, (hc.chd (by decide) (by decide) n).trans hn, hc⟩

end Sys2Proof.Machine
end

section
/-! Statement O32: Chords and memories (R415 to R421, R424, R434, R435). -/

namespace Sys2Proof.Machine

/-! ## What holds along the operations of the memories -/

/-- A relation that holds along every part of a write-back or of a scrub. -/
structure MemMoves (ρ : State → State → Prop) : Prop where
  ongoing : Ongoing ρ
  wr : ∀ a w, (Machine.wr a w).Along ρ
  mem : ∀ f, (updMem f).Along ρ
  occur : ∀ src inst detail, (Machine.occur src inst detail).Along ρ
  complete : ∀ kind unit status reason detail data, (Machine.complete kind unit status reason detail data).Along ρ

namespace MemMoves

variable {ρ : State → State → Prop} (h : MemMoves ρ)
include h

theorem wf (x : FldAt) (v : Nat) : (Machine.wf x v).Along ρ := .read fun _ => h.wr _ _

theorem inc (x : FldAt) : (Machine.inc x).Along ρ := .read fun _ => h.ongoing.when (h.wf _ _)

theorem programPage (p : Nat) : (Machine.programPage p).Along ρ := by
  have k := h.ongoing
  have hwear : ∀ q, (wearCheck q).Along ρ := fun q => .read fun _ =>
    k.thenMore (k.bind (h.wr _ _) fun _ => h.wf _ _) fun _ => k.when (k.bind (h.mem _) fun _ => h.occur _ _ _)
  exact .read fun _ => k.bind (h.mem _) fun _ => hwear _

theorem writeBack (p : Nat) : (Machine.writeBack p).Along ρ :=
  .read fun _ => h.ongoing.when <| h.ongoing.bind (h.mem _) fun _ => h.ongoing.bind (.read fun _ => h.wf _ _) fun _ =>
    h.programPage p

theorem noteError (p bits : Nat) (uncorr : Bool) : (Machine.noteError p bits uncorr).Along ρ := by
  have k := h.ongoing
  refine .read fun s => ?_
  split
  · exact k.pure _
  · exact k.thenMore (k.bind (h.wr _ _) fun _ => h.wr _ _) fun _ => .read fun _ => k.bind (h.wf _ _) fun _ =>
      k.thenMore (h.inc _) fun _ => k.thenMore (h.wf _ _) fun _ => h.wf _ _

theorem uncorrectable (p : Nat) (mirrorOk : Bool) : (Machine.uncorrectable p mirrorOk).Along ρ :=
  .read fun _ => h.ongoing.bind (h.inc _) fun _ => h.ongoing.bind (h.occur _ _ _) fun _ =>
    h.ongoing.bind (h.noteError _ _ _) fun _ => .ite (h.programPage p) (h.mem _)

theorem scrubPage (x : PageFind) (a : ScrubSum) : (Machine.scrubPage x a).Along ρ := by
  have k := h.ongoing
  exact .read fun _ => k.bind (.read fun _ => h.wf _ _) fun _ => .ite (k.bind (h.uncorrectable _ _) fun _ => k.pure _) <|
    .ite (k.pure _) <| k.bind (h.inc _) fun _ => k.bind (h.noteError _ _ _) fun _ =>
    .ite (k.bind (h.inc _) fun _ => k.bind (h.occur _ _ _) fun _ => k.bind (h.programPage _) fun _ => k.pure _) (k.pure _)

theorem scrubPages : ∀ (l : List PageFind) (a : ScrubSum), (foldM' Machine.scrubPage l a).Along ρ
  | [], _ => h.ongoing.pure _
  | x :: l, _ => h.ongoing.bind (h.scrubPage x _) fun _ => scrubPages l _

theorem scrubEnd (finds : List PageFind) : (Machine.scrubEnd finds).Along ρ := by
  have k := h.ongoing
  refine .read fun s => ?_
  split
  · exact k.pure _
  · exact k.bind (h.scrubPages _ _) fun _ => .read fun _ => k.bind (k.forM h.programPage _) fun _ => .read fun _ =>
      k.bind (h.mem _) fun _ => k.bind (h.wf _ _) fun _ => h.complete _ _ _ _ _ _

end MemMoves

theorem wr_waits (a : Nat) (w : Word) : (wr a w).Along SameWaits :=
  .act fun _ => congrArg (fun y : Hidden => ((y.cmd.run, y.cmd.waiting), y.bus.unread)) (apply_reg_hid ..)

theorem memMoves_waits : MemMoves SameWaits where
  ongoing := SameWaits.ongoing
  wr := wr_waits
  mem f := .waitsIn (foot_updMem f) (by decide)
  occur := reactive_waits.occur
  complete := complete_waits

theorem complete_beyond (kind unit status reason detail : Nat) (data : List Byte) :
    (complete kind unit status reason detail data).Fixes State.beyond :=
  .ofEnds fun s => .ofDoes ((foot_complete kind unit status reason detail data).does s) <| funext fun _ =>
    (complete_keeps kind unit status reason detail data s).rd _ List.not_mem_nil (by simp [eventPages]; omega)

/-- The words above the last page are the same. -/
abbrev SameBeyond (s t : State) : Prop := t.beyond = s.beyond

theorem memMoves_beyond : MemMoves SameBeyond where
  ongoing := ⟨fun _ => rfl, fun h h' => h'.trans h⟩
  wr a w := .ofFixes (wr_beyond a w) fun _ _ h => h
  mem _ := .ofFixes (hid_beyond _) fun _ _ h => h
  occur src inst detail := .ofFixes (occur_beyond src inst detail) fun _ _ h => h
  complete _ _ _ _ _ _ := .ofFixes (complete_beyond ..) fun _ _ h => h

/-! ## The patrol (R424) -/

theorem MEM_SRAM_fields : MEM.SRAM.CORR.Real ∧ MEM.SRAM.UNCORR.Real := by decide

theorem patrolWord_beyond (a : Nat) (double : Bool) : (patrolWord a double).Fixes State.beyond :=
  .ite (.bind (inc_beyond _) fun _ => .bind (occurrence_beyond _ _ _) fun _ => .when (hid_beyond _)) <|
    .bind (inc_beyond _) fun _ => .read fun _ => .when <| .bind (hid_beyond _) fun _ => .when (hid_beyond _)

theorem patrolWord_double (a : Nat) (s : State) : (patrolWord a true).Ends s fun _ t =>
    Bumped MEM.SRAM.UNCORR s t ∧ Counted 190 0 s t ∧ Keeps [] (0x13 :: ledgerPages) s t := by
  have hinc : (inc MEM.SRAM.UNCORR).In [19] := M.In.inc 19 _ (by decide) (by decide)
  have hends : (patrolWord a true).Ends s fun _ t => Bumped MEM.SRAM.UNCORR s t ∧ Counted 190 0 s t := by
    refine .ite_pos rfl <| .seq (Q := fun _ u => Bumped MEM.SRAM.UNCORR s u ∧ Same [19] s u)
      (.ofDoes (hinc.does s) ⟨MEM_SRAM_fields.2.bumped s, hinc.run s⟩) fun _ u hu => ?_
    refine .seq (Q := fun _ v => Counted 190 0 u v ∧ v.f MEM.SRAM.UNCORR = u.f MEM.SRAM.UNCORR) ?_ fun turned v hv => ?_
    · obtain ⟨turned, v, hd, hv⟩ := foot_occurrence 190 0 (wordDetail a) u
      obtain ⟨_, w, hd', hw⟩ := occurrence_counted 190 0 (wordDetail a) u
      exact .ofDoes hd ⟨hd.unique hd' ▸ hw, hv.f (by decide) (by decide)⟩
    · have hlist : (if turned = true then listRow (a / 128) else pure ()).In [60] := .ite (foot_listRow _) (.pure _)
      exact .ofIn hlist fun _ t ht => ⟨hu.1.congr rfl ((ht.f (by decide) (by decide)).trans hv.2),
        (hv.1.of_shown (hu.2.shown 190 (by decide) (by decide))).then_shown (ht.shown 190 (by decide) (by decide))⟩
  obtain ⟨_, t, hd, ht⟩ := hends
  have hk := ((foot_patrolWord a true).run s).keeps ((patrolWord_beyond a true).run s) (pages := 0x13 :: ledgerPages)
    (by decide) (by decide)
  exact .ofDoes hd ⟨ht.1, ht.2, hd.run ▸ hk⟩

theorem patrolWord_single (a : Nat) (s : State) : (patrolWord a false).Ends s fun _ t =>
    Bumped MEM.SRAM.CORR s t ∧ (a / 8) ∈ t.hid.mem.words ∧ Keeps [MEM.SRAM] [] s t := by
  have hinc : (inc MEM.SRAM.CORR).In [19] := M.In.inc 19 _ (by decide) (by decide)
  have hlist : ∀ u : State, (a / 8) ∈ u.hid.mem.words → ∀ row, (listRow row).Ends u fun _ t =>
      t.f MEM.SRAM.CORR = u.f MEM.SRAM.CORR ∧ (a / 8) ∈ t.hid.mem.words ∧ Keeps [MEM.SRAM] [] u t := fun u hu row =>
    .ofDoes (M.does_hid _ u) ⟨rfl, hu, ⟨fun _ _ _ => rfl, rfl, rfl, rfl, rfl⟩⟩
  have k := Keeps.ongoing [MEM.SRAM] []
  refine .ite_neg (by decide) <| .seq ((M.Ends.ofDoes (P := fun _ u => Bumped MEM.SRAM.CORR s u) (hinc.does s)
    (MEM_SRAM_fields.1.bumped s)).along (.keepsInc (as := [MEM.SRAM]) [] (List.mem_singleton.mpr rfl))) fun _ u hu => .read ?_
  obtain ⟨hb, hk⟩ := hu
  by_cases hin : (!u.hid.mem.words.contains (a / 8)) = true
  · refine .ite_pos hin <| .seq (Q := fun _ v => v.f MEM.SRAM.CORR = u.f MEM.SRAM.CORR ∧ (a / 8) ∈ v.hid.mem.words ∧
      Keeps [MEM.SRAM] [] u v) (.ofDoes (M.does_hid _ u) ⟨rfl, List.mem_cons_self, ⟨fun _ _ _ => rfl, rfl, rfl, rfl, rfl⟩⟩)
      fun _ v hv => .ite ?_ (.ofDoes (M.does_pure () v) ⟨hb.congr rfl hv.1, hv.2.1, k.trans hk hv.2.2⟩)
    obtain ⟨_, t, hd, hc, hw, hkt⟩ := hlist v hv.2.1 (a / 128)
    exact .ofDoes hd ⟨hb.congr rfl (hc.trans hv.1), hw, k.trans hk (k.trans hv.2.2 hkt)⟩
  · exact .ite_neg hin <| .ofDoes (M.does_pure () u) ⟨hb, by simpa using hin, hk⟩

/-! ## The merge buffer (R434) -/

/-- The step of the search for the slot whose timer ends first. -/
def earlierSlot (b : Option MergeSlot) (x : MergeSlot) : Option MergeSlot :=
  match b with
  | none => some x
  | some y => if min (x.last + 1000) (x.first + 2000) < min (y.last + 1000) (y.first + 2000) then some x else b

theorem earlierSlot_mem : ∀ (l : List MergeSlot) (b : Option MergeSlot) (x : MergeSlot),
    l.foldl earlierSlot b = some x → x ∈ l ∨ b = some x
  | [], _, _, h => .inr h
  | y :: l, b, x, h => by
    rcases earlierSlot_mem l (earlierSlot b y) x h with hin | hb
    · exact .inl (List.mem_cons_of_mem _ hin)
    · have hcase : earlierSlot b y = some y ∨ earlierSlot b y = b := by
        cases b with
        | none => exact .inl rfl
        | some z =>
          simp only [earlierSlot]
          split
          · exact .inl rfl
          · exact .inr rfl
      rcases hcase with h1 | h1
      · exact .inl (by rw [h1] at hb; exact Option.some.inj hb ▸ List.mem_cons_self)
      · exact .inr (h1 ▸ hb)

theorem mergeDue_mem {s : State} {x : MergeSlot} (h : s.mergeDue = some x) : x ∈ s.hid.mem.merge :=
  (earlierSlot_mem s.hid.mem.merge none x h).resolve_right (by simp)

/-- What is shown of the merge buffer, and what it holds. -/
def State.merging (s : State) : List MergeSlot × Nat := (s.hid.mem.merge, s.f MEM.STATUS.MERGE_USED)

theorem updMem_merging {f : MemSt → MemSt} (h : ∀ m, (f m).merge = m.merge) : (updMem f).Fixes State.merging :=
  .act fun s => Prod.ext (h s.hid.mem) rfl

theorem programPage_merging (p : Nat) : (programPage p).Fixes State.merging := by
  have hwr : ∀ a w, a ≠ MEM.STATUS → (wr a w).Fixes State.merging := fun a w ha =>
    .prod (.act fun _ => congrArg (·.mem.merge) (apply_reg_hid ..)) (.wrApart w (Ne.symm ha))
  have hoccur : ∀ d, (occur 195 0 d).Fixes State.merging := fun d => .ofIn (foot_occur 195 0 d) fun _ _ hs =>
    Prod.ext (congrArg MemSt.merge (hs.hid (by decide) 60 (by decide))) (hs.f (by decide) (by decide))
  have hwear : ∀ q, (wearCheck q).Fixes State.merging := fun q => .read fun _ =>
    .thenMore (.bind (hwr _ _ (by decide)) fun _ => .read fun _ => hwr _ _ (by decide)) fun _ =>
      .when (.bind (updMem_merging fun _ => rfl) fun _ => hoccur _)
  exact .read fun _ => .bind (updMem_merging fun _ => rfl) fun _ => hwear _

theorem mergeWriteBack_ends {s : State} {x : MergeSlot} (h : s.mergeDue = some x)
    (hdue : min (x.last + 1000) (x.first + 2000) ≤ s.hid.now) (hlen : s.hid.mem.merge.length ≤ 8) :
    mergeWriteBack.Ends s fun _ t => t.hid.mem.merge = (s.hid.mem.merge.filter fun y => y.page != x.page) ∧
      t.f MEM.STATUS.MERGE_USED = t.hid.mem.merge.length := by
  have hany : (s.hid.mem.merge.any fun m => m.page == x.page) = true := List.any_eq_true.mpr ⟨x, mergeDue_mem h, by simp⟩
  refine .read ?_
  simp only [h]
  refine .ite_pos hdue <| .read <| .ite_pos hany <| .seq (Q := fun _ u => u.hid.mem.merge =
    s.hid.mem.merge.filter fun y => y.page != x.page) (.ofDoes (M.does_hid _ s) rfl) fun _ u hu => ?_
  refine .seq (Q := fun _ v => v.hid.mem.merge = u.hid.mem.merge ∧ v.f MEM.STATUS.MERGE_USED = u.hid.mem.merge.length)
    ?_ fun _ v hv => .ofFixes (programPage_merging x.page) fun _ t ht => ?_
  · refine .read <| .ofDoes (M.does_wf _ _ u) ⟨congrArg (·.mem.merge) (apply_reg_hid ..), (f_wf_same MEM_STATUS_fields.2 _ u).trans ?_⟩
    have hle := List.length_filter_le (fun y => y.page != x.page) s.hid.mem.merge
    rw [← hu] at hle
    exact Nat.mod_eq_of_lt (show _ < 16 by omega)
  · obtain ⟨hmerge, hused⟩ := Prod.ext_iff.mp ht
    exact ⟨hmerge.trans (hv.1.trans hu), hused.trans (hv.2.trans (congrArg List.length (hmerge.trans hv.1)).symm)⟩

theorem mergeWriteBack_beyond : mergeWriteBack.Along SameBeyond := by
  refine .read fun s => ?_
  split
  · exact memMoves_beyond.ongoing.when (memMoves_beyond.writeBack _)
  · exact memMoves_beyond.ongoing.pure _

/-! ## The end of a scrub (R435) -/

theorem scrubEnd_ends (finds : List PageFind) {s : State} (h : (s.hid.mem.scrub.any fun x => x.read == x.count) = true) :
    (scrubEnd finds).Ends s fun _ t => t.hid.mem.scrub = none ∧ t.f MEM.STATUS.SCRUB_ACTIVE = 0 := by
  obtain ⟨x, hx, hread⟩ := (Option.any_eq_true _ _).mp h
  have hsome : (s.hid.mem.scrub.filter fun x => x.read == x.count) = some x := by
    rw [hx]
    simp [Option.filter, hread]
  refine .read ?_
  simp only [hsome]
  refine .afterIn (M.In.foldM foot_scrubPage _ _) fun a u _ _ => .read <| .afterIn (M.In.forM foot_programPage _) fun _ v _ _ => .read ?_
  refine .seq (Q := fun _ w => w.hid.mem.scrub = none) (.ofDoes (M.does_hid _ v) rfl) fun _ w hw => ?_
  refine .bind (M.does_wf _ 0 w) <| .ofFixes (complete_scrub ..) fun _ t ht => ?_
  obtain ⟨hscrub, hactive⟩ := Prod.ext_iff.mp ht
  exact ⟨hscrub.trans ((congrArg (·.mem.scrub) (apply_reg_hid ..)).trans hw), hactive.trans (f_wf_same MEM_STATUS_fields.1 0 w)⟩

theorem scrubEnd_along (finds : List PageFind) :
    (scrubEnd finds).Along fun s t => Keeps [] (0x13 :: ledgerPages) s t ∧ SameWaits s t :=
  (M.Along.and ((M.Along.ofIn (foot_scrubEnd finds) fun _ _ h => h).and (memMoves_beyond.scrubEnd finds))
    (memMoves_waits.scrubEnd finds)).mono fun _ _ h => ⟨h.1.1.keeps h.1.2 (by decide) (by decide), h.2⟩

/-! ## The statement -/

/-- What a Chord or a memory tells leaves a quiet block with nothing to settle. -/
theorem settles {m : M Unit} {s : State} {Q : Unit → State → Prop} {P : State → Prop} (hq : s.quiet = true) (h : m.Ends s Q)
    (h' : ∀ t, Q () t → SameWaits s t ∧ P t) : (do m; settleExecutor : M Unit).Ends s fun _ t => P t :=
  .seq h fun _ t ht => .ofDoes (settleExecutor_idle ((Prod.ext_iff.mp (h' t ht).1).1.trans (executor_of_quiet hq))) (h' t ht).2

/-- A restart that leaves what waits resumes nothing; only the logs' pools are shown again. -/
theorem resumes {m : M Unit} {s : State} {Q : Unit → State → Prop} {P : State → Prop} (hq : s.quiet = true) (h : m.Ends s Q)
    (h' : ∀ t, Q () t → SameWaits s t ∧ ∀ u, Keeps [] [0x14] t u → P u) : (do m; chordResumes : M Unit).Ends s fun _ t => P t :=
  .seq h fun _ t ht => by
    obtain ⟨_, u, hd, hu⟩ := resumes_of_waits hq (h' t ht).1
    exact .ofDoes hd ((h' t ht).2 u hu)

/-- The pools of the logs lie on no page of the Chords. -/
theorem pools_chd {t u : State} (h : Keeps [] [0x14] t u) (n : Nat) : u.chd n = t.chd n := by
  rw [chd_eq, chd_eq]
  exact h.f List.not_mem_nil (by rw [chdField_addr]; decide)

theorem Completes.of_ends {i : Instr} {s : State} {P : State → Prop} {m : M Unit} (h : exec i s = m.next s)
    (h' : m.Ends s fun _ t => P t) : Completes i s P := .of_next h h'.run

theorem notSplit {s : State} (h : s.chd 1 ≠ 2 ∧ s.chd 2 ≠ 2) (m : Fin 3) (hm : m ≠ 0) : s.chd m ≠ 2 := by
  have : m = 1 ∨ m = 2 := by omega
  rcases this with rfl | rfl
  · exact h.1
  · exact h.2

/-- Settles O32: a quiet block has nothing that a Chord's change would resume, and while no Chord is split a FAILED pair ends no
bulk task. -/
theorem chordsAndMemory : Obligations.Chords_and_memory := by
  unfold Obligations.Chords_and_memory
  refine ⟨fun s n test ha hq hn h => ?_, fun s n ok time test ha hq hn hok => ?_, fun s n ok time test ha hq hn hbad h => ?_,
    fun s n test ha hq hn h => ?_, fun s n ha hq hn hj hs => ?_, fun s a ha hp => ?_, fun s a ha hp => ?_,
    fun s x ha hp hdue hlen => ?_, fun s finds hwf ha hp hq h => ?_⟩
  · refine .of_ends rfl ((settles hq (lockstepMismatch_ends n test hn (notSplit h.2)) ?_).whenAwake ha)
    rintro t ⟨hb, hc, hchd, hcalm⟩
    exact ⟨hcalm.waits, hb, hc, hchd, hcalm.keeps.paged (by simp [CHD.CNT_page]; decide) (by simp)⟩
  · refine .of_ends rfl ((resumes hq (restartPair_resumes n test hn hok) ?_).whenAwake ha)
    rintro t ⟨hchd, hb, hmax, hcalm⟩
    refine ⟨hcalm.waits, fun u hu => ⟨(pools_chd hu n).trans hchd, hb.congr rfl (hu.f List.not_mem_nil ?_),
      (hu.f List.not_mem_nil ?_).trans hmax, (hcalm.keeps.trans hu).mono (by simp) (by decide)⟩⟩
    · rw [show (CHD.CNT.RESTARTS n).addr = CHD.CNT n from rfl, CHD.CNT_page]; decide
    · rw [show (CHD.CKPT.RESTART_MAX n).addr = CHD.CKPT n from rfl, CHD.CKPT_page]; decide
  · refine .of_ends rfl ((resumes hq (restartPair_fails n test hn hbad fun m _ => h m m.isLt) ?_).whenAwake ha)
    rintro t ⟨hchd, hc, hcalm⟩
    refine ⟨hcalm.waits, fun u hu => ⟨(pools_chd hu n).trans hchd, hc.then_shown ?_, ?_⟩⟩
    · have hword := hu.rd _ List.not_mem_nil (by rw [FLG.OCCUR_page]; decide : FLG.OCCUR 181 / 65536 ∉ [0x14])
      exact Prod.ext (f_of_rd_eq (FLG.OCCUR.OCCURRENCES 181) hword) (f_of_rd_eq (FLG.OCCUR.LAST_INSTANCE 181) hword)
    · exact ((hcalm.keeps.paged (qs := 0x12 :: ledgerPages) (by decide) (by simp)).trans hu).mono (by simp) (by decide)
  · refine .of_ends rfl ((settles hq (takeCheckpoint_ends n test hn h) ?_).whenAwake ha)
    rintro t ⟨hcount, hsplit, hcalm⟩
    exact ⟨hcalm.waits, hcount, hsplit, hcalm.keeps⟩
  · refine .of_ends rfl ((settles hq (joinGraceExpiry_ends n hn hj hs) ?_).whenAwake ha)
    rintro t ⟨hscrub, hactive, hchd, hcalm⟩
    exact ⟨hcalm.waits, hscrub, hactive, hchd, hcalm.keeps⟩
  · exact .of_checked rfl (by simp [a.isLt]) ((M.Ends.single (patrolWord_double a s)).onIsland ha hp).run
  · exact .of_checked rfl (by simp [a.isLt]) ((M.Ends.single (patrolWord_single a s)).onIsland ha hp).run
  · obtain ⟨hmerge, hused⟩ := ((mergeWriteBack_ends hdue.1 hdue.2 hlen).onIsland ha hp).run
    refine .of_next rfl ⟨⟨mergeDue_mem hdue.1, hmerge⟩, hused, ?_⟩
    rw [onIsland_run ha hp (foot_mergeWriteBack.does s)]
    exact (foot_mergeWriteBack.run s).keeps (mergeWriteBack_beyond.run s) (by decide) (by decide)
  · have hends : (do scrubEnd finds; settleExecutor : M Unit).Ends s fun _ t =>
        t.hid.mem.scrub = none ∧ t.f MEM.STATUS.SCRUB_ACTIVE = 0 ∧ Keeps [] (0x13 :: ledgerPages) s t :=
      settles hq ((scrubEnd_ends finds h).along (scrubEnd_along finds)) fun t ⟨⟨hscrub, hactive⟩, hkeeps, hwaits⟩ =>
        ⟨hwaits, hscrub, hactive, hkeeps⟩
    exact .of_checked rfl hwf (hends.onIsland ha hp).run

end Sys2Proof.Machine
end

section
/-! Statement O53, refuted: a ramp ends in STO in a group of the charger while a charging session runs. -/

namespace Sys2Proof.Machine

/-- A charging session is CHARGING with the groups 3 and 4, both RUNNING; group 3 ramps down in a safe stop 1 whose time is over. -/
def rampingCharger : State :=
  M.run (do
    wf CHG.CFG.EN 1
    wf CHG.CFG.AFE_GROUP 3
    wf CHG.CFG.DAB_GROUP 4
    wf CHG.STATUS.STATE 4
    wf (SAF.FUNC_CFG.PARAM 2) 0
    updGrp 3 fun r => { r with st := .running, ss1 := some ⟨0, none⟩ }
    updGrp 4 fun r => { r with st := .running })
    linkUp

/-- The ramp's time is over; the emergency stop of the session trips both groups of the charger (R320). -/
theorem rampingCharger_tripsOther : rampingCharger.awake = true ∧ rampingCharger.cd0Reads = true ∧
    ((rampingCharger.grp (3 : Fin 32)).ss1 = some ⟨0, none⟩ ∧
      (⟨0, none⟩ : Ss1).since + rampingCharger.f (SAF.FUNC_CFG.PARAM 2) ≤ rampingCharger.ms) ∧
    rampingCharger.active (3 : Fin 32) = true ∧
    ((onCd0 (ss1Timeout (3 : Fin 32))).run rampingCharger).gst 4 = .tripped ∧ rampingCharger.gst 4 = .running := by
  decide +kernel

/-- Refutes O53: STO forces the group whose ramp timed out (R377), and a charging session whose group is forced stops in emergency,
which trips the other group of the charger too (R320). The clause of SS1_TIMEOUT has every other group keep its state. -/
theorem not_safetyControllerReacts : ¬ Obligations.Safety_controller_reacts := by
  unfold Obligations.Safety_controller_reacts
  rintro ⟨-, -, -, -, -, -, -, -, htimeout, -⟩
  obtain ⟨hawake, hreads, hramp, hactive, htripped, hrunning⟩ := rampingCharger_tripsOther
  obtain ⟨t, ht, -, -, hothers, -⟩ := htimeout rampingCharger 3 ⟨0, none⟩ hawake hreads hramp hactive
  have hsame := hothers 4 (by decide) (by decide)
  rw [exec_next_eq ht (m := onCd0 (ss1Timeout (3 : Fin 32))) rfl, htripped, hrunning] at hsame
  exact absurd hsame (by decide)

end Sys2Proof.Machine
end

section
/-! SUPPORT for O29: what the parts of the boot leave (R462 to R464). -/

namespace Sys2Proof.Machine

/-! ## The pages beyond the last -/

theorem Keeps.beyond {as ps : List Nat} {s t : State} (h : Keeps as ps s t) (ha : ∀ a ∈ as, a < 23 * 65536)
    (hp : ∀ p ∈ ps, p < 23) : t.beyond = s.beyond :=
  funext fun b => h.rd _ (fun hin => absurd (ha _ hin) (by omega)) fun hin => absurd (hp _ hin) (by omega)

theorem writeRecord_beyond (typ : Nat) (span : Span) (gapFlag : Bool) (event : Option (Nat × Nat)) :
    (writeRecord typ span gapFlag event).Fixes State.beyond := .ofEnds fun s => by
  obtain ⟨_, t, hd, hk⟩ := writeRecord_keeps typ span gapFlag event s
  exact .ofDoes hd (hk.beyond (by decide) (by decide))

theorem meterStatus_beyond : meterStatus.Fixes State.beyond := .read fun _ => (event_link ..).bare.beyondOfBare

theorem eventRecord_beyond (code arg : Nat) : (eventRecord code arg).Fixes State.beyond := .read fun _ => writeRecord_beyond _ _ _ _

theorem meterClose_beyond (gapFlag : Bool) : (meterClose gapFlag).Fixes State.beyond :=
  .read fun _ => .when <| .bind (writeRecord_beyond _ _ _ _) fun _ => .bind (wf_beyond _ _) fun _ => hid_beyond _

theorem meterReturn_beyond (afterReset updated regsOk : Bool) : (meterReturn afterReset updated regsOk).Fixes State.beyond :=
  .read fun _ => .thenMore (.bind (wf_beyond _ _) fun _ => meterStatus_beyond) fun _ =>
    .thenMore (eventRecord_beyond _ _) fun _ => .thenMore (.bind (eventRecord_beyond _ _) fun _ => hid_beyond _) fun _ =>
    .thenMore (.bind (writeRecord_beyond _ _ _ _) fun _ => hid_beyond _) fun _ =>
    .thenMore (.bind (writeRecord_beyond _ _ _ _) fun _ => hid_beyond _) fun _ => .thenMore (meterClose_beyond _) fun _ =>
    .when (.bind (eventRecord_beyond _ _) fun _ => hid_beyond _)

theorem startMeter_beyond (ok : Bool) : (startMeter ok).Fixes State.beyond := by
  refine .read fun s => .bind fresh_beyond fun any => ?_
  split
  · exact .ite (.bind (wf_beyond _ _) fun _ => .bind (wf_beyond _ _) fun _ => meterReturn_beyond _ _ _) (wf_beyond _ _)
  · exact wf_beyond _ _

theorem restoreChords_beyond : restoreChords.Fixes State.beyond := by
  have hput : ∀ n v, (putChd n v).Fixes State.beyond := fun n v => by rw [putChd_eq]; exact wf_beyond _ _
  exact .read fun _ => .bind (.forM (fun _ => hput _ _) _) fun _ => .forM (fun _ => .when (hput _ _)) _

theorem restoreConv_beyond : restoreConv.Fixes State.beyond := by
  refine .read fun s => ?_
  split
  · exact .bind (wf_beyond _ _) fun _ => .bind (wf_beyond _ _) fun _ => .bind (wf_beyond _ _) fun _ => wf_beyond _ _
  · exact .pure _

/-! ## The wipe of SRAM (R425, R426) -/

/-- A view that neither the rows of SRAM nor an occurrence reaches is left by the wipe. -/
theorem wipeSram_fixes {β : Type} {π : State → β} (hrow : ∀ row, (replaceRow row).Fixes π) (hmem : ∀ f, (updMem f).Fixes π)
    (hok : ∀ v, (wf MEM.STATUS.WIPE_OK v).Fixes π) (hocc : ∀ src inst detail, (occur src inst detail).Fixes π) (fails : List Nat) :
    (wipeSram fails).Fixes π := by
  have hfold : ∀ l (n : Nat), (foldM' (fun r (b : Nat) => do
      if ← replaceRow r then return b
      occur 191 0 (wordDetail (r * 128))
      return b + 1 : Nat → Nat → M Nat) l n).Fixes π := by
    intro l
    induction l with
    | nil => exact fun n => .pure n
    | cons r l ih => exact fun n => .bind (.bind (hrow r) fun _ => .ite (.pure _) (.bind (hocc _ _ _) fun _ => .pure _)) fun _ => ih _
  exact .read fun _ => .bind (hmem _) fun _ => .bind (.forM (fun _ => .bind (hrow _) fun _ => .when (.bind (hmem _) fun _ => hocc _ _ _)) _)
    fun _ => .bind (hfold _ _) fun _ => .bind (hok _) fun _ => .pure _

theorem replaceRow_beyond (row : Nat) : (replaceRow row).Fixes State.beyond :=
  .read fun _ => .ite (.bind (hid_beyond _) fun _ => .read fun _ => .bind (wf_beyond _ _) fun _ => .pure _) (.pure _)

theorem WIPE_OK_real : MEM.STATUS.WIPE_OK.Real := by decide

/-- Where no row is to be replaced SRAM is in order. -/
theorem wipeSram_clean {s : State} (h : s.hid.mem.repair = []) :
    (wipeSram []).Ends s fun ok t => ok = true ∧ t.f MEM.STATUS.WIPE_OK = 1 ∧ Same [19, 60] s t := by
  have hwf : (wf MEM.STATUS.WIPE_OK 1).In [19] := M.In.wf 19 _ _ (by decide) (by decide)
  have hclear := (foot_updMem fun m => { m with repair := [], words := [] }).run s
  refine .read ?_
  rw [h]
  refine .bind ((foot_updMem _).does s) <| .bind (M.does_pure () _) <| .bind (M.does_pure 0 _) <| .bind (hwf.does _) <|
    .ofDoes (M.does_pure _ _) ⟨rfl, ?_, (hclear.mono (by decide)).trans ((hwf.run _).mono (by decide))⟩
  rw [(M.does_wf MEM.STATUS.WIPE_OK 1 _).run]
  exact f_wf_same WIPE_OK_real 1 _

end Sys2Proof.Machine
end

section
/-! Statement O29: the boot (R462 to R464, R475). -/

namespace Sys2Proof.Machine

/-! ## What the release of reset shows -/

/-- A field of SYS that the rest of the boot leaves once the release has set it. -/
structure FldAt.BootShown (x : FldAt) : Prop where
  page : x.addr / 65536 = 0
  apart : ∀ y ∈ [SYS.STATUS.DEV_STATE, SYS.STATUS.HOSTMODE, SYS.STATUS.RECOVERY, SYS.LINK.LINK_LOST, SYS.LINK.SAFE_HELD,
    SYS.ISLAND.STATE 8], x.Apart y
  counts : ∀ k, x.addr ≠ SYS.XFER k

/-- The fields that the release sets, beside the islands. -/
abbrev bootFields : List FldAt := [SYS.STATUS.RESET_CAUSE, SYS.STATUS.LC_STATE, SYS.BOOT.BOOTS]

theorem XFER_range (k : Nat) : 320 ≤ SYS.XFER k ∧ SYS.XFER k ≠ 384 := by
  simp only [SYS.XFER, arr]
  split <;> omega

theorem bootFields_shown : ∀ x ∈ bootFields, x.BootShown := by
  have hapart : ∀ x ∈ bootFields, ∀ y ∈ [SYS.STATUS.DEV_STATE, SYS.STATUS.HOSTMODE, SYS.STATUS.RECOVERY, SYS.LINK.LINK_LOST,
    SYS.LINK.SAFE_HELD, SYS.ISLAND.STATE 8], x.Apart y := by decide
  have hlow : ∀ x ∈ bootFields, x.addr < 320 := by decide
  exact fun x hx => ⟨by have := hlow x hx; omega, hapart x hx, fun k h => by
    have := hlow x hx
    have := (XFER_range k).1
    omega⟩

theorem ISLAND_STATE_shown {n : Nat} (hn : n < 16) (h8 : n ≠ 8) : (SYS.ISLAND.STATE n).BootShown where
  page := SYS.ISLAND_page n
  apart := by
    have h : ∀ m : Fin 16, m ≠ 8 → ∀ y ∈ [SYS.STATUS.DEV_STATE, SYS.STATUS.HOSTMODE, SYS.STATUS.RECOVERY, SYS.LINK.LINK_LOST,
      SYS.LINK.SAFE_HELD, SYS.ISLAND.STATE 8], (SYS.ISLAND.STATE m).addr ≠ y.addr := by decide
    exact fun y hy => .inl (h ⟨n, hn⟩ (fun hc => h8 (congrArg Fin.val hc)) y hy)
  counts k := ISLAND_ne_XFER hn k

section
variable {x : FldAt} (hx : x.BootShown)
include hx

theorem FldAt.BootShown.wf {y : FldAt} (v : Nat) (hy : y ∈ [SYS.STATUS.DEV_STATE, SYS.STATUS.HOSTMODE, SYS.STATUS.RECOVERY,
    SYS.LINK.LINK_LOST, SYS.LINK.SAFE_HELD, SYS.ISLAND.STATE 8]) : (Machine.wf y v).Fixes fun s => s.f x := .wfApart (hx.apart y hy) v

theorem FldAt.BootShown.within {α : Type} {P : List Nat} {m : M α} (h : m.In P) (hn : 99 ∉ P ∧ 0 ∉ P) : m.Fixes fun s => s.f x :=
  .ofIn h fun _ _ hs => hs.f hn.1 (by rw [hx.page]; exact hn.2)

theorem FldAt.BootShown.unreacted : Unreacted fun s => s.f x where
  places _ _ h := h.f (by decide) (by rw [hx.page]; decide)
  sent _ _ h := f_of_rd_eq x <| bare_rd h.bare <| by rw [hx.page]; decide
  avail v := hx.within (M.In.wf (P := [9]) 9 _ v (by decide) (by decide)) (by decide)
  device v := hx.wf v (by decide)
  dropped k := .incApart (.inl (hx.counts k))

theorem FldAt.BootShown.setDev (new : Nat) : (Machine.setDev new).Fixes fun s => s.f x :=
  .read fun _ => .when <| .bind (hx.wf _ (by decide)) fun _ => .read fun _ => hx.unreacted.event ..

theorem FldAt.BootShown.startMeter (ok : Bool) : (Machine.startMeter ok).Fixes fun s => s.f x := by
  have hisland : ∀ v, (Machine.wf (SYS.ISLAND.STATE 8) v).Fixes fun s => s.f x := fun v => hx.wf v (by decide)
  refine .read fun s => .bind (hx.within (M.In.fresh (P := [42]) (by decide)) (by decide)) fun any => ?_
  split
  · refine .ite (.bind (hx.within (M.In.wf (P := [22]) 22 _ _ ?_ (by decide)) (by decide)) fun _ => .bind (hisland 2) fun _ =>
      hx.within (foot_meterReturn true false true) (by decide)) (hisland 0)
    decide
  · exact hisland 0

theorem FldAt.BootShown.wipeSram (fails : List Nat) : (Machine.wipeSram fails).Fixes fun s => s.f x :=
  wipeSram_fixes (fun row => hx.within (foot_replaceRow row) (by decide)) (fun f => hx.within (foot_updMem f) (by decide))
    (fun v => hx.within (M.In.wf (P := [19]) 19 _ v (by decide) (by decide)) (by decide)) hx.unreacted.occur fails

end

/-- What the first part of RESET_RELEASE shows of a boot. -/
structure Released (s : State) (b : BootIn) (u : State) : Prop where
  lcy : u.hid.lcy = { s.hid.lcy with held := false, relAt := s.hid.now }
  mem : u.hid.mem = s.hid.mem
  flg : u.hid.flg = s.hid.flg
  cause : u.f SYS.STATUS.RESET_CAUSE = s.hid.lcy.cause % 256
  state : u.f SYS.STATUS.LC_STATE = s.lcState
  boots : u.f SYS.BOOT.BOOTS = (s.f SYS.BOOT.BOOTS + 1) % 65536
  mode : u.f SYS.STATUS.HOSTMODE = b2n b.hostmode
  dev : u.dev = s.dev
  islands : ∀ n < 16, u.present n = true
  slots : ∀ x ∈ [LCY.FW_STAT.SLOT_A 0, LCY.FW_STAT.SLOT_B 0], u.f x = s.f x
  rest : ∀ a, a / 65536 ∉ [0, 22] → u.rd a = s.rd a

theorem wf_sets {x : FldAt} (hx : x.Real) (v : Nat) (s : State) : (wf x v).Ends s fun _ t =>
    t.f x = v % 2 ^ (x.hi + 1 - x.lo) ∧ t.hid = s.hid ∧ (∀ y : FldAt, y.Apart x → t.f y = s.f y) ∧
      ∀ a, a ≠ x.addr → t.rd a = s.rd a :=
  .ofDoes (M.does_wf x v s) ⟨f_wf_same hx v s, apply_reg_hid .., fun _ hy => f_wf_apart hy v s,
    fun _ ha => rd_apply_reg_other _ _ _ s ha⟩

theorem STATUS_real : ∀ x ∈ [SYS.STATUS.HOSTMODE, SYS.STATUS.RESET_CAUSE, SYS.STATUS.LC_STATE], x.Real := by decide

theorem STATUS_apart : (∀ x ∈ [SYS.STATUS.HOSTMODE, SYS.STATUS.RESET_CAUSE], x.Apart SYS.STATUS.LC_STATE) ∧
    SYS.STATUS.HOSTMODE.Apart SYS.STATUS.RESET_CAUSE ∧
    ∀ y ∈ [SYS.STATUS.HOSTMODE, SYS.STATUS.RESET_CAUSE, SYS.STATUS.LC_STATE], SYS.STATUS.DEV_STATE.Apart y := by decide

theorem BOOTS_real : SYS.BOOT.BOOTS.Real := by decide

theorem ISLAND_fields : ∀ n : Fin 16, (SYS.ISLAND.STATE n).Real ∧ (SYS.ISLAND.STATE n).Apart (SYS.ISLAND.PLL_LOCK n) := by
  decide

/-- One island comes into service. -/
theorem island_up {n : Nat} (hn : n < 16) (s : State) : (do
    wf (SYS.ISLAND.STATE n) 2
    wf (SYS.ISLAND.PLL_LOCK n) 1 : M Unit).Ends s fun _ t => t.hid = s.hid ∧ t.present n = true ∧
      ∀ a, a ≠ SYS.ISLAND n → t.rd a = s.rd a := by
  obtain ⟨hreal, hapart⟩ := ISLAND_fields ⟨n, hn⟩
  refine .seq (wf_sets hreal 2 s) fun _ u hu => .ofDoes (M.does_wf _ 1 u) ⟨(apply_reg_hid ..).trans hu.2.1, ?_, fun a ha => ?_⟩
  · rw [State.present, f_wf_apart hapart, hu.1]
    rfl
  · exact (rd_apply_reg_other _ _ _ _ ha).trans (hu.2.2.2 a ha)

/-- A loop in which each turn brings about a property of its own word and leaves every other word. -/
theorem forM_each {f : Nat → M Unit} {addr : Nat → Nat} {Q : Nat → State → Prop}
    (hstays : ∀ n u t, t.rd (addr n) = u.rd (addr n) → Q n u → Q n t) : ∀ (l : List Nat) (s : State), l.Nodup →
    (∀ n ∈ l, ∀ s, (f n).Ends s fun _ t => t.hid = s.hid ∧ Q n t ∧ ∀ a, a ≠ addr n → t.rd a = s.rd a) →
    (∀ m ∈ l, ∀ n ∈ l, addr m = addr n → m = n) →
    (l.forM f).Ends s fun _ t => t.hid = s.hid ∧ (∀ n ∈ l, Q n t) ∧ ∀ a, (∀ n ∈ l, a ≠ addr n) → t.rd a = s.rd a
  | [], s, _, _, _ => .ofDoes (M.does_pure () s) ⟨rfl, fun _ h => absurd h List.not_mem_nil, fun _ _ => rfl⟩
  | m :: l, s, hnd, hstep, hinj => by
    obtain ⟨hm, hnd⟩ := List.nodup_cons.mp hnd
    refine .seq (hstep m List.mem_cons_self s) fun _ u hu => ?_
    obtain ⟨_, t, hd, hhid, hdone, hrd⟩ := forM_each hstays l u hnd (fun n hn => hstep n (List.mem_cons_of_mem _ hn))
      fun k hk n hn => hinj k (List.mem_cons_of_mem _ hk) n (List.mem_cons_of_mem _ hn)
    refine .ofDoes hd ⟨hhid.trans hu.1, fun n hn => ?_, fun a ha => ?_⟩
    · rcases List.mem_cons.mp hn with rfl | hn
      · exact hstays n u t (hrd _ fun k hk hc => hm (hinj n List.mem_cons_self k (List.mem_cons_of_mem _ hk) hc ▸ hk)) hu.2.1
      · exact hdone n hn
    · exact (hrd a fun n hn => ha n (List.mem_cons_of_mem _ hn)).trans (hu.2.2 a (ha m List.mem_cons_self))

/-- The islands come into service. -/
theorem islands_up (s : State) : ((List.range 16).forM fun n => do
    wf (SYS.ISLAND.STATE n) 2
    wf (SYS.ISLAND.PLL_LOCK n) 1 : M Unit).Ends s fun _ t => t.hid = s.hid ∧ (∀ n < 16, t.present n = true) ∧
      ∀ a, (∀ n < 16, a ≠ SYS.ISLAND n) → t.rd a = s.rd a := by
  obtain ⟨_, t, hd, hhid, hup, hrd⟩ := forM_each (addr := SYS.ISLAND) (Q := fun n t => t.present n = true)
    (fun n u t h hu => by rw [State.present, f_of_rd_eq (SYS.ISLAND.STATE n) h]; exact hu) (List.range 16) s List.nodup_range
    (fun n hn s => island_up (List.mem_range.mp hn) s) (fun m hm n hn hc => by
      have := List.mem_range.mp hm
      have := List.mem_range.mp hn
      simp only [SYS.ISLAND, arr] at hc
      split_ifs at hc <;> omega)
  exact .ofDoes hd ⟨hhid, fun n hn => hup n (List.mem_range.mpr hn), fun a ha => hrd a fun n hn => ha n (List.mem_range.mp hn)⟩

theorem LINK_real : SYS.LINK.SAFE_HELD.Real := by decide

theorem FALLBACK_real : (LCY.FW_STAT.FALLBACK 0).Real := by decide

theorem slots_apart : ∀ x ∈ [SYS.LINK.SAFE_HELD, LCY.FW_STAT.FALLBACK 0], ∀ y ∈ [LCY.FW_STAT.SLOT_A 0, LCY.FW_STAT.SLOT_B 0],
    y.Apart x := by decide

theorem written_off : ∀ x ∈ [SYS.LINK.SAFE_HELD, LCY.FW_STAT.FALLBACK 0],
    (∀ y ∈ [SYS.STATUS.RESET_CAUSE, SYS.STATUS.LC_STATE, SYS.BOOT.BOOTS, SYS.STATUS.HOSTMODE, SYS.STATUS.DEV_STATE],
      y.addr ≠ x.addr) ∧ (∀ n : Fin 16, SYS.ISLAND n ≠ x.addr) ∧ x.addr / 65536 ∈ [0, 22] := by decide

/-- SAFE_HELD and FALLBACK are written beside what a release shows. -/
theorem Released.write {s u t : State} {b : BootIn} (h : Released s b u) {x : FldAt} {v : Nat}
    (hx : x ∈ [SYS.LINK.SAFE_HELD, LCY.FW_STAT.FALLBACK 0])
    (ht : t.f x = v ∧ t.hid = u.hid ∧ (∀ y : FldAt, y.Apart x → t.f y = u.f y) ∧ ∀ a, a ≠ x.addr → t.rd a = u.rd a) :
    Released s b t := by
  obtain ⟨-, hhid, hf, hrd⟩ := ht
  obtain ⟨hoff, hislands, hpage⟩ := written_off x hx
  have hother : ∀ y ∈ [SYS.STATUS.RESET_CAUSE, SYS.STATUS.LC_STATE, SYS.BOOT.BOOTS, SYS.STATUS.HOSTMODE, SYS.STATUS.DEV_STATE],
      t.f y = u.f y := fun y hy => f_of_rd_eq y (hrd _ (hoff y hy))
  exact {
    lcy := (congrArg Hidden.lcy hhid).trans h.lcy
    mem := (congrArg Hidden.mem hhid).trans h.mem
    flg := (congrArg Hidden.flg hhid).trans h.flg
    cause := (hother _ (by decide)).trans h.cause
    state := (hother _ (by decide)).trans h.state
    boots := (hother _ (by decide)).trans h.boots
    mode := (hother _ (by decide)).trans h.mode
    dev := (hother _ (by decide)).trans h.dev
    islands := fun n hn => by
      rw [State.present, f_of_rd_eq (SYS.ISLAND.STATE n) (hrd _ (hislands ⟨n, hn⟩))]
      exact h.islands n hn
    slots := fun y hy => (hf y (slots_apart x hx y hy)).trans (h.slots y hy)
    rest := fun a ha => (hrd a fun hc => ha (hc ▸ hpage)).trans (h.rest a ha) }

theorem released {b : BootIn} {s : State} {k : M Unit} {P : Unit → State → Prop} (h : ∀ u, Released s b u → k.Ends u P) :
    (do
      updLcy fun l => { l with held := false, relAt := s.hid.now }
      wf SYS.STATUS.HOSTMODE (b2n b.hostmode)
      wf SYS.STATUS.RESET_CAUSE s.hid.lcy.cause
      wf SYS.STATUS.LC_STATE s.lcState
      incWrap SYS.BOOT.BOOTS
      (List.range 16).forM fun n => do
        wf (SYS.ISLAND.STATE n) 2
        wf (SYS.ISLAND.PLL_LOCK n) 1
      if s.hid.lcy.fellBack then wf (LCY.FW_STAT.FALLBACK 0) 1
      showHeld
      k : M Unit).Ends s P := by
  refine .seq (Q := fun _ u => u.hid.lcy = { s.hid.lcy with held := false, relAt := s.hid.now } ∧ u.hid.mem = s.hid.mem ∧
    u.hid.flg = s.hid.flg ∧ ∀ a, u.rd a = s.rd a) (.ofDoes (M.does_hid _ s) ⟨rfl, rfl, rfl, fun _ => rfl⟩) fun _ s0 h0 => ?_
  refine .seq (wf_sets (STATUS_real _ (by decide)) _ s0) fun _ s1 h1 => ?_
  refine .seq (wf_sets (STATUS_real _ (by decide)) _ s1) fun _ s2 h2 => ?_
  refine .seq (wf_sets (STATUS_real _ (by decide)) _ s2) fun _ s3 h3 => ?_
  refine .seq (.bind (M.does_rf _ s3) (wf_sets BOOTS_real _ s3)) fun _ s4 h4 => ?_
  refine .seq (islands_up s4) fun _ s5 h5 => ?_
  obtain ⟨hlcy, hmem, hflg, hrd0⟩ := h0
  obtain ⟨hmode, hhid1, hf1, hrd1⟩ := h1
  obtain ⟨hcause, hhid2, hf2, hrd2⟩ := h2
  obtain ⟨hlc, hhid3, hf3, hrd3⟩ := h3
  obtain ⟨hboots, hhid4, hf4, hrd4⟩ := h4
  obtain ⟨hhid5, hup, hrd5⟩ := h5
  obtain ⟨hapl, hapc, hapd⟩ := STATUS_apart
  have hh : s5.hid = s0.hid := by rw [hhid5, hhid4, hhid3, hhid2, hhid1]
  have hlow : ∀ n < 16, 256 ≤ SYS.ISLAND n ∧ SYS.ISLAND n < 320 := fun n hn => by
    simp only [SYS.ISLAND, arr, hn, Nat.zero_le, and_self, if_true]; omega
  have hs : ∀ x : FldAt, x.addr = SYS.STATUS → s5.f x = s3.f x := fun x hx => by
    have hne : x.addr ≠ SYS.BOOT := by rw [hx]; decide
    refine (f_of_rd_eq x (hrd5 _ fun n hn hc => ?_)).trans (f_of_rd_eq x (hrd4 _ hne))
    have := hlow n hn
    rw [hx, SYS.STATUS] at hc
    omega
  have hrest : ∀ a, a ≠ SYS.STATUS → a ≠ SYS.BOOT → (∀ n < 16, a ≠ SYS.ISLAND n) → s5.rd a = s.rd a := fun a h1 h2 h3 => by
    rw [hrd5 a h3, hrd4 a h2, hrd3 a h1, hrd2 a h1, hrd1 a h1, hrd0]
  have hpage : ∀ a, a / 65536 ≠ 0 → s5.rd a = s.rd a := fun a ha => hrest a (fun hc => ha (by rw [hc]; decide))
    (fun hc => ha (by rw [hc]; decide)) fun n hn hc => ha (hc ▸ SYS.ISLAND_page n)
  have hrel : Released s b s5 := {
    lcy := (congrArg Hidden.lcy hh).trans hlcy
    mem := (congrArg Hidden.mem hh).trans hmem
    flg := (congrArg Hidden.flg hh).trans hflg
    cause := by
      rw [hs _ rfl, hf3 _ (hapl _ (by decide)), hcause]
      rfl
    state := by
      rw [hs _ rfl, hlc]
      exact Nat.mod_eq_of_lt (f_lt LCY.STATE.STATE s)
    boots := by
      have hkept : s5.f SYS.BOOT.BOOTS = s4.f SYS.BOOT.BOOTS := f_of_rd_eq _ <| hrd5 _ fun n hn hc => by
        have := hlow n hn
        rw [show SYS.BOOT.BOOTS.addr = 4 from rfl] at hc
        omega
      have hboot : s3.f SYS.BOOT.BOOTS = s.f SYS.BOOT.BOOTS := f_of_rd_eq _ (by
        rw [hrd3 _ (by decide), hrd2 _ (by decide), hrd1 _ (by decide), hrd0])
      rw [hkept, hboots, hboot]
      rfl
    mode := by
      rw [hs _ rfl, hf3 _ (hapl _ (by decide)), hf2 _ hapc, hmode]
      cases b.hostmode <;> rfl
    dev := by
      rw [State.dev, State.dev, hs _ rfl, hf3 _ (hapd _ (by decide)), hf2 _ (hapd _ (by decide)), hf1 _ (hapd _ (by decide))]
      exact f_of_rd_eq _ (hrd0 _)
    islands := hup
    slots := fun x hx => f_of_rd_eq x (hpage _ (by revert x; decide))
    rest := fun a ha => hpage a fun hc => ha (by rw [hc]; decide) }
  have hlast : ∀ u, Released s b u → (showHeld >>= fun _ => k : M Unit).Ends u P := fun u hu =>
    .seq (m := showHeld) (.read (wf_sets LINK_real _ u)) fun _ t ht => h t (hu.write (by decide) ht)
  exact .ite (.seq (wf_sets FALLBACK_real 1 s5) fun _ t ht => hlast t (hrel.write (by decide) ht)) (hlast s5 hrel)


theorem boots_release {b : BootIn} {s : State} (hb : b.resetN = true ∧ b.refOk = true ∧ b.testLow = true)
    (hheld : s.hid.lcy.held = true) (hok : ∀ m < 4, s.f (supplyOk m) = 1) :
    s.hid.lcy.held = true ∧ b.resetN = true ∧ b.refOk = true ∧ b.testLow = true ∧
      ((List.range 4).all fun m => s.f (supplyOk m) == 1) = true :=
  ⟨hheld, hb.1, hb.2.1, hb.2.2, List.all_eq_true.mpr fun m hm => beq_iff_eq.mpr (hok m (List.mem_range.mp hm))⟩

/-- A view that the rest of a boot leaves, once the release has shown what it shows. -/
structure Booted {β : Type} (π : State → β) : Prop where
  wf : ∀ x ∈ [SYS.STATUS.HOSTMODE, SYS.STATUS.RECOVERY, SYS.LINK.LINK_LOST, SYS.ISLAND.STATE 8, MEM.STATUS.WIPE_PENDING,
    LCY.FW_STAT.ACTIVE 0, SAF.STATUS.DIAG_OK], ∀ v, (Machine.wf x v).Fixes π
  lost : (updLcy fun l => { l with coreLost := false }).Fixes π
  occur : ∀ src inst detail, (Machine.occur src inst detail).Fixes π
  sram : ∀ fails, (wipeSram fails).Fixes π
  fresh : Machine.fresh.Fixes π
  dev : ∀ new, (setDev new).Fixes π
  chords : restoreChords.Fixes π
  meter : ∀ ok, (startMeter ok).Fixes π
  spares : showSpares.Fixes π
  bank : ∀ b, (showBank b).Fixes π
  conv : restoreConv.Fixes π
  avail : setAvail.Fixes π
  crc : setCfgCrc.Fixes π

/-- What the release has shown stays through the rest of the boot. -/
theorem Booted.kept {β : Type} {π : State → β} (h : Booted π) {b : BootIn} {s : State}
    (hb : b.resetN = true ∧ b.refOk = true ∧ b.testLow = true) (hheld : s.hid.lcy.held = true)
    (hok : ∀ m < 4, s.f (supplyOk m) = 1) :
    (resetRelease b).Ends s fun _ t => ∃ u, Released s b u ∧ π t = π u := by
  refine .read <| .ite_pos (boots_release hb hheld hok) <| released (b := b) fun u hu => .ofFixes (π := π)
    (.thenMore (.bind (h.wf _ (by decide) 1) fun _ => .bind h.lost fun _ => h.occur 2 0 _) fun _ =>
      .bind (h.sram _) fun sram => .thenMore (h.wf _ (by decide) 1) fun _ => .bind h.fresh fun any =>
        .read fun w => ?_) fun _ t ht => ⟨u, hu, ht⟩
  split
  · exact .bind (h.wf _ (by decide) _) fun _ => .bind (h.wf _ (by decide) _) fun _ => .bind (h.wf _ (by decide) _) fun _ => h.dev 4
  · exact .bind (h.wf _ (by decide) _) fun _ => .bind h.chords fun _ => .bind (h.wf _ (by decide) _) fun _ =>
      .bind (h.meter _) fun _ => .bind h.spares fun _ => .bind (.forM (fun _ => h.bank _) _) fun _ => .bind h.conv fun _ =>
      .bind h.avail fun _ => .bind h.crc fun _ => .read fun _ => .when (h.dev 4)

theorem booted_f {x : FldAt} (hx : x.BootShown) : Booted fun s => s.f x where
  wf y hy v := by
    simp only [List.mem_cons, List.not_mem_nil, or_false] at hy
    rcases hy with rfl | rfl | rfl | rfl | rfl | rfl | rfl
    · exact hx.wf v (by decide)
    · exact hx.wf v (by decide)
    · exact hx.wf v (by decide)
    · exact hx.wf v (by decide)
    · exact hx.within (M.In.wf (P := [19]) 19 _ v (by decide) (by decide)) (by decide)
    · exact hx.within (M.In.wf (P := [22]) 22 _ v (by decide) (by decide)) (by decide)
    · exact hx.within (M.In.wf (P := [16]) 16 _ v (by decide) (by decide)) (by decide)
  lost := hx.within (foot_updLcy _) (by decide)
  occur := hx.unreacted.occur
  sram := hx.wipeSram
  fresh := hx.within (M.In.fresh (P := [42]) (by decide)) (by decide)
  dev := hx.setDev
  chords := hx.within foot_restoreChords (by decide)
  meter := hx.startMeter
  spares := hx.within foot_showSpares (by decide)
  bank b := hx.within (foot_showBank b) (by decide)
  conv := hx.within foot_restoreConv (by decide)
  avail := hx.within foot_setAvail (by decide)
  crc := hx.within foot_setCfgCrc (by decide)

theorem heldIn {α : Type} {P : List Nat} {m : M α} (h : m.In P) (hn : 99 ∉ P ∧ 61 ∉ P) : m.Fixes fun s => s.hid.lcy.held :=
  .ofIn h fun _ _ hs => congrArg LcySt.held (hs.hid hn.1 61 hn.2)

theorem booted_held : Booted fun s => s.hid.lcy.held where
  wf x _ v := .read fun _ => .act fun _ => congrArg (·.lcy.held) (apply_reg_hid ..)
  lost := .act fun _ => rfl
  occur src inst detail := heldIn (foot_occur src inst detail) (by decide)
  sram fails := heldIn (foot_wipeSram fails) (by decide)
  fresh := heldIn (M.In.fresh (P := [42]) (by decide)) (by decide)
  dev new := heldIn (foot_setDev new) (by decide)
  chords := heldIn foot_restoreChords (by decide)
  meter ok := heldIn (foot_startMeter ok) (by decide)
  spares := heldIn foot_showSpares (by decide)
  bank b := heldIn (foot_showBank b) (by decide)
  conv := heldIn foot_restoreConv (by decide)
  avail := heldIn foot_setAvail (by decide)
  crc := heldIn foot_setCfgCrc (by decide)

theorem booted_beyond : Booted State.beyond where
  wf x _ v := wf_beyond x v
  lost := hid_beyond _
  occur := occur_beyond
  sram := wipeSram_fixes replaceRow_beyond (fun _ => hid_beyond _) (wf_beyond _) occur_beyond
  fresh := fresh_beyond
  dev := setDev_beyond
  chords := restoreChords_beyond
  meter := startMeter_beyond
  spares := .read fun _ => .bind (wf_beyond _ _) fun _ => wf_beyond _ _
  bank := showBank_beyond
  conv := restoreConv_beyond
  avail := setAvail_beyond
  crc := .read fun _ => wr_beyond _ _

/-- The pages a boot writes (R462 to R464). -/
theorem resetRelease_frame {b : BootIn} {s : State} (hb : b.resetN = true ∧ b.refOk = true ∧ b.testLow = true)
    (hheld : s.hid.lcy.held = true) (hok : ∀ m < 4, s.f (supplyOk m) = 1) (a : Nat)
    (ha : a / 65536 ∉ 0x02 :: 0x0D :: 0x12 :: 0x13 :: 0x16 :: ledgerPages) : ((resetRelease b).run s).rd a = s.rd a := by
  obtain ⟨u, hu, hbeyond⟩ := (booted_beyond.kept hb hheld hok).run
  have hsu : u.beyond = s.beyond := funext fun n => hu.rest _ (by simp; omega)
  exact (((foot_resetRelease b).run s).keeps (hbeyond.trans hsu) (by decide) (by decide)).rd a List.not_mem_nil ha

/-- A release without a reset that is due. -/
theorem resetRelease_run {s : State} (b : BootIn) (h : s.hid.lcy.resetSoon = false) :
    (do if (← getS).hid.lcy.resetSoon then deviceReset 4 true
        resetRelease b : M Unit).run s = (resetRelease b).run s :=
  M.Does.run <| .read <| .ite_neg (by simp [h]) ((foot_resetRelease b).does s)

/-! ## The boot of a sound device (R463, R475) -/

/-- The fields that a boot without a finding shows, and the states of the Chords. -/
abbrev soundFields : List FldAt := [SYS.STATUS.DEV_STATE, SYS.STATUS.HOSTMODE, LCY.FW_STAT.ACTIVE 0, MEM.STATUS.WIPE_OK,
  SAF.STATUS.DIAG_OK, ⟨CHD.STATUS, 31, 0⟩]

/-- What a boot without a finding shows. -/
def State.sound (s : State) : List Nat := soundFields.map fun x => s.f x

theorem M.Fixes.soundIn {α : Type} {P : List Nat} {m : M α} (h : m.In P) (hn : 99 ∉ P)
    (hp : ∀ x ∈ soundFields, x.addr / 65536 ∉ P) : m.Fixes State.sound :=
  .ofIn h fun _ _ hs => List.map_congr_left fun x hx => hs.f hn (hp x hx)

theorem M.Fixes.soundWf {x : FldAt} (v : Nat) (h : ∀ y ∈ soundFields, y.Apart x) : (wf x v).Fixes State.sound :=
  ⟨fun s => ⟨(), _, M.does_wf x v s, List.map_congr_left fun y hy => f_wf_apart (h y hy) v s⟩⟩

theorem soundFields_apart : ∀ x ∈ [LCY.FW_STAT.ACTIVE 1, SYS.ISLAND.STATE 8, MEM.STATUS.WIPE_PENDING], ∀ y ∈ soundFields,
    y.Apart x := by decide

theorem startMeter_sound (ok : Bool) : (startMeter ok).Fixes State.sound := by
  have hwf : ∀ x ∈ [LCY.FW_STAT.ACTIVE 1, SYS.ISLAND.STATE 8], ∀ v, (wf x v).Fixes State.sound := fun x hx v =>
    .soundWf v (soundFields_apart x (List.mem_append_left [MEM.STATUS.WIPE_PENDING] hx))
  refine .read fun s => .bind (.soundIn (M.In.fresh (P := [42]) (by decide)) (by decide) (by decide)) fun any => ?_
  split
  · exact .ite (.bind (hwf _ (by decide) _) fun _ => .bind (hwf _ (by decide) 2) fun _ =>
      .soundIn (foot_meterReturn true false true) (by decide) (by decide)) (hwf _ (by decide) 0)
  · exact hwf _ (by decide) 0

theorem restoreChords_idle {s : State} (h : s.hid.flg.chdFailed = []) : restoreChords.Does s () s := by
  refine .read ?_
  rw [h]
  exact (M.does_pure () s).bind <| (M.Does.ite_neg (by simp) (M.does_pure () s)).bind <|
    (M.Does.ite_neg (by simp) (M.does_pure () s)).bind (M.does_pure () s)

theorem sound_reals : ∀ x ∈ [LCY.FW_STAT.ACTIVE 0, SAF.STATUS.DIAG_OK], x.Real := by decide

theorem sound_set : (∀ x ∈ [SYS.STATUS.DEV_STATE, SYS.STATUS.HOSTMODE, MEM.STATUS.WIPE_OK, SAF.STATUS.DIAG_OK, ⟨CHD.STATUS, 31, 0⟩],
      x.Apart (LCY.FW_STAT.ACTIVE 0)) ∧
    ∀ x ∈ [SYS.STATUS.DEV_STATE, SYS.STATUS.HOSTMODE, LCY.FW_STAT.ACTIVE 0, MEM.STATUS.WIPE_OK, ⟨CHD.STATUS, 31, 0⟩],
      x.Apart SAF.STATUS.DIAG_OK := by decide

theorem setCfgCrc_sound : setCfgCrc.Fixes State.sound :=
  .read fun _ => .act fun s => List.map_congr_left fun x hx => f_of_rd_eq x <| rd_apply_reg_other _ _ _ s <| by
    revert x; decide

theorem chd_of_word {s : State} (h : s.f ⟨CHD.STATUS, 31, 0⟩ = 0) (n : Nat) : s.chd n = 0 := by
  have hword : s.rd CHD.STATUS = 0 := by
    apply BitVec.eq_of_toNat_eq
    have hlt := (s.rd CHD.STATUS).isLt
    rw [State.f, bitsOf, Nat.pow_zero, Nat.div_one] at h
    exact (Nat.mod_eq_of_lt hlt).symm.trans h
  rw [chd_eq, State.f, chdField_addr, hword]
  simp [bitsOf]

/-- A first part that is done on a condition; where it is not, as much is known. -/
theorem M.Ends.thenMore {β : Type} {c : Prop} [Decidable c] {m : M Unit} {k : Unit → M β} {s : State} {Q : State → Prop}
    {P : β → State → Prop} (h : m.Ends s fun _ t => Q t) (h' : Q s) (hk : ∀ t, Q t → (k ()).Ends t P) :
    (if c then m >>= k else k ()).Ends s P := .ite (.seq h fun _ t ht => hk t ht) (hk s h')

theorem bootSlot_A {s : State} (hA : s.f (LCY.FW_STAT.SLOT_A 0) = 2) (hB : s.f (LCY.FW_STAT.SLOT_B 0) = 0) (any : Nat) :
    s.bootSlot 0 any = some 0 := by
  simp [State.bootSlot, slotField, hA, hB]

theorem resetRelease_sound {b : BootIn} {s : State} (hsound : b.sramFails = [] ∧ b.recordsOk = true ∧ b.cd0Ok = true)
    (hb : b.resetN = true ∧ b.refOk = true ∧ b.testLow = true) (hlost : s.hid.lcy.coreLost = false)
    (hheld : s.hid.lcy.held = true) (hok : ∀ m < 4, s.f (supplyOk m) = 1) (hdev : s.f SYS.STATUS.DEV_STATE = 0)
    (hA : s.f (LCY.FW_STAT.SLOT_A 0) = 2) (hB : s.f (LCY.FW_STAT.SLOT_B 0) = 0) (hrep : s.hid.mem.repair = [])
    (hfail : s.hid.flg.chdFailed = []) (hchd : s.rd CHD.STATUS = 0) :
    (resetRelease b).Ends s fun _ t => t.sound = [0, b2n b.hostmode, 0, 1, 1, 0] := by
  obtain ⟨hrows, hrec, hcd0⟩ := hsound
  have hfalse : ¬ (s.hid.lcy.coreLost = true) := by simp [hlost]
  refine .read <| .ite_pos (boots_release hb hheld hok) <| released (b := b) fun u hu => .ite_neg hfalse ?_
  rw [hrows]
  refine .seq (wipeSram_clean ((congrArg MemSt.repair hu.mem).trans hrep)) fun sram v hv => ?_
  obtain ⟨rfl, hwipe, hsame⟩ := hv
  refine M.Ends.thenMore (Q := fun w => Same [19, 60] u w ∧ w.f MEM.STATUS.WIPE_OK = 1) ?_ ⟨hsame, hwipe⟩ fun w hw => ?_
  · have hin : (wf MEM.STATUS.WIPE_PENDING 1).In [19] := M.In.wf 19 _ _ (by decide) (by decide)
    refine .ofDoes (hin.does v) ⟨hsame.trans ((hin.run v).mono (by decide)), ?_⟩
    exact ((M.Fixes.wfApart (soundFields_apart _ (by decide) _ (by decide)) 1).run v).trans hwipe
  obtain ⟨hsw, hwipew⟩ := hw
  refine .afterIn (M.In.fresh (P := [42]) (by decide)) fun any w' hs _ => .read ?_
  have hsame : Same [19, 42, 60] u w' := (hsw.mono (by decide)).trans (hs.mono (by decide))
  have hboot : w'.bootSlot 0 any = some 0 := by
    have hslot : ∀ x ∈ [LCY.FW_STAT.SLOT_A 0, LCY.FW_STAT.SLOT_B 0], x.addr / 65536 ∉ [19, 42, 60] := by decide
    have h : ∀ x ∈ [LCY.FW_STAT.SLOT_A 0, LCY.FW_STAT.SLOT_B 0], w'.f x = s.f x := fun x hx =>
      (hsame.f (by decide) (hslot x hx)).trans (hu.slots x hx)
    exact bootSlot_A ((h _ (by decide)).trans hA) ((h _ (by decide)).trans hB) any
  simp only [hboot]
  refine .seq (wf_sets (sound_reals _ (by decide)) 0 w') fun _ x1 h1 => ?_
  have hfail1 : x1.hid.flg.chdFailed = [] := by
    rw [h1.2.1, hsame.hid (by decide) 46 (by decide), hu.flg, hfail]
  refine .bind (restoreChords_idle hfail1) ?_
  refine .seq (wf_sets (sound_reals _ (by decide)) _ x1) fun _ x2 h2 => ?_
  have hx2 : x2.sound = [0, b2n b.hostmode, 0, 1, 1, 0] := by
    obtain ⟨hactive, -, hf1, -⟩ := h1
    obtain ⟨hdiag, -, hf2, -⟩ := h2
    obtain ⟨hap1, hap2⟩ := sound_set
    have hword : u.f ⟨CHD.STATUS, 31, 0⟩ = 0 := by
      rw [State.f, hu.rest _ (by decide), hchd]
      rfl
    have h0 : ∀ x ∈ [SYS.STATUS.DEV_STATE, SYS.STATUS.HOSTMODE, ⟨CHD.STATUS, 31, 0⟩], x2.f x = u.f x := by
      intro x hx
      have hset : x ∈ [SYS.STATUS.DEV_STATE, SYS.STATUS.HOSTMODE, MEM.STATUS.WIPE_OK, SAF.STATUS.DIAG_OK, ⟨CHD.STATUS, 31, 0⟩] ∧
          x ∈ [SYS.STATUS.DEV_STATE, SYS.STATUS.HOSTMODE, LCY.FW_STAT.ACTIVE 0, MEM.STATUS.WIPE_OK, ⟨CHD.STATUS, 31, 0⟩] ∧
          x.addr / 65536 ∉ [19, 42, 60] := by revert x; decide
      exact (hf2 x (hap2 x hset.2.1)).trans <| (hf1 x (hap1 x hset.1)).trans (hsame.f (by decide) hset.2.2)
    simp only [State.sound, List.map_cons, List.map_nil, h0 _ (show SYS.STATUS.DEV_STATE ∈ _ by decide),
      h0 _ (show SYS.STATUS.HOSTMODE ∈ _ by decide), h0 _ (show (⟨CHD.STATUS, 31, 0⟩ : FldAt) ∈ _ by decide), hword, hu.mode, hdiag,
      hf2 _ (hap2 (LCY.FW_STAT.ACTIVE 0) (by decide)), hactive, hf2 _ (hap2 MEM.STATUS.WIPE_OK (by decide)),
      hf1 _ (hap1 MEM.STATUS.WIPE_OK (by decide)), (hs.f (by decide) (by decide) : w'.f MEM.STATUS.WIPE_OK = _), hwipew, hcd0]
    rw [show u.f SYS.STATUS.DEV_STATE = 0 from hu.dev.trans hdev]
    rfl
  refine .after (startMeter_sound _) fun _ x3 h3 => .after (.soundIn foot_showSpares (by decide) (by decide)) fun _ x4 h4 => ?_
  refine .after (.forM (fun b => .soundIn (foot_showBank b) (by decide) (by decide)) _) fun _ x5 h5 =>
    .after (.soundIn foot_restoreConv (by decide) (by decide)) fun _ x6 h6 => ?_
  refine .after (.soundIn foot_setAvail (by decide) (by decide)) fun _ x7 h7 => .after setCfgCrc_sound fun _ x8 h8 => .read ?_
  have hx8 : x8.sound = [0, b2n b.hostmode, 0, 1, 1, 0] := by rw [h8, h7, h6, h5, h4, h3, hx2]
  refine .ite_neg ?_ (.ofDoes (M.does_pure () x8) hx8)
  have hword : x8.f ⟨CHD.STATUS, 31, 0⟩ = 0 := congrArg (fun l : List Nat => l.getD 5 0) hx8
  simp [chd_of_word hword, hrec, hcd0]

/-! ## The end of the boot (R463, R464) -/

theorem standbyReached_unsettled {s : State} (hheld : s.hid.lcy.held = false) (hdev : s.dev = 0)
    (hpend : s.f MEM.STATUS.WIPE_PENDING = 0) (hset : s.f MEA.REF.INT_SETTLED = 0) :
    standbyReached.Ends s fun ok t => ok = false ∧ t.dev = 4 ∧ Counted 63 0 s t ∧ Keeps [] ledgerPages s t := by
  refine .read <| .ite_neg (by simp [hheld, hdev, hpend]) <| .ite_pos hset ?_
  refine .seq (Q := fun _ u => Counted 63 0 s u ∧ Keeps [] ledgerPages s u) (.ofDoes ((foot_occur 63 0 0).does s)
    ⟨occur_counted 63 0 0 s, ((foot_occur 63 0 0).run s).keeps ((occur_beyond 63 0 0).run s) (by decide) (by decide)⟩) fun _ u hu => ?_
  refine .seq ((setDev_sets (show 4 < 16 by decide) u).along ((M.Along.ofIn (foot_setDev 4) fun _ _ h => h).and
    (.ofFixes (setDev_beyond 4) fun _ _ h => h))) fun _ t ht => .ofDoes (M.does_pure false t) ?_
  obtain ⟨⟨hdev', -⟩, hsame, hbeyond⟩ := ht
  exact ⟨rfl, hdev', hu.1.then_shown (hsame.shown 63 (by decide) (by decide)),
    (hu.2.trans (hsame.keeps hbeyond (pages := ledgerPages) (by decide) (by decide))).mono (by simp) (by simp)⟩

theorem setDev_devPages (new : Nat) : (setDev new).Along (Keeps [] [0x00, 0x01, 0x14]) :=
  .keepsIn [] (foot_setDev new) (setDev_beyond new) (by decide) (by decide)

theorem setDev_autorun (new : Nat) : (setDev new).Fixes fun s => s.rd CMD.SEQ_AUTORUN := by
  have hsend : ¬ SendReg CMD.SEQ_AUTORUN := by
    rintro (h | h | h | ⟨i, h⟩ | ⟨i, h⟩)
    · exact absurd h (by decide)
    · exact absurd h (by decide)
    · exact absurd h (by decide)
    · simp only [CMD.SEQ_AUTORUN, CMD.TUNNEL_RX, arr] at h
      split at h <;> omega
    · have hp := BUS.TX_STAT_page i
      rw [← h] at hp
      exact absurd hp (by decide)
  exact .read fun _ => .when <| .bind (.wfRd _ (by decide)) fun _ => .read fun _ => (unsent_rd hsend).event ..

theorem slotField_addr (k i : Nat) : (slotField k i).addr = LCY.FW_STAT k := by
  unfold slotField
  split <;> rfl

/-- The slot of image `k` that runs is VALID, and its SVN counts. -/
def slotRuns (s : State) (k : Nat) : M Unit := do
  if k = 0 ∨ s.present 8 then
    let i := s.f (LCY.FW_STAT.ACTIVE k)
    wf (slotField k i) 2
    wf (LCY.FW_STAT.SVN_MIN k) (max (s.svn k i) (s.f (LCY.FW_STAT.SVN_MIN k)))

theorem slotRuns_keeps (s : State) (k : Fin 2) : (slotRuns s k).Along (Keeps [] [0x16]) := by
  have hpage : LCY.FW_STAT k / 65536 ∈ [0x16] := by revert k; decide
  exact (Keeps.ongoing _ _).when <| (Keeps.ongoing _ _).bind (.keepsPage [] _ (by rw [slotField_addr]; exact hpage)) fun _ =>
    .keepsPage [] _ hpage

theorem slotField_runs : ∀ i : Fin 2, (slotField 0 i).Real ∧ (slotField 0 i).Apart (LCY.FW_STAT.SVN_MIN 0) := by decide

theorem slotRuns_valid (s u : State) : (slotRuns s 0).Ends u fun _ t => t.f (slotField 0 (s.f (LCY.FW_STAT.ACTIVE 0))) = 2 := by
  obtain ⟨hreal, hapart⟩ := slotField_runs ⟨s.f (LCY.FW_STAT.ACTIVE 0), f_lt _ s⟩
  refine .ite_pos (.inl rfl) <| .seq (wf_sets hreal 2 u) fun _ v hv => .ofFixes (.wfApart hapart _) fun _ t ht => ht.trans (hv.1.trans ?_)
  simp only [slotField]
  split <;> rfl

theorem slotRuns_other (s : State) (i : Fin 2) : (slotRuns s 1).Fixes fun t => t.f (slotField 0 i) := by
  have hne : ∀ x : FldAt, x.addr = LCY.FW_STAT 1 → ∀ v, (wf x v).Fixes fun t => t.f (slotField 0 i) := fun x hx v =>
    .wfApart (.inl (by rw [slotField_addr, hx]; decide)) v
  exact .when <| .bind (hne _ (slotField_addr _ _) _) fun _ => hne _ rfl _

theorem startRotation_keeps : startRotation.Along (Keeps [] [0x04]) :=
  have k := Keeps.ongoing [] [0x04]
  .read fun _ => k.bind (.keepsHid _ _ _) fun _ => k.forM (fun b => k.when (.keepsPage [] _ (by
    rw [show (TRP.BANK_STAT.ROT_ACTIVE b).addr = TRP.BANK_STAT b from rfl, TRP.BANK_STAT_page]; decide))) _

theorem ROT_ACTIVE_fields : (∀ b : Fin 8, (TRP.BANK_STAT.ROT_ACTIVE b).Real) ∧
    ∀ b c : Fin 8, b ≠ c → (TRP.BANK_STAT.ROT_ACTIVE b).addr ≠ (TRP.BANK_STAT.ROT_ACTIVE c).addr := by decide

theorem startRotation_rotates (s : State) : startRotation.Ends s fun _ t =>
    ∀ b < 8, s.f (TRP.BANK_STAT.DEGRADED b) = 0 → t.f (TRP.BANK_STAT.ROT_ACTIVE b) = 1 := by
  obtain ⟨hreal, hinj⟩ := ROT_ACTIVE_fields
  refine .read <| .seq (Q := fun _ _ => True) (.ofDoes (M.does_hid _ s) trivial) fun _ u _ => ?_
  have hturn : ∀ b ∈ List.range 8, ∀ v : State,
      (if s.f (TRP.BANK_STAT.DEGRADED b) = 0 then wf (TRP.BANK_STAT.ROT_ACTIVE b) 1 else pure () : M Unit).Ends v fun _ w =>
        w.hid = v.hid ∧ (s.f (TRP.BANK_STAT.DEGRADED b) = 0 → w.f (TRP.BANK_STAT.ROT_ACTIVE b) = 1) ∧
          ∀ a, a ≠ TRP.BANK_STAT b → w.rd a = v.rd a := fun b hb v => by
    by_cases hc : s.f (TRP.BANK_STAT.DEGRADED b) = 0
    · obtain ⟨_, w, hd, hset, hhid, -, hrd⟩ := wf_sets (hreal ⟨b, List.mem_range.mp hb⟩) 1 v
      exact .ite_pos hc (.ofDoes hd ⟨hhid, fun _ => hset, hrd⟩)
    · exact .ite_neg hc (.ofDoes (M.does_pure () v) ⟨rfl, fun h => absurd h hc, fun _ _ => rfl⟩)
  obtain ⟨_, t, hd, -, hall, -⟩ := forM_each (addr := TRP.BANK_STAT)
    (Q := fun b t => s.f (TRP.BANK_STAT.DEGRADED b) = 0 → t.f (TRP.BANK_STAT.ROT_ACTIVE b) = 1)
    (fun b v t h hv hc => (f_of_rd_eq (TRP.BANK_STAT.ROT_ACTIVE b) h).trans (hv hc)) (List.range 8) u List.nodup_range hturn
    fun b hb c hc heq => by_contra fun hne =>
      hinj ⟨b, List.mem_range.mp hb⟩ ⟨c, List.mem_range.mp hc⟩ (fun h => hne (congrArg Fin.val h)) heq
  exact .ofDoes hd fun b hb => hall b (List.mem_range.mpr hb)

/-- Both images are told of the slots they run. -/
theorem slotRuns_both (s u : State) : ([0, 1].forM (slotRuns s)).Ends u fun _ t =>
    t.f (slotField 0 (s.f (LCY.FW_STAT.ACTIVE 0))) = 2 ∧ Keeps [] [0x16] u t := by
  refine .seq ((slotRuns_valid s u).along (slotRuns_keeps s 0)) fun _ v hv => .seq ((M.Ends.ofFixes (P := fun _ t => _)
    (slotRuns_other s ⟨s.f (LCY.FW_STAT.ACTIVE 0), f_lt _ s⟩) fun _ _ h => h).along (slotRuns_keeps s 1)) fun _ t ht => ?_
  exact .ofDoes (M.does_pure () t) ⟨ht.1.trans hv.1, (Keeps.ongoing _ _).trans hv.2 ht.2⟩

theorem standbyReached_standby {s : State} (hheld : s.hid.lcy.held = false) (hdev : s.dev = 0)
    (hpend : s.f MEM.STATUS.WIPE_PENDING = 0) (hset : s.f MEA.REF.INT_SETTLED = 1) (hfell : s.hid.lcy.fellBack = false) :
    standbyReached.Ends s fun _ t => t.f CMD.SEQ_AUTORUN.INDEX = s.f CMD.SEQ_AUTORUN.INDEX ∧
      t.dev = 1 ∧ t.f (slotField 0 (s.f (LCY.FW_STAT.ACTIVE 0))) = 2 ∧
      (∀ b < 8, s.f (TRP.BANK_STAT.DEGRADED b) = 0 → t.f (TRP.BANK_STAT.ROT_ACTIVE b) = 1) ∧
      Keeps [] [0x00, 0x01, 0x04, 0x14, 0x16] s t := by
  refine .read <| .ite_neg (by simp [hheld, hdev, hpend]) <| .ite_neg (by simp [hset]) ?_
  refine .seq (Q := fun _ u => Keeps [] [0x00] s u) (.ofAlong (.keepsPage [] _ (by decide)) fun _ _ h => h) fun _ u hu => ?_
  refine .seq (slotRuns_both s u) fun _ v hv => ?_
  refine .seq ((startRotation_rotates v).along startRotation_keeps) fun _ w hw => ?_
  refine .seq ((setDev_sets (show 1 < 16 by decide) w).along ((setDev_devPages 1).and (.ofFixes (setDev_autorun 1) fun _ _ h => h)))
    fun _ t ht => .ite_neg (by simp [hfell]) (.ofDoes (M.does_pure true t) ?_)
  obtain ⟨⟨hdev', -⟩, hkt, hauto⟩ := ht
  have hsw := (hu.trans hv.2).trans hw.2
  have hslot : (slotField 0 (s.f (LCY.FW_STAT.ACTIVE 0))).addr / 65536 = 22 := by rw [slotField_addr]; decide
  have hrot : ∀ b, (TRP.BANK_STAT.ROT_ACTIVE b).addr / 65536 = 4 := TRP.BANK_STAT_page
  have hdeg : ∀ b, (TRP.BANK_STAT.DEGRADED b).addr / 65536 = 4 := TRP.BANK_STAT_page
  refine ⟨?_, hdev', ?_, fun b hb hok => ?_, (hsw.trans hkt).mono (by simp) (by decide)⟩
  · exact f_of_rd_eq CMD.SEQ_AUTORUN.INDEX (hauto.trans (hsw.rd _ (by simp) (by decide)))
  · rw [hkt.f (by simp) (by rw [hslot]; decide), hw.2.f (by simp) (by rw [hslot]; decide), hv.1]
  · rw [hkt.f (x := TRP.BANK_STAT.ROT_ACTIVE b) (by simp) (by rw [hrot]; decide)]
    refine hw.1 b hb (((hu.trans hv.2).f (x := TRP.BANK_STAT.DEGRADED b) (by simp) ?_).trans hok)
    rw [hdeg]
    decide

/-! ## The statement -/

/-- Settles O29: RESET_RELEASE shows what a boot has set and leaves it to the end, and STANDBY_REACHED ends in STANDBY or SAFE. -/
theorem bootReachesStandby : Obligations.Boot_reaches_standby := by
  unfold Obligations.Boot_reaches_standby
  refine ⟨fun s b hwf hb hheld hsoon hok hdev => ?_, fun s b hsound hb hheld hsoon hok hdev hA hB hrep hfail hchd => ?_,
    fun s hheld hdev hpend hset hauto hfell => ?_, fun s hheld hdev hpend hset => ?_⟩
  · refine .of_checked rfl hwf ?_
    rw [resetRelease_run b hsoon]
    have hshown : ∀ {x : FldAt} {v : Nat}, x.BootShown → (∀ u, Released s b u → u.f x = v) → ((resetRelease b).run s).f x = v :=
      fun hx hv => by
        obtain ⟨u, hu, h⟩ := ((booted_f hx).kept hb hheld hok).run
        exact h.trans (hv u hu)
    refine ⟨?_, hshown (bootFields_shown _ (by decide)) fun _ hu => hu.cause, hshown (bootFields_shown _ (by decide)) fun _ hu => hu.state,
      hshown (bootFields_shown _ (by decide)) fun _ hu => hu.boots, fun n hn h8 => ?_, resetRelease_frame hb hheld hok⟩
    · obtain ⟨u, hu, h⟩ := (booted_held.kept hb hheld hok).run
      exact h.trans (congrArg LcySt.held hu.lcy)
    · exact beq_iff_eq.mpr (hshown (ISLAND_STATE_shown hn h8) fun _ hu => beq_iff_eq.mp (hu.islands n hn))
  · obtain ⟨hb1, hb2, hb3, hlost⟩ := hb
    have hb : b.resetN = true ∧ b.refOk = true ∧ b.testLow = true := ⟨hb1, hb2, hb3⟩
    refine .of_checked rfl (by rw [BootIn.wf, hsound.1]; rfl) ?_
    rw [resetRelease_run b hsoon]
    have hshow := (resetRelease_sound hsound hb hlost hheld hok hdev hA hB hrep hfail hchd).run
    simp only [State.sound, List.map_cons, List.map_nil, List.cons.injEq] at hshow
    obtain ⟨hdev', hmode, hactive, hwipe, hdiag, -⟩ := hshow
    exact ⟨hdev', hmode, hactive, hwipe, hdiag, resetRelease_frame hb hheld hok⟩
  · refine .of_ends rfl <| .seq (standbyReached_standby hheld hdev hpend hset hfell) fun ok t ht => ?_
    exact .ite (.read <| .ite_neg (by rw [ht.1]; omega) (.ofDoes (M.does_pure () t) ht.2)) (.ofDoes (M.does_pure () t) ht.2)
  · refine .of_ends rfl <| .seq (standbyReached_unsettled hheld hdev hpend hset) fun ok t ht => ?_
    exact .ite_neg (by simp [ht.1]) (.ofDoes (M.does_pure () t) ht.2)

end Sys2Proof.Machine
end

section
/-! Statement O28, refuted: a device reset with a reserved bit standing in LCY.STATE. -/

namespace Sys2Proof.Machine

/-- The block in FIELD, in whose LCY.STATE the reserved bit 16 stands, which no state reached from reset holds (O2). -/
def reservedLifecycle : State := { linkUp with regs := sput linkUp.regs LCY.STATE 0x20010000 }

/-- R52, R465: the reset carries the fields of LCY.STATE over by a store, which leaves no reserved bit in the parameter. -/
theorem deviceReset_dropsReserved :
    ((deviceReset 2 false).run reservedLifecycle).rd LCY.STATE = 0x20000000 ∧ reservedLifecycle.rd LCY.STATE = 0x20010000 := by
  decide +kernel

/-- Refutes O28: the clause of RESET_N_LOW has LCY.STATE read the same word before and after, in every state, so in one whose
word holds a reserved bit. What a device reset keeps it stores again (R465), and a store leaves such a bit 0 (R52). -/
theorem not_resetsBegin : ¬ Obligations.Resets_begin := by
  unfold Obligations.Resets_begin
  rintro ⟨hlow, -⟩
  obtain ⟨t, ht, -, hkept, -⟩ := hlow reservedLifecycle
  obtain ⟨hafter, hbefore⟩ := deviceReset_dropsReserved
  rw [exec_next_eq ht (m := deviceReset 2 false) rfl, hafter, hbefore] at hkept
  exact absurd hkept (by decide)

end Sys2Proof.Machine
end

section
/-! SUPPORT for O55: a host write of one word, whatever it is, and what its reply leaves. -/

namespace Sys2Proof.Machine

/-- What a reply leaves: parameters that sending does not count in, and what sending does not move of the networks' state. -/
structure Replied (s t : State) : Prop where
  sent : Sent s t
  rd : ∀ a, ¬ SendReg a → t.rd a = s.rd a
  bus : ∀ {β : Type} {φ : BusSt → β}, Queueless φ → φ t.hid.bus = φ s.hid.bus

theorem time_queueless : Queueless BusSt.time where
  tx _ _ _ := rfl
  out _ _ := rfl

theorem Replied.time {s t : State} (h : Replied s t) : t.hid.bus.time = s.hid.bus.time := h.bus time_queueless

theorem Queueless.sendReply {β : Type} {φ : BusSt → β} (h : Queueless φ) (p : Packet) (key : Option (List Byte)) (r : OutPkt) :
    (Machine.sendReply p key r).Fixes fun s => φ s.hid.bus :=
  .ite (.when (.busWf φ _ _)) <| .forM (fun _ => .bind (h.sendTo _ _) fun _ => .pure _) _

theorem sendReply_replied (p : Packet) (key : Option (List Byte)) (r : OutPkt) (s : State) : Replied s ((sendReply p key r).run s) :=
  ⟨sendReply_sent p key r s, fun _ ha => ((unsent_rd ha).sendReply p key r).run s, fun h => (h.sendReply p key r).run s⟩

theorem setLegacy_replied (r : BitVec 72) (s : State) : Replied s ((setLegacy r).run s) := ⟨setLegacy_sent r s, fun _ _ => rfl, fun _ => rfl⟩

/-- A parameter whose write alone takes no latch of the clock and goes to no shadow. -/
structure OneWord (r : RegSpec) (a : Nat) : Prop where
  spec : regAt a = some r
  page : a / 65536 < 256
  range : rangeBad (a / 65536) (a % 65536) 1 = none
  shadow : ∀ s : State, s.shadowTb a = none

theorem PlainWord.oneWord {r : RegSpec} {a : Nat} (h : PlainWord r a) : OneWord r a := ⟨h.spec, h.page, h.range, h.shadow⟩

section
variable {r : RegSpec} {a : Nat} (hp : OneWord r a) {x : Word}
include hp

theorem opWrite_word {c : Ctx} {s t : State} (h : s.writable c [(a, x)] = true) (hw : (writeWord c [a] a x).Does s () t) :
    (opWrite c (a / 65536) (leBytes 2 (a % 65536) ++ leBytes 2 1 ++ leBytes 4 x.toNat)).Does s {} t := by
  have hoff : leAt (leBytes 2 (a % 65536) ++ leBytes 2 1 ++ leBytes 4 x.toNat) 0 2 = a % 65536 := ofLe_leBytes 2 _ (by omega)
  have hn : leAt (leBytes 2 (a % 65536) ++ leBytes 2 1 ++ leBytes 4 x.toNat) 2 2 = 1 := rfl
  have hdrop : (leBytes 2 (a % 65536) ++ leBytes 2 1 ++ leBytes 4 x.toNat).drop 4 = leBytes 4 x.toNat := rfl
  have haddr : addrs (a / 65536) (a % 65536) 1 = [a] := congrArg (fun b => [b])
    (show a / 65536 * 65536 + a % 65536 + 4 * 0 = a by omega)
  unfold opWrite
  simp only [hoff, hn, hp.range, haddr, hdrop, wordsOf_leBytes]
  exact .ite_neg (by decide) (writeWords_one hp.spec (hp.shadow s) h hw)

/-- An accepted write: the host link's bookkeeping, the word's write, again bookkeeping, and the reply. -/
theorem hostWrite_word {v : Via} {s : State} (h : s.accepts v [(a, x)] = true) {W : Ctx → State → State}
    (hw : ∀ c u, Bookkept s u → (writeWord c [a] a x).Does u () (W c u))
    (hgo : ∀ c u, Bookkept s u → u.hid.cmd.go = none → (W c u).hid.cmd.go = none) :
    ∃ c u w, Bookkept s u ∧ Bookkept (W c u) w ∧ Replied w ((hostWrite v [(a, x)]).run s) := by
  cases v with
  | legacy =>
    simp only [State.accepts, Bool.and_eq_true] at h
    obtain ⟨⟨-, ho⟩, hok⟩ := h
    have hnone := hgo (legacyCtx true) s (.refl s) ((legacyOpen_iff s).mp ho).2.2.2.2.2.2
    have hframe := legacyFrame_writes (show a < 2 ^ 24 by have := hp.page; omega) ho
      (writeWords_one hp.spec (hp.shadow s) hok (hw _ s (.refl s))) (takeGo_none ((setLegacy_go _ _).trans hnone))
    have hd : (hostWrite .legacy [(a, x)]).Does s () ((legacyFrame (legacyWrite a x)).run s) :=
      M.Does.bind (show (legacyFrame (legacyWrite a x)).Does s () _ from (foot_legacyFrame _).does s) (M.does_pure () _)
    exact ⟨legacyCtx true, s, W (legacyCtx true) s, .refl s, .refl _, by rw [hd.run, hframe]; exact setLegacy_replied _ _⟩
  | packet src version flags seq session tag =>
    simp only [State.accepts, Bool.and_eq_true] at h
    obtain ⟨⟨hvia, hserves⟩, hok⟩ := h
    rw [show (hostWrite (.packet src version flags seq session tag) [(a, x)]).run s = (serve 0x11 _).run s from rfl]
    have hbody := bodyOf_writePacket (a := a) (x := x) hvia
    have hpage : (writePacket src version flags seq session tag [(a, x)]).page.toNat = a / 65536 := by
      show (BitVec.ofNat 8 (a / 65536)).toNat = a / 65536
      rw [BitVec.toNat_ofNat, Nat.mod_eq_of_lt hp.page]
    generalize writePacket src version flags seq session tag [(a, x)] = p at *
    have hbook := serving_bookkept s 0x11 p
    have hop : (opWrite (s.ctxOf 0x11 p) p.page.toNat (bodyOf p)).Does (s.serving 0x11 p) {}
        (W (s.ctxOf 0x11 p) (s.serving 0x11 p)) := by
      rw [hpage, hbody]
      exact opWrite_word hp hok (hw _ _ hbook)
    have hnone := hgo (s.ctxOf 0x11 p) (s.serving 0x11 p) hbook ((bare_go hbook.bare).trans (serves_go hserves))
    rw [serve_handled hserves (by decide) (handle_write rfl hop _ _) hnone (unlogged_okWith []) (by decide)]
    exact ⟨_, _, _, hbook, beforeReply_bookkept .., sendReply_replied ..⟩

end

end Sys2Proof.Machine
end

section
/-! Statement O55: network time and Ethernet (R452 to R458). -/

namespace Sys2Proof.Machine

/-! ## Network time set by the host (R452) -/

theorem TIME_HI_plain : ∃ r, PlainWord r BUS.TIME_HI ∧ r.name = .BUS_TIME_HI ∧
    ∀ v old : Word, storedWord r v old &&& implMask BUS.TIME_HI = v :=
  ⟨_, ⟨rfl, by decide, rfl, by decide, rfl, fun _ => rfl⟩, rfl, fun v old => whole_after v old⟩

theorem TIME_STAT_real : ∀ x ∈ [BUS.TIME_STAT.STEPS, BUS.TIME_STAT.LOSSES, BUS.TIME_STAT.SYNCED, BUS.TIME_STAT.RATE], x.Real := by
  decide

theorem TIME_STAT_apart : (∀ x ∈ [BUS.TIME_STAT.RATE, BUS.TIME_STAT.SYNCED], BUS.TIME_STAT.STEPS.Apart x) ∧
    BUS.TIME_STAT.LOSSES.Apart BUS.TIME_STAT.SYNCED := by decide

/-- Registers of the network page that sending does not count in. -/
theorem TIME_not_sendReg {a : Nat} (h : a < 0x140010) (h' : 0x140000 ≤ a) : ¬ SendReg a := by
  rintro (rfl | rfl | rfl | ⟨i, rfl⟩ | ⟨i, rfl⟩)
  · exact absurd h' (by decide)
  · exact absurd h' (by decide)
  · exact absurd h' (by decide)
  · simp only [CMD.TUNNEL_RX, arr] at h'
    split at h' <;> omega
  · simp only [BUS.TX_STAT, arr] at h
    split at h <;> omega

theorem netTimeSet_sets (s : State) : netTimeSet.Ends s fun _ t =>
    t.hid.bus.time.ns = (s.rd BUS.TIME_HI).toNat * 4294967296 + (s.rd BUS.TIME_LO).toNat ∧ t.hid.bus.time.slew = 0 ∧
      Bumped BUS.TIME_STAT.STEPS s t := by
  have hin : (inc BUS.TIME_STAT.STEPS).In [20] := M.In.inc 20 _ (by decide) (by decide)
  refine .read <| .seq (Q := fun _ u => u.hid.bus.time.ns = _ ∧ u.hid.bus.time.slew = 0 ∧ u.f BUS.TIME_STAT.STEPS = s.f BUS.TIME_STAT.STEPS)
    (.ofDoes (M.does_hid _ s) ⟨rfl, rfl, rfl⟩) fun _ u hu => .ofDoes (hin.does u) ⟨?_, ?_, ?_⟩
  · exact (congrArg (·.time.ns) ((hin.run u).hid (by decide) 47 (by decide))).trans hu.1
  · exact (congrArg (·.time.slew) ((hin.run u).hid (by decide) 47 (by decide))).trans hu.2.1
  · exact ((TIME_STAT_real _ (by decide)).bumped u).congr hu.2.2 rfl

theorem netTimeSet_keeps : netTimeSet.Along (Keeps [BUS.TIME_STAT] []) :=
  .read fun _ => (Keeps.ongoing _ _).bind (.keepsHid _ _ _) fun _ => .keepsInc _ (by decide)

theorem netTimeSet_go : netTimeSet.Fixes fun s => s.hid.cmd.go :=
  .read fun _ => .bind (.act fun _ => rfl) fun _ => .read fun _ => .when (wf_go _ _)

/-- NETWORK_TIME_SET (R452). -/
theorem networkTime_takes {s : State} {v : Via} {x : Word} (h : s.accepts v [(BUS.TIME_HI, x)] = true) :
    let t := (hostWrite v [(BUS.TIME_HI, x)]).run s
    t.hid.bus.time.ns = x.toNat * 4294967296 + (s.rd BUS.TIME_LO).toNat ∧ t.hid.bus.time.slew = 0 ∧
      Bumped BUS.TIME_STAT.STEPS s t ∧ Keeps [BUS.TIME_HI, BUS.TIME_STAT] [0x01, 0x14] s t := by
  obtain ⟨r, hp, hname, hstored⟩ := TIME_HI_plain
  obtain ⟨c, u, w, hbook, hbook', hreply⟩ := hostWrite_word hp.oneWord h (W := fun _ u => netTimeSet.run (stored r BUS.TIME_HI x u))
    (fun c u _ => writeWord_plain hp c _ (by
      refine .read ?_
      simp only [hname]
      exact netTimeSet_keeps.does _))
    fun _ u _ hgo => (netTimeSet_go.run _).trans (by rw [stored_hid, hgo])
  obtain ⟨hns, hslew, hsteps⟩ := (netTimeSet_sets (stored r BUS.TIME_HI x u)).run
  have htime : ((hostWrite v [(BUS.TIME_HI, x)]).run s).hid.bus.time = (netTimeSet.run (stored r BUS.TIME_HI x u)).hid.bus.time :=
    hreply.time.trans (congrArg BusSt.time (hbook'.same.hid (by decide) 47 (by decide)))
  have hbefore : ∀ a, a / 65536 = 20 → a ≠ BUS.TIME_HI → (stored r BUS.TIME_HI x u).rd a = s.rd a := fun a ha hne =>
    (rd_apply_reg_other _ _ _ u hne).trans (hbook.same.rd (by decide) a (by rw [ha]; decide))
  have hafter : ((hostWrite v [(BUS.TIME_HI, x)]).run s).rd BUS.TIME_STAT = (netTimeSet.run (stored r BUS.TIME_HI x u)).rd BUS.TIME_STAT :=
    (hreply.rd _ (TIME_not_sendReg (by decide) (by decide))).trans (hbook'.same.rd (by decide) _ (by decide))
  refine ⟨?_, (congrArg _ htime).trans hslew, hsteps.congr (f_of_rd_eq _ (hbefore _ (by decide) (by decide))) (f_of_rd_eq _ hafter), ?_⟩
  · rw [htime, hns, hp.stored_rd, hstored, hbefore _ (by decide) (by decide)]
  · exact ((((hbook.sent.keeps.trans (stored_keeps r _ x u)).trans (netTimeSet_keeps.run _)).trans hbook'.sent.keeps).trans
      hreply.sent.keeps).mono (by simp) (by simp [eventPages])

/-! ## The master's reference messages (R453) -/

theorem txInsert_length (t : TxFrame) : ∀ l : List TxFrame, (txInsert t l).length = l.length + 1
  | [] => rfl
  | u :: l => by
    rw [txInsert]
    split
    · rfl
    · simp [txInsert_length t l]

/-- A queue with room takes a frame. -/
theorem canEnqueue_takes {s : State} (n : Nat) (t : TxFrame) (h : (s.can n).tx.length < 32) :
    (canEnqueue n t).Ends s fun _ u => (u.can n).tx.length = (s.can n).tx.length + 1 ∧ u.hid.bus.time = s.hid.bus.time ∧
      Keeps [BUS.TX_STAT n] [] s u := by
  refine .bind (m := hidden) (a := s.hid) (u := s) (fun _ => rfl) <| .ite_pos h <| .seq (Q := fun _ u =>
    (u.can n).tx = txInsert t (s.can n).tx ∧ u.hid.bus.time = s.hid.bus.time ∧ Keeps [BUS.TX_STAT n] [] s u)
    (.seq (Q := fun _ u => (u.can n).tx = txInsert t (s.can n).tx ∧ u.hid.bus.time = s.hid.bus.time ∧ Keeps [] [] s u)
      (.ofDoes (M.does_hid _ s) ⟨?_, rfl, fun _ _ _ => rfl, rfl, rfl, rfl, rfl⟩) fun _ v hv => ?_)
    fun _ u hu => .ofDoes (M.does_pure _ u) ⟨(congrArg List.length hu.1).trans (txInsert_length ..), hu.2⟩
  · exact congrArg CanSt.tx (mget_mupd_same {} s.hid.bus.can n fun c => { c with tx := txInsert t (s.can n).tx })
  · obtain ⟨_, u, hd, hu⟩ := (M.Ends.ofDoes (P := fun _ u => u.hid = v.hid) (M.does_wf (BUS.TX_STAT.QUEUED n)
      (txInsert t (s.can n).tx).length v) (apply_reg_hid ..)).along (.keepsWf (as := [BUS.TX_STAT n]) [] _ (List.mem_singleton.mpr rfl))
    refine .ofDoes hd ⟨?_, ?_, (hv.2.2.trans hu.2).mono (by simp) (by simp)⟩
    · rw [State.can, hu.1, ← hv.1, State.can]
    · rw [hu.1, hv.2.1]

/-- REFERENCE_MESSAGE_SEND (R453). -/
theorem sendReference_sends {s : State} (hcfg : s.f BUS.TIME_CFG.EN = 1 ∧ s.f BUS.TIME_CFG.ROLE = 1) (hdue : s.refDue = true)
    (hroom : (s.can (s.f BUS.TIME_CFG.CTRL)).tx.length < 32) :
    sendReference.Ends s fun _ t => t.hid.bus.time.refSeq = (s.hid.bus.time.refSeq + 1) % 256 ∧
       t.hid.bus.time.prevTime = none ∧ t.hid.bus.time.refAt = some s.hid.now ∧
       (t.can (s.f BUS.TIME_CFG.CTRL)).tx.length = (s.can (s.f BUS.TIME_CFG.CTRL)).tx.length + 1 ∧
       Keeps [BUS.TX_STAT (s.f BUS.TIME_CFG.CTRL)] [] s t := by
  refine .read <| .ite_pos ⟨hcfg.1, hcfg.2, hdue⟩ <| .seq (Q := fun _ u => (u.hid.bus.time.refSeq = (s.hid.bus.time.refSeq + 1) % 256 ∧
    u.hid.bus.time.prevTime = none ∧ u.hid.bus.time.refAt = some s.hid.now) ∧ u.hid.bus.can = s.hid.bus.can ∧ Keeps [] [] s u)
    (.ofDoes (M.does_hid _ s) ⟨⟨rfl, rfl, rfl⟩, rfl, fun _ _ _ => rfl, rfl, rfl, rfl, rfl⟩) fun _ u hu => ?_
  obtain ⟨⟨hseq, hprev, hat⟩, hcan, hk⟩ := hu
  have hsame : u.can (s.f BUS.TIME_CFG.CTRL) = s.can (s.f BUS.TIME_CFG.CTRL) := by
    rw [State.can, State.can, hcan]
  refine .seq (canEnqueue_takes _ _ (by rwa [hsame])) fun _ t ht => .ofDoes (M.does_pure () t) ?_
  obtain ⟨htx, htime, hkt⟩ := ht
  rw [hsame] at htx
  exact ⟨htime ▸ hseq, htime ▸ hprev, htime ▸ hat, htx, (hk.trans hkt).mono (by simp) (by simp)⟩

/-! ## Following the reference (R454) -/

theorem setSynced_keeps (on : Bool) : (setSynced on).Along (Keeps [BUS.TIME_STAT] eventPages) := by
  have k := Keeps.ongoing [BUS.TIME_STAT] eventPages
  exact .read fun _ => k.when <| k.bind (.keepsWf _ _ (by decide)) fun _ => eventDev_keeps _ _ _

/-- SYNCED is set; the counters of its word stay, and so does the time's record. -/
theorem setSynced_sets (on : Bool) (s : State) : (setSynced on).Ends s fun _ t => t.f BUS.TIME_STAT.SYNCED = b2n on ∧
    t.f BUS.TIME_STAT.STEPS = s.f BUS.TIME_STAT.STEPS ∧ t.f BUS.TIME_STAT.LOSSES = s.f BUS.TIME_STAT.LOSSES ∧
      t.hid.bus.time = s.hid.bus.time := by
  have hev : ∀ body, (eventDev 0x803B body).Fixes fun s => (s.rd BUS.TIME_STAT, s.hid.bus.time) := fun body =>
    .prod ((unsent_rd (TIME_not_sendReg (by decide) (by decide))).event ..) (time_queueless.event ..)
  refine .bind (M.does_rf _ s) ?_
  by_cases hne : b2n on ≠ s.f BUS.TIME_STAT.SYNCED
  · refine .ite_pos hne <| .seq (wf_sets (TIME_STAT_real _ (by decide)) (b2n on) s) fun _ u hu => .ofFixes (hev _) fun _ t ht => ?_
    obtain ⟨hword, htime⟩ := Prod.ext_iff.mp ht
    obtain ⟨hset, hhid, hf, -⟩ := hu
    refine ⟨(f_of_rd_eq _ hword).trans (hset.trans ?_), (f_of_rd_eq _ hword).trans (hf _ (TIME_STAT_apart.1 _ (by decide))),
      (f_of_rd_eq _ hword).trans (hf _ TIME_STAT_apart.2), htime.trans (by rw [hhid])⟩
    cases on <;> rfl
  · exact .ite_neg hne <| .ofDoes (M.does_pure () s) ⟨(not_not.mp hne).symm, rfl, rfl, rfl⟩

theorem settleTime_keeps (as ps : List Nat) : settleTime.Along (Keeps as ps) := .read fun _ => .keepsHid _ _ _

theorem takeReference_keeps (seq : Nat) (valid : Bool) (prev time : Nat) :
    (takeReference seq valid prev time).Along (Keeps [BUS.TIME_STAT] eventPages) := by
  have k := Keeps.ongoing [BUS.TIME_STAT] eventPages
  have hwf : ∀ v, (wf BUS.TIME_STAT.RATE v).Along (Keeps [BUS.TIME_STAT] eventPages) := fun v => .keepsWf _ v (by decide)
  refine .read fun s => k.when ?_
  dsimp only
  split
  · exact .ite (k.bind (settleTime_keeps _ _) fun _ => .ite
      (k.bind (.keepsHid _ _ _) fun _ => k.bind (.keepsInc _ (by decide)) fun _ => k.bind (.keepsHid _ _ _) fun _ => .keepsHid _ _ _)
      (k.bind (hwf _) fun _ => k.bind (.keepsHid _ _ _) fun _ => .read fun _ => k.thenMore (setSynced_keeps true) fun _ =>
        k.bind (.keepsHid _ _ _) fun _ => .keepsHid _ _ _)) (.keepsHid _ _ _)
  · exact .keepsHid _ _ _

/-- The last reference message of a follower. -/
def State.lastRef (s : State) : Option (Nat × Nat) := s.hid.bus.time.last

theorem wf_lastRef (x : FldAt) (v : Nat) : (wf x v).Fixes State.lastRef := .busWf (fun b => b.time.last) x v

theorem settleTime_lastRef : settleTime.Fixes State.lastRef := .read fun _ => .act fun _ => rfl

theorem settleTime_steps : settleTime.Fixes fun s => s.f BUS.TIME_STAT.STEPS := .read fun _ => .act fun _ => rfl

/-- The network time steps by `o`. -/
theorem timeStep_fixes (o : Int) : (hid fun h => { h with bus := { h.bus with time := { h.bus.time with
    ns := (((h.bus.time.ns : Int) + o) % 2 ^ 64).toNat, slew := 0, good := 0 } } }).Fixes fun s =>
      (s.lastRef, s.f BUS.TIME_STAT.STEPS) := .act fun _ => rfl

/-- The network time is slewed by `o`. -/
theorem timeSlewed_fixes (o : Int) : (hid fun h => { h with bus := { h.bus with time := { h.bus.time with
    slew := o, slewAt := h.now, good := h.bus.time.good + 1 } } }).Fixes State.lastRef := .act fun _ => rfl

/-- The message is the last usable one. -/
theorem timeUsed_fixes : (hid fun h => { h with bus := { h.bus with time := { h.bus.time with usedAt := h.now } } }).Fixes fun s =>
      (s.lastRef, s.f BUS.TIME_STAT.STEPS) := .act fun _ => rfl

theorem setSynced_lastRef (on : Bool) : (setSynced on).Fixes State.lastRef :=
  .read fun _ => .when <| .bind (wf_lastRef _ _) fun _ => (time_queueless.event ..).comp fun x => x.last

/-- What a follower has taken of a message. -/
structure Followed (seq : Nat) (valid : Bool) (prev time : Nat) (s t : State) : Prop where
  last : t.hid.bus.time.last = some (seq, time)
  before : t.hid.bus.time.before = s.lastRef.map Prod.snd
  steps : ∀ x ∈ s.lastRef.toList, valid = true → seq = (x.1 + 1) % 256 → s.f BUS.TIME_CFG.STEP_US * 1000
    < (diff48 prev x.2).natAbs → Bumped BUS.TIME_STAT.STEPS s t

/-- REFERENCE_MESSAGE (R454). -/
theorem takeReference_follows (seq : Nat) (valid : Bool) (prev time : Nat) {s : State}
    (hcfg : s.f BUS.TIME_CFG.EN = 1 ∧ s.f BUS.TIME_CFG.ROLE = 2) :
    (takeReference seq valid prev time).Ends s fun _ t => Followed seq valid prev time s t := by
  have hlast : ∀ u : State, u.lastRef = s.lastRef →
      (∀ x ∈ s.lastRef.toList, valid = true → seq = (x.1 + 1) % 256 → s.f BUS.TIME_CFG.STEP_US * 1000
        < (diff48 prev x.2).natAbs → Bumped BUS.TIME_STAT.STEPS s u) →
      (hid fun h => { h with bus := { h.bus with time := { h.bus.time with
        last := some (seq, time), before := h.bus.time.last.map Prod.snd } } } : M Unit).Ends u
        fun _ t => Followed seq valid prev time s t := fun u hu hb =>
    .ofDoes (M.does_hid _ u) ⟨rfl, congrArg (Option.map Prod.snd) hu, hb⟩
  refine .read <| .ite_pos hcfg ?_
  cases hs : s.hid.bus.time.last with
  | none =>
    simp only [hs]
    exact hlast s rfl fun x hx => by simp [State.lastRef, hs] at hx
  | some y =>
    obtain ⟨q, l⟩ := y
    have hy : ∀ x ∈ s.lastRef.toList, x = (q, l) := fun x hx => by simpa [State.lastRef, hs] using hx
    simp only [hs]
    by_cases hc : valid = true ∧ seq = (q + 1) % 256
    · refine .ite_pos hc <| .after (.prod settleTime_lastRef settleTime_steps) fun _ u hu => ?_
      obtain ⟨hu1, hu2⟩ := Prod.ext_iff.mp hu
      by_cases hstep : s.f BUS.TIME_CFG.STEP_US * 1000 < (diff48 prev l).natAbs
      · refine .ite_pos hstep <| .after (timeStep_fixes (diff48 prev l)) fun _ v hv => ?_
        obtain ⟨hv1, hv2⟩ := Prod.ext_iff.mp hv
        have hinc : (inc BUS.TIME_STAT.STEPS).In [20] := M.In.inc 20 _ (by decide) (by decide)
        refine .seq (Q := fun _ w => w.lastRef = v.lastRef ∧ Bumped BUS.TIME_STAT.STEPS v w) (.ofDoes (hinc.does v)
          ⟨congrArg (·.time.last) ((hinc.run v).hid (by decide) 47 (by decide)), (TIME_STAT_real _ (by decide)).bumped v⟩) fun _ w hw => ?_
        refine .after timeUsed_fixes fun _ w' hw' => ?_
        obtain ⟨hw1, hw2⟩ := Prod.ext_iff.mp hw'
        exact hlast w' (hw1.trans (hw.1.trans (hv1.trans hu1))) fun _ _ _ _ _ => hw.2.congr (hv2.trans hu2) hw2
      · have hno : ∀ (P : Prop), ∀ x ∈ s.lastRef.toList, valid = true → seq = (x.1 + 1) % 256 →
            s.f BUS.TIME_CFG.STEP_US * 1000 < (diff48 prev x.2).natAbs → P := fun P x hx _ _ h => absurd (by rwa [hy x hx] at h) hstep
        refine .ite_neg hstep <| .after (wf_lastRef _ _) fun _ v hv => .after (timeSlewed_fixes (diff48 prev l)) fun _ w hw => .read ?_
        refine M.Ends.thenMore (Q := fun z => z.lastRef = w.lastRef) (.ofFixes (setSynced_lastRef true) fun _ z hz => hz) rfl
          fun z hz => .after timeUsed_fixes fun _ y hy => ?_
        exact hlast y ((Prod.ext_iff.mp hy).1.trans (hz.trans (hw.trans (hv.trans hu1)))) (hno _)
    · exact .ite_neg hc <| hlast s rfl fun x hx hv hq _ => absurd ⟨hv, by rwa [hy x hx] at hq⟩ hc

/-! ## The loss of the reference (R454) -/

/-- The reaction to an occurrence leaves the words of the network page that sending does not count in. -/
theorem reactive_networkWord {a : Nat} (hp : a / 65536 = 20) (hs : ¬ SendReg a) : Reactive fun s t => t.rd a = s.rd a where
  ongoing := ⟨fun _ => rfl, fun h h' => h'.trans h⟩
  places _ _ h := h.rd (by decide) a (by rw [hp]; decide)
  event _ _ _ _ _ := .ofFixes ((unsent_rd hs).event ..) fun _ _ h => h
  attn := .ofFixes (unsent_rd hs).setAttn fun _ _ h => h

/-- BUS_TIME_LOSS (R454). -/
theorem busTimeLoss_loses {s : State} (hcfg : s.f BUS.TIME_CFG.EN = 1 ∧ s.f BUS.TIME_CFG.ROLE = 2 ∧ s.f BUS.TIME_STAT.SYNCED = 1)
    (hdue : s.hid.bus.time.usedAt + 3000 * s.f BUS.TIME_CFG.PERIOD ≤ s.hid.now) :
    busTimeLoss.Ends s fun _ t => t.f BUS.TIME_STAT.SYNCED = 0 ∧ Bumped BUS.TIME_STAT.LOSSES s t ∧ Counted 205 0 s t ∧
       Keeps [BUS.TIME_STAT] ledgerPages s t := by
  have hinc : (inc BUS.TIME_STAT.LOSSES).In [20] := M.In.inc 20 _ (by decide) (by decide)
  refine .read <| .ite_pos ⟨hcfg.1, hcfg.2.1, hcfg.2.2, hdue⟩ <| .seq (Q := fun _ u => u.f BUS.TIME_STAT.LOSSES = s.f BUS.TIME_STAT.LOSSES ∧
    u.occurShown 205 = s.occurShown 205 ∧ Keeps [] [] s u) (.ofDoes (M.does_hid _ s) ⟨rfl, rfl, fun _ _ _ => rfl, rfl, rfl, rfl, rfl⟩)
    fun _ u hu => ?_
  refine .seq (Q := fun _ v => Bumped BUS.TIME_STAT.LOSSES u v ∧ v.occurShown 205 = u.occurShown 205 ∧ Keeps [BUS.TIME_STAT] [] u v)
    ?_ fun _ v hv => ?_
  · obtain ⟨_, v, hd, hk⟩ := M.Along.keepsInc (x := BUS.TIME_STAT.LOSSES) (as := [BUS.TIME_STAT]) [] (by decide) u
    refine .ofDoes hd ?_
    rw [← hd.run]
    exact ⟨(TIME_STAT_real _ (by decide)).bumped u, (hinc.run u).shown 205 (by decide) (by decide), hd.run ▸ hk⟩
  have hword := (reactive_networkWord (a := BUS.TIME_STAT) (by decide) (TIME_not_sendReg (by decide) (by decide))).occur 205 0 BUS.TIME_STAT
  refine .seq (Q := fun _ w => w.rd BUS.TIME_STAT = v.rd BUS.TIME_STAT ∧ Counted 205 0 v w ∧ Keeps [] ledgerPages v w)
    (.ofDoes ((foot_occur 205 0 BUS.TIME_STAT).does v) ⟨hword.run v, occur_counted 205 0 BUS.TIME_STAT v,
      ((foot_occur 205 0 BUS.TIME_STAT).run v).keeps ((occur_beyond ..).run v) (by decide) (by decide)⟩) fun _ w hw => ?_
  obtain ⟨_, t, hd, ⟨hsync, -, hloss, -⟩, hk⟩ := (setSynced_sets false w).along (setSynced_keeps false)
  refine .ofDoes hd ⟨hsync, hv.1.congr hu.1 (hloss.trans (f_of_rd_eq _ hw.1)), ?_, ?_⟩
  · have hshown : t.occurShown 205 = w.occurShown 205 := by
      have hrd := hk.rd (FLG.OCCUR 205) (by decide) (by decide)
      exact Prod.ext (f_of_rd_eq (FLG.OCCUR.OCCURRENCES 205) hrd) (f_of_rd_eq (FLG.OCCUR.LAST_INSTANCE 205) hrd)
    exact ((hw.2.1.of_shown hv.2.1).of_shown hu.2.1).then_shown hshown
  · exact ((((hu.2.2.trans hv.2.2).trans hw.2.2).trans hk)).mono (by simp) (by decide)

/-! ## Ethernet (R455 to R457) -/

theorem NET_STAT_real (p : Fin 2) : ∀ x ∈ [NET.STAT.LINK p, NET.STAT.LINK_LOSSES p, NET.STAT.PLCA_OK p, NET.STAT.BAD_FRAME p],
    x.Real := by revert p; decide

theorem NET_STAT_apart (p : Fin 2) : (NET.STAT.LINK p).Apart (NET.STAT.LINK_LOSSES p) ∧
    (NET.STAT.LINK_LOSSES p).Apart (NET.STAT.LINK p) := by revert p; decide

/-- A frame that CD2 and the interface take at once. -/
theorem ethReceived_taken {p : Fin 2} {f : EthFrame} {s : State} {P : State → Prop} (ha : s.awake = true) (hp : s.present 9 = true)
    (hen : s.f (NET.IF_CFG.EN p) = 1) (hreads : s.ethWaits f = false) (h : (ethTaken p f).Ends s fun _ t => P t) :
    (ethReceived p f).Ends s fun _ t => P t := .read <| .ite_pos ⟨ha, hp, hen⟩ <| .ite_neg (by simp [hreads]) h

/-- A reply to an ARP request of the interface. -/
theorem ethTaken_arpReply (p : Fin 2) {srcMac dstMac srcIp : Nat} {s : State} (hown : dstMac = s.macOf p) :
    (ethTaken p ⟨srcMac, dstMac, srcIp, .arpReply⟩).Ends s fun _ t =>
      t.arpOf p srcIp = some ⟨p, srcIp, srcMac, s.hid.now⟩ ∧ Keeps [] [] s t := by
  refine .seq (Q := fun a t => a = none ∧ t.arpOf p srcIp = some ⟨p, srcIp, srcMac, s.hid.now⟩ ∧ Keeps [] [] s t) ?_ fun a t ht => ?_
  · refine .read <| .ite_pos (by simp [hown]) <| .seq (Q := fun _ t => t.arpOf p srcIp = some ⟨p, srcIp, srcMac, s.hid.now⟩ ∧ Keeps [] [] s t)
      (.ofDoes (M.does_hid _ s) ⟨?_, fun _ _ _ => rfl, rfl, rfl, rfl, rfl⟩) fun _ t ht => .ofDoes (M.does_pure none t) ⟨rfl, ht⟩
    simp [State.arpOf, Act.apply]
  · rw [ht.1]
    exact .ofDoes (M.does_pure () t) ht.2

/-- A frame of no kind that the block knows. -/
theorem ethTaken_other (p : Fin 2) (srcMac dstMac srcIp : Nat) (s : State) :
    (ethTaken p ⟨srcMac, dstMac, srcIp, .other⟩).Ends s fun _ t =>
      Bumped (NET.STAT.BAD_FRAME p) s t ∧ t.hid.bus.arp = s.hid.bus.arp ∧ Keeps [NET.STAT p] [] s t := by
  have hin : (inc (NET.STAT.BAD_FRAME p)).In [21] := M.In.inc 21 _ (by revert p; decide) (by decide)
  refine .seq (Q := fun a t => a = none ∧ Bumped (NET.STAT.BAD_FRAME p) s t ∧ t.hid.bus.arp = s.hid.bus.arp ∧ Keeps [NET.STAT p] [] s t)
    ?_ fun a t ht => by rw [ht.1]; exact .ofDoes (M.does_pure () t) ht.2
  obtain ⟨_, u, hd, hk⟩ := M.Along.keepsInc (x := NET.STAT.BAD_FRAME p) (as := [NET.STAT p]) [] (List.mem_singleton.mpr rfl) s
  refine .read <| .bind hd <| .ofDoes (M.does_pure none u) ⟨rfl, ?_, ?_, hk⟩
  · rw [← hd.run]
    exact (NET_STAT_real p _ (by simp)).bumped s
  · rw [← hd.run]
    exact congrArg BusSt.arp ((hin.run s).hid (by decide) 47 (by decide))

/-- What a change of a link shows. -/
structure LinkShown (p : Fin 2) (level : Bool) (s t : State) : Prop where
  shown : t.f (NET.STAT.LINK p) = b2n level
  lost : level = false → Bumped (NET.STAT.LINK_LOSSES p) s t ∧ Counted (210 + p) 0 s t
  keeps : Keeps [NET.STAT p] ledgerPages s t

/-- The event that follows leaves what is shown. -/
theorem LinkShown.told {p : Fin 2} {level : Bool} {s u : State} (h : LinkShown p level s u) (op : Nat) (body : List Byte) :
    (eventDev op body).Ends u fun _ t => LinkShown p level s t := by
  have hpage : NET.STAT p / 65536 = 21 := NET.STAT_page p
  obtain ⟨_, t, hd, hs, hk⟩ := (M.Along.ofIn (foot_eventDev op body) fun _ _ h => h).and (eventDev_keeps [] op body) u
  have hf : ∀ x : FldAt, x.addr = NET.STAT p → t.f x = u.f x := fun x hx => hs.f (by decide) (by rw [hx, hpage]; decide)
  refine .ofDoes hd ⟨(hf _ rfl).trans h.shown, fun hl => ?_, (h.keeps.trans hk).mono (by simp) (by decide)⟩
  exact ⟨(h.lost hl).1.congr rfl (hf _ rfl), (h.lost hl).2.then_shown (hs.shown _ (by decide) (by decide))⟩

theorem netLink_shows (p : Fin 2) (level : Bool) {s : State} (hne : b2n level ≠ s.f (NET.STAT.LINK p)) :
    (netLink p level).Ends s fun _ t => LinkShown p level s t := by
  have hpage : NET.STAT p / 65536 = 21 := NET.STAT_page p
  have hinc : (inc (NET.STAT.LINK_LOSSES p)).In [21] := M.In.inc 21 _ hpage (by decide)
  have hwf : (wf (NET.STAT.LINK p) (b2n level)).In [21] := M.In.wf 21 _ _ hpage (by decide)
  refine .bind (M.does_rf _ s) <| .ite_pos hne <| .seq (Q := fun _ u => u.f (NET.STAT.LINK p) = b2n level ∧
    u.f (NET.STAT.LINK_LOSSES p) = s.f (NET.STAT.LINK_LOSSES p) ∧ u.occurShown (210 + p) = s.occurShown (210 + p) ∧
    Keeps [NET.STAT p] [] s u) ?_ fun _ u hu => ?_
  · obtain ⟨_, u, hd, ⟨⟨hset, -, hf, -⟩, hs⟩, hk⟩ := ((wf_sets (NET_STAT_real p (NET.STAT.LINK p) (by simp)) (b2n level) s).along
      (.ofIn hwf fun _ _ h => h)).along (M.Along.keepsWf (as := [NET.STAT p]) [] (b2n level) (List.mem_singleton.mpr rfl))
    exact .ofDoes hd ⟨hset.trans (by cases level <;> rfl), hf _ (NET_STAT_apart p).2, hs.shown _ (by decide) (by decide), hk⟩
  obtain ⟨hset, hcount, hshown, hk⟩ := hu
  cases level with
  | true =>
    exact .ite_neg (by decide) <| LinkShown.told ⟨hset, fun h => absurd h (by decide), hk.mono (by simp) (by simp)⟩ _ _
  | false =>
    refine .ite_pos rfl <| .seq (Q := fun _ v => v.f (NET.STAT.LINK p) = 0 ∧ Bumped (NET.STAT.LINK_LOSSES p) u v ∧
      v.occurShown (210 + p) = u.occurShown (210 + p) ∧ Keeps [NET.STAT p] [] u v) ?_ fun _ v hv => ?_
    · obtain ⟨_, v, hd, hkv⟩ := M.Along.keepsInc (x := NET.STAT.LINK_LOSSES p) (as := [NET.STAT p]) [] (List.mem_singleton.mpr rfl) u
      refine .ofDoes hd ?_
      rw [← hd.run] at hkv ⊢
      exact ⟨((M.Fixes.incApart (NET_STAT_apart p).1).run u).trans hset, (NET_STAT_real p _ (by simp)).bumped u,
        (hinc.run u).shown _ (by decide) (by decide), hkv⟩
    · obtain ⟨hlink, hbump, hshown', hkv⟩ := hv
      have hsame := (foot_occur (210 + p) 0 (NET.STAT p)).run v
      have hf : ∀ x : FldAt, x.addr = NET.STAT p → ((occur (210 + p) 0 (NET.STAT p)).run v).f x = v.f x := fun x hx =>
        hsame.f (by decide) (by rw [hx, hpage]; decide)
      refine .seq (Q := fun _ w => LinkShown p false s w) (.ofDoes ((foot_occur (210 + p) 0 (NET.STAT p)).does v) ?_)
        fun _ w hw => hw.told _ _
      refine ⟨(hf _ rfl).trans hlink, fun _ => ⟨hbump.congr hcount (hf _ rfl), ?_⟩, ?_⟩
      · exact ((occur_counted ⟨210 + p, by omega⟩ 0 (NET.STAT p) v).of_shown hshown').of_shown hshown
      · exact ((hk.trans hkv).trans (hsame.keeps ((occur_beyond ..).run v) (pages := ledgerPages) (by decide) (by decide))).mono
          (by simp) (by simp)

/-- NET_PLCA (R455). -/
theorem netPlca_shows (ok : Bool) {s : State} (hen : s.f (NET.IF_CFG.PLCA_EN 1) = 1) :
    (netPlca ok).Ends s fun _ t => t.f (NET.STAT.PLCA_OK 1) = b2n ok ∧
      (s.f (NET.STAT.PLCA_OK 1) = 1 → ok = false → Counted 212 0 s t) ∧ Keeps [NET.STAT 1] ledgerPages s t := by
  by_cases hne : b2n ok ≠ s.f (NET.STAT.PLCA_OK 1)
  · have hwf : (wf (NET.STAT.PLCA_OK 1) (b2n ok)).In [21] := M.In.wf 21 _ _ (by decide) (by decide)
    refine .read <| .ite_pos ⟨hen, hne⟩ <| .seq (((wf_sets (NET_STAT_real 1 (NET.STAT.PLCA_OK 1) (by decide)) (b2n ok) s).along
      (.ofIn hwf fun _ _ h => h)).along (M.Along.keepsWf (as := [NET.STAT 1]) [] (b2n ok) (by decide))) fun _ u hu => ?_
    obtain ⟨⟨⟨hset, -⟩, hs⟩, hk⟩ := hu
    have hset : u.f (NET.STAT.PLCA_OK 1) = b2n ok := hset.trans (by cases ok <;> rfl)
    cases ok with
    | true => exact .ite_neg (by decide) <| .ofDoes (M.does_pure () u) ⟨hset, fun _ h => absurd h (by decide), hk.mono (by simp) (by simp)⟩
    | false =>
      have hsame := (foot_occur 212 0 (NET.STAT 1)).run u
      exact .ite_pos rfl <| .ofDoes ((foot_occur 212 0 (NET.STAT 1)).does u) ⟨(hsame.f (by decide) (by decide)).trans hset,
        fun _ _ => (occur_counted 212 0 (NET.STAT 1) u).of_shown (hs.shown 212 (by decide) (by decide)),
        (hk.trans (hsame.keeps ((occur_beyond ..).run u) (pages := ledgerPages) (by decide) (by decide))).mono (by simp) (by simp)⟩
  · have heq := (not_not.mp hne).symm
    exact .read <| .ite_neg (fun h => hne h.2) <| .ofDoes (M.does_pure () s) ⟨heq, fun h hok => by
      rw [heq, hok] at h
      exact absurd h (by decide), (Keeps.ongoing _ _).refl s⟩

/-- ARP_AGE (R456). -/
theorem arpAge_drops (p : Fin 2) (ip : Nat) (s : State) : (arpAge p ip).Ends s fun _ t =>
    (∀ x, x ∈ t.hid.bus.arp ↔ x ∈ s.hid.bus.arp ∧ ¬(x.phy = p ∧ x.ip = ip ∧ x.at_ + 60000000 ≤ s.hid.now)) ∧ Keeps [] [] s t := by
  refine .ofDoes (M.does_hid _ s) ⟨fun x => ?_, fun _ _ _ => rfl, rfl, rfl, rfl, rfl⟩
  refine List.mem_filter.trans (and_congr_right fun _ => ?_)
  simp only [Bool.not_eq_true', Bool.and_eq_false_iff, beq_eq_false_iff_ne, decide_eq_false_iff_not, ne_eq, not_and_or, or_assoc]

/-- ARP_RETRY (R457). -/
theorem arpRetry_asks {s : State} (hcfg : s.f CMD.EVENT_CFG.ROUTE_UDP = 1 ∧ s.f (NET.IF_CFG.EN (s.f NET.EVT_PORT.IF)) = 1)
    (hnone : s.arpOf (s.f NET.EVT_PORT.IF) (s.f NET.EVT_DEST.IP) = none)
    (hdue : (s.hid.bus.arpAt.all fun x => decide (x + 1000000 ≤ s.hid.now)) = true) :
    arpRetry.Ends s fun _ t => t.hid.bus.arpAt = some s.hid.now ∧
       t.hid.bus.out = s.hid.bus.out ++ [⟨s.f NET.EVT_PORT.IF, 0xFFFFFFFFFFFF, s.f NET.EVT_DEST.IP, 0, 0, [], 1⟩] ∧
       Keeps [] [] s t :=
  .read <| .ite_pos ⟨hcfg.1, hcfg.2, by rw [hnone]; rfl, hdue⟩ <| .seq (Q := fun _ u => u.hid.bus.arpAt = some s.hid.now ∧
    u.hid.bus.out = s.hid.bus.out ∧ Keeps [] [] s u) (.ofDoes (M.does_hid _ s) ⟨rfl, rfl, fun _ _ _ => rfl, rfl, rfl, rfl, rfl⟩)
    fun _ u hu => .ofDoes (M.does_hid _ u) ⟨hu.1, congrArg (· ++ _) hu.2.1, hu.2.2.rd, hu.2.2.tabs, hu.2.2.vio, hu.2.2.chg, hu.2.2.pending⟩

/-! ## An interface is enabled (R458) -/

theorem IF_CFG_word (p : Fin 2) : ∃ r, OneWord r (NET.IF_CFG p) ∧ r.name = .NET_IF_CFG ∧
    ∀ v old : Word, storedWord r v old &&& implMask (NET.IF_CFG p) = v &&& 0xFF000000#32 := by
  have hword : ∀ v old : Word, (v &&& 0xFF000000#32 ||| old &&& ~~~0xFF000000#32) &&& ~~~(v &&& 0#32) &&& 0xFF000000#32 =
      v &&& 0xFF000000#32 := fun v old => after_whole v old 0xFF000000#32
  match p with
  | 0 => exact ⟨_, ⟨rfl, by decide, rfl, fun _ => rfl⟩, rfl, hword⟩
  | 1 => exact ⟨_, ⟨rfl, by decide, rfl, fun _ => rfl⟩, rfl, hword⟩

/-- What an entry of the change log leaves: every parameter but SAF.CHANGE, and the state that is no parameter. -/
structure ChangeLogged (s t : State) : Prop where
  rd : ∀ a, a ≠ SAF.CHANGE → t.rd a = s.rd a
  tabs : t.tabs = s.tabs
  vio : t.que.vio = s.que.vio
  pending : t.pending = s.pending
  hid : t.hid = s.hid

theorem ChangeLogged.ongoing : Ongoing ChangeLogged where
  refl _ := ⟨fun _ _ => rfl, rfl, rfl, rfl, rfl⟩
  trans h h' := ⟨fun a ha => (h'.rd a ha).trans (h.rd a ha), h'.tabs.trans h.tabs, h'.vio.trans h.vio, h'.pending.trans h.pending,
    h'.hid.trans h.hid⟩

theorem change_logged (kind addr old new session transport : Nat) : (change kind addr old new session transport).Along ChangeLogged := by
  have hwf : ∀ x : FldAt, x.addr = SAF.CHANGE → ∀ v, (wf x v).Along ChangeLogged := fun x hx v s => by
    obtain ⟨_, t, hd, hhid, hk⟩ := (M.Ends.ofDoes (P := fun _ t => t.hid = s.hid) (M.does_wf x v s) (apply_reg_hid ..)).along
      (M.Along.keepsWf (as := [SAF.CHANGE]) [] v (List.mem_singleton.mpr hx))
    exact .ofDoes hd ⟨fun a ha => hk.rd a (by simpa using ha) List.not_mem_nil, hk.tabs, hk.vio, hk.pending, hhid⟩
  exact .read fun _ => ChangeLogged.ongoing.thenMore (.read fun _ => ChangeLogged.ongoing.when (hwf _ rfl _)) fun _ =>
    ChangeLogged.ongoing.bind (.act fun _ => ⟨fun _ _ => rfl, rfl, rfl, rfl, rfl⟩) fun _ => hwf _ rfl _

/-- The write of an interface's word stores it and logs the change. -/
theorem writeWord_ifCfg (c : Ctx) (p : Fin 2) (x : Word) (s : State) : (writeWord c [NET.IF_CFG p] (NET.IF_CFG p) x).Ends s fun _ t =>
    t.rd (NET.IF_CFG p) = x &&& 0xFF000000#32 ∧ t.hid = s.hid ∧ KeepsConfig [NET.IF_CFG p] [] s t := by
  obtain ⟨r, hp, hname, hstored⟩ := IF_CFG_word p
  have hne : NET.IF_CFG p ≠ SAF.CHANGE := fun hc => by
    have := NET.IF_CFG_page p
    rw [hc] at this
    exact absurd this (by decide)
  unfold writeWord
  simp only [hp.spec]
  refine .ite_neg (by rw [hname]; decide) <| .bind (M.does_rd _ s) <| .bind (M.does_wr _ _ s) ?_
  have hk := stored_keeps r (NET.IF_CFG p) x s
  have hset : (stored r (NET.IF_CFG p) x s).rd (NET.IF_CFG p) = x &&& 0xFF000000#32 := by
    rw [← hstored x (s.rd (NET.IF_CFG p))]
    exact rd_apply_reg_same _ _ _ (by simp [hp.spec])
  change M.Ends _ (stored r (NET.IF_CFG p) x s) _
  have hhid := stored_hid r (NET.IF_CFG p) x s
  generalize stored r (NET.IF_CFG p) x s = u at *
  have hend : ∀ t, ChangeLogged u t → t.rd (NET.IF_CFG p) = x &&& 0xFF000000#32 ∧ t.hid = s.hid ∧
      KeepsConfig [NET.IF_CFG p] [] s t := fun t ht =>
    ⟨(ht.rd _ hne).trans hset, ht.hid.trans hhid, fun a ha _ => (ht.rd a fun h => ha (by simp [h])).trans
      (hk.rd a (fun h => ha (List.mem_cons_of_mem _ h)) List.not_mem_nil), ht.tabs.trans hk.tabs, ht.vio.trans hk.vio,
      ht.pending.trans hk.pending⟩
  have heffect : (writeEffect [NET.IF_CFG p] r (NET.IF_CFG p) x (s.rd (NET.IF_CFG p))).Does u () u := by
    refine .read ?_
    simp only [hname]
    exact M.does_pure () u
  have hpage : ¬ NET.IF_CFG p / 65536 = 0x10 := by rw [NET.IF_CFG_page]; decide
  refine .bind heffect <| .bind (M.does_rd _ u) <| .ite (.ite_neg hpage ?_) (.ofDoes (M.does_pure () u) (hend u (ChangeLogged.ongoing.refl u)))
  exact .ofAlong (change_logged _ _ _ _ _ _) fun _ t ht => hend t ht

/-- INTERFACE_ENABLE (R458). -/
theorem interfaceEnable_stores {s : State} {v : Via} (p : Fin 2) {x : Word} (h : s.accepts v [(NET.IF_CFG p, x)] = true) :
    let t := (hostWrite v [(NET.IF_CFG p, x)]).run s
    t.rd (NET.IF_CFG p) = x &&& 0xFF000000#32 ∧ KeepsConfig [NET.IF_CFG p] [0x01, 0x14] s t := by
  obtain ⟨r, hp, -⟩ := IF_CFG_word p
  have hends := fun c u => (writeWord_ifCfg c p x u)
  obtain ⟨c, u, w, hbook, hbook', hreply⟩ := hostWrite_word hp h (W := fun c u => (writeWord c [NET.IF_CFG p] (NET.IF_CFG p) x).run u)
    (fun c u _ => by
      obtain ⟨_, t, hd, -⟩ := hends c u
      rw [hd.run]
      exact hd)
    fun c u _ hgo => (congrArg (·.cmd.go) (hends c u).run.2.1).trans hgo
  obtain ⟨hset, -, hk⟩ := (hends c u).run
  have hlast := hbook'.sent.keeps.trans hreply.sent.keeps
  have hfirst := hbook.sent.keeps
  have hpage : NET.IF_CFG p / 65536 ∉ eventPages ++ eventPages := by rw [NET.IF_CFG_page]; decide
  refine ⟨(hlast.rd _ (by simp) hpage).trans hset, fun a ha hn => ?_, hlast.tabs.trans (hk.tabs.trans hfirst.tabs),
    hlast.vio.trans (hk.vio.trans hfirst.vio), hlast.pending.trans (hk.pending.trans hfirst.pending)⟩
  have hn' : a / 65536 ∉ eventPages := hn
  exact (hlast.rd a (by simp) (by simpa using hn')).trans <| (hk.rd a ha List.not_mem_nil).trans (hfirst.rd a List.not_mem_nil hn')

/-! ## The statement -/

theorem bitsOf_highByte (x : Word) {hi lo : Nat} (hhi : hi < 32) (hlo : 24 ≤ lo) :
    bitsOf (x &&& 0xFF000000#32) hi lo = bitsOf x hi lo := by
  have hmask : ∀ j < 32, 24 ≤ j → Nat.testBit 0xFF000000 j = true := by decide
  apply Nat.eq_of_testBit_eq
  intro i
  simp only [bitsOf, Nat.testBit_mod_two_pow, Nat.testBit_div_two_pow, BitVec.toNat_and, Nat.testBit_and]
  by_cases hin : i < hi + 1 - lo
  · rw [show (0xFF000000#32).toNat = 0xFF000000 from rfl, hmask (i + lo) (by omega) (by omega), Bool.and_true]
  · simp [hin]

/-- Settles O55: what a message, a frame or a link changes of the network's state, word by word; a reply or an event moves transmit
queues and the host link alone. -/
theorem networkTimeAndEthernet : Obligations.Network_time_and_ethernet := by
  unfold Obligations.Network_time_and_ethernet
  refine ⟨fun s v x h => .of_checked rfl (via_wf_of_accepts h) (networkTime_takes h), fun s ha hp hcfg hdue hroom => ?_,
    fun s seq valid prev time ha hp hreads hcfg => ?_, fun s ha hp hcfg hdue => ?_,
    fun s p srcMac dstMac srcIp hwf ha hp hen hreads hown => ?_, fun s p srcMac dstMac srcIp hwf ha hp hen hreads => ?_,
    fun s p level ha hp => ?_, fun s ok ha hp hen => ?_, fun s p ip hip ha hp => ?_, fun s ha hp hcfg hnone hdue => ?_,
    fun s v p x h => ?_⟩
  · exact .of_ends rfl ((sendReference_sends hcfg hdue hroom).onIsland ha hp)
  · obtain ⟨_, t, hd, hf, hk⟩ := (takeReference_follows seq.toNat valid prev.toNat time hcfg).along (takeReference_keeps _ _ _ _)
    exact .of_ends rfl (M.Ends.onIsland ha hp <| .read <| .ite_pos hreads <| .ofDoes hd ⟨hf.last, hf.before, hf.steps, hk⟩)
  · exact .of_ends rfl ((busTimeLoss_loses hcfg hdue).onIsland ha hp)
  · exact .of_checked rfl hwf (ethReceived_taken ha hp hen (by simp [State.ethWaits, hreads]) (ethTaken_arpReply p hown)).run
  · exact .of_checked rfl hwf (ethReceived_taken ha hp hen (by simp [State.ethWaits, hreads]) (ethTaken_other ..)).run
  · by_cases hne : b2n level ≠ s.f (NET.STAT.LINK p)
    · obtain ⟨_, t, hd, hset, hlost, hk⟩ := netLink_shows p level hne
      exact .of_ends rfl (M.Ends.onIsland ha hp <| .ofDoes hd ⟨hset, fun _ => hlost, fun h => absurd h.symm hne, hk⟩)
    · have heq := (not_not.mp hne).symm
      refine .of_ends rfl (M.Ends.onIsland ha hp <| .bind (M.does_rf _ s) <| .ite_neg hne <| .ofDoes (M.does_pure () s)
        ⟨heq, fun h hl => ?_, fun _ => rfl, (Keeps.ongoing _ _).refl s⟩)
      rw [heq, hl] at h
      exact absurd h (by decide)
  · exact .of_ends rfl ((netPlca_shows ok hen).onIsland ha hp)
  · exact .of_checked rfl (by simpa using hip) ((arpAge_drops p ip s).onIsland ha hp).run
  · exact .of_ends rfl ((arpRetry_asks hcfg hnone hdue).onIsland ha hp)
  · obtain ⟨hset, hk⟩ := interfaceEnable_stores p h
    have hbits := fun hi lo => bitsOf_highByte x (hi := hi) (lo := lo)
    exact .of_checked rfl (via_wf_of_accepts h) ⟨(congrArg (bitsOf · 31 31) hset).trans (hbits 31 31 (by decide) (by decide)),
      (congrArg (bitsOf · 30 30) hset).trans (hbits 30 30 (by decide) (by decide)),
      (congrArg (bitsOf · 28 24) hset).trans (hbits 28 24 (by decide) (by decide)), hk⟩

end Sys2Proof.Machine
end

section
/-! SUPPORT. Relations that hold along every request, where they hold along the write of one word, along each request of its own and
along what is sent: along the executor and every way into it. -/

namespace Sys2Proof.Machine

/-- What the executor reaches beside a request's own effect and what is sent. -/
abbrev executorPlaces : List Nat := [0, 1, 3, 11, 15, 42, 43, 59]

/-- A relation that holds along the executor's own bookkeeping and along the write of one word. -/
structure Writing (ρ : State → State → Prop) : Prop where
  ongoing : Ongoing ρ
  own : ∀ s t, Same executorPlaces s t → ρ s t
  writeWord : ∀ c all a v, (Machine.writeWord c all a v).Along ρ

/-- A relation that holds besides along every request, along the reset of an island and along what is sent. -/
structure Executing (ρ : State → State → Prop) : Prop extends Writing ρ where
  handle : ∀ c p body staged svcLow, (Machine.handle c p body staged svcLow).Along ρ
  resetIsland : ∀ n, (Machine.resetIsland n).Along ρ
  resetSoon : (hid fun h => { h with lcy := { h.lcy with resetSoon := true } }).Along ρ
  logViolation : ∀ c a, (Machine.logViolation c a).Along ρ
  sendReply : ∀ p key r, (Machine.sendReply p key r).Along ρ
  readWords : ∀ c as, (Machine.readWords c as).Along ρ
  endRun : ∀ by_ a, (Machine.endRun by_ a).Along ρ

variable {ρ : State → State → Prop}

namespace Writing

variable (h : Writing ρ)
include h

theorem within {α : Type} {P : List Nat} {m : M α} (hm : m.In P) (hp : ∀ x ∈ P, x ∈ executorPlaces) : m.Along ρ :=
  .ofIn (hm.mono hp) h.own

theorem link {x : FldAt} (v : Nat) (hx : x.addr / 65536 = 1) : (wf x v).Along ρ :=
  h.within (M.In.wf (P := [1]) 1 x v hx (by decide)) (by decide)

theorem count {x : FldAt} (hx : x.addr / 65536 = 1) : (inc x).Along ρ := h.within (M.In.inc (P := [1]) 1 x hx (by decide)) (by decide)

theorem execBusy (v : Nat) : (wf CMD.STATUS.EXEC_BUSY v).Along ρ := h.link v (by decide)

theorem hidCmd (g : Hidden → CmdSt) : (hid fun x => { x with cmd := g x }).Along ρ :=
  h.within (M.In.hid_cmd (P := [43]) g (by decide)) (by decide)

theorem countAbsent (a : Nat) : (Machine.countAbsent a).Along ρ := h.within (foot_countAbsent a) (by decide)

theorem countRefusal (x : Nat × Nat) : (Machine.countRefusal x).Along ρ := h.within (foot_countRefusal x) (by decide)

theorem writeWords (c : Ctx) (ws : List (Nat × Word)) : (Machine.writeWords c ws).Along ρ := by
  have k := h.ongoing
  have hwords : ∀ (here : List (Nat × Word)) (s : State), (do
      meetStrobe (here.filterMap fun x : Nat × Word => s.shadowTb x.1)
      here.forM fun x => Machine.writeWord c (here.map Prod.fst) x.1 x.2
      match ws.drop here.length with
      | [] => return ({} : Ans)
      | (a, _) :: _ =>
        Machine.countAbsent a
        return { status := stPartial, reason := 0x010B, detail := a }).Along ρ := fun here s => by
    refine k.bind (h.within (foot_meetStrobe _) (by decide)) fun _ => k.bind (k.forM (fun x => h.writeWord _ _ _ _) _) fun _ => ?_
    split
    · exact k.pure _
    · exact k.bind (h.countAbsent _) fun _ => k.pure _
  refine .read fun s => ?_
  split
  · exact k.pure _
  · dsimp only
    split
    · exact k.bind (h.countAbsent _) fun _ => k.pure _
    · split
      · exact k.bind (h.countRefusal _) fun _ => k.pure _
      · split
        · exact k.pure _
        · exact hwords _ s

theorem modifyWord (c : Ctx) (a : Nat) (mask value : Word) : (Machine.modifyWord c a mask value).Along ρ := .read fun _ => by
  have k := h.ongoing
  split
  · exact k.pure _
  · exact k.bind (h.writeWords c _) fun _ => k.pure _

theorem opWrite (c : Ctx) (page : Nat) (body : List Byte) : (Machine.opWrite c page body).Along ρ := by
  refine .ite (h.ongoing.pure _) ?_
  split
  · exact h.ongoing.pure _
  · exact h.writeWords c _

theorem opModify (c : Ctx) (page : Nat) (body : List Byte) : (Machine.opModify c page body).Along ρ := by
  refine .ite (h.ongoing.pure _) ?_
  split
  · exact h.ongoing.pure _
  · exact h.modifyWord c _ _ _

theorem opSetpoint (c : Ctx) (body : List Byte) : (Machine.opSetpoint c body).Along ρ := by
  have k := h.ongoing
  refine .read fun s => .ite (k.pure _) ?_
  split
  · exact k.pure _
  · dsimp only
    split
    · exact k.pure _
    · split
      · exact k.bind (h.countRefusal _) fun _ => k.pure _
      · split
        · exact k.bind (h.countAbsent _) fun _ => k.pure _
        · exact k.bind (k.forM (fun _ => h.writeWord _ _ _ _) _) fun _ => k.bind (h.count (by decide)) fun _ =>
            k.bind (h.within (M.In.fresh (P := [42]) (by decide)) (by decide)) fun _ => k.bind (h.link _ (by decide)) fun _ =>
            k.pure _

theorem addDue (kind unit : Nat) (p : Packet) (byRun : Bool) : (Machine.addDue kind unit p byRun).Along ρ :=
  h.within (foot_addDue kind unit p byRun) (by decide)

end Writing

namespace Executing

variable (h : Executing ρ)
include h

theorem afterReply (op : Nat) (p : Packet) (a : Ans) : (Machine.afterReply op p a).Along ρ :=
  h.ongoing.when (h.resetIsland _)

theorem putSeg (c : Ctx) (g : Option Seg) : (Machine.putSeg c g).Along ρ := h.within (foot_putSeg c g) (by decide)

theorem execute (c : Ctx) (p : Packet) (svcLow : Option Bool) : (Machine.execute c p svcLow).Along ρ := .read fun s => by
  have k := h.ongoing
  dsimp only
  split
  · exact k.thenMore (h.putSeg _ _) fun _ => k.pure _
  · refine k.bind (h.within (foot_clearLost c) (by decide)) fun _ => ?_
    split
    · exact k.bind (h.putSeg _ _) fun _ => k.pure _
    · split
      · exact k.bind (h.putSeg _ _) fun _ => k.pure _
      · exact k.bind (h.handle _ _ _ _ _) fun _ => k.bind (h.putSeg _ _) fun _ => k.pure _

theorem runSteps (auth session : Nat) (by_ : Option Packet) :
    ∀ (i : Nat) (l : List Req), (Machine.runSteps auth session by_ i l).Along ρ
  | _, [] => h.ongoing.bind (h.hidCmd _) fun _ => h.ongoing.pure _
  | i, r :: rest => by
    have k := h.ongoing
    unfold Machine.runSteps
    refine k.bind (h.hidCmd _) fun _ => k.bind (h.execute _ _ _) fun _ => k.bind (h.logViolation _ _) fun _ =>
      k.bind (h.afterReply _ _ _) fun _ => .read fun _ => .ite (runSteps auth session by_ _ rest) <|
      .ite (k.bind (h.hidCmd _) fun _ => k.pure _) (k.bind (h.hidCmd _) fun _ => k.pure _)

theorem opSequenceRun (c : Ctx) (p : Packet) (body : List Byte) : (Machine.opSequenceRun c p body).Along ρ := .read fun s => by
  have k := h.ongoing
  refine .ite (k.pure _) ?_
  split
  · exact k.pure _
  · refine k.bind (h.runSteps _ _ _ _ _) fun a => ?_
    cases a with
    | some a => exact k.pure _
    | none => exact k.bind (h.addDue _ _ p false) fun _ => k.pure _

theorem resumeRun : Machine.resumeRun.Along ρ := .read fun s => by
  have k := h.ongoing
  have hbusy : (do wf CMD.STATUS.EXEC_BUSY (b2n (← getS).hid.cmd.run.isSome)).Along ρ := .read fun _ => h.execBusy _
  split
  · refine k.bind (h.hidCmd _) fun _ => .ite (k.bind (h.runSteps _ _ _ _ _) fun a => ?_) ?_
    · cases a with
      | some a => exact k.bind (h.endRun _ a) fun _ => hbusy
      | none => exact hbusy
    · exact k.bind (h.hidCmd _) fun _ => k.bind (h.endRun _ _) fun _ => hbusy
  · exact k.pure _

theorem autorun : Machine.autorun.Along ρ := .read fun s => by
  have k := h.ongoing
  refine k.when <| k.bind (h.runSteps _ _ _ _ _) fun a => ?_
  cases a with
  | some a => exact h.endRun _ a
  | none => exact h.execBusy 1

theorem executeTop (c : Ctx) (p : Packet) (svcLow : Option Bool) : (Machine.executeTop c p svcLow).Along ρ := .read fun s => by
  have k := h.ongoing
  refine .ite ?_ (h.execute c p svcLow)
  split
  · exact k.bind (h.putSeg _ _) fun _ => k.pure _
  · split
    · exact k.pure _
    · exact h.opSequenceRun c p _

theorem updSession (id : Nat) (f : Session → Session) : (Machine.updSession id f).Along ρ :=
  h.within (foot_updSession id f) (by decide)

theorem process (op : Nat) (p : Packet) (svcLow : Option Bool) : (Machine.process op p svcLow).Along ρ := .read fun s => by
  have k := h.ongoing
  exact k.thenMore (h.execBusy 1) fun _ => k.bind (h.executeTop _ _ _) fun _ => k.bind (h.logViolation _ _) fun _ =>
    k.thenMore (h.updSession _ _) fun _ => .read fun _ => k.bind (h.execBusy _) fun _ =>
    k.bind (h.sendReply _ _ _) fun _ => h.afterReply _ _ _

theorem drain : Machine.drain.Along ρ := h.ongoing.forM (fun _ => .read fun s => h.ongoing.when <| by
  split
  · exact h.ongoing.pure _
  · exact h.ongoing.bind (h.hidCmd _) fun _ => h.process _ _ _) _

theorem settleExecutor : Machine.settleExecutor.Along ρ :=
  h.ongoing.bind h.resumeRun fun _ => .read fun _ => h.ongoing.when h.drain

theorem replyEarly (op : Nat) (p : Packet) (a : Ans) : (Machine.replyEarly op p a).Along ρ :=
  .read fun _ => h.sendReply _ _ _

theorem passOn (op : Nat) (p : Packet) (svcLow : Option Bool) : (Machine.passOn op p svcLow).Along ρ := .read fun s => by
  have k := h.ongoing
  have hnew : (do
      if 16 ≤ s.hid.cmd.waiting.length + s.hid.cmd.tunnelWait.length then Machine.replyEarly op p (refuse 0x010A 0)
      else if op ≠ 0x40 ∧ !s.present (12 + s.executorChord) then
        absentReply (12 + s.executorChord)
        Machine.replyEarly op p (absentAt (SYS.ISLAND (12 + s.executorChord)))
      else if op ≠ 0x40 ∧ s.executorHeld then
        hid fun h => { h with cmd := { h.cmd with waiting := h.cmd.waiting ++ [(⟨op, p⟩ : Req)] } }
      else Machine.process op p svcLow).Along ρ :=
    .ite (h.replyEarly _ _ _) <| .ite (k.bind (h.within (foot_absentReply _) (by decide)) fun _ => h.replyEarly _ _ _) <|
      .ite (h.hidCmd _) (h.process _ _ _)
  refine .ite (k.bind (h.logViolation _ _) fun _ => h.replyEarly _ _ _) <| .ite
    (k.bind (h.count (by decide)) fun _ => k.bind (h.logViolation _ _) fun _ => h.replyEarly _ _ _) <|
    k.thenMore (h.updSession _ _) fun _ => ?_
  dsimp only
  cases (s.openSession p).bind fun x => x.kept.find? fun k => k.seq == p.seq.toNat && k.crc == packetCrc op p with
  | some x => exact k.bind (h.count (by decide)) fun _ => h.sendReply _ _ _
  | none => exact hnew

theorem shipRespond (op : Nat) (p : Packet) : (Machine.shipRespond op p).Along ρ := by
  have k := h.ongoing
  exact .read fun _ => k.bind (h.logViolation _ _) fun _ => .ite
    (k.bind (h.within (foot_setBsw true) (by decide)) fun _ => k.bind h.resetSoon fun _ =>
      h.sendReply _ _ _) (h.sendReply _ _ _)

theorem receive (op : Nat) (p : Packet) (svcLow : Option Bool) : (Machine.receive op p svcLow).Along ρ := .read fun s => by
  split
  · exact h.replyEarly _ _ _
  · exact .ite (h.shipRespond op p) (h.passOn op p svcLow)

theorem receiveBytes (src : Source) (b : List Byte) : (Machine.receiveBytes src b).Along ρ := by
  have k := h.ongoing
  have hlost : (if src = .tunnel then wf CMD.TUNNEL_CTL.BUSY 0 else pure ()).Along ρ := k.when (h.link _ (by decide))
  have hcount : ∀ x : FldAt, x.addr = CMD.RX_ERR → ∀ {m : M Unit}, m.Along ρ → (inc x >>= fun _ => m).Along ρ :=
    fun x hx _ hm => k.bind (h.count (by rw [hx]; decide)) fun _ => hm
  exact .read fun _ => k.when <| .ite (hcount _ rfl hlost) <| .ite (hcount _ rfl (h.replyEarly _ _ _)) <|
    .ite (hcount _ rfl hlost) <| .ite (h.replyEarly _ _ _) <| .ite (hcount _ rfl (h.replyEarly _ _ _)) <|
    h.receive _ _ none

theorem takeGo : Machine.takeGo.Along ρ := .read fun s => by
  split
  · exact h.ongoing.bind (h.hidCmd _) fun _ => h.receiveBytes _ _
  · exact h.ongoing.pure _

theorem serve (op : Nat) (p : Packet) (svcLow : Option Bool) : (Machine.serve op p svcLow).Along ρ := by
  have k := h.ongoing
  exact .read fun _ => k.when <| .ite (k.bind (h.receive op p svcLow) fun _ => h.takeGo) <| k.when <|
    k.bind (h.count (by decide)) fun _ => h.replyEarly _ _ _

theorem legacyAccess (write : Bool) (a : Nat) (w : Word) : (Machine.legacyAccess write a w).Along ρ := by
  have k := h.ongoing
  have hlog : ∀ x : Ans × List Word, (do
      Machine.logViolation ⟨if write then 0x11 else 0x10, authOperator, 0, 0x02, 0⟩ x.1
      return (x.1, x.2.headD 0)).Along ρ := fun x => k.bind (h.logViolation _ _) fun _ => k.pure _
  exact .read fun _ => .ite (k.pure _) <| .ite (k.bind (k.bind (h.writeWords _ _) fun _ => k.pure _) hlog) <|
    k.bind (h.readWords _ _) hlog

theorem legacyFrame (frame : BitVec 72) : (Machine.legacyFrame frame).Along ρ := by
  have k := h.ongoing
  have hlast : ∀ (r : BitVec 72), (do
      hid fun h => { h with cmd := { h.cmd with legacy := r } }
      Machine.takeGo).Along ρ := fun r => k.bind (h.hidCmd _) fun _ => h.takeGo
  have hshow : ∀ (a : Nat) (x : Ans) (w : Word), (do
      if x.status ≠ stOk then
        wf CMD.LEGACY_ERR.REASON x.reason
        wf CMD.LEGACY_ADDR.ADDRESS a
      hid fun h => { h with cmd := { h.cmd with legacy := (legacyResult
        (0x80 + (if x.status = stRefused then 0x40 else 0) + (if x.status = stFailed then 0x20 else 0)) a w) } }
      Machine.takeGo).Along ρ := fun a x w => .ite
    (k.bind (h.link _ (by decide)) fun _ => k.bind (h.link _ (by decide)) fun _ => hlast _) (hlast _)
  exact .read fun _ => k.when <| .ite (k.bind (h.count (by decide)) fun _ => h.hidCmd _) <| .ite
    (k.bind (k.pure _) fun x => hshow _ x.1 x.2) (k.bind (h.legacyAccess _ _ _) fun x => hshow _ x.1 x.2)

theorem hostWrite (v : Via) (ws : List (Nat × Word)) : (Machine.hostWrite v ws).Along ρ := by
  cases v with
  | packet src version flags seq session tag => exact h.serve _ _ _
  | legacy => exact h.ongoing.forM (fun _ => h.legacyFrame _) ws

end Executing

end Sys2Proof.Machine
end

section
/-! SUPPORT for O4 and O14. What a command or a millisecond keeps: the time, and a life cycle that is RETIRED with no transition
under way. -/

namespace Sys2Proof.Machine

/-- The life cycle is RETIRED and no transition runs (R468). -/
def State.retired (s : State) : Prop := s.lcState = 4 ∧ s.hid.lcy.trans = none

/-- The time stands, and a life cycle that is retired stays so. -/
structure Retains (s t : State) : Prop where
  now : t.hid.now = s.hid.now
  retired : s.retired → t.retired

theorem retaining : Ongoing Retains :=
  ⟨fun _ => ⟨rfl, id⟩, fun h h' => ⟨h'.now.trans h.now, fun hr => h'.retired (h.retired hr)⟩⟩

/-- What leaves the time, the word of the life cycle and its transition. -/
theorem Retains.of_eq {s t : State} (hnow : t.hid.now = s.hid.now) (hst : t.lcState = s.lcState)
    (htrans : t.hid.lcy.trans = s.hid.lcy.trans) : Retains s t := ⟨hnow, fun hr => ⟨hst.trans hr.1, htrans.trans hr.2⟩⟩

theorem M.Along.retains {α : Type} {P : List Nat} {m : M α} (h : m.In P) (hn : 22 ∉ P ∧ 61 ∉ P ∧ 40 ∉ P ∧ 99 ∉ P) :
    m.Along Retains := .ofIn h fun _ _ hs =>
  .of_eq (hs.hid hn.2.2.2 40 hn.2.2.1) (f_of_rd_eq _ (hs.rd hn.2.2.2 _ hn.1)) (congrArg LcySt.trans (hs.hid hn.2.2.2 61 hn.2.1))

/-- Along what is done from a state that is not retired the time is all that has to stand. -/
theorem M.Ends.retainsNow {α : Type} {P : List Nat} {m : M α} {s : State} (hs : ¬ s.retired) (h : m.In P) (hn : 40 ∉ P ∧ 99 ∉ P) :
    m.Ends s fun _ t => Retains s t := .ofIn h fun _ _ ht => ⟨ht.hid hn.2 40 hn.1, fun hr => absurd hr hs⟩

theorem M.Along.retainsHid {f : Hidden → Hidden} (hn : ∀ h, (f h).now = h.now) (ht : ∀ h, (f h).lcy.trans = h.lcy.trans) :
    (hid f).Along Retains := .act fun _ => .of_eq (hn _) rfl (ht _)

theorem M.Along.retainsWf {x : FldAt} (v : Nat) (h : x.addr ≠ LCY.STATE) : (wf x v).Along Retains := .read fun _ =>
  .act fun t => .of_eq (congrArg Hidden.now (apply_reg_hid ..)) (f_of_rd_eq _ (rd_apply_reg_other _ _ _ t h.symm))
    (congrArg (fun y => y.lcy.trans) (apply_reg_hid ..))

theorem M.Along.retainsInc {x : FldAt} (h : x.addr ≠ LCY.STATE) : (inc x).Along Retains :=
  .read fun _ => retaining.when (.retainsWf _ h)

theorem FW_STAT_apart (k : Nat) : LCY.FW_STAT k ≠ LCY.STATE := by
  unfold LCY.FW_STAT LCY.STATE arr
  split <;> omega

theorem FW_VER_apart (k i : Nat) : LCY.FW_VER k i ≠ LCY.STATE := by
  unfold LCY.FW_VER LCY.STATE arr2
  split <;> omega

theorem slotField_apart (k i : Nat) : (slotField k i).addr ≠ LCY.STATE := by
  rw [slotField_addr]
  exact FW_STAT_apart k

theorem supplyOk_apart (m : Nat) : (supplyOk m).addr ≠ LCY.STATE := by
  unfold supplyOk
  split <;> decide

/-! ## The word of the life cycle -/

/-- The life-cycle state of a stored word. -/
theorem lcState_reg (w : Word) (s : State) : ((Act.reg LCY.STATE w).apply s).lcState = bitsOf w 31 28 := by
  have hmap : (regAt LCY.STATE).isSome = true := rfl
  have hmask : ∀ i < 32, 28 ≤ i → (implMask LCY.STATE).getLsbD i = true := by decide
  show bitsOf (((Act.reg LCY.STATE w).apply s).rd LCY.STATE) 31 28 = _
  rw [rd_apply_reg_same _ _ _ hmap]
  apply Nat.eq_of_testBit_eq
  intro i
  simp only [bitsOf, Nat.testBit_mod_two_pow, Nat.testBit_div_two_pow, BitVec.testBit_toNat, BitVec.getLsbD_and]
  by_cases hi : i + 28 < 32
  · rw [hmask _ hi (Nat.le_add_left ..), Bool.and_true]
  · simp [show ¬ i < 4 by omega]

/-- The whole word put back gives back the state of the life cycle. -/
theorem lcState_put (s u : State) :
    ((Act.reg LCY.STATE (withBits (u.rd LCY.STATE) 31 0 (s.f ⟨LCY.STATE, 31, 0⟩))).apply u).lcState = s.lcState := by
  have h := bitsOf_withBits_same (u.rd LCY.STATE) (hi := 31) (lo := 0) (s.f ⟨LCY.STATE, 31, 0⟩) (by decide)
  have hword : withBits (u.rd LCY.STATE) 31 0 (s.f ⟨LCY.STATE, 31, 0⟩) = s.rd LCY.STATE := by
    apply BitVec.eq_of_toNat_eq
    have hw := (withBits (u.rd LCY.STATE) 31 0 (s.f ⟨LCY.STATE, 31, 0⟩)).isLt
    have hs := (s.rd LCY.STATE).isLt
    rw [f_whole] at h hw ⊢
    simp only [bitsOf] at h
    omega
  rw [lcState_reg, hword]
  rfl

/-! ## Resets -/

/-- A relation that holds along the work on each member of a list holds along the whole of it. -/
theorem Ongoing.forEach {α : Type} {ρ : State → State → Prop} (k : Ongoing ρ) {f : α → M Unit} :
    ∀ l : List α, (∀ x ∈ l, (f x).Along ρ) → (l.forM f).Along ρ
  | [], _ => k.pure ()
  | x :: l, h => k.bind (h x List.mem_cons_self) fun _ => k.forEach l fun y hy => h y (List.mem_cons_of_mem _ hy)

/-- What is put back after a reset of everything: the life cycle's word is among it. -/
theorem restore_lcState (s : State) : ∀ (l : List (FldAt × Nat)) (u : State),
    (∀ p ∈ l, p.1.addr = LCY.STATE → p = (⟨LCY.STATE, 31, 0⟩, s.f ⟨LCY.STATE, 31, 0⟩)) →
    ((∃ p ∈ l, p.1.addr = LCY.STATE) ∨ u.lcState = s.lcState) →
    (l.forM fun p => wf p.1 p.2).Ends u fun _ t => t.lcState = s.lcState ∧ t.hid = u.hid
  | [], u, _, h => by
    obtain ⟨_, hp, -⟩ | h := h
    · exact absurd hp List.not_mem_nil
    · exact ⟨_, u, M.does_pure _ u, h, rfl⟩
  | p :: l, u, hl, h => by
    have hrest := fun v hv => restore_lcState s l v (fun q hq => hl q (List.mem_cons_of_mem _ hq)) hv
    refine .bind (M.does_wf _ _ u) ?_
    have hhid : ((Act.reg p.1.addr (withBits (u.rd p.1.addr) p.1.hi p.1.lo p.2)).apply u).hid = u.hid := apply_reg_hid ..
    rw [← hhid]
    refine hrest _ ?_
    rcases eq_or_ne p.1.addr LCY.STATE with hp | hp
    · rw [hl p List.mem_cons_self hp]
      exact .inr (lcState_put s u)
    · obtain ⟨q, hq, hqa⟩ | hu := h
      · obtain rfl | hq := List.mem_cons.mp hq
        · exact absurd hqa hp
        · exact .inl ⟨q, hq, hqa⟩
      · exact .inr ((f_of_rd_eq _ (rd_apply_reg_other _ _ _ u hp.symm)).trans hu)

theorem keptFields_lcState : (∀ x ∈ keptFields, x.addr = LCY.STATE → x = ⟨LCY.STATE, 31, 0⟩) ∧
    (⟨LCY.STATE, 31, 0⟩ : FldAt) ∈ keptFields := by decide +kernel

/-- A reset of everything keeps the life cycle's state (R465). -/
theorem resetScope_all : (resetScope (fun _ => true) keptFields).Along Retains := fun s => by
  obtain ⟨a, t, hd, hst, hhid⟩ := restore_lcState s ((keptFields.filter fun _ => true).map fun x => (x, s.f x))
    ((Act.regsReset fun _ => !true).apply s)
    (fun p hp ha => by
      obtain ⟨x, hx, rfl⟩ := List.mem_map.mp hp
      rw [keptFields_lcState.1 x (List.mem_filter.mp hx).1 ha])
    (.inl ⟨_, List.mem_map.mpr ⟨_, List.mem_filter.mpr ⟨keptFields_lcState.2, rfl⟩, rfl⟩, rfl⟩)
  exact .read <| .bind (M.does_act _ s)
    ⟨a, t, hd, .of_eq (congrArg Hidden.now hhid) hst (congrArg (fun y : Hidden => y.lcy.trans) hhid)⟩

theorem sget?_filter {α : Type} (keep : Nat → Bool) {a : Nat} (h : keep a = true) :
    ∀ l : List (Nat × α), sget? (l.filter fun c => keep c.1) a = sget? l a
  | [] => rfl
  | (b, v) :: l => by
    have ih := sget?_filter keep h l
    by_cases hb : keep b = true
    · rw [List.filter_cons_of_pos (by exact hb), sget?, sget?, ih]
    · rw [List.filter_cons_of_neg (by exact hb), sget?, ih, if_neg fun hab : a = b => hb (by rw [← hab, h])]

/-- A reset of what does not hold the life cycle's state leaves it. -/
theorem resetScope_part {scope : Nat → Bool} (kept : List FldAt) (h : scope LCY.STATE = false) :
    (resetScope scope kept).Along Retains := .read fun s => by
  refine retaining.bind (.act fun t => .of_eq rfl (f_of_rd_eq _ ?_) rfl) fun _ => retaining.forEach _ fun p hp => .retainsWf _ ?_
  · exact congrArg (Option.getD · _) (sget?_filter (fun a => !scope a) (congrArg not h) t.regs)
  · obtain ⟨x, hx, rfl⟩ := List.mem_map.mp hp
    exact fun ha => absurd ((List.mem_filter.mp hx).2) (by rw [ha, h]; decide)

theorem tabsReset_retains (keep : Nat → Bool) : (act (.tabsReset keep)).Along Retains := .act fun _ => .of_eq rfl rfl rfl

theorem clearIsland_lcy (n : Nat) (h : Hidden) : (clearIsland n h).now = h.now ∧ (clearIsland n h).lcy = h.lcy := by
  unfold clearIsland
  split <;> exact ⟨rfl, rfl⟩

theorem loseConfig_retains (n : Nat) : (loseConfig n).Along Retains := by
  have hclear : (hid (clearIsland n)).Along Retains :=
    .retainsHid (fun h => (clearIsland_lcy n h).1) fun h => congrArg LcySt.trans (clearIsland_lcy n h).2
  have hready : ∀ s : State, ((List.range 8).forM fun r =>
      wf (GDR.RDY_CFG.READY r) (b2n (s.f (GDR.RDY_CFG.READY r) != s.f (GDR.RDY_CFG.POL r)))).Along Retains := fun s =>
    retaining.forM (fun r => .retains (M.In.wf (P := [5]) 5 _ _ (GDR.RDY_CFG_page r) (by decide)) (by decide)) _
  have k := retaining
  exact k.thenMore (.retains foot_handLeft (by decide)) fun _ => .read fun s => k.bind (resetScope_part _ rfl) fun _ =>
    k.thenMore (hready s) fun _ => k.bind (tabsReset_retains _) fun _ => k.bind hclear fun _ =>
    k.thenMore (.retains foot_rebindGroups (by decide)) fun _ => k.when <| .retains (foot_updMtr _) (by decide)

theorem ISLAND_apart {n : Nat} : SYS.ISLAND n ≠ LCY.STATE := by
  unfold SYS.ISLAND LCY.STATE arr
  split <;> omega

theorem referenceLoss_retains : referenceLoss.Along Retains := by
  have k := retaining
  have hlocks : ∀ n, (do wf (SYS.ISLAND.PLL_LOST n) 1; wf (SYS.ISLAND.PLL_LOCK n) 0).Along Retains := fun n =>
    k.bind (.retainsWf _ ISLAND_apart) fun _ => .retainsWf _ ISLAND_apart
  exact k.bind (.retainsHid (fun _ => rfl) fun _ => rfl) fun _ => k.bind (k.forM hlocks _) fun _ =>
    k.bind (k.forM (fun n => .retains (foot_occur 0 n _) (by decide)) _) fun _ => .retains (foot_allSafe 0) (by decide)

theorem islandPresent_retains (n : Nat) (regsOk : Bool) : (islandPresent n regsOk).Along Retains := by
  have k := retaining
  have hset : ∀ new, (setIsland n new).Along Retains := fun new => .retains (foot_setIsland n new) (by decide)
  have hlink : ∀ afterLoss, (do
      if n = 10 then linkReturns
      if n = 8 then meterReturn false afterLoss regsOk : M Unit).Along Retains := fun _ =>
    k.thenMore (.retains foot_linkReturns (by decide)) fun _ => k.when <| .retains (foot_meterReturn _ _ _) (by decide)
  have hup : ∀ s : State, (do
      setIsland n 2
      if n = 7 then
        (List.range 8).forM showBank
        restoreConv
        if s.hid.trp.rotating then startRotation
      if n = 10 then linkReturns
      if n = 8 then meterReturn false (s.f (SYS.ISLAND.STATE n) == 3) regsOk : M Unit).Along Retains := fun s =>
    k.bind (hset 2) fun _ => .ite (k.bind (k.forM (fun b => .retains (foot_showBank b) (by decide)) _) fun _ =>
      k.bind (.retains foot_restoreConv (by decide)) fun _ => k.thenMore (.retains foot_startRotation (by decide)) fun _ =>
      hlink _) (hlink _)
  exact .read fun s => k.when <| k.bind (.retainsWf _ ISLAND_apart) fun _ => .ite
    (k.thenMore (loseConfig_retains n) fun _ => k.bind (hset 1) fun _ => hup s) (hup s)

theorem resetIsland_retains (n : Nat) : (resetIsland n).Along Retains := by
  have k := retaining
  exact .read fun _ => k.bind (.retainsInc ISLAND_apart) fun _ => .read fun _ => k.when <|
    k.thenMore (.retains foot_registerCommit (by decide)) fun _ =>
    k.bind (.retains (foot_setIsland n _) (by decide)) fun _ => k.when (loseConfig_retains n)

theorem updLcy_retains {f : LcySt → LcySt} (h : ∀ l, (f l).trans = l.trans) : (updLcy f).Along Retains :=
  .retainsHid (fun _ => rfl) fun _ => h _

theorem deviceReset_retains (cause : Nat) (commanded : Bool) : (deviceReset cause commanded).Along Retains := by
  have k := retaining
  have hrest : (do
      resetScope (fun _ => true) keptFields
      act (.tabsReset keptTable)
      act .spiClear
      hid (resetHidden commanded cause)).Along Retains :=
    k.bind resetScope_all fun _ => k.bind (tabsReset_retains _) fun _ =>
    k.bind (.retains (M.In.spiClear (P := [33]) (by decide)) (by decide)) fun _ => .retainsHid (fun _ => rfl) fun _ => rfl
  refine .ite ?_ ?_
  · exact k.bind (.retains foot_flushMerge (by decide)) fun _ => k.bind (.retains foot_registerCommit (by decide)) fun _ =>
      .read fun _ => k.bind (.retains (M.In.fltTake (P := [35]) (by decide)) (by decide)) fun _ =>
      k.bind (.retainsWf _ (by decide)) fun _ => hrest
  · exact k.bind (.retains foot_loseMerge (by decide)) fun _ =>
      k.bind (.retains (M.In.fltQDrop (P := [35]) (by decide)) (by decide)) fun _ => hrest

theorem powerOn_retains : powerOn.Along Retains := by
  have k := retaining
  have hup : ((List.range 4).forM fun m => wf (supplyOk m) 1).Along Retains := k.forM (fun m => .retainsWf _ (supplyOk_apart m)) _
  exact .read fun _ => .ite (k.bind (.retainsHid (fun _ => rfl) fun _ => rfl) fun _ => k.bind (deviceReset_retains 1 false)
    fun _ => k.bind (.retainsWf _ (by decide)) fun _ => k.bind (.retainsWf _ (by decide)) fun _ => hup) hup

theorem coreLoss_retains : coreLoss.Along Retains := by
  have k := retaining
  exact .read fun _ => k.bind (.retainsHid (fun _ => rfl) fun _ => rfl) fun _ =>
    k.bind (updLcy_retains fun _ => rfl) fun _ => .retainsInc (by decide)

theorem brownout_retains (m : Nat) : (brownout m).Along Retains := by
  have k := retaining
  exact .read fun _ => k.when <| k.thenMore coreLoss_retains fun _ => k.bind (deviceReset_retains 3 false) fun _ =>
    k.bind (.retainsWf _ (supplyOk_apart m)) fun _ => .retainsInc (by decide)

theorem startMeter_retains (ok : Bool) : (startMeter ok).Along Retains := by
  have k := retaining
  have hstate : ∀ v, (wf (SYS.ISLAND.STATE 8) v).Along Retains := fun v => .retainsWf v (by decide)
  refine .read fun s => k.bind (.retains (M.In.fresh (P := [42]) (by decide)) (by decide)) fun any => ?_
  cases s.bootSlot 1 any with
  | none => exact hstate 0
  | some i =>
    exact .ite (k.bind (.retainsWf _ (FW_STAT_apart 1)) fun _ => k.bind (hstate 2) fun _ =>
      .retains (foot_meterReturn true false true) (by decide)) (hstate 0)

theorem standbyReached_retains : standbyReached.Along Retains := by
  have k := retaining
  have hdev : ∀ new, (setDev new).Along Retains := fun new => .retains (foot_setDev new) (by decide)
  have hslot : ∀ (s : State) (n : Nat), (if n = 0 ∨ s.present 8 then do
      let i := s.f (LCY.FW_STAT.ACTIVE n)
      wf (slotField n i) 2
      wf (LCY.FW_STAT.SVN_MIN n) (max (s.svn n i) (s.f (LCY.FW_STAT.SVN_MIN n)))
    else pure ()).Along Retains := fun s n => k.when <| k.bind (.retainsWf _ (slotField_apart _ _)) fun _ =>
      .retainsWf _ (FW_STAT_apart n)
  refine .read fun s => .ite (k.pure _) <| .ite ?_ ?_
  · exact k.bind (.retains (foot_occur 63 0 0) (by decide)) fun _ => k.bind (hdev 4) fun _ => k.pure _
  · refine k.bind (.retainsWf _ (by decide)) fun _ => k.bind (k.forM (hslot s) _) fun _ =>
      k.bind (.retains foot_startRotation (by decide)) fun _ => k.bind (hdev 1) fun _ => .ite ?_ (k.pure _)
    exact k.bind (.retains (foot_occur 221 0 0) (by decide)) fun _ => k.bind (updLcy_retains fun _ => rfl) fun _ => k.pure _

theorem bootFallback_retains : bootFallback.Along Retains := by
  have k := retaining
  exact .read fun _ => k.when <| k.bind (.retainsWf _ (slotField_apart _ _)) fun _ => k.bind (updLcy_retains fun _ => rfl) fun _ =>
    deviceReset_retains 8 true

theorem shipExit_retains (ms : Nat) : (shipExit ms).Along Retains :=
  .read fun _ => retaining.when <| retaining.bind (.retains (foot_setBsw true) (by decide)) fun _ => deviceReset_retains 7 true

theorem longPressReopen_retains : longPressReopen.Along Retains :=
  .read fun _ => retaining.when <| retaining.bind (.retains (foot_setBsw true) (by decide)) fun _ => deviceReset_retains 5 true

theorem lifecycleReset_retains : lifecycleReset.Along Retains := .read fun _ => retaining.when (deviceReset_retains 6 true)

end Sys2Proof.Machine
end

section
/-! SUPPORT for O4 and O14. The Chords, the release of reset, the life cycle and the firmware keep what `Retains` says. -/

namespace Sys2Proof.Machine

/-! ## Chords -/

theorem complete_retains {kind unit status reason detail : Nat} {data : List Byte} :
    (complete kind unit status reason detail data).Along Retains := .retains (foot_complete _ _ _ _ _ _) (by decide)

theorem abandonTasks_retains (n : Nat) : (abandonTasks n).Along Retains := by
  have k := retaining
  have hupd : ∀ l : List (Nat × FwUpd), (l.forM fun p => if p.2.chord = some n then do
      hid fun h => { h with lcy := { h.lcy with upd := serase h.lcy.upd p.1 } }
      complete 0xD2 p.1 stFailed 0x1204 0 []
    else pure ()).Along Retains := fun l => by
    refine k.forM (fun p => k.when ?_) l
    exact k.bind (.retainsHid (fun _ => rfl) fun _ => rfl) fun _ => complete_retains
  refine .read fun s => ?_
  cases s.hid.mem.scrub with
  | none => exact hupd _
  | some x =>
    exact .ite (k.bind (.retainsHid (fun _ => rfl) fun _ => rfl) fun _ => k.bind (.retainsWf _ (by decide)) fun _ =>
      k.bind (complete_retains) fun _ => hupd _) (hupd _)

theorem chordFailed_retains (n cause : Nat) (test : Bool) : (chordFailed n cause test).Along Retains := by
  have k := retaining
  have hsafe : (allSafe cause).Along Retains := .retains (foot_allSafe cause) (by decide)
  have hlast : ∀ o, (do
      if (← getS).chd o = 4 then allSafe cause
      else
        dropSplit o 0x1202
        carry o cause).Along Retains := fun o => .read fun _ => .ite hsafe <|
    k.bind (.retains (foot_dropSplit o _) (by decide)) fun _ => .retains (foot_carry o cause) (by decide)
  exact k.bind (.retains (foot_markFailed n cause) (by decide)) fun _ => .ite hsafe <| .read fun _ => .ite
    (k.bind (abandonTasks_retains _) fun _ => k.bind (.retains (foot_endJoin _ test) (by decide)) fun _ => hlast _) (hlast _)

theorem lockstepMismatch_retains (n : Nat) (test : Bool) : (lockstepMismatch n test).Along Retains := by
  have k := retaining
  exact .read fun _ => k.when <| k.bind (.retains (M.In.inc (P := [18]) 18 _ (CHD.CNT_page n) (by decide)) (by decide)) fun _ =>
    k.bind (.retains (foot_updChord n _) (by decide)) fun _ =>
    k.bind (.retains (foot_occurrence 180 n 0) (by decide)) fun _ => .ite (chordFailed_retains n 180 test)
      (.retains (foot_putChd n 1) (by decide))

theorem restartPair_retains (n : Nat) (ok : Bool) (time : Nat) (test : Bool) : (restartPair n ok time test).Along Retains := by
  have k := retaining
  exact .read fun _ => k.when <| .ite
    (k.bind (.retains (foot_occur 181 n 0) (by decide)) fun _ => chordFailed_retains n 181 test)
    (k.bind (.retains (M.In.inc (P := [18]) 18 _ (CHD.CNT_page n) (by decide)) (by decide)) fun _ =>
      k.bind (.retains (M.In.wf (P := [18]) 18 _ _ (CHD.CKPT_page n) (by decide)) (by decide)) fun _ =>
      .retains (foot_setChd n _ 180) (by decide))

theorem joinGraceExpiry_retains (n : Nat) : (joinGraceExpiry n).Along Retains := .read fun _ =>
  retaining.when (abandonTasks_retains n)

/-! ## The release of reset -/

theorem resetRelease_retains (b : BootIn) : (resetRelease b).Along Retains := by
  have k := retaining
  have hdev : ∀ new, (setDev new).Along Retains := fun new => .retains (foot_setDev new) (by decide)
  have hislands : ((List.range 16).forM fun n => do
      wf (SYS.ISLAND.STATE n) 2
      wf (SYS.ISLAND.PLL_LOCK n) 1).Along Retains :=
    k.forM (fun _ => k.bind (.retainsWf _ ISLAND_apart) fun _ => .retainsWf _ ISLAND_apart) _
  refine .read fun s => k.when <| k.bind (updLcy_retains fun _ => rfl) fun _ => k.bind (.retainsWf _ (by decide)) fun _ =>
    k.bind (.retainsWf _ (by decide)) fun _ => k.bind (.retainsWf _ (by decide)) fun _ =>
    k.bind (.retains (M.In.incWrap (P := [0]) 0 _ (by decide) (by decide)) (by decide)) fun _ => k.bind hislands fun _ =>
    k.thenMore (.retainsWf _ (FW_STAT_apart 0)) fun _ => k.bind (.retains foot_showHeld (by decide)) fun _ => ?_
  have hboot : (do
      let sram ← wipeSram b.sramFails
      if s.hid.lcy.trans.isSome then wf MEM.STATUS.WIPE_PENDING 1
      let any ← fresh
      match (← getS).bootSlot 0 any with
      | none =>
        wf (SYS.ISLAND.STATE 8) 0
        wf SYS.STATUS.RECOVERY 1
        wf SYS.STATUS.HOSTMODE 1
        setDev 4
      | some i =>
        wf (LCY.FW_STAT.ACTIVE 0) i
        restoreChords
        wf SAF.STATUS.DIAG_OK (b2n b.cd0Ok)
        startMeter b.mtrOk
        showSpares
        (List.range 8).forM showBank
        restoreConv
        setAvail
        setCfgCrc
        let s ← getS
        if !sram ∨ !b.recordsOk ∨ !b.cd0Ok ∨ s.chd 0 = 4 ∨ (s.chd 1 = 4 ∧ s.chd 2 = 4) then setDev 4).Along Retains := by
    refine k.bind (.retains (foot_wipeSram _) (by decide)) fun sram => k.thenMore (.retainsWf _ (by decide)) fun _ =>
      k.bind (.retains (M.In.fresh (P := [42]) (by decide)) (by decide)) fun any => .read fun w => ?_
    cases w.bootSlot 0 any with
    | none =>
      exact k.bind (.retainsWf _ (by decide)) fun _ => k.bind (.retainsWf _ (by decide)) fun _ =>
        k.bind (.retainsWf _ (by decide)) fun _ => hdev 4
    | some i =>
      exact k.bind (.retainsWf _ (FW_STAT_apart 0)) fun _ => k.bind (.retains foot_restoreChords (by decide)) fun _ =>
        k.bind (.retainsWf _ (by decide)) fun _ => k.bind (startMeter_retains _) fun _ =>
        k.bind (.retains foot_showSpares (by decide)) fun _ => k.bind (k.forM (fun n => .retains (foot_showBank n) (by decide)) _)
        fun _ => k.bind (.retains foot_restoreConv (by decide)) fun _ => k.bind (.retains foot_setAvail (by decide)) fun _ =>
        k.bind (.retains foot_setCfgCrc (by decide)) fun _ => .read fun _ => k.when (hdev 4)
  exact .ite (k.bind (.retainsWf _ (by decide)) fun _ => k.bind (updLcy_retains fun _ => rfl) fun _ =>
    k.bind (.retains (foot_occur 2 0 _) (by decide)) fun _ => hboot) hboot

/-! ## The life cycle: no transition runs in a life cycle that is retired -/

theorem M.Fixes.nowIn {α : Type} {P : List Nat} {m : M α} (h : m.In P) (hn : 40 ∉ P ∧ 99 ∉ P) : m.Fixes fun s => s.hid.now :=
  .ofIn h fun _ _ hs => hs.hid hn.2 40 hn.1

theorem resetFields_now (l : List FldAt) : (resetFields l).Fixes fun s => s.hid.now :=
  .forM (fun _ => .read fun _ => .act fun _ => congrArg Hidden.now (apply_reg_hid ..)) l

theorem wipeStateRegion_now : wipeStateRegion.Fixes fun s => s.hid.now := by
  refine .bind (resetFields_now _) fun _ => .bind (.act fun _ => rfl) fun _ => .bind (.nowIn foot_showSpares (by decide)) fun _ =>
    .read fun s => ?_
  cases s.hid.trp.conv with
  | none => exact .pure _
  | some k => exact .when <| .bind (.act fun _ => rfl) fun _ => resetFields_now _

theorem wipeContents_now (r : Nat) : (wipeContents r).Fixes fun s => s.hid.now := by
  unfold wipeContents
  split
  · exact wipeStateRegion_now
  · exact .act fun _ => rfl
  · exact .bind (.act fun _ => rfl) fun _ => .bind (.act fun _ => rfl) fun _ => .bind (.act fun _ => rfl) fun _ => resetFields_now _
  · exact .bind (.act fun _ => rfl) fun _ => .bind (.act fun _ => rfl) fun _ => .bind (resetFields_now _) fun _ =>
      .nowIn foot_setCfgCrc (by decide)
  · exact .bind (.act fun _ => rfl) fun _ => .bind (resetFields_now _) fun _ => .act fun _ => rfl
  · exact .bind (.act fun _ => rfl) fun _ => .bind (resetFields_now _) fun _ => .act fun _ => rfl
  · exact .pure _

theorem regionWipeComplete_now (fail : Option Nat) : (regionWipeComplete fail).Fixes fun s => s.hid.now := by
  refine .read fun s => ?_
  rcases hs : s.hid.lcy.trans with _ | ⟨target, session, transport⟩
  · exact .pure _
  · refine .when <| .bind (.forM (fun r => .bind (.nowIn (foot_wipeRegion r) (by decide)) fun _ => wipeContents_now r) _) fun _ => ?_
    cases fail with
    | none => exact .nowIn (foot_commitTransition target session transport) (by decide)
    | some p =>
      exact .bind (.nowIn (M.In.wf (P := [19]) 19 _ _ (by decide) (by decide)) (by decide)) fun _ => .bind (.act fun _ => rfl) fun _ =>
        .bind (.nowIn (foot_occur 196 0 _) (by decide)) fun _ => .nowIn (foot_complete 0xC0 0 stFailed _ _ _) (by decide)

theorem regionWipeComplete_retains (fail : Option Nat) : (regionWipeComplete fail).Along Retains := fun s => by
  by_cases hs : s.retired
  · refine .read ?_
    rw [hs.2]
    exact retaining.pure () s
  · obtain ⟨a, t, hd, hnow⟩ := (regionWipeComplete_now fail).does s
    exact ⟨a, t, hd, hnow, fun hr => absurd hr hs⟩

/-! ## Firmware -/

theorem fwBegin_retains (h : List Byte) : (fwBegin h).Along Retains := by
  have k := retaining
  exact .read fun _ => k.bind (.retainsWf _ (slotField_apart _ _)) fun _ => k.bind (.retainsWf _ (FW_VER_apart _ _)) fun _ =>
    updLcy_retains fun _ => rfl

theorem fwTouch_retains (k : Nat) : (fwTouch k).Along Retains := .retainsHid (fun _ => rfl) fun _ => rfl

theorem fwEnd_retains (k : Nat) (sig : List Byte) (live : Bool) : (fwEnd k sig live).Along Retains :=
  .retainsHid (fun _ => rfl) fun _ => rfl

theorem fwWrite_retains (k o : Nat) (bs : List Byte) : (fwWrite k o bs).Along Retains := .read fun s => by
  cases sget? s.hid.lcy.upd k with
  | none => exact retaining.pure _
  | some u => exact updLcy_retains fun _ => rfl

theorem fwUpdateTimeout_retains (k : Nat) : (fwUpdateTimeout k).Along Retains := .read fun s => by
  cases sget? s.hid.lcy.upd k with
  | none => exact retaining.pure _
  | some u => exact retaining.when <| updLcy_retains fun _ => rfl

theorem fwVerifyComplete_retains (n : Nat) : (fwVerifyComplete n).Along Retains := .read fun s => by
  have k := retaining
  cases sget? s.hid.lcy.upd n with
  | none => exact k.pure _
  | some u =>
    obtain ⟨slot, header, since, sig, live, chord⟩ := u
    cases sig with
    | none => exact k.pure _
    | some sig =>
      have hslot : ∀ v, (wf (slotField n slot) v).Along Retains := fun v => .retainsWf v (slotField_apart _ _)
      exact k.bind (updLcy_retains fun _ => rfl) fun _ => .ite (k.bind (hslot 4) fun _ => complete_retains) <|
        .ite (k.bind (hslot 4) fun _ => complete_retains) <| .ite
        (k.bind (hslot 3) fun _ => k.bind (.retains (foot_fwChange _) (by decide)) fun _ => .ite (complete_retains) <|
          .ite (complete_retains) <| updLcy_retains fun _ => rfl)
        (k.bind (hslot 2) fun _ => k.bind (.retainsWf _ (FW_STAT_apart 1)) fun _ => k.bind (complete_retains) fun _ =>
          k.bind (.retains (foot_updMtr _) (by decide)) fun _ => .retains (foot_setIsland 8 3) (by decide))

theorem liveUpdate_retains : liveUpdate.Along Retains := .read fun s => by
  have k := retaining
  cases s.hid.lcy.live with
  | none => exact k.pure _
  | some i =>
    exact .ite (k.pure _) <| k.bind (updLcy_retains fun _ => rfl) fun _ => .ite (complete_retains) <|
      k.bind (.retains (foot_updateChord 14) (by decide)) fun _ => k.bind (.retains (foot_updateChord 13) (by decide)) fun _ =>
      k.bind (.retainsWf _ (slotField_apart _ _)) fun _ => k.bind (.retainsWf _ (FW_STAT_apart 0)) fun _ => complete_retains

theorem thermalDerating_retains (temp : Int) (hot : Bool) : (thermalDerating temp hot).Along Retains := .read fun s => by
  have k := retaining
  have hlast : (do
      if 1250 ≤ temp ∨ hot then
        if ← occurrence 220 0 0 then
          (groups.filter fun g => (s.machineOf g).isSome || s.active g).forM fun g => startSs1 g 220).Along Retains :=
    k.when <| k.bind (.retains (foot_occurrence 220 0 0) (by decide)) fun _ => k.when <|
      k.forM (fun g => .retains (foot_startSs1 g 220) (by decide)) _
  have hjoin : (do
      if 1 ≤ deratingStep (s.f LCY.THERM.STEP) temp then
        match s.splitChd with
        | some n => if !(s.chord n).joining then startJoin n
        | none => pure ()
      if 1250 ≤ temp ∨ hot then
        if ← occurrence 220 0 0 then
          (groups.filter fun g => (s.machineOf g).isSome || s.active g).forM fun g => startSs1 g 220).Along Retains := by
    refine .ite ?_ hlast
    cases s.splitChd with
    | none => exact hlast
    | some n => exact k.thenMore (.retains (foot_startJoin n) (by decide)) fun _ => hlast
  exact k.when <| k.bind (.retainsWf _ (by decide)) fun _ => .ite
    (k.bind (.retainsWf _ (by decide)) fun _ => k.bind (.retainsInc (by decide)) fun _ =>
      k.bind (k.forM (fun n => .retainsWf _ ISLAND_apart) _) fun _ => k.bind (.retains (foot_eventDev _ _) (by decide)) fun _ => hjoin)
    hjoin

end Sys2Proof.Machine
end

section
/-! SUPPORT for O4 and O14. Writes and the executor keep what `Retains` says. -/

namespace Sys2Proof.Machine

/-! ## Writes -/

/-- LCY.STATE has no bit that a write stores or clears. -/
theorem storedWord_lcState {r : RegSpec} (hr : regAt LCY.STATE = some r) (v old : Word) : storedWord r v old = old := by
  obtain rfl : r = ⟨.LCY_STATE, 0x160000, 4, 0, 1, 4, 1, 0x0, 0xFFF0000, 0x0, 0xF000FFFF, 0x0, 0x0, 0x0, 0x0, false⟩ :=
    (Option.some.inj hr).symm
  have hones : ~~~(0#32) = BitVec.allOnes 32 := by decide
  show ((v &&& 0#32) ||| (old &&& ~~~0#32)) &&& ~~~(v &&& 0#32) = old
  rw [BitVec.and_zero, BitVec.zero_or, hones, BitVec.and_allOnes, BitVec.and_allOnes]

/-- The word of LCY.STATE put back is the same state. -/
theorem lcState_rewrite (s : State) : ((Act.reg LCY.STATE (s.rd LCY.STATE)).apply s).lcState = s.lcState :=
  lcState_reg _ s

/-- A word as it is stored: LCY.STATE takes nothing, and another word leaves it. -/
theorem stored_retains {r : RegSpec} {a : Nat} (hr : regAt a = some r) (v : Word) (s : State) :
    (wr a (storedWord r v (s.rd a))).Ends s fun _ t => Retains s t := by
  refine .ofDoes (M.does_act _ s) (.of_eq (congrArg Hidden.now (apply_reg_hid ..)) ?_
    (congrArg (fun y : Hidden => y.lcy.trans) (apply_reg_hid ..)))
  rcases eq_or_ne a LCY.STATE with rfl | ha
  · rw [storedWord_lcState hr]
    exact lcState_rewrite s
  · exact f_of_rd_eq _ (rd_apply_reg_other _ _ _ s ha.symm)

theorem writeWord_retains (c : Ctx) (all : List Nat) (a : Nat) (v : Word) : (writeWord c all a v).Along Retains := by
  have k := retaining
  unfold writeWord
  cases hr : regAt a with
  | none => exact k.pure _
  | some r =>
    have hrest : ∀ old, (do
        writeEffect all r a v old
        let new ← rd a
        if (old ^^^ new) &&& r.rws ≠ 0 then
          if a / 65536 = 0x10 then setCfgCrc
          change 1 a old.toNat new.toNat c.session c.transport).Along Retains := fun old =>
      k.bind (.retains (foot_writeEffect all r a v old) (by decide)) fun _ => .read fun _ => k.when <|
        k.thenMore (.retains foot_setCfgCrc (by decide)) fun _ => .retains (foot_change 1 a _ _ c.session c.transport) (by decide)
    refine k.thenMore (.retains foot_settleTime (by decide)) fun _ s => .read <| .seq (stored_retains hr v s) fun _ t ht => ?_
    exact .ofAlong (hrest _) fun _ _ hu => k.trans ht hu

theorem writing_retains : Writing Retains where
  ongoing := retaining
  own _ _ h := .of_eq (h.hid (by decide) 40 (by decide)) (f_of_rd_eq _ (h.rd (by decide) _ (by decide)))
    (congrArg LcySt.trans (h.hid (by decide) 61 (by decide)))
  writeWord := writeWord_retains

/-! ## Requests of the life cycle and of updates -/

/-- No transition is taken up in a life cycle that is retired (R470). -/
theorem advanceRefusal_retired {s : State} (h : s.lcState = 4) (target : Nat) (low : Bool) :
    s.advanceRefusal target low = some (0x160C, 0) := if_pos h

theorem opAdvance_retains (c : Ctx) (p : Packet) (body : List Byte) (svcLow : Option Bool) :
    (opAdvance c p body svcLow).Along Retains := fun s => by
  by_cases hs : s.retired
  · have k := retaining
    refine .read ?_
    split
    · exact k.pure _ s
    · dsimp only
      have hlow : ∀ low : Bool, (match s.advanceRefusal (leAt body 0 1) low with
          | some x => (return refuse x.1 x.2 : M Ans)
          | none => do
            addDue 0xC0 0 p false
            lcAdvance (leAt body 0 1) c.session c.transport
            return { status := stAccepted }).Along Retains := fun low => by
        rw [advanceRefusal_retired hs.1]
        exact k.pure _
      cases svcLow with
      | some b => exact k.bind (k.pure b) hlow s
      | none => exact k.bind (.retains (M.In.map (M.In.fresh (P := [42]) (by decide))) (by decide)) hlow s
  · exact .retainsNow hs (foot_opAdvance c p body svcLow) (by decide)

theorem opFwBegin_retains (c : Ctx) (body : List Byte) : (opFwBegin c body).Along Retains := .read fun s => by
  have k := retaining
  split
  · refine .ite (k.pure _) ?_
    split
    · exact k.pure _
    · split
      · exact k.pure _
      · exact k.bind (fwBegin_retains body) fun _ => k.pure _
  · exact k.pure _

theorem opFwChunk_retains (c : Ctx) (p : Packet) (body : List Byte) (staged : Option Seg) :
    (opFwChunk c p body staged).Along Retains := .read fun s => by
  have k := retaining
  dsimp only
  split
  · exact k.pure _
  · exact k.bind (fwTouch_retains _) fun _ => .ite (k.pure _) <| k.bind (fwWrite_retains _ _ _) fun _ => k.pure _

theorem opFwEnd_retains (c : Ctx) (p : Packet) (body : List Byte) : (opFwEnd c p body).Along Retains := .read fun s => by
  have k := retaining
  refine .ite (k.pure _) ?_
  split
  · exact k.pure _
  · split
    · exact k.pure _
    · exact k.bind (writing_retains.addDue _ _ p false) fun _ => k.bind (fwEnd_retains _ _ _) fun _ => k.pure _

theorem opReset_retains (p : Packet) : (opReset p).Along Retains := by
  have k := retaining
  unfold opReset
  split
  · exact k.thenMore (.retains foot_resetLink (by decide)) fun _ => k.pure _
  · exact k.bind (.retainsHid (fun _ => rfl) fun _ => rfl) fun _ => k.pure _
  · exact k.pure _

end Sys2Proof.Machine
end

section
/-! SUPPORT for O4 and O14. Every request, every way in and every millisecond keeps what `Retains` says. -/

namespace Sys2Proof.Machine

theorem handle_retains (c : Ctx) (p : Packet) (body : List Byte) (staged : Option Seg) (svcLow : Option Bool) :
    (handle c p body staged svcLow).Along Retains := .read fun s => by
  have k := retaining
  have plain : ∀ {m : M Ans}, m.Along Retains → (do return (← m, none) : M (Ans × Option Seg)).Along Retains := fun h =>
    k.bind h fun _ => k.pure _
  dsimp only
  split
  · exact k.pure _
  · exact k.pure _
  · exact k.pure _
  · exact plain (.retains (foot_opRead _ _ _) (by decide))
  · exact plain (writing_retains.opWrite _ _ _)
  · exact plain (writing_retains.opModify _ _ _)
  · exact plain (.retains (foot_opEnable _) (by decide))
  · exact plain (.retains (foot_opDisable _) (by decide))
  · exact plain (.retains (foot_opCommit _) (by decide))
  · exact .ite (.retains (foot_loadSequences _ _ _ _) (by decide)) (.retains (foot_tableLoadBody _ _ _ _) (by decide))
  · exact plain (.retains (foot_tableVerify _) (by decide))
  · exact plain (.retains (foot_tableSwap _) (by decide))
  · exact plain (writing_retains.opSetpoint _ _)
  · exact plain (.retains (foot_opSelftest _ _ _) (by decide))
  · exact plain (.retains (foot_opLogRead _) (by decide))
  · exact plain (.retains (foot_opLogClear _ _) (by decide))
  · exact plain (.retains (foot_opSessionOpen _ _) (by decide))
  · exact k.bind (.retains (foot_dropSession _) (by decide)) fun _ => k.pure _
  · exact plain (.retains (foot_opPassword _ _ _) (by decide))
  · exact plain (.retains (foot_opSubstitute _ _ _ _) (by decide))
  · exact k.pure _
  · exact .retains (foot_opSequenceStore _ _ _ _) (by decide)
  · exact plain (.retains (foot_opScrub _ _ _) (by decide))
  · exact plain (.retains (foot_opRetire _) (by decide))
  · exact plain (.retains (foot_opSplit _ _ _) (by decide))
  · exact plain (.retains (foot_opJoin _ _ _) (by decide))
  · exact plain (opAdvance_retains _ _ _ _)
  · exact plain (opFwBegin_retains _ _)
  · exact opFwChunk_retains _ _ _ _
  · exact plain (opFwEnd_retains _ _ _)
  · exact plain (.retains (foot_opMeterRead _) (by decide))
  · exact plain (.retains (foot_opRecordRead _) (by decide))
  · exact plain (.retains (foot_opSeal _) (by decide))
  · exact plain (opReset_retains _)
  · exact k.pure _

/-- The executor and every way into it keep what `Retains` says. -/
theorem executing_retains : Executing Retains where
  toWriting := writing_retains
  handle := handle_retains
  resetIsland := resetIsland_retains
  resetSoon := .retainsHid (fun _ => rfl) fun _ => rfl
  logViolation c a := .retains (foot_logViolation c a) (by decide)
  sendReply p key r := .retains (foot_sendReply p key r) (by decide)
  readWords c as := .retains (foot_readWords c as) (by decide)
  endRun by_ a := .retains (foot_endRun by_ a) (by decide)

end Sys2Proof.Machine
end

section
/-! SUPPORT for O4 and O14. What the networks bring and a millisecond of management keep what `Retains` says. -/

namespace Sys2Proof.Machine

/-! ## Networks -/

theorem readEntry_retains (n : Fin 4) (e : LogEntry) : (readEntry n e).Along Retains := by
  have k := retaining
  have hrequest : ∀ s : State, (if e.frame.typ = 2 ∧ e.frame.id = s.f CMD.CANXL_CFG1.REQ_ID ∧ e.frame.sdt = s.f CMD.CANXL_CFG0.SDT ∧
      e.frame.vcid = s.f CMD.CANXL_CFG0.VCID then do
        receiveBytes (.canxl n e.frame.id) e.frame.data
        takeGo
      else pure ()).Along Retains := fun s => k.when <| k.bind (executing_retains.receiveBytes _ _) fun _ => executing_retains.takeGo
  exact .read fun s => .ite (.ite (k.bind (.retainsHid (fun _ => rfl) fun _ => rfl) fun _ => k.pure _) (k.pure _)) <|
    k.thenMore (.retains (foot_takeReference _ _ _ _) (by decide)) fun _ => hrequest s

theorem readNet_retains (n : Fin 4) : (readNet n).Along Retains := by
  have k := retaining
  exact .read fun _ => k.when <| k.bind (.retains (foot_updCan _ _) (by decide)) fun _ =>
    k.bind (k.forM (readEntry_retains n) _) fun _ => .retains (foot_showPool _) (by decide)

theorem readSafe_retains (n : Fin 4) : (readSafe n).Along Retains := .retains (foot_readSafe n) (by decide)

theorem canReceived_retains (n : Fin 4) (f : CanFrame) (sof : Nat) : (canReceived n f sof).Along Retains := by
  have k := retaining
  exact .read fun _ => k.when <| k.bind (.retains (foot_logFrame _ _ _ _) (by decide)) fun _ =>
    k.bind (readSafe_retains n) fun _ => readNet_retains n

theorem canTransmitted_retains (n : Fin 4) (sof : Nat) : (canTransmitted n sof).Along Retains := by
  have k := retaining
  exact k.bind (.retains (foot_transmitHead _ _) (by decide)) fun _ => k.bind (readSafe_retains n) fun _ => readNet_retains n

theorem ethTaken_retains (p : Fin 2) (f : EthFrame) : (ethTaken p f).Along Retains := by
  have k := retaining
  refine k.bind (.retains (foot_ethAnswer p f) (by decide)) fun x => ?_
  cases x with
  | none => exact k.pure _
  | some x =>
    obtain ⟨sport, dport, data⟩ := x
    exact .read fun _ => .ite (.retains (foot_safeCopy _ _) (by decide)) <| k.when <| k.bind (executing_retains.receiveBytes _ _) fun _ =>
      executing_retains.takeGo

theorem ethReceived_retains (p : Fin 2) (f : EthFrame) : (ethReceived p f).Along Retains := .read fun _ =>
  retaining.when <| .ite (.retains (foot_bufferFrame p f) (by decide)) (ethTaken_retains p f)

theorem chordResumes_retains : chordResumes.Along Retains := by
  have k := retaining
  exact k.bind (k.forM (fun n => k.bind (readSafe_retains n) fun _ => readNet_retains n) _) fun _ => .read fun _ =>
    k.bind (.retainsHid (fun _ => rfl) fun _ => rfl) fun _ => k.bind (k.forM (fun _ => ethTaken_retains _ _) _) fun _ =>
    executing_retains.settleExecutor

/-! ## The millisecond -/

theorem M.Along.whenAwake {m : M Unit} (h : m.Along Retains) : (Machine.whenAwake m).Along Retains := .read fun _ => retaining.when h

theorem M.Along.onIsland {m : M Unit} (n : Nat) (h : m.Along Retains) : (Machine.onIsland n m).Along Retains := .read fun _ =>
  retaining.when h

theorem M.Along.onCd0 {m : M Unit} (h : m.Along Retains) : (Machine.onCd0 m).Along Retains := .read fun _ => retaining.when h

theorem management_retains : management.Along Retains := by
  have k := retaining
  exact k.bind (.retains foot_ledgerTick (by decide)) fun _ => k.bind (.onIsland 6 <| .retains foot_posTick (by decide)) fun _ =>
    k.bind (.retains foot_levelTick (by decide)) fun _ => k.bind (.retains foot_windowEvents (by decide)) fun _ =>
    k.bind (.retains foot_thermalFactor (by decide)) fun _ => k.bind (.retains foot_chargeLimits (by decide)) fun _ =>
    k.bind (.retains foot_lvpTick (by decide)) fun _ => k.bind (.retains foot_meterTick (by decide)) fun _ =>
    k.bind (.retains foot_lockTick (by decide)) fun _ => k.bind (.retains (foot_finishSplit 1) (by decide)) fun _ =>
    k.bind (.retains (foot_finishSplit 2) (by decide)) fun _ => k.bind (.onIsland 11 <| .retains foot_scrubTick (by decide)) fun _ =>
    k.bind (k.forM (fun n => .retains (foot_dropExpired n) (by decide)) _) fun _ =>
    k.bind (.retainsHid (fun _ => rfl) fun _ => rfl) fun _ => k.bind (.retains foot_sweepSs1 (by decide)) fun _ =>
    k.bind (.retains foot_handLeft (by decide)) fun _ => k.bind (.retains foot_deviceStateEvaluation (by decide)) fun _ =>
    executing_retains.settleExecutor

/-- A millisecond moves the time and keeps the rest. -/
theorem tick_retains (s : State) : (tick.run s).hid.now = s.hid.now + 1000 ∧ (s.retired → (tick.run s).retired) := by
  have k := retaining
  have hrest : (do
      let s ← getS
      if !s.hid.lcy.held then
        if s.hid.lcy.resetSoon then deviceReset 4 true
        else if s.dev ≠ 6 then management).Along Retains :=
    .read fun _ => k.when <| .ite (deviceReset_retains 4 true) <| k.when management_retains
  have h : Retains ((Act.hid fun h => { h with now := h.now + 1000 }).apply s) (tick.run s) := hrest.run _
  exact ⟨h.now, fun hr => h.retired hr⟩

/-- Settles O4: a millisecond that begins with no command waiting leaves the queue empty, and what follows the step of the
clock keeps the time. -/
theorem idleStepIsATick : Obligations.Idle_step_is_a_tick := by
  unfold Obligations.Idle_step_is_a_tick
  intro s hs
  refine ⟨tick.run s, ?_, (foot_tick.run s).pending.trans hs, (tick_retains s).1⟩
  simp only [step, hs]
  rfl

end Sys2Proof.Machine
end

section
/-! Statement O14: no command and no millisecond leaves the life-cycle state RETIRED. Every command is one program along which
`Retains` holds: what its footprint does not keep of the life cycle, one of the lemmas above does. -/

namespace Sys2Proof.Machine

theorem writeField_retains (v : Via) (x : FldAt) (n : Nat) : (writeField v x n).Along Retains := .read fun _ =>
  executing_retains.hostWrite _ _

theorem M.Along.watchCharge {m : M Unit} (h : m.Along Retains) : (Machine.watchCharge m).Along Retains := .read fun _ =>
  retaining.bind h fun _ => .read fun _ => retaining.thenMore (.retains foot_linkOpen (by decide)) fun _ =>
  .retains foot_showLevel (by decide)

theorem M.Along.settled {m : M Unit} (h : m.Along Retains) : (m >>= fun _ => settleExecutor).Along Retains :=
  retaining.bind h fun _ => executing_retains.settleExecutor

theorem M.Along.resumed {m : M Unit} (h : m.Along Retains) : (m >>= fun _ => chordResumes).Along Retains :=
  retaining.bind h fun _ => chordResumes_retains

theorem M.Along.followed {m : M Unit} (h : m.Along Retains) : (m >>= fun _ => followLock).Along Retains :=
  retaining.bind h fun _ => .retains foot_followLock (by decide)

/-- A command whose next state `Retains` relates to the one before, from every state. -/
def Retained (i : Instr) : Prop := ∀ s t, exec i s = .next t → Retains s t

theorem Retained.checked {i : Instr} {ok : Bool} {m : M Unit} (h : m.Along Retains)
    (he : ∀ s, exec i s = Machine.checked ok m s) : Retained i := fun s t ht => by
  rw [he s] at ht
  cases ok with
  | false => cases ht
  | true =>
    obtain rfl : m.run s = t := Host.Outcome.next.inj ht
    exact h.run s

theorem Retained.next {i : Instr} {m : M Unit} (h : m.Along Retains) (he : ∀ s, exec i s = m.next s) : Retained i :=
  .checked (ok := true) h he

theorem retained (i : Instr) : Retained i :=
  match i with
  | .nop _ => .checked (executing_retains.serve _ _ _) fun _ => rfl
  | .identify _ => .checked (executing_retains.serve _ _ _) fun _ => rfl
  | .getStatus _ => .checked (executing_retains.serve _ _ _) fun _ => rfl
  | .read _ => .checked (executing_retains.serve _ _ _) fun _ => rfl
  | .write _ => .checked (executing_retains.serve _ _ _) fun _ => rfl
  | .modify _ => .checked (executing_retains.serve _ _ _) fun _ => rfl
  | .enable _ => .checked (executing_retains.serve _ _ _) fun _ => rfl
  | .disable _ => .checked (executing_retains.serve _ _ _) fun _ => rfl
  | .commit _ => .checked (executing_retains.serve _ _ _) fun _ => rfl
  | .tableLoad _ => .checked (executing_retains.serve _ _ _) fun _ => rfl
  | .tableVerify _ => .checked (executing_retains.serve _ _ _) fun _ => rfl
  | .tableSwap _ => .checked (executing_retains.serve _ _ _) fun _ => rfl
  | .setpoint _ => .checked (executing_retains.serve _ _ _) fun _ => rfl
  | .selftest _ => .checked (executing_retains.serve _ _ _) fun _ => rfl
  | .selftestCompletion _ => .checked (.whenAwake (.settled (.retains (foot_selftestDone _) (by decide)))) fun _ => rfl
  | .logRead _ => .checked (executing_retains.serve _ _ _) fun _ => rfl
  | .logClear _ => .checked (executing_retains.serve _ _ _) fun _ => rfl
  | .sessionOpen _ => .checked (executing_retains.serve _ _ _) fun _ => rfl
  | .sessionPendingExpiry _ => .next (.whenAwake (.retains (foot_pendingExpiry _) (by decide))) fun _ => rfl
  | .sessionIdleTimeout _ => .next (.whenAwake (.retains (foot_idleTimeout _) (by decide))) fun _ => rfl
  | .sessionLockEnd => .next (.whenAwake (.retains foot_lockEnd (by decide))) fun _ => rfl
  | .sessionClose _ => .checked (executing_retains.serve _ _ _) fun _ => rfl
  | .passwordChange _ => .checked (executing_retains.serve _ _ _) fun _ => rfl
  | .segmentTimeout _ => .next (.whenAwake (.retains (foot_segmentTimeout _) (by decide))) fun _ => rfl
  | .spareSubstitute _ => .checked (executing_retains.serve _ _ _) fun _ => rfl
  | .spareStatus _ => .checked (executing_retains.serve _ _ _) fun _ => rfl
  | .sequenceStore _ => .checked (executing_retains.serve _ _ _) fun _ => rfl
  | .sequenceRun _ => .checked (executing_retains.serve _ _ _) fun _ => rfl
  | .memScrub _ => .checked (executing_retains.serve _ _ _) fun _ => rfl
  | .scrubComplete _ => .checked (.onIsland _ (.settled (.retains (foot_scrubEnd _) (by decide)))) fun _ => rfl
  | .memRetire _ => .checked (executing_retains.serve _ _ _) fun _ => rfl
  | .chordSplit _ => .checked (executing_retains.serve _ _ _) fun _ => rfl
  | .chordJoin _ => .checked (executing_retains.serve _ _ _) fun _ => rfl
  | .joinGraceExpiry _ => .next (.whenAwake (.settled (joinGraceExpiry_retains _))) fun _ => rfl
  | .lifecycleAdvance _ _ => .checked (executing_retains.serve _ _ _) fun _ => rfl
  | .lifecycleReset => .next (lifecycleReset_retains) fun _ => rfl
  | .fwUpdateBegin _ => .checked (executing_retains.serve _ _ _) fun _ => rfl
  | .fwUpdateChunk _ => .checked (executing_retains.serve _ _ _) fun _ => rfl
  | .fwUpdateEnd _ => .checked (executing_retains.serve _ _ _) fun _ => rfl
  | .fwVerifyComplete _ => .next (.whenAwake (.settled (fwVerifyComplete_retains _))) fun _ => rfl
  | .liveUpdate => .next (.whenAwake (.settled (liveUpdate_retains))) fun _ => rfl
  | .fwUpdateTimeout _ => .next (.whenAwake (.settled (fwUpdateTimeout_retains _))) fun _ => rfl
  | .meterRead _ => .checked (executing_retains.serve _ _ _) fun _ => rfl
  | .meterRecordRead _ => .checked (executing_retains.serve _ _ _) fun _ => rfl
  | .meterSeal _ => .checked (executing_retains.serve _ _ _) fun _ => rfl
  | .reset _ => .checked (executing_retains.serve _ _ _) fun _ => rfl
  | .legacyFrame _ => .next (executing_retains.legacyFrame _) fun _ => rfl
  | .tunnelGo _ => .next (executing_retains.legacyFrame _) fun _ => rfl
  | .tunnelRxAck => .next (executing_retains.legacyFrame _) fun _ => rfl
  | .clkMonDeviation _ _ => .next (.whenAwake (.retains (foot_clockDeviation _ _) (by decide))) fun _ => rfl
  | .referenceLoss => .next (.whenAwake (referenceLoss_retains)) fun _ => rfl
  | .islandPresent _ _ => .next (.whenAwake (.resumed (islandPresent_retains _ _))) fun _ => rfl
  | .dieLinkLost => .next (.whenAwake (.retains foot_linkLost (by decide))) fun _ => rfl
  | .brownout _ => .next (brownout_retains _) fun _ => rfl
  | .resetNLow => .next (deviceReset_retains _ _) fun _ => rfl
  | .resetRelease _ => .checked
      (.read fun _ => retaining.thenMore (deviceReset_retains _ _) fun _ => resetRelease_retains _) fun _ => rfl
  | .standbyReached => .next (retaining.bind (standbyReached_retains) fun _ => retaining.when (executing_retains.autorun)) fun _ => rfl
  | .bootFallback => .next (bootFallback_retains) fun _ => rfl
  | .keyGenerated => .next (.onIsland _ (.retains foot_keyGenerated (by decide))) fun _ => rfl
  | .serviceEnter _ => .checked (writeField_retains _ _ _) fun _ => rfl
  | .serviceExit _ => .checked (writeField_retains _ _ _) fun _ => rfl
  | .deviceStateEvaluation => .next (.whenAwake (.retains foot_deviceStateEvaluation (by decide))) fun _ => rfl
  | .thermalDerating _ _ => .next (.whenAwake (thermalDerating_retains _ _)) fun _ => rfl
  | .tbStart _ _ => .checked (executing_retains.hostWrite _ _) fun _ => rfl
  | .tbStop _ _ => .checked (writeField_retains _ _ _) fun _ => rfl
  | .restartCut _ _ => .checked (.onIsland _ (.retains (foot_restartCut _ _) (by decide))) fun _ => rfl
  | .edgeCompare _ _ => .checked (.onIsland _ (.retains (foot_edgeCompare _ _) (by decide))) fun _ => rfl
  | .reload _ => .next (.onIsland _ (.settled (.retains (foot_reloadAll _) (by decide)))) fun _ => rfl
  | .commitDeadline _ => .next (.onIsland _ (.retains (foot_commitDeadline _) (by decide))) fun _ => rfl
  | .triggerCompare _ _ => .next (.onIsland _ (.retains (foot_triggerCompare _ _) (by decide))) fun _ => rfl
  | .delayCalibration _ _ => .next (.onIsland _ (.retains (foot_delayCalibration _ _) (by decide))) fun _ => rfl
  | .delayRegMismatch _ => .next (.onIsland _ (.retains (foot_delayRegMismatch _) (by decide))) fun _ => rfl
  | .scbMismatch _ => .next (.whenAwake (.retains (foot_scbMismatch _) (by decide))) fun _ => rfl
  | .cellTrip _ _ _ => .next
      (.whenAwake (retaining.bind (.watchCharge (.retains (foot_cellTrip _ _ _) (by decide))) fun _ =>
        .retains foot_showLevel (by decide))) fun _ => rfl
  | .filteredTrip _ _ => .next (.onIsland _ (.watchCharge (.retains (foot_filteredTrip _ _) (by decide)))) fun _ => rfl
  | .cbcEarlyEnd _ _ => .next (.whenAwake (.retains (foot_cbcEarlyEnd _ _) (by decide))) fun _ => rfl
  | .blankWindowEnd _ => .next (.whenAwake (.watchCharge (.retains (foot_blankWindowEnd _) (by decide)))) fun _ => rfl
  | .thresholdWrite _ _ _ => .checked (executing_retains.hostWrite _ _) fun _ => rfl
  | .tripLatchClear _ _ => .checked (writeField_retains _ _ _) fun _ => rfl
  | .rotationSlot _ _ => .next (.onIsland _ (.retains (foot_rotationSlot _ _) (by decide))) fun _ => rfl
  | .cmpMirror _ _ => .next (.onIsland _ (.retains (foot_cmpMirror _ _) (by decide))) fun _ => rfl
  | .bootstrapRefresh _ => .next (.onIsland _ (.retains (foot_bootstrapRefresh _) (by decide))) fun _ => rfl
  | .bstUv _ _ => .next (.whenAwake (.retains (foot_bstComparator _ _) (by decide))) fun _ => rfl
  | .drvShort _ _ _ => .next (.whenAwake (.retains (foot_drvShort _ _ _) (by decide))) fun _ => rfl
  | .extDrvFault _ => .next (.whenAwake (.retains (foot_extDrvFault _) (by decide))) fun _ => rfl
  | .fltRelease _ => .next (.whenAwake (.retains (foot_fltRelease _) (by decide))) fun _ => rfl
  | .drvNotReady _ _ => .next (.whenAwake (.retains (foot_drvReady _ _) (by decide))) fun _ => rfl
  | .vdrvUv => .next (.whenAwake (.retains foot_vdrvUv (by decide))) fun _ => rfl
  | .vdrvRecover => .next (.whenAwake (.retains foot_vdrvRecover (by decide))) fun _ => rfl
  | .ilkDiagFail _ => .next (.whenAwake (.retains (foot_ilkDiagFail _) (by decide))) fun _ => rfl
  | .sarTrigger _ _ => .next (.onIsland _ (.settled (.retains (foot_sarTrigger _ _) (by decide)))) fun _ => rfl
  | .conversionResult _ _ => .checked (.onIsland _ (.retains (foot_conversionResult _ _) (by decide))) fun _ => rfl
  | .sarCheckSlot _ => .checked (.onIsland _ (.retains (foot_sarCheckSlot _) (by decide))) fun _ => rfl
  | .refSettled _ => .next (.onIsland _ (.retains (foot_refSettle _) (by decide))) fun _ => rfl
  | .meaRefFault _ => .next (.onIsland _ (.retains (foot_refFault _) (by decide))) fun _ => rfl
  | .meaWindow => .next (.whenAwake (.retains foot_windowEvents (by decide))) fun _ => rfl
  | .subwindowEnd _ => .checked (.onIsland _ (.retains (foot_subwindowEnd _) (by decide))) fun _ => rfl
  | .mainsCrossing _ _ _ _ => .next (.onIsland _ (.retains (foot_mainsCrossing _ _ _ _) (by decide))) fun _ => rfl
  | .mainsTimeout => .next (.onIsland _ (.retains foot_mainsTimeout (by decide))) fun _ => rfl
  | .rateGroupEvaluation _ _ => .next (.onIsland _ (.retains (foot_rateGroupEvaluation _ _) (by decide))) fun _ => rfl
  | .commitStrobe _ => .next (.onIsland _ (.retains (foot_commitStrobe _) (by decide))) fun _ => rfl
  | .latReevaluation _ _ => .next (.onIsland _ (.retains (foot_latReevaluation _ _) (by decide))) fun _ => rfl
  | .latTargetWrite _ _ _ => .checked (executing_retains.hostWrite _ _) fun _ => rfl
  | .fieldEvaluation _ _ => .next (.onIsland _ (.retains (foot_fieldEvaluation _ _) (by decide))) fun _ => rfl
  | .tqReqWrite _ _ _ => .checked (executing_retains.hostWrite _ _) fun _ => rfl
  | .thermalFactorUpdate => .next (.whenAwake (.retains foot_thermalFactor (by decide))) fun _ => rfl
  | .dclEvaluation => .next (.onIsland _ (.retains foot_dclEvaluation (by decide))) fun _ => rfl
  | .dclSenseLost => .next (.onIsland _ (.retains foot_senseLost (by decide))) fun _ => rfl
  | .chopperCheck _ => .next (.onIsland _ (.retains (foot_chopperCheck _) (by decide))) fun _ => rfl
  | .chopFaultyClear _ => .checked (writeField_retains _ _ _) fun _ => rfl
  | .contOpen _ => .checked (writeField_retains _ _ _) fun _ => rfl
  | .positionLatch _ _ _ => .next
      (.onIsland _ (retaining.bind (.retains (foot_positionLatch _ _ _) (by decide)) fun _ =>
        retaining.when (.retains (foot_slsAt _) (by decide)))) fun _ => rfl
  | .resolverUpdate _ _ _ => .checked (.onIsland _ (.retains (foot_resolverUpdate _ _ _) (by decide))) fun _ => rfl
  | .resExc _ => .next (.onIsland _ (.retains (foot_resExc _) (by decide))) fun _ => rfl
  | .ssiWord _ _ => .next (.onIsland _ (.retains (foot_ssiWord _ _) (by decide))) fun _ => rfl
  | .quadTransition _ _ _ _ _ => .next (.onIsland _ (.retains (foot_quadTransition _ _ _ _ _) (by decide))) fun _ => rfl
  | .quadIndex _ _ _ => .next (.onIsland _ (.retains (foot_quadIndex _ _ _) (by decide))) fun _ => rfl
  | .hallChange _ _ _ _ => .next (.onIsland _ (.retains (foot_hallChange _ _ _ _) (by decide))) fun _ => rfl
  | .zeroSpeedTimeout _ _ => .next (.onIsland _ (.retains (foot_zeroSpeed _ _) (by decide))) fun _ => rfl
  | .pcmpArm _ _ _ _ => .checked (executing_retains.hostWrite _ _) fun _ => rfl
  | .puFaultClear _ _ => .checked (writeField_retains _ _ _) fun _ => rfl
  | .ptFaultClear _ _ => .checked (writeField_retains _ _ _) fun _ => rfl
  | .actuatorEvaluation _ => .next (.onIsland _ (.retains (foot_actuatorEvaluation _) (by decide))) fun _ => rfl
  | .cplEvaluation => .next (.onIsland _ (.followed (.retains foot_cplEvaluation (by decide)))) fun _ => rfl
  | .actGo _ _ _ => .checked (executing_retains.hostWrite _ _) fun _ => rfl
  | .actStop _ _ => .checked (writeField_retains _ _ _) fun _ => rfl
  | .actMoveTimeout _ => .next (.onIsland _ (.retains (foot_moveTimeout _) (by decide))) fun _ => rfl
  | .pumpCatchRestart => .next (.onIsland _ (.retains foot_pumpRestart (by decide))) fun _ => rfl
  | .cplLock _ => .checked (writeField_retains _ _ _) fun _ => rfl
  | .cplUnlock _ => .checked (writeField_retains _ _ _) fun _ => rfl
  | .cplStop _ => .checked (writeField_retains _ _ _) fun _ => rfl
  | .cplReverseDelay => .next (.onIsland _ (.followed (.retains foot_cplReverse (by decide)))) fun _ => rfl
  | .cplSwChange _ => .next (.onIsland _ (.followed (.retains (foot_cplSwitch _) (by decide)))) fun _ => rfl
  | .cplTimeout => .next (.onIsland _ (.followed (.retains foot_cplTimeout (by decide)))) fun _ => rfl
  | .afeTrackingEvaluation => .next (.onIsland _ (.retains foot_trackingEvaluation (by decide))) fun _ => rfl
  | .afeEvaluation => .next (.onIsland _ (.retains foot_afeEvaluation (by decide))) fun _ => rfl
  | .pilotAccept _ _ _ _ _ => .next (.whenAwake (.retains (foot_pilotAccept _ _ _ _ _) (by decide))) fun _ => rfl
  | .proximityAccept _ _ => .next (.whenAwake (.retains (foot_proximityAccept _ _) (by decide))) fun _ => rfl
  | .chgButtonPress _ => .next (.whenAwake (.retains (foot_buttonPress _) (by decide))) fun _ => rfl
  | .chgStart _ => .checked (writeField_retains _ _ _) fun _ => rfl
  | .chgStop _ => .checked (writeField_retains _ _ _) fun _ => rfl
  | .chgUnlock _ => .checked (writeField_retains _ _ _) fun _ => rfl
  | .connectingStep _ _ _ _ => .next (.whenAwake (.retains (foot_connectingStep _ _ _ _) (by decide))) fun _ => rfl
  | .chargeLimitUpdate => .next (.whenAwake (.retains foot_chargeLimits (by decide))) fun _ => rfl
  | .normalStopComplete => .next (.whenAwake (.retains foot_normalStopComplete (by decide))) fun _ => rfl
  | .relayReleaseCheck _ => .next (.whenAwake (.retains (foot_relayReleaseCheck _) (by decide))) fun _ => rfl
  | .energyAccumulate => .next (.onIsland _ (.retains foot_energyAccumulate (by decide))) fun _ => rfl
  | .intervalRecord => .next (.onIsland _ (.retains foot_intervalRecord (by decide))) fun _ => rfl
  | .registerCommit => .next (.onIsland _ (.retains foot_registerCommit (by decide))) fun _ => rfl
  | .recordAck _ _ => .checked (executing_retains.hostWrite _ _) fun _ => rfl
  | .timeSet _ _ => .checked (executing_retains.hostWrite _ _) fun _ => rfl
  | .thresholdUpdate => .next (.onIsland _ (.retains foot_thresholdUpdate (by decide))) fun _ => rfl
  | .hiccupEnd => .next (.onIsland _ (.retains foot_hiccupEnd (by decide))) fun _ => rfl
  | .vsetWrite _ _ => .checked (executing_retains.hostWrite _ _) fun _ => rfl
  | .sourceClassify => .next (.whenAwake (.retains foot_sourceClassify (by decide))) fun _ => rfl
  | .chargeStart _ => .checked (writeField_retains _ _ _) fun _ => rfl
  | .chargeStop _ => .checked (writeField_retains _ _ _) fun _ => rfl
  | .bswClose _ => .checked (writeField_retains _ _ _) fun _ => rfl
  | .bswOpen _ => .checked (writeField_retains _ _ _) fun _ => rfl
  | .ship _ => .checked (writeField_retains _ _ _) fun _ => rfl
  | .timerReset _ => .checked (writeField_retains _ _ _) fun _ => rfl
  | .chargerRest => .next (.whenAwake (.retains foot_chargerRest (by decide))) fun _ => rfl
  | .restEnd => .next (.whenAwake (.retains foot_restEnd (by decide))) fun _ => rfl
  | .cvTermination => .next (.whenAwake (.retains foot_cvTermination (by decide))) fun _ => rfl
  | .lvpTimer => .next (.whenAwake (.retains foot_timerExpired (by decide))) fun _ => rfl
  | .shipExit _ => .next (shipExit_retains _) fun _ => rfl
  | .longPress _ => .next (.whenAwake (.retains (foot_longPress _) (by decide))) fun _ => rfl
  | .longPressReopen => .next (.whenAwake (longPressReopen_retains)) fun _ => rfl
  | .intStatClear _ _ => .checked (executing_retains.hostWrite _ _) fun _ => rfl
  | .safeInputDemand _ _ => .next (.whenAwake (.retains (foot_inputLow _ _) (by decide))) fun _ => rfl
  | .safeInputRelease _ => .next (.whenAwake (.retains (foot_inputHigh _) (by decide))) fun _ => rfl
  | .testPulse _ _ _ _ => .next (.whenAwake (.retains (foot_testPulse _ _ _ _) (by decide))) fun _ => rfl
  | .safInDisc _ _ => .next (.whenAwake (.retains (foot_inputDisc _ _) (by decide))) fun _ => rfl
  | .safSsupOc _ => .next (.whenAwake (.retains (foot_supplyOc _) (by decide))) fun _ => rfl
  | .ssupOcClear _ _ => .checked (writeField_retains _ _ _) fun _ => rfl
  | .sinFaultClear _ _ => .checked (writeField_retains _ _ _) fun _ => rfl
  | .heartbeatLost => .next (.whenAwake (.retains foot_heartbeatLost (by decide))) fun _ => rfl
  | .logicMismatch => .next (.whenAwake (.retains foot_logicMismatch (by decide))) fun _ => rfl
  | .safeMessageCopy _ _ => .checked
      (.whenAwake (.read fun _ => retaining.when (.retains (foot_safeCopy _ _) (by decide)))) fun _ => rfl
  | .skewExpiry _ => .next (.onCd0 (.retains (foot_skewExpiry _) (by decide))) fun _ => rfl
  | .statusMessageSend => .next (.onCd0 (.retains foot_statusSend (by decide))) fun _ => rfl
  | .safMsgTimeout => .next (.onCd0 (.retains foot_messageTimeout (by decide))) fun _ => rfl
  | .hostReq _ _ => .checked (executing_retains.hostWrite _ _) fun _ => rfl
  | .ss1Timeout _ => .next (.onCd0 (.retains (foot_ss1Timeout _) (by decide))) fun _ => rfl
  | .safeParkRetry => .next (.onCd0 (.retains foot_parkRetry (by decide))) fun _ => rfl
  | .safParkFail => .next (.onCd0 (.retains foot_parkFail (by decide))) fun _ => rfl
  | .lastingClear _ _ _ => .checked (executing_retains.hostWrite _ _) fun _ => rfl
  | .chdLockstep _ _ => .next (.whenAwake (.settled (lockstepMismatch_retains _ _))) fun _ => rfl
  | .chordRestart _ _ _ _ => .next (.whenAwake (.resumed (restartPair_retains _ _ _ _))) fun _ => rfl
  | .checkpoint _ _ => .next (.whenAwake (.settled (.retains (foot_takeCheckpoint _ _) (by decide)))) fun _ => rfl
  | .sramPatrol _ => .checked (.onIsland _ (retaining.forM (fun _ => .retains (foot_patrolWord _ _) (by decide)) _)) fun _ => rfl
  | .mergeWriteback => .next (.onIsland _ (.retains foot_mergeWriteBack (by decide))) fun _ => rfl
  | .canFrameReceived _ _ _ => .checked (canReceived_retains _ _ _) fun _ => rfl
  | .canFrameTransmitted _ _ => .next (.onIsland _ (canTransmitted_retains _ _)) fun _ => rfl
  | .busState _ _ _ _ => .next (.onIsland _ (.retains (foot_busState _ _ _ _) (by decide))) fun _ => rfl
  | .busOff _ _ => .next (.onIsland _ (.retains (foot_busOff _ _) (by decide))) fun _ => rfl
  | .busOffRecovery _ => .next (.onIsland _ (.retains (foot_busRecovered _) (by decide))) fun _ => rfl
  | .recover _ _ => .checked (writeField_retains _ _ _) fun _ => rfl
  | .rxSelect _ _ _ => .checked (executing_retains.hostWrite _ _) fun _ => rfl
  | .controllerEnable _ _ _ => .checked (executing_retains.hostWrite _ _) fun _ => rfl
  | .networkTimeSet _ _ => .checked (executing_retains.hostWrite _ _) fun _ => rfl
  | .referenceMessageSend => .next (.onIsland _ (.retains foot_sendReference (by decide))) fun _ => rfl
  | .referenceMessage _ _ _ _ => .next
      (.onIsland _ (.read fun _ => retaining.when (.retains (foot_takeReference _ _ _ _) (by decide)))) fun _ => rfl
  | .busTimeLoss => .next (.onIsland _ (.retains foot_busTimeLoss (by decide))) fun _ => rfl
  | .ethernetFrame _ _ => .checked (ethReceived_retains _ _) fun _ => rfl
  | .netLink _ _ => .next (.onIsland _ (.retains (foot_netLink _ _) (by decide))) fun _ => rfl
  | .netPlca _ => .next (.onIsland _ (.retains (foot_netPlca _) (by decide))) fun _ => rfl
  | .arpAge _ _ => .checked (.onIsland _ (.retains (foot_arpAge _ _) (by decide))) fun _ => rfl
  | .arpRetry => .next (.onIsland _ (.retains foot_arpRetry (by decide))) fun _ => rfl
  | .interfaceEnable _ _ _ => .checked (executing_retains.hostWrite _ _) fun _ => rfl
  | .chipSelectFrame _ _ => .next (.retains (foot_chipSelect _ _) (by decide)) fun _ => rfl
  | .unknownOpcode _ _ => .checked (retaining.bind (executing_retains.receiveBytes _ _) fun _ => executing_retains.takeGo) fun _ => rfl
  | .powerOn => .next (powerOn_retains) fun _ => rfl
  | .regionWipeComplete _ => .next (.whenAwake (.settled (regionWipeComplete_retains _))) fun _ => rfl
  | .ssiEmuClock _ _ _ => .next
      (.onIsland _ (.read fun _ => retaining.bind (.retains (foot_posTime _ _) (by decide)) fun _ =>
        .retains (foot_ssiEmuClock _ _ _) (by decide))) fun _ => rfl
  | .quadEmuCount _ _ => .next
      (.onIsland _ (.read fun _ => retaining.bind (.retains (foot_posTime _ _) (by decide)) fun _ =>
        .retains (foot_quadEmuCount _ _) (by decide))) fun _ => rfl
  | .foldback => .next (.whenAwake (.retains foot_foldback (by decide))) fun _ => rfl
  | .weldInhibitClear => .next (.whenAwake (.retains foot_weldInhibitClear (by decide))) fun _ => rfl

/-- Settles O14: a step is a millisecond or the command at the front of the queue, and both keep a retired life cycle. -/
theorem retiredStaysRetired : Obligations.Retired_stays_retired := by
  unfold Obligations.Retired_stays_retired
  intro s t hst htrans h
  cases hs : s.pending with
  | nil =>
    simp only [step, hs] at h
    obtain rfl : tick.run s = t := Host.Outcome.next.inj h
    exact (tick_retains s).2 ⟨hst, htrans⟩
  | cons i rest =>
    simp only [step, hs] at h
    exact (retained i { s with pending := rest } t h).retired ⟨hst, htrans⟩

end Sys2Proof.Machine
end

section
/-! SUPPORT for O52: the words of the safe inputs, of their supplies and of the functions' configuration, and the state of the
functions that stand aside, along everything that triggers and withdraws other functions. -/

namespace Sys2Proof.Machine

/-- The words that no safety function writes: its configuration, the safe inputs and their supplies. -/
def InputWord (a : Nat) : Prop := (0x100100 ≤ a ∧ a < 0x100140) ∨ (0x100300 ≤ a ∧ a < 0x100350)

theorem SIN_inputWord {i : Nat} (hi : i < 8) : InputWord (SAF.SIN i) := by
  simp only [InputWord, SAF.SIN, arr, Nat.zero_le, hi, and_self, if_true]
  omega

theorem SSUP_inputWord {k : Nat} (hk : k < 4) : InputWord (SAF.SSUP k) := by
  simp only [InputWord, SAF.SSUP, arr, Nat.zero_le, hk, and_self, if_true]
  omega

theorem FUNC_CFG_inputWord {f : Nat} (h1 : 1 ≤ f) (h8 : f < 8) : InputWord (SAF.FUNC_CFG f) := by
  simp only [InputWord, SAF.FUNC_CFG, arr, h1, h8, and_self, if_true]
  omega

theorem InputWord.page {a : Nat} (h : InputWord a) : a / 65536 = 16 := by
  unfold InputWord at h
  omega

theorem FUNC_STAT_apart (f : Nat) {a : Nat} (h : InputWord a) : a ≠ SAF.FUNC_STAT f := by
  unfold InputWord at h
  unfold SAF.FUNC_STAT arr
  split <;> omega

theorem GRP_apart (g : Nat) {a : Nat} (h : InputWord a) : a ≠ SAF.GRP g := by
  unfold InputWord at h
  unfold SAF.GRP arr
  split <;> omega

theorem STATUS_apart_input {a : Nat} (h : InputWord a) : a ≠ SAF.STATUS := by
  unfold InputWord at h
  unfold SAF.STATUS
  omega

theorem FUNC_STAT_inj {f f' : Nat} (h1 : 1 ≤ f) (h8 : f < 8) (h : f ≠ f') : SAF.FUNC_STAT f ≠ SAF.FUNC_STAT f' := by
  simp only [SAF.FUNC_STAT, arr, h1, h8, and_self, if_true]
  split <;> omega

theorem FUNC_STAT_ne_GRP {f : Nat} (h1 : 1 ≤ f) (h8 : f < 8) (g : Nat) : SAF.FUNC_STAT f ≠ SAF.GRP g := by
  simp only [SAF.FUNC_STAT, SAF.GRP, arr, h1, h8, and_self, if_true]
  split <;> omega

theorem FUNC_STAT_ne_STATUS (f : Nat) : SAF.FUNC_STAT f ≠ SAF.STATUS := by
  unfold SAF.FUNC_STAT SAF.STATUS arr
  split <;> omega

/-- The inputs, their supplies and the configuration stand; so does every function that `p` names, and the checking of
the inputs. -/
structure Aside (p : Nat → Prop) (s t : State) : Prop where
  rd : ∀ a, InputWord a → t.rd a = s.rd a
  stat : ∀ f, 1 ≤ f → f < 8 → p f → t.rd (SAF.FUNC_STAT f) = s.rd (SAF.FUNC_STAT f)
  func : ∀ f, p f → t.func f = s.func f
  sins : t.hid.saf.sins = s.hid.saf.sins

theorem aside (p : Nat → Prop) : Ongoing (Aside p) :=
  ⟨fun _ => ⟨fun _ _ => rfl, fun _ _ _ _ => rfl, fun _ _ => rfl, rfl⟩,
    fun h h' => ⟨fun a ha => (h'.rd a ha).trans (h.rd a ha), fun f h1 h8 hf => (h'.stat f h1 h8 hf).trans (h.stat f h1 h8 hf),
      fun f hf => (h'.func f hf).trans (h.func f hf), h'.sins.trans h.sins⟩⟩

theorem Aside.f {p : Nat → Prop} {s t : State} (h : Aside p s t) (x : FldAt) (hx : InputWord x.addr) : t.f x = s.f x :=
  f_of_rd_eq x (h.rd _ hx)

section
variable {p : Nat → Prop}

theorem M.Along.aside {α : Type} {P : List Nat} {m : M α} (h : m.In P) (hn : 16 ∉ P ∧ 49 ∉ P ∧ 99 ∉ P) : m.Along (Aside p) :=
  .ofIn h fun _ _ hs => by
    have hsaf : _ = _ := hs.hid hn.2.2 49 hn.2.1
    exact ⟨fun a ha => hs.rd hn.2.2 a (ha.page ▸ hn.1), fun f _ _ _ => hs.rd hn.2.2 _ (SAF.FUNC_STAT_page f ▸ hn.1),
      fun f _ => by simp only [State.func, hsaf], by rw [hsaf]⟩

theorem M.Along.asideWf {x : FldAt} (v : Nat) (hin : ∀ a, InputWord a → a ≠ x.addr)
    (hstat : ∀ f, 1 ≤ f → f < 8 → p f → SAF.FUNC_STAT f ≠ x.addr) : (wf x v).Along (Aside p) := .read fun _ => .act fun s => by
  have hsaf : ∀ w, ((Act.reg x.addr w).apply s).hid = s.hid := fun w => apply_reg_hid ..
  exact ⟨fun a ha => rd_apply_reg_other _ _ _ s (hin a ha), fun f h1 h8 hf => rd_apply_reg_other _ _ _ s (hstat f h1 h8 hf),
    fun f _ => by simp only [State.func, hsaf], by rw [hsaf]⟩

theorem M.Along.asideHid {g : Hidden → Hidden} (hf : ∀ x, (g x).saf.funcs = x.saf.funcs) (hs : ∀ x, (g x).saf.sins = x.saf.sins) :
    (hid g).Along (Aside p) := .act fun s =>
  ⟨fun _ _ => rfl, fun _ _ _ _ => rfl, fun f _ => congrArg (fun l : List (Nat × FuncSt) => mget ({} : FuncSt) l f) (hf s.hid), hs s.hid⟩

theorem M.Along.asideGrp {x : FldAt} {g : Nat} (v : Nat) (hx : x.addr = SAF.GRP g) : (wf x v).Along (Aside p) :=
  .asideWf v (fun _ ha => hx ▸ GRP_apart g ha) fun _ h1 h8 _ => hx ▸ FUNC_STAT_ne_GRP h1 h8 g

theorem M.Along.asideStatus {x : FldAt} (v : Nat) (hx : x.addr = SAF.STATUS) : (wf x v).Along (Aside p) :=
  .asideWf v (fun _ ha => hx ▸ STATUS_apart_input ha) fun _ _ _ _ => hx ▸ FUNC_STAT_ne_STATUS _

/-! ## Forces and effects -/

theorem showForce_aside (g : Nat) : (showForce g).Along (Aside p) := by
  have k := aside p
  exact .read fun _ => k.bind (.asideGrp _ rfl) fun _ => k.when <| k.bind (.asideGrp _ rfl) fun _ =>
    k.bind (.aside (foot_updGrp _ _) (by decide)) fun _ => .aside (foot_applyPattern _ _) (by decide)

theorem forceGroup_aside (g code cause : Nat) : (forceGroup g code cause).Along (Aside p) := by
  have k := aside p
  have hgrp : ∀ f, (updGrp g f).Along (Aside p) := fun f => .aside (foot_updGrp g f) (by decide)
  exact .read fun _ => .ite (k.bind (.aside (foot_dropGroup g) (by decide)) fun _ => k.bind (.aside (foot_endSs1 g) (by decide)) fun _ =>
    k.bind (hgrp _) fun _ => k.bind (.aside (foot_setGState _ _ _) (by decide)) fun _ => showForce_aside g) <|
    k.when <| k.bind (hgrp _) fun _ => showForce_aside g

theorem forceAct_aside (g code cause : Nat) : (forceAct g code cause).Along (Aside p) := .read fun _ =>
  (aside p).bind (forceGroup_aside _ _ _) fun _ => (aside p).when (.aside (foot_emergencyStop _ _) (by decide))

theorem releaseForce_aside (g code : Nat) : (releaseForce g code).Along (Aside p) := by
  have k := aside p
  exact .read fun _ => k.when <| k.bind (.aside (foot_updGrp _ _) (by decide)) fun _ =>
    .ite (k.bind (.asideGrp _ rfl) fun _ => .asideGrp _ rfl) (showForce_aside g)

theorem funcEffect_aside (f g cause : Nat) : (funcEffect f g cause).Along (Aside p) := by
  have k := aside p
  refine .read fun s => ?_
  split
  · exact forceAct_aside _ _ _
  · exact k.when <| .ite (k.when (.aside (foot_updGrp g _) (by decide))) (forceAct_aside _ _ _)
  · exact forceAct_aside _ _ _
  · exact forceAct_aside _ _ _
  · exact k.pure _

theorem funcEvent_aside (f : Nat) (on : Bool) : (funcEvent f on).Along (Aside p) := .aside (foot_funcEvent f on) (by decide)

theorem funcStart_aside (f : Nat) : (funcStart f).Along (Aside p) := by
  have k := aside p
  have hpark : ∀ s : State, (hid fun h => { h with saf := { h.saf with parkOk := false, parkAt := some s.ms } }).Along (Aside p) :=
    fun _ => .asideHid (fun _ => rfl) fun _ => rfl
  exact k.thenMore (.aside foot_releaseRelays (by decide)) fun _ => .read fun s => .ite (hpark s) (k.pure _)

/-! ## A function beside those that stand aside -/

variable {f : Nat} (hf : ¬ p f)
include hf

theorem M.Along.asideStat {x : FldAt} (v : Nat) (hx : x.addr = SAF.FUNC_STAT f) : (wf x v).Along (Aside p) :=
  .asideWf v (fun _ ha => hx ▸ FUNC_STAT_apart f ha) fun _ h1 h8 hp => hx ▸ FUNC_STAT_inj h1 h8 fun he => hf (he ▸ hp)

theorem updFunc_aside (g : FuncSt → FuncSt) : (updFunc f g).Along (Aside p) := .act fun _ =>
  ⟨fun _ _ => rfl, fun _ _ _ _ => rfl, fun f' hp => mget_mupd_other _ _ _ _ _ fun he : f' = f => hf (he ▸ hp), rfl⟩

theorem trigger_aside (src key : Nat) (gs : List Nat) (cause : Nat) : (trigger f src key gs cause).Along (Aside p) := by
  have k := aside p
  have heffects : (gs.forM fun g => funcEffect f g cause).Along (Aside p) := k.forM (fun g => funcEffect_aside f g cause) gs
  exact .read fun _ => k.when <| k.bind (updFunc_aside hf _) fun _ => k.bind (.asideStat hf _ rfl) fun _ =>
    k.bind (.asideStat hf _ rfl) fun _ => .ite (k.bind (.asideStat hf _ rfl) fun _ => k.bind (.asideStatus _ rfl) fun _ =>
      k.bind (.read fun _ => k.when (.asideStat hf _ rfl)) fun _ => k.bind (funcEvent_aside f true) fun _ =>
      k.bind (funcStart_aside f) fun _ => heffects) heffects

theorem releaseFunc_aside : (releaseFunc f).Along (Aside p) := by
  have k := aside p
  exact .read fun _ => k.bind (.asideStat hf _ rfl) fun _ => k.bind (.asideStat hf _ rfl) fun _ => k.bind (.asideStatus _ rfl)
    fun _ => k.bind (.asideStat hf _ rfl) fun _ => k.bind (funcEvent_aside f false) fun _ => k.bind (updFunc_aside hf _) fun _ =>
    k.thenMore (k.forM (fun _ => .aside (foot_endSs1 _) (by decide)) _) fun _ =>
    k.forM (fun _ => .read fun _ => k.when (releaseForce_aside _ _)) _

theorem withdraw_aside (src key : Nat) : (withdraw f src key).Along (Aside p) := by
  have k := aside p
  exact .read fun _ => k.when <| k.bind (updFunc_aside hf _) fun _ => .read fun _ => k.when <|
    .ite (releaseFunc_aside hf) (.asideStat hf _ rfl)

theorem followTrigger_aside (src : Nat) (asks : Bool) : (followTrigger f src asks).Along (Aside p) := .read fun _ =>
  .ite ((aside p).when (trigger_aside hf _ _ _ _)) (withdraw_aside hf _ _)

theorem syncFunc_aside : (syncFunc f).Along (Aside p) := by
  have k := aside p
  refine .read fun _ => k.bind (followTrigger_aside hf _ _) fun _ => .read fun _ => k.bind (followTrigger_aside hf _ _) fun _ =>
    .read fun _ => k.bind (followTrigger_aside hf _ _) fun _ => .read fun _ => ?_
  by_cases h4 : f = 4
  · subst h4
    exact .ite (.ite (k.when (trigger_aside hf _ _ _ _)) (k.when (releaseFunc_aside hf))) (k.pure _)
  · rw [if_neg h4]
    exact k.pure _

end

end Sys2Proof.Machine
end

section
/-! SUPPORT for O52: a function whose input asks for it becomes and stays active. -/

namespace Sys2Proof.Machine

theorem FUNC_STAT_real : ∀ f : Fin 8, f ≠ 0 → (SAF.FUNC_STAT.ACTIVE f).Real ∧ (SAF.FUNC_STAT.ACK_WAIT f).Real := by
  decide

/-- A field of a word is apart from the fields below it. -/
theorem FldAt.Real.above {x y : FldAt} (h : x.Real) (hlt : y.hi < x.lo) : x.Apart y := .inr ⟨h, .inr hlt⟩

/-- A function that acts on its inputs: the trigger stands, it shows itself active, and it waits for no acknowledgement. -/
structure ActsOnInput (f : Nat) (s : State) : Prop where
  trig : bit (s.func f).trig 0 = true
  active : s.f (SAF.FUNC_STAT.ACTIVE f) = 1
  ack : s.f (SAF.FUNC_STAT.ACK_WAIT f) = 0

theorem ActsOnInput.kept {p : Nat → Prop} {f : Nat} {s t : State} (h : ActsOnInput f s) (h1 : 1 ≤ f) (h8 : f < 8) (hf : p f)
    (ha : Aside p s t) : ActsOnInput f t :=
  ⟨(congrArg (fun r => bit r.trig 0) (ha.func f hf)).trans h.trig, (f_of_rd_eq (SAF.FUNC_STAT.ACTIVE f) (ha.stat f h1 h8 hf)).trans h.active,
    (f_of_rd_eq (SAF.FUNC_STAT.ACK_WAIT f) (ha.stat f h1 h8 hf)).trans h.ack⟩

theorem func_wf (f : Nat) (x : FldAt) (v : Nat) : (wf x v).Fixes fun s => s.func f :=
  .read fun _ => .act fun _ => congrArg (fun y : Hidden => mget ({} : FuncSt) y.saf.funcs f) (apply_reg_hid ..)

theorem updFunc_sets (f : Nat) (g : FuncSt → FuncSt) (s : State) : (updFunc f g).Ends s fun _ t =>
    t.func f = g (s.func f) ∧ ∀ x, t.f x = s.f x :=
  .ofDoes (M.does_hid _ s) ⟨mget_mupd_same _ _ _ _, fun _ => rfl⟩

/-- What triggers a function makes it active, whatever else does. -/
theorem trigger_acts (f : Fin 8) (hf : f ≠ 0) (src : Nat) (gs : List Nat) (cause : Nat) {s : State}
    (hen : s.f (SAF.FUNC_CFG.EN f) = 1) (ht : src = 0 ∨ bit (s.func f).trig 0 = true) :
    (trigger f src 0 gs cause).Ends s fun _ t => ActsOnInput f t := by
  have h1 : 1 ≤ f.val := Nat.pos_of_ne_zero fun h => hf (Fin.ext h)
  obtain ⟨hact, hack⟩ := FUNC_STAT_real f hf
  have hkeep : ∀ {m : M Unit} {u : State}, m.Along (Aside fun _ => True) → ActsOnInput f u → m.Ends u fun _ t => ActsOnInput f t :=
    fun hm hu => .ofAlong hm fun _ _ ha => hu.kept h1 f.isLt trivial ha
  have heffects : ∀ {u : State}, ActsOnInput f u → (gs.forM fun g => funcEffect f g cause).Ends u fun _ t => ActsOnInput f t :=
    hkeep ((aside _).forM (fun g => funcEffect_aside f g cause) gs)
  have hput : ∀ {u : State} (x : FldAt) (v : Nat), (SAF.FUNC_STAT.ACTIVE f).Apart x → (SAF.FUNC_STAT.ACK_WAIT f).Apart x →
      ActsOnInput f u → (wf x v).Ends u fun _ t => ActsOnInput f t := fun {u} x v ha hb hu =>
    .ofFixes ((func_wf f x v).prod ((M.Fixes.wfApart ha v).prod (M.Fixes.wfApart hb v))) fun _ t ht => by
      simp only [Prod.mk.injEq] at ht
      exact ⟨(congrArg (fun r => bit r.trig 0) ht.1).trans hu.trig, ht.2.1.trans hu.active, ht.2.2.trans hu.ack⟩
  have htrig : bit (setBit (s.func f).trig src) 0 = true := by
    rw [bit_setBit]
    rcases ht with rfl | ht
    · simp
    · simp [ht]
  have hstart : ∀ {u : State}, ActsOnInput f u → (do
      wf SAF.STATUS.ACTIVE (setBit (s.f SAF.STATUS.ACTIVE) f)
      inc (SAF.FUNC_STAT.COUNT f)
      funcEvent f true
      funcStart f
      gs.forM fun g => funcEffect f g cause).Ends u fun _ t => ActsOnInput f t := fun hu =>
    .seq (hput _ _ (.inl (FUNC_STAT_ne_STATUS f)) (.inl (FUNC_STAT_ne_STATUS f)) hu) fun _ v hv =>
    .seq (Q := fun _ w => ActsOnInput f w) (.read <| .ite (hput _ _ (hact.above (show 15 < 31 by decide)) (hack.above (show 15 < 30 by decide)) hv)
      ⟨(), v, M.does_pure () v, hv⟩) fun _ w hw =>
    .seq (hkeep (funcEvent_aside f true) hw) fun _ x hx => .seq (hkeep (funcStart_aside f) hx) fun _ _ hy => heffects hy
  have hon : s.f (SAF.FUNC_STAT.ACTIVE f) ≠ 0 → s.f (SAF.FUNC_STAT.ACTIVE f) = 1 := fun h => by
    have := f_lt (SAF.FUNC_STAT.ACTIVE f) s
    simp only [SAF.FUNC_STAT.ACTIVE] at this h ⊢
    omega
  refine .read <| .ite_pos (.inr hen) <| .seq (updFunc_sets f _ s) fun _ u hu => ?_
  have hfun : bit (u.func f).trig 0 = true := by
    rw [hu.1]
    exact htrig
  refine .after (π := fun v => (v.func f, v.f (SAF.FUNC_STAT.ACTIVE f))) ((func_wf f _ _).prod (.wfApart (hact.above (show 23 < 31 by decide)) _))
    fun _ v hv => .seq (wf_sets hack 0 v |>.along (.ofFixes (func_wf f _ _) fun _ _ h => h)) fun _ w hw => ?_
  simp only [Prod.mk.injEq] at hv
  obtain ⟨⟨hwait, -, hapart, -⟩, hwfun⟩ := hw
  have hactive : w.f (SAF.FUNC_STAT.ACTIVE f) = s.f (SAF.FUNC_STAT.ACTIVE f) :=
    (hapart _ (hact.above (show 30 < 31 by decide))).trans (hv.2.trans (hu.2 _))
  have htrigw : bit (w.func f).trig 0 = true := (congrArg (fun r => bit r.trig 0) (hwfun.trans hv.1)).trans hfun
  by_cases h0 : s.f (SAF.FUNC_STAT.ACTIVE f) = 0
  · refine .ite_pos h0 <| .seq (wf_sets hact 1 w |>.along (.ofFixes (func_wf f _ _) fun _ _ h => h)) fun _ x hx => hstart ?_
    obtain ⟨⟨hone, -, hkept, -⟩, hxfun⟩ := hx
    exact ⟨(congrArg (fun r => bit r.trig 0) hxfun).trans htrigw, hone,
      (hkept _ (.inr ⟨hack, .inl (show 30 < 31 by decide)⟩)).trans hwait⟩
  · exact .ite_neg h0 <| heffects ⟨htrigw, hactive.trans (hon h0), hwait⟩

/-- A trigger that is not the input's is withdrawn without an end of the function. -/
theorem withdraw_acts {f src key : Nat} (hsrc : src ≠ 0) {s : State} (h : ActsOnInput f s) :
    (withdraw f src key).Ends s fun _ t => ActsOnInput f t := by
  have hdone : ∀ {t : State}, ActsOnInput f t → (pure () : M Unit).Ends t fun _ u => ActsOnInput f u := fun {t} ht =>
    ⟨(), t, M.does_pure () t, ht⟩
  refine .read <| .ite (.seq (updFunc_sets f _ s) fun _ u hu => ?_) (hdone h)
  have hclear : ∀ (c : Prop) [Decidable c], bit (if c then (s.func f).trig else clrBit (s.func f).trig src) 0 = true := fun c _ => by
    split
    · exact h.trig
    · rw [bit_clrBit_other _ hsrc.symm]
      exact h.trig
  have hacts : ActsOnInput f u := by
    refine ⟨?_, (hu.2 _).trans h.active, (hu.2 _).trans h.ack⟩
    rw [hu.1]
    exact hclear _
  have hset : ¬ (u.funcActive f = true ∧ (u.func f).trig = 0) := fun hc => by
    have htrig := hacts.trig
    rw [hc.2] at htrig
    exact absurd htrig (by decide)
  exact .read <| .ite_neg hset <| hdone hacts

section
variable (f : Fin 8) (hf : f ≠ 0)
include hf

theorem followTrigger_acts {src : Nat} (hsrc : src ≠ 0) (asks : Bool) {s : State} (hen : s.f (SAF.FUNC_CFG.EN f) = 1)
    (h : ActsOnInput f s) : (followTrigger f src asks).Ends s fun _ t => ActsOnInput f t := by
  refine .read <| .ite (.ite ?_ ⟨(), s, M.does_pure () s, h⟩) (withdraw_acts hsrc h)
  exact trigger_acts f hf src _ _ hen (.inr h.trig)

/-- A function whose input asks for it acts, once it follows its inputs. -/
theorem syncFunc_acts (h4 : f ≠ 4) {s : State} (hen : s.f (SAF.FUNC_CFG.EN f) = 1) (hask : s.inputAsks f = true)
    (htrig : (s.func f).trig = 0) : (syncFunc f).Ends s fun _ t => ActsOnInput f t := by
  have h1 : 1 ≤ f.val := Nat.pos_of_ne_zero fun h => hf (Fin.ext h)
  have hcfg := FUNC_CFG_inputWord h1 f.isLt
  have hfollow : ∀ (src : Nat) (asks : Bool), (followTrigger f src asks).Along (Aside fun n => n ≠ f.val) := fun src asks =>
    followTrigger_aside (fun h => h rfl) src asks
  have hfirst : (followTrigger f 0 true).Ends s fun _ t => ActsOnInput f t :=
    .read <| .ite_pos (by rw [hen]; rfl) <| .ite_pos (by rw [htrig]; rfl) <| trigger_acts f hf 0 _ _ hen (.inl rfl)
  refine .read ?_
  rw [hask]
  refine .seq (hfirst.along (hfollow 0 true)) fun _ u hu => .read <| .seq
    ((followTrigger_acts f hf (src := 1) (by decide) _ ((hu.2.f _ hcfg).trans hen) hu.1).along (hfollow 1 _)) fun _ v hv => .read <|
    .seq (followTrigger_acts f hf (src := 2) (by decide) _ ((hv.2.f _ hcfg).trans ((hu.2.f _ hcfg).trans hen)) hv.1) fun _ w hw =>
    .read <| .ite_neg (fun h => h4 (Fin.ext h)) ⟨(), w, M.does_pure () w, hw⟩

end

/-- What an input asks for a function, in places that stand aside from the others. -/
structure Asked (f i : Nat) (s : State) : Prop where
  en : s.f (SAF.FUNC_CFG.EN f) = 1
  mask : bit (s.f (SAF.FUNC_CFG.SIN_MASK f)) i = true
  input : s.f (SAF.SIN.EN i) = 1
  demand : s.f (SAF.SIN.DEMAND i) = 1
  trig : (s.func f).trig = 0

theorem Asked.asks {f i : Nat} {s : State} (h : Asked f i s) (hi : i < 8) : s.inputAsks f = true := by
  refine List.any_eq_true.mpr ⟨i, List.mem_filter.mpr ⟨List.mem_range.mpr hi, h.mask⟩, ?_⟩
  rw [h.input, h.demand]
  rfl

theorem Asked.kept {p : Nat → Prop} {f i : Nat} {s t : State} (h : Asked f i s) (h1 : 1 ≤ f) (h8 : f < 8) (hi : i < 8) (hf : p f)
    (ha : Aside p s t) : Asked f i t := by
  have hcfg := FUNC_CFG_inputWord h1 h8
  have hsin := SIN_inputWord hi
  refine ⟨(ha.f _ hcfg).trans h.en, ?_, (ha.f _ hsin).trans h.input, (ha.f _ hsin).trans h.demand,
    (congrArg FuncSt.trig (ha.func f hf)).trans h.trig⟩
  rw [ha.f (SAF.FUNC_CFG.SIN_MASK f) hcfg]
  exact h.mask

/-- The functions follow in turn: those before and after the one that is asked stand aside from it. -/
theorem syncAll_acts (f : Fin 8) (hf : f ≠ 0) (h4 : f ≠ 4) (i : Fin 8) : ∀ (l : List Nat) (s : State), l.Nodup → f.val ∈ l →
    Asked f i s → (l.forM syncFunc).Ends s fun _ t => ActsOnInput f t
  | [], _, _, hin, _ => absurd hin List.not_mem_nil
  | x :: l, s, hnd, hin, h => by
    have h1 : 1 ≤ f.val := Nat.pos_of_ne_zero fun h => hf (Fin.ext h)
    obtain ⟨hx, hnd⟩ := List.nodup_cons.mp hnd
    rcases eq_or_ne x f.val with rfl | hne
    · have hrest : (l.forM syncFunc).Along (Aside fun n => n = f.val) := (aside _).forEach l fun y hy =>
        syncFunc_aside fun he : y = f.val => hx (he ▸ hy)
      exact .seq (syncFunc_acts f hf h4 h.en (h.asks i.isLt) h.trig) fun _ u hu => .ofAlong hrest fun _ _ ha =>
        hu.kept (p := fun n => n = f.val) h1 f.isLt rfl ha
    · obtain rfl | hin := List.mem_cons.mp hin
      · exact absurd rfl hne
      · exact .seq (P := fun _ t => ActsOnInput f t) (.ofAlong (syncFunc_aside (p := fun n => n = f.val) hne) fun _ _ ha => ha)
          fun _ u hu => syncAll_acts f hf h4 i l u hnd hin (h.kept (p := fun n => n = f.val) h1 f.isLt i.isLt rfl hu)

/-- What each turn of a loop keeps, the loop keeps. -/
theorem M.Ends.forM {α : Type} {g : α → M Unit} {Q : State → Prop} (h : ∀ x u, Q u → (g x).Ends u fun _ t => Q t) :
    ∀ (l : List α) {s : State}, Q s → (l.forM g).Ends s fun _ t => Q t
  | [], s, hs => ⟨(), s, M.does_pure () s, hs⟩
  | x :: l, _, hs => .seq (h x _ hs) fun _ _ ht => M.Ends.forM h l ht

theorem acknowledge_acts (f : Fin 8) (hf : f ≠ 0) {s : State} (h : ActsOnInput f s) :
    acknowledge.Ends s fun _ t => ActsOnInput f t := by
  have h1 : 1 ≤ f.val := Nat.pos_of_ne_zero fun h => hf (Fin.ext h)
  refine .forM (Q := ActsOnInput f) (fun n u hu => .read ?_) _ h
  rcases eq_or_ne n f.val with rfl | hn
  · exact .ite_neg (fun hc => absurd (hu.ack.symm.trans hc.2) (by decide)) ⟨(), u, M.does_pure () u, hu⟩
  · exact .ite (.ofAlong (releaseFunc_aside (p := fun m => m = f.val) hn) fun _ _ ha =>
        hu.kept (p := fun m => m = f.val) h1 f.isLt rfl ha)
      ⟨(), u, M.does_pure () u, hu⟩

end Sys2Proof.Machine
end

section
/-! SUPPORT for O52: DEMAND of an input follows, and what a change at an input leaves of the inputs and of their supplies. -/

namespace Sys2Proof.Machine

/-- The fields of an input beside DEMAND and its count; the first spans all that the host sets. -/
def inputFields (i : Nat) : List FldAt :=
  [⟨SAF.SIN i, 31, 15⟩, SAF.SIN.EN i, SAF.SIN.PAIR i, SAF.SIN.SUP i, SAF.SIN.LEVEL i, SAF.SIN.FAULT i]

theorem SIN_real : ∀ i : Fin 8, ∀ x ∈ SAF.SIN.DEMAND i :: SAF.SIN.COUNT i :: inputFields i, x.Real := by decide +kernel

theorem inputFields_bits : ∀ i : Fin 8, ∀ x ∈ inputFields i, x.addr = SAF.SIN i ∧ (14 < x.lo ∨ (7 < x.lo ∧ x.hi < 14)) := by
  decide +kernel

theorem SIN_inj {i j : Nat} (hi : i < 8) (h : i ≠ j) : SAF.SIN i ≠ SAF.SIN j := by
  simp only [SAF.SIN, arr, Nat.zero_le, hi, and_self, if_true]
  split <;> omega

theorem SSUP_ne_SIN {k : Nat} (hk : k < 4) {i : Nat} (hi : i < 8) : SAF.SSUP k ≠ SAF.SIN i := by
  simp only [SAF.SSUP, SAF.SIN, arr, Nat.zero_le, hk, hi, and_self, if_true]
  omega

/-- Of the words of its page, a change of DEMAND reaches the input's own, and there DEMAND and its count alone. -/
structure OnlyDemand (i : Nat) (s t : State) : Prop where
  rd : ∀ a, a / 65536 = 16 → a ≠ SAF.SIN i → t.rd a = s.rd a
  f : ∀ x : FldAt, x.addr = SAF.SIN i → x.Apart (SAF.SIN.DEMAND i) → x.Apart (SAF.SIN.COUNT i) → t.f x = s.f x
  saf : t.hid.saf = s.hid.saf

theorem onlyDemand (i : Nat) : Ongoing (OnlyDemand i) :=
  ⟨fun _ => ⟨fun _ _ _ => rfl, fun _ _ _ _ => rfl, rfl⟩, fun h h' =>
    ⟨fun a ha hn => (h'.rd a ha hn).trans (h.rd a ha hn), fun x hx hd hc => (h'.f x hx hd hc).trans (h.f x hx hd hc), h'.saf.trans h.saf⟩⟩

theorem onlyDemand_wf {i : Nat} {x : FldAt} (v : Nat) (hx : x = SAF.SIN.DEMAND i ∨ x = SAF.SIN.COUNT i) :
    (wf x v).Along (OnlyDemand i) := fun s => by
  have haddr : x.addr = SAF.SIN i := by rcases hx with rfl | rfl <;> rfl
  refine .ofDoes (M.does_wf x v s) ⟨fun a _ ha => rd_apply_reg_other _ _ _ s (haddr ▸ ha), fun y _ hd hc => f_wf_apart ?_ v s,
    congrArg Hidden.saf (apply_reg_hid ..)⟩
  rcases hx with rfl | rfl
  · exact hd
  · exact hc

theorem onlyDemand_event (i op : Nat) (body : List Byte) :
    (eventDev op body).Along fun s t => OnlyDemand i s t ∧ ∀ x : FldAt, x.addr = SAF.SIN i → t.f x = s.f x :=
  .ofIn (foot_eventDev op body) fun s t hs => by
    have hf : ∀ x : FldAt, x.addr = SAF.SIN i → t.f x = s.f x := fun x hx =>
      f_of_rd_eq x (hs.rd (by decide) _ (by rw [hx, SAF.SIN_page]; decide))
    exact ⟨⟨fun a ha _ => hs.rd (by decide) a (by rw [ha]; decide), fun x hx _ _ => hf x hx, hs.hid (by decide) 49 (by decide)⟩, hf⟩

/-- What the demand of an input comes to. -/
structure Demanded (i : Nat) (s t : State) : Prop extends OnlyDemand i s t where
  demand : t.f (SAF.SIN.DEMAND i) = b2n (s.demandDue i)
  counts : s.demandDue i = true → s.f (SAF.SIN.DEMAND i) = 0 → Bumped (SAF.SIN.COUNT i) s t
  still : s.demandDue i = false → t.f (SAF.SIN.COUNT i) = s.f (SAF.SIN.COUNT i)

theorem demand_bit (i : Nat) (s : State) : s.f (SAF.SIN.DEMAND i) = 0 ∨ s.f (SAF.SIN.DEMAND i) = 1 := by
  have := f_lt (SAF.SIN.DEMAND i) s
  simp only [SAF.SIN.DEMAND] at this ⊢
  omega

/-- DEMAND follows what demands; the answer tells an input that went healthy (R385). -/
theorem setDemand_ends (i : Fin 8) (cause : Nat) (s : State) : (setDemand i cause).Ends s fun b t =>
    Demanded i s t ∧ (b = true → s.demandDue i = false) := by
  have hreal := SIN_real i
  have hdemand : (SAF.SIN.DEMAND i).Real := hreal _ (by simp)
  have hcount : (SAF.SIN.COUNT i).Real := hreal _ (by simp)
  have hapart : (SAF.SIN.DEMAND i).Apart (SAF.SIN.COUNT i) := .inr ⟨hdemand, .inr (show 7 < 14 by decide)⟩
  have hapart' : (SAF.SIN.COUNT i).Apart (SAF.SIN.DEMAND i) := .inr ⟨hcount, .inl (show 7 < 14 by decide)⟩
  refine .read ?_
  rcases hdue : s.demandDue i with - | - <;> rcases demand_bit i s with hwas | hwas
  · refine .ite_neg (by rw [hwas]; decide) <| .ite_neg (by rw [hwas]; decide)
      ⟨_, s, M.does_pure _ s, ⟨(onlyDemand i).refl s, ?_, ?_, ?_⟩, ?_⟩
    all_goals simp [hdue, hwas, b2n]
  · refine .ite_neg (by rw [hwas]; decide) <| .ite_pos (by rw [hwas]; decide) <|
      .seq ((wf_sets hdemand 0 s).along (onlyDemand_wf 0 (.inl rfl))) fun _ t ht => ?_
    obtain ⟨⟨hzero, -, hkept, -⟩, honly⟩ := ht
    refine ⟨_, t, M.does_pure _ t, ⟨honly, ?_, ?_, ?_⟩, ?_⟩
    · rw [hdue]
      exact hzero
    · exact fun h => absurd (hdue.symm.trans h) (by decide)
    · exact fun _ => hkept _ hapart'
    · exact fun _ => rfl
  · have hinc : (inc (SAF.SIN.COUNT i)).Along (OnlyDemand i) := .read fun _ => (onlyDemand i).when (onlyDemand_wf _ (.inr rfl))
    refine .ite_pos (by rw [hwas]; decide) <| .seq ((wf_sets hdemand 1 s).along (onlyDemand_wf 1 (.inl rfl))) fun _ t ht =>
      .bind (hinc.does t) <| .seq (.ofAlong (onlyDemand_event i _ _) fun _ _ h => h) fun _ u hu =>
      .ite_neg (by rw [hwas]; decide) ⟨_, u, M.does_pure _ u, ?_, fun h => ?_⟩
    · obtain ⟨⟨hone, -, hkept, -⟩, honly⟩ := ht
      have hev : ∀ x : FldAt, x.addr = SAF.SIN i → u.f x = ((inc (SAF.SIN.COUNT i)).run t).f x := fun x hx => hu.2 x hx
      refine ⟨(onlyDemand i).trans honly ((onlyDemand i).trans (hinc.run t) hu.1), ?_, fun _ _ => ?_, fun h => ?_⟩
      · rw [hev _ rfl, (M.Fixes.incApart hapart).run t, hdue]
        exact hone
      · have hbump := hcount.bumped t
        rw [Bumped, hkept _ hapart'] at hbump
        exact (hev _ rfl).trans hbump
      · exact absurd (hdue.symm.trans h) (by decide)
    · rw [hwas] at h
      exact absurd h (by simp)
  · refine .ite_neg (by rw [hwas]; decide) <| .ite_neg (by rw [hwas]; decide)
      ⟨_, s, M.does_pure _ s, ⟨(onlyDemand i).refl s, ?_, ?_, ?_⟩, ?_⟩
    all_goals simp [hdue, hwas, b2n]

/-! ## What stands at an input -/

/-- A field of the configuration, of a supply or of an input, apart from DEMAND and its count. -/
structure FldAt.Held (x : FldAt) : Prop where
  word : InputWord x.addr
  apart : ∀ j < 8, x.Apart (SAF.SIN.DEMAND j) ∧ x.Apart (SAF.SIN.COUNT j)

theorem SIN_held (i : Fin 8) {x : FldAt} (hx : x ∈ inputFields i) : x.Held := by
  obtain ⟨haddr, hbits⟩ := inputFields_bits i x hx
  have hreal : x.Real := SIN_real i x (List.mem_cons_of_mem _ (List.mem_cons_of_mem _ hx))
  refine ⟨haddr ▸ SIN_inputWord i.isLt, fun j hj => ?_⟩
  rcases eq_or_ne i.val j with rfl | hij
  · have hd : (SAF.SIN.DEMAND i).lo = 14 ∧ (SAF.SIN.DEMAND i).hi = 14 ∧ (SAF.SIN.COUNT i).hi = 7 := ⟨rfl, rfl, rfl⟩
    exact ⟨.inr ⟨hreal, by omega⟩, .inr ⟨hreal, .inr (by omega)⟩⟩
  · have hne : x.addr ≠ SAF.SIN j := haddr ▸ SIN_inj i.isLt hij
    exact ⟨.inl hne, .inl hne⟩

theorem SSUP_held {k : Nat} (hk : k < 4) {x : FldAt} (hx : x.addr = SAF.SSUP k) : x.Held :=
  ⟨hx ▸ SSUP_inputWord hk, fun _ hj => ⟨.inl (hx ▸ SSUP_ne_SIN hk hj), .inl (hx ▸ SSUP_ne_SIN hk hj)⟩⟩

/-- The fields that stand, and the checking of the inputs. -/
structure Holds (s t : State) : Prop where
  f : ∀ x : FldAt, x.Held → t.f x = s.f x
  sins : t.hid.saf.sins = s.hid.saf.sins

theorem holds : Ongoing Holds :=
  ⟨fun _ => ⟨fun _ _ => rfl, rfl⟩, fun h h' => ⟨fun x hx => (h'.f x hx).trans (h.f x hx), h'.sins.trans h.sins⟩⟩

theorem Aside.holds {p : Nat → Prop} {s t : State} (h : Aside p s t) : Holds s t := ⟨fun x hx => h.f x hx.word, h.sins⟩

theorem OnlyDemand.holds {i : Nat} (hi : i < 8) {s t : State} (h : OnlyDemand i s t) : Holds s t := by
  refine ⟨fun x hx => ?_, congrArg SafSt.sins h.saf⟩
  rcases eq_or_ne x.addr (SAF.SIN i) with ha | ha
  · exact h.f x ha (hx.apart i hi).1 (hx.apart i hi).2
  · exact f_of_rd_eq x (h.rd _ hx.word.page ha)

theorem partner : ∀ i : Fin 8, i.val ^^^ 1 < 8 ∧ i.val ≠ i.val ^^^ 1 := by decide

theorem syncFuncs_aside : syncFuncs.Along (Aside fun _ => False) := (aside _).forM (fun _ => syncFunc_aside id) _

theorem acknowledge_aside : acknowledge.Along (Aside fun _ => False) :=
  (aside _).forM (fun _ => .read fun _ => (aside _).when (releaseFunc_aside id)) _

/-- A change at an input: its demand follows, and after that its word stands. -/
theorem inputChanged_demands (i : Fin 8) (cause : Nat) (s : State) : (inputChanged i cause).Ends s fun _ t =>
    (∃ u, Demanded i s u ∧ t.rd (SAF.SIN i) = u.rd (SAF.SIN i)) ∧ Holds s t := by
  obtain ⟨hj, hne⟩ := partner i
  refine .seq (setDemand_ends i cause s) fun a u hu => .seq (setDemand_ends ⟨_, hj⟩ cause u) fun b v hv =>
    .seq (.ofAlong syncFuncs_aside fun _ _ h => h) fun _ w hw => .read <| .ofAlong (ρ := Aside fun _ => False)
      ((aside _).when acknowledge_aside) fun _ t ht => ?_
  have hwt := (aside _).trans hw ht
  refine ⟨⟨u, hu.1, (hwt.rd _ (SIN_inputWord i.isLt)).trans (hv.1.rd _ (SAF.SIN_page i) (SIN_inj i.isLt hne))⟩, ?_⟩
  exact holds.trans (hu.1.toOnlyDemand.holds i.isLt) <| holds.trans (hv.1.toOnlyDemand.holds hj) hwt.holds

theorem inputChanged_holds (i : Fin 8) (cause : Nat) : (inputChanged i cause).Along Holds := fun s => by
  obtain ⟨a, t, hd, -, ht⟩ := inputChanged_demands i cause s
  exact ⟨a, t, hd, ht⟩

/-- A function that an input asks for acts when the input comes to demand. -/
theorem inputChanged_acts (i f : Fin 8) (hf : f ≠ 0) (h4 : f ≠ 4) (cause : Nat) {s : State} (hdue : s.demandDue i = true)
    (hen : s.f (SAF.FUNC_CFG.EN f) = 1) (hmask : bit (s.f (SAF.FUNC_CFG.SIN_MASK f)) i = true) (hi : s.f (SAF.SIN.EN i) = 1)
    (htrig : (s.func f).trig = 0) : (inputChanged i cause).Ends s fun _ t => ActsOnInput f t := by
  obtain ⟨hj, hne⟩ := partner i
  have h1 : 1 ≤ f.val := Nat.pos_of_ne_zero fun h => hf (Fin.ext h)
  have hcfg : ∀ j < 8, SAF.FUNC_CFG f ≠ SAF.SIN j := fun j hj => by
    simp only [SAF.FUNC_CFG, SAF.SIN, arr, h1, f.isLt, Nat.zero_le, hj, and_self, if_true]
    omega
  have hasked : ∀ {u v : State}, Demanded i s u → Demanded (i.val ^^^ 1) u v → Asked f i v := fun {u v} hu hv => by
    have hcfgs : v.rd (SAF.FUNC_CFG f) = s.rd (SAF.FUNC_CFG f) :=
      (hv.rd _ (SAF.FUNC_CFG_page f) (hcfg _ hj)).trans (hu.rd _ (SAF.FUNC_CFG_page f) (hcfg _ i.isLt))
    have hsin : v.rd (SAF.SIN i) = u.rd (SAF.SIN i) := hv.rd _ (SAF.SIN_page i) (SIN_inj i.isLt hne)
    have hfunc : v.func f = s.func f := congrArg (fun y : SafSt => mget ({} : FuncSt) y.funcs f) (hv.saf.trans hu.saf)
    refine ⟨(f_of_rd_eq (SAF.FUNC_CFG.EN f) hcfgs).trans hen, ?_, ?_, ?_, (congrArg FuncSt.trig hfunc).trans htrig⟩
    · rw [f_of_rd_eq (SAF.FUNC_CFG.SIN_MASK f) hcfgs]
      exact hmask
    · exact (f_of_rd_eq (SAF.SIN.EN i) hsin).trans <|
        ((hu.toOnlyDemand.holds i.isLt).f _ (SIN_held i (by simp [inputFields]))).trans hi
    · rw [f_of_rd_eq (SAF.SIN.DEMAND i) hsin, hu.demand, hdue]
      rfl
  refine .seq (setDemand_ends i cause s) fun a u hu => .seq (setDemand_ends ⟨_, hj⟩ cause u) fun b v hv =>
    .seq (syncAll_acts f hf h4 i [1, 2, 3, 4, 5, 6, 7] v (by decide) ?_ (hasked hu.1 hv.1)) fun _ w hw => .read <|
    .ite (acknowledge_acts f hf hw) ⟨(), w, M.does_pure () w, hw⟩
  have := f.isLt
  simp only [List.mem_cons, List.not_mem_nil, or_false]
  omega

end Sys2Proof.Machine
end

section
/-! SUPPORT for O52: occurrences leave the inputs, a filtered level, test pulses, a discrepancy and a supply over current. -/

namespace Sys2Proof.Machine

/-! ## Occurrences -/

section
variable {p : Nat → Prop} (hp : ¬ p 2)
include hp

theorem startSs1_aside (g cause : Nat) : (startSs1 g cause).Along (Aside p) := .read fun _ =>
  (aside p).when <| (aside p).bind (trigger_aside hp _ _ _ _) fun _ => .read fun _ => (aside p).when (withdraw_aside hp _ _)

theorem react_aside (cls src inst : Nat) : (react cls src inst).Along (Aside p) := by
  have k := aside p
  exact .read fun _ => .ite (k.forM (fun _ => startSs1_aside hp _ _) _) <| .ite (k.forM (fun _ => forceAct_aside _ _ _) _) <|
    k.when <| k.bind (k.forM (fun _ => forceAct_aside _ _ _) _) fun _ => .aside foot_deviceSafe (by decide)

theorem occurrence_aside (src inst detail : Nat) : (occurrence src inst detail).Along (Aside p) := by
  have k := aside p
  have hflg : ∀ {m : M Unit}, m.In [17] → m.Along (Aside p) := fun hm => .aside hm (by decide)
  have hhid : ∀ g : Hidden → FlgSt, (hid fun h => { h with flg := g h }).Along (Aside p) := fun g =>
    .aside (M.In.hid_flg (P := [46]) g (by decide)) (by decide)
  exact .read fun _ => k.bind (hflg <| M.In.inc 17 _ (FLG.OCCUR_page src) (by decide)) fun _ =>
    k.bind (hflg <| M.In.wf 17 _ _ (FLG.OCCUR_page src) (by decide)) fun _ => k.bind (hhid _) fun _ => .ite
    (k.bind (hflg <| M.In.wr 17 _ _ (FLG.LASTING_page src) (by decide)) fun _ =>
      k.bind (hflg <| M.In.inc 17 _ (FLG.OCCUR_page src) (by decide)) fun _ => k.bind (.aside foot_setLastingSrc (by decide)) fun _ =>
      k.bind (.aside (foot_queueEntry _ _) (by decide)) fun _ => k.bind (.aside (foot_event _ _ _ _ _) (by decide)) fun _ =>
      k.bind (react_aside hp _ _ _) fun _ => k.pure _)
    (k.bind (hhid _) fun _ => k.pure _)

end

theorem occurrence_holds (src inst detail : Nat) : (occurrence src inst detail).Along Holds :=
  (occurrence_aside (p := fun _ => False) id src inst detail).mono fun _ _ h => h.holds

theorem occur_holds (src inst detail : Nat) : (occur src inst detail).Along Holds :=
  holds.bind (occurrence_holds src inst detail) fun _ => holds.pure _

/-! ## Frames -/

theorem setDemand_beyond (i cause : Nat) : (setDemand i cause).Fixes State.beyond :=
  .read fun _ => .ite (.bind (wf_beyond _ _) fun _ => .bind (inc_beyond _) fun _ => .bind (event_beyond ..) fun _ =>
    .thenMore (wf_beyond _ _) fun _ => .pure _) (.thenMore (wf_beyond _ _) fun _ => .pure _)

theorem followTrigger_beyond (f src : Nat) (asks : Bool) : (followTrigger f src asks).Fixes State.beyond :=
  .read fun _ => .ite (.when (trigger_beyond ..)) (withdraw_beyond ..)

theorem syncFunc_beyond (f : Nat) : (syncFunc f).Fixes State.beyond := by
  refine .read fun _ => .bind (followTrigger_beyond ..) fun _ => .read fun _ => .bind (followTrigger_beyond ..) fun _ =>
    .read fun _ => .bind (followTrigger_beyond ..) fun _ => .read fun _ => .when ?_
  exact .ite (.when (trigger_beyond ..)) (.when (releaseFunc_beyond _))

theorem inputChanged_beyond (i cause : Nat) : (inputChanged i cause).Fixes State.beyond :=
  .bind (setDemand_beyond _ _) fun _ => .bind (setDemand_beyond _ _) fun _ =>
    .bind (.forM (fun _ => syncFunc_beyond _) _) fun _ => .read fun _ => .when <|
    .forM (fun _ => .read fun _ => .when (releaseFunc_beyond _)) _

theorem setLevel_beyond (i : Nat) (high : Bool) : (setLevel i high).Fixes State.beyond :=
  .bind (wf_beyond _ _) fun _ => inputChanged_beyond _ _

theorem failInput_beyond (i : Nat) : (failInput i).Fixes State.beyond :=
  .bind (wf_beyond _ _) fun _ => .bind (hid_beyond _) fun _ => .bind (inputChanged_beyond _ _) fun _ => occur_beyond ..

theorem passInput_beyond (i : Nat) : (passInput i).Fixes State.beyond :=
  .read fun _ => .when <| .ite (.bind (hid_beyond _) fun _ => .bind (wf_beyond _ _) fun _ => inputChanged_beyond _ _) (hid_beyond _)

/-! ## A filtered level (R385) -/

/-- The level of an input has changed. -/
structure LevelSet (i : Nat) (high : Bool) (s t : State) : Prop where
  level : t.f (SAF.SIN.LEVEL i) = b2n high
  others : ∀ y : FldAt, y.Held → y.Apart (SAF.SIN.LEVEL i) → t.f y = s.f y
  low : high = false → t.f (SAF.SIN.DEMAND i) = 1 ∧ (s.f (SAF.SIN.DEMAND i) = 0 → Bumped (SAF.SIN.COUNT i) s t)
  healthy : high = true → s.f (SAF.SIN.FAULT i) = 0 → s.f (SAF.SIN.PAIR i) = 0 →
    t.f (SAF.SIN.DEMAND i) = 0 ∧ t.f (SAF.SIN.COUNT i) = s.f (SAF.SIN.COUNT i)

theorem LEVEL_apart : ∀ i : Fin 8, ∀ x ∈ [SAF.SIN.EN i, SAF.SIN.PAIR i, SAF.SIN.FAULT i, SAF.SIN.DEMAND i, SAF.SIN.COUNT i],
    x.Apart (SAF.SIN.LEVEL i) := by decide

theorem b2n_lt (b : Bool) (x : FldAt) (h : x.lo ≤ x.hi) : b2n b % 2 ^ (x.hi + 1 - x.lo) = b2n b := by
  refine Nat.mod_eq_of_lt (lt_of_lt_of_le (b := 2 ^ 1) ?_ (Nat.pow_le_pow_right (by decide) (by omega)))
  cases b <;> decide

theorem setLevel_sets (i : Fin 8) (high : Bool) (s : State) : (setLevel i high).Ends s fun _ t => LevelSet i high s t := by
  have hreal := SIN_real i (SAF.SIN.LEVEL i) (by simp [inputFields])
  have hlevel : (SAF.SIN.LEVEL i).Held := SIN_held i (by simp [inputFields])
  have hapart := LEVEL_apart i
  refine .seq (wf_sets hreal (b2n high) s) fun _ u hu => ?_
  obtain ⟨hset, -, hkept, -⟩ := hu
  rw [b2n_lt high _ (Nat.le_refl 13)] at hset
  obtain ⟨_, t, hd, ⟨w, hdemand, hword⟩, hh⟩ := inputChanged_demands i 0x8036 u
  have hshown : ∀ x : FldAt, x.addr = SAF.SIN i → t.f x = w.f x := fun x hx => f_of_rd_eq x (hx ▸ hword)
  refine .ofDoes hd ⟨(hh.f _ hlevel).trans hset, fun y hy ha => (hh.f y hy).trans (hkept y ha), fun hl => ?_, fun hl hfault hpair => ?_⟩
  · have hdue : u.demandDue i = true := by simp [State.demandDue, State.ownDemand, hset, hl, b2n]
    refine ⟨by rw [hshown _ rfl, hdemand.demand, hdue]; rfl, fun h0 => ?_⟩
    have hbump := hdemand.counts hdue ((hkept _ (hapart _ (by simp))).trans h0)
    unfold Bumped at hbump ⊢
    rw [hshown _ rfl, hbump, hkept _ (hapart _ (by simp))]
  · have hdue : u.demandDue i = false := by
      simp [State.demandDue, State.ownDemand, hset, hl, b2n, hkept _ (hapart (SAF.SIN.FAULT i) (by simp)), hfault,
        hkept _ (hapart (SAF.SIN.PAIR i) (by simp)), hpair]
    refine ⟨by rw [hshown _ rfl, hdemand.demand, hdue]; rfl, ?_⟩
    rw [hshown _ rfl, hdemand.still hdue, hkept _ (hapart _ (by simp))]

/-- A function that a low input asks for acts. -/
theorem setLevel_acts (i f : Fin 8) (hf : f ≠ 0) (h4 : f ≠ 4) {s : State} (hen : s.f (SAF.FUNC_CFG.EN f) = 1)
    (hmask : bit (s.f (SAF.FUNC_CFG.SIN_MASK f)) i = true) (hi : s.f (SAF.SIN.EN i) = 1) (htrig : (s.func f).trig = 0) :
    (setLevel i false).Ends s fun _ t => ActsOnInput f t := by
  have hreal := SIN_real i (SAF.SIN.LEVEL i) (by simp [inputFields])
  refine .seq (wf_sets hreal 0 s) fun _ u hu => ?_
  obtain ⟨hset, hhid, hkept, hrd⟩ := hu
  have hne : SAF.FUNC_CFG f ≠ SAF.SIN i := fun h => by
    have h1 : 1 ≤ f.val := Nat.pos_of_ne_zero fun h => hf (Fin.ext h)
    simp only [SAF.FUNC_CFG, SAF.SIN, arr, h1, f.isLt, Nat.zero_le, i.isLt, and_self, if_true] at h
    omega
  have hcfg : u.rd (SAF.FUNC_CFG f) = s.rd (SAF.FUNC_CFG f) := hrd _ hne
  refine inputChanged_acts i f hf h4 _ ?_ ((f_of_rd_eq (SAF.FUNC_CFG.EN f) hcfg).trans hen) ?_
    ((hkept _ (LEVEL_apart i _ (by simp))).trans hi) ?_
  · simp [State.demandDue, State.ownDemand, hset]
  · rw [f_of_rd_eq (SAF.FUNC_CFG.SIN_MASK f) hcfg]
    exact hmask
  · rw [State.func, hhid]
    exact htrig

theorem setLevel_onlyLevel (i : Fin 8) (high : Bool) : (setLevel i high).Along fun s t =>
    ∀ y : FldAt, y.Held → y.Apart (SAF.SIN.LEVEL i) → t.f y = s.f y := fun s => by
  obtain ⟨a, t, hd, ht⟩ := setLevel_sets i high s
  exact ⟨a, t, hd, ht.others⟩

/-! ## Loops over the inputs -/

/-- A loop each turn of which leaves the fields of the others: what the turn does to its own field, the loop does. -/
theorem forM_turns {g : Nat → M Unit} {φ : Nat → FldAt} {R : Nat → Nat → Nat → Prop}
    (hother : ∀ m < 8, (g m).Along fun s t => ∀ n < 8, n ≠ m → t.f (φ n) = s.f (φ n))
    (hown : ∀ n < 8, ∀ s, (g n).Ends s fun _ t => R n (s.f (φ n)) (t.f (φ n))) :
    ∀ (l : List Nat) (s : State), l.Nodup → (∀ n ∈ l, n < 8) →
    (l.forM g).Ends s fun _ t => (∀ n ∈ l, R n (s.f (φ n)) (t.f (φ n))) ∧ ∀ n < 8, n ∉ l → t.f (φ n) = s.f (φ n)
  | [], s, _, _ => ⟨(), s, M.does_pure () s, fun _ h => absurd h List.not_mem_nil, fun _ _ _ => rfl⟩
  | x :: l, s, hnd, hlt => by
    obtain ⟨hx, hnd⟩ := List.nodup_cons.mp hnd
    have hx8 := hlt x List.mem_cons_self
    refine .seq ((hown x hx8 s).along (hother x hx8)) fun _ u hu => ?_
    obtain ⟨_, t, hd, hdone, hrest⟩ := forM_turns hother hown l u hnd fun n hn => hlt n (List.mem_cons_of_mem _ hn)
    refine .ofDoes hd ⟨fun n hn => ?_, fun n hn hin => ?_⟩
    · rcases eq_or_ne n x with rfl | hne
      · rw [hrest n hx8 hx]
        exact hu.1
      · have hin := (List.mem_cons.mp hn).resolve_left hne
        rw [← hu.2 n (hlt n hn) hne]
        exact hdone n hin
    · rw [List.mem_cons, not_or] at hin
      exact (hrest n hn hin.2).trans (hu.2 n hn hin.1)

theorem SIN_apart {i j : Nat} (hi : i < 8) (h : i ≠ j) {x y : FldAt} (hx : x.addr = SAF.SIN i) (hy : y.addr = SAF.SIN j) :
    x.Apart y := .inl (hx ▸ hy ▸ SIN_inj hi h)

/-! ## Test pulses (R387, R388) -/

theorem FAULT_apart : ∀ i : Fin 8, ∀ x ∈ [SAF.SIN.LEVEL i, SAF.SIN.EN i, SAF.SIN.SUP i], x.Apart (SAF.SIN.FAULT i) := by
  decide

/-- What a turn at an input leaves: all that stands but its FAULT. -/
def FaultAlone (i : Nat) (s t : State) : Prop := ∀ y : FldAt, y.Held → y.Apart (SAF.SIN.FAULT i) → t.f y = s.f y

theorem faultAlone (i : Nat) : Ongoing (FaultAlone i) :=
  ⟨fun _ _ _ _ => rfl, fun h h' y hy ha => (h' y hy ha).trans (h y hy ha)⟩

theorem Holds.faultAlone {i : Nat} {s t : State} (h : Holds s t) : FaultAlone i s t := fun y hy _ => h.f y hy

theorem faultAlone_wf (i v : Nat) : (wf (SAF.SIN.FAULT i) v).Along (FaultAlone i) := fun s =>
  .ofDoes (M.does_wf _ v s) fun _ _ ha => f_wf_apart ha v s

theorem faultAlone_hid (i : Nat) (g : Hidden → Hidden) : (hid g).Along (FaultAlone i) := .act fun _ _ _ _ => rfl

theorem failInput_alone (i : Fin 8) : (failInput i).Along (FaultAlone i) := by
  have k := faultAlone i
  exact k.bind (faultAlone_wf i 1) fun _ => k.bind (faultAlone_hid i _) fun _ =>
    k.bind ((inputChanged_holds i 161).mono fun _ _ h => h.faultAlone) fun _ => (occur_holds 161 0 _).mono fun _ _ h => h.faultAlone

theorem passInput_alone (i : Fin 8) : (passInput i).Along (FaultAlone i) := by
  have k := faultAlone i
  exact .read fun _ => k.when <| .ite (k.bind (faultAlone_hid i _) fun _ => k.bind (faultAlone_wf i 0) fun _ =>
    (inputChanged_holds i 161).mono fun _ _ h => h.faultAlone) (faultAlone_hid i _)

theorem failInput_fails (i : Fin 8) (s : State) : (failInput i).Ends s fun _ t => t.f (SAF.SIN.FAULT i) = 1 := by
  have hfault : (SAF.SIN.FAULT i).Held := SIN_held i (by simp [inputFields])
  refine .seq (wf_sets (SIN_real i _ (by simp [inputFields])) 1 s) fun _ u hu => .bind (M.does_hid _ u) <|
    .seq (.ofAlong (inputChanged_holds i 161) fun _ _ h => h) fun _ v hv => .ofAlong (occur_holds 161 0 _) fun _ t ht => ?_
  exact (ht.f _ hfault).trans ((hv.f _ hfault).trans hu.1)

/-- A pulse that passes leaves an input without FAULT as it is. -/
theorem passInput_sound (i : Nat) {s : State} (h : s.f (SAF.SIN.FAULT i) = 0) :
    (passInput i).Does s () s := .read <| .ite_neg (fun hc => absurd (h.symm.trans hc.1) (by decide)) (M.does_pure () s)

/-- What a test pulse of a supply comes to at an input, by what its checking was as the pulse began. -/
structure Tested (s : State) (k low short i a b : Nat) : Prop where
  stuck : s.checks i = true → s.f (SAF.SIN.SUP i) = k → bit low i = false → b = 1
  shorted : s.checks i = true → s.f (SAF.SIN.SUP i) ≠ k → bit short i = true → b = 1
  sound : a = 0 → (s.checks i = true → s.f (SAF.SIN.SUP i) = k → bit low i = true) →
    (s.checks i = true → s.f (SAF.SIN.SUP i) ≠ k → bit short i = false) → b = 0

/-- One turn of a test pulse. -/
def testTurn (s : State) (k low short i : Nat) : M Unit :=
  if s.checks i then
    if s.f (SAF.SIN.SUP i) = k then
      if bit low i then passInput i else failInput i
    else if bit short i then failInput i else pure ()
  else pure ()

theorem testTurn_tests (s : State) (k low short : Nat) (i : Fin 8) (u : State) :
    (testTurn s k low short i).Ends u fun _ t => Tested s k low short i (u.f (SAF.SIN.FAULT i)) (t.f (SAF.SIN.FAULT i)) := by
  have hfail : ∀ (hbad : ¬ ((s.checks i = true → s.f (SAF.SIN.SUP i) = k → bit low i = true) ∧
      (s.checks i = true → s.f (SAF.SIN.SUP i) ≠ k → bit short i = false))), (failInput i).Ends u fun _ t =>
      Tested s k low short i (u.f (SAF.SIN.FAULT i)) (t.f (SAF.SIN.FAULT i)) := fun hbad => by
    obtain ⟨_, t, hd, ht⟩ := failInput_fails i u
    exact .ofDoes hd ⟨fun _ _ _ => ht, fun _ _ _ => ht, fun _ h1 h2 => absurd ⟨h1, h2⟩ hbad⟩
  unfold testTurn
  by_cases hc : s.checks i = true
  · rw [if_pos hc]
    by_cases hk : s.f (SAF.SIN.SUP i) = k
    · rw [if_pos hk]
      by_cases hl : bit low i = true
      · rw [if_pos hl]
        have hpass : ∀ b : Nat, (u.f (SAF.SIN.FAULT i) = 0 → b = 0) → Tested s k low short i (u.f (SAF.SIN.FAULT i)) b :=
          fun _ hb => ⟨fun _ _ h => absurd (hl.symm.trans h) (by decide), fun _ h => absurd hk h, fun h _ _ => hb h⟩
        by_cases h0 : u.f (SAF.SIN.FAULT i) = 0
        · exact .ofDoes (passInput_sound i h0) (hpass _ fun h => h)
        · exact .ofDoes ((foot_passInput i).does u) (hpass _ fun h => absurd h h0)
      · rw [if_neg hl]
        exact hfail fun h => hl (h.1 hc hk)
    · rw [if_neg hk]
      by_cases hs : bit short i = true
      · rw [if_pos hs]
        exact hfail fun h => by simp [h.2 hc hk] at hs
      · rw [if_neg hs]
        exact ⟨(), u, M.does_pure () u, fun _ h => absurd h hk, fun _ _ h => absurd h hs, fun h _ _ => h⟩
  · rw [if_neg hc]
    exact ⟨(), u, M.does_pure () u, fun h => absurd h hc, fun h => absurd h hc, fun h _ _ => h⟩

theorem testTurn_alone (s : State) (k low short : Nat) (i : Fin 8) : (testTurn s k low short i).Along (FaultAlone i) := by
  have k' := faultAlone i
  exact .ite (.ite (.ite (passInput_alone i) (failInput_alone i)) (.ite (failInput_alone i) (k'.pure _))) (k'.pure _)

theorem testTurn_beyond (s : State) (k low short i : Nat) : (testTurn s k low short i).Fixes State.beyond :=
  .ite (.ite (.ite (passInput_beyond i) (failInput_beyond i)) (.when (failInput_beyond i))) (.pure _)

theorem PULSES_real : ∀ k : Fin 4, (SAF.SSUP.PULSES k).Real := by decide

/-- A test pulse that is due counts, and tests every input whose checking runs. -/
theorem testPulse_tests (k : Fin 4) (low short time : Nat) {s : State} (hen : s.f (SAF.SSUP.EN k) = 1)
    (hoc : s.f (SAF.SSUP.OC k) = 0) (hdue : s.pulseDue k time = true) : (testPulse k low short time).Ends s fun _ t =>
    t.f (SAF.SSUP.PULSES k) = (s.f (SAF.SSUP.PULSES k) + 1) % 65536 ∧
      ∀ i < 8, Tested s k low short i (s.f (SAF.SIN.FAULT i)) (t.f (SAF.SIN.FAULT i)) := by
  have hpulses : (SAF.SSUP.PULSES k).Held := SSUP_held k.isLt rfl
  have hstays : Ongoing fun u t : State => t.f (SAF.SSUP.PULSES k) = u.f (SAF.SSUP.PULSES k) := ⟨fun _ => rfl, fun h h' => h'.trans h⟩
  have hloop := hstays.forEach (f := testTurn s k low short) (List.range 8) fun i hi =>
    (testTurn_alone s k low short ⟨i, List.mem_range.mp hi⟩).mono fun _ _ h =>
      h _ hpulses (.inl (SSUP_ne_SIN k.isLt (List.mem_range.mp hi)))
  refine .read <| .ite_pos ⟨hen, hoc, hdue⟩ <| .seq ((wf_sets (PULSES_real k) (s.f (SAF.SSUP.PULSES k) + 1) s)) fun _ u hu => ?_
  obtain ⟨hcount, -, -, hrd⟩ := hu
  obtain ⟨_, t, hd, ⟨htests, -⟩, hkept⟩ := (forM_turns (g := testTurn s k low short) (φ := SAF.SIN.FAULT)
    (R := Tested s k low short)
    (fun m hm => (testTurn_alone s k low short ⟨m, hm⟩).mono fun _ _ h n hn hne =>
      h _ (SIN_held ⟨n, hn⟩ (by simp [inputFields])) (SIN_apart hn hne rfl rfl))
    (fun n hn => testTurn_tests s k low short ⟨n, hn⟩) (List.range 8) u List.nodup_range fun n hn => List.mem_range.mp hn).along hloop
  refine .ofDoes hd ⟨hkept.trans hcount, fun i hi => ?_⟩
  have hfault : u.f (SAF.SIN.FAULT i) = s.f (SAF.SIN.FAULT i) :=
    f_of_rd_eq _ (hrd _ (SSUP_ne_SIN k.isLt hi).symm)
  rw [← hfault]
  exact htests i (List.mem_range.mpr hi)

theorem testPulse_beyond (k low short time : Nat) : (testPulse k low short time).Fixes State.beyond :=
  .read fun s => .when <| .bind (.read fun _ => wf_beyond _ _) fun _ => .forM (fun i => testTurn_beyond s k low short i) _

/-! ## A pair that disagrees (R386) -/

theorem pair_apart : ∀ i : Fin 8, (SAF.SIN.LEVEL i).Apart (SAF.SIN.FAULT i) ∧ (SAF.SIN.FAULT i).Apart (SAF.SIN.FAULT (i.val ^^^ 1)) ∧
    (SAF.SIN.LEVEL i).Apart (SAF.SIN.FAULT (i.val ^^^ 1)) := by decide

/-- The ledger's page stands. -/
def LedgerStands (s t : State) : Prop := ∀ a, a / 65536 = 17 → t.rd a = s.rd a

theorem ledgerStands : Ongoing LedgerStands := ⟨fun _ _ _ => rfl, fun h h' a ha => (h' a ha).trans (h a ha)⟩

theorem LedgerStands.shown {s t : State} (h : LedgerStands s t) (src : Nat) : t.occurShown src = s.occurShown src := by
  have hword := h _ (FLG.OCCUR_page src)
  exact Prod.ext (f_of_rd_eq (FLG.OCCUR.OCCURRENCES src) hword) (f_of_rd_eq (FLG.OCCUR.LAST_INSTANCE src) hword)

theorem LedgerStands.lasting {s t : State} (h : LedgerStands s t) (src inst : Nat) : t.lasting src inst = s.lasting src inst :=
  congrArg (fun w : Word => bit w.toNat inst) (h _ (FLG.LASTING_page src))

theorem M.Along.ledgerStands {α : Type} {P : List Nat} {m : M α} (h : m.In P) (hn : 17 ∉ P ∧ 99 ∉ P) : m.Along LedgerStands :=
  .ofIn h fun _ _ hs a ha => hs.rd hn.2 a (ha ▸ hn.1)

/-- What a pair that turned lasting leaves to do. -/
def pairFaults (i : Nat) : M Unit := do
  wf (SAF.SIN.FAULT i) 1
  wf (SAF.SIN.FAULT (i ^^^ 1)) 1
  hid fun h => { h with saf := { h.saf with sins := sput (sput h.saf.sins i {}) (i ^^^ 1) {} } }
  inputChanged i 162

theorem pairFaults_ledger (i : Nat) : (pairFaults i).Along LedgerStands := by
  have k := ledgerStands
  have hwf : ∀ j, (wf (SAF.SIN.FAULT j) 1).Along LedgerStands := fun j =>
    .ledgerStands (M.In.wf (P := [16]) 16 _ _ (SAF.SIN_page j) (by decide)) (by decide)
  exact k.bind (hwf i) fun _ => k.bind (hwf _) fun _ => k.bind (.ledgerStands (M.In.hid_saf (P := [49]) _ (by decide)) (by decide))
    fun _ => .ledgerStands (foot_inputChanged i 162) (by decide)

theorem pairFaults_fault (i : Fin 8) (s : State) : (pairFaults i).Ends s fun _ t =>
    t.f (SAF.SIN.FAULT i) = 1 ∧ t.f (SAF.SIN.FAULT (i.val ^^^ 1)) = 1 ∧ t.f (SAF.SIN.LEVEL i) = s.f (SAF.SIN.LEVEL i) := by
  obtain ⟨hj, -⟩ := partner i
  obtain ⟨hown, hboth, hpartner⟩ := pair_apart i
  have hfault : ∀ j (hj : j < 8), (SAF.SIN.FAULT j).Held := fun j hj => SIN_held ⟨j, hj⟩ (by simp [inputFields])
  have hreal : ∀ j (hj : j < 8), (SAF.SIN.FAULT j).Real := fun j hj => SIN_real ⟨j, hj⟩ _ (by simp [inputFields])
  have hlevel : (SAF.SIN.LEVEL i).Held := SIN_held i (by simp [inputFields])
  refine .seq (wf_sets (hreal i i.isLt) 1 s) fun _ u hu => .seq (wf_sets (hreal _ hj) 1 u) fun _ v hv => .bind (M.does_hid _ v) <|
    .ofAlong (inputChanged_holds i 162) fun _ t ht => ⟨?_, ?_, ?_⟩
  · exact (ht.f _ (hfault i i.isLt)).trans ((hv.2.2.1 _ hboth).trans hu.1)
  · exact (ht.f _ (hfault _ hj)).trans hv.1
  · exact (ht.f _ hlevel).trans ((hv.2.2.1 _ hpartner).trans (hu.2.2.1 _ hown))

theorem inputDisc_counts (i : Fin 8) (ms : Nat) {s : State}
    (hen : s.f (SAF.SIN.EN i) = 1 ∧ s.f (SAF.SIN.EN (i.val ^^^ 1)) = 1)
    (hpair : s.f (SAF.SIN.PAIR i) = 1 ∧ s.f (SAF.SIN.PAIR (i.val ^^^ 1)) = 1)
    (hlevel : s.f (SAF.SIN.LEVEL i) ≠ s.f (SAF.SIN.LEVEL (i.val ^^^ 1))) (hms : s.f (SAF.SIN.DISC i) < ms) :
    (inputDisc i ms).Ends s fun _ t => Counted 162 0 s t ∧ (s.lasting 162 0 = false → t.lasting 162 0 = true →
      t.f (SAF.SIN.FAULT i) = 1 ∧ t.f (SAF.SIN.FAULT (i.val ^^^ 1)) = 1) ∧ t.f (SAF.SIN.LEVEL i) = s.f (SAF.SIN.LEVEL i) := by
  have hheld : (SAF.SIN.LEVEL i).Held := SIN_held i (by simp [inputFields])
  refine .read <| .ite_pos ⟨hen.1, hen.2, hpair.1, hpair.2, hlevel, hms⟩ <|
    .seq ((occurrence_told (show 162 < 256 by decide) 0 _ s).along (occurrence_holds 162 0 _)) fun turned u hu => ?_
  obtain ⟨⟨hcount, hturned, -⟩, hh⟩ := hu
  cases turned with
  | false =>
    refine ⟨(), u, M.does_pure () u, hcount, fun h h' => ?_, hh.f _ hheld⟩
    have h' : u.lasting 162 ((0 : Fin 3) : Nat) = true := h'
    have h : s.lasting 162 ((0 : Fin 3) : Nat) = false := h
    rw [h', h] at hturned
    exact absurd hturned (by decide)
  | true =>
    obtain ⟨_, t, hd, ⟨hi, hj, hlev⟩, hl⟩ := (pairFaults_fault i u).along (pairFaults_ledger i)
    exact .ite_pos rfl <| .ofDoes hd ⟨hcount.then_shown (hl.shown 162), fun _ _ => ⟨hi, hj⟩, hlev.trans (hh.f _ hheld)⟩

theorem inputDisc_beyond (i ms : Nat) : (inputDisc i ms).Fixes State.beyond :=
  .read fun _ => .when <| .bind (occurrence_beyond ..) fun _ => .when <| .bind (wf_beyond _ _) fun _ => .bind (wf_beyond _ _) fun _ =>
    .bind (hid_beyond _) fun _ => inputChanged_beyond _ _

/-! ## A supply over current (R389) -/

theorem OC_real : ∀ k : Fin 4, (SAF.SSUP.OC k).Real := by decide

/-- One turn of the inputs of a supply that is switched off. -/
def supplyTurn (s : State) (k i : Nat) : M Unit := if s.f (SAF.SIN.SUP i) = k then setLevel i false else pure ()

theorem supplyOc_counts (k : Fin 4) {s : State} (hen : s.f (SAF.SSUP.EN k) = 1) (hoc : s.f (SAF.SSUP.OC k) = 0) :
    (supplyOc k).Ends s fun _ t => t.f (SAF.SSUP.OC k) = 1 ∧ Counted 163 0 s t ∧
      (∀ i < 8, s.f (SAF.SIN.SUP i) = k → t.f (SAF.SIN.LEVEL i) = 0) ∧
      ∀ i < 8, s.f (SAF.SIN.SUP i) ≠ k → t.f (SAF.SIN.LEVEL i) = s.f (SAF.SIN.LEVEL i) := by
  have hocHeld : (SAF.SSUP.OC k).Held := SSUP_held k.isLt rfl
  have hlevel : ∀ i < 8, (SAF.SIN.LEVEL i).Held := fun i hi => SIN_held ⟨i, hi⟩ (by simp [inputFields])
  have hturn : ∀ m < 8, (supplyTurn s k m).Along fun u t => ∀ y : FldAt, y.Held → y.Apart (SAF.SIN.LEVEL m) → t.f y = u.f y :=
    fun m hm => .ite (setLevel_onlyLevel ⟨m, hm⟩ false) fun u => ⟨(), u, M.does_pure () u, fun _ _ _ => rfl⟩
  have hstays : Ongoing fun u t : State => t.f (SAF.SSUP.OC k) = u.f (SAF.SSUP.OC k) ∧ LedgerStands u t :=
    ⟨fun _ => ⟨rfl, fun _ _ => rfl⟩, fun h h' => ⟨h'.1.trans h.1, ledgerStands.trans h.2 h'.2⟩⟩
  have hkeep := hstays.forEach (f := supplyTurn s k) (List.range 8) fun i hi =>
    ((hturn i (List.mem_range.mp hi)).mono fun _ _ h => h _ hocHeld (.inl (SSUP_ne_SIN k.isLt (List.mem_range.mp hi)))).and <|
    .ite (.ledgerStands (foot_setLevel i false) (by decide)) (ledgerStands.pure ())
  refine .read <| .ite_pos ⟨hen, hoc⟩ <| .seq ((wf_sets (OC_real k) 1 s).along
    (.ledgerStands (M.In.wf (P := [16]) 16 _ _ (SAF.SSUP_page k) (by decide)) (by decide))) fun _ u hu => ?_
  obtain ⟨⟨hone, -, -, hrd⟩, hsu⟩ := hu
  refine .seq ((forM_turns (g := supplyTurn s k) (φ := SAF.SIN.LEVEL)
    (R := fun i a b => (s.f (SAF.SIN.SUP i) = k → b = 0) ∧ (s.f (SAF.SIN.SUP i) ≠ k → b = a))
    (fun m hm => (hturn m hm).mono fun _ _ h n hn hne => h _ (hlevel n hn) (SIN_apart hn hne rfl rfl))
    (fun n hn w => ?_) (List.range 8) u List.nodup_range fun n hn => List.mem_range.mp hn).along hkeep) fun _ v hv => ?_
  · unfold supplyTurn
    by_cases hk : s.f (SAF.SIN.SUP n) = k
    · rw [if_pos hk]
      obtain ⟨_, t, hd, ht⟩ := setLevel_sets ⟨n, hn⟩ false w
      exact .ofDoes hd ⟨fun _ => ht.level, fun h => absurd hk h⟩
    · rw [if_neg hk]
      exact ⟨(), w, M.does_pure () w, fun h => absurd h hk, fun _ => rfl⟩
  · obtain ⟨⟨hlev, -⟩, hocv, hlv⟩ := hv
    have hh := (occur_holds 163 0 (SAF.SSUP k)).run v
    have hcount : Counted 163 0 v _ := occur_counted 163 0 (SAF.SSUP k) v
    have hsin : ∀ i < 8, u.f (SAF.SIN.LEVEL i) = s.f (SAF.SIN.LEVEL i) := fun i hi =>
      f_of_rd_eq _ (hrd _ (SSUP_ne_SIN k.isLt hi).symm)
    refine .ofDoes ((occur_holds 163 0 (SAF.SSUP k)).does v) ⟨(hh.f _ hocHeld).trans (hocv.trans hone),
      hcount.of_shown ((hlv.shown 163).trans (hsu.shown 163)), fun i hi hk => ?_, fun i hi hk => ?_⟩
    · exact (hh.f _ (hlevel i hi)).trans ((hlev i (List.mem_range.mpr hi)).1 hk)
    · exact (hh.f _ (hlevel i hi)).trans (((hlev i (List.mem_range.mpr hi)).2 hk).trans (hsin i hi))

theorem supplyOc_beyond (k : Nat) : (supplyOc k).Fixes State.beyond :=
  .read fun _ => .when <| .bind (wf_beyond _ _) fun _ => .bind (.forM (fun i => .when (setLevel_beyond i false)) _) fun _ =>
    occur_beyond ..

end Sys2Proof.Machine
end

section
/-! Statement O52: safe inputs and sensor supplies (R382 to R389). -/

namespace Sys2Proof.Machine

/-! ## Words as the host writes them back -/

/-- A word whose stored bits are written back as they stand, with a bit set that is not stored, stays as it is. -/
theorem keep_stored (old m c : Word) (h : c &&& m = 0#32) : (((old &&& m) &&& ~~~c ||| c) &&& m) ||| (old &&& ~~~m) = old := by
  ext i hi
  have hbit := congrArg (·.getLsbD i) h
  simp only [BitVec.getLsbD_and, BitVec.getLsbD_zero] at hbit
  simp only [← BitVec.getLsbD_eq_getElem, BitVec.getLsbD_and, BitVec.getLsbD_or, BitVec.getLsbD_not, hi, decide_true, Bool.true_and]
  revert hbit
  cases old.getLsbD i <;> cases m.getLsbD i <;> cases c.getLsbD i <;> simp

/-- What is written with some bits set has them set. -/
theorem set_written (w c : Word) : (w &&& ~~~c ||| c) &&& c = c := by
  ext i hi
  simp only [← BitVec.getLsbD_eq_getElem, BitVec.getLsbD_and, BitVec.getLsbD_or, BitVec.getLsbD_not]
  cases c.getLsbD i <;> simp

/-- Bits outside those that were cleared stand. -/
theorem xor_cleared (w k m : Word) (h : k &&& m = m) : (w ^^^ (w &&& k)) &&& m = 0#32 := by
  ext i hi
  have hbit := congrArg (·.getLsbD i) h
  simp only [BitVec.getLsbD_and] at hbit
  simp only [← BitVec.getLsbD_eq_getElem, BitVec.getLsbD_and, BitVec.getLsbD_xor, BitVec.getLsbD_zero]
  revert hbit
  cases w.getLsbD i <;> cases k.getLsbD i <;> cases m.getLsbD i <;> simp

/-- Two words with the same field are alike in its bits. -/
theorem xor_field {a b m : Word} {hi lo : Nat} (h : bitsOf a hi lo = bitsOf b hi lo)
    (hm : ∀ i < 32, m.getLsbD i = true → lo ≤ i ∧ i ≤ hi) : (a ^^^ b) &&& m = 0#32 := by
  ext i hlt
  simp only [← BitVec.getLsbD_eq_getElem, BitVec.getLsbD_and, BitVec.getLsbD_xor, BitVec.getLsbD_zero]
  cases hset : m.getLsbD i with
  | false => rw [Bool.and_false]
  | true =>
    obtain ⟨hlo, hhi⟩ := hm i hlt hset
    have hbit := congrArg (Nat.testBit · (i - lo)) h
    simp only [bitsOf, Nat.testBit_mod_two_pow, Nat.testBit_div_two_pow, BitVec.testBit_toNat, Nat.sub_add_cancel hlo,
      show i - lo < hi + 1 - lo by omega, decide_true, Bool.true_and] at hbit
    rw [hbit, Bool.xor_self, Bool.false_and]

theorem bitsOf_masked {w mask : Word} {hi lo : Nat} (hhi : hi < 32)
    (hm : ∀ i < 32, lo ≤ i → i ≤ hi → mask.getLsbD i = false) : bitsOf (w &&& mask) hi lo = 0 := by
  apply Nat.eq_of_testBit_eq
  intro i
  simp only [bitsOf, Nat.testBit_mod_two_pow, Nat.testBit_div_two_pow, BitVec.testBit_toNat, BitVec.getLsbD_and, Nat.zero_testBit]
  by_cases hin : i < hi + 1 - lo
  · rw [hm (i + lo) (by omega) (by omega) (by omega), Bool.and_false, Bool.and_false]
  · rw [decide_eq_false hin, Bool.false_and]

theorem OneWord.keepWord {r : RegSpec} {a : Nat} (hp : OneWord r a) (s : State) : s.keepWord a = s.rd a &&& r.stored := by
  simp only [State.keepWord, hp.spec]

theorem OneWord.stored_rd {r : RegSpec} {a : Nat} (hp : OneWord r a) (x : Word) (s : State) :
    (stored r a x s).rd a = storedWord r x (s.rd a) &&& implMask a := rd_apply_reg_same _ _ _ (by simp [hp.spec])

/-- A write that leaves the stored bits as they were is no change of the configuration. -/
theorem OneWord.writeWord_still {r : RegSpec} {a : Nat} (hp : OneWord r a) {x : Word} (hclock : r.name ≠ .BUS_TIME_CFG) (c : Ctx)
    {s t : State} (h : (writeEffect [a] r a x (s.rd a)).Does (stored r a x s) () t) (hrws : (s.rd a ^^^ t.rd a) &&& r.rws = 0#32) :
    (writeWord c [a] a x).Does s () t := by
  unfold writeWord
  simp only [hp.spec]
  exact .ite_neg hclock <| (M.does_rd _ s).bind <| (M.does_wr _ _ s).bind <| h.bind <| (M.does_rd _ _).bind <|
    .ite_neg (not_not_intro hrws) <| M.does_pure () _

/-- Such a host write: its effect, and about it what the link does. -/
theorem hostWrite_still {r : RegSpec} {a : Nat} (hp : OneWord r a) (hclock : r.name ≠ .BUS_TIME_CFG) {v : Via} {s : State} {x : Word}
    (h : s.accepts v [(a, x)] = true) {W : State → State}
    (hw : ∀ u, Bookkept s u → (writeEffect [a] r a x (u.rd a)).Does (stored r a x u) () (W u))
    (hrws : ∀ u, Bookkept s u → (u.rd a ^^^ (W u).rd a) &&& r.rws = 0#32)
    (hgo : ∀ u, Bookkept s u → u.hid.cmd.go = none → (W u).hid.cmd.go = none) :
    ∃ u, Bookkept s u ∧ Sent (W u) ((hostWrite v [(a, x)]).run s) := by
  obtain ⟨_, u, w, hbook, hbook', hreply⟩ := hostWrite_word hp h (W := fun _ => W)
    (fun c u hu => hp.writeWord_still hclock c (hw u hu) (hrws u hu)) fun _ u hu => hgo u hu
  exact ⟨u, hbook, hbook'.sent.trans hreply.sent⟩

/-! ## The over-current of a supply is cleared (R389) -/

theorem SSUP_word (k : Fin 4) : ∃ r, OneWord r (SAF.SSUP k) ∧ r.name = .SAF_SSUP ∧ r.rws = 0x80FF0000#32 ∧
    r.stored = 0x80FF0000#32 ∧ ∀ old : Word, storedWord r (withBits (old &&& 0x80FF0000#32) 30 30 1) old &&& implMask (SAF.SSUP k) =
      old &&& 0x80FFFFFF#32 := by
  have hword : ∀ old : Word, ((((old &&& 0x80FF0000#32) &&& ~~~0x40000000#32 ||| 0x40000000#32) &&& 0x80FF0000#32) |||
      (old &&& ~~~0x80FF0000#32)) &&& ~~~(((old &&& 0x80FF0000#32) &&& ~~~0x40000000#32 ||| 0x40000000#32) &&& 0x40000000#32) &&&
      0xC0FFFFFF#32 = old &&& 0x80FFFFFF#32 := fun old => by
    rw [keep_stored _ _ _ (by decide), set_written, BitVec.and_assoc]
    rfl
  match k with
  | 0 => exact ⟨_, ⟨rfl, by decide, rfl, fun _ => rfl⟩, rfl, rfl, rfl, hword⟩
  | 1 => exact ⟨_, ⟨rfl, by decide, rfl, fun _ => rfl⟩, rfl, rfl, rfl, hword⟩
  | 2 => exact ⟨_, ⟨rfl, by decide, rfl, fun _ => rfl⟩, rfl, rfl, rfl, hword⟩
  | 3 => exact ⟨_, ⟨rfl, by decide, rfl, fun _ => rfl⟩, rfl, rfl, rfl, hword⟩

theorem Bookkept.rd_saf {s u : State} (h : Bookkept s u) {a : Nat} (ha : a / 65536 = 16) : u.rd a = s.rd a :=
  bare_rd h.bare (by rw [ha]; decide)

theorem Sent.rd_saf {s u : State} (h : Sent s u) {a : Nat} (ha : a / 65536 = 16) : u.rd a = s.rd a :=
  bare_rd h.bare (by rw [ha]; decide)

theorem ssupWrite_clears {s : State} {v : Via} (k : Fin 4)
    (h : s.accepts v [(SAF.SSUP k, withBits (s.keepWord (SAF.SSUP k)) 30 30 1)] = true) :
    let t := (writeField v (SAF.SSUP.OC k) 1).run s
    t.f (SAF.SSUP.OC k) = 0 ∧ t.f (SAF.SSUP.EN k) = s.f (SAF.SSUP.EN k) ∧ Keeps [SAF.SSUP k] [0x01, 0x14] s t := by
  obtain ⟨r, hp, hname, hrws, hstored, hword⟩ := SSUP_word k
  have hpage := SAF.SSUP_page k
  have hd : (writeField v (SAF.SSUP.OC k) 1).Does s () _ :=
    .read <| (foot_hostWrite v [(SAF.SSUP k, withBits (s.keepWord (SAF.SSUP k)) 30 30 1)]).does s
  intro t
  rw [show t = _ from hd.run]
  clear t hd
  rw [hp.keepWord, hstored] at h ⊢
  have hset : ∀ u, Bookkept s u → (stored r (SAF.SSUP k) (withBits (s.rd (SAF.SSUP k) &&& 0x80FF0000#32) 30 30 1) u).rd (SAF.SSUP k) =
      s.rd (SAF.SSUP k) &&& 0x80FFFFFF#32 := fun u hu => by rw [hp.stored_rd, hu.rd_saf hpage, hword]
  obtain ⟨u, hbook, hsent⟩ := hostWrite_still hp (by rw [hname]; decide) h
    (W := stored r (SAF.SSUP k) (withBits (s.rd (SAF.SSUP k) &&& 0x80FF0000#32) 30 30 1))
    (fun u _ => by
      refine .read ?_
      simp only [hname]
      exact M.does_pure () _)
    (fun u hu => by
      rw [hset u hu, hu.rd_saf hpage, hrws]
      exact xor_cleared _ _ _ (by decide))
    fun u _ hgo => by rw [stored_hid, hgo]
  generalize (hostWrite v _).run s = t at hsent ⊢
  have hk := stored_keeps r (SAF.SSUP k) (withBits (s.rd (SAF.SSUP k) &&& 0x80FF0000#32) 30 30 1) u
  have hrd := (hsent.rd_saf hpage).trans (hset u hbook)
  refine ⟨?_, ?_, ((hbook.sent.keeps.trans hk).trans hsent.keeps).mono (by simp) (by simp [eventPages])⟩
  · show bitsOf (t.rd (SAF.SSUP k)) 30 30 = 0
    rw [hrd]
    exact bitsOf_masked (by decide) (by decide)
  · show bitsOf (t.rd (SAF.SSUP k)) 31 31 = _
    rw [hrd]
    exact bitsOf_and (by decide) (by decide)

/-! ## The checking of an input restarts (R388) -/

theorem SIN_word (i : Fin 8) : ∃ r, OneWord r (SAF.SIN i) ∧ r.name = .SAF_SIN ∧ r.rws = 0xFFFF8000#32 ∧
    r.stored = 0xFFFF8000#32 ∧ r.ix1 (SAF.SIN i) = i ∧
    ∀ old : Word, storedWord r (withBits (old &&& 0xFFFF8000#32) 12 12 1) old &&& implMask (SAF.SIN i) = old &&& 0xFFFFF0FF#32 := by
  have hword : ∀ old : Word, ((((old &&& 0xFFFF8000#32) &&& ~~~0x1000#32 ||| 0x1000#32) &&& 0xFFFF8000#32) |||
      (old &&& ~~~0xFFFF8000#32)) &&& 0xFFFFF0FF#32 = old &&& 0xFFFFF0FF#32 := fun old => by
    rw [keep_stored _ _ _ (by decide)]
  match i with
  | 0 => exact ⟨_, ⟨rfl, by decide, rfl, fun _ => rfl⟩, rfl, rfl, rfl, rfl, hword⟩
  | 1 => exact ⟨_, ⟨rfl, by decide, rfl, fun _ => rfl⟩, rfl, rfl, rfl, rfl, hword⟩
  | 2 => exact ⟨_, ⟨rfl, by decide, rfl, fun _ => rfl⟩, rfl, rfl, rfl, rfl, hword⟩
  | 3 => exact ⟨_, ⟨rfl, by decide, rfl, fun _ => rfl⟩, rfl, rfl, rfl, rfl, hword⟩
  | 4 => exact ⟨_, ⟨rfl, by decide, rfl, fun _ => rfl⟩, rfl, rfl, rfl, rfl, hword⟩
  | 5 => exact ⟨_, ⟨rfl, by decide, rfl, fun _ => rfl⟩, rfl, rfl, rfl, rfl, hword⟩
  | 6 => exact ⟨_, ⟨rfl, by decide, rfl, fun _ => rfl⟩, rfl, rfl, rfl, rfl, hword⟩
  | 7 => exact ⟨_, ⟨rfl, by decide, rfl, fun _ => rfl⟩, rfl, rfl, rfl, rfl, hword⟩

/-- What a write of 1 into FAULT of an input does beside the word. -/
def faultWritten (i : Nat) : M Unit := do
  sinFaultClear i
  inputChanged i 0x11

/-- The input as its configuration, its level and its fault stand, and its checking begun again. -/
structure Restarted (i : Nat) (s t : State) : Prop where
  sin : mget ({} : SinSt) t.hid.saf.sins i = ⟨0, true⟩
  f : ∀ x ∈ inputFields i, t.f x = s.f x

theorem faultWritten_restarts (i : Fin 8) {s : State} (h : s.f (SAF.SIN.FAULT i) = 1) :
    (faultWritten i).Ends s fun _ t => Restarted i s t := by
  refine .bind (show (sinFaultClear i).Does s () _ from .read <| .ite_pos h <| M.does_hid _ s) ?_
  refine .ofAlong (inputChanged_holds i 0x11) fun _ t ht => ⟨?_, fun x hx => ht.f x (SIN_held i hx)⟩
  rw [ht.sins]
  simp [mget, sget, sget?_sput_same]

theorem faultWritten_beyond (i : Nat) : (faultWritten i).Fixes State.beyond :=
  .bind (.read fun _ => .when (hid_beyond _)) fun _ => inputChanged_beyond i _

theorem reactive_go : Reactive fun s t => t.hid.cmd.go = s.hid.cmd.go where
  ongoing := ⟨fun _ => rfl, fun h h' => h'.trans h⟩
  places _ _ h := congrArg CmdSt.go (h.cmd (by decide) (by decide))
  event _ _ _ _ _ := .ofFixes (unreacted_go.event ..) fun _ _ h => h
  attn := .ofFixes (unsent_cmd CmdSt.go fun _ _ _ _ _ _ => rfl).setAttn fun _ _ h => h

theorem faultWritten_go (i : Nat) : (faultWritten i).Along fun s t => t.hid.cmd.go = s.hid.cmd.go :=
  reactive_go.ongoing.bind (.read fun _ => reactive_go.ongoing.when (.act fun _ => rfl)) fun _ => reactive_go.inputChanged i _

theorem foot_faultWritten (i : Nat) : (faultWritten i).In [0, 1, 3, 4, 5, 6, 9, 12, 16, 20, 33, 43, 44, 45, 47, 48, 49, 50] :=
  .bind ((foot_sinFaultClear i).mono (by decide)) fun _ => foot_inputChanged i 0x11

theorem faultWritten_keeps (i : Nat) (s : State) : Keeps [] ledgerPages s ((faultWritten i).run s) :=
  ((foot_faultWritten i).run s).keeps ((faultWritten_beyond i).run s) (by decide) (by decide)

/-- The effect of the write on an input that has failed. -/
theorem sinWrite_effect {r : RegSpec} {i : Fin 8} (hname : r.name = .SAF_SIN) (hix : r.ix1 (SAF.SIN i) = i) (old : Word) (s : State) :
    (writeEffect [SAF.SIN i] r (SAF.SIN i) (withBits (old &&& 0xFFFF8000#32) 12 12 1) old).Does s () ((faultWritten i).run s) := by
  have hbit : bitsOf (withBits (old &&& 0xFFFF8000#32) 12 12 1) 12 12 = 1 := bitsOf_withBits_same _ _ (by decide)
  refine .read ?_
  simp only [hname, hix, hbit]
  exact (foot_faultWritten i).does s

theorem inputFields_implemented : ∀ i : Fin 8, ∀ x ∈ inputFields i,
    x.hi < 32 ∧ ∀ j < 32, x.lo ≤ j → j ≤ x.hi → (0xFFFFF0FF#32).getLsbD j = true := by decide

theorem sinWrite_restarts {s : State} {v : Via} (i : Fin 8) (h : s.accepts v [(SAF.SIN i, withBits (s.keepWord (SAF.SIN i)) 12 12 1)] = true)
    (hfault : s.f (SAF.SIN.FAULT i) = 1) :
    let t := (writeField v (SAF.SIN.FAULT i) 1).run s
    Restarted i s t ∧ Keeps [] ledgerPages s t := by
  obtain ⟨r, hp, hname, hrws, hstored, hix, hword⟩ := SIN_word i
  have hpage := SAF.SIN_page i
  have hd : (writeField v (SAF.SIN.FAULT i) 1).Does s () _ :=
    .read <| (foot_hostWrite v [(SAF.SIN i, withBits (s.keepWord (SAF.SIN i)) 12 12 1)]).does s
  intro t
  rw [show t = _ from hd.run]
  clear t hd
  rw [hp.keepWord, hstored] at h ⊢
  set x := withBits (s.rd (SAF.SIN i) &&& 0xFFFF8000#32) 12 12 1 with hx
  have hset : ∀ u, Bookkept s u → (stored r (SAF.SIN i) x u).rd (SAF.SIN i) = s.rd (SAF.SIN i) &&& 0xFFFFF0FF#32 := fun u hu => by
    rw [hp.stored_rd, hu.rd_saf hpage, hword]
  have hf : ∀ u, Bookkept s u → ∀ y ∈ inputFields i, (stored r (SAF.SIN i) x u).f y = s.f y := fun u hu y hy => by
    obtain ⟨haddr, -⟩ := inputFields_bits i y hy
    show bitsOf (State.rd _ y.addr) y.hi y.lo = bitsOf (s.rd y.addr) y.hi y.lo
    rw [haddr, hset u hu]
    obtain ⟨hhi, hmask⟩ := inputFields_implemented i y hy
    exact bitsOf_and hhi hmask
  have hend : ∀ u, Bookkept s u → Restarted i s ((faultWritten i).run (stored r (SAF.SIN i) x u)) := fun u hu => by
    have hstand := hf u hu
    obtain ⟨hsin, hfs⟩ := (faultWritten_restarts i ((hstand _ (by simp [inputFields])).trans hfault)).run
    exact ⟨hsin, fun y hy => (hfs y hy).trans (hstand y hy)⟩
  have hstoredBits : ∀ j < 32, (0xFFFF8000#32).getLsbD j = true → 15 ≤ j ∧ j ≤ 31 := by decide
  obtain ⟨u, hbook, hsent⟩ := hostWrite_still hp (by rw [hname]; decide) h
    (W := fun u => (faultWritten i).run (stored r (SAF.SIN i) x u))
    (fun u hu => by
      rw [hx, ← hu.rd_saf hpage]
      exact sinWrite_effect hname hix _ _)
    (fun u hu => by
      rw [hrws, hu.rd_saf hpage]
      exact xor_field ((hend u hu).f ⟨SAF.SIN i, 31, 15⟩ (by simp [inputFields])).symm hstoredBits)
    fun u _ hgo => by rw [(faultWritten_go i).run, stored_hid, hgo]
  generalize (hostWrite v _).run s = t at hsent ⊢
  obtain ⟨hsin, hfs⟩ := hend u hbook
  have hsaf : t.hid.saf = _ := hsent.same.hid (by decide) 49 (by decide)
  have hk := ((hbook.sent.keeps.trans (stored_keeps r (SAF.SIN i) x u)).trans (faultWritten_keeps i _)).trans hsent.keeps
  have hreach : ∀ p ∈ ((eventPages ++ []) ++ ledgerPages) ++ eventPages, p ∈ ledgerPages := by decide
  refine ⟨⟨by rw [hsaf]; exact hsin, fun y hy => ?_⟩, fun a _ ha => hk.rd a (fun hin => ?_) (fun hin => ha (hreach _ hin)),
    hk.tabs, hk.vio, hk.chg, hk.pending⟩
  · exact (f_of_rd_eq y (hsent.rd_saf (by rw [(inputFields_bits i y hy).1, hpage]))).trans (hfs y hy)
  · simp only [List.nil_append, List.append_nil, List.mem_singleton] at hin
    rw [hin, hpage] at ha
    exact ha (by decide)

/-! ## The statement -/

theorem LevelSet.fault {i : Fin 8} {high : Bool} {s t : State} (h : LevelSet i high s t) : t.f (SAF.SIN.FAULT i) = s.f (SAF.SIN.FAULT i) :=
  h.others _ (SIN_held i (by simp [inputFields])) (LEVEL_apart i _ (by simp))

theorem LevelSet.apart {i : Fin 8} {high : Bool} {s t : State} (h : LevelSet i high s t) (j : Nat) (hj : j < 8) (hne : j ≠ i) :
    t.f (SAF.SIN.LEVEL j) = s.f (SAF.SIN.LEVEL j) ∧ t.f (SAF.SIN.FAULT j) = s.f (SAF.SIN.FAULT j) := by
  have hheld := fun x hx => SIN_held ⟨j, hj⟩ (x := x) hx
  exact ⟨h.others _ (hheld _ (by simp [inputFields])) (SIN_apart hj hne rfl rfl),
    h.others _ (hheld _ (by simp [inputFields])) (SIN_apart hj hne rfl rfl)⟩

theorem inputLow_low {i f : Fin 8} {us : Nat} {s : State} (hf : f ≠ 0) (h4 : f ≠ 4) (hus : s.f (SAF.SIN.FILTER i) + 1 ≤ us)
    (hen : s.f (SAF.FUNC_CFG.EN f) = 1) (hmask : bit (s.f (SAF.FUNC_CFG.SIN_MASK f)) i = true) (hi : s.f (SAF.SIN.EN i) = 1)
    (htrig : (s.func f).trig = 0) : (inputLow i us).Ends s fun _ t => LevelSet i false s t ∧ ActsOnInput f t := by
  obtain ⟨_, t, hd, hset⟩ := setLevel_sets i false s
  have hacts := (setLevel_acts i f hf h4 hen hmask hi htrig).run
  rw [hd.run] at hacts
  exact .read <| .ite_pos hus ⟨_, t, hd, hset, hacts⟩

theorem inputHigh_high {i : Fin 8} {s : State} (hoc : s.f (SAF.SSUP.OC (s.f (SAF.SIN.SUP i))) = 0) :
    (inputHigh i).Ends s fun _ t => LevelSet i true s t := .read <| .read <| .ite_pos hoc (setLevel_sets i true s)

theorem inputLow_beyond (i us : Nat) : (inputLow i us).Fixes State.beyond := .read fun _ => .when (setLevel_beyond i false)

theorem inputHigh_beyond (i : Nat) : (inputHigh i).Fixes State.beyond :=
  .read fun _ => .read fun _ => .when (setLevel_beyond i true)

/-- An unlisted page stands where an action comes to an end. -/
theorem M.Ends.keeping {m : M Unit} {s : State} {Q : State → Prop} {P : List Nat} (pages : List Nat) (h : m.Ends s fun _ => Q)
    (hin : m.In P) (hb : m.Fixes State.beyond) (hp : ∀ p ∈ P, p < 23 → p ∈ pages) (hn : 99 ∉ P ∧ 32 ∉ P ∧ 34 ∉ P ∧ 36 ∉ P) :
    m.Ends s fun _ t => Q t ∧ Keeps [] pages s t := by
  obtain ⟨_, t, hd, hq⟩ := h
  have hk := (hin.run s).keeps (hb.run s) hp hn
  rw [hd.run] at hk
  exact .ofDoes hd ⟨hq, hk⟩

/-- Settles O52: a change at an input leaves what the host set at every input, and the pages of the ledger's reactions hold all
that the functions do. -/
theorem safeInputsAndSupplies : Obligations.Safe_inputs_and_supplies := by
  unfold Obligations.Safe_inputs_and_supplies
  refine ⟨fun s i f us ha hus hmem hcfg hi htrig => ?_, fun s i ha hsound hoc => ?_, fun s k low short time ha hon hdue => ?_,
    fun s i ms ha hen hpair hlevel hms => ?_, fun s k ha hon => ?_, fun s v k h => ?_, fun s v i h hfault => ?_⟩
  · have hf : f ≠ 0 ∧ f ≠ 4 := ⟨by rintro rfl; revert hmem; decide, by rintro rfl; revert hmem; decide⟩
    obtain ⟨_, t, hd, ⟨hset, hacts⟩, hk⟩ := (inputLow_low hf.1 hf.2 hus hcfg.1 hcfg.2 hi htrig).keeping ([0x0A, 0x0B] ++ ledgerPages)
      (foot_inputLow i us) (inputLow_beyond i us) (by decide) (by decide)
    obtain ⟨hdemand, hcount⟩ := hset.low rfl
    have hactive : t.funcActive f = true := by rw [State.funcActive, hacts.active]; rfl
    exact .of_ends rfl <| .whenAwake ha <| .ofDoes hd ⟨hset.level, hdemand, hcount, hactive, hset.fault, hset.apart, hk⟩
  · obtain ⟨_, t, hd, hset, hk⟩ := (inputHigh_high hoc).keeping ([0x0A, 0x0B] ++ ledgerPages) (foot_inputHigh i) (inputHigh_beyond i)
      (by decide) (by decide)
    obtain ⟨hdemand, hcount⟩ := hset.healthy rfl hsound.1 hsound.2
    exact .of_ends rfl <| .whenAwake ha <| .ofDoes hd ⟨hset.level, hdemand, hcount, hset.apart, hk⟩
  · obtain ⟨_, t, hd, ⟨hpulses, htests⟩, hk⟩ := (testPulse_tests k low.toNat short.toNat time hon.1 hon.2 hdue).keeping
      ([0x0A, 0x0B] ++ ledgerPages) (foot_testPulse _ _ _ _) (testPulse_beyond _ _ _ _) (by decide) (by decide)
    exact .of_ends rfl <| .whenAwake ha <| .ofDoes hd ⟨hpulses, fun j hj => (htests j hj).stuck, fun j hj => (htests j hj).shorted,
      fun j hj => (htests j hj).sound, hk⟩
  · obtain ⟨_, t, hd, ⟨hcount, hfaults, hlev⟩, hk⟩ := (inputDisc_counts i ms hen hpair hlevel hms).keeping ([0x0A, 0x0B] ++ ledgerPages)
      (foot_inputDisc i ms) (inputDisc_beyond i ms) (by decide) (by decide)
    exact .of_ends rfl <| .whenAwake ha <| .ofDoes hd ⟨hcount, hfaults, hlev, hk⟩
  · obtain ⟨_, t, hd, ⟨hoc, hcount, hlow, hrest⟩, hk⟩ := (supplyOc_counts k hon.1 hon.2).keeping ([0x0A, 0x0B] ++ ledgerPages)
      (foot_supplyOc k) (supplyOc_beyond k) (by decide) (by decide)
    exact .of_ends rfl <| .whenAwake ha <| .ofDoes hd ⟨hoc, hcount, hlow, hrest, hk⟩
  · exact .of_checked rfl (via_wf_of_accepts h) (ssupWrite_clears k h)
  · obtain ⟨⟨hsin, hf⟩, hk⟩ := sinWrite_restarts i h hfault
    exact .of_checked rfl (via_wf_of_accepts h)
      ⟨hsin, (hf _ (by simp [inputFields])).trans hfault, hf _ (by simp [inputFields]), hk⟩

end Sys2Proof.Machine
end

section
/-! SUPPORT for O54: what a controller's reception has shown, along what sends, reacts and stops. -/

namespace Sys2Proof.Machine

-- many short proofs one after another: elaborated in order, none holds a thread while it waits for the one before it
set_option Elab.async false

/-- The receive log of a controller, the number of its next entry, and the frames dropped since the last. -/
def BusSt.heard (n : Nat) (b : BusSt) : List LogEntry × Nat × Nat :=
  ((mget {} b.can n).log, (mget {} b.can n).next, (mget {} b.can n).dropped)

/-- What was heard stands: as the readers find it, and as the parameters show it. -/
structure Heard (n : Nat) (s t : State) : Prop where
  seq : t.f (BUS.RX_HEAD.RXSEQ n) = s.f (BUS.RX_HEAD.RXSEQ n)
  lost : t.f (BUS.RX_STAT.LOST n) = s.f (BUS.RX_STAT.LOST n)
  bus : t.hid.bus.heard n = s.hid.bus.heard n

theorem Heard.log {n : Nat} {s t : State} (h : Heard n s t) : (t.can n).log = (s.can n).log := (Prod.ext_iff.mp h.bus).1

theorem Heard.next {n : Nat} {s t : State} (h : Heard n s t) : (t.can n).next = (s.can n).next :=
  (Prod.ext_iff.mp (Prod.ext_iff.mp h.bus).2).1

theorem Heard.dropped {n : Nat} {s t : State} (h : Heard n s t) : (t.can n).dropped = (s.can n).dropped :=
  (Prod.ext_iff.mp (Prod.ext_iff.mp h.bus).2).2

theorem heard_queueless (n : Nat) : Queueless (BusSt.heard n) where
  out _ _ := rfl
  tx b k l := by
    rcases eq_or_ne n k with rfl | hne
    · simp only [BusSt.heard, mget_mupd_same]
    · simp only [BusSt.heard, mget_mupd_other _ _ _ _ _ hne]

/-! ## Words beside those that sending counts in -/

theorem CAN_not_sendReg {a : Nat} (hp : a / 65536 = 20) (h : ∀ n, a ≠ BUS.TX_STAT n) : ¬ SendReg a := by
  have hTunnel : ∀ i, CMD.TUNNEL_RX i / 65536 = 1 := CMD.TUNNEL_RX_page
  rintro (rfl | rfl | rfl | ⟨i, rfl⟩ | ⟨n, rfl⟩)
  · exact absurd hp (by decide)
  · exact absurd hp (by decide)
  · exact absurd hp (by decide)
  · rw [hTunnel] at hp
    exact absurd hp (by decide)
  · exact h n rfl

section
variable (n : Fin 4)

theorem RX_HEAD_not_sendReg : ¬ SendReg (BUS.RX_HEAD n) := CAN_not_sendReg (BUS.RX_HEAD_page n) fun m => by
  simp only [BUS.RX_HEAD, BUS.TX_STAT, arr, n.isLt, Nat.zero_le, and_self, if_true]
  split <;> omega

theorem RX_STAT_not_sendReg : ¬ SendReg (BUS.RX_STAT n) := CAN_not_sendReg (BUS.RX_STAT_page n) fun m => by
  simp only [BUS.RX_STAT, BUS.TX_STAT, arr, n.isLt, Nat.zero_le, and_self, if_true]
  split <;> omega

theorem Heard.ongoing : Ongoing (Heard n) :=
  ⟨fun _ => ⟨rfl, rfl, rfl⟩, fun h h' => ⟨h'.seq.trans h.seq, h'.lost.trans h.lost, h'.bus.trans h.bus⟩⟩

theorem Heard.of_rd {s t : State} (hhead : t.rd (BUS.RX_HEAD n) = s.rd (BUS.RX_HEAD n)) (hstat : t.rd (BUS.RX_STAT n) = s.rd (BUS.RX_STAT n))
    (hbus : t.hid.bus.heard n = s.hid.bus.heard n) : Heard n s t :=
  ⟨f_of_rd_eq (BUS.RX_HEAD.RXSEQ n) hhead, f_of_rd_eq (BUS.RX_STAT.LOST n) hstat, hbus⟩

theorem Heard.of_same {P : List Nat} {s t : State} (h : Same P s t) (hn : 20 ∉ P ∧ 47 ∉ P ∧ 99 ∉ P) : Heard n s t :=
  .of_rd n (h.rd hn.2.2 _ (BUS.RX_HEAD_page n ▸ hn.1)) (h.rd hn.2.2 _ (BUS.RX_STAT_page n ▸ hn.1))
    (congrArg (BusSt.heard n) (h.hid hn.2.2 47 hn.2.1))

theorem M.Along.heardIn {α : Type} {P : List Nat} {m : M α} (h : m.In P)
    (hn : 20 ∉ P ∧ 47 ∉ P ∧ 99 ∉ P := by decide) : m.Along (Heard n) :=
  .ofIn h fun _ _ hs => .of_same n hs hn

/-- What sending does, it does to no view of this. -/
theorem M.Along.heardSent {α : Type} {m : M α} (hrd : ∀ a, ¬ SendReg a → m.Fixes fun s => s.rd a)
    (hbus : m.Fixes fun s => s.hid.bus.heard n) : m.Along (Heard n) :=
  .ofFixes ((hrd _ (RX_HEAD_not_sendReg n)).prod ((hrd _ (RX_STAT_not_sendReg n)).prod hbus)) fun _ _ h =>
    .of_rd n (Prod.ext_iff.mp h).1 (Prod.ext_iff.mp (Prod.ext_iff.mp h).2).1 (Prod.ext_iff.mp (Prod.ext_iff.mp h).2).2

theorem M.Along.heardWr {a : Nat} (w : Word) (h : a ≠ BUS.RX_HEAD n) (h' : a ≠ BUS.RX_STAT n) : (wr a w).Along (Heard n) :=
  .act fun s => .of_rd n (rd_apply_reg_other _ _ _ s h.symm) (rd_apply_reg_other _ _ _ s h'.symm)
    (congrArg (fun y : Hidden => y.bus.heard n) (apply_reg_hid ..))

theorem M.Along.heardWf {x : FldAt} (v : Nat) (h : x.addr ≠ BUS.RX_HEAD n) (h' : x.addr ≠ BUS.RX_STAT n) : (wf x v).Along (Heard n) :=
  .read fun _ => .heardWr n _ h h'

theorem M.Along.heardInc {x : FldAt} (h : x.addr ≠ BUS.RX_HEAD n) (h' : x.addr ≠ BUS.RX_STAT n) : (inc x).Along (Heard n) :=
  .read fun _ => (Heard.ongoing n).when (.heardWf n _ h h')

theorem M.Along.heardHid {f : Hidden → Hidden} (h : ∀ x, (f x).bus.heard n = x.bus.heard n) : (hid f).Along (Heard n) :=
  .act fun s => .of_rd n rfl rfl (h s.hid)

theorem M.Along.heardAt {x : FldAt} {p : Nat} (v : Nat) (hx : x.addr / 65536 = p) (hp : p ≠ 20 := by decide) : (wf x v).Along (Heard n) :=
  .heardWf n v (fun h => hp (by rw [← hx, h, BUS.RX_HEAD_page])) fun h => hp (by rw [← hx, h, BUS.RX_STAT_page])

theorem M.Along.heardIncAt {x : FldAt} {p : Nat} (hx : x.addr / 65536 = p) (hp : p ≠ 20 := by decide) : (inc x).Along (Heard n) :=
  .read fun _ => (Heard.ongoing n).when (.heardAt n _ hx hp)

theorem reactive_heard : Reactive (Heard n) where
  ongoing := Heard.ongoing n
  places _ _ h := .of_same n h (by decide)
  event op page inst scope body := .heardSent n (fun _ ha => (unsent_rd ha).event op page inst scope body)
    ((heard_queueless n).event op page inst scope body)
  attn := .heardIn n foot_setAttn (by decide)

theorem eventDev_heard (op : Nat) (body : List Byte) : (eventDev op body).Along (Heard n) := (reactive_heard n).event _ _ _ _ _

theorem complete_heard (kind unit status reason detail : Nat) (data : List Byte) :
    (complete kind unit status reason detail data).Along (Heard n) :=
  .heardSent n (fun _ ha => (unsent_rd ha).complete (fun _ _ _ => rfl) kind unit status reason detail data)
    ((heard_queueless n).complete kind unit status reason detail data)

theorem sendReply_heard (p : Packet) (key : Option (List Byte)) (r : OutPkt) : (sendReply p key r).Along (Heard n) :=
  .heardSent n (fun _ ha => (unsent_rd ha).sendReply p key r) ((heard_queueless n).sendReply p key r)

theorem sendCompletion_heard (d : Due) (status reason detail : Nat) (data : List Byte) :
    (sendCompletion d status reason detail data).Along (Heard n) :=
  .heardSent n (fun _ ha => (unsent_rd ha).sendCompletion (fun _ _ _ => rfl) d status reason detail data)
    ((heard_queueless n).sendCompletion d status reason detail data)

theorem logViolation_heard (c : Ctx) (a : Ans) : (logViolation c a).Along (Heard n) := by
  have k := Heard.ongoing n
  have hvio : ∀ e, (violation e).Along (Heard n) := fun e => .read fun _ => k.thenMore (.heardIncAt n (p := 1) (by decide)) fun _ =>
    k.bind (.heardIn n (M.In.vio (P := [34]) e (by decide))) fun _ => k.bind (.heardAt n (p := 1) _ (by decide)) fun _ =>
    eventDev_heard n _ _
  exact k.when <| .read fun _ => hvio _

theorem endRun_heard (by_ : Option Packet) (a : Ans) : (endRun by_ a).Along (Heard n) := by
  cases by_ with
  | some _ => exact complete_heard n _ _ _ _ _ _
  | none => exact eventDev_heard n _ _

/-! ## Chords and islands -/

theorem setChd_heard (m new cause : Nat) : (setChd m new cause).Along (Heard n) := by
  have k := Heard.ongoing n
  exact .read fun _ => k.when <| k.bind (.heardIn n (foot_putChd m new)) fun _ => eventDev_heard n _ _

theorem giveBack_heard (m cause : Nat) : (giveBack m cause).Along (Heard n) := by
  have k := Heard.ongoing n
  exact k.bind (.heardIn n (foot_updChord m _)) fun _ => .read fun _ => k.when (setChd_heard n _ _ _)

theorem dropOperation_heard (d : Due) : (dropOperation d).Along (Heard n) := by
  have k := Heard.ongoing n
  have hhid : ∀ {f : Hidden → Hidden}, (∀ x, (f x).bus = x.bus) → (hid f).Along (Heard n) := fun h =>
    .heardHid n fun x => congrArg (BusSt.heard n) (h x)
  unfold dropOperation
  split
  · exact k.when (.heardIn n (foot_updBank _ _))
  · exact .ite (k.bind (.heardAt n (p := 2) _ (by decide)) fun _ => hhid fun _ => rfl)
      (k.bind (.heardIn n (foot_updMea _)) fun _ => hhid fun _ => rfl)
  · exact k.bind (hhid fun _ => rfl) fun _ => .heardAt n (p := 19) _ (by decide)
  · exact k.bind (.heardIn n (foot_updChord _ _)) fun _ => .read fun _ => k.when <|
      k.bind (setChd_heard n _ _ _) fun _ => giveBack_heard n _ _

theorem abandonOperations_heard (m : Nat) : (abandonOperations m).Along (Heard n) := by
  have k := Heard.ongoing n
  exact .read fun _ => k.forM (fun d => k.bind (dropOperation_heard n d) fun _ => k.bind (.heardIn n (foot_absentReply m)) fun _ =>
    sendCompletion_heard n _ _ _ _ _) _

theorem abandonRequests_heard (m : Nat) : (abandonRequests m).Along (Heard n) := by
  have k := Heard.ongoing n
  have hcmd : ∀ g : Hidden → CmdSt, (hid fun x => { x with cmd := g x }).Along (Heard n) := fun _ => .heardHid n fun _ => rfl
  have hreply : ∀ l : List Req, (l.forM fun r => do
      absentReply m
      replyEarly r.op r.p (absentAt (SYS.ISLAND m))).Along (Heard n) := fun l =>
    k.forM (fun _ => k.bind (.heardIn n (foot_absentReply m)) fun _ => .read fun _ => sendReply_heard n _ _ _) l
  refine .read fun s => k.when ?_
  dsimp only
  split
  · exact k.bind (hcmd _) fun _ => k.bind (.heardAt n (p := 1) _ (by decide)) fun _ => k.bind (.heardIn n (foot_absentReply m)) fun _ =>
      k.bind (endRun_heard n _ _) fun _ => k.bind (hcmd _) fun _ => hreply _
  · exact k.bind (hcmd _) fun _ => hreply _

theorem setIsland_heard (m new : Nat) : (setIsland m new).Along (Heard n) := by
  have k := Heard.ongoing n
  exact .read fun _ => k.when <| k.bind (.heardAt n _ (SYS.ISLAND_page m)) fun _ => k.bind (eventDev_heard n _ _) fun _ => k.when <|
    k.bind (abandonOperations_heard n m) fun _ => abandonRequests_heard n m

theorem handLeft_heard : handLeft.Along (Heard n) := by
  have k := Heard.ongoing n
  refine .read fun s => ?_
  split
  · exact k.when <| k.bind (.heardAt n (p := 2) _ (by decide)) fun _ => k.bind (.heardHid n fun _ => rfl) fun _ =>
      complete_heard n _ _ _ _ _ _
  · exact k.pure _

theorem rebindGroups_heard : rebindGroups.Along (Heard n) := by
  have k := Heard.ongoing n
  have r := reactive_heard n
  exact .read fun _ => k.bind (k.forM (fun _ => k.when <| k.bind (.heardIn n (foot_cellOff _ _)) fun _ => .heardIn n (foot_updChan _ _)) _)
    fun _ => k.bind (k.forM (fun _ => .ite (r.setGState _ _ _) <| k.when <| k.bind (r.setGState _ _ _) fun _ =>
      .heardIn n (foot_updGrp _ _)) _) fun _ => .heardIn n foot_showHeld

/-- A reset of what does not hold the words of the reception leaves them. -/
theorem resetScope_heard {scope : Nat → Bool} (kept : List FldAt) (h : scope (BUS.RX_HEAD n) = false)
    (h' : scope (BUS.RX_STAT n) = false) : (resetScope scope kept).Along (Heard n) := by
  have k := Heard.ongoing n
  have hout : ∀ {a b : Nat}, scope a = true → scope b = false → a ≠ b := fun ha hb hab => by
    rw [hab, hb] at ha
    exact absurd ha (by decide)
  have hreset : ∀ (t : State) {a : Nat}, scope a = false → ((Act.regsReset fun a => !scope a).apply t).rd a = t.rd a := fun t _ ha =>
    congrArg (Option.getD · _) (sget?_filter (fun a => !scope a) (congrArg not ha) t.regs)
  refine .read fun s => k.bind (.act fun t => .of_rd n (hreset t h) (hreset t h') rfl) fun _ => k.forEach _ fun p hp => ?_
  obtain ⟨x, hx, rfl⟩ := List.mem_map.mp hp
  have hin := (List.mem_filter.mp hx).2
  exact .heardWf n _ (hout hin h) (hout hin h')

/-- The words of a CAN controller are in island 9. -/
theorem BUS_not_of_island {a m : Nat} (ha : a / 65536 = 20) (hm : m < 8) : (islandOf a == some m) = false := by
  have hisl : islandOf a = some 9 := by simp only [islandOf, ha]
  rw [hisl, beq_eq_false_iff_ne]
  exact fun h => by injection h; omega

theorem clearIsland_bus (m : Nat) (x : Hidden) : (clearIsland m x).bus = x.bus := by
  unfold clearIsland
  split <;> rfl

theorem tabsReset_heard (keep : Nat → Bool) : (act (.tabsReset keep)).Along (Heard n) :=
  .act fun s => .of_rd n rfl rfl (Eq.refl (s.hid.bus.heard n))

/-- The ready inputs are shown again. -/
theorem showReady_heard (s : State) : ((List.range 8).forM fun r =>
    wf (GDR.RDY_CFG.READY r) (b2n (s.f (GDR.RDY_CFG.READY r) != s.f (GDR.RDY_CFG.POL r)))).Along (Heard n) :=
  (Heard.ongoing n).forM (fun r => .heardAt n _ (GDR.RDY_CFG_page r)) _

theorem loseConfig_heard {m : Nat} (hm : m < 8) : (loseConfig m).Along (Heard n) := by
  have k := Heard.ongoing n
  have hreset : (resetScope (fun a => islandOf a == some m) (keptFields ++ keptLatches ++ liveLevels)).Along (Heard n) :=
    resetScope_heard n _ (BUS_not_of_island (BUS.RX_HEAD_page n) hm) (BUS_not_of_island (BUS.RX_STAT_page n) hm)
  have hclear : (hid (clearIsland m)).Along (Heard n) := .heardHid n fun x => congrArg (BusSt.heard n) (clearIsland_bus m x)
  have hmtr : ∀ f : MtrSt → MtrSt, (updMtr f).Along (Heard n) := fun f => .heardIn n (foot_updMtr f)
  exact k.thenMore (handLeft_heard n) fun _ => .read fun s => k.bind hreset fun _ => k.thenMore (showReady_heard n s) fun _ =>
    k.bind (tabsReset_heard n _) fun _ => k.bind hclear fun _ => k.thenMore (rebindGroups_heard n) fun _ => k.when (hmtr _)

theorem resetIsland_heard (m : Nat) : (resetIsland m).Along (Heard n) := by
  have k := Heard.ongoing n
  refine .read fun s => k.bind (.heardIncAt n (SYS.ISLAND_page m)) fun _ => k.when <| k.thenMore (.heardIn n foot_registerCommit) fun _ =>
    k.bind (setIsland_heard n _ _) fun _ => ?_
  by_cases hm : m < 8
  · rw [if_pos hm]
    exact loseConfig_heard n hm
  · rw [if_neg hm]
    exact k.pure _

end

end Sys2Proof.Machine
end

section
/-! SUPPORT for O54: what was heard stands along what the host's writes do to position units, actuators, cells and groups. -/

namespace Sys2Proof.Machine

-- many short proofs one after another: elaborated in order, none holds a thread while it waits for the one before it
set_option Elab.async false

section
variable (n : Fin 4)

/-! ## Position units and their compares -/

theorem pcmpFire_heard (p u : Nat) (late : Bool) : (pcmpFire p u late).Along (Heard n) := by
  have k := Heard.ongoing n
  have hwf : ∀ x : FldAt, x.addr = POS.PCMP_STAT p u → ∀ v, (wf x v).Along (Heard n) := fun x hx v =>
    .heardAt n v (hx ▸ POS.PCMP_STAT_page p u)
  exact .read fun _ => k.bind (hwf _ rfl _) fun _ => k.bind (hwf _ rfl _) fun _ => k.bind (.read fun _ => hwf _ rfl _) fun _ =>
    k.bind (.heardHid n fun _ => rfl) fun _ => k.thenMore (hwf _ rfl _) fun _ => k.when (eventDev_heard n _ _)

theorem pcmpRearm_heard (p u : Nat) (fwd : Bool) : (pcmpRearm p u fwd).Along (Heard n) := by
  have k := Heard.ongoing n
  have hstep : (pcmpStep p u fwd).Along (Heard n) := .heardIn n (foot_pcmpStep p u fwd)
  have hlate : (pcmpLateJudge p u).Along (Heard n) := .heardIn n (foot_pcmpLateJudge p u)
  exact .read fun _ => k.when <| k.bind hstep fun _ => .read fun _ => .ite
    (k.bind (pcmpFire_heard n _ _ _) fun _ => k.bind hstep fun _ => hlate) hlate

theorem pcmpJudge_heard (p u : Nat) : (pcmpJudge p u).Along (Heard n) :=
  .read fun _ => .ite ((Heard.ongoing n).bind (pcmpFire_heard n _ _ _) fun _ => pcmpRearm_heard n _ _ _)
    (.heardIn n (foot_pcmpLateJudge p u))

theorem rejudge_heard (p : Nat) : (rejudge p).Along (Heard n) :=
  .read fun _ => (Heard.ongoing n).forM (fun u => pcmpJudge_heard n p u) _

theorem jumpTo_heard (p : Nat) (acc : Int) : (jumpTo p acc).Along (Heard n) := by
  have k := Heard.ongoing n
  exact .read fun _ => k.when <| k.bind (.heardIn n (foot_updPu p _)) fun _ => k.bind (.heardAt n _ (POS.POSN_page p)) fun _ =>
    rejudge_heard n p

theorem setPuState_heard (p new src : Nat) : (setPuState p new src).Along (Heard n) := by
  have k := Heard.ongoing n
  have hwf : ∀ x : FldAt, x.addr = POS.PU_STAT p → ∀ v, (wf x v).Along (Heard n) := fun x hx v =>
    .heardAt n v (hx ▸ POS.PU_STAT_page p)
  exact .read fun _ => k.bind (hwf _ rfl _) fun _ => k.bind (hwf _ rfl _) fun _ => k.when <| k.bind (hwf _ rfl _) fun _ =>
    eventDev_heard n _ _

theorem puValid_heard (p : Nat) : (puValid p).Along (Heard n) := .read fun _ => (Heard.ongoing n).when <|
  (Heard.ongoing n).bind (setPuState_heard n _ _ _) fun _ => rejudge_heard n p

theorem adoptSector_heard (p new : Nat) : (adoptSector p new).Along (Heard n) := by
  have k := Heard.ongoing n
  exact k.bind (.heardIn n (foot_restartSpeed p)) fun _ => k.bind (.heardIn n (foot_updPu p _)) fun _ => .read fun _ =>
    k.bind (jumpTo_heard n _ _) fun _ => puValid_heard n p

theorem acquire_heard (p : Nat) : (acquire p).Along (Heard n) := by
  have k := Heard.ongoing n
  exact .read fun _ => k.bind (.heardIn n (foot_restartSpeed p)) fun _ => k.bind (.heardIn n (foot_updPu p _)) fun _ =>
    k.bind (.heardIn n (foot_updPu p _)) fun _ => k.bind (setPuState_heard n _ _ _) fun _ => .read fun _ =>
    k.thenMore (puValid_heard n p) fun _ => k.thenMore (adoptSector_heard n _ _) fun _ => k.when (puValid_heard n p)

theorem pcmpArm_heard (p u : Nat) : (pcmpArm p u).Along (Heard n) := by
  have k := Heard.ongoing n
  exact k.bind (.heardIn n (foot_updPu p _)) fun _ => k.bind (.heardAt n _ (POS.PCMP_STAT_page p u)) fun _ => pcmpJudge_heard n p u

theorem pcmpWritten_heard (all : List Nat) (p u : Nat) (config : Bool) : (pcmpWritten all p u config).Along (Heard n) := by
  have k := Heard.ongoing n
  exact .read fun _ => .ite (.ite (pcmpArm_heard n p u) <| k.bind (.heardIn n (foot_updPu p _)) fun _ =>
    .heardAt n _ (POS.PCMP_STAT_page p u)) (k.when (pcmpArm_heard n p u))

theorem modeWritten_heard (p : Nat) : (modeWritten p).Along (Heard n) := by
  have k := Heard.ongoing n
  exact .read fun _ => .ite (k.bind (.heardIn n (foot_restartSpeed p)) fun _ => k.bind (.heardIn n (foot_updPu p _)) fun _ =>
    setPuState_heard n _ _ _) (acquire_heard n p)

theorem puFaultClear_heard (p : Nat) : (puFaultClear p).Along (Heard n) :=
  .read fun _ => (Heard.ongoing n).when (acquire_heard n p)

/-! ## Actuators and the charge-port lock -/

theorem setAct_heard (a new cause : Nat) : (setAct a new cause).Along (Heard n) := by
  have k := Heard.ongoing n
  exact .read fun _ => k.when <| k.bind (.heardAt n _ (ACT.STAT_page a)) fun _ => eventDev_heard n _ _

theorem actEnable_heard (a : Nat) : (actEnable a).Along (Heard n) := .read fun _ =>
  (Heard.ongoing n).bind (.heardIn n (foot_updAct a _)) fun _ => setAct_heard n _ _ _

theorem armCompare_heard (a u : Nat) (x : Int) (fwd : Bool) : (armCompare a u x fwd).Along (Heard n) := by
  have k := Heard.ongoing n
  exact .read fun s => .ite (.heardIncAt n (SYS.XFER_page 6)) <| k.when <|
    k.bind (.heardAt n _ (POS.PCMP_TGT_page (s.f (ACT.CFG.PU a)) u)) fun _ =>
    k.bind (.heardAt n _ (POS.PCMP_CFG_page (s.f (ACT.CFG.PU a)) u)) fun _ =>
    k.bind (.heardAt n _ (POS.PCMP_CFG_page (s.f (ACT.CFG.PU a)) u)) fun _ => pcmpArm_heard n _ _

theorem pumpTarget_heard (was goal : Int) : (pumpTarget was goal).Along (Heard n) := by
  have k := Heard.ongoing n
  have hturn : ∀ (f : ActEng → ActEng) (new : Nat), (do
      updAct 3 f
      setAct 3 new 0).Along (Heard n) := fun f _ => k.bind (.heardIn n (foot_updAct 3 f)) fun _ => setAct_heard n _ _ _
  refine .read fun s => ?_
  dsimp only
  split
  · exact .ite (hturn _ 0) (hturn _ 1)
  · exact hturn _ 1
  · exact hturn _ 1
  · exact .ite (hturn _ 0) <| .ite (setAct_heard n _ _ _) (hturn _ 1)
  · exact .ite (hturn _ 0) (setAct_heard n _ _ _)
  · exact .ite (hturn _ 0) (setAct_heard n _ _ _)

theorem startMove_heard (a target : Nat) : (startMove a target).Along (Heard n) := by
  have k := Heard.ongoing n
  exact .read fun _ => k.thenMore (.heardIncAt n (ACT.STAT_page a)) fun _ => k.bind (.heardIn n (foot_updAct a _)) fun _ =>
    k.bind (.heardAt n _ (ACT.STAT_page a)) fun _ => .ite (pumpTarget_heard n _ _) <| k.bind (setAct_heard n _ _ _) fun _ => k.when <|
    k.bind (.heardHid n fun _ => rfl) fun _ => k.bind (armCompare_heard n _ _ _ _) fun _ => k.when (armCompare_heard n _ _ _ _)

theorem actGo_heard (a target : Nat) : (actGo a target).Along (Heard n) :=
  .read fun _ => .ite (startMove_heard n a target) (.heardIn n (foot_updAct a _))

theorem actStop_heard (a : Nat) : (actStop a).Along (Heard n) := .read fun _ => .ite
  ((Heard.ongoing n).bind (.heardIn n (foot_updAct a _)) fun _ => (Heard.ongoing n).when (setAct_heard n _ _ _))
  (.heardIn n (foot_updAct a _))

theorem setCpl_heard (new : Nat) : (setCpl new).Along (Heard n) := by
  have k := Heard.ongoing n
  exact .read fun _ => k.when <| k.bind (.heardAt n (p := 11) _ (by decide)) fun _ => k.when (eventDev_heard n _ _)

theorem cplDrive_heard (cmd : Nat) : (cplDrive cmd).Along (Heard n) :=
  .read fun _ => .ite (setCpl_heard n _) (setCpl_heard n _)

theorem cplCommand_heard (cmd : Nat) : (cplCommand cmd).Along (Heard n) := by
  have k := Heard.ongoing n
  have hnext : ∀ g : Hidden → ActSt, (hid fun h => { h with act := g h }).Along (Heard n) := fun _ => .heardHid n fun _ => rfl
  exact .read fun _ => .ite (k.pure _) <| .ite (hnext _) <| .ite (k.bind (hnext _) fun _ => setCpl_heard n _) <| .ite (hnext _) <|
    .ite (k.bind (hnext _) fun _ => setCpl_heard n _) <| .ite (cplDrive_heard n _) (hnext _)

end

end Sys2Proof.Machine
end

section
/-! SUPPORT for O54: what was heard stands along comparator cells, the DC link, groups that are armed and disabled, charging and
metering. -/

namespace Sys2Proof.Machine

-- many short proofs one after another: elaborated in order, none holds a thread while it waits for the one before it
set_option Elab.async false

section
variable (n : Fin 4)

/-! ## Comparator cells and the DC link -/

theorem tripAct_heard (g kind first : Nat) : (tripAct g kind first).Along (Heard n) := by
  have k := Heard.ongoing n
  have r := reactive_heard n
  exact k.bind (r.tripGroup _ _ _) fun _ => .read fun _ => k.thenMore (r.emergencyStop _ _) fun _ => k.pure _

theorem cellTrips_heard (c : Nat) : (cellTrips c).Along (Heard n) :=
  .read fun _ => (Heard.ongoing n).forM (fun _ => (Heard.ongoing n).bind (tripAct_heard n _ _ _) fun _ => (Heard.ongoing n).pure _) _

theorem cellActs_heard (c : Nat) : (cellActs c).Along (Heard n) := by
  have k := Heard.ongoing n
  exact .read fun _ => k.bind (.heardIncAt n (TRP.CELL_STAT_page c)) fun _ => k.bind (.heardIn n (foot_updCell c _)) fun _ =>
    k.when (cellTrips_heard n c)

theorem cellUpdate_heard (c : Nat) : (cellUpdate c).Along (Heard n) := by
  have k := Heard.ongoing n
  have hwf : ∀ x : FldAt, x.addr = TRP.CELL_STAT c → ∀ v, (wf x v).Along (Heard n) := fun x hx v =>
    .heardAt n v (hx ▸ TRP.CELL_STAT_page c)
  exact .read fun _ => k.bind (.heardIn n (foot_updCell c _)) fun _ => k.bind (hwf _ rfl _) fun _ => k.bind (hwf _ rfl _) fun _ =>
    k.bind (hwf _ rfl _) fun _ => k.when (cellActs_heard n c)

theorem setThreshold_heard (c hi lo : Nat) : (setThreshold c hi lo).Along (Heard n) := by
  have k := Heard.ongoing n
  exact k.bind (.heardIn n (M.In.wtab (P := [32]) _ _ _ (by decide))) fun _ => k.bind (.heardAt n _ (TRP.THR_page c)) fun _ =>
    k.bind (.heardAt n _ (TRP.THR_page c)) fun _ => cellUpdate_heard n c

theorem linkOpen_heard : linkOpen.Along (Heard n) := by
  have k := Heard.ongoing n
  have r := reactive_heard n
  exact k.bind (.heardAt n (p := 9) _ (by decide)) fun _ => k.bind (r.occur _ _ _) fun _ => r.emergencyStop _ _

theorem watchCharge_heard {m : M Unit} (h : m.Along (Heard n)) : (watchCharge m).Along (Heard n) := by
  have k := Heard.ongoing n
  exact .read fun _ => k.bind h fun _ => .read fun _ => k.thenMore (linkOpen_heard n) fun _ => .heardIn n foot_showLevel

theorem contOpen_heard : contOpen.Along (Heard n) := by
  have k := Heard.ongoing n
  have r := reactive_heard n
  exact .read fun _ => k.when <| k.when <| k.bind (k.forM (fun _ => k.bind (r.tripGroup _ _ _) fun _ => k.pure _) _) fun _ =>
    linkOpen_heard n

theorem bootUv_heard (p h time : Nat) : (bootUv p h time).Along (Heard n) := by
  have k := Heard.ongoing n
  have hend : (do
      inc (GDR.BST_STAT.UV_COUNT p)
      wf (GDR.BST_STAT.UV_LATCH p) 1
      occur 50 p 0).Along (Heard n) := k.bind (.heardIncAt n (GDR.BST_STAT_page p)) fun _ =>
    k.bind (.heardAt n _ (GDR.BST_STAT_page p)) fun _ => (reactive_heard n).occur _ _ _
  refine .read fun s => k.bind (.heardIn n (foot_cellOff _ _)) fun _ => k.bind (.heardIn n (foot_updChan _ _)) fun _ => ?_
  split
  · exact k.bind (.heardIn n (foot_updChan _ _)) fun _ => hend
  · exact hend

theorem takeOn_heard (e : Edge) : (takeOn e).Along (Heard n) := by
  have k := Heard.ongoing n
  refine .read fun s => .ite (k.pure _) ?_
  split
  · exact bootUv_heard n _ _ _
  · exact .ite (.heardIn n (foot_endPulse _ _ _)) <| k.bind (.heardIn n (foot_cellOn _ _)) fun _ => k.when (.heardIn n (foot_openBlank _ _))

theorem chopSwitch_heard (on : Bool) : (chopSwitch on).Along (Heard n) := by
  have k := Heard.ongoing n
  exact .read fun _ => k.when <| k.forM (fun _ => .ite (takeOn_heard n _) (.heardIn n (foot_cellOff _ _))) _

theorem ctrlWritten_heard (old : Word) : (ctrlWritten old).Along (Heard n) := by
  have k := Heard.ongoing n
  have hwf : ∀ x : FldAt, x.addr = DCL.STATUS → ∀ v, (wf x v).Along (Heard n) := fun x hx v =>
    .heardAt n (p := 9) v (by rw [hx]; decide)
  have hclamp : ∀ on, (setClamp on).Along (Heard n) := fun on => .heardIn n (foot_setClamp on)
  have hdcl : ∀ f, (updDcl f).Along (Heard n) := fun f => .heardIn n (foot_updDcl f)
  have hshow : showLevel.Along (Heard n) := .heardIn n foot_showLevel
  have hlevel : (do
      wf DCL.STATUS.SENSE_OK 0
      updDcl fun d => { d with level := 0 }
      showLevel).Along (Heard n) := k.bind (hwf _ rfl _) fun _ => k.bind (hdcl _) fun _ => hshow
  have hoff : ∀ s : State, (if s.f DCL.CTRL.EN = 0 ∧ bitsOf old 31 31 = 1 then do
      setClamp false
      if s.f DCL.STATUS.CHOP_DEMAND = 1 then
        wf DCL.STATUS.CHOP_DEMAND 0
        if s.f DCL.STATUS.CHOP_AVAIL = 1 then chopSwitch false
      wf DCL.STATUS.SENSE_OK 0
      updDcl fun d => { d with level := 0 }
      showLevel
    else showLevel).Along (Heard n) := fun s => .ite (k.bind (hclamp _) fun _ => .ite
      (k.bind (hwf _ rfl _) fun _ => k.thenMore (chopSwitch_heard n _) fun _ => hlevel) hlevel) hshow
  exact .read fun s => k.bind (.heardIn n foot_setAvail) fun _ => .ite (k.bind (hdcl _) fun _ => k.thenMore (hclamp _) fun _ => hoff s)
    (hoff s)

/-! ## Groups -/

theorem fldEnable_heard (m : Nat) : (fldEnable m).Along (Heard n) := by
  have k := Heard.ongoing n
  exact .read fun _ => k.bind (.heardIn n (foot_updEng m _)) fun _ => k.bind (.heardAt n _ (FLD.MCH_STAT_page m)) fun _ =>
    k.bind (.heardAt n _ (FLD.MCH_STAT_page m)) fun _ => k.bind (.heardAt n _ (FLD.MCH_STAT_page m)) fun _ =>
    k.bind (.heardAt n _ (POS.OBS_STAT_page m)) fun _ => k.bind (.heardAt n _ (POS.OBS_STAT_page m)) fun _ => k.when <|
    .read fun _ => eventDev_heard n _ _

theorem sweepSs1_heard : sweepSs1.Along (Heard n) :=
  .read fun _ => (Heard.ongoing n).forM (fun _ => (Heard.ongoing n).when ((reactive_heard n).withdraw _ _ _)) _

theorem armLevels_heard (g : Nat) : (armLevels g).Along (Heard n) := by
  have k := Heard.ongoing n
  exact .read fun _ => k.bind (k.forM (fun _ => k.when <| k.bind (tripAct_heard n _ _ _) fun _ => k.pure _) _) fun _ =>
    k.forM (fun i => k.when <| k.bind (tripAct_heard n _ _ _) fun _ => k.bind (.heardIncAt n (GDR.FLT_page i)) fun _ =>
      (reactive_heard n).occur _ _ _) _

theorem arm_heard (g : Nat) : (arm g).Along (Heard n) := by
  have k := Heard.ongoing n
  have hpls : ∀ g : Hidden → PlsSt, (hid fun h => { h with pls := g h }).Along (Heard n) := fun _ => .heardHid n fun _ => rfl
  have hoff : ∀ c, (offWords c).Along (Heard n) := fun c => .heardIn n (foot_offWords c)
  have hcell : ∀ (s : State) (c : Nat), (do
      offWords c
      match s.follower c with
      | some x => offWords x
      | none => pure ()
      cellOff c (s.chNow c)
      updChan c fun r => { r with gen := false, moved := none, bstOff := false, refresh := [], skip := none, sink := false
        }).Along (Heard n) := fun s c => by
    have hend : (do
        cellOff c (s.chNow c)
        updChan c fun r => { r with gen := false, moved := none, bstOff := false, refresh := [], skip := none, sink := false
          }).Along (Heard n) := k.bind (.heardIn n (foot_cellOff _ _)) fun _ => .heardIn n (foot_updChan _ _)
    refine k.bind (hoff _) fun _ => ?_
    split
    · exact k.bind (hoff _) fun _ => hend
    · exact hend
  exact .read fun s => k.bind (k.forM (hcell s) _) fun _ => k.bind (k.forM (fun _ => hpls _) _) fun _ =>
    k.bind (.heardIn n (foot_cancelTriggers g)) fun _ => k.bind (k.forM (fun _ => .heardIn n (foot_updTrg _ _)) _) fun _ =>
    k.bind (.heardAt n _ (TRP.GRP_TRIP_page g)) fun _ => k.bind (.heardIn n (M.In.wr (P := [16]) 16 _ _ (SAF.GRP_page g) (by decide))) fun _ =>
    k.bind (.heardAt n _ (PLS.GRP_STAT_page g)) fun _ => k.bind (.heardAt n _ (PLS.GRP_STAT_page g)) fun _ =>
    k.bind (.heardIn n (foot_updGrp g _)) fun _ => k.bind (.heardHid n fun _ => rfl) fun _ => k.bind (.heardIn n foot_showHeld) fun _ =>
    k.bind (.heardHid n fun _ => rfl) fun _ => k.bind (.heardHid n fun _ => rfl) fun _ => k.bind (sweepSs1_heard n) fun _ =>
    k.bind (k.forM (fun m => k.when (fldEnable_heard n m)) _) fun _ => k.bind (k.forM (fun a => k.when (actEnable_heard n a)) _) fun _ =>
    k.thenMore (.heardHid n fun _ => rfl) fun _ => k.bind (.heardIn n (foot_latRestart g)) fun _ => k.thenMore (.heardHid n fun _ => rfl) fun _ =>
    k.bind ((reactive_heard n).setGState _ _ _) fun _ => .read fun _ => k.thenMore (chopSwitch_heard n _) fun _ =>
    watchCharge_heard n (armLevels_heard n g)

theorem enableGroup_heard (g : Nat) (host : Bool) : (enableGroup g host).Along (Heard n) := by
  have k := Heard.ongoing n
  refine .read fun s => ?_
  split
  · exact .ite (k.bind (.heardAt n (p := 16) _ (by decide)) fun _ => k.bind (.heardAt n (p := 16) _ (by decide)) fun _ => k.pure _)
      (k.pure _)
  · exact k.thenMore (arm_heard n g) fun _ => k.pure _

theorem disableGroup_heard (g : Nat) (host : Bool) : (disableGroup g host).Along (Heard n) := by
  have k := Heard.ongoing n
  have hend : (do
      setGState g .configured 0x0021
      handLeft
      sweepSs1
      return (none : Option (Nat × Nat))).Along (Heard n) := k.bind ((reactive_heard n).setGState _ _ _) fun _ =>
    k.bind (handLeft_heard n) fun _ => k.bind (sweepSs1_heard n) fun _ => k.pure _
  refine .read fun s => ?_
  split
  · exact k.pure _
  · exact .ite (k.bind (.heardIn n (foot_applyPattern _ _)) fun _ => k.bind (.heardIn n (foot_dropGroup g)) fun _ =>
      k.bind (.heardIn n (foot_endSs1 g)) fun _ => k.bind (.heardAt n _ (TRP.GRP_TRIP_page g)) fun _ =>
      k.bind (.heardIn n (M.In.wr (P := [16]) 16 _ _ (SAF.GRP_page g) (by decide))) fun _ => k.bind (.heardIn n (foot_updGrp g _)) fun _ =>
      k.bind (.heardHid n fun _ => rfl) fun _ => k.thenMore (.heardHid n fun _ => rfl) fun _ => hend) (k.pure _)

/-! ## Charging and metering -/

theorem meterStatus_heard : meterStatus.Along (Heard n) := .read fun _ => eventDev_heard n _ _

theorem ringState_heard : ringState.Along (Heard n) := by
  have k := Heard.ongoing n
  have hwf : ∀ x : FldAt, x.addr = MTR.STATUS → ∀ v, (wf x v).Along (Heard n) := fun x hx v =>
    .heardAt n (p := 13) v (by rw [hx]; decide)
  have hfull : ∀ (c : Prop) [Decidable c], (if c then wf MTR.STATUS.RING_FULL 0 else pure ()).Along (Heard n) := fun _ _ =>
    k.when (hwf _ rfl _)
  exact .read fun _ => .ite (k.bind (hwf _ rfl _) fun _ => hfull _) <| .ite (k.bind (hwf _ rfl _) fun _ =>
    k.bind (meterStatus_heard n) fun _ => hfull _) (hfull _)

theorem writeRecord_heard (typ : Nat) (span : Span) (gap : Bool) (event : Option (Nat × Nat)) :
    (writeRecord typ span gap event).Along (Heard n) := by
  have k := Heard.ongoing n
  exact .read fun _ => k.when <| .ite (k.when <| k.bind (.heardAt n (p := 13) _ (by decide)) fun _ => meterStatus_heard n) <|
    .ite (.heardIncAt n (p := 13) (by decide)) <| k.bind (.heardIn n (foot_updMtr _)) fun _ =>
    k.bind (.heardAt n (p := 13) _ (by decide)) fun _ => k.bind (.heardIn n foot_registerCommit) fun _ =>
    k.bind (ringState_heard n) fun _ => eventDev_heard n _ _

theorem eventRecord_heard (code arg : Nat) : (eventRecord code arg).Along (Heard n) := .read fun _ => writeRecord_heard n _ _ _ _

theorem timeSet_heard : timeSet.Along (Heard n) := by
  have k := Heard.ongoing n
  exact .read fun _ => k.bind (eventRecord_heard n _ _) fun _ => .heardIn n (foot_updMtr _)

theorem meterOpen_heard (exporting : Bool) : (meterOpen exporting).Along (Heard n) := by
  have k := Heard.ongoing n
  exact .read fun _ => k.bind (.heardAt n (p := 13) _ (by decide)) fun _ => k.bind (.heardIn n (foot_updMtr _)) fun _ =>
    k.when (writeRecord_heard n _ _ _ _)

theorem tryStart_heard : tryStart.Along (Heard n) := by
  have k := Heard.ongoing n
  exact .read fun _ => k.when <| k.bind (.heardAt n (p := 12) _ (by decide)) fun _ => k.bind (.heardAt n (p := 11) _ (by decide)) fun _ =>
    k.bind (.heardAt n (p := 12) _ (by decide)) fun _ => k.bind (.heardIn n (foot_updChg _)) fun _ =>
    k.bind ((reactive_heard n).setChg _ _) fun _ => meterOpen_heard n _

theorem normalStop_heard (cause : Nat) : (normalStop cause).Along (Heard n) := by
  have k := Heard.ongoing n
  exact .read fun _ => k.when <| k.bind (.heardIn n (foot_updChg _)) fun _ => k.bind ((reactive_heard n).setChg _ _) fun _ =>
    .heardIn n (foot_cellTarget _)

theorem chgCommand_heard (cmd : Nat) : (chgCommand cmd).Along (Heard n) := by
  have k := Heard.ongoing n
  have hpend : ∀ v, (wf CHG.STATUS.START_PEND v).Along (Heard n) := fun v => .heardAt n (p := 12) v (by decide)
  refine .read fun s => ?_
  dsimp only
  split
  · exact k.bind (hpend _) fun _ => k.bind (.heardIn n (foot_updChg _)) fun _ => tryStart_heard n
  · exact .ite (normalStop_heard n _) <| k.bind (hpend _) fun _ => k.when ((reactive_heard n).setChg _ _)
  · exact k.when (cplCommand_heard n _)
  · exact k.pure _

theorem followLock_heard : followLock.Along (Heard n) := by
  have k := Heard.ongoing n
  have r := reactive_heard n
  exact .read fun _ => k.when <| .ite (r.setChg _ _) <| k.when <| k.bind (r.setChg _ _) fun _ => tryStart_heard n

end

end Sys2Proof.Machine
end

section
/-! SUPPORT for O54: what was heard stands along storage, tables, the ledger, the life cycle, sessions and substitutions. -/

namespace Sys2Proof.Machine

-- many short proofs one after another: elaborated in order, none holds a thread while it waits for the one before it
set_option Elab.async false

theorem Ongoing.mapM {α β : Type} {ρ : State → State → Prop} (k : Ongoing ρ) {f : α → M β} (h : ∀ x, (f x).Along ρ) :
    ∀ l : List α, (l.mapM f).Along ρ
  | [] => by
    rw [List.mapM_nil]
    exact k.pure _
  | x :: l => by
    rw [List.mapM_cons]
    exact k.bind (h x) fun _ => k.bind (Ongoing.mapM k h l) fun _ => k.pure _

section
variable (n : Fin 4)

/-! ## Storage -/

theorem wearCheck_heard (q : Nat) : (wearCheck q).Along (Heard n) := by
  have k := Heard.ongoing n
  have hwarn : ∀ s : State, (do
      if s.f MEM.WEAR_CFG.WEAR_WARN * 1000000 ≤ s.pageWrites q ∧ !s.hid.mem.warned.contains q then
        updMem fun m => { m with warned := q :: m.warned }
        occur 195 0 (pageDetail q) : M Unit).Along (Heard n) := fun _ => k.when <| k.bind (.heardIn n (foot_updMem _)) fun _ =>
    (reactive_heard n).occur _ _ _
  exact .read fun s => .ite (k.bind (.heardIn n (M.In.wr (P := [19]) 19 _ _ (by decide) (by decide))) fun _ =>
    k.bind (.heardAt n (p := 19) _ (by decide)) fun _ => hwarn s) (hwarn s)

theorem programPage_heard (p : Nat) : (programPage p).Along (Heard n) := by
  have k := Heard.ongoing n
  exact .read fun _ => k.bind (.heardIn n (foot_updMem _)) fun _ => wearCheck_heard n _

theorem uncorrectable_heard (p : Nat) (ok : Bool) : (uncorrectable p ok).Along (Heard n) := by
  have k := Heard.ongoing n
  exact .read fun _ => k.bind (.heardIncAt n (p := 19) (by decide)) fun _ => k.bind ((reactive_heard n).occur _ _ _) fun _ =>
    k.bind (.heardIn n (foot_noteError _ _ _)) fun _ => .ite (programPage_heard n p) (.heardIn n (foot_updMem _))

theorem writeBack_heard (p : Nat) : (writeBack p).Along (Heard n) := by
  have k := Heard.ongoing n
  exact .read fun _ => k.when <| k.bind (.heardIn n (foot_updMem _)) fun _ => k.bind (.heardIn n foot_showMerge) fun _ =>
    programPage_heard n p

theorem narrowWrite_heard (p : Nat) (old : List Byte) : (narrowWrite p old).Along (Heard n) := by
  have k := Heard.ongoing n
  have hend : ∀ now : Nat, (do
      updMem fun m => { m with merge := m.merge ++ [⟨p, now, now, old⟩] }
      showMerge
      return true : M Bool).Along (Heard n) := fun _ => k.bind (.heardIn n (foot_updMem _)) fun _ =>
    k.bind (.heardIn n foot_showMerge) fun _ => k.pure _
  refine .read fun s => .ite (k.bind (.heardIn n (foot_updMem _)) fun _ => k.pure _) <| .ite
    (k.bind (uncorrectable_heard n _ _) fun _ => k.pure _) <| .ite ?_ (hend _)
  split
  · exact k.bind (writeBack_heard n _) fun _ => hend _
  · exact hend _

theorem writeMapPages_heard (s : State) (id o m : Nat) : (writeMapPages s id o m).Along (Heard n) := by
  have k := Heard.ongoing n
  exact k.forM (fun p => .ite (k.bind (.heardIn n (foot_updMem _)) fun _ => k.bind (.heardIn n foot_showMerge) fun _ =>
    programPage_heard n p) (k.bind (narrowWrite_heard n _ _) fun _ => k.pure _)) _

theorem retirePage_heard (p : Nat) : (retirePage p).Along (Heard n) := by
  have k := Heard.ongoing n
  have r := reactive_heard n
  have hmem : ∀ f, (updMem f).Along (Heard n) := fun f => .heardIn n (foot_updMem f)
  have hwarn : ∀ bad : Bool, (do
      let s ← getS
      if s.f MEM.STATUS.SPARE_FREE = s.f MEM.CFG.SPARE_WARN then occur 194 0 (pageDetail p)
      return !bad : M Bool).Along (Heard n) := fun _ => .read fun _ => k.thenMore (r.occur _ _ _) fun _ => k.pure _
  refine k.bind (writeBack_heard n p) fun _ => .read fun s => k.bind (hmem _) fun _ => .ite
    (k.bind (.heardIncAt n (p := 19) (by decide)) fun _ => k.bind (r.occur _ _ _) fun _ => k.bind (.heardIn n (foot_noteError _ _ _)) fun _ => ?_)
    ?_
  all_goals
    refine k.bind (programPage_heard n p) fun _ => k.thenMore (hmem _) fun _ => k.bind (.heardAt n (p := 19) _ (by decide)) fun _ =>
      k.bind (.heardIncAt n (p := 19) (by decide)) fun _ => ?_
    split
    · exact k.bind (.heardAt n _ (MEM.ERR1_page _)) fun _ => hwarn _
    · exact hwarn _

theorem opRetire_heard (body : List Byte) : (opRetire body).Along (Heard n) := by
  have k := Heard.ongoing n
  refine .read fun s => ?_
  dsimp only
  split
  · exact k.pure _
  · exact k.bind (retirePage_heard n _) fun _ => .ite (k.pure _) (k.pure _)

/-! ## Tables -/

theorem loaded_heard (s : State) (id first : Nat) (es : List (List Byte)) : (loaded s id first es).Along (Heard n) := by
  have k := Heard.ongoing n
  exact .ite (k.bind (.heardIn n (foot_mapWritten _ _ _)) fun _ => writeMapPages_heard n _ _ _ _) <|
    .ite (k.bind (rebindGroups_heard n) fun _ => .heardIn n foot_setLoad) <| .ite (.heardIn n foot_setLoad) <|
    .ite (k.forM (fun _ => .read fun _ => watchCharge_heard n (setThreshold_heard n _ _ _)) _) <| k.when (.heardIn n foot_setCfgCrc)

theorem applyLoad_heard (c : Ctx) (id first size : Nat) (es : List (List Byte)) : (applyLoad c id first size es).Along (Heard n) := by
  have k := Heard.ongoing n
  refine .read fun s => ?_
  split
  · exact k.bind (uncorrectable_heard n _ _) fun _ => k.pure _
  · exact k.thenMore (.heardIn n (foot_updMea _)) fun _ => k.bind
      (k.forM (fun _ => .read fun _ => .heardIn n (M.In.wtab (P := [32]) _ _ _ (by decide))) _) fun _ =>
      k.bind (loaded_heard n _ _ _ _) fun _ => .read fun _ => k.bind (.heardIn n (foot_change _ _ _ _ _ _)) fun _ => k.pure _

theorem swapBank_heard (m bank : Nat) : (swapBank m bank).Along (Heard n) := by
  have k := Heard.ongoing n
  exact .read fun _ => k.when <| k.bind (.heardAt n _ (FLD.MCH_STAT_page m)) fun _ => k.bind (.heardIncAt n (p := 8) (by decide)) fun _ =>
    eventDev_heard n _ _

theorem tableSwap_heard (id : Nat) : (tableSwap id).Along (Heard n) := by
  have k := Heard.ongoing n
  exact .read fun _ => .ite (k.bind (.heardIn n (foot_absentReply _)) fun _ => k.pure _) <| .ite (k.pure _) <| .ite (k.pure _) <|
    k.bind (swapBank_heard n _ _) fun _ => k.pure _

theorem sealTable_heard (table : List Byte) : (sealTable table).Along (Heard n) := by
  have k := Heard.ongoing n
  exact k.bind (.heardIn n (M.In.wtab (P := [32]) _ _ _ (by decide))) fun _ => k.bind (.heardAt n (p := 13) _ (by decide)) fun _ =>
    k.bind (.heardIn n (foot_updMtr _)) fun _ => .read fun _ => eventRecord_heard n _ _

theorem opSeal_heard (body : List Byte) : (opSeal body).Along (Heard n) := by
  have k := Heard.ongoing n
  refine .read fun s => ?_
  split
  · exact k.pure _
  · refine .read fun _ => .ite ?_ (k.bind (.heardIn n (foot_absentReply _)) fun _ => k.pure _)
    split
    · exact k.pure _
    · exact k.bind (sealTable_heard n _) fun _ => k.pure _

/-! ## The ledger and the life cycle -/

theorem clearLasting_heard (src inst kind : Nat) : (clearLasting src inst kind).Along (Heard n) := by
  have k := Heard.ongoing n
  exact .read fun _ => k.when <| k.bind (.heardIn n (M.In.wr (P := [17]) 17 _ _ (FLG.LASTING_page src) (by decide))) fun _ =>
    k.bind (.heardHid n fun _ => rfl) fun _ => k.bind (.heardIn n foot_setLastingSrc) fun _ =>
    k.bind (.heardIn n (foot_queueEntry _ _)) fun _ => eventDev_heard n _ _

theorem lastingWritten_heard (src v : Nat) : (lastingWritten src v).Along (Heard n) := by
  have k := Heard.ongoing n
  exact k.bind (k.forM (fun _ => clearLasting_heard n _ _ _) _) fun _ => .read fun _ => k.when (.heardAt n (p := 16) _ (by decide))

theorem enterShip_heard : enterShip.Along (Heard n) := by
  have k := Heard.ongoing n
  exact k.bind (.heardIn n (foot_setBsw false)) fun _ => k.bind (k.forM (fun m => k.when (setIsland_heard n m 4)) _) fun _ =>
    k.bind (.heardIn n (foot_putSessions [])) fun _ => (reactive_heard n).setDev 6

theorem lvpCommand_heard (cmd : Nat) : (lvpCommand cmd).Along (Heard n) := by
  unfold lvpCommand
  split
  · exact .heardIn n foot_chargeStart
  · exact .heardIn n foot_chargeStop
  · exact .heardIn n (foot_setBsw true)
  · exact .heardIn n (foot_setBsw false)
  · exact enterShip_heard n
  · exact .heardIn n foot_clearTimer

theorem commitTransition_heard (target session transport : Nat) : (commitTransition target session transport).Along (Heard n) := by
  have k := Heard.ongoing n
  exact k.bind (.heardAt n (p := 22) _ (by decide)) fun _ => k.bind (.heardIncAt n (p := 22) (by decide)) fun _ =>
    k.bind (.heardAt n (p := 0) _ (by decide)) fun _ => k.bind (.heardAt n (p := 0) _ (by decide)) fun _ =>
    k.bind (.heardAt n (p := 19) _ (by decide)) fun _ => k.bind (.heardIn n (foot_changeFree _ _ _ _ _)) fun _ => .read fun _ =>
    k.bind (.heardIn n (foot_updLcy _)) fun _ => complete_heard n _ _ _ _ _ _

theorem lcAdvance_heard (target session transport : Nat) : (lcAdvance target session transport).Along (Heard n) := by
  have k := Heard.ongoing n
  exact .read fun _ => .ite (commitTransition_heard n _ _ _) <| k.bind (.heardIn n (foot_updLcy _)) fun _ =>
    .heardAt n (p := 19) _ (by decide)

theorem opAdvance_heard (c : Ctx) (p : Packet) (body : List Byte) (svcLow : Option Bool) :
    (opAdvance c p body svcLow).Along (Heard n) := by
  have k := Heard.ongoing n
  refine .read fun s => ?_
  split
  · exact k.pure _
  · dsimp only
    have hlow : ∀ low : Bool, (match s.advanceRefusal (leAt body 0 1) low with
        | some x => (return refuse x.1 x.2 : M Ans)
        | none => do
          addDue 0xC0 0 p false
          lcAdvance (leAt body 0 1) c.session c.transport
          return { status := stAccepted }).Along (Heard n) := fun low => by
      split
      · exact k.pure _
      · exact k.bind (.heardIn n (foot_addDue _ _ _ _)) fun _ => k.bind (lcAdvance_heard n _ _ _) fun _ => k.pure _
    cases svcLow with
    | some b => exact k.bind (k.pure b) hlow
    | none => exact k.bind (.heardIn n (M.In.map (M.In.fresh (P := [42]) (by decide)))) hlow

/-! ## Sessions and substitutions -/

theorem passwordFail_heard : passwordFail.Along (Heard n) := by
  have k := Heard.ongoing n
  exact k.bind ((reactive_heard n).occurrence _ _ _) fun _ => k.when <| k.bind (.heardHid n fun _ => rfl) fun _ =>
    k.bind (.heardAt n (p := 1) _ (by decide)) fun _ => eventDev_heard n _ _

theorem openPhase1_heard (x : Session) (proof : List Byte) : (openPhase1 x proof).Along (Heard n) := by
  have k := Heard.ongoing n
  exact .read fun _ => .ite (k.bind (.heardIn n (foot_updSession _ _)) fun _ => k.pure _) <|
    k.bind (.heardIn n (foot_dropSession _)) fun _ => k.bind (passwordFail_heard n) fun _ => k.pure _

theorem opSessionOpen_heard (p : Packet) (body : List Byte) : (opSessionOpen p body).Along (Heard n) := by
  have k := Heard.ongoing n
  refine .read fun s => .ite ?_ (.ite (k.pure _) (.ite (k.pure _) ?_))
  · split
    · exact k.pure _
    · split
      · exact k.pure _
      · exact .ite (k.bind (.heardIn n (foot_dropSession _)) fun _ => k.pure _) <|
          k.bind (openPhase1_heard n _ _) fun _ => .ite (k.pure _) (k.pure _)
  · split
    · exact k.pure _
    · exact .ite (k.pure _) <| .ite (k.pure _) <| k.bind (.heardIn n (foot_openPhase0 _ _)) fun _ => k.pure _

theorem convSubstitute_heard (c : Ctx) (p : Packet) (m spare : Nat) (byRun : Bool) :
    (convSubstitute c p m spare byRun).Along (Heard n) := by
  have k := Heard.ongoing n
  have hlog : (changeFree 4 0 0 c.session c.transport).Along (Heard n) := .heardIn n (foot_changeFree _ _ _ _ _)
  have hfresh : fresh.Along (Heard n) := .heardIn n (M.In.fresh (P := [42]) (by decide))
  have hmea : ∀ f, (updMea f).Along (Heard n) := fun f => .heardIn n (foot_updMea f)
  exact .read fun _ => .ite (k.pure _) <| .ite (k.bind (.heardIn n (foot_absentReply 7)) fun _ => k.pure _) <| .ite
    (.ite (k.pure _) <| k.bind hfresh fun _ => k.bind hfresh fun _ => k.bind (.heardIn n (foot_sa8Replace _ _ _)) fun _ =>
      k.bind (.heardIn n (foot_addDue _ _ _ _)) fun _ => k.bind hlog fun _ => k.pure _) <|
    .ite (k.pure _) <| k.bind (.heardHid n fun _ => rfl) fun _ => .ite (k.bind (hmea _) fun _ => k.bind hlog fun _ => k.pure _) <|
    k.bind (hmea _) fun _ => k.bind (complete_heard n _ _ _ _ _ _) fun _ => k.bind hlog fun _ => k.pure _

theorem opSubstitute_heard (c : Ctx) (p : Packet) (body : List Byte) (byRun : Bool) : (opSubstitute c p body byRun).Along (Heard n) := by
  have k := Heard.ongoing n
  have hlog : (changeFree 4 0 0 c.session c.transport).Along (Heard n) := .heardIn n (foot_changeFree _ _ _ _ _)
  have hshow : ∀ {f : Unit → M Ans}, (∀ u, (f u).Along (Heard n)) → (showSpares >>= f).Along (Heard n) := fun h =>
    k.bind (.heardIn n foot_showSpares) h
  have hset : ∀ m on, (setSubstituted m on).Along (Heard n) := fun m on => .heardIn n (foot_setSubstituted m on)
  exact .read fun _ => .ite (convSubstitute_heard n _ _ _ _ _) <| .ite
    (.ite (k.pure _) <| k.bind (.heardHid n fun _ => rfl) fun _ => k.thenMore (hset _ _) fun _ => hshow fun _ => k.bind hlog fun _ => k.pure _) <|
    .ite (k.pure _) <| .ite (k.pure _) <| .ite (k.pure _) <| .ite (k.pure _) <| .ite (k.pure _) <|
    .ite (k.bind (.heardIn n (foot_absentReply 0)) fun _ => k.pure _) <| k.bind hlog fun _ => .ite
    (k.bind (.heardHid n fun _ => rfl) fun _ => k.bind (.heardIn n (foot_addDue _ _ _ _)) fun _ => k.pure _) <|
    k.bind (.heardIn n (foot_copyWords _ _)) fun _ => k.bind (.heardIn n (foot_useSpare _ _ _)) fun _ => k.bind (hset _ _) fun _ =>
    hshow fun _ => k.pure _

end

end Sys2Proof.Machine
end

section
/-! SUPPORT for O54: what was heard stands along every write of a word, along every request and along safe messages. -/

namespace Sys2Proof.Machine

theorem RX_LOST_real : ∀ n : Fin 4, (BUS.RX_STAT.LOST n).Real := by decide

section
variable (n : Fin 4)

/-! ## Words of the controllers -/

theorem RX_HEAD_ne_RX_STAT (m : Nat) : BUS.RX_HEAD n ≠ BUS.RX_STAT m := by
  simp only [BUS.RX_HEAD, BUS.RX_STAT, arr, n.isLt, Nat.zero_le, and_self, if_true]
  split <;> omega

theorem BUS_STAT_apart_heard (m : Nat) : BUS.STAT m ≠ BUS.RX_HEAD n ∧ BUS.STAT m ≠ BUS.RX_STAT n := by
  simp only [BUS.STAT, BUS.RX_HEAD, BUS.RX_STAT, arr, n.isLt, Nat.zero_le, and_self, if_true, true_and]
  split <;> omega

theorem BUS_WIN_apart_heard (m : Nat) : BUS.WIN m ≠ BUS.RX_HEAD n ∧ BUS.WIN m ≠ BUS.RX_STAT n := by
  simp only [BUS.WIN, BUS.RX_HEAD, BUS.RX_STAT, arr, n.isLt, Nat.zero_le, and_self, if_true, true_and]
  split <;> omega

theorem BUS_TX_STAT_apart_heard (m : Nat) : BUS.TX_STAT m ≠ BUS.RX_HEAD n ∧ BUS.TX_STAT m ≠ BUS.RX_STAT n :=
  ⟨fun h => RX_HEAD_not_sendReg n (h ▸ .inr (.inr (.inr (.inr ⟨m, rfl⟩)))),
    fun h => RX_STAT_not_sendReg n (h ▸ .inr (.inr (.inr (.inr ⟨m, rfl⟩))))⟩

/-- A change of a controller that leaves its log, its number and its drops. -/
theorem updCan_heard (m : Nat) {f : CanSt → CanSt} (hf : ∀ c, (f c).log = c.log ∧ (f c).next = c.next ∧ (f c).dropped = c.dropped) :
    (updCan m f).Along (Heard n) := .heardHid n fun x => by
  rcases eq_or_ne n.val m with rfl | hne
  · obtain ⟨hlog, hnext, hdropped⟩ := hf (mget {} x.bus.can n)
    simp only [BusSt.heard, mget_mupd_same, hlog, hnext, hdropped]
  · simp only [BusSt.heard, mget_mupd_other _ _ _ _ _ hne]

theorem showPool_heard (m : Nat) : (showPool m).Along (Heard n) := .read fun s => by
  have hhead : (BUS.RX_HEAD.RXSEQ n).Apart (BUS.RX_STAT.POOL_FREE m) := .inl (RX_HEAD_ne_RX_STAT n m)
  have hlost : (BUS.RX_STAT.LOST n).Apart (BUS.RX_STAT.POOL_FREE m) := (RX_LOST_real n).above (show 12 < 16 by decide)
  refine .ofFixes ((M.Fixes.wfApart hhead _).prod ((M.Fixes.wfApart hlost _).prod (.busWf (BusSt.heard n) _ _))) fun _ _ h => ?_
  obtain ⟨hseq, hrest⟩ := Prod.ext_iff.mp h
  obtain ⟨hlost', hbus⟩ := Prod.ext_iff.mp hrest
  exact ⟨hseq, hlost', hbus⟩

theorem refill_heard (m : Nat) (e : Option LogEntry) : (refill m e).Along (Heard n) := by
  have k := Heard.ongoing n
  have hwf : ∀ x : FldAt, x.addr = BUS.WIN m → ∀ v, (wf x v).Along (Heard n) := fun x hx v =>
    .heardWf n v (hx ▸ (BUS_WIN_apart_heard n m).1) (hx ▸ (BUS_WIN_apart_heard n m).2)
  refine k.bind (hwf _ rfl _) fun _ => k.bind (hwf _ rfl _) fun _ => ?_
  cases e with
  | some x => exact updCan_heard n m fun _ => ⟨rfl, rfl, rfl⟩
  | none => exact k.pure _

theorem rxSelected_heard (m : Nat) : (rxSelected m).Along (Heard n) :=
  .read fun _ => (Heard.ongoing n).thenMore (refill_heard n _ _) fun _ => showPool_heard n m

theorem recoverWritten_heard (m : Nat) : (recoverWritten m).Along (Heard n) :=
  (Heard.ongoing n).bind (.heardWf n _ (BUS_STAT_apart_heard n m).1 (BUS_STAT_apart_heard n m).2) fun _ =>
    updCan_heard n m fun _ => ⟨rfl, rfl, rfl⟩

theorem ctrlEnabled_heard (m : Nat) (old : Word) : (ctrlEnabled m old).Along (Heard n) := by
  have k := Heard.ongoing n
  have hwf : ∀ x : FldAt, x.addr = BUS.STAT m → ∀ v, (wf x v).Along (Heard n) := fun x hx v =>
    .heardWf n v (hx ▸ (BUS_STAT_apart_heard n m).1) (hx ▸ (BUS_STAT_apart_heard n m).2)
  have hoff : ∀ c : Bool, (do
      if c then
        wf (BUS.STAT.STATE m) 3
        updCan m fun c => { c with recov := false }
      showPool m).Along (Heard n) := fun _ => .ite (k.bind (hwf _ rfl _) fun _ =>
    k.bind (updCan_heard n m fun _ => ⟨rfl, rfl, rfl⟩) fun _ => showPool_heard n m) (showPool_heard n m)
  exact .read fun s => .ite (k.bind (hwf _ rfl _) fun _ => k.bind (hwf _ rfl _) fun _ => k.bind (hwf _ rfl _) fun _ => hoff _) (hoff _)

/-! ## The network time -/

theorem TIME_apart_heard {a : Nat} (h : a < 0x140010) : a ≠ BUS.RX_HEAD n ∧ a ≠ BUS.RX_STAT n := by
  simp only [BUS.RX_HEAD, BUS.RX_STAT, arr, n.isLt, Nat.zero_le, and_self, if_true]
  omega

theorem M.Along.heardTime {x : FldAt} (v : Nat) (h : x.addr < 0x140010) : (wf x v).Along (Heard n) :=
  .heardWf n v (TIME_apart_heard n h).1 (TIME_apart_heard n h).2

theorem settleTime_heard : settleTime.Along (Heard n) := .read fun _ => .heardHid n fun _ => rfl

theorem setSynced_heard (on : Bool) : (setSynced on).Along (Heard n) := by
  have k := Heard.ongoing n
  exact .read fun _ => k.when <| k.bind (.heardTime n _ (by decide)) fun _ => eventDev_heard n _ _

theorem timeCfgWritten_heard (old : Word) : (timeCfgWritten old).Along (Heard n) := by
  have k := Heard.ongoing n
  exact .read fun _ => k.when <| k.bind (.heardHid n fun _ => rfl) fun _ => setSynced_heard n _

theorem netTimeSet_heard : netTimeSet.Along (Heard n) := by
  have k := Heard.ongoing n
  exact .read fun _ => k.bind (.heardHid n fun _ => rfl) fun _ => .read fun _ => k.when (.heardTime n _ (by decide))

theorem takeReference_heard (seq : Nat) (valid : Bool) (prev time : Nat) : (takeReference seq valid prev time).Along (Heard n) := by
  have k := Heard.ongoing n
  have htime : ∀ g : Hidden → TimeSt, (hid fun h => { h with bus := { h.bus with time := g h } }).Along (Heard n) := fun _ =>
    .heardHid n fun _ => rfl
  refine .read fun s => k.when ?_
  dsimp only
  split
  · refine .ite (k.bind (settleTime_heard n) fun _ => .ite ?_ ?_) (htime _)
    · exact k.bind (htime _) fun _ => k.bind (.read fun _ => k.when (.heardTime n _ (by decide))) fun _ => k.bind (htime _) fun _ =>
        htime _
    · refine k.bind (.heardTime n _ (by decide)) fun _ => k.bind (htime _) fun _ => .read fun _ => ?_
      exact k.thenMore (setSynced_heard n _) fun _ => k.bind (htime _) fun _ => htime _
  · exact htime _

/-! ## Safe messages -/

theorem setLegState_heard (l : Nat) (up : Bool) (cause : Nat) : (setLegState l up cause).Along (Heard n) := by
  have k := Heard.ongoing n
  have hwf : ∀ x : FldAt, x.addr / 65536 = 16 → ∀ v, (wf x v).Along (Heard n) := fun x hx v => .heardAt n v hx
  have hend : (do
      updLeg l fun r => { r with paired := 0 }
      let s ← getS
      wf SAF.STATUS.DEGRADED (b2n (s.f SAF.MSG_CFG.EN == 1 && (s.legIn 0 != s.legIn 1)))
      eventDev 0x8037 (by1 [l, b2n up] ++ leBytes 2 cause)).Along (Heard n) := k.bind (.heardIn n (foot_updLeg _ _)) fun _ =>
    .read fun _ => k.bind (hwf _ (by decide) _) fun _ => eventDev_heard n _ _
  exact .read fun _ => k.when <| .ite (k.bind (hwf _ (by decide) _) fun _ => hend) (k.bind (hwf _ (by decide) _) fun _ => hend)

theorem msgCfgWritten_heard (old : Word) : (msgCfgWritten old).Along (Heard n) := by
  have k := Heard.ongoing n
  have r := reactive_heard n
  have hwf : ∀ x : FldAt, x.addr / 65536 = 16 → ∀ v, (wf x v).Along (Heard n) := fun x hx v => .heardAt n v hx
  exact .read fun _ => k.when <| k.bind (.heardHid n fun _ => rfl) fun _ => k.bind (setLegState_heard n _ _ _) fun _ =>
    k.bind (setLegState_heard n _ _ _) fun _ => k.bind (hwf _ (by decide) _) fun _ => .ite (k.bind (hwf _ (by decide) _) fun _ =>
      k.bind (r.withdraw _ _ _) fun _ => k.bind (r.withdraw _ _ _) fun _ => r.syncFuncs) r.syncFuncs

theorem legErr_heard (l : Nat) : (legErr l).Along (Heard n) := by
  have k := Heard.ongoing n
  exact k.bind (.heardIn n (foot_updLeg _ _)) fun _ => k.bind ((reactive_heard n).occurrence _ _ _) fun _ => k.when (setLegState_heard n _ _ _)

theorem acceptMessage_heard (bs : List Byte) (src : Option MsgLeg) : (acceptMessage bs src).Along (Heard n) := by
  have k := Heard.ongoing n
  have r := reactive_heard n
  have htq : ∀ m w, (wr (FLD.TQ_REQ m) w).Along (Heard n) := fun m w =>
    .heardIn n (M.In.wr (P := [8]) 8 _ _ (FLD.TQ_REQ_page m) (by decide))
  exact .read fun _ => k.bind (.heardAt n (p := 16) _ (by decide)) fun _ => k.bind (.heardAt n (p := 16) _ (by decide)) fun _ =>
    k.bind (k.forM (fun m => k.when <| .ite (htq _ _) (.heardIncAt n (SYS.XFER_page (2 + m)))) _) fun _ =>
    k.bind (.heardHid n fun _ => rfl) fun _ => k.bind (r.withdraw _ _ _) fun _ => k.bind (r.withdraw _ _ _) fun _ =>
    k.bind r.syncFuncs fun _ => k.when r.acknowledge

theorem pairedCopy_heard (l : Nat) : (pairedCopy l).Along (Heard n) := by
  have k := Heard.ongoing n
  exact .read fun _ => k.when <| k.bind (.heardIn n (foot_updLeg _ _)) fun _ => .read fun _ => k.when (setLegState_heard n _ _ _)

theorem pairCopy_heard (src : MsgLeg) (bs : List Byte) : (pairCopy src bs).Along (Heard n) := by
  have k := Heard.ongoing n
  have r := reactive_heard n
  have hleg : ∀ l f, (updLeg l f).Along (Heard n) := fun l f => .heardIn n (foot_updLeg l f)
  refine .read fun s => k.thenMore (acceptMessage_heard n _ _) fun _ => ?_
  dsimp only
  split
  · exact hleg _ _
  · refine k.bind (hleg _ _) fun _ => .ite (k.thenMore (acceptMessage_heard n _ _) fun _ => k.bind (pairedCopy_heard n _) fun _ =>
      pairedCopy_heard n _) <| k.bind (hleg _ _) fun _ => k.bind (hleg _ _) fun _ => k.when <|
      k.bind (.heardIncAt n (p := 16) (by decide)) fun _ => k.bind (r.occurrence _ _ _) fun _ => k.when (.read fun _ => r.trigger _ _ _ _ _)

theorem safeCopy_heard (src : MsgLeg) (bs : List Byte) : (safeCopy src bs).Along (Heard n) := by
  have k := Heard.ongoing n
  have hleg : ∀ l f, (updLeg l f).Along (Heard n) := fun l f => .heardIn n (foot_updLeg l f)
  have herr : ∀ x : FldAt, x.addr / 65536 = 16 → (inc x).Along (Heard n) := fun x hx => .heardIncAt n hx
  exact .read fun _ => k.when <| .ite (legErr_heard n _) <| .ite (k.bind (herr _ (by decide)) fun _ => legErr_heard n _) <| k.when <|
    .ite (k.bind (hleg _ _) fun _ => pairCopy_heard n _ _) <| k.bind (hleg _ _) fun _ => k.bind (herr _ (by decide)) fun _ =>
    legErr_heard n _

end

end Sys2Proof.Machine
end

section
/-! SUPPORT for O54: what was heard stands along every request and every way in. -/

namespace Sys2Proof.Machine

section
variable (n : Fin 4)

/-- What the write of a word leaves to do reaches nothing that was heard. -/
theorem writeEffect_heard (all : List Nat) (r : RegSpec) (a : Nat) (v old : Word) : (writeEffect all r a v old).Along (Heard n) := by
  have k := Heard.ongoing n
  have hr := reactive_heard n
  have hload : setLoad.Along (Heard n) := .heardIn n foot_setLoad
  have hack : (if bitsOf v 30 30 = 1 then rxAck else pure ()).Along (Heard n) := k.when (.heardIn n foot_rxAck)
  refine .read fun s => ?_
  dsimp only
  split
  · exact .ite (k.bind (.heardAt n (p := 1) _ (by decide)) fun _ => k.bind (.heardHid n fun _ => rfl) fun _ => hack) hack
  · exact .heardIn n (foot_startMask _)
  · exact k.bind (.heardAt n _ (PLS.TB_CFG_page _)) fun _ => k.thenMore (.heardIn n (foot_startMask _)) fun _ =>
      k.thenMore (.heardIn n (foot_stopTb _)) fun _ => hload
  · exact k.bind (.heardIn n (foot_syncWritten _)) fun _ => hload
  · exact .heardIn n (foot_trgWritten _)
  · exact k.thenMore (.heardIn n (foot_passShadows _)) fun _ => hload
  · exact k.thenMore (.heardIn n (foot_passShadows _)) fun _ => hload
  · exact k.bind (.heardIn n (foot_writeShadow _ _ _)) fun _ => k.when (.heardIn n (foot_shadowPosted _))
  · exact k.bind (.heardIn n (foot_writeShadow _ _ _)) fun _ => .heardIn n (foot_shadowPosted _)
  · exact watchCharge_heard n (setThreshold_heard n _ _ _)
  · exact k.when (.heardAt n _ (GDR.RDY_CFG_page _))
  · exact k.thenMore (.heardAt n (p := 6) _ (by decide)) fun _ => k.when (.heardAt n (p := 6) _ (by decide))
  · exact hload
  · exact hload
  · exact .heardIn n (foot_newTarget _ _)
  · exact .heardIn n (foot_showClamp _)
  · exact k.when (.heardHid n fun _ => rfl)
  · exact k.bind (ctrlWritten_heard n _) fun _ => k.when (contOpen_heard n)
  · exact k.when (.heardIn n foot_chopFaultyClear)
  · exact modeWritten_heard n _
  · exact k.thenMore (puFaultClear_heard n _) fun _ => k.when (.heardIn n (foot_ptFaultClear _))
  · exact .heardIn n (foot_emuRestart _)
  · exact pcmpWritten_heard n _ _ _ _
  · exact pcmpWritten_heard n _ _ _ _
  · exact k.bind (.heardHid n fun _ => rfl) fun _ => .heardAt n _ (POS.OBS_CTRL_page _)
  · exact .ite (actGo_heard n _ _) (actStop_heard n _)
  · exact k.bind (cplCommand_heard n _) fun _ => followLock_heard n
  · exact k.when (.heardAt n (p := 11) _ (by decide))
  · exact tryStart_heard n
  · exact tryStart_heard n
  · exact chgCommand_heard n _
  · exact ringState_heard n
  · exact timeSet_heard n
  · exact .heardIn n foot_vsetWritten
  · exact hload
  · exact k.when (.heardIn n (foot_setTarget _ _))
  · exact lvpCommand_heard n _
  · exact hr.syncFuncs
  · exact msgCfgWritten_heard n _
  · exact hr.syncFuncs
  · exact hr.syncFuncs
  · exact k.thenMore (.heardIn n (foot_sinFaultClear _)) fun _ => hr.inputChanged _ _
  · exact lastingWritten_heard n _ _
  · exact timeCfgWritten_heard n _
  · exact netTimeSet_heard n
  · exact rxSelected_heard n _
  · exact k.thenMore (recoverWritten_heard n _) fun _ => ctrlEnabled_heard n _ _
  · exact hr.setDev _
  · exact k.pure _

/-! ## Writes -/

/-- The words of the reception have no bit that a write stores or clears. -/
theorem storedWord_heard : ∀ n : Fin 4, ∃ r r', regAt (BUS.RX_HEAD n) = some r ∧ regAt (BUS.RX_STAT n) = some r' ∧
    ∀ v old, storedWord r v old = old ∧ storedWord r' v old = old := by
  have hkeep : ∀ v old : Word, ((v &&& 0#32) ||| (old &&& ~~~0#32)) &&& ~~~(v &&& 0#32) = old := fun v old => by
    rw [BitVec.and_zero, BitVec.zero_or, show ~~~(0#32) = BitVec.allOnes 32 from rfl, BitVec.and_allOnes, BitVec.and_allOnes]
  intro n
  match n with
  | 0 => exact ⟨_, _, rfl, rfl, fun v old => ⟨hkeep v old, hkeep v old⟩⟩
  | 1 => exact ⟨_, _, rfl, rfl, fun v old => ⟨hkeep v old, hkeep v old⟩⟩
  | 2 => exact ⟨_, _, rfl, rfl, fun v old => ⟨hkeep v old, hkeep v old⟩⟩
  | 3 => exact ⟨_, _, rfl, rfl, fun v old => ⟨hkeep v old, hkeep v old⟩⟩

theorem heard_implemented : ∀ n : Fin 4, (∀ i < 32, (implMask (BUS.RX_HEAD n)).getLsbD i = true) ∧
    ∀ i < 32, 16 ≤ i → i ≤ 31 → (implMask (BUS.RX_STAT n)).getLsbD i = true := by decide

/-- A field of a word that is put back as it was. -/
theorem f_reg_self {x : FldAt} (hmapped : (regAt x.addr).isSome = true) (hhi : x.hi < 32)
    (hmask : ∀ i < 32, x.lo ≤ i → i ≤ x.hi → (implMask x.addr).getLsbD i = true) (s : State) :
    ((Act.reg x.addr (s.rd x.addr)).apply s).f x = s.f x := by
  show bitsOf (State.rd _ _) x.hi x.lo = bitsOf (s.rd _) x.hi x.lo
  rw [rd_apply_reg_same _ _ _ hmapped]
  exact bitsOf_and hhi hmask

/-- A word as it is stored: those of the reception take nothing. -/
theorem stored_heard {r : RegSpec} {a : Nat} (hr : regAt a = some r) (v : Word) (s : State) :
    (wr a (storedWord r v (s.rd a))).Ends s fun _ t => Heard n s t := by
  obtain ⟨q, q', hq, hq', hkeep⟩ := storedWord_heard n
  obtain ⟨hhead, hstat⟩ := heard_implemented n
  have hbus : ((Act.reg a (storedWord r v (s.rd a))).apply s).hid.bus.heard n = s.hid.bus.heard n :=
    congrArg (fun y : Hidden => y.bus.heard n) (apply_reg_hid ..)
  have hmapped : (regAt a).isSome = true := by rw [hr]; rfl
  refine .ofDoes (M.does_act _ s) ?_
  by_cases h : a = BUS.RX_HEAD n
  · subst h
    obtain rfl : r = q := Option.some.inj (hr.symm.trans hq)
    rw [(hkeep _ _).1] at hbus ⊢
    exact ⟨f_reg_self (x := BUS.RX_HEAD.RXSEQ n) hmapped (show 31 < 32 by decide) (fun i hi _ _ => hhead i hi) s,
      f_of_rd_eq (BUS.RX_STAT.LOST n) (rd_apply_reg_other _ _ _ s (RX_HEAD_ne_RX_STAT n n).symm), hbus⟩
  by_cases h' : a = BUS.RX_STAT n
  · subst h'
    obtain rfl : r = q' := Option.some.inj (hr.symm.trans hq')
    rw [(hkeep _ _).2] at hbus ⊢
    exact ⟨f_of_rd_eq (BUS.RX_HEAD.RXSEQ n) (rd_apply_reg_other _ _ _ s (RX_HEAD_ne_RX_STAT n n)),
      f_reg_self (x := BUS.RX_STAT.LOST n) hmapped (show 31 < 32 by decide) hstat s, hbus⟩
  · exact .of_rd n (rd_apply_reg_other _ _ _ s (Ne.symm h)) (rd_apply_reg_other _ _ _ s (Ne.symm h')) hbus

theorem writeWord_heard (c : Ctx) (all : List Nat) (a : Nat) (v : Word) : (writeWord c all a v).Along (Heard n) := by
  have k := Heard.ongoing n
  unfold writeWord
  cases hr : regAt a with
  | none => exact k.pure _
  | some r =>
    have hrest : ∀ old, (do
        writeEffect all r a v old
        let new ← rd a
        if (old ^^^ new) &&& r.rws ≠ 0 then
          if a / 65536 = 0x10 then setCfgCrc
          change 1 a old.toNat new.toNat c.session c.transport).Along (Heard n) := fun old =>
      k.bind (writeEffect_heard n all r a v old) fun _ => .read fun _ => k.when <|
        k.thenMore (.heardIn n foot_setCfgCrc) fun _ => .heardIn n (foot_change 1 a _ _ c.session c.transport)
    refine k.thenMore (settleTime_heard n) fun _ s => .read <| .seq (stored_heard n hr v s) fun _ t ht => ?_
    exact .ofAlong (hrest _) fun _ _ hu => k.trans ht hu

theorem writing_heard : Writing (Heard n) where
  ongoing := Heard.ongoing n
  own _ _ h := .of_same n h (by decide)
  writeWord := writeWord_heard n

/-! ## Requests -/

theorem readWords_heard (c : Ctx) (as : List Nat) : (readWords c as).Along (Heard n) := by
  have k := Heard.ongoing n
  have heffect : ∀ a, (readEffect a).Along (Heard n) := fun _ => .read fun _ => k.when (.heardHid n fun _ => rfl)
  refine .read fun s => .ite (k.pure _) ?_
  dsimp only
  split
  · exact k.pure _
  · split
    · exact k.bind (writing_heard n |>.countAbsent _) fun _ => k.pure _
    · exact k.bind (k.mapM (fun a => k.bind (heffect a) fun _ => .read fun _ => k.pure _) _) fun _ => k.pure _

theorem opRead_heard (c : Ctx) (page : Nat) (body : List Byte) : (opRead c page body).Along (Heard n) := by
  have k := Heard.ongoing n
  refine .ite (k.pure _) ?_
  split
  · exact k.pure _
  · exact k.bind (readWords_heard n c _) fun _ => k.pure _

theorem opEnable_heard (g : Nat) : (opEnable g).Along (Heard n) := by
  have k := Heard.ongoing n
  exact .read fun _ => .ite (k.bind (.heardIn n (foot_absentReply 0)) fun _ => k.pure _) <| k.bind (enableGroup_heard n g true) fun _ =>
    k.pure _

theorem opReset_heard (p : Packet) : (opReset p).Along (Heard n) := by
  have k := Heard.ongoing n
  have hlink : resetLink.Along (Heard n) := .read fun s => k.bind (.heardIn n (foot_putSessions _)) fun _ => k.forM (fun m =>
    k.bind (.heardHid n fun x => (heard_queueless n).tx _ _ _) fun _ =>
      .heardWf n _ (BUS_TX_STAT_apart_heard n m).1 (BUS_TX_STAT_apart_heard n m).2) _
  unfold opReset
  split
  · exact k.thenMore hlink fun _ => k.pure _
  · exact k.bind (.heardHid n fun _ => rfl) fun _ => k.pure _
  · exact k.pure _

theorem tableLoadBody_heard (c : Ctx) (p : Packet) (body : List Byte) (staged : Option Seg) :
    (tableLoadBody c p body staged).Along (Heard n) := by
  have k := Heard.ongoing n
  have hload : ∀ id first size es, (do return (← applyLoad c id first size es, none) : M (Ans × Option Seg)).Along (Heard n) :=
    fun _ _ _ _ => k.bind (applyLoad_heard n _ _ _ _ _) fun _ => k.pure _
  refine .read fun s => .ite (k.pure _) ?_
  split
  · exact k.pure _
  · refine .ite (k.pure _) <| .ite (k.pure _) <| .ite (k.pure _) ?_
    dsimp only
    split
    · exact k.pure _
    · split
      · exact k.pure _
      · split
        · exact k.pure _
        · refine .ite (k.pure _) ?_
          split
          · exact .ite (k.bind (.heardIn n (foot_absentReply _)) fun _ => k.pure _) (hload _ _ _ _)
          · exact hload _ _ _ _

theorem handle_heard (c : Ctx) (p : Packet) (body : List Byte) (staged : Option Seg) (svcLow : Option Bool) :
    (handle c p body staged svcLow).Along (Heard n) := .read fun s => by
  have k := Heard.ongoing n
  have plain : ∀ {m : M Ans}, m.Along (Heard n) → (do return (← m, none) : M (Ans × Option Seg)).Along (Heard n) := fun h =>
    k.bind h fun _ => k.pure _
  dsimp only
  split
  · exact k.pure _
  · exact k.pure _
  · exact k.pure _
  · exact plain (opRead_heard n _ _ _)
  · exact plain ((writing_heard n).opWrite _ _ _)
  · exact plain ((writing_heard n).opModify _ _ _)
  · exact plain (opEnable_heard n _)
  · exact plain (k.bind (disableGroup_heard n _ true) fun _ => k.pure _)
  · exact plain (.heardIn n (foot_opCommit _))
  · exact .ite (.heardIn n (foot_loadSequences _ _ _ _)) (tableLoadBody_heard n _ _ _ _)
  · exact plain (.heardIn n (foot_tableVerify _))
  · exact plain (tableSwap_heard n _)
  · exact plain ((writing_heard n).opSetpoint _ _)
  · exact plain (.heardIn n (foot_opSelftest _ _ _))
  · exact plain (.heardIn n (foot_opLogRead _))
  · exact plain (.heardIn n (foot_opLogClear _ _))
  · exact plain (opSessionOpen_heard n _ _)
  · exact k.bind (.heardIn n (foot_dropSession _)) fun _ => k.pure _
  · exact plain (.heardIn n (foot_opPassword _ _ _))
  · exact plain (opSubstitute_heard n _ _ _ _)
  · exact k.pure _
  · exact .heardIn n (foot_opSequenceStore _ _ _ _)
  · exact plain (.heardIn n (foot_opScrub _ _ _))
  · exact plain (opRetire_heard n _)
  · exact plain (.heardIn n (foot_opSplit _ _ _))
  · exact plain (.heardIn n (foot_opJoin _ _ _))
  · exact plain (opAdvance_heard n _ _ _ _)
  · exact plain (.heardIn n (foot_opFwBegin _ _))
  · exact .heardIn n (foot_opFwChunk _ _ _ _)
  · exact plain (.heardIn n (foot_opFwEnd _ _ _))
  · exact plain (.heardIn n (foot_opMeterRead _))
  · exact plain (.heardIn n (foot_opRecordRead _))
  · exact plain (opSeal_heard n _)
  · exact plain (opReset_heard n _)
  · exact k.pure _

/-- The executor and every way into it leave what was heard. -/
theorem executing_heard : Executing (Heard n) where
  toWriting := writing_heard n
  handle := handle_heard n
  resetIsland := resetIsland_heard n
  resetSoon := .heardHid n fun _ => rfl
  logViolation := logViolation_heard n
  sendReply := sendReply_heard n
  readWords := readWords_heard n
  endRun := endRun_heard n

/-! ## The readers (R445) -/

theorem readEntry_heard (m : Fin 4) (e : LogEntry) : (readEntry m e).Along (Heard n) := by
  have k := Heard.ongoing n
  have hx := executing_heard n
  have hrequest : ∀ (c : Prop) [Decidable c], (if c then do
      receiveBytes (.canxl m e.frame.id) e.frame.data
      takeGo
    else pure ()).Along (Heard n) := fun _ _ => k.when <| k.bind (hx.receiveBytes _ _) fun _ => hx.takeGo
  exact .read fun _ => .ite (.ite (k.bind (.heardHid n fun _ => rfl) fun _ => k.pure _) (k.pure _)) <|
    k.thenMore (takeReference_heard n _ _ _ _) fun _ => hrequest _

theorem readNet_heard (m : Fin 4) : (readNet m).Along (Heard n) := by
  have k := Heard.ongoing n
  exact .read fun _ => k.when <| k.bind (updCan_heard n m fun _ => ⟨rfl, rfl, rfl⟩) fun _ => k.bind (k.forM (fun e => readEntry_heard n m e) _)
    fun _ => showPool_heard n m

theorem readSafe_heard (m : Nat) : (readSafe m).Along (Heard n) := by
  have k := Heard.ongoing n
  exact .read fun _ => k.when <| k.bind (updCan_heard n m fun _ => ⟨rfl, rfl, rfl⟩) fun _ =>
    k.bind (k.forM (fun _ => k.when (safeCopy_heard n _ _)) _) fun _ => showPool_heard n m

end

end Sys2Proof.Machine
end

section
/-! SUPPORT for O54: what a controller takes into its log, or drops (R440, R443). -/

namespace Sys2Proof.Machine

/-- A controller without the window that shows one of its entries. -/
def CanSt.core (c : CanSt) : CanSt := { c with win := [] }

def State.core (n : Nat) (s : State) : CanSt := (s.can n).core

/-- A controller that has taken a frame into its log. -/
def CanSt.logged (f : CanFrame) (tx : Bool) (time : Nat) (c : CanSt) : CanSt :=
  { c with
    log := trimLog ((f.data.length + 63) / 64) c.log ++ [⟨c.next, time, f, tx, c.dropped, c.unit * 64⟩]
    next := c.next + 1
    dropped := 0
    unit := (c.unit + (f.data.length + 63) / 64) % 4096 }

/-- The log and the pool have room for a frame. -/
def State.logRoom (s : State) (n : Nat) (f : CanFrame) : Prop :=
  ((s.can n).log.filter (s.logHeld n)).length < 1024 ∧ s.heldUnits n + (f.data.length + 63) / 64 ≤ 4096

/-- A frame is in the log of controller `n`, and nothing else of it has changed but what shows the log. -/
structure FrameLogged (n : Nat) (f : CanFrame) (tx : Bool) (time : Nat) (s t : State) : Prop where
  core : t.core n = ((s.can n).logged f tx time).core
  seq : t.f (BUS.RX_HEAD.RXSEQ n) = (s.can n).next % 4294967296
  lost : t.f (BUS.RX_STAT.LOST n) = s.f (BUS.RX_STAT.LOST n)
  keeps : Keeps [BUS.RX_HEAD n, BUS.RX_STAT n, BUS.WIN n] [] s t

theorem can_updCan (n : Nat) (f : CanSt → CanSt) (s : State) : ((updCan n f).run s).can n = f (s.can n) := mget_mupd_same ..

theorem does_updCan (n : Nat) (f : CanSt → CanSt) (s : State) : (updCan n f).Does s () ((updCan n f).run s) := M.does_hid _ s

theorem updCan_keeps (as ps : List Nat) (n : Nat) (f : CanSt → CanSt) : (updCan n f).Along (Keeps as ps) := .keepsHid _ _ _

section
variable (n : Fin 4)

theorem core_wr (a : Nat) (w : Word) : (wr a w).Fixes (State.core n) := .act fun _ =>
  congrArg (fun y : Hidden => CanSt.core (mget {} y.bus.can n)) (apply_reg_hid ..)

theorem core_wf (x : FldAt) (v : Nat) : (wf x v).Fixes (State.core n) := .read fun _ => core_wr n _ _

theorem core_win (w : List Word) : (updCan n fun c => { c with win := w }).Fixes (State.core n) := .act fun s =>
  (congrArg CanSt.core (can_updCan n (fun c => { c with win := w }) s)).trans rfl

theorem refill_core (e : Option LogEntry) : (refill n e).Fixes (State.core n) := by
  refine .bind (core_wf n _ _) fun _ => .bind (core_wf n _ _) fun _ => ?_
  cases e with
  | some x => exact core_win n _
  | none => exact .pure _

theorem showPool_core : (showPool n).Fixes (State.core n) := .read fun _ => core_wf n _ _

theorem refill_keeps {as : List Nat} (ps : List Nat) (h : BUS.WIN n ∈ as) (e : Option LogEntry) : (refill n e).Along (Keeps as ps) := by
  have k := Keeps.ongoing as ps
  refine k.bind (.keepsWf _ _ h) fun _ => k.bind (.keepsWf _ _ h) fun _ => ?_
  cases e with
  | some x => exact updCan_keeps _ _ _ _
  | none => exact k.pure _

theorem showPool_keeps {as : List Nat} (ps : List Nat) (h : BUS.RX_STAT n ∈ as) : (showPool n).Along (Keeps as ps) :=
  .read fun _ => .keepsWf _ _ h

/-- What shows a log to the host changes nothing that the readers use. -/
structure LogShown (n : Fin 4) (s t : State) : Prop where
  heard : Heard n s t
  core : t.core n = s.core n
  keeps : Keeps [BUS.RX_HEAD n, BUS.RX_STAT n, BUS.WIN n] [] s t

theorem LogShown.ongoing : Ongoing (LogShown n) :=
  ⟨fun s => ⟨(Heard.ongoing n).refl s, rfl, (Keeps.ongoing _ _).refl s⟩,
    fun h h' => ⟨(Heard.ongoing n).trans h.heard h'.heard, h'.core.trans h.core, (Keeps.ongoing _ _).trans h.keeps h'.keeps⟩⟩

theorem LogShown.along {m : M Unit} (hheard : m.Along (Heard n)) (hcore : m.Fixes (State.core n))
    (hkeeps : m.Along (Keeps [BUS.RX_HEAD n, BUS.RX_STAT n, BUS.WIN n] [])) : m.Along (LogShown n) :=
  ((hheard.and (.ofFixes hcore fun _ _ h => h)).and hkeeps).mono fun _ _ h => ⟨h.1.1, h.1.2, h.2⟩

/-- The number of the last entry as it is shown. -/
theorem rxHead_sets (v : Nat) (s : State) : (wr (BUS.RX_HEAD n) (BitVec.ofNat 32 v)).Ends s fun _ t =>
    t.f (BUS.RX_HEAD.RXSEQ n) = v % 4294967296 ∧ t.f (BUS.RX_STAT.LOST n) = s.f (BUS.RX_STAT.LOST n) ∧ t.core n = s.core n ∧
      Keeps [BUS.RX_HEAD n] [] s t := by
  obtain ⟨r, _, hr, -⟩ := storedWord_heard n
  obtain ⟨_, t, hd, hcore, hk⟩ := (M.Along.ofFixes (core_wr n (BUS.RX_HEAD n) (BitVec.ofNat 32 v)) fun _ _ h => h).and
    (.keepsWr (as := [BUS.RX_HEAD n]) [] _ (List.mem_singleton.mpr rfl)) s
  refine .ofDoes hd ⟨?_, f_of_rd_eq (BUS.RX_STAT.LOST n) (hk.rd _ ?_ List.not_mem_nil), hcore, hk⟩
  · rw [hd.unique (M.does_wr _ _ s)]
    show bitsOf (State.rd _ (BUS.RX_HEAD n)) 31 0 = _
    rw [rd_apply_reg_same _ _ _ (by rw [hr]; rfl), bitsOf_and (by decide) fun i hi _ _ => (heard_implemented n).1 i hi]
    simp [bitsOf]
  · exact fun h => RX_HEAD_ne_RX_STAT n n (List.mem_singleton.mp h).symm

/-- A frame for which there is room is taken (R440). -/
theorem logFrame_logs (f : CanFrame) (tx : Bool) (time : Nat) {s : State} (h : s.logRoom n f) :
    (logFrame n f tx time).Ends s fun _ t => FrameLogged n f tx time s t := by
  have hroom : ¬ (1024 ≤ ((s.can n).log.filter (s.logHeld n)).length ∨ 4096 < s.heldUnits n + (f.data.length + 63) / 64) := by
    obtain ⟨hlen, hunits⟩ := h
    omega
  refine .read <| .ite_neg hroom <| .bind (does_updCan n (CanSt.logged f tx time) s) <| .seq (rxHead_sets n (s.can n).next _) fun _ t ht => ?_
  obtain ⟨hseq, hlost, hcore, hk⟩ := ht
  have k := LogShown.ongoing n
  refine .ofAlong (k.thenMore (LogShown.along n (refill_heard n n _) (refill_core n _) (refill_keeps n _ (by simp) _)) fun _ =>
    k.bind (LogShown.along n (showPool_heard n n) (showPool_core n) (showPool_keeps n _ (by simp))) fun _ => k.pure true) fun _ u hu => ?_
  exact ⟨hu.core.trans (hcore.trans (congrArg CanSt.core (can_updCan n _ s))), hu.heard.seq.trans hseq, hu.heard.lost.trans hlost,
    (((updCan_keeps [] [] n _).run s).trans (hk.trans hu.keeps)).mono (by simp) (by simp)⟩

end

end Sys2Proof.Machine
end

section
/-! SUPPORT for O54: a frame that is dropped (R443), and which Chords read. -/

namespace Sys2Proof.Machine

/-! ## The readers -/

theorem worker_le (s : State) : s.worker 2 ≤ 2 := by
  unfold State.worker
  split <;> omega

/-- Which Chords read the logs hangs on the states of the Chords and of their islands. -/
theorem reads_of_rd {s t : State} (hchd : t.rd CHD.STATUS = s.rd CHD.STATUS) (hisl : ∀ m < 16, t.rd (SYS.ISLAND m) = s.rd (SYS.ISLAND m)) :
    t.cd0Reads = s.cd0Reads ∧ t.cd2Reads = s.cd2Reads := by
  have hstate : ∀ m, t.chd m = s.chd m := fun m => by
    unfold State.chd
    split <;> exact f_of_rd_eq _ hchd
  have hpresent : ∀ m < 16, t.present m = s.present m := fun m hm => congrArg (· == 2) (f_of_rd_eq (SYS.ISLAND.STATE m) (hisl m hm))
  have hworker : t.worker 2 = s.worker 2 := by simp only [State.worker, hstate]
  have hle := worker_le s
  simp only [State.cd0Reads, State.cd2Reads, hworker, hstate, hpresent 12 (by decide), hpresent _ (show 12 + s.worker 2 < 16 by omega), and_self]

theorem Keeps.reads {as : List Nat} {s t : State} (h : Keeps as [] s t) (ha : ∀ a ∈ as, a / 65536 ≠ 0 ∧ a / 65536 ≠ 18) :
    t.cd0Reads = s.cd0Reads ∧ t.cd2Reads = s.cd2Reads :=
  reads_of_rd (h.rd _ (fun hin => (ha _ hin).2 (by decide)) List.not_mem_nil)
    fun m _ => h.rd _ (fun hin => (ha _ hin).1 (SYS.ISLAND_page m)) List.not_mem_nil

/-- The reaction to an occurrence takes no Chord from the logs. -/
theorem unreacted_reads : Unreacted fun s => (s.cd0Reads, s.cd2Reads) := by
  have hrd : ∀ s t : State, (∀ a, a / 65536 = 18 ∨ (∃ m < 16, a = SYS.ISLAND m) → t.rd a = s.rd a) →
      (t.cd0Reads, t.cd2Reads) = (s.cd0Reads, s.cd2Reads) := fun s t h => by
    obtain ⟨h0, h2⟩ := reads_of_rd (h _ (.inl (by decide))) fun m hm => h _ (.inr ⟨m, hm, rfl⟩)
    rw [h0, h2]
  have hpage : ∀ a, (a / 65536 = 18 ∨ ∃ m < 16, a = SYS.ISLAND m) → a / 65536 = 18 ∨ a / 65536 = 0 := fun a ha =>
    ha.imp_right fun ⟨m, _, he⟩ => he ▸ SYS.ISLAND_page m
  have hword : ∀ {b : Nat} (w : Word) (s : State), b / 65536 ≠ 18 → (∀ m < 16, SYS.ISLAND m ≠ b) →
      (((Act.reg b w).apply s).cd0Reads, ((Act.reg b w).apply s).cd2Reads) = (s.cd0Reads, s.cd2Reads) := fun {b} w s h18 h0 =>
    hrd _ _ fun a ha => rd_apply_reg_other _ _ _ s <| by
      rintro rfl
      rcases ha with ha | ⟨m, hm, he⟩
      · exact h18 ha
      · exact h0 m hm he.symm
  exact {
    places := fun s t h => hrd s t fun a ha => h.rd (by decide) a (by rcases hpage a ha with hp | hp <;> rw [hp] <;> decide)
    sent := fun s t h => hrd s t fun a ha => bare_rd h.bare (by rcases hpage a ha with hp | hp <;> rw [hp] <;> decide)
    avail := fun _ => .read fun _ => .act fun s => hword _ s (by decide) fun m _ he =>
      absurd ((SYS.ISLAND_page m).symm.trans (congrArg (· / 65536) he)) (by decide)
    device := fun _ => .read fun _ => .act fun s => hword _ s (by decide) fun _ hm => ISLAND_ne_STATUS hm
    dropped := fun k => .read fun _ => .when <| .read fun _ => .act fun s =>
      hword _ s (by rw [show (SYS.XFER.DROPPED_WRITES k).addr = SYS.XFER k from rfl, SYS.XFER_page]; decide) fun _ hm => ISLAND_ne_XFER hm k }

/-! ## A frame without room -/

/-- An occurrence is counted and reaches the pages of the ledger, whatever else holds along it. -/
theorem occur_judges {src inst : Nat} (hsrc : src < 256) (hinst : inst < 256) (detail : Nat) {ρ : State → State → Prop} (h : (occur src inst detail).Along ρ) (s : State) :
    (occur src inst detail).Ends s fun _ t => (Counted src inst s t ∧ Keeps [] ledgerPages s t) ∧ ρ s t :=
  .along (.ofDoes ((foot_occur src inst detail).does s) ⟨occur_counted ⟨src, hsrc⟩ ⟨inst, hinst⟩ detail s,
    ((foot_occur _ _ _).run s).keeps ((occur_beyond ..).run s) (by decide) (by decide)⟩) h

/-- A frame was dropped. -/
structure FrameDropped (n : Nat) (s t : State) : Prop where
  next : (t.can n).next = (s.can n).next
  dropped : (t.can n).dropped = (s.can n).dropped + 1
  log : (t.can n).log = (s.can n).log
  lost : Bumped (BUS.RX_STAT.LOST n) s t
  counted : Counted 204 0 s t
  reads : t.cd0Reads = s.cd0Reads ∧ t.cd2Reads = s.cd2Reads
  keeps : Keeps [BUS.RX_STAT n] ledgerPages s t

section
variable (n : Fin 4)

/-- A dropped frame as it is counted, before the ledger judges it. -/
structure DropCounted (n : Nat) (s t : State) : Prop where
  can : t.can n = { s.can n with dropped := (s.can n).dropped + 1 }
  lost : Bumped (BUS.RX_STAT.LOST n) s t
  shown : t.occurShown 204 = s.occurShown 204
  keeps : Keeps [BUS.RX_STAT n] [] s t

theorem drop_counted (s : State) :
    DropCounted n s ((updCan n fun c => { c with dropped := c.dropped + 1 }).run ((inc (BUS.RX_STAT.LOST n)).run s)) := by
  have hinc : (inc (BUS.RX_STAT.LOST n)).In [20] := M.In.inc 20 _ (BUS.RX_STAT_page n) (by decide)
  have hkinc : (inc (BUS.RX_STAT.LOST n)).Along (Keeps [BUS.RX_STAT n] []) := .keepsInc _ (List.mem_singleton.mpr rfl)
  have hlost := (RX_LOST_real n).bumped s
  have hshown := (hinc.run s).shown 204 (by decide) (by decide)
  have hbus := (hinc.run s).hid (by decide) 47 (by decide)
  have hkeeps := hkinc.run s
  generalize (inc (BUS.RX_STAT.LOST n)).run s = u at *
  refine ⟨(can_updCan n _ u).trans ?_, hlost, hshown, (hkeeps.trans ((updCan_keeps [] [] n _).run u)).mono (by simp) (by simp)⟩
  rw [show u.can n = s.can n from congrArg (fun b : BusSt => mget ({} : CanSt) b.can n) hbus]

/-- A frame for which there is no room is dropped (R443). -/
theorem logFrame_drops (f : CanFrame) (tx : Bool) (time : Nat) {s : State}
    (h : 1024 ≤ ((s.can n).log.filter (s.logHeld n)).length ∨ 4096 < s.heldUnits n + (f.data.length + 63) / 64) :
    (logFrame n f tx time).Ends s fun _ t => FrameDropped n s t := by
  have hpage : BUS.RX_STAT n / 65536 = 20 := BUS.RX_STAT_page n
  have hinc : (inc (BUS.RX_STAT.LOST n)).In [20] := M.In.inc 20 _ hpage (by decide)
  have hu := drop_counted n s
  refine .read <| .ite_pos h <| .bind (hinc.does s) <| .bind (does_updCan n _ _) ?_
  generalize (updCan n fun c => { c with dropped := c.dropped + 1 }).run ((inc (BUS.RX_STAT.LOST n)).run s) = u at hu
  refine .seq (occur_judges (src := 204) (inst := 0) (by decide) (by decide) (BUS.RX_STAT n) (((reactive_heard n).occur _ _ _).and
    (.ofFixes (unreacted_reads.occur 204 0 _) fun _ _ h => h)) u) fun _ v hv => .ofDoes (M.does_pure false v) ?_
  obtain ⟨⟨hcounted, hkeeps⟩, hheard, hreads⟩ := hv
  obtain ⟨hr0, hr2⟩ := Prod.ext_iff.mp hreads
  obtain ⟨hu0, hu2⟩ := hu.keeps.reads (by simpa only [List.mem_singleton, forall_eq, hpage] using by decide)
  exact ⟨hheard.next.trans ((congrArg CanSt.next hu.can).trans rfl), hheard.dropped.trans (congrArg CanSt.dropped hu.can),
    hheard.log.trans ((congrArg CanSt.log hu.can).trans rfl), hu.lost.congr rfl hheard.lost, hcounted.of_shown hu.shown, ⟨hr0.trans hu0, hr2.trans hu2⟩,
    (hu.keeps.trans hkeeps).mono (by simp) (by simp)⟩

end

end Sys2Proof.Machine
end

section
/-! SUPPORT for O54: readers that find nothing to take, and frames received and sent (R445, R448). -/

namespace Sys2Proof.Machine

/-- What each turn of a loop keeps, the loop keeps. -/
theorem M.Ends.forMem {α : Type} {g : α → M Unit} {Q : State → Prop} :
    ∀ (l : List α) {s : State}, (∀ x ∈ l, ∀ u, Q u → (g x).Ends u fun _ t => Q t) → Q s → (l.forM g).Ends s fun _ t => Q t
  | [], s, _, hs => ⟨(), s, M.does_pure () s, hs⟩
  | x :: l, _, h, hs => .seq (h x List.mem_cons_self _ hs) fun _ _ ht =>
      M.Ends.forMem l (fun y hy => h y (List.mem_cons_of_mem x hy)) ht

theorem trimLog_subset (u : Nat) : ∀ l : List LogEntry, ∀ e ∈ trimLog u l, e ∈ l
  | [], _, h => h
  | x :: l, e, h => by
    rw [trimLog] at h
    split at h
    · exact List.mem_cons_of_mem x (trimLog_subset u l e h)
    · exact h

/-- An entry that was sent, or under no identifier that the block uses. -/
def State.unused (s : State) (e : LogEntry) : Prop :=
  e.tx = true ∨ (e.frame.typ = 0 → e.frame.id ≠ s.f BUS.TIME_CFG.REF_ID) ∧ (e.frame.typ = 1 → e.frame.id ≠ s.f SAF.MSG_CFG.CAN_ID) ∧
    (e.frame.typ = 2 → e.frame.id ≠ s.f CMD.CANXL_CFG1.REQ_ID)

/-- A controller whose readers have come to its next entry, where they read. -/
def CanSt.read (cd0 cd2 : Bool) (c : CanSt) : CanSt :=
  { c with cd0 := if cd0 then c.next else c.cd0, cd2 := if cd2 then c.next else c.cd2 }

section
variable (n : Fin 4)

theorem users_apart : ∀ n : Fin 4, ∀ a ∈ [BUS.TIME_CFG, SAF.MSG_CFG, CMD.CANXL_CFG1], a ∉ [BUS.RX_HEAD n, BUS.RX_STAT n, BUS.WIN n] := by
  decide

/-- What an entry is used for hangs on three configurations. -/
theorem State.unused.of_keeps {s t : State} {e : LogEntry} {as : List Nat} (has : as ⊆ [BUS.RX_HEAD n, BUS.RX_STAT n, BUS.WIN n])
    (hk : Keeps as [] s t) (h : s.unused e) : t.unused e := by
  have hf : ∀ x : FldAt, x.addr ∈ [BUS.TIME_CFG, SAF.MSG_CFG, CMD.CANXL_CFG1] → t.f x = s.f x := fun x hx =>
    hk.f (fun hin => users_apart n _ hx (has hin)) List.not_mem_nil
  rw [State.unused, hf BUS.TIME_CFG.REF_ID (by decide), hf SAF.MSG_CFG.CAN_ID (by decide), hf CMD.CANXL_CFG1.REQ_ID (by decide)]
  exact h

/-- The readers' changes beside those of the controller: none, but for what a sent entry tells of the time. -/
theorem readEntry_unused (e : LogEntry) {s : State} (h : s.unused e) :
    (readEntry n e).Ends s fun _ t => t.core n = s.core n ∧ Keeps [] [] s t := by
  have hnone : (pure () : M Unit).Ends s fun _ t => t.core n = s.core n ∧ Keeps [] [] s t :=
    .ofDoes (M.does_pure () s) ⟨rfl, (Keeps.ongoing [] []).refl s⟩
  refine .read ?_
  rcases h with htx | ⟨h0, -, h2⟩
  · refine .ite_pos htx <| .ite (.bind (M.does_hid _ s) <| .ofDoes (M.does_pure () _) ⟨rfl, fun _ _ _ => rfl, rfl, rfl, rfl, rfl⟩) ?_
    exact .ofDoes (M.does_pure () s) ⟨rfl, (Keeps.ongoing [] []).refl s⟩
  · by_cases htx : e.tx = true
    · exact .ite_pos htx <| .ite (.bind (M.does_hid _ s) <| .ofDoes (M.does_pure () _) ⟨rfl, fun _ _ _ => rfl, rfl, rfl, rfl, rfl⟩)
        (.ofDoes (M.does_pure () s) ⟨rfl, (Keeps.ongoing [] []).refl s⟩)
    · exact .ite_neg htx <| .ite_neg (fun hc => h0 hc.1 hc.2.1) <| .ite_neg (fun hc => h2 hc.1 hc.2.1) hnone

theorem readSafe_unused {s : State} (h : ∀ e ∈ (s.can n).log, (s.can n).cd0 ≤ e.rxseq → s.unused e) :
    (readSafe n).Ends s fun _ t => t.core n = (s.core n).read s.cd0Reads false ∧ Keeps [BUS.RX_STAT n] [] s t := by
  refine .read ?_
  cases hreads : s.cd0Reads
  · exact .ofDoes (M.does_pure () s) ⟨rfl, (Keeps.ongoing _ _).refl s⟩
  · refine .ite_pos rfl <| .bind (does_updCan n _ s) ?_
    have hcore : ((updCan n fun c => { c with cd0 := (s.can n).next }).run s).core n = (s.core n).read true false :=
      (congrArg CanSt.core (can_updCan n _ s)).trans rfl
    have hkeeps : Keeps [] [] s ((updCan n fun c => { c with cd0 := (s.can n).next }).run s) := (updCan_keeps [] [] n _).run s
    refine .seq (Q := fun _ t => t.core n = (s.core n).read true false ∧ Keeps [] [] s t)
      (.forMem _ (fun e he u hu => .ite_neg (fun hc => ?_) (.ofDoes (M.does_pure () u) hu)) ⟨hcore, hkeeps⟩) fun _ t ht => ?_
    · obtain ⟨hlog, hwait⟩ := List.mem_filter.mp he
      simp only [Bool.and_eq_true, decide_eq_true_eq, Bool.not_eq_true'] at hwait
      rcases h e hlog hwait.1 with htx | ⟨-, h1, -⟩
      · exact absurd (htx.symm.trans hwait.2) (by decide)
      · exact h1 hc.1 hc.2.2.1
    · obtain ⟨_, u, hd, hu, hk⟩ := (M.Along.ofFixes (showPool_core n) fun _ _ h => h).and (showPool_keeps n [] (List.mem_singleton.mpr rfl)) t
      exact .ofDoes hd ⟨hu.trans ht.1, (ht.2.trans hk).mono (by simp) (by simp)⟩

theorem readNet_unused {s : State} (h : ∀ e ∈ (s.can n).log, (s.can n).cd2 ≤ e.rxseq → s.unused e) :
    (readNet n).Ends s fun _ t => t.core n = (s.core n).read false s.cd2Reads ∧ Keeps [BUS.RX_STAT n] [] s t := by
  refine .read ?_
  cases hreads : s.cd2Reads
  · exact .ofDoes (M.does_pure () s) ⟨rfl, (Keeps.ongoing _ _).refl s⟩
  · refine .ite_pos rfl <| .bind (does_updCan n _ s) ?_
    have hcore : ((updCan n fun c => { c with cd2 := (s.can n).next }).run s).core n = (s.core n).read false true :=
      (congrArg CanSt.core (can_updCan n _ s)).trans rfl
    have hkeeps : Keeps [] [] s ((updCan n fun c => { c with cd2 := (s.can n).next }).run s) := (updCan_keeps [] [] n _).run s
    refine .seq (Q := fun _ t => t.core n = (s.core n).read false true ∧ Keeps [] [] s t)
      (.forMem _ (fun e he u hu => ?_) ⟨hcore, hkeeps⟩) fun _ t ht => ?_
    · obtain ⟨hlog, hwait⟩ := List.mem_filter.mp he
      obtain ⟨_, v, hd, hv⟩ := readEntry_unused n e ((h e hlog (of_decide_eq_true hwait)).of_keeps n (List.nil_subset _) hu.2)
      exact .ofDoes hd ⟨hv.1.trans hu.1, (Keeps.ongoing _ _).trans hu.2 hv.2⟩
    · obtain ⟨_, u, hd, hu, hk⟩ := (M.Along.ofFixes (showPool_core n) fun _ _ h => h).and (showPool_keeps n [] (List.mem_singleton.mpr rfl)) t
      exact .ofDoes hd ⟨hu.trans ht.1, (ht.2.trans hk).mono (by simp) (by simp)⟩

/-- Readers that find no entry they use only come to the next one (R445). -/
theorem readers_unused {s : State} (h : ∀ e ∈ (s.can n).log, (s.can n).cd0 ≤ e.rxseq ∨ (s.can n).cd2 ≤ e.rxseq → s.unused e) :
    (do
      readSafe n
      readNet n : M Unit).Ends s fun _ t => t.core n = (s.core n).read s.cd0Reads s.cd2Reads ∧ Keeps [BUS.RX_STAT n] [] s t := by
  refine .seq (readSafe_unused n fun e he hle => h e he (.inl hle)) fun _ t ht => ?_
  obtain ⟨hcore, hk⟩ := ht
  have hlog : (t.can n).log = (s.can n).log := (congrArg CanSt.log hcore).trans rfl
  have hcd2 : (t.can n).cd2 = (s.can n).cd2 := (congrArg CanSt.cd2 hcore).trans rfl
  obtain ⟨_, u, hd, hu, hk'⟩ := readNet_unused n (s := t) fun e he hle =>
    (h e (hlog ▸ he) (.inr (hcd2 ▸ hle))).of_keeps n (by simp) hk
  have hpage : BUS.RX_STAT n / 65536 = 20 := BUS.RX_STAT_page n
  have hreads := (hk.reads (by simpa only [List.mem_singleton, forall_eq, hpage] using by decide)).2
  rw [hcore, hreads] at hu
  exact .ofDoes hd ⟨hu, (hk.trans hk').mono (by simp) (by simp)⟩

/-! ## Frames received -/

section
variable {n} {f : CanFrame} (sof : Nat) {s : State}

/-- The log of a controller that has taken a frame: what it had, and the frame. -/
theorem FrameLogged.mem_log {tx : Bool} {time : Nat} {t : State} (h : FrameLogged n f tx time s t) {e : LogEntry} (he : e ∈ (t.can n).log) :
    e ∈ (s.can n).log ∨ e = ⟨(s.can n).next, time, f, tx, (s.can n).dropped, (s.can n).unit * 64⟩ := by
  have hlog : (t.can n).log = ((s.can n).logged f tx time).log := (congrArg CanSt.log h.core).trans rfl
  rw [hlog] at he
  exact (List.mem_append.mp he).imp (trimLog_subset _ _ e) List.mem_singleton.mp

variable (ha : s.awake = true) (hp : s.present 9 = true) (ht : s.canTakes n f = true)
include ha hp ht

/-- CAN_FRAME_RECEIVED with room: the entry stands, whatever its readers do with it (R440, R444). -/
theorem canReceived_logs (hroom : s.logRoom n f) : (canReceived n f sof).Ends s fun _ t =>
    (t.can n).next = (s.can n).next + 1 ∧
      (t.can n).log.getLast? = some ⟨(s.can n).next, s.netTime - sof, f, false, (s.can n).dropped, (s.can n).unit * 64⟩ ∧
      (t.can n).dropped = 0 ∧ t.f (BUS.RX_HEAD.RXSEQ n) = (s.can n).next % 4294967296 ∧
      t.f (BUS.RX_STAT.LOST n) = s.f (BUS.RX_STAT.LOST n) := by
  have hreaders : (do
      readSafe n
      readNet n : M Unit).Along (Heard n) := (Heard.ongoing n).bind (readSafe_heard n n) fun _ => readNet_heard n n
  refine .read <| .ite_pos ⟨ha, hp, ht⟩ <| .seq (logFrame_logs n f false _ hroom) fun _ u hu => .ofAlong hreaders fun _ t hheard => ?_
  have hulog : (u.can n).log = ((s.can n).logged f false (s.netTime - sof)).log := (congrArg CanSt.log hu.core).trans rfl
  refine ⟨hheard.next.trans ((congrArg CanSt.next hu.core).trans rfl), ?_,
    hheard.dropped.trans ((congrArg CanSt.dropped hu.core).trans rfl), hheard.seq.trans hu.seq, hheard.lost.trans hu.lost⟩
  rw [show (t.can n).log = _ from hheard.log.trans hulog]
  exact List.getLast?_concat

/-- A frame under no identifier that the block uses, with no entry waiting, is taken into the log alone (R445). -/
theorem canReceived_unused (hroom : s.logRoom n f)
    (hid : (f.typ = 0 ∧ f.id ≠ s.f BUS.TIME_CFG.REF_ID) ∨ (f.typ = 1 ∧ f.id ≠ s.f SAF.MSG_CFG.CAN_ID) ∨
      (f.typ = 2 ∧ f.id ≠ s.f CMD.CANXL_CFG1.REQ_ID))
    (hread : ∀ e ∈ (s.can n).log, e.rxseq < (s.can n).cd0 ∧ e.rxseq < (s.can n).cd2) : (canReceived n f sof).Ends s fun _ t =>
    (t.can n).tx = (s.can n).tx ∧ (s.cd2Reads = true → (t.can n).cd2 = (s.can n).next + 1) ∧
      Keeps [BUS.RX_HEAD n, BUS.RX_STAT n, BUS.WIN n] [] s t := by
  refine .read <| .ite_pos ⟨ha, hp, ht⟩ <| .seq (logFrame_logs n f false _ hroom) fun _ u hu => ?_
  have hunused : ∀ e ∈ (u.can n).log, (u.can n).cd0 ≤ e.rxseq ∨ (u.can n).cd2 ≤ e.rxseq → u.unused e := fun e he hle => by
    refine State.unused.of_keeps n (List.Subset.refl _) hu.keeps ?_
    rcases hu.mem_log he with hold | rfl
    · obtain ⟨h0, h2⟩ := hread e hold
      have hcd0 : (u.can n).cd0 = (s.can n).cd0 := (congrArg CanSt.cd0 hu.core).trans rfl
      have hcd2 : (u.can n).cd2 = (s.can n).cd2 := (congrArg CanSt.cd2 hu.core).trans rfl
      omega
    · refine .inr ?_
      rcases hid with ⟨htyp, hne⟩ | ⟨htyp, hne⟩ | ⟨htyp, hne⟩ <;> simp [htyp, hne]
  obtain ⟨_, t, hd, hcore, hk⟩ := readers_unused n hunused
  have hreads := hu.keeps.reads fun a ha => ?_
  · refine .ofDoes hd ⟨?_, fun h2 => ?_, (hu.keeps.trans hk).mono (by simp) (by simp)⟩
    · exact ((congrArg CanSt.tx hcore).trans rfl).trans ((congrArg CanSt.tx hu.core).trans rfl)
    · have hcd2 : (t.can n).cd2 = if u.cd2Reads then (u.can n).next else (u.can n).cd2 := (congrArg CanSt.cd2 hcore).trans rfl
      rw [hcd2, hreads.2, h2]
      exact (congrArg CanSt.next hu.core).trans rfl
  · have hpages : a / 65536 = 20 := by
      simp only [List.mem_cons, List.not_mem_nil, or_false] at ha
      rcases ha with rfl | rfl | rfl
      · exact BUS.RX_HEAD_page n
      · exact BUS.RX_STAT_page n
      · exact BUS.WIN_page n
    omega

/-- CAN_FRAME_RECEIVED without room and without a reader (R443). -/
theorem canReceived_drops (hreads : s.cd0Reads = false ∧ s.cd2Reads = false)
    (hfull : 1024 ≤ ((s.can n).log.filter (s.logHeld n)).length ∨ 4096 < s.heldUnits n + (f.data.length + 63) / 64) :
    (canReceived n f sof).Ends s fun _ t => FrameDropped n s t := by
  refine .read <| .ite_pos ⟨ha, hp, ht⟩ <| .seq (logFrame_drops n f false _ hfull) fun _ u hu => ?_
  have h0 : ¬ u.cd0Reads = true := by rw [hu.reads.1, hreads.1]; decide
  have h2 : ¬ u.cd2Reads = true := by rw [hu.reads.2, hreads.2]; decide
  exact .bind (show (readSafe n).Does u () u from .read <| .ite_neg h0 (M.does_pure () u)) <|
    .ofDoes (show (readNet n).Does u () u from .read <| .ite_neg h2 (M.does_pure () u)) hu

end

end

end Sys2Proof.Machine
end

section
/-! SUPPORT for O54: frames sent (R448). -/

namespace Sys2Proof.Machine

theorem QUEUED_real : ∀ n : Fin 4, (BUS.TX_STAT.QUEUED n).Real := by decide

theorem TX_STAT_apart_log : ∀ n : Fin 4, BUS.TX_STAT n ∉ [BUS.RX_HEAD n, BUS.RX_STAT n, BUS.WIN n] ∧
    ∀ a ∈ [BUS.CTRL n, BUS.RX_SEL n], a ≠ BUS.TX_STAT n := by decide

theorem log_page (n : Fin 4) : ∀ a ∈ [BUS.TX_STAT n, BUS.RX_HEAD n, BUS.RX_STAT n, BUS.WIN n], a / 65536 = 20 := by
  revert n
  decide

section
variable (n : Fin 4)

/-- A new queue. -/
structure QueueSet (l : List TxFrame) (s t : State) : Prop where
  core : t.core n = { s.core n with tx := l }
  queued : t.f (BUS.TX_STAT.QUEUED n) = l.length % 64
  keeps : Keeps [BUS.TX_STAT n] [] s t

theorem setQueue_sets (l : List TxFrame) (s : State) : (setQueue n l).Ends s fun _ t => QueueSet n l s t := by
  have hcore : ((updCan n fun c => { c with tx := l }).run s).core n = { s.core n with tx := l } :=
    (congrArg CanSt.core (can_updCan n _ s)).trans rfl
  have hkeeps : Keeps [] [] s ((updCan n fun c => { c with tx := l }).run s) := (updCan_keeps [] [] n _).run s
  refine .bind (does_updCan n _ s) ?_
  generalize (updCan n fun c => { c with tx := l }).run s = u at *
  obtain ⟨_, t, hd, ⟨⟨hset, -⟩, hcore'⟩, hk⟩ := ((wf_sets (QUEUED_real n) l.length u).along
    (.ofFixes (core_wf n _ _) fun _ _ h => h)).along (.keepsWf (as := [BUS.TX_STAT n]) [] _ (List.mem_singleton.mpr rfl))
  exact .ofDoes hd ⟨hcore'.trans hcore, hset, (hkeeps.trans hk).mono (by simp) (by simp)⟩

/-- A queue without expired frames stays (R448). -/
theorem dropExpired_none {s : State} (h : ∀ x ∈ (s.can n).tx, s.hid.now < x.born + x.life) : (dropExpired n).Does s () s := by
  have hkeep : (s.can n).tx.filter (fun t => decide (s.hid.now < t.born + t.life)) = (s.can n).tx :=
    List.filter_eq_self.mpr fun x hx => decide_eq_true (h x hx)
  exact .read <| .ite_neg (fun hc => hc.1 (congrArg List.length hkeep)) (M.does_pure () s)

/-- Room in the log does not hang on the queue. -/
theorem QueueSet.logRoom {l : List TxFrame} {s t : State} {f : CanFrame} (h : QueueSet n l s t) (hr : s.logRoom n f) : t.logRoom n f := by
  obtain ⟨-, hword⟩ := TX_STAT_apart_log n
  have hlog : (t.can n).log = (s.can n).log := (congrArg CanSt.log h.core).trans rfl
  have hcd0 : (t.can n).cd0 = (s.can n).cd0 := (congrArg CanSt.cd0 h.core).trans rfl
  have hcd2 : (t.can n).cd2 = (s.can n).cd2 := (congrArg CanSt.cd2 h.core).trans rfl
  have hctrl := h.keeps.rd (BUS.CTRL n) (fun hin => hword _ (by simp) (List.mem_singleton.mp hin)) List.not_mem_nil
  have hsel := h.keeps.rd (BUS.RX_SEL n) (fun hin => hword _ (by simp) (List.mem_singleton.mp hin)) List.not_mem_nil
  have hheld : t.logHeld n = s.logHeld n := funext fun e => by
    simp only [State.logHeld, hcd0, hcd2, hsel, f_of_rd_eq (BUS.CTRL.HOST_HOLD n) hctrl]
  simpa only [State.logRoom, State.heldUnits, hlog, hheld] using hr

/-- CAN_FRAME_TRANSMITTED of the head of a queue (R448). -/
theorem canTransmitted_logs (sof : Nat) {s : State} {u : TxFrame}
    (hon : s.f (BUS.CTRL.EN n) = 1 ∧ s.f (BUS.CTRL.MODE n) = 0 ∧ s.f (BUS.STAT.STATE n) < 2)
    (hfresh : ∀ x ∈ (s.can n).tx, s.hid.now < x.born + x.life) (hhead : (s.can n).tx.head? = some u)
    (hread : ∀ e ∈ (s.can n).log, e.rxseq < (s.can n).cd0 ∧ e.rxseq < (s.can n).cd2) (hroom : s.logRoom n u.frame) :
    (canTransmitted n sof).Ends s fun _ t =>
      (t.can n).tx = (s.can n).tx.tail ∧ t.f (BUS.TX_STAT.QUEUED n) = (s.can n).tx.tail.length % 64 ∧
       (t.can n).log.getLast? = some ⟨(s.can n).next, s.netTime - sof, u.frame, true, (s.can n).dropped, (s.can
         n).unit * 64⟩ ∧ (s.cd0Reads = true → (t.can n).cd0 = (t.can n).next) ∧
       Keeps [BUS.TX_STAT n, BUS.RX_HEAD n, BUS.RX_STAT n, BUS.WIN n] [] s t := by
  obtain ⟨r, hr⟩ := List.head?_eq_some_iff.mp hhead
  have hsent : (transmitHead n sof).Ends s fun _ t => ∃ v, QueueSet n r s v ∧ FrameLogged n u.frame true (s.netTime - sof) v t := by
    refine .bind (dropExpired_none n hfresh) <| .read <| .ite_pos hon ?_
    rw [hr]
    exact .seq (setQueue_sets n r s) fun _ v hv => .seq (logFrame_logs n u.frame true _ (hv.logRoom n hroom)) fun _ t ht =>
      .ofDoes (M.does_pure () t) ⟨v, hv, ht⟩
  refine .seq hsent fun _ w hw => ?_
  obtain ⟨v, hv, hw⟩ := hw
  have hvcan : ∀ {β : Type} (φ : CanSt → β), φ (v.core n) = φ { s.core n with tx := r } := fun φ => congrArg φ hv.core
  have hunused : ∀ e ∈ (w.can n).log, (w.can n).cd0 ≤ e.rxseq ∨ (w.can n).cd2 ≤ e.rxseq → w.unused e := fun e he hle => by
    rcases hw.mem_log he with hold | rfl
    · obtain ⟨h0, h2⟩ := hread e ((hvcan CanSt.log) ▸ hold)
      have hcd0 : (w.can n).cd0 = (s.can n).cd0 := ((congrArg CanSt.cd0 hw.core).trans rfl).trans (hvcan CanSt.cd0)
      have hcd2 : (w.can n).cd2 = (s.can n).cd2 := ((congrArg CanSt.cd2 hw.core).trans rfl).trans (hvcan CanSt.cd2)
      omega
    · exact .inl rfl
  obtain ⟨_, t, hd, hcore, hk⟩ := readers_unused n hunused
  have hwlog : (w.can n).log = ((v.can n).logged u.frame true (s.netTime - sof)).log := (congrArg CanSt.log hw.core).trans rfl
  have hwnext : (w.can n).next = (s.can n).next + 1 := ((congrArg CanSt.next hw.core).trans rfl).trans (congrArg (· + 1) (hvcan CanSt.next))
  have htcd0 : (t.can n).cd0 = if w.cd0Reads then (w.can n).next else (w.can n).cd0 := (congrArg CanSt.cd0 hcore).trans rfl
  have hreads : w.cd0Reads = s.cd0Reads := ((hv.keeps.trans hw.keeps).reads fun a ha => by
    have hpage : a / 65536 = 20 := log_page n a (by simpa using ha)
    omega).1
  have hqueued : t.f (BUS.TX_STAT.QUEUED n) = v.f (BUS.TX_STAT.QUEUED n) := f_of_rd_eq (BUS.TX_STAT.QUEUED n) <|
    (hw.keeps.trans hk).rd _ (fun hin => (TX_STAT_apart_log n).1 (by simp at hin ⊢; tauto)) (by simp)
  rw [hr, List.tail_cons]
  refine .ofDoes hd ⟨?_, hqueued.trans hv.queued, ?_, fun h0 => ?_, ((hv.keeps.trans hw.keeps).trans hk).mono (by simp) (by simp)⟩
  · exact ((congrArg CanSt.tx hcore).trans rfl).trans (((congrArg CanSt.tx hw.core).trans rfl).trans (hvcan CanSt.tx))
  · rw [show (t.can n).log = _ from ((congrArg CanSt.log hcore).trans rfl).trans hwlog]
    refine List.getLast?_concat.trans (congrArg some ?_)
    rw [show (v.can n).next = (s.can n).next from hvcan CanSt.next, show (v.can n).dropped = (s.can n).dropped from hvcan CanSt.dropped,
      show (v.can n).unit = (s.can n).unit from hvcan CanSt.unit]
  · rw [htcd0, hreads, h0]
    exact ((congrArg CanSt.next hcore).trans rfl).symm

end

end Sys2Proof.Machine
end

section
/-! SUPPORT for O54: what the error states of a controller leave along events and the reaction to an occurrence. -/

namespace Sys2Proof.Machine

theorem Reactive.and {ρ σ : State → State → Prop} (h : Reactive ρ) (h' : Reactive σ) : Reactive fun s t => ρ s t ∧ σ s t where
  ongoing := ⟨fun s => ⟨h.ongoing.refl s, h'.ongoing.refl s⟩, fun a b => ⟨h.ongoing.trans a.1 b.1, h'.ongoing.trans a.2 b.2⟩⟩
  places s t hs := ⟨h.places s t hs, h'.places s t hs⟩
  event op page inst scope body := (h.event op page inst scope body).and (h'.event op page inst scope body)
  attn := h.attn.and h'.attn

/-- What sending does not move of the networks' state, the reaction to an occurrence does not reach either. -/
theorem reactive_queueless {β : Type} {φ : BusSt → β} (h : Queueless φ) : Reactive fun s t => φ t.hid.bus = φ s.hid.bus where
  ongoing := ⟨fun _ => rfl, fun h h' => h'.trans h⟩
  places _ _ hs := congrArg φ (hs.hid (by decide) 47 (by decide))
  event op page inst scope body := .ofFixes (h.event op page inst scope body) fun _ _ h => h
  attn := .ofFixes (setAttn_bus φ) fun _ _ h => h

/-- A leg of safe communication enters or leaves service. -/
theorem Reactive.setLegState {ρ : State → State → Prop} (h : Reactive ρ) (l : Nat) (up : Bool) (cause : Nat) :
    (setLegState l up cause).Along ρ := by
  have k := h.ongoing
  have hend : (do
      updLeg l fun r => { r with paired := 0 }
      let s ← getS
      wf SAF.STATUS.DEGRADED (b2n (s.f SAF.MSG_CFG.EN == 1 && (s.legIn 0 != s.legIn 1)))
      eventDev 0x8037 (by1 [l, b2n up] ++ leBytes 2 cause)).Along ρ := k.bind (h.within (foot_updLeg _ _) (by decide)) fun _ =>
    .read fun _ => k.bind (h.saf _ (by decide)) fun _ => h.event _ _ _ _ _
  exact .read fun _ => k.when <| .ite (k.bind (h.saf _ (by decide)) fun _ => hend) (k.bind (h.saf _ (by decide)) fun _ => hend)

/-! ## A transmit queue to which no event goes -/

theorem ROUTE_CANXL_apart : CMD.EVENT_CFG.ROUTE_CANXL.Apart CMD.EVENT_CFG.LOST := by decide

/-- Where events do not go over CAN XL, they go on not to go there, and the queue stands. -/
def QueueHeld (n : Nat) (s t : State) : Prop :=
  s.f CMD.EVENT_CFG.ROUTE_CANXL = 0 → t.f CMD.EVENT_CFG.ROUTE_CANXL = 0 ∧ (t.can n).tx = (s.can n).tx

/-- The route over CAN XL and a transmit queue. -/
def State.routed (n : Nat) (s : State) : Nat × List TxFrame := (s.f CMD.EVENT_CFG.ROUTE_CANXL, (s.can n).tx)

theorem QueueHeld.of_routed {n : Nat} {s t : State} (h : t.routed n = s.routed n) : QueueHeld n s t := fun h0 =>
  ⟨(Prod.ext_iff.mp h).1.trans h0, (Prod.ext_iff.mp h).2⟩

theorem QueueHeld.ongoing (n : Nat) : Ongoing (QueueHeld n) :=
  ⟨fun _ => .of_routed rfl, fun h h' h0 => ⟨(h' (h h0).1).1, (h' (h h0).1).2.trans (h h0).2⟩⟩

section
variable (n : Nat)

theorem Same.routed {P : List Nat} {s t : State} (h : Same P s t) (hn : 99 ∉ P ∧ 1 ∉ P ∧ 47 ∉ P) : t.routed n = s.routed n :=
  Prod.ext (h.f hn.1 hn.2.1) (congrArg (fun b : BusSt => (mget ({} : CanSt) b.can n).tx) (h.hid hn.1 47 hn.2.2))

theorem routedIn {α : Type} {P : List Nat} {m : M α} (h : m.In P) (hn : 99 ∉ P ∧ 1 ∉ P ∧ 47 ∉ P) : m.Fixes (State.routed n) :=
  .ofIn h fun _ _ hs => hs.routed n hn

theorem routedWf {x : FldAt} (v : Nat) (h : CMD.EVENT_CFG.ROUTE_CANXL.Apart x) : (wf x v).Fixes (State.routed n) :=
  .prod (.wfApart h v) (.busWf (fun b => (mget ({} : CanSt) b.can n).tx) x v)

theorem eventLost_routed (route : Nat) : (eventLost route).Fixes (State.routed n) :=
  .bind (.read fun _ => .when (routedWf n _ ROUTE_CANXL_apart)) fun _ => .act fun _ => rfl

theorem eventPacket_routed (route op page inst scope : Nat) (body : List Byte) :
    (eventPacket route op page inst scope body).Fixes (State.routed n) := .read fun _ => .pure _

theorem eventSpi_routed (op page inst scope : Nat) (body : List Byte) : (eventSpi op page inst scope body).Fixes (State.routed n) :=
  .read fun _ => .ite (.bind (eventPacket_routed n _ _ _ _ _ _) fun _ => .bind (routedIn n (M.In.spiEvent (P := [33]) _ (by decide)) (by decide))
    fun _ => .bind (.act fun _ => rfl) fun _ => .read fun _ => .act fun _ => rfl) (eventLost_routed n 0)

theorem eventUdp_routed (op page inst scope : Nat) (body : List Byte) : (eventUdp op page inst scope body).Fixes (State.routed n) := by
  refine .read fun s => ?_
  dsimp only
  split
  · exact .ite (.bind (eventPacket_routed n _ _ _ _ _ _) fun _ => .bind (.act fun _ => rfl) fun _ => .act fun _ => rfl)
      (eventLost_routed n 2)
  · exact eventLost_routed n 2

theorem reactive_queue : Reactive (QueueHeld n) where
  ongoing := QueueHeld.ongoing n
  places _ _ hs := .of_routed (hs.routed n (by decide))
  event op page inst scope body s := by
    by_cases h0 : s.f CMD.EVENT_CFG.ROUTE_CANXL = 0
    · have hne : ¬ s.f CMD.EVENT_CFG.ROUTE_CANXL = 1 := by omega
      refine .read <| .ofFixes (π := State.routed n) (.when (.thenMore (eventSpi_routed n _ _ _ _ _) fun _ => ?_)) fun _ _ ht => .of_routed ht
      rw [if_neg hne]
      exact .when (eventUdp_routed n _ _ _ _ _)
    · obtain ⟨_, t, hd, -⟩ := foot_event op page inst scope body s
      exact .ofDoes hd fun h => absurd h h0
  attn := .ofFixes (π := State.routed n) (.read fun _ => .act fun _ => rfl) fun _ _ ht => .of_routed ht

end

end Sys2Proof.Machine
end

section
/-! SUPPORT for O54: error states, bus-off and recovery (R449 to R451). -/

namespace Sys2Proof.Machine

theorem BUS_STAT_real : ∀ n : Fin 4, ∀ x ∈ [BUS.STAT.STATE n, BUS.STAT.TEC n, BUS.STAT.REC n, BUS.STAT.REC_HELD n, BUS.STAT.BUS_OFFS n],
    x.Real := by decide

theorem beside_STATE : ∀ n : Fin 4, ∀ x ∈ [BUS.STAT.TEC n, BUS.STAT.REC n, BUS.STAT.BUS_OFFS n], x.Apart (BUS.STAT.STATE n) := by
  decide

theorem beside_REC_HELD : ∀ n : Fin 4, ∀ x ∈ [BUS.STAT.STATE n, BUS.STAT.TEC n, BUS.STAT.REC n, BUS.STAT.BUS_OFFS n],
    x.Apart (BUS.STAT.REC_HELD n) := by decide

theorem beside_REC : ∀ n : Fin 4, ∀ x ∈ [BUS.STAT.STATE n, BUS.STAT.TEC n, BUS.STAT.BUS_OFFS n], x.Apart (BUS.STAT.REC n) := by
  decide

theorem beside_TEC : ∀ n : Fin 4, ∀ x ∈ [BUS.STAT.STATE n, BUS.STAT.BUS_OFFS n], x.Apart (BUS.STAT.TEC n) := by decide

theorem beside_BUS_OFFS : ∀ n : Fin 4, ∀ x ∈ [BUS.STAT.STATE n, BUS.STAT.TEC n, BUS.STAT.REC n], x.Apart (BUS.STAT.BUS_OFFS n) := by
  decide

theorem BUS_STAT_not_sendReg (n : Fin 4) : ¬ SendReg (BUS.STAT n) := CAN_not_sendReg (BUS.STAT_page n) fun m => by
  simp only [BUS.STAT, BUS.TX_STAT, arr, n.isLt, Nat.zero_le, and_self, if_true]
  split <;> omega

/-- Whether a recovery from bus-off was started. -/
def State.recov (n : Nat) (s : State) : Bool := (s.can n).recov

/-- The error state of a controller stands, and so does its queue where no event goes to it. -/
def BusHeld (n : Nat) (s t : State) : Prop :=
  t.rd (BUS.STAT n) = s.rd (BUS.STAT n) ∧ (mget {} t.hid.bus.can n).recov = (mget {} s.hid.bus.can n).recov ∧ QueueHeld n s t

theorem recov_queueless (n : Nat) : Queueless fun b => (mget ({} : CanSt) b.can n).recov where
  out _ _ := rfl
  tx b k l := by
    rcases eq_or_ne n k with rfl | hne
    · simp only [mget_mupd_same]
    · simp only [mget_mupd_other _ _ _ _ _ hne]

section
variable (n : Fin 4)

theorem reactive_bus : Reactive (BusHeld n) :=
  (reactive_networkWord (BUS.STAT_page n) (BUS_STAT_not_sendReg n)).and ((reactive_queueless (recov_queueless n)).and (reactive_queue n))

theorem busEvent_along {ρ : State → State → Prop} (h : Reactive ρ) (n old new : Nat) : (busEvent n old new).Along ρ :=
  .read fun _ => h.event _ _ _ _ _

theorem busEvent_keeps (n old new : Nat) : (busEvent n old new).Along (Keeps [] eventPages) := .read fun _ => eventDev_keeps _ _ _

/-- A change of the state of a controller. -/
structure StateSet (new : Nat) (s t : State) : Prop where
  state : t.f (BUS.STAT.STATE n) = new
  rest : ∀ x ∈ [BUS.STAT.TEC n, BUS.STAT.REC n, BUS.STAT.BUS_OFFS n], t.f x = s.f x
  recov : t.recov n = s.recov n
  queue : QueueHeld n s t
  places : Same [1, 20, 33, 43, 47] s t
  keeps : Keeps [] eventPages s t

theorem setBusState_sets {new : Nat} (hnew : new < 4) (s : State) : (setBusState n new).Ends s fun _ t => StateSet n new s t := by
  have hpage : (BUS.STAT.STATE n).addr / 65536 = 20 := BUS.STAT_page n
  have hwf : (wf (BUS.STAT.STATE n) new).In [20] := M.In.wf 20 _ _ hpage (by decide)
  have hroute : (wf (BUS.STAT.STATE n) new).Fixes (State.routed n) := routedIn n hwf (by decide)
  refine .bind (M.does_rf _ s) ?_
  by_cases hne : s.f (BUS.STAT.STATE n) ≠ new
  · refine .ite_pos hne ?_
    obtain ⟨_, u, hd, ⟨⟨hset, hhid, hrest, -⟩, hu⟩, hk⟩ := ((wf_sets (BUS_STAT_real n (BUS.STAT.STATE n) (by simp)) new s).along
      ((M.Along.ofIn hwf fun _ _ h => h).and (.ofFixes hroute fun _ _ h => h))).along (.keepsPage (ps := eventPages) [] new (by rw [hpage]; decide))
    obtain ⟨_, t, hd', ⟨hword, hrecov, hqueue⟩, hs, hk'⟩ := (busEvent_along (reactive_bus n) n _ new).and
      ((M.Along.ofIn (foot_busEvent n _ new) fun _ _ h => h).and (busEvent_keeps n (s.f (BUS.STAT.STATE n)) new)) u
    refine .bind hd <| .ofDoes hd' ⟨(f_of_rd_eq (BUS.STAT.STATE n) hword).trans (hset.trans (Nat.mod_eq_of_lt hnew)), fun x hx => ?_, ?_,
      (QueueHeld.ongoing n).trans (.of_routed hu.2) hqueue, (hu.1.mono (by decide)).trans hs, (Keeps.ongoing _ _).trans hk hk'⟩
    · exact (f_of_rd_eq x (by rw [show x.addr = BUS.STAT n from by simp at hx; rcases hx with rfl | rfl | rfl <;> rfl]; exact hword)).trans
        (hrest x (beside_STATE n x hx))
    · exact hrecov.trans (congrArg (fun y : Hidden => (mget ({} : CanSt) y.bus.can n).recov) hhid)
  · exact .ite_neg hne <| .ofDoes (M.does_pure () s) ⟨not_not.mp hne, fun _ _ => rfl, rfl, .of_routed rfl, .refl _ s,
      (Keeps.ongoing _ _).refl s⟩

/-- The error counters of a controller are written, and nothing else of it. -/
structure CountersSet (tec re : Nat) (s t : State) : Prop where
  tec : t.f (BUS.STAT.TEC n) = tec
  re : t.f (BUS.STAT.REC n) = re
  rest : ∀ x ∈ [BUS.STAT.STATE n, BUS.STAT.BUS_OFFS n], t.f x = s.f x
  hid : t.hid = s.hid
  places : Same [20] s t
  keeps : Keeps [] eventPages s t

/-- The counters first, and then as much as is known from there. -/
theorem counters_then {tec re : Nat} (htec : tec < 256) (hre : re < 256) {k : M Unit} {s : State} {P : Unit → State → Prop}
    (h : ∀ t, CountersSet n tec re s t → k.Ends t P) : (do
      wf (BUS.STAT.TEC n) tec
      wf (BUS.STAT.REC n) re
      k : M Unit).Ends s P := by
  have hpage : BUS.STAT n / 65536 = 20 := BUS.STAT_page n
  have hin : ∀ x : FldAt, x.addr = BUS.STAT n → ∀ v, (wf x v).Along fun s t => Same [20] s t ∧ Keeps [] eventPages s t := fun x hx v =>
    (M.Along.ofIn (M.In.wf 20 x v (by rw [hx, hpage]) (by decide)) fun _ _ h => h).and (.keepsPage [] v (by rw [hx, hpage]; decide))
  refine .seq ((wf_sets (BUS_STAT_real n (BUS.STAT.TEC n) (by simp)) tec s).along (hin _ rfl tec)) fun _ u hu => ?_
  obtain ⟨⟨htec', hhid, hrest, -⟩, hs, hk⟩ := hu
  refine .seq ((wf_sets (BUS_STAT_real n (BUS.STAT.REC n) (by simp)) re u).along (hin _ rfl re)) fun _ t ht => h t ?_
  obtain ⟨⟨hre', hhid', hrest', -⟩, hs', hk'⟩ := ht
  refine ⟨((hrest' _ (beside_REC n _ (by simp))).trans htec').trans (Nat.mod_eq_of_lt htec), hre'.trans (Nat.mod_eq_of_lt hre), fun x hx => ?_,
    hhid'.trans hhid, hs.trans hs', (Keeps.ongoing _ _).trans hk hk'⟩
  have hx' : x ∈ [BUS.STAT.STATE n, BUS.STAT.TEC n, BUS.STAT.BUS_OFFS n] := by
    simp only [List.mem_cons, List.not_mem_nil, or_false] at hx ⊢
    tauto
  exact (hrest' x (beside_REC n x hx')).trans (hrest x (beside_TEC n x hx))

/-- BUS_STATE (R449). -/
theorem busState_shows (passive : Bool) (tec re : BitVec 8) {s : State} (h : s.f (BUS.STAT.STATE n) < 2) :
    (busState n passive tec.toNat re.toNat).Ends s fun _ t =>
      t.f (BUS.STAT.STATE n) = b2n passive ∧ t.f (BUS.STAT.TEC n) = tec.toNat ∧ t.f (BUS.STAT.REC n) = re.toNat ∧
       t.f (BUS.STAT.BUS_OFFS n) = s.f (BUS.STAT.BUS_OFFS n) ∧ Keeps [] eventPages s t := by
  refine .read <| .ite_pos h <| counters_then n tec.isLt re.isLt fun u hu => ?_
  obtain ⟨_, t, hd, ht⟩ := setBusState_sets n (new := b2n passive) (by cases passive <;> decide) u
  exact .ofDoes hd ⟨ht.state, (ht.rest _ (by simp)).trans hu.tec, (ht.rest _ (by simp)).trans hu.re,
    (ht.rest _ (by simp)).trans (hu.rest _ (by simp)), (Keeps.ongoing _ _).trans hu.keeps ht.keeps⟩

/-- A controller that is bus-off, before the ledger judges it. -/
structure OffShown (re : Nat) (s t : State) : Prop where
  state : t.f (BUS.STAT.STATE n) = 2
  tec : t.f (BUS.STAT.TEC n) = 255
  re : t.f (BUS.STAT.REC n) = re
  count : Bumped (BUS.STAT.BUS_OFFS n) s t
  recov : t.recov n = false
  queue : QueueHeld n s t

theorem OffShown.held {re : Nat} {s t u : State} (h : OffShown n re s t) (h' : BusHeld n t u) : OffShown n re s u := by
  obtain ⟨hword, hrecov, hqueue⟩ := h'
  exact ⟨(f_of_rd_eq (BUS.STAT.STATE n) hword).trans h.state, (f_of_rd_eq (BUS.STAT.TEC n) hword).trans h.tec,
    (f_of_rd_eq (BUS.STAT.REC n) hword).trans h.re, h.count.congr rfl (f_of_rd_eq (BUS.STAT.BUS_OFFS n) hword), hrecov.trans h.recov,
    (QueueHeld.ongoing n).trans h.queue hqueue⟩

/-- The count of a bus-off, and nothing else. -/
theorem busOffs_counts (s : State) : (inc (BUS.STAT.BUS_OFFS n)).Ends s fun _ t =>
    Bumped (BUS.STAT.BUS_OFFS n) s t ∧ (∀ x ∈ [BUS.STAT.STATE n, BUS.STAT.TEC n, BUS.STAT.REC n], t.f x = s.f x) ∧
      Same [20] s t ∧ Keeps [] eventPages s t := by
  have hpage : (BUS.STAT.BUS_OFFS n).addr / 65536 = 20 := BUS.STAT_page n
  have hin : (inc (BUS.STAT.BUS_OFFS n)).In [20] := M.In.inc 20 _ hpage (by decide)
  have hk : (inc (BUS.STAT.BUS_OFFS n)).Along (Keeps [] eventPages) := .keepsPageInc [] (by rw [hpage]; decide)
  exact .ofDoes (hin.does s) ⟨(BUS_STAT_real n _ (by simp)).bumped s,
    fun x hx => (M.Fixes.incApart (beside_BUS_OFFS n x hx)).run s, hin.run s, hk.run s⟩

theorem recov_updCan (b : Bool) (s : State) : (updCan n fun c => { c with recov := b }).Ends s fun _ t =>
    t.recov n = b ∧ (∀ a, t.rd a = s.rd a) ∧ t.routed n = s.routed n ∧ Same [47] s t ∧ Keeps [] eventPages s t := by
  have hcan := can_updCan n (fun c => { c with recov := b }) s
  exact .ofDoes (does_updCan n _ s) ⟨congrArg CanSt.recov hcan, fun _ => rfl, Prod.ext rfl ((congrArg CanSt.tx hcan).trans rfl),
    (M.In.hid_bus (P := [47]) _ (by decide)).run s, (updCan_keeps [] _ n _).run s⟩

/-- Bus-off is shown first, and then as much is known as is known from there. -/
theorem busOff_then {re : Nat} (hre : re < 256) {k : M Unit} {s : State} {P : Unit → State → Prop}
    (h : ∀ t, OffShown n re s t → t.occurShown (200 + n) = s.occurShown (200 + n) → Keeps [] eventPages s t → k.Ends t P) : (do
      wf (BUS.STAT.TEC n) 255
      wf (BUS.STAT.REC n) re
      inc (BUS.STAT.BUS_OFFS n)
      updCan n fun c => { c with recov := false }
      setBusState n 2
      k : M Unit).Ends s P := by
  have kk := Keeps.ongoing [] eventPages
  refine counters_then n (by decide) hre fun u hu => .seq (busOffs_counts n u) fun _ v hv => .seq (recov_updCan n false v) fun _ w hw =>
    .seq (setBusState_sets n (new := 2) (by decide) w) fun _ t ht => ?_
  obtain ⟨hcount, hrest, hsv, hkv⟩ := hv
  obtain ⟨hrecov, hrd, hroute, hsw, hkw⟩ := hw
  have hroute' : w.routed n = s.routed n :=
    (hroute.trans (hsv.routed n (by decide))).trans (hu.places.routed n (by decide))
  have hword : ∀ x : FldAt, w.f x = v.f x := fun x => f_of_rd_eq x (hrd _)
  have hshown : t.occurShown (200 + n) = s.occurShown (200 + n) := (ht.places.shown _ (by decide) (by decide)).trans <|
    (hsw.shown _ (by decide) (by decide)).trans <| (hsv.shown _ (by decide) (by decide)).trans (hu.places.shown _ (by decide) (by decide))
  refine h t ⟨ht.state, ?_, ?_, ?_, ht.recov.trans hrecov, (QueueHeld.ongoing n).trans (.of_routed hroute') ht.queue⟩ hshown
    (kk.trans (kk.trans (kk.trans hu.keeps hkv) hkw) ht.keeps)
  · rw [ht.rest _ (by simp), hword, hrest _ (by simp), hu.tec]
  · rw [ht.rest _ (by simp), hword, hrest _ (by simp), hu.re]
  · exact hcount.congr (hu.rest _ (by simp)) ((ht.rest _ (by simp)).trans (hword _))

theorem setLegState_beyond (l : Nat) (up : Bool) (cause : Nat) : (setLegState l up cause).Fixes State.beyond := by
  have hend : (do
      updLeg l fun r => { r with paired := 0 }
      let s ← getS
      wf SAF.STATUS.DEGRADED (b2n (s.f SAF.MSG_CFG.EN == 1 && (s.legIn 0 != s.legIn 1)))
      eventDev 0x8037 (by1 [l, b2n up] ++ leBytes 2 cause)).Fixes State.beyond :=
    .bind (hid_beyond _) fun _ => .read fun _ => .bind (wf_beyond _ _) fun _ => (event_link ..).bare.beyondOfBare
  exact .read fun _ => .when <| .ite (.bind (wf_beyond _ _) fun _ => hend) (.bind (wf_beyond _ _) fun _ => hend)

/-- A controller that is bus-off, and the occurrence of it. -/
structure OffJudged (re : Nat) (s t : State) : Prop where
  shown : OffShown n re s t
  counted : Counted (200 + n) 0 s t
  keeps : Keeps [] ledgerPages s t

theorem OffJudged.marked {re : Nat} {s t : State} (h : OffJudged n re s t) :
    (wf (BUS.STAT.REC_HELD n) 1).Ends t fun _ u => OffJudged n re s u := by
  have hpage : (BUS.STAT.REC_HELD n).addr / 65536 = 20 := BUS.STAT_page n
  have hin : (wf (BUS.STAT.REC_HELD n) 1).In [20] := M.In.wf 20 _ _ hpage (by decide)
  obtain ⟨_, u, hd, ⟨-, hhid, hrest, -⟩, hs, hk⟩ := (wf_sets (BUS_STAT_real n (BUS.STAT.REC_HELD n) (by simp)) 1 t).along
    ((M.Along.ofIn hin fun _ _ h => h).and (.keepsPage (ps := ledgerPages) [] 1 (by rw [hpage]; decide)))
  have hf := fun x hx => hrest x (beside_REC_HELD n x hx)
  obtain ⟨⟨hstate, htec, hre, hcount, hrecov, hqueue⟩, hcounted, hkeeps⟩ := h
  exact .ofDoes hd ⟨⟨(hf _ (by simp)).trans hstate, (hf _ (by simp)).trans htec, (hf _ (by simp)).trans hre,
    hcount.congr rfl (hf _ (by simp)), (congrArg (fun y : Hidden => (mget ({} : CanSt) y.bus.can n).recov) hhid).trans hrecov,
    (QueueHeld.ongoing n).trans hqueue (.of_routed (hs.routed n (by decide)))⟩,
    hcounted.then_shown (hs.shown _ (by decide) (by decide)), (Keeps.ongoing _ _).trans hkeeps hk⟩

theorem OffJudged.told {re : Nat} {s t : State} (h : OffJudged n re s t) (cause : Nat) :
    (setLegState 0 false cause).Ends t fun _ u => OffJudged n re s u := by
  obtain ⟨_, u, hd, hheld, hs, hk⟩ := ((reactive_bus n).setLegState 0 false cause).and ((M.Along.ofIn (foot_setLegState 0 false cause)
    fun _ _ h => h).and (.keepsIn (ps := ledgerPages) [] (foot_setLegState _ _ _) (setLegState_beyond _ _ _) (by decide) (by decide))) t
  exact .ofDoes hd ⟨h.shown.held n hheld, h.counted.then_shown (hs.shown _ (by decide) (by decide)), (Keeps.ongoing _ _).trans h.keeps hk⟩

/-- BUS_OFF (R450). -/
theorem busOff_shows (re : BitVec 8) {s : State} (h : s.f (BUS.STAT.STATE n) < 2) :
    (busOff n re.toNat).Ends s fun _ t => OffJudged n re.toNat s t := by
  refine .read <| .ite_pos h <| busOff_then n re.isLt fun t ht hshown hk => ?_
  have hocc := (occurrence_counted ⟨200 + n, by omega⟩ 0 (BUS.STAT n) t).along (((reactive_bus n).occurrence (200 + n) 0 (BUS.STAT n)).and
    (.keepsIn (ps := ledgerPages) [] (foot_occurrence _ _ _) (occurrence_beyond _ _ _) (by decide) (by decide)))
  refine .seq hocc fun turned u hu => ?_
  obtain ⟨hcounted, hheld, hku⟩ := hu
  have hjudged : OffJudged n re.toNat s u := ⟨ht.held n hheld, hcounted.of_shown hshown, (hk.trans hku).mono (by simp) (by decide)⟩
  exact .thenMore (hjudged.marked n) hjudged fun v hv => .ite (hv.told n _) (.ofDoes (M.does_pure () v) hv)

theorem STAT_ne_TX_STAT : BUS.STAT n ≠ BUS.TX_STAT n := by
  simp only [BUS.STAT, BUS.TX_STAT, arr, n.isLt, Nat.zero_le, and_self, if_true]
  omega

/-- BUS_OFF_RECOVERY (R451). -/
theorem busRecovered_shows {s : State} (h : s.f (BUS.STAT.STATE n) = 2)
    (hmay : (s.f (BUS.CTRL.AUTO_REC n) = 1 ∧ s.f (BUS.STAT.REC_HELD n) = 0) ∨ (s.can n).recov = true) :
    (busRecovered n).Ends s fun _ t =>
      t.f (BUS.STAT.STATE n) = 0 ∧ t.f (BUS.STAT.TEC n) = 0 ∧ t.f (BUS.STAT.REC n) = 0 ∧
       (s.f CMD.EVENT_CFG.ROUTE_CANXL = 0 → (t.can n).tx = (s.can n).tx.filter fun x => decide (s.hid.now < x.born +
         x.life)) ∧ (t.can n).recov = false ∧ Keeps [] eventPages s t := by
  have kk := Keeps.ongoing [] eventPages
  have hpage : BUS.TX_STAT n / 65536 = 20 := BUS.TX_STAT_page n
  have hexpired : ∀ k, (incBy (BUS.TX_STAT.EXPIRED n) k).Along fun t u =>
      (u.rd (BUS.STAT n) = t.rd (BUS.STAT n) ∧ u.recov n = t.recov n) ∧ Keeps [] eventPages t u := fun k =>
    (M.Along.ofFixes (.prod (.read fun _ => .wfRd (x := BUS.TX_STAT.EXPIRED n) _ (STAT_ne_TX_STAT n))
      (.read fun _ => .busWf (fun b => (mget ({} : CanSt) b.can n).recov) _ _)) fun _ _ hu => Prod.ext_iff.mp hu).and
      (M.Along.read fun _ => .keepsPage [] _ (by rw [show (BUS.TX_STAT.EXPIRED n).addr = BUS.TX_STAT n from rfl, hpage]; decide))
  refine .read <| .ite_pos ⟨h, hmay.imp (fun hc => by simp [hc]) id⟩ <| counters_then n (by decide) (by decide) fun u hu =>
    .seq (recov_updCan n false u) fun _ v hv => .seq (setBusState_sets n (new := 0) (by decide) v) fun _ w hw =>
    .seq (.ofAlong (hexpired _) fun _ _ hx => hx) fun _ x hx => ?_
  obtain ⟨_, t, hd, ht⟩ := setQueue_sets n ((s.can n).tx.filter fun y => decide (s.hid.now < y.born + y.life)) x
  obtain ⟨hrecov, hrd, -, -, hkv⟩ := hv
  obtain ⟨⟨hword, hrecov'⟩, hkx⟩ := hx
  have hkt : Keeps [] eventPages x t := ht.keeps.paged (by simpa only [List.mem_singleton, forall_eq, hpage] using by decide) (List.nil_subset _)
  have hf : ∀ y : FldAt, y.addr = BUS.STAT n → t.f y = w.f y := fun y hy => f_of_rd_eq y <| by
    rw [hy]
    exact (ht.keeps.rd _ (fun hin => STAT_ne_TX_STAT n (List.mem_singleton.mp hin)) List.not_mem_nil).trans hword
  refine .ofDoes hd ⟨(hf _ rfl).trans hw.state, ?_, ?_, fun _ => (congrArg CanSt.tx ht.core).trans rfl, ?_,
    kk.trans (kk.trans (kk.trans (kk.trans hu.keeps hkv) hw.keeps) hkx) hkt⟩
  · rw [hf _ rfl, hw.rest _ (by simp), f_of_rd_eq (BUS.STAT.TEC n) (hrd _), hu.tec]
  · rw [hf _ rfl, hw.rest _ (by simp), f_of_rd_eq (BUS.STAT.REC n) (hrd _), hu.re]
  · have hset : (t.can n).recov = x.recov n := (congrArg CanSt.recov ht.core).trans rfl
    rw [hset, hrecov', hw.recov, hrecov]

end

end Sys2Proof.Machine
end

section
/-! SUPPORT for O54: what the host writes to a controller (R442, R446, R451). -/

namespace Sys2Proof.Machine

/-! ## Host writes on the page of the networks -/

/-- What bookkeeping and a reply leave on the page of the networks. -/
structure Answering (s t : State) : Prop where
  sent : Sent s t
  rd : ∀ a, a / 65536 = 20 → ¬ SendReg a → t.rd a = s.rd a
  bus : ∀ {β : Type} {φ : BusSt → β}, Queueless φ → φ t.hid.bus = φ s.hid.bus

theorem Bookkept.network {s t : State} (h : Bookkept s t) : (∀ a, a / 65536 = 20 → t.rd a = s.rd a) ∧ t.hid.bus = s.hid.bus :=
  ⟨fun a ha => h.same.rd (by decide) a (by rw [ha]; decide), h.same.hid (by decide) 47 (by decide)⟩

theorem Bookkept.answering {s t u : State} (h : Bookkept s t) (h' : Replied t u) : Answering s u :=
  ⟨h.sent.trans h'.sent, fun a ha hs => (h'.rd a hs).trans (h.network.1 a ha), fun hq => (h'.bus hq).trans (congrArg _ h.network.2)⟩

theorem Answering.f {s t : State} (h : Answering s t) (x : FldAt) (hx : x.addr / 65536 = 20) (hs : ¬ SendReg x.addr) : t.f x = s.f x :=
  f_of_rd_eq x (h.rd _ hx hs)

theorem log_queueless (n : Nat) : Queueless fun b => (mget ({} : CanSt) b.can n).log where
  out _ _ := rfl
  tx b k l := congrArg Prod.fst ((heard_queueless n).tx b k l)

theorem bitsOf_one (w : Word) (i : Nat) : bitsOf w i i = (w.getLsbD i).toNat := by
  rw [bitsOf, Nat.add_sub_cancel_left, Nat.pow_one, ← BitVec.testBit_toNat, Nat.toNat_testBit]

theorem WIN_not_sendReg (n : Fin 4) : ¬ SendReg (BUS.WIN n) := CAN_not_sendReg (BUS.WIN_page n) fun m => by
  simp only [BUS.WIN, BUS.TX_STAT, arr, n.isLt, Nat.zero_le, and_self, if_true]
  split <;> omega

theorem RX_SEL_not_sendReg (n : Fin 4) : ¬ SendReg (BUS.RX_SEL n) := CAN_not_sendReg (BUS.RX_SEL_page n) fun m => by
  simp only [BUS.RX_SEL, BUS.TX_STAT, arr, n.isLt, Nat.zero_le, and_self, if_true]
  split <;> omega

theorem CTRL_not_sendReg (n : Fin 4) : ¬ SendReg (BUS.CTRL n) := CAN_not_sendReg (BUS.CTRL_page n) fun m => by
  simp only [BUS.CTRL, BUS.TX_STAT, arr, n.isLt, Nat.zero_le, and_self, if_true]
  split <;> omega

/-! ## The entry that the host selects (R446) -/

theorem RX_SEL_plain : ∀ n : Fin 4, ∃ r, PlainWord r (BUS.RX_SEL n) ∧ r.name = .BUS_RX_SEL ∧ r.ix1 (BUS.RX_SEL n) = n ∧
    ∀ v old : Word, storedWord r v old &&& implMask (BUS.RX_SEL n) = v
  | 0 => ⟨_, ⟨rfl, by decide, rfl, by decide, rfl, fun _ => rfl⟩, rfl, rfl, fun v old => whole_after v old⟩
  | 1 => ⟨_, ⟨rfl, by decide, rfl, by decide, rfl, fun _ => rfl⟩, rfl, rfl, fun v old => whole_after v old⟩
  | 2 => ⟨_, ⟨rfl, by decide, rfl, by decide, rfl, fun _ => rfl⟩, rfl, rfl, fun v old => whole_after v old⟩
  | 3 => ⟨_, ⟨rfl, by decide, rfl, by decide, rfl, fun _ => rfl⟩, rfl, rfl, fun v old => whole_after v old⟩

theorem WIN_fields : ∀ n : Fin 4, (BUS.WIN.NEW n).Real ∧ (BUS.WIN.VALID n).Real ∧ (BUS.WIN.NEW n).Apart (BUS.WIN.VALID n) ∧
    BUS.WIN n ≠ BUS.RX_STAT n ∧ BUS.CTRL n ≠ BUS.RX_SEL n ∧ BUS.RX_SEL n ∉ [BUS.WIN n, BUS.RX_STAT n] := by decide

section
variable (n : Fin 4)

/-- The window shows an entry, or that there is none. -/
theorem refill_shows (e : Option LogEntry) (s : State) : (refill n e).Ends s fun _ t =>
    t.f (BUS.WIN.NEW n) = 1 ∧ t.f (BUS.WIN.VALID n) = b2n e.isSome := by
  obtain ⟨hnew, hvalid, hapart, -⟩ := WIN_fields n
  refine .seq (wf_sets hnew 1 s) fun _ t ht => .seq (wf_sets hvalid (b2n e.isSome) t) fun _ u hu => ?_
  have hval : b2n e.isSome % 2 = b2n e.isSome := by cases e <;> rfl
  have hu' : u.f (BUS.WIN.NEW n) = 1 ∧ u.f (BUS.WIN.VALID n) = b2n e.isSome := ⟨(hu.2.2.1 _ hapart).trans ht.1, hu.1.trans hval⟩
  cases e with
  | some x => exact .ofDoes (does_updCan n _ u) hu'
  | none => exact .ofDoes (M.does_pure () u) hu'

theorem rxSelected_core : (rxSelected n).Fixes (State.core n) := .read fun _ => .thenMore (refill_core n _) fun _ => showPool_core n

theorem rxSelected_keeps : (rxSelected n).Along (Keeps [BUS.WIN n, BUS.RX_STAT n] []) :=
  .read fun _ => (Keeps.ongoing _ _).thenMore (refill_keeps n _ (by simp) _) fun _ => showPool_keeps n _ (by simp)

/-- In SELECT mode the window is filled with the entry that is selected (R446). -/
theorem rxSelected_shows {s : State} (h : s.f (BUS.CTRL.WIN_MODE n) = 1) : (rxSelected n).Ends s fun _ t =>
    t.f (BUS.WIN.NEW n) = 1 ∧ t.f (BUS.WIN.VALID n) = b2n ((s.can n).log.any fun e => decide (BitVec.ofNat 32 e.rxseq = s.rd (BUS.RX_SEL n))) := by
  obtain ⟨-, -, -, hne, -⟩ := WIN_fields n
  refine .read <| .ite_pos h <| .seq (refill_shows n _ s) fun _ t ht => .ofAlong (showPool_keeps (as := [BUS.RX_STAT n]) n [] (by simp))
    fun _ u hk => ?_
  have hword : u.rd (BUS.WIN n) = t.rd (BUS.WIN n) := hk.rd _ (fun hin => hne (List.mem_singleton.mp hin)) List.not_mem_nil
  refine ⟨(f_of_rd_eq (BUS.WIN.NEW n) hword).trans ht.1, ((f_of_rd_eq (BUS.WIN.VALID n) hword).trans ht.2).trans (congrArg b2n ?_)⟩
  rw [Bool.eq_iff_iff, List.find?_isSome, List.any_eq_true]

/-- RX_SELECT (R446). -/
theorem rxSelect_selects {s : State} {v : Via} {x : Word} (h : s.accepts v [(BUS.RX_SEL n, x)] = true) :
    let t := (hostWrite v [(BUS.RX_SEL n, x)]).run s
    t.rd (BUS.RX_SEL n) = x ∧
       (s.f (BUS.CTRL.WIN_MODE n) = 1 → t.f (BUS.WIN.NEW n) = 1 ∧ t.f (BUS.WIN.VALID n) = b2n ((s.can n).log.any fun e
         => decide (BitVec.ofNat 32 e.rxseq = x))) ∧ (t.can n).log = (s.can n).log ∧
       Keeps [BUS.RX_SEL n, BUS.WIN n, BUS.RX_STAT n] [0x01, 0x14] s t := by
  obtain ⟨r, hp, hname, hix, hstored⟩ := RX_SEL_plain n
  obtain ⟨-, -, -, -, hctrl, hsel⟩ := WIN_fields n
  obtain ⟨c, u, w, hbook, hbook', hreply⟩ := hostWrite_word hp.oneWord h (W := fun _ u => (rxSelected n).run (stored r (BUS.RX_SEL n) x u))
    (fun c u _ => writeWord_plain hp c _ (by
      refine .read ?_
      simp only [hname, hix]
      exact (rxSelected_keeps n).does _))
    fun _ u _ hgo => (congrArg CmdSt.go (((foot_rxSelected n).run _).cmd (by decide) (by decide))).trans (by rw [stored_hid, hgo])
  have ht := hbook'.answering hreply
  generalize (hostWrite v [(BUS.RX_SEL n, x)]).run s = t at ht
  have hsv : (stored r (BUS.RX_SEL n) x u).rd (BUS.RX_SEL n) = x := by rw [hp.stored_rd, hstored]
  have hbus : (stored r (BUS.RX_SEL n) x u).hid.bus = s.hid.bus := (congrArg Hidden.bus (stored_hid ..)).trans hbook.network.2
  have hrest : ∀ a, a / 65536 = 20 → a ≠ BUS.RX_SEL n → (stored r (BUS.RX_SEL n) x u).rd a = s.rd a := fun a ha hne =>
    (rd_apply_reg_other _ _ _ u hne).trans (hbook.network.1 a ha)
  have hk := stored_keeps r (BUS.RX_SEL n) x u
  generalize stored r (BUS.RX_SEL n) x u = w' at *
  have hkw := (rxSelected_keeps n).run w'
  refine ⟨((ht.rd _ (BUS.RX_SEL_page n) (RX_SEL_not_sendReg n)).trans (hkw.rd _ hsel List.not_mem_nil)).trans hsv, fun hmode => ?_, ?_,
    (((hbook.sent.keeps.trans hk).trans hkw).trans ht.sent.keeps).mono (by simp) (by simp [eventPages])⟩
  · have hmode' : w'.f (BUS.CTRL.WIN_MODE n) = 1 := (f_of_rd_eq (BUS.CTRL.WIN_MODE n) (hrest _ (BUS.CTRL_page n) hctrl)).trans hmode
    obtain ⟨hnew, hvalid⟩ := (rxSelected_shows n hmode').run
    have hword := ht.rd _ (BUS.WIN_page n) (WIN_not_sendReg n)
    refine ⟨(f_of_rd_eq (BUS.WIN.NEW n) hword).trans hnew, ((f_of_rd_eq (BUS.WIN.VALID n) hword).trans hvalid).trans ?_⟩
    rw [hsv, State.can, hbus, State.can]
  · refine (ht.bus (log_queueless n)).trans (((congrArg CanSt.log ((rxSelected_core n).run w')).trans rfl).trans ?_)
    exact congrArg (fun b : BusSt => (mget ({} : CanSt) b.can n).log) hbus

end

end Sys2Proof.Machine
end

section
/-! SUPPORT for O54: a controller is enabled by the host, or told to recover (R442, R451). -/

namespace Sys2Proof.Machine

/-- The word of a controller as a write stores it. -/
theorem CTRL_word : ∀ n : Fin 4, ∃ r, OneWord r (BUS.CTRL n) ∧ r.name = .BUS_CTRL ∧ r.ix1 (BUS.CTRL n) = n ∧ r.rws = 0xF9000000#32 ∧
    r.stored = 0xFDC0FFFF#32 ∧ ∀ v old : Word, storedWord r v old &&& implMask (BUS.CTRL n) =
      ((v &&& 0xFDC0FFFF#32) ||| (old &&& ~~~0xFDC0FFFF#32)) &&& 0xFFC0FFFF#32 := by
  have hword : ∀ v old : Word, ((v &&& 0xFDC0FFFF#32) ||| (old &&& ~~~0xFDC0FFFF#32)) &&& ~~~(v &&& 0#32) &&& 0xFFC0FFFF#32 =
      ((v &&& 0xFDC0FFFF#32) ||| (old &&& ~~~0xFDC0FFFF#32)) &&& 0xFFC0FFFF#32 := fun v old => by
    rw [BitVec.and_zero, show ~~~(0#32) = BitVec.allOnes 32 from rfl, BitVec.and_allOnes]
  intro n
  match n with
  | 0 => exact ⟨_, ⟨rfl, by decide, rfl, fun _ => rfl⟩, rfl, rfl, rfl, rfl, hword⟩
  | 1 => exact ⟨_, ⟨rfl, by decide, rfl, fun _ => rfl⟩, rfl, rfl, rfl, rfl, hword⟩
  | 2 => exact ⟨_, ⟨rfl, by decide, rfl, fun _ => rfl⟩, rfl, rfl, rfl, rfl, hword⟩
  | 3 => exact ⟨_, ⟨rfl, by decide, rfl, fun _ => rfl⟩, rfl, rfl, rfl, rfl, hword⟩

section
variable (n : Fin 4)

/-- What a write of the word of a controller does beside it. -/
def controlWritten (n : Nat) (v old : Word) : M Unit := do
  if bitsOf v 25 25 = 1 then recoverWritten n
  ctrlEnabled n old

theorem foot_controlWritten (v old : Word) : (controlWritten n v old).In [20, 47] :=
  .ite ((foot_recoverWritten n).bind fun _ => foot_ctrlEnabled n old) (foot_ctrlEnabled n old)

theorem controlWritten_effect {r : RegSpec} (hname : r.name = .BUS_CTRL) (hix : r.ix1 (BUS.CTRL n) = n) (v old : Word) (s : State) :
    (writeEffect [BUS.CTRL n] r (BUS.CTRL n) v old).Does s () ((controlWritten n v old).run s) := by
  refine .read ?_
  simp only [hname, hix]
  exact (foot_controlWritten n v old).does s

theorem controlWritten_keeps (v old : Word) : (controlWritten n v old).Along (Keeps [BUS.STAT n, BUS.RX_STAT n] []) := by
  have k := Keeps.ongoing [BUS.STAT n, BUS.RX_STAT n] []
  have hwf : ∀ (x : FldAt) (m : Nat), x.addr = BUS.STAT n → (wf x m).Along (Keeps [BUS.STAT n, BUS.RX_STAT n] []) := fun x m hx =>
    .keepsWf _ m (by simp [hx])
  have hshow : (showPool n).Along (Keeps [BUS.STAT n, BUS.RX_STAT n] []) := showPool_keeps n _ (by simp)
  have hstop : (do
      wf (BUS.STAT.STATE n) 3
      updCan n fun c => { c with recov := false }
      showPool n : M Unit).Along (Keeps [BUS.STAT n, BUS.RX_STAT n] []) := k.bind (hwf _ _ rfl) fun _ => k.bind (updCan_keeps _ _ _ _) fun _ => hshow
  refine k.thenMore (k.bind (hwf _ _ rfl) fun _ => updCan_keeps _ _ _ _) fun _ => .read fun _ => ?_
  exact k.thenMore (k.bind (hwf _ _ rfl) fun _ => k.bind (hwf _ _ rfl) fun _ => hwf _ _ rfl) fun _ => .ite hstop hshow

/-- A controller that stays enabled, or disabled, shows its pool (R442). -/
theorem ctrlEnabled_same {old : Word} {s : State} (h : bit old.toNat 31 = (s.f (BUS.CTRL.EN n) == 1)) :
    (ctrlEnabled n old).Ends s fun _ t => t.core n = s.core n ∧ Keeps [BUS.RX_STAT n] [] s t := by
  refine .read <| .ite_neg (by simp [h]) <| .ite_neg (by simp [h]) ?_
  exact .ofAlong ((M.Along.ofFixes (showPool_core n) fun _ _ h => h).and (showPool_keeps n [] (by simp))) fun _ _ ht => ht

theorem STAT_ne_RX_STAT : BUS.STAT n ≠ BUS.RX_STAT n := (BUS_STAT_apart_heard n n).2

/-- A field of the error state stands where the pool alone is shown. -/
theorem Keeps.stat {s t : State} (h : Keeps [BUS.RX_STAT n] [] s t) (x : FldAt) (hx : x.addr = BUS.STAT n) : t.f x = s.f x :=
  h.f (fun hin => STAT_ne_RX_STAT n (hx.symm.trans (List.mem_singleton.mp hin))) List.not_mem_nil

/-- A controller that was disabled starts in error active (R442). -/
theorem ctrlEnabled_starts {old : Word} {s : State} (hwas : bit old.toNat 31 = false) (his : s.f (BUS.CTRL.EN n) = 1) :
    (ctrlEnabled n old).Ends s fun _ t => t.f (BUS.STAT.STATE n) = 0 ∧ t.f (BUS.STAT.TEC n) = 0 ∧ t.f (BUS.STAT.REC n) = 0 := by
  refine .read <| .ite_pos (by simp [hwas, his]) ?_
  refine .seq (wf_sets (BUS_STAT_real n _ (by simp)) 0 s) fun _ t ht => .seq (wf_sets (BUS_STAT_real n (BUS.STAT.TEC n) (by simp)) 0 t)
    fun _ u hu => .seq (wf_sets (BUS_STAT_real n (BUS.STAT.REC n) (by simp)) 0 u) fun _ v hv => .ite_neg (by simp [hwas]) <|
    .ofAlong (showPool_keeps (as := [BUS.RX_STAT n]) n [] (by simp)) fun _ w hk => ?_
  have hstat := fun x hx => Keeps.stat n hk x hx
  exact ⟨(hstat _ rfl).trans ((hv.2.2.1 _ (beside_REC n _ (by simp))).trans ((hu.2.2.1 _ (beside_TEC n _ (by simp))).trans ht.1)),
    (hstat _ rfl).trans ((hv.2.2.1 _ (beside_REC n _ (by simp))).trans hu.1), (hstat _ rfl).trans hv.1⟩

/-- A recovery that the host starts (R451). -/
theorem recoverWritten_starts (s : State) : (recoverWritten n).Ends s fun _ t =>
    t.f (BUS.STAT.REC_HELD n) = 0 ∧ t.recov n = true ∧ t.f (BUS.STAT.STATE n) = s.f (BUS.STAT.STATE n) ∧ ∀ a, a ≠ BUS.STAT n → t.rd a = s.rd a := by
  refine .seq (wf_sets (BUS_STAT_real n (BUS.STAT.REC_HELD n) (by simp)) 0 s) fun _ t ht => ?_
  obtain ⟨_, u, hd, hrecov, hrd, -⟩ := recov_updCan n true t
  exact .ofDoes hd ⟨(f_of_rd_eq (BUS.STAT.REC_HELD n) (hrd _)).trans ht.1, hrecov,
    (f_of_rd_eq (BUS.STAT.STATE n) (hrd _)).trans (ht.2.2.1 _ (beside_REC_HELD n _ (by simp))), fun a ha => (hrd a).trans (ht.2.2.2 a ha)⟩

theorem CTRL_ne_STAT : ∀ n : Fin 4, BUS.CTRL n ∉ [BUS.STAT n, BUS.RX_STAT n] := by decide

/-- RECOVER written to a controller that stays as it is (R451). -/
theorem controlWritten_recovers {v old : Word} {s : State} (hv : bitsOf v 25 25 = 1) (h : bit old.toNat 31 = (s.f (BUS.CTRL.EN n) == 1)) :
    (controlWritten n v old).Ends s fun _ t =>
      t.f (BUS.STAT.REC_HELD n) = 0 ∧ t.recov n = true ∧ t.f (BUS.STAT.STATE n) = s.f (BUS.STAT.STATE n) := by
  refine .ite_pos hv <| .seq (recoverWritten_starts n s) fun _ t ht => ?_
  obtain ⟨hheld, hrecov, hstate, hrd⟩ := ht
  have hen : t.f (BUS.CTRL.EN n) = s.f (BUS.CTRL.EN n) := f_of_rd_eq (BUS.CTRL.EN n) (hrd _ fun he => CTRL_ne_STAT n (List.mem_cons.mpr (.inl he)))
  obtain ⟨_, u, hd, hcore, hk⟩ := ctrlEnabled_same n (old := old) (s := t) (by rw [h, hen])
  exact .ofDoes hd ⟨(Keeps.stat n hk _ rfl).trans hheld, ((congrArg CanSt.recov hcore).trans rfl).trans hrecov,
    (Keeps.stat n hk _ rfl).trans hstate⟩

/-- A controller that is enabled by a write (R442). -/
theorem controlWritten_enables {v old : Word} {s : State} (hwas : bit old.toNat 31 = false) (his : s.f (BUS.CTRL.EN n) = 1) :
    (controlWritten n v old).Ends s fun _ t => t.f (BUS.STAT.STATE n) = 0 ∧ t.f (BUS.STAT.TEC n) = 0 ∧ t.f (BUS.STAT.REC n) = 0 := by
  refine .ite (.seq (recoverWritten_starts n s) fun _ t ht => ctrlEnabled_starts n hwas ?_) (ctrlEnabled_starts n hwas his)
  exact (f_of_rd_eq (BUS.CTRL.EN n) (ht.2.2.2 _ fun he => CTRL_ne_STAT n (List.mem_cons.mpr (.inl he)))).trans his

theorem bit_last (w : Word) : bit w.toNat 31 = (bitsOf w 31 31 == 1) := rfl

/-- RECOVER (R451). -/
theorem recover_starts {s : State} {v : Via} (h : s.accepts v [(BUS.CTRL n, withBits (s.keepWord (BUS.CTRL n)) 25 25 1)] = true) :
    let t := (writeField v (BUS.CTRL.RECOVER n) 1).run s
    t.f (BUS.STAT.REC_HELD n) = 0 ∧ (t.can n).recov = true ∧ t.f (BUS.STAT.STATE n) = s.f (BUS.STAT.STATE n) ∧
       Keeps [BUS.CTRL n, BUS.STAT n, BUS.RX_STAT n] [0x01, 0x14] s t := by
  obtain ⟨r, hp, hname, hix, hrws, hstored, hword⟩ := CTRL_word n
  have hpage := BUS.CTRL_page n
  have hd : (writeField v (BUS.CTRL.RECOVER n) 1).Does s () _ :=
    .read <| (foot_hostWrite v [(BUS.CTRL n, withBits (s.keepWord (BUS.CTRL n)) 25 25 1)]).does s
  intro t
  rw [show t = _ from hd.run]
  clear t hd
  rw [hp.keepWord, hstored] at h ⊢
  set x := withBits (s.rd (BUS.CTRL n) &&& 0xFDC0FFFF#32) 25 25 1 with hx
  have hset : ∀ u, Bookkept s u → (stored r (BUS.CTRL n) x u).rd (BUS.CTRL n) = s.rd (BUS.CTRL n) &&& 0xFFC0FFFF#32 := fun u hu => by
    rw [hp.stored_rd, hu.network.1 _ hpage, hword, hx]
    exact congrArg (· &&& 0xFFC0FFFF#32) (keep_stored (s.rd (BUS.CTRL n)) 0xFDC0FFFF#32 0x2000000#32 (by decide))
  have hafter : ∀ u, Bookkept s u → ((controlWritten n x (u.rd (BUS.CTRL n))).run (stored r (BUS.CTRL n) x u)).rd (BUS.CTRL n) =
      s.rd (BUS.CTRL n) &&& 0xFFC0FFFF#32 := fun u hu =>
    (((controlWritten_keeps n x _).run _).rd _ (CTRL_ne_STAT n) List.not_mem_nil).trans (hset u hu)
  obtain ⟨_, u, w, hbook, hbook', hreply⟩ := hostWrite_word hp h
    (W := fun _ u => (controlWritten n x (u.rd (BUS.CTRL n))).run (stored r (BUS.CTRL n) x u))
    (fun c u hu => hp.writeWord_still (by rw [hname]; decide) c (controlWritten_effect n hname hix x _ _) (by
      rw [hafter u hu, hu.network.1 _ hpage, hrws]
      exact xor_cleared _ _ _ (by decide)))
    fun _ u _ hgo => (congrArg CmdSt.go (((foot_controlWritten n x _).run _).cmd (by decide) (by decide))).trans (by rw [stored_hid, hgo])
  have ht := hbook'.answering hreply
  generalize (hostWrite v _).run s = t at ht ⊢
  have hen : bit (u.rd (BUS.CTRL n)).toNat 31 = ((stored r (BUS.CTRL n) x u).f (BUS.CTRL.EN n) == 1) := by
    rw [bit_last, hbook.network.1 _ hpage]
    show _ = (bitsOf ((stored r (BUS.CTRL n) x u).rd (BUS.CTRL n)) 31 31 == 1)
    rw [hset u hbook, bitsOf_and (by decide) (by decide)]
  obtain ⟨hheld, hrecov, hstate⟩ := (controlWritten_recovers n (v := x) (bitsOf_withBits_same _ 1 (show 25 < 32 by decide)) hen).run
  have hkw := (controlWritten_keeps n x (u.rd (BUS.CTRL n))).run (stored r (BUS.CTRL n) x u)
  have hrest : (stored r (BUS.CTRL n) x u).rd (BUS.STAT n) = s.rd (BUS.STAT n) :=
    (rd_apply_reg_other _ _ _ u fun he => CTRL_ne_STAT n (List.mem_cons.mpr (.inl he.symm))).trans (hbook.network.1 _ (BUS.STAT_page n))
  have hstat : ∀ y : FldAt, y.addr = BUS.STAT n → _ := fun y hy => ht.f y (hy ▸ BUS.STAT_page n) (hy ▸ BUS_STAT_not_sendReg n)
  exact ⟨(hstat _ rfl).trans hheld, (ht.bus (recov_queueless n)).trans hrecov,
    ((hstat _ rfl).trans hstate).trans (f_of_rd_eq (BUS.STAT.STATE n) hrest),
    (((hbook.sent.keeps.trans (stored_keeps r (BUS.CTRL n) x u)).trans hkw).trans ht.sent.keeps).mono (by simp) (by simp [eventPages])⟩

/-- The write of the word of a disabled controller stores it, starts the controller and logs the change (R442). -/
theorem writeWord_enables (c : Ctx) {x : Word} {s : State} (hwas : s.f (BUS.CTRL.EN n) = 0) (hx : bitsOf x 31 31 = 1) :
    (writeWord c [BUS.CTRL n] (BUS.CTRL n) x).Ends s fun _ t =>
      t.f (BUS.CTRL.EN n) = 1 ∧ (t.f (BUS.STAT.STATE n) = 0 ∧ t.f (BUS.STAT.TEC n) = 0 ∧ t.f (BUS.STAT.REC n) = 0) ∧
        t.hid.cmd.go = s.hid.cmd.go ∧ KeepsConfig [BUS.CTRL n, BUS.STAT n, BUS.RX_STAT n] [] s t := by
  obtain ⟨r, hp, hname, hix, -, -, hword⟩ := CTRL_word n
  have hpage : ∀ {a : Nat}, a / 65536 = 20 → a ≠ SAF.CHANGE := fun ha he => by
    rw [he] at ha
    exact absurd ha (by decide)
  unfold writeWord
  simp only [hp.spec]
  refine .ite_neg (by rw [hname]; decide) <| .bind (M.does_rd _ s) <| .bind (M.does_wr _ _ s) <|
    .bind (controlWritten_effect n hname hix x (s.rd (BUS.CTRL n)) _) <| .bind (M.does_rd _ _) ?_
  change M.Ends _ ((controlWritten n x (s.rd (BUS.CTRL n))).run (stored r (BUS.CTRL n) x s)) _
  have hset : (stored r (BUS.CTRL n) x s).f (BUS.CTRL.EN n) = 1 := by
    show bitsOf ((stored r (BUS.CTRL n) x s).rd (BUS.CTRL n)) 31 31 = 1
    rw [hp.stored_rd, hword, bitsOf_and (by decide) (by decide), bitsOf_one, BitVec.getLsbD_or, BitVec.getLsbD_and, BitVec.getLsbD_and]
    have hbit : x.getLsbD 31 = true := by
      rw [bitsOf_one] at hx
      exact Bool.toNat_eq_one.mp hx
    rw [hbit]
    rfl
  have hoff : bit (s.rd (BUS.CTRL n)).toNat 31 = false := by
    rw [bit_last]
    exact beq_false_of_ne fun he => absurd (hwas.symm.trans he) (by decide)
  have hshown := (controlWritten_enables n (v := x) hoff hset).run
  have hcw := controlWritten_keeps n x (s.rd (BUS.CTRL n))
  have hk := ((stored_keeps r (BUS.CTRL n) x s).trans (hcw.run _)).mono (bs := [BUS.CTRL n, BUS.STAT n, BUS.RX_STAT n]) (qs := []) (by simp) (by simp)
  have hen : ((controlWritten n x (s.rd (BUS.CTRL n))).run (stored r (BUS.CTRL n) x s)).f (BUS.CTRL.EN n) = 1 :=
    (f_of_rd_eq (BUS.CTRL.EN n) ((hcw.run _).rd _ (CTRL_ne_STAT n) List.not_mem_nil)).trans hset
  have hgo : ((controlWritten n x (s.rd (BUS.CTRL n))).run (stored r (BUS.CTRL n) x s)).hid.cmd.go = s.hid.cmd.go :=
    (congrArg CmdSt.go (((foot_controlWritten n x _).run _).cmd (by decide) (by decide))).trans (by rw [stored_hid])
  generalize (controlWritten n x (s.rd (BUS.CTRL n))).run (stored r (BUS.CTRL n) x s) = u at *
  have hend : ∀ t, ChangeLogged u t → t.f (BUS.CTRL.EN n) = 1 ∧ (t.f (BUS.STAT.STATE n) = 0 ∧ t.f (BUS.STAT.TEC n) = 0 ∧
      t.f (BUS.STAT.REC n) = 0) ∧ t.hid.cmd.go = s.hid.cmd.go ∧ KeepsConfig [BUS.CTRL n, BUS.STAT n, BUS.RX_STAT n] [] s t := fun t ht => by
    have hf : ∀ y : FldAt, y.addr / 65536 = 20 → t.f y = u.f y := fun y hy => f_of_rd_eq y (ht.rd _ (hpage hy))
    have hstat := BUS.STAT_page n
    refine ⟨(hf _ (BUS.CTRL_page n)).trans hen, ⟨(hf _ hstat).trans hshown.1, (hf _ hstat).trans hshown.2.1, (hf _ hstat).trans hshown.2.2⟩,
      (congrArg (·.cmd.go) ht.hid).trans hgo, fun a ha _ => ?_, ht.tabs.trans hk.tabs, ht.vio.trans hk.vio, ht.pending.trans hk.pending⟩
    exact (ht.rd a fun he => ha (List.mem_cons.mpr (.inl he))).trans (hk.rd a (fun hin => ha (List.mem_cons_of_mem _ hin)) List.not_mem_nil)
  have hpage' : ¬ BUS.CTRL n / 65536 = 0x10 := by rw [BUS.CTRL_page]; decide
  exact .ite (.ite_neg hpage' <| .ofAlong (change_logged _ _ _ _ _ _) fun _ t ht => hend t ht)
    (.ofDoes (M.does_pure () u) (hend u (ChangeLogged.ongoing.refl u)))

/-- CONTROLLER_ENABLE (R442). -/
theorem controllerEnable_enables {s : State} {v : Via} {x : Word} (h : s.accepts v [(BUS.CTRL n, x)] = true)
    (hwas : s.f (BUS.CTRL.EN n) = 0) (hx : bitsOf x 31 31 = 1) :
    let t := (hostWrite v [(BUS.CTRL n, x)]).run s
    t.f (BUS.CTRL.EN n) = 1 ∧ t.f (BUS.STAT.STATE n) = 0 ∧ t.f (BUS.STAT.TEC n) = 0 ∧ t.f (BUS.STAT.REC n) = 0 ∧
       KeepsConfig [BUS.CTRL n, BUS.STAT n, BUS.RX_STAT n] [0x01, 0x14] s t := by
  obtain ⟨r, hp, -⟩ := CTRL_word n
  have hends := fun c (u : State) (hu : Bookkept s u) => writeWord_enables n c (x := x)
    ((f_of_rd_eq (BUS.CTRL.EN n) (hu.network.1 _ (BUS.CTRL_page n))).trans hwas) hx
  obtain ⟨c, u, w, hbook, hbook', hreply⟩ := hostWrite_word hp h (W := fun c u => (writeWord c [BUS.CTRL n] (BUS.CTRL n) x).run u)
    (fun c u hu => by
      obtain ⟨_, t, hd, -⟩ := hends c u hu
      rw [hd.run]
      exact hd)
    fun c u hu hgo => (hends c u hu).run.2.2.1.trans hgo
  obtain ⟨hen, ⟨hstate, htec, hrec⟩, -, hk⟩ := (hends c u hbook).run
  have ht := hbook'.answering hreply
  intro t
  have hfield := fun (y : FldAt) (hy : y.addr = BUS.STAT n) => ht.f y (hy ▸ BUS.STAT_page n) (hy ▸ BUS_STAT_not_sendReg n)
  have hlast := ht.sent.keeps
  have hfirst := hbook.sent.keeps
  refine ⟨(ht.f (BUS.CTRL.EN n) (BUS.CTRL_page n) (CTRL_not_sendReg n)).trans hen, (hfield _ rfl).trans hstate, (hfield _ rfl).trans htec,
    (hfield _ rfl).trans hrec, fun a ha hn => ?_, hlast.tabs.trans (hk.tabs.trans hfirst.tabs), hlast.vio.trans (hk.vio.trans hfirst.vio),
    hlast.pending.trans (hk.pending.trans hfirst.pending)⟩
  have hn' : a / 65536 ∉ eventPages := hn
  exact (hlast.rd a List.not_mem_nil hn').trans <| (hk.rd a ha List.not_mem_nil).trans (hfirst.rd a List.not_mem_nil hn')

end

end Sys2Proof.Machine
end

section
/-! Statement O54: the CAN controllers (R440 to R451). -/

namespace Sys2Proof.Machine

theorem allRead {l : List LogEntry} {cd0 cd2 : Nat} (h : (l.all fun e => decide (e.rxseq < cd0) && decide (e.rxseq < cd2)) = true) :
    ∀ e ∈ l, e.rxseq < cd0 ∧ e.rxseq < cd2 := fun e he => by
  simpa only [Bool.and_eq_true, decide_eq_true_eq] using List.all_eq_true.mp h e he

/-- Settles O54: what is logged stands along whatever the readers do with it; error states and their occurrences are shown word by
word, and a reply moves transmit queues and the host link alone. -/
theorem canControllersLogAndSend : Obligations.Can_controllers_log_and_send := by
  unfold Obligations.Can_controllers_log_and_send
  refine ⟨fun s n f sof hwf ha hp ht _ hroom => .of_checked rfl hwf (canReceived_logs sof ha hp ht hroom).run,
    fun s n f sof hwf ha hp ht hid hroom hread =>
      .of_checked rfl hwf (canReceived_unused sof ha hp ht hroom hid (allRead hread)).run,
    fun s n f sof hwf ha hp ht hreads hfull => ?_, fun s n sof u ha hp hon hfresh hhead hread hroom => ?_,
    fun s n passive tec re ha hp hstate => .of_ends rfl ((busState_shows n passive tec re hstate).onIsland ha hp),
    fun s n re ha hp hstate => ?_, fun s n ha hp hstate hmay => .of_ends rfl ((busRecovered_shows n hstate hmay).onIsland ha hp),
    fun s v n h => .of_checked rfl (via_wf_of_accepts h) (recover_starts n h),
    fun s v n x h => .of_checked rfl (via_wf_of_accepts h) (rxSelect_selects n h),
    fun s v n x h hx => .of_checked rfl (via_wf_of_accepts h) (controllerEnable_enables n h hx.1 hx.2)⟩
  · have hdrop := (canReceived_drops sof ha hp ht hreads hfull).run
    exact .of_checked rfl hwf ⟨hdrop.next, hdrop.dropped, hdrop.lost, hdrop.counted, hdrop.log, hdrop.keeps⟩
  · have hfresh' : ∀ x ∈ (s.can n).tx, s.hid.now < x.born + x.life := fun x hx => of_decide_eq_true (List.all_eq_true.mp hfresh x hx)
    exact .of_ends rfl ((canTransmitted_logs n sof hon hfresh' hhead (allRead hread) hroom).onIsland ha hp)
  · obtain ⟨_, t, hd, hshown, hcounted, hk⟩ := busOff_shows n re hstate
    exact .of_ends rfl (M.Ends.onIsland ha hp <| .ofDoes hd ⟨hshown.state, hshown.tec, hshown.re, hshown.count, hshown.recov,
      fun h0 => (hshown.queue h0).2, hcounted, hk⟩)

end Sys2Proof.Machine
end
